-- ==== Sys2Proof/Word.lean ====
section
/-! DEFINITION. The words of the K8 and their plainest arithmetic (spec/00_scope.md R5, R6, R12, R13). -/

namespace Sys2Proof

/-- A 64-bit word. -/
abbrev Word := BitVec 64

/-- A byte. -/
abbrev Byte := BitVec 8

/-- A 48-bit virtual address (R144, R146). -/
abbrev Va := BitVec 48

/-- A six-bit register field of an instruction word (R43). -/
abbrev R6 := BitVec 6

/-- `x[lo + n - 1 : lo]` (R5, R12). -/
def bits {w : Nat} (x : BitVec w) (lo n : Nat) : BitVec n := x.extractLsb' lo n

/-- One bit of a word as a Bool. -/
def bit {w : Nat} (x : BitVec w) (i : Nat) : Bool := x.getLsbD i

/-- The value `ZEXT(x, w)` narrowed or widened to a word (R13). -/
def toW {w : Nat} (x : BitVec w) : Word := x.setWidth 64

/-- The value `SEXT(x, w) mod 2^64` (R13). -/
def sxW {w : Nat} (x : BitVec w) : Word := x.signExtend 64

/-- A Bool as the word 0 or 1. -/
def b2w (b : Bool) : Word := if b then 1 else 0

/-- A Bool as one bit. -/
def b2b (b : Bool) : BitVec 1 := if b then 1 else 0

/-- The error value `2^63 + code` of engine forms (R175, R262, R337). -/
def errW (code : Nat) : Word := BitVec.ofNat 64 (2 ^ 63 + code)

end Sys2Proof
end

