-- ==== Sys2Proof/Machine/Fp.lean ====
section
/-! DEFINITION. Numbers, formats, rounding and the conversion helper CONV (spec/03 R66-R84), the Q4N codebook
(R74, R75, R77), block scales (R73, R76) and the counter-based generator (R88). Every value is exact until CONV
rounds it once. -/

namespace Sys2Proof.Machine

/-- The sticky flags of FPFLAG, one bit each (R39). -/
abbrev FpFlags := BitVec 7

def fNV : FpFlags := 1
def fDZ : FpFlags := 2
def fOF : FpFlags := 4
def fUF : FpFlags := 8
def fNX : FpFlags := 16
def fFMT : FpFlags := 32
def fSAT : FpFlags := 64

/-- `x` when `c`, else no flag. -/
def flagIf (c : Bool) (x : FpFlags) : FpFlags := if c then x else 0

/-- An exact extended real. `fin neg m e st` is `(-1)^neg * m * 2^e`; with `st` its magnitude lies strictly between
`m * 2^e` and `(m + 1) * 2^e` (the result of a quotient, a root or a transcendental function). -/
inductive Xr where
  | nan
  | inf (neg : Bool)
  | fin (neg : Bool) (m : Nat) (e : Int) (st : Bool)
deriving DecidableEq, Repr

/-- Plus zero. -/
def xZero : Xr := .fin false 0 0 false

/-- The integer `i`. -/
def xInt (i : Int) : Xr := .fin (decide (i < 0)) i.natAbs 0 false

def xIsNan : Xr → Bool
  | .nan => true
  | _ => false

def xIsInf : Xr → Bool
  | .inf _ => true
  | _ => false

def xIsZero : Xr → Bool
  | .fin _ m _ st => m == 0 && !st
  | _ => false

/-- The sign bit (a NaN has none: the canonical NaN is positive). -/
def xNeg : Xr → Bool
  | .nan => false
  | .inf n => n
  | .fin n _ _ _ => n

def xFlip : Xr → Xr
  | .nan => .nan
  | .inf n => .inf (!n)
  | .fin n m e st => .fin (!n) m e st

def xAbs : Xr → Xr
  | .nan => .nan
  | .inf _ => .inf false
  | .fin _ m e st => .fin false m e st

/-- `x * 2^k`, exact. -/
def xScale (k : Int) : Xr → Xr
  | .nan => .nan
  | .inf n => .inf n
  | .fin n m e st => .fin n m (e + k) st

/-! ### Formats (R66, R69, R71, R136) -/

/-- A target or source format of a conversion. `int w signed` covers INT8, INT4 and the integer types of VCVT. -/
inductive Fmt where
  | fp32 | bf16 | fp16 | e4m3 | e5m2 | e3m2 | e2m3 | e2m1
  | int (w : Nat) (signed : Bool)
  | t2
deriving DecidableEq, Repr

/-- Mantissa width M (R69). -/
def mantOf : Fmt → Nat
  | .fp32 => 23 | .bf16 => 7 | .fp16 => 10 | .e4m3 => 3 | .e5m2 => 2 | .e3m2 => 2 | .e2m3 => 3 | .e2m1 => 1
  | .int _ _ => 0 | .t2 => 0

/-- Exponent width (R69). -/
def expOf : Fmt → Nat
  | .fp32 => 8 | .bf16 => 8 | .fp16 => 5 | .e4m3 => 4 | .e5m2 => 5 | .e3m2 => 3 | .e2m3 => 2 | .e2m1 => 2
  | .int _ _ => 0 | .t2 => 0

/-- Bias (R69). -/
def biasOf : Fmt → Nat
  | .fp32 => 127 | .bf16 => 127 | .fp16 => 15 | .e4m3 => 7 | .e5m2 => 15 | .e3m2 => 3 | .e2m3 => 1 | .e2m1 => 1
  | .int _ _ => 0 | .t2 => 0

/-- Infinity and NaN as in IEEE 754 (R69). -/
def hasInf : Fmt → Bool
  | .fp32 | .bf16 | .fp16 | .e5m2 => true
  | _ => false

def isIntFmt : Fmt → Bool
  | .int _ _ | .t2 => true
  | _ => false

/-- Lower and upper end of an integer target (R71, R81). -/
def intLo : Fmt → Int
  | .int w true => -(2 ^ (w - 1) : Int)
  | .t2 => -1
  | _ => 0

def intHi : Fmt → Int
  | .int w true => 2 ^ (w - 1) - 1
  | .int w false => 2 ^ w - 1
  | .t2 => 1
  | _ => 0

/-- Width of an integer target's code. -/
def intW : Fmt → Nat
  | .int w _ => w
  | .t2 => 2
  | _ => 0

/-- MAX as (mantissa with its leading bit, exponent of its last place) (R69). -/
def maxMag (f : Fmt) : Nat × Int :=
  let m := mantOf f
  match f with
  | .e4m3 => (14, 5)
  | .e3m2 => (7, 2)
  | .e2m3 => (15, -1)
  | .e2m1 => (3, 1)
  | _ => (2 ^ (m + 1) - 1, (2 ^ (expOf f) - 2 : Int) - (biasOf f : Int) - (m : Int))

/-- The encoding of the format's MAX. -/
def maxCode (f : Fmt) : Nat :=
  match f with
  | .e4m3 => 0x7E
  | .e3m2 => 0x1F
  | .e2m3 => 0x1F
  | .e2m1 => 7
  | _ => (2 ^ expOf f - 2) * 2 ^ mantOf f + (2 ^ mantOf f - 1)

/-- The sign bit's weight. -/
def signBit (f : Fmt) : Nat := 2 ^ (expOf f + mantOf f)

/-- The canonical NaN (R70); a format without NaN has none. -/
def nanCode (f : Fmt) : Nat :=
  match f with
  | .e4m3 => 0x7F
  | .fp32 | .bf16 | .fp16 | .e5m2 => (2 ^ expOf f - 1) * 2 ^ mantOf f + 2 ^ (mantOf f - 1)
  | _ => 0

/-- The infinity of an IEEE format. -/
def infCode (f : Fmt) : Nat := (2 ^ expOf f - 1) * 2 ^ mantOf f

/-- The value of an encoding (R69, R71, R84). Container bits above the value are ignored (R68). -/
def decodeFmt (f : Fmt) (x : Nat) : Xr :=
  match f with
  | .int w signed =>
    let v := x % 2 ^ w
    if signed && decide (2 ^ (w - 1) ≤ v) then xInt ((v : Int) - 2 ^ w) else xInt v
  | .t2 => if x % 4 == 1 then xInt 1 else if x % 4 == 3 then xInt (-1) else xZero
  | _ =>
    let mw := mantOf f
    let ew := expOf f
    let m := x % 2 ^ mw
    let e := (x / 2 ^ mw) % 2 ^ ew
    let neg := decide ((x / 2 ^ (mw + ew)) % 2 = 1)
    if hasInf f && e == 2 ^ ew - 1 then (if m == 0 then .inf neg else .nan)
    else if f == .e4m3 && e == 15 && m == 7 then .nan
    else if e == 0 then
      (if f == .bf16 then .fin neg 0 0 false else .fin neg m (1 - (biasOf f : Int) - mw) false)
    else .fin neg (m + 2 ^ mw) ((e : Int) - biasOf f - mw) false

/-- An input NaN whose mantissa's top bit is clear (R70). -/
def isSnan (f : Fmt) (x : Nat) : Bool :=
  let mw := mantOf f
  let m := x % 2 ^ mw
  hasInf f && decide ((x / 2 ^ mw) % 2 ^ expOf f = 2 ^ expOf f - 1) && m != 0
    && decide (m < 2 ^ (mw - 1))

/-! ### Rounding (R78-R81) -/

/-- A resolved rounding mode; SR carries its draw `rnd` (R79). -/
inductive Rnd where
  | rne | rz | ru | rd
  | sr (rnd : BitVec 32)
deriving DecidableEq, Repr

/-- A mode of FPCTL.RM or of codes 0-3 (R38, R78). -/
def rndOf (c : Nat) : Rnd :=
  match c with
  | 1 => .rz | 2 => .ru | 3 => .rd | _ => .rne

/-- The magnitude `m * 2^e` (with `st`) as a multiple of `2^q`: the multiple below it, whether it is exact, and the
comparison of the rest with one half (0 below, 1 equal, 2 above). -/
def splitAt (m : Nat) (e q : Int) (st : Bool) : Nat × Bool × Nat :=
  if q ≤ e then (m * 2 ^ (e - q).toNat, !st, 0)
  else
    let sh := (q - e).toNat
    let lo := m / 2 ^ sh
    let rem := m % 2 ^ sh
    let twice := 2 * rem
    let cmp := if twice < 2 ^ sh then 0 else if twice == 2 ^ sh && !st then 1 else 2
    (lo, rem == 0 && !st, cmp)

/-- Round the magnitude to a multiple of `2^q`: the multiple and whether it is exact (R78, R79). -/
def roundMag (rm : Rnd) (neg : Bool) (m : Nat) (e q : Int) (st : Bool) : Nat × Bool :=
  let (lo, exact, cmp) := splitAt m e q st
  if exact then (lo, true)
  else
    let up : Bool :=
      match rm with
      | .rne => cmp == 2 || (cmp == 1 && lo % 2 == 1)
      | .rz => false
      | .ru => !neg
      | .rd => neg
      | .sr rnd =>
        -- D := floor(|x - lo| / |hi - lo| * 2^24) (R79)
        let d := if q ≤ e then 0 else ((m % 2 ^ (q - e).toNat) * 2 ^ 24) / 2 ^ (q - e).toNat
        decide (rnd.toNat / 256 < d)
    (if up then lo + 1 else lo, false)

/-- The exponent of the last place of `m * 2^e` at `p` mantissa bits. -/
def lastPlace (m : Nat) (e : Int) (p : Nat) : Int := (Nat.log2 m : Int) + e - p

/-- Compare `a * 2^ea` with `b * 2^eb`: true when above. -/
def magGt (a : Nat) (ea : Int) (b : Nat) (eb : Int) : Bool :=
  if ea ≤ eb then decide (b * 2 ^ (eb - ea).toNat < a) else decide (b < a * 2 ^ (ea - eb).toNat)

/-- Two's-complement code of an integer. -/
def intCode (w : Nat) (i : Int) : Nat := (i % (2 ^ w : Int)).toNat

/-- The IEEE overflow result is an infinity for this mode and sign (R81). -/
def ovfInf (rm : Rnd) (neg : Bool) : Bool :=
  match rm with
  | .rne => true
  | .sr _ => true
  | .rz => false
  | .ru => !neg
  | .rd => neg

/-- CONV to an integer target (R80, R81). -/
def convInt (x : Xr) (f : Fmt) (rm : Rnd) : Nat × FpFlags :=
  match x with
  | .nan => (0, fNV)
  | .inf neg => (intCode (intW f) (if neg then intLo f else intHi f), fNV)
  | .fin neg m e st =>
    let (r, exact) :=
      match rm with
      | .sr _ =>
        -- hi beyond the range: as under RNE (R79)
        let lo := (splitAt m e 0 st).1
        let hiI : Int := if neg then -((lo : Int) + 1) else (lo : Int) + 1
        if hiI < intLo f || intHi f < hiI then roundMag .rne neg m e 0 st else roundMag rm neg m e 0 st
      | _ => roundMag rm neg m e 0 st
    let i : Int := if neg then -(r : Int) else r
    if i < intLo f then (intCode (intW f) (intLo f), fSAT ||| fNX)
    else if intHi f < i then (intCode (intW f) (intHi f), fSAT ||| fNX)
    else (intCode (intW f) i, flagIf (!exact) fNX)

/-- What a floating target holds for a rounded magnitude beyond MAX (R81). -/
def ovfResult (f : Fmt) (rm : Rnd) (neg sat : Bool) : Nat × FpFlags :=
  let s := if neg then signBit f else 0
  if sat || !(hasInf f || f == .e4m3) then (s + maxCode f, fOF ||| fNX ||| fSAT)
  else if ovfInf rm neg then
    (if hasInf f then s + infCode f else nanCode f, fOF ||| fNX)
  else (s + maxCode f, fOF ||| fNX)

/-- CONV to a floating target (R80, R81, R84). DESIGN CHOICE (log 84): a BF16 result below 2^-126 is rounded as if the
exponent were unbounded before R84's rule writes zero, since BF16 has no subnormal spacing (R69). -/
def convFp (x : Xr) (f : Fmt) (rm : Rnd) (sat : Bool) : Nat × FpFlags :=
  match x with
  | .nan => if hasInf f || f == .e4m3 then (nanCode f, 0) else (0, fNV)
  | .inf neg =>
    let s := if neg then signBit f else 0
    if sat then (s + maxCode f, fSAT)
    else if hasInf f then (s + infCode f, 0)
    else if f == .e4m3 then (nanCode f, fNV)
    else (s + maxCode f, fNV ||| fSAT)
  | .fin neg m e st =>
    let s := if neg then signBit f else 0
    if m == 0 && !st then (s, 0)
    else
      let p := mantOf f
      let emin : Int := 1 - (biasOf f : Int)
      let qU := lastPlace m e p
      let qMin : Int := emin - p
      let q := if f == .bf16 then qU else max qU qMin
      -- SR with hi beyond MAX rounds as RNE (R79)
      let rm' :=
        match rm with
        | .sr _ => if magGt ((splitAt m e q st).1 + 1) q (maxMag f).1 (maxMag f).2 then Rnd.rne else rm
        | _ => rm
      let (r, exact) := roundMag rm' neg m e q st
      if magGt r q (maxMag f).1 (maxMag f).2 then ovfResult f rm' neg sat
      else
        let (rU, _) := roundMag rm' neg m e qU st
        let tiny := magGt 1 emin rU qU
        if f == .bf16 && tiny then (s, fUF ||| fNX)
        else
          -- the encoding of r * 2^q: below 2^p it is a subnormal, at 2^(p+1) it carries
          let code :=
            if r < 2 ^ p then r
            else
              let (r', q') := if r == 2 ^ (p + 1) then (2 ^ p, q + 1) else (r, q)
              ((q' - qMin).toNat + 1) * 2 ^ p + (r' - 2 ^ p)
          (s + code, flagIf (!exact) fNX ||| flagIf (!exact && tiny) fUF)

/-- CONV(x, f, rm, sat) of R80 and R81: the encoded result and its flags. -/
def conv (x : Xr) (f : Fmt) (rm : Rnd) (sat : Bool) : Nat × FpFlags :=
  if isIntFmt f then convInt x f rm else convFp x f rm sat

/-- RN_F32 (R80): the encoding and its flags. -/
def rnF32 (x : Xr) : Nat × FpFlags := conv x .fp32 .rne false

/-- RN_F32 as a value, without its flags. -/
def rnF32x (x : Xr) : Xr := decodeFmt .fp32 (rnF32 x).1

/-- RN_BF16 as a value, without flags (R73). -/
def rnBf16x (x : Xr) : Xr := decodeFmt .bf16 (conv x .bf16 .rne false).1

/-! ### Exact operations -/

/-- Signed mantissa of a finite value at exponent `q ≤ e`. -/
def sgnMant (neg : Bool) (m : Nat) (e q : Int) : Int :=
  let v : Int := m * 2 ^ (e - q).toNat
  if neg then -v else v

/-- A finite value from a signed mantissa; `negZ` is the sign of an exact zero. -/
def ofSgn (v : Int) (q : Int) (negZ : Bool) : Xr :=
  if v == 0 then .fin negZ 0 0 false else .fin (decide (v < 0)) v.natAbs q false

/-- Exact product (R86, R120): 0 times an infinity is NaN and sets NV. -/
def xMul (a b : Xr) : Xr × FpFlags :=
  match a, b with
  | .nan, _ => (.nan, 0)
  | _, .nan => (.nan, 0)
  | .inf n, .inf k => (.inf (n != k), 0)
  | .inf n, .fin k m _ _ => if m == 0 then (.nan, fNV) else (.inf (n != k), 0)
  | .fin n m _ _, .inf k => if m == 0 then (.nan, fNV) else (.inf (n != k), 0)
  | .fin n m e _, .fin k m' e' _ => (.fin (n != k) (m * m') (if m * m' == 0 then 0 else e + e') false, 0)

/-- The least exponent of the finite members. -/
def minExp : List Xr → Int → Int
  | [], q => q
  | .fin _ m e _ :: l, q => minExp l (if m == 0 then q else min q e)
  | _ :: l, q => minExp l q

/-- The exact sum of the finite members at exponent `q`. -/
def sumAt (q : Int) : List Xr → Int
  | [] => 0
  | .fin n m e _ :: l => (if m == 0 then 0 else sgnMant n m e q) + sumAt q l
  | _ :: l => sumAt q l

/-- The group sum of R86 before its rounding: NaN, both infinities (NV), one infinity, or the exact sum, whose zero is
−0 only when the group is non-empty and every member is −0. -/
def groupSum (p : List Xr) : Xr × FpFlags :=
  if p.any xIsNan then (.nan, 0)
  else
    let pos := p.any (fun x => xIsInf x && !xNeg x)
    let neg := p.any (fun x => xIsInf x && xNeg x)
    if pos && neg then (.nan, fNV)
    else if pos then (.inf false, 0)
    else if neg then (.inf true, 0)
    else
      let q := minExp p 2000
      (ofSgn (sumAt q p) q (!p.isEmpty && p.all (fun x => xIsZero x && xNeg x)), 0)

/-- IEEE addition before its rounding (R120): an exact zero of opposite signs is +0, but −0 under RD. -/
def xAdd (rm : Rnd) (a b : Xr) : Xr × FpFlags :=
  let (s, f) := groupSum [a, b]
  if xIsZero s && (xNeg a != xNeg b) then (.fin (decide (rm = .rd)) 0 0 false, f) else (s, f)

/-- Order of two values that are not NaN: −1, 0 or 1 with −0 equal to +0. -/
def xCmp (a b : Xr) : Int :=
  match a, b with
  | .inf n, .inf k => if n == k then 0 else if n then -1 else 1
  | .inf n, _ => if n then -1 else 1
  | _, .inf k => if k then 1 else -1
  | .fin n m e _, .fin k m' e' _ =>
    let q := min e e'
    let x := sgnMant n m e q
    let y := sgnMant k m' e' q
    if x < y then -1 else if y < x then 1 else 0
  | _, _ => 0

/-- Strictly below, with −0 below +0 (R124). -/
def xBelow (a b : Xr) : Bool :=
  let c := xCmp a b
  c == -1 || (c == 0 && xIsZero a && xIsZero b && xNeg a && !xNeg b)

/-- Precision in bits of a quotient, a root or a transcendental result before its rounding. -/
def workBits : Nat := 200

/-- Exact quotient (R95 is the integer one): IEEE invalid operations and division by zero (R82, R120, R124). -/
def xDiv (a b : Xr) : Xr × FpFlags :=
  match a, b with
  | .nan, _ => (.nan, 0)
  | _, .nan => (.nan, 0)
  | .inf _, .inf _ => (.nan, fNV)
  | .inf n, .fin k _ _ _ => (.inf (n != k), 0)
  | .fin n _ _ _, .inf k => (.fin (n != k) 0 0 false, 0)
  | .fin n m e _, .fin k m' e' _ =>
    if m' == 0 then (if m == 0 then (.nan, fNV) else (.inf (n != k), fDZ))
    else if m == 0 then (.fin (n != k) 0 0 false, 0)
    else
      let sh := workBits + Nat.log2 m'
      let num := m * 2 ^ sh
      (.fin (n != k) (num / m') (e - e' - sh) (num % m' != 0), 0)

/-- Integer square root, two bits of `n` a step: (root, rest). -/
def isqrtStep (n : Nat) : Nat → Nat → Nat → Nat
  | 0, root, _ => root
  | k + 1, root, rest =>
    let rest' := rest * 4 + (n / 4 ^ k) % 4
    let t := 4 * root + 1
    if t ≤ rest' then isqrtStep n k (2 * root + 1) (rest' - t) else isqrtStep n k (2 * root) rest'

/-- floor(sqrt n). -/
def isqrt (n : Nat) : Nat := isqrtStep n (Nat.log2 n / 2 + 1) 0 0

/-- Square root (R123, R124). -/
def xSqrt (a : Xr) : Xr × FpFlags :=
  match a with
  | .nan => (.nan, 0)
  | .inf n => if n then (.nan, fNV) else (.inf false, 0)
  | .fin n m e _ =>
    if m == 0 then (.fin n 0 0 false, 0)
    else if n then (.nan, fNV)
    else
      let (m1, e1) := if e % 2 == 0 then (m, e) else (2 * m, e - 1)
      let v := m1 * 4 ^ workBits
      let r := isqrt v
      (.fin false r (e1 / 2 - workBits) (r * r != v), 0)

/-- 1 / a (R124). -/
def xRcp (a : Xr) : Xr × FpFlags := xDiv (xInt 1) a

/-- 1 / sqrt a (R124): the root of `2^(2k) / a`, so that one rounding follows. -/
def xRsq (a : Xr) : Xr × FpFlags :=
  match a with
  | .nan => (.nan, 0)
  | .inf n => if n then (.nan, fNV) else (.fin false 0 0 false, 0)
  | .fin n m e _ =>
    if m == 0 then (.inf n, fDZ)
    else if n then (.nan, fNV)
    else
      let (m1, e1) := if e % 2 == 0 then (m, e) else (2 * m, e - 1)
      let k := workBits + Nat.log2 m1
      -- sqrt(2^(2k) / m1) = 2^k / sqrt m1
      let q := 4 ^ k / m1
      let r := isqrt q
      (.fin false r (-(e1 / 2) - k) (!(q * m1 == 4 ^ k && r * r == q)), 0)

/-! ### Transcendental functions (R123, R305, R288): fixed-point series at `fxBits` bits, log 16 -/

/-- Fraction bits of the series below. -/
def fxBits : Nat := 480

/-- One in fixed point. -/
def fxOne : Nat := 2 ^ fxBits

/-- Sum over k of `t^(2k+1) / (2k+1)`, `t` in fixed point: atanh t. -/
def fxAtanh (t2 : Nat) : Nat → Nat → Nat → Nat → Nat
  | 0, _, _, acc => acc
  | n + 1, pow, k, acc => fxAtanh t2 n (pow * t2 / fxOne) (k + 2) (acc + pow / k)

/-- atanh(a / b) in fixed point. -/
def fxAtanhQ (a b : Nat) : Nat :=
  let t := a * fxOne / b
  fxAtanh (t * t / fxOne) 160 t 1 0

/-- ln 2 in fixed point: 2 atanh(1/3). -/
def fxLn2 : Nat := 2 * fxAtanhQ 1 3

/-- e^z for fixed-point z in [0, 1). -/
def fxExpTaylor (z : Nat) : Nat → Nat → Nat → Nat → Nat
  | 0, _, _, acc => acc
  | n + 1, term, k, acc =>
    let t := term * z / fxOne / k
    fxExpTaylor z n t (k + 1) (acc + t)

/-- 2^f for fixed-point f in [0, 1). -/
def fxExp2 (f : Nat) : Nat := fxExpTaylor (f * fxLn2 / fxOne) 120 fxOne 1 fxOne

/-- A magnitude in fixed point with `b` fraction bits as an exact real known only to lie in its last place. -/
def xFix (neg : Bool) (v : Nat) (b : Nat) (e : Int) : Xr :=
  -- drop the last bits, which the series does not fix
  .fin neg (v / 2 ^ 64) (e - b + 64) true

/-- `m * 2^e` in fixed point with `fxBits` fraction bits (truncated). -/
def toFix (m : Nat) (e : Int) : Nat :=
  let k := e + fxBits
  if 0 ≤ k then m * 2 ^ k.toNat else m / 2 ^ (-k).toNat

/-- 2^a (R123, R124). Past the range of every format the magnitude stands for its side. -/
def xExp2 (a : Xr) : Xr × FpFlags :=
  match a with
  | .nan => (.nan, 0)
  | .inf n => (if n then xZero else .inf false, 0)
  | .fin n m e _ =>
    if m == 0 then (xInt 1, 0)
    else if 20 < Nat.log2 m + e then
      (if n then .fin false 1 (-100000) true else .fin false 1 100000 false, 0)
    else if 0 ≤ e then
      let k : Int := m * 2 ^ e.toNat
      (.fin false 1 (if n then -k else k) false, 0)
    else if (m % 2 ^ (-e).toNat) == 0 then
      let k : Int := (m / 2 ^ (-e).toNat : Nat)
      (.fin false 1 (if n then -k else k) false, 0)
    else
      let fx := toFix m e
      let ip := fx / fxOne
      let fp := fx % fxOne
      if n then
        -- 2^-(ip + fp) = 2^(1 - fp) * 2^-(ip + 1)
        (xFix false (fxExp2 (fxOne - fp)) fxBits (-(ip : Int) - 1), 0)
      else (xFix false (fxExp2 fp) fxBits ip, 0)

/-- log2 a (R123, R124). -/
def xLog2 (a : Xr) : Xr × FpFlags :=
  match a with
  | .nan => (.nan, 0)
  | .inf n => if n then (.nan, fNV) else (.inf false, 0)
  | .fin n m e _ =>
    if m == 0 then (.inf true, fDZ)
    else if n then (.nan, fNV)
    else
      let l := Nat.log2 m
      if m == 2 ^ l then (xInt (l + e), 0)
      else
        -- m = y * 2^k with y in [0.7, 1.41]
        let k : Nat := if 14 * 2 ^ l ≤ 10 * m then l + 1 else l
        let one : Nat := 2 ^ k
        let ex : Int := (k : Int) + e
        let num : Int := (m : Int) - (one : Nat)
        let lg : Nat := 2 * fxAtanhQ num.natAbs (m + one) * fxOne / fxLn2
        let tot : Int := ex * fxOne + (if num < 0 then -(lg : Int) else lg)
        (xFix (decide (tot < 0)) tot.natAbs fxBits 0, 0)

/-- e^x for fixed-point x ≥ 0: (mantissa in fixed point, power of two). -/
def fxExp (x : Nat) : Nat × Nat :=
  let k := x / fxLn2
  (fxExpTaylor (x - k * fxLn2) 120 fxOne 1 fxOne, k)

/-- tanh a (R123, R124). -/
def xTanh (a : Xr) : Xr × FpFlags :=
  match a with
  | .nan => (.nan, 0)
  | .inf n => (xInt (if n then -1 else 1), 0)
  | .fin n m e _ =>
    if m == 0 then (.fin n 0 0 false, 0)
    else
      let top := (Nat.log2 m : Int) + e
      if top < -70 then (.fin n (m * 2 ^ workBits - 1) (e - workBits) true, 0)
      else if 8 < top then (.fin n (2 ^ workBits - 1) (-(workBits : Int)) true, 0)
      else
        let (y, k) := fxExp (2 * toFix m e)
        let ex := y * 2 ^ k
        (xFix n ((ex - fxOne) * fxOne / (ex + fxOne)) fxBits 0, 0)

/-! ### The generator (R88, R89) -/

/-- ROTL(v, n) (R88). -/
def rotl64 (v : Word) (n : Nat) : Word := v.rotateLeft n

/-- Rounds i .. 6 of CBG (R88). -/
def cbgRounds : Nat → Nat → Word → Word → Word × Word
  | 0, _, a, b => (a, b)
  | n + 1, i, a, b =>
    let a := a + b
    let a := a ^^^ (a >>> 31)
    let a := a * 0x9F4A2C61B83D07E5#64
    let b := rotl64 b 23 ^^^ a
    let b := b * 0xD36E1A975C0B84F3#64 + BitVec.ofNat 64 i
    cbgRounds n (i + 1) a b

/-- CBG(seed, tag, x, y) (R88). -/
def cbg (seed : Word) (tag x y : BitVec 32) : BitVec 32 :=
  let a := seed ^^^ (y ++ x)
  let b := rotl64 seed 29 ^^^ toW tag ^^^ 0x71C5E29B3A86D04D#64
  let (a, b) := cbgRounds 6 1 a b
  (a ^^^ (b >>> 32)).setWidth 32

/-! ### Format codes and block scales (R66, R67, R73-R77) -/

/-- The format of code 1-10 and 12; Q4N (11) has its own rules. -/
def fmtOfCode (c : Nat) : Fmt :=
  match c with
  | 1 => .fp32 | 2 => .bf16 | 3 => .fp16 | 4 => .e4m3 | 5 => .e5m2 | 6 => .e3m2 | 7 => .e2m3 | 8 => .e2m1
  | 9 => .int 8 true | 10 => .int 4 true | _ => .t2

/-- Container width in bits (R66). -/
def contW (c : Nat) : Nat :=
  if c == 1 then 32 else if c == 2 || c == 3 then 16
  else if c == 8 || c == 10 || c == 11 then 4 else if c == 12 then 2 else 8

/-- Native depth (R66). -/
def nativeDepth (c : Nat) : Nat :=
  if c == 1 then 8 else if c == 2 || c == 3 then 32
  else if c == 8 || c == 10 || c == 11 || c == 12 then 128 else 64

/-- Block length in elements (R67). -/
def blkLen (b : Nat) : Nat := if b == 1 then 32 else 64

/-- FMT on decoding a container (R68, R71). -/
def decodeFlag (code x : Nat) : FpFlags :=
  flagIf (((code == 6 || code == 7) && decide (64 ≤ x % 256)) || (code == 12 && x % 4 == 2)) fFMT

/-- CB[c] (R74), in 128ths. -/
def q4nCb (c : Nat) : Xr :=
  let t : List Int := [-128, -92, -68, -52, -36, -24, -12, 0, 10, 20, 32, 44, 58, 74, 94, 128]
  xScale (-7) (xInt (t.getD c 0))

/-- K of R75, the FP32 nearest 1/255. -/
def q4nK : Xr := decodeFmt .fp32 0x3B808081

/-- RN_F32(S × RN_F32(s × K)) (R75). -/
def q4nScale (sg : Xr) (s : Nat) : Xr := rnF32x (xMul sg (rnF32x (xMul (xInt s) q4nK).1)).1

/-- The Q4N decode of R75, with the flags of its three RN_F32 steps (R141, R172). -/
def q4nSteps (sg : Xr) (s c : Nat) : Nat × FpFlags :=
  let u := rnF32 (xMul (xInt s) q4nK).1
  let v := rnF32 (xMul sg (decodeFmt .fp32 u.1)).1
  let r := rnF32 (xMul (q4nCb c) (decodeFmt .fp32 v.1)).1
  (r.1, u.2 ||| v.2 ||| r.2)

/-- The decoded value of R75. With s = 0 and a negative or infinite S its last sentence, a zero of CB[c]'s sign, and its pseudocode
disagree: the model follows the pseudocode (log 108). -/
def q4nDecode (sg : Xr) (s c : Nat) : Xr := rnF32x (xMul (q4nCb c) (q4nScale sg s)).1

/-- The value of an E8M0 byte as an exponent of two, none for NaN (R73). -/
def e8m0 (x : Nat) : Option Int := if x % 256 == 255 then none else some ((x % 256 : Nat) - 127)

/-- floor(log2 x) of a positive finite value. -/
def xLog2Floor : Xr → Int
  | .fin _ m e _ => Nat.log2 m + e
  | _ => 0

/-- EMAX of R76. -/
def emaxOf (code : Nat) : Int :=
  match code with
  | 4 => 8 | 5 => 15 | 6 => 4 | 7 => 2 | 8 => 2 | 9 => 6 | 10 => 2 | _ => 0

/-- MAXV of R76. -/
def maxvOf (code : Nat) : Xr :=
  match code with
  | 9 => xInt 127 | 10 => xInt 7 | 12 => xInt 1
  | c => decodeFmt (fmtOfCode c) (maxCode (fmtOfCode c))

/-- The largest magnitude of a list, NaN when a member is a NaN or an infinity (R76, R139). -/
def amaxOf : List Xr → Xr
  | [] => xZero
  | x :: l =>
    match x, amaxOf l with
    | .fin _ m e st, .fin n' m' e' st' =>
      if xCmp (.fin false m e st) (.fin n' m' e' st') == 1 then .fin false m e st else .fin n' m' e' st'
    | _, _ => .nan

/-- The E8M0 scale byte of R76 for `amax`. -/
def e8m0Scale (code : Nat) (am : Xr) : Nat :=
  match am with
  | .fin _ m _ _ =>
    if m == 0 then 0x7F else (max (-127) (min 127 (xLog2Floor am - emaxOf code)) + 127).toNat
  | _ => 0xFF

/-- The FP32 scale of R76 for `amax`, with the flags of its RN_F32. -/
def fp32Scale (code : Nat) (am : Xr) : Nat × FpFlags :=
  match am with
  | .fin _ m _ _ => if m == 0 then (0x3F800000, 0) else rnF32 (xDiv am (maxvOf code)).1
  | _ => (nanCode .fp32, 0)

/-- The least s from `s` on with RN_F32(S × RN_F32(s × K)) at least the block's amax (R77 step 3), else 255. -/
def q4nFindS (sg am : Xr) : Nat → Nat → Nat
  | 0, s => s
  | n + 1, s => if xCmp (q4nScale sg s) am != -1 then s else q4nFindS sg am n (s + 1)

/-- The block code of R77 step 3. -/
def q4nBlockCode (sg am : Xr) : Nat := if xIsZero am then 0 else q4nFindS sg am 254 1

/-- |a − b| for finite values. -/
def xDist (a b : Xr) : Xr := xAbs (groupSum [a, xFlip b]).1

/-- Code `c` is nearer `y` than code `d`, by R77 step 4 with its ties. DESIGN CHOICE (log 83): with an infinite S every
decoded value is an infinity or, for code 7, NaN; the distance to the NaN compares as the least, so that code 7 is
chosen. -/
def q4nNearer (sg : Xr) (s : Nat) (y : Xr) (c d : Nat) : Bool :=
  let r := xCmp (xDist (q4nDecode sg s c) y) (xDist (q4nDecode sg s d) y)
  r == -1 || (r == 0 &&
    (let t := xCmp (xAbs (q4nCb c)) (xAbs (q4nCb d)); t == -1 || (t == 0 && decide (c < d))))

/-- The best of the codes below `n` and `best`. -/
def q4nBest (better : Nat → Nat → Bool) : Nat → Nat → Nat
  | 0, best => best
  | n + 1, best => q4nBest better n (if better n best then n else best)

/-- The code of an element (R77 step 4; R140 for the special elements of VPACK). -/
def q4nEncode (sg : Xr) (s : Nat) (y : Xr) : Nat :=
  match sg, y with
  | .nan, _ => 7
  | _, .nan => 7
  | _, .inf neg =>
    q4nBest (fun c d =>
      let r := xCmp (q4nDecode sg s c) (q4nDecode sg s d) * (if neg then -1 else 1)
      r == 1 || (r == 0 && (let t := xCmp (xAbs (q4nCb c)) (xAbs (q4nCb d)); t == -1 || (t == 0 && decide (c < d)))))
      15 15
  | _, _ => q4nBest (q4nNearer sg s y) 15 15

/-- The exact product or quotient that an element takes before it is encoded (R76, R140). `y × 2^(127 − x)` for
E8M0, RN_F32(y / S) for FP32. -/
def scaleDown (kind : Nat) (sc : Nat) (y : Xr) : Xr × FpFlags :=
  match kind with
  | 1 => (xScale (127 - ((sc % 256 : Nat) : Int)) y, 0)
  | 2 =>
    let (q, f) := xDiv y (decodeFmt .fp32 sc)
    let (r, f2) := rnF32 q
    (decodeFmt .fp32 r, f ||| f2)
  | _ => (y, 0)

/-- DEC of R73 for a matrix operand or a base-die read: the exact value that the multiply consumes. -/
def decElt (code blk x sc sBlk : Nat) : Xr :=
  if code == 11 then rnBf16x (q4nDecode (decodeFmt .fp32 sc) sBlk (x % 16))
  else
    let v := decodeFmt (fmtOfCode code) x
    match blk with
    | 1 => match e8m0 sc with
      | none => .nan
      | some k => xScale k v
    | 2 => rnBf16x (xMul v (decodeFmt .fp32 sc)).1
    | _ => v

/-- The decoded FP32 value of a base-die unit, VLDB or VUNPK, with the flags of its RN_F32 steps: OF, UF and NX (R75,
R141, R172). -/
def decF32 (code blk x sc sBlk : Nat) : Nat × FpFlags :=
  if code == 11 then q4nSteps (decodeFmt .fp32 sc) sBlk (x % 16)
  else
    let v := decodeFmt (fmtOfCode code) x
    match blk with
    | 1 => match e8m0 sc with
      | none => (nanCode .fp32, 0)
      | some k => rnF32 (xScale k v)
    | 2 => rnF32 (xMul v (decodeFmt .fp32 sc)).1
    | _ => rnF32 v

end Sys2Proof.Machine
end

