-- ==== Sys2Proof/Syntax.lean ====
section
/-! DEFINITION. The syntax: one constructor per row of spec/opcode_table.json. The rows are the instruction
forms of the opcode map (spec/02 R49) and the indivisible events of the part (spec/95). An instruction's
operands are the fields its form uses (R43); a field that a form must leave zero has no place here and is
checked where words are decoded (R42). An event has no operands: which unit acts, and what an outside party
supplies, stands in `State.ev`. -/

namespace Sys2Proof

/-- The guard of every instruction (R40, R41): predicate `p`, negated when `neg`. -/
structure Guard where
  neg : Bool
  p   : BitVec 3
deriving DecidableEq, Repr

/-- The address operand of F-MEM (R43, R44). -/
structure MemOp where
  base  : R6
  index : R6
  sh    : BitVec 2
  disp  : BitVec 24
deriving DecidableEq, Repr

/-- The rows of the opcode table. -/
inductive Instr where
  -- ALU, major 0x01 (spec/04 R93-R97)
  /-- ADD (R94). -/
  | add (g : Guard) (d a b : R6)
  /-- SUB (R94). -/
  | sub (g : Guard) (d a b : R6)
  /-- MUL (R94). -/
  | mul (g : Guard) (d a b : R6)
  /-- MULH (R94). -/
  | mulh (g : Guard) (d a b : R6)
  /-- MULHS (R94). -/
  | mulhs (g : Guard) (d a b : R6)
  /-- DIV (R95). -/
  | div (g : Guard) (d a b : R6)
  /-- DIVS (R95). -/
  | divs (g : Guard) (d a b : R6)
  /-- REM (R95). -/
  | rem (g : Guard) (d a b : R6)
  /-- REMS (R95). -/
  | rems (g : Guard) (d a b : R6)
  /-- AND (R94). -/
  | and (g : Guard) (d a b : R6)
  /-- OR (R94). -/
  | or (g : Guard) (d a b : R6)
  /-- XOR (R94). -/
  | xor (g : Guard) (d a b : R6)
  /-- ANDN (R94). -/
  | andn (g : Guard) (d a b : R6)
  /-- ORN (R94). -/
  | orn (g : Guard) (d a b : R6)
  /-- SHL (R94). -/
  | shl (g : Guard) (d a b : R6)
  /-- SHR (R94). -/
  | shr (g : Guard) (d a b : R6)
  /-- SAR (R94). -/
  | sar (g : Guard) (d a b : R6)
  /-- ROL (R94). -/
  | rol (g : Guard) (d a b : R6)
  /-- MIN (R94). -/
  | min (g : Guard) (d a b : R6)
  /-- MAX (R94). -/
  | max (g : Guard) (d a b : R6)
  /-- MINS (R94). -/
  | mins (g : Guard) (d a b : R6)
  /-- MAXS (R94). -/
  | maxs (g : Guard) (d a b : R6)
  /-- CLZ (R94). -/
  | clz (g : Guard) (d a : R6)
  /-- CTZ (R94). -/
  | ctz (g : Guard) (d a : R6)
  /-- POPC (R94). -/
  | popc (g : Guard) (d a : R6)
  /-- SEL (R94); `c` names a predicate. -/
  | sel (g : Guard) (d a b c : R6)
  /-- BFX (R96). -/
  | bfx (g : Guard) (d a : R6) (pos lm1 : R6) (s : Bool)
  /-- BFI (R96). -/
  | bfi (g : Guard) (d a b : R6) (pos lm1 : R6)
  /-- LEA (R94). -/
  | lea (g : Guard) (d a b : R6) (sc : BitVec 2)
  /-- ADDSAT (R97). -/
  | addsat (g : Guard) (u : Bool) (d a b : R6)
  -- ALU-immediate, major 0x02 (R98)
  /-- ADDI (R98). -/
  | addi (g : Guard) (d a : R6) (imm : BitVec 32)
  /-- MULI (R98). -/
  | muli (g : Guard) (d a : R6) (imm : BitVec 32)
  /-- ANDI (R98). -/
  | andi (g : Guard) (z : Bool) (d a : R6) (imm : BitVec 32)
  /-- ORI (R98). -/
  | ori (g : Guard) (z : Bool) (d a : R6) (imm : BitVec 32)
  /-- XORI (R98). -/
  | xori (g : Guard) (z : Bool) (d a : R6) (imm : BitVec 32)
  /-- SHLI (R98). -/
  | shli (g : Guard) (d a : R6) (n : R6)
  /-- SHRI (R98). -/
  | shri (g : Guard) (d a : R6) (n : R6)
  /-- SARI (R98). -/
  | sari (g : Guard) (d a : R6) (n : R6)
  /-- ROLI (R98). -/
  | roli (g : Guard) (d a : R6) (n : R6)
  /-- MINI (R98). -/
  | mini (g : Guard) (u : Bool) (d a : R6) (imm : BitVec 32)
  /-- MAXI (R98). -/
  | maxi (g : Guard) (u : Bool) (d a : R6) (imm : BitVec 32)
  /-- LEAI (R98). -/
  | leai (g : Guard) (d a : R6) (sc : BitVec 2) (imm : BitVec 32)
  -- Move, major 0x03 (R46, R99-R102)
  /-- MOVI (R46). -/
  | movi (g : Guard) (d : R6) (imm : BitVec 42)
  /-- MOVHI (R46). -/
  | movhi (g : Guard) (d : R6) (imm : BitVec 22)
  /-- MOV (R99). -/
  | mov (g : Guard) (d a : R6)
  /-- PTOG (R99); `a` names a predicate. -/
  | ptog (g : Guard) (d a : R6)
  /-- PTOG_F (R99). -/
  | ptogF (g : Guard) (d : R6)
  /-- GTOP (R99); `d` names a predicate. -/
  | gtop (g : Guard) (d a : R6)
  /-- GTOP_F (R99). -/
  | gtopF (g : Guard) (a : R6)
  /-- RDTICK (R100). -/
  | rdtick (g : Guard) (c : Bool) (d : R6)
  /-- RDTIME (R101). -/
  | rdtime (g : Guard) (d : R6)
  /-- RDID (R102). -/
  | rdid (g : Guard) (d : R6) (sel : BitVec 4)
  -- Predicate, major 0x04 (R103-R107)
  /-- CMP (R103). -/
  | cmp (g : Guard) (cond : BitVec 4) (comb : BitVec 2) (pt a b pf : R6)
  /-- CMPI (R105). -/
  | cmpi (g : Guard) (cond : BitVec 4) (pf pt : BitVec 3) (a : R6) (imm : BitVec 32)
  /-- PAND (R106). -/
  | pand (g : Guard) (d a b : R6)
  /-- POR (R106). -/
  | por (g : Guard) (d a b : R6)
  /-- PXOR (R106). -/
  | pxor (g : Guard) (d a b : R6)
  /-- PANDN (R106). -/
  | pandn (g : Guard) (d a b : R6)
  /-- PSET (R107). -/
  | pset (g : Guard) (vals mask : BitVec 8)
  -- Branch, major 0x05 (R108-R114)
  /-- B (R109). -/
  | b (g : Guard) (off : BitVec 32)
  /-- BL (R109). -/
  | bl (g : Guard) (link : R6) (off : BitVec 32)
  /-- BR (R109). -/
  | br (g : Guard) (t : R6)
  /-- BLR (R109). -/
  | blr (g : Guard) (link t : R6)
  /-- LOOP (R110). -/
  | loop (g : Guard) (t : R6) (off : BitVec 32)
  -- Segment, major 0x06 (spec/08 R234, R235)
  /-- SEGEND (R235). -/
  | segend (g : Guard) (a : R6)
  /-- SPLIT (R235). -/
  | split (g : Guard) (roam : Bool) (a : R6)
  /-- EXIT (R235). -/
  | exit (g : Guard)
  /-- YIELD (R235). -/
  | yield (g : Guard) (a : R6)
  -- System, major 0x07 (spec/16 R419-R423)
  /-- TRAP (R420). -/
  | trap (g : Guard) (a : R6) (imm : BitVec 32)
  /-- BREAK (R420). -/
  | brk (g : Guard) (imm : BitVec 32)
  /-- SYSCALL (R420). -/
  | syscall (g : Guard) (a : R6) (imm : BitVec 32)
  /-- CTLRD (R421). -/
  | ctlrd (g : Guard) (d : R6) (n : BitVec 12)
  /-- CTLWR (R421). -/
  | ctlwr (g : Guard) (n : BitVec 12) (a : R6)
  /-- RESUME (R422). -/
  | resume (g : Guard) (d a : R6)
  /-- ABORT (R422). -/
  | abort (g : Guard) (t : Bool) (d a : R6)
  /-- WHISK (R423). -/
  | whisk (g : Guard) (tag : BitVec 16)
  -- Page-store scalar memory, major 0x08 (spec/06 R165-R169)
  /-- LD (R167, R168). -/
  | ld (g : Guard) (data : R6) (sz : BitVec 2) (s o : Bool) (m : MemOp)
  /-- LDX (R167, R168). -/
  | ldx (g : Guard) (data : R6) (sz : BitVec 2) (s o : Bool) (m : MemOp)
  /-- ST (R167, R168). -/
  | st (g : Guard) (data : R6) (sz : BitVec 2) (o : Bool) (m : MemOp)
  /-- STX (R167, R168). -/
  | stx (g : Guard) (data : R6) (sz : BitVec 2) (o : Bool) (m : MemOp)
  /-- LDF (R167). -/
  | ldf (g : Guard) (data : R6) (m : MemOp)
  /-- STF (R167). -/
  | stf (g : Guard) (data : R6) (m : MemOp)
  /-- CLRF (R167). -/
  | clrf (g : Guard) (f : Bool) (m : MemOp)
  /-- FEQ (R167). -/
  | feq (g : Guard) (data : R6) (m : MemOp)
  -- Page-store vector memory, major 0x09 (R170-R173)
  /-- VLD (R171). -/
  | vld (g : Guard) (data : R6) (o : Bool) (m : MemOp)
  /-- VST (R171). -/
  | vst (g : Guard) (data : R6) (o : Bool) (m : MemOp)
  /-- VLDS (R171). -/
  | vlds (g : Guard) (data : R6) (sz : BitVec 2) (o : Bool) (m : MemOp)
  /-- VSTS (R171). -/
  | vsts (g : Guard) (data : R6) (sz : BitVec 2) (o : Bool) (m : MemOp)
  /-- VGATH (R171). -/
  | vgath (g : Guard) (data : R6) (sz : BitVec 2) (o : Bool) (m : MemOp)
  /-- VSCAT (R171). -/
  | vscat (g : Guard) (data : R6) (sz : BitVec 2) (o : Bool) (m : MemOp)
  /-- VLDB (R172). -/
  | vldb (g : Guard) (data base gl : R6) (mode : BitVec 2) (disp : BitVec 24)
  -- Page management, major 0x0A (R174-R178)
  /-- PGALLOC (R176). -/
  | pgalloc (g : Guard) (d a b c : R6)
  /-- PGFREE (R176). -/
  | pgfree (g : Guard) (d a c : R6)
  /-- PGREF (R176). -/
  | pgref (g : Guard) (d a b c : R6)
  /-- PGCOW (R176). -/
  | pgcow (g : Guard) (d a b c : R6)
  /-- PGSET (R176). -/
  | pgset (g : Guard) (d a b c : R6) (sel : BitVec 2)
  /-- PGGET (R176). -/
  | pgget (g : Guard) (d a c : R6) (sel : BitVec 3)
  /-- PGPIN (R176). -/
  | pgpin (g : Guard) (d a c : R6)
  /-- PGUNPIN (R176). -/
  | pgunpin (g : Guard) (d a c : R6)
  /-- PGSPILL (R176). -/
  | pgspill (g : Guard) (d a c : R6)
  /-- PGFILL (R176). -/
  | pgfill (g : Guard) (d a c : R6)
  /-- PGMAP (R176); `pte` is PTE bits [8:1]. -/
  | pgmap (g : Guard) (d a b c : R6) (pte : BitVec 8)
  /-- PGUNMAP (R176). -/
  | pgunmap (g : Guard) (d a c : R6)
  -- Asynchronous, major 0x0B (spec/07 R191-R200)
  /-- CPY (R195-R197). -/
  | cpy (g : Guard) (ch : BitVec 2) (f : Bool) (sc : BitVec 3) (d a b c : R6)
  /-- CPY2D (R195-R197). -/
  | cpy2d (g : Guard) (ch : BitVec 2) (f : Bool) (sc : BitVec 3) (d a b c : R6)
  /-- GATH (R195-R197). -/
  | gath (g : Guard) (ch : BitVec 2) (f : Bool) (sc : BitVec 3) (d a b c : R6)
  /-- SCAT (R195-R197). -/
  | scat (g : Guard) (ch : BitVec 2) (f : Bool) (sc : BitVec 3) (d a b c : R6)
  /-- FLD (R198). -/
  | fld (g : Guard) (ch : BitVec 2) (sc sz : BitVec 3) (s : Bool) (d a c : R6)
  /-- FST (R198). -/
  | fst (g : Guard) (ch : BitVec 2) (f : Bool) (sc sz : BitVec 3) (a b c : R6)
  /-- WAITC (R199). -/
  | waitc (g : Guard) (c : R6) (n : BitVec 16)
  /-- CTRGET (R200). -/
  | ctrget (g : Guard) (d c : R6)
  -- Atomic, major 0x0C (spec/14 R373-R377)
  /-- AADD (R376). -/
  | aadd (g : Guard) (data base : R6) (ctr sz : BitVec 2) (o : Bool) (disp : BitVec 24)
  /-- AFADD (R376). -/
  | afadd (g : Guard) (data base : R6) (ctr sz : BitVec 2) (o : Bool) (disp : BitVec 24)
  /-- AMIN (R376). -/
  | amin (g : Guard) (data base : R6) (ctr sz : BitVec 2) (o : Bool) (disp : BitVec 24)
  /-- AMAX (R376). -/
  | amax (g : Guard) (data base : R6) (ctr sz : BitVec 2) (o : Bool) (disp : BitVec 24)
  /-- AAND (R376). -/
  | aand (g : Guard) (data base : R6) (ctr sz : BitVec 2) (o : Bool) (disp : BitVec 24)
  /-- AOR (R376). -/
  | aor (g : Guard) (data base : R6) (ctr sz : BitVec 2) (o : Bool) (disp : BitVec 24)
  /-- AXOR (R376). -/
  | axor (g : Guard) (data base : R6) (ctr sz : BitVec 2) (o : Bool) (disp : BitVec 24)
  /-- ASWP (R376). -/
  | aswp (g : Guard) (data base : R6) (ctr sz : BitVec 2) (o : Bool) (disp : BitVec 24)
  /-- ACAS (R376). -/
  | acas (g : Guard) (data base : R6) (ctr sz : BitVec 2) (o : Bool) (disp : BitVec 24)
  -- Synchronisation, major 0x0D (R378-R383)
  /-- FENCE (R378). -/
  | fence (g : Guard) (kind : BitVec 2) (scope : BitVec 3)
  /-- BAR (R381). -/
  | bar (g : Guard) (d a : R6)
  /-- PHASE (R381). -/
  | phase (g : Guard) (d a : R6)
  /-- DOMSET (R383). -/
  | domset (g : Guard) (d a b c : R6)
  /-- DOMGET (R383). -/
  | domget (g : Guard) (d a c : R6) (sel : BitVec 4)
  -- Calendar, major 0x0E (spec/08 R236-R241)
  /-- BOOK (R238). -/
  | book (g : Guard) (rel : Bool) (d a : R6)
  /-- CALREL (R239). -/
  | calrel (g : Guard) (rel : Bool) (d a : R6)
  /-- CALQ (R240). -/
  | calq (g : Guard) (own rel : Bool) (d a : R6) (res : BitVec 5)
  /-- GANG (R241). -/
  | gang (g : Guard) (a : R6) (q : BitVec 4)
  -- Queue, major 0x0F (spec/09 R260-R265)
  /-- LAUNCH (R262). -/
  | launch (g : Guard) (d a b c : R6)
  /-- QPUSH (R261). -/
  | qpush (g : Guard) (a : R6) (q : BitVec 4)
  /-- QSTAT (R263). -/
  | qstat (g : Guard) (d : R6) (q : BitVec 4)
  /-- QCFG (R264). -/
  | qcfg (g : Guard) (w : Bool) (d a : R6) (q : BitVec 4)
  /-- PIPEBIND (R265). -/
  | pipebind (g : Guard) (u : Bool) (d a : R6)
  -- Vector floating point, major 0x10 (spec/05 R123-R125)
  /-- VADD (R123). -/
  | vadd (g : Guard) (d a b : R6) (t rm k : BitVec 3) (z gb : Bool)
  /-- VSUB (R123). -/
  | vsub (g : Guard) (d a b : R6) (t rm k : BitVec 3) (z gb : Bool)
  /-- VMUL (R123). -/
  | vmul (g : Guard) (d a b : R6) (t rm k : BitVec 3) (z gb : Bool)
  /-- VFMA (R123). -/
  | vfma (g : Guard) (d a b c : R6) (t rm k : BitVec 3) (z gb : Bool)
  /-- VFMS (R123). -/
  | vfms (g : Guard) (d a b c : R6) (t rm k : BitVec 3) (z gb : Bool)
  /-- VFNMA (R123). -/
  | vfnma (g : Guard) (d a b c : R6) (t rm k : BitVec 3) (z gb : Bool)
  /-- VMIN (R124). -/
  | vmin (g : Guard) (d a b : R6) (t k : BitVec 3) (z gb : Bool)
  /-- VMAX (R124). -/
  | vmax (g : Guard) (d a b : R6) (t k : BitVec 3) (z gb : Bool)
  /-- VABS (R124). -/
  | vabs (g : Guard) (d a : R6) (t k : BitVec 3) (z : Bool)
  /-- VNEG (R124). -/
  | vneg (g : Guard) (d a : R6) (t k : BitVec 3) (z : Bool)
  /-- VDIV (R123). -/
  | vdiv (g : Guard) (d a b : R6) (t rm k : BitVec 3) (z gb : Bool)
  /-- VSQRT (R123, R124). -/
  | vsqrt (g : Guard) (d a : R6) (t rm k : BitVec 3) (z : Bool)
  /-- VRCP (R123, R124). -/
  | vrcp (g : Guard) (d a : R6) (t rm k : BitVec 3) (z : Bool)
  /-- VRSQ (R123, R124). -/
  | vrsq (g : Guard) (d a : R6) (t rm k : BitVec 3) (z : Bool)
  /-- VEXP2 (R123, R124). -/
  | vexp2 (g : Guard) (d a : R6) (t rm k : BitVec 3) (z : Bool)
  /-- VLOG2 (R123, R124). -/
  | vlog2 (g : Guard) (d a : R6) (t rm k : BitVec 3) (z : Bool)
  /-- VTANH (R123, R124). -/
  | vtanh (g : Guard) (d a : R6) (t rm k : BitVec 3) (z : Bool)
  /-- VCLASS (R125). -/
  | vclass (g : Guard) (d a : R6) (t k : BitVec 3) (z : Bool)
  -- Vector integer, major 0x11 (R126, R127)
  /-- VIADD (R126). -/
  | viadd (g : Guard) (d a b : R6) (t k : BitVec 3) (z gb : Bool)
  /-- VISUB (R126). -/
  | visub (g : Guard) (d a b : R6) (t k : BitVec 3) (z gb : Bool)
  /-- VIMUL (R126). -/
  | vimul (g : Guard) (d a b : R6) (t k : BitVec 3) (z gb : Bool)
  /-- VIMULH (R126). -/
  | vimulh (g : Guard) (d a b : R6) (t k : BitVec 3) (z u gb : Bool)
  /-- VISHL (R126). -/
  | vishl (g : Guard) (d a b : R6) (t k : BitVec 3) (z gb : Bool)
  /-- VISHR (R126). -/
  | vishr (g : Guard) (d a b : R6) (t k : BitVec 3) (z gb : Bool)
  /-- VISAR (R126). -/
  | visar (g : Guard) (d a b : R6) (t k : BitVec 3) (z gb : Bool)
  /-- VAND (R126). -/
  | vand (g : Guard) (d a b : R6) (t k : BitVec 3) (z gb : Bool)
  /-- VOR (R126). -/
  | vor (g : Guard) (d a b : R6) (t k : BitVec 3) (z gb : Bool)
  /-- VXOR (R126). -/
  | vxor (g : Guard) (d a b : R6) (t k : BitVec 3) (z gb : Bool)
  /-- VIMIN (R126). -/
  | vimin (g : Guard) (d a b : R6) (t k : BitVec 3) (z u gb : Bool)
  /-- VIMAX (R126). -/
  | vimax (g : Guard) (d a b : R6) (t k : BitVec 3) (z u gb : Bool)
  /-- VIABS (R126). -/
  | viabs (g : Guard) (d a : R6) (t k : BitVec 3) (z : Bool)
  /-- VIADDSAT (R127). -/
  | viaddsat (g : Guard) (d a b : R6) (t k : BitVec 3) (z u gb : Bool)
  -- Vector compare and mask, major 0x12 (R128-R131)
  /-- VCMP (R128). -/
  | vcmp (g : Guard) (mt a b mf : R6) (t k : BitVec 3) (gb : Bool) (cond : BitVec 4)
  /-- VSEL (R130). -/
  | vsel (g : Guard) (d a b : R6) (t k : BitVec 3)
  /-- MAND (R131). -/
  | mand (g : Guard) (d a b : R6)
  /-- MOR (R131). -/
  | mor (g : Guard) (d a b : R6)
  /-- MXOR (R131). -/
  | mxor (g : Guard) (d a b : R6)
  /-- MNOT (R131). -/
  | mnot (g : Guard) (d a : R6)
  /-- MCNT (R131). -/
  | mcnt (g : Guard) (d a : R6) (t : BitVec 3)
  /-- MFIRST (R131). -/
  | mfirst (g : Guard) (d a : R6) (t : BitVec 3)
  -- Vector permute and reduce, major 0x13 (R132-R135)
  /-- VPERM (R132). -/
  | vperm (g : Guard) (d a b : R6) (t k : BitVec 3) (z : Bool)
  /-- VSHUF (R133). -/
  | vshuf (g : Guard) (d a b : R6) (t k : BitVec 3) (z : Bool) (pat : BitVec 4)
  /-- VROT (R132). -/
  | vrot (g : Guard) (d a b : R6) (t k : BitVec 3) (z : Bool)
  /-- VBCAST (R132). -/
  | vbcast (g : Guard) (d a : R6) (t k : BitVec 3) (z : Bool)
  /-- VEXTR (R132). -/
  | vextr (g : Guard) (d a b : R6) (t : BitVec 3) (u : Bool)
  /-- VINS (R132). -/
  | vins (g : Guard) (d a b : R6) (t : BitVec 3)
  /-- VRED (R134). -/
  | vred (g : Guard) (d a : R6) (t rm k : BitVec 3) (op : BitVec 4)
  /-- VSCAN (R134). -/
  | vscan (g : Guard) (d a : R6) (t rm k : BitVec 3) (z : Bool) (op : BitVec 4)
  /-- VDOT (R135). -/
  | vdot (g : Guard) (d a b c : R6) (t rm k : BitVec 3) (z u : Bool)
  -- Vector conversion, major 0x14 (R136-R142)
  /-- VCVT (R136). -/
  | vcvt (g : Guard) (d a c : R6) (td rm k : BitVec 3) (z u : Bool) (ts part : BitVec 3) (sat : Bool)
  /-- VPACK (R140). -/
  | vpack (g : Guard) (d a b c : R6) (rm k : BitVec 3) (z : Bool) (fmt : BitVec 4) (kind : BitVec 2) (slot : BitVec 4) (sat : Bool)
  /-- VUNPK (R141). -/
  | vunpk (g : Guard) (d a b : R6) (k : BitVec 3) (z : Bool) (fmt : BitVec 4) (kind : BitVec 2) (slot : BitVec 4)
  /-- VQSCALE (R139). -/
  | vqscale (g : Guard) (d a b : R6) (k : BitVec 3) (fmt : BitVec 4) (kind out : BitVec 2)
  /-- VRAND (R142). -/
  | vrand (g : Guard) (d a b c : R6) (t k : BitVec 3) (z : Bool)
  -- Stream, major 0x18 (spec/12 R336-R346)
  /-- SFORK (R338). -/
  | sfork (g : Guard) (s : Bool) (d a b pt : R6)
  /-- SJOIN (R342). -/
  | sjoin (g : Guard) (w : Bool) (d a b c : R6)
  /-- SPRUNE (R346). -/
  | sprune (g : Guard) (d a c : R6)
  /-- SACT (R339). -/
  | sact (g : Guard) (d a b c : R6)
  /-- SACTP (R339). -/
  | sactp (g : Guard) (d a b c : R6)
  /-- SHOR (R341). -/
  | shor (g : Guard) (adj : Bool) (d a b c : R6)
  /-- SSTEP (R340). -/
  | sstep (g : Guard) (d a b c : R6)
  /-- SSTEP_B (R340). -/
  | sstepB (g : Guard) (d a c : R6)
  /-- SSNAP (R343). -/
  | ssnap (g : Guard) (d a b c : R6)
  /-- SPIN (R344). -/
  | spin (g : Guard) (d a c : R6)
  /-- SPIN_U (R344). -/
  | spinU (g : Guard) (d a c : R6)
  /-- SGET (R345). -/
  | sget (g : Guard) (d a c : R6) (sel : BitVec 4)
  /-- SSET (R345). -/
  | sset (g : Guard) (d a b c : R6) (sel : BitVec 4)
  /-- SSET_C (R345). -/
  | ssetC (g : Guard) (d a c : R6)
  -- Attention, major 0x19 (spec/11 R315-R323)
  /-- KVAPP (R317). -/
  | kvapp (g : Guard) (ch : BitVec 2) (sc : BitVec 3) (d a c : R6)
  /-- KVSPLICE (R318). -/
  | kvsplice (g : Guard) (d a b c : R6)
  /-- KVSPLICE_S (R318). -/
  | kvspliceS (g : Guard) (d a b c : R6)
  /-- KVTRIM (R319). -/
  | kvtrim (g : Guard) (d a b c : R6)
  /-- ATTD (R320). -/
  | attd (g : Guard) (sc : BitVec 3) (a c : R6)
  /-- ATTM_S (R321). -/
  | attmS (g : Guard) (d a b : R6)
  /-- ATTM_V (R321). -/
  | attmV (g : Guard) (d a b c : R6) (k : BitVec 3) (z : Bool)
  /-- RAMPSET (R322). -/
  | rampset (g : Guard) (p : Bool) (d a b c : R6)
  /-- VROPE (R323). -/
  | vrope (g : Guard) (d a b c : R6) (k : BitVec 3) (z split y : Bool)
  -- Generation, major 0x1A (spec/13 R347-R359)
  /-- LFILT (R348). -/
  | lfilt (g : Guard) (sc : BitVec 3) (a c : R6)
  /-- SAMPLE (R352). -/
  | sample (g : Guard) (d a b c : R6)
  /-- ACCEPT (R354). -/
  | accept (g : Guard) (d a b : R6)
  /-- COMMIT (R359). -/
  | commit (g : Guard) (d a b c : R6)
  /-- DQSEND (R356). -/
  | dqsend (g : Guard) (a b c : R6)
  /-- DQRECV (R357). -/
  | dqrecv (g : Guard) (d a b : R6)
  -- Message and collective, major 0x1B (spec/15 R385-R398)
  /-- MSEND (R388). -/
  | msend (g : Guard) (sc : BitVec 3) (d a b c : R6)
  /-- MRECV (R390). -/
  | mrecv (g : Guard) (t : Bool) (d a b : R6)
  /-- COLL (R395). -/
  | coll (g : Guard) (d a c : R6)
  /-- REDM (R398). -/
  | redm (g : Guard) (op : BitVec 2) (ch : BitVec 2) (sc : BitVec 3) (d a b c : R6)
  -- Tile short, major 0x1F, and tile command words (spec/10)
  /-- TZERO (R292). -/
  | tzero (g : Guard) (a : R6)
  /-- TCOMMIT (R292). -/
  | tcommit (g : Guard) (d : R6)
  /-- TWAIT (R292). -/
  | twait (g : Guard) (a : R6)
  /-- TACCRD (R292). -/
  | taccrd (g : Guard) (d a : R6) (row : R6) (half : Bool)
  /-- TACCRD_R (R292). -/
  | taccrdR (g : Guard) (d a b : R6)
  /-- TMMA (R278-R280). -/
  | tmma (g : Guard) (acc : BitVec 3) (ga gb : R6) (la lb : BitVec 2) (slice : BitVec 3) (mr nc : BitVec 7) (kd : BitVec 8)
  /-- TMMAT (R278-R280). -/
  | tmmat (g : Guard) (acc : BitVec 3) (ga gb : R6) (la lb : BitVec 2) (slice : BitVec 3) (mr nc : BitVec 7) (kd : BitVec 8)
  /-- TMMBT (R278-R280). -/
  | tmmbt (g : Guard) (acc : BitVec 3) (ga gb : R6) (la lb : BitVec 2) (slice : BitVec 3) (mr nc : BitVec 7) (kd : BitVec 8)
  /-- TMMRING (R278-R280). -/
  | tmmring (g : Guard) (acc : BitVec 3) (ga : R6) (la : BitVec 2) (slice : BitVec 3) (mr nc : BitVec 7) (kd : BitVec 8)
  /-- TDRAIN (R286-R289). -/
  | tdrain (g : Guard) (acc : BitVec 3) (gt : R6) (lt : BitVec 2) (rm : BitVec 3) (sat : Bool) (mr nc : BitVec 7) (gseed gcoord : R6)
  /-- TDRAINX (R286-R289). -/
  | tdrainx (g : Guard) (acc : BitVec 3) (gt : R6) (lt : BitVec 2) (rm : BitVec 3) (sat : Bool) (act : BitVec 2) (sc bi rs dp : Bool) (mr nc : BitVec 7) (gs gbias gres : R6) (lres : BitVec 2) (gseed gdrop gcoord : R6)
  /-- TBLATCH (R284, R285). -/
  | tblatch (g : Guard) (src : BitVec 3) (ga gd : R6) (lb : BitVec 2) (tr : Bool)
  -- Fetch of no instruction (R49)
  /-- ILLEGAL_WORD (R49). -/
  | illegalWord (w : BitVec 64)
  -- Events (spec/95): which unit acts, and what an outside party supplies, stands in State.ev
  /-- DEVICE_RESET (R33). -/
  | deviceReset
  /-- BOOT_STAGE (R432). -/
  | bootStage
  /-- TICK_BOUNDARY (R220). -/
  | tickBoundary
  /-- HEAD_URGENT (R254). -/
  | headUrgent
  /-- FAR_WORK_DONE (R219). -/
  | farWorkDone
  /-- LOCAL_COPY (R219). -/
  | localCopy
  /-- ICACHE_BLOCK_LOAD (R461). -/
  | icacheBlockLoad
  /-- SEGMENT_START (R35). -/
  | segmentStart
  /-- OVERRUN (R224). -/
  | overrun
  /-- CONTINUATION_RECORD_COMPLETE (R230). -/
  | continuationRecordComplete
  /-- CONTINUATION_QUEUED (R228). -/
  | continuationQueued
  /-- WATCH_TIMEOUT (R228). -/
  | watchTimeout
  /-- YIELD_TIME_EXPIRY (R235). -/
  | yieldTimeExpiry
  /-- GANG_ROUND_END (R232). -/
  | gangRoundEnd
  /-- GANG_NEXT_ROUND (R232). -/
  | gangNextRound
  /-- SPILL_WINDOW (R158). -/
  | spillWindow
  /-- IDLE_EXPIRY (R334). -/
  | idleExpiry
  /-- EVICTION_ADMIT (R335). -/
  | evictionAdmit
  /-- BATCH_CLOSE (R331). -/
  | batchClose
  /-- STREAM_SEQUENCE_POINT (R329). -/
  | streamSequencePoint
  /-- JOIN_REDUCTION (R342). -/
  | joinReduction
  /-- SNAPSHOT_TRANSFER_DONE (R343). -/
  | snapshotTransferDone
  /-- PENDING_SLOT_DRAIN (R360). -/
  | pendingSlotDrain
  /-- CHANNEL_UNIT (R195). -/
  | channelUnit
  /-- WALKER_OP_COMPLETE (R174). -/
  | walkerOpComplete
  /-- KVAPP_TOKEN (R317). -/
  | kvappToken
  /-- ATTD_PAGE (R311). -/
  | attdPage
  /-- LFILT_PASS (R349). -/
  | lfiltPass
  /-- REDM_UNIT (R398). -/
  | redmUnit
  /-- COLL_HOP (R394). -/
  | collHop
  /-- COLL_COMPLETE (R396). -/
  | collComplete
  /-- LAUNCH_ARRIVAL (R262). -/
  | launchArrival
  /-- MSEND_DELIVERY (R388). -/
  | msendDelivery
  /-- FAR_ATOMIC_PERFORM (R373). -/
  | farAtomicPerform
  /-- REPL_WRITE_SEQUENCE (R371). -/
  | replWriteSequence
  /-- DQSEND_SEQUENCED (R356). -/
  | dqsendSequenced
  /-- DQ_ENTRY_ARRIVE (R356). -/
  | dqEntryArrive
  /-- RING_DELIVERY (R285). -/
  | ringDelivery
  /-- DOMAIN_ARRIVAL (R381). -/
  | domainArrival
  /-- PHASE_SWEEP (R382). -/
  | phaseSweep
  /-- DOMAIN_COMPLETION (R381). -/
  | domainCompletion
  /-- RAMPSET_COMPLETE (R322). -/
  | rampsetComplete
  /-- TILE_COMMAND_START (R269). -/
  | tileCommandStart
  /-- TILE_BATCH_COMMIT (R272). -/
  | tileBatchCommit
  /-- DEFERRED_ECC_FAULT (R277). -/
  | deferredEccFault
  /-- FAULT_EVENT_ENQUEUE (R406). -/
  | faultEventEnqueue
  /-- FAULT_REQUEST_PROCESSED (R422). -/
  | faultRequestProcessed
  /-- PREEMPT_REQUEST (R411). -/
  | preemptRequest
  /-- PREEMPT_SAVE (R412). -/
  | preemptSave
  /-- WHISK_FIRE (R418). -/
  | whiskFire
  /-- WHISK_TRIGGER_EVENT (R417). -/
  | whiskTriggerEvent
  /-- WHISK_LATCH (R418). -/
  | whiskLatch
  /-- ACTIVE_MESSAGE (R251). -/
  | activeMessage
  /-- TIMED_ACTIVE_MESSAGE (R251). -/
  | timedActiveMessage
  /-- HOST_REGISTER_WRITE (R424). -/
  | hostRegisterWrite
  /-- SEMA_ACQUIRE (R426). -/
  | semaAcquire
  /-- SEMA_RELEASE (R426). -/
  | semaRelease
  /-- HOST_LINK_DOWN (R426). -/
  | hostLinkDown
  /-- LINK_RETRAIN (R424, R407). -/
  | linkRetrain
  /-- PART_CREATE (R428). -/
  | partCreate
  /-- PART_DESTROY (R429). -/
  | partDestroy
  /-- PART_SWITCH (R414). -/
  | partSwitch
  /-- PART_QUOTA (R427). -/
  | partQuota
  /-- PART_MAP (R427). -/
  | partMap
  /-- FW_WINDOW_WRITE (R433). -/
  | fwWindowWrite
  /-- FW_VERIFY_COMMIT (R433). -/
  | fwVerifyCommit
  /-- FW_DISCARD (R433). -/
  | fwDiscard
  /-- ATTESTATION (R434). -/
  | attestation
  /-- TIME_STEP (R431). -/
  | timeStep
  /-- PPS_EDGE (R431). -/
  | ppsEdge
  /-- DIE_RESET (R407). -/
  | dieReset
  /-- THERMAL_LIMIT (R436). -/
  | thermalLimit
  /-- POWER_OFF_TRIP (R436). -/
  | powerOffTrip
  /-- ECC_SCRUB (R435). -/
  | eccScrub
  /-- PACKET_DISCARD (R430). -/
  | packetDiscard
  /-- CAL_STAT_READ (R217). -/
  | calStatRead
  /-- FLT_LOST_READ (R404). -/
  | fltLostRead
  /-- AM_LOG_READ (R425). -/
  | amLogRead
  /-- SNAP_STAT_READ (R417). -/
  | snapStatRead
  /-- ECC_CE_READ (R435). -/
  | eccCeRead
  /-- TEN_DROP_READ (R430). -/
  | tenDropRead
  /-- HOST_SEMA_READ (R426). -/
  | hostSemaRead
  /-- PART_CMD_DONE (R427). -/
  | partCmdDone
  /-- FW_CMD_DONE (R433). -/
  | fwCmdDone
  /-- ATT_REPORT_DONE (R434). -/
  | attReportDone
  /-- DOMAIN_REQUEST_AT_HOME (R383). -/
  | domainRequestAtHome
  /-- COLL_LAYOUT_CHECK (R396). -/
  | collLayoutCheck
  /-- COMPLETION_TIMEOUT (R374). -/
  | completionTimeout
deriving DecidableEq, Repr

end Sys2Proof
end

