-- ==== Sys2Proof/Machine/State.lean ====
section
/-! DEFINITION. The state of the K8 as plain data. Clusters are numbered 0-255 in the package (spec/01 R18), lanes
8 × cluster + lane. Everything that a partition owns on a cluster or a die stands in a table of its own, keyed by
16 × cluster + partition or 16 × die + partition: a partition that is not running keeps its entry, which is what the
shadow storage and the continuation area hold for it (R416). An entry that is absent is at its reset value. -/

namespace Sys2Proof.Machine

/-- A sparse table: entries by number, rising. -/
abbrev Tab (α : Type) := List (Nat × α)

/-! ### Strands and their work -/

/-- A register that can have a pending write or a lease (R55, R187). -/
inductive RegRef where
  | g (n : Nat) | v (n : Nat) | p (n : Nat) | m (n : Nat) | c (n : Nat)
deriving DecidableEq, Repr

/-- The fault causes (R399), and the notice code 0. -/
inductive Cause where
  | notice | illegal | reservedField | slot | register | align | lease | booking | overrun | residency
  | translation | protection | tenant | format | layout | sequence | queueFull | refcount | stream | privilege
  | brk | syscall | counter | memoryEcc | preempt
deriving DecidableEq, Repr

/-- A translation made at booking and held by a segment (R145, R153, R215). -/
structure Xl where
  vpn : Nat
  fri : Nat
  /-- Record word 1 at booking. -/
  loc : Word
  pte0 : Word
  pte1 : Word
  /-- Held with write intent; a code page has neither intent. -/
  wr : Bool
  code : Bool
  /-- A window page of a batch, reached at its window address (R332). -/
  win : Bool
deriving DecidableEq, Repr

/-- A run of ticks booked on one resource to one holder (R206); holder 0 is the Sieve (R209). -/
structure Booking where
  res : Nat
  lo : Nat
  hi : Nat
  sid : Nat
deriving DecidableEq, Repr

/-- An operation that an operation issued after a FENCE waits for (R378): whether its reads wait, whether its writes and
its completion wait, and whether the earlier one's writes must have reached their homes. -/
structure Dep where
  id : Nat
  rd : Bool
  wr : Bool
  home : Bool
deriving DecidableEq, Repr

/-- What a task is, through all its segments (R28). -/
structure Task where
  /-- The model's number of the task. -/
  id : Nat
  pid : Nat
  /-- FRI of its page-table root (R146); 0 for the partition's default root. -/
  root : Nat
  /-- Fault task: supervisor privilege, privileged fault queue (R406). -/
  fq : Bool
  bprio : Nat
  /-- Record slot of a notice that ends with the task (R405). -/
  noticeSlot : Option Nat
  /-- Batch number of a stream batch task (R331). -/
  batch : Option Nat
  /-- It was still parked when its gang's round ended, and has left the gang (R232). -/
  left : Bool := false
deriving DecidableEq, Repr

/-- The segment that a strand runs, or that is placed (R28, R210-R226). -/
structure Seg where
  /-- The model's number of the placement: the holder of its bookings. -/
  sid : Nat
  /-- Entry E of its block and block offset B (R226). -/
  blk : Va
  boff : Nat
  start : Nat
  len : Nat
  /-- The first instruction issues no earlier than this relative cycle (R226, R413). -/
  resume : Nat
  glive : Word
  vlive : BitVec 32
  codeLen : Nat
  xl : List Xl
  queue : Nat
  prio : Nat
  /-- Gang (model number, 0 none), gang ID, member index (R231). -/
  gang : Nat
  gid : Nat
  member : Nat
  /-- RES, START, DUR, REP and STRIDE of the record's entries: occurrences as (resource, first, last), relative. -/
  occ : List (Nat × Nat × Nat)
  /-- Rotary copies that the segment holds (R300). -/
  rot : List Nat
  /-- First virtual page of the window region, for a segment of a batch task (R326, R332). -/
  win : Option Nat
deriving DecidableEq, Repr

/-- What a fault puts into its record beside the strand (R405). -/
structure FaultInfo where
  cause : Cause
  /-- Word 4: the faulting VA, the fetch target, or g[a] of TRAP and SYSCALL. -/
  va : Word := 0
  /-- Word 6: the faulting instruction word. -/
  word : Word := 0
  /-- Word 7. -/
  w7 : Word := 0
  soft : Bool := false
  eccp : Bool := false
deriving DecidableEq, Repr

/-- How a stopped strand ends once its pending register writes are complete (R92, R227, R402, R412), each with the
relative cycle of the stop. -/
inductive Ending where
  | fault (n : Nat) (f : FaultInfo)
  /-- An implicit split with its event, EVARG, for a full-empty event the word's physical address, and whether the event has
  fired meanwhile. -/
  | split (n event : Nat) (evarg : Word) (evAddr : Nat) (fired : Bool)
  /-- A pre-emption, which also waits for every tile batch to commit (R273). -/
  | preempt (n : Nat)
deriving DecidableEq, Repr

/-- A strand: its architectural registers (R34) and what its lane keeps for it. -/
structure Strand where
  task : Task
  seg : Seg
  cl : Nat
  lane : Nat
  /-- Context number within the core, 0-7. -/
  ctx : Nat
  g : Vector Word 64
  v : Vector (BitVec 1024) 32
  p : BitVec 7
  m : Vector Word 7
  c : Vector (BitVec 16) 4
  /-- FPCTL.RM (R38). -/
  rm : BitVec 2
  /-- FPFLAG (R39), and the flags that local AFADDs raise at later cycles (R376). -/
  flags : FpFlags
  late : List (Nat × FpFlags)
  /-- The PC triple and the slot index (R34, R52). -/
  pc0 : Va
  pc1 : Va
  pc2 : Va
  ds : Nat
  /-- Pending register writes and the cycle at which each is ready (R54, R55). -/
  pend : List (RegRef × Nat)
  /-- No instruction issues before this cycle (R160, R226). -/
  hold : Nat
  /-- Cycle at which the instruction at pc0 reached issue, while its page-store access waits for a window (R57, R402), or
  while a TWAIT waits for its batches (R292). -/
  reach : Option Nat
  /-- Cycle of the first line of an access under way (R160), and the lines it has read: address and contents. -/
  issued : Option Nat
  lineBuf : Tab (BitVec 1024)
  /-- What an access of several lines took at issue beside memory: attributes of its page, control registers (R178, R354). -/
  atIssue : List Word
  /-- Bytes of an issued store whose line is still to be performed: cycle, physical address, bytes (R160). -/
  lineOut : List (Nat × Nat × List Byte)
  /-- Of a parked strand: it has stopped and waits for its pending register writes; none once its image is saved. -/
  ending : Option Ending
  /-- First cycle at which the divider (R91) and the VDIV unit (R122) are free. -/
  divFree : Nat
  vdivFree : Nat
  /-- Ticks in which this segment last issued on a channel (R181), an MSEND (R388), an SFORK (R338). -/
  lastCh : Tab Nat
  lastSend : Nat
  lastFork : Nat
  /-- Windows an idling LDF has tested, with its pc (R233). -/
  idle : Nat
  /-- F (R269) and the number of the open batch (R271). -/
  tileF : Nat
  batchNo : Nat
  /-- Commit cycles of the batches closed in this segment (R272). -/
  commits : Tab Nat
  /-- Operations that a FENCE holds back: an operation issued later waits for these (R378). -/
  fence : List Dep
  /-- The strand's saved image while it is parked: slot in its die's continuation area (R408). -/
  slot : Nat
  /-- The event of the continuation that resumed (R381), and whether its PC0 still waits to use it. -/
  resumed : Option (Nat × Word)
deriving DecidableEq, Repr

/-- A continuation record (R229) with its live registers, and the task it continues: at most one for a task. -/
structure Cont where
  task : Task
  pc0 : Va
  pc1 : Va
  pc2 : Va
  ds : Nat
  roam : Bool
  ganged : Bool
  queue : Nat
  prio : Nat
  ts : Nat
  resume : Nat
  tgt : Nat
  c : Vector (BitVec 16) 4
  glive : Word
  vlive : BitVec 32
  g : Vector Word 64
  v : Vector (BitVec 1024) 32
  p : BitVec 7
  rm : BitVec 2
  flags : FpFlags
  event : Nat
  evarg : Word
  blk : Va
  /-- Gang (model number) and member index of a GANGED record (R232). -/
  gang : Nat
  member : Nat
  /-- A tile command of the ended segment may still be in flight until this tick (R222). -/
  after : Nat
  fence : List Dep
  /-- Physical address of a full-empty event's word (R228). -/
  evAddr : Nat
  /-- Cluster that keeps it, core and context still held while the context is closing (R21, R230). -/
  cl : Nat
  lane : Nat
  ctx : Nat
  closing : Bool
  /-- Tick at whose boundary the record is complete (R230). -/
  complete : Nat
  /-- It holds one of the cluster's 64 watch entries; its event has fired; it stands in a queue or is placed. -/
  watch : Bool
  fired : Bool
  queued : Bool
  /-- The record's slot in its die's continuation area, when it is not held on chip (R230, R416). -/
  hbm : Option Nat
deriving DecidableEq, Repr

/-- What a queue entry starts (R243). -/
inductive Work where
  | fresh (entry : Va) (arg1 arg2 : Word)
  /-- The task's continuation record. -/
  | cont
  /-- A remainder (R413): the strand as it was saved; its registers are read from its image when it starts. -/
  | remainder (t : Strand)
  /-- A gang from its copied descriptor (R241); its base priority stands in the task. -/
  | gang (desc : List Word)
  /-- The next round of a gang (R232). -/
  | gangRound (gang : Nat)
deriving DecidableEq, Repr

/-- A queue entry. -/
structure Entry where
  task : Task
  work : Work
  queue : Nat
  prio : Nat
  /-- Tick of its entry into the queue (R217). -/
  since : Nat
  /-- Not-before time and tick (R253). -/
  nbt : Word
  nb : Nat
  /-- Tick in which it became the head, and in which its effective priority first reached CAP (R254). -/
  headAt : Option Nat
  capAt : Option Nat
deriving DecidableEq, Repr

/-- A segment that is placed and not started (R221). -/
structure Placed where
  entry : Entry
  seg : Seg
  lane : Nat
  ctx : Nat
  /-- Last tick of its local copies (R223) and its place in the order of placement. -/
  copiesEnd : Nat
  order : Nat
  started : Bool
deriving DecidableEq, Repr

/-- A gang in its rounds (R232). -/
structure Gang where
  num : Nat
  gid : Nat
  entry : Entry
  /-- The members' tasks by index, those that still belong to it, and those that have not ended in this round. -/
  members : Tab Task
  alive : List Nat
  active : List Nat
  roundEnd : Nat
  /-- Lanes held for the round and its holder number. -/
  sid : Nat
  inRound : Bool
deriving DecidableEq, Repr

/-- A bound pipe (R256, R257): its gang, VA of slot 0, slots, and the first tick in which it is bound (R265). -/
structure Pipe where
  gang : Nat
  base : Va
  slots : Nat
  since : Nat
deriving DecidableEq, Repr

/-- A request of a lane that a tick boundary decides (R237, R265). -/
structure CalReq where
  /-- 0 BOOK, 1 CALREL, 2 CALQ, 3 PIPEBIND, 4 PIPEBIND.U. -/
  kind : Nat
  cycle : Nat
  lane : Nat
  task : Nat
  sid : Nat
  gang : Nat
  d : Nat
  /-- First tick and length of the segment, and the relative tick of issue. -/
  start : Nat
  len : Nat
  rt : Nat
  word : Word
  /-- CALQ: resource and OWN. -/
  res : Nat
  own : Bool
  rel : Bool
  /-- Physical address of PIPEBIND's slot 0, and whether its page and fields pass R257. -/
  phys : Option Nat
deriving DecidableEq, Repr

/-- An attempt of a round still to be made (R216). -/
structure Cand where
  /-- Queue number, 16 for the privileged fault queue. -/
  queue : Nat
  taskId : Nat
  /-- Effective priority when the round began. -/
  prio : Nat
deriving DecidableEq, Repr

/-! ### Engine operations -/

/-- The engine operations (R184). -/
inductive OpKind where
  | cpy | cpy2d | gath | scat | fld | fst
  | pgalloc | pgfree | pgref | pgcow | pgset | pgget | pgpin | pgunpin | pgspill | pgfill | pgmap | pgunmap
  | kvsplice | kvspliceS | kvtrim | rampset
  | atomic | launch | msend | kvapp | attd | lfilt | redm | coll | sjoin
  | snap | stream | domset | domget | dqsend | commit
deriving DecidableEq, Repr

/-- A word that a unit has still to write (R311, R367): where, in which record and whether that is replicated, and whether the
full-empty bits are set. -/
structure OutWord where
  addr : Nat
  fri : Nat
  repl : Bool
  bytes : List Byte
  full : Bool
deriving DecidableEq, Repr

/-- A pending engine operation. -/
structure Op where
  id : Nat
  kind : OpKind
  task : Nat
  pid : Nat
  root : Nat
  cl : Nat
  lane : Nat
  pc : Va
  /-- Counter, destination register, scope of the completion release (R185, R191). -/
  ctr : Option Nat
  dst : Option RegRef
  scope : Nat
  /-- Unit that performs it (channel, BDU, die ...) and sequence number there (R202). -/
  unit : Nat
  seq : Nat
  /-- Operands read at issue. -/
  args : List Word
  /-- Unit index: the pair of R202. -/
  i : Nat
  j : Nat
  /-- Words gathered on the way (a value read, partial sums, a table entry). -/
  acc : List Word
  bytes : List Byte
  /-- Words of the unit that it performs that are still to be written, in order (R311, R367). -/
  out : List OutWord
  /-- Stopped by a fault (R202), or by a partition switch (R204). -/
  stopped : Bool
  /-- Ranges leased while they lie in the cluster's page store (R189): frame record, offset in the frame, length. -/
  leases : List (Nat × Nat × Nat)
  /-- Operations that must complete first (R378). -/
  deps : List Dep
  sup : Bool
  /-- Tick of issue, and of arrival at a unit of another die (R329). -/
  tick : Nat
  arr : Nat
  /-- Flags gathered (R310). -/
  flags : FpFlags
  /-- The result of an operation that waits for its writes to be accepted (R370-R372). -/
  fin : Option Nat
deriving DecidableEq, Repr

/-- A tile of a page as a tile command sees it, with its attributes as they stood at issue (R276). -/
structure TilePage where
  /-- Virtual and physical address of the page's first byte. -/
  va : Nat
  phys : Nat
  fmt : Nat
  blk : Nat
  axis : Nat
  loc : Word
  tile : Nat
  mode : Nat
  /-- Physical address of the scale area. -/
  scale : Nat
  /-- Of a ROPE page: the head-group record, PAIR and POS_BASE. -/
  rope : Option (List Byte × Bool × Nat)
deriving DecidableEq, Repr

/-- A tile command issued whose batch has not committed (R269, R272). -/
structure TileCmd where
  id : Nat
  instr : Instr
  task : Nat
  sid : Nat
  pc : Va
  word0 : Word
  batch : Nat
  /-- First and last cycle of its occupancy, and its ticks on each resource: (resource, first, last) (R269). -/
  start : Nat
  done : Nat
  occ : List (Nat × Nat × Nat)
  /-- Operand words read at issue, and the pages it names. -/
  args : List Word
  pages : List TilePage
  leases : List (Nat × Nat)
  /-- Operand bytes as they stood at issue, with what earlier commands of the segment have written since: address and bytes
  (R276). -/
  snap : List (Nat × List Byte)
  /-- Accumulator leased (R274). -/
  acc : Option Nat
  started : Bool
  /-- Commit cycle of its batch, once the batch is closed. -/
  commit : Option Nat
  flags : FpFlags
  /-- Words of a drain still to be written: physical address and bytes (R367). -/
  out : List (Nat × List Byte)
  /-- It met an uncorrectable soft error (R277). -/
  ecc : Bool
deriving DecidableEq, Repr

/-- A B store (R282): L, IW or IE. The containers of element (k, j) stand under 64 × k + j, with the scale and block
code of each when BLK is not 0. -/
structure BStore where
  elts : List Nat
  scales : List (Nat × Nat)
  fmt : Nat
  blk : Nat
  axis : Nat
  tag : Nat
  fresh : Bool
  /-- The elements are rotated values, as FP32 patterns (R280). -/
  rot : Bool
  /-- Every element stands for the canonical NaN (R277). -/
  nan : Bool
deriving DecidableEq, Repr

/-- An entry of the cluster translation cache (R179). -/
structure TcEnt where
  pid : Nat
  vpn : Nat
  fri : Nat
  pte0 : Word
  pte1 : Word
deriving DecidableEq, Repr

/-- A block of an instruction cache (R461): the words it was loaded with. -/
structure IcBlock where
  core : Nat
  pid : Nat
  /-- Virtual address of its first byte, with the root it was translated under and the page's record. -/
  root : Nat
  va : Nat
  fri : Nat
  data : BitVec 8192
  placed : Nat
deriving DecidableEq, Repr

/-- A frame in the eviction queue (R158). -/
structure Evict where
  pid : Nat
  fri : Nat
  /-- 8 KiB units already written, and the PGSPILL that waits for it. -/
  units : Nat
  op : Nat
  /-- Stream whose idle page it is (R334), 0 none. -/
  snum : Nat
  /-- The spill window under way moves a unit of it. -/
  moving : Bool
deriving DecidableEq, Repr

/-- Far work of a queued task (R219). -/
structure FarWork where
  taskId : Nat
  /-- What it does: 0 node copy, 1 read of a move's source, 2 read of a copy-on-write source, 3 read of a replica's home
  copy, 4 SLIST tables of a batch, 5 pipe table of a gang, 6 fetch of a continuation record, 7 read of a rotary record. -/
  what : Nat
  /-- Whose root it works under (0 the partition's, 1 + SNUM a stream's) and the virtual page, or the head group of a
  rotary record. -/
  who : Nat
  vpn : Nat
  done : Bool
  /-- First byte of the move buffer that the page was read into, 0 for none (R219; log 2). -/
  buf : Nat
deriving DecidableEq, Repr

/-- A local copy booked by a placement (R219): performed at the end of its last tick. -/
structure LocalCopy where
  pid : Nat
  /-- 0 a move into the cluster, 1 a copy-on-write copy, 2 a replica. -/
  what : Nat
  /-- Record of the source, its first byte, that of the move buffer it was read into (0 none), and the record of the frame that is
  filled. -/
  old : Nat
  src : Nat
  buf : Nat
  fri : Nat
  /-- Frame it fills, and its last tick. -/
  frame : Nat
  last : Nat
  /-- The PTE that takes a copy-on-write copy: whose root and which page. -/
  who : Nat
  vpn : Nat
  /-- Words of the new frame that a binding with CLEAR empties when the copy is performed: offset and number (R258). -/
  clears : List (Nat × Nat)
deriving DecidableEq, Repr

/-- A copy of a head-group record in the rotary cache (R300): the copy's number, the head group, the record's bytes, and
whether a RAMPSET has dropped it for later bookings. -/
structure RotRec where
  num : Nat
  hgrp : Nat
  bytes : List Byte
  old : Bool
deriving DecidableEq, Repr

/-- A synchronisation domain (R379-R382). -/
structure Domain where
  /-- Membership word (R380). -/
  word : Word := 0
  gen : Nat := 0
  arr : Nat := 0
  /-- The phase is marked PHASE. -/
  phase : Bool := false
  /-- Number of the sweep under way, 0 none; counters read in it (cluster, sent, received); totals of the last one. -/
  sweep : Nat := 0
  read : List (Nat × Nat × Nat) := []
  last : Option (Nat × Nat) := none
  /-- Arrivals beyond TOT while the sweeps run, which the next phase counts: which of them are of PHASE. -/
  later : List Bool := []
deriving DecidableEq, Repr

/-- A domain arrival on its way to the home, or a completion on its way to a member (R381). -/
structure Flight where
  /-- 0 arrival, 1 completion. -/
  kind : Nat
  pid : Nat
  /-- Selector word and instance: cluster, die, or 0. -/
  sel : Nat
  inst : Nat
  /-- Issuing cluster, or the member that the completion goes to. -/
  cl : Nat
  phase : Bool
  gen : Nat
deriving DecidableEq, Repr

/-- A message in an inbox (R386, R390): its header word and its payload. -/
structure Msg where
  hdr : Word
  bytes : List Byte
deriving DecidableEq, Repr

/-- A write of an engine that its destination has not accepted (R370, R372): source die, destination (die, or 8 + host
port), source unit, operation and its task, physical address, whether the full-empty bits are set, and whether an engine of
the source die has been answered from the buffer (R368, R370). -/
structure EgWrite where
  src : Nat
  dst : Nat
  unit : Nat
  op : Nat
  task : Nat
  addr : Nat
  bytes : List Byte
  full : Bool
  seen : Bool
deriving DecidableEq, Repr

/-- A write to a replicated page (R371): the record, the offset, and once it is sequenced the clusters whose replica has
not applied it. -/
structure ReplWrite where
  pid : Nat
  fri : Nat
  off : Nat
  unit : Nat
  op : Nat
  bytes : List Byte
  full : Bool
  seqd : Bool
  left : List Nat
deriving DecidableEq, Repr

/-- A wave of a collective (R394): the member and chunk it belongs to, the hop, the next element and the values. -/
structure Wave where
  ring : List Nat
  chunk : Nat
  hop : Nat
  elem : Nat
  vals : List Nat
deriving DecidableEq, Repr

/-- A collective in flight (R396). -/
structure Coll where
  num : Nat
  pid : Nat
  sel : Nat
  inst : Nat
  /-- Its place on the domain, and the members' operations, completed ones too: (cluster, operation). -/
  k : Nat
  ops : List (Nat × Nat)
  /-- The task of each operation that belongs to it. -/
  tasks : List (Nat × Nat)
  members : List Nat
  checked : Bool
  /-- A member's task was aborted: members that issue later complete with ABORTED (R397). -/
  cancelled : Bool
  /-- The pair of layouts, once it is checked. -/
  pair : List Word
  waves : List Wave
deriving DecidableEq, Repr

/-- A stream batch (R330-R333). -/
structure Batch where
  num : Nat
  model : Nat
  lcur : Nat
  /-- Home cluster (package number) and members' SNUMs in order of joining. -/
  cl : Nat
  mems : List Nat
  /-- Tick of the first member. -/
  first : Nat
  closed : Bool
  /-- Batch slot, once closed; whether the slot is written, the write stopped (R326) or its batch was aborted, the task
  queued, its first segment started, the task ended (R331, R333). -/
  slot : Option Nat
  /-- The slot's bytes as they were at closing (R331). -/
  image : List Byte
  written : Bool
  stopped : Bool
  queued : Bool
  started : Bool
  /-- The members that were BATCHED when its first segment started have become RUNNING (R333). -/
  ran : Bool
  ended : Bool
deriving DecidableEq, Repr

/-- Frames offered for eviction by an expired stream (R335). -/
structure Offer where
  cl : Nat
  snum : Nat
  fris : List Nat
  tick : Nat
  /-- Its place in the order of expiry. -/
  num : Nat
deriving DecidableEq, Repr

/-! ### Faults (R402-R406) -/

/-- The subject of a fault event or record. -/
inductive Subject where
  /-- A parked strand, by its task (R402). -/
  | strand (task : Nat)
  /-- A stopped engine operation, by its number (R202). -/
  | op (id : Nat)
  /-- A placement fault keeps the whole queue entry and its cluster (R403). -/
  | entry (cl : Nat) (e : Entry)
  /-- A stream batch whose slot could not be written (R326): its die and number. -/
  | batch (die num : Nat)
  | notice
deriving DecidableEq, Repr

/-- A fault event on its way to the privileged fault queue: the words of its record but REC and LIVE (R405). -/
structure FaultEv where
  pid : Nat
  /-- Cluster (package number) of the subject. -/
  cl : Nat
  cause : Nat
  kind : Nat
  word0 : Word
  words : List Word
  subject : Subject
deriving DecidableEq, Repr

/-- A fault record in its slot (R405). -/
structure FaultRec where
  ev : FaultEv
  live : Bool
  /-- RESUME or ABORT of it was processed in this tick: the slot frees at the end of the boundary. -/
  done : Bool
deriving DecidableEq, Repr

/-- A fault task in the privileged fault queue (R406), or a continuation or remainder of one. -/
structure FqEntry where
  cl : Nat
  entry : Entry
  /-- Counts against the 256 entries. -/
  counts : Bool
deriving DecidableEq, Repr

/-- A RESUME or ABORT of the tick (R422). -/
structure EndReq where
  cl : Nat
  lane : Nat
  cycle : Nat
  pid : Nat
  /-- 0 RESUME, 1 ABORT, 2 ABORT.T. -/
  kind : Nat
  slot : Nat
  task : Nat
  d : Nat
deriving DecidableEq, Repr

/-! ### Clusters, dies, partitions, device -/

/-- The stores beside memory that correct single-bit errors (R435): register files, accumulators, instruction caches, and the
full-empty store. -/
inductive EccStore where
  | regs | accs | icache | full
deriving DecidableEq, Repr

/-- What one partition has on one cluster (R414, R416). -/
structure ClPart where
  cal : List Booking := []
  placed : List Placed := []
  /-- The round under way: candidates left, cycle at which the current attempt ends, calendar at its start. -/
  cands : List Cand := []
  /-- Cycle at which the next attempt begins. -/
  attemptAt : Nat := 0
  attemptCal : Option (List Booking) := none
  /-- RP_p (R216). -/
  rp : Tab Nat := []
  queues : Tab (List Entry) := []
  urgent : Option Nat := none
  gangs : List Gang := []
  pipes : List Pipe := []
  reqs : List CalReq := []
  far : List FarWork := []
  copies : List LocalCopy := []
  /-- Code blocks to load: (tick, core, virtual address, root, record, tick of the placement) (R461). -/
  fills : List (Nat × Nat × Nat × Nat × Nat × Nat) := []
  /-- Control registers of the partition's copy, by number (R37). -/
  ctl : Tab Word := []
  /-- Writes of control registers that take effect at the next tick boundary (R421). -/
  ctlPend : List (Nat × Word) := []
  quota : Nat := 0
  /-- acc0-acc7: element (i, j) of acc k under 4096 × k + 64 × i + j; unlisted is +0.0 (R36). -/
  acc : Tab (BitVec 32) := []
  /-- Words of the accumulators with an uncorrectable soft error: 2048 × k + word (R277, R435). -/
  accBad : List Nat := []
  latch : Option BStore := none
  ie : Option BStore := none
  iw : Option BStore := none
  tiles : List TileCmd := []
  /-- Ring transfers under way: arrival cycle, direction (0 east, 1 west), the tile (R285). -/
  ring : List (Nat × Nat × BStore) := []
  rotary : List RotRec := []
  inbox : List Msg := []
  msgSent : Nat := 0
  msgRecv : Nat := 0
  /-- Domains of KIND 0 by ID, and collectives issued on each domain by selector (R379, R396). -/
  domains : Tab Domain := []
  collCount : Tab Nat := []
  /-- Frames that spills of the partition have freed here, oldest first (R156; log 14). -/
  freed : List Nat := []
  /-- Replicas of REPL pages: (record, frame) (R371). -/
  replicas : List (Nat × Nat) := []
  /-- Whisk latches due: (tick, SRC + 4 × cluster that fired, tag) (R418). -/
  whisk : List (Nat × Nat × Nat) := []
  /-- The programmed event of EV = 3 has fired (R417). -/
  whiskOnce : Bool := false
  /-- Remainders saved by a switch under way, to re-enter their queues at the restore (R415). -/
  saved : List Entry := []
  /-- Pre-emption requests in effect on a lane (R411). -/
  preempt : List Nat := []
  /-- Tick at which the partition was saved by a switch (R415). -/
  savedAt : Nat := 0
deriving DecidableEq, Repr

/-- What all partitions of a cluster share. -/
structure Cluster where
  /-- Partition that runs on it (R29). -/
  pid : Option Nat := none
  members : List Nat := []
  /-- CAL_CFG and CAL_STAT. -/
  ctl : Tab Word := []
  tc : List TcEnt := []
  icache : List IcBlock := []
  evIdle : List Evict := []
  evDemand : List Evict := []
  /-- Ticks of the idle frames admitted (R335). -/
  admits : List Nat := []
  /-- Sequence numbers of the four channels (R202). -/
  chSeq : Tab Nat := []
  /-- Frames in use: frame number and its record's partition and FRI (R156). -/
  frames : Tab (Nat × Nat) := []
  /-- A partition switch under way: to this partition, commanded in this tick (R414). -/
  switching : Option (Nat × Nat) := none
  /-- Cycle of the last arrival over the mesh, and the place of its port in the order of R244 and R386. -/
  arrived : Nat × Nat := (0, 0)
deriving DecidableEq, Repr

/-- What one partition has on one die. -/
structure DiePart where
  records : Tab FaultRec := []
  ctl : Tab Word := []
  ctlPend : List (Nat × Word) := []
  /-- Image slots in use in the die's continuation area (R408). -/
  images : List Nat := []
  /-- Spill slots in use on each of the die's two stacks (R157): 32768 × stack + slot. -/
  spill : List Nat := []
  /-- Node-pool pages in use (R428). -/
  nodes : List Nat := []
  /-- Stream descriptors of SNUM 0 to 16,383, by SNUM: 16 words each (R327); SNUMs in use (R328). -/
  streams : Tab (List Word) := []
  live : List Nat := []
  /-- Batches, oldest first; waiting streams in order of becoming READY; offers in order of expiry (R330-R335). -/
  batches : List Batch := []
  waiting : List Nat := []
  offers : List Offer := []
  /-- Virtual pages that the pins of each pinned stream hold, by SNUM (R344). -/
  pins : Tab (List Nat) := []
  /-- Domains of KIND 1 by ID (R379). -/
  domains : Tab Domain := []
  /-- Die queues: NEXT_TX by target die, NEXT_RX and the entries by source die (R355). -/
  dqTx : Tab Nat := []
  dqRx : Tab Nat := []
  dqIn : Tab (List (Nat × List Byte)) := []
deriving DecidableEq, Repr

/-- A die (R22). -/
structure Die where
  fq : List FqEntry := []
  /-- Events that wait for an entry or a slot, oldest first (R249). -/
  waiting : List FaultEv := []
  endReqs : List EndReq := []
deriving DecidableEq, Repr

/-- A partition's descriptor (R428). -/
structure Part where
  words : List Word
  /-- Domains of KIND 2 under 32 + ID and of KIND 3 under 48 + ID (R379). -/
  domains : Tab Domain := []
deriving DecidableEq, Repr

/-- Device registers and units (R424-R436). -/
structure Device where
  ctl : Tab Word := []
  /-- Time register writes that take effect at the next tick boundary (R431). -/
  timePend : List (Nat × Word) := []
  /-- The partition command that runs: operation, partition, and its result once it is decided (R427). -/
  cmd : Option (Nat × Nat × Option Nat) := none
  /-- A verification of the firmware window runs (R433). -/
  verify : Bool := false
  /-- Host port to which an attestation report goes (R434). -/
  attest : Option Nat := none
  /-- Retrains of each torus or host port (R407). -/
  retrains : Tab Nat := []
  /-- Firmware window contents and firmware store: the committed stages (R433). -/
  fwWindow : List Host.Cell := []
  fwStore : Option (List (List Byte)) := none
  /-- Next boot stage; whether the boot runs (R432). -/
  boot : Nat := 0
  booting : Bool := true
  /-- Dies that refuse placements, and whether power is off (R436). -/
  hot : List Nat := []
  off : Bool := false
deriving DecidableEq, Repr

/-- The arguments of an event of spec/95: which unit acts and what an outside party supplies. -/
structure EvArg where
  cl : Nat := 0
  pid : Nat := 0
  lane : Nat := 0
  unit : Nat := 0
  id : Nat := 0
  n : Nat := 0
  flag : Bool := false
  words : List Word := []
  bytes : List Byte := []
deriving DecidableEq, Repr

/-- The state of the machine. -/
structure State where
  /-- Cycles since device reset; TICK_NOW is its eighth (R4, R100). -/
  cycle : Nat
  /-- DEV_TIME in units of ns / (24 × 2^32) (R101, R431). -/
  devTime : Nat
  /-- Rows still to be performed at this instant, and the events that outside parties bring, each with its cycle. -/
  agenda : List (Instr × EvArg)
  inputs : List (Nat × Instr × EvArg)
  ev : EvArg
  /-- Next lane to be looked at in this cycle, and the lane whose instruction runs. -/
  cursor : Nat
  cur : Nat
  /-- Lanes that have had their turn in this cycle ahead of lower-numbered ones (R272, R275). -/
  early : List Nat
  /-- Banks whose engine-port writes of the next cycle have begun, 32 × cluster + bank (R56, R365). -/
  written : List Nat
  /-- Tasks whose strands AUTO has saved in this cycle: their remainders enter the queues at its end (R244, R412). -/
  autos : List Nat
  /-- Free values used. -/
  nfree : Nat
  nextId : Nat
  /-- What the last read by a host returned. -/
  reply : Word
  /-- Memory: pages stores, HBM and host memory; an unlisted byte reads 0. -/
  mem : List Host.Cell
  /-- Aligned words whose full-empty bit is 1 (R164). -/
  fe : List Nat
  /-- Aligned words with an uncorrectable, and with a correctable, soft error (R435). -/
  poison : List Nat
  soft : List Nat
  /-- Single-bit errors that stand in the other stores: the store, its cluster, and the word's number there (R435). -/
  singles : List (EccStore × Nat × Nat)
  /-- Strands that run, by lane; parked strands, and stopped ones whose pending writes are not complete. -/
  strands : Tab Strand
  parked : List Strand
  /-- Saved-state images in use: task, cluster, slot, and whether the first 4,800 B lie in shadow storage (R408, R416). -/
  images : List (Nat × Nat × Nat × Bool)
  /-- Continuation records, by task (R229, R230). -/
  conts : List Cont
  ops : List Op
  egress : List EgWrite
  repl : List ReplWrite
  flights : List Flight
  colls : List Coll
  /-- Head-group records kept by base-die units: (unit, partition, head group, bytes) (R300). -/
  bduRot : List (Nat × Nat × Nat × List Byte)
  /-- Deferred MEMORY_ECC causes not yet taken: task, PC of the tile command and its first word (R277). -/
  owed : List (Nat × Va × Word)
  clusters : Tab Cluster
  clParts : Tab ClPart
  dies : Tab Die
  dieParts : Tab DiePart
  parts : Tab Part
  dev : Device
deriving DecidableEq, Repr

/-- Why a run stops. -/
inductive Fault where
  /-- Raised by a meaning of an instruction word when the current lane runs no strand: no instruction of this machine
  issues there. `step` never causes it. Safe: nothing is claimed of such a state. -/
  | noStrand
deriving DecidableEq, Repr

/-- Why the model gives an instruction no meaning. -/
inductive Refusal where
  /-- Raised by Dispatch for a row that has no meaning yet. Safe: nothing is claimed. -/
  | notModelled (mnemonic : String)
deriving DecidableEq, Repr

/-- The machine right after device reset (R33). -/
def State.reset : State :=
  { cycle := 0, devTime := 0, agenda := [], inputs := [], ev := {}, cursor := 0, cur := 0, early := [], written := [], autos := []
    nfree := 0, nextId := 1, reply := 0, mem := [], fe := [], poison := [], soft := [], singles := [], strands := [], parked := [], images := [], conts := [], ops := []
    egress := [], repl := [], flights := [], colls := [], bduRot := [], owed := []
    clusters := [], clParts := [], dies := [], dieParts := [], parts := [], dev := {} }

end Sys2Proof.Machine
end

