-- ==== Sys2Proof/WellFormed.lean ====
section
/-! DEFINITION. Which instructions are well formed: no field value that the form does not take (RESERVED_FIELD,
R42 and each class chapter) and no register outside its file (REGISTER, R34). -/

namespace Sys2Proof

/-- A field of a c register, a p register, an m register, an accumulator or a v register out of its file (R34). -/
def badC (r : R6) : Bool := decide (4 ≤ r.toNat)
def badP (r : R6) : Bool := decide (8 ≤ r.toNat)
def badM (r : R6) : Bool := decide (8 ≤ r.toNat)
def badAcc (r : R6) : Bool := decide (8 ≤ r.toNat)
def badV (r : R6) : Bool := decide (32 ≤ r.toNat)

/-- A `b` field that is a g register when `gb`, else a v register (R118). -/
def badVB (gb : Bool) (r : R6) : Bool := !gb && badV r

/-- The type codes a floating-point, an integer and any vector form accept (R116). -/
def fpT (t : BitVec 3) : Bool := t == 4 || t == 5 || t == 6
def intT (t : BitVec 3) : Bool := decide (t.toNat < 4)
def anyT (t : BitVec 3) : Bool := t != 7

/-- Rounding codes of a form that is not a conversion, and of a conversion (R78). -/
def badRm (rm : BitVec 3) : Bool := decide (5 ≤ rm.toNat)
def badRmC (rm : BitVec 3) : Bool := decide (6 ≤ rm.toNat)

/-- Scope codes 6 and 7 (R191, R361). -/
def badSc (sc : BitVec 3) : Bool := decide (6 ≤ sc.toNat)

/-- The pairing of format code and block length code that R66 allows. -/
def pairOk (fmt blk : Nat) : Bool :=
  if fmt == 1 || fmt == 2 || fmt == 3 then blk == 0
  else if fmt == 11 then blk == 3
  else if (4 ≤ fmt && fmt ≤ 10) || fmt == 12 then decide (blk ≤ 2)
  else false

/-- Container width in bits of a format code (R66). -/
def widthOf (fmt : Nat) : Nat :=
  if fmt == 1 then 32 else if fmt == 2 || fmt == 3 then 16
  else if fmt == 8 || fmt == 10 || fmt == 11 then 4 else if fmt == 12 then 2 else 8

/-- The fields common to VPACK, VUNPK and VQSCALE (R138). -/
def badPack (fmt : BitVec 4) (kind : BitVec 2) : Bool :=
  decide (fmt.toNat < 4) || decide (12 < fmt.toNat) || !pairOk fmt.toNat kind.toNat

/-- A packed slot number out of range (R138). -/
def badSlot (fmt slot : BitVec 4) : Bool := decide (1024 / (32 * widthOf fmt.toNat) ≤ slot.toNat)

/-- Element width of a type code (R116). -/
def typeW (t : BitVec 3) : Nat :=
  match t.toNat with
  | 0 => 8 | 1 => 16 | 2 => 32 | 3 => 64 | 4 => 32 | 5 => 16 | _ => 16

/-- A pairing of operation and type that VRED and VSCAN refuse, or a rounding they do not take (R134). -/
def badRed (t rm : BitVec 3) (op : BitVec 4) : Bool :=
  !anyT t || decide (8 ≤ op.toNat) || (fpT t && decide (3 ≤ op.toNat))
    || (if fpT t && op == 0 then badRm rm else rm != 0)

/-- Two predicates or masks named by a compare are the same register below 7 (R103, R128). -/
def sameBelow7 {n : Nat} (x y : BitVec n) : Bool := x == y && decide (x.toNat < 7)

/-- The condition codes of VCMP for a type (R129). -/
def badVCond (t : BitVec 3) (cond : BitVec 4) : Bool :=
  if fpT t then !(cond == 0 || cond == 1 || cond == 2 || cond == 3 || cond == 6 || cond == 7
      || cond == 12 || cond == 13)
  else decide (12 ≤ cond.toNat)

/-- The causes TRAP may raise (R420). -/
def trapCause (c : BitVec 8) : Bool :=
  c == 0x05 || c == 0x06 || (decide (0x09 ≤ c.toNat) && decide (c.toNat ≤ 0x12)) || c == 0x16 || c == 0x17

/-- The assigned control register numbers (R37; the register tables of each chapter). -/
def ctlAssigned (n : Nat) : Bool :=
  n ≤ 1 || n == 0x180 || n == 0x181 || (0x190 ≤ n && n ≤ 0x1A0) || (0x1B0 ≤ n && n ≤ 0x1B2)
    || (0x1C0 ≤ n && n ≤ 0x1C2) || (0x300 ≤ n && n ≤ 0x30E) || (0x410 ≤ n && n ≤ 0x413)
    || (0x420 ≤ n && n ≤ 0x423) || n == 0x430 || (0x800 ≤ n && n ≤ 0x802) || n == 0x810 || n == 0x811
    || (0x818 ≤ n && n ≤ 0x81F) || (0x840 ≤ n && n ≤ 0x844) || (0x860 ≤ n && n ≤ 0x862)
    || (0x868 ≤ n && n ≤ 0x875) || n == 0x880 || n == 0x890

/-- MR, NC and KD of a tile command (R278, R286). -/
def badMN (mr nc : BitVec 7) : Bool :=
  mr == 0 || nc == 0 || decide (64 < mr.toNat) || decide (64 < nc.toNat)
def badMul (mr nc : BitVec 7) (kd : BitVec 8) : Bool := badMN mr nc || kd == 0 || decide (128 < kd.toNat)

/-- A field holds a value that the form does not take: RESERVED_FIELD. -/
def reservedBad : Instr → Bool
  | .bfx _ _ _ pos lm1 _ => decide (64 < pos.toNat + lm1.toNat + 1)
  | .bfi _ _ _ _ pos lm1 => decide (64 < pos.toNat + lm1.toNat + 1)
  | .rdid _ _ sel => decide (2 ≤ sel.toNat)
  | .cmp _ cond comb pt _ _ pf => decide (12 ≤ cond.toNat) || comb == 3 || sameBelow7 pt pf
  | .cmpi _ cond pf pt _ _ => decide (12 ≤ cond.toNat) || sameBelow7 pt pf
  | .pset _ vals mask => bit mask 7 || bit vals 7 || vals &&& ~~~ mask != 0
  | .segend _ a => a == 0
  | .split _ roam a => !roam && a != 0
  | .trap _ _ imm => !trapCause (bits imm 0 8)
  | .ctlrd _ _ n => !ctlAssigned n.toNat
  | .ctlwr _ n _ => !ctlAssigned n.toNat
  | .vlds _ _ sz _ _ | .vsts _ _ sz _ _ | .vgath _ _ sz _ _ | .vscat _ _ sz _ _ => decide (sz.toNat < 2)
  | .cpy _ _ _ sc _ _ _ _ | .cpy2d _ _ _ sc _ _ _ _ | .gath _ _ _ sc _ _ _ _ | .scat _ _ _ sc _ _ _ _ =>
    badSc sc
  | .fld _ _ sc sz s _ _ _ => badSc sc || decide (5 ≤ sz.toNat) || (s && decide (3 ≤ sz.toNat))
  | .fst _ _ _ sc sz _ _ _ => badSc sc || decide (5 ≤ sz.toNat)
  | .aadd _ _ _ _ sz _ _ | .amin _ _ _ _ sz _ _ | .amax _ _ _ _ sz _ _ | .aand _ _ _ _ sz _ _
  | .aor _ _ _ _ sz _ _ | .axor _ _ _ _ sz _ _ | .aswp _ _ _ _ sz _ _ | .acas _ _ _ _ sz _ _ =>
    decide (sz.toNat < 2)
  | .afadd _ _ _ _ sz _ _ => sz == 0 || sz == 3
  | .fence _ kind scope => kind == 0 || badSc scope
  | .qcfg _ w _ a _ => !w && a != 0
  | .vadd _ _ _ _ t rm _ _ _ | .vsub _ _ _ _ t rm _ _ _ | .vmul _ _ _ _ t rm _ _ _
  | .vdiv _ _ _ _ t rm _ _ _ => !fpT t || badRm rm
  | .vfma _ _ _ _ _ t rm _ _ _ | .vfms _ _ _ _ _ t rm _ _ _ | .vfnma _ _ _ _ _ t rm _ _ _ =>
    !fpT t || badRm rm
  | .vmin _ _ _ _ t _ _ _ | .vmax _ _ _ _ t _ _ _ => !fpT t
  | .vabs _ _ _ t _ _ | .vneg _ _ _ t _ _ | .vclass _ _ _ t _ _ => !fpT t
  | .vsqrt _ _ _ t rm _ _ | .vrcp _ _ _ t rm _ _ | .vrsq _ _ _ t rm _ _ | .vexp2 _ _ _ t rm _ _
  | .vlog2 _ _ _ t rm _ _ | .vtanh _ _ _ t rm _ _ => !fpT t || badRm rm
  | .viadd _ _ _ _ t _ _ _ | .visub _ _ _ _ t _ _ _ | .vimul _ _ _ _ t _ _ _ | .vishl _ _ _ _ t _ _ _
  | .vishr _ _ _ _ t _ _ _ | .visar _ _ _ _ t _ _ _ | .vand _ _ _ _ t _ _ _ | .vor _ _ _ _ t _ _ _
  | .vxor _ _ _ _ t _ _ _ => !intT t
  | .vimulh _ _ _ _ t _ _ _ _ | .vimin _ _ _ _ t _ _ _ _ | .vimax _ _ _ _ t _ _ _ _
  | .viaddsat _ _ _ _ t _ _ _ _ => !intT t
  | .viabs _ _ _ t _ _ => !intT t
  | .vcmp _ mt _ _ mf t _ _ cond => t == 0 || !anyT t || badVCond t cond || sameBelow7 mt mf
  | .vsel _ _ _ _ t _ => !anyT t
  | .mcnt _ _ _ t | .mfirst _ _ _ t => !anyT t
  | .vperm _ _ _ _ t _ _ | .vrot _ _ _ _ t _ _ => !anyT t
  | .vshuf _ _ _ b t _ _ pat => !anyT t || decide (6 ≤ pat.toNat) || (decide (4 ≤ pat.toNat) && b != 0)
  | .vbcast _ _ _ t _ _ => !anyT t
  | .vextr _ _ _ _ t u => !anyT t || (fpT t && u)
  | .vins _ _ _ _ t => !anyT t
  | .vred _ _ _ t rm _ op => badRed t rm op
  | .vscan _ _ _ t rm _ _ op => badRed t rm op
  | .vdot _ _ _ _ _ t rm _ _ u =>
    if t == 0 then rm != 0 else !(t == 5 || t == 6) || badRm rm || u
  | .vcvt _ _ _ c td rm _ _ _ ts part _ =>
    !anyT td || !anyT ts || badRmC rm || (rm != 5 && c != 0)
      || decide (max (typeW td) (typeW ts) / min (typeW td) (typeW ts) ≤ part.toNat)
  | .vpack _ _ _ _ c rm _ _ fmt kind slot sat =>
    badPack fmt kind || badSlot fmt slot || badRmC rm || (rm != 5 && c != 0)
      || (fmt == 11 && (rm != 0 || sat))
  | .vunpk _ _ _ _ _ _ fmt kind slot => badPack fmt kind || badSlot fmt slot
  | .vqscale _ _ _ _ _ fmt kind out =>
    badPack fmt kind || out == 3 || (kind == 0 && (out == 1 || out == 2))
  | .vrand _ _ _ _ _ t _ _ => !(t == 2 || t == 4)
  | .kvapp _ _ sc _ _ _ => badSc sc
  | .attd _ sc _ _ => badSc sc
  | .rampset _ p _ _ b _ => p && b != 0
  | .vrope _ _ _ _ _ _ _ split y => !split && y
  | .lfilt _ sc _ _ => badSc sc
  | .msend _ sc _ _ _ _ => badSc sc
  | .mrecv _ t _ _ b => !t && b != 0
  | .redm _ op _ sc _ _ _ _ => op == 3 || badSc sc
  | .tmma _ _ _ _ _ _ _ mr nc kd | .tmmat _ _ _ _ _ _ _ mr nc kd | .tmmbt _ _ _ _ _ _ _ mr nc kd =>
    badMul mr nc kd
  | .tmmring _ _ _ _ _ mr nc kd => badMul mr nc kd
  | .tdrain _ _ _ _ rm _ mr nc gseed gcoord =>
    badRmC rm || badMN mr nc || (rm != 5 && (gseed != 0 || gcoord != 0))
  | .tdrainx _ _ _ _ rm _ _ sc bi rs dp mr nc gs gbias gres lres gseed gdrop gcoord =>
    badRmC rm || badMN mr nc || (!sc && gs != 0) || (!bi && gbias != 0)
      || (!rs && (gres != 0 || lres != 0)) || (!(rm == 5 || dp) && (gseed != 0 || gcoord != 0))
      || (!dp && gdrop != 0)
  | .tblatch _ src ga gd lb tr =>
    decide (5 ≤ src.toNat)
      || (src == 0 && gd != 0)
      || ((src == 1 || src == 2) && (gd != 0 || lb != 0 || tr))
      || ((src == 3 || src == 4) && (ga != 0 || lb != 0 || tr))
  | _ => false

/-- A register field names a register outside the file the form uses: REGISTER. -/
def registerBad : Instr → Bool
  | .sel _ _ _ _ c => badP c
  | .ptog _ _ a => badP a
  | .gtop _ d _ => badP d
  | .cmp _ _ _ pt _ _ pf => badP pt || badP pf
  | .pand _ d a b | .por _ d a b | .pxor _ d a b | .pandn _ d a b => badP d || badP a || badP b
  | .vld _ v _ _ | .vst _ v _ _ => badV v
  | .vlds _ v _ _ _ | .vsts _ v _ _ _ => badV v
  | .vgath _ v _ _ m | .vscat _ v _ _ m => badV v || badV m.index
  | .vldb _ v _ _ _ _ => badV v
  | .pgalloc _ _ _ _ c | .pgref _ _ _ _ c | .pgcow _ _ _ _ c => badC c
  | .pgset _ _ _ _ c _ | .pgmap _ _ _ _ c _ => badC c
  | .pgfree _ _ _ c | .pgpin _ _ _ c | .pgunpin _ _ _ c | .pgspill _ _ _ c | .pgfill _ _ _ c
  | .pgunmap _ _ _ c => badC c
  | .pgget _ _ _ c _ => badC c
  | .cpy _ _ _ _ _ _ _ c | .gath _ _ _ _ _ _ _ c | .scat _ _ _ _ _ _ _ c => badC c
  | .cpy2d _ _ _ _ _ _ b c => badC c || b == 0 || b == 63
  | .fld _ _ _ sz _ d _ c => badC c || (sz == 4 && badV d)
  | .fst _ _ _ _ sz _ b c => badC c || (sz == 4 && badV b)
  | .waitc _ c _ => badC c
  | .ctrget _ _ c => badC c
  | .acas _ data _ _ _ _ _ => data == 0 || data == 63
  | .domset _ _ _ _ c => badC c
  | .domget _ _ _ c _ => badC c
  | .launch _ _ _ _ c => badC c
  | .vadd _ d a b _ _ _ _ gb | .vsub _ d a b _ _ _ _ gb | .vmul _ d a b _ _ _ _ gb
  | .vdiv _ d a b _ _ _ _ gb => badV d || badV a || badVB gb b
  | .vfma _ d a b c _ _ _ _ gb | .vfms _ d a b c _ _ _ _ gb | .vfnma _ d a b c _ _ _ _ gb =>
    badV d || badV a || badVB gb b || badV c
  | .vmin _ d a b _ _ _ gb | .vmax _ d a b _ _ _ gb => badV d || badV a || badVB gb b
  | .vabs _ d a _ _ _ | .vneg _ d a _ _ _ | .vclass _ d a _ _ _ => badV d || badV a
  | .vsqrt _ d a _ _ _ _ | .vrcp _ d a _ _ _ _ | .vrsq _ d a _ _ _ _ | .vexp2 _ d a _ _ _ _
  | .vlog2 _ d a _ _ _ _ | .vtanh _ d a _ _ _ _ => badV d || badV a
  | .viadd _ d a b _ _ _ gb | .visub _ d a b _ _ _ gb | .vimul _ d a b _ _ _ gb | .vishl _ d a b _ _ _ gb
  | .vishr _ d a b _ _ _ gb | .visar _ d a b _ _ _ gb | .vand _ d a b _ _ _ gb | .vor _ d a b _ _ _ gb
  | .vxor _ d a b _ _ _ gb => badV d || badV a || badVB gb b
  | .vimulh _ d a b _ _ _ _ gb | .vimin _ d a b _ _ _ _ gb | .vimax _ d a b _ _ _ _ gb
  | .viaddsat _ d a b _ _ _ _ gb => badV d || badV a || badVB gb b
  | .viabs _ d a _ _ _ => badV d || badV a
  | .vcmp _ mt a b mf _ _ gb _ => badM mt || badM mf || badV a || badVB gb b
  | .vsel _ d a b _ _ => badV d || badV a || badV b
  | .mand _ d a b | .mor _ d a b | .mxor _ d a b => badM d || badM a || badM b
  | .mnot _ d a => badM d || badM a
  | .mcnt _ _ a _ | .mfirst _ _ a _ => badM a
  | .vperm _ d a b _ _ _ => badV d || badV a || badV b
  | .vshuf _ d a b _ _ _ _ => badV d || badV a || badV b
  | .vrot _ d a _ _ _ _ => badV d || badV a
  | .vbcast _ d _ _ _ _ => badV d
  | .vextr _ _ a _ _ _ => badV a
  | .vins _ d _ _ _ => badV d
  | .vred _ _ a _ _ _ _ => badV a
  | .vscan _ d a _ _ _ _ _ => badV d || badV a
  | .vdot _ d a b c _ _ _ _ _ => badV d || badV a || badV b || badV c
  | .vcvt _ d a _ _ _ _ _ _ _ _ _ => badV d || badV a
  | .vpack _ d a _ _ _ _ _ _ _ _ _ => badV d || badV a
  | .vunpk _ d a _ _ _ _ _ _ => badV d || badV a
  | .vqscale _ _ a _ _ _ _ _ => badV a
  | .vrand _ d _ _ _ _ _ _ => badV d
  | .sfork _ _ _ _ _ pt => badP pt
  | .sjoin _ _ _ _ _ c | .shor _ _ _ _ _ c => badC c
  | .sprune _ _ _ c | .sstepB _ _ _ c | .spin _ _ _ c | .spinU _ _ _ c | .ssetC _ _ _ c => badC c
  | .sact _ _ _ _ c | .sactp _ _ _ _ c | .sstep _ _ _ _ c | .ssnap _ _ _ _ c => badC c
  | .sget _ _ _ c _ => badC c
  | .sset _ _ _ _ c _ => badC c
  | .kvapp _ _ _ _ _ c => badC c
  | .kvsplice _ _ _ b c => badC c || b == 0 || b == 63
  | .kvspliceS _ _ _ _ c | .kvtrim _ _ _ _ c => badC c
  | .attd _ _ _ c => badC c
  | .attmV _ d a b _ _ _ => badV d || badV a || badV b
  | .rampset _ _ _ _ _ c => badC c
  | .vrope _ d a _ c _ _ split _ => badV d || badV a || badV c || (split && bit a 0)
  | .lfilt _ _ _ c => badC c
  | .commit _ _ _ _ c => badC c
  | .dqsend _ _ _ c => badC c
  | .msend _ _ _ _ _ c => badC c
  | .coll _ _ _ c => badC c
  | .redm _ _ _ _ _ _ _ c => badC c
  | .tzero _ a => badAcc a
  | .taccrd _ d a _ _ => badV d || badAcc a
  | .taccrdR _ d a _ => badV d || badAcc a
  | _ => false

/-- An instruction whose fields the hardware takes. -/
def wellFormed (i : Instr) : Bool := !reservedBad i && !registerBad i

end Sys2Proof
end

