-- ==== Sys2Proof/Machine/Operands.lean ====
section
/-! DEFINITION. The registers of a strand (spec/02 R34), the operand forms (R43, R44), the guard (R41), the registers
an instruction names (R55, R187), and the elements and masks of vector registers (spec/05 R116-R119). -/

namespace Sys2Proof.Machine

/-! ### Register files (R34): g0 reads 0, p7 reads 1, m7 reads all ones; writes to them are discarded -/

/-- g[r]. -/
def getG (t : Strand) (r : R6) : Word := if r = 0 then 0 else t.g[r.toNat]

/-- v[r]. -/
def getV (t : Strand) (r : R6) : BitVec 1024 := t.v[r.toNat % 32]

/-- p[r]. -/
def getP (t : Strand) (r : BitVec 3) : Bool := if r = 7 then true else t.p.getLsbD r.toNat

/-- m[r]. -/
def getM (t : Strand) (r : BitVec 3) : Word := if h : r.toNat < 7 then t.m[r.toNat] else BitVec.allOnes 64

/-- c[r]. -/
def getC (t : Strand) (r : R6) : BitVec 16 := t.c[r.toNat % 4]

/-- The low bits of a register field that names a predicate or a mask. -/
def low3 (r : R6) : BitVec 3 := r.setWidth 3

/-- A write at cycle `now` with latency `lat` is pending until `now + lat` (R54, R55). -/
def addPend (now lat : Nat) (r : RegRef) (t : Strand) : Strand :=
  if lat ≤ 1 then t else { t with pend := (r, now + lat) :: t.pend }

/-- g[d] := x, ready `lat` cycles after `now`. -/
def setG (now lat : Nat) (d : R6) (x : Word) (t : Strand) : Strand :=
  if d = 0 then t else addPend now lat (.g d.toNat) { t with g := t.g.set d.toNat x }

/-- v[d] := x. -/
def setV (now lat : Nat) (d : R6) (x : BitVec 1024) (t : Strand) : Strand :=
  addPend now lat (.v (d.toNat % 32)) { t with v := t.v.set (d.toNat % 32) x }

/-- p[d] := x. -/
def setP (now lat : Nat) (d : BitVec 3) (x : Bool) (t : Strand) : Strand :=
  if d = 7 then t
  else addPend now lat (.p d.toNat)
    { t with p := (t.p &&& ~~~ (1#7 <<< d.toNat)) ||| ((b2b x).setWidth 7 <<< d.toNat) }

/-- m[d] := x. -/
def setM (now lat : Nat) (d : BitVec 3) (x : Word) (t : Strand) : Strand :=
  if h : d.toNat < 7 then addPend now lat (.m d.toNat) { t with m := t.m.set d.toNat x } else t

/-- c[d] := x. -/
def setC (d : R6) (x : BitVec 16) (t : Strand) : Strand := { t with c := t.c.set (d.toNat % 4) x }

/-- OR flags into FPFLAG at the result cycle `now + lat` (R39, R97, R120, R376; log 20). -/
def lateFlags (now lat : Nat) (f : FpFlags) (t : Strand) : Strand :=
  if f = 0 then t else { t with late := (now + lat, f) :: t.late }

/-- FPFLAG in cycle `now`. -/
def flagsAt (now : Nat) (t : Strand) : FpFlags :=
  t.late.foldl (fun a e => if e.1 ≤ now then a ||| e.2 else a) t.flags

/-- FPFLAG once every pending write of the strand is complete. -/
def flagsDone (t : Strand) : FpFlags := t.late.foldl (fun a e => a ||| e.2) t.flags

/-- The guard (R41). -/
def guardOn (g : Guard) (t : Strand) : Bool := getP t g.p != g.neg

/-- EA of F-MEM (R44). -/
def effAddr (m : MemOp) (t : Strand) : Va :=
  ((getG t m.base + (getG t m.index <<< m.sh.toNat) + sxW m.disp).setWidth 48)

/-- (g[base] + SEXT(disp, 24)) mod 2^48. -/
def baseDisp (base : R6) (disp : BitVec 24) (t : Strand) : Va := (getG t base + sxW disp).setWidth 48

/-! ### The PC triple (R34, R50, R52) -/

/-- After a word: the triple moves on and, inside a branch's slots, so does the slot index. -/
def advance (t : Strand) : Strand :=
  { t with
    pc0 := t.pc1
    pc1 := t.pc2
    pc2 := t.pc2 + 8
    ds := if t.ds = 1 then 2 else 0
    reach := none
    issued := none
    lineBuf := []
    atIssue := []
    resumed := none }

/-- After a tile command word, which advances by 32 (R47). -/
def advanceTcw (t : Strand) : Strand :=
  { t with pc0 := t.pc0 + 32, pc1 := t.pc0 + 40, pc2 := t.pc0 + 48, ds := 0, reach := none, issued := none, lineBuf := [], atIssue := []
           resumed := none }

/-- After a branch at pc0: its two slots, then `target` (R50). -/
def advanceBranch (target : Va) (t : Strand) : Strand :=
  { t with pc0 := t.pc0 + 8, pc1 := t.pc0 + 16, pc2 := target, ds := 1, reach := none, issued := none, lineBuf := [], atIssue := []
           resumed := none }

/-! ### Rounding modifiers (R78) -/

/-- The rounding of a modifier that is not SR: DYN reads FPCTL.RM. -/
def modeOf (rm : BitVec 3) (t : Strand) : Rnd :=
  if rm = 4 then rndOf t.rm.toNat else rndOf rm.toNat

/-! ### The registers an instruction names (R55, R187) -/

def rG (r : R6) : List RegRef := if r = 0 then [] else [.g r.toNat]
def rV (r : R6) : List RegRef := [.v r.toNat]
def rP (r : R6) : List RegRef := if r.toNat = 7 then [] else [.p r.toNat]
def rP3 (r : BitVec 3) : List RegRef := if r = 7 then [] else [.p r.toNat]
def rM (r : R6) : List RegRef := if r.toNat = 7 then [] else [.m r.toNat]
def rM3 (r : BitVec 3) : List RegRef := if r = 7 then [] else [.m r.toNat]
def rGV (isG : Bool) (r : R6) : List RegRef := if isG then rG r else rV r
def rMem (m : MemOp) : List RegRef := rG m.base ++ rG m.index
/-- Every predicate that PTOG.F, GTOP.F and PSET name. -/
def allP : List RegRef := [.p 0, .p 1, .p 2, .p 3, .p 4, .p 5, .p 6]

/-- The registers that a true-guarded word reads or writes as operands. -/
def uses : Instr → List RegRef
  | .add _ d a b => rG d ++ rG a ++ rG b
  | .sub _ d a b => rG d ++ rG a ++ rG b
  | .mul _ d a b => rG d ++ rG a ++ rG b
  | .mulh _ d a b => rG d ++ rG a ++ rG b
  | .mulhs _ d a b => rG d ++ rG a ++ rG b
  | .div _ d a b => rG d ++ rG a ++ rG b
  | .divs _ d a b => rG d ++ rG a ++ rG b
  | .rem _ d a b => rG d ++ rG a ++ rG b
  | .rems _ d a b => rG d ++ rG a ++ rG b
  | .and _ d a b => rG d ++ rG a ++ rG b
  | .or _ d a b => rG d ++ rG a ++ rG b
  | .xor _ d a b => rG d ++ rG a ++ rG b
  | .andn _ d a b => rG d ++ rG a ++ rG b
  | .orn _ d a b => rG d ++ rG a ++ rG b
  | .shl _ d a b => rG d ++ rG a ++ rG b
  | .shr _ d a b => rG d ++ rG a ++ rG b
  | .sar _ d a b => rG d ++ rG a ++ rG b
  | .rol _ d a b => rG d ++ rG a ++ rG b
  | .min _ d a b => rG d ++ rG a ++ rG b
  | .max _ d a b => rG d ++ rG a ++ rG b
  | .mins _ d a b => rG d ++ rG a ++ rG b
  | .maxs _ d a b => rG d ++ rG a ++ rG b
  | .clz _ d a => rG d ++ rG a
  | .ctz _ d a => rG d ++ rG a
  | .popc _ d a => rG d ++ rG a
  | .sel _ d a b c => rG d ++ rG a ++ rG b ++ rP c
  | .bfx _ d a _ _ _ => rG d ++ rG a
  | .bfi _ d a b _ _ => rG d ++ rG a ++ rG b
  | .lea _ d a b _ => rG d ++ rG a ++ rG b
  | .addsat _ _ d a b => rG d ++ rG a ++ rG b
  | .addi _ d a _ => rG d ++ rG a
  | .muli _ d a _ => rG d ++ rG a
  | .andi _ _ d a _ => rG d ++ rG a
  | .ori _ _ d a _ => rG d ++ rG a
  | .xori _ _ d a _ => rG d ++ rG a
  | .shli _ d a _ => rG d ++ rG a
  | .shri _ d a _ => rG d ++ rG a
  | .sari _ d a _ => rG d ++ rG a
  | .roli _ d a _ => rG d ++ rG a
  | .mini _ _ d a _ => rG d ++ rG a
  | .maxi _ _ d a _ => rG d ++ rG a
  | .leai _ d a _ _ => rG d ++ rG a
  | .movi _ d _ => rG d
  | .movhi _ d _ => rG d
  | .mov _ d a => rG d ++ rG a
  | .ptog _ d a => rG d ++ rP a
  | .ptogF _ d => rG d ++ allP
  | .gtop _ d a => rP d ++ rG a
  | .gtopF _ a => allP ++ rG a
  | .rdtick _ _ d => rG d
  | .rdtime _ d => rG d
  | .rdid _ d _ => rG d
  | .cmp _ _ _ pt a b pf => rP pt ++ rG a ++ rG b ++ rP pf
  | .cmpi _ _ pf pt a _ => rP3 pt ++ rP3 pf ++ rG a
  | .pand _ d a b => rP d ++ rP a ++ rP b
  | .por _ d a b => rP d ++ rP a ++ rP b
  | .pxor _ d a b => rP d ++ rP a ++ rP b
  | .pandn _ d a b => rP d ++ rP a ++ rP b
  | .pset _ _ _ => allP
  | .b _ _ => []
  | .bl _ link _ => rG link
  | .br _ t => rG t
  | .blr _ link t => rG link ++ rG t
  | .loop _ t _ => rG t
  | .segend _ a => rG a
  | .split _ _ a => rG a
  | .exit _ => []
  | .yield _ a => rG a
  | .trap _ a _ => rG a
  | .brk _ _ => []
  | .syscall _ a _ => rG a
  | .ctlrd _ d _ => rG d
  | .ctlwr _ _ a => rG a
  | .resume _ d a => rG d ++ rG a
  | .abort _ _ d a => rG d ++ rG a
  | .whisk _ _ => []
  | .ld _ data _ _ _ m => rG data ++ rMem m
  | .ldx _ data _ _ _ m => rG data ++ rMem m
  | .st _ data _ _ m => rG data ++ rMem m
  | .stx _ data _ _ m => rG data ++ rMem m
  | .ldf _ data m => rG data ++ rMem m
  | .stf _ data m => rG data ++ rMem m
  | .clrf _ _ m => rMem m
  | .feq _ data m => rG data ++ rMem m
  | .vld _ data _ m => rV data ++ rMem m
  | .vst _ data _ m => rV data ++ rMem m
  | .vlds _ data _ _ m => rV data ++ rMem m
  | .vsts _ data _ _ m => rV data ++ rMem m
  | .vgath _ data _ _ m => rV data ++ (rG m.base ++ rV m.index)
  | .vscat _ data _ _ m => rV data ++ (rG m.base ++ rV m.index)
  | .vldb _ data base gl _ _ => rV data ++ rG base ++ rG gl
  | .pgalloc _ d a b _ => rG d ++ rG a ++ rG b
  | .pgfree _ d a _ => rG d ++ rG a
  | .pgref _ d a b _ => rG d ++ rG a ++ rG b
  | .pgcow _ d a b _ => rG d ++ rG a ++ rG b
  | .pgset _ d a b _ _ => rG d ++ rG a ++ rG b
  | .pgget _ d a _ _ => rG d ++ rG a
  | .pgpin _ d a _ => rG d ++ rG a
  | .pgunpin _ d a _ => rG d ++ rG a
  | .pgspill _ d a _ => rG d ++ rG a
  | .pgfill _ d a _ => rG d ++ rG a
  | .pgmap _ d a b _ _ => rG d ++ rG a ++ rG b
  | .pgunmap _ d a _ => rG d ++ rG a
  | .cpy _ _ _ _ d a b _ => rG d ++ rG a ++ rG b
  | .cpy2d _ _ _ _ d a b _ => rG d ++ rG a ++ rG b ++ rG (b + 1)
  | .gath _ _ _ _ d a b _ => rG d ++ rG a ++ rG b
  | .scat _ _ _ _ d a b _ => rG d ++ rG a ++ rG b
  | .fld _ _ _ sz _ d a _ => rGV (sz != 4) d ++ rG a
  | .fst _ _ _ _ sz a b _ => rG a ++ rGV (sz != 4) b
  | .waitc _ _ _ => []
  | .ctrget _ d _ => rG d
  | .aadd _ data base _ _ _ _ => rG data ++ rG base
  | .afadd _ data base _ _ _ _ => rG data ++ rG base
  | .amin _ data base _ _ _ _ => rG data ++ rG base
  | .amax _ data base _ _ _ _ => rG data ++ rG base
  | .aand _ data base _ _ _ _ => rG data ++ rG base
  | .aor _ data base _ _ _ _ => rG data ++ rG base
  | .axor _ data base _ _ _ _ => rG data ++ rG base
  | .aswp _ data base _ _ _ _ => rG data ++ rG base
  | .acas _ data base _ _ _ _ => rG data ++ rG (data + 1) ++ rG base
  | .fence _ _ _ => []
  | .bar _ d a => rG d ++ rG a
  | .phase _ d a => rG d ++ rG a
  | .domset _ d a b _ => rG d ++ rG a ++ rG b
  | .domget _ d a _ _ => rG d ++ rG a
  | .book _ _ d a => rG d ++ rG a
  | .calrel _ _ d a => rG d ++ rG a
  | .calq _ _ _ d a _ => rG d ++ rG a
  | .gang _ a _ => rG a
  | .launch _ d a b _ => rG d ++ rG a ++ rG b
  | .qpush _ a _ => rG a
  | .qstat _ d _ => rG d
  | .qcfg _ _ d a _ => rG d ++ rG a
  | .pipebind _ _ d a => rG d ++ rG a
  | .vadd _ d a b _ _ k _ gb => rV d ++ rV a ++ rGV gb b ++ rM3 k
  | .vsub _ d a b _ _ k _ gb => rV d ++ rV a ++ rGV gb b ++ rM3 k
  | .vmul _ d a b _ _ k _ gb => rV d ++ rV a ++ rGV gb b ++ rM3 k
  | .vfma _ d a b c _ _ k _ gb => rV d ++ rV a ++ rGV gb b ++ rV c ++ rM3 k
  | .vfms _ d a b c _ _ k _ gb => rV d ++ rV a ++ rGV gb b ++ rV c ++ rM3 k
  | .vfnma _ d a b c _ _ k _ gb => rV d ++ rV a ++ rGV gb b ++ rV c ++ rM3 k
  | .vmin _ d a b _ k _ gb => rV d ++ rV a ++ rGV gb b ++ rM3 k
  | .vmax _ d a b _ k _ gb => rV d ++ rV a ++ rGV gb b ++ rM3 k
  | .vabs _ d a _ k _ => rV d ++ rV a ++ rM3 k
  | .vneg _ d a _ k _ => rV d ++ rV a ++ rM3 k
  | .vdiv _ d a b _ _ k _ gb => rV d ++ rV a ++ rGV gb b ++ rM3 k
  | .vsqrt _ d a _ _ k _ => rV d ++ rV a ++ rM3 k
  | .vrcp _ d a _ _ k _ => rV d ++ rV a ++ rM3 k
  | .vrsq _ d a _ _ k _ => rV d ++ rV a ++ rM3 k
  | .vexp2 _ d a _ _ k _ => rV d ++ rV a ++ rM3 k
  | .vlog2 _ d a _ _ k _ => rV d ++ rV a ++ rM3 k
  | .vtanh _ d a _ _ k _ => rV d ++ rV a ++ rM3 k
  | .vclass _ d a _ k _ => rV d ++ rV a ++ rM3 k
  | .viadd _ d a b _ k _ gb => rV d ++ rV a ++ rGV gb b ++ rM3 k
  | .visub _ d a b _ k _ gb => rV d ++ rV a ++ rGV gb b ++ rM3 k
  | .vimul _ d a b _ k _ gb => rV d ++ rV a ++ rGV gb b ++ rM3 k
  | .vimulh _ d a b _ k _ _ gb => rV d ++ rV a ++ rGV gb b ++ rM3 k
  | .vishl _ d a b _ k _ gb => rV d ++ rV a ++ rGV gb b ++ rM3 k
  | .vishr _ d a b _ k _ gb => rV d ++ rV a ++ rGV gb b ++ rM3 k
  | .visar _ d a b _ k _ gb => rV d ++ rV a ++ rGV gb b ++ rM3 k
  | .vand _ d a b _ k _ gb => rV d ++ rV a ++ rGV gb b ++ rM3 k
  | .vor _ d a b _ k _ gb => rV d ++ rV a ++ rGV gb b ++ rM3 k
  | .vxor _ d a b _ k _ gb => rV d ++ rV a ++ rGV gb b ++ rM3 k
  | .vimin _ d a b _ k _ _ gb => rV d ++ rV a ++ rGV gb b ++ rM3 k
  | .vimax _ d a b _ k _ _ gb => rV d ++ rV a ++ rGV gb b ++ rM3 k
  | .viabs _ d a _ k _ => rV d ++ rV a ++ rM3 k
  | .viaddsat _ d a b _ k _ _ gb => rV d ++ rV a ++ rGV gb b ++ rM3 k
  | .vcmp _ mt a b mf _ k gb _ => rM mt ++ rM mf ++ rV a ++ rGV gb b ++ rM3 k
  | .vsel _ d a b _ k => rV d ++ rV a ++ rV b ++ rM3 k
  | .mand _ d a b => rM d ++ rM a ++ rM b
  | .mor _ d a b => rM d ++ rM a ++ rM b
  | .mxor _ d a b => rM d ++ rM a ++ rM b
  | .mnot _ d a => rM d ++ rM a
  | .mcnt _ d a _ => rG d ++ rM a
  | .mfirst _ d a _ => rG d ++ rM a
  | .vperm _ d a b _ k _ => rV d ++ rV a ++ rV b ++ rM3 k
  | .vshuf _ d a b _ k _ pat => rV d ++ rV a ++ (if pat.toNat < 4 then rV b else []) ++ rM3 k
  | .vrot _ d a b _ k _ => rV d ++ rV a ++ rG b ++ rM3 k
  | .vbcast _ d a _ k _ => rV d ++ rG a ++ rM3 k
  | .vextr _ d a b _ _ => rG d ++ rV a ++ rG b
  | .vins _ d a b _ => rV d ++ rG a ++ rG b
  | .vred _ d a _ _ k _ => rG d ++ rV a ++ rM3 k
  | .vscan _ d a _ _ k _ _ => rV d ++ rV a ++ rM3 k
  | .vdot _ d a b c _ _ k _ _ => rV d ++ rV a ++ rV b ++ rV c ++ rM3 k
  | .vcvt _ d a c _ _ k _ _ _ _ _ => rV d ++ rV a ++ rG c ++ rM3 k
  | .vpack _ d a b c _ k _ _ _ _ _ => rV d ++ rV a ++ rG b ++ rG c ++ rM3 k
  | .vunpk _ d a b k _ _ _ _ => rV d ++ rV a ++ rG b ++ rM3 k
  | .vqscale _ d a b k _ _ _ => rG d ++ rV a ++ rG b ++ rM3 k
  | .vrand _ d a b c _ k _ => rV d ++ rG a ++ rG b ++ rG c ++ rM3 k
  | .sfork _ _ d a b pt => rG d ++ rG a ++ rG b ++ rP pt
  | .sjoin _ _ d a b _ => rG d ++ rG a ++ rG b
  | .sprune _ d a _ => rG d ++ rG a
  | .sact _ d a b _ => rG d ++ rG a ++ rG b
  | .sactp _ d a b _ => rG d ++ rG a ++ rG b
  | .shor _ _ d a b _ => rG d ++ rG a ++ rG b
  | .sstep _ d a b _ => rG d ++ rG a ++ rG b
  | .sstepB _ d a _ => rG d ++ rG a
  | .ssnap _ d a b _ => rG d ++ rG a ++ rG b
  | .spin _ d a _ => rG d ++ rG a
  | .spinU _ d a _ => rG d ++ rG a
  | .sget _ d a _ _ => rG d ++ rG a
  | .sset _ d a b _ _ => rG d ++ rG a ++ rG b
  | .ssetC _ d a _ => rG d ++ rG a
  | .kvapp _ _ _ d a _ => rG d ++ rG a
  | .kvsplice _ d a b _ => rG d ++ rG a ++ rG b ++ rG (b + 1)
  | .kvspliceS _ d a b _ => rG d ++ rG a ++ rG b
  | .kvtrim _ d a b _ => rG d ++ rG a ++ rG b
  | .attd _ _ a _ => rG a
  | .attmS _ d a b => rG d ++ rG a ++ rG b
  | .attmV _ d a b c k _ => rV d ++ rV a ++ rV b ++ rG c ++ rM3 k
  | .rampset _ _ d a b _ => rG d ++ rG a ++ rG b
  | .vrope _ d a b c k _ split _ => rV d ++ rV a ++ (if split then rV (a + 1) else []) ++ rG b ++ rV c ++ rM3 k
  | .lfilt _ _ a _ => rG a
  | .sample _ d a b c => rG d ++ rG a ++ rG b ++ rG c
  | .accept _ d a b => rG d ++ rG a ++ rG b
  | .commit _ d a b _ => rG d ++ rG a ++ rG b
  | .dqsend _ a b _ => rG a ++ rG b
  | .dqrecv _ d a b => rG d ++ rG a ++ rG b
  | .msend _ _ d a b _ => rG d ++ rG a ++ rG b
  | .mrecv _ _ d a b => rG d ++ rG a ++ rG b
  | .coll _ d a _ => rG d ++ rG a
  | .redm _ _ _ _ d a b _ => rG d ++ rG a ++ rG b
  | .tzero _ _ => []
  | .tcommit _ d => rG d
  | .twait _ a => rG a
  | .taccrd _ d _ _ _ => rV d
  | .taccrdR _ d _ b => rV d ++ rG b
  | .tmma _ _ ga gb _ _ _ _ _ _ => rG ga ++ rG gb
  | .tmmat _ _ ga gb _ _ _ _ _ _ => rG ga ++ rG gb
  | .tmmbt _ _ ga gb _ _ _ _ _ _ => rG ga ++ rG gb
  | .tmmring _ _ ga _ _ _ _ _ => rG ga
  | .tdrain _ _ gt _ _ _ _ _ gseed gcoord => rG gt ++ rG gseed ++ rG gcoord
  | .tdrainx _ _ gt _ _ _ _ _ _ _ _ _ _ gs gbias gres _ gseed gdrop gcoord =>
    rG gt ++ rG gs ++ rG gbias ++ rG gres ++ rG gseed ++ rG gdrop ++ rG gcoord
  | .tblatch _ _ ga gd _ _ => rG ga ++ rG gd
  | _ => []

/-- The guard of an instruction word; events and illegal words have none. -/
def guardOf : Instr → Option Guard
  | .add g _ _ _ => some g
  | .sub g _ _ _ => some g
  | .mul g _ _ _ => some g
  | .mulh g _ _ _ => some g
  | .mulhs g _ _ _ => some g
  | .div g _ _ _ => some g
  | .divs g _ _ _ => some g
  | .rem g _ _ _ => some g
  | .rems g _ _ _ => some g
  | .and g _ _ _ => some g
  | .or g _ _ _ => some g
  | .xor g _ _ _ => some g
  | .andn g _ _ _ => some g
  | .orn g _ _ _ => some g
  | .shl g _ _ _ => some g
  | .shr g _ _ _ => some g
  | .sar g _ _ _ => some g
  | .rol g _ _ _ => some g
  | .min g _ _ _ => some g
  | .max g _ _ _ => some g
  | .mins g _ _ _ => some g
  | .maxs g _ _ _ => some g
  | .clz g _ _ => some g
  | .ctz g _ _ => some g
  | .popc g _ _ => some g
  | .sel g _ _ _ _ => some g
  | .bfx g _ _ _ _ _ => some g
  | .bfi g _ _ _ _ _ => some g
  | .lea g _ _ _ _ => some g
  | .addsat g _ _ _ _ => some g
  | .addi g _ _ _ => some g
  | .muli g _ _ _ => some g
  | .andi g _ _ _ _ => some g
  | .ori g _ _ _ _ => some g
  | .xori g _ _ _ _ => some g
  | .shli g _ _ _ => some g
  | .shri g _ _ _ => some g
  | .sari g _ _ _ => some g
  | .roli g _ _ _ => some g
  | .mini g _ _ _ _ => some g
  | .maxi g _ _ _ _ => some g
  | .leai g _ _ _ _ => some g
  | .movi g _ _ => some g
  | .movhi g _ _ => some g
  | .mov g _ _ => some g
  | .ptog g _ _ => some g
  | .ptogF g _ => some g
  | .gtop g _ _ => some g
  | .gtopF g _ => some g
  | .rdtick g _ _ => some g
  | .rdtime g _ => some g
  | .rdid g _ _ => some g
  | .cmp g _ _ _ _ _ _ => some g
  | .cmpi g _ _ _ _ _ => some g
  | .pand g _ _ _ => some g
  | .por g _ _ _ => some g
  | .pxor g _ _ _ => some g
  | .pandn g _ _ _ => some g
  | .pset g _ _ => some g
  | .b g _ => some g
  | .bl g _ _ => some g
  | .br g _ => some g
  | .blr g _ _ => some g
  | .loop g _ _ => some g
  | .segend g _ => some g
  | .split g _ _ => some g
  | .exit g => some g
  | .yield g _ => some g
  | .trap g _ _ => some g
  | .brk g _ => some g
  | .syscall g _ _ => some g
  | .ctlrd g _ _ => some g
  | .ctlwr g _ _ => some g
  | .resume g _ _ => some g
  | .abort g _ _ _ => some g
  | .whisk g _ => some g
  | .ld g _ _ _ _ _ => some g
  | .ldx g _ _ _ _ _ => some g
  | .st g _ _ _ _ => some g
  | .stx g _ _ _ _ => some g
  | .ldf g _ _ => some g
  | .stf g _ _ => some g
  | .clrf g _ _ => some g
  | .feq g _ _ => some g
  | .vld g _ _ _ => some g
  | .vst g _ _ _ => some g
  | .vlds g _ _ _ _ => some g
  | .vsts g _ _ _ _ => some g
  | .vgath g _ _ _ _ => some g
  | .vscat g _ _ _ _ => some g
  | .vldb g _ _ _ _ _ => some g
  | .pgalloc g _ _ _ _ => some g
  | .pgfree g _ _ _ => some g
  | .pgref g _ _ _ _ => some g
  | .pgcow g _ _ _ _ => some g
  | .pgset g _ _ _ _ _ => some g
  | .pgget g _ _ _ _ => some g
  | .pgpin g _ _ _ => some g
  | .pgunpin g _ _ _ => some g
  | .pgspill g _ _ _ => some g
  | .pgfill g _ _ _ => some g
  | .pgmap g _ _ _ _ _ => some g
  | .pgunmap g _ _ _ => some g
  | .cpy g _ _ _ _ _ _ _ => some g
  | .cpy2d g _ _ _ _ _ _ _ => some g
  | .gath g _ _ _ _ _ _ _ => some g
  | .scat g _ _ _ _ _ _ _ => some g
  | .fld g _ _ _ _ _ _ _ => some g
  | .fst g _ _ _ _ _ _ _ => some g
  | .waitc g _ _ => some g
  | .ctrget g _ _ => some g
  | .aadd g _ _ _ _ _ _ => some g
  | .afadd g _ _ _ _ _ _ => some g
  | .amin g _ _ _ _ _ _ => some g
  | .amax g _ _ _ _ _ _ => some g
  | .aand g _ _ _ _ _ _ => some g
  | .aor g _ _ _ _ _ _ => some g
  | .axor g _ _ _ _ _ _ => some g
  | .aswp g _ _ _ _ _ _ => some g
  | .acas g _ _ _ _ _ _ => some g
  | .fence g _ _ => some g
  | .bar g _ _ => some g
  | .phase g _ _ => some g
  | .domset g _ _ _ _ => some g
  | .domget g _ _ _ _ => some g
  | .book g _ _ _ => some g
  | .calrel g _ _ _ => some g
  | .calq g _ _ _ _ _ => some g
  | .gang g _ _ => some g
  | .launch g _ _ _ _ => some g
  | .qpush g _ _ => some g
  | .qstat g _ _ => some g
  | .qcfg g _ _ _ _ => some g
  | .pipebind g _ _ _ => some g
  | .vadd g _ _ _ _ _ _ _ _ => some g
  | .vsub g _ _ _ _ _ _ _ _ => some g
  | .vmul g _ _ _ _ _ _ _ _ => some g
  | .vfma g _ _ _ _ _ _ _ _ _ => some g
  | .vfms g _ _ _ _ _ _ _ _ _ => some g
  | .vfnma g _ _ _ _ _ _ _ _ _ => some g
  | .vmin g _ _ _ _ _ _ _ => some g
  | .vmax g _ _ _ _ _ _ _ => some g
  | .vabs g _ _ _ _ _ => some g
  | .vneg g _ _ _ _ _ => some g
  | .vdiv g _ _ _ _ _ _ _ _ => some g
  | .vsqrt g _ _ _ _ _ _ => some g
  | .vrcp g _ _ _ _ _ _ => some g
  | .vrsq g _ _ _ _ _ _ => some g
  | .vexp2 g _ _ _ _ _ _ => some g
  | .vlog2 g _ _ _ _ _ _ => some g
  | .vtanh g _ _ _ _ _ _ => some g
  | .vclass g _ _ _ _ _ => some g
  | .viadd g _ _ _ _ _ _ _ => some g
  | .visub g _ _ _ _ _ _ _ => some g
  | .vimul g _ _ _ _ _ _ _ => some g
  | .vimulh g _ _ _ _ _ _ _ _ => some g
  | .vishl g _ _ _ _ _ _ _ => some g
  | .vishr g _ _ _ _ _ _ _ => some g
  | .visar g _ _ _ _ _ _ _ => some g
  | .vand g _ _ _ _ _ _ _ => some g
  | .vor g _ _ _ _ _ _ _ => some g
  | .vxor g _ _ _ _ _ _ _ => some g
  | .vimin g _ _ _ _ _ _ _ _ => some g
  | .vimax g _ _ _ _ _ _ _ _ => some g
  | .viabs g _ _ _ _ _ => some g
  | .viaddsat g _ _ _ _ _ _ _ _ => some g
  | .vcmp g _ _ _ _ _ _ _ _ => some g
  | .vsel g _ _ _ _ _ => some g
  | .mand g _ _ _ => some g
  | .mor g _ _ _ => some g
  | .mxor g _ _ _ => some g
  | .mnot g _ _ => some g
  | .mcnt g _ _ _ => some g
  | .mfirst g _ _ _ => some g
  | .vperm g _ _ _ _ _ _ => some g
  | .vshuf g _ _ _ _ _ _ _ => some g
  | .vrot g _ _ _ _ _ _ => some g
  | .vbcast g _ _ _ _ _ => some g
  | .vextr g _ _ _ _ _ => some g
  | .vins g _ _ _ _ => some g
  | .vred g _ _ _ _ _ _ => some g
  | .vscan g _ _ _ _ _ _ _ => some g
  | .vdot g _ _ _ _ _ _ _ _ _ => some g
  | .vcvt g _ _ _ _ _ _ _ _ _ _ _ => some g
  | .vpack g _ _ _ _ _ _ _ _ _ _ _ => some g
  | .vunpk g _ _ _ _ _ _ _ _ => some g
  | .vqscale g _ _ _ _ _ _ _ => some g
  | .vrand g _ _ _ _ _ _ _ => some g
  | .sfork g _ _ _ _ _ => some g
  | .sjoin g _ _ _ _ _ => some g
  | .sprune g _ _ _ => some g
  | .sact g _ _ _ _ => some g
  | .sactp g _ _ _ _ => some g
  | .shor g _ _ _ _ _ => some g
  | .sstep g _ _ _ _ => some g
  | .sstepB g _ _ _ => some g
  | .ssnap g _ _ _ _ => some g
  | .spin g _ _ _ => some g
  | .spinU g _ _ _ => some g
  | .sget g _ _ _ _ => some g
  | .sset g _ _ _ _ _ => some g
  | .ssetC g _ _ _ => some g
  | .kvapp g _ _ _ _ _ => some g
  | .kvsplice g _ _ _ _ => some g
  | .kvspliceS g _ _ _ _ => some g
  | .kvtrim g _ _ _ _ => some g
  | .attd g _ _ _ => some g
  | .attmS g _ _ _ => some g
  | .attmV g _ _ _ _ _ _ => some g
  | .rampset g _ _ _ _ _ => some g
  | .vrope g _ _ _ _ _ _ _ _ => some g
  | .lfilt g _ _ _ => some g
  | .sample g _ _ _ _ => some g
  | .accept g _ _ _ => some g
  | .commit g _ _ _ _ => some g
  | .dqsend g _ _ _ => some g
  | .dqrecv g _ _ _ => some g
  | .msend g _ _ _ _ _ => some g
  | .mrecv g _ _ _ _ => some g
  | .coll g _ _ _ => some g
  | .redm g _ _ _ _ _ _ _ => some g
  | .tzero g _ => some g
  | .tcommit g _ => some g
  | .twait g _ => some g
  | .taccrd g _ _ _ _ => some g
  | .taccrdR g _ _ _ => some g
  | .tmma g _ _ _ _ _ _ _ _ _ => some g
  | .tmmat g _ _ _ _ _ _ _ _ _ => some g
  | .tmmbt g _ _ _ _ _ _ _ _ _ => some g
  | .tmmring g _ _ _ _ _ _ _ => some g
  | .tdrain g _ _ _ _ _ _ _ _ _ => some g
  | .tdrainx g _ _ _ _ _ _ _ _ _ _ _ _ _ _ _ _ _ _ _ => some g
  | .tblatch g _ _ _ _ _ => some g
  | _ => none

/-! ### Elements and masks (R116-R119) -/

/-- Elements of a type (R116). -/
def numElts (w : Nat) : Nat := 1024 / w

/-- Element `i` of width `w`. -/
def elt (w : Nat) (x : BitVec 1024) (i : Nat) : Nat := (x.toNat >>> (i * w)) % 2 ^ w

/-- Pack elements of width `w`, element 0 lowest. -/
def packElts (w : Nat) : List Nat → Nat
  | [] => 0
  | x :: l => x % 2 ^ w + packElts w l * 2 ^ w

/-- The elements of a register. -/
def elts (w : Nat) (x : BitVec 1024) : List Nat := (List.range (numElts w)).map (elt w x)

/-- A register from its elements. -/
def ofElts (w : Nat) (l : List Nat) : BitVec 1024 := BitVec.ofNat 1024 (packElts w l)

/-- GOV(i) (R117). -/
def gov (w i : Nat) : Nat := i * w / 16

/-- Element `i` is active (R119). -/
def active (mask : Word) (w i : Nat) : Bool := mask.getLsbD (gov w i)

/-- The write of R119: active elements take `f i`, inactive ones merge or are zeroed. -/
def maskWrite (w : Nat) (mask : Word) (z : Bool) (old : BitVec 1024) (f : Nat → Nat) : BitVec 1024 :=
  ofElts w ((List.range (numElts w)).map (fun i =>
    if active mask w i then f i else if z then 0 else elt w old i))

/-- The flags of the active elements, ORed (R120). -/
def orActive (w : Nat) (mask : Word) (f : Nat → FpFlags) : FpFlags :=
  (List.range (numElts w)).foldl (fun acc i => if active mask w i then acc ||| f i else acc) 0

/-- The bits of a mask that element `i` of width `w` covers (R117). -/
def maskBits (w i : Nat) : Nat := (2 ^ (w / 16) - 1) * 2 ^ gov w i

/-- The mask with the bits of every element `i` where `f i` (R117, R128). -/
def maskOf (w : Nat) (f : Nat → Bool) : Word :=
  BitVec.ofNat 64 ((List.range (numElts w)).foldl (fun acc i => if f i then acc ||| maskBits w i else acc) 0)

/-- SEXT of a `w`-bit value. -/
def sextN (w : Nat) (x : Nat) : Int :=
  if 2 ^ (w - 1) ≤ x % 2 ^ w then (x % 2 ^ w : Nat) - (2 ^ w : Int) else (x % 2 ^ w : Nat)

/-- An integer mod 2^w. -/
def wrapN (w : Nat) (i : Int) : Nat := (i % (2 ^ w : Int)).toNat

/-- The format of a floating type code (R116). -/
def fmtOfT (t : BitVec 3) : Fmt := if t = 4 then .fp32 else if t = 5 then .bf16 else .fp16

/-- Element `i` of the `b` operand: a v register, or a g register for every element (R118, GB). -/
def bElt (t : Strand) (gb : Bool) (w : Nat) (b : R6) (i : Nat) : Nat :=
  if gb then (getG t b).toNat % 2 ^ w else elt w (getV t b) i

end Sys2Proof.Machine
end

