-- ==== Sys2Proof/Machine/Flags.lean ====
section
/-! DEFINITION. Scalar results and conditions (spec/04 R94-R98, R104) and vector element results with their flags
(spec/05 R120-R127, R129, R134, R135). -/

namespace Sys2Proof.Machine

/-! ### Scalar results -/

/-- A shift count: bits [63:6] are ignored (R94). -/
def shCount (b : Word) : Nat := b.toNat % 64

/-- floor(ua × ub / 2^64) (R94). -/
def mulHigh (a b : Word) : Word := BitVec.ofNat 64 (a.toNat * b.toNat / 2 ^ 64)

/-- floor(sa × sb / 2^64) (R94). -/
def mulHighS (a b : Word) : Word := BitVec.ofInt 64 ((a.toInt * b.toInt) / (2 ^ 64 : Int))

/-- DIV (R95). -/
def udiv (a b : Word) : Word := if b = 0 then BitVec.allOnes 64 else a / b

/-- REM (R95). -/
def urem (a b : Word) : Word := if b = 0 then a else a % b

/-- DIVS: truncates toward zero; −1 for a zero divisor; −2^63 / −1 is −2^63 (R95). -/
def sdivT (a b : Word) : Word :=
  if b = 0 then BitVec.allOnes 64 else BitVec.ofInt 64 (Int.tdiv a.toInt b.toInt)

/-- REMS (R95). -/
def sremT (a b : Word) : Word :=
  if b = 0 then a else BitVec.ofInt 64 (Int.tmod a.toInt b.toInt)

/-- Minimum and maximum, unsigned and signed (R94). -/
def minU (a b : Word) : Word := if a.toNat ≤ b.toNat then a else b
def maxU (a b : Word) : Word := if a.toNat ≤ b.toNat then b else a
def minS (a b : Word) : Word := if a.toInt ≤ b.toInt then a else b
def maxS (a b : Word) : Word := if a.toInt ≤ b.toInt then b else a

/-- CLZ; 64 for zero (R94). -/
def clz64 (a : Word) : Word := if a = 0 then 64 else BitVec.ofNat 64 (63 - Nat.log2 a.toNat)

/-- The number of zero bits below the lowest one, at most `k`. -/
def trailing : Nat → Nat → Nat
  | 0, _ => 0
  | k + 1, x => if x % 2 = 1 then 0 else trailing k (x / 2) + 1

/-- CTZ; 64 for zero (R94). -/
def ctz64 (a : Word) : Word := BitVec.ofNat 64 (trailing 64 a.toNat)

/-- The number of ones among the low `k` bits. -/
def ones : Nat → Nat → Nat
  | 0, _ => 0
  | k + 1, x => x % 2 + ones k (x / 2)

/-- POPC (R94). -/
def popc64 (a : Word) : Word := BitVec.ofNat 64 (ones 64 a.toNat)

/-- BFX (R96). -/
def bitField (a : Word) (pos len : Nat) (sg : Bool) : Word :=
  let f := (a.toNat >>> pos) % 2 ^ len
  if sg && decide (2 ^ (len - 1) ≤ f) then BitVec.ofInt 64 ((f : Int) - 2 ^ len) else BitVec.ofNat 64 f

/-- BFI: `base` with bits [pos + len − 1 : pos] replaced by the low bits of `x` (R96). -/
def bitInsert (base x : Word) (pos len : Nat) : Word :=
  let m : Word := BitVec.ofNat 64 ((2 ^ len - 1) * 2 ^ pos)
  (base &&& ~~~ m) ||| ((x <<< pos) &&& m)

/-- x mod 2^48, zero-extended (R94, R98). -/
def wrap48 (x : Word) : Word := toW (x.setWidth 48)

/-- An immediate, zero-extended with .Z, else sign-extended (R98). -/
def immOf (z : Bool) (imm : BitVec 32) : Word := if z then toW imm else sxW imm

/-- ADDSAT: the sum clipped to its range, and SAT when it was clipped (R97). -/
def addSat64 (u : Bool) (a b : Word) : Word × FpFlags :=
  let x : Int := if u then (a.toNat + b.toNat : Nat) else a.toInt + b.toInt
  let lo : Int := if u then 0 else -(2 ^ 63)
  let hi : Int := if u then 2 ^ 64 - 1 else 2 ^ 63 - 1
  if hi < x then (BitVec.ofInt 64 hi, fSAT) else if x < lo then (BitVec.ofInt 64 lo, fSAT)
  else (BitVec.ofInt 64 x, 0)

/-- COND(cond, x, y) on `w`-bit values (R104, R129). -/
def condOn {w : Nat} (cond : BitVec 4) (x y : BitVec w) : Bool :=
  match cond.toNat with
  | 0 => decide (x = y)
  | 1 => decide (x ≠ y)
  | 2 => decide (x.toInt < y.toInt)
  | 3 => decide (y.toInt ≤ x.toInt)
  | 4 => decide (x.toNat < y.toNat)
  | 5 => decide (y.toNat ≤ x.toNat)
  | 6 => decide (y.toInt < x.toInt)
  | 7 => decide (x.toInt ≤ y.toInt)
  | 8 => decide (y.toNat < x.toNat)
  | 9 => decide (x.toNat ≤ y.toNat)
  | 10 => decide (x &&& y ≠ 0)
  | _ => decide (x &&& y = 0)

/-! ### Vector floating-point elements (R120-R125) -/

/-- NV of the input NaNs that a form consumes (R70, R82). -/
def snanFlag (f : Fmt) (xs : List Nat) : FpFlags := flagIf (xs.any (isSnan f)) fNV

/-- Round the exact result of a form once (R120). -/
def finish (f : Fmt) (rm : Rnd) (fl : FpFlags) (x : Xr × FpFlags) : Nat × FpFlags :=
  let (c, g) := conv x.1 f rm false
  (c, fl ||| x.2 ||| g)

/-- Two-operand forms of R123. -/
def fpBin (op : Rnd → Xr → Xr → Xr × FpFlags) (f : Fmt) (rm : Rnd) (a b : Nat) : Nat × FpFlags :=
  finish f rm (snanFlag f [a, b]) (op rm (decodeFmt f a) (decodeFmt f b))

/-- One-operand forms of R123. -/
def fpUn (op : Xr → Xr × FpFlags) (f : Fmt) (rm : Rnd) (a : Nat) : Nat × FpFlags :=
  finish f rm (snanFlag f [a]) (op (decodeFmt f a))

/-- ±(a × b) ± c, rounded once; NV for 0 × ∞ even when c is NaN (R123). -/
def fpFma (negP negC : Bool) (f : Fmt) (rm : Rnd) (a b c : Nat) : Nat × FpFlags :=
  let (p, fp) := xMul (decodeFmt f a) (decodeFmt f b)
  let p := if negP then xFlip p else p
  let c' := if negC then xFlip (decodeFmt f c) else decodeFmt f c
  let (r, fr) := xAdd rm p c'
  finish f rm (snanFlag f [a, b, c] ||| fp) (r, fr)

/-- VMIN, VMAX: −0 below +0, NaN for a NaN (R124). -/
def fpMinMax (isMax : Bool) (f : Fmt) (a b : Nat) : Nat × FpFlags :=
  let x := decodeFmt f a
  let y := decodeFmt f b
  let fl := snanFlag f [a, b]
  if xIsNan x || xIsNan y then (nanCode f, fl)
  else
    let pickA := if isMax then xBelow y x else xBelow x y
    ((conv (if pickA then x else y) f .rne false).1, fl)

/-- VABS, VNEG: the sign bit of a non-NaN input (R124); a BF16 input whose exponent field is 0 is a zero (R84). -/
def fpSign (neg : Bool) (f : Fmt) (a : Nat) : Nat × FpFlags :=
  let x := decodeFmt f a
  if xIsNan x then (nanCode f, snanFlag f [a])
  else
    let m := if xIsZero x then 0 else a % signBit f
    let sgn := if neg then decide ((a / signBit f) % 2 = 0) else false
    (if sgn then m + signBit f else m, 0)

/-- The class c of R125, of the encoding as stored. -/
def fpClass (f : Fmt) (a : Nat) : Nat :=
  let m := a % 2 ^ mantOf f
  let e := (a / 2 ^ mantOf f) % 2 ^ expOf f
  let neg := decide ((a / signBit f) % 2 = 1)
  if e == 2 ^ expOf f - 1 then
    if m == 0 then (if neg then 0 else 7) else if isSnan f a then 9 else 8
  else if e == 0 then
    if m == 0 then (if neg then 3 else 4) else (if neg then 2 else 5)
  else if neg then 1 else 6

/-! ### Vector integer elements (R126, R127) -/

/-- An element as signed or unsigned. -/
def eltInt (u : Bool) (w : Nat) (x : Nat) : Int := if u then (x % 2 ^ w : Nat) else sextN w x

/-- floor(x × y / 2^W) (R126). -/
def viMulh (u : Bool) (w a b : Nat) : Nat := wrapN w ((eltInt u w a * eltInt u w b) / (2 ^ w : Int))

/-- Minimum and maximum (R126). -/
def viMin (u : Bool) (w a b : Nat) : Nat := if eltInt u w a ≤ eltInt u w b then a else b
def viMax (u : Bool) (w a b : Nat) : Nat := if eltInt u w a ≤ eltInt u w b then b else a

/-- VIADDSAT (R127). -/
def viAddSat (u : Bool) (w a b : Nat) : Nat × FpFlags :=
  let x := eltInt u w a + eltInt u w b
  let lo : Int := if u then 0 else -(2 ^ (w - 1))
  let hi : Int := if u then 2 ^ w - 1 else 2 ^ (w - 1) - 1
  if hi < x then (wrapN w hi, fSAT) else if x < lo then (wrapN w lo, fSAT) else (wrapN w x, 0)

/-! ### Compare, reduce, dot (R129, R134, R135) -/

/-- A floating-point condition and its NV (R129). -/
def fpCond (cond : BitVec 4) (f : Fmt) (a b : Nat) : Bool × FpFlags :=
  let x := decodeFmt f a
  let y := decodeFmt f b
  let un := xIsNan x || xIsNan y
  let c := xCmp x y
  let raw :=
    match cond.toNat with
    | 0 => !un && c == 0
    | 1 => un || c != 0
    | 2 => !un && c == -1
    | 3 => !un && c != -1
    | 6 => !un && c == 1
    | 7 => !un && c != 1
    | 12 => un
    | _ => !un
  let always := cond == 2 || cond == 3 || cond == 6 || cond == 7
  (raw, snanFlag f [a, b] ||| flagIf (always && un) fNV)

/-- A floating-point maximum or minimum over a list; the infinity that stands for none (R134). -/
def fpExtreme (isMax : Bool) (f : Fmt) (l : List Nat) : Nat × FpFlags :=
  let fl := snanFlag f l
  let start := if isMax then signBit f + infCode f else infCode f
  if l.any (fun x => xIsNan (decodeFmt f x)) then (nanCode f, fl)
  else (l.foldl (fun acc x => (fpMinMax isMax f acc x).1) start, fl)

/-- A floating-point sum over a list, rounded once (R134). -/
def fpSum (f : Fmt) (rm : Rnd) (l : List Nat) : Nat × FpFlags :=
  finish f rm (snanFlag f l) (groupSum (l.map (decodeFmt f)))

/-- An integer reduction over a list (R134). -/
def viReduce (op : BitVec 4) (w : Nat) (l : List Nat) : Nat :=
  match op.toNat with
  | 0 => l.foldl (fun acc x => (acc + x) % 2 ^ w) 0
  | 1 => l.foldl (viMax false w) (2 ^ (w - 1))
  | 2 => l.foldl (viMin false w) (2 ^ (w - 1) - 1)
  | 3 => l.foldl (viMax true w) 0
  | 4 => l.foldl (viMin true w) (2 ^ w - 1)
  | 5 => l.foldl (· &&& ·) (2 ^ w - 1)
  | 6 => l.foldl (· ||| ·) 0
  | _ => l.foldl (· ^^^ ·) 0

/-- The operation of VRED and VSCAN over the active elements (R134). -/
def reduceElts (t : BitVec 3) (rm : Rnd) (op : BitVec 4) (l : List Nat) : Nat × FpFlags :=
  if fpT t then
    if op = 0 then fpSum (fmtOfT t) rm l else fpExtreme (op = 1) (fmtOfT t) l
  else (viReduce op (typeW t) l, 0)

end Sys2Proof.Machine
end

