-- ==== Sys2Proof/Decode.lean ====
section
/-! DEFINITION. Decoding and encoding of instruction words (spec/02 R40 to R49; the field tables of each class). -/

namespace Sys2Proof

/-- What the opcode map gives for a word: the operand bits of word 0 and of word 1 that the form uses,
whether the bits with one permitted value hold it, and the form with its operands. -/
structure Form where
  used  : BitVec 48
  used1 : BitVec 58
  fixed : Bool
  instr : Instr

/-- Major 0x01 (R49): the operand bits the form uses, and the form, by minor. -/
def decAlu (g : Guard) (w : Word) : Nat → Option Form
  | 0 => some ⟨0xFFFFC0000000, 0x0, true, .add g (bits w 42 6) (bits w 36 6) (bits w 30 6)⟩
  | 1 => some ⟨0xFFFFC0000000, 0x0, true, .sub g (bits w 42 6) (bits w 36 6) (bits w 30 6)⟩
  | 2 => some ⟨0xFFFFC0000000, 0x0, true, .mul g (bits w 42 6) (bits w 36 6) (bits w 30 6)⟩
  | 3 => some ⟨0xFFFFC0000000, 0x0, true, .mulh g (bits w 42 6) (bits w 36 6) (bits w 30 6)⟩
  | 4 => some ⟨0xFFFFC0000000, 0x0, true, .mulhs g (bits w 42 6) (bits w 36 6) (bits w 30 6)⟩
  | 5 => some ⟨0xFFFFC0000000, 0x0, true, .div g (bits w 42 6) (bits w 36 6) (bits w 30 6)⟩
  | 6 => some ⟨0xFFFFC0000000, 0x0, true, .divs g (bits w 42 6) (bits w 36 6) (bits w 30 6)⟩
  | 7 => some ⟨0xFFFFC0000000, 0x0, true, .rem g (bits w 42 6) (bits w 36 6) (bits w 30 6)⟩
  | 8 => some ⟨0xFFFFC0000000, 0x0, true, .rems g (bits w 42 6) (bits w 36 6) (bits w 30 6)⟩
  | 9 => some ⟨0xFFFFC0000000, 0x0, true, .and g (bits w 42 6) (bits w 36 6) (bits w 30 6)⟩
  | 10 => some ⟨0xFFFFC0000000, 0x0, true, .or g (bits w 42 6) (bits w 36 6) (bits w 30 6)⟩
  | 11 => some ⟨0xFFFFC0000000, 0x0, true, .xor g (bits w 42 6) (bits w 36 6) (bits w 30 6)⟩
  | 12 => some ⟨0xFFFFC0000000, 0x0, true, .andn g (bits w 42 6) (bits w 36 6) (bits w 30 6)⟩
  | 13 => some ⟨0xFFFFC0000000, 0x0, true, .orn g (bits w 42 6) (bits w 36 6) (bits w 30 6)⟩
  | 14 => some ⟨0xFFFFC0000000, 0x0, true, .shl g (bits w 42 6) (bits w 36 6) (bits w 30 6)⟩
  | 15 => some ⟨0xFFFFC0000000, 0x0, true, .shr g (bits w 42 6) (bits w 36 6) (bits w 30 6)⟩
  | 16 => some ⟨0xFFFFC0000000, 0x0, true, .sar g (bits w 42 6) (bits w 36 6) (bits w 30 6)⟩
  | 17 => some ⟨0xFFFFC0000000, 0x0, true, .rol g (bits w 42 6) (bits w 36 6) (bits w 30 6)⟩
  | 18 => some ⟨0xFFFFC0000000, 0x0, true, .min g (bits w 42 6) (bits w 36 6) (bits w 30 6)⟩
  | 19 => some ⟨0xFFFFC0000000, 0x0, true, .max g (bits w 42 6) (bits w 36 6) (bits w 30 6)⟩
  | 20 => some ⟨0xFFFFC0000000, 0x0, true, .mins g (bits w 42 6) (bits w 36 6) (bits w 30 6)⟩
  | 21 => some ⟨0xFFFFC0000000, 0x0, true, .maxs g (bits w 42 6) (bits w 36 6) (bits w 30 6)⟩
  | 22 => some ⟨0xFFF000000000, 0x0, true, .clz g (bits w 42 6) (bits w 36 6)⟩
  | 23 => some ⟨0xFFF000000000, 0x0, true, .ctz g (bits w 42 6) (bits w 36 6)⟩
  | 24 => some ⟨0xFFF000000000, 0x0, true, .popc g (bits w 42 6) (bits w 36 6)⟩
  | 25 => some ⟨0xFFFFFF000000, 0x0, true, .sel g (bits w 42 6) (bits w 36 6) (bits w 30 6) (bits w 24 6)⟩
  | 26 => some ⟨0xFFF000001FFF, 0x0, true, .bfx g (bits w 42 6) (bits w 36 6) (bits w 0 6) (bits w 6 6) (bit w 12)⟩
  | 27 => some ⟨0xFFFFC0000FFF, 0x0, true, .bfi g (bits w 42 6) (bits w 36 6) (bits w 30 6) (bits w 0 6) (bits w 6 6)⟩
  | 28 => some ⟨0xFFFFC0000003, 0x0, true, .lea g (bits w 42 6) (bits w 36 6) (bits w 30 6) (bits w 0 2)⟩
  | 29 => some ⟨0xFFFFC0000001, 0x0, true, .addsat g (bit w 0) (bits w 42 6) (bits w 36 6) (bits w 30 6)⟩
  | _ => none

/-- Major 0x02 (R49): the operand bits the form uses, and the form, by minor. -/
def decAluImm (g : Guard) (w : Word) : Nat → Option Form
  | 0 => some ⟨0xFFF0FFFFFFFF, 0x0, true, .addi g (bits w 42 6) (bits w 36 6) (bits w 0 32)⟩
  | 1 => some ⟨0xFFF0FFFFFFFF, 0x0, true, .muli g (bits w 42 6) (bits w 36 6) (bits w 0 32)⟩
  | 2 => some ⟨0xFFF1FFFFFFFF, 0x0, true, .andi g (bit w 32) (bits w 42 6) (bits w 36 6) (bits w 0 32)⟩
  | 3 => some ⟨0xFFF1FFFFFFFF, 0x0, true, .ori g (bit w 32) (bits w 42 6) (bits w 36 6) (bits w 0 32)⟩
  | 4 => some ⟨0xFFF1FFFFFFFF, 0x0, true, .xori g (bit w 32) (bits w 42 6) (bits w 36 6) (bits w 0 32)⟩
  | 5 => some ⟨0xFFF00000003F, 0x0, true, .shli g (bits w 42 6) (bits w 36 6) (bits w 0 6)⟩
  | 6 => some ⟨0xFFF00000003F, 0x0, true, .shri g (bits w 42 6) (bits w 36 6) (bits w 0 6)⟩
  | 7 => some ⟨0xFFF00000003F, 0x0, true, .sari g (bits w 42 6) (bits w 36 6) (bits w 0 6)⟩
  | 8 => some ⟨0xFFF00000003F, 0x0, true, .roli g (bits w 42 6) (bits w 36 6) (bits w 0 6)⟩
  | 9 => some ⟨0xFFF1FFFFFFFF, 0x0, true, .mini g (bit w 32) (bits w 42 6) (bits w 36 6) (bits w 0 32)⟩
  | 10 => some ⟨0xFFF1FFFFFFFF, 0x0, true, .maxi g (bit w 32) (bits w 42 6) (bits w 36 6) (bits w 0 32)⟩
  | 11 => some ⟨0xFFF3FFFFFFFF, 0x0, true, .leai g (bits w 42 6) (bits w 36 6) (bits w 32 2) (bits w 0 32)⟩
  | _ => none

/-- Major 0x03 (R49): the operand bits the form uses, and the form, by minor. -/
def decMove (g : Guard) (w : Word) : Nat → Option Form
  | 0 => some ⟨0xFFFFFFFFFFFF, 0x0, true, .movi g (bits w 42 6) (bits w 0 42)⟩
  | 1 => some ⟨0xFC00003FFFFF, 0x0, true, .movhi g (bits w 42 6) (bits w 0 22)⟩
  | 2 => some ⟨0xFFF000000000, 0x0, true, .mov g (bits w 42 6) (bits w 36 6)⟩
  | 3 => some (if bit w 0 then ⟨0xFC0000000001, 0, true, .ptogF g (bits w 42 6)⟩
      else ⟨0xFFF000000001, 0, true, .ptog g (bits w 42 6) (bits w 36 6)⟩)
  | 4 => some (if bit w 0 then ⟨0x3F000000001, 0, true, .gtopF g (bits w 36 6)⟩
      else ⟨0xFFF000000001, 0, true, .gtop g (bits w 42 6) (bits w 36 6)⟩)
  | 5 => some ⟨0xFC0000000001, 0x0, true, .rdtick g (bit w 0) (bits w 42 6)⟩
  | 6 => some ⟨0xFC0000000000, 0x0, true, .rdtime g (bits w 42 6)⟩
  | 7 => some ⟨0xFC000000000F, 0x0, true, .rdid g (bits w 42 6) (bits w 0 4)⟩
  | _ => none

/-- Major 0x04 (R49): the operand bits the form uses, and the form, by minor. -/
def decPred (g : Guard) (w : Word) : Nat → Option Form
  | 0 => some ⟨0xFFFFFF00003F, 0x0, true, .cmp g (bits w 0 4) (bits w 4 2) (bits w 42 6) (bits w 36 6) (bits w 30 6) (bits w 24 6)⟩
  | 1 => some ⟨0xFFFFFFFFFFFF, 0x0, true, .cmpi g (bits w 32 4) (bits w 45 3) (bits w 42 3) (bits w 36 6) (bits w 0 32)⟩
  | 2 => some ⟨0xFFFFC0000000, 0x0, true, .pand g (bits w 42 6) (bits w 36 6) (bits w 30 6)⟩
  | 3 => some ⟨0xFFFFC0000000, 0x0, true, .por g (bits w 42 6) (bits w 36 6) (bits w 30 6)⟩
  | 4 => some ⟨0xFFFFC0000000, 0x0, true, .pxor g (bits w 42 6) (bits w 36 6) (bits w 30 6)⟩
  | 5 => some ⟨0xFFFFC0000000, 0x0, true, .pandn g (bits w 42 6) (bits w 36 6) (bits w 30 6)⟩
  | 6 => some ⟨0xFFFF, 0x0, true, .pset g (bits w 8 8) (bits w 0 8)⟩
  | _ => none

/-- Major 0x05 (R49): the operand bits the form uses, and the form, by minor. -/
def decBranch (g : Guard) (w : Word) : Nat → Option Form
  | 0 => some ⟨0xFFFFFFFF, 0x0, true, .b g (bits w 0 32)⟩
  | 1 => some ⟨0xFC00FFFFFFFF, 0x0, true, .bl g (bits w 42 6) (bits w 0 32)⟩
  | 2 => some ⟨0x3F000000000, 0x0, true, .br g (bits w 36 6)⟩
  | 3 => some ⟨0xFFF000000000, 0x0, true, .blr g (bits w 42 6) (bits w 36 6)⟩
  | 4 => some ⟨0x3F0FFFFFFFF, 0x0, true, .loop g (bits w 36 6) (bits w 0 32)⟩
  | _ => none

/-- Major 0x06 (R49): the operand bits the form uses, and the form, by minor. -/
def decSegment (g : Guard) (w : Word) : Nat → Option Form
  | 0 => some ⟨0x3F000000000, 0x0, true, .segend g (bits w 36 6)⟩
  | 1 => some ⟨0x3F000000001, 0x0, true, .split g (bit w 0) (bits w 36 6)⟩
  | 2 => some ⟨0x0, 0x0, true, .exit g⟩
  | 3 => some ⟨0x3F000000000, 0x0, true, .yield g (bits w 36 6)⟩
  | _ => none

/-- Major 0x07 (R49): the operand bits the form uses, and the form, by minor. -/
def decSystem (g : Guard) (w : Word) : Nat → Option Form
  | 0 => some ⟨0x3F0FFFFFFFF, 0x0, true, .trap g (bits w 36 6) (bits w 0 32)⟩
  | 1 => some ⟨0xFFFFFFFF, 0x0, true, .brk g (bits w 0 32)⟩
  | 2 => some ⟨0x3F0FFFFFFFF, 0x0, true, .syscall g (bits w 36 6) (bits w 0 32)⟩
  | 3 => some ⟨0xFC0000000FFF, 0x0, true, .ctlrd g (bits w 42 6) (bits w 0 12)⟩
  | 4 => some ⟨0x3F000000FFF, 0x0, true, .ctlwr g (bits w 0 12) (bits w 36 6)⟩
  | 5 => some ⟨0xFFF000000000, 0x0, true, .resume g (bits w 42 6) (bits w 36 6)⟩
  | 6 => some ⟨0xFFF100000000, 0x0, true, .abort g (bit w 32) (bits w 42 6) (bits w 36 6)⟩
  | 7 => some ⟨0xFFFF, 0x0, true, .whisk g (bits w 0 16)⟩
  | _ => none

/-- Major 0x08 (R49): the operand bits the form uses, and the form, by minor. -/
def decScalarMem (g : Guard) (w : Word) : Nat → Option Form
  | 0 => some ⟨0xFFFFFFFFFFFF, 0x0, true, .ld g (bits w 42 6) (bits w 24 2) (bit w 26) (bit w 27) ⟨bits w 36 6, bits w 30 6, bits w 28 2, bits w 0 24⟩⟩
  | 1 => some ⟨0xFFFFFBFFFFFF, 0x0, true, .st g (bits w 42 6) (bits w 24 2) (bit w 27) ⟨bits w 36 6, bits w 30 6, bits w 28 2, bits w 0 24⟩⟩
  | 2 => some ⟨0xFFFFFFFFFFFF, 0x0, true, .ldx g (bits w 42 6) (bits w 24 2) (bit w 26) (bit w 27) ⟨bits w 36 6, bits w 30 6, bits w 28 2, bits w 0 24⟩⟩
  | 3 => some ⟨0xFFFFFBFFFFFF, 0x0, true, .stx g (bits w 42 6) (bits w 24 2) (bit w 27) ⟨bits w 36 6, bits w 30 6, bits w 28 2, bits w 0 24⟩⟩
  | 4 => some ⟨0xFFFFF3FFFFFF, 0x0, bits w 24 2 == 3, .ldf g (bits w 42 6) ⟨bits w 36 6, bits w 30 6, bits w 28 2, bits w 0 24⟩⟩
  | 5 => some ⟨0xFFFFF3FFFFFF, 0x0, bits w 24 2 == 3, .stf g (bits w 42 6) ⟨bits w 36 6, bits w 30 6, bits w 28 2, bits w 0 24⟩⟩
  | 6 => some ⟨0x3FFF7FFFFFF, 0x0, bits w 24 2 == 3, .clrf g (bit w 26) ⟨bits w 36 6, bits w 30 6, bits w 28 2, bits w 0 24⟩⟩
  | 7 => some ⟨0xFFFFF3FFFFFF, 0x0, bits w 24 2 == 3, .feq g (bits w 42 6) ⟨bits w 36 6, bits w 30 6, bits w 28 2, bits w 0 24⟩⟩
  | _ => none

/-- Major 0x09 (R49): the operand bits the form uses, and the form, by minor. -/
def decVectorMem (g : Guard) (w : Word) : Nat → Option Form
  | 0 => some ⟨0xFFFFF8FFFFFF, 0x0, true, .vld g (bits w 42 6) (bit w 27) ⟨bits w 36 6, bits w 30 6, bits w 28 2, bits w 0 24⟩⟩
  | 1 => some ⟨0xFFFFF8FFFFFF, 0x0, true, .vst g (bits w 42 6) (bit w 27) ⟨bits w 36 6, bits w 30 6, bits w 28 2, bits w 0 24⟩⟩
  | 2 => some ⟨0xFFFFFBFFFFFF, 0x0, true, .vlds g (bits w 42 6) (bits w 24 2) (bit w 27) ⟨bits w 36 6, bits w 30 6, bits w 28 2, bits w 0 24⟩⟩
  | 3 => some ⟨0xFFFFFBFFFFFF, 0x0, true, .vsts g (bits w 42 6) (bits w 24 2) (bit w 27) ⟨bits w 36 6, bits w 30 6, bits w 28 2, bits w 0 24⟩⟩
  | 4 => some ⟨0xFFFFFBFFFFFF, 0x0, true, .vgath g (bits w 42 6) (bits w 24 2) (bit w 27) ⟨bits w 36 6, bits w 30 6, bits w 28 2, bits w 0 24⟩⟩
  | 5 => some ⟨0xFFFFFBFFFFFF, 0x0, true, .vscat g (bits w 42 6) (bits w 24 2) (bit w 27) ⟨bits w 36 6, bits w 30 6, bits w 28 2, bits w 0 24⟩⟩
  | 6 => some ⟨0xFFFFC3FFFFFF, 0x0, true, .vldb g (bits w 42 6) (bits w 36 6) (bits w 30 6) (bits w 24 2) (bits w 0 24)⟩
  | _ => none

/-- Major 0x0A (R49): the operand bits the form uses, and the form, by minor. -/
def decPage (g : Guard) (w : Word) : Nat → Option Form
  | 0 => some ⟨0xFFFFFF000000, 0x0, true, .pgalloc g (bits w 42 6) (bits w 36 6) (bits w 30 6) (bits w 24 6)⟩
  | 1 => some ⟨0xFFF03F000000, 0x0, true, .pgfree g (bits w 42 6) (bits w 36 6) (bits w 24 6)⟩
  | 2 => some ⟨0xFFFFFF000000, 0x0, true, .pgref g (bits w 42 6) (bits w 36 6) (bits w 30 6) (bits w 24 6)⟩
  | 3 => some ⟨0xFFFFFF000000, 0x0, true, .pgcow g (bits w 42 6) (bits w 36 6) (bits w 30 6) (bits w 24 6)⟩
  | 4 => some ⟨0xFFFFFF000003, 0x0, true, .pgset g (bits w 42 6) (bits w 36 6) (bits w 30 6) (bits w 24 6) (bits w 0 2)⟩
  | 5 => some ⟨0xFFF03F000007, 0x0, true, .pgget g (bits w 42 6) (bits w 36 6) (bits w 24 6) (bits w 0 3)⟩
  | 6 => some ⟨0xFFF03F000000, 0x0, true, .pgpin g (bits w 42 6) (bits w 36 6) (bits w 24 6)⟩
  | 7 => some ⟨0xFFF03F000000, 0x0, true, .pgunpin g (bits w 42 6) (bits w 36 6) (bits w 24 6)⟩
  | 8 => some ⟨0xFFF03F000000, 0x0, true, .pgspill g (bits w 42 6) (bits w 36 6) (bits w 24 6)⟩
  | 9 => some ⟨0xFFF03F000000, 0x0, true, .pgfill g (bits w 42 6) (bits w 36 6) (bits w 24 6)⟩
  | 10 => some ⟨0xFFFFFF0001FE, 0x0, true, .pgmap g (bits w 42 6) (bits w 36 6) (bits w 30 6) (bits w 24 6) (bits w 1 8)⟩
  | 11 => some ⟨0xFFF03F000000, 0x0, true, .pgunmap g (bits w 42 6) (bits w 36 6) (bits w 24 6)⟩
  | _ => none

/-- Major 0x0B (R49): the operand bits the form uses, and the form, by minor. -/
def decAsync (g : Guard) (w : Word) : Nat → Option Form
  | 0 => some ⟨0xFFFFFF00003F, 0x0, true, .cpy g (bits w 0 2) (bit w 2) (bits w 3 3) (bits w 42 6) (bits w 36 6) (bits w 30 6) (bits w 24 6)⟩
  | 1 => some ⟨0xFFFFFF00003F, 0x0, true, .cpy2d g (bits w 0 2) (bit w 2) (bits w 3 3) (bits w 42 6) (bits w 36 6) (bits w 30 6) (bits w 24 6)⟩
  | 2 => some ⟨0xFFFFFF00003F, 0x0, true, .gath g (bits w 0 2) (bit w 2) (bits w 3 3) (bits w 42 6) (bits w 36 6) (bits w 30 6) (bits w 24 6)⟩
  | 3 => some ⟨0xFFFFFF00003F, 0x0, true, .scat g (bits w 0 2) (bit w 2) (bits w 3 3) (bits w 42 6) (bits w 36 6) (bits w 30 6) (bits w 24 6)⟩
  | 4 => some ⟨0xFFF03F0003FB, 0x0, true, .fld g (bits w 0 2) (bits w 3 3) (bits w 6 3) (bit w 9) (bits w 42 6) (bits w 36 6) (bits w 24 6)⟩
  | 5 => some ⟨0x3FFFF0001FF, 0x0, true, .fst g (bits w 0 2) (bit w 2) (bits w 3 3) (bits w 6 3) (bits w 36 6) (bits w 30 6) (bits w 24 6)⟩
  | 6 => some ⟨0x3F00FFFF, 0x0, true, .waitc g (bits w 24 6) (bits w 0 16)⟩
  | 7 => some ⟨0xFC003F000000, 0x0, true, .ctrget g (bits w 42 6) (bits w 24 6)⟩
  | _ => none

/-- Major 0x0C (R49): the operand bits the form uses, and the form, by minor. -/
def decAtomic (g : Guard) (w : Word) : Nat → Option Form
  | 0 => some ⟨0xFFF03BFFFFFF, 0x0, true, .aadd g (bits w 42 6) (bits w 36 6) (bits w 28 2) (bits w 24 2) (bit w 27) (bits w 0 24)⟩
  | 1 => some ⟨0xFFF03BFFFFFF, 0x0, true, .afadd g (bits w 42 6) (bits w 36 6) (bits w 28 2) (bits w 24 2) (bit w 27) (bits w 0 24)⟩
  | 2 => some ⟨0xFFF03BFFFFFF, 0x0, true, .amin g (bits w 42 6) (bits w 36 6) (bits w 28 2) (bits w 24 2) (bit w 27) (bits w 0 24)⟩
  | 3 => some ⟨0xFFF03BFFFFFF, 0x0, true, .amax g (bits w 42 6) (bits w 36 6) (bits w 28 2) (bits w 24 2) (bit w 27) (bits w 0 24)⟩
  | 4 => some ⟨0xFFF03BFFFFFF, 0x0, true, .aand g (bits w 42 6) (bits w 36 6) (bits w 28 2) (bits w 24 2) (bit w 27) (bits w 0 24)⟩
  | 5 => some ⟨0xFFF03BFFFFFF, 0x0, true, .aor g (bits w 42 6) (bits w 36 6) (bits w 28 2) (bits w 24 2) (bit w 27) (bits w 0 24)⟩
  | 6 => some ⟨0xFFF03BFFFFFF, 0x0, true, .axor g (bits w 42 6) (bits w 36 6) (bits w 28 2) (bits w 24 2) (bit w 27) (bits w 0 24)⟩
  | 7 => some ⟨0xFFF03BFFFFFF, 0x0, true, .aswp g (bits w 42 6) (bits w 36 6) (bits w 28 2) (bits w 24 2) (bit w 27) (bits w 0 24)⟩
  | 8 => some ⟨0xFFF03BFFFFFF, 0x0, true, .acas g (bits w 42 6) (bits w 36 6) (bits w 28 2) (bits w 24 2) (bit w 27) (bits w 0 24)⟩
  | _ => none

/-- Major 0x0D (R49): the operand bits the form uses, and the form, by minor. -/
def decSync (g : Guard) (w : Word) : Nat → Option Form
  | 0 => some ⟨0x1F, 0x0, true, .fence g (bits w 3 2) (bits w 0 3)⟩
  | 1 => some ⟨0xFFF000000000, 0x0, true, .bar g (bits w 42 6) (bits w 36 6)⟩
  | 2 => some ⟨0xFFF000000000, 0x0, true, .phase g (bits w 42 6) (bits w 36 6)⟩
  | 3 => some ⟨0xFFFFFF000000, 0x0, true, .domset g (bits w 42 6) (bits w 36 6) (bits w 30 6) (bits w 24 6)⟩
  | 4 => some ⟨0xFFF03F00000F, 0x0, true, .domget g (bits w 42 6) (bits w 36 6) (bits w 24 6) (bits w 0 4)⟩
  | _ => none

/-- Major 0x0E (R49): the operand bits the form uses, and the form, by minor. -/
def decCalendar (g : Guard) (w : Word) : Nat → Option Form
  | 0 => some ⟨0xFFF100000000, 0x0, true, .book g (bit w 32) (bits w 42 6) (bits w 36 6)⟩
  | 1 => some ⟨0xFFF100000000, 0x0, true, .calrel g (bit w 32) (bits w 42 6) (bits w 36 6)⟩
  | 2 => some ⟨0xFFF30000001F, 0x0, true, .calq g (bit w 32) (bit w 33) (bits w 42 6) (bits w 36 6) (bits w 0 5)⟩
  | 3 => some ⟨0x3F00000000F, 0x0, true, .gang g (bits w 36 6) (bits w 0 4)⟩
  | _ => none

/-- Major 0x0F (R49): the operand bits the form uses, and the form, by minor. -/
def decQueue (g : Guard) (w : Word) : Nat → Option Form
  | 0 => some ⟨0xFFFFFF000000, 0x0, true, .launch g (bits w 42 6) (bits w 36 6) (bits w 30 6) (bits w 24 6)⟩
  | 1 => some ⟨0x3F00000000F, 0x0, true, .qpush g (bits w 36 6) (bits w 0 4)⟩
  | 2 => some ⟨0xFC000000000F, 0x0, true, .qstat g (bits w 42 6) (bits w 0 4)⟩
  | 3 => some ⟨0xFFF00000001F, 0x0, true, .qcfg g (bit w 4) (bits w 42 6) (bits w 36 6) (bits w 0 4)⟩
  | 4 => some ⟨0xFFF000000001, 0x0, true, .pipebind g (bit w 0) (bits w 42 6) (bits w 36 6)⟩
  | _ => none

/-- Major 0x10 (R49): the operand bits the form uses, and the form, by minor. -/
def decVecFp (g : Guard) (w : Word) : Nat → Option Form
  | 0 => some ⟨0xFFFFC0000BFF, 0x0, true, .vadd g (bits w 42 6) (bits w 36 6) (bits w 30 6) (bits w 0 3) (bits w 3 3) (bits w 6 3) (bit w 9) (bit w 11)⟩
  | 1 => some ⟨0xFFFFC0000BFF, 0x0, true, .vsub g (bits w 42 6) (bits w 36 6) (bits w 30 6) (bits w 0 3) (bits w 3 3) (bits w 6 3) (bit w 9) (bit w 11)⟩
  | 2 => some ⟨0xFFFFC0000BFF, 0x0, true, .vmul g (bits w 42 6) (bits w 36 6) (bits w 30 6) (bits w 0 3) (bits w 3 3) (bits w 6 3) (bit w 9) (bit w 11)⟩
  | 3 => some ⟨0xFFFFFF000BFF, 0x0, true, .vfma g (bits w 42 6) (bits w 36 6) (bits w 30 6) (bits w 24 6) (bits w 0 3) (bits w 3 3) (bits w 6 3) (bit w 9) (bit w 11)⟩
  | 4 => some ⟨0xFFFFFF000BFF, 0x0, true, .vfms g (bits w 42 6) (bits w 36 6) (bits w 30 6) (bits w 24 6) (bits w 0 3) (bits w 3 3) (bits w 6 3) (bit w 9) (bit w 11)⟩
  | 5 => some ⟨0xFFFFFF000BFF, 0x0, true, .vfnma g (bits w 42 6) (bits w 36 6) (bits w 30 6) (bits w 24 6) (bits w 0 3) (bits w 3 3) (bits w 6 3) (bit w 9) (bit w 11)⟩
  | 6 => some ⟨0xFFFFC0000BC7, 0x0, true, .vmin g (bits w 42 6) (bits w 36 6) (bits w 30 6) (bits w 0 3) (bits w 6 3) (bit w 9) (bit w 11)⟩
  | 7 => some ⟨0xFFFFC0000BC7, 0x0, true, .vmax g (bits w 42 6) (bits w 36 6) (bits w 30 6) (bits w 0 3) (bits w 6 3) (bit w 9) (bit w 11)⟩
  | 8 => some ⟨0xFFF0000003C7, 0x0, true, .vabs g (bits w 42 6) (bits w 36 6) (bits w 0 3) (bits w 6 3) (bit w 9)⟩
  | 9 => some ⟨0xFFF0000003C7, 0x0, true, .vneg g (bits w 42 6) (bits w 36 6) (bits w 0 3) (bits w 6 3) (bit w 9)⟩
  | 10 => some ⟨0xFFFFC0000BFF, 0x0, true, .vdiv g (bits w 42 6) (bits w 36 6) (bits w 30 6) (bits w 0 3) (bits w 3 3) (bits w 6 3) (bit w 9) (bit w 11)⟩
  | 11 => some ⟨0xFFF0000003FF, 0x0, true, .vsqrt g (bits w 42 6) (bits w 36 6) (bits w 0 3) (bits w 3 3) (bits w 6 3) (bit w 9)⟩
  | 12 => some ⟨0xFFF0000003FF, 0x0, true, .vrcp g (bits w 42 6) (bits w 36 6) (bits w 0 3) (bits w 3 3) (bits w 6 3) (bit w 9)⟩
  | 13 => some ⟨0xFFF0000003FF, 0x0, true, .vrsq g (bits w 42 6) (bits w 36 6) (bits w 0 3) (bits w 3 3) (bits w 6 3) (bit w 9)⟩
  | 14 => some ⟨0xFFF0000003FF, 0x0, true, .vexp2 g (bits w 42 6) (bits w 36 6) (bits w 0 3) (bits w 3 3) (bits w 6 3) (bit w 9)⟩
  | 15 => some ⟨0xFFF0000003FF, 0x0, true, .vlog2 g (bits w 42 6) (bits w 36 6) (bits w 0 3) (bits w 3 3) (bits w 6 3) (bit w 9)⟩
  | 16 => some ⟨0xFFF0000003FF, 0x0, true, .vtanh g (bits w 42 6) (bits w 36 6) (bits w 0 3) (bits w 3 3) (bits w 6 3) (bit w 9)⟩
  | 17 => some ⟨0xFFF0000003C7, 0x0, true, .vclass g (bits w 42 6) (bits w 36 6) (bits w 0 3) (bits w 6 3) (bit w 9)⟩
  | _ => none

/-- Major 0x11 (R49): the operand bits the form uses, and the form, by minor. -/
def decVecInt (g : Guard) (w : Word) : Nat → Option Form
  | 0 => some ⟨0xFFFFC0000BC7, 0x0, true, .viadd g (bits w 42 6) (bits w 36 6) (bits w 30 6) (bits w 0 3) (bits w 6 3) (bit w 9) (bit w 11)⟩
  | 1 => some ⟨0xFFFFC0000BC7, 0x0, true, .visub g (bits w 42 6) (bits w 36 6) (bits w 30 6) (bits w 0 3) (bits w 6 3) (bit w 9) (bit w 11)⟩
  | 2 => some ⟨0xFFFFC0000BC7, 0x0, true, .vimul g (bits w 42 6) (bits w 36 6) (bits w 30 6) (bits w 0 3) (bits w 6 3) (bit w 9) (bit w 11)⟩
  | 3 => some ⟨0xFFFFC0000FC7, 0x0, true, .vimulh g (bits w 42 6) (bits w 36 6) (bits w 30 6) (bits w 0 3) (bits w 6 3) (bit w 9) (bit w 10) (bit w 11)⟩
  | 4 => some ⟨0xFFFFC0000BC7, 0x0, true, .vishl g (bits w 42 6) (bits w 36 6) (bits w 30 6) (bits w 0 3) (bits w 6 3) (bit w 9) (bit w 11)⟩
  | 5 => some ⟨0xFFFFC0000BC7, 0x0, true, .vishr g (bits w 42 6) (bits w 36 6) (bits w 30 6) (bits w 0 3) (bits w 6 3) (bit w 9) (bit w 11)⟩
  | 6 => some ⟨0xFFFFC0000BC7, 0x0, true, .visar g (bits w 42 6) (bits w 36 6) (bits w 30 6) (bits w 0 3) (bits w 6 3) (bit w 9) (bit w 11)⟩
  | 7 => some ⟨0xFFFFC0000BC7, 0x0, true, .vand g (bits w 42 6) (bits w 36 6) (bits w 30 6) (bits w 0 3) (bits w 6 3) (bit w 9) (bit w 11)⟩
  | 8 => some ⟨0xFFFFC0000BC7, 0x0, true, .vor g (bits w 42 6) (bits w 36 6) (bits w 30 6) (bits w 0 3) (bits w 6 3) (bit w 9) (bit w 11)⟩
  | 9 => some ⟨0xFFFFC0000BC7, 0x0, true, .vxor g (bits w 42 6) (bits w 36 6) (bits w 30 6) (bits w 0 3) (bits w 6 3) (bit w 9) (bit w 11)⟩
  | 10 => some ⟨0xFFFFC0000FC7, 0x0, true, .vimin g (bits w 42 6) (bits w 36 6) (bits w 30 6) (bits w 0 3) (bits w 6 3) (bit w 9) (bit w 10) (bit w 11)⟩
  | 11 => some ⟨0xFFFFC0000FC7, 0x0, true, .vimax g (bits w 42 6) (bits w 36 6) (bits w 30 6) (bits w 0 3) (bits w 6 3) (bit w 9) (bit w 10) (bit w 11)⟩
  | 12 => some ⟨0xFFF0000003C7, 0x0, true, .viabs g (bits w 42 6) (bits w 36 6) (bits w 0 3) (bits w 6 3) (bit w 9)⟩
  | 13 => some ⟨0xFFFFC0000FC7, 0x0, true, .viaddsat g (bits w 42 6) (bits w 36 6) (bits w 30 6) (bits w 0 3) (bits w 6 3) (bit w 9) (bit w 10) (bit w 11)⟩
  | _ => none

/-- Major 0x12 (R49): the operand bits the form uses, and the form, by minor. -/
def decVecCmp (g : Guard) (w : Word) : Nat → Option Form
  | 0 => some ⟨0xFFFFFF00F9C7, 0x0, true, .vcmp g (bits w 42 6) (bits w 36 6) (bits w 30 6) (bits w 24 6) (bits w 0 3) (bits w 6 3) (bit w 11) (bits w 12 4)⟩
  | 1 => some ⟨0xFFFFC00001C7, 0x0, true, .vsel g (bits w 42 6) (bits w 36 6) (bits w 30 6) (bits w 0 3) (bits w 6 3)⟩
  | 2 => some ⟨0xFFFFC0000000, 0x0, true, .mand g (bits w 42 6) (bits w 36 6) (bits w 30 6)⟩
  | 3 => some ⟨0xFFFFC0000000, 0x0, true, .mor g (bits w 42 6) (bits w 36 6) (bits w 30 6)⟩
  | 4 => some ⟨0xFFFFC0000000, 0x0, true, .mxor g (bits w 42 6) (bits w 36 6) (bits w 30 6)⟩
  | 5 => some ⟨0xFFF000000000, 0x0, true, .mnot g (bits w 42 6) (bits w 36 6)⟩
  | 6 => some ⟨0xFFF000000007, 0x0, true, .mcnt g (bits w 42 6) (bits w 36 6) (bits w 0 3)⟩
  | 7 => some ⟨0xFFF000000007, 0x0, true, .mfirst g (bits w 42 6) (bits w 36 6) (bits w 0 3)⟩
  | _ => none

/-- Major 0x13 (R49): the operand bits the form uses, and the form, by minor. -/
def decVecPerm (g : Guard) (w : Word) : Nat → Option Form
  | 0 => some ⟨0xFFFFC00003C7, 0x0, true, .vperm g (bits w 42 6) (bits w 36 6) (bits w 30 6) (bits w 0 3) (bits w 6 3) (bit w 9)⟩
  | 1 => some ⟨0xFFFFC000F3C7, 0x0, true, .vshuf g (bits w 42 6) (bits w 36 6) (bits w 30 6) (bits w 0 3) (bits w 6 3) (bit w 9) (bits w 12 4)⟩
  | 2 => some ⟨0xFFFFC00003C7, 0x0, true, .vrot g (bits w 42 6) (bits w 36 6) (bits w 30 6) (bits w 0 3) (bits w 6 3) (bit w 9)⟩
  | 3 => some ⟨0xFFF0000003C7, 0x0, true, .vbcast g (bits w 42 6) (bits w 36 6) (bits w 0 3) (bits w 6 3) (bit w 9)⟩
  | 4 => some ⟨0xFFFFC00005C7, 0x0, bits w 6 3 == 7, .vextr g (bits w 42 6) (bits w 36 6) (bits w 30 6) (bits w 0 3) (bit w 10)⟩
  | 5 => some ⟨0xFFFFC00001C7, 0x0, bits w 6 3 == 7, .vins g (bits w 42 6) (bits w 36 6) (bits w 30 6) (bits w 0 3)⟩
  | 6 => some ⟨0xFFF00000F1FF, 0x0, true, .vred g (bits w 42 6) (bits w 36 6) (bits w 0 3) (bits w 3 3) (bits w 6 3) (bits w 12 4)⟩
  | 7 => some ⟨0xFFF00000F3FF, 0x0, true, .vscan g (bits w 42 6) (bits w 36 6) (bits w 0 3) (bits w 3 3) (bits w 6 3) (bit w 9) (bits w 12 4)⟩
  | 8 => some ⟨0xFFFFFF0007FF, 0x0, true, .vdot g (bits w 42 6) (bits w 36 6) (bits w 30 6) (bits w 24 6) (bits w 0 3) (bits w 3 3) (bits w 6 3) (bit w 9) (bit w 10)⟩
  | _ => none

/-- Major 0x14 (R49): the operand bits the form uses, and the form, by minor. -/
def decVecConv (g : Guard) (w : Word) : Nat → Option Form
  | 0 => some ⟨0xFFF03F7F07FF, 0x0, true, .vcvt g (bits w 42 6) (bits w 36 6) (bits w 24 6) (bits w 0 3) (bits w 3 3) (bits w 6 3) (bit w 9) (bit w 10) (bits w 16 3) (bits w 19 3) (bit w 22)⟩
  | 1 => some ⟨0xFFFFFF7FF3FF, 0x0, bits w 0 3 == 4, .vpack g (bits w 42 6) (bits w 36 6) (bits w 30 6) (bits w 24 6) (bits w 3 3) (bits w 6 3) (bit w 9) (bits w 12 4) (bits w 16 2) (bits w 18 4) (bit w 22)⟩
  | 2 => some ⟨0xFFFFC03FF3C7, 0x0, bits w 0 3 == 4, .vunpk g (bits w 42 6) (bits w 36 6) (bits w 30 6) (bits w 6 3) (bit w 9) (bits w 12 4) (bits w 16 2) (bits w 18 4)⟩
  | 3 => some ⟨0xFFFFC0C3F1C7, 0x0, bits w 0 3 == 4, .vqscale g (bits w 42 6) (bits w 36 6) (bits w 30 6) (bits w 6 3) (bits w 12 4) (bits w 16 2) (bits w 22 2)⟩
  | 4 => some ⟨0xFFFFFF0003C7, 0x0, true, .vrand g (bits w 42 6) (bits w 36 6) (bits w 30 6) (bits w 24 6) (bits w 0 3) (bits w 6 3) (bit w 9)⟩
  | _ => none

/-- Major 0x18 (R49): the operand bits the form uses, and the form, by minor. -/
def decStream (g : Guard) (w : Word) : Nat → Option Form
  | 0 => some ⟨0xFFFFFF000001, 0x0, true, .sfork g (bit w 0) (bits w 42 6) (bits w 36 6) (bits w 30 6) (bits w 24 6)⟩
  | 1 => some ⟨0xFFFFFF000001, 0x0, true, .sjoin g (bit w 0) (bits w 42 6) (bits w 36 6) (bits w 30 6) (bits w 24 6)⟩
  | 2 => some ⟨0xFFF03F000000, 0x0, true, .sprune g (bits w 42 6) (bits w 36 6) (bits w 24 6)⟩
  | 3 => some ⟨0xFFFFFF000000, 0x0, true, .sact g (bits w 42 6) (bits w 36 6) (bits w 30 6) (bits w 24 6)⟩
  | 4 => some ⟨0xFFFFFF000000, 0x0, true, .sactp g (bits w 42 6) (bits w 36 6) (bits w 30 6) (bits w 24 6)⟩
  | 5 => some ⟨0xFFFFFF000001, 0x0, true, .shor g (bit w 0) (bits w 42 6) (bits w 36 6) (bits w 30 6) (bits w 24 6)⟩
  | 6 => some (if bit w 0 then ⟨0xFFF03F000001, 0, true, .sstepB g (bits w 42 6) (bits w 36 6) (bits w 24 6)⟩
      else ⟨0xFFFFFF000001, 0, true, .sstep g (bits w 42 6) (bits w 36 6) (bits w 30 6) (bits w 24 6)⟩)
  | 7 => some ⟨0xFFFFFF000000, 0x0, true, .ssnap g (bits w 42 6) (bits w 36 6) (bits w 30 6) (bits w 24 6)⟩
  | 8 => some (if bit w 0 then ⟨0xFFF03F000001, 0, true, .spinU g (bits w 42 6) (bits w 36 6) (bits w 24 6)⟩
      else ⟨0xFFF03F000001, 0, true, .spin g (bits w 42 6) (bits w 36 6) (bits w 24 6)⟩)
  | 9 => some ⟨0xFFF03F00000F, 0x0, true, .sget g (bits w 42 6) (bits w 36 6) (bits w 24 6) (bits w 0 4)⟩
  | 10 => some (if bit w 4 then ⟨0xFFF03F000010, 0, true, .ssetC g (bits w 42 6) (bits w 36 6) (bits w 24 6)⟩
      else ⟨0xFFFFFF00001F, 0, true, .sset g (bits w 42 6) (bits w 36 6) (bits w 30 6) (bits w 24 6) (bits w 0 4)⟩)
  | _ => none

/-- Major 0x19 (R49): the operand bits the form uses, and the form, by minor. -/
def decAttention (g : Guard) (w : Word) : Nat → Option Form
  | 0 => some ⟨0xFFF03F00003B, 0x0, true, .kvapp g (bits w 0 2) (bits w 3 3) (bits w 42 6) (bits w 36 6) (bits w 24 6)⟩
  | 1 => some (if bit w 0 then ⟨0xFFFFFF000001, 0, true, .kvspliceS g (bits w 42 6) (bits w 36 6) (bits w 30 6) (bits w 24 6)⟩
      else ⟨0xFFFFFF000001, 0, true, .kvsplice g (bits w 42 6) (bits w 36 6) (bits w 30 6) (bits w 24 6)⟩)
  | 2 => some ⟨0xFFFFFF000000, 0x0, true, .kvtrim g (bits w 42 6) (bits w 36 6) (bits w 30 6) (bits w 24 6)⟩
  | 3 => some ⟨0x3F03F000038, 0x0, true, .attd g (bits w 3 3) (bits w 36 6) (bits w 24 6)⟩
  | 4 => some (if bit w 0 then ⟨0xFFFFFF0003C1, 0, true, .attmV g (bits w 42 6) (bits w 36 6) (bits w 30 6) (bits w 24 6) (bits w 6 3) (bit w 9)⟩
      else ⟨0xFFFFC0000001, 0, true, .attmS g (bits w 42 6) (bits w 36 6) (bits w 30 6)⟩)
  | 5 => some ⟨0xFFFFFF000001, 0x0, true, .rampset g (bit w 0) (bits w 42 6) (bits w 36 6) (bits w 30 6) (bits w 24 6)⟩
  | 6 => some ⟨0xFFFFFF0033C7, 0x0, bits w 0 3 == 4, .vrope g (bits w 42 6) (bits w 36 6) (bits w 30 6) (bits w 24 6) (bits w 6 3) (bit w 9) (bit w 12) (bit w 13)⟩
  | _ => none

/-- Major 0x1A (R49): the operand bits the form uses, and the form, by minor. -/
def decGeneration (g : Guard) (w : Word) : Nat → Option Form
  | 0 => some ⟨0x3F03F000038, 0x0, true, .lfilt g (bits w 3 3) (bits w 36 6) (bits w 24 6)⟩
  | 1 => some ⟨0xFFFFFF000000, 0x0, true, .sample g (bits w 42 6) (bits w 36 6) (bits w 30 6) (bits w 24 6)⟩
  | 2 => some ⟨0xFFFFC0000000, 0x0, true, .accept g (bits w 42 6) (bits w 36 6) (bits w 30 6)⟩
  | 3 => some ⟨0xFFFFFF000000, 0x0, true, .commit g (bits w 42 6) (bits w 36 6) (bits w 30 6) (bits w 24 6)⟩
  | 4 => some ⟨0x3FFFF000000, 0x0, true, .dqsend g (bits w 36 6) (bits w 30 6) (bits w 24 6)⟩
  | 5 => some ⟨0xFFFFC0000000, 0x0, true, .dqrecv g (bits w 42 6) (bits w 36 6) (bits w 30 6)⟩
  | _ => none

/-- Major 0x1B (R49): the operand bits the form uses, and the form, by minor. -/
def decMessage (g : Guard) (w : Word) : Nat → Option Form
  | 0 => some ⟨0xFFFFFF000038, 0x0, true, .msend g (bits w 3 3) (bits w 42 6) (bits w 36 6) (bits w 30 6) (bits w 24 6)⟩
  | 1 => some ⟨0xFFFFC0000001, 0x0, true, .mrecv g (bit w 0) (bits w 42 6) (bits w 36 6) (bits w 30 6)⟩
  | 2 => some ⟨0xFFF03F000000, 0x0, true, .coll g (bits w 42 6) (bits w 36 6) (bits w 24 6)⟩
  | 3 => some ⟨0xFFFFFF0000FB, 0x0, true, .redm g (bits w 6 2) (bits w 0 2) (bits w 3 3) (bits w 42 6) (bits w 36 6) (bits w 30 6) (bits w 24 6)⟩
  | _ => none

/-- Major 0x1F (R49): the operand bits the form uses, and the form, by minor. -/
def decTileShort (g : Guard) (w : Word) : Nat → Option Form
  | 0 => some ⟨0x3F000000000, 0x0, true, .tzero g (bits w 36 6)⟩
  | 1 => some ⟨0xFC0000000000, 0x0, true, .tcommit g (bits w 42 6)⟩
  | 2 => some ⟨0x3F000000000, 0x0, true, .twait g (bits w 36 6)⟩
  | 3 => some (if bit w 7 then ⟨0xFFFFC0000080, 0, true, .taccrdR g (bits w 42 6) (bits w 36 6) (bits w 30 6)⟩
      else ⟨0xFFF0000000FF, 0, true, .taccrd g (bits w 42 6) (bits w 36 6) (bits w 0 6) (bit w 6)⟩)
  | _ => none

/-- Major 0x30 (R49): the operand bits the form uses, and the form, by minor. -/
def decTileMul (g : Guard) (w w1 : Word) : Nat → Option Form
  | 0 => some ⟨0xFFFFFC000000, 0x3FFFFF, true, .tmma g (bits w 45 3) (bits w 39 6) (bits w 33 6) (bits w 31 2) (bits w 29 2) (bits w 26 3) (bits w1 0 7) (bits w1 7 7) (bits w1 14 8)⟩
  | 1 => some ⟨0xFFFFFC000000, 0x3FFFFF, true, .tmmat g (bits w 45 3) (bits w 39 6) (bits w 33 6) (bits w 31 2) (bits w 29 2) (bits w 26 3) (bits w1 0 7) (bits w1 7 7) (bits w1 14 8)⟩
  | 2 => some ⟨0xFFFFFC000000, 0x3FFFFF, true, .tmmbt g (bits w 45 3) (bits w 39 6) (bits w 33 6) (bits w 31 2) (bits w 29 2) (bits w 26 3) (bits w1 0 7) (bits w1 7 7) (bits w1 14 8)⟩
  | 3 => some ⟨0xFF819C000000, 0x3FFFFF, true, .tmmring g (bits w 45 3) (bits w 39 6) (bits w 31 2) (bits w 26 3) (bits w1 0 7) (bits w1 7 7) (bits w1 14 8)⟩
  | _ => none

/-- Major 0x31 (R49): the operand bits the form uses, and the form, by minor. -/
def decTileDrain (g : Guard) (w w1 : Word) : Nat → Option Form
  | 0 => some ⟨0xFFFE00000000, 0xFC0FC00003FFF, true, .tdrain g (bits w 45 3) (bits w 39 6) (bits w 37 2) (bits w 34 3) (bit w 33) (bits w1 0 7) (bits w1 7 7) (bits w1 34 6) (bits w1 46 6)⟩
  | 1 => some ⟨0xFFFFF8000000, 0xFFFFFFFFFFFFF, true, .tdrainx g (bits w 45 3) (bits w 39 6) (bits w 37 2) (bits w 34 3) (bit w 33) (bits w 31 2) (bit w 30) (bit w 29) (bit w 28) (bit w 27) (bits w1 0 7) (bits w1 7 7) (bits w1 14 6) (bits w1 20 6) (bits w1 26 6) (bits w1 32 2) (bits w1 34 6) (bits w1 40 6) (bits w1 46 6)⟩
  | _ => none

/-- Major 0x32 (R49): the operand bits the form uses, and the form, by minor. -/
def decTileLatch (g : Guard) (w w1 : Word) : Nat → Option Form
  | 0 => some ⟨0xFFFFC0000000, 0x0, true, .tblatch g (bits w 45 3) (bits w 39 6) (bits w 33 6) (bits w 31 2) (bit w 30)⟩
  | _ => none

/-- The form of a word, by major (R49). `none`: no form has this major and minor. -/
def formOf (w w1 : Word) : Option Form :=
  let g : Guard := ⟨bit w 57, bits w 54 3⟩
  let mn := (bits w 48 6).toNat
  match (bits w 58 6).toNat with
  | 0x01 => decAlu g w mn
  | 0x02 => decAluImm g w mn
  | 0x03 => decMove g w mn
  | 0x04 => decPred g w mn
  | 0x05 => decBranch g w mn
  | 0x06 => decSegment g w mn
  | 0x07 => decSystem g w mn
  | 0x08 => decScalarMem g w mn
  | 0x09 => decVectorMem g w mn
  | 0x0A => decPage g w mn
  | 0x0B => decAsync g w mn
  | 0x0C => decAtomic g w mn
  | 0x0D => decSync g w mn
  | 0x0E => decCalendar g w mn
  | 0x0F => decQueue g w mn
  | 0x10 => decVecFp g w mn
  | 0x11 => decVecInt g w mn
  | 0x12 => decVecCmp g w mn
  | 0x13 => decVecPerm g w mn
  | 0x14 => decVecConv g w mn
  | 0x18 => decStream g w mn
  | 0x19 => decAttention g w mn
  | 0x1A => decGeneration g w mn
  | 0x1B => decMessage g w mn
  | 0x1F => decTileShort g w mn
  | 0x30 => decTileMul g w w1 mn
  | 0x31 => decTileDrain g w w1 mn
  | 0x32 => decTileLatch g w w1 mn
  | _ => none

/-- Whether a word of this major begins a tile command word (R47): majors 0x30 to 0x37. -/
def isTcwMajor (w : Word) : Bool := (bits w 61 3) == 0b110

/-- Why a word is not an instruction (R42, R34), or why there is no word. -/
inductive DecodeError where
  /-- A bit the form does not use is set, or a field has a value the form does not take. -/
  | reservedField
  /-- A register field names a register outside its file. -/
  | register
  /-- The bytes end before the instruction does. -/
  | short
deriving DecidableEq, Repr

/-- Decode one word, given words 1 to 3 of a tile command word (zero for other words). A word that
matches no form is the row ILLEGAL_WORD (R49). -/
def decodeWords (w w1 w2 w3 : Word) : Except DecodeError Instr :=
  match formOf w w1 with
  | none => .ok (.illegalWord w)
  | some f =>
    if bits w 0 48 &&& ~~~ f.used ≠ 0 ∨ bits w1 0 58 &&& ~~~ f.used1 ≠ 0
        ∨ bits w1 58 6 ≠ 0 ∨ w2 ≠ 0 ∨ w3 ≠ 0 ∨ f.fixed = false
        ∨ reservedBad f.instr = true then .error .reservedField
    else if registerBad f.instr then .error .register
    else .ok f.instr

/-- Eight bytes as a little-endian word (R6). -/
def leWord : List Byte → Option (Word × List Byte)
  | b0 :: b1 :: b2 :: b3 :: b4 :: b5 :: b6 :: b7 :: r =>
    some (b7 ++ b6 ++ b5 ++ b4 ++ b3 ++ b2 ++ b1 ++ b0, r)
  | _ => none

/-- The eight bytes of a word, lowest address first (R6). -/
def wordBytes (w : Word) : List Byte :=
  [bits w 0 8, bits w 8 8, bits w 16 8, bits w 24 8, bits w 32 8, bits w 40 8, bits w 48 8, bits w 56 8]

/-- Decode the instruction at the head of a list of bytes: 8 bytes, or 32 for a tile command word. -/
def decode (bs : List Byte) : Except DecodeError (Instr × List Byte) :=
  match leWord bs with
  | none => .error .short
  | some (w, r) =>
    if isTcwMajor w ∧ (formOf w 0).isSome then
      match leWord r with
      | none => .error .short
      | some (w1, r1) =>
        match leWord r1 with
        | none => .error .short
        | some (w2, r2) =>
          match leWord r2 with
          | none => .error .short
          | some (w3, r3) => (decodeWords w w1 w2 w3).map (·, r3)
    else (decodeWords w 0 0 0).map (·, r)

/-- A field placed at bit `lo` of a word. -/
def put {n : Nat} (lo : Nat) (x : BitVec n) : Word := (x.setWidth 64) <<< lo

/-- Bits [63:48] of word 0 (R40). -/
def hd (maj mn : Nat) (g : Guard) : Word :=
  put 58 (BitVec.ofNat 6 maj) ||| put 57 (b2b g.neg) ||| put 54 g.p ||| put 48 (BitVec.ofNat 6 mn)

/-- The words of an instruction (R40, R43, R47), first word first. An event has no words. -/
def encode : Instr → List Word
  | .add g d a b =>
    [hd 1 0 g ||| put 42 d ||| put 36 a ||| put 30 b]
  | .sub g d a b =>
    [hd 1 1 g ||| put 42 d ||| put 36 a ||| put 30 b]
  | .mul g d a b =>
    [hd 1 2 g ||| put 42 d ||| put 36 a ||| put 30 b]
  | .mulh g d a b =>
    [hd 1 3 g ||| put 42 d ||| put 36 a ||| put 30 b]
  | .mulhs g d a b =>
    [hd 1 4 g ||| put 42 d ||| put 36 a ||| put 30 b]
  | .div g d a b =>
    [hd 1 5 g ||| put 42 d ||| put 36 a ||| put 30 b]
  | .divs g d a b =>
    [hd 1 6 g ||| put 42 d ||| put 36 a ||| put 30 b]
  | .rem g d a b =>
    [hd 1 7 g ||| put 42 d ||| put 36 a ||| put 30 b]
  | .rems g d a b =>
    [hd 1 8 g ||| put 42 d ||| put 36 a ||| put 30 b]
  | .and g d a b =>
    [hd 1 9 g ||| put 42 d ||| put 36 a ||| put 30 b]
  | .or g d a b =>
    [hd 1 10 g ||| put 42 d ||| put 36 a ||| put 30 b]
  | .xor g d a b =>
    [hd 1 11 g ||| put 42 d ||| put 36 a ||| put 30 b]
  | .andn g d a b =>
    [hd 1 12 g ||| put 42 d ||| put 36 a ||| put 30 b]
  | .orn g d a b =>
    [hd 1 13 g ||| put 42 d ||| put 36 a ||| put 30 b]
  | .shl g d a b =>
    [hd 1 14 g ||| put 42 d ||| put 36 a ||| put 30 b]
  | .shr g d a b =>
    [hd 1 15 g ||| put 42 d ||| put 36 a ||| put 30 b]
  | .sar g d a b =>
    [hd 1 16 g ||| put 42 d ||| put 36 a ||| put 30 b]
  | .rol g d a b =>
    [hd 1 17 g ||| put 42 d ||| put 36 a ||| put 30 b]
  | .min g d a b =>
    [hd 1 18 g ||| put 42 d ||| put 36 a ||| put 30 b]
  | .max g d a b =>
    [hd 1 19 g ||| put 42 d ||| put 36 a ||| put 30 b]
  | .mins g d a b =>
    [hd 1 20 g ||| put 42 d ||| put 36 a ||| put 30 b]
  | .maxs g d a b =>
    [hd 1 21 g ||| put 42 d ||| put 36 a ||| put 30 b]
  | .clz g d a =>
    [hd 1 22 g ||| put 42 d ||| put 36 a]
  | .ctz g d a =>
    [hd 1 23 g ||| put 42 d ||| put 36 a]
  | .popc g d a =>
    [hd 1 24 g ||| put 42 d ||| put 36 a]
  | .sel g d a b c =>
    [hd 1 25 g ||| put 42 d ||| put 36 a ||| put 30 b ||| put 24 c]
  | .bfx g d a pos lm1 s =>
    [hd 1 26 g ||| put 42 d ||| put 36 a ||| put 0 pos ||| put 6 lm1 ||| put 12 (b2b s)]
  | .bfi g d a b pos lm1 =>
    [hd 1 27 g ||| put 42 d ||| put 36 a ||| put 30 b ||| put 0 pos ||| put 6 lm1]
  | .lea g d a b sc =>
    [hd 1 28 g ||| put 42 d ||| put 36 a ||| put 30 b ||| put 0 sc]
  | .addsat g u d a b =>
    [hd 1 29 g ||| put 0 (b2b u) ||| put 42 d ||| put 36 a ||| put 30 b]
  | .addi g d a imm =>
    [hd 2 0 g ||| put 42 d ||| put 36 a ||| put 0 imm]
  | .muli g d a imm =>
    [hd 2 1 g ||| put 42 d ||| put 36 a ||| put 0 imm]
  | .andi g z d a imm =>
    [hd 2 2 g ||| put 32 (b2b z) ||| put 42 d ||| put 36 a ||| put 0 imm]
  | .ori g z d a imm =>
    [hd 2 3 g ||| put 32 (b2b z) ||| put 42 d ||| put 36 a ||| put 0 imm]
  | .xori g z d a imm =>
    [hd 2 4 g ||| put 32 (b2b z) ||| put 42 d ||| put 36 a ||| put 0 imm]
  | .shli g d a n =>
    [hd 2 5 g ||| put 42 d ||| put 36 a ||| put 0 n]
  | .shri g d a n =>
    [hd 2 6 g ||| put 42 d ||| put 36 a ||| put 0 n]
  | .sari g d a n =>
    [hd 2 7 g ||| put 42 d ||| put 36 a ||| put 0 n]
  | .roli g d a n =>
    [hd 2 8 g ||| put 42 d ||| put 36 a ||| put 0 n]
  | .mini g u d a imm =>
    [hd 2 9 g ||| put 32 (b2b u) ||| put 42 d ||| put 36 a ||| put 0 imm]
  | .maxi g u d a imm =>
    [hd 2 10 g ||| put 32 (b2b u) ||| put 42 d ||| put 36 a ||| put 0 imm]
  | .leai g d a sc imm =>
    [hd 2 11 g ||| put 42 d ||| put 36 a ||| put 32 sc ||| put 0 imm]
  | .movi g d imm =>
    [hd 3 0 g ||| put 42 d ||| put 0 imm]
  | .movhi g d imm =>
    [hd 3 1 g ||| put 42 d ||| put 0 imm]
  | .mov g d a =>
    [hd 3 2 g ||| put 42 d ||| put 36 a]
  | .ptog g d a =>
    [hd 3 3 g ||| put 42 d ||| put 36 a]
  | .ptogF g d =>
    [hd 3 3 g ||| put 42 d ||| put 0 (1 : BitVec 1)]
  | .gtop g d a =>
    [hd 3 4 g ||| put 42 d ||| put 36 a]
  | .gtopF g a =>
    [hd 3 4 g ||| put 36 a ||| put 0 (1 : BitVec 1)]
  | .rdtick g c d =>
    [hd 3 5 g ||| put 0 (b2b c) ||| put 42 d]
  | .rdtime g d =>
    [hd 3 6 g ||| put 42 d]
  | .rdid g d sel =>
    [hd 3 7 g ||| put 42 d ||| put 0 sel]
  | .cmp g cond comb pt a b pf =>
    [hd 4 0 g ||| put 0 cond ||| put 4 comb ||| put 42 pt ||| put 36 a ||| put 30 b ||| put 24 pf]
  | .cmpi g cond pf pt a imm =>
    [hd 4 1 g ||| put 32 cond ||| put 45 pf ||| put 42 pt ||| put 36 a ||| put 0 imm]
  | .pand g d a b =>
    [hd 4 2 g ||| put 42 d ||| put 36 a ||| put 30 b]
  | .por g d a b =>
    [hd 4 3 g ||| put 42 d ||| put 36 a ||| put 30 b]
  | .pxor g d a b =>
    [hd 4 4 g ||| put 42 d ||| put 36 a ||| put 30 b]
  | .pandn g d a b =>
    [hd 4 5 g ||| put 42 d ||| put 36 a ||| put 30 b]
  | .pset g vals mask =>
    [hd 4 6 g ||| put 8 vals ||| put 0 mask]
  | .b g off =>
    [hd 5 0 g ||| put 0 off]
  | .bl g link off =>
    [hd 5 1 g ||| put 42 link ||| put 0 off]
  | .br g t =>
    [hd 5 2 g ||| put 36 t]
  | .blr g link t =>
    [hd 5 3 g ||| put 42 link ||| put 36 t]
  | .loop g t off =>
    [hd 5 4 g ||| put 36 t ||| put 0 off]
  | .segend g a =>
    [hd 6 0 g ||| put 36 a]
  | .split g roam a =>
    [hd 6 1 g ||| put 0 (b2b roam) ||| put 36 a]
  | .exit g =>
    [hd 6 2 g]
  | .yield g a =>
    [hd 6 3 g ||| put 36 a]
  | .trap g a imm =>
    [hd 7 0 g ||| put 36 a ||| put 0 imm]
  | .brk g imm =>
    [hd 7 1 g ||| put 0 imm]
  | .syscall g a imm =>
    [hd 7 2 g ||| put 36 a ||| put 0 imm]
  | .ctlrd g d n =>
    [hd 7 3 g ||| put 42 d ||| put 0 n]
  | .ctlwr g n a =>
    [hd 7 4 g ||| put 0 n ||| put 36 a]
  | .resume g d a =>
    [hd 7 5 g ||| put 42 d ||| put 36 a]
  | .abort g t d a =>
    [hd 7 6 g ||| put 32 (b2b t) ||| put 42 d ||| put 36 a]
  | .whisk g tag =>
    [hd 7 7 g ||| put 0 tag]
  | .ld g data sz s o m =>
    [hd 8 0 g ||| put 42 data ||| put 24 sz ||| put 26 (b2b s) ||| put 27 (b2b o) ||| put 36 m.base ||| put 30 m.index ||| put 28 m.sh ||| put 0 m.disp]
  | .ldx g data sz s o m =>
    [hd 8 2 g ||| put 42 data ||| put 24 sz ||| put 26 (b2b s) ||| put 27 (b2b o) ||| put 36 m.base ||| put 30 m.index ||| put 28 m.sh ||| put 0 m.disp]
  | .st g data sz o m =>
    [hd 8 1 g ||| put 42 data ||| put 24 sz ||| put 27 (b2b o) ||| put 36 m.base ||| put 30 m.index ||| put 28 m.sh ||| put 0 m.disp]
  | .stx g data sz o m =>
    [hd 8 3 g ||| put 42 data ||| put 24 sz ||| put 27 (b2b o) ||| put 36 m.base ||| put 30 m.index ||| put 28 m.sh ||| put 0 m.disp]
  | .ldf g data m =>
    [hd 8 4 g ||| put 42 data ||| put 36 m.base ||| put 30 m.index ||| put 28 m.sh ||| put 0 m.disp ||| put 24 (3 : BitVec 2)]
  | .stf g data m =>
    [hd 8 5 g ||| put 42 data ||| put 36 m.base ||| put 30 m.index ||| put 28 m.sh ||| put 0 m.disp ||| put 24 (3 : BitVec 2)]
  | .clrf g f m =>
    [hd 8 6 g ||| put 26 (b2b f) ||| put 36 m.base ||| put 30 m.index ||| put 28 m.sh ||| put 0 m.disp ||| put 24 (3 : BitVec 2)]
  | .feq g data m =>
    [hd 8 7 g ||| put 42 data ||| put 36 m.base ||| put 30 m.index ||| put 28 m.sh ||| put 0 m.disp ||| put 24 (3 : BitVec 2)]
  | .vld g data o m =>
    [hd 9 0 g ||| put 42 data ||| put 27 (b2b o) ||| put 36 m.base ||| put 30 m.index ||| put 28 m.sh ||| put 0 m.disp]
  | .vst g data o m =>
    [hd 9 1 g ||| put 42 data ||| put 27 (b2b o) ||| put 36 m.base ||| put 30 m.index ||| put 28 m.sh ||| put 0 m.disp]
  | .vlds g data sz o m =>
    [hd 9 2 g ||| put 42 data ||| put 24 sz ||| put 27 (b2b o) ||| put 36 m.base ||| put 30 m.index ||| put 28 m.sh ||| put 0 m.disp]
  | .vsts g data sz o m =>
    [hd 9 3 g ||| put 42 data ||| put 24 sz ||| put 27 (b2b o) ||| put 36 m.base ||| put 30 m.index ||| put 28 m.sh ||| put 0 m.disp]
  | .vgath g data sz o m =>
    [hd 9 4 g ||| put 42 data ||| put 24 sz ||| put 27 (b2b o) ||| put 36 m.base ||| put 30 m.index ||| put 28 m.sh ||| put 0 m.disp]
  | .vscat g data sz o m =>
    [hd 9 5 g ||| put 42 data ||| put 24 sz ||| put 27 (b2b o) ||| put 36 m.base ||| put 30 m.index ||| put 28 m.sh ||| put 0 m.disp]
  | .vldb g data base gl mode disp =>
    [hd 9 6 g ||| put 42 data ||| put 36 base ||| put 30 gl ||| put 24 mode ||| put 0 disp]
  | .pgalloc g d a b c =>
    [hd 10 0 g ||| put 42 d ||| put 36 a ||| put 30 b ||| put 24 c]
  | .pgfree g d a c =>
    [hd 10 1 g ||| put 42 d ||| put 36 a ||| put 24 c]
  | .pgref g d a b c =>
    [hd 10 2 g ||| put 42 d ||| put 36 a ||| put 30 b ||| put 24 c]
  | .pgcow g d a b c =>
    [hd 10 3 g ||| put 42 d ||| put 36 a ||| put 30 b ||| put 24 c]
  | .pgset g d a b c sel =>
    [hd 10 4 g ||| put 42 d ||| put 36 a ||| put 30 b ||| put 24 c ||| put 0 sel]
  | .pgget g d a c sel =>
    [hd 10 5 g ||| put 42 d ||| put 36 a ||| put 24 c ||| put 0 sel]
  | .pgpin g d a c =>
    [hd 10 6 g ||| put 42 d ||| put 36 a ||| put 24 c]
  | .pgunpin g d a c =>
    [hd 10 7 g ||| put 42 d ||| put 36 a ||| put 24 c]
  | .pgspill g d a c =>
    [hd 10 8 g ||| put 42 d ||| put 36 a ||| put 24 c]
  | .pgfill g d a c =>
    [hd 10 9 g ||| put 42 d ||| put 36 a ||| put 24 c]
  | .pgmap g d a b c pte =>
    [hd 10 10 g ||| put 42 d ||| put 36 a ||| put 30 b ||| put 24 c ||| put 1 pte]
  | .pgunmap g d a c =>
    [hd 10 11 g ||| put 42 d ||| put 36 a ||| put 24 c]
  | .cpy g ch f sc d a b c =>
    [hd 11 0 g ||| put 0 ch ||| put 2 (b2b f) ||| put 3 sc ||| put 42 d ||| put 36 a ||| put 30 b ||| put 24 c]
  | .cpy2d g ch f sc d a b c =>
    [hd 11 1 g ||| put 0 ch ||| put 2 (b2b f) ||| put 3 sc ||| put 42 d ||| put 36 a ||| put 30 b ||| put 24 c]
  | .gath g ch f sc d a b c =>
    [hd 11 2 g ||| put 0 ch ||| put 2 (b2b f) ||| put 3 sc ||| put 42 d ||| put 36 a ||| put 30 b ||| put 24 c]
  | .scat g ch f sc d a b c =>
    [hd 11 3 g ||| put 0 ch ||| put 2 (b2b f) ||| put 3 sc ||| put 42 d ||| put 36 a ||| put 30 b ||| put 24 c]
  | .fld g ch sc sz s d a c =>
    [hd 11 4 g ||| put 0 ch ||| put 3 sc ||| put 6 sz ||| put 9 (b2b s) ||| put 42 d ||| put 36 a ||| put 24 c]
  | .fst g ch f sc sz a b c =>
    [hd 11 5 g ||| put 0 ch ||| put 2 (b2b f) ||| put 3 sc ||| put 6 sz ||| put 36 a ||| put 30 b ||| put 24 c]
  | .waitc g c n =>
    [hd 11 6 g ||| put 24 c ||| put 0 n]
  | .ctrget g d c =>
    [hd 11 7 g ||| put 42 d ||| put 24 c]
  | .aadd g data base ctr sz o disp =>
    [hd 12 0 g ||| put 42 data ||| put 36 base ||| put 28 ctr ||| put 24 sz ||| put 27 (b2b o) ||| put 0 disp]
  | .afadd g data base ctr sz o disp =>
    [hd 12 1 g ||| put 42 data ||| put 36 base ||| put 28 ctr ||| put 24 sz ||| put 27 (b2b o) ||| put 0 disp]
  | .amin g data base ctr sz o disp =>
    [hd 12 2 g ||| put 42 data ||| put 36 base ||| put 28 ctr ||| put 24 sz ||| put 27 (b2b o) ||| put 0 disp]
  | .amax g data base ctr sz o disp =>
    [hd 12 3 g ||| put 42 data ||| put 36 base ||| put 28 ctr ||| put 24 sz ||| put 27 (b2b o) ||| put 0 disp]
  | .aand g data base ctr sz o disp =>
    [hd 12 4 g ||| put 42 data ||| put 36 base ||| put 28 ctr ||| put 24 sz ||| put 27 (b2b o) ||| put 0 disp]
  | .aor g data base ctr sz o disp =>
    [hd 12 5 g ||| put 42 data ||| put 36 base ||| put 28 ctr ||| put 24 sz ||| put 27 (b2b o) ||| put 0 disp]
  | .axor g data base ctr sz o disp =>
    [hd 12 6 g ||| put 42 data ||| put 36 base ||| put 28 ctr ||| put 24 sz ||| put 27 (b2b o) ||| put 0 disp]
  | .aswp g data base ctr sz o disp =>
    [hd 12 7 g ||| put 42 data ||| put 36 base ||| put 28 ctr ||| put 24 sz ||| put 27 (b2b o) ||| put 0 disp]
  | .acas g data base ctr sz o disp =>
    [hd 12 8 g ||| put 42 data ||| put 36 base ||| put 28 ctr ||| put 24 sz ||| put 27 (b2b o) ||| put 0 disp]
  | .fence g kind scope =>
    [hd 13 0 g ||| put 3 kind ||| put 0 scope]
  | .bar g d a =>
    [hd 13 1 g ||| put 42 d ||| put 36 a]
  | .phase g d a =>
    [hd 13 2 g ||| put 42 d ||| put 36 a]
  | .domset g d a b c =>
    [hd 13 3 g ||| put 42 d ||| put 36 a ||| put 30 b ||| put 24 c]
  | .domget g d a c sel =>
    [hd 13 4 g ||| put 42 d ||| put 36 a ||| put 24 c ||| put 0 sel]
  | .book g rel d a =>
    [hd 14 0 g ||| put 32 (b2b rel) ||| put 42 d ||| put 36 a]
  | .calrel g rel d a =>
    [hd 14 1 g ||| put 32 (b2b rel) ||| put 42 d ||| put 36 a]
  | .calq g own rel d a res =>
    [hd 14 2 g ||| put 32 (b2b own) ||| put 33 (b2b rel) ||| put 42 d ||| put 36 a ||| put 0 res]
  | .gang g a q =>
    [hd 14 3 g ||| put 36 a ||| put 0 q]
  | .launch g d a b c =>
    [hd 15 0 g ||| put 42 d ||| put 36 a ||| put 30 b ||| put 24 c]
  | .qpush g a q =>
    [hd 15 1 g ||| put 36 a ||| put 0 q]
  | .qstat g d q =>
    [hd 15 2 g ||| put 42 d ||| put 0 q]
  | .qcfg g w d a q =>
    [hd 15 3 g ||| put 4 (b2b w) ||| put 42 d ||| put 36 a ||| put 0 q]
  | .pipebind g u d a =>
    [hd 15 4 g ||| put 0 (b2b u) ||| put 42 d ||| put 36 a]
  | .vadd g d a b t rm k z gb =>
    [hd 16 0 g ||| put 42 d ||| put 36 a ||| put 30 b ||| put 0 t ||| put 3 rm ||| put 6 k ||| put 9 (b2b z) ||| put 11 (b2b gb)]
  | .vsub g d a b t rm k z gb =>
    [hd 16 1 g ||| put 42 d ||| put 36 a ||| put 30 b ||| put 0 t ||| put 3 rm ||| put 6 k ||| put 9 (b2b z) ||| put 11 (b2b gb)]
  | .vmul g d a b t rm k z gb =>
    [hd 16 2 g ||| put 42 d ||| put 36 a ||| put 30 b ||| put 0 t ||| put 3 rm ||| put 6 k ||| put 9 (b2b z) ||| put 11 (b2b gb)]
  | .vfma g d a b c t rm k z gb =>
    [hd 16 3 g ||| put 42 d ||| put 36 a ||| put 30 b ||| put 24 c ||| put 0 t ||| put 3 rm ||| put 6 k ||| put 9 (b2b z) ||| put 11 (b2b gb)]
  | .vfms g d a b c t rm k z gb =>
    [hd 16 4 g ||| put 42 d ||| put 36 a ||| put 30 b ||| put 24 c ||| put 0 t ||| put 3 rm ||| put 6 k ||| put 9 (b2b z) ||| put 11 (b2b gb)]
  | .vfnma g d a b c t rm k z gb =>
    [hd 16 5 g ||| put 42 d ||| put 36 a ||| put 30 b ||| put 24 c ||| put 0 t ||| put 3 rm ||| put 6 k ||| put 9 (b2b z) ||| put 11 (b2b gb)]
  | .vmin g d a b t k z gb =>
    [hd 16 6 g ||| put 42 d ||| put 36 a ||| put 30 b ||| put 0 t ||| put 6 k ||| put 9 (b2b z) ||| put 11 (b2b gb)]
  | .vmax g d a b t k z gb =>
    [hd 16 7 g ||| put 42 d ||| put 36 a ||| put 30 b ||| put 0 t ||| put 6 k ||| put 9 (b2b z) ||| put 11 (b2b gb)]
  | .vabs g d a t k z =>
    [hd 16 8 g ||| put 42 d ||| put 36 a ||| put 0 t ||| put 6 k ||| put 9 (b2b z)]
  | .vneg g d a t k z =>
    [hd 16 9 g ||| put 42 d ||| put 36 a ||| put 0 t ||| put 6 k ||| put 9 (b2b z)]
  | .vdiv g d a b t rm k z gb =>
    [hd 16 10 g ||| put 42 d ||| put 36 a ||| put 30 b ||| put 0 t ||| put 3 rm ||| put 6 k ||| put 9 (b2b z) ||| put 11 (b2b gb)]
  | .vsqrt g d a t rm k z =>
    [hd 16 11 g ||| put 42 d ||| put 36 a ||| put 0 t ||| put 3 rm ||| put 6 k ||| put 9 (b2b z)]
  | .vrcp g d a t rm k z =>
    [hd 16 12 g ||| put 42 d ||| put 36 a ||| put 0 t ||| put 3 rm ||| put 6 k ||| put 9 (b2b z)]
  | .vrsq g d a t rm k z =>
    [hd 16 13 g ||| put 42 d ||| put 36 a ||| put 0 t ||| put 3 rm ||| put 6 k ||| put 9 (b2b z)]
  | .vexp2 g d a t rm k z =>
    [hd 16 14 g ||| put 42 d ||| put 36 a ||| put 0 t ||| put 3 rm ||| put 6 k ||| put 9 (b2b z)]
  | .vlog2 g d a t rm k z =>
    [hd 16 15 g ||| put 42 d ||| put 36 a ||| put 0 t ||| put 3 rm ||| put 6 k ||| put 9 (b2b z)]
  | .vtanh g d a t rm k z =>
    [hd 16 16 g ||| put 42 d ||| put 36 a ||| put 0 t ||| put 3 rm ||| put 6 k ||| put 9 (b2b z)]
  | .vclass g d a t k z =>
    [hd 16 17 g ||| put 42 d ||| put 36 a ||| put 0 t ||| put 6 k ||| put 9 (b2b z)]
  | .viadd g d a b t k z gb =>
    [hd 17 0 g ||| put 42 d ||| put 36 a ||| put 30 b ||| put 0 t ||| put 6 k ||| put 9 (b2b z) ||| put 11 (b2b gb)]
  | .visub g d a b t k z gb =>
    [hd 17 1 g ||| put 42 d ||| put 36 a ||| put 30 b ||| put 0 t ||| put 6 k ||| put 9 (b2b z) ||| put 11 (b2b gb)]
  | .vimul g d a b t k z gb =>
    [hd 17 2 g ||| put 42 d ||| put 36 a ||| put 30 b ||| put 0 t ||| put 6 k ||| put 9 (b2b z) ||| put 11 (b2b gb)]
  | .vimulh g d a b t k z u gb =>
    [hd 17 3 g ||| put 42 d ||| put 36 a ||| put 30 b ||| put 0 t ||| put 6 k ||| put 9 (b2b z) ||| put 10 (b2b u) ||| put 11 (b2b gb)]
  | .vishl g d a b t k z gb =>
    [hd 17 4 g ||| put 42 d ||| put 36 a ||| put 30 b ||| put 0 t ||| put 6 k ||| put 9 (b2b z) ||| put 11 (b2b gb)]
  | .vishr g d a b t k z gb =>
    [hd 17 5 g ||| put 42 d ||| put 36 a ||| put 30 b ||| put 0 t ||| put 6 k ||| put 9 (b2b z) ||| put 11 (b2b gb)]
  | .visar g d a b t k z gb =>
    [hd 17 6 g ||| put 42 d ||| put 36 a ||| put 30 b ||| put 0 t ||| put 6 k ||| put 9 (b2b z) ||| put 11 (b2b gb)]
  | .vand g d a b t k z gb =>
    [hd 17 7 g ||| put 42 d ||| put 36 a ||| put 30 b ||| put 0 t ||| put 6 k ||| put 9 (b2b z) ||| put 11 (b2b gb)]
  | .vor g d a b t k z gb =>
    [hd 17 8 g ||| put 42 d ||| put 36 a ||| put 30 b ||| put 0 t ||| put 6 k ||| put 9 (b2b z) ||| put 11 (b2b gb)]
  | .vxor g d a b t k z gb =>
    [hd 17 9 g ||| put 42 d ||| put 36 a ||| put 30 b ||| put 0 t ||| put 6 k ||| put 9 (b2b z) ||| put 11 (b2b gb)]
  | .vimin g d a b t k z u gb =>
    [hd 17 10 g ||| put 42 d ||| put 36 a ||| put 30 b ||| put 0 t ||| put 6 k ||| put 9 (b2b z) ||| put 10 (b2b u) ||| put 11 (b2b gb)]
  | .vimax g d a b t k z u gb =>
    [hd 17 11 g ||| put 42 d ||| put 36 a ||| put 30 b ||| put 0 t ||| put 6 k ||| put 9 (b2b z) ||| put 10 (b2b u) ||| put 11 (b2b gb)]
  | .viabs g d a t k z =>
    [hd 17 12 g ||| put 42 d ||| put 36 a ||| put 0 t ||| put 6 k ||| put 9 (b2b z)]
  | .viaddsat g d a b t k z u gb =>
    [hd 17 13 g ||| put 42 d ||| put 36 a ||| put 30 b ||| put 0 t ||| put 6 k ||| put 9 (b2b z) ||| put 10 (b2b u) ||| put 11 (b2b gb)]
  | .vcmp g mt a b mf t k gb cond =>
    [hd 18 0 g ||| put 42 mt ||| put 36 a ||| put 30 b ||| put 24 mf ||| put 0 t ||| put 6 k ||| put 11 (b2b gb) ||| put 12 cond]
  | .vsel g d a b t k =>
    [hd 18 1 g ||| put 42 d ||| put 36 a ||| put 30 b ||| put 0 t ||| put 6 k]
  | .mand g d a b =>
    [hd 18 2 g ||| put 42 d ||| put 36 a ||| put 30 b]
  | .mor g d a b =>
    [hd 18 3 g ||| put 42 d ||| put 36 a ||| put 30 b]
  | .mxor g d a b =>
    [hd 18 4 g ||| put 42 d ||| put 36 a ||| put 30 b]
  | .mnot g d a =>
    [hd 18 5 g ||| put 42 d ||| put 36 a]
  | .mcnt g d a t =>
    [hd 18 6 g ||| put 42 d ||| put 36 a ||| put 0 t]
  | .mfirst g d a t =>
    [hd 18 7 g ||| put 42 d ||| put 36 a ||| put 0 t]
  | .vperm g d a b t k z =>
    [hd 19 0 g ||| put 42 d ||| put 36 a ||| put 30 b ||| put 0 t ||| put 6 k ||| put 9 (b2b z)]
  | .vshuf g d a b t k z pat =>
    [hd 19 1 g ||| put 42 d ||| put 36 a ||| put 30 b ||| put 0 t ||| put 6 k ||| put 9 (b2b z) ||| put 12 pat]
  | .vrot g d a b t k z =>
    [hd 19 2 g ||| put 42 d ||| put 36 a ||| put 30 b ||| put 0 t ||| put 6 k ||| put 9 (b2b z)]
  | .vbcast g d a t k z =>
    [hd 19 3 g ||| put 42 d ||| put 36 a ||| put 0 t ||| put 6 k ||| put 9 (b2b z)]
  | .vextr g d a b t u =>
    [hd 19 4 g ||| put 42 d ||| put 36 a ||| put 30 b ||| put 0 t ||| put 10 (b2b u) ||| put 6 (7 : BitVec 3)]
  | .vins g d a b t =>
    [hd 19 5 g ||| put 42 d ||| put 36 a ||| put 30 b ||| put 0 t ||| put 6 (7 : BitVec 3)]
  | .vred g d a t rm k op =>
    [hd 19 6 g ||| put 42 d ||| put 36 a ||| put 0 t ||| put 3 rm ||| put 6 k ||| put 12 op]
  | .vscan g d a t rm k z op =>
    [hd 19 7 g ||| put 42 d ||| put 36 a ||| put 0 t ||| put 3 rm ||| put 6 k ||| put 9 (b2b z) ||| put 12 op]
  | .vdot g d a b c t rm k z u =>
    [hd 19 8 g ||| put 42 d ||| put 36 a ||| put 30 b ||| put 24 c ||| put 0 t ||| put 3 rm ||| put 6 k ||| put 9 (b2b z) ||| put 10 (b2b u)]
  | .vcvt g d a c td rm k z u ts part sat =>
    [hd 20 0 g ||| put 42 d ||| put 36 a ||| put 24 c ||| put 0 td ||| put 3 rm ||| put 6 k ||| put 9 (b2b z) ||| put 10 (b2b u) ||| put 16 ts ||| put 19 part ||| put 22 (b2b sat)]
  | .vpack g d a b c rm k z fmt kind slot sat =>
    [hd 20 1 g ||| put 42 d ||| put 36 a ||| put 30 b ||| put 24 c ||| put 3 rm ||| put 6 k ||| put 9 (b2b z) ||| put 12 fmt ||| put 16 kind ||| put 18 slot ||| put 22 (b2b sat) ||| put 0 (4 : BitVec 3)]
  | .vunpk g d a b k z fmt kind slot =>
    [hd 20 2 g ||| put 42 d ||| put 36 a ||| put 30 b ||| put 6 k ||| put 9 (b2b z) ||| put 12 fmt ||| put 16 kind ||| put 18 slot ||| put 0 (4 : BitVec 3)]
  | .vqscale g d a b k fmt kind out =>
    [hd 20 3 g ||| put 42 d ||| put 36 a ||| put 30 b ||| put 6 k ||| put 12 fmt ||| put 16 kind ||| put 22 out ||| put 0 (4 : BitVec 3)]
  | .vrand g d a b c t k z =>
    [hd 20 4 g ||| put 42 d ||| put 36 a ||| put 30 b ||| put 24 c ||| put 0 t ||| put 6 k ||| put 9 (b2b z)]
  | .sfork g s d a b pt =>
    [hd 24 0 g ||| put 0 (b2b s) ||| put 42 d ||| put 36 a ||| put 30 b ||| put 24 pt]
  | .sjoin g w d a b c =>
    [hd 24 1 g ||| put 0 (b2b w) ||| put 42 d ||| put 36 a ||| put 30 b ||| put 24 c]
  | .sprune g d a c =>
    [hd 24 2 g ||| put 42 d ||| put 36 a ||| put 24 c]
  | .sact g d a b c =>
    [hd 24 3 g ||| put 42 d ||| put 36 a ||| put 30 b ||| put 24 c]
  | .sactp g d a b c =>
    [hd 24 4 g ||| put 42 d ||| put 36 a ||| put 30 b ||| put 24 c]
  | .shor g adj d a b c =>
    [hd 24 5 g ||| put 0 (b2b adj) ||| put 42 d ||| put 36 a ||| put 30 b ||| put 24 c]
  | .sstep g d a b c =>
    [hd 24 6 g ||| put 42 d ||| put 36 a ||| put 30 b ||| put 24 c]
  | .sstepB g d a c =>
    [hd 24 6 g ||| put 42 d ||| put 36 a ||| put 24 c ||| put 0 (1 : BitVec 1)]
  | .ssnap g d a b c =>
    [hd 24 7 g ||| put 42 d ||| put 36 a ||| put 30 b ||| put 24 c]
  | .spin g d a c =>
    [hd 24 8 g ||| put 42 d ||| put 36 a ||| put 24 c]
  | .spinU g d a c =>
    [hd 24 8 g ||| put 42 d ||| put 36 a ||| put 24 c ||| put 0 (1 : BitVec 1)]
  | .sget g d a c sel =>
    [hd 24 9 g ||| put 42 d ||| put 36 a ||| put 24 c ||| put 0 sel]
  | .sset g d a b c sel =>
    [hd 24 10 g ||| put 42 d ||| put 36 a ||| put 30 b ||| put 24 c ||| put 0 sel]
  | .ssetC g d a c =>
    [hd 24 10 g ||| put 42 d ||| put 36 a ||| put 24 c ||| put 4 (1 : BitVec 1)]
  | .kvapp g ch sc d a c =>
    [hd 25 0 g ||| put 0 ch ||| put 3 sc ||| put 42 d ||| put 36 a ||| put 24 c]
  | .kvsplice g d a b c =>
    [hd 25 1 g ||| put 42 d ||| put 36 a ||| put 30 b ||| put 24 c]
  | .kvspliceS g d a b c =>
    [hd 25 1 g ||| put 42 d ||| put 36 a ||| put 30 b ||| put 24 c ||| put 0 (1 : BitVec 1)]
  | .kvtrim g d a b c =>
    [hd 25 2 g ||| put 42 d ||| put 36 a ||| put 30 b ||| put 24 c]
  | .attd g sc a c =>
    [hd 25 3 g ||| put 3 sc ||| put 36 a ||| put 24 c]
  | .attmS g d a b =>
    [hd 25 4 g ||| put 42 d ||| put 36 a ||| put 30 b]
  | .attmV g d a b c k z =>
    [hd 25 4 g ||| put 42 d ||| put 36 a ||| put 30 b ||| put 24 c ||| put 6 k ||| put 9 (b2b z) ||| put 0 (1 : BitVec 1)]
  | .rampset g p d a b c =>
    [hd 25 5 g ||| put 0 (b2b p) ||| put 42 d ||| put 36 a ||| put 30 b ||| put 24 c]
  | .vrope g d a b c k z split y =>
    [hd 25 6 g ||| put 42 d ||| put 36 a ||| put 30 b ||| put 24 c ||| put 6 k ||| put 9 (b2b z) ||| put 12 (b2b split) ||| put 13 (b2b y) ||| put 0 (4 : BitVec 3)]
  | .lfilt g sc a c =>
    [hd 26 0 g ||| put 3 sc ||| put 36 a ||| put 24 c]
  | .sample g d a b c =>
    [hd 26 1 g ||| put 42 d ||| put 36 a ||| put 30 b ||| put 24 c]
  | .accept g d a b =>
    [hd 26 2 g ||| put 42 d ||| put 36 a ||| put 30 b]
  | .commit g d a b c =>
    [hd 26 3 g ||| put 42 d ||| put 36 a ||| put 30 b ||| put 24 c]
  | .dqsend g a b c =>
    [hd 26 4 g ||| put 36 a ||| put 30 b ||| put 24 c]
  | .dqrecv g d a b =>
    [hd 26 5 g ||| put 42 d ||| put 36 a ||| put 30 b]
  | .msend g sc d a b c =>
    [hd 27 0 g ||| put 3 sc ||| put 42 d ||| put 36 a ||| put 30 b ||| put 24 c]
  | .mrecv g t d a b =>
    [hd 27 1 g ||| put 0 (b2b t) ||| put 42 d ||| put 36 a ||| put 30 b]
  | .coll g d a c =>
    [hd 27 2 g ||| put 42 d ||| put 36 a ||| put 24 c]
  | .redm g op ch sc d a b c =>
    [hd 27 3 g ||| put 6 op ||| put 0 ch ||| put 3 sc ||| put 42 d ||| put 36 a ||| put 30 b ||| put 24 c]
  | .tzero g a =>
    [hd 31 0 g ||| put 36 a]
  | .tcommit g d =>
    [hd 31 1 g ||| put 42 d]
  | .twait g a =>
    [hd 31 2 g ||| put 36 a]
  | .taccrd g d a row half =>
    [hd 31 3 g ||| put 42 d ||| put 36 a ||| put 0 row ||| put 6 (b2b half)]
  | .taccrdR g d a b =>
    [hd 31 3 g ||| put 42 d ||| put 36 a ||| put 30 b ||| put 7 (1 : BitVec 1)]
  | .tmma g acc ga gb la lb slice mr nc kd =>
    [hd 48 0 g ||| put 45 acc ||| put 39 ga ||| put 33 gb ||| put 31 la ||| put 29 lb ||| put 26 slice,
      put 0 mr ||| put 7 nc ||| put 14 kd, 0, 0]
  | .tmmat g acc ga gb la lb slice mr nc kd =>
    [hd 48 1 g ||| put 45 acc ||| put 39 ga ||| put 33 gb ||| put 31 la ||| put 29 lb ||| put 26 slice,
      put 0 mr ||| put 7 nc ||| put 14 kd, 0, 0]
  | .tmmbt g acc ga gb la lb slice mr nc kd =>
    [hd 48 2 g ||| put 45 acc ||| put 39 ga ||| put 33 gb ||| put 31 la ||| put 29 lb ||| put 26 slice,
      put 0 mr ||| put 7 nc ||| put 14 kd, 0, 0]
  | .tmmring g acc ga la slice mr nc kd =>
    [hd 48 3 g ||| put 45 acc ||| put 39 ga ||| put 31 la ||| put 26 slice,
      put 0 mr ||| put 7 nc ||| put 14 kd, 0, 0]
  | .tdrain g acc gt lt rm sat mr nc gseed gcoord =>
    [hd 49 0 g ||| put 45 acc ||| put 39 gt ||| put 37 lt ||| put 34 rm ||| put 33 (b2b sat),
      put 0 mr ||| put 7 nc ||| put 34 gseed ||| put 46 gcoord, 0, 0]
  | .tdrainx g acc gt lt rm sat act sc bi rs dp mr nc gs gbias gres lres gseed gdrop gcoord =>
    [hd 49 1 g ||| put 45 acc ||| put 39 gt ||| put 37 lt ||| put 34 rm ||| put 33 (b2b sat) ||| put 31 act ||| put 30 (b2b sc) ||| put 29 (b2b bi) ||| put 28 (b2b rs) ||| put 27 (b2b dp),
      put 0 mr ||| put 7 nc ||| put 14 gs ||| put 20 gbias ||| put 26 gres ||| put 32 lres ||| put 34 gseed ||| put 40 gdrop ||| put 46 gcoord, 0, 0]
  | .tblatch g src ga gd lb tr =>
    [hd 50 0 g ||| put 45 src ||| put 39 ga ||| put 33 gd ||| put 31 lb ||| put 30 (b2b tr),
      0, 0, 0]
  | .illegalWord w => [w]
  | .deviceReset => []
  | .bootStage => []
  | .tickBoundary => []
  | .headUrgent => []
  | .farWorkDone => []
  | .localCopy => []
  | .icacheBlockLoad => []
  | .segmentStart => []
  | .overrun => []
  | .continuationRecordComplete => []
  | .continuationQueued => []
  | .watchTimeout => []
  | .yieldTimeExpiry => []
  | .gangRoundEnd => []
  | .gangNextRound => []
  | .spillWindow => []
  | .idleExpiry => []
  | .evictionAdmit => []
  | .batchClose => []
  | .streamSequencePoint => []
  | .joinReduction => []
  | .snapshotTransferDone => []
  | .pendingSlotDrain => []
  | .channelUnit => []
  | .walkerOpComplete => []
  | .kvappToken => []
  | .attdPage => []
  | .lfiltPass => []
  | .redmUnit => []
  | .collHop => []
  | .collComplete => []
  | .launchArrival => []
  | .msendDelivery => []
  | .farAtomicPerform => []
  | .replWriteSequence => []
  | .dqsendSequenced => []
  | .dqEntryArrive => []
  | .ringDelivery => []
  | .domainArrival => []
  | .phaseSweep => []
  | .domainCompletion => []
  | .rampsetComplete => []
  | .tileCommandStart => []
  | .tileBatchCommit => []
  | .deferredEccFault => []
  | .faultEventEnqueue => []
  | .faultRequestProcessed => []
  | .preemptRequest => []
  | .preemptSave => []
  | .whiskFire => []
  | .whiskTriggerEvent => []
  | .whiskLatch => []
  | .activeMessage => []
  | .timedActiveMessage => []
  | .hostRegisterWrite => []
  | .semaAcquire => []
  | .semaRelease => []
  | .hostLinkDown => []
  | .linkRetrain => []
  | .partCreate => []
  | .partDestroy => []
  | .partSwitch => []
  | .partQuota => []
  | .partMap => []
  | .fwWindowWrite => []
  | .fwVerifyCommit => []
  | .fwDiscard => []
  | .attestation => []
  | .timeStep => []
  | .ppsEdge => []
  | .dieReset => []
  | .thermalLimit => []
  | .powerOffTrip => []
  | .eccScrub => []
  | .packetDiscard => []
  | .calStatRead => []
  | .fltLostRead => []
  | .amLogRead => []
  | .snapStatRead => []
  | .eccCeRead => []
  | .tenDropRead => []
  | .hostSemaRead => []
  | .partCmdDone => []
  | .fwCmdDone => []
  | .attReportDone => []
  | .domainRequestAtHome => []
  | .collLayoutCheck => []
  | .completionTimeout => []

/-- The bytes of an instruction in memory order. -/
def encodeBytes (i : Instr) : List Byte := (encode i).flatMap wordBytes

/-- The `n` low bytes of a number, lowest first. -/
def natBytes : Nat → Nat → List Byte
  | 0, _ => []
  | n + 1, w => BitVec.ofNat 8 w :: natBytes n (w / 256)

/-- The instruction the decoder reads from an instruction whose bits are `w`, numbered as
spec/opcode_table.json numbers them: bit 0 is the least significant bit of the first word. Bits above
`nbits` are zero, up to the longest instruction (a tile command word of 32 bytes, R47). -/
def decodeTableWord (nbits w : Nat) : Option Instr :=
  match decode (natBytes 32 (w % 2 ^ nbits)) with
  | .ok (i, _) => some i
  | .error _ => none

end Sys2Proof
end

