-- ==== Sys2Proof/Config.lean ====
section
/-! DEFINITION. What an implementation fixes and the spec does not: the free values. None has a body, so no proof can
see one (log 4, log 8). -/

namespace Sys2Proof.Config

/-- A free number for use `n`: the choice among steps whose order or duration the spec leaves open (R183, R202, R310,
R342, R349, R374, R396), a free frame, record or cache entry (log 4). -/
opaque freeNat : Nat → Nat

/-- A free word for use `n`: a value the spec does not state. -/
opaque freeWord : Nat → BitVec 64

/-- Whether an ML-DSA-65 signature over the bytes verifies against the fused firmware key (R432, R433). -/
opaque signatureOk : List (BitVec 8) → List (BitVec 8) → Bool

/-- The ML-DSA-65 signature of an attestation report by the device's identity key (R434). -/
opaque attestSign : List (BitVec 8) → List (BitVec 8)

/-- The part number as an attestation report holds it (R434). -/
opaque partNumber : List (BitVec 8)

/-- The device serial number (R434). -/
opaque serial : List (BitVec 8)

/-- FW_MIN.MINVER, fused (R433). -/
opaque minVersion : BitVec 32

/-- The boot ROM's firmware stages as stored at manufacture (R432). -/
opaque bootStages : List (List (BitVec 8))

/-- The package's torus coordinates TX, TY and TZ, four bits each (R25, R102). -/
opaque torus : BitVec 12

/-- The entry E that system software gives the batch tasks of a model of a partition: the spec names no register that
holds it (R31, R331). -/
opaque batchEntry : Nat → Nat → BitVec 48

/-- The mesh port, 0 north, 1 east, 2 south, 3 west, through which a packet from one cluster of the package reaches another:
R430 orders the dimensions of a route, and names neither the first nor which way is north (log 88). -/
opaque meshPort : Nat → Nat → Fin 4

end Sys2Proof.Config
end

