-- ==== Sys2Proof/Machine/Mem.lean ====
section
/-! DEFINITION. Sparse tables, memory bytes and words, full-empty bits and soft errors, and the numbering of physical
memory (spec/01 R20, spec/06 R150, R164, spec/17 R435; log 1, log 2). -/

namespace Sys2Proof.Machine

/-! ### Sparse tables -/

/-- The entry under `k`, if any. -/
def tabGet {α : Type} : Tab α → Nat → Option α
  | [], _ => none
  | (i, x) :: l, k => if k = i then some x else if k < i then none else tabGet l k

/-- Put `x` under `k`, keeping the keys rising. -/
def tabSet {α : Type} : Tab α → Nat → α → Tab α
  | [], k, x => [(k, x)]
  | (i, y) :: l, k, x =>
    if k < i then (k, x) :: (i, y) :: l else if k = i then (k, x) :: l else (i, y) :: tabSet l k x

/-- Remove the entry under `k`. -/
def tabDel {α : Type} (t : Tab α) (k : Nat) : Tab α := t.filter (fun e => e.1 != k)

/-- A set of numbers as a rising list. -/
def setAdd : List Nat → Nat → List Nat
  | [], k => [k]
  | i :: l, k => if k < i then k :: i :: l else if k = i then i :: l else i :: setAdd l k

def setDel (l : List Nat) (k : Nat) : List Nat := l.filter (· != k)

/-- The least number not in the list, from `k` on, at most `n` tries. -/
def leastFree (l : List Nat) : Nat → Nat → Option Nat
  | 0, _ => none
  | n + 1, k => if l.contains k then leastFree l n (k + 1) else some k

/-- Replace the first element that satisfies `p`. -/
def listUpd {α : Type} (l : List α) (p : α → Bool) (f : α → α) : List α :=
  l.map (fun x => if p x then f x else x)

/-! ### Bytes: rising addresses, no byte equal to what an unlisted address reads as -/

/-- The byte at `a`; an unlisted byte reads 0 (log 1). -/
def rdCell : List Host.Cell → Nat → Byte
  | [], _ => 0
  | (k, x) :: l, a => if a = k then x else if a < k then 0 else rdCell l a

/-- Write the byte at `a`, keeping the canonical form. -/
def wrCell : List Host.Cell → Nat → Byte → List Host.Cell
  | [], a, x => if x = 0 then [] else [(a, x)]
  | (k, y) :: l, a, x =>
    if a < k then (if x = 0 then (k, y) :: l else (a, x) :: (k, y) :: l)
    else if a = k then (if x = 0 then l else (a, x) :: l)
    else (k, y) :: wrCell l a x

/-- The canonical form of memory: every address above `lo`, strictly rising, no listed zero. -/
def memOk : List Host.Cell → Nat → Bool
  | [], _ => true
  | (k, x) :: l, lo => decide (lo ≤ k) && x != 0 && memOk l (k + 1)

/-- Memory is in its canonical form. -/
def Memory.wf (m : List Host.Cell) : Bool := memOk m 0

/-- `n` bytes from `a`. -/
def rdBytes (m : List Host.Cell) (a : Nat) : Nat → List Byte
  | 0 => []
  | n + 1 => rdCell m a :: rdBytes m (a + 1) n

/-- Write bytes from `a`. -/
def wrBytes (m : List Host.Cell) (a : Nat) : List Byte → List Host.Cell
  | [] => m
  | x :: l => wrBytes (wrCell m a x) (a + 1) l

/-- Little-endian value of bytes (R6). -/
def leNat : List Byte → Nat
  | [] => 0
  | x :: l => x.toNat + 256 * leNat l

/-- `n` little-endian bytes of a value (R6). -/
def toLe : Nat → Nat → List Byte
  | 0, _ => []
  | n + 1, x => BitVec.ofNat 8 x :: toLe n (x / 256)

/-! ### Memory of the state -/

/-- A value of `n` bytes at physical address `a`. -/
def rdN (s : State) (a n : Nat) : Nat := leNat (rdBytes s.mem a n)

/-- The 8-byte word at `a`. -/
def rd64 (s : State) (a : Nat) : Word := BitVec.ofNat 64 (rdN s a 8)

/-- The aligned words that a write of `n` bytes at `a` covers whole (R435: such a write ends a soft error). -/
def wholeWord (a n w : Nat) : Bool := decide (a ≤ w ∧ w + 8 ≤ a + n)

/-- Write bytes at `a`: a word written whole loses its soft errors. -/
def wrMem (s : State) (a : Nat) (bs : List Byte) : State :=
  { s with
    mem := wrBytes s.mem a bs
    poison := s.poison.filter (fun w => !wholeWord a bs.length w)
    soft := s.soft.filter (fun w => !wholeWord a bs.length w) }

/-- Write an `n`-byte value at `a`. -/
def wrN (s : State) (a n x : Nat) : State := wrMem s a (toLe n x)

/-- Write the 8-byte word at `a`. -/
def wr64 (s : State) (a : Nat) (x : Word) : State := wrN s a 8 x.toNat

/-- The aligned word of address `a`. -/
def wordOf (a : Nat) : Nat := a / 8 * 8

/-- The full-empty bit of the word at `a` (R164). -/
def feGet (s : State) (a : Nat) : Bool := s.fe.contains (wordOf a)

/-- Set or clear it. -/
def feSet (s : State) (a : Nat) (b : Bool) : State :=
  { s with fe := if b then setAdd s.fe (wordOf a) else setDel s.fe (wordOf a) }

/-- Some word among the `n` bytes at `a` has an uncorrectable soft error (R435). -/
def eccBad (s : State) (a n : Nat) : Bool := s.poison.any (fun w => decide (w < a + n ∧ a < w + 8))

/-- The words among the `n` bytes at `a` with a corrected error. -/
def softHits (s : State) (a n : Nat) : Nat := s.soft.countP (fun w => decide (w < a + n ∧ a < w + 8))

/-! ### Physical numbering (log 2) -/

/-- First byte of frame `f` of cluster `cl`. -/
def sramBase (cl f : Nat) : Nat := 2 ^ 40 + (cl * 256 + f) * 32768

/-- Cluster and frame of an SRAM LOC word (R150). -/
def locCluster (loc : Word) : Nat := (loc.toNat % 8) * 32 + (loc.toNat / 8) % 32
def locFrame (loc : Word) : Nat := (loc.toNat / 256) % 256

/-- The LOC word of an SRAM frame. -/
def sramLoc (cl f : Nat) : Word := BitVec.ofNat 64 (cl / 32 + (cl % 32) * 8 + f * 256)

/-- First byte of the frame that a record of KIND `kind` and LOC `loc` names (R150). -/
def framePhys (kind : Nat) (loc : Word) : Nat :=
  if kind = 1 then sramBase (locCluster loc) (locFrame loc)
  else if kind = 2 then loc.toNat % 2 ^ 40 / 32768 * 32768
  else 2 ^ 64 + (loc.toNat / 2 ^ 63) * 2 ^ 63 + (loc.toNat % 2 ^ 63) / 32768 * 32768

/-- Cluster of an SRAM address. -/
def physCluster (a : Nat) : Option Nat :=
  if 2 ^ 40 ≤ a ∧ a < 2 ^ 40 + 256 * 256 * 32768 then some ((a - 2 ^ 40) / (256 * 32768)) else none

/-- Die of a cluster. -/
def dieOf (cl : Nat) : Nat := cl / 32

/-- The stack of an HBM address (R150). -/
def physStack (a : Nat) : Option Nat := if a < 2 ^ 40 then some (a / 2 ^ 36) else none

/-! ### Tables of the state -/

def getClu (s : State) (c : Nat) : Cluster := (tabGet s.clusters c).getD {}
def putClu (s : State) (c : Nat) (x : Cluster) : State := { s with clusters := tabSet s.clusters c x }
def updClu (s : State) (c : Nat) (f : Cluster → Cluster) : State := putClu s c (f (getClu s c))

/-- Key of what partition `p` has on cluster or die `c`. -/
def cpKey (c p : Nat) : Nat := 16 * c + p

def getCp (s : State) (c p : Nat) : ClPart := (tabGet s.clParts (cpKey c p)).getD {}
def putCp (s : State) (c p : Nat) (x : ClPart) : State := { s with clParts := tabSet s.clParts (cpKey c p) x }
def updCp (s : State) (c p : Nat) (f : ClPart → ClPart) : State := putCp s c p (f (getCp s c p))

def getDie (s : State) (d : Nat) : Die := (tabGet s.dies d).getD {}
def putDie (s : State) (d : Nat) (x : Die) : State := { s with dies := tabSet s.dies d x }
def updDie (s : State) (d : Nat) (f : Die → Die) : State := putDie s d (f (getDie s d))

def getDp (s : State) (d p : Nat) : DiePart := (tabGet s.dieParts (cpKey d p)).getD {}
def putDp (s : State) (d p : Nat) (x : DiePart) : State := { s with dieParts := tabSet s.dieParts (cpKey d p) x }
def updDp (s : State) (d p : Nat) (f : DiePart → DiePart) : State := putDp s d p (f (getDp s d p))

/-- The next free value (log 4). -/
def freePick (s : State) (n : Nat) : Nat × State := (Config.freeNat s.nfree % n, { s with nfree := s.nfree + 1 })

/-- An unbounded free value: a duration the spec leaves open (log 4). -/
def freeDelay (s : State) : Nat × State := (Config.freeNat s.nfree, { s with nfree := s.nfree + 1 })

/-- A fresh number for a task, a placement or an operation. -/
def fresh (s : State) : Nat × State := (s.nextId, { s with nextId := s.nextId + 1 })

/-! ### Time (R4, R100, R101) -/

/-- TICK_NOW. -/
def tickNow (s : State) : Nat := s.cycle / 8

/-- DEV_TIME in nanoseconds. -/
def devTimeNs (s : State) : Word := BitVec.ofNat 64 (s.devTime / (24 * 2 ^ 32))

/-- The relative cycle of a strand's segment (R57, R100). -/
def relCycle (t : Strand) (s : State) : Nat := s.cycle - 8 * t.seg.start

/-! ### Partition descriptors (R428) -/

def partWord (s : State) (p i : Nat) : Nat := match tabGet s.parts p with
  | some d => (d.words.getD i 0).toNat
  | none => 0

/-- The field of `n` bits from bit `lo` of descriptor word `i`. -/
def partField (s : State) (p i lo n : Nat) : Nat := partWord s p i / 2 ^ lo % 2 ^ n

def partExists (s : State) (p : Nat) : Bool := (tabGet s.parts p).isSome

/-- FRT, NFR, ROOT. -/
def frt (s : State) (p : Nat) : Nat := partField s p 1 0 40
def nfr (s : State) (p : Nat) : Nat := partField s p 2 0 26
def defaultRoot (s : State) (p : Nat) : Nat := partField s p 3 0 26

/-- Package row and column of a cluster (R18). -/
def clRow (c : Nat) : Nat := 4 * (dieOf c / 4) + (c % 32) / 8
def clCol (c : Nat) : Nat := 8 * (dieOf c % 4) + c % 8

/-- The cluster lies in the partition's rectangle (R428). -/
def inRect (s : State) (p c : Nat) : Bool :=
  let r0 := partField s p 0 4 3
  let c0 := partField s p 0 7 5
  partExists s p && decide (r0 ≤ clRow c ∧ clRow c < r0 + partField s p 0 12 4
    ∧ c0 ≤ clCol c ∧ clCol c < c0 + partField s p 0 16 6)

/-- The clusters of a partition. -/
def partClusters (s : State) (p : Nat) : List Nat := (List.range 256).filter (inRect s p)

/-- The dies that hold a member cluster. -/
def partDies (s : State) (p : Nat) : List Nat :=
  (List.range 8).filter (fun d => (List.range 32).any (fun c => inRect s p (32 * d + c)))

end Sys2Proof.Machine
end

