-- ==== Sys2Proof/Machine/Pages.lean ====
section
/-! DEFINITION. Page tables, frame records, reference counts, pins, frames and the translation cache
(spec/06 R145-R159, R178, R179; spec/17 R428). -/

namespace Sys2Proof.Machine

/-! ### Frame records (R150) -/

/-- Address of word `i` of record `fri`. -/
def recAddr (s : State) (p fri i : Nat) : Nat := frt s p + 32 * fri + 8 * i

/-- Word `i` of record `fri`. -/
def recWord (s : State) (p fri i : Nat) : Word := rd64 s (recAddr s p fri i)

def recKind (s : State) (p fri : Nat) : Nat := (recWord s p fri 0).toNat % 4
def recFmt (s : State) (p fri : Nat) : Nat := ((recWord s p fri 0).toNat / 16) % 16
def recBlk (s : State) (p fri : Nat) : Nat := ((recWord s p fri 0).toNat / 256) % 4
def recAxis (s : State) (p fri : Nat) : Nat := ((recWord s p fri 0).toNat / 1024) % 2
def recRef (s : State) (p fri : Nat) : Nat := ((recWord s p fri 0).toNat / 2 ^ 16) % 2 ^ 16
def recPins (s : State) (p fri : Nat) : Nat := ((recWord s p fri 0).toNat / 2 ^ 32) % 2 ^ 16

/-- First byte of the record's frame. -/
def recPhys (s : State) (p fri : Nat) : Nat := framePhys (recKind s p fri) (recWord s p fri 1)

/-- Replace bits [lo + n − 1 : lo] of a word. -/
def setField (w : Word) (lo n x : Nat) : Word :=
  BitVec.ofNat 64 (w.toNat - (w.toNat / 2 ^ lo % 2 ^ n) * 2 ^ lo + (x % 2 ^ n) * 2 ^ lo)

/-- Write a field of record word 0. -/
def setRec0 (s : State) (p fri lo n x : Nat) : State :=
  wr64 s (recAddr s p fri 0) (setField (recWord s p fri 0) lo n x)

def setRef (s : State) (p fri x : Nat) : State := setRec0 s p fri 16 16 x
def setPins (s : State) (p fri x : Nat) : State := setRec0 s p fri 32 16 x

/-- KIND and LOC of a record. -/
def setLoc (s : State) (p fri kind : Nat) (loc : Word) : State :=
  wr64 (setRec0 s p fri 0 2 kind) (recAddr s p fri 1) loc

/-- LAST_TICK (R153). -/
def setLast (s : State) (p fri t : Nat) : State := wrN s (recAddr s p fri 3) 8 (t % 2 ^ 48)

/-! ### PTEs and the walk (R146-R149) -/

def pteV (w : Word) : Bool := bit w 0
def pteW (w : Word) : Bool := bit w 1
def pteX (w : Word) : Bool := bit w 2
def pteCow (w : Word) : Bool := bit w 3
def ptePin (w : Word) : Bool := bit w 4
def pteRepl (w : Word) : Bool := bit w 5
def pteRope (w : Word) : Bool := bit w 6
def ptePair (w : Word) : Bool := bit w 7
def pteFe (w : Word) : Bool := bit w 8
def pteFri (w : Word) : Nat := (w.toNat / 2 ^ 32) % 2 ^ 26

/-- The FRI names a record of the partition that is not free (R149). -/
def friOk (s : State) (p fri : Nat) : Bool := fri != 0 && decide (fri < nfr s p) && recKind s p fri != 0

/-- A leaf PTE that a walk accepts. -/
def leafOk (s : State) (p : Nat) (w0 w1 : Word) : Bool :=
  pteV w0 && (w0.toNat / 2 ^ 9) % 2 ^ 23 == 0 && w0.toNat / 2 ^ 58 == 0 && w1.toNat / 2 ^ 56 == 0
    && friOk s p (pteFri w0)

/-- A node PTE that a walk accepts: only V, COW and FRI are used. -/
def nodeOk (s : State) (p : Nat) (w0 w1 : Word) : Bool :=
  pteV w0 && (w0.toNat / 2 % 4 == 0) && (w0.toNat / 16) % 2 ^ 28 == 0 && w0.toNat / 2 ^ 58 == 0 && w1 == 0
    && friOk s p (pteFri w0) && recFmt s p (pteFri w0) == 0

/-- The index of a virtual page in a node of level 1, 2 or 3 (R146). -/
def ptIndex (vpn level : Nat) : Nat := (vpn / 2 ^ (11 * (3 - level))) % 2048

/-- Address of the PTE of `vpn` in node `fri` of that level. -/
def pteAddr (s : State) (p fri vpn level : Nat) : Nat := recPhys s p fri + 16 * ptIndex vpn level

/-- A leaf that a walk found. -/
structure Leaf where
  /-- Address of the PTE. -/
  pteAt : Nat
  pte0 : Word
  pte1 : Word
  fri : Nat
  /-- FRIs of the nodes of the path, root first. -/
  path : List Nat
deriving DecidableEq, Repr

/-- The page-table root of a task: its own, or the partition's default root (R146). -/
def rootOf (s : State) (p root : Nat) : Nat := if root = 0 then defaultRoot s p else root

/-- The nodes of the path as far as they are valid. -/
def walkNodes (s : State) (p root vpn : Nat) : List Nat :=
  let r := rootOf s p root
  if !friOk s p r then []
  else
    let a1 := pteAddr s p r vpn 1
    if !nodeOk s p (rd64 s a1) (rd64 s (a1 + 8)) then [r]
    else
      let n2 := pteFri (rd64 s a1)
      let a2 := pteAddr s p n2 vpn 2
      if !nodeOk s p (rd64 s a2) (rd64 s (a2 + 8)) then [r, n2]
      else [r, n2, pteFri (rd64 s a2)]

/-- The walk of R146: none when it meets an invalid entry (R149). -/
def walk (s : State) (p root vpn : Nat) : Option Leaf :=
  match walkNodes s p root vpn with
  | [r, n2, n3] =>
    let a := pteAddr s p n3 vpn 3
    let w0 := rd64 s a
    let w1 := rd64 s (a + 8)
    if leafOk s p w0 w1 then some ⟨a, w0, w1, pteFri w0, [r, n2, n3]⟩ else none
  | _ => none

/-! ### Translation cache (R179) -/

/-- The entry for a page of a partition. -/
def tcFind (c : Cluster) (p vpn : Nat) : Option TcEnt := c.tc.find? (fun e => e.pid == p && e.vpn == vpn)

/-- Put an entry in; a full cache replaces one of free choice (log 15). -/
def tcPut (s : State) (cl : Nat) (e : TcEnt) : State :=
  let c := getClu s cl
  if c.tc.length < 1024 then putClu s cl { c with tc := e :: c.tc }
  else
    let (i, s) := freePick s 1024
    putClu s cl { c with tc := e :: c.tc.eraseIdx i }

/-- Drop every entry for a record of a partition in every cluster, and the code blocks of its pages (R154, R461). -/
def invalidate (s : State) (p fri : Nat) : State :=
  { s with clusters := s.clusters.map (fun e => (e.1, { e.2 with
      tc := e.2.tc.filter (fun t => !(t.pid == p && t.fri == fri))
      icache := e.2.icache.filter (fun b => !(b.pid == p && b.fri == fri)) })) }

/-- A walker translation of cluster `cl`: a hit, or a walk whose valid leaf is cached (R179). The key names no root: a walk
under a stream's own root (`root` not 0) neither uses nor fills the cache (log 15). -/
def xlate (s : State) (cl p root vpn : Nat) : Option TcEnt × State :=
  match (if root = 0 then tcFind (getClu s cl) p vpn else none) with
  | some e => (some e, s)
  | none =>
    match walk s p root vpn with
    | some l =>
      let e : TcEnt := ⟨p, vpn, l.fri, l.pte0, l.pte1⟩
      (some e, if root = 0 then tcPut s cl e else s)
    | none => (none, s)

/-- The walker's translation of a page with the place of its PTE, for a form that may change it (R174, R179). -/
def leafAt (s : State) (cl p root vpn : Nat) : Option Leaf × State :=
  let x := xlate s cl p root vpn
  match x.1, walkNodes x.2 p root vpn with
  | some e, [r, n2, n3] => (some ⟨pteAddr x.2 p n3 vpn 3, e.pte0, e.pte1, e.fri, [r, n2, n3]⟩, x.2)
  | _, _ => (none, x.2)

/-- The address lies in the window region of the segment's batch (R326, R332). -/
def inWindow (t : Strand) (vpn : Nat) : Bool :=
  match t.seg.win with
  | some w => decide (w ≤ vpn ∧ vpn < w + 512)
  | none => false

/-- The translation that the segment's page set made at booking (R145, R332). `fetch` also uses the code range (R113). -/
def setXl (t : Strand) (fetch : Bool) (vpn : Nat) : Option Xl :=
  t.seg.xl.find? (fun x => x.vpn == vpn && (!x.code || fetch) && x.win == inWindow t vpn)

/-- The record is an SRAM frame of the cluster (R145). -/
def localRec (s : State) (p fri cl : Nat) : Bool :=
  recKind s p fri == 1 && locCluster (recWord s p fri 1) == cl

/-- The translation of a synchronous access (R145): the segment's page set, else, outside the window region, a probe. The
record must be a frame of the accessing cluster's page store; a replicated page's is the cluster's own replica (R154). -/
def syncXl (t : Strand) (s : State) (fetch : Bool) (va : Nat) : Option Xl :=
  let vpn := va / 32768
  match setXl t fetch vpn with
  | some x => if pteRepl x.pte0 || localRec s t.task.pid x.fri t.cl then some x else none
  | none =>
    match (if inWindow t vpn then none else tcFind (getClu s t.cl) t.task.pid vpn) with
    | some e =>
      if localRec s e.pid e.fri t.cl then
        some ⟨vpn, e.fri, recWord s e.pid e.fri 1, e.pte0, e.pte1, true, false, false⟩
      else none
    | none => none

/-- The page came from the page set and not from a probe. -/
def inPageSet (t : Strand) (va : Nat) : Bool := (setXl t false (va / 32768)).isSome

/-- Physical address of `va` under a translation. -/
def xlPhys (x : Xl) (va : Nat) : Nat := framePhys 1 x.loc + va % 32768

/-! ### Holds (R153, R155) -/

/-- Clusters on which a placed, running or parked segment holds the record, or a booked copy still reads it (R219). -/
def heldBy (s : State) (p fri : Nat) : List Nat :=
  (s.strands.filter (fun e => e.2.task.pid == p && e.2.seg.xl.any (fun x => x.fri == fri))).map (fun e => e.2.cl)
    ++ (s.parked.filter (fun t => t.task.pid == p && t.seg.xl.any (fun x => x.fri == fri))).map (fun t => t.cl)
    ++ (s.clParts.filter (fun e => e.1 % 16 == p && (e.2.placed.any (fun q => q.seg.xl.any (fun x => x.fri == fri))
        || e.2.copies.any (fun c => c.what == 1 && c.old == fri)))).map (fun e => e.1 / 16)

def held (s : State) (p fri : Nat) : Bool := !(heldBy s p fri).isEmpty

/-- A move of the record into cluster `cl` is booked; into another cluster. -/
def moveBooked (s : State) (cl p fri : Nat) : Bool := (getCp s cl p).copies.any (fun c => c.what == 0 && c.fri == fri)

def movePending (s : State) (cl p fri : Nat) : Bool :=
  s.clParts.any (fun e => e.1 % 16 == p && e.1 / 16 != cl && e.2.copies.any (fun c => c.what == 0 && c.fri == fri))

/-! ### Frames, spill slots and node pages (R156, R157, R428) -/

/-- Frames of a cluster that count against the partition's quota. -/
def framesOf (s : State) (cl p : Nat) : Nat := ((getClu s cl).frames.filter (fun e => e.2.1 == p)).length

/-- The frame is not in use. -/
def frameFree (s : State) (cl f : Nat) : Bool := (tabGet (getClu s cl).frames f).isNone

/-- Take a free frame of the cluster for a record: the oldest that a spill of the partition has freed, else one of free
choice (log 14). -/
def takeFrame (s : State) (cl p fri : Nat) : Option (Nat × State) :=
  let put := fun (s : State) (f : Nat) =>
    updCp (updClu s cl (fun c => { c with frames := tabSet c.frames f (p, fri) })) cl p (fun k => { k with freed := setDel k.freed f })
  match (getCp s cl p).freed.find? (frameFree s cl) with
  | some f => some (f, put s f)
  | none =>
    let free := (List.range 256).filter (frameFree s cl)
    if free.isEmpty then none
    else
      let (i, s) := freePick s free.length
      some (free.getD i 0, put s (free.getD i 0))

/-- Free frame `f` of the cluster. -/
def dropFrame (s : State) (cl f : Nat) : State := updClu s cl (fun c => { c with frames := tabDel c.frames f })

/-- First byte of the spill area of a cluster and the index of its stack on the die (R157, R428). -/
def spillStack (cl : Nat) : Nat := if cl % 8 < 4 then 0 else 1
def spillBase (s : State) (cl p : Nat) : Nat := (2 * dieOf cl + spillStack cl) * 2 ^ 36 + partField s p 5 0 36

/-- First byte of the node pool of a die. -/
def nodeBase (s : State) (d p : Nat) : Nat := 2 * d * 2 ^ 36 + partField s p 6 9 36

/-- First byte of a die's continuation area (R428). -/
def contBase (s : State) (d p : Nat) : Nat := 2 * d * 2 ^ 36 + partField s p 4 0 36

/-- The storage of a record returns to its pool (R152): an SRAM frame, a spill slot, a node page. A write still on its way
to it is lost with it. -/
def returnStorage (s : State) (p fri : Nat) : State :=
  let loc := recWord s p fri 1
  let a := recPhys s p fri
  let s := { s with
    egress := s.egress.filter (fun e => !decide (a ≤ e.addr ∧ e.addr < a + 32768))
    ops := s.ops.map (fun o => { o with out := o.out.filter (fun w => !decide (a ≤ w.addr ∧ w.addr < a + 32768)) }) }
  if recKind s p fri = 1 then dropFrame s (locCluster loc) (locFrame loc)
  else if recKind s p fri = 2 then
    let a := loc.toNat % 2 ^ 40
    let d := a / 2 ^ 37
    let st := (a / 2 ^ 36) % 2
    let off := a % 2 ^ 36
    let sp := partField s p 5 0 36
    let nd := partField s p 6 9 36
    if sp ≤ off ∧ off < sp + 2 ^ 30 then
      updDp s d p (fun x => { x with spill := setDel x.spill (32768 * st + (off - sp) / 32768) })
    else if nd ≤ off ∧ off < nd + 2 ^ 30 ∧ st = 0 then
      updDp s d p (fun x => { x with nodes := setDel x.nodes ((off - nd) / 32768) })
    else s
  else s

/-! ### Reference counts (R152) -/

/-- The valid entries of a node of level `lvl` (R149): the FRI of each, and whether it is a leaf that holds a pin. -/
def nodeKids (s : State) (p lvl fri : Nat) : List (Nat × Bool) :=
  let base := recPhys s p fri
  (List.range 2048).filterMap (fun i =>
    let w0 := rd64 s (base + 16 * i)
    let w1 := rd64 s (base + 16 * i + 8)
    if pteV w0 && (if lvl = 3 then leafOk s p w0 w1 else nodeOk s p w0 w1) then
      some (pteFri w0, decide (lvl = 3) && ptePin w0) else none)

/-- A mapping with PIN = 1 ends: its pin is released (R159). -/
def dropPin (s : State) (p fri : Nat) (pin : Bool) : State := if pin then setPins s p fri (recPins s p fri - 1) else s

/-- Free a record whose REF is 0; a node first releases the pins and lowers the REF of what its entries name. `lvl` is 1-3
for a node, 4 for a data page. Answers the number of records freed, or none where a REF would fall below 0, which is REFCOUNT
(R152; log 105). A held frame waits (R155). -/
def freeRec (p : Nat) : Nat → Nat → Nat → State → Option (Nat × State)
  | 0, _, _, s => some (0, s)
  | fuel + 1, lvl, fri, s =>
    if held s p fri then some (0, s)
    else
      let kids := if lvl ≤ 3 then nodeKids s p lvl fri else []
      let r := kids.foldl (fun acc k => acc.bind (fun (x : Nat × State) =>
        let s := dropPin x.2 p k.1 k.2
        let ref := recRef s p k.1
        if ref = 0 then none
        else
          let s := setRef s p k.1 (ref - 1)
          if ref = 1 then (freeRec p fuel (lvl + 1) k.1 s).map (fun q => (x.1 + q.1, q.2)) else some (x.1, s))) (some (0, s))
      r.map (fun x => (x.1 + 1, invalidate (setRec0 (returnStorage x.2 p fri) p fri 0 2 0) p fri))

/-- REF += delta: none for REFCOUNT (R152). At 0 the record is freed. -/
def refAdd (s : State) (p fri : Nat) (lvl : Nat) (delta : Int) : Option (Nat × State) :=
  let r : Int := recRef s p fri + delta
  if r < 0 ∨ 65535 < r then none
  else
    let s := setRef s p fri r.toNat
    if r = 0 then freeRec p 5 lvl fri s else some (0, s)

/-- A data page whose REF has reached 0 is freed once nothing holds it (R152, R155). -/
def freeIdle (s : State) (p fri : Nat) : State :=
  if recKind s p fri != 0 && recRef s p fri == 0 then ((freeRec p 5 4 fri s).map (·.2)).getD s else s

/-- Free the records of ended holds whose REF had reached 0 (R152, R155). -/
def freeHeld (s : State) (p : Nat) (l : List Xl) : State := l.foldl (fun s x => freeIdle s p x.fri) s

/-- A free record: the first from one of free choice (log 14). -/
def findRec (s : State) (p : Nat) : Nat → Nat → Option Nat
  | 0, _ => none
  | n + 1, f =>
    let f' := if nfr s p ≤ f ∨ f = 0 then 1 else f
    if recKind s p f' = 0 ∧ f' < nfr s p then some f' else findRec s p n (f' + 1)

def freeRecord (s : State) (p : Nat) : Option Nat × State :=
  let (i, s) := freePick s (nfr s p)
  (findRec s p (nfr s p) i, s)

/-- Copy `n` bytes with their full-empty bits when they are a frame's. -/
def copyBytes (s : State) (dst src n : Nat) : State := wrMem s dst (rdBytes s.mem src n)

/-- Copy a 32 KiB frame with its full-empty bits and its soft errors (R164). -/
def copyFrame (s : State) (dst src : Nat) : State :=
  let s' := copyBytes s dst src 32768
  let moved := fun (l : List Nat) => (l.filter (fun a => decide (src ≤ a ∧ a < src + 32768))).map (fun a => a - src + dst)
  let put := fun (old : List Nat) =>
    (moved old).foldl setAdd (old.filter (fun a => !decide (dst ≤ a ∧ a < dst + 32768)))
  { s' with fe := put s.fe, poison := put s.poison, soft := put s.soft }

/-- Zero a frame and set every full-empty bit of it empty (R164, R176). -/
def zeroFrame (s : State) (a : Nat) (feEmpty : Bool) : State :=
  let s := wrMem s a (List.replicate 32768 0)
  if feEmpty then { s with fe := s.fe.filter (fun x => !decide (a ≤ x ∧ x < a + 32768)) } else s

/-- A record with these contents (R150); OWNER is the partition. -/
def newRecord (s : State) (p fri kind fmt blk axis ref pins : Nat) (loc w2 : Word) : State :=
  let w0 := kind + 16 * fmt + 256 * blk + 1024 * axis + 2 ^ 16 * ref + 2 ^ 32 * pins + 2 ^ 48 * p
  wr64 (wr64 (wr64 (wr64 s (recAddr s p fri 0) (BitVec.ofNat 64 w0)) (recAddr s p fri 1) loc)
    (recAddr s p fri 2) w2) (recAddr s p fri 3) 0

/-- A node page of the die's pool, zeroed, the lowest free one (R153): its page number. -/
def takeNode (s : State) (d p : Nat) : Option (Nat × State) :=
  match leastFree (getDp s d p).nodes 32768 0 with
  | some n => some (n, updDp s d p (fun x => { x with nodes := setAdd x.nodes n }))
  | none => none

/-- A new node record in the pool of a die (R153): its FRI. -/
def newNode (s : State) (d p : Nat) : Option (Nat × State) :=
  match freeRecord s p with
  | (none, _) => none
  | (some fri, s) =>
    match takeNode s d p with
    | none => none
    | some (n, s) =>
      let a := nodeBase s d p + 32768 * n
      let s := newRecord s p fri 2 0 0 0 1 0 (BitVec.ofNat 64 a) 0
      some (fri, zeroFrame s a false)

/-- The victim of R156: the unpinned, unheld SRAM frame of the partition on the cluster with the least LAST_TICK. -/
def victim (s : State) (cl p : Nat) : Option Nat :=
  let fs := (getClu s cl).frames.filter (fun e => e.2.1 == p && recKind s p e.2.2 == 1
    && recWord s p e.2.2 1 == sramLoc cl e.1 && recPins s p e.2.2 == 0 && !held s p e.2.2
    && !(getCp s cl p).copies.any (fun c => c.frame == e.1)
    && !((getClu s cl).evIdle ++ (getClu s cl).evDemand).any (fun v => v.pid == p && v.fri == e.2.2))
  (fs.foldl (fun best e =>
    let k := (recWord s p e.2.2 3).toNat % 2 ^ 48
    match best with
    | some (b : Nat × Nat) => if k < b.1 then some (k, e.2.2) else best
    | none => some (k, e.2.2)) none).map (·.2)

/-- A frame for a partition within its quota, or the spill of a victim queued and none for now (R156, R158). -/
def frameInQuota (s : State) (cl p fri : Nat) : Option (Nat × State) :=
  if (getCp s cl p).quota ≤ framesOf s cl p then none else takeFrame s cl p fri

/-- Queue a victim in the demand part when there is one and room for it (R156, R158). -/
def queueVictim (s : State) (cl p : Nat) : State :=
  match victim s cl p with
  | some f =>
    updClu s cl (fun c => if c.evDemand.length < 8 then { c with evDemand := c.evDemand ++ [⟨p, f, 0, 0, 0, false⟩] } else c)
  | none => s

end Sys2Proof.Machine
end

