-- ==== Sys2Proof/Machine/Ops.lean ====
section
/-! DEFINITION. The shared operations: the strand that runs, issue under a guard, taking a fault (spec/16 R402, R408,
R409), splits (spec/08 R222-R230), and the counters and completion of engine operations (spec/07 R184-R190). -/

namespace Sys2Proof.Machine

/-- What a meaning answers. -/
abbrev Out := Host.Outcome State Fault Refusal

/-! ### The strand that runs -/

/-- The strand of the current lane. -/
def curStrand (s : State) : Option Strand := tabGet s.strands s.cur

/-- Package number of a strand's lane. -/
def laneKey (t : Strand) : Nat := 8 * t.cl + t.lane

/-- Put the current lane's strand back. -/
def putStrand (s : State) (t : Strand) : State := { s with strands := tabSet s.strands s.cur t }

/-- Supervisor privilege (R406). -/
def isSup (t : Strand) : Bool := t.task.fq

/-! ### Control registers by number (R37) -/

/-- Reset values that are not 0 (R217, R246, R248, R326, R353). -/
def ctlReset (n : Nat) : Word :=
  if n = 0x180 then 256
  else if 0x190 ≤ n ∧ n ≤ 0x19F then BitVec.ofNat 64 (127 * 16 + 127 * 2048)
  else if n = 0x1A0 then BitVec.ofNat 64 (1024 * 256)
  else if n = 0x1B1 then 0x3E000000
  else if n = 0x1B2 then 0x3E800000
  else if n = 0x410 then 128
  else 0

/-- The register's value in a table of written registers. -/
def ctlGet (t : Tab Word) (n : Nat) : Word := (tabGet t n).getD (ctlReset n)

/-- A register of a partition's copy on a cluster. -/
def cpCtl (s : State) (c p n : Nat) : Word := ctlGet (getCp s c p).ctl n

/-- Set it. -/
def setCpCtl (s : State) (c p n : Nat) (x : Word) : State := updCp s c p (fun k => { k with ctl := tabSet k.ctl n x })

/-! ### Leases on registers (R187) -/

/-- A pending operation of the task writes the register. -/
def regLeased (s : State) (task : Nat) (r : RegRef) : Bool :=
  s.ops.any (fun o => o.task == task && o.dst == some r)

/-- A register that the instruction names is leased. -/
def leaseHit (s : State) (t : Strand) (i : Instr) : Bool := (uses i).any (regLeased s t.task.id)

/-! ### Bookings (R206-R209, R222) -/

/-- The tick is booked on the resource to holder `sid`. -/
def bookedTo (cal : List Booking) (sid res tick : Nat) : Bool :=
  cal.any (fun b => b.sid == sid && b.res == res && decide (b.lo ≤ tick ∧ tick ≤ b.hi))

/-- The tick is booked on the resource to any holder, the Sieve's withheld spill ticks included (R157, R209). -/
def bookedAny (cal : List Booking) (res tick : Nat) : Bool :=
  (res == 28 && decide (48 ≤ tick % 64)) || cal.any (fun b => b.res == res && decide (b.lo ≤ tick ∧ tick ≤ b.hi))

/-- The strand's segment is booked for the resource in the ticks lo .. hi (R208). -/
def segBooked (s : State) (t : Strand) (res lo hi : Nat) : Bool :=
  (List.range (hi + 1 - lo)).all (fun k => bookedTo (getCp s t.cl t.task.pid).cal t.seg.sid res (lo + k))

/-- The part of a booking within lo .. hi. -/
def clip (b : Booking) (lo hi : Nat) : List Booking :=
  if max b.lo lo ≤ min b.hi hi then [{ b with lo := max b.lo lo, hi := min b.hi hi }] else []

/-- Release the bookings of holder `sid` from tick `from` on, but for ticks that in-flight tile commands occupy
(R222). -/
def releaseFrom (k : ClPart) (sid tick : Nat) : ClPart :=
  { k with cal := k.cal.flatMap (fun b =>
      if b.sid == sid then
        clip b 0 (tick - 1) ++
          (k.tiles.filter (fun c => c.sid == sid)).flatMap (fun c =>
            (c.occ.filter (fun o => o.1 == b.res)).flatMap (fun o => clip b (max tick o.2.1) o.2.2))
      else [b]) }

/-- The tick after the last one that a tile command of the segment occupies (R222). -/
def tilesUntil (k : ClPart) (sid : Nat) : Nat :=
  (k.tiles.filter (fun c => c.sid == sid)).foldl (fun m c => max m (c.done / 8 + 1)) 0

/-- Close the open batch: it commits in cycle `after`, at the latest completion point of its commands or with the batch
before it, whichever is last; the next batch opens (R271, R272). -/
def closeBatch (s : State) (t : Strand) (after : Nat) : Strand × State :=
  let mine := fun (c : TileCmd) => c.sid == t.seg.sid && c.batch == t.batchNo && c.commit.isNone
  let last := t.commits.foldl (fun m e => max m e.2) after
  let c := ((getCp s t.cl t.task.pid).tiles.filter mine).foldl (fun m c => max m (c.done + 1)) last
  ({ t with batchNo := t.batchNo + 1, commits := t.commits ++ [(t.batchNo, c)] },
    updCp s t.cl t.task.pid (fun k => { k with tiles := listUpd k.tiles mine (fun x => { x with commit := some c }) }))

/-! ### Images (R408, R409) -/

/-- First byte of image slot `slot` of a cluster's die. -/
def imagePhys (s : State) (cl p slot : Nat) : Nat := contBase s (dieOf cl) p + 32768 * slot

/-- First byte of the shadow storage that keeps the first 4,800 B of an image during a switch (R416): on-chip storage with
a number of its own (log 2). -/
def shadowPhys (cl p slot : Nat) : Nat := 2 ^ 50 + 8192 * (16384 * cpKey (dieOf cl) p + slot)

/-- VA of an image slot (R408). -/
def imageVa (s : State) (cl p slot : Nat) : Nat :=
  partField s p 4 36 15 * 2 ^ 33 + 2 ^ 30 * dieOf cl + 32768 * slot

/-- Bits of a list of register numbers. -/
def numBits (l : List Nat) : Nat := (l.eraseDups).foldl (fun a n => a + 2 ^ n) 0

/-- c0-c3 as CTR holds them (R229). -/
def ctrWord (k : Vector (BitVec 16) 4) : Word := k[3] ++ k[2] ++ k[1] ++ k[0]

def ctrOf (w : Word) : Vector (BitVec 16) 4 := #v[bits w 0 16, bits w 16 16, bits w 32 16, bits w 48 16]

/-- The header words of a strand's image, saved at relative cycle `n` (R408, R409). -/
def imageHeader (s : State) (t : Strand) (n : Nat) : List Word :=
  let ts := n / 8
  let w := BitVec.ofNat 64
  let dsts := (s.ops.filter (fun o => o.task == t.task.id)).filterMap (fun o => o.dst)
  [ w (t.pc0.toNat + 2 ^ 48 * t.ds), w (t.pc1.toNat + 2 ^ 48 * (n - 8 * ts)),
    w (t.pc2.toNat + 2 ^ 48 * (t.seg.len - ts)), ctrWord t.c,
    w (t.p.toNat + 2 ^ 7 * t.rm.toNat + 2 ^ 9 * t.flags.toNat + 2 ^ 16 * (t.batchNo % 2 ^ 16)),
    w (t.seg.blk.toNat + 2 ^ 48 * t.seg.queue + 2 ^ 52 * t.seg.prio + 2 ^ 59 * (if t.task.fq then 1 else 0)),
    w (t.task.bprio + 2 ^ 7 * t.seg.gid + 2 ^ 15 * t.seg.member + 2 ^ 18 * ((t.seg.boff + ts) % 4096)),
    w (numBits (dsts.filterMap (fun r => match r with | .g n => some n | _ => none))),
    w (numBits (dsts.filterMap (fun r => match r with | .v n => some n | _ => none))), 0, 0, 0, 0, 0, 0, 0 ]

/-- The shape words: bit r of word u when resource r was booked to the segment at relative tick ts + u (R409). -/
def shapeWords (s : State) (t : Strand) (n : Nat) : List Nat :=
  let ts := n / 8
  let cal := (getCp s t.cl t.task.pid).cal.filter (fun b => b.sid == t.seg.sid)
  (List.range (t.seg.len - ts)).map (fun u =>
    ((List.range 32).filter (fun r => decide (8 ≤ r) && bookedTo cal t.seg.sid r (t.seg.start + ts + u))).foldl
      (fun a r => a + 2 ^ r) 0)

/-- The first 4,800 B of an image: header, registers and masks (R408). -/
def imageBytes (s : State) (t : Strand) (n : Nat) : List Byte :=
  (imageHeader s t n).flatMap (fun (w : Word) => toLe 8 w.toNat)
    ++ (t.g.toList.set 0 0).flatMap (fun (w : Word) => toLe 8 w.toNat)
    ++ t.v.toList.flatMap (fun (x : BitVec 1024) => toLe 128 x.toNat)
    ++ (t.m.toList ++ [0]).flatMap (fun (w : Word) => toLe 8 w.toNat)

/-- Write the strand's image to the lowest free slot of its die (R408): the slot. At a switch (`sw`) all but the shape
words goes to shadow storage (R416). -/
def saveImage (s : State) (t : Strand) (n : Nat) (sw : Bool) : Nat × State :=
  let d := dieOf t.cl
  let p := t.task.pid
  let slot := (leastFree (getDp s d p).images 16384 0).getD 16384
  let head := if sw then shadowPhys t.cl p slot else imagePhys s t.cl p slot
  let s' := wrMem (wrMem s head (imageBytes s t n)) (imagePhys s t.cl p slot + 4800) ((shapeWords s t n).flatMap (toLe 4))
  (slot, { updDp s' d p (fun x => { x with images := setAdd x.images slot }) with
    images := (t.task.id, t.cl, slot, sw) :: s'.images })

/-! ### Continuation records (R229, R230) -/

/-- The header of a continuation record (R229). EVENT reads 8 once a gang member's own event has fired and it waits for its
round (log 86). -/
def contHeader (c : Cont) : List Word :=
  let w := BitVec.ofNat 64
  let ev := if c.ganged && c.fired then 8 else c.event
  [ w (c.pc0.toNat + 2 ^ 48 * c.ds + 2 ^ 50 * c.roam.toNat + 2 ^ 51 * c.ganged.toNat + 2 ^ 52 * c.queue + 2 ^ 56 * c.prio
      + 2 ^ 63 * c.task.fq.toNat),
    w (c.pc1.toNat + 2 ^ 48 * c.ts + 2 ^ 60 * c.resume), w (c.pc2.toNat + 2 ^ 48 * c.task.bprio + 2 ^ 55 * c.tgt),
    ctrWord c.c, c.glive,
    w (c.vlive.toNat + 2 ^ 32 * c.p.toNat + 2 ^ 39 * c.rm.toNat + 2 ^ 41 * c.flags.toNat + 2 ^ 48 * ev), c.evarg,
    w c.blk.toNat ]

/-- The bytes of a continuation record: the header, then the live registers in ascending order (R229). -/
def contBytes (c : Cont) : List Byte :=
  (contHeader c).flatMap (fun (w : Word) => toLe 8 w.toNat)
    ++ c.g.toList.zipIdx.flatMap (fun e => if c.glive.getLsbD e.2 then toLe 8 e.1.toNat else [])
    ++ c.v.toList.zipIdx.flatMap (fun e => if c.vlive.getLsbD e.2 then toLe 128 e.1.toNat else [])

/-- First byte of record slot `k` of a die's continuation area: 8 KiB slots from 512 MiB on (R408; log 86). -/
def contPhys (s : State) (cl p k : Nat) : Nat := contBase s (dieOf cl) p + 2 ^ 29 + 8192 * k

/-- A record that is kept in HBM is written there. -/
def writeCont (s : State) (c : Cont) : State :=
  match c.hbm with
  | some k => wrMem s (contPhys s c.cl c.task.pid k) (contBytes c)
  | none => s

/-- The lowest free record slot of a die's continuation area (log 86). -/
def contSlot (s : State) (cl p : Nat) : Nat :=
  let used := (s.conts.filter (fun c => dieOf c.cl == dieOf cl && c.task.pid == p)).filterMap (·.hbm)
  (leastFree used (used.length + 1) 0).getD 0

/-- Put a record into HBM. -/
def spillCont (s : State) (c : Cont) : Cont := { c with hbm := some (contSlot s c.cl c.task.pid) }

/-- A new record: on chip while the cluster keeps fewer than 64 there, else in HBM (R230). -/
def addCont (s : State) (c : Cont) : State :=
  let c := if 64 ≤ s.conts.countP (fun x => x.cl == c.cl && x.hbm.isNone) then spillCont s c else { c with hbm := none }
  writeCont { s with conts := s.conts ++ [c] } c

/-- Change the record of a task, and its copy in HBM. -/
def updCont (s : State) (task : Nat) (f : Cont → Cont) : State :=
  let s := { s with conts := listUpd s.conts (fun c => c.task.id == task) f }
  match s.conts.find? (fun c => c.task.id == task) with
  | some c => writeCont s c
  | none => s

/-! ### Taking a fault (R402) -/

/-- The code of a cause (R399). -/
def causeCode : Cause → Nat
  | .notice => 0 | .illegal => 1 | .reservedField => 2 | .slot => 3 | .register => 4 | .align => 5 | .lease => 6
  | .booking => 7 | .overrun => 8 | .residency => 9 | .translation => 10 | .protection => 11 | .tenant => 12
  | .format => 13 | .layout => 14 | .sequence => 15 | .queueFull => 16 | .refcount => 17 | .stream => 18
  | .privilege => 19 | .brk => 20 | .syscall => 21 | .counter => 22 | .memoryEcc => 23 | .preempt => 24

/-- Queue a fault event at its die, behind those that wait (R249). -/
def queueEvent (s : State) (e : FaultEv) : State :=
  updDie s (dieOf e.cl) (fun d => { d with waiting := d.waiting ++ [e] })

/-- Word 0 of a record but REC and LIVE (R405). -/
def recWord0 (cause kind : Nat) (soft eccp : Bool) (pid cl lane ctx ds : Nat) : Word :=
  BitVec.ofNat 64 (cause + 2 ^ 8 * kind + 2 ^ 10 * (if soft then 1 else 0) + 2 ^ 11 * (if eccp then 1 else 0)
    + 2 ^ 12 * pid + 2 ^ 16 * dieOf cl + 2 ^ 19 * (cl % 32) + 2 ^ 24 * lane + 2 ^ 27 * ctx + 2 ^ 30 * ds)

/-- The Whisk fires when a fault of the programmed cause occurs on the cluster (R417, EV = 1). -/
def whiskOnCause (s : State) (cl p cause : Nat) : State :=
  let w := (cpCtl s cl p 0x1C1).toNat
  if w % 2 = 1 ∧ w / 8 % 4 = 1 ∧ w / 32 % 256 = cause then
    { s with agenda := s.agenda ++ [(.whiskFire, { cl := cl, pid := p, n := 1 })] }
  else s

/-- A pre-emption request on a lane is done with: REQ of PRE_CTL reads it 0 (R411). -/
def clearReq (k : ClPart) (lane : Nat) : ClPart :=
  { k with
    preempt := setDel k.preempt lane
    ctl := k.ctl.map (fun e => if e.1 = 0x1C0 then (e.1, e.2 &&& ~~~ (1#64 <<< (lane % 8))) else e) }

/-- The cycle in which the strand's last pending register write completes (R92, R227). -/
def pendEnd (s : State) (t : Strand) : Nat := t.pend.foldl (fun m e => max m e.2) s.cycle

/-- Every register write of the strand is complete. -/
def settled (s : State) (t : Strand) : Bool := decide (pendEnd s t ≤ s.cycle)

/-- A strand leaves its lane and waits for its pending register writes, to end as `e` says. -/
def stopStrand (s : State) (t : Strand) (e : Ending) : State :=
  { s with strands := tabDel s.strands (laneKey t), parked := s.parked ++ [{ t with ending := some e }] }

/-- Save a stopped strand whose writes are complete and park it (R402 steps 3 and 4, R412): the image is written with the
remainder taken from relative cycle `n`, and the bookings are released. -/
def park (s : State) (t : Strand) (n : Nat) (ovr sw : Bool) : Nat × State :=
  let t := { t with pend := [], flags := flagsDone t, late := [], ending := none }
  let (slot, s) := saveImage s t n sw
  let t := { t with slot := slot, seg := if ovr then { t.seg with xl := [] } else t.seg }
  let s := updCp s t.cl t.task.pid (fun k => clearReq (releaseFrom k t.seg.sid (tickNow s + 1)) t.lane)
  (slot, { s with parked := s.parked ++ [t] })

/-- A strand whose writes are complete takes a fault (R402 steps 3 to 6). OVERRUN ends the segment's holds, and a frame that
nothing names any more is freed (R152, R155). -/
def faultNow (s : State) (t : Strand) (n : Nat) (f : FaultInfo) : State :=
  let (slot, s) := park s t n (decide (f.cause = .overrun)) false
  let s := if f.cause = .overrun then freeHeld s t.task.pid t.seg.xl else s
  let c := causeCode f.cause
  let ev : FaultEv :=
    { pid := t.task.pid, cl := t.cl, cause := c, kind := 0
      word0 := recWord0 c 0 f.soft f.eccp t.task.pid t.cl t.lane t.ctx t.ds
      words := [toW t.pc0, toW t.pc1, toW t.pc2, f.va, BitVec.ofNat 64 (imageVa s t.cl t.task.pid slot), f.word, f.w7]
      subject := .strand t.task.id }
  whiskOnCause (queueEvent s ev) t.cl t.task.pid c

/-- A strand takes a fault whose instruction reached issue at relative cycle `n`; `t` carries the triple to save. It leaves
its lane and its open batch closes at once; the rest follows when its pending register writes are complete (R402). -/
def takeFaultAt (s : State) (t : Strand) (n : Nat) (f : FaultInfo) : State :=
  let (t, s) := closeBatch s t s.cycle
  if settled s t then faultNow { s with strands := tabDel s.strands (laneKey t) } t n f else stopStrand s t (.fault n f)

/-- The relative cycle at which the strand's instruction reached issue (R402). -/
def reachCycle (t : Strand) (s : State) : Nat := t.reach.getD s.cycle - 8 * t.seg.start

/-- A strand fault of the instruction at pc0 (R402). -/
def takeFault (s : State) (t : Strand) (f : FaultInfo) : State := takeFaultAt s t (reachCycle t s) f

/-- The fault of an instruction: its first word goes to the record. -/
def raise (i : Instr) (c : Cause) (s : State) (t : Strand) (va : Word) : State :=
  takeFault s t { cause := c, va := va, word := (encode i).headD 0 }

/-! ### Issue -/

/-- Issue an instruction word on the current lane (R41, R187): a false guard does `off`; a leased operand raises LEASE;
else `on` is the instruction's own effect. -/
def issue (i : Instr) (g : Guard) (off : Strand → Strand) (on : Strand → State → State) (s : State) : Out :=
  match curStrand s with
  | none => .fault .noStrand
  | some t =>
    if guardOn g t then
      if leaseHit s t i then .next (raise i .lease s t 0) else .next (on t s)
    else .next (putStrand s (off t))

/-- A form that needs supervisor privilege: PRIVILEGE is a decode cause, raised whatever the guard (R37, R41, R400). -/
def issueSup (i : Instr) (g : Guard) (on : Strand → State → State) (s : State) : Out :=
  match curStrand s with
  | none => .fault .noStrand
  | some t =>
    if !isSup t then .next (raise i .privilege s t 0)
    else if guardOn g t then .next (on t s)
    else .next (putStrand s (advance t))

/-- An instruction whose effect stays in its strand. -/
def laneOp (i : Instr) (g : Guard) (off on : Strand → Strand) (s : State) : Out :=
  issue i g off (fun t s => putStrand s (on t)) s

/-- An instruction that writes one g register, ready after `lat` cycles. -/
def aluOp (i : Instr) (g : Guard) (lat : Nat) (d : R6) (x : Strand → Word) (s : State) : Out :=
  laneOp i g advance (fun t => advance (setG s.cycle lat d (x t) t)) s

/-- A division: the lane's divider takes the next one 20 cycles later (R91). -/
def divOp (i : Instr) (g : Guard) (d : R6) (x : Strand → Word) (s : State) : Out :=
  laneOp i g advance (fun t => advance { setG s.cycle 20 d (x t) t with divFree := s.cycle + 20 }) s

/-! ### Where a task is -/

/-- Change the running strand of a task, wherever it runs. -/
def updRunning (s : State) (task : Nat) (f : Strand → Strand) : State :=
  { s with strands := s.strands.map (fun e => if e.2.task.id == task then (e.1, f e.2) else e) }

def isRunning (s : State) (task : Nat) : Bool := s.strands.any (fun e => e.2.task.id == task)

/-- The saved image of a task: first byte of its header, and of its shape words (R408, R416). -/
def imageOf (s : State) (task pid : Nat) : Option Nat :=
  (s.images.find? (fun e => e.1 == task)).map (fun e =>
    if e.2.2.2 then shadowPhys e.2.1 pid e.2.2.1 else imagePhys s e.2.1 pid e.2.2.1)
def shapesOf (s : State) (task pid : Nat) : Option Nat :=
  (s.images.find? (fun e => e.1 == task)).map (fun e => imagePhys s e.2.1 pid e.2.2.1 + 4800)

/-- Change the registers of a task wherever it is (R185, R186, R402): of its strand, running or stopped, of its image, or
of its continuation record. -/
def updTask (s : State) (task pid : Nat) (f : Strand → Strand) (img : State → Nat → State) (c : Cont → Cont) : State :=
  if isRunning s task then updRunning s task f
  else
    let s := { s with parked := listUpd s.parked (fun t => t.task.id == task) f }
    match imageOf s task pid with
    | some a => img s a
    | none => updCont s task c

/-- Write an engine result to a register of a task; a continuation record takes it when the register is in the live set
(R188). -/
def writeReg (s : State) (task pid : Nat) (r : RegRef) (x : Nat) : State :=
  updTask s task pid
    (fun t => match r with
      | .g n => if n = 0 then t else { t with g := t.g.set (n % 64) (BitVec.ofNat 64 x) (by omega) }
      | .v n => { t with v := t.v.set (n % 32) (BitVec.ofNat 1024 x) (by omega) }
      | _ => t)
    (fun s a => match r with
      | .g n => if n = 0 then s else wrN s (a + 128 + 8 * (n % 64)) 8 x
      | .v n => wrN s (a + 640 + 128 * (n % 32)) 128 x
      | _ => s)
    (fun c => match r with
      | .g n => if n ≠ 0 ∧ c.glive.getLsbD n then { c with g := c.g.set (n % 64) (BitVec.ofNat 64 x) (by omega) } else c
      | .v n => if c.vlive.getLsbD n then { c with v := c.v.set (n % 32) (BitVec.ofNat 1024 x) (by omega) } else c
      | _ => c)

/-- Change a completion counter of a task; a continuation that waits for it may fire (R186, R199). -/
def addCtr (s : State) (task pid : Nat) (k : Nat) (delta : BitVec 16) : State :=
  let f : Vector (BitVec 16) 4 → Vector (BitVec 16) 4 := fun r => r.set (k % 4) (r[k % 4] + delta) (by omega)
  updTask s task pid (fun t => { t with c := f t.c })
    (fun s a => wr64 s (a + 24) (ctrWord (f (ctrOf (rd64 s (a + 24))))))
    (fun c =>
      let v := f c.c
      let hit := c.event == 1 && decide ((v[(c.evarg.toNat % 4) % 4]).toNat ≤ (c.evarg.toNat / 2 ^ 16) % 2 ^ 16)
      { c with c := v, fired := c.fired || hit })

/-- OR flags into the FPFLAG of a task (R39, R402). -/
def addFlags (s : State) (task pid : Nat) (fl : FpFlags) : State :=
  updTask s task pid (fun t => { t with flags := t.flags ||| fl })
    (fun s a => wr64 s (a + 32) (rd64 s (a + 32) ||| (toW fl <<< 9)))
    (fun c => { c with flags := c.flags ||| fl })

/-- Fire the event of every waiting continuation that `hit` names by its task's cluster, task, kind and EVARG, and of every
strand that is stopped for a split and leaves such a record (R228). -/
def fireConts (s : State) (hit : Nat → Task → Nat → Word → Bool) : State :=
  { s with
    conts := s.conts.map (fun c => if hit c.cl c.task c.event c.evarg then { c with fired := true } else c)
    parked := s.parked.map (fun t => match t.ending with
      | some (.split n e a x _) => if hit t.cl t.task e a then { t with ending := some (.split n e a x true) } else t
      | _ => t) }

/-- Fill the full-empty bit of a word: waiting watches of it fire (R228). -/
def feFill (s : State) (a : Nat) : State :=
  let s := feSet s a true
  let hit : Cont → Bool := fun c => c.event == 2 && c.watch && c.evAddr == wordOf a
  { s with conts := listUpd s.conts hit (fun c => { c with fired := true }) }

/-! ### Engine operations (R184-R190) -/

/-- The cycle in which the instruction at pc0 issues: that of the first line of its access (R57, R160). -/
def issueCycle (t : Strand) (s : State) : Nat := t.issued.getD s.cycle
def issueTick (t : Strand) (s : State) : Nat := issueCycle t s / 8

/-- An operation of the current strand, before its own fields. -/
def mkOp (s : State) (t : Strand) (k : OpKind) (c : Option R6) (dst : Option RegRef) (scope : Nat) (args : List Word) : Op :=
  { id := s.nextId, kind := k, task := t.task.id, pid := t.task.pid, root := t.task.root, cl := t.cl, lane := t.lane
    pc := t.pc0, ctr := c.map (fun r => r.toNat % 4), dst := dst, scope := scope, unit := 0, seq := 0, args := args
    i := 0, j := 0, acc := [], bytes := [], out := [], stopped := false, leases := [], deps := t.fence, sup := t.task.fq
    tick := issueTick t s, arr := issueTick t s, flags := 0, fin := none }

/-- The destination of an engine form: g0 is never leased (R187). -/
def dstG (d : R6) : Option RegRef := if d = 0 then none else some (.g d.toNat)

/-- The counter is full (R185). -/
def ctrFull (t : Strand) (c : R6) : Bool := getC t c == 0xFFFF

/-- Issue an engine operation: count it and put it behind the pending ones (R185, R194). -/
def issueOp (s : State) (t : Strand) (o : Op) : State :=
  let t := match o.ctr with
    | some k => setC (BitVec.ofNat 6 k) (getC t (BitVec.ofNat 6 k) + 1) t
    | none => t
  { putStrand s (advance t) with ops := s.ops ++ [o], nextId := s.nextId + 1 }

/-- An engine form whose only check is COUNTER. -/
def engineOp (i : Instr) (g : Guard) (c : R6) (mk : Strand → State → Op) (s : State) : Out :=
  issue i g advance (fun t s =>
    if ctrFull t c then raise i .counter s t 0 else issueOp s t (mk t s)) s

/-- The kinds of operation that queue on a copy channel. -/
def onChannel : OpKind → Bool
  | .cpy | .cpy2d | .gath | .scat | .fld | .fst | .kvapp | .redm => true
  | _ => false

/-- Entries of channel queues have become free: the continuations that wait for one fire (R182, R228). -/
def chanFreed (s : State) (l : List Op) : State :=
  fireConts s (fun cl k event evarg => event == 3
    && l.any (fun o => onChannel o.kind && o.cl == cl && o.pid == k.pid && o.unit == evarg.toNat % 4))

/-- A collective is over: every member of this package has issued its operation, none is pending, and no wave goes on
(R396, R397). -/
def collOver (s : State) (c : Coll) : Bool :=
  decide (c.members.length ≤ c.ops.length) && c.waves.isEmpty && c.ops.all (fun e => !(s.ops.any (fun o => o.id == e.2)))

/-- Forget the collectives that are over. -/
def dropColls (s : State) : State := { s with colls := s.colls.filter (fun c => !collOver s c) }

/-- Remove the pending operations that `p` names. -/
def dropOps (s : State) (p : Op → Bool) : State :=
  dropColls (chanFreed { s with ops := s.ops.filter (fun o => !p o) } (s.ops.filter p))

/-- Remove a pending operation. -/
def dropOp (s : State) (id : Nat) : State := dropOps s (fun o => o.id == id)

/-- Change a pending operation. -/
def updOp (s : State) (id : Nat) (f : Op → Op) : State := { s with ops := listUpd s.ops (fun o => o.id == id) f }

/-- Completion: the destination register, then the decrement; the leases end with the operation (R185). -/
def completeOp (s : State) (o : Op) (x : Nat) : State :=
  let s := match o.dst with
    | some r => writeReg s o.task o.pid r x
    | none => s
  let s := match o.ctr with
    | some k => addCtr s o.task o.pid k 0xFFFF
    | none => s
  dropOp s o.id

/-- An engine fault stops its operation and queues an event (R202): `unitKind`, the unit and its number, the faulting
VA and the unit index. -/
def stopOp (s : State) (o : Op) (cause : Cause) (unitKind : Nat) (va : Word) (index : Word) : State :=
  let c := causeCode cause
  let ev : FaultEv :=
    { pid := o.pid, cl := o.cl, cause := c, kind := 1
      word0 := recWord0 c 1 false false o.pid o.cl 0 0 0
      words := [0, 0, 0, va, index,
        BitVec.ofNat 64 (unitKind + 2 ^ 4 * (o.unit % 16) + 2 ^ 16 * (o.seq % 2 ^ 16)), toW o.pc]
      subject := .op o.id }
  whiskOnCause (queueEvent (updOp s o.id (fun o => { o with stopped := true })) ev) o.cl o.pid c

/-! ### The end of a segment (R222-R230) -/

/-- A gang member's segment has ended (R232). -/
def gangEnd (s : State) (t : Strand) (leaves : Bool) : State :=
  if t.seg.gang = 0 then s
  else updCp s t.cl t.task.pid (fun k => { k with gangs := listUpd k.gangs (fun g => g.num == t.seg.gang) (fun g =>
    { g with
      active := setDel g.active t.seg.member
      alive := if leaves then setDel g.alive t.seg.member else g.alive }) })

/-- The segment ends in this cycle: its open batch closes, its bookings are released but a gang member's lane, and its holds
end (R222, R232, R271). -/
def closeSegment (s : State) (t : Strand) : State :=
  let (t, s) := closeBatch s t s.cycle
  let s := updCp s t.cl t.task.pid (fun k => clearReq (releaseFrom k t.seg.sid (tickNow s + 1)) t.lane)
  freeHeld s t.task.pid t.seg.xl

/-- The running segment ends, and its strand leaves its lane. -/
def endSegment (s : State) (t : Strand) : State :=
  closeSegment { s with strands := tabDel s.strands (laneKey t) } t

/-- A continuation record of the strand as it stands (R229). -/
def contOf (s : State) (t : Strand) : Cont :=
  { task := t.task, pc0 := t.pc0, pc1 := t.pc1, pc2 := t.pc2, ds := t.ds, roam := false, ganged := t.seg.gang != 0
    queue := if t.task.fq then 0 else t.seg.queue, prio := t.seg.prio, ts := 0, resume := 0, tgt := 0, c := t.c
    glive := t.seg.glive, vlive := t.seg.vlive
    g := t.g.mapFinIdx (fun i x _ => if t.seg.glive.getLsbD i ∧ i ≠ 0 then x else 0)
    v := t.v.mapFinIdx (fun i x _ => if t.seg.vlive.getLsbD i then x else 0)
    p := t.p, rm := t.rm, flags := flagsDone t, event := 0, evarg := 0, blk := t.seg.blk
    gang := t.seg.gang, member := t.seg.member
    after := tilesUntil (getCp s t.cl t.task.pid) t.seg.sid
    fence := t.fence, evAddr := 0
    cl := t.cl, lane := t.lane, ctx := t.ctx, closing := true, complete := tickNow s + 2
    watch := false, fired := false, queued := false, hbm := none }

/-- The register is in the live set that a record of the strand saves (R188). -/
def regLive (t : Strand) : RegRef → Bool
  | .g n => t.seg.glive.getLsbD n
  | .v n => t.seg.vlive.getLsbD n
  | _ => true

/-- Results that pending operations would write to registers outside the live set are discarded (R188). -/
def dropDead (s : State) (t : Strand) : State :=
  { s with ops := s.ops.map (fun o =>
      if o.task == t.task.id && !(o.dst.all (regLive t)) then { o with dst := none } else o) }

/-- The split of a strand whose writes are complete: the segment ends and leaves the record `c` (R226, R227). -/
def splitNow (s : State) (t : Strand) (c : Cont) : State := addCont (dropDead (closeSegment (gangEnd s t false) t) t) c

/-- An explicit split waits for every pending register write before it ends the segment (R227). -/
def splitWith (s : State) (t : Strand) (c : Cont) : State :=
  if settled s t then splitNow { s with strands := tabDel s.strands (laneKey t) } t c
  else putStrand s { t with hold := pendEnd s t }

/-- Watch entries in use on a cluster (R228). -/
def watchesUsed (s : State) (cl : Nat) : Nat := s.conts.countP (fun c => c.cl == cl && c.watch && !c.queued)

/-- The record of an implicit split at relative cycle `n`, which resumes at the instruction itself (R225, R226). A
full-empty event takes a watch entry, or becomes a time event 64 ticks later when none is free (R228). -/
def implicitCont (s : State) (t : Strand) (n event : Nat) (evarg : Word) (evAddr : Nat) (fired : Bool) : Cont :=
  let c := { contOf s t with
    ts := t.seg.boff + n / 8, resume := n % 8, event := event, evarg := evarg, evAddr := evAddr, fired := fired }
  if event ≠ 2 then c
  else if watchesUsed s t.cl < 64 then { c with watch := true, fired := feGet s evAddr }
  else { c with event := 7, evarg := BitVec.ofNat 64 (tickNow s + 64) }

/-- An implicit split at the cycle of issue: the strand stops, and its segment ends once its writes are complete (R225,
R227). -/
def implicitSplit (s : State) (t : Strand) (event : Nat) (evarg : Word) (evAddr : Nat) : State :=
  let n := relCycle t s
  if settled s t then
    splitNow { s with strands := tabDel s.strands (laneKey t) } t (implicitCont s t n event evarg evAddr false)
  else stopStrand s t (.split n event evarg evAddr false)

end Sys2Proof.Machine
end

