-- ==== Sys2Proof/Machine/Alu.lean ====
section
/-! DEFINITION. ALU and ALU-immediate instructions, majors 0x01 and 0x02 (spec/04 R93-R98). -/

namespace Sys2Proof.Machine

/-- ADD (R94). -/
def execAdd (g : Guard) (d a b : R6) (s : State) : Out :=
  aluOp (.add g d a b) g 1 d (fun t => getG t a + getG t b) s

/-- SUB (R94). -/
def execSub (g : Guard) (d a b : R6) (s : State) : Out :=
  aluOp (.sub g d a b) g 1 d (fun t => getG t a - getG t b) s

/-- MUL (R94). -/
def execMul (g : Guard) (d a b : R6) (s : State) : Out :=
  aluOp (.mul g d a b) g 3 d (fun t => getG t a * getG t b) s

/-- MULH (R94). -/
def execMulh (g : Guard) (d a b : R6) (s : State) : Out :=
  aluOp (.mulh g d a b) g 3 d (fun t => mulHigh (getG t a) (getG t b)) s

/-- MULHS (R94). -/
def execMulhs (g : Guard) (d a b : R6) (s : State) : Out :=
  aluOp (.mulhs g d a b) g 3 d (fun t => mulHighS (getG t a) (getG t b)) s

/-- DIV (R95). -/
def execDiv (g : Guard) (d a b : R6) (s : State) : Out :=
  divOp (.div g d a b) g d (fun t => udiv (getG t a) (getG t b)) s

/-- DIVS (R95). -/
def execDivs (g : Guard) (d a b : R6) (s : State) : Out :=
  divOp (.divs g d a b) g d (fun t => sdivT (getG t a) (getG t b)) s

/-- REM (R95). -/
def execRem (g : Guard) (d a b : R6) (s : State) : Out :=
  divOp (.rem g d a b) g d (fun t => urem (getG t a) (getG t b)) s

/-- REMS (R95). -/
def execRems (g : Guard) (d a b : R6) (s : State) : Out :=
  divOp (.rems g d a b) g d (fun t => sremT (getG t a) (getG t b)) s

/-- AND (R94). -/
def execAnd (g : Guard) (d a b : R6) (s : State) : Out :=
  aluOp (.and g d a b) g 1 d (fun t => getG t a &&& getG t b) s

/-- OR (R94). -/
def execOr (g : Guard) (d a b : R6) (s : State) : Out :=
  aluOp (.or g d a b) g 1 d (fun t => getG t a ||| getG t b) s

/-- XOR (R94). -/
def execXor (g : Guard) (d a b : R6) (s : State) : Out :=
  aluOp (.xor g d a b) g 1 d (fun t => getG t a ^^^ getG t b) s

/-- ANDN (R94). -/
def execAndn (g : Guard) (d a b : R6) (s : State) : Out :=
  aluOp (.andn g d a b) g 1 d (fun t => getG t a &&& ~~~ getG t b) s

/-- ORN (R94). -/
def execOrn (g : Guard) (d a b : R6) (s : State) : Out :=
  aluOp (.orn g d a b) g 1 d (fun t => getG t a ||| ~~~ getG t b) s

/-- SHL (R94). -/
def execShl (g : Guard) (d a b : R6) (s : State) : Out :=
  aluOp (.shl g d a b) g 1 d (fun t => getG t a <<< shCount (getG t b)) s

/-- SHR (R94). -/
def execShr (g : Guard) (d a b : R6) (s : State) : Out :=
  aluOp (.shr g d a b) g 1 d (fun t => getG t a >>> shCount (getG t b)) s

/-- SAR (R94). -/
def execSar (g : Guard) (d a b : R6) (s : State) : Out :=
  aluOp (.sar g d a b) g 1 d (fun t => (getG t a).sshiftRight (shCount (getG t b))) s

/-- ROL (R94). -/
def execRol (g : Guard) (d a b : R6) (s : State) : Out :=
  aluOp (.rol g d a b) g 1 d (fun t => (getG t a).rotateLeft (shCount (getG t b))) s

/-- MIN (R94). -/
def execMin (g : Guard) (d a b : R6) (s : State) : Out :=
  aluOp (.min g d a b) g 1 d (fun t => minU (getG t a) (getG t b)) s

/-- MAX (R94). -/
def execMax (g : Guard) (d a b : R6) (s : State) : Out :=
  aluOp (.max g d a b) g 1 d (fun t => maxU (getG t a) (getG t b)) s

/-- MINS (R94). -/
def execMins (g : Guard) (d a b : R6) (s : State) : Out :=
  aluOp (.mins g d a b) g 1 d (fun t => minS (getG t a) (getG t b)) s

/-- MAXS (R94). -/
def execMaxs (g : Guard) (d a b : R6) (s : State) : Out :=
  aluOp (.maxs g d a b) g 1 d (fun t => maxS (getG t a) (getG t b)) s

/-- CLZ (R94). -/
def execClz (g : Guard) (d a : R6) (s : State) : Out :=
  aluOp (.clz g d a) g 1 d (fun t => clz64 (getG t a)) s

/-- CTZ (R94). -/
def execCtz (g : Guard) (d a : R6) (s : State) : Out :=
  aluOp (.ctz g d a) g 1 d (fun t => ctz64 (getG t a)) s

/-- POPC (R94). -/
def execPopc (g : Guard) (d a : R6) (s : State) : Out :=
  aluOp (.popc g d a) g 1 d (fun t => popc64 (getG t a)) s

/-- SEL: p[c] chooses between g[a] and g[b] (R94). -/
def execSel (g : Guard) (d a b c : R6) (s : State) : Out :=
  aluOp (.sel g d a b c) g 1 d (fun t => if getP t (low3 c) then getG t a else getG t b) s

/-- BFX (R96). -/
def execBfx (g : Guard) (d a pos lm1 : R6) (sg : Bool) (s : State) : Out :=
  aluOp (.bfx g d a pos lm1 sg) g 1 d (fun t => bitField (getG t a) pos.toNat (lm1.toNat + 1) sg) s

/-- BFI (R96). -/
def execBfi (g : Guard) (d a b pos lm1 : R6) (s : State) : Out :=
  aluOp (.bfi g d a b pos lm1) g 1 d
    (fun t => bitInsert (getG t b) (getG t a) pos.toNat (lm1.toNat + 1)) s

/-- LEA: wraps as an address does (R94, R98). -/
def execLea (g : Guard) (d a b : R6) (sc : BitVec 2) (s : State) : Out :=
  aluOp (.lea g d a b sc) g 1 d (fun t => wrap48 (getG t a + (getG t b <<< sc.toNat))) s

/-- ADDSAT: saturates and then sets FPFLAG.SAT (R97). -/
def execAddsat (g : Guard) (u : Bool) (d a b : R6) (s : State) : Out :=
  laneOp (.addsat g u d a b) g advance (fun t =>
    let r := addSat64 u (getG t a) (getG t b)
    advance (lateFlags s.cycle 1 r.2 (setG s.cycle 1 d r.1 t))) s

/-- ADDI (R98). -/
def execAddi (g : Guard) (d a : R6) (imm : BitVec 32) (s : State) : Out :=
  aluOp (.addi g d a imm) g 1 d (fun t => getG t a + sxW imm) s

/-- MULI (R98). -/
def execMuli (g : Guard) (d a : R6) (imm : BitVec 32) (s : State) : Out :=
  aluOp (.muli g d a imm) g 3 d (fun t => getG t a * sxW imm) s

/-- ANDI (R98). -/
def execAndi (g : Guard) (z : Bool) (d a : R6) (imm : BitVec 32) (s : State) : Out :=
  aluOp (.andi g z d a imm) g 1 d (fun t => getG t a &&& immOf z imm) s

/-- ORI (R98). -/
def execOri (g : Guard) (z : Bool) (d a : R6) (imm : BitVec 32) (s : State) : Out :=
  aluOp (.ori g z d a imm) g 1 d (fun t => getG t a ||| immOf z imm) s

/-- XORI (R98). -/
def execXori (g : Guard) (z : Bool) (d a : R6) (imm : BitVec 32) (s : State) : Out :=
  aluOp (.xori g z d a imm) g 1 d (fun t => getG t a ^^^ immOf z imm) s

/-- SHLI (R98). -/
def execShli (g : Guard) (d a n : R6) (s : State) : Out :=
  aluOp (.shli g d a n) g 1 d (fun t => getG t a <<< n.toNat) s

/-- SHRI (R98). -/
def execShri (g : Guard) (d a n : R6) (s : State) : Out :=
  aluOp (.shri g d a n) g 1 d (fun t => getG t a >>> n.toNat) s

/-- SARI (R98). -/
def execSari (g : Guard) (d a n : R6) (s : State) : Out :=
  aluOp (.sari g d a n) g 1 d (fun t => (getG t a).sshiftRight n.toNat) s

/-- ROLI (R98). -/
def execRoli (g : Guard) (d a n : R6) (s : State) : Out :=
  aluOp (.roli g d a n) g 1 d (fun t => (getG t a).rotateLeft n.toNat) s

/-- MINI (R98). -/
def execMini (g : Guard) (u : Bool) (d a : R6) (imm : BitVec 32) (s : State) : Out :=
  aluOp (.mini g u d a imm) g 1 d (fun t => if u then minU (getG t a) (toW imm) else minS (getG t a) (sxW imm)) s

/-- MAXI (R98). -/
def execMaxi (g : Guard) (u : Bool) (d a : R6) (imm : BitVec 32) (s : State) : Out :=
  aluOp (.maxi g u d a imm) g 1 d (fun t => if u then maxU (getG t a) (toW imm) else maxS (getG t a) (sxW imm)) s

/-- LEAI (R98). -/
def execLeai (g : Guard) (d a : R6) (sc : BitVec 2) (imm : BitVec 32) (s : State) : Out :=
  aluOp (.leai g d a sc imm) g 1 d (fun t => wrap48 (getG t a + (sxW imm <<< sc.toNat))) s

end Sys2Proof.Machine
end

