-- ==== Sys2Proof/Machine/Fabric.lean ====
section
/-! DEFINITION. Writes on their way to another die, to a host or to a replicated page, what engine reads see, and when a
release covers them (spec/14 R361-R372, R378). -/

namespace Sys2Proof.Machine

/-! ### Homes and replicas -/

/-- Where an address is at home: a die 0-7, or 8 + host port. -/
def homeOf (a : Nat) : Nat :=
  if a < 2 ^ 40 then a / 2 ^ 37
  else match physCluster a with
    | some c => dieOf c
    | none => 8 + (a - 2 ^ 64) / 2 ^ 63

/-- The frame of a cluster's replica of a record (R371). -/
def replicaOf (s : State) (cl p fri : Nat) : Option Nat :=
  ((getCp s cl p).replicas.find? (fun e => e.1 == fri)).map (·.2)

/-- Clusters that hold a replica of the record. -/
def replicaClusters (s : State) (p fri : Nat) : List Nat :=
  (s.clParts.filter (fun e => e.1 % 16 == p && e.2.replicas.any (fun r => r.1 == fri))).map (fun e => e.1 / 16)

/-! ### Egress buffers (R370, R372) -/

/-- Bytes with the part of a buffered write that falls among them. -/
def overlay (a : Nat) (bs : List Byte) (e : EgWrite) : List Byte :=
  bs.mapIdx (fun i b => if e.addr ≤ a + i ∧ a + i < e.addr + e.bytes.length then e.bytes.getD (a + i - e.addr) b else b)

/-- What an engine of die `d` reads at `a`: a word with a write in its die's egress buffers is answered from there. -/
def engRead (s : State) (d a n : Nat) : List Byte :=
  (s.egress.filter (fun e => e.src == d)).foldl (overlay a) (rdBytes s.mem a n)

/-- A write falls among `n` bytes at `a`. -/
def meets (a n : Nat) (e : EgWrite) : Bool := decide (e.addr < a + n ∧ a < e.addr + e.bytes.length)

/-- An engine of die `d` has been answered from its die's buffers for `n` bytes at `a`: those writes are covered by every later
release of the die, so that no read that happens after this one finds an older value (R368, R370). -/
def seeWrites (s : State) (d a n : Nat) : State :=
  { s with egress := listUpd s.egress (fun e => e.src == d && meets a n e) (fun e => { e with seen := true }) }

/-- Fill the full-empty bits of the words that `n` bytes at `a` touch. -/
def fillWords (s : State) (a n : Nat) : State :=
  (List.range ((a % 8 + n + 7) / 8)).foldl (fun s i => feFill s (wordOf a + 8 * i)) s

/-- The banks that `n` bytes at `a` lie in (R56). -/
def banksOf (a n : Nat) : List Nat :=
  match physCluster a with
  | none => []
  | some cl => (List.range ((a % 64 + n + 63) / 64)).map (fun i => 32 * cl + (a / 64 + i) % 32)

/-- The engine-port writes of the next cycle have begun at a bank of these bytes: the engine-port reads of this cycle are over
there (R365). -/
def bankShut (s : State) (a n : Nat) : Bool := (banksOf a n).any (fun b => s.written.contains b)

/-- A write is performed at its home. -/
def perform (s : State) (a : Nat) (bs : List Byte) (full : Bool) : State :=
  let s := { wrMem s a bs with written := (banksOf a bs.length).foldl setAdd s.written }
  if full then fillWords s a bs.length else s

/-- The command's leases have not ended: its batch has not committed (R272, R274). -/
def tileHolds (s : State) (c : TileCmd) : Bool := !(c.commit.any (fun n => decide (n ≤ s.cycle)))

/-- A tile command of the address's cluster leases some of the bytes (R190, R275). -/
def tileLeased (s : State) (a n : Nat) : Bool :=
  match physCluster a with
  | none => false
  | some cl =>
    let hit := fun (r : Nat × Nat) => decide (r.1 < a + n ∧ a < r.1 + r.2)
    s.clParts.any (fun e => e.1 / 16 == cl && e.2.tiles.any (fun c => tileHolds s c && c.leases.any hit))

/-- A tile command leases some of these bytes of a replica of the record: no write to them is sequenced (R275, R371). -/
def replLeased (s : State) (p fri off n : Nat) : Bool :=
  (replicaClusters s p fri).any (fun c => (replicaOf s c p fri).any (fun f => tileLeased s (sramBase c f + off) n))

/-- A buffered write must be performed before a later one: the same source unit and destination (R369), or a common
word, whose writes keep the order in which the source die's readers see them (R368). -/
def behind (e later : EgWrite) : Bool :=
  (e.unit == later.unit && e.dst == later.dst)
    || decide (wordOf e.addr < later.addr + later.bytes.length ∧ wordOf later.addr < e.addr + e.bytes.length)

/-- Perform the buffered write at position `i`. -/
def drainAt (s : State) (i : Nat) : State :=
  match s.egress[i]? with
  | none => s
  | some e => perform { s with egress := s.egress.eraseIdx i } e.addr e.bytes e.full

/-- The buffered writes that may be performed next: none before it in its order, and none into a range that a tile command
leases (R190, R275, R368, R369). -/
def drainable (s : State) : List Nat :=
  (List.range s.egress.length).filter (fun i =>
    match s.egress[i]? with
    | none => false
    | some e => !tileLeased s e.addr e.bytes.length && !((s.egress.take i).any (fun q => behind q e)))

/-- The buffered writes that `want` names or that come before one of them in its order. -/
def wanted (want : EgWrite → Bool) : List EgWrite → List (EgWrite × Bool)
  | [] => []
  | e :: l =>
    let r := wanted want l
    (e, want e || r.any (fun x => x.2 && behind e x.1)) :: r

/-- Perform the marked writes in their order. None is held by a tile command: the writes on their way into a range are performed
before the range is leased (`settleLeases`), and a unit holds the later ones back (R190, R275; log 7). -/
def drainMarked : List (EgWrite × Bool) → List EgWrite → State → State
  | [], kept, s => { s with egress := kept }
  | (e, m) :: l, kept, s =>
    if m then drainMarked l kept (perform s e.addr e.bytes e.full) else drainMarked l (kept ++ [e]) s

/-- Perform the buffered writes that `want` names, with what comes before them. -/
def drainOut (s : State) (want : EgWrite → Bool) : State := drainMarked (wanted want s.egress) [] s

/-- A replica applies a write (R371). -/
def applyRepl (s : State) (w : ReplWrite) (cl : Nat) : State :=
  match replicaOf s cl w.pid w.fri with
  | some f => perform s (sramBase cl f + w.off) w.bytes w.full
  | none => s

/-- The replicas that `want` names by partition and cluster apply every write that is sequenced, in the order of sequencing
(R371). -/
def settleRepl (s : State) (want : Nat → Nat → Bool) : State :=
  let mine := fun (w : ReplWrite) => w.seqd && w.left.any (want w.pid)
  let s' := (s.repl.filter mine).foldl (fun s w => (w.left.filter (want w.pid)).foldl (fun s c => applyRepl s w c) s) s
  let rest := listUpd s.repl mine (fun w => { w with left := w.left.filter (fun c => !want w.pid c) })
  { s' with repl := rest.filter (fun w => !(w.seqd && w.left.isEmpty)) }

/-- A release at PACKAGE scope or wider by an agent of die `d`: the writes that completed operations left in the die's
buffers, and those that an engine of the die has read from there, are performed at their homes, and every replica applies what
is sequenced, so that no read that happens after the release finds an older value (R363, R368, R370, R371; log 7). -/
def relDrain (s : State) (d : Nat) : State :=
  settleRepl (drainOut s (fun e => e.src == d && (e.seen || !(s.ops.any (fun o => o.id == e.op))))) (fun _ _ => true)

/-- Before a tile command of cluster `cl` leases ranges, the writes on their way into them are performed, and the cluster's
replicas apply what is sequenced (R190, R275, R371; log 7). -/
def settleLeases (s : State) (cl : Nat) (l : List (Nat × Nat)) : State :=
  settleRepl (drainOut s (fun e => l.any (fun r => meets r.1 r.2 e))) (fun _ c => c == cl)

/-- Before an engine of die `d` reads and writes `n` bytes at `a` at their home, the buffered writes of its die to them are
performed (R363, R368, R370). -/
def settleWord (s : State) (d a n : Nat) : State := drainOut s (fun e => e.src == d && meets a n e)

/-- Number of an operation's source unit (R369). -/
def unitNo (o : Op) : Nat := 64 * o.cl + (if onChannel o.kind then o.unit else 8 + o.lane)

/-- An engine write of bytes, with the full-empty bits of its words on request (R195): to a replicated page it goes to the
sequencer die (R371), to another die or a host it stands in an egress buffer (R370, R372). -/
def putWord (s : State) (o : Op) (w : OutWord) : State :=
  if w.repl then { s with repl := s.repl ++ [⟨o.pid, w.fri, w.addr % 32768, unitNo o, o.id, w.bytes, w.full, false, []⟩] }
  else if homeOf w.addr = dieOf o.cl then perform s w.addr w.bytes w.full
  else { s with egress := s.egress ++ [⟨dieOf o.cl, homeOf w.addr, unitNo o, o.id, o.task, w.addr, w.bytes, w.full, false⟩] }

/-- The units under way of the operations that `want` names are finished: their words are written in their order. -/
def flushOut (s : State) (want : Op → Bool) : State :=
  let s' := (s.ops.filter want).foldl (fun s o => o.out.foldl (fun s w => putWord s o w) s) s
  { s' with ops := listUpd s.ops want (fun o => { o with out := [] }) }

/-- Before its frame is moved, spilled or copied, the units that write it are finished, and every write on its way to it is
performed (R203). -/
def settleFrame (s : State) (a : Nat) : State :=
  drainOut (flushOut s (fun o => o.out.any (fun w => decide (a ≤ w.addr ∧ w.addr < a + 32768)))) (meets a 32768)

/-! ### Completion (R185, R370-R372, R378) -/

/-- The operation's writes have gone as far as its scope demands. -/
def drained (s : State) (o : Op) : Bool :=
  !(s.egress.any (fun e => e.op == o.id && (decide (5 ≤ o.scope) || (decide (e.dst < 8) && decide (3 ≤ o.scope)))))
    && !(s.repl.any (fun e => e.op == o.id))

/-- The fences before an operation let it read, or write and complete (R378). -/
def depsMet (s : State) (o : Op) (rd wr : Bool) : Bool :=
  o.deps.all (fun d =>
    let pending := s.ops.any (fun q => q.id == d.id)
    let away := d.home && d.wr && s.egress.any (fun e => e.op == d.id)
    !((rd && d.rd && (pending || away)) || (wr && d.wr && (pending || away))))

/-- The operation has done everything but its completion, and may complete. -/
def mayComplete (s : State) (o : Op) : Bool := o.fin.isSome && drained s o && depsMet s o false true

/-- Complete an operation with its result and its flags (R185, R310). -/
def finishOp (s : State) (o : Op) (x : Nat) : State :=
  completeOp (if o.flags = 0 then s else addFlags s o.task o.pid o.flags) o x

/-- Everything but the completion is done: it completes at once when it may. -/
def doneOp (s : State) (id x : Nat) : State :=
  let s := updOp s id (fun o => { o with fin := some x })
  match s.ops.find? (fun o => o.id == id) with
  | some o => if mayComplete s o then finishOp s o x else s
  | none => s

/-- The pending operations of a strand's task as a fence sees them (R378): `kind` 1 REL, 2 ACQ, 3 AR. After an AR fence no
read is performed before every earlier operation has completed, as the store-buffering case requires. One that has completed at
a narrower scope counts as pending while a write of its own is on its way. -/
def fenceDeps (s : State) (task kind scope : Nat) : List Dep :=
  let reads : OpKind → Bool := fun k => match k with
    | .fst | .pgalloc | .pgfree | .launch | .msend | .dqsend => false
    | _ => true
  let wr := kind % 2 == 1
  (s.ops.filter (fun o => o.task == task)).filterMap (fun o =>
    let rd := decide (2 ≤ kind) && (wr || reads o.kind)
    if rd || wr then some ⟨o.id, rd, wr, decide (3 ≤ scope)⟩ else none)
  ++ (if wr && decide (3 ≤ scope) then
      (s.egress.filter (fun e => e.task == task && !(s.ops.any (fun o => o.id == e.op)))).map
        (fun e => ⟨e.op, decide (2 ≤ kind), true, true⟩)
    else [])

/-! ### Frames that move at once (R154, R178) -/

/-- Make the record's frame local to `cl` at once (PGFILL, PGPIN): bytes and full-empty bits move, LOC is rewritten and
its translations are dropped (R154). None without a frame within quota. -/
def makeLocal (s : State) (cl p fri : Nat) : Option State :=
  if localRec s p fri cl then some s
  else
    match frameInQuota s cl p fri with
    | none => none
    | some (f, s) =>
      let s := settleFrame s (recPhys s p fri)
      let s := copyFrame s (sramBase cl f) (recPhys s p fri)
      let s := returnStorage s p fri
      some (invalidate (setLoc s p fri 1 (sramLoc cl f)) p fri)

end Sys2Proof.Machine
end

