-- ==== Sys2Proof/Machine/LaneMem.lean ====
section
/-! DEFINITION. Page-store accesses by a lane, majors 0x08 and 0x09 but VLDB (spec/02 R56, R57; spec/06 R160,
R165-R173). -/

namespace Sys2Proof.Machine

/-! ### Windows and lines (R56, R57, R160) -/

/-- Bank pair of a page-store address (R56). -/
def bankPair (a : Nat) : Nat := a / 128 % 16

/-- The first relative cycle at or after `n` that is a window of bank pair `q` for lane `k` (R57). -/
def nextWindow (k q n : Nat) : Nat := n + (k + q + 16 - n % 8) % 8

/-- Insert a line in ascending frame offset, once. -/
def lineInsert (a : Nat) : List Nat → List Nat
  | [] => [a]
  | b :: l =>
    if a = b then b :: l else if a % 32768 < b % 32768 then a :: b :: l else b :: lineInsert a l

/-- The distinct lines that hold `n` bytes at each address, in ascending frame offset (R160). -/
def linesOf (l : List (Nat × Nat)) : List Nat :=
  let all := l.flatMap (fun e => (List.range ((e.1 % 128 + e.2 + 127) / 128)).map (fun i => e.1 / 128 * 128 + 128 * i))
  all.foldl (fun acc a => if acc.contains a then acc else lineInsert a acc) []

/-- The cycle of each line of an access that reaches issue at relative cycle `n` (R160). -/
def lineCycles (k n : Nat) : List Nat → List (Nat × Nat) → List (Nat × Nat)
  | [], _ => []
  | a :: l, used =>
    let q := bankPair a
    let from' := (used.filter (fun u => u.1 == q)).foldl (fun m u => max m (u.2 + 1)) n
    let c := nextWindow k q from'
    (a, c) :: lineCycles k n l ((q, c) :: used)

/-- The last relative cycle of an access (e of R160). -/
def lastLine (n : Nat) (cs : List (Nat × Nat)) : Nat := cs.foldl (fun m c => max m c.2) n

/-- The cycle in which the instruction at pc0 reached issue, relative to the segment (R160, R402). -/
def reachRel (t : Strand) (s : State) : Nat := t.reach.getD s.cycle - 8 * t.seg.start

/-- The cycle of each line, counted from device reset, of an access that takes these lines. -/
def lineTimes (t : Strand) (s : State) (lines : List Nat) : List (Nat × Nat) :=
  (lineCycles t.lane (reachRel t s) lines []).map (fun c => (c.1, 8 * t.seg.start + c.2))

/-- Memory as an access sees it whose earlier lines were read in their own cycles (R160). -/
def laneView (t : Strand) (s : State) : List Host.Cell :=
  t.lineBuf.foldl (fun m l => wrBytes m l.1 (toLe 128 l.2.toNat)) s.mem

/-- First cycle that the strand's segment no longer has (R224). -/
def endCycle (t : Strand) : Nat := 8 * (t.seg.start + t.seg.len)

/-- Perform the writes of a store whose lines' cycles have come. -/
def linesDue (s : State) (ws : List (Nat × Nat × List Byte)) : State :=
  (ws.filter (fun w => decide (w.1 ≤ s.cycle))).foldl (fun s w => wrMem s w.2.1 w.2.2) s

/-- A store in its issue cycle: lines whose cycle it is are performed, the others wait for theirs, and those after the
segment's end are dropped; instructions behind it issue after the last line (R160, R224). Each write stands with the cycle
of its line. -/
def putLines (t : Strand) (s : State) (ws : List (Nat × Nat × List Byte)) : Strand × State :=
  let last := ws.foldl (fun m w => max m w.1) s.cycle
  ({ t with hold := last + 1, lineOut := ws.filter (fun w => decide (s.cycle < w.1 ∧ w.1 < endCycle t)) },
    linesDue s (ws.filter (fun w => decide (w.1 < endCycle t))))

/-! ### Checks (R166, R189) -/

/-- A pending operation or a tile command of the cluster leases some of the `n` bytes at `a`: an operation's range is
leased while it lies in the cluster's page store (R189, R275). -/
def rangeLeased (s : State) (cl : Nat) (a n : Nat) : Bool :=
  let hit := fun (x len : Nat) => decide (x < a + n ∧ a < x + len)
  (s.ops.any (fun o => o.cl == cl && o.leases.any (fun r =>
      localRec s o.pid r.1 cl && hit (recPhys s o.pid r.1 + r.2.1) r.2.2)))
    || s.clParts.any (fun e => e.1 / 16 == cl && e.2.tiles.any (fun c => tileHolds s c && c.leases.any (fun r => hit r.1 r.2)))

/-- What an access does to its page. -/
inductive Acc where
  | load | store
  /-- It reads the full-empty bit only. -/
  | probe
  /-- It reads the word only when its bit is 1. -/
  | take
deriving DecidableEq, Repr

/-- The full-empty rule of a form (R167). -/
inductive FeRule where
  /-- Never checked. -/
  | any
  /-- On an FE page the bit must be 1, or 0. -/
  | full | empty
  /-- The page must have FE = 1; with a bit, the bit must stand so. -/
  | page
  | pageEmpty
deriving DecidableEq, Repr

/-- The first cause of R166 for `n` bytes at `va`, none when the access may be performed. `sz` is the size that the
address must be a multiple of. -/
def accessCause (s : State) (t : Strand) (acc : Acc) (fr : FeRule) (va : Va) (n sz : Nat) : Option Cause :=
  match syncXl t s false va.toNat with
  | none => some .residency
  | some x =>
    let a := xlPhys x va.toNat
    let prot :=
      (acc == .store && (!pteW x.pte0 || pteCow x.pte0 || pteRepl x.pte0
        || (inPageSet t va.toNat && !x.wr)))
      || (match fr with
          | .any => false
          | .full => pteFe x.pte0 && !feGet s a
          | .empty => pteFe x.pte0 && feGet s a
          | .page => !pteFe x.pte0
          | .pageEmpty => !pteFe x.pte0 || feGet s a)
    if acc == .store && rangeLeased s t.cl a n then some .lease
    else if prot then some .protection
    else if va.toNat % sz ≠ 0 then some .align
    else if (acc == .load || (acc == .take && feGet s a)) && eccBad s a n then some .memoryEcc
    else none

/-- Physical address of an access. One without a usable translation is given an address at which nothing is: only the frame
offset counts, for the window in which the access raises its cause (R57). -/
def accessPhys (s : State) (t : Strand) (va : Va) : Nat :=
  match syncXl t s false va.toNat with
  | some x => xlPhys x va.toNat
  | none => 2 ^ 60 + va.toNat

/-- ECC_CE counts `k` corrected errors (R435). -/
def countCe (d : Device) (k : Nat) : Device :=
  { d with ctl := tabSet d.ctl 0x880 (ctlGet d.ctl 0x880 + BitVec.ofNat 64 k) }

/-- Corrected soft errors among the bytes read are counted in ECC_CE and end (R435). -/
def correctSoft (s : State) (a n : Nat) : State :=
  let k := softHits s a n
  if k = 0 then s
  else { s with soft := s.soft.filter (fun w => !decide (w < a + n ∧ a < w + 8)), dev := countCe s.dev k }

/-! ### Descriptors and payloads read at issue (R160) -/

/-- What an engine form read through the lane port: the bytes, and the state after it. -/
structure LaneRd where
  bytes : List Byte
  st : State
deriving DecidableEq, Repr

/-- Virtual addresses of the 8-byte words of `n` bytes at `a`. -/
def wordVas (a n : Nat) : List Nat := (List.range ((n + 7) / 8)).map (fun i => (a + 8 * i) % 2 ^ 48)

/-- Virtual addresses of the aligned words that hold `n` bytes at `a`. -/
def spanVas (a n : Nat) : List Nat := wordVas (wordOf a) (a % 8 + n)

/-- The page is in the segment's page set on a local frame, as a descriptor or a destination must be (R166). -/
def ownPage (s : State) (t : Strand) (va : Nat) : Bool := inPageSet t va && (syncXl t s false va).isSome

/-- `n` bytes at `va` that must lie in the segment's page set on a local frame, read as the aligned words that hold them:
RESIDENCY, then MEMORY_ECC, with the VA of the word that fails (R405). -/
def laneRead (s : State) (t : Strand) (va n : Nat) : Except (Cause × Nat) LaneRd :=
  let vas := spanVas va n
  match vas.find? (fun v => !ownPage s t v) with
  | some v => .error (.residency, v)
  | none =>
    let phys := fun (v : Nat) => accessPhys s t (BitVec.ofNat 48 v)
    let pas := vas.map phys
    match vas.find? (fun v => eccBad s (phys v) 8) with
    | some v => .error (.memoryEcc, v)
    | none =>
      .ok { bytes := ((pas.flatMap (fun a => rdBytes (laneView t s) a 8)).drop (va % 8)).take n
            st := pas.foldl (fun s a => correctSoft s a 8) s }

/-- The 8-byte words of what was read. -/
def LaneRd.words (r : LaneRd) : List Word :=
  (List.range (r.bytes.length / 8)).map (fun i => BitVec.ofNat 64 (leNat ((r.bytes.drop (8 * i)).take 8)))

/-! ### Scalar forms (R167, R168) -/

/-- A scalar access with its checks; `on` performs it at the physical address. -/
def scalarOp (i : Instr) (g : Guard) (acc : Acc) (fr : FeRule) (m : MemOp) (n : Nat)
    (on : Strand → State → Nat → State) (s : State) : Out :=
  issue i g advance (fun t s =>
    let va := effAddr m t
    match accessCause s t acc fr va n n with
    | some c => raise i c s t (toW va)
    | none => on t s (accessPhys s t va)) s

/-- The value a load delivers (R168). -/
def loadVal (sg : Bool) (n x : Nat) : Word :=
  if sg then BitVec.ofInt 64 (sextN (8 * n) x) else BitVec.ofNat 64 x

/-- LD and LDX. -/
def loadOp (i : Instr) (g : Guard) (fr : FeRule) (data : R6) (sz : BitVec 2) (sg : Bool) (m : MemOp) (s : State) : Out :=
  scalarOp i g .load fr m (2 ^ sz.toNat) (fun t s a =>
    let n := 2 ^ sz.toNat
    let x := loadVal sg n (rdN s a n)
    putStrand (correctSoft s a n) (advance (setG s.cycle 6 data x t))) s

/-- A store that is a release first has the writes it covers performed (R363, R364). -/
def relIf (rel : Bool) (t : Strand) (s : State) : State := if rel then relDrain s (dieOf t.cl) else s

/-- ST and STX. -/
def storeOp (i : Instr) (g : Guard) (fr : FeRule) (data : R6) (sz : BitVec 2) (rel : Bool) (m : MemOp) (s : State) : Out :=
  scalarOp i g .store fr m (2 ^ sz.toNat) (fun t s a =>
    let n := 2 ^ sz.toNat
    putStrand (wrN (relIf rel t s) a n ((getG t data).toNat % 2 ^ (8 * n))) (advance t)) s

/-- LD: on an FE page the word must be full (R167, R168). -/
def execLd (g : Guard) (data : R6) (sz : BitVec 2) (sg o : Bool) (m : MemOp) (s : State) : Out :=
  loadOp (.ld g data sz sg o m) g .full data sz sg m s

/-- LDX never checks the full-empty bit (R167). -/
def execLdx (g : Guard) (data : R6) (sz : BitVec 2) (sg o : Bool) (m : MemOp) (s : State) : Out :=
  loadOp (.ldx g data sz sg o m) g .any data sz sg m s

/-- ST: on an FE page the word must be empty (R167, R168). -/
def execSt (g : Guard) (data : R6) (sz : BitVec 2) (o : Bool) (m : MemOp) (s : State) : Out :=
  storeOp (.st g data sz o m) g .empty data sz o m s

/-- STX never checks the full-empty bit (R167). -/
def execStx (g : Guard) (data : R6) (sz : BitVec 2) (o : Bool) (m : MemOp) (s : State) : Out :=
  storeOp (.stx g data sz o m) g .any data sz o m s

/-- The word lies in a pipe bound to the strand's gang (R233, R256). -/
def pipeBound (s : State) (t : Strand) (va : Va) : Bool :=
  t.seg.gang != 0 && (getCp s t.cl t.task.pid).pipes.any (fun p =>
    p.gang == t.seg.gang && decide (p.since ≤ tickNow s ∧ p.base.toNat ≤ va.toNat ∧ va.toNat < p.base.toNat + 8 * p.slots))

/-- LDF: takes a full word and empties it; an empty word of a bound pipe idles up to 8 further windows, any other
splits (R167, R233). -/
def execLdf (g : Guard) (data : R6) (m : MemOp) (s : State) : Out :=
  scalarOp (.ldf g data m) g .take .page m 8 (fun t s a =>
    if feGet s a then
      let s' := feSet (correctSoft s a 8) a false
      putStrand s' (advance (setG s.cycle 6 data (rd64 s a) { t with idle := 0 }))
    else if pipeBound s t (effAddr m t) && decide (t.idle < 8) then
      putStrand s { t with idle := t.idle + 1, hold := s.cycle + 8, reach := none }
    else implicitSplit s t 2 (toW (effAddr m t)) (wordOf a)) s

/-- STF: stores and fills an empty word (R167). -/
def execStf (g : Guard) (data : R6) (m : MemOp) (s : State) : Out :=
  scalarOp (.stf g data m) g .store .pageEmpty m 8 (fun t s a =>
    putStrand (feFill (wr64 (relIf true t s) a (getG t data)) a) (advance t)) s

/-- CLRF: fe := S (R167). -/
def execClrf (g : Guard) (f : Bool) (m : MemOp) (s : State) : Out :=
  scalarOp (.clrf g f m) g .store .page m 8 (fun t s a =>
    putStrand (if f then feFill s a else feSet s a false) (advance t)) s

/-- FEQ (R167). -/
def execFeq (g : Guard) (data : R6) (m : MemOp) (s : State) : Out :=
  scalarOp (.feq g data m) g .probe .page m 8 (fun t s a =>
    putStrand s (advance (setG s.cycle 6 data (b2w (feGet s a)) t))) s

/-! ### Vector forms (R170, R171) -/

/-- The first failing check over every element: each cause is checked over all elements before the next (R166, R170). -/
def vecCause (s : State) (t : Strand) (acc : Acc) (fr : FeRule) (n sz : Nat) (vas : List Va) : Option (Cause × Va) :=
  let cs := vas.map (fun va => (accessCause s t acc fr va n sz, va))
  let pick := fun (c : Cause) => (cs.find? (fun e => e.1 == some c)).map (fun e => (c, e.2))
  (pick .lease).orElse (fun _ => (pick .residency).orElse (fun _ => (pick .protection).orElse (fun _ =>
    (pick .align).orElse (fun _ => pick .memoryEcc))))

/-- A vector access of `n` bytes at each address; `on` is given the strand, the state and the physical addresses. -/
def vectorOp (i : Instr) (g : Guard) (acc : Acc) (fr : FeRule) (vas : Strand → List Va) (n sz : Nat)
    (on : Strand → State → List Nat → State) (s : State) : Out :=
  issue i g advance (fun t s =>
    match vecCause s t acc fr n sz (vas t) with
    | some (c, va) => raise i c s t (toW va)
    | none => on t s ((vas t).map (accessPhys s t))) s

/-- Element addresses of VLDS and VSTS (R171). -/
def strideAddrs (m : MemOp) (w : Nat) (t : Strand) : List Va :=
  (List.range (1024 / w)).map (fun i =>
    (getG t m.base + sxW m.disp + BitVec.ofNat 64 i * (getG t m.index <<< m.sh.toNat)).setWidth 48)

/-- Element addresses of VGATH and VSCAT (R171). -/
def gatherAddrs (m : MemOp) (w : Nat) (t : Strand) : List Va :=
  (List.range (1024 / w)).map (fun i =>
    (getG t m.base + (BitVec.ofNat 64 (elt w (getV t m.index) i) <<< m.sh.toNat) + sxW m.disp).setWidth 48)

/-- A vector load in the cycle of its last line: data 6 cycles later (R160). -/
def vecLoad (i : Instr) (g : Guard) (data : R6) (w sz : Nat) (vas : Strand → List Va) (s : State) : Out :=
  vectorOp i g .load .any vas (w / 8) sz (fun t s ps =>
    let x := BitVec.ofNat 1024 (packElts w (ps.map (fun a => leNat (rdBytes (laneView t s) a (w / 8)))))
    putStrand (ps.foldl (fun s a => correctSoft s a (w / 8)) s) (advance (setV s.cycle 6 data x t))) s

/-- The cycle of the line that holds address `a`. -/
def timeOf (cs : List (Nat × Nat)) (a now : Nat) : Nat := ((cs.find? (fun c => c.1 == a / 128 * 128)).map (·.2)).getD now

/-- The writes of a vector store, in element order, each with the cycle of its line. -/
def storeWrites (t : Strand) (s : State) (w : Nat) (x : BitVec 1024) (ps : List Nat) : List (Nat × Nat × List Byte) :=
  let cs := lineTimes t s (linesOf (ps.map (fun a => (a, w / 8))))
  ps.mapIdx (fun i a => (timeOf cs a s.cycle, a, toLe (w / 8) (elt w x i)))

/-- A vector store in the cycle of its first line: the element with the highest index is the one stored (R160, R171). -/
def vecStore (i : Instr) (g : Guard) (data : R6) (w sz : Nat) (rel : Bool) (vas : Strand → List Va) (s : State) : Out :=
  vectorOp i g .store .any vas (w / 8) sz (fun t s ps =>
    let (t', s') := putLines t (relIf rel t s) (storeWrites t s w (getV t data) ps)
    putStrand s' (advance t')) s

/-- VLD: 128 bytes at EA (R171). -/
def execVld (g : Guard) (data : R6) (o : Bool) (m : MemOp) (s : State) : Out :=
  scalarOp (.vld g data o m) g .load .any m 128 (fun t s a =>
    putStrand (correctSoft s a 128) (advance (setV s.cycle 6 data (BitVec.ofNat 1024 (rdN s a 128)) t))) s

/-- VST (R171). -/
def execVst (g : Guard) (data : R6) (o : Bool) (m : MemOp) (s : State) : Out :=
  scalarOp (.vst g data o m) g .store .any m 128 (fun t s a =>
    putStrand (wrN (relIf o t s) a 128 (getV t data).toNat) (advance t)) s

/-- Element width of a strided or gather form (R170). -/
def elemW (sz : BitVec 2) : Nat := 8 * 2 ^ sz.toNat

/-- VLDS (R171). -/
def execVlds (g : Guard) (data : R6) (sz : BitVec 2) (o : Bool) (m : MemOp) (s : State) : Out :=
  vecLoad (.vlds g data sz o m) g data (elemW sz) (2 ^ sz.toNat) (strideAddrs m (elemW sz)) s

/-- VSTS (R171). -/
def execVsts (g : Guard) (data : R6) (sz : BitVec 2) (o : Bool) (m : MemOp) (s : State) : Out :=
  vecStore (.vsts g data sz o m) g data (elemW sz) (2 ^ sz.toNat) o (strideAddrs m (elemW sz)) s

/-- VGATH (R171). -/
def execVgath (g : Guard) (data : R6) (sz : BitVec 2) (o : Bool) (m : MemOp) (s : State) : Out :=
  vecLoad (.vgath g data sz o m) g data (elemW sz) (2 ^ sz.toNat) (gatherAddrs m (elemW sz)) s

/-- VSCAT (R171). -/
def execVscat (g : Guard) (data : R6) (sz : BitVec 2) (o : Bool) (m : MemOp) (s : State) : Out :=
  vecStore (.vscat g data sz o m) g data (elemW sz) (2 ^ sz.toNat) o (gatherAddrs m (elemW sz)) s

end Sys2Proof.Machine
end

