-- ==== Sys2Proof/Machine/PageOps.lean ====
section
/-! DEFINITION. Page management: issue of major 0x0A and the walker's performance of its forms (spec/06 R174-R178). -/

namespace Sys2Proof.Machine

/-! ### Issue (R174) -/

/-- A page-management form: counted, g[d] leased, performed by the walker; the release is at PARTITION scope. -/
def pageOp (i : Instr) (g : Guard) (k : OpKind) (d c : R6) (args : Strand → List Word) (s : State) : Out :=
  engineOp i g c (fun t s => mkOp s t k (some c) (dstG d) 4 (args t)) s

/-- A form that needs supervisor privilege (R176). -/
def supPageOp (i : Instr) (g : Guard) (k : OpKind) (d c : R6) (args : Strand → List Word) (s : State) : Out :=
  issueSup i g (fun t s =>
    if leaseHit s t i then raise i .lease s t 0
    else if ctrFull t c then raise i .counter s t 0
    else issueOp s t (mkOp s t k (some c) (dstG d) 4 (args t))) s

/-- PGALLOC (R176, R177). -/
def execPgalloc (g : Guard) (d a b c : R6) (s : State) : Out :=
  pageOp (.pgalloc g d a b c) g .pgalloc d c (fun t => [getG t a, getG t b]) s

/-- PGFREE (R176). -/
def execPgfree (g : Guard) (d a c : R6) (s : State) : Out :=
  supPageOp (.pgfree g d a c) g .pgfree d c (fun t => [getG t a]) s

/-- PGREF (R176). -/
def execPgref (g : Guard) (d a b c : R6) (s : State) : Out :=
  supPageOp (.pgref g d a b c) g .pgref d c (fun t => [getG t a, getG t b]) s

/-- PGCOW (R176). -/
def execPgcow (g : Guard) (d a b c : R6) (s : State) : Out :=
  pageOp (.pgcow g d a b c) g .pgcow d c (fun t => [getG t a, getG t b]) s

/-- PGSET: selectors 2 and 3 need supervisor privilege (R176). -/
def execPgset (g : Guard) (d a b c : R6) (sel : BitVec 2) (s : State) : Out :=
  if sel.toNat < 2 then
    pageOp (.pgset g d a b c sel) g .pgset d c (fun t => [getG t a, getG t b, toW sel]) s
  else supPageOp (.pgset g d a b c sel) g .pgset d c (fun t => [getG t a, getG t b, toW sel]) s

/-- PGGET (R176). -/
def execPgget (g : Guard) (d a c : R6) (sel : BitVec 3) (s : State) : Out :=
  pageOp (.pgget g d a c sel) g .pgget d c (fun t => [getG t a, 0, toW sel]) s

/-- PGPIN (R159, R176). -/
def execPgpin (g : Guard) (d a c : R6) (s : State) : Out :=
  pageOp (.pgpin g d a c) g .pgpin d c (fun t => [getG t a]) s

/-- PGUNPIN (R159, R176). -/
def execPgunpin (g : Guard) (d a c : R6) (s : State) : Out :=
  pageOp (.pgunpin g d a c) g .pgunpin d c (fun t => [getG t a]) s

/-- PGSPILL (R176). -/
def execPgspill (g : Guard) (d a c : R6) (s : State) : Out :=
  pageOp (.pgspill g d a c) g .pgspill d c (fun t => [getG t a]) s

/-- PGFILL (R176). -/
def execPgfill (g : Guard) (d a c : R6) (s : State) : Out :=
  pageOp (.pgfill g d a c) g .pgfill d c (fun t => [getG t a]) s

/-- PGMAP; `pte` is PTE bits [8:1] (R176). -/
def execPgmap (g : Guard) (d a b c : R6) (pte : BitVec 8) (s : State) : Out :=
  supPageOp (.pgmap g d a b c pte) g .pgmap d c (fun t => [getG t a, getG t b, toW pte]) s

/-- PGUNMAP (R176). -/
def execPgunmap (g : Guard) (d a c : R6) (s : State) : Out :=
  supPageOp (.pgunmap g d a c) g .pgunmap d c (fun t => [getG t a]) s

/-! ### The walker (R175-R178) -/

/-- What the walker answers for an operation: complete with a value, stop with a cause, or wait. -/
inductive WalkRes where
  | done (x : Word) (s : State)
  | stop (c : Cause) (s : State)
  | wait (s : State)
deriving DecidableEq, Repr

/-- A failure code of R175. -/
def wErr (code : Nat) (s : State) : WalkRes := .done (errW code) s

/-- Write a PTE and drop the translations of the record it names (R174). -/
def setPte (s : State) (p : Nat) (l : Leaf) (w0 w1 : Word) : State :=
  invalidate (wr64 (wr64 s l.pteAt w0) (l.pteAt + 8) w1) p l.fri

/-- The level-3 PTE address of a page, creating missing nodes from the pool of the cluster's die (R153, R176); none
when the pool has no page. -/
def ensurePath (s : State) (cl p root vpn : Nat) : Option (Nat × State) :=
  let r := rootOf s p root
  let a1 := pteAddr s p r vpn 1
  let step := fun (s : State) (a : Nat) =>
    if nodeOk s p (rd64 s a) (rd64 s (a + 8)) then some (pteFri (rd64 s a), s)
    else match newNode s (dieOf cl) p with
      | some (n, s) => some (n, wr64 (wr64 s a (BitVec.ofNat 64 (1 + 2 ^ 32 * n))) (a + 8) 0)
      | none => none
  match step s a1 with
  | none => none
  | some (n2, s) =>
    match step s (pteAddr s p n2 vpn 2) with
    | none => none
    | some (n3, s) => some (pteAddr s p n3 vpn 3, s)

/-- Bits [8:1] of a PTE but PIN (R159). -/
def pteAttr (w : Word) : Nat := w.toNat % 512 &&& 0x1EE

/-- Install a leaf PTE: V, the attribute bits and the FRI; word 1. -/
def putLeaf (s : State) (a attr fri : Nat) (w1 : Word) : State :=
  wr64 (wr64 s a (BitVec.ofNat 64 (1 + attr + 2 ^ 32 * fri))) (a + 8) w1

/-- Map record `fri` at a page that has no valid leaf (PGMAP, PGCOW, PART_CMD MAP): the new REF. -/
def mapRec (s : State) (cl p root vpn fri attr : Nat) (w1 : Word) : WalkRes :=
  match ensurePath s cl p root vpn with
  | none => wErr 3 s
  | some (a, s1) =>
    match refAdd s1 p fri 4 1 with
    | none => .stop .refcount s
    | some (_, s2) => .done (BitVec.ofNat 64 (recRef s2 p fri)) (invalidate (putLeaf s2 a attr fri w1) p fri)

/-- A format pairing that an attribute word may hold: raw takes no blocks (R66, R176). -/
def attrOk (fmt blk : Nat) : Bool := if fmt = 0 then blk == 0 else pairOk fmt blk

/-- PGALLOC (R176, R177). -/
def doAlloc (s : State) (cl p root vpn : Nat) (b : Word) (x : Option Leaf) : WalkRes :=
  let fmt := b.toNat % 16
  let blk := b.toNat / 16 % 4
  if b.toNat / 2 ^ 12 ≠ 0 ∨ !attrOk fmt blk then wErr 4 s
  else if x.isSome then wErr 6 s
  else
    match freeRecord s p with
    | (none, _) => wErr 3 s
    | (some fri, s1) =>
      match frameInQuota s1 cl p fri with
      | none => wErr 3 s
      | some (f, s2) =>
        let s3 := newRecord s2 p fri 1 fmt blk (b.toNat / 64 % 2) 1 0 (sramLoc cl f) 0
        match ensurePath s3 cl p root vpn with
        | none => wErr 3 s
        | some (a, s4) =>
          let attr := (b.toNat / 128 % 2) * 2 + (b.toNat / 256 % 2) * 4 + (b.toNat / 512 % 2) * 256
            + (b.toNat / 1024 % 2) * 64 + (b.toNat / 2048 % 2) * 128
          let s5 := zeroFrame (putLeaf s4 a attr fri 0) (sramBase cl f) (bit b 9)
          .done (BitVec.ofNat 64 fri) s5

/-- PGSET (R176). -/
def doSet (s : State) (p : Nat) (l : Leaf) (b : Word) (sel : Nat) : WalkRes :=
  match sel with
  | 0 =>
    let fmt := b.toNat % 16
    let blk := b.toNat / 16 % 4
    if b.toNat / 128 ≠ 0 ∨ !attrOk fmt blk then wErr 4 s
    else
      let s := setRec0 (setRec0 (setRec0 s p l.fri 4 4 fmt) p l.fri 8 2 blk) p l.fri 10 1 (b.toNat / 64 % 2)
      .done 0 (invalidate s p l.fri)
  | 1 =>
    if bit b 15 ∨ b.toNat / 2 ^ 48 ≠ 0 then wErr 4 s
    else .done 0 (invalidate (wr64 s (recAddr s p l.fri 2) b) p l.fri)
  | 2 =>
    if b.toNat &&& 0x1FE ≠ b.toNat then wErr 4 s
    else .done 0 (setPte s p l ((l.pte0 &&& ~~~ 0x1EE#64) ||| (b &&& 0x1EE#64)) l.pte1)
  | _ => if b.toNat / 2 ^ 56 ≠ 0 then wErr 4 s else .done 0 (setPte s p l l.pte0 b)

/-- The reserved bits of PTE words 0 and 1 and of record words 0 to 3, which read 0 (R7, R147, R148, R150). -/
def pageReserved (sel : Nat) : Word :=
  match sel with
  | 0 => 0xFC000000FFFFFE00
  | 1 => 0xFF00000000000000
  | 2 => 0xFFF000000000F80C
  | 4 => 0xFFFF000000008000
  | 5 => 0xFFFF000000000000
  | _ => 0

/-- PGGET (R176). -/
def doGet (s : State) (p root vpn sel : Nat) (x : Option Leaf) : WalkRes :=
  let mask := ~~~ pageReserved sel
  if 6 ≤ sel then wErr 4 s
  else if sel < 2 then
    match walkNodes s p root vpn with
    | [_, _, n3] => .done (rd64 s (pteAddr s p n3 vpn 3 + 8 * sel) &&& mask) s
    | _ => .done 0 s
  else
    match x with
    | some l => .done (recWord s p l.fri (sel - 2) &&& mask) s
    | none => wErr 5 s

/-- The record's frame is held by a segment of another cluster (R154, R178). -/
def heldElsewhere (s : State) (cl p fri : Nat) : Bool := (heldBy s p fri).any (· != cl)

/-- Make a page's frame local for PGPIN or PGFILL (R155, R178): a frame held elsewhere gives HELD, whatever it lies in;
with a move into this cluster still booked for its holder, the walker waits for it. -/
def fillFor (s : State) (cl p fri : Nat) : Except WalkRes State :=
  if localRec s p fri cl then .ok s
  else if heldElsewhere s cl p fri then .error (wErr 2 s)
  else if held s p fri then .error (.wait s)
  else match makeLocal s cl p fri with
    | some s => .ok s
    | none => .error (wErr 3 s)

/-- PGPIN (R159). A mapping that has its pin already answers NOCHANGE and stays where it is (log 87). -/
def doPin (s : State) (cl p : Nat) (x : Option Leaf) : WalkRes :=
  match x with
  | none => wErr 5 s
  | some l =>
    if ptePin l.pte0 then .done 1 s
    else
      match fillFor s cl p l.fri with
      | .error r => r
      | .ok s =>
        let n := recPins s p l.fri + 1
        let drop := fun (q : List Evict) => q.filter (fun e => !(e.pid == p && e.fri == l.fri))
        let s := setPte (setPins s p l.fri n) p l (l.pte0 ||| 16#64) l.pte1
        .done (BitVec.ofNat 64 n) (updClu s cl (fun c => { c with evIdle := drop c.evIdle, evDemand := drop c.evDemand }))

/-- PGUNPIN (R159). -/
def doUnpin (s : State) (p : Nat) (x : Option Leaf) : WalkRes :=
  match x with
  | none => wErr 5 s
  | some l =>
    if !ptePin l.pte0 then .done 1 s
    else
      let n := recPins s p l.fri - 1
      .done (BitVec.ofNat 64 n) (setPte (setPins s p l.fri n) p l (l.pte0 &&& ~~~ 16#64) l.pte1)

/-- PGSPILL: queues the frame in the demand part of its cluster and waits for its spill (R157, R158, R178). -/
def doSpill (s : State) (o : Op) (x : Option Leaf) : WalkRes :=
  match x with
  | none => wErr 5 s
  | some l =>
    if held s o.pid l.fri ∨ 0 < recPins s o.pid l.fri then wErr 2 s
    else if recKind s o.pid l.fri ≠ 1 then .done 1 s
    else
      let cl := locCluster (recWord s o.pid l.fri 1)
      let c := getClu s cl
      if o.i = 1 then (if c.evDemand.any (fun e => e.op == o.id) then .wait s else wErr 2 s)
      else if 8 ≤ c.evDemand.length then .wait s
      else
        let s := putClu s cl { c with evDemand := c.evDemand ++ [⟨o.pid, l.fri, 0, o.id, 0, false⟩] }
        .wait (updOp s o.id (fun o => { o with i := 1 }))

/-- Clear a leaf PTE and release its pin and its reference (R152, R159): the old FRI. -/
def unmapLeaf (s : State) (p : Nat) (l : Leaf) : WalkRes :=
  let s1 := setPte s p l 0 0
  let s2 := if ptePin l.pte0 then setPins s1 p l.fri (recPins s1 p l.fri - 1) else s1
  match refAdd s2 p l.fri 4 (-1) with
  | none => .stop .refcount s
  | some (_, s3) => .done (BitVec.ofNat 64 l.fri) s3

/-- What the walker does for a page-management operation, whose page its cache or a walk translates (R176, R179). -/
def doPage (s : State) (o : Op) : WalkRes :=
  let a := o.args.getD 0 0
  let b := o.args.getD 1 0
  let sel := (o.args.getD 2 0).toNat
  let vpn := a.toNat / 32768 % 2 ^ 33
  let p := o.pid
  let (x, s) := leafAt s o.cl p o.root vpn
  match o.kind with
  | .pgalloc => doAlloc s o.cl p o.root vpn b x
  | .pgfree =>
    let fri := a.toNat
    if !friOk s p fri ∨ nfr s p ≤ fri then wErr 4 s
    else match refAdd s p fri 1 (-1) with
      | none => .stop .refcount s
      | some (n, s) => .done (BitVec.ofNat 64 n) s
  | .pgref =>
    match x with
    | none => wErr 5 s
    | some l =>
      match refAdd s p l.fri 4 b.toInt with
      | none => .stop .refcount s
      | some (_, s') => .done (BitVec.ofInt 64 ((recRef s p l.fri : Int) + b.toInt)) s'
  | .pgcow =>
    if x.isSome then wErr 6 s
    else match leafAt s o.cl p o.root (b.toNat / 32768 % 2 ^ 33) with
      | (none, s) => wErr 5 s
      | (some l, s) =>
        match mapRec s o.cl p o.root vpn l.fri (pteAttr l.pte0 ||| 8) l.pte1 with
        | .done x s' =>
          if x.toNat / 2 ^ 63 = 1 then .done x s'
          else .done (BitVec.ofNat 64 l.fri) (setPte s' p l (l.pte0 ||| 8#64) l.pte1)
        | r => r
  | .pgset => match x with
    | none => wErr 5 s
    | some l => doSet s p l b sel
  | .pgget => doGet s p o.root vpn sel x
  | .pgpin => doPin s o.cl p x
  | .pgunpin => doUnpin s p x
  | .pgspill => doSpill s o x
  | .pgfill =>
    match x with
    | none => wErr 5 s
    | some l =>
      if localRec s p l.fri o.cl then .done 1 s
      else match fillFor s o.cl p l.fri with
        | .error r => r
        | .ok s => .done 0 s
  | .pgmap =>
    let fri := b.toNat
    if nfr s p ≤ fri ∨ !friOk s p fri then wErr 4 s
    else if x.isSome then wErr 6 s
    else mapRec s o.cl p o.root vpn fri (2 * sel &&& 0x1EE) 0
  | _ =>
    match x with
    | none => wErr 5 s
    | some l => unmapLeaf s p l

end Sys2Proof.Machine
end

