-- ==== Sys2Proof/Machine/Async.lean ====
section
/-! DEFINITION. Asynchronous forms, major 0x0B, and the copy engine's units (spec/07 R181-R204). -/

namespace Sys2Proof.Machine

/-! ### Issue (R181-R194) -/

/-- The operations queued on a channel of a cluster, oldest first (R181): those of the partition that runs there (R204). -/
def chanOps (s : State) (cl ch : Nat) : List Op :=
  s.ops.filter (fun o => o.cl == cl && o.unit == ch && onChannel o.kind && (getClu s cl).pid == some o.pid)

/-- The operation is the next that its channel performs: every earlier one has performed its units, and no fence holds one
back (R202, R205, R378). -/
def channelHead (s : State) (o : Op) : Bool :=
  ((chanOps s o.cl o.unit).find? (fun q => q.fin.isNone || !depsMet s q false true)).map (·.id) == some o.id

/-- The parts of frames that `n` bytes at `va` lie in, page by page: record, offset, length (R189). -/
def pageRanges (s : State) (p root : Nat) : Nat → Nat → Nat → List (Nat × Nat × Nat)
  | 0, _, _ => []
  | k + 1, va, n =>
    if n = 0 then []
    else
      let len := min n (32768 - va % 32768)
      let rest := pageRanges s p root k (va + len) (n - len)
      match walk s p root (va / 32768 % 2 ^ 33) with
      | some l => (l.fri, va % 32768, len) :: rest
      | none => rest

/-- The leased ranges of a list of (address, length). -/
def leaseOf (s : State) (t : Strand) (l : List (Nat × Nat)) : List (Nat × Nat × Nat) :=
  l.flatMap (fun e => pageRanges s t.task.pid t.task.root (e.2 / 32768 + 2) (e.1 % 2 ^ 48) e.2)

/-- The strand may issue on the channel in its tick of issue (R181). -/
def chanBooked (s : State) (t : Strand) (ch : Nat) : Bool :=
  segBooked s t (25 + ch) (issueTick t s) (issueTick t s) && tabGet t.lastCh ch != some (issueTick t s)

/-- Word 7 of a BOOKING record: the resource and the relative tick (R405). -/
def bookingW7 (s : State) (t : Strand) (res : Nat) : Word :=
  BitVec.ofNat 64 (res + 2 ^ 5 * ((issueTick t s - t.seg.start) % 4096))

/-- Raise BOOKING for a resource. -/
def raiseBooking (i : Instr) (s : State) (t : Strand) (res : Nat) : State :=
  takeFault s t { cause := .booking, word := (encode i).headD 0, w7 := bookingW7 s t res }

/-- The operation is a release (R362): it sets full-empty bits. -/
def opFills (o : Op) : Bool :=
  match o.kind with
  | .cpy | .cpy2d | .gath | .scat => o.args.getD 4 0 != 0
  | .fst => o.args.getD 2 0 != 0
  | _ => false

/-- A data form: LEASE, BOOKING, COUNTER and `bad` (ALIGN, with its address) in this order; then a full queue splits,
else the operation issues (R182, R193, R194). -/
def dataForm (i : Instr) (g : Guard) (ch : Nat) (c : R6) (bad : Strand → Option Word) (mk : Strand → State → Op)
    (s : State) : Out :=
  issue i g advance (fun t s =>
    if !chanBooked s t ch then raiseBooking i s t (25 + ch)
    else if ctrFull t c then raise i .counter s t 0
    else match bad t with
      | some va => raise i .align s t va
      | none =>
        if 16 ≤ (chanOps s t.cl ch).length then implicitSplit s t 3 (BitVec.ofNat 64 ch) 0
        else
          let q := (tabGet (getClu s t.cl).chSeq ch).getD 0
          let s' := updClu s t.cl (fun k => { k with chSeq := tabSet k.chSeq ch ((q + 1) % 2 ^ 16) })
          let o := { mk t s with unit := ch, seq := q }
          issueOp (relIf (opFills o) t s') { t with lastCh := tabSet t.lastCh ch (issueTick t s) } o) s

def lo32 (w : Word) : Nat := w.toNat % 2 ^ 32
def hi16 (w : Word) : Nat := w.toNat / 2 ^ 32 % 2 ^ 16
def va48 (w : Word) : Nat := w.toNat % 2 ^ 48

/-- The first address that is not a multiple of 8, or 0 when a length breaks R193. -/
def alignBad (vas : List Word) (lens : List Nat) : Option Word :=
  match vas.find? (fun v => va48 v % 8 != 0) with
  | some v => some (BitVec.ofNat 64 (va48 v))
  | none => if lens.any (fun n => n % 8 != 0) then some 0 else none

/-- CPY (R195). -/
def execCpy (g : Guard) (ch : BitVec 2) (f : Bool) (sc : BitVec 3) (d a b c : R6) (s : State) : Out :=
  dataForm (.cpy g ch f sc d a b c) g ch.toNat c
    (fun t => alignBad [getG t d, getG t a] [lo32 (getG t b)])
    (fun t s => { mkOp s t .cpy (some c) none sc.toNat [getG t d, getG t a, getG t b, 0, b2w f] with
      leases := leaseOf s t [(va48 (getG t d), lo32 (getG t b)), (va48 (getG t a), lo32 (getG t b))] }) s

/-- The lowest and highest byte that rows touch: (address, length) (R189, R196). -/
def spanOf (base : Nat) (rows b : Nat) (stride : Int) : Nat × Nat :=
  if rows = 0 ∨ b = 0 then (base, 0)
  else
    let ext : Nat := (stride * (rows - 1 : Nat)).natAbs
    (if 0 ≤ stride then base else (base + 2 ^ 48 - ext % 2 ^ 48) % 2 ^ 48, ext + b)

/-- CPY2D (R196). -/
def execCpy2d (g : Guard) (ch : BitVec 2) (f : Bool) (sc : BitVec 3) (d a b c : R6) (s : State) : Out :=
  dataForm (.cpy2d g ch f sc d a b c) g ch.toNat c
    (fun t => alignBad [getG t d, getG t a] [lo32 (getG t b), lo32 (getG t (b + 1)), lo32 (getG t (b + 1) >>> 32)])
    (fun t s =>
      let sh := getG t b
      let st := getG t (b + 1)
      let ds := sextN 32 (lo32 st)
      let ss := sextN 32 (lo32 (st >>> 32))
      { mkOp s t .cpy2d (some c) none sc.toNat [getG t d, getG t a, sh, st, b2w f] with
        leases := leaseOf s t [spanOf (va48 (getG t d)) (hi16 sh) (lo32 sh) ds, spanOf (va48 (getG t a)) (hi16 sh) (lo32 sh) ss] }) s

/-- The element size of a gather or scatter breaks R193. -/
def elemBad (sh : Word) : Bool := hi16 sh == 0 || decide (32768 < hi16 sh)

/-- GATH (R197). -/
def execGath (g : Guard) (ch : BitVec 2) (f : Bool) (sc : BitVec 3) (d a b c : R6) (s : State) : Out :=
  dataForm (.gath g ch f sc d a b c) g ch.toNat c
    (fun t => (alignBad [getG t d, getG t a] [hi16 (getG t b)]).or (if elemBad (getG t b) then some 0 else none))
    (fun t s =>
      let sh := getG t b
      { mkOp s t .gath (some c) none sc.toNat [getG t d, getG t a, sh, 0, b2w f] with
        leases := leaseOf s t [(va48 (getG t d), lo32 sh * hi16 sh), (va48 (getG t a), 8 * lo32 sh)] }) s

/-- SCAT (R197). -/
def execScat (g : Guard) (ch : BitVec 2) (f : Bool) (sc : BitVec 3) (d a b c : R6) (s : State) : Out :=
  dataForm (.scat g ch f sc d a b c) g ch.toNat c
    (fun t => (alignBad [getG t d, getG t a] [hi16 (getG t b)]).or (if elemBad (getG t b) then some 0 else none))
    (fun t s =>
      let sh := getG t b
      { mkOp s t .scat (some c) none sc.toNat [getG t d, getG t a, sh, 0, b2w f] with
        leases := leaseOf s t [(va48 (getG t a), lo32 sh * hi16 sh), (va48 (getG t d), 8 * lo32 sh)] }) s

/-- Bytes of a far load or store (R198). -/
def farSize (sz : BitVec 3) : Nat := if sz = 4 then 128 else 2 ^ sz.toNat

/-- The address of a far access is not a multiple of its size (R193). -/
def farBad (sz : BitVec 3) (va : Word) : Option Word :=
  if va48 va % farSize sz ≠ 0 then some (BitVec.ofNat 64 (va48 va)) else none

/-- FLD (R198). -/
def execFld (g : Guard) (ch : BitVec 2) (sc sz : BitVec 3) (sg : Bool) (d a c : R6) (s : State) : Out :=
  dataForm (.fld g ch sc sz sg d a c) g ch.toNat c (fun t => farBad sz (getG t a))
    (fun t s => mkOp s t .fld (some c) (if sz = 4 then some (.v (d.toNat % 32)) else dstG d) sc.toNat
      [getG t a, toW sz, b2w sg]) s

/-- FST reads its register at issue (R198). -/
def execFst (g : Guard) (ch : BitVec 2) (f : Bool) (sc sz : BitVec 3) (a b c : R6) (s : State) : Out :=
  dataForm (.fst g ch f sc sz a b c) g ch.toNat c (fun t => farBad sz (getG t a))
    (fun t s => { mkOp s t .fst (some c) none sc.toNat [getG t a, toW sz, b2w f] with
      bytes := toLe (farSize sz) (if sz = 4 then (getV t b).toNat else (getG t b).toNat) }) s

/-- WAITC: passes when c ≤ n, else splits with the counter's event (R199). -/
def execWaitc (g : Guard) (c : R6) (n : BitVec 16) (s : State) : Out :=
  issue (.waitc g c n) g advance (fun t s =>
    if (getC t c).toNat ≤ n.toNat then putStrand s (advance t)
    else implicitSplit s t 1 (BitVec.ofNat 64 (c.toNat % 4 + 2 ^ 16 * n.toNat)) 0) s

/-- CTRGET (R200). -/
def execCtrget (g : Guard) (d c : R6) (s : State) : Out :=
  aluOp (.ctrget g d c) g 1 d (fun t => toW (getC t c)) s

/-! ### Units (R195-R202) -/

/-- What one unit of an operation does. -/
inductive UnitRes where
  /-- The unit is performed and others follow, the operation's progress updated. -/
  | more (s : State)
  /-- The last unit is performed: the destination's value. -/
  | last (x : Nat) (s : State)
  /-- It stops before the unit (R201, R202): cause, faulting VA, unit index. -/
  | stop (c : Cause) (va index : Word) (s : State)
  /-- It cannot be performed yet (R190). -/
  | hold (s : State)
deriving DecidableEq, Repr

/-- Before an engine reads a home copy, the replicas of its cluster apply what is sequenced: the cluster sees the writes to all
replicated pages in one order (R371). -/
def viewHome (s : State) (cl p : Nat) : State := settleRepl s (fun q c => q == p && c == cl)

/-- The physical address of an engine's access, checked: read, or write (R179, R201). A read of a replicated page uses the
replica of the issuing cluster when there is one (R371). -/
def engAddr (s : State) (o : Op) (va : Nat) (write : Bool) : Except Cause (Nat × TcEnt) × State :=
  match xlate s o.cl o.pid o.root (va / 32768 % 2 ^ 33) with
  | (none, s) => (.error .translation, s)
  | (some e, s) =>
    if write && (!pteW e.pte0 || pteCow e.pte0) then (.error .protection, s)
    else
      match (if pteRepl e.pte0 && !write then replicaOf s o.cl o.pid e.fri else none) with
      | some f => (.ok (sramBase o.cl f + va % 32768, e), s)
      | none => (.ok (recPhys s o.pid e.fri + va % 32768, e), if pteRepl e.pte0 && !write then viewHome s o.cl o.pid else s)

/-- A word to be written under a translation. -/
def outOf (x : TcEnt) (a : Nat) (bs : List Byte) (f : Bool) : OutWord := ⟨a, x.fri, pteRepl x.pte0, bs, f⟩

/-- An engine write of bytes under a translation, with the full-empty bits of its words when `f` (R195). -/
def engWrite (s : State) (o : Op) (x : TcEnt) (a : Nat) (bs : List Byte) (f : Bool) : State := putWord s o (outOf x a bs f)

/-- Bytes cut at the words they touch. -/
def cutWords : Nat → Nat → List Byte → List (Nat × List Byte)
  | 0, _, _ => []
  | k + 1, a, bs =>
    let n := 8 - a % 8
    if bs.isEmpty then [] else (a, bs.take n) :: cutWords k (a + n) (bs.drop n)

/-- The words of a wide engine write, which are performed one by one (R366, R367). -/
def outWords (x : TcEnt) (a : Nat) (bs : List Byte) (f : Bool) : List OutWord :=
  (cutWords (bs.length + 1) a bs).map (fun w => outOf x w.1 w.2 f)

/-- An engine access to a word must wait: the bank group of a byte of the operation's own page store is booked as BG (an engine
read is performed after the lanes of this cycle, and a write before those of the next one), or the writes of the next cycle have
begun at the word's bank (R56, R183, R365). -/
def bgBusy (s : State) (o : Op) (a : Nat) : Bool :=
  (physCluster a == some o.cl
    && (let cal := (getCp s o.cl o.pid).cal
        bookedAny cal (17 + a / 256 % 8) (tickNow s) || bookedAny cal (17 + a / 256 % 8) ((s.cycle + 1) / 8)))
  || bankShut s a 8

/-- An earlier write of the operation to a replicated page is not performed everywhere (R195, R371). -/
def replPending (s : State) (o : Op) : Bool := s.repl.any (fun w => w.op == o.id)

/-- The host at home at an address answers a channel's unit with an error completion (R201); `ev.flag` says so. -/
def refused (s : State) (a : Nat) : Bool := s.ev.flag && decide (2 ^ 64 ≤ a)

/-- The unit under way goes on: its next word is written when nothing holds it (R183, R190, R367). -/
def outWord (s : State) (o : Op) (w : OutWord) : UnitRes :=
  if tileLeased s w.addr w.bytes.length || bgBusy s o w.addr then .hold s
  else .more (updOp (putWord s o w) o.id (fun o => { o with out := o.out.drop 1 }))

/-- Copy the 8-byte word at `src` to `dst` as one unit. -/
def copyWord (s : State) (o : Op) (dst src : Nat) (f : Bool) (index : Word) (next : State → UnitRes) : UnitRes :=
  match engAddr s o src false with
  | (.error c, s) => .stop c (BitVec.ofNat 64 src) index s
  | (.ok (pa, _), s) =>
    match engAddr s o dst true with
    | (.error c, s) => .stop c (BitVec.ofNat 64 dst) index s
    | (.ok (pd, x), s) =>
      if refused s pa then .stop .protection (BitVec.ofNat 64 src) index s
      else if refused s pd then .stop .protection (BitVec.ofNat 64 dst) index s
      else if eccBad s pa 8 then .stop .memoryEcc (BitVec.ofNat 64 src) index s
      else if tileLeased s pd 8 || bgBusy s o pa || bgBusy s o pd || replPending s o then .hold s
      else next (engWrite (seeWrites (correctSoft s pa 8) (dieOf o.cl) pa 8) o x pd (engRead s (dieOf o.cl) pa 8) f)

/-- Signed offset from a base, mod 2^48. -/
def offVa (base : Nat) (k : Int) : Nat := (((base : Int) + k) % (2 ^ 48 : Int)).toNat

/-- Move an operation's unit index on. -/
def setIdx (s : State) (o : Op) (i j : Nat) : State := updOp s o.id (fun o => { o with i := i, j := j })

/-- One unit of CPY (R195). -/
def unitCpy (s : State) (o : Op) : UnitRes :=
  let d := va48 (o.args.getD 0 0)
  let a := va48 (o.args.getD 1 0)
  let l := lo32 (o.args.getD 2 0)
  if l ≤ o.i then .last 0 s
  else copyWord s o (offVa d o.i) (offVa a o.i) (o.args.getD 4 0 != 0) (BitVec.ofNat 64 o.i)
    (fun s => if l ≤ o.i + 8 then .last 0 s else .more (setIdx s o (o.i + 8) 0))

/-- One unit of CPY2D (R196): row i, offset j. -/
def unitCpy2d (s : State) (o : Op) : UnitRes :=
  let d := va48 (o.args.getD 0 0)
  let a := va48 (o.args.getD 1 0)
  let sh := o.args.getD 2 0
  let st := o.args.getD 3 0
  let rows := hi16 sh
  let b := lo32 sh
  if rows ≤ o.i ∨ b = 0 then .last 0 s
  else
    let ds := sextN 32 (lo32 st)
    let ss := sextN 32 (lo32 (st >>> 32))
    copyWord s o (offVa d (o.i * ds + o.j)) (offVa a (o.i * ss + o.j)) (o.args.getD 4 0 != 0)
      (BitVec.ofNat 64 (2 ^ 32 * o.i + o.j))
      (fun s =>
        if o.j + 8 < b then .more (setIdx s o o.i (o.j + 8))
        else if o.i + 1 < rows then .more (setIdx s o (o.i + 1) 0)
        else .last 0 s)

/-- One unit of GATH or SCAT (R197): element i, offset j; the table entry is read when the element begins. -/
def unitTable (s : State) (o : Op) (scatter : Bool) : UnitRes :=
  let sh := o.args.getD 2 0
  let n := lo32 sh
  let e := hi16 sh
  let table := va48 (if scatter then o.args.getD 0 0 else o.args.getD 1 0)
  let block := va48 (if scatter then o.args.getD 1 0 else o.args.getD 0 0)
  if n ≤ o.i then .last 0 s
  else
    let index := BitVec.ofNat 64 (2 ^ 32 * o.i + o.j)
    let after := fun (s : State) =>
      if o.i + 1 < n then UnitRes.more (updOp s o.id (fun o => { o with i := o.i + 1, j := 0, acc := [] }))
      else .last 0 s
    let go := fun (s : State) (te : Word) =>
      if bit te 63 then after s
      else if va48 te % 8 ≠ 0 then .stop .align (BitVec.ofNat 64 (va48 te)) index s
      else
        let x := offVa (va48 te) o.j
        let y := offVa block (o.i * e + o.j)
        copyWord s o (if scatter then x else y) (if scatter then y else x) (o.args.getD 4 0 != 0) index
          (fun s => if o.j + 8 < e then .more (updOp s o.id (fun q => { q with j := o.j + 8, acc := [te] })) else after s)
    match o.acc with
    | te :: _ => go s te
    | [] =>
      let tv := offVa table (8 * o.i)
      match engAddr s o tv false with
      | (.error c, s) => .stop c (BitVec.ofNat 64 tv) index s
      | (.ok (pt, _), s) =>
        if refused s pt then .stop .protection (BitVec.ofNat 64 tv) index s
        else if eccBad s pt 8 then .stop .memoryEcc (BitVec.ofNat 64 tv) index s
        else if bgBusy s o pt || replPending s o then .hold s
        else go (seeWrites (correctSoft s pt 8) (dieOf o.cl) pt 8) (BitVec.ofNat 64 (leNat (engRead s (dieOf o.cl) pt 8)))

/-- FLD's unit (R198): it reads; the register is written at completion. -/
def unitFld (s : State) (o : Op) : UnitRes :=
  let va := va48 (o.args.getD 0 0)
  let sz : BitVec 3 := (o.args.getD 1 0).setWidth 3
  let n := farSize sz
  match engAddr s o va false with
  | (.error c, s) => .stop c (BitVec.ofNat 64 va) 0 s
  | (.ok (a, _), s) =>
    if refused s a then .stop .protection (BitVec.ofNat 64 va) 0 s
    else if eccBad s a n then .stop .memoryEcc (BitVec.ofNat 64 va) 0 s
    else if bgBusy s o a || bankShut s a n then .hold s
    else
      let x := leNat (engRead s (dieOf o.cl) a n)
      let r := if o.args.getD 2 0 != 0 then (loadVal true n x).toNat else x
      .last r (seeWrites (correctSoft s a n) (dieOf o.cl) a n)

/-- FST's unit (R198). A vector is written word by word, each in its own time (R367). -/
def unitFst (s : State) (o : Op) : UnitRes :=
  let va := va48 (o.args.getD 0 0)
  match o.out with
  | w :: _ => outWord s o w
  | [] => if o.i = 1 then .last 0 s else match engAddr s o va true with
  | (.error c, s) => .stop c (BitVec.ofNat 64 va) 0 s
  | (.ok (a, x), s) =>
    if refused s a then .stop .protection (BitVec.ofNat 64 va) 0 s
    else if tileLeased s a o.bytes.length || bgBusy s o a then .hold s
    else if o.bytes.length ≤ 8 then .last 0 (engWrite s o x a o.bytes (o.args.getD 2 0 != 0))
    else .more (updOp s o.id (fun o => { o with i := 1, out := outWords x a o.bytes (o.args.getD 2 0 != 0) }))

/-- The kinds whose units read memory, and write it. -/
def unitReads (k : OpKind) : Bool := match k with | .fst => false | _ => true
def unitWrites (k : OpKind) : Bool := match k with | .fld => false | _ => true

/-- An operation may be performed now: not stopped, not waiting for its completion only, its partition runs on its
cluster (R204), its fences are met. -/
def opReady (s : State) (o : Op) : Bool :=
  !o.stopped && o.fin.isNone && (getClu s o.cl).pid == some o.pid && depsMet s o (unitReads o.kind) (unitWrites o.kind)

/-- An earlier operation of the same unit is held by a fence: it holds the later ones too (R378). `mate` says which
operations share the unit. -/
def unitHeld (s : State) (mate : Op → Bool) (o : Op) : Bool :=
  s.ops.any (fun q => mate q && decide (q.id < o.id) && !q.stopped && q.fin.isNone
    && (getClu s q.cl).pid == some q.pid && !depsMet s q (unitReads q.kind) (unitWrites q.kind))

/-- Apply a unit's result: `unitKind` names the unit in a fault record (R405). An operation stops only when every unit
before is performed and visible at its scope (R202). -/
def applyUnit (o : Op) (unitKind : Nat) : UnitRes → State
  | .more s => s
  | .last x s => doneOp s o.id x
  | .stop c va ix s => if drained s o then stopOp s ((s.ops.find? (fun q => q.id == o.id)).getD o) c unitKind va ix else s
  | .hold s => s

end Sys2Proof.Machine
end

