-- ==== Sys2Proof/Machine/PageData.lean ====
section
/-! DEFINITION. Formatted pages: tile layouts, scale areas, element decode, head-group records and rotation
(spec/03 R66-R75, spec/06 R151, R162, R163, spec/11 R294-R303). -/

namespace Sys2Proof.Machine

/-! ### Tiles (R68, R162) -/

/-- OFF(r, c): the bit offset of a logical element within its tile. -/
def tileOff (w mode r c : Nat) : Nat :=
  let p := if mode ≤ 1 then r else c
  let x := if mode ≤ 1 then c else r
  let b := x * w
  if mode % 2 = 1 then
    p * 64 * w + ((b / 128) ^^^ (p % min 8 (w / 2))) * 128 + b % 128
  else p * 64 * w + b

/-- Byte offset in the page of the byte that holds the element's lowest bit. -/
def eltByte (w t mode r c : Nat) : Nat := 512 * w * t + tileOff w mode r c / 8

/-- Bytes that one element is read from. -/
def eltBytes (w : Nat) : Nat := max 1 (w / 8)

/-- The container of an element of a page at physical address `base`. -/
def rawElt (s : State) (base w t mode r c : Nat) : Nat :=
  rdN s (base + eltByte w t mode r c) (eltBytes w) >>> (tileOff w mode r c % 8) % 2 ^ w

/-! ### Attributes and scale areas (R67, R72, R151) -/

/-- A page as a decoding path sees it. -/
structure PageView where
  /-- Virtual address and physical address of its first byte. -/
  va : Nat
  phys : Nat
  fmt : Nat
  blk : Nat
  axis : Nat
  /-- Record word 2: SOFF and SPAGE. -/
  loc : Word
deriving DecidableEq, Repr

/-- The view of record `fri` mapped at the page of `va`. -/
def pageView (s : State) (p fri va phys : Nat) : PageView :=
  { va := va / 32768 * 32768, phys := phys, fmt := recFmt s p fri, blk := recBlk s p fri, axis := recAxis s p fri
    loc := recWord s p fri 2 }

/-- The format decodes: not raw, not reserved, an allowed pairing (R66, R67). -/
def PageView.ok (v : PageView) : Bool := pairOk v.fmt v.blk

def PageView.w (v : PageView) : Nat := contW v.fmt
def PageView.soff (v : PageView) : Nat := v.loc.toNat % 2 ^ 15

/-- VA of the first byte of the scale area. -/
def PageView.scaleVa (v : PageView) : Nat :=
  (((v.va : Int) + (bits v.loc 16 32).toInt * 32768 + v.soff) % (2 ^ 48 : Int)).toNat

/-- Bytes of a scale entry of a block length code. -/
def scaleEsz (blk : Nat) : Nat := if blk = 1 then 1 else if blk = 2 then 4 else 8

/-- Bytes of the scale area. -/
def PageView.scaleSize (v : PageView) : Nat :=
  let blocks := 32768 * 8 / (v.w * blkLen v.blk)
  if v.blk = 3 then blocks / 4 * 8 else blocks * scaleEsz v.blk

/-- The scale area lies in its page, whose FMT is 0 (R151). -/
def PageView.scaleOk (v : PageView) (scaleFmt : Nat) : Bool := decide (v.soff + v.scaleSize ≤ 32768) && scaleFmt == 0

/-- The block index of an element (R72). -/
def PageView.block (v : PageView) (t r c : Nat) : Nat :=
  let b := blkLen v.blk
  if v.axis = 0 then t * (4096 / b) + r * (64 / b) + c / b else t * (4096 / b) + c * (64 / b) + r / b

/-- Byte offset in the scale area of the entry of block `bi`. -/
def scaleByte (blk bi : Nat) : Nat := if blk = 1 then bi else if blk = 2 then 4 * bi else 8 * (bi / 4)

/-- The scale and, for Q4N, the block code of block `bi`, from a scale area at physical address `a`. -/
def scaleAt (s : State) (a blk bi : Nat) : Nat × Nat :=
  if blk = 0 then (0, 0)
  else if blk = 3 then (rdN s (a + 8 * (bi / 4) + 4) 4, rdN s (a + 8 * (bi / 4) + bi % 4) 1)
  else (rdN s (a + scaleByte blk bi) (scaleEsz blk), 0)

/-- An element as a base-die unit and VLDB decode it: FP32, with FMT and the flags of its RN_F32 (R141). -/
def PageView.f32 (v : PageView) (s : State) (scale mode t r c : Nat) : Nat × FpFlags :=
  let x := rawElt s v.phys v.w t mode r c
  let sc := scaleAt s scale v.blk (v.block t r c)
  let d := decF32 v.fmt v.blk x sc.1 sc.2
  (d.1, d.2 ||| decodeFlag v.fmt x)

/-- The FP32 value of an element that the matrix engine rotates (R303): decoding sets no flag but FMT (R73). DESIGN
CHOICE (log 85): the value is that of R141, so that all three paths rotate the same FP32 value, as R303's text says. -/
def PageView.f32m (v : PageView) (s : State) (scale mode t r c : Nat) : Nat × FpFlags :=
  ((v.f32 s scale mode t r c).1, decodeFlag v.fmt (rawElt s v.phys v.w t mode r c))

/-- An element as the matrix engine decodes it, with FMT (R73). -/
def PageView.dec (v : PageView) (s : State) (scale mode t r c : Nat) : Xr × FpFlags :=
  let x := rawElt s v.phys v.w t mode r c
  let sc := scaleAt s scale v.blk (v.block t r c)
  (decElt v.fmt v.blk x sc.1 sc.2, decodeFlag v.fmt x)

/-! ### Sine and cosine of a turn fraction (R301) -/

/-- Sum of t^(2k+1)/(2k+1) with alternating signs for t = 1/d: arctan(1/d) in fixed point. -/
def fxAtanStep (d2 : Nat) : Nat → Nat → Nat → Bool → Int → Int
  | 0, _, _, _, acc => acc
  | n + 1, pow, k, neg, acc => fxAtanStep d2 n (pow / d2) (k + 2) (!neg) (acc + (if neg then -1 else 1) * ((pow / k : Nat) : Int))

def fxAtanInv (d : Nat) : Int := fxAtanStep (d * d) 110 (fxOne / d) 1 false 0

/-- π / 2 in fixed point (Machin). -/
def fxHalfPi : Nat := (8 * fxAtanInv 5 - 2 * fxAtanInv 239).toNat

/-- Sum of (−1)^j x^(k+2j)/(k+2j)! from the term given. -/
def fxTrig (x2 : Nat) : Nat → Nat → Nat → Bool → Int → Int
  | 0, _, _, _, acc => acc
  | n + 1, term, k, neg, acc =>
    fxTrig x2 n (term * x2 / fxOne / ((k + 1) * (k + 2))) (k + 2) (!neg) (acc + (if neg then -1 else 1) * (term : Int))

/-- Sine and cosine of (π/2) × r / 2^22 for r < 2^22, rounded to FP32. -/
def sinQuarter (r : Nat) : Xr :=
  if r = 0 then xZero
  else
    let x := fxHalfPi * r / 2 ^ 22
    rnF32x (xFix false (fxTrig (x * x / fxOne) 70 x 1 false 0).toNat fxBits 0)

def cosQuarter (r : Nat) : Xr :=
  if r = 0 then xInt 1
  else
    let x := fxHalfPi * r / 2 ^ 22
    rnF32x (xFix false (fxTrig (x * x / fxOne) 70 fxOne 0 false 0).toNat fxBits 0)

/-- −x, but +0 for a zero. -/
def flipNz (x : Xr) : Xr := if xIsZero x then xZero else xFlip x

/-- RN_F32(cos(2π q / 2^24)). -/
def cosTurn (q : Nat) : Xr :=
  let r := q % 2 ^ 22
  match q / 2 ^ 22 % 4 with
  | 0 => cosQuarter r
  | 1 => flipNz (sinQuarter r)
  | 2 => flipNz (cosQuarter r)
  | _ => sinQuarter r

/-- RN_F32(sin(2π q / 2^24)). -/
def sinTurn (q : Nat) : Xr :=
  let r := q % 2 ^ 22
  match q / 2 ^ 22 % 4 with
  | 0 => sinQuarter r
  | 1 => cosQuarter r
  | 2 => flipNz (sinQuarter r)
  | _ => flipNz (cosQuarter r)

/-! ### Group sums and rotation (R86, R301) -/

/-- The group sum of R86 over exact products, rounded once to FP32. -/
def gSum (l : List (Xr × Xr)) : Nat × FpFlags :=
  let ps := l.map (fun e => xMul e.1 e.2)
  let g := groupSum (ps.map (·.1))
  let r := rnF32 g.1
  (r.1, ps.foldl (fun f p => f ||| p.2) (g.2 ||| r.2))

/-- The rotated pair of R301, each with its flags. -/
def rotPair (pos f x y : Nat) : (Nat × FpFlags) × (Nat × FpFlags) :=
  let q := (pos * f) % 2 ^ 32 / 256
  let c := cosTurn q
  let n := sinTurn q
  let x := decodeFmt .fp32 x
  let y := decodeFmt .fp32 y
  (gSum [(x, c), (xFlip y, n)], gSum [(x, n), (y, c)])

/-! ### Head-group records (R294, R297-R302) -/

def leAt (bs : List Byte) (a n : Nat) : Nat := leNat ((bs.drop a).take n)

def hgNf (bs : List Byte) : Nat := leAt bs 0 1
def hgNs (bs : List Byte) : Nat := leAt bs 0 8 / 2 ^ 8 % 64
def hgDh (bs : List Byte) : Nat := leAt bs 0 8 / 2 ^ 16 % 2 ^ 9
/-- F[i] and SL[i]. -/
def hgF (bs : List Byte) (i : Nat) : Nat := leAt bs (64 + 4 * i) 4
def hgSl (bs : List Byte) (i : Nat) : Nat := leAt bs (576 + 4 * i) 4
/-- Tiles of a head. -/
def hgCt (bs : List Byte) : Nat := (hgDh bs + 63) / 64

/-- The header is in range (R299). -/
def hgOk (bs : List Byte) : Bool :=
  let w := leAt bs 0 8
  decide (hgNf bs ≤ 128 ∧ 1 ≤ hgNs bs ∧ hgNs bs ≤ 32 ∧ 2 ≤ hgDh bs ∧ hgDh bs ≤ 256 ∧ hgDh bs % 2 = 0
    ∧ 2 * hgNf bs ≤ hgDh bs ∧ w / 2 ^ 14 % 4 = 0 ∧ w / 2 ^ 25 = 0)

/-- The geometry fits a page of container width `w` (R294). -/
def hgFits (bs : List Byte) (w : Nat) : Bool := decide (hgNs bs * hgCt bs ≤ 64 / w)

/-- PTE word 1 (R148). -/
def ptePos (w : Word) : Nat := w.toNat % 2 ^ 40
def pteFill (w : Word) : Nat := w.toNat / 2 ^ 40 % 256
def pteHgrp (w : Word) : Nat := w.toNat / 2 ^ 48 % 256

/-- ROT_AREA's EN, and the VA of head group `g`'s record. -/
def rotEn (w : Word) : Bool := bit w 0
def rotVa (w : Word) (g : Nat) : Nat := w.toNat / 2 ^ 18 % 2 ^ 30 * 2 ^ 18 + 1024 * g

/-- The pair of element `k` of a head (R302): its index, whether the element is x, its partner. -/
def pairOf (nf : Nat) (split : Bool) (k : Nat) : Option (Nat × Bool × Nat) :=
  if 2 * nf ≤ k then none
  else if split then (if k < nf then some (k, true, k + nf) else some (k - nf, false, k - nf))
  else some (k / 2, k % 2 == 0, if k % 2 = 0 then k + 1 else k - 1)

/-- The rotated element at (t, r, c) of a key page, and its partner's place (R294, R301, R302); `dec` decodes to FP32,
`pos` is the position of token 0. -/
def partnerOf (bs : List Byte) (split : Bool) (t c : Nat) : Option (Nat × Bool × Nat × Nat) :=
  let ct := hgCt bs
  let slot := t / ct
  if hgNs bs ≤ slot then none
  else match pairOf (hgNf bs) split (64 * (t % ct) + c) with
    | none => none
    | some (i, isX, k) => some (i, isX, slot * ct + k / 64, k % 64)

def rotElt (dec : Nat → Nat → Nat → Nat × FpFlags) (bs : List Byte) (split : Bool) (pos t r c : Nat) : Nat × FpFlags :=
  let x := dec t r c
  match partnerOf bs split t c with
  | none => x
  | some (i, isX, t', c') =>
    let y := dec t' r c'
    let q := if isX then (rotPair (pos + r) (hgF bs i) x.1 y.1).1 else (rotPair (pos + r) (hgF bs i) y.1 x.1).2
    (q.1, x.2 ||| y.2 ||| q.2)

/-! ### Rotary caches (R300) -/

/-- A segment holds copy `num`. -/
def rotHeld (s : State) (num : Nat) : Bool :=
  s.strands.any (fun e => e.2.seg.rot.contains num) || s.parked.any (fun t => t.seg.rot.contains num)
    || s.clParts.any (fun e => e.2.placed.any (fun q => q.seg.rot.contains num))

/-- The record that a strand's accesses use: the copy its segment holds, else the cluster's current copy. -/
def rotRecord (s : State) (t : Strand) (g : Nat) : Option (List Byte) :=
  let l := (getCp s t.cl t.task.pid).rotary
  match l.find? (fun r => r.hgrp == g && t.seg.rot.contains r.num) with
  | some r => some r.bytes
  | none => (l.find? (fun r => r.hgrp == g && !r.old)).map (·.bytes)

/-- The head-group record of a page that a lane or tile command rotates: RESIDENCY, then FORMAT (R299, R300). -/
def rotaryFor (s : State) (t : Strand) (g : Nat) : Except Cause (List Byte) :=
  if !rotEn (cpCtl s t.cl t.task.pid 0x1B0) then .error .format
  else match rotRecord s t g with
    | none => .error .residency
    | some bs => if hgOk bs then .ok bs else .error .format

end Sys2Proof.Machine
end

