-- ==== Sys2Proof/Machine/VectorArith.lean ====
section
/-! DEFINITION. Vector floating-point and integer arithmetic, majors 0x10 and 0x11 (spec/05 R116-R127). -/

namespace Sys2Proof.Machine

/-- Write `f` to the active elements of v[d] and OR their flags at the result cycle (R119, R120). -/
def vecStrand (now lat w : Nat) (d : R6) (k : BitVec 3) (z : Bool) (f : Strand → Nat → Nat × FpFlags)
    (t : Strand) : Strand :=
  let mask := getM t k
  let r := maskWrite w mask z (getV t d) (fun i => (f t i).1)
  advance (lateFlags now lat (orActive w mask (fun i => (f t i).2)) (setV now lat d r t))

/-- A form with a vector destination (R119, R120). -/
def vecOp (i : Instr) (g : Guard) (lat w : Nat) (d : R6) (k : BitVec 3) (z : Bool)
    (f : Strand → Nat → Nat × FpFlags) (s : State) : Out :=
  laneOp i g advance (vecStrand s.cycle lat w d k z f) s

/-- A form of the lane's VDIV unit, which takes the next one 4 cycles later (R122). -/
def vecDivOp (i : Instr) (g : Guard) (w : Nat) (d : R6) (k : BitVec 3) (z : Bool)
    (f : Strand → Nat → Nat × FpFlags) (s : State) : Out :=
  laneOp i g advance (fun t => { vecStrand s.cycle 12 w d k z f t with vdivFree := s.cycle + 4 }) s

/-- A floating-point form of two v operands, or a g register for every b (R118, R123). -/
def vecFp2 (i : Instr) (g : Guard) (lat : Nat) (d a b : R6) (t rm k : BitVec 3) (z gb : Bool)
    (op : Rnd → Xr → Xr → Xr × FpFlags) (s : State) : Out :=
  vecOp i g lat (typeW t) d k z
    (fun st j => fpBin op (fmtOfT t) (modeOf rm st) (elt (typeW t) (getV st a) j) (bElt st gb (typeW t) b j)) s

/-- A fused form (R123). -/
def vecFma (i : Instr) (g : Guard) (d a b c : R6) (t rm k : BitVec 3) (z gb negP negC : Bool) (s : State) : Out :=
  vecOp i g 4 (typeW t) d k z
    (fun st j => fpFma negP negC (fmtOfT t) (modeOf rm st) (elt (typeW t) (getV st a) j)
      (bElt st gb (typeW t) b j) (elt (typeW t) (getV st c) j)) s

/-- A floating-point form of one operand (R123, R124). -/
def vecFp1 (i : Instr) (g : Guard) (lat : Nat) (d a : R6) (t rm k : BitVec 3) (z : Bool)
    (op : Xr → Xr × FpFlags) (s : State) : Out :=
  vecOp i g lat (typeW t) d k z (fun st j => fpUn op (fmtOfT t) (modeOf rm st) (elt (typeW t) (getV st a) j)) s

/-- An integer form (R126). -/
def vecInt2 (i : Instr) (g : Guard) (lat : Nat) (d a b : R6) (t k : BitVec 3) (z gb : Bool)
    (op : Nat → Nat → Nat → Nat) (s : State) : Out :=
  vecOp i g lat (typeW t) d k z
    (fun st j => (op (typeW t) (elt (typeW t) (getV st a) j) (bElt st gb (typeW t) b j) % 2 ^ typeW t, 0)) s

/-- VADD (R123). -/
def execVadd (g : Guard) (d a b : R6) (t rm k : BitVec 3) (z gb : Bool) (s : State) : Out :=
  vecFp2 (.vadd g d a b t rm k z gb) g 4 d a b t rm k z gb xAdd s

/-- VSUB (R123). -/
def execVsub (g : Guard) (d a b : R6) (t rm k : BitVec 3) (z gb : Bool) (s : State) : Out :=
  vecFp2 (.vsub g d a b t rm k z gb) g 4 d a b t rm k z gb (fun r x y => xAdd r x (xFlip y)) s

/-- VMUL (R123). -/
def execVmul (g : Guard) (d a b : R6) (t rm k : BitVec 3) (z gb : Bool) (s : State) : Out :=
  vecFp2 (.vmul g d a b t rm k z gb) g 4 d a b t rm k z gb (fun _ x y => xMul x y) s

/-- VDIV (R123, R124). -/
def execVdiv (g : Guard) (d a b : R6) (t rm k : BitVec 3) (z gb : Bool) (s : State) : Out :=
  vecDivOp (.vdiv g d a b t rm k z gb) g (typeW t) d k z
    (fun st j => fpBin (fun _ x y => xDiv x y) (fmtOfT t) (modeOf rm st) (elt (typeW t) (getV st a) j)
      (bElt st gb (typeW t) b j)) s

/-- VFMA (R123). -/
def execVfma (g : Guard) (d a b c : R6) (t rm k : BitVec 3) (z gb : Bool) (s : State) : Out :=
  vecFma (.vfma g d a b c t rm k z gb) g d a b c t rm k z gb false false s

/-- VFMS (R123). -/
def execVfms (g : Guard) (d a b c : R6) (t rm k : BitVec 3) (z gb : Bool) (s : State) : Out :=
  vecFma (.vfms g d a b c t rm k z gb) g d a b c t rm k z gb false true s

/-- VFNMA (R123). -/
def execVfnma (g : Guard) (d a b c : R6) (t rm k : BitVec 3) (z gb : Bool) (s : State) : Out :=
  vecFma (.vfnma g d a b c t rm k z gb) g d a b c t rm k z gb true false s

/-- VMIN (R124). -/
def execVmin (g : Guard) (d a b : R6) (t k : BitVec 3) (z gb : Bool) (s : State) : Out :=
  vecOp (.vmin g d a b t k z gb) g 2 (typeW t) d k z
    (fun st j => fpMinMax false (fmtOfT t) (elt (typeW t) (getV st a) j) (bElt st gb (typeW t) b j)) s

/-- VMAX (R124). -/
def execVmax (g : Guard) (d a b : R6) (t k : BitVec 3) (z gb : Bool) (s : State) : Out :=
  vecOp (.vmax g d a b t k z gb) g 2 (typeW t) d k z
    (fun st j => fpMinMax true (fmtOfT t) (elt (typeW t) (getV st a) j) (bElt st gb (typeW t) b j)) s

/-- VABS (R124, R125). -/
def execVabs (g : Guard) (d a : R6) (t k : BitVec 3) (z : Bool) (s : State) : Out :=
  vecOp (.vabs g d a t k z) g 2 (typeW t) d k z (fun st j => fpSign false (fmtOfT t) (elt (typeW t) (getV st a) j)) s

/-- VNEG (R124, R125). -/
def execVneg (g : Guard) (d a : R6) (t k : BitVec 3) (z : Bool) (s : State) : Out :=
  vecOp (.vneg g d a t k z) g 2 (typeW t) d k z (fun st j => fpSign true (fmtOfT t) (elt (typeW t) (getV st a) j)) s

/-- VCLASS (R124, R125). -/
def execVclass (g : Guard) (d a : R6) (t k : BitVec 3) (z : Bool) (s : State) : Out :=
  vecOp (.vclass g d a t k z) g 2 (typeW t) d k z (fun st j => (2 ^ fpClass (fmtOfT t) (elt (typeW t) (getV st a) j), 0)) s

/-- VRCP, correctly rounded (R123, R124). -/
def execVrcp (g : Guard) (d a : R6) (t rm k : BitVec 3) (z : Bool) (s : State) : Out :=
  vecFp1 (.vrcp g d a t rm k z) g 8 d a t rm k z xRcp s

/-- VRSQ, correctly rounded (R123, R124). -/
def execVrsq (g : Guard) (d a : R6) (t rm k : BitVec 3) (z : Bool) (s : State) : Out :=
  vecFp1 (.vrsq g d a t rm k z) g 8 d a t rm k z xRsq s

/-- VEXP2, correctly rounded (R123, R124). -/
def execVexp2 (g : Guard) (d a : R6) (t rm k : BitVec 3) (z : Bool) (s : State) : Out :=
  vecFp1 (.vexp2 g d a t rm k z) g 8 d a t rm k z xExp2 s

/-- VLOG2, correctly rounded (R123, R124). -/
def execVlog2 (g : Guard) (d a : R6) (t rm k : BitVec 3) (z : Bool) (s : State) : Out :=
  vecFp1 (.vlog2 g d a t rm k z) g 8 d a t rm k z xLog2 s

/-- VTANH, correctly rounded (R123, R124). -/
def execVtanh (g : Guard) (d a : R6) (t rm k : BitVec 3) (z : Bool) (s : State) : Out :=
  vecFp1 (.vtanh g d a t rm k z) g 8 d a t rm k z xTanh s

/-- VSQRT (R123, R124). -/
def execVsqrt (g : Guard) (d a : R6) (t rm k : BitVec 3) (z : Bool) (s : State) : Out :=
  vecDivOp (.vsqrt g d a t rm k z) g (typeW t) d k z
    (fun st j => fpUn xSqrt (fmtOfT t) (modeOf rm st) (elt (typeW t) (getV st a) j)) s

/-- VIADD (R126). -/
def execViadd (g : Guard) (d a b : R6) (t k : BitVec 3) (z gb : Bool) (s : State) : Out :=
  vecInt2 (.viadd g d a b t k z gb) g 2 d a b t k z gb (fun _ x y => x + y) s

/-- VISUB (R126). -/
def execVisub (g : Guard) (d a b : R6) (t k : BitVec 3) (z gb : Bool) (s : State) : Out :=
  vecInt2 (.visub g d a b t k z gb) g 2 d a b t k z gb (fun w x y => x + (2 ^ w - y)) s

/-- VIMUL (R126). -/
def execVimul (g : Guard) (d a b : R6) (t k : BitVec 3) (z gb : Bool) (s : State) : Out :=
  vecInt2 (.vimul g d a b t k z gb) g 3 d a b t k z gb (fun _ x y => x * y) s

/-- VISHL (R126). -/
def execVishl (g : Guard) (d a b : R6) (t k : BitVec 3) (z gb : Bool) (s : State) : Out :=
  vecInt2 (.vishl g d a b t k z gb) g 2 d a b t k z gb (fun w x y => x * 2 ^ (y % w)) s

/-- VISHR (R126). -/
def execVishr (g : Guard) (d a b : R6) (t k : BitVec 3) (z gb : Bool) (s : State) : Out :=
  vecInt2 (.vishr g d a b t k z gb) g 2 d a b t k z gb (fun w x y => x / 2 ^ (y % w)) s

/-- VISAR (R126). -/
def execVisar (g : Guard) (d a b : R6) (t k : BitVec 3) (z gb : Bool) (s : State) : Out :=
  vecInt2 (.visar g d a b t k z gb) g 2 d a b t k z gb (fun w x y => wrapN w (sextN w x / (2 ^ (y % w) : Nat))) s

/-- VAND (R126). -/
def execVand (g : Guard) (d a b : R6) (t k : BitVec 3) (z gb : Bool) (s : State) : Out :=
  vecInt2 (.vand g d a b t k z gb) g 2 d a b t k z gb (fun _ x y => x &&& y) s

/-- VOR (R126). -/
def execVor (g : Guard) (d a b : R6) (t k : BitVec 3) (z gb : Bool) (s : State) : Out :=
  vecInt2 (.vor g d a b t k z gb) g 2 d a b t k z gb (fun _ x y => x ||| y) s

/-- VXOR (R126). -/
def execVxor (g : Guard) (d a b : R6) (t k : BitVec 3) (z gb : Bool) (s : State) : Out :=
  vecInt2 (.vxor g d a b t k z gb) g 2 d a b t k z gb (fun _ x y => x ^^^ y) s

/-- VIMULH (R126). -/
def execVimulh (g : Guard) (d a b : R6) (t k : BitVec 3) (z u gb : Bool) (s : State) : Out :=
  vecInt2 (.vimulh g d a b t k z u gb) g 3 d a b t k z gb (viMulh u) s

/-- VIMIN (R126). -/
def execVimin (g : Guard) (d a b : R6) (t k : BitVec 3) (z u gb : Bool) (s : State) : Out :=
  vecInt2 (.vimin g d a b t k z u gb) g 2 d a b t k z gb (viMin u) s

/-- VIMAX (R126). -/
def execVimax (g : Guard) (d a b : R6) (t k : BitVec 3) (z u gb : Bool) (s : State) : Out :=
  vecInt2 (.vimax g d a b t k z u gb) g 2 d a b t k z gb (viMax u) s

/-- VIABS (R126). -/
def execViabs (g : Guard) (d a : R6) (t k : BitVec 3) (z : Bool) (s : State) : Out :=
  vecOp (.viabs g d a t k z) g 2 (typeW t) d k z
    (fun st j => (wrapN (typeW t) ((sextN (typeW t) (elt (typeW t) (getV st a) j)).natAbs : Int), 0)) s

/-- VIADDSAT (R127). -/
def execViaddsat (g : Guard) (d a b : R6) (t k : BitVec 3) (z u gb : Bool) (s : State) : Out :=
  vecOp (.viaddsat g d a b t k z u gb) g 2 (typeW t) d k z
    (fun st j => viAddSat u (typeW t) (elt (typeW t) (getV st a) j) (bElt st gb (typeW t) b j)) s

end Sys2Proof.Machine
end

