-- ==== Sys2Proof/Machine/Attention.lean ====
section
/-! DEFINITION. VLDB (spec/06 R172, R173), key positions, rotation and attention, major 0x19 (spec/11), with the
KVAPP, ATTD and RAMPSET work of the engines. -/

namespace Sys2Proof.Machine

/-! ### VLDB (R172, R173, R303) -/

/-- Everything that VLDB needs of its page. -/
structure VldbPage where
  v : PageView
  /-- Physical address of the scale area. -/
  scale : Nat
  /-- Head-group record of a ROPE page. -/
  hg : Option (List Byte)
  pair : Bool
  pos : Nat
deriving DecidableEq, Repr

/-- The attributes of a page as record words 0 and 2 give them. -/
def viewOf (w0 w2 : Word) (va phys : Nat) : PageView :=
  { va := va / 32768 * 32768, phys := phys, fmt := w0.toNat / 16 % 16, blk := w0.toNat / 256 % 4
    axis := w0.toNat / 1024 % 2, loc := w2 }

/-- What a VLDB at `va` takes of the records of its page and of the scale page: words 0 and 2, and word 0 (R178). -/
def vldbAttr (s : State) (t : Strand) (va : Nat) : List Word :=
  match syncXl t s false va with
  | none => []
  | some x =>
    let w0 := recWord s t.task.pid x.fri 0
    let w2 := recWord s t.task.pid x.fri 2
    match syncXl t s false (viewOf w0 w2 va 0).scaleVa with
    | some y => [w0, w2, recWord s t.task.pid y.fri 0]
    | none => [w0, w2, 0]

/-- The page at `va` and its checks in the order of R400: RESIDENCY, ALIGN, FORMAT. Its attributes are those at issue (R178). -/
def vldbPage (s : State) (t : Strand) (va mode : Nat) : Except (Cause × Nat) VldbPage :=
  match syncXl t s false va with
  | none => .error (.residency, va)
  | some x =>
    let attr := if t.atIssue.isEmpty then vldbAttr s t va else t.atIssue
    let v := viewOf (attr.getD 0 0) (attr.getD 1 0) va (framePhys 1 x.loc)
    let sx := if v.ok && v.blk != 0 then syncXl t s false v.scaleVa else some x
    let rope := pteRope x.pte0
    let hg := if rope then rotaryFor s t (pteHgrp x.pte1) else .ok []
    match sx with
    | none => .error (.residency, v.scaleVa)
    | some sx =>
      let ok : VldbPage :=
        { v := v, scale := xlPhys sx v.scaleVa, hg := (match hg with | .ok bs => if rope then some bs else none | _ => none)
          pair := ptePair x.pte0, pos := ptePos x.pte1 }
      match hg with
      | .error .residency => .error (.residency, va)
      | _ =>
        if !(decide (1 ≤ v.fmt ∧ v.fmt ≤ 12)) then .error (.format, va)
        else if va % (512 * v.w) ≠ 0 then .error (.align, va)
        else if !v.ok then .error (.format, va)
        else if v.blk ≠ 0 && !v.scaleOk ((attr.getD 2 0).toNat / 16 % 16) then .error (.format, v.scaleVa)
        else match hg with
          | .error c => .error (c, va)
          | .ok bs => if rope && (decide (2 ≤ mode) || !hgFits bs v.w) then .error (.format, va) else .ok ok

/-- Row and column of element `i` of run `l`. -/
def vldbElt (mode l i : Nat) : Nat × Nat :=
  if mode ≤ 1 then (l / 2, 32 * (l % 2) + i) else (32 * (l % 2) + i, l / 2)

/-- The places (t, r, c) that a run reads: its elements and the partners of those that rotate (R302). -/
def vldbPlaces (g : VldbPage) (mode tile l : Nat) : List (Nat × Nat × Nat) :=
  (List.range 32).flatMap (fun i =>
    let e := vldbElt mode l i
    match g.hg.bind (fun bs => partnerOf bs g.pair tile e.2) with
    | some (_, _, t', c') => [(tile, e.1, e.2), (t', e.1, c')]
    | none => [(tile, e.1, e.2)])

/-- What a run reads: its elements, and their scales (R172). -/
def vldbElts (pg : VldbPage) (mode tile l : Nat) : List (Nat × Nat) :=
  (vldbPlaces pg mode tile l).map (fun e => (pg.v.phys + eltByte pg.v.w e.1 mode e.2.1 e.2.2, eltBytes pg.v.w))

def vldbScales (pg : VldbPage) (mode tile l : Nat) : List (Nat × Nat) :=
  if pg.v.blk = 0 then []
  else (vldbPlaces pg mode tile l).map (fun e =>
    (pg.scale + scaleByte pg.v.blk (pg.v.block e.1 e.2.1 e.2.2), scaleEsz pg.v.blk))

/-- The tile at a VA of the page, and the run that a word names. -/
def vldbTile (pg : VldbPage) (va : Nat) : Nat := va % 32768 / (512 * pg.v.w)
def vldbRun (w : Word) : Nat := w.toNat % 128

/-- The lines of a VLDB: the page's, then the scale area's (R160, R172). -/
def vldbLines (pg : VldbPage) (mode tile l : Nat) : List Nat :=
  linesOf (vldbElts pg mode tile l) ++ linesOf (vldbScales pg mode tile l)

/-- VLDB in the cycle of its last line (R160, R172). -/
def execVldb (g : Guard) (data base gl : R6) (mode : BitVec 2) (disp : BitVec 24) (s : State) : Out :=
  issue (.vldb g data base gl mode disp) g advance (fun t s =>
    let i := Instr.vldb g data base gl mode disp
    let va := (baseDisp base disp t).toNat
    let m := mode.toNat
    match vldbPage s t va m with
    | .error (c, a) => raise i c s t (BitVec.ofNat 64 a)
    | .ok pg =>
      let tile := vldbTile pg va
      let l := vldbRun (getG t gl)
      let rd := vldbElts pg m tile l
      let sc := vldbScales pg m tile l
      match rd.find? (fun e => eccBad s e.1 e.2), sc.find? (fun e => eccBad s e.1 e.2) with
      | some e, _ => raise i .memoryEcc s t (BitVec.ofNat 64 (pg.v.va + e.1 % 32768))
      | none, some e => raise i .memoryEcc s t (BitVec.ofNat 64 (pg.v.scaleVa / 32768 * 32768 + e.1 % 32768))
      | none, none =>
        let s' := (rd ++ sc).foldl (fun s a => correctSoft s a.1 a.2) s
        let dec := pg.v.f32 { s with mem := laneView t s } pg.scale m
        let vals := (List.range 32).map (fun k =>
          let p := vldbElt m l k
          match pg.hg with
          | some bs => rotElt dec bs pg.pair pg.pos tile p.1 p.2
          | none => dec tile p.1 p.2)
        let lat := if pg.hg.isSome then 15 else 9
        let f := vals.foldl (fun f v => f ||| v.2) 0
        putStrand s' (advance (lateFlags s.cycle lat f
          (setV s.cycle lat data (ofElts 32 (vals.map (·.1))) t)))) s

/-! ### Triples (R305, R306) -/

/-- The larger of two values that are not NaN. -/
def xMax (a b : Xr) : Xr := if xBelow a b then b else a

/-- W(x, m) with the flags of its two roundings. -/
def wExp (x m : Xr) : Xr × FpFlags :=
  if xCmp x m = 0 then (xInt 1, 0)
  else
    let d := groupSum [x, xFlip m]
    let r := rnF32 d.1
    let e := rnF32 (xExp2 (decodeFmt .fp32 r.1)).1
    (decodeFmt .fp32 e.1, d.2 ||| r.2 ||| e.2)

/-- m, w1 and w2 of MERGE, none when a maximum is NaN; NV for a signalling NaN (R70). -/
def mergeW (m1 m2 : Nat) : Option (Nat × Xr × Xr) × FpFlags :=
  let f := snanFlag .fp32 [m1, m2]
  let x := decodeFmt .fp32 m1
  let y := decodeFmt .fp32 m2
  if xIsNan x || xIsNan y then (none, f)
  else
    let m := xMax x y
    let a := wExp x m
    let b := wExp y m
    (some ((rnF32 m).1, a.1, b.1), f ||| a.2 ||| b.2)

/-- G(w1 × a, w2 × b) on FP32 codes. -/
def gPair (w1 w2 : Xr) (a b : Nat) : Nat × FpFlags :=
  let r := gSum [(w1, decodeFmt .fp32 a), (w2, decodeFmt .fp32 b)]
  (r.1, r.2 ||| snanFlag .fp32 [a, b])

/-- A triple (m, l, a). -/
structure Triple where
  m : Nat
  l : Nat
  a : List Nat
deriving DecidableEq, Repr

/-- The empty triple of `dh` elements. -/
def Triple.empty (dh : Nat) : Triple := ⟨infCode .fp32 + signBit .fp32, 0, List.replicate dh 0⟩

def Triple.nan (dh : Nat) : Triple := ⟨nanCode .fp32, nanCode .fp32, List.replicate dh (nanCode .fp32)⟩

/-- MERGE (R306). -/
def mergeT (x y : Triple) : Triple × FpFlags :=
  match mergeW x.m y.m with
  | (none, f) => (Triple.nan (max x.a.length y.a.length), f)
  | (some (m, w1, w2), f) =>
    let l := gPair w1 w2 x.l y.l
    let a := (x.a.zip y.a).map (fun e => gPair w1 w2 e.1 e.2)
    (⟨m, l.1, a.map (·.1)⟩, a.foldl (fun f e => f ||| e.2) (f ||| l.2))

/-- ATTM.S (R321). -/
def execAttmS (g : Guard) (d a b : R6) (s : State) : Out :=
  laneOp (.attmS g d a b) g advance (fun t =>
    let x := (getG t a).toNat
    let y := (getG t b).toNat
    let r := mergeT ⟨x % 2 ^ 32, x / 2 ^ 32, []⟩ ⟨y % 2 ^ 32, y / 2 ^ 32, []⟩
    advance (lateFlags s.cycle 8 r.2 (setG s.cycle 8 d (BitVec.ofNat 64 (r.1.m + 2 ^ 32 * r.1.l)) t))) s

/-- ATTM.V (R321). -/
def execAttmV (g : Guard) (d a b c : R6) (k : BitVec 3) (z : Bool) (s : State) : Out :=
  vecOp (.attmV g d a b c k z) g 8 32 d k z (fun t i =>
    let w := (getG t c).toNat
    match mergeW (w % 2 ^ 32) (w / 2 ^ 32) with
    | (none, f) => (nanCode .fp32, f)
    | (some (_, w1, w2), f) =>
      let r := gPair w1 w2 (elt 32 (getV t a) i) (elt 32 (getV t b) i)
      (r.1, f ||| r.2)) s

/-- VROPE (R323). -/
def execVrope (g : Guard) (d a b c : R6) (k : BitVec 3) (z split y : Bool) (s : State) : Out :=
  vecOp (.vrope g d a b c k z split y) g 6 32 d k z (fun t i =>
    let pos := (getG t b).toNat
    let x := fun j => elt 32 (getV t a) j
    let f := fun j => elt 32 (getV t c) j
    if split then
      let p := x i
      let q := elt 32 (getV t (a + 1)) i
      let r := rotPair pos (f i) p q
      let e := if y then r.2 else r.1
      (e.1, e.2 ||| snanFlag .fp32 [p, q])
    else
      let p := x (i / 2 * 2)
      let q := x (i / 2 * 2 + 1)
      let r := rotPair pos (f (i / 2)) p q
      let e := if i % 2 = 1 then r.2 else r.1
      (e.1, e.2 ||| snanFlag .fp32 [p, q])) s

/-! ### Reads and writes of engines by virtual address (R179, R201) -/

/-- The pieces of `n` bytes at `va`, page by page: (physical address, length, translation); the VA that has none. -/
def engPieces (s : State) (o : Op) (write : Bool) : Nat → Nat → Nat →
    Except (Cause × Nat) (List (Nat × Nat × TcEnt)) × State
  | 0, _, _ => (.ok [], s)
  | k + 1, va, n =>
    if n = 0 then (.ok [], s)
    else
      match engAddr s o (va % 2 ^ 48) write with
      | (.error c, s) => (.error (c, va % 2 ^ 48), s)
      | (.ok (a, x), s) =>
        let len := min n (32768 - va % 32768)
        match engPieces s o write k (va + len) (n - len) with
        | (.error e, s) => (.error e, s)
        | (.ok l, s) => (.ok ((a, len, x) :: l), s)

/-- The offset, among `n` bytes at physical address `a`, of the first aligned word with an uncorrectable error: 0 when it
is the word that holds the first byte. -/
def eccOff (s : State) (a n : Nat) : Option Nat :=
  ((List.range ((a % 8 + n + 7) / 8)).find? (fun i => decide (0 < n) && eccBad s (wordOf a + 8 * i) 1)).map
    (fun i => 8 * i - a % 8)

/-- The virtual address of the first failing word of pieces that begin at `va` (R405). -/
def eccVa (s : State) : Nat → List (Nat × Nat × TcEnt) → Option Nat
  | _, [] => none
  | va, (a, n, _) :: l =>
    match eccOff s a n with
    | some k => some ((va + k) / 8 * 8 % 2 ^ 48)
    | none => eccVa s (va + n) l

/-- `n` bytes at `va` as an engine reads them: TRANSLATION, then MEMORY_ECC. What its die's buffers answer counts as seen (R368). -/
def engFetch (s : State) (o : Op) (va n : Nat) : Except (Cause × Nat) (List Byte) × State :=
  match engPieces s o false (n / 32768 + 2) va n with
  | (.error e, s) => (.error e, s)
  | (.ok l, s) =>
    match eccVa s va l with
    | some v => (.error (.memoryEcc, v), s)
    | none => (.ok (l.flatMap (fun e => engRead s (dieOf o.cl) e.1 e.2.1)),
        l.foldl (fun s e => seeWrites (correctSoft s e.1 e.2.1) (dieOf o.cl) e.1 e.2.1) s)

/-- The words of a list of (offset, bytes) in a range whose pieces these are, to be written one by one (R311, R367). -/
def pieceWords (l : List (Nat × Nat × TcEnt)) (f : Bool) (ws : List (Nat × List Byte)) : List OutWord :=
  let rec go : List (Nat × Nat × TcEnt) → Nat → List Byte → List OutWord
    | [], _, _ => []
    | (a, n, x) :: l, off, bs => if off < n then outWords x (a + off) bs f else go l (off - n) bs
  ws.flatMap (fun w => go l w.1 w.2)

/-- Engine-port writes of the next cycle have begun somewhere: a unit that reads several places at once reads them in the next
cycle (R365). -/
def readsOver (s : State) : Bool := !s.written.isEmpty

/-- A word among these bytes cannot be read by the engine yet (R183, R365). -/
def wordsBusy (s : State) (o : Op) (a n : Nat) : Bool :=
  (List.range ((a % 8 + n + 7) / 8)).any (fun i => bgBusy s o (wordOf a + 8 * i))

/-! ### KVAPP (R317) -/

/-- Bytes of a KVAPP source stream: none known when the head-group record does not say. -/
def kvappLen (s : State) (t : Strand) (kpage ntok : Nat) (vpage : Nat) : Nat × Nat :=
  let rot := cpCtl s t.cl t.task.pid 0x1B0
  match setXl t false (kpage / 32768) with
  | none => (0, 0)
  | some x =>
    match walk s t.task.pid t.task.root (rotVa rot (pteHgrp x.pte1) / 32768) with
    | none => (0, 0)
    | some l =>
      let bs := rdBytes s.mem (recPhys s t.task.pid l.fri + rotVa rot (pteHgrp x.pte1) % 32768) 8
      let n := ntok * hgNs bs * hgDh bs
      let w := fun (pg : Nat) => match setXl t false (pg / 32768) with
        | some x => contW (recFmt s t.task.pid x.fri)
        | none => 0
      if rotEn rot && hgOk bs then ((n * w kpage + 7) / 8, (n * w vpage + 7) / 8) else (0, 0)

/-- A page of the page set that is not on a frame of the strand's cluster; a replicated page's is its replica (R154). -/
def pageAway (s : State) (t : Strand) (va : Nat) : Bool :=
  match setXl t false (va / 32768) with
  | some x => !(pteRepl x.pte0 || localRec s t.task.pid x.fri t.cl)
  | none => false

/-- The page is in the page set with write intent. -/
def inWriteSet (t : Strand) (va : Nat) : Bool := (setXl t false (va / 32768)).any (fun x => x.wr)

/-- KVAPP (R317). NTOK outside 1-64 raises RESERVED_FIELD, a cause that R317 does not name for it (log 109). -/
def execKvapp (g : Guard) (ch : BitVec 2) (sc : BitVec 3) (d a c : R6) (s : State) : Out :=
  issue (.kvapp g ch sc d a c) g advance (fun t s =>
    let i := Instr.kvapp g ch sc d a c
    let va := va48 (getG t a)
    if !chanBooked s t ch.toNat then raiseBooking i s t (25 + ch.toNat)
    else if ctrFull t c then raise i .counter s t 0
    else if va % 64 ≠ 0 then raise i .align s t (BitVec.ofNat 64 va)
    else match laneRead s t va 64 with
      | .error e => raise i e.1 s t (BitVec.ofNat 64 e.2)
      | .ok r =>
        let w := fun k => (r.words.getD k 0)
        let kp := va48 (w 0)
        let vp := va48 (w 1)
        let ks := va48 (w 2)
        let vs := va48 (w 3)
        let n := (w 4).toNat % 128
        let len := kvappLen s t kp n vp
        match [(kp, 32768), (vp, 32768), (ks, 8), (vs, 8)].find? (fun e => e.1 % e.2 != 0) with
        | some e => raise i .align s t (BitVec.ofNat 64 e.1)
        | none =>
          if (List.range 4).any (fun k => (w k).toNat / 2 ^ 48 != 0) || (w 4).toNat / 128 != 0 || w 5 != 0 || w 6 != 0
              || w 7 != 0 || n == 0 || decide (64 < n) then raise i .reservedField s t 0
          else match (wordVas ks len.1 ++ wordVas vs len.2).find? (fun v => !inPageSet t v || pageAway s t v),
              [kp, vp].find? (pageAway s t), [kp, vp].find? (fun v => !inWriteSet t v) with
          | some v, _, _ => raise i .residency s t (BitVec.ofNat 64 v)
          | none, some v, _ => raise i .residency s t (BitVec.ofNat 64 v)
          | none, none, some v => raise i .protection s t (BitVec.ofNat 64 v)
          | none, none, none =>
            let s := r.st
            if 16 ≤ (chanOps s t.cl ch.toNat).length then implicitSplit s t 3 (toW ch) 0
            else
              let q := (tabGet (getClu s t.cl).chSeq ch.toNat).getD 0
              let s' := updClu s t.cl (fun k => { k with chSeq := tabSet k.chSeq ch.toNat ((q + 1) % 2 ^ 16) })
              let o := { mkOp s t .kvapp (some c) (dstG d) sc.toNat
                  [w 0, w 1, w 2, w 3, BitVec.ofNat 64 n] with
                unit := ch.toNat, seq := q
                leases := leaseOf s t [(ks, len.1), (vs, len.2), (kp, 32768), (vp, 32768)] }
              issueOp s' { t with lastCh := tabSet t.lastCh ch.toNat (issueTick t s) } o) s

/-- The chunks of token `n` in one page: (byte offset in the source stream, byte offset in the page, bytes). -/
def kvChunks (bs : List Byte) (w n row : Nat) : List (Nat × Nat × Nat) :=
  (List.range (hgNs bs)).flatMap (fun h =>
    (List.range (hgCt bs)).map (fun u =>
      (((n * hgNs bs + h) * hgDh bs + 64 * u) * w / 8, 512 * w * (h * hgCt bs + u) + 8 * w * row,
        min 64 (hgDh bs - 64 * u) * w / 8)))

/-- Read the source chunks of a token: the bytes of each, and where they go; and whether a word of them cannot be read yet
(R183). -/
def kvRead (o : Op) (src page : Nat) : List (Nat × Nat × Nat) → State →
    Except (Cause × Nat) (List (Nat × List Byte) × Bool) × State
  | [], s => (.ok ([], false), s)
  | (a, b, n) :: l, s =>
    match engFetch s o (src + a) n, (engPieces s o false 2 (src + a) n).1 with
    | (.error e, s), _ => (.error e, s)
    | (.ok x, s), ps =>
      let busy := match ps with
        | .ok ps => ps.any (fun p => wordsBusy s o p.1 p.2.1)
        | .error _ => false
      match kvRead o src page l s with
      | (.error e, s) => (.error e, s)
      | (.ok r, s) => (.ok ((page + b, x) :: r.1, busy || r.2), s)

/-- FILL of the page at `va` becomes `n`. -/
def setFill (s : State) (p root va n : Nat) : State :=
  match walk s p root (va / 32768) with
  | some l => setPte s p l l.pte0 (setField l.pte1 40 8 n)
  | none => s

/-- One step of a KVAPP: its opening checks, or the reads of one token, or the next word of that token's rows; FILL last
(R317, R367). -/
def unitKvapp (s : State) (o : Op) : UnitRes :=
  let kp := va48 (o.args.getD 0 0)
  let vp := va48 (o.args.getD 1 0)
  let n := (o.args.getD 4 0).toNat
  let ix := BitVec.ofNat 64 o.i
  match o.out with
  | w :: _ => outWord s o w
  | [] => if readsOver s || replPending s o then .hold s
  else if o.acc.isEmpty then
    if s.ops.any (fun q => q.kind == .kvapp && q.cl == o.cl && q.pid == o.pid && decide (q.id < o.id)
        && va48 (q.args.getD 0 0) == kp) then .hold s
    else
      match engAddr s o kp false with
      | (.error c, s) => .stop c (BitVec.ofNat 64 kp) ix s
      | (.ok (_, k), s) =>
        match engAddr s o vp false with
        | (.error c, s) => .stop c (BitVec.ofNat 64 vp) ix s
        | (.ok (_, v), s) =>
          let rot := cpCtl s o.cl o.pid 0x1B0
          if !rotEn rot then .last (2 ^ 63 + 4) s
          else
            match engFetch s o (rotVa rot (pteHgrp k.pte1)) 1024 with
            | (.error e, s) => .stop e.1 (BitVec.ofNat 64 e.2) ix s
            | (.ok bs, s) =>
              let j0 := pteFill k.pte1
              let bad := fun (x : TcEnt) =>
                let f := recFmt s o.pid x.fri
                !pairOk f (recBlk s o.pid x.fri) || recBlk s o.pid x.fri != 0 || !hgFits bs (contW f)
                  || (contW f == 2 && hgDh bs % 4 != 0)
              if !hgOk bs || bad k || bad v || decide (64 < j0) then .last (2 ^ 63 + 4) s
              else if 64 < j0 + n then .last (2 ^ 63 + 7) s
              else .more (updOp s o.id (fun o => { o with acc := [BitVec.ofNat 64 j0], bytes := bs }))
  else
    let j0 := (o.acc.getD 0 0).toNat
    let bs := o.bytes
    if n ≤ o.i then .last (j0 + n) (setFill (setFill s o.pid o.root kp (j0 + n)) o.pid o.root vp (j0 + n))
    else match engAddr s o kp true with
    | (.error c, s) => .stop c (BitVec.ofNat 64 kp) ix s
    | (.ok (ka, k), s) =>
      match engAddr s o vp true with
      | (.error c, s) => .stop c (BitVec.ofNat 64 vp) ix s
      | (.ok (va, v), s) =>
        let ch := fun (x : TcEnt) => kvChunks bs (contW (recFmt s o.pid x.fri)) o.i (j0 + o.i)
        match kvRead o (va48 (o.args.getD 2 0)) ka (ch k) s with
        | (.error e, s) => .stop e.1 (BitVec.ofNat 64 e.2) ix s
        | (.ok kw, s) =>
          match kvRead o (va48 (o.args.getD 3 0)) va (ch v) s with
          | (.error e, s) => .stop e.1 (BitVec.ofNat 64 e.2) ix s
          | (.ok vw, s) =>
            if kw.2 || vw.2 then .hold s
            else
              let rows := fun (x : TcEnt) (l : List (Nat × List Byte)) => l.flatMap (fun e => outWords x e.1 e.2 false)
              .more (updOp s o.id (fun o => { o with i := o.i + 1, out := rows k kw.1 ++ rows v vw.1 }))

/-- KVAPP_TOKEN: the KVAPP at the head of a channel takes its next step (R317). -/
def execKvappToken (s : State) : Out :=
  match s.ops.find? (fun o => o.id == s.ev.id) with
  | some o =>
    if o.kind == .kvapp && channelHead s o && opReady s o then .next (applyUnit o 0 (unitKvapp s o)) else .next s
  | none => .next s

/-! ### KVSPLICE, KVTRIM, RAMPSET (R318, R319, R322) -/

/-- KVSPLICE. -/
def execKvsplice (g : Guard) (d a b c : R6) (s : State) : Out :=
  pageOp (.kvsplice g d a b c) g .kvsplice d c (fun t => [getG t a, getG t b, getG t (b + 1)]) s

/-- KVSPLICE.S. -/
def execKvspliceS (g : Guard) (d a b c : R6) (s : State) : Out :=
  pageOp (.kvspliceS g d a b c) g .kvspliceS d c (fun t => [getG t a, getG t b]) s

/-- KVTRIM. -/
def execKvtrim (g : Guard) (d a b c : R6) (s : State) : Out :=
  pageOp (.kvtrim g d a b c) g .kvtrim d c (fun t => [getG t a, getG t b]) s

/-- RAMPSET. -/
def execRampset (g : Guard) (p : Bool) (d a b c : R6) (s : State) : Out :=
  pageOp (.rampset g p d a b c) g .rampset d c (fun t => [getG t a, if p then 0 else getG t b, b2w p]) s

/-- A word that gives POS_BASE and HGRP has a reserved bit set (R318). -/
def spliceBad (w : Word) : Bool := w.toNat / 2 ^ 40 % 2 ^ 8 != 0 || w.toNat / 2 ^ 56 != 0

/-- POS_BASE and HGRP of `w`, FILL of `old`. -/
def spliceWord (w old : Word) : Word := setField (setField (setField 0 0 40 (ptePos w)) 40 8 (pteFill old)) 48 8 (pteHgrp w)

/-- RAMPSET's write and invalidation; then it waits for the held copies (R300, R322). -/
def doRampset (s : State) (o : Op) : WalkRes :=
  let a := (o.args.getD 0 0).toNat
  let b := (o.args.getD 1 0).toNat
  let pub := o.args.getD 2 0 != 0
  let rot := cpCtl s o.cl o.pid 0x1B0
  let g := a % 256
  let va := rotVa rot g
  if a / 2 ^ 14 ≠ 0 || (pub && a / 256 != 0) || b / 2 ^ 32 != 0 || !rotEn rot then wErr 4 s
  else match walk s o.pid o.root (va / 32768) with
    | none => wErr 5 s
    | some l =>
      if !pub && (!pteW l.pte0 || pteCow l.pte0 || pteRepl l.pte0) then wErr 8 s
      else
        let s := if pub then s
          else wrN s (recPhys s o.pid l.fri + va % 32768 + 576 + 4 * (a / 256 % 64)) 4 b
        let s := { s with bduRot := s.bduRot.filter (fun e => !(e.2.1 == o.pid && e.2.2.1 == g)) }
        let nums := s.clParts.flatMap (fun e =>
          if e.1 % 16 == o.pid then (e.2.rotary.filter (fun r => r.hgrp == g && rotHeld s r.num)).map (·.num) else [])
        let s' := { s with clParts := s.clParts.map (fun e =>
          if e.1 % 16 == o.pid then
            (e.1, { e.2 with rotary := (e.2.rotary.filter (fun r => r.hgrp != g || rotHeld s r.num)).map (fun r =>
              if r.hgrp == g then { r with old := true } else r) })
          else e) }
        if nums.isEmpty then .done 0 s'
        else .wait (updOp s' o.id (fun o => { o with i := 1, acc := nums.map (BitVec.ofNat 64) }))

/-- What the walker does for these forms. -/
def doKv (s : State) (o : Op) : WalkRes :=
  let a := o.args.getD 0 0
  let b := o.args.getD 1 0
  let p := o.pid
  let vpn := va48 a / 32768
  match o.kind with
  | .kvsplice =>
    let w := o.args.getD 2 0
    if spliceBad w then wErr 4 s
    else if (walk s p o.root vpn).isSome then wErr 6 s
    else match walk s p o.root (va48 b / 32768) with
      | none => wErr 5 s
      | some l =>
        match mapRec s o.cl p o.root vpn l.fri (pteAttr l.pte0 ||| 8) (spliceWord w l.pte1) with
        | .done x s' =>
          if x.toNat / 2 ^ 63 = 1 then .done x s'
          else .done (BitVec.ofNat 64 l.fri) (setPte s' p l (l.pte0 ||| 8#64) l.pte1)
        | r => r
  | .kvspliceS =>
    if spliceBad b then wErr 4 s
    else match walk s p o.root vpn with
      | none => wErr 5 s
      | some l =>
        if spliceWord b l.pte1 = l.pte1 then .done 1 s else .done 0 (setPte s p l l.pte0 (spliceWord b l.pte1))
  | .kvtrim =>
    if b.toNat / 256 ≠ 0 then wErr 4 s
    else match walk s p o.root vpn with
      | none => wErr 5 s
      | some l =>
        if pteFill l.pte1 ≤ b.toNat then .done 1 s else .done 0 (setPte s p l l.pte0 (setField l.pte1 40 8 b.toNat))
  | _ => doRampset s o

/-- RAMPSET_COMPLETE: every copy held at its write has been dropped (R322). -/
def execRampsetComplete (s : State) : Out :=
  match s.ops.find? (fun o => o.id == s.ev.id) with
  | some o =>
    if o.kind == .rampset && o.i == 1 && !o.stopped && o.fin.isNone && !(o.acc.any (fun n => rotHeld s n.toNat)) then
      .next (doneOp s o.id 0)
    else .next s
  | none => .next s

/-! ### ATTD (R307-R312, R320) -/

/-- ATTD (R320). -/
def execAttd (g : Guard) (sc : BitVec 3) (a c : R6) (s : State) : Out :=
  issue (.attd g sc a c) g advance (fun t s =>
    let i := Instr.attd g sc a c
    let va := va48 (getG t a)
    if ctrFull t c then raise i .counter s t 0
    else if va % 64 ≠ 0 then raise i .align s t (BitVec.ofNat 64 va)
    else match laneRead s t va 64 with
      | .error e => raise i e.1 s t (BitVec.ofNat 64 e.2)
      | .ok r =>
        let w := fun k => (r.words.getD k 0)
        let n := (w 1).toNat / 2 ^ 48 % 2 ^ 13
        let dh := (w 3).toNat / 2 ^ 40 % 2 ^ 9
        if (w 0).toNat / 2 ^ 59 % 8 != 0 || (w 1).toNat / 2 ^ 61 != 0 || (w 2).toNat / 2 ^ 48 != 0
            || (w 3).toNat / 2 ^ 49 != 0 || w 4 != 0 || w 5 != 0 || w 6 != 0 || w 7 != 0 || decide (4096 < n)
            || dh % 2 != 0 || decide (dh < 2) || decide (256 < dh) then raise i .reservedField s t 0
        else match [(va48 (w 0), 8), (va48 (w 1), 16), (va48 (w 2), 64)].find? (fun e => e.1 % e.2 != 0) with
          | some e => raise i .align s t (BitVec.ofNat 64 e.1)
          | none =>
            let s := r.st
            issueOp s t { mkOp s t .attd (some c) none sc.toNat
                [w 0, w 1, w 2, w 3, cpCtl s t.cl t.task.pid 0x1B0] with
              leases := leaseOf s t [(va48 (w 0), 4 * dh), (va48 (w 1), 16 * n), (va48 (w 2), 64 + 4 * dh)] }) s

/-- FP32 values of little-endian bytes. -/
def f32s (bs : List Byte) (n : Nat) : List Nat := (List.range n).map (fun k => leAt bs (4 * k) 4)

/-- The head-group record as base-die unit `u` has it: cached, or fetched and kept (R300). -/
def bduRecord (s : State) (o : Op) (u : Nat) (rot : Word) (g : Nat) : Except (Cause × Nat) (List Byte) × State :=
  match s.bduRot.find? (fun e => e.1 == u && e.2.1 == o.pid && e.2.2.1 == g) with
  | some e => (.ok e.2.2.2, s)
  | none =>
    match engFetch s o (rotVa rot g) 1024 with
    | (.error e, s) => (.error e, s)
    | (.ok bs, s) => (.ok bs, { s with bduRot := (u, o.pid, g, bs) :: s.bduRot })

/-- The score after the distance ramp (R304). Where the text and the formula differ on the sign of a zero, the formula holds
(log 110). -/
def rampScore (sc sl : Nat) (qpos kpos : Nat) : Nat × FpFlags :=
  let dist : Int := (qpos : Int) - kpos
  let df := if dist.natAbs < 2 ^ 24 then (xInt dist, 0) else
    let r := rnF32 (xInt dist)
    (decodeFmt .fp32 r.1, r.2)
  let p := xMul (decodeFmt .fp32 sl) df.1
  let b := rnF32 p.1
  let d := xAdd .rne (decodeFmt .fp32 sc) (xFlip (decodeFmt .fp32 b.1))
  let r := rnF32 d.1
  (r.1, df.2 ||| p.2 ||| b.2 ||| d.2 ||| r.2 ||| snanFlag .fp32 [sl])

/-- One page of an ATTD as its unit has read it. -/
structure AttdPage where
  k : PageView
  v : PageView
  kscale : Nat
  vscale : Nat
  rope : Bool
  pair : Bool
  pos : Nat
  fill : Nat
  hg : List Byte
deriving DecidableEq, Repr

/-- Memory as the engines of die `d` read it, with its own buffered writes (R370). -/
def dieView (s : State) (d : Nat) : State :=
  { s with mem := (s.egress.filter (fun e => e.src == d)).foldl (fun m e => wrBytes m e.addr e.bytes) s.mem }

/-- The tokens of a page that are scored (R307). -/
def pageToks (g : AttdPage) (qpos : Nat) (causal : Bool) : List Nat :=
  (List.range g.fill).filter (fun j => !(causal && decide (qpos < g.pos + j)))

/-- The score of each scored token (R304, R307): query `q`, head slot, slope index. -/
def pageScores (s : State) (g : AttdPage) (q : List Nat) (hs hi qpos : Nat) (causal : Bool) : List (Nat × Nat × FpFlags) :=
  let dh := hgDh g.hg
  let t0 := hs * hgCt g.hg
  let kdec := g.k.f32 s g.kscale 0
  let kelt := fun j k =>
    if g.rope then rotElt kdec g.hg g.pair g.pos (t0 + k / 64) j (k % 64) else kdec (t0 + k / 64) j (k % 64)
  (pageToks g qpos causal).map (fun j =>
    let es := (List.range dh).map (fun k => (q.getD k 0, kelt j k))
    let d := gSum (es.map (fun e => (decodeFmt .fp32 e.1, decodeFmt .fp32 e.2.1)))
    let r := rampScore d.1 (hgSl g.hg hi) qpos (g.pos + j)
    (j, r.1, es.foldl (fun f e => f ||| e.2.2 ||| snanFlag .fp32 [e.1]) (d.2 ||| r.2)))

/-- V: the tokens whose score is not −∞ (R307). -/
def pageLive (scores : List (Nat × Nat × FpFlags)) : List (Nat × Xr) :=
  (scores.map (fun e => (e.1, decodeFmt .fp32 e.2.1))).filter (fun e => !(xIsInf e.2 && xNeg e.2))

/-- The contribution of a page from its scores (R307). -/
def pageTriple (s : State) (g : AttdPage) (hs : Nat) (scores : List (Nat × Nat × FpFlags)) : Triple × FpFlags :=
  let dh := hgDh g.hg
  let t0 := hs * hgCt g.hg
  let fl := scores.foldl (fun f e => f ||| e.2.2) 0
  let live := pageLive scores
  match live with
  | [] => (Triple.empty dh, fl)
  | e0 :: rest =>
    if live.any (fun e => xIsNan e.2) then (Triple.nan dh, fl)
    else
      let mp := rest.foldl (fun m e => xMax m e.2) e0.2
      let ws := live.map (fun e => (e.1, wExp e.2 mp))
      let lp := gSum (ws.map (fun e => (e.2.1, xInt 1)))
      let fl := ws.foldl (fun f e => f ||| e.2.2) (fl ||| lp.2)
      let ap := (List.range dh).map (fun k =>
        let vs := ws.map (fun e => (e.2.1, g.v.f32 s g.vscale 0 (t0 + k / 64) e.1 (k % 64)))
        let r := gSum (vs.map (fun e => (e.1, decodeFmt .fp32 e.2.1)))
        (r.1, vs.foldl (fun f e => f ||| e.2.2) r.2))
      (⟨(rnF32 mp).1, lp.1, ap.map (·.1)⟩, ap.foldl (fun f e => f ||| e.2) fl)

/-- What the unit reads of a page for tokens `js` of head slot `hs`: elements and their scales, each as virtual address,
physical address and length. -/
def tokenReads (v : PageView) (scale t0 dh : Nat) (js : List Nat) : List (Nat × Nat × Nat) :=
  js.flatMap (fun j => (List.range dh).flatMap (fun k =>
    let t := t0 + k / 64
    let b := eltByte v.w t 0 j (k % 64)
    let e := (v.va + b, v.phys + b, eltBytes v.w)
    if v.blk = 0 then [e]
    else
      let o := scaleByte v.blk (v.block t j (k % 64))
      [e, (v.scaleVa + o, scale + o, scaleEsz v.blk)]))

/-- The virtual address of the first word read that has an uncorrectable error (R311, R405). -/
def readsEcc (s : State) (l : List (Nat × Nat × Nat)) : Option Nat :=
  (l.find? (fun e => eccBad s e.2.1 e.2.2)).map (fun e => e.1 / 8 * 8 % 2 ^ 48)

/-- The checks of R311 for entry `i`, in their order; the stack of the first key page is `stk`, none before it. A word that
cannot be read, of the entry or of the head-group record, stops behind every cause that does not rest on it; a page's scale
area is looked at last (log 100). -/
def attdCheck (s : State) (o : Op) (stk : Option Nat) (i : Nat) :
    Except (Cause × Nat) (AttdPage × Nat) × State :=
  let w := fun k => o.args.getD k 0
  let rot := w 4
  let dh := (w 3).toNat / 2 ^ 40 % 2 ^ 9
  let hs := (w 0).toNat / 2 ^ 54 % 32
  let dest := va48 (w 2)
  let query := fun (s : State) => engPieces s o false 2 (va48 (w 0)) (4 * dh)
  match engFetch s o (va48 (w 1) + 16 * i) 16 with
  | (.error (.memoryEcc, a), s) =>
    match query s with
    | (.error e, s) => (.error e, s)
    | (.ok _, s) =>
      match engPieces s o false 3 dest (64 + 4 * dh) with
      | (.error e, s) => (.error e, s)
      | (.ok _, s) =>
        match engPieces s o true 3 dest (64 + 4 * dh) with
        | (.error e, s) => (.error e, s)
        | (.ok _, s) => (.error (.memoryEcc, a), s)
  | (.error e, s) => (.error e, s)
  | (.ok ent, s) =>
    let kva := leAt ent 0 6
    let vva := leAt ent 8 6
    match engAddr s o kva false with
    | (.error c, s) => (.error (c, kva), s)
    | (.ok (_, k), s) =>
      match engAddr s o vva false with
      | (.error c, s) => (.error (c, vva), s)
      | (.ok (_, v), s) =>
        let kph := recPhys s o.pid k.fri
        let vph := recPhys s o.pid v.fri
        let u := stk.getD ((physStack kph).getD 16)
        let s := updOp s o.id (fun o => { o with unit := u % 16 })
        let hg := if rotEn rot then bduRecord s o u rot (pteHgrp k.pte1) else (.error (.format, kva), s)
        match hg with
        | (.error (.translation, a), s) => (.error (.translation, a), s)
        | (rec', s) =>
          match query s with
          | (.error e, s) => (.error e, s)
          | (.ok _, s) => match engPieces s o false 3 dest (64 + 4 * dh) with
          | (.error e, s) => (.error e, s)
          | (.ok _, s) =>
            if kva % 32768 ≠ 0 then (.error (.align, kva), s)
            else if vva % 32768 ≠ 0 then (.error (.align, vva), s)
            else if physStack kph ≠ some u then (.error (.residency, kva), s)
            else if physStack vph ≠ some u then (.error (.residency, vva), s)
            else match engPieces s o true 3 dest (64 + 4 * dh) with
              | (.error e, s) => (.error e, s)
              | (.ok _, s) =>
                let kv := pageView s o.pid k.fri kva kph
                let vv := pageView s o.pid v.fri vva vph
                match rec' with
                | .error e =>
                  if decide (64 < pteFill k.pte1) || !kv.ok then (.error (.format, kva), s)
                  else if !vv.ok then (.error (.format, vva), s)
                  else (.error e, s)
                | .ok bs =>
                  let fit := fun (x : PageView) => x.ok && hgFits bs x.w
                  if !hgOk bs || hgDh bs != dh || decide (hgNs bs ≤ hs) || decide (64 < pteFill k.pte1) || !fit kv then
                    (.error (.format, kva), s)
                  else if !fit vv then (.error (.format, vva), s)
                  else
                    let area := fun (x : PageView) (s : State) =>
                      if x.blk = 0 then (Except.ok 0, s)
                      else match engAddr s o x.scaleVa false with
                        | (.error c, s) => (.error (c, x.scaleVa), s)
                        | (.ok (a, e), s) =>
                          if x.scaleOk (recFmt s o.pid e.fri) then (.ok a, s) else (.error (Cause.format, x.scaleVa), s)
                    match area kv s with
                    | (.error e, s) => (.error e, s)
                    | (.ok ks, s) =>
                      match area vv s with
                      | (.error e, s) => (.error e, s)
                      | (.ok vs, s) =>
                        (.ok ({ k := kv, v := vv, kscale := ks, vscale := vs, rope := pteRope k.pte0
                                pair := ptePair k.pte0, pos := ptePos k.pte1, fill := pteFill k.pte1, hg := bs }, u), s)

/-- The words of a triple record, by offset, in the order of a commit: the elements, L with M, then NI (R308, R311). The
reserved words are written before NI. -/
def tripleWords (t : Triple) (ni : Nat) : List (Nat × List Byte) :=
  let elts := (List.range (t.a.length / 2)).map (fun k =>
    (64 + 8 * k, toLe 4 (t.a.getD (2 * k) 0) ++ toLe 4 (t.a.getD (2 * k + 1) 0)))
  elts ++ [(0, toLe 4 t.m ++ toLe 4 t.l)] ++ (List.range 6).map (fun k => (16 + 8 * k, toLe 8 0)) ++ [(8, toLe 8 ni)]

/-- The writes of an operation are still on their way. -/
def writesAway (s : State) (o : Op) : Bool := s.egress.any (fun e => e.op == o.id) || replPending s o

/-- The triple that an ATTD keeps between pages, and its stack. -/
def attdTriple (o : Op) : Triple :=
  ⟨(o.acc.getD 2 0).toNat, (o.acc.getD 3 0).toNat, (o.acc.drop 4).map (·.toNat)⟩

/-- One page of an ATTD: its checks, then its triple, whose commit follows word by word (R307, R311). -/
def attdPage (s : State) (o : Op) (stop : Cause × Nat → State → UnitRes)
    (keep : State → Nat → Triple → FpFlags → UnitRes) : UnitRes :=
  let w := fun k => o.args.getD k 0
  let dh := (w 3).toNat / 2 ^ 40 % 2 ^ 9
  let hs := (w 0).toNat / 2 ^ 54 % 32
  let stk := (o.acc.getD 0 0).toNat
  match attdCheck s o (if stk = 0 then none else some (stk - 1)) o.i with
  | (.error e, s) => stop e s
  | (.ok (g, u), s) =>
    let qpos := ptePos (w 3)
    let causal := bit (w 0) 62
    let t0 := hs * hgCt g.hg
    let kr := tokenReads g.k g.kscale t0 dh (pageToks g qpos causal)
    let view := dieView s (dieOf o.cl)
    let scores := pageScores view g (f32s o.bytes dh) hs ((w 0).toNat / 2 ^ 48 % 64) qpos causal
    let vr := tokenReads g.v g.vscale t0 dh ((pageLive scores).map (·.1))
    match readsEcc s kr, readsEcc s vr with
    | some va, _ => stop (.memoryEcc, va) s
    | none, some va => stop (.memoryEcc, va) s
    | none, none =>
      let p := pageTriple view g hs scores
      let t := mergeT (attdTriple o) p.1
      keep ((kr ++ vr).foldl (fun s e => correctSoft s e.2.1 e.2.2) s) (u + 1) t.1 (p.2 ||| t.2)

/-- One step of an ATTD: it reads its triple and query, or writes the next word of a commit once the word before is
performed, or does one page once the commit of the page before is, or begins to write the triple that no page has committed
(R310, R311). A commit writes where DEST was mapped when the page was checked. -/
def unitAttd (s : State) (o : Op) : UnitRes :=
  let w := fun k => o.args.getD k 0
  let dh := (w 3).toNat / 2 ^ 40 % 2 ^ 9
  let n := (w 1).toNat / 2 ^ 48 % 2 ^ 13
  let ix := BitVec.ofNat 64 o.i
  let dest := va48 (w 2)
  let stop := fun (e : Cause × Nat) (s : State) => UnitRes.stop e.1 (BitVec.ofNat 64 e.2) ix s
  let keep := fun (s : State) (stk com i : Nat) (t : Triple) (f : FpFlags) (q : List Byte)
      (out : List OutWord) =>
    updOp s o.id (fun o => { o with
      unit := stk - 1, i := i, bytes := q, flags := o.flags ||| f, out := out
      acc := (stk :: com :: t.m :: t.l :: t.a).map (BitVec.ofNat 64) })
  let commit : State → Triple → Nat → Except (Cause × Nat) (List OutWord) × State := fun s t ni => match engPieces s o true 3 dest (64 + 4 * dh) with
    | (.error e, s) => (.error e, s)
    | (.ok l, s) => (.ok (pieceWords l false (tripleWords t ni)), s)
  match o.out with
  | w :: _ => if writesAway s o then .hold s else outWord s o w
  | [] =>
    if writesAway s o || readsOver s then .hold s
    else if o.acc.isEmpty then
      let start : Except (Cause × Nat) (Triple × Nat) × State :=
        if bit (w 0) 63 then (.ok (Triple.empty dh, 0), s)
        else match engFetch s o dest (64 + 4 * dh) with
          | (.error e, s) => (.error e, s)
          | (.ok r, s) => (.ok (⟨leAt r 0 4, leAt r 4 4, f32s (r.drop 64) dh⟩, leAt r 8 2 % 2 ^ 13), s)
      match start with
      | (.error e, s) => stop e s
      | (.ok (t, i), s) =>
        match engFetch s o (va48 (w 0)) (4 * dh) with
        | (.error e, s) =>
          let e := match attdCheck s o none i with
            | (.error e', _) => if e.1 == Cause.memoryEcc && decide (i < n) then e' else e
            | _ => e
          .stop e.1 (BitVec.ofNat 64 e.2) (BitVec.ofNat 64 i) s
        | (.ok q, s) => .more (keep s 0 0 i t 0 q [])
    else if n ≤ o.i then
      if o.acc.getD 1 0 = 1 then .last 0 s
      else match commit s (attdTriple o) o.i with
        | (.error e, s) => stop e s
        | (.ok ws, s) => .more (keep s (o.acc.getD 0 0).toNat 1 o.i (attdTriple o) 0 o.bytes ws)
    else
      attdPage s o stop (fun s u t f =>
        match commit s t (o.i + 1) with
        | (.error e, s) => stop e s
        | (.ok ws, s) => .more (keep s u 1 (o.i + 1) t f o.bytes ws))

/-- The base-die unit that an ATTD or LFILT works in: the stack of its first key page, or of its logits (R310, R351). -/
def bduOf (s : State) (o : Op) : Option Nat :=
  let w := fun k => o.args.getD k 0
  let at' := fun (va : Nat) => (walk s o.pid o.root (va / 32768 % 2 ^ 33)).map (fun l => recPhys s o.pid l.fri + va % 32768)
  let rd := fun (va : Nat) => (at' va).map (fun a => rd64 s a)
  match o.kind with
  | .attd =>
    let i := if bit (w 0) 63 then some 0 else (rd (va48 (w 2) + 8)).map (fun x => x.toNat % 2 ^ 13)
    ((i.bind (fun i => rd (va48 (w 1) + 16 * i))).bind (fun x => at' (va48 x))).bind physStack
  | .lfilt => (at' (va48 (w 0))).bind physStack
  | _ => none

/-- An operation of a base-die unit may take its next step: no earlier operation of the same unit is held by a fence
(R378). -/
def bduReady (s : State) (o : Op) : Bool :=
  opReady s o && !unitHeld s (fun q => (q.kind == .attd || q.kind == .lfilt) && bduOf s q == bduOf s o) o

/-- ATTD_PAGE: a base-die unit takes the next step of an ATTD (R310). -/
def execAttdPage (s : State) : Out :=
  match s.ops.find? (fun o => o.id == s.ev.id) with
  | some o => if o.kind == .attd && bduReady s o then .next (applyUnit o 2 (unitAttd s o)) else .next s
  | none => .next s

end Sys2Proof.Machine
end

