-- ==== Sys2Proof/Machine/Segment.lean ====
section
/-! DEFINITION. Segment and calendar instructions, majors 0x06 and 0x0E (spec/08 R234-R242), and the entry of work into
a cluster queue (spec/09 R243-R254). -/

namespace Sys2Proof.Machine

/-! ### Queues -/

/-- Queue `q` of a partition on a cluster. -/
def queueOf (k : ClPart) (q : Nat) : List Entry := (tabGet k.queues q).getD []

/-- Tasks queued, continuations and remainders excluded (R243, R263). -/
def countsInQueue : Work → Bool
  | .fresh _ _ _ => true
  | .gang _ => true
  | _ => false

def taskCount (l : List Entry) : Nat := l.countP (fun e => countsInQueue e.work)

/-- QCFG_q and its fields (R246). -/
def qcfg (s : State) (cl p q : Nat) : Word := cpCtl s cl p (0x190 + q)
def qEn (w : Word) : Bool := bit w 0
def qUpush (w : Word) : Bool := bit w 1
def qHost (w : Word) : Bool := bit w 2
def qPmax (w : Word) : Nat := w.toNat / 16 % 128
def qCap (w : Word) : Nat := w.toNat / 2 ^ 11 % 128

/-- The not-before tick of an NBT (R253). -/
def nbTick (s : State) (nbt : Word) : Nat :=
  let dev := (devTimeNs s).toNat
  if nbt.toNat ≤ dev then 0 else tickNow s + ((nbt.toNat - dev) * 3 + 9) / 10

/-- Effective priority (R217). -/
def effPrio (age cap b w : Nat) : Nat := if cap ≤ b then b else min cap (b + w / age)

/-- Every head without a tick of becoming head became it in this tick (R254). -/
def markHeads (s : State) (cl p : Nat) : State :=
  let t := tickNow s
  updCp s cl p (fun k => { k with queues := k.queues.map (fun q =>
    (q.1, match q.2 with
      | e :: l => { e with headAt := some (e.headAt.getD t) } :: l
      | [] => [])) })

/-- Append an entry at the tail of a cluster queue, its priority clamped to PMAX (R244, R247); a continuation keeps its
PRIO. -/
def appendEntry (s : State) (cl p q : Nat) (e : Entry) (clamp : Bool) : State :=
  let pr := if clamp then min e.prio (qPmax (qcfg s cl p q)) else e.prio
  let e := { e with queue := q, prio := pr, since := tickNow s, nb := nbTick s e.nbt, headAt := none, capAt := none }
  markHeads (updCp s cl p (fun k => { k with queues := tabSet k.queues q (queueOf k q ++ [e]) })) cl p

/-- Something enters the cluster in this cycle from source `k` of the order of R244 and R386: own lanes 0-7, then the mesh
ports north 8, east 9, south 10, west 11. -/
def arrive (s : State) (cl k : Nat) : State := updClu s cl (fun c => { c with arrived := (s.cycle, k) })

/-- The place in that order of what lane `lane` of cluster `src` sends to cluster `cl`. -/
def sourcePlace (src lane cl : Nat) : Nat := if src = cl then lane else 8 + (Config.meshPort src cl).val

/-- Nothing that stands behind source `k` in that order has entered in this cycle. -/
def mayArrive (s : State) (cl k : Nat) : Bool :=
  (getClu s cl).arrived.1 != s.cycle || decide ((getClu s cl).arrived.2 ≤ k)

/-- The queue takes no new entry: EN = 0 or 32 tasks (R243, R246). -/
def queueShut (s : State) (cl p q : Nat) : Bool :=
  !qEn (qcfg s cl p q) || decide (32 ≤ taskCount (queueOf (getCp s cl p) q))

/-- A new task's entry from the words of a task descriptor (R250). -/
def freshEntry (id pid : Nat) (ws : List Word) : Entry :=
  let w0 := ws.getD 0 0
  { task := { id := id, pid := pid, root := 0, fq := false, bprio := w0.toNat / 2 ^ 48 % 128, noticeSlot := none, batch := none }
    work := .fresh (w0.setWidth 48) (ws.getD 1 0) (ws.getD 2 0), queue := 0, prio := w0.toNat / 2 ^ 48 % 128
    since := 0, nbt := ws.getD 3 0, nb := 0, headAt := none, capAt := none }

/-- A reserved bit of a task descriptor is set or ENTRY is misaligned (R250, R261). -/
def descBad (ws : List Word) : Bool :=
  let w0 := (ws.getD 0 0).toNat
  w0 / 2 ^ 55 != 0 || w0 % 8 != 0

/-- A lane read of `n` words at `va`, a multiple of `al`, in the page set (R241, R261, R265): ALIGN, then RESIDENCY. -/
def descWords (s : State) (t : Strand) (va : Word) (n al : Nat) : Except (Cause × Nat) LaneRd :=
  if va48 va % al ≠ 0 then .error (.align, va48 va) else laneRead s t (va48 va) (8 * n)

/-! ### The end of a task -/

/-- Change a batch of a die. -/
def updBatch (s : State) (d p num : Nat) (f : Batch → Batch) : State :=
  updDp s d p (fun k => { k with batches := listUpd k.batches (fun b => b.num == num) f })

/-- A notice's record slot frees with the task that carries it (R405); the stream scheduler sees a batch task's end at
its next sequence point (R328, R331). -/
def taskEnd (s : State) (cl : Nat) (k : Task) : State :=
  let s := match k.noticeSlot with
    | some r => updDp s (dieOf cl) k.pid (fun x => { x with records := tabDel x.records r })
    | none => s
  let s := { s with owed := s.owed.filter (fun o => o.1 != k.id) }
  match k.batch with
  | some n => updBatch s (dieOf cl) k.pid n (fun b => { b with ended := true })
  | none => s

/-! ### Major 0x06 (R235) -/

/-- SEGEND: the next block's record books the continuation (R235). -/
def execSegend (g : Guard) (a : R6) (s : State) : Out :=
  issue (.segend g a) g advance (fun t s =>
    let e := (getG t a).setWidth 48
    if e.toNat % 8 ≠ 0 then raise (.segend g a) .align s t (toW e)
    else splitWith s t { contOf s t with pc0 := e, pc1 := e + 8, pc2 := e + 16, ds := 0, blk := e }) s

/-- The record of SPLIT and YIELD: the triple advanced, the remainder from the split tick (R226, R235). -/
def explicitCont (s : State) (t : Strand) : Cont :=
  let n := relCycle t s
  { contOf s (advance t) with ts := t.seg.boff + n / 8, resume := n + 1 - 8 * (n / 8) }

/-- SPLIT: with ROAM it resumes in the named cluster of the die, which must be in the partition (R235). -/
def execSplit (g : Guard) (roam : Bool) (a : R6) (s : State) : Out :=
  issue (.split g roam a) g advance (fun t s =>
    let c := (getG t a).toNat % 32
    if roam && !inRect s t.task.pid (32 * dieOf t.cl + c) then raise (.split g roam a) .tenant s t 0
    else splitWith s t { explicitCont s t with roam := roam, tgt := if roam then c else 0 }) s

/-- EXIT: the task ends; its pending operations run on (R186, R235). -/
def execExit (g : Guard) (s : State) : Out :=
  issue (.exit g) g advance (fun t s =>
    if settled s t then taskEnd (endSegment (gangEnd s t true) t) t.cl t.task
    else putStrand s { t with hold := pendEnd s t }) s

/-- YIELD: a time event, at the base priority (R235). -/
def execYield (g : Guard) (a : R6) (s : State) : Out :=
  issue (.yield g a) g advance (fun t s =>
    splitWith s t { explicitCont s t with
      event := 7, evarg := BitVec.ofNat 64 (tickNow s + lo32 (getG t a)), prio := t.task.bprio }) s

/-! ### Major 0x0E (R236-R241) -/

/-- A request that a tick boundary decides: g[d] is pending until the first cycle of the tick after next (R237). -/
def calRequest (s : State) (t : Strand) (kind : Nat) (d : R6) (word : Word) (res : Nat) (own : Bool)
    (phys : Option Nat) (rel : Bool) : State :=
  let rt := relCycle t s / 8
  let r : CalReq :=
    { kind := kind, cycle := s.cycle, lane := t.lane, task := t.task.id, sid := t.seg.sid, gang := t.seg.gang
      d := d.toNat, start := t.seg.start, len := t.seg.len, rt := rt
      word := word, res := res, own := own, rel := rel, phys := phys }
  let t := setG s.cycle (8 * (tickNow s + 2) - s.cycle) d (getG t d) t
  updCp (putStrand s (advance t)) t.cl t.task.pid (fun k => { k with reqs := k.reqs ++ [r] })

/-- BOOK (R238). -/
def execBook (g : Guard) (rel : Bool) (d a : R6) (s : State) : Out :=
  issue (.book g rel d a) g advance (fun t s => calRequest s t 0 d (getG t a) 0 false none rel) s

/-- CALREL (R239). -/
def execCalrel (g : Guard) (rel : Bool) (d a : R6) (s : State) : Out :=
  issue (.calrel g rel d a) g advance (fun t s => calRequest s t 1 d (getG t a) 0 false none rel) s

/-- CALQ (R240). -/
def execCalq (g : Guard) (own rel : Bool) (d a : R6) (res : BitVec 5) (s : State) : Out :=
  issue (.calq g own rel d a res) g advance (fun t s => calRequest s t 2 d (getG t a) res.toNat own none rel) s

/-- GANG: the descriptor is copied into a queue entry at issue (R241). -/
def execGang (g : Guard) (a : R6) (q : BitVec 4) (s : State) : Out :=
  issue (.gang g a q) g advance (fun t s =>
    let i := Instr.gang g a q
    let p := t.task.pid
    match descWords s t (getG t a) 4 32 with
    | .error e => raise i e.1 s t (BitVec.ofNat 64 e.2)
    | .ok h =>
      let n := min ((h.words.getD 0 0).toNat % 16) 8
      match descWords s t (getG t a) (4 + 4 * n) 32 with
      | .error e => raise i e.1 s t (BitVec.ofNat 64 e.2)
      | .ok r =>
        let h := r.words
        if !qUpush (qcfg s t.cl p q.toNat) && !isSup t then raise i .privilege s t 0
        else if queueShut s t.cl p q.toNat then raise i .queueFull s t 0
        else
          let pr := (h.getD 0 0).toNat / 2 ^ 16 % 128
          let e : Entry := { freshEntry s.nextId p [0, 0, 0, h.getD 2 0] with work := .gang h, prio := pr }
          let e := { e with task := { e.task with bprio := min pr (qPmax (qcfg s t.cl p q.toNat)) } }
          let s := arrive { putStrand r.st (advance t) with nextId := s.nextId + 1 } t.cl t.lane
          appendEntry s t.cl p q.toNat e true) s

end Sys2Proof.Machine
end

