-- ==== Sys2Proof/Machine/Queue.lean ====
section
/-! DEFINITION. Queue instructions, major 0x0F (spec/09 R260-R265). -/

namespace Sys2Proof.Machine

/-- Append a new task of the descriptor `ws` to a queue (R244, R247, R253). -/
def appendTask (s : State) (cl p q : Nat) (ws : List Word) : State :=
  let e := freshEntry s.nextId p ws
  let pr := min e.prio (qPmax (qcfg s cl p q))
  appendEntry { s with nextId := s.nextId + 1 } cl p q { e with task := { e.task with bprio := pr } } true

/-- LAUNCH: the descriptor is copied at issue; the checks of the target are made on arrival (R261, R262). -/
def execLaunch (g : Guard) (d a b c : R6) (s : State) : Out :=
  issue (.launch g d a b c) g advance (fun t s =>
    let i := Instr.launch g d a b c
    if ctrFull t c then raise i .counter s t 0
    else match descWords s t (getG t a) 4 32 with
      | .error e => raise i e.1 s t (BitVec.ofNat 64 e.2)
      | .ok r =>
        let ws := r.words
        let w := (getG t b).toNat
        if descBad ws ∨ w / 2 ^ 12 ≠ 0 then raise i .reservedField s t 0
        else if !inRect s t.task.pid (w % 8 * 32 + w / 8 % 32) then raise i .tenant s t 0
        else
          let s := updCp (relIf true t r.st) t.cl t.task.pid (fun k => { k with msgSent := (k.msgSent + 1) % 2 ^ 48 })
          issueOp s t { mkOp s t .launch (some c) (dstG d) 4 (getG t b :: ws) with
            unit := w % 8 * 32 + w / 8 % 32, i := w / 2 ^ 8 % 16 }) s

/-- QPUSH (R261). -/
def execQpush (g : Guard) (a : R6) (q : BitVec 4) (s : State) : Out :=
  issue (.qpush g a q) g advance (fun t s =>
    let i := Instr.qpush g a q
    let p := t.task.pid
    match descWords s t (getG t a) 4 32 with
    | .error e => raise i e.1 s t (BitVec.ofNat 64 e.2)
    | .ok r =>
      let ws := r.words
      if descBad ws then raise i .reservedField s t 0
      else if !qUpush (qcfg s t.cl p q.toNat) && !isSup t then raise i .privilege s t 0
      else if queueShut s t.cl p q.toNat then raise i .queueFull s t 0
      else appendTask (arrive (putStrand r.st (advance t)) t.cl t.lane) t.cl p q.toNat ws) s

/-- The status word of a queue (R263). -/
def qstatWord (s : State) (cl p q : Nat) : Word :=
  let k := getCp s cl p
  let l := queueOf k q
  let n := taskCount l
  let cfg := qcfg s cl p q
  let age := (ctlGet (getClu s cl).ctl 0x180).toNat
  let conts := l.length - n
  let head := match l with
    | [] => (0, 0)
    | e :: _ => (effPrio age (qCap cfg) e.prio (tickNow s - e.since), min (tickNow s - e.since) (2 ^ 32 - 1))
  BitVec.ofNat 64 (n + 2 ^ 6 * (if qEn cfg then 1 else 0) + 2 ^ 7 * (if n = 32 then 1 else 0)
    + 2 ^ 8 * (if k.urgent = some q then 1 else 0) + 2 ^ 9 * head.1 + 2 ^ 16 * min conts 65535 + 2 ^ 32 * head.2)

/-- QSTAT (R263). -/
def execQstat (g : Guard) (d : R6) (q : BitVec 4) (s : State) : Out :=
  aluOp (.qstat g d q) g 1 d (fun t => qstatWord s t.cl t.task.pid q.toNat) s

/-- QCFG: reads the old value; a write takes effect at the next tick boundary (R246, R264). -/
def execQcfg (g : Guard) (w : Bool) (d a : R6) (q : BitVec 4) (s : State) : Out :=
  issueSup (.qcfg g w d a q) g (fun t s =>
    let i := Instr.qcfg g w d a q
    let x := getG t a
    if leaseHit s t i then raise i .lease s t 0
    else if w && (bit x 3 || x.toNat / 2 ^ 18 != 0) then raise i .reservedField s t 0
    else
      let s' := putStrand s (advance (setG s.cycle 1 d (qcfg s t.cl t.task.pid q.toNat) t))
      if w then updCp s' t.cl t.task.pid (fun k => { k with ctlPend := k.ctlPend ++ [(0x190 + q.toNat, x)] }) else s') s

/-- The physical address of a pipe's slot 0 when its binding entry keeps R257 and R258: the fields, and slots within
one page with FE = 1 on a local frame. -/
def pipePhys (s : State) (p root : Nat) (w0 w1 : Word) : Option Nat :=
  let base := va48 w0
  let slots := w0.toNat / 2 ^ 48 % 128
  if w0.toNat / 2 ^ 56 ≠ 0 ∨ w1 ≠ 0 ∨ base % 8 ≠ 0 ∨ slots = 0 ∨ 64 < slots ∨ 32768 < base % 32768 + 8 * slots then none
  else
    match walk s p root (base / 32768) with
    | some l => if pteFe l.pte0 then some (recPhys s p l.fri + base % 32768) else none
    | none => none

/-- PIPEBIND: reads a binding entry; bound or unbound at the next tick boundary (R265). -/
def execPipebind (g : Guard) (u : Bool) (d a : R6) (s : State) : Out :=
  issue (.pipebind g u d a) g advance (fun t s =>
    match descWords s t (getG t a) 2 8 with
    | .error e => raise (.pipebind g u d a) e.1 s t (BitVec.ofNat 64 e.2)
    | .ok r =>
      let ws := r.words
      calRequest r.st t (if u then 4 else 3) d (ws.getD 0 0) 0 false
        (pipePhys s t.task.pid t.task.root (ws.getD 0 0) (ws.getD 1 0)) false) s

end Sys2Proof.Machine
end

