-- ==== Sys2Proof/Machine/Sync.lean ====
section
/-! DEFINITION. Atomics, fences, domains and barriers, majors 0x0C and 0x0D, and the events that perform them
(spec/14 R373-R384). -/

namespace Sys2Proof.Machine

/-! ### Atomics (R373-R377) -/

/-- The value an atomic writes (none: nothing is written) and its flags (R376): `k` is the minor code, `w` the width. -/
def atomNew (k w x y e : Nat) : Option Nat × FpFlags :=
  let sx := sextN w x
  let sy := sextN w y
  match k with
  | 0 => (some ((x + y) % 2 ^ w), 0)
  | 1 =>
    let r := fpBin xAdd (if w = 16 then .bf16 else .fp32) .rne x y
    (some r.1, r.2)
  | 2 => (some (if sy < sx then y else x), 0)
  | 3 => (some (if sx < sy then y else x), 0)
  | 4 => (some (x &&& y), 0)
  | 5 => (some (x ||| y), 0)
  | 6 => (some (x ^^^ y), 0)
  | 7 => (some y, 0)
  | _ => (if x = e then some y else none, 0)

/-- The atomic's address lies in a page of the page set that is not replicated: it is local (R373). -/
def atomLocal (t : Strand) (va : Nat) : Bool :=
  (setXl t false (va / 32768)).any (fun x => !pteRepl x.pte0)

/-- A local atomic at its window (R373, R376, R377). -/
def localAtomic (i : Instr) (k : Nat) (data : R6) (n : Nat) (o : Bool) (va : Va) (t : Strand) (s : State) : State :=
  match accessCause s t .store .any va n n with
  | some c => raise i c s t (toW va)
  | none =>
    let a := accessPhys s t va
    if eccBad s a n then raise i .memoryEcc s t (toW va)
    else
      let w := 8 * n
      let x := rdN s a n
      let y := (getG t data).toNat % 2 ^ w
      let r := atomNew k w x y ((getG t (data + 1)).toNat % 2 ^ w)
      let s := correctSoft (relIf o t s) a n
      let s := match r.1 with
        | some v => wrN s a n v
        | none => s
      let lat := if k = 1 then 8 else 6
      putStrand s (advance (lateFlags s.cycle lat r.2 (setG s.cycle lat data (BitVec.ofNat 64 x) t)))

/-- An atomic form: local at its window, any other an engine operation (R373, R377). -/
def atomOp (i : Instr) (k : Nat) (g : Guard) (data base : R6) (ctr sz : BitVec 2) (o : Bool) (disp : BitVec 24)
    (s : State) : Out :=
  issue i g advance (fun t s =>
    let va := baseDisp base disp t
    let n := 2 ^ sz.toNat
    if atomLocal t va.toNat then localAtomic i k data n o va t s
    else
      let c : R6 := ctr.setWidth 6
      if ctrFull t c then raise i .counter s t 0
      else if va.toNat % n ≠ 0 then raise i .align s t (toW va)
      else
        issueOp (relIf o t s) t (mkOp s t .atomic (some c) (dstG data) 4
          [toW va, getG t data, getG t (data + 1), BitVec.ofNat 64 k, BitVec.ofNat 64 n])) s

/-- AADD (R376). -/
def execAadd (g : Guard) (data base : R6) (ctr sz : BitVec 2) (o : Bool) (disp : BitVec 24) (s : State) : Out :=
  atomOp (.aadd g data base ctr sz o disp) 0 g data base ctr sz o disp s
/-- AFADD (R376). -/
def execAfadd (g : Guard) (data base : R6) (ctr sz : BitVec 2) (o : Bool) (disp : BitVec 24) (s : State) : Out :=
  atomOp (.afadd g data base ctr sz o disp) 1 g data base ctr sz o disp s
/-- AMIN (R376). -/
def execAmin (g : Guard) (data base : R6) (ctr sz : BitVec 2) (o : Bool) (disp : BitVec 24) (s : State) : Out :=
  atomOp (.amin g data base ctr sz o disp) 2 g data base ctr sz o disp s
/-- AMAX (R376). -/
def execAmax (g : Guard) (data base : R6) (ctr sz : BitVec 2) (o : Bool) (disp : BitVec 24) (s : State) : Out :=
  atomOp (.amax g data base ctr sz o disp) 3 g data base ctr sz o disp s
/-- AAND (R376). -/
def execAand (g : Guard) (data base : R6) (ctr sz : BitVec 2) (o : Bool) (disp : BitVec 24) (s : State) : Out :=
  atomOp (.aand g data base ctr sz o disp) 4 g data base ctr sz o disp s
/-- AOR (R376). -/
def execAor (g : Guard) (data base : R6) (ctr sz : BitVec 2) (o : Bool) (disp : BitVec 24) (s : State) : Out :=
  atomOp (.aor g data base ctr sz o disp) 5 g data base ctr sz o disp s
/-- AXOR (R376). -/
def execAxor (g : Guard) (data base : R6) (ctr sz : BitVec 2) (o : Bool) (disp : BitVec 24) (s : State) : Out :=
  atomOp (.axor g data base ctr sz o disp) 6 g data base ctr sz o disp s
/-- ASWP (R376). -/
def execAswp (g : Guard) (data base : R6) (ctr sz : BitVec 2) (o : Bool) (disp : BitVec 24) (s : State) : Out :=
  atomOp (.aswp g data base ctr sz o disp) 7 g data base ctr sz o disp s
/-- ACAS (R376). -/
def execAcas (g : Guard) (data base : R6) (ctr sz : BitVec 2) (o : Bool) (disp : BitVec 24) (s : State) : Out :=
  atomOp (.acas g data base ctr sz o disp) 8 g data base ctr sz o disp s

/-- Unit kind of a unit that performs an atomic at `a` (R405): 2 a base-die unit, 4 the proxy unit, 1 any other. -/
def atomUnitKind (a : Nat) : Nat := if a < 2 ^ 40 then 2 else if 2 ^ 64 ≤ a then 4 else 1

/-- The operation as its record names it: the base-die unit that performs it, if one does. -/
def atUnit (o : Op) (a : Nat) : Op := { o with unit := (physStack a).getD 0 }

/-- The home of an operation's first address: stack, cluster or host port, as far as it translates. -/
def opHome (s : State) (o : Op) : Nat :=
  match walk s o.pid o.root (va48 (o.args.getD 0 0) / 32768) with
  | some l =>
    let a := recPhys s o.pid l.fri
    match physStack a, physCluster a with
    | some k, _ => k
    | none, some c => 256 + c
    | none, none => 16 + (a - 2 ^ 64) / 2 ^ 63
  | none => 1000

/-- A far atomic may be performed: it is ready, and no earlier one of its lane is on its way to the same home (R369, R374);
one that has stopped is not (log 39). -/
def atomReady (s : State) (o : Op) : Bool :=
  o.kind == .atomic && opReady s o &&
    !((s.ops.takeWhile (fun q => q.id != o.id)).any (fun q =>
      q.kind == .atomic && q.cl == o.cl && q.lane == o.lane && q.fin.isNone && !q.stopped && opHome s q == opHome s o))


/-- A write that its home performs itself; on a replicated page it takes its place in the sequence and goes on to every
replica (R371). -/
def homeWrite (s : State) (o : Op) (e : TcEnt) (a : Nat) (bs : List Byte) : State :=
  let left := replicaClusters s o.pid e.fri
  let s := perform s a bs false
  if pteRepl e.pte0 && !left.isEmpty then
    { s with repl := s.repl ++ [⟨o.pid, e.fri, a % 32768, unitNo o, o.id, bs, false, true, left⟩] }
  else s

/-- A far atomic is performed at its home (R373, R376). On host memory `refused` says that the host answered with an
error (R374); RESUME at unit 1 completes it with 0. -/
def doAtomic (s : State) (o : Op) (refused : Bool) : State :=
  let va := va48 (o.args.getD 0 0)
  let n := (o.args.getD 4 0).toNat
  let w := 8 * n
  let vaW := BitVec.ofNat 64 va
  if o.i = 1 then doneOp s o.id 0
  else match engAddr s o va true with
    | (.error c, s) => stopOp s o c 1 vaW 0
    | (.ok (a, e), s) =>
      if eccBad s a n then stopOp s (atUnit o a) .memoryEcc (atomUnitKind a) vaW 0
      else if 2 ^ 64 ≤ a ∧ refused then stopOp s o .protection 4 vaW 0
      else if tileLeased s a n || (pteRepl e.pte0 && replLeased s o.pid e.fri (a % 32768) n) then s
      else
        let s := if pteRepl e.pte0 then viewHome s o.cl o.pid else s
        let s := correctSoft (settleWord s (dieOf o.cl) a n) a n
        let x := rdN s a n
        let r := atomNew (o.args.getD 3 0).toNat w x ((o.args.getD 1 0).toNat % 2 ^ w) ((o.args.getD 2 0).toNat % 2 ^ w)
        let s := match r.1 with
          | none => s
          | some v => homeWrite s o e a (toLe n v)
        let s := updOp s o.id (fun q => { q with flags := q.flags ||| r.2, scope := if 2 ^ 64 ≤ a then 5 else q.scope })
        doneOp s o.id x

/-- FAR_ATOMIC_PERFORM (R373): the operation `ev.id`; `ev.flag` is a host's error completion. -/
def execFarAtomicPerform (s : State) : Out :=
  .next (match s.ops.find? (fun o => o.id == s.ev.id && atomReady s o) with
    | some o => doAtomic s o s.ev.flag
    | none => s)

/-- COMPLETION_TIMEOUT: a host's completion times out: PROTECTION at unit index 1, performed or not (R374). -/
def execCompletionTimeout (s : State) : Out :=
  .next (match s.ops.find? (fun o => o.id == s.ev.id && atomReady s o && o.i == 0) with
    | none => s
    | some o =>
      match engAddr s o (va48 (o.args.getD 0 0)) true with
      | (.ok (a, _), s1) =>
        if a < 2 ^ 64 then s
        else
          let (k, s1) := freePick s1 2
          let n := (o.args.getD 4 0).toNat
          let w := 8 * n
          let s1 := settleWord s1 (dieOf o.cl) a n
          let r := atomNew (o.args.getD 3 0).toNat w (rdN s1 a n) ((o.args.getD 1 0).toNat % 2 ^ w)
            ((o.args.getD 2 0).toNat % 2 ^ w)
          let s1 := if k = 0 then s1 else match r.1 with
            | some v => wrN s1 a n v
            | none => s1
          stopOp (updOp s1 o.id (fun q => { q with i := 1 })) o .protection 4 (o.args.getD 0 0) 1
      | _ => s)

/-! ### Fences (R378) -/

/-- FENCE: later engine operations of the strand wait for the pending ones (R378). -/
def execFence (g : Guard) (kind : BitVec 2) (scope : BitVec 3) (s : State) : Out :=
  issue (.fence g kind scope) g advance (fun t s =>
    let live := t.fence.filter (fun d => s.ops.any (fun o => o.id == d.id) || s.egress.any (fun e => e.op == d.id))
    putStrand s (advance { t with fence := live ++ fenceDeps s t.task.id kind.toNat scope.toNat })) s

/-! ### Domains (R379-R383) -/

def selKind (sel : Nat) : Nat := sel % 4
def selId (sel : Nat) : Nat := sel / 4 % 16

/-- The instance a selector names for a cluster: the cluster, the die, or 0 (R379). -/
def domInst (sel cl : Nat) : Nat := if selKind sel = 0 then cl else if selKind sel = 1 then dieOf cl else 0

def getDom (s : State) (p sel inst : Nat) : Domain :=
  let t : Tab Domain :=
    if selKind sel = 0 then (getCp s inst p).domains
    else if selKind sel = 1 then (getDp s inst p).domains
    else match tabGet s.parts p with
      | some q => q.domains
      | none => []
  (tabGet t (if selKind sel < 2 then selId sel else 16 * selKind sel + selId sel)).getD {}

def putDom (s : State) (p sel inst : Nat) (d : Domain) : State :=
  if selKind sel = 0 then updCp s inst p (fun k => { k with domains := tabSet k.domains (selId sel) d })
  else if selKind sel = 1 then updDp s inst p (fun k => { k with domains := tabSet k.domains (selId sel) d })
  else match tabGet s.parts p with
    | some q => { s with parts := tabSet s.parts p { q with domains := tabSet q.domains (16 * selKind sel + selId sel) d } }
    | none => s

def memPer (w : Word) : Nat := w.toNat % 64
def memRow0 (w : Word) : Nat := w.toNat / 2 ^ 6 % 8
def memCol0 (w : Word) : Nat := w.toNat / 2 ^ 9 % 32
def memRows (w : Word) : Nat := w.toNat / 2 ^ 14 % 16
def memCols (w : Word) : Nat := w.toNat / 2 ^ 18 % 64

/-- The member clusters of this package (R380). -/
def domMembers (sel inst : Nat) (w : Word) : List Nat :=
  let inR := fun (r c : Nat) => decide (memRow0 w ≤ r ∧ r < memRow0 w + memRows w ∧ memCol0 w ≤ c ∧ c < memCol0 w + memCols w)
  if selKind sel = 0 then [inst]
  else if selKind sel = 1 then
    ((List.range 32).filter (fun k => inR (k / 8) (k % 8))).map (fun k => 32 * inst + k)
  else (List.range 256).filter (fun c => inR (clRow c) (clCol c))

/-- The packages of a partition: distinct torus coordinates of its die list (R428). -/
def pkgList (s : State) (p : Nat) : List Nat :=
  ((List.range (partField s p 0 25 9)).map (fun k => rdN s (partField s p 7 0 40 + 4 * k) 4 / 8 % 2 ^ 12)).eraseDups

/-- The order of packages: by torus x, then y, then z (R391). -/
def pkgKey (q : Nat) : Nat := 256 * (q % 16) + 16 * (q / 16 % 16) + q / 256

/-- This package's place in that order among those of a partition; 0 for a domain that does not span packages. -/
def pkgRank (s : State) (p sel : Nat) : Nat :=
  if selKind sel = 3 then (pkgList s p).countP (fun q => decide (pkgKey q < pkgKey Config.torus.toNat)) else 0

/-- Members in all packages: only a PARTITION domain has members elsewhere (R380). -/
def domSize (s : State) (p sel inst : Nat) (w : Word) : Nat :=
  (domMembers sel inst w).length * (if selKind sel = 3 then max 1 (pkgList s p).length else 1)

/-- TOT (R380). -/
def domTot (s : State) (p sel inst : Nat) (w : Word) : Nat := memPer w * domSize s p sel inst w

/-- A selector word is well formed (R379). -/
def selOk (w : Word) : Bool := w.toNat / 64 == 0

/-- A membership word is well formed (R380). -/
def memOkWord (s : State) (p sel : Nat) (w : Word) : Bool :=
  w.toNat / 2 ^ 24 == 0 &&
    (if selKind sel = 0 then w.toNat / 64 == 0
     else
      decide (1 ≤ memRows w ∧ memRows w ≤ 8 ∧ 1 ≤ memCols w ∧ memCols w ≤ 32) &&
      (if selKind sel = 1 then decide (memRow0 w + memRows w ≤ 4 ∧ memCol0 w + memCols w ≤ 8)
       else decide (partField s p 0 4 3 ≤ memRow0 w ∧ memRow0 w + memRows w ≤ partField s p 0 4 3 + partField s p 0 12 4
         ∧ partField s p 0 7 5 ≤ memCol0 w ∧ memCol0 w + memCols w ≤ partField s p 0 7 5 + partField s p 0 16 6)))

/-- A new GEN has reached a member: continuations there that await another than the domain's GEN fire (R228, R381). -/
def fireDomain (s : State) (p sel cl : Nat) : State :=
  let gen := (getDom s p sel (domInst sel cl)).gen
  fireConts s (fun c k event evarg => event == 4 && k.pid == p && c == cl
    && evarg.toNat % 64 == sel && evarg.toNat / 2 ^ 16 % 2 ^ 16 != gen)

/-- Count arrivals in their order: the last of a phase completes it, raising GEN, or begins the sweeps of R382; what arrives
while those run is counted by the next phase (R381). Answers the domain and the generations that began. -/
def countArrivals (tot : Nat) : List Bool → Domain → List Nat → Domain × List Nat
  | [], d, gens => (d, gens)
  | ph :: l, d, gens =>
    if d.sweep ≠ 0 then countArrivals tot l { d with later := d.later ++ [ph] } gens
    else
      let d := { d with arr := d.arr + 1, phase := d.phase || ph }
      if d.arr < tot then countArrivals tot l d gens
      else if d.phase then countArrivals tot l { d with sweep := 1, read := [], last := none } gens
      else countArrivals tot l { d with gen := (d.gen + 1) % 2 ^ 16, arr := 0 } (gens ++ [(d.gen + 1) % 2 ^ 16])

/-- The members are told a new GEN (R381). -/
def tellMembers (p sel inst : Nat) (w : Word) (s : State) (gen : Nat) : State :=
  if selKind sel = 0 then fireDomain s p sel inst
  else { s with flights := s.flights ++ (domMembers sel inst w).map (fun c => ⟨1, p, sel, inst, c, false, gen⟩) }

/-- The sweeps of a phase have succeeded: GEN rises, ARR starts at 0 with what arrived beyond TOT, and the members are told
(R381, R382). -/
def domComplete (s : State) (p sel inst : Nat) : State :=
  let d := getDom s p sel inst
  let gen := (d.gen + 1) % 2 ^ 16
  let r := countArrivals (domTot s p sel inst d.word) d.later { d with
    gen := gen, arr := 0, phase := false, sweep := 0, read := [], last := none, later := [] } [gen]
  r.2.foldl (tellMembers p sel inst d.word) (putDom s p sel inst r.1)

/-- An arrival is counted at the home (R381). -/
def domArrive (s : State) (p sel inst : Nat) (phase : Bool) : State :=
  let d := getDom s p sel inst
  let r := countArrivals (domTot s p sel inst d.word) [phase] d []
  r.2.foldl (tellMembers p sel inst d.word) (putDom s p sel inst r.1)

/-- EVARG of a domain wait (R381). -/
def domEvarg (sel gen : Nat) (phase : Bool) : Word :=
  BitVec.ofNat 64 (sel + 2 ^ 8 * (if phase then 1 else 0) + 2 ^ 16 * gen)

/-- BAR and PHASE (R381). -/
def barOp (i : Instr) (phase : Bool) (g : Guard) (d a : R6) (s : State) : Out :=
  issue i g advance (fun t s =>
    let p := t.task.pid
    match t.resumed with
    | some (4, ev) =>
      let sel := ev.toNat % 64
      putStrand s (advance (setG s.cycle 2 d (BitVec.ofNat 64 (getDom s p sel (domInst sel t.cl)).gen)
        { t with resumed := none }))
    | _ =>
      if !selOk (getG t a) then raise i .reservedField s t 0
      else
        let sel := (getG t a).toNat % 64
        let inst := domInst sel t.cl
        let dm := getDom s p sel inst
        let fail := fun k => putStrand s (advance (setG s.cycle 2 d (errW k) t))
        if memPer dm.word = 0 then fail 2
        else if !(domMembers sel inst dm.word).contains t.cl then fail 3
        else
          let s := if selKind sel = 0 then s
            else if selKind sel = 1 then settleRepl s (fun _ c => dieOf c == dieOf t.cl) else relDrain s (dieOf t.cl)
          if selKind sel = 0 ∧ dm.arr + 1 = domTot s p sel inst dm.word ∧ !(dm.phase || phase) then
            let s := domArrive s p sel inst phase
            putStrand s (advance (setG s.cycle 2 d (BitVec.ofNat 64 (getDom s p sel inst).gen) t))
          else
            let s := implicitSplit s t 4 (domEvarg sel dm.gen phase) 0
            if selKind sel = 0 then domArrive s p sel inst phase
            else { s with flights := s.flights ++ [⟨0, p, sel, inst, t.cl, phase, dm.gen⟩] }) s

/-- BAR (R381). -/
def execBar (g : Guard) (d a : R6) (s : State) : Out := barOp (.bar g d a) false g d a s

/-- PHASE (R381). -/
def execPhase (g : Guard) (d a : R6) (s : State) : Out := barOp (.phase g d a) true g d a s

/-- DOMSET (R383). -/
def execDomset (g : Guard) (d a b c : R6) (s : State) : Out :=
  engineOp (.domset g d a b c) g c (fun t s => mkOp s t .domset (some c) (dstG d) 4 [getG t a, getG t b]) s

/-- DOMGET (R383). -/
def execDomget (g : Guard) (d a c : R6) (sel : BitVec 4) (s : State) : Out :=
  engineOp (.domget g d a c sel) g c (fun t s => mkOp s t .domget (some c) (dstG d) 4 [getG t a, toW sel]) s

/-- DOMSET or DOMGET at the home (R383). -/
def doDomain (s : State) (o : Op) : State :=
  let w := o.args.getD 0 0
  let x := o.args.getD 1 0
  let sel := w.toNat % 64
  let inst := domInst sel o.cl
  let d := getDom s o.pid sel inst
  if o.kind = .domset then
    if !selOk w || !memOkWord s o.pid sel x then doneOp s o.id (errW 4).toNat
    else if 0 < d.arr ∨ d.sweep ≠ 0 ∨ s.colls.any (fun c => c.pid == o.pid && c.sel == sel && c.inst == inst && !c.cancelled) then
      doneOp s o.id (errW 2).toNat
    else doneOp (putDom s o.pid sel inst { d with word := x, arr := 0 }) o.id 0
  else
    let k := getCp s o.cl o.pid
    let r := match x.toNat with
      | 0 => if selOk w then d.word.toNat else (errW 4).toNat
      | 1 => if selOk w then d.gen + 2 ^ 16 * (d.arr % 2 ^ 32) + (if d.sweep = 0 then 0 else 2 ^ 48) else (errW 4).toNat
      | 2 => if selOk w then k.msgSent else (errW 4).toNat
      | 3 => if selOk w then k.msgRecv else (errW 4).toNat
      | _ => (errW 4).toNat
    doneOp s o.id r

/-- DOMAIN_REQUEST_AT_HOME (R383): the operation `ev.id`. -/
def execDomainRequestAtHome (s : State) : Out :=
  .next (match s.ops.find? (fun o => o.id == s.ev.id && (o.kind == .domset || o.kind == .domget) && opReady s o) with
    | some o => doDomain s o
    | none => s)

/-- DOMAIN_ARRIVAL (R381): the arrival at position `ev.n` among the messages under way reaches its home; with `ev.flag`
an arrival from another package of the partition: selector `ev.unit`, partition `ev.pid`, `ev.id` = 1 for a PHASE. -/
def execDomainArrival (s : State) : Out :=
  .next (if s.ev.flag then
      (if selKind s.ev.unit = 3 ∧ selOk (BitVec.ofNat 64 s.ev.unit) ∧ partExists s s.ev.pid then
        domArrive s s.ev.pid s.ev.unit 0 (s.ev.id == 1) else s)
    else match s.flights[s.ev.n]? with
      | some f => if f.kind = 0 then domArrive { s with flights := s.flights.eraseIdx s.ev.n } f.pid f.sel f.inst f.phase else s
      | none => s)

/-- DOMAIN_COMPLETION (R381): the new GEN at position `ev.n` among the messages under way reaches a member. -/
def execDomainCompletion (s : State) : Out :=
  .next (match s.flights[s.ev.n]? with
    | some f => if f.kind = 1 then fireDomain { s with flights := s.flights.eraseIdx s.ev.n } f.pid f.sel f.cl else s
    | none => s)

/-- The end of a sweep (R382): the phase completes when this one and the one before balance and agree. -/
def sweepEnd (s : State) (p sel inst : Nat) (d : Domain) : State :=
  let sum := fun (f : Nat × Nat × Nat → Nat) => (d.read.map f).foldl (· + ·) 0 % 2 ^ 48
  let tot := (sum (fun e => e.2.1), sum (fun e => e.2.2))
  if tot.1 = tot.2 ∧ d.last = some tot then domComplete s p sel inst
  else putDom s p sel inst { d with sweep := d.sweep + 1, read := [], last := some tot }

/-- PHASE_SWEEP (R382): domain `ev.unit` of partition `ev.pid` at instance `ev.cl` reads the counters of one more member:
the `ev.n`-th not yet read; of a member in another package `ev.words` gives them. -/
def execPhaseSweep (s : State) : Out :=
  let p := s.ev.pid
  let sel := s.ev.unit
  let inst := s.ev.cl
  let d := getDom s p sel inst
  .next (if d.sweep = 0 then s
    else
      let here := domMembers sel inst d.word
      let away := (List.range (domSize s p sel inst d.word - here.length)).map (· + 256)
      let left := (here ++ away).filter (fun c => !(d.read.any (fun e => e.1 == c)))
      match left[s.ev.n % max 1 left.length]? with
      | none => sweepEnd s p sel inst d
      | some c =>
        let k := getCp s c p
        let e := if c < 256 then (c, k.msgSent, k.msgRecv)
          else (c, (s.ev.words.getD 0 0).toNat % 2 ^ 48, (s.ev.words.getD 1 0).toNat % 2 ^ 48)
        let d := { d with read := d.read ++ [e] }
        if left.length = 1 then sweepEnd s p sel inst d else putDom s p sel inst d)

/-! ### Replicated pages (R371) -/

/-- REPL_WRITE_SEQUENCE (R371): the write at position `ev.n` is sequenced and performed on the home copy, or, already
sequenced, is applied by the replica of cluster `ev.cl`; every replica applies the writes of the partition in the order of
their sequencing, and none into a range that a tile command leases (R275, R371). -/
def execReplWriteSequence (s : State) : Out :=
  .next (match s.repl[s.ev.n]? with
    | none => s
    | some w =>
      let complete := fun (s : State) => match s.ops.find? (fun o => o.id == w.op) with
        | some o => if mayComplete s o then finishOp s o (o.fin.getD 0) else s
        | none => s
      let earlier := s.repl.take s.ev.n
      if !w.seqd then
        if earlier.any (fun e => !e.seqd && e.unit == w.unit && e.pid == w.pid)
            || tileLeased s (recPhys s w.pid w.fri + w.off) w.bytes.length
            || replLeased s w.pid w.fri w.off w.bytes.length then s
        else
          let left := replicaClusters s w.pid w.fri
          let s := perform s (recPhys s w.pid w.fri + w.off) w.bytes w.full
          let rest := s.repl.eraseIdx s.ev.n
          if left.isEmpty then complete { s with repl := rest }
          else { s with repl := rest ++ [{ w with seqd := true, left := left }] }
      else
        if !w.left.contains s.ev.cl
            || earlier.any (fun e => e.seqd && e.pid == w.pid && e.left.contains s.ev.cl)
            || ((replicaOf s s.ev.cl w.pid w.fri).any
                (fun f => tileLeased s (sramBase s.ev.cl f + w.off) w.bytes.length)) then s
        else
          let s := applyRepl s w s.ev.cl
          let w' := { w with left := setDel w.left s.ev.cl }
          if w'.left.isEmpty then complete { s with repl := s.repl.eraseIdx s.ev.n }
          else { s with repl := s.repl.set s.ev.n w' })

end Sys2Proof.Machine
end

