-- ==== Sys2Proof/Machine/Message.lean ====
section
/-! DEFINITION. Messages, collectives and folds, major 0x1B, and the events that perform them (spec/15 R385-R398). -/

namespace Sys2Proof.Machine

/-! ### MSEND (R386-R389) -/

/-- The target word breaks R387. -/
def targetBad (w : Word) : Bool :=
  let n := w.toNat
  let len := n / 2 ^ 32 % 2 ^ 9
  n / 2 ^ 21 % 2 ^ 11 != 0 || n / 2 ^ 41 % 2 ^ 7 != 0 || (!bit w 20 && n / 2 ^ 8 % 2 ^ 12 != 0)
    || decide (len < 8 ∨ 256 < len) || len % 8 != 0

/-- Package number of a target's cluster. -/
def targetCl (w : Word) : Nat := w.toNat % 8 * 32 + w.toNat / 8 % 32

/-- The target's package: own, or torus coordinates as TX, TY, TZ lie in the word. -/
def targetPkg (w : Word) : Nat := if bit w 20 then w.toNat / 2 ^ 8 % 2 ^ 12 else Config.torus.toNat

/-- A die list entry names this die in this package (R428). -/
def dieListed (s : State) (p die pkg : Nat) : Bool :=
  (List.range (partField s p 0 25 9)).any (fun k =>
    let e := rdN s (partField s p 7 0 40 + 4 * k) 4
    e % 8 == die && e / 8 % 2 ^ 12 == pkg)

/-- The target lies outside the task's partition (R388). -/
def targetOut (s : State) (p : Nat) (w : Word) : Bool :=
  !inRect s p (targetCl w) || (bit w 20 && !dieListed s p (w.toNat % 8) (targetPkg w))

/-- MSEND (R388). -/
def execMsend (g : Guard) (sc : BitVec 3) (d a b c : R6) (s : State) : Out :=
  issue (.msend g sc d a b c) g advance (fun t s =>
    let i := Instr.msend g sc d a b c
    let w := getG t b
    let tk := issueTick t s
    if !segBooked s t 31 tk tk || t.lastSend == tk + 1 then raiseBooking i s t 31
    else if ctrFull t c then raise i .counter s t 0
    else if targetBad w then raise i .reservedField s t 0
    else if targetOut s t.task.pid w then raise i .tenant s t 0
    else if va48 (getG t a) % 128 ≠ 0 then raise i .align s t (BitVec.ofNat 64 (va48 (getG t a)))
    else match laneRead s t (va48 (getG t a)) (w.toNat / 2 ^ 32 % 2 ^ 9) with
      | .error e => raise i e.1 s t (BitVec.ofNat 64 e.2)
      | .ok r =>
        let s := updCp r.st t.cl t.task.pid (fun k => { k with msgSent := (k.msgSent + 1) % 2 ^ 48 })
        let s := if 3 ≤ sc.toNat then relDrain s (dieOf t.cl) else s
        issueOp s { t with lastSend := tk + 1 } { mkOp s t .msend (some c) (dstG d) sc.toNat [w] with bytes := r.bytes }) s

/-- The header of a message from cluster `cl` of package `pkg` (R390). -/
def msgHeader (len tag cl pkg : Nat) : Word :=
  BitVec.ofNat 64 (len + 2 ^ 16 * tag + 2 ^ 32 * (cl / 32) + 2 ^ 35 * (cl % 32) + 2 ^ 40 * pkg)

/-- A message satisfies the test of an MRECV: with `t` its TAG is `tag` (R390). -/
def msgMatches (t : Bool) (tag : Nat) (m : Msg) : Bool := !t || m.hdr.toNat / 2 ^ 16 % 2 ^ 16 == tag

/-- A message reaches a cluster: appended, or refused by a full inbox; either counts in MSG_RECV (R386, R388). Waiting
continuations that its tag satisfies fire (R228, R390). -/
def deliverMsg (s : State) (cl p : Nat) (m : Msg) : Bool × State :=
  let s := updCp s cl p (fun k => { k with msgRecv := (k.msgRecv + 1) % 2 ^ 48 })
  if 64 ≤ (getCp s cl p).inbox.length then (false, s)
  else
    let s := updCp s cl p (fun k => { k with inbox := k.inbox ++ [m] })
    (true, fireConts s (fun c k event evarg => event == 5 && c == cl && k.pid == p
      && msgMatches (bit evarg 16) (evarg.toNat % 2 ^ 16) m))

/-- Where a message-class operation goes: die, cluster and package (R369). -/
def opTarget (o : Op) : Nat × Nat :=
  let w := o.args.getD 0 0
  (targetCl w, if o.kind = .msend then targetPkg w else Config.torus.toNat)

/-- An operation is the oldest of its lane in the message class towards its target (R252, R369). -/
def msgFirst (s : State) (o : Op) : Bool :=
  !((s.ops.takeWhile (fun q => q.id != o.id)).any (fun q =>
    (q.kind == .msend || q.kind == .launch) && q.fin.isNone && q.cl == o.cl && q.lane == o.lane
      && decide (opTarget q = opTarget o)))

/-- A message-class operation may arrive now: at a cluster of the package, behind nothing that enters later in the order of
one cycle (R244, R386). -/
def msgReady (s : State) (o : Op) : Bool :=
  let tg := opTarget o
  o.fin.isNone && !o.stopped && depsMet s o false true && msgFirst s o
    && (tg.2 != Config.torus.toNat || mayArrive s tg.1 (sourcePlace o.cl o.lane tg.1))

/-- It has arrived. -/
def arriveOp (s : State) (o : Op) : State := arrive s (opTarget o).1 (sourcePlace o.cl o.lane (opTarget o).1)

/-- A discarded packet is counted in TEN_DROP (R430). -/
def dropPacket (s : State) : State :=
  let n := min (2 ^ 32 - 1) ((ctlGet s.dev.ctl 0x811).toNat + 1)
  { s with dev := { s.dev with ctl := tabSet s.dev.ctl 0x811 (BitVec.ofNat 64 n) } }

/-- MSEND_DELIVERY (R388): the operation `ev.id` reaches its target; for another package `ev.flag` says that its inbox
refused it. With `ev.unit` = 1 a message of another package arrives for cluster `ev.cl` of partition `ev.pid`, with the
header word in `ev.words`, through mesh port `ev.lane`; a packet for a cluster outside the partition is discarded (R430). -/
def execMsendDelivery (s : State) : Out :=
  .next (if s.ev.unit = 1 then
      (if inRect s s.ev.pid s.ev.cl then
         (deliverMsg (arrive s s.ev.cl (8 + s.ev.lane % 4)) s.ev.cl s.ev.pid ⟨s.ev.words.getD 0 0, s.ev.bytes⟩).2
       else dropPacket s)
    else match s.ops.find? (fun o => o.id == s.ev.id && o.kind == .msend && msgReady s o) with
      | none => s
      | some o =>
        let w := o.args.getD 0 0
        if targetPkg w ≠ Config.torus.toNat then doneOp s o.id (if s.ev.flag then (errW 1).toNat else 0)
        else
          let m : Msg := ⟨msgHeader o.bytes.length (w.toNat / 2 ^ 48) o.cl Config.torus.toNat, o.bytes⟩
          let r := deliverMsg (arriveOp s o) (targetCl w) o.pid m
          doneOp r.2 o.id (if r.1 then 0 else (errW 1).toNat))

/-! ### MRECV (R390) -/

/-- The LEASE check of a destination that a receiving form writes: the first of `n` bytes from `va` that is leased. -/
def destLeased (s : State) (t : Strand) (va n : Nat) : Option Nat :=
  (spanVas va n).find? (fun v => rangeLeased s t.cl (accessPhys s t (BitVec.ofNat 48 v)) 8)

/-- The other checks of a destination in their order: RESIDENCY (the page set, a local frame), PROTECTION (write intent), ALIGN, with the
VA that fails (R166, R357, R390, R405). -/
def destCause (s : State) (t : Strand) (va n : Nat) : Option (Cause × Nat) :=
  let vas := spanVas va n
  match vas.find? (fun v => !ownPage s t v) with
  | some v => some (.residency, v)
  | none =>
    match vas.find? (fun v => accessCause s t .store .any (BitVec.ofNat 48 v) 8 1 == some .protection) with
    | some v => some (.protection, v)
    | none => if va % 128 ≠ 0 then some (.align, va) else none

/-- Write received bytes at `va` as lines at their windows, and put `x` in g[d] in the cycle after the last one (R160);
nothing is put there when the segment ends first (R224). It runs in the cycle of the first line. -/
def receive (s : State) (t : Strand) (va : Nat) (bs : List Byte) (d : R6) (x : Word) : State :=
  let pas := (wordVas va bs.length).map (fun v => accessPhys s t (BitVec.ofNat 48 v))
  let cs := lineTimes t s (linesOf (pas.map (fun a => (a, 8))))
  let last := cs.foldl (fun m c => max m c.2) s.cycle
  let (t', s') := putLines t s (pas.mapIdx (fun i a => (timeOf cs a s.cycle, a, (bs.drop (8 * i)).take 8)))
  putStrand s' (advance (if endCycle t ≤ last then t' else setG s.cycle (last + 1 - s.cycle) d x t'))

/-- MRECV (R390). -/
def execMrecv (g : Guard) (tg : Bool) (d a b : R6) (s : State) : Out :=
  issue (.mrecv g tg d a b) g advance (fun t s =>
    let i := Instr.mrecv g tg d a b
    let va := va48 (getG t a)
    match destLeased s t va 256 with
    | some v => raise i .lease s t (BitVec.ofNat 64 v)
    | none => match destCause s t va 256 with
      | some c => raise i c.1 s t (BitVec.ofNat 64 c.2)
      | none =>
        let tag := (getG t b).toNat % 2 ^ 16
        let k := getCp s t.cl t.task.pid
        match k.inbox.find? (msgMatches tg tag) with
        | none => implicitSplit s t 5 (BitVec.ofNat 64 (tag + 2 ^ 16 * (if tg then 1 else 0))) 0
        | some m =>
          let s := updCp s t.cl t.task.pid (fun k => { k with inbox := k.inbox.eraseP (msgMatches tg tag) })
          receive s t va m.bytes d m.hdr) s

/-! ### Sharding layouts (R391-R393) -/

/-- A sharding-layout descriptor: its eight words. -/
structure Layout where
  w : List Word
deriving DecidableEq, Repr

def Layout.fld (l : Layout) (i lo n : Nat) : Nat := (l.w.getD i 0).toNat / 2 ^ lo % 2 ^ n
def Layout.base (l : Layout) : Nat := l.fld 0 0 48
def Layout.fmt (l : Layout) : Nat := l.fld 0 48 4
def Layout.rank (l : Layout) : Nat := l.fld 0 52 2 + 1
def Layout.nax (l : Layout) : Nat := l.fld 0 54 2
def Layout.dim (l : Layout) (k : Nat) : Nat := l.fld (1 + k / 2) (32 * (k % 2)) 32
/-- MAP code of dimension k. -/
def Layout.map (l : Layout) (k : Nat) : Nat := l.fld 3 (4 * k) 4
def Layout.part (l : Layout) (a : Nat) : Bool := l.fld 3 (16 + (a - 1)) 1 == 1
def Layout.dom (l : Layout) : Nat := l.fld 4 0 6
def Layout.size (l : Layout) (a : Nat) : Nat := if a = 0 then 1 else l.fld 4 (6 + 8 * (a - 1)) 8

/-- Element bytes of FMT 1, 2, 3 or 9. -/
def Layout.esz (l : Layout) : Nat := if l.fmt = 1 then 4 else if l.fmt = 9 then 1 else 2

/-- Local size of dimension k (R392). -/
def Layout.loc (l : Layout) (k : Nat) : Nat := l.dim k / max 1 (l.size (l.map k))

/-- Elements and bytes of the local buffer. -/
def Layout.count (l : Layout) : Nat := l.loc 0 * l.loc 1 * l.loc 2 * l.loc 3
def Layout.bytes (l : Layout) : Nat := l.count * l.esz

/-- The dimension sharded over axis a. -/
def Layout.shard (l : Layout) (a : Nat) : Option Nat := (List.range 4).find? (fun k => l.map k == a)

/-- The descriptor is well formed for a domain of `n` members (R391, R392). -/
def Layout.ok (l : Layout) (n : Nat) : Bool :=
  l.fld 0 56 8 == 0 && l.fld 3 19 45 == 0 && l.fld 4 30 34 == 0 && (List.range 3).all (fun k => l.w.getD (5 + k) 0 == 0)
    && (l.fmt == 1 || l.fmt == 2 || l.fmt == 3 || l.fmt == 9) && l.nax != 0 && l.base % l.esz == 0
    && (List.range 4).all (fun k => if k < l.rank then l.dim k != 0 else l.dim k == 1 && l.map k == 0)
    && (List.range 4).all (fun k => decide (l.map k ≤ l.nax) && l.dim k % max 1 (l.size (l.map k)) == 0)
    && [1, 2, 3].all (fun a => decide (((List.range 4).filter (fun k => l.map k == a)).length ≤ 1)
        && (decide (a ≤ l.nax) || (!l.part a && l.size a == 1)) && l.size a != 0)
    && l.size 1 * l.size 2 * l.size 3 == n && l.dom % 4 != 0 && decide (l.bytes ≤ 2 ^ 32)

/-- The exchanges (R393). -/
inductive Exchange where
  | allGather | reduceScatter | allReduce | allToAll
deriving DecidableEq, Repr

/-- Two descriptors agree but for BASE, MAP and PART. -/
def sameMesh (s t : Layout) : Bool :=
  s.fmt == t.fmt && s.rank == t.rank && s.nax == t.nax && s.w.getD 1 0 == t.w.getD 1 0 && s.w.getD 2 0 == t.w.getD 2 0
    && s.w.getD 4 0 == t.w.getD 4 0

/-- The one axis on which the pair differs, and the exchange (R393). -/
def exchangeOf (s t : Layout) : Option (Nat × Exchange) :=
  if !sameMesh s t then none
  else
    match [1, 2, 3].filter (fun a => s.shard a != t.shard a || s.part a != t.part a) with
    | [a] =>
      match s.shard a, t.shard a with
      | some k, none => if !s.part a && !t.part a && t.map k == 0 then some (a, .allGather) else none
      | none, some k => if s.part a && !t.part a && s.map k == 0 then some (a, .reduceScatter) else none
      | some k, some k' =>
        if k = k' then (if s.part a && !t.part a && (s.w.getD 3 0).toNat % 2 ^ 16 == (t.w.getD 3 0).toNat % 2 ^ 16
          then some (a, .allReduce) else none)
        else if t.map k == 0 && s.map k' == 0 && s.part a == t.part a then some (a, .allToAll) else none
      | none, none =>
        if s.part a && !t.part a && (s.w.getD 3 0).toNat % 2 ^ 16 == (t.w.getD 3 0).toNat % 2 ^ 16
          then some (a, .allReduce) else none
    | _ => none

/-- The exchange reduces. -/
def reduces : Exchange → Bool
  | .reduceScatter | .allReduce => true
  | _ => false

/-! ### COLL (R395) -/

/-- The causes of COLL's step 6, LAYOUT or FORMAT, for a pair read (R393, R395). -/
def collCause (s : State) (t : Strand) (x y : Layout) : Option Cause :=
  let sel := x.dom
  let inst := domInst sel t.cl
  let d := getDom s t.task.pid sel inst
  let n := domSize s t.task.pid sel inst d.word
  if memPer d.word = 0 ∨ !x.ok n ∨ !y.ok n then some .layout
  else match exchangeOf x y with
    | none => some .layout
    | some (_, e) =>
      if !(domMembers sel inst d.word).contains t.cl then some .layout
      else if x.base < y.base + y.bytes ∧ y.base < x.base + x.bytes then some .layout
      else if reduces e && !(x.fmt == 1 || x.fmt == 2) then some .format
      else none

/-- Put a collective back. -/
def putColl (s : State) (c : Coll) : State := { s with colls := listUpd s.colls (fun x => x.num == c.num) (fun _ => c) }

/-- Put an operation of `task` into the collective it belongs to: the next of its cluster on the domain (R396). One of a
cancelled collective completes with ABORTED (R397). -/
def joinColl (s : State) (cl p sel inst id task : Nat) : State :=
  let k := (tabGet (getCp s cl p).collCount sel).getD 0
  let s := updCp s cl p (fun q => { q with collCount := tabSet q.collCount sel (k + 1) })
  let isIt : Coll → Bool := fun c => c.pid == p && c.sel == sel && c.inst == inst && c.k == k
  match s.colls.find? isIt with
  | some c =>
    let s := putColl s { c with ops := c.ops ++ [(cl, id)], tasks := c.tasks ++ [(id, task)] }
    if c.cancelled then doneOp s id (errW 5).toNat else s
  | none =>
    let d := getDom s p sel inst
    { s with
      colls := s.colls ++ [{
        num := s.nextId, pid := p, sel := sel, inst := inst, k := k, ops := [(cl, id)], tasks := [(id, task)]
        members := domMembers sel inst d.word, checked := false, cancelled := false
        pair := [], waves := [] }]
      nextId := s.nextId + 1 }

/-- Scope of a domain's releases (R379). -/
def domScope (sel : Nat) : Nat := selKind sel + 1

/-- COLL (R395). -/
def execColl (g : Guard) (d a c : R6) (s : State) : Out :=
  issue (.coll g d a c) g advance (fun t s =>
    let i := Instr.coll g d a c
    let va := va48 (getG t a)
    if ctrFull t c then raise i .counter s t 0
    else if va % 128 ≠ 0 then raise i .align s t (BitVec.ofNat 64 va)
    else match laneRead s t va 128 with
      | .error e => raise i e.1 s t (BitVec.ofNat 64 e.2)
      | .ok r =>
        let x : Layout := ⟨r.words.take 8⟩
        let y : Layout := ⟨r.words.drop 8⟩
        match collCause s t x y with
        | some cs => raise i cs s t 0
        | none =>
          let s := r.st
          let o := { mkOp s t .coll (some c) (dstG d) (domScope x.dom) r.words with
            leases := leaseOf s t [(x.base, x.bytes), (y.base, y.bytes)] }
          joinColl (issueOp s t o) t.cl t.task.pid x.dom (domInst x.dom t.cl) o.id t.task.id) s

/-! ### Running a collective (R394, R396, R397) -/

def opLayouts (o : Op) : Layout × Layout := (⟨o.args.take 8⟩, ⟨o.args.drop 8⟩)

/-- Mesh coordinate of member n along axis a (R391). -/
def meshCoord (l : Layout) (n a : Nat) : Nat :=
  if a = 1 then n % l.size 1 else if a = 2 then n / l.size 1 % l.size 2 else n / (l.size 1 * l.size 2)

/-- Member number with coordinate c along axis a, the others as of member n. -/
def meshMove (l : Layout) (n a c : Nat) : Nat :=
  let st := if a = 1 then 1 else if a = 2 then l.size 1 else l.size 1 * l.size 2
  n - meshCoord l n a * st + c * st

/-- Index of a dimension in local element e (the last dimension varies fastest). -/
def locIndex (l : Layout) (e k : Nat) : Nat :=
  let below := ((List.range 4).filter (fun j => decide (k < j))).foldl (fun p j => p * l.loc j) 1
  e / below % max 1 (l.loc k)

/-- Local element of four indices. -/
def locElem (l : Layout) (ix : Nat → Nat) : Nat := ((ix 0 * l.loc 1 + ix 1) * l.loc 2 + ix 2) * l.loc 3 + ix 3

/-- The elements that member coordinate `src` sends to coordinate `dst` in a moving exchange, as (source, destination)
local element numbers (R392, R394): destination elements whose global index lies in the source's shard. -/
def movePairs (s t : Layout) (a src dst : Nat) : List (Nat × Nat) :=
  match s.shard a with
  | none => []
  | some k =>
    (List.range t.count).filterMap (fun e =>
      let g := locIndex t e k
      if g / max 1 (s.loc k) = src then
        some (locElem s (fun j =>
          if j = k then g % max 1 (s.loc k)
          else if t.shard a == some j then locIndex t e j + dst * t.loc j else locIndex t e j), e)
      else none)

/-- The elements of chunk c of a reducing exchange, as (source, destination) local element numbers: in a reduce-scatter
the slice that member c holds, in an all-reduce the elements e with floor(e × S / N) = c (R394). -/
def chunkPairs (s t : Layout) (a c : Nat) (e : Exchange) : List (Nat × Nat) :=
  if e = .allReduce then
    ((List.range s.count).filter (fun x => x * s.size a / max 1 s.count == c)).map (fun x => (x, x))
  else match t.shard a with
    | none => []
    | some k => (List.range t.count).map (fun x =>
        (locElem s (fun j => if j = k then locIndex t x j + c * t.loc j else locIndex t x j), x))

/-- The elements of a wave. -/
def wavePairs (s t : Layout) (a : Nat) (e : Exchange) (w : Wave) : List (Nat × Nat) :=
  if reduces e then chunkPairs s t a w.chunk e
  else movePairs s t a (meshCoord s (w.ring.getD 0 0) a) (meshCoord s (w.ring.getD 1 0) a)

/-- The waves of a collective of `n` members: a path of members each, by number (R391, R394). A moving wave reads at its first member and
writes at its second; a reducing wave reads and adds along S members and then writes at the members that follow. -/
def wavesOf (s : Layout) (a n : Nat) (e : Exchange) : List Wave :=
  let sz := s.size a
  let rings := (List.range n).filter (fun m => meshCoord s m a == 0)
  rings.flatMap (fun m =>
    if reduces e then
      (List.range sz).map (fun c =>
        let path := (List.range sz).map (fun h => meshMove s m a ((c + 1 + h) % sz))
        let out := if e = .allReduce then (List.range sz).map (fun h => meshMove s m a ((c + h) % sz))
          else [meshMove s m a c]
        ⟨path ++ out, c, 0, 0, []⟩)
    else
      (List.range sz).flatMap (fun i => (List.range sz).map (fun j => ⟨[meshMove s m a i, meshMove s m a j], 0, 0, 0, []⟩)))

/-- What a wave does at hop h: 0 reads, 1 adds, 2 writes. -/
def hopKind (e : Exchange) (sz h : Nat) : Nat :=
  if reduces e then (if h = 0 then 0 else if h < sz then 1 else 2) else if h = 0 then 0 else 2

/-- Member m of a collective is a cluster of this package: members are numbered package by package (R391). -/
def collHere (s : State) (c : Coll) (m : Nat) : Bool := m / max 1 c.members.length == pkgRank s c.pid c.sel

/-- The operation of member m of a collective, a cluster of this package: its members are numbered by package row and column,
behind those of the packages before it (R391). -/
def collMember (s : State) (c : Coll) (m : Nat) : Option Nat :=
  let sorted := c.members.foldl (fun l x => insertBy l x) []
  if !collHere s c m then none
  else match sorted[m % max 1 c.members.length]? with
  | some cl => (c.ops.find? (fun e => e.1 == cl)).map (·.2)
  | none => none
where
  insertBy : List Nat → Nat → List Nat
    | [], x => [x]
    | y :: l, x => if clRow x < clRow y ∨ (clRow x = clRow y ∧ clCol x < clCol y) then x :: y :: l else y :: insertBy l x

/-- The flags of an adder go to every task of the wave's ring: to the operation while it is pending, which ORs them into
FPFLAG at its completion, and to the task itself when its own part is done (R310, R394). -/
def ringFlags (s : State) (c : Coll) (w : Wave) (f : FpFlags) : State :=
  let ring := (w.ring.filterMap (collMember s c)).eraseDups
  ring.foldl (fun s id =>
    if s.ops.any (fun o => o.id == id) then updOp s id (fun q => { q with flags := q.flags ||| f })
    else match c.tasks.find? (fun e => e.1 == id) with
      | some e => addFlags s e.2 c.pid f
      | none => s) s

/-- A collective whose wave `wi` has done an element of its hop as `w`, out of `len`. -/
def waveNext (c : Coll) (wi len : Nat) (w : Wave) : Coll :=
  let w := if w.elem + 1 < len then { w with elem := w.elem + 1 } else { w with elem := 0, hop := w.hop + 1 }
  if w.ring.length ≤ w.hop then { c with waves := c.waves.eraseIdx wi } else { c with waves := c.waves.set wi w }

/-- One element of one wave at its hop (R394): it moves `x` on, or its member's operation stops once all it has written is
visible at its scope (R202, R397). -/
def hopElem (s : State) (c : Coll) (wi : Nat) (w : Wave) (o : Op) (a : Nat) (e : Exchange) : State :=
  let ls := opLayouts o
  let ps := wavePairs ls.1 ls.2 a e w
  let k := hopKind e (ls.1.size a) w.hop
  let n := ls.1.esz
  let next := waveNext c wi ps.length
  match ps[w.elem]? with
  | none => putColl s { c with waves := c.waves.eraseIdx wi }
  | some p =>
    let off := n * (if k = 2 then p.2 else p.1)
    let va := ((if k = 2 then ls.2 else ls.1).base + off) % 2 ^ 48
    match engAddr s o va (k == 2) with
    | (.error cs, s) => applyUnit o 3 (.stop cs (BitVec.ofNat 64 va) (BitVec.ofNat 64 off) s)
    | (.ok (pa, x), s) =>
      if k = 2 then
        if tileLeased s pa n then s
        else putColl (engWrite s o x pa (toLe n (w.vals.getD w.elem 0)) false) (next w)
      else if eccBad s pa n then applyUnit o 3 (.stop .memoryEcc (BitVec.ofNat 64 va) (BitVec.ofNat 64 off) s)
      else if bankShut s pa n then s
      else
        let v := leNat (engRead s (dieOf o.cl) pa n)
        let s := seeWrites (correctSoft s pa n) (dieOf o.cl) pa n
        if k = 0 then putColl s (next { w with vals := w.vals ++ [v] })
        else
          let r := fpBin xAdd (if ls.1.fmt = 1 then .fp32 else .bf16) .rne (w.vals.getD w.elem 0) v
          putColl (ringFlags s c w r.2) (next { w with vals := w.vals.set w.elem r.1 })

/-- One element of one wave at a member in another package (R394): the value that leaves there, and the flags of its adder, come
from outside as `ev.words`. -/
def hopFar (s : State) (c : Coll) (wi : Nat) (w : Wave) (a : Nat) (e : Exchange) : State :=
  let l : Layout := ⟨c.pair.take 8⟩
  let ps := wavePairs l ⟨c.pair.drop 8⟩ a e w
  let k := hopKind e (l.size a) w.hop
  let v := (s.ev.words.getD 0 0).toNat % 2 ^ (8 * l.esz)
  let next := waveNext c wi ps.length
  dropColls (if ps[w.elem]? = none then putColl s { c with waves := c.waves.eraseIdx wi }
    else if k = 0 then putColl s (next { w with vals := w.vals ++ [v] })
    else if k = 1 then
      putColl (ringFlags s c w ((s.ev.words.getD 1 0).setWidth 7)) (next { w with vals := w.vals.set w.elem v })
    else putColl s (next w))

/-- A collective is cancelled (R397): every member's operation that is pending completes with ABORTED but operation `id`, and
those that have not issued when they do. -/
def cancelWith (s : State) (c : Coll) (id : Nat) : State :=
  let s := putColl s { c with waves := [], cancelled := true }
  let s := (c.ops.filter (fun e => e.2 != id)).foldl (fun s e =>
    if s.ops.any (fun o => o.id == e.2 && o.fin.isNone) then doneOp s e.2 (errW 5).toNat else s) s
  dropColls s

/-- ABORT of a member's task cancels the collective at every member (R397). -/
def cancelColl (s : State) (id : Nat) : State :=
  match s.colls.find? (fun c => c.ops.any (fun e => e.2 == id)) with
  | none => s
  | some c => cancelWith s c id

/-- COLL_HOP (R394): wave `ev.n` of collective `ev.id` advances by one element. With `ev.flag` another package has done its part:
the hop of a member there, or, with `ev.unit` = 1, the ABORT of a member's task there, which cancels the collective (R397). -/
def execCollHop (s : State) : Out :=
  .next (match s.colls.find? (fun c => c.num == s.ev.id && (c.checked || (s.ev.flag && s.ev.unit == 1))) with
    | none => s
    | some c =>
      if s.ev.flag && s.ev.unit == 1 then (if selKind c.sel = 3 then cancelWith s c 0 else s)
      else match c.waves[s.ev.n]? with
      | none => s
      | some w =>
        if s.ev.flag then
          match exchangeOf ⟨c.pair.take 8⟩ ⟨c.pair.drop 8⟩ with
          | some (a, e) => if collHere s c (w.ring.getD w.hop 0) then s else hopFar s c s.ev.n w a e
          | none => s
        else match (collMember s c (w.ring.getD w.hop 0)).bind (fun id => s.ops.find? (fun o => o.id == id)) with
        | none => s
        | some o =>
          if !opReady s o then s
          else
            let ls := opLayouts o
            match exchangeOf ls.1 ls.2 with
            | none => s
            | some (a, e) => hopElem s c s.ev.n w o a e)

/-- The pairs of two members agree without BASE (R396). -/
def samePair (x y : Op) : Bool :=
  let strip := fun (o : Op) => o.args.mapIdx (fun i w => if i % 8 = 0 then w.toNat / 2 ^ 48 else w.toNat)
  strip x == strip y

/-- The domain of a collective spans packages (R380). -/
def collFar (s : State) (c : Coll) : Bool :=
  decide (c.members.length < domSize s c.pid c.sel c.inst (getDom s c.pid c.sel c.inst).word)

/-- COLL_LAYOUT_CHECK (R396): once every member has issued, the pairs are compared: a difference stops every member's
operation with LAYOUT, else the waves begin, those with a member in this package (R394). For a domain that spans packages the row
comes from outside, when the members there have issued; they differ when `ev.flag` is true. -/
def execCollLayoutCheck (s : State) : Out :=
  .next (match s.colls.find? (fun c => c.num == s.ev.id && !c.checked) with
    | none => s
    | some c =>
      let os := s.ops.filter (fun o => c.ops.any (fun e => e.2 == o.id))
      if c.cancelled then s
      else match os with
      | [] => s
      | o :: rest =>
        if c.ops.length ≠ c.members.length ∨ os.any (·.stopped) then s
        else if s.ev.flag ∨ rest.any (fun q => !samePair o q) then
          os.foldl (fun s q => stopOp s q .layout 3 0 0) s
        else
          let ls := opLayouts o
          match exchangeOf ls.1 ls.2 with
          | none => s
          | some (a, e) =>
            let n := domSize s c.pid c.sel c.inst (getDom s c.pid c.sel c.inst).word
            let ws := (wavesOf ls.1 a n e).filter (fun w => w.ring.any (collHere s c))
            putColl s { c with checked := true, pair := o.args, waves := ws })

/-- No wave still reads or writes at this member. -/
def memberDone (s : State) (c : Coll) (id : Nat) : Bool :=
  c.checked && c.waves.all (fun w => (w.ring.drop w.hop).all (fun m => collMember s c m != some id))

/-- COLL_COMPLETE has something to do for this operation. -/
def collOpen (s : State) (o : Op) : Bool :=
  opReady s o && s.colls.any (fun c => c.ops.any (fun e => e.2 == o.id) && memberDone s c o.id)

/-- COLL_COMPLETE (R396): member operation `ev.id` completes when nothing is left for it to do. -/
def execCollComplete (s : State) : Out :=
  .next (match s.ops.find? (fun o => o.id == s.ev.id && o.kind == .coll && opReady s o) with
    | none => s
    | some o => if collOpen s o then doneOp s o.id 0 else s)

/-! ### REDM (R398) -/

/-- REDM (R398). -/
def execRedm (g : Guard) (op : BitVec 2) (ch : BitVec 2) (sc : BitVec 3) (d a b c : R6) (s : State) : Out :=
  dataForm (.redm g op ch sc d a b c) g ch.toNat c
    (fun t => alignBad [getG t d, getG t a] [lo32 (getG t b)])
    (fun t s => { mkOp s t .redm (some c) none sc.toNat [getG t d, getG t a, getG t b, toW op] with
      leases := leaseOf s t [(va48 (getG t a), lo32 (getG t b))] }) s

/-- The fold of a word (R398). -/
def foldWord (op : Nat) (w y : Nat) : Nat × FpFlags :=
  if op = 2 then ((w + y) % 2 ^ 64, 0)
  else
    let n := if op = 0 then 32 else 16
    let rs := (List.range (64 / n)).map (fun i =>
      fpBin xAdd (if op = 0 then .fp32 else .bf16) .rne (w / 2 ^ (n * i) % 2 ^ n) (y / 2 ^ (n * i) % 2 ^ n))
    (packElts n (rs.map (·.1)), rs.foldl (fun f r => f ||| r.2) 0)

/-- One unit of REDM (R398): it follows its channel's writes to the same home (R369) and its die's writes to the word (R363,
R368), and on a replicated page it takes its place in the sequence of R371. -/
def unitRedm (s : State) (o : Op) : UnitRes :=
  let d := offVa (va48 (o.args.getD 0 0)) o.i
  let a := offVa (va48 (o.args.getD 1 0)) o.i
  let l := lo32 (o.args.getD 2 0)
  let ix := BitVec.ofNat 64 o.i
  if l ≤ o.i then .last 0 s
  else match engAddr s o a false with
    | (.error c, s) => .stop c (BitVec.ofNat 64 a) ix s
    | (.ok (pa, _), s) =>
      match engAddr s o d true with
      | (.error c, s) => .stop c (BitVec.ofNat 64 d) ix s
      | (.ok (pd, x), s) =>
        if refused s pa then .stop .protection (BitVec.ofNat 64 a) ix s
        else if 2 ^ 40 ≤ pd then .stop .residency (BitVec.ofNat 64 d) ix s
        else if eccBad s pa 8 then .stop .memoryEcc (BitVec.ofNat 64 a) ix s
        else if eccBad s pd 8 then .stop .memoryEcc (BitVec.ofNat 64 d) ix s
        else if s.egress.any (fun e => e.unit == unitNo o && e.dst == homeOf pd) || bgBusy s o pa || replPending s o
            || (pteRepl x.pte0 && replLeased s o.pid x.fri (pd % 32768) 8)
            || s.repl.any (fun w => w.unit == unitNo o && w.pid == o.pid && !w.seqd) then .hold s
        else
          let s := if pteRepl x.pte0 then viewHome s o.cl o.pid else s
          let s := settleWord (seeWrites (correctSoft (correctSoft s pa 8) pd 8) (dieOf o.cl) pa 8) (dieOf o.cl) pd 8
          let r := foldWord (o.args.getD 3 0).toNat (rdN s pd 8) (leNat (engRead s (dieOf o.cl) pa 8))
          let s := updOp (homeWrite s o x pd (toLe 8 r.1)) o.id (fun q => { q with flags := q.flags ||| r.2, i := o.i + 8 })
          if l ≤ o.i + 8 then .last 0 s else .more s

end Sys2Proof.Machine
end

