-- ==== Sys2Proof/Machine/Stream.lean ====
section
/-! DEFINITION. Streams: descriptors, states and lists, the issue of major 0x18 and what each form does at its sequence
point (spec/12 R325-R346). Batches and the scheduler's own steps stand in Sched.lean. -/

namespace Sys2Proof.Machine

/-! ### Descriptors (R325-R327) -/

/-- The SID that names no stream. -/
def noSid : Nat := 0xFFFFFF

/-- A die's register of a partition (R326). -/
def dpCtl (s : State) (d p n : Nat) : Nat := (ctlGet (getDp s d p).ctl n).toNat

/-- The scheduler serves the partition; BATCH_WAIT; NSTR. -/
def strEn (s : State) (d p : Nat) : Bool := dpCtl s d p 0x410 % 2 == 1
def batchWait (s : State) (d p : Nat) : Nat := dpCtl s d p 0x410 / 2 % 2 ^ 12
def nstr (s : State) (d p : Nat) : Nat := dpCtl s d p 0x410 / 2 ^ 13 % 2 ^ 17

/-- The die slot of a die of this package, and what a die slot names: die and package (R325, R428). -/
def dieEntry (s : State) (p slot : Nat) : Option (Nat × Nat) :=
  if slot < partField s p 0 25 9 then
    let e := rdN s (partField s p 7 0 40 + 4 * slot) 4
    some (e % 8, e / 8 % 2 ^ 12)
  else none

def dieSlot (s : State) (p d : Nat) : Option Nat :=
  (List.range (min 256 (partField s p 0 25 9))).find? (fun k => dieEntry s p k == some (d, Config.torus.toNat))

/-- The SID of a stream of a die. -/
def sidOf (s : State) (p d sn : Nat) : Nat := 2 ^ 16 * (dieSlot s p d).getD 0xFF + sn

/-- The SID names a stream number of die d below NSTR: 0xFF_FFFF names none (R325, R337). -/
def sidHere (s : State) (d p sid : Nat) : Bool :=
  dieSlot s p d == some (sid / 2 ^ 16 % 256) && decide (sid % 2 ^ 16 < nstr s d p) && sid % 2 ^ 24 != noSid

/-- Address of a descriptor in the area, under the default root (R326). -/
def descAddr (s : State) (d p sn : Nat) : Option Nat :=
  let va := dpCtl s d p 0x411 / 2 ^ 23 % 2 ^ 25 * 2 ^ 23 + 128 * sn
  match walk s p 0 (va / 32768) with
  | some l => some (recPhys s p l.fri + va % 32768)
  | none => none

/-- The descriptor words in the area. -/
def areaWords (s : State) (a : Nat) : List Word := (List.range 16).map (fun i => rd64 s (a + 8 * i))

/-- The descriptor of a live stream (R327): the descriptor cache holds SNUM 0 to 16,383. One beyond whose place in the area has no
translation is not found, and a write to it is lost (log 111). -/
def getStr (s : State) (d p sn : Nat) : Option (List Word) :=
  if !((getDp s d p).live.contains sn) then none
  else if sn < 16384 then tabGet (getDp s d p).streams sn
  else (descAddr s d p sn).map (areaWords s)

/-- Write a descriptor. -/
def putStr (s : State) (d p sn : Nat) (w : List Word) : State :=
  if sn < 16384 then updDp s d p (fun k => { k with streams := tabSet k.streams sn w })
  else match descAddr s d p sn with
    | some a => wrMem s a ((w.take 16).flatMap (fun (x : Word) => toLe 8 x.toNat))
    | none => s

/-- A field of a descriptor. -/
def sF (w : List Word) (i lo n : Nat) : Nat := (w.getD i 0).toNat / 2 ^ lo % 2 ^ n

/-- Replace a field. -/
def sSet (w : List Word) (i lo n x : Nat) : List Word := w.set i (setField (w.getD i 0) lo n x)

def stState (w : List Word) : Nat := sF w 0 0 4
def stAuto (w : List Word) : Bool := sF w 0 5 1 == 1
def stPin (w : List Word) : Bool := sF w 0 4 1 == 1
def stPrio (w : List Word) : Nat := sF w 0 8 7
def stModel (w : List Word) : Nat := sF w 0 16 16
def stLcur (w : List Word) : Nat := sF w 0 32 8
def stNl (w : List Word) : Nat := sF w 0 40 8
def stHome (w : List Word) : Nat := sF w 0 48 5
def stStep (w : List Word) : Nat := sF w 1 0 32
def stHor (w : List Word) : Nat := sF w 1 32 32
def stRoot (w : List Word) : Nat := sF w 2 0 26
def stSln (w : List Word) : Nat := sF w 2 26 4
def stSgrp (w : List Word) : Nat := sF w 3 24 24
def stRet (w : List Word) : Nat := sF w 4 0 32
def stIdleLim (w : List Word) : Nat := sF w 4 32 32
def stAqc (w : List Word) : Nat := sF w 5 48 3
def stAqh (w : List Word) : Nat := sF w 5 51 2
def stSlist (w : List Word) : Nat := sF w 8 0 48
def stKid0 (w : List Word) : Nat := sF w 10 0 24
def stNkids (w : List Word) : Nat := sF w 10 24 24
def stNext (w : List Word) : Nat := sF w 11 0 24
def stPrev (w : List Word) : Nat := sF w 11 24 24

/-- States (R327). -/
def ST_IDLE : Nat := 0
def ST_READY : Nat := 1
def ST_BATCHED : Nat := 2
def ST_RUNNING : Nat := 3
def ST_HELD : Nat := 4
def ST_MIGRATING : Nat := 5
def ST_MOVED : Nat := 6
def ST_DONE : Nat := 7

/-- Change a live stream's descriptor. -/
def updStr (s : State) (d p sn : Nat) (f : List Word → List Word) : State :=
  match getStr s d p sn with
  | some w => putStr s d p sn (f w)
  | none => s

/-- The home cluster, package number. -/
def homeCl (d : Nat) (w : List Word) : Nat := 32 * d + stHome w

/-! ### State pages (R334, R344) -/

/-- The virtual page numbers on the state-page list, read under ROOT; none when the list cannot be read. Bits [63:48] and [14:0] of
an entry are ignored (log 113). -/
def statePages (s : State) (p : Nat) (w : List Word) : Option (List Nat) :=
  (List.range (stSln w)).foldl (fun acc i =>
    match acc with
    | none => none
    | some l =>
      let va := (stSlist w + 8 * i) % 2 ^ 48
      match walk s p (stRoot w) (va / 32768) with
      | some lf => some (l ++ [rdN s (recPhys s p lf.fri + va % 32768) 8 % 2 ^ 48 / 32768])
      | none => none) (some [])

/-- Clear the pin of a mapping, if it has one (R159). -/
def unpinPage (s : State) (p root vpn : Nat) : State :=
  match walk s p root vpn with
  | some l =>
    if ptePin l.pte0 then setPte (setPins s p l.fri (recPins s p l.fri - 1)) p l (l.pte0 &&& ~~~ 16#64) l.pte1 else s
  | none => s

/-- Release the pins that a stream's SPIN made and clear PIN (R328, R334, R344). -/
def unpinStream (s : State) (d p sn : Nat) : State :=
  match getStr s d p sn with
  | some w =>
    if stPin w then
      let s := ((tabGet (getDp s d p).pins sn).getD []).foldl (fun s v => unpinPage s p (stRoot w) v) s
      updStr (updDp s d p (fun k => { k with pins := tabDel k.pins sn })) d p sn (fun w => sSet w 0 4 1 0)
    else s
  | none => s

/-- A node that is shared, copied in the pool of a die, with the records that its entries name and the pins of its leaves
counted once more (R153, R159); `lvl` is the node's level. REF of none may pass 65,535 (R152). -/
def copyNode (s : State) (d p lvl fri : Nat) : Except Cause (Nat × State) :=
  match newNode s d p with
  | none => .error .residency
  | some (n, s') =>
    let s' := copyBytes s' (recPhys s' p n) (recPhys s' p fri) 32768
    let r := (nodeKids s' p lvl n).foldl (fun (acc : Option State) k => acc.bind (fun s =>
      if 65535 ≤ recRef s p k.1 then none
      else
        let s := setRef s p k.1 (recRef s p k.1 + 1)
        some (if k.2 then setPins s p k.1 (recPins s p k.1 + 1) else s))) (some s')
    match r with
    | none => .error .refcount
    | some s' => .ok (n, setRef s' p fri (recRef s' p fri - 1))

/-- How copying a path down ends: done; the pool has no page, which fails the attempt without a fault; or REFCOUNT. -/
inductive CopyEnd where
  | done | noPage | refs
deriving DecidableEq, Repr

/-- One node of a path, copied when it is shared; `parent` is the entry that names it. -/
def copyOne (s : State) (d p lvl : Nat) (parent : Option Nat) (fri : Nat) : Except CopyEnd (Nat × State) :=
  if 1 < recRef s p fri then
    match copyNode s d p lvl fri with
    | .error .refcount => .error .refs
    | .error _ => .error .noPage
    | .ok (n, s) =>
      .ok (n, match parent with
        | some a => wr64 s a (setField (rd64 s a) 32 26 n)
        | none => s)
  else .ok (fri, s)

/-- Copy down the shared nodes of a page's path, root first (R153): the root FRI that then stands, how it ended, and the
state with the copies made so far. -/
def copyDown (s : State) (d p root vpn : Nat) : Nat × CopyEnd × State :=
  match walkNodes s p root vpn with
  | [r, _, _] =>
    match copyOne s d p 1 none r with
    | .error e => (r, e, s)
    | .ok (r, s) =>
      let a1 := pteAddr s p r vpn 1
      match copyOne s d p 2 (some a1) (pteFri (rd64 s a1)) with
      | .error e => (r, e, s)
      | .ok (n2, s) =>
        let a2 := pteAddr s p n2 vpn 2
        match copyOne s d p 3 (some a2) (pteFri (rd64 s a2)) with
        | .error e => (r, e, s)
        | .ok (_, s) => (r, .done, s)
  | _ => (rootOf s p root, .noPage, s)

/-- Pin one page of a list on the home cluster (R344): whether it succeeded. A frame that a segment holds is not moved (R155): one
whose move into the cluster is booked comes there without SPIN. A mapping that has a pin already keeps that one (R159). -/
def pinPage (s : State) (d p cl sn vpn : Nat) : Bool × State :=
  match getStr s d p sn with
  | none => (false, s)
  | some w =>
    let c := copyDown s d p (stRoot w) vpn
    let s := updStr c.2.2 d p sn (fun w => sSet w 2 0 26 c.1)
    if c.2.1 ≠ .done then (false, s)
    else match walk s p c.1 vpn with
      | none => (false, s)
      | some l =>
        if ptePin l.pte0 && localRec s p l.fri cl then (true, s)
        else
          match (if localRec s p l.fri cl || moveBooked s cl p l.fri then some s
              else if held s p l.fri then none else makeLocal s cl p l.fri) with
          | none => (false, s)
          | some s =>
            (true, if ptePin l.pte0 then s
              else setPte (setPins s p l.fri (recPins s p l.fri + 1)) p l (l.pte0 ||| 16#64) l.pte1)

/-- The mapping of a page under a root has PIN = 1. -/
def pagePinned (s : State) (p root vpn : Nat) : Bool := (walk s p root vpn).any (fun l => ptePin l.pte0)

/-- SPIN's pins: all of the list's pages, or none. When a page fails nothing stays of what was done (R337, R344): the node copies
and moves made for it are undone with the pins, which the spec does not say of them (log 106). -/
def pinStream (s : State) (d p sn : Nat) : Bool × State :=
  match getStr s d p sn with
  | none => (false, s)
  | some w =>
    match statePages s p w with
    | none => (false, s)
    | some vs =>
      let r := vs.foldl (fun (acc : Bool × State) v => if acc.1 then pinPage acc.2 d p (homeCl d w) sn v else acc) (true, s)
      if r.1 then
        (true, updStr (updDp r.2 d p (fun k => { k with
          pins := tabSet k.pins sn (((tabGet k.pins sn).getD []) ++ vs).eraseDups })) d p sn (fun w => sSet w 0 4 1 1))
      else (false, s)

/-! ### Lists (R327, R328) -/

/-- The members of a family list, in order: `n` of them from SID `sid`. -/
def listFrom (s : State) (d p : Nat) : Nat → Nat → List Nat
  | 0, _ => []
  | n + 1, sid =>
    if sid = noSid then []
    else (sid % 2 ^ 16) :: (match getStr s d p (sid % 2 ^ 16) with
      | some w => listFrom s d p n (stNext w)
      | none => [])

def familyOf (s : State) (d p head : Nat) : List Nat :=
  match getStr s d p head with
  | some w => listFrom s d p (stNkids w) (stKid0 w)
  | none => []

/-- Link a stream at the tail of a family list (R338). -/
def linkTail (s : State) (d p head sn : Nat) : State :=
  let sid := sidOf s p d sn
  match (familyOf s d p head).getLast? with
  | none =>
    updStr (updStr s d p sn (fun w => sSet (sSet w 11 0 24 noSid) 11 24 24 noSid)) d p head
      (fun w => sSet (sSet w 10 0 24 sid) 10 24 24 1)
  | some q =>
    let s := updStr s d p q (fun w => sSet w 11 0 24 sid)
    let s := updStr s d p sn (fun w => sSet (sSet w 11 0 24 noSid) 11 24 24 (sidOf s p d q))
    updStr s d p head (fun w => sSet w 10 24 24 (stNkids w + 1))

/-- Unlink a stream from its list (R328). -/
def unlink (s : State) (d p sn : Nat) : State :=
  match getStr s d p sn with
  | none => s
  | some w =>
    if stSgrp w = noSid then s
    else
      let h := stSgrp w % 2 ^ 16
      let s := if stPrev w = noSid then updStr s d p h (fun x => sSet x 10 0 24 (stNext w))
        else updStr s d p (stPrev w % 2 ^ 16) (fun x => sSet x 11 0 24 (stNext w))
      let s := if stNext w = noSid then s else updStr s d p (stNext w % 2 ^ 16) (fun x => sSet x 11 24 24 (stPrev w))
      updStr s d p h (fun x => sSet x 10 24 24 (stNkids x - 1))

/-- Free a stream (R328): its root's REF falls, it leaves its list, its SNUM is free. -/
def freeStream (s : State) (d p sn : Nat) : State :=
  match getStr s d p sn with
  | none => s
  | some w =>
    let s := if stState w = ST_MOVED then s
      else match refAdd s p (stRoot w) 1 (-1) with
        | some (_, s) => s
        | none => s
    let s := unlink s d p sn
    let s := if sn < 16384 then s else updStr s d p sn (fun w => sSet w 0 0 4 15)
    updDp s d p (fun k => { k with live := setDel k.live sn, streams := tabDel k.streams sn, waiting := k.waiting.filter (· != sn) })

/-! ### States (R328) -/

/-- IDLE_AT := TICK_NOW, and XP := 0 (R334). -/
def touch (s : State) (w : List Word) : List Word := sSet (sSet w 5 0 48 (tickNow s % 2 ^ 48)) 0 6 1 0

def unwait (s : State) (d p sn : Nat) : State := updDp s d p (fun k => { k with waiting := k.waiting.filter (· != sn) })

/-- A stream becomes READY: it waits for batch formation at the end of the sequence (R329, R330). -/
def makeReady (s : State) (d p sn : Nat) : State :=
  let s := updStr s d p sn (fun w => sSet w 0 0 4 ST_READY)
  updDp (unwait s d p sn) d p (fun k => { k with waiting := k.waiting ++ [sn] })

/-- It becomes IDLE (R334). -/
def makeIdle (s : State) (d p sn : Nat) : State :=
  updStr (unwait s d p sn) d p sn (fun w => touch s (sSet w 0 0 4 ST_IDLE))

/-- It becomes DONE: its pins go (R328). -/
def makeDone (s : State) (d p sn : Nat) : State :=
  let s := unpinStream s d p sn
  updStr (unwait s d p sn) d p sn (fun w => sSet w 0 0 4 ST_DONE)

/-- The first row of R328: an IDLE stream with HOR > 0 and an action or AUTO becomes READY. -/
def wake (s : State) (d p sn : Nat) : State :=
  match getStr s d p sn with
  | some w => if stState w = ST_IDLE ∧ 0 < stHor w ∧ (0 < stAqc w ∨ stAuto w = true) then makeReady s d p sn else s
  | none => s

/-- The last rule of SSTEP (R340). -/
def stepState (s : State) (d p sn : Nat) : State :=
  match getStr s d p sn with
  | some w =>
    if stHor w = 0 then makeDone s d p sn
    else if 0 < stLcur w ∨ stAuto w = true ∨ 0 < stAqc w then makeReady s d p sn
    else makeIdle s d p sn
  | none => s

/-- The last line of SFORK (R338). -/
def forkState (s : State) (d p sn : Nat) : State :=
  match getStr s d p sn with
  | some w =>
    if 0 < stHor w ∧ (stAuto w = true ∨ 0 < stLcur w) then makeReady s d p sn
    else if stHor w = 0 then makeDone s d p sn
    else makeIdle s d p sn
  | none => s

/-- RN_F32(a + b) without flags (R340). -/
def addF32 (a b : Nat) : Nat := (fpBin xAdd .fp32 .rne a b).1

/-- SSTEP's advance (R340). -/
def stepStream (s : State) (d p sn : Nat) (ends : Bool) (r : Nat) : State :=
  match getStr s d p sn with
  | none => s
  | some w =>
    if ends ∨ stHor w = 0 then makeDone s d p sn
    else
      let w := sSet w 4 0 32 (addF32 (stRet w) r)
      let l := stLcur w + 1
      let w := if l = stNl w then
          let w := sSet (sSet (sSet w 0 32 8 0) 1 0 32 ((stStep w + 1) % 2 ^ 32)) 1 32 32 (stHor w - 1)
          if 0 < stAqc w then sSet (sSet w 5 51 2 ((stAqh w + 1) % 4)) 5 48 3 (stAqc w - 1) else w
        else sSet w 0 32 8 l
      stepState (putStr s d p sn w) d p sn

/-! ### Issue (R336-R338) -/

/-- Where a SID's requests go: die and package; none for a die slot outside the partition (R337). -/
def sidHome (s : State) (p sid : Nat) : Option (Nat × Nat) := dieEntry s p (sid / 2 ^ 16 % 256)

/-- The die whose scheduler sequences a request, none when it is in another package. A die slot outside the partition is
answered by the issuing die (log 115). -/
def reqDie (s : State) (o : Op) : Option Nat :=
  if o.bytes ≠ [] ∨ o.i = 1 then some (dieOf o.cl)
  else match sidHome s o.pid ((o.args.getD 1 0).toNat % 2 ^ 24) with
    | some (d, pkg) => if pkg = Config.torus.toNat then some d else none
    | none => some (dieOf o.cl)

/-- The tick in which a request arrives: at once on the issuing die, else after a free time, behind the strand's earlier
requests (R329). -/
def arrivalOf (s : State) (o : Op) : Nat × State :=
  if reqDie s o = some (dieOf o.cl) then (o.tick, s)
  else
    let (k, s) := freeDelay s
    ((s.ops.filter (fun q => q.task == o.task && (q.kind == .stream || q.kind == .commit))).foldl (fun m q => max m q.arr)
      (o.tick + k), s)

/-- Issue a stream request. -/
def issueReq (s : State) (t : Strand) (o : Op) : State :=
  let (a, s) := arrivalOf s o
  issueOp s t { o with arr := a }

/-- A form of major 0x18 but SFORK: `form` is its minor code (R337). -/
def streamOp (i : Instr) (g : Guard) (form : Nat) (d c : R6) (a b : Strand → Word) (m : Nat) (s : State) : Out :=
  issue i g advance (fun t s =>
    if ctrFull t c then raise i .counter s t 0
    else issueReq s t (mkOp s t .stream (some c) (dstG d) 4 [BitVec.ofNat 64 form, a t, b t, BitVec.ofNat 64 m])) s

/-- SFORK: at most one in a tick; its result comes at the first cycle of relative tick t + 4 (R338). -/
def execSfork (g : Guard) (sh : Bool) (d a b pt : R6) (s : State) : Out :=
  issue (.sfork g sh d a b pt) g advance (fun t s =>
    let o := { mkOp s t .stream none none 4
      [0, getG t a, getG t b, b2w sh, BitVec.ofNat 64 d.toNat, BitVec.ofNat 64 pt.toNat] with i := 1, deps := [] }
    let lat := 8 * (tickNow s + 4) - s.cycle
    let t := setP s.cycle lat (low3 pt) (getP t (low3 pt)) (setG s.cycle lat d (getG t d) t)
    issueOp s { t with lastFork := tickNow s + 1 } o) s

/-- SJOIN (R342). -/
def execSjoin (g : Guard) (w : Bool) (d a b c : R6) (s : State) : Out :=
  streamOp (.sjoin g w d a b c) g 1 d c (fun t => getG t a) (fun t => getG t b) (if w then 1 else 0) s
/-- SPRUNE (R346). -/
def execSprune (g : Guard) (d a c : R6) (s : State) : Out :=
  streamOp (.sprune g d a c) g 2 d c (fun t => getG t a) (fun _ => 0) 0 s
/-- SACT (R339). -/
def execSact (g : Guard) (d a b c : R6) (s : State) : Out :=
  streamOp (.sact g d a b c) g 3 d c (fun t => getG t a) (fun t => getG t b) 0 s
/-- SHOR (R341). -/
def execShor (g : Guard) (adj : Bool) (d a b c : R6) (s : State) : Out :=
  streamOp (.shor g adj d a b c) g 5 d c (fun t => getG t a) (fun t => getG t b) (if adj then 1 else 0) s
/-- SSTEP (R340). -/
def execSstep (g : Guard) (d a b c : R6) (s : State) : Out :=
  streamOp (.sstep g d a b c) g 6 d c (fun t => getG t a) (fun t => getG t b) 0 s
/-- SSNAP (R343). -/
def execSsnap (g : Guard) (d a b c : R6) (s : State) : Out :=
  streamOp (.ssnap g d a b c) g 7 d c (fun t => getG t a) (fun t => getG t b) 0 s
/-- SPIN (R344). -/
def execSpin (g : Guard) (d a c : R6) (s : State) : Out :=
  streamOp (.spin g d a c) g 8 d c (fun t => getG t a) (fun _ => 0) 0 s
/-- SPIN.U (R344). -/
def execSpinU (g : Guard) (d a c : R6) (s : State) : Out :=
  streamOp (.spinU g d a c) g 8 d c (fun t => getG t a) (fun _ => 0) 1 s
/-- SGET (R345). -/
def execSget (g : Guard) (d a c : R6) (sel : BitVec 4) (s : State) : Out :=
  streamOp (.sget g d a c sel) g 9 d c (fun t => getG t a) (fun _ => 0) sel.toNat s
/-- SSET (R345). -/
def execSset (g : Guard) (d a b c : R6) (sel : BitVec 4) (s : State) : Out :=
  streamOp (.sset g d a b c sel) g 10 d c (fun t => getG t a) (fun t => getG t b) sel.toNat s

/-- SSET.C needs supervisor privilege (R345). -/
def execSsetC (g : Guard) (d a c : R6) (s : State) : Out :=
  issueSup (.ssetC g d a c) g (fun t s =>
    let i := Instr.ssetC g d a c
    if leaseHit s t i then raise i .lease s t 0
    else if ctrFull t c then raise i .counter s t 0
    else issueReq s t (mkOp s t .stream (some c) (dstG d) 4 [11, getG t a, 0, 0])) s

/-- The VA is the start of a slot in a batch page of the die (R326, R331, R337). -/
def slotStart (s : State) (t : Strand) (va : Nat) : Bool :=
  let base := dpCtl s (dieOf t.cl) t.task.pid 0x412 / 2 ^ 20 % 2 ^ 28 * 2 ^ 20
  decide (base ≤ va ∧ va < base + 32 * 32768) && va % 4096 == 0

/-- Members of a slot, from its first word (R331). -/
def slotCount (w : Word) : Nat := min 64 (w.toNat / 2 ^ 24 % 128)

/-- SSTEP.B and SACTP: the slot, and the table of `tab`, are read at issue (R337). -/
def slotForm (i : Instr) (g : Guard) (form : Nat) (d a c : R6) (tab : Option R6) (s : State) : Out :=
  issue i g advance (fun t s =>
    let va := va48 (getG t a)
    if ctrFull t c then raise i .counter s t 0
    else if !slotStart s t va then raise i .align s t (BitVec.ofNat 64 va)
    else match laneRead s t va 64 with
      | .error e => raise i e.1 s t (BitVec.ofNat 64 e.2)
      | .ok h =>
        let n := slotCount (h.words.getD 0 0)
        match laneRead s t va (64 + 32 * n) with
        | .error e => raise i e.1 s t (BitVec.ofNat 64 e.2)
        | .ok r =>
          match tab with
          | none =>
            issueReq r.st t { mkOp r.st t .stream (some c) (dstG d) 4 [BitVec.ofNat 64 form, 0, 0, 1] with bytes := r.bytes }
          | some b =>
            match laneRead r.st t (va48 (getG t b)) (8 * n) with
            | .error e => raise i e.1 s t (BitVec.ofNat 64 e.2)
            | .ok q =>
              issueReq q.st t { mkOp q.st t .stream (some c) (dstG d) 4 [BitVec.ofNat 64 form, 0, 0, 1] with
                bytes := r.bytes, acc := q.words }) s

/-- SACTP (R339). -/
def execSactp (g : Guard) (d a b c : R6) (s : State) : Out := slotForm (.sactp g d a b c) g 4 d a c (some b) s

/-- SSTEP.B (R340). -/
def execSstepB (g : Guard) (d a c : R6) (s : State) : Out := slotForm (.sstepB g d a c) g 6 d a c none s

/-! ### Sequence points (R337-R346) -/

/-- A failure code of R337. -/
def sErr (k : Nat) : Nat := 2 ^ 63 + k

/-- The stream a SID names on die d, when it is live and below NSTR. -/
def liveSn (s : State) (d p sid : Nat) : Option (List Word) :=
  if sidHere s d p sid then getStr s d p (sid % 2 ^ 16) else none

/-- SFORK at its sequence point: the child's SID or a failure (R338). -/
def doFork (s : State) (d p sid : Nat) (hor : Word) (sib : Bool) : Except Nat Nat × State :=
  match sidHome s p sid with
  | none => (.error 1, s)
  | some (hd, pkg) =>
    if pkg ≠ Config.torus.toNat then (.error 8, s)
    else match liveSn s hd p sid with
      | none => (.error 1, s)
      | some w =>
        let sn := sid % 2 ^ 16
        if hd ≠ d ∨ 16384 ≤ sn then (.error 8, s)
        else if stState w = ST_MOVED ∨ stState w = ST_DONE then (.error 2, s)
        else if 2 ^ 32 ≤ hor.toNat then (.error 6, s)
        else match leastFree (getDp s d p).live (min (nstr s d p) 16384) 0 with
          | none => (.error 4, s)
          | some c =>
            match refAdd s p (stRoot w) 1 1 with
            | none => (.error 9, s)
            | some (_, s) =>
              let g := if sib ∧ stSgrp w ≠ noSid then stSgrp w else sid % 2 ^ 24
              let z : Word := 0
              let f := fun (w : Nat) => BitVec.ofNat 64 w
              let child : List Word :=
                [ f (2 ^ 5 * sF w 0 5 1 + 2 ^ 8 * stPrio w + 2 ^ 16 * stModel w + 2 ^ 32 * stLcur w + 2 ^ 40 * stNl w
                    + 2 ^ 48 * stHome w),
                  f (stStep w + 2 ^ 32 * hor.toNat), f (stRoot w + 2 ^ 26 * stSln w),
                  f (sid % 2 ^ 24 + 2 ^ 24 * g), f (2 ^ 32 * stIdleLim w), f (tickNow s % 2 ^ 48),
                  w.getD 6 0, w.getD 7 0, w.getD 8 0, f (noSid + 2 ^ 24 * noSid), f noSid, f (noSid + 2 ^ 24 * noSid), z, z, z, z ]
              let s := updDp s d p (fun k => { k with live := setAdd k.live c })
              let s := linkTail (putStr s d p c child) d p (g % 2 ^ 16) c
              (.ok (sidOf s p d c), forkState s d p c)

/-- Append an action (R339): the new AQC or a failure. -/
def doAct (s : State) (d p sid : Nat) (x : Word) : Nat × State :=
  match liveSn s d p sid with
  | none => (sErr 1, s)
  | some w =>
    let st := stState w
    if st = ST_MOVED then (sErr 3, s)
    else if st = ST_MIGRATING ∨ st = ST_DONE then (sErr 2, s)
    else if 4 ≤ stAqc w then (sErr 5, s)
    else
      let w := (sSet w 5 48 3 (stAqc w + 1)).set (12 + (stAqh w + stAqc w) % 4) x
      let sn := sid % 2 ^ 16
      (stAqc w, wake (putStr s d p sn (touch s w)) d p sn)

/-- Members of a slot as it was read: (SID, RWD, END). -/
def slotMembers (o : Op) : List (Nat × Nat × Bool) :=
  let w := fun (i : Nat) => leNat ((o.bytes.drop (8 * i)).take 8)
  (List.range (min 64 (w 0 / 2 ^ 24 % 128))).map (fun m =>
    (w (8 + 4 * m) % 2 ^ 24, w (10 + 4 * m) % 2 ^ 32, w (10 + 4 * m) / 2 ^ 32 % 2 == 1))

/-- Set the skip mark of a HELD stream's pending slot, under the default root (R340, R360). -/
def setSkip (s : State) (p : Nat) (w : List Word) : State :=
  let va := sF w 7 0 48
  match walk s p 0 (va / 32768) with
  | some l =>
    let a := recPhys s p l.fri + va % 32768
    wr64 s a (rd64 s a ||| 64#64)
  | none => s

/-- SSTEP.B: the members stepped (R340). -/
def doStepB (s : State) (d : Nat) (o : Op) : Nat × State :=
  (slotMembers o).foldl (fun acc m =>
    let (n, s) := acc
    match liveSn s d o.pid m.1 with
    | none => (n, s)
    | some w =>
      if stState w = ST_RUNNING then (n + 1, stepStream s d o.pid (m.1 % 2 ^ 16) m.2.2 m.2.1)
      else if stState w = ST_HELD then (n, setSkip s o.pid w)
      else (n, s)) (0, s)

/-- LSE of R342: log2 of the sum of 2^RET as m + log2 Σ 2^(RET − m), m the largest. -/
def lseOf (l : List Nat) : Nat :=
  let xs := l.map (decodeFmt .fp32)
  if xs.any xIsNan then nanCode .fp32
  else if xs.any (fun x => xIsInf x && !xNeg x) then infCode .fp32
  else
    let fin := xs.filter (fun x => !xIsInf x)
    match fin with
    | [] => infCode .fp32 + 2 ^ 31
    | x :: rest =>
      let m := rest.foldl (fun a b => if xCmp a b == -1 then b else a) x
      let ts := fin.map (fun y =>
        let e := (groupSum [y, xFlip m]).1
        if xCmp e (xInt (-600)) == -1 then xScale (-600) (xInt 1) else (xExp2 e).1)
      (rnF32 (groupSum [m, (xLog2 (groupSum ts).1).1]).1).1

/-- The reduction of SJOIN over the RET values (R342). -/
def joinValue (op : Nat) (l : List Nat) : Nat :=
  match op with
  | 0 => if l.isEmpty then infCode .fp32 + 2 ^ 31 else (fpExtreme true .fp32 l).1
  | 1 => if l.isEmpty then 0 else (fpSum .fp32 .rne l).1
  | 2 => if l.isEmpty then nanCode .fp32
    else (rnF32 (xDiv (groupSum (l.map (decodeFmt .fp32))).1 (xInt l.length)).1).1
  | _ => lseOf l

/-- a ranks before b: RET descending, NaN last, ties by lower SID (R342). -/
def ranksBefore (a b : Nat × Nat) : Bool :=
  let x := decodeFmt .fp32 a.2
  let y := decodeFmt .fp32 b.2
  if xIsNan x && xIsNan y then decide (a.1 < b.1)
  else if xIsNan x then false
  else if xIsNan y then true
  else
    let c := xCmp x y
    c == 1 || (c == 0 && decide (a.1 < b.1))

def rankInsert (x : Nat × Nat) : List (Nat × Nat) → List (Nat × Nat)
  | [] => [x]
  | y :: l => if ranksBefore x y then x :: y :: l else y :: rankInsert x l

/-- SJOIN at its sequence point (R342); on a MIGRATING head it gives STATE (R343). A pruned member is freed, one with pending
entries too (log 114). -/
def doJoin (s : State) (d p sid : Nat) (jw : Word) (wr : Bool) : Nat × State :=
  match liveSn s d p sid with
  | none => (sErr 1, s)
  | some w =>
    if stState w = ST_MIGRATING then (sErr 2, s)
    else if jw.toNat / 4 % 64 ≠ 0 ∨ jw.toNat / 2 ^ 32 ≠ 0 then (sErr 6, s)
    else
      let head := sid % 2 ^ 16
      let ds := (familyOf s d p head).filterMap (fun sn => (getStr s d p sn).bind (fun w =>
        if stState w = ST_DONE then some (sn, stRet w) else none))
      let v := joinValue (jw.toNat % 4) (ds.map (·.2))
      let ranked := ds.foldl (fun l x => rankInsert x l) []
      let s := (ranked.drop (jw.toNat / 2 ^ 8 % 2 ^ 24)).foldl (fun s x =>
        match getStr s d p x.1 with
        | some w => if 0 < stNkids w then s else freeStream s d p x.1
        | none => s) s
      let s := if wr then updStr s d p head (fun w => sSet w 4 0 32 v) else s
      (2 ^ 32 * ds.length + v, s)

/-- SPRUNE (R346): MIGRATING gives STATE (R343), a HELD stream with pending entries is DONE but not yet freed (R360). -/
def doPrune (s : State) (d p sid : Nat) : Nat × State :=
  match liveSn s d p sid with
  | none => (sErr 1, s)
  | some w =>
    let st := stState w
    let sn := sid % 2 ^ 16
    if st = ST_MIGRATING then (sErr 2, s)
    else if st = ST_DONE ∨ st = ST_MOVED then
      if 0 < stNkids w ∨ sF w 0 7 1 = 1 then (sErr 2, s) else (15, freeStream s d p sn)
    else (st, makeDone s d p sn)

/-- SHOR (R341). -/
def doHor (s : State) (d p sid : Nat) (x : Word) (adj : Bool) : Nat × State :=
  match liveSn s d p sid with
  | none => (sErr 1, s)
  | some w =>
    let st := stState w
    let sn := sid % 2 ^ 16
    if st = ST_MOVED then (sErr 3, s)
    else if st = ST_MIGRATING ∨ st = ST_DONE then (sErr 2, s)
    else if !adj && x.toNat / 2 ^ 32 != 0 then (sErr 6, s)
    else
      let h : Nat := if adj then
          (max 0 (min (2 ^ 32 - 1 : Int) ((stHor w : Int) + sextN 32 (x.toNat % 2 ^ 32)))).toNat
        else x.toNat
      let s := putStr s d p sn (sSet w 1 32 32 h)
      let s := if h = 0 ∧ (st = ST_IDLE ∨ st = ST_READY) then makeDone s d p sn else wake s d p sn
      (h, s)

/-- SPIN and SPIN.U (R344). -/
def doPin' (s : State) (d p sid : Nat) (u : Bool) : Nat × State :=
  match liveSn s d p sid with
  | none => (sErr 1, s)
  | some w =>
    let sn := sid % 2 ^ 16
    if stState w = ST_MIGRATING ∨ stState w = ST_DONE then (sErr 2, s)
    else
      let s' := updStr s d p sn (touch s)
      if u then (0, unpinStream s' d p sn)
      else
        let r := pinStream s' d p sn
        if r.1 then (stSln w, r.2) else (sErr 7, s)

/-- The reserved bits of a descriptor word, which read 0 (R7, R327). -/
def strReserved (sel : Nat) : Word :=
  match sel with
  | 0 => 0xFFE0000000008000#64
  | 2 => 0xFFC0000000000000#64
  | 3 => 0xFFFF000000000000#64
  | 5 => 0xFFE0000000000000#64
  | 6 | 7 | 8 | 9 | 10 | 11 => 0xFFFF000000000000#64
  | _ => 0

/-- A descriptor word as an instruction reads it. -/
def strWord (w : List Word) (sel : Nat) : Word := w.getD sel 0 &&& ~~~ strReserved sel

/-- The RW bits of a descriptor word (R327). -/
def ssetMask (sel : Nat) : Word :=
  match sel with
  | 0 => 0x0000FF00FFFF7F20#64
  | 2 => 0x000000003C000000#64
  | 4 => BitVec.allOnes 64
  | 6 => 0x0000FFFFFFFFFFFF#64
  | 7 => 0x0000FFFFFFFFFFFF#64
  | 8 => 0x0000FFFFFFFFFFFF#64
  | _ => 0

/-- A value that SSET would write is out of range (R327, R345). A DRING or PSLOT that is not aligned as R358 and R360 ask is
no such value: a COMMIT finds the ring header invalid, and uses the slot where PSLOT says (log 34, log 114). -/
def ssetBad (w : List Word) (sel : Nat) (x : Word) : Bool :=
  match sel with
  | 0 => decide (x.toNat / 2 ^ 40 % 256 ≤ stLcur w)
  | 2 => decide (8 < x.toNat / 2 ^ 26 % 16)
  | _ => false

/-- SSET (R345): its result is the old word. Of several codes of R337 that apply, MOVED comes first, then INVALID of a word without
a writable field, then STATE, then INVALID of the value (log 99). -/
def doSset (s : State) (d p sid sel : Nat) (x : Word) : Nat × State :=
  match liveSn s d p sid with
  | none => (sErr 1, s)
  | some w =>
    let st := stState w
    let sn := sid % 2 ^ 16
    if st = ST_MOVED then (sErr 3, s)
    else if ssetMask sel = 0 then (sErr 6, s)
    else if st = ST_MIGRATING ∨ ((sel = 0 ∨ sel = 2) ∧ st ≠ ST_IDLE ∧ st ≠ ST_READY) then (sErr 2, s)
    else if ssetBad w sel x then (sErr 6, s)
    else
      let old := w.getD sel 0
      let w' := touch s (w.set sel ((old &&& ~~~ ssetMask sel) ||| (x &&& ssetMask sel)))
      let s := putStr s d p sn w'
      let s := if st = ST_READY ∧ stModel w' ≠ stModel w then makeReady s d p sn else wake s d p sn
      ((strWord w sel).toNat, s)

/-- A descriptor in the area that SSET.C makes live (R345). -/
def descOk (s : State) (p : Nat) (w : List Word) : Bool :=
  (stState w == ST_IDLE || stState w == ST_READY) && stNl w != 0
    && friOk s p (stRoot w) && decide (1 ≤ recRef s p (stRoot w))
    && sF w 3 0 24 == noSid && stSgrp w == noSid && sF w 9 0 24 == noSid && sF w 9 24 24 == noSid && stKid0 w == noSid
    && stNext w == noSid && stPrev w == noSid && stNkids w == 0 && sF w 2 30 24 == 0 && stAqc w == 0
    && sF w 0 15 1 == 0 && sF w 0 53 11 == 0 && sF w 2 54 10 == 0 && sF w 3 48 16 == 0 && sF w 5 53 11 == 0
    && [6, 7, 8, 9, 10, 11].all (fun i => sF w i 48 16 == 0)

/-- SSET.C (R345). A stream that it makes live in IDLE keeps IDLE_AT and XP as the area holds them (log 112). -/
def doSsetC (s : State) (d p sid : Nat) : Nat × State :=
  let sn := sid % 2 ^ 16
  if !sidHere s d p sid then (sErr 1, s)
  else if (getDp s d p).live.contains sn then (sErr 2, s)
  else match descAddr s d p sn with
    | none => (sErr 6, s)
    | some a =>
      let w := areaWords s a
      if !descOk s p w then (sErr 6, s)
      else
        let s := putStr (updDp s d p (fun k => { k with live := setAdd k.live sn })) d p sn w
        (0, if stState w = ST_READY then makeReady s d p sn else wake s d p sn)

/-- SGET (R345). -/
def doSget (s : State) (d p sid sel : Nat) : Nat :=
  match liveSn s d p sid with
  | some w => (strWord w sel).toNat
  | none => if sel = 0 then 15 else 0

/-- SSTEP of one stream (R340). -/
def doStep1 (s : State) (d p sid : Nat) (x : Word) : Nat × State :=
  match liveSn s d p sid with
  | none => (sErr 1, s)
  | some w =>
    let st := stState w
    let sn := sid % 2 ^ 16
    if st = ST_MOVED then (sErr 3, s)
    else if st ≠ ST_RUNNING ∧ st ≠ ST_READY ∧ st ≠ ST_IDLE then (sErr 2, s)
    else if x.toNat / 2 ^ 32 ≠ 0 then (sErr 6, s)
    else
      let s := stepStream (unwait s d p sn) d p sn false x.toNat
      ((match getStr s d p sn with | some w => stState w | none => 15), s)

/-- SACTP (R339): the number appended. -/
def doActp (s : State) (d : Nat) (o : Op) : Nat × State :=
  ((slotMembers o).zip o.acc).foldl (fun acc m =>
    let (n, s) := acc
    let (x, s) := doAct s d o.pid m.1.1 m.2
    if x < 2 ^ 63 then (n + 1, s) else (n, s)) (0, s)

/-- SSNAP at its sequence point (R343): a failure, or the stream migrates with its sibling record. Of several codes of R337 that
apply, the stream's state comes before the operand word (log 99). -/
def doSnap (s : State) (d : Nat) (o : Op) (sid : Nat) (x : Word) : Option Nat × State :=
  match liveSn s d o.pid sid with
  | none => (some (sErr 1), s)
  | some w =>
    let st := stState w
    let sn := sid % 2 ^ 16
    if st = ST_MOVED then (some (sErr 3), s)
    else if st ≠ ST_IDLE ∧ st ≠ ST_READY then (some (sErr 2), s)
    else
      match dieEntry s o.pid (x.toNat % 256) with
      | none => (some (sErr 6), s)
      | some _ =>
        if x.toNat / 2 ^ 13 ≠ 0 then (some (sErr 6), s)
        else match refAdd s o.pid (stRoot w) 1 1 with
          | none => (some (sErr 9), s)
          | some (_, s) =>
            let s := updStr (unwait s d o.pid sn) d o.pid sn (fun w => sSet w 0 0 4 ST_MIGRATING)
            (none, updOp s o.id (fun q => { q with
              i := 2, j := (familyOf s d o.pid sn).length, acc := (getStr s d o.pid sn).getD [] }))

end Sys2Proof.Machine
end

