-- ==== Sys2Proof/Machine/Generation.lean ====
section
/-! DEFINITION. Sampling, speculation and commit, major 0x1A (spec/13 R347-R360), with the passes of the base-die units,
the die queues and the delivery ring. -/

namespace Sys2Proof.Machine

/-! ### LFILT (R348-R351) -/

/-- THR is out of range for its mode (R348). -/
def thrBad (mode : Bool) (thr : Nat) : Bool :=
  if mode then
    let x := decodeFmt .fp32 thr
    xIsNan x || (!xIsZero x && !xNeg x)
  else thr != 0

/-- LFILT (R348). -/
def execLfilt (g : Guard) (sc : BitVec 3) (a c : R6) (s : State) : Out :=
  issue (.lfilt g sc a c) g advance (fun t s =>
    let i := Instr.lfilt g sc a c
    let va := va48 (getG t a)
    if ctrFull t c then raise i .counter s t 0
    else if va % 64 ≠ 0 then raise i .align s t (BitVec.ofNat 64 va)
    else match laneRead s t va 64 with
      | .error e => raise i e.1 s t (BitVec.ofNat 64 e.2)
      | .ok r =>
        let w := fun k => (r.words.getD k 0).toNat
        let v := w 1 % 2 ^ 24
        let k := w 1 / 2 ^ 32 % 2 ^ 9
        let mode := w 1 / 2 ^ 41 % 2 == 1
        let pv := w 3 / 2 ^ 48 % 2 == 1
        if w 0 / 2 ^ 48 != 0 || w 1 / 2 ^ 24 % 2 ^ 8 != 0 || w 1 / 2 ^ 42 != 0 || v == 0 || k == 0 || decide (256 < k)
            || thrBad mode (w 2 % 2 ^ 32) || w 3 / 2 ^ 49 != 0 || w 4 != 0 || w 5 != 0 || w 6 != 0 || w 7 != 0
            || w 3 % 2 ^ 48 % 128 != 0 || (pv && decide (v ≤ w 2 / 2 ^ 32)) then raise i .reservedField s t 0
        else
          issueOp r.st t { mkOp r.st t .lfilt (some c) none sc.toNat (r.words.take 4) with
            leases := leaseOf s t [(w 3 % 2 ^ 48, 2112)] }) s

/-- What a pass computes (R349). -/
structure FilterRec where
  m : Nat
  l : Nat
  e : Nat
  sp : Nat
  list : List (Nat × Nat)
  flags : FpFlags
deriving DecidableEq, Repr

/-- Insert an entry behind those that are not smaller, keeping at most `n`. -/
def shortInsert (n : Nat) (x : Nat × Nat) : List (Nat × Nat) → List (Nat × Nat)
  | [] => if n = 0 then [] else [x]
  | y :: l =>
    if n = 0 then []
    else if xCmp (decodeFmt .fp32 x.2) (decodeFmt .fp32 y.2) = 1 then x :: (y :: l).take (n - 1)
    else y :: shortInsert (n - 1) x l

/-- Members of C by descending logit, then ascending token, at most `n`. -/
def shortlist (n : Nat) (l : List (Nat × Nat)) : List (Nat × Nat) := l.foldl (fun acc x => shortInsert n x acc) []

/-- The record of the logits (R349): `k` the limit, `thr` the offset of MODE 1. -/
def filterPass (ss : List Nat) (k : Nat) (thr : Option Nat) (probe : Option Nat) : FilterRec :=
  let xs := ss.map (decodeFmt .fp32)
  let sp := match probe with
    | some p => ss.getD p 0
    | none => 0
  if xs.any xIsNan then ⟨nanCode .fp32, nanCode .fp32, nanCode .fp32, sp, [], fNV⟩
  else if xs.all (fun x => xIsInf x && xNeg x) then ⟨infCode .fp32 + 2 ^ 31, 0, 0, sp, [], 0⟩
  else
    let m := xs.foldl xMax (.inf true)
    let es := xs.map (fun x => (x, wExp x m))
    let l := rnF32 (groupSum (es.map (fun e => e.2.1))).1
    let terms := es.filterMap (fun e =>
      if xIsZero e.2.1 || xCmp e.1 m == 0 then none else some (xMul e.2.1 (groupSum [e.1, xFlip m]).1).1)
    let en := rnF32 (groupSum terms).1
    let cs := (ss.mapIdx (fun j x => (j, x))).filter (fun e => let x := decodeFmt .fp32 e.2; !(xIsInf x && xNeg x))
    let cs := match thr with
      | none => cs
      | some t =>
        let lim := (groupSum [m, decodeFmt .fp32 t]).1
        cs.filter (fun e => !xIsNan lim && decide (0 ≤ xCmp (decodeFmt .fp32 e.2) lim))
    ⟨(rnF32 m).1, l.1, en.1, sp, shortlist (if thr.isSome then 256 else k) cs,
      es.foldl (fun f e => f ||| e.2.2) (l.2 ||| en.2)⟩

/-- The bytes of a filter record (R350). -/
def filterBytes (r : FilterRec) (ptok : Nat) (pv : Bool) : List Byte :=
  toLe 8 (r.m + 2 ^ 32 * r.l) ++ toLe 8 (r.e + 2 ^ 32 * r.sp) ++ toLe 8 (r.list.length + 2 ^ 32 * ptok)
    ++ toLe 8 (if pv then 1 else 0) ++ List.replicate 32 0

/-- The first logit page's translation and the others': TRANSLATION at the page that has none. -/
def logitPages (s : State) (o : Op) : List Nat → Except (Cause × Nat) (List (Nat × TcEnt)) × State
  | [] => (.ok [], s)
  | va :: l =>
    match engAddr s o (va % 2 ^ 48) false with
    | (.error c, s) => (.error (c, va % 2 ^ 48), s)
    | (.ok (_, x), s) =>
      match logitPages s o l with
      | (.error e, s) => (.error e, s)
      | (.ok r, s) => (.ok ((va, x) :: r), s)

/-- The words of a filter record, by offset, in the order of its writes: the entries, then the header (R350). -/
def filterWords (r : FilterRec) (ptok : Nat) (pv : Bool) : List (Nat × List Byte) :=
  r.list.mapIdx (fun k e => (64 + 8 * k, toLe 4 e.1 ++ toLe 4 e.2))
    ++ (List.range 8).map (fun k => (8 * k, ((filterBytes r ptok pv).drop (8 * k)).take 8))

/-- The pass itself (R349-R351): the checks in their order, then the record, whose words are still to be written. -/
def lfiltPass (s : State) (o : Op) : UnitRes :=
  let w := fun k => (o.args.getD k 0).toNat
  let lva := w 0 % 2 ^ 48
  let v := w 1 % 2 ^ 24
  let dest := w 3 % 2 ^ 48
  let pv := w 3 / 2 ^ 48 % 2 == 1
  let stop := fun (c : Cause) (va : Nat) (s : State) => UnitRes.stop c (BitVec.ofNat 64 va) 0 s
  match engAddr s o lva false with
  | (.error c, s) => stop c lva s
  | (.ok (_, x0), s) =>
    let f0 := recFmt s o.pid x0.fri
    let sz := if f0 = 1 then 4 else if f0 = 2 ∨ f0 = 3 then 2 else 1
    let p0 := lva / 32768
    let vas := (List.range ((lva + v * sz - 1) / 32768 - p0 + 1)).map (fun k => if k = 0 then lva else (p0 + k) * 32768)
    let u := physStack (recPhys s o.pid x0.fri)
    let s := updOp s o.id (fun o => { o with unit := u.getD 0 })
    match logitPages s o vas with
    | (.error e, s) => stop e.1 e.2 s
    | (.ok ps, s) =>
      let away := ps.find? (fun e => physStack (recPhys s o.pid e.2.fri) != u || u.isNone)
      let form := ps.find? (fun e =>
        let f := recFmt s o.pid e.2.fri
        !(f == 1 || f == 2 || f == 3) || recBlk s o.pid e.2.fri != 0 || f != f0)
      let (got, s) := engFetch s o lva (v * sz)
      let rec' : Option FilterRec :=
        match away, form, got with
        | none, none, .ok bs =>
          let ss := (List.range v).map (fun j => (decF32 f0 0 (leAt bs (sz * j) sz) 0 0).1)
          some (filterPass ss (w 1 / 2 ^ 32 % 2 ^ 9) (if w 1 / 2 ^ 41 % 2 = 1 then some (w 2 % 2 ^ 32) else none)
            (if pv then some (w 2 / 2 ^ 32) else none))
        | _, _, _ => none
      let len := 64 + 8 * (rec'.map (fun r => r.list.length)).getD 0
      match engPieces s o false 3 dest len with
      | (.error e, s) => stop e.1 e.2 s
      | (.ok _, s) =>
        match away with
        | some e => stop .residency e.1 s
        | none =>
          match engPieces s o true 3 dest len with
          | (.error e, s) => stop e.1 e.2 s
          | (.ok ws, s) =>
            if lva % sz ≠ 0 then stop .align lva s
            else match form, got, rec' with
              | some e, _, _ => stop .format e.1 s
              | none, .error e, _ => stop e.1 e.2 s
              | none, .ok _, none => .hold s
              | none, .ok _, some r =>
                .more (updOp s o.id (fun o => { o with
                  flags := r.flags, acc := [1], out := pieceWords ws false (filterWords r (w 2 / 2 ^ 32) pv) }))

/-- One step of an LFILT: the pass, or the next word of its record, where DEST was mapped when the pass checked it
(R349-R351, R367). -/
def unitLfilt (s : State) (o : Op) : UnitRes :=
  match o.out with
  | w :: _ => outWord s o w
  | [] => if !o.acc.isEmpty then .last 0 s else if readsOver s then .hold s else lfiltPass s o

/-- LFILT_PASS. -/
def execLfiltPass (s : State) : Out :=
  match s.ops.find? (fun o => o.id == s.ev.id) with
  | some o => if o.kind == .lfilt && bduReady s o then .next (applyUnit o 2 (unitLfilt s o)) else .next s
  | none => .next s

/-! ### SAMPLE (R352) -/

/-- W with a NaN for a NaN. -/
def wExpN (x m : Xr) : Xr := if xIsNan x || xIsNan m then .nan else (wExp x m).1

/-- The least index whose running sum passes u × Z / 2^24. -/
def drawFrom (lim : Xr) : List Xr → Xr → Nat → Nat
  | [], _, i => i - 1
  | w :: l, acc, i =>
    let a := (groupSum [acc, w]).1
    if xCmp (xScale 24 a) lim = 1 then i else drawFrom lim l a (i + 1)

/-- SAMPLE's result from the record's words. -/
def sampleVal (ws : List Word) (seed coord : Word) : Word :=
  let w := fun k => (ws.getD k 0).toNat
  let ns := w 2 % 2 ^ 9
  if ns = 0 ∨ xIsNan (decodeFmt .fp32 (w 0 % 2 ^ 32)) then errW 0
  else
    let es := (List.range ns).map (fun i => w (8 + i))
    let xs := es.map (fun e => decodeFmt .fp32 (e / 2 ^ 32))
    let wt := xs.map (fun x => wExpN x (xs.headD xZero))
    let z := (groupSum wt).1
    if wt.any xIsNan || xIsInf z || xIsNan z then errW 0
    else
      let u := (cbg seed 4 (coord.setWidth 32) ((coord >>> 32).setWidth 32)).toNat / 256
      let j := drawFrom (xMul (xInt u) z).1 wt xZero 0
      BitVec.ofNat 64 (2 ^ 32 * j + es.getD j 0 % 2 ^ 32)

/-- Words that a lane read through its port, by VA (R160). -/
def laneWord (s : State) (t : Strand) (va : Nat) : Nat :=
  leNat (rdBytes (laneView t s) (accessPhys s t (BitVec.ofNat 48 va)) 8)

/-- The bytes that a SAMPLE reads: the header, and the entries that it counts (R350, R352). -/
def sampleLen (s : State) (t : Strand) (va : Nat) : Nat := 64 + 8 * (laneWord s t (va + 16) % 2 ^ 9)

/-- SAMPLE (R352). -/
def execSample (g : Guard) (d a b c : R6) (s : State) : Out :=
  issue (.sample g d a b c) g advance (fun t s =>
    let i := Instr.sample g d a b c
    let va := va48 (getG t a)
    if !((spanVas va 64).all (ownPage s t)) then raise i .residency s t (BitVec.ofNat 64 va)
    else match (spanVas va (sampleLen s t va)).find? (fun v => !ownPage s t v) with
      | some v => raise i .residency s t (BitVec.ofNat 64 v)
      | none =>
        if va % 64 ≠ 0 then raise i .align s t (BitVec.ofNat 64 va)
        else match laneRead s t va (sampleLen s t va) with
          | .error e => raise i e.1 s t (BitVec.ofNat 64 e.2)
          | .ok r => putStrand r.st (advance (setG s.cycle 12 d (sampleVal r.words (getG t b) (getG t c)) t))) s

/-! ### ACCEPT (R354) -/

/-- log2 of m × 2^e in fixed point. -/
def fxLog2 (m : Nat) (e : Int) : Int :=
  let k := Nat.log2 m
  let x := m * 2 ^ (fxBits - k)
  (e + k) * (fxOne : Int) + ((2 * fxAtanhQ (x - fxOne) (x + fxOne)) * fxOne / fxLn2 : Nat)

/-- RN_F32(log2 L − E / L) for L positive and finite, E not NaN. -/
def entropyOf (l e : Xr) : Xr :=
  match l, e with
  | .fin _ m k _, .fin ne me ke _ =>
    if m = 2 ^ Nat.log2 m then
      -- log2 L and E / L are exact
      rnF32x (groupSum [xInt (k + Nat.log2 m), .fin (!ne) me (ke - k - Nat.log2 m) false]).1
    else
      let q : Int := (me * 2 ^ (fxBits + 400) / m : Nat)
      let sh := ke - k - 400
      let q := if 0 ≤ sh then q * 2 ^ sh.toNat else q / 2 ^ (-sh).toNat
      let h := fxLog2 m k + (if ne then q else -q)
      rnF32x (xFix (decide (h < 0)) h.natAbs fxBits 0)
  | _, e => xFlip e

/-- One draft token passes (R354): header words of its record. -/
def acceptOne (eps delta : Nat) (w0 w1 w3 : Nat) : Bool :=
  let x := decodeFmt .fp32
  let m := x (w0 % 2 ^ 32)
  let l := x (w0 / 2 ^ 32)
  let e := x (w1 % 2 ^ 32)
  let sp := x (w1 / 2 ^ 32)
  if w3 % 2 = 0 || xIsNan l || xIsInf l || xIsZero l || xNeg l || xIsNan m || xIsNan e || xIsNan sp then false
  else
    let h := entropyOf l e
    let t := rnF32x (xMul (x delta) (rnF32x (xExp2 (xFlip h)).1)).1
    let tau := if xCmp (x eps) t = -1 then x eps else t
    let p := rnF32x (xDiv (wExp sp m).1 l).1
    xCmp p tau = 1

/-- VAs of the record headers that an ACCEPT reads: `b` is its control word (R354). -/
def acceptHeads (va : Nat) (b : Word) : List Nat :=
  (List.range (b.toNat % 32)).map (fun k => (va + 64 * (b.toNat / 2 ^ 8 % 2 ^ 16) * k) % 2 ^ 48)

/-- EPS and DELTA as they stood when the ACCEPT issued (R354). -/
def acceptRegs (s : State) (t : Strand) : List Word :=
  if t.atIssue.isEmpty then [cpCtl s t.cl t.task.pid 0x1B1, cpCtl s t.cl t.task.pid 0x1B2] else t.atIssue

/-- ACCEPT (R354). -/
def execAccept (g : Guard) (d a b : R6) (s : State) : Out :=
  issue (.accept g d a b) g advance (fun t s =>
    let i := Instr.accept g d a b
    let rw' := (getG t b).toNat
    let n := rw' % 32
    let stride := rw' / 2 ^ 8 % 2 ^ 16
    let va := va48 (getG t a)
    if n = 0 ∨ 16 < n ∨ stride = 0 ∨ rw' / 32 % 8 ≠ 0 ∨ rw' / 2 ^ 24 ≠ 0 then
      putStrand s (advance (setG s.cycle 12 d (errW 4) t))
    else if va % 64 ≠ 0 then raise i .align s t (BitVec.ofNat 64 va)
    else
      let heads := acceptHeads va (getG t b)
      let vas := heads.flatMap (fun h => wordVas h 64)
      match vas.find? (fun v => !ownPage s t v) with
      | some v => raise i .residency s t (BitVec.ofNat 64 v)
      | none =>
        match vas.find? (fun v => eccBad s (accessPhys s t (BitVec.ofNat 48 v)) 8) with
        | some v => raise i .memoryEcc s t (BitVec.ofNat 64 v)
        | none =>
          let s' := vas.foldl (fun q v => correctSoft q (accessPhys s t (BitVec.ofNat 48 v)) 8) s
          let eps := ((acceptRegs s t).getD 0 0).toNat % 2 ^ 32
          let delta := ((acceptRegs s t).getD 1 0).toNat % 2 ^ 32
          let ok := heads.map (fun h =>
            let w := fun k => laneWord s t (h + 8 * k)
            acceptOne eps delta (w 0) (w 1) (w 3))
          let k := (ok.takeWhile id).length
          putStrand s' (advance (setG s.cycle 12 d (BitVec.ofNat 64 (k + (if k = n then 256 else 0))) t))) s

/-! ### Die queues (R355-R357) -/

/-- The fields of a DQSEND or DQRECV word: the other die, and the sequence number; a reserved bit or the own die. -/
def dqDie (w : Word) : Nat := w.toNat % 8
def dqSeq (w : Word) : Nat := w.toNat / 2 ^ 16 % 2 ^ 16
def dqBad (w : Word) (own : Nat) : Bool := w.toNat / 8 % 2 ^ 13 != 0 || w.toNat / 2 ^ 32 != 0 || dqDie w == own

/-- DQSEND (R356). -/
def execDqsend (g : Guard) (a b c : R6) (s : State) : Out :=
  issue (.dqsend g a b c) g advance (fun t s =>
    let i := Instr.dqsend g a b c
    let w := getG t b
    let va := va48 (getG t a)
    if ctrFull t c then raise i .counter s t 0
    else if dqBad w (dieOf t.cl) then raise i .reservedField s t 0
    else if !(partDies s t.task.pid).contains (dqDie w) then raise i .tenant s t 0
    else if va % 128 ≠ 0 then raise i .align s t (BitVec.ofNat 64 va)
    else match laneRead s t va 256 with
      | .error e => raise i e.1 s t (BitVec.ofNat 64 e.2)
      | .ok r => issueOp r.st t { mkOp r.st t .dqsend (some c) none 3 [w] with bytes := r.bytes, unit := dqDie w }) s

/-- Two sends go to the same queue. -/
def sameQueue (x y : Op) : Bool :=
  y.kind == .dqsend && x.pid == y.pid && dieOf x.cl == dieOf y.cl && dqDie (x.args.getD 0 0) == dqDie (y.args.getD 0 0)

/-- x is sequenced before y: by tick, then cluster, lane and issue order (R356). -/
def dqBefore (x y : Op) : Bool :=
  decide (x.tick < y.tick) || (x.tick == y.tick &&
    (decide (x.cl < y.cl) || (x.cl == y.cl && (decide (x.lane < y.lane) || (x.lane == y.lane && decide (x.id < y.id))))))

/-- The send may be sequenced now: its tick is past and nothing to its queue stands before it. -/
def dqReady (s : State) (o : Op) : Bool :=
  o.kind == .dqsend && o.i == 0 && !o.stopped && (getClu s o.cl).pid == some o.pid && depsMet s o false true
    && decide (o.tick < tickNow s) && !(s.ops.any (fun q => sameQueue o q && q.i == 0 && (q.stopped || dqBefore q o)))

/-- DQSEND_SEQUENCED: the sending die checks the sequence number (R356). -/
def execDqsendSequenced (s : State) : Out :=
  match s.ops.find? (fun o => o.id == s.ev.id) with
  | some o =>
    if !dqReady s o then .next s
    else
      let d := dieOf o.cl
      let w := o.args.getD 0 0
      let tx := (tabGet (getDp s d o.pid).dqTx (dqDie w)).getD 0
      if dqSeq w ≠ tx then .next (stopOp s o .sequence 5 0 0)
      else
        let s := updDp s d o.pid (fun k => { k with dqTx := tabSet k.dqTx (dqDie w) ((tx + 1) % 2 ^ 16) })
        let (n, s) := fresh s
        .next (updOp s o.id (fun o => { o with i := 1, j := n }))
  | none => .next s

/-- DQ_ENTRY_ARRIVE: the oldest entry on its way enters its queue when there is room, and the continuations that wait for one fire
(R225, R355, R356). -/
def execDqEntryArrive (s : State) : Out :=
  match s.ops.find? (fun o => o.id == s.ev.id) with
  | some o =>
    let d := dieOf o.cl
    let w := o.args.getD 0 0
    let q := (tabGet (getDp s (dqDie w) o.pid).dqIn d).getD []
    if o.kind == .dqsend && o.i == 1 && o.fin.isNone && decide (q.length < 64)
        && !(s.ops.any (fun p => sameQueue o p && p.i == 1 && p.fin.isNone && decide (p.j < o.j))) then
      let s := updDp s (dqDie w) o.pid (fun k => { k with dqIn := tabSet k.dqIn d (q ++ [(dqSeq w, o.bytes)]) })
      let s := fireConts s (fun cl k event evarg => event == 6 && dieOf cl == dqDie w && k.pid == o.pid && evarg.toNat % 8 == d)
      .next (doneOp (relDrain s d) o.id 0)
    else .next s
  | none => .next s

/-- DQRECV (R357). -/
def execDqrecv (g : Guard) (d a b : R6) (s : State) : Out :=
  issue (.dqrecv g d a b) g advance (fun t s =>
    let i := Instr.dqrecv g d a b
    let w := getG t b
    let va := va48 (getG t a)
    let p := t.task.pid
    let own := dieOf t.cl
    match destLeased s t va 256 with
    | some v => raise i .lease s t (BitVec.ofNat 64 v)
    | none =>
    if dqBad w own then raise i .reservedField s t 0
    else if !(partDies s p).contains (dqDie w) then raise i .tenant s t 0
    else match destCause s t va 256 with
      | some c => raise i c.1 s t (BitVec.ofNat 64 c.2)
      | none =>
        match (tabGet (getDp s own p).dqIn (dqDie w)).getD [] with
        | [] => implicitSplit s t 6 (BitVec.ofNat 64 (w.toNat % 2 ^ 32)) 0
        | (q, bs) :: rest =>
          if q ≠ dqSeq w then raise i .sequence s t 0
          else
            let s := updDp s own p (fun k => { k with
              dqIn := tabSet k.dqIn (dqDie w) rest
              dqRx := tabSet k.dqRx (dqDie w) (((tabGet k.dqRx (dqDie w)).getD 0 + 1) % 2 ^ 16) })
            receive s t va bs d (BitVec.ofNat 64 q)) s

/-! ### The delivery ring (R358-R360) -/

/-- COMMIT (R359): its list is read at issue; the scheduler of the SID's home die performs it. -/
def execCommit (g : Guard) (d a b c : R6) (s : State) : Out :=
  issue (.commit g d a b c) g advance (fun t s =>
    let i := Instr.commit g d a b c
    let va := va48 (getG t b)
    if ctrFull t c then raise i .counter s t 0
    else if va % 128 ≠ 0 then raise i .align s t (BitVec.ofNat 64 va)
    else match laneRead s t va 72 with
      | .error e => raise i e.1 s t (BitVec.ofNat 64 e.2)
      | .ok r =>
        let w := (r.words.getD 0 0).toNat
        let n := w % 32
        if w / 32 ≠ 0 ∨ n = 0 ∨ 16 < n then raise i .reservedField s t 0
        else
          let toks := (List.range n).map (fun k => BitVec.ofNat 64 (leAt r.bytes (8 + 4 * k) 4))
          issueReq r.st t { mkOp r.st t .commit (some c) (dstG d) 4 [0, getG t a, 0, 0] with acc := toks }) s

/-- Physical address of `va` under the default root, with its leaf. -/
def ringLeaf (s : State) (p va : Nat) : Option (Nat × Leaf) :=
  (walk s p 0 (va / 32768)).map (fun l => (recPhys s p l.fri + va % 32768, l))

/-- The stop of R359 for a word that the scheduler reads or writes. -/
def ringStop (s : State) (p va : Nat) (write : Bool) : Option (Cause × Nat) :=
  match ringLeaf s p va with
  | none => some (.translation, va)
  | some (a, l) =>
    if write && (!pteW l.pte0 || pteCow l.pte0 || pteRepl l.pte0) then some (.protection, va)
    else if eccBad s a 8 then some (.memoryEcc, va)
    else none

/-- The word at `va` under the default root. -/
def ringRd (s : State) (p va : Nat) : Nat :=
  match ringLeaf s p va with
  | some (a, _) => rdN s a 8
  | none => 0

/-- Write it. -/
def ringWr (s : State) (p va x : Nat) : State :=
  match ringLeaf s p va with
  | some (a, _) => wrN s a 8 x
  | none => s

/-- A ring header. -/
structure Ring where
  cap : Nat
  wr : Nat
  free : Nat
  stop : Option Nat
deriving DecidableEq, Repr

/-- The header at DRING, none when it is invalid (R358). -/
def ringAt (s : State) (p va : Nat) : Option Ring :=
  let w := fun k => ringRd s p (va + 8 * k)
  let cap := w 0 % 2 ^ 16
  let wr := w 1 % 2 ^ 32
  let used := (wr + 2 ^ 32 - w 2 % 2 ^ 32) % 2 ^ 32
  if va % 64 ≠ 0 ∨ w 0 / 2 ^ 16 ≠ 0 ∨ w 1 / 2 ^ 32 ≠ 0 ∨ w 2 / 2 ^ 32 ≠ 0 ∨ w 3 / 2 ^ 33 ≠ 0 ∨ w 4 ≠ 0 ∨ w 5 ≠ 0
      ∨ w 6 ≠ 0 ∨ w 7 ≠ 0 ∨ cap = 0 ∨ cap < used then none
  else some ⟨cap, wr, cap - used, if w 3 / 2 ^ 32 % 2 = 1 then some (w 3 % 2 ^ 32) else none⟩

/-- VA of ring entry k. -/
def entryVa (ring : Nat) (r : Ring) (k : Nat) : Nat := (ring + 64 + 8 * (k % 2 ^ 32 % r.cap)) % 2 ^ 48

/-- Write entries at WR and advance it. -/
def ringPut (s : State) (p ring : Nat) (r : Ring) (es : List Nat) : State :=
  let s := (es.mapIdx (fun k e => (k, e))).foldl (fun s e => ringWr s p (entryVa ring r (r.wr + e.1)) e.2) s
  ringWr s p (ring + 8) ((r.wr + es.length) % 2 ^ 32)

/-- COMMIT at its sequence point: a stop, or its result (R359). -/
def doCommit (s : State) (d : Nat) (o : Op) : Except (Cause × Nat) (Nat × State) :=
  let p := o.pid
  let sid := (o.args.getD 1 0).toNat % 2 ^ 24
  let sn := sid % 2 ^ 16
  match liveSn s d p sid with
  | none => .ok (sErr 1, s)
  | some w =>
    if stState w = ST_MOVED then .ok (sErr 3, s)
    else if stState w ≠ ST_RUNNING then .ok (sErr 2, s)
    else
      let ring := sF w 6 0 48
      let slot := sF w 7 0 48
      match (wordVas ring 64).findSome? (fun v => ringStop s p v true) with
      | some e => .error e
      | none =>
        match ringAt s p ring with
        | none => .ok (sErr 6, s)
        | some r =>
          let toks := o.acc.map (·.toNat)
          let at' := match r.stop with
            | some x => toks.findIdx? (· == x)
            | none => none
          let n := match at' with
            | some k => k + 1
            | none => toks.length
          let k := min n r.free
          let held := decide (k < n)
          let es := (toks.take n).mapIdx (fun j x =>
            x + 2 ^ 32 * (if at' = some j then 1 else 0) + 2 ^ 33 * (if j + 1 = n then 1 else 0)
              + 2 ^ 48 * (stStep w % 2 ^ 16))
          let vas := (List.range k).map (fun j => entryVa ring r (r.wr + j)) ++ wordVas slot 136
          match vas.findSome? (fun v => ringStop s p v true) with
          | some e => .error e
          | none =>
            let s := ringPut (relDrain s d) p ring r (es.take k)
            let s := if held then
                let rest := es.drop k
                let s := ringWr s p slot (rest.length + (if at'.isSome then 32 else 0))
                let s := (rest.mapIdx (fun j e => (j, e))).foldl
                  (fun s e => ringWr s p (slot + 8 + 8 * e.1) (e.2 + 2 ^ 34)) s
                updStr s d p sn (fun w => sSet (sSet w 0 7 1 1) 0 0 4 ST_HELD)
              else if at'.isSome then makeDone s d p sn
              else s
            .ok (n + 2 ^ 8 * k + 2 ^ 16 * (if at'.isSome then 1 else 0) + 2 ^ 17 * (if held then 1 else 0), s)

/-- The pending slot of a HELD stream drains as far as the ring has room (R360). A slot or ring that cannot be reached is
left as it is, and so is the slot of a ring whose header is invalid (log 114). -/
def drainSlot (s : State) (d p sn : Nat) : State :=
  match getStr s d p sn with
  | none => s
  | some w =>
    let ring := sF w 6 0 48
    let slot := sF w 7 0 48
    let reach := (wordVas ring 64 ++ wordVas slot 136).all (fun v => (ringStop s p v true).isNone)
    if sF w 0 7 1 = 0 ∨ !reach then s
    else match ringAt s p ring with
      | none => s
      | some r =>
        let w0 := ringRd s p slot
        let np := min 16 (w0 % 32)
        let k := min np r.free
        let es := (List.range np).map (fun j => ringRd s p (slot + 8 + 8 * j))
        let vas := (List.range k).map (fun j => entryVa ring r (r.wr + j))
        if vas.any (fun v => (ringStop s p v true).isSome) then s
        else
          let s := if k = 0 then s else ringPut s p ring r (es.take k)
          let s := ((es.drop k).mapIdx (fun j e => (j, e))).foldl (fun s e => ringWr s p (slot + 8 + 8 * e.1) e.2) s
          let skip := w0 / 64 % 2 = 1
          let s := ringWr s p slot (np - k + w0 / 32 % 2 * 32 + (if np - k = 0 then 0 else w0 / 64 % 2 * 64))
          if np - k ≠ 0 then s
          else
            let s := updStr s d p sn (fun w => sSet w 0 7 1 0)
            if stState w ≠ ST_HELD then s
            else if w0 / 32 % 2 = 1 then makeDone s d p sn
            else if skip then stepStream s d p sn false 0
            else stepState s d p sn

end Sys2Proof.Machine
end

