-- ==== Sys2Proof/Machine/Sched.lean ====
section
/-! DEFINITION. The stream scheduler: its sequence, batches, idle expiry, eviction offers, joins and snapshots
(spec/12 R326-R335, R342, R343; spec/13 R360; spec/01 R31, R32). In an event, `unit` is the die. -/

namespace Sys2Proof.Machine

/-! ### Requests at their sequence points (R329) -/

/-- Write a predicate of a task, wherever it is (R338, R402). -/
def writePred (s : State) (task pid : Nat) (k : Nat) (x : Bool) : State :=
  let put : BitVec 7 → BitVec 7 := fun p => if x then p ||| (1#7 <<< k) else p &&& ~~~ (1#7 <<< k)
  if 7 ≤ k then s
  else updTask s task pid (fun t => { t with p := put t.p })
    (fun s a => let w := rd64 s (a + 32); wr64 s (a + 32) (setField w 0 7 (put (w.setWidth 7)).toNat))
    (fun c => { c with p := put c.p })

/-- SFORK's result in g[d] and p[pt] (R338). -/
def endFork (s : State) (o : Op) (r : Except Nat Nat) : State :=
  let d := (o.args.getD 4 0).toNat
  let pt := (o.args.getD 5 0).toNat
  let x := match r with
    | .ok sid => sid
    | .error k => sErr k
  let s := writeReg s o.task o.pid (.g d) x
  dropOp (writePred s o.task o.pid pt (match r with | .ok _ => true | .error _ => false)) o.id

/-- The pending slot of a HELD stream drains at an SSET of word 6 (R360). -/
def drainHeld (s : State) (d p sn : Nat) : State :=
  match getStr s d p sn with
  | some w => if stState w = ST_HELD then drainSlot s d p sn else s
  | none => s

/-- The cluster number of a request that another package sent. -/
def awayCl : Nat := 256

/-- A request has its result: a request of another package is answered with it (R329). -/
def answer (s : State) (o : Op) (x : Nat) : State :=
  if o.cl = awayCl then { dropOp s o.id with reply := BitVec.ofNat 64 x } else doneOp s o.id x

/-- One request of major 0x18, or a COMMIT, at its sequence point on die `d`. A COMMIT of another package that stops is a
fault of that package's operation: here it ends without an effect. -/
def applyReq (s : State) (d : Nat) (o : Op) : State :=
  let p := o.pid
  let sid := (o.args.getD 1 0).toNat % 2 ^ 24
  let x := o.args.getD 2 0
  let m := (o.args.getD 3 0).toNat
  if o.kind = .commit then
    match doCommit s d o with
    | .error e => if o.cl = awayCl then dropOp s o.id else stopOp s o e.1 6 (BitVec.ofNat 64 e.2) 0
    | .ok (r, s) => answer s o r
  else
    let fin := fun (r : Nat × State) => answer r.2 o r.1
    match (o.args.getD 0 0).toNat with
    | 0 =>
      let (r, s) := doFork s d p sid x (m == 1)
      endFork s o r
    | 1 =>
      let (r, s) := doJoin s d p sid x (m == 1)
      updOp s o.id (fun o => { o with i := 3, acc := [BitVec.ofNat 64 r] })
    | 2 => fin (doPrune s d p sid)
    | 3 => fin (doAct s d p sid x)
    | 4 => fin (doActp s d o)
    | 5 => fin (doHor s d p sid x (m == 1))
    | 6 => fin (if o.bytes.isEmpty then doStep1 s d p sid x else doStepB s d o)
    | 7 =>
      match doSnap s d o sid x with
      | (some r, s) => answer s o r
      | (none, s) => s
    | 8 => fin (doPin' s d p sid (m == 1))
    | 9 => answer s o (doSget s d p sid m)
    | 10 => let r := doSset s d p sid m x
      fin (r.1, if m = 6 ∧ r.1 < 2 ^ 63 then (getDp r.2 d p).live.foldl (fun s sn => drainHeld s d p sn) r.2 else r.2)
    | _ => fin (doSsetC s d p sid)

/-- No fence holds the request off its sequence point: R329 gives a form of major 0x18 the boundary of tick t + 1 whatever is
pending, and a fence holds its completion alone; a COMMIT, which writes the ring, is held itself (R329, R378; log 107). -/
def fenceFree (s : State) (o : Op) : Bool := o.kind != .commit || depsMet s o true true

/-- A request that the scheduler of die `d` takes at this boundary. -/
def reqDue (s : State) (d p : Nat) (o : Op) : Bool :=
  (o.kind == .stream || o.kind == .commit) && o.pid == p && decide (o.i ≤ 1) && !o.stopped && o.fin.isNone
    && decide (o.arr < tickNow s) && reqDie s o == some d && (o.cl == awayCl || (getClu s o.cl).pid == some p)
    && fenceFree s o

/-- x stands before y in the sequence: the die's own requests by cluster, lane and issue order, then arrivals (R329). -/
def reqBefore (d : Nat) (x y : Op) : Bool :=
  let lx := dieOf x.cl == d
  let ly := dieOf y.cl == d
  if lx != ly then lx
  else if lx then
    decide (x.tick < y.tick) || (x.tick == y.tick &&
      (decide (x.cl < y.cl) || (x.cl == y.cl && (decide (x.lane < y.lane) || (x.lane == y.lane && decide (x.id < y.id))))))
  else decide (x.arr < y.arr) || (x.arr == y.arr && decide (x.id < y.id))

/-- Insert in an order. -/
def insertBy {α : Type} (lt : α → α → Bool) (x : α) : List α → List α
  | [] => [x]
  | y :: l => if lt x y then x :: y :: l else y :: insertBy lt x l

def sortBy {α : Type} (lt : α → α → Bool) (l : List α) : List α := l.foldl (fun acc x => insertBy lt x acc) []

/-! ### Batches (R31, R32, R330-R333) -/

/-- The open batch of a stream's key on its home cluster. -/
def openBatch (s : State) (d p : Nat) (w : List Word) : Option Batch :=
  (getDp s d p).batches.find? (fun b => !b.closed && b.model == stModel w && b.lcur == stLcur w && b.cl == homeCl d w)

/-- A READY stream joins the open batch of its key, or opens it (R32, R330). -/
def joinBatch (s : State) (d p sn : Nat) : State :=
  match getStr s d p sn with
  | none => s
  | some w =>
    let go := fun (s : State) => updStr (unwait s d p sn) d p sn (fun w => sSet w 0 0 4 ST_BATCHED)
    match openBatch s d p w with
    | some b =>
      if b.mems.length < 64 then go (updBatch s d p b.num (fun b => { b with mems := b.mems ++ [sn] })) else s
    | none =>
      let (n, s) := fresh s
      let b : Batch :=
        { num := n, model := stModel w, lcur := stLcur w, cl := homeCl d w, mems := [sn], first := tickNow s
          closed := false, slot := none, image := [], written := false, stopped := false, queued := false
          started := false, ran := false, ended := false }
      go (updDp s d p (fun k => { k with batches := k.batches ++ [b] }))

/-- Waiting streams in the order in which a batch takes them: descending PRIO, then list order. -/
def waitOrder (s : State) (d p : Nat) : List Nat :=
  let pr := fun (sn : Nat) => ((getStr s d p sn).map stPrio).getD 0
  sortBy (fun x y => decide (pr y < pr x)) (getDp s d p).waiting

/-- The batch is the last that its member joined. -/
def lastBatch (s : State) (d p num sn : Nat) : Bool :=
  !((getDp s d p).batches.any (fun b => decide (num < b.num) && b.mems.contains sn))

/-- The end of a batch: its slot is free, and members that it has not stepped are READY with their keys unchanged
(R328, R331). -/
def endBatch (s : State) (d p : Nat) (b : Batch) : State :=
  let s := b.mems.foldl (fun s sn =>
    match getStr s d p sn with
    | some w =>
      if (stState w = ST_BATCHED ∨ stState w = ST_RUNNING) ∧ lastBatch s d p b.num sn = true then makeReady s d p sn else s
    | none => s) s
  updDp s d p (fun k => { k with batches := k.batches.filter (fun x => x.num != b.num) })

/-- The members of a batch whose first segment has started, and that are still BATCHED, are RUNNING (R333). -/
def runBatch (s : State) (d p : Nat) (b : Batch) : State :=
  let s := b.mems.foldl (fun s sn => updStr s d p sn (fun w =>
    if stState w = ST_BATCHED ∧ lastBatch s d p b.num sn = true then sSet w 0 0 4 ST_RUNNING else w)) s
  updBatch s d p b.num (fun b => { b with ran := true })

/-- A batch slot of the cluster that no batch holds. -/
def freeSlot (s : State) (d p cl : Nat) : Option Nat :=
  leastFree (((getDp s d p).batches.filter (fun b => b.cl == cl)).filterMap (·.slot)) 8 0

/-- An open batch has reached its closing condition (R31). -/
def closeDue (s : State) (d p : Nat) (b : Batch) : Bool :=
  !b.closed && (b.mems.length == 64 || decide (b.first + batchWait s d p ≤ tickNow s))

/-- VA of a batch slot (R326, R331). -/
def slotVa (s : State) (d p cl slot : Nat) : Nat :=
  dpCtl s d p 0x412 / 2 ^ 20 % 2 ^ 28 * 2 ^ 20 + 32768 * (cl % 32) + 4096 * slot

/-- The highest PRIO of a batch. -/
def batchPrio (s : State) (d p : Nat) (b : Batch) : Nat :=
  b.mems.foldl (fun m sn => max m (((getStr s d p sn).map stPrio).getD 0)) 0

/-- The bytes of a batch slot (R331). -/
def slotBytes (s : State) (d p : Nat) (b : Batch) : List Byte :=
  let win := dpCtl s d p 0x413 / 2 ^ 24 % 2 ^ 24 * 2 ^ 24
  toLe 8 (b.model + 2 ^ 16 * b.lcur + 2 ^ 24 * b.mems.length + 2 ^ 31 * batchPrio s d p b) ++ toLe 8 win
    ++ List.replicate 48 0
    ++ b.mems.flatMap (fun sn =>
        let w := (getStr s d p sn).getD []
        let act := if 0 < stAqc w then (w.getD (12 + stAqh w % 4) 0).toNat else 0
        toLe 8 (sidOf s p d sn + 2 ^ 32 * stStep w) ++ toLe 8 act ++ List.replicate 16 0)

/-- Write a closed batch's slot through the walker of its home cluster, or stop (R326). -/
def writeSlot (s : State) (d p : Nat) (b : Batch) : State :=
  let slot := b.slot.getD 0
  let va := slotVa s d p b.cl slot
  let stop := fun (c : Cause) =>
    let ev : FaultEv :=
      { pid := p, cl := b.cl, cause := causeCode c, kind := 1, word0 := recWord0 (causeCode c) 1 false false p b.cl 0 0 0
        words := [0, 0, 0, BitVec.ofNat 64 va, 0, 6, 0], subject := .batch d b.num }
    whiskOnCause (queueEvent (updBatch s d p b.num (fun b => { b with stopped := true })) ev) b.cl p (causeCode c)
  match walk s p 0 (va / 32768) with
  | none => stop .translation
  | some l =>
    if recKind s p l.fri = 1 ∧ locCluster (recWord s p l.fri 1) = b.cl ∧ 0 < recPins s p l.fri then
      updBatch (wrMem s (recPhys s p l.fri + va % 32768) b.image) d p b.num (fun b => { b with written := true })
    else stop .residency

/-- A closed batch whose slot is written and whose task no queue has taken. -/
def batchWaits (b : Batch) : Bool := b.written && !b.queued && !b.ended

/-- Offer a closed batch's task to queue BQ (R248). -/
def offerBatch (s : State) (d p : Nat) (b : Batch) : State :=
  let q := (cpCtl s b.cl p 0x1A0).toNat % 16
  if !batchWaits b || queueShut s b.cl p q then s
  else
    let pr := min (batchPrio s d p b) (qPmax (qcfg s b.cl p q))
    let (n, s) := fresh s
    let e : Entry :=
      { task := { id := n, pid := p, root := 0, fq := false, bprio := pr, noticeSlot := none, batch := some b.num }
        work := .fresh (Config.batchEntry p b.model) (BitVec.ofNat 64 (slotVa s d p b.cl (b.slot.getD 0)))
          (BitVec.ofNat 64 b.mems.length)
        queue := q, prio := pr, since := 0, nbt := 0, nb := 0, headAt := none, capAt := none }
    appendEntry (updBatch s d p b.num (fun b => { b with queued := true })) b.cl p q e true

/-- BATCH_CLOSE: batch `id` of die `unit` closes when it is due and a slot is free, the next batch of its key opens, and a
closed batch's slot is written (R31, R326, R330, R331). With `n` = 1 its task is offered to its queue, in its place among
what reaches the queue in this cycle (R244, R248). -/
def execBatchClose (s : State) : Out :=
  let d := s.ev.unit
  let p := s.ev.pid
  match (getDp s d p).batches.find? (fun b => b.num == s.ev.id) with
  | none => .next s
  | some b =>
    if !strEn s d p then .next s
    else if s.ev.n = 1 then .next (offerBatch s d p b)
    else
      let s := if closeDue s d p b then
          match freeSlot s d p b.cl with
          | none => s
          | some k =>
            let s := updBatch s d p b.num (fun b => { b with closed := true, slot := some k, image := slotBytes s d p b })
            let s := (waitOrder s d p).foldl (fun s sn =>
              match getStr s d p sn with
              | some w => if stModel w = b.model ∧ stLcur w = b.lcur ∧ homeCl d w = b.cl then joinBatch s d p sn else s
              | none => s) s
            match (getDp s d p).batches.find? (fun x => !x.closed && x.model == b.model && x.lcur == b.lcur && x.cl == b.cl) with
            | some x => { s with agenda := (.batchClose, { unit := d, pid := p, id := x.num }) :: s.agenda }
            | none => s
        else s
      match (getDp s d p).batches.find? (fun x => x.num == b.num) with
      | some b =>
        if b.closed && !b.written && !b.stopped then .next (writeSlot s d p b) else .next s
      | none => .next s

/-! ### Idle expiry and eviction (R334, R335) -/

/-- The stream's timer expires in this tick. -/
def idleDue (s : State) (w : List Word) : Bool :=
  stState w == ST_IDLE && stIdleLim w != 0 && sF w 0 6 1 == 0
    && decide (stIdleLim w ≤ (tickNow s + 2 ^ 48 - sF w 5 0 48) % 2 ^ 48)

/-- A frame may be offered or admitted: an SRAM frame of the cluster without a pin. -/
def offerable (s : State) (p cl fri : Nat) : Bool :=
  recKind s p fri == 1 && locCluster (recWord s p fri 1) == cl && recPins s p fri == 0

/-- IDLE_EXPIRY of stream `id` of die `unit`. -/
def execIdleExpiry (s : State) : Out :=
  let d := s.ev.unit
  let p := s.ev.pid
  let sn := s.ev.id
  match getStr s d p sn with
  | none => .next s
  | some w =>
    if !idleDue s w then .next s
    else
      let s := unpinStream (updStr s d p sn (fun w => sSet w 0 6 1 1)) d p sn
      let cl := homeCl d w
      let fris := ((statePages s p w).getD []).filterMap (fun vpn => (walk s p (stRoot w) vpn).map (·.fri))
      let fris := fris.filter (offerable s p cl)
      if fris.isEmpty then .next s
      else
        let (n, s) := fresh s
        .next (updDp s d p (fun k => { k with offers := k.offers ++ [⟨cl, sn, fris.eraseDups, tickNow s, n⟩] }))

/-- The offers of all partitions on a die in order of expiry (R335). -/
def dieOffers (s : State) (d : Nat) : List (Nat × Offer) :=
  sortBy (fun x y => decide (x.2.num < y.2.num)) (s.dieParts.flatMap (fun e =>
    if e.1 / 16 = d then e.2.offers.map (fun o => (e.1 % 16, o)) else []))

/-- One offer of partition `p` on die `d` enters the idle part of its home cluster's eviction queue when no earlier offer to
the cluster waits, the frames admitted in the last 8,192 ticks leave room (R335), and so does the idle part itself (R158). -/
def admitOffer (s : State) (d p : Nat) (o : Offer) : State :=
  let c := getClu s o.cl
  let queued := fun (f : Nat) => (c.evIdle ++ c.evDemand).any (fun e => e.pid == p && e.fri == f)
  let fs := o.fris.filter (fun f => offerable s p o.cl f && !held s p f && !queued f)
  let recent := c.admits.filter (fun t => decide (tickNow s < t + 8192))
  if (dieOffers s d).any (fun x => x.2.cl == o.cl && decide (x.2.num < o.num)) || decide (32 < recent.length + fs.length)
      || decide (32 < c.evIdle.length + fs.length) then s
  else
    let s := updClu s o.cl (fun c => { c with
      evIdle := c.evIdle ++ fs.map (fun f => ⟨p, f, 0, 0, o.snum, false⟩)
      admits := recent ++ fs.map (fun _ => tickNow s) })
    updDp s d p (fun k => { k with offers := k.offers.filter (fun x => x.num != o.num) })

/-- EVICTION_ADMIT: the oldest offer of stream `id` of die `unit`; with `flag`, the offers of the die are looked at in order
of expiry (R335). -/
def execEvictionAdmit (s : State) : Out :=
  let d := s.ev.unit
  let p := s.ev.pid
  if s.ev.flag then
    .next { s with agenda := (dieOffers s d).map (fun e => (.evictionAdmit, { unit := d, pid := e.1, id := e.2.snum })) ++ s.agenda }
  else match (getDp s d p).offers.find? (fun o => o.snum == s.ev.id) with
    | none => .next s
    | some o => .next (admitOffer s d p o)

/-- PENDING_SLOT_DRAIN of stream `id` of die `unit` (R360). -/
def execPendingSlotDrain (s : State) : Out :=
  if tickNow s % 64 = 0 ∧ (getDp s s.ev.unit s.ev.pid).live.contains s.ev.id then
    .next (drainSlot s s.ev.unit s.ev.pid s.ev.id)
  else .next s

/-! ### The sequence of a tick (R329) -/

/-- Rows that follow the requests at a boundary, in their order: batches, expiries, pending slots, and the events of other
units. -/
def afterRequests (s : State) (d p : Nat) : List (Instr × EvArg) :=
  let k := getDp s d p
  let a := fun (n : Nat) => ({ unit := d, pid := p, id := n } : EvArg)
  let due := fun (b : Batch) => closeDue s d p b || (b.closed && !b.stopped && !b.written)
  (if strEn s d p then (k.batches.filter due).map (fun b => (.batchClose, a b.num)) else [])
    ++ (k.live.filter (fun sn => match getStr s d p sn with | some w => idleDue s w | none => false)).map
      (fun sn => (.idleExpiry, a sn))
    ++ (if tickNow s % 64 = 0 then
          (k.live.filter (fun sn => match getStr s d p sn with | some w => sF w 0 7 1 == 1 | none => false)).map
            (fun sn => (.pendingSlotDrain, a sn))
        else [])
    ++ [(.streamSequencePoint, { unit := d, pid := p, n := 1 })]

/-- The events of other units, last in the sequence: batch tasks that ended, and first segments that started (R329, R331,
R333). -/
def lastEvents (s : State) (d p : Nat) : State :=
  let s := ((getDp s d p).batches.filter (fun b => b.ended)).foldl (fun s b => endBatch s d p b) s
  ((getDp s d p).batches.filter (fun b => b.started && !b.ran)).foldl (fun s b => runBatch s d p b) s

/-- A request of another package reaches the scheduler of this die: the words are its form (12 for COMMIT), SID, operand and
modifier, then the tokens of a COMMIT (R329). -/
def takeRequest (s : State) (d p : Nat) (ws : List Word) : State :=
  let form := ws.getD 0 0
  let sid := (ws.getD 1 0).toNat % 2 ^ 24
  if form = 0 ∨ 12 < form.toNat ∨ !sidHere s d p sid then s
  else
    let (n, s) := fresh s
    let o : Op :=
      { id := n, kind := if form = 12 then .commit else .stream, task := 0, pid := p, root := 0, cl := awayCl, lane := 0
        pc := 0, ctr := none, dst := none, scope := 4, unit := 0, seq := 0, args := (ws.take 4), i := 0, j := 0
        acc := ws.drop 4, bytes := [], out := [], stopped := false, leases := [], deps := [], sup := true
        tick := tickNow s, arr := tickNow s, flags := 0, fin := none }
    { s with ops := s.ops ++ [o] }

/-- STREAM_SEQUENCE_POINT of die `unit` for a partition: the requests of the ticks before, in sequence, then batch
formation; the rows of the other parts of the sequence follow, and last, with `n` = 1, the events of other units. With
`flag`, the scheduler of another package has answered request `id` with the first word; with `n` = 2 a request of another
package arrives. -/
def execStreamSequencePoint (s : State) : Out :=
  let d := s.ev.unit
  let p := s.ev.pid
  if s.ev.flag then
    match s.ops.find? (fun o => o.id == s.ev.id) with
    | some o =>
      if (o.kind == .stream || o.kind == .commit) && o.i == 0 && reqDie s o == none && o.fin.isNone && !o.stopped
          && fenceFree s o then .next (doneOp s o.id (s.ev.words.getD 0 0).toNat)
      else .next s
    | none => .next s
  else if s.ev.n = 1 then .next (lastEvents s d p)
  else if s.ev.n = 2 then .next (takeRequest s d p s.ev.words)
  else
    let s := (sortBy (reqBefore d) (s.ops.filter (reqDue s d p))).foldl (fun s o => applyReq s d o) s
    let s := if strEn s d p then (getDp s d p).waiting.foldl (fun s sn => joinBatch s d p sn) s else s
    .next { s with agenda := afterRequests s d p ++ s.agenda }

/-- JOIN_REDUCTION: the join unit's result reaches its register (R342). -/
def execJoinReduction (s : State) : Out :=
  match s.ops.find? (fun o => o.id == s.ev.id) with
  | some o =>
    if o.kind == .stream && o.i == 3 && o.fin.isNone && !o.stopped then .next (answer s o (o.acc.getD 0 0).toNat)
    else .next s
  | none => .next s

/-! ### Snapshots (R343) -/

/-- A page of the partition's HBM on a die for a copied frame: a spill slot of the stack of cluster `cl` (log 80). -/
def takeHbm (s : State) (cl p : Nat) : Option (Word × State) :=
  let d := dieOf cl
  let st := spillStack cl
  let used := ((getDp s d p).spill.filter (fun x => x / 32768 == st)).map (· % 32768)
  match leastFree used 32768 0 with
  | some k => some (BitVec.ofNat 64 (spillBase s cl p + 32768 * k),
      updDp s d p (fun x => { x with spill := setAdd x.spill (32768 * st + k) }))
  | none => none

/-- Copies made so far: (old record, new record). -/
abbrev CopyMap := List (Nat × Nat)

/-- A record and a frame in HBM at the new home for a page that arrives, with REF 0; `w0` and `w2` are the words of its old
record. -/
def takePage (s : State) (cl p : Nat) (w0 w2 : Word) (bs : List Byte) : Option (Nat × State) :=
  match freeRecord s p with
  | (none, _) => none
  | (some n, s) =>
    match takeHbm s cl p with
    | none => none
    | some (loc, s) =>
      let f := fun (lo k : Nat) => w0.toNat / 2 ^ lo % 2 ^ k
      some (n, wrMem (newRecord s p n 2 (f 4 4) (f 8 2) (f 10 1) 0 0 loc w2) (framePhys 2 loc) bs)

/-- Copy a data page's frame into HBM at the new home, after the writes on their way to it. -/
def copyData (s : State) (cl p fri : Nat) : Option (Nat × State) :=
  let src := recPhys s p fri
  let s := settleFrame s src
  match takePage s cl p (recWord s p fri 0) (recWord s p fri 2) [] with
  | none => none
  | some (n, s) => some (n, copyFrame s (recPhys s p n) src)

/-- Copy what record `fri` of level `lvl` reaches through entries that a walk accepts (1 to 3 nodes, 4 data); a record met
before is shared. The copy's REF counts the entry that asked for it. -/
def copyTree (cl p : Nat) : Nat → Nat → Nat → CopyMap → State → Option (Nat × CopyMap × State)
  | 0, _, _, _, _ => none
  | fuel + 1, lvl, fri, m, s =>
    match m.find? (fun e => e.1 == fri) with
    | some e => some (e.2, m, setRef s p e.2 (recRef s p e.2 + 1))
    | none =>
      if 4 ≤ lvl then
        match copyData s cl p fri with
        | none => none
        | some (n, s) => some (n, (fri, n) :: m, setRef s p n 1)
      else match newNode s (dieOf cl) p with
        | none => none
        | some (n, s) =>
          let src := recPhys s p fri
          let dst := recPhys s p n
          let r := (List.range 2048).foldl (fun (acc : Option (CopyMap × State)) i =>
            match acc with
            | none => none
            | some (m, s) =>
              let w := rd64 s (src + 16 * i)
              let w1 := rd64 s (src + 16 * i + 8)
              if !(if lvl = 3 then leafOk s p w w1 else nodeOk s p w w1) then some (m, s)
              else match copyTree cl p fuel (lvl + 1) (pteFri w) m s with
                | none => none
                | some (k, m, s) =>
                  let w := setField w 32 26 k
                  let w := if lvl = 3 then w &&& ~~~ 16#64 else w
                  some (m, wr64 (wr64 s (dst + 16 * i) w) (dst + 16 * i + 8) w1))
            (some ((fri, n) :: m, s))
          r.map (fun q => (n, q.1, q.2))

/-- What a snapshot brings to its destination: the descriptor as recorded, the number of list members, the old SID and the
home cluster. -/
structure Snap where
  desc : List Word
  members : Nat
  old : Nat
  home : Nat
deriving DecidableEq, Repr

/-- The lowest free SNUM of a die below NSTR that a SID can name (R325, R343). -/
def freeSnum (s : State) (d p : Nat) : Option Nat :=
  leastFree (getDp s d p).live (if dieSlot s p d = some 0xFF then min (nstr s d p) 0xFFFF else nstr s d p) 0

/-- The stream at its destination on die `d` with the copied root `r`: its new SNUM, or QUOTA. -/
def putSnap (s : State) (d p : Nat) (x : Snap) (c r : Nat) : Except Nat Nat × State :=
  let f := fun (x : Nat) => BitVec.ofNat 64 x
  let nw := sSet (sSet (sSet x.desc 0 48 5 x.home) 2 0 26 r) 2 30 24 x.members
  let nw := sSet (sSet nw 3 0 24 noSid) 3 24 24 noSid
  let nw := (nw.set 9 (f (noSid + 2 ^ 24 * x.old))).set 10 (f noSid)
  let nw := sSet (nw.set 11 (f (noSid + 2 ^ 24 * noSid))) 0 4 1 0
  let s := putStr (updDp s d p (fun k => { k with live := setAdd k.live c })) d p c nw
  if stPin x.desc then
    let q := pinStream s d p c
    if q.1 then (.ok c, forkState q.2 d p c) else (.error 7, s)
  else (.ok c, forkState s d p c)

/-- The stream of operation `o` at its destination in this package: its new SNUM, or a failure code of R337 with everything
allocated released. -/
def landSnap (s : State) (o : Op) (d : Nat) : Except Nat Nat × State :=
  let p := o.pid
  let x : Snap :=
    { desc := o.acc, members := o.j, old := (o.args.getD 1 0).toNat % 2 ^ 24, home := (o.args.getD 2 0).toNat / 2 ^ 8 % 32 }
  match freeSnum s d p with
  | none => (.error 4, s)
  | some c =>
    match copyTree (32 * d + x.home) p 5 1 (stRoot o.acc) [] s with
    | none => (.error 7, s)
    | some (r, _, s1) =>
      match putSnap s1 d p x c r with
      | (.ok c, s2) => (.ok c, s2)
      | (.error k, _) => (.error k, s)

/-- The pages of a snapshot from another package under a new root: of each its virtual page, its PTE words and words 0 and 2
of its record, with 32,768 bytes. A frame that several pages share is copied once. -/
def landPages (cl p root : Nat) : List Word → List Byte → CopyMap → State → Option State
  | vpn :: w0 :: w1 :: r0 :: r2 :: ws, bs, m, s =>
    let page := match m.find? (fun e => e.1 == pteFri w0) with
      | some e => some (e.2, s)
      | none => takePage s cl p r0 r2 (bs.take 32768)
    match page with
    | none => none
    | some (n, s) =>
      match mapRec s cl p root (vpn.toNat % 2 ^ 33) n (pteAttr (w0 &&& ~~~ 16#64)) w1 with
      | .done x s =>
        if x.toNat / 2 ^ 63 = 1 then none else landPages cl p root ws (bs.drop 32768) ((pteFri w0, n) :: m) s
      | _ => none
  | _, _, _, s => some s

/-- A snapshot from another package at its destination on die `d`: the words are the descriptor, the number of list members,
the home cluster and the old SID, then the pages (R343). -/
def landFar (s : State) (d p : Nat) (ws : List Word) (bs : List Byte) : Except Nat Nat × State :=
  let n := fun (k m : Nat) => (ws.getD k 0).toNat % m
  let x : Snap := { desc := ws.take 16, members := n 16 (2 ^ 24), old := n 18 (2 ^ 24), home := n 17 32 }
  match freeSnum s d p, newNode s d p with
  | none, _ => (.error 4, s)
  | _, none => (.error 7, s)
  | some c, some (r, s1) =>
    match landPages (32 * d + x.home) p r (ws.drop 19) bs [] s1 with
    | none => (.error 7, s)
    | some s2 =>
      match putSnap s2 d p x c r with
      | (.ok c, s3) => (.ok c, s3)
      | (.error k, _) => (.error k, s)

/-- The source's side once the destination of operation `o` has answered (R343). -/
def endSnap (s : State) (o : Op) (r : Except Nat Nat) : State :=
  let p := o.pid
  let d := (reqDie s o).getD 0
  let sn := (o.args.getD 1 0).toNat % 2 ^ 16
  let drop := fun (s : State) => match refAdd s p (stRoot o.acc) 1 (-1) with
    | some (_, s) => s
    | none => s
  match r with
  | .ok new =>
    let root := ((getStr s d p sn).map stRoot).getD (stRoot o.acc)
    let s := updStr (unpinStream s d p sn) d p sn (fun w => sSet (sSet w 0 0 4 ST_MOVED) 9 0 24 new)
    let s := match refAdd s p root 1 (-1) with
      | some (_, s) => s
      | none => s
    answer (drop s) o new
  | .error k => answer (forkState (drop s) d p sn) o (sErr k)

/-- SNAPSHOT_TRANSFER_DONE of operation `id`: for a destination in another package `flag` says success, with `n` the new SID,
else `n` is the failure code. With `id` 0 a snapshot of another package arrives at die `unit`, whose answer goes back to it
(R343). -/
def execSnapshotTransferDone (s : State) : Out :=
  if s.ev.id = 0 then
    let d := s.ev.unit % 8
    let p := s.ev.pid % 16
    match landFar s d p s.ev.words s.ev.bytes with
    | (.ok c, s) => .next { s with reply := BitVec.ofNat 64 (sidOf s p d c) }
    | (.error k, s) => .next { s with reply := BitVec.ofNat 64 (sErr k) }
  else match s.ops.find? (fun o => o.id == s.ev.id) with
    | none => .next s
    | some o =>
      if !(o.kind == .stream && o.i == 2 && o.fin.isNone && !o.stopped) then .next s
      else match dieEntry s o.pid ((o.args.getD 2 0).toNat % 256) with
        | none => .next (endSnap s o (.error 10))
        | some (dd, pkg) =>
          if pkg = Config.torus.toNat then
            match landSnap s o dd with
            | (.ok c, s) => .next (endSnap s o (.ok (sidOf s o.pid dd c)))
            | (.error k, s) => .next (endSnap s o (.error k))
          else if s.ev.flag then .next (endSnap s o (.ok (s.ev.n % 2 ^ 24)))
          else .next (endSnap s o (.error (if s.ev.n = 4 ∨ s.ev.n = 7 then s.ev.n else 10)))

end Sys2Proof.Machine
end

