-- ==== Sys2Proof/Machine/Place.lean ====
section
/-! DEFINITION. Placement: reservation records, preparation of pages, code and rotary records, and the attempt
(spec/08 R206-R221, R231, R461; spec/06 R153-R156; spec/09 R257, R258; spec/11 R300; spec/12 R332; spec/16 R403, R413). -/

namespace Sys2Proof.Machine

/-! ### What the Sieve reads -/

/-- `n` bytes at `va` under a root, page by page, through the translation cache; else the cause and the address that failed
(R179, R258, R332). -/
def sieveRead (s : State) (cl p root : Nat) : Nat → Nat → Nat → Except (Cause × Nat) (List Byte)
  | 0, _, _ => .ok []
  | fuel + 1, va0, n =>
    let va := va0 % 2 ^ 48
    if n = 0 then .ok []
    else
      let len := min n (32768 - va % 32768)
      match (xlate s cl p root (va / 32768 % 2 ^ 33)).1 with
      | none => .error (.translation, va)
      | some l =>
        let a := recPhys s p l.fri + va % 32768
        match s.poison.find? (fun w => decide (w < a + len ∧ a < w + 8)) with
        | some w => .error (.memoryEcc, va + (max w a - a))
        | none =>
          match sieveRead s cl p root fuel (va + len) (n - len) with
          | .error e => .error e
          | .ok r => .ok (engRead s (dieOf cl) a len ++ r)

/-- The words of little-endian bytes. -/
def wordsOf (bs : List Byte) (n : Nat) : List Nat := (List.range n).map (fun i => leAt bs (8 * i) 8)

/-- The `n` words at `va`. -/
def sieveWords (s : State) (cl p root va n : Nat) : Except (Cause × Nat) (List Nat) :=
  match sieveRead s cl p root (n / 4096 + 3) va (8 * n) with
  | .error e => .error e
  | .ok bs => .ok (wordsOf bs n)

/-! ### Reservation records (R210-R214) -/

/-- Occurrences: resource, first and last tick. -/
abbrev Occ := List (Nat × Nat × Nat)

/-- A valid reservation record, its page set in source order as (virtual page, write intent). -/
structure ResRec where
  e : Nat
  len : Nat
  ne : Nat
  gid : Nat
  glive : Word
  vlive : BitVec 32
  code : Nat
  occ : Occ
  pages : List (Nat × Bool)
deriving DecidableEq, Repr

/-- Bits [lo + n - 1 : lo] of a number. -/
def fld (w lo n : Nat) : Nat := w / 2 ^ lo % 2 ^ n

/-- A booking entry's fields are in range (R212, R214). -/
def useBad (w : Nat) : Bool :=
  decide (fld w 0 5 < 8) || fld w 17 12 == 0 || fld w 29 8 == 0 || w / 2 ^ 49 != 0
    || (decide (1 < fld w 29 8) && decide (fld w 37 12 < fld w 17 12))

/-- The occurrences of a booking entry (R212). -/
def useOcc (w : Nat) : Occ :=
  (List.range (fld w 29 8)).map (fun i =>
    let a := fld w 5 12 + i * fld w 37 12
    (fld w 0 5, a, a + fld w 17 12 - 1))

/-- Two occurrences share a tick of one resource. -/
def occMeet (x y : Nat × Nat × Nat) : Bool := x.1 == y.1 && decide (x.2.1 ≤ y.2.2 ∧ y.2.1 ≤ x.2.2)

/-- Some two occurrences of the list meet. -/
def occClash : Occ → Bool
  | [] => false
  | x :: l => l.any (occMeet x) || occClash l

/-- Set bits of a word. -/
def popNat (n : Nat) : Nat → Nat
  | 0 => 0
  | k + 1 => n % 2 + popNat (n / 2) k

/-- The header's fields are in range (R211, R214). -/
def headBad (h : List Nat) : Bool :=
  let w := fun i => h.getD i 0
  let len := fld (w 0) 0 13
  let code := fld (w 3) 0 14
  fld (w 0) 13 3 != 0 || fld (w 0) 23 1 != 0 || fld (w 0) 30 2 != 0 || w 0 / 2 ^ 40 != 0 || w 2 / 2 ^ 32 != 0
    || w 3 / 2 ^ 14 != 0 || len == 0 || decide (4096 < len) || decide (64 < fld (w 0) 16 7)
    || decide (32 < fld (w 0) 24 6) || code == 0 || decide (8192 < code) || w 1 % 2 != 0
    || decide (16 < popNat (w 1) 64 + popNat (w 2) 32)

/-- A page-set entry breaks R213. -/
def pageBad (w : Nat) : Bool := w % 4 == 0 || fld w 2 13 != 0 || w / 2 ^ 48 != 0

/-- Address below E. -/
def below (e n : Nat) : Nat := (e + 2 ^ 48 - n) % 2 ^ 48

/-- The record of the block at `e`, checked but for its GID (R214). The spec names no cause for an entry that is not a multiple
of 8 and that only placement meets (a gang member's, a fault vector's): the model takes its record as invalid (log 90). -/
def readRec (s : State) (cl p root e : Nat) : Except (Cause × Nat) ResRec :=
  if e % 8 ≠ 0 then .error (.booking, e)
  else
    match sieveWords s cl p root (below e 32) 4 with
    | .error x => .error x
    | .ok h =>
      if headBad h then .error (.booking, e)
      else
        let w0 := h.getD 0 0
        let len := fld w0 0 13
        let ne := fld w0 16 7
        let np := fld w0 24 6
        match sieveWords s cl p root (below e (32 + 8 * (ne + np))) (ne + np) with
        | .error x => .error x
        | .ok ws =>
          let us := ws.drop np
          let occ := us.flatMap useOcc
          if us.any useBad || (ws.take np).any pageBad || occ.any (fun o => decide (len ≤ o.2.2)) || occClash occ then
            .error (.booking, e)
          else .ok
            { e := e, len := len, ne := ne, gid := fld w0 32 8, glive := BitVec.ofNat 64 (h.getD 1 0)
              vlive := BitVec.ofNat 32 (h.getD 2 0), code := fld (h.getD 3 0) 0 14, occ := occ
              pages := (ws.take np).map (fun w => (fld w 15 33, fld w 1 1 == 1)) }

/-- The cycles of an attempt on the record at `e` (R216). -/
def recCycles (s : State) (cl p root e : Nat) : Nat :=
  match sieveWords s cl p root (below e 32) 4 with
  | .ok h => max 4 (fld (h.getD 0 0) 16 7)
  | .error _ => 4

/-! ### What a candidate would run -/

/-- A segment that an attempt would place. -/
structure Plan where
  task : Task
  work : Work
  r : ResRec
  len : Nat
  boff : Nat
  resume : Nat
  occ : Occ
  /-- First tick allowed by its not-before time and its tile commands (R222, R253). -/
  from' : Nat
  gang : Nat
  gid : Nat
  member : Nat
  /-- The task in whose name its far work runs. -/
  farId : Nat
deriving DecidableEq, Repr

/-- The occurrences from block tick `ts` on, counted from it (R226). -/
def cutOcc (ts : Nat) (l : Occ) : Occ :=
  (l.filter (fun o => decide (ts ≤ o.2.2))).map (fun o => (o.1, max o.2.1 ts - ts, o.2.2 - ts))

/-- Runs of true values: first and last position. -/
def runsOf : List Bool → Nat → Option Nat → List (Nat × Nat)
  | [], i, some a => [(a, i - 1)]
  | [], _, none => []
  | true :: l, i, o => runsOf l (i + 1) (some (o.getD i))
  | false :: l, i, some a => (a, i - 1) :: runsOf l (i + 1) none
  | false :: l, i, none => runsOf l (i + 1) none

/-- The occurrences that an image's shape words give (R409). -/
def shapeOcc (ws : List Nat) : Occ :=
  (List.range 32).flatMap (fun r => if r < 8 then [] else (runsOf (ws.map (fun w => fld w r 1 == 1)) 0 none).map (fun e => (r, e.1, e.2)))

/-- The continuation record of a task. -/
def contFind (s : State) (task : Nat) : Option Cont := s.conts.find? (fun c => c.task.id == task)

/-- A record left by SEGEND (R229, R235). -/
def bySegend (c : Cont) : Bool := c.event == 0 && c.resume == 0

/-- The block whose record books a work item, with what follows. -/
def workEntry (s : State) (task : Task) : Work → Nat
  | .fresh e _ _ => e.toNat
  | .cont => match contFind s task.id with | some c => c.blk.toNat | none => 0
  | .remainder t => t.seg.blk.toNat
  | .gang d => (d.getD 4 0).toNat % 2 ^ 48
  | .gangRound _ => 0

/-- The plan of one segment: a member of gang `gang` with ID `gid`, or alone (0). -/
def planOf (s : State) (cl p : Nat) (task : Task) (w : Work) (nb gang gid member farId : Nat) : Except (Cause × Nat) Plan :=
  match readRec s cl p task.root (workEntry s task w) with
  | .error x => .error x
  | .ok r =>
    let mk := fun (len boff resume : Nat) (occ : Occ) (f : Nat) (gidOk : Bool) =>
      if !gidOk || len == 0 then Except.error (Cause.booking, r.e)
      else .ok { task := task, work := w, r := r, len := len, boff := boff, resume := resume, occ := occ, from' := f
                 gang := gang, gid := gid, member := member, farId := farId }
    let want := r.gid == gid
    match w with
    | .cont =>
      match contFind s task.id with
      | none => .error (.booking, r.e)
      | some c =>
        mk (r.len - c.ts) c.ts c.resume (cutOcc c.ts r.occ) c.after (want || (gang == 0 && task.left && !bySegend c))
    | .remainder t =>
      let a := (imageOf s task.id p).getD 0
      let n := fld (rdN s (a + 16) 8) 48 13
      let shape := (List.range n).map (fun u => rdN s ((shapesOf s task.id p).getD 0 + 4 * u) 4)
      mk n (fld (rdN s (a + 48) 8) 18 12) (fld (rdN s (a + 8) 8) 48 3) (shapeOcc shape)
        (tilesUntil (getCp s t.cl p) t.seg.sid) true
    | _ => mk r.len 0 0 r.occ nb want

/-! ### Pages (R153-R156, R215, R219, R332) -/

/-- A page that a segment holds: whose root (0 the partition's, 1 + SNUM a stream's of the die), the page, the page at
which the segment sees it, and the intent. -/
structure Need where
  who : Nat
  vpn : Nat
  view : Nat
  wr : Bool
  code : Bool
  /-- A window page of a batch (R332). -/
  win : Bool
deriving DecidableEq, Repr

/-- The root that a need is translated under. -/
def whoRoot (s : State) (cl p who : Nat) : Nat :=
  match who with
  | 0 => 0
  | n + 1 => match getStr s (dieOf cl) p n with
    | some w => stRoot w
    | none => 0

/-- Change whose root it is: the partition's default root or a stream's ROOT (R153). -/
def setWhoRoot (s : State) (cl p who root : Nat) : State :=
  match who with
  | 0 => match tabGet s.parts p with
    | some d => { s with parts := tabSet s.parts p { d with words := d.words.set 3 (setField (d.words.getD 3 0) 0 26 root) } }
    | none => s
  | n + 1 => updStr s (dieOf cl) p n (fun w => sSet w 2 0 26 root)

/-- Pages in the page set and the code range of a plan. -/
def recNeeds (r : ResRec) : List Need :=
  let lo := r.e / 32768
  let hi := (r.e + 8 * r.code - 1) / 32768
  r.pages.map (fun x => ⟨0, x.1, x.1, x.2, false, false⟩)
    ++ (List.range (hi + 1 - lo)).map (fun i => ⟨0, lo + i, lo + i, false, true, false⟩)

/-- The batch of a batch task. -/
def batchOf (s : State) (cl : Nat) (k : Task) : Option Batch :=
  match k.batch with
  | some n => (getDp s (dieOf cl) k.pid).batches.find? (fun b => b.num == n)
  | none => none

/-- First byte of the window region (R326). -/
def winBase (s : State) (d p : Nat) : Nat := dpCtl s d p 0x413 / 2 ^ 24 % 2 ^ 24 * 2 ^ 24

/-- The batch page and the windows of a batch task's segment (R332). -/
def batchNeeds (s : State) (cl p : Nat) (b : Batch) : Except (Cause × Nat) (List Need) :=
  let d := dieOf cl
  let win := winBase s d p
  let page : Need := let v := slotVa s d p b.cl (b.slot.getD 0) / 32768; ⟨0, v, v, true, false, false⟩
  (b.mems.mapIdx (fun m sn => (m, sn))).foldl (fun acc e =>
    match getStr s d p e.2 with
    | none => acc
    | some w =>
      (List.range (stSln w)).foldl (fun acc i =>
        match acc with
        | .error x => .error x
        | .ok l =>
          match sieveWords s cl p (stRoot w) (stSlist w + 8 * i) 1 with
          | .error x => .error x
          | .ok ws => .ok (l ++ [⟨1 + e.2, ws.getD 0 0 % 2 ^ 48 / 32768, (win + 262144 * e.1 + 32768 * i) / 32768 % 2 ^ 33, true, false, true⟩]))
        acc) (.ok [page])

/-- A local copy to be booked: what (as in LocalCopy), the source's record and first byte, the move buffer it was read into
(0 none), whose PTE and page. -/
structure CopyNeed where
  what : Nat
  old : Nat
  src : Nat
  buf : Nat
  who : Nat
  vpn : Nat
deriving DecidableEq, Repr

/-- What preparation has gathered: the translations, each with the copy that fills its frame; the copies; the first start
tick that pending copies allow; PTEs that lose COW (whose, page); head groups of rotary pages. -/
structure Prep where
  xls : List (Xl × Option Nat) := []
  copies : List CopyNeed := []
  after : Nat := 0
  clear : List (Nat × Nat) := []
  groups : List Nat := []
deriving DecidableEq, Repr

/-- How preparation ends: a fault, an attempt that fails, far work to be started (what, whose, page), or ready. -/
inductive PrepRes where
  | fault (c : Cause) (va : Nat)
  | wait
  | far (what who vpn : Nat)
  | ok (q : Prep)
deriving DecidableEq, Repr

/-- The far work of a task on a page that is done. -/
def farFind (k : ClPart) (task what who vpn : Nat) : Option FarWork :=
  k.far.find? (fun f => f.taskId == task && f.what == what && f.who == who && f.vpn == vpn && f.done)

/-- Far work of a task on a page is done. -/
def farDone (k : ClPart) (task what who vpn : Nat) : Bool := (farFind k task what who vpn).isSome

/-- The first shared node of a path cannot be copied, since a record it names is at REF 65,535 (R152). -/
def pathFull (s : State) (cl p : Nat) (path : List Nat) : Bool :=
  match path.zipIdx.find? (fun x => decide (1 < recRef s p x.1)) with
  | some (n, i) => match copyNode s (dieOf cl) p (i + 1) n with
    | .error c => c == .refcount
    | .ok _ => false
  | none => false

/-- Copy-on-write copies of a record that are booked and not performed. -/
def cowPending (s : State) (p fri : Nat) : List LocalCopy :=
  (s.clParts.filter (fun e => e.1 % 16 == p)).flatMap (fun e => e.2.copies.filter (fun c => c.what == 1 && c.old == fri))

/-- Prepare one page of a task after what is gathered (R153). -/
def prepOne (s : State) (cl p task : Nat) (q : Prep) (n : Need) : PrepRes :=
  let k := getCp s cl p
  let root := whoRoot s cl p n.who
  match walk s p root n.vpn with
  | none => .fault .translation (n.vpn * 32768)
  | some l =>
    let fri := l.fri
    let cow := n.wr && pteCow l.pte0
    let xl : Xl := ⟨n.view, fri, recWord s p fri 1, if cow then l.pte0 &&& ~~~ 8#64 else l.pte0, l.pte1, n.wr, n.code, n.win⟩
    let q := if !n.code && pteRope l.pte0 then { q with groups := setAdd q.groups (pteHgrp l.pte1) } else q
    let here := fun (q : Prep) => PrepRes.ok { q with xls := q.xls ++ [(xl, none)] }
    let pend := fun (c : LocalCopy) =>
      PrepRes.ok { q with
        xls := q.xls ++ [({ xl with fri := c.fri, loc := sramLoc cl c.frame }, none)], after := max q.after (c.last + 1) }
    let plan := fun (q : Prep) (what : Nat) (far : Option Nat) =>
      match q.copies.findIdx? (fun c => c.what == what && c.old == fri && (what != 1 || (c.who == n.who && c.vpn == n.vpn))) with
      | some i => PrepRes.ok { q with xls := q.xls ++ [(xl, some i)] }
      | none =>
        match far with
        | some f =>
          match farFind k task f n.who n.vpn with
          | some w =>
            .ok { q with xls := q.xls ++ [(xl, some q.copies.length)]
                         copies := q.copies ++ [⟨what, fri, recPhys s p fri, w.buf, n.who, n.vpn⟩] }
          | none => .far f n.who n.vpn
        | none =>
          .ok { q with xls := q.xls ++ [(xl, some q.copies.length)]
                       copies := q.copies ++ [⟨what, fri, recPhys s p fri, 0, n.who, n.vpn⟩] }
    let isLocal := recKind s p fri == 1 && locCluster (recWord s p fri 1) == cl
    let leaving := isLocal && movePending s cl p fri
    let reside := fun (q : Prep) =>
      if pteRepl l.pte0 && !n.wr then
        match replicaOf s cl p fri with
        | some f => PrepRes.ok { q with xls := q.xls ++ [({ xl with loc := sramLoc cl f }, none)] }
        | none => match k.copies.find? (fun c => c.what == 2 && c.fri == fri) with
          | some c => pend c
          | none => plan q 2 (some 3)
      else if isLocal then (if leaving then .wait else here q)
      else match k.copies.find? (fun c => c.what == 0 && c.fri == fri) with
        | some c => pend c
        | none =>
          if (heldBy s p fri).any (· != cl) || movePending s cl p fri then .wait
          else plan q 0 (some 1)
    if n.code && !pteX l.pte0 then .fault .protection (n.vpn * 32768)
    else if n.wr && (!pteW l.pte0 || pteRepl l.pte0) then .fault .protection (n.vpn * 32768)
    else if n.wr && l.path.any (fun x => decide (1 < recRef s p x)) then
      if pathFull s cl p l.path then .fault .refcount (n.vpn * 32768) else .far 0 n.who n.vpn
    else
      let mine := fun (c : LocalCopy) => c.what == 1 && c.old == fri && c.who == n.who && c.vpn == n.vpn
      match k.copies.find? mine with
      | some c => pend c
      | none =>
        let others := cowPending s p fri
        let planned := q.copies.filter (fun c => c.what == 1 && c.old == fri)
        let dup := planned.any (fun c => c.who == n.who && c.vpn == n.vpn)
        if cow && (dup || decide (1 < recRef s p fri - others.length - planned.length)) then
          if leaving then .wait else plan q 1 (if isLocal then none else some 2)
        else if cow then
          reside { q with clear := q.clear ++ [(n.who, n.vpn)]
                          after := others.foldl (fun m c => max m (c.last + 1)) q.after }
        else reside q

/-- Prepare the pages of a task in order. -/
def prepAll (s : State) (cl p task : Nat) : List Need → Prep → PrepRes
  | [], q => .ok q
  | n :: l, q =>
    match prepOne s cl p task q n with
    | .ok q => prepAll s cl p task l q
    | r => r

/-- Rotary records of a whole candidate (R300): the copies in the cache that its segments will hold, with their head groups,
and the head groups to be loaded. -/
def rotPlan (s : State) (cl p task : Nat) (groups : List Nat) : Except PrepRes (List (Nat × Nat) × List Nat) :=
  let k := getCp s cl p
  let rot := cpCtl s cl p 0x1B0
  if !rotEn rot then .ok ([], [])
  else
    let cur := fun (g : Nat) => (k.rotary.find? (fun r => r.hgrp == g && !r.old)).map (·.num)
    let have' := groups.filterMap (fun g => (cur g).map (fun n => (g, n)))
    let miss := groups.filter (fun g => (cur g).isNone)
    match miss.find? (fun g => !farDone k task 7 0 g) with
    | some g => .error (.far 7 0 g)
    | none =>
      match miss.filterMap (fun g => match sieveRead s cl p 0 3 (rotVa rot g) 1024 with | .error e => some e | .ok _ => none) with
      | e :: _ => .error (.fault e.1 e.2)
      | [] =>
        let heldNums := (k.rotary.filter (fun r => rotHeld s r.num)).map (·.num)
        if 16 < (heldNums ++ have'.map (·.2)).eraseDups.length + miss.length then .error .wait else .ok (have', miss)

/-- The pages that a plan needs before it can be placed (R153, R215, R219, R230, R332). -/
def prepPlan (s : State) (cl p : Nat) (pl : Plan) (q : Prep) : Except PrepRes Prep :=
  let k := getCp s cl p
  let id := pl.farId
  let onChip := match pl.work with
    | .cont => match contFind s pl.task.id with
      | some c => c.hbm.isNone
      | none => true
    | _ => true
  if !onChip && !farDone k id 6 0 0 then .error (.far 6 0 0)
  else
    let pages : Except PrepRes (List Need) := match batchOf s cl pl.task with
      | none => .ok []
      | some b =>
        if !farDone k id 4 0 0 then .error (.far 4 0 0)
        else match batchNeeds s cl p b with
          | .error e => .error (.fault e.1 e.2)
          | .ok l => .ok l
    match pages with
    | .error e => .error e
    | .ok l =>
      match prepAll s cl p id (recNeeds pl.r ++ l) { q with xls := [], groups := [], clear := [] } with
      | .ok q => .ok q
      | e => .error e

/-! ### The calendar -/

/-- The Sieve withholds some tick of lo .. hi on CPY_3 (R157, R209). -/
def spillTicks (lo hi : Nat) : Bool := decide (48 ≤ lo % 64) || decide (48 ≤ lo % 64 + (hi - lo))

/-- Every tick of lo .. hi is free on the resource. -/
def calFree (cal : List Booking) (res lo hi : Nat) : Bool :=
  !(res == 28 && spillTicks lo hi) && !cal.any (fun b => b.res == res && decide (b.lo ≤ hi ∧ lo ≤ b.hi))

/-- Every occurrence is free when tick 0 is `t`. -/
def occFree (cal : List Booking) (t : Nat) (l : Occ) : Bool := l.all (fun o => calFree cal o.1 (t + o.2.1) (t + o.2.2))

/-- First ticks at which a resource may become free: the tick itself, the ticks after bookings and spill windows. -/
def freeStarts (cal : List Booking) (lo hi : Nat) : List Nat :=
  lo :: ((cal.map (fun (b : Booking) => b.hi + 1)) ++ (List.range ((hi - lo) / 64 + 2)).map (fun i => (lo / 64 + 1 + i) * 64)).filter
    (fun t => decide (lo ≤ t ∧ t ≤ hi))

/-- The earliest 8 ticks from `lo` on at which a CPY resource and BG_0-BG_7 are free, on the lowest such CPY (R219). -/
def copySlot (cal : List Booking) (lo hi : Nat) : Option (Nat × Nat) :=
  let ok := fun (r t : Nat) => calFree cal r t (t + 7) && (List.range 8).all (fun b => calFree cal (17 + b) t (t + 7))
  (freeStarts cal lo hi).foldl (fun best t =>
    match (List.range 4).find? (fun r => ok (25 + r) t) with
    | none => best
    | some r => match best with
      | some (_, u) => if t < u then some (25 + r, t) else best
      | none => some (25 + r, t)) none

/-- The bookings of a local copy, held by the Sieve (R209). -/
def copyBookings (x : Nat × Nat) : List Booking :=
  (x.1 :: (List.range 8).map (17 + ·)).map (fun r => ⟨r, x.2, x.2 + 7, 0⟩)

/-- Slots for `n` local copies, one after another, with the calendar that results. -/
def copySlots (lo hi : Nat) : Nat → List Booking → Option (List (Nat × Nat) × List Booking)
  | 0, cal => some ([], cal)
  | n + 1, cal =>
    match copySlot cal lo hi with
    | none => none
    | some x => (copySlots lo hi n (cal ++ copyBookings x)).map (fun r => (x :: r.1, r.2))

/-! ### Contexts and code (R21, R221, R461) -/

/-- Contexts of a core that are not free. -/
def ctxUsed (s : State) (cl p core : Nat) : List Nat :=
  (s.strands.filter (fun e => e.2.cl == cl && e.2.task.pid == p && e.2.lane / 2 == core)).map (·.2.ctx)
    ++ (s.parked.filter (fun t => t.cl == cl && t.task.pid == p && t.lane / 2 == core)).map (·.ctx)
    ++ ((getCp s cl p).placed.filter (fun q => q.lane / 2 == core)).map (·.ctx)
    ++ (s.conts.filter (fun c => c.cl == cl && c.task.pid == p && c.closing && c.lane / 2 == core)).map (·.ctx)

/-- Numbers of the 1 KiB blocks of a code range. -/
def codeBlocks (e words : Nat) : List Nat :=
  (List.range ((e + 8 * words - 1) / 1024 + 1 - e / 1024)).map (fun i => e / 1024 + i)

/-- The cache of a core holds the block. -/
def blockHeld (s : State) (cl p core b : Nat) : Bool :=
  (getClu s cl).icache.any (fun x => x.core == core && x.pid == p && x.va == 1024 * b)

/-- The code blocks of a segment with its partition. -/
def segBlocks (p : Nat) (g : Seg) : List (Nat × Nat) := (codeBlocks g.blk.toNat g.codeLen).map (fun b => (p, b))

/-- Blocks of the segments placed or running on a core, with their partitions: a partition that is switched out keeps its
placed segments (R414, R461). -/
def blocksKept (s : State) (cl core : Nat) : List (Nat × Nat) :=
  (s.strands.filter (fun e => e.2.cl == cl && e.2.lane / 2 == core)).flatMap (fun e => segBlocks e.2.task.pid e.2.seg)
    ++ (s.clParts.filter (fun e => e.1 / 16 == cl)).flatMap (fun e =>
      (e.2.placed.filter (fun q => q.lane / 2 == core)).flatMap (fun q => segBlocks (e.1 % 16) q.seg))

/-- FILL of R218. -/
def fillOf (s : State) (cl p core : Nat) (r : ResRec) : Nat :=
  ((codeBlocks r.e r.code).filter (fun b => !blockHeld s cl p core b)).length

/-- ROOM of R461, beside the blocks of members already assigned to the core. -/
def roomFor (s : State) (cl p core : Nat) (more : List Nat) (r : ResRec) : Bool :=
  decide ((blocksKept s cl core ++ (more ++ codeBlocks r.e r.code).map (fun b => (p, b))).eraseDups.length ≤ 128)

/-- Lanes for the plans at start tick `t`, in member order, the lowest free lanes first (R218, R231): `used` holds the
lanes given so far with their code blocks. -/
def lanesAt (s : State) (cl p a t lg : Nat) (cal : List Booking) : List Plan → List (Nat × List Nat) → Option (List Nat)
  | [], _ => some []
  | pl :: l, used =>
    let ok := fun (k : Nat) =>
      let core := k / 2
      let mates := used.filter (fun u => u.1 / 2 == core)
      !used.any (fun u => u.1 == k) && calFree cal k t (t + lg - 1)
        && decide ((ctxUsed s cl p core).length + mates.length < 8)
        && decide (a + 1 + fillOf s cl p core pl.r ≤ t) && roomFor s cl p core (mates.flatMap (·.2)) pl.r
    match (List.range 8).find? ok with
    | none => none
    | some k => (lanesAt s cl p a t lg cal l (used ++ [(k, codeBlocks pl.r.e pl.r.code)])).map (k :: ·)

/-- The earliest start tick from `t` on, within `n` tries (R218). -/
def searchStart (s : State) (cl p a lg : Nat) (cal : List Booking) (pls : List Plan) : Nat → Nat → Option (Nat × List Nat)
  | 0, _ => none
  | n + 1, t =>
    match (if pls.all (fun pl => occFree cal t pl.occ) then lanesAt s cl p a t lg cal pls [] else none) with
    | some ls => some (t, ls)
    | none => searchStart s cl p a lg cal pls n (t + 1)

/-! ### Committing a placement -/

/-- Frames and records for local copies: (record, frame) of each; the records of moves keep their place until the copy
is made. -/
def takeCopies (s : State) (cl p : Nat) : List (CopyNeed × (Nat × Nat)) → Option (List (Nat × Nat) × State)
  | [] => some ([], s)
  | (c, slot) :: l =>
    let r : Option (Nat × State) :=
      if c.what = 1 then match freeRecord s p with
        | (some n, s) => some (n, s)
        | (none, _) => none
      else some (c.old, s)
    match r with
    | none => none
    | some (n, s) =>
      match frameInQuota s cl p n with
      | none => none
      | some (f, s) =>
        let s := if c.what = 1 then
            newRecord s p n 1 (recFmt s p c.old) (recBlk s p c.old) (recAxis s p c.old) 0 0 (sramLoc cl f) (recWord s p c.old 2)
          else s
        let x : LocalCopy :=
          { pid := p, what := c.what, old := c.old, src := c.src, buf := c.buf, fri := n, frame := f, last := slot.2 + 7
            who := c.who, vpn := c.vpn, clears := [] }
        let s := updCp s cl p (fun k => { k with copies := k.copies ++ [x], cal := k.cal ++ copyBookings slot })
        (takeCopies s cl p l).map (fun r => ((n, f) :: r.1, r.2))

/-- Queue victims for `n` frames that the quota lacks, those on their way out counted (R156). -/
def queueVictims (s : State) (cl p n : Nat) : State :=
  let room := (getCp s cl p).quota - framesOf s cl p
  let going := ((getClu s cl).evDemand.filter (fun e => e.pid == p)).length
  (List.range (n - room - going)).foldl (fun s _ => queueVictim s cl p) s

/-- Load rotary records into the cluster's cache: their head groups with their copies' numbers, behind those in the cache that the
candidate needs as well, which stay (R300). -/
def loadRotary (s : State) (cl p : Nat) (have' : List (Nat × Nat)) (gs : List Nat) : List (Nat × Nat) × State :=
  gs.foldl (fun acc g =>
    let s := acc.2
    match sieveRead s cl p 0 3 (rotVa (cpCtl s cl p 0x1B0) g) 1024 with
    | .error _ => acc
    | .ok bs =>
      let (n, s) := fresh s
      let keep := (getCp s cl p).rotary.filter (fun r => !r.old || rotHeld s r.num)
      let keep := if keep.length < 16 then keep else
        match keep.findIdx? (fun r => !rotHeld s r.num && !acc.1.any (fun e => e.2 == r.num)) with
        | some i => keep.eraseIdx i
        | none => keep
      (acc.1 ++ [(g, n)], updCp s cl p (fun k => { k with rotary := keep ++ [⟨n, g, bs, false⟩] }))) (have', s)

/-- CAL_STAT (R217): PLACED and FAILED stop at 2^32 - 1. -/
def calStat (s : State) (cl placed failed : Nat) : State :=
  updClu s cl (fun c =>
    let x := (ctlGet c.ctl 0x181).toNat
    let a := min (x % 2 ^ 32 + placed) (2 ^ 32 - 1)
    let b := min (x / 2 ^ 32 + failed) (2 ^ 32 - 1)
    { c with ctl := tabSet c.ctl 0x181 (BitVec.ofNat 64 (a + 2 ^ 32 * b)) })

/-- The held frames leave the eviction queue, and their records note the start tick (R153, R158). -/
def holdPages (s : State) (cl p t : Nat) (xs : List Xl) : State :=
  let s := xs.foldl (fun s x => setLast s p x.fri t) s
  let out := fun (l : List Evict) => l.filter (fun e => !(e.pid == p && xs.any (fun x => x.fri == e.fri)))
  updClu s cl (fun c => { c with evIdle := out c.evIdle, evDemand := out c.evDemand })

/-- The Sieve's translations under the default root stand in the cluster translation cache. Only a valid leaf translation is cached
(R179): the page of a booked copy-on-write copy has the one that its PTE still gives. -/
def cacheXls (s : State) (cl p : Nat) (xs : List Xl) : State :=
  xs.foldl (fun s x => if x.win then s else (xlate s cl p 0 x.vpn).2) s

/-- The Sieve's walks for a plan fill the translation cache: its record and its pages (R179). -/
def fillPlan (cl p : Nat) (s : State) (pl : Plan) : State :=
  let lo := below pl.r.e (32 + 8 * (pl.r.ne + pl.r.pages.length)) / 32768
  let rec' := (List.range (pl.r.e / 32768 + 1 - lo)).map (lo + ·)
  (rec' ++ (recNeeds pl.r).map (·.vpn)).foldl (fun s v => (xlate s cl p pl.task.root v).2) s

/-- Place one plan on a lane at tick `t`: its segment, context and code loads; every block of its code range, one that an earlier
placement still loads included, takes the tick of this placement (R218, R221, R461). -/
def placePlan (s : State) (cl p a t lane eff queue copiesEnd laneSid lg : Nat) (e : Entry) (pl : Plan) (xls : List Xl)
    (rot : List Nat) : State :=
  let (sid, s) := fresh s
  let core := lane / 2
  let ctx := (leastFree (ctxUsed s cl p core) 8 0).getD 0
  let seg : Seg :=
    { sid := sid, blk := BitVec.ofNat 48 pl.r.e, boff := pl.boff, start := t, len := pl.len, resume := pl.resume
      glive := pl.r.glive, vlive := pl.r.vlive, codeLen := pl.r.code, xl := xls, queue := queue, prio := eff
      gang := pl.gang, gid := pl.gid, member := pl.member, occ := pl.occ, rot := rot
      win := (batchOf s cl pl.task).map (fun _ => winBase s (dieOf cl) p / 32768) }
  let blocks := codeBlocks pl.r.e pl.r.code
  let miss := blocks.filter (fun b => !blockHeld s cl p core b)
  let friOf := fun (b : Nat) => ((xls.find? (fun x => x.code && x.vpn == b / 32)).map (·.fri)).getD 0
  let s := updClu s cl (fun c => { c with icache := c.icache.map (fun x =>
    if x.core == core && x.pid == p && blocks.contains (x.va / 1024) then { x with placed := tickNow s } else x) })
  let lane' : Booking := ⟨lane, t, t + lg - 1, if laneSid = 0 then sid else laneSid⟩
  let s := updCp s cl p (fun k => { k with
    cal := k.cal ++ lane' :: pl.occ.map (fun o => ⟨o.1, t + o.2.1, t + o.2.2, sid⟩)
    fills := k.fills.map (fun f =>
        if f.2.1 = core ∧ blocks.contains (f.2.2.1 / 1024) then (f.1, f.2.1, f.2.2.1, f.2.2.2.1, f.2.2.2.2.1, tickNow s) else f)
      ++ miss.mapIdx (fun i b => (a + 1 + i, core, 1024 * b, pl.task.root, friOf b, tickNow s))
    far := k.far.filter (fun f => f.taskId != pl.farId)
    placed := k.placed ++ [{ entry := { e with task := pl.task, work := pl.work, nb := pl.from' }, seg := seg, lane := lane, ctx := ctx
                             copiesEnd := copiesEnd, order := sid, started := false }] })
  let s := holdPages s cl p t xls
  if pl.task.root = 0 then cacheXls s cl p xls else s

/-- How an attempt ends. -/
inductive Att where
  | placed (s : State)
  | fail (s : State)
  | fault (c : Cause) (va : Nat) (s : State)
deriving DecidableEq, Repr

/-- Start far work of a task, one at a time (R219). -/
def startFar (s : State) (cl p task what who vpn : Nat) : State :=
  updCp s cl p (fun k =>
    if k.far.any (fun f => f.taskId == task && !f.done) then k
    else { k with far := k.far ++ [⟨task, what, who, vpn, false, 0⟩] })

/-- Prepare the plans of an attempt one after another: the pages of each, and what they need together. -/
def prepPlans (s : State) (cl p : Nat) : List Plan → Prep → Except (PrepRes × Nat) (List Prep × Prep)
  | [], q => .ok ([], q)
  | pl :: l, q =>
    match prepPlan s cl p pl q with
    | .error r => .error (r, pl.farId)
    | .ok q1 =>
      match prepPlans s cl p l q1 with
      | .error r => .error r
      | .ok (rest, q2) => .ok (q1 :: rest, q2)

/-- Everything the plans of a candidate need: their pages, and its rotary records (R300). -/
def prepCand (s : State) (cl p : Nat) (pls : List Plan) :
    Except (PrepRes × Nat) (List Prep × Prep × List (Nat × Nat) × List Nat) :=
  match prepPlans s cl p pls {} with
  | .error r => .error r
  | .ok (preps, q) =>
    let id := (pls.head?.map (·.farId)).getD 0
    match rotPlan s cl p id (preps.flatMap (·.groups)).eraseDups with
    | .error r => .error (r, id)
    | .ok r => .ok (preps, q, r.1, r.2)

/-- Clear COW of PTEs that are the only ones (R153). -/
def clearCow (s : State) (cl p : Nat) (l : List (Nat × Nat)) : State :=
  l.foldl (fun s e =>
    match walk s p (whoRoot s cl p e.1) e.2 with
    | some x => if pteCow x.pte0 then setPte s p x (x.pte0 &&& ~~~ 8#64) x.pte1 else s
    | none => s) s

/-- Try to place plans at one start tick (R218, R231); `a` is the tick in which the attempt ends, `cal0` the calendar at
its start, `lg` the ticks that every lane is held; `bind` runs before a placement is booked. -/
def tryPlace (s : State) (cl p a eff queue laneSid : Nat) (cal0 : List Booking) (e : Entry) (pls : List Plan)
    (bind : State → State) : Att :=
  let s := pls.foldl (fillPlan cl p) s
  match prepCand s cl p pls with
  | .error (.fault c va, _) => .fault c va s
  | .error (.far w who v, id) => .fail (startFar s cl p id w who v)
  | .error (_, _) => .fail s
  | .ok (preps, q, have', miss) =>
    let n := q.copies.length
    let room := min ((getCp s cl p).quota - framesOf s cl p) (256 - (getClu s cl).frames.length)
    let need := q.copies.filter (fun c => c.what == 1) |>.length
    if room < n then .fail (queueVictims s cl p n)
    else if 0 < need ∧ (freeRecord s p).1.isNone then .fail s
    else
      let lg := pls.foldl (fun m x => max m x.len) 0
      match copySlots (a + 1) (a + 4096) n cal0 with
      | none => .fail s
      | some (slots, cal1) =>
        let copiesEnd := slots.foldl (fun m x => max m (x.2 + 7)) (q.after - 1)
        let lo := pls.foldl (fun m x => max m x.from') (max (a + 1) (copiesEnd + 1))
        match searchStart s cl p a lg cal1 pls (a + 4097 - lg - lo) lo with
        | none => .fail s
        | some (t, lanes) =>
          let now := (getCp s cl p).cal
          let want := slots.flatMap copyBookings
          let clear := want.all (fun b => calFree now b.res b.lo b.hi) && lanes.all (fun k => calFree now k t (t + lg - 1))
            && pls.all (fun pl => occFree now t pl.occ)
          if !clear then .fail s
          else match takeCopies s cl p (q.copies.zip slots) with
            | none => .fail s
            | some (frames, s) =>
              let s := bind (clearCow s cl p (preps.flatMap (·.clear)))
              let (nums, s) := loadRotary s cl p have' miss
              .placed (((pls.zip preps).zip lanes).foldl (fun s x =>
                let pl := x.1.1
                let pr := x.1.2
                let xls := pr.xls.map (fun y =>
                  match y.2 with
                  | none => y.1
                  | some i => match frames[i]? with
                    | some f => { y.1 with fri := f.1, loc := sramLoc cl f.2 }
                    | none => y.1)
                let rot := nums.filter (fun e => pr.groups.contains e.1)
                placePlan s cl p a t x.2 eff queue copiesEnd laneSid lg e pl xls (rot.map (·.2))) s)

end Sys2Proof.Machine
end

