-- ==== Sys2Proof/Machine/Sieve.lean ====
section
/-! DEFINITION. The Sieve at work: attempts and rounds, the requests of a tick boundary, compaction, far work, local
copies, code loads, the start of segments, continuations, gangs, urgency and spills (spec/08 R216-R240, R461; spec/06
R153-R158; spec/09 R254-R265; spec/16 R403, R411). In an event, `cl` and `pid` name the cluster and its partition. -/

namespace Sys2Proof.Machine

/-! ### Heads of queues (R216, R217, R254) -/

/-- AGE_STEP and an entry's effective priority now. -/
def ageStep (s : State) (cl : Nat) : Nat := (ctlGet (getClu s cl).ctl 0x180).toNat
def effNow (s : State) (cl p : Nat) (e : Entry) : Nat :=
  effPrio (ageStep s cl) (qCap (qcfg s cl p e.queue)) e.prio (tickNow s - e.since)

/-- Entries note the tick in which their effective priority first reaches CAP (R254). -/
def markCaps (s : State) (cl p : Nat) : State :=
  let mark := fun (e : Entry) =>
    if e.capAt.isNone ∧ qCap (qcfg s cl p e.queue) ≤ effNow s cl p e then { e with capAt := some (tickNow s) } else e
  updCp s cl p (fun k => { k with queues := k.queues.map (fun q => (q.1, q.2.map mark)) })

/-- The tick in which the head of queue `q` qualifies as urgent: STARVE ticks after it became the head with its effective
priority at CAP (R254). -/
def starveAt (s : State) (cl p q : Nat) : Option Nat :=
  match queueOf (getCp s cl p) q with
  | e :: _ =>
    let at0 := if qCap (qcfg s cl p q) ≤ e.prio then e.headAt
      else match e.headAt, e.capAt with
        | some a, some b => some (max a b)
        | _, _ => none
    at0.map (fun a => a + (cpCtl s cl p 0x1A0).toNat / 2 ^ 8 % 2 ^ 12)
  | [] => none

/-- The queue whose head becomes urgent now, if none is: the first to qualify, then the lowest (R254). -/
def urgentNext (s : State) (cl p : Nat) : Option Nat :=
  if (getCp s cl p).urgent.isSome then none
  else
    ((List.range 16).foldl (fun (best : Option (Nat × Nat)) q =>
      match starveAt s cl p q, best with
      | some a, some b => if a ≤ tickNow s ∧ a < b.1 then some (a, q) else best
      | some a, none => if a ≤ tickNow s then some (a, q) else none
      | none, _ => best) none).map (·.2)

/-- HEAD_URGENT. -/
def execHeadUrgent (s : State) : Out :=
  match urgentNext s s.ev.cl s.ev.pid with
  | some q => .next (updCp s s.ev.cl s.ev.pid (fun k => { k with urgent := some q }))
  | none => .next s

/-! ### Candidates -/

/-- The entry of a candidate while it stands where it was. -/
def candEntry (s : State) (cl p : Nat) (c : Cand) : Option Entry :=
  if c.queue = 16 then
    ((getDie s (dieOf cl)).fq.find? (fun x => x.cl == cl && x.entry.task.pid == p && x.entry.task.id == c.taskId)).map (·.entry)
  else match queueOf (getCp s cl p) c.queue with
    | e :: _ => if e.task.id = c.taskId then some e else none
    | [] => none

/-- The entry leaves its queue (R216). -/
def dropEntry (s : State) (cl p : Nat) (c : Cand) : State :=
  if c.queue = 16 then
    updDie s (dieOf cl) (fun d => { d with fq := d.fq.filter (fun x => !(x.cl == cl && x.entry.task.id == c.taskId)) })
  else
    markHeads (updCp s cl p (fun k => { k with
      queues := tabSet k.queues c.queue ((queueOf k c.queue).drop 1)
      urgent := if k.urgent = some c.queue then none else k.urgent })) cl p

/-- The candidates of a round that begins now, in order (R216). -/
def roundCands (s : State) (cl p : Nat) : List Cand :=
  let k := getCp s cl p
  let fq := ((getDie s (dieOf cl)).fq.filter (fun x =>
    x.cl == cl && x.entry.task.pid == p && decide (x.entry.since < tickNow s))).map
      (fun x => (⟨16, x.entry.task.id, x.entry.prio⟩ : Cand))
  let heads := (List.range 16).filterMap (fun q => match queueOf k q with
    | e :: _ => if e.since < tickNow s then some (⟨q, e.task.id, effNow s cl p e⟩ : Cand) else none
    | [] => none)
  let turn := fun (c : Cand) => (c.queue + 16 - (tabGet k.rp c.prio).getD 0) % 16
  fq ++ sortBy (fun x y => decide (y.prio < x.prio) || (x.prio == y.prio && decide (turn x < turn y))) heads

/-! ### Gangs (R231, R241, R258) -/

/-- Member m's words of a gang descriptor. -/
def gangWord (d : List Word) (m i : Nat) : Word := d.getD (4 + 4 * m + i) 0
def gangCount (d : List Word) : Nat := (d.getD 0 0).toNat % 16
def gangId (d : List Word) : Nat := (d.getD 0 0).toNat / 2 ^ 8 % 2 ^ 8

/-- A field of the descriptor is invalid (R241). -/
def gangBad (d : List Word) : Bool :=
  let w0 := (d.getD 0 0).toNat
  gangCount d == 0 || decide (8 < gangCount d) || w0 / 16 % 16 != 0 || w0 / 2 ^ 23 != 0 || gangId d == 0
    || (d.getD 1 0).toNat / 2 ^ 48 != 0 || d.getD 3 0 != 0
    || (List.range (gangCount d)).any (fun m => gangWord d m 3 != 0)

/-- The first pair of members whose occurrences meet on a relative tick: E of the later one (R214). -/
def memberClash : List Plan → Option Nat
  | [] => none
  | x :: l =>
    match l.find? (fun y => x.occ.any (fun a => y.occ.any (occMeet a))) with
    | some y => some y.r.e
    | none => memberClash l

/-- A pipe-binding entry (R257): BASE, SLOTS, CLEAR. -/
structure PipeEnt where
  base : Nat
  slots : Nat
  clear : Bool
deriving DecidableEq, Repr

def pipeEnt (w0 : Nat) : PipeEnt := ⟨w0 % 2 ^ 48, w0 / 2 ^ 48 % 128, fld w0 55 1 == 1⟩

/-- Two runs of slots overlap. -/
def pipesMeet (a an b bn : Nat) : Bool := decide (a < b + 8 * bn ∧ b < a + 8 * an)

/-- The pipe-binding table at `va` (R257, R258). -/
def readPipes (s : State) (cl p va e : Nat) : Except (Cause × Nat) (List PipeEnt) :=
  if va % 8 ≠ 0 then .error (.booking, e)
  else match sieveWords s cl p 0 va 1 with
    | .error x => .error x
    | .ok h =>
      let n := h.getD 0 0
      if n = 0 ∨ 16 < n then .error (.booking, e)
      else match sieveWords s cl p 0 (va + 8) (2 * n) with
        | .error x => .error x
        | .ok ws =>
          let w := fun (i : Nat) => BitVec.ofNat 64 (ws.getD i 0)
          let es := (List.range n).map (fun i => pipeEnt (ws.getD (2 * i) 0))
          let meet := (List.range n).any (fun i => (List.range i).any (fun j =>
            match es[i]?, es[j]? with
            | some x, some y => pipesMeet x.base x.slots y.base y.slots
            | _, _ => false))
          if meet || (List.range n).any (fun i => (pipePhys s p 0 (w (2 * i)) (w (2 * i + 1))).isNone) then .error (.booking, e)
          else .ok es

/-- The pipes fit beside those bound on the cluster (R258). -/
def pipesFit (k : ClPart) (es : List PipeEnt) : Bool :=
  decide (k.pipes.length + es.length ≤ 32)
    && !es.any (fun e => k.pipes.any (fun q => pipesMeet e.base e.slots q.base.toNat q.slots))

/-- Set the slot words of a pipe at physical address `a` empty. -/
def clearSlots (s : State) (a n : Nat) : State := (List.range n).foldl (fun s i => feSet s (a + 8 * i) false) s

/-- CLEAR sets the slot words of a pipe empty (R258): in the page's frame, or, where a copy-on-write copy of the page is booked, in
the copy, which takes its full-empty bits at its end. -/
def clearPipe (s : State) (p : Nat) (e : PipeEnt) : State :=
  let vpn := e.base / 32768
  let due := fun (c : LocalCopy) => c.pid == p && c.what == 1 && c.who == 0 && c.vpn == vpn
  if !e.clear then s
  else if s.clParts.any (fun k => k.2.copies.any due) then
    { s with clParts := s.clParts.map (fun k => (k.1, { k.2 with
        copies := listUpd k.2.copies due (fun c => { c with clears := c.clears ++ [(e.base % 32768, e.slots)] }) })) }
  else match walk s p 0 vpn with
    | some l => clearSlots s (recPhys s p l.fri + e.base % 32768) e.slots
    | none => s

/-- Bind pipes to a gang; CLEAR sets their slots empty (R258). -/
def bindPipes (cl p gang : Nat) (es : List PipeEnt) (s : State) : State :=
  es.foldl (fun s e =>
    let s := clearPipe s p e
    updCp s cl p (fun k => { k with pipes := k.pipes ++ [⟨gang, BitVec.ofNat 48 e.base, e.slots, tickNow s⟩] })) s

/-- Put a gang back. -/
def updGang (s : State) (cl p num : Nat) (f : Gang → Gang) : State :=
  updCp s cl p (fun k => { k with gangs := listUpd k.gangs (fun g => g.num == num) f })

/-- The round of a gang that has just been placed. -/
def startRound (s : State) (cl p num sid : Nat) : State :=
  let mine := (getCp s cl p).placed.filter (fun q => q.seg.gang == num)
  let last := mine.foldl (fun m q => max m (q.seg.start + q.seg.len)) 0
  updGang s cl p num (fun g => { g with active := g.alive, roundEnd := last, sid := sid, inRound := true })

/-- An attempt on a gang's descriptor (R231, R241, R258). -/
def tryGang (s : State) (cl p a eff : Nat) (cal0 : List Booking) (e : Entry) (d : List Word) : Att :=
  let num := e.task.id
  let e0 := (gangWord d 0 0).toNat % 2 ^ 48
  if gangBad d then .fault .booking e0 s
  else
    let n := gangCount d
    let task := fun (m : Nat) => { e.task with id := s.nextId + m }
    let plans := (List.range n).foldr (fun m (acc : Except (Cause × Nat) (List Plan)) =>
      let w := Work.fresh ((gangWord d m 0).setWidth 48) (gangWord d m 1) (gangWord d m 2)
      match planOf s cl p (task m) w e.nb num (gangId d) m num with
      | .error x => .error x
      | .ok pl => match acc with
        | .error x => .error x
        | .ok l => .ok (pl :: l)) (.ok [])
    match plans with
    | .error x => .fault x.1 x.2 s
    | .ok pls =>
      let pva := (d.getD 1 0).toNat
      let pipes : Except (Cause × Nat) (Option (List PipeEnt)) :=
        if pva = 0 then .ok (some [])
        else if !farDone (getCp s cl p) num 5 0 (pva / 32768) then .ok none
        else match readPipes s cl p pva e0 with
          | .error x => .error x
          | .ok l => .ok (some l)
      match pipes with
      | .error x => .fault x.1 x.2 s
      | .ok none => .fail (startFar s cl p num 5 0 (pva / 32768))
      | .ok (some es) =>
        match memberClash pls with
        | some x => .fault .booking x s
        | none =>
          if !pipesFit (getCp s cl p) es then .fail s
          else
            let sid := s.nextId + n
            match tryPlace { s with nextId := s.nextId + n + 1 } cl p a eff e.queue sid cal0 e pls (bindPipes cl p num es) with
            | .placed s =>
              let g : Gang :=
                { num := num, gid := gangId d, entry := e, members := (List.range n).map (fun m => (m, task m))
                  alive := List.range n, active := [], roundEnd := 0, sid := sid, inRound := true }
              .placed (startRound (updCp s cl p (fun k => { k with gangs := k.gangs ++ [g] })) cl p num sid)
            | r => r

/-- An attempt on the next round of a gang (R232). -/
def tryRound (s : State) (cl p a eff : Nat) (cal0 : List Booking) (e : Entry) (num : Nat) : Att :=
  match (getCp s cl p).gangs.find? (fun g => g.num == num) with
  | none => .fail s
  | some g =>
    let plans := g.alive.foldr (fun m (acc : Except (Cause × Nat) (List Plan)) =>
      match tabGet g.members m with
      | none => acc
      | some k => match planOf s cl p k .cont 0 num g.gid m num with
        | .error x => .error x
        | .ok pl => match acc with
          | .error x => .error x
          | .ok l => .ok (pl :: l)) (.ok [])
    match plans with
    | .error x => .fault x.1 x.2 s
    | .ok pls =>
      match memberClash pls with
      | some x => .fault .booking x s
      | none =>
        let (sid, s) := fresh s
        match tryPlace s cl p a eff e.queue sid cal0 e pls id with
        | .placed s => .placed (startRound s cl p num sid)
        | r => r

/-! ### Attempts and rounds (R216-R218, R403) -/

/-- An attempt on a candidate's entry. -/
def attemptOn (s : State) (cl p a eff : Nat) (cal0 : List Booking) (e : Entry) : Att :=
  match e.work with
  | .gang d => tryGang s cl p a eff cal0 e d
  | .gangRound g => tryRound s cl p a eff cal0 e g
  | w =>
    match planOf s cl p e.task w e.nb 0 0 0 e.task.id with
    | .error x => .fault x.1 x.2 s
    | .ok pl => tryPlace s cl p a eff e.queue 0 cal0 e [pl] id

/-- Cycles of an attempt on an entry (R216). -/
def entryCycles (s : State) (cl p : Nat) (e : Entry) : Nat :=
  match e.work with
  | .gang d =>
    (List.range (max 1 (min 8 (gangCount d)))).foldl
      (fun n m => n + recCycles s cl p e.task.root ((gangWord d m 0).toNat % 2 ^ 48)) 0
  | .gangRound num =>
    max 4 ((s.conts.filter (fun c => c.gang == num)).foldl (fun n c => n + recCycles s cl p c.task.root c.blk.toNat) 0)
  | w => recCycles s cl p e.task.root (workEntry s e.task w)

/-- A placement fault keeps the entry with its record (R403, R405). The two argument words of an entry that carries none
are free (log 17). -/
def placementFault (s : State) (cl : Nat) (e : Entry) (c : Cause) (va : Nat) : State :=
  let (args, s) : (Word × Word) × State :=
    match e.work with
    | .fresh _ a b => ((a, b), s)
    | .gang d => ((gangWord d 0 1, gangWord d 0 2), s)
    | _ =>
      ((Config.freeWord s.nfree, Config.freeWord (s.nfree + 1)), { s with nfree := s.nfree + 2 })
  let g : Bool := match e.work with | .gang _ => true | .gangRound _ => true | _ => false
  let w7 := workEntry s e.task e.work + 2 ^ 48 * (e.queue % 16) + 2 ^ 52 * (e.prio % 128) + 2 ^ 59 * (if g then 1 else 0)
  let ev : FaultEv :=
    { pid := e.task.pid, cl := cl, cause := causeCode c, kind := 2
      word0 := recWord0 (causeCode c) 2 false false e.task.pid cl 0 0 0
      words := [0, 0, 0, BitVec.ofNat 64 va, args.1, args.2, BitVec.ofNat 64 w7], subject := .entry cl e }
  whiskOnCause (queueEvent s ev) cl e.task.pid (causeCode c)

/-- Make the attempt on a candidate; it ends in tick `a`. A die that is too hot refuses it (R436). A fault task counts as
priority 127 of queue 0 (R406). -/
def attempt (s : State) (cl p a : Nat) (cal0 : List Booking) (c : Cand) (e : Entry) : State :=
  let before := (getCp s cl p).placed.length
  match (if s.dev.hot.contains (dieOf cl) then .fail s else attemptOn s cl p a c.prio cal0 e) with
  | .placed s =>
    let n := (getCp s cl p).placed.length - before
    let s := dropEntry s cl p c
    let s := updCp s cl p (fun k => { k with rp := tabSet k.rp c.prio ((c.queue % 16 + 1) % 16) })
    calStat s cl n 0
  | .fail s => calStat s cl 0 1
  | .fault x va s =>
    let s := updCp s cl p (fun k => { k with far := k.far.filter (fun f => f.taskId != e.task.id) })
    placementFault (calStat (dropEntry s cl p c) cl 0 1) cl e x va

/-- A candidate is passed over: an urgent head of at least its priority waits (R254). -/
def heldBack (s : State) (cl p : Nat) (c : Cand) : Bool :=
  match (getCp s cl p).urgent with
  | none => false
  | some q => c.queue != 16 && c.queue != q && (match queueOf (getCp s cl p) q with
    | e :: _ => decide (c.prio ≤ effNow s cl p e)
    | [] => false)

/-- The cluster takes no placement now: a switch is under way (R414). -/
def noPlacing (s : State) (cl : Nat) : Bool := (getClu s cl).switching.isSome

/-- Go on with the round as far as its attempts end within this tick (log 9). -/
def runRound (cl p : Nat) : Nat → State → State
  | 0, s => s
  | fuel + 1, s =>
    let k := getCp s cl p
    match k.cands with
    | [] => s
    | c :: rest =>
      let pop := fun (s : State) (at0 : Nat) =>
        updCp s cl p (fun k => { k with cands := rest, attemptAt := at0, attemptCal := none })
      match candEntry s cl p c with
      | none => runRound cl p fuel (pop s k.attemptAt)
      | some e =>
        if heldBack s cl p c || noPlacing s cl then runRound cl p fuel (pop s k.attemptAt)
        else
          let next := k.attemptAt + entryCycles s cl p e
          let cal0 := k.attemptCal.getD k.cal
          if 8 * (tickNow s + 1) ≤ k.attemptAt then s
          else if 8 * (tickNow s + 1) < next then updCp s cl p (fun k => { k with attemptCal := some cal0 })
          else runRound cl p fuel (attempt (pop s next) cl p (tickNow s) cal0 c e)

/-! ### Requests of the previous tick (R237-R240, R265) -/

/-- Take one tick of a resource from holder `sid`. -/
def unbook (cal : List Booking) (sid res tick : Nat) : List Booking :=
  cal.flatMap (fun b =>
    if b.sid == sid && b.res == res && decide (b.lo ≤ tick ∧ tick ≤ b.hi) then
      (if b.lo < tick then clip b 0 (tick - 1) else []) ++ clip b (tick + 1) b.hi
    else [b])

/-- The occurrences of a BOOK or CALREL, relative to the segment start. -/
def reqOcc (r : CalReq) : Occ :=
  let o := if r.rel then r.rt else 0
  (useOcc r.word.toNat).map (fun x => (x.1, x.2.1 + o, x.2.2 + o))

/-- The segment has not ended: its strand runs, or has stopped and waits for its pending register writes (R227, R402). -/
def segLive (s : State) (sid : Nat) : Bool :=
  s.strands.any (fun e => e.2.seg.sid == sid) || s.parked.any (fun t => t.seg.sid == sid && t.ending.isSome)

/-- BOOK and CALREL: the result and the calendar (R238, R239); `live` says that the segment has not ended. -/
def bookResult (k : ClPart) (r : CalReq) (live : Bool) : Nat × List Booking :=
  let l := reqOcc r
  if useBad r.word.toNat then (3, k.cal)
  else if l.any (fun x => decide (x.2.1 < r.rt + 2) || decide (r.len ≤ x.2.2)) then (2, k.cal)
  else if r.kind = 0 then
    if l.any (fun x => !calFree k.cal x.1 (r.start + x.2.1) (r.start + x.2.2)) then (1, k.cal)
    else (0, if live then k.cal ++ l.map (fun x => ⟨x.1, r.start + x.2.1, r.start + x.2.2, r.sid⟩) else k.cal)
  else
    let busy := fun (res t : Nat) => k.tiles.any (fun c =>
      c.sid == r.sid && c.occ.any (fun o => o.1 == res && decide (o.2.1 ≤ t ∧ t ≤ o.2.2)))
    let ticks := l.flatMap (fun x => (List.range (x.2.2 + 1 - x.2.1)).map (fun i => (x.1, r.start + x.2.1 + i)))
    ticks.foldl (fun acc x =>
      if bookedTo acc.2 r.sid x.1 x.2 && !busy x.1 x.2 then (acc.1 + 1, unbook acc.2 r.sid x.1 x.2) else acc) (0, k.cal)

/-- PIPEBIND's result (R265) and the state. Where several results apply, the first of NOGANG, INVALID of the entry, NOCHANGE,
INVALID by overlap and NOROOM is given (log 91). A gang that has ended meanwhile binds nothing. -/
def pipeResult (s : State) (cl p : Nat) (r : CalReq) : Nat × State :=
  let k := getCp s cl p
  let e := pipeEnt r.word.toNat
  if r.gang = 0 ∨ !k.gangs.any (fun g => g.num == r.gang) then (4, s)
  else match r.phys with
    | none => (3, s)
    | some _ =>
      let same := fun (q : Pipe) => q.gang == r.gang && q.base.toNat == e.base && q.slots == e.slots
      if r.kind = 4 then
        if k.pipes.any same then (0, updCp s cl p (fun k => { k with pipes := k.pipes.eraseP same })) else (1, s)
      else if k.pipes.any same then (1, s)
      else if k.pipes.any (fun q => pipesMeet e.base e.slots q.base.toNat q.slots) then (3, s)
      else if 32 ≤ k.pipes.length then (2, s)
      else
        let s := clearPipe s p e
        (0, updCp s cl p (fun k => { k with pipes := k.pipes ++ [⟨r.gang, BitVec.ofNat 48 e.base, e.slots, r.cycle / 8 + 2⟩] }))

/-- Decide one BOOK, CALREL or PIPEBIND request. -/
def applyRequest (cl p : Nat) (s : State) (r : CalReq) : State :=
  if r.kind ≤ 1 then
    let x := bookResult (getCp s cl p) r (segLive s r.sid)
    writeReg (updCp s cl p (fun k => { k with cal := x.2 })) r.task p (.g r.d) x.1
  else
    let x := pipeResult s cl p r
    writeReg x.2 r.task p (.g r.d) x.1

/-- The calendar holds the tick for the segment of a request: under its own number, or, for a gang member's lane, under its
round's (R207, R231). -/
def calqOwn (k : ClPart) (r : CalReq) (tick : Nat) : Bool :=
  bookedTo k.cal r.sid r.res tick
    || (r.res == r.lane % 8 && k.gangs.any (fun g => g.num == r.gang && g.inRound && bookedTo k.cal g.sid r.res tick))

/-- CALQ's bitmap (R240). Ticks that have passed read as the calendar still holds them: 1 for the bookings of segments that
have not ended, 0 for those that `sweepPast` has dropped (log 92). -/
def calqBits (s : State) (cl p : Nat) (r : CalReq) : Nat :=
  let k := getCp s cl p
  let b := r.start + r.word.toNat % 2 ^ 13 + (if r.rel then r.rt else 0)
  (List.range 64).foldl (fun acc i =>
    let t := b + i
    let hit := decide (t ≤ tickNow s + 4095)
      && (if r.own then calqOwn k r t else bookedAny k.cal r.res t)
    acc + (if hit then 2 ^ i else 0)) 0

/-- The requests that this boundary decides. -/
def applyRequests (s : State) (cl p : Nat) : State :=
  let k := getCp s cl p
  let due := k.reqs.filter (fun r => r.kind != 2 && decide (r.cycle / 8 < tickNow s))
  let s := updCp s cl p (fun k => { k with reqs := k.reqs.filter (fun r => r.kind == 2 || !decide (r.cycle / 8 < tickNow s)) })
  due.foldl (applyRequest cl p) s

/-- The CALQ requests whose bitmap is read at the first cycle of this tick. -/
def applyCalqs (s : State) (cl p : Nat) : State :=
  let k := getCp s cl p
  let due := k.reqs.filter (fun r => r.kind == 2 && decide (r.cycle / 8 + 2 ≤ tickNow s))
  let s := updCp s cl p (fun k => { k with reqs := k.reqs.filter (fun r => !(r.kind == 2 && decide (r.cycle / 8 + 2 ≤ tickNow s))) })
  due.foldl (fun s r => writeReg s r.task p (.g r.d) (calqBits s cl p r)) s

/-! ### Compaction (R223) -/

/-- The placed, unstarted segments that move together: a gang's, or one. -/
def moveGroups (k : ClPart) : List (List Placed) :=
  k.placed.foldl (fun (acc : List (List Placed)) q =>
    if q.seg.gang ≠ 0 ∧ acc.any (fun g => g.any (fun x => x.seg.gang == q.seg.gang)) then
      acc.map (fun g => if g.any (fun x => x.seg.gang == q.seg.gang) then g ++ [q] else g)
    else acc ++ [[q]]) []

/-- Holder numbers of a group: its segments and, for a gang, its lanes. -/
def groupSids (k : ClPart) (g : List Placed) : List Nat :=
  g.map (fun q => q.seg.sid) ++ (k.gangs.filter (fun x => g.any (fun q => q.seg.gang == x.num))).map (·.sid)

/-- Move a group to the earliest tick that R223 allows. -/
def moveGroup (cl p : Nat) (s : State) (g : List Placed) : State :=
  let k := getCp s cl p
  match g with
  | [] => s
  | q0 :: _ =>
    let t := q0.seg.start
    let sids := groupSids k g
    let mine := k.cal.filter (fun b => sids.contains b.sid)
    let rest := k.cal.filter (fun b => !sids.contains b.sid)
    let filled := fun (q : Placed) => k.fills.foldl (fun m f =>
      if f.2.1 = q.lane / 2 ∧ (codeBlocks q.seg.blk.toNat q.seg.codeLen).contains (f.2.2.1 / 1024) then max m (f.1 + 1) else m) 0
    let lo := g.foldl (fun m q => max m (max (q.copiesEnd + 1) (max q.entry.nb (filled q)))) (tickNow s + 1)
    let ok := fun (u : Nat) => mine.all (fun b => calFree rest b.res (b.lo - (t - u)) (b.hi - (t - u)))
    match (List.range (t - lo)).find? (fun i => ok (lo + i)) with
    | none => s
    | some i =>
      let d := t - (lo + i)
      let s := updCp s cl p (fun k => { k with
        cal := rest ++ mine.map (fun b => { b with lo := b.lo - d, hi := b.hi - d })
        placed := k.placed.map (fun q => if sids.contains q.seg.sid then { q with seg := { q.seg with start := q.seg.start - d } } else q)
        gangs := k.gangs.map (fun x => if g.any (fun q => q.seg.gang == x.num) then { x with roundEnd := x.roundEnd - d } else x) })
      g.foldl (fun s q => q.seg.xl.foldl (fun s x => setLast s p x.fri (t - d)) s) s

/-- The compaction pass: at most 8 groups, by priority at placement and then order. -/
def compact (s : State) (cl p : Nat) : State :=
  let key := fun (g : List Placed) => match g with | q :: _ => (q.seg.prio, q.order) | [] => (0, 0)
  let gs := sortBy (fun x y => decide ((key y).1 < (key x).1) || ((key x).1 == (key y).1 && decide ((key x).2 < (key y).2)))
    (moveGroups (getCp s cl p))
  (gs.take 8).foldl (moveGroup cl p) s

/-! ### The tick boundary (R220) -/

/-- A replicated write whose last replica is gone is performed everywhere. -/
def dropDoneRepl (s : State) : State :=
  { s with repl := s.repl.filter (fun w => !(w.seqd && w.left.isEmpty)) }

/-- Bookings that lie in the past go, but those of a segment that has not ended, which its image still shows when its next
instruction should have issued in an earlier tick (R206, R409); replicas that no segment of the cluster holds go
(R371). -/
def sweepPast (s : State) (cl p : Nat) : State :=
  let s := updCp s cl p (fun k => { k with cal := k.cal.filter (fun b => decide (tickNow s ≤ b.hi) || segLive s b.sid) })
  let gone := (getCp s cl p).replicas.filter (fun r => !(heldBy s p r.1).contains cl)
  gone.foldl (fun s r =>
    let s := updCp s cl p (fun k => { k with replicas := k.replicas.filter (fun x => x != r) })
    let s := { s with repl := s.repl.map (fun w => if w.pid == p && w.fri == r.1 then { w with left := setDel w.left cl } else w) }
    dropDoneRepl (dropFrame s cl r.2)) s

/-- TICK_BOUNDARY of a cluster: the changes of the previous tick, then the round (R216, R220). -/
def execTickBoundary (s : State) : Out :=
  let cl := s.ev.cl
  let p := s.ev.pid
  if (getClu s cl).pid ≠ some p then .next s
  else
    let s := (s.clParts.filter (fun e => e.1 / 16 == cl)).foldl (fun s e => markCaps s cl (e.1 % 16)) (sweepPast s cl p)
    let s := compact (applyRequests s cl p) cl p
    let s := applyCalqs s cl p
    let k := getCp s cl p
    let s := if k.cands.isEmpty ∧ k.attemptAt ≤ 8 * tickNow s ∧ !noPlacing s cl then
        updCp s cl p (fun k => { k with cands := roundCands s cl p, attemptAt := 8 * tickNow s })
      else s
    .next (runRound cl p 300 s)

/-! ### Far work, local copies, code loads -/

/-- Read the source of a move or of a copy-on-write copy into a move buffer: the buffer's first byte; none when the page is gone
(R219; log 2, log 12). -/
def readMoveBuffer (s : State) (cl p who vpn : Nat) : Option (Nat × State) :=
  match walk s p (whoRoot s cl p who) vpn with
  | none => none
  | some l =>
    let (n, s) := fresh s
    let buf := 2 ^ 52 + 32768 * n
    let src := recPhys s p l.fri
    some (buf, copyFrame (settleFrame s src) buf src)

/-- A move buffer is free again. -/
def clearMoveBuffer (s : State) (a : Nat) : State := if 2 ^ 52 ≤ a ∧ a < 2 ^ 64 then zeroFrame s a true else s

/-- FAR_WORK_DONE of task `id` (R153, R219): node copies change the tables, and stay when the pool runs out midway; the source
of a move or of a copy-on-write copy is read into a move buffer, and nothing is left of the work when its page is gone, which the
next attempt finds; other work is noted as done. -/
def execFarWorkDone (s : State) : Out :=
  let cl := s.ev.cl
  let p := s.ev.pid
  match (getCp s cl p).far.find? (fun f => f.taskId == s.ev.id && !f.done) with
  | none => .next s
  | some f =>
    if f.what = 0 then
      let s := updCp s cl p (fun k => { k with far := k.far.filter (fun x => x != f) })
      let r := copyDown s (dieOf cl) p (whoRoot s cl p f.who) f.vpn
      .next (if r.1 = rootOf s p (whoRoot s cl p f.who) then r.2.2 else setWhoRoot r.2.2 cl p f.who r.1)
    else
      let note := fun (s : State) (buf : Nat) => updCp s cl p (fun k => { k with
        far := listUpd k.far (fun x => x == f) (fun x => { x with done := true, buf := buf }) })
      if f.what = 1 ∨ f.what = 2 then
        match readMoveBuffer s cl p f.who f.vpn with
        | some x => .next (note x.2 x.1)
        | none => .next (updCp s cl p (fun k => { k with far := k.far.filter (fun x => x != f) }))
      else .next (note s 0)

/-- The PTE of a copy-on-write copy that has been performed takes the new record (R153, R159). -/
def cowDone (s : State) (p : Nat) (c : LocalCopy) (l : Leaf) : State :=
  let s := setPte s p l (setField l.pte0 32 26 c.fri &&& ~~~ 8#64) l.pte1
  let s := setRef s p c.fri 1
  let s := if ptePin l.pte0 then setPins (setPins s p c.fri 1) p c.old (recPins s p c.old - 1) else s
  match refAdd s p c.old 4 (-1) with
  | some (_, s) => s
  | none => s

/-- LOCAL_COPY of the copy into frame `n`: its last tick has passed, and the data is in the new frame (R153, R154,
R159, R219, R371). A move carries into its buffer every write that its source took after the buffer was filled (R203), and a
replica starts from the home copy as it stands, once the cluster's replicas have applied what is sequenced (log 12). -/
def execLocalCopy (s : State) : Out :=
  let cl := s.ev.cl
  let p := s.ev.pid
  match (getCp s cl p).copies.find? (fun c => c.frame == s.ev.n && decide (c.last < tickNow s)) with
  | none => .next s
  | some c =>
    let s := updCp s cl p (fun k => { k with copies := k.copies.filter (fun x => x != c) })
    let dst := sramBase cl c.frame
    match c.what with
    | 0 =>
      if recKind s p c.fri = 0 ∨ recPhys s p c.fri ≠ c.src then .next (clearMoveBuffer (dropFrame s cl c.frame) c.buf)
      else
        let s := copyFrame (settleFrame s c.src) c.buf c.src
        let s := returnStorage (clearMoveBuffer (copyFrame s dst c.buf) c.buf) p c.fri
        .next (invalidate (setLoc s p c.fri 1 (sramLoc cl c.frame)) p c.fri)
    | 1 =>
      if recKind s p c.fri ≠ 1 ∨ recWord s p c.fri 1 ≠ sramLoc cl c.frame then .next s
      else
        let s := clearMoveBuffer (copyFrame s dst (if c.buf = 0 then c.src else c.buf)) c.buf
        let s := c.clears.foldl (fun s e => clearSlots s (dst + e.1) e.2) s
        .next (freeIdle (match walk s p (whoRoot s cl p c.who) c.vpn with
          | some l => if l.fri = c.old ∧ pteCow l.pte0 then cowDone s p c l else s
          | none => s) p c.old)
    | _ =>
      let s := settleRepl s (fun q x => q == p && x == cl)
      let home := recPhys s p c.fri
      let s := copyFrame (settleFrame s home) dst home
      .next (updCp s cl p (fun k => { k with replicas := k.replicas ++ [(c.fri, c.frame)] }))

/-- ICACHE_BLOCK_LOAD into core `n` of the block at VA `id` (R461): a full cache loses the replaceable block of the oldest
placement, the lower address first. -/
def execIcacheBlockLoad (s : State) : Out :=
  let cl := s.ev.cl
  let p := s.ev.pid
  match (getCp s cl p).fills.find? (fun f => f.2.1 == s.ev.n && f.2.2.1 == s.ev.id && decide (f.1 ≤ tickNow s)) with
  | none => .next s
  | some f =>
    let core := f.2.1
    let va := f.2.2.1
    let root := f.2.2.2.1
    let fri := f.2.2.2.2.1
    let s := updCp s cl p (fun k => { k with fills := k.fills.filter (fun x => x != f) })
    let c := getClu s cl
    if blockHeld s cl p core (va / 1024) then .next s
    else
      let src := match (getCp s cl p).copies.find? (fun x => x.fri == fri) with
        | some x => if x.buf = 0 then x.src else x.buf
        | none => recPhys s p fri
      let mine := c.icache.filter (fun b => b.core == core)
      let keep := blocksKept s cl core
      let spare := mine.filter (fun b => !keep.contains (b.pid, b.va / 1024))
      let old := spare.foldl (fun (best : Option IcBlock) b =>
        match best with
        | none => some b
        | some x => if b.placed < x.placed ∨ (b.placed = x.placed ∧ b.va < x.va) then some b else best) none
      let rest := if mine.length < 128 then c.icache else match old with
        | some x => c.icache.filter (fun b => b != x)
        | none => c.icache
      let blk : IcBlock :=
        { core := core, pid := p, root := root, va := va, fri := fri
          data := BitVec.ofNat 8192 (leNat (rdBytes s.mem (src + va % 32768) 1024)), placed := f.2.2.2.2.2 }
      .next (updClu s cl (fun c => { c with icache := blk :: rest }))

/-! ### The start of a segment (R31, R35, R333, R413) -/

/-- A strand with every register 0 in the lane and context of a placed segment. -/
def blankStrand (cl : Nat) (q : Placed) : Strand :=
  let e := q.seg.blk
  { task := q.entry.task, seg := q.seg, cl := cl, lane := q.lane, ctx := q.ctx
    g := Vector.replicate 64 0, v := Vector.replicate 32 0, p := 0, m := Vector.replicate 7 0
    c := Vector.replicate 4 0, rm := 0, flags := 0, late := [], pc0 := e, pc1 := e + 8, pc2 := e + 16, ds := 0, pend := []
    hold := 8 * q.seg.start + q.seg.resume, reach := none, issued := none, lineBuf := [], atIssue := [], lineOut := []
    ending := none, divFree := 0, vdivFree := 0, lastCh := [], lastSend := 0, lastFork := 0
    idle := 0, tileF := 0, batchNo := 1, commits := [], fence := [], slot := 0, resumed := none }

/-- The strand of a continuation (R35): the live registers, predicates, counters, FPCTL, FPFLAG and the triple. -/
def contStrand (t : Strand) (c : Cont) : Strand :=
  { t with g := c.g, v := c.v, p := c.p, c := c.c, rm := c.rm, flags := c.flags, pc0 := c.pc0, pc1 := c.pc1, pc2 := c.pc2
           ds := c.ds, fence := c.fence, resumed := if c.event = 0 then none else some (c.event, c.evarg) }

/-- The strand that an image holds (R408, R410): the saved strand's image is at `a`. -/
def imageStrand (s : State) (a : Nat) (t old : Strand) : Strand :=
  let w := fun (i : Nat) => rdN s (a + 8 * i) 8
  let va := fun (x : Nat) => BitVec.ofNat 48 x
  { t with
    g := Vector.ofFn (fun (i : Fin 64) => if i.val = 0 then 0 else rd64 s (a + 128 + 8 * i.val))
    v := Vector.ofFn (fun (i : Fin 32) => BitVec.ofNat 1024 (rdN s (a + 640 + 128 * i.val) 128))
    m := Vector.ofFn (fun (i : Fin 7) => rd64 s (a + 4736 + 8 * i.val))
    p := BitVec.ofNat 7 (w 4), rm := BitVec.ofNat 2 (w 4 / 2 ^ 7), flags := BitVec.ofNat 7 (w 4 / 2 ^ 9)
    c := ctrOf (rd64 s (a + 24)), pc0 := va (w 0), pc1 := va (w 1), pc2 := va (w 2), ds := fld (w 0) 48 2
    batchNo := old.batchNo, fence := old.fence, resumed := old.resumed }

/-- Free a task's image slot (R408). -/
def freeImage (s : State) (task pid : Nat) : State :=
  match s.images.find? (fun e => e.1 == task) with
  | some e =>
    { updDp s (dieOf e.2.1) pid (fun d => { d with images := setDel d.images e.2.2.1 }) with
      images := s.images.filter (fun x => x.1 != task) }
  | none => s

/-- The first segment of a batch task starts: its members become RUNNING at the end of this boundary's sequence (R329,
R333). -/
def startBatch (s : State) (cl : Nat) (k : Task) : State :=
  match batchOf s cl k with
  | some b => updBatch s (dieOf cl) k.pid b.num (fun b => { b with started := true })
  | none => s

/-- SEGMENT_START of the placed segment `id` at its start tick. -/
def execSegmentStart (s : State) : Out :=
  let cl := s.ev.cl
  let p := s.ev.pid
  match (getCp s cl p).placed.find? (fun q => q.seg.sid == s.ev.id && decide (q.seg.start ≤ tickNow s)) with
  | none => .next s
  | some q =>
    let s := updCp s cl p (fun k => { k with placed := k.placed.filter (fun x => x.seg.sid != q.seg.sid) })
    let t := blankStrand cl q
    let id := q.entry.task.id
    let run := fun (s : State) (t : Strand) => startBatch { s with strands := tabSet s.strands (laneKey t) t } cl q.entry.task
    match q.entry.work with
    | .fresh _ a b =>
      .next (run s { t with g := (t.g.set 1 a).set 2 b })
    | .cont =>
      match contFind s id with
      | some c => .next (run { s with conts := s.conts.filter (fun x => x.task.id != id) } (contStrand t c))
      | none => .next s
    | .remainder old =>
      match imageOf s id p with
      | some a => .next (run (freeImage s id p) (imageStrand s a t old))
      | none => .next s
    | _ => .next s

/-! ### Continuations (R228-R230) -/

/-- CONTINUATION_RECORD_COMPLETE of task `id`: its context is free. -/
def execContinuationRecordComplete (s : State) : Out :=
  let hit := fun (c : Cont) => c.task.id == s.ev.id && decide (c.complete ≤ tickNow s)
  let l := listUpd s.conts hit (fun c => { c with closing := false })
  .next { s with conts := l }

/-- The full-empty bit of the word that a continuation watches is 1 (R228). -/
def watchedFull (s : State) (c : Cont) : Bool :=
  let va := c.evarg.toNat % 2 ^ 48
  match walk s c.task.pid c.task.root (va / 32768) with
  | some l => feGet s (recPhys s c.task.pid l.fri + va % 32768)
  | none => false

/-- The event of a continuation has fired (R225, R228). -/
def eventReady (s : State) (c : Cont) : Bool :=
  let a := c.evarg.toNat
  decide (c.complete ≤ tickNow s + 1) && match c.event with
  | 1 => c.fired || decide ((c.c[(a % 4) % 4]).toNat ≤ a / 2 ^ 16 % 2 ^ 16)
  | 2 => c.fired || watchedFull s c
  | 3 => c.fired || decide ((chanOps s c.cl (a % 4)).length < 16)
  | 4 => c.fired
  | 5 => c.fired || (getCp s c.cl c.task.pid).inbox.any (msgMatches (a / 2 ^ 16 % 2 == 1) (a % 2 ^ 16))
  | 6 => c.fired || !((tabGet (getDp s (dieOf c.cl) c.task.pid).dqIn (a % 8)).getD []).isEmpty
  | 7 => decide (a ≤ tickNow s)
  | _ => true

/-- Queue a work item of a task again: in the privileged fault queue for a fault task, else at the tail of its queue
(R228, R406, R413). -/
def requeue (s : State) (cl p q prio : Nat) (k : Task) (w : Work) : State :=
  let e : Entry :=
    { task := k, work := w, queue := q, prio := prio, since := tickNow s, nbt := 0, nb := 0, headAt := none, capAt := none }
  if k.fq then updDie s (dieOf cl) (fun d => { d with fq := d.fq ++ [⟨cl, { e with queue := 0 }, false⟩] })
  else appendEntry s cl p q e false

/-- Queue a continuation whose event has fired: in the cluster TGT with ROAM (R228, R230). -/
def queueCont (s : State) (c : Cont) : State :=
  let s := updCont s c.task.id (fun x => { x with queued := true })
  requeue s (if c.roam then 32 * dieOf c.cl + c.tgt else c.cl) c.task.pid c.queue c.prio c.task .cont

/-- The continuation of task `id` waits alone, its event has fired, and it is of this sort. -/
def queueWhen (s : State) (sort : Cont → Bool) : Out :=
  match contFind s s.ev.id with
  | some c => if !c.queued && c.gang == 0 && eventReady s c && sort c then .next (queueCont s c) else .next s
  | none => .next s

/-- CONTINUATION_QUEUED. -/
def execContinuationQueued (s : State) : Out := queueWhen s (fun c => c.event != 7)

/-- WATCH_TIMEOUT: the time event of an LDF that found no watch entry (R228). -/
def execWatchTimeout (s : State) : Out := queueWhen s (fun c => c.event == 7 && c.evAddr != 0)

/-- YIELD_TIME_EXPIRY (R235). -/
def execYieldTimeExpiry (s : State) : Out := queueWhen s (fun c => c.event == 7 && c.evAddr == 0)

/-! ### Gang rounds (R232) -/

/-- A gang with no member left ends: its pipes are released (R258). -/
def endGang (s : State) (cl p num : Nat) : State :=
  updCp s cl p (fun k => { k with
    gangs := k.gangs.filter (fun g => g.num != num), pipes := k.pipes.filter (fun q => q.gang != num) })

/-- The round of a gang is over. -/
def roundOver (s : State) (g : Gang) : Bool :=
  g.alive.isEmpty || (g.inRound && (g.active.isEmpty || decide (g.roundEnd ≤ tickNow s)))

/-- GANG_ROUND_END of gang `id`: the held lanes are released; members that have not ended leave the gang (R232): one that is still
parked, and one whose remainder has been queued meanwhile (log 104). -/
def execGangRoundEnd (s : State) : Out :=
  let cl := s.ev.cl
  let p := s.ev.pid
  match (getCp s cl p).gangs.find? (fun g => g.num == s.ev.id) with
  | none => .next s
  | some g =>
    if !roundOver s g then .next s
    else
      let s := updCp s cl p (fun k => releaseFrom k g.sid (tickNow s))
      let alive := g.alive.filter (fun m => !g.active.contains m)
      let leave := fun (t : Strand) =>
        if t.seg.gang = g.num ∧ g.active.contains t.seg.member then
          { t with seg := { t.seg with gang := 0 }, task := { t.task with left := true } } else t
      let s := { s with strands := s.strands.map (fun e => (e.1, leave e.2)), parked := s.parked.map leave }
      if alive.isEmpty then .next (endGang s cl p g.num)
      else .next (updGang s cl p g.num (fun g => { g with alive := alive, active := [], inRound := false }))

/-- The continuations of a gang's members. -/
def gangConts (s : State) (g : Gang) : List Cont :=
  g.alive.filterMap (fun m => s.conts.find? (fun c => c.gang == g.num && c.member == m))

/-- The next round can be offered: every member's event has fired. -/
def roundReady (s : State) (g : Gang) : Bool :=
  let cs := gangConts s g
  !g.inRound && cs.length == g.alive.length && cs.all (fun c => !c.queued && eventReady s c)

/-- GANG_NEXT_ROUND of gang `id`: the continuations are offered as one entry, at their highest priority, to the gang's own
cluster, whatever a member's SPLIT.ROAM names (log 81). -/
def execGangNextRound (s : State) : Out :=
  let cl := s.ev.cl
  let p := s.ev.pid
  match (getCp s cl p).gangs.find? (fun g => g.num == s.ev.id) with
  | none => .next s
  | some g =>
    if !roundReady s g then .next s
    else
      let pr := (gangConts s g).foldl (fun m c => max m c.prio) 0
      let s := { s with conts := s.conts.map (fun c => if c.gang = g.num then { c with queued := true } else c) }
      .next (requeue s cl p g.entry.queue pr g.entry.task (.gangRound g.num))

/-! ### Spills (R157, R158) -/

/-- The frame is still an SRAM frame of the cluster that may be spilled. -/
def spillable (s : State) (cl : Nat) (v : Evict) : Bool :=
  recKind s v.pid v.fri == 1 && locCluster (recWord s v.pid v.fri 1) == cl && recPins s v.pid v.fri == 0
    && !held s v.pid v.fri

/-- Frames that may no longer be spilled leave the queue. -/
def cleanEvict (s : State) (cl : Nat) : State :=
  updClu s cl (fun c => { c with evIdle := c.evIdle.filter (spillable s cl), evDemand := c.evDemand.filter (spillable s cl) })

/-- A free slot of the spill area of a cluster's stack (R157). -/
def spillSlot (s : State) (cl p : Nat) : Option Nat :=
  leastFree (((getDp s (dieOf cl) p).spill.filter (fun x => x / 32768 == spillStack cl)).map (· % 32768)) 32768 0

/-- The last unit is written: the frame's data lies in its slot, and LOC names it. -/
def spillLast (s : State) (cl slot : Nat) (v : Evict) : State :=
  let p := v.pid
  let loc := spillBase s cl p + 32768 * slot
  let f := locFrame (recWord s p v.fri 1)
  let s := dropFrame (copyFrame (settleFrame s (recPhys s p v.fri)) loc (recPhys s p v.fri)) cl f
  let s := updCp s cl p (fun k => { k with freed := setDel k.freed f ++ [f] })
  let s := updDp s (dieOf cl) p (fun d => { d with spill := setAdd d.spill (32768 * spillStack cl + slot) })
  let s := invalidate (setLoc s p v.fri 2 (BitVec.ofNat 64 loc)) p v.fri
  if v.op = 0 then s else doneOp s v.op 0

/-- Put a list back for the part of the eviction queue whose head moves: the idle part when it holds a frame (R158). -/
def putEvict (s : State) (cl : Nat) (idle : Bool) (l : List Evict) : State :=
  updClu s cl (fun c => if idle then { c with evIdle := l } else { c with evDemand := l })

/-- A window begins: it moves 8 KiB of the oldest idle frame, else of the oldest demand frame. Before the first byte moves the
translations are dropped; without a free slot the window passes unused (R157, R158). -/
def windowBegins (s : State) (cl : Nat) : State :=
  let s := cleanEvict s cl
  let c := getClu s cl
  match c.evIdle ++ c.evDemand with
  | [] => s
  | v :: _ =>
    if (spillSlot s cl v.pid).isNone then s
    else
      let idle := !c.evIdle.isEmpty
      let s := if v.units = 0 then invalidate s v.pid v.fri else s
      putEvict s cl idle ({ v with moving := true } :: (if idle then c.evIdle else c.evDemand).drop 1)

/-- A window ends: its unit is written, and with the fourth the frame lies in its slot (R157). A frame that has left the queue
meanwhile stays where it is (R158). -/
def windowEnds (s : State) (cl : Nat) : State :=
  let s := cleanEvict s cl
  let c := getClu s cl
  let idle := c.evIdle.any (·.moving)
  let l := if idle then c.evIdle else c.evDemand
  match l.find? (·.moving) with
  | none => s
  | some v =>
    let rest := l.filter (fun x => !x.moving)
    if v.units < 3 then putEvict s cl idle ({ v with units := v.units + 1, moving := false } :: rest)
    else match spillSlot s cl v.pid with
      | none => putEvict s cl idle ({ v with moving := false } :: rest)
      | some slot => spillLast (putEvict s cl idle rest) cl slot v

/-- SPILL_WINDOW: the window of ticks 48-63 of a period of 64 begins, or has ended. -/
def execSpillWindow (s : State) : Out :=
  if tickNow s % 64 = 48 then .next (windowBegins s s.ev.cl)
  else if tickNow s % 64 = 0 then .next (windowEnds s s.ev.cl)
  else .next s

end Sys2Proof.Machine
end

