-- ==== Sys2Proof/Machine/Tile.lean ====
section
/-! DEFINITION. The matrix engine: tile commands of majors 0x30-0x32 and 0x1F, their start, and commit batches (spec/10
R266-R293). -/

namespace Sys2Proof.Machine

/-! ### Pages named by a tile command (R267, R280, R281) -/

def TilePage.view (p : TilePage) : PageView := ⟨p.va, p.phys, p.fmt, p.blk, p.axis, p.loc⟩
def TilePage.w (p : TilePage) : Nat := contW p.fmt

/-- The page at `va` with its scale page and rotary record: RESIDENCY, or the page and whether FORMAT follows (R281
steps 3 and 5). `dec`: the command decodes the page. -/
def tilePage (s : State) (t : Strand) (va mode : Nat) (dec : Bool) : Except (Cause × Word) (TilePage × Bool) :=
  let res := fun (a : Nat) => (.error (.residency, BitVec.ofNat 64 a) : Except (Cause × Word) (TilePage × Bool))
  match syncXl t s false va with
  | none => res va
  | some x =>
    let v := pageView s t.task.pid x.fri va (framePhys 1 x.loc)
    let scale : Option (Nat × Bool) :=
      if v.blk = 0 then some (0, false)
      else match syncXl t s false v.scaleVa with
        | none => none
        | some y => some (xlPhys y v.scaleVa, v.ok && !v.scaleOk (recFmt s t.task.pid y.fri))
    match scale with
    | none => res v.scaleVa
    | some (sc, bad) =>
      let p : TilePage :=
        { va := v.va, phys := v.phys, fmt := v.fmt, blk := v.blk, axis := v.axis, loc := v.loc
          tile := va % 32768 / (512 * v.w), mode := mode, scale := sc, rope := none }
      let bad := bad || !v.ok
      if !dec || !pteRope x.pte0 then .ok (p, bad)
      else match rotaryFor s t (pteHgrp x.pte1) with
        | .error .residency => res va
        | .error _ => .ok (p, true)
        | .ok bs => .ok ({ p with rope := some (bs, ptePair x.pte0, ptePos x.pte1) }, bad || !hgFits bs v.w)

/-- The address is no tile start of its page, or a two-tile operand starts at the last tile (R267). -/
def tileMisaligned (p : TilePage) (va : Nat) (two : Bool) : Bool :=
  decide (1 ≤ p.fmt ∧ p.fmt ≤ 12) &&
    (decide (va % (512 * p.w) ≠ 0) || (two && decide (p.tile + 1 = 64 / p.w)))

/-- A ROPE page read in a column mode, and a block axis against R87. -/
def ropeBad (p : TilePage) : Bool := p.rope.isSome && decide (2 ≤ p.mode)
def axisBad (p : TilePage) (ax : Nat) : Bool := p.blk != 0 && p.axis != ax

/-- A logical element: tile, row, column. -/
abbrev Cell := Nat × Nat × Nat

/-- K index `k` of an operand along its columns, or its rows (R267, R279). -/
def kCell (tile : Nat) (alongRows : Bool) (x k : Nat) : Cell :=
  if alongRows then (tile + k / 64, k % 64, x) else (tile + k / 64, x, k % 64)

/-- The cells of `n` lines over the K indices kb .. kb + d − 1. -/
def lineCells (tile : Nat) (alongRows : Bool) (n kb d : Nat) : List (List Cell) :=
  (List.range n).map (fun x => (List.range d).map (fun k => kCell tile alongRows x (kb + k)))

/-- The rows that cells of a ROPE page lie in, in full, with the partners of their elements (R280). -/
def ropeRows (p : TilePage) (l : List Cell) : List Cell :=
  match p.rope with
  | none => []
  | some (bs, split, _) =>
    ((l.map (fun c => (c.1, c.2.1))).eraseDups).flatMap (fun e => (List.range 64).flatMap (fun c =>
      match partnerOf bs split e.1 c with
      | none => [(e.1, e.2, c)]
      | some (_, _, t', c') => [(e.1, e.2, c), (t', e.2, c')]))

/-- Join a range to the one before it when they touch. -/
def coalesce : List (Nat × Nat) → List (Nat × Nat)
  | [] => []
  | x :: l =>
    match coalesce l with
    | [] => [x]
    | y :: r => if x.1 ≤ y.1 ∧ y.1 ≤ x.1 + x.2 then (x.1, max x.2 (y.1 + y.2 - x.1)) :: r else x :: y :: r

/-- Physical ranges of cells. -/
def cellRanges (p : TilePage) (l : List Cell) : List (Nat × Nat) :=
  coalesce ((l ++ ropeRows p l).map (fun c => (p.phys + eltByte p.w c.1 p.mode c.2.1 c.2.2, eltBytes p.w)))

/-- Physical ranges of the scale entries of cells. -/
def scaleRanges (p : TilePage) (l : List Cell) : List (Nat × Nat) :=
  if p.blk = 0 then []
  else coalesce (l.map (fun c => (p.scale + scaleByte p.blk (p.view.block c.1 c.2.1 c.2.2), scaleEsz p.blk)))

/-- The scale area as a command leases it (R274). -/
def scaleArea (p : TilePage) : List (Nat × Nat) := if p.blk = 0 then [] else [(p.scale, p.view.scaleSize)]

/-- What a command leases of a page for cells (R274). -/
def leaseCells (p : TilePage) (l : List Cell) : List (Nat × Nat) := cellRanges p l ++ scaleArea p

/-- A word among what is read has an uncorrectable soft error (R277). -/
def cellsBad (s : State) (p : TilePage) (l : List Cell) : Bool :=
  (cellRanges p l ++ scaleRanges p l).any (fun r => eccBad s r.1 r.2)

/-- The corrected errors among what is read are counted (R435). -/
def cellsSoft (s : State) (p : TilePage) (l : List Cell) : State :=
  if s.soft.isEmpty then s else (cellRanges p l ++ scaleRanges p l).foldl (fun s r => correctSoft s r.1 r.2) s

/-- NV of a signaling NaN in a container (R70). -/
def snanElt (fmt x : Nat) : FpFlags := if fmt = 11 then 0 else snanFlag (fmtOfCode fmt) [x]

/-- The rotated value of a cell of a ROPE page as FP32, none for an element that is not rotated (R301-R303); `mat` on the
matrix path, whose decoding sets no flag but FMT (R73). DESIGN CHOICE (log 85): an FP32-scaled or Q4N page is rotated from
the values of R141 there too, bit for bit as on the other paths (R303). -/
def rotCell (mat : Bool) (s : State) (p : TilePage) (c : Cell) : Option (Nat × FpFlags) :=
  match p.rope with
  | none => none
  | some (bs, split, pos) =>
    match partnerOf bs split c.1 c.2.2 with
    | none => none
    | some _ =>
      let dec := if mat then p.view.f32m s p.scale p.mode else p.view.f32 s p.scale p.mode
      some (rotElt dec bs split pos c.1 c.2.1 c.2.2)

/-- An FP32 pattern as it enters a product: rounded by RN_BF16 unless the page is FP32 (R280). -/
def rotIn (fmt x : Nat) : Xr := if fmt = 1 then decodeFmt .fp32 x else rnBf16x (decodeFmt .fp32 x)

/-- A cell as the multiply consumes it (R73, R280). -/
def cellVal (s : State) (p : TilePage) (c : Cell) : Xr × FpFlags :=
  let raw := rawElt s p.phys p.w c.1 p.mode c.2.1 c.2.2
  match rotCell true s p c with
  | some (x, f) => (rotIn p.fmt x, f ||| snanElt p.fmt raw)
  | none =>
    let d := p.view.dec s p.scale p.mode c.1 c.2.1 c.2.2
    (d.1, d.2 ||| snanElt p.fmt raw)

/-- A cell of a bias or residual page: as VUNPK decodes it, rotated on a ROPE page (R288, R303). -/
def cellF32 (s : State) (p : TilePage) (c : Cell) : Nat × FpFlags :=
  let v := (rotCell false s p c).getD (p.view.f32 s p.scale p.mode c.1 c.2.1 c.2.2)
  (v.1, v.2 ||| snanElt p.fmt (rawElt s p.phys p.w c.1 p.mode c.2.1 c.2.2))

/-- The flags of rotating the rows that a command reads (R280). -/
def ropeFlags (s : State) (p : TilePage) (l : List Cell) : FpFlags :=
  (ropeRows p l).foldl (fun f c => f ||| (cellVal s p c).2) 0

/-! ### Issue (R269, R270, R274) -/

/-- What a command holds beside its occupancy. -/
structure TilePrep where
  args : List Word := []
  pages : List TilePage := []
  leases : List (Nat × Nat) := []
  acc : Option Nat := none
deriving DecidableEq, Repr

/-- Occupancy on every bank group. -/
def bgOcc (n : Nat) : List (Nat × Nat) := (List.range 8).map (fun b => (17 + b, n))

/-- The commands that read their operands as they stood at issue (R276). -/
def readsAtIssue : Instr → Bool
  | .tmma _ _ _ _ _ _ _ _ _ _ => true
  | .tmmat _ _ _ _ _ _ _ _ _ _ => true
  | .tmmbt _ _ _ _ _ _ _ _ _ _ => true
  | .tmmring _ _ _ _ _ _ _ _ => true
  | .tblatch _ _ _ _ _ _ => true
  | _ => false

/-- A tile command: `occ` gives ticks on each resource, MXE first; it starts in tick s of R269. What is on its way into
the ranges that it leases is performed first, and a multiply or latch load takes its operands as they stand then (R275, R276). -/
def tileForm (i : Instr) (g : Guard) (adv : Strand → Strand) (occ : List (Nat × Nat)) (dst : Option R6)
    (prep : Strand → State → Nat → Except (Cause × Word) TilePrep) (s : State) : Out :=
  issue i g adv (fun t s =>
    let st := max (relCycle t s / 8 + 1) t.tileF
    let k := getCp s t.cl t.task.pid
    let ticks := occ.flatMap (fun o => (List.range o.2).map (fun n => (o.1, st + n)))
    match ticks.find? (fun e => !bookedTo k.cal t.seg.sid e.1 (t.seg.start + e.2)) with
    | some (r, n) =>
      takeFault s t { cause := .booking, word := (encode i).headD 0, w7 := BitVec.ofNat 64 (r + 2 ^ 5 * (n % 4096)) }
    | none =>
      let at0 := t.seg.start + st
      match prep t s at0 with
      | .error (c, va) => raise i c s t va
      | .ok q =>
        let len := occ.foldl (fun m o => max m o.2) 0
        let s := settleLeases s t.cl q.leases
        let c : TileCmd :=
          { id := s.nextId, instr := i, task := t.task.id, sid := t.seg.sid, pc := t.pc0, word0 := (encode i).headD 0
            batch := t.batchNo, start := 8 * at0, done := 8 * (at0 + len) - 1
            occ := occ.map (fun o => (o.1, at0, at0 + o.2 - 1)), args := q.args, pages := q.pages, leases := q.leases
            snap := if readsAtIssue i then q.leases.map (fun r => (r.1, rdBytes s.mem r.1 r.2)) else []
            acc := q.acc, started := false, commit := none, flags := 0, out := [], ecc := false }
        let t := { t with tileF := st + (occ.headD (8, 0)).2 }
        let t := match dst with
          | some d => setG s.cycle (8 * (at0 + 1) - s.cycle) d (getG t d) t
          | none => t
        let s := { putStrand s (adv t) with nextId := s.nextId + 1 }
        updCp s t.cl t.task.pid (fun k => { k with tiles := k.tiles ++ [c] })) s

/-- Native depth of a format for R85; a format that does not decode does not bind. -/
def depthOf (fmt : Nat) : Nat := if 1 ≤ fmt ∧ fmt ≤ 12 then nativeDepth fmt else 128

/-- K extent of a stored B operand (R285). -/
def extOf (fmt : Nat) : Nat := if depthOf fmt = 128 then 128 else 64

/-- SLICE does not fit the depth (R267). -/
def sliceBad (sl d : Nat) : Bool := if d = 128 then sl != 0 else decide (64 / d ≤ sl)

def tva (t : Strand) (r : R6) : Nat := va48 (getG t r)
def tw (n : Nat) : Word := BitVec.ofNat 64 n

/-- The checks of a multiply's operands A and B, and its lease ranges (R274, R281). -/
def mulPrep (form : Nat) (acc : BitVec 3) (ga gb : R6) (la lb : BitVec 2) (slice : BitVec 3) (mr nc : BitVec 7)
    (t : Strand) (s : State) : Except (Cause × Word) TilePrep :=
  match tilePage s t (tva t ga) la.toNat true with
  | .error e => .error e
  | .ok (a, badA) =>
    match tilePage s t (tva t gb) lb.toNat true with
    | .error e => .error e
    | .ok (b, badB) =>
      let d := min (depthOf a.fmt) (depthOf b.fmt)
      let kb := slice.toNat * d
      if tileMisaligned a (tva t ga) (d == 128) then .error (.align, tw (tva t ga))
      else if tileMisaligned b (tva t gb) (d == 128) then .error (.align, tw (tva t gb))
      else if badA || badB || ropeBad a || ropeBad b || axisBad a (if form = 1 then 1 else 0)
          || axisBad b (if form = 2 then 0 else 1) || sliceBad slice.toNat d then .error (.format, tw (tva t ga))
      else
        let ca := (lineCells a.tile (form == 1) mr.toNat kb d).flatten
        let cb := (lineCells b.tile (form != 2) nc.toNat kb d).flatten
        .ok { args := [tw (acc.toNat), tw form, tw (slice.toNat), tw (mr.toNat), tw (nc.toNat)], pages := [a, b]
              leases := leaseCells a ca ++ leaseCells b cb, acc := some acc.toNat }

def mulOcc (acc : BitVec 3) : List (Nat × Nat) := (8, 2) :: (9 + acc.toNat, 2) :: bgOcc 2

/-- TMMA (R279). -/
def execTmma (g : Guard) (acc : BitVec 3) (ga gb : R6) (la lb : BitVec 2) (slice : BitVec 3) (mr nc : BitVec 7)
    (kd : BitVec 8) (s : State) : Out :=
  tileForm (.tmma g acc ga gb la lb slice mr nc kd) g advanceTcw (mulOcc acc) none
    (fun t s _ => mulPrep 0 acc ga gb la lb slice mr nc t s) s

/-- TMMAT (R279). -/
def execTmmat (g : Guard) (acc : BitVec 3) (ga gb : R6) (la lb : BitVec 2) (slice : BitVec 3) (mr nc : BitVec 7)
    (kd : BitVec 8) (s : State) : Out :=
  tileForm (.tmmat g acc ga gb la lb slice mr nc kd) g advanceTcw (mulOcc acc) none
    (fun t s _ => mulPrep 1 acc ga gb la lb slice mr nc t s) s

/-- TMMBT (R279). -/
def execTmmbt (g : Guard) (acc : BitVec 3) (ga gb : R6) (la lb : BitVec 2) (slice : BitVec 3) (mr nc : BitVec 7)
    (kd : BitVec 8) (s : State) : Out :=
  tileForm (.tmmbt g acc ga gb la lb slice mr nc kd) g advanceTcw (mulOcc acc) none
    (fun t s _ => mulPrep 2 acc ga gb la lb slice mr nc t s) s

/-- A B store as after reset (R282). -/
def BStore.empty : BStore :=
  { elts := [], scales := [], fmt := 0, blk := 0, axis := 0, tag := 0, fresh := false, rot := false, nan := false }

/-- The format of an inbound buffer as a take in tick `n` will find it: the last arrival before it. -/
def boxFmt (k : ClPart) (west : Bool) (n : Nat) : Nat :=
  let now := ((if west then k.ie else k.iw).getD BStore.empty).fmt
  (k.ring.filter (fun e => e.2.1 == (if west then 1 else 0) && decide (e.1 ≤ 8 * n))).foldl (fun _ e => e.2.2.fmt) now

/-- The format that the latch will hold in tick `n`, from the latch loads that start before it (R268, R285). -/
def latchFmt (k : ClPart) (n : Nat) : Nat :=
  let loads := k.tiles.filterMap (fun c => match c.instr with
    | .tblatch _ src _ _ _ _ =>
      if c.started || src = 1 || src = 2 || decide (8 * n ≤ c.start) then none else some (c.start / 8, src.toNat, c.pages)
    | _ => none)
  (loads.foldl (fun (best : Nat × Nat) l =>
    if l.1 < best.1 then best
    else (l.1, if l.2.1 = 0 then (l.2.2.map (·.fmt)).headD 0 else boxFmt k (l.2.1 == 4) l.1))
    (0, (k.latch.getD BStore.empty).fmt)).2

/-- TMMRING (R279, R281). -/
def execTmmring (g : Guard) (acc : BitVec 3) (ga : R6) (la : BitVec 2) (slice : BitVec 3) (mr nc : BitVec 7)
    (kd : BitVec 8) (s : State) : Out :=
  tileForm (.tmmring g acc ga la slice mr nc kd) g advanceTcw (mulOcc acc) none (fun t s n =>
    match tilePage s t (tva t ga) la.toNat true with
    | .error e => .error e
    | .ok (a, badA) =>
      let lf := latchFmt (getCp s t.cl t.task.pid) n
      let d := min (depthOf a.fmt) (depthOf lf)
      if tileMisaligned a (tva t ga) (d == 128) then .error (.align, tw (tva t ga))
      else if badA || ropeBad a || axisBad a 0 || sliceBad slice.toNat d || lf == 0
          || decide (extOf lf < (slice.toNat + 1) * d) then .error (.format, tw (tva t ga))
      else
        let ca := (lineCells a.tile false mr.toNat (slice.toNat * d) d).flatten
        .ok { args := [tw (acc.toNat), 3, tw (slice.toNat), tw (mr.toNat), tw (nc.toNat)], pages := [a]
              leases := leaseCells a ca, acc := some acc.toNat }) s

/-! ### The die ring (R283) -/

/-- Ring position of a cluster on its die, and the cluster there. -/
def ringPos (cl : Nat) : Nat :=
  let i := cl % 32 / 8
  let j := cl % 8
  if i % 2 = 0 then 8 * i + j else 8 * i + 7 - j

def ringCluster (die p : Nat) : Nat :=
  let i := p / 8 % 4
  32 * die + 8 * i + (if i % 2 = 0 then p % 8 else 7 - p % 8)

/-- The neighbour that a send goes to: east for SRC 1, west for SRC 2. -/
def ringNext (cl : Nat) (west : Bool) : Nat :=
  ringCluster (dieOf cl) ((ringPos cl + if west then 31 else 1) % 32)

/-- The cells of a B block in K order (R285). -/
def latchCells (p : TilePage) (tr : Bool) : List Cell :=
  (List.range (extOf p.fmt)).flatMap (fun k => (List.range 64).map (fun j => kCell p.tile (!tr) j k))

/-- TBLATCH (R284, R285). -/
def execTblatch (g : Guard) (src : BitVec 3) (ga gd : R6) (lb : BitVec 2) (tr : Bool) (s : State) : Out :=
  let i := Instr.tblatch g src ga gd lb tr
  if src = 0 then
    tileForm i g advanceTcw ((8, 2) :: bgOcc 2) none (fun t s _ =>
      match tilePage s t (tva t ga) lb.toNat true with
      | .error e => .error e
      | .ok (p, bad) =>
        if tileMisaligned p (tva t ga) (depthOf p.fmt == 128) then .error (.align, tw (tva t ga))
        else if bad || ropeBad p || axisBad p (if tr then 0 else 1) then .error (.format, tw (tva t ga))
        else .ok { pages := [p], leases := leaseCells p (latchCells p tr) }) s
  else if src = 1 ∨ src = 2 then
    tileForm i g advanceTcw [(8, 1), (if src = 1 then 29 else 30, 2)] none (fun t s _ =>
      if inRect s t.task.pid (ringNext t.cl (src == 2)) then .ok { args := [getG t ga] }
      else .error (.tenant, 0)) s
  else tileForm i g advanceTcw [(8, 1)] (some gd) (fun _ _ _ => .ok { args := [toW gd] }) s

/-! ### Drains (R286-R290) -/

/-- A drain writes the target and its scale page as a store would (R166, R290). -/
def noStore (s : State) (t : Strand) (va : Nat) : Bool :=
  match syncXl t s false va with
  | none => true
  | some x => !pteW x.pte0 || pteCow x.pte0 || pteRepl x.pte0 || (inPageSet t va && !x.wr)

/-- The cells of the bias vector: 64 elements of its page's order from its VA (R288). -/
def biasCells (p : TilePage) (va : Nat) : List Cell :=
  (List.range 64).map (fun j =>
    let n := va % 32768 * 8 / p.w + j
    (n / 4096, n % 4096 / 64, n % 64))

/-- A bias address that R290 does not allow. -/
def biasMisaligned (p : TilePage) (va : Nat) : Bool :=
  decide (1 ≤ p.fmt ∧ p.fmt ≤ 12) &&
    (decide (va % eltBytes p.w ≠ 0) || decide (32768 * 8 < va % 32768 * 8 + 64 * p.w))

/-- The cells of MR × NC elements of a tile. -/
def rectCells (tile mr nc : Nat) : List Cell :=
  (List.range mr).flatMap (fun i => (List.range nc).map (fun j => (tile, i, j)))

/-- The checks and leases of a drain: bias and residual addresses when the form names them. -/
def drainPrep (acc : BitVec 3) (gt : R6) (lt : BitVec 2) (mr nc : BitVec 7) (bias res : Option R6) (lres : BitVec 2)
    (args : List Word) (t : Strand) (s : State) : Except (Cause × Word) TilePrep :=
  let ta := tva t gt
  let page := fun (r : Option R6) (m : Nat) => match r with
    | none => (.ok none : Except (Cause × Word) (Option (TilePage × Bool)))
    | some r => (tilePage s t (tva t r) m true).map some
  match tilePage s t ta lt.toNat false, page bias 0, page res lres.toNat with
  | .error e, _, _ => .error e
  | _, .error e, _ => .error e
  | _, _, .error e => .error e
  | .ok (p, badP), .ok b, .ok r =>
    let bva := (bias.map (tva t)).getD 0
    let rva := (res.map (tva t)).getD 0
    let bad := fun (x : Option (TilePage × Bool)) => match x with | some (q, x) => x || ropeBad q | none => false
    if noStore s t ta then .error (.protection, tw ta)
    else if p.blk != 0 && noStore s t p.view.scaleVa then .error (.protection, tw p.view.scaleVa)
    else if tileMisaligned p ta false then .error (.align, tw ta)
    else if (match b with | some (x, _) => biasMisaligned x bva | none => false) then .error (.align, tw bva)
    else if (match r with | some (x, _) => tileMisaligned x rva false | none => false) then .error (.align, tw rva)
    else if badP || bad b || bad r || (p.blk != 0 && (mr != 64 || nc != 64)) then .error (.format, tw ta)
    else
      let cells := rectCells p.tile mr.toNat nc.toNat
      let bl := match b with | some (x, _) => leaseCells x (biasCells x bva) | none => []
      let rl := match r with
        | some (x, _) => leaseCells x (rectCells x.tile mr.toNat nc.toNat)
        | none => []
      .ok { args := tw (acc.toNat) :: tw (mr.toNat) :: tw (nc.toNat) :: tw bva :: args
            pages := p :: ((b.map (·.1)).toList ++ (r.map (·.1)).toList)
            leases := leaseCells p cells ++ bl ++ rl, acc := some acc.toNat }

def drainOcc (acc : BitVec 3) : List (Nat × Nat) := (8, 4) :: (9 + acc.toNat, 4) :: bgOcc 4

/-- The mode a drain rounds by: DYN reads FPCTL.RM at issue (R287). -/
def drainRm (rm : BitVec 3) (t : Strand) : Word := if rm = 4 then toW t.rm else toW rm

/-- TDRAIN (R286). -/
def execTdrain (g : Guard) (acc : BitVec 3) (gt : R6) (lt : BitVec 2) (rm : BitVec 3) (sat : Bool) (mr nc : BitVec 7)
    (gseed gcoord : R6) (s : State) : Out :=
  tileForm (.tdrain g acc gt lt rm sat mr nc gseed gcoord) g advanceTcw (drainOcc acc) none (fun t s _ =>
    drainPrep acc gt lt mr nc none none 0
      [drainRm rm t, b2w sat, 0, 0, getG t gseed, 0, getG t gcoord] t s) s

/-- TDRAINX (R286). -/
def execTdrainx (g : Guard) (acc : BitVec 3) (gt : R6) (lt : BitVec 2) (rm : BitVec 3) (sat : Bool) (act : BitVec 2)
    (sc bi rs dp : Bool) (mr nc : BitVec 7) (gs gbias gres : R6) (lres : BitVec 2) (gseed gdrop gcoord : R6)
    (s : State) : Out :=
  tileForm (.tdrainx g acc gt lt rm sat act sc bi rs dp mr nc gs gbias gres lres gseed gdrop gcoord) g advanceTcw
    (drainOcc acc) none (fun t s _ =>
      drainPrep acc gt lt mr nc (if bi then some gbias else none) (if rs then some gres else none) lres
        [drainRm rm t, b2w sat, tw (act.toNat + (if sc then 4 else 0) + (if bi then 8 else 0) + (if rs then 16 else 0)
          + (if dp then 32 else 0)), getG t gs, getG t gseed, getG t gdrop, getG t gcoord] t s) s

/-! ### Activations (R288) -/

/-- x × 1/(1 + e^−v) for v of the sign and the fixed-point magnitude given. -/
def sigTimes (n : Bool) (m : Nat) (e : Int) (vneg : Bool) (v : Nat) : Xr :=
  if 2000 * fxOne < v then
    if vneg then .fin n 1 (-100000) true else .fin n (m * 2 ^ workBits - 1) (e - workBits) true
  else
    let (y, k) := fxExp v
    let ex := y * 2 ^ k
    let ratio := (if vneg then fxOne * fxOne * 2 ^ k else ex * fxOne) / (ex + fxOne)
    xFix n (m * ratio) fxBits (if vneg then e - (k : Int) else e)

/-- SiLU. -/
def xSilu (x : Xr) : Xr :=
  match x with
  | .nan => .nan
  | .inf n => if n then xZero else .inf false
  | .fin n m e st =>
    if m = 0 then .fin n m e st
    else if 20 < Nat.log2 m + e then sigTimes n m e n (3000 * fxOne)
    else sigTimes n m e n (toFix m e)

/-- √(2/π) in fixed point. -/
def fxGeluC : Nat := isqrt (fxOne * fxOne * fxOne / fxHalfPi)

/-- GELU-tanh: 0.5x(1 + tanh u) = x / (1 + e^(−2u)). -/
def xGelu (x : Xr) : Xr :=
  match x with
  | .nan => .nan
  | .inf n => if n then xZero else .inf false
  | .fin n m e st =>
    if m = 0 then .fin n m e st
    else if 10 < Nat.log2 m + e then sigTimes n m e n (3000 * fxOne)
    else
      let f := toFix m e
      let u := f + f * f / fxOne * f / fxOne * 44715 / 1000000
      sigTimes n m e n (2 * (u * fxGeluC / fxOne))

/-- ACT. -/
def actOf (a : Nat) (x : Nat) : Nat × FpFlags :=
  let v := decodeFmt .fp32 x
  match a with
  | 1 => rnF32 (xGelu v)
  | 2 => rnF32 (xSilu v)
  | 3 => if xIsNan v then (nanCode .fp32, 0) else if xIsZero v || xNeg v then (0, 0) else (x, 0)
  | _ => (x, 0)

/-! ### Accumulators (R36) -/

/-- The elements of an accumulator from a rising table, from key `k` on. -/
def accExpand : Nat → Nat → Tab (BitVec 32) → List (BitVec 32)
  | 0, _, _ => []
  | n + 1, k, [] => 0 :: accExpand n (k + 1) []
  | n + 1, k, (i, x) :: l =>
    if i = k then x :: accExpand n (k + 1) l else 0 :: accExpand n (k + 1) ((i, x) :: l)

/-- acc[d] as 4,096 elements. -/
def accGet (k : ClPart) (d : Nat) : List (BitVec 32) :=
  accExpand 4096 (4096 * d) (k.acc.filter (fun e => e.1 / 4096 == d))

/-- Write acc[d]: a zero is not listed. -/
def accPut (k : ClPart) (d : Nat) (l : List (BitVec 32)) : ClPart :=
  { k with acc :=
      k.acc.filter (fun e => decide (e.1 / 4096 < d))
        ++ (l.mapIdx (fun i x => (4096 * d + i, x))).filter (fun e => e.2 != 0)
        ++ k.acc.filter (fun e => decide (d < e.1 / 4096)) }

/-! ### The start of a command (R268, R280, R285, R288) -/

/-- What a started command did. -/
structure TileEff where
  st : State
  flags : FpFlags := 0
  /-- Words of a drain to be written by its completion point (R367). -/
  out : List (Nat × List Byte) := []
  ecc : Bool := false
deriving DecidableEq, Repr

/-- One element of a step: acc + g (R86). -/
def stepElt (acc : BitVec 32) (a b : List Xr) : BitVec 32 × FpFlags :=
  let g := gSum (a.zip b)
  let r := finish .fp32 .rne (snanFlag .fp32 [acc.toNat]) (xAdd .rne (decodeFmt .fp32 acc.toNat) (decodeFmt .fp32 g.1))
  (BitVec.ofNat 32 r.1, g.2 ||| r.2)

/-- acc[d] after a step over rows `as` and columns `bs` (R280). -/
def stepAcc (k : ClPart) (d : Nat) (as bs : List (List Xr)) : ClPart × FpFlags :=
  let rows := (accGet k d).mapIdx (fun n x =>
    match as[n / 64]?, bs[n % 64]? with
    | some a, some b => stepElt x a b
    | _, _ => (x, (0 : FpFlags)))
  (accPut k d (rows.map (·.1)), rows.foldl (fun f r => f ||| r.2) 0)

/-- A decoded line with its flags. -/
def lineVals (s : State) (p : TilePage) (l : List Cell) : List Xr × FpFlags :=
  let v := l.map (cellVal s p)
  (v.map (·.1), v.foldl (fun f x => f ||| x.2) 0)

def linesVals (s : State) (p : TilePage) (l : List (List Cell)) : List (List Xr) × FpFlags :=
  let v := l.map (lineVals s p)
  (v.map (·.1), v.foldl (fun f x => f ||| x.2) (if p.rope.isSome then ropeFlags s p l.flatten else 0))

/-- Element (k, j) of a B store as the multiply consumes it. -/
def latchVal (b : BStore) (k j : Nat) : Xr × FpFlags :=
  let n := 64 * k + j
  let x := b.elts.getD n 0
  if b.nan then (.nan, 0)
  else if b.rot then (decodeFmt .fp32 x, 0)
  else
    let sc := b.scales.getD n (0, 0)
    (decElt b.fmt b.blk x sc.1 sc.2, decodeFlag b.fmt x ||| snanElt b.fmt x)

/-- A word of acc[d] has an uncorrectable soft error (R277, R435). -/
def accHurt (k : ClPart) (d : Nat) : Bool := k.accBad.any (fun w => w / 2048 == d)

/-- All of acc[d] becomes the canonical NaN (R277). -/
def accNan (k : ClPart) (d : Nat) : ClPart :=
  { accPut k d (List.replicate 4096 (BitVec.ofNat 32 (nanCode .fp32))) with
    accBad := k.accBad.filter (fun w => w / 2048 != d) }

/-- Memory as a command reads it: its operand ranges as they stood at issue, with the writes of the segment's earlier commands
(R276; log 93). -/
def snapView (s : State) (c : TileCmd) : State := { s with mem := c.snap.foldl (fun m e => wrBytes m e.1 e.2) s.mem }

/-- A multiply starts (R276, R280). -/
def startMul (s : State) (cl p : Nat) (c : TileCmd) (kd : Nat) : TileEff :=
  let arg := fun i => (c.args.getD i 0).toNat
  let d := arg 0
  let form := arg 1
  let k := getCp s cl p
  match c.pages with
  | a :: rest =>
    let l := k.latch.getD BStore.empty
    let dep := min (depthOf a.fmt) (depthOf (match rest with | b :: _ => b.fmt | [] => l.fmt))
    let kb := arg 2 * dep
    let n := min kd dep
    let readA := (lineCells a.tile (form == 1) (arg 3) kb dep).flatten
    let badB := match rest with
      | b :: _ => cellsBad s b (lineCells b.tile (form != 2) (arg 4) kb dep).flatten
      | [] => false
    if cellsBad s a readA || badB || accHurt k d then
      { st := updCp s cl p (fun k => accNan k d), ecc := true }
    else
      let s := cellsSoft s a readA
      let s := match rest with
        | b :: _ => cellsSoft s b (lineCells b.tile (form != 2) (arg 4) kb dep).flatten
        | [] => s
      let v := snapView s c
      let av := linesVals v a (lineCells a.tile (form == 1) (arg 3) kb n)
      let bv := match rest with
        | b :: _ => linesVals v b (lineCells b.tile (form != 2) (arg 4) kb n)
        | [] =>
          let cols := (List.range (arg 4)).map (fun j => (List.range n).map (fun i => latchVal l (kb + i) j))
          (cols.map (fun (c : List (Xr × FpFlags)) => c.map Prod.fst), cols.flatten.foldl (fun f (x : Xr × FpFlags) => f ||| x.2) 0)
      let r := stepAcc (getCp s cl p) d av.1 bv.1
      { st := putCp s cl p r.1, flags := av.2 ||| bv.2 ||| r.2 }
  | [] => { st := s }

/-- TBLATCH starts. -/
def startLatch (s : State) (cl p : Nat) (c : TileCmd) (src : Nat) (tr : Bool) : TileEff :=
  let k := getCp s cl p
  let box := fun (b : Option BStore) => b.getD BStore.empty
  match src with
  | 0 =>
    match c.pages with
    | [] => { st := s }
    | pg :: _ =>
      let cells := latchCells pg tr
      let base := { BStore.empty with fmt := pg.fmt, blk := pg.blk, axis := pg.axis }
      if cellsBad s pg cells then
        { st := updCp s cl p (fun k => { k with latch := some { base with nan := true } }), ecc := true }
      else
        let s := cellsSoft s pg cells
        let v := snapView s c
        if pg.rope.isSome then
          let vals := cells.map (cellVal v pg)
          let b := { base with elts := vals.map (fun v => (rnF32 v.1).1), rot := true }
          { st := updCp s cl p (fun k => { k with latch := some b }), flags := ropeFlags v pg cells }
        else
          let elts := cells.map (fun e => rawElt v pg.phys pg.w e.1 pg.mode e.2.1 e.2.2)
          let scales := if pg.blk = 0 then []
            else cells.map (fun e => scaleAt v pg.scale pg.blk (pg.view.block e.1 e.2.1 e.2.2))
          { st := updCp s cl p (fun k => { k with latch := some { base with elts := elts, scales := scales } }) }
  | 1 =>
    let b := { box k.latch with tag := (c.args.getD 0 0).toNat % 2 ^ 16, fresh := true }
    { st := updCp s (ringNext cl false) p (fun k => { k with ring := k.ring ++ [(c.start + 24, 0, b)] }) }
  | 2 =>
    let b := { box k.latch with tag := (c.args.getD 0 0).toNat % 2 ^ 16, fresh := true }
    { st := updCp s (ringNext cl true) p (fun k => { k with ring := k.ring ++ [(c.start + 24, 1, b)] }) }
  | _ =>
    let b := box (if src = 3 then k.iw else k.ie)
    let res := (if b.fresh then 2 ^ 16 else 0) + b.tag
    let old := { b with fresh := false }
    let s := updCp s cl p (fun k =>
      if src = 3 then { k with latch := some { b with fresh := false }, iw := some old }
      else { k with latch := some { b with fresh := false }, ie := some old })
    { st := writeReg s c.task p (.g (c.args.getD 0 0).toNat) res }

/-- Put a container into a cell; the other elements of its bytes keep their bits (R289). -/
def putCell (s : State) (p : TilePage) (c : Cell) (x : Nat) : State :=
  let a := p.phys + eltByte p.w c.1 p.mode c.2.1 c.2.2
  if 8 ≤ p.w then wrN s a (p.w / 8) x
  else
    let sh := tileOff p.w p.mode c.2.1 c.2.2 % 8
    let old := rdN s a 1
    wrN s a 1 (old - old / 2 ^ sh % 2 ^ p.w * 2 ^ sh + x % 2 ^ p.w * 2 ^ sh)

/-- The cells of a block of a tile, in order along its axis (R72). -/
def blockCells (p : TilePage) (n : Nat) : List Cell :=
  let b := blkLen p.blk
  let line := n / (64 / b)
  let at0 := n % (64 / b) * b
  (List.range b).map (fun e => if p.axis = 0 then (p.tile, line, at0 + e) else (p.tile, at0 + e, line))

/-- Encode and write one block of R76: the element values, with a draw for each. -/
def drainBlock (s : State) (p : TilePage) (rm : Cell → Rnd) (vals : Cell → Nat) (n : Nat) : State × FpFlags :=
  let cells := blockCells p n
  let xs := cells.map (fun c => decodeFmt .fp32 (vals c))
  let am := amaxOf xs
  let sc : Nat × FpFlags := if p.blk = 1 then (e8m0Scale p.fmt am, 0) else fp32Scale p.fmt am
  let bi := p.tile * (4096 / blkLen p.blk) + n
  let s := wrN s (p.scale + scaleByte p.blk bi) (scaleEsz p.blk) sc.1
  let special := match am with | .nan => true | _ => false
  (cells.zip xs).foldl (fun acc e =>
    if special then (putCell acc.1 p e.1 0, acc.2)
    else
      let q := scaleDown p.blk sc.1 e.2
      let r := conv q.1 (fmtOfCode p.fmt) (rm e.1) true
      (putCell acc.1 p e.1 r.1, acc.2 ||| q.2 ||| r.2)) (s, sc.2)

/-- Encode and write one group of R77; with S = NaN every element decodes to NaN, so NX is set for one that is none. -/
def drainGroup (s : State) (p : TilePage) (vals : Cell → Nat) (n : Nat) : State × FpFlags :=
  let blocks := (List.range 4).map (fun b => blockCells p (4 * n + b))
  let xs := fun (l : List Cell) => l.map (fun c => decodeFmt .fp32 (vals c))
  let am := amaxOf (xs blocks.flatten)
  let a := p.scale + 8 * (p.tile * 16 + n)
  match am with
  | .fin _ m _ _ =>
    let sg : Nat := if m = 0 then 0x3F800000 else (rnF32 am).1
    let sx := decodeFmt .fp32 sg
    let s := wrN s (a + 4) 4 sg
    (blocks.mapIdx (fun b l => (b, l))).foldl (fun acc e =>
      let code := q4nBlockCode sx (amaxOf (xs e.2))
      let s := wrN acc.1 (a + e.1) 1 code
      e.2.foldl (fun acc c =>
        let y := decodeFmt .fp32 (vals c)
        let q := q4nEncode sx code y
        (putCell acc.1 p c q, acc.2 ||| flagIf (xCmp (q4nDecode sx code q) y != 0) fNX)) (s, acc.2)) (s, 0)
  | _ =>
    let s := wrN (wrN s a 4 0) (a + 4) 4 (nanCode .fp32)
    (blocks.flatten.foldl (fun s c => putCell s p c 7) s,
      flagIf (blocks.flatten.any (fun c => !xIsNan (decodeFmt .fp32 (vals c)))) fNX)

/-- One element of the epilogue (R288): the value of (i, j), `bias` and `res` decoded. -/
def epilogue (opt : Nat) (gs gseed gdrop gcoord : Word) (x bias res i j : Nat) : Nat × FpFlags :=
  let dec := decodeFmt .fp32
  let on := fun b => opt / 2 ^ b % 2 == 1
  let nv := fun (l : List Nat) => snanFlag .fp32 l
  let mul := fun (r : Nat × FpFlags) (y : Nat) =>
    let q := finish .fp32 .rne (nv [r.1, y]) (xMul (dec r.1) (dec y)); (q.1, r.2 ||| q.2)
  let add := fun (r : Nat × FpFlags) (y : Nat) =>
    let q := finish .fp32 .rne (nv [r.1, y]) (xAdd .rne (dec r.1) (dec y)); (q.1, r.2 ||| q.2)
  let r : Nat × FpFlags := (x, 0)
  let r := if on 2 then mul r (gs.toNat % 2 ^ 32) else r
  let r := if on 3 then add r bias else r
  let r := if on 4 then add r res else r
  let r :=
    if on 5 then
      let rnd := cbg gseed 3 (bits gcoord 32 32 + BitVec.ofNat 32 j) (bits gcoord 0 32 + BitVec.ofNat 32 i)
      if rnd.toNat / 2 ^ 8 < gdrop.toNat % 2 ^ 24 then (0, r.2) else mul r (gdrop.toNat / 2 ^ 32)
    else r
  let q := actOf (opt % 4) r.1
  (q.1, r.2 ||| q.2)

/-- A range of bytes cut at the boundaries of aligned words: at most `fuel` pieces of (address, length). -/
def wordPieces : Nat → Nat → Nat → List (Nat × Nat)
  | 0, _, _ => []
  | fuel + 1, a, n =>
    if n = 0 then []
    else
      let k := min n (8 - a % 8)
      (a, k) :: wordPieces fuel (a + k) (n - k)

/-- The words that a drain into `cells` of a page writes, with their contents in `s`. -/
def drainWords (s : State) (p : TilePage) (cells : List Cell) : List (Nat × List Byte) :=
  (cellRanges { p with rope := none } cells ++ scaleRanges p cells).flatMap (fun r =>
    (wordPieces (r.2 / 8 + 2) r.1 r.2).map (fun e => (e.1, rdBytes s.mem e.1 e.2)))

/-- A drain starts: its values are formed, and its words are written one by one until its completion point (R288, R289,
R367). -/
def startDrain (s : State) (cl p : Nat) (c : TileCmd) : TileEff :=
  let arg := fun i => c.args.getD i 0
  let d := (arg 0).toNat
  let mr := (arg 1).toNat
  let nc := (arg 2).toNat
  let rmc := (arg 4).toNat
  let opt := (arg 6).toNat
  match c.pages with
  | [] => { st := s }
  | tp :: rest =>
    let bp := if opt / 8 % 2 = 1 then rest.head? else none
    let rp := if opt / 16 % 2 = 1 then rest.getLast? else none
    let bcells : List Cell := match bp with | some b => biasCells b (arg 3).toNat | none => []
    let rcells : List Cell := match rp with | some r => rectCells r.tile mr nc | none => []
    let bad := (match bp with | some b => cellsBad s b bcells | none => false)
      || (match rp with | some r => cellsBad s r rcells | none => false) || accHurt (getCp s cl p) d
    if bad then { st := s, ecc := true }
    else
      let s := match bp with | some b => cellsSoft s b bcells | none => s
      let s := match rp with | some r => cellsSoft s r rcells | none => s
      let bias : List (Nat × FpFlags) := match bp with
        | some b => bcells.map (fun (e : Cell) =>
            cellF32 s b e)
        | none => []
      let s0 := s
      let res := fun i j => match rp with
        | some r => cellF32 s0 r (r.tile, i, j)
        | none => (0, (0 : FpFlags))
      let acc := accGet (getCp s cl p) d
      let xs := acc.mapIdx (fun n x =>
        let i := n / 64
        let j := n % 64
        if i < mr ∧ j < nc then
          let b := bias.getD j (0, 0)
          let r := res i j
          let e := epilogue opt (arg 7) (arg 8) (arg 9) (arg 10) x.toNat b.1 r.1 i j
          (e.1, e.2 ||| b.2 ||| r.2)
        else (0, 0))
      let vals := xs.map (·.1)
      let fl := xs.foldl (fun f x => f ||| x.2) 0
      let val := fun (e : Cell) => vals.getD (64 * e.2.1 + e.2.2) 0
      let rm := fun (e : Cell) =>
        if rmc = 5 then
          Rnd.sr (cbg (arg 8) 2 (bits (arg 10) 32 32 + BitVec.ofNat 32 e.2.2) (bits (arg 10) 0 32 + BitVec.ofNat 32 e.2.1))
        else rndOf rmc
      let out : State × FpFlags :=
        if tp.blk = 0 then
          (rectCells tp.tile mr nc).foldl (fun a e =>
            let r := conv (decodeFmt .fp32 (val e)) (fmtOfCode tp.fmt) (rm e) (arg 5 != 0)
            (putCell a.1 tp e r.1, a.2 ||| r.2)) (s, 0)
        else if tp.blk = 3 then
          (List.range 16).foldl (fun a n => let r := drainGroup a.1 tp val n; (r.1, a.2 ||| r.2)) (s, 0)
        else
          (List.range (4096 / blkLen tp.blk)).foldl
            (fun a n => let r := drainBlock a.1 tp rm val n; (r.1, a.2 ||| r.2)) (s, 0)
      { st := s, flags := fl ||| out.2, out := drainWords out.1 tp (rectCells tp.tile mr nc) }

/-- The effect of a tile command at its start tick. -/
def startCmd (s : State) (cl p : Nat) (c : TileCmd) : TileEff :=
  match c.instr with
  | .tzero _ _ =>
    let d := c.acc.getD 0
    if accHurt (getCp s cl p) d then { st := updCp s cl p (fun k => accNan k d), ecc := true }
    else { st := updCp s cl p (fun k => accPut k d []) }
  | .tmma _ _ _ _ _ _ _ _ _ kd | .tmmat _ _ _ _ _ _ _ _ _ kd | .tmmbt _ _ _ _ _ _ _ _ _ kd
  | .tmmring _ _ _ _ _ _ _ kd => startMul s cl p c kd.toNat
  | .tblatch _ src _ _ _ tr => startLatch s cl p c src.toNat tr
  | _ => startDrain s cl p c

/-- Change a tile command of a partition on a cluster. -/
def updTile (s : State) (cl p id : Nat) (f : TileCmd → TileCmd) : State :=
  updCp s cl p (fun k => { k with tiles := listUpd k.tiles (fun x => x.id == id) f })

/-- A word written by a drain, as a later command that has taken its operands sees it. -/
def patchSnap (a : Nat) (bs : List Byte) (r : Nat × List Byte) : Nat × List Byte :=
  if a < r.1 + r.2.length ∧ r.1 < a + bs.length then
    (r.1, r.2.mapIdx (fun i b => if a ≤ r.1 + i ∧ r.1 + i < a + bs.length then bs.getD (r.1 + i - a) b else b))
  else r

/-- Write words of drain `c`: to memory, and for the later commands of its segment (R276). -/
def putWords (s : State) (cl p : Nat) (c : TileCmd) (l : List (Nat × List Byte)) : State :=
  l.foldl (fun s e => updCp (wrMem s e.1 e.2) cl p (fun k => { k with
    tiles := listUpd k.tiles (fun x => x.sid == c.sid && decide (c.id < x.id))
      (fun x => { x with snap := x.snap.map (patchSnap e.1 e.2) }) })) s

/-- One more word of a drain under way reaches memory: which is free (R367; log 5). -/
def drainWord (s : State) (cl p : Nat) (c : TileCmd) : State :=
  let (i, s) := freePick s c.out.length
  updTile (putWords s cl p c (c.out.drop i |>.take 1)) cl p c.id (fun x => { x with out := c.out.eraseIdx i })

/-- A drain that has words left and whose completion point is not the next cycle. -/
def drainGoing (s : State) (c : TileCmd) : Bool := !c.out.isEmpty && decide (s.cycle < c.done)

/-- TILE_COMMAND_START: the command `ev.id` of a partition on a cluster starts in its start tick; with `n` = 1 a drain that has
started writes its next word. -/
def execTileCommandStart (s : State) : Out :=
  let cl := s.ev.cl
  let p := s.ev.pid
  if s.ev.n = 1 then
    match (getCp s cl p).tiles.find? (fun c => c.id == s.ev.id && drainGoing s c) with
    | some c => .next (drainWord s cl p c)
    | none => .next s
  else match (getCp s cl p).tiles.find? (fun c => c.id == s.ev.id && !c.started && decide (c.start ≤ s.cycle)) with
  | none => .next s
  | some c =>
    let r := startCmd s cl p c
    .next (updTile r.st cl p c.id (fun x => { x with started := true, flags := r.flags, out := r.out, ecc := r.ecc }))

/-- The commands of a partition's engine whose batch commits now (R272). -/
def commitDue (s : State) (c : TileCmd) : Bool :=
  match c.commit with
  | some n => c.started && decide (n ≤ s.cycle)
  | none => false

/-- A drain has passed its completion point with words left. -/
def drainOver (s : State) (c : TileCmd) : Bool := !c.out.isEmpty && decide (c.done < s.cycle)

/-- TILE_BATCH_COMMIT: a drain that is complete has written its last word; the flags of the committing commands reach FPFLAG,
their leases end, and a command that met an uncorrectable error leaves its strand a fault (R272, R277, R289). -/
def execTileBatchCommit (s : State) : Out :=
  let cl := s.ev.cl
  let p := s.ev.pid
  let s := ((getCp s cl p).tiles.filter (drainOver s)).foldl
    (fun s c => updTile (putWords s cl p c c.out) cl p c.id (fun x => { x with out := [] })) s
  let due := (getCp s cl p).tiles.filter (commitDue s)
  let s := updCp s cl p (fun k => { k with tiles := k.tiles.filter (fun c => !commitDue s c) })
  .next (due.foldl (fun s c =>
    let s := if c.flags = 0 then s else addFlags s c.task p c.flags
    if c.ecc then { s with owed := s.owed ++ [(c.task, c.pc, c.word0)] } else s) s)

/-- A deferred MEMORY_ECC of the task is due (R277, R400). -/
def eccOwed (s : State) (task : Nat) : Bool := s.owed.any (fun o => o.1 == task)

/-- DEFERRED_ECC_FAULT: the strand of the lane takes MEMORY_ECC at an instruction boundary outside delay slots; the
record names the command's PC (R277, R400, R405). -/
def execDeferredEccFault (s : State) : Out :=
  match tabGet s.strands s.ev.lane with
  | none => .next s
  | some t =>
    match s.owed.findIdx? (fun o => o.1 == t.task.id) with
    | none => .next s
    | some i =>
      match s.owed[i]? with
      | none => .next s
      | some o =>
        if t.ds ≠ 0 then .next s
        else .next (takeFault { s with owed := s.owed.eraseIdx i } t { cause := .memoryEcc, va := toW o.2.1, word := o.2.2 })

/-- RING_DELIVERY: arrivals of a cluster's inbound buffers that are complete (R283, R285). -/
def execRingDelivery (s : State) : Out :=
  let cl := s.ev.cl
  let p := s.ev.pid
  .next (updCp s cl p (fun k =>
    let due := k.ring.filter (fun e => decide (e.1 ≤ s.cycle))
    let k := { k with ring := k.ring.filter (fun e => !decide (e.1 ≤ s.cycle)) }
    due.foldl (fun k e => if e.2.1 = 0 then { k with iw := some e.2.2 } else { k with ie := some e.2.2 }) k))

/-! ### Short forms (R291, R292) -/

/-- TZERO. -/
def execTzero (g : Guard) (a : R6) (s : State) : Out :=
  tileForm (.tzero g a) g advance [(8, 1), (9 + a.toNat % 8, 1)] none
    (fun _ _ _ => .ok { acc := some (a.toNat % 8) }) s

/-- TCOMMIT: closes the open batch and returns its number. -/
def execTcommit (g : Guard) (d : R6) (s : State) : Out :=
  issue (.tcommit g d) g advance (fun t s =>
    let n := t.batchNo
    let (t, s) := closeBatch s t (s.cycle + 1)
    putStrand s (advance (setG s.cycle 1 d (BitVec.ofNat 64 (n % 2 ^ 16)) t))) s

/-- TWAIT: on reaching issue it closes the open batch when it waits for it; it issues in the last commit cycle of the batches
it waits for, and until then it stands at its place (R272, R292). -/
def execTwait (g : Guard) (a : R6) (s : State) : Out :=
  issue (.twait g a) g advance (fun t s =>
    let n := (getG t a).toNat % 2 ^ 16
    let (t, s) := if t.reach.isNone ∧ t.batchNo ≤ n then closeBatch s t (s.cycle + 1) else (t, s)
    let c := (t.commits.filter (fun e => decide (e.1 ≤ n))).foldl (fun m e => max m e.2) s.cycle
    if s.cycle < c then putStrand s { t with hold := c, reach := some (t.reach.getD s.cycle) }
    else putStrand s (advance t)) s

/-- TACCRD and TACCRD.R: half a row of an accumulator (R292). -/
def taccrd (i : Instr) (g : Guard) (d a : R6) (rowHalf : Strand → Nat × Bool) (s : State) : Out :=
  issue i g advance (fun t s =>
    let k := getCp s t.cl t.task.pid
    let n := a.toNat % 8
    if k.tiles.any (fun c => tileHolds s c && c.acc == some n) then raise i .lease s t 0
    else if !segBooked s t (9 + n) (tickNow s) (tickNow s) then raiseBooking i s t (9 + n)
    else
      let (row, half) := rowHalf t
      let from' := 4096 * n + 64 * row + (if half then 32 else 0)
      let es := (List.range 32).map (fun e => ((tabGet k.acc (from' + e)).getD 0).toNat)
      putStrand s (advance (setV s.cycle 4 d (ofElts 32 es) t))) s

def execTaccrd (g : Guard) (d a : R6) (row : R6) (half : Bool) (s : State) : Out :=
  taccrd (.taccrd g d a row half) g d a (fun _ => (row.toNat, half)) s

def execTaccrdR (g : Guard) (d a b : R6) (s : State) : Out :=
  taccrd (.taccrdR g d a b) g d a (fun t => ((getG t b).toNat % 64, bit (getG t b) 6)) s

end Sys2Proof.Machine
end

