-- ==== Sys2Proof/Machine/Fetch.lean ====
section
/-! DEFINITION. Fetch and the boundary between instructions: the fetch and decode causes, interlocks and windows, OVERRUN
(spec/02 R45-R57; spec/04 R91, R113; spec/05 R122; spec/06 R145, R160; spec/08 R224, R227, R461; spec/16 R400, R401). -/

namespace Sys2Proof.Machine

/-! ### Fetch (R45, R47, R113, R145, R461) -/

/-- The address lies in the code range of the strand's segment (R215). -/
def inCode (t : Strand) (va : Va) : Bool :=
  decide (t.seg.blk.toNat ≤ va.toNat ∧ va.toNat < t.seg.blk.toNat + 8 * t.seg.codeLen)

/-- The block of an instruction cache that holds an address. -/
def icFind (c : Cluster) (core p : Nat) (va : Va) : Option IcBlock :=
  c.icache.find? (fun b => b.core == core && b.pid == p && b.va == va.toNat / 1024 * 1024)

/-- The word at `va` in a block. -/
def icWord (b : IcBlock) (va : Va) : Word := BitVec.ofNat 64 (b.data.toNat >>> (8 * (va.toNat % 1024)))

/-- Fetch one word: RESIDENCY or PROTECTION (R113). A word of the code range is there by placement; one outside it must
lie in the instruction cache under a translation that the probe finds. -/
def fetchWord (s : State) (t : Strand) (va : Va) : Except Cause Word :=
  match syncXl t s (inCode t va) va.toNat with
  | none => .error .residency
  | some x =>
    match icFind (getClu s t.cl) (t.lane / 2) t.task.pid va with
    | some b => if pteX x.pte0 then .ok (icWord b va) else .error .protection
    | none =>
      if !inCode t va then .error .residency
      else if pteX x.pte0 then .ok (rd64 s (xlPhys x va.toNat)) else .error .protection

/-- The forms that raise SLOT in a delay slot (R51). -/
def slotBarred : Instr → Bool
  | .b _ _ => true
  | .bl _ _ _ => true
  | .br _ _ => true
  | .blr _ _ _ => true
  | .loop _ _ _ => true
  | .segend _ _ => true
  | .split _ _ _ => true
  | .exit _ => true
  | .yield _ _ => true
  | .book _ _ _ _ => true
  | .gang _ _ _ => true
  | .trap _ _ _ => true
  | .tmma _ _ _ _ _ _ _ _ _ _ => true
  | .tmmat _ _ _ _ _ _ _ _ _ _ => true
  | .tmmbt _ _ _ _ _ _ _ _ _ _ => true
  | .tmmring _ _ _ _ _ _ _ _ => true
  | .tdrain _ _ _ _ _ _ _ _ _ _ => true
  | .tdrainx _ _ _ _ _ _ _ _ _ _ _ _ _ _ _ _ _ _ _ _ => true
  | .tblatch _ _ _ _ _ _ => true
  | _ => false

/-- Words 1 to 3 of a tile command word; the address that failed with its cause. -/
def fetchTail (s : State) (t : Strand) : Except (Cause × Va) (Word × Word × Word) :=
  match fetchWord s t (t.pc0 + 8), fetchWord s t (t.pc0 + 16), fetchWord s t (t.pc0 + 24) with
  | .ok a, .ok b, .ok c => .ok (a, b, c)
  | .error e, _, _ => .error (e, t.pc0 + 8)
  | _, .error e, _ => .error (e, t.pc0 + 16)
  | _, _, .error e => .error (e, t.pc0 + 24)

/-- The fault of the word at pc0 before it issues. -/
def fetchFault (c : Cause) (va : Va) (w : Word) : FaultInfo := { cause := c, va := toW va, word := w }

/-- Decode the words fetched at pc0: SLOT, then the decode causes (R400). -/
def decodeAt (t : Strand) (w w1 w2 w3 : Word) : Except FaultInfo Instr :=
  let barred := match formOf w w1 with
    | some f => t.ds != 0 && slotBarred f.instr
    | none => false
  if barred then .error (fetchFault .slot t.pc0 w)
  else match decodeWords w w1 w2 w3 with
    | .ok i => .ok i
    | .error .register => .error { cause := .register, word := w }
    | .error _ => .error { cause := .reservedField, word := w }

/-- The instruction at pc0, or the first fetch or decode cause (R400). A word of no form is an ILLEGAL_WORD; a tile
command word in a delay slot raises SLOT (R51), and one that is not 32-byte aligned ALIGN (R47; log 11). -/
def fetchInstr (s : State) (t : Strand) : Except FaultInfo Instr :=
  if t.pc0.toNat % 8 ≠ 0 then .error (fetchFault .align t.pc0 0)
  else match fetchWord s t t.pc0 with
    | .error c => .error (fetchFault c t.pc0 0)
    | .ok w =>
      if isTcwMajor w ∧ (formOf w 0).isSome then
        if t.ds ≠ 0 then .error (fetchFault .slot t.pc0 w)
        else if t.pc0.toNat % 32 ≠ 0 then .error (fetchFault .align t.pc0 w)
        else match fetchTail s t with
          | .error (c, va) => .error (fetchFault c va w)
          | .ok (w1, w2, w3) => decodeAt t w w1 w2 w3
      else decodeAt t w 0 0 0

/-- The tile command words. -/
def tileWord : Instr → Bool
  | .tmma _ _ _ _ _ _ _ _ _ _ => true
  | .tmmat _ _ _ _ _ _ _ _ _ _ => true
  | .tmmbt _ _ _ _ _ _ _ _ _ _ => true
  | .tmmring _ _ _ _ _ _ _ _ => true
  | .tdrain _ _ _ _ _ _ _ _ _ _ => true
  | .tdrainx _ _ _ _ _ _ _ _ _ _ _ _ _ _ _ _ _ _ _ _ => true
  | .tblatch _ _ _ _ _ _ => true
  | _ => false

/-- The triple (A, A + 32, A + 40) of a tile command word at A (R47). -/
def tileTriple (t : Strand) : Strand := { t with pc1 := t.pc0 + 32, pc2 := t.pc0 + 40 }

/-- The current lane has fetched an instruction. -/
def fetched (i : Instr) (t : Strand) (s : State) : State := if tileWord i then putStrand s (tileTriple t) else s

/-- The strand as a fetch or decode cause finds it: past its SLOT check a tile command word has its triple (R47). -/
def causeTriple (f : FaultInfo) (t : Strand) : Strand :=
  if isTcwMajor f.word && f.cause != .slot && f.cause != .illegal then tileTriple t else t

/-- ILLEGAL_WORD: a word that matches no form, whatever its guard (R49). -/
def execIllegalWord (w : Word) (s : State) : Out :=
  match curStrand s with
  | none => .fault .noStrand
  | some t => .next (takeFault s t { cause := .illegal, va := toW t.pc0, word := w })

/-! ### Interlocks (R55, R91, R122, R227, R235, R270, R338) -/

/-- The cycle in which the last pending write of some of the registers completes. -/
def pendOf (t : Strand) (l : List RegRef) : Nat :=
  t.pend.foldl (fun m e => if l.contains e.1 then max m e.2 else m) 0

/-- The forms of the divider. -/
def usesDiv : Instr → Bool
  | .div _ _ _ _ => true
  | .divs _ _ _ _ => true
  | .rem _ _ _ _ => true
  | .rems _ _ _ _ => true
  | _ => false

/-- The forms of the VDIV unit. -/
def usesVdiv : Instr → Bool
  | .vdiv _ _ _ _ _ _ _ _ _ => true
  | .vsqrt _ _ _ _ _ _ _ => true
  | _ => false

/-- The forms that end a segment by themselves. -/
def endsSegment : Instr → Bool
  | .segend _ _ => true
  | .split _ _ _ => true
  | .exit _ => true
  | .yield _ _ => true
  | _ => false

/-- The tile commands that wait in the engine (R270). -/
def tileQueued : Instr → Bool
  | .tzero _ _ => true
  | .tmma _ _ _ _ _ _ _ _ _ _ => true
  | .tmmat _ _ _ _ _ _ _ _ _ _ => true
  | .tmmbt _ _ _ _ _ _ _ _ _ _ => true
  | .tmmring _ _ _ _ _ _ _ _ => true
  | .tdrain _ _ _ _ _ _ _ _ _ _ => true
  | .tdrainx _ _ _ _ _ _ _ _ _ _ _ _ _ _ _ _ _ _ _ _ => true
  | .tblatch _ _ _ _ _ _ => true
  | _ => false

/-- Tile commands of the cluster that have issued and not started. -/
def tilesWaiting (s : State) (t : Strand) : Nat :=
  (getCp s t.cl t.task.pid).tiles.countP (fun c => !c.started)

/-- The first cycle at which no interlock holds the instruction back, as far as now is known. -/
def interlock (s : State) (t : Strand) (i : Instr) : Nat :=
  let g := match guardOf i with
    | some g => pendOf t (rP3 g.p)
    | none => 0
  let on := match guardOf i with
    | some g => guardOn g t
    | none => true
  if s.cycle < g then g
  else if !on then 0
  else
    let a := pendOf t (uses i)
    let b := if usesDiv i then t.divFree else if usesVdiv i then t.vdivFree else 0
    let c := if endsSegment i then pendEnd s t else 0
    let d := if tileQueued i && decide (8 ≤ tilesWaiting s t) then s.cycle + 1 else 0
    let e := match i with
      | .sfork _ _ _ _ _ _ => if t.lastFork = tickNow s + 1 then 8 * (tickNow s + 1) else 0
      | _ => 0
    max a (max b (max c (max d e)))

/-! ### Windows (R57, R160) -/

/-- `n` bytes at `va` cut at the page boundary. -/
def pagePieces (va n : Nat) : List (Nat × Nat) :=
  let k := min n (32768 - va % 32768)
  (if k = 0 then [] else [(va, k)]) ++ (if k < n then [((va + k) % 2 ^ 48, n - k)] else [])

/-- The lines of accesses at virtual addresses. An access that will raise its cause waits for its window too: which that is
follows from the address (R57). -/
def vaLines (s : State) (t : Strand) (l : List (Nat × Nat)) : List Nat :=
  linesOf ((l.flatMap (fun e => pagePieces e.1 e.2)).map (fun e => (accessPhys s t (BitVec.ofNat 48 e.1), e.2)))

/-- Two groups of lines, one taken after the other. -/
def linesThen (a b : List Nat) : List Nat := a ++ b.filter (fun x => !a.contains x)

/-- The lines of a stream slot: its header, and the members that it counts (R331). -/
def slotLines (s : State) (t : Strand) (va : Nat) : List Nat :=
  vaLines s t [(va, 64 + 32 * slotCount (BitVec.ofNat 64 (laneWord s t va)))]

/-- The lines of the headers that an ACCEPT reads, in ascending address (R354). -/
def acceptLines (s : State) (t : Strand) (va : Nat) (b : Word) : List Nat :=
  let hs := acceptHeads va b
  (hs.filter (fun h => decide (h < va)) ++ hs.filter (fun h => decide (va ≤ h))).foldl
    (fun l h => linesThen l (vaLines s t [(h, 64)])) []

/-- The lines of an instruction's page-store access in the order in which they are taken (R160); none for an instruction
without one. What a form reads to learn how much it reads is taken as its lines hold it (log 6). -/
def accLines (s : State) (t : Strand) : Instr → List Nat
  | .ld _ _ sz _ _ m => plain (effAddr m t) (2 ^ sz.toNat)
  | .ldx _ _ sz _ _ m => plain (effAddr m t) (2 ^ sz.toNat)
  | .st _ _ sz _ m => plain (effAddr m t) (2 ^ sz.toNat)
  | .stx _ _ sz _ m => plain (effAddr m t) (2 ^ sz.toNat)
  | .ldf _ _ m => plain (effAddr m t) 8
  | .stf _ _ m => plain (effAddr m t) 8
  | .clrf _ _ m => plain (effAddr m t) 8
  | .feq _ _ m => plain (effAddr m t) 8
  | .vld _ _ _ m => plain (effAddr m t) 128
  | .vst _ _ _ m => plain (effAddr m t) 128
  | .vlds _ _ sz _ m => elems (strideAddrs m (elemW sz) t) sz
  | .vsts _ _ sz _ m => elems (strideAddrs m (elemW sz) t) sz
  | .vgath _ _ sz _ m => elems (gatherAddrs m (elemW sz) t) sz
  | .vscat _ _ sz _ m => elems (gatherAddrs m (elemW sz) t) sz
  | .vldb _ _ base gl mode disp =>
    let va := (baseDisp base disp t).toNat
    match vldbPage s t va mode.toNat with
    | .ok pg => vldbLines pg mode.toNat (vldbTile pg va) (vldbRun (getG t gl))
    | .error _ => vaLines s t [(va, 1)]
  | .aadd _ _ b _ sz _ o => atom b o sz
  | .afadd _ _ b _ sz _ o => atom b o sz
  | .amin _ _ b _ sz _ o => atom b o sz
  | .amax _ _ b _ sz _ o => atom b o sz
  | .aand _ _ b _ sz _ o => atom b o sz
  | .aor _ _ b _ sz _ o => atom b o sz
  | .axor _ _ b _ sz _ o => atom b o sz
  | .aswp _ _ b _ sz _ o => atom b o sz
  | .acas _ _ b _ sz _ o => atom b o sz
  | .launch _ _ a _ _ => desc a 32
  | .qpush _ a _ => desc a 32
  | .pipebind _ _ _ a => desc a 16
  | .gang _ a _ =>
    let va := tva t a
    vaLines s t [(va, 32 + 32 * min (laneWord s t va % 16) 8)]
  | .kvapp _ _ _ _ a _ => desc a 64
  | .attd _ _ a _ => desc a 64
  | .lfilt _ _ a _ => desc a 64
  | .commit _ _ _ b _ => desc b 72
  | .coll _ _ a _ => desc a 128
  | .msend _ _ _ a b _ => desc a ((getG t b).toNat / 2 ^ 32 % 2 ^ 9)
  | .dqsend _ a _ _ => desc a 256
  | .sample _ _ a _ _ => linesThen (desc a 64) (desc a (sampleLen s t (tva t a)))
  | .accept _ _ a b =>
    let n := (getG t b).toNat % 32
    if n = 0 ∨ 16 < n then [] else acceptLines s t (tva t a) (getG t b)
  | .sactp _ _ a b _ =>
    linesThen (slotLines s t (tva t a)) (desc b (8 * slotCount (BitVec.ofNat 64 (laneWord s t (tva t a)))))
  | .sstepB _ _ a _ => slotLines s t (tva t a)
  | .mrecv _ tg _ a b =>
    match (getCp s t.cl t.task.pid).inbox.find? (msgMatches tg ((getG t b).toNat % 2 ^ 16)) with
    | some m => desc a m.bytes.length
    | none => []
  | .dqrecv _ _ a b =>
    match (tabGet (getDp s (dieOf t.cl) t.task.pid).dqIn (dqDie (getG t b))).getD [] with
    | e :: _ => desc a e.2.length
    | [] => []
  | _ => []
where
  plain (va : Va) (n : Nat) : List Nat := vaLines s t [(va.toNat, n)]
  elems (l : List Va) (sz : BitVec 2) : List Nat := vaLines s t (l.map (fun va => (va.toNat, 2 ^ sz.toNat)))
  atom (b : R6) (o : BitVec 24) (sz : BitVec 2) : List Nat :=
    let va := baseDisp b o t
    if atomLocal t va.toNat then vaLines s t [(va.toNat, 2 ^ sz.toNat)] else []
  desc (a : R6) (n : Nat) : List Nat := vaLines s t [(tva t a, n)]

/-- The forms that write lines: they issue at their first line and perform the others at their cycles (R160). The others issue
at their first line too, and read each line at its cycle. -/
def writesLines : Instr → Bool
  | .st _ _ _ _ _ => true
  | .stx _ _ _ _ _ => true
  | .stf _ _ _ => true
  | .clrf _ _ _ => true
  | .vst _ _ _ _ => true
  | .vsts _ _ _ _ _ => true
  | .vscat _ _ _ _ _ => true
  | .mrecv _ _ _ _ _ => true
  | .dqrecv _ _ _ _ => true
  | _ => false

/-- What the instruction at pc0 may do in this cycle. -/
inductive IssueAct where
  /-- It is performed now. -/
  | now
  /-- It waits: the strand as it stands. -/
  | wait (t : Strand)
  /-- The first of its lines is read now and others follow: the strand with what has been read. -/
  | first (t : Strand)
deriving DecidableEq, Repr

/-- What an instruction whose lines take several cycles takes at issue beside memory (R178, R354). -/
def takenAtIssue (s : State) (t : Strand) : Instr → List Word
  | .vldb _ _ base _ _ disp => vldbAttr s t (baseDisp base disp t).toNat
  | .accept _ _ _ _ => acceptRegs s t
  | _ => []

/-- Read the lines of an access whose cycles have come, and wait for the next. -/
def bufferLines (s : State) (t : Strand) (i : Instr) (ts : List (Nat × Nat)) : Strand :=
  let due := ts.filter (fun l => decide (l.2 ≤ s.cycle) && (tabGet t.lineBuf l.1).isNone)
  let next := (ts.filter (fun l => decide (s.cycle < l.2))).foldl (fun m l => min m l.2) (s.cycle + 128)
  { t with
    reach := some (t.reach.getD s.cycle), issued := some (t.issued.getD s.cycle), hold := next
    atIssue := if t.issued.isNone then takenAtIssue s t i else t.atIssue
    lineBuf := due.foldl (fun b l => tabSet b l.1 (BitVec.ofNat 1024 (rdN s l.1 128))) t.lineBuf }

/-- Interlocks and windows (R55, R57, R160). -/
def issueAct (s : State) (t : Strand) (i : Instr) : IssueAct :=
  if s.cycle < interlock s t i then .wait t
  else
    let on := match guardOf i with
      | some g => guardOn g t
      | none => true
    match lineTimes t s (if on then accLines s t i else []) with
    | [] => .now
    | l :: ls =>
      let first := ls.foldl (fun m x => min m x.2) l.2
      let last := ls.foldl (fun m x => max m x.2) l.2
      if s.cycle < first then .wait { t with hold := first, reach := some (t.reach.getD s.cycle) }
      else if last ≤ s.cycle || writesLines i then .now
      else if t.issued.isNone then .first (bufferLines s t i (l :: ls))
      else .wait (bufferLines s t i (l :: ls))

/-- Perform the lines of a store whose cycles have come (R160). -/
def flushLines (s : State) (t : Strand) : Strand × State :=
  if t.lineOut.any (fun w => decide (w.1 ≤ s.cycle)) then
    let t' := { t with lineOut := t.lineOut.filter (fun w => !decide (w.1 ≤ s.cycle)) }
    (t', putStrand (linesDue s t.lineOut) t')
  else (t, s)

/-! ### The boundary (R400, R401) -/

/-- What OVERRUN puts into the record of a strand: the word of its next instruction, and ECCP for a deferred MEMORY_ECC, which
is taken with it (R400). -/
def overrunInfo (s : State) (t : Strand) : FaultInfo × State :=
  let w := match fetchWord s t t.pc0 with
    | .ok w => w
    | .error _ => 0
  ({ cause := .overrun, word := w, eccp := eccOwed s t.task.id }, { s with owed := s.owed.filter (fun o => o.1 != t.task.id) })

/-- OVERRUN of the strand on lane `ev.lane` (R224, R400, R409). An access that has issued is not performed again: the cause is
taken on the next instruction. -/
def execOverrun (s : State) : Out :=
  match tabGet s.strands s.ev.lane with
  | none => .next s
  | some t =>
    if s.cycle < endCycle t then .next s
    else
      let t := if t.issued.isSome then advance t else t
      let (f, s) := overrunInfo s t
      .next (takeFaultAt s { t with lineOut := [] } (8 * t.seg.len) f)

/-- What a running strand does in this cycle. -/
inductive LaneAct where
  /-- Nothing: it waits for a cycle that is known. -/
  | idle
  /-- An interlock or a window holds it. -/
  | wait (t : Strand)
  /-- A fetch or decode cause. -/
  | cause (f : FaultInfo)
  /-- OVERRUN, or a deferred MEMORY_ECC. -/
  | event (i : Instr) (a : EvArg)
  /-- A pre-emption request is due at this boundary unless the instruction would raise a cause now; `w` is the strand when the
  instruction would still wait. -/
  | offer (i : Instr) (w : Option Strand)
  /-- The first line of an access of several: its checks are made, and `t` waits for the other lines unless one fails. -/
  | first (i : Instr) (t : Strand)
  | run (i : Instr)
deriving DecidableEq, Repr

/-- A request in effect on the lane, or a switch of the cluster, finds a save point here (R412, R414): the next instruction
is in no delay slot and none of its lines is read. -/
def preemptDue (s : State) (t : Strand) : Bool :=
  t.ds == 0 && t.issued.isNone
    && ((getCp s t.cl t.task.pid).preempt.contains t.lane || (getClu s t.cl).switching.isSome)

/-- The strand stands at a boundary though it waits for a known cycle: before an access whose window has not come, or before
an idling LDF (R55, R233, R412). -/
def inBubble (t : Strand) : Bool := t.issued.isNone && (t.reach.isSome || t.idle != 0)

/-- The instruction is a TWAIT. -/
def isTwait : Instr → Bool
  | .twait _ _ => true
  | _ => false

/-- What the strand does now (R400). From the cycle in which a TWAIT reached issue there is no boundary before it has issued: a
request or a deferred cause is taken after it (R292). -/
def laneAct (s : State) (t : Strand) : LaneAct :=
  let here : EvArg := { cl := t.cl, pid := t.task.pid, lane := laneKey t }
  let held := decide (s.cycle < t.hold)
  let fetch := fetchInstr s t
  let twait := t.reach.isSome && (match fetch with
    | .ok i => isTwait i
    | .error _ => false)
  if endCycle t ≤ s.cycle then .event .overrun here
  else if held && (!inBubble t || twait) then .idle
  else if t.ds == 0 && t.issued.isNone && !twait && eccOwed s t.task.id then .event .deferredEccFault here
  else match fetch with
    | .error f => if held then .idle else .cause f
    | .ok i =>
      let due := preemptDue s t && !twait
      if held then (if due then .offer i (some t) else .idle)
      else match issueAct s t i with
        | .now => if due then .offer i none else .run i
        | .wait t' => if due then .offer i (some t') else .wait t'
        | .first t' => if due then .offer i none else .first i t'

end Sys2Proof.Machine
end

