-- ==== Sys2Proof/Machine/Units.lean ====
section
/-! DEFINITION. The units that perform engine operations: copy channels, the walker, REDM, and the arrival of a LAUNCH
(spec/06 R174-R178; spec/07 R190-R204; spec/09 R252, R262; spec/14 R370, R372, R382; spec/15 R398). In an event, `id` is
the operation. -/

namespace Sys2Proof.Machine

/-- The pending operation `id`. -/
def opFind (s : State) (id : Nat) : Option Op := s.ops.find? (fun o => o.id == id)

/-- One unit of an operation on a copy channel (R195-R198). -/
def unitData (s : State) (o : Op) : UnitRes :=
  match o.kind with
  | .cpy => unitCpy s o
  | .cpy2d => unitCpy2d s o
  | .gath => unitTable s o false
  | .scat => unitTable s o true
  | .fld => unitFld s o
  | .fst => unitFst s o
  | _ => .hold s

/-- CHANNEL_UNIT: the next unit of the operation at the head of its channel; an operation whose units are done completes
when its writes are where its scope demands (R185, R370, R372). With `ev.unit` = 1 the destination accepts the buffered
write at position `ev.n`; `ev.flag` is a host's error completion (R201). -/
def execChannelUnit (s : State) : Out :=
  if s.ev.unit = 1 then .next (if (drainable s).contains s.ev.n then drainAt s s.ev.n else s)
  else
    match opFind s s.ev.id with
    | none => .next s
    | some o =>
      match o.fin with
      | some x => .next (if mayComplete s o then finishOp s o x else s)
      | none =>
        if onChannel o.kind && channelHead s o && opReady s o then .next (applyUnit o 0 (unitData s o)) else .next s

/-- The operations of the walker (R174, R316). -/
def onWalker : OpKind → Bool
  | .pgalloc | .pgfree | .pgref | .pgcow | .pgset | .pgget | .pgpin | .pgunpin | .pgspill | .pgfill | .pgmap
  | .pgunmap | .kvsplice | .kvspliceS | .kvtrim | .rampset => true
  | _ => false

/-- The walker performs the forms of one task in issue order (R174); a RAMPSET that has written waits on its own
(RAMPSET_COMPLETE) and holds the later ones back, and so does an operation that a fence holds (R378). -/
def walkerReady (s : State) (o : Op) : Bool :=
  onWalker o.kind && opReady s o && !(o.kind == .rampset && o.i == 1)
    && !unitHeld s (fun q => q.cl == o.cl && onWalker q.kind) o
    && !((s.ops.takeWhile (fun q => q.id != o.id)).any (fun q => q.task == o.task && onWalker q.kind && q.fin.isNone))

/-- WALKER_OP_COMPLETE: the walker performs the form whole, or finds that it must still wait (R174-R178, R316). -/
def execWalkerOpComplete (s : State) : Out :=
  match opFind s s.ev.id with
  | none => .next s
  | some o =>
    if !walkerReady s o then .next s
    else
      let r := match o.kind with
        | .kvsplice => doKv s o
        | .kvspliceS => doKv s o
        | .kvtrim => doKv s o
        | .rampset => doKv s o
        | _ => doPage s o
      match r with
      | .done x s => .next (doneOp s o.id x.toNat)
      | .stop c s => .next (stopOp s o c 1 (o.args.getD 0 0) 0)
      | .wait s => .next s

/-- REDM_UNIT: the next unit of the REDM at the head of its channel (R398). -/
def execRedmUnit (s : State) : Out :=
  match opFind s s.ev.id with
  | none => .next s
  | some o =>
    if o.kind == .redm && o.fin.isNone && channelHead s o && opReady s o then .next (applyUnit o 0 (unitRedm s o))
    else .next s

/-- LAUNCH_ARRIVAL: the checks of QPUSH at the target, their results written; either way the message has reached the
cluster (R262, R382). -/
def execLaunchArrival (s : State) : Out :=
  match opFind s s.ev.id with
  | none => .next s
  | some o =>
    if o.kind == .launch && msgReady s o then
      let c := o.unit
      let s := arriveOp s o
      let s := updCp s c o.pid (fun k => { k with msgRecv := (k.msgRecv + 1) % 2 ^ 48 })
      let cfg := qcfg s c o.pid o.i
      if !qUpush cfg && !o.sup then .next (doneOp s o.id (errW 3).toNat)
      else if !qEn cfg then .next (doneOp s o.id (errW 2).toNat)
      else if 32 ≤ taskCount (queueOf (getCp s c o.pid) o.i) then .next (doneOp s o.id (errW 1).toNat)
      else .next (doneOp (appendTask s c o.pid o.i (o.args.drop 1)) o.id 0)
    else .next s

end Sys2Proof.Machine
end

