-- ==== Sys2Proof/Machine/Faults.lean ====
section
/-! DEFINITION. Fault records and fault tasks, RESUME and ABORT, forced pre-emption, and the Whisk (spec/16 R399-R423).
In an event, `unit` is the die, `lane` the package number of a lane. -/

namespace Sys2Proof.Machine

/-! ### Fault records (R404-R407) -/

/-- A die register of a partition. -/
def dieCtl (s : State) (d p n : Nat) : Nat := (ctlGet (getDp s d p).ctl n).toNat

/-- VA of record `slot`. -/
def recVa (s : State) (d p slot : Nat) : Nat := dieCtl s d p 0x420 / 2 ^ 15 % 2 ^ 33 * 2 ^ 15 + 64 * slot

/-- The eight words of a record in its slot (R405). -/
def recWords (r : FaultRec) (slot : Nat) : List Word :=
  (r.ev.word0 ||| BitVec.ofNat 64 (2 ^ 32 * slot + 2 ^ 40 * (if r.live then 1 else 0))) :: r.ev.words

/-- Write a record to its page under the default root; a record page without a translation takes nothing (log 13). -/
def writeRec (s : State) (d slot : Nat) (r : FaultRec) : State :=
  let va := recVa s d r.ev.pid slot
  match walk s r.ev.pid 0 (va / 32768) with
  | some l => wrMem s (recPhys s r.ev.pid l.fri + va % 32768) ((recWords r slot).flatMap (fun w => toLe 8 w.toNat))
  | none => s

/-- A notice (R407) for a partition on a die: it goes to cluster NCLU. -/
def notice (s : State) (d p code : Nat) (a b : Word) : State :=
  let cl := 32 * d + dieCtl s d p 0x422 % 32
  queueEvent s
    { pid := p, cl := cl, cause := 0, kind := 3, word0 := recWord0 0 3 false false p cl 0 0 0
      words := [0, 0, 0, a, b, 0, BitVec.ofNat 64 code], subject := .notice }

/-- The fault task of a record (R406). -/
def faultEntry (s : State) (d slot entry : Nat) (e : FaultEv) : Entry :=
  { task := { id := s.nextId, pid := e.pid, root := 0, fq := true, bprio := 127
              noticeSlot := if e.kind = 3 then some slot else none, batch := none }
    work := .fresh (BitVec.ofNat 48 entry) (BitVec.ofNat 64 (recVa s d e.pid slot))
      (BitVec.ofNat 64 (e.cause + 2 ^ 8 * e.kind + 2 ^ 10 * slot))
    queue := 0, prio := 127, since := tickNow s, nbt := 0, nb := 0, headAt := none, capAt := none }

/-- FLT_LOST counts an event and names its slot (R404). -/
def faultLost (s : State) (d p slot : Nat) : State :=
  let n := min (2 ^ 32 - 1) (dieCtl s d p 0x423 % 2 ^ 32 + 1)
  updDp s d p (fun x => { x with ctl := tabSet x.ctl 0x423 (BitVec.ofNat 64 (n + 2 ^ 32 * slot)) })

/-- FAULT_EVENT_ENQUEUE on die `ev.unit`: the oldest waiting event takes the lowest free slot of its partition and an
entry of the queue (R249, R405, R406). -/
def execFaultEventEnqueue (s : State) : Out :=
  let d := s.ev.unit
  let die := getDie s d
  match die.waiting with
  | [] => .next s
  | e :: rest =>
    let used := (getDp s d e.pid).records.map (·.1)
    match leastFree used 256 0 with
    | none => .next s
    | some slot =>
      if 256 ≤ die.fq.countP (·.counts) then .next s
      else
        let r : FaultRec := { ev := e, live := true, done := false }
        let s := putDie s d { die with waiting := rest }
        let s := writeRec (updDp s d e.pid (fun x => { x with records := tabSet x.records slot r })) d slot r
        let vec := dieCtl s d e.pid 0x421 / 2 ^ 8 % 2 ^ 40 * 2 ^ 8
        match sieveWords s e.cl e.pid 0 (vec + 8 * e.cause) 1 with
        | .ok ws =>
          let f := faultEntry s d slot (ws.getD 0 0 % 2 ^ 48) e
          .next (updDie { s with nextId := s.nextId + 1 } d (fun x => { x with fq := x.fq ++ [⟨e.cl, f, true⟩] }))
        | .error _ =>
          let s := faultLost s d e.pid slot
          .next (if e.kind = 3 then updDp s d e.pid (fun x => { x with records := tabDel x.records slot }) else s)

/-! ### The end of a task by ABORT (R186, R422) -/

/-- Cancel the pending operations of a task at their unit boundaries: the units under way are finished, their leases end,
and what is written stays written (R186). -/
def cancelOps (s : State) (task : Nat) : State :=
  let mine : Op → Bool := fun o => o.task == task
  let s := (s.ops.filter mine).foldl (fun s o => if o.kind == .coll then cancelColl s o.id else s) s
  dropOps (flushOut s mine) mine

/-- A task leaves its gang (R232). -/
def leaveGang (s : State) (cl p gang member : Nat) : State :=
  if gang = 0 then s
  else updCp s cl p (fun k => { k with gangs := listUpd k.gangs (fun g => g.num == gang) (fun g =>
    { g with active := setDel g.active member, alive := setDel g.alive member }) })

/-- Take a task out of a cluster's queues; an urgent head that goes leaves no urgent head (R254). -/
def unqueueCp (k : Task) (x : ClPart) : ClPart :=
  { x with
    queues := x.queues.map (fun q => (q.1, q.2.filter (fun e => e.task.id != k.id)))
    urgent := x.urgent.filter (fun q => (queueOf x q).head?.map (fun e => e.task.id) != some k.id)
    saved := x.saved.filter (fun e => e.task.id != k.id)
    far := x.far.filter (fun f => f.taskId != k.id) }

/-- Take a task out of the queues of every cluster of its partition. -/
def unqueue (s : State) (k : Task) : State :=
  let s : State := { s with dies := s.dies.map (fun e => (e.1, { e.2 with fq := e.2.fq.filter (fun x => x.entry.task.id != k.id) })) }
  (s.clParts.filter (fun e => e.1 % 16 == k.pid)).foldl (fun s e =>
    markHeads (updCp s (e.1 / 16) k.pid (unqueueCp k)) (e.1 / 16) k.pid) s

/-- Take a placed segment of a task off the calendar. -/
def unplace (s : State) (k : Task) : State :=
  s.clParts.foldl (fun s e =>
    match e.2.placed.find? (fun q => q.entry.task.id == k.id) with
    | none => s
    | some q =>
      let cl := e.1 / 16
      let s := leaveGang s cl k.pid q.seg.gang q.seg.member
      let s := updCp s cl k.pid (fun x =>
        releaseFrom { x with placed := x.placed.filter (fun y => y.seg.sid != q.seg.sid) } q.seg.sid (tickNow s))
      freeHeld s k.pid q.seg.xl) s

/-- A parked strand's task ends: one that has only stopped still has its segment (R402, R422). -/
def abortParked (s : State) (t : Strand) : State :=
  let s := gangEnd { s with parked := s.parked.filter (fun x => x.task.id != t.task.id) } t true
  if t.ending.isSome then closeSegment s t else freeHeld s t.task.pid t.seg.xl

/-- End a task wherever it is, whose cluster is `cl`. -/
def abortTask (s : State) (cl : Nat) (k : Task) : State :=
  let s := cancelOps s k.id
  let s := match s.strands.find? (fun e => e.2.task.id == k.id) with
    | some e => endSegment (gangEnd s e.2 true) e.2
    | none => s
  let s := match s.parked.find? (fun t => t.task.id == k.id) with
    | some t => abortParked s t
    | none => s
  let s := match s.conts.find? (fun c => c.task.id == k.id) with
    | some c => leaveGang { s with conts := s.conts.filter (fun x => x.task.id != k.id) } c.cl k.pid c.gang c.member
    | none => s
  taskEnd (unplace (unqueue (freeImage s k.id k.pid) k) k) cl k

/-- Discard a placement entry (R422): a gang's round takes its members' tasks with it. -/
def abortEntry (s : State) (cl : Nat) (e : Entry) : State :=
  match e.work with
  | .gangRound num =>
    let mem := match (getCp s cl e.task.pid).gangs.find? (fun g => g.num == num) with
      | some g => g.alive.filterMap (tabGet g.members)
      | none => []
    endGang (mem.foldl (fun s k => abortTask s cl k) s) cl e.task.pid num
  | _ => abortTask s cl e.task

/-! ### RESUME (R410, R413, R422) -/

/-- The image whose header is at `a` and whose shape words are at `sh` fails R410; during a switch the two are kept apart
(R416). -/
def imageBad (s : State) (a sh : Nat) : Bool :=
  let w := fun (i : Nat) => rdN s (a + 8 * i) 8
  let lr := fld (w 2) 48 13
  lr == 0 || decide (4096 < lr) || fld (w 0) 48 2 == 3 || w 0 % 8 != 0 || w 1 % 8 != 0 || w 2 % 8 != 0
    || w 0 / 2 ^ 50 != 0 || w 1 / 2 ^ 51 != 0 || w 2 / 2 ^ 61 != 0 || w 4 / 2 ^ 32 != 0 || w 5 / 2 ^ 60 != 0
    || w 6 / 2 ^ 30 != 0 || w 8 / 2 ^ 32 != 0 || (List.range 7).any (fun i => w (9 + i) != 0)
    || (List.range lr).any (fun u => rdN s (sh + 4 * u) 4 % 256 != 0)

/-- The task of a remainder: a gang member's has left its gang, whose later rounds it joins no more (R232; log 104). -/
def remTask (t : Strand) : Task := if t.seg.gang = 0 then t.task else { t.task with left := true }

/-- A parked strand's remainder enters its queue, and its context is freed (R413, R422). -/
def queueRemainder (s : State) (t : Strand) : State :=
  let s := { s with parked := s.parked.filter (fun x => x.task.id != t.task.id) }
  requeue (freeHeld s t.task.pid t.seg.xl) t.cl t.task.pid t.seg.queue t.seg.prio (remTask t) (.remainder t)

/-- RESUME of a placement entry: the checks of QPUSH by a supervisor, and the clamp (R422); none when the queue takes
nothing, or when the fault queue holds its 256 entries (R249), which answers QUEUE too (log 103). -/
def resumeEntry (s : State) (cl : Nat) (e : Entry) : Option State :=
  let p := e.task.pid
  if e.task.fq then
    if countsInQueue e.work && decide (256 ≤ (getDie s (dieOf cl)).fq.countP (·.counts)) then none
    else some (updDie s (dieOf cl) (fun d => { d with fq := d.fq ++ [⟨cl, { e with since := tickNow s }, countsInQueue e.work⟩] }))
  else if queueShut s cl p e.queue then none
  else some (appendEntry s cl p e.queue e (countsInQueue e.work))

/-- RESUME (0), ABORT (1) or ABORT.T (2) of the subject of a live record: the failure code, or the state (R422). An
operation that was cancelled meanwhile leaves nothing to do (log 66). -/
def actOn (s : State) (kind : Nat) (e : FaultEv) : Except Nat State :=
  match e.subject with
  | .notice => .error 1
  | .strand task =>
    match s.parked.find? (fun t => t.task.id == task) with
    | none => .ok s
    | some t =>
      if kind ≠ 0 then .ok (abortTask s t.cl t.task)
      else match imageOf s task t.task.pid, shapesOf s task t.task.pid with
        | some a, some sh => if imageBad s a sh then .error 4 else .ok (queueRemainder s t)
        | _, _ => .error 4
  | .op id =>
    match opFind s id with
    | none => .ok s
    | some o =>
      if kind = 0 then .ok (updOp s id (fun o => { o with stopped := false }))
      else
        let s := if o.kind == .coll then cancelColl s id else s
        let s := completeOp (flushOut s (fun x => x.id == id)) o (errW 5).toNat
        if kind = 2 then
          match (s.strands.map (·.2) ++ s.parked).find? (fun t => t.task.id == o.task) with
          | some t => .ok (abortTask s t.cl t.task)
          | none =>
            match s.conts.find? (fun c => c.task.id == o.task) with
            | some c => .ok (abortTask s c.cl c.task)
            | none =>
              let es := s.clParts.flatMap (fun k => k.2.queues.flatMap (·.2) ++ k.2.placed.map (·.entry) ++ k.2.saved)
                ++ s.dies.flatMap (fun k => k.2.fq.map (·.entry))
              match es.find? (fun x => x.task.id == o.task) with
              | some x => .ok (abortTask s o.cl x.task)
              | none => .ok s
        else .ok s
  | .entry cl en =>
    if kind = 0 then (match resumeEntry s cl en with
      | some s => .ok s
      | none => .error 3)
    else .ok (abortEntry s cl en)
  | .batch d num =>
    if kind = 0 then .ok (updBatch s d e.pid num (fun b => { b with stopped := false }))
    else .ok (updBatch s d e.pid num (fun b => { b with ended := true }))

/-- The result of a request on slot `r.slot` of die `d`: its code, 0 on success. -/
def processReq (s : State) (d : Nat) (r : EndReq) : Nat × State :=
  match tabGet (getDp s d r.pid).records r.slot with
  | none => (1, s)
  | some f =>
    if f.ev.kind = 3 then (1, s)
    else if !f.live then (2, s)
    else match actOn s r.kind f.ev with
      | .error c => (c, s)
      | .ok s =>
        let f := { f with live := false, done := true }
        (0, writeRec (updDp s d r.pid (fun x => { x with records := tabSet x.records r.slot f })) d r.slot f)

/-- x is processed before y (R422). -/
def reqFirst (x y : EndReq) : Bool :=
  decide (x.cl < y.cl) || (x.cl == y.cl && (decide (x.lane < y.lane) || (x.lane == y.lane && decide (x.cycle < y.cycle))))

/-- FAULT_REQUEST_PROCESSED on die `ev.unit`: every request of an earlier tick in its order; then the slots of the records
that are done become free (R405, R422). -/
def execFaultRequestProcessed (s : State) : Out :=
  let d := s.ev.unit
  let old := fun (r : EndReq) => decide (r.cycle / 8 < tickNow s)
  let reqs := sortBy reqFirst ((getDie s d).endReqs.filter old)
  let s := updDie s d (fun x => { x with endReqs := x.endReqs.filter (fun r => !old r) })
  let s := reqs.foldl (fun s r =>
    let (c, s) := processReq s d r
    writeReg s r.task r.pid (.g r.d) (if c = 0 then 0 else 2 ^ 63 + c)) s
  .next { s with dieParts := s.dieParts.map (fun e =>
    if e.1 / 16 == d then (e.1, { e.2 with records := e.2.records.filter (fun r => !r.2.done) }) else e) }

/-! ### Forced pre-emption (R411-R413) -/

/-- The partition's strand that runs on a lane of a cluster. -/
def strandOn (s : State) (cl p k : Nat) : Option Strand :=
  match tabGet s.strands (8 * cl + k) with
  | some t => if t.task.pid = p then some t else none
  | none => none

/-- PREEMPT_REQUEST on cluster `ev.cl` of partition `ev.pid`: each request applies to the segment that runs on its lane
now, and to the members of its round; one without a segment is dropped (R411). -/
def execPreemptRequest (s : State) : Out :=
  let cl := s.ev.cl
  let p := s.ev.pid
  let req := cpCtl s cl p 0x1C0
  .next ((List.range 8).foldl (fun s k =>
    if !bit req k then s
    else match strandOn s cl p k with
      | none => updCp s cl p (fun x => clearReq x k)
      | some t =>
        let lanes := (s.strands.filter (fun e =>
          e.2.cl == cl && t.seg.gang != 0 && e.2.seg.gang == t.seg.gang)).map (fun e => e.2.lane)
        updCp s cl p (fun x => { x with preempt := (k :: lanes).foldl setAdd x.preempt })) s)

/-- A strand that a switch saves waits for its partition's next turn (R414, R415). -/
def saveForSwitch (s : State) (t : Strand) : State :=
  let e : Entry :=
    { task := remTask t, work := .remainder t, queue := t.seg.queue, prio := t.seg.prio, since := tickNow s, nbt := 0, nb := 0
      headAt := none, capAt := none }
  updCp s t.cl t.task.pid (fun k => { k with saved := k.saved ++ [e] })

/-- No tile command of the strand's segment is left: each has completed and its batch has committed (R412). -/
def tilesDone (s : State) (t : Strand) : Bool :=
  (getCp s t.cl t.task.pid).tiles.all (fun c => c.sid != t.seg.sid)

/-- A pre-empted strand is saved as it stood at relative cycle `n`: with AUTO its remainder is queued at once, as a continuation
behind all else that reaches the queues in this cycle (R244), else a PREEMPT record names the parked strand; for a switch there
is neither (R412, R414). -/
def preemptNow (s : State) (t : Strand) (n : Nat) : State :=
  let p := t.task.pid
  let auto := bit (cpCtl s t.cl p 0x1C0) 8
  let sw := (getClu s t.cl).switching.isSome
  let (slot, s) := park s t n false sw
  if sw then
    freeHeld { saveForSwitch s t with parked := s.parked.filter (fun x => x.task.id != t.task.id) } p t.seg.xl
  else if auto then { s with autos := s.autos ++ [t.task.id] }
  else
    let c := causeCode .preempt
    queueEvent s
      { pid := p, cl := t.cl, cause := c, kind := 0, word0 := recWord0 c 0 false false p t.cl t.lane t.ctx t.ds
        words := [toW t.pc0, toW t.pc1, toW t.pc2, 0, BitVec.ofNat 64 (imageVa s t.cl p slot), 0, 0]
        subject := .strand t.task.id }

/-- The remainder of a strand that AUTO has saved in this cycle enters its queue (R244, R412). -/
def queueAuto (s : State) (task : Nat) : State :=
  let s := { s with autos := s.autos.filter (· != task) }
  match s.parked.find? (fun x => x.task.id == task) with
  | some t => queueRemainder s t
  | none => s

/-- PREEMPT_SAVE of the strand on lane `ev.lane` at its save point: it leaves its lane and its open batch closes; it is saved
once its pending writes are complete and every batch has committed (R273, R412, R414). With `ev.n` = 1 it ends with the remainder
of task `ev.id` in its queue. -/
def execPreemptSave (s : State) : Out :=
  if s.ev.n = 1 then .next (queueAuto s s.ev.id)
  else
  match tabGet s.strands s.ev.lane with
  | none => .next s
  | some t =>
    if !preemptDue s t then .next s
    else
      let n := relCycle t s
      let (t, s) := closeBatch { s with strands := tabDel s.strands s.ev.lane } t s.cycle
      .next (if settled s t && tilesDone s t then preemptNow s t n
        else stopStrand (updCp s t.cl t.task.pid (fun k => clearReq k t.lane)) t (.preempt n))

/-! ### Stopped strands (R92, R227, R402, R412) -/

/-- A stopped strand may end: its writes are complete, and for a pre-emption its batches have committed. -/
def mayEnd (s : State) (t : Strand) : Bool :=
  settled s t && match t.ending with
    | some (.preempt _) => tilesDone s t
    | some _ => true
    | none => false

/-- A stopped strand ends; a split that is still waiting when its segment's time is over has overrun (R224, R227). -/
def finishEnding (s : State) (t : Strand) : State :=
  let s := { s with parked := s.parked.filter (fun x => x.task.id != t.task.id) }
  match t.ending with
  | none => s
  | some (.fault n f) => faultNow s t n f
  | some (.preempt n) => preemptNow s t n
  | some (.split n ev arg a fired) =>
    if s.cycle < endCycle t then splitNow s t (implicitCont s t n ev arg a fired)
    else
      let (t, s) := closeBatch s t s.cycle
      let (f, s) := overrunInfo s t
      faultNow s t (8 * t.seg.len) f

/-- Every stopped strand that may end does, in the order of their stops. -/
def settleEndings (s : State) : State := (s.parked.filter (mayEnd s)).foldl finishEnding s

/-! ### The Whisk (R417, R418) -/

/-- A fire of cluster `cl`, in this package or another: every cluster of the partition here latches at the first cycle of
tick `due`. -/
def fireWhisk (s : State) (due cl p src tag : Nat) : State :=
  (partClusters s p).foldl (fun s c => updCp s c p (fun k =>
    { k with whisk := k.whisk ++ [(due, src + 4 * cl, tag)] })) s

/-- WHISK_FIRE on cluster `ev.cl` of partition `ev.pid`: `ev.n` is SRC, `ev.unit` the tag of a WHISK. With `ev.flag` the
trigger of another package arrives, and the latch is at the next tick boundary (R418). -/
def execWhiskFire (s : State) : Out :=
  let a := s.ev
  .next (fireWhisk s (tickNow s + if a.flag then 1 else 4) a.cl a.pid (a.n % 4)
    (if a.n % 4 = 0 then a.unit % 2 ^ 16 else 0))

/-- The programmed event of a cluster's WHISK_CFG occurs now: SRC. -/
def whiskDue (s : State) (cl p : Nat) : Option Nat :=
  let w := (cpCtl s cl p 0x1C1).toNat
  let arg := (cpCtl s cl p 0x1C2).toNat
  if w % 2 = 0 then none
  else if w / 8 % 4 = 2 ∧ tickNow s = arg then some 2
  else if w / 8 % 4 = 3 ∧ arg ≤ (devTimeNs s).toNat ∧ (getCp s cl p).whiskOnce = false then some 3
  else none

/-- WHISK_TRIGGER_EVENT on cluster `ev.cl` of partition `ev.pid`. -/
def execWhiskTriggerEvent (s : State) : Out :=
  let cl := s.ev.cl
  let p := s.ev.pid
  match whiskDue s cl p with
  | none => .next s
  | some src => .next (fireWhisk (updCp s cl p (fun k => { k with whiskOnce := src == 3 || k.whiskOnce })) (tickNow s + 4) cl p src 0)

/-- Calendar row of a tick: bit r when resource r is booked. -/
def calRow (k : ClPart) (t : Nat) : Nat :=
  (List.range 32).foldl (fun a r => if bookedAny k.cal r t then a + 2 ^ r else a) 0

/-- The two bits of context `c` of core `core` (R417). -/
def ctxCode (s : State) (cl p core c : Nat) : Nat :=
  let here := fun (l x : Nat) => l / 2 == core && x == c
  if s.strands.any (fun e => e.2.cl == cl && e.2.task.pid == p && here e.2.lane e.2.ctx) then 1
  else if s.parked.any (fun t => t.cl == cl && t.task.pid == p && t.ending.isSome && here t.lane t.ctx) then 1
  else if s.conts.any (fun x => x.cl == cl && x.task.pid == p && x.closing && here x.lane x.ctx) then 1
  else if s.parked.any (fun t => t.cl == cl && t.task.pid == p && here t.lane t.ctx) then 2
  else if (getCp s cl p).placed.any (fun q => here q.lane q.ctx) then 3
  else 0

/-- What a cluster latches (R417): register numbers and values. -/
def snapRegs (s : State) (cl p src tag fires : Nat) : List (Nat × Nat) :=
  let k := getCp s cl p
  let pcs := (List.range 8).map (fun l =>
    (0x303 + l, match strandOn s cl p l with
      | some t => t.pc0.toNat + 2 ^ 48
      | none => 0))
  let qs := (List.range 16).foldl (fun a q =>
    a + (if (queueOf k q).isEmpty then 0 else 2 ^ q) + (if qEn (qcfg s cl p q) then 2 ^ (16 + q) else 0)) 0
  let cpy := (List.range 4).foldl (fun a c => a + (chanOps s cl c).length * 2 ^ (5 * c)) 0
  let ctx := (List.range 32).foldl (fun a c => a + ctxCode s cl p (c / 8) (c % 8) * 4 ^ c) 0
  (0x300, 1 + 2 * src + 2 ^ 16 * tag + 2 ^ 32 * fires) :: (0x301, tickNow s) :: (0x302, (devTimeNs s).toNat)
    :: pcs ++ [(0x30B, calRow k (tickNow s) + 2 ^ 32 * calRow k (tickNow s + 1)), (0x30C, qs), (0x30D, cpy), (0x30E, ctx)]

/-- A cluster's part of a latch: the fires that are due, of which the one of the lowest cluster gives SRC and TAG; a
snapshot still held stays unless OVR = 1 (R418). Whether it latched, and the tag. -/
def latchCluster (s : State) (cl p : Nat) : Option Nat × State :=
  let k := getCp s cl p
  let due := k.whisk.filter (fun w => decide (w.1 ≤ tickNow s))
  match sortBy (fun x y => decide (x.2.1 / 4 < y.2.1 / 4)) due with
  | [] => (none, s)
  | w :: _ =>
    let st := (cpCtl s cl p 0x300).toNat
    let fires := min (2 ^ 32 - 1) (st / 2 ^ 32 + due.length)
    let put := fun (l : List (Nat × Nat)) => updCp s cl p (fun k =>
      { k with whisk := k.whisk.filter (fun w => !decide (w.1 ≤ tickNow s))
               ctl := l.foldl (fun c e => tabSet c e.1 (BitVec.ofNat 64 e.2)) k.ctl })
    if st % 2 = 1 ∧ bit (cpCtl s cl p 0x1C1) 2 = false then (none, put [(0x300, st % 2 ^ 32 + 2 ^ 32 * fires)])
    else (some w.2.2, put (snapRegs s cl p (w.2.1 % 4) w.2.2 fires))

/-- WHISK_LATCH of partition `ev.pid`: its clusters, and each die with one of them, latch; a die that latched queues a
notice (R418). -/
def execWhiskLatch (s : State) : Out :=
  let p := s.ev.pid
  .next ((partDies s p).foldl (fun s d =>
    let (tag, s) := (List.range 32).foldl (fun (acc : Option Nat × State) c =>
      let (x, s) := latchCluster acc.2 (32 * d + c) p
      (acc.1.orElse (fun _ => x), s)) (none, s)
    match tag with
    | none => s
    | some t =>
      let n := min 511 (getDie s d).fq.length
      let s := updDp s d p (fun x => { x with ctl := tabSet x.ctl 0x430 (BitVec.ofNat 64 n) })
      notice s d p 4 (BitVec.ofNat 64 (tickNow s)) (BitVec.ofNat 64 t)) s)

end Sys2Proof.Machine
end

