-- ==== Sys2Proof/Machine/Shake.lean ====
section
/-! DEFINITION. SHAKE256 with 512-bit output (spec/17 R432, which names FIPS 202). -/

namespace Sys2Proof.Machine

/-- Round constants of Keccak-f[1600]. -/
def keccakRc : List Word :=
  [0x0000000000000001, 0x0000000000008082, 0x800000000000808A, 0x8000000080008000, 0x000000000000808B,
   0x0000000080000001, 0x8000000080008081, 0x8000000000008009, 0x000000000000008A, 0x0000000000000088,
   0x0000000080008009, 0x000000008000000A]
  ++ [0x000000008000808B, 0x800000000000008B, 0x8000000000008089, 0x8000000000008003, 0x8000000000008002,
   0x8000000000000080, 0x000000000000800A, 0x800000008000000A, 0x8000000080008081, 0x8000000000008080,
   0x0000000080000001, 0x8000000080008008]

/-- Rotations by lane x + 5y. -/
def keccakRot : List Nat :=
  [0, 1, 62, 28, 27, 36, 44, 6, 55, 20, 3, 10, 43, 25, 39, 41, 45, 15, 21, 8, 18, 2, 61, 56, 14]

/-- Lane x + 5y. -/
def kLane (a : List Word) (x y : Nat) : Word := a.getD (x % 5 + 5 * (y % 5)) 0

/-- The lanes given by a function of their coordinates. -/
def kMake (f : Nat → Nat → Word) : List Word := (List.range 25).map (fun i => f (i % 5) (i / 5))

/-- One round. -/
def keccakRound (a : List Word) (rc : Word) : List Word :=
  let c := (List.range 5).map (fun x => kLane a x 0 ^^^ kLane a x 1 ^^^ kLane a x 2 ^^^ kLane a x 3 ^^^ kLane a x 4)
  let th := kMake (fun x y => kLane a x y ^^^ c.getD ((x + 4) % 5) 0 ^^^ (c.getD ((x + 1) % 5) 0).rotateLeft 1)
  let rp := kMake (fun x y => (kLane th (x + 3 * y) x).rotateLeft (keccakRot.getD ((x + 3 * y) % 5 + 5 * x) 0))
  let ch := kMake (fun x y => kLane rp x y ^^^ (~~~ kLane rp (x + 1) y &&& kLane rp (x + 2) y))
  ch.mapIdx (fun i w => if i = 0 then w ^^^ rc else w)

/-- Keccak-f[1600]. -/
def keccakF (a : List Word) : List Word := keccakRc.foldl keccakRound a

/-- Absorb 136-byte blocks of padded bytes. -/
def absorb : Nat → List Byte → List Word → List Word
  | 0, _, a => a
  | n + 1, bs, a =>
    let blk := bs.take 136
    absorb n (bs.drop 136) (keccakF (a.mapIdx (fun i w =>
      if i < 17 then w ^^^ BitVec.ofNat 64 (leNat ((blk.drop (8 * i)).take 8)) else w)))

/-- SHAKE256 of bytes: the first 64 bytes of its output. -/
def shake256 (bs : List Byte) : List Byte :=
  let n := bs.length / 136 + 1
  let pad := 136 * n - bs.length
  let tail := if pad = 1 then [0x9F#8] else 0x1F#8 :: List.replicate (pad - 2) 0 ++ [0x80#8]
  (((absorb n (bs ++ tail) (List.replicate 25 0)).take 8).flatMap (fun w => toLe 8 w.toNat))

end Sys2Proof.Machine
end

