-- ==== Sys2Proof/Machine/System.lean ====
section
/-! DEFINITION. System instructions, major 0x07, and control registers by number (spec/02 R37-R39; spec/16 R404, R411,
R417, R419-R423). -/

namespace Sys2Proof.Machine

/-! ### Control registers -/

/-- A value that the registers of chapters 11 to 13 do not take (R297, R326, R353). -/
def classCtlReserved (n : Nat) (x : Nat) : Bool :=
  if n = 0x1B0 then x / 2 % 2 ^ 17 != 0 || x / 2 ^ 48 != 0
  else if n = 0x1B1 ∨ n = 0x1B2 then x == 0 || decide (0x7F800000 ≤ x)
  else if n = 0x410 then x / 2 ^ 30 != 0 || x / 2 % 2 ^ 12 == 0 || decide (65536 < x / 2 ^ 13 % 2 ^ 17)
  else if n = 0x411 then x % 2 ^ 23 != 0 || x / 2 ^ 48 != 0
  else if n = 0x412 then x % 2 ^ 20 != 0 || x / 2 ^ 48 != 0
  else if n = 0x413 then x % 2 ^ 24 != 0 || x / 2 ^ 48 != 0
  else false

/-- What a register takes of a value: WHISK_CFG names no cause for its reserved bits, which are ignored and read 0 (R7,
R417). -/
def ctlTaken (n : Nat) (x : Word) : Word := if n = 0x1C1 then x &&& 0x1FFF else x

/-- A value with a reserved bit that its register names a cause for, or a field out of range. -/
def ctlReserved (n : Nat) (x : Nat) : Bool :=
  if n = 0x180 then x / 2 ^ 13 != 0 || x == 0 || decide (4096 < x)
  else if 0x190 ≤ n ∧ n ≤ 0x19F then x / 8 % 2 != 0 || x / 2 ^ 18 != 0
  else if n = 0x1A0 then x / 16 % 16 != 0 || x / 2 ^ 20 != 0 || x / 2 ^ 8 % 2 ^ 12 == 0
  else if n = 0x1C0 then x / 2 ^ 9 != 0
  else if n = 0x420 then x % 2 ^ 15 != 0 || x / 2 ^ 48 != 0
  else if n = 0x421 then x % 2 ^ 8 != 0 || x / 2 ^ 48 != 0
  else if n = 0x422 then x / 2 ^ 5 != 0
  else if n = 0x423 then x / 2 ^ 40 != 0
  else classCtlReserved n x

/-- The register holds nothing a program writes: RO and RC registers ignore writes (R10). -/
def ctlReadOnly (n : Nat) : Bool := n == 0x181 || (0x300 ≤ n && n ≤ 0x30E) || n == 0x423 || n == 0x430

/-- The register belongs to the cluster and not to a partition's copy: CAL_CFG, CAL_STAT (R217). -/
def ctlShared (n : Nat) : Bool := n == 0x180 || n == 0x181

/-- What a register keeps after a read: RC fields read and then clear (R10, R217, R404, R417). -/
def ctlAfterRead (n : Nat) (x : Word) : Word :=
  if n = 0x181 ∨ n = 0x300 ∨ n = 0x880 ∨ n = 0x811 then 0
  else if n = 0x423 ∨ n = 0x801 ∨ n = 0x802 then x &&& ~~~ 0xFFFFFFFF#64
  else if n = 0x800 then x &&& ~~~ 0xFFFF00000000#64
  else x

/-- Read a cluster or die register of a partition, with its clearing. -/
def readCtl (s : State) (cl p n : Nat) : Word × State :=
  if ctlShared n then
    let x := ctlGet (getClu s cl).ctl n
    (x, updClu s cl (fun k => { k with ctl := tabSet k.ctl n (ctlAfterRead n x) }))
  else if n < 0x400 then
    let x := cpCtl s cl p n
    (x, setCpCtl s cl p n (ctlAfterRead n x))
  else
    let x := ctlGet (getDp s (dieOf cl) p).ctl n
    (x, updDp s (dieOf cl) p (fun k => { k with ctl := tabSet k.ctl n (ctlAfterRead n x) }))

/-- A register of this number needs this privilege (R37): strands never hold device privilege (R421). -/
def ctlDenied (n : Nat) (t : Strand) : Bool := decide (0x800 ≤ n) || (decide (0x100 ≤ n) && !isSup t)

/-- Latency of CTLRD (R421). -/
def ctlLatency (n : Nat) : Nat := if n < 0x100 then 1 else if n < 0x400 then 4 else 16

/-- CTLRD (R421). -/
def execCtlrd (g : Guard) (d : R6) (n : BitVec 12) (s : State) : Out :=
  match curStrand s with
  | none => .fault .noStrand
  | some t =>
    let i := Instr.ctlrd g d n
    if ctlDenied n.toNat t then .next (raise i .privilege s t 0)
    else
      issue i g advance (fun t s =>
        if n = 0 then putStrand s (advance (setG s.cycle 1 d (toW t.rm) t))
        else if n = 1 then putStrand s (advance (setG s.cycle 1 d (toW (flagsAt s.cycle t)) t))
        else
          let (x, s) := readCtl s t.cl t.task.pid n.toNat
          putStrand s (advance (setG s.cycle (ctlLatency n.toNat) d x t))) s

/-- CTLWR: a strand register at once, any other at the next tick boundary (R38, R39, R421). -/
def execCtlwr (g : Guard) (n : BitVec 12) (a : R6) (s : State) : Out :=
  match curStrand s with
  | none => .fault .noStrand
  | some t =>
    let i := Instr.ctlwr g n a
    if ctlDenied n.toNat t then .next (raise i .privilege s t 0)
    else
      issue i g advance (fun t s =>
        let x := getG t a
        if n = 0 then
          if x.toNat / 4 ≠ 0 then raise i .reservedField s t 0
          else putStrand s (advance { t with rm := x.setWidth 2 })
        else if n = 1 then putStrand s (advance { t with
          flags := flagsAt s.cycle t &&& ~~~ (x.setWidth 7), late := t.late.filter (fun e => decide (s.cycle < e.1)) })
        else if ctlReserved n.toNat x.toNat then raise i .reservedField s t 0
        else if ctlReadOnly n.toNat then putStrand s (advance t)
        else
          let s' := putStrand s (advance t)
          let x := ctlTaken n.toNat x
          if n.toNat < 0x400 then
            updCp s' t.cl t.task.pid (fun k => { k with ctlPend := k.ctlPend ++ [(n.toNat, x)] })
          else updDp s' (dieOf t.cl) t.task.pid (fun k => { k with ctlPend := k.ctlPend ++ [(n.toNat, x)] })) s

/-- A write of a cluster register as it takes effect: PRE_CTL.REQ is W1S (R411). -/
def ctlApply (n : Nat) (old x : Word) : Word :=
  if n = 0x1C0 then ((old ||| x) &&& 0xFF#64) ||| (x &&& 0x100#64) else x

/-! ### Traps (R420) -/

/-- TRAP, BREAK and SYSCALL save the triple of the instruction after them (R420). -/
def trapOp (i : Instr) (g : Guard) (cause : Strand → Cause) (va : Strand → Word) (imm : BitVec 32) (soft : Bool)
    (s : State) : Out :=
  issue i g advance (fun t s =>
    takeFaultAt s (advance t) (relCycle t s + 1)
      { cause := cause t, va := va t, word := (encode i).headD 0, w7 := toW imm, soft := soft }) s

/-- The cause of a code (R399). -/
def causeOfCode (c : Nat) : Cause :=
  match c with
  | 1 => .illegal | 2 => .reservedField | 3 => .slot | 4 => .register | 5 => .align | 6 => .lease | 7 => .booking
  | 8 => .overrun | 9 => .residency | 10 => .translation | 11 => .protection | 12 => .tenant | 13 => .format
  | 14 => .layout | 15 => .sequence | 16 => .queueFull | 17 => .refcount | 18 => .stream | 19 => .privilege
  | 20 => .brk | 21 => .syscall | 22 => .counter | 23 => .memoryEcc | 24 => .preempt | _ => .notice

/-- TRAP raises the cause in imm32[7:0] with SOFT (R420). -/
def execTrap (g : Guard) (a : R6) (imm : BitVec 32) (s : State) : Out :=
  trapOp (.trap g a imm) g (fun _ => causeOfCode (imm.toNat % 256)) (fun t => getG t a) imm true s

/-- BREAK (R420). -/
def execBreak (g : Guard) (imm : BitVec 32) (s : State) : Out :=
  trapOp (.brk g imm) g (fun _ => .brk) (fun _ => 0) imm false s

/-- SYSCALL (R420). -/
def execSyscall (g : Guard) (a : R6) (imm : BitVec 32) (s : State) : Out :=
  trapOp (.syscall g a imm) g (fun _ => .syscall) (fun t => getG t a) imm false s

/-! ### RESUME, ABORT, WHISK (R422, R423) -/

/-- A request to the die; g[d] is pending until the first cycle of the tick after next (R422). -/
def endRequest (i : Instr) (g : Guard) (kind : Nat) (d a : R6) (s : State) : Out :=
  issueSup i g (fun t s =>
    let x := getG t a
    if leaseHit s t i then raise i .lease s t 0
    else if x.toNat / 256 ≠ 0 then raise i .reservedField s t 0
    else
      let r : EndReq :=
        { cl := t.cl, lane := t.lane, cycle := s.cycle, pid := t.task.pid, kind := kind, slot := x.toNat
          task := t.task.id, d := d.toNat }
      let t := setG s.cycle (8 * (tickNow s + 2) - s.cycle) d (getG t d) t
      updDie (putStrand s (advance t)) (dieOf t.cl) (fun k => { k with endReqs := k.endReqs ++ [r] })) s

/-- RESUME (R422). -/
def execResume (g : Guard) (d a : R6) (s : State) : Out := endRequest (.resume g d a) g 0 d a s

/-- ABORT (R422). -/
def execAbort (g : Guard) (t : Bool) (d a : R6) (s : State) : Out :=
  endRequest (.abort g t d a) g (if t then 2 else 1) d a s

/-- WHISK: fires with EN = 1 in its issue tick; without UW it needs supervisor privilege (R417, R423). -/
def execWhisk (g : Guard) (tag : BitVec 16) (s : State) : Out :=
  match curStrand s with
  | none => .fault .noStrand
  | some t =>
    let i := Instr.whisk g tag
    let w := cpCtl s t.cl t.task.pid 0x1C1
    if !bit w 1 && !isSup t then .next (raise i .privilege s t 0)
    else
      issue i g advance (fun t s =>
        let s' := putStrand s (advance t)
        if bit w 0 then
          { s' with agenda := s'.agenda ++ [(.whiskFire, { cl := t.cl, pid := t.task.pid, n := 0, unit := tag.toNat })] }
        else s') s

end Sys2Proof.Machine
end

