-- ==== Sys2Proof/Machine/Device.lean ====
section
/-! DEFINITION. Host ports, the host semaphore, active messages, time, boot, firmware, attestation, soft errors and
cooling (spec/17 R424-R426, R430-R436; spec/09 R251, R253; spec/01 R33). In an event, `unit` is the host port. -/

namespace Sys2Proof.Machine

/-! ### Device registers -/

def devCtl (s : State) (n : Nat) : Nat := (ctlGet s.dev.ctl n).toNat

def setDev (s : State) (n x : Nat) : State :=
  { s with dev := { s.dev with ctl := tabSet s.dev.ctl n (BitVec.ofNat 64 x) } }

/-- Set bits [lo + n − 1 : lo] of a device register. -/
def setDevField (s : State) (r lo n x : Nat) : State :=
  { s with dev := { s.dev with ctl := tabSet s.dev.ctl r (setField (ctlGet s.dev.ctl r) lo n x) } }

/-! ### The host semaphore (R426) -/

/-- The port owns HOST_SEMA. -/
def ownsSema (s : State) (port : Nat) : Bool := devCtl s 0x800 % 4 == port % 2 + 1

/-- A management write is discarded and counted in DENIED. -/
def denied (s : State) : State :=
  setDevField s 0x800 32 16 (min 65535 (devCtl s 0x800 / 2 ^ 32 % 2 ^ 16 + 1))

/-- A port takes the free semaphore. -/
def takeSema (s : State) (port : Nat) : State := setDevField (setDevField s 0x800 0 2 (port + 1)) 0x800 4 1 port

/-- SEMA_ACQUIRE: bit k of `ev.n` says that port k writes ACQ in this cycle. -/
def execSemaAcquire (s : State) : Out :=
  if devCtl s 0x800 % 4 ≠ 0 then .next s
  else match s.ev.n % 4 with
    | 0 => .next s
    | 1 => .next (takeSema s 0)
    | 2 => .next (takeSema s 1)
    | _ => .next (takeSema s (1 - devCtl s 0x800 / 16 % 2))

/-- SEMA_RELEASE by port `ev.unit`: effective from the owner only. -/
def execSemaRelease (s : State) : Out :=
  .next (if ownsSema s s.ev.unit then setDevField s 0x800 0 2 0 else s)

/-- HOST_LINK_DOWN of port `ev.unit`. -/
def execHostLinkDown (s : State) : Out :=
  .next (if ownsSema s s.ev.unit then setDevField s 0x800 0 2 0 else s)

/-! ### Register reads (R424) -/

/-- What device register `n` reads: DEV_TIME and FW_MIN are not kept as written registers, and a field that is only written
is not kept at all (R10, R431, R433). -/
def devValue (s : State) (n : Nat) : Word :=
  if n = 0x840 then devTimeNs s else if n = 0x862 then toW Config.minVersion else ctlGet s.dev.ctl n

/-- A read of device register `n`: RC fields clear (R10). -/
def readDev (s : State) (n : Nat) : State :=
  let x := ctlAfterRead n (ctlGet s.dev.ctl n)
  { s with
    reply := devValue s n
    dev := if x = ctlGet s.dev.ctl n then s.dev else { s.dev with ctl := tabSet s.dev.ctl n x } }

/-- The device register at an offset of MW_0: an access is 8 bytes and aligned (R424). -/
def mw0Reg (off size : Nat) : Option Nat :=
  if size = 8 ∧ off % 8 = 0 ∧ off < 0x4000 then some (0x800 + off / 8) else none

/-- HOST_SEMA_READ: DENIED clears. -/
def execHostSemaRead (s : State) : Out := .next (readDev s 0x800)

/-! ### Register writes (R424, R427, R431, R433, R434) -/

/-- The registers that only the owner of HOST_SEMA writes (R426). -/
def managed (n : Nat) : Bool :=
  n == 0x810 || (0x818 ≤ n && n ≤ 0x81F) || n == 0x841 || n == 0x842 || n == 0x844 || n == 0x861 || n == 0x874

/-- Write of register `n` with `x` that has no row of its own. -/
def regWrite (s : State) (n : Nat) (x : Word) : State :=
  if n = 0x810 then
    if devCtl s 0x810 / 2 ^ 8 % 2 ^ 8 = 1 then denied s
    else if x.toNat % 8 = 0 ∨ 6 ≤ x.toNat % 8 then setDevField s 0x810 8 8 3 else s
  else if n = 0x861 then (if devCtl s 0x861 / 2 ^ 8 % 2 ^ 8 = 1 then denied s else s)
  else if n = 0x841 ∨ n = 0x842 ∨ n = 0x844 then
    { s with dev := { s.dev with timePend := s.dev.timePend ++ [(n, x)] } }
  else if (0x818 ≤ n ∧ n ≤ 0x81F) ∨ (0x870 ≤ n ∧ n ≤ 0x873) ∨ n = 0x875 then setDev s n x.toNat
  else s

/-- HOST_REGISTER_WRITE: port `ev.unit` writes word 0 of `ev.words` to MW_0 at offset `ev.n`, as an access of `ev.id` bytes.
With `ev.flag` it reads there: spec/95 names rows only for the reads that clear. An access of another form completes with
zeros, and its write is ignored (R424). -/
def execHostRegisterWrite (s : State) : Out :=
  .next (match mw0Reg s.ev.n s.ev.id with
    | none => if s.ev.flag then { s with reply := 0 } else s
    | some n =>
      if s.ev.flag then readDev s n
      else if managed n && !ownsSema s s.ev.unit then denied s
      else regWrite s n (s.ev.words.getD 0 0))

/-! ### Active messages (R251, R425) -/

/-- Log a refusal at a port. -/
def amLog (s : State) (port reason : Nat) : State :=
  let n := 0x801 + port % 2
  setDevField (setDevField s n 0 32 (min (2 ^ 32 - 1) (devCtl s n % 2 ^ 32 + 1))) n 32 4 reason

/-- The reason for which a message is refused, 0 for none. -/
def amRefused (s : State) (ws : List Word) (timed : Bool) : Nat :=
  let w := fun i => (ws.getD i 0).toNat
  let cl := 32 * (w 0 % 8) + w 0 / 8 % 32
  let p := w 0 / 2 ^ 20 % 16
  let q := w 0 / 2 ^ 8 % 16
  let bad := w 0 / 2 ^ 19 % 2 != 0 || w 0 / 2 ^ 24 != 0 || w 1 / 2 ^ 48 != 0 || w 1 % 8 != 0
    || (timed && (w 5 != 0 || w 6 != 0 || w 7 != 0))
  if bad then 1
  else if !inRect s p cl then 2
  else if !qEn (qcfg s cl p q) || !qHost (qcfg s cl p q) then 3
  else if 32 ≤ taskCount (queueOf (getCp s cl p) q) then 4
  else 0

/-- A write of `size` bytes at an offset of MW_2 is one active message of its window (R424). -/
def mw2Fits (timed : Bool) (off size : Nat) : Bool :=
  if timed then off / 2 ^ 16 == 1 && off % 64 == 0 && size == 64 else off / 2 ^ 16 == 0 && off % 32 == 0 && size == 32

/-- A write of port `ev.unit` to a window of MW_2: `ev.id` bytes at offset `ev.n`, with contents `ev.words`. -/
def activeMessage (s : State) (timed : Bool) : State :=
  let ws := s.ev.words
  let w := fun i => (ws.getD i 0).toNat
  let r := if !mw2Fits timed s.ev.n s.ev.id then 5 else amRefused s ws timed
  if r ≠ 0 then amLog s s.ev.unit r
  else
    let desc : List Word :=
      [BitVec.ofNat 64 (w 1 % 2 ^ 48 + 2 ^ 48 * (w 0 / 2 ^ 12 % 128)), ws.getD 2 0, ws.getD 3 0,
        if timed then ws.getD 4 0 else 0]
    let cl := 32 * (w 0 % 8) + w 0 / 8 % 32
    appendTask (arrive s cl (8 + s.ev.lane % 4)) cl (w 0 / 2 ^ 20 % 16) (w 0 / 2 ^ 8 % 16) desc

/-- ACTIVE_MESSAGE: a write to the untimed window, which reaches the cluster through mesh port `ev.lane`. -/
def execActiveMessage (s : State) : Out := .next (activeMessage s false)

/-- TIMED_ACTIVE_MESSAGE. -/
def execTimedActiveMessage (s : State) : Out := .next (activeMessage s true)

/-- AM_LOG_READ of port `ev.unit`: COUNT clears. -/
def execAmLogRead (s : State) : Out := .next (readDev s (0x801 + s.ev.unit % 2))

/-! ### Other reads that clear -/

/-- CAL_STAT_READ on cluster `ev.cl` (R217). -/
def execCalStatRead (s : State) : Out :=
  let (x, s) := readCtl s s.ev.cl s.ev.pid 0x181
  .next { s with reply := x }

/-- FLT_LOST_READ of partition `ev.pid` on the die of cluster `ev.cl` (R404). -/
def execFltLostRead (s : State) : Out :=
  let (x, s) := readCtl s s.ev.cl s.ev.pid 0x423
  .next { s with reply := x }

/-- SNAP_STAT_READ of partition `ev.pid` on cluster `ev.cl` (R417). -/
def execSnapStatRead (s : State) : Out :=
  let (x, s) := readCtl s s.ev.cl s.ev.pid 0x300
  .next { s with reply := x }

/-- ECC_CE_READ (R435). -/
def execEccCeRead (s : State) : Out := .next (readDev s 0x880)

/-- TEN_DROP_READ (R430). -/
def execTenDropRead (s : State) : Out := .next (readDev s 0x811)

/-- PACKET_DISCARD (R430). -/
def execPacketDiscard (s : State) : Out := .next (dropPacket s)

/-! ### Links (R407, R424) -/

/-- A notice on each die of every partition. -/
def noticeAll (s : State) (code : Nat) (a b : Word) : State :=
  s.parts.foldl (fun s e => (partDies s e.1).foldl (fun s d => notice s d e.1 code a b) s) s

/-- LINK_RETRAIN of port `ev.n`, in the order of R16: PCIE_0, PCIE_1, then the torus ports. -/
def execLinkRetrain (s : State) : Out :=
  let k := (tabGet s.dev.retrains s.ev.n).getD 0 + 1
  let s := { s with dev := { s.dev with retrains := tabSet s.dev.retrains s.ev.n k } }
  .next (noticeAll s 2 (BitVec.ofNat 64 s.ev.n) (BitVec.ofNat 64 k))

/-! ### Time (R253, R431) -/

/-- Units of DEV_TIME in a nanosecond. -/
def nsUnits : Nat := 24 * 2 ^ 32

/-- Convert the not-before times of the queued tasks again. -/
def reconvert (s : State) : State :=
  let f := fun (e : Entry) => { e with nb := nbTick s e.nbt }
  { s with
    clParts := s.clParts.map (fun k => (k.1, { k.2 with queues := k.2.queues.map (fun q => (q.1, q.2.map f)) })) }

/-- DEV_TIME moves by a signed number of nanoseconds, mod 2^64 ns. -/
def stepTime (s : State) (ns : Int) : State :=
  { s with devTime := (((s.devTime : Int) + ns * nsUnits) % ((2 ^ 64 * nsUnits : Nat) : Int)).toNat }

/-- TIME_STEP at a tick boundary: the TIME_ADJ writes of the tick before. -/
def execTimeStep (s : State) : Out :=
  let adj := s.dev.timePend.filter (fun e => e.1 == 0x841)
  if adj.isEmpty then .next s
  else
    let s := { s with dev := { s.dev with timePend := s.dev.timePend.filter (fun e => e.1 != 0x841) } }
    .next (reconvert (adj.foldl (fun s e => stepTime s e.2.toInt) s))

/-- PPS_EDGE: the latch takes DEV_TIME as it reads before the snap, and a snap that moves it converts the not-before times
again. -/
def execPpsEdge (s : State) : Out :=
  let cfg := devCtl s 0x844
  if cfg % 2 = 0 then .next s
  else
    let t := (devTimeNs s).toNat
    let s := setDev s 0x843 t
    let near := (t + 5 * 10 ^ 8) / 10 ^ 9 * 10 ^ 9 % 2 ^ 64
    .next (if cfg / 2 % 2 = 0 ∨ near = t then s else reconvert { s with devTime := near * nsUnits })

/-- The time registers written in the tick before, but TIME_ADJ, and the control registers of clusters and dies, take
effect (R421, R431). -/
def applyPending (s : State) : State :=
  let t := s.dev.timePend.filter (fun e => e.1 != 0x841)
  let s := { s with dev := { s.dev with timePend := s.dev.timePend.filter (fun e => e.1 == 0x841) } }
  let s := t.foldl (fun s e => if e.1 = 0x842 then setDev s 0x842 (e.2.toNat % 2 ^ 32) else setDev s 0x844 (e.2.toNat % 8)) s
  let s := s.clParts.foldl (fun s e =>
    if e.2.ctlPend.isEmpty then s
    else e.2.ctlPend.foldl (fun s w =>
      if ctlShared w.1 then updClu s (e.1 / 16) (fun c => { c with ctl := tabSet c.ctl w.1 w.2 })
      else updCp s (e.1 / 16) (e.1 % 16) (fun k =>
        { k with ctl := tabSet k.ctl w.1 (ctlApply w.1 (ctlGet k.ctl w.1) w.2)
                 whiskOnce := if w.1 = 0x1C1 ∨ w.1 = 0x1C2 then false else k.whiskOnce }))
      (updCp s (e.1 / 16) (e.1 % 16) (fun k => { k with ctlPend := [] }))) s
  s.dieParts.foldl (fun s e =>
    if e.2.ctlPend.isEmpty then s
    else updDp s (e.1 / 16) (e.1 % 16) (fun k =>
      { k with ctl := k.ctlPend.foldl (fun c w => tabSet c w.1 w.2) k.ctl, ctlPend := [] })) s

/-! ### Boot and firmware (R432, R433) -/

/-- The stages that the boot loads: the committed image, or the one stored at manufacture. -/
def bootList (s : State) : List (List Byte) := s.dev.fwStore.getD Config.bootStages

/-- Payload length that a stage header gives. -/
def stagePayload (st : List Byte) : Nat := leAt st 8 8

/-- A stage's signature verifies: over its header and payload (R433). -/
def stageOk (st : List Byte) : Bool :=
  let n := 64 + stagePayload st
  Config.signatureOk (st.take n) ((st.drop n).take 3309)

/-- The running measurement. -/
def measBytes (s : State) : List Byte := (List.range 8).flatMap (fun i => toLe 8 (devCtl s (0x868 + i)))

/-- BOOT_STAGE: the next stage is loaded, verified and measured; after the last the boot has succeeded. -/
def execBootStage (s : State) : Out :=
  if !s.dev.booting then .next s
  else
    let stop := fun (s : State) (st : Nat) => setDev { s with dev := { s.dev with booting := false } } 0x860 st
    match (bootList s)[s.dev.boot]? with
    | none => .next (stop s 1)
    | some st =>
      if !stageOk st then .next (stop s 2)
      else
        let m := shake256 (measBytes s ++ shake256 st)
        let s := (List.range 8).foldl (fun s i => setDev s (0x868 + i) (leAt m (8 * i) 8)) s
        let s := { s with dev := { s.dev with boot := s.dev.boot + 1 } }
        .next (if s.dev.boot = (bootList s).length then stop s 1 else s)

def fwStatus (s : State) : Nat := devCtl s 0x861 / 2 ^ 8 % 2 ^ 8

/-- The port may write the firmware window and FW_CMD now. -/
def fwAllowed (s : State) : Bool := ownsSema s s.ev.unit && fwStatus s != 1

/-- FW_WINDOW_WRITE of `ev.bytes` at offset `ev.n`: aligned writes of 8 bytes or more within 16 MiB. With `ev.flag` a port
reads the window, which returns zeros (R424). -/
def execFwWindowWrite (s : State) : Out :=
  if s.ev.flag then .next { s with reply := 0 }
  else if !fwAllowed s then .next (denied s)
  else
    let n := s.ev.bytes.length
    if s.ev.n % 8 ≠ 0 ∨ n % 8 ≠ 0 ∨ n = 0 ∨ 2 ^ 24 < s.ev.n + n then .next s
    else .next { s with dev := { s.dev with fwWindow := wrBytes s.dev.fwWindow s.ev.n s.ev.bytes } }

/-- FW_VERIFY_COMMIT: port `ev.unit` writes OP 1, and verification begins. -/
def execFwVerifyCommit (s : State) : Out :=
  if !fwAllowed s then .next (denied s)
  else .next (setDev { s with dev := { s.dev with verify := true } } 0x861 (2 ^ 8))

/-- FW_DISCARD: port `ev.unit` writes OP 2. -/
def execFwDiscard (s : State) : Out :=
  if !fwAllowed s then .next (denied s)
  else .next (setDev { s with dev := { s.dev with fwWindow := [] } } 0x861 0)

/-- The stages of the image from offset `off`, `n` of them with numbers from `k`; none when a header or length is bad. -/
def fwStages (w : List Host.Cell) (len : Nat) : Nat → Nat → Nat → Option (List (List Byte))
  | 0, _, off => if off = len then some [] else none
  | n + 1, k, off =>
    let h := rdBytes w off 64
    let pay := stagePayload h
    let tot := 64 + pay + 3312
    if leAt h 0 8 % 2 ^ 32 ≠ k ∨ pay % 8 ≠ 0 ∨ len < off + tot ∨ (h.drop 16).any (· != 0) then none
    else (fwStages w len n (k + 1) (off + tot)).map (fun l => rdBytes w off tot :: l)

/-- The image in the window, if its header and lengths are good. -/
def fwImage (w : List Host.Cell) : Option (List (List Byte)) :=
  let h := rdBytes w 0 64
  let w0 := leAt h 0 8
  let len := leAt h 8 8
  let n := w0 % 16
  if n = 0 ∨ 8 < n ∨ w0 / 2 ^ 8 ≠ 1 ∨ w0 / 16 % 16 ≠ 0 ∨ len % 8 ≠ 0 ∨ 2 ^ 24 < len ∨ (h.drop 16).any (· != 0) then none
  else fwStages w len n 0 64

/-- The first stage that fails: status 4 or 5 and its number. -/
def fwFail : List (List Byte) → Nat → Option (Nat × Nat)
  | [], _ => none
  | st :: l, k =>
    if !stageOk st then some (4, k)
    else if leAt st 4 4 < Config.minVersion.toNat then some (5, k)
    else fwFail l (k + 1)

/-- FW_CMD_DONE: the verification of the window ends; only a good image is committed. -/
def execFwCmdDone (s : State) : Out :=
  if !s.dev.verify then .next s
  else
    let s := { s with dev := { s.dev with verify := false } }
    match fwImage s.dev.fwWindow with
    | none => .next (setDev s 0x861 (3 * 2 ^ 8))
    | some l =>
      match fwFail l 0 with
      | some (c, k) => .next (setDev s 0x861 (c * 2 ^ 8 + k * 2 ^ 16))
      | none => .next (setDev { s with dev := { s.dev with fwStore := some l } } 0x861 (2 * 2 ^ 8))

/-! ### Attestation (R434) -/

/-- ATTESTATION: port `ev.unit` writes 1 to ATT_CMD, which reads 0 until the report is done. -/
def execAttestation (s : State) : Out :=
  if !ownsSema s s.ev.unit then .next (denied s)
  else .next (setDev { s with dev := { s.dev with attest := some (s.ev.unit % 2) } } 0x874 0)

/-- The report: nonce, MEAS, part number, serial number and the digests of the live partitions' descriptors. -/
def attReport (s : State) : List Byte :=
  let nonce := (List.range 4).flatMap (fun i => toLe 8 (devCtl s (0x870 + i)))
  let digests := s.parts.flatMap (fun e => shake256 ((List.range 8).flatMap (fun i => toLe 8 (e.2.words.getD i 0).toNat)))
  nonce ++ measBytes s ++ Config.partNumber ++ Config.serial ++ digests

/-- ATT_REPORT_DONE: the signed report stands at ATT_DEST in the memory of the host that asked. -/
def execAttReportDone (s : State) : Out :=
  match s.dev.attest with
  | none => .next s
  | some port =>
    let s := { s with dev := { s.dev with attest := none } }
    let r := attReport s
    let a := 2 ^ 64 + port * 2 ^ 63 + devCtl s 0x875 % 2 ^ 63 / 8 * 8
    .next (setDev (wrMem s a (r ++ Config.attestSign r)) 0x874 1)

/-! ### Soft errors, cooling, power and reset (R33, R435, R436) -/

/-- The bytes that one code word protects at an address: the 8-byte word of a page store, or 32 bytes of HBM (R435). -/
def eccGranule (a : Nat) : Nat × Nat := if (physCluster a).isSome then (wordOf a, 8) else (a / 32 * 32, 32)

/-- A soft error strikes memory at `a`: `hard` when the code word cannot correct it, which two errors in one code word come
to (R435; log 94). Host memory is no store of the device. -/
def strikeMem (s : State) (a : Nat) (hard : Bool) : State :=
  let g := eccGranule a
  let words := (List.range (g.2 / 8)).map (fun i => g.1 + 8 * i)
  if 2 ^ 64 ≤ a then s
  else if hard || softHits s g.1 g.2 != 0 then
    { s with poison := words.foldl setAdd s.poison, soft := s.soft.filter (fun w => !words.contains w) }
  else { s with soft := setAdd s.soft (wordOf a) }

/-- The store of a code. -/
def eccStore (n : Nat) : EccStore :=
  match n with
  | 1 => .regs
  | 2 => .accs
  | 3 => .icache
  | _ => .full

/-- A soft error strikes word `n` of another store of cluster `cl`. One that is only detected has an effect where a chapter
states one: in an accumulator of the partition that runs there (R277, R435; log 94). -/
def strikeStore (s : State) (st : EccStore) (cl n : Nat) (hard : Bool) : State :=
  let e := (st, cl, n)
  if hard || s.singles.contains e then
    let s := { s with singles := s.singles.filter (fun x => x != e) }
    match st, (getClu s cl).pid with
    | .accs, some p => updCp s cl p (fun k => { k with accBad := setAdd k.accBad (n % 16384) })
    | _, _ => s
  else { s with singles := e :: s.singles }

/-- ECC_SCRUB: a single-bit error is corrected and counted: of the page-store word at `ev.id`, or with `ev.unit` = 1 to 4 of
word `ev.id` of another store of cluster `ev.cl`, where its next read finds it. With `ev.flag` a soft error strikes there,
which `ev.n` = 1 says the code cannot correct (R435). -/
def execEccScrub (s : State) : Out :=
  let a := s.ev
  .next (if a.flag then (if a.unit = 0 then strikeMem s a.id (a.n == 1) else strikeStore s (eccStore a.unit) a.cl a.id (a.n == 1))
    else if a.unit = 0 then (if (physCluster a.id).isSome then correctSoft s (wordOf a.id) 8 else s)
    else
      let e := (eccStore a.unit, a.cl, a.id)
      if s.singles.contains e then
        { s with singles := s.singles.filter (fun x => x != e), dev := countCe s.dev 1 }
      else s)

/-- THERMAL_LIMIT: die `ev.unit` rises above its limit, or with `ev.flag` false falls below it; THERM follows. -/
def execThermalLimit (s : State) : Out :=
  let hot := if s.ev.flag then setAdd s.dev.hot (s.ev.unit % 8) else setDel s.dev.hot (s.ev.unit % 8)
  .next (setDev { s with dev := { s.dev with hot := hot } } 0x890 (numBits hot))

/-- POWER_OFF_TRIP. -/
def execPowerOffTrip (s : State) : Out := .next { s with dev := { s.dev with off := true } }

/-- DEVICE_RESET: the machine as after reset; memory and the firmware store keep what they hold (R33, R433, log 19), and
the free values go on. -/
def execDeviceReset (s : State) : Out :=
  .next { State.reset with
    mem := s.mem, fe := s.fe, poison := s.poison, soft := s.soft, singles := s.singles, nfree := s.nfree, inputs := s.inputs
    dev := { fwStore := s.dev.fwStore } }

end Sys2Proof.Machine
end

