-- ==== Sys2Proof/Machine/Partition.lean ====
section
/-! DEFINITION. Partition commands, partition switches and die reset (spec/17 R427-R429; spec/16 R407, R414-R416). In a
command, `ev.unit` is the host port and `ev.pid` the PID that it writes to PART_CMD. -/

namespace Sys2Proof.Machine

/-! ### Commands (R427) -/

/-- Word `i` of PART_BUF. -/
def partBuf (s : State) (i : Nat) : Nat := devCtl s (0x818 + i)

/-- A command is taken: the port owns HOST_SEMA and none runs. -/
def cmdFree (s : State) : Bool := ownsSema s s.ev.unit && devCtl s 0x810 / 2 ^ 8 % 2 ^ 8 != 1

/-- A command begins: STATUS = 1; its result is `r`, or none while it runs on. -/
def beginCmd (s : State) (op : Nat) (r : Option Nat) : State :=
  setDevField { s with dev := { s.dev with cmd := some (op, s.ev.pid % 16, r) } } 0x810 8 8 1

/-- Take a command `op` or count its write in DENIED: `f` gives the result and the state. -/
def command (op : Nat) (f : State → Option Nat × State) (s : State) : Out :=
  if cmdFree s then
    let (r, s) := f s
    .next (beginCmd s op r)
  else .next (denied s)

/-- The command that runs moves on to its result. -/
def cmdResult (s : State) (r : Nat) : State :=
  { s with dev := { s.dev with cmd := s.dev.cmd.map (fun c => (c.1, c.2.1, some r)) } }

/-- PART_CMD_DONE: STATUS takes the result. -/
def execPartCmdDone (s : State) : Out :=
  match s.dev.cmd with
  | some (_, _, some r) => .next (setDevField { s with dev := { s.dev with cmd := none } } 0x810 8 8 r)
  | _ => .next s

/-- The rectangle of a word 0 is bad (R428). -/
def rectBad (w : Nat) : Bool :=
  let r0 := fld w 4 3
  let c0 := fld w 7 5
  let nr := fld w 12 4
  let nc := fld w 16 6
  nr == 0 || nc == 0 || decide (8 < r0 + nr) || decide (32 < c0 + nc)

/-- A cluster lies in the rectangle of a word 0. -/
def rectHas (w c : Nat) : Bool :=
  decide (fld w 4 3 ≤ clRow c ∧ clRow c < fld w 4 3 + fld w 12 4 ∧ fld w 7 5 ≤ clCol c ∧ clCol c < fld w 7 5 + fld w 16 6)

/-- Clusters of a rectangle. -/
def rectClusters (w : Nat) : List Nat := (List.range 256).filter (rectHas w)

/-- Quotas of the other partitions of a cluster, with `q` for `p`, exceed 256 (R156). -/
def quotaOver (s : State) (c p q : Nat) : Bool :=
  decide (256 < ((getClu s c).members.filter (· != p)).foldl (fun n x => n + (getCp s c x).quota) q)

/-! ### CREATE (R428) -/

/-- A die-list entry holds a reserved bit. -/
def diesBad (s : State) (at0 n : Nat) : Bool := (List.range n).any (fun i => rdN s (at0 + 4 * i) 4 / 2 ^ 15 != 0)

/-- The descriptor in PART_BUF is invalid. -/
def descInvalid (s : State) : Bool :=
  let w := partBuf s
  let seq := fld (w 0) 22 3
  w 0 % 16 != 0 || w 0 / 2 ^ 34 != 0 || rectBad (w 0) || !((rectClusters (w 0)).any (fun c => dieOf c == seq))
    || fld (w 0) 25 9 == 0 || decide (256 < fld (w 0) 25 9)
    || w 1 / 2 ^ 40 != 0 || w 1 % 32768 != 0 || w 2 / 2 ^ 26 != 0 || decide (w 2 < 2) || w 3 / 2 ^ 26 != 0
    || w 4 / 2 ^ 51 != 0 || fld (w 4) 0 36 % 2 ^ 30 != 0 || w 5 / 2 ^ 36 != 0 || w 5 % 2 ^ 30 != 0
    || w 6 / 2 ^ 45 != 0 || fld (w 6) 9 36 % 2 ^ 30 != 0
    || w 7 / 2 ^ 40 != 0 || diesBad s (w 7) (fld (w 0) 25 9)

/-- What a partition had on clusters and dies is gone. -/
def clearPart (s : State) (p : Nat) : State :=
  { s with
    clParts := s.clParts.filter (fun e => e.1 % 16 != p)
    dieParts := s.dieParts.filter (fun e => e.1 % 16 != p) }

/-- A partition receives its clusters: each runs it unless another partition runs there (R29, R428). -/
def joinClusters (s : State) (p quota : Nat) (cs : List Nat) : State :=
  cs.foldl (fun s c =>
    let s := updClu s c (fun k => { k with members := setAdd k.members p, pid := some (k.pid.getD p) })
    updCp s c p (fun k => { k with quota := quota })) s

/-- PART_CREATE. -/
def execPartCreate (s : State) : Out :=
  command 1 (fun s =>
    let p := s.ev.pid % 16
    let cs := rectClusters (partBuf s 0)
    let q := fld (partBuf s 6) 0 9
    if devCtl s 0x860 ≠ 1 ∨ descInvalid s then (some 3, s)
    else if partExists s p then (some 5, s)
    else if cs.any (fun c => decide (2 ≤ (getClu s c).members.length)) then (some 4, s)
    else if cs.any (fun c => quotaOver s c p q) then (some 6, s)
    else
      let words := (List.range 8).map (fun i => BitVec.ofNat 64 (partBuf s i))
      let s := { clearPart s p with parts := tabSet s.parts p { words := words, domains := [] } }
      (some 0, joinClusters s p q cs)) s

/-! ### DESTROY (R429) -/

/-- The tasks of a partition whose strands are saved in images: parked, or queued, placed or held by a switch as
remainders. -/
def imageTasks (s : State) (p : Nat) : List Nat :=
  let es := s.clParts.flatMap (fun k => k.2.queues.flatMap (·.2) ++ k.2.placed.map (·.entry) ++ k.2.saved)
    ++ s.dies.flatMap (fun k => k.2.fq.map (·.entry))
  (s.parked.filter (fun t => t.task.pid == p)).map (fun t => t.task.id)
    ++ (es.filter (fun e => e.task.pid == p)).map (fun e => e.task.id)

/-- Everything of a partition ends: its tasks, strands, operations, streams, queues, inboxes and records; its frames leave
the quotas, and its PID is free. -/
def destroyPart (s : State) (p : Nat) : State :=
  let s := s.ops.foldl (fun s o => if o.pid == p && o.kind == .coll then cancelColl s o.id else s) s
  let imgs := imageTasks s p
  let s := clearPart s p
  { s with
    strands := s.strands.filter (fun e => e.2.task.pid != p)
    parked := s.parked.filter (fun t => t.task.pid != p)
    conts := s.conts.filter (fun c => c.task.pid != p)
    images := s.images.filter (fun e => !imgs.contains e.1)
    ops := s.ops.filter (fun o => o.pid != p)
    repl := s.repl.filter (fun w => w.pid != p)
    flights := s.flights.filter (fun f => f.pid != p)
    colls := s.colls.filter (fun c => c.pid != p)
    bduRot := s.bduRot.filter (fun e => e.2.1 != p)
    parts := tabDel s.parts p
    dies := s.dies.map (fun e => (e.1, { e.2 with
      fq := e.2.fq.filter (fun x => x.entry.task.pid != p), waiting := e.2.waiting.filter (fun x => x.pid != p)
      endReqs := e.2.endReqs.filter (fun x => x.pid != p) }))
    clusters := s.clusters.map (fun e => (e.1, { e.2 with
      pid := if e.2.pid == some p then none else e.2.pid
      members := setDel e.2.members p
      tc := e.2.tc.filter (fun x => x.pid != p)
      icache := e.2.icache.filter (fun x => x.pid != p)
      evIdle := e.2.evIdle.filter (fun x => x.pid != p)
      evDemand := e.2.evDemand.filter (fun x => x.pid != p)
      frames := e.2.frames.filter (fun f => f.2.1 != p)
      switching := match e.2.switching with
        | some (q, t) => if q == p then none else some (q, t)
        | none => none })) }

/-- PART_DESTROY: the command, or with `ev.n` = 1 its effect at the next tick boundary. -/
def execPartDestroy (s : State) : Out :=
  if s.ev.n = 1 then
    match s.dev.cmd with
    | some (2, p, none) => .next (cmdResult (destroyPart s p) 0)
    | _ => .next s
  else command 2 (fun s => (if partExists s (s.ev.pid % 16) then none else some 5, s)) s

/-! ### QUOTA and MAP (R427) -/

/-- PART_QUOTA. -/
def execPartQuota (s : State) : Out :=
  command 4 (fun s =>
    let p := s.ev.pid % 16
    let q := fld (partBuf s 6) 0 9
    let cs := (rectClusters (partBuf s 0)).filter (fun c => (getClu s c).members.contains p)
    if rectBad (partBuf s 0) then (some 3, s)
    else if !partExists s p then (some 5, s)
    else if cs.any (fun c => quotaOver s c p q) then (some 6, s)
    else (some 0, cs.foldl (fun s c => updCp s c p (fun k => { k with quota := q })) s)) s

/-- What PGMAP under the default root answers for a mapping request: its value, or none for REFCOUNT. -/
def hostMap (s : State) (p : Nat) : Option Nat × State :=
  let vpn := partBuf s 1 / 32768 % 2 ^ 33
  let fri := partBuf s 2
  let cl := (partClusters s p).headD 0
  let r :=
    if nfr s p ≤ fri ∨ !friOk s p fri then wErr 4 s
    else if (walk s p 0 vpn).isSome then wErr 6 s
    else mapRec s cl p 0 vpn fri (partBuf s 3 % 512 &&& 0x1EE) 0
  match r with
  | .done x s => (some x.toNat, s)
  | .stop _ s => (none, s)
  | .wait s => (none, s)

/-- PART_MAP: PAGE_MAPPED on each die of the partition, or STATUS 7 and word 7 of PART_BUF. What word 7 takes when the
reference count is full is free (log 71). -/
def execPartMap (s : State) : Out :=
  command 5 (fun s =>
    let p := s.ev.pid % 16
    if !partExists s p then (some 5, s)
    else match hostMap s p with
      | (none, s) => (some 7, setDev { s with nfree := s.nfree + 1 } 0x81F (Config.freeWord s.nfree).toNat)
      | (some x, s) =>
        if 2 ^ 63 ≤ x then (some 7, setDev s 0x81F x)
        else
          let va := BitVec.ofNat 64 (partBuf s 1)
          let fri := BitVec.ofNat 64 (partBuf s 2)
          (some 0, (partDies s p).foldl (fun s d => notice s d p 1 va fri) s)) s

/-! ### SWITCH (R414-R416) -/

/-- The cores of a cluster are halted: nothing of its partition runs, closes or starts there, no tile command is in
flight, and no ring transfer is under way. -/
def halted (s : State) (c : Nat) : Bool :=
  match (getClu s c).pid with
  | none => true
  | some p =>
    let k := getCp s c p
    !s.strands.any (fun e => e.2.cl == c) && !s.parked.any (fun t => t.cl == c && t.ending.isSome)
      && !s.conts.any (fun x => x.cl == c && x.closing) && k.tiles.isEmpty
      && k.ring.isEmpty && k.reqs.isEmpty && !k.placed.any (fun q => decide (q.seg.start ≤ tickNow s))

/-- Shift what a partition has booked on a cluster by `d` ticks (R415). -/
def shiftPart (d : Nat) (k : ClPart) : ClPart :=
  { k with
    cal := k.cal.map (fun b => { b with lo := b.lo + d, hi := b.hi + d })
    placed := k.placed.map (fun q => { q with copiesEnd := q.copiesEnd + d, seg := { q.seg with start := q.seg.start + d } })
    copies := k.copies.map (fun c => { c with last := c.last + d })
    fills := k.fills.map (fun f => (f.1 + d, f.2))
    gangs := k.gangs.map (fun g => { g with roundEnd := g.roundEnd + d }) }

/-- A re-entering remainder becomes the head of its queue: the head before it is no head until it comes first again (R254). -/
def enterAhead (q : List Entry) (e : Entry) : List Entry :=
  e :: q.map (fun x => { x with headAt := none })

/-- The remainders that a switch saved re-enter ahead of what is queued, in the order of their save (R415). An urgent head that
they displace is urgent no more: it is no candidate, and R254 speaks of heads alone (log 102). -/
def reenter (s : State) (c p : Nat) : State :=
  let l := (getCp s c p).saved.map (fun e => { e with since := tickNow s })
  let mine := l.filter (fun e => !e.task.fq)
  let s := updCp s c p (fun k =>
    { k with
      saved := []
      urgent := k.urgent.filter (fun q => !(mine.any (fun e => e.queue == q)))
      queues := mine.reverse.foldl (fun q e => tabSet q e.queue (enterAhead ((tabGet q e.queue).getD []) e)) k.queues })
  updDie s (dieOf c) (fun d => { d with fq := (l.filter (·.task.fq)).map (fun e => ⟨c, e, false⟩) ++ d.fq })

/-- The first 4,800 B of an image move between its slot and shadow storage, and the list of images follows (R408, R416). -/
def moveImage (s : State) (p : Nat) (e : Nat × Nat × Nat × Bool) : State :=
  let home := imagePhys s e.2.1 p e.2.2.1
  let shadow := shadowPhys e.2.1 p e.2.2.1
  let (src, dst) := if e.2.2.2 then (shadow, home) else (home, shadow)
  { wrMem s dst (rdBytes s.mem src 4800) with
    images := listUpd s.images (fun x => x == e) (fun x => (x.1, x.2.1, x.2.2.1, !x.2.2.2)) }

/-- The images of the partition's parked contexts on a cluster go to shadow storage (R414, R416). -/
def imagesOut (s : State) (c p : Nat) : State :=
  let parked := (s.parked.filter (fun t => t.cl == c && t.task.pid == p)).map (fun t => t.task.id)
  (s.images.filter (fun e => e.2.1 == c && !e.2.2.2 && parked.contains e.1)).foldl (fun s e => moveImage s p e) s

/-- The images of the partition on a cluster come back to their slots. -/
def imagesIn (s : State) (c p : Nat) : State :=
  let mine := imageTasks s p
  (s.images.filter (fun e => e.2.1 == c && e.2.2.2 && mine.contains e.1)).foldl (fun s e => moveImage s p e) s

/-- The continuation records that a cluster keeps on chip for a partition go to its continuation area, and at its restore the
oldest 64 come back (R414, R416). -/
def contsOut (s : State) (c p : Nat) : State :=
  (s.conts.filter (fun x => x.cl == c && x.task.pid == p && x.hbm.isNone)).foldl (fun s x =>
    updCont s x.task.id (fun y => spillCont s y)) s

def contsIn (s : State) (c p : Nat) : State :=
  ((s.conts.filter (fun x => x.cl == c && x.task.pid == p)).take 64).foldl (fun s x =>
    updCont s x.task.id (fun y => { y with hbm := none })) s

/-- Save the partition that runs on a cluster and restore `p` there. The outgoing partition's operations stop at their unit
boundaries (R204). -/
def switchCluster (s : State) (c p : Nat) : State :=
  let s := match (getClu s c).pid with
    | some a => imagesOut (contsOut
        (updCp (flushOut s (fun o => o.cl == c && o.pid == a)) c a (fun k => { k with savedAt := tickNow s, cands := [], attemptCal := none })) c a) c a
    | none => s
  let d := tickNow s - (getCp s c p).savedAt
  let s := contsIn (imagesIn s c p) c p
  let s := updCp (reenter s c p) c p (fun k =>
    { shiftPart d k with cands := [], attemptAt := 8 * (tickNow s + 1), attemptCal := none })
  markHeads (updClu s c (fun k => { k with pid := some p, switching := none })) c p

/-- PART_SWITCH: the command; with `ev.n` = 1 cluster `ev.cl` makes its switch once its cores are halted, and with the last
cluster the command is done. -/
def execPartSwitch (s : State) : Out :=
  if s.ev.n = 1 then
    match (getClu s s.ev.cl).switching with
    | none => .next s
    | some (p, _) =>
      if !halted s s.ev.cl then .next s
      else
        let s := switchCluster s s.ev.cl p
        let left := s.clusters.any (fun e => match e.2.switching with
          | some (q, _) => q == p
          | none => false)
        .next (match s.dev.cmd with
          | some (3, q, none) => if q = p ∧ !left then cmdResult s 0 else s
          | _ => s)
  else
    command 3 (fun s =>
      let p := s.ev.pid % 16
      if rectBad (partBuf s 0) then (some 3, s)
      else if !partExists s p then (some 5, s)
      else
        let cs := (rectClusters (partBuf s 0)).filter (fun c =>
          (getClu s c).members.contains p && (getClu s c).pid != some p)
        (if cs.isEmpty then some 0 else none,
          cs.foldl (fun s c => updClu s c (fun k => { k with switching := some (p, tickNow s) })) s)) s

/-! ### DIE_RESET (R407) -/

/-- DIE_RESET of die `ev.unit`: its strands, streams, queues and pending operations are lost; every partition of the die is
told on each of its dies. Registers, quotas, memory and image slots of other strands stay; the accumulators and the B stores
start again as after device reset, which R36 and R407 do not say (log 19). -/
def execDieReset (s : State) : Out :=
  let d := s.ev.unit % 8
  let here := fun (c : Nat) => dieOf c == d
  let s := s.ops.foldl (fun s o => if here o.cl && o.kind == .coll then cancelColl s o.id else s) s
  let s : State := { s with
    strands := s.strands.filter (fun e => !here e.2.cl)
    parked := s.parked.filter (fun t => !here t.cl)
    conts := s.conts.filter (fun c => !here c.cl)
    images := s.images.filter (fun e => !here e.2.1)
    ops := s.ops.filter (fun o => !here o.cl)
    clusters := s.clusters.map (fun e => if here e.1 then (e.1, { e.2 with evIdle := [], evDemand := [] }) else e)
    dies := tabDel s.dies d
    clParts := s.clParts.map (fun e =>
      if here (e.1 / 16) then (e.1, { ({} : ClPart) with ctl := e.2.ctl, quota := e.2.quota }) else e)
    dieParts := s.dieParts.map (fun e =>
      if e.1 / 16 == d then (e.1, { ({} : DiePart) with ctl := e.2.ctl, spill := e.2.spill, nodes := e.2.nodes }) else e) }
  let s := dropColls s
  let hit := s.parts.filter (fun e => (partDies s e.1).contains d)
  .next (hit.foldl (fun s e => (partDies s e.1).foldl (fun s x => notice s x e.1 3 (BitVec.ofNat 64 d) 0) s) s)

end Sys2Proof.Machine
end

