-- ==== Sys2Proof/Machine/Scalar.lean ====
section
/-! DEFINITION. Move, predicate and branch instructions, majors 0x03 to 0x05 (spec/02 R46, R50; spec/04 R99-R114). -/

namespace Sys2Proof.Machine

/-! ### Moves -/

/-- MOVI (R46). -/
def execMovi (g : Guard) (d : R6) (imm : BitVec 42) (s : State) : Out :=
  aluOp (.movi g d imm) g 1 d (fun _ => sxW imm) s

/-- MOVHI: cat(imm, g[d][41:0]) (R46). -/
def execMovhi (g : Guard) (d : R6) (imm : BitVec 22) (s : State) : Out :=
  aluOp (.movhi g d imm) g 1 d (fun t => imm ++ (getG t d).setWidth 42) s

/-- MOV (R99). -/
def execMov (g : Guard) (d a : R6) (s : State) : Out :=
  aluOp (.mov g d a) g 1 d (fun t => getG t a) s

/-- PTOG (R99). -/
def execPtog (g : Guard) (d a : R6) (s : State) : Out :=
  aluOp (.ptog g d a) g 1 d (fun t => b2w (getP t (low3 a))) s

/-- PTOG.F: cat(1, p6 .. p0) (R99). -/
def execPtogF (g : Guard) (d : R6) (s : State) : Out :=
  aluOp (.ptogF g d) g 1 d (fun t => toW (1#1 ++ t.p)) s

/-- GTOP (R99). -/
def execGtop (g : Guard) (d a : R6) (s : State) : Out :=
  laneOp (.gtop g d a) g advance (fun t => advance (setP s.cycle 1 (low3 d) (decide (getG t a ≠ 0)) t)) s

/-- GTOP.F: p0-p6 := g[a][6:0] (R99). -/
def execGtopF (g : Guard) (a : R6) (s : State) : Out :=
  laneOp (.gtopF g a) g advance (fun t => advance { t with p := (getG t a).setWidth 7 }) s

/-- RDTICK: TICK_NOW, or with .C the relative cycle within the segment (R100). -/
def execRdtick (g : Guard) (c : Bool) (d : R6) (s : State) : Out :=
  aluOp (.rdtick g c d) g 1 d (fun t => BitVec.ofNat 64 (if c then relCycle t s else tickNow s)) s

/-- RDTIME: DEV_TIME in nanoseconds (R101). -/
def execRdtime (g : Guard) (d : R6) (s : State) : Out :=
  aluOp (.rdtime g d) g 1 d (fun _ => devTimeNs s) s

/-- The location word (R102). -/
def locationWord (t : Strand) : Word :=
  BitVec.ofNat 64 (t.lane + 2 ^ 3 * (t.cl % 32) + 2 ^ 8 * dieOf t.cl + 2 ^ 11 * t.task.pid + 2 ^ 15 * t.ctx
    + 2 ^ 32 * Config.torus.toNat)

/-- The task word (R102): a fault task reads QUEUE 0, PRIO 127 and FQ 1. -/
def taskWord (t : Strand) : Word :=
  BitVec.ofNat 64 (t.seg.gid + 2 ^ 8 * t.seg.member + 2 ^ 16 * (if t.task.fq then 0 else t.seg.queue)
    + 2 ^ 20 * (if t.task.fq then 127 else t.seg.prio) + 2 ^ 27 * (if t.task.fq then 1 else 0))

/-- RDID (R102). -/
def execRdid (g : Guard) (d : R6) (sel : BitVec 4) (s : State) : Out :=
  aluOp (.rdid g d sel) g 1 d (fun t => if sel = 0 then locationWord t else taskWord t) s

/-! ### Predicates -/

/-- The new value of pt under the combine of CMP (R103). -/
def combine (comb : BitVec 2) (old raw : Bool) : Bool :=
  if comb = 0 then raw else if comb = 1 then old && raw else old || raw

/-- CMP (R103). -/
def execCmp (g : Guard) (cond : BitVec 4) (comb : BitVec 2) (pt a b pf : R6) (s : State) : Out :=
  laneOp (.cmp g cond comb pt a b pf) g advance (fun t =>
    let raw := condOn cond (getG t a) (getG t b)
    advance (setP s.cycle 1 (low3 pf) (!raw)
      (setP s.cycle 1 (low3 pt) (combine comb (getP t (low3 pt)) raw) t))) s

/-- CMPI (R105). -/
def execCmpi (g : Guard) (cond : BitVec 4) (pf pt : BitVec 3) (a : R6) (imm : BitVec 32) (s : State) : Out :=
  laneOp (.cmpi g cond pf pt a imm) g advance (fun t =>
    let raw := condOn cond (getG t a) (sxW imm)
    advance (setP s.cycle 1 pf (!raw) (setP s.cycle 1 pt raw t))) s

/-- A predicate logic form (R106). -/
def predOp (i : Instr) (g : Guard) (d a b : R6) (f : Bool → Bool → Bool) (s : State) : Out :=
  laneOp i g advance (fun t => advance (setP s.cycle 1 (low3 d) (f (getP t (low3 a)) (getP t (low3 b))) t)) s

/-- PAND (R106). -/
def execPand (g : Guard) (d a b : R6) (s : State) : Out := predOp (.pand g d a b) g d a b (fun x y => x && y) s

/-- POR (R106). -/
def execPor (g : Guard) (d a b : R6) (s : State) : Out := predOp (.por g d a b) g d a b (fun x y => x || y) s

/-- PXOR (R106). -/
def execPxor (g : Guard) (d a b : R6) (s : State) : Out := predOp (.pxor g d a b) g d a b (fun x y => x != y) s

/-- PANDN (R106). -/
def execPandn (g : Guard) (d a b : R6) (s : State) : Out := predOp (.pandn g d a b) g d a b (fun x y => x && !y) s

/-- PSET: p[i] := values[i] where mask[i] (R107). -/
def execPset (g : Guard) (vals mask : BitVec 8) (s : State) : Out :=
  laneOp (.pset g vals mask) g advance (fun t =>
    advance { t with p := (t.p &&& ~~~ (mask.setWidth 7)) ||| (vals.setWidth 7 &&& mask.setWidth 7) }) s

/-! ### Branches (R108-R111) -/

/-- The address after a branch's slots: A + 24. -/
def afterSlots (t : Strand) : Va := t.pc0 + 24

/-- (A + SEXT(off, 32) × 8) mod 2^48 (R45, R108). -/
def relTarget (off : BitVec 32) (t : Strand) : Va := t.pc0 + (off.signExtend 48 <<< 3)

/-- g[t][47:0] (R45). -/
def regTarget (r : R6) (t : Strand) : Va := (getG t r).setWidth 48

/-- A branch: a false guard still has its slots and continues at A + 24 (R109). -/
def branchOp (i : Instr) (g : Guard) (on : Strand → Strand) (s : State) : Out :=
  laneOp i g (fun t => advanceBranch (afterSlots t) t) on s

/-- B (R109). -/
def execB (g : Guard) (off : BitVec 32) (s : State) : Out :=
  branchOp (.b g off) g (fun t => advanceBranch (relTarget off t) t) s

/-- BL: links A + 24 (R109). -/
def execBl (g : Guard) (link : R6) (off : BitVec 32) (s : State) : Out :=
  branchOp (.bl g link off) g
    (fun t => advanceBranch (relTarget off t) (setG s.cycle 1 link (toW (afterSlots t)) t)) s

/-- BR (R109). -/
def execBr (g : Guard) (r : R6) (s : State) : Out :=
  branchOp (.br g r) g (fun t => advanceBranch (regTarget r t) t) s

/-- BLR: the target is read before the link is written (R109). -/
def execBlr (g : Guard) (link r : R6) (s : State) : Out :=
  branchOp (.blr g link r) g
    (fun t => advanceBranch (regTarget r t) (setG s.cycle 1 link (toW (afterSlots t)) t)) s

/-- LOOP: decrements a count that is not 0, taken while the new count is not 0 (R109, R110). -/
def execLoop (g : Guard) (r : R6) (off : BitVec 32) (s : State) : Out :=
  branchOp (.loop g r off) g (fun t =>
    let old := getG t r
    let target := if old ≠ 0 ∧ old - 1 ≠ 0 then relTarget off t else afterSlots t
    advanceBranch target (if old ≠ 0 then setG s.cycle 1 r (old - 1) t else t)) s

end Sys2Proof.Machine
end

