-- ==== Sys2Proof/Machine/VectorMove.lean ====
section
/-! DEFINITION. Vector compare and mask, permute and reduce, conversion and random numbers, majors 0x12 to 0x14
(spec/05 R128-R142). -/

namespace Sys2Proof.Machine

/-! ### Compare and mask (R128-R131) -/

/-- The raw condition of element `j` and its flags (R129). -/
def vcmpRaw (t : BitVec 3) (cond : BitVec 4) (x y : Nat) : Bool × FpFlags :=
  if fpT t then fpCond cond (fmtOfT t) x y
  else
    match t.toNat with
    | 1 => (condOn cond (BitVec.ofNat 16 x) (BitVec.ofNat 16 y), 0)
    | 2 => (condOn cond (BitVec.ofNat 32 x) (BitVec.ofNat 32 y), 0)
    | _ => (condOn cond (BitVec.ofNat 64 x) (BitVec.ofNat 64 y), 0)

/-- VCMP: mt takes the raw condition of the active elements, mf its complement on them (R128). -/
def execVcmp (g : Guard) (mt a b mf : R6) (t k : BitVec 3) (gb : Bool) (cond : BitVec 4) (s : State) : Out :=
  laneOp (.vcmp g mt a b mf t k gb cond) g advance (fun st =>
    let w := typeW t
    let mask := getM st k
    let r := fun j => vcmpRaw t cond (elt w (getV st a) j) (bElt st gb w b j)
    let onT := maskOf w (fun j => active mask w j && (r j).1)
    let onF := maskOf w (fun j => active mask w j && !(r j).1)
    advance (lateFlags s.cycle 2 (orActive w mask (fun j => (r j).2))
      (setM s.cycle 2 (low3 mf) onF (setM s.cycle 2 (low3 mt) onT st)))) s

/-- VSEL (R130). -/
def execVsel (g : Guard) (d a b : R6) (t k : BitVec 3) (s : State) : Out :=
  laneOp (.vsel g d a b t k) g advance (fun st =>
    let w := typeW t
    let mask := getM st k
    let r := maskWrite w mask false (getV st b) (fun j => elt w (getV st a) j)
    advance (setV s.cycle 2 d r st)) s

/-- A mask logic form over all 64 bits (R131). -/
def maskOp (i : Instr) (g : Guard) (d : R6) (f : Strand → Word) (s : State) : Out :=
  laneOp i g advance (fun st => advance (setM s.cycle 1 (low3 d) (f st) st)) s

/-- MAND (R131). -/
def execMand (g : Guard) (d a b : R6) (s : State) : Out :=
  maskOp (.mand g d a b) g d (fun t => getM t (low3 a) &&& getM t (low3 b)) s

/-- MOR (R131). -/
def execMor (g : Guard) (d a b : R6) (s : State) : Out :=
  maskOp (.mor g d a b) g d (fun t => getM t (low3 a) ||| getM t (low3 b)) s

/-- MXOR (R131). -/
def execMxor (g : Guard) (d a b : R6) (s : State) : Out :=
  maskOp (.mxor g d a b) g d (fun t => getM t (low3 a) ^^^ getM t (low3 b)) s

/-- MNOT (R131). -/
def execMnot (g : Guard) (d a : R6) (s : State) : Out :=
  maskOp (.mnot g d a) g d (fun t => ~~~ getM t (low3 a)) s

/-- MCNT (R131). -/
def execMcnt (g : Guard) (d a : R6) (t : BitVec 3) (s : State) : Out :=
  aluOp (.mcnt g d a t) g 1 d (fun st =>
    BitVec.ofNat 64 ((List.range (numElts (typeW t))).countP (active (getM st (low3 a)) (typeW t)))) s

/-- MFIRST: the least element whose bit is set, or N (R131). -/
def execMfirst (g : Guard) (d a : R6) (t : BitVec 3) (s : State) : Out :=
  aluOp (.mfirst g d a t) g 1 d (fun st =>
    BitVec.ofNat 64 (((List.range (numElts (typeW t))).find? (active (getM st (low3 a)) (typeW t))).getD
      (numElts (typeW t)))) s

/-! ### Permute (R132, R133) -/

/-- VPERM (R132). -/
def execVperm (g : Guard) (d a b : R6) (t k : BitVec 3) (z : Bool) (s : State) : Out :=
  vecOp (.vperm g d a b t k z) g 2 (typeW t) d k z (fun st j =>
    (elt (typeW t) (getV st a) (elt (typeW t) (getV st b) j % numElts (typeW t)), 0)) s

/-- F(i) of the VSHUF patterns (R133). -/
def shufElt (pat : BitVec 4) (w : Nat) (a b : BitVec 1024) (i : Nat) : Nat :=
  let n := numElts w
  let h := n / 2
  match pat.toNat with
  | 0 => if i % 2 = 0 then elt w a (i / 2) else elt w b (i / 2)
  | 1 => if i % 2 = 0 then elt w a (h + i / 2) else elt w b (h + i / 2)
  | 2 => if i < h then elt w a (2 * i) else elt w b (2 * (i - h))
  | 3 => if i < h then elt w a (2 * i + 1) else elt w b (2 * (i - h) + 1)
  | 4 => elt w a (n - 1 - i)
  | _ => elt w a (if i % 2 = 0 then i + 1 else i - 1)

/-- VSHUF (R133). -/
def execVshuf (g : Guard) (d a b : R6) (t k : BitVec 3) (z : Bool) (pat : BitVec 4) (s : State) : Out :=
  vecOp (.vshuf g d a b t k z pat) g 2 (typeW t) d k z
    (fun st j => (shufElt pat (typeW t) (getV st a) (getV st b) j, 0)) s

/-- VROT: a[(i − g[b]) mod N] (R132). -/
def execVrot (g : Guard) (d a b : R6) (t k : BitVec 3) (z : Bool) (s : State) : Out :=
  vecOp (.vrot g d a b t k z) g 2 (typeW t) d k z (fun st j =>
    let n := numElts (typeW t)
    (elt (typeW t) (getV st a) ((j + (n - (getG st b).toNat % n)) % n), 0)) s

/-- VBCAST (R132). -/
def execVbcast (g : Guard) (d a : R6) (t k : BitVec 3) (z : Bool) (s : State) : Out :=
  vecOp (.vbcast g d a t k z) g 2 (typeW t) d k z (fun st _ => ((getG st a).toNat % 2 ^ typeW t, 0)) s

/-- VEXTR: sign-extends an integer element unless U, zero-extends a floating one (R132). -/
def execVextr (g : Guard) (d a b : R6) (t : BitVec 3) (u : Bool) (s : State) : Out :=
  aluOp (.vextr g d a b t u) g 2 d (fun st =>
    let w := typeW t
    let x := elt w (getV st a) ((getG st b).toNat % numElts w)
    if intT t && !u then BitVec.ofInt 64 (sextN w x) else BitVec.ofNat 64 x) s

/-- VINS (R132). -/
def execVins (g : Guard) (d a b : R6) (t : BitVec 3) (s : State) : Out :=
  laneOp (.vins g d a b t) g advance (fun st =>
    let w := typeW t
    let e := (getG st b).toNat % numElts w
    let r := ofElts w ((List.range (numElts w)).map (fun j =>
      if j = e then (getG st a).toNat % 2 ^ w else elt w (getV st d) j))
    advance (setV s.cycle 2 d r st)) s

/-! ### Reductions and dot products (R134, R135) -/

/-- The active elements with index below `n`. -/
def activeElts (w : Nat) (mask : Word) (x : BitVec 1024) (n : Nat) : List Nat :=
  ((List.range n).filter (active mask w)).map (elt w x)

/-- VRED (R134). -/
def execVred (g : Guard) (d a : R6) (t rm k : BitVec 3) (op : BitVec 4) (s : State) : Out :=
  laneOp (.vred g d a t rm k op) g advance (fun st =>
    let w := typeW t
    let r := reduceElts t (modeOf rm st) op (activeElts w (getM st k) (getV st a) (numElts w))
    advance (lateFlags s.cycle 6 r.2 (setG s.cycle 6 d (BitVec.ofNat 64 r.1) st))) s

/-- VSCAN: each prefix is computed independently (R134). -/
def execVscan (g : Guard) (d a : R6) (t rm k : BitVec 3) (z : Bool) (op : BitVec 4) (s : State) : Out :=
  vecOp (.vscan g d a t rm k z op) g 6 (typeW t) d k z (fun st j =>
    reduceElts t (modeOf rm st) op (activeElts (typeW t) (getM st k) (getV st a) (j + 1))) s

/-- F(j) of VDOT (R135). -/
def dotElt (t : BitVec 3) (u : Bool) (rm : Rnd) (a b c : BitVec 1024) (j : Nat) : Nat × FpFlags :=
  if t = 0 then
    (wrapN 32 ((List.range 4).foldl
      (fun acc q => acc + eltInt u 8 (elt 8 a (4 * j + q)) * eltInt u 8 (elt 8 b (4 * j + q)))
      (elt 32 c j : Int)), 0)
  else
    let f := fmtOfT t
    let x := fun q => elt 16 a (2 * j + q)
    let y := fun q => elt 16 b (2 * j + q)
    let p0 := xMul (decodeFmt f (x 0)) (decodeFmt f (y 0))
    let p1 := xMul (decodeFmt f (x 1)) (decodeFmt f (y 1))
    let cx := elt 32 c j
    finish .fp32 rm (snanFlag f [x 0, x 1, y 0, y 1] ||| snanFlag .fp32 [cx] ||| p0.2 ||| p1.2)
      (groupSum [p0.1, p1.1, decodeFmt .fp32 cx])

/-- VDOT: 32 elements of 32 bits, each rounded once (R135). -/
def execVdot (g : Guard) (d a b c : R6) (t rm k : BitVec 3) (z u : Bool) (s : State) : Out :=
  vecOp (.vdot g d a b c t rm k z u) g 5 32 d k z
    (fun st j => dotElt t u (modeOf rm st) (getV st a) (getV st b) (getV st c) j) s

/-! ### Conversion (R136-R142) -/

/-- The rounding of a conversion: SR draws from the seed for destination element `x` (R79, R137). -/
def convMode (rm : BitVec 3) (seed : Word) (tag : BitVec 32) (x : Nat) (t : Strand) : Rnd :=
  if rm = 5 then .sr (cbg seed tag (BitVec.ofNat 32 x) 0) else modeOf rm t

/-- The format of a type code, integers signed unless U (R136). -/
def fmtOfType (t : BitVec 3) (u : Bool) : Fmt := if fpT t then fmtOfT t else .int (typeW t) (!u)

/-- Convert one element (R136): an arithmetic instruction consumes its input (R70). -/
def convElt (ts td : BitVec 3) (u : Bool) (rm : Rnd) (sat : Bool) (x : Nat) : Nat × FpFlags :=
  let fs := fmtOfType ts u
  let r := conv (decodeFmt fs x) (fmtOfType td u) rm sat
  (r.1, r.2 ||| snanFlag fs [x])

/-- VCVT (R136). -/
def execVcvt (g : Guard) (d a c : R6) (td rm k : BitVec 3) (z u : Bool) (ts part : BitVec 3) (sat : Bool)
    (s : State) : Out :=
  laneOp (.vcvt g d a c td rm k z u ts part sat) g advance (fun st =>
    let wd := typeW td
    let ws := typeW ts
    let nd := numElts wd
    let ns := numElts ws
    let mask := getM st k
    let lo := if wd < ws then part.toNat * ns else 0
    let n := if wd < ws then ns else nd
    let src := fun e => if wd < ws then e - lo else e + part.toNat * nd
    let r := fun e => convElt ts td u (convMode rm (getG st c) 0 e st) sat (elt ws (getV st a) (src e))
    let inPart := fun e => decide (lo ≤ e ∧ e < lo + n)
    let v := ofElts wd ((List.range nd).map (fun e =>
      if inPart e then (if active mask wd e then (r e).1 else if z then 0 else elt wd (getV st d) e)
      else elt wd (getV st d) e))
    let fl := (List.range nd).foldl (fun acc e => if inPart e && active mask wd e then acc ||| (r e).2 else acc) 0
    advance (lateFlags s.cycle 3 fl (setV s.cycle 3 d v st))) s

/-- Element `i` of slot `slot` of container width `w` (R138). -/
def slotElt (w slot : Nat) (x : BitVec 1024) (i : Nat) : Nat := (x.toNat >>> (32 * w * slot + w * i)) % 2 ^ w

/-- VPACK encodes one element (R140): the scale operand is g[b]. A NaN scale leaves the element unread
(log 82); a signalling NaN scale is consumed and sets NV (R70). -/
def packElt (code kind : Nat) (gs : Word) (rm : Rnd) (sat : Bool) (x : Nat) : Nat × FpFlags :=
  let y := decodeFmt .fp32 x
  let sc := gs.toNat % 2 ^ 32
  let nv := snanFlag .fp32 [x]
  if code == 11 then
    let sg := decodeFmt .fp32 sc
    let sb := (gs.toNat / 2 ^ 32) % 256
    let c := q4nEncode sg sb y
    let dec := q4nDecode sg sb c
    let exact := match y with
      | .fin _ _ _ _ => !xIsNan dec && !xIsInf dec && xCmp dec y == 0
      | _ => false
    (c, flagIf (xIsNan y) nv ||| flagIf (!exact) fNX)
  else if kind == 1 && gs.toNat % 256 == 255 then (0, 0)
  else if kind == 2 && xIsNan (decodeFmt .fp32 sc) then (0, snanFlag .fp32 [sc])
  else
    let (q, f1) := scaleDown kind sc y
    let (r, f2) := conv q (fmtOfCode code) rm sat
    (r, nv ||| f1 ||| f2)

/-- VPACK: 32 elements into slot k of v[d] (R140). -/
def execVpack (g : Guard) (d a b c : R6) (rm k : BitVec 3) (z : Bool) (fmt : BitVec 4) (kind : BitVec 2)
    (slot : BitVec 4) (sat : Bool) (s : State) : Out :=
  laneOp (.vpack g d a b c rm k z fmt kind slot sat) g advance (fun st =>
    let w := contW fmt.toNat
    let mask := getM st k
    let lo := 32 * slot.toNat
    let r := fun i => packElt fmt.toNat kind.toNat (getG st b) (convMode rm (getG st c) 1 (lo + i) st) sat
      (elt 32 (getV st a) i)
    let v := ofElts w ((List.range (1024 / w)).map (fun e =>
      if lo ≤ e ∧ e < lo + 32 then
        (if active mask 32 (e - lo) then (r (e - lo)).1 else if z then 0 else elt w (getV st d) e)
      else elt w (getV st d) e))
    advance (lateFlags s.cycle 3 (orActive 32 mask (fun i => (r i).2)) (setV s.cycle 3 d v st))) s

/-- VUNPK: slot k of v[a] into 32 FP32 elements (R141). -/
def execVunpk (g : Guard) (d a b : R6) (k : BitVec 3) (z : Bool) (fmt : BitVec 4) (kind : BitVec 2)
    (slot : BitVec 4) (s : State) : Out :=
  vecOp (.vunpk g d a b k z fmt kind slot) g 3 32 d k z (fun st i =>
    let x := slotElt (contW fmt.toNat) slot.toNat (getV st a) i
    let gs := (getG st b).toNat
    let sc := if kind = 1 then gs % 256 else gs % 2 ^ 32
    let r := decF32 fmt.toNat kind.toNat x sc ((gs / 2 ^ 32) % 256)
    (r.1, r.2 ||| decodeFlag fmt.toNat x)) s

/-- The value VQSCALE writes, with NX of the RN_F32 of an FP32 scale (R139). -/
def qscale (code kind out : Nat) (gb : Word) (xs : List Xr) : Word × FpFlags :=
  let seed := decodeFmt .fp32 (gb.toNat % 2 ^ 32)
  if out == 2 then
    let am := amaxOf xs
    let bad := match seed, am with
      | .fin _ _ _ _, .fin _ _ _ _ => false
      | _, _ => true
    (BitVec.ofNat 64 (if bad then 0 else q4nBlockCode seed am), 0)
  else
    let am := amaxOf (seed :: xs)
    if out == 0 then (BitVec.ofNat 64 (conv am .fp32 .rne false).1, 0)
    else if kind == 1 then (BitVec.ofNat 64 (e8m0Scale code am), 0)
    else if kind == 2 then
      let r := fp32Scale code am
      (BitVec.ofNat 64 r.1, r.2 &&& fNX)
    else
      (BitVec.ofNat 64 (if xIsZero am then 0x3F800000 else (conv am .fp32 .rne false).1), 0)

/-- VQSCALE (R139). -/
def execVqscale (g : Guard) (d a b : R6) (k : BitVec 3) (fmt : BitVec 4) (kind out : BitVec 2) (s : State) : Out :=
  laneOp (.vqscale g d a b k fmt kind out) g advance (fun st =>
    let xs := (activeElts 32 (getM st k) (getV st a) 32).map (decodeFmt .fp32)
    let r := qscale fmt.toNat kind.toNat out.toNat (getG st b) xs
    advance (lateFlags s.cycle 3 r.2 (setG s.cycle 3 d r.1 st))) s

/-- VRAND (R142). -/
def execVrand (g : Guard) (d a b c : R6) (t k : BitVec 3) (z : Bool) (s : State) : Out :=
  vecOp (.vrand g d a b c t k z) g 3 32 d k z (fun st i =>
    let r := cbg (getG st a) ((getG st b).setWidth 32) ((getG st c).setWidth 32 + BitVec.ofNat 32 i)
      (bits (getG st c) 32 32)
    if t = 2 then (r.toNat, 0)
    else ((conv (.fin false (r.toNat / 256) (-24) false) .fp32 .rne false).1, 0)) s

end Sys2Proof.Machine
end

