-- ==== Sys2Proof/Machine/Dispatch.lean ====
section
/-! DEFINITION. The meaning of every row of the opcode table. -/

namespace Sys2Proof.Machine

/-- The effect of one step of the table. -/
def exec (i : Instr) (s : State) : Host.Outcome State Fault Refusal :=
  match i with
  | .add g d a b => Sys2Proof.Machine.execAdd g d a b s
  | .sub g d a b => Sys2Proof.Machine.execSub g d a b s
  | .mul g d a b => Sys2Proof.Machine.execMul g d a b s
  | .mulh g d a b => Sys2Proof.Machine.execMulh g d a b s
  | .mulhs g d a b => Sys2Proof.Machine.execMulhs g d a b s
  | .div g d a b => Sys2Proof.Machine.execDiv g d a b s
  | .divs g d a b => Sys2Proof.Machine.execDivs g d a b s
  | .rem g d a b => Sys2Proof.Machine.execRem g d a b s
  | .rems g d a b => Sys2Proof.Machine.execRems g d a b s
  | .and g d a b => Sys2Proof.Machine.execAnd g d a b s
  | .or g d a b => Sys2Proof.Machine.execOr g d a b s
  | .xor g d a b => Sys2Proof.Machine.execXor g d a b s
  | .andn g d a b => Sys2Proof.Machine.execAndn g d a b s
  | .orn g d a b => Sys2Proof.Machine.execOrn g d a b s
  | .shl g d a b => Sys2Proof.Machine.execShl g d a b s
  | .shr g d a b => Sys2Proof.Machine.execShr g d a b s
  | .sar g d a b => Sys2Proof.Machine.execSar g d a b s
  | .rol g d a b => Sys2Proof.Machine.execRol g d a b s
  | .min g d a b => Sys2Proof.Machine.execMin g d a b s
  | .max g d a b => Sys2Proof.Machine.execMax g d a b s
  | .mins g d a b => Sys2Proof.Machine.execMins g d a b s
  | .maxs g d a b => Sys2Proof.Machine.execMaxs g d a b s
  | .clz g d a => Sys2Proof.Machine.execClz g d a s
  | .ctz g d a => Sys2Proof.Machine.execCtz g d a s
  | .popc g d a => Sys2Proof.Machine.execPopc g d a s
  | .sel g d a b c => Sys2Proof.Machine.execSel g d a b c s
  | .bfx g d a pos lm1 sx => Sys2Proof.Machine.execBfx g d a pos lm1 sx s
  | .bfi g d a b pos lm1 => Sys2Proof.Machine.execBfi g d a b pos lm1 s
  | .lea g d a b sc => Sys2Proof.Machine.execLea g d a b sc s
  | .addsat g u d a b => Sys2Proof.Machine.execAddsat g u d a b s
  | .addi g d a imm => Sys2Proof.Machine.execAddi g d a imm s
  | .muli g d a imm => Sys2Proof.Machine.execMuli g d a imm s
  | .andi g z d a imm => Sys2Proof.Machine.execAndi g z d a imm s
  | .ori g z d a imm => Sys2Proof.Machine.execOri g z d a imm s
  | .xori g z d a imm => Sys2Proof.Machine.execXori g z d a imm s
  | .shli g d a n => Sys2Proof.Machine.execShli g d a n s
  | .shri g d a n => Sys2Proof.Machine.execShri g d a n s
  | .sari g d a n => Sys2Proof.Machine.execSari g d a n s
  | .roli g d a n => Sys2Proof.Machine.execRoli g d a n s
  | .mini g u d a imm => Sys2Proof.Machine.execMini g u d a imm s
  | .maxi g u d a imm => Sys2Proof.Machine.execMaxi g u d a imm s
  | .leai g d a sc imm => Sys2Proof.Machine.execLeai g d a sc imm s
  | .movi g d imm => Sys2Proof.Machine.execMovi g d imm s
  | .movhi g d imm => Sys2Proof.Machine.execMovhi g d imm s
  | .mov g d a => Sys2Proof.Machine.execMov g d a s
  | .ptog g d a => Sys2Proof.Machine.execPtog g d a s
  | .ptogF g d => Sys2Proof.Machine.execPtogF g d s
  | .gtop g d a => Sys2Proof.Machine.execGtop g d a s
  | .gtopF g a => Sys2Proof.Machine.execGtopF g a s
  | .rdtick g c d => Sys2Proof.Machine.execRdtick g c d s
  | .rdtime g d => Sys2Proof.Machine.execRdtime g d s
  | .rdid g d sel => Sys2Proof.Machine.execRdid g d sel s
  | .cmp g cond comb pt a b pf => Sys2Proof.Machine.execCmp g cond comb pt a b pf s
  | .cmpi g cond pf pt a imm => Sys2Proof.Machine.execCmpi g cond pf pt a imm s
  | .pand g d a b => Sys2Proof.Machine.execPand g d a b s
  | .por g d a b => Sys2Proof.Machine.execPor g d a b s
  | .pxor g d a b => Sys2Proof.Machine.execPxor g d a b s
  | .pandn g d a b => Sys2Proof.Machine.execPandn g d a b s
  | .pset g vals mask => Sys2Proof.Machine.execPset g vals mask s
  | .b g off => Sys2Proof.Machine.execB g off s
  | .bl g link off => Sys2Proof.Machine.execBl g link off s
  | .br g t => Sys2Proof.Machine.execBr g t s
  | .blr g link t => Sys2Proof.Machine.execBlr g link t s
  | .loop g t off => Sys2Proof.Machine.execLoop g t off s
  | .segend g a => Sys2Proof.Machine.execSegend g a s
  | .split g roam a => Sys2Proof.Machine.execSplit g roam a s
  | .exit g => Sys2Proof.Machine.execExit g s
  | .yield g a => Sys2Proof.Machine.execYield g a s
  | .trap g a imm => Sys2Proof.Machine.execTrap g a imm s
  | .brk g imm => Sys2Proof.Machine.execBreak g imm s
  | .syscall g a imm => Sys2Proof.Machine.execSyscall g a imm s
  | .ctlrd g d n => Sys2Proof.Machine.execCtlrd g d n s
  | .ctlwr g n a => Sys2Proof.Machine.execCtlwr g n a s
  | .resume g d a => Sys2Proof.Machine.execResume g d a s
  | .abort g t d a => Sys2Proof.Machine.execAbort g t d a s
  | .whisk g tag => Sys2Proof.Machine.execWhisk g tag s
  | .ld g data sz sx o m => Sys2Proof.Machine.execLd g data sz sx o m s
  | .ldx g data sz sx o m => Sys2Proof.Machine.execLdx g data sz sx o m s
  | .st g data sz o m => Sys2Proof.Machine.execSt g data sz o m s
  | .stx g data sz o m => Sys2Proof.Machine.execStx g data sz o m s
  | .ldf g data m => Sys2Proof.Machine.execLdf g data m s
  | .stf g data m => Sys2Proof.Machine.execStf g data m s
  | .clrf g f m => Sys2Proof.Machine.execClrf g f m s
  | .feq g data m => Sys2Proof.Machine.execFeq g data m s
  | .vld g data o m => Sys2Proof.Machine.execVld g data o m s
  | .vst g data o m => Sys2Proof.Machine.execVst g data o m s
  | .vlds g data sz o m => Sys2Proof.Machine.execVlds g data sz o m s
  | .vsts g data sz o m => Sys2Proof.Machine.execVsts g data sz o m s
  | .vgath g data sz o m => Sys2Proof.Machine.execVgath g data sz o m s
  | .vscat g data sz o m => Sys2Proof.Machine.execVscat g data sz o m s
  | .vldb g data base gl mode disp => Sys2Proof.Machine.execVldb g data base gl mode disp s
  | .pgalloc g d a b c => Sys2Proof.Machine.execPgalloc g d a b c s
  | .pgfree g d a c => Sys2Proof.Machine.execPgfree g d a c s
  | .pgref g d a b c => Sys2Proof.Machine.execPgref g d a b c s
  | .pgcow g d a b c => Sys2Proof.Machine.execPgcow g d a b c s
  | .pgset g d a b c sel => Sys2Proof.Machine.execPgset g d a b c sel s
  | .pgget g d a c sel => Sys2Proof.Machine.execPgget g d a c sel s
  | .pgpin g d a c => Sys2Proof.Machine.execPgpin g d a c s
  | .pgunpin g d a c => Sys2Proof.Machine.execPgunpin g d a c s
  | .pgspill g d a c => Sys2Proof.Machine.execPgspill g d a c s
  | .pgfill g d a c => Sys2Proof.Machine.execPgfill g d a c s
  | .pgmap g d a b c pte => Sys2Proof.Machine.execPgmap g d a b c pte s
  | .pgunmap g d a c => Sys2Proof.Machine.execPgunmap g d a c s
  | .cpy g ch f sc d a b c => Sys2Proof.Machine.execCpy g ch f sc d a b c s
  | .cpy2d g ch f sc d a b c => Sys2Proof.Machine.execCpy2d g ch f sc d a b c s
  | .gath g ch f sc d a b c => Sys2Proof.Machine.execGath g ch f sc d a b c s
  | .scat g ch f sc d a b c => Sys2Proof.Machine.execScat g ch f sc d a b c s
  | .fld g ch sc sz sx d a c => Sys2Proof.Machine.execFld g ch sc sz sx d a c s
  | .fst g ch f sc sz a b c => Sys2Proof.Machine.execFst g ch f sc sz a b c s
  | .waitc g c n => Sys2Proof.Machine.execWaitc g c n s
  | .ctrget g d c => Sys2Proof.Machine.execCtrget g d c s
  | .aadd g data base ctr sz o disp => Sys2Proof.Machine.execAadd g data base ctr sz o disp s
  | .afadd g data base ctr sz o disp => Sys2Proof.Machine.execAfadd g data base ctr sz o disp s
  | .amin g data base ctr sz o disp => Sys2Proof.Machine.execAmin g data base ctr sz o disp s
  | .amax g data base ctr sz o disp => Sys2Proof.Machine.execAmax g data base ctr sz o disp s
  | .aand g data base ctr sz o disp => Sys2Proof.Machine.execAand g data base ctr sz o disp s
  | .aor g data base ctr sz o disp => Sys2Proof.Machine.execAor g data base ctr sz o disp s
  | .axor g data base ctr sz o disp => Sys2Proof.Machine.execAxor g data base ctr sz o disp s
  | .aswp g data base ctr sz o disp => Sys2Proof.Machine.execAswp g data base ctr sz o disp s
  | .acas g data base ctr sz o disp => Sys2Proof.Machine.execAcas g data base ctr sz o disp s
  | .fence g kind scope => Sys2Proof.Machine.execFence g kind scope s
  | .bar g d a => Sys2Proof.Machine.execBar g d a s
  | .phase g d a => Sys2Proof.Machine.execPhase g d a s
  | .domset g d a b c => Sys2Proof.Machine.execDomset g d a b c s
  | .domget g d a c sel => Sys2Proof.Machine.execDomget g d a c sel s
  | .book g rel d a => Sys2Proof.Machine.execBook g rel d a s
  | .calrel g rel d a => Sys2Proof.Machine.execCalrel g rel d a s
  | .calq g own rel d a res => Sys2Proof.Machine.execCalq g own rel d a res s
  | .gang g a q => Sys2Proof.Machine.execGang g a q s
  | .launch g d a b c => Sys2Proof.Machine.execLaunch g d a b c s
  | .qpush g a q => Sys2Proof.Machine.execQpush g a q s
  | .qstat g d q => Sys2Proof.Machine.execQstat g d q s
  | .qcfg g w d a q => Sys2Proof.Machine.execQcfg g w d a q s
  | .pipebind g u d a => Sys2Proof.Machine.execPipebind g u d a s
  | .vadd g d a b t rm k z gb => Sys2Proof.Machine.execVadd g d a b t rm k z gb s
  | .vsub g d a b t rm k z gb => Sys2Proof.Machine.execVsub g d a b t rm k z gb s
  | .vmul g d a b t rm k z gb => Sys2Proof.Machine.execVmul g d a b t rm k z gb s
  | .vfma g d a b c t rm k z gb => Sys2Proof.Machine.execVfma g d a b c t rm k z gb s
  | .vfms g d a b c t rm k z gb => Sys2Proof.Machine.execVfms g d a b c t rm k z gb s
  | .vfnma g d a b c t rm k z gb => Sys2Proof.Machine.execVfnma g d a b c t rm k z gb s
  | .vmin g d a b t k z gb => Sys2Proof.Machine.execVmin g d a b t k z gb s
  | .vmax g d a b t k z gb => Sys2Proof.Machine.execVmax g d a b t k z gb s
  | .vabs g d a t k z => Sys2Proof.Machine.execVabs g d a t k z s
  | .vneg g d a t k z => Sys2Proof.Machine.execVneg g d a t k z s
  | .vdiv g d a b t rm k z gb => Sys2Proof.Machine.execVdiv g d a b t rm k z gb s
  | .vsqrt g d a t rm k z => Sys2Proof.Machine.execVsqrt g d a t rm k z s
  | .vrcp g d a t rm k z => Sys2Proof.Machine.execVrcp g d a t rm k z s
  | .vrsq g d a t rm k z => Sys2Proof.Machine.execVrsq g d a t rm k z s
  | .vexp2 g d a t rm k z => Sys2Proof.Machine.execVexp2 g d a t rm k z s
  | .vlog2 g d a t rm k z => Sys2Proof.Machine.execVlog2 g d a t rm k z s
  | .vtanh g d a t rm k z => Sys2Proof.Machine.execVtanh g d a t rm k z s
  | .vclass g d a t k z => Sys2Proof.Machine.execVclass g d a t k z s
  | .viadd g d a b t k z gb => Sys2Proof.Machine.execViadd g d a b t k z gb s
  | .visub g d a b t k z gb => Sys2Proof.Machine.execVisub g d a b t k z gb s
  | .vimul g d a b t k z gb => Sys2Proof.Machine.execVimul g d a b t k z gb s
  | .vimulh g d a b t k z u gb => Sys2Proof.Machine.execVimulh g d a b t k z u gb s
  | .vishl g d a b t k z gb => Sys2Proof.Machine.execVishl g d a b t k z gb s
  | .vishr g d a b t k z gb => Sys2Proof.Machine.execVishr g d a b t k z gb s
  | .visar g d a b t k z gb => Sys2Proof.Machine.execVisar g d a b t k z gb s
  | .vand g d a b t k z gb => Sys2Proof.Machine.execVand g d a b t k z gb s
  | .vor g d a b t k z gb => Sys2Proof.Machine.execVor g d a b t k z gb s
  | .vxor g d a b t k z gb => Sys2Proof.Machine.execVxor g d a b t k z gb s
  | .vimin g d a b t k z u gb => Sys2Proof.Machine.execVimin g d a b t k z u gb s
  | .vimax g d a b t k z u gb => Sys2Proof.Machine.execVimax g d a b t k z u gb s
  | .viabs g d a t k z => Sys2Proof.Machine.execViabs g d a t k z s
  | .viaddsat g d a b t k z u gb => Sys2Proof.Machine.execViaddsat g d a b t k z u gb s
  | .vcmp g mt a b mf t k gb cond => Sys2Proof.Machine.execVcmp g mt a b mf t k gb cond s
  | .vsel g d a b t k => Sys2Proof.Machine.execVsel g d a b t k s
  | .mand g d a b => Sys2Proof.Machine.execMand g d a b s
  | .mor g d a b => Sys2Proof.Machine.execMor g d a b s
  | .mxor g d a b => Sys2Proof.Machine.execMxor g d a b s
  | .mnot g d a => Sys2Proof.Machine.execMnot g d a s
  | .mcnt g d a t => Sys2Proof.Machine.execMcnt g d a t s
  | .mfirst g d a t => Sys2Proof.Machine.execMfirst g d a t s
  | .vperm g d a b t k z => Sys2Proof.Machine.execVperm g d a b t k z s
  | .vshuf g d a b t k z pat => Sys2Proof.Machine.execVshuf g d a b t k z pat s
  | .vrot g d a b t k z => Sys2Proof.Machine.execVrot g d a b t k z s
  | .vbcast g d a t k z => Sys2Proof.Machine.execVbcast g d a t k z s
  | .vextr g d a b t u => Sys2Proof.Machine.execVextr g d a b t u s
  | .vins g d a b t => Sys2Proof.Machine.execVins g d a b t s
  | .vred g d a t rm k op => Sys2Proof.Machine.execVred g d a t rm k op s
  | .vscan g d a t rm k z op => Sys2Proof.Machine.execVscan g d a t rm k z op s
  | .vdot g d a b c t rm k z u => Sys2Proof.Machine.execVdot g d a b c t rm k z u s
  | .vcvt g d a c td rm k z u ts part sat => Sys2Proof.Machine.execVcvt g d a c td rm k z u ts part sat s
  | .vpack g d a b c rm k z fmt kind slot sat => Sys2Proof.Machine.execVpack g d a b c rm k z fmt kind slot sat s
  | .vunpk g d a b k z fmt kind slot => Sys2Proof.Machine.execVunpk g d a b k z fmt kind slot s
  | .vqscale g d a b k fmt kind out => Sys2Proof.Machine.execVqscale g d a b k fmt kind out s
  | .vrand g d a b c t k z => Sys2Proof.Machine.execVrand g d a b c t k z s
  | .sfork g sx d a b pt => Sys2Proof.Machine.execSfork g sx d a b pt s
  | .sjoin g w d a b c => Sys2Proof.Machine.execSjoin g w d a b c s
  | .sprune g d a c => Sys2Proof.Machine.execSprune g d a c s
  | .sact g d a b c => Sys2Proof.Machine.execSact g d a b c s
  | .sactp g d a b c => Sys2Proof.Machine.execSactp g d a b c s
  | .shor g adj d a b c => Sys2Proof.Machine.execShor g adj d a b c s
  | .sstep g d a b c => Sys2Proof.Machine.execSstep g d a b c s
  | .sstepB g d a c => Sys2Proof.Machine.execSstepB g d a c s
  | .ssnap g d a b c => Sys2Proof.Machine.execSsnap g d a b c s
  | .spin g d a c => Sys2Proof.Machine.execSpin g d a c s
  | .spinU g d a c => Sys2Proof.Machine.execSpinU g d a c s
  | .sget g d a c sel => Sys2Proof.Machine.execSget g d a c sel s
  | .sset g d a b c sel => Sys2Proof.Machine.execSset g d a b c sel s
  | .ssetC g d a c => Sys2Proof.Machine.execSsetC g d a c s
  | .kvapp g ch sc d a c => Sys2Proof.Machine.execKvapp g ch sc d a c s
  | .kvsplice g d a b c => Sys2Proof.Machine.execKvsplice g d a b c s
  | .kvspliceS g d a b c => Sys2Proof.Machine.execKvspliceS g d a b c s
  | .kvtrim g d a b c => Sys2Proof.Machine.execKvtrim g d a b c s
  | .attd g sc a c => Sys2Proof.Machine.execAttd g sc a c s
  | .attmS g d a b => Sys2Proof.Machine.execAttmS g d a b s
  | .attmV g d a b c k z => Sys2Proof.Machine.execAttmV g d a b c k z s
  | .rampset g p d a b c => Sys2Proof.Machine.execRampset g p d a b c s
  | .vrope g d a b c k z split y => Sys2Proof.Machine.execVrope g d a b c k z split y s
  | .lfilt g sc a c => Sys2Proof.Machine.execLfilt g sc a c s
  | .sample g d a b c => Sys2Proof.Machine.execSample g d a b c s
  | .accept g d a b => Sys2Proof.Machine.execAccept g d a b s
  | .commit g d a b c => Sys2Proof.Machine.execCommit g d a b c s
  | .dqsend g a b c => Sys2Proof.Machine.execDqsend g a b c s
  | .dqrecv g d a b => Sys2Proof.Machine.execDqrecv g d a b s
  | .msend g sc d a b c => Sys2Proof.Machine.execMsend g sc d a b c s
  | .mrecv g t d a b => Sys2Proof.Machine.execMrecv g t d a b s
  | .coll g d a c => Sys2Proof.Machine.execColl g d a c s
  | .redm g op ch sc d a b c => Sys2Proof.Machine.execRedm g op ch sc d a b c s
  | .tzero g a => Sys2Proof.Machine.execTzero g a s
  | .tcommit g d => Sys2Proof.Machine.execTcommit g d s
  | .twait g a => Sys2Proof.Machine.execTwait g a s
  | .taccrd g d a row half => Sys2Proof.Machine.execTaccrd g d a row half s
  | .taccrdR g d a b => Sys2Proof.Machine.execTaccrdR g d a b s
  | .tmma g acc ga gb la lb slice mr nc kd => Sys2Proof.Machine.execTmma g acc ga gb la lb slice mr nc kd s
  | .tmmat g acc ga gb la lb slice mr nc kd => Sys2Proof.Machine.execTmmat g acc ga gb la lb slice mr nc kd s
  | .tmmbt g acc ga gb la lb slice mr nc kd => Sys2Proof.Machine.execTmmbt g acc ga gb la lb slice mr nc kd s
  | .tmmring g acc ga la slice mr nc kd => Sys2Proof.Machine.execTmmring g acc ga la slice mr nc kd s
  | .tdrain g acc gt lt rm sat mr nc gseed gcoord => Sys2Proof.Machine.execTdrain g acc gt lt rm sat mr nc gseed gcoord s
  | .tdrainx g acc gt lt rm sat act sc bi rs dp mr nc gs gbias gres lres gseed gdrop gcoord => Sys2Proof.Machine.execTdrainx g acc gt lt rm sat act sc bi rs dp mr nc gs gbias gres lres gseed gdrop gcoord s
  | .tblatch g src ga gd lb tr => Sys2Proof.Machine.execTblatch g src ga gd lb tr s
  | .illegalWord w => Sys2Proof.Machine.execIllegalWord w s
  | .deviceReset => Sys2Proof.Machine.execDeviceReset s
  | .bootStage => Sys2Proof.Machine.execBootStage s
  | .tickBoundary => Sys2Proof.Machine.execTickBoundary s
  | .headUrgent => Sys2Proof.Machine.execHeadUrgent s
  | .farWorkDone => Sys2Proof.Machine.execFarWorkDone s
  | .localCopy => Sys2Proof.Machine.execLocalCopy s
  | .icacheBlockLoad => Sys2Proof.Machine.execIcacheBlockLoad s
  | .segmentStart => Sys2Proof.Machine.execSegmentStart s
  | .overrun => Sys2Proof.Machine.execOverrun s
  | .continuationRecordComplete => Sys2Proof.Machine.execContinuationRecordComplete s
  | .continuationQueued => Sys2Proof.Machine.execContinuationQueued s
  | .watchTimeout => Sys2Proof.Machine.execWatchTimeout s
  | .yieldTimeExpiry => Sys2Proof.Machine.execYieldTimeExpiry s
  | .gangRoundEnd => Sys2Proof.Machine.execGangRoundEnd s
  | .gangNextRound => Sys2Proof.Machine.execGangNextRound s
  | .spillWindow => Sys2Proof.Machine.execSpillWindow s
  | .idleExpiry => Sys2Proof.Machine.execIdleExpiry s
  | .evictionAdmit => Sys2Proof.Machine.execEvictionAdmit s
  | .batchClose => Sys2Proof.Machine.execBatchClose s
  | .streamSequencePoint => Sys2Proof.Machine.execStreamSequencePoint s
  | .joinReduction => Sys2Proof.Machine.execJoinReduction s
  | .snapshotTransferDone => Sys2Proof.Machine.execSnapshotTransferDone s
  | .pendingSlotDrain => Sys2Proof.Machine.execPendingSlotDrain s
  | .channelUnit => Sys2Proof.Machine.execChannelUnit s
  | .walkerOpComplete => Sys2Proof.Machine.execWalkerOpComplete s
  | .kvappToken => Sys2Proof.Machine.execKvappToken s
  | .attdPage => Sys2Proof.Machine.execAttdPage s
  | .lfiltPass => Sys2Proof.Machine.execLfiltPass s
  | .redmUnit => Sys2Proof.Machine.execRedmUnit s
  | .collHop => Sys2Proof.Machine.execCollHop s
  | .collComplete => Sys2Proof.Machine.execCollComplete s
  | .launchArrival => Sys2Proof.Machine.execLaunchArrival s
  | .msendDelivery => Sys2Proof.Machine.execMsendDelivery s
  | .farAtomicPerform => Sys2Proof.Machine.execFarAtomicPerform s
  | .replWriteSequence => Sys2Proof.Machine.execReplWriteSequence s
  | .dqsendSequenced => Sys2Proof.Machine.execDqsendSequenced s
  | .dqEntryArrive => Sys2Proof.Machine.execDqEntryArrive s
  | .ringDelivery => Sys2Proof.Machine.execRingDelivery s
  | .domainArrival => Sys2Proof.Machine.execDomainArrival s
  | .phaseSweep => Sys2Proof.Machine.execPhaseSweep s
  | .domainCompletion => Sys2Proof.Machine.execDomainCompletion s
  | .rampsetComplete => Sys2Proof.Machine.execRampsetComplete s
  | .tileCommandStart => Sys2Proof.Machine.execTileCommandStart s
  | .tileBatchCommit => Sys2Proof.Machine.execTileBatchCommit s
  | .deferredEccFault => Sys2Proof.Machine.execDeferredEccFault s
  | .faultEventEnqueue => Sys2Proof.Machine.execFaultEventEnqueue s
  | .faultRequestProcessed => Sys2Proof.Machine.execFaultRequestProcessed s
  | .preemptRequest => Sys2Proof.Machine.execPreemptRequest s
  | .preemptSave => Sys2Proof.Machine.execPreemptSave s
  | .whiskFire => Sys2Proof.Machine.execWhiskFire s
  | .whiskTriggerEvent => Sys2Proof.Machine.execWhiskTriggerEvent s
  | .whiskLatch => Sys2Proof.Machine.execWhiskLatch s
  | .activeMessage => Sys2Proof.Machine.execActiveMessage s
  | .timedActiveMessage => Sys2Proof.Machine.execTimedActiveMessage s
  | .hostRegisterWrite => Sys2Proof.Machine.execHostRegisterWrite s
  | .semaAcquire => Sys2Proof.Machine.execSemaAcquire s
  | .semaRelease => Sys2Proof.Machine.execSemaRelease s
  | .hostLinkDown => Sys2Proof.Machine.execHostLinkDown s
  | .linkRetrain => Sys2Proof.Machine.execLinkRetrain s
  | .partCreate => Sys2Proof.Machine.execPartCreate s
  | .partDestroy => Sys2Proof.Machine.execPartDestroy s
  | .partSwitch => Sys2Proof.Machine.execPartSwitch s
  | .partQuota => Sys2Proof.Machine.execPartQuota s
  | .partMap => Sys2Proof.Machine.execPartMap s
  | .fwWindowWrite => Sys2Proof.Machine.execFwWindowWrite s
  | .fwVerifyCommit => Sys2Proof.Machine.execFwVerifyCommit s
  | .fwDiscard => Sys2Proof.Machine.execFwDiscard s
  | .attestation => Sys2Proof.Machine.execAttestation s
  | .timeStep => Sys2Proof.Machine.execTimeStep s
  | .ppsEdge => Sys2Proof.Machine.execPpsEdge s
  | .dieReset => Sys2Proof.Machine.execDieReset s
  | .thermalLimit => Sys2Proof.Machine.execThermalLimit s
  | .powerOffTrip => Sys2Proof.Machine.execPowerOffTrip s
  | .eccScrub => Sys2Proof.Machine.execEccScrub s
  | .packetDiscard => Sys2Proof.Machine.execPacketDiscard s
  | .calStatRead => Sys2Proof.Machine.execCalStatRead s
  | .fltLostRead => Sys2Proof.Machine.execFltLostRead s
  | .amLogRead => Sys2Proof.Machine.execAmLogRead s
  | .snapStatRead => Sys2Proof.Machine.execSnapStatRead s
  | .eccCeRead => Sys2Proof.Machine.execEccCeRead s
  | .tenDropRead => Sys2Proof.Machine.execTenDropRead s
  | .hostSemaRead => Sys2Proof.Machine.execHostSemaRead s
  | .partCmdDone => Sys2Proof.Machine.execPartCmdDone s
  | .fwCmdDone => Sys2Proof.Machine.execFwCmdDone s
  | .attReportDone => Sys2Proof.Machine.execAttReportDone s
  | .domainRequestAtHome => Sys2Proof.Machine.execDomainRequestAtHome s
  | .collLayoutCheck => Sys2Proof.Machine.execCollLayoutCheck s
  | .completionTimeout => Sys2Proof.Machine.execCompletionTimeout s

end Sys2Proof.Machine
end

