-- ==== Sys2Proof/Machine/Rows.lean ====
section
/-! DEFINITION. Which rows are performed next: those of a cycle and of a tick boundary in their order, those whose time the
spec leaves open, those that an outside party brings, and what a lane does in a cycle (spec/01 R4; spec/08 R220;
spec/16 R400, R411-R414; log 5, log 9). -/

namespace Sys2Proof.Machine

/-- The partitions that run, with their clusters (R29). -/
def runs (s : State) : List (Nat × Nat) := s.clusters.filterMap (fun e => e.2.pid.map (fun p => (e.1, p)))

/-- A row without arguments. -/
def noArg : EvArg := {}

/-- Rows of every running partition on every cluster. -/
def onRuns (s : State) (f : Nat → Nat → List (Instr × EvArg)) : List (Instr × EvArg) :=
  (runs s).flatMap (fun e => f e.1 e.2)

/-! ### Rows with a time of their own -/

/-- Rows of a cycle: batch commits, drains that are complete, and ring arrivals (R272, R285, R289). -/
def cycleRows (s : State) : List (Instr × EvArg) :=
  onRuns s (fun c p =>
    let k := getCp s c p
    let a : EvArg := { cl := c, pid := p }
    (if k.tiles.any (fun x => commitDue s x || drainOver s x) then [(.tileBatchCommit, a)] else [])
      ++ (if k.ring.any (fun e => decide (e.1 ≤ s.cycle)) then [(.ringDelivery, a)] else []))

/-- What ends or becomes complete with the tick before; a segment that has not ended in its time overruns before another starts
on its lane (R224). -/
def endRows (s : State) : List (Instr × EvArg) :=
  (s.strands.filter (fun e => decide (endCycle e.2 ≤ s.cycle))).map (fun e =>
      (.overrun, ({ cl := e.2.cl, pid := e.2.task.pid, lane := e.1 } : EvArg)))
    ++ onRuns s (fun c p =>
      (((getCp s c p).tiles.filter (fun x => !x.started && decide (x.start ≤ s.cycle))).map
        (fun x => (.tileCommandStart, ({ cl := c, pid := p, id := x.id } : EvArg))))
      ++ (((getCp s c p).copies.filter (fun x => decide (x.last < tickNow s))).map
        (fun x => (.localCopy, ({ cl := c, pid := p, n := x.frame } : EvArg)))))
    ++ ((s.conts.filter (fun c => c.closing && decide (c.complete ≤ tickNow s))).map
        (fun c => (.continuationRecordComplete, ({ id := c.task.id } : EvArg))))
    ++ onRuns s (fun c p =>
      ((getCp s c p).gangs.filter (roundOver s)).map (fun g => (.gangRoundEnd, ({ cl := c, pid := p, id := g.num } : EvArg))))

/-- What starts with the tick. -/
def startRows (s : State) : List (Instr × EvArg) :=
  onRuns s (fun c p =>
      ((getCp s c p).fills.filter (fun f => decide (f.1 ≤ tickNow s))).map
        (fun f => (.icacheBlockLoad, ({ cl := c, pid := p, n := f.2.1, id := f.2.2.1 } : EvArg))))
    ++ onRuns s (fun c p =>
      ((getCp s c p).placed.filter (fun q => decide (q.seg.start ≤ tickNow s))).map
        (fun q => (.segmentStart, ({ cl := c, pid := p, id := q.seg.sid } : EvArg))))

/-- The Sieve's part of a boundary: starved heads, pre-emption requests, then the boundary proper (R220, R254, R411). -/
def sieveRows (s : State) : List (Instr × EvArg) :=
  onRuns s (fun c p =>
    let a : EvArg := { cl := c, pid := p }
    [(.headUrgent, a)]
      ++ (if (cpCtl s c p 0x1C0).toNat % 256 ≠ 0 then [(.preemptRequest, a)] else [])
      ++ [(.tickBoundary, a)])

/-- The dies whose stream scheduler serves a partition that runs: those of its clusters, those that hold streams or
registers of it, and those that its requests go to (R326, R329). -/
def schedDies (s : State) : List (Nat × Nat) :=
  let live := ((runs s).map (·.2)).eraseDups
  let own : List (Nat × Nat) := (runs s).map (fun e => (dieOf e.1, e.2))
  let kept : List (Nat × Nat) := s.dieParts.map (fun e => (e.1 / 16, e.1 % 16))
  let asked : List (Nat × Nat) := (s.ops.filter (fun o => o.kind == .stream || o.kind == .commit)).filterMap
    (fun o => (reqDie s o).map (fun d => (d, o.pid)))
  (own ++ kept ++ asked).eraseDups.filter (fun e => live.contains e.2)

/-- The dies' part: fault events and requests, stream schedulers, the offers that expired streams left, die queues (R249, R329,
R335, R356, R422). -/
def dieRows (s : State) : List (Instr × EvArg) :=
  s.dies.flatMap (fun e =>
      e.2.waiting.map (fun _ => (.faultEventEnqueue, ({ unit := e.1 } : EvArg)))
        ++ (if e.2.endReqs.isEmpty then [] else [(.faultRequestProcessed, ({ unit := e.1 } : EvArg))]))
    ++ (schedDies s).map
      (fun e => (.streamSequencePoint, ({ unit := e.1, pid := e.2 } : EvArg)))
    ++ ((schedDies s).map (·.1)).eraseDups.map (fun d => (.evictionAdmit, ({ unit := d, flag := true } : EvArg)))
    ++ (sortBy dqBefore (s.ops.filter (fun o => o.kind == .dqsend && o.i == 0 && decide (o.tick < tickNow s)))).map
      (fun o => (.dqsendSequenced, ({ id := o.id } : EvArg)))

/-- The page-store words that hold a single-bit error. -/
def scrubRows (s : State) : List (Instr × EvArg) :=
  (s.soft.filter (fun a => (physCluster a).isSome)).map (fun a => (.eccScrub, ({ id := a } : EvArg)))

/-- Spill windows, the scrub's period, the Whisk, and partition commands (R157, R415, R417, R418, R429, R435; log 94). -/
def deviceRows (s : State) : List (Instr × EvArg) :=
  (if tickNow s % 2 ^ 24 = 0 then scrubRows s else [])
    ++ (if tickNow s % 64 = 0 ∨ tickNow s % 64 = 48 then s.clusters.map (fun e => (.spillWindow, ({ cl := e.1 } : EvArg))) else [])
    ++ onRuns s (fun c p => if (whiskDue s c p).isSome then [(.whiskTriggerEvent, { cl := c, pid := p })] else [])
    ++ (s.parts.filter (fun e => s.clParts.any (fun k =>
        k.1 % 16 == e.1 && k.2.whisk.any (fun w => decide (w.1 ≤ tickNow s))))).map
      (fun e => (.whiskLatch, ({ pid := e.1 } : EvArg)))
    ++ (match s.dev.cmd with
      | some (2, p, none) => [(.partDestroy, { pid := p, n := 1 })]
      | _ => [])
    ++ (s.clusters.filter (fun e => e.2.switching.isSome)).map (fun e => (.partSwitch, ({ cl := e.1, n := 1 } : EvArg)))

/-- The row that queues a continuation whose event has occurred (R228, R235). -/
def queueRow (c : Cont) : Instr :=
  if c.event ≠ 7 then .continuationQueued else if c.evAddr ≠ 0 then .watchTimeout else .yieldTimeExpiry

/-- Continuations and gangs whose events have occurred (R228, R232). One whose partition is switched out of its cluster is
queued at the first boundary at which the partition runs there again: R414-R416 do not say when, and this is the model's choice
(log 95). -/
def queueRows (s : State) : List (Instr × EvArg) :=
  (s.conts.filter (fun c => !c.queued && c.gang == 0 && (getClu s c.cl).pid == some c.task.pid)).map
      (fun c => (queueRow c, ({ id := c.task.id } : EvArg)))
    ++ onRuns s (fun c p =>
      ((getCp s c p).gangs.filter (fun g => !g.inRound)).map
        (fun g => (.gangNextRound, ({ cl := c, pid := p, id := g.num } : EvArg))))

/-- The rows of a tick boundary, in their order (log 9). -/
def tickRows (s : State) : List (Instr × EvArg) :=
  [(.timeStep, noArg)] ++ endRows s ++ startRows s ++ sieveRows s ++ dieRows s ++ deviceRows s

/-- What reaches the queues last in a cycle, after the lanes and the mesh: in the first cycle of a tick the batch tasks, then the
continuations; and in any cycle the remainders that AUTO has saved, which are queued as continuations (R244, R412). -/
def lateRows (s : State) : List (Instr × EvArg) :=
  (if s.cycle % 8 = 0 then
      s.dieParts.flatMap (fun e => (e.2.batches.filter batchWaits).map (fun b =>
        (.batchClose, ({ unit := e.1 / 16, pid := e.1 % 16, id := b.num, n := 1 } : EvArg))))
      ++ queueRows s
    else [])
    ++ s.autos.map (fun k => (.preemptSave, ({ n := 1, id := k } : EvArg)))

/-- A cycle later: DEV_TIME counts, the lanes are looked at again from the first, and the rows of the new cycle stand in
the agenda (R4, R101, R431). -/
def nextCycle (s : State) : State :=
  let rate := sextN 32 (devCtl s 0x842 % 2 ^ 32)
  let dt := ((s.devTime : Int) + 10 * (2 ^ 32 + rate)).toNat % (2 ^ 64 * nsUnits)
  let s : State := { s with cycle := s.cycle + 1, devTime := dt, cursor := 0, early := [], written := [] }
  if s.cycle % 8 = 0 then
    let s := applyPending s
    { s with agenda := s.agenda ++ cycleRows s ++ tickRows s }
  else { s with agenda := s.agenda ++ cycleRows s }

/-! ### Rows whose time is open (log 5) -/

/-- A snapshot's destination is in this package, or nowhere (R343). -/
def snapHere (s : State) (o : Op) : Bool :=
  match dieEntry s o.pid ((o.args.getD 2 0).toNat % 256) with
  | some (_, pkg) => pkg == Config.torus.toNat
  | none => true

/-- The next row of a pending operation, when it can go on. -/
def opRow (s : State) (o : Op) : Option Instr :=
  if o.stopped then none
  else if o.fin.isSome then (if mayComplete s o then some .channelUnit else none)
  else match o.kind with
    | .cpy | .cpy2d | .gath | .scat | .fld | .fst =>
      if channelHead s o && opReady s o then some .channelUnit else none
    | .kvapp => if channelHead s o && opReady s o then some .kvappToken else none
    | .redm => if channelHead s o && opReady s o then some .redmUnit else none
    | .attd => if bduReady s o then some .attdPage else none
    | .lfilt => if bduReady s o then some .lfiltPass else none
    | .atomic => if atomReady s o then some .farAtomicPerform else none
    | .launch => if msgReady s o then some .launchArrival else none
    | .msend =>
      if msgReady s o && targetPkg (o.args.getD 0 0) == Config.torus.toNat then some .msendDelivery else none
    | .coll => if collOpen s o then some .collComplete else none
    | .domset | .domget => if opReady s o then some .domainRequestAtHome else none
    | .dqsend => if o.i = 1 then some .dqEntryArrive else none
    | .stream => if o.i = 3 then some .joinReduction
      else if o.i = 2 && snapHere s o then some .snapshotTransferDone else none
    | .rampset => if o.i = 1 then some .rampsetComplete else if walkerReady s o then some .walkerOpComplete else none
    | _ => if walkerReady s o then some .walkerOpComplete else none

/-- Rows of the domains that are being swept, one for each member of this package still to be read (R382). -/
def sweepRows (p sel inst : Nat) (d : Domain) : List (Instr × EvArg) :=
  if d.sweep = 0 then []
  else
    let left := (domMembers sel inst d.word).filter (fun c => !(d.read.any (fun e => e.1 == c)))
    (List.range left.length).map (fun n => (.phaseSweep, { pid := p, unit := sel, cl := inst, n := n }))

/-- Sweeps of every domain. -/
def allSweeps (s : State) : List (Instr × EvArg) :=
  s.clParts.flatMap (fun e => e.2.domains.flatMap (fun d => sweepRows (e.1 % 16) (4 * d.1) (e.1 / 16) d.2))
    ++ s.dieParts.flatMap (fun e => e.2.domains.flatMap (fun d => sweepRows (e.1 % 16) (4 * d.1 + 1) (e.1 / 16) d.2))
    ++ s.parts.flatMap (fun e => e.2.domains.flatMap (fun d => sweepRows e.1 (4 * (d.1 % 16) + d.1 / 16) 0 d.2))

/-- Rows of traffic on its way: buffered writes, replicated writes, domain messages, collectives. -/
def trafficRows (s : State) : List (Instr × EvArg) :=
  (drainable s).map (fun n => (.channelUnit, ({ unit := 1, n := n } : EvArg)))
    ++ s.repl.zipIdx.flatMap (fun e =>
      if e.1.seqd then e.1.left.map (fun c => (.replWriteSequence, ({ n := e.2, cl := c } : EvArg)))
      else [(.replWriteSequence, { n := e.2 })])
    ++ s.flights.zipIdx.map (fun e =>
      (if e.1.kind = 0 then .domainArrival else .domainCompletion, ({ n := e.2 } : EvArg)))
    ++ s.colls.flatMap (fun c =>
      if c.checked then c.waves.zipIdx.map (fun w => (.collHop, ({ id := c.num, n := w.2 } : EvArg)))
      else if c.ops.length = c.members.length ∧ !collFar s c then [(.collLayoutCheck, { id := c.num })] else [])

/-- The number of a store in an event. -/
def storeCode : EccStore → Nat
  | .regs => 1
  | .accs => 2
  | .icache => 3
  | .full => 4

/-- Rows of the device's own units: boot, commands, verification, attestation, and the correction of single-bit errors. -/
def unitRows (s : State) : List (Instr × EvArg) :=
  (if s.dev.booting then [(.bootStage, noArg)] else [])
    ++ (match s.dev.cmd with
      | some (_, _, some _) => [(.partCmdDone, noArg)]
      | _ => [])
    ++ (if s.dev.verify then [(.fwCmdDone, noArg)] else [])
    ++ (if s.dev.attest.isSome then [(.attReportDone, noArg)] else [])
    ++ scrubRows s
    ++ s.singles.map (fun e => (.eccScrub, ({ unit := storeCode e.1, cl := e.2.1, id := e.2.2 } : EvArg)))

/-- The words that a drain has yet to write before its completion point (R367). -/
def drainRows (s : State) : List (Instr × EvArg) :=
  onRuns s (fun c p => ((getCp s c p).tiles.filter (drainGoing s)).map (fun x =>
    (.tileCommandStart, ({ cl := c, pid := p, id := x.id, n := 1 } : EvArg))))

/-- Every row that may be performed now and whose time the spec leaves open. -/
def openRows (s : State) : List (Instr × EvArg) :=
  onRuns s (fun c p =>
      ((getCp s c p).far.filter (fun f => !f.done)).map (fun f => (.farWorkDone, ({ cl := c, pid := p, id := f.taskId } : EvArg))))
    ++ s.ops.filterMap (fun o => (opRow s o).map (fun i => (i, ({ id := o.id } : EvArg))))
    ++ drainRows s ++ trafficRows s ++ allSweeps s ++ unitRows s

/-- A free choice among the open rows, or of none of them. -/
def pickRow (s : State) : Option (Instr × EvArg) × State :=
  match openRows s with
  | [] => (none, s)
  | l =>
    let (k, s) := freePick s (l.length + 1)
    (l[k]?, s)

/-! ### Rows that an outside party brings -/

/-- Rows that a host, another package, the board or a soft-error detector brings: the others are the machine's own. -/
def fromOutside (i : Instr) (a : EvArg) : Bool :=
  match i with
  | .deviceReset | .dieReset | .hostRegisterWrite | .hostSemaRead | .semaAcquire | .semaRelease | .hostLinkDown
  | .activeMessage | .timedActiveMessage | .amLogRead | .calStatRead | .fltLostRead | .snapStatRead | .eccCeRead
  | .tenDropRead | .packetDiscard | .linkRetrain | .ppsEdge | .partCreate | .partQuota | .partMap | .fwWindowWrite
  | .fwVerifyCommit | .fwDiscard | .attestation | .thermalLimit | .powerOffTrip | .completionTimeout
  | .phaseSweep | .collLayoutCheck => true
  | .partDestroy | .partSwitch => a.n == 0
  | .channelUnit | .collHop | .farAtomicPerform | .domainArrival | .eccScrub | .whiskFire => a.flag
  | .streamSequencePoint => a.flag || a.n == 2
  | .msendDelivery | .snapshotTransferDone => true
  | _ => false

/-- The cluster that an outside event enters, and its place in the order of arrivals (R244, R386). -/
def inputPlace (i : Instr) (a : EvArg) : Option (Nat × Nat) :=
  let w := (a.words.getD 0 0).toNat
  match i with
  | .activeMessage | .timedActiveMessage => some (32 * (w % 8) + w / 8 % 32, 8 + a.lane % 4)
  | .msendDelivery => if a.unit = 1 then some (a.cl, 8 + a.lane % 4) else none
  | _ => none

/-- The outside event that is due, with the state without it: one that would enter a cluster behind what has entered it in this
cycle waits for the next (R244, R386). -/
def dueInput (s : State) : Option ((Instr × EvArg) × State) :=
  match s.inputs with
  | (c, i, a) :: rest =>
    let may := match inputPlace i a with
      | some (cl, k) => mayArrive s cl k
      | none => true
    if c ≤ s.cycle && may then some ((i, a), { s with inputs := rest }) else none
  | [] => none

/-! ### A lane in a cycle -/

/-- The forms that lease a range or an accumulator at issue (R189, R274). -/
def takesLease (i : Instr) : Bool :=
  tileQueued i || (match i with
    | .cpy _ _ _ _ _ _ _ _ => true
    | .cpy2d _ _ _ _ _ _ _ _ => true
    | .gath _ _ _ _ _ _ _ _ => true
    | .scat _ _ _ _ _ _ _ _ => true
    | .kvapp _ _ _ _ _ _ => true
    | .attd _ _ _ _ => true
    | .lfilt _ _ _ _ => true
    | .coll _ _ _ _ => true
    | .redm _ _ _ _ _ _ _ _ => true
    | _ => false)

/-- The strand's next instruction takes leases, or, while commands of its open batch hold some, ends its segment or raises a
fetch or decode cause, which ends those leases in this cycle: it has its turn before the accesses that the leases hold off or
let through (R272, R275; log 101). -/
def leaseFirst (s : State) (t : Strand) : Bool :=
  let open' := (getCp s t.cl t.task.pid).tiles.any (fun c => c.sid == t.seg.sid && c.commit.isNone)
  match fetchInstr s t with
  | .ok i => takesLease i || (open' && endsSegment i)
  | .error _ => open'

/-- The next lane to be looked at in this cycle: one whose turn decides over leases, else the next by number. -/
def nextLane (s : State) : Option (Nat × Strand) :=
  match s.strands.filter (fun e => decide (s.cursor ≤ e.1) && !s.early.contains e.1) with
  | [] => none
  | [e] => some e
  | e :: l => some (((e :: l).find? (fun x => leaseFirst s x.2)).getD e)

/-- Lane `n` has its turn: the lanes before it still have theirs. -/
def takeTurn (s : State) (n : Nat) : State :=
  if s.strands.any (fun e => decide (s.cursor ≤ e.1 ∧ e.1 < n) && !s.early.contains e.1) then
    { s with cur := n, early := setAdd s.early n }
  else { s with cur := n, cursor := n + 1 }

/-- Perform a row. -/
def perfRow (r : Instr × EvArg) (s : State) : Out := exec r.1 { s with ev := r.2 }

/-- The strand `task` has stopped for a cause, and not for a split. -/
def hasFaulted (s : State) (task : Nat) : Bool :=
  s.parked.any (fun x => x.task.id == task && match x.ending with
    | some (.split _ _ _ _ _) => false
    | _ => true)

/-- A pre-emption offer: the instruction's own cause comes first when it has one (R400, R412). -/
def offerStep (s : State) (t : Strand) (i : Instr) (w : Option Strand) : Out :=
  match exec i (fetched i t s) with
  | .next s1 =>
    if hasFaulted s1 t.task.id then
      match w with
      | none => .next s1
      | some t' => .next (putStrand s t')
    else perfRow (.preemptSave, { cl := t.cl, pid := t.task.pid, lane := laneKey t }) s
  | .fault f => .fault f
  | .refused r => .refused r

/-- The first line of an access of several: a cause or a split that the instruction meets now takes the strand from its lane;
else it waits as `t'` for its other lines (R160; log 6). -/
def firstStep (s : State) (t t' : Strand) (i : Instr) : Out :=
  match exec i (fetched i t s) with
  | .next s1 => if (curStrand s1).isNone then .next s1 else .next (putStrand s t')
  | .fault f => .fault f
  | .refused r => .refused r

/-- What the strand of the current lane does in this cycle. -/
def laneStep (s : State) (t : Strand) : Out :=
  match laneAct s t with
  | .idle => .next s
  | .wait t' => .next (putStrand s t')
  | .cause f => .next (takeFault s (causeTriple f t) f)
  | .event i a => perfRow (i, a) s
  | .offer i w => offerStep s t i w
  | .first i t' => firstStep s t t' i
  | .run i => exec i (fetched i t s)

/-- A lane's turn: the lines of an issued store that are due, then what its strand does (R160). -/
def laneTurn (s : State) (n : Nat) (t : Strand) : Out :=
  let r := flushLines (takeTurn s n) t
  laneStep r.2 r.1

/-- Where the cursor stands when every lane has had its turn, and when the queues have taken what comes last. -/
def cursorEnd : Nat := 2048
def cursorLate : Nat := 2049

/-- After the lanes: an outside event that is due, or a row whose time is open, or neither; then the rows that come last, and
the next cycle. -/
def endTurn (s : State) : Out :=
  match dueInput s with
  | some ((i, a), s) => if fromOutside i a then perfRow (i, a) s else .next s
  | none =>
    match pickRow s with
    | (some r, s) => perfRow r s
    | (none, s) =>
      .next (match lateRows s with
        | [] => nextCycle s
        | l => { s with cursor := cursorLate, agenda := l })

/-- With nothing in the agenda: the lanes in order, then what else happens in the cycle (R30, R56, R365). -/
def freeTurn (s : State) : Out :=
  if s.cursor < cursorEnd then
    match nextLane s with
    | some (n, t) => laneTurn s n t
    | none => .next { settleEndings s with cursor := cursorEnd }
  else if s.cursor = cursorEnd then endTurn s
  else .next (nextCycle s)

/-- Power is off (R436): what outside parties bring has no effect but a device reset by the board (log 19). -/
def offStep (s : State) : Out :=
  match s.inputs with
  | (_, .deviceReset, a) :: rest => perfRow (.deviceReset, a) { s with inputs := rest }
  | _ :: rest => .next { s with inputs := rest }
  | [] => .next s

/-- The package in operation. -/
def onStep (s : State) : Out :=
  match s.agenda with
  | r :: rest => perfRow r { s with agenda := rest }
  | [] => freeTurn s

end Sys2Proof.Machine
end

