-- ==== Sys2Proof/Machine/Step.lean ====
section
/-! DEFINITION. One step of the machine: one row of the table of operations and events, or one lane's turn in a cycle (log 5,
log 6); and the state in which the next step runs a given instruction word (log 18). -/

namespace Sys2Proof.Machine

/-- One step. -/
def step (s : State) : Host.Outcome State Fault Refusal := if s.dev.off then offStep s else onStep s

/-- VA of the code that a host places: entry of the block. -/
def State.codeVa : Va := 0x8000

/-- First byte of the page-store frame that holds it: frame 0 of cluster 0. -/
def State.codePhys : Nat := sramBase 0 0

/-- The segment that runs placed code: partition 1, cluster 0, lane 0, from this tick on, 4,096 ticks long, its code page
held in frame 0 (R215). -/
def State.codeSeg (s : State) : Seg :=
  { sid := 1, blk := State.codeVa, boff := 0, start := tickNow s, len := 4096, resume := 0, glive := 0, vlive := 0
    codeLen := 128, xl := [⟨1, 1, sramLoc 0 0, 5, 0, false, true, false⟩], queue := 0, prio := 0, gang := 0, gid := 0
    member := 0, occ := [], rot := [], win := none }

/-- The strand that runs it, every register 0 (R35). -/
def State.codeStrand (s : State) : Strand :=
  { task := { id := 1, pid := 1, root := 0, fq := false, bprio := 0, noticeSlot := none, batch := none }
    seg := s.codeSeg, cl := 0, lane := 0, ctx := 0
    g := Vector.replicate 64 0, v := Vector.replicate 32 0, p := 0, m := Vector.replicate 7 0
    c := Vector.replicate 4 0, rm := 0, flags := 0, late := [], pc0 := State.codeVa, pc1 := State.codeVa + 8, pc2 := State.codeVa + 16
    ds := 0, pend := [], hold := 0, reach := none, issued := none, lineBuf := [], atIssue := [], lineOut := [], ending := none
    divFree := 0, vdivFree := 0, lastCh := [], lastSend := 0
    lastFork := 0, idle := 0, tileF := 0, batchNo := 1, commits := [], fence := [], slot := 0, resumed := none }

/-- The frame record 1 of partition 1 and where it lies: an SRAM frame, frame 0 of cluster 0 (R150, R151). -/
def State.codeRec : List Byte := toLe 16 (1 + 2 ^ 16 + 2 ^ 48)
def State.codeRecAddr : Nat := 32

/-- The descriptor of partition 1: cluster 0 of die 0, one die, page tables of 2 records (R428). -/
def State.codePart : Part :=
  { words := [BitVec.ofNat 64 (2 ^ 12 + 2 ^ 16 + 2 ^ 25), 0, 2, 0, 0, 0, 256, 0], domains := [] }

/-- `s` with the instruction whose first `nbits` bits are `w`, zeros above, in the frame from which lane 0 of cluster 0
fetches next: boot over, partition 1 made, its program loaded and its segment running, nothing else under way (log 18). -/
def State.withFetchWord (s : State) (nbits w : Nat) : State :=
  { s with
    agenda := [], inputs := [], cursor := 0, early := [], written := [], autos := []
    mem := wrBytes (wrBytes s.mem State.codeRecAddr State.codeRec) State.codePhys (natBytes 32 (w % 2 ^ nbits))
    nextId := 2, strands := [(0, s.codeStrand)], parked := [], images := [], conts := [], ops := [], egress := []
    repl := [], flights := [], colls := [], owed := [], poison := [], soft := []
    clusters := [(0, { pid := some 1, members := [1] })], clParts := [], dies := [], dieParts := []
    parts := [(1, State.codePart)]
    dev := { s.dev with ctl := tabSet s.dev.ctl 0x860 1, cmd := none, verify := false, attest := none, booting := false
                        hot := [], off := false } }

end Sys2Proof.Machine
end

