-- ==== Sys2Proof/Safety.lean ====
section
/-! DEFINITION. What counts as a sound state and a safe run, and the terms in which the statements about single rows are
made: when an instruction may take effect, what an instruction leaves alone, what a fault saves. -/

namespace Sys2Proof.Machine

/-! ### Sound states and runs -/

/-- The row is an event and not an instruction word. -/
def isEvent (i : Instr) : Bool := (encode i).isEmpty

/-- The invariant of the machine: memory and the firmware window are in their canonical form. -/
def State.Inv (s : State) : Prop := Memory.wf s.mem = true ∧ Memory.wf s.dev.fwWindow = true

/-- The agenda and the outside events hold events only: no instruction word is performed but one that a lane has fetched. -/
def State.Orderly (s : State) : Prop :=
  (∀ r ∈ s.agenda, isEvent r.1 = true) ∧ (∀ r ∈ s.inputs, isEvent r.2.1 = true)

/-- The outcome is a next state. -/
def Goes (o : Out) : Prop := ∃ s', o = .next s'

/-- Nothing exists and nothing is under way: no partition, task, queue, calendar or cache, no operation, event or message; every
device register reads its reset value, no write of one is pending, DEV_TIME is zero and undisciplined, and boot measurement is under
way (R33, R431). -/
def Fresh (s : State) : Prop :=
  s.parts = [] ∧ s.clusters = [] ∧ s.clParts = [] ∧ s.dieParts = [] ∧ s.dies = []
    ∧ s.strands = [] ∧ s.parked = [] ∧ s.conts = [] ∧ s.images = [] ∧ s.ops = []
    ∧ s.egress = [] ∧ s.repl = [] ∧ s.flights = [] ∧ s.colls = [] ∧ s.agenda = []
    ∧ s.devTime = 0 ∧ s.cycle = 0 ∧ s.dev.timePend = [] ∧ (∀ n, ctlGet s.dev.ctl n = ctlReset n)
    ∧ (∀ n ∈ [0x842, 0x843, 0x844], ctlGet s.dev.ctl n = 0)
    ∧ s.dev.cmd = none ∧ s.dev.booting = true ∧ s.dev.off = false

/-- `k` steps from `s` answer next states: a safe run. -/
def Safe : Nat → State → Prop
  | 0, _ => True
  | k + 1, s => ∃ s', step s = .next s' ∧ Safe k s'

/-! ### Numbers (R69, R78-R81, R86) -/

/-- A finite value in units of 2^z, for z not above its exponent. -/
def unitsAt (z : Int) : Xr → Int
  | .fin n m e _ => sgnMant n m e z
  | _ => 0

/-- z is not above the exponent of the value. -/
def fineFor (z : Int) : Xr → Prop
  | .fin _ _ e st => z ≤ e ∧ st = false
  | _ => True

/-- `r` is the group sum of the values `p` before its rounding (R86): NaN for a NaN, NaN and NV for both infinities, one infinity,
else the exact sum, whose zero is -0 only when there are values and every one is -0. -/
def IsGroupSum (p : List Xr) (r : Xr × FpFlags) : Prop :=
  (.nan ∈ p → r = (.nan, 0))
    ∧ (.nan ∉ p → .inf false ∈ p → .inf true ∈ p → r = (.nan, fNV))
    ∧ (∀ n, .nan ∉ p → .inf n ∈ p → .inf (!n) ∉ p → r = (.inf n, 0))
    ∧ (.nan ∉ p → (∀ n, .inf n ∉ p) → (∃ z, ∀ x ∈ p, fineFor z x) →
        ∃ i j q, r = (.fin i j q false, 0)
          ∧ (∀ z, z ≤ q → (∀ x ∈ p, fineFor z x) → unitsAt z (.fin i j q false) = (p.map (unitsAt z)).sum)
          ∧ (j = 0 → (i = true ↔ p ≠ [] ∧ ∀ x ∈ p, ∃ e, x = .fin true 0 e false)))

/-- `r` is the magnitude m × 2^e of this sign as a multiple of 2^q under `rm`, and whether it is exact (R78, R79). -/
def IsRounded (rm : Rnd) (neg : Bool) (m : Nat) (e q : Int) (r : Nat × Bool) : Prop :=
  let d := 2 ^ (q - e).toNat
  (q ≤ e → r = (m * 2 ^ (e - q).toNat, true))
    ∧ (e < q → m % d = 0 → r = (m / d, true))
    ∧ (e < q → m % d ≠ 0 → r.2 = false
        ∧ (rm = .rz → r.1 = m / d)
        ∧ (rm = .ru → r.1 = if neg then m / d else m / d + 1)
        ∧ (rm = .rd → r.1 = if neg then m / d + 1 else m / d)
        ∧ (rm = .rne → (2 * (m % d) < d → r.1 = m / d) ∧ (d < 2 * (m % d) → r.1 = m / d + 1)
            ∧ (2 * (m % d) = d → r.1 % 2 = 0 ∧ m / d ≤ r.1 ∧ r.1 ≤ m / d + 1))
        ∧ (∀ x, rm = .sr x → r.1 = if x.toNat / 256 < m % d * 2 ^ 24 / d then m / d + 1 else m / d))

/-- A floating format's exponent width, mantissa width and bias, the codes of its MAX and of its canonical NaN, and MAX as a mantissa
and an exponent (R69, R70). -/
structure FloatRow where
  f : Fmt
  ew : Nat
  mw : Nat
  bias : Nat
  maxCode : Nat
  nan : Nat
  maxMant : Nat
  maxExp : Int

/-- The floating formats (R69, R70). -/
def floatRows : List FloatRow :=
  [⟨.fp32, 8, 23, 127, 0x7F7FFFFF, 0x7FC00000, 2 ^ 24 - 1, 104⟩, ⟨.bf16, 8, 7, 127, 0x7F7F, 0x7FC0, 255, 120⟩,
   ⟨.fp16, 5, 10, 15, 0x7BFF, 0x7E00, 2047, 5⟩, ⟨.e4m3, 4, 3, 7, 0x7E, 0x7F, 14, 5⟩, ⟨.e5m2, 5, 2, 15, 0x7B, 0x7E, 7, 13⟩,
   ⟨.e3m2, 3, 2, 3, 0x1F, 0, 7, 2⟩, ⟨.e2m3, 2, 3, 1, 0x1F, 0, 15, -1⟩, ⟨.e2m1, 2, 1, 1, 7, 0, 3, 1⟩]

/-- The formats with infinities (R69). -/
def ieeeFmts : List Fmt := [.fp32, .bf16, .fp16, .e5m2]

/-- The formats without infinity and NaN (R69). -/
def plainFmts : List Fmt := [.e3m2, .e2m3, .e2m1]

/-- `c` is the conversion of the non-zero (-1)^neg × m × 2^e to the row's format under a mode that is not SR: the rounded value with
NX and UF, zero for a BF16 result below 2^-126, and the overflow row of R81 (R80, R81, R84). -/
def IsConverted (w : FloatRow) (neg : Bool) (m : Nat) (e : Int) (rm : Rnd) (sat : Bool) (c : Nat × FpFlags) : Prop :=
  let sign := if neg then 2 ^ (w.ew + w.mw) else 0
  let emin : Int := 1 - (w.bias : Int)
  let top : Int := (Nat.log2 m : Int) + e - w.mw
  let q := if w.f = .bf16 then top else max top (emin - w.mw)
  ∃ r rt, IsRounded rm neg m e q r ∧ IsRounded rm neg m e top rt
    ∧ (let big := magGt r.1 q w.maxMant w.maxExp
       let tiny := magGt 1 emin rt.1 top
       (big = false → (w.f = .bf16 → tiny = false) →
         (∃ j p, decodeFmt w.f c.1 = .fin neg j p false
            ∧ ∀ z, z ≤ p → z ≤ q → j * 2 ^ (p - z).toNat = r.1 * 2 ^ (q - z).toNat)
         ∧ c.2 = flagIf (!r.2) fNX ||| flagIf (!r.2 && tiny) fUF)
       ∧ (big = false → w.f = .bf16 → tiny = true → c = (sign, fUF ||| fNX))
       ∧ (big = true → sat = true ∨ w.f ∈ plainFmts → c = (sign + w.maxCode, fOF ||| fNX ||| fSAT))
       ∧ (big = true → sat = false → w.f ∉ plainFmts →
           let inf := if w.f = .e4m3 then w.nan else sign + (2 ^ w.ew - 1) * 2 ^ w.mw
           (rm = .rne → c = (inf, fOF ||| fNX)) ∧ (rm = .rz → c = (sign + w.maxCode, fOF ||| fNX))
           ∧ (rm = .ru → c = (if neg then sign + w.maxCode else inf, fOF ||| fNX))
           ∧ (rm = .rd → c = (if neg then inf else sign + w.maxCode, fOF ||| fNX))))

/-! ### When an instruction takes effect -/

/-- In a sound state, the instruction's strand is `t`, its guard is true and no register that it names is leased (R41, R187). -/
def Ready (s : State) (t : Strand) (i : Instr) (g : Guard) : Prop :=
  s.Inv ∧ curStrand s = some t ∧ guardOn g t = true ∧ ∀ r ∈ uses i, regLeased s t.task.id r = false

/-- A counter that can count one more (R185). -/
def CtrFree (t : Strand) (c : R6) : Prop := ctrFull t c = false

/-- The highest minor code of a major (R49); none for a reserved major. -/
def highestMinor : Nat → Option Nat
  | 0x01 => some 29 | 0x02 => some 11 | 0x03 => some 7 | 0x04 => some 6 | 0x05 => some 4 | 0x06 => some 3 | 0x07 => some 7
  | 0x08 => some 7 | 0x09 => some 6 | 0x0A => some 11 | 0x0B => some 7 | 0x0C => some 8 | 0x0D => some 4 | 0x0E => some 3
  | 0x0F => some 4 | 0x10 => some 17 | 0x11 => some 13 | 0x12 => some 7 | 0x13 => some 8 | 0x14 => some 4 | 0x18 => some 10
  | 0x19 => some 6 | 0x1A => some 5 | 0x1B => some 3 | 0x1F => some 3 | 0x30 => some 3 | 0x31 => some 1 | 0x32 => some 0
  | _ => none

/-- A branch (R50). -/
def isBranchForm : Instr → Bool
  | .b _ _ => true
  | .bl _ _ _ => true
  | .br _ _ => true
  | .blr _ _ _ => true
  | .loop _ _ _ => true
  | _ => false

/-- The strand has the privilege that the instruction's decode asks for (R37, R176, R246, R345, R422, R423). -/
def permitted (s : State) (t : Strand) : Instr → Bool
  | .ctlrd _ _ n => !ctlDenied n.toNat t
  | .ctlwr _ n _ => !ctlDenied n.toNat t
  | .whisk _ _ => bit (cpCtl s t.cl t.task.pid 0x1C1) 1 || isSup t
  | .pgset _ _ _ _ _ sel => decide (sel.toNat < 2) || isSup t
  | .pgfree _ _ _ _ => isSup t
  | .pgref _ _ _ _ _ => isSup t
  | .pgmap _ _ _ _ _ _ => isSup t
  | .pgunmap _ _ _ _ => isSup t
  | .qcfg _ _ _ _ _ => isSup t
  | .ssetC _ _ _ _ => isSup t
  | .resume _ _ _ => isSup t
  | .abort _ _ _ _ => isSup t
  | _ => true

/-! ### What a strand keeps -/

/-- Every g register of `t'` is that of `t` but d, which holds `x`; a write to g0 is discarded (R34). -/
def WroteG (d : R6) (x : Word) (t t' : Strand) : Prop :=
  ∀ r : R6, getG t' r = if r = d ∧ d ≠ 0 then x else getG t r

/-- Every v register of `t'` is that of `t` but d, which holds `x`. -/
def WroteV (d : R6) (x : BitVec 1024) (t t' : Strand) : Prop :=
  ∀ r : R6, getV t' r = if r.toNat % 32 = d.toNat % 32 then x else getV t r

/-- Every predicate of `t'` is that of `t` but d, which holds `x`; p7 stays true. -/
def WroteP (d : BitVec 3) (x : Bool) (t t' : Strand) : Prop :=
  ∀ r : BitVec 3, getP t' r = if r = d ∧ d ≠ 7 then x else getP t r

/-- Every mask of `t'` is that of `t` but d, which holds `x`; m7 stays all ones. -/
def WroteM (d : BitVec 3) (x : Word) (t t' : Strand) : Prop :=
  ∀ r : BitVec 3, getM t' r = if r = d ∧ d ≠ 7 then x else getM t r

/-- The g registers stay. -/
def SameG (t t' : Strand) : Prop := ∀ r : R6, getG t' r = getG t r

/-- The vector registers and masks stay. -/
def SameV (t t' : Strand) : Prop := t'.v = t.v ∧ t'.m = t.m

/-- The predicates, the counters and the rounding mode stay. -/
def SameP (t t' : Strand) : Prop := t'.p = t.p
def SameC (t t' : Strand) : Prop := t'.c = t.c
def SameF (t t' : Strand) : Prop := t'.rm = t.rm ∧ t'.flags = t.flags

/-- What no instruction that stays in its strand changes: its task, segment and place. -/
def SameSpot (t t' : Strand) : Prop := t'.task = t.task ∧ t'.seg = t.seg ∧ t'.cl = t.cl ∧ t'.lane = t.lane ∧ t'.ctx = t.ctx

/-- Flags `f` reach FPFLAG in cycle `n`, and none does before (R39, R120). -/
def FlagsLand (n : Nat) (f : FpFlags) (t t' : Strand) : Prop :=
  t'.flags = t.flags ∧ t'.rm = t.rm ∧ ∀ c, flagsAt c t' = if n ≤ c then flagsAt c t ||| f else flagsAt c t

/-- These, and the flags still to reach FPFLAG. -/
def SamePlace (t t' : Strand) : Prop :=
  t'.task = t.task ∧ t'.seg = t.seg ∧ t'.cl = t.cl ∧ t'.lane = t.lane ∧ t'.ctx = t.ctx ∧ t'.late = t.late

/-- The triple moves on by a word (R34, R50). -/
def MovedOn (t t' : Strand) : Prop :=
  t'.pc0 = t.pc1 ∧ t'.pc1 = t.pc2 ∧ t'.pc2 = t.pc2 + 8 ∧ t'.ds = (if t.ds = 1 then 2 else 0)

/-- The triple after a branch with this target: two slots, then the target (R50). -/
def Branched (target : Va) (t t' : Strand) : Prop :=
  t'.pc0 = t.pc0 + 8 ∧ t'.pc1 = t.pc0 + 16 ∧ t'.pc2 = target ∧ t'.ds = 1

/-- The pending operations stay, but for words of a frame that the segment's end frees: those are lost with it (R152). -/
def SameOps (l l' : List Op) : Prop := l'.map (fun o => { o with out := [] }) = l.map (fun o => { o with out := [] })

/-- Every byte of memory reads as before. -/
def SameMem (s s' : State) : Prop := ∀ a, rdCell s'.mem a = rdCell s.mem a

/-- Every byte outside the `n` bytes at `a` reads as before. -/
def SameMemBut (a n : Nat) (s s' : State) : Prop := ∀ b, (b < a ∨ a + n ≤ b) → rdCell s'.mem b = rdCell s.mem b

/-- Every byte outside the saved images, the continuation records in HBM and the slots that further records may take reads as
before (R229, R408, R416). -/
def SameMemButSaved (s s' : State) : Prop :=
  ∀ b, (∀ e ∈ s.images, ∀ p, (b < imagePhys s e.2.1 p e.2.2.1 ∨ imagePhys s e.2.1 p e.2.2.1 + 32768 ≤ b)
      ∧ (b < shadowPhys e.2.1 p e.2.2.1 ∨ shadowPhys e.2.1 p e.2.2.1 + 8192 ≤ b)) →
    (∀ c ∈ s.conts, ∀ k, c.hbm = some k ∨ k ≤ s.conts.length →
      b < contPhys s c.cl c.task.pid k ∨ contPhys s c.cl c.task.pid k + 8192 ≤ b) →
    rdCell s'.mem b = rdCell s.mem b

/-- `e` has entered the queue at its tail, and the head of the queue knows the tick in which it became the head (R244, R254). -/
def Appended (s s' : State) (cl p q : Nat) (e : Entry) : Prop :=
  let was := queueOf (getCp s cl p) q
  let now := queueOf (getCp s' cl p) q
  now.map (fun x => { x with headAt := none }) = (was ++ [e]).map (fun x => { x with headAt := none })
    ∧ e.headAt = none ∧ e.since = tickNow s
    ∧ ∀ h l, now = h :: l → h.headAt = some (((was ++ [e]).head?.bind (·.headAt)).getD (tickNow s))

/-- The instruction completes with `t'` in its lane, and nothing else in the machine changes. -/
def Completes (i : Instr) (s : State) (t' : Strand) : Prop :=
  exec i s = .next (putStrand s t') ∧ SameMem s (putStrand s t')

/-- A form that writes one g register: it completes with the value `x`, and everything else of the strand stays. -/
def WritesG (i : Instr) (g : Guard) (d : R6) (x : State → Strand → Word) : Prop :=
  ∀ s t, Ready s t i g → ∃ t', Completes i s t' ∧ WroteG d (x s t) t t' ∧ SameV t t' ∧ SameP t t' ∧ SameC t t'
    ∧ SameF t t' ∧ SamePlace t t' ∧ MovedOn t t'

/-- A form that writes v[d] and ORs flags into FPFLAG at its result cycle, `lat` cycles after its issue. -/
def WritesV (i : Instr) (g : Guard) (lat : Nat) (d : R6) (x : State → Strand → BitVec 1024) (f : State → Strand → FpFlags) :
    Prop :=
  ∀ s t, Ready s t i g → ∃ t', Completes i s t' ∧ WroteV d (x s t) t t' ∧ FlagsLand (s.cycle + lat) (f s t) t t'
    ∧ SameG t t' ∧ t'.m = t.m ∧ SameP t t' ∧ SameC t t' ∧ SameSpot t t' ∧ MovedOn t t'

/-- A vector form of latency `lat` whose element j is `f t j`: active elements take it, inactive ones merge or are zeroed, and
only active ones raise flags (R119, R120). -/
def VectorResult (i : Instr) (g : Guard) (lat w : Nat) (d : R6) (k : BitVec 3) (z : Bool)
    (f : Strand → Nat → Nat × FpFlags) : Prop :=
  WritesV i g lat d (fun _ t => maskWrite w (getM t k) z (getV t d) (fun j => (f t j).1))
    (fun _ t => orActive w (getM t k) (fun j => (f t j).2))

/-- What a form that writes predicates only keeps of its strand. -/
def OnlyP (t t' : Strand) : Prop := SameV t t' ∧ SameG t t' ∧ SameC t t' ∧ SameF t t' ∧ SamePlace t t' ∧ MovedOn t t'

/-- A form that writes one g register and ORs flags into FPFLAG at its result cycle. -/
def WritesGF (i : Instr) (g : Guard) (lat : Nat) (d : R6) (x : State → Strand → Word) (f : State → Strand → FpFlags) : Prop :=
  ∀ s t, Ready s t i g → ∃ t', Completes i s t' ∧ WroteG d (x s t) t t' ∧ FlagsLand (s.cycle + lat) (f s t) t t'
    ∧ SameV t t' ∧ SameP t t' ∧ SameC t t' ∧ SameSpot t t' ∧ MovedOn t t'

/-- A branch: it writes one g register (g0 where it writes none), runs its two slots and goes on at `target` (R109). -/
def BranchesTo (i : Instr) (g : Guard) (d : R6) (x : Strand → Word) (target : Strand → Va) : Prop :=
  ∀ s t, Ready s t i g → ∃ t', Completes i s t' ∧ WroteG d (x t) t t' ∧ Branched (target t) t t'
    ∧ SameV t t' ∧ SameP t t' ∧ SameC t t' ∧ SameF t t' ∧ SamePlace t t'

/-- A form that writes one m register. -/
def WritesM (i : Instr) (g : Guard) (d : BitVec 3) (x : Strand → Word) : Prop :=
  ∀ s t, Ready s t i g → ∃ t', Completes i s t' ∧ WroteM d (x t) t t' ∧ t'.v = t.v ∧ SameG t t' ∧ SameP t t' ∧ SameC t t'
    ∧ SameF t t' ∧ SamePlace t t' ∧ MovedOn t t'

/-- A form that writes one p register. -/
def WritesP (i : Instr) (g : Guard) (d : BitVec 3) (x : Strand → Bool) : Prop :=
  ∀ s t, Ready s t i g → ∃ t', Completes i s t' ∧ WroteP d (x t) t t' ∧ SameV t t' ∧ SameG t t' ∧ SameC t t'
    ∧ SameF t t' ∧ SamePlace t t' ∧ MovedOn t t'

/-- The instruction completes with state `s'`, and `t'` is then the strand of its lane. -/
def Lands (i : Instr) (s s' : State) (t' : Strand) : Prop := exec i s = .next s' ∧ tabGet s'.strands s.cur = some t'

/-- Everything of the strand stays but its triple. -/
def OnlyMoves (t t' : Strand) : Prop :=
  SameG t t' ∧ SameV t t' ∧ SameP t t' ∧ SameC t t' ∧ SameF t t' ∧ SamePlace t t' ∧ MovedOn t t'

/-- Everything of the strand stays but g[d], which holds `x`, and its triple. -/
def OnlyG (d : R6) (x : Word) (t t' : Strand) : Prop :=
  WroteG d x t t' ∧ SameV t t' ∧ SameP t t' ∧ SameC t t' ∧ SameF t t' ∧ SamePlace t t' ∧ MovedOn t t'

/-- Everything of the strand stays but v[d], which holds `x`, and its triple. -/
def OnlyV (d : R6) (x : BitVec 1024) (t t' : Strand) : Prop :=
  WroteV d x t t' ∧ SameG t t' ∧ t'.m = t.m ∧ SameP t t' ∧ SameC t t' ∧ SameF t t' ∧ SamePlace t t' ∧ MovedOn t t'

/-- Every byte outside the `n` bytes at each of the places reads as before. -/
def SameMemOff (ps : List Nat) (n : Nat) (s s' : State) : Prop :=
  ∀ b, (∀ p ∈ ps, b < p ∨ p + n ≤ b) → rdCell s'.mem b = rdCell s.mem b

/-- The `n` bytes at `a` and the `m` bytes at `b` have none in common. -/
def Apart (a n b m : Nat) : Prop := a + n ≤ b ∨ b + m ≤ a

/-- The leaf PTE at `a` holds these two words. -/
def PteHolds (s : State) (a : Nat) (w0 w1 : Word) : Prop := rd64 s a = w0 ∧ rd64 s (a + 8) = w1

/-- The page has a path of nodes, and its leaf PTE stands at `a`. -/
def PathTo (s : State) (p root vpn a : Nat) : Prop := ∃ r n2 n3, walkNodes s p root vpn = [r, n2, n3] ∧ a = pteAddr s p n3 vpn 3

/-- The walker has written the PTE at `a`, where it is no part of word 0 of the record, and that word, and nothing else. -/
def WrotePte (s s' : State) (p fri a : Nat) (w0 w1 : Word) (ref pins : Nat) : Prop :=
  SameMemOff [a, a + 8, recAddr s p fri 0] 8 s s'
    ∧ (Apart a 16 (recAddr s p fri 0) 8 → PteHolds s' a w0 w1 ∧ recRef s' p fri = ref ∧ recPins s' p fri = pins)

/-- The cycle of the line that holds `p`, in an access of `n` bytes at each of the places (R160). -/
def lineTime (s : State) (t : Strand) (ps : List Nat) (n p : Nat) : Nat :=
  timeOf (lineTimes t s (linesOf (ps.map (fun a => (a, n))))) p s.cycle

/-- The last cycle of the access. -/
def lineEnd (s : State) (t : Strand) (ps : List Nat) (n : Nat) : Nat :=
  (lineTimes t s (linesOf (ps.map (fun a => (a, n))))).foldl (fun m c => max m c.2) s.cycle

/-- A store of the `n` bytes `x j` at each place, issued by `t` in this cycle, which finds memory as in `s0` (R160, R171, R224): no
byte outside the places changes; what lies in a line whose cycle has come is stored, the highest index last where places meet; what
lies in a line still to come waits for its cycle, and what lies in a line behind the segment's end is never stored. -/
def StoresLines (s s0 s' : State) (t t' : Strand) (ps : List Nat) (n : Nat) (x : Nat → List Byte) : Prop :=
  let time := lineTime s t ps n
  SameMemOff ps n s0 s'
    ∧ (∀ j p, ps[j]? = some p → (∀ k q, j < k → ps[k]? = some q → q + n ≤ p ∨ p + n ≤ q) →
        time p ≤ s.cycle → time p < endCycle t → rdBytes s'.mem p n = x j)
    ∧ (∀ p ∈ ps, s.cycle < time p ∨ endCycle t ≤ time p →
        (∀ q ∈ ps, s.cycle < time q ∨ endCycle t ≤ time q ∨ q + n ≤ p ∨ p + n ≤ q) →
        ∀ b, p ≤ b → b < p + n → rdCell s'.mem b = rdCell s0.mem b)
    ∧ (∀ j p, ps[j]? = some p → s.cycle < time p → time p < endCycle t →
        (time p, p, x j) ∈ t'.lineOut ∧ time p < t'.hold)
    ∧ (∀ l ∈ t'.lineOut, l.1 < endCycle t)

/-! ### Faults (R402) -/

/-- The registers and the triple of a strand that has left its lane. -/
def Keeps (t u : Strand) : Prop :=
  u.task = t.task ∧ u.g = t.g ∧ u.v = t.v ∧ u.p = t.p ∧ u.m = t.m ∧ u.c = t.c
    ∧ u.pc0 = t.pc0 ∧ u.pc1 = t.pc1 ∧ u.pc2 = t.pc2 ∧ u.ds = t.ds

/-- An event of cause code `c` that names the strand waits at its die, behind those that waited before (R405). -/
def Reported (s s' : State) (t : Strand) (c : Nat) : Prop :=
  ∃ e, (getDie s' (dieOf t.cl)).waiting = (getDie s (dieOf t.cl)).waiting ++ [e] ∧ e.cause = c ∧ e.kind = 0
    ∧ e.pid = t.task.pid ∧ e.cl = t.cl ∧ e.subject = .strand t.task.id
    ∧ e.words.take 3 = [toW t.pc0, toW t.pc1, toW t.pc2]

/-- The strand `t` is parked with its registers, the flags of every instruction it issued and its triple, and is reported
(R402). -/
def ParkedFor (s s' : State) (t : Strand) (c : Nat) : Prop :=
  (∃ u ∈ s'.parked, Keeps t u ∧ u.flags = flagsDone t ∧ u.ending = none) ∧ Reported s s' t c

/-- The strand `t` has stopped with a fault of cause code `c`, and its lane runs nothing: it is parked at once when its register
writes are complete, else it waits for them, to park then (R92, R402). -/
def Faulted (s s' : State) (t : Strand) (c : Nat) : Prop :=
  tabGet s'.strands (laneKey t) = none
    ∧ (settled s t = true → ParkedFor s s' t c)
    ∧ (settled s t = false → ∃ u ∈ s'.parked, Keeps t u ∧ u.flags = t.flags ∧ u.late = t.late ∧ u.pend = t.pend
        ∧ ∃ n f, u.ending = some (.fault n f) ∧ causeCode f.cause = c)

/-- The instruction raises the cause: it takes the fault and has no other effect. -/
def Raises (i : Instr) (s : State) (t : Strand) (c : Nat) : Prop := ∃ s', exec i s = .next s' ∧ Faulted s s' t c

/-! ### Engine operations (R185) -/

/-- The instruction issues an operation of kind `k` on counter `c`, with destination `dst` and the property `p`: it is counted,
stands behind every other, and nothing else of the strand changes but the triple. -/
def Issues (i : Instr) (s : State) (t : Strand) (k : OpKind) (c : Option R6) (dst : Option RegRef) (p : Op → Prop) : Prop :=
  ∃ s' t' o, Lands i s s' t' ∧ s'.ops = s.ops ++ [o] ∧ o.id = s.nextId ∧ s'.nextId = s.nextId + 1
    ∧ o.kind = k ∧ o.task = t.task.id ∧ o.pid = t.task.pid ∧ o.cl = t.cl ∧ o.dst = dst
    ∧ o.ctr = c.map (fun r => r.toNat % 4) ∧ p o
    ∧ (∀ r : R6, getC t' r = if c.map (fun x => x.toNat % 4) = some (r.toNat % 4) then getC t r + 1 else getC t r)
    ∧ SameG t t' ∧ SameV t t' ∧ SameP t t' ∧ SameF t t' ∧ SamePlace t t' ∧ MovedOn t t'

/-- A form whose own effect is to issue an operation of kind `k` with these arguments, behind the fences of its strand: with its
privilege and a counter that can count it issues, and with a full counter it raises COUNTER (R185, R378). -/
def Requests (i : Instr) (g : Guard) (s : State) (t : Strand) (k : OpKind) (c : R6) (dst : Option RegRef) (args : List Word) :
    Prop :=
  Ready s t i g → permitted s t i = true →
    (CtrFree t c → Issues i s t k (some c) dst (fun o => o.args = args ∧ o.stopped = false ∧ o.fin = none ∧ o.deps = t.fence))
      ∧ (¬ CtrFree t c → Raises i s t 22)

/-! ### Leaving a lane (R226, R229) -/

/-- The continuation holds the strand's context: its task, its live g and v registers and its other registers (R229). -/
def Carries (t : Strand) (c : Cont) : Prop :=
  c.task = t.task ∧ c.c = t.c ∧ c.p = t.p ∧ c.rm = t.rm ∧ c.flags = flagsDone t ∧ c.glive = t.seg.glive ∧ c.vlive = t.seg.vlive
    ∧ (∀ r : Fin 64, c.g[r] = if t.seg.glive.getLsbD r ∧ r.val ≠ 0 then t.g[r] else 0)
    ∧ (∀ r : Fin 32, c.v[r] = if t.seg.vlive.getLsbD r then t.v[r] else 0)

/-- The strand's segment has ended: its lane runs nothing, and `c`, which holds its context, is its continuation; results that
pending operations would write outside the live set are discarded (R188). -/
def Left (s s' : State) (t : Strand) (c : Cont) : Prop :=
  tabGet s'.strands (laneKey t) = none ∧ s'.conts = s.conts ++ [c] ∧ SameOps (dropDead s t).ops s'.ops ∧ Carries t c

/-- The instruction ends the strand's segment, once its register writes are complete; until then it waits (R227). -/
def Splits (i : Instr) (s : State) (t : Strand) (p : Cont → Prop) : Prop :=
  (settled s t = true → ∃ s' c, exec i s = .next s' ∧ Left s s' t c ∧ p c)
    ∧ (settled s t = false → exec i s = .next (putStrand s { t with hold := pendEnd s t }))

/-- The continuation resumes at the instruction itself (R225). -/
def AtItself (t : Strand) (c : Cont) : Prop := c.pc0 = t.pc0 ∧ c.pc1 = t.pc1 ∧ c.pc2 = t.pc2 ∧ c.ds = t.ds

/-- The instruction's condition is unmet: the segment ends by an implicit split with this event and EVARG, at once when the
strand's register writes are complete; else the strand stops, to split when they are (R225, R227). The split is made in state `s0`,
to which a release before it leads. -/
def SplitsFrom (i : Instr) (s s0 : State) (t : Strand) (event : Nat) (evarg : Word) : Prop :=
  (settled s t = true → ∃ s' c, exec i s = .next s' ∧ Left s0 s' t c ∧ AtItself t c ∧ c.event = event ∧ c.evarg = evarg)
    ∧ (settled s t = false → ∃ s' u, exec i s = .next s' ∧ tabGet s'.strands (laneKey t) = none ∧ u ∈ s'.parked ∧ Keeps t u
        ∧ u.flags = t.flags ∧ u.late = t.late ∧ u.pend = t.pend
        ∧ ∃ a, u.ending = some (.split (relCycle t s) event evarg a false))

/-- The same where nothing is released before the split. -/
def SplitsHere (i : Instr) (s : State) (t : Strand) (event : Nat) (evarg : Word) : Prop := SplitsFrom i s s t event evarg

/-- The continuation resumes behind the instruction. -/
def Behind (t : Strand) (c : Cont) : Prop :=
  c.pc0 = t.pc1 ∧ c.pc1 = t.pc2 ∧ c.pc2 = t.pc2 + 8 ∧ c.ds = (if t.ds = 1 then 2 else 0)

/-! ### Events -/

/-- In a sound state the event answers a next state with this property. -/
def Performs (i : Instr) (s : State) (p : State → Prop) : Prop := s.Inv → ∃ s', exec i s = .next s' ∧ p s'

/-- Nothing changes but the device's registers and units, and what a host's read returns. -/
def OnlyDevice (s s' : State) : Prop := s' = { s with dev := s'.dev, reply := s'.reply }

/-- What the completion of an operation does to its running strand: the destination register takes `x`, the counter falls by one,
and the other registers, the flags but `f` and the triple stay (R185). -/
def Delivered (t t' : Strand) (dst : Option RegRef) (ctr : Option Nat) (x : Nat) (f : FpFlags) : Prop :=
  (∀ r : Fin 64, (∀ n, dst = some (.g n) → n % 64 ≠ r.val ∨ n = 0) → t'.g[r] = t.g[r])
    ∧ (∀ n, dst = some (.g n) → n ≠ 0 → t'.g[n % 64] = BitVec.ofNat 64 x)
    ∧ (∀ r : Fin 32, (∀ n, dst = some (.v n) → n % 32 ≠ r.val) → t'.v[r] = t.v[r])
    ∧ (∀ n, dst = some (.v n) → t'.v[n % 32] = BitVec.ofNat 1024 x)
    ∧ (∀ k : Fin 4, t'.c[k] = if ctr.map (· % 4) = some k.val then t.c[k] - 1 else t.c[k])
    ∧ t'.p = t.p ∧ t'.m = t.m ∧ t'.rm = t.rm ∧ t'.flags = t.flags ||| f ∧ t'.pc0 = t.pc0 ∧ t'.pc1 = t.pc1 ∧ t'.pc2 = t.pc2
    ∧ t'.ds = t.ds ∧ t'.task = t.task

/-- The operation has completed with `x`: it is no longer pending, and every running strand of its task has its result. -/
def Finished (s s' : State) (o : Op) (x : Nat) (f : FpFlags) : Prop :=
  (∀ q ∈ s'.ops, q.id ≠ o.id)
    ∧ ∀ n t, tabGet s.strands n = some t → t.task.id = o.task →
        ∃ t', tabGet s'.strands n = some t' ∧ Delivered t t' o.dst o.ctr x f

/-- Nothing holds the completion of an operation back once its work is done: no write of its own is under way and no fence
stands before it (R185, R370, R378). -/
def Unhindered (s : State) (o : Op) : Prop :=
  (∀ e ∈ s.egress, e.op ≠ o.id) ∧ (∀ e ∈ s.repl, e.op ≠ o.id) ∧ o.deps = []

/-- The operation has stopped before the unit `ix` with cause code `c` at `va`: it stays pending, and an event that names it waits
at its die (R201, R202, R405). -/
def OpStopped (s s' : State) (o : Op) (c : Nat) (va ix : Word) : Prop :=
  (∃ q ∈ s'.ops, q.id = o.id ∧ q.stopped = true)
    ∧ ∃ e, (getDie s' (dieOf o.cl)).waiting = (getDie s (dieOf o.cl)).waiting ++ [e] ∧ e.cause = c ∧ e.kind = 1
      ∧ e.pid = o.pid ∧ e.cl = o.cl ∧ e.subject = .op o.id ∧ e.words.getD 3 0 = va ∧ e.words.getD 4 0 = ix
      ∧ e.words.getD 6 0 = toW o.pc

/-- Cluster `cl` has learnt that the domain stands at `gen`: the continuations there that await another than the domain's fire, and
so do those that strands which are stopping leave (R228, R381). -/
def Told (s s' : State) (p sel cl gen : Nat) : Prop :=
  s'.conts = s.conts.map (fun c =>
      if c.event = 4 ∧ c.task.pid = p ∧ c.cl = cl ∧ c.evarg.toNat % 64 = sel ∧ c.evarg.toNat / 2 ^ 16 % 2 ^ 16 ≠ gen then
        { c with fired := true }
      else c)
    ∧ ∀ t ∈ s.parked, ∀ n a x b, t.ending = some (.split n 4 a x b) → t.task.pid = p → t.cl = cl → a.toNat % 64 = sel →
        a.toNat / 2 ^ 16 % 2 ^ 16 ≠ gen → { t with ending := some (.split n 4 a x true) } ∈ s'.parked

/-- An earlier operation that a fence holds (R378). -/
def HeldByFence (s : State) (q : Op) : Prop :=
  q ∈ s.ops ∧ q.stopped = false ∧ q.fin = none ∧ (getClu s q.cl).pid = some q.pid
    ∧ depsMet s q (unitReads q.kind) (unitWrites q.kind) = false

/-- The next word of a unit has gone where it belongs (R195, R370-R372): to the sequencer of a replicated page; at its home on the
operation's own die it is performed, and nothing else in memory changes; to another die or a host it stands in an egress buffer. -/
def WordGoes (s s' : State) (o : Op) (w : OutWord) : Prop :=
  let egress := fun (s : State) => s.egress.map (fun e => { e with seen := false })
  let die := dieOf o.cl
  (w.repl = true → SameMem s s' ∧ egress s' = egress s ∧ ∃ r, s'.repl = s.repl ++ [r] ∧ r.pid = o.pid ∧ r.fri = w.fri
      ∧ r.off = w.addr % 32768 ∧ r.bytes = w.bytes ∧ r.full = w.full ∧ r.op = o.id ∧ r.seqd = false)
    ∧ (w.repl = false → homeOf w.addr = die → rdBytes s'.mem w.addr w.bytes.length = w.bytes
        ∧ SameMemBut w.addr w.bytes.length s s' ∧ egress s' = egress s ∧ s'.repl = s.repl
        ∧ (w.full = true → ∀ b, w.addr ≤ b → b < w.addr + w.bytes.length → feGet s' b = true))
    ∧ (w.repl = false → homeOf w.addr ≠ die → SameMem s s' ∧ s'.repl = s.repl ∧ ∃ e, egress s' = egress s ++ [e] ∧ e.src = die
        ∧ e.dst = homeOf w.addr ∧ e.op = o.id ∧ e.addr = w.addr ∧ e.bytes = w.bytes ∧ e.full = w.full)

/-- Nothing holds the copy of the 8 bytes at `pa` to `pd` back: no error, lease, booked bank group or earlier replicated write
(R183, R190, R195, R202, R365). -/
def MayMove (s : State) (o : Op) (pd pa : Nat) : Prop :=
  eccBad s pa 8 = false ∧ tileLeased s pd 8 = false ∧ bgBusy s o pa = false ∧ bgBusy s o pd = false ∧ replPending s o = false

/-- The channel's unit moves the 8 bytes at `src` to `dst` (R195-R197), reading from state `s0`; the operation goes on at the unit
`nxt`, or, where none follows and the write is performed, completes. -/
def CopiesWord (s s0 : State) (o : Op) (dst src : Nat) (full : Bool) (nxt : Option (Nat × Nat)) : Prop :=
  ∀ pa x s1 pd y s2, engAddr s0 o src false = (.ok (pa, x), s1) → engAddr s1 o dst true = (.ok (pd, y), s2) →
    MayMove s2 o pd pa → isRunning s o.task = true →
    Performs .channelUnit s (fun s' => WordGoes s2 s' o (outOf y pd (engRead s2 (dieOf o.cl) pa 8) full)
      ∧ (∀ n, nxt = some n → ∃ q ∈ s'.ops, q.id = o.id ∧ q.i = n.1 ∧ q.j = n.2 ∧ q.fin = none)
      ∧ (nxt = none → pteRepl y.pte0 = false → homeOf pd = dieOf o.cl → Unhindered s2 o → Finished s2 s' o 0 o.flags))

/-- `o` is a pending request of form `form` of a running strand for a live stream of die `d`, whose descriptor is `w` (R329, R337). -/
def AskedOf (s : State) (d : Nat) (o : Op) (form : Nat) (w : List Word) : Prop :=
  let sid := (o.args.getD 1 0).toNat % 2 ^ 24
  o ∈ s.ops ∧ (∀ q ∈ s.ops, q.id = o.id → q = o) ∧ o.kind = .stream ∧ o.cl ≠ awayCl ∧ o.args.getD 0 0 = BitVec.ofNat 64 form
    ∧ o.bytes = [] ∧ Unhindered s o ∧ isRunning s o.task = true ∧ liveSn s d o.pid sid = some w ∧ sid % 2 ^ 16 < 16384
    ∧ w.length = 16

/-- At its sequence point the request has the result `x`, and the stream's descriptor is then one with this property. -/
def Sequenced (s : State) (d : Nat) (o : Op) (x : Nat) (f : State → List Word → Prop) : Prop :=
  let s' := applyReq s d o
  Finished s s' o x o.flags ∧ ∃ w', getStr s' d o.pid ((o.args.getD 1 0).toNat % 2 ^ 16) = some w' ∧ f s' w'

/-- The request fails with this code of R337, and changes no stream and no byte of memory. -/
def FailsWith (s : State) (d : Nat) (o : Op) (code : Nat) : Prop :=
  let s' := applyReq s d o
  Finished s s' o (2 ^ 63 + code) o.flags ∧ s'.dieParts = s.dieParts ∧ SameMem s s'

/-- Every descriptor word but these stays. -/
def KeepsWords (w w' : List Word) (l : List Nat) : Prop := ∀ i, i ∉ l → w'.getD i 0 = w.getD i 0

/-- The state that an IDLE stream takes when HOR, AQC or AUTO has changed: READY with HOR > 0 and an action or AUTO (R328). -/
def WokenState (w w' : List Word) : Prop :=
  stState w' = if stState w = ST_IDLE ∧ 0 < stHor w' ∧ (0 < stAqc w' ∨ stAuto w' = true) then ST_READY else stState w

/-- The state by the last rule of SSTEP: DONE, READY or IDLE (R340). -/
def SteppedState (w' : List Word) : Prop :=
  stState w' = if stHor w' = 0 then ST_DONE else if 0 < stLcur w' ∨ stAuto w' = true ∨ 0 < stAqc w' then ST_READY else ST_IDLE

/-- `w'` is `w` after a step with reward `r` (R340). -/
def SteppedWords (w w' : List Word) (r : Nat) : Prop :=
  let l := stLcur w + 1
  KeepsWords w w' [0, 1, 4, 5] ∧ stRet w' = addF32 (stRet w) r ∧ stNl w' = stNl w ∧ stPrio w' = stPrio w ∧ stModel w' = stModel w
    ∧ (l = stNl w → stLcur w' = 0 ∧ stStep w' = (stStep w + 1) % 2 ^ 32 ∧ stHor w' = stHor w - 1
        ∧ stAqh w' = (if 0 < stAqc w then (stAqh w + 1) % 4 else stAqh w) ∧ stAqc w' = stAqc w - 1)
    ∧ (l ≠ stNl w → stLcur w' = l % 256 ∧ stStep w' = stStep w ∧ stHor w' = stHor w ∧ stAqh w' = stAqh w ∧ stAqc w' = stAqc w)

/-- SFORK's results: g[d] takes `x` and p[pt] takes `ok` in every running strand of the task, and the request is gone (R338). -/
def ForkEnds (s s' : State) (o : Op) (x : Nat) (ok : Bool) : Prop :=
  let d : R6 := BitVec.ofNat 6 (o.args.getD 4 0).toNat
  let pt : BitVec 3 := BitVec.ofNat 3 (o.args.getD 5 0).toNat
  (∀ q ∈ s'.ops, q.id ≠ o.id) ∧ ∀ n t, tabGet s.strands n = some t → t.task.id = o.task →
    ∃ t', tabGet s'.strands n = some t' ∧ WroteG d (BitVec.ofNat 64 x) t t' ∧ WroteP pt ok t t'

/-- The words at these virtual addresses have translations under the default root, to the places `ps`, which do not meet; no page
table lies in them. -/
def RingWords (s : State) (p : Nat) (vas ps : List Nat) : Prop :=
  vas.length = ps.length ∧ ps.Pairwise (fun a b => Apart a 8 b 8)
    ∧ ∀ s1 : State, s1.parts = s.parts → SameMemOff ps 8 s s1 → ∀ i v, vas[i]? = some v → ∃ l, ringLeaf s1 p v = some (ps.getD i 0, l)

/-- No engine write is under way: none in a buffer, none of a unit still to be written, none on its way to replicas (R203, R370,
R371). -/
def Quiet (s : State) : Prop := s.egress = [] ∧ s.repl = [] ∧ ∀ o ∈ s.ops, o.out = []

/-- Partition `p` runs on cluster `cl`, whose calendar lists nothing past and where nothing is placed; the requests before it are
`l`. -/
def Asks (s : State) (cl p : Nat) (l : List CalReq) : Prop :=
  let k := getCp s cl p
  (getClu s cl).pid = some p ∧ k.reqs = l ∧ k.placed = [] ∧ k.replicas = [] ∧ ∀ b ∈ k.cal, tickNow s ≤ b.hi

/-- The request's result is `x`: g[d] of its running strand takes it, and no other g register changes. -/
def Answers (s s' : State) (r : CalReq) (x : Word) : Prop :=
  ∀ n t, tabGet s.strands n = some t → t.task.id = r.task → r.d ≠ 0 → r.d < 64 →
    ∃ t', tabGet s'.strands n = some t' ∧ getG t' (BitVec.ofNat 6 r.d) = x ∧ ∀ q : R6, q.toNat ≠ r.d → getG t' q = getG t q

/-- Preparation is complete and asks for no local copy; `q` is what it gathered (R153, R218). -/
def Prepared (s : State) (cl p : Nat) (pl : Plan) (q : Prep) : Prop :=
  ∃ preps h m, prepCand s cl p [pl] = .ok (preps, q, h, m) ∧ q.copies = []

/-- The plan fits on lane `k` from tick `t` on, for an attempt that ends in tick `a`: lane and occurrences are free, a context of
the core is free, and its blocks are there in time and have room (R218, R461). -/
def FitsAt (s : State) (cl p a : Nat) (cal : List Booking) (pl : Plan) (t k : Nat) : Prop :=
  let core := k / 2
  k < 8 ∧ calFree cal k t (t + pl.len - 1) = true
    ∧ (∀ o ∈ pl.occ, calFree cal o.1 (t + o.2.1) (t + o.2.2) = true)
    ∧ (ctxUsed s cl p core).length < 8 ∧ a + 1 + fillOf s cl p core pl.r ≤ t ∧ roomFor s cl p core [] pl.r = true

/-- The pending operation that the event names. -/
def Names (s : State) (o : Op) : Prop := s.ops.find? (fun q => q.id == s.ev.id) = some o ∧ o.fin = none ∧ o.stopped = false

end Sys2Proof.Machine
end

