-- ==== Sys2Proof/Certificates/Slice0/Obligations.lean ====
section
/-! DEFINITION. The statements: what the decoder, a step, each family of instruction words and the events do, from the numbered rules
of the spec. -/

open Sys2Proof Sys2Proof.Machine

/-! ### Encoding -/

/-- Every well-formed instruction word decodes back to itself, with every operand at every value its encoding admits, whatever
follows it in memory (R40-R49, the field tables of each class). -/
def Obligations.DecodeEncode : Prop :=
  ∀ (i : Instr) (rest : List Byte), isEvent i = false → wellFormed i = true → (∀ w, i ≠ .illegalWord w) →
    decode (encodeBytes i ++ rest) = .ok (i, rest)

/-- Words that the spec works out decode to the instructions they stand for (R14, R46, R114, R115). -/
def Obligations.DecodesSpecWords : Prop :=
  (decode (wordBytes 0x05C00C1080000000)).toOption = some (.add ⟨false, 7⟩ 3 1 2, [])
  ∧ (decode (wordBytes 0x22C01441B3000010)).toOption = some (.ld ⟨true, 3⟩ 5 3 false false ⟨4, 6, 3, 16⟩, [])
  ∧ (decode (wordBytes 0x0DC01FFFFFFFFFFE)).toOption = some (.movi ⟨false, 7⟩ 7 (-2), [])
  ∧ (decode (wordBytes 0x15C0000000000008)).toOption = some (.b ⟨false, 7⟩ 8, [])
  ∧ (decode (wordBytes 0x07C0000000000000)).toOption = some (.add ⟨true, 7⟩ 0 0 0, [])
  ∧ (decode (wordBytes 0x11C0045182000012)).toOption = some (.cmp ⟨false, 7⟩ 2 1 1 5 6 2, [])
  ∧ (decode (wordBytes 0x11C18C7500000064)).toOption = some (.cmpi ⟨false, 7⟩ 5 4 3 7 100, [])
  ∧ (decode (wordBytes 0x05DA1050000012C8)).toOption = some (.bfx ⟨false, 7⟩ 4 5 8 11 true, [])
  ∧ (decode (wordBytes 0x15C1FC0000000028)).toOption = some (.bl ⟨false, 7⟩ 63 40, [])
  ∧ (decode (wordBytes 0x15C4004000000000)).toOption = some (.loop ⟨false, 7⟩ 4 0, [])

/-- A word of a reserved major, or of a minor code above the highest of its major, raises ILLEGAL, whatever its other bits
hold (R48, R49): the decoder gives the row ILLEGAL_WORD. An operand bit that the form of a single-word instruction does not
use must be zero, and so must bits [63:58] and the unused payload bits of words 1 to 3 of a tile command word: RESERVED_FIELD
(R42, R47). -/
def Obligations.ReservedEncodings : Prop :=
  (∀ (w : Word) (rest : List Byte),
       (bits w 58 6).toNat ∈ [0x00, 0x15, 0x16, 0x17, 0x1C, 0x1D, 0x1E] ∨ (0x20 ≤ (bits w 58 6).toNat
         ∧ (bits w 58 6).toNat ≤ 0x2F)
         ∨ 0x33 ≤ (bits w 58 6).toNat →
       decode (wordBytes w ++ rest) = .ok (.illegalWord w, rest))
  ∧ (∀ (w : Word) (rest : List Byte) (m : Nat), highestMinor (bits w 58 6).toNat = some m → m < (bits w 48 6).toNat →
       decode (wordBytes w ++ rest) = .ok (.illegalWord w, rest))
  ∧ (∀ (w w1 w2 w3 : Word) (rest : List Byte) (f : Form), formOf w w1 = some f → isTcwMajor w = true →
       bits w 0 48 &&& ~~~ f.used ≠ 0 ∨ bits w1 58 6 ≠ 0 ∨ bits w2 58 6 ≠ 0 ∨ bits w3 58 6 ≠ 0
         ∨ bits w1 0 58 &&& ~~~ f.used1 ≠ 0 ∨ bits w2 0 58 ≠ 0 ∨ bits w3 0 58 ≠ 0 →
       decode (wordBytes w ++ wordBytes w1 ++ wordBytes w2 ++ wordBytes w3 ++ rest) = .error .reservedField)
  ∧ (∀ (w : Word) (rest : List Byte) (f : Form), formOf w 0 = some f → isTcwMajor w = false → bits w 0 48 &&& ~~~ f.used ≠ 0 →
       decode (wordBytes w ++ rest) = .error .reservedField)

/-! ### The machine -/

/-- Memory, and the firmware window, keep their canonical form in every step: no address is listed twice, addresses rise, and
no byte is listed that reads as an unlisted one does (the form, and what an unlisted address reads as, are the model's choice:
log 1). -/
def Obligations.StepKeepsMemoryForm : Prop := ∀ s s', s.Inv → step s = .next s' → s'.Inv

/-- The reset state has the invariant: its memory and its firmware window list nothing (log 1, the model's choice). -/
def Obligations.ResetHasInv : Prop := State.reset.Inv

/-- After device reset no partition exists; every queue, calendar and cache is empty, those of the dies, of their faults, of
the buffers on the way to other dies and replicas, of domain messages and collectives among them; every context is free;
DEV_TIME is zero and undisciplined, with every TIME register (RATE, PPS_LATCH, TIME_CFG) at its reset value and no write of
one pending; and boot measurement is under way (R33). DEVICE_RESET leaves the same, whatever came before (R33); memory and the
firmware store stay (log 19, the model's choice). -/
def Obligations.ResetLeaves : Prop :=
  Fresh State.reset
  ∧ (∀ s : State, ∃ s', exec .deviceReset s = .next s' ∧ Fresh s' ∧ SameMem s s' ∧ s'.dev.fwStore = s.dev.fwStore)

/-- With the machine on, no row in the agenda and a lane still to be looked at in the cycle, the lane's instruction runs when
it may issue: the step performs the lines of an earlier store that are due and is then exec of the instruction, with the
triple (A, A + 32, A + 40) for a tile command word at A (R47, R54, R160; log 5, the order of rows, and log 101, that of lanes
around leases, are the model's choice). -/
def Obligations.StepRunsDecoded : Prop :=
  ∀ (s : State) (n : Nat) (t : Strand) (i : Instr),
    s.dev.off = false → s.agenda = [] → s.cursor < cursorEnd → nextLane s = some (n, t) →
    (let r := flushLines (takeTurn s n) t
     r.2.cycle < endCycle r.1 → r.1.hold ≤ r.2.cycle → eccOwed r.2 r.1.task.id = false → fetchInstr r.2 r.1 = .ok i →
      issueAct r.2 r.1 i = .now → preemptDue r.2 r.1 = false → step s = exec i (fetched i r.1 r.2))
    ∧ (t.lineOut = [] → flushLines (takeTurn s n) t = (t, takeTurn s n))
    ∧ takeTurn s n = { s with cur := n, cursor := (takeTurn s n).cursor, early := (takeTurn s n).early }

/-- What the fetch gives is what the bytes at the pc decode to: a single word, or the four words of a tile command word at an
address that is a multiple of 32 (R40, R47). A word is fetched, under a translation with X, from the block of the core's
instruction cache that holds it, and a block that has been loaded holds the 1,024 bytes of its page as they stood then (R113,
R461). A word of the code range that stands in no block is read from its frame: no placed segment meets this, and it is the
model's reading (log 10). -/
def Obligations.FetchDecodes : Prop :=
  (∀ (s : State) (t : Strand) (w : Word) (i : Instr), t.pc0.toNat % 8 = 0 → fetchWord s t t.pc0 = .ok w →
    decode (wordBytes w) = .ok (i, []) → (t.ds = 0 ∨ slotBarred i = false) → fetchInstr s t = .ok i)
  ∧ (∀ (s : State) (t : Strand) (w w1 w2 w3 : Word) (i : Instr), t.pc0.toNat % 32 = 0 → fetchWord s t t.pc0 = .ok w →
    fetchTail s t = .ok (w1, w2, w3) → isTcwMajor w = true → t.ds = 0 →
    decode (wordBytes w ++ wordBytes w1 ++ wordBytes w2 ++ wordBytes w3) = .ok (i, []) → fetchInstr s t = .ok i)
  ∧ (∀ (s : State) (t : Strand) (va : Va) (x : Xl), syncXl t s (inCode t va) va.toNat = some x → inCode t va = true →
    icFind (getClu s t.cl) (t.lane / 2) t.task.pid va = none → pteX x.pte0 = true →
    fetchWord s t va = .ok (rd64 s (xlPhys x va.toNat)))
  ∧ (∀ (s : State) (t : Strand) (va : Va) (x : Xl) (b : IcBlock), syncXl t s (inCode t va) va.toNat = some x → pteX x.pte0 = true →
    icFind (getClu s t.cl) (t.lane / 2) t.task.pid va = some b →
    fetchWord s t va = .ok (icWord b va)
    ∧ ∀ (s0 : State) (p : Nat), b.data = BitVec.ofNat 8192 (leNat (rdBytes s0.mem p 1024)) → va.toNat % 8 = 0 →
        fetchWord s t va = .ok (rd64 s0 (p + va.toNat % 1024)))

/-- No row ends the run: an event always answers a next state, and so does every instruction word for the strand of a lane
(the model's choice of rows: log 5). -/
def Obligations.EveryRowGoesOn : Prop :=
  ∀ (i : Instr) (s : State), (isEvent i = true ∨ (curStrand s).isSome = true) → Goes (exec i s)

/-- A false guard takes one issue cycle and nothing else happens: no register, counter, memory or flag changes; a branch still
runs its slots and goes on at A + 24 (R41, R109), a tile command word is stepped over whole (R47). -/
def Obligations.FalseGuard : Prop :=
  ∀ (i : Instr) (g : Guard) (s : State) (t : Strand), guardOf i = some g → curStrand s = some t → guardOn g t = false →
    permitted s t i = true →
    ∃ t', Completes i s t' ∧ SameG t t' ∧ SameV t t' ∧ SameP t t' ∧ SameC t t' ∧ SameF t t' ∧ SamePlace t t'
      ∧ (if isBranchForm i then Branched (t.pc0 + 24) t t'
         else if (encode i).length = 4 then
           t'.pc0 = t.pc0 + 32 ∧ t'.pc1 = t.pc0 + 40 ∧ t'.pc2 = t.pc0 + 48 ∧ t'.ds = 0
         else MovedOn t t')

/-- A true-guarded instruction that reads or writes a register leased by a pending engine operation of its task raises LEASE
(R187). An instruction that the strand's privilege does not allow raises PRIVILEGE, whatever its guard (R37, R41, R421). A
word that is no instruction raises ILLEGAL, with the word in the record (R49, R405). -/
def Obligations.DecodeFaults : Prop :=
  (∀ (i : Instr) (g : Guard) (s : State) (t : Strand) (r : RegRef), guardOf i = some g → curStrand s = some t →
       guardOn g t = true → permitted s t i = true → r ∈ uses i → regLeased s t.task.id r = true → Raises i s t 6)
  ∧ (∀ (i : Instr) (s : State) (t : Strand), curStrand s = some t → permitted s t i = false → Raises i s t 19)
  ∧ (∀ (w : Word) (s : State) (t : Strand), curStrand s = some t → Raises (.illegalWord w) s t 1
       ∧ (settled s t = true → ∃ s' e, exec (.illegalWord w) s = .next s'
           ∧ (getDie s' (dieOf t.cl)).waiting = (getDie s (dieOf t.cl)).waiting ++ [e] ∧ e.cause = 1
           ∧ e.words.getD 3 0 = t.pc0.setWidth 64 ∧ e.words.getD 5 0 = w)
       ∧ (settled s t = false → ∃ s' u n f, exec (.illegalWord w) s = .next s' ∧ u ∈ s'.parked ∧ Keeps t u
           ∧ u.ending = some (.fault n f) ∧ f.cause = .illegal ∧ f.word = w))

/-! ### Scalar forms -/

/-- The ALU forms of major 0x01 whose result R94 gives: the value goes to g[d], a write to g0 is discarded, nothing else
changes. BFX and BFI: the field's bits, sign- or zero-extended, and the bits outside the field (R96). What CLZ, CTZ and POPC
count (R94). ADDSAT clips the sum to its range and sets FPFLAG.SAT when it clips (R97). -/
def Obligations.IntegerResults : Prop :=
  (∀ (g : Guard) (d a b c : R6) (sc : BitVec 2),
       WritesG (.add g d a b) g d (fun _ t => getG t a + getG t b)
       ∧ WritesG (.sub g d a b) g d (fun _ t => getG t a - getG t b)
       ∧ WritesG (.mul g d a b) g d (fun _ t => getG t a * getG t b)
       ∧ WritesG (.mulh g d a b) g d (fun _ t => BitVec.ofNat 64 ((getG t a).toNat * (getG t b).toNat / 2 ^ 64))
       ∧ WritesG (.mulhs g d a b) g d (fun _ t => BitVec.ofInt 64 ((getG t a).toInt * (getG t b).toInt / 2 ^ 64))
       ∧ WritesG (.and g d a b) g d (fun _ t => getG t a &&& getG t b)
       ∧ WritesG (.or g d a b) g d (fun _ t => getG t a ||| getG t b)
       ∧ WritesG (.xor g d a b) g d (fun _ t => getG t a ^^^ getG t b)
       ∧ WritesG (.andn g d a b) g d (fun _ t => getG t a &&& ~~~ getG t b)
       ∧ WritesG (.orn g d a b) g d (fun _ t => getG t a ||| ~~~ getG t b)
       ∧ WritesG (.shl g d a b) g d (fun _ t => getG t a <<< ((getG t b).toNat % 64))
       ∧ WritesG (.shr g d a b) g d (fun _ t => BitVec.ofNat 64 ((getG t a).toNat / 2 ^ ((getG t b).toNat % 64)))
       ∧ WritesG (.sar g d a b) g d (fun _ t => BitVec.ofInt 64 ((getG t a).toInt / 2 ^ ((getG t b).toNat % 64)))
       ∧ WritesG (.rol g d a b) g d (fun _ t =>
           let n := (getG t b).toNat % 64
           if n = 0 then getG t a else getG t a <<< n ||| getG t a >>> (64 - n))
       ∧ WritesG (.min g d a b) g d (fun _ t => if (getG t a).toNat ≤ (getG t b).toNat then getG t a else getG t b)
       ∧ WritesG (.max g d a b) g d (fun _ t => if (getG t a).toNat ≤ (getG t b).toNat then getG t b else getG t a)
       ∧ WritesG (.mins g d a b) g d (fun _ t => if (getG t a).toInt ≤ (getG t b).toInt then getG t a else getG t b)
       ∧ WritesG (.maxs g d a b) g d (fun _ t => if (getG t a).toInt ≤ (getG t b).toInt then getG t b else getG t a)
       ∧ WritesG (.clz g d a) g d (fun _ t => clz64 (getG t a))
       ∧ WritesG (.ctz g d a) g d (fun _ t => ctz64 (getG t a))
       ∧ WritesG (.popc g d a) g d (fun _ t => popc64 (getG t a))
       ∧ WritesG (.sel g d a b c) g d (fun _ t => if getP t (low3 c) then getG t a else getG t b)
       ∧ WritesG (.lea g d a b sc) g d (fun _ t => BitVec.ofNat 64 (((getG t a).toNat + (getG t b).toNat * 2 ^ sc.toNat) % 2 ^ 48)))
  ∧ (∀ (g : Guard) (d a b pos lm1 : R6) (sg : Bool), pos.toNat + lm1.toNat + 1 ≤ 64 →
       (∀ s t, Ready s t (.bfx g d a pos lm1 sg) g → ∃ t' x, Completes (.bfx g d a pos lm1 sg) s t' ∧ WroteG d x t t'
         ∧ SameV t t' ∧ SameP t t' ∧ SameC t t' ∧ SameF t t' ∧ SamePlace t t' ∧ MovedOn t t'
         ∧ (∀ j, j ≤ lm1.toNat → bit x j = bit (getG t a) (pos.toNat + j))
         ∧ (∀ j, lm1.toNat < j → j < 64 → bit x j = (sg && bit (getG t a) (pos.toNat + lm1.toNat))))
       ∧ (∀ s t, Ready s t (.bfi g d a b pos lm1) g → ∃ t' x, Completes (.bfi g d a b pos lm1) s t' ∧ WroteG d x t t'
         ∧ SameV t t' ∧ SameP t t' ∧ SameC t t' ∧ SameF t t' ∧ SamePlace t t' ∧ MovedOn t t'
         ∧ (∀ j, j ≤ lm1.toNat → bit x (pos.toNat + j) = bit (getG t a) j)
         ∧ (∀ j, (j < pos.toNat ∨ pos.toNat + lm1.toNat < j) → bit x j = bit (getG t b) j)))
  ∧ ((∀ a : Word, (clz64 a).toNat ≤ 64 ∧ (∀ j, 64 - (clz64 a).toNat ≤ j → bit a j = false)
       ∧ (a ≠ 0 → bit a (63 - (clz64 a).toNat) = true) ∧ (a = 0 → clz64 a = 64))
     ∧ (∀ a : Word, (ctz64 a).toNat ≤ 64 ∧ (∀ j, j < (ctz64 a).toNat → bit a j = false)
       ∧ (a ≠ 0 → bit a (ctz64 a).toNat = true) ∧ (a = 0 → ctz64 a = 64))
     ∧ (∀ a : Word, (popc64 a).toNat = ((List.range 64).filter (fun j => bit a j)).length))
  ∧ (∀ (g : Guard) (u : Bool) (d a b : R6),
       let sum := fun t => if u then ((getG t a).toNat : Int) + (getG t b).toNat else (getG t a).toInt + (getG t b).toInt
       let lo : Int := if u then 0 else -2 ^ 63
       let hi : Int := if u then 2 ^ 64 - 1 else 2 ^ 63 - 1
       WritesGF (.addsat g u d a b) g 1 d
         (fun _ t => BitVec.ofInt 64 (if hi < sum t then hi else if sum t < lo then lo else sum t))
         (fun _ t => if hi < sum t ∨ sum t < lo then fSAT else 0))

/-- Division never traps and sets no flag; the signed forms truncate toward zero (R95). -/
def Obligations.DivResults : Prop :=
  ∀ (g : Guard) (d a b : R6),
    WritesG (.div g d a b) g d (fun _ t =>
      if getG t b = 0 then BitVec.ofNat 64 (2 ^ 64 - 1) else BitVec.ofNat 64 ((getG t a).toNat / (getG t b).toNat))
    ∧ WritesG (.rem g d a b) g d (fun _ t =>
      if getG t b = 0 then getG t a
      else BitVec.ofNat 64 ((getG t a).toNat - (getG t b).toNat * ((getG t a).toNat / (getG t b).toNat)))
    ∧ WritesG (.divs g d a b) g d (fun _ t =>
      if getG t b = 0 then BitVec.ofInt 64 (-1)
      else if (getG t a).toInt = -2 ^ 63 ∧ (getG t b).toInt = -1 then BitVec.ofInt 64 (-2 ^ 63)
      else BitVec.ofInt 64 (Int.tdiv (getG t a).toInt (getG t b).toInt))
    ∧ WritesG (.rems g d a b) g d (fun _ t =>
      if getG t b = 0 then getG t a
      else if (getG t a).toInt = -2 ^ 63 ∧ (getG t b).toInt = -1 then 0
      else BitVec.ofInt 64 ((getG t a).toInt - (getG t b).toInt * Int.tdiv (getG t a).toInt (getG t b).toInt))

/-- The ALU-immediate forms of major 0x02 (R98). -/
def Obligations.ImmediateResults : Prop :=
  ∀ (g : Guard) (z u : Bool) (d a n : R6) (sc : BitVec 2) (imm : BitVec 32),
    let i := if z then imm.setWidth 64 else imm.signExtend 64
    WritesG (.addi g d a imm) g d (fun _ t => getG t a + imm.signExtend 64)
    ∧ WritesG (.muli g d a imm) g d (fun _ t => getG t a * imm.signExtend 64)
    ∧ WritesG (.andi g z d a imm) g d (fun _ t => getG t a &&& i)
    ∧ WritesG (.ori g z d a imm) g d (fun _ t => getG t a ||| i)
    ∧ WritesG (.xori g z d a imm) g d (fun _ t => getG t a ^^^ i)
    ∧ WritesG (.shli g d a n) g d (fun _ t => getG t a <<< n.toNat)
    ∧ WritesG (.shri g d a n) g d (fun _ t => BitVec.ofNat 64 ((getG t a).toNat / 2 ^ n.toNat))
    ∧ WritesG (.sari g d a n) g d (fun _ t => BitVec.ofInt 64 ((getG t a).toInt / 2 ^ n.toNat))
    ∧ WritesG (.roli g d a n) g d (fun _ t =>
        if n = 0 then getG t a else getG t a <<< n.toNat ||| getG t a >>> (64 - n.toNat))
    ∧ WritesG (.mini g u d a imm) g d (fun _ t =>
        if u then (if (getG t a).toNat ≤ imm.toNat then getG t a else imm.setWidth 64)
        else if (getG t a).toInt ≤ imm.toInt then getG t a else imm.signExtend 64)
    ∧ WritesG (.maxi g u d a imm) g d (fun _ t =>
        if u then (if (getG t a).toNat ≤ imm.toNat then imm.setWidth 64 else getG t a)
        else if (getG t a).toInt ≤ imm.toInt then imm.signExtend 64 else getG t a)
    ∧ WritesG (.leai g d a sc imm) g d (fun _ t =>
        BitVec.ofInt 64 (((getG t a).toNat + imm.toInt * 2 ^ sc.toNat) % 2 ^ 48))

/-- MOVI and MOVHI: the values they write, the bits that MOVHI leaves no use for, that a pair of them builds any constant, and
the worked encodings (R46). -/
def Obligations.ConstantForms : Prop :=
  (∀ (g : Guard) (d : R6) (imm : BitVec 42), WritesG (.movi g d imm) g d (fun _ _ => imm.signExtend 64))
  ∧ (∀ (g : Guard) (d : R6) (imm : BitVec 22), WritesG (.movhi g d imm) g d (fun _ t => imm ++ (getG t d).setWidth 42))
  ∧ (∀ (w : Word) (rest : List Byte), bits w 58 6 = 3 → bits w 48 6 = 1 → bits w 22 20 ≠ 0 →
      decode (wordBytes w ++ rest) = .error .reservedField)
  ∧ (∀ x : Word, ∃ (lo : BitVec 42) (hi : BitVec 22), hi ++ (lo.signExtend 64 : Word).setWidth 42 = x)
  ∧ encode (.add ⟨false, 7⟩ 3 1 2) = [0x05C00C1080000000]
  ∧ encode (.ld ⟨true, 3⟩ 5 3 false false ⟨4, 6, 3, 16⟩) = [0x22C01441B3000010]
  ∧ encode (.movi ⟨false, 7⟩ 7 (-2)) = [0x0DC01FFFFFFFFFFE]
  ∧ encode (.b ⟨false, 7⟩ 8) = [0x15C0000000000008]

/-- The moves that write a g register: MOV, PTOG, PTOG.F, RDTICK, RDTIME, RDID (R99-R102). The identity words of RDID, field
by field (R102). -/
def Obligations.MoveResults : Prop :=
  (∀ (g : Guard) (d a : R6) (c : Bool) (sel : BitVec 4),
       WritesG (.mov g d a) g d (fun _ t => getG t a)
       ∧ WritesG (.ptog g d a) g d (fun _ t => if getP t (low3 a) then 1 else 0)
       ∧ WritesG (.ptogF g d) g d (fun _ t => BitVec.ofNat 64 (128 + t.p.toNat))
       ∧ WritesG (.rdtick g c d) g d (fun s t =>
           BitVec.ofNat 64 (if c then s.cycle - 8 * t.seg.start else s.cycle / 8))
       ∧ WritesG (.rdtime g d) g d (fun s _ => devTimeNs s)
       ∧ WritesG (.rdid g d sel) g d (fun _ t => if sel = 0 then locationWord t else taskWord t))
  ∧ (∀ t : Strand, t.lane < 8 → t.cl < 256 → t.task.pid < 16 → t.ctx < 8 →
       ((locationWord t).toNat % 8 = t.lane ∧ (locationWord t).toNat / 2 ^ 3 % 32 = t.cl % 32
         ∧ (locationWord t).toNat / 2 ^ 8 % 8 = t.cl / 32 ∧ (locationWord t).toNat / 2 ^ 11 % 16 = t.task.pid
         ∧ (locationWord t).toNat / 2 ^ 15 % 8 = t.ctx ∧ (locationWord t).toNat / 2 ^ 18 % 2 ^ 14 = 0
         ∧ (locationWord t).toNat / 2 ^ 32 % 16 = Config.torus.toNat % 16
         ∧ (locationWord t).toNat / 2 ^ 36 % 16 = Config.torus.toNat / 16 % 16
         ∧ (locationWord t).toNat / 2 ^ 40 % 16 = Config.torus.toNat / 256 ∧ (locationWord t).toNat / 2 ^ 44 = 0)
       ∧ (t.seg.gid < 256 → t.seg.member < 8 → (taskWord t).toNat % 256 = t.seg.gid
           ∧ (taskWord t).toNat / 2 ^ 8 % 8 = t.seg.member ∧ (taskWord t).toNat / 2 ^ 11 % 32 = 0)
       ∧ (t.task.fq = true → t.seg.gid < 256 → t.seg.member < 8 →
           (taskWord t).toNat / 2 ^ 16 % 16 = 0 ∧ (taskWord t).toNat / 2 ^ 20 % 128 = 127 ∧ (taskWord t).toNat / 2 ^ 27 = 1)
       ∧ (t.task.fq = false → t.seg.gid < 256 → t.seg.member < 8 → t.seg.queue < 16 → t.seg.prio < 128 →
           (taskWord t).toNat / 2 ^ 16 % 16 = t.seg.queue ∧ (taskWord t).toNat / 2 ^ 20 % 128 = t.seg.prio
           ∧ (taskWord t).toNat / 2 ^ 27 = 0))

/-- CMP and CMPI: the raw condition combined into pt, its complement in pf, a write to p7 discarded (R103, R105). The
conditions of CMP and CMPI, code by code (R104). Predicate logic and PSET, GTOP and GTOP.F (R99, R106, R107). -/
def Obligations.PredicateResults : Prop :=
  ((∀ (g : Guard) (cond : BitVec 4) (comb : BitVec 2) (pt a b pf : R6) (s : State) (t : Strand),
       Ready s t (.cmp g cond comb pt a b pf) g →
       ∃ t', Completes (.cmp g cond comb pt a b pf) s t' ∧ OnlyP t t'
         ∧ ∀ r : BitVec 3, getP t' r = if r = 7 then true
           else if r = low3 pf then !condOn cond (getG t a) (getG t b)
           else if r = low3 pt then
             (if comb = 0 then condOn cond (getG t a) (getG t b)
              else if comb = 1 then getP t r && condOn cond (getG t a) (getG t b)
              else getP t r || condOn cond (getG t a) (getG t b))
           else getP t r)
     ∧ (∀ (g : Guard) (cond : BitVec 4) (pf pt : BitVec 3) (a : R6) (imm : BitVec 32) (s : State) (t : Strand),
       Ready s t (.cmpi g cond pf pt a imm) g →
       ∃ t', Completes (.cmpi g cond pf pt a imm) s t' ∧ OnlyP t t'
         ∧ ∀ r : BitVec 3, getP t' r = if r = 7 then true
           else if r = pf then !condOn cond (getG t a) (imm.signExtend 64)
           else if r = pt then condOn cond (getG t a) (imm.signExtend 64)
           else getP t r))
  ∧ (∀ x y : Word,
       condOn 0 x y = decide (x.toNat = y.toNat) ∧ condOn 1 x y = decide (x.toNat ≠ y.toNat)
       ∧ condOn 2 x y = decide (x.toInt < y.toInt) ∧ condOn 3 x y = decide (x.toInt ≥ y.toInt)
       ∧ condOn 4 x y = decide (x.toNat < y.toNat) ∧ condOn 5 x y = decide (x.toNat ≥ y.toNat)
       ∧ condOn 6 x y = decide (x.toInt > y.toInt) ∧ condOn 7 x y = decide (x.toInt ≤ y.toInt)
       ∧ condOn 8 x y = decide (x.toNat > y.toNat) ∧ condOn 9 x y = decide (x.toNat ≤ y.toNat)
       ∧ (condOn 10 x y = true ↔ ∃ j, bit x j = true ∧ bit y j = true)
       ∧ (condOn 11 x y = true ↔ ∀ j, ¬ (bit x j = true ∧ bit y j = true))
       ∧ (∀ (g : Guard) (c : BitVec 4) (comb : BitVec 2) (pt a b pf : R6), 12 ≤ c.toNat →
           reservedBad (.cmp g c comb pt a b pf) = true))
  ∧ (∀ (g : Guard) (d a b : R6) (vals mask : BitVec 8),
       WritesP (.pand g d a b) g (low3 d) (fun t => getP t (low3 a) && getP t (low3 b))
       ∧ WritesP (.por g d a b) g (low3 d) (fun t => getP t (low3 a) || getP t (low3 b))
       ∧ WritesP (.pxor g d a b) g (low3 d) (fun t => getP t (low3 a) != getP t (low3 b))
       ∧ WritesP (.pandn g d a b) g (low3 d) (fun t => getP t (low3 a) && !getP t (low3 b))
       ∧ WritesP (.gtop g d a) g (low3 d) (fun t => decide (getG t a ≠ 0))
       ∧ (∀ s t, Ready s t (.gtopF g a) g → ∃ t', Completes (.gtopF g a) s t' ∧ OnlyP t t'
           ∧ ∀ r : BitVec 3, getP t' r = if r = 7 then true else bit (getG t a) r.toNat)
       ∧ (∀ s t, Ready s t (.pset g vals mask) g → ∃ t', Completes (.pset g vals mask) s t' ∧ OnlyP t t'
           ∧ ∀ r : BitVec 3, getP t' r = if r ≠ 7 ∧ bit mask r.toNat = true then bit vals r.toNat else getP t r))

/-- The branches: link, count and target; the target and the count are read before the link is written (R108-R110). -/
def Obligations.BranchResults : Prop :=
  ∀ (g : Guard) (link r : R6) (off : BitVec 32),
    let rel := fun t : Strand => BitVec.ofInt 48 ((t.pc0.toNat : Int) + off.toInt * 8)
    let ret := fun t : Strand => BitVec.ofNat 64 ((t.pc0.toNat + 24) % 2 ^ 48)
    BranchesTo (.b g off) g 0 (fun _ => 0) rel
    ∧ BranchesTo (.bl g link off) g link ret rel
    ∧ BranchesTo (.br g r) g 0 (fun _ => 0) (fun t => (getG t r).setWidth 48)
    ∧ BranchesTo (.blr g link r) g link ret (fun t => (getG t r).setWidth 48)
    ∧ BranchesTo (.loop g r off) g r (fun t => if getG t r = 0 then 0 else getG t r - 1)
        (fun t => if getG t r ≠ 0 ∧ getG t r - 1 ≠ 0 then rel t else t.pc0 + 24)

/-! ### Vector forms -/

/-- The vector floating-point forms of two and three operands: each active element is the exact result rounded once, with the
flags of R120 and R123; VMIN and VMAX by R124. The vector floating-point forms of one operand (R123-R125): the square root,
the reciprocals, the model's own xExp2, xLog2 and xTanh, each rounded once (their last bit is the model's choice where log 16
says so), the sign operations, and the class of an encoding as one set bit. What the sum, the product and the quotient are
before their rounding: exact, with the invalid operations and the sign of a zero sum of R120, and the canonical NaN for a NaN
(R70). VCMP: on the active elements mt takes the raw condition and mf its complement, elsewhere both take 0; m7 is never
written (R128, R129). VSEL takes active elements of a and the others of b (R130). -/
def Obligations.VectorFpResults : Prop :=
  (∀ (g : Guard) (d a b c : R6) (t rm k : BitVec 3) (z gb : Bool),
       let f := fmtOfT t
       let x := fun (st : Strand) (j : Nat) => elt (typeW t) (getV st a) j
       let y := fun (st : Strand) (j : Nat) => bElt st gb (typeW t) b j
       let u := fun (st : Strand) (j : Nat) => elt (typeW t) (getV st c) j
       VectorResult (.vadd g d a b t rm k z gb) g 4 (typeW t) d k z (fun st j => fpBin xAdd f (modeOf rm st) (x st j) (y st j))
       ∧ VectorResult (.vsub g d a b t rm k z gb) g 4 (typeW t) d k z
           (fun st j => fpBin (fun r p q => xAdd r p (xFlip q)) f (modeOf rm st) (x st j) (y st j))
       ∧ VectorResult (.vmul g d a b t rm k z gb) g 4 (typeW t) d k z
           (fun st j => fpBin (fun _ p q => xMul p q) f (modeOf rm st) (x st j) (y st j))
       ∧ VectorResult (.vdiv g d a b t rm k z gb) g 12 (typeW t) d k z
           (fun st j => fpBin (fun _ p q => xDiv p q) f (modeOf rm st) (x st j) (y st j))
       ∧ VectorResult (.vfma g d a b c t rm k z gb) g 4 (typeW t) d k z
           (fun st j => fpFma false false f (modeOf rm st) (x st j) (y st j) (u st j))
       ∧ VectorResult (.vfms g d a b c t rm k z gb) g 4 (typeW t) d k z
           (fun st j => fpFma false true f (modeOf rm st) (x st j) (y st j) (u st j))
       ∧ VectorResult (.vfnma g d a b c t rm k z gb) g 4 (typeW t) d k z
           (fun st j => fpFma true false f (modeOf rm st) (x st j) (y st j) (u st j))
       ∧ VectorResult (.vmin g d a b t k z gb) g 2 (typeW t) d k z (fun st j => fpMinMax false f (x st j) (y st j))
       ∧ VectorResult (.vmax g d a b t k z gb) g 2 (typeW t) d k z (fun st j => fpMinMax true f (x st j) (y st j)))
  ∧ (∀ (g : Guard) (d a : R6) (t rm k : BitVec 3) (z : Bool),
       let f := fmtOfT t
       let x := fun (st : Strand) (j : Nat) => elt (typeW t) (getV st a) j
       VectorResult (.vsqrt g d a t rm k z) g 12 (typeW t) d k z (fun st j => fpUn xSqrt f (modeOf rm st) (x st j))
       ∧ VectorResult (.vrcp g d a t rm k z) g 8 (typeW t) d k z (fun st j => fpUn xRcp f (modeOf rm st) (x st j))
       ∧ VectorResult (.vrsq g d a t rm k z) g 8 (typeW t) d k z (fun st j => fpUn xRsq f (modeOf rm st) (x st j))
       ∧ VectorResult (.vexp2 g d a t rm k z) g 8 (typeW t) d k z (fun st j => fpUn xExp2 f (modeOf rm st) (x st j))
       ∧ VectorResult (.vlog2 g d a t rm k z) g 8 (typeW t) d k z (fun st j => fpUn xLog2 f (modeOf rm st) (x st j))
       ∧ VectorResult (.vtanh g d a t rm k z) g 8 (typeW t) d k z (fun st j => fpUn xTanh f (modeOf rm st) (x st j))
       ∧ VectorResult (.vabs g d a t k z) g 2 (typeW t) d k z (fun st j => fpSign false f (x st j))
       ∧ VectorResult (.vneg g d a t k z) g 2 (typeW t) d k z (fun st j => fpSign true f (x st j))
       ∧ VectorResult (.vclass g d a t k z) g 2 (typeW t) d k z (fun st j => (2 ^ fpClass f (x st j), 0)))
  ∧ (∀ (g : Guard) (mt a b mf d : R6) (t k : BitVec 3) (gb : Bool) (cond : BitVec 4) (s : State) (st : Strand),
       let w := typeW t
       let r := fun j => vcmpRaw t cond (elt w (getV st a) j) (bElt st gb w b j)
       (Ready s st (.vcmp g mt a b mf t k gb cond) g →
         ∃ t', Completes (.vcmp g mt a b mf t k gb cond) s t'
           ∧ (∀ q : BitVec 3, getM t' q =
               if q = 7 then BitVec.allOnes 64
               else if q = low3 mf then maskOf w (fun j => active (getM st k) w j && !(r j).1)
               else if q = low3 mt then maskOf w (fun j => active (getM st k) w j && (r j).1)
               else getM st q)
           ∧ FlagsLand (s.cycle + 2) (orActive w (getM st k) (fun j => (r j).2)) st t'
           ∧ t'.v = st.v ∧ SameG st t' ∧ SameP st t' ∧ SameC st t' ∧ SameSpot st t' ∧ MovedOn st t')
       ∧ WritesV (.vsel g d a b t k) g 2 d
           (fun _ st => maskWrite w (getM st k) false (getV st b) (fun j => elt w (getV st a) j)) (fun _ _ => 0))
  ∧ (∀ (f : Fmt) (rm : Rnd) (a b : Nat) (op : Rnd → Xr → Xr → Xr × FpFlags),
       let r := op rm (decodeFmt f a) (decodeFmt f b)
       fpBin op f rm a b = ((conv r.1 f rm false).1, flagIf (isSnan f a || isSnan f b) fNV ||| r.2 ||| (conv r.1 f rm false).2))
  ∧ (∀ w ∈ floatRows, w.f ∈ [.fp32, .bf16, .fp16] → ∀ (rm : Rnd) (a b : Nat), decodeFmt w.f a = .nan ∨ decodeFmt w.f b = .nan →
       (fpBin xAdd w.f rm a b).1 = w.nan ∧ (fpBin (fun _ p q => xMul p q) w.f rm a b).1 = w.nan
         ∧ (fpBin (fun _ p q => xDiv p q) w.f rm a b).1 = w.nan)
  ∧ (∀ (rm : Rnd) (n k : Bool) (m m' : Nat) (e e' : Int),
       let x := Xr.fin n m e false
       let y := Xr.fin k m' e' false
       (∃ i j q, xAdd rm x y = (.fin i j q false, 0)
         ∧ (∀ z, z ≤ e → z ≤ e' → z ≤ q → sgnMant i j q z = sgnMant n m e z + sgnMant k m' e' z)
         ∧ (j = 0 → n ≠ k → i = decide (rm = .rd)))
       ∧ (m * m' ≠ 0 → xMul x y = (.fin (n != k) (m * m') (e + e') false, 0))
       ∧ (m ≠ 0 → m' ≠ 0 → ∃ j q st, xDiv x y = (.fin (n != k) j q st, 0) ∧ q ≤ e - e' ∧ 2 ^ 199 ≤ j
           ∧ j * m' ≤ m * 2 ^ (e - e' - q).toNat ∧ m * 2 ^ (e - e' - q).toNat < (j + 1) * m'
           ∧ (st = false ↔ j * m' = m * 2 ^ (e - e' - q).toNat))
       ∧ xMul (.inf n) (.fin k 0 e false) = (.nan, fNV) ∧ xMul (.fin k 0 e false) (.inf n) = (.nan, fNV)
       ∧ xAdd rm (.inf n) (.inf (!n)) = (.nan, fNV) ∧ xDiv (.inf n) (.inf k) = (.nan, fNV)
       ∧ xDiv (.fin n 0 e false) (.fin k 0 e' false) = (.nan, fNV)
       ∧ (m ≠ 0 → xDiv x (.fin k 0 e' false) = (.inf (n != k), fDZ)))

/-- The vector integer forms (R126): each active element modulo 2^W; none raises a flag. The vector integer forms with a
signed and an unsigned reading (R126, R127): the high product, the extremes, and the saturating sum with its flag. -/
def Obligations.VectorIntResults : Prop :=
  (∀ (g : Guard) (d a b : R6) (t k : BitVec 3) (z gb : Bool),
       let w := typeW t
       let x := fun (st : Strand) (j : Nat) => elt w (getV st a) j
       let y := fun (st : Strand) (j : Nat) => bElt st gb w b j
       VectorResult (.viadd g d a b t k z gb) g 2 w d k z (fun st j => ((x st j + y st j) % 2 ^ w, 0))
       ∧ VectorResult (.visub g d a b t k z gb) g 2 w d k z (fun st j => (((x st j : Int) - y st j).emod (2 ^ w) |>.toNat, 0))
       ∧ VectorResult (.vimul g d a b t k z gb) g 3 w d k z (fun st j => ((x st j * y st j) % 2 ^ w, 0))
       ∧ VectorResult (.vishl g d a b t k z gb) g 2 w d k z (fun st j => ((x st j * 2 ^ (y st j % w)) % 2 ^ w, 0))
       ∧ VectorResult (.vishr g d a b t k z gb) g 2 w d k z (fun st j => ((x st j / 2 ^ (y st j % w)) % 2 ^ w, 0))
       ∧ VectorResult (.visar g d a b t k z gb) g 2 w d k z
           (fun st j => ((sextN w (x st j) / 2 ^ (y st j % w)).emod (2 ^ w) |>.toNat, 0))
       ∧ VectorResult (.vand g d a b t k z gb) g 2 w d k z (fun st j => ((x st j &&& y st j) % 2 ^ w, 0))
       ∧ VectorResult (.vor g d a b t k z gb) g 2 w d k z (fun st j => ((x st j ||| y st j) % 2 ^ w, 0))
       ∧ VectorResult (.vxor g d a b t k z gb) g 2 w d k z (fun st j => ((x st j ^^^ y st j) % 2 ^ w, 0))
       ∧ VectorResult (.viabs g d a t k z) g 2 w d k z (fun st j => ((sextN w (x st j)).natAbs % 2 ^ w, 0)))
  ∧ (∀ (g : Guard) (d a b : R6) (t k : BitVec 3) (z u gb : Bool),
       let w := typeW t
       let x := fun (st : Strand) (j : Nat) => elt w (getV st a) j
       let y := fun (st : Strand) (j : Nat) => bElt st gb w b j
       let val := fun (n : Nat) => if u then ((n % 2 ^ w : Nat) : Int) else sextN w n
       let lo : Int := if u then 0 else -2 ^ (w - 1)
       let hi : Int := if u then 2 ^ w - 1 else 2 ^ (w - 1) - 1
       VectorResult (.vimulh g d a b t k z u gb) g 3 w d k z
           (fun st j => ((val (x st j) * val (y st j) / 2 ^ w).emod (2 ^ w) |>.toNat, 0))
       ∧ VectorResult (.vimin g d a b t k z u gb) g 2 w d k z
           (fun st j => ((if val (x st j) ≤ val (y st j) then x st j else y st j) % 2 ^ w, 0))
       ∧ VectorResult (.vimax g d a b t k z u gb) g 2 w d k z
           (fun st j => ((if val (x st j) ≤ val (y st j) then y st j else x st j) % 2 ^ w, 0))
       ∧ VectorResult (.viaddsat g d a b t k z u gb) g 2 w d k z (fun st j =>
           let sum := val (x st j) + val (y st j)
           ((if hi < sum then hi else if sum < lo then lo else sum).emod (2 ^ w) |>.toNat,
             if hi < sum ∨ sum < lo then fSAT else 0)))

/-- Mask logic, and the counts that MCNT and MFIRST write (R131). The permutes, VBCAST, VEXTR and VINS (R132, R133). -/
def Obligations.PermuteResults : Prop :=
  (∀ (g : Guard) (d a b : R6) (t : BitVec 3),
       WritesM (.mand g d a b) g (low3 d) (fun st => getM st (low3 a) &&& getM st (low3 b))
       ∧ WritesM (.mor g d a b) g (low3 d) (fun st => getM st (low3 a) ||| getM st (low3 b))
       ∧ WritesM (.mxor g d a b) g (low3 d) (fun st => getM st (low3 a) ^^^ getM st (low3 b))
       ∧ WritesM (.mnot g d a) g (low3 d) (fun st => ~~~ getM st (low3 a))
       ∧ WritesG (.mcnt g d a t) g d (fun _ st =>
           BitVec.ofNat 64 (((List.range (1024 / typeW t)).filter (active (getM st (low3 a)) (typeW t))).length))
       ∧ WritesG (.mfirst g d a t) g d (fun _ st =>
           BitVec.ofNat 64 (((List.range (1024 / typeW t)).find? (active (getM st (low3 a)) (typeW t))).getD (1024 / typeW t))))
  ∧ (∀ (g : Guard) (d a b : R6) (t k : BitVec 3) (z u : Bool) (pat : BitVec 4),
       let w := typeW t
       let n := 1024 / w
       VectorResult (.vperm g d a b t k z) g 2 w d k z (fun st j => (elt w (getV st a) (elt w (getV st b) j % n), 0))
       ∧ VectorResult (.vrot g d a b t k z) g 2 w d k z
           (fun st j => (elt w (getV st a) ((((j : Int) - (getG st b).toNat).emod n).toNat), 0))
       ∧ VectorResult (.vbcast g d a t k z) g 2 w d k z (fun st _ => ((getG st a).toNat % 2 ^ w, 0))
       ∧ VectorResult (.vshuf g d a b t k z pat) g 2 w d k z (fun st i =>
           let x := elt w (getV st a)
           let y := elt w (getV st b)
           (if pat = 0 then (if i % 2 = 0 then x (i / 2) else y (i / 2))
            else if pat = 1 then (if i % 2 = 0 then x (n / 2 + i / 2) else y (n / 2 + i / 2))
            else if pat = 2 then (if i < n / 2 then x (2 * i) else y (2 * (i - n / 2)))
            else if pat = 3 then (if i < n / 2 then x (2 * i + 1) else y (2 * (i - n / 2) + 1))
            else if pat = 4 then x (n - 1 - i)
            else x (if i % 2 = 0 then i + 1 else i - 1), 0))
       ∧ WritesG (.vextr g d a b t u) g d (fun _ st =>
           let x := elt w (getV st a) ((getG st b).toNat % n)
           if intT t && !u then BitVec.ofInt 64 (sextN w x) else BitVec.ofNat 64 x)
       ∧ WritesV (.vins g d a b t) g 2 d (fun _ st =>
           ofElts w ((List.range n).map (fun j =>
             if j = (getG st b).toNat % n then (getG st a).toNat % 2 ^ w else elt w (getV st d) j))) (fun _ _ => 0))

/-- Reductions, prefix reductions and dot products over the active elements (R134, R135), and what each gives: a
floating-point sum is the group sum of R86 rounded once, an extreme the canonical NaN for a NaN, else taken over the elements
from the infinity that stands for none; the integer sum, extremes and bitwise results; the four products of a byte dot
product, and the group sum of two products and the addend. -/
def Obligations.ReduceResults : Prop :=
  (∀ (g : Guard) (d a b c : R6) (t rm k : BitVec 3) (z u : Bool) (op : BitVec 4),
    let w := typeW t
    let on := fun (st : Strand) (n : Nat) => ((List.range n).filter (active (getM st k) w)).map (elt w (getV st a))
    WritesGF (.vred g d a t rm k op) g 6 d
        (fun _ st => BitVec.ofNat 64 (reduceElts t (modeOf rm st) op (on st (1024 / w))).1)
        (fun _ st => (reduceElts t (modeOf rm st) op (on st (1024 / w))).2)
    ∧ VectorResult (.vscan g d a t rm k z op) g 6 w d k z (fun st j => reduceElts t (modeOf rm st) op (on st (j + 1)))
    ∧ VectorResult (.vdot g d a b c t rm k z u) g 5 32 d k z
        (fun st j => dotElt t u (modeOf rm st) (getV st a) (getV st b) (getV st c) j))
  ∧ (∀ p : List Xr, IsGroupSum p (groupSum p))
  ∧ (∀ (t : BitVec 3) (rm : Rnd) (op : BitVec 4) (l : List Nat), fpT t = true →
       let f := fmtOfT t
       let sum := groupSum (l.map (decodeFmt f))
       let nv := flagIf (l.any (isSnan f)) fNV
       (op = 0 → reduceElts t rm op l = ((conv sum.1 f rm false).1, nv ||| sum.2 ||| (conv sum.1 f rm false).2))
       ∧ (op ≠ 0 → (∃ x ∈ l, decodeFmt f x = .nan) → reduceElts t rm op l = (nanCode f, nv))
       ∧ (op ≠ 0 → (∀ x ∈ l, decodeFmt f x ≠ .nan) → reduceElts t rm op l =
           (l.foldl (fun acc x => (fpMinMax (op = 1) f acc x).1) (infCode f + if op = 1 then signBit f else 0), nv)))
  ∧ (∀ (t : BitVec 3) (rm : Rnd) (op : BitVec 4) (l : List Nat), fpT t = false → op.toNat < 8 →
       let w := typeW t
       let r := (reduceElts t rm op l).1
       (reduceElts t rm op l).2 = 0
       ∧ (op = 0 → r = l.sum % 2 ^ w)
       ∧ (op = 1 → r ∈ 2 ^ (w - 1) :: l ∧ (l ≠ [] → (∀ x ∈ l, x < 2 ^ w) → r ∈ l) ∧ ∀ x ∈ l, sextN w x ≤ sextN w r)
       ∧ (op = 2 → r ∈ (2 ^ (w - 1) - 1) :: l ∧ (l ≠ [] → (∀ x ∈ l, x < 2 ^ w) → r ∈ l) ∧ ∀ x ∈ l, sextN w r ≤ sextN w x)
       ∧ (op = 3 → r ∈ 0 :: l ∧ ∀ x ∈ l, x % 2 ^ w ≤ r % 2 ^ w) ∧ (op = 4 → r ∈ (2 ^ w - 1) :: l ∧ ∀ x ∈ l, r % 2 ^ w ≤ x % 2 ^ w)
       ∧ (op = 5 → r = l.foldl (· &&& ·) (2 ^ w - 1)) ∧ (op = 6 → r = l.foldl (· ||| ·) 0) ∧ (op = 7 → r = l.foldl (· ^^^ ·) 0))
  ∧ (∀ (t : BitVec 3) (u : Bool) (rm : Rnd) (a b c : BitVec 1024) (j : Nat),
       let val := fun x : Nat => if u then (x : Int) else sextN 8 x
       let f := fmtOfT t
       let x := fun q => elt 16 a (2 * j + q)
       let y := fun q => elt 16 b (2 * j + q)
       let p := fun q => xMul (decodeFmt f (x q)) (decodeFmt f (y q))
       let sum := groupSum [(p 0).1, (p 1).1, decodeFmt .fp32 (elt 32 c j)]
       (t = 0 → dotElt t u rm a b c j = ((((elt 32 c j : Int) + val (elt 8 a (4 * j)) * val (elt 8 b (4 * j))
          + val (elt 8 a (4 * j + 1)) * val (elt 8 b (4 * j + 1)) + val (elt 8 a (4 * j + 2)) * val (elt 8 b (4 * j + 2))
          + val (elt 8 a (4 * j + 3)) * val (elt 8 b (4 * j + 3))).emod (2 ^ 32)).toNat, 0))
       ∧ (t = 5 ∨ t = 6 → (dotElt t u rm a b c j).1 = (conv sum.1 .fp32 rm false).1))

/-- VUNPK and VRAND write FP32 elements, VQSCALE a scale (R139, R141, R142). VCVT and VPACK: element e of the destination.
VCVT widens part `part` of the source, or narrows the source into part `part` of the destination and leaves the other parts;
VPACK writes the 32 elements of its slot and leaves the others (R136, R138, R140). Inactive elements merge or are zeroed. What
the elements are: the value of an encoding (R69-R71), CONV (R78-R81, R84; what a BF16 result below 2^-126 is rounded at is log
84, the model's choice), the decode of scaled and of Q4N elements (R73-R75; log 108 where R75 disagrees with itself), the
scaled element of VPACK, the scales of VQSCALE, and the six rounds of the generator (R88). -/
def Obligations.ConvertResults : Prop :=
  (∀ (g : Guard) (d a b c : R6) (t k : BitVec 3) (z : Bool) (fmt : BitVec 4) (kind out : BitVec 2) (slot : BitVec 4),
       VectorResult (.vunpk g d a b k z fmt kind slot) g 3 32 d k z (fun st i =>
           let x := slotElt (contW fmt.toNat) slot.toNat (getV st a) i
           let gs := (getG st b).toNat
           let sc := if kind = 1 then gs % 256 else gs % 2 ^ 32
           let r := decF32 fmt.toNat kind.toNat x sc ((gs / 2 ^ 32) % 256)
           (r.1, r.2 ||| decodeFlag fmt.toNat x))
       ∧ VectorResult (.vrand g d a b c t k z) g 3 32 d k z (fun st i =>
           let r := cbg (getG st a) ((getG st b).setWidth 32) ((getG st c).setWidth 32 + BitVec.ofNat 32 i) (bits (getG st c) 32 32)
           if t = 2 then (r.toNat, 0)
           else ((conv (.fin false (r.toNat / 256) (-24) false) .fp32 .rne false).1, 0))
       ∧ WritesGF (.vqscale g d a b k fmt kind out) g 3 d
           (fun _ st => (qscale fmt.toNat kind.toNat out.toNat (getG st b)
             (((List.range 32).filter (active (getM st k) 32)).map (fun j => decodeFmt .fp32 (elt 32 (getV st a) j)))).1)
           (fun _ st => (qscale fmt.toNat kind.toNat out.toNat (getG st b)
             (((List.range 32).filter (active (getM st k) 32)).map (fun j => decodeFmt .fp32 (elt 32 (getV st a) j)))).2))
  ∧ (∀ (g : Guard) (d a b c : R6) (td rm k ts part : BitVec 3) (z u sat : Bool) (fmt : BitVec 4) (kind : BitVec 2) (slot : BitVec 4),
       (∀ s st, Ready s st (.vcvt g d a c td rm k z u ts part sat) g →
         let wd := typeW td
         let ws := typeW ts
         let ns := 1024 / ws
         let nd := 1024 / wd
         let inPart := fun e => decide (wd < ws → part.toNat * ns ≤ e ∧ e < part.toNat * ns + ns)
         let src := fun e => if wd < ws then e - part.toNat * ns else e + part.toNat * nd
         ∃ t' x, Completes (.vcvt g d a c td rm k z u ts part sat) s t' ∧ WroteV d x st t'
           ∧ (∀ e, e < nd → elt wd x e =
               if inPart e then
                 (if active (getM st k) wd e then
                   (convElt ts td u (convMode rm (getG st c) 0 e st) sat (elt ws (getV st a) (src e))).1 % 2 ^ wd
                  else if z then 0 else elt wd (getV st d) e)
               else elt wd (getV st d) e)
           ∧ FlagsLand (s.cycle + 3) ((List.range nd).foldl (fun acc e => if inPart e && active (getM st k) wd e then
                acc ||| (convElt ts td u (convMode rm (getG st c) 0 e st) sat (elt ws (getV st a) (src e))).2 else acc) 0) st t'
           ∧ SameG st t' ∧ t'.m = st.m ∧ SameP st t' ∧ SameC st t' ∧ SameSpot st t' ∧ MovedOn st t')
       ∧ (∀ s st, Ready s st (.vpack g d a b c rm k z fmt kind slot sat) g →
         let w := contW fmt.toNat
         ∃ t' x, Completes (.vpack g d a b c rm k z fmt kind slot sat) s t' ∧ WroteV d x st t'
           ∧ (∀ e, e < 1024 / w → elt w x e =
               if 32 * slot.toNat ≤ e ∧ e < 32 * slot.toNat + 32 then
                 (if active (getM st k) 32 (e - 32 * slot.toNat) then
                   (packElt fmt.toNat kind.toNat (getG st b) (convMode rm (getG st c) 1 e st) sat
                     (elt 32 (getV st a) (e - 32 * slot.toNat))).1 % 2 ^ w
                  else if z then 0 else elt w (getV st d) e)
               else elt w (getV st d) e)
           ∧ FlagsLand (s.cycle + 3) (orActive 32 (getM st k) (fun i => (packElt fmt.toNat kind.toNat (getG st b)
                (convMode rm (getG st c) 1 (32 * slot.toNat + i) st) sat (elt 32 (getV st a) i)).2)) st t'
           ∧ SameG st t' ∧ t'.m = st.m ∧ SameP st t' ∧ SameC st t' ∧ SameSpot st t' ∧ MovedOn st t'))
  ∧ (∀ w ∈ floatRows, ∀ x : Nat,
       let m := x % 2 ^ w.mw
       let e := x / 2 ^ w.mw % 2 ^ w.ew
       let neg := decide (x / 2 ^ (w.mw + w.ew) % 2 = 1)
       let special : Prop := (w.f ∈ ieeeFmts ∧ e = 2 ^ w.ew - 1) ∨ (w.f = .e4m3 ∧ e = 15 ∧ m = 7)
       (w.f ∈ ieeeFmts → e = 2 ^ w.ew - 1 → m = 0 → decodeFmt w.f x = .inf neg)
       ∧ (special → m ≠ 0 → decodeFmt w.f x = .nan)
       ∧ (¬ special → e ≠ 0 → decodeFmt w.f x = .fin neg (m + 2 ^ w.mw) ((e : Int) - w.bias - w.mw) false)
       ∧ (e = 0 → w.f ≠ .bf16 → decodeFmt w.f x = .fin neg m (1 - (w.bias : Int) - w.mw) false)
       ∧ (e = 0 → w.f = .bf16 → decodeFmt w.f x = .fin neg 0 0 false))
  ∧ (∀ w ∈ floatRows, ∀ (neg : Bool) (m : Nat) (e : Int) (rm : Rnd) (sat : Bool),
       let sign := if neg then 2 ^ (w.ew + w.mw) else 0
       (m ≠ 0 → (∀ d, rm ≠ .sr d) → IsConverted w neg m e rm sat (conv (.fin neg m e false) w.f rm sat))
       ∧ conv (.fin neg 0 e false) w.f rm sat = (sign, 0)
       ∧ conv .nan w.f rm sat = (if w.f ∈ plainFmts then (0, fNV) else (w.nan, 0))
       ∧ conv (.inf neg) w.f rm sat =
           (if sat then (sign + w.maxCode, fSAT)
            else if w.f ∈ ieeeFmts then (sign + (2 ^ w.ew - 1) * 2 ^ w.mw, 0)
            else if w.f = .e4m3 then (w.nan, fNV) else (sign + w.maxCode, fNV ||| fSAT)))
  ∧ (∀ (wd : Nat) (sg neg : Bool) (m : Nat) (e : Int) (rm : Rnd) (sat : Bool), 0 < wd →
       let lo : Int := if sg then -2 ^ (wd - 1) else 0
       let hi : Int := if sg then 2 ^ (wd - 1) - 1 else 2 ^ wd - 1
       let code := fun i : Int => (i.emod (2 ^ wd)).toNat
       conv .nan (.int wd sg) rm sat = (0, fNV)
       ∧ conv (.inf neg) (.int wd sg) rm sat = (code (if neg then lo else hi), fNV)
       ∧ ((∀ d, rm ≠ .sr d) → ∃ r, IsRounded rm neg m e 0 r
           ∧ (let i : Int := if neg then -(r.1 : Int) else r.1
              conv (.fin neg m e false) (.int wd sg) rm sat =
                (if i < lo then (code lo, fSAT ||| fNX) else if hi < i then (code hi, fSAT ||| fNX)
                 else (code i, flagIf (!r.2) fNX)))))
  ∧ (∀ (ts td : BitVec 3) (u sat : Bool) (rm : Rnd) (x : Nat),
       let fs := if fpT ts then fmtOfT ts else .int (typeW ts) (!u)
       let fd := if fpT td then fmtOfT td else .int (typeW td) (!u)
       let r := conv (decodeFmt fs x) fd rm sat
       convElt ts td u rm sat x = (r.1, r.2 ||| flagIf (isSnan fs x) fNV))
  ∧ (∀ (code x sc sb : Nat) (sg : Xr),
       let v := decodeFmt (fmtOfCode code) x
       let rn := fun y : Xr => (conv y .fp32 .rne false)
       let val := fun y : Xr => decodeFmt .fp32 (rn y).1
       (code ≠ 11 → decF32 code 0 x sc sb = rn v
         ∧ (sc % 256 ≠ 255 → decF32 code 1 x sc sb = rn (xScale ((sc % 256 : Nat) - 127) v))
         ∧ (sc % 256 = 255 → decF32 code 1 x sc sb = (0x7FC00000, 0))
         ∧ decF32 code 2 x sc sb = rn (xMul v (decodeFmt .fp32 sc)).1)
       ∧ (decF32 11 3 x sc sb).1 = (rn (xMul (q4nCb (x % 16))
           (val (xMul (decodeFmt .fp32 sc) (val (xMul (xInt sb) (decodeFmt .fp32 0x3B808081)).1)).1)).1).1
       ∧ q4nDecode sg sb (x % 16) = val (xMul (q4nCb (x % 16)) (val (xMul sg (val (xMul (xInt sb) (decodeFmt .fp32 0x3B808081)).1)).1)).1
       ∧ xScale (-7) (xInt ([-128, -92, -68, -52, -36, -24, -12, 0, 10, 20, 32, 44, 58, 74, 94, 128].getD (x % 16) 0)) = q4nCb (x % 16))
  ∧ (∀ (code x : Nat) (gs : Word) (rm : Rnd) (sat : Bool),
       let y := decodeFmt .fp32 x
       let nv := flagIf (isSnan .fp32 x) fNV
       let f := fmtOfCode code
       let sc := gs.toNat % 2 ^ 32
       let q := xDiv y (decodeFmt .fp32 sc)
       let rq := conv q.1 .fp32 .rne false
       (code ≠ 11 →
         packElt code 0 gs rm sat x = ((conv y f rm sat).1, nv ||| (conv y f rm sat).2)
         ∧ (gs.toNat % 256 = 255 → packElt code 1 gs rm sat x = (0, 0))
         ∧ (gs.toNat % 256 ≠ 255 → (packElt code 1 gs rm sat x).1 = (conv (xScale (127 - ((gs.toNat % 256 : Nat) : Int)) y) f rm sat).1)
         ∧ (decodeFmt .fp32 sc = .nan → (packElt code 2 gs rm sat x).1 = 0)
         ∧ (decodeFmt .fp32 sc ≠ .nan → packElt code 2 gs rm sat x = ((conv (decodeFmt .fp32 rq.1) f rm sat).1,
             nv ||| (q.2 ||| rq.2) ||| (conv (decodeFmt .fp32 rq.1) f rm sat).2)))
       ∧ (decodeFmt .fp32 sc = .nan ∨ y = .nan → (packElt 11 3 gs rm sat x).1 = 7)
       ∧ (packElt 11 3 gs rm sat x).1 = q4nEncode (decodeFmt .fp32 sc) (gs.toNat / 2 ^ 32 % 256) y)
  ∧ (∀ l : List Xr,
       let finite : Prop := ∀ x ∈ l, ∃ n m e, x = .fin n m e false
       (¬ finite → (∀ x ∈ l, ∀ n m e, x ≠ .fin n m e true) → amaxOf l = .nan)
       ∧ (finite → (amaxOf l = xZero ∨ ∃ x ∈ l, amaxOf l = xAbs x) ∧ ∀ x ∈ l, xCmp (xAbs x) (amaxOf l) ≠ 1))
  ∧ (∀ (code kind : Nat) (gb : Word) (xs : List Xr) (m : Nat) (e : Int),
       let seed := decodeFmt .fp32 (gb.toNat % 2 ^ 32)
       let am := amaxOf (seed :: xs)
       let emax := (([(4, 8), (5, 15), (6, 4), (7, 2), (8, 2), (9, 6), (10, 2)] : List (Nat × Int)).find? (fun c => c.1 == code)).elim 0
         (fun c => c.2)
       qscale code kind 0 gb xs = (BitVec.ofNat 64 (conv am .fp32 .rne false).1, 0)
       ∧ (am = .nan → (qscale code 1 1 gb xs).1 = 0xFF ∧ (qscale code 2 1 gb xs).1 = 0x7FC00000 ∧ (qscale code 3 1 gb xs).1 = 0x7FC00000)
       ∧ (am = .fin false 0 e false → (qscale code 1 1 gb xs).1 = 0x7F ∧ (qscale code 2 1 gb xs).1 = 0x3F800000
           ∧ (qscale code 3 1 gb xs).1 = 0x3F800000)
       ∧ (am = .fin false m e false → m ≠ 0 →
           (qscale code 1 1 gb xs).1.toNat = (max (-127) (min 127 ((Nat.log2 m : Int) + e - emax)) + 127).toNat
           ∧ (qscale code 2 1 gb xs).1 = BitVec.ofNat 64 (conv (xDiv am (maxvOf code)).1 .fp32 .rne false).1
           ∧ (qscale code 3 1 gb xs).1 = BitVec.ofNat 64 (conv am .fp32 .rne false).1)
       ∧ (seed = .nan ∨ amaxOf xs = .nan → (qscale code kind 2 gb xs).1 = 0)
       ∧ (∀ n, amaxOf xs = .fin n 0 e false → (qscale code kind 2 gb xs).1 = 0)
       ∧ (∀ k n i, seed = .fin k i n false → amaxOf xs = .fin false m e false → m ≠ 0 →
           let s := (qscale code kind 2 gb xs).1.toNat
           1 ≤ s ∧ s ≤ 255 ∧ (∀ j, 1 ≤ j → j < s → xCmp (q4nScale seed j) (amaxOf xs) = -1)
             ∧ (s < 255 → xCmp (q4nScale seed s) (amaxOf xs) ≠ -1)))
  ∧ (∀ (seed : Word) (tag x y : BitVec 32),
       let rot := fun (v : Word) (n : Nat) => v <<< n ||| v >>> (64 - n)
       let r := [1, 2, 3, 4, 5, 6].foldl (fun (ab : Word × Word) (i : Nat) =>
         let a := ab.1 + ab.2
         let a := a ^^^ a >>> 31
         let a := a * 0x9F4A2C61B83D07E5#64
         let b := rot ab.2 23 ^^^ a
         (a, b * 0xD36E1A975C0B84F3#64 + BitVec.ofNat 64 i))
         (seed ^^^ (y ++ x), rot seed 29 ^^^ tag.setWidth 64 ^^^ 0x71C5E29B3A86D04D#64)
       cbg seed tag x y = (r.1 ^^^ r.2 >>> 32).setWidth 32)

/-! ### Memory forms -/

/-- LD, LDX and FEQ: the addressed bytes, extended, or the full-empty bit; memory and the bit stay (R44, R167, R168). ST, STX,
STF and CLRF: the low bytes of g[data] at the effective address and no others; a release first has the writes it covers
performed; STF fills the word and CLRF sets its full-empty bit to F, and no other word's bit changes (R167, R168). LDF takes a
full word and empties it, leaving every other word's bit; an empty word of a bound pipe is tried again in each of the eight
windows that follow (R233), and after those, or where no bound pipe holds it, the segment splits and the continuation resumes
at the LDF itself, with its full-empty event or, when no watch entry is free, a time event 64 ticks later (R167, R228): memory
changes only in records that the end of the segment's holds frees (R152, R155) and in a record kept in HBM (R230). -/
def Obligations.ScalarAccess : Prop :=
  (∀ (g : Guard) (data : R6) (sz : BitVec 2) (sg o : Bool) (m : MemOp) (s : State) (t : Strand),
       let n := 2 ^ sz.toNat
       let va : Va := BitVec.ofInt 48 ((getG t m.base).toNat + (getG t m.index).toNat * 2 ^ m.sh.toNat + m.disp.toInt)
       let a := accessPhys s t va
       let x := if sg then BitVec.ofInt 64 (sextN (8 * n) (rdN s a n)) else BitVec.ofNat 64 (rdN s a n)
       (Ready s t (.ld g data sz sg o m) g → accessCause s t .load .full va n n = none →
         ∃ s' t', Lands (.ld g data sz sg o m) s s' t' ∧ OnlyG data x t t' ∧ SameMem s s' ∧ s'.fe = s.fe)
       ∧ (Ready s t (.ldx g data sz sg o m) g → accessCause s t .load .any va n n = none →
         ∃ s' t', Lands (.ldx g data sz sg o m) s s' t' ∧ OnlyG data x t t' ∧ SameMem s s' ∧ s'.fe = s.fe)
       ∧ (Ready s t (.feq g data m) g → accessCause s t .probe .page va 8 8 = none →
         ∃ s' t', Lands (.feq g data m) s s' t' ∧ OnlyG data (if feGet s a then 1 else 0) t t' ∧ SameMem s s' ∧ s'.fe = s.fe))
  ∧ (∀ (g : Guard) (data : R6) (sz : BitVec 2) (o f : Bool) (m : MemOp) (s : State) (t : Strand),
       let n := 2 ^ sz.toNat
       let va := effAddr m t
       let a := accessPhys s t va
       (Ready s t (.st g data sz o m) g → accessCause s t .store .empty va n n = none →
         ∃ s' t', Lands (.st g data sz o m) s s' t' ∧ OnlyMoves t t' ∧ rdN s' a n = (getG t data).toNat % 2 ^ (8 * n)
           ∧ SameMemBut a n (relIf o t s) s' ∧ s'.fe = (relIf o t s).fe)
       ∧ (Ready s t (.stx g data sz o m) g → accessCause s t .store .any va n n = none →
         ∃ s' t', Lands (.stx g data sz o m) s s' t' ∧ OnlyMoves t t' ∧ rdN s' a n = (getG t data).toNat % 2 ^ (8 * n)
           ∧ SameMemBut a n (relIf o t s) s' ∧ s'.fe = (relIf o t s).fe)
       ∧ (Ready s t (.stf g data m) g → accessCause s t .store .pageEmpty va 8 8 = none →
         ∃ s' t', Lands (.stf g data m) s s' t' ∧ OnlyMoves t t' ∧ rd64 s' a = getG t data ∧ SameMemBut a 8 (relIf true t s) s'
           ∧ feGet s' a = true ∧ ∀ b, wordOf b ≠ wordOf a → feGet s' b = feGet (relIf true t s) b)
       ∧ (Ready s t (.clrf g f m) g → accessCause s t .store .page va 8 8 = none →
         ∃ s' t', Lands (.clrf g f m) s s' t' ∧ OnlyMoves t t' ∧ SameMem s s' ∧ feGet s' a = f
           ∧ ∀ b, wordOf b ≠ wordOf a → feGet s' b = feGet s b))
  ∧ (∀ (g : Guard) (data : R6) (m : MemOp) (s : State) (t : Strand),
       let va := effAddr m t
       let a := accessPhys s t va
       Ready s t (.ldf g data m) g → accessCause s t .take .page va 8 8 = none →
       (feGet s a = true → ∃ s' t', Lands (.ldf g data m) s s' t' ∧ OnlyG data (rd64 s a) t t' ∧ SameMem s s'
           ∧ feGet s' a = false ∧ ∀ b, wordOf b ≠ wordOf a → feGet s' b = feGet s b)
       ∧ (feGet s a = false → pipeBound s t va = true → t.idle < 8 →
           exec (.ldf g data m) s = .next (putStrand s { t with idle := t.idle + 1, hold := s.cycle + 8, reach := none }))
       ∧ (feGet s a = false → (pipeBound s t va = true → 8 ≤ t.idle) →
           (watchesUsed s t.cl < 64 → SplitsHere (.ldf g data m) s t 2 (toW va))
           ∧ (settled s t = true → 64 ≤ watchesUsed s t.cl → ∃ s' c, exec (.ldf g data m) s = .next s' ∧ Left s s' t c
               ∧ AtItself t c ∧ c.event = 7 ∧ c.evarg = BitVec.ofNat 64 (tickNow s + 64))
           ∧ (settled s t = true → ∃ s' c, exec (.ldf g data m) s = .next s' ∧ Left s s' t c
               ∧ (watchesUsed s t.cl < 64 → c.evAddr = wordOf a)
               ∧ ∀ b, (∀ x ∈ t.seg.xl, b < recAddr s t.task.pid x.fri 0 ∨ recAddr s t.task.pid x.fri 0 + 8 ≤ b) →
                   (∀ k, c.hbm = some k → b < contPhys s t.cl t.task.pid k
                     ∨ contPhys s t.cl t.task.pid k + (contBytes c).length ≤ b) →
                   rdCell s'.mem b = rdCell s.mem b)))

/-- The checks of a page-store access by a lane (R166): each cause, and that the earlier one is the one raised; a form that
reads no data raises no MEMORY_ECC. A vector form checks each cause over all of its elements before the next (R170). An access
that fails a check takes the fault of its cause (R166, R402). -/
def Obligations.AccessChecks : Prop :=
  ((∀ s t acc fr va n sz, syncXl t s false (BitVec.toNat va) = none → accessCause s t acc fr va n sz = some .residency)
     ∧ (∀ s t acc fr va n sz x, syncXl t s false (BitVec.toNat va) = some x →
         let a := xlPhys x va.toNat
         let leased : Prop := acc = .store ∧ rangeLeased s t.cl a n = true
         let prot : Prop :=
           (acc = .store ∧ (pteW x.pte0 = false ∨ pteCow x.pte0 = true ∨ pteRepl x.pte0 = true
                 ∨ (inPageSet t va.toNat = true ∧ x.wr = false)))
               ∨ fr = .full ∧ pteFe x.pte0 = true ∧ feGet s a = false
               ∨ fr = .empty ∧ pteFe x.pte0 = true ∧ feGet s a = true
               ∨ (fr = .page ∨ fr = .pageEmpty) ∧ pteFe x.pte0 = false
               ∨ fr = .pageEmpty ∧ feGet s a = true
         let reads : Prop := acc = .load ∨ acc = .take ∧ feGet s a = true
         (leased → accessCause s t acc fr va n sz = some .lease)
         ∧ (¬ leased → prot → accessCause s t acc fr va n sz = some .protection)
         ∧ (¬ leased → ¬ prot → va.toNat % sz ≠ 0 → accessCause s t acc fr va n sz = some .align)
         ∧ (¬ leased → ¬ prot → va.toNat % sz = 0 → reads → eccBad s a n = true →
           accessCause s t acc fr va n sz = some .memoryEcc)
         ∧ (¬ leased → ¬ prot → va.toNat % sz = 0 → (reads → eccBad s a n = false) → accessCause s t acc fr va n sz = none)))
  ∧ (∀ s t acc fr n sz vas,
       (vecCause s t acc fr n sz vas = none ↔ ∀ va ∈ vas, accessCause s t acc fr va n sz = none)
       ∧ ∀ c va, vecCause s t acc fr n sz vas = some (c, va) → va ∈ vas ∧ accessCause s t acc fr va n sz = some c
           ∧ ∀ va' ∈ vas, ∀ c', accessCause s t acc fr va' n sz = some c' →
               [Cause.lease, .residency, .protection, .align, .memoryEcc].idxOf c
                 ≤ [Cause.lease, .residency, .protection, .align, .memoryEcc].idxOf c')
  ∧ (∀ (g : Guard) (data : R6) (sz : BitVec 2) (sg o f : Bool) (m : MemOp) (s : State) (t : Strand) (c : Cause),
       let n := 2 ^ sz.toNat
       let va := effAddr m t
       (Ready s t (.ld g data sz sg o m) g → accessCause s t .load .full va n n = some c →
         Raises (.ld g data sz sg o m) s t (causeCode c))
       ∧ (Ready s t (.ldx g data sz sg o m) g → accessCause s t .load .any va n n = some c →
         Raises (.ldx g data sz sg o m) s t (causeCode c))
       ∧ (Ready s t (.st g data sz o m) g → accessCause s t .store .empty va n n = some c →
         Raises (.st g data sz o m) s t (causeCode c))
       ∧ (Ready s t (.stx g data sz o m) g → accessCause s t .store .any va n n = some c →
         Raises (.stx g data sz o m) s t (causeCode c))
       ∧ (Ready s t (.ldf g data m) g → accessCause s t .take .page va 8 8 = some c → Raises (.ldf g data m) s t (causeCode c))
       ∧ (Ready s t (.stf g data m) g → accessCause s t .store .pageEmpty va 8 8 = some c →
         Raises (.stf g data m) s t (causeCode c))
       ∧ (Ready s t (.clrf g f m) g → accessCause s t .store .page va 8 8 = some c →
         Raises (.clrf g f m) s t (causeCode c))
       ∧ (Ready s t (.feq g data m) g → accessCause s t .probe .page va 8 8 = some c → Raises (.feq g data m) s t (causeCode c))
       ∧ (Ready s t (.vld g data o m) g → accessCause s t .load .any va 128 128 = some c →
         Raises (.vld g data o m) s t (causeCode c))
       ∧ (Ready s t (.vst g data o m) g → accessCause s t .store .any va 128 128 = some c →
         Raises (.vst g data o m) s t (causeCode c))
       ∧ (∀ v, Ready s t (.vlds g data sz o m) g → vecCause s t .load .any n n (strideAddrs m (8 * n) t) = some (c, v) →
         Raises (.vlds g data sz o m) s t (causeCode c))
       ∧ (∀ v, Ready s t (.vsts g data sz o m) g → vecCause s t .store .any n n (strideAddrs m (8 * n) t) = some (c, v) →
         Raises (.vsts g data sz o m) s t (causeCode c))
       ∧ (∀ v, Ready s t (.vgath g data sz o m) g → vecCause s t .load .any n n (gatherAddrs m (8 * n) t) = some (c, v) →
         Raises (.vgath g data sz o m) s t (causeCode c))
       ∧ (∀ v, Ready s t (.vscat g data sz o m) g → vecCause s t .store .any n n (gatherAddrs m (8 * n) t) = some (c, v) →
         Raises (.vscat g data sz o m) s t (causeCode c)))

/-- VLD and VST: 128 bytes at the effective address (R171). VLDS and VGATH: element i is the value at a_i, in the lines as
each stood in its own cycle (R160, R171). VSTS and VSCAT: element i is stored at a_i, the highest index last where addresses
meet, and no other byte changes (R171): a line whose cycle has come now, one whose cycle is to come in that cycle, and one
whose cycle lies behind the segment's end never (R160, R224). A strand whose segment is over overruns instead of going on
(R224). -/
def Obligations.VectorAccess : Prop :=
  (∀ (g : Guard) (data : R6) (o : Bool) (m : MemOp) (s : State) (t : Strand),
       let a := accessPhys s t (effAddr m t)
       (Ready s t (.vld g data o m) g → accessCause s t .load .any (effAddr m t) 128 128 = none →
         ∃ s' t', Lands (.vld g data o m) s s' t' ∧ OnlyV data (BitVec.ofNat 1024 (rdN s a 128)) t t' ∧ SameMem s s'
           ∧ s'.fe = s.fe)
       ∧ (Ready s t (.vst g data o m) g → accessCause s t .store .any (effAddr m t) 128 128 = none →
         ∃ s' t', Lands (.vst g data o m) s s' t' ∧ OnlyMoves t t' ∧ rdN s' a 128 = (getV t data).toNat
           ∧ SameMemBut a 128 (relIf o t s) s' ∧ s'.fe = (relIf o t s).fe))
  ∧ (∀ (g : Guard) (data : R6) (sz : BitVec 2) (o : Bool) (m : MemOp) (s : State) (t : Strand), 2 ≤ sz.toNat →
       let n := 2 ^ sz.toNat
       let w := 8 * n
       let stride := fun i : Nat => ((getG t m.base + sxW m.disp + BitVec.ofNat 64 i * (getG t m.index <<< m.sh.toNat)).setWidth 48 : Va)
       let gath := fun i : Nat =>
         ((getG t m.base + (BitVec.ofNat 64 (elt w (getV t m.index) i) <<< m.sh.toNat) + sxW m.disp).setWidth 48 : Va)
       let vs := (List.range (1024 / w)).map stride
       let vg := (List.range (1024 / w)).map gath
       (Ready s t (.vlds g data sz o m) g → vecCause s t .load .any n n vs = none →
         ∃ s' t' x, Lands (.vlds g data sz o m) s s' t' ∧ OnlyV data x t t' ∧ SameMem s s'
           ∧ ∀ i, i < 1024 / w → elt w x i = leNat (rdBytes (laneView t s) (accessPhys s t (stride i)) n))
       ∧ (Ready s t (.vgath g data sz o m) g → vecCause s t .load .any n n vg = none →
         ∃ s' t' x, Lands (.vgath g data sz o m) s s' t' ∧ OnlyV data x t t' ∧ SameMem s s'
           ∧ ∀ i, i < 1024 / w → elt w x i = leNat (rdBytes (laneView t s) (accessPhys s t (gath i)) n))
       ∧ (t.lineBuf = [] → laneView t s = s.mem))
  ∧ (∀ (g : Guard) (data : R6) (sz : BitVec 2) (o : Bool) (m : MemOp) (s : State) (t : Strand) (i : Instr) (vas : List Va),
       2 ≤ sz.toNat →
       let n := 2 ^ sz.toNat
       let w := 8 * n
       (i, vas) ∈ [(.vsts g data sz o m, strideAddrs m w t), (.vscat g data sz o m, gatherAddrs m w t)] →
       Ready s t i g → vecCause s t .store .any n n vas = none →
       ∃ s' t', Lands i s s' t' ∧ OnlyMoves t t'
         ∧ StoresLines s (relIf o t s) s' t t' (vas.map (accessPhys s t)) n (fun j => toLe n (elt w (getV t data) j)))
  ∧ (∀ (s : State) (t : Strand),
       let due := t.lineOut.filter (fun l => decide (l.1 ≤ s.cycle))
       let s' := (flushLines s t).2
       (∀ b, (∀ l ∈ due, b < l.2.1 ∨ l.2.1 + l.2.2.length ≤ b) → rdCell s'.mem b = rdCell s.mem b)
       ∧ (∀ (j : Nat) (l : Nat × Nat × List Byte), due[j]? = some l →
           (∀ (k : Nat) (q : Nat × Nat × List Byte), j < k → due[k]? = some q → q.2.1 + q.2.2.length ≤ l.2.1
             ∨ l.2.1 + l.2.2.length ≤ q.2.1) →
           Memory.wf s.mem = true → rdBytes s'.mem l.2.1 l.2.2.length = l.2.2)
       ∧ (flushLines s t).1 = { t with lineOut := t.lineOut.filter (fun l => !decide (l.1 ≤ s.cycle)) }
       ∧ (endCycle t ≤ s.cycle → ∃ a, laneAct s t = .event .overrun a))

/-! ### Requests to engines -/

/-- The page-management, key-value and domain forms that the walker or a domain's home performs: each reads its operands at
issue, leases g[d] and is counted (R174, R176, R185, R318, R322, R383). The stream forms: each is counted, leases g[d] and
goes to the scheduler of its stream's die with its minor code and operands, and where the SID names no die to the strand's own
(the model's choice, log 115) (R329, R336, R337, R345); SFORK takes no counter, goes to the strand's own die, and its
registers are pending until the first cycle of relative tick t + 4 (R338). -/
def Obligations.EngineRequests : Prop :=
  (∀ (g : Guard) (d a b c : R6) (p2 : BitVec 2) (p3 : BitVec 3) (p4 : BitVec 4) (pte : BitVec 8) (pub : Bool) (s : State)
       (t : Strand) (i : Instr) (k : OpKind) (args : List Word),
       (i, k, args) ∈ ([
         (.pgalloc g d a b c, .pgalloc, [getG t a, getG t b]), (.pgfree g d a c, .pgfree, [getG t a]),
         (.pgref g d a b c, .pgref, [getG t a, getG t b]), (.pgcow g d a b c, .pgcow, [getG t a, getG t b]),
         (.pgset g d a b c p2, .pgset, [getG t a, getG t b, BitVec.ofNat 64 p2.toNat]),
         (.pgget g d a c p3, .pgget, [getG t a, 0, BitVec.ofNat 64 p3.toNat]),
         (.pgpin g d a c, .pgpin, [getG t a]), (.pgunpin g d a c, .pgunpin, [getG t a]),
         (.pgspill g d a c, .pgspill, [getG t a]), (.pgfill g d a c, .pgfill, [getG t a]),
         (.pgmap g d a b c pte, .pgmap, [getG t a, getG t b, BitVec.ofNat 64 pte.toNat]), (.pgunmap g d a c, .pgunmap, [getG t a]),
         (.kvsplice g d a b c, .kvsplice, [getG t a, getG t b, getG t (b + 1)]),
         (.kvspliceS g d a b c, .kvspliceS, [getG t a, getG t b]), (.kvtrim g d a b c, .kvtrim, [getG t a, getG t b]),
         (.rampset g pub d a b c, .rampset, [getG t a, if pub then 0 else getG t b, if pub then 1 else 0]),
         (.domset g d a b c, .domset, [getG t a, getG t b]),
         (.domget g d a c p4, .domget, [getG t a, BitVec.ofNat 64 p4.toNat])] : List (Instr × OpKind × List Word)) →
       Requests i g s t k c (if d = 0 then none else some (.g d.toNat)) args)
  ∧ (∀ (g : Guard) (d a b c pt : R6) (sel : BitVec 4) (f : Bool) (s : State) (t : Strand),
       (∀ (i : Instr) (args : List Word), (i, args) ∈ ([
           (.sjoin g f d a b c, [1, getG t a, getG t b, if f then 1 else 0]), (.sprune g d a c, [2, getG t a, 0, 0]),
           (.sact g d a b c, [3, getG t a, getG t b, 0]), (.shor g f d a b c, [5, getG t a, getG t b, if f then 1 else 0]),
           (.sstep g d a b c, [6, getG t a, getG t b, 0]), (.ssnap g d a b c, [7, getG t a, getG t b, 0]),
           (.spin g d a c, [8, getG t a, 0, 0]), (.spinU g d a c, [8, getG t a, 0, 1]),
           (.sget g d a c sel, [9, getG t a, 0, BitVec.ofNat 64 sel.toNat]),
           (.sset g d a b c sel, [10, getG t a, getG t b, BitVec.ofNat 64 sel.toNat]), (.ssetC g d a c, [11, getG t a, 0, 0])] :
           List (Instr × List Word)) →
         Requests i g s t .stream c (if d = 0 then none else some (.g d.toNat)) args
         ∧ (Ready s t i g → permitted s t i = true → CtrFree t c →
             Issues i s t .stream (some c) (if d = 0 then none else some (.g d.toNat)) (fun o =>
               reqDie s o = match sidHome s t.task.pid ((getG t a).toNat % 2 ^ 24) with
                 | some (h, pkg) => if pkg = Config.torus.toNat then some h else none
                 | none => some (dieOf t.cl))))
       ∧ (Ready s t (.sfork g f d a b pt) g →
           Issues (.sfork g f d a b pt) s t .stream none none (fun o =>
             o.args = [0, getG t a, getG t b, if f then 1 else 0, BitVec.ofNat 64 d.toNat, BitVec.ofNat 64 pt.toNat]
               ∧ reqDie s o = some (dieOf t.cl))
           ∧ ∃ s' t', Lands (.sfork g f d a b pt) s s' t' ∧ (d ≠ 0 → (RegRef.g d.toNat, 8 * (tickNow s + 4)) ∈ t'.pend)
               ∧ (low3 pt ≠ 7 → (RegRef.p (low3 pt).toNat, 8 * (tickNow s + 4)) ∈ t'.pend)))

/-- The data forms on a channel whose tick is booked: misaligned operands raise ALIGN; with fewer than 16 operations queued
the form issues on its channel with the operands it read, FST with the low bytes of its register, and behind the strand's
fences; with 16 it splits and resumes at itself (R181, R182, R185, R193-R198, R398). Without the booking it raises BOOKING
(R208). CTRGET writes the counter as it stands in the issue cycle; WAITC goes on when the counter is at most its threshold,
else the segment splits and resumes at the WAITC when the counter falls that far (R199, R200). -/
def Obligations.DataForms : Prop :=
  (∀ (g : Guard) (ch : BitVec 2) (f sx : Bool) (sc sz : BitVec 3) (op : BitVec 2) (d a b c : R6) (s : State) (t : Strand)
       (i : Instr) (k : OpKind) (dst : Option RegRef) (args : List Word) (bad : Bool) (bytes : List Byte),
       let ga := (getG t a).toNat
       let gd := (getG t d).toNat
       let gb := (getG t b).toNat
       let gb1 := (getG t (b + 1)).toNat
       let fw : Word := if f then 1 else 0
       let n := if sz = 4 then 128 else 2 ^ sz.toNat
       let odd := gd % 8 != 0 || ga % 8 != 0
       let esz := gb / 2 ^ 32 % 2 ^ 16
       let table := odd || esz % 8 != 0 || esz == 0 || decide (32768 < esz)
       (i, k, dst, args, bad, bytes) ∈ ([
         (.cpy g ch f sc d a b c, .cpy, none, [getG t d, getG t a, getG t b, 0, fw], odd || gb % 8 != 0, []),
         (.cpy2d g ch f sc d a b c, .cpy2d, none, [getG t d, getG t a, getG t b, getG t (b + 1), fw],
           odd || gb % 8 != 0 || gb1 % 8 != 0 || gb1 / 2 ^ 32 % 8 != 0, []),
         (.gath g ch f sc d a b c, .gath, none, [getG t d, getG t a, getG t b, 0, fw], table, []),
         (.scat g ch f sc d a b c, .scat, none, [getG t d, getG t a, getG t b, 0, fw], table, []),
         (.fld g ch sc sz sx d a c, .fld, if sz = 4 then some (.v (d.toNat % 32)) else if d = 0 then none else some (.g d.toNat),
           [getG t a, BitVec.ofNat 64 sz.toNat, if sx then 1 else 0], ga % 2 ^ 48 % n != 0, []),
         (.fst g ch f sc sz a b c, .fst, none, [getG t a, BitVec.ofNat 64 sz.toNat, fw], ga % 2 ^ 48 % n != 0,
           toLe n (if sz = 4 then (getV t b).toNat else gb)),
         (.redm g op ch sc d a b c, .redm, none,
           [getG t d, getG t a, getG t b, BitVec.ofNat 64 op.toNat], odd || gb % 8 != 0, [])] :
           List (Instr × OpKind × Option RegRef × List Word × Bool × List Byte)) →
       Ready s t i g →
       (chanBooked s t ch.toNat = false → Raises i s t 7)
       ∧ (chanBooked s t ch.toNat = true →
           (¬ CtrFree t c → Raises i s t 22)
           ∧ (CtrFree t c → bad = true → Raises i s t 5)
           ∧ (CtrFree t c → bad = false → (chanOps s t.cl ch.toNat).length < 16 →
               Issues i s t k (some c) dst (fun o => o.args = args ∧ o.unit = ch.toNat ∧ o.scope = sc.toNat ∧ o.bytes = bytes ∧ o.deps = t.fence))
           ∧ (CtrFree t c → bad = false → 16 ≤ (chanOps s t.cl ch.toNat).length →
               SplitsHere i s t 3 (BitVec.ofNat 64 ch.toNat))))
  ∧ ((∀ (g : Guard) (d c : R6), WritesG (.ctrget g d c) g d (fun _ t => (getC t c).setWidth 64))
     ∧ ∀ (g : Guard) (c : R6) (n : BitVec 16) (s : State) (t : Strand), Ready s t (.waitc g c n) g →
         ((getC t c).toNat ≤ n.toNat → ∃ t', Completes (.waitc g c n) s t' ∧ OnlyMoves t t')
         ∧ (n.toNat < (getC t c).toNat → SplitsHere (.waitc g c n) s t 1 (BitVec.ofNat 64 (c.toNat % 4 + 2 ^ 16 * n.toNat))))

/-- An atomic on a page of the page set that is not replicated is performed at once: g[data] takes the old value, the word the
new one, no other byte changes; its flags stand in FPFLAG from its result cycle, the eighth after its issue (R376); any other
address makes it an engine operation with the address and operands. A local one that fails a check, or reads an uncorrectable
error, raises its cause; any other raises COUNTER with a full counter, then ALIGN (R166, R185, R373, R376, R377). -/
def Obligations.AtomicResults : Prop :=
  ∀ (g : Guard) (data base : R6) (ctr sz : BitVec 2) (o : Bool) (disp : BitVec 24) (s : State) (t : Strand) (k : Nat)
    (i : Instr) (f : Nat → Nat → Nat → Option Nat × FpFlags),
    let n := 2 ^ sz.toNat
    let w := 8 * n
    let va : Va := ((getG t base).setWidth 48) + disp.signExtend 48
    let a := accessPhys s t va
    let x := rdN s a n
    (k, i, f) ∈ ([
      (0, .aadd g data base ctr sz o disp, fun x y _ => (some ((x + y) % 2 ^ w), 0)),
      (1, .afadd g data base ctr sz o disp, fun x y _ =>
        let r := fpBin xAdd (if w = 16 then .bf16 else .fp32) .rne x y
        (some r.1, r.2)),
      (2, .amin g data base ctr sz o disp, fun x y _ => (some (if sextN w y < sextN w x then y else x), 0)),
      (3, .amax g data base ctr sz o disp, fun x y _ => (some (if sextN w x < sextN w y then y else x), 0)),
      (4, .aand g data base ctr sz o disp, fun x y _ => (some (x &&& y), 0)),
      (5, .aor g data base ctr sz o disp, fun x y _ => (some (x ||| y), 0)),
      (6, .axor g data base ctr sz o disp, fun x y _ => (some (x ^^^ y), 0)),
      (7, .aswp g data base ctr sz o disp, fun _ y _ => (some y, 0)),
      (8, .acas g data base ctr sz o disp, fun x y e => (if x = e then some y else none, 0))] :
        List (Nat × Instr × (Nat → Nat → Nat → Option Nat × FpFlags))) →
    Ready s t i g →
    let r := f x ((getG t data).toNat % 2 ^ w) ((getG t (data + 1)).toNat % 2 ^ w)
    (atomLocal t va.toNat = true → accessCause s t .store .any va n n = none → eccBad s a n = false →
      ∃ s' t', Lands i s s' t' ∧ WroteG data (BitVec.ofNat 64 x) t t' ∧ t'.rm = t.rm
        ∧ t'.flags = t.flags ∧ (∀ c, flagsAt c t' = if s.cycle + 8 ≤ c then flagsAt c t ||| r.2 else flagsAt c t)
        ∧ SameV t t' ∧ SameP t t' ∧ SameC t t' ∧ SameSpot t t' ∧ MovedOn t t'
        ∧ (match r.1 with
          | some v => rdN s' a n = v % 2 ^ w ∧ SameMemBut a n (relIf o t s) s'
          | none => SameMem (relIf o t s) s'))
    ∧ (atomLocal t va.toNat = false → CtrFree t (ctr.setWidth 6) → va.toNat % n = 0 →
      Issues i s t .atomic (some (ctr.setWidth 6)) (if data = 0 then none else some (.g data.toNat)) (fun q =>
        q.args = [va.setWidth 64, getG t data, getG t (data + 1), BitVec.ofNat 64 k, BitVec.ofNat 64 n]))
    ∧ (∀ c, atomLocal t va.toNat = true → accessCause s t .store .any va n n = some c → Raises i s t (causeCode c))
    ∧ (atomLocal t va.toNat = true → accessCause s t .store .any va n n = none → eccBad s a n = true → Raises i s t 23)
    ∧ (atomLocal t va.toNat = false → ¬ CtrFree t (ctr.setWidth 6) → Raises i s t 22)
    ∧ (atomLocal t va.toNat = false → CtrFree t (ctr.setWidth 6) → va.toNat % n ≠ 0 → Raises i s t 5)

/-! ### Segments, traps, system forms -/

/-- SEGEND, SPLIT and YIELD end the segment with a continuation: at the next block, behind the instruction, or behind it after
a time at the base priority; EXIT ends the task (R226, R235). Each waits until the strand's register writes are complete
(R227). -/
def Obligations.SegmentEnds : Prop :=
  ∀ (g : Guard) (roam : Bool) (a : R6) (s : State) (t : Strand),
    (Ready s t (.segend g a) g → ((getG t a).setWidth 48 : Va).toNat % 8 = 0 →
      Splits (.segend g a) s t (fun c => let e : Va := (getG t a).setWidth 48
        c.pc0 = e ∧ c.pc1 = e + 8 ∧ c.pc2 = e + 16 ∧ c.ds = 0 ∧ c.blk = e ∧ c.event = 0 ∧ c.roam = false))
    ∧ (Ready s t (.segend g a) g → ((getG t a).setWidth 48 : Va).toNat % 8 ≠ 0 → Raises (.segend g a) s t 5)
    ∧ (Ready s t (.split g roam a) g →
      (roam = true → inRect s t.task.pid (32 * dieOf t.cl + (getG t a).toNat % 32) = true) →
      Splits (.split g roam a) s t (fun c => Behind t c ∧ c.blk = t.seg.blk ∧ c.event = 0 ∧ c.roam = roam
        ∧ (roam = true → c.tgt = (getG t a).toNat % 32)))
    ∧ (Ready s t (.split g true a) g → inRect s t.task.pid (32 * dieOf t.cl + (getG t a).toNat % 32) = false →
      Raises (.split g true a) s t 12)
    ∧ (Ready s t (.yield g a) g →
      Splits (.yield g a) s t (fun c => Behind t c ∧ c.event = 7 ∧ c.prio = t.task.bprio
        ∧ c.evarg = BitVec.ofNat 64 (tickNow s + (getG t a).toNat % 2 ^ 32)))
    ∧ (Ready s t (.exit g) g → (settled s t = true → ∃ s', exec (.exit g) s = .next s' ∧ tabGet s'.strands (laneKey t) = none
          ∧ s'.conts = s.conts ∧ s'.parked = s.parked ∧ SameOps s.ops s'.ops)
        ∧ (settled s t = false → exec (.exit g) s = .next (putStrand s { t with hold := pendEnd s t })))

/-- TRAP, BREAK and SYSCALL take their fault with the triple of the instruction after them (R420): TRAP the cause in
imm32[7:0], BREAK 0x14, SYSCALL 0x15. The record has SOFT for TRAP alone, g[a] of TRAP and SYSCALL in word 4 and imm32 in word
7 (R405, R420), at once when the strand's register writes are complete, else when they are. -/
def Obligations.Traps : Prop :=
  ∀ (g : Guard) (a : R6) (imm : BitVec 32) (s : State) (t : Strand),
    let records := fun (i : Instr) (soft : Bool) (w4 : Word) =>
      (settled s t = true → ∃ s' e, exec i s = .next s'
        ∧ (getDie s' (dieOf t.cl)).waiting = (getDie s (dieOf t.cl)).waiting ++ [e] ∧ e.word0.getLsbD 10 = soft
        ∧ e.words.getD 3 0 = w4 ∧ e.words.getD 6 0 = imm.setWidth 64)
      ∧ (settled s t = false → ∃ s' u n f, exec i s = .next s' ∧ u ∈ s'.parked ∧ u.task = t.task ∧ u.ending = some (.fault n f)
        ∧ f.soft = soft ∧ f.va = w4 ∧ f.w7 = imm.setWidth 64)
    (Ready s t (.trap g a imm) g → records (.trap g a imm) true (getG t a))
    ∧ (Ready s t (.brk g imm) g → records (.brk g imm) false 0)
    ∧ (Ready s t (.syscall g a imm) g → records (.syscall g a imm) false (getG t a))
    ∧
    (Ready s t (.trap g a imm) g → 1 ≤ imm.toNat % 256 → imm.toNat % 256 ≤ 24 →
      ∃ s' t', exec (.trap g a imm) s = .next s' ∧ OnlyMoves t t' ∧ Faulted s s' t' (imm.toNat % 256))
    ∧ (Ready s t (.brk g imm) g → ∃ s' t', exec (.brk g imm) s = .next s' ∧ OnlyMoves t t' ∧ Faulted s s' t' 0x14)
    ∧ (Ready s t (.syscall g a imm) g → ∃ s' t', exec (.syscall g a imm) s = .next s' ∧ OnlyMoves t t' ∧ Faulted s s' t' 0x15)

/-- CTLRD and CTLWR: FPCTL and FPFLAG at once, FPFLAG as it stands in the issue cycle and cleared where ones are written (log
20, the model's reading); any other register is read as it stands, and a write waits for the next tick boundary, without the
reserved bits of WHISK_CFG, which are ignored; a reserved bit that its register names a cause for raises RESERVED_FIELD, in a
read-only register too; QSTAT, and QCFG with and without a write (R7, R38, R39, R246, R263, R264, R404, R417, R421). -/
def Obligations.ControlRegisters : Prop :=
  ∀ (g : Guard) (d a : R6) (n : BitVec 12) (q : BitVec 4) (w : Bool) (s : State) (t : Strand),
    (Ready s t (.ctlrd g d n) g → ctlDenied n.toNat t = false →
      ∃ s' t', Lands (.ctlrd g d n) s s' t' ∧ SameMem s s'
        ∧ OnlyG d (if n = 0 then t.rm.setWidth 64 else if n = 1 then (flagsAt s.cycle t).setWidth 64
          else if n = 0x180 ∨ n = 0x181 then ctlGet (getClu s t.cl).ctl n.toNat
          else if n.toNat < 0x400 then cpCtl s t.cl t.task.pid n.toNat
          else ctlGet (getDp s (dieOf t.cl) t.task.pid).ctl n.toNat) t t')
    ∧ (Ready s t (.ctlwr g 0 a) g → (getG t a).toNat < 4 → ∃ t', Completes (.ctlwr g 0 a) s t'
        ∧ t'.rm = (getG t a).setWidth 2 ∧ t'.flags = t.flags ∧ SameG t t' ∧ SameV t t' ∧ SameP t t' ∧ SameC t t'
        ∧ SamePlace t t' ∧ MovedOn t t')
    ∧ (Ready s t (.ctlwr g 0 a) g → 4 ≤ (getG t a).toNat → Raises (.ctlwr g 0 a) s t 2)
    ∧ (Ready s t (.ctlwr g 1 a) g → ∃ t', Completes (.ctlwr g 1 a) s t'
        ∧ (∀ k, k < 7 → t'.flags.getLsbD k = ((flagsAt s.cycle t).getLsbD k && !(getG t a).getLsbD k))
        ∧ t'.late = t.late.filter (fun e => decide (s.cycle < e.1)) ∧ t'.rm = t.rm ∧ SameG t t'
        ∧ SameV t t' ∧ SameP t t' ∧ SameC t t' ∧ SameSpot t t' ∧ MovedOn t t')
    ∧ (Ready s t (.ctlwr g n a) g → 2 ≤ n.toNat → ctlDenied n.toNat t = false →
        let x := if n.toNat = 0x1C1 then getG t a &&& 0x1FFF else getG t a
        (ctlReserved n.toNat (getG t a).toNat = true → Raises (.ctlwr g n a) s t 2)
        ∧ (ctlReserved n.toNat (getG t a).toNat = false → ctlReadOnly n.toNat = false →
          ∃ s' t', Lands (.ctlwr g n a) s s' t' ∧ OnlyMoves t t' ∧ SameMem s s'
            ∧ (if n.toNat < 0x400 then
                (getCp s' t.cl t.task.pid).ctlPend = (getCp s t.cl t.task.pid).ctlPend ++ [(n.toNat, x)]
                  ∧ (getCp s' t.cl t.task.pid).ctl = (getCp s t.cl t.task.pid).ctl
              else
                (getDp s' (dieOf t.cl) t.task.pid).ctlPend = (getDp s (dieOf t.cl) t.task.pid).ctlPend ++ [(n.toNat, x)]))
        ∧ (ctlReserved n.toNat (getG t a).toNat = false → ctlReadOnly n.toNat = true →
          ∃ t', Completes (.ctlwr g n a) s t' ∧ OnlyMoves t t'))
    ∧ (∀ x, (ctlReserved 0x423 x = true ↔ 2 ^ 40 ≤ x) ∧ ctlReserved 0x1C1 x = false ∧ (ctlReserved 0x1C0 x = true ↔ 2 ^ 9 ≤ x))
    ∧ WritesG (.qstat g d q) g d (fun s t => qstatWord s t.cl t.task.pid q.toNat)
    ∧ (Ready s t (.qcfg g w d a q) g → t.task.fq = true →
        (w = true → (getG t a).getLsbD 3 = true ∨ 2 ^ 18 ≤ (getG t a).toNat → Raises (.qcfg g w d a q) s t 2)
        ∧ ((w = true → (getG t a).getLsbD 3 = false ∧ (getG t a).toNat < 2 ^ 18) →
          ∃ s' t', Lands (.qcfg g w d a q) s s' t' ∧ OnlyG d (cpCtl s t.cl t.task.pid (0x190 + q.toNat)) t t' ∧ SameMem s s'
            ∧ (getCp s' t.cl t.task.pid).ctlPend = (getCp s t.cl t.task.pid).ctlPend
                ++ (if w then [(0x190 + q.toNat, getG t a)] else [])))

/-- The requests that a tick boundary decides: BOOK, CALREL, CALQ and PIPEBIND stand in the cluster's list, RESUME and ABORT
in the die's, with what they read; g[d] keeps its value until the answer (R237-R240, R265, R422). PIPEBIND carries the two
words of its entry, checked; an entry that is no multiple of 8 raises ALIGN, and one that cannot be read the cause of the
read, RESIDENCY where it does not lie on a local page of the page set (R265). -/
def Obligations.BoundaryRequests : Prop :=
  ∀ (g : Guard) (rel own u : Bool) (d a : R6) (res : BitVec 5) (s : State) (t : Strand),
    (∀ (i : Instr) (kind : Nat), (i, kind) ∈ ([(.book g rel d a, 0), (.calrel g rel d a, 1), (.calq g own rel d a res, 2)] :
        List (Instr × Nat)) → Ready s t i g →
      ∃ s' t' r, Lands i s s' t' ∧ OnlyMoves t t' ∧ SameMem s s'
        ∧ (getCp s' t.cl t.task.pid).reqs = (getCp s t.cl t.task.pid).reqs ++ [r]
        ∧ (getCp s' t.cl t.task.pid).cal = (getCp s t.cl t.task.pid).cal
        ∧ r.kind = kind ∧ r.d = d.toNat ∧ r.word = getG t a ∧ r.rel = rel ∧ r.sid = t.seg.sid ∧ r.task = t.task.id
        ∧ r.cycle = s.cycle ∧ (kind = 2 → r.res = res.toNat ∧ r.own = own))
    ∧ (∀ r0, Ready s t (.pipebind g u d a) g → (getG t a).toNat % 2 ^ 48 % 8 = 0 →
      laneRead s t ((getG t a).toNat % 2 ^ 48) 16 = .ok r0 →
      ∃ s' t' r, Lands (.pipebind g u d a) s s' t' ∧ OnlyMoves t t' ∧ SameMem s s'
        ∧ (getCp s' t.cl t.task.pid).reqs = (getCp s t.cl t.task.pid).reqs ++ [r]
        ∧ r.kind = (if u then 4 else 3) ∧ r.d = d.toNat ∧ r.word = r0.words.getD 0 0 ∧ r.gang = t.seg.gang
        ∧ r.phys = pipePhys s t.task.pid t.task.root (r0.words.getD 0 0) (r0.words.getD 1 0))
    ∧ (Ready s t (.pipebind g u d a) g → (getG t a).toNat % 2 ^ 48 % 8 ≠ 0 → Raises (.pipebind g u d a) s t 5)
    ∧ (∀ cs v, Ready s t (.pipebind g u d a) g → (getG t a).toNat % 2 ^ 48 % 8 = 0 →
      laneRead s t ((getG t a).toNat % 2 ^ 48) 16 = .error (cs, v) → Raises (.pipebind g u d a) s t (causeCode cs))
    ∧ (∀ va, va % 8 = 0 → va + 8 < 2 ^ 48 → ownPage s t va = false ∨ ownPage s t (va + 8) = false →
      ∃ v, laneRead s t va 16 = .error (.residency, v))
    ∧ (∀ (i : Instr) (kind : Nat), (i, kind) ∈ ([(.resume g d a, 0), (.abort g false d a, 1), (.abort g true d a, 2)] :
        List (Instr × Nat)) → Ready s t i g → t.task.fq = true →
      (256 ≤ (getG t a).toNat → Raises i s t 2)
      ∧ ((getG t a).toNat < 256 → ∃ s' t', Lands i s s' t' ∧ OnlyMoves t t' ∧ SameMem s s'
        ∧ (getDie s' (dieOf t.cl)).endReqs = (getDie s (dieOf t.cl)).endReqs ++ [⟨t.cl, t.lane, s.cycle, t.task.pid, kind,
            (getG t a).toNat, t.task.id, d.toNat⟩]))

/-! ### Descriptors, messages, generation -/

/-- QPUSH and GANG append one entry at the tail of their queue, clamped to PMAX, with what the descriptor holds; they need
UPUSH or supervisor privilege and room (R241, R244, R247, R261). The entry at the head has the tick in which it became head
(R254). LAUNCH sends its descriptor and counts a message (R261, R262, R382). A misaligned descriptor raises ALIGN, one that
cannot be read the cause of the read, a reserved bit RESERVED_FIELD, and a LAUNCH with a full counter COUNTER first (R241,
R261). -/
def Obligations.QueueEntries : Prop :=
  ∀ (g : Guard) (d a b c : R6) (q : BitVec 4) (s : State) (t : Strand) (r : LaneRd),
    let p := t.task.pid
    let va := (getG t a).toNat % 2 ^ 48
    let w := fun (k : Nat) => r.words.getD k 0
    let cfg := cpCtl s t.cl p (0x190 + q.toNat)
    let pmax := cfg.toNat / 16 % 128
    let bad : Prop := 2 ^ 55 ≤ (w 0).toNat ∨ (w 0).toNat % 8 ≠ 0
    (∀ i ∈ [Instr.qpush g a q, .gang g a q, .launch g d a b c], Ready s t i g → (i = .launch g d a b c → CtrFree t c) →
      (va % 32 ≠ 0 → Raises i s t 5)
      ∧ (∀ cs v, va % 32 = 0 → laneRead s t va 32 = .error (cs, v) → Raises i s t (causeCode cs)))
    ∧ (∀ r0 cs v, va % 32 = 0 → laneRead s t va 32 = .ok r0 →
      laneRead s t va (8 * (4 + 4 * min ((r0.words.getD 0 0).toNat % 16) 8)) = .error (cs, v) →
      Ready s t (.gang g a q) g → Raises (.gang g a q) s t (causeCode cs))
    ∧ (Ready s t (.launch g d a b c) g → ¬ CtrFree t c → Raises (.launch g d a b c) s t 22)
    ∧ (va % 32 = 0 → laneRead s t va 32 = .ok r → bad → (Ready s t (.qpush g a q) g → Raises (.qpush g a q) s t 2)
      ∧ (Ready s t (.launch g d a b c) g → CtrFree t c → Raises (.launch g d a b c) s t 2))
    ∧ (va % 32 = 0 → laneRead s t va 32 = .ok r → Ready s t (.launch g d a b c) g → CtrFree t c →
      2 ^ 12 ≤ (getG t b).toNat → Raises (.launch g d a b c) s t 2)
    ∧ (va % 32 = 0 →
    (Ready s t (.qpush g a q) g → laneRead s t va 32 = .ok r → (w 0).toNat < 2 ^ 55 → (w 0).toNat % 8 = 0 →
      (cfg.getLsbD 1 = false → t.task.fq = false → Raises (.qpush g a q) s t 19)
      ∧ (cfg.getLsbD 1 = true ∨ t.task.fq = true → queueShut s t.cl p q.toNat = true → Raises (.qpush g a q) s t 16)
      ∧ (cfg.getLsbD 1 = true ∨ t.task.fq = true → queueShut s t.cl p q.toNat = false →
        ∃ s' t' e, Lands (.qpush g a q) s s' t' ∧ OnlyMoves t t' ∧ SameMem s s'
          ∧ Appended s s' t.cl p q.toNat e
          ∧ e.work = .fresh ((w 0).setWidth 48) (w 1) (w 2) ∧ e.prio = min ((w 0).toNat / 2 ^ 48 % 128) pmax
          ∧ e.task.bprio = e.prio ∧ e.task.pid = p ∧ e.nbt = w 3))
    ∧ (∀ r0 : LaneRd, laneRead s t va 32 = .ok r0 → Ready s t (.gang g a q) g →
      laneRead s t va (8 * (4 + 4 * min ((r0.words.getD 0 0).toNat % 16) 8)) = .ok r →
      (cfg.getLsbD 1 = false → t.task.fq = false → Raises (.gang g a q) s t 19)
      ∧ (cfg.getLsbD 1 = true ∨ t.task.fq = true → queueShut s t.cl p q.toNat = true → Raises (.gang g a q) s t 16)
      ∧ (cfg.getLsbD 1 = true ∨ t.task.fq = true → queueShut s t.cl p q.toNat = false →
        ∃ s' t' e, Lands (.gang g a q) s s' t' ∧ OnlyMoves t t' ∧ SameMem s s'
          ∧ Appended s s' t.cl p q.toNat e
          ∧ e.work = .gang r.words ∧ e.prio = min ((w 0).toNat / 2 ^ 16 % 128) pmax ∧ e.nbt = w 2))
    ∧ (Ready s t (.launch g d a b c) g → laneRead s t va 32 = .ok r → CtrFree t c → (w 0).toNat < 2 ^ 55 → (w 0).toNat % 8 = 0 →
      (getG t b).toNat < 2 ^ 12 →
      let cl := (getG t b).toNat % 8 * 32 + (getG t b).toNat / 8 % 32
      (inRect s p cl = false → Raises (.launch g d a b c) s t 12)
      ∧ (inRect s p cl = true →
        Issues (.launch g d a b c) s t .launch (some c) (if d = 0 then none else some (.g d.toNat)) (fun o =>
          o.args = getG t b :: r.words ∧ o.unit = cl ∧ o.i = (getG t b).toNat / 2 ^ 8 ∧ o.sup = t.task.fq)
        ∧ ∃ s', exec (.launch g d a b c) s = .next s'
          ∧ (getCp s' t.cl p).msgSent = ((getCp s t.cl p).msgSent + 1) % 2 ^ 48)))

/-- ATTD, LFILT and KVAPP: a descriptor in the page set that keeps its field rules issues the operation with its words; one
that does not raises RESERVED_FIELD, a misaligned one or a misaligned address in one ALIGN, and one that cannot be read the
cause of the read. KVAPP checks its booking and counter first, and its pages last: RESIDENCY, then PROTECTION; with its
channel full it splits and resumes at itself (R317, R320, R348). -/
def Obligations.DescriptorForms : Prop :=
  ∀ (g : Guard) (ch : BitVec 2) (sc : BitVec 3) (d a c : R6) (s : State) (t : Strand) (r : LaneRd),
    let va := (getG t a).toNat % 2 ^ 48
    let x := fun (k : Nat) => r.words.getD k 0
    let w := fun (k : Nat) => (x k).toNat
    let dh := w 3 / 2 ^ 40 % 2 ^ 9
    let n := w 1 / 2 ^ 48 % 2 ^ 13
    let high := w 4 = 0 ∧ w 5 = 0 ∧ w 6 = 0 ∧ w 7 = 0
    let attd := w 0 / 2 ^ 59 % 8 = 0 ∧ w 1 / 2 ^ 61 = 0 ∧ w 2 / 2 ^ 48 = 0 ∧ w 3 / 2 ^ 49 = 0 ∧ high ∧ n ≤ 4096
      ∧ dh % 2 = 0 ∧ 2 ≤ dh ∧ dh ≤ 256
    let v := w 1 % 2 ^ 24
    let k := w 1 / 2 ^ 32 % 2 ^ 9
    let lfilt := w 0 / 2 ^ 48 = 0 ∧ w 1 / 2 ^ 24 % 2 ^ 8 = 0 ∧ w 1 / 2 ^ 42 = 0 ∧ v ≠ 0 ∧ 1 ≤ k ∧ k ≤ 256
      ∧ thrBad (w 1 / 2 ^ 41 % 2 = 1) (w 2 % 2 ^ 32) = false ∧ w 3 / 2 ^ 49 = 0 ∧ high ∧ w 3 % 2 ^ 48 % 128 = 0
      ∧ (w 3 / 2 ^ 48 % 2 = 1 → w 2 / 2 ^ 32 < v)
    (∀ i : Instr, i = .attd g sc a c ∨ i = .lfilt g sc a c → Ready s t i g →
      (¬ CtrFree t c → Raises i s t 22) ∧ (CtrFree t c → va % 64 ≠ 0 → Raises i s t 5)
      ∧ (CtrFree t c → va % 64 = 0 → inPageSet t va = false → Raises i s t 9)
      ∧ (∀ cs v, CtrFree t c → va % 64 = 0 → laneRead s t va 64 = .error (cs, v) → Raises i s t (causeCode cs)))
    ∧ (va % 64 = 0 → CtrFree t c → laneRead s t va 64 = .ok r →
      (Ready s t (.attd g sc a c) g → ¬ attd → Raises (.attd g sc a c) s t 2)
      ∧ (Ready s t (.attd g sc a c) g → attd → w 0 % 8 = 0 → w 1 % 16 = 0 → w 2 % 64 = 0 →
        Issues (.attd g sc a c) s t .attd (some c) none (fun o => o.scope = sc.toNat
          ∧ o.args = [x 0, x 1, x 2, x 3, cpCtl s t.cl t.task.pid 0x1B0]))
      ∧ (Ready s t (.attd g sc a c) g → attd → ¬ (w 0 % 8 = 0 ∧ w 1 % 16 = 0 ∧ w 2 % 64 = 0) → Raises (.attd g sc a c) s t 5)
      ∧ (Ready s t (.lfilt g sc a c) g → ¬ lfilt → Raises (.lfilt g sc a c) s t 2)
      ∧ (Ready s t (.lfilt g sc a c) g → lfilt →
        Issues (.lfilt g sc a c) s t .lfilt (some c) none (fun o => o.scope = sc.toNat ∧ o.args = r.words.take 4)))
    ∧ (Ready s t (.kvapp g ch sc d a c) g →
      let i := Instr.kvapp g ch sc d a c
      (chanBooked s t ch.toNat = false → Raises i s t 7)
      ∧ (chanBooked s t ch.toNat = true → ¬ CtrFree t c → Raises i s t 22)
      ∧ (chanBooked s t ch.toNat = true → CtrFree t c → va % 64 ≠ 0 → Raises i s t 5)
      ∧ (∀ cs v, chanBooked s t ch.toNat = true → CtrFree t c → va % 64 = 0 → laneRead s t va 64 = .error (cs, v) →
          Raises i s t (causeCode cs))
      ∧ (chanBooked s t ch.toNat = true → CtrFree t c → va % 64 = 0 → laneRead s t va 64 = .ok r →
          let kp := w 0 % 2 ^ 48
          let vp := w 1 % 2 ^ 48
          let ks := w 2 % 2 ^ 48
          let vs := w 3 % 2 ^ 48
          let len := kvappLen s t kp (w 4 % 128) vp
          let fits := kp % 32768 = 0 ∧ vp % 32768 = 0 ∧ ks % 8 = 0 ∧ vs % 8 = 0
          let kept := w 0 < 2 ^ 48 ∧ w 1 < 2 ^ 48 ∧ w 2 < 2 ^ 48 ∧ w 3 < 2 ^ 48 ∧ 1 ≤ w 4 ∧ w 4 ≤ 64 ∧ w 5 = 0 ∧ w 6 = 0 ∧ w 7 = 0
          let here := (∀ u ∈ wordVas ks len.1 ++ wordVas vs len.2, inPageSet t u = true ∧ pageAway s t u = false)
            ∧ pageAway s t kp = false ∧ pageAway s t vp = false
          let open' := inWriteSet t kp = true ∧ inWriteSet t vp = true
          (¬ fits → Raises i s t 5)
          ∧ (fits → ¬ kept → Raises i s t 2)
          ∧ (fits → kept → ¬ here → Raises i s t 9)
          ∧ (fits → kept → here → ¬ open' → Raises i s t 11)
          ∧ (fits → kept → here → open' → 16 ≤ (chanOps s t.cl ch.toNat).length →
              SplitsHere i s t 3 (BitVec.ofNat 64 ch.toNat))
          ∧ (fits → kept → here → open' → (chanOps s t.cl ch.toNat).length < 16 →
              Issues i s t .kvapp (some c) (if d = 0 then none else some (.g d.toNat)) (fun o =>
                o.unit = ch.toNat ∧ o.scope = sc.toNat ∧ o.args = [x 0, x 1, x 2, x 3, x 4]))))

/-- COMMIT, DQSEND, MSEND, SSTEP.B, SACTP and COLL: the words and payloads are copied at issue, and the operation carries them
(R337, R339, R340, R356, R359, R388, R395). A COLL of a cancelled collective is done at once, with ABORTED (R397): it
completes, g[d] taking 2^63 + 5 and its counter standing as before, unless a fence or a write of its number holds its
completion, and then it stands pending with that result. A full counter raises COUNTER, a reserved operand RESERVED_FIELD, a
misaligned address ALIGN, and words that cannot be read the cause of the read (R337, R356, R359, R388, R395). -/
def Obligations.PayloadForms : Prop :=
  ∀ (g : Guard) (sc : BitVec 3) (d a b c : R6) (s : State) (t : Strand) (r : LaneRd),
    let p := t.task.pid
    let dst : Option RegRef := if d = 0 then none else some (.g d.toNat)
    let va := (getG t a).toNat % 2 ^ 48
    let vb := (getG t b).toNat % 2 ^ 48
    let w := (getG t b).toNat
    ((∀ i ∈ [Instr.commit g d a b c, .dqsend g a b c, .sstepB g d a c, .sactp g d a b c, .coll g d a c],
        Ready s t i g → ¬ CtrFree t c → Raises i s t 22)
      ∧ (Ready s t (.msend g sc d a b c) g → segBooked s t 31 (issueTick t s) (issueTick t s) = true →
        t.lastSend ≠ issueTick t s + 1 → ¬ CtrFree t c → Raises (.msend g sc d a b c) s t 22))
    ∧ (CtrFree t c →
      (Ready s t (.commit g d a b c) g → (vb % 128 ≠ 0 → Raises (.commit g d a b c) s t 5)
        ∧ (∀ cs v, vb % 128 = 0 → laneRead s t vb 72 = .error (cs, v) → Raises (.commit g d a b c) s t (causeCode cs)))
      ∧ (Ready s t (.dqsend g a b c) g →
        let bad : Prop := w / 8 % 2 ^ 13 ≠ 0 ∨ 2 ^ 32 ≤ w ∨ w % 8 = dieOf t.cl
        (bad → Raises (.dqsend g a b c) s t 2)
        ∧ (¬ bad → (partDies s p).contains (w % 8) = true → va % 128 ≠ 0 → Raises (.dqsend g a b c) s t 5)
        ∧ (∀ cs v, ¬ bad → (partDies s p).contains (w % 8) = true → va % 128 = 0 → laneRead s t va 256 = .error (cs, v) →
          Raises (.dqsend g a b c) s t (causeCode cs)))
      ∧ (Ready s t (.msend g sc d a b c) g → segBooked s t 31 (issueTick t s) (issueTick t s) = true →
        t.lastSend ≠ issueTick t s + 1 →
        (targetBad (getG t b) = true → Raises (.msend g sc d a b c) s t 2)
        ∧ (targetBad (getG t b) = false → targetOut s p (getG t b) = false → va % 128 ≠ 0 →
          Raises (.msend g sc d a b c) s t 5)
        ∧ (∀ cs v, targetBad (getG t b) = false → targetOut s p (getG t b) = false → va % 128 = 0 →
          laneRead s t va (w / 2 ^ 32 % 2 ^ 9) = .error (cs, v) → Raises (.msend g sc d a b c) s t (causeCode cs)))
      ∧ (∀ i ∈ [Instr.sstepB g d a c, .sactp g d a b c], Ready s t i g →
        (slotStart s t va = false → Raises i s t 5)
        ∧ (∀ cs v, slotStart s t va = true → laneRead s t va 64 = .error (cs, v) → Raises i s t (causeCode cs))
        ∧ (∀ r0 cs v, slotStart s t va = true → laneRead s t va 64 = .ok r0 →
          laneRead s t va (64 + 32 * min 64 ((r0.words.getD 0 0).toNat / 2 ^ 24 % 128)) = .error (cs, v) →
          Raises i s t (causeCode cs)))
      ∧ (Ready s t (.coll g d a c) g → (va % 128 ≠ 0 → Raises (.coll g d a c) s t 5)
        ∧ (∀ cs v, va % 128 = 0 → laneRead s t va 128 = .error (cs, v) → Raises (.coll g d a c) s t (causeCode cs))))
    ∧ (CtrFree t c →
    (Ready s t (.commit g d a b c) g → vb % 128 = 0 → laneRead s t vb 72 = .ok r →
      (let n := (r.words.getD 0 0).toNat
       (n = 0 ∨ 16 < n → Raises (.commit g d a b c) s t 2)
       ∧ (1 ≤ n → n ≤ 16 → Issues (.commit g d a b c) s t .commit (some c) dst (fun o => o.args = [0, getG t a, 0, 0]
           ∧ o.acc = (List.range n).map (fun k => BitVec.ofNat 64 (leAt r.bytes (8 + 4 * k) 4))))))
    ∧ (Ready s t (.dqsend g a b c) g → w / 8 % 2 ^ 13 = 0 → w < 2 ^ 32 → w % 8 ≠ dieOf t.cl →
      ((partDies s p).contains (w % 8) = false → Raises (.dqsend g a b c) s t 12)
      ∧ ((partDies s p).contains (w % 8) = true → va % 128 = 0 → laneRead s t va 256 = .ok r →
        Issues (.dqsend g a b c) s t .dqsend (some c) none (fun o => o.args = [getG t b] ∧ o.bytes = r.bytes ∧ o.unit = w % 8)))
    ∧ (Ready s t (.msend g sc d a b c) g →
      let tk := issueTick t s
      (segBooked s t 31 tk tk = false ∨ t.lastSend = tk + 1 → Raises (.msend g sc d a b c) s t 7)
      ∧ (segBooked s t 31 tk tk = true → t.lastSend ≠ tk + 1 → targetBad (getG t b) = false →
        (targetOut s p (getG t b) = true → Raises (.msend g sc d a b c) s t 12)
        ∧ (targetOut s p (getG t b) = false → va % 128 = 0 → laneRead s t va (w / 2 ^ 32 % 2 ^ 9) = .ok r →
          Issues (.msend g sc d a b c) s t .msend (some c) dst (fun o =>
            o.args = [getG t b] ∧ o.bytes = r.bytes ∧ o.scope = sc.toNat)
          ∧ ∃ s', exec (.msend g sc d a b c) s = .next s'
            ∧ (getCp s' t.cl p).msgSent = ((getCp s t.cl p).msgSent + 1) % 2 ^ 48)))
    ∧ (∀ r0 : LaneRd, slotStart s t va = true → laneRead s t va 64 = .ok r0 →
      laneRead s t va (64 + 32 * min 64 ((r0.words.getD 0 0).toNat / 2 ^ 24 % 128)) = .ok r →
      (∀ cs v, Ready s t (.sactp g d a b c) g →
        laneRead r.st t vb (8 * min 64 ((r0.words.getD 0 0).toNat / 2 ^ 24 % 128)) = .error (cs, v) →
        Raises (.sactp g d a b c) s t (causeCode cs))
      ∧ (Ready s t (.sstepB g d a c) g → Issues (.sstepB g d a c) s t .stream (some c) dst (fun o =>
        o.args = [6, 0, 0, 1] ∧ o.bytes = r.bytes))
      ∧ (∀ q : LaneRd, Ready s t (.sactp g d a b c) g →
        laneRead r.st t vb (8 * min 64 ((r0.words.getD 0 0).toNat / 2 ^ 24 % 128)) = .ok q →
        Issues (.sactp g d a b c) s t .stream (some c) dst (fun o =>
          o.args = [4, 0, 0, 1] ∧ o.bytes = r.bytes ∧ o.acc = q.words)))
    ∧ (Ready s t (.coll g d a c) g → va % 128 = 0 → laneRead s t va 128 = .ok r →
      (∀ cs, collCause s t ⟨r.words.take 8⟩ ⟨r.words.drop 8⟩ = some cs → Raises (.coll g d a c) s t (causeCode cs))
      ∧ (∀ k, collCause s t ⟨r.words.take 8⟩ ⟨r.words.drop 8⟩ = none → k.cancelled = true →
        (let dom := (Layout.mk (r.words.take 8)).dom
         s.colls.find? (fun x => x.pid == p && x.sel == dom && x.inst == domInst dom t.cl
           && x.k == (tabGet (getCp s t.cl p).collCount dom).getD 0) = some k) →
        (∃ s' t', Lands (.coll g d a c) s s' t' ∧ ∀ q ∈ s'.ops, q.id = s.nextId → q.fin = some (2 ^ 63 + 5))
        ∧ ((∀ q ∈ s.ops, q.id ≠ s.nextId) → (∀ e ∈ s.egress, e.op ≠ s.nextId) → (∀ e ∈ s.repl, e.op ≠ s.nextId) → t.fence = [] →
          ∃ s' t', Lands (.coll g d a c) s s' t' ∧ WroteG d (BitVec.ofNat 64 (2 ^ 63 + 5)) t t' ∧ SameV t t' ∧ SameP t t'
            ∧ (∀ x : R6, getC t' x = getC t x) ∧ SameF t t' ∧ MovedOn t t' ∧ ∀ q ∈ s'.ops, q.id ≠ s.nextId)
        ∧ ((∀ q ∈ s.ops, q.id ≠ s.nextId) → (∃ f ∈ t.fence, f.wr = true ∧ ∃ q ∈ s.ops, q.id = f.id) →
          ∃ s' t' o, Lands (.coll g d a c) s s' t' ∧ o ∈ s'.ops ∧ o.id = s.nextId ∧ o.fin = some (2 ^ 63 + 5)))
      ∧ (collCause s t ⟨r.words.take 8⟩ ⟨r.words.drop 8⟩ = none → (∀ k ∈ s.colls, k.cancelled = false) →
        ∃ s' t' o, Lands (.coll g d a c) s s' t' ∧ s'.ops = s.ops ++ [o] ∧ o.kind = .coll ∧ o.args = r.words ∧ o.dst = dst
          ∧ o.ctr = some (c.toNat % 4) ∧ SameG t t' ∧ SameV t t' ∧ MovedOn t t'
          ∧ (∀ x : R6, getC t' x = if x.toNat % 4 = c.toNat % 4 then getC t x + 1 else getC t x)
          ∧ ∃ k ∈ s'.colls, k.pid = p ∧ (t.cl, o.id) ∈ k.ops)))

/-- SAMPLE draws from the filter record at g[a]: the least entry whose running sum of weights passes u × Z / 2^24, with the
generator's draw u (R352); ACCEPT counts the leading draft tokens that pass under EPS and DELTA as they stood at its issue,
and says when all do (R353, R354); each line read stands as in its own cycle (R160). A record whose pages do not all lie in
the page set on local frames raises RESIDENCY, a misaligned one ALIGN, a word with an uncorrectable error MEMORY_ECC. The
correctly rounded logarithm and power of R354 are the model's own functions (log 16). -/
def Obligations.SampleAccept : Prop :=
  ∀ (g : Guard) (d a b c : R6) (s : State) (t : Strand),
    let va := (getG t a).toNat % 2 ^ 48
    let rd := fun (h k : Nat) => laneWord s t (h + 8 * k)
    let n := (getG t b).toNat % 32
    let st := (getG t b).toNat / 2 ^ 8
    let head := fun (k : Nat) => (va + 64 * st * k) % 2 ^ 48
    let heads := (List.range n).map head
    let vas := heads.flatMap (fun h => wordVas h 64)
    let regs := if t.atIssue = [] then [cpCtl s t.cl t.task.pid 0x1B1, cpCtl s t.cl t.task.pid 0x1B2] else t.atIssue
    let eps := (regs.getD 0 0).toNat % 2 ^ 32
    let delta := (regs.getD 1 0).toNat % 2 ^ 32
    let ok := fun (k : Nat) => acceptOne eps delta (rd (head k) 0) (rd (head k) 1) (rd (head k) 3) = true
    let i := Instr.accept g d a b
    (∀ r, Ready s t (.sample g d a b c) g → va % 64 = 0 → laneRead s t va (64 + 8 * (rd va 2 % 2 ^ 9)) = .ok r →
      ∃ s' t', Lands (.sample g d a b c) s s' t' ∧ SameMem s s'
        ∧ OnlyG d (sampleVal r.words (getG t b) (getG t c)) t t')
    ∧ (∀ ws seed coord, ((ws.getD 2 0).toNat % 2 ^ 9 = 0 ∨ xIsNan (decodeFmt .fp32 ((ws.getD 0 0).toNat % 2 ^ 32)) = true) →
      sampleVal ws seed coord = BitVec.ofNat 64 (2 ^ 63))
    ∧ (∀ (ws : List Word) (seed coord : Word),
      let ns := (ws.getD 2 0).toNat % 2 ^ 9
      let x := fun (j : Nat) => decodeFmt .fp32 ((ws.getD (8 + j) 0).toNat / 2 ^ 32)
      let wt := (List.range ns).map (fun j => wExpN (x j) (x 0))
      let z := (groupSum wt).1
      let u := (cbg seed 4 (coord.setWidth 32) ((coord >>> 32).setWidth 32)).toNat / 256
      let sum := fun (j : Nat) => (wt.take (j + 1)).foldl (fun acc w => (groupSum [acc, w]).1) xZero
      let passes := fun (j : Nat) => xCmp (xScale 24 (sum j)) (xMul (xInt u) z).1 = 1
      ns ≠ 0 → decodeFmt .fp32 ((ws.getD 0 0).toNat % 2 ^ 32) ≠ .nan →
      (.nan ∈ wt ∨ z = .nan ∨ (∃ n, z = .inf n) → sampleVal ws seed coord = BitVec.ofNat 64 (2 ^ 63))
      ∧ (∀ j, .nan ∉ wt → z ≠ .nan → (∀ n, z ≠ .inf n) → j < ns → passes j → (∀ k, k < j → ¬ passes k) →
        sampleVal ws seed coord = BitVec.ofNat 64 (2 ^ 32 * j + (ws.getD (8 + j) 0).toNat % 2 ^ 32)))
    ∧ (∀ (e k w0 w1 w3 : Nat),
      let m := decodeFmt .fp32 (w0 % 2 ^ 32)
      let l := decodeFmt .fp32 (w0 / 2 ^ 32)
      let en := decodeFmt .fp32 (w1 % 2 ^ 32)
      let sp := decodeFmt .fp32 (w1 / 2 ^ 32)
      let rn := fun y : Xr => decodeFmt .fp32 (conv y .fp32 .rne false).1
      let tau2 := rn (xMul (decodeFmt .fp32 k) (rn (xExp2 (xFlip (entropyOf l en))).1)).1
      let p := rn (xDiv (wExp sp m).1 l).1
      let open' : Prop := w3 % 2 = 1 ∧ m ≠ .nan ∧ en ≠ .nan ∧ sp ≠ .nan ∧ ∃ mant ex st, l = .fin false mant ex st ∧ mant ≠ 0
      (¬ open' → acceptOne e k w0 w1 w3 = false)
      ∧ (open' → (acceptOne e k w0 w1 w3 = true ↔
          (if xCmp (decodeFmt .fp32 e) tau2 = -1 then xCmp p (decodeFmt .fp32 e) = 1 else xCmp p tau2 = 1))))
    ∧ (Ready s t i g → (n = 0 ∨ 16 < n ∨ st = 0 ∨ (getG t b).toNat / 32 % 8 ≠ 0 ∨ 2 ^ 24 ≤ (getG t b).toNat) →
      ∃ s' t', Lands i s s' t' ∧ SameMem s s' ∧ OnlyG d (BitVec.ofNat 64 (2 ^ 63 + 4)) t t')
    ∧ (Ready s t i g → 1 ≤ n → n ≤ 16 → 1 ≤ st → (getG t b).toNat / 32 % 8 = 0 → (getG t b).toNat < 2 ^ 24 → va % 64 = 0 →
      (∀ u ∈ vas, ownPage s t u = true ∧ eccBad s (accessPhys s t (BitVec.ofNat 48 u)) 8 = false) →
      ∃ s' t' k, Lands i s s' t' ∧ SameMem s s' ∧ k ≤ n ∧ (∀ j, j < k → ok j) ∧ (k < n → ¬ ok k)
        ∧ OnlyG d (BitVec.ofNat 64 (k + if k = n then 256 else 0)) t t')
    ∧ (Ready s t i g → 1 ≤ n → n ≤ 16 → 1 ≤ st → (getG t b).toNat / 32 % 8 = 0 → (getG t b).toNat < 2 ^ 24 →
      (va % 64 ≠ 0 → Raises i s t 5)
      ∧ (va % 64 = 0 → (∃ u ∈ vas, ownPage s t u = false) → Raises i s t 9)
      ∧ (va % 64 = 0 → (∀ u ∈ vas, ownPage s t u = true) →
        (∃ u ∈ vas, eccBad s (accessPhys s t (BitVec.ofNat 48 u)) 8 = true) → Raises i s t 23))
    ∧ (Ready s t (.sample g d a b c) g →
      let all := spanVas va (64 + 8 * (rd va 2 % 2 ^ 9))
      ((∃ u ∈ spanVas va 64, ownPage s t u = false) → Raises (.sample g d a b c) s t 9)
      ∧ ((∀ u ∈ spanVas va 64, ownPage s t u = true) → (∃ u ∈ all, ownPage s t u = false) →
        Raises (.sample g d a b c) s t 9)
      ∧ ((∀ u ∈ spanVas va 64 ++ all, ownPage s t u = true) → va % 64 ≠ 0 → Raises (.sample g d a b c) s t 5)
      ∧ ((∀ u ∈ spanVas va 64 ++ all, ownPage s t u = true) → va % 64 = 0 →
        (∃ u ∈ all, eccBad s (accessPhys s t (BitVec.ofNat 48 u)) 8 = true) → Raises (.sample g d a b c) s t 23))

/-- MRECV takes the first message that satisfies its test, DQRECV the oldest entry of its queue: the payload goes to the
destination line by line and no other byte changes, g[d] takes the header or the sequence number when the last line falls into
the segment (R160, R224); with nothing to take the segment splits and resumes at the instruction; an entry out of sequence
raises SEQUENCE. A leased destination raises LEASE, one that fails another check its cause, and a DQRECV names a die of the
partition other than its own (R357, R390). -/
def Obligations.Receives : Prop :=
  ∀ (g : Guard) (tg : Bool) (d a b : R6) (s : State) (t : Strand),
    let p := t.task.pid
    let va := (getG t a).toNat % 2 ^ 48
    let w := (getG t b).toNat
    let tag := w % 2 ^ 16
    let die := w % 8
    let box := (getCp s t.cl p).inbox
    let q := (tabGet (getDp s (dieOf t.cl) p).dqIn die).getD []
    let got := fun (i : Instr) (bs : List Byte) (x : Word) (after : State → Prop) =>
      bs.length % 8 = 0 →
      (let ps := (wordVas va bs.length).map (fun v => accessPhys s t (BitVec.ofNat 48 v))
       ∃ s' t', Lands i s s' t' ∧ (lineEnd s t ps 8 < endCycle t → OnlyG d x t t') ∧ (endCycle t ≤ lineEnd s t ps 8 →
         OnlyMoves t t')
         ∧ after s' ∧ StoresLines s s s' t t' ps 8 (fun j => (bs.drop (8 * j)).take 8))
    let badDie : Prop := w / 8 % 2 ^ 13 ≠ 0 ∨ 2 ^ 32 ≤ w ∨ die = dieOf t.cl
    (∀ i ∈ [Instr.mrecv g tg d a b, .dqrecv g d a b], Ready s t i g → (destLeased s t va 256).isSome = true → Raises i s t 6)
    ∧ (∀ cs v, destLeased s t va 256 = none → destCause s t va 256 = some (cs, v) →
      (Ready s t (.mrecv g tg d a b) g → Raises (.mrecv g tg d a b) s t (causeCode cs))
      ∧ (Ready s t (.dqrecv g d a b) g → ¬ badDie → (partDies s p).contains die = true →
        Raises (.dqrecv g d a b) s t (causeCode cs)))
    ∧ (Ready s t (.dqrecv g d a b) g → destLeased s t va 256 = none → (badDie → Raises (.dqrecv g d a b) s t 2)
      ∧ (¬ badDie → (partDies s p).contains die = false → Raises (.dqrecv g d a b) s t 12))
    ∧ (destLeased s t va 256 = none → destCause s t va 256 = none →
    (Ready s t (.mrecv g tg d a b) g →
      (∀ m, box.find? (msgMatches tg tag) = some m →
        got (.mrecv g tg d a b) m.bytes m.hdr (fun s' => (getCp s' t.cl p).inbox = box.eraseP (msgMatches tg tag)))
      ∧ ((∀ m ∈ box, msgMatches tg tag m = false) →
        SplitsHere (.mrecv g tg d a b) s t 5 (BitVec.ofNat 64 (tag + 2 ^ 16 * if tg then 1 else 0))))
    ∧ (Ready s t (.dqrecv g d a b) g → w / 8 % 2 ^ 13 = 0 → w < 2 ^ 32 → die ≠ dieOf t.cl →
        (partDies s p).contains die = true →
      (q = [] → SplitsHere (.dqrecv g d a b) s t 6 (BitVec.ofNat 64 (w % 2 ^ 32)))
      ∧ (∀ n bs rest, q = (n, bs) :: rest →
        (n ≠ w / 2 ^ 16 → Raises (.dqrecv g d a b) s t 15)
        ∧ (n = w / 2 ^ 16 → got (.dqrecv g d a b) bs (BitVec.ofNat 64 n) (fun s' =>
          (tabGet (getDp s' (dieOf t.cl) p).dqIn die).getD [] = rest)))))

/-- FENCE makes later operations of the strand wait for the pending ones it covers and changes nothing else (R378): REL and AR
hold their writes and completions behind every pending operation of the task, at scope PARTITION and above behind its writes
on their way to other dies too; ACQ holds their reads behind the reading ones, AR behind all. An operation issued later
carries the fence, reads, writes and completes only as it allows, and holds the later ones of its channel or unit back. WHISK
fires only with EN = 1 (R423). -/
def Obligations.FenceWhisk : Prop :=
  ∀ (g : Guard) (kind : BitVec 2) (scope : BitVec 3) (tag : BitVec 16) (s : State) (t : Strand),
    (Ready s t (.fence g kind scope) g → ∃ t', Completes (.fence g kind scope) s t' ∧ OnlyMoves t t'
      ∧ (let far := decide (3 ≤ scope.toNat)
         (∀ d ∈ t'.fence, d ∈ t.fence ∨ (∃ o ∈ s.ops, o.id = d.id ∧ o.task = t.task.id)
           ∨ (kind.toNat % 2 = 1 ∧ far = true ∧ ∃ e ∈ s.egress, e.op = d.id ∧ e.task = t.task.id))
         ∧ (∀ d ∈ t.fence, (∃ o ∈ s.ops, o.id = d.id) ∨ (∃ e ∈ s.egress, e.op = d.id) → d ∈ t'.fence)
         ∧ (kind.toNat % 2 = 1 → ∀ o ∈ s.ops, o.task = t.task.id → ⟨o.id, decide (kind.toNat = 3), true, far⟩ ∈ t'.fence)
         ∧ (kind.toNat % 2 = 1 → far = true → ∀ e ∈ s.egress, e.task = t.task.id → (∀ o ∈ s.ops, o.id ≠ e.op) →
             ⟨e.op, decide (kind.toNat = 3), true, true⟩ ∈ t'.fence)
         ∧ (kind.toNat = 2 → ∀ o ∈ s.ops, o.task = t.task.id →
             o.kind ∉ [OpKind.fst, .pgalloc, .pgfree, .launch, .msend, .dqsend] → ⟨o.id, true, false, far⟩ ∈ t'.fence)))
    ∧ (∀ k c dst sc args, (mkOp s t k c dst sc args).deps = t.fence)
    ∧ (∀ (o : Op) (d : Dep), d ∈ o.deps →
        (∃ q ∈ s.ops, q.id = d.id) ∨ (d.home = true ∧ d.wr = true ∧ ∃ e ∈ s.egress, e.op = d.id) →
        (d.rd = true → o.kind ≠ .fst → opReady s o = false) ∧ (d.wr = true → o.kind ≠ .fld → opReady s o = false)
        ∧ (d.wr = true → mayComplete s o = false))
    ∧ (∀ (o : Op) (rd wr : Bool), (∀ d ∈ o.deps, (∀ q ∈ s.ops, q.id ≠ d.id) ∧ ∀ e ∈ s.egress, e.op ≠ d.id) → depsMet s o rd wr = true)
    ∧ (∀ (q o : Op), HeldByFence s q → q.id < o.id →
        (onWalker q.kind = true → q.cl = o.cl → walkerReady s o = false)
        ∧ (q.kind = .attd ∨ q.kind = .lfilt → bduOf s q = bduOf s o → bduReady s o = false))
    ∧ (Ready s t (.whisk g tag) g → permitted s t (.whisk g tag) = true →
      ∃ s' t', Lands (.whisk g tag) s s' t' ∧ OnlyMoves t t' ∧ SameMem s s'
        ∧ s'.agenda = s.agenda ++ (if (cpCtl s t.cl t.task.pid 0x1C1).getLsbD 0 then
            [(.whiskFire, ({ cl := t.cl, pid := t.task.pid, n := 0, unit := tag.toNat } : EvArg))] else []))

/-- BAR and PHASE (R381): an unconfigured domain and a cluster outside it answer a code; the arrival that completes a
cluster's BAR goes on with the new GEN; any other arrival splits the segment until GEN moves, with the GEN and the PHASE mark
in EVARG, and the resumed instruction writes GEN. A KIND 0 arrival is counted at issue: one that is not the last raises ARR,
the last of a phase marked PHASE begins the sweeps, and one during sweeps counts for the next phase (R381, R382; log 45, the
model's reading). The arrival that completes fires the continuations that await another GEN. A wider one is a release at its
scope and travels to the home. PER, the membership and GEN are read at the home without delay, at issue and in the resumed
form (log 44, the model's reading). -/
def Obligations.Barriers : Prop :=
  ∀ (g : Guard) (ph : Bool) (d a : R6) (s : State) (t : Strand) (i : Instr),
    i = (if ph then .phase g d a else .bar g d a) → Ready s t i g →
    let p := t.task.pid
    let sel := (getG t a).toNat % 64
    let inst := domInst sel t.cl
    let dm := getDom s p sel inst
    let ev := BitVec.ofNat 64 (sel + (if ph then 2 ^ 8 else 0) + 2 ^ 16 * dm.gen)
    let marked := dm.phase || ph
    (∀ ev, t.resumed = some (4, ev) → ∃ s' t', Lands i s s' t' ∧ SameMem s s'
      ∧ OnlyG d (BitVec.ofNat 64 (getDom s p (ev.toNat % 64) (domInst (ev.toNat % 64) t.cl)).gen) t t')
    ∧ (t.resumed = none →
      (64 ≤ (getG t a).toNat → Raises i s t 2)
      ∧ ((getG t a).toNat < 64 →
        (memPer dm.word = 0 → ∃ s' t', Lands i s s' t' ∧ OnlyG d (BitVec.ofNat 64 (2 ^ 63 + 2)) t t' ∧ SameMem s s')
        ∧ (memPer dm.word ≠ 0 → (domMembers sel inst dm.word).contains t.cl = false →
          ∃ s' t', Lands i s s' t' ∧ OnlyG d (BitVec.ofNat 64 (2 ^ 63 + 3)) t t' ∧ SameMem s s')
        ∧ (memPer dm.word ≠ 0 → (domMembers sel inst dm.word).contains t.cl = true → sel % 4 = 0 → dm.phase = false →
            dm.sweep = 0 → ph = false → dm.arr + 1 = domTot s p sel inst dm.word →
          ∃ s' t', Lands i s s' t' ∧ OnlyG d (BitVec.ofNat 64 ((dm.gen + 1) % 2 ^ 16)) t t' ∧ SameMem s s'
            ∧ (getDom s' p sel inst).gen = (dm.gen + 1) % 2 ^ 16 ∧ (getDom s' p sel inst).arr = 0
            ∧ s'.conts = s.conts.map (fun c =>
                if c.event = 4 ∧ c.task.pid = p ∧ c.cl = t.cl ∧ c.evarg.toNat % 64 = sel
                  ∧ c.evarg.toNat / 2 ^ 16 % 2 ^ 16 ≠ (dm.gen + 1) % 2 ^ 16 then { c with fired := true } else c))
        ∧ (memPer dm.word ≠ 0 → (domMembers sel inst dm.word).contains t.cl = true → sel % 4 = 0 → dm.sweep = 0 →
            dm.arr + 1 < domTot s p sel inst dm.word →
          SplitsHere i s t 4 ev ∧ ∃ s', exec i s = .next s'
            ∧ getDom s' p sel inst = { dm with arr := dm.arr + 1, phase := marked })
        ∧ (memPer dm.word ≠ 0 → (domMembers sel inst dm.word).contains t.cl = true → sel % 4 = 0 → dm.sweep = 0 →
            marked = true → dm.arr + 1 = domTot s p sel inst dm.word →
          SplitsHere i s t 4 ev ∧ ∃ s', exec i s = .next s'
            ∧ getDom s' p sel inst = { dm with arr := dm.arr + 1, phase := true, sweep := 1, read := [], last := none })
        ∧ (memPer dm.word ≠ 0 → (domMembers sel inst dm.word).contains t.cl = true → sel % 4 = 0 → dm.sweep ≠ 0 →
            marked = true →
          SplitsHere i s t 4 ev ∧ ∃ s', exec i s = .next s' ∧ getDom s' p sel inst = { dm with later := dm.later ++ [ph] })
        ∧ (memPer dm.word ≠ 0 → (domMembers sel inst dm.word).contains t.cl = true → sel % 4 ≠ 0 →
          SplitsFrom i s (if sel % 4 = 1 then settleRepl s (fun _ c => dieOf c == dieOf t.cl) else relDrain s (dieOf t.cl)) t 4 ev
            ∧ ∃ s', exec i s = .next s' ∧ s'.flights = s.flights ++ [⟨0, p, sel, inst, t.cl, ph, dm.gen⟩])))

/-! ### Positions, attention, tiles -/

/-- ATTM, VROPE and VLDB: MERGE of two triples, its value per element, the rotated pair, and the 32 elements of a run of a
page as VUNPK decodes them, rotated on a ROPE page, from lines as each stood in its own cycle; a VLDB whose page fails a check
raises its cause, one that reads an uncorrectable error MEMORY_ECC (R141, R160, R172, R301-R306, R321, R323). What they
compute with: the weights, the pair group sums and the NaN of MERGE (R305, R306), and the rotated pair at the phase of its
position (R301). The correctly rounded powers, sines and cosines are the model's own functions (log 16). -/
def Obligations.AttentionForms : Prop :=
  ∀ (g : Guard) (d a b c gl : R6) (k : BitVec 3) (z y : Bool) (mode : BitVec 2) (disp : BitVec 24),
    WritesGF (.attmS g d a b) g 8 d (fun _ t =>
        let x := (getG t a).toNat
        let y := (getG t b).toNat
        let r := mergeT ⟨x % 2 ^ 32, x / 2 ^ 32, []⟩ ⟨y % 2 ^ 32, y / 2 ^ 32, []⟩
        BitVec.ofNat 64 (r.1.m + 2 ^ 32 * r.1.l))
      (fun _ t => (mergeT ⟨(getG t a).toNat % 2 ^ 32, (getG t a).toNat / 2 ^ 32, []⟩
        ⟨(getG t b).toNat % 2 ^ 32, (getG t b).toNat / 2 ^ 32, []⟩).2)
    ∧ VectorResult (.attmV g d a b c k z) g 8 32 d k z (fun t i =>
        match mergeW ((getG t c).toNat % 2 ^ 32) ((getG t c).toNat / 2 ^ 32) with
        | (none, f) => (nanCode .fp32, f)
        | (some (_, w1, w2), f) =>
          let r := gPair w1 w2 (elt 32 (getV t a) i) (elt 32 (getV t b) i)
          (r.1, f ||| r.2))
    ∧ VectorResult (.vrope g d a b c k z false y) g 6 32 d k z (fun t i =>
        let p := elt 32 (getV t a) (i / 2 * 2)
        let q := elt 32 (getV t a) (i / 2 * 2 + 1)
        let r := rotPair (getG t b).toNat (elt 32 (getV t c) (i / 2)) p q
        let e := if i % 2 = 1 then r.2 else r.1
        (e.1, e.2 ||| snanFlag .fp32 [p, q]))
    ∧ VectorResult (.vrope g d a b c k z true y) g 6 32 d k z (fun t i =>
        let p := elt 32 (getV t a) i
        let q := elt 32 (getV t (a + 1)) i
        let r := rotPair (getG t b).toNat (elt 32 (getV t c) i) p q
        let e := if y then r.2 else r.1
        (e.1, e.2 ||| snanFlag .fp32 [p, q]))
    ∧ (∀ (m1 m2 l1 l2 : Nat) (a1 a2 : List Nat),
        let x := decodeFmt .fp32 m1
        let y := decodeFmt .fp32 m2
        let rn := fun u : Xr => (conv u .fp32 .rne false).1
        let weight := fun u m : Xr => if xCmp u m = 0 then xInt 1
          else decodeFmt .fp32 (rn (xExp2 (decodeFmt .fp32 (rn (groupSum [u, xFlip m]).1))).1)
        let m := if xBelow x y then y else x
        let pair := fun p q : Nat => rn (groupSum [(xMul (weight x m) (decodeFmt .fp32 p)).1, (xMul (weight y m) (decodeFmt .fp32 q)).1]).1
        (x = .nan ∨ y = .nan → (mergeW m1 m2).1 = none
          ∧ (mergeT ⟨m1, l1, a1⟩ ⟨m2, l2, a2⟩).1 =
              ⟨0x7FC00000, 0x7FC00000, List.replicate (max a1.length a2.length) 0x7FC00000⟩)
        ∧ (x ≠ .nan → y ≠ .nan → (mergeW m1 m2).1 = some (rn m, weight x m, weight y m)
          ∧ (∀ p q, (gPair (weight x m) (weight y m) p q).1 = pair p q)
          ∧ (mergeT ⟨m1, l1, a1⟩ ⟨m2, l2, a2⟩).1 = ⟨rn m, pair l1 l2, (a1.zip a2).map (fun e => pair e.1 e.2)⟩))
    ∧ (∀ (pos f x y : Nat),
        let q := pos * f % 2 ^ 32 / 2 ^ 8
        let u := decodeFmt .fp32 x
        let v := decodeFmt .fp32 y
        let sum := fun p r : Xr => (conv (groupSum [p, r]).1 .fp32 .rne false).1
        (rotPair pos f x y).1.1 = sum (xMul u (cosTurn q)).1 (xMul (xFlip v) (sinTurn q)).1
        ∧ (rotPair pos f x y).2.1 = sum (xMul u (sinTurn q)).1 (xMul v (cosTurn q)).1)
    ∧ (cosTurn (2 ^ 22) = xZero ∧ cosTurn (3 * 2 ^ 22) = xZero ∧ sinTurn 0 = xZero ∧ sinTurn (2 ^ 23) = xZero)
    ∧ ∀ (s : State) (t : Strand) (pg : VldbPage),
        let va := (((getG t b).setWidth 48 : Va) + disp.signExtend 48).toNat
        let m := mode.toNat
        let tile := va % 32768 / (512 * pg.v.w)
        let l := (getG t gl).toNat % 128
        let at' := fun (i : Nat) => if m ≤ 1 then (l / 2, 32 * (l % 2) + i) else (32 * (l % 2) + i, l / 2)
        let places := vldbPlaces pg m tile l
        let rd := places.map (fun e => (pg.v.phys + eltByte pg.v.w e.1 m e.2.1 e.2.2, eltBytes pg.v.w))
        let sc := if pg.v.blk = 0 then []
          else places.map (fun e => (pg.scale + scaleByte pg.v.blk (pg.v.block e.1 e.2.1 e.2.2), scaleEsz pg.v.blk))
        let dec := pg.v.f32 { s with mem := laneView t s } pg.scale m
        let val := fun (j : Nat) => match pg.hg with
          | some bs => rotElt dec bs pg.pair pg.pos tile (at' j).1 (at' j).2
          | none => dec tile (at' j).1 (at' j).2
        let i := Instr.vldb g d b gl mode disp
        Ready s t i g →
        (∀ cs v, vldbPage s t va m = .error (cs, v) → Raises i s t (causeCode cs))
        ∧ (vldbPage s t va m = .ok pg → (∃ e ∈ rd ++ sc, eccBad s e.1 e.2 = true) → Raises i s t 23)
        ∧ (vldbPage s t va m = .ok pg → (∀ e ∈ rd ++ sc, eccBad s e.1 e.2 = false) →
        ∃ s' t' x, Lands i s s' t' ∧ WroteV d x t t' ∧ SameMem s s' ∧ SameG t t' ∧ t'.m = t.m ∧ SameP t t' ∧ SameC t t'
          ∧ SameSpot t t' ∧ MovedOn t t' ∧ (∀ j, j < 32 → elt 32 x j = (val j).1 % 2 ^ 32)
          ∧ FlagsLand (s.cycle + if pg.hg.isSome then 15 else 9) ((List.range 32).foldl (fun f j => f ||| (val j).2) 0) t t')

/-- The tile commands enter their cluster's engine: with every tick of the occupancy booked and the operands' checks passed
the command stands behind the others, to start at the later of the next tick and the end of the one before, in the open batch,
with its leases; an unbooked tick raises BOOKING, a failed check its cause (R269-R274, R281, R285, R290, R291). What is on its
way into the ranges it leases is performed first, and a multiply or latch load takes its operands as they stand then (R275,
R276; log 7, log 93). TMMRING judges its format by what the latch commands before it will leave in the latch (log 58, the
model's reading). -/
def Obligations.TileCommands : Prop :=
  ∀ (g : Guard) (acc : BitVec 3) (ga gb gt gseed gcoord gs gbias gres gdrop gdst : R6) (la lb lt lres act : BitVec 2)
    (slice rm : BitVec 3) (mr nc : BitVec 7) (kd : BitVec 8) (sat sc bi rs dp tr : Bool) (s : State) (t : Strand)
    (i : Instr) (occ : List (Nat × Nat)) (words : Nat) (prep : Nat → Except (Cause × Word) TilePrep),
    let bg := fun (n : Nat) => (List.range 8).map (fun b => (17 + b, n))
    let mul := (8, 2) :: (9 + acc.toNat, 2) :: bg 2
    let drain := (8, 4) :: (9 + acc.toNat, 4) :: bg 4
    let mode : Word := if rm = 4 then t.rm.setWidth 64 else rm.setWidth 64
    (i, occ, words, prep) ∈ ([
      (.tzero g ga, [(8, 1), (9 + ga.toNat % 8, 1)], 1, fun _ => .ok { acc := some (ga.toNat % 8) }),
      (.tmma g acc ga gb la lb slice mr nc kd, mul, 4, fun _ => mulPrep 0 acc ga gb la lb slice mr nc t s),
      (.tmmat g acc ga gb la lb slice mr nc kd, mul, 4, fun _ => mulPrep 1 acc ga gb la lb slice mr nc t s),
      (.tmmbt g acc ga gb la lb slice mr nc kd, mul, 4, fun _ => mulPrep 2 acc ga gb la lb slice mr nc t s),
      (.tmmring g acc ga la slice mr nc kd, mul, 4, fun n =>
        match tilePage s t (tva t ga) la.toNat true with
        | .error e => .error e
        | .ok (p, bad) =>
          let lf := latchFmt (getCp s t.cl t.task.pid) n
          let dep := min (depthOf p.fmt) (depthOf lf)
          if tileMisaligned p (tva t ga) (dep == 128) then .error (.align, tw (tva t ga))
          else if bad || ropeBad p || axisBad p 0 || sliceBad slice.toNat dep || lf == 0
              || decide (extOf lf < (slice.toNat + 1) * dep) then .error (.format, tw (tva t ga))
          else .ok { args := [tw acc.toNat, 3, tw slice.toNat, tw mr.toNat, tw nc.toNat], pages := [p], acc := some acc.toNat
                     leases := leaseCells p (lineCells p.tile false mr.toNat (slice.toNat * dep) dep).flatten }),
      (.tdrain g acc gt lt rm sat mr nc gseed gcoord, drain, 4, fun _ => drainPrep acc gt lt mr nc none none 0
        [mode, if sat then 1 else 0, 0, 0, getG t gseed, 0, getG t gcoord] t s),
      (.tdrainx g acc gt lt rm sat act sc bi rs dp mr nc gs gbias gres lres gseed gdrop gcoord, drain, 4, fun _ =>
        drainPrep acc gt lt mr nc (if bi then some gbias else none) (if rs then some gres else none) lres
          [mode, if sat then 1 else 0, tw (act.toNat + (if sc then 4 else 0) + (if bi then 8 else 0) + (if rs then 16 else 0)
            + (if dp then 32 else 0)), getG t gs, getG t gseed, getG t gdrop, getG t gcoord] t s),
      (.tblatch g 0 ga gdst lb tr, (8, 2) :: bg 2, 4, fun _ =>
        match tilePage s t (tva t ga) lb.toNat true with
        | .error e => .error e
        | .ok (p, bad) =>
          if tileMisaligned p (tva t ga) (depthOf p.fmt == 128) then .error (.align, tw (tva t ga))
          else if bad || ropeBad p || axisBad p (if tr then 0 else 1) then .error (.format, tw (tva t ga))
          else .ok { pages := [p], leases := leaseCells p (latchCells p tr) }),
      (.tblatch g 1 ga gdst lb tr, [(8, 1), (29, 2)], 4, fun _ =>
        if inRect s t.task.pid (ringNext t.cl false) then .ok { args := [getG t ga] } else .error (.tenant, 0)),
      (.tblatch g 2 ga gdst lb tr, [(8, 1), (30, 2)], 4, fun _ =>
        if inRect s t.task.pid (ringNext t.cl true) then .ok { args := [getG t ga] } else .error (.tenant, 0)),
      (.tblatch g 3 ga gdst lb tr, [(8, 1)], 4, fun _ => .ok { args := [tw gdst.toNat] }),
      (.tblatch g 4 ga gdst lb tr, [(8, 1)], 4, fun _ => .ok { args := [tw gdst.toNat] })] :
        List (Instr × List (Nat × Nat) × Nat × (Nat → Except (Cause × Word) TilePrep))) →
    Ready s t i g →
    let st := max (relCycle t s / 8 + 1) t.tileF
    let at0 := t.seg.start + st
    let booked := ∀ o ∈ occ, ∀ n, n < o.2 → bookedTo (getCp s t.cl t.task.pid).cal t.seg.sid o.1 (at0 + n) = true
    (¬ booked → Raises i s t 7)
    ∧ (booked → (∀ e, prep at0 = .error e → Raises i s t (causeCode e.1))
      ∧ (∀ q, prep at0 = .ok q → ∃ s' t' c, Lands i s s' t'
        ∧ SameMem (settleLeases s t.cl q.leases) s' ∧ (s.egress = [] → s.repl = [] → SameMem s s')
        ∧ c.snap = (if readsAtIssue i then q.leases.map (fun r => (r.1, rdBytes s'.mem r.1 r.2)) else [])
        ∧ (getCp s' t.cl t.task.pid).tiles = (getCp s t.cl t.task.pid).tiles ++ [c]
        ∧ c.instr = i ∧ c.task = t.task.id ∧ c.sid = t.seg.sid ∧ c.batch = t.batchNo ∧ c.pc = t.pc0 ∧ c.start = 8 * at0
        ∧ c.done = 8 * (at0 + (occ.map (·.2)).foldl max 0) - 1 ∧ c.occ = occ.map (fun o => (o.1, at0, at0 + o.2 - 1))
        ∧ c.args = q.args ∧ c.pages = q.pages ∧ c.leases = q.leases ∧ c.acc = q.acc ∧ c.started = false ∧ c.commit = none
        ∧ t'.tileF = st + (occ.headD (8, 0)).2 ∧ SameG t t' ∧ SameV t t' ∧ SameP t t' ∧ SameC t t' ∧ SameF t t' ∧ SamePlace t t'
        ∧ (if words = 1 then MovedOn t t'
           else t'.pc0 = t.pc0 + 32 ∧ t'.pc1 = t.pc0 + 40 ∧ t'.pc2 = t.pc0 + 48 ∧ t'.ds = 0)))

/-- TCOMMIT closes the open batch and gives its number; TWAIT closes the open batch if it waits for it, stands at its place
until the last commit cycle of the batches that it waits for, and then goes on. A batch commits in the cycle after the last
completion point of its commands, not before the next cycle nor before an earlier batch (R272). TACCRD reads half a row of an
accumulator that no command leases, in a tick booked for it, and raises LEASE until the leasing command's batch has committed
(R271, R272, R291, R292). -/
def Obligations.TileShortForms : Prop :=
  ∀ (g : Guard) (d a b row : R6) (half : Bool) (s : State) (t : Strand),
    let open' : TileCmd → Bool := fun c => c.sid == t.seg.sid && c.batch == t.batchNo && c.commit.isNone
    let tiles : List TileCmd := (getCp s t.cl t.task.pid).tiles
    let at' : Nat := ((tiles.filter open').map (fun (c : TileCmd) => c.done + 1)
      ++ t.commits.map (fun (e : Nat × Nat) => e.2)).foldl max (s.cycle + 1)
    let closed : List TileCmd := tiles.map (fun c => if open' c then { c with commit := some at' } else c)
    (Ready s t (.tcommit g d) g → ∃ s' t', Lands (.tcommit g d) s s' t'
      ∧ OnlyG d (BitVec.ofNat 64 (t.batchNo % 2 ^ 16)) t t' ∧ t'.batchNo = t.batchNo + 1 ∧ SameMem s s'
      ∧ t'.commits = t.commits ++ [(t.batchNo, at')] ∧ (getCp s' t.cl t.task.pid).tiles = closed)
    ∧ (Ready s t (.twait g a) g →
      let n := (getG t a).toNat % 2 ^ 16
      let waits := ∃ e ∈ t.commits, e.1 ≤ n ∧ s.cycle < e.2
      (n < t.batchNo ∨ t.reach.isSome = true →
        (¬ waits → ∃ t', Completes (.twait g a) s t' ∧ OnlyMoves t t')
        ∧ (waits → ∃ t', Completes (.twait g a) s t' ∧ t'.reach.isSome = true ∧ (∃ e ∈ t.commits, e.1 ≤ n ∧ e.2 = t'.hold)
            ∧ (∀ e ∈ t.commits, e.1 ≤ n → e.2 ≤ t'.hold) ∧ t' = { t with hold := t'.hold, reach := t'.reach }))
      ∧ (t.batchNo ≤ n → t.reach = none → ∃ s' t', Lands (.twait g a) s s' t' ∧ SameMem s s' ∧ t'.batchNo = t.batchNo + 1
          ∧ t'.commits = t.commits ++ [(t.batchNo, at')] ∧ (∀ e ∈ t'.commits, e.1 ≤ n → e.2 ≤ t'.hold)
          ∧ (∃ e ∈ t'.commits, e.1 ≤ n ∧ e.2 = t'.hold) ∧ t'.reach.isSome = true ∧ (getCp s' t.cl t.task.pid).tiles = closed
          ∧ t'.pc0 = t.pc0 ∧ t'.pc1 = t.pc1 ∧ t'.pc2 = t.pc2 ∧ t'.ds = t.ds ∧ SameG t t' ∧ SameV t t' ∧ SameP t t' ∧ SameC t t'
          ∧ SameF t t' ∧ SamePlace t t'))
    ∧ (∀ (i : Instr) (r : Nat) (h : Bool), (i, r, h) ∈ ([(.taccrd g d a row half, row.toNat, half),
        (.taccrdR g d a b, (getG t b).toNat % 64, (getG t b).getLsbD 6)] : List (Instr × Nat × Bool)) → Ready s t i g →
      let n := a.toNat % 8
      let k := getCp s t.cl t.task.pid
      let held := ∃ c ∈ k.tiles, c.acc = some n ∧ ∀ m, c.commit = some m → s.cycle < m
      (held → Raises i s t 6)
      ∧ (¬ held →
        (bookedTo k.cal t.seg.sid (9 + n) (tickNow s) = false → Raises i s t 7)
        ∧ (bookedTo k.cal t.seg.sid (9 + n) (tickNow s) = true → ∃ s' t' x, Lands i s s' t' ∧ OnlyV d x t t' ∧ SameMem s s'
          ∧ ∀ e, e < 32 → elt 32 x e =
            ((tabGet k.acc (4096 * n + 64 * r + (if h then 32 else 0) + e)).getD 0).toNat)))

/-- A tile command's work at its start: TZERO clears its accumulator; a multiply adds to each element in its rectangle the
group sum of the row and column it names, as its operands stood at its issue with what earlier commands of the segment have
written since (R276; log 93), TMMRING with the columns of the latch, and leaves the others; every other accumulator and all of
memory stay; a multiply of a word with an uncorrectable error, or into an accumulator with one, makes the accumulator NaN
(R268, R277, R279-R282, R291). TBLATCH loads the latch from a page or an inbound buffer, or sends it on its way to a neighbour
(R284, R285). A drain forms its values, runs each through its epilogue and its encoding, and writes the words that hold them,
and no other, one by one until its completion point (R286-R289, R367). A batch of tile commands commits: it leaves the engine
and its leases end, its flags reach the strand, and an error it met waits for the strand (R272, R277); a ring tile that has
arrived stands in its inbound buffer (R283, R285). -/
def Obligations.TileEvents : Prop :=
  (∀ (s : State) (c : TileCmd),
       let cl := s.ev.cl
       let p := s.ev.pid
       let k := getCp s cl p
       let arg := fun n => (c.args.getD n 0).toNat
       let latch := k.latch.getD BStore.empty
       let sent := fun (west : Bool) => ∃ s' b, exec .tileCommandStart s = .next s' ∧ SameMem s s'
         ∧ (ringNext cl west ≠ cl → (getCp s' (ringNext cl west) p).ring
             = (getCp s (ringNext cl west) p).ring ++ [(c.start + 24, (if west then 1 else 0), b)])
         ∧ b.fresh = true ∧ b.elts = latch.elts ∧ b.tag = arg 0 % 2 ^ 16
       let spoilt := fun (s' : State) (d : Nat) => accGet (getCp s' cl p) d = List.replicate 4096 (BitVec.ofNat 32 (nanCode .fp32))
         ∧ ∃ x ∈ (getCp s' cl p).tiles, x.id = c.id ∧ x.ecc = true
       s.ev.n ≠ 1 → k.tiles.find? (fun x => x.id == s.ev.id && !x.started && decide (x.start ≤ s.cycle)) = some c →
       (∀ g a, c.instr = .tzero g a → ∃ s', exec .tileCommandStart s = .next s' ∧ SameMem s s'
         ∧ (accHurt k (c.acc.getD 0) = false → accGet (getCp s' cl p) (c.acc.getD 0) = List.replicate 4096 0)
         ∧ (accHurt k (c.acc.getD 0) = true → spoilt s' (c.acc.getD 0))
         ∧ ∀ d, d ≠ c.acc.getD 0 → accGet (getCp s' cl p) d = accGet k d)
       ∧ (∀ g acc ga gb la lb sl mr nc kd a b, c.instr = .tmma g acc ga gb la lb sl mr nc kd
            ∨ c.instr = .tmmat g acc ga gb la lb sl mr nc kd ∨ c.instr = .tmmbt g acc ga gb la lb sl mr nc kd → c.pages = [a, b] →
         (let dep := min (depthOf a.fmt) (depthOf b.fmt)
          let kb := arg 2 * dep
          let n := min kd.toNat dep
          let bad := cellsBad s a (lineCells a.tile (arg 1 == 1) (arg 3) kb dep).flatten
            || cellsBad s b (lineCells b.tile (arg 1 != 2) (arg 4) kb dep).flatten || accHurt k (arg 0)
          ∃ s', exec .tileCommandStart s = .next s' ∧ SameMem s s'
           ∧ (∀ d, d ≠ arg 0 → accGet (getCp s' cl p) d = accGet k d)
           ∧ (bad = true → spoilt s' (arg 0))
           ∧ (bad = false → ∀ x y, x < 64 → y < 64 → (accGet (getCp s' cl p) (arg 0))[64 * x + y]? =
             (if x < arg 3 ∧ y < arg 4 then
               some (stepElt ((accGet k (arg 0)).getD (64 * x + y) 0)
                 ((List.range n).map (fun j => (cellVal (snapView s c) a (kCell a.tile (arg 1 == 1) x (kb + j))).1))
                 ((List.range n).map (fun j => (cellVal (snapView s c) b (kCell b.tile (arg 1 != 2) y (kb + j))).1))).1
              else (accGet k (arg 0))[64 * x + y]?))))
       ∧ (∀ g acc ga la sl mr nc kd a, c.instr = .tmmring g acc ga la sl mr nc kd → c.pages = [a] →
         (let dep := min (depthOf a.fmt) (depthOf latch.fmt)
          let kb := arg 2 * dep
          let n := min kd.toNat dep
          let bad := cellsBad s a (lineCells a.tile (arg 1 == 1) (arg 3) kb dep).flatten || accHurt k (arg 0)
          ∃ s', exec .tileCommandStart s = .next s' ∧ SameMem s s'
           ∧ (∀ d, d ≠ arg 0 → accGet (getCp s' cl p) d = accGet k d)
           ∧ (bad = true → spoilt s' (arg 0))
           ∧ (bad = false → ∀ x y, x < 64 → y < 64 → (accGet (getCp s' cl p) (arg 0))[64 * x + y]? =
             (if x < arg 3 ∧ y < arg 4 then
               some (stepElt ((accGet k (arg 0)).getD (64 * x + y) 0)
                 ((List.range n).map (fun j => (cellVal (snapView s c) a (kCell a.tile (arg 1 == 1) x (kb + j))).1))
                 ((List.range n).map (fun j => (latchVal latch (kb + j) y).1))).1
              else (accGet k (arg 0))[64 * x + y]?))))
       ∧ (∀ g ga gd lb tr pg, c.instr = .tblatch g 0 ga gd lb tr → c.pages = [pg] →
         (let cells := latchCells pg tr
          ∃ s' l, exec .tileCommandStart s = .next s' ∧ SameMem s s' ∧ (getCp s' cl p).latch = some l
           ∧ l.fmt = pg.fmt ∧ l.blk = pg.blk ∧ l.axis = pg.axis
           ∧ (cellsBad s pg cells = true → l.nan = true ∧ ∃ x ∈ (getCp s' cl p).tiles, x.id = c.id ∧ x.ecc = true)
           ∧ (cellsBad s pg cells = false → l.nan = false
               ∧ (pg.rope = none → l.rot = false ∧ l.elts = cells.map (fun e => rawElt (snapView s c) pg.phys pg.w e.1 pg.mode e.2.1 e.2.2)
                   ∧ (pg.blk ≠ 0 →
                       l.scales = cells.map (fun e => scaleAt (snapView s c) pg.scale pg.blk (pg.view.block e.1 e.2.1 e.2.2))))
               ∧ (pg.rope ≠ none → l.rot = true ∧ l.elts = cells.map (fun e => (rnF32 (cellVal (snapView s c) pg e).1).1)))))
       ∧ (∀ g ga gd lb tr, c.instr = .tblatch g 1 ga gd lb tr → sent false)
       ∧ (∀ g ga gd lb tr, c.instr = .tblatch g 2 ga gd lb tr → sent true)
       ∧ (∀ g ga gd lb tr (west : Bool) n t, c.instr = .tblatch g (if west then 4 else 3) ga gd lb tr →
           tabGet s.strands n = some t → t.task.id = c.task →
         (let b := (if west then k.ie else k.iw).getD BStore.empty
          ∃ s' t', exec .tileCommandStart s = .next s' ∧ SameMem s s'
           ∧ (getCp s' cl p).latch = some { b with fresh := false }
           ∧ (getCp s' cl p).ie = (if west then some { b with fresh := false } else k.ie)
           ∧ (getCp s' cl p).iw = (if west then k.iw else some { b with fresh := false })
           ∧ tabGet s'.strands n = some t' ∧ t'.v = t.v
           ∧ ∀ r : Fin 64, t'.g[r] = if r.val = arg 0 % 64 ∧ arg 0 ≠ 0 then
               BitVec.ofNat 64 ((if b.fresh then 2 ^ 16 else 0) + b.tag) else t.g[r]))
       ∧ (∀ tp rest, ((∃ g acc gt lt rm sat mr nc gseed gc, c.instr = .tdrain g acc gt lt rm sat mr nc gseed gc)
             ∨ ∃ g acc gt lt rm sat act sc bi rs dp mr nc gs gb gr lr gseed gd gc,
               c.instr = .tdrainx g acc gt lt rm sat act sc bi rs dp mr nc gs gb gr lr gseed gd gc) →
         c.pages = tp :: rest → arg 1 ≤ 64 → arg 2 ≤ 64 → (tp.blk ≠ 0 → arg 1 = 64 ∧ arg 2 = 64) →
         (let bp := if arg 6 / 8 % 2 = 1 then rest.head? else none
          let rp := if arg 6 / 16 % 2 = 1 then rest.getLast? else none
          let bad := bp.any (fun b => cellsBad s b (biasCells b (arg 3))) || rp.any (fun r => cellsBad s r (rectCells r.tile (arg 1) (arg 2)))
            || accHurt k (arg 0)
          let bias := fun (j : Nat) => match bp with
            | some b => (cellF32 s b ((biasCells b (arg 3)).getD j (0, 0, 0))).1
            | none => 0
          let res := fun (i j : Nat) => match rp with
            | some r => (cellF32 s r (r.tile, i, j)).1
            | none => 0
          let w := fun (n : Nat) => c.args.getD n 0
          let val := fun (e : Cell) => (epilogue (arg 6) (w 7) (w 8) (w 9) (w 10)
            ((accGet k (arg 0)).getD (64 * e.2.1 + e.2.2) 0).toNat (bias e.2.2) (res e.2.1 e.2.2) e.2.1 e.2.2).1
          let rm := fun (e : Cell) =>
            if arg 4 = 5 then
              Rnd.sr (cbg (w 8) 2 (bits (w 10) 32 32 + BitVec.ofNat 32 e.2.2) (bits (w 10) 0 32 + BitVec.ofNat 32 e.2.1))
            else rndOf (arg 4)
          let full : State :=
            if tp.blk = 0 then (rectCells tp.tile (arg 1) (arg 2)).foldl (fun m e =>
              putCell m tp e (conv (decodeFmt .fp32 (val e)) (fmtOfCode tp.fmt) (rm e) (w 5 != 0)).1) s
            else if tp.blk = 3 then (List.range 16).foldl (fun m n => (drainGroup m tp val n).1) s
            else (List.range (4096 / blkLen tp.blk)).foldl (fun m n => (drainBlock m tp rm val n).1) s
          ∃ s' x, exec .tileCommandStart s = .next s' ∧ SameMem s s' ∧ x ∈ (getCp s' cl p).tiles ∧ x.id = c.id ∧ x.started = true
           ∧ (∀ d, accGet (getCp s' cl p) d = accGet k d)
           ∧ (bad = true → x.ecc = true ∧ x.out = [])
           ∧ (bad = false → x.ecc = false ∧ x.out = drainWords full tp (rectCells tp.tile (arg 1) (arg 2))))))
  ∧ (∀ (s : State) (c : TileCmd),
       s.ev.n = 1 → (getCp s s.ev.cl s.ev.pid).tiles.find? (fun x => x.id == s.ev.id && drainGoing s x) = some c →
       Performs .tileCommandStart s (fun s' => ∃ e ∈ c.out, SameMemBut e.1 e.2.length s s' ∧ rdBytes s'.mem e.1 e.2.length = e.2
         ∧ ∃ l r, c.out = l ++ e :: r ∧ ∃ x ∈ (getCp s' s.ev.cl s.ev.pid).tiles, x.id = c.id ∧ x.out = l ++ r))
  ∧ (∀ (s : State),
       let cl := s.ev.cl
       let p := s.ev.pid
       let k := getCp s cl p
       (∀ c n t, k.tiles.filter (drainOver s) = [] → k.tiles.filter (commitDue s) = [c] → tabGet s.strands n = some t →
           t.task.id = c.task →
         Performs .tileBatchCommit s (fun s' => (getCp s' cl p).tiles = k.tiles.filter (fun x => !commitDue s x) ∧ SameMem s s'
           ∧ s'.owed = s.owed ++ (if c.ecc then [(c.task, c.pc, c.word0)] else [])
           ∧ ∃ t', tabGet s'.strands n = some t' ∧ t'.flags = t.flags ||| c.flags ∧ t'.g = t.g ∧ t'.v = t.v ∧ t'.pc0 = t.pc0))
       ∧ (∀ c, k.tiles.filter (drainOver s) = [c] → k.tiles.filter (commitDue s) = [] →
         Performs .tileBatchCommit s (fun s' =>
           (∀ b, (∀ e ∈ c.out, b < e.1 ∨ e.1 + e.2.length ≤ b) → rdCell s'.mem b = rdCell s.mem b)
           ∧ (∀ (j : Nat) (e : Nat × List Byte), c.out[j]? = some e →
               (∀ (i : Nat) (q : Nat × List Byte), j < i → c.out[i]? = some q →
                 q.1 + q.2.length ≤ e.1 ∨ e.1 + e.2.length ≤ q.1) →
               rdBytes s'.mem e.1 e.2.length = e.2)
           ∧ ∀ x ∈ (getCp s' cl p).tiles, x.id = c.id → x.out = []))
       ∧ (∀ e, k.ring.filter (fun e => decide (e.1 ≤ s.cycle)) = [e] →
         Performs .ringDelivery s (fun s' => SameMem s s'
           ∧ (getCp s' cl p).ring = k.ring.filter (fun e => !decide (e.1 ≤ s.cycle))
           ∧ (e.2.1 = 0 → (getCp s' cl p).iw = some e.2.2 ∧ (getCp s' cl p).ie = k.ie)
           ∧ (e.2.1 ≠ 0 → (getCp s' cl p).ie = some e.2.2 ∧ (getCp s' cl p).iw = k.iw))))

/-! ### Events of the device -/

/-- HOST_SEMA: the free semaphore goes to the port that asks, to the one that did not have it last when both ask; a release by
its owner, or the loss of the owner's link, frees it; any other release changes nothing (R426). A management register written
without HOST_SEMA counts in DENIED and keeps its value; the buffer and attestation registers take what is written; the time
registers wait for the next tick boundary (R424, R426, R431). An access to MW_0 is 8 bytes, aligned and below 16 KiB: a read
of any other form returns zeros and a write of it is ignored (R424). LAST takes the port with the acquisition (log 67), and an
access is an event with its offset and size (log 69): the model's readings. A read answers the register, DEV_TIME as RDTIME
reads it and FW_MIN as the device has it; clear-on-read fields clear (R10, R217, R404, R417, R426, R430, R431, R433, R435). -/
def Obligations.HostRegisters : Prop :=
  (∀ s : State,
       let own := devCtl s 0x800 % 4
       let last := devCtl s 0x800 / 16 % 2
       (own = 0 → s.ev.n % 4 ≠ 0 →
         let p := if s.ev.n % 4 = 1 then 0 else if s.ev.n % 4 = 2 then 1 else 1 - last
         Performs .semaAcquire s (fun s' => OnlyDevice s s' ∧ devCtl s' 0x800 % 4 = p + 1 ∧ devCtl s' 0x800 / 16 % 2 = p
           ∧ ∀ n, n ≠ 0x800 → devCtl s' n = devCtl s n))
       ∧ (own ≠ 0 → Performs .semaAcquire s (fun s' => s' = s))
       ∧ (∀ i, i = Instr.semaRelease ∨ i = Instr.hostLinkDown →
         (own = s.ev.unit % 2 + 1 → Performs i s (fun s' => OnlyDevice s s' ∧ devCtl s' 0x800 % 4 = 0
           ∧ devCtl s' 0x800 / 4 = devCtl s 0x800 / 4 ∧ ∀ n, n ≠ 0x800 → devCtl s' n = devCtl s n))
         ∧ (own ≠ s.ev.unit % 2 + 1 → Performs i s (fun s' => s' = s))))
  ∧ (∀ s : State,
       let fits := s.ev.id = 8 ∧ s.ev.n % 8 = 0 ∧ s.ev.n < 0x4000
       let n := 0x800 + s.ev.n / 8
       let x := s.ev.words.getD 0 0
       let same := fun (s' : State) (r : Nat) => ∀ k, k ≠ r → devCtl s' k = devCtl s k
       (¬ fits → Performs .hostRegisterWrite s (fun s' => OnlyDevice s s' ∧ s'.dev = s.dev
         ∧ s'.reply = if s.ev.flag then 0 else s.reply))
       ∧ (fits → s.ev.flag = true → Performs .hostRegisterWrite s (fun s' => OnlyDevice s s' ∧ same s' n
         ∧ s'.reply = (if n = 0x840 then devTimeNs s else if n = 0x862 then Config.minVersion.setWidth 64 else ctlGet s.dev.ctl n)
         ∧ (n ≠ 0x800 → n ≠ 0x801 → n ≠ 0x802 → n ≠ 0x811 → n ≠ 0x880 → s'.dev = s.dev)))
       ∧ (fits → s.ev.flag = false → managed n = true → ownsSema s s.ev.unit = false →
         Performs .hostRegisterWrite s (fun s' => OnlyDevice s s'
         ∧ devCtl s' 0x800 / 2 ^ 32 % 2 ^ 16 = min 65535 (devCtl s 0x800 / 2 ^ 32 % 2 ^ 16 + 1) ∧ same s' 0x800))
       ∧ (fits → s.ev.flag = false → (0x818 ≤ n ∧ n ≤ 0x81F ∧ ownsSema s s.ev.unit = true) ∨ (0x870 ≤ n ∧ n ≤ 0x873) ∨ n = 0x875 →
         Performs .hostRegisterWrite s (fun s' => OnlyDevice s s' ∧ devCtl s' n = x.toNat ∧ same s' n))
       ∧ (fits → s.ev.flag = false → n = 0x841 ∨ n = 0x842 ∨ n = 0x844 → ownsSema s s.ev.unit = true →
         Performs .hostRegisterWrite s (fun s' => OnlyDevice s s' ∧ s'.dev.timePend = s.dev.timePend ++ [(n, x)]
           ∧ s'.dev.ctl = s.dev.ctl))
       ∧ Performs .hostSemaRead s (fun s' => OnlyDevice s s' ∧ s'.reply = ctlGet s.dev.ctl 0x800
           ∧ devCtl s' 0x800 / 2 ^ 32 % 2 ^ 16 = 0 ∧ devCtl s' 0x800 % 2 ^ 32 = devCtl s 0x800 % 2 ^ 32 ∧ same s' 0x800)
       ∧ Performs .amLogRead s (fun s' => let r := 0x801 + s.ev.unit % 2
           OnlyDevice s s' ∧ s'.reply = ctlGet s.dev.ctl r ∧ devCtl s' r % 2 ^ 32 = 0 ∧ same s' r)
       ∧ Performs .eccCeRead s (fun s' => OnlyDevice s s' ∧ s'.reply = ctlGet s.dev.ctl 0x880 ∧ devCtl s' 0x880 = 0
         ∧ same s' 0x880)
       ∧ Performs .tenDropRead s (fun s' => OnlyDevice s s' ∧ s'.reply = ctlGet s.dev.ctl 0x811 ∧ devCtl s' 0x811 % 2 ^ 32 = 0
           ∧ same s' 0x811)
       ∧ Performs .packetDiscard s (fun s' => OnlyDevice s s' ∧ devCtl s' 0x811 = min (2 ^ 32 - 1) (devCtl s 0x811 + 1)
           ∧ same s' 0x811)
       ∧ Performs .calStatRead s (fun s' => s'.reply = ctlGet (getClu s s.ev.cl).ctl 0x181
           ∧ ctlGet (getClu s' s.ev.cl).ctl 0x181 = 0 ∧ SameMem s s' ∧ s'.dev = s.dev)
       ∧ Performs .fltLostRead s (fun s' => s'.reply = ctlGet (getDp s (dieOf s.ev.cl) s.ev.pid).ctl 0x423
           ∧ (ctlGet (getDp s' (dieOf s.ev.cl) s.ev.pid).ctl 0x423).toNat % 2 ^ 32 = 0 ∧ SameMem s s' ∧ s'.dev = s.dev)
       ∧ Performs .snapStatRead s (fun s' => s'.reply = cpCtl s s.ev.cl s.ev.pid 0x300 ∧ cpCtl s' s.ev.cl s.ev.pid 0x300 = 0
           ∧ SameMem s s' ∧ s'.dev = s.dev))

/-- An active message is refused for the first reason that holds, a write that is not one message of its window first of all,
which AM_LOG of the port keeps with its count, and no other register, field or unit changes; else its task stands at the tail
of its queue, clamped to PMAX, with the arguments and not-before time it brings (R251, R253, R424, R425). -/
def Obligations.ActiveMessages : Prop :=
  ∀ (timed : Bool) (s : State),
    let i := if timed then Instr.timedActiveMessage else Instr.activeMessage
    let w := fun (k : Nat) => (s.ev.words.getD k 0).toNat
    let cl := 32 * (w 0 % 8) + w 0 / 8 % 32
    let p := w 0 / 2 ^ 20 % 16
    let q := w 0 / 2 ^ 8 % 16
    let cfg := (cpCtl s cl p (0x190 + q)).toNat
    let bad := w 0 / 2 ^ 19 % 2 ≠ 0 ∨ w 0 / 2 ^ 24 ≠ 0 ∨ w 1 / 2 ^ 48 ≠ 0 ∨ w 1 % 8 ≠ 0
      ∨ (timed = true ∧ (w 5 ≠ 0 ∨ w 6 ≠ 0 ∨ w 7 ≠ 0))
    let fits := if timed then s.ev.n / 2 ^ 16 = 1 ∧ s.ev.n % 64 = 0 ∧ s.ev.id = 64
      else s.ev.n / 2 ^ 16 = 0 ∧ s.ev.n % 32 = 0 ∧ s.ev.id = 32
    let full := 32 ≤ taskCount (queueOf (getCp s cl p) q)
    let refused := fun (r : Nat) => Performs i s (fun s' => OnlyDevice s s'
      ∧ devCtl s' (0x801 + s.ev.unit % 2) % 2 ^ 32 = min (2 ^ 32 - 1) (devCtl s (0x801 + s.ev.unit % 2) % 2 ^ 32 + 1)
      ∧ devCtl s' (0x801 + s.ev.unit % 2) / 2 ^ 32 % 16 = r
      ∧ devCtl s' (0x801 + s.ev.unit % 2) / 2 ^ 36 = devCtl s (0x801 + s.ev.unit % 2) / 2 ^ 36
      ∧ (∀ k, k ≠ 0x801 + s.ev.unit % 2 → devCtl s' k = devCtl s k)
      ∧ s'.dev = { s.dev with ctl := s'.dev.ctl } ∧ s'.reply = s.reply)
    (¬ fits → refused 5)
    ∧ (fits → bad → refused 1)
    ∧ (fits → ¬ bad → inRect s p cl = false → refused 2)
    ∧ (fits → ¬ bad → inRect s p cl = true → cfg % 2 = 0 ∨ cfg / 4 % 2 = 0 → refused 3)
    ∧ (fits → ¬ bad → inRect s p cl = true → cfg % 2 = 1 → cfg / 4 % 2 = 1 → full → refused 4)
    ∧ (fits → ¬ bad → inRect s p cl = true → cfg % 2 = 1 → cfg / 4 % 2 = 1 → ¬ full →
      Performs i s (fun s' => s'.dev = s.dev ∧ SameMem s s' ∧ ∃ e, Appended s s' cl p q e ∧ e.task.pid = p
        ∧ e.work = .fresh (BitVec.ofNat 48 (w 1)) (s.ev.words.getD 2 0) (s.ev.words.getD 3 0)
        ∧ e.prio = min (w 0 / 2 ^ 12 % 128) (cfg / 16 % 128) ∧ e.task.bprio = e.prio
        ∧ e.nbt = if timed then s.ev.words.getD 4 0 else 0))

/-- Boot and firmware: a stage that verifies extends the measurement, one that does not ends the boot with status 2, the last
one ends it with 1 (R432); the window, whose aligned writes of whole words within 16 MiB are taken, others ignored, and which
reads zeros, the commands and the end of a verification (R424, R433); attestation (R434). What a stage's measurement covers
(log 73), and where and in which layout the report is written (log 74), are the model's readings. -/
def Obligations.FirmwareUnits : Prop :=
  ∀ s : State,
    let owner := ownsSema s s.ev.unit = true
    let free := devCtl s 0x861 / 2 ^ 8 % 2 ^ 8 ≠ 1
    let denied := fun (i : Instr) => Performs i s (fun s' => OnlyDevice s s' ∧ s'.dev.fwWindow = s.dev.fwWindow
      ∧ s'.dev.verify = s.dev.verify ∧ s'.dev.attest = s.dev.attest
      ∧ devCtl s' 0x800 / 2 ^ 32 % 2 ^ 16 = min 65535 (devCtl s 0x800 / 2 ^ 32 % 2 ^ 16 + 1)
      ∧ ∀ k, k ≠ 0x800 → devCtl s' k = devCtl s k)
    (∀ st, s.dev.booting = true → (bootList s)[s.dev.boot]? = some st →
      (stageOk st = false → Performs .bootStage s (fun s' => OnlyDevice s s' ∧ s'.dev.booting = false ∧ devCtl s' 0x860 = 2
        ∧ ∀ k, k ≠ 0x860 → devCtl s' k = devCtl s k))
      ∧ (stageOk st = true → Performs .bootStage s (fun s' => OnlyDevice s s' ∧ s'.dev.boot = s.dev.boot + 1
        ∧ (∀ k, k < 8 → devCtl s' (0x868 + k) = leAt (shake256 (measBytes s ++ shake256 st)) (8 * k) 8)
        ∧ (s.dev.boot + 1 = (bootList s).length → s'.dev.booting = false ∧ devCtl s' 0x860 = 1))))
    ∧ (s.ev.flag = true → Performs .fwWindowWrite s (fun s' => s' = { s with reply := 0 }))
    ∧ (owner ∧ free → s.ev.flag = false → s.ev.n % 8 ≠ 0 ∨ s.ev.bytes.length % 8 ≠ 0 ∨ s.ev.bytes = []
        ∨ 2 ^ 24 < s.ev.n + s.ev.bytes.length → Performs .fwWindowWrite s (fun s' => s' = s))
    ∧ (¬ (owner ∧ free) → (s.ev.flag = false → denied .fwWindowWrite) ∧ denied .fwVerifyCommit ∧ denied .fwDiscard)
    ∧ (owner ∧ free → s.ev.flag = false → s.ev.n % 8 = 0 → s.ev.bytes.length % 8 = 0 → s.ev.bytes ≠ [] →
      s.ev.n + s.ev.bytes.length ≤ 2 ^ 24 →
      Performs .fwWindowWrite s (fun s' => OnlyDevice s s' ∧ s'.dev.ctl = s.dev.ctl
        ∧ rdBytes s'.dev.fwWindow s.ev.n s.ev.bytes.length = s.ev.bytes
        ∧ ∀ a, (a < s.ev.n ∨ s.ev.n + s.ev.bytes.length ≤ a) → rdCell s'.dev.fwWindow a = rdCell s.dev.fwWindow a))
    ∧ (owner ∧ free → Performs .fwVerifyCommit s (fun s' => OnlyDevice s s' ∧ s'.dev.verify = true ∧ devCtl s' 0x861 = 2 ^ 8
        ∧ s'.dev.fwWindow = s.dev.fwWindow))
    ∧ (owner ∧ free → Performs .fwDiscard s (fun s' => OnlyDevice s s' ∧ s'.dev.fwWindow = [] ∧ devCtl s' 0x861 = 0))
    ∧ (s.dev.verify = true →
      (fwImage s.dev.fwWindow = none → Performs .fwCmdDone s (fun s' => OnlyDevice s s' ∧ s'.dev.verify = false
        ∧ s'.dev.fwStore = s.dev.fwStore ∧ devCtl s' 0x861 = 3 * 2 ^ 8))
      ∧ (∀ l c k, fwImage s.dev.fwWindow = some l → fwFail l 0 = some (c, k) → c < 2 ^ 8 → k < 2 ^ 8 →
        Performs .fwCmdDone s (fun s' => OnlyDevice s s' ∧ s'.dev.verify = false ∧ s'.dev.fwStore = s.dev.fwStore
          ∧ devCtl s' 0x861 = c * 2 ^ 8 + k * 2 ^ 16))
      ∧ (∀ l, fwImage s.dev.fwWindow = some l → fwFail l 0 = none → Performs .fwCmdDone s (fun s' => OnlyDevice s s'
          ∧ s'.dev.verify = false ∧ s'.dev.fwStore = some l ∧ devCtl s' 0x861 = 2 * 2 ^ 8)))
    ∧ (¬ owner → denied .attestation)
    ∧ (owner → Performs .attestation s (fun s' => OnlyDevice s s' ∧ s'.dev.attest = some (s.ev.unit % 2) ∧ devCtl s' 0x874 = 0))
    ∧ (∀ port, s.dev.attest = some port →
      let a := 2 ^ 64 + port * 2 ^ 63 + devCtl s 0x875 % 2 ^ 63 / 8 * 8
      let r := attReport s ++ Config.attestSign (attReport s)
      Performs .attReportDone s (fun s' => s'.dev.attest = none ∧ devCtl s' 0x874 = 1 ∧ rdBytes s'.mem a r.length = r
        ∧ SameMemBut a r.length s s'))

/-- Time, links, soft errors, cooling and power: TIME_ADJ steps DEV_TIME by its signed nanoseconds, PPS latches and snaps it,
a tie upwards and with no effect when DEV_TIME reads the multiple already (log 72, the model's reading), and a write of
TIME_RATE or TIME_CFG is in its register with the next tick (R431); a retrain counts (R407); a scrub corrects and counts, in a
page store or in another store; a soft error from outside is corrected when it stands alone in its code word, a page-store
word or 32 bytes of HBM, and else only detected (R435; what strikes is the model's input, log 94); the thermal limit and the
power-off trip (R436). -/
def Obligations.BoardEvents : Prop :=
  ∀ s : State,
    (∀ x, s.dev.timePend = [(0x841, x)] → Performs .timeStep s (fun s' => s'.dev.timePend = []
      ∧ (s'.devTime : Int) = ((s.devTime : Int) + x.toInt * (24 * 2 ^ 32)) % (2 ^ 64 * 24 * 2 ^ 32) ∧ s'.cycle = s.cycle
        ∧ SameMem s s'))
    ∧ (∀ r m x, (r, m) ∈ ([(0x842, 2 ^ 32), (0x844, 8)] : List (Nat × Nat)) → s.dev.timePend = [(r, x)] → s.dev.off = false →
      s.agenda = [] → s.cursor = cursorLate → (s.cycle + 1) % 8 = 0 →
      ∃ s', step s = .next s' ∧ s'.cycle = s.cycle + 1 ∧ devCtl s' r = x.toNat % m ∧ s'.dev.timePend = []
        ∧ ∀ k, k ≠ r → devCtl s' k = devCtl s k)
    ∧ (devCtl s 0x844 % 2 = 0 → Performs .ppsEdge s (fun s' => s' = s))
    ∧ (devCtl s 0x844 % 4 = 1 → Performs .ppsEdge s (fun s' => OnlyDevice s s' ∧ devCtl s' 0x843 = (devTimeNs s).toNat))
    ∧ (devCtl s 0x844 % 4 = 3 →
        let near := ((devTimeNs s).toNat + 500000000) / 1000000000 * 1000000000 % 2 ^ 64
        (near ≠ (devTimeNs s).toNat → Performs .ppsEdge s (fun s' => devCtl s' 0x843 = (devTimeNs s).toNat ∧ SameMem s s'
          ∧ s'.devTime = near * (24 * 2 ^ 32)))
        ∧ (near = (devTimeNs s).toNat → Performs .ppsEdge s (fun s' => OnlyDevice s s' ∧ devCtl s' 0x843 = (devTimeNs s).toNat)))
    ∧ Performs .linkRetrain s (fun s' => tabGet s'.dev.retrains s.ev.n = some ((tabGet s.dev.retrains s.ev.n).getD 0 + 1)
        ∧ SameMem s s' ∧ s'.strands = s.strands)
    ∧ (s.ev.flag = false → s.ev.unit = 0 → physCluster s.ev.id ≠ none → Performs .eccScrub s (fun s' => SameMem s s'
      ∧ s'.poison = s.poison
        ∧ (∀ a, a ∈ s'.soft ↔ a ∈ s.soft ∧ ¬ (a < wordOf s.ev.id + 8 ∧ wordOf s.ev.id < a + 8))
        ∧ ctlGet s'.dev.ctl 0x880 = ctlGet s.dev.ctl 0x880 + BitVec.ofNat 64 (softHits s (wordOf s.ev.id) 8)))
    ∧ (s.ev.flag = false → 0 < s.ev.unit →
        let e := (eccStore s.ev.unit, s.ev.cl, s.ev.id)
        (e ∈ s.singles → Performs .eccScrub s (fun s' => SameMem s s' ∧ (∀ x, x ∈ s'.singles ↔ x ∈ s.singles ∧ x ≠ e)
          ∧ ctlGet s'.dev.ctl 0x880 = ctlGet s.dev.ctl 0x880 + 1))
        ∧ (e ∉ s.singles → Performs .eccScrub s (fun s' => s' = s)))
    ∧ (s.ev.flag = true → s.ev.unit = 0 → s.ev.id < 2 ^ 64 →
        let base := if physCluster s.ev.id = none then s.ev.id / 32 * 32 else s.ev.id / 8 * 8
        let len := if physCluster s.ev.id = none then 32 else 8
        let alone := s.ev.n ≠ 1 ∧ ∀ w ∈ s.soft, w + 8 ≤ base ∨ base + len ≤ w
        (alone → Performs .eccScrub s (fun s' => SameMem s s' ∧ s'.poison = s.poison ∧ ∀ w, w ∈ s'.soft ↔ w ∈ s.soft
          ∨ w = wordOf s.ev.id))
        ∧ (¬ alone → Performs .eccScrub s (fun s' => SameMem s s' ∧ ∀ w, w % 8 = 0 → base ≤ w → w < base + len →
            w ∈ s'.poison ∧ w ∉ s'.soft)))
    ∧ (s.ev.flag = true → 0 < s.ev.unit →
        let e := (eccStore s.ev.unit, s.ev.cl, s.ev.id)
        (s.ev.n ≠ 1 → e ∉ s.singles → Performs .eccScrub s (fun s' => s' = { s with singles := e :: s.singles }))
        ∧ (∀ p, s.ev.n = 1 ∨ e ∈ s.singles → s.ev.unit = 2 → (getClu s s.ev.cl).pid = some p → Performs .eccScrub s (fun s' =>
            SameMem s s' ∧ s.ev.id % 16384 ∈ (getCp s' s.ev.cl p).accBad)))
    ∧ Performs .thermalLimit s (fun s' => OnlyDevice s s' ∧ (s.ev.unit % 8 ∈ s'.dev.hot ↔ s.ev.flag = true)
        ∧ ∀ d, d ≠ s.ev.unit % 8 → (d ∈ s'.dev.hot ↔ d ∈ s.dev.hot))
    ∧ Performs .powerOffTrip s (fun s' => s' = { s with dev := { s.dev with off := true } })

/-- Partition commands: taken from HOST_SEMA's owner while none runs, with STATUS 1 until the end takes the result; the checks
of CREATE, in their order, and what it makes; DESTROY, QUOTA, MAP and SWITCH, whose exchange on a cluster moves images to and
from shadow storage and shifts what the incoming partition has booked; a die reset loses what runs and stands there, strands,
operations, continuations, queues and streams, and nothing elsewhere, and tells the die's partitions (R407, R414-R416,
R427-R429). That CREATE answers 3 before 5, and 3 while the boot runs, is log 68, and what a die reset leaves on its die is
log 19: the model's readings. -/
def Obligations.PartitionCommands : Prop :=
  ∀ s : State,
    let p := s.ev.pid % 16
    let rect := rectClusters (partBuf s 0)
    let q6 := partBuf s 6 % 2 ^ 9
    let begun := fun (op : Nat) (r : Option Nat) (s' : State) => s'.dev.cmd = some (op, p, r)
      ∧ devCtl s' 0x810 / 2 ^ 8 % 2 ^ 8 = 1
    (cmdFree s = false → s.ev.n = 0 → ∀ i, i = Instr.partCreate ∨ i = .partDestroy ∨ i = .partSwitch ∨ i = .partQuota
        ∨ i = .partMap →
      Performs i s (fun s' => OnlyDevice s s' ∧ s'.dev.cmd = s.dev.cmd
        ∧ devCtl s' 0x800 / 2 ^ 32 % 2 ^ 16 = min 65535 (devCtl s 0x800 / 2 ^ 32 % 2 ^ 16 + 1)))
    ∧ (∀ op x r, s.dev.cmd = some (op, x, some r) → r < 2 ^ 8 →
      Performs .partCmdDone s (fun s' => OnlyDevice s s' ∧ s'.dev.cmd = none ∧ devCtl s' 0x810 / 2 ^ 8 % 2 ^ 8 = r))
    ∧ (cmdFree s = true →
      (devCtl s 0x860 ≠ 1 ∨ descInvalid s = true → Performs .partCreate s (fun s' => begun 1 (some 3) s' ∧ s'.parts = s.parts))
      ∧ (devCtl s 0x860 = 1 → descInvalid s = false →
        (partExists s p = true → Performs .partCreate s (fun s' => begun 1 (some 5) s' ∧ s'.parts = s.parts))
        ∧ (partExists s p = false → (∃ c ∈ rect, 2 ≤ (getClu s c).members.length) →
          Performs .partCreate s (fun s' => begun 1 (some 4) s' ∧ s'.parts = s.parts))
        ∧ (partExists s p = false → (∀ c ∈ rect, (getClu s c).members.length < 2) → (∃ c ∈ rect, quotaOver s c p q6 = true) →
          Performs .partCreate s (fun s' => begun 1 (some 6) s' ∧ s'.parts = s.parts))
        ∧ (partExists s p = false → (∀ c ∈ rect, (getClu s c).members.length < 2 ∧ quotaOver s c p q6 = false) →
          Performs .partCreate s (fun s' => begun 1 (some 0) s' ∧ SameMem s s'
            ∧ (tabGet s'.parts p).map (·.words) = some ((List.range 8).map (fun i => BitVec.ofNat 64 (partBuf s i)))
            ∧ ∀ c ∈ rect, p ∈ (getClu s' c).members ∧ (getClu s' c).pid = some ((getClu s c).pid.getD p)
              ∧ (getCp s' c p).quota = q6))))
    ∧ (cmdFree s = true → s.ev.n = 0 →
      (partExists s p = true → Performs .partDestroy s (fun s' => begun 2 none s' ∧ s'.parts = s.parts))
      ∧ (partExists s p = false → Performs .partDestroy s (begun 2 (some 5))))
    ∧ (∀ x, s.ev.n = 1 → s.dev.cmd = some (2, x, none) → Performs .partDestroy s (fun s' => s'.dev.cmd = some (2, x, some 0)
        ∧ SameMemButSaved s s' ∧ tabGet s'.parts x = none ∧ (∀ e ∈ s'.strands, e.2.task.pid ≠ x)
          ∧ (∀ t ∈ s'.parked, t.task.pid ≠ x)
        ∧ (∀ c ∈ s'.conts, c.task.pid ≠ x) ∧ (∀ o ∈ s'.ops, o.pid ≠ x) ∧ (∀ e ∈ s'.clParts, e.1 % 16 ≠ x)
        ∧ (∀ e ∈ s'.clusters, e.2.pid ≠ some x ∧ x ∉ e.2.members)))
    ∧ (cmdFree s = true → rectBad (partBuf s 0) = false → partExists s p = true →
        (∀ c ∈ rect, p ∈ (getClu s c).members → quotaOver s c p q6 = false) →
      Performs .partQuota s (fun s' => begun 4 (some 0) s' ∧ SameMem s s'
        ∧ ∀ c ∈ rect, p ∈ (getClu s c).members → (getCp s' c p).quota = q6))
    ∧ (cmdFree s = true → partExists s p = false → Performs .partMap s (begun 5 (some 5)))
    ∧ (∀ x s1, cmdFree s = true → partExists s p = true → hostMap s p = (some x, s1) → x < 2 ^ 63 →
      Performs .partMap s (fun s' => begun 5 (some 0) s' ∧ SameMem s1 s' ∧ ∀ d ∈ partDies s1 p, ∃ e ∈ (getDie s' d).waiting,
        e.kind = 3 ∧ e.pid = p ∧ e.words = [0, 0, 0, BitVec.ofNat 64 (partBuf s 1), BitVec.ofNat 64 (partBuf s 2), 0, 1]))
    ∧ (cmdFree s = true → s.ev.n = 0 → rectBad (partBuf s 0) = false → partExists s p = true →
      Performs .partSwitch s (fun s' => s'.dev.cmd.isSome = true ∧ SameMem s s'
        ∧ ∀ c ∈ rect, p ∈ (getClu s c).members → (getClu s c).pid ≠ some p → (getClu s' c).switching = some (p, tickNow s)))
    ∧ (∀ x y, s.ev.n = 1 → (getClu s s.ev.cl).switching = some (x, y) → halted s s.ev.cl = true →
      Performs .partSwitch s (fun s' => (getClu s' s.ev.cl).pid = some x ∧ (getClu s' s.ev.cl).switching = none
        ∧ ((∀ o ∈ s.ops, o.cl = s.ev.cl → o.out = []) → SameMemButSaved s s')
        ∧ ∀ a, (getClu s s.ev.cl).pid = some a → a ≠ x →
          (let d := tickNow s - (getCp s s.ev.cl x).savedAt
           (getCp s' s.ev.cl x).cal = (getCp s s.ev.cl x).cal.map (fun b => { b with lo := b.lo + d, hi := b.hi + d }))
          ∧ (getCp s' s.ev.cl a).savedAt = tickNow s ∧ (getCp s' s.ev.cl a).cal = (getCp s s.ev.cl a).cal
          ∧ ∀ t ∈ s.parked, t.cl = s.ev.cl → t.task.pid = a → t.task.id ∉ imageTasks s x →
              ∀ e ∈ s'.images, e.1 = t.task.id → e.2.1 = s.ev.cl → e.2.2.2 = true))
    ∧ (let d := s.ev.unit % 8
       Performs .dieReset s (fun s' => SameMemButSaved s s' ∧ s'.parts = s.parts
        ∧ (∀ e ∈ s'.strands, dieOf e.2.cl ≠ d) ∧ (∀ t ∈ s'.parked, dieOf t.cl ≠ d) ∧ (∀ c ∈ s'.conts, dieOf c.cl ≠ d)
        ∧ (∀ o ∈ s'.ops, dieOf o.cl ≠ d) ∧ (getDie s' d).fq = [] ∧ (getDie s' d).endReqs = []
        ∧ (∀ e ∈ s'.clParts, dieOf (e.1 / 16) = d → e.2 = { ({} : ClPart) with ctl := e.2.ctl, quota := e.2.quota })
        ∧ (∀ e ∈ s'.dieParts, e.1 / 16 = d →
            e.2 = { ({} : DiePart) with ctl := e.2.ctl, spill := e.2.spill, nodes := e.2.nodes })
        ∧ (∀ e ∈ s.parts, d ∈ partDies s e.1 → ∀ x ∈ partDies s e.1, ∃ w ∈ (getDie s' x).waiting,
            w.kind = 3 ∧ w.pid = e.1 ∧ w.words = [0, 0, 0, BitVec.ofNat 64 d, 0, 0, 3])
        ∧ ((∀ o ∈ s.ops, o.kind = .coll → dieOf o.cl ≠ d) →
          (∀ e ∈ s.strands, dieOf e.2.cl ≠ d → e ∈ s'.strands) ∧ (∀ t ∈ s.parked, dieOf t.cl ≠ d → t ∈ s'.parked)
          ∧ (∀ c ∈ s.conts, dieOf c.cl ≠ d → c ∈ s'.conts) ∧ (∀ o ∈ s.ops, dieOf o.cl ≠ d → o ∈ s'.ops)
          ∧ (∀ e ∈ s.clParts, (dieOf (e.1 / 16) ≠ d → e ∈ s'.clParts)
            ∧ (dieOf (e.1 / 16) = d → (e.1, { ({} : ClPart) with ctl := e.2.ctl, quota := e.2.quota }) ∈ s'.clParts))
          ∧ (∀ e ∈ s.dieParts, (e.1 / 16 ≠ d → e ∈ s'.dieParts) ∧ (e.1 / 16 = d →
            (e.1, { ({} : DiePart) with ctl := e.2.ctl, spill := e.2.spill, nodes := e.2.nodes }) ∈ s'.dieParts))
          ∧ ∀ x, x ≠ d → (getDie s' x).fq = (getDie s x).fq ∧ (getDie s' x).endReqs = (getDie s x).endReqs)))

/-! ### Engine events -/

/-- One step of a unit: a channel's operation at its head, a fold, a KVAPP, an ATTD or an LFILT (R185, R190, R195-R202, R310,
R317, R349, R398). A unit that others follow leaves its state; the last one completes the operation, which leaves the list,
delivers its result and counts down; one that fails stops it, once the writes of the units before are where its scope demands
(R202). What a unit reads and writes: CPY, CPY2D, GATH and SCAT copy the next 8 bytes, GATH and SCAT with the table entry of
the element, which bit 63 skips (R195-R197); FLD reads its register's value, FST writes its bytes, a vector word by word
(R198, R367); a fold adds a word, or its FP32 or BF16 lanes, at its home (R398); a KVAPP checks, appends token by token and
sets FILL last (R317); an ATTD takes its query and triple, merges the triple of a page and commits it (R310, R311); an LFILT
reads its logits and writes its record (R349-R351); nothing else in memory changes. An address without a translation stops the
operation before the unit. A buffered write goes to its home (R201, R370-R372). -/
def Obligations.EngineUnits : Prop :=
  (∀ (s : State) (o : Op) (i : Instr) (u : State → Op → UnitRes) (k : OpKind → Prop),
       (i, u, k) ∈ ([(.channelUnit, unitData, fun k => k = .cpy ∨ k = .cpy2d ∨ k = .gath ∨ k = .scat ∨ k = .fld ∨ k = .fst),
         (.redmUnit, unitRedm, fun k => k = .redm), (.kvappToken, unitKvapp, fun k => k = .kvapp),
         (.attdPage, unitAttd, fun k => k = .attd), (.lfiltPass, unitLfilt, fun k => k = .lfilt)] :
           List (Instr × (State → Op → UnitRes) × (OpKind → Prop))) →
       s.ev.unit ≠ 1 → Names s o → k o.kind → opReady s o = true → (onChannel o.kind = true → channelHead s o = true) →
       (o.kind = .attd ∨ o.kind = .lfilt → bduReady s o = true) →
       (∀ s1, u s o = .more s1 → Performs i s (fun s' => s' = s1))
       ∧ (∀ x s1 q, u s o = .last x s1 → opFind s1 o.id = some q → Unhindered s1 q →
           Performs i s (fun s' => Finished s1 s' q x q.flags ∧ (isRunning s1 q.task = true → SameMem s1 s')))
       ∧ (∀ c va ix s1, u s o = .stop c va ix s1 → opFind s1 o.id ≠ none → drained s1 o = true →
           Performs i s (fun s' => OpStopped s1 s' o (causeCode c) va ix ∧ SameMem s1 s')))
  ∧ (∀ (s : State) (o : Op) (va : Nat) (w : Bool), s.repl = [] → SameMem s (engAddr s o va w).2)
  ∧ (∀ (s : State) (o : Op), s.ev.flag = false →
       let va := fun (k : Nat) => (o.args.getD k 0).toNat % 2 ^ 48
       let l := (o.args.getD 2 0).toNat % 2 ^ 32
       let die := dieOf o.cl
       (∀ i w rest, (i, o.kind) ∈ ([(.channelUnit, .fst), (.kvappToken, .kvapp), (.attdPage, .attd), (.lfiltPass, .lfilt)] :
             List (Instr × OpKind)) → s.ev.unit ≠ 1 → Names s o → opReady s o = true →
           (onChannel o.kind = true → channelHead s o = true) → (onChannel o.kind = false → bduReady s o = true) →
           o.out = w :: rest → tileLeased s w.addr w.bytes.length = false → bgBusy s o w.addr = false →
           (o.kind = .attd → writesAway s o = false) →
         Performs i s (fun s' => WordGoes s s' o w ∧ ∃ q ∈ s'.ops, q.id = o.id ∧ q.out = rest ∧ q.i = o.i ∧ q.fin = none))
       ∧ (s.ev.unit ≠ 1 → Names s o → opReady s o = true → channelHead s o = true →
         let full := o.args.getD 4 0 != 0
         (o.kind = .cpy → o.i < l → CopiesWord s s o ((va 0 + o.i) % 2 ^ 48) ((va 1 + o.i) % 2 ^ 48) full
             (if o.i + 8 < l then some (o.i + 8, 0) else none))
         ∧ (let rows := (o.args.getD 2 0).toNat / 2 ^ 32 % 2 ^ 16
            let stride := fun (n : Nat) => (BitVec.ofNat 32 ((o.args.getD 3 0).toNat / 2 ^ n)).toInt
            let at' := fun (base n : Nat) => (((base : Int) + (o.i * stride n + o.j)) % (2 ^ 48 : Int)).toNat
            o.kind = .cpy2d → o.i < rows → o.j < l → CopiesWord s s o (at' (va 0) 0) (at' (va 1) 32) full
             (if o.j + 8 < l then some (o.i, o.j + 8) else if o.i + 1 < rows then some (o.i + 1, 0) else none))
         ∧ (let e := (o.args.getD 2 0).toNat / 2 ^ 32 % 2 ^ 16
            let scatter := o.kind = .scat
            let entry := ((if scatter then va 0 else va 1) + 8 * o.i) % 2 ^ 48
            let block := ((if scatter then va 1 else va 0) + (o.i * e + o.j)) % 2 ^ 48
            let index := BitVec.ofNat 64 (2 ^ 32 * o.i + o.j)
            o.kind = .gath ∨ o.kind = .scat → o.i < l → ∀ te s0,
              (o.acc.head? = some te ∧ s0 = s) ∨ (o.acc = [] ∧ ∃ pt x s1, engAddr s o entry false = (.ok (pt, x), s1)
                ∧ eccBad s1 pt 8 = false ∧ bgBusy s1 o pt = false ∧ replPending s1 o = false
                ∧ te = BitVec.ofNat 64 (leNat (engRead s1 die pt 8)) ∧ s0 = seeWrites (correctSoft s1 pt 8) die pt 8) →
            let x := (te.toNat % 2 ^ 48 + o.j) % 2 ^ 48
            (te.getLsbD 63 = true → isRunning s o.task = true → Performs .channelUnit s (fun s' => SameMem s0 s'
              ∧ (o.i + 1 < l → ∃ q ∈ s'.ops, q.id = o.id ∧ q.i = o.i + 1 ∧ q.j = 0 ∧ q.acc = [] ∧ q.fin = none)
              ∧ (l ≤ o.i + 1 → Unhindered s0 o → Finished s0 s' o 0 o.flags)))
            ∧ (te.getLsbD 63 = false → te.toNat % 8 ≠ 0 → drained s0 o = true → Performs .channelUnit s (fun s' =>
                OpStopped s0 s' o 5 (BitVec.ofNat 64 (te.toNat % 2 ^ 48)) index ∧ SameMem s0 s'))
            ∧ (te.getLsbD 63 = false → te.toNat % 8 = 0 →
                CopiesWord s s0 o (if scatter then x else block) (if scatter then block else x) full
                  (if o.j + 8 < e then some (o.i, o.j + 8) else if o.i + 1 < l then some (o.i + 1, 0) else none)))
         ∧ (∀ a x s1, o.kind = .fld → engAddr s o (va 0) false = (.ok (a, x), s1) →
           let sz := (o.args.getD 1 0).toNat % 8
           let n := if sz = 4 then 128 else 2 ^ sz
           let y := leNat (engRead s1 die a n)
           eccBad s1 a n = false → bgBusy s1 o a = false → bankShut s1 a n = false → Unhindered s1 o → isRunning s o.task = true →
           Performs .channelUnit s (fun s' => SameMem s1 s' ∧
             (o.args.getD 2 0 = 0 → Finished s1 s' o y o.flags)
             ∧ (o.args.getD 2 0 ≠ 0 → n ≤ 8 → Finished s1 s' o ((BitVec.ofNat (8 * n) y).signExtend 64).toNat o.flags)))
         ∧ (∀ a x s1, o.kind = .fst → o.out = [] → o.i = 0 → engAddr s o (va 0) true = (.ok (a, x), s1) →
           tileLeased s1 a o.bytes.length = false → bgBusy s1 o a = false →
           (o.bytes.length ≤ 8 → isRunning s o.task = true → Performs .channelUnit s (fun s' =>
             WordGoes s1 s' o (outOf x a o.bytes (o.args.getD 2 0 != 0))
             ∧ (pteRepl x.pte0 = false → homeOf a = die → Unhindered s1 o → Finished s1 s' o 0 o.flags)))
           ∧ (o.bytes.length = 128 → a % 8 = 0 → Performs .channelUnit s (fun s' => SameMem s1 s'
             ∧ ∃ q ∈ s'.ops, q.id = o.id ∧ q.i = 1 ∧ q.fin = none ∧ q.out = (List.range 16).map (fun k =>
                 outOf x (a + 8 * k) ((o.bytes.drop (8 * k)).take 8) (o.args.getD 2 0 != 0)))))
         ∧ (o.kind = .fst → o.out = [] → o.i = 1 → Unhindered s o → Performs .channelUnit s (fun s' => Finished s s' o 0 o.flags))
         ∧ (∀ c s1 w, o.kind = .fld ∧ w = false ∨ (o.kind = .fst ∧ w = true ∧ o.out = [] ∧ o.i = 0) →
           engAddr s o (va 0) w = (.error c, s1) → drained s o = true →
           Performs .channelUnit s (fun s' => OpStopped s s' o (causeCode c) (BitVec.ofNat 64 (va 0)) 0 ∧ SameMem s s'))
         ∧ (∀ pa x s1 pd y s2, o.kind = .redm → o.i < l →
           engAddr s o ((va 1 + o.i) % 2 ^ 48) false = (.ok (pa, x), s1) →
           engAddr s1 o ((va 0 + o.i) % 2 ^ 48) true = (.ok (pd, y), s2) → pd < 2 ^ 40 → s.egress = [] → s.repl = [] →
           eccBad s2 pa 8 = false → eccBad s2 pd 8 = false → bgBusy s2 o pa = false →
           (pteRepl y.pte0 = true → replLeased s2 o.pid y.fri (pd % 32768) 8 = false) →
           o.deps = [] → isRunning s o.task = true →
           let op := (o.args.getD 3 0).toNat
           let n := if op = 0 then 32 else 16
           let part := fun (w : Word) (k : Nat) => w.toNat / 2 ^ (n * k) % 2 ^ n
           let sum := fun (k : Nat) => fpBin xAdd (if op = 0 then .fp32 else .bf16) .rne (part (rd64 s pd) k) (part (rd64 s pa) k)
           let fl : FpFlags := if op = 2 then 0 else (List.range (64 / n)).foldl (fun f k => f ||| (sum k).2) 0
           Performs .redmUnit s (fun s' => SameMemBut pd 8 s s'
             ∧ (op = 2 → rd64 s' pd = rd64 s pd + rd64 s pa)
             ∧ (op < 2 → ∀ k, k < 64 / n → part (rd64 s' pd) k = (sum k).1 % 2 ^ n)
             ∧ (o.i + 8 < l → ∃ q ∈ s'.ops, q.id = o.id ∧ q.i = o.i + 8 ∧ q.flags = o.flags ||| fl ∧ q.fin = none)
             ∧ (l ≤ o.i + 8 → pteRepl y.pte0 = false → Finished s s' o 0 (o.flags ||| fl))
             ∧ (pteRepl y.pte0 = true → replicaClusters s o.pid y.fri ≠ [] → ∃ w, s'.repl = [w] ∧ w.op = o.id ∧ w.seqd = true
               ∧ w.left = replicaClusters s o.pid y.fri ∧ w.bytes = toLe 8 (rd64 s' pd).toNat)))
         ∧ (o.kind = .kvapp → o.out = [] → readsOver s = false → replPending s o = false →
           let n := (o.args.getD 4 0).toNat
           (∀ a k s1 b v s2 bs s3, o.acc = [] →
             (∀ q ∈ s.ops, q.kind = .kvapp → q.cl = o.cl → q.pid = o.pid → q.id < o.id → (q.args.getD 0 0).toNat % 2 ^ 48 ≠ va 0) →
             engAddr s o (va 0) false = (.ok (a, k), s1) → engAddr s1 o (va 1) false = (.ok (b, v), s2) →
             isRunning s o.task = true →
             let rot := cpCtl s2 o.cl o.pid 0x1B0
             (rotEn rot = false → Unhindered s2 o → Performs .kvappToken s (fun s' => Finished s2 s' o (2 ^ 63 + 4) o.flags))
             ∧ (rotEn rot = true → engFetch s2 o (rotVa rot (pteHgrp k.pte1)) 1024 = (.ok bs, s3) →
               let fits := fun (x : TcEnt) => pairOk (recFmt s3 o.pid x.fri) (recBlk s3 o.pid x.fri) = true
                 ∧ recBlk s3 o.pid x.fri = 0 ∧ hgFits bs (contW (recFmt s3 o.pid x.fri)) = true
                 ∧ (contW (recFmt s3 o.pid x.fri) = 2 → hgDh bs % 4 = 0)
               let good := hgOk bs = true ∧ fits k ∧ fits v ∧ pteFill k.pte1 ≤ 64
               (¬ good → Unhindered s3 o → Performs .kvappToken s (fun s' => Finished s3 s' o (2 ^ 63 + 4) o.flags))
               ∧ (good → 64 < pteFill k.pte1 + n → Unhindered s3 o →
                   Performs .kvappToken s (fun s' => Finished s3 s' o (2 ^ 63 + 7) o.flags))
               ∧ (good → pteFill k.pte1 + n ≤ 64 → Performs .kvappToken s (fun s' => SameMem s3 s'
                   ∧ ∃ q ∈ s'.ops, q.id = o.id ∧ q.acc = [BitVec.ofNat 64 (pteFill k.pte1)] ∧ q.bytes = bs))))
           ∧ (∀ j a k s1 b v s2 kw s3 vw s4, o.acc = [j] → o.i < n → engAddr s o (va 0) true = (.ok (a, k), s1) →
             engAddr s1 o (va 1) true = (.ok (b, v), s2) →
             let bs := o.bytes
             let chunks := fun (x : TcEnt) =>
               let w := contW (recFmt s2 o.pid x.fri)
               (List.range (hgNs bs)).flatMap (fun h => (List.range (hgCt bs)).map (fun u =>
                 (((o.i * hgNs bs + h) * hgDh bs + 64 * u) * w / 8, 512 * w * (h * hgCt bs + u) + 8 * w * (j.toNat + o.i),
                   min 64 (hgDh bs - 64 * u) * w / 8)))
             kvRead o (va 2) a (chunks k) s2 = (.ok (kw, false), s3) → kvRead o (va 3) b (chunks v) s3 = (.ok (vw, false), s4) →
             Performs .kvappToken s (fun s' => SameMem s4 s' ∧ ∃ q ∈ s'.ops, q.id = o.id ∧ q.i = o.i + 1
               ∧ q.out = kw.flatMap (fun e => outWords k e.1 e.2 false) ++ vw.flatMap (fun e => outWords v e.1 e.2 false)))
           ∧ (∀ j lk lv, o.acc = [j] → n ≤ o.i → walk s o.pid o.root (va 0 / 32768) = some lk →
             let s1 := setPte s o.pid lk lk.pte0 (setField lk.pte1 40 8 (j.toNat + n))
             walk s1 o.pid o.root (va 1 / 32768) = some lv → Unhindered s o → isRunning s o.task = true →
             Performs .kvappToken s (fun s' => Finished s s' o (j.toNat + n) o.flags
               ∧ SameMem (setPte s1 o.pid lv lv.pte0 (setField lv.pte1 40 8 (j.toNat + n))) s'))))
       ∧ (s.ev.unit ≠ 1 → Names s o → opReady s o = true → bduReady s o = true → o.out = [] → readsOver s = false →
         let dest := va 2
         let dh := (o.args.getD 3 0).toNat / 2 ^ 40 % 2 ^ 9
         let n := (o.args.getD 1 0).toNat / 2 ^ 48 % 2 ^ 13
         let holds := fun (q : Op) (stk com i : Nat) (t : Triple) (f : FpFlags) => q.id = o.id ∧ q.i = i
           ∧ q.acc = (stk :: com :: t.m :: t.l :: t.a).map (BitVec.ofNat 64) ∧ q.flags = o.flags ||| f
         let words := fun (l : List (Nat × Nat × TcEnt)) (t : Triple) (i : Nat) => pieceWords l false (tripleWords t i)
         (o.kind = .attd → writesAway s o = false →
           (∀ q s1, o.acc = [] → (o.args.getD 0 0).getLsbD 63 = true → engFetch s o (va 0) (4 * dh) = (.ok q, s1) →
             Performs .attdPage s (fun s' => SameMem s1 s' ∧ ∃ r ∈ s'.ops, holds r 0 0 0 (Triple.empty dh) 0
               ∧ r.bytes = q ∧ r.out = []))
           ∧ (∀ r s1 q s2, o.acc = [] → (o.args.getD 0 0).getLsbD 63 = false → engFetch s o dest (64 + 4 * dh) = (.ok r, s1) →
             engFetch s1 o (va 0) (4 * dh) = (.ok q, s2) →
             Performs .attdPage s (fun s' => SameMem s2 s' ∧ ∃ x ∈ s'.ops,
               holds x 0 0 (leAt r 8 2 % 2 ^ 13) ⟨leAt r 0 4, leAt r 4 4, f32s (r.drop 64) dh⟩ 0 ∧ x.bytes = q ∧ x.out = []))
           ∧ (∀ g u s1 l s2, o.acc ≠ [] → o.i < n →
             attdCheck s o (if (o.acc.getD 0 0).toNat = 0 then none else some ((o.acc.getD 0 0).toNat - 1)) o.i = (.ok (g, u), s1) →
             let hs := (o.args.getD 0 0).toNat / 2 ^ 54 % 32
             let qpos := ptePos (o.args.getD 3 0)
             let causal := (o.args.getD 0 0).getLsbD 62
             let view := dieView s1 die
             let scores := pageScores view g (f32s o.bytes dh) hs ((o.args.getD 0 0).toNat / 2 ^ 48 % 64) qpos causal
             let kr := tokenReads g.k g.kscale (hs * hgCt g.hg) dh (pageToks g qpos causal)
             let vr := tokenReads g.v g.vscale (hs * hgCt g.hg) dh ((pageLive scores).map (·.1))
             let p := pageTriple view g hs scores
             let m := mergeT ⟨(o.acc.getD 2 0).toNat, (o.acc.getD 3 0).toNat, (o.acc.drop 4).map (·.toNat)⟩ p.1
             ((∃ e ∈ kr ++ vr, eccBad s1 e.2.1 e.2.2 = true) → drained s1 o = true →
               Performs .attdPage s (fun s' => ∃ va, OpStopped s1 s' o 23 va (BitVec.ofNat 64 o.i) ∧ SameMem s1 s'))
             ∧ ((∀ e ∈ kr ++ vr, eccBad s1 e.2.1 e.2.2 = false) →
               engPieces ((kr ++ vr).foldl (fun s e => correctSoft s e.2.1 e.2.2) s1) o true 3 dest (64 + 4 * dh) = (.ok l, s2) →
               Performs .attdPage s (fun s' => SameMem s2 s' ∧ ∃ r ∈ s'.ops, holds r (u + 1) 1 (o.i + 1) m.1 (p.2 ||| m.2)
                 ∧ r.out = words l m.1 (o.i + 1))))
           ∧ (∀ l s1, o.acc ≠ [] → n ≤ o.i → o.acc.getD 1 0 ≠ 1 → engPieces s o true 3 dest (64 + 4 * dh) = (.ok l, s1) →
             Performs .attdPage s (fun s' => SameMem s1 s' ∧ ∃ r ∈ s'.ops, r.id = o.id ∧ r.i = o.i ∧ r.out = words l (attdTriple o) o.i))
           ∧ (o.acc ≠ [] → n ≤ o.i → o.acc.getD 1 0 = 1 → Unhindered s o →
             Performs .attdPage s (fun s' => Finished s s' o 0 o.flags)))
         ∧ (o.kind = .lfilt →
           (o.acc ≠ [] → Unhindered s o → Performs .lfiltPass s (fun s' => Finished s s' o 0 o.flags))
           ∧ (∀ a x s1 ps s2 bs s3 l s4 m s5, o.acc = [] → engAddr s o (va 0) false = (.ok (a, x), s1) →
             let f := recFmt s1 o.pid x.fri
             let sz := if f = 1 then 4 else if f = 2 ∨ f = 3 then 2 else 1
             let v := (o.args.getD 1 0).toNat % 2 ^ 24
             let pages := (List.range ((va 0 + v * sz - 1) / 32768 - va 0 / 32768 + 1)).map (fun k =>
               if k = 0 then va 0 else (va 0 / 32768 + k) * 32768)
             let u := physStack (recPhys s1 o.pid x.fri)
             logitPages (updOp s1 o.id (fun q => { q with unit := u.getD 0 })) o pages = (.ok ps, s2) →
             engFetch s2 o (va 0) (v * sz) = (.ok bs, s3) → u.isSome = true → va 0 % sz = 0 →
             (∀ e ∈ ps, physStack (recPhys s2 o.pid e.2.fri) = u) →
             (∀ e ∈ ps, recFmt s2 o.pid e.2.fri = f ∧ (f = 1 ∨ f = 2 ∨ f = 3) ∧ recBlk s2 o.pid e.2.fri = 0) →
             let probe := (o.args.getD 2 0).toNat / 2 ^ 32
             let pv := (o.args.getD 3 0).getLsbD 48
             let r := filterPass ((List.range v).map (fun j => (decF32 f 0 (leAt bs (sz * j) sz) 0 0).1))
               ((o.args.getD 1 0).toNat / 2 ^ 32 % 2 ^ 9)
               (if (o.args.getD 1 0).getLsbD 41 then some ((o.args.getD 2 0).toNat % 2 ^ 32) else none)
               (if pv then some probe else none)
             engPieces s3 o false 3 ((o.args.getD 3 0).toNat % 2 ^ 48) (64 + 8 * r.list.length) = (.ok l, s4) →
             engPieces s4 o true 3 ((o.args.getD 3 0).toNat % 2 ^ 48) (64 + 8 * r.list.length) = (.ok m, s5) →
             Performs .lfiltPass s (fun s' => SameMem s5 s' ∧ ∃ q ∈ s'.ops, q.id = o.id ∧ q.flags = r.flags ∧ q.acc ≠ []
               ∧ q.out = pieceWords m false (r.list.mapIdx (fun k e => (64 + 8 * k, toLe 4 e.1 ++ toLe 4 e.2))
                   ++ [(0, toLe 8 (r.m + 2 ^ 32 * r.l)), (8, toLe 8 (r.e + 2 ^ 32 * r.sp)),
                     (16, toLe 8 (r.list.length + 2 ^ 32 * probe)), (24, toLe 8 (if pv then 1 else 0)),
                     (32, toLe 8 0), (40, toLe 8 0), (48, toLe 8 0), (56, toLe 8 0)])))))
       ∧ (∀ e, s.ev.unit = 1 → s.ev.n ∈ drainable s → s.egress[s.ev.n]? = some e →
           Performs .channelUnit s (fun s' => rdBytes s'.mem e.addr e.bytes.length = e.bytes
             ∧ SameMemBut e.addr e.bytes.length s s'
             ∧ s'.egress = s.egress.eraseIdx s.ev.n)))

/-- The walker performs a form whole: a page without a leaf completes with failure code 5, PGGET of a record word with the
word, its reserved bits 0 (R7), PGREF with the new count, or with REFCOUNT when the count leaves its range (R174-R176, R402);
PGALLOC makes a record, a zeroed frame and a leaf, PGFREE, PGMAP and PGUNMAP move the count, PGCOW and KVSPLICE map a page a
second time with COW on both leaves, PGSET, PGPIN, PGUNPIN, KVSPLICE.S and KVTRIM write a record or a leaf, PGFILL moves a
frame, PGSPILL queues one (R152, R159, R176-R178, R318, R319); a RAMPSET writes its slope, waits for the copies of the record
that segments hold, and then completes with 0 (R322). A mapping whose pin is set already stays where it is (log 87, the
model's reading). A far atomic at its home reads, combines and writes as one act, and completes with what it read (R373,
R376); a host's timeout stops it with PROTECTION at unit index 1, performed or not (R374). -/
def Obligations.WalkerUnits : Prop :=
  (∀ (s : State) (o : Op), Names s o → Unhindered s o → isRunning s o.task = true →
       let leaf := (leafAt s o.cl o.pid o.root ((o.args.getD 0 0).toNat / 32768 % 2 ^ 33)).1
       let sel := (o.args.getD 2 0).toNat
       (walkerReady s o = true →
         (leaf = none → o.kind = .pgref ∨ o.kind = .pgset ∨ o.kind = .pgfill ∨ o.kind = .pgunmap ∨ o.kind = .pgpin
             ∨ o.kind = .pgunpin ∨ o.kind = .pgspill ∨ (o.kind = .pgget ∧ 2 ≤ sel ∧ sel < 6) →
           Performs .walkerOpComplete s (fun s' => Finished s s' o (2 ^ 63 + 5) o.flags ∧ SameMem s s'))
         ∧ (∀ l, leaf = some l →
           (o.kind = .pgget → 2 ≤ sel → sel < 6 → Performs .walkerOpComplete s (fun s' =>
             Finished s s' o (recWord s o.pid l.fri (sel - 2) &&& ~~~ pageReserved sel).toNat o.flags ∧ SameMem s s'))
           ∧ (o.kind = .pgref → ∀ n : Nat, 0 < n → n < 2 ^ 16 → (n : Int) = recRef s o.pid l.fri + (o.args.getD 1 0).toInt →
             Performs .walkerOpComplete s (fun s' => Finished s s' o n o.flags ∧ recRef s' o.pid l.fri = n))
           ∧ (o.kind = .pgref → (recRef s o.pid l.fri : Int) + (o.args.getD 1 0).toInt < 0
                 ∨ 65535 < (recRef s o.pid l.fri : Int) + (o.args.getD 1 0).toInt →
             Performs .walkerOpComplete s (fun s' => OpStopped s s' o 17 (o.args.getD 0 0) 0 ∧ SameMem s s'))
           ∧ (let p := o.pid
              let fri := l.fri
              let b := o.args.getD 1 0
              let ref := recRef s p fri
              let pins := recPins s p fri
              let ends := fun (x : Nat) (q : State → Prop) =>
                Performs .walkerOpComplete s (fun s' => Finished s s' o x o.flags ∧ q s')
              let kept := fun (x : Nat) => ends x (SameMem s)
              (o.kind = .pgset →
                (sel = 0 → let blk := b.toNat / 16 % 4
                  (128 ≤ b.toNat ∨ attrOk (b.toNat % 16) blk = false → kept (2 ^ 63 + 4))
                  ∧ (b.toNat < 128 → attrOk (b.toNat % 16) blk = true → ends 0 (fun s' => SameMemOff [recAddr s p fri 0] 8 s s'
                    ∧ recWord s' p fri 0 = setField (setField (setField (recWord s p fri 0) 4 4 (b.toNat % 16)) 8 2 blk) 10 1
                        (b.toNat / 64 % 2))))
                ∧ (sel = 1 → (b.getLsbD 15 = true ∨ 2 ^ 48 ≤ b.toNat → kept (2 ^ 63 + 4))
                  ∧ (b.getLsbD 15 = false → b.toNat < 2 ^ 48 → ends 0 (fun s' => SameMemOff [recAddr s p fri 2] 8 s s'
                    ∧ recWord s' p fri 2 = b)))
                ∧ (sel = 2 → (b &&& 0x1FE ≠ b → kept (2 ^ 63 + 4))
                  ∧ (b &&& 0x1FE = b → ends 0 (fun s' => SameMemOff [l.pteAt, l.pteAt + 8] 8 s s'
                    ∧ PteHolds s' l.pteAt ((l.pte0 &&& ~~~ 0x1EE) ||| (b &&& 0x1EE)) l.pte1)))
                ∧ (sel = 3 → (2 ^ 56 ≤ b.toNat → kept (2 ^ 63 + 4))
                  ∧ (b.toNat < 2 ^ 56 → ends 0 (fun s' => SameMemOff [l.pteAt, l.pteAt + 8] 8 s s' ∧ PteHolds s' l.pteAt l.pte0 b))))
              ∧ (o.kind = .pgpin →
                (ptePin l.pte0 = true → kept 1)
                ∧ (ptePin l.pte0 = false → localRec s p fri o.cl = true → pins < 65535 →
                  ends (pins + 1) (fun s' => WrotePte s s' p fri l.pteAt (l.pte0 ||| 16) l.pte1 ref (pins + 1)))
                ∧ (ptePin l.pte0 = false → localRec s p fri o.cl = false → heldElsewhere s o.cl p fri = true → kept (2 ^ 63 + 2)))
              ∧ (o.kind = .pgunpin →
                (ptePin l.pte0 = false → kept 1)
                ∧ (ptePin l.pte0 = true → ends (pins - 1) (fun s' =>
                    WrotePte s s' p fri l.pteAt (l.pte0 &&& ~~~ 16) l.pte1 ref (pins - 1))))
              ∧ (o.kind = .pgspill →
                (held s p fri = true ∨ 0 < pins → kept (2 ^ 63 + 2))
                ∧ (held s p fri = false → pins = 0 → recKind s p fri ≠ 1 → kept 1)
                ∧ (held s p fri = false → pins = 0 → recKind s p fri = 1 → o.i = 0 →
                  let c := locCluster (recWord s p fri 1)
                  (getClu s c).evDemand.length < 8 → Performs .walkerOpComplete s (fun s' => SameMem s s'
                    ∧ (getClu s' c).evDemand = (getClu s c).evDemand ++ [⟨p, fri, 0, o.id, 0, false⟩]
                    ∧ ∃ q ∈ s'.ops, q.id = o.id ∧ q.i = 1 ∧ q.fin = none)))
              ∧ (o.kind = .pgfill →
                (localRec s p fri o.cl = true → kept 1)
                ∧ (localRec s p fri o.cl = false → heldElsewhere s o.cl p fri = true → kept (2 ^ 63 + 2))
                ∧ (localRec s p fri o.cl = false → held s p fri = false →
                  (getCp s o.cl p).quota ≤ framesOf s o.cl p → kept (2 ^ 63 + 3))
                ∧ (∀ f s1, localRec s p fri o.cl = false → held s p fri = false →
                  frameInQuota (leafAt s o.cl p o.root ((o.args.getD 0 0).toNat / 32768 % 2 ^ 33)).2 o.cl p fri = some (f, s1) →
                  s.egress = [] → (∀ q ∈ s.ops, q.out = []) → ends 0 (fun s' =>
                    let r := recAddr s p fri 0
                    (∀ a, (a < r ∨ r + 16 ≤ a) → (a < sramBase o.cl f ∨ sramBase o.cl f + 32768 ≤ a) →
                        rdCell s'.mem a = rdCell s.mem a)
                    ∧ (Apart r 16 (sramBase o.cl f) 32768 → recKind s' p fri = 1 ∧ recWord s' p fri 1 = sramLoc o.cl f
                      ∧ rdBytes s'.mem (sramBase o.cl f) 32768 = rdBytes s.mem (recPhys s p fri) 32768))))
              ∧ (o.kind = .pgunmap → Apart l.pteAt 16 (recAddr s p fri 0) 32 →
                let left := if ptePin l.pte0 then pins - 1 else pins
                (ref = 0 → Performs .walkerOpComplete s (fun s' => OpStopped s s' o 17 (o.args.getD 0 0) 0 ∧ SameMem s s'))
                ∧ (1 < ref → ends (fri % 2 ^ 64) (fun s' => WrotePte s s' p fri l.pteAt 0 0 (ref - 1) left))
                ∧ (ref = 1 → held s p fri = false → recKind s p fri = 1 → ends (fri % 2 ^ 64) (fun s' => PteHolds s' l.pteAt 0 0
                  ∧ recKind s' p fri = 0 ∧ SameMemOff [l.pteAt, l.pteAt + 8, recAddr s p fri 0] 8 s s'
                  ∧ tabGet (getClu s' (locCluster (recWord s p fri 1))).frames (locFrame (recWord s p fri 1)) = none)))))
         ∧ (let p := o.pid
            let s0 := (leafAt s o.cl p o.root ((o.args.getD 0 0).toNat / 32768 % 2 ^ 33)).2
            let b := o.args.getD 1 0
            let vpn := (o.args.getD 0 0).toNat / 32768 % 2 ^ 33
            let ends := fun (x : Nat) (q : State → Prop) =>
              Performs .walkerOpComplete s (fun s' => Finished s s' o x o.flags ∧ q s')
            let kept := fun (x : Nat) => ends x (SameMem s)
            (o.kind = .pgfree →
              let fri := (o.args.getD 0 0).toNat
              let ref := recRef s p fri
              (friOk s p fri = false → kept (2 ^ 63 + 4))
              ∧ (friOk s p fri = true → ref = 0 →
                Performs .walkerOpComplete s (fun s' => OpStopped s s' o 17 (o.args.getD 0 0) 0 ∧ SameMem s s'))
              ∧ (friOk s p fri = true → 1 < ref → ends 0 (fun s' => recRef s' p fri = ref - 1
                ∧ SameMemOff [recAddr s p fri 0] 8 s s'))
              ∧ (friOk s p fri = true → ref = 1 → held s p fri = false →
                nodeKids (setRef s p fri 0) p 1 fri = [] → ends 1 (fun s' => recKind s' p fri = 0
                  ∧ SameMemOff [recAddr s p fri 0] 8 s s')))
            ∧ (o.kind = .pgalloc →
              let blk := b.toNat / 16 % 4
              (2 ^ 12 ≤ b.toNat ∨ attrOk (b.toNat % 16) blk = false → kept (2 ^ 63 + 4))
              ∧ (b.toNat < 2 ^ 12 → attrOk (b.toNat % 16) blk = true → leaf ≠ none → kept (2 ^ 63 + 6))
              ∧ (b.toNat < 2 ^ 12 → attrOk (b.toNat % 16) blk = true → leaf = none → (freeRecord s0 p).1 = none → kept (2 ^ 63 + 3))
              ∧ (∀ fri s1 f s2 a, b.toNat < 2 ^ 12 → attrOk (b.toNat % 16) blk = true → leaf = none →
                freeRecord s0 p = (some fri, s1) → frameInQuota s1 o.cl p fri = some (f, s2) →
                PathTo (newRecord s2 p fri 1 (b.toNat % 16) blk (b.toNat / 64 % 2) 1 0 (sramLoc o.cl f) 0) p o.root vpn a →
                let r := recAddr s p fri 0
                let frame := sramBase o.cl f
                ends fri (fun s' =>
                  (∀ x, (x < r ∨ r + 32 ≤ x) → (x < a ∨ a + 16 ≤ x) → (x < frame ∨ frame + 32768 ≤ x) →
                    rdCell s'.mem x = rdCell s.mem x)
                  ∧ rdBytes s'.mem frame 32768 = List.replicate 32768 0
                  ∧ (b.getLsbD 9 = true → ∀ x, x % 8 = 0 → frame ≤ x → x < frame + 32768 → feGet s' x = false)
                  ∧ (Apart a 16 frame 32768 → PteHolds s' a (BitVec.ofNat 64 (1 + 2 * (b.toNat / 128 % 2) + 4 * (b.toNat / 256 % 2)
                      + 256 * (b.toNat / 512 % 2) + 64 * (b.toNat / 1024 % 2) + 128 * (b.toNat / 2048 % 2) + 2 ^ 32 * fri)) 0)
                  ∧ (Apart r 32 frame 32768 → Apart r 32 a 16 → recKind s' p fri = 1 ∧ recFmt s' p fri = b.toNat % 16
                      ∧ recBlk s' p fri = blk ∧ recAxis s' p fri = b.toNat / 64 % 2 ∧ recRef s' p fri = 1 ∧ recPins s' p fri = 0
                      ∧ recWord s' p fri 1 = sramLoc o.cl f))))
            ∧ (o.kind = .pgmap →
              let fri := b.toNat
              let ref := recRef s p fri
              (friOk s p fri = false → kept (2 ^ 63 + 4))
              ∧ (friOk s p fri = true → leaf ≠ none → kept (2 ^ 63 + 6))
              ∧ (∀ a, friOk s p fri = true → leaf = none → PathTo s p o.root vpn a →
                (ref < 65535 → ends (ref + 1) (fun s' => SameMemOff [a, a + 8, recAddr s p fri 0] 8 s s'
                  ∧ PteHolds s' a (BitVec.ofNat 64 (1 + (2 * sel &&& 0x1EE) + 2 ^ 32 * fri)) 0
                  ∧ (Apart a 16 (recAddr s p fri 0) 8 → recRef s' p fri = ref + 1)))
                ∧ (65535 ≤ ref → Performs .walkerOpComplete s (fun s' => OpStopped s s' o 17 (o.args.getD 0 0) 0 ∧ SameMem s s'))))
            ∧ (∀ src l w1, (o.kind = .pgcow ∧ src = (leafAt s0 o.cl p o.root (b.toNat / 32768 % 2 ^ 33)).1 ∧ w1 = l.pte1
                  ∧ leaf = none)
                ∨ (o.kind = .kvsplice ∧ src = walk s p o.root (b.toNat % 2 ^ 48 / 32768)
                  ∧ w1 = BitVec.ofNat 64 (ptePos (o.args.getD 2 0) + 2 ^ 40 * pteFill l.pte1 + 2 ^ 48 * pteHgrp (o.args.getD 2 0))
                  ∧ spliceBad (o.args.getD 2 0) = false ∧ walk s p o.root ((o.args.getD 0 0).toNat % 2 ^ 48 / 32768) = none) →
              (src = none → kept (2 ^ 63 + 5))
              ∧ (∀ a, src = some l → PathTo s p o.root vpn a → recRef s p l.fri < 65535 → l.fri < 2 ^ 31 → ends l.fri (fun s' =>
                SameMemOff [a, a + 8, l.pteAt, l.pteAt + 8, recAddr s p l.fri 0] 8 s s'
                ∧ PteHolds s' l.pteAt (l.pte0 ||| 8) l.pte1
                ∧ (Apart a 16 l.pteAt 16 →
                    PteHolds s' a (BitVec.ofNat 64 (1 + (pteAttr l.pte0 ||| 8) + 2 ^ 32 * l.fri)) w1)
                ∧ (Apart a 16 (recAddr s p l.fri 0) 8 → Apart l.pteAt 16 (recAddr s p l.fri 0) 8 →
                    recRef s' p l.fri = recRef s p l.fri + 1))))
            ∧ (∀ at0, at0 = walk s p o.root ((o.args.getD 0 0).toNat % 2 ^ 48 / 32768) →
              (o.kind = .kvspliceS → spliceBad b = true → kept (2 ^ 63 + 4))
              ∧ (o.kind = .kvtrim → 256 ≤ b.toNat → kept (2 ^ 63 + 4))
              ∧ (at0 = none → (o.kind = .kvspliceS ∧ spliceBad b = false) ∨ (o.kind = .kvtrim ∧ b.toNat < 256) → kept (2 ^ 63 + 5))
              ∧ (∀ l, at0 = some l →
                (o.kind = .kvspliceS → spliceBad b = false →
                  let w := BitVec.ofNat 64 (ptePos b + 2 ^ 40 * pteFill l.pte1 + 2 ^ 48 * pteHgrp b)
                  (w = l.pte1 → kept 1)
                  ∧ (w ≠ l.pte1 → ends 0 (fun s' => SameMemOff [l.pteAt, l.pteAt + 8] 8 s s' ∧ PteHolds s' l.pteAt l.pte0 w)))
                ∧ (o.kind = .kvtrim → b.toNat < 256 →
                  (pteFill l.pte1 ≤ b.toNat → kept 1)
                  ∧ (b.toNat < pteFill l.pte1 → ends 0 (fun s' => SameMemOff [l.pteAt, l.pteAt + 8] 8 s s'
                    ∧ PteHolds s' l.pteAt l.pte0 (setField l.pte1 40 8 b.toNat))))))
            ∧ (∀ l, o.kind = .rampset →
              let a := (o.args.getD 0 0).toNat
              let rot := cpCtl s o.cl p 0x1B0
              let va := rotVa rot (a % 256)
              rotEn rot = true → a < 2 ^ 14 → b.toNat < 2 ^ 32 → o.args.getD 2 0 = 0 → walk s p o.root (va / 32768) = some l →
              (pteW l.pte0 = false ∨ pteCow l.pte0 = true ∨ pteRepl l.pte0 = true → kept (2 ^ 63 + 8))
              ∧ (pteW l.pte0 = true → pteCow l.pte0 = false → pteRepl l.pte0 = false →
                let at' := recPhys s p l.fri + va % 32768 + 576 + 4 * (a / 256 % 64)
                let here := ∃ e ∈ s.clParts, e.1 % 16 = p ∧ ∃ r ∈ e.2.rotary, r.hgrp = a % 256 ∧ rotHeld s r.num = true
                (¬ here → ends 0 (fun s' => rdN s' at' 4 = b.toNat ∧ SameMemBut at' 4 s s'))
                ∧ (here → Performs .walkerOpComplete s (fun s' => rdN s' at' 4 = b.toNat ∧ SameMemBut at' 4 s s'
                  ∧ ∃ q ∈ s'.ops, q.id = o.id ∧ q.i = 1 ∧ q.acc ≠ [] ∧ q.fin = none))))))
       ∧ (o.kind = .rampset → o.i = 1 → (∀ n ∈ o.acc, rotHeld s n.toNat = false) →
           Performs .rampsetComplete s (fun s' => Finished s s' o 0 o.flags ∧ SameMem s s')))
  ∧ (∀ (s : State) (o : Op) (a : Nat) (e : TcEnt) (s1 : State), s.ops.find? (fun q => q.id == s.ev.id) = some o →
       atomReady s o = true → o.i = 0 → isRunning s o.task = true → Unhindered s o →
       engAddr s o ((o.args.getD 0 0).toNat % 2 ^ 48) true = (.ok (a, e), s1) →
       let n := (o.args.getD 4 0).toNat
       let w := 8 * n
       let x := rdN s a n
       let r := atomNew (o.args.getD 3 0).toNat w x ((o.args.getD 1 0).toNat % 2 ^ w) ((o.args.getD 2 0).toNat % 2 ^ w)
       let done := fun (s' : State) => match r.1 with
         | some v => rdBytes s'.mem a n = toLe n v ∧ SameMemBut a n s s'
         | none => SameMem s s'
       (∀ q ∈ s.egress, q.src = dieOf o.cl → meets a n q = false) →
       (s.ev.flag = false → eccBad s a n = false → tileLeased s a n = false → pteRepl e.pte0 = false →
         Performs .farAtomicPerform s (fun s' => done s' ∧ Finished s s' o x (o.flags ||| r.2)))
       ∧ (s.ev.flag = false → eccBad s a n = true → Performs .farAtomicPerform s (fun s' =>
         OpStopped s s' o 23 (BitVec.ofNat 64 ((o.args.getD 0 0).toNat % 2 ^ 48)) 0 ∧ SameMem s s'))
       ∧ (2 ^ 64 ≤ a → Performs .completionTimeout s (fun s' => (done s' ∨ SameMem s s')
         ∧ OpStopped s s' o 11 (o.args.getD 0 0) 1)))

/-- Messages and launches arrive (R252, R261, R262, R382, R386-R388): MSG_RECV counts either way; the entry stands at the tail
of its queue, or the operation completes with the failure the queue or the inbox gives. Die queues: a send that the next
number fits is sequenced and counted, any other stops with SEQUENCE; the oldest one on its way enters a queue with room, and
the continuations that wait for that queue fire (R228, R355, R356). A write to a replicated page is performed at its home,
then by each replica in the order of the sequencer (R371). -/
def Obligations.Arrivals : Prop :=
  (∀ (s : State) (o : Op), Names s o → msgReady s o = true → Unhindered s o → isRunning s o.task = true →
       let recv := fun (c : Nat) (s' : State) => (getCp s' c o.pid).msgRecv = ((getCp s c o.pid).msgRecv + 1) % 2 ^ 48
       (o.kind = .launch →
         let c := o.unit
         let cfg := (cpCtl s c o.pid (0x190 + o.i)).toNat
         let w := fun k => o.args.getD (k + 1) 0
         let q := fun (s : State) => queueOf (getCp s c o.pid) o.i
         let fails := fun (k : Nat) => Performs .launchArrival s (fun s' => Finished s s' o (2 ^ 63 + k) o.flags ∧ recv c s'
           ∧ q s' = q s ∧ SameMem s s')
         (cfg / 2 % 2 = 0 → o.sup = false → fails 3)
         ∧ (cfg / 2 % 2 = 1 ∨ o.sup = true → cfg % 2 = 0 → fails 2)
         ∧ (cfg / 2 % 2 = 1 ∨ o.sup = true → cfg % 2 = 1 → 32 ≤ taskCount (q s) → fails 1)
         ∧ (cfg / 2 % 2 = 1 ∨ o.sup = true → cfg % 2 = 1 → taskCount (q s) < 32 → Performs .launchArrival s (fun s' =>
           Finished s s' o 0 o.flags ∧ recv c s' ∧ SameMem s s' ∧ ∃ e, Appended s s' c o.pid o.i e
             ∧ e.work = .fresh ((w 0).setWidth 48) (w 1) (w 2) ∧ e.prio = min ((w 0).toNat / 2 ^ 48 % 128) (cfg / 16 % 128)
             ∧ e.nbt = w 3 ∧ e.task.pid = o.pid)))
       ∧ (o.kind = .msend → targetPkg (o.args.getD 0 0) = Config.torus.toNat → s.ev.unit ≠ 1 →
         let c := targetCl (o.args.getD 0 0)
         let k := getCp s c o.pid
         (k.inbox.length < 64 → Performs .msendDelivery s (fun s' => Finished s s' o 0 o.flags ∧ recv c s' ∧ SameMem s s'
           ∧ (getCp s' c o.pid).inbox = k.inbox ++
             [⟨msgHeader o.bytes.length ((o.args.getD 0 0).toNat / 2 ^ 48) o.cl Config.torus.toNat, o.bytes⟩]))
         ∧ (64 ≤ k.inbox.length → Performs .msendDelivery s (fun s' => Finished s s' o (2 ^ 63 + 1) o.flags ∧ recv c s'
           ∧ SameMem s s'
           ∧ (getCp s' c o.pid).inbox = k.inbox))))
  ∧ (∀ (s : State) (o : Op), Names s o →
       let w := o.args.getD 0 0
       let d := dieOf o.cl
       let tx := (tabGet (getDp s d o.pid).dqTx (dqDie w)).getD 0
       (dqReady s o = true →
         (dqSeq w = tx → Performs .dqsendSequenced s (fun s' => SameMem s s'
           ∧ tabGet (getDp s' d o.pid).dqTx (dqDie w) = some ((tx + 1) % 2 ^ 16) ∧ ∃ q ∈ s'.ops, q.id = o.id ∧ q.i = 1))
         ∧ (dqSeq w ≠ tx → Performs .dqsendSequenced s (fun s' => OpStopped s s' o 15 0 0 ∧ SameMem s s'
           ∧ (getDp s' d o.pid).dqTx = (getDp s d o.pid).dqTx)))
       ∧ (let q := (tabGet (getDp s (dqDie w) o.pid).dqIn d).getD []
         o.kind = .dqsend → o.i = 1 → q.length < 64 → (∀ p ∈ s.ops, sameQueue o p = true → p.i = 1 → p.fin = none → o.j ≤ p.j) →
         Unhindered s o → s.egress = [] → s.repl = [] → isRunning s o.task = true →
         Performs .dqEntryArrive s (fun s' => Finished s s' o 0 o.flags ∧ SameMem s s'
           ∧ s'.conts = s.conts.map (fun c => if c.event = 6 ∧ dieOf c.cl = dqDie w ∧ c.task.pid = o.pid ∧ c.evarg.toNat % 8 = d then
               { c with fired := true } else c)
           ∧ tabGet (getDp s' (dqDie w) o.pid).dqIn d = some (q ++ [(dqSeq w, o.bytes)]))))
  ∧ (∀ (s : State) (w : ReplWrite), s.repl[s.ev.n]? = some w →
       (let a := recPhys s w.pid w.fri + w.off
        w.seqd = false → (∀ e ∈ s.repl.take s.ev.n, e.seqd = true ∨ e.unit ≠ w.unit ∨ e.pid ≠ w.pid) →
         replicaClusters s w.pid w.fri ≠ [] → tileLeased s a w.bytes.length = false →
         replLeased s w.pid w.fri w.off w.bytes.length = false →
         Performs .replWriteSequence s (fun s' => rdBytes s'.mem a w.bytes.length = w.bytes ∧ SameMemBut a w.bytes.length s s'
           ∧ s'.repl = s.repl.eraseIdx s.ev.n ++ [{ w with seqd := true, left := replicaClusters s w.pid w.fri }]))
       ∧ (∀ f, w.seqd = true → s.ev.cl ∈ w.left → setDel w.left s.ev.cl ≠ [] →
         (∀ e ∈ s.repl.take s.ev.n, e.seqd = true → e.pid = w.pid → s.ev.cl ∉ e.left) →
         replicaOf s s.ev.cl w.pid w.fri = some f →
         let a := 2 ^ 40 + (s.ev.cl * 256 + f) * 32768 + w.off
         tileLeased s a w.bytes.length = false →
         Performs .replWriteSequence s (fun s' => rdBytes s'.mem a w.bytes.length = w.bytes ∧ SameMemBut a w.bytes.length s s'
           ∧ s'.repl = s.repl.set s.ev.n { w with left := setDel w.left s.ev.cl })))

/-- A domain at its home: an arrival counts; the last one raises GEN, returns ARR to 0 and tells the members, or begins the
sweeps of a phase, and what arrives while those run counts toward the next phase (log 45, the model's reading); a KIND 0
domain, whose home is its member, fires what waits there at once; the news of a GEN fires what waits at a member for another
than the domain's, strands that are stopping to wait for it among them; a sweep reads each member's counters, and the phase
ends when two sweeps in a row balance and agree (R381, R382). DOMSET and DOMGET at the home (R379, R380, R383): a malformed
selector or membership completes with failure code 4, a domain in use with 2; DOMSET sets the membership with no arrivals
counted, DOMGET answers the word, GEN with ARR, or a message counter. -/
def Obligations.DomainEvents : Prop :=
  ((∀ (s : State) (f : Flight), s.flights[s.ev.n]? = some f →
       let d := getDom s f.pid f.sel f.inst
       let tot := domTot s f.pid f.sel f.inst d.word
       let d' := fun (s' : State) => getDom s' f.pid f.sel f.inst
       (f.kind = 0 → s.ev.flag = false → selKind f.sel < 2 ∨ partExists s f.pid = true →
         (d.arr + 1 < tot → d.sweep = 0 → Performs .domainArrival s (fun s' => (d' s').arr = d.arr + 1 ∧ (d' s').gen = d.gen
           ∧ (d' s').sweep = 0 ∧ s'.flights = s.flights.eraseIdx s.ev.n ∧ SameMem s s'))
         ∧ (d.sweep ≠ 0 → Performs .domainArrival s (fun s' => (d' s').arr = d.arr ∧ (d' s').later = d.later ++ [f.phase]
           ∧ (d' s').gen = d.gen ∧ (d' s').sweep = d.sweep ∧ s'.flights = s.flights.eraseIdx s.ev.n ∧ SameMem s s'))
         ∧ (tot ≤ d.arr + 1 → d.sweep = 0 → d.phase = false → f.phase = false → Performs .domainArrival s (fun s' =>
           (d' s').arr = 0 ∧ (d' s').gen = (d.gen + 1) % 2 ^ 16 ∧ SameMem s s'
           ∧ (selKind f.sel = 0 → s'.flights = s.flights.eraseIdx s.ev.n
             ∧ Told s s' f.pid f.sel f.inst ((d.gen + 1) % 2 ^ 16))
           ∧ (selKind f.sel ≠ 0 → s'.flights = s.flights.eraseIdx s.ev.n
             ++ (domMembers f.sel f.inst d.word).map (fun c => ⟨1, f.pid, f.sel, f.inst, c, false, (d.gen + 1) % 2 ^ 16⟩))))
         ∧ (tot ≤ d.arr + 1 → d.sweep = 0 → d.phase = true ∨ f.phase = true → Performs .domainArrival s (fun s' =>
           (d' s').sweep = 1 ∧ (d' s').gen = d.gen ∧ (d' s').arr = d.arr + 1 ∧ SameMem s s')))
       ∧ (f.kind = 1 → Performs .domainCompletion s (fun s' => SameMem s s' ∧ s'.flights = s.flights.eraseIdx s.ev.n
           ∧ Told s s' f.pid f.sel f.cl (getDom s f.pid f.sel (domInst f.sel f.cl)).gen)))
     ∧ (∀ (s : State),
       let p := s.ev.pid
       let sel := s.ev.unit
       let inst := s.ev.cl
       let d := getDom s p sel inst
       let d' := fun (s' : State) => getDom s' p sel inst
       let left := (domMembers sel inst d.word).filter (fun c => !(d.read.any (fun e => e.1 == c)))
       let cnt := fun (c : Nat) => (c, (getCp s c p).msgSent, (getCp s c p).msgRecv)
       d.sweep ≠ 0 → selKind sel < 3 → selKind sel < 2 ∨ partExists s p = true → (∀ c ∈ domMembers sel inst d.word, c < 256) →
       (∀ c, 1 < left.length → left[s.ev.n % left.length]? = some c → Performs .phaseSweep s (fun s' => SameMem s s'
         ∧ (d' s').read = d.read ++ [cnt c] ∧ (d' s').sweep = d.sweep ∧ (d' s').gen = d.gen))
       ∧ (∀ c, left = [c] →
         let sums := (((d.read ++ [cnt c]).map (fun e => e.2.1)).sum % 2 ^ 48, ((d.read ++ [cnt c]).map (fun e => e.2.2)).sum % 2 ^ 48)
         (sums.1 = sums.2 → d.last = some sums → d.later.length < domTot s p sel inst d.word →
           Performs .phaseSweep s (fun s' => SameMem s s'
             ∧ (d' s').gen = (d.gen + 1) % 2 ^ 16 ∧ (d' s').sweep = 0 ∧ (d' s').arr = d.later.length
             ∧ (selKind sel = 0 → Told s s' p sel inst ((d.gen + 1) % 2 ^ 16))))
         ∧ (sums.1 ≠ sums.2 ∨ d.last ≠ some sums → Performs .phaseSweep s (fun s' => SameMem s s'
           ∧ (d' s').gen = d.gen ∧ (d' s').sweep = d.sweep + 1 ∧ (d' s').read = [] ∧ (d' s').last = some sums)))))
  ∧ (∀ (s : State) (o : Op), Names s o → opReady s o = true → Unhindered s o → isRunning s o.task = true →
       let w := o.args.getD 0 0
       let x := o.args.getD 1 0
       let sel := w.toNat % 64
       let inst := domInst sel o.cl
       let d := getDom s o.pid sel inst
       let ends := fun (r : Nat) (p : State → Prop) =>
         Performs .domainRequestAtHome s (fun s' => Finished s s' o r o.flags ∧ SameMem s s' ∧ p s')
       let used := 0 < d.arr ∨ d.sweep ≠ 0 ∨ ∃ c ∈ s.colls, c.pid = o.pid ∧ c.sel = sel ∧ c.inst = inst ∧ c.cancelled = false
       (o.kind = .domset →
         (64 ≤ w.toNat ∨ memOkWord s o.pid sel x = false → ends (2 ^ 63 + 4) (fun s' => getDom s' o.pid sel inst = d))
         ∧ (w.toNat < 64 → memOkWord s o.pid sel x = true → used → ends (2 ^ 63 + 2) (fun s' => getDom s' o.pid sel inst = d))
         ∧ (w.toNat < 64 → memOkWord s o.pid sel x = true → ¬ used → selKind sel < 2 ∨ partExists s o.pid = true →
           ends 0 (fun s' => (getDom s' o.pid sel inst).word = x ∧ (getDom s' o.pid sel inst).arr = 0
             ∧ (getDom s' o.pid sel inst).gen = d.gen)))
       ∧ (o.kind = .domget →
         (64 ≤ w.toNat ∨ 4 ≤ x.toNat → ends (2 ^ 63 + 4) (fun _ => True))
         ∧ (w.toNat < 64 → x = 0 → ends d.word.toNat (fun _ => True))
         ∧ (w.toNat < 64 → x = 1 → d.gen < 2 ^ 16 →
           ends (d.gen + 2 ^ 16 * (d.arr % 2 ^ 32) + (if d.sweep = 0 then 0 else 2 ^ 48)) (fun _ => True))
         ∧ (w.toNat < 64 → x = 2 → ends (getCp s o.cl o.pid).msgSent (fun _ => True))
         ∧ (w.toNat < 64 → x = 3 → ends (getCp s o.cl o.pid).msgRecv (fun _ => True))))

/-- A collective: the pairs of its members are compared once all have issued, and a difference stops every member with LAYOUT;
a wave with a member in this package reads an element at one hop, adds one at the next, whose flags go to its ring's
operations (log 47, the model's reading), and writes it where it ends, element by element and hop by hop; a member for which
no wave is left completes with 0 (R391, R394, R396). -/
def Obligations.CollectiveEvents : Prop :=
  (∀ (s : State) (c : Coll) (o : Op) (rest : List Op), s.colls.find? (fun x => x.num == s.ev.id) = some c →
    c.checked = false → c.cancelled = false →
    s.ops.filter (fun o => c.ops.any (fun e => e.2 == o.id)) = o :: rest → c.ops.length = c.members.length →
    (∀ q ∈ o :: rest, q.stopped = false) →
    (s.ev.flag = true ∨ (∃ q ∈ rest, samePair o q = false) → Performs .collLayoutCheck s (fun s' => SameMem s s'
      ∧ ∀ q ∈ o :: rest, (∃ r ∈ s'.ops, r.id = q.id ∧ r.stopped = true)
        ∧ ∃ e ∈ (getDie s' (dieOf q.cl)).waiting, e.kind = 1 ∧ e.cause = 14 ∧ e.subject = .op q.id))
    ∧ (∀ a e, s.ev.flag = false → (∀ q ∈ rest, samePair o q = true) → exchangeOf (opLayouts o).1 (opLayouts o).2 = some (a, e) →
      Performs .collLayoutCheck s (fun s' => SameMem s s' ∧ s'.ops = s.ops ∧ ∃ c' ∈ s'.colls, c'.num = c.num ∧ c'.checked = true
        ∧ c'.pair = o.args ∧ c'.waves = (wavesOf (opLayouts o).1 a
            (domSize s c.pid c.sel c.inst (getDom s c.pid c.sel c.inst).word) e).filter (fun w => w.ring.any (collHere s c)))))
  ∧ (∀ (s : State) (c : Coll) (w : Wave) (o : Op) (id a pa : Nat) (e : Exchange) (x : TcEnt) (s1 : State) (p : Nat × Nat),
    s.colls.find? (fun x => x.num == s.ev.id && x.checked) = some c → c.waves[s.ev.n]? = some w →
    collMember s c (w.ring.getD w.hop 0) = some id → opFind s id = some o → opReady s o = true → s.ev.flag = false →
    exchangeOf (opLayouts o).1 (opLayouts o).2 = some (a, e) →
    (wavePairs (opLayouts o).1 (opLayouts o).2 a e w)[w.elem]? = some p →
    w.hop < w.ring.length →
    let len := (wavePairs (opLayouts o).1 (opLayouts o).2 a e w).length
    let k := hopKind e ((opLayouts o).1.size a) w.hop
    let n := (opLayouts o).1.esz
    let va := ((if k = 2 then (opLayouts o).2 else (opLayouts o).1).base + n * (if k = 2 then p.2 else p.1)) % 2 ^ 48
    engAddr s o va (k == 2) = (.ok (pa, x), s1) →
    let goes := fun (vals : List Nat) (s' : State) => ∃ c' ∈ s'.colls, c'.num = c.num
      ∧ (w.elem + 1 < len → c'.waves = c.waves.set s.ev.n { w with elem := w.elem + 1, vals := vals })
      ∧ (len ≤ w.elem + 1 → w.hop + 1 < w.ring.length →
          c'.waves = c.waves.set s.ev.n { w with elem := 0, hop := w.hop + 1, vals := vals })
      ∧ (len ≤ w.elem + 1 → w.ring.length ≤ w.hop + 1 → c'.waves = c.waves.eraseIdx s.ev.n)
    (s.repl = [] → SameMem s s1)
    ∧ (k = 0 → eccBad s1 pa n = false → bankShut s1 pa n = false → Performs .collHop s (fun s' => SameMem s1 s'
      ∧ goes (w.vals ++ [leNat (engRead s1 (dieOf o.cl) pa n)]) s'))
    ∧ (k = 1 → eccBad s1 pa n = false → bankShut s1 pa n = false →
      let r := fpBin xAdd (if (opLayouts o).1.fmt = 1 then .fp32 else .bf16) .rne (w.vals.getD w.elem 0)
        (leNat (engRead s1 (dieOf o.cl) pa n))
      (∀ m ∈ w.ring, ∀ q, collMember s c m = some q → opFind s q ≠ none) →
      Performs .collHop s (fun s' => SameMem s1 s' ∧ goes (w.vals.set w.elem r.1) s'
        ∧ ∀ m ∈ w.ring, ∀ n q, collMember s c m = some n → opFind s n = some q →
            ∃ q', opFind s' n = some q' ∧ q'.flags = q.flags ||| r.2))
    ∧ (k = 2 → tileLeased s1 pa n = false → pteRepl x.pte0 = false → homeOf pa = dieOf o.cl → Performs .collHop s (fun s' =>
      rdBytes s'.mem pa n = toLe n (w.vals.getD w.elem 0) ∧ SameMemBut pa n s1 s' ∧ goes w.vals s')))
  ∧ (∀ (s : State) (o : Op) (c : Coll), Names s o → o.kind = .coll → opReady s o = true → Unhindered s o →
    isRunning s o.task = true → s.colls.find? (fun c => c.ops.any (fun e => e.2 == o.id) && c.checked) = some c →
      memberDone s c o.id = true →
    Performs .collComplete s (fun s' => Finished s s' o 0 o.flags ∧ SameMem s s'))

/-! ### Fault, Sieve and stream events -/

/-- The oldest waiting event of a die takes the lowest free slot, once there is one and room in the queue. With its vector
readable it takes an entry of the privileged fault queue at the entry point of its cause; else FLT_LOST counts it, and a
notice gives its slot back (R249, R404-R407). RESUME and ABORT requests take effect at the boundary after their tick (R422):
without a record code 1, a notice 1, a dead record 2, a placement that its queue does not take 3, an image that fails R410 4,
and the record stays; else the result is 0 and the slot is free (R405). RESUME lets an engine operation or a batch go on, puts
a strand's remainder or a placement's entry into its queue; ABORT completes an operation as failed with code 5 and ends a
task: nothing of it is left. That a full fault queue answers 3 is log 103, the model's reading. -/
def Obligations.FaultEvents : Prop :=
  (∀ (s : State) (e : FaultEv) (rest : List FaultEv),
       let d := s.ev.unit
       let lost := dieCtl s d e.pid 0x423 % 2 ^ 32
       (getDie s d).waiting = e :: rest →
       (leastFree ((getDp s d e.pid).records.map (·.1)) 256 0 = none ∨ 256 ≤ (getDie s d).fq.countP (·.counts) →
         Performs .faultEventEnqueue s (fun s' => s' = s))
       ∧ (∀ slot, leastFree ((getDp s d e.pid).records.map (·.1)) 256 0 = some slot → (getDie s d).fq.countP (·.counts) < 256 →
         let r : FaultRec := { ev := e, live := true, done := false }
         Performs .faultEventEnqueue s (fun s' => (getDie s' d).waiting = rest ∧
           match sieveWords s' e.cl e.pid 0 (dieCtl s d e.pid 0x421 / 2 ^ 8 % 2 ^ 40 * 2 ^ 8 + 8 * e.cause) 1 with
           | .ok ws => tabGet (getDp s' d e.pid).records slot = some r ∧ dieCtl s' d e.pid 0x423 = dieCtl s d e.pid 0x423
             ∧ ∃ f, (getDie s' d).fq = (getDie s d).fq ++ [⟨e.cl, f, true⟩] ∧ f.task.pid = e.pid ∧ f.task.fq = true ∧ f.prio = 127
               ∧ f.task.noticeSlot = (if e.kind = 3 then some slot else none)
               ∧ f.work = .fresh (BitVec.ofNat 48 (ws.getD 0 0)) (BitVec.ofNat 64 (recVa s d e.pid slot))
                 (BitVec.ofNat 64 (e.cause + 2 ^ 8 * e.kind + 2 ^ 10 * slot))
           | .error _ => (getDie s' d).fq = (getDie s d).fq ∧ dieCtl s' d e.pid 0x423 = min (2 ^ 32 - 1) (lost + 1) + 2 ^ 32 * slot
             ∧ tabGet (getDp s' d e.pid).records slot = (if e.kind = 3 then none else some r))))
  ∧ (∀ (s : State) (r : EndReq) (n : Nat) (t : Strand), (getDie s s.ev.unit).endReqs = [r] → r.cycle / 8 < tickNow s →
       tabGet s.strands n = some t → t.task.id = r.task → r.d < 64 → r.d ≠ 0 → r.pid < 16 →
       ((getDp s s.ev.unit r.pid).records.map (·.1)).Pairwise (· < ·) →
       let d := s.ev.unit
       let rec0 := tabGet (getDp s d r.pid).records r.slot
       let answers := fun (x : Nat) (s' : State) => (getDie s' d).endReqs = []
         ∧ ∃ t', tabGet s'.strands n = some t' ∧ getG t' (BitVec.ofNat 6 r.d) = BitVec.ofNat 64 x
       let fails := fun (x : Nat) => Performs .faultRequestProcessed s (fun s' => answers (2 ^ 63 + x) s'
         ∧ ∀ f, rec0 = some f → f.done = false → tabGet (getDp s' d r.pid).records r.slot = some f)
       let succeeds := fun (p : State → Prop) => Performs .faultRequestProcessed s (fun s' => answers 0 s' ∧ p s'
         ∧ tabGet (getDp s' d r.pid).records r.slot = none)
       (rec0 = none → fails 1)
       ∧ (∀ f, rec0 = some f →
         (f.ev.kind = 3 → fails 1)
         ∧ (f.ev.kind ≠ 3 → f.live = false → fails 2)
         ∧ (∀ o, f.ev.kind ≠ 3 → f.live = true → f.ev.subject = .op o.id → opFind s o.id = some o →
           (r.kind = 0 → succeeds (fun s' => (∀ q ∈ s'.ops, q.id = o.id → q.stopped = false) ∧ s'.ops.length = s.ops.length))
           ∧ (r.kind = 1 → o.kind ≠ .coll → o.task ≠ r.task → succeeds (fun s' => (∀ q ∈ s'.ops, q.id ≠ o.id)
             ∧ ∀ m u, tabGet s.strands m = some u → u.task.id = o.task →
                 ∃ u', tabGet s'.strands m = some u' ∧ Delivered u u' o.dst o.ctr (2 ^ 63 + 5) 0))
           ∧ (∀ m u, r.kind = 2 → o.kind ≠ .coll → o.task ≠ r.task → tabGet s.strands m = some u → laneKey u = m →
             u.task.id = o.task → (∀ e ∈ s.strands, e.2.task.id = o.task → e.1 = m) → m ≠ n →
             succeeds (fun s' => tabGet s'.strands m = none ∧ (∀ q ∈ s'.ops, q.id ≠ o.id))))
         ∧ (∀ task, f.ev.kind ≠ 3 → f.live = true → f.ev.subject = .strand task → task ≠ r.task →
             (∀ e ∈ s.strands, e.2.task.id ≠ task) →
           (∀ u a sh, s.parked.find? (fun t => t.task.id == task) = some u → r.kind = 0 → imageOf s task u.task.pid = some a →
             shapesOf s task u.task.pid = some sh →
             (imageBad s a sh = true → fails 4)
             ∧ (imageBad s a sh = false → succeeds (fun s' => (∀ x ∈ s'.parked, x.task.id ≠ task)
               ∧ (u.task.fq = false → ∃ e, Appended s s' u.cl u.task.pid u.seg.queue e ∧ e.work = .remainder u ∧ e.prio = u.seg.prio
                   ∧ e.task.id = task)
               ∧ (u.task.fq = true → dieOf u.cl = d → ∃ e, (getDie s' d).fq = (getDie s d).fq ++ [⟨u.cl, e, false⟩]
                   ∧ e.work = .remainder u ∧ e.task.id = task))))
           ∧ (r.kind ≠ 0 → s.parked.any (fun t => t.task.id == task) = true → (∀ o ∈ s.ops, o.kind ≠ .coll) →
             succeeds (fun s' => (∀ x ∈ s'.parked, x.task.id ≠ task) ∧ (∀ x ∈ s'.conts, x.task.id ≠ task)
               ∧ ∀ o ∈ s'.ops, o.task ≠ task)))
         ∧ (∀ cl en, f.ev.kind ≠ 3 → f.live = true → f.ev.subject = .entry cl en →
           (r.kind = 0 → en.task.fq = false →
             (queueShut s cl en.task.pid en.queue = true → fails 3)
             ∧ (queueShut s cl en.task.pid en.queue = false → succeeds (fun s' => ∃ e, Appended s s' cl en.task.pid en.queue e
               ∧ e.work = en.work ∧ e.task = en.task ∧ e.prio = if countsInQueue en.work then
                   min en.prio ((cpCtl s cl en.task.pid (0x190 + en.queue)).toNat / 16 % 128) else en.prio)))
           ∧ (r.kind = 0 → en.task.fq = true → dieOf cl = d →
             let full := countsInQueue en.work = true ∧ 256 ≤ (getDie s d).fq.countP (·.counts)
             (full → fails 3)
             ∧ (¬ full → succeeds (fun s' => ∃ e, (getDie s' d).fq = (getDie s d).fq ++ [⟨cl, e, countsInQueue en.work⟩]
                 ∧ e.work = en.work ∧ e.task = en.task)))
           ∧ (∀ a x y, r.kind ≠ 0 → en.work = .fresh a x y → en.task.id ≠ r.task → (∀ e ∈ s.strands, e.2.task.id ≠ en.task.id) →
             (∀ o ∈ s.ops, o.kind ≠ .coll) → succeeds (fun s' => (∀ x ∈ s'.parked, x.task.id ≠ en.task.id)
               ∧ (∀ x ∈ s'.conts, x.task.id ≠ en.task.id) ∧ ∀ o ∈ s'.ops, o.task ≠ en.task.id)))
         ∧ (∀ dd num, f.ev.kind ≠ 3 → f.live = true → f.ev.subject = .batch dd num → succeeds (fun s' =>
             ∀ b ∈ (getDp s' dd f.ev.pid).batches, b.num = num →
               (r.kind = 0 → b.stopped = false) ∧ (r.kind ≠ 0 → b.ended = true)))))

/-- The events that stop a strand: the end of its segment raises OVERRUN, at the next instruction when an access has issued, a
deferred error MEMORY_ECC; a pre-emption at its save point takes it from its lane, and saves it when its register writes are
complete and its batches have committed, else when they are: PREEMPT, or, with AUTO, its remainder, which enters its queue as
a continuation behind all else of the cycle (R244), or, for a switch, its remainder kept for the partition's next turn (R224,
R277, R400, R402, R409, R411-R415). That one deferred error is taken per fault is log 62, and that a stopped strand leaves its
lane at once, to be saved at the end of a cycle, is log 12: the model's readings. A request on a lane applies to the segment
that runs there, and without one it is dropped (R411). When the lanes have had their turns, a stopped strand whose writes are
complete ends as it stopped: parked for its fault, or with its continuation, or, where its segment's time is over before, with
OVERRUN (R92, R224, R227). -/
def Obligations.StrandStops : Prop :=
  (∀ (s : State) (u : Strand), s.ev.n = 1 → s.parked.find? (fun x => x.task.id == s.ev.id) = some u → Performs .preemptSave s (fun s' =>
    s'.autos = s.autos.filter (· != s.ev.id) ∧ (∀ x ∈ s'.parked, x.task.id ≠ s.ev.id)
    ∧ (u.task.fq = false → ∃ e, Appended s s' u.cl u.task.pid u.seg.queue e ∧ e.work = .remainder u ∧ e.prio = u.seg.prio
        ∧ e.task = remTask u)
    ∧ (u.task.fq = true → ∃ e, (getDie s' (dieOf u.cl)).fq = (getDie s (dieOf u.cl)).fq ++ [⟨u.cl, e, false⟩]
        ∧ e.work = .remainder u ∧ e.task = remTask u)))
  ∧ ∀ (s : State) (t : Strand), tabGet s.strands s.ev.lane = some t → laneKey t = s.ev.lane →
    let ctl := cpCtl s t.cl t.task.pid 0x1C0
    (8 * (t.seg.start + t.seg.len) ≤ s.cycle → Performs .overrun s (fun s' =>
        Faulted s s' (if t.issued.isSome then advance t else t) 8))
    ∧ (∀ o ∈ s.owed, o.1 = t.task.id → t.ds = 0 → Performs .deferredEccFault s (fun s' => Faulted s s' t 23
        ∧ s'.owed.length + 1 = s.owed.length))
    ∧ (preemptDue s t = true → s.ev.n ≠ 1 →
      (settled s t = true → tilesDone s t = true → (getClu s t.cl).switching = none →
        (ctl.getLsbD 8 = false → Performs .preemptSave s (fun s' => tabGet s'.strands s.ev.lane = none ∧ ParkedFor s s' t 24))
        ∧ (ctl.getLsbD 8 = true → Performs .preemptSave s (fun s' => tabGet s'.strands s.ev.lane = none
          ∧ s'.autos = s.autos ++ [t.task.id] ∧ (∃ u ∈ s'.parked, Keeps t u ∧ u.ending = none)
          ∧ ∀ q, queueOf (getCp s' t.cl t.task.pid) q = queueOf (getCp s t.cl t.task.pid) q)))
      ∧ (settled s t = true → tilesDone s t = true → (getClu s t.cl).switching ≠ none →
        Performs .preemptSave s (fun s' => tabGet s'.strands s.ev.lane = none
          ∧ ∃ e u, (getCp s' t.cl t.task.pid).saved = (getCp s t.cl t.task.pid).saved ++ [e] ∧ e.task = remTask t
            ∧ e.work = .remainder u ∧ Keeps t u))
      ∧ (settled s t = false ∨ tilesDone s t = false → Performs .preemptSave s (fun s' => tabGet s'.strands s.ev.lane = none
          ∧ ∃ u ∈ s'.parked, Keeps t u ∧ u.flags = t.flags ∧ u.late = t.late ∧ u.pend = t.pend
            ∧ ∃ n, u.ending = some (.preempt n))))
    ∧ (∀ u, s.dev.off = false → s.agenda = [] → s.cursor < cursorEnd → nextLane s = none → s.parked.filter (mayEnd s) = [u] →
      (∀ n f, u.ending = some (.fault n f) → ∃ s', step s = .next s' ∧ ParkedFor s s' u (causeCode f.cause))
      ∧ (∀ n e a x b, u.ending = some (.split n e a x b) →
        (s.cycle < 8 * (u.seg.start + u.seg.len) → ∃ s' c, step s = .next s' ∧ s'.conts = s.conts ++ [c] ∧ Carries u c
          ∧ AtItself u c
          ∧ (e ≠ 2 → c.event = e ∧ c.evarg = a ∧ c.fired = b))
        ∧ (8 * (u.seg.start + u.seg.len) ≤ s.cycle → ∃ s', step s = .next s' ∧ ParkedFor s s' u 8)))
    ∧ (s.ev.cl = t.cl → s.ev.pid = t.task.pid → t.lane < 8 → ctl.getLsbD t.lane = true →
        Performs .preemptRequest s (fun s' => t.lane ∈ (getCp s' t.cl t.task.pid).preempt ∧ SameMem s s'
          ∧ s'.strands = s.strands))
    ∧ (∀ k, k < 8 → strandOn s s.ev.cl s.ev.pid k = none → Performs .preemptRequest s (fun s' =>
        (cpCtl s' s.ev.cl s.ev.pid 0x1C0).getLsbD k = false ∧ SameMem s s' ∧ s'.strands = s.strands))

/-- The Whisk: a fire, by WHISK or by the programmed event, latches every cluster of the partition four ticks later, and the
trigger of another package at the next tick boundary (R417, R418); a cluster that holds no snapshot then takes one, with the
tick and the program counters of its lanes (R417, R418). -/
def Obligations.WhiskEvents : Prop :=
  ∀ (s : State),
    let p := s.ev.pid
    (let src := s.ev.n % 4
     Performs .whiskFire s (fun s' => SameMem s s' ∧ ∀ c ∈ partClusters s p, (getCp s' c p).whisk = (getCp s c p).whisk
      ++ [(tickNow s + (if s.ev.flag then 1 else 4), src + 4 * s.ev.cl, if src = 0 then s.ev.unit % 2 ^ 16 else 0)]))
    ∧ (∀ src, whiskDue s s.ev.cl p = some src → Performs .whiskTriggerEvent s (fun s' => SameMem s s'
      ∧ ∀ c ∈ partClusters s p, (getCp s' c p).whisk = (getCp s c p).whisk ++ [(tickNow s + 4, src + 4 * s.ev.cl, 0)]))
    ∧ (∀ c w, c ∈ partClusters s p → (getCp s c p).whisk = [w] → w.1 ≤ tickNow s → (cpCtl s c p 0x300).toNat % 2 = 0 →
      Performs .whiskLatch s (fun s' => SameMem s s' ∧ (getCp s' c p).whisk = [] ∧ (cpCtl s' c p 0x300).toNat % 2 = 1
        ∧ (cpCtl s' c p 0x300).toNat / 2 % 4 = w.2.1 % 4 ∧ (cpCtl s' c p 0x300).toNat / 2 ^ 16 % 2 ^ 16 = w.2.2 % 2 ^ 16
        ∧ cpCtl s' c p 0x301 = BitVec.ofNat 64 (tickNow s) ∧ cpCtl s' c p 0x302 = devTimeNs s
        ∧ ∀ l, l < 8 → cpCtl s' c p (0x303 + l) = match strandOn s c p l with
          | some t => BitVec.ofNat 64 (t.pc0.toNat + 2 ^ 48)
          | none => 0))

/-- A tick boundary decides the requests of the tick before, and each result is in its register: BOOK and CALREL answer 3 for
a bad entry, 2 for an occurrence out of reach, BOOK 1 for a tick that is booked, else 0 with its occurrences entered, CALREL
the number of ticks that it releases; CALQ reads its 64 ticks; PIPEBIND binds, unbinds, or answers why not (R237-R240, R265).
A round begins with the entries of the fault queue in their order, then the heads of the queues by effective priority and
rotation; its attempts are made as they end within the tick. An attempt places its candidate at the earliest tick and the
lowest lane of it at which everything is free, and the entry leaves its queue; one that finds none changes no calendar; a
placement fault queues its event. The first head to starve, the lowest of those of one tick, becomes urgent when none is
(R216-R218, R254, R403). The Sieve's work away from its calendar: far work is noted, with the source of a move or of a
copy-on-write copy read into a move buffer; a local copy fills its frame, a move from its buffer as the source stands at the
copy's end, a replica from the home copy, and the record or the PTE names it then; a block enters the cache of its core with
the bytes of its page; a spill window moves 8 KiB of the oldest idle frame, and the fourth gives its record the HBM address
(R153, R157, R158, R219, R371, R461). One move buffer for each copy is log 2; what a copy holds that its source took after the
buffer was filled is log 12 (both the model's reading). -/
def Obligations.SieveEvents : Prop :=
  (∀ (k : ClPart) (r : CalReq) (live : Bool),
       let w := r.word.toNat
       let res := w % 2 ^ 5
       let dur := w / 2 ^ 17 % 2 ^ 12
       let rep := w / 2 ^ 29 % 2 ^ 8
       let stride := w / 2 ^ 37 % 2 ^ 12
       let first := fun (i : Nat) => w / 2 ^ 5 % 2 ^ 12 + i * stride + (if r.rel then r.rt else 0)
       let bad := res < 8 ∨ dur = 0 ∨ rep = 0 ∨ w / 2 ^ 49 ≠ 0 ∨ (1 < rep ∧ stride < dur)
       let out := ∃ i, i < rep ∧ (first i < r.rt + 2 ∨ r.len < first i + dur)
       let mine := fun (q t : Nat) => q = res ∧ ∃ i, i < rep ∧ r.start + first i ≤ t ∧ t < r.start + first i + dur
       let tiles := fun (t : Nat) => k.tiles.any (fun c =>
         c.sid == r.sid && c.occ.any (fun o => o.1 == res && decide (o.2.1 ≤ t ∧ t ≤ o.2.2)))
       (bad → r.kind ≤ 1 → bookResult k r live = (3, k.cal))
       ∧ (¬ bad → out → r.kind ≤ 1 → bookResult k r live = (2, k.cal))
       ∧ (¬ bad → ¬ out → r.kind = 0 → (∀ b ∈ k.cal, b.lo ≤ b.hi) →
           ((∃ t, mine res t ∧ bookedAny k.cal res t = true) → bookResult k r live = (1, k.cal))
           ∧ ((∀ t, mine res t → bookedAny k.cal res t = false) → bookResult k r live = (0, if live then
               k.cal ++ (List.range rep).map (fun i => ⟨res, r.start + first i, r.start + first i + dur - 1, r.sid⟩) else k.cal)))
       ∧ (¬ bad → ¬ out → r.kind = 1 →
           (∀ sid q t, bookedTo (bookResult k r live).2 sid q t = true ↔
             bookedTo k.cal sid q t = true ∧ ¬ (sid = r.sid ∧ mine q t ∧ tiles t = false))
           ∧ (bookResult k r live).1 =
               ((List.range rep).flatMap (fun i => (List.range dur).map (fun j => r.start + first i + j))).countP
                 (fun t => bookedTo k.cal r.sid res t && !tiles t)))
  ∧ (∀ (s : State) (r : CalReq),
       let cl := s.ev.cl
       let p := s.ev.pid
       let k := getCp s cl p
       Asks s cl p [r] → k.cands = [] → noPlacing s cl = true ∨ roundCands s cl p = [] → isRunning s r.task = true →
       (r.kind ≤ 1 → r.cycle / 8 < tickNow s → Performs .tickBoundary s (fun s' =>
         let x := bookResult k r (segLive s r.sid)
         (getCp s' cl p).reqs = [] ∧ (getCp s' cl p).cal = x.2 ∧ Answers s s' r (BitVec.ofNat 64 x.1)))
       ∧ (r.kind = 2 → r.cycle / 8 + 2 ≤ tickNow s → Performs .tickBoundary s (fun s' =>
           let own := fun (t : Nat) => bookedTo k.cal r.sid r.res t
             || (r.res == r.lane % 8 && k.gangs.any (fun g => g.num == r.gang && g.inRound && bookedTo k.cal g.sid r.res t))
           let b := r.start + r.word.toNat % 2 ^ 13 + (if r.rel then r.rt else 0)
           (getCp s' cl p).reqs = [] ∧ (getCp s' cl p).cal = k.cal ∧ SameMem s s' ∧ ∃ x : Word, Answers s s' r x
             ∧ ∀ i, i < 64 → x.getLsbD i
                 = (decide (b + i ≤ tickNow s + 4095) && if r.own then own (b + i) else bookedAny k.cal r.res (b + i))))
       ∧ (r.kind = 3 ∨ r.kind = 4 → r.cycle / 8 < tickNow s →
           let base := r.word.toNat % 2 ^ 48
           let slots := r.word.toNat / 2 ^ 48 % 128
           let clear := r.word.getLsbD 55
           let ganged := r.gang ≠ 0 ∧ ∃ g ∈ k.gangs, g.num = r.gang
           let same := fun (q : Pipe) => q.gang = r.gang ∧ q.base.toNat = base ∧ q.slots = slots
           let meets := fun (q : Pipe) => base < q.base.toNat + 8 * q.slots ∧ q.base.toNat < base + 8 * slots
           let is := fun (x : Nat) (pipes : List Pipe) => Performs .tickBoundary s (fun s' => SameMem s s'
             ∧ (getCp s' cl p).reqs = [] ∧ (getCp s' cl p).pipes = pipes ∧ Answers s s' r (BitVec.ofNat 64 x)
             ∧ (x ≠ 0 ∨ r.kind = 4 ∨ clear = false → s'.fe = s.fe))
           let bound := k.pipes ++ [⟨r.gang, BitVec.ofNat 48 base, slots, r.cycle / 8 + 2⟩]
           (¬ ganged → is 4 k.pipes)
           ∧ (ganged → r.phys = none → is 3 k.pipes)
           ∧ (ganged → r.phys ≠ none → r.kind = 4 → (∀ q ∈ k.pipes, ¬ same q) → is 1 k.pipes)
           ∧ (∀ l q l', ganged → r.phys ≠ none → r.kind = 4 → k.pipes = l ++ q :: l' → same q → (∀ x ∈ l, ¬ same x) → is 0 (l ++ l'))
           ∧ (ganged → r.phys ≠ none → r.kind = 3 →
               ((∃ q ∈ k.pipes, same q) → is 1 k.pipes)
               ∧ ((∀ q ∈ k.pipes, ¬ same q) → (∃ q ∈ k.pipes, meets q) → is 3 k.pipes)
               ∧ ((∀ q ∈ k.pipes, ¬ same q ∧ ¬ meets q) → 32 ≤ k.pipes.length → is 2 k.pipes)
               ∧ ((∀ q ∈ k.pipes, ¬ same q ∧ ¬ meets q) → k.pipes.length < 32 → is 0 bound
                   ∧ (∀ l, clear = true → (∀ e ∈ s.clParts, ∀ c ∈ e.2.copies, c.what ≠ 1) → walk s p 0 (base / 32768) = some l →
                       Performs .tickBoundary s (fun s' => ∀ i, i < slots →
                         feGet s' (recPhys s p l.fri + base % 32768 + 8 * i) = false))))))
  ∧ (∀ (s : State) (cl p : Nat),
       let k := getCp s cl p
       let turn := fun (c : Cand) => (c.queue + 16 - (tabGet k.rp c.prio).getD 0) % 16
       ∃ heads, roundCands s cl p = ((getDie s (dieOf cl)).fq.filter (fun x =>
             x.cl == cl && x.entry.task.pid == p && decide (x.entry.since < tickNow s))).map
               (fun x => ⟨16, x.entry.task.id, x.entry.prio⟩) ++ heads
         ∧ (∀ c, c ∈ heads ↔ ∃ q e l, q < 16 ∧ queueOf k q = e :: l ∧ e.since < tickNow s ∧ c.queue = q ∧ c.taskId = e.task.id
             ∧ (let cap := (qcfg s cl p e.queue).toNat / 2 ^ 11 % 2 ^ 7
                (cap ≤ e.prio → c.prio = e.prio)
                ∧ (e.prio < cap → c.prio = min cap (e.prio + (tickNow s - e.since) / (ctlGet (getClu s cl).ctl 0x180).toNat))))
         ∧ heads.Nodup ∧ heads.Pairwise (fun x y => y.prio < x.prio ∨ (y.prio = x.prio ∧ turn x ≤ turn y)))
  ∧ (∀ (s : State) (cl p a : Nat) (cal : List Booking) (c : Cand) (e : Entry),
       let out := fun (s' : State) =>
         (c.queue < 16 → (queueOf (getCp s' cl p) c.queue).map (fun x => { x with headAt := none })
           = ((queueOf (getCp s cl p) c.queue).drop 1).map (fun x => { x with headAt := none }))
         ∧ (c.queue = 16 → ∀ x ∈ (getDie s' (dieOf cl)).fq, ¬ (x.cl = cl ∧ x.entry.task.id = c.taskId))
       let stat := fun (s' : State) (i j : Nat) =>
         let x := (ctlGet (getClu s cl).ctl 0x181).toNat
         (ctlGet (getClu s' cl).ctl 0x181).toNat = min (x % 2 ^ 32 + i) (2 ^ 32 - 1) + 2 ^ 32 * min (x / 2 ^ 32 + j) (2 ^ 32 - 1)
       let s' := attempt s cl p a cal c e
       (∀ d, e.work ≠ .gang d) → (∀ g, e.work ≠ .gangRound g) →
       (dieOf cl ∈ s.dev.hot → SameMem s s' ∧ s'.clParts = s.clParts ∧ stat s' 0 1)
       ∧ (dieOf cl ∉ s.dev.hot →
           (∀ x va, planOf s cl p e.task e.work e.nb 0 0 0 e.task.id = .error (x, va)
             ∨ (∃ pl id, planOf s cl p e.task e.work e.nb 0 0 0 e.task.id = .ok pl
               ∧ prepCand (fillPlan cl p s pl) cl p [pl] = .error (.fault x va, id)) →
             out s' ∧ stat s' 0 1 ∧ (getCp s' cl p).cal = (getCp s cl p).cal ∧ ∃ ev,
               (getDie s' (dieOf cl)).waiting = (getDie s (dieOf cl)).waiting ++ [ev] ∧ ev.cause = causeCode x ∧ ev.kind = 2
               ∧ ev.pid = e.task.pid ∧ ev.cl = cl ∧ ev.subject = .entry cl e ∧ ev.words.getD 3 0 = BitVec.ofNat 64 va)
           ∧ (∀ pl w who v id, planOf s cl p e.task e.work e.nb 0 0 0 e.task.id = .ok pl →
               prepCand (fillPlan cl p s pl) cl p [pl] = .error (.far w who v, id) →
               stat s' 0 1 ∧ (getCp s' cl p).cal = (getCp s cl p).cal ∧ (getCp s' cl p).placed = (getCp s cl p).placed
                 ∧ ∃ f ∈ (getCp s' cl p).far, f.taskId = id ∧ f.done = false)
           ∧ (∀ pl q, planOf s cl p e.task e.work e.nb 0 0 0 e.task.id = .ok pl →
               let s1 := fillPlan cl p s pl
               Prepared s1 cl p pl q →
               let lo := max (a + 1) (max q.after pl.from')
               ((∀ t l, lo ≤ t → t + pl.len ≤ a + 4096 → ¬ FitsAt s1 cl p a cal pl t l) →
                 stat s' 0 1 ∧ (getCp s' cl p).cal = (getCp s cl p).cal ∧ (getCp s' cl p).placed = (getCp s cl p).placed
                   ∧ (getCp s' cl p).queues = (getCp s cl p).queues)
               ∧ (∀ t l, lo ≤ t → t + pl.len ≤ a + 4096 → FitsAt s1 cl p a cal pl t l → (getCp s cl p).cal = cal →
                   (∀ u m, lo ≤ u → u < t → ¬ FitsAt s1 cl p a cal pl u m) → (∀ m, m < l → ¬ FitsAt s1 cl p a cal pl t m) →
                   out s' ∧ stat s' 1 0 ∧ tabGet (getCp s' cl p).rp c.prio = some ((c.queue % 16 + 1) % 16)
                     ∧ ∃ x, (getCp s' cl p).placed = (getCp s cl p).placed ++ [x] ∧ x.lane = l ∧ x.seg.start = t
                       ∧ x.seg.len = pl.len ∧ x.seg.blk = BitVec.ofNat 48 pl.r.e ∧ x.entry.task = e.task ∧ x.entry.work = e.work
                       ∧ (getCp s' cl p).cal = cal ++ ⟨l, t, t + pl.len - 1, x.seg.sid⟩
                           :: pl.occ.map (fun o => ⟨o.1, t + o.2.1, t + o.2.2, x.seg.sid⟩)))))
  ∧ (∀ (s : State),
       let cl := s.ev.cl
       let p := s.ev.pid
       let k := getCp s cl p
       (∀ (c : Cand) (rest : List Cand) (e : Entry), Asks s cl p [] → k.cands = [] → k.attemptAt ≤ 8 * tickNow s →
         noPlacing s cl = false → roundCands s cl p = c :: rest → k.urgent = none → candEntry s cl p c = some e →
         8 < entryCycles s cl p e → Performs .tickBoundary s (fun s' => SameMem s s' ∧ (getCp s' cl p).cands = c :: rest
           ∧ (getCp s' cl p).attemptAt = 8 * tickNow s ∧ s'.strands = s.strands))
       ∧ (∀ (c : Cand) (e : Entry), Asks s cl p [] → k.cands = [c] → noPlacing s cl = false → candEntry s cl p c = some e →
           heldBack s cl p c = false → k.attemptAt < 8 * (tickNow s + 1) →
           k.attemptAt + entryCycles s cl p e ≤ 8 * (tickNow s + 1) →
           Performs .tickBoundary s (fun s' => ∃ s1 e1, SameMem s s1 ∧ s1.strands = s.strands ∧ (getCp s1 cl p).cal = k.cal
             ∧ (getCp s1 cl p).placed = [] ∧ e1.task = e.task ∧ e1.work = e.work ∧ e1.since = e.since
             ∧ s' = attempt s1 cl p (tickNow s) (k.attemptCal.getD k.cal) c e1))
       ∧ (∀ q a, k.urgent = none → q < 16 → starveAt s cl p q = some a → a ≤ tickNow s →
           (∀ r b, r < 16 → starveAt s cl p r = some b → a < b ∨ (a = b ∧ q ≤ r)) →
         Performs .headUrgent s (fun s' => (getCp s' cl p).urgent = some q ∧ SameMem s s' ∧ s'.strands = s.strands))
       ∧ (k.urgent ≠ none → Performs .headUrgent s (fun s' => s' = s)))
  ∧ (∀ (s : State),
       let cl := s.ev.cl
       let p := s.ev.pid
       let k := getCp s cl p
       (∀ f, k.far.find? (fun f => f.taskId == s.ev.id && !f.done) = some f →
         (2 < f.what → Performs .farWorkDone s (fun s' =>
           SameMem s s' ∧ (getCp s' cl p).far = k.far.map (fun x => if x = f then { x with done := true, buf := 0 } else x)))
         ∧ (∀ l, f.what = 1 ∨ f.what = 2 → walk s p (whoRoot s cl p f.who) f.vpn = some l → Quiet s →
           Performs .farWorkDone s (fun s' =>
             let buf := 2 ^ 52 + 32768 * s.nextId
             rdBytes s'.mem buf 32768 = rdBytes s.mem (recPhys s p l.fri) 32768 ∧ SameMemBut buf 32768 s s'
               ∧ (getCp s' cl p).far = k.far.map (fun x => if x = f then { x with done := true, buf := buf } else x)))
         ∧ (∀ r n2 n3,
             let s0 := updCp s cl p (fun k => { k with far := k.far.filter (fun x => x != f) })
             f.what = 0 → walkNodes s0 p (whoRoot s0 cl p f.who) f.vpn = [r, n2, n3] → recRef s0 p r ≤ 1 → recRef s0 p n2 ≤ 1 →
             let gone := fun (s' : State) => (getCp s' cl p).far = k.far.filter (fun x => x != f)
             let at2 := pteAddr s0 p n2 f.vpn 2
             (recRef s0 p n3 ≤ 1 → Performs .farWorkDone s (fun s' => SameMem s s' ∧ gone s'))
             ∧ (1 < recRef s0 p n3 → copyNode s0 (dieOf cl) p 3 n3 = .error .residency →
                 Performs .farWorkDone s (fun s' => SameMem s s' ∧ gone s'))
             ∧ (∀ n s1, 1 < recRef s0 p n3 → copyNode s0 (dieOf cl) p 3 n3 = .ok (n, s1) →
                 Performs .farWorkDone s (fun s' => gone s' ∧ rd64 s' at2 = setField (rd64 s1 at2) 32 26 n
                   ∧ SameMemBut at2 8 s1 s'))))
       ∧ (∀ c, k.copies.find? (fun c => c.frame == s.ev.n && decide (c.last < tickNow s)) = some c →
         let dst := 2 ^ 40 + (cl * 256 + c.frame) * 32768
         let copied := fun (s' : State) => (getCp s' cl p).copies = k.copies.filter (fun x => x != c)
         (2 ≤ c.what → Quiet s → Performs .localCopy s (fun s' => rdBytes s'.mem dst 32768 = rdBytes s.mem (recPhys s p c.fri) 32768
           ∧ SameMemBut dst 32768 s s' ∧ copied s' ∧ (getCp s' cl p).replicas = k.replicas ++ [(c.fri, c.frame)]))
         ∧ (c.what = 0 → recKind s p c.fri = 0 ∨ recPhys s p c.fri ≠ c.src → Performs .localCopy s (fun s' => copied s'
             ∧ SameMemBut c.buf 32768 s s' ∧ tabGet (getClu s' cl).frames c.frame = none))
         ∧ (c.what = 0 → recKind s p c.fri ≠ 0 → recPhys s p c.fri = c.src → Quiet s →
             let rec0 := recAddr s p c.fri 0
             Performs .localCopy s (fun s' => copied s' ∧ recKind s' p c.fri = 1 ∧ recWord s' p c.fri 1 = sramLoc cl c.frame
               ∧ (∀ b, b < dst ∨ dst + 32768 ≤ b → b < c.buf ∨ c.buf + 32768 ≤ b → b < rec0 ∨ rec0 + 16 ≤ b →
                   rdCell s'.mem b = rdCell s.mem b)
               ∧ (∀ m, ∀ x ∈ (getClu s' m).tc, ¬ (x.pid = p ∧ x.fri = c.fri))
               ∧ (Apart dst 32768 c.buf 32768 → Apart dst 32768 rec0 16 → Apart c.buf 32768 rec0 16 →
                   rdBytes s'.mem dst 32768 = rdBytes s.mem c.src 32768
                   ∧ (recKind s p c.fri = 1 →
                       tabGet (getClu s' (locCluster (recWord s p c.fri 1))).frames (locFrame (recWord s p c.fri 1)) = none))))
         ∧ (c.what = 1 → recKind s p c.fri = 1 → recWord s p c.fri 1 = sramLoc cl c.frame →
             let src := if c.buf = 0 then c.src else c.buf
             let s0 := updCp s cl p (fun k => { k with copies := k.copies.filter (fun x => x != c) })
             let s1 := clearMoveBuffer (copyFrame s0 dst src) c.buf
             (Apart dst 32768 c.buf 32768 → rdBytes s1.mem dst 32768 = rdBytes s.mem src 32768)
             ∧ (∀ l, walk s1 p (whoRoot s1 cl p c.who) c.vpn = some l → l.fri = c.old → pteCow l.pte0 = true →
                 ptePin l.pte0 = false → 1 < recRef s1 p c.old → c.fri ≠ c.old → Apart l.pteAt 16 (recAddr s p c.fri 0) 8 →
                 Apart l.pteAt 16 (recAddr s p c.old 0) 8 →
                 Performs .localCopy s (fun s' => copied s'
                   ∧ PteHolds s' l.pteAt (setField l.pte0 32 26 c.fri &&& ~~~ 8#64) l.pte1 ∧ recRef s' p c.fri = 1
                   ∧ recRef s' p c.old = recRef s1 p c.old - 1
                   ∧ SameMemOff [l.pteAt, l.pteAt + 8, recAddr s p c.fri 0, recAddr s p c.old 0] 8 s1 s'
                   ∧ ∀ e ∈ c.clears, ∀ i, i < e.2 → feGet s' (dst + e.1 + 8 * i) = false))
             ∧ (walk s1 p (whoRoot s1 cl p c.who) c.vpn = none → recRef s1 p c.old ≠ 0 →
                 Performs .localCopy s (fun s' => copied s' ∧ SameMem s1 s'))))
       ∧ (∀ f, k.fills.find? (fun f => f.2.1 == s.ev.n && f.2.2.1 == s.ev.id && decide (f.1 ≤ tickNow s)) = some f →
         blockHeld s cl p f.2.1 (f.2.2.1 / 1024) = false →
         let loads := fun (src : Nat) => Performs .icacheBlockLoad s (fun s' => SameMem s s' ∧ ∃ b ∈ (getClu s' cl).icache,
           b.core = f.2.1 ∧ b.pid = p ∧ b.va = f.2.2.1 ∧ b.placed = f.2.2.2.2.2
           ∧ b.data = BitVec.ofNat 8192 (leNat (rdBytes s.mem (src + f.2.2.1 % 32768) 1024)))
         ((∀ x ∈ k.copies, x.fri ≠ f.2.2.2.2.1) → loads (recPhys s p f.2.2.2.2.1))
         ∧ (∀ x, k.copies.find? (fun x => x.fri == f.2.2.2.2.1) = some x → loads (if x.buf = 0 then x.src else x.buf)))
       ∧ (∀ v l slot, (∀ x ∈ (getClu s cl).evIdle ++ (getClu s cl).evDemand, spillable s cl x = true) →
         spillSlot s cl v.pid = some slot →
         (tickNow s % 64 = 48 → (getClu s cl).evIdle = v :: l → Performs .spillWindow s (fun s' => SameMem s s'
           ∧ (getClu s' cl).evIdle = { v with moving := true } :: l ∧ (getClu s' cl).evDemand = (getClu s cl).evDemand
           ∧ (v.units = 0 → ∀ m, ∀ x ∈ (getClu s' m).tc, ¬ (x.pid = v.pid ∧ x.fri = v.fri))))
         ∧ (tickNow s % 64 = 48 → (getClu s cl).evIdle = [] → (getClu s cl).evDemand = v :: l →
             Performs .spillWindow s (fun s' => SameMem s s' ∧ (getClu s' cl).evIdle = []
               ∧ (getClu s' cl).evDemand = { v with moving := true } :: l))
         ∧ (tickNow s % 64 = 0 → (getClu s cl).evIdle = v :: l → v.moving = true → (∀ x ∈ l, x.moving = false) →
             (v.units < 3 → Performs .spillWindow s (fun s' => SameMem s s'
               ∧ (getClu s' cl).evIdle = { v with units := v.units + 1, moving := false } :: l))
             ∧ (3 ≤ v.units → v.op = 0 → Performs .spillWindow s (fun s' =>
                 let loc := spillBase s cl v.pid + 32768 * slot
                 (getClu s' cl).evIdle = l ∧ recKind s' v.pid v.fri = 2 ∧ recWord s' v.pid v.fri 1 = BitVec.ofNat 64 loc
                   ∧ (Quiet s → Apart loc 32768 (recAddr s v.pid v.fri 0) 16 →
                       rdBytes s'.mem loc 32768 = rdBytes s.mem (recPhys s v.pid v.fri) 32768))))
         ∧ (tickNow s % 64 ≠ 48 → tickNow s % 64 ≠ 0 → Performs .spillWindow s (fun s' => s' = s))))

/-- A placed segment starts in its tick on its lane: a new task with its two arguments and every other register 0, a
continuation with what its record holds and nothing else, a remainder with its image (R31, R35, R229, R408, R413).
Continuations and gangs: a record that is complete frees its context; one whose event has fired enters the tail of its queue
under its own priority, in the cluster it names; a gang whose round is over keeps the members that ended in it, its lanes are
released, the others leave it, also one whose remainder was queued meanwhile (log 104, the model's reading), and its next
round is offered once every event has fired (R228-R232, R235). -/
def Obligations.SegmentStarts : Prop :=
  (∀ (s : State) (q : Placed),
       let cl := s.ev.cl
       let p := s.ev.pid
       (getCp s cl p).placed.find? (fun q => q.seg.sid == s.ev.id && decide (q.seg.start ≤ tickNow s)) = some q →
       let starts := fun (f : Strand →
         Prop) => Performs .segmentStart s (fun s' => ∃ t, tabGet s'.strands (8 * cl + q.lane) = some t
         ∧ t.task = q.entry.task ∧ t.seg = q.seg ∧ t.cl = cl ∧ t.lane = q.lane ∧ t.ctx = q.ctx ∧ f t)
       (∀ e a b, q.entry.work = .fresh e a b → starts (fun t =>
         (∀ r : R6, getG t r = if r = 1 then a else if r = 2 then b else 0) ∧ (∀ r : Fin 32, t.v[r] = 0) ∧ t.p = 0
           ∧ (∀ r : Fin 7, t.m[r] = 0) ∧ (∀ r : Fin 4, t.c[r] = 0) ∧ t.rm = 0 ∧ t.flags = 0
           ∧ t.pc0 = q.seg.blk ∧ t.pc1 = q.seg.blk + 8 ∧ t.pc2 = q.seg.blk + 16 ∧ t.ds = 0))
       ∧ (∀ c, q.entry.work = .cont → contFind s q.entry.task.id = some c → starts (fun t => t.g = c.g ∧ t.v = c.v ∧ t.p = c.p
           ∧ t.c = c.c ∧ (∀ r : Fin 7, t.m[r] = 0) ∧ t.rm = c.rm ∧ t.flags = c.flags ∧ t.pc0 = c.pc0 ∧ t.pc1 = c.pc1
           ∧ t.pc2 = c.pc2 ∧ t.ds = c.ds))
       ∧ (∀ old a, q.entry.work = .remainder old → imageOf s q.entry.task.id p = some a → starts (fun t =>
         (∀ r : R6, r ≠ 0 → getG t r = rd64 s (a + 128 + 8 * r.toNat))
           ∧ (∀ r : Fin 32, t.v[r] = BitVec.ofNat 1024 (rdN s (a + 640 + 128 * r.val) 128))
           ∧ (∀ r : Fin 7, t.m[r] = rd64 s (a + 4736 + 8 * r.val)) ∧ t.p = BitVec.ofNat 7 (rdN s (a + 32) 8)
           ∧ t.pc0 = BitVec.ofNat 48 (rdN s a 8) ∧ t.pc1 = BitVec.ofNat 48 (rdN s (a + 8) 8)
           ∧ t.pc2 = BitVec.ofNat 48 (rdN s (a + 16) 8))))
  ∧ (∀ (s : State),
       (Performs .continuationRecordComplete s (fun s' => SameMem s s' ∧ s'.conts = s.conts.map (fun c =>
         if c.task.id = s.ev.id ∧ c.complete ≤ tickNow s then { c with closing := false } else c)))
       ∧ (∀ (i : Instr) (c : Cont), contFind s s.ev.id = some c → c.queued = false → c.gang = 0 → eventReady s c = true →
         (i, decide (c.event ≠ 7), decide (c.evAddr ≠ 0)) ∈ ([(.continuationQueued, true, true), (.continuationQueued, true, false),
           (.watchTimeout, false, true), (.yieldTimeExpiry, false, false)] : List (Instr × Bool × Bool)) →
         let dest := if c.roam then 32 * dieOf c.cl + c.tgt else c.cl
         Performs i s (fun s' => (c.hbm = none → SameMem s s')
           ∧ (∀ k, c.hbm = some k → SameMemBut (contPhys s c.cl c.task.pid k) 8192 s s')
           ∧ (∀ d ∈ s'.conts, d.task.id = c.task.id → d.queued = true)
           ∧ ∃ e, e.work = .cont ∧ e.task = c.task ∧ e.prio = c.prio
             ∧ (c.task.fq = false → Appended s s' dest c.task.pid c.queue e)
             ∧ (c.task.fq = true → (getDie s' (dieOf dest)).fq = (getDie s (dieOf dest)).fq ++ [⟨dest, e, false⟩])))
       ∧ (∀ g, (getCp s s.ev.cl s.ev.pid).gangs.find? (fun g => g.num == s.ev.id) = some g →
         let alive := g.alive.filter (fun m => !g.active.contains m)
         let leave := fun (t : Strand) => if t.seg.gang = g.num ∧ t.seg.member ∈ g.active then
           { t with seg := { t.seg with gang := 0 }, task := { t.task with left := true } } else t
         let released := fun (s' : State) => (∀ c ∈ (getCp s s.ev.cl s.ev.pid).tiles, c.sid ≠ g.sid) →
           ∀ r t, 0 < t → tickNow s ≤ t → bookedTo (getCp s' s.ev.cl s.ev.pid).cal g.sid r t = false
         (roundOver s g = true → Performs .gangRoundEnd s (fun s' => released s' ∧ s'.parked = s.parked.map leave
           ∧ ∀ n, tabGet s'.strands n = (tabGet s.strands n).map leave))
         ∧ (roundOver s g = true → alive ≠ [] → Performs .gangRoundEnd s (fun s' => SameMem s s'
           ∧ ∃ g' ∈ (getCp s' s.ev.cl s.ev.pid).gangs, g'.num = g.num ∧ g'.alive = alive ∧ g'.active = [] ∧ g'.inRound = false))
         ∧ (roundOver s g = true → alive = [] → Performs .gangRoundEnd s (fun s' => SameMem s s'
           ∧ (∀ g' ∈ (getCp s' s.ev.cl s.ev.pid).gangs, g'.num ≠ g.num)
             ∧ ∀ q ∈ (getCp s' s.ev.cl s.ev.pid).pipes, q.gang ≠ g.num))
         ∧ (roundReady s g = true → g.entry.task.fq = false → Performs .gangNextRound s (fun s' => SameMem s s'
           ∧ (∀ c ∈ s'.conts, c.gang = g.num → c.queued = true)
           ∧ ∃ e, Appended s s' s.ev.cl s.ev.pid g.entry.queue e ∧ e.work = .gangRound g.num))))

/-- The stream scheduler takes the requests of a tick in their order (R329): SFORK makes a child with its parent's fields
(R338), SACT appends an action (R339), SSTEP advances a stream (R340), SHOR sets its horizon (R341), SJOIN reduces a family
and frees what it does not keep (R342), SPIN pins the pages of the list or undoes that (R344), SGET and SSET read and write a
descriptor word (R345), SPRUNE ends or frees a stream (R346), each with its result or its failure code. COMMIT writes the
delivery ring, and what finds no room goes to the pending slot, which drains as the consumer frees entries (R358-R360). Of
several failure codes that apply, the order is the model's (log 99); a fence does not hold a request off its sequence point
(log 107, the model's reading). A waiting stream joins the open batch of its key, or opens it (R330); an idle stream past its
limit is marked expired; an offer is admitted while no earlier one to its cluster waits, the frames of the last 8,192 ticks
leave room and the idle part holds at most 32 (R158, R334, R335); a due batch closes into a free slot with the slot's bytes as
they are then; its members run once its first segment has started (R331, R333); a snapshot taken by another package leaves
MOVED with the new SID behind, a refused one completes with its failure code (R343). -/
def Obligations.StreamEvents : Prop :=
  (∀ (s : State),
    let d := s.ev.unit
    let p := s.ev.pid
    let sn := s.ev.id
    (∀ o sel, s.ev.flag = false → s.ev.n ≠ 1 → s.ev.n ≠ 2 → o.cl ≠ awayCl → s.ops.filter (reqDue s d p) = [o] →
      o.kind = .stream → o.args.getD 0 0 = 9 →
      o.args.getD 3 0 = BitVec.ofNat 64 sel → sel < 16 → Unhindered s o → isRunning s o.task = true →
      (∀ q ∈ s.ops, q.id = o.id → q = o) →
      Performs .streamSequencePoint s (fun s' => Finished s s' o
        (match liveSn s d p ((o.args.getD 1 0).toNat % 2 ^ 24) with
          | some w => (w.getD sel 0 &&& ~~~ strReserved sel).toNat
          | none => if sel = 0 then 15 else 0) o.flags))
    ∧ (∀ o, o.kind = .stream → o.pid = p → o.i ≤ 1 → o.stopped = false → o.fin = none → o.arr < tickNow s → reqDie s o = some d →
        o.cl = awayCl ∨ (getClu s o.cl).pid = some p → reqDue s d p o = true)
    ∧ (s.ev.flag = false → s.ev.n ≠ 1 → s.ev.n ≠ 2 →
        let goes := fun (s1 : State) => strEn s1 d p = false ∨ (getDp s1 d p).waiting = [] →
          Performs .streamSequencePoint s (fun s' => s' = { s1 with agenda := afterRequests s1 d p ++ s1.agenda })
        let due := s.ops.filter (reqDue s d p)
        (∀ o, due = [o] → goes (applyReq s d o))
        ∧ (∀ x y, due = [x, y] ∨ due = [y, x] → reqBefore d x y = true → reqBefore d y x = false →
            goes (applyReq (applyReq s d x) d y))
        ∧ (∀ m w, due = [] → strEn s d p = true → (getDp s d p).waiting = [m] → m < 16384 → getStr s d p m = some w →
            w.length = 16 →
            let joins := fun (b : Batch → Prop) => Performs .streamSequencePoint s (fun s' => (∃ b' ∈ (getDp s' d p).batches, b b')
              ∧ (getDp s' d p).waiting = [] ∧ ∃ w', getStr s' d p m = some w' ∧ stState w' = ST_BATCHED ∧ KeepsWords w w' [0])
            (∀ b, openBatch s d p w = some b → b.mems.length < 64 → joins (fun x => x.num = b.num ∧ x.mems = b.mems ++ [m]))
            ∧ (∀ b, openBatch s d p w = some b → 64 ≤ b.mems.length →
                Performs .streamSequencePoint s (fun s' => s'.dieParts = s.dieParts))
            ∧ (openBatch s d p w = none → joins (fun x => x.num = s.nextId ∧ x.mems = [m] ∧ x.model = stModel w ∧ x.lcur = stLcur w
                ∧ x.cl = 32 * d + stHome w ∧ x.first = tickNow s ∧ x.closed = false ∧ x.slot = none))))
    ∧ (∀ o, Names s o → o.kind = .stream → o.cl ≠ awayCl → o.i = 3 → Unhindered s o → isRunning s o.task = true →
      Performs .joinReduction s (fun s' => Finished s s' o (o.acc.getD 0 0).toNat o.flags ∧ SameMem s s'))
    ∧ (∀ w, getStr s d p sn = some w → sn < 16384 → w.length = 16 → idleDue s w = true →
      Performs .idleExpiry s (fun s' => ∃ w', getStr s' d p sn = some w' ∧ sF w' 0 6 1 = 1))
    ∧ (∀ o, s.ev.flag = false → (getDp s d p).offers.find? (fun o => o.snum == sn) = some o →
      let before := ∃ e ∈ s.dieParts, e.1 / 16 = d ∧ ∃ y ∈ e.2.offers, y.cl = o.cl ∧ y.num < o.num
      let c := getClu s o.cl
      let fs := o.fris.filter (fun f => offerable s p o.cl f && !held s p f
        && !(c.evIdle ++ c.evDemand).any (fun e => e.pid == p && e.fri == f))
      let n := (c.admits.filter (fun t => decide (tickNow s < t + 8192))).length + fs.length
      (¬ before → n ≤ 32 → c.evIdle.length + fs.length ≤ 32 → Performs .evictionAdmit s (fun s' => SameMem s s'
          ∧ (getDp s' d p).offers = (getDp s d p).offers.filter (fun x => x.num != o.num)
          ∧ (getClu s' o.cl).evIdle = c.evIdle ++ fs.map (fun f => ⟨p, f, 0, 0, sn, false⟩)))
      ∧ (before ∨ 32 < n ∨ 32 < c.evIdle.length + fs.length → Performs .evictionAdmit s (fun s' => s' = s)))
    ∧ (s.ev.flag = true → Performs .evictionAdmit s (fun s' => ∃ l, s' = { s with agenda := l ++ s.agenda }
        ∧ l = (dieOffers s d).map (fun e => (.evictionAdmit, { unit := d, pid := e.1, id := e.2.snum }))))
    ∧ (∀ b w m, s.ev.flag = false → s.ev.n = 1 → (getDp s d p).batches = [b] → b.started = true → b.ran = false →
      b.ended = false →
      m ∈ b.mems → m < 16384 → getStr s d p m = some w → w.length = 16 → stState w = ST_BATCHED → lastBatch s d p b.num m = true →
      Performs .streamSequencePoint s (fun s' => ∃ w', getStr s' d p m = some w' ∧ stState w' = ST_RUNNING))
    ∧ (∀ b k, (getDp s d p).batches.find? (fun b => b.num == sn) = some b → s.ev.n ≠ 1 → strEn s d p = true →
      closeDue s d p b = true →
      b.num < s.nextId → freeSlot s d p b.cl = some k → Performs .batchClose s (fun s' =>
        ∃ b' ∈ (getDp s' d p).batches, b'.num = b.num ∧ b'.closed = true ∧ b'.slot = some k ∧ b'.mems = b.mems
          ∧ b'.image = slotBytes s d p b))
    ∧ (∀ o e pkg, Names s o → s.ev.id ≠ 0 → o.kind = .stream → o.cl ≠ awayCl → o.i = 2 → Unhindered s o →
      isRunning s o.task = true →
      dieEntry s o.pid ((o.args.getD 2 0).toNat % 256) = some (e, pkg) → pkg ≠ Config.torus.toNat →
      (s.ev.flag = false → s.ev.n = 4 ∨ s.ev.n = 7 ∨ s.ev.n = 10 →
        Performs .snapshotTransferDone s (fun s' => Finished s s' o (2 ^ 63 + s.ev.n) o.flags))
      ∧ (∀ h w, s.ev.flag = true → reqDie s o = some h →
        let m := (o.args.getD 1 0).toNat % 2 ^ 16
        getStr s h o.pid m = some w → m < 16384 → w.length = 16 →
        Performs .snapshotTransferDone s (fun s' => Finished s s' o (s.ev.n % 2 ^ 24) o.flags
          ∧ ∃ w', getStr s' h o.pid m = some w' ∧ stState w' = ST_MOVED ∧ sF w' 9 0 24 = s.ev.n % 2 ^ 24))))
  ∧ (∀ (s : State) (d : Nat) (o : Op) (w : List Word),
       let p := o.pid
       let sid := (o.args.getD 1 0).toNat % 2 ^ 24
       let sn := sid % 2 ^ 16
       let x := (o.args.getD 2 0).toNat
       let m := (o.args.getD 3 0).toNat
       let st := stState w
       let fails := FailsWith s d o
       let gives := Sequenced s d o
       let touched := fun (w' : List Word) => sF w' 5 0 48 = tickNow s % 2 ^ 48 ∧ sF w' 0 6 1 = 0
       -- SACT
       (AskedOf s d o 3 w →
         (st = ST_MOVED → fails 3) ∧ (st = ST_MIGRATING ∨ st = ST_DONE → fails 2)
         ∧ (st ∉ [ST_MOVED, ST_MIGRATING, ST_DONE] → (4 ≤ stAqc w → fails 5)
             ∧ (stAqc w < 4 → gives (stAqc w + 1) (fun _ w' =>
                 let k := 12 + (stAqh w + stAqc w) % 4
                 KeepsWords w w' [0, 5, k] ∧ w'.getD k 0 = o.args.getD 2 0 ∧ stAqc w' = stAqc w + 1 ∧ stAqh w' = stAqh w
                   ∧ touched w' ∧ WokenState w w'))))
       -- SHOR
       ∧ (AskedOf s d o 5 w →
           let h := if m = 1 then (max 0 (min (2 ^ 32 - 1 : Int) ((stHor w : Int) + ((o.args.getD 2 0).setWidth 32).toInt))).toNat
             else x
           (st = ST_MOVED → fails 3) ∧ (st = ST_MIGRATING ∨ st = ST_DONE → fails 2)
           ∧ (st ∉ [ST_MOVED, ST_MIGRATING, ST_DONE] → (m ≠ 1 → 2 ^ 32 ≤ x → fails 6)
               ∧ (m = 1 ∨ x < 2 ^ 32 → gives h (fun _ w' => KeepsWords w w' [0, 1] ∧ stHor w' = h ∧ stStep w' = stStep w
                   ∧ (h = 0 → st = ST_IDLE ∨ st = ST_READY → stState w' = ST_DONE)
                   ∧ (h ≠ 0 ∨ (st ≠ ST_IDLE ∧ st ≠ ST_READY) → WokenState w w')))))
       -- SSTEP
       ∧ (AskedOf s d o 6 w →
           (st = ST_MOVED → fails 3) ∧ (st ∉ [ST_MOVED, ST_RUNNING, ST_READY, ST_IDLE] → fails 2)
           ∧ (st ∈ [ST_RUNNING, ST_READY, ST_IDLE] → (2 ^ 32 ≤ x → fails 6)
               ∧ (x < 2 ^ 32 → stHor w = 0 → gives ST_DONE (fun _ w' => stState w' = ST_DONE ∧ KeepsWords w w' [0]))
               ∧ (x < 2 ^ 32 → stHor w ≠ 0 → ∃ n, gives n (fun _ w' => n = stState w' ∧ SteppedState w'
                   ∧ SteppedWords w w' x ∧ (stState w' = ST_IDLE → touched w')))))
       -- SPRUNE
       ∧ (AskedOf s d o 2 w →
           (st = ST_MIGRATING → fails 2)
           ∧ (st = ST_DONE ∨ st = ST_MOVED → (0 < stNkids w ∨ sF w 0 7 1 = 1 → fails 2)
               ∧ (stNkids w = 0 → sF w 0 7 1 = 0 → let s' := applyReq s d o
                   Finished s s' o 15 o.flags ∧ sn ∉ (getDp s' d p).live ∧ ∀ n ∈ (getDp s d p).live, n ≠ sn → n ∈ (getDp s' d p).live))
           ∧ (st ∉ [ST_MIGRATING, ST_DONE, ST_MOVED] → gives st (fun _ w' => stState w' = ST_DONE ∧ stPin w' = false
               ∧ KeepsWords w w' [0])))
       -- SSET
       ∧ (AskedOf s d o 10 w → (m = 6 → ∀ n ∈ (getDp s d p).live, ∀ v, getStr s d p n = some v → stState v ≠ ST_HELD) →
           let mask := ssetMask m
           (st = ST_MOVED → fails 3) ∧ (st ≠ ST_MOVED → mask = 0 → fails 6)
           ∧ (mask ≠ 0 → st = ST_MIGRATING → fails 2)
           ∧ (m = 0 ∨ m = 2 → st ∉ [ST_MOVED, ST_IDLE, ST_READY] → fails 2)
           ∧ (mask ≠ 0 → st ∈ [ST_IDLE, ST_READY] ∨ (m ∉ [0, 2] ∧ st ∉ [ST_MOVED, ST_MIGRATING]) →
               (m = 0 → x / 2 ^ 40 % 256 ≤ stLcur w → fails 6) ∧ (m = 2 → 8 < x / 2 ^ 26 % 16 → fails 6)
               ∧ ((m = 0 → stLcur w < x / 2 ^ 40 % 256) → (m = 2 → x / 2 ^ 26 % 16 ≤ 8) →
                   gives (w.getD m 0 &&& ~~~ strReserved m).toNat (fun _ w' => KeepsWords w w' [0, 5, m] ∧ touched w'
                     ∧ w'.getD m 0 &&& mask = o.args.getD 2 0 &&& mask ∧ (m ≠ 0 → w'.getD m 0 &&& ~~~ mask = w.getD m 0 &&& ~~~ mask)
                     ∧ (m = 0 → stLcur w' = stLcur w ∧ stHome w' = stHome w ∧ stPin w' = stPin w) ∧ WokenState w w'))))
       -- SPIN and SPIN.U
       ∧ (AskedOf s d o 8 w →
           (st = ST_MIGRATING ∨ st = ST_DONE → fails 2)
           ∧ (st ∉ [ST_MIGRATING, ST_DONE] →
               (m = 1 → stPin w = false → gives 0 (fun s' w' => stPin w' = false ∧ touched w' ∧ stState w' = st ∧ SameMem s s'))
               ∧ (m ≠ 1 → statePages s p w = none → fails 7)
               ∧ (m ≠ 1 → statePages s p w = some [] → gives (stSln w) (fun s' w' => stPin w' = true ∧ touched w' ∧ SameMem s s'))
               ∧ (∀ v, m ≠ 1 → statePages s p w = some [v] → walk s p (stRoot w) v = none → fails 7)
               ∧ (∀ v r n2 n3 l, m ≠ 1 → statePages s p w = some [v] → walkNodes s p (stRoot w) v = [r, n2, n3] →
                   (∀ n ∈ [r, n2, n3], recRef s p n ≤ 1) → walk s p (stRoot w) v = some l → ptePin l.pte0 = false →
                   localRec s p l.fri (32 * d + stHome w) = true →
                   gives (stSln w) (fun s' w' => stPin w' = true ∧ touched w'
                     ∧ WrotePte s s' p l.fri l.pteAt (l.pte0 ||| 16#64) l.pte1 (recRef s p l.fri) ((recPins s p l.fri + 1) % 2 ^ 16)))))
       -- SJOIN
       ∧ (AskedOf s d o 1 w →
           let s' := applyReq s d o
           let head := sn
           let fam := familyOf s d p head
           let ds := fam.filterMap (fun n => (getStr s d p n).bind (fun w => if stState w = ST_DONE then some (n, stRet w) else none))
           let keep := x / 2 ^ 8 % 2 ^ 24
           let joins := fun (r : Nat) => ∃ q ∈ s'.ops, q.id = o.id ∧ q.i = 3 ∧ q.acc = [BitVec.ofNat 64 r]
           let bad := x / 4 % 64 ≠ 0 ∨ x / 2 ^ 32 ≠ 0
           (st = ST_MIGRATING → joins (2 ^ 63 + 2) ∧ s'.dieParts = s.dieParts)
           ∧ (st ≠ ST_MIGRATING → bad → joins (2 ^ 63 + 6) ∧ s'.dieParts = s.dieParts)
           ∧ (st ≠ ST_MIGRATING → ¬ bad → joins (2 ^ 32 * ds.length + joinValue (x % 4) (ds.map (·.2)))
               ∧ ((∀ n ∈ (getDp s d p).live, n < 16384) → fam.Nodup → head ∉ fam →
                   (∀ e ∈ ds, ∀ v, getStr s d p e.1 = some v → v.length = 16 ∧ stSgrp v % 2 ^ 16 = head) →
                   (∀ e ∈ ds, ∀ v, getStr s d p e.1 = some v →
                     (e.1 ∈ (getDp s' d p).live ↔ ds.countP (fun y => ranksBefore y e) < keep ∨ 0 < stNkids v))
                   ∧ (∀ n ∈ (getDp s d p).live, n ∉ ds.map (·.1) → n ∈ (getDp s' d p).live)
                   ∧ (m = 1 → ∃ w', getStr s' d p head = some w' ∧ stRet w' = joinValue (x % 4) (ds.map (·.2)))))))
  ∧ (∀ (l : List Nat),
       let xs := l.map (decodeFmt .fp32)
       let sum := groupSum xs
       let fin := xs.filter (fun x => !xIsInf x)
       joinValue 0 [] = 0xFF800000 ∧ joinValue 1 [] = 0 ∧ joinValue 2 [] = 0x7FC00000 ∧ joinValue 3 [] = 0xFF800000
       ∧ ((∃ x ∈ xs, x = .nan) → joinValue 0 l = 0x7FC00000 ∧ joinValue 3 l = 0x7FC00000)
       ∧ (l ≠ [] → (∀ x ∈ xs, x ≠ .nan) → joinValue 0 l = l.foldl (fun a x => (fpMinMax true .fp32 a x).1) 0xFF800000)
       ∧ (l ≠ [] → joinValue 1 l = (conv sum.1 .fp32 .rne false).1
           ∧ joinValue 2 l = (conv (xDiv sum.1 (xInt l.length)).1 .fp32 .rne false).1)
       ∧ ((∀ x ∈ xs, x ≠ .nan) → .inf false ∈ xs → joinValue 3 l = 0x7F800000)
       ∧ ((∀ x ∈ xs, x ≠ .nan) → .inf false ∉ xs → fin = [] → joinValue 3 l = 0xFF800000)
       ∧ ((∀ x ∈ xs, x ≠ .nan) → .inf false ∉ xs → fin ≠ [] → ∃ m ∈ fin, (∀ y ∈ fin, xCmp m y ≠ -1)
           ∧ ((∀ y ∈ fin, xCmp (groupSum [y, xFlip m]).1 (xInt (-600)) ≠ -1) → joinValue 3 l =
               (conv (groupSum [m, (xLog2 (groupSum (fin.map (fun y => (xExp2 (groupSum [y, xFlip m]).1).1))).1).1]).1
                 .fp32 .rne false).1)))
  ∧ (∀ (s : State) (d : Nat) (o : Op) (w : List Word),
       let p := o.pid
       let sid := (o.args.getD 1 0).toNat % 2 ^ 24
       let sn := sid % 2 ^ 16
       let hor := (o.args.getD 2 0).toNat
       let s' := applyReq s d o
       let fails := fun (k : Nat) => ForkEnds s s' o (2 ^ 63 + k) false ∧ s'.dieParts = s.dieParts ∧ SameMem s s'
       o.kind = .stream → o.args.getD 0 0 = 0 → (o.args.getD 4 0).toNat < 64 → (o.args.getD 5 0).toNat < 8 →
       isRunning s o.task = true →
       (sidHome s p sid = none → fails 1)
       ∧ (∀ h pkg, sidHome s p sid = some (h, pkg) → pkg ≠ Config.torus.toNat → fails 8)
       ∧ (∀ h, sidHome s p sid = some (h, Config.torus.toNat) →
           (liveSn s h p sid = none → fails 1)
           ∧ (liveSn s h p sid = some w →
               (h ≠ d ∨ 16384 ≤ sn → fails 8)
               ∧ (h = d → sn < 16384 → (stState w = ST_MOVED ∨ stState w = ST_DONE → fails 2)
                   ∧ (stState w ≠ ST_MOVED → stState w ≠ ST_DONE → (2 ^ 32 ≤ hor → fails 6)
                       ∧ (hor < 2 ^ 32 → leastFree (getDp s d p).live (min (nstr s d p) 16384) 0 = none → fails 4)
                       ∧ (∀ c, hor < 2 ^ 32 → leastFree (getDp s d p).live (min (nstr s d p) 16384) 0 = some c →
                           (recRef s p (stRoot w) = 65535 → fails 9)
                           ∧ (recRef s p (stRoot w) < 65535 → ForkEnds s s' o (sidOf s p d c) true ∧ c ∈ (getDp s' d p).live
                               ∧ ((∀ n ∈ (getDp s d p).live, n < 16384) → recRef s' p (stRoot w) = recRef s p (stRoot w) + 1)
                               ∧ ∃ w', getStr s' d p c = some w' ∧ stHor w' = hor ∧ stStep w' = stStep w ∧ stLcur w' = stLcur w
                                 ∧ stNl w' = stNl w ∧ stPrio w' = stPrio w ∧ stModel w' = stModel w ∧ stAuto w' = stAuto w
                                 ∧ stHome w' = stHome w ∧ stRoot w' = stRoot w ∧ stSln w' = stSln w ∧ stRet w' = 0
                                 ∧ stIdleLim w' = stIdleLim w ∧ stAqc w' = 0 ∧ stPin w' = false ∧ sF w' 3 0 24 = sid
                                 ∧ stSgrp w' = (if o.args.getD 3 0 = 1 ∧ stSgrp w ≠ 0xFFFFFF then stSgrp w else sid)
                                 ∧ (∀ i ∈ [6, 7, 8], w'.getD i 0 = w.getD i 0) ∧ sF w' 9 0 24 = 0xFFFFFF ∧ sF w' 9 24 24 = 0xFFFFFF
                                 ∧ stState w' = (if 0 < hor ∧ (stAuto w = true ∨ 0 < stLcur w) then ST_READY
                                     else if hor = 0 then ST_DONE else ST_IDLE))))))))
  ∧ (∀ (s : State) (p ring : Nat) (r : Ring) (es ps : List Nat),
       let s' := ringPut s p ring r es
       RingWords s p ((List.range es.length).map (fun j => (ring + 64 + 8 * ((r.wr + j) % 2 ^ 32 % r.cap)) % 2 ^ 48) ++ [ring + 8]) ps →
       (∀ j e, es[j]? = some e → rdN s' (ps.getD j 0) 8 = e % 2 ^ 64)
         ∧ rdN s' (ps.getD es.length 0) 8 = (r.wr + es.length) % 2 ^ 32 ∧ SameMemOff ps 8 s s')
  ∧ (∀ (s : State) (p va : Nat),
       let w := fun k => ringRd s p (va + 8 * k)
       let used := (w 1 + 2 ^ 32 - w 2) % 2 ^ 32
       let valid := va % 64 = 0 ∧ 1 ≤ w 0 ∧ w 0 < 2 ^ 16 ∧ w 1 < 2 ^ 32 ∧ w 2 < 2 ^ 32 ∧ w 3 < 2 ^ 33 ∧ (∀ k, 4 ≤ k → k < 8 → w k = 0)
         ∧ used ≤ w 0
       (¬ valid → ringAt s p va = none)
       ∧ (valid → ∃ r, ringAt s p va = some r ∧ r.cap = w 0 ∧ r.wr = w 1 ∧ r.free = w 0 - used
           ∧ r.stop = if 2 ^ 32 ≤ w 3 then some (w 3 - 2 ^ 32) else none))
  ∧ (∀ (s : State) (d : Nat) (o : Op),
       let p := o.pid
       let sid := (o.args.getD 1 0).toNat % 2 ^ 24
       let sn := sid % 2 ^ 16
       let s' := applyReq s d o
       let fails := fun (k : Nat) => Finished s s' o (2 ^ 63 + k) o.flags ∧ SameMem s s' ∧ s'.dieParts = s.dieParts
       o.kind = .commit → o.cl ≠ awayCl → o ∈ s.ops → (∀ q ∈ s.ops, q.id = o.id → q = o) → Unhindered s o →
       isRunning s o.task = true →
       (liveSn s d p sid = none → fails 1)
       ∧ (∀ w, liveSn s d p sid = some w → sn < 16384 → w.length = 16 →
           (stState w = ST_MOVED → fails 3) ∧ (stState w ≠ ST_MOVED → stState w ≠ ST_RUNNING → fails 2)
           ∧ (stState w = ST_RUNNING →
               let ring := sF w 6 0 48
               let slot := sF w 7 0 48
               let stops := fun (vas : List Nat) => vas.findSome? (fun v => ringStop s p v true)
               (∀ c va, stops (wordVas ring 64) = some (c, va) → OpStopped s s' o (causeCode c) (BitVec.ofNat 64 va) 0
                 ∧ SameMem s s' ∧ s'.dieParts = s.dieParts)
               ∧ (stops (wordVas ring 64) = none → ringAt s p ring = none → fails 6)
               ∧ (∀ r n found, stops (wordVas ring 64) = none → ringAt s p ring = some r →
                   let toks := o.acc.map (·.toNat)
                   (found = true → ∃ x, r.stop = some x ∧ 1 ≤ n ∧ toks[n - 1]? = some x ∧ ∀ j, j + 1 < n → toks[j]? ≠ some x) →
                   (found = false → n = toks.length ∧ ∀ x, r.stop = some x → x ∉ toks) →
                   let k := min n r.free
                   let es := (toks.take n).mapIdx (fun j t => t + 2 ^ 32 * (if found ∧ j + 1 = n then 1 else 0)
                     + 2 ^ 33 * (if j + 1 = n then 1 else 0) + 2 ^ 48 * (stStep w % 2 ^ 16))
                   let vas := (List.range k).map (fun j => (ring + 64 + 8 * ((r.wr + j) % 2 ^ 32 % r.cap)) % 2 ^ 48) ++ wordVas slot 136
                   (∀ c va, stops vas = some (c, va) → OpStopped s s' o (causeCode c) (BitVec.ofNat 64 va) 0 ∧ SameMem s s')
                   ∧ (stops vas = none →
                       let x := n + 2 ^ 8 * k + 2 ^ 16 * (if found then 1 else 0) + 2 ^ 17 * (if k < n then 1 else 0)
                       Finished s s' o x o.flags
                       ∧ (k = n → found = false → getStr s' d p sn = some w)
                       ∧ (k = n → found = true → ∃ w', getStr s' d p sn = some w' ∧ stState w' = ST_DONE ∧ KeepsWords w w' [0])
                       ∧ (k < n → ∃ w', getStr s' d p sn = some w' ∧ stState w' = ST_HELD ∧ sF w' 0 7 1 = 1 ∧ KeepsWords w w' [0])
                       ∧ (k = n → found = false → ∀ b, rdCell s'.mem b = rdCell (ringPut (relDrain s d) p ring r es).mem b)
                       ∧ (∀ ps, Quiet s → k < n → RingWords s p ((List.range k).map (fun j =>
                           (ring + 64 + 8 * ((r.wr + j) % 2 ^ 32 % r.cap)) % 2 ^ 48) ++ [ring + 8]
                             ++ (List.range (n - k + 1)).map (fun j => slot + 8 * j)) ps →
                           (∀ j e, j < k → es[j]? = some e → rdN s' (ps.getD j 0) 8 = e % 2 ^ 64)
                           ∧ rdN s' (ps.getD k 0) 8 = (r.wr + k) % 2 ^ 32
                           ∧ rdN s' (ps.getD (k + 1) 0) 8 = n - k + (if found then 32 else 0)
                           ∧ (∀ j e, es[k + j]? = some e → rdN s' (ps.getD (k + 2 + j) 0) 8 = (e + 2 ^ 34) % 2 ^ 64)
                           ∧ SameMemOff ps 8 s s'))))))
  ∧ (∀ (s : State),
       let d := s.ev.unit
       let p := s.ev.pid
       let sn := s.ev.id
       (∀ w, tickNow s % 64 = 0 → getStr s d p sn = some w → sF w 0 7 1 = 0 → Performs .pendingSlotDrain s (fun s' => s' = s))
       ∧ (tickNow s % 64 ≠ 0 → Performs .pendingSlotDrain s (fun s' => s' = s))
       ∧ (∀ w r, tickNow s % 64 = 0 → getStr s d p sn = some w → sn < 16384 → w.length = 16 → sF w 0 7 1 = 1 →
           let ring := sF w 6 0 48
           let slot := sF w 7 0 48
           (∀ v ∈ wordVas ring 64 ++ wordVas slot 136, ringStop s p v true = none) → ringAt s p ring = some r →
           let w0 := ringRd s p slot
           let np := w0 % 32
           let k := min np r.free
           let entry := fun (j : Nat) => (ring + 64 + 8 * ((r.wr + j) % 2 ^ 32 % r.cap)) % 2 ^ 48
           np ≤ 16 → (∀ j, j < k → ringStop s p (entry j) true = none) →
           (k < np → Performs .pendingSlotDrain s (fun s' => getStr s' d p sn = some w
             ∧ ∀ ps, 0 < k → RingWords s p ((List.range k).map entry ++ [ring + 8] ++ (List.range (np - k + 1)).map (fun j =>
                 slot + 8 * j)) ps →
               (∀ j, j < k → rdN s' (ps.getD j 0) 8 = ringRd s p (slot + 8 + 8 * j)) ∧ rdN s' (ps.getD k 0) 8 = (r.wr + k) % 2 ^ 32
               ∧ rdN s' (ps.getD (k + 1) 0) 8 = np - k + w0 / 32 % 4 * 32
               ∧ (∀ j, j < np - k → rdN s' (ps.getD (k + 2 + j) 0) 8 = ringRd s p (slot + 8 + 8 * (k + j)))
               ∧ SameMemOff ps 8 s s'))
           ∧ (np ≤ r.free →
               let ends := fun (f : List Word → Prop) => Performs .pendingSlotDrain s (fun s' =>
                 ∃ w', getStr s' d p sn = some w' ∧ sF w' 0 7 1 = 0 ∧ f w')
               (stState w ≠ ST_HELD → ends (fun w' => stState w' = stState w))
               ∧ (stState w = ST_HELD → w0 / 32 % 2 = 1 → ends (fun w' => stState w' = ST_DONE))
               ∧ (stState w = ST_HELD → w0 / 32 % 2 = 0 → w0 / 64 % 2 = 0 → ends SteppedState)
               ∧ (stState w = ST_HELD → w0 / 32 % 2 = 0 → w0 / 64 % 2 = 1 → stHor w ≠ 0 → ends (fun w' => SteppedState w'
                   ∧ SteppedWords w w' 0)))))
end

