-- ==== Sys2Proof/Laws/Decode.lean ====
section
/-! SUPPORT. The fields of a word built by `put`: what each field reads, which bits stay clear, and a word read back from its
bytes. -/

namespace Sys2Proof

theorem bit_or {w : Nat} (x y : BitVec w) (i : Nat) : bit (x ||| y) i = (bit x i || bit y i) := by simp [bit]

theorem bits_or {w : Nat} (x y : BitVec w) (p m : Nat) : bits (x ||| y) p m = bits x p m ||| bits y p m := by
  apply BitVec.eq_of_getLsbD_eq
  intro i hi
  simp [bits, hi]

/-- One bit of a field. -/
theorem bit_put {n : Nat} (lo : Nat) (x : BitVec n) (i : Nat) :
    bit (put lo x) i = (decide (lo ≤ i) && decide (i < 64) && x.getLsbD (i - lo)) := by
  simp only [bit, put, BitVec.getLsbD_shiftLeft, BitVec.getLsbD_setWidth]
  by_cases h1 : i < 64 <;> by_cases h2 : i < lo
  · simp [h1, h2, Nat.not_le.mpr h2]
  · have h3 : i - lo < 64 := by omega
    simp [h1, h2, h3, Nat.not_lt.mp h2]
  · simp [h1]
  · simp [h1]

/-- A bit outside a field is clear. -/
theorem bit_put_out {n : Nat} (lo : Nat) (x : BitVec n) (i : Nat) (h : i < lo ∨ lo + n ≤ i) : bit (put lo x) i = false := by
  rw [bit_put]
  rcases h with h | h
  · simp [Nat.not_le.mpr h]
  · rw [BitVec.getLsbD_of_ge x (i - lo) (by omega)]; simp

/-- A flag reads back. -/
theorem bit_put_flag (lo : Nat) (b : Bool) (h : lo < 64) : bit (put lo (b2b b)) lo = b := by
  rw [bit_put]
  cases b <;> simp [b2b, h]

/-- A bit that a form sets reads as one. -/
theorem bit_put_one (lo : Nat) (h : lo < 64) : bit (put lo (1 : BitVec 1)) lo = true := by
  rw [bit_put]; simp [h]

theorem bits_getLsbD {w : Nat} (x : BitVec w) (p m i : Nat) :
    (bits x p m).getLsbD i = (decide (i < m) && bit x (p + i)) := by
  simp [bits, bit]

/-- A field reads back. -/
theorem bits_put_same {n : Nat} (lo : Nat) (x : BitVec n) (h : lo + n ≤ 64) : bits (put lo x) lo n = x := by
  apply BitVec.eq_of_getLsbD_eq
  intro i hi
  rw [bits_getLsbD, bit_put]
  have h1 : lo + i < 64 := by omega
  simp [hi, h1]

/-- A field reads zero from another field's place. -/
theorem bits_put_out {n : Nat} (lo : Nat) (x : BitVec n) (p m : Nat) (h : p + m ≤ lo ∨ lo + n ≤ p) :
    bits (put lo x) p m = 0 := by
  apply BitVec.eq_of_getLsbD_eq
  intro i hi
  rw [bits_getLsbD, bit_put_out lo x (p + i) (by omega)]
  simp

/-- A field sets no bit outside the mask that covers it. -/
theorem bits_put_masked {n : Nat} (lo : Nat) (x : BitVec n) (p m : Nat) (k : BitVec m)
    (h : bits (put lo (BitVec.allOnes n)) p m &&& ~~~ k = 0) : bits (put lo x) p m &&& ~~~ k = 0 := by
  apply BitVec.eq_of_getLsbD_eq
  intro i hi
  have hb := congrArg (fun y => y.getLsbD i) h
  simp only [BitVec.getLsbD_and, bits_getLsbD, bit_put] at hb ⊢
  by_cases h1 : i < m <;> simp_all
  intro h2 h3 h4
  apply hb h2 h3
  exact BitVec.lt_of_getLsbD h4

theorem or_and_masked {m : Nat} (x y k : BitVec m) (hx : x &&& k = 0) (hy : y &&& k = 0) : (x ||| y) &&& k = 0 := by
  apply BitVec.eq_of_getLsbD_eq
  intro i hi
  have h1 := congrArg (fun z => z.getLsbD i) hx
  have h2 := congrArg (fun z => z.getLsbD i) hy
  simp only [BitVec.getLsbD_and, BitVec.getLsbD_or, BitVec.ofNat_eq_ofNat, BitVec.getLsbD_zero] at h1 h2 ⊢
  cases hk : k.getLsbD i <;> simp_all

/-- A word reads back from its bytes. -/
theorem leWord_wordBytes (w : Word) (r : List Byte) : leWord (wordBytes w ++ r) = some (w, r) := by
  simp only [wordBytes, leWord, List.cons_append, List.nil_append, Option.some.injEq, Prod.mk.injEq, and_true]
  apply BitVec.eq_of_getLsbD_eq
  intro i hi
  simp only [BitVec.getLsbD_append, bits_getLsbD, bit]
  interval_cases i <;> simp

/-! ### The head of word 0 (R40) -/

theorem bits_hd_maj (maj mn : Nat) (g : Guard) : bits (hd maj mn g) 58 6 = BitVec.ofNat 6 maj := by
  simp (disch := omega) [hd, bits_or, bits_put_out, bits_put_same]

theorem bits_hd_min (maj mn : Nat) (g : Guard) : bits (hd maj mn g) 48 6 = BitVec.ofNat 6 mn := by
  simp (disch := omega) [hd, bits_or, bits_put_out, bits_put_same]

theorem bits_hd_p (maj mn : Nat) (g : Guard) : bits (hd maj mn g) 54 3 = g.p := by
  simp (disch := omega) [hd, bits_or, bits_put_out, bits_put_same]

theorem bit_hd_neg (maj mn : Nat) (g : Guard) : bit (hd maj mn g) 57 = g.neg := by
  simp (disch := omega) [hd, bit_or, bit_put_out, bit_put_flag]

/-- The head has no operand bits. -/
theorem bits_hd_low (maj mn : Nat) (g : Guard) (p m : Nat) (h : p + m ≤ 48) : bits (hd maj mn g) p m = 0 := by
  simp (disch := omega) [hd, bits_or, bits_put_out]

theorem bit_hd_low (maj mn : Nat) (g : Guard) (i : Nat) (h : i < 48) : bit (hd maj mn g) i = false := by
  simp (disch := omega) [hd, bit_or, bit_put_out]

/-- The top three bits say whether a tile command word begins (R47). -/
theorem bits_hd_top (maj mn : Nat) (g : Guard) : bits (hd maj mn g) 61 3 = BitVec.extractLsb' 3 3 (BitVec.ofNat 6 maj) := by
  simp (disch := omega) only [hd, bits_or, bits_put_out, BitVec.ofNat_eq_ofNat, BitVec.or_zero]
  apply BitVec.eq_of_getLsbD_eq
  intro i hi
  rw [bits_getLsbD, bit_put]
  have h1 : 61 + i < 64 := by omega
  have h2 : 61 + i - 58 = 3 + i := by omega
  simp [hi, h1, h2, Nat.le_add_right_of_le]

/-! ### Decoding -/

theorem decodeWords_ok {w w1 : Word} {f : Form} (hf : formOf w w1 = some f) (h0 : bits w 0 48 &&& ~~~ f.used = 0)
    (h1 : bits w1 0 58 &&& ~~~ f.used1 = 0) (h2 : bits w1 58 6 = 0) (h3 : f.fixed = true) (hw : wellFormed f.instr = true) :
    decodeWords w w1 0 0 = .ok f.instr := by
  obtain ⟨ha, hb⟩ : reservedBad f.instr = false ∧ registerBad f.instr = false := by simpa [wellFormed] using hw
  simp [decodeWords, hf, h0, h1, h2, h3, ha, hb]

/-- A single word whose form is `f`, with no bit set that `f` does not use. -/
theorem decode_one {w : Word} {f : Form} (rest : List Byte) (ht : isTcwMajor w = false) (hf : formOf w 0 = some f)
    (h0 : bits w 0 48 &&& ~~~ f.used = 0) (h3 : f.fixed = true) (hw : wellFormed f.instr = true) :
    decode (wordBytes w ++ rest) = .ok (f.instr, rest) := by
  have h : decodeWords w 0 0 0 = .ok f.instr := decodeWords_ok hf h0 (by simp [bits]) (by simp [bits]) h3 hw
  simp only [decode, leWord_wordBytes, ht, h, Bool.false_eq_true, false_and, if_false, Except.map]

/-- The four words of a tile command whose form is `f`. -/
theorem decode_four {w w1 : Word} {f : Form} (rest : List Byte) (ht : isTcwMajor w = true) (hz : (formOf w 0).isSome = true)
    (hf : formOf w w1 = some f) (h0 : bits w 0 48 &&& ~~~ f.used = 0) (h1 : bits w1 0 58 &&& ~~~ f.used1 = 0)
    (h2 : bits w1 58 6 = 0) (h3 : f.fixed = true) (hw : wellFormed f.instr = true) :
    decode (wordBytes w ++ (wordBytes w1 ++ (wordBytes 0 ++ (wordBytes 0 ++ rest)))) = .ok (f.instr, rest) := by
  have h : decodeWords w w1 0 0 = .ok f.instr := decodeWords_ok hf h0 h1 h2 h3 hw
  simp only [decode, leWord_wordBytes, ht, hz, h, and_self, if_true, Except.map]

end Sys2Proof
end

