-- ==== Sys2Proof/Laws/State.lean ====
section
/-! SUPPORT. The fields of the state and of a strand under each named update: what is written, and that all else stays. -/

namespace Sys2Proof.Machine

/-! ### Updates of the state -/

@[simp] theorem putStrand_cycle (s : State) (t : Strand) : (putStrand s t).cycle = s.cycle := rfl
@[simp] theorem putStrand_devTime (s : State) (t : Strand) : (putStrand s t).devTime = s.devTime := rfl
@[simp] theorem putStrand_agenda (s : State) (t : Strand) : (putStrand s t).agenda = s.agenda := rfl
@[simp] theorem putStrand_inputs (s : State) (t : Strand) : (putStrand s t).inputs = s.inputs := rfl
@[simp] theorem putStrand_ev (s : State) (t : Strand) : (putStrand s t).ev = s.ev := rfl
@[simp] theorem putStrand_cursor (s : State) (t : Strand) : (putStrand s t).cursor = s.cursor := rfl
@[simp] theorem putStrand_early (s : State) (t : Strand) : (putStrand s t).early = s.early := rfl
@[simp] theorem putStrand_written (s : State) (t : Strand) : (putStrand s t).written = s.written := rfl
@[simp] theorem putStrand_autos (s : State) (t : Strand) : (putStrand s t).autos = s.autos := rfl
@[simp] theorem putStrand_cur (s : State) (t : Strand) : (putStrand s t).cur = s.cur := rfl
@[simp] theorem putStrand_nfree (s : State) (t : Strand) : (putStrand s t).nfree = s.nfree := rfl
@[simp] theorem putStrand_nextId (s : State) (t : Strand) : (putStrand s t).nextId = s.nextId := rfl
@[simp] theorem putStrand_reply (s : State) (t : Strand) : (putStrand s t).reply = s.reply := rfl
@[simp] theorem putStrand_mem (s : State) (t : Strand) : (putStrand s t).mem = s.mem := rfl
@[simp] theorem putStrand_fe (s : State) (t : Strand) : (putStrand s t).fe = s.fe := rfl
@[simp] theorem putStrand_poison (s : State) (t : Strand) : (putStrand s t).poison = s.poison := rfl
@[simp] theorem putStrand_soft (s : State) (t : Strand) : (putStrand s t).soft = s.soft := rfl
@[simp] theorem putStrand_strands (s : State) (t : Strand) : (putStrand s t).strands = tabSet s.strands s.cur t := rfl
@[simp] theorem putStrand_parked (s : State) (t : Strand) : (putStrand s t).parked = s.parked := rfl
@[simp] theorem putStrand_images (s : State) (t : Strand) : (putStrand s t).images = s.images := rfl
@[simp] theorem putStrand_conts (s : State) (t : Strand) : (putStrand s t).conts = s.conts := rfl
@[simp] theorem putStrand_ops (s : State) (t : Strand) : (putStrand s t).ops = s.ops := rfl
@[simp] theorem putStrand_egress (s : State) (t : Strand) : (putStrand s t).egress = s.egress := rfl
@[simp] theorem putStrand_repl (s : State) (t : Strand) : (putStrand s t).repl = s.repl := rfl
@[simp] theorem putStrand_flights (s : State) (t : Strand) : (putStrand s t).flights = s.flights := rfl
@[simp] theorem putStrand_colls (s : State) (t : Strand) : (putStrand s t).colls = s.colls := rfl
@[simp] theorem putStrand_bduRot (s : State) (t : Strand) : (putStrand s t).bduRot = s.bduRot := rfl
@[simp] theorem putStrand_owed (s : State) (t : Strand) : (putStrand s t).owed = s.owed := rfl
@[simp] theorem putStrand_singles (s : State) (t : Strand) : (putStrand s t).singles = s.singles := rfl
@[simp] theorem putStrand_clusters (s : State) (t : Strand) : (putStrand s t).clusters = s.clusters := rfl
@[simp] theorem putStrand_clParts (s : State) (t : Strand) : (putStrand s t).clParts = s.clParts := rfl
@[simp] theorem putStrand_dies (s : State) (t : Strand) : (putStrand s t).dies = s.dies := rfl
@[simp] theorem putStrand_dieParts (s : State) (t : Strand) : (putStrand s t).dieParts = s.dieParts := rfl
@[simp] theorem putStrand_parts (s : State) (t : Strand) : (putStrand s t).parts = s.parts := rfl
@[simp] theorem putStrand_dev (s : State) (t : Strand) : (putStrand s t).dev = s.dev := rfl

@[simp] theorem putClu_cycle (s : State) (c : Nat) (x : Cluster) : (putClu s c x).cycle = s.cycle := rfl
@[simp] theorem putClu_devTime (s : State) (c : Nat) (x : Cluster) : (putClu s c x).devTime = s.devTime := rfl
@[simp] theorem putClu_agenda (s : State) (c : Nat) (x : Cluster) : (putClu s c x).agenda = s.agenda := rfl
@[simp] theorem putClu_inputs (s : State) (c : Nat) (x : Cluster) : (putClu s c x).inputs = s.inputs := rfl
@[simp] theorem putClu_ev (s : State) (c : Nat) (x : Cluster) : (putClu s c x).ev = s.ev := rfl
@[simp] theorem putClu_cursor (s : State) (c : Nat) (x : Cluster) : (putClu s c x).cursor = s.cursor := rfl
@[simp] theorem putClu_early (s : State) (c : Nat) (x : Cluster) : (putClu s c x).early = s.early := rfl
@[simp] theorem putClu_written (s : State) (c : Nat) (x : Cluster) : (putClu s c x).written = s.written := rfl
@[simp] theorem putClu_autos (s : State) (c : Nat) (x : Cluster) : (putClu s c x).autos = s.autos := rfl
@[simp] theorem putClu_cur (s : State) (c : Nat) (x : Cluster) : (putClu s c x).cur = s.cur := rfl
@[simp] theorem putClu_nfree (s : State) (c : Nat) (x : Cluster) : (putClu s c x).nfree = s.nfree := rfl
@[simp] theorem putClu_nextId (s : State) (c : Nat) (x : Cluster) : (putClu s c x).nextId = s.nextId := rfl
@[simp] theorem putClu_reply (s : State) (c : Nat) (x : Cluster) : (putClu s c x).reply = s.reply := rfl
@[simp] theorem putClu_mem (s : State) (c : Nat) (x : Cluster) : (putClu s c x).mem = s.mem := rfl
@[simp] theorem putClu_fe (s : State) (c : Nat) (x : Cluster) : (putClu s c x).fe = s.fe := rfl
@[simp] theorem putClu_poison (s : State) (c : Nat) (x : Cluster) : (putClu s c x).poison = s.poison := rfl
@[simp] theorem putClu_soft (s : State) (c : Nat) (x : Cluster) : (putClu s c x).soft = s.soft := rfl
@[simp] theorem putClu_strands (s : State) (c : Nat) (x : Cluster) : (putClu s c x).strands = s.strands := rfl
@[simp] theorem putClu_parked (s : State) (c : Nat) (x : Cluster) : (putClu s c x).parked = s.parked := rfl
@[simp] theorem putClu_images (s : State) (c : Nat) (x : Cluster) : (putClu s c x).images = s.images := rfl
@[simp] theorem putClu_conts (s : State) (c : Nat) (x : Cluster) : (putClu s c x).conts = s.conts := rfl
@[simp] theorem putClu_ops (s : State) (c : Nat) (x : Cluster) : (putClu s c x).ops = s.ops := rfl
@[simp] theorem putClu_egress (s : State) (c : Nat) (x : Cluster) : (putClu s c x).egress = s.egress := rfl
@[simp] theorem putClu_repl (s : State) (c : Nat) (x : Cluster) : (putClu s c x).repl = s.repl := rfl
@[simp] theorem putClu_flights (s : State) (c : Nat) (x : Cluster) : (putClu s c x).flights = s.flights := rfl
@[simp] theorem putClu_colls (s : State) (c : Nat) (x : Cluster) : (putClu s c x).colls = s.colls := rfl
@[simp] theorem putClu_bduRot (s : State) (c : Nat) (x : Cluster) : (putClu s c x).bduRot = s.bduRot := rfl
@[simp] theorem putClu_owed (s : State) (c : Nat) (x : Cluster) : (putClu s c x).owed = s.owed := rfl
@[simp] theorem putClu_singles (s : State) (c : Nat) (x : Cluster) : (putClu s c x).singles = s.singles := rfl
@[simp] theorem putClu_clusters (s : State) (c : Nat) (x : Cluster) : (putClu s c x).clusters = tabSet s.clusters c x := rfl
@[simp] theorem putClu_clParts (s : State) (c : Nat) (x : Cluster) : (putClu s c x).clParts = s.clParts := rfl
@[simp] theorem putClu_dies (s : State) (c : Nat) (x : Cluster) : (putClu s c x).dies = s.dies := rfl
@[simp] theorem putClu_dieParts (s : State) (c : Nat) (x : Cluster) : (putClu s c x).dieParts = s.dieParts := rfl
@[simp] theorem putClu_parts (s : State) (c : Nat) (x : Cluster) : (putClu s c x).parts = s.parts := rfl
@[simp] theorem putClu_dev (s : State) (c : Nat) (x : Cluster) : (putClu s c x).dev = s.dev := rfl

@[simp] theorem putCp_cycle (s : State) (c p : Nat) (x : ClPart) : (putCp s c p x).cycle = s.cycle := rfl
@[simp] theorem putCp_devTime (s : State) (c p : Nat) (x : ClPart) : (putCp s c p x).devTime = s.devTime := rfl
@[simp] theorem putCp_agenda (s : State) (c p : Nat) (x : ClPart) : (putCp s c p x).agenda = s.agenda := rfl
@[simp] theorem putCp_inputs (s : State) (c p : Nat) (x : ClPart) : (putCp s c p x).inputs = s.inputs := rfl
@[simp] theorem putCp_ev (s : State) (c p : Nat) (x : ClPart) : (putCp s c p x).ev = s.ev := rfl
@[simp] theorem putCp_cursor (s : State) (c p : Nat) (x : ClPart) : (putCp s c p x).cursor = s.cursor := rfl
@[simp] theorem putCp_early (s : State) (c p : Nat) (x : ClPart) : (putCp s c p x).early = s.early := rfl
@[simp] theorem putCp_written (s : State) (c p : Nat) (x : ClPart) : (putCp s c p x).written = s.written := rfl
@[simp] theorem putCp_autos (s : State) (c p : Nat) (x : ClPart) : (putCp s c p x).autos = s.autos := rfl
@[simp] theorem putCp_cur (s : State) (c p : Nat) (x : ClPart) : (putCp s c p x).cur = s.cur := rfl
@[simp] theorem putCp_nfree (s : State) (c p : Nat) (x : ClPart) : (putCp s c p x).nfree = s.nfree := rfl
@[simp] theorem putCp_nextId (s : State) (c p : Nat) (x : ClPart) : (putCp s c p x).nextId = s.nextId := rfl
@[simp] theorem putCp_reply (s : State) (c p : Nat) (x : ClPart) : (putCp s c p x).reply = s.reply := rfl
@[simp] theorem putCp_mem (s : State) (c p : Nat) (x : ClPart) : (putCp s c p x).mem = s.mem := rfl
@[simp] theorem putCp_fe (s : State) (c p : Nat) (x : ClPart) : (putCp s c p x).fe = s.fe := rfl
@[simp] theorem putCp_poison (s : State) (c p : Nat) (x : ClPart) : (putCp s c p x).poison = s.poison := rfl
@[simp] theorem putCp_soft (s : State) (c p : Nat) (x : ClPart) : (putCp s c p x).soft = s.soft := rfl
@[simp] theorem putCp_strands (s : State) (c p : Nat) (x : ClPart) : (putCp s c p x).strands = s.strands := rfl
@[simp] theorem putCp_parked (s : State) (c p : Nat) (x : ClPart) : (putCp s c p x).parked = s.parked := rfl
@[simp] theorem putCp_images (s : State) (c p : Nat) (x : ClPart) : (putCp s c p x).images = s.images := rfl
@[simp] theorem putCp_conts (s : State) (c p : Nat) (x : ClPart) : (putCp s c p x).conts = s.conts := rfl
@[simp] theorem putCp_ops (s : State) (c p : Nat) (x : ClPart) : (putCp s c p x).ops = s.ops := rfl
@[simp] theorem putCp_egress (s : State) (c p : Nat) (x : ClPart) : (putCp s c p x).egress = s.egress := rfl
@[simp] theorem putCp_repl (s : State) (c p : Nat) (x : ClPart) : (putCp s c p x).repl = s.repl := rfl
@[simp] theorem putCp_flights (s : State) (c p : Nat) (x : ClPart) : (putCp s c p x).flights = s.flights := rfl
@[simp] theorem putCp_colls (s : State) (c p : Nat) (x : ClPart) : (putCp s c p x).colls = s.colls := rfl
@[simp] theorem putCp_bduRot (s : State) (c p : Nat) (x : ClPart) : (putCp s c p x).bduRot = s.bduRot := rfl
@[simp] theorem putCp_owed (s : State) (c p : Nat) (x : ClPart) : (putCp s c p x).owed = s.owed := rfl
@[simp] theorem putCp_singles (s : State) (c p : Nat) (x : ClPart) : (putCp s c p x).singles = s.singles := rfl
@[simp] theorem putCp_clusters (s : State) (c p : Nat) (x : ClPart) : (putCp s c p x).clusters = s.clusters := rfl
@[simp] theorem putCp_clParts (s : State) (c p : Nat) (x : ClPart) : (putCp s c p x).clParts = tabSet s.clParts (cpKey c p) x := rfl
@[simp] theorem putCp_dies (s : State) (c p : Nat) (x : ClPart) : (putCp s c p x).dies = s.dies := rfl
@[simp] theorem putCp_dieParts (s : State) (c p : Nat) (x : ClPart) : (putCp s c p x).dieParts = s.dieParts := rfl
@[simp] theorem putCp_parts (s : State) (c p : Nat) (x : ClPart) : (putCp s c p x).parts = s.parts := rfl
@[simp] theorem putCp_dev (s : State) (c p : Nat) (x : ClPart) : (putCp s c p x).dev = s.dev := rfl

@[simp] theorem putDie_cycle (s : State) (d : Nat) (x : Die) : (putDie s d x).cycle = s.cycle := rfl
@[simp] theorem putDie_devTime (s : State) (d : Nat) (x : Die) : (putDie s d x).devTime = s.devTime := rfl
@[simp] theorem putDie_agenda (s : State) (d : Nat) (x : Die) : (putDie s d x).agenda = s.agenda := rfl
@[simp] theorem putDie_inputs (s : State) (d : Nat) (x : Die) : (putDie s d x).inputs = s.inputs := rfl
@[simp] theorem putDie_ev (s : State) (d : Nat) (x : Die) : (putDie s d x).ev = s.ev := rfl
@[simp] theorem putDie_cursor (s : State) (d : Nat) (x : Die) : (putDie s d x).cursor = s.cursor := rfl
@[simp] theorem putDie_early (s : State) (d : Nat) (x : Die) : (putDie s d x).early = s.early := rfl
@[simp] theorem putDie_written (s : State) (d : Nat) (x : Die) : (putDie s d x).written = s.written := rfl
@[simp] theorem putDie_autos (s : State) (d : Nat) (x : Die) : (putDie s d x).autos = s.autos := rfl
@[simp] theorem putDie_cur (s : State) (d : Nat) (x : Die) : (putDie s d x).cur = s.cur := rfl
@[simp] theorem putDie_nfree (s : State) (d : Nat) (x : Die) : (putDie s d x).nfree = s.nfree := rfl
@[simp] theorem putDie_nextId (s : State) (d : Nat) (x : Die) : (putDie s d x).nextId = s.nextId := rfl
@[simp] theorem putDie_reply (s : State) (d : Nat) (x : Die) : (putDie s d x).reply = s.reply := rfl
@[simp] theorem putDie_mem (s : State) (d : Nat) (x : Die) : (putDie s d x).mem = s.mem := rfl
@[simp] theorem putDie_fe (s : State) (d : Nat) (x : Die) : (putDie s d x).fe = s.fe := rfl
@[simp] theorem putDie_poison (s : State) (d : Nat) (x : Die) : (putDie s d x).poison = s.poison := rfl
@[simp] theorem putDie_soft (s : State) (d : Nat) (x : Die) : (putDie s d x).soft = s.soft := rfl
@[simp] theorem putDie_strands (s : State) (d : Nat) (x : Die) : (putDie s d x).strands = s.strands := rfl
@[simp] theorem putDie_parked (s : State) (d : Nat) (x : Die) : (putDie s d x).parked = s.parked := rfl
@[simp] theorem putDie_images (s : State) (d : Nat) (x : Die) : (putDie s d x).images = s.images := rfl
@[simp] theorem putDie_conts (s : State) (d : Nat) (x : Die) : (putDie s d x).conts = s.conts := rfl
@[simp] theorem putDie_ops (s : State) (d : Nat) (x : Die) : (putDie s d x).ops = s.ops := rfl
@[simp] theorem putDie_egress (s : State) (d : Nat) (x : Die) : (putDie s d x).egress = s.egress := rfl
@[simp] theorem putDie_repl (s : State) (d : Nat) (x : Die) : (putDie s d x).repl = s.repl := rfl
@[simp] theorem putDie_flights (s : State) (d : Nat) (x : Die) : (putDie s d x).flights = s.flights := rfl
@[simp] theorem putDie_colls (s : State) (d : Nat) (x : Die) : (putDie s d x).colls = s.colls := rfl
@[simp] theorem putDie_bduRot (s : State) (d : Nat) (x : Die) : (putDie s d x).bduRot = s.bduRot := rfl
@[simp] theorem putDie_owed (s : State) (d : Nat) (x : Die) : (putDie s d x).owed = s.owed := rfl
@[simp] theorem putDie_singles (s : State) (d : Nat) (x : Die) : (putDie s d x).singles = s.singles := rfl
@[simp] theorem putDie_clusters (s : State) (d : Nat) (x : Die) : (putDie s d x).clusters = s.clusters := rfl
@[simp] theorem putDie_clParts (s : State) (d : Nat) (x : Die) : (putDie s d x).clParts = s.clParts := rfl
@[simp] theorem putDie_dies (s : State) (d : Nat) (x : Die) : (putDie s d x).dies = tabSet s.dies d x := rfl
@[simp] theorem putDie_dieParts (s : State) (d : Nat) (x : Die) : (putDie s d x).dieParts = s.dieParts := rfl
@[simp] theorem putDie_parts (s : State) (d : Nat) (x : Die) : (putDie s d x).parts = s.parts := rfl
@[simp] theorem putDie_dev (s : State) (d : Nat) (x : Die) : (putDie s d x).dev = s.dev := rfl

@[simp] theorem putDp_cycle (s : State) (d p : Nat) (x : DiePart) : (putDp s d p x).cycle = s.cycle := rfl
@[simp] theorem putDp_devTime (s : State) (d p : Nat) (x : DiePart) : (putDp s d p x).devTime = s.devTime := rfl
@[simp] theorem putDp_agenda (s : State) (d p : Nat) (x : DiePart) : (putDp s d p x).agenda = s.agenda := rfl
@[simp] theorem putDp_inputs (s : State) (d p : Nat) (x : DiePart) : (putDp s d p x).inputs = s.inputs := rfl
@[simp] theorem putDp_ev (s : State) (d p : Nat) (x : DiePart) : (putDp s d p x).ev = s.ev := rfl
@[simp] theorem putDp_cursor (s : State) (d p : Nat) (x : DiePart) : (putDp s d p x).cursor = s.cursor := rfl
@[simp] theorem putDp_early (s : State) (d p : Nat) (x : DiePart) : (putDp s d p x).early = s.early := rfl
@[simp] theorem putDp_written (s : State) (d p : Nat) (x : DiePart) : (putDp s d p x).written = s.written := rfl
@[simp] theorem putDp_autos (s : State) (d p : Nat) (x : DiePart) : (putDp s d p x).autos = s.autos := rfl
@[simp] theorem putDp_cur (s : State) (d p : Nat) (x : DiePart) : (putDp s d p x).cur = s.cur := rfl
@[simp] theorem putDp_nfree (s : State) (d p : Nat) (x : DiePart) : (putDp s d p x).nfree = s.nfree := rfl
@[simp] theorem putDp_nextId (s : State) (d p : Nat) (x : DiePart) : (putDp s d p x).nextId = s.nextId := rfl
@[simp] theorem putDp_reply (s : State) (d p : Nat) (x : DiePart) : (putDp s d p x).reply = s.reply := rfl
@[simp] theorem putDp_mem (s : State) (d p : Nat) (x : DiePart) : (putDp s d p x).mem = s.mem := rfl
@[simp] theorem putDp_fe (s : State) (d p : Nat) (x : DiePart) : (putDp s d p x).fe = s.fe := rfl
@[simp] theorem putDp_poison (s : State) (d p : Nat) (x : DiePart) : (putDp s d p x).poison = s.poison := rfl
@[simp] theorem putDp_soft (s : State) (d p : Nat) (x : DiePart) : (putDp s d p x).soft = s.soft := rfl
@[simp] theorem putDp_strands (s : State) (d p : Nat) (x : DiePart) : (putDp s d p x).strands = s.strands := rfl
@[simp] theorem putDp_parked (s : State) (d p : Nat) (x : DiePart) : (putDp s d p x).parked = s.parked := rfl
@[simp] theorem putDp_images (s : State) (d p : Nat) (x : DiePart) : (putDp s d p x).images = s.images := rfl
@[simp] theorem putDp_conts (s : State) (d p : Nat) (x : DiePart) : (putDp s d p x).conts = s.conts := rfl
@[simp] theorem putDp_ops (s : State) (d p : Nat) (x : DiePart) : (putDp s d p x).ops = s.ops := rfl
@[simp] theorem putDp_egress (s : State) (d p : Nat) (x : DiePart) : (putDp s d p x).egress = s.egress := rfl
@[simp] theorem putDp_repl (s : State) (d p : Nat) (x : DiePart) : (putDp s d p x).repl = s.repl := rfl
@[simp] theorem putDp_flights (s : State) (d p : Nat) (x : DiePart) : (putDp s d p x).flights = s.flights := rfl
@[simp] theorem putDp_colls (s : State) (d p : Nat) (x : DiePart) : (putDp s d p x).colls = s.colls := rfl
@[simp] theorem putDp_bduRot (s : State) (d p : Nat) (x : DiePart) : (putDp s d p x).bduRot = s.bduRot := rfl
@[simp] theorem putDp_owed (s : State) (d p : Nat) (x : DiePart) : (putDp s d p x).owed = s.owed := rfl
@[simp] theorem putDp_singles (s : State) (d p : Nat) (x : DiePart) : (putDp s d p x).singles = s.singles := rfl
@[simp] theorem putDp_clusters (s : State) (d p : Nat) (x : DiePart) : (putDp s d p x).clusters = s.clusters := rfl
@[simp] theorem putDp_clParts (s : State) (d p : Nat) (x : DiePart) : (putDp s d p x).clParts = s.clParts := rfl
@[simp] theorem putDp_dies (s : State) (d p : Nat) (x : DiePart) : (putDp s d p x).dies = s.dies := rfl
@[simp] theorem putDp_dieParts (s : State) (d p : Nat) (x : DiePart) : (putDp s d p x).dieParts = tabSet s.dieParts (cpKey d p) x := rfl
@[simp] theorem putDp_parts (s : State) (d p : Nat) (x : DiePart) : (putDp s d p x).parts = s.parts := rfl
@[simp] theorem putDp_dev (s : State) (d p : Nat) (x : DiePart) : (putDp s d p x).dev = s.dev := rfl

@[simp] theorem updClu_cycle (s : State) (c : Nat) (f : Cluster → Cluster) : (updClu s c f).cycle = s.cycle := rfl
@[simp] theorem updClu_devTime (s : State) (c : Nat) (f : Cluster → Cluster) : (updClu s c f).devTime = s.devTime := rfl
@[simp] theorem updClu_agenda (s : State) (c : Nat) (f : Cluster → Cluster) : (updClu s c f).agenda = s.agenda := rfl
@[simp] theorem updClu_inputs (s : State) (c : Nat) (f : Cluster → Cluster) : (updClu s c f).inputs = s.inputs := rfl
@[simp] theorem updClu_ev (s : State) (c : Nat) (f : Cluster → Cluster) : (updClu s c f).ev = s.ev := rfl
@[simp] theorem updClu_cursor (s : State) (c : Nat) (f : Cluster → Cluster) : (updClu s c f).cursor = s.cursor := rfl
@[simp] theorem updClu_early (s : State) (c : Nat) (f : Cluster → Cluster) : (updClu s c f).early = s.early := rfl
@[simp] theorem updClu_written (s : State) (c : Nat) (f : Cluster → Cluster) : (updClu s c f).written = s.written := rfl
@[simp] theorem updClu_autos (s : State) (c : Nat) (f : Cluster → Cluster) : (updClu s c f).autos = s.autos := rfl
@[simp] theorem updClu_cur (s : State) (c : Nat) (f : Cluster → Cluster) : (updClu s c f).cur = s.cur := rfl
@[simp] theorem updClu_nfree (s : State) (c : Nat) (f : Cluster → Cluster) : (updClu s c f).nfree = s.nfree := rfl
@[simp] theorem updClu_nextId (s : State) (c : Nat) (f : Cluster → Cluster) : (updClu s c f).nextId = s.nextId := rfl
@[simp] theorem updClu_reply (s : State) (c : Nat) (f : Cluster → Cluster) : (updClu s c f).reply = s.reply := rfl
@[simp] theorem updClu_mem (s : State) (c : Nat) (f : Cluster → Cluster) : (updClu s c f).mem = s.mem := rfl
@[simp] theorem updClu_fe (s : State) (c : Nat) (f : Cluster → Cluster) : (updClu s c f).fe = s.fe := rfl
@[simp] theorem updClu_poison (s : State) (c : Nat) (f : Cluster → Cluster) : (updClu s c f).poison = s.poison := rfl
@[simp] theorem updClu_soft (s : State) (c : Nat) (f : Cluster → Cluster) : (updClu s c f).soft = s.soft := rfl
@[simp] theorem updClu_strands (s : State) (c : Nat) (f : Cluster → Cluster) : (updClu s c f).strands = s.strands := rfl
@[simp] theorem updClu_parked (s : State) (c : Nat) (f : Cluster → Cluster) : (updClu s c f).parked = s.parked := rfl
@[simp] theorem updClu_images (s : State) (c : Nat) (f : Cluster → Cluster) : (updClu s c f).images = s.images := rfl
@[simp] theorem updClu_conts (s : State) (c : Nat) (f : Cluster → Cluster) : (updClu s c f).conts = s.conts := rfl
@[simp] theorem updClu_ops (s : State) (c : Nat) (f : Cluster → Cluster) : (updClu s c f).ops = s.ops := rfl
@[simp] theorem updClu_egress (s : State) (c : Nat) (f : Cluster → Cluster) : (updClu s c f).egress = s.egress := rfl
@[simp] theorem updClu_repl (s : State) (c : Nat) (f : Cluster → Cluster) : (updClu s c f).repl = s.repl := rfl
@[simp] theorem updClu_flights (s : State) (c : Nat) (f : Cluster → Cluster) : (updClu s c f).flights = s.flights := rfl
@[simp] theorem updClu_colls (s : State) (c : Nat) (f : Cluster → Cluster) : (updClu s c f).colls = s.colls := rfl
@[simp] theorem updClu_bduRot (s : State) (c : Nat) (f : Cluster → Cluster) : (updClu s c f).bduRot = s.bduRot := rfl
@[simp] theorem updClu_owed (s : State) (c : Nat) (f : Cluster → Cluster) : (updClu s c f).owed = s.owed := rfl
@[simp] theorem updClu_singles (s : State) (c : Nat) (f : Cluster → Cluster) : (updClu s c f).singles = s.singles := rfl
@[simp] theorem updClu_clusters (s : State) (c : Nat) (f : Cluster → Cluster) : (updClu s c f).clusters = tabSet s.clusters c (f (getClu s c)) := rfl
@[simp] theorem updClu_clParts (s : State) (c : Nat) (f : Cluster → Cluster) : (updClu s c f).clParts = s.clParts := rfl
@[simp] theorem updClu_dies (s : State) (c : Nat) (f : Cluster → Cluster) : (updClu s c f).dies = s.dies := rfl
@[simp] theorem updClu_dieParts (s : State) (c : Nat) (f : Cluster → Cluster) : (updClu s c f).dieParts = s.dieParts := rfl
@[simp] theorem updClu_parts (s : State) (c : Nat) (f : Cluster → Cluster) : (updClu s c f).parts = s.parts := rfl
@[simp] theorem updClu_dev (s : State) (c : Nat) (f : Cluster → Cluster) : (updClu s c f).dev = s.dev := rfl

@[simp] theorem updCp_cycle (s : State) (c p : Nat) (f : ClPart → ClPart) : (updCp s c p f).cycle = s.cycle := rfl
@[simp] theorem updCp_devTime (s : State) (c p : Nat) (f : ClPart → ClPart) : (updCp s c p f).devTime = s.devTime := rfl
@[simp] theorem updCp_agenda (s : State) (c p : Nat) (f : ClPart → ClPart) : (updCp s c p f).agenda = s.agenda := rfl
@[simp] theorem updCp_inputs (s : State) (c p : Nat) (f : ClPart → ClPart) : (updCp s c p f).inputs = s.inputs := rfl
@[simp] theorem updCp_ev (s : State) (c p : Nat) (f : ClPart → ClPart) : (updCp s c p f).ev = s.ev := rfl
@[simp] theorem updCp_cursor (s : State) (c p : Nat) (f : ClPart → ClPart) : (updCp s c p f).cursor = s.cursor := rfl
@[simp] theorem updCp_early (s : State) (c p : Nat) (f : ClPart → ClPart) : (updCp s c p f).early = s.early := rfl
@[simp] theorem updCp_written (s : State) (c p : Nat) (f : ClPart → ClPart) : (updCp s c p f).written = s.written := rfl
@[simp] theorem updCp_autos (s : State) (c p : Nat) (f : ClPart → ClPart) : (updCp s c p f).autos = s.autos := rfl
@[simp] theorem updCp_cur (s : State) (c p : Nat) (f : ClPart → ClPart) : (updCp s c p f).cur = s.cur := rfl
@[simp] theorem updCp_nfree (s : State) (c p : Nat) (f : ClPart → ClPart) : (updCp s c p f).nfree = s.nfree := rfl
@[simp] theorem updCp_nextId (s : State) (c p : Nat) (f : ClPart → ClPart) : (updCp s c p f).nextId = s.nextId := rfl
@[simp] theorem updCp_reply (s : State) (c p : Nat) (f : ClPart → ClPart) : (updCp s c p f).reply = s.reply := rfl
@[simp] theorem updCp_mem (s : State) (c p : Nat) (f : ClPart → ClPart) : (updCp s c p f).mem = s.mem := rfl
@[simp] theorem updCp_fe (s : State) (c p : Nat) (f : ClPart → ClPart) : (updCp s c p f).fe = s.fe := rfl
@[simp] theorem updCp_poison (s : State) (c p : Nat) (f : ClPart → ClPart) : (updCp s c p f).poison = s.poison := rfl
@[simp] theorem updCp_soft (s : State) (c p : Nat) (f : ClPart → ClPart) : (updCp s c p f).soft = s.soft := rfl
@[simp] theorem updCp_strands (s : State) (c p : Nat) (f : ClPart → ClPart) : (updCp s c p f).strands = s.strands := rfl
@[simp] theorem updCp_parked (s : State) (c p : Nat) (f : ClPart → ClPart) : (updCp s c p f).parked = s.parked := rfl
@[simp] theorem updCp_images (s : State) (c p : Nat) (f : ClPart → ClPart) : (updCp s c p f).images = s.images := rfl
@[simp] theorem updCp_conts (s : State) (c p : Nat) (f : ClPart → ClPart) : (updCp s c p f).conts = s.conts := rfl
@[simp] theorem updCp_ops (s : State) (c p : Nat) (f : ClPart → ClPart) : (updCp s c p f).ops = s.ops := rfl
@[simp] theorem updCp_egress (s : State) (c p : Nat) (f : ClPart → ClPart) : (updCp s c p f).egress = s.egress := rfl
@[simp] theorem updCp_repl (s : State) (c p : Nat) (f : ClPart → ClPart) : (updCp s c p f).repl = s.repl := rfl
@[simp] theorem updCp_flights (s : State) (c p : Nat) (f : ClPart → ClPart) : (updCp s c p f).flights = s.flights := rfl
@[simp] theorem updCp_colls (s : State) (c p : Nat) (f : ClPart → ClPart) : (updCp s c p f).colls = s.colls := rfl
@[simp] theorem updCp_bduRot (s : State) (c p : Nat) (f : ClPart → ClPart) : (updCp s c p f).bduRot = s.bduRot := rfl
@[simp] theorem updCp_owed (s : State) (c p : Nat) (f : ClPart → ClPart) : (updCp s c p f).owed = s.owed := rfl
@[simp] theorem updCp_singles (s : State) (c p : Nat) (f : ClPart → ClPart) : (updCp s c p f).singles = s.singles := rfl
@[simp] theorem updCp_clusters (s : State) (c p : Nat) (f : ClPart → ClPart) : (updCp s c p f).clusters = s.clusters := rfl
@[simp] theorem updCp_clParts (s : State) (c p : Nat) (f : ClPart → ClPart) : (updCp s c p f).clParts = tabSet s.clParts (cpKey c p) (f (getCp s c p)) := rfl
@[simp] theorem updCp_dies (s : State) (c p : Nat) (f : ClPart → ClPart) : (updCp s c p f).dies = s.dies := rfl
@[simp] theorem updCp_dieParts (s : State) (c p : Nat) (f : ClPart → ClPart) : (updCp s c p f).dieParts = s.dieParts := rfl
@[simp] theorem updCp_parts (s : State) (c p : Nat) (f : ClPart → ClPart) : (updCp s c p f).parts = s.parts := rfl
@[simp] theorem updCp_dev (s : State) (c p : Nat) (f : ClPart → ClPart) : (updCp s c p f).dev = s.dev := rfl

@[simp] theorem updDie_cycle (s : State) (d : Nat) (f : Die → Die) : (updDie s d f).cycle = s.cycle := rfl
@[simp] theorem updDie_devTime (s : State) (d : Nat) (f : Die → Die) : (updDie s d f).devTime = s.devTime := rfl
@[simp] theorem updDie_agenda (s : State) (d : Nat) (f : Die → Die) : (updDie s d f).agenda = s.agenda := rfl
@[simp] theorem updDie_inputs (s : State) (d : Nat) (f : Die → Die) : (updDie s d f).inputs = s.inputs := rfl
@[simp] theorem updDie_ev (s : State) (d : Nat) (f : Die → Die) : (updDie s d f).ev = s.ev := rfl
@[simp] theorem updDie_cursor (s : State) (d : Nat) (f : Die → Die) : (updDie s d f).cursor = s.cursor := rfl
@[simp] theorem updDie_early (s : State) (d : Nat) (f : Die → Die) : (updDie s d f).early = s.early := rfl
@[simp] theorem updDie_written (s : State) (d : Nat) (f : Die → Die) : (updDie s d f).written = s.written := rfl
@[simp] theorem updDie_autos (s : State) (d : Nat) (f : Die → Die) : (updDie s d f).autos = s.autos := rfl
@[simp] theorem updDie_cur (s : State) (d : Nat) (f : Die → Die) : (updDie s d f).cur = s.cur := rfl
@[simp] theorem updDie_nfree (s : State) (d : Nat) (f : Die → Die) : (updDie s d f).nfree = s.nfree := rfl
@[simp] theorem updDie_nextId (s : State) (d : Nat) (f : Die → Die) : (updDie s d f).nextId = s.nextId := rfl
@[simp] theorem updDie_reply (s : State) (d : Nat) (f : Die → Die) : (updDie s d f).reply = s.reply := rfl
@[simp] theorem updDie_mem (s : State) (d : Nat) (f : Die → Die) : (updDie s d f).mem = s.mem := rfl
@[simp] theorem updDie_fe (s : State) (d : Nat) (f : Die → Die) : (updDie s d f).fe = s.fe := rfl
@[simp] theorem updDie_poison (s : State) (d : Nat) (f : Die → Die) : (updDie s d f).poison = s.poison := rfl
@[simp] theorem updDie_soft (s : State) (d : Nat) (f : Die → Die) : (updDie s d f).soft = s.soft := rfl
@[simp] theorem updDie_strands (s : State) (d : Nat) (f : Die → Die) : (updDie s d f).strands = s.strands := rfl
@[simp] theorem updDie_parked (s : State) (d : Nat) (f : Die → Die) : (updDie s d f).parked = s.parked := rfl
@[simp] theorem updDie_images (s : State) (d : Nat) (f : Die → Die) : (updDie s d f).images = s.images := rfl
@[simp] theorem updDie_conts (s : State) (d : Nat) (f : Die → Die) : (updDie s d f).conts = s.conts := rfl
@[simp] theorem updDie_ops (s : State) (d : Nat) (f : Die → Die) : (updDie s d f).ops = s.ops := rfl
@[simp] theorem updDie_egress (s : State) (d : Nat) (f : Die → Die) : (updDie s d f).egress = s.egress := rfl
@[simp] theorem updDie_repl (s : State) (d : Nat) (f : Die → Die) : (updDie s d f).repl = s.repl := rfl
@[simp] theorem updDie_flights (s : State) (d : Nat) (f : Die → Die) : (updDie s d f).flights = s.flights := rfl
@[simp] theorem updDie_colls (s : State) (d : Nat) (f : Die → Die) : (updDie s d f).colls = s.colls := rfl
@[simp] theorem updDie_bduRot (s : State) (d : Nat) (f : Die → Die) : (updDie s d f).bduRot = s.bduRot := rfl
@[simp] theorem updDie_owed (s : State) (d : Nat) (f : Die → Die) : (updDie s d f).owed = s.owed := rfl
@[simp] theorem updDie_singles (s : State) (d : Nat) (f : Die → Die) : (updDie s d f).singles = s.singles := rfl
@[simp] theorem updDie_clusters (s : State) (d : Nat) (f : Die → Die) : (updDie s d f).clusters = s.clusters := rfl
@[simp] theorem updDie_clParts (s : State) (d : Nat) (f : Die → Die) : (updDie s d f).clParts = s.clParts := rfl
@[simp] theorem updDie_dies (s : State) (d : Nat) (f : Die → Die) : (updDie s d f).dies = tabSet s.dies d (f (getDie s d)) := rfl
@[simp] theorem updDie_dieParts (s : State) (d : Nat) (f : Die → Die) : (updDie s d f).dieParts = s.dieParts := rfl
@[simp] theorem updDie_parts (s : State) (d : Nat) (f : Die → Die) : (updDie s d f).parts = s.parts := rfl
@[simp] theorem updDie_dev (s : State) (d : Nat) (f : Die → Die) : (updDie s d f).dev = s.dev := rfl

@[simp] theorem updDp_cycle (s : State) (d p : Nat) (f : DiePart → DiePart) : (updDp s d p f).cycle = s.cycle := rfl
@[simp] theorem updDp_devTime (s : State) (d p : Nat) (f : DiePart → DiePart) : (updDp s d p f).devTime = s.devTime := rfl
@[simp] theorem updDp_agenda (s : State) (d p : Nat) (f : DiePart → DiePart) : (updDp s d p f).agenda = s.agenda := rfl
@[simp] theorem updDp_inputs (s : State) (d p : Nat) (f : DiePart → DiePart) : (updDp s d p f).inputs = s.inputs := rfl
@[simp] theorem updDp_ev (s : State) (d p : Nat) (f : DiePart → DiePart) : (updDp s d p f).ev = s.ev := rfl
@[simp] theorem updDp_cursor (s : State) (d p : Nat) (f : DiePart → DiePart) : (updDp s d p f).cursor = s.cursor := rfl
@[simp] theorem updDp_early (s : State) (d p : Nat) (f : DiePart → DiePart) : (updDp s d p f).early = s.early := rfl
@[simp] theorem updDp_written (s : State) (d p : Nat) (f : DiePart → DiePart) : (updDp s d p f).written = s.written := rfl
@[simp] theorem updDp_autos (s : State) (d p : Nat) (f : DiePart → DiePart) : (updDp s d p f).autos = s.autos := rfl
@[simp] theorem updDp_cur (s : State) (d p : Nat) (f : DiePart → DiePart) : (updDp s d p f).cur = s.cur := rfl
@[simp] theorem updDp_nfree (s : State) (d p : Nat) (f : DiePart → DiePart) : (updDp s d p f).nfree = s.nfree := rfl
@[simp] theorem updDp_nextId (s : State) (d p : Nat) (f : DiePart → DiePart) : (updDp s d p f).nextId = s.nextId := rfl
@[simp] theorem updDp_reply (s : State) (d p : Nat) (f : DiePart → DiePart) : (updDp s d p f).reply = s.reply := rfl
@[simp] theorem updDp_mem (s : State) (d p : Nat) (f : DiePart → DiePart) : (updDp s d p f).mem = s.mem := rfl
@[simp] theorem updDp_fe (s : State) (d p : Nat) (f : DiePart → DiePart) : (updDp s d p f).fe = s.fe := rfl
@[simp] theorem updDp_poison (s : State) (d p : Nat) (f : DiePart → DiePart) : (updDp s d p f).poison = s.poison := rfl
@[simp] theorem updDp_soft (s : State) (d p : Nat) (f : DiePart → DiePart) : (updDp s d p f).soft = s.soft := rfl
@[simp] theorem updDp_strands (s : State) (d p : Nat) (f : DiePart → DiePart) : (updDp s d p f).strands = s.strands := rfl
@[simp] theorem updDp_parked (s : State) (d p : Nat) (f : DiePart → DiePart) : (updDp s d p f).parked = s.parked := rfl
@[simp] theorem updDp_images (s : State) (d p : Nat) (f : DiePart → DiePart) : (updDp s d p f).images = s.images := rfl
@[simp] theorem updDp_conts (s : State) (d p : Nat) (f : DiePart → DiePart) : (updDp s d p f).conts = s.conts := rfl
@[simp] theorem updDp_ops (s : State) (d p : Nat) (f : DiePart → DiePart) : (updDp s d p f).ops = s.ops := rfl
@[simp] theorem updDp_egress (s : State) (d p : Nat) (f : DiePart → DiePart) : (updDp s d p f).egress = s.egress := rfl
@[simp] theorem updDp_repl (s : State) (d p : Nat) (f : DiePart → DiePart) : (updDp s d p f).repl = s.repl := rfl
@[simp] theorem updDp_flights (s : State) (d p : Nat) (f : DiePart → DiePart) : (updDp s d p f).flights = s.flights := rfl
@[simp] theorem updDp_colls (s : State) (d p : Nat) (f : DiePart → DiePart) : (updDp s d p f).colls = s.colls := rfl
@[simp] theorem updDp_bduRot (s : State) (d p : Nat) (f : DiePart → DiePart) : (updDp s d p f).bduRot = s.bduRot := rfl
@[simp] theorem updDp_owed (s : State) (d p : Nat) (f : DiePart → DiePart) : (updDp s d p f).owed = s.owed := rfl
@[simp] theorem updDp_singles (s : State) (d p : Nat) (f : DiePart → DiePart) : (updDp s d p f).singles = s.singles := rfl
@[simp] theorem updDp_clusters (s : State) (d p : Nat) (f : DiePart → DiePart) : (updDp s d p f).clusters = s.clusters := rfl
@[simp] theorem updDp_clParts (s : State) (d p : Nat) (f : DiePart → DiePart) : (updDp s d p f).clParts = s.clParts := rfl
@[simp] theorem updDp_dies (s : State) (d p : Nat) (f : DiePart → DiePart) : (updDp s d p f).dies = s.dies := rfl
@[simp] theorem updDp_dieParts (s : State) (d p : Nat) (f : DiePart → DiePart) : (updDp s d p f).dieParts = tabSet s.dieParts (cpKey d p) (f (getDp s d p)) := rfl
@[simp] theorem updDp_parts (s : State) (d p : Nat) (f : DiePart → DiePart) : (updDp s d p f).parts = s.parts := rfl
@[simp] theorem updDp_dev (s : State) (d p : Nat) (f : DiePart → DiePart) : (updDp s d p f).dev = s.dev := rfl

@[simp] theorem wrMem_cycle (s : State) (a : Nat) (bs : List Byte) : (wrMem s a bs).cycle = s.cycle := rfl
@[simp] theorem wrMem_devTime (s : State) (a : Nat) (bs : List Byte) : (wrMem s a bs).devTime = s.devTime := rfl
@[simp] theorem wrMem_agenda (s : State) (a : Nat) (bs : List Byte) : (wrMem s a bs).agenda = s.agenda := rfl
@[simp] theorem wrMem_inputs (s : State) (a : Nat) (bs : List Byte) : (wrMem s a bs).inputs = s.inputs := rfl
@[simp] theorem wrMem_ev (s : State) (a : Nat) (bs : List Byte) : (wrMem s a bs).ev = s.ev := rfl
@[simp] theorem wrMem_cursor (s : State) (a : Nat) (bs : List Byte) : (wrMem s a bs).cursor = s.cursor := rfl
@[simp] theorem wrMem_early (s : State) (a : Nat) (bs : List Byte) : (wrMem s a bs).early = s.early := rfl
@[simp] theorem wrMem_written (s : State) (a : Nat) (bs : List Byte) : (wrMem s a bs).written = s.written := rfl
@[simp] theorem wrMem_autos (s : State) (a : Nat) (bs : List Byte) : (wrMem s a bs).autos = s.autos := rfl
@[simp] theorem wrMem_cur (s : State) (a : Nat) (bs : List Byte) : (wrMem s a bs).cur = s.cur := rfl
@[simp] theorem wrMem_nfree (s : State) (a : Nat) (bs : List Byte) : (wrMem s a bs).nfree = s.nfree := rfl
@[simp] theorem wrMem_nextId (s : State) (a : Nat) (bs : List Byte) : (wrMem s a bs).nextId = s.nextId := rfl
@[simp] theorem wrMem_reply (s : State) (a : Nat) (bs : List Byte) : (wrMem s a bs).reply = s.reply := rfl
@[simp] theorem wrMem_mem (s : State) (a : Nat) (bs : List Byte) : (wrMem s a bs).mem = wrBytes s.mem a bs := rfl
@[simp] theorem wrMem_fe (s : State) (a : Nat) (bs : List Byte) : (wrMem s a bs).fe = s.fe := rfl
@[simp] theorem wrMem_poison (s : State) (a : Nat) (bs : List Byte) : (wrMem s a bs).poison = s.poison.filter (fun w => !wholeWord a bs.length w) := rfl
@[simp] theorem wrMem_soft (s : State) (a : Nat) (bs : List Byte) : (wrMem s a bs).soft = s.soft.filter (fun w => !wholeWord a bs.length w) := rfl
@[simp] theorem wrMem_strands (s : State) (a : Nat) (bs : List Byte) : (wrMem s a bs).strands = s.strands := rfl
@[simp] theorem wrMem_parked (s : State) (a : Nat) (bs : List Byte) : (wrMem s a bs).parked = s.parked := rfl
@[simp] theorem wrMem_images (s : State) (a : Nat) (bs : List Byte) : (wrMem s a bs).images = s.images := rfl
@[simp] theorem wrMem_conts (s : State) (a : Nat) (bs : List Byte) : (wrMem s a bs).conts = s.conts := rfl
@[simp] theorem wrMem_ops (s : State) (a : Nat) (bs : List Byte) : (wrMem s a bs).ops = s.ops := rfl
@[simp] theorem wrMem_egress (s : State) (a : Nat) (bs : List Byte) : (wrMem s a bs).egress = s.egress := rfl
@[simp] theorem wrMem_repl (s : State) (a : Nat) (bs : List Byte) : (wrMem s a bs).repl = s.repl := rfl
@[simp] theorem wrMem_flights (s : State) (a : Nat) (bs : List Byte) : (wrMem s a bs).flights = s.flights := rfl
@[simp] theorem wrMem_colls (s : State) (a : Nat) (bs : List Byte) : (wrMem s a bs).colls = s.colls := rfl
@[simp] theorem wrMem_bduRot (s : State) (a : Nat) (bs : List Byte) : (wrMem s a bs).bduRot = s.bduRot := rfl
@[simp] theorem wrMem_owed (s : State) (a : Nat) (bs : List Byte) : (wrMem s a bs).owed = s.owed := rfl
@[simp] theorem wrMem_singles (s : State) (a : Nat) (bs : List Byte) : (wrMem s a bs).singles = s.singles := rfl
@[simp] theorem wrMem_clusters (s : State) (a : Nat) (bs : List Byte) : (wrMem s a bs).clusters = s.clusters := rfl
@[simp] theorem wrMem_clParts (s : State) (a : Nat) (bs : List Byte) : (wrMem s a bs).clParts = s.clParts := rfl
@[simp] theorem wrMem_dies (s : State) (a : Nat) (bs : List Byte) : (wrMem s a bs).dies = s.dies := rfl
@[simp] theorem wrMem_dieParts (s : State) (a : Nat) (bs : List Byte) : (wrMem s a bs).dieParts = s.dieParts := rfl
@[simp] theorem wrMem_parts (s : State) (a : Nat) (bs : List Byte) : (wrMem s a bs).parts = s.parts := rfl
@[simp] theorem wrMem_dev (s : State) (a : Nat) (bs : List Byte) : (wrMem s a bs).dev = s.dev := rfl

@[simp] theorem wrN_cycle (s : State) (a n x : Nat) : (wrN s a n x).cycle = s.cycle := rfl
@[simp] theorem wrN_devTime (s : State) (a n x : Nat) : (wrN s a n x).devTime = s.devTime := rfl
@[simp] theorem wrN_agenda (s : State) (a n x : Nat) : (wrN s a n x).agenda = s.agenda := rfl
@[simp] theorem wrN_inputs (s : State) (a n x : Nat) : (wrN s a n x).inputs = s.inputs := rfl
@[simp] theorem wrN_ev (s : State) (a n x : Nat) : (wrN s a n x).ev = s.ev := rfl
@[simp] theorem wrN_cursor (s : State) (a n x : Nat) : (wrN s a n x).cursor = s.cursor := rfl
@[simp] theorem wrN_early (s : State) (a n x : Nat) : (wrN s a n x).early = s.early := rfl
@[simp] theorem wrN_written (s : State) (a n x : Nat) : (wrN s a n x).written = s.written := rfl
@[simp] theorem wrN_autos (s : State) (a n x : Nat) : (wrN s a n x).autos = s.autos := rfl
@[simp] theorem wrN_cur (s : State) (a n x : Nat) : (wrN s a n x).cur = s.cur := rfl
@[simp] theorem wrN_nfree (s : State) (a n x : Nat) : (wrN s a n x).nfree = s.nfree := rfl
@[simp] theorem wrN_nextId (s : State) (a n x : Nat) : (wrN s a n x).nextId = s.nextId := rfl
@[simp] theorem wrN_reply (s : State) (a n x : Nat) : (wrN s a n x).reply = s.reply := rfl
@[simp] theorem wrN_mem (s : State) (a n x : Nat) : (wrN s a n x).mem = wrBytes s.mem a (toLe n x) := rfl
@[simp] theorem wrN_fe (s : State) (a n x : Nat) : (wrN s a n x).fe = s.fe := rfl
@[simp] theorem wrN_strands (s : State) (a n x : Nat) : (wrN s a n x).strands = s.strands := rfl
@[simp] theorem wrN_parked (s : State) (a n x : Nat) : (wrN s a n x).parked = s.parked := rfl
@[simp] theorem wrN_images (s : State) (a n x : Nat) : (wrN s a n x).images = s.images := rfl
@[simp] theorem wrN_conts (s : State) (a n x : Nat) : (wrN s a n x).conts = s.conts := rfl
@[simp] theorem wrN_ops (s : State) (a n x : Nat) : (wrN s a n x).ops = s.ops := rfl
@[simp] theorem wrN_egress (s : State) (a n x : Nat) : (wrN s a n x).egress = s.egress := rfl
@[simp] theorem wrN_repl (s : State) (a n x : Nat) : (wrN s a n x).repl = s.repl := rfl
@[simp] theorem wrN_flights (s : State) (a n x : Nat) : (wrN s a n x).flights = s.flights := rfl
@[simp] theorem wrN_colls (s : State) (a n x : Nat) : (wrN s a n x).colls = s.colls := rfl
@[simp] theorem wrN_bduRot (s : State) (a n x : Nat) : (wrN s a n x).bduRot = s.bduRot := rfl
@[simp] theorem wrN_owed (s : State) (a n x : Nat) : (wrN s a n x).owed = s.owed := rfl
@[simp] theorem wrN_singles (s : State) (a n x : Nat) : (wrN s a n x).singles = s.singles := rfl
@[simp] theorem wrN_clusters (s : State) (a n x : Nat) : (wrN s a n x).clusters = s.clusters := rfl
@[simp] theorem wrN_clParts (s : State) (a n x : Nat) : (wrN s a n x).clParts = s.clParts := rfl
@[simp] theorem wrN_dies (s : State) (a n x : Nat) : (wrN s a n x).dies = s.dies := rfl
@[simp] theorem wrN_dieParts (s : State) (a n x : Nat) : (wrN s a n x).dieParts = s.dieParts := rfl
@[simp] theorem wrN_parts (s : State) (a n x : Nat) : (wrN s a n x).parts = s.parts := rfl
@[simp] theorem wrN_dev (s : State) (a n x : Nat) : (wrN s a n x).dev = s.dev := rfl

@[simp] theorem wr64_cycle (s : State) (a : Nat) (x : Word) : (wr64 s a x).cycle = s.cycle := rfl
@[simp] theorem wr64_devTime (s : State) (a : Nat) (x : Word) : (wr64 s a x).devTime = s.devTime := rfl
@[simp] theorem wr64_agenda (s : State) (a : Nat) (x : Word) : (wr64 s a x).agenda = s.agenda := rfl
@[simp] theorem wr64_inputs (s : State) (a : Nat) (x : Word) : (wr64 s a x).inputs = s.inputs := rfl
@[simp] theorem wr64_ev (s : State) (a : Nat) (x : Word) : (wr64 s a x).ev = s.ev := rfl
@[simp] theorem wr64_cursor (s : State) (a : Nat) (x : Word) : (wr64 s a x).cursor = s.cursor := rfl
@[simp] theorem wr64_early (s : State) (a : Nat) (x : Word) : (wr64 s a x).early = s.early := rfl
@[simp] theorem wr64_written (s : State) (a : Nat) (x : Word) : (wr64 s a x).written = s.written := rfl
@[simp] theorem wr64_autos (s : State) (a : Nat) (x : Word) : (wr64 s a x).autos = s.autos := rfl
@[simp] theorem wr64_cur (s : State) (a : Nat) (x : Word) : (wr64 s a x).cur = s.cur := rfl
@[simp] theorem wr64_nfree (s : State) (a : Nat) (x : Word) : (wr64 s a x).nfree = s.nfree := rfl
@[simp] theorem wr64_nextId (s : State) (a : Nat) (x : Word) : (wr64 s a x).nextId = s.nextId := rfl
@[simp] theorem wr64_reply (s : State) (a : Nat) (x : Word) : (wr64 s a x).reply = s.reply := rfl
@[simp] theorem wr64_mem (s : State) (a : Nat) (x : Word) : (wr64 s a x).mem = wrBytes s.mem a (toLe 8 x.toNat) := rfl
@[simp] theorem wr64_fe (s : State) (a : Nat) (x : Word) : (wr64 s a x).fe = s.fe := rfl
@[simp] theorem wr64_strands (s : State) (a : Nat) (x : Word) : (wr64 s a x).strands = s.strands := rfl
@[simp] theorem wr64_parked (s : State) (a : Nat) (x : Word) : (wr64 s a x).parked = s.parked := rfl
@[simp] theorem wr64_images (s : State) (a : Nat) (x : Word) : (wr64 s a x).images = s.images := rfl
@[simp] theorem wr64_conts (s : State) (a : Nat) (x : Word) : (wr64 s a x).conts = s.conts := rfl
@[simp] theorem wr64_ops (s : State) (a : Nat) (x : Word) : (wr64 s a x).ops = s.ops := rfl
@[simp] theorem wr64_egress (s : State) (a : Nat) (x : Word) : (wr64 s a x).egress = s.egress := rfl
@[simp] theorem wr64_repl (s : State) (a : Nat) (x : Word) : (wr64 s a x).repl = s.repl := rfl
@[simp] theorem wr64_flights (s : State) (a : Nat) (x : Word) : (wr64 s a x).flights = s.flights := rfl
@[simp] theorem wr64_colls (s : State) (a : Nat) (x : Word) : (wr64 s a x).colls = s.colls := rfl
@[simp] theorem wr64_bduRot (s : State) (a : Nat) (x : Word) : (wr64 s a x).bduRot = s.bduRot := rfl
@[simp] theorem wr64_owed (s : State) (a : Nat) (x : Word) : (wr64 s a x).owed = s.owed := rfl
@[simp] theorem wr64_singles (s : State) (a : Nat) (x : Word) : (wr64 s a x).singles = s.singles := rfl
@[simp] theorem wr64_clusters (s : State) (a : Nat) (x : Word) : (wr64 s a x).clusters = s.clusters := rfl
@[simp] theorem wr64_clParts (s : State) (a : Nat) (x : Word) : (wr64 s a x).clParts = s.clParts := rfl
@[simp] theorem wr64_dies (s : State) (a : Nat) (x : Word) : (wr64 s a x).dies = s.dies := rfl
@[simp] theorem wr64_dieParts (s : State) (a : Nat) (x : Word) : (wr64 s a x).dieParts = s.dieParts := rfl
@[simp] theorem wr64_parts (s : State) (a : Nat) (x : Word) : (wr64 s a x).parts = s.parts := rfl
@[simp] theorem wr64_dev (s : State) (a : Nat) (x : Word) : (wr64 s a x).dev = s.dev := rfl

@[simp] theorem feSet_cycle (s : State) (a : Nat) (b : Bool) : (feSet s a b).cycle = s.cycle := rfl
@[simp] theorem feSet_devTime (s : State) (a : Nat) (b : Bool) : (feSet s a b).devTime = s.devTime := rfl
@[simp] theorem feSet_agenda (s : State) (a : Nat) (b : Bool) : (feSet s a b).agenda = s.agenda := rfl
@[simp] theorem feSet_inputs (s : State) (a : Nat) (b : Bool) : (feSet s a b).inputs = s.inputs := rfl
@[simp] theorem feSet_ev (s : State) (a : Nat) (b : Bool) : (feSet s a b).ev = s.ev := rfl
@[simp] theorem feSet_cursor (s : State) (a : Nat) (b : Bool) : (feSet s a b).cursor = s.cursor := rfl
@[simp] theorem feSet_early (s : State) (a : Nat) (b : Bool) : (feSet s a b).early = s.early := rfl
@[simp] theorem feSet_written (s : State) (a : Nat) (b : Bool) : (feSet s a b).written = s.written := rfl
@[simp] theorem feSet_autos (s : State) (a : Nat) (b : Bool) : (feSet s a b).autos = s.autos := rfl
@[simp] theorem feSet_cur (s : State) (a : Nat) (b : Bool) : (feSet s a b).cur = s.cur := rfl
@[simp] theorem feSet_nfree (s : State) (a : Nat) (b : Bool) : (feSet s a b).nfree = s.nfree := rfl
@[simp] theorem feSet_nextId (s : State) (a : Nat) (b : Bool) : (feSet s a b).nextId = s.nextId := rfl
@[simp] theorem feSet_reply (s : State) (a : Nat) (b : Bool) : (feSet s a b).reply = s.reply := rfl
@[simp] theorem feSet_mem (s : State) (a : Nat) (b : Bool) : (feSet s a b).mem = s.mem := rfl
@[simp] theorem feSet_poison (s : State) (a : Nat) (b : Bool) : (feSet s a b).poison = s.poison := rfl
@[simp] theorem feSet_soft (s : State) (a : Nat) (b : Bool) : (feSet s a b).soft = s.soft := rfl
@[simp] theorem feSet_strands (s : State) (a : Nat) (b : Bool) : (feSet s a b).strands = s.strands := rfl
@[simp] theorem feSet_parked (s : State) (a : Nat) (b : Bool) : (feSet s a b).parked = s.parked := rfl
@[simp] theorem feSet_images (s : State) (a : Nat) (b : Bool) : (feSet s a b).images = s.images := rfl
@[simp] theorem feSet_conts (s : State) (a : Nat) (b : Bool) : (feSet s a b).conts = s.conts := rfl
@[simp] theorem feSet_ops (s : State) (a : Nat) (b : Bool) : (feSet s a b).ops = s.ops := rfl
@[simp] theorem feSet_egress (s : State) (a : Nat) (b : Bool) : (feSet s a b).egress = s.egress := rfl
@[simp] theorem feSet_repl (s : State) (a : Nat) (b : Bool) : (feSet s a b).repl = s.repl := rfl
@[simp] theorem feSet_flights (s : State) (a : Nat) (b : Bool) : (feSet s a b).flights = s.flights := rfl
@[simp] theorem feSet_colls (s : State) (a : Nat) (b : Bool) : (feSet s a b).colls = s.colls := rfl
@[simp] theorem feSet_bduRot (s : State) (a : Nat) (b : Bool) : (feSet s a b).bduRot = s.bduRot := rfl
@[simp] theorem feSet_owed (s : State) (a : Nat) (b : Bool) : (feSet s a b).owed = s.owed := rfl
@[simp] theorem feSet_singles (s : State) (a : Nat) (b : Bool) : (feSet s a b).singles = s.singles := rfl
@[simp] theorem feSet_clusters (s : State) (a : Nat) (b : Bool) : (feSet s a b).clusters = s.clusters := rfl
@[simp] theorem feSet_clParts (s : State) (a : Nat) (b : Bool) : (feSet s a b).clParts = s.clParts := rfl
@[simp] theorem feSet_dies (s : State) (a : Nat) (b : Bool) : (feSet s a b).dies = s.dies := rfl
@[simp] theorem feSet_dieParts (s : State) (a : Nat) (b : Bool) : (feSet s a b).dieParts = s.dieParts := rfl
@[simp] theorem feSet_parts (s : State) (a : Nat) (b : Bool) : (feSet s a b).parts = s.parts := rfl
@[simp] theorem feSet_dev (s : State) (a : Nat) (b : Bool) : (feSet s a b).dev = s.dev := rfl

@[simp] theorem updOp_cycle (s : State) (n : Nat) (f : Op → Op) : (updOp s n f).cycle = s.cycle := rfl
@[simp] theorem updOp_devTime (s : State) (n : Nat) (f : Op → Op) : (updOp s n f).devTime = s.devTime := rfl
@[simp] theorem updOp_agenda (s : State) (n : Nat) (f : Op → Op) : (updOp s n f).agenda = s.agenda := rfl
@[simp] theorem updOp_inputs (s : State) (n : Nat) (f : Op → Op) : (updOp s n f).inputs = s.inputs := rfl
@[simp] theorem updOp_ev (s : State) (n : Nat) (f : Op → Op) : (updOp s n f).ev = s.ev := rfl
@[simp] theorem updOp_cursor (s : State) (n : Nat) (f : Op → Op) : (updOp s n f).cursor = s.cursor := rfl
@[simp] theorem updOp_early (s : State) (n : Nat) (f : Op → Op) : (updOp s n f).early = s.early := rfl
@[simp] theorem updOp_written (s : State) (n : Nat) (f : Op → Op) : (updOp s n f).written = s.written := rfl
@[simp] theorem updOp_autos (s : State) (n : Nat) (f : Op → Op) : (updOp s n f).autos = s.autos := rfl
@[simp] theorem updOp_cur (s : State) (n : Nat) (f : Op → Op) : (updOp s n f).cur = s.cur := rfl
@[simp] theorem updOp_nfree (s : State) (n : Nat) (f : Op → Op) : (updOp s n f).nfree = s.nfree := rfl
@[simp] theorem updOp_nextId (s : State) (n : Nat) (f : Op → Op) : (updOp s n f).nextId = s.nextId := rfl
@[simp] theorem updOp_reply (s : State) (n : Nat) (f : Op → Op) : (updOp s n f).reply = s.reply := rfl
@[simp] theorem updOp_mem (s : State) (n : Nat) (f : Op → Op) : (updOp s n f).mem = s.mem := rfl
@[simp] theorem updOp_fe (s : State) (n : Nat) (f : Op → Op) : (updOp s n f).fe = s.fe := rfl
@[simp] theorem updOp_poison (s : State) (n : Nat) (f : Op → Op) : (updOp s n f).poison = s.poison := rfl
@[simp] theorem updOp_soft (s : State) (n : Nat) (f : Op → Op) : (updOp s n f).soft = s.soft := rfl
@[simp] theorem updOp_strands (s : State) (n : Nat) (f : Op → Op) : (updOp s n f).strands = s.strands := rfl
@[simp] theorem updOp_parked (s : State) (n : Nat) (f : Op → Op) : (updOp s n f).parked = s.parked := rfl
@[simp] theorem updOp_images (s : State) (n : Nat) (f : Op → Op) : (updOp s n f).images = s.images := rfl
@[simp] theorem updOp_conts (s : State) (n : Nat) (f : Op → Op) : (updOp s n f).conts = s.conts := rfl
@[simp] theorem updOp_ops (s : State) (n : Nat) (f : Op → Op) : (updOp s n f).ops = listUpd s.ops (fun o => o.id == n) f := rfl
@[simp] theorem updOp_egress (s : State) (n : Nat) (f : Op → Op) : (updOp s n f).egress = s.egress := rfl
@[simp] theorem updOp_repl (s : State) (n : Nat) (f : Op → Op) : (updOp s n f).repl = s.repl := rfl
@[simp] theorem updOp_flights (s : State) (n : Nat) (f : Op → Op) : (updOp s n f).flights = s.flights := rfl
@[simp] theorem updOp_colls (s : State) (n : Nat) (f : Op → Op) : (updOp s n f).colls = s.colls := rfl
@[simp] theorem updOp_bduRot (s : State) (n : Nat) (f : Op → Op) : (updOp s n f).bduRot = s.bduRot := rfl
@[simp] theorem updOp_owed (s : State) (n : Nat) (f : Op → Op) : (updOp s n f).owed = s.owed := rfl
@[simp] theorem updOp_singles (s : State) (n : Nat) (f : Op → Op) : (updOp s n f).singles = s.singles := rfl
@[simp] theorem updOp_clusters (s : State) (n : Nat) (f : Op → Op) : (updOp s n f).clusters = s.clusters := rfl
@[simp] theorem updOp_clParts (s : State) (n : Nat) (f : Op → Op) : (updOp s n f).clParts = s.clParts := rfl
@[simp] theorem updOp_dies (s : State) (n : Nat) (f : Op → Op) : (updOp s n f).dies = s.dies := rfl
@[simp] theorem updOp_dieParts (s : State) (n : Nat) (f : Op → Op) : (updOp s n f).dieParts = s.dieParts := rfl
@[simp] theorem updOp_parts (s : State) (n : Nat) (f : Op → Op) : (updOp s n f).parts = s.parts := rfl
@[simp] theorem updOp_dev (s : State) (n : Nat) (f : Op → Op) : (updOp s n f).dev = s.dev := rfl

@[simp] theorem dropOp_cycle (s : State) (n : Nat) : (dropOp s n).cycle = s.cycle := rfl
@[simp] theorem dropOp_devTime (s : State) (n : Nat) : (dropOp s n).devTime = s.devTime := rfl
@[simp] theorem dropOp_agenda (s : State) (n : Nat) : (dropOp s n).agenda = s.agenda := rfl
@[simp] theorem dropOp_inputs (s : State) (n : Nat) : (dropOp s n).inputs = s.inputs := rfl
@[simp] theorem dropOp_ev (s : State) (n : Nat) : (dropOp s n).ev = s.ev := rfl
@[simp] theorem dropOp_cursor (s : State) (n : Nat) : (dropOp s n).cursor = s.cursor := rfl
@[simp] theorem dropOp_early (s : State) (n : Nat) : (dropOp s n).early = s.early := rfl
@[simp] theorem dropOp_written (s : State) (n : Nat) : (dropOp s n).written = s.written := rfl
@[simp] theorem dropOp_autos (s : State) (n : Nat) : (dropOp s n).autos = s.autos := rfl
@[simp] theorem dropOp_cur (s : State) (n : Nat) : (dropOp s n).cur = s.cur := rfl
@[simp] theorem dropOp_nfree (s : State) (n : Nat) : (dropOp s n).nfree = s.nfree := rfl
@[simp] theorem dropOp_nextId (s : State) (n : Nat) : (dropOp s n).nextId = s.nextId := rfl
@[simp] theorem dropOp_reply (s : State) (n : Nat) : (dropOp s n).reply = s.reply := rfl
@[simp] theorem dropOp_mem (s : State) (n : Nat) : (dropOp s n).mem = s.mem := rfl
@[simp] theorem dropOp_fe (s : State) (n : Nat) : (dropOp s n).fe = s.fe := rfl
@[simp] theorem dropOp_poison (s : State) (n : Nat) : (dropOp s n).poison = s.poison := rfl
@[simp] theorem dropOp_soft (s : State) (n : Nat) : (dropOp s n).soft = s.soft := rfl
@[simp] theorem dropOp_strands (s : State) (n : Nat) : (dropOp s n).strands = s.strands := rfl
@[simp] theorem dropOp_parked (s : State) (n : Nat) :
    (dropOp s n).parked = (chanFreed s (s.ops.filter (fun o => o.id == n))).parked := rfl
@[simp] theorem dropOp_images (s : State) (n : Nat) : (dropOp s n).images = s.images := rfl
@[simp] theorem dropOp_conts (s : State) (n : Nat) :
    (dropOp s n).conts = (chanFreed s (s.ops.filter (fun o => o.id == n))).conts := rfl
@[simp] theorem dropOp_ops (s : State) (n : Nat) : (dropOp s n).ops = s.ops.filter (fun o => o.id != n) := rfl
@[simp] theorem dropOp_egress (s : State) (n : Nat) : (dropOp s n).egress = s.egress := rfl
@[simp] theorem dropOp_repl (s : State) (n : Nat) : (dropOp s n).repl = s.repl := rfl
@[simp] theorem dropOp_flights (s : State) (n : Nat) : (dropOp s n).flights = s.flights := rfl
@[simp] theorem dropOp_colls (s : State) (n : Nat) :
    (dropOp s n).colls = s.colls.filter (fun c => !collOver (dropOp s n) c) := rfl
@[simp] theorem dropOp_bduRot (s : State) (n : Nat) : (dropOp s n).bduRot = s.bduRot := rfl
@[simp] theorem dropOp_owed (s : State) (n : Nat) : (dropOp s n).owed = s.owed := rfl
@[simp] theorem dropOp_singles (s : State) (n : Nat) : (dropOp s n).singles = s.singles := rfl
@[simp] theorem dropOp_clusters (s : State) (n : Nat) : (dropOp s n).clusters = s.clusters := rfl
@[simp] theorem dropOp_clParts (s : State) (n : Nat) : (dropOp s n).clParts = s.clParts := rfl
@[simp] theorem dropOp_dies (s : State) (n : Nat) : (dropOp s n).dies = s.dies := rfl
@[simp] theorem dropOp_dieParts (s : State) (n : Nat) : (dropOp s n).dieParts = s.dieParts := rfl
@[simp] theorem dropOp_parts (s : State) (n : Nat) : (dropOp s n).parts = s.parts := rfl
@[simp] theorem dropOp_dev (s : State) (n : Nat) : (dropOp s n).dev = s.dev := rfl

@[simp] theorem setCpCtl_cycle (s : State) (c p n : Nat) (x : Word) : (setCpCtl s c p n x).cycle = s.cycle := rfl
@[simp] theorem setCpCtl_devTime (s : State) (c p n : Nat) (x : Word) : (setCpCtl s c p n x).devTime = s.devTime := rfl
@[simp] theorem setCpCtl_agenda (s : State) (c p n : Nat) (x : Word) : (setCpCtl s c p n x).agenda = s.agenda := rfl
@[simp] theorem setCpCtl_inputs (s : State) (c p n : Nat) (x : Word) : (setCpCtl s c p n x).inputs = s.inputs := rfl
@[simp] theorem setCpCtl_ev (s : State) (c p n : Nat) (x : Word) : (setCpCtl s c p n x).ev = s.ev := rfl
@[simp] theorem setCpCtl_cursor (s : State) (c p n : Nat) (x : Word) : (setCpCtl s c p n x).cursor = s.cursor := rfl
@[simp] theorem setCpCtl_early (s : State) (c p n : Nat) (x : Word) : (setCpCtl s c p n x).early = s.early := rfl
@[simp] theorem setCpCtl_written (s : State) (c p n : Nat) (x : Word) : (setCpCtl s c p n x).written = s.written := rfl
@[simp] theorem setCpCtl_autos (s : State) (c p n : Nat) (x : Word) : (setCpCtl s c p n x).autos = s.autos := rfl
@[simp] theorem setCpCtl_cur (s : State) (c p n : Nat) (x : Word) : (setCpCtl s c p n x).cur = s.cur := rfl
@[simp] theorem setCpCtl_nfree (s : State) (c p n : Nat) (x : Word) : (setCpCtl s c p n x).nfree = s.nfree := rfl
@[simp] theorem setCpCtl_nextId (s : State) (c p n : Nat) (x : Word) : (setCpCtl s c p n x).nextId = s.nextId := rfl
@[simp] theorem setCpCtl_reply (s : State) (c p n : Nat) (x : Word) : (setCpCtl s c p n x).reply = s.reply := rfl
@[simp] theorem setCpCtl_mem (s : State) (c p n : Nat) (x : Word) : (setCpCtl s c p n x).mem = s.mem := rfl
@[simp] theorem setCpCtl_fe (s : State) (c p n : Nat) (x : Word) : (setCpCtl s c p n x).fe = s.fe := rfl
@[simp] theorem setCpCtl_poison (s : State) (c p n : Nat) (x : Word) : (setCpCtl s c p n x).poison = s.poison := rfl
@[simp] theorem setCpCtl_soft (s : State) (c p n : Nat) (x : Word) : (setCpCtl s c p n x).soft = s.soft := rfl
@[simp] theorem setCpCtl_strands (s : State) (c p n : Nat) (x : Word) : (setCpCtl s c p n x).strands = s.strands := rfl
@[simp] theorem setCpCtl_parked (s : State) (c p n : Nat) (x : Word) : (setCpCtl s c p n x).parked = s.parked := rfl
@[simp] theorem setCpCtl_images (s : State) (c p n : Nat) (x : Word) : (setCpCtl s c p n x).images = s.images := rfl
@[simp] theorem setCpCtl_conts (s : State) (c p n : Nat) (x : Word) : (setCpCtl s c p n x).conts = s.conts := rfl
@[simp] theorem setCpCtl_ops (s : State) (c p n : Nat) (x : Word) : (setCpCtl s c p n x).ops = s.ops := rfl
@[simp] theorem setCpCtl_egress (s : State) (c p n : Nat) (x : Word) : (setCpCtl s c p n x).egress = s.egress := rfl
@[simp] theorem setCpCtl_repl (s : State) (c p n : Nat) (x : Word) : (setCpCtl s c p n x).repl = s.repl := rfl
@[simp] theorem setCpCtl_flights (s : State) (c p n : Nat) (x : Word) : (setCpCtl s c p n x).flights = s.flights := rfl
@[simp] theorem setCpCtl_colls (s : State) (c p n : Nat) (x : Word) : (setCpCtl s c p n x).colls = s.colls := rfl
@[simp] theorem setCpCtl_bduRot (s : State) (c p n : Nat) (x : Word) : (setCpCtl s c p n x).bduRot = s.bduRot := rfl
@[simp] theorem setCpCtl_owed (s : State) (c p n : Nat) (x : Word) : (setCpCtl s c p n x).owed = s.owed := rfl
@[simp] theorem setCpCtl_singles (s : State) (c p n : Nat) (x : Word) : (setCpCtl s c p n x).singles = s.singles := rfl
@[simp] theorem setCpCtl_clusters (s : State) (c p n : Nat) (x : Word) : (setCpCtl s c p n x).clusters = s.clusters := rfl
@[simp] theorem setCpCtl_dies (s : State) (c p n : Nat) (x : Word) : (setCpCtl s c p n x).dies = s.dies := rfl
@[simp] theorem setCpCtl_dieParts (s : State) (c p n : Nat) (x : Word) : (setCpCtl s c p n x).dieParts = s.dieParts := rfl
@[simp] theorem setCpCtl_parts (s : State) (c p n : Nat) (x : Word) : (setCpCtl s c p n x).parts = s.parts := rfl
@[simp] theorem setCpCtl_dev (s : State) (c p n : Nat) (x : Word) : (setCpCtl s c p n x).dev = s.dev := rfl

@[simp] theorem setDev_cycle (s : State) (n x : Nat) : (setDev s n x).cycle = s.cycle := rfl
@[simp] theorem setDev_devTime (s : State) (n x : Nat) : (setDev s n x).devTime = s.devTime := rfl
@[simp] theorem setDev_agenda (s : State) (n x : Nat) : (setDev s n x).agenda = s.agenda := rfl
@[simp] theorem setDev_inputs (s : State) (n x : Nat) : (setDev s n x).inputs = s.inputs := rfl
@[simp] theorem setDev_ev (s : State) (n x : Nat) : (setDev s n x).ev = s.ev := rfl
@[simp] theorem setDev_cursor (s : State) (n x : Nat) : (setDev s n x).cursor = s.cursor := rfl
@[simp] theorem setDev_early (s : State) (n x : Nat) : (setDev s n x).early = s.early := rfl
@[simp] theorem setDev_written (s : State) (n x : Nat) : (setDev s n x).written = s.written := rfl
@[simp] theorem setDev_autos (s : State) (n x : Nat) : (setDev s n x).autos = s.autos := rfl
@[simp] theorem setDev_cur (s : State) (n x : Nat) : (setDev s n x).cur = s.cur := rfl
@[simp] theorem setDev_nfree (s : State) (n x : Nat) : (setDev s n x).nfree = s.nfree := rfl
@[simp] theorem setDev_nextId (s : State) (n x : Nat) : (setDev s n x).nextId = s.nextId := rfl
@[simp] theorem setDev_reply (s : State) (n x : Nat) : (setDev s n x).reply = s.reply := rfl
@[simp] theorem setDev_mem (s : State) (n x : Nat) : (setDev s n x).mem = s.mem := rfl
@[simp] theorem setDev_fe (s : State) (n x : Nat) : (setDev s n x).fe = s.fe := rfl
@[simp] theorem setDev_poison (s : State) (n x : Nat) : (setDev s n x).poison = s.poison := rfl
@[simp] theorem setDev_soft (s : State) (n x : Nat) : (setDev s n x).soft = s.soft := rfl
@[simp] theorem setDev_strands (s : State) (n x : Nat) : (setDev s n x).strands = s.strands := rfl
@[simp] theorem setDev_parked (s : State) (n x : Nat) : (setDev s n x).parked = s.parked := rfl
@[simp] theorem setDev_images (s : State) (n x : Nat) : (setDev s n x).images = s.images := rfl
@[simp] theorem setDev_conts (s : State) (n x : Nat) : (setDev s n x).conts = s.conts := rfl
@[simp] theorem setDev_ops (s : State) (n x : Nat) : (setDev s n x).ops = s.ops := rfl
@[simp] theorem setDev_egress (s : State) (n x : Nat) : (setDev s n x).egress = s.egress := rfl
@[simp] theorem setDev_repl (s : State) (n x : Nat) : (setDev s n x).repl = s.repl := rfl
@[simp] theorem setDev_flights (s : State) (n x : Nat) : (setDev s n x).flights = s.flights := rfl
@[simp] theorem setDev_colls (s : State) (n x : Nat) : (setDev s n x).colls = s.colls := rfl
@[simp] theorem setDev_bduRot (s : State) (n x : Nat) : (setDev s n x).bduRot = s.bduRot := rfl
@[simp] theorem setDev_owed (s : State) (n x : Nat) : (setDev s n x).owed = s.owed := rfl
@[simp] theorem setDev_singles (s : State) (n x : Nat) : (setDev s n x).singles = s.singles := rfl
@[simp] theorem setDev_clusters (s : State) (n x : Nat) : (setDev s n x).clusters = s.clusters := rfl
@[simp] theorem setDev_clParts (s : State) (n x : Nat) : (setDev s n x).clParts = s.clParts := rfl
@[simp] theorem setDev_dies (s : State) (n x : Nat) : (setDev s n x).dies = s.dies := rfl
@[simp] theorem setDev_dieParts (s : State) (n x : Nat) : (setDev s n x).dieParts = s.dieParts := rfl
@[simp] theorem setDev_parts (s : State) (n x : Nat) : (setDev s n x).parts = s.parts := rfl

@[simp] theorem setDevField_cycle (s : State) (r lo n x : Nat) : (setDevField s r lo n x).cycle = s.cycle := rfl
@[simp] theorem setDevField_devTime (s : State) (r lo n x : Nat) : (setDevField s r lo n x).devTime = s.devTime := rfl
@[simp] theorem setDevField_agenda (s : State) (r lo n x : Nat) : (setDevField s r lo n x).agenda = s.agenda := rfl
@[simp] theorem setDevField_inputs (s : State) (r lo n x : Nat) : (setDevField s r lo n x).inputs = s.inputs := rfl
@[simp] theorem setDevField_ev (s : State) (r lo n x : Nat) : (setDevField s r lo n x).ev = s.ev := rfl
@[simp] theorem setDevField_cursor (s : State) (r lo n x : Nat) : (setDevField s r lo n x).cursor = s.cursor := rfl
@[simp] theorem setDevField_early (s : State) (r lo n x : Nat) : (setDevField s r lo n x).early = s.early := rfl
@[simp] theorem setDevField_written (s : State) (r lo n x : Nat) : (setDevField s r lo n x).written = s.written := rfl
@[simp] theorem setDevField_autos (s : State) (r lo n x : Nat) : (setDevField s r lo n x).autos = s.autos := rfl
@[simp] theorem setDevField_cur (s : State) (r lo n x : Nat) : (setDevField s r lo n x).cur = s.cur := rfl
@[simp] theorem setDevField_nfree (s : State) (r lo n x : Nat) : (setDevField s r lo n x).nfree = s.nfree := rfl
@[simp] theorem setDevField_nextId (s : State) (r lo n x : Nat) : (setDevField s r lo n x).nextId = s.nextId := rfl
@[simp] theorem setDevField_reply (s : State) (r lo n x : Nat) : (setDevField s r lo n x).reply = s.reply := rfl
@[simp] theorem setDevField_mem (s : State) (r lo n x : Nat) : (setDevField s r lo n x).mem = s.mem := rfl
@[simp] theorem setDevField_fe (s : State) (r lo n x : Nat) : (setDevField s r lo n x).fe = s.fe := rfl
@[simp] theorem setDevField_poison (s : State) (r lo n x : Nat) : (setDevField s r lo n x).poison = s.poison := rfl
@[simp] theorem setDevField_soft (s : State) (r lo n x : Nat) : (setDevField s r lo n x).soft = s.soft := rfl
@[simp] theorem setDevField_strands (s : State) (r lo n x : Nat) : (setDevField s r lo n x).strands = s.strands := rfl
@[simp] theorem setDevField_parked (s : State) (r lo n x : Nat) : (setDevField s r lo n x).parked = s.parked := rfl
@[simp] theorem setDevField_images (s : State) (r lo n x : Nat) : (setDevField s r lo n x).images = s.images := rfl
@[simp] theorem setDevField_conts (s : State) (r lo n x : Nat) : (setDevField s r lo n x).conts = s.conts := rfl
@[simp] theorem setDevField_ops (s : State) (r lo n x : Nat) : (setDevField s r lo n x).ops = s.ops := rfl
@[simp] theorem setDevField_egress (s : State) (r lo n x : Nat) : (setDevField s r lo n x).egress = s.egress := rfl
@[simp] theorem setDevField_repl (s : State) (r lo n x : Nat) : (setDevField s r lo n x).repl = s.repl := rfl
@[simp] theorem setDevField_flights (s : State) (r lo n x : Nat) : (setDevField s r lo n x).flights = s.flights := rfl
@[simp] theorem setDevField_colls (s : State) (r lo n x : Nat) : (setDevField s r lo n x).colls = s.colls := rfl
@[simp] theorem setDevField_bduRot (s : State) (r lo n x : Nat) : (setDevField s r lo n x).bduRot = s.bduRot := rfl
@[simp] theorem setDevField_owed (s : State) (r lo n x : Nat) : (setDevField s r lo n x).owed = s.owed := rfl
@[simp] theorem setDevField_singles (s : State) (r lo n x : Nat) : (setDevField s r lo n x).singles = s.singles := rfl
@[simp] theorem setDevField_clusters (s : State) (r lo n x : Nat) : (setDevField s r lo n x).clusters = s.clusters := rfl
@[simp] theorem setDevField_clParts (s : State) (r lo n x : Nat) : (setDevField s r lo n x).clParts = s.clParts := rfl
@[simp] theorem setDevField_dies (s : State) (r lo n x : Nat) : (setDevField s r lo n x).dies = s.dies := rfl
@[simp] theorem setDevField_dieParts (s : State) (r lo n x : Nat) : (setDevField s r lo n x).dieParts = s.dieParts := rfl
@[simp] theorem setDevField_parts (s : State) (r lo n x : Nat) : (setDevField s r lo n x).parts = s.parts := rfl

@[simp] theorem queueEvent_cycle (s : State) (e : FaultEv) : (queueEvent s e).cycle = s.cycle := rfl
@[simp] theorem queueEvent_devTime (s : State) (e : FaultEv) : (queueEvent s e).devTime = s.devTime := rfl
@[simp] theorem queueEvent_agenda (s : State) (e : FaultEv) : (queueEvent s e).agenda = s.agenda := rfl
@[simp] theorem queueEvent_inputs (s : State) (e : FaultEv) : (queueEvent s e).inputs = s.inputs := rfl
@[simp] theorem queueEvent_ev (s : State) (e : FaultEv) : (queueEvent s e).ev = s.ev := rfl
@[simp] theorem queueEvent_cursor (s : State) (e : FaultEv) : (queueEvent s e).cursor = s.cursor := rfl
@[simp] theorem queueEvent_early (s : State) (e : FaultEv) : (queueEvent s e).early = s.early := rfl
@[simp] theorem queueEvent_written (s : State) (e : FaultEv) : (queueEvent s e).written = s.written := rfl
@[simp] theorem queueEvent_autos (s : State) (e : FaultEv) : (queueEvent s e).autos = s.autos := rfl
@[simp] theorem queueEvent_cur (s : State) (e : FaultEv) : (queueEvent s e).cur = s.cur := rfl
@[simp] theorem queueEvent_nfree (s : State) (e : FaultEv) : (queueEvent s e).nfree = s.nfree := rfl
@[simp] theorem queueEvent_nextId (s : State) (e : FaultEv) : (queueEvent s e).nextId = s.nextId := rfl
@[simp] theorem queueEvent_reply (s : State) (e : FaultEv) : (queueEvent s e).reply = s.reply := rfl
@[simp] theorem queueEvent_mem (s : State) (e : FaultEv) : (queueEvent s e).mem = s.mem := rfl
@[simp] theorem queueEvent_fe (s : State) (e : FaultEv) : (queueEvent s e).fe = s.fe := rfl
@[simp] theorem queueEvent_poison (s : State) (e : FaultEv) : (queueEvent s e).poison = s.poison := rfl
@[simp] theorem queueEvent_soft (s : State) (e : FaultEv) : (queueEvent s e).soft = s.soft := rfl
@[simp] theorem queueEvent_strands (s : State) (e : FaultEv) : (queueEvent s e).strands = s.strands := rfl
@[simp] theorem queueEvent_parked (s : State) (e : FaultEv) : (queueEvent s e).parked = s.parked := rfl
@[simp] theorem queueEvent_images (s : State) (e : FaultEv) : (queueEvent s e).images = s.images := rfl
@[simp] theorem queueEvent_conts (s : State) (e : FaultEv) : (queueEvent s e).conts = s.conts := rfl
@[simp] theorem queueEvent_ops (s : State) (e : FaultEv) : (queueEvent s e).ops = s.ops := rfl
@[simp] theorem queueEvent_egress (s : State) (e : FaultEv) : (queueEvent s e).egress = s.egress := rfl
@[simp] theorem queueEvent_repl (s : State) (e : FaultEv) : (queueEvent s e).repl = s.repl := rfl
@[simp] theorem queueEvent_flights (s : State) (e : FaultEv) : (queueEvent s e).flights = s.flights := rfl
@[simp] theorem queueEvent_colls (s : State) (e : FaultEv) : (queueEvent s e).colls = s.colls := rfl
@[simp] theorem queueEvent_bduRot (s : State) (e : FaultEv) : (queueEvent s e).bduRot = s.bduRot := rfl
@[simp] theorem queueEvent_owed (s : State) (e : FaultEv) : (queueEvent s e).owed = s.owed := rfl
@[simp] theorem queueEvent_singles (s : State) (e : FaultEv) : (queueEvent s e).singles = s.singles := rfl
@[simp] theorem queueEvent_clusters (s : State) (e : FaultEv) : (queueEvent s e).clusters = s.clusters := rfl
@[simp] theorem queueEvent_clParts (s : State) (e : FaultEv) : (queueEvent s e).clParts = s.clParts := rfl
@[simp] theorem queueEvent_dieParts (s : State) (e : FaultEv) : (queueEvent s e).dieParts = s.dieParts := rfl
@[simp] theorem queueEvent_parts (s : State) (e : FaultEv) : (queueEvent s e).parts = s.parts := rfl
@[simp] theorem queueEvent_dev (s : State) (e : FaultEv) : (queueEvent s e).dev = s.dev := rfl

@[simp] theorem updRunning_cycle (s : State) (k : Nat) (f : Strand → Strand) : (updRunning s k f).cycle = s.cycle := rfl
@[simp] theorem updRunning_devTime (s : State) (k : Nat) (f : Strand → Strand) : (updRunning s k f).devTime = s.devTime := rfl
@[simp] theorem updRunning_agenda (s : State) (k : Nat) (f : Strand → Strand) : (updRunning s k f).agenda = s.agenda := rfl
@[simp] theorem updRunning_inputs (s : State) (k : Nat) (f : Strand → Strand) : (updRunning s k f).inputs = s.inputs := rfl
@[simp] theorem updRunning_ev (s : State) (k : Nat) (f : Strand → Strand) : (updRunning s k f).ev = s.ev := rfl
@[simp] theorem updRunning_cursor (s : State) (k : Nat) (f : Strand → Strand) : (updRunning s k f).cursor = s.cursor := rfl
@[simp] theorem updRunning_early (s : State) (k : Nat) (f : Strand → Strand) : (updRunning s k f).early = s.early := rfl
@[simp] theorem updRunning_written (s : State) (k : Nat) (f : Strand → Strand) : (updRunning s k f).written = s.written := rfl
@[simp] theorem updRunning_autos (s : State) (k : Nat) (f : Strand → Strand) : (updRunning s k f).autos = s.autos := rfl
@[simp] theorem updRunning_cur (s : State) (k : Nat) (f : Strand → Strand) : (updRunning s k f).cur = s.cur := rfl
@[simp] theorem updRunning_nfree (s : State) (k : Nat) (f : Strand → Strand) : (updRunning s k f).nfree = s.nfree := rfl
@[simp] theorem updRunning_nextId (s : State) (k : Nat) (f : Strand → Strand) : (updRunning s k f).nextId = s.nextId := rfl
@[simp] theorem updRunning_reply (s : State) (k : Nat) (f : Strand → Strand) : (updRunning s k f).reply = s.reply := rfl
@[simp] theorem updRunning_mem (s : State) (k : Nat) (f : Strand → Strand) : (updRunning s k f).mem = s.mem := rfl
@[simp] theorem updRunning_fe (s : State) (k : Nat) (f : Strand → Strand) : (updRunning s k f).fe = s.fe := rfl
@[simp] theorem updRunning_poison (s : State) (k : Nat) (f : Strand → Strand) : (updRunning s k f).poison = s.poison := rfl
@[simp] theorem updRunning_soft (s : State) (k : Nat) (f : Strand → Strand) : (updRunning s k f).soft = s.soft := rfl
@[simp] theorem updRunning_parked (s : State) (k : Nat) (f : Strand → Strand) : (updRunning s k f).parked = s.parked := rfl
@[simp] theorem updRunning_images (s : State) (k : Nat) (f : Strand → Strand) : (updRunning s k f).images = s.images := rfl
@[simp] theorem updRunning_conts (s : State) (k : Nat) (f : Strand → Strand) : (updRunning s k f).conts = s.conts := rfl
@[simp] theorem updRunning_ops (s : State) (k : Nat) (f : Strand → Strand) : (updRunning s k f).ops = s.ops := rfl
@[simp] theorem updRunning_egress (s : State) (k : Nat) (f : Strand → Strand) : (updRunning s k f).egress = s.egress := rfl
@[simp] theorem updRunning_repl (s : State) (k : Nat) (f : Strand → Strand) : (updRunning s k f).repl = s.repl := rfl
@[simp] theorem updRunning_flights (s : State) (k : Nat) (f : Strand → Strand) : (updRunning s k f).flights = s.flights := rfl
@[simp] theorem updRunning_colls (s : State) (k : Nat) (f : Strand → Strand) : (updRunning s k f).colls = s.colls := rfl
@[simp] theorem updRunning_bduRot (s : State) (k : Nat) (f : Strand → Strand) : (updRunning s k f).bduRot = s.bduRot := rfl
@[simp] theorem updRunning_owed (s : State) (k : Nat) (f : Strand → Strand) : (updRunning s k f).owed = s.owed := rfl
@[simp] theorem updRunning_singles (s : State) (k : Nat) (f : Strand → Strand) : (updRunning s k f).singles = s.singles := rfl
@[simp] theorem updRunning_clusters (s : State) (k : Nat) (f : Strand → Strand) : (updRunning s k f).clusters = s.clusters := rfl
@[simp] theorem updRunning_clParts (s : State) (k : Nat) (f : Strand → Strand) : (updRunning s k f).clParts = s.clParts := rfl
@[simp] theorem updRunning_dies (s : State) (k : Nat) (f : Strand → Strand) : (updRunning s k f).dies = s.dies := rfl
@[simp] theorem updRunning_dieParts (s : State) (k : Nat) (f : Strand → Strand) : (updRunning s k f).dieParts = s.dieParts := rfl
@[simp] theorem updRunning_parts (s : State) (k : Nat) (f : Strand → Strand) : (updRunning s k f).parts = s.parts := rfl
@[simp] theorem updRunning_dev (s : State) (k : Nat) (f : Strand → Strand) : (updRunning s k f).dev = s.dev := rfl

/-! ### Updates of a strand -/

@[simp] theorem advance_task (t : Strand) : (advance t).task = t.task := rfl
@[simp] theorem advance_seg (t : Strand) : (advance t).seg = t.seg := rfl
@[simp] theorem advance_cl (t : Strand) : (advance t).cl = t.cl := rfl
@[simp] theorem advance_lane (t : Strand) : (advance t).lane = t.lane := rfl
@[simp] theorem advance_ctx (t : Strand) : (advance t).ctx = t.ctx := rfl
@[simp] theorem advance_g (t : Strand) : (advance t).g = t.g := rfl
@[simp] theorem advance_v (t : Strand) : (advance t).v = t.v := rfl
@[simp] theorem advance_p (t : Strand) : (advance t).p = t.p := rfl
@[simp] theorem advance_m (t : Strand) : (advance t).m = t.m := rfl
@[simp] theorem advance_c (t : Strand) : (advance t).c = t.c := rfl
@[simp] theorem advance_rm (t : Strand) : (advance t).rm = t.rm := rfl
@[simp] theorem advance_flags (t : Strand) : (advance t).flags = t.flags := rfl
@[simp] theorem advance_pc0 (t : Strand) : (advance t).pc0 = t.pc1 := rfl
@[simp] theorem advance_pc1 (t : Strand) : (advance t).pc1 = t.pc2 := rfl
@[simp] theorem advance_pc2 (t : Strand) : (advance t).pc2 = t.pc2 + 8 := rfl
@[simp] theorem advance_ds (t : Strand) : (advance t).ds = if t.ds = 1 then 2 else 0 := rfl
@[simp] theorem advance_pend (t : Strand) : (advance t).pend = t.pend := rfl
@[simp] theorem advance_hold (t : Strand) : (advance t).hold = t.hold := rfl
@[simp] theorem advance_reach (t : Strand) : (advance t).reach = none := rfl
@[simp] theorem advance_divFree (t : Strand) : (advance t).divFree = t.divFree := rfl
@[simp] theorem advance_vdivFree (t : Strand) : (advance t).vdivFree = t.vdivFree := rfl
@[simp] theorem advance_late (t : Strand) : (advance t).late = t.late := rfl
@[simp] theorem advance_lastCh (t : Strand) : (advance t).lastCh = t.lastCh := rfl
@[simp] theorem advance_lastSend (t : Strand) : (advance t).lastSend = t.lastSend := rfl
@[simp] theorem advance_lastFork (t : Strand) : (advance t).lastFork = t.lastFork := rfl
@[simp] theorem advance_idle (t : Strand) : (advance t).idle = t.idle := rfl
@[simp] theorem advance_tileF (t : Strand) : (advance t).tileF = t.tileF := rfl
@[simp] theorem advance_batchNo (t : Strand) : (advance t).batchNo = t.batchNo := rfl
@[simp] theorem advance_commits (t : Strand) : (advance t).commits = t.commits := rfl
@[simp] theorem advance_fence (t : Strand) : (advance t).fence = t.fence := rfl
@[simp] theorem advance_slot (t : Strand) : (advance t).slot = t.slot := rfl
@[simp] theorem advance_issued (t : Strand) : (advance t).issued = none := rfl
@[simp] theorem advance_lineBuf (t : Strand) : (advance t).lineBuf = [] := rfl
@[simp] theorem advance_atIssue (t : Strand) : (advance t).atIssue = [] := rfl
@[simp] theorem advance_lineOut (t : Strand) : (advance t).lineOut = t.lineOut := rfl
@[simp] theorem advance_ending (t : Strand) : (advance t).ending = t.ending := rfl
@[simp] theorem advance_resumed (t : Strand) : (advance t).resumed = none := rfl

@[simp] theorem advanceBranch_task (x : Va) (t : Strand) : (advanceBranch x t).task = t.task := rfl
@[simp] theorem advanceBranch_seg (x : Va) (t : Strand) : (advanceBranch x t).seg = t.seg := rfl
@[simp] theorem advanceBranch_cl (x : Va) (t : Strand) : (advanceBranch x t).cl = t.cl := rfl
@[simp] theorem advanceBranch_lane (x : Va) (t : Strand) : (advanceBranch x t).lane = t.lane := rfl
@[simp] theorem advanceBranch_ctx (x : Va) (t : Strand) : (advanceBranch x t).ctx = t.ctx := rfl
@[simp] theorem advanceBranch_g (x : Va) (t : Strand) : (advanceBranch x t).g = t.g := rfl
@[simp] theorem advanceBranch_v (x : Va) (t : Strand) : (advanceBranch x t).v = t.v := rfl
@[simp] theorem advanceBranch_p (x : Va) (t : Strand) : (advanceBranch x t).p = t.p := rfl
@[simp] theorem advanceBranch_m (x : Va) (t : Strand) : (advanceBranch x t).m = t.m := rfl
@[simp] theorem advanceBranch_c (x : Va) (t : Strand) : (advanceBranch x t).c = t.c := rfl
@[simp] theorem advanceBranch_rm (x : Va) (t : Strand) : (advanceBranch x t).rm = t.rm := rfl
@[simp] theorem advanceBranch_flags (x : Va) (t : Strand) : (advanceBranch x t).flags = t.flags := rfl
@[simp] theorem advanceBranch_pc0 (x : Va) (t : Strand) : (advanceBranch x t).pc0 = t.pc0 + 8 := rfl
@[simp] theorem advanceBranch_pc1 (x : Va) (t : Strand) : (advanceBranch x t).pc1 = t.pc0 + 16 := rfl
@[simp] theorem advanceBranch_pc2 (x : Va) (t : Strand) : (advanceBranch x t).pc2 = x := rfl
@[simp] theorem advanceBranch_ds (x : Va) (t : Strand) : (advanceBranch x t).ds = 1 := rfl
@[simp] theorem advanceBranch_pend (x : Va) (t : Strand) : (advanceBranch x t).pend = t.pend := rfl
@[simp] theorem advanceBranch_hold (x : Va) (t : Strand) : (advanceBranch x t).hold = t.hold := rfl
@[simp] theorem advanceBranch_reach (x : Va) (t : Strand) : (advanceBranch x t).reach = none := rfl
@[simp] theorem advanceBranch_divFree (x : Va) (t : Strand) : (advanceBranch x t).divFree = t.divFree := rfl
@[simp] theorem advanceBranch_vdivFree (x : Va) (t : Strand) : (advanceBranch x t).vdivFree = t.vdivFree := rfl
@[simp] theorem advanceBranch_late (x : Va) (t : Strand) : (advanceBranch x t).late = t.late := rfl
@[simp] theorem advanceBranch_lastCh (x : Va) (t : Strand) : (advanceBranch x t).lastCh = t.lastCh := rfl
@[simp] theorem advanceBranch_lastSend (x : Va) (t : Strand) : (advanceBranch x t).lastSend = t.lastSend := rfl
@[simp] theorem advanceBranch_lastFork (x : Va) (t : Strand) : (advanceBranch x t).lastFork = t.lastFork := rfl
@[simp] theorem advanceBranch_idle (x : Va) (t : Strand) : (advanceBranch x t).idle = t.idle := rfl
@[simp] theorem advanceBranch_tileF (x : Va) (t : Strand) : (advanceBranch x t).tileF = t.tileF := rfl
@[simp] theorem advanceBranch_batchNo (x : Va) (t : Strand) : (advanceBranch x t).batchNo = t.batchNo := rfl
@[simp] theorem advanceBranch_commits (x : Va) (t : Strand) : (advanceBranch x t).commits = t.commits := rfl
@[simp] theorem advanceBranch_fence (x : Va) (t : Strand) : (advanceBranch x t).fence = t.fence := rfl
@[simp] theorem advanceBranch_slot (x : Va) (t : Strand) : (advanceBranch x t).slot = t.slot := rfl
@[simp] theorem advanceBranch_issued (x : Va) (t : Strand) : (advanceBranch x t).issued = none := rfl
@[simp] theorem advanceBranch_lineBuf (x : Va) (t : Strand) : (advanceBranch x t).lineBuf = [] := rfl
@[simp] theorem advanceBranch_atIssue (x : Va) (t : Strand) : (advanceBranch x t).atIssue = [] := rfl
@[simp] theorem advanceBranch_lineOut (x : Va) (t : Strand) : (advanceBranch x t).lineOut = t.lineOut := rfl
@[simp] theorem advanceBranch_ending (x : Va) (t : Strand) : (advanceBranch x t).ending = t.ending := rfl
@[simp] theorem advanceBranch_resumed (x : Va) (t : Strand) : (advanceBranch x t).resumed = none := rfl

@[simp] theorem advanceTcw_task (t : Strand) : (advanceTcw t).task = t.task := rfl
@[simp] theorem advanceTcw_seg (t : Strand) : (advanceTcw t).seg = t.seg := rfl
@[simp] theorem advanceTcw_cl (t : Strand) : (advanceTcw t).cl = t.cl := rfl
@[simp] theorem advanceTcw_lane (t : Strand) : (advanceTcw t).lane = t.lane := rfl
@[simp] theorem advanceTcw_ctx (t : Strand) : (advanceTcw t).ctx = t.ctx := rfl
@[simp] theorem advanceTcw_g (t : Strand) : (advanceTcw t).g = t.g := rfl
@[simp] theorem advanceTcw_v (t : Strand) : (advanceTcw t).v = t.v := rfl
@[simp] theorem advanceTcw_p (t : Strand) : (advanceTcw t).p = t.p := rfl
@[simp] theorem advanceTcw_m (t : Strand) : (advanceTcw t).m = t.m := rfl
@[simp] theorem advanceTcw_c (t : Strand) : (advanceTcw t).c = t.c := rfl
@[simp] theorem advanceTcw_rm (t : Strand) : (advanceTcw t).rm = t.rm := rfl
@[simp] theorem advanceTcw_flags (t : Strand) : (advanceTcw t).flags = t.flags := rfl
@[simp] theorem advanceTcw_pc0 (t : Strand) : (advanceTcw t).pc0 = t.pc0 + 32 := rfl
@[simp] theorem advanceTcw_pc1 (t : Strand) : (advanceTcw t).pc1 = t.pc0 + 40 := rfl
@[simp] theorem advanceTcw_pc2 (t : Strand) : (advanceTcw t).pc2 = t.pc0 + 48 := rfl
@[simp] theorem advanceTcw_ds (t : Strand) : (advanceTcw t).ds = 0 := rfl
@[simp] theorem advanceTcw_pend (t : Strand) : (advanceTcw t).pend = t.pend := rfl
@[simp] theorem advanceTcw_hold (t : Strand) : (advanceTcw t).hold = t.hold := rfl
@[simp] theorem advanceTcw_reach (t : Strand) : (advanceTcw t).reach = none := rfl
@[simp] theorem advanceTcw_divFree (t : Strand) : (advanceTcw t).divFree = t.divFree := rfl
@[simp] theorem advanceTcw_vdivFree (t : Strand) : (advanceTcw t).vdivFree = t.vdivFree := rfl
@[simp] theorem advanceTcw_late (t : Strand) : (advanceTcw t).late = t.late := rfl
@[simp] theorem advanceTcw_lastCh (t : Strand) : (advanceTcw t).lastCh = t.lastCh := rfl
@[simp] theorem advanceTcw_lastSend (t : Strand) : (advanceTcw t).lastSend = t.lastSend := rfl
@[simp] theorem advanceTcw_lastFork (t : Strand) : (advanceTcw t).lastFork = t.lastFork := rfl
@[simp] theorem advanceTcw_idle (t : Strand) : (advanceTcw t).idle = t.idle := rfl
@[simp] theorem advanceTcw_tileF (t : Strand) : (advanceTcw t).tileF = t.tileF := rfl
@[simp] theorem advanceTcw_batchNo (t : Strand) : (advanceTcw t).batchNo = t.batchNo := rfl
@[simp] theorem advanceTcw_commits (t : Strand) : (advanceTcw t).commits = t.commits := rfl
@[simp] theorem advanceTcw_fence (t : Strand) : (advanceTcw t).fence = t.fence := rfl
@[simp] theorem advanceTcw_slot (t : Strand) : (advanceTcw t).slot = t.slot := rfl
@[simp] theorem advanceTcw_issued (t : Strand) : (advanceTcw t).issued = none := rfl
@[simp] theorem advanceTcw_lineBuf (t : Strand) : (advanceTcw t).lineBuf = [] := rfl
@[simp] theorem advanceTcw_atIssue (t : Strand) : (advanceTcw t).atIssue = [] := rfl
@[simp] theorem advanceTcw_lineOut (t : Strand) : (advanceTcw t).lineOut = t.lineOut := rfl
@[simp] theorem advanceTcw_ending (t : Strand) : (advanceTcw t).ending = t.ending := rfl
@[simp] theorem advanceTcw_resumed (t : Strand) : (advanceTcw t).resumed = none := rfl

@[simp] theorem addPend_task (now lat : Nat) (r : RegRef) (t : Strand) : (addPend now lat r t).task = t.task := by unfold addPend; split <;> rfl
@[simp] theorem addPend_seg (now lat : Nat) (r : RegRef) (t : Strand) : (addPend now lat r t).seg = t.seg := by unfold addPend; split <;> rfl
@[simp] theorem addPend_cl (now lat : Nat) (r : RegRef) (t : Strand) : (addPend now lat r t).cl = t.cl := by unfold addPend; split <;> rfl
@[simp] theorem addPend_lane (now lat : Nat) (r : RegRef) (t : Strand) : (addPend now lat r t).lane = t.lane := by unfold addPend; split <;> rfl
@[simp] theorem addPend_ctx (now lat : Nat) (r : RegRef) (t : Strand) : (addPend now lat r t).ctx = t.ctx := by unfold addPend; split <;> rfl
@[simp] theorem addPend_g (now lat : Nat) (r : RegRef) (t : Strand) : (addPend now lat r t).g = t.g := by unfold addPend; split <;> rfl
@[simp] theorem addPend_v (now lat : Nat) (r : RegRef) (t : Strand) : (addPend now lat r t).v = t.v := by unfold addPend; split <;> rfl
@[simp] theorem addPend_p (now lat : Nat) (r : RegRef) (t : Strand) : (addPend now lat r t).p = t.p := by unfold addPend; split <;> rfl
@[simp] theorem addPend_m (now lat : Nat) (r : RegRef) (t : Strand) : (addPend now lat r t).m = t.m := by unfold addPend; split <;> rfl
@[simp] theorem addPend_c (now lat : Nat) (r : RegRef) (t : Strand) : (addPend now lat r t).c = t.c := by unfold addPend; split <;> rfl
@[simp] theorem addPend_rm (now lat : Nat) (r : RegRef) (t : Strand) : (addPend now lat r t).rm = t.rm := by unfold addPend; split <;> rfl
@[simp] theorem addPend_flags (now lat : Nat) (r : RegRef) (t : Strand) : (addPend now lat r t).flags = t.flags := by unfold addPend; split <;> rfl
@[simp] theorem addPend_pc0 (now lat : Nat) (r : RegRef) (t : Strand) : (addPend now lat r t).pc0 = t.pc0 := by unfold addPend; split <;> rfl
@[simp] theorem addPend_pc1 (now lat : Nat) (r : RegRef) (t : Strand) : (addPend now lat r t).pc1 = t.pc1 := by unfold addPend; split <;> rfl
@[simp] theorem addPend_pc2 (now lat : Nat) (r : RegRef) (t : Strand) : (addPend now lat r t).pc2 = t.pc2 := by unfold addPend; split <;> rfl
@[simp] theorem addPend_ds (now lat : Nat) (r : RegRef) (t : Strand) : (addPend now lat r t).ds = t.ds := by unfold addPend; split <;> rfl
@[simp] theorem addPend_hold (now lat : Nat) (r : RegRef) (t : Strand) : (addPend now lat r t).hold = t.hold := by unfold addPend; split <;> rfl
@[simp] theorem addPend_reach (now lat : Nat) (r : RegRef) (t : Strand) : (addPend now lat r t).reach = t.reach := by unfold addPend; split <;> rfl
@[simp] theorem addPend_divFree (now lat : Nat) (r : RegRef) (t : Strand) : (addPend now lat r t).divFree = t.divFree := by unfold addPend; split <;> rfl
@[simp] theorem addPend_vdivFree (now lat : Nat) (r : RegRef) (t : Strand) : (addPend now lat r t).vdivFree = t.vdivFree := by unfold addPend; split <;> rfl
@[simp] theorem addPend_late (now lat : Nat) (r : RegRef) (t : Strand) : (addPend now lat r t).late = t.late := by unfold addPend; split <;> rfl
@[simp] theorem addPend_lastCh (now lat : Nat) (r : RegRef) (t : Strand) : (addPend now lat r t).lastCh = t.lastCh := by unfold addPend; split <;> rfl
@[simp] theorem addPend_lastSend (now lat : Nat) (r : RegRef) (t : Strand) : (addPend now lat r t).lastSend = t.lastSend := by unfold addPend; split <;> rfl
@[simp] theorem addPend_lastFork (now lat : Nat) (r : RegRef) (t : Strand) : (addPend now lat r t).lastFork = t.lastFork := by unfold addPend; split <;> rfl
@[simp] theorem addPend_idle (now lat : Nat) (r : RegRef) (t : Strand) : (addPend now lat r t).idle = t.idle := by unfold addPend; split <;> rfl
@[simp] theorem addPend_tileF (now lat : Nat) (r : RegRef) (t : Strand) : (addPend now lat r t).tileF = t.tileF := by unfold addPend; split <;> rfl
@[simp] theorem addPend_batchNo (now lat : Nat) (r : RegRef) (t : Strand) : (addPend now lat r t).batchNo = t.batchNo := by unfold addPend; split <;> rfl
@[simp] theorem addPend_commits (now lat : Nat) (r : RegRef) (t : Strand) : (addPend now lat r t).commits = t.commits := by unfold addPend; split <;> rfl
@[simp] theorem addPend_fence (now lat : Nat) (r : RegRef) (t : Strand) : (addPend now lat r t).fence = t.fence := by unfold addPend; split <;> rfl
@[simp] theorem addPend_slot (now lat : Nat) (r : RegRef) (t : Strand) : (addPend now lat r t).slot = t.slot := by unfold addPend; split <;> rfl
@[simp] theorem addPend_issued (now lat : Nat) (r : RegRef) (t : Strand) : (addPend now lat r t).issued = t.issued := by unfold addPend; split <;> rfl
@[simp] theorem addPend_lineBuf (now lat : Nat) (r : RegRef) (t : Strand) : (addPend now lat r t).lineBuf = t.lineBuf := by unfold addPend; split <;> rfl
@[simp] theorem addPend_atIssue (now lat : Nat) (r : RegRef) (t : Strand) : (addPend now lat r t).atIssue = t.atIssue := by unfold addPend; split <;> rfl
@[simp] theorem addPend_lineOut (now lat : Nat) (r : RegRef) (t : Strand) : (addPend now lat r t).lineOut = t.lineOut := by unfold addPend; split <;> rfl
@[simp] theorem addPend_ending (now lat : Nat) (r : RegRef) (t : Strand) : (addPend now lat r t).ending = t.ending := by unfold addPend; split <;> rfl
@[simp] theorem addPend_resumed (now lat : Nat) (r : RegRef) (t : Strand) : (addPend now lat r t).resumed = t.resumed := by unfold addPend; split <;> rfl

@[simp] theorem setG_task (now lat : Nat) (d : R6) (x : Word) (t : Strand) : (setG now lat d x t).task = t.task := by
  unfold setG; split <;> simp
@[simp] theorem setG_seg (now lat : Nat) (d : R6) (x : Word) (t : Strand) : (setG now lat d x t).seg = t.seg := by
  unfold setG; split <;> simp
@[simp] theorem setG_cl (now lat : Nat) (d : R6) (x : Word) (t : Strand) : (setG now lat d x t).cl = t.cl := by
  unfold setG; split <;> simp
@[simp] theorem setG_lane (now lat : Nat) (d : R6) (x : Word) (t : Strand) : (setG now lat d x t).lane = t.lane := by
  unfold setG; split <;> simp
@[simp] theorem setG_ctx (now lat : Nat) (d : R6) (x : Word) (t : Strand) : (setG now lat d x t).ctx = t.ctx := by
  unfold setG; split <;> simp
@[simp] theorem setG_v (now lat : Nat) (d : R6) (x : Word) (t : Strand) : (setG now lat d x t).v = t.v := by
  unfold setG; split <;> simp
@[simp] theorem setG_p (now lat : Nat) (d : R6) (x : Word) (t : Strand) : (setG now lat d x t).p = t.p := by
  unfold setG; split <;> simp
@[simp] theorem setG_m (now lat : Nat) (d : R6) (x : Word) (t : Strand) : (setG now lat d x t).m = t.m := by
  unfold setG; split <;> simp
@[simp] theorem setG_c (now lat : Nat) (d : R6) (x : Word) (t : Strand) : (setG now lat d x t).c = t.c := by
  unfold setG; split <;> simp
@[simp] theorem setG_rm (now lat : Nat) (d : R6) (x : Word) (t : Strand) : (setG now lat d x t).rm = t.rm := by
  unfold setG; split <;> simp
@[simp] theorem setG_flags (now lat : Nat) (d : R6) (x : Word) (t : Strand) : (setG now lat d x t).flags = t.flags := by
  unfold setG; split <;> simp
@[simp] theorem setG_pc0 (now lat : Nat) (d : R6) (x : Word) (t : Strand) : (setG now lat d x t).pc0 = t.pc0 := by
  unfold setG; split <;> simp
@[simp] theorem setG_pc1 (now lat : Nat) (d : R6) (x : Word) (t : Strand) : (setG now lat d x t).pc1 = t.pc1 := by
  unfold setG; split <;> simp
@[simp] theorem setG_pc2 (now lat : Nat) (d : R6) (x : Word) (t : Strand) : (setG now lat d x t).pc2 = t.pc2 := by
  unfold setG; split <;> simp
@[simp] theorem setG_ds (now lat : Nat) (d : R6) (x : Word) (t : Strand) : (setG now lat d x t).ds = t.ds := by
  unfold setG; split <;> simp
@[simp] theorem setG_hold (now lat : Nat) (d : R6) (x : Word) (t : Strand) : (setG now lat d x t).hold = t.hold := by
  unfold setG; split <;> simp
@[simp] theorem setG_reach (now lat : Nat) (d : R6) (x : Word) (t : Strand) : (setG now lat d x t).reach = t.reach := by
  unfold setG; split <;> simp
@[simp] theorem setG_divFree (now lat : Nat) (d : R6) (x : Word) (t : Strand) : (setG now lat d x t).divFree = t.divFree := by
  unfold setG; split <;> simp
@[simp] theorem setG_vdivFree (now lat : Nat) (d : R6) (x : Word) (t : Strand) : (setG now lat d x t).vdivFree = t.vdivFree := by
  unfold setG; split <;> simp
@[simp] theorem setG_late (now lat : Nat) (d : R6) (x : Word) (t : Strand) : (setG now lat d x t).late = t.late := by
  unfold setG; split <;> simp
@[simp] theorem setG_lastCh (now lat : Nat) (d : R6) (x : Word) (t : Strand) : (setG now lat d x t).lastCh = t.lastCh := by
  unfold setG; split <;> simp
@[simp] theorem setG_lastSend (now lat : Nat) (d : R6) (x : Word) (t : Strand) : (setG now lat d x t).lastSend = t.lastSend := by
  unfold setG; split <;> simp
@[simp] theorem setG_lastFork (now lat : Nat) (d : R6) (x : Word) (t : Strand) : (setG now lat d x t).lastFork = t.lastFork := by
  unfold setG; split <;> simp
@[simp] theorem setG_idle (now lat : Nat) (d : R6) (x : Word) (t : Strand) : (setG now lat d x t).idle = t.idle := by
  unfold setG; split <;> simp
@[simp] theorem setG_tileF (now lat : Nat) (d : R6) (x : Word) (t : Strand) : (setG now lat d x t).tileF = t.tileF := by
  unfold setG; split <;> simp
@[simp] theorem setG_batchNo (now lat : Nat) (d : R6) (x : Word) (t : Strand) : (setG now lat d x t).batchNo = t.batchNo := by
  unfold setG; split <;> simp
@[simp] theorem setG_commits (now lat : Nat) (d : R6) (x : Word) (t : Strand) : (setG now lat d x t).commits = t.commits := by
  unfold setG; split <;> simp
@[simp] theorem setG_fence (now lat : Nat) (d : R6) (x : Word) (t : Strand) : (setG now lat d x t).fence = t.fence := by
  unfold setG; split <;> simp
@[simp] theorem setG_slot (now lat : Nat) (d : R6) (x : Word) (t : Strand) : (setG now lat d x t).slot = t.slot := by
  unfold setG; split <;> simp
@[simp] theorem setG_issued (now lat : Nat) (d : R6) (x : Word) (t : Strand) : (setG now lat d x t).issued = t.issued := by
  unfold setG; split <;> simp
@[simp] theorem setG_lineBuf (now lat : Nat) (d : R6) (x : Word) (t : Strand) : (setG now lat d x t).lineBuf = t.lineBuf := by
  unfold setG; split <;> simp
@[simp] theorem setG_atIssue (now lat : Nat) (d : R6) (x : Word) (t : Strand) : (setG now lat d x t).atIssue = t.atIssue := by
  unfold setG; split <;> simp
@[simp] theorem setG_lineOut (now lat : Nat) (d : R6) (x : Word) (t : Strand) : (setG now lat d x t).lineOut = t.lineOut := by
  unfold setG; split <;> simp
@[simp] theorem setG_ending (now lat : Nat) (d : R6) (x : Word) (t : Strand) : (setG now lat d x t).ending = t.ending := by
  unfold setG; split <;> simp
@[simp] theorem setG_resumed (now lat : Nat) (d : R6) (x : Word) (t : Strand) : (setG now lat d x t).resumed = t.resumed := by
  unfold setG; split <;> simp

@[simp] theorem setV_task (now lat : Nat) (d : R6) (x : BitVec 1024) (t : Strand) : (setV now lat d x t).task = t.task := by
  simp [setV]
@[simp] theorem setV_seg (now lat : Nat) (d : R6) (x : BitVec 1024) (t : Strand) : (setV now lat d x t).seg = t.seg := by
  simp [setV]
@[simp] theorem setV_cl (now lat : Nat) (d : R6) (x : BitVec 1024) (t : Strand) : (setV now lat d x t).cl = t.cl := by
  simp [setV]
@[simp] theorem setV_lane (now lat : Nat) (d : R6) (x : BitVec 1024) (t : Strand) : (setV now lat d x t).lane = t.lane := by
  simp [setV]
@[simp] theorem setV_ctx (now lat : Nat) (d : R6) (x : BitVec 1024) (t : Strand) : (setV now lat d x t).ctx = t.ctx := by
  simp [setV]
@[simp] theorem setV_g (now lat : Nat) (d : R6) (x : BitVec 1024) (t : Strand) : (setV now lat d x t).g = t.g := by
  simp [setV]
@[simp] theorem setV_p (now lat : Nat) (d : R6) (x : BitVec 1024) (t : Strand) : (setV now lat d x t).p = t.p := by
  simp [setV]
@[simp] theorem setV_m (now lat : Nat) (d : R6) (x : BitVec 1024) (t : Strand) : (setV now lat d x t).m = t.m := by
  simp [setV]
@[simp] theorem setV_c (now lat : Nat) (d : R6) (x : BitVec 1024) (t : Strand) : (setV now lat d x t).c = t.c := by
  simp [setV]
@[simp] theorem setV_rm (now lat : Nat) (d : R6) (x : BitVec 1024) (t : Strand) : (setV now lat d x t).rm = t.rm := by
  simp [setV]
@[simp] theorem setV_flags (now lat : Nat) (d : R6) (x : BitVec 1024) (t : Strand) : (setV now lat d x t).flags = t.flags := by
  simp [setV]
@[simp] theorem setV_pc0 (now lat : Nat) (d : R6) (x : BitVec 1024) (t : Strand) : (setV now lat d x t).pc0 = t.pc0 := by
  simp [setV]
@[simp] theorem setV_pc1 (now lat : Nat) (d : R6) (x : BitVec 1024) (t : Strand) : (setV now lat d x t).pc1 = t.pc1 := by
  simp [setV]
@[simp] theorem setV_pc2 (now lat : Nat) (d : R6) (x : BitVec 1024) (t : Strand) : (setV now lat d x t).pc2 = t.pc2 := by
  simp [setV]
@[simp] theorem setV_ds (now lat : Nat) (d : R6) (x : BitVec 1024) (t : Strand) : (setV now lat d x t).ds = t.ds := by
  simp [setV]
@[simp] theorem setV_hold (now lat : Nat) (d : R6) (x : BitVec 1024) (t : Strand) : (setV now lat d x t).hold = t.hold := by
  simp [setV]
@[simp] theorem setV_reach (now lat : Nat) (d : R6) (x : BitVec 1024) (t : Strand) : (setV now lat d x t).reach = t.reach := by
  simp [setV]
@[simp] theorem setV_divFree (now lat : Nat) (d : R6) (x : BitVec 1024) (t : Strand) : (setV now lat d x t).divFree = t.divFree := by
  simp [setV]
@[simp] theorem setV_vdivFree (now lat : Nat) (d : R6) (x : BitVec 1024) (t : Strand) : (setV now lat d x t).vdivFree = t.vdivFree := by
  simp [setV]
@[simp] theorem setV_late (now lat : Nat) (d : R6) (x : BitVec 1024) (t : Strand) : (setV now lat d x t).late = t.late := by
  simp [setV]
@[simp] theorem setV_lastCh (now lat : Nat) (d : R6) (x : BitVec 1024) (t : Strand) : (setV now lat d x t).lastCh = t.lastCh := by
  simp [setV]
@[simp] theorem setV_lastSend (now lat : Nat) (d : R6) (x : BitVec 1024) (t : Strand) : (setV now lat d x t).lastSend = t.lastSend := by
  simp [setV]
@[simp] theorem setV_lastFork (now lat : Nat) (d : R6) (x : BitVec 1024) (t : Strand) : (setV now lat d x t).lastFork = t.lastFork := by
  simp [setV]
@[simp] theorem setV_idle (now lat : Nat) (d : R6) (x : BitVec 1024) (t : Strand) : (setV now lat d x t).idle = t.idle := by
  simp [setV]
@[simp] theorem setV_tileF (now lat : Nat) (d : R6) (x : BitVec 1024) (t : Strand) : (setV now lat d x t).tileF = t.tileF := by
  simp [setV]
@[simp] theorem setV_batchNo (now lat : Nat) (d : R6) (x : BitVec 1024) (t : Strand) : (setV now lat d x t).batchNo = t.batchNo := by
  simp [setV]
@[simp] theorem setV_commits (now lat : Nat) (d : R6) (x : BitVec 1024) (t : Strand) : (setV now lat d x t).commits = t.commits := by
  simp [setV]
@[simp] theorem setV_fence (now lat : Nat) (d : R6) (x : BitVec 1024) (t : Strand) : (setV now lat d x t).fence = t.fence := by
  simp [setV]
@[simp] theorem setV_slot (now lat : Nat) (d : R6) (x : BitVec 1024) (t : Strand) : (setV now lat d x t).slot = t.slot := by
  simp [setV]
@[simp] theorem setV_issued (now lat : Nat) (d : R6) (x : BitVec 1024) (t : Strand) : (setV now lat d x t).issued = t.issued := by
  simp [setV]
@[simp] theorem setV_lineBuf (now lat : Nat) (d : R6) (x : BitVec 1024) (t : Strand) : (setV now lat d x t).lineBuf = t.lineBuf := by
  simp [setV]
@[simp] theorem setV_atIssue (now lat : Nat) (d : R6) (x : BitVec 1024) (t : Strand) : (setV now lat d x t).atIssue = t.atIssue := by
  simp [setV]
@[simp] theorem setV_lineOut (now lat : Nat) (d : R6) (x : BitVec 1024) (t : Strand) : (setV now lat d x t).lineOut = t.lineOut := by
  simp [setV]
@[simp] theorem setV_ending (now lat : Nat) (d : R6) (x : BitVec 1024) (t : Strand) : (setV now lat d x t).ending = t.ending := by
  simp [setV]
@[simp] theorem setV_resumed (now lat : Nat) (d : R6) (x : BitVec 1024) (t : Strand) : (setV now lat d x t).resumed = t.resumed := by
  simp [setV]

@[simp] theorem setP_task (now lat : Nat) (d : BitVec 3) (x : Bool) (t : Strand) : (setP now lat d x t).task = t.task := by
  unfold setP; split <;> simp
@[simp] theorem setP_seg (now lat : Nat) (d : BitVec 3) (x : Bool) (t : Strand) : (setP now lat d x t).seg = t.seg := by
  unfold setP; split <;> simp
@[simp] theorem setP_cl (now lat : Nat) (d : BitVec 3) (x : Bool) (t : Strand) : (setP now lat d x t).cl = t.cl := by
  unfold setP; split <;> simp
@[simp] theorem setP_lane (now lat : Nat) (d : BitVec 3) (x : Bool) (t : Strand) : (setP now lat d x t).lane = t.lane := by
  unfold setP; split <;> simp
@[simp] theorem setP_ctx (now lat : Nat) (d : BitVec 3) (x : Bool) (t : Strand) : (setP now lat d x t).ctx = t.ctx := by
  unfold setP; split <;> simp
@[simp] theorem setP_g (now lat : Nat) (d : BitVec 3) (x : Bool) (t : Strand) : (setP now lat d x t).g = t.g := by
  unfold setP; split <;> simp
@[simp] theorem setP_v (now lat : Nat) (d : BitVec 3) (x : Bool) (t : Strand) : (setP now lat d x t).v = t.v := by
  unfold setP; split <;> simp
@[simp] theorem setP_m (now lat : Nat) (d : BitVec 3) (x : Bool) (t : Strand) : (setP now lat d x t).m = t.m := by
  unfold setP; split <;> simp
@[simp] theorem setP_c (now lat : Nat) (d : BitVec 3) (x : Bool) (t : Strand) : (setP now lat d x t).c = t.c := by
  unfold setP; split <;> simp
@[simp] theorem setP_rm (now lat : Nat) (d : BitVec 3) (x : Bool) (t : Strand) : (setP now lat d x t).rm = t.rm := by
  unfold setP; split <;> simp
@[simp] theorem setP_flags (now lat : Nat) (d : BitVec 3) (x : Bool) (t : Strand) : (setP now lat d x t).flags = t.flags := by
  unfold setP; split <;> simp
@[simp] theorem setP_pc0 (now lat : Nat) (d : BitVec 3) (x : Bool) (t : Strand) : (setP now lat d x t).pc0 = t.pc0 := by
  unfold setP; split <;> simp
@[simp] theorem setP_pc1 (now lat : Nat) (d : BitVec 3) (x : Bool) (t : Strand) : (setP now lat d x t).pc1 = t.pc1 := by
  unfold setP; split <;> simp
@[simp] theorem setP_pc2 (now lat : Nat) (d : BitVec 3) (x : Bool) (t : Strand) : (setP now lat d x t).pc2 = t.pc2 := by
  unfold setP; split <;> simp
@[simp] theorem setP_ds (now lat : Nat) (d : BitVec 3) (x : Bool) (t : Strand) : (setP now lat d x t).ds = t.ds := by
  unfold setP; split <;> simp
@[simp] theorem setP_hold (now lat : Nat) (d : BitVec 3) (x : Bool) (t : Strand) : (setP now lat d x t).hold = t.hold := by
  unfold setP; split <;> simp
@[simp] theorem setP_reach (now lat : Nat) (d : BitVec 3) (x : Bool) (t : Strand) : (setP now lat d x t).reach = t.reach := by
  unfold setP; split <;> simp
@[simp] theorem setP_divFree (now lat : Nat) (d : BitVec 3) (x : Bool) (t : Strand) : (setP now lat d x t).divFree = t.divFree := by
  unfold setP; split <;> simp
@[simp] theorem setP_vdivFree (now lat : Nat) (d : BitVec 3) (x : Bool) (t : Strand) : (setP now lat d x t).vdivFree = t.vdivFree := by
  unfold setP; split <;> simp
@[simp] theorem setP_late (now lat : Nat) (d : BitVec 3) (x : Bool) (t : Strand) : (setP now lat d x t).late = t.late := by
  unfold setP; split <;> simp
@[simp] theorem setP_lastCh (now lat : Nat) (d : BitVec 3) (x : Bool) (t : Strand) : (setP now lat d x t).lastCh = t.lastCh := by
  unfold setP; split <;> simp
@[simp] theorem setP_lastSend (now lat : Nat) (d : BitVec 3) (x : Bool) (t : Strand) : (setP now lat d x t).lastSend = t.lastSend := by
  unfold setP; split <;> simp
@[simp] theorem setP_lastFork (now lat : Nat) (d : BitVec 3) (x : Bool) (t : Strand) : (setP now lat d x t).lastFork = t.lastFork := by
  unfold setP; split <;> simp
@[simp] theorem setP_idle (now lat : Nat) (d : BitVec 3) (x : Bool) (t : Strand) : (setP now lat d x t).idle = t.idle := by
  unfold setP; split <;> simp
@[simp] theorem setP_tileF (now lat : Nat) (d : BitVec 3) (x : Bool) (t : Strand) : (setP now lat d x t).tileF = t.tileF := by
  unfold setP; split <;> simp
@[simp] theorem setP_batchNo (now lat : Nat) (d : BitVec 3) (x : Bool) (t : Strand) : (setP now lat d x t).batchNo = t.batchNo := by
  unfold setP; split <;> simp
@[simp] theorem setP_commits (now lat : Nat) (d : BitVec 3) (x : Bool) (t : Strand) : (setP now lat d x t).commits = t.commits := by
  unfold setP; split <;> simp
@[simp] theorem setP_fence (now lat : Nat) (d : BitVec 3) (x : Bool) (t : Strand) : (setP now lat d x t).fence = t.fence := by
  unfold setP; split <;> simp
@[simp] theorem setP_slot (now lat : Nat) (d : BitVec 3) (x : Bool) (t : Strand) : (setP now lat d x t).slot = t.slot := by
  unfold setP; split <;> simp
@[simp] theorem setP_issued (now lat : Nat) (d : BitVec 3) (x : Bool) (t : Strand) : (setP now lat d x t).issued = t.issued := by
  unfold setP; split <;> simp
@[simp] theorem setP_lineBuf (now lat : Nat) (d : BitVec 3) (x : Bool) (t : Strand) : (setP now lat d x t).lineBuf = t.lineBuf := by
  unfold setP; split <;> simp
@[simp] theorem setP_atIssue (now lat : Nat) (d : BitVec 3) (x : Bool) (t : Strand) : (setP now lat d x t).atIssue = t.atIssue := by
  unfold setP; split <;> simp
@[simp] theorem setP_lineOut (now lat : Nat) (d : BitVec 3) (x : Bool) (t : Strand) : (setP now lat d x t).lineOut = t.lineOut := by
  unfold setP; split <;> simp
@[simp] theorem setP_ending (now lat : Nat) (d : BitVec 3) (x : Bool) (t : Strand) : (setP now lat d x t).ending = t.ending := by
  unfold setP; split <;> simp
@[simp] theorem setP_resumed (now lat : Nat) (d : BitVec 3) (x : Bool) (t : Strand) : (setP now lat d x t).resumed = t.resumed := by
  unfold setP; split <;> simp

@[simp] theorem setM_task (now lat : Nat) (d : BitVec 3) (x : Word) (t : Strand) : (setM now lat d x t).task = t.task := by
  unfold setM; split <;> simp
@[simp] theorem setM_seg (now lat : Nat) (d : BitVec 3) (x : Word) (t : Strand) : (setM now lat d x t).seg = t.seg := by
  unfold setM; split <;> simp
@[simp] theorem setM_cl (now lat : Nat) (d : BitVec 3) (x : Word) (t : Strand) : (setM now lat d x t).cl = t.cl := by
  unfold setM; split <;> simp
@[simp] theorem setM_lane (now lat : Nat) (d : BitVec 3) (x : Word) (t : Strand) : (setM now lat d x t).lane = t.lane := by
  unfold setM; split <;> simp
@[simp] theorem setM_ctx (now lat : Nat) (d : BitVec 3) (x : Word) (t : Strand) : (setM now lat d x t).ctx = t.ctx := by
  unfold setM; split <;> simp
@[simp] theorem setM_g (now lat : Nat) (d : BitVec 3) (x : Word) (t : Strand) : (setM now lat d x t).g = t.g := by
  unfold setM; split <;> simp
@[simp] theorem setM_v (now lat : Nat) (d : BitVec 3) (x : Word) (t : Strand) : (setM now lat d x t).v = t.v := by
  unfold setM; split <;> simp
@[simp] theorem setM_p (now lat : Nat) (d : BitVec 3) (x : Word) (t : Strand) : (setM now lat d x t).p = t.p := by
  unfold setM; split <;> simp
@[simp] theorem setM_c (now lat : Nat) (d : BitVec 3) (x : Word) (t : Strand) : (setM now lat d x t).c = t.c := by
  unfold setM; split <;> simp
@[simp] theorem setM_rm (now lat : Nat) (d : BitVec 3) (x : Word) (t : Strand) : (setM now lat d x t).rm = t.rm := by
  unfold setM; split <;> simp
@[simp] theorem setM_flags (now lat : Nat) (d : BitVec 3) (x : Word) (t : Strand) : (setM now lat d x t).flags = t.flags := by
  unfold setM; split <;> simp
@[simp] theorem setM_pc0 (now lat : Nat) (d : BitVec 3) (x : Word) (t : Strand) : (setM now lat d x t).pc0 = t.pc0 := by
  unfold setM; split <;> simp
@[simp] theorem setM_pc1 (now lat : Nat) (d : BitVec 3) (x : Word) (t : Strand) : (setM now lat d x t).pc1 = t.pc1 := by
  unfold setM; split <;> simp
@[simp] theorem setM_pc2 (now lat : Nat) (d : BitVec 3) (x : Word) (t : Strand) : (setM now lat d x t).pc2 = t.pc2 := by
  unfold setM; split <;> simp
@[simp] theorem setM_ds (now lat : Nat) (d : BitVec 3) (x : Word) (t : Strand) : (setM now lat d x t).ds = t.ds := by
  unfold setM; split <;> simp
@[simp] theorem setM_hold (now lat : Nat) (d : BitVec 3) (x : Word) (t : Strand) : (setM now lat d x t).hold = t.hold := by
  unfold setM; split <;> simp
@[simp] theorem setM_reach (now lat : Nat) (d : BitVec 3) (x : Word) (t : Strand) : (setM now lat d x t).reach = t.reach := by
  unfold setM; split <;> simp
@[simp] theorem setM_divFree (now lat : Nat) (d : BitVec 3) (x : Word) (t : Strand) : (setM now lat d x t).divFree = t.divFree := by
  unfold setM; split <;> simp
@[simp] theorem setM_vdivFree (now lat : Nat) (d : BitVec 3) (x : Word) (t : Strand) : (setM now lat d x t).vdivFree = t.vdivFree := by
  unfold setM; split <;> simp
@[simp] theorem setM_late (now lat : Nat) (d : BitVec 3) (x : Word) (t : Strand) : (setM now lat d x t).late = t.late := by
  unfold setM; split <;> simp
@[simp] theorem setM_lastCh (now lat : Nat) (d : BitVec 3) (x : Word) (t : Strand) : (setM now lat d x t).lastCh = t.lastCh := by
  unfold setM; split <;> simp
@[simp] theorem setM_lastSend (now lat : Nat) (d : BitVec 3) (x : Word) (t : Strand) : (setM now lat d x t).lastSend = t.lastSend := by
  unfold setM; split <;> simp
@[simp] theorem setM_lastFork (now lat : Nat) (d : BitVec 3) (x : Word) (t : Strand) : (setM now lat d x t).lastFork = t.lastFork := by
  unfold setM; split <;> simp
@[simp] theorem setM_idle (now lat : Nat) (d : BitVec 3) (x : Word) (t : Strand) : (setM now lat d x t).idle = t.idle := by
  unfold setM; split <;> simp
@[simp] theorem setM_tileF (now lat : Nat) (d : BitVec 3) (x : Word) (t : Strand) : (setM now lat d x t).tileF = t.tileF := by
  unfold setM; split <;> simp
@[simp] theorem setM_batchNo (now lat : Nat) (d : BitVec 3) (x : Word) (t : Strand) : (setM now lat d x t).batchNo = t.batchNo := by
  unfold setM; split <;> simp
@[simp] theorem setM_commits (now lat : Nat) (d : BitVec 3) (x : Word) (t : Strand) : (setM now lat d x t).commits = t.commits := by
  unfold setM; split <;> simp
@[simp] theorem setM_fence (now lat : Nat) (d : BitVec 3) (x : Word) (t : Strand) : (setM now lat d x t).fence = t.fence := by
  unfold setM; split <;> simp
@[simp] theorem setM_slot (now lat : Nat) (d : BitVec 3) (x : Word) (t : Strand) : (setM now lat d x t).slot = t.slot := by
  unfold setM; split <;> simp
@[simp] theorem setM_issued (now lat : Nat) (d : BitVec 3) (x : Word) (t : Strand) : (setM now lat d x t).issued = t.issued := by
  unfold setM; split <;> simp
@[simp] theorem setM_lineBuf (now lat : Nat) (d : BitVec 3) (x : Word) (t : Strand) : (setM now lat d x t).lineBuf = t.lineBuf := by
  unfold setM; split <;> simp
@[simp] theorem setM_atIssue (now lat : Nat) (d : BitVec 3) (x : Word) (t : Strand) : (setM now lat d x t).atIssue = t.atIssue := by
  unfold setM; split <;> simp
@[simp] theorem setM_lineOut (now lat : Nat) (d : BitVec 3) (x : Word) (t : Strand) : (setM now lat d x t).lineOut = t.lineOut := by
  unfold setM; split <;> simp
@[simp] theorem setM_ending (now lat : Nat) (d : BitVec 3) (x : Word) (t : Strand) : (setM now lat d x t).ending = t.ending := by
  unfold setM; split <;> simp
@[simp] theorem setM_resumed (now lat : Nat) (d : BitVec 3) (x : Word) (t : Strand) : (setM now lat d x t).resumed = t.resumed := by
  unfold setM; split <;> simp


@[simp] theorem setC_task (d : R6) (x : BitVec 16) (t : Strand) : (setC d x t).task = t.task := rfl
@[simp] theorem setC_seg (d : R6) (x : BitVec 16) (t : Strand) : (setC d x t).seg = t.seg := rfl
@[simp] theorem setC_cl (d : R6) (x : BitVec 16) (t : Strand) : (setC d x t).cl = t.cl := rfl
@[simp] theorem setC_lane (d : R6) (x : BitVec 16) (t : Strand) : (setC d x t).lane = t.lane := rfl
@[simp] theorem setC_ctx (d : R6) (x : BitVec 16) (t : Strand) : (setC d x t).ctx = t.ctx := rfl
@[simp] theorem setC_g (d : R6) (x : BitVec 16) (t : Strand) : (setC d x t).g = t.g := rfl
@[simp] theorem setC_v (d : R6) (x : BitVec 16) (t : Strand) : (setC d x t).v = t.v := rfl
@[simp] theorem setC_p (d : R6) (x : BitVec 16) (t : Strand) : (setC d x t).p = t.p := rfl
@[simp] theorem setC_m (d : R6) (x : BitVec 16) (t : Strand) : (setC d x t).m = t.m := rfl
@[simp] theorem setC_rm (d : R6) (x : BitVec 16) (t : Strand) : (setC d x t).rm = t.rm := rfl
@[simp] theorem setC_flags (d : R6) (x : BitVec 16) (t : Strand) : (setC d x t).flags = t.flags := rfl
@[simp] theorem setC_pc0 (d : R6) (x : BitVec 16) (t : Strand) : (setC d x t).pc0 = t.pc0 := rfl
@[simp] theorem setC_pc1 (d : R6) (x : BitVec 16) (t : Strand) : (setC d x t).pc1 = t.pc1 := rfl
@[simp] theorem setC_pc2 (d : R6) (x : BitVec 16) (t : Strand) : (setC d x t).pc2 = t.pc2 := rfl
@[simp] theorem setC_ds (d : R6) (x : BitVec 16) (t : Strand) : (setC d x t).ds = t.ds := rfl
@[simp] theorem setC_pend (d : R6) (x : BitVec 16) (t : Strand) : (setC d x t).pend = t.pend := rfl
@[simp] theorem setC_hold (d : R6) (x : BitVec 16) (t : Strand) : (setC d x t).hold = t.hold := rfl
@[simp] theorem setC_reach (d : R6) (x : BitVec 16) (t : Strand) : (setC d x t).reach = t.reach := rfl
@[simp] theorem setC_divFree (d : R6) (x : BitVec 16) (t : Strand) : (setC d x t).divFree = t.divFree := rfl
@[simp] theorem setC_vdivFree (d : R6) (x : BitVec 16) (t : Strand) : (setC d x t).vdivFree = t.vdivFree := rfl
@[simp] theorem setC_late (d : R6) (x : BitVec 16) (t : Strand) : (setC d x t).late = t.late := rfl
@[simp] theorem setC_lastCh (d : R6) (x : BitVec 16) (t : Strand) : (setC d x t).lastCh = t.lastCh := rfl
@[simp] theorem setC_lastSend (d : R6) (x : BitVec 16) (t : Strand) : (setC d x t).lastSend = t.lastSend := rfl
@[simp] theorem setC_lastFork (d : R6) (x : BitVec 16) (t : Strand) : (setC d x t).lastFork = t.lastFork := rfl
@[simp] theorem setC_idle (d : R6) (x : BitVec 16) (t : Strand) : (setC d x t).idle = t.idle := rfl
@[simp] theorem setC_tileF (d : R6) (x : BitVec 16) (t : Strand) : (setC d x t).tileF = t.tileF := rfl
@[simp] theorem setC_batchNo (d : R6) (x : BitVec 16) (t : Strand) : (setC d x t).batchNo = t.batchNo := rfl
@[simp] theorem setC_commits (d : R6) (x : BitVec 16) (t : Strand) : (setC d x t).commits = t.commits := rfl
@[simp] theorem setC_fence (d : R6) (x : BitVec 16) (t : Strand) : (setC d x t).fence = t.fence := rfl
@[simp] theorem setC_slot (d : R6) (x : BitVec 16) (t : Strand) : (setC d x t).slot = t.slot := rfl
@[simp] theorem setC_issued (d : R6) (x : BitVec 16) (t : Strand) : (setC d x t).issued = t.issued := rfl
@[simp] theorem setC_lineBuf (d : R6) (x : BitVec 16) (t : Strand) : (setC d x t).lineBuf = t.lineBuf := rfl
@[simp] theorem setC_atIssue (d : R6) (x : BitVec 16) (t : Strand) : (setC d x t).atIssue = t.atIssue := rfl
@[simp] theorem setC_lineOut (d : R6) (x : BitVec 16) (t : Strand) : (setC d x t).lineOut = t.lineOut := rfl
@[simp] theorem setC_ending (d : R6) (x : BitVec 16) (t : Strand) : (setC d x t).ending = t.ending := rfl
@[simp] theorem setC_resumed (d : R6) (x : BitVec 16) (t : Strand) : (setC d x t).resumed = t.resumed := rfl

@[simp] theorem lateFlags_task (now lat : Nat) (f : FpFlags) (t : Strand) : (lateFlags now lat f t).task = t.task := by
  unfold lateFlags; split <;> rfl
@[simp] theorem lateFlags_seg (now lat : Nat) (f : FpFlags) (t : Strand) : (lateFlags now lat f t).seg = t.seg := by
  unfold lateFlags; split <;> rfl
@[simp] theorem lateFlags_cl (now lat : Nat) (f : FpFlags) (t : Strand) : (lateFlags now lat f t).cl = t.cl := by
  unfold lateFlags; split <;> rfl
@[simp] theorem lateFlags_lane (now lat : Nat) (f : FpFlags) (t : Strand) : (lateFlags now lat f t).lane = t.lane := by
  unfold lateFlags; split <;> rfl
@[simp] theorem lateFlags_ctx (now lat : Nat) (f : FpFlags) (t : Strand) : (lateFlags now lat f t).ctx = t.ctx := by
  unfold lateFlags; split <;> rfl
@[simp] theorem lateFlags_g (now lat : Nat) (f : FpFlags) (t : Strand) : (lateFlags now lat f t).g = t.g := by
  unfold lateFlags; split <;> rfl
@[simp] theorem lateFlags_v (now lat : Nat) (f : FpFlags) (t : Strand) : (lateFlags now lat f t).v = t.v := by
  unfold lateFlags; split <;> rfl
@[simp] theorem lateFlags_p (now lat : Nat) (f : FpFlags) (t : Strand) : (lateFlags now lat f t).p = t.p := by
  unfold lateFlags; split <;> rfl
@[simp] theorem lateFlags_m (now lat : Nat) (f : FpFlags) (t : Strand) : (lateFlags now lat f t).m = t.m := by
  unfold lateFlags; split <;> rfl
@[simp] theorem lateFlags_c (now lat : Nat) (f : FpFlags) (t : Strand) : (lateFlags now lat f t).c = t.c := by
  unfold lateFlags; split <;> rfl
@[simp] theorem lateFlags_rm (now lat : Nat) (f : FpFlags) (t : Strand) : (lateFlags now lat f t).rm = t.rm := by
  unfold lateFlags; split <;> rfl
@[simp] theorem lateFlags_pc0 (now lat : Nat) (f : FpFlags) (t : Strand) : (lateFlags now lat f t).pc0 = t.pc0 := by
  unfold lateFlags; split <;> rfl
@[simp] theorem lateFlags_pc1 (now lat : Nat) (f : FpFlags) (t : Strand) : (lateFlags now lat f t).pc1 = t.pc1 := by
  unfold lateFlags; split <;> rfl
@[simp] theorem lateFlags_pc2 (now lat : Nat) (f : FpFlags) (t : Strand) : (lateFlags now lat f t).pc2 = t.pc2 := by
  unfold lateFlags; split <;> rfl
@[simp] theorem lateFlags_ds (now lat : Nat) (f : FpFlags) (t : Strand) : (lateFlags now lat f t).ds = t.ds := by
  unfold lateFlags; split <;> rfl
@[simp] theorem lateFlags_hold (now lat : Nat) (f : FpFlags) (t : Strand) : (lateFlags now lat f t).hold = t.hold := by
  unfold lateFlags; split <;> rfl
@[simp] theorem lateFlags_reach (now lat : Nat) (f : FpFlags) (t : Strand) : (lateFlags now lat f t).reach = t.reach := by
  unfold lateFlags; split <;> rfl
@[simp] theorem lateFlags_divFree (now lat : Nat) (f : FpFlags) (t : Strand) : (lateFlags now lat f t).divFree = t.divFree := by
  unfold lateFlags; split <;> rfl
@[simp] theorem lateFlags_vdivFree (now lat : Nat) (f : FpFlags) (t : Strand) : (lateFlags now lat f t).vdivFree = t.vdivFree := by
  unfold lateFlags; split <;> rfl
@[simp] theorem lateFlags_flags (now lat : Nat) (f : FpFlags) (t : Strand) : (lateFlags now lat f t).flags = t.flags := by
  unfold lateFlags; split <;> rfl
@[simp] theorem lateFlags_lastCh (now lat : Nat) (f : FpFlags) (t : Strand) : (lateFlags now lat f t).lastCh = t.lastCh := by
  unfold lateFlags; split <;> rfl
@[simp] theorem lateFlags_lastSend (now lat : Nat) (f : FpFlags) (t : Strand) : (lateFlags now lat f t).lastSend = t.lastSend := by
  unfold lateFlags; split <;> rfl
@[simp] theorem lateFlags_lastFork (now lat : Nat) (f : FpFlags) (t : Strand) : (lateFlags now lat f t).lastFork = t.lastFork := by
  unfold lateFlags; split <;> rfl
@[simp] theorem lateFlags_idle (now lat : Nat) (f : FpFlags) (t : Strand) : (lateFlags now lat f t).idle = t.idle := by
  unfold lateFlags; split <;> rfl
@[simp] theorem lateFlags_tileF (now lat : Nat) (f : FpFlags) (t : Strand) : (lateFlags now lat f t).tileF = t.tileF := by
  unfold lateFlags; split <;> rfl
@[simp] theorem lateFlags_batchNo (now lat : Nat) (f : FpFlags) (t : Strand) : (lateFlags now lat f t).batchNo = t.batchNo := by
  unfold lateFlags; split <;> rfl
@[simp] theorem lateFlags_commits (now lat : Nat) (f : FpFlags) (t : Strand) : (lateFlags now lat f t).commits = t.commits := by
  unfold lateFlags; split <;> rfl
@[simp] theorem lateFlags_fence (now lat : Nat) (f : FpFlags) (t : Strand) : (lateFlags now lat f t).fence = t.fence := by
  unfold lateFlags; split <;> rfl
@[simp] theorem lateFlags_slot (now lat : Nat) (f : FpFlags) (t : Strand) : (lateFlags now lat f t).slot = t.slot := by
  unfold lateFlags; split <;> rfl
@[simp] theorem lateFlags_issued (now lat : Nat) (f : FpFlags) (t : Strand) : (lateFlags now lat f t).issued = t.issued := by
  unfold lateFlags; split <;> rfl
@[simp] theorem lateFlags_lineBuf (now lat : Nat) (f : FpFlags) (t : Strand) : (lateFlags now lat f t).lineBuf = t.lineBuf := by
  unfold lateFlags; split <;> rfl
@[simp] theorem lateFlags_atIssue (now lat : Nat) (f : FpFlags) (t : Strand) : (lateFlags now lat f t).atIssue = t.atIssue := by
  unfold lateFlags; split <;> rfl
@[simp] theorem lateFlags_lineOut (now lat : Nat) (f : FpFlags) (t : Strand) : (lateFlags now lat f t).lineOut = t.lineOut := by
  unfold lateFlags; split <;> rfl
@[simp] theorem lateFlags_ending (now lat : Nat) (f : FpFlags) (t : Strand) : (lateFlags now lat f t).ending = t.ending := by
  unfold lateFlags; split <;> rfl
@[simp] theorem lateFlags_resumed (now lat : Nat) (f : FpFlags) (t : Strand) : (lateFlags now lat f t).resumed = t.resumed := by
  unfold lateFlags; split <;> rfl

end Sys2Proof.Machine
end

