-- ==== Sys2Proof/Laws/Registers.lean ====
section
/-! SUPPORT. What reading a register gives after each write, hard-wired registers included (R34). -/

namespace Sys2Proof.Machine

/-- g0 reads 0. -/
@[simp] theorem getG_zero (t : Strand) : getG t 0 = 0 := rfl

/-- p7 reads true. -/
@[simp] theorem getP_seven (t : Strand) : getP t 7 = true := rfl

/-- m7 reads all ones. -/
@[simp] theorem getM_seven (t : Strand) : getM t 7 = BitVec.allOnes 64 := rfl

/-- Reading g registers depends on the g file alone. -/
theorem getG_congr {t t' : Strand} (h : t'.g = t.g) (r : R6) : getG t' r = getG t r := by simp [getG, h]

theorem getV_congr {t t' : Strand} (h : t'.v = t.v) (r : R6) : getV t' r = getV t r := by simp [getV, h]

theorem getP_congr {t t' : Strand} (h : t'.p = t.p) (r : BitVec 3) : getP t' r = getP t r := by simp [getP, h]

theorem getM_congr {t t' : Strand} (h : t'.m = t.m) (r : BitVec 3) : getM t' r = getM t r := by simp [getM, h]

theorem getC_congr {t t' : Strand} (h : t'.c = t.c) (r : R6) : getC t' r = getC t r := by simp [getC, h]

/-- Reading g after writing g: the register written, or as before; a write to g0 is discarded. -/
theorem getG_setG (now lat : Nat) (d r : R6) (x : Word) (t : Strand) :
    getG (setG now lat d x t) r = if r = d ∧ d ≠ 0 then x else getG t r := by
  unfold setG
  by_cases hd : d = 0
  · simp [hd]
  · simp only [hd, if_false, ne_eq, not_false_eq_true, and_true, getG, addPend_g]
    by_cases hr : r = d
    · subst hr; simp; intro h; exact absurd h hd
    · have : r.toNat ≠ d.toNat := fun h => hr (BitVec.eq_of_toNat_eq h)
      simp [hr, Vector.getElem_set_ne, Ne.symm this]

theorem getV_setV (now lat : Nat) (d r : R6) (x : BitVec 1024) (t : Strand) :
    getV (setV now lat d x t) r = if r.toNat % 32 = d.toNat % 32 then x else getV t r := by
  simp only [getV, setV, addPend_v]
  by_cases h : r.toNat % 32 = d.toNat % 32
  · simp [h]
  · simp [h, Vector.getElem_set_ne, Ne.symm h]

theorem getM_setM (now lat : Nat) (d r : BitVec 3) (x : Word) (t : Strand) :
    getM (setM now lat d x t) r = if r = d ∧ d ≠ 7 then x else getM t r := by
  by_cases hd : d.toNat < 7
  · have hd7 : d ≠ 7 := fun h => by subst h; simp at hd
    by_cases hr : r = d
    · subst hr; simp [getM, setM, hd]; intro h; exact absurd h hd7
    · have hn : r.toNat ≠ d.toNat := fun h => hr (BitVec.eq_of_toNat_eq h)
      simp [getM, setM, hd, hr, Vector.getElem_set_ne, Ne.symm hn]
  · have hd7 : d = 7 := by
      apply BitVec.eq_of_toNat_eq
      have : d.toNat < 8 := d.isLt
      have h7 : (7 : BitVec 3).toNat = 7 := rfl
      omega
    subst hd7
    simp [setM]

theorem getP_setP (now lat : Nat) (d r : BitVec 3) (x : Bool) (t : Strand) :
    getP (setP now lat d x t) r = if r = d ∧ d ≠ 7 then x else getP t r := by
  have key : ∀ (d r : BitVec 3) (x : Bool) (p : BitVec 7), d ≠ 7 → r ≠ 7 →
      ((p &&& ~~~ (1#7 <<< d.toNat)) ||| ((b2b x).setWidth 7 <<< d.toNat)).getLsbD r.toNat
        = if r = d then x else p.getLsbD r.toNat := by
    intro d r x p hd hr
    have hdn : d.toNat < 7 := by
      rcases Nat.lt_or_ge d.toNat 7 with h | h
      · exact h
      · exact absurd (BitVec.eq_of_toNat_eq (by have := d.isLt; have : (7 : BitVec 3).toNat = 7 := rfl; omega)) hd
    have hrn : r.toNat < 7 := by
      rcases Nat.lt_or_ge r.toNat 7 with h | h
      · exact h
      · exact absurd (BitVec.eq_of_toNat_eq (by have := r.isLt; have : (7 : BitVec 3).toNat = 7 := rfl; omega)) hr
    by_cases h : r = d
    · subst h
      cases x <;> simp [b2b, hrn]
    · have hn : r.toNat ≠ d.toNat := fun e => h (BitVec.eq_of_toNat_eq e)
      simp only [h, if_false, BitVec.getLsbD_or, BitVec.getLsbD_and, BitVec.getLsbD_not, BitVec.getLsbD_shiftLeft,
        BitVec.getLsbD_setWidth, hrn, decide_true, Bool.true_and]
      rcases Nat.lt_or_ge r.toNat d.toNat with hlt | hge
      · simp [hlt]
      · have h1 : r.toNat - d.toNat ≠ 0 := by omega
        have : ∀ y : BitVec 1, y.getLsbD (r.toNat - d.toNat) = false := fun y =>
          BitVec.getLsbD_of_ge _ _ (by omega)
        simp [this]
        intro _; exact .inr h1
  unfold setP
  by_cases hd : d = 7
  · simp [hd]
  · simp only [hd, if_false, ne_eq, not_false_eq_true, and_true, getP, addPend_p]
    by_cases hr : r = 7
    · subst hr
      have : ¬ (7 : BitVec 3) = d := fun h => hd h.symm
      simp
      exact .inl this
    · simp only [hr, if_false]
      exact key d r x t.p hd hr

theorem getC_setC (d r : R6) (x : BitVec 16) (t : Strand) :
    getC (setC d x t) r = if r.toNat % 4 = d.toNat % 4 then x else getC t r := by
  simp only [getC, setC]
  by_cases h : r.toNat % 4 = d.toNat % 4
  · simp [h]
  · simp [h, Vector.getElem_set_ne, Ne.symm h]

/-- A register keeps its value under a write to another file. -/
@[simp] theorem getG_setV (now lat : Nat) (d r : R6) (x : BitVec 1024) (t : Strand) : getG (setV now lat d x t) r = getG t r :=
  getG_congr (by simp) r
@[simp] theorem getG_setP (now lat : Nat) (d : BitVec 3) (r : R6) (x : Bool) (t : Strand) : getG (setP now lat d x t) r = getG t r :=
  getG_congr (by simp) r
@[simp] theorem getG_setM (now lat : Nat) (d : BitVec 3) (r : R6) (x : Word) (t : Strand) : getG (setM now lat d x t) r = getG t r :=
  getG_congr (by simp) r
@[simp] theorem getG_lateFlags (now lat : Nat) (f : FpFlags) (r : R6) (t : Strand) : getG (lateFlags now lat f t) r = getG t r :=
  getG_congr (by simp) r
@[simp] theorem getG_advance (r : R6) (t : Strand) : getG (advance t) r = getG t r := rfl
@[simp] theorem getG_advanceBranch (x : Va) (r : R6) (t : Strand) : getG (advanceBranch x t) r = getG t r := rfl
@[simp] theorem getG_advanceTcw (r : R6) (t : Strand) : getG (advanceTcw t) r = getG t r := rfl
@[simp] theorem getV_advance (r : R6) (t : Strand) : getV (advance t) r = getV t r := rfl
@[simp] theorem getV_lateFlags (now lat : Nat) (f : FpFlags) (r : R6) (t : Strand) : getV (lateFlags now lat f t) r = getV t r :=
  getV_congr (by simp) r
@[simp] theorem getP_advance (r : BitVec 3) (t : Strand) : getP (advance t) r = getP t r := rfl
@[simp] theorem getM_advance (r : BitVec 3) (t : Strand) : getM (advance t) r = getM t r := rfl
@[simp] theorem getM_lateFlags (now lat : Nat) (f : FpFlags) (r : BitVec 3) (t : Strand) : getM (lateFlags now lat f t) r = getM t r :=
  getM_congr (by simp) r
@[simp] theorem getC_advance (r : R6) (t : Strand) : getC (advance t) r = getC t r := rfl

/-! ### FPFLAG (R39, R120) -/

theorem foldl_or_flags (l : List (Nat × FpFlags)) (now : Nat) (a b : FpFlags) :
    l.foldl (fun a e => if e.1 ≤ now then a ||| e.2 else a) (a ||| b)
      = l.foldl (fun a e => if e.1 ≤ now then a ||| e.2 else a) a ||| b := by
  induction l generalizing a with
  | nil => rfl
  | cons e l ih =>
    simp only [List.foldl_cons]
    split
    · rw [BitVec.or_assoc, BitVec.or_comm b, ← BitVec.or_assoc, ih]
    · exact ih a

/-- Flags raised `lat` cycles later reach FPFLAG in that cycle. -/
theorem flagsAt_lateFlags (now lat c : Nat) (f : FpFlags) (t : Strand) :
    flagsAt c (lateFlags now lat f t) = if now + lat ≤ c then flagsAt c t ||| f else flagsAt c t := by
  unfold lateFlags
  split
  · next h => simp [h]
  · simp only [flagsAt, List.foldl_cons]
    split
    · exact foldl_or_flags _ _ _ _
    · rfl

theorem flagsAt_congr {t u : Strand} (hf : u.flags = t.flags) (hl : u.late = t.late) (c : Nat) : flagsAt c u = flagsAt c t := by
  simp [flagsAt, hf, hl]

end Sys2Proof.Machine
end

