-- ==== Sys2Proof/Laws/Memory.lean ====
section
/-! SUPPORT. Tables and memory: read after write, the canonical form kept by every operation on bytes, and little-endian
values. -/

namespace Sys2Proof.Machine

/-! ### Tables -/

@[simp] theorem tabGet_tabSet_same {α : Type} (t : Tab α) (k : Nat) (x : α) : tabGet (tabSet t k x) k = some x := by
  induction t with
  | nil => simp [tabSet, tabGet]
  | cons e l ih =>
    obtain ⟨i, y⟩ := e
    unfold tabSet
    split
    · simp [tabGet]
    · split
      · simp [tabGet]
      · rename_i h1 h2
        simp [tabGet, h1, h2, ih]

theorem tabGet_tabSet_ne {α : Type} (t : Tab α) {k j : Nat} (x : α) (h : j ≠ k) :
    tabGet (tabSet t k x) j = tabGet t j := by
  induction t with
  | nil =>
    simp only [tabSet, tabGet, h, if_false]
    split <;> rfl
  | cons e l ih =>
    obtain ⟨i, y⟩ := e
    unfold tabSet
    split
    · rename_i h1
      simp only [tabGet, h, if_false]
      split
      · rename_i h2
        have : j ≠ i := by omega
        have h3 : j < i := by omega
        simp [this, h3]
      · rfl
    · split
      · rename_i h1 h2
        subst h2
        simp [tabGet, h]
      · simp [tabGet, ih]

theorem tabGet_tabDel_same {α : Type} (t : Tab α) (k : Nat) : tabGet (tabDel t k) k = none := by
  induction t with
  | nil => rfl
  | cons e l ih =>
    obtain ⟨i, y⟩ := e
    unfold tabDel at ih ⊢
    by_cases h : i = k
    · simp [h, ih]
    · have hk : k ≠ i := fun e => h e.symm
      have : (i != k) = true := by simpa using h
      simp only [List.filter_cons, this, if_true, tabGet, hk, if_false, ih]
      split <;> rfl

/-- The current strand after it was put back. -/
@[simp] theorem curStrand_putStrand (s : State) (t : Strand) : curStrand (putStrand s t) = some t := by
  simp [curStrand]

@[simp] theorem getCp_updCp_same (s : State) (c p : Nat) (f : ClPart → ClPart) :
    getCp (updCp s c p f) c p = f (getCp s c p) := by
  simp [getCp]

theorem getCp_updCp_ne (s : State) {c p c' p' : Nat} (f : ClPart → ClPart) (h : cpKey c' p' ≠ cpKey c p) :
    getCp (updCp s c p f) c' p' = getCp s c' p' := by
  simp [getCp, tabGet_tabSet_ne _ _ h]

@[simp] theorem getClu_updClu_same (s : State) (c : Nat) (f : Cluster → Cluster) :
    getClu (updClu s c f) c = f (getClu s c) := by
  simp [getClu]

@[simp] theorem getDie_updDie_same (s : State) (d : Nat) (f : Die → Die) : getDie (updDie s d f) d = f (getDie s d) := by
  simp [getDie]

@[simp] theorem getDp_updDp_same (s : State) (d p : Nat) (f : DiePart → DiePart) :
    getDp (updDp s d p f) d p = f (getDp s d p) := by
  simp [getDp]

@[simp] theorem getCp_putStrand (s : State) (t : Strand) (c p : Nat) : getCp (putStrand s t) c p = getCp s c p := rfl
@[simp] theorem getClu_putStrand (s : State) (t : Strand) (c : Nat) : getClu (putStrand s t) c = getClu s c := rfl
@[simp] theorem getDie_putStrand (s : State) (t : Strand) (d : Nat) : getDie (putStrand s t) d = getDie s d := rfl
@[simp] theorem getDp_putStrand (s : State) (t : Strand) (d p : Nat) : getDp (putStrand s t) d p = getDp s d p := rfl

/-! ### Bytes -/

/-- Below the first listed address every byte reads 0. -/
theorem rdCell_below : ∀ (m : List Host.Cell) (lo a : Nat), memOk m lo = true → a < lo → rdCell m a = 0
  | [], _, _, _, _ => rfl
  | (k, x) :: l, lo, a, h, ha => by
    simp only [memOk, Bool.and_eq_true, decide_eq_true_eq] at h
    have h1 : a ≠ k := by omega
    have h2 : a < k := by omega
    simp [rdCell, h1, h2]

/-- The canonical form from a lower bound. -/
theorem memOk_mono : ∀ (m : List Host.Cell) {lo lo' : Nat}, lo' ≤ lo → memOk m lo = true → memOk m lo' = true
  | [], _, _, _, _ => rfl
  | (k, x) :: l, lo, lo', h, hm => by
    simp only [memOk, Bool.and_eq_true, decide_eq_true_eq] at hm ⊢
    exact ⟨⟨by omega, hm.1.2⟩, hm.2⟩

/-- Writing a byte keeps the canonical form. -/
theorem memOk_wrCell : ∀ (m : List Host.Cell) (lo a : Nat) (x : Byte), memOk m lo = true → lo ≤ a →
    memOk (wrCell m a x) lo = true
  | [], lo, a, x, _, ha => by
    unfold wrCell
    split
    · rfl
    · rename_i h; simp [memOk, ha]; exact h
  | (k, y) :: l, lo, a, x, hm, ha => by
    have hm' := hm
    simp only [memOk, Bool.and_eq_true, decide_eq_true_eq] at hm
    unfold wrCell
    split
    · split
      · exact hm'
      · rename_i h1 h2
        simp only [memOk, Bool.and_eq_true, decide_eq_true_eq]
        exact ⟨⟨ha, by simpa using h2⟩, ⟨by omega, hm.1.2⟩, hm.2⟩
    · split
      · split
        · exact memOk_mono l (by omega) hm.2
        · rename_i h1 h2 h3
          subst h2
          simp only [memOk, Bool.and_eq_true, decide_eq_true_eq]
          exact ⟨⟨ha, by simpa using h3⟩, hm.2⟩
      · rename_i h1 h2
        simp only [memOk, Bool.and_eq_true, decide_eq_true_eq]
        exact ⟨hm.1, memOk_wrCell l (k + 1) a x hm.2 (by omega)⟩

theorem wf_wrCell (m : List Host.Cell) (a : Nat) (x : Byte) (h : Memory.wf m = true) :
    Memory.wf (wrCell m a x) = true := memOk_wrCell m 0 a x h (Nat.zero_le _)

/-- Writing bytes keeps the canonical form: the one way in which memory changes. -/
theorem wf_wrBytes : ∀ (bs : List Byte) (m : List Host.Cell) (a : Nat), Memory.wf m = true →
    Memory.wf (wrBytes m a bs) = true
  | [], _, _, h => h
  | x :: l, m, a, h => wf_wrBytes l (wrCell m a x) (a + 1) (wf_wrCell m a x h)

/-- A byte after a write of one byte, in canonical memory. -/
theorem rdCell_wrCell_ok : ∀ (m : List Host.Cell) (lo a b : Nat) (x : Byte), memOk m lo = true →
    rdCell (wrCell m a x) b = if b = a then x else rdCell m b
  | [], lo, a, b, x, _ => by
    unfold wrCell
    split
    · rename_i h; simp [rdCell, h]
    · simp only [rdCell]; split <;> simp
  | (k, y) :: l, lo, a, b, x, hm => by
    simp only [memOk, Bool.and_eq_true, decide_eq_true_eq] at hm
    have ih := rdCell_wrCell_ok l (k + 1) a b x hm.2
    unfold wrCell
    split
    · rename_i h1
      split
      · rename_i h2
        by_cases hb : b = a
        · have h3 : a ≠ k := by omega
          simp [rdCell, hb, h3, h1, h2]
        · simp [hb]
      · by_cases hb : b = a
        · simp [rdCell, hb]
        · by_cases hlt : b < a
          · have h3 : b ≠ k := by omega
            have h4 : b < k := by omega
            simp [rdCell, hb, hlt, h3, h4]
          · simp [rdCell, hb, hlt]
    · split
      · rename_i h1 h2
        subst h2
        split
        · rename_i h3
          by_cases hb : b = a
          · subst hb
            simp [h3, rdCell_below l (b + 1) b hm.2 (by omega)]
          · by_cases hlt : b < a
            · simp [rdCell, hb, hlt, rdCell_below l (a + 1) b hm.2 (by omega)]
            · simp [rdCell, hb, hlt]
        · by_cases hb : b = a
          · simp [rdCell, hb]
          · simp [rdCell, hb]
      · rename_i h1 h2
        by_cases hb : b = k
        · have : b ≠ a := by omega
          simp only [rdCell, hb, if_true]
          have h3 : k ≠ a := by omega
          simp [h3]
        · simp only [rdCell, hb, if_false, ih]
          by_cases hlt : b < k
          · have : b ≠ a := by omega
            simp [hlt, this]
          · simp [hlt]

/-- Read after write of one byte. -/
theorem rdCell_wrCell (m : List Host.Cell) (a b : Nat) (x : Byte) (h : Memory.wf m = true) :
    rdCell (wrCell m a x) b = if b = a then x else rdCell m b := rdCell_wrCell_ok m 0 a b x h

/-- Read after write: the byte written, or the byte as before. -/
theorem rdCell_wrBytes : ∀ (bs : List Byte) (m : List Host.Cell) (a b : Nat), Memory.wf m = true →
    rdCell (wrBytes m a bs) b = if a ≤ b ∧ b < a + bs.length then bs.getD (b - a) 0 else rdCell m b
  | [], m, a, b, _ => by
    simp [wrBytes]
  | x :: l, m, a, b, h => by
    rw [wrBytes, rdCell_wrBytes l _ (a + 1) b (wf_wrCell m a x h), rdCell_wrCell m a b x h]
    by_cases h1 : a + 1 ≤ b ∧ b < a + 1 + l.length
    · have h2 : a ≤ b ∧ b < a + (x :: l).length := by simp; omega
      rw [if_pos h1, if_pos h2]
      have : b - a = (b - (a + 1)) + 1 := by omega
      simp [this]
    · rw [if_neg h1]
      by_cases hb : b = a
      · subst hb; simp
      · have h2 : ¬ (a ≤ b ∧ b < a + (x :: l).length) := by simp; omega
        rw [if_neg h2, if_neg hb]

/-- Bytes outside a write read as before, whatever the memory. -/
theorem rdCell_wrCell_ne : ∀ (m : List Host.Cell) (a b : Nat) (x : Byte), Memory.wf m = true → b ≠ a →
    rdCell (wrCell m a x) b = rdCell m b := fun m a b x h hb => by simp [rdCell_wrCell m a b x h, hb]

theorem rdBytes_length : ∀ (m : List Host.Cell) (a n : Nat), (rdBytes m a n).length = n
  | _, _, 0 => rfl
  | m, a, n + 1 => by simp [rdBytes, rdBytes_length m (a + 1) n]

/-- Reading the bytes just written. -/
theorem rdBytes_wrBytes : ∀ (bs pre : List Byte) (m : List Host.Cell) (a : Nat), Memory.wf m = true →
    rdBytes (wrBytes m a (pre ++ bs)) (a + pre.length) bs.length = bs
  | [], _, _, _, _ => rfl
  | x :: l, pre, m, a, h => by
    have ih := rdBytes_wrBytes l (pre ++ [x]) m a h
    simp only [List.append_assoc, List.singleton_append, List.length_append, List.length_singleton] at ih
    have : ¬ a + pre.length < a := by omega
    simp only [List.length_cons, rdBytes, ← Nat.add_assoc] at ih ⊢
    rw [ih, rdCell_wrBytes _ m a _ h]
    have h1 : a ≤ a + pre.length ∧ a + pre.length < a + (pre ++ x :: l).length := by simp
    rw [if_pos h1]
    simp [List.getD_eq_getElem?_getD]

/-! ### Little-endian values (R6) -/

theorem toLe_length : ∀ (n x : Nat), (toLe n x).length = n
  | 0, _ => rfl
  | n + 1, x => by simp [toLe, toLe_length n (x / 256)]

theorem leNat_toLe : ∀ (n x : Nat), leNat (toLe n x) = x % 256 ^ n
  | 0, x => by simp [toLe, leNat, Nat.mod_one]
  | n + 1, x => by
    simp only [toLe, leNat, leNat_toLe n (x / 256), BitVec.toNat_ofNat]
    have h : (256 : Nat) ^ (n + 1) = 256 * 256 ^ n := by rw [Nat.pow_succ, Nat.mul_comm]
    rw [h, Nat.mod_mul]

/-- A value read where it was written. -/
theorem rdN_wrN (s : State) (a n x : Nat) (h : Memory.wf s.mem = true) : rdN (wrN s a n x) a n = x % 256 ^ n := by
  have := rdBytes_wrBytes (toLe n x) [] s.mem a h
  simp only [List.nil_append, List.length_nil, Nat.add_zero, toLe_length] at this
  simp [rdN, this, leNat_toLe]

/-! ### The canonical form under the operations of the state -/

theorem inv_wrMem (s : State) (a : Nat) (bs : List Byte) (h : Memory.wf s.mem = true) : Memory.wf (wrMem s a bs).mem = true :=
  wf_wrBytes bs s.mem a h

theorem inv_wrN (s : State) (a n x : Nat) (h : Memory.wf s.mem = true) : Memory.wf (wrN s a n x).mem = true :=
  inv_wrMem s a _ h

theorem inv_wr64 (s : State) (a : Nat) (x : Word) (h : Memory.wf s.mem = true) : Memory.wf (wr64 s a x).mem = true :=
  inv_wrN s a 8 _ h

/-- A property of memory that each step of a fold keeps, the fold keeps. -/
theorem inv_foldl {α : Type} (f : State → α → State)
    (hf : ∀ s x, Memory.wf s.mem = true → Memory.wf (f s x).mem = true) :
    ∀ (l : List α) (s : State), Memory.wf s.mem = true → Memory.wf (l.foldl f s).mem = true
  | [], _, h => h
  | x :: l, s, h => inv_foldl f hf l (f s x) (hf s x h)

end Sys2Proof.Machine
end

