-- ==== Sys2Proof/Laws/Pages.lean ====
section
/-! SUPPORT. What freeing records leaves alone (spec/06 R152, R155). -/

namespace Sys2Proof.Laws

open Sys2Proof.Machine

/-- An operation but for the words of its unit that are still to be written. -/
def noOut (o : Op) : Op := { o with out := [] }

/-- Everything but memory, its error lists, writes under way to what is freed, the clusters' frames and caches and the dies' slots
is as before. -/
def FreesOnly (s s' : State) : Prop :=
  s'.strands = s.strands ∧ s'.parked = s.parked ∧ s'.dies = s.dies ∧ s'.clParts = s.clParts ∧ s'.conts = s.conts
    ∧ s'.ops.map noOut = s.ops.map noOut ∧ s'.agenda = s.agenda ∧ s'.cycle = s.cycle ∧ s'.ev = s.ev ∧ s'.cur = s.cur ∧ s'.parts = s.parts
    ∧ s'.images = s.images ∧ s'.owed = s.owed ∧ s'.dev = s.dev

theorem FreesOnly.refl (s : State) : FreesOnly s s := ⟨rfl, rfl, rfl, rfl, rfl, rfl, rfl, rfl, rfl, rfl, rfl, rfl, rfl, rfl⟩

theorem FreesOnly.trans {s t u : State} (h : FreesOnly s t) (k : FreesOnly t u) : FreesOnly s u := by
  obtain ⟨h1, h2, h3, h4, h5, h6, h7, h8, h9, h10, h11, h12, h13, h14⟩ := h
  obtain ⟨k1, k2, k3, k4, k5, k6, k7, k8, k9, k10, k11, k12, k13, k14⟩ := k
  exact ⟨k1.trans h1, k2.trans h2, k3.trans h3, k4.trans h4, k5.trans h5, k6.trans h6, k7.trans h7, k8.trans h8,
    k9.trans h9, k10.trans h10, k11.trans h11, k12.trans h12, k13.trans h13, k14.trans h14⟩

theorem freesOnly_foldl {α : Type} (l : List α) (f : State → α → State) (h : ∀ s x, FreesOnly s (f s x)) (s : State) :
    FreesOnly s (l.foldl f s) := by
  induction l generalizing s with
  | nil => exact FreesOnly.refl s
  | cons x l ih => exact (h s x).trans (ih _)

/-- `s` after a step that may have failed, in which case nothing is said. -/
def FreesOpt (s : State) (r : Option (Nat × State)) : Prop := ∀ x, r = some x → FreesOnly s x.2

theorem freesOpt_foldl {α : Type} (s : State) (l : List α) (f : Nat × State → α → Option (Nat × State))
    (h : ∀ a x, FreesOpt a.2 (f a x)) :
    ∀ r, FreesOpt s r → FreesOpt s (l.foldl (fun acc k => acc.bind (fun a => f a k)) r) := by
  induction l with
  | nil => exact fun r hr => hr
  | cons k l ih =>
    refine fun r hr => ih _ (fun y hy => ?_)
    cases r with
    | none => cases hy
    | some a => exact (hr a rfl).trans (h a k y hy)

theorem returnStorage_freesOnly (s : State) (p fri : Nat) : FreesOnly s (returnStorage s p fri) := by
  simp only [returnStorage]
  repeat' split
  all_goals
    refine ⟨rfl, rfl, rfl, rfl, rfl, ?_, rfl, rfl, rfl, rfl, rfl, rfl, rfl, rfl⟩
    exact (List.map_map (g := noOut) (l := s.ops)).trans rfl

theorem freed_freesOnly (s : State) (p fri : Nat) : FreesOnly s (invalidate (setRec0 s p fri 0 2 0) p fri) :=
  FreesOnly.refl s

theorem dropPin_freesOnly (s : State) (p fri : Nat) (b : Bool) : FreesOnly s (dropPin s p fri b) := by
  unfold dropPin
  split <;> exact FreesOnly.refl s

/-- Freeing a record and what its node names (R152). -/
theorem freeRec_freesOnly (p fuel : Nat) : ∀ (lvl fri : Nat) (s : State), FreesOpt s (freeRec p fuel lvl fri s) := by
  induction fuel with
  | zero => rintro lvl fri s x ⟨⟩; exact FreesOnly.refl s
  | succ n ih =>
    intro lvl fri s x hx
    simp only [freeRec] at hx
    split at hx
    · cases hx; exact FreesOnly.refl s
    · obtain ⟨y, hy, rfl⟩ := Option.map_eq_some_iff.1 hx
      refine FreesOnly.trans (freesOpt_foldl s _ _ ?_ (some (0, s)) ?_ y hy)
        ((returnStorage_freesOnly _ p fri).trans (freed_freesOnly _ p fri))
      · rintro ⟨m, u⟩ k z hz
        simp only [] at hz
        refine FreesOnly.trans (dropPin_freesOnly u p k.1 k.2) ?_
        split at hz
        · cases hz
        · split at hz
          · obtain ⟨w, hw, rfl⟩ := Option.map_eq_some_iff.1 hz
            exact FreesOnly.trans
              (t := setRef (dropPin u p k.1 k.2) p k.1 (recRef (dropPin u p k.1 k.2) p k.1 - 1)) (FreesOnly.refl _) (ih _ _ _ w hw)
          · cases hz; exact FreesOnly.refl _
      · rintro z ⟨⟩; exact FreesOnly.refl s

theorem freeIdle_freesOnly (s : State) (p fri : Nat) : FreesOnly s (freeIdle s p fri) := by
  unfold freeIdle
  split
  · cases h : freeRec p 5 4 fri s with
    | none => exact FreesOnly.refl s
    | some x => exact freeRec_freesOnly p 5 4 fri s x h
  · exact FreesOnly.refl s

/-- The end of a segment's holds (R152, R155). -/
theorem freeHeld_freesOnly (s : State) (p : Nat) (l : List Xl) : FreesOnly s (freeHeld s p l) := by
  refine freesOnly_foldl _ _ (fun s x => ?_) s
  exact freeIdle_freesOnly s p x.fri

end Sys2Proof.Laws
end

