-- ==== Sys2Proof/Laws/Ops.lean ====
section
/-! SUPPORT. What each shared operation can do, said once: issue under a guard, forms that stay in their strand, taking a
fault, issuing an engine operation. -/

namespace Sys2Proof.Machine

/-! ### Issue (R41, R187) -/

theorem leaseHit_of_ready {s : State} {t : Strand} {i : Instr} {g : Guard} (h : Ready s t i g) : leaseHit s t i = false := by
  simp only [leaseHit, List.any_eq_false]
  intro r hr
  simp [h.2.2.2 r hr]

/-- Everything that issue can do. -/
theorem issue_cases (i : Instr) (g : Guard) (off : Strand → Strand) (on : Strand → State → State) (s : State) :
    (curStrand s = none ∧ issue i g off on s = .fault .noStrand)
    ∨ ∃ t, curStrand s = some t ∧
      ((guardOn g t = false ∧ issue i g off on s = .next (putStrand s (off t)))
      ∨ (guardOn g t = true ∧ leaseHit s t i = true ∧ issue i g off on s = .next (raise i .lease s t 0))
      ∨ (guardOn g t = true ∧ leaseHit s t i = false ∧ issue i g off on s = .next (on t s))) := by
  unfold issue
  cases hc : curStrand s with
  | none => exact .inl ⟨rfl, rfl⟩
  | some t =>
    refine .inr ⟨t, rfl, ?_⟩
    cases hg : guardOn g t <;> cases hl : leaseHit s t i <;> simp [hg, hl]

theorem issue_on {s : State} {t : Strand} {i : Instr} {g : Guard} (off : Strand → Strand) (on : Strand → State → State)
    (h : Ready s t i g) : issue i g off on s = .next (on t s) := by
  simp [issue, h.2.1, h.2.2.1, leaseHit_of_ready h]

theorem issue_off {s : State} {t : Strand} {i : Instr} {g : Guard} (off : Strand → Strand) (on : Strand → State → State)
    (hc : curStrand s = some t) (hg : guardOn g t = false) : issue i g off on s = .next (putStrand s (off t)) := by
  simp [issue, hc, hg]

theorem issue_goes {s : State} {t : Strand} (i : Instr) (g : Guard) (off : Strand → Strand) (on : Strand → State → State)
    (hc : curStrand s = some t) : Goes (issue i g off on s) := by
  rcases issue_cases i g off on s with ⟨h, _⟩ | ⟨u, _, ⟨_, h⟩ | ⟨_, _, h⟩ | ⟨_, _, h⟩⟩
  · simp [hc] at h
  · exact ⟨_, h⟩
  · exact ⟨_, h⟩
  · exact ⟨_, h⟩

theorem issueSup_on {s : State} {t : Strand} {i : Instr} {g : Guard} (on : Strand → State → State)
    (h : Ready s t i g) (hs : isSup t = true) : issueSup i g on s = .next (on t s) := by
  simp [issueSup, h.2.1, h.2.2.1, hs]

theorem issueSup_user {s : State} {t : Strand} (i : Instr) (g : Guard) (on : Strand → State → State)
    (hc : curStrand s = some t) (hs : isSup t = false) : issueSup i g on s = .next (raise i .privilege s t 0) := by
  simp [issueSup, hc, hs]

theorem issueSup_goes {s : State} {t : Strand} (i : Instr) (g : Guard) (on : Strand → State → State)
    (hc : curStrand s = some t) : Goes (issueSup i g on s) := by
  unfold issueSup Goes
  simp only [hc]
  split
  · exact ⟨_, rfl⟩
  · split <;> exact ⟨_, rfl⟩

theorem laneOp_on {s : State} {t : Strand} {i : Instr} {g : Guard} (off on : Strand → Strand) (h : Ready s t i g) :
    laneOp i g off on s = .next (putStrand s (on t)) := issue_on _ _ h

theorem aluOp_on {s : State} {t : Strand} {i : Instr} {g : Guard} (lat : Nat) (d : R6) (x : Strand → Word)
    (h : Ready s t i g) : aluOp i g lat d x s = .next (putStrand s (advance (setG s.cycle lat d (x t) t))) := laneOp_on _ _ h

theorem movedOn_advance {t u : Strand} (h0 : u.pc1 = t.pc1) (h1 : u.pc2 = t.pc2) (h2 : u.ds = t.ds) :
    MovedOn t (advance u) := by
  simp [MovedOn, h0, h1, h2]

/-- A form that is an aluOp completes with its value in g[d] and changes nothing else. -/
theorem writesG_of_aluOp {i : Instr} {g : Guard} {lat : Nat} {d : R6} {x : State → Strand → Word}
    (h : ∀ s, exec i s = aluOp i g lat d (x s) s) : WritesG i g d x := by
  intro s t hr
  refine ⟨advance (setG s.cycle lat d (x s t) t), ⟨by rw [h, aluOp_on lat d _ hr], fun a => rfl⟩, ?_, ?_, ?_, ?_, ?_, ?_, ?_⟩
  · intro r; simp [getG_setG]
  · exact ⟨by simp, by simp⟩
  · simp [SameP]
  · simp [SameC]
  · exact ⟨by simp, by simp⟩
  · simp [SamePlace]
  · exact movedOn_advance (by simp) (by simp) (by simp)

/-- A form that stays in its strand completes with the strand it computes. -/
theorem completes_of_laneOp {i : Instr} {g : Guard} {off on : Strand → Strand} {s : State} {t : Strand}
    (h : exec i s = laneOp i g off on s) (hr : Ready s t i g) : Completes i s (on t) :=
  ⟨by rw [h, laneOp_on off on hr], fun _ => rfl⟩

theorem writesP_of_laneOp {i : Instr} {g : Guard} {d : BitVec 3} {x : Strand → Bool}
    (h : ∀ s, exec i s = laneOp i g advance (fun t => advance (setP s.cycle 1 d (x t) t)) s) : WritesP i g d x := by
  intro s t hr
  refine ⟨_, completes_of_laneOp (h s) hr, ?_, ?_, ?_, ?_, ?_, ?_, ?_⟩
  · intro r; simp [getP_setP]
  · exact ⟨by simp, by simp⟩
  · intro r; simp
  · simp [SameC]
  · exact ⟨by simp, by simp⟩
  · simp [SamePlace]
  · exact movedOn_advance (by simp) (by simp) (by simp)

theorem writesM_of_laneOp {i : Instr} {g : Guard} {d : BitVec 3} {x : Strand → Word}
    (h : ∀ s, exec i s = laneOp i g advance (fun t => advance (setM s.cycle 1 d (x t) t)) s) : WritesM i g d x := by
  intro s t hr
  refine ⟨_, completes_of_laneOp (h s) hr, ?_, ?_, ?_, ?_, ?_, ?_, ?_, ?_⟩
  · intro r; simp [getM_setM]
  · simp
  · intro r; simp
  · simp [SameP]
  · simp [SameC]
  · exact ⟨by simp, by simp⟩
  · simp [SamePlace]
  · exact movedOn_advance (by simp) (by simp) (by simp)

theorem flagsLand_of_lateFlags {t u : Strand} {now lat : Nat} {f : FpFlags} (hf : u.flags = t.flags) (hl : u.late = t.late)
    (hr : u.rm = t.rm) : FlagsLand (now + lat) f t (advance (lateFlags now lat f u)) := by
  refine ⟨by simp [hf], by simp [hr], fun c => ?_⟩
  rw [flagsAt_congr (t := lateFlags now lat f u) (by simp) (by simp), flagsAt_lateFlags, flagsAt_congr hf hl]

theorem writesGF_of_laneOp {i : Instr} {g : Guard} {d : R6} {lat : Nat} {x : State → Strand → Word}
    {f : State → Strand → FpFlags}
    (h : ∀ s, exec i s = laneOp i g advance (fun t => advance (lateFlags s.cycle lat (f s t) (setG s.cycle lat d (x s t) t))) s) :
    WritesGF i g lat d x f := by
  intro s t hr
  refine ⟨_, completes_of_laneOp (h s) hr, ?_, flagsLand_of_lateFlags (by simp) (by simp) (by simp), ?_, ?_, ?_, ?_, ?_⟩
  · intro r; simp [getG_setG]
  · exact ⟨by simp, by simp⟩
  · simp [SameP]
  · simp [SameC]
  · simp [SameSpot]
  · exact movedOn_advance (by simp) (by simp) (by simp)

theorem writesV_of_laneOp {i : Instr} {g : Guard} {d : R6} {lat : Nat} {x : State → Strand → BitVec 1024}
    {f : State → Strand → FpFlags}
    (h : ∀ s, exec i s = laneOp i g advance (fun t => advance (lateFlags s.cycle lat (f s t) (setV s.cycle lat d (x s t) t))) s) :
    WritesV i g lat d x f := by
  intro s t hr
  refine ⟨_, completes_of_laneOp (h s) hr, ?_, flagsLand_of_lateFlags (by simp) (by simp) (by simp), ?_, ?_, ?_, ?_, ?_, ?_⟩
  · intro r; simp [getV_setV]
  · intro r; simp
  · simp
  · simp [SameP]
  · simp [SameC]
  · simp [SameSpot]
  · exact movedOn_advance (by simp) (by simp) (by simp)

/-- A form whose active elements take `f`. -/
theorem vectorResult_of_vecOp {i : Instr} {g : Guard} {lat w : Nat} {d : R6} {k : BitVec 3} {z : Bool}
    {f : Strand → Nat → Nat × FpFlags} (h : ∀ s, exec i s = vecOp i g lat w d k z f s) : VectorResult i g lat w d k z f :=
  writesV_of_laneOp h

theorem branchesTo_of_branchOp {i : Instr} {g : Guard} {d : R6} {x : Strand → Word} {target : Strand → Va}
    (h : ∀ s, exec i s = branchOp i g (fun t => advanceBranch (target t) (setG s.cycle 1 d (x t) t)) s) :
    BranchesTo i g d x target := by
  intro s t hr
  refine ⟨_, completes_of_laneOp (h s) hr, ?_, ?_, ?_, ?_, ?_, ?_, ?_⟩
  · intro r; simp [getG_setG]
  · simp [Branched]
  · exact ⟨by simp, by simp⟩
  · simp [SameP]
  · simp [SameC]
  · exact ⟨by simp, by simp⟩
  · simp [SamePlace]

/-! ### Faults (R402) -/

@[simp] theorem putCp_dies' (s : State) (c p : Nat) (f : ClPart → ClPart) (d : Nat) : getDie (updCp s c p f) d = getDie s d := rfl
@[simp] theorem putDp_dies' (s : State) (c p : Nat) (f : DiePart → DiePart) (d : Nat) : getDie (updDp s c p f) d = getDie s d := rfl
@[simp] theorem wrMem_dies' (s : State) (a : Nat) (bs : List Byte) (d : Nat) : getDie (wrMem s a bs) d = getDie s d := rfl

@[simp] theorem whiskOnCause_strands (s : State) (cl p c : Nat) : (whiskOnCause s cl p c).strands = s.strands := by
  unfold whiskOnCause; simp only []; split <;> rfl
@[simp] theorem whiskOnCause_parked (s : State) (cl p c : Nat) : (whiskOnCause s cl p c).parked = s.parked := by
  unfold whiskOnCause; simp only []; split <;> rfl
@[simp] theorem whiskOnCause_dies (s : State) (cl p c : Nat) : (whiskOnCause s cl p c).dies = s.dies := by
  unfold whiskOnCause; simp only []; split <;> rfl
@[simp] theorem whiskOnCause_mem (s : State) (cl p c : Nat) : (whiskOnCause s cl p c).mem = s.mem := by
  unfold whiskOnCause; simp only []; split <;> rfl

@[simp] theorem closeBatch_task (s : State) (t : Strand) (n : Nat) : (closeBatch s t n).1.task = t.task := rfl
@[simp] theorem closeBatch_seg (s : State) (t : Strand) (n : Nat) : (closeBatch s t n).1.seg = t.seg := rfl
@[simp] theorem closeBatch_cl (s : State) (t : Strand) (n : Nat) : (closeBatch s t n).1.cl = t.cl := rfl
@[simp] theorem closeBatch_lane (s : State) (t : Strand) (n : Nat) : (closeBatch s t n).1.lane = t.lane := rfl
@[simp] theorem closeBatch_ctx (s : State) (t : Strand) (n : Nat) : (closeBatch s t n).1.ctx = t.ctx := rfl
@[simp] theorem closeBatch_g (s : State) (t : Strand) (n : Nat) : (closeBatch s t n).1.g = t.g := rfl
@[simp] theorem closeBatch_v (s : State) (t : Strand) (n : Nat) : (closeBatch s t n).1.v = t.v := rfl
@[simp] theorem closeBatch_p (s : State) (t : Strand) (n : Nat) : (closeBatch s t n).1.p = t.p := rfl
@[simp] theorem closeBatch_m (s : State) (t : Strand) (n : Nat) : (closeBatch s t n).1.m = t.m := rfl
@[simp] theorem closeBatch_c (s : State) (t : Strand) (n : Nat) : (closeBatch s t n).1.c = t.c := rfl
@[simp] theorem closeBatch_rm (s : State) (t : Strand) (n : Nat) : (closeBatch s t n).1.rm = t.rm := rfl
@[simp] theorem closeBatch_flags (s : State) (t : Strand) (n : Nat) : (closeBatch s t n).1.flags = t.flags := rfl
@[simp] theorem closeBatch_pc0 (s : State) (t : Strand) (n : Nat) : (closeBatch s t n).1.pc0 = t.pc0 := rfl
@[simp] theorem closeBatch_pc1 (s : State) (t : Strand) (n : Nat) : (closeBatch s t n).1.pc1 = t.pc1 := rfl
@[simp] theorem closeBatch_pc2 (s : State) (t : Strand) (n : Nat) : (closeBatch s t n).1.pc2 = t.pc2 := rfl
@[simp] theorem closeBatch_late (s : State) (t : Strand) (n : Nat) : (closeBatch s t n).1.late = t.late := rfl
@[simp] theorem closeBatch_ds (s : State) (t : Strand) (n : Nat) : (closeBatch s t n).1.ds = t.ds := rfl
@[simp] theorem closeBatch_st_cycle (s : State) (t : Strand) (n : Nat) : (closeBatch s t n).2.cycle = s.cycle := rfl
@[simp] theorem closeBatch_st_strands (s : State) (t : Strand) (n : Nat) : (closeBatch s t n).2.strands = s.strands := rfl
@[simp] theorem closeBatch_st_parked (s : State) (t : Strand) (n : Nat) : (closeBatch s t n).2.parked = s.parked := rfl
@[simp] theorem closeBatch_st_images (s : State) (t : Strand) (n : Nat) : (closeBatch s t n).2.images = s.images := rfl
@[simp] theorem closeBatch_st_conts (s : State) (t : Strand) (n : Nat) : (closeBatch s t n).2.conts = s.conts := rfl
@[simp] theorem closeBatch_st_ops (s : State) (t : Strand) (n : Nat) : (closeBatch s t n).2.ops = s.ops := rfl
@[simp] theorem closeBatch_st_dies (s : State) (t : Strand) (n : Nat) : (closeBatch s t n).2.dies = s.dies := rfl
@[simp] theorem closeBatch_st_dieParts (s : State) (t : Strand) (n : Nat) : (closeBatch s t n).2.dieParts = s.dieParts := rfl
@[simp] theorem closeBatch_st_clusters (s : State) (t : Strand) (n : Nat) : (closeBatch s t n).2.clusters = s.clusters := rfl
@[simp] theorem closeBatch_st_parts (s : State) (t : Strand) (n : Nat) : (closeBatch s t n).2.parts = s.parts := rfl
@[simp] theorem closeBatch_st_mem (s : State) (t : Strand) (n : Nat) : (closeBatch s t n).2.mem = s.mem := rfl
@[simp] theorem closeBatch_st_agenda (s : State) (t : Strand) (n : Nat) : (closeBatch s t n).2.agenda = s.agenda := rfl
@[simp] theorem closeBatch_st_cur (s : State) (t : Strand) (n : Nat) : (closeBatch s t n).2.cur = s.cur := rfl
@[simp] theorem closeBatch_st_nextId (s : State) (t : Strand) (n : Nat) : (closeBatch s t n).2.nextId = s.nextId := rfl
@[simp] theorem closeBatch_st_dev (s : State) (t : Strand) (n : Nat) : (closeBatch s t n).2.dev = s.dev := rfl
@[simp] theorem saveImage_cycle (s : State) (t : Strand) (n : Nat) (sw : Bool) : (saveImage s t n sw).2.cycle = s.cycle := by
  simp only [saveImage, updDp_cycle, wrMem_cycle]
@[simp] theorem saveImage_strands (s : State) (t : Strand) (n : Nat) (sw : Bool) : (saveImage s t n sw).2.strands = s.strands := by
  simp only [saveImage, updDp_strands, wrMem_strands]
@[simp] theorem saveImage_parked (s : State) (t : Strand) (n : Nat) (sw : Bool) : (saveImage s t n sw).2.parked = s.parked := by
  simp only [saveImage, updDp_parked, wrMem_parked]
@[simp] theorem saveImage_conts (s : State) (t : Strand) (n : Nat) (sw : Bool) : (saveImage s t n sw).2.conts = s.conts := by
  simp only [saveImage, updDp_conts, wrMem_conts]
@[simp] theorem saveImage_ops (s : State) (t : Strand) (n : Nat) (sw : Bool) : (saveImage s t n sw).2.ops = s.ops := by
  simp only [saveImage, updDp_ops, wrMem_ops]
@[simp] theorem saveImage_dies (s : State) (t : Strand) (n : Nat) (sw : Bool) : (saveImage s t n sw).2.dies = s.dies := by
  simp only [saveImage, updDp_dies, wrMem_dies]
@[simp] theorem saveImage_clusters (s : State) (t : Strand) (n : Nat) (sw : Bool) : (saveImage s t n sw).2.clusters = s.clusters := by
  simp only [saveImage, updDp_clusters, wrMem_clusters]
@[simp] theorem saveImage_clParts (s : State) (t : Strand) (n : Nat) (sw : Bool) : (saveImage s t n sw).2.clParts = s.clParts := by
  simp only [saveImage, updDp_clParts, wrMem_clParts]
@[simp] theorem saveImage_parts (s : State) (t : Strand) (n : Nat) (sw : Bool) : (saveImage s t n sw).2.parts = s.parts := by
  simp only [saveImage, updDp_parts, wrMem_parts]
@[simp] theorem saveImage_agenda (s : State) (t : Strand) (n : Nat) (sw : Bool) : (saveImage s t n sw).2.agenda = s.agenda := by
  simp only [saveImage, updDp_agenda, wrMem_agenda]
@[simp] theorem saveImage_cur (s : State) (t : Strand) (n : Nat) (sw : Bool) : (saveImage s t n sw).2.cur = s.cur := by
  simp only [saveImage, updDp_cur, wrMem_cur]
@[simp] theorem saveImage_nextId (s : State) (t : Strand) (n : Nat) (sw : Bool) : (saveImage s t n sw).2.nextId = s.nextId := by
  simp only [saveImage, updDp_nextId, wrMem_nextId]
@[simp] theorem saveImage_dev (s : State) (t : Strand) (n : Nat) (sw : Bool) : (saveImage s t n sw).2.dev = s.dev := by
  simp only [saveImage, updDp_dev, wrMem_dev]

/-- The strand that parks keeps its registers and its triple. -/
theorem park_parked (s : State) (t : Strand) (n : Nat) (ovr sw : Bool) :
    ∃ u, (park s t n ovr sw).2.parked = s.parked ++ [u] ∧ Keeps t u ∧ u.flags = flagsDone t ∧ u.ending = none := by
  simp only [park]
  refine ⟨?u, ?h, ?r⟩
  case h => simp only [updCp_parked, saveImage_parked]; exact rfl
  case r => simp [Keeps]

@[simp] theorem park_dies (s : State) (t : Strand) (n : Nat) (ovr sw : Bool) : (park s t n ovr sw).2.dies = s.dies := by
  simp [park]

@[simp] theorem park_strands (s : State) (t : Strand) (n : Nat) (ovr sw : Bool) : (park s t n ovr sw).2.strands = s.strands := by
  simp [park]

/-- What an OVERRUN frees leaves strands and dies as they were. -/
theorem freeIf_keeps (b : Prop) [Decidable b] (s : State) (p : Nat) (l : List Xl) :
    (if b then freeHeld s p l else s).strands = s.strands ∧ (if b then freeHeld s p l else s).parked = s.parked
      ∧ (if b then freeHeld s p l else s).dies = s.dies := by
  split
  · obtain ⟨h1, h2, h3, _⟩ := Laws.freeHeld_freesOnly s p l
    exact ⟨h1, h2, h3⟩
  · exact ⟨rfl, rfl, rfl⟩

@[simp] theorem faultNow_strands (s : State) (t : Strand) (n : Nat) (f : FaultInfo) :
    (faultNow s t n f).strands = s.strands := by
  simp [faultNow, queueEvent, (freeIf_keeps _ _ _ _).1]

/-- A strand whose register writes are complete parks, and one event at its die names it (R402, R405). -/
theorem faultNow_parks (s : State) (t : Strand) (n : Nat) (f : FaultInfo) :
    ParkedFor s (faultNow s t n f) t (causeCode f.cause) := by
  obtain ⟨u, hu, h⟩ := park_parked s t n (decide (f.cause = .overrun)) false
  refine ⟨⟨u, ?_, h⟩, ?_⟩
  · simp [faultNow, queueEvent, (freeIf_keeps _ _ _ _).2.1, hu]
  · simp only [Reported, faultNow, getDie, whiskOnCause_dies, queueEvent, updDie_dies, tabGet_tabSet_same, Option.getD_some,
      (freeIf_keeps _ _ _ _).2.2, park_dies, List.append_cancel_left_eq, List.cons.injEq, and_true]
    exact ⟨_, rfl, rfl, rfl, rfl, rfl, rfl, rfl⟩

/-- Taking a fault stops the strand and names it in one event at its die, at once or when its writes are complete (R402). -/
theorem faulted_takeFaultAt (s : State) (t : Strand) (n : Nat) (f : FaultInfo) :
    Faulted s (takeFaultAt s t n f) t (causeCode f.cause) := by
  have hs : settled (closeBatch s t s.cycle).2 (closeBatch s t s.cycle).1 = settled s t := rfl
  unfold takeFaultAt
  simp only [hs]
  refine ⟨?_, fun h => ?_, fun h => ?_⟩
  · split
    · rw [faultNow_strands]; exact tabGet_tabDel_same _ _
    · exact tabGet_tabDel_same _ _
  · rw [if_pos h]
    obtain ⟨⟨u, hu, hk, hf, he⟩, e, h⟩ :=
      faultNow_parks { (closeBatch s t s.cycle).2 with strands := tabDel s.strands (laneKey (closeBatch s t s.cycle).1) } (closeBatch s t s.cycle).1 n f
    refine ⟨⟨u, hu, by simpa [Keeps] using hk, by simpa [flagsDone] using hf, he⟩, e, ?_⟩
    simpa [getDie] using h
  · rw [if_neg (by simp [h])]
    exact ⟨_, List.mem_append_right _ (List.mem_singleton.2 rfl), ⟨rfl, rfl, rfl, rfl, rfl, rfl, rfl, rfl, rfl, rfl⟩, rfl, rfl,
      rfl, n, f, rfl, rfl⟩

theorem faulted_takeFault (s : State) (t : Strand) (f : FaultInfo) : Faulted s (takeFault s t f) t (causeCode f.cause) :=
  faulted_takeFaultAt s t _ f

theorem faulted_raise (i : Instr) (c : Cause) (s : State) (t : Strand) (va : Word) :
    Faulted s (raise i c s t va) t (causeCode c) := faulted_takeFault s t _

/-! ### Engine operations (R185) -/

theorem getC_ofNat (t : Strand) (c : R6) : getC t (BitVec.ofNat 6 (c.toNat % 4)) = getC t c := by
  simp [getC]

/-- Issuing an operation: the counter rises and the operation stands behind the others. -/
theorem issueOp_cur (s : State) (t : Strand) (o : Op) :
    tabGet (issueOp s t o).strands s.cur = some (advance (match o.ctr with
      | some k => setC (BitVec.ofNat 6 k) (getC t (BitVec.ofNat 6 k) + 1) t
      | none => t)) := tabGet_tabSet_same _ _ _

@[simp] theorem issueOp_ops (s : State) (t : Strand) (o : Op) : (issueOp s t o).ops = s.ops ++ [o] := rfl
@[simp] theorem issueOp_nextId (s : State) (t : Strand) (o : Op) : (issueOp s t o).nextId = s.nextId + 1 := rfl
@[simp] theorem issueOp_mem (s : State) (t : Strand) (o : Op) : (issueOp s t o).mem = s.mem := rfl

/-- What a form that issues an operation of `t` leaves. -/
theorem issues_of_issueOp {i : Instr} {s : State} {t : Strand} {s0 : State} {t0 : Strand} {o : Op} {k : OpKind}
    {c : Option R6} {dst : Option RegRef} {p : Op → Prop} (hx : exec i s = .next (issueOp s0 t0 o))
    (hcur : s0.cur = s.cur) (hops : s0.ops = s.ops) (hid : s0.nextId = s.nextId) (ho : o.id = s.nextId)
    (h1 : o.kind = k) (h2 : o.task = t.task.id) (h3 : o.pid = t.task.pid) (h4 : o.cl = t.cl) (h5 : o.dst = dst)
    (h6 : o.ctr = c.map (fun r => r.toNat % 4)) (hP : p o)
    (hg : t0.g = t.g) (hv : t0.v = t.v) (hm : t0.m = t.m) (hp : t0.p = t.p) (hc : t0.c = t.c) (hr : t0.rm = t.rm)
    (hf : t0.flags = t.flags) (hpl : SamePlace t t0)
    (hp1 : t0.pc1 = t.pc1) (hp2 : t0.pc2 = t.pc2) (hd : t0.ds = t.ds) : Issues i s t k c dst p := by
  obtain ⟨q1, q2, q3, q4, q5, q6⟩ := hpl
  refine ⟨_, _, o, ⟨hx, by rw [← hcur]; exact issueOp_cur s0 t0 o⟩, by simp [hops], ho, by simp [hid], h1, h2, h3, h4, h5, h6,
    hP, ?_, ?_, ?_, ?_, ?_, ?_, ?_⟩
  · intro r
    cases c with
    | none => simp [h6, getC, hc]
    | some x =>
      simp only [h6, Option.map_some, getC_advance, getC_setC, Option.some.injEq]
      by_cases hrx : r.toNat % 4 = x.toNat % 4
      · have h7 : getC t0 (BitVec.ofNat 6 (x.toNat % 4)) = getC t r := by simp [getC, hc, hrx]
        have h8 : r.toNat % 4 = (BitVec.ofNat 6 (x.toNat % 4)).toNat % 4 := by simp [hrx]
        rw [if_pos h8, if_pos hrx.symm, h7]
      · have h8 : ¬ r.toNat % 4 = (BitVec.ofNat 6 (x.toNat % 4)).toNat % 4 := by
          simp only [BitVec.toNat_ofNat]; omega
        have h9 : ¬ x.toNat % 4 = r.toNat % 4 := fun e => hrx e.symm
        rw [if_neg h8, if_neg h9]
        simp [getC, hc]
  · intro r
    rw [getG_advance]
    apply getG_congr
    split <;> simp [hg]
  · constructor <;> (simp only [advance_v, advance_m]; split <;> simp [hv, hm])
  · simp only [SameP, advance_p]; split <;> simp [hp]
  · constructor <;> (simp only [advance_rm, advance_flags]; split <;> simp [hr, hf])
  · refine ⟨?_, ?_, ?_, ?_, ?_, ?_⟩ <;>
      (simp only [advance_task, advance_seg, advance_cl, advance_lane, advance_ctx, advance_late]
       split <;> simp [q1, q2, q3, q4, q5, q6])
  · apply movedOn_advance <;> (split <;> simp [hp1, hp2, hd])

/-- A form whose only check is COUNTER issues its operation. -/
theorem engineOp_on {s : State} {t : Strand} {i : Instr} {g : Guard} {c : R6} (mk : Strand → State → Op)
    (h : Ready s t i g) (hc : CtrFree t c) : engineOp i g c mk s = .next (issueOp s t (mk t s)) := by
  rw [engineOp, issue_on _ _ h]
  simp only [CtrFree] at hc
  simp [hc]

theorem issues_of_engineOp {i : Instr} {g : Guard} {c : R6} {k : OpKind} {dst : Option RegRef} {sc : Nat}
    {args : Strand → State → List Word} {s : State} {t : Strand} {p : Op → Prop}
    (hx : exec i s = engineOp i g c (fun t s => mkOp s t k (some c) dst sc (args t s)) s)
    (h : Ready s t i g) (hc : CtrFree t c) (hp : p (mkOp s t k (some c) dst sc (args t s))) :
    Issues i s t k (some c) dst p := by
  apply issues_of_issueOp (s0 := s) (t0 := t) (o := mkOp s t k (some c) dst sc (args t s)) <;>
    first | rfl | exact hp | rw [hx, engineOp_on _ h hc] | exact ⟨rfl, rfl, rfl, rfl, rfl, rfl⟩

end Sys2Proof.Machine
end

