-- ==== Sys2Proof/Laws/LaneMem.lean ====
section
/-! SUPPORT. What the operations of the page-store forms leave: corrected errors, full-empty bits, writes performed by a release,
and a scalar access that passes or fails its checks. -/

namespace Sys2Proof.Machine

@[simp] theorem correctSoft_mem (s : State) (a n : Nat) : (correctSoft s a n).mem = s.mem := by
  unfold correctSoft; simp only []; split <;> rfl
@[simp] theorem correctSoft_fe (s : State) (a n : Nat) : (correctSoft s a n).fe = s.fe := by
  unfold correctSoft; simp only []; split <;> rfl
@[simp] theorem correctSoft_cur (s : State) (a n : Nat) : (correctSoft s a n).cur = s.cur := by
  unfold correctSoft; simp only []; split <;> rfl
@[simp] theorem correctSoft_strands (s : State) (a n : Nat) : (correctSoft s a n).strands = s.strands := by
  unfold correctSoft; simp only []; split <;> rfl
@[simp] theorem correctSoft_ops (s : State) (a n : Nat) : (correctSoft s a n).ops = s.ops := by
  unfold correctSoft; simp only []; split <;> rfl
@[simp] theorem correctSoft_nextId (s : State) (a n : Nat) : (correctSoft s a n).nextId = s.nextId := by
  unfold correctSoft; simp only []; split <;> rfl
@[simp] theorem correctSoft_clParts (s : State) (a n : Nat) : (correctSoft s a n).clParts = s.clParts := by
  unfold correctSoft; simp only []; split <;> rfl
@[simp] theorem correctSoft_cycle (s : State) (a n : Nat) : (correctSoft s a n).cycle = s.cycle := by
  unfold correctSoft; simp only []; split <;> rfl

@[simp] theorem feFill_mem (s : State) (a : Nat) : (feFill s a).mem = s.mem := rfl
@[simp] theorem feFill_cur (s : State) (a : Nat) : (feFill s a).cur = s.cur := rfl
@[simp] theorem feFill_strands (s : State) (a : Nat) : (feFill s a).strands = s.strands := rfl
@[simp] theorem feFill_ops (s : State) (a : Nat) : (feFill s a).ops = s.ops := rfl
@[simp] theorem feFill_nextId (s : State) (a : Nat) : (feFill s a).nextId = s.nextId := rfl
@[simp] theorem feFill_clParts (s : State) (a : Nat) : (feFill s a).clParts = s.clParts := rfl
@[simp] theorem feFill_cycle (s : State) (a : Nat) : (feFill s a).cycle = s.cycle := rfl

/-- The fields that performing writes never changes. -/
def SameFrame (s s' : State) : Prop :=
  s'.cur = s.cur ∧ s'.cycle = s.cycle ∧ s'.strands = s.strands ∧ s'.parked = s.parked ∧ s'.ops = s.ops
    ∧ s'.nextId = s.nextId ∧ s'.clParts = s.clParts ∧ s'.clusters = s.clusters ∧ s'.parts = s.parts

theorem SameFrame.refl (s : State) : SameFrame s s := ⟨rfl, rfl, rfl, rfl, rfl, rfl, rfl, rfl, rfl⟩

theorem SameFrame.trans {a b c : State} (h : SameFrame a b) (k : SameFrame b c) : SameFrame a c := by
  obtain ⟨h1, h2, h3, h4, h5, h6, h7, h8, h9⟩ := h
  obtain ⟨k1, k2, k3, k4, k5, k6, k7, k8, k9⟩ := k
  exact ⟨k1.trans h1, k2.trans h2, k3.trans h3, k4.trans h4, k5.trans h5, k6.trans h6, k7.trans h7, k8.trans h8, k9.trans h9⟩

theorem sameFrame_foldl {α : Type} (f : State → α → State) (hf : ∀ s x, SameFrame s (f s x)) :
    ∀ (l : List α) (s : State), SameFrame s (l.foldl f s)
  | [], s => .refl s
  | x :: l, s => (hf s x).trans (sameFrame_foldl f hf l (f s x))

theorem sameFrame_feFill (s : State) (a : Nat) : SameFrame s (feFill s a) := ⟨rfl, rfl, rfl, rfl, rfl, rfl, rfl, rfl, rfl⟩

theorem sameFrame_perform (s : State) (a : Nat) (bs : List Byte) (full : Bool) : SameFrame s (perform s a bs full) := by
  unfold perform
  simp only []
  split
  · exact SameFrame.trans ⟨rfl, rfl, rfl, rfl, rfl, rfl, rfl, rfl, rfl⟩
      (sameFrame_foldl _ (fun s i => sameFrame_feFill s _) _
        { wrMem s a bs with written := (banksOf a bs.length).foldl setAdd s.written })
  · exact ⟨rfl, rfl, rfl, rfl, rfl, rfl, rfl, rfl, rfl⟩

theorem sameFrame_drainMarked : ∀ (l : List (EgWrite × Bool)) (kept : List EgWrite) (s : State),
    SameFrame s (drainMarked l kept s)
  | [], _, _ => ⟨rfl, rfl, rfl, rfl, rfl, rfl, rfl, rfl, rfl⟩
  | (e, m) :: l, kept, s => by
    unfold drainMarked
    split
    · exact (sameFrame_perform s e.addr e.bytes e.full).trans (sameFrame_drainMarked l kept _)
    · exact sameFrame_drainMarked l _ s

theorem sameFrame_drainOut (s : State) (want : EgWrite → Bool) : SameFrame s (drainOut s want) := sameFrame_drainMarked ..

theorem sameFrame_applyRepl (s : State) (w : ReplWrite) (c : Nat) : SameFrame s (applyRepl s w c) := by
  unfold applyRepl
  split
  · exact sameFrame_perform ..
  · exact .refl s

theorem sameFrame_settleRepl (s : State) (want : Nat → Nat → Bool) : SameFrame s (settleRepl s want) := by
  refine SameFrame.trans (sameFrame_foldl _ (fun s w => sameFrame_foldl _ (fun s c => sameFrame_applyRepl s w c)
    (w.left.filter (want w.pid)) s) (s.repl.filter (fun w => w.seqd && w.left.any (want w.pid))) s) ?_
  exact ⟨rfl, rfl, rfl, rfl, rfl, rfl, rfl, rfl, rfl⟩

theorem sameFrame_relDrain (s : State) (d : Nat) : SameFrame s (relDrain s d) :=
  (sameFrame_drainOut ..).trans (sameFrame_settleRepl ..)

/-- A release leaves the strands, operations and tables alone. -/
theorem sameFrame_relIf (rel : Bool) (t : Strand) (s : State) : SameFrame s (relIf rel t s) := by
  unfold relIf
  split
  · exact sameFrame_relDrain ..
  · exact .refl s

/-- Performing a write keeps the form of memory. -/
theorem inv_perform (s : State) (a : Nat) (bs : List Byte) (full : Bool) (h : Memory.wf s.mem = true) :
    Memory.wf (perform s a bs full).mem = true := by
  unfold perform
  simp only []
  split
  · exact inv_foldl (fun s i => feFill s (wordOf a + 8 * i)) (fun _ _ h => h) _ _ (inv_wrMem s a bs h)
  · exact inv_wrMem s a bs h

theorem inv_drainMarked : ∀ (l : List (EgWrite × Bool)) (kept : List EgWrite) (s : State), Memory.wf s.mem = true →
    Memory.wf (drainMarked l kept s).mem = true
  | [], _, _, h => h
  | (e, m) :: l, kept, s, h => by
    unfold drainMarked
    split
    · exact inv_drainMarked l kept _ (inv_perform s e.addr e.bytes e.full h)
    · exact inv_drainMarked l _ s h

theorem inv_drainOut (s : State) (want : EgWrite → Bool) (h : Memory.wf s.mem = true) :
    Memory.wf (drainOut s want).mem = true := inv_drainMarked _ _ s h

theorem inv_applyRepl (s : State) (w : ReplWrite) (c : Nat) (h : Memory.wf s.mem = true) :
    Memory.wf (applyRepl s w c).mem = true := by
  unfold applyRepl
  split
  · exact inv_perform _ _ _ _ h
  · exact h

theorem inv_settleRepl (s : State) (want : Nat → Nat → Bool) (h : Memory.wf s.mem = true) :
    Memory.wf (settleRepl s want).mem = true :=
  inv_foldl (fun (s : State) (w : ReplWrite) => (w.left.filter (want w.pid)).foldl (fun s c => applyRepl s w c) s)
    (fun s w h => inv_foldl (fun s c => applyRepl s w c) (fun s c h => inv_applyRepl s w c h) _ s h)
    (s.repl.filter (fun w => w.seqd && w.left.any (want w.pid))) s h

theorem inv_relDrain (s : State) (d : Nat) (h : Memory.wf s.mem = true) : Memory.wf (relDrain s d).mem = true :=
  inv_settleRepl _ _ (inv_drainOut _ _ h)

theorem inv_relIf (rel : Bool) (t : Strand) (s : State) (h : Memory.wf s.mem = true) : Memory.wf (relIf rel t s).mem = true := by
  unfold relIf
  split
  · exact inv_relDrain s _ h
  · exact h

/-- A scalar access that passes its checks is performed. -/
theorem scalarOp_on {i : Instr} {g : Guard} {acc : Acc} {fr : FeRule} {m : MemOp} {n : Nat} {s : State} {t : Strand}
    (on : Strand → State → Nat → State) (h : Ready s t i g) (ha : accessCause s t acc fr (effAddr m t) n n = none) :
    scalarOp i g acc fr m n on s = .next (on t s (accessPhys s t (effAddr m t))) := by
  rw [scalarOp, issue_on _ _ h]
  simp only [ha]

/-- One that fails a check takes the fault. -/
theorem scalarOp_fault {i : Instr} {g : Guard} {acc : Acc} {fr : FeRule} {m : MemOp} {n : Nat} {s : State} {t : Strand}
    {c : Cause} (on : Strand → State → Nat → State) (h : Ready s t i g)
    (ha : accessCause s t acc fr (effAddr m t) n n = some c) :
    scalarOp i g acc fr m n on s = .next (raise i c s t (toW (effAddr m t))) := by
  rw [scalarOp, issue_on _ _ h]
  simp only [ha]

/-- The strand after a form that writes g[d]. -/
theorem onlyG_setG (now lat : Nat) (d : R6) (x : Word) (t : Strand) : OnlyG d x t (advance (setG now lat d x t)) :=
  ⟨fun r => by simp [getG_setG], ⟨by simp, by simp⟩, by simp [SameP], by simp [SameC], ⟨by simp, by simp⟩, by simp [SamePlace],
    movedOn_advance (by simp) (by simp) (by simp)⟩

theorem onlyV_setV (now lat : Nat) (d : R6) (x : BitVec 1024) (t : Strand) : OnlyV d x t (advance (setV now lat d x t)) :=
  ⟨fun r => by simp [getV_setV], fun r => by simp, by simp, by simp [SameP], by simp [SameC], ⟨by simp, by simp⟩,
    by simp [SamePlace], movedOn_advance (by simp) (by simp) (by simp)⟩

theorem onlyMoves_advance (t : Strand) : OnlyMoves t (advance t) :=
  ⟨fun _ => rfl, ⟨rfl, rfl⟩, rfl, rfl, ⟨rfl, rfl⟩, ⟨rfl, rfl, rfl, rfl, rfl, rfl⟩, movedOn_advance rfl rfl rfl⟩

/-- The current lane's strand is the one put back. -/
theorem putStrand_lands (s : State) (t : Strand) (c : Nat) (h : s.cur = c) : tabGet (putStrand s t).strands c = some t := by
  subst h; exact tabGet_tabSet_same _ _ _

end Sys2Proof.Machine
end

