-- ==== Sys2Proof/Laws/PerInstr.lean ====
section
/-! SUPPORT. The family "WordCount" of statements per instruction: how many 64-bit words each form of the table has (R40,
R47; spec/95: an event has none). -/

namespace Sys2Proof.Laws.WordCount

/-- The number of words of a form: none for an event, four for a tile command word, one for every other form. -/
def count : Instr → Nat
  | .add _ _ _ _ => 1
  | .sub _ _ _ _ => 1
  | .mul _ _ _ _ => 1
  | .mulh _ _ _ _ => 1
  | .mulhs _ _ _ _ => 1
  | .div _ _ _ _ => 1
  | .divs _ _ _ _ => 1
  | .rem _ _ _ _ => 1
  | .rems _ _ _ _ => 1
  | .and _ _ _ _ => 1
  | .or _ _ _ _ => 1
  | .xor _ _ _ _ => 1
  | .andn _ _ _ _ => 1
  | .orn _ _ _ _ => 1
  | .shl _ _ _ _ => 1
  | .shr _ _ _ _ => 1
  | .sar _ _ _ _ => 1
  | .rol _ _ _ _ => 1
  | .min _ _ _ _ => 1
  | .max _ _ _ _ => 1
  | .mins _ _ _ _ => 1
  | .maxs _ _ _ _ => 1
  | .clz _ _ _ => 1
  | .ctz _ _ _ => 1
  | .popc _ _ _ => 1
  | .sel _ _ _ _ _ => 1
  | .bfx _ _ _ _ _ _ => 1
  | .bfi _ _ _ _ _ _ => 1
  | .lea _ _ _ _ _ => 1
  | .addsat _ _ _ _ _ => 1
  | .addi _ _ _ _ => 1
  | .muli _ _ _ _ => 1
  | .andi _ _ _ _ _ => 1
  | .ori _ _ _ _ _ => 1
  | .xori _ _ _ _ _ => 1
  | .shli _ _ _ _ => 1
  | .shri _ _ _ _ => 1
  | .sari _ _ _ _ => 1
  | .roli _ _ _ _ => 1
  | .mini _ _ _ _ _ => 1
  | .maxi _ _ _ _ _ => 1
  | .leai _ _ _ _ _ => 1
  | .movi _ _ _ => 1
  | .movhi _ _ _ => 1
  | .mov _ _ _ => 1
  | .ptog _ _ _ => 1
  | .ptogF _ _ => 1
  | .gtop _ _ _ => 1
  | .gtopF _ _ => 1
  | .rdtick _ _ _ => 1
  | .rdtime _ _ => 1
  | .rdid _ _ _ => 1
  | .cmp _ _ _ _ _ _ _ => 1
  | .cmpi _ _ _ _ _ _ => 1
  | .pand _ _ _ _ => 1
  | .por _ _ _ _ => 1
  | .pxor _ _ _ _ => 1
  | .pandn _ _ _ _ => 1
  | .pset _ _ _ => 1
  | .b _ _ => 1
  | .bl _ _ _ => 1
  | .br _ _ => 1
  | .blr _ _ _ => 1
  | .loop _ _ _ => 1
  | .segend _ _ => 1
  | .split _ _ _ => 1
  | .exit _ => 1
  | .yield _ _ => 1
  | .trap _ _ _ => 1
  | .brk _ _ => 1
  | .syscall _ _ _ => 1
  | .ctlrd _ _ _ => 1
  | .ctlwr _ _ _ => 1
  | .resume _ _ _ => 1
  | .abort _ _ _ _ => 1
  | .whisk _ _ => 1
  | .ld _ _ _ _ _ _ => 1
  | .ldx _ _ _ _ _ _ => 1
  | .st _ _ _ _ _ => 1
  | .stx _ _ _ _ _ => 1
  | .ldf _ _ _ => 1
  | .stf _ _ _ => 1
  | .clrf _ _ _ => 1
  | .feq _ _ _ => 1
  | .vld _ _ _ _ => 1
  | .vst _ _ _ _ => 1
  | .vlds _ _ _ _ _ => 1
  | .vsts _ _ _ _ _ => 1
  | .vgath _ _ _ _ _ => 1
  | .vscat _ _ _ _ _ => 1
  | .vldb _ _ _ _ _ _ => 1
  | .pgalloc _ _ _ _ _ => 1
  | .pgfree _ _ _ _ => 1
  | .pgref _ _ _ _ _ => 1
  | .pgcow _ _ _ _ _ => 1
  | .pgset _ _ _ _ _ _ => 1
  | .pgget _ _ _ _ _ => 1
  | .pgpin _ _ _ _ => 1
  | .pgunpin _ _ _ _ => 1
  | .pgspill _ _ _ _ => 1
  | .pgfill _ _ _ _ => 1
  | .pgmap _ _ _ _ _ _ => 1
  | .pgunmap _ _ _ _ => 1
  | .cpy _ _ _ _ _ _ _ _ => 1
  | .cpy2d _ _ _ _ _ _ _ _ => 1
  | .gath _ _ _ _ _ _ _ _ => 1
  | .scat _ _ _ _ _ _ _ _ => 1
  | .fld _ _ _ _ _ _ _ _ => 1
  | .fst _ _ _ _ _ _ _ _ => 1
  | .waitc _ _ _ => 1
  | .ctrget _ _ _ => 1
  | .aadd _ _ _ _ _ _ _ => 1
  | .afadd _ _ _ _ _ _ _ => 1
  | .amin _ _ _ _ _ _ _ => 1
  | .amax _ _ _ _ _ _ _ => 1
  | .aand _ _ _ _ _ _ _ => 1
  | .aor _ _ _ _ _ _ _ => 1
  | .axor _ _ _ _ _ _ _ => 1
  | .aswp _ _ _ _ _ _ _ => 1
  | .acas _ _ _ _ _ _ _ => 1
  | .fence _ _ _ => 1
  | .bar _ _ _ => 1
  | .phase _ _ _ => 1
  | .domset _ _ _ _ _ => 1
  | .domget _ _ _ _ _ => 1
  | .book _ _ _ _ => 1
  | .calrel _ _ _ _ => 1
  | .calq _ _ _ _ _ _ => 1
  | .gang _ _ _ => 1
  | .launch _ _ _ _ _ => 1
  | .qpush _ _ _ => 1
  | .qstat _ _ _ => 1
  | .qcfg _ _ _ _ _ => 1
  | .pipebind _ _ _ _ => 1
  | .vadd _ _ _ _ _ _ _ _ _ => 1
  | .vsub _ _ _ _ _ _ _ _ _ => 1
  | .vmul _ _ _ _ _ _ _ _ _ => 1
  | .vfma _ _ _ _ _ _ _ _ _ _ => 1
  | .vfms _ _ _ _ _ _ _ _ _ _ => 1
  | .vfnma _ _ _ _ _ _ _ _ _ _ => 1
  | .vmin _ _ _ _ _ _ _ _ => 1
  | .vmax _ _ _ _ _ _ _ _ => 1
  | .vabs _ _ _ _ _ _ => 1
  | .vneg _ _ _ _ _ _ => 1
  | .vdiv _ _ _ _ _ _ _ _ _ => 1
  | .vsqrt _ _ _ _ _ _ _ => 1
  | .vrcp _ _ _ _ _ _ _ => 1
  | .vrsq _ _ _ _ _ _ _ => 1
  | .vexp2 _ _ _ _ _ _ _ => 1
  | .vlog2 _ _ _ _ _ _ _ => 1
  | .vtanh _ _ _ _ _ _ _ => 1
  | .vclass _ _ _ _ _ _ => 1
  | .viadd _ _ _ _ _ _ _ _ => 1
  | .visub _ _ _ _ _ _ _ _ => 1
  | .vimul _ _ _ _ _ _ _ _ => 1
  | .vimulh _ _ _ _ _ _ _ _ _ => 1
  | .vishl _ _ _ _ _ _ _ _ => 1
  | .vishr _ _ _ _ _ _ _ _ => 1
  | .visar _ _ _ _ _ _ _ _ => 1
  | .vand _ _ _ _ _ _ _ _ => 1
  | .vor _ _ _ _ _ _ _ _ => 1
  | .vxor _ _ _ _ _ _ _ _ => 1
  | .vimin _ _ _ _ _ _ _ _ _ => 1
  | .vimax _ _ _ _ _ _ _ _ _ => 1
  | .viabs _ _ _ _ _ _ => 1
  | .viaddsat _ _ _ _ _ _ _ _ _ => 1
  | .vcmp _ _ _ _ _ _ _ _ _ => 1
  | .vsel _ _ _ _ _ _ => 1
  | .mand _ _ _ _ => 1
  | .mor _ _ _ _ => 1
  | .mxor _ _ _ _ => 1
  | .mnot _ _ _ => 1
  | .mcnt _ _ _ _ => 1
  | .mfirst _ _ _ _ => 1
  | .vperm _ _ _ _ _ _ _ => 1
  | .vshuf _ _ _ _ _ _ _ _ => 1
  | .vrot _ _ _ _ _ _ _ => 1
  | .vbcast _ _ _ _ _ _ => 1
  | .vextr _ _ _ _ _ _ => 1
  | .vins _ _ _ _ _ => 1
  | .vred _ _ _ _ _ _ _ => 1
  | .vscan _ _ _ _ _ _ _ _ => 1
  | .vdot _ _ _ _ _ _ _ _ _ _ => 1
  | .vcvt _ _ _ _ _ _ _ _ _ _ _ _ => 1
  | .vpack _ _ _ _ _ _ _ _ _ _ _ _ => 1
  | .vunpk _ _ _ _ _ _ _ _ _ => 1
  | .vqscale _ _ _ _ _ _ _ _ => 1
  | .vrand _ _ _ _ _ _ _ _ => 1
  | .sfork _ _ _ _ _ _ => 1
  | .sjoin _ _ _ _ _ _ => 1
  | .sprune _ _ _ _ => 1
  | .sact _ _ _ _ _ => 1
  | .sactp _ _ _ _ _ => 1
  | .shor _ _ _ _ _ _ => 1
  | .sstep _ _ _ _ _ => 1
  | .sstepB _ _ _ _ => 1
  | .ssnap _ _ _ _ _ => 1
  | .spin _ _ _ _ => 1
  | .spinU _ _ _ _ => 1
  | .sget _ _ _ _ _ => 1
  | .sset _ _ _ _ _ _ => 1
  | .ssetC _ _ _ _ => 1
  | .kvapp _ _ _ _ _ _ => 1
  | .kvsplice _ _ _ _ _ => 1
  | .kvspliceS _ _ _ _ _ => 1
  | .kvtrim _ _ _ _ _ => 1
  | .attd _ _ _ _ => 1
  | .attmS _ _ _ _ => 1
  | .attmV _ _ _ _ _ _ _ => 1
  | .rampset _ _ _ _ _ _ => 1
  | .vrope _ _ _ _ _ _ _ _ _ => 1
  | .lfilt _ _ _ _ => 1
  | .sample _ _ _ _ _ => 1
  | .accept _ _ _ _ => 1
  | .commit _ _ _ _ _ => 1
  | .dqsend _ _ _ _ => 1
  | .dqrecv _ _ _ _ => 1
  | .msend _ _ _ _ _ _ => 1
  | .mrecv _ _ _ _ _ => 1
  | .coll _ _ _ _ => 1
  | .redm _ _ _ _ _ _ _ _ => 1
  | .tzero _ _ => 1
  | .tcommit _ _ => 1
  | .twait _ _ => 1
  | .taccrd _ _ _ _ _ => 1
  | .taccrdR _ _ _ _ => 1
  | .tmma _ _ _ _ _ _ _ _ _ _ => 4
  | .tmmat _ _ _ _ _ _ _ _ _ _ => 4
  | .tmmbt _ _ _ _ _ _ _ _ _ _ => 4
  | .tmmring _ _ _ _ _ _ _ _ => 4
  | .tdrain _ _ _ _ _ _ _ _ _ _ => 4
  | .tdrainx _ _ _ _ _ _ _ _ _ _ _ _ _ _ _ _ _ _ _ _ => 4
  | .tblatch _ _ _ _ _ _ => 4
  | .illegalWord _ => 1
  | .deviceReset => 0
  | .bootStage => 0
  | .tickBoundary => 0
  | .headUrgent => 0
  | .farWorkDone => 0
  | .localCopy => 0
  | .icacheBlockLoad => 0
  | .segmentStart => 0
  | .overrun => 0
  | .continuationRecordComplete => 0
  | .continuationQueued => 0
  | .watchTimeout => 0
  | .yieldTimeExpiry => 0
  | .gangRoundEnd => 0
  | .gangNextRound => 0
  | .spillWindow => 0
  | .idleExpiry => 0
  | .evictionAdmit => 0
  | .batchClose => 0
  | .streamSequencePoint => 0
  | .joinReduction => 0
  | .snapshotTransferDone => 0
  | .pendingSlotDrain => 0
  | .channelUnit => 0
  | .walkerOpComplete => 0
  | .kvappToken => 0
  | .attdPage => 0
  | .lfiltPass => 0
  | .redmUnit => 0
  | .collHop => 0
  | .collComplete => 0
  | .launchArrival => 0
  | .msendDelivery => 0
  | .farAtomicPerform => 0
  | .replWriteSequence => 0
  | .dqsendSequenced => 0
  | .dqEntryArrive => 0
  | .ringDelivery => 0
  | .domainArrival => 0
  | .phaseSweep => 0
  | .domainCompletion => 0
  | .rampsetComplete => 0
  | .tileCommandStart => 0
  | .tileBatchCommit => 0
  | .deferredEccFault => 0
  | .faultEventEnqueue => 0
  | .faultRequestProcessed => 0
  | .preemptRequest => 0
  | .preemptSave => 0
  | .whiskFire => 0
  | .whiskTriggerEvent => 0
  | .whiskLatch => 0
  | .activeMessage => 0
  | .timedActiveMessage => 0
  | .hostRegisterWrite => 0
  | .semaAcquire => 0
  | .semaRelease => 0
  | .hostLinkDown => 0
  | .linkRetrain => 0
  | .partCreate => 0
  | .partDestroy => 0
  | .partSwitch => 0
  | .partQuota => 0
  | .partMap => 0
  | .fwWindowWrite => 0
  | .fwVerifyCommit => 0
  | .fwDiscard => 0
  | .attestation => 0
  | .timeStep => 0
  | .ppsEdge => 0
  | .dieReset => 0
  | .thermalLimit => 0
  | .powerOffTrip => 0
  | .eccScrub => 0
  | .packetDiscard => 0
  | .calStatRead => 0
  | .fltLostRead => 0
  | .amLogRead => 0
  | .snapStatRead => 0
  | .eccCeRead => 0
  | .tenDropRead => 0
  | .hostSemaRead => 0
  | .partCmdDone => 0
  | .fwCmdDone => 0
  | .attReportDone => 0
  | .domainRequestAtHome => 0
  | .collLayoutCheck => 0
  | .completionTimeout => 0

/-- An instruction has as many words as its form. -/
def Statement (i : Instr) : Prop := (encode i).length = count i

theorem add x1 x2 x3 x4 : Statement (.add x1 x2 x3 x4) := rfl
theorem sub x1 x2 x3 x4 : Statement (.sub x1 x2 x3 x4) := rfl
theorem mul x1 x2 x3 x4 : Statement (.mul x1 x2 x3 x4) := rfl
theorem mulh x1 x2 x3 x4 : Statement (.mulh x1 x2 x3 x4) := rfl
theorem mulhs x1 x2 x3 x4 : Statement (.mulhs x1 x2 x3 x4) := rfl
theorem div x1 x2 x3 x4 : Statement (.div x1 x2 x3 x4) := rfl
theorem divs x1 x2 x3 x4 : Statement (.divs x1 x2 x3 x4) := rfl
theorem rem x1 x2 x3 x4 : Statement (.rem x1 x2 x3 x4) := rfl
theorem rems x1 x2 x3 x4 : Statement (.rems x1 x2 x3 x4) := rfl
theorem and x1 x2 x3 x4 : Statement (.and x1 x2 x3 x4) := rfl
theorem or x1 x2 x3 x4 : Statement (.or x1 x2 x3 x4) := rfl
theorem xor x1 x2 x3 x4 : Statement (.xor x1 x2 x3 x4) := rfl
theorem andn x1 x2 x3 x4 : Statement (.andn x1 x2 x3 x4) := rfl
theorem orn x1 x2 x3 x4 : Statement (.orn x1 x2 x3 x4) := rfl
theorem shl x1 x2 x3 x4 : Statement (.shl x1 x2 x3 x4) := rfl
theorem shr x1 x2 x3 x4 : Statement (.shr x1 x2 x3 x4) := rfl
theorem sar x1 x2 x3 x4 : Statement (.sar x1 x2 x3 x4) := rfl
theorem rol x1 x2 x3 x4 : Statement (.rol x1 x2 x3 x4) := rfl
theorem min x1 x2 x3 x4 : Statement (.min x1 x2 x3 x4) := rfl
theorem max x1 x2 x3 x4 : Statement (.max x1 x2 x3 x4) := rfl
theorem mins x1 x2 x3 x4 : Statement (.mins x1 x2 x3 x4) := rfl
theorem maxs x1 x2 x3 x4 : Statement (.maxs x1 x2 x3 x4) := rfl
theorem clz x1 x2 x3 : Statement (.clz x1 x2 x3) := rfl
theorem ctz x1 x2 x3 : Statement (.ctz x1 x2 x3) := rfl
theorem popc x1 x2 x3 : Statement (.popc x1 x2 x3) := rfl
theorem sel x1 x2 x3 x4 x5 : Statement (.sel x1 x2 x3 x4 x5) := rfl
theorem bfx x1 x2 x3 x4 x5 x6 : Statement (.bfx x1 x2 x3 x4 x5 x6) := rfl
theorem bfi x1 x2 x3 x4 x5 x6 : Statement (.bfi x1 x2 x3 x4 x5 x6) := rfl
theorem lea x1 x2 x3 x4 x5 : Statement (.lea x1 x2 x3 x4 x5) := rfl
theorem addsat x1 x2 x3 x4 x5 : Statement (.addsat x1 x2 x3 x4 x5) := rfl
theorem addi x1 x2 x3 x4 : Statement (.addi x1 x2 x3 x4) := rfl
theorem muli x1 x2 x3 x4 : Statement (.muli x1 x2 x3 x4) := rfl
theorem andi x1 x2 x3 x4 x5 : Statement (.andi x1 x2 x3 x4 x5) := rfl
theorem ori x1 x2 x3 x4 x5 : Statement (.ori x1 x2 x3 x4 x5) := rfl
theorem xori x1 x2 x3 x4 x5 : Statement (.xori x1 x2 x3 x4 x5) := rfl
theorem shli x1 x2 x3 x4 : Statement (.shli x1 x2 x3 x4) := rfl
theorem shri x1 x2 x3 x4 : Statement (.shri x1 x2 x3 x4) := rfl
theorem sari x1 x2 x3 x4 : Statement (.sari x1 x2 x3 x4) := rfl
theorem roli x1 x2 x3 x4 : Statement (.roli x1 x2 x3 x4) := rfl
theorem mini x1 x2 x3 x4 x5 : Statement (.mini x1 x2 x3 x4 x5) := rfl
theorem maxi x1 x2 x3 x4 x5 : Statement (.maxi x1 x2 x3 x4 x5) := rfl
theorem leai x1 x2 x3 x4 x5 : Statement (.leai x1 x2 x3 x4 x5) := rfl
theorem movi x1 x2 x3 : Statement (.movi x1 x2 x3) := rfl
theorem movhi x1 x2 x3 : Statement (.movhi x1 x2 x3) := rfl
theorem mov x1 x2 x3 : Statement (.mov x1 x2 x3) := rfl
theorem ptog x1 x2 x3 : Statement (.ptog x1 x2 x3) := rfl
theorem ptogF x1 x2 : Statement (.ptogF x1 x2) := rfl
theorem gtop x1 x2 x3 : Statement (.gtop x1 x2 x3) := rfl
theorem gtopF x1 x2 : Statement (.gtopF x1 x2) := rfl
theorem rdtick x1 x2 x3 : Statement (.rdtick x1 x2 x3) := rfl
theorem rdtime x1 x2 : Statement (.rdtime x1 x2) := rfl
theorem rdid x1 x2 x3 : Statement (.rdid x1 x2 x3) := rfl
theorem cmp x1 x2 x3 x4 x5 x6 x7 : Statement (.cmp x1 x2 x3 x4 x5 x6 x7) := rfl
theorem cmpi x1 x2 x3 x4 x5 x6 : Statement (.cmpi x1 x2 x3 x4 x5 x6) := rfl
theorem pand x1 x2 x3 x4 : Statement (.pand x1 x2 x3 x4) := rfl
theorem por x1 x2 x3 x4 : Statement (.por x1 x2 x3 x4) := rfl
theorem pxor x1 x2 x3 x4 : Statement (.pxor x1 x2 x3 x4) := rfl
theorem pandn x1 x2 x3 x4 : Statement (.pandn x1 x2 x3 x4) := rfl
theorem pset x1 x2 x3 : Statement (.pset x1 x2 x3) := rfl
theorem b x1 x2 : Statement (.b x1 x2) := rfl
theorem bl x1 x2 x3 : Statement (.bl x1 x2 x3) := rfl
theorem br x1 x2 : Statement (.br x1 x2) := rfl
theorem blr x1 x2 x3 : Statement (.blr x1 x2 x3) := rfl
theorem loop x1 x2 x3 : Statement (.loop x1 x2 x3) := rfl
theorem segend x1 x2 : Statement (.segend x1 x2) := rfl
theorem split x1 x2 x3 : Statement (.split x1 x2 x3) := rfl
theorem exit x1 : Statement (.exit x1) := rfl
theorem yield x1 x2 : Statement (.yield x1 x2) := rfl
theorem trap x1 x2 x3 : Statement (.trap x1 x2 x3) := rfl
theorem brk x1 x2 : Statement (.brk x1 x2) := rfl
theorem syscall x1 x2 x3 : Statement (.syscall x1 x2 x3) := rfl
theorem ctlrd x1 x2 x3 : Statement (.ctlrd x1 x2 x3) := rfl
theorem ctlwr x1 x2 x3 : Statement (.ctlwr x1 x2 x3) := rfl
theorem resume x1 x2 x3 : Statement (.resume x1 x2 x3) := rfl
theorem abort x1 x2 x3 x4 : Statement (.abort x1 x2 x3 x4) := rfl
theorem whisk x1 x2 : Statement (.whisk x1 x2) := rfl
theorem ld x1 x2 x3 x4 x5 x6 : Statement (.ld x1 x2 x3 x4 x5 x6) := rfl
theorem ldx x1 x2 x3 x4 x5 x6 : Statement (.ldx x1 x2 x3 x4 x5 x6) := rfl
theorem st x1 x2 x3 x4 x5 : Statement (.st x1 x2 x3 x4 x5) := rfl
theorem stx x1 x2 x3 x4 x5 : Statement (.stx x1 x2 x3 x4 x5) := rfl
theorem ldf x1 x2 x3 : Statement (.ldf x1 x2 x3) := rfl
theorem stf x1 x2 x3 : Statement (.stf x1 x2 x3) := rfl
theorem clrf x1 x2 x3 : Statement (.clrf x1 x2 x3) := rfl
theorem feq x1 x2 x3 : Statement (.feq x1 x2 x3) := rfl
theorem vld x1 x2 x3 x4 : Statement (.vld x1 x2 x3 x4) := rfl
theorem vst x1 x2 x3 x4 : Statement (.vst x1 x2 x3 x4) := rfl
theorem vlds x1 x2 x3 x4 x5 : Statement (.vlds x1 x2 x3 x4 x5) := rfl
theorem vsts x1 x2 x3 x4 x5 : Statement (.vsts x1 x2 x3 x4 x5) := rfl
theorem vgath x1 x2 x3 x4 x5 : Statement (.vgath x1 x2 x3 x4 x5) := rfl
theorem vscat x1 x2 x3 x4 x5 : Statement (.vscat x1 x2 x3 x4 x5) := rfl
theorem vldb x1 x2 x3 x4 x5 x6 : Statement (.vldb x1 x2 x3 x4 x5 x6) := rfl
theorem pgalloc x1 x2 x3 x4 x5 : Statement (.pgalloc x1 x2 x3 x4 x5) := rfl
theorem pgfree x1 x2 x3 x4 : Statement (.pgfree x1 x2 x3 x4) := rfl
theorem pgref x1 x2 x3 x4 x5 : Statement (.pgref x1 x2 x3 x4 x5) := rfl
theorem pgcow x1 x2 x3 x4 x5 : Statement (.pgcow x1 x2 x3 x4 x5) := rfl
theorem pgset x1 x2 x3 x4 x5 x6 : Statement (.pgset x1 x2 x3 x4 x5 x6) := rfl
theorem pgget x1 x2 x3 x4 x5 : Statement (.pgget x1 x2 x3 x4 x5) := rfl
theorem pgpin x1 x2 x3 x4 : Statement (.pgpin x1 x2 x3 x4) := rfl
theorem pgunpin x1 x2 x3 x4 : Statement (.pgunpin x1 x2 x3 x4) := rfl
theorem pgspill x1 x2 x3 x4 : Statement (.pgspill x1 x2 x3 x4) := rfl
theorem pgfill x1 x2 x3 x4 : Statement (.pgfill x1 x2 x3 x4) := rfl
theorem pgmap x1 x2 x3 x4 x5 x6 : Statement (.pgmap x1 x2 x3 x4 x5 x6) := rfl
theorem pgunmap x1 x2 x3 x4 : Statement (.pgunmap x1 x2 x3 x4) := rfl
theorem cpy x1 x2 x3 x4 x5 x6 x7 x8 : Statement (.cpy x1 x2 x3 x4 x5 x6 x7 x8) := rfl
theorem cpy2d x1 x2 x3 x4 x5 x6 x7 x8 : Statement (.cpy2d x1 x2 x3 x4 x5 x6 x7 x8) := rfl
theorem gath x1 x2 x3 x4 x5 x6 x7 x8 : Statement (.gath x1 x2 x3 x4 x5 x6 x7 x8) := rfl
theorem scat x1 x2 x3 x4 x5 x6 x7 x8 : Statement (.scat x1 x2 x3 x4 x5 x6 x7 x8) := rfl
theorem fld x1 x2 x3 x4 x5 x6 x7 x8 : Statement (.fld x1 x2 x3 x4 x5 x6 x7 x8) := rfl
theorem fst x1 x2 x3 x4 x5 x6 x7 x8 : Statement (.fst x1 x2 x3 x4 x5 x6 x7 x8) := rfl
theorem waitc x1 x2 x3 : Statement (.waitc x1 x2 x3) := rfl
theorem ctrget x1 x2 x3 : Statement (.ctrget x1 x2 x3) := rfl
theorem aadd x1 x2 x3 x4 x5 x6 x7 : Statement (.aadd x1 x2 x3 x4 x5 x6 x7) := rfl
theorem afadd x1 x2 x3 x4 x5 x6 x7 : Statement (.afadd x1 x2 x3 x4 x5 x6 x7) := rfl
theorem amin x1 x2 x3 x4 x5 x6 x7 : Statement (.amin x1 x2 x3 x4 x5 x6 x7) := rfl
theorem amax x1 x2 x3 x4 x5 x6 x7 : Statement (.amax x1 x2 x3 x4 x5 x6 x7) := rfl
theorem aand x1 x2 x3 x4 x5 x6 x7 : Statement (.aand x1 x2 x3 x4 x5 x6 x7) := rfl
theorem aor x1 x2 x3 x4 x5 x6 x7 : Statement (.aor x1 x2 x3 x4 x5 x6 x7) := rfl
theorem axor x1 x2 x3 x4 x5 x6 x7 : Statement (.axor x1 x2 x3 x4 x5 x6 x7) := rfl
theorem aswp x1 x2 x3 x4 x5 x6 x7 : Statement (.aswp x1 x2 x3 x4 x5 x6 x7) := rfl
theorem acas x1 x2 x3 x4 x5 x6 x7 : Statement (.acas x1 x2 x3 x4 x5 x6 x7) := rfl
theorem fence x1 x2 x3 : Statement (.fence x1 x2 x3) := rfl
theorem bar x1 x2 x3 : Statement (.bar x1 x2 x3) := rfl
theorem phase x1 x2 x3 : Statement (.phase x1 x2 x3) := rfl
theorem domset x1 x2 x3 x4 x5 : Statement (.domset x1 x2 x3 x4 x5) := rfl
theorem domget x1 x2 x3 x4 x5 : Statement (.domget x1 x2 x3 x4 x5) := rfl
theorem book x1 x2 x3 x4 : Statement (.book x1 x2 x3 x4) := rfl
theorem calrel x1 x2 x3 x4 : Statement (.calrel x1 x2 x3 x4) := rfl
theorem calq x1 x2 x3 x4 x5 x6 : Statement (.calq x1 x2 x3 x4 x5 x6) := rfl
theorem gang x1 x2 x3 : Statement (.gang x1 x2 x3) := rfl
theorem launch x1 x2 x3 x4 x5 : Statement (.launch x1 x2 x3 x4 x5) := rfl
theorem qpush x1 x2 x3 : Statement (.qpush x1 x2 x3) := rfl
theorem qstat x1 x2 x3 : Statement (.qstat x1 x2 x3) := rfl
theorem qcfg x1 x2 x3 x4 x5 : Statement (.qcfg x1 x2 x3 x4 x5) := rfl
theorem pipebind x1 x2 x3 x4 : Statement (.pipebind x1 x2 x3 x4) := rfl
theorem vadd x1 x2 x3 x4 x5 x6 x7 x8 x9 : Statement (.vadd x1 x2 x3 x4 x5 x6 x7 x8 x9) := rfl
theorem vsub x1 x2 x3 x4 x5 x6 x7 x8 x9 : Statement (.vsub x1 x2 x3 x4 x5 x6 x7 x8 x9) := rfl
theorem vmul x1 x2 x3 x4 x5 x6 x7 x8 x9 : Statement (.vmul x1 x2 x3 x4 x5 x6 x7 x8 x9) := rfl
theorem vfma x1 x2 x3 x4 x5 x6 x7 x8 x9 x10 : Statement (.vfma x1 x2 x3 x4 x5 x6 x7 x8 x9 x10) := rfl
theorem vfms x1 x2 x3 x4 x5 x6 x7 x8 x9 x10 : Statement (.vfms x1 x2 x3 x4 x5 x6 x7 x8 x9 x10) := rfl
theorem vfnma x1 x2 x3 x4 x5 x6 x7 x8 x9 x10 : Statement (.vfnma x1 x2 x3 x4 x5 x6 x7 x8 x9 x10) := rfl
theorem vmin x1 x2 x3 x4 x5 x6 x7 x8 : Statement (.vmin x1 x2 x3 x4 x5 x6 x7 x8) := rfl
theorem vmax x1 x2 x3 x4 x5 x6 x7 x8 : Statement (.vmax x1 x2 x3 x4 x5 x6 x7 x8) := rfl
theorem vabs x1 x2 x3 x4 x5 x6 : Statement (.vabs x1 x2 x3 x4 x5 x6) := rfl
theorem vneg x1 x2 x3 x4 x5 x6 : Statement (.vneg x1 x2 x3 x4 x5 x6) := rfl
theorem vdiv x1 x2 x3 x4 x5 x6 x7 x8 x9 : Statement (.vdiv x1 x2 x3 x4 x5 x6 x7 x8 x9) := rfl
theorem vsqrt x1 x2 x3 x4 x5 x6 x7 : Statement (.vsqrt x1 x2 x3 x4 x5 x6 x7) := rfl
theorem vrcp x1 x2 x3 x4 x5 x6 x7 : Statement (.vrcp x1 x2 x3 x4 x5 x6 x7) := rfl
theorem vrsq x1 x2 x3 x4 x5 x6 x7 : Statement (.vrsq x1 x2 x3 x4 x5 x6 x7) := rfl
theorem vexp2 x1 x2 x3 x4 x5 x6 x7 : Statement (.vexp2 x1 x2 x3 x4 x5 x6 x7) := rfl
theorem vlog2 x1 x2 x3 x4 x5 x6 x7 : Statement (.vlog2 x1 x2 x3 x4 x5 x6 x7) := rfl
theorem vtanh x1 x2 x3 x4 x5 x6 x7 : Statement (.vtanh x1 x2 x3 x4 x5 x6 x7) := rfl
theorem vclass x1 x2 x3 x4 x5 x6 : Statement (.vclass x1 x2 x3 x4 x5 x6) := rfl
theorem viadd x1 x2 x3 x4 x5 x6 x7 x8 : Statement (.viadd x1 x2 x3 x4 x5 x6 x7 x8) := rfl
theorem visub x1 x2 x3 x4 x5 x6 x7 x8 : Statement (.visub x1 x2 x3 x4 x5 x6 x7 x8) := rfl
theorem vimul x1 x2 x3 x4 x5 x6 x7 x8 : Statement (.vimul x1 x2 x3 x4 x5 x6 x7 x8) := rfl
theorem vimulh x1 x2 x3 x4 x5 x6 x7 x8 x9 : Statement (.vimulh x1 x2 x3 x4 x5 x6 x7 x8 x9) := rfl
theorem vishl x1 x2 x3 x4 x5 x6 x7 x8 : Statement (.vishl x1 x2 x3 x4 x5 x6 x7 x8) := rfl
theorem vishr x1 x2 x3 x4 x5 x6 x7 x8 : Statement (.vishr x1 x2 x3 x4 x5 x6 x7 x8) := rfl
theorem visar x1 x2 x3 x4 x5 x6 x7 x8 : Statement (.visar x1 x2 x3 x4 x5 x6 x7 x8) := rfl
theorem vand x1 x2 x3 x4 x5 x6 x7 x8 : Statement (.vand x1 x2 x3 x4 x5 x6 x7 x8) := rfl
theorem vor x1 x2 x3 x4 x5 x6 x7 x8 : Statement (.vor x1 x2 x3 x4 x5 x6 x7 x8) := rfl
theorem vxor x1 x2 x3 x4 x5 x6 x7 x8 : Statement (.vxor x1 x2 x3 x4 x5 x6 x7 x8) := rfl
theorem vimin x1 x2 x3 x4 x5 x6 x7 x8 x9 : Statement (.vimin x1 x2 x3 x4 x5 x6 x7 x8 x9) := rfl
theorem vimax x1 x2 x3 x4 x5 x6 x7 x8 x9 : Statement (.vimax x1 x2 x3 x4 x5 x6 x7 x8 x9) := rfl
theorem viabs x1 x2 x3 x4 x5 x6 : Statement (.viabs x1 x2 x3 x4 x5 x6) := rfl
theorem viaddsat x1 x2 x3 x4 x5 x6 x7 x8 x9 : Statement (.viaddsat x1 x2 x3 x4 x5 x6 x7 x8 x9) := rfl
theorem vcmp x1 x2 x3 x4 x5 x6 x7 x8 x9 : Statement (.vcmp x1 x2 x3 x4 x5 x6 x7 x8 x9) := rfl
theorem vsel x1 x2 x3 x4 x5 x6 : Statement (.vsel x1 x2 x3 x4 x5 x6) := rfl
theorem mand x1 x2 x3 x4 : Statement (.mand x1 x2 x3 x4) := rfl
theorem mor x1 x2 x3 x4 : Statement (.mor x1 x2 x3 x4) := rfl
theorem mxor x1 x2 x3 x4 : Statement (.mxor x1 x2 x3 x4) := rfl
theorem mnot x1 x2 x3 : Statement (.mnot x1 x2 x3) := rfl
theorem mcnt x1 x2 x3 x4 : Statement (.mcnt x1 x2 x3 x4) := rfl
theorem mfirst x1 x2 x3 x4 : Statement (.mfirst x1 x2 x3 x4) := rfl
theorem vperm x1 x2 x3 x4 x5 x6 x7 : Statement (.vperm x1 x2 x3 x4 x5 x6 x7) := rfl
theorem vshuf x1 x2 x3 x4 x5 x6 x7 x8 : Statement (.vshuf x1 x2 x3 x4 x5 x6 x7 x8) := rfl
theorem vrot x1 x2 x3 x4 x5 x6 x7 : Statement (.vrot x1 x2 x3 x4 x5 x6 x7) := rfl
theorem vbcast x1 x2 x3 x4 x5 x6 : Statement (.vbcast x1 x2 x3 x4 x5 x6) := rfl
theorem vextr x1 x2 x3 x4 x5 x6 : Statement (.vextr x1 x2 x3 x4 x5 x6) := rfl
theorem vins x1 x2 x3 x4 x5 : Statement (.vins x1 x2 x3 x4 x5) := rfl
theorem vred x1 x2 x3 x4 x5 x6 x7 : Statement (.vred x1 x2 x3 x4 x5 x6 x7) := rfl
theorem vscan x1 x2 x3 x4 x5 x6 x7 x8 : Statement (.vscan x1 x2 x3 x4 x5 x6 x7 x8) := rfl
theorem vdot x1 x2 x3 x4 x5 x6 x7 x8 x9 x10 : Statement (.vdot x1 x2 x3 x4 x5 x6 x7 x8 x9 x10) := rfl
theorem vcvt x1 x2 x3 x4 x5 x6 x7 x8 x9 x10 x11 x12 : Statement (.vcvt x1 x2 x3 x4 x5 x6 x7 x8 x9 x10 x11 x12) := rfl
theorem vpack x1 x2 x3 x4 x5 x6 x7 x8 x9 x10 x11 x12 : Statement (.vpack x1 x2 x3 x4 x5 x6 x7 x8 x9 x10 x11 x12) := rfl
theorem vunpk x1 x2 x3 x4 x5 x6 x7 x8 x9 : Statement (.vunpk x1 x2 x3 x4 x5 x6 x7 x8 x9) := rfl
theorem vqscale x1 x2 x3 x4 x5 x6 x7 x8 : Statement (.vqscale x1 x2 x3 x4 x5 x6 x7 x8) := rfl
theorem vrand x1 x2 x3 x4 x5 x6 x7 x8 : Statement (.vrand x1 x2 x3 x4 x5 x6 x7 x8) := rfl
theorem sfork x1 x2 x3 x4 x5 x6 : Statement (.sfork x1 x2 x3 x4 x5 x6) := rfl
theorem sjoin x1 x2 x3 x4 x5 x6 : Statement (.sjoin x1 x2 x3 x4 x5 x6) := rfl
theorem sprune x1 x2 x3 x4 : Statement (.sprune x1 x2 x3 x4) := rfl
theorem sact x1 x2 x3 x4 x5 : Statement (.sact x1 x2 x3 x4 x5) := rfl
theorem sactp x1 x2 x3 x4 x5 : Statement (.sactp x1 x2 x3 x4 x5) := rfl
theorem shor x1 x2 x3 x4 x5 x6 : Statement (.shor x1 x2 x3 x4 x5 x6) := rfl
theorem sstep x1 x2 x3 x4 x5 : Statement (.sstep x1 x2 x3 x4 x5) := rfl
theorem sstepB x1 x2 x3 x4 : Statement (.sstepB x1 x2 x3 x4) := rfl
theorem ssnap x1 x2 x3 x4 x5 : Statement (.ssnap x1 x2 x3 x4 x5) := rfl
theorem spin x1 x2 x3 x4 : Statement (.spin x1 x2 x3 x4) := rfl
theorem spinU x1 x2 x3 x4 : Statement (.spinU x1 x2 x3 x4) := rfl
theorem sget x1 x2 x3 x4 x5 : Statement (.sget x1 x2 x3 x4 x5) := rfl
theorem sset x1 x2 x3 x4 x5 x6 : Statement (.sset x1 x2 x3 x4 x5 x6) := rfl
theorem ssetC x1 x2 x3 x4 : Statement (.ssetC x1 x2 x3 x4) := rfl
theorem kvapp x1 x2 x3 x4 x5 x6 : Statement (.kvapp x1 x2 x3 x4 x5 x6) := rfl
theorem kvsplice x1 x2 x3 x4 x5 : Statement (.kvsplice x1 x2 x3 x4 x5) := rfl
theorem kvspliceS x1 x2 x3 x4 x5 : Statement (.kvspliceS x1 x2 x3 x4 x5) := rfl
theorem kvtrim x1 x2 x3 x4 x5 : Statement (.kvtrim x1 x2 x3 x4 x5) := rfl
theorem attd x1 x2 x3 x4 : Statement (.attd x1 x2 x3 x4) := rfl
theorem attmS x1 x2 x3 x4 : Statement (.attmS x1 x2 x3 x4) := rfl
theorem attmV x1 x2 x3 x4 x5 x6 x7 : Statement (.attmV x1 x2 x3 x4 x5 x6 x7) := rfl
theorem rampset x1 x2 x3 x4 x5 x6 : Statement (.rampset x1 x2 x3 x4 x5 x6) := rfl
theorem vrope x1 x2 x3 x4 x5 x6 x7 x8 x9 : Statement (.vrope x1 x2 x3 x4 x5 x6 x7 x8 x9) := rfl
theorem lfilt x1 x2 x3 x4 : Statement (.lfilt x1 x2 x3 x4) := rfl
theorem sample x1 x2 x3 x4 x5 : Statement (.sample x1 x2 x3 x4 x5) := rfl
theorem accept x1 x2 x3 x4 : Statement (.accept x1 x2 x3 x4) := rfl
theorem commit x1 x2 x3 x4 x5 : Statement (.commit x1 x2 x3 x4 x5) := rfl
theorem dqsend x1 x2 x3 x4 : Statement (.dqsend x1 x2 x3 x4) := rfl
theorem dqrecv x1 x2 x3 x4 : Statement (.dqrecv x1 x2 x3 x4) := rfl
theorem msend x1 x2 x3 x4 x5 x6 : Statement (.msend x1 x2 x3 x4 x5 x6) := rfl
theorem mrecv x1 x2 x3 x4 x5 : Statement (.mrecv x1 x2 x3 x4 x5) := rfl
theorem coll x1 x2 x3 x4 : Statement (.coll x1 x2 x3 x4) := rfl
theorem redm x1 x2 x3 x4 x5 x6 x7 x8 : Statement (.redm x1 x2 x3 x4 x5 x6 x7 x8) := rfl
theorem tzero x1 x2 : Statement (.tzero x1 x2) := rfl
theorem tcommit x1 x2 : Statement (.tcommit x1 x2) := rfl
theorem twait x1 x2 : Statement (.twait x1 x2) := rfl
theorem taccrd x1 x2 x3 x4 x5 : Statement (.taccrd x1 x2 x3 x4 x5) := rfl
theorem taccrdR x1 x2 x3 x4 : Statement (.taccrdR x1 x2 x3 x4) := rfl
theorem tmma x1 x2 x3 x4 x5 x6 x7 x8 x9 x10 : Statement (.tmma x1 x2 x3 x4 x5 x6 x7 x8 x9 x10) := rfl
theorem tmmat x1 x2 x3 x4 x5 x6 x7 x8 x9 x10 : Statement (.tmmat x1 x2 x3 x4 x5 x6 x7 x8 x9 x10) := rfl
theorem tmmbt x1 x2 x3 x4 x5 x6 x7 x8 x9 x10 : Statement (.tmmbt x1 x2 x3 x4 x5 x6 x7 x8 x9 x10) := rfl
theorem tmmring x1 x2 x3 x4 x5 x6 x7 x8 : Statement (.tmmring x1 x2 x3 x4 x5 x6 x7 x8) := rfl
theorem tdrain x1 x2 x3 x4 x5 x6 x7 x8 x9 x10 : Statement (.tdrain x1 x2 x3 x4 x5 x6 x7 x8 x9 x10) := rfl
theorem tdrainx x1 x2 x3 x4 x5 x6 x7 x8 x9 x10 x11 x12 x13 x14 x15 x16 x17 x18 x19 x20 : Statement (.tdrainx x1 x2 x3 x4 x5 x6 x7 x8 x9 x10 x11 x12 x13 x14 x15 x16 x17 x18 x19 x20) := rfl
theorem tblatch x1 x2 x3 x4 x5 x6 : Statement (.tblatch x1 x2 x3 x4 x5 x6) := rfl
theorem illegalWord x1 : Statement (.illegalWord x1) := rfl
theorem deviceReset : Statement .deviceReset := rfl
theorem bootStage : Statement .bootStage := rfl
theorem tickBoundary : Statement .tickBoundary := rfl
theorem headUrgent : Statement .headUrgent := rfl
theorem farWorkDone : Statement .farWorkDone := rfl
theorem localCopy : Statement .localCopy := rfl
theorem icacheBlockLoad : Statement .icacheBlockLoad := rfl
theorem segmentStart : Statement .segmentStart := rfl
theorem overrun : Statement .overrun := rfl
theorem continuationRecordComplete : Statement .continuationRecordComplete := rfl
theorem continuationQueued : Statement .continuationQueued := rfl
theorem watchTimeout : Statement .watchTimeout := rfl
theorem yieldTimeExpiry : Statement .yieldTimeExpiry := rfl
theorem gangRoundEnd : Statement .gangRoundEnd := rfl
theorem gangNextRound : Statement .gangNextRound := rfl
theorem spillWindow : Statement .spillWindow := rfl
theorem idleExpiry : Statement .idleExpiry := rfl
theorem evictionAdmit : Statement .evictionAdmit := rfl
theorem batchClose : Statement .batchClose := rfl
theorem streamSequencePoint : Statement .streamSequencePoint := rfl
theorem joinReduction : Statement .joinReduction := rfl
theorem snapshotTransferDone : Statement .snapshotTransferDone := rfl
theorem pendingSlotDrain : Statement .pendingSlotDrain := rfl
theorem channelUnit : Statement .channelUnit := rfl
theorem walkerOpComplete : Statement .walkerOpComplete := rfl
theorem kvappToken : Statement .kvappToken := rfl
theorem attdPage : Statement .attdPage := rfl
theorem lfiltPass : Statement .lfiltPass := rfl
theorem redmUnit : Statement .redmUnit := rfl
theorem collHop : Statement .collHop := rfl
theorem collComplete : Statement .collComplete := rfl
theorem launchArrival : Statement .launchArrival := rfl
theorem msendDelivery : Statement .msendDelivery := rfl
theorem farAtomicPerform : Statement .farAtomicPerform := rfl
theorem replWriteSequence : Statement .replWriteSequence := rfl
theorem dqsendSequenced : Statement .dqsendSequenced := rfl
theorem dqEntryArrive : Statement .dqEntryArrive := rfl
theorem ringDelivery : Statement .ringDelivery := rfl
theorem domainArrival : Statement .domainArrival := rfl
theorem phaseSweep : Statement .phaseSweep := rfl
theorem domainCompletion : Statement .domainCompletion := rfl
theorem rampsetComplete : Statement .rampsetComplete := rfl
theorem tileCommandStart : Statement .tileCommandStart := rfl
theorem tileBatchCommit : Statement .tileBatchCommit := rfl
theorem deferredEccFault : Statement .deferredEccFault := rfl
theorem faultEventEnqueue : Statement .faultEventEnqueue := rfl
theorem faultRequestProcessed : Statement .faultRequestProcessed := rfl
theorem preemptRequest : Statement .preemptRequest := rfl
theorem preemptSave : Statement .preemptSave := rfl
theorem whiskFire : Statement .whiskFire := rfl
theorem whiskTriggerEvent : Statement .whiskTriggerEvent := rfl
theorem whiskLatch : Statement .whiskLatch := rfl
theorem activeMessage : Statement .activeMessage := rfl
theorem timedActiveMessage : Statement .timedActiveMessage := rfl
theorem hostRegisterWrite : Statement .hostRegisterWrite := rfl
theorem semaAcquire : Statement .semaAcquire := rfl
theorem semaRelease : Statement .semaRelease := rfl
theorem hostLinkDown : Statement .hostLinkDown := rfl
theorem linkRetrain : Statement .linkRetrain := rfl
theorem partCreate : Statement .partCreate := rfl
theorem partDestroy : Statement .partDestroy := rfl
theorem partSwitch : Statement .partSwitch := rfl
theorem partQuota : Statement .partQuota := rfl
theorem partMap : Statement .partMap := rfl
theorem fwWindowWrite : Statement .fwWindowWrite := rfl
theorem fwVerifyCommit : Statement .fwVerifyCommit := rfl
theorem fwDiscard : Statement .fwDiscard := rfl
theorem attestation : Statement .attestation := rfl
theorem timeStep : Statement .timeStep := rfl
theorem ppsEdge : Statement .ppsEdge := rfl
theorem dieReset : Statement .dieReset := rfl
theorem thermalLimit : Statement .thermalLimit := rfl
theorem powerOffTrip : Statement .powerOffTrip := rfl
theorem eccScrub : Statement .eccScrub := rfl
theorem packetDiscard : Statement .packetDiscard := rfl
theorem calStatRead : Statement .calStatRead := rfl
theorem fltLostRead : Statement .fltLostRead := rfl
theorem amLogRead : Statement .amLogRead := rfl
theorem snapStatRead : Statement .snapStatRead := rfl
theorem eccCeRead : Statement .eccCeRead := rfl
theorem tenDropRead : Statement .tenDropRead := rfl
theorem hostSemaRead : Statement .hostSemaRead := rfl
theorem partCmdDone : Statement .partCmdDone := rfl
theorem fwCmdDone : Statement .fwCmdDone := rfl
theorem attReportDone : Statement .attReportDone := rfl
theorem domainRequestAtHome : Statement .domainRequestAtHome := rfl
theorem collLayoutCheck : Statement .collLayoutCheck := rfl
theorem completionTimeout : Statement .completionTimeout := rfl

end Sys2Proof.Laws.WordCount
end

