-- ==== Sys2Proof/Laws/Sync.lean ====
section
/-! SUPPORT. How a domain counts arrivals (spec/14 R381, R382). -/

namespace Sys2Proof.Laws

open Sys2Proof.Machine

/-- Arrivals that leave the phase short of TOT. -/
theorem countArrivals_below (tot : Nat) : ∀ (l : List Bool) (d : Domain) (gens : List Nat), d.sweep = 0 →
    d.arr + l.length < tot →
    countArrivals tot l d gens = ({ d with arr := d.arr + l.length, phase := d.phase || l.any id }, gens) := by
  intro l
  induction l with
  | nil => intro d gens _ _; simp [countArrivals]
  | cons x l ih =>
    intro d gens h k
    simp only [List.length_cons] at k
    have hlt : d.arr + 1 < tot := by omega
    rw [countArrivals]
    simp only [h, ne_eq, not_true_eq_false, if_false, hlt, if_true]
    rw [ih _ _ rfl (by simp only; omega)]
    simp [Bool.or_assoc, Nat.add_comm 1, Nat.add_assoc]

/-- While sweeps run an arrival is kept for the next phase. -/
theorem countArrivals_later (tot : Nat) (x : Bool) (d : Domain) (gens : List Nat) (h : d.sweep ≠ 0) :
    countArrivals tot [x] d gens = ({ d with later := d.later ++ [x] }, gens) := by
  simp [countArrivals, h]

/-- The last arrival of a phase that no PHASE has marked. -/
theorem countArrivals_last (tot : Nat) (d : Domain) (gens : List Nat) (h : d.sweep = 0) (k : tot ≤ d.arr + 1)
    (m : d.phase = false) :
    countArrivals tot [false] d gens
      = ({ d with gen := (d.gen + 1) % 2 ^ 16, arr := 0 }, gens ++ [(d.gen + 1) % 2 ^ 16]) := by
  simp [countArrivals, h, Nat.not_lt.mpr k, m]

/-- The last arrival of a marked phase begins its sweeps. -/
theorem countArrivals_sweep (tot : Nat) (x : Bool) (d : Domain) (gens : List Nat) (h : d.sweep = 0) (k : tot ≤ d.arr + 1)
    (m : (d.phase || x) = true) :
    countArrivals tot [x] d gens
      = ({ d with arr := d.arr + 1, phase := true, sweep := 1, read := [], last := none }, gens) := by
  simp [countArrivals, h, Nat.not_lt.mpr k, m]

end Sys2Proof.Laws
end

