-- ==== Sys2Proof/Tests/Slice0.lean ====
section
/-! SUPPORT. Tests: ill-formed terms, decoding, one-step tests, and for each statement a state that meets its hypotheses. -/

namespace Sys2Proof.Tests

open Sys2Proof Sys2Proof.Machine

set_option maxRecDepth 40000

/-! ### Small states -/

/-- The guard that is always true, and the one that never is. -/
def on : Guard := ⟨false, 7⟩
def off : Guard := ⟨true, 7⟩

/-- One word of code in lane 0 of cluster 0, the lane that runs. -/
def w1 (w : Nat) : State := State.reset.withFetchWord 64 w
/-- Its strand. -/
def s1 : Strand := State.reset.codeStrand

/-- Records and page tables of partition 1: root 1, nodes 2 and 3, and record 4 (FP32, SRAM frame 1 of cluster 0), mapped
writable at VA 0. -/
def tables : List (Nat × Word) :=
  [(32, 2), (40, 32768), (64, 2), (72, 65536), (96, 2), (104, 98304), (128, 0x10011), (136, sramLoc 0 1),
   (32768, 0x200000001), (65536, 0x300000001), (98304, 0x400000003)]

def part1 : Part :=
  { words := [BitVec.ofNat 64 (2 ^ 12 + 2 * 2 ^ 16 + 2 ^ 25), 0, 16, 1, 0x40000, 0x100000, 256, 0x80000], domains := [] }

/-- The data page as the segment holds it. -/
def page : Xl := ⟨0, 4, sramLoc 0 1, 0x400000003, 0, true, false, false⟩
/-- First byte of its frame. -/
def data : Nat := sramBase 0 1

/-- A strand of partition 1 that holds the page, with values in g1 to g6. -/
def sp : Strand :=
  { s1 with seg := { s1.seg with xl := page :: s1.seg.xl }, g := s1.g.set 1 64 |>.set 2 7 |>.set 3 8 |>.set 4 32768 |>.set 5 255 }

/-- The calendar with ticks 0 to 63 of every resource booked to the segment. -/
def cal : List Booking := (List.range 32).map (fun r => ⟨r, 0, 63, 1⟩)

/-- The state in which the strand `t` runs. -/
def st (t : Strand) (k : ClPart) : State :=
  { w1 0 with strands := [(0, t)], parts := [(1, part1)], clParts := [(1, k)]
              mem := (tables.foldl (fun s e => wr64 s e.1 e.2) (w1 0)).mem }

def s0 : State := st sp { cal := cal, quota := 256 }
/-- A supervisor. -/
def sup : Strand := { sp with task := { sp.task with fq := true } }
def s0s : State := st sup { cal := cal, quota := 256 }

/-- With no operation pending no register is leased. -/
theorem ready (s : State) (t : Strand) (i : Instr) (hi : s.Inv) (h : curStrand s = some t) (h0 : s.ops = []) : Ready s t i on := by
  refine ⟨hi, h, ?_, fun r _ => ?_⟩
  · simp [guardOn, on, getP]
  · simp [regLeased, h0]

theorem ready0 (i : Instr) : Ready s0 sp i on := ready _ _ _ (by unfold State.Inv; decide) rfl rfl
theorem readyS (i : Instr) : Ready s0s sup i on := ready _ _ _ (by unfold State.Inv; decide) rfl rfl

/-! ### The world is as it should be -/

theorem test_walk : (walk s0 1 0 0).map (·.fri) = some 4 := by decide
theorem test_page : recPhys s0 1 4 = data := by decide
theorem test_rect : inRect s0 1 0 = true ∧ inRect s0 1 1 = true ∧ inRect s0 1 2 = false := by decide

/-! ### Witnesses: encoding and the machine -/

theorem witness_DecodeEncode : isEvent (.add on 3 1 2) = false ∧ wellFormed (.add on 3 1 2) = true
    ∧ ∀ w, Instr.add on 3 1 2 ≠ .illegalWord w := ⟨by decide, by decide, fun _ h => by cases h⟩

theorem witness_ReservedEncodings :
    (bits (0x57FFFFFFFFFFFFFF : Word) 58 6).toNat = 0x15 ∧ (bits (0x83FFFFFFFFFFFFFF : Word) 58 6).toNat = 0x20
    ∧ (bits (0xBC00000000000000 : Word) 58 6).toNat = 0x2F ∧ (bits (0xCC00000000000000 : Word) 58 6).toNat = 0x33
    ∧ (∃ f, formOf (0x05C00C1080000001 : Word) 0 = some f ∧ isTcwMajor (0x05C00C1080000001 : Word) = false
      ∧ bits (0x05C00C1080000001 : Word) 0 48 &&& ~~~ f.used ≠ 0) := by
  refine ⟨by decide, by decide, by decide, by decide, _, rfl, by decide, by decide⟩

theorem witness_StepKeepsMemoryForm : (w1 0x05C00C1080000000).Inv ∧ Goes (step (w1 0x05C00C1080000000)) := by
  refine ⟨by unfold State.Inv; decide, _, rfl⟩

theorem witness_StepRunsDecoded : ∃ (s : State) (n : Nat) (t : Strand) (i : Instr), s.dev.off = false ∧ s.agenda = []
    ∧ s.cursor < cursorEnd ∧ nextLane s = some (n, t)
    ∧ (let r := flushLines { s with cur := n, cursor := n + 1 } t
       r.2.cycle < endCycle r.1 ∧ r.1.hold ≤ r.2.cycle ∧ eccOwed r.2 r.1.task.id = false ∧ fetchInstr r.2 r.1 = .ok i
        ∧ issueAct r.2 r.1 i = .now ∧ preemptDue r.2 r.1 = false) ∧ t.lineOut = [] :=
  ⟨w1 0x05C00C1080000000, 0, s1, .add on 3 1 2, by decide, by decide, by decide, by decide, ⟨by decide, by decide, by decide, by decide, by decide, by decide⟩, by decide⟩

/-- A line of a store that is due in the cycle is performed before the lane's instruction runs (R160). -/
theorem witness_StepRunsDecoded_line : let t := { s1 with lineOut := [(0, data + 8, toLe 8 5), (4, data, [1])] }
    (flushLines { w1 0x05C00C1080000000 with strands := [(0, t)] } t).1.lineOut = [(4, data, [1])] := by decide

theorem witness_FetchDecodes :
    (s1.pc0.toNat % 8 = 0 ∧ fetchWord (w1 0x05C00C1080000000) s1 s1.pc0 = .ok 0x05C00C1080000000
      ∧ decode (wordBytes 0x05C00C1080000000) = .ok (.add on 3 1 2, []) ∧ s1.ds = 0)
    ∧ (s1.pc0.toNat % 32 = 0 ∧ isTcwMajor 0xC5C0010000004040 = true ∧ s1.ds = 0
      ∧ fetchWord (w1 0xC5C0010000004040) s1 s1.pc0 = .ok 0xC5C0010000004040
      ∧ fetchTail (w1 0xC5C0010000004040) s1 = .ok (0, 0, 0))
    ∧ (syncXl s1 (w1 0) (inCode s1 s1.pc0) s1.pc0.toNat = some ⟨1, 1, sramLoc 0 0, 5, 0, false, true, false⟩ ∧ inCode s1 s1.pc0 = true
      ∧ icFind (getClu (w1 0) 0) 0 1 s1.pc0 = none ∧ pteX 5 = true) := by decide

theorem witness_EveryRowGoesOn : isEvent .timeStep = true ∧ (curStrand s0).isSome = true := by decide

theorem witness_FalseGuard : guardOf (.add off 3 1 2) = some off ∧ guardOf (.b off 8) = some off
    ∧ guardOf (.tmma off 0 1 2 0 0 0 64 64 64) = some off ∧ curStrand s0 = some sp ∧ guardOn off sp = false
    ∧ permitted s0 sp (.add off 3 1 2) = true ∧ permitted s0 sp (.b off 8) = true := by decide

/-- A pending load of g3. -/
def lease3 : State := { s0 with ops := [mkOp s0 sp .fld (some 0) (dstG 3) 3 []] }

theorem witness_DecodeFaults :
    (guardOf (.add on 3 1 2) = some on ∧ curStrand lease3 = some sp ∧ guardOn on sp = true ∧ permitted lease3 sp (.add on 3 1 2) = true
      ∧ RegRef.g 3 ∈ uses (.add on 3 1 2) ∧ regLeased lease3 sp.task.id (.g 3) = true)
    ∧ (curStrand s0 = some sp ∧ permitted s0 sp (.pgfree on 1 2 0) = false ∧ permitted s0 sp (.whisk on 0) = false
      ∧ permitted s0 sp (.ctlrd on 1 0x800) = false) := by decide

/-! ### Witnesses: forms whose only hypothesis is that they may take effect, and small conditions -/

theorem witness_IntegerResults : Ready s0 sp (.add on 3 1 2) on ∧ Ready s0 sp (.addsat on true 3 1 2) on
    ∧ Ready s0 sp (.bfx on 3 1 60 3 true) on ∧ (60 : R6).toNat + (3 : R6).toNat + 1 ≤ 64 :=
  ⟨ready0 _, ready0 _, ready0 _, by decide⟩
theorem witness_DivResults : Ready s0 sp (.div on 3 1 2) on ∧ Ready s0 sp (.rems on 3 1 0) on := ⟨ready0 _, ready0 _⟩
theorem witness_ImmediateResults : Ready s0 sp (.addi on 3 1 5) on ∧ Ready s0 sp (.leai on 3 1 2 5) on := ⟨ready0 _, ready0 _⟩
theorem witness_ConstantForms : Ready s0 sp (.movi on 3 5) on ∧ Ready s0 sp (.movhi on 3 5) on
    ∧ (bits (0x0DC1000000400000 : Word) 58 6 = 3 ∧ bits (0x0DC1000000400000 : Word) 48 6 = 1
      ∧ bits (0x0DC1000000400000 : Word) 22 20 ≠ 0) := ⟨ready0 _, ready0 _, by decide⟩
theorem witness_MoveResults : Ready s0 sp (.mov on 3 1) on ∧ (sp.lane < 8 ∧ sp.cl < 256 ∧ sp.task.pid < 16 ∧ sp.ctx < 8
    ∧ sp.task.fq = false ∧ sup.task.fq = true ∧ sp.seg.gid < 256 ∧ sp.seg.member < 8 ∧ sp.seg.queue < 16 ∧ sp.seg.prio < 128) :=
  ⟨ready0 _, by decide⟩
theorem witness_PredicateResults : Ready s0 sp (.cmp on 2 1 1 5 6 2) on ∧ Ready s0 sp (.cmpi on 5 4 3 7 100) on
    ∧ Ready s0 sp (.pset on 1 3) on ∧ 12 ≤ (15 : BitVec 4).toNat := ⟨ready0 _, ready0 _, ready0 _, by decide⟩
theorem witness_BranchResults : Ready s0 sp (.b on 8) on ∧ Ready s0 sp (.blr on 63 1) on ∧ Ready s0 sp (.loop on 4 0) on :=
  ⟨ready0 _, ready0 _, ready0 _⟩
theorem witness_VectorFpResults : Ready s0 sp (.vadd on 1 2 3 4 0 7 false false) on ∧ Ready s0 sp (.vsqrt on 1 2 4 0 7 true) on
    ∧ Ready s0 sp (.vcmp on 1 2 3 2 4 7 false 0) on := ⟨ready0 _, ready0 _, ready0 _⟩
theorem witness_VectorIntResults : Ready s0 sp (.viadd on 1 2 3 2 7 false true) on
    ∧ Ready s0 sp (.viaddsat on 1 2 3 0 7 false true false) on := ⟨ready0 _, ready0 _⟩
theorem witness_PermuteResults : Ready s0 sp (.mand on 1 2 3) on ∧ Ready s0 sp (.vperm on 1 2 3 0 7 false) on
    ∧ Ready s0 sp (.vextr on 1 2 3 0 true) on := ⟨ready0 _, ready0 _, ready0 _⟩
theorem witness_ReduceResults : Ready s0 sp (.vred on 1 2 4 0 7 0) on ∧ Ready s0 sp (.vdot on 1 2 3 4 0 0 7 false true) on :=
  ⟨ready0 _, ready0 _⟩
theorem witness_ConvertResults : Ready s0 sp (.vunpk on 1 2 3 7 false 4 0 0) on ∧ Ready s0 sp (.vcvt on 1 2 0 5 0 7 false false 4 1 true) on
    ∧ Ready s0 sp (.vpack on 1 2 3 0 0 7 false 4 0 1 true) on := ⟨ready0 _, ready0 _, ready0 _⟩

/-! ### Witnesses: memory forms -/

/-- The page with its full-empty bits in use, and one full word; the page not held. -/
def spFe : Strand := { sp with seg := { sp.seg with xl := [{ page with pte0 := 0x400000103 }] } }
def sFe : State := { st spFe { cal := cal } with fe := [data] }
def spNo : Strand := { sp with seg := { sp.seg with xl := [{ page with wr := false, pte0 := 0x400000101 }] } }
def sNo : State := st spNo { cal := cal }
/-- The memory operand g[1] + 8 × g[0] + n. -/
def at1 (n : BitVec 24) : MemOp := ⟨1, 0, 3, n⟩

theorem witness_ScalarAccess : Ready s0 sp (.ld on 3 3 false false (at1 0)) on
    ∧ accessCause s0 sp .load .full 64 8 8 = none ∧ accessCause s0 sp .load .any 64 8 8 = none
    ∧ accessCause s0 sp .store .empty 64 8 8 = none ∧ accessCause s0 sp .store .any 64 8 8 = none
    ∧ accessCause sFe spFe .load .page 0 8 8 = none ∧ accessCause sFe spFe .store .pageEmpty 64 8 8 = none
    ∧ accessCause sFe spFe .store .page 64 8 8 = none ∧ accessCause sFe spFe .take .page 0 8 8 = none
    ∧ accessCause sFe spFe .take .page 64 8 8 = none ∧ accessCause sFe spFe .probe .page 0 8 8 = none
    ∧ feGet sFe (accessPhys sFe spFe 0) = true ∧ feGet sFe (accessPhys sFe spFe 64) = false ∧ pipeBound sFe spFe 64 = false
    ∧ settled sFe spFe = true ∧ settled sFe { spFe with pend := [(.g 3, 9)] } = false ∧ watchesUsed sFe 0 < 64
    ∧ curStrand sFe = some spFe := ⟨ready0 _, by decide⟩

/-- A channel's copy holds a lease of the first 8 bytes of the page; they hold an uncorrectable error. -/
def sLeased : State := { s0 with ops := [{ mkOp s0 sp .cpy (some 0) none 3 [] with leases := [(4, 0, 8)] }] }
def sEcc : State := { s0 with poison := [data] }
/-- The full word, and an empty one, with an uncorrectable error. -/
def sFeEcc : State := { sFe with poison := [data, data + 64] }

theorem witness_AccessChecks :
    syncXl sp s0 false 65536 = none ∧ syncXl sp s0 false 0 = some page
    ∧ rangeLeased sLeased 0 data 8 = true ∧ accessCause sLeased sp .store .any 0 8 8 = some .lease
    ∧ (syncXl spNo sNo false 0).map (fun x => pteW x.pte0) = some false
    ∧ (pteFe 0x400000103 = true ∧ feGet sFe data = true ∧ feGet sFe (data + 8) = false)
    ∧ accessCause sNo spNo .store .any 0 8 8 = some .protection ∧ accessCause sFe spFe .load .full 8 8 8 = some .protection
    ∧ accessCause sFe spFe .store .empty 0 8 8 = some .protection ∧ accessCause s0 sp .take .page 0 8 8 = some .protection
    ∧ accessCause s0 sp .store .page 0 8 8 = some .protection ∧ accessCause sFe spFe .store .pageEmpty 0 8 8 = some .protection
    ∧ accessCause s0 sp .load .any 4 8 1 = none ∧ accessCause s0 sp .load .any 4 8 8 = some .align
    ∧ accessCause sEcc sp .load .any 0 8 8 = some .memoryEcc ∧ accessCause s0 sp .load .any 64 128 128 = some .align
    ∧ accessCause s0 sp .store .any 64 128 128 = some .align ∧ accessCause s0 sp .store .empty 65536 8 8 = some .residency
    ∧ accessCause sEcc sp .load .any 4 8 8 = some .align ∧ accessCause sFeEcc spFe .load .full 0 8 8 = some .memoryEcc
    ∧ accessCause sFeEcc spFe .take .page 0 8 8 = some .memoryEcc ∧ accessCause sFeEcc spFe .take .page 64 8 8 = none
    ∧ accessCause sFeEcc spFe .probe .page 0 8 8 = none ∧ vecCause s0 sp .load .any 8 8 [0, 65536, 4] = some (.residency, 65536)
    ∧ vecCause s0 sp .store .any 8 8 [0, 4] = some (.align, 4) := by decide

theorem witness_VectorAccess : Ready s0 sp (.vld on 1 false (at1 64)) on ∧ effAddr (at1 64) sp = 128
    ∧ accessCause s0 sp .load .any 128 128 128 = none ∧ accessCause s0 sp .store .any 128 128 128 = none
    ∧ 2 ≤ (3 : BitVec 2).toNat ∧ vecCause s0 sp .load .any 8 8 (strideAddrs (at1 0) 64 sp) = none
    ∧ vecCause s0 sp .store .any 8 8 (gatherAddrs (at1 0) 64 sp) = none
    ∧ sp.lineBuf = [] ∧ endCycle sp ≤ ({ s0 with cycle := 8 * 4096 } : State).cycle := ⟨ready0 _, by decide⟩

/-- A store of two lines in one cycle: the first line is performed now and the second waits (R160). -/
theorem witness_VectorAccess_lines : lineTime s0 sp [data, data + 128] 8 data ≤ s0.cycle
    ∧ s0.cycle < lineTime s0 sp [data, data + 128] 8 (data + 128)
    ∧ lineTime s0 sp [data, data + 128] 8 (data + 128) < endCycle sp := by decide

/-- An instruction of every family that reads memory raises a check's cause: the address lies in no page, in a page that is not
held for writing, and between two elements. -/
theorem witness_AccessChecks_forms : Ready s0 sp (.ld on 3 3 false false (at1 65536)) on ∧ Ready s0 sp (.vgath on 1 3 false (at1 4)) on
    ∧ accessCause s0 sp .load .full (effAddr (at1 65536) sp) 8 8 = some .residency
    ∧ (∃ v, vecCause s0 sp .load .any 8 8 (gatherAddrs (at1 4) 64 sp) = some (.align, v)) := ⟨ready0 _, ready0 _, by decide, _, rfl⟩

/-! ### Witnesses: requests, segments, system forms -/

/-- Counter 0 full. -/
def spFull : Strand := { sp with c := sp.c.set 0 0xFFFF }
def sFull : State := st spFull { cal := cal }
/-- Sixteen operations on channel 0; and the calendar without a booking. -/
def op0 : Op := mkOp s0 sp .cpy (some 0) none 3 []
def s16 : State := { s0 with ops := List.replicate 16 { op0 with task := 9 } }
def sBare : State := st sp {}

theorem witness_EngineRequests : Ready s0s sup (.pgmap on 3 1 2 1 0) on ∧ Ready s0s sup (.sfork on false 3 1 2 4) on
    ∧ permitted s0s sup (.pgmap on 3 1 2 1 0) = true ∧ permitted s0s sup (.ssetC on 3 1 1) = true ∧ CtrFree sup 1
    ∧ permitted sFull spFull (.pgalloc on 3 1 2 0) = true ∧ ¬ CtrFree spFull 0 ∧ curStrand sFull = some spFull ∧ sFull.ops = [] :=
  ⟨readyS _, readyS _, by unfold CtrFree; decide⟩

theorem witness_DataForms : Ready s0 sp (.cpy on 0 false 3 1 2 3 0) on ∧ chanBooked sBare sp 0 = false ∧ sBare.ops = []
    ∧ chanBooked s0 sp 0 = true ∧ chanBooked sFull spFull 0 = true ∧ CtrFree sp 0 ∧ ¬ CtrFree spFull 0
    ∧ ((getG sp 1).toNat % 8 = 0 ∧ (getG sp 2).toNat % 8 ≠ 0 ∧ (getG sp 3).toNat % 8 = 0)
    ∧ (chanOps s0 0 0).length < 16 ∧ 16 ≤ (chanOps s16 0 0).length ∧ settled s16 sp = true
    ∧ (getC sp 0).toNat ≤ (0 : BitVec 16).toNat ∧ (5 : BitVec 16).toNat < (getC spFull 0).toNat ∧ settled sFull spFull = true :=
  ⟨ready0 _, by unfold CtrFree; decide⟩

theorem witness_ready16 : Ready s16 sp (.cpy on 0 false 3 1 1 3 0) on := by
  refine ⟨by unfold State.Inv; decide, rfl, by decide, ?_⟩
  decide

theorem witness_AtomicResults : Ready s0 sp (.aadd on 3 1 0 3 false 0) on ∧ atomLocal sp 64 = true
    ∧ accessCause s0 sp .store .any 64 8 8 = none ∧ eccBad s0 (accessPhys s0 sp 64) 8 = false
    ∧ atomLocal sp 65536 = false ∧ CtrFree sp 0 ∧ (65536 : Nat) % 8 = 0 ∧ (65540 : Nat) % 8 ≠ 0 :=
  ⟨ready0 _, by unfold CtrFree; decide⟩

theorem witness_SegmentEnds : Ready s0 sp (.segend on 1) on ∧ Ready s0 sp (.split on true 5) on ∧ Ready s0 sp (.exit on) on
    ∧ ((getG sp 1).setWidth 48 : Va).toNat % 8 = 0 ∧ settled s0 sp = true ∧ ((getG sp 2).setWidth 48 : Va).toNat % 8 ≠ 0
    ∧ inRect s0 1 (32 * dieOf 0 + (getG sp 1).toNat % 32) = true ∧ inRect s0 1 (32 * dieOf 0 + (getG sp 5).toNat % 32) = false :=
  ⟨ready0 _, ready0 _, ready0 _, by decide⟩

/-- A strand with a write of g3 pending waits before it ends its segment (R227). -/
theorem witness_SegmentEnds_wait : let t := { sp with pend := [(.g 3, 9)] }
    curStrand (st t { cal := cal }) = some t ∧ guardOn on t = true ∧ settled (st t { cal := cal }) t = false := by decide

theorem witness_Traps : Ready s0 sp (.trap on 1 9) on ∧ 1 ≤ (9 : BitVec 32).toNat % 256 ∧ (9 : BitVec 32).toNat % 256 ≤ 24
    ∧ Ready s0 sp (.brk on 0) on ∧ Ready s0 sp (.syscall on 1 0) on := ⟨ready0 _, by decide, by decide, ready0 _, ready0 _⟩

theorem witness_ControlRegisters : Ready s0 sp (.ctlrd on 3 0) on ∧ Ready s0 sp (.ctlwr on 0 6) on ∧ Ready s0s sup (.qcfg on true 3 1 0) on
    ∧ ctlDenied 0 sp = false ∧ (getG sp 6).toNat < 4 ∧ 4 ≤ (getG sp 1).toNat ∧ sup.task.fq = true
    ∧ (2 ≤ (0x190 : BitVec 12).toNat ∧ ctlDenied 0x190 sup = false ∧ ctlReadOnly 0x190 = false)
    ∧ (ctlReserved 0x190 8 = true ∧ ctlReserved 0x190 7 = false) ∧ (ctlDenied 0x300 sup = false ∧ ctlReadOnly 0x181 = true)
    ∧ ctlDenied 0x181 sup = false ∧ ((getG sup 3).getLsbD 3 = true ∧ (getG sup 2).getLsbD 3 = false ∧ (getG sup 2).toNat < 2 ^ 18) :=
  ⟨ready0 _, ready0 _, readyS _, by decide⟩

theorem witness_BoundaryRequests : Ready s0 sp (.book on true 3 1) on ∧ Ready s0 sp (.pipebind on false 3 1) on
    ∧ Ready s0s sup (.resume on 3 1) on ∧ (getG sp 1).toNat % 2 ^ 48 % 8 = 0
    ∧ (∃ r, laneRead s0 sp ((getG sp 1).toNat % 2 ^ 48) 16 = .ok r) ∧ sup.task.fq = true ∧ 256 ≤ (getG sup 4).toNat
    ∧ (getG sup 1).toNat < 256 := ⟨ready0 _, ready0 _, readyS _, by decide, ⟨_, rfl⟩, by decide⟩

/-- A task descriptor at VA 64: entry 4096, priority 5; a gang descriptor of one member at VA 512. -/
def desc : List (Nat × Word) := [(data + 64, 0x5000000001000), (data + 512, 0x1000101), (data + 544, 0x1000)]
def withDesc (s : State) : State := desc.foldl (fun s e => wr64 s e.1 e.2) s
/-- Queue 0 open to users, with PMAX 100; queue 1 shut. -/
def kq : ClPart := { cal := cal, ctl := [(0x190, 0x643), (0x191, 0x642)] }
def sq : State := withDesc (st sp kq)
def sqNo : State := withDesc (st sp { cal := cal })
def spG : Strand := { sp with g := sp.g.set 1 512 }
def sqG : State := withDesc (st spG kq)

theorem witness_QueueEntries : Ready sq sp (.qpush on 1 0) on ∧ Ready sqG spG (.gang on 1 0) on
    ∧ (getG sp 1).toNat % 2 ^ 48 % 32 = 0
    ∧ (∃ r, laneRead sq sp 64 32 = .ok r ∧ (r.words.getD 0 0).toNat < 2 ^ 55 ∧ (r.words.getD 0 0).toNat % 8 = 0
     )
    ∧ (cpCtl sqNo 0 1 0x190).getLsbD 1 = false ∧ sp.task.fq = false
    ∧ ((cpCtl sq 0 1 0x190).getLsbD 1 = true ∧ queueShut sq 0 1 0 = false)
    ∧ ((cpCtl sq 0 1 0x191).getLsbD 1 = true ∧ queueShut sq 0 1 1 = true)
    ∧ (∃ r, laneRead sqG spG 512 32 = .ok r ∧ (r.words.getD 0 0).toNat % 16 = 1)
    ∧ (∃ r, laneRead sqG spG 512 64 = .ok r)
    ∧ CtrFree sp 0 ∧ (getG sp 3).toNat < 2 ^ 12 ∧ (getG sp 2).toNat < 2 ^ 12
    ∧ inRect sq 1 (8 % 8 * 32 + 8 / 8 % 32) = true ∧ inRect sq 1 (7 % 8 * 32 + 7 / 8 % 32) = false := by
  refine ⟨ready _ _ _ (by unfold State.Inv; decide) rfl rfl, ready _ _ _ (by unfold State.Inv; decide) rfl rfl, by decide, ⟨_, rfl, by decide⟩, by decide, by decide, by decide, by decide,
    ⟨_, rfl, by decide⟩, ⟨_, rfl⟩, by unfold CtrFree; decide⟩

/-! ### Witnesses: descriptors, payloads, messages -/

/-- `s` with words stored in the data page from offset `a`, and with words of the code page's neighbours left. -/
def put (a : Nat) (ws : List Word) (s : State) : State :=
  (ws.zip (List.range ws.length)).foldl (fun s e => wr64 s (data + a + 8 * e.2) e.1) s

/-- `sp` with one g register changed. -/
def withG (r : Nat) (x : Word) : Strand := { sp with g := sp.g.setIfInBounds r x }

def s4 : ClPart := { cal := cal, quota := 256 }
def attdWords : List Word := [1024, 2 ^ 48 + 2048, 0, 64 * 2 ^ 40]
def lfiltWords : List Word := [0, 1000 + 8 * 2 ^ 32, 0, 128]
def kvWords : List Word := [0, 0, 0, 0, 4]
def sAttd : State := put 64 attdWords s0
def sLfilt : State := put 64 lfiltWords s0
def sKv : State := put 64 kvWords s0

theorem witness_DescriptorForms : Ready sAttd sp (.attd on 0 1 0) on ∧ Ready sLfilt sp (.lfilt on 0 1 0) on
    ∧ Ready sKv sp (.kvapp on 0 0 6 1 0) on
    ∧ (¬ CtrFree spFull 0 ∧ CtrFree sp 0 ∧ (getG sp 1).toNat % 64 = 0 ∧ (getG sp 2).toNat % 64 ≠ 0
      ∧ (getG (withG 1 (2 ^ 20)) 1).toNat % 64 = 0 ∧ inPageSet (withG 1 (2 ^ 20)) (2 ^ 20) = false)
    ∧ (∃ r, laneRead sAttd sp 64 64 = .ok r ∧ (r.words.getD 0 0).toNat < 2 ^ 59
      ∧ (r.words.getD 1 0).toNat / 2 ^ 48 = 1 ∧ (r.words.getD 2 0) = 0 ∧ (r.words.getD 3 0).toNat = 64 * 2 ^ 40
      ∧ ∀ k, k < 4 → r.words.getD (4 + k) 0 = 0)
    ∧ (∃ r, laneRead sLfilt sp 64 64 = .ok r ∧ r.words.getD 0 0 = 0
      ∧ (r.words.getD 1 0).toNat = 1000 + 8 * 2 ^ 32 ∧ thrBad false 0 = false ∧ (r.words.getD 3 0) = 128
      ∧ ∀ k, k < 4 → r.words.getD (4 + k) 0 = 0)
    ∧ (∃ r, laneRead s0 sp 64 64 = .ok r ∧ (r.words.getD 1 0).toNat % 2 ^ 24 = 0)
    ∧ (chanBooked sKv sp 0 = true ∧ ∃ r, laneRead sKv sp 64 64 = .ok r ∧ r.words.getD 4 0 = 4
      ∧ kvappLen sKv sp 0 4 0 = (0, 0) ∧ pageAway sKv sp 0 = false ∧ inWriteSet sp 0 = true
      ∧ (chanOps sKv 0 0).length < 16) :=
  ⟨ready _ _ _ (by unfold State.Inv; decide) rfl rfl, ready _ _ _ (by unfold State.Inv; decide) rfl rfl, ready _ _ _ (by unfold State.Inv; decide) rfl rfl, by unfold CtrFree; decide, ⟨_, rfl, by decide⟩, ⟨_, rfl, by decide⟩,
    ⟨_, rfl, by decide⟩, by decide, _, rfl, by decide⟩

/-- A second die: rows 0 to 3 of the package. -/
def sDies : State := { s0 with parts := [(1, { part1 with words := part1.words.set 0 (BitVec.ofNat 64 (8 * 2 ^ 12 + 32 * 2 ^ 16 + 2 ^ 25)) })] }
/-- g6 names cluster 0 of die 0 with 64 bytes of payload; g7 a cluster outside the partition. -/
def spM : Strand := { sp with g := sp.g.set 6 (64 * 2 ^ 32) |>.set 7 (64 * 2 ^ 32 + 31 * 2 ^ 3) }
def sM : State := st spM { cal := cal }
/-- Clusters 0 and 1 as the domain of KIND 1; layouts of four FP32 elements, partial and whole. -/
def die1 : Domain := { word := BitVec.ofNat 64 (1 + 2 ^ 14 + 2 * 2 ^ 18) }
def layX : List Word := [BitVec.ofNat 64 (1024 + 2 ^ 48 + 2 ^ 54), 4 + 2 ^ 32, 1 + 2 ^ 32, 2 ^ 16, BitVec.ofNat 64 (1 + 2 * 2 ^ 6 + 2 ^ 14 + 2 ^ 22), 0, 0, 0]
def layY : List Word := [BitVec.ofNat 64 (2048 + 2 ^ 48 + 2 ^ 54), 4 + 2 ^ 32, 1 + 2 ^ 32, 0, BitVec.ofNat 64 (1 + 2 * 2 ^ 6 + 2 ^ 14 + 2 ^ 22), 0, 0, 0]
def sColl : State := updDp (put 0 (layX ++ layY) s0) 0 1 (fun k => { k with domains := [(0, die1)] })

theorem witness_PayloadForms : CtrFree sp 0 ∧ Ready s0 sp (.commit on 6 1 0 0) on ∧ Ready s0 sp (.dqsend on 0 2 0) on
    ∧ Ready sM spM (.msend on 0 5 0 6 0) on ∧ Ready s0 sp (.sstepB on 6 0 0) on ∧ Ready sColl sp (.coll on 6 0 0) on
    ∧ (∃ r, laneRead s0 sp 0 72 = .ok r ∧ r.words.getD 0 0 = 0)
    ∧ (∃ r, laneRead (put 0 [2, 5, 6] s0) sp 0 72 = .ok r ∧ r.words.getD 0 0 = 2)
    ∧ ((getG sp 2).toNat / 8 = 0 ∧ (getG sp 2).toNat % 8 ≠ dieOf sp.cl ∧ (partDies s0 1).contains 7 = false
      ∧ (partDies sDies 1).contains 7 = true) := by
  refine ⟨by unfold CtrFree; decide, ready _ _ _ (by unfold State.Inv; decide) rfl rfl, ready _ _ _ (by unfold State.Inv; decide) rfl rfl, ready _ _ _ (by unfold State.Inv; decide) rfl rfl, ready _ _ _ (by unfold State.Inv; decide) rfl rfl,
    ready _ _ _ (by unfold State.Inv; decide) rfl rfl, ⟨_, rfl, by decide⟩, ⟨_, rfl, by decide⟩, by decide⟩

theorem witness_PayloadForms_sends : (∃ r, laneRead sDies sp 0 256 = .ok r)
    ∧ (segBooked sM spM 31 (tickNow sM) (tickNow sM) = true ∧ segBooked sBare sp 31 (tickNow sBare) (tickNow sBare) = false
      ∧ spM.lastSend ≠ tickNow sM + 1 ∧ targetBad (getG spM 6) = false ∧ targetBad (getG spM 7) = false
      ∧ targetOut sM 1 (getG spM 6) = false ∧ targetOut sM 1 (getG spM 7) = true)
    ∧ (∃ r, laneRead sM spM 0 64 = .ok r) := by
  refine ⟨⟨_, rfl⟩, by decide, ⟨_, rfl⟩⟩

theorem witness_PayloadForms_stream : slotStart s0 sp 0 = true
    ∧ (∃ r, laneRead (put 0 [2 * 2 ^ 24] s0) sp 0 (64 + 32 * 2) = .ok r
      ∧ (∃ r0, laneRead (put 0 [2 * 2 ^ 24] s0) sp 0 64 = .ok r0 ∧ (r0.words.getD 0 0).toNat / 2 ^ 24 = 2)
      ∧ ∃ q, laneRead r.st sp 4096 (8 * 2) = .ok q)
    ∧ (∃ r, laneRead sColl sp 0 128 = .ok r
      ∧ collCause sColl sp ⟨r.words.take 8⟩ ⟨r.words.drop 8⟩ = none ∧ collCause s0 sp ⟨r.words.take 8⟩ ⟨r.words.drop 8⟩ = some .layout) :=
  ⟨by decide, ⟨_, rfl, ⟨_, rfl, by decide⟩, _, rfl⟩, ⟨_, rfl, by decide⟩⟩

/-- A filter record of two tokens at VA 64, and draft heads. -/
def sFilt : State := put 64 [0x3F800000, 0, 2] s0
def spAcc : Strand := { sp with g := sp.g.set 6 (1 + 1 * 2 ^ 8) }

theorem witness_SampleAccept : Ready sFilt sp (.sample on 6 1 2 3) on ∧ Ready sFilt sp (.accept on 6 1 0) on
    ∧ (∃ r, laneRead sFilt sp 64 (64 + 8 * 2) = .ok r)
    ∧ ((getG sp 0).toNat % 32 = 0 ∧ laneWord sFilt sp 80 = 2 ∧ ((getG spAcc 6).toNat % 32 = 1 ∧ (getG spAcc 6).toNat / 2 ^ 8 = 1
      ∧ (getG spAcc 6).toNat / 32 % 8 = 0)
      ∧ (∀ u ∈ wordVas 64 64, inPageSet spAcc u = true ∧ eccBad s0 (accessPhys s0 spAcc (BitVec.ofNat 48 u)) 8 = false))
    ∧ (([0, 0, 0] : List Word).getD 2 0).toNat % 2 ^ 9 = 0 :=
  ⟨ready _ _ _ (by unfold State.Inv; decide) rfl rfl, ready _ _ _ (by unfold State.Inv; decide) rfl rfl, ⟨_, rfl⟩, by decide, by decide⟩

/-- A message of 8 bytes in the inbox, and an entry of the queue from die 7 with sequence number 0. -/
def msg1 : Msg := ⟨5 * 2 ^ 16, toLe 8 9⟩
def sMsg : State := { st sp { cal := cal, inbox := [msg1] } with parts := sDies.parts }
def sDq : State := updDp sDies 0 1 (fun k => { k with dqIn := [(7, [(0, toLe 256 9)])] })
def spQ : Strand := withG 2 (7 + 5 * 2 ^ 16)

theorem witness_Receives : Ready sMsg sp (.mrecv on false 6 0 1) on ∧ Ready sDq sp (.dqrecv on 6 0 2) on
    ∧ (destLeased sMsg sp 0 256 = none ∧ destCause sMsg sp 0 256 = none ∧ (getCp sMsg 0 1).inbox.find? (msgMatches false 64) = some msg1
      ∧ (∀ m ∈ (getCp sMsg 0 1).inbox, msgMatches true 64 m = false) ∧ settled sMsg sp = true)
    ∧ ((getG sp 2).toNat / 8 % 2 ^ 13 = 0 ∧ 7 ≠ dieOf sp.cl ∧ (partDies sDq 1).contains 7 = true
      ∧ (tabGet (getDp sDies 0 1).dqIn 7).getD [] = [] ∧ (tabGet (getDp sDq 0 1).dqIn 7).getD [] = [(0, toLe 256 9)]
      ∧ (getG sp 2).toNat / 2 ^ 16 = 0 ∧ (getG spQ 2).toNat / 2 ^ 16 = 5)
    ∧ lineEnd sDq sp ((wordVas 0 256).map (fun v => accessPhys sDq sp (BitVec.ofNat 48 v))) 8 < endCycle sp
    ∧ endCycle { sp with seg := { sp.seg with len := 0 } } ≤ lineEnd sDq sp [data] 8 :=
  ⟨ready _ _ _ (by unfold State.Inv; decide) rfl rfl, ready _ _ _ (by unfold State.Inv; decide) rfl rfl, by decide, by decide, by decide⟩

def sFence : State := { s0 with ops := [op0] }
def kEn : ClPart := { cal := cal, ctl := [(0x1C1, 3)] }

/-- KIND 0 domains of which the arrival is not the last, the last of a phase, and one during sweeps. -/
def dom0 (d : Domain) : State := st sp { cal := cal, domains := [(2, d)] }
def two : Word := 2 + 2 ^ 14 + 2 ^ 18

theorem witness_Barriers_phase :
    (let d : Domain := { word := two }
     memPer d.word ≠ 0 ∧ (domMembers 8 0 d.word).contains 0 = true ∧ d.arr + 1 < domTot (dom0 d) 1 8 0 d.word ∧ getDom (dom0 d) 1 8 0 = d)
    ∧ (let d : Domain := { word := two, arr := 1 }
       d.arr + 1 = domTot (dom0 d) 1 8 0 d.word ∧ (d.phase || true) = true ∧ getDom (dom0 d) 1 8 0 = d)
    ∧ (let d : Domain := { word := two, arr := 2, phase := true, sweep := 1 }
       d.sweep ≠ 0 ∧ (d.phase || false) = true ∧ getDom (dom0 d) 1 8 0 = d) := by decide

theorem witness_FenceWhisk : Ready s0 sp (.fence on 1 0) on ∧ (op0 ∈ sFence.ops ∧ op0.task = sp.task.id)
    ∧ Ready (st sp kEn) sp (.whisk on 0) on ∧ permitted (st sp kEn) sp (.whisk on 0) = true
    ∧ (cpCtl (st sp kEn) 0 1 0x1C1).getLsbD 0 = true ∧ permitted s0s sup (.whisk on 0) = true
    ∧ (cpCtl s0s 0 1 0x1C1).getLsbD 0 = false :=
  ⟨ready0 _, by decide, ready _ _ _ (by unfold State.Inv; decide) rfl rfl, by decide⟩

/-- KIND 0 domain 16 of cluster 0 (PER 1), and the die's domain 0 (selector 1). -/
def sBar : State := updDp (st sp { cal := cal, domains := [(2, { word := 1 + 2 ^ 14 + 2 ^ 18 })] }) 0 1 (fun k => { k with domains := [(0, die1)] })
def spB : Strand := withG 1 1
def spRes : Strand := { sp with resumed := some (4, 8) }

theorem witness_Barriers : Ready sBar sp (.bar on 6 3) on ∧ Ready sBar sp (.phase on 6 3) on
    ∧ (spRes.resumed = some (4, 8) ∧ sp.resumed = none ∧ 64 ≤ (getG sp 1).toNat ∧ (getG sp 3).toNat < 64
      ∧ memPer (getDom s0 1 8 0).word = 0 ∧ memPer (getDom sBar 1 8 0).word ≠ 0
      ∧ (domMembers 8 0 (getDom sBar 1 8 0).word).contains 0 = true ∧ (getDom sBar 1 8 0).phase = false
      ∧ (getDom sBar 1 8 0).sweep = 0 ∧ (getDom sBar 1 8 0).arr + 1 = domTot sBar 1 8 0 (getDom sBar 1 8 0).word)
    ∧ ((getG spB 1).toNat = 1 ∧ memPer (getDom sBar 1 1 0).word ≠ 0
      ∧ (domMembers 1 0 (getDom sBar 1 1 0).word).contains 0 = true
      ∧ (domMembers 1 0 ({ word := BitVec.ofNat 64 (1 + 2 ^ 9 + 2 ^ 14 + 2 ^ 18) } : Domain).word).contains 0 = false
      ∧ settled sBar spB = true) :=
  ⟨ready _ _ _ (by unfold State.Inv; decide) rfl rfl, ready _ _ _ (by unfold State.Inv; decide) rfl rfl, by decide, by decide⟩

/-! ### Witnesses: positions, attention, tiles -/

theorem witness_AttentionForms : Ready s0 sp (.attmS on 3 1 2) on ∧ Ready s0 sp (.attmV on 3 1 2 4 7 false) on
    ∧ Ready s0 sp (.vrope on 3 1 2 4 7 false true false) on ∧ Ready s0 sp (.vldb on 3 0 2 1 0) on
    ∧ (∃ pg, vldbPage s0 sp 0 1 = .ok pg ∧ pg.hg = none ∧ pg.v.blk = 0
      ∧ (let rd := (vldbPlaces pg 1 0 7).map (fun e => (pg.v.phys + eltByte pg.v.w e.1 1 e.2.1 e.2.2, eltBytes pg.v.w))
         (∀ e ∈ rd, eccBad s0 e.1 e.2 = false)
         ∧ lastLine (relCycle sp s0) (lineCycles sp.lane (relCycle sp s0) (linesOf rd ++ linesOf []) []) < 8 * sp.seg.len)) :=
  ⟨ready0 _, ready0 _, ready0 _, ready0 _, _, rfl, by decide⟩

/-! ### Witnesses: where the forms of these statements raise a cause -/

/-- An address in no page of the page set; and an uncorrectable error in the words behind a descriptor or a header. -/
def away : Nat := 2 ^ 20
def badAt (a : Nat) (s : State) : State := { s with poison := [data + a] }

theorem witness_AtomicResults_raises : atomLocal sp 68 = true ∧ accessCause s0 sp .store .any 68 8 8 = some .align
    ∧ atomLocal sp 0 = true ∧ accessCause sEcc sp .store .any 0 8 8 = none ∧ eccBad sEcc (accessPhys sEcc sp 0) 8 = true
    ∧ atomLocal spFull 65536 = false ∧ ¬ CtrFree spFull 0 := by unfold CtrFree; decide

theorem witness_QueueEntries_raises : (getG sp 2).toNat % 2 ^ 48 % 32 ≠ 0 ∧ away % 32 = 0
    ∧ laneRead s0 sp away 32 = .error (.residency, away)
    ∧ (∃ r, laneRead (badAt 544 sqG) spG 512 32 = .ok r ∧ (r.words.getD 0 0).toNat % 16 = 1)
    ∧ laneRead (badAt 544 sqG) spG 512 64 = .error (.memoryEcc, 544)
    ∧ (∃ r, laneRead (put 64 [4] s0) sp 64 32 = .ok r ∧ (r.words.getD 0 0).toNat % 8 ≠ 0)
    ∧ 2 ^ 12 ≤ (getG sp 4).toNat := ⟨by decide, by decide, rfl, ⟨_, rfl, by decide⟩, rfl, ⟨_, rfl, by decide⟩, by decide⟩

theorem witness_PayloadForms_raises : (getG sp 1).toNat % 2 ^ 48 % 128 ≠ 0 ∧ (getG sp 1).toNat / 8 % 2 ^ 13 ≠ 0
    ∧ laneRead s0 sp away 72 = .error (.residency, away) ∧ laneRead s0 sp away 256 = .error (.residency, away)
    ∧ targetBad (getG sp 5) = true ∧ slotStart s0 sp 64 = false
    ∧ laneRead (badAt 8 s0) sp 0 64 = .error (.memoryEcc, 8)
    ∧ (∃ r, laneRead (badAt 64 (put 0 [2 * 2 ^ 24] s0)) sp 0 64 = .ok r ∧ (r.words.getD 0 0).toNat / 2 ^ 24 % 128 = 2)
    ∧ laneRead (badAt 64 (put 0 [2 * 2 ^ 24] s0)) sp 0 (64 + 32 * 2) = .error (.memoryEcc, 64)
    ∧ laneRead s0 sp away 128 = .error (.residency, away)
    ∧ (∃ r, laneRead (put 0 [2 * 2 ^ 24] s0) sp 0 (64 + 32 * 2) = .ok r ∧ laneRead r.st sp away 16 = .error (.residency, away)) :=
  ⟨by decide, by decide, rfl, rfl, by decide, by decide, rfl, ⟨_, rfl, by decide⟩, rfl, rfl, _, rfl, rfl⟩

theorem witness_SampleAccept_raises : (getG sp 2).toNat % 2 ^ 48 % 64 ≠ 0 ∧ (∀ u ∈ wordVas 7 64, inPageSet sp u = true)
    ∧ (∃ u ∈ wordVas away 64, inPageSet sp u = false) ∧ (∀ u ∈ wordVas 64 80, inPageSet sp u = true)
    ∧ (∃ u ∈ wordVas 64 64, eccBad (badAt 72 sFilt) (accessPhys (badAt 72 sFilt) sp (BitVec.ofNat 48 u)) 8 = true) := by decide

theorem witness_Receives_raises : (destLeased sLeased sp 0 256).isSome = true ∧ destLeased s0 sp away 256 = none
    ∧ destCause s0 sp away 256 = some (.residency, away) ∧ destCause s0 sp 64 256 = some (.align, 64)
    ∧ (getG sp 1).toNat / 8 % 2 ^ 13 ≠ 0 ∧ (partDies s0 1).contains 7 = false ∧ 7 ≠ dieOf sp.cl := by decide

theorem witness_AttentionForms_raises : (∃ v, vldbPage s0 sp away 1 = .error (.residency, v))
    ∧ (∃ pg, vldbPage sEcc sp 0 1 = .ok pg ∧ ∃ e ∈ vldbPlaces pg 1 0 0,
        eccBad sEcc (pg.v.phys + eltByte pg.v.w e.1 1 e.2.1 e.2.2) (eltBytes pg.v.w) = true) := ⟨⟨_, rfl⟩, _, rfl, by decide⟩

/-- TMMA over the data page with all 64 rows and columns; TDRAIN into it; a send to the eastern neighbour. -/
def mma : Instr := .tmma on 1 0 0 0 0 0 64 64 16
theorem witness_TileCommands : Ready s0 sp (.tzero on 1) on ∧ Ready s0 sp mma on ∧ Ready s0 sp (.tdrain on 1 0 0 4 false 64 64 0 0) on
    ∧ (∀ o ∈ [(8, 2), (10, 2), (17, 2), (24, 2)], ∀ n, n < 2 →
        bookedTo (getCp s0 0 1).cal sp.seg.sid o.1 (sp.seg.start + max (relCycle sp s0 / 8 + 1) sp.tileF + n) = true)
    ∧ (∃ o ∈ [(8, 1), (10, 1)], ∃ n, n < 1 ∧ bookedTo (getCp sBare 0 1).cal sp.seg.sid o.1
        (sp.seg.start + max (relCycle sp sBare / 8 + 1) sp.tileF + n) = false)
    ∧ (∃ q, mulPrep 0 1 0 0 0 0 0 64 64 sp s0 = .ok q ∧ q.acc = some 1)
    ∧ (∃ e, mulPrep 0 1 2 0 0 0 0 64 64 sp s0 = .error e ∧ e.1 = .align)
    ∧ (∃ q, drainPrep 1 0 0 64 64 none none 0 [0, 0, 0, 0, 0, 0, 0] sp s0 = .ok q ∧ q.acc = some 1) := by
  refine ⟨ready0 _, ready0 _, ready0 _, by decide, ⟨(8, 1), by decide⟩, ⟨_, rfl, by decide⟩, ⟨_, rfl, by decide⟩, _, rfl, by decide⟩

/-- A pending tile command. -/
def tc (i : Instr) (args : List Word) (pages : List TilePage) : TileCmd :=
  ⟨1, i, sp.task.id, sp.seg.sid, 0, 0, 0, 0, 15, [], args, pages, [], [], some 1, false, none, 0, [], false⟩
def tpage : TilePage := ⟨0, data, 1, 0, 0, 0, 0, 0, 0, none⟩
def kTile (c : TileCmd) : State :=
  { st sp { cal := cal, tiles := [c] } with ev := { cl := 0, pid := 1, id := 1 } }

theorem witness_TileShortForms : Ready s0 sp (.tcommit on 6) on ∧ Ready s0 sp (.twait on 2) on ∧ Ready s0 sp (.taccrd on 3 1 5 true) on
    ∧ (let t := { sp with batchNo := 8, commits := [(7, 40)] }
       (getG t 2).toNat % 2 ^ 16 < t.batchNo ∧ (∀ e ∈ t.commits, e.2 < 8 * t.seg.start + 8 * t.seg.len)
        ∧ s0.cycle < 8 * t.seg.start + 8 * t.seg.len)
    ∧ ((∃ c ∈ (getCp (kTile (tc (.tzero on 1) [] [])) 0 1).tiles, c.acc = some 1) ∧ (∀ c ∈ (getCp s0 0 1).tiles, c.acc ≠ some 1)
      ∧ bookedTo (getCp s0 0 1).cal sp.seg.sid 10 (tickNow s0) = true
      ∧ bookedTo (getCp sBare 0 1).cal sp.seg.sid 10 (tickNow sBare) = false) := by
  refine ⟨ready0 _, ready0 _, ready0 _, by decide, ⟨_, List.mem_singleton.2 rfl, rfl⟩, by decide⟩

/-- A drain with words left, in its occupancy and behind it. -/
def sDrain (n : Nat) : State :=
  { kTile { tc (.tdrain on 1 0 0 4 false 64 64 0 0) [] [] with started := true, out := [(data, toLe 8 5)] } with
    cycle := n, ev := { cl := 0, pid := 1, id := 1, n := 1 } }
/-- An accumulator with an uncorrectable error. -/
def kHurt : ClPart := { accBad := [2048] }
def stored : BStore := ⟨[], [], 1, 0, 0, 5, true, false, false⟩
def sRing : State := { st sp { cal := cal, ring := [(0, 0, stored)], tiles := [] } with ev := { cl := 0, pid := 1 } }
def sRingW : State := { st sp { cal := cal, ring := [(0, 1, stored)] } with ev := { cl := 0, pid := 1 } }
def sCommit : State := kTile { tc (.tzero on 1) [] [] with started := true, commit := some 0 }

theorem witness_TileEvents :
    (∀ i ∈ [Instr.tzero on 1, mma, .tmmring on 1 0 0 0 64 64 16, .tblatch on 0 1 0 0 false, .tblatch on 1 2 0 0 false, .tblatch on 2 2 0 0 false,
        .tblatch on 3 0 2 0 false, .tblatch on 4 0 2 0 false, .tdrain on 1 0 0 4 false 64 64 0 0],
      ((getCp (kTile (tc i [1, 0, 0, 64, 64] [tpage, tpage])) 0 1).tiles.find? (fun x => x.id == 1 && !x.started && decide (x.start ≤ 0))).isSome = true)
    ∧ (cellsBad s0 tpage (lineCells 0 false 64 0 16).flatten = false ∧ cellsBad s0 tpage (lineCells 0 true 64 0 16).flatten = false)
    ∧ ringNext 0 false ≠ 0
    ∧ (accHurt kHurt 1 = true ∧ accHurt kHurt 0 = false ∧ tabGet (kTile (tc (.tblatch on 3 0 2 0 false) [2] [])).strands 0 = some sp)
    ∧ ((getCp (sDrain 3) 0 1).tiles.find? (fun x => x.id == 1 && drainGoing (sDrain 3) x)).isSome = true
    ∧ (getCp (sDrain 16) 0 1).tiles.filter (drainOver (sDrain 16)) = (getCp (sDrain 16) 0 1).tiles
    ∧ (getCp (sDrain 16) 0 1).tiles.filter (commitDue (sDrain 16)) = []
    ∧ (∃ c, (getCp sCommit 0 1).tiles.filter (commitDue sCommit) = [c] ∧ c.task = sp.task.id) ∧ tabGet sCommit.strands 0 = some sp
    ∧ (getCp sCommit 0 1).tiles.filter (drainOver sCommit) = []
    ∧ (getCp sRing 0 1).ring.filter (fun e => decide (e.1 ≤ sRing.cycle)) = [(0, 0, stored)]
    ∧ (getCp sRingW 0 1).ring.filter (fun e => decide (e.1 ≤ sRingW.cycle)) = [(0, 1, stored)] := by
  refine ⟨by decide, by decide, by decide, by decide, by decide, by decide, by decide, ⟨_, rfl, by decide⟩, by decide, by decide, by decide, by decide⟩

/-! ### Witnesses: events of the device -/

/-- The state with device registers and an event. -/
def dev (ctl : List (Nat × Word)) (e : EvArg) (s : State := s0) : State := { s with dev := { s.dev with ctl := ctl }, ev := e }

theorem witness_HostRegisters :
    (devCtl (dev [] { n := 3 }) 0x800 % 4 = 0 ∧ (3 : Nat) % 4 ≠ 0)
    ∧ (devCtl (dev [(0x800, 2)] { unit := 1 }) 0x800 % 4 = 1 + 1 ∧ devCtl (dev [(0x800, 2)] { unit := 0 }) 0x800 % 4 ≠ 0 + 1)
    ∧ (∀ e ∈ [({ n := 0, id := 4 } : EvArg), { n := 12, id := 8 }, { n := 0x4000, id := 8, flag := true }],
        ¬ (e.id = 8 ∧ e.n % 8 = 0 ∧ e.n < 0x4000))
    ∧ (∀ k ∈ [0, 0xC0, 0xF8, 0x200, 0x208, 0x210, 0x220, 0x398, 0x3FF8], (8 : Nat) = 8 ∧ k % 8 = 0 ∧ k < 0x4000)
    ∧ (managed (0x800 + 0xC0 / 8) = true ∧ ownsSema (dev [] { n := 0xC0 }) 0 = false)
    ∧ (0x818 ≤ 0x800 + 0xF8 / 8 ∧ 0x800 + 0xF8 / 8 ≤ 0x81F ∧ ownsSema (dev [(0x800, 1)] { n := 0xF8 }) 0 = true)
    ∧ (0x800 + 0x398 / 8 = 0x873 ∧ 0x800 + 0x210 / 8 = 0x842) := by decide

/-- An active message for queue 0 of cluster 0. -/
def am (w0 : Word) (ctl : List (Nat × Word)) : State :=
  { st sp { cal := cal, ctl := ctl } with ev := { id := 32, words := [w0, 0x1000, 1, 2, 3] } }
def w20 : Word := 0x100000
def full0 : List Entry := List.replicate 32 ⟨sp.task, .fresh 0 0 0, 0, 5, 0, 0, 0, none, none⟩

theorem witness_ActiveMessages :
    ((am w20 []).ev.n / 2 ^ 16 = 0 ∧ (am w20 []).ev.n % 32 = 0 ∧ (am w20 []).ev.id = 32)
    ∧ (let e : EvArg := { n := 2 ^ 16, id := 64 }; e.n / 2 ^ 16 = 1 ∧ e.n % 64 = 0 ∧ e.id = 64) ∧ (8 : Nat) % 32 ≠ 0
    ∧ (w20.toNat / 2 ^ 20 % 16 = 1 ∧ w20.toNat / 2 ^ 19 % 2 = 0 ∧ w20.toNat / 2 ^ 24 = 0 ∧ (0x1000 : Nat) % 8 = 0)
    ∧ (w20 + 2 ^ 24).toNat / 2 ^ 24 ≠ 0
    ∧ inRect (am w20 []) 1 0 = true ∧ inRect (am (w20 + 7) []) 1 (32 * 7) = false
    ∧ (cpCtl (am w20 []) 0 1 0x190).toNat % 2 = 0 ∧ (cpCtl (am w20 [(0x190, 0x645)]) 0 1 0x190).toNat % 2 = 1
    ∧ (cpCtl (am w20 [(0x190, 0x645)]) 0 1 0x190).toNat / 4 % 2 = 1
    ∧ ¬ 32 ≤ taskCount (queueOf (getCp (am w20 [(0x190, 0x645)]) 0 1) 0)
    ∧ 32 ≤ taskCount (queueOf (getCp (st sp { queues := [(0, full0)], ctl := [(0x190, 0x645)] }) 0 1) 0) := by decide

/-- The state with the device's units, its registers and an event. -/
def unitS (d : Device) (e : EvArg) : State := { s0 with dev := d, ev := e }
theorem witness_FirmwareUnits :
    ((unitS { fwStore := some [[1]] } {}).dev.booting = true ∧ (bootList (unitS { fwStore := some [[1]] } {}))[0]? = some [1]
      ∧ (stageOk [1] = false ∨ stageOk [1] = true) ∧ (0 + 1 = (bootList (unitS { fwStore := some [[1]] } {})).length))
    ∧ (ownsSema (dev [] {}) 0 = false ∧ ownsSema (dev [(0x800, 1)] {}) 0 = true ∧ devCtl (dev [(0x800, 1)] {}) 0x861 / 2 ^ 8 % 2 ^ 8 ≠ 1)
    ∧ ((8 : Nat) % 8 = 0 ∧ (toLe 8 5).length % 8 = 0 ∧ toLe 8 5 ≠ [] ∧ 8 + (toLe 8 5).length ≤ 2 ^ 24)
    ∧ ((4 : Nat) % 8 ≠ 0 ∧ (toLe 4 5).length % 8 ≠ 0 ∧ 2 ^ 24 < (2 ^ 24 - 8) + (toLe 16 5).length)
    ∧ (unitS { verify := true } {}).dev.verify = true ∧ fwImage (unitS { verify := true } {}).dev.fwWindow = none
    ∧ (unitS { attest := some 1 } {}).dev.attest = some 1 := by
  refine ⟨⟨rfl, rfl, by cases stageOk [1] <;> simp, rfl⟩, by decide, by decide, by decide, rfl, by decide, rfl⟩

theorem witness_BoardEvents : (unitS { timePend := [(0x841, 5)] } {}).dev.timePend = [(0x841, 5)]
    ∧ devCtl (dev [] {}) 0x844 % 2 = 0 ∧ devCtl (dev [(0x844, 1)] {}) 0x844 % 4 = 1 ∧ devCtl (dev [(0x844, 3)] {}) 0x844 % 4 = 3
    ∧ ((0 + 500000000) / 1000000000 * 1000000000 % 2 ^ 64 = (devTimeNs (dev [(0x844, 3)] {})).toNat)
    ∧ (let s := { dev [(0x844, 3)] {} with devTime := 600000000 * (24 * 2 ^ 32) }
       ((devTimeNs s).toNat + 500000000) / 1000000000 * 1000000000 % 2 ^ 64 ≠ (devTimeNs s).toNat)
    ∧ physCluster (dev [] { id := 2 ^ 40 }).ev.id ≠ none := by decide

/-- Soft errors: one in the other stores, and the words of a page store and of HBM that one strikes. -/
theorem witness_BoardEvents_soft :
    ((eccStore 2, 0, 5) ∈ ({ s0 with singles := [(.accs, 0, 5)] } : State).singles ∧ (eccStore 2, 0, 5) ∉ s0.singles)
    ∧ (∀ w ∈ ({ s0 with soft := [data + 8] } : State).soft, w + 8 ≤ data ∨ data + 8 ≤ w)
    ∧ ¬ (∀ w ∈ ({ s0 with soft := [8] } : State).soft, w + 8 ≤ 0 ∨ 0 + 32 ≤ w) ∧ physCluster 0 = none
    ∧ (getClu s0 0).pid = some 1 := by decide

/-- The partition buffer of a descriptor of one cluster with 16 records, and the owner of HOST_SEMA. -/
def buf : List (Nat × Word) := [(0x800, 1), (0x818, BitVec.ofNat 64 (2 ^ 12 + 2 ^ 16 + 2 ^ 25)), (0x81A, 16), (0x81B, 1), (0x81E, 128), (0x81F, 0x80000), (0x860, 1)]

def sPart (p : Nat) : State := dev buf { pid := p } (st sp { cal := cal, quota := 128 })

theorem witness_PartitionCommands :
    cmdFree (dev [] { pid := 2 }) = false ∧ cmdFree (sPart 2) = true
    ∧ descInvalid (sPart 2) = false ∧ descInvalid (dev [(0x800, 1)] { pid := 2 }) = true
    ∧ partExists (sPart 2) 2 = false ∧ partExists (sPart 1) 1 = true
    ∧ (∀ c ∈ rectClusters (partBuf (sPart 2) 0),
      (getClu (sPart 2) c).members.length < 2 ∧ quotaOver (sPart 2) c 2 (partBuf (sPart 2) 6 % 2 ^ 9) = false)
    ∧ (rectBad (partBuf (sPart 1) 0) = false ∧ partBuf (sPart 1) 6 < 2 ^ 9
      ∧ ∀ c ∈ rectClusters (partBuf (sPart 1) 0), 1 ∈ (getClu (sPart 1) c).members →
        quotaOver (sPart 1) c 1 (partBuf (sPart 1) 6) = false)
    ∧ (unitS { cmd := some (2, 1, none) } { n := 1 }).dev.cmd = some (2, 1, none)
    ∧ (unitS { cmd := some (4, 1, some 0) } {}).dev.cmd = some (4, 1, some 0) := by decide

def sMap : State := dev [(0x800, 1), (0x818, BitVec.ofNat 64 (2 ^ 12 + 2 ^ 16 + 2 ^ 25)), (0x819, 0x48000), (0x81A, 4), (0x860, 1)] { pid := 1 }

theorem witness_PartitionCommands_map : cmdFree sMap = true ∧ partExists sMap 1 = true ∧ ∃ x s1, hostMap sMap 1 = (some x, s1) ∧ x < 2 ^ 63 :=
  ⟨by decide, by decide, _, _, rfl, by decide⟩

def sSwitch : State := { s0 with strands := [], parked := [sp], images := [(sp.task.id, 0, 0, false)], clusters := [(0, { pid := some 1, members := [1, 2], switching := some (2, 0) })], ev := { n := 1, cl := 0 } }

theorem witness_PartitionCommands_switch : (getClu sSwitch sSwitch.ev.cl).switching = some (2, 0) ∧ halted sSwitch sSwitch.ev.cl = true
    ∧ (getClu sSwitch 0).pid = some 1 ∧ sp ∈ sSwitch.parked ∧ sp.task.id ∉ imageTasks sSwitch 2 := by decide

/-! ### Witnesses: engine events -/

/-- An operation of the strand's task under way: record 5, an HBM page at VA 0x10000, is mapped too. -/
def eng (o : Op) (e : EvArg := {}) : State :=
  { ([(160, 0x10012), (168, 0x200000), (98304 + 32, 0x500000003)] : List (Nat × Word)).foldl (fun s e => wr64 s e.1 e.2) sBare with
    ops := [o], ev := { e with id := o.id }, nextId := 2 }
def op (k : OpKind) (args : List Word) : Op := { mkOp sBare sp k (some 0) none 3 args with id := 1 }
def opCpy : Op := op .cpy [64, 0, 16]
def opFld : Op := op .fld [64, 3, 0]
def opFldS : Op := op .fld [64, 2, 1]
def opFst : Op := { op .fst [64, 3] with bytes := toLe 8 5 }
def opRedm : Op := op .redm [0x10000, 0, 8, 2]
def opLost : Op := op .fld [0x4000000, 3, 0]
def egw : EgWrite := ⟨0, 0, 9, 1, 9, data, toLe 8 5, false, false⟩

theorem witness_EngineUnits :
    (∀ o ∈ [opCpy, opFld, opFldS, opFst, opLost], Names (eng o) o ∧ opReady (eng o) o = true ∧ channelHead (eng o) o = true
      ∧ Unhindered (eng o) o ∧ isRunning (eng o) o.task = true)
    ∧ (∃ s1, unitData (eng opCpy) opCpy = .more s1) ∧ (∃ x s1, unitData (eng opFld) opFld = .last x s1 ∧ (opFind s1 1).isSome = true)
    ∧ (∃ c va ix s1, unitData (eng opLost) opLost = .stop c va ix s1 ∧ opFind s1 1 ≠ none)
    ∧ (opRedm.kind = .redm ∧ Names (eng opRedm) opRedm ∧ opReady (eng opRedm) opRedm = true ∧ (eng opRedm).egress = []) := by
  unfold Names Unhindered
  refine ⟨by decide, ⟨_, rfl⟩, ⟨_, _, rfl, by decide⟩, ⟨_, _, _, _, rfl, by decide⟩, by decide⟩

/-- A fold into a replicated page; a base-die unit that takes its operation; an operation whose writes are all performed. -/
theorem witness_EngineUnits_repl :
    (let s := { wr64 (eng opRedm) (98304 + 32) 0x500000023 with clParts := [(1, { replicas := [(5, 9)] })] }
     (∃ x s1, engAddr s opRedm 0x10000 true = (.ok (0x200000, x), s1) ∧ pteRepl x.pte0 = true) ∧ replicaClusters s 1 5 ≠ [])
    ∧ bduReady (eng (op .attd [0, 0, 0, 0, 0])) (op .attd [0, 0, 0, 0, 0]) = true
    ∧ drained (eng opLost) opLost = true ∧ (drained { eng opCpy with repl := [⟨1, 4, 64, 9, 1, [], false, false, []⟩] } opCpy = false) :=
  ⟨⟨⟨_, _, rfl, by decide⟩, by decide⟩, by decide, by decide, by decide⟩

theorem witness_EngineUnits_moves :
    (∃ x s1, engAddr (eng opCpy) opCpy 0 false = (.ok (data, x), s1)
      ∧ ∃ y s2, engAddr s1 opCpy 64 true = (.ok (data + 64, y), s2) ∧ pteRepl y.pte0 = false)
    ∧ (homeOf (data + 64) = 0 ∧ eccBad (eng opCpy) data 8 = false ∧ tileLeased (eng opCpy) (data + 64) 8 = false
      ∧ bgBusy (eng opCpy) opCpy data = false ∧ bgBusy (eng opCpy) opCpy (data + 64) = false)
    ∧ (∃ x s1, engAddr (eng opRedm) opRedm 0 false = (.ok (data, x), s1)
      ∧ ∃ y s2, engAddr s1 opRedm 0x10000 true = (.ok (0x200000, y), s2))
    ∧ (∃ s1, engAddr (eng opLost) opLost 0x4000000 false = (.error .translation, s1))
    ∧ (0 ∈ drainable { s0 with egress := [egw], ev := { unit := 1 } }) := by
  refine ⟨⟨_, _, rfl, _, _, rfl, by decide⟩, by decide, ⟨_, _, rfl, _, _, rfl⟩, ⟨_, rfl⟩, by decide⟩

def opGet : Op := op .pgget [0, 0, 3]
def opRef : Op := op .pgref [0, 1]
def opGone : Op := op .pgref [0x4000000, 1]
def opRamp : Op := { op .rampset [0] with i := 1, acc := [7] }
def opAt : Op := op .atomic [64, 5, 0, 0, 8]

theorem witness_WalkerUnits :
    (∀ o ∈ [opGet, opRef, opGone], Names (eng o) o ∧ Unhindered (eng o) o ∧ isRunning (eng o) o.task = true
      ∧ walkerReady (eng o) o = true)
    ∧ walk (eng opGone) 1 0 (0x4000000 / 32768) = none ∧ (walk (eng opGet) 1 0 0).isSome = true
    ∧ ((2 : Int) = recRef (eng opRef) 1 4 + (opRef.args.getD 1 0).toInt)
    ∧ ((recRef (eng opRef) 1 4 : Int) + (BitVec.ofInt 64 (-2)).toInt < 0 ∧ 65535 < (recRef (eng opRef) 1 4 : Int) + (65536 : Word).toInt)
    ∧ (Names (eng opRamp) opRamp ∧ rotHeld (eng opRamp) 7 = false)
    ∧ (atomReady (eng opAt) opAt = true ∧ ∃ e s1, engAddr (eng opAt) opAt 64 true = (.ok (data + 64, e), s1) ∧ pteRepl e.pte0 = false
      ∧ eccBad (eng opAt) (data + 64) 8 = false ∧ eccBad { eng opAt with poison := [data + 64] } (data + 64) 8 = true
      ∧ tileLeased (eng opAt) (data + 64) 8 = false) := by
  unfold Names Unhindered
  refine ⟨by decide, by decide, by decide, by decide, by decide, by decide, by decide, _, _, rfl, by decide⟩

/-- The record of the data page in host memory. -/
def sHost : State :=
  { ([(128, 0x10013), (136, 0)] : List (Nat × Word)).foldl (fun s e => wr64 s e.1 e.2) (eng opAt) with ops := [opAt] }
theorem witness_WalkerUnits_timeout : ∃ a e s1, engAddr sHost opAt 64 true = (.ok (a, e), s1) ∧ 2 ^ 64 ≤ a := ⟨_, _, _, rfl, by decide⟩

def opLaunch : Op := op .launch [0, 0x5000000001000, 1, 2, 0]
def opSend : Op := { op .msend [BitVec.ofNat 64 (64 * 2 ^ 32)] with bytes := toLe 64 5 }
def opDq : Op := { op .dqsend [7] with unit := 7, bytes := toLe 256 5 }
def opDqOff : Op := { op .dqsend [7 + 2 ^ 16] with unit := 7 }
def launched (ctl : List (Nat × Word)) (es : List Entry) : State :=
  { eng opLaunch with clParts := [(1, { ctl := ctl, queues := [(0, es)] })] }
def sReplW : State :=
  { eng opCpy with clParts := [(1, { replicas := [(4, 9)] }), (17, { replicas := [(4, 8)] })], repl := [⟨1, 4, 64, 9, 1, toLe 8 5, false, false, []⟩] }
def sReplA : State := { sReplW with repl := [⟨1, 4, 64, 9, 1, toLe 8 5, false, true, [0, 1]⟩] }

/-- An operation may arrive at once where nothing that enters later has entered, whichever package it goes to. -/
theorem msg_ready (s : State) (o : Op) (h : (o.fin.isNone && !o.stopped && depsMet s o false true && msgFirst s o) = true)
    (hm : mayArrive s (opTarget o).1 (sourcePlace o.cl o.lane (opTarget o).1) = true) : msgReady s o = true := by
  simp only [msgReady, hm, Bool.or_true, Bool.and_true]
  exact h

def opDqGo : Op := { opDq with i := 1 }

theorem witness_Arrivals_ready : ∀ o ∈ [opLaunch, opSend], msgReady (eng o) o = true := by
  intro o ho
  simp only [List.mem_cons, List.not_mem_nil, or_false] at ho
  obtain rfl | rfl := ho
  · exact msg_ready _ _ rfl rfl
  · exact msg_ready _ _ rfl rfl

theorem witness_Arrivals :
    (∀ o ∈ [opLaunch, opSend], Names (eng o) o ∧ Unhindered (eng o) o ∧ isRunning (eng o) o.task = true)
    ∧ (cpCtl (launched [] []) 0 1 0x190).toNat / 2 % 2 = 0 ∧ opLaunch.sup = false
    ∧ ((cpCtl (launched [(0x190, 2)] []) 0 1 0x190).toNat / 2 % 2 = 1 ∧ (cpCtl (launched [(0x190, 2)] []) 0 1 0x190).toNat % 2 = 0)
    ∧ (cpCtl (launched [(0x190, 3)] []) 0 1 0x190).toNat % 2 = 1
    ∧ (32 ≤ taskCount (queueOf (getCp (launched [] full0) 0 1) 0) ∧ taskCount (queueOf (getCp (launched [] []) 0 1) 0) < 32)
    ∧ ((getCp (eng opSend) 0 1).inbox.length < 64 ∧ 64 ≤ (List.replicate 64 msg1).length)
    ∧ (∀ o ∈ [opDq, opDqOff], Names { eng o with cycle := 8 } o ∧ dqReady { eng o with cycle := 8 } o = true)
    ∧ (dqSeq 7 = (tabGet (getDp (eng opDq) 0 1).dqTx 7).getD 0 ∧ dqSeq (7 + 2 ^ 16) ≠ (tabGet (getDp (eng opDq) 0 1).dqTx 7).getD 0)
    ∧ (Names (eng opDqGo) opDqGo ∧ Unhindered (eng opDqGo) opDqGo ∧ (eng opDqGo).egress = []
      ∧ (∀ p ∈ (eng opDqGo).ops, sameQueue opDqGo p = true → p.i = 1 → p.fin = none → opDqGo.j ≤ p.j))
    ∧ (sReplW.repl[0]?.map (·.seqd) = some false ∧ replicaClusters sReplW 1 4 ≠ [] ∧ tileLeased sReplW (recPhys sReplW 1 4 + 64) 8 = false)
    ∧ (sReplA.repl[0]?.map (·.left) = some [0, 1] ∧ setDel [0, 1] 0 ≠ [] ∧ replicaOf sReplA 0 1 4 = some 9) := by
  unfold Names Unhindered; decide

theorem witness_Arrivals_package : targetPkg (opSend.args.getD 0 0) = Config.torus.toNat ∧ opSend.kind = .msend ∧ (eng opSend).ev.unit ≠ 1 :=
  ⟨if_neg (by decide), by decide, by decide⟩

/-! ### Witnesses: domains, collectives, faults, strands, the Whisk -/

def flight (ph : Bool) (k sel : Nat) : Flight := ⟨k, 1, sel, 0, 0, ph, 1⟩
/-- The die's domain 0 with `d`, a flight, and an event on it. -/
def domS (d : Domain) (f : Flight) : State :=
  { updDp s0 0 1 (fun k => { k with domains := [(0, d)] }) with flights := [f], ev := { pid := 1, unit := 1 } }
def opDom (k : OpKind) (w x : Word) : Op := op k [w, x]
def memW : Word := BitVec.ofNat 64 (1 + 2 ^ 14 + 2 * 2 ^ 18)
def domO (o : Op) (d : Domain) : State := updDp (eng o) 0 1 (fun k => { k with domains := [(0, d)] })

theorem witness_DomainEvents :
    ((domS die1 (flight false 0 1)).flights[0]? = some (flight false 0 1) ∧ selKind 1 < 2
      ∧ (getDom (domS die1 (flight false 0 1)) 1 1 0).arr + 1 < domTot (domS die1 (flight false 0 1)) 1 1 0 memW)
    ∧ domTot (domS { die1 with arr := 1 } (flight false 0 1)) 1 1 0 memW ≤ (getDom (domS { die1 with arr := 1 } (flight false 0 1)) 1 1 0).arr + 1
    ∧ ((flight true 0 1).phase = true ∧ (flight false 1 1).kind = 1)
    ∧ ((getDom (domS { die1 with sweep := 1 } (flight false 0 1)) 1 1 0).sweep ≠ 0 ∧ (∀ c ∈ domMembers 1 0 memW, c < 256)
      ∧ 1 < ((domMembers 1 0 memW).filter (fun c => !(([] : List (Nat × Nat × Nat)).any (fun e => e.1 == c)))).length
      ∧ (domMembers 1 0 memW).filter (fun c => !([(0, 0, 0)].any (fun e => e.1 == c))) = [1])
    ∧ (∀ o ∈ [opDom .domset 1 memW, opDom .domset 64 memW, opDom .domget 1 0, opDom .domget 1 4], Names (domO o die1) o
      ∧ opReady (domO o die1) o = true ∧ Unhindered (domO o die1) o ∧ isRunning (domO o die1) o.task = true)
    ∧ (memOkWord s0 1 1 memW = true ∧ memOkWord s0 1 1 (2 ^ 24) = false ∧ (getDom (domO op0 die1) 1 1 0).gen < 2 ^ 16) := by
  unfold Names Unhindered; decide

/-- A collective of clusters 0 and 1, of which cluster 0's operation is the first. -/
def opC (n cl : Nat) : Op := { op .coll (layX ++ layY) with id := n, cl := cl }
def coll1 (ck : Bool) (ws : List Wave) : Coll := ⟨1, 1, 1, 0, 0, [(0, 1), (1, 2)], [(1, 1), (2, 1)], [0, 1], ck, false, if ck then layX ++ layY else [], ws⟩
def sCk (ck : Bool) (ws : List Wave) : State :=
  { domO (opC 1 0) die1 with ops := [opC 1 0, opC 2 1], colls := [coll1 ck ws], clusters := [(0, { pid := some 1 }), (1, { pid := some 1 })] }

theorem witness_CollectiveEvents :
    ((sCk false []).colls.find? (fun x => x.num == (sCk false []).ev.id) = some (coll1 false [])
      ∧ (sCk false []).ops.filter (fun o => (coll1 false []).ops.any (fun e => e.2 == o.id)) = [opC 1 0, opC 2 1]
      ∧ (∀ q ∈ [opC 1 0, opC 2 1], q.stopped = false) ∧ samePair (opC 1 0) (opC 2 1) = true
      ∧ samePair (opC 1 0) { opC 2 1 with args := layX ++ layX } = false
      ∧ exchangeOf (opLayouts (opC 1 0)).1 (opLayouts (opC 1 0)).2 = some (1, .allReduce))
    ∧ (coll1 false []).ops.length = (coll1 false []).members.length
    ∧ (sCk true []).colls.find? (fun x => x.num == (sCk true []).ev.id && x.checked) = some (coll1 true [])
    ∧ (sCk true []).colls.find? (fun c => c.ops.any (fun e => e.2 == 1) && c.checked) = some (coll1 true []) ∧ (opC 1 0).out = []
    ∧ (∀ h < 3, collMember (sCk true []) (coll1 true []) (([0, 1, 0] : List Nat).getD h 0) ≠ none)
    ∧ (opReady (sCk true []) (opC 1 0) = true
      ∧ 0 + 1 < (wavePairs (opLayouts (opC 1 0)).1 (opLayouts (opC 1 0)).2 1 .allReduce ⟨[1, 0, 0, 1], 0, 0, 0, []⟩).length
      ∧ (hopKind .allReduce 2 0 = 0 ∧ hopKind .allReduce 2 1 = 1 ∧ hopKind .allReduce 2 2 = 2))
    ∧ (∃ x s1, engAddr (sCk true []) (opC 1 0) 1024 false = (.ok (data + 1024, x), s1))
    ∧ (∃ x s1, engAddr (sCk true []) (opC 1 0) 2048 true = (.ok (data + 2048, x), s1) ∧ pteRepl x.pte0 = false
      ∧ homeOf (data + 2048) = 0 ∧ tileLeased (sCk true []) (data + 2048) 4 = false)
    ∧ (memberDone (sCk true []) (coll1 true []) 1 = true ∧ bankShut (sCk true []) data 4 = false ∧ (sCk true []).repl = []) := by
  refine ⟨by decide, by decide, by decide, by decide, by decide, by decide, by decide, ⟨_, _, rfl⟩, ⟨_, _, rfl, by decide⟩, by decide⟩

def fev (k : Nat) (sub : Subject) : FaultEv := ⟨1, 0, 10, k, 0, [0, 0, 0, 0, 0, 0, 0], sub⟩
/-- An event that waits, a free slot and room; a request of the strand for slot 0. -/
def sWait : State := updDie s0 0 (fun d => { d with waiting := [fev 0 (.strand sp.task.id)] })
def endReq (k slot : Nat) : EndReq := ⟨0, 0, 0, 1, k, slot, sp.task.id, 6⟩
def sEnd (r : EndReq) (f : List (Nat × FaultRec)) (o : Op) : State :=
  updDie { updDp s0 0 1 (fun k => { k with records := f }) with cycle := 8, ops := [o] } 0 (fun d => { d with endReqs := [r] })

theorem witness_FaultEvents :
    ((getDie sWait sWait.ev.unit).waiting = [fev 0 (.strand sp.task.id)] ∧ leastFree ((getDp sWait 0 1).records.map (·.1)) 256 0 = some 0
      ∧ (getDie sWait 0).fq.countP (·.counts) < 256)
    ∧ ((getDie (sEnd (endReq 0 0) [] op0) 0).endReqs = [endReq 0 0] ∧ (endReq 0 0).cycle / 8 < tickNow (sEnd (endReq 0 0) [] op0)
      ∧ tabGet (sEnd (endReq 0 0) [] op0).strands 0 = some sp ∧ tabGet (getDp (sEnd (endReq 0 0) [] op0) 0 1).records 0 = none)
    ∧ (∀ f ∈ [(⟨fev 3 .notice, true, false⟩ : FaultRec), ⟨fev 0 (.strand 9), false, false⟩, ⟨fev 1 (.op op0.id), true, false⟩],
        tabGet (getDp (sEnd (endReq 0 0) [(0, f)] op0) 0 1).records 0 = some f)
    ∧ (opFind (sEnd (endReq 1 0) [] { op0 with task := 9 }) op0.id = some { op0 with task := 9 } ∧ op0.kind ≠ .coll ∧ (9 : Nat) ≠ sp.task.id) := by
  decide

def sOver : State := { s0 with cycle := 8 * (sp.seg.start + sp.seg.len) }
def sOwed : State := { s0 with owed := [(sp.task.id, 0, 0)] }
def sPre (w : Word) : State := { st sp { cal := cal, preempt := [sp.lane], ctl := [(0x1C0, w)] } with ev := { pid := 1 } }

/-- A strand whose writes of g3 are pending, one whose batch is open, and one that has stopped. -/
def spUns : Strand := { sp with pend := [(.g 3, 9)] }
def sStop (e : Ending) (n : Nat) : State :=
  { s0 with strands := [], parked := [{ sp with ending := some e, seg := { sp.seg with len := n } }] }

theorem witness_StrandStops_ends :
    (settled s0 sp = true ∧ tilesDone s0 sp = true ∧ settled s0 spUns = false ∧ tilesDone (kTile (tc (.tzero on 1) [] [])) sp = false)
    ∧ (∀ e ∈ [Ending.fault 3 { cause := .align }, .split 3 4 1 0 false], ∀ n ∈ [0, 4096],
        nextLane (sStop e n) = none ∧ (sStop e n).cursor < cursorEnd ∧ (sStop e n).parked.filter (mayEnd (sStop e n)) = (sStop e n).parked)
    ∧ (getClu (updClu (sPre 0) 0 (fun c => { c with switching := some (2, 0) })) 0).switching ≠ none := by decide

theorem witness_StrandStops :
    (tabGet s0.strands s0.ev.lane = some sp ∧ laneKey sp = s0.ev.lane ∧ 8 * (sp.seg.start + sp.seg.len) ≤ sOver.cycle)
    ∧ (∀ o ∈ sOwed.owed, o.1 = sp.task.id) ∧ sp.ds = 0
    ∧ (preemptDue (sPre 0) sp = true ∧ (getClu (sPre 0) 0).switching = none ∧ (cpCtl (sPre 0) 0 1 0x1C0).getLsbD 8 = false
      ∧ (cpCtl (sPre 0x100) 0 1 0x1C0).getLsbD 8 = true ∧ sp.task.fq = false)
    ∧ ((sPre 1).ev.cl = sp.cl ∧ (sPre 1).ev.pid = sp.task.pid ∧ sp.lane < 8 ∧ (cpCtl (sPre 1) 0 1 0x1C0).getLsbD sp.lane = true
      ∧ strandOn (sPre 1) 0 1 3 = none) := by decide

def sWk (ctl : List (Nat × Word)) (w : List (Nat × Nat × Nat)) : State := st sp { cal := cal, ctl := ctl, whisk := w }

theorem witness_WhiskEvents : whiskDue (sWk [(0x1C1, 0x11)] []) 0 1 = some 2 ∧ whiskDue (sWk [(0x1C1, 0x19)] []) 0 1 = some 3
    ∧ 0 ∈ partClusters (sWk [] []) 1 ∧ (getCp (sWk [] [(0, 1, 0)]) 0 1).whisk = [(0, 1, 0)] ∧ 0 ≤ tickNow (sWk [] [])
    ∧ (cpCtl (sWk [] [(0, 1, 0)]) 0 1 0x300).toNat % 2 = 0 := by decide

/-! ### Witnesses: the Sieve, segments, streams -/

def bookReq (word : Word) : CalReq := ⟨0, 0, 0, sp.task.id, sp.seg.sid, 0, 6, sp.seg.start, sp.seg.len, 0, word, 0, false, false, none⟩
/-- One request of the tick before; a switch is under way, so that nothing is placed. -/
def sBook : State :=
  { st sp { reqs := [bookReq 0] } with cycle := 8, ev := { pid := 1 }, clusters := [(0, { pid := some 1, members := [1, 2], switching := some (2, 0) })] }
/-- A head in queue 0 whose record's round takes longer than a tick. -/
def entry0 : Entry := ⟨{ sp.task with id := 77 }, .fresh 0x1000 0 0, 0, 5, 0, 0, 0, some 0, some 0⟩
def sRound : State := put (0x1000 - 32) [20 * 2 ^ 16] { st { sp with seg := { sp.seg with sid := 9 } } { queues := [(0, [entry0])], ctl := [(0x1A0, 0)] } with cycle := 8, ev := { pid := 1 } }

theorem witness_SieveEvents :
    ((getClu sBook 0).pid = some 1 ∧ (getCp sBook 0 1).reqs = [bookReq 0] ∧ (bookReq 0).cycle / 8 < tickNow sBook ∧ (getCp sBook 0 1).cal = []
      ∧ noPlacing sBook 0 = true ∧ tabGet sBook.strands 0 = some sp)
    ∧ (noPlacing sRound 0 = false ∧ roundCands sRound 0 1 ≠ [] ∧ (getCp sRound 0 1).urgent = none ∧ (getCp sRound 0 1).attemptAt ≤ 8 * tickNow sRound)
    ∧ ((roundCands sRound 0 1).head? = some ⟨0, 77, 5⟩ ∧ candEntry sRound 0 1 ⟨0, 77, 5⟩ = some entry0 ∧ 8 < entryCycles sRound 0 1 entry0)
    ∧ (starveAt sRound 0 1 0 = some 0 ∧ (∀ r, r < 16 → ∀ b, starveAt sRound 0 1 r = some b → 0 < b ∨ (0 = b ∧ 0 ≤ r)))
    ∧ (getCp (st sp { urgent := some 3 }) 0 1).urgent ≠ none := by
  refine ⟨by decide, by decide, by decide, ⟨by decide, fun r _ b _ => ?_⟩, by decide⟩
  omega

def far0 : FarWork := ⟨77, 7, 0, 0, false, 0⟩
def farC : FarWork := ⟨77, 2, 0, 0, false, 0⟩
def copy0 : LocalCopy := ⟨1, 2, 4, data, 0, 4, 9, 0, 0, 0, []⟩
def evict0 (u : Nat) : Evict := ⟨1, 4, u, 0, 0, true⟩
def sWorkC : State := { st s1 { far := [far0], copies := [copy0], fills := [(0, 0, 0x8000, 0, 1, 0)] } with cycle := 8, ev := { pid := 1, id := 77, n := 9 } }
def sSpill (u : Nat) : State := { updClu (st s1 {}) 0 (fun c => { c with evIdle := [evict0 u] }) with ev := { pid := 1 } }

theorem witness_SieveEvents_work :
    ((getCp sWorkC 0 1).far.find? (fun f => f.taskId == 77 && !f.done) = some far0 ∧ far0.what ≠ 0 ∧ far0.what ≠ 2)
    ∧ ((getCp (st sp { far := [farC] }) 0 1).far.find? (fun f => f.taskId == 77 && !f.done) = some farC
      ∧ (walk (st sp { far := [farC] }) 1 (whoRoot (st sp { far := [farC] }) 0 1 0) 0).isSome = true ∧ sWorkC.egress = [])
    ∧ ((getCp sWorkC 0 1).copies.find? (fun c => c.frame == 9 && decide (c.last < tickNow sWorkC)) = some copy0 ∧ 2 ≤ copy0.what)
    ∧ ((getCp sWorkC 0 1).fills.find? (fun f => f.2.1 == 0 && f.2.2.1 == 0x8000 && decide (f.1 ≤ tickNow sWorkC)) = some (0, 0, 0x8000, 0, 1, 0)
      ∧ blockHeld sWorkC 0 1 0 0x20 = false ∧ ∀ x ∈ (getCp sWorkC 0 1).copies, x.fri ≠ 1)
    ∧ (tickNow (sSpill 3) % 64 = 0 ∧ (∀ x ∈ (getClu (sSpill 3) 0).evIdle ++ (getClu (sSpill 3) 0).evDemand, spillable (sSpill 3) 0 x = true)
      ∧ (getClu (sSpill 3) 0).evIdle = [evict0 3] ∧ spillSlot (sSpill 3) 0 1 = some 0 ∧ (getClu (sSpill 0) 0).evIdle = [evict0 0]) := by
  decide

/-- A continuation of the strand's task, and a placement of the strand's segment with this work. -/
def cont1 (ev : Nat) (g : Nat) : Cont :=
  ⟨sp.task, 0, 8, 16, 0, false, decide (g ≠ 0), 0, 5, 0, 0, 0, sp.c, 0, 0, sp.g, sp.v, sp.p, 0, 0, ev, 0, 0x1000, g, 0, 0, [], 0, 0, 0, 0, false, 0, false, true, false, none⟩
def entryW (w : Work) : Entry := { entry0 with task := sp.task, work := w }
def placedS (w : Work) : State :=
  { st sp { placed := [⟨entryW w, { sp.seg with sid := 9, start := 0 }, 2, 1, 0, 0, false⟩] } with
    strands := [], conts := [cont1 4 0], images := [(sp.task.id, 0, 0, false)], ev := { pid := 1, id := 9 } }
def gang1 (alive active : List Nat) (r : Bool) : Gang := ⟨1, 0, entryW (.gangRound 1), [], alive, active, 4, 5, r⟩
def gangS (g : Gang) : State :=
  { st sp { gangs := [g] } with conts := [cont1 4 1], ev := { pid := 1, id := 1 } }

theorem witness_SegmentStarts :
    (∀ w ∈ [Work.fresh 0x1000 1 2, .cont, .remainder sp],
      ((getCp (placedS w) 0 1).placed.find? (fun q => q.seg.sid == 9 && decide (q.seg.start ≤ tickNow (placedS w)))).map (fun q => q.entry.work) = some w)
    ∧ (contFind (placedS .cont) sp.task.id).isSome = true ∧ (imageOf (placedS .cont) sp.task.id 1).isSome = true
    ∧ (∀ ev ∈ [4, 7], eventReady (placedS .cont) (cont1 ev 0) = true ∧ (cont1 ev 0).queued = false ∧ (cont1 ev 0).gang = 0
      ∧ (cont1 ev 0).task.fq = false ∧ (cont1 ev 0).roam = false)
    ∧ (eventReady (placedS .cont) { cont1 7 0 with evAddr := data } = true)
    ∧ (roundOver (gangS (gang1 [0] [] true)) (gang1 [0] [] true) = true ∧ [0].filter (fun m => !([] : List Nat).contains m) ≠ [])
    ∧ (roundOver (gangS (gang1 [] [] true)) (gang1 [] [] true) = true ∧ roundReady (gangS (gang1 [0] [] false)) (gang1 [0] [] false) = true
      ∧ (gang1 [0] [] false).entry.task.fq = false) := by decide

/-- Stream 5 of die 0: its descriptor, STR_CFG with EN, a batch, and a ring at VA 0 with its slot's page at VA 0. -/
def strW (w0 : Word) : List Word := [w0, 0, 0, 0, BitVec.ofNat 64 (2 ^ 32), 0, 64, 1024, 0, 0, 0, 0, 0, 0, 0, 0]
def batch5 : Batch := ⟨1, 0, 0, 0, [5], 0, false, none, [], false, false, false, false, false, false⟩
def strS (w0 : Word) (o : Op) (e : EvArg) : State :=
  put 64 [4, 0, 0, 0] { updDp (eng o) 0 1 (fun k => { k with
    streams := [(5, strW w0)], live := [5], batches := [batch5], offers := [⟨0, 5, [4], 0, 1⟩]
    ctl := [(0x410, BitVec.ofNat 64 (1 + 2 ^ 13 * 16))] }) with cycle := 8 * 64, ev := { e with pid := 1 } }
def opSget : Op := { op .stream [9, 5, 0, 2] with i := 1 }
def opJoin : Op := { op .stream [3] with i := 3, acc := [9] }
def opSnap : Op := { op .stream [8, 5, 0] with i := 2, bytes := [0] }
/-- The first entry of the die list names die 0 of the package 0, or of the package 1. -/
def strS1 : State := wr64 (strS 3 opSnap { id := 1, n := 7 }) 0x80000 8

theorem witness_StreamEvents :
    ((strS 3 opSget {}).ops.filter (reqDue (strS 3 opSget {}) 0 1) = [opSget] ∧ Unhindered (strS 3 opSget {}) opSget
      ∧ isRunning (strS 3 opSget {}) opSget.task = true)
    ∧ (Names (strS 3 opJoin { id := 1 }) opJoin ∧ opJoin.i = 3)
    ∧ (getStr (strS 3 opSget {}) 0 1 5 = some (strW 3) ∧ (strW 3).length = 16 ∧ strEn (strS 3 opSget {}) 0 1 = true)
    ∧ (getDp (strS 3 opSget {}) 0 1).offers = [⟨0, 5, [4], 0, 1⟩]
    ∧ ((getDp (strS 3 opSget {}) 0 1).batches.find? (fun b => b.num == 1) = some batch5 ∧ closeDue (strS 3 opSget {}) 0 1 batch5 = true
      ∧ batch5.num < (strS 3 opSget {}).nextId ∧ freeSlot (strS 3 opSget {}) 0 1 0 = some 0)
    ∧ (tickNow (strS 3 opSget {}) % 64 = 0 ∧ sF (strW 3) 0 7 1 = 0 ∧ sF (strW 0x83) 0 7 1 = 1 ∧ stState (strW 0x83) ≠ ST_HELD)
    ∧ (Names (strS 3 opSnap { id := 1 }) opSnap ∧ opSnap.i = 2) := by
  unfold Names Unhindered; decide

theorem witness_StreamEvents_offer :
    (let s := strS 3 opSget {}
     (∀ e ∈ s.dieParts, e.1 / 16 = 0 → ∀ y ∈ e.2.offers, y.cl = 0 → ¬ y.num < 1) ∧ s.ev.flag = false)
    ∧ (let c : Cluster := { admits := List.replicate 32 60 }; 32 < (c.admits.filter (fun t => decide (64 < t + 8192))).length + 1)
    ∧ dieOffers (strS 3 opSget {}) 0 = [(1, ⟨0, 5, [4], 0, 1⟩)] := by decide

theorem witness_StreamEvents_run :
    (let b := { batch5 with closed := true, started := true }
     b.started = true ∧ b.ran = false ∧ b.ended = false ∧ 5 ∈ b.mems ∧ stState (strW 2) = ST_BATCHED
      ∧ lastBatch (strS 2 opSget {}) 0 1 b.num 5 = true) ∧ opSget.cl ≠ awayCl := by decide

theorem witness_StreamEvents_idle : idleDue (strS 0 opSget {}) (strW (BitVec.ofNat 64 ST_IDLE)) = true := by decide

theorem witness_StreamEvents_ring :
    (∀ v ∈ wordVas (sF (strW 0x83) 6 0 48) 64 ++ wordVas (sF (strW 0x83) 7 0 48) 136, ringStop (strS 0x83 opSget {}) 1 v true = none)
    ∧ (∃ r, ringAt (strS 0x83 opSget {}) 1 (sF (strW 0x83) 6 0 48) = some r)
    ∧ ringRd (strS 0x83 opSget {}) 1 (sF (strW 0x83) 7 0 48) % 32 = 0 := ⟨by decide, ⟨_, rfl⟩, by decide⟩

theorem witness_StreamEvents_away : dieEntry (strS 3 opSnap { id := 1, n := 7 }) 1 0 = some (0, 0) ∧ dieEntry strS1 1 0 = some (0, 1)
    ∧ (0 ≠ Config.torus.toNat ∨ 1 ≠ Config.torus.toNat) ∧ reqDie strS1 opSnap = some 0 ∧ getStr strS1 0 1 5 = some (strW 3) :=
  ⟨by decide, by decide, by omega, by decide, by decide⟩

/-- The states of events above are sound. -/
theorem witness_sound : ∀ s ∈ [sRing, sRingW, sCommit, kTile (tc mma [1, 0, 0, 64, 64] [tpage, tpage]), dev buf { pid := 2 }, am w20 [], sPart 1, sSwitch,
    eng opCpy, eng opFld, eng opLost, eng opRedm, eng opRef, eng opAt, eng opRamp, sHost, eng opLaunch, eng opSend, eng opDq, sReplW, sReplA,
    domS die1 (flight false 0 1), domO op0 die1, sCk true [], sWait, sEnd (endReq 0 0) [] op0, sOver, sOwed, sPre 1, sWk [] [], sBook, sRound, sWorkC,
    sSpill 3, placedS .cont, gangS (gang1 [0] [] true), strS 3 opSget {}, strS1, unitS { verify := true } {}], s.Inv := by
  unfold State.Inv; decide

/-! ### Witnesses: fetch, numbers, fences, time, partitions -/

/-- The first block of the code page in the instruction cache, as the memory of the state holds it. -/
def icB : IcBlock := ⟨0, 1, 0, 0x8000, 1, BitVec.ofNat 8192 (leNat (rdBytes (w1 0x05C00C1080000000).mem (sramBase 0 0) 1024)), 0⟩
theorem witness_FetchDecodes_block :
    let s := updClu (w1 0x05C00C1080000000) 0 (fun c => { c with icache := [icB] })
    syncXl s1 s (inCode s1 s1.pc0) s1.pc0.toNat = some ⟨1, 1, sramLoc 0 0, 5, 0, false, true, false⟩ ∧ pteX 5 = true
    ∧ icFind (getClu s s1.cl) (s1.lane / 2) s1.task.pid s1.pc0 = some icB ∧ icWord icB s1.pc0 = 0x05C00C1080000000 := by decide
theorem witness_VectorFpResults_nan :
    floatRows.head? = some ⟨.fp32, 8, 23, 127, 0x7F7FFFFF, 0x7FC00000, 2 ^ 24 - 1, 104⟩ ∧ Fmt.fp32 ∈ [Fmt.fp32, .bf16, .fp16]
    ∧ decodeFmt .fp32 0x7FC00001 = .nan ∧ decodeFmt .fp32 0x3F800000 ≠ .nan := ⟨rfl, by decide⟩

/-- A group sum of each kind. -/
theorem witness_ReduceResults_sum : (let p : List Xr := [.nan, .inf true, .inf false, .fin false 3 (-4) false, .fin true 0 2 false]
     Xr.nan ∈ p ∧ Xr.nan ∉ p.drop 1 ∧ Xr.inf false ∈ p.drop 1 ∧ Xr.inf true ∈ p.drop 1 ∧ Xr.inf true ∉ p.drop 2
     ∧ (∀ n, Xr.inf n ∉ p.drop 3) ∧ ∀ x ∈ p.drop 3, fineFor (-4) x)
    ∧ (fpT 4 = true ∧ fpT 2 = false ∧ (7 : BitVec 4).toNat < 8 ∧ decodeFmt (fmtOfT 4) 0x7FC00000 = .nan ∧ decodeFmt (fmtOfT 4) 0 ≠ .nan) := by
  refine ⟨⟨by decide, by decide, by decide, by decide, by decide, by decide, fun x hx => ?_⟩, by decide⟩
  simp only [List.drop, List.mem_cons, List.not_mem_nil, or_false] at hx
  obtain rfl | rfl := hx <;> exact ⟨by decide, rfl⟩

/-- An encoding of each class, and the operands of the scaled forms. -/
theorem witness_ConvertResults_numbers :
    (floatRows.map (·.f) = [.fp32, .bf16, .fp16, .e4m3, .e5m2, .e3m2, .e2m3, .e2m1] ∧ (Rnd.rne ≠ .sr 0 ∧ Rnd.ru ≠ .sr 0))
    ∧ (Fmt.e5m2 ∈ ieeeFmts ∧ Fmt.e3m2 ∈ plainFmts ∧ Fmt.bf16 ∈ ieeeFmts)
    ∧ ((127 : Nat) % 256 ≠ 255 ∧ (255 : Nat) % 256 = 255 ∧ decodeFmt .fp32 0x7FC00000 = .nan ∧ decodeFmt .fp32 0x40000000 ≠ .nan)
    ∧ (∀ x ∈ [xInt 3, xInt (-4)], ∃ n m e, x = .fin n m e false)
    ∧ (amaxOf [decodeFmt .fp32 0x3F800000, xInt (-4)] = .fin false 4 0 false ∧ (∃ e, amaxOf [xInt 0] = .fin false 0 e false)
      ∧ amaxOf [decodeFmt .fp32 0x7FC00000] = .nan ∧ (∃ k i n, decodeFmt .fp32 0x3F800000 = .fin k i n false)) := by
  refine ⟨by decide, by decide, by decide, ?_, by decide, ⟨_, rfl⟩, by decide, _, _, _, rfl⟩
  intro x hx
  simp only [List.mem_cons, List.not_mem_nil, or_false] at hx
  obtain rfl | rfl := hx <;> exact ⟨_, _, _, rfl⟩

/-- The page as a bound pipe of gang 1, whose word at 64 is empty; and no watch entry free. -/
def spPipe (n : Nat) : Strand := { spFe with seg := { spFe.seg with gang := 1 }, idle := n }
def sPipe (n : Nat) : State := { st (spPipe n) { cal := cal, pipes := [⟨1, 0, 16, 0⟩] } with fe := [data] }
theorem witness_ScalarAccess_pipe : ∀ n ∈ [0, 8], curStrand (sPipe n) = some (spPipe n) ∧ pipeBound (sPipe n) (spPipe n) 64 = true
    ∧ feGet (sPipe n) (accessPhys (sPipe n) (spPipe n) 64) = false ∧ accessCause (sPipe n) (spPipe n) .take .page 64 8 8 = none := by decide

theorem witness_BoundaryRequests_raises : (getG sp 2).toNat % 2 ^ 48 % 8 ≠ 0 ∧ ownPage s0 sp away = false ∧ away % 8 = 0
    ∧ away + 8 < 2 ^ 48 ∧ laneRead s0 sp away 16 = .error (.residency, away) := ⟨by decide, by decide, by decide, by decide, rfl⟩

/-- A cancelled collective of the domain; a fence of the strand behind an operation. -/
def collCan : Coll := ⟨1, 1, 1, 0, 0, [(1, 7)], [], [0, 1], false, true, [], []⟩
def spFence : Strand := { sp with fence := [⟨9, false, true, false⟩] }
def sCan : State := { sColl with colls := [collCan] }
theorem witness_PayloadForms_cancelled : (∃ r, laneRead sCan sp 0 128 = .ok r
      ∧ collCause sCan sp ⟨r.words.take 8⟩ ⟨r.words.drop 8⟩ = none ∧ (Layout.mk (r.words.take 8)).dom = 1)
    ∧ sCan.colls.find? (fun x => x.pid == 1 && x.sel == 1 && x.inst == domInst 1 sp.cl && x.k == (tabGet (getCp sCan 0 1).collCount 1).getD 0)
        = some collCan
    ∧ (sCan.ops = [] ∧ sCan.egress = [] ∧ sCan.repl = [] ∧ sp.fence = [])
    ∧ (∃ f ∈ spFence.fence, f.wr = true ∧ ∃ q ∈ ({ sCan with ops := [{ op0 with id := 9 }], nextId := 10 } : State).ops, q.id = f.id ∧ q.id ≠ 10) := by
  refine ⟨⟨_, rfl, by decide⟩, by decide, by decide, by decide⟩

theorem witness_SampleAccept_pages : (∀ u ∈ spanVas 64 (64 + 8 * 2), ownPage sFilt sp u = true ∧ eccBad sFilt (accessPhys sFilt sp (BitVec.ofNat 48 u)) 8 = false)
    ∧ (let s := put 0 [0x40180000 * 2 ^ 32 + 0x40400000, 0xBFF00000 + 2 ^ 32 * 0x40000000, 2, 1] s0
       ∀ u ∈ spanVas 0 64, ownPage s spAcc u = true ∧ eccBad s (accessPhys s spAcc (BitVec.ofNat 48 u)) 8 = false)
    ∧ (∃ u ∈ spanVas (32768 - 4) 64, ownPage s0 sp u = false) ∧ lineEnd sFilt sp [data + 64] 8 < endCycle sp
    ∧ endCycle { sp with seg := { sp.seg with len := 0 } } ≤ lineEnd sFilt sp [data + 64] 8 := by decide

/-- Weights of a record with a NaN logit and one without; the header of an open and of a closed probe. -/
theorem witness_SampleAccept_draws :
    (let wt := [wExpN (decodeFmt .fp32 0x3F800000) (decodeFmt .fp32 0x3F800000), wExpN .nan (decodeFmt .fp32 0x3F800000)]
     .nan ∈ wt ∧ .nan ∉ wt.take 1 ∧ (groupSum (wt.take 1)).1 ≠ .nan ∧ (∀ n, (groupSum (wt.take 1)).1 ≠ .inf n)
      ∧ xCmp (xScale 24 (groupSum [xZero, (wt.head?.getD .nan)]).1) (xMul (xInt 5) (groupSum (wt.take 1)).1).1 = 1)
    ∧ (decodeFmt .fp32 0x40400000 ≠ .nan ∧ decodeFmt .fp32 0xBFF00000 ≠ .nan ∧ (1 : Nat) % 2 = 1 ∧ ∃ m e, decodeFmt .fp32 0x40180000 = .fin false m e false ∧ m ≠ 0) := by
  refine ⟨by decide, by decide, by decide, by decide, _, _, rfl, by decide⟩

/-- A fence that waits for a write in a buffer, one that waits for an operation, and an operation that a fence holds. -/
def opHeld : Op := { op .pgget [0, 0, 3] with deps := [⟨9, true, true, false⟩] }
def sHeld : State := { eng opHeld with ops := [{ op0 with id := 9 }, opHeld] }
theorem witness_FenceWhisk_held :
    (egw.task = 9 ∧ ∀ o ∈ s0.ops, o.id ≠ egw.op)
    ∧ (⟨9, true, true, false⟩ ∈ opHeld.deps ∧ (∃ q ∈ sHeld.ops, q.id = 9) ∧ opHeld.kind ≠ .fst ∧ opHeld.kind ≠ .fld)
    ∧ (∀ d ∈ opHeld.deps, (∀ q ∈ (eng opHeld).ops, q.id ≠ d.id) ∧ ∀ e ∈ (eng opHeld).egress, e.op ≠ d.id)
    ∧ HeldByFence sHeld opHeld ∧ onWalker opHeld.kind = true ∧ opHeld.id < 2
    ∧ (let q := { op .attd [0, 0, 0, 0, 0] with deps := [⟨9, true, true, false⟩] }
       HeldByFence { eng q with ops := [{ op0 with id := 9 }, q] } q)
    ∧ op0.kind ∉ [OpKind.fst, .pgalloc, .pgfree, .launch, .msend, .dqsend] := by
  unfold HeldByFence; decide

/-- The last row of the last cycle of a tick, with a TIME register's write pending. -/
def sTick (r : Nat) : State := { unitS { timePend := [(r, 5)] } {} with cycle := 7, cursor := cursorLate }
theorem witness_BoardEvents_time : ∀ r ∈ [0x842, 0x844], (sTick r).dev.timePend = [(r, 5)] ∧ (sTick r).dev.off = false
    ∧ (sTick r).agenda = [] ∧ (sTick r).cursor = cursorLate ∧ ((sTick r).cycle + 1) % 8 = 0 := by decide

def sFullClu : State := { sPart 2 with clusters := [(0, { pid := some 1, members := [1, 3] })] }
theorem witness_PartitionCommands_refused : (∃ c ∈ rectClusters (partBuf sFullClu 0), 2 ≤ (getClu sFullClu c).members.length)
    ∧ partExists sFullClu 2 = false
    ∧ (let s := dev (buf.map (fun e => if e.1 = 0x81E then (0x81E, 400) else e)) { pid := 2 } (st sp { cal := cal, quota := 256 })
       partExists s 2 = false ∧ (∀ c ∈ rectClusters (partBuf s 0), (getClu s c).members.length < 2) ∧ descInvalid s = false ∧ cmdFree s = true
        ∧ ∃ c ∈ rectClusters (partBuf s 0), quotaOver s c 2 (partBuf s 6 % 2 ^ 9) = true)
    ∧ (∀ o ∈ sSwitch.ops, o.cl = sSwitch.ev.cl → o.out = [])
    ∧ (∀ o ∈ (eng opFld).ops, o.kind = .coll → dieOf o.cl ≠ 0) ∧ (∃ e ∈ (eng opFld).parts, 0 ∈ partDies (eng opFld) e.1) := by decide

theorem witness_DomainEvents_kind0 : (let s := domS { word := 2 + 2 ^ 14 + 2 ^ 18, arr := 1 } (flight false 0 0)
      selKind (flight false 0 0).sel = 0 ∧ s.flights[s.ev.n]? = some (flight false 0 0)) := by decide

/-- A strand saved by AUTO pre-emption, whose remainder enters its queue at the end of the cycle. -/
theorem witness_StrandStops_auto : (let s := { sPre 0x100 with strands := [], parked := [sp], autos := [sp.task.id], ev := { n := 1, id := sp.task.id } }
      s.ev.n = 1 ∧ s.parked.find? (fun x => x.task.id == s.ev.id) = some sp ∧ sp.task.fq = false)
    ∧ (sPre 0x100).ev.n ≠ 1 := by decide

theorem witness_Traps_wait : Ready (st spUns { cal := cal }) spUns (.trap on 1 9) on ∧ settled (st spUns { cal := cal }) spUns = false
    ∧ Ready (st spUns { cal := cal }) spUns (.syscall on 1 0) on :=
  ⟨ready _ _ _ (by unfold State.Inv; decide) rfl rfl, by decide, ready _ _ _ (by unfold State.Inv; decide) rfl rfl⟩

/-! ### Witnesses: what the units of the engines do -/

/-- The engine's state with a head-group record of one head of two elements in group 0 (VA 0x40000, record 6), which ROT_AREA names,
and a page list at 512 whose entry names the page at 0x10000 twice. -/
def engA (o : Op) : State :=
  let s := put 512 [0x10000, 0x10000] (eng o)
  let s := ([(192, 0x10012), (200, 0x208000), (98304 + 128, 0x600000003), (0x208000, 0x20100)] : List (Nat × Word)).foldl
    (fun s e => wr64 s e.1 e.2) s
  { s with clParts := [(1, { ctl := [(0x1B0, 0x40001)] })] }

def opCpy2 : Op := op .cpy2d [4096, 0, BitVec.ofNat 64 (16 + 2 ^ 32 * 2), BitVec.ofNat 64 (64 + 2 ^ 32 * 64), 0]
def opGath : Op := op .gath [4096, 64, BitVec.ofNat 64 (2 + 2 ^ 32 * 16), 0, 0]
def opScat : Op := { op .scat [64, 4096, BitVec.ofNat 64 (2 + 2 ^ 32 * 16), 0, 0] with acc := [BitVec.ofNat 64 (2 ^ 63)] }
def opFstV : Op := { op .fst [128, 4, 0] with bytes := toLe 128 5 }
def opRedF (k : Word) : Op := op .redm [0x10000, 0, 8, k]
def word0 : OutWord := outOf ⟨1, 0, 4, 0x400000003, 0⟩ data (toLe 8 5) false
theorem witness_EngineUnits_copies :
    (∀ o ∈ [opCpy2, opGath, opScat, opFstV, opRedF 0, opRedF 1], Names (eng o) o ∧ opReady (eng o) o = true ∧ channelHead (eng o) o = true
      ∧ Unhindered (eng o) o ∧ isRunning (eng o) o.task = true ∧ drained (eng o) o = true ∧ (eng o).ev.flag = false ∧ o.out = [] ∧ o.deps = [])
    ∧ (∃ pa x s1, engAddr (eng opCpy2) opCpy2 0 false = (.ok (pa, x), s1) ∧ ∃ pd y s2, engAddr s1 opCpy2 4096 true = (.ok (pd, y), s2)
      ∧ MayMove s2 opCpy2 pd pa ∧ pteRepl y.pte0 = false ∧ homeOf pd = 0)
    ∧ (∃ pt x s1, engAddr (eng opGath) opGath 64 false = (.ok (pt, x), s1) ∧ eccBad s1 pt 8 = false ∧ bgBusy s1 opGath pt = false
      ∧ replPending s1 opGath = false ∧ (BitVec.ofNat 64 (leNat (engRead s1 0 pt 8))).getLsbD 63 = false)
    ∧ (∃ te, opScat.acc.head? = some te ∧ te.getLsbD 63 = true) ∧ (4 : Nat) % 8 ≠ 0
    ∧ (∃ a x s1, engAddr (eng opFstV) opFstV 128 true = (.ok (a, x), s1) ∧ tileLeased s1 a 128 = false ∧ bgBusy s1 opFstV a = false ∧ a % 8 = 0)
    ∧ (∃ a x s1, engAddr (eng opFst) opFst 64 true = (.ok (a, x), s1) ∧ tileLeased s1 a 8 = false ∧ bgBusy s1 opFst a = false
      ∧ pteRepl x.pte0 = false ∧ homeOf a = 0 ∧ opFst.bytes.length ≤ 8)
    ∧ (∃ pa x s1, engAddr (eng (opRedF 0)) (opRedF 0) 0 false = (.ok (pa, x), s1) ∧ ∃ pd y s2, engAddr s1 (opRedF 0) 0x10000 true = (.ok (pd, y), s2)
      ∧ pd < 2 ^ 40 ∧ eccBad s2 pa 8 = false ∧ eccBad s2 pd 8 = false ∧ bgBusy s2 (opRedF 0) pa = false ∧ pteRepl y.pte0 = false) := by
  unfold Names Unhindered MayMove
  exact ⟨by decide, ⟨_, _, _, rfl, _, _, _, rfl, by decide⟩, ⟨_, _, _, rfl, by decide⟩, ⟨_, rfl, by decide⟩, by decide,
    ⟨_, _, _, rfl, by decide⟩, ⟨_, _, _, rfl, by decide⟩, _, _, _, rfl, _, _, _, rfl, by decide⟩

/-- A word of a unit that is still to be written. -/
theorem witness_EngineUnits_words : (∀ w ∈ [word0, { word0 with addr := 2 ^ 37 }, { word0 with repl := true, addr := 0x200000 }],
      tileLeased (eng opFst) w.addr w.bytes.length = false ∧ bgBusy (eng opFst) opFst w.addr = false)
    ∧ homeOf word0.addr = 0 ∧ homeOf (2 ^ 37) ≠ 0 := by decide

def opKv : Op := op .kvapp [0x10000, 0x10000, 0, 0, 1]
def opKvB : Op := { opKv with acc := [0], bytes := toLe 8 0x20100 }
def opKvEnd : Op := { opKvB with i := 1 }
theorem witness_EngineUnits_kvapp :
    (∀ o ∈ [opKv, opKvB, opKvEnd], Names (engA o) o ∧ opReady (engA o) o = true ∧ channelHead (engA o) o = true ∧ Unhindered (engA o) o
      ∧ isRunning (engA o) o.task = true ∧ readsOver (engA o) = false ∧ replPending (engA o) o = false)
    ∧ (∃ a k s1, engAddr (engA opKv) opKv 0x10000 false = (.ok (a, k), s1) ∧ ∃ b v s2, engAddr s1 opKv 0x10000 false = (.ok (b, v), s2)
      ∧ rotEn (cpCtl s2 0 1 0x1B0) = true ∧ rotEn (cpCtl (eng opKv) 0 1 0x1B0) = false ∧ pteFill k.pte1 + 1 ≤ 64
      ∧ ∃ bs s3, engFetch s2 opKv (rotVa (cpCtl s2 0 1 0x1B0) (pteHgrp k.pte1)) 1024 = (.ok bs, s3) ∧ hgOk bs = true ∧ hgFits bs 32 = true
        ∧ pairOk (recFmt s3 1 k.fri) (recBlk s3 1 k.fri) = true ∧ recBlk s3 1 k.fri = 0 ∧ contW (recFmt s3 1 k.fri) = 32)
    ∧ (∃ a k s1, engAddr (engA opKvB) opKvB 0x10000 true = (.ok (a, k), s1) ∧ ∃ b v s2, engAddr s1 opKvB 0x10000 true = (.ok (b, v), s2)
      ∧ ∃ kw s3, kvRead opKvB 0 a [(0, 0, 8)] s2 = (.ok (kw, false), s3))
    ∧ (∃ l, walk (engA opKvEnd) 1 0 (0x10000 / 32768) = some l) := by
  unfold Names Unhindered
  exact ⟨by decide, ⟨_, _, _, rfl, _, _, _, rfl, by decide, by decide, by decide, _, _, rfl, by decide⟩, ⟨_, _, _, rfl, _, _, _, rfl, _, _, rfl⟩, _, rfl⟩

def attdArgs (fresh : Nat) : List Word := [BitVec.ofNat 64 (1024 + fresh * 2 ^ 63), 2 ^ 48 + 512, 2048, 2 * 2 ^ 40, 0x40001]
def opAt0 (fresh : Nat) : Op := op .attd (attdArgs fresh)
def opAt1 : Op := { opAt0 1 with acc := [0, 0, 0xFF800000, 0, 0, 0], bytes := toLe 8 0 }
theorem witness_EngineUnits_attd :
    (∀ o ∈ [opAt0 0, opAt0 1, opAt1], Names (engA o) o ∧ opReady (engA o) o = true ∧ bduReady (engA o) o = true ∧ Unhindered (engA o) o
      ∧ readsOver (engA o) = false ∧ writesAway (engA o) o = false ∧ drained (engA o) o = true)
    ∧ (∃ q s1, engFetch (engA (opAt0 1)) (opAt0 1) 1024 8 = (.ok q, s1))
    ∧ (∃ r s1, engFetch (engA (opAt0 0)) (opAt0 0) 2048 72 = (.ok r, s1) ∧ ∃ q s2, engFetch s1 (opAt0 0) 1024 8 = (.ok q, s2))
    ∧ (∃ g u s1, attdCheck (engA opAt1) opAt1 none 0 = (.ok (g, u), s1) ∧ ∃ l s2, engPieces s1 opAt1 true 3 2048 72 = (.ok l, s2)) := by
  unfold Names Unhindered
  exact ⟨by decide, ⟨_, _, rfl⟩, ⟨_, _, rfl, _, _, rfl⟩, _, _, _, rfl, _, _, rfl⟩

/-- Two FP32 logits at VA 0x10000, with DEST in the data page. -/
def opFilt : Op := op .lfilt [0x10000, BitVec.ofNat 64 (2 + 2 ^ 32), 0, 128]
theorem witness_EngineUnits_lfilt :
    (∀ o ∈ [opFilt, { opFilt with acc := [1] }], Names (engA o) o ∧ opReady (engA o) o = true ∧ bduReady (engA o) o = true
      ∧ Unhindered (engA o) o ∧ readsOver (engA o) = false)
    ∧ (∃ a x s1, engAddr (engA opFilt) opFilt 0x10000 false = (.ok (a, x), s1) ∧ recFmt s1 1 x.fri = 1 ∧ recBlk s1 1 x.fri = 0
      ∧ (physStack (recPhys s1 1 x.fri)).isSome = true
      ∧ ∃ ps s2, logitPages (updOp s1 1 (fun q => { q with unit := 0 })) opFilt [0x10000] = (.ok ps, s2) ∧ ps.map (·.2.fri) = [5]
      ∧ ∃ bs s3, engFetch s2 opFilt 0x10000 8 = (.ok bs, s3) ∧ ∃ l s4, engPieces s3 opFilt false 3 128 72 = (.ok l, s4)
      ∧ ∃ m s5, engPieces s4 opFilt true 3 128 72 = (.ok m, s5)) := by
  unfold Names Unhindered
  exact ⟨by decide, _, _, _, rfl, by decide, by decide, by decide, _, _, rfl, by decide, _, _, rfl, _, _, rfl, _, _, rfl⟩

/-! ### Witnesses: the walker's operations -/

/-- The walker's states: the page at VA 0 local, the one at 0x10000 in HBM, record 6 the only free one, frame 7 freed by a spill. -/
def wk (o : Op) (q : Nat) : State :=
  { eng o with parts := [(1, { part1 with words := part1.words.set 2 7 })], clParts := [(1, { quota := q, freed := [7] })] }
/-- Nothing holds a page; the record of VA 0 with REF `r`, or pinned. -/
def wkFree (o : Op) (w : Nat) : State :=
  wr64 { wk o 256 with strands := [(0, { s1 with seg := { s1.seg with xl := [] } })] } 128 (BitVec.ofNat 64 (w * 65536 + 0x11))
def wkOps : List Op :=
  [op .pgset [0, 2, 0], op .pgset [0, 5, 1], op .pgset [0, 6, 2], op .pgset [0, 9, 3], op .pgpin [0], op .pgunpin [0], op .pgspill [0],
   op .pgfill [0x10000], op .pgunmap [0], op .pgfree [4], op .pgalloc [0x18000, 0x81], op .pgmap [0x18000, 4, 1], op .pgcow [0x18000, 0],
   op .kvsplice [0x18000, 0, 5], op .kvspliceS [0, 5], op .kvtrim [0, 0]]

theorem witness_WalkerUnits_ready : ∀ o ∈ wkOps, ∀ s ∈ [wk o 256, wkFree o 1], Names s o ∧ Unhindered s o ∧ isRunning s o.task = true ∧ walkerReady s o = true := by
  unfold Names Unhindered; decide

theorem witness_WalkerUnits_leaf : ∀ o ∈ wkOps,
    ((walk (wk o 256) 1 0 0).map (fun l => (l.fri, ptePin l.pte0, pteFill l.pte1, pteW l.pte0)) = some (4, false, 0, true)
      ∧ walk (wk o 256) 1 0 3 = none ∧ walkNodes (wk o 256) 1 0 3 = [1, 2, 3] ∧ recRef (wk o 256) 1 4 = 1
      ∧ held (wk o 256) 1 4 = true ∧ held (wkFree o 1) 1 4 = false ∧ recRef (wkFree o 3) 1 4 = 3 ∧ recRef (wkFree o 0) 1 4 = 0
      ∧ recPins (wkFree o 1) 1 4 = 0 ∧ recPins (wkFree o 0x20001) 1 4 = 2 ∧ recKind (wkFree o 1) 1 4 = 1 ∧ recKind (wkFree o 1) 1 5 = 2
      ∧ localRec (wk o 256) 1 4 0 = true ∧ localRec (wk o 256) 1 5 0 = false ∧ held (wk o 256) 1 5 = false ∧ o.i = 0) := by decide

theorem witness_WalkerUnits_values :
    (attrOk 1 0 = true ∧ attrOk 1 1 = false)
    ∧ ((5 : Word).getLsbD 15 = false ∧ (0x8000 : Word).getLsbD 15 = true ∧ (6 : Word) &&& 0x1FE = 6 ∧ (7 : Word) &&& 0x1FE ≠ 7)
    ∧ (spliceBad 5 = false ∧ spliceBad (BitVec.ofNat 64 (2 ^ 40)) = true)
    ∧ (∀ o ∈ wkOps, friOk (wk o 256) 1 4 = true ∧ friOk (wk o 256) 1 6 = false ∧ (getCp (wk o 0) 0 1).quota ≤ framesOf (wk o 0) 0 1)
    ∧ Apart 98304 16 128 32 ∧ heldElsewhere (wk opGet 256) 1 1 4 = true := by
  unfold Apart; decide

/-- A choice among the records that can only find one. -/
theorem freeRecord_only (s : State) (p n r : Nat) (h0 : 0 < n) (e : nfr s p = n) (h : ∀ i < n, findRec (freePick s n).2 p n i = some r) :
    (freeRecord s p).1 = some r := by
  subst e
  exact h _ (Nat.mod_lt _ h0)

theorem witness_WalkerUnits_record : (freeRecord (wk opGet 256) 1).1 = some 6 := freeRecord_only _ 1 7 6 (by decide) (by decide) (by decide)
theorem witness_WalkerUnits_frames : (frameInQuota (wk opGet 256) 0 1 5).map (·.1) = some 7
    ∧ (frameInQuota { wk opGet 256 with nfree := 1 } 0 1 6).map (·.1) = some 7
    ∧ walkNodes (newRecord (wk opGet 256) 1 6 1 1 0 0 1 0 (sramLoc 0 7) 0) 1 0 3 = [1, 2, 3] := by decide

/-- A slope of head group 0 in a page that is written, with a cluster's copy of the record held and not. -/
def opSlope : Op := op .rampset [0x100, 5, 0]
def engHeld (n : Nat) : State :=
  { engA opSlope with clParts := [(1, { ctl := [(0x1B0, 0x40001)], rotary := [⟨7, 0, [], false⟩] })]
                      strands := [(0, { sp with seg := { sp.seg with rot := [n] } })] }
theorem witness_WalkerUnits_slope : ∀ n ∈ [7, 8], Names (engHeld n) opSlope ∧ Unhindered (engHeld n) opSlope ∧ walkerReady (engHeld n) opSlope = true
    ∧ rotEn (cpCtl (engHeld n) 0 1 0x1B0) = true ∧ rotVa (cpCtl (engHeld n) 0 1 0x1B0) 0 = 0x40000
    ∧ (walk (engHeld n) 1 0 8).map (fun l => (pteW l.pte0, pteCow l.pte0, pteRepl l.pte0)) = some (true, false, false)
    ∧ rotHeld (engHeld n) 7 = (n == 7) := by
  unfold Names Unhindered; decide

/-! ### Witnesses: faults, placement, the Sieve's work -/

/-- An event whose vector word can be read, and one whose cannot; a slot taken by every number and a full fault queue. -/
theorem witness_FaultEvents_vector : (sieveWords sWait 0 1 0 (dieCtl sWait 0 1 0x421 / 2 ^ 8 % 2 ^ 40 * 2 ^ 8 + 8 * 10) 1).isOk = true
    ∧ (let s := updDp sWait 0 1 (fun k => { k with ctl := [(0x421, 2 ^ 40 + 1)] })
       (sieveWords s 0 1 0 (dieCtl s 0 1 0x421 / 2 ^ 8 % 2 ^ 40 * 2 ^ 8 + 8 * 10) 1).isOk = false)
    ∧ leastFree ((List.range 256)) 256 0 = none := by decide

/-- Requests for a parked strand (its image sound, and one whose length is 0), for an entry of a queue, and for a batch. -/
def parkedS : Strand := { sp with task := { sp.task with id := 9 } }
def sSubj (k : Nat) (sub : Subject) (lr : Nat) : State :=
  let s := sEnd (endReq k 0) [(0, ⟨fev 1 sub, true, false⟩)] op0
  let s := { s with parked := [parkedS], images := [(9, 0, 0, false)], clParts := [(1, { kq with gangs := [] })] }
  wr64 s (imagePhys s 0 1 0 + 16) (BitVec.ofNat 64 (lr * 2 ^ 48))
def entryF (q : Nat) (fq : Bool) : Entry := ⟨{ sp.task with id := 9, fq := fq }, .fresh 0x1000 0 0, q, 5, 0, 0, 0, none, none⟩
theorem witness_FaultEvents_strand :
    (imageOf (sSubj 0 (.strand 9) 1) 9 1).isSome = true ∧ (shapesOf (sSubj 0 (.strand 9) 1) 9 1).isSome = true
    ∧ (let s := sSubj 0 (.strand 9) 1; imageBad s ((imageOf s 9 1).getD 0) ((shapesOf s 9 1).getD 0) = false)
    ∧ (let s := sSubj 0 (.strand 9) 0; imageBad s ((imageOf s 9 1).getD 0) ((shapesOf s 9 1).getD 0) = true)
    ∧ (∀ k < 2, (9 : Nat) ≠ (endReq k 0).task ∧ (∀ e ∈ (sSubj k (.strand 9) 1).strands, e.2.task.id ≠ 9)
      ∧ (sSubj k (.strand 9) 1).parked.find? (fun t => t.task.id == 9) = some parkedS ∧ (∀ o ∈ (sSubj k (.strand 9) 1).ops, o.kind ≠ .coll)
      ∧ tabGet (getDp (sSubj k (.strand 9) 1) 0 1).records 0 = some ⟨fev 1 (.strand 9), true, false⟩) := by decide
theorem witness_FaultEvents_entry :
    (∀ q < 2, tabGet (getDp (sSubj 0 (.entry 0 (entryF q false)) 1) 0 1).records 0 = some ⟨fev 1 (.entry 0 (entryF q false)), true, false⟩
      ∧ queueShut (sSubj 0 (.entry 0 (entryF q false)) 1) 0 1 q = (q == 1) ∧ (entryF q false).work = .fresh 0x1000 0 0)
    ∧ ((entryF 0 true).task.fq = true ∧ countsInQueue (entryF 0 true).work = true ∧ (getDie (sSubj 0 (.entry 0 (entryF 0 true)) 1) 0).fq = [])
    ∧ tabGet (getDp (sSubj 1 (.batch 0 1) 1) 0 1).records 0 = some ⟨fev 1 (.batch 0 1), true, false⟩ := by decide
/-- An abort of an operation of the strand in lane 1, whose task is gone with it. -/
theorem witness_FaultEvents_task : (let s := { sEnd (endReq 2 0) [(0, ⟨fev 1 (.op op0.id), true, false⟩)] { op0 with task := 9 } with
        strands := [(0, sp), (1, { parkedS with lane := 1 })] }
      tabGet s.strands 1 = some { parkedS with lane := 1 } ∧ laneKey { parkedS with lane := 1 } = 1
        ∧ (∀ e ∈ s.strands, e.2.task.id = 9 → e.1 = 1) ∧ opFind s op0.id = some { op0 with task := 9 }) := by decide

/-- A head in queue 0 whose block and record lie in the data page under the PTE `pte`; and in a page of HBM. -/
def attS (pte : Nat) : State :=
  put (0x1000 - 32) [1, 0, 0, 1] { wr64 (st { sp with seg := { sp.seg with sid := 9 } } { queues := [(0, [entry0])] }) 98304 (BitVec.ofNat 64 pte) with cycle := 8 }
def attFar : State :=
  ([(128, 0x10012), (136, 0x200000), (0x200000 + 0xFE0, 1), (0x200000 + 0xFF8, 1)] : List (Nat × Word)).foldl (fun s e => wr64 s e.1 e.2) (attS 0x400000007)
def candA : Cand := ⟨0, 77, 5⟩
def planA (s : State) : Except (Cause × Nat) Plan := planOf s 0 1 entry0.task entry0.work entry0.nb 0 0 0 77
/-- How preparation of the head ends. -/
def prepA (s : State) : Except PrepRes Prep :=
  match planA s with
  | .error x => .error (.fault x.1 x.2)
  | .ok pl => match prepCand (fillPlan 0 1 s pl) 0 1 [pl] with
    | .error e => .error e.1
    | .ok x => .ok x.2.1
/-- The plan fits in tick 40 of lane 1, for an attempt that ends in tick 1, and not in lane 0, which is booked. -/
def fitsA (s : State) (l : Nat) : Bool :=
  match planA s with
  | .error _ => false
  | .ok pl =>
    have : Decidable (FitsAt (fillPlan 0 1 s pl) 0 1 1 [⟨0, 0, 99, 1⟩] pl 40 l) := by unfold FitsAt; infer_instance
    decide (FitsAt (fillPlan 0 1 s pl) 0 1 1 [⟨0, 0, 99, 1⟩] pl 40 l)

/-- Attempts that end in a fault (no record, no X), in far work, and in a placement. -/
theorem witness_SieveEvents_attempt :
    (∀ d, entry0.work ≠ .gang d) ∧ (∀ g, entry0.work ≠ .gangRound g) ∧ dieOf 0 ∉ (attS 7).dev.hot
    ∧ (planA sRound).isOk = false ∧ (planA (attS 0x400000003)).isOk = true ∧ (planA attFar).isOk = true
    ∧ (match prepA (attS 0x400000003) with | .error (.fault c v) => decide (c = .protection ∧ v = 0) | _ => false) = true
    ∧ (match prepA attFar with | .error (.far w who v) => decide (w = 1 ∧ who = 0 ∧ v = 0) | _ => false) = true
    ∧ (match prepA (attS 0x400000007) with | .ok q => q.copies.isEmpty && q.after == 0 | _ => false) = true
    ∧ fitsA (attS 0x400000007) 1 = true ∧ fitsA (attS 0x400000007) 0 = false := by
  refine ⟨fun _ h => (nomatch h), fun _ h => (nomatch h), by decide, by decide, by decide, by decide, by decide, by decide, by decide, by decide, by decide⟩

/-- A booking of tick 3 on of resource 8 for two ticks: bad without a duration, out of reach behind the segment's end, booked, free. -/
def bookW : Word := BitVec.ofNat 64 (8 + 2 ^ 5 * 3 + 2 ^ 17 * 2 + 2 ^ 29)
def kBook (c : List Booking) : ClPart := { cal := c }
theorem witness_SieveEvents_book :
    (let r := bookReq bookW
     r.word.toNat % 2 ^ 5 = 8 ∧ r.rt + 2 ≤ 3 ∧ 3 + 2 ≤ r.len ∧ r.word.toNat / 2 ^ 49 = 0 ∧ r.word.toNat / 2 ^ 29 % 2 ^ 8 = 1)
    ∧ bookResult (kBook []) (bookReq 0) true = (3, []) ∧ (bookResult (kBook []) { bookReq bookW with rt := 2 } true).1 = 2
    ∧ (bookResult (kBook cal) (bookReq bookW) true).1 = 1 ∧ (bookResult (kBook []) (bookReq bookW) true).1 = 0
    ∧ (∀ b ∈ cal, b.lo ≤ b.hi) ∧ (bookResult (kBook cal) { bookReq bookW with kind := 1 } true).1 = 2 := by decide

/-- Requests of each kind at a boundary, with a gang and pipes for the pipe forms. -/
def gangB : Gang := ⟨1, 0, entry0, [], [0], [0], 4, 5, true⟩
def bindW : Word := BitVec.ofNat 64 (64 + 2 ^ 48 * 4 + 2 ^ 55)
def sAsk (r : CalReq) (pipes : List Pipe) : State :=
  { updCp sBook 0 1 (fun k => { k with reqs := [r], gangs := [gangB], pipes := pipes }) with cycle := 16 }
theorem witness_SieveEvents_asks :
    (∀ k < 5, ∀ pipes ∈ [[], [⟨1, 64, 4, 0⟩], [⟨2, 72, 4, 0⟩], List.replicate 32 ⟨1, 0x1000, 1, 0⟩],
      let r := { bookReq bindW with kind := k, gang := 1, phys := some data }
      Asks (sAsk r pipes) 0 1 [r] ∧ (getCp (sAsk r pipes) 0 1).cands = [] ∧ noPlacing (sAsk r pipes) 0 = true
        ∧ isRunning (sAsk r pipes) r.task = true ∧ r.cycle / 8 + 2 ≤ tickNow (sAsk r pipes)
        ∧ (∃ g ∈ (getCp (sAsk r pipes) 0 1).gangs, g.num = r.gang) ∧ (getCp (sAsk r pipes) 0 1).pipes = pipes)
    ∧ (let r := { bookReq bindW with kind := 3, gang := 1, phys := some data }
       r.word.getLsbD 55 = true ∧ (∀ e ∈ (sAsk r []).clParts, ∀ c ∈ e.2.copies, c.what ≠ 1) ∧ (walk (sAsk r []) 1 0 0).isSome = true) := by
  unfold Asks; decide

theorem witness_SieveEvents_round :
    Asks { sRound with ev := { pid := 1 } } 0 1 [] ∧ (getCp sRound 0 1).cands = []
    ∧ (let s := updCp sRound 0 1 (fun k => { k with cands := [⟨0, 77, 5⟩], attemptAt := 8 })
       Asks s 0 1 [] ∧ heldBack s 0 1 ⟨0, 77, 5⟩ = false ∧ (getCp s 0 1).attemptAt < 16) := by
  unfold Asks; decide

/-- Far work on a node that is shared, and a copy of each kind. -/
def farN : FarWork := ⟨77, 0, 0, 0, false, 0⟩
def sNode (ref : Nat) : State := wr64 (st sp { far := [farN] }) 96 (BitVec.ofNat 64 (ref * 65536 + 2))
def copyOf (w : Nat) : LocalCopy := ⟨1, w, 5, data, 0, 4, 1, 0, 0, 0, []⟩
theorem witness_SieveEvents_far :
    (getCp (sNode 1) 0 1).far.find? (fun f => f.taskId == 77 && !f.done) = some farN
    ∧ (let s0 := updCp (sNode 1) 0 1 (fun k => { k with far := k.far.filter (fun x => x != farN) })
       walkNodes s0 1 0 0 = [1, 2, 3] ∧ recRef s0 1 1 ≤ 1 ∧ recRef s0 1 2 ≤ 1 ∧ recRef s0 1 3 ≤ 1)
    ∧ (let s0 := updCp (sNode 2) 0 1 (fun k => { k with far := k.far.filter (fun x => x != farN) })
       1 < recRef s0 1 3)
    ∧ Quiet (sNode 1) := by
  unfold Quiet; decide
/-- Copies into frame 1: a page moved into it, one whose record has gone elsewhere meanwhile, and a copy-on-write copy in record 4. -/
def sCopy (c : LocalCopy) (pte1 : Nat) : State :=
  let s := ([(160, 0x20010012), (168, 0x200000), (98304, pte1)] : List (Nat × Word)).foldl (fun s e => wr64 s e.1 e.2) (st s1 { copies := [c] })
  { s with cycle := 8, ev := { pid := 1, n := 1 } }
theorem witness_SieveEvents_copies :
    (∀ w < 3, (getCp (sCopy (copyOf w) 1) 0 1).copies.find? (fun c => c.frame == 1 && decide (c.last < tickNow (sCopy (copyOf w) 1))) = some (copyOf w)
      ∧ Quiet (sCopy (copyOf w) 1) ∧ recKind (sCopy (copyOf w) 1) 1 4 = 1 ∧ recWord (sCopy (copyOf w) 1) 1 4 1 = sramLoc 0 1)
    ∧ ((copyOf 0).fri = 4 ∧ recPhys (sCopy (copyOf 0) 1) 1 4 = (copyOf 0).src
      ∧ recPhys (sCopy { copyOf 0 with src := 64 } 1) 1 4 ≠ ({ copyOf 0 with src := 64 } : LocalCopy).src)
    ∧ (Apart data 32768 0 32768 ∧ Apart data 32768 128 16) := by
  unfold Quiet Apart; decide

/-- Windows of the spill path: one begins at tick 48, one ends at tick 64, for the first unit, the last, and a demand frame. -/
def sSpl (tick u : Nat) (idle : Bool) (mv : Bool) : State :=
  let v : Evict := ⟨1, 4, u, 0, 0, mv⟩
  { updClu (st s1 {}) 0 (fun c => { c with evIdle := if idle then [v] else [], evDemand := if idle then [] else [v] }) with cycle := 8 * tick, ev := { pid := 1 } }
theorem witness_SieveEvents_windows : ∀ s ∈ [sSpl 48 0 true false, sSpl 48 0 false false, sSpl 64 2 true true, sSpl 64 3 true true],
    (∀ x ∈ (getClu s 0).evIdle ++ (getClu s 0).evDemand, spillable s 0 x = true) ∧ spillSlot s 0 1 = some 0 ∧ Quiet s := by
  unfold Quiet; decide
theorem witness_SieveEvents_blocks : (let c := copyOf 2
      (getCp (sCopy c 1) 0 1).copies.find? (fun x => x.fri == c.fri) = some c)
    ∧ (tickNow (sSpl 48 0 true false) % 64 = 48 ∧ tickNow (sSpl 64 3 true true) % 64 = 0 ∧ tickNow (sSpl 7 3 true true) % 64 = 7) := by decide
theorem witness_SieveEvents_cow : (let s := sCopy (copyOf 1) 0x50000000B
    (walk s 1 (whoRoot s 0 1 0) 0).map (fun l => (l.fri, pteCow l.pte0, ptePin l.pte0, l.pteAt)) = some ((copyOf 1).old, true, false, 98304)
      ∧ 1 < recRef s 1 (copyOf 1).old ∧ (copyOf 1).fri ≠ (copyOf 1).old ∧ Apart 98304 16 128 8 ∧ Apart 98304 16 160 8) := by unfold Apart; decide

/-- No record is free for the copy of a node. -/
theorem freeRecord_none (s : State) (p n : Nat) (e : nfr s p = n) (h0 : 0 < n) (h : ∀ i < n, findRec (freePick s n).2 p n i = none) :
    (freeRecord s p).1 = none := by
  subst e
  exact h _ (Nat.mod_lt _ h0)
theorem copyNode_none (s : State) (d p lvl fri : Nat) (h : (freeRecord s p).1 = none) : copyNode s d p lvl fri = .error .residency := by
  have h2 : newNode s d p = none := by
    unfold newNode
    rcases hr : freeRecord s p with ⟨_ | r, s2⟩
    · rfl
    · rw [hr] at h
      cases h
  unfold copyNode
  rw [h2]
def sNone : State := { sNode 2 with parts := [(1, { part1 with words := part1.words.set 2 5 })] }
theorem witness_SieveEvents_noNode : copyNode sNone 0 1 3 3 = .error .residency :=
  copyNode_none _ _ _ _ _ (freeRecord_none _ 1 5 (by decide) (by decide) (by decide))

/-! ### Witnesses: stream requests, rings -/

/-- The state with this package in the first entry of the partition's die list. -/
def hereS (s : State) : State := wrN s 0x80000 4 (8 * Config.torus.toNat)

theorem dieEntry_here (s : State) (h : s.Inv) (h0 : partField s 1 0 25 9 = 1) (h7 : partField s 1 7 0 40 = 0x80000) :
    dieEntry (hereS s) 1 0 = some (0, Config.torus.toNat) := by
  have e : rdN (hereS s) 0x80000 4 = 8 * Config.torus.toNat := by
    rw [hereS, rdN_wrN _ _ _ _ h.1]
    omega
  unfold dieEntry
  rw [show partField (hereS s) 1 0 25 9 = 1 from h0, show partField (hereS s) 1 7 0 40 = 0x80000 from h7]
  rw [if_pos (by decide), Nat.mul_zero, Nat.add_zero, e]
  exact congrArg some (Prod.ext (by simp) (by show 8 * Config.torus.toNat / 8 % 2 ^ 12 = _; omega))

theorem liveSn_here (s : State) (h : s.Inv) (h0 : partField s 1 0 25 9 = 1) (h7 : partField s 1 7 0 40 = 0x80000) (sn : Nat)
    (hs : sn < 16384) (hn : sn < nstr s 0 1) : liveSn (hereS s) 0 1 sn = getStr s 0 1 sn := by
  have d : dieSlot (hereS s) 1 0 = some 0 := by
    unfold dieSlot
    rw [show partField (hereS s) 1 0 25 9 = 1 from h0]
    simp [List.range, List.range.loop, dieEntry_here s h h0 h7]
  have g : getStr (hereS s) 0 1 sn = getStr s 0 1 sn := by
    unfold getStr
    rw [if_pos hs, if_pos hs]
    rfl
  unfold liveSn
  have b : sidHere (hereS s) 0 1 sn = true := by
    unfold sidHere
    rw [d, show nstr (hereS s) 0 1 = nstr s 0 1 from rfl]
    simp [noSid]
    omega
  rw [if_pos b, Nat.mod_eq_of_lt (by omega), g]

/-- A request of form `f` for stream 5 with descriptor words `w`. -/
def opStr (f x m : Nat) : Op := op .stream [BitVec.ofNat 64 f, 5, BitVec.ofNat 64 x, BitVec.ofNat 64 m]
def askS (w : List Word) (o : Op) : State := updDp (strS 0 o {}) 0 1 (fun k => { k with streams := [(5, w)] })


theorem asked_here (s : State) (o : Op) (f : Nat) (w : List Word) (h : s.Inv) (h0 : partField s 1 0 25 9 = 1) (h7 : partField s 1 7 0 40 = 0x80000)
    (d : o ∈ s.ops ∧ (∀ q ∈ s.ops, q.id = o.id → q = o) ∧ o.kind = .stream ∧ o.cl ≠ awayCl ∧ o.args.getD 0 0 = BitVec.ofNat 64 f
      ∧ o.bytes = [] ∧ (s.egress = [] ∧ s.repl = [] ∧ o.deps = []) ∧ isRunning s o.task = true)
    (e : o.pid = 1 ∧ (o.args.getD 1 0).toNat = 5 ∧ 5 < nstr s 0 1 ∧ getStr s 0 1 5 = some w ∧ w.length = 16) : AskedOf (hereS s) 0 o f w := by
  obtain ⟨d1, d2, d3, d4, d5, d6, ⟨d7, d8, d9⟩, d10⟩ := d
  obtain ⟨e1, e2, e3, e4, e5⟩ := e
  refine ⟨d1, d2, d3, d4, d5, d6, ⟨?_, ?_, d9⟩, d10, ?_, ?_, e5⟩
  · rw [show (hereS s).egress = [] from d7]
    exact fun _ h => nomatch h
  · rw [show (hereS s).repl = [] from d8]
    exact fun _ h => nomatch h
  · rw [e1, e2]
    exact (liveSn_here s h h0 h7 5 (by decide) e3).trans e4
  · rw [e2]
    decide

/-- Requests for a stream in each state, with a horizon, an action and a pin: the conditions of each form's clauses. -/
def strW2 (w0 w1 : Nat) : List Word := [BitVec.ofNat 64 w0, BitVec.ofNat 64 w1, 0, 0, 0, 0, 64, 1024, 0, 0, 0, 0, 0, 0, 0, 0]
theorem witness_StreamEvents_asked (f : Nat) (hf : f ∈ [3, 5, 6, 2, 10, 8, 1]) (n : Nat) (hn : n ∈ [0, 1, 3, 5, 6, 7]) :
    AskedOf (hereS (askS (strW2 n (2 ^ 32)) (opStr f 1 0))) 0 (opStr f 1 0) f (strW2 n (2 ^ 32)) := by
  refine asked_here _ _ _ _ ?_ ?_ ?_ ?_ ?_ <;> revert n f <;> (try unfold State.Inv) <;> decide
theorem witness_StreamEvents_words :
    (∀ n < 8, stState (strW2 n 0) = n ∧ stAqc (strW2 n 0) < 4 ∧ stHor (strW2 n 0) = 0 ∧ stHor (strW2 n (2 ^ 32)) = 1 ∧ stNkids (strW2 n 0) = 0
      ∧ sF (strW2 n 0) 0 7 1 = 0 ∧ stPin (strW2 n 0) = false ∧ statePages s0 1 (strW2 n 0) = some [])
    ∧ (ssetMask 0 ≠ 0 ∧ ssetMask 1 = 0 ∧ ssetMask 6 ≠ 0) ∧ ((2 ^ 40 : Nat) / 2 ^ 40 % 256 > stLcur (strW2 0 0) ∧ (9 * 2 ^ 26 : Nat) / 2 ^ 26 % 16 > 8)
    ∧ (∀ n ∈ (getDp (strS 0 opSget {}) 0 1).live, ∀ v, getStr (strS 0 opSget {}) 0 1 n = some v → stState v ≠ ST_HELD) := by decide

/-- Reductions of SJOIN: with a NaN, with an infinity, with finite values only, with none. -/
theorem witness_StreamEvents_join :
    (let xs := [0x7FC00000, 0x7F800000, 0xFF800000, 0x3F800000].map (decodeFmt .fp32)
     .nan ∈ xs ∧ .inf false ∈ xs.drop 1 ∧ .inf false ∉ xs.drop 2 ∧ (xs.drop 3).filter (fun x => !xIsInf x) = xs.drop 3
      ∧ ((xs.drop 2).take 1).filter (fun x => !xIsInf x) = [] ∧ ∀ x ∈ xs.drop 1, x ≠ .nan) := by decide

/-- SFORK: a die list that names no such die, a stream that forks, its root's count full and not, no number free. -/
def opFork : Op := { op .stream [0, 5, 1, 0, 6, 2] with i := 1 }
theorem witness_StreamEvents_fork :
    (opFork.args.getD 0 0 = 0 ∧ (opFork.args.getD 4 0).toNat < 64 ∧ (opFork.args.getD 5 0).toNat < 8 ∧ isRunning (strS 0 opFork {}) opFork.task = true)
    ∧ sidHome (strS 0 opFork {}) 1 (5 + 2 ^ 16) = none
    ∧ (leastFree (getDp (strS 0 opFork {}) 0 1).live (min (nstr (strS 0 opFork {}) 0 1) 16384) 0 = some 0 ∧ (∀ n ∈ (getDp (strS 0 opFork {}) 0 1).live, n < 16384)
      ∧ leastFree (List.range 16) 16 0 = none ∧ recRef (strS 0 opFork {}) 1 0 < 65535) := by decide
theorem witness_StreamEvents_forkHome : sidHome (hereS (strS 3 opFork {})) 1 5 = some (0, Config.torus.toNat)
    ∧ liveSn (hereS (strS 3 opFork {})) 0 1 5 = some (strW 3) :=
  ⟨dieEntry_here _ (by unfold State.Inv; decide) rfl rfl, liveSn_here _ (by unfold State.Inv; decide) rfl rfl 5 (by decide) (by decide)⟩

/-- A valid ring header at VA 0 with room, and an invalid one. -/
def ringS (cap : Nat) : State := put 0 [BitVec.ofNat 64 cap, 0, 0, 0, 0, 0, 0, 0] (strS 3 opSget {})
theorem witness_StreamEvents_ringAt :
    (let w := fun k => ringRd (ringS 4) 1 (0 + 8 * k)
     1 ≤ w 0 ∧ w 0 < 2 ^ 16 ∧ w 1 < 2 ^ 32 ∧ w 2 < 2 ^ 32 ∧ w 3 < 2 ^ 33 ∧ (∀ k < 8, 4 ≤ k → w k = 0) ∧ (w 1 + 2 ^ 32 - w 2) % 2 ^ 32 ≤ w 0)
    ∧ ¬ 1 ≤ ringRd (ringS 0) 1 0
    ∧ (wordVas 0 64).findSome? (fun v => ringStop (ringS 4) 1 v true) = none
    ∧ (∃ c va, (wordVas (2 ^ 20) 64).findSome? (fun v => ringStop (ringS 4) 1 v true) = some (c, va)) := by
  refine ⟨by decide, by decide, by decide, _, _, rfl⟩

/-- COMMIT of two tokens by a running stream of this package. -/
def opCommit : Op := { op .commit [0, 5, 0, 0] with acc := [7, 8] }
theorem witness_StreamEvents_commit : opCommit ∈ (strS 3 opCommit {}).ops ∧ Unhindered (strS 3 opCommit {}) opCommit
    ∧ isRunning (strS 3 opCommit {}) opCommit.task = true ∧ opCommit.cl ≠ awayCl ∧ Quiet (strS 3 opCommit {})
    ∧ (∀ x, (none : Option Nat) = some x → x ∉ opCommit.acc.map (·.toNat)) := by
  refine ⟨by decide, by unfold Unhindered; decide, by decide, by decide, by unfold Quiet; decide, fun _ h => nomatch h⟩
theorem witness_StreamEvents_commitHere : liveSn (hereS (strS 3 opCommit {})) 0 1 5 = some (strW 3) ∧ (strW 3).length = 16 ∧ stState (strW 3) = ST_RUNNING :=
  ⟨liveSn_here _ (by unfold State.Inv; decide) rfl rfl 5 (by decide) (by decide), by decide, by decide⟩

/-- The words of a ring lie in the data page, which no page table meets. -/
theorem witness_StreamEvents_drainWords : (∀ n < 3, (walk (strS 0x83 opSget {}) 1 0 0).map (·.fri) = some 4 ∧ Apart (data + 64 + 8 * n) 8 (data + 8) 8)
    ∧ (let w0 := ringRd (strS 0x84 opSget {}) 1 1024; w0 % 32 ≤ 16)
    ∧ stState (strW 0x84) = ST_HELD ∧ sF (strW 0x84) 0 7 1 = 1 := by unfold Apart; decide

/-- A request that is due in the tick, two in their order, and a waiting stream with an open batch and without. -/
theorem witness_StreamEvents_due :
    (opSget.kind = .stream ∧ opSget.i ≤ 1 ∧ opSget.stopped = false ∧ opSget.fin = none ∧ opSget.arr < tickNow (strS 3 opSget {})
      ∧ reqDie (strS 3 opSget {}) opSget = some 0 ∧ (getClu (strS 3 opSget {}) opSget.cl).pid = some 1)
    ∧ (let y := { opSget with id := 2 }
       reqBefore 0 opSget y = true ∧ reqBefore 0 y opSget = false)
    ∧ (let s := updDp { strS 3 opSget {} with ops := [] } 0 1 (fun k => { k with waiting := [5] })
       s.ops.filter (reqDue s 0 1) = [] ∧ strEn s 0 1 = true ∧ (getDp s 0 1).waiting = [5] ∧ openBatch s 0 1 (strW 3) = some batch5
        ∧ openBatch (updDp s 0 1 (fun k => { k with batches := [] })) 0 1 (strW 3) = none ∧ batch5.mems.length < 64) := by decide

/-- The data page stays mapped while the page tables stay: no write to the page meets them. -/
theorem ringLeaf_data (s : State) (v : Nat) (hv : v / 32768 = 0) (hp : s.parts = s0.parts) (h : ∀ b < 2 ^ 40, rdCell s.mem b = rdCell s0.mem b) :
    ∃ l, ringLeaf s 1 v = some (data + v % 32768, l) := by
  have hr : ∀ a, a + 8 ≤ 2 ^ 40 → rd64 s a = rd64 s0 a := by
    intro a ha
    unfold rd64 rdN
    simp only [rdBytes]
    rw [h a (by omega), h (a + 1) (by omega), h (a + 1 + 1) (by omega), h (a + 1 + 1 + 1) (by omega), h (a + 1 + 1 + 1 + 1) (by omega),
      h (a + 1 + 1 + 1 + 1 + 1) (by omega), h (a + 1 + 1 + 1 + 1 + 1 + 1) (by omega), h (a + 1 + 1 + 1 + 1 + 1 + 1 + 1) (by omega)]
  have hw : ∀ i, partWord s 1 i = partWord s0 1 i := by
    intro i
    unfold partWord
    rw [hp]
  have hf : ∀ i lo n, partField s 1 i lo n = partField s0 1 i lo n := fun i lo n => by
    unfold partField
    rw [hw]
  have h0 : ∀ fri i, fri < 16 → i < 4 → recWord s 1 fri i = recWord s0 1 fri i := by
    intro fri i hn hi
    unfold recWord recAddr frt
    rw [hf, show partField s0 1 1 0 40 = 0 from by decide]
    exact hr _ (by omega)
  have hk : ∀ fri < 16, recKind s 1 fri = recKind s0 1 fri ∧ recPhys s 1 fri = recPhys s0 1 fri ∧ recFmt s 1 fri = recFmt s0 1 fri
      ∧ friOk s 1 fri = friOk s0 1 fri := by
    intro fri hn
    unfold recPhys friOk recKind recFmt nfr
    rw [h0 _ _ hn (by omega), h0 _ _ hn (by omega), hf]
    exact ⟨rfl, rfl, rfl, rfl⟩
  have hroot : rootOf s 1 0 = 1 := by
    unfold rootOf defaultRoot
    rw [hf]
    decide
  have ha : ∀ fri < 16, ∀ vpn l, pteAddr s 1 fri vpn l = pteAddr s0 1 fri vpn l := by
    intro fri hn vpn l
    unfold pteAddr
    rw [(hk fri hn).2.1]
  have hn : ∀ w0 w1, pteFri w0 < 16 → nodeOk s 1 w0 w1 = nodeOk s0 1 w0 w1 := by
    intro w0 w1 hl
    unfold nodeOk
    rw [(hk _ hl).2.2.1, (hk _ hl).2.2.2]
  have hl : ∀ w0 w1, pteFri w0 < 16 → leafOk s 1 w0 w1 = leafOk s0 1 w0 w1 := by
    intro w0 w1 hl
    unfold leafOk
    rw [(hk _ hl).2.2.2]
  have h1 : walkNodes s 1 0 0 = [1, 2, 3] := by
    unfold walkNodes
    simp only [hroot, (hk 1 (by decide)).2.2.2, ha 1 (by decide)]
    rw [hr _ (by decide), hr _ (by decide), hn _ _ (by decide), ha _ (by decide)]
    rw [hr _ (by decide), hr _ (by decide), hn _ _ (by decide)]
    decide
  have h2 : walk s 1 0 0 = walk s0 1 0 0 := by
    unfold walk
    rw [h1, show walkNodes s0 1 0 0 = [1, 2, 3] from by decide]
    simp only [ha 3 (by decide)]
    rw [hr _ (by decide), hr _ (by decide), hl _ _ (by decide)]
  unfold ringLeaf
  rw [hv, h2]
  refine ⟨⟨98304, 0x400000003, 0, 4, [1, 2, 3]⟩, ?_⟩
  rw [show walk s0 1 0 0 = some ⟨98304, 0x400000003, 0, 4, [1, 2, 3]⟩ from by decide, Option.map_some, (hk 4 (by decide)).2.1]
  rw [show recPhys s0 1 4 = data from by decide]

/-- Two entries of a ring in the data page, and the slot's words: the places they stand in. -/
theorem witness_StreamEvents_words2 : RingWords s0 1 [64, 72, 8] [data + 64, data + 72, data + 8] := by
  refine ⟨rfl, by unfold Apart; decide, fun s1 hp hm i v hi => ?_⟩
  have hb : ∀ b < 2 ^ 40, rdCell s1.mem b = rdCell s0.mem b := fun b hb => hm b (fun p hq => Or.inl (by
    have hd : (2 : Nat) ^ 40 ≤ data := by decide
    simp only [List.mem_cons, List.not_mem_nil, or_false] at hq
    omega))
  have hi3 : i < 3 := by
    by_contra hc
    rw [List.getElem?_eq_none (by simpa using Nat.le_of_not_lt hc)] at hi
    cases hi
  rcases (by omega : i = 0 ∨ i = 1 ∨ i = 2) with rfl | rfl | rfl <;> cases hi
  · exact ringLeaf_data s1 64 (by decide) hp hb
  · exact ringLeaf_data s1 72 (by decide) hp hb
  · exact ringLeaf_data s1 8 (by decide) hp hb

/-! ### Decoding: words put together field by field from the tables of the spec (R40, R43, R49 and the table of each class) -/

/-- MAJ, N = 0, G = 7 and MIN, with operand values at their lowest bits. -/
def wd (maj mn : Nat) (fs : List (Nat × Nat)) : Nat :=
  fs.foldl (fun w f => w + f.1 * 2 ^ f.2) (maj * 2 ^ 58 + 7 * 2 ^ 54 + mn * 2 ^ 48)
/-- F-RRR, F-RRI, F-MEM and F-BR (R43). -/
def rrr (maj mn d a b c mod : Nat) : Nat := wd maj mn [(d, 42), (a, 36), (b, 30), (c, 24), (mod, 0)]
def rri (maj mn d a mod4 imm : Nat) : Nat := wd maj mn [(d, 42), (a, 36), (mod4, 32), (imm, 0)]
def fmem (maj mn data base index sh sk disp : Nat) : Nat :=
  wd maj mn [(data, 42), (base, 36), (index, 30), (sh, 28), (sk, 24), (disp, 0)]

/-- Each word decodes to the instruction beside it. -/
def reads (n : Nat) (l : List (Nat × Instr)) : Bool := l.all (fun e => decide (decodeTableWord n e.1 = some e.2))

-- R94, R96, R97
theorem test_decode_alu : reads 64
    [(rrr 1 0 3 1 2 0 0, .add on 3 1 2), (rrr 1 1 3 1 2 0 0, .sub on 3 1 2), (rrr 1 2 3 1 2 0 0, .mul on 3 1 2),
     (rrr 1 3 3 1 2 0 0, .mulh on 3 1 2), (rrr 1 4 3 1 2 0 0, .mulhs on 3 1 2), (rrr 1 5 3 1 2 0 0, .div on 3 1 2),
     (rrr 1 6 3 1 2 0 0, .divs on 3 1 2), (rrr 1 7 3 1 2 0 0, .rem on 3 1 2), (rrr 1 8 3 1 2 0 0, .rems on 3 1 2),
     (rrr 1 9 3 1 2 0 0, .and on 3 1 2), (rrr 1 10 3 1 2 0 0, .or on 3 1 2), (rrr 1 11 3 1 2 0 0, .xor on 3 1 2),
     (rrr 1 12 3 1 2 0 0, .andn on 3 1 2), (rrr 1 13 3 1 2 0 0, .orn on 3 1 2), (rrr 1 14 3 1 2 0 0, .shl on 3 1 2),
     (rrr 1 15 3 1 2 0 0, .shr on 3 1 2), (rrr 1 16 3 1 2 0 0, .sar on 3 1 2), (rrr 1 17 3 1 2 0 0, .rol on 3 1 2),
     (rrr 1 18 3 1 2 0 0, .min on 3 1 2), (rrr 1 19 3 1 2 0 0, .max on 3 1 2), (rrr 1 20 3 1 2 0 0, .mins on 3 1 2),
     (rrr 1 21 3 1 2 0 0, .maxs on 3 1 2), (rrr 1 22 3 1 0 0 0, .clz on 3 1), (rrr 1 23 3 1 0 0 0, .ctz on 3 1),
     (rrr 1 24 3 1 0 0 0, .popc on 3 1), (rrr 1 25 3 1 2 5 0, .sel on 3 1 2 5),
     (rrr 1 26 3 1 0 0 (8 + 11 * 2 ^ 6 + 2 ^ 12), .bfx on 3 1 8 11 true), (rrr 1 27 3 1 2 0 (8 + 11 * 2 ^ 6), .bfi on 3 1 2 8 11),
     (rrr 1 28 3 1 2 0 3, .lea on 3 1 2 3), (rrr 1 29 3 1 2 0 1, .addsat on true 3 1 2)] = true := by decide

-- R98, R46, R99, R102
theorem test_decode_immediate : reads 64
    [(rri 2 0 3 1 0 9, .addi on 3 1 9), (rri 2 1 3 1 0 9, .muli on 3 1 9), (rri 2 2 3 1 1 9, .andi on true 3 1 9),
     (rri 2 3 3 1 0 9, .ori on false 3 1 9), (rri 2 4 3 1 1 9, .xori on true 3 1 9), (rri 2 5 3 1 0 33, .shli on 3 1 33),
     (rri 2 6 3 1 0 33, .shri on 3 1 33), (rri 2 7 3 1 0 33, .sari on 3 1 33), (rri 2 8 3 1 0 33, .roli on 3 1 33),
     (rri 2 9 3 1 1 9, .mini on true 3 1 9), (rri 2 10 3 1 0 9, .maxi on false 3 1 9), (rri 2 11 3 1 2 9, .leai on 3 1 2 9),
     (wd 3 0 [(7, 42), (9, 0)], .movi on 7 9), (wd 3 1 [(7, 42), (9, 0)], .movhi on 7 9), (rrr 3 2 3 1 0 0 0, .mov on 3 1),
     (rrr 3 3 3 5 0 0 0, .ptog on 3 5), (rrr 3 3 3 0 0 0 1, .ptogF on 3), (rrr 3 4 5 1 0 0 0, .gtop on 5 1),
     (rrr 3 4 0 1 0 0 1, .gtopF on 1), (rrr 3 5 3 0 0 0 1, .rdtick on true 3), (rrr 3 6 3 0 0 0 0, .rdtime on 3),
     (rrr 3 7 3 0 0 0 1, .rdid on 3 1)] = true := by decide

-- R103, R105-R108, R234, R419
theorem test_decode_control : reads 64
    [(rrr 4 0 1 5 6 2 (9 + 2 * 2 ^ 4), .cmp on 9 2 1 5 6 2), (rri 4 1 (5 * 8 + 4) 7 3 100, .cmpi on 3 5 4 7 100),
     (rrr 4 2 1 2 3 0 0, .pand on 1 2 3), (rrr 4 3 1 2 3 0 0, .por on 1 2 3), (rrr 4 4 1 2 3 0 0, .pxor on 1 2 3),
     (rrr 4 5 1 2 3 0 0, .pandn on 1 2 3), (rrr 4 6 0 0 0 0 (0x15 + 2 ^ 8 * 0x14), .pset on 0x14 0x15),
     (rri 5 0 0 0 0 8, .b on 8), (rri 5 1 63 0 0 8, .bl on 63 8), (rri 5 2 0 9 0 0, .br on 9), (rri 5 3 63 9 0 0, .blr on 63 9),
     (rri 5 4 0 9 0 8, .loop on 9 8), (rrr 6 0 0 9 0 0 0, .segend on 9), (rrr 6 1 0 9 0 0 1, .split on true 9),
     (rrr 6 2 0 0 0 0 0, .exit on), (rrr 6 3 0 9 0 0 0, .yield on 9), (rri 7 0 0 9 0 0x706, .trap on 9 0x706),
     (rri 7 1 0 0 0 77, .brk on 77), (rri 7 2 0 9 0 77, .syscall on 9 77), (rri 7 3 3 0 0 0x190, .ctlrd on 3 0x190),
     (rri 7 4 0 9 0 0x190, .ctlwr on 0x190 9), (rri 7 5 3 9 0 0, .resume on 3 9), (rri 7 6 3 9 1 0, .abort on true 3 9),
     (rri 7 7 0 0 0 77, .whisk on 77)] = true := by decide

-- R44, R167, R170-R172, R375
theorem test_decode_memory : reads 64
    [(fmem 8 0 5 4 6 3 0xE 16, .ld on 5 2 true true ⟨4, 6, 3, 16⟩), (fmem 8 1 5 4 6 3 0xB 16, .st on 5 3 true ⟨4, 6, 3, 16⟩),
     (fmem 8 2 5 4 6 3 0x1 16, .ldx on 5 1 false false ⟨4, 6, 3, 16⟩), (fmem 8 3 5 4 6 3 0x0 16, .stx on 5 0 false ⟨4, 6, 3, 16⟩),
     (fmem 8 4 5 4 6 3 0x3 16, .ldf on 5 ⟨4, 6, 3, 16⟩), (fmem 8 5 5 4 6 3 0x3 16, .stf on 5 ⟨4, 6, 3, 16⟩),
     (fmem 8 6 0 4 6 3 0x7 16, .clrf on true ⟨4, 6, 3, 16⟩), (fmem 8 7 5 4 6 3 0x3 16, .feq on 5 ⟨4, 6, 3, 16⟩),
     (fmem 9 0 5 4 6 3 0x8 16, .vld on 5 true ⟨4, 6, 3, 16⟩), (fmem 9 1 5 4 6 3 0x0 16, .vst on 5 false ⟨4, 6, 3, 16⟩),
     (fmem 9 2 5 4 6 3 0x3 16, .vlds on 5 3 false ⟨4, 6, 3, 16⟩), (fmem 9 3 5 4 6 3 0xA 16, .vsts on 5 2 true ⟨4, 6, 3, 16⟩),
     (fmem 9 4 5 4 6 3 0x2 16, .vgath on 5 2 false ⟨4, 6, 3, 16⟩), (fmem 9 5 5 4 6 3 0xB 16, .vscat on 5 3 true ⟨4, 6, 3, 16⟩),
     (fmem 9 6 5 4 6 0 0x2 16, .vldb on 5 4 6 2 16), (fmem 12 0 5 4 0 1 0xB 16, .aadd on 5 4 1 3 true 16),
     (fmem 12 1 5 4 0 1 0x1 16, .afadd on 5 4 1 1 false 16), (fmem 12 2 5 4 0 1 0x2 16, .amin on 5 4 1 2 false 16),
     (fmem 12 3 5 4 0 1 0x2 16, .amax on 5 4 1 2 false 16), (fmem 12 4 5 4 0 1 0x2 16, .aand on 5 4 1 2 false 16),
     (fmem 12 5 5 4 0 1 0x2 16, .aor on 5 4 1 2 false 16), (fmem 12 6 5 4 0 1 0x2 16, .axor on 5 4 1 2 false 16),
     (fmem 12 7 5 4 0 1 0x2 16, .aswp on 5 4 1 2 false 16), (fmem 12 8 5 4 0 3 0x3 16, .acas on 5 4 3 3 false 16)] = true := by decide

-- R174, R176, R191, R192
theorem test_decode_pages : reads 64
    [(rrr 10 0 3 1 2 1 0, .pgalloc on 3 1 2 1), (rrr 10 1 3 1 0 1 0, .pgfree on 3 1 1), (rrr 10 2 3 1 2 1 0, .pgref on 3 1 2 1),
     (rrr 10 3 3 1 2 1 0, .pgcow on 3 1 2 1), (rrr 10 4 3 1 2 1 2, .pgset on 3 1 2 1 2), (rrr 10 5 3 1 0 1 5, .pgget on 3 1 1 5),
     (rrr 10 6 3 1 0 1 0, .pgpin on 3 1 1), (rrr 10 7 3 1 0 1 0, .pgunpin on 3 1 1), (rrr 10 8 3 1 0 1 0, .pgspill on 3 1 1),
     (rrr 10 9 3 1 0 1 0, .pgfill on 3 1 1), (rrr 10 10 3 1 2 1 (0x41 * 2), .pgmap on 3 1 2 1 0x41), (rrr 10 11 3 1 0 1 0, .pgunmap on 3 1 1),
     (rrr 11 0 3 1 2 1 (2 + 4 + 3 * 8), .cpy on 2 true 3 3 1 2 1), (rrr 11 1 3 1 2 1 (2 + 3 * 8), .cpy2d on 2 false 3 3 1 2 1),
     (rrr 11 2 3 1 2 1 (2 + 4 + 3 * 8), .gath on 2 true 3 3 1 2 1), (rrr 11 3 3 1 2 1 (2 + 3 * 8), .scat on 2 false 3 3 1 2 1),
     (rrr 11 4 3 1 0 1 (2 + 3 * 8 + 1 * 2 ^ 6 + 2 ^ 9), .fld on 2 3 1 true 3 1 1),
     (rrr 11 5 0 1 2 1 (2 + 4 + 3 * 8 + 4 * 2 ^ 6), .fst on 2 true 3 4 1 2 1),
     (rrr 11 6 0 0 0 1 77, .waitc on 1 77), (rrr 11 7 3 0 0 1 0, .ctrget on 3 1)] = true := by decide

-- R378, R381, R383, R236, R260
theorem test_decode_sync : reads 64
    [(rrr 13 0 0 0 0 0 (5 + 2 * 8), .fence on 2 5), (rrr 13 1 3 1 0 0 0, .bar on 3 1), (rrr 13 2 3 1 0 0 0, .phase on 3 1),
     (rrr 13 3 3 1 2 1 0, .domset on 3 1 2 1), (rrr 13 4 3 1 0 1 3, .domget on 3 1 1 3), (rri 14 0 3 1 1 0, .book on true 3 1),
     (rri 14 1 3 1 0 0, .calrel on false 3 1), (rri 14 2 3 1 1 17, .calq on true false 3 1 17), (rri 14 2 3 1 2 17, .calq on false true 3 1 17),
     (rri 14 3 0 1 0 9, .gang on 1 9),
     (rrr 15 0 3 1 2 1 0, .launch on 3 1 2 1), (rrr 15 1 0 1 0 0 9, .qpush on 1 9), (rrr 15 2 3 0 0 0 9, .qstat on 3 9),
     (rrr 15 3 3 1 0 0 (9 + 16), .qcfg on true 3 1 9), (rrr 15 4 3 1 0 0 1, .pipebind on true 3 1)] = true := by decide

-- R118, R123, R126
theorem test_decode_vector : reads 64
    ([(0, Instr.vadd on 1 2 3 5 1 6 true true), (1, .vsub on 1 2 3 5 1 6 true true), (2, .vmul on 1 2 3 5 1 6 true true),
      (10, .vdiv on 1 2 3 5 1 6 true true)].map (fun e => (rrr 16 e.1 1 2 3 0 (5 + 8 + 6 * 2 ^ 6 + 2 ^ 9 + 2 ^ 11), e.2))
    ++ [(3, Instr.vfma on 1 2 3 4 5 1 6 true true), (4, .vfms on 1 2 3 4 5 1 6 true true), (5, .vfnma on 1 2 3 4 5 1 6 true true)].map
        (fun e => (rrr 16 e.1 1 2 3 4 (5 + 8 + 6 * 2 ^ 6 + 2 ^ 9 + 2 ^ 11), e.2))
    ++ [(6, Instr.vmin on 1 2 3 5 6 true true), (7, .vmax on 1 2 3 5 6 true true)].map (fun e => (rrr 16 e.1 1 2 3 0 (5 + 6 * 2 ^ 6 + 2 ^ 9 + 2 ^ 11), e.2))
    ++ [(8, Instr.vabs on 1 2 5 6 true), (9, .vneg on 1 2 5 6 true), (17, .vclass on 1 2 5 6 true)].map (fun e => (rrr 16 e.1 1 2 0 0 (5 + 6 * 2 ^ 6 + 2 ^ 9), e.2))
    ++ [(11, Instr.vsqrt on 1 2 5 1 6 false), (12, .vrcp on 1 2 5 1 6 false), (13, .vrsq on 1 2 5 1 6 false), (14, .vexp2 on 1 2 5 1 6 false),
        (15, .vlog2 on 1 2 5 1 6 false), (16, .vtanh on 1 2 5 1 6 false)].map (fun e => (rrr 16 e.1 1 2 0 0 (5 + 8 + 6 * 2 ^ 6), e.2))
    ++ [(0, Instr.viadd on 1 2 3 2 6 true true), (1, .visub on 1 2 3 2 6 true true), (2, .vimul on 1 2 3 2 6 true true), (4, .vishl on 1 2 3 2 6 true true),
        (5, .vishr on 1 2 3 2 6 true true), (6, .visar on 1 2 3 2 6 true true), (7, .vand on 1 2 3 2 6 true true), (8, .vor on 1 2 3 2 6 true true),
        (9, .vxor on 1 2 3 2 6 true true)].map (fun e => (rrr 17 e.1 1 2 3 0 (2 + 6 * 2 ^ 6 + 2 ^ 9 + 2 ^ 11), e.2))
    ++ [(3, Instr.vimulh on 1 2 3 2 6 false true true), (10, .vimin on 1 2 3 2 6 false true true), (11, .vimax on 1 2 3 2 6 false true true),
        (13, .viaddsat on 1 2 3 2 6 false true true)].map (fun e => (rrr 17 e.1 1 2 3 0 (2 + 6 * 2 ^ 6 + 2 ^ 10 + 2 ^ 11), e.2))
    ++ [(rrr 17 12 1 2 0 0 (2 + 6 * 2 ^ 6 + 2 ^ 9), .viabs on 1 2 2 6 true)]) = true := by decide

-- R128-R136, R138-R142
theorem test_decode_permute : reads 64
    [(rrr 18 0 1 2 3 4 (2 + 6 * 2 ^ 6 + 2 ^ 11 + 9 * 2 ^ 12), .vcmp on 1 2 3 4 2 6 true 9), (rrr 18 1 1 2 3 0 (6 + 5 * 2 ^ 6), .vsel on 1 2 3 6 5),
     (rrr 18 2 1 2 3 0 0, .mand on 1 2 3), (rrr 18 3 1 2 3 0 0, .mor on 1 2 3), (rrr 18 4 1 2 3 0 0, .mxor on 1 2 3),
     (rrr 18 5 1 2 0 0 0, .mnot on 1 2), (rrr 18 6 9 2 0 0 3, .mcnt on 9 2 3), (rrr 18 7 9 2 0 0 3, .mfirst on 9 2 3),
     (rrr 19 0 1 2 3 0 (2 + 6 * 2 ^ 6 + 2 ^ 9), .vperm on 1 2 3 2 6 true), (rrr 19 1 1 2 3 0 (2 + 6 * 2 ^ 6 + 3 * 2 ^ 12), .vshuf on 1 2 3 2 6 false 3),
     (rrr 19 2 1 2 40 0 (2 + 6 * 2 ^ 6), .vrot on 1 2 40 2 6 false), (rrr 19 3 1 40 0 0 (2 + 6 * 2 ^ 6), .vbcast on 1 40 2 6 false),
     (rrr 19 4 9 2 40 0 (2 + 7 * 2 ^ 6 + 2 ^ 10), .vextr on 9 2 40 2 true), (rrr 19 5 1 40 41 0 (2 + 7 * 2 ^ 6), .vins on 1 40 41 2),
     (rrr 19 6 9 2 0 0 (5 + 3 * 8 + 6 * 2 ^ 6), .vred on 9 2 5 3 6 0), (rrr 19 7 1 2 0 0 (2 + 6 * 2 ^ 6 + 2 ^ 9 + 7 * 2 ^ 12), .vscan on 1 2 2 0 6 true 7),
     (rrr 19 8 1 2 3 4 (0 + 6 * 2 ^ 6 + 2 ^ 9 + 2 ^ 10), .vdot on 1 2 3 4 0 0 6 true true),
     (rrr 20 0 1 2 0 0 (1 + 8 + 6 * 2 ^ 6 + 2 ^ 10 + 4 * 2 ^ 16 + 1 * 2 ^ 19 + 2 ^ 22), .vcvt on 1 2 0 1 1 6 false true 4 1 true),
     (rrr 20 1 1 2 40 0 (4 + 8 + 6 * 2 ^ 6 + 2 ^ 9 + 4 * 2 ^ 12 + 1 * 2 ^ 16 + 3 * 2 ^ 18 + 2 ^ 22), .vpack on 1 2 40 0 1 6 true 4 1 3 true),
     (rrr 20 2 1 2 40 0 (4 + 6 * 2 ^ 6 + 4 * 2 ^ 12 + 1 * 2 ^ 16 + 3 * 2 ^ 18), .vunpk on 1 2 40 6 false 4 1 3),
     (rrr 20 3 9 2 40 0 (4 + 6 * 2 ^ 6 + 4 * 2 ^ 12 + 1 * 2 ^ 16 + 2 * 2 ^ 22), .vqscale on 9 2 40 6 4 1 2),
     (rrr 20 4 1 40 41 42 (2 + 6 * 2 ^ 6 + 2 ^ 9), .vrand on 1 40 41 42 2 6 true)] = true := by decide

-- R336, R315, R347, R385
theorem test_decode_requests : reads 64
    [(rrr 24 0 3 1 2 5 1, .sfork on true 3 1 2 5), (rrr 24 1 3 1 2 2 1, .sjoin on true 3 1 2 2), (rrr 24 2 3 1 0 2 0, .sprune on 3 1 2),
     (rrr 24 3 3 1 2 2 0, .sact on 3 1 2 2), (rrr 24 4 3 1 2 2 0, .sactp on 3 1 2 2), (rrr 24 5 3 1 2 2 1, .shor on true 3 1 2 2),
     (rrr 24 6 3 1 2 2 0, .sstep on 3 1 2 2), (rrr 24 6 3 1 0 2 1, .sstepB on 3 1 2), (rrr 24 7 3 1 2 2 0, .ssnap on 3 1 2 2),
     (rrr 24 8 3 1 0 2 0, .spin on 3 1 2), (rrr 24 8 3 1 0 2 1, .spinU on 3 1 2), (rrr 24 9 3 1 0 2 9, .sget on 3 1 2 9),
     (rrr 24 10 3 1 2 2 9, .sset on 3 1 2 2 9), (rrr 24 10 3 1 0 2 16, .ssetC on 3 1 2),
     (rrr 25 0 3 1 0 2 (3 + 5 * 8), .kvapp on 3 5 3 1 2), (rrr 25 1 3 1 2 2 0, .kvsplice on 3 1 2 2), (rrr 25 1 3 1 2 2 1, .kvspliceS on 3 1 2 2),
     (rrr 25 2 3 1 2 2 0, .kvtrim on 3 1 2 2), (rrr 25 3 0 1 0 2 (5 * 8), .attd on 5 1 2), (rrr 25 4 3 1 2 0 0, .attmS on 3 1 2),
     (rrr 25 4 3 1 2 40 (1 + 6 * 2 ^ 6 + 2 ^ 9), .attmV on 3 1 2 40 6 true), (rrr 25 5 3 1 0 2 1, .rampset on true 3 1 0 2),
     (rrr 25 6 3 2 40 4 (4 + 6 * 2 ^ 6 + 3 * 2 ^ 12), .vrope on 3 2 40 4 6 false true true),
     (0x69C0004001000020, .lfilt on 4 4 1), (0x69C11461C8000000, .sample on 5 6 7 8), (0x69C224A2C0000000, .accept on 9 10 11),
     (0x69C3305182000000, .commit on 12 5 6 2), (0x69C40041C3000000, .dqsend on 4 7 3), (0x69C52041C0000000, .dqrecv on 8 4 7),
     (0x6DC0244141000020, .msend on 4 9 4 5 1), (0x6DC12061C0000001, .mrecv on true 8 6 7), (0x6DC2284002000000, .coll on 10 4 2),
     (0x6DC31461C3000062, .redm on 1 2 4 5 6 7 3),
     (rrr 31 0 0 5 0 0 0, .tzero on 5), (rrr 31 1 3 0 0 0 0, .tcommit on 3), (rrr 31 2 0 9 0 0 0, .twait on 9),
     (rrr 31 3 3 5 0 0 (33 + 2 ^ 6), .taccrd on 3 5 33 true), (rrr 31 3 3 5 9 0 (2 ^ 7), .taccrdR on 3 5 9)] = true := by decide

-- R278, R284, R286: word 0 and, from bit 64 on, word 1
theorem test_decode_tile : reads 256
    ([(0, Instr.tmma on 3 9 10 1 2 3 5 6 7), (1, .tmmat on 3 9 10 1 2 3 5 6 7), (2, .tmmbt on 3 9 10 1 2 3 5 6 7)].map (fun e =>
      (wd 0x30 e.1 [(3, 45), (9, 39), (10, 33), (1, 31), (2, 29), (3, 26), (5, 64), (6, 71), (7, 78)], e.2))
    ++ [(wd 0x30 3 [(3, 45), (9, 39), (1, 31), (3, 26), (5, 64), (6, 71), (7, 78)], .tmmring on 3 9 1 3 5 6 7),
        (wd 0x31 0 [(3, 45), (9, 39), (1, 37), (5, 34), (1, 33), (5, 64), (6, 71), (11, 98), (12, 110)], .tdrain on 3 9 1 5 true 5 6 11 12),
        (wd 0x31 1 [(3, 45), (9, 39), (1, 37), (4, 34), (2, 31), (1, 30), (1, 29), (1, 28), (1, 27), (5, 64), (6, 71), (11, 78), (12, 84), (13, 90),
          (2, 96), (14, 98), (15, 104), (16, 110)], .tdrainx on 3 9 1 4 false 2 true true true true 5 6 11 12 13 2 14 15 16),
        (wd 0x32 0 [(0, 45), (9, 39), (2, 31), (1, 30)], .tblatch on 0 9 0 2 true), (wd 0x32 0 [(3, 45), (9, 33)], .tblatch on 3 0 9 0 false)]) = true := by
  decide

-- R41, R49: a negated guard, and a reserved major
theorem test_decode_guard : decodeTableWord 64 0x22C01441B3000010 = some (.ld ⟨true, 3⟩ 5 3 false false ⟨4, 6, 3, 16⟩)
    ∧ decodeTableWord 64 0x5400000000000001 = some (.illegalWord 0x5400000000000001) := by decide

-- R453: the words of roll and race, and the VA of batch slot 0 of cluster 6 (BASE 0xA0_0000)
theorem test_decode_rollout : reads 64
    [(0x21C00C1003000000, .ld on 3 3 false false ⟨1, 0, 0, 0⟩), (0x05DA1030000001D0, .bfx on 4 3 16 7 false),
     (0x11C0047082000004, .cmp on 4 0 1 7 2 2), (0x7C40000000000000, .tzero ⟨false, 1⟩ 0), (0x15C40080FFFFFFF3, .loop on 8 (-13)),
     (0x7DC1240000000000, .tcommit on 9), (0x7DC2009000000000, .twait on 9), (0x61C6281000000001, .sstepB on 10 1 0),
     (0x11C1442000000000, .cmpi on 0 2 1 2 0), (0x60472C1100000000, .ssnap ⟨false, 1⟩ 11 1 4 0),
     (0x6080301143000000, .sfork ⟨false, 2⟩ false 12 1 5 3)] = true := by decide
theorem test_decode_rollout_tile : decodeTableWord 256 (0xC040030A00000000 + 2 ^ 64 * 0x81001) = some (.tmma ⟨false, 1⟩ 0 6 5 0 0 0 1 32 32)
    ∧ decodeTableWord 256 (0xC440030000000000 + 2 ^ 64 * 0x1001) = some (.tdrain ⟨false, 1⟩ 0 6 0 0 false 1 32 0 0)
    ∧ slotVa (updDp s0 1 1 (fun k => { k with ctl := [(0x412, 0xA00000)] })) 1 1 38 0 = 0xA30000 := by decide

/-! ### Ill-formed terms, one for each check (R34, R42 and the class chapters), and the words that hold them -/

theorem test_ill_formed : [Instr.bfx on 1 1 60 8 false, .rdid on 1 2, .cmp on 12 0 1 1 1 2, .cmp on 0 3 1 1 1 2, .cmp on 0 0 1 1 1 1, .cmpi on 0 2 2 1 0,
    .pset on 1 0, .pset on 0x80 0x80, .segend on 0, .split on false 1, .trap on 0 0x14, .ctlrd on 1 2, .ctlwr on 0x891 1, .vlds on 1 1 false ⟨1, 1, 0, 0⟩,
    .cpy on 0 false 6 1 1 1 1, .fld on 0 4 5 false 1 1 1, .fld on 0 4 3 true 1 1 1, .aadd on 1 1 0 1 false 0, .afadd on 1 1 0 3 false 0, .fence on 0 4,
    .qcfg on false 1 1 0, .vadd on 1 1 1 3 0 7 false false, .vadd on 1 1 1 4 5 7 false false, .viadd on 1 1 1 4 7 false false,
    .vcmp on 1 1 1 2 0 7 false 0, .vcmp on 1 1 1 2 4 7 false 4, .vcmp on 1 1 1 1 2 7 false 0, .vsel on 1 1 1 7 7, .vshuf on 1 1 0 2 7 false 6,
    .vshuf on 1 1 1 2 7 false 4, .vextr on 1 1 1 4 true, .vred on 1 1 4 0 7 3, .vscan on 1 1 2 1 7 false 0, .vdot on 1 1 1 1 2 0 7 false false,
    .vcvt on 1 1 0 4 0 7 false false 5 2 false, .vpack on 1 1 1 0 0 7 false 3 0 0 false, .vpack on 1 1 1 0 0 7 false 11 3 0 true, .vunpk on 1 1 1 7 false 4 3 0,
    .vqscale on 1 1 1 7 4 0 1, .vrand on 1 1 1 1 3 7 false, .kvapp on 0 7 1 1 1, .rampset on true 1 1 1 1, .vrope on 1 1 1 1 7 false false true,
    .mrecv on false 1 1 1, .redm on 3 0 4 1 1 1 1, .tmma on 0 1 1 0 0 0 0 1 1, .tmma on 0 1 1 0 0 0 1 1 129, .tdrain on 0 1 0 0 false 1 1 1 0,
    .tdrainx on 0 1 0 0 false 0 false false false false 1 1 1 0 0 0 0 0 0, .tblatch on 5 1 0 0 false, .tblatch on 1 1 1 0 false].all reservedBad = true
  ∧ [Instr.sel on 1 1 1 8, .gtop on 8 1, .pand on 1 1 8, .vld on 32 false ⟨1, 1, 0, 0⟩, .vgath on 1 2 false ⟨1, 32, 0, 0⟩, .pgalloc on 1 1 1 4,
    .cpy2d on 0 false 4 1 1 63 1, .fld on 0 4 4 false 32 1 1, .waitc on 4 0, .acas on 63 1 0 2 false 0, .vadd on 1 1 32 4 0 7 false false, .mand on 8 1 1,
    .sfork on false 1 1 1 8, .kvsplice on 1 1 0 1, .vrope on 1 1 1 1 7 false true false, .tzero on 8, .taccrd on 32 1 0 false].all registerBad = true := by decide

theorem test_ill_formed_words : decode (wordBytes (BitVec.ofNat 64 (rri 7 3 3 0 0 2))) = .error .reservedField
    ∧ decode (wordBytes (BitVec.ofNat 64 (rrr 16 0 32 2 3 0 4))) = .error .register
    ∧ decode (wordBytes (BitVec.ofNat 64 (rrr 1 0 3 1 2 1 0))) = .error .reservedField := by decide

/-! ### Worked cases of the spec -/

/-- g[r] of lane 0 after an instruction. -/
def gOf (o : Out) (r : R6) : Option Word :=
  match o with
  | .next s => (tabGet s.strands 0).map (fun t => getG t r)
  | _ => none

-- R94: modulo 2^64
theorem test_sub_wraps : gOf (exec (.sub on 3 2 1) s0) 3 = some 0xFFFFFFFFFFFFFFC7 := by decide
-- R95: a divisor of 0
theorem test_div_by_zero : gOf (exec (.div on 3 1 10) s0) 3 = some 0xFFFFFFFFFFFFFFFF := by decide
theorem test_rem_by_zero : gOf (exec (.rem on 3 1 10) s0) 3 = some 64 := by decide
-- R46: MOVI sign-extends, MOVHI keeps the low 42 bits
theorem test_movi : gOf (exec (.movi on 7 (-2)) s0) 7 = some 0xFFFFFFFFFFFFFFFE := by decide
theorem test_movhi : gOf (exec (.movhi on 5 1) s0) 5 = some 0x400000000FF := by decide
-- R34: a write to g0 is discarded
theorem test_g0 : gOf (exec (.add on 0 1 2) s0) 0 = some 0 := by decide
-- R10, R167: the lowest byte at the lowest address
theorem test_store_byte_order : (match exec (.st on 4 3 false ⟨0, 0, 0, 8⟩) s0 with
    | .next s => rdBytes s.mem (data + 8) 8
    | _ => []) = [0, 128, 0, 0, 0, 0, 0, 0] := by decide

-- R69: the sample encodings
theorem test_encodings :
    (conv (.fin true 5 (-1) false) .fp32 .rne false).1 = 0xC0200000 ∧ (conv (xInt 1) .bf16 .rne false).1 = 0x3F80
    ∧ (conv (xInt 65504) .fp16 .rne false).1 = 0x7BFF ∧ (conv (.fin false 1 (-24) false) .fp16 .rne false).1 = 1
    ∧ (conv (xInt 448) .e4m3 .rne false).1 = 0x7E ∧ (conv (xInt 57344) .e5m2 .rne false).1 = 0x7B
    ∧ (conv (.inf false) .e5m2 .rne false).1 = 0x7C ∧ (conv (xInt (-28)) .e3m2 .rne false).1 = 0x3F
    ∧ (conv (.fin false 15 (-1) false) .e2m3 .rne false).1 = 0x1F ∧ (conv (xInt (-6)) .e2m1 .rne false).1 = 0xF := by decide
-- R79: 10,066,330 x 2^-25 to E4M3 under RNE, RZ and SR
theorem test_rounding : let x : Xr := .fin false 10066330 (-25) false
    conv x .e4m3 .rne false = (0x2A, fNX) ∧ (conv x .e4m3 .rz false).1 = 0x29
    ∧ (conv x .e4m3 (.sr (BitVec.ofNat 32 (10066335 * 256))) false).1 = 0x2A
    ∧ (conv x .e4m3 (.sr (BitVec.ofNat 32 (10066336 * 256))) false).1 = 0x29 := by decide
-- R86: one rounding of a group
theorem test_group_sum : (let p := fun (x : Xr) => (x, xInt 1)
    gSum [p (.fin false 1 30 false), p (xInt 1), p (.fin true 1 30 false), p (.fin false 1 (-30) false)]) = (0x3F800000, fNX) := by decide
-- R139, R140: the scale and three codes of the worked block
theorem test_block : (qscale 4 1 1 0 [xInt 10, .fin false 10066330 (-25) false, xInt (-1)]).1 = 0x7A
    ∧ packElt 4 1 0x7A .rne false 0x41200000 = (0x7A, 0) ∧ packElt 4 1 0x7A .rne false 0x3E99999A = (0x52, fNX)
    ∧ packElt 4 1 0x7A .rne false 0xBF800000 = (0xE0, 0) := by decide
-- R162: OFF_1(3, 10) of a BF16 tile, and what it holds in mode 0; mode 2 at (3, 10) is element (10, 3)
theorem test_tile_modes : tileOff 16 1 3 10 = 3360 ∧ tileOff 16 0 3 18 = 3360 ∧ tileOff 16 2 3 10 = tileOff 16 0 10 3 := by decide
-- R160: the windows of the worked VGATH, and of the load at offset 0x0A80
theorem test_windows : (lineCycles 2 16 (linesOf [(0x480, 8), (0x100, 8), (0x900, 8)]) []).map (·.2) = [20, 19, 28]
    ∧ (lineCycles 3 41 [0xA80] []).map (·.2) = [48] ∧ (lineCycles 3 40 [0xA80] []).map (·.2) = [40] := by decide
-- R218: ageing
theorem test_ageing : [255, 256, 1000, 5120, 9999].map (effPrio 256 30 10) = [10, 11, 13, 30, 30] := by decide
-- R306: P1 and P2 merged, and an empty shard
theorem test_merge : (mergeT ⟨0x40400000, 0x3FC00000, [0x41000000]⟩ ⟨0x3F800000, 0x3F800000, [0x40800000]⟩).1
      = ⟨0x40400000, 0x3FE00000, [0x41100000]⟩
    ∧ (mergeT ⟨0x40400000, 0x3FE00000, [0x41100000]⟩ (Triple.empty 1)).1 = ⟨0x40400000, 0x3FE00000, [0x41100000]⟩ := by decide
-- R301: a quarter-turn and three quarters
theorem test_rotation : ((rotPair 64 0x1000000 0x3F000000 0x40000000).1.1, (rotPair 64 0x1000000 0x3F000000 0x40000000).2.1)
      = (0xC0000000, 0x3F000000)
    ∧ ((rotPair 192 0x1000000 0x3F000000 0x40000000).1.1, (rotPair 192 0x1000000 0x3F000000 0x40000000).2.1)
      = (0x40000000, 0xBF000000) := by decide
-- R349: the worked logits with K = 3
theorem test_filter : (let r := filterPass [0x3F800000, 0x40400000, 0x40000000, 0x40000000, 0xFF800000, 0] 3 none none
    (r.m, r.l, r.e, r.list.map (·.1))) = (0x40400000, 0x40180000, 0xBFF00000, [1, 2, 3]) := by decide
-- R354: the worked probes
theorem test_accept : let l := 2 ^ 32 * 0x40180000 + 0x40400000
    acceptOne 0x3E000000 0x3E800000 l (0xBFF00000 + 2 ^ 32 * 0x40000000) 1 = true
    ∧ acceptOne 0x3E000000 0x3E800000 l 0xBFF00000 1 = false := by decide

end Sys2Proof.Tests
end

section
/-! SUPPORT. MOVI and MOVHI (spec/02 R46): a single word with an unused operand bit set is refused, a constant taken apart into the
immediates of the pair, and the statement itself. -/

namespace Sys2Proof

/-- Bits [63:61] are the top half of the major. -/
theorem bits_top_eq_bits_major (w : Word) : bits w 61 3 = bits (bits w 58 6) 3 3 := by
  apply BitVec.eq_of_getLsbD_eq
  intro i hi
  have h : 3 + i < 6 := by omega
  simp only [bits_getLsbD, bit, hi, h, decide_true, Bool.true_and, ← Nat.add_assoc]

/-- A field that a form does not use is zero when all its unused operand bits are (R42). -/
theorem bits_eq_zero_of_unused {w : Word} {used : BitVec 48} {p m : Nat} (hm : p + m ≤ 48) (hu : bits used p m = 0)
    (h : bits w 0 48 &&& ~~~ used = 0) : bits w p m = 0 := by
  apply BitVec.eq_of_getLsbD_eq
  intro i hi
  have hlt : p + i < 48 := by omega
  have hbit := congrArg (BitVec.getLsbD · (p + i)) h
  have hused := congrArg (BitVec.getLsbD · i) hu
  simp only [bits_getLsbD, bit, BitVec.getLsbD_and, BitVec.getLsbD_not, hi, hlt, decide_true, Bool.true_and, Nat.zero_add,
    BitVec.ofNat_eq_ofNat, BitVec.getLsbD_zero] at hused hbit ⊢
  simpa only [hused, Bool.not_false, Bool.and_true] using hbit

/-- A single word with an operand bit set that its form does not use (R42). -/
theorem decode_one_unused {w : Word} {f : Form} (rest : List Byte) (ht : isTcwMajor w = false) (hf : formOf w 0 = some f)
    (h0 : bits w 0 48 &&& ~~~ f.used ≠ 0) : decode (wordBytes w ++ rest) = .error .reservedField := by
  have h : decodeWords w 0 0 0 = .error .reservedField := by
    simp only [decodeWords, hf, h0, ne_eq, not_false_eq_true, true_or, if_true]
  simp only [decode, leWord_wordBytes, ht, h, Bool.false_eq_true, false_and, if_false, Except.map]

/-- Major 0x03, minor 1 is MOVHI, which uses d and bits [21:0] (R43, R46). -/
theorem formOf_movhi {w : Word} (w1 : Word) (hmaj : bits w 58 6 = 3) (hmin : bits w 48 6 = 1) :
    formOf w w1 = some ⟨0xFC00003FFFFF, 0, true, .movhi ⟨bit w 57, bits w 54 3⟩ (bits w 42 6) (bits w 0 22)⟩ := by
  simp only [formOf, hmaj, hmin]
  rfl

/-- Bits [41:22] of MOVHI must be zero (R46). -/
theorem decode_movhi_reserved {w : Word} (rest : List Byte) (hmaj : bits w 58 6 = 3) (hmin : bits w 48 6 = 1)
    (h : bits w 22 20 ≠ 0) : decode (wordBytes w ++ rest) = .error .reservedField := by
  have ht : isTcwMajor w = false := by rw [isTcwMajor, bits_top_eq_bits_major, hmaj]; rfl
  have hmask : bits (0xFC00003FFFFF : BitVec 48) 22 20 = 0 := by decide
  exact decode_one_unused rest ht (formOf_movhi 0 hmaj hmin) (mt (bits_eq_zero_of_unused (by decide) hmask) h)

/-- Sign extension keeps the low bits. -/
theorem setWidth_signExtend {n m : Nat} (x : BitVec n) (h : n ≤ m) : (x.signExtend m).setWidth n = x := by
  ext i hi
  have him : i < m := by omega
  simp [BitVec.getElem_signExtend, hi, him]

/-- A constant is the immediate of MOVHI above the low 42 bits that MOVI leaves (R46). -/
theorem movhi_append_movi (x : Word) : bits x 42 22 ++ ((bits x 0 42).signExtend 64 : Word).setWidth 42 = x := by
  rw [setWidth_signExtend _ (by decide)]
  exact BitVec.extractLsb'_append_extractLsb'

end Sys2Proof

namespace Sys2Proof.Machine

theorem movi_writesG (g : Guard) (d : R6) (imm : BitVec 42) : WritesG (.movi g d imm) g d (fun _ _ => imm.signExtend 64) :=
  writesG_of_aluOp (lat := 1) fun _ => rfl

theorem movhi_writesG (g : Guard) (d : R6) (imm : BitVec 22) :
    WritesG (.movhi g d imm) g d (fun _ t => imm ++ (getG t d).setWidth 42) :=
  writesG_of_aluOp (lat := 1) fun _ => rfl

/-- Settles O15: the values by the law of `aluOp` forms, the reserved bits by the mask of MOVHI's form, any constant by its two
fields; the four worked words are closed. -/
theorem constantForms : Obligations.ConstantForms := by
  unfold Obligations.ConstantForms
  refine ⟨movi_writesG, movhi_writesG, fun w rest => decode_movhi_reserved rest, fun x => ⟨_, _, movhi_append_movi x⟩, ?_⟩
  decide

end Sys2Proof.Machine
end

section
/-! SUPPORT. Division and remainder (spec/04 R95): a form that is a divOp writes its value and keeps the rest of its strand, each
value of R95's text from the model's own function, and the statement itself. -/

namespace Sys2Proof.Machine

/-- A form that is a divOp completes like an aluOp; that it also books the lane's divider (R91) touches nothing WritesG names. -/
theorem writesG_of_divOp {i : Instr} {g : Guard} {d : R6} {x : Strand → Word} (h : ∀ s, exec i s = divOp i g d x s) :
    WritesG i g d (fun _ t => x t) := by
  intro s t hr
  refine ⟨_, completes_of_laneOp (h s) hr, fun r => (getG_congr rfl r).trans (getG_setG s.cycle 20 d r (x t) t),
    ⟨by simp, by simp⟩, by simp [SameP], by simp [SameC], ⟨by simp, by simp⟩, by simp [SamePlace],
    movedOn_advance (by simp) (by simp) (by simp)⟩

/-- R95's DIV, over the unsigned values. -/
theorem udiv_eq_ofNat_div (a b : Word) :
    udiv a b = if b = 0 then BitVec.ofNat 64 (2 ^ 64 - 1) else BitVec.ofNat 64 (a.toNat / b.toNat) := by
  rw [udiv, BitVec.udiv_def]
  rfl

/-- R95's REM, over the unsigned values. -/
theorem urem_eq_ofNat_sub (a b : Word) :
    urem a b = if b = 0 then a else BitVec.ofNat 64 (a.toNat - b.toNat * (a.toNat / b.toNat)) := by
  rw [urem, BitVec.umod_def, Nat.mod_eq_sub]

/-- R95's DIVS: the quotient −2^63 / −1 = 2^63 wraps to −2^63. -/
theorem sdivT_eq_ofInt_tdiv (a b : Word) :
    sdivT a b = if b = 0 then BitVec.ofInt 64 (-1)
      else if a.toInt = -2 ^ 63 ∧ b.toInt = -1 then BitVec.ofInt 64 (-2 ^ 63)
      else BitVec.ofInt 64 (Int.tdiv a.toInt b.toInt) := by
  unfold sdivT
  split_ifs with h0 hmin
  · rfl
  · obtain ⟨ha, hb⟩ := hmin
    rw [ha, hb]
    decide
  · rfl

/-- R95's REMS: nothing remains of −2^63 / −1. -/
theorem sremT_eq_ofInt_sub (a b : Word) :
    sremT a b = if b = 0 then a
      else if a.toInt = -2 ^ 63 ∧ b.toInt = -1 then 0
      else BitVec.ofInt 64 (a.toInt - b.toInt * Int.tdiv a.toInt b.toInt) := by
  unfold sremT
  split_ifs with h0 hmin
  · rfl
  · obtain ⟨ha, hb⟩ := hmin
    rw [ha, hb]
    decide
  · rw [Int.tmod_def]

/-- Settles O13: each form is a divOp, and its value is that of R95's text. -/
theorem divResults : Obligations.DivResults := by
  unfold Obligations.DivResults
  intro g d a b
  simp only [← udiv_eq_ofNat_div, ← urem_eq_ofNat_sub, ← sdivT_eq_ofInt_tdiv, ← sremT_eq_ofInt_sub]
  exact ⟨writesG_of_divOp fun _ => rfl, writesG_of_divOp fun _ => rfl, writesG_of_divOp fun _ => rfl,
    writesG_of_divOp fun _ => rfl⟩

end Sys2Proof.Machine
end

section
/-! SUPPORT. The decoder reads back what the encoder writes (spec/02 R40 to R49): what a field of an assembled word reads, the form of each
class of single words and of the tile command words, and the statement itself. -/

namespace Sys2Proof

/-- Majors 0x30 to 0x37 begin a tile command word (R47). -/
theorem isTcwMajor_eq (w : Word) : isTcwMajor w = (bits (bits w 58 6) 3 3 == 0b110) := by
  rw [isTcwMajor, bits_top_eq_bits_major]

/-- The form of a word of major `maj` and minor `mn` (R49). -/
def formAt (g : Guard) (w w1 : Word) (mn : Nat) : Nat → Option Form
  | 0x01 => decAlu g w mn
  | 0x02 => decAluImm g w mn
  | 0x03 => decMove g w mn
  | 0x04 => decPred g w mn
  | 0x05 => decBranch g w mn
  | 0x06 => decSegment g w mn
  | 0x07 => decSystem g w mn
  | 0x08 => decScalarMem g w mn
  | 0x09 => decVectorMem g w mn
  | 0x0A => decPage g w mn
  | 0x0B => decAsync g w mn
  | 0x0C => decAtomic g w mn
  | 0x0D => decSync g w mn
  | 0x0E => decCalendar g w mn
  | 0x0F => decQueue g w mn
  | 0x10 => decVecFp g w mn
  | 0x11 => decVecInt g w mn
  | 0x12 => decVecCmp g w mn
  | 0x13 => decVecPerm g w mn
  | 0x14 => decVecConv g w mn
  | 0x18 => decStream g w mn
  | 0x19 => decAttention g w mn
  | 0x1A => decGeneration g w mn
  | 0x1B => decMessage g w mn
  | 0x1F => decTileShort g w mn
  | 0x30 => decTileMul g w w1 mn
  | 0x31 => decTileDrain g w w1 mn
  | 0x32 => decTileLatch g w w1 mn
  | _ => none

theorem formOf_eq (w w1 : Word) :
    formOf w w1 = formAt ⟨bit w 57, bits w 54 3⟩ w w1 (bits w 48 6).toNat (bits w 58 6).toNat := rfl



theorem or_and_distrib {m : Nat} (x y k : BitVec m) : (x ||| y) &&& k = (x &&& k) ||| (y &&& k) := by
  ext; simp [Bool.and_or_distrib_right]

theorem bits_zero (p m : Nat) : bits (0#64) p m = 0#m := by simp [bits]

/-- How a field of an assembled word reads: each part by itself, what a field of its own place holds, and zero elsewhere. -/
theorem field_reads :
    (∀ (x y : Word) (p m : Nat), bits (x ||| y) p m = bits x p m ||| bits y p m)
    ∧ (∀ (x y : Word) (p : Nat), bit (x ||| y) p = (bit x p || bit y p))
    ∧ (∀ (n lo : Nat) (x : BitVec n), lo + n ≤ 64 → bits (put lo x) lo n = x)
    ∧ (∀ (lo : Nat) (b : Bool), lo < 64 → bit (put lo (b2b b)) lo = b)
    ∧ (∀ lo : Nat, lo < 64 → bit (put lo 1#1) lo = true)
    ∧ (∀ (n lo : Nat) (x : BitVec n) (p m : Nat), p + m ≤ lo ∨ lo + n ≤ p → bits (put lo x) p m = 0#m)
    ∧ (∀ (n lo : Nat) (x : BitVec n) (p : Nat), p < lo ∨ lo + n ≤ p → bit (put lo x) p = false)
    ∧ (∀ (maj mn : Nat) (g : Guard) (p m : Nat), p + m ≤ 48 → bits (hd maj mn g) p m = 0#m)
    ∧ (∀ (maj mn : Nat) (g : Guard) (p : Nat), p < 48 → bit (hd maj mn g) p = false) :=
  ⟨bits_or, bit_or, fun _ => bits_put_same, bit_put_flag, bit_put_one, fun _ => bits_put_out, fun _ => bit_put_out,
    bits_hd_low, bit_hd_low⟩

/-- `i` is the single-word instruction with the word `w`: its form is `i`, and `w` sets no bit that the form does not use. -/
def ReadsAs (i : Instr) (w : Word) : Prop :=
  isTcwMajor w = false ∧ ∃ f, formOf w 0 = some f ∧ f.instr = i ∧ f.fixed = true ∧ bits w 0 48 &&& ~~~ f.used = 0

/-! The constructors stand in the order of the opcode table, so that a range of them is a range of majors. -/

theorem readsAs_scalar {i : Instr} {w : Word} (hw : encode i = [w]) (hb : i.ctorIdx < 76) : ReadsAs i w := by
  cases i <;> simp only [Instr.ctorIdx, Nat.reduceLT, Nat.reduceLeDiff] at hb
  all_goals
    simp only [encode, List.cons.injEq, and_true, reduceCtorEq, and_false] at hw
  all_goals
    subst hw
    simp only [ReadsAs, isTcwMajor_eq, formOf_eq, formAt, decAlu, decAluImm, decMove, decPred, decBranch, decSegment, decSystem, 
      field_reads, bits_hd_maj, bits_hd_min, bits_hd_p, bit_hd_neg, BitVec.or_zero, BitVec.zero_or, BitVec.ofNat_eq_ofNat, BitVec.reduceToNat,
      Nat.reduceAdd, Nat.reduceLeDiff, Nat.reduceLT, true_or, or_true, Bool.or_false, Bool.false_or, Bool.or_true,
      Option.some.injEq, exists_eq_left', true_and, if_true, if_false, Bool.false_eq_true, beq_self_eq_true]
    refine ⟨by decide, ?_⟩
    simp (disch := decide) only [or_and_distrib, BitVec.zero_and, bits_put_masked, BitVec.zero_or, BitVec.ofNat_eq_ofNat]

theorem readsAs_memory {i : Instr} {w : Word} (hw : encode i = [w]) (ha : 76 ≤ i.ctorIdx) (hb : i.ctorIdx < 134) : ReadsAs i w := by
  cases i <;> simp only [Instr.ctorIdx, Nat.reduceLT, Nat.reduceLeDiff] at ha hb
  all_goals
    simp only [encode, List.cons.injEq, and_true, reduceCtorEq, and_false] at hw
  all_goals
    subst hw
    simp only [ReadsAs, isTcwMajor_eq, formOf_eq, formAt, decScalarMem, decVectorMem, decPage, decAsync, decAtomic, decSync, decCalendar, decQueue, 
      field_reads, bits_hd_maj, bits_hd_min, bits_hd_p, bit_hd_neg, BitVec.or_zero, BitVec.zero_or, BitVec.ofNat_eq_ofNat, BitVec.reduceToNat,
      Nat.reduceAdd, Nat.reduceLeDiff, Nat.reduceLT, true_or, or_true, Bool.or_false, Bool.false_or, Bool.or_true,
      Option.some.injEq, exists_eq_left', true_and, if_true, if_false, Bool.false_eq_true, beq_self_eq_true]
    refine ⟨by decide, ?_⟩
    simp (disch := decide) only [or_and_distrib, BitVec.zero_and, bits_put_masked, BitVec.zero_or, BitVec.ofNat_eq_ofNat]

theorem readsAs_vector {i : Instr} {w : Word} (hw : encode i = [w]) (ha : 134 ≤ i.ctorIdx) (hb : i.ctorIdx < 188) : ReadsAs i w := by
  cases i <;> simp only [Instr.ctorIdx, Nat.reduceLT, Nat.reduceLeDiff] at ha hb
  all_goals
    simp only [encode, List.cons.injEq, and_true, reduceCtorEq, and_false] at hw
  all_goals
    subst hw
    simp only [ReadsAs, isTcwMajor_eq, formOf_eq, formAt, decVecFp, decVecInt, decVecCmp, decVecPerm, decVecConv, 
      field_reads, bits_hd_maj, bits_hd_min, bits_hd_p, bit_hd_neg, BitVec.or_zero, BitVec.zero_or, BitVec.ofNat_eq_ofNat, BitVec.reduceToNat,
      Nat.reduceAdd, Nat.reduceLeDiff, Nat.reduceLT, true_or, or_true, Bool.or_false, Bool.false_or, Bool.or_true,
      Option.some.injEq, exists_eq_left', true_and, if_true, if_false, Bool.false_eq_true, beq_self_eq_true]
    refine ⟨by decide, ?_⟩
    simp (disch := decide) only [or_and_distrib, BitVec.zero_and, bits_put_masked, BitVec.zero_or, BitVec.ofNat_eq_ofNat]

theorem readsAs_engine {i : Instr} {w : Word} (hw : encode i = [w]) (ha : 188 ≤ i.ctorIdx) (hi : ∀ x, i ≠ .illegalWord x) : ReadsAs i w := by
  cases i <;> simp only [Instr.ctorIdx, Nat.reduceLT, Nat.reduceLeDiff] at ha
  case illegalWord x => exact absurd rfl (hi x)
  all_goals
    simp only [encode, List.cons.injEq, and_true, reduceCtorEq, and_false] at hw
  all_goals
    subst hw
    simp only [ReadsAs, isTcwMajor_eq, formOf_eq, formAt, decStream, decAttention, decGeneration, decMessage, decTileShort, 
      field_reads, bits_hd_maj, bits_hd_min, bits_hd_p, bit_hd_neg, BitVec.or_zero, BitVec.zero_or, BitVec.ofNat_eq_ofNat, BitVec.reduceToNat,
      Nat.reduceAdd, Nat.reduceLeDiff, Nat.reduceLT, true_or, or_true, Bool.or_false, Bool.false_or, Bool.or_true,
      Option.some.injEq, exists_eq_left', true_and, if_true, if_false, Bool.false_eq_true, beq_self_eq_true]
    refine ⟨by decide, ?_⟩
    simp (disch := decide) only [or_and_distrib, BitVec.zero_and, bits_put_masked, BitVec.zero_or, BitVec.ofNat_eq_ofNat]


/-- Each single-word instruction reads back. -/
theorem readsAs_of_encode {i : Instr} {w : Word} (hw : encode i = [w]) (hi : ∀ x, i ≠ .illegalWord x) : ReadsAs i w := by
  by_cases hs : i.ctorIdx < 76
  · exact readsAs_scalar hw hs
  by_cases hm : i.ctorIdx < 134
  · exact readsAs_memory hw (by omega) hm
  by_cases hv : i.ctorIdx < 188
  · exact readsAs_vector hw (by omega) hv
  · exact readsAs_engine hw (by omega) hi

/-- A tile command word reads back: its form is `i`, and its first two words set no bit that the form does not use (R47). -/
theorem tile_reads_of_encode {i : Instr} {w w1 : Word} (hw : encode i = [w, w1, 0, 0]) :
    isTcwMajor w = true ∧ (formOf w 0).isSome = true ∧ bits w1 58 6 = 0 ∧ ∃ f, formOf w w1 = some f ∧ f.instr = i ∧ f.fixed = true
      ∧ bits w 0 48 &&& ~~~ f.used = 0 ∧ bits w1 0 58 &&& ~~~ f.used1 = 0 := by
  cases i <;> simp only [encode, List.cons.injEq, and_true, reduceCtorEq, and_false] at hw
  all_goals
    obtain ⟨rfl, rfl⟩ := hw
    simp only [isTcwMajor_eq, formOf_eq, formAt, decTileMul, decTileDrain, decTileLatch, field_reads, bits_zero,
      bits_hd_maj, bits_hd_min, bits_hd_p, bit_hd_neg, BitVec.or_zero, BitVec.zero_or, BitVec.ofNat_eq_ofNat, BitVec.reduceToNat,
      Nat.reduceAdd, Nat.reduceLeDiff, Nat.reduceLT, true_or, or_true, Bool.or_false, Bool.false_or, Option.some.injEq, exists_eq_left',
      Option.isSome_some, true_and]
    refine ⟨by decide, ?_⟩
    simp (disch := decide) only [or_and_distrib, BitVec.zero_and, bits_put_masked, BitVec.zero_or, BitVec.ofNat_eq_ofNat, and_true]

/-- An instruction word is one word or four, the last two of them zero (R40, R47). -/
theorem encode_shape {i : Instr} (hi : encode i ≠ []) : (∃ w, encode i = [w]) ∨ ∃ w w1, encode i = [w, w1, 0, 0] := by
  cases i <;> simp [encode] at hi ⊢

/-- Settles O1: by the number of words of the instruction, with the form that each class of words reads as. -/
theorem decodeEncode : Obligations.DecodeEncode := by
  unfold Obligations.DecodeEncode
  intro i rest hev hwf hill
  have hne : encode i ≠ [] := by simpa [Machine.isEvent] using hev
  rcases encode_shape hne with ⟨w, hw⟩ | ⟨w, w1, hw⟩
  · obtain ⟨ht, f, hf, rfl, hfix, h0⟩ := readsAs_of_encode hw hill
    rw [encodeBytes, hw]
    exact decode_one rest ht hf h0 hfix hwf
  · obtain ⟨ht, hz, h58, f, hf, rfl, hfix, h0, h1⟩ := tile_reads_of_encode hw
    rw [encodeBytes, hw]
    simpa using decode_four rest ht hz hf h0 h1 h58 hfix hwf

end Sys2Proof
end

section
/-! SUPPORT. Words that are no instruction (spec/02 R42, R47 to R49): which majors and minors have a form, words with a bit set that their
form does not use, and the statements. -/

namespace Sys2Proof

/-- A reserved major has no form (R48). -/
theorem formOf_reserved_major {w : Word} (w1 : Word) (h : (bits w 58 6).toNat ∈ [0x00, 0x15, 0x16, 0x17, 0x1C, 0x1D, 0x1E]
    ∨ (0x20 ≤ (bits w 58 6).toNat ∧ (bits w 58 6).toNat ≤ 0x2F) ∨ 0x33 ≤ (bits w 58 6).toNat) : formOf w w1 = none := by
  rw [formOf_eq]
  generalize (bits w 58 6).toNat = n at h
  unfold formAt
  split <;> simp at h ⊢

/-- A minor code above the highest of its major has no form (R49). -/
theorem formOf_reserved_minor {w : Word} (w1 : Word) {m : Nat} (hm : Machine.highestMinor (bits w 58 6).toNat = some m)
    (h : m < (bits w 48 6).toNat) : formOf w w1 = none := by
  rw [formOf_eq]
  generalize (bits w 58 6).toNat = n at hm
  generalize (bits w 48 6).toNat = k at h
  unfold Machine.highestMinor at hm
  split at hm <;> cases hm <;> simp only [formAt]
  all_goals
    simp only [decAlu, decAluImm, decMove, decPred, decBranch, decSegment, decSystem, decScalarMem, decVectorMem, decPage, decAsync,
      decAtomic, decSync, decCalendar, decQueue, decVecFp, decVecInt, decVecCmp, decVecPerm, decVecConv, decStream, decAttention,
      decGeneration, decMessage, decTileShort, decTileMul, decTileDrain, decTileLatch]
    split
  all_goals first | omega | rfl

/-- A word of no form is the row ILLEGAL_WORD (R49). -/
theorem decode_no_form {w : Word} (rest : List Byte) (h : formOf w 0 = none) : decode (wordBytes w ++ rest) = .ok (.illegalWord w, rest) := by
  simp only [decode, leWord_wordBytes, h, Option.isSome_none, Bool.false_eq_true, and_false, if_false, decodeWords, Except.map]

/-- Whether a word has a form does not depend on the word behind it. -/
theorem isSome_formOf (w w1 w1' : Word) : (formOf w w1).isSome = (formOf w w1').isSome := by
  rw [formOf_eq, formOf_eq]
  unfold formAt
  split <;> simp only [decTileMul, decTileDrain, decTileLatch] <;> split <;> rfl

theorem ne_zero_of_bits {w : Word} {p m : Nat} (h : bits w p m ≠ 0) : w ≠ 0 := by
  rintro rfl
  exact h (bits_zero p m)

/-- A tile command word with a bit set that its form does not use (R42, R47). -/
theorem decode_four_unused {w w1 w2 w3 : Word} {f : Form} (rest : List Byte) (hf : formOf w w1 = some f) (ht : isTcwMajor w = true)
    (h : bits w 0 48 &&& ~~~ f.used ≠ 0 ∨ bits w1 58 6 ≠ 0 ∨ bits w1 0 58 &&& ~~~ f.used1 ≠ 0 ∨ w2 ≠ 0 ∨ w3 ≠ 0) :
    decode (wordBytes w ++ wordBytes w1 ++ wordBytes w2 ++ wordBytes w3 ++ rest) = .error .reservedField := by
  have hz : (formOf w 0).isSome = true := by rw [isSome_formOf w 0 w1, hf]; rfl
  have hd : decodeWords w w1 w2 w3 = .error .reservedField := by
    simp only [decodeWords, hf]
    rw [if_pos]
    tauto
  simp only [decode, List.append_assoc, leWord_wordBytes, ht, hz, hd, and_self, if_true, Except.map]

/-- Settles O3: no form for a reserved code, and the masks of the forms. -/
theorem reservedEncodings : Obligations.ReservedEncodings := by
  unfold Obligations.ReservedEncodings
  refine ⟨fun w rest h => decode_no_form rest (formOf_reserved_major 0 h), fun w rest m hm h => decode_no_form rest (formOf_reserved_minor 0 hm h),
    fun w w1 w2 w3 rest f hf ht h => decode_four_unused rest hf ht ?_, fun w rest f hf ht h0 => decode_one_unused rest ht hf h0⟩
  rcases h with h | h | h | h | h | h | h
  · exact .inl h
  · exact .inr (.inl h)
  · exact .inr (.inr (.inr (.inl (ne_zero_of_bits h))))
  · exact .inr (.inr (.inr (.inr (ne_zero_of_bits h))))
  · exact .inr (.inr (.inl h))
  · exact .inr (.inr (.inr (.inl (ne_zero_of_bits h))))
  · exact .inr (.inr (.inr (.inr (ne_zero_of_bits h))))

/-- Settles O2: closed words. -/
theorem decodesSpecWords : Obligations.DecodesSpecWords := by
  unfold Obligations.DecodesSpecWords
  decide

end Sys2Proof
end

section
/-! SUPPORT. Reset, the turn of a lane, and what the fetch gives (spec/01 R33; spec/02 R40, R45, R47; spec/04 R113). -/

namespace Sys2Proof

/-- A decoded word was decoded by `decodeWords`, and was not a tile command word. -/
theorem decodeWords_of_decode_one {w : Word} {i : Instr} (h : decode (wordBytes w) = .ok (i, [])) :
    ¬ (isTcwMajor w = true ∧ (formOf w 0).isSome = true) ∧ decodeWords w 0 0 0 = .ok i := by
  have hw : leWord (wordBytes w) = some (w, []) := by simpa using leWord_wordBytes w []
  simp only [decode, hw] at h
  split at h
  · simp only [leWord, reduceCtorEq] at h
  · next hn =>
    refine ⟨hn, ?_⟩
    revert h
    cases decodeWords w 0 0 0 <;> simp [Except.map]

theorem decodeWords_of_decode_four {w w1 w2 w3 : Word} {i : Instr} (ht : isTcwMajor w = true)
    (h : decode (wordBytes w ++ wordBytes w1 ++ wordBytes w2 ++ wordBytes w3) = .ok (i, [])) :
    (formOf w 0).isSome = true ∧ decodeWords w w1 w2 w3 = .ok i := by
  have hw : leWord (wordBytes w3) = some (w3, []) := by simpa using leWord_wordBytes w3 []
  simp only [decode, List.append_assoc, leWord_wordBytes, hw, ht, true_and] at h
  split at h
  · next hz =>
    refine ⟨hz, ?_⟩
    revert h
    cases decodeWords w w1 w2 w3 <;> simp [Except.map]
  · revert h
    cases decodeWords w 0 0 0 <;> simp [Except.map, wordBytes]

/-- The instruction that a word decodes to is its form's. -/
theorem formOf_of_decodeWords {w w1 w2 w3 : Word} {i : Instr} (h : decodeWords w w1 w2 w3 = .ok i) :
    (formOf w w1 = none ∧ i = .illegalWord w) ∨ ∃ f, formOf w w1 = some f ∧ f.instr = i := by
  unfold decodeWords at h
  split at h
  · next hf => exact .inl ⟨hf, by cases h; rfl⟩
  · next f hf =>
    split at h
    · cases h
    · split at h <;> cases h
      exact .inr ⟨f, hf, rfl⟩

namespace Machine

/-- A word that decodes, in no delay slot or to a form that may stand in one, is the instruction (R51, R400). -/
theorem decodeAt_ok {t : Strand} {w w1 w2 w3 : Word} {i : Instr} (h : decodeWords w w1 w2 w3 = .ok i)
    (hs : t.ds = 0 ∨ slotBarred i = false) : decodeAt t w w1 w2 w3 = .ok i := by
  unfold decodeAt
  rcases formOf_of_decodeWords h with ⟨hf, _⟩ | ⟨f, hf, rfl⟩
  · simp [hf, h]
  · have hb : (t.ds != 0 && slotBarred f.instr) = false := by rcases hs with hs | hs <;> simp [hs]
    simp [hf, h, hb]

/-! ### Little-endian values of longer reads (R6) -/

theorem rdBytes_add (m : List Host.Cell) (a n k : Nat) : rdBytes m a (n + k) = rdBytes m a n ++ rdBytes m (a + n) k := by
  induction n generalizing a with
  | zero => simp [rdBytes]
  | succ n ih =>
    rw [Nat.succ_add, rdBytes, rdBytes, ih, List.cons_append, Nat.add_assoc, Nat.add_comm 1 n]

theorem leNat_append (l r : List Byte) : leNat (l ++ r) = leNat l + 256 ^ l.length * leNat r := by
  induction l with
  | nil => simp [leNat]
  | cons x l ih => simp only [List.cons_append, leNat, ih, List.length_cons, Nat.pow_succ']; ring

theorem leNat_lt (l : List Byte) : leNat l < 256 ^ l.length := by
  induction l with
  | nil => simp [leNat]
  | cons x l ih =>
    have hx : x.toNat < 256 := x.isLt
    simp only [leNat, List.length_cons, Nat.pow_succ']
    omega

/-- Eight bytes in the middle of a longer little-endian value. -/
theorem leNat_word (m : List Host.Cell) (a k r : Nat) :
    leNat (rdBytes m a (k + (8 + r))) / 256 ^ k % 256 ^ 8 = leNat (rdBytes m (a + k) 8) := by
  have hk := leNat_lt (rdBytes m a k)
  have h8 := leNat_lt (rdBytes m (a + k) 8)
  rw [rdBytes_length] at hk h8
  rw [rdBytes_add, leNat_append, rdBytes_length, Nat.add_mul_div_left _ _ (by positivity), Nat.div_eq_of_lt hk, Nat.zero_add,
    rdBytes_add, leNat_append, rdBytes_length, Nat.add_mul_mod_self_left,
    Nat.mod_eq_of_lt h8]

/-- The word of a block that was loaded is the word of the page (R461). -/
theorem icWord_of_loaded {b : IcBlock} {va : Va} {s : State} {p : Nat}
    (hb : b.data = BitVec.ofNat 8192 (leNat (rdBytes s.mem p 1024))) (ha : va.toNat % 8 = 0) :
    icWord b va = rd64 s (p + va.toNat % 1024) := by
  have hlt : leNat (rdBytes s.mem p 1024) < 2 ^ 8192 := by
    have h := leNat_lt (rdBytes s.mem p 1024)
    rwa [rdBytes_length, show 256 ^ 1024 = 2 ^ 8192 from (Nat.pow_mul 2 8 1024).symm] at h
  obtain ⟨r, hr⟩ : ∃ r, va.toNat % 1024 + (8 + r) = 1024 := ⟨1016 - va.toNat % 1024, by omega⟩
  have hw := leNat_word s.mem p (va.toNat % 1024) r
  rw [hr] at hw
  apply BitVec.eq_of_toNat_eq
  rw [icWord, hb, rd64, rdN, BitVec.toNat_ofNat, BitVec.toNat_ofNat, BitVec.toNat_ofNat, Nat.mod_eq_of_lt hlt,
    Nat.shiftRight_eq_div_pow, Nat.pow_mul, show (2 : Nat) ^ 8 = 256 by norm_num,
    show (2 : Nat) ^ 64 = 256 ^ 8 by norm_num, ← hw, Nat.mod_mod]

/-- A word fetched under a translation from the block that holds it (R113, R461). -/
theorem fetchWord_block {s : State} {t : Strand} {va : Va} {x : Xl} {b : IcBlock}
    (hx : syncXl t s (inCode t va) va.toNat = some x) (hp : pteX x.pte0 = true)
    (hb : icFind (getClu s t.cl) (t.lane / 2) t.task.pid va = some b) : fetchWord s t va = .ok (icWord b va) := by
  simp [fetchWord, hx, hb, hp]

/-- Settles O8: a fetched word that decodes passes the checks before it, and a block holds the words of its page. -/
theorem fetchDecodes : Obligations.FetchDecodes := by
  unfold Obligations.FetchDecodes
  refine ⟨fun s t w i ha hw hd hs => ?_, fun s t w w1 w2 w3 i ha hw hl ht h0 hd => ?_, fun s t va x hx hc hf hp => ?_,
    fun s t va x b hx hp hb => ⟨fetchWord_block hx hp hb, fun s0 p hl ha => ?_⟩⟩
  · obtain ⟨hn, hi⟩ := decodeWords_of_decode_one hd
    simp only [fetchInstr, ha, hw, hn, ne_eq, not_true_eq_false, if_false]
    exact decodeAt_ok hi hs
  · obtain ⟨hz, hi⟩ := decodeWords_of_decode_four ht hd
    have h8 : t.pc0.toNat % 8 = 0 := by omega
    simp only [fetchInstr, h8, ha, hw, ht, hz, h0, hl, ne_eq, not_true_eq_false, if_false, and_self, if_true]
    exact decodeAt_ok hi (.inl h0)
  · rw [hc] at hx
    simp [fetchWord, hx, hc, hf, hp]
  · rw [fetchWord_block hx hp hb, icWord_of_loaded hl ha]

/-! ### Reset (R33) -/

/-- Settles O5: an empty memory is in its form. -/
theorem resetHasInv : Obligations.ResetHasInv := ⟨rfl, rfl⟩

/-- A state that holds nothing but memory, its errors, the firmware store and what the outside brings is fresh. -/
theorem fresh_of_eq_reset {s : State} (h : s = { State.reset with
    mem := s.mem, fe := s.fe, poison := s.poison, soft := s.soft, singles := s.singles, nfree := s.nfree, inputs := s.inputs
    dev := { fwStore := s.dev.fwStore } }) : Fresh s := by
  rw [h]
  refine ⟨rfl, rfl, rfl, rfl, rfl, rfl, rfl, rfl, rfl, rfl, rfl, rfl, rfl, rfl, rfl, rfl, rfl, rfl, fun _ => rfl, fun n hn => ?_, rfl, rfl,
    rfl⟩
  change ctlReset n = 0
  revert n
  decide

/-- Settles O6: both leave the state as after power-on, but for what DEVICE_RESET keeps. -/
theorem resetLeaves : Obligations.ResetLeaves :=
  ⟨fresh_of_eq_reset rfl, fun _ => ⟨_, rfl, fresh_of_eq_reset rfl, fun _ => rfl, rfl⟩⟩

/-! ### The turn of a lane (R54, R160) -/

theorem takeTurn_eq (s : State) (n : Nat) :
    takeTurn s n = { s with cur := n, cursor := (takeTurn s n).cursor, early := (takeTurn s n).early } := by
  unfold takeTurn
  split <;> rfl

/-- A strand that is neither at its segment's end, nor waiting, nor pre-empted, nor owed an error runs its instruction when that may
issue (R400). -/
theorem laneAct_run {s : State} {t : Strand} {i : Instr} (hend : s.cycle < endCycle t) (hhold : t.hold ≤ s.cycle)
    (hecc : eccOwed s t.task.id = false) (hf : fetchInstr s t = .ok i) (hi : issueAct s t i = .now) (hp : preemptDue s t = false) :
    laneAct s t = .run i := by
  simp [laneAct, Nat.not_le.mpr hend, Nat.not_lt.mpr hhold, hecc, hf, hi, hp]

/-- Settles O7: the step is the lane's turn, whose strand runs. -/
theorem stepRunsDecoded : Obligations.StepRunsDecoded := by
  unfold Obligations.StepRunsDecoded
  intro s n t i hoff hag hcur hn
  refine ⟨fun hend hhold hecc hf hi hp => ?_, fun hl => ?_, takeTurn_eq s n⟩
  · have hstep : step s = laneTurn s n t := by simp [step, hoff, onStep, hag, freeTurn, hcur, hn]
    rw [hstep, laneTurn, laneStep, laneAct_run hend hhold hecc hf hi hp]
  · simp [flushLines, hl]

end Machine
end Sys2Proof
end

section
/-! SUPPORT. How every row answers: a form with a guard issues under it, looks for its privilege and for a lease, and else has
its own effect; an event answers a next state in every branch of its row. -/

namespace Sys2Proof.Machine

/-- What a form does to its strand when its guard is false (R41, R47, R109). -/
def offOf (i : Instr) : Strand → Strand :=
  bif isBranchForm i then fun t => advanceBranch (afterSlots t) t else bif tileWord i then advanceTcw else advance

/-- `o` is how form `i` under guard `g` answers: PRIVILEGE before the guard, the guard before a lease (R37, R41, R187). -/
def IssuesAs (i : Instr) (g : Guard) (s : State) (o : Out) : Prop :=
  (curStrand s = none → o = .fault .noStrand)
    ∧ ∀ t, curStrand s = some t → ∃ s', o = .next s' ∧ (permitted s t i = false → s' = raise i .privilege s t 0)
      ∧ (permitted s t i = true → guardOn g t = false → s' = putStrand s (offOf i t))
      ∧ (permitted s t i = true → guardOn g t = true → leaseHit s t i = true → s' = raise i .lease s t 0)

section
variable {i : Instr} {g : Guard} {off : Strand → Strand} {s : State}

theorem issuesAs_issue {on : Strand → State → State} (ho : offOf i = off) (hp : ∀ s t, permitted s t i = true) :
    IssuesAs i g s (issue i g off on s) := by
  subst ho
  unfold issue
  refine ⟨fun h => by simp [h], fun t ht => ?_⟩
  simp only [ht, hp]
  cases guardOn g t <;> cases leaseHit s t i <;> simp

theorem issuesAs_laneOp {on : Strand → Strand} (ho : offOf i = off) (hp : ∀ s t, permitted s t i = true) :
    IssuesAs i g s (laneOp i g off on s) :=
  issuesAs_issue ho hp

variable (ho : offOf i = advance) (hp : ∀ s t, permitted s t i = true)
include ho hp

theorem issuesAs_trapOp {c va imm soft} : IssuesAs i g s (trapOp i g c va imm soft s) := issuesAs_issue ho hp
theorem issuesAs_scalarOp {acc fr m n on} : IssuesAs i g s (scalarOp i g acc fr m n on s) := issuesAs_issue ho hp
theorem issuesAs_loadOp {fr data sz sg m} : IssuesAs i g s (loadOp i g fr data sz sg m s) := issuesAs_scalarOp ho hp
theorem issuesAs_storeOp {fr data sz rel m} : IssuesAs i g s (storeOp i g fr data sz rel m s) := issuesAs_scalarOp ho hp
theorem issuesAs_vectorOp {acc fr vas n sz on} : IssuesAs i g s (vectorOp i g acc fr vas n sz on s) := issuesAs_issue ho hp
theorem issuesAs_vecLoad {data w sz vas} : IssuesAs i g s (vecLoad i g data w sz vas s) := issuesAs_vectorOp ho hp
theorem issuesAs_vecStore {data w sz rel vas} : IssuesAs i g s (vecStore i g data w sz rel vas s) := issuesAs_vectorOp ho hp
theorem issuesAs_engineOp {c mk} : IssuesAs i g s (engineOp i g c mk s) := issuesAs_issue ho hp
theorem issuesAs_pageOp {k d c args} : IssuesAs i g s (pageOp i g k d c args s) := issuesAs_engineOp ho hp
theorem issuesAs_dataForm {ch c bad mk} : IssuesAs i g s (dataForm i g ch c bad mk s) := issuesAs_issue ho hp
theorem issuesAs_atomOp {k data base ctr sz o disp} : IssuesAs i g s (atomOp i k g data base ctr sz o disp s) := issuesAs_issue ho hp
theorem issuesAs_barOp {phase d a} : IssuesAs i g s (barOp i phase g d a s) := issuesAs_issue ho hp
theorem issuesAs_streamOp {form d c a b m} : IssuesAs i g s (streamOp i g form d c a b m s) := issuesAs_issue ho hp
theorem issuesAs_slotForm {form d a c tab} : IssuesAs i g s (slotForm i g form d a c tab s) := issuesAs_issue ho hp
theorem issuesAs_taccrd {d a rh} : IssuesAs i g s (taccrd i g d a rh s) := issuesAs_issue ho hp

end

theorem issuesAs_tileForm {i : Instr} {g : Guard} {off : Strand → Strand} {s : State} {occ dst prep} (ho : offOf i = off)
    (hp : ∀ s t, permitted s t i = true) : IssuesAs i g s (tileForm i g off occ dst prep s) :=
  issuesAs_issue ho hp

/-- The forms that only a supervisor may issue look for a lease once the privilege and the guard stand. -/
theorem issuesAs_issueSup {i : Instr} {g : Guard} {on : Strand → State → State} {s : State} (ho : offOf i = advance)
    (hp : ∀ s t, permitted s t i = isSup t) (hl : ∀ t, leaseHit s t i = true → on t s = raise i .lease s t 0) :
    IssuesAs i g s (issueSup i g on s) := by
  unfold issueSup
  refine ⟨fun h => by simp [h], fun t ht => ?_⟩
  simp only [ht, hp, ho]
  cases isSup t <;> cases guardOn g t <;> simp +contextual [hl]

theorem issuesAs_supPageOp {i : Instr} {g : Guard} {s : State} {k d c args} (ho : offOf i = advance)
    (hp : ∀ s t, permitted s t i = isSup t) : IssuesAs i g s (supPageOp i g k d c args s) :=
  issuesAs_issueSup ho hp fun _ h => if_pos h

theorem issuesAs_endRequest {i : Instr} {g : Guard} {s : State} {k d a} (ho : offOf i = advance)
    (hp : ∀ s t, permitted s t i = isSup t) : IssuesAs i g s (endRequest i g k d a s) :=
  issuesAs_issueSup ho hp fun _ h => if_pos h

/-- A privilege that the form itself asks for comes before its guard. -/
theorem issuesAs_denied {i : Instr} {g : Guard} {den : State → Strand → Bool} {s : State}
    (ho : offOf i = advance) (hp : ∀ s t, permitted s t i = !den s t) {o : Out} (hn : curStrand s = none → o = .fault .noStrand)
    (hs : ∀ t, curStrand s = some t → ∃ on, o = if den s t then .next (raise i .privilege s t 0) else issue i g advance on s) :
    IssuesAs i g s o := by
  refine ⟨hn, fun t ht => ?_⟩
  obtain ⟨on, rfl⟩ := hs t ht
  simp only [issue, ht, hp, ho]
  cases den s t <;> cases guardOn g t <;> cases leaseHit s t i <;> simp

theorem exec_issuesAs {i : Instr} {g : Guard} (s : State) (hg : guardOf i = some g) : IssuesAs i g s (exec i s) := by
  cases i <;> cases hg
  all_goals simp only [exec]
  case add | sub | mul | mulh | mulhs | and | or | xor | andn | orn | shl | shr | sar | rol | min | max | mins | maxs | clz |
    ctz | popc | sel | bfx | bfi | lea | addi | muli | andi | ori | xori | shli | shri | sari | roli | mini | maxi | leai | movi
    | movhi | mov | ptog | ptogF | rdtick | rdtime | rdid | ctrget | qstat | mcnt | mfirst | vextr | div | divs | rem | rems |
    addsat | gtop | gtopF | cmp | cmpi | pset | vcmp | vsel | vins | vred | vcvt | vpack | vqscale | attmS | pand | por | pxor |
    pandn | b | bl | br | blr | loop | vrcp | vrsq | vexp2 | vlog2 | vtanh | vadd | vsub | vmul | vfma | vfms | vfnma | vmin |
    vmax | vabs | vneg | vclass | viabs | viaddsat | vperm | vshuf | vrot | vbcast | vscan | vdot | vunpk | vrand | attmV | vrope
    | vdiv | vsqrt | viadd | visub | vimul | vimulh | vishl | vishr | visar | vand | vor | vxor | vimin | vimax | mand | mor |
    mxor | mnot =>
    exact issuesAs_laneOp rfl fun _ _ => rfl
  case segend | split | exit | yield | vldb | waitc | fence | book | calrel | calq | gang | launch | qpush | pipebind | sfork |
    kvapp | attd | lfilt | sample | accept | commit | dqsend | dqrecv | msend | mrecv | coll | tcommit | twait =>
    exact issuesAs_issue rfl fun _ _ => rfl
  case trap | brk | syscall =>
    exact issuesAs_trapOp rfl fun _ _ => rfl
  case ld | ldx =>
    exact issuesAs_loadOp rfl fun _ _ => rfl
  case st | stx =>
    exact issuesAs_storeOp rfl fun _ _ => rfl
  case ldf | stf | clrf | feq | vld | vst =>
    exact issuesAs_scalarOp rfl fun _ _ => rfl
  case vlds | vgath =>
    exact issuesAs_vecLoad rfl fun _ _ => rfl
  case vsts | vscat =>
    exact issuesAs_vecStore rfl fun _ _ => rfl
  case pgalloc | pgcow | pgget | pgpin | pgunpin | pgspill | pgfill | kvsplice | kvspliceS | kvtrim | rampset =>
    exact issuesAs_pageOp rfl fun _ _ => rfl
  case cpy | cpy2d | gath | scat | fld | fst | redm =>
    exact issuesAs_dataForm rfl fun _ _ => rfl
  case aadd | afadd | amin | amax | aand | aor | axor | aswp | acas =>
    exact issuesAs_atomOp rfl fun _ _ => rfl
  case bar | phase =>
    exact issuesAs_barOp rfl fun _ _ => rfl
  case domset | domget =>
    exact issuesAs_engineOp rfl fun _ _ => rfl
  case sjoin | sprune | sact | shor | sstep | ssnap | spin | spinU | sget | sset =>
    exact issuesAs_streamOp rfl fun _ _ => rfl
  case sactp | sstepB =>
    exact issuesAs_slotForm rfl fun _ _ => rfl
  case tzero | tmma | tmmat | tmmbt | tmmring | tdrain | tdrainx =>
    exact issuesAs_tileForm rfl fun _ _ => rfl
  case taccrd | taccrdR =>
    exact issuesAs_taccrd rfl fun _ _ => rfl
  case pgfree | pgref | pgmap | pgunmap =>
    exact issuesAs_supPageOp rfl fun _ _ => rfl
  case resume | abort =>
    exact issuesAs_endRequest rfl fun _ _ => rfl
  case qcfg | ssetC =>
    exact issuesAs_issueSup rfl (fun _ _ => rfl) fun _ h => if_pos h
  case ctlrd n =>
    exact issuesAs_denied (den := fun _ t => ctlDenied n.toNat t) rfl (fun _ _ => rfl) (fun h => by simp [execCtlrd, h])
      fun t h => ⟨_, by simp only [execCtlrd, h]; rfl⟩
  case ctlwr n a =>
    exact issuesAs_denied (den := fun _ t => ctlDenied n.toNat t) rfl (fun _ _ => rfl) (fun h => by simp [execCtlwr, h])
      fun t h => ⟨_, by simp only [execCtlwr, h]; rfl⟩
  case whisk tag =>
    exact issuesAs_denied (den := fun s t => !bit (cpCtl s t.cl t.task.pid 0x1C1) 1 && !isSup t) rfl
      (fun s t => by simp [permitted]) (fun h => by simp [execWhisk, h]) fun t h => ⟨_, by simp only [execWhisk, h]; rfl⟩
  case pgset d a b c sel =>
    unfold execPgset
    split
    case isTrue hs => exact issuesAs_pageOp rfl fun _ _ => by simp [permitted, hs]
    case isFalse hs => exact issuesAs_supPageOp rfl fun _ _ => by simp [permitted, hs]
  case tblatch src ga gd lb tr =>
    unfold execTblatch
    split
    · exact issuesAs_tileForm rfl fun _ _ => rfl
    split
    · exact issuesAs_tileForm rfl fun _ _ => rfl
    · exact issuesAs_tileForm rfl fun _ _ => rfl

theorem queueWhen_goes (s : State) (f : Cont → Bool) : Goes (queueWhen s f) := by
  unfold queueWhen
  split
  · split <;> exact ⟨_, rfl⟩
  · exact ⟨_, rfl⟩

theorem command_goes (n : Nat) (f : State → Option Nat × State) (s : State) : Goes (command n f s) := by
  unfold command
  split <;> exact ⟨_, rfl⟩

theorem segmentStart_goes (s : State) : Goes (execSegmentStart s) := by
  unfold execSegmentStart
  extract_lets
  split
  · exact ⟨_, rfl⟩
  next q _ =>
    extract_lets
    cases q.entry.work with
    | cont => dsimp only; split <;> exact ⟨_, rfl⟩
    | remainder old => dsimp only; split <;> exact ⟨_, rfl⟩
    | _ => exact ⟨_, rfl⟩

theorem walkerOpComplete_goes (s : State) : Goes (execWalkerOpComplete s) := by
  unfold execWalkerOpComplete
  split
  · exact ⟨_, rfl⟩
  split
  · exact ⟨_, rfl⟩
  extract_lets r
  cases r <;> exact ⟨_, rfl⟩

theorem partDestroy_goes (s : State) : Goes (execPartDestroy s) := by
  unfold execPartDestroy
  split
  · split <;> exact ⟨_, rfl⟩
  · exact command_goes ..

theorem partSwitch_goes (s : State) : Goes (execPartSwitch s) := by
  unfold execPartSwitch
  split
  · split
    · exact ⟨_, rfl⟩
    · split <;> exact ⟨_, rfl⟩
  · exact command_goes ..

/-- An event answers a next state: its row's answer is one in every branch. -/
theorem event_goes {i : Instr} (s : State) (hi : isEvent i = true) : Goes (exec i s) := by
  cases i <;> try exact absurd hi Bool.false_ne_true
  case segmentStart => exact segmentStart_goes s
  case walkerOpComplete => exact walkerOpComplete_goes s
  case partDestroy => exact partDestroy_goes s
  case partSwitch => exact partSwitch_goes s
  case continuationQueued | watchTimeout | yieldTimeExpiry => exact queueWhen_goes s _
  case partCreate | partQuota | partMap =>
    simp only [exec]
    exact command_goes _ _ s
  all_goals simp -zeta only [exec,
    execBootStage, execTickBoundary, execHeadUrgent, execFarWorkDone, execLocalCopy, execIcacheBlockLoad, execOverrun,
    execContinuationRecordComplete, execGangRoundEnd, execGangNextRound, execSpillWindow, execIdleExpiry, execEvictionAdmit,
    execBatchClose, execStreamSequencePoint, execJoinReduction, execSnapshotTransferDone, execPendingSlotDrain,
    execChannelUnit, execKvappToken, execAttdPage, execLfiltPass, execRedmUnit, execLaunchArrival, execDqsendSequenced,
    execDqEntryArrive, execRingDelivery, execPhaseSweep, execRampsetComplete, execTileCommandStart, execTileBatchCommit,
    execDeferredEccFault, execFaultEventEnqueue, execFaultRequestProcessed, execPreemptRequest, execPreemptSave,
    execWhiskFire, execWhiskTriggerEvent, execWhiskLatch, execSemaAcquire, execLinkRetrain, execFwWindowWrite,
    execFwVerifyCommit, execFwDiscard, execAttestation, execTimeStep, execPpsEdge, execDieReset, execThermalLimit,
    execEccScrub, execCalStatRead, execFltLostRead, execSnapStatRead, execPartCmdDone, execFwCmdDone, execAttReportDone]
  all_goals try extract_lets
  all_goals repeat' (split; all_goals try extract_lets)
  all_goals exact ⟨_, rfl⟩

/-! ### What a fault records -/

/-- The event of a strand that parks has the fault's address and words in its record (R405). -/
theorem faultNow_records (s : State) (t : Strand) (n : Nat) (f : FaultInfo) :
    ∃ e, (getDie (faultNow s t n f) (dieOf t.cl)).waiting = (getDie s (dieOf t.cl)).waiting ++ [e] ∧ e.cause = causeCode f.cause
      ∧ e.word0 = recWord0 (causeCode f.cause) 0 f.soft f.eccp t.task.pid t.cl t.lane t.ctx t.ds
      ∧ e.words.getD 3 0 = f.va ∧ e.words.getD 5 0 = f.word ∧ e.words.getD 6 0 = f.w7 := by
  simp only [faultNow, getDie, whiskOnCause_dies, queueEvent, updDie_dies, tabGet_tabSet_same, Option.getD_some,
    (freeIf_keeps _ _ _ _).2.2, park_dies, List.append_cancel_left_eq, List.cons.injEq, and_true]
  exact ⟨_, rfl, rfl, rfl, rfl, rfl, rfl⟩

theorem takeFaultAt_records {s : State} {t : Strand} (n : Nat) (f : FaultInfo) (h : settled s t = true) :
    ∃ e, (getDie (takeFaultAt s t n f) (dieOf t.cl)).waiting = (getDie s (dieOf t.cl)).waiting ++ [e]
      ∧ e.cause = causeCode f.cause
      ∧ e.word0 = recWord0 (causeCode f.cause) 0 f.soft f.eccp t.task.pid t.cl t.lane t.ctx t.ds
      ∧ e.words.getD 3 0 = f.va ∧ e.words.getD 5 0 = f.word ∧ e.words.getD 6 0 = f.w7 := by
  have hs : settled (closeBatch s t s.cycle).2 (closeBatch s t s.cycle).1 = true := h
  simp only [takeFaultAt, hs, if_true]
  exact faultNow_records { (closeBatch s t s.cycle).2 with strands := tabDel s.strands (laneKey (closeBatch s t s.cycle).1) }
    (closeBatch s t s.cycle).1 n f

/-- A strand whose register writes are still to come keeps the fault that it will take. -/
theorem takeFaultAt_waits {s : State} {t : Strand} (n : Nat) (f : FaultInfo) (h : settled s t = false) :
    ∃ u ∈ (takeFaultAt s t n f).parked, Keeps t u ∧ u.ending = some (.fault n f) := by
  have hs : settled (closeBatch s t s.cycle).2 (closeBatch s t s.cycle).1 = false := h
  simp only [takeFaultAt, hs]
  exact ⟨_, List.mem_append_right _ (List.mem_singleton.2 rfl), ⟨rfl, rfl, rfl, rfl, rfl, rfl, rfl, rfl, rfl, rfl⟩, rfl⟩

/-! ### Rows -/

/-- A row is an event, a form with a guard, or the word that is no instruction. -/
theorem row_cases (i : Instr) : isEvent i = true ∨ (∃ g, guardOf i = some g) ∨ ∃ w, i = .illegalWord w := by
  have h : (isEvent i || (guardOf i).isSome || i.ctorIdx == 233) = true := by cases i <;> rfl
  rcases Bool.or_eq_true _ _ ▸ h with h | h
  · rcases Bool.or_eq_true _ _ ▸ h with h | h
    · exact .inl h
    · exact .inr (.inl (Option.isSome_iff_exists.1 h))
  · cases i <;> try exact absurd h Bool.false_ne_true
    exact .inr (.inr ⟨_, rfl⟩)

/-- Only forms with a guard ask for a privilege. -/
theorem guardOf_of_denied {s : State} {t : Strand} {i : Instr} (hp : permitted s t i = false) : ∃ g, guardOf i = some g := by
  have h : ((guardOf i).isSome || permitted s t i) = true := by cases i <;> rfl
  simpa [hp, Option.isSome_iff_exists] using h

theorem exec_illegalWord {s : State} {t : Strand} (w : Word) (ht : curStrand s = some t) :
    exec (.illegalWord w) s = .next (takeFault s t { cause := .illegal, va := toW t.pc0, word := w }) := by
  simp only [exec, execIllegalWord, ht]

/-- Settles O9: events by their rows, forms with a guard by the way that they issue. -/
theorem everyRowGoesOn : Obligations.EveryRowGoesOn := by
  intro i s h
  rcases row_cases i with hi | ⟨g, hg⟩ | ⟨w, rfl⟩
  · exact event_goes s hi
  · rcases h with hi | hc
    · exact event_goes s hi
    obtain ⟨t, ht⟩ := Option.isSome_iff_exists.1 hc
    obtain ⟨s', hx, -⟩ := (exec_issuesAs s hg).2 t ht
    exact ⟨s', hx⟩
  · obtain ⟨t, ht⟩ := Option.isSome_iff_exists.1 (h.resolve_left Bool.false_ne_true)
    exact ⟨_, exec_illegalWord w ht⟩

theorem tileWord_iff (i : Instr) : tileWord i = true ↔ (encode i).length = 4 := by
  have h : tileWord i = ((encode i).length == 4) := by cases i <;> rfl
  simp [h]

/-- Settles O10: the strand that `offOf` leaves. -/
theorem falseGuard : Obligations.FalseGuard := by
  intro i g s t hg ht hoff hp
  obtain ⟨s', hx, -, h, -⟩ := (exec_issuesAs s hg).2 t ht
  obtain rfl := h hp hoff
  refine ⟨offOf i t, ⟨hx, fun _ => rfl⟩, ?_⟩
  unfold offOf
  cases hb : isBranchForm i
  case true => simp [SameG, SameV, SameP, SameC, SameF, SamePlace, Branched, afterSlots]
  case false =>
    simp only [← tileWord_iff]
    cases hw : tileWord i
    case true => simp [SameG, getG, SameV, SameP, SameC, SameF, SamePlace, advanceTcw]
    case false => simp [SameG, SameV, SameP, SameC, SameF, SamePlace, MovedOn]

/-- Settles O11. -/
theorem decodeFaults : Obligations.DecodeFaults := by
  refine ⟨fun i g s t r hg ht hon hp hr hl => ?_, fun i s t ht hp => ?_, fun w s t ht => ⟨?_, fun hs => ?_, fun hs => ?_⟩⟩
  · obtain ⟨s', hx, -, -, h⟩ := (exec_issuesAs s hg).2 t ht
    obtain rfl := h hp hon (List.any_eq_true.2 ⟨r, hr, hl⟩)
    exact ⟨_, hx, faulted_raise ..⟩
  · obtain ⟨g, hg⟩ := guardOf_of_denied hp
    obtain ⟨s', hx, h, -⟩ := (exec_issuesAs s hg).2 t ht
    obtain rfl := h hp
    exact ⟨_, hx, faulted_raise ..⟩
  · exact ⟨_, exec_illegalWord w ht, faulted_takeFault ..⟩
  · obtain ⟨e, he, hc, -, hva, hw, -⟩ := takeFaultAt_records (reachCycle t s) _ hs
    exact ⟨_, e, exec_illegalWord w ht, he, hc, hva, hw⟩
  · obtain ⟨u, hu, hk, he⟩ := takeFaultAt_waits (reachCycle t s) _ hs
    exact ⟨_, u, _, _, exec_illegalWord w ht, hu, hk, he, rfl, rfl⟩

end Sys2Proof.Machine
end

section
/-! SUPPORT. Scalar forms: the value of each by its rule (spec/04 R94-R110; spec/02 R46). -/

namespace Sys2Proof.Machine

/-! ### Values of the scalar forms -/

theorem writesG_value {i : Instr} {g : Guard} {lat : Nat} {d : R6} {x y : State → Strand → Word}
    (h : ∀ s, exec i s = aluOp i g lat d (x s) s) (hv : ∀ s t, x s t = y s t) : WritesG i g d y := by
  have hxy : x = y := funext fun s => funext (hv s)
  exact writesG_of_aluOp (hxy ▸ h)

theorem shiftRight_eq_ofNat_div (a : Word) (n : Nat) : a >>> n = BitVec.ofNat 64 (a.toNat / 2 ^ n) := by
  apply BitVec.eq_of_toNat_eq
  rw [BitVec.toNat_ushiftRight, Nat.shiftRight_eq_div_pow, BitVec.toNat_ofNat, Nat.mod_eq_of_lt]
  exact Nat.lt_of_le_of_lt (Nat.div_le_self ..) a.isLt

theorem sshiftRight_eq_ofInt_div (a : Word) (n : Nat) : a.sshiftRight n = BitVec.ofInt 64 (a.toInt / 2 ^ n) := by
  rw [BitVec.sshiftRight, Int.shiftRight_eq_div_pow]
  norm_cast

theorem rotateLeft_eq_or (a : Word) {n : Nat} (h : n < 64) :
    a.rotateLeft n = if n = 0 then a else a <<< n ||| a >>> (64 - n) := by
  rw [BitVec.rotateLeft_eq_rotateLeftAux_of_lt h, BitVec.rotateLeftAux]
  split
  next h0 => subst h0; ext i hi; simp
  next => rfl

theorem toNat_wrap48 (x : Word) : (wrap48 x).toNat = x.toNat % 2 ^ 48 := by
  simp only [wrap48, toW, BitVec.toNat_setWidth]
  omega

/-- LEA wraps to 48 bits (R94). -/
theorem wrap48_add_shiftLeft (a b : Word) (sc : Nat) :
    wrap48 (a + b <<< sc) = BitVec.ofNat 64 ((a.toNat + b.toNat * 2 ^ sc) % 2 ^ 48) := by
  apply BitVec.eq_of_toNat_eq
  rw [toNat_wrap48, BitVec.toNat_add, BitVec.toNat_shiftLeft, Nat.shiftLeft_eq, BitVec.toNat_ofNat]
  omega

/-- BFX as an extension of the field (R96). -/
theorem bitField_eq (a : Word) (pos n : Nat) (sg : Bool) :
    bitField a pos (n + 1) sg
      = if sg then ((a >>> pos).setWidth (n + 1)).signExtend 64 else ((a >>> pos).setWidth (n + 1)).setWidth 64 := by
  have hf : (a.toNat >>> pos) % 2 ^ (n + 1) = ((a >>> pos).setWidth (n + 1)).toNat := by simp
  simp only [bitField, hf]
  generalize (a >>> pos).setWidth (n + 1) = x
  cases sg
  · simp
  · simp only [Bool.true_and, decide_eq_true_eq, if_true, BitVec.signExtend, BitVec.toInt_eq_toNat_cond, Nat.add_sub_cancel]
    have h2 : 2 ^ (n + 1) = 2 * 2 ^ n := by rw [Nat.pow_succ]; omega
    by_cases h : 2 ^ n ≤ x.toNat
    · rw [if_pos h, if_neg (by omega)]; norm_cast
    · rw [if_neg h, if_pos (by omega), BitVec.ofInt_natCast]

theorem bit_bitField_low (a : Word) {pos n : Nat} (sg : Bool) {j : Nat} (hp : pos + n < 64) (hj : j ≤ n) :
    bit (bitField a pos (n + 1) sg) j = bit a (pos + j) := by
  have h64 : j < 64 := by omega
  have hn : j < n + 1 := by omega
  cases sg <;> simp [bitField_eq, bit, BitVec.getElem_signExtend, h64, hn]

theorem bit_bitField_high (a : Word) {pos n : Nat} (sg : Bool) {j : Nat} (hj : n < j) (h64 : j < 64) :
    bit (bitField a pos (n + 1) sg) j = (sg && bit a (pos + n)) := by
  have hn : ¬ j < n + 1 := by omega
  cases sg <;> simp [bitField_eq, bit, BitVec.getElem_signExtend, h64, hn, BitVec.msb_eq_getLsbD_last]

/-- The mask of a field of `n` bits at `pos`. -/
theorem testBit_fieldMask (n pos j : Nat) : ((2 ^ n - 1) * 2 ^ pos).testBit j = decide (pos ≤ j ∧ j < pos + n) := by
  rw [Nat.testBit_mul_two_pow, Nat.testBit_two_pow_sub_one]
  by_cases h : pos ≤ j
  · simp [h]; omega
  · simp [h]

theorem bit_bitInsert (b x : Word) (pos n : Nat) {j : Nat} (hj : j < 64) :
    bit (bitInsert b x pos n) j = if pos ≤ j ∧ j < pos + n then bit x (j - pos) else bit b j := by
  simp only [bit, bitInsert, BitVec.getLsbD_or, BitVec.getLsbD_and, BitVec.getLsbD_not, BitVec.getLsbD_ofNat, testBit_fieldMask,
    BitVec.getLsbD_shiftLeft, hj, decide_true, Bool.true_and]
  by_cases h : pos ≤ j ∧ j < pos + n
  · have : ¬ j < pos := by omega
    simp [h, this]
  · simp [h]

/-! ### Counts (R94) -/

theorem trailing_spec (k x : Nat) :
    trailing k x ≤ k ∧ (∀ j < trailing k x, x.testBit j = false) ∧ (trailing k x < k → x.testBit (trailing k x) = true) := by
  induction k generalizing x with
  | zero => simp [trailing]
  | succ k ih =>
    unfold trailing
    split
    next h => simp [Nat.testBit_zero, h]
    next h =>
      obtain ⟨hle, hlow, hat⟩ := ih (x / 2)
      refine ⟨by omega, fun j hj => ?_, fun hk => ?_⟩
      · cases j with
        | zero => simpa [Nat.testBit_zero] using h
        | succ j => rw [Nat.testBit_succ]; exact hlow j (by omega)
      · rw [Nat.testBit_succ]; exact hat (by omega)

theorem ones_eq (k x : Nat) : ones k x = ((List.range k).filter (fun j => x.testBit j)).length := by
  induction k generalizing x with
  | zero => rfl
  | succ k ih =>
    rw [ones, ih, List.range_succ_eq_map, List.filter_cons, List.filter_map, Function.comp_def]
    simp only [Nat.testBit_succ, Nat.testBit_zero, Nat.succ_eq_add_one, decide_eq_true_eq]
    rcases Nat.mod_two_eq_zero_or_one x with h | h <;> simp [h, Nat.add_comm]
theorem clz64_spec (a : Word) :
    (clz64 a).toNat ≤ 64 ∧ (∀ j, 64 - (clz64 a).toNat ≤ j → bit a j = false)
      ∧ (a ≠ 0 → bit a (63 - (clz64 a).toNat) = true) ∧ (a = 0 → clz64 a = 64) := by
  by_cases h : a = 0
  · subst h; simp [clz64, bit]
  · have h0 : a.toNat ≠ 0 := fun e => h (BitVec.eq_of_toNat_eq e)
    have hlog : a.toNat.log2 < 64 := (Nat.log2_lt h0).2 a.isLt
    have hc : (clz64 a).toNat = 63 - a.toNat.log2 := by
      rw [clz64, if_neg h, BitVec.toNat_ofNat, Nat.mod_eq_of_lt (by omega)]
    refine ⟨by omega, fun j hj => ?_, fun _ => ?_, fun e => absurd e h⟩
    · exact Nat.testBit_lt_two_pow (lt_of_lt_of_le Nat.lt_log2_self (Nat.pow_le_pow_right (by omega) (by omega)))
    · rw [hc, show 63 - (63 - a.toNat.log2) = a.toNat.log2 by omega]
      exact Nat.testBit_log2 h0

theorem ctz64_spec (a : Word) :
    (ctz64 a).toNat ≤ 64 ∧ (∀ j, j < (ctz64 a).toNat → bit a j = false)
      ∧ (a ≠ 0 → bit a (ctz64 a).toNat = true) ∧ (a = 0 → ctz64 a = 64) := by
  obtain ⟨hle, hlow, hat⟩ := trailing_spec 64 a.toNat
  have hc : (ctz64 a).toNat = trailing 64 a.toNat := by
    rw [ctz64, BitVec.toNat_ofNat, Nat.mod_eq_of_lt (by omega)]
  rw [hc]
  refine ⟨hle, hlow, fun h => hat (lt_of_le_of_ne hle fun e => h ?_), fun h => by subst h; rfl⟩
  rw [e] at hlow
  apply BitVec.eq_of_getLsbD_eq
  intro i hi
  exact (hlow i hi).trans (BitVec.getLsbD_zero).symm

theorem popc64_eq (a : Word) : (popc64 a).toNat = ((List.range 64).filter (fun j => bit a j)).length := by
  have h : ones 64 a.toNat = ((List.range 64).filter (fun j => bit a j)).length := ones_eq 64 a.toNat
  have hle := List.length_filter_le (fun j => bit a j) (List.range 64)
  rw [List.length_range] at hle
  rw [popc64, BitVec.toNat_ofNat, Nat.mod_eq_of_lt (by omega), h]

/-- Clipping to a range, and the flag that says so, as two values. -/
theorem clip_eq (lo hi x : Int) :
    (if hi < x then (BitVec.ofInt 64 hi, fSAT) else if x < lo then (BitVec.ofInt 64 lo, fSAT) else (BitVec.ofInt 64 x, 0))
      = (BitVec.ofInt 64 (if hi < x then hi else if x < lo then lo else x), if hi < x ∨ x < lo then fSAT else 0) := by
  by_cases h : hi < x
  · simp [h]
  · by_cases h' : x < lo <;> simp [h, h']

/-- Settles O12: each form is an aluOp, and its value is that of the rule. -/
theorem integerResults : Obligations.IntegerResults := by
  unfold Obligations.IntegerResults
  refine ⟨fun g d a b c sc => ?_, fun g d a b pos lm1 sg hf => ⟨fun s t hr => ?_, fun s t hr => ?_⟩,
    ⟨clz64_spec, ctz64_spec, popc64_eq⟩, fun g u d a b => ?_⟩
  · refine ⟨writesG_of_aluOp fun _ => rfl, writesG_of_aluOp fun _ => rfl, writesG_of_aluOp fun _ => rfl,
      writesG_of_aluOp fun _ => rfl, writesG_of_aluOp fun _ => rfl, writesG_of_aluOp fun _ => rfl, writesG_of_aluOp fun _ => rfl,
      writesG_of_aluOp fun _ => rfl, writesG_of_aluOp fun _ => rfl, writesG_of_aluOp fun _ => rfl, writesG_of_aluOp fun _ => rfl,
      writesG_value (fun _ => rfl) fun s t => shiftRight_eq_ofNat_div _ _,
      writesG_value (fun _ => rfl) fun s t => sshiftRight_eq_ofInt_div _ _,
      writesG_value (fun _ => rfl) fun s t => rotateLeft_eq_or _ (Nat.mod_lt _ (by omega)),
      writesG_of_aluOp fun _ => rfl, writesG_of_aluOp fun _ => rfl, writesG_of_aluOp fun _ => rfl, writesG_of_aluOp fun _ => rfl,
      writesG_of_aluOp fun _ => rfl, writesG_of_aluOp fun _ => rfl, writesG_of_aluOp fun _ => rfl, writesG_of_aluOp fun _ => rfl,
      writesG_value (fun _ => rfl) fun s t => wrap48_add_shiftLeft _ _ _⟩
  · obtain ⟨t', h⟩ := writesG_of_aluOp (i := .bfx g d a pos lm1 sg) (fun _ => rfl) s t hr
    obtain ⟨hc, hw, hv, hp, hk, hf', hpl, hm⟩ := h
    exact ⟨t', _, hc, hw, hv, hp, hk, hf', hpl, hm, fun j hj => bit_bitField_low _ sg (by omega) hj,
      fun j hj h64 => bit_bitField_high _ sg hj h64⟩
  · obtain ⟨t', h⟩ := writesG_of_aluOp (i := .bfi g d a b pos lm1) (fun _ => rfl) s t hr
    obtain ⟨hc, hw, hv, hp, hk, hf', hpl, hm⟩ := h
    refine ⟨t', _, hc, hw, hv, hp, hk, hf', hpl, hm, fun j hj => ?_, fun j hj => ?_⟩
    · rw [bit_bitInsert _ _ _ _ (by omega), if_pos (by omega), Nat.add_sub_cancel_left]
    · by_cases h64 : j < 64
      · rw [bit_bitInsert _ _ _ _ h64, if_neg (by omega)]
      · rw [bit, bit, BitVec.getLsbD_of_ge _ _ (by omega), BitVec.getLsbD_of_ge _ _ (by omega)]
  · refine writesGF_of_laneOp fun s => ?_
    simp only [exec, execAddsat, addSat64, clip_eq, Nat.cast_add]

/-- LEAI with its immediate sign-extended (R98). -/
theorem wrap48_add_sxW_shiftLeft (a : Word) (imm : BitVec 32) (sc : Nat) :
    wrap48 (a + sxW imm <<< sc) = BitVec.ofInt 64 ((a.toNat + imm.toInt * 2 ^ sc) % 2 ^ 48) := by
  have h2 : BitVec.twoPow 64 sc = BitVec.ofInt 64 (2 ^ sc) :=
    BitVec.eq_of_toNat_eq (by rw [BitVec.toNat_twoPow, BitVec.toNat_ofInt]; norm_cast)
  have h : a + sxW imm <<< sc = BitVec.ofInt 64 (a.toNat + imm.toInt * 2 ^ sc) := by
    rw [BitVec.ofInt_add, BitVec.ofInt_mul, BitVec.ofInt_natCast, BitVec.ofNat_toNat, BitVec.setWidth_eq,
      BitVec.shiftLeft_eq_mul_twoPow, h2]
    rfl
  rw [h]
  apply BitVec.eq_of_toNat_eq
  rw [toNat_wrap48, BitVec.toNat_ofInt, BitVec.toNat_ofInt]
  generalize (a.toNat : Int) + imm.toInt * 2 ^ sc = x
  omega

theorem toW_toNat_le (imm : BitVec 32) : (toW imm).toNat = imm.toNat := by
  simp only [toW, BitVec.toNat_setWidth]
  omega

theorem sxW_toInt (imm : BitVec 32) : (sxW imm).toInt = imm.toInt := BitVec.toInt_signExtend_of_le (by omega)

/-- Settles O14: each form is an aluOp, and its value is that of the rule. -/
theorem immediateResults : Obligations.ImmediateResults := by
  unfold Obligations.ImmediateResults
  intro g z u d a n sc imm i
  refine ⟨writesG_of_aluOp fun _ => rfl, writesG_of_aluOp fun _ => rfl, writesG_of_aluOp fun _ => rfl, writesG_of_aluOp fun _ => rfl,
    writesG_of_aluOp fun _ => rfl, writesG_of_aluOp fun _ => rfl, writesG_value (fun _ => rfl) fun s t => shiftRight_eq_ofNat_div _ _,
    writesG_value (fun _ => rfl) fun s t => sshiftRight_eq_ofInt_div _ _, writesG_value (fun _ => rfl) fun s t => ?_,
    writesG_value (fun _ => rfl) fun s t => ?_, writesG_value (fun _ => rfl) fun s t => ?_,
    writesG_value (fun _ => rfl) fun s t => wrap48_add_sxW_shiftLeft _ _ _⟩
  · rw [rotateLeft_eq_or _ n.isLt]
    have h0 : (n = 0) = (n.toNat = 0) := by rw [BitVec.toNat_eq]; rfl
    simp only [h0]
  · simp only [minU, minS, toW_toNat_le, sxW_toInt]; rfl
  · simp only [maxU, maxS, toW_toNat_le, sxW_toInt]; rfl

/-! ### Identity words (R102) -/

theorem locationWord_fields (t : Strand) (hl : t.lane < 8) (hc : t.cl < 256) (hp : t.task.pid < 16) (hx : t.ctx < 8) :
    ((locationWord t).toNat % 8 = t.lane ∧ (locationWord t).toNat / 2 ^ 3 % 32 = t.cl % 32
         ∧ (locationWord t).toNat / 2 ^ 8 % 8 = t.cl / 32 ∧ (locationWord t).toNat / 2 ^ 11 % 16 = t.task.pid
         ∧ (locationWord t).toNat / 2 ^ 15 % 8 = t.ctx ∧ (locationWord t).toNat / 2 ^ 18 % 2 ^ 14 = 0
         ∧ (locationWord t).toNat / 2 ^ 32 % 16 = Config.torus.toNat % 16
         ∧ (locationWord t).toNat / 2 ^ 36 % 16 = Config.torus.toNat / 16 % 16
         ∧ (locationWord t).toNat / 2 ^ 40 % 16 = Config.torus.toNat / 256 ∧ (locationWord t).toNat / 2 ^ 44 = 0) := by
  have ht := Config.torus.isLt
  simp only [locationWord, dieOf, BitVec.toNat_ofNat]
  omega

theorem taskWord_toNat (t : Strand) (hg : t.seg.gid < 256) (hm : t.seg.member < 8) (hq : t.task.fq = true ∨ t.seg.queue < 16)
    (hp : t.task.fq = true ∨ t.seg.prio < 128) : (taskWord t).toNat = t.seg.gid + 2 ^ 8 * t.seg.member
      + 2 ^ 16 * (if t.task.fq then 0 else t.seg.queue) + 2 ^ 20 * (if t.task.fq then 127 else t.seg.prio)
      + 2 ^ 27 * (if t.task.fq then 1 else 0) := by
  rw [taskWord, BitVec.toNat_ofNat, Nat.mod_eq_of_lt]
  cases h : t.task.fq <;> simp [h] at hq hp ⊢ <;> omega

/-- Settles O16. -/
theorem moveResults : Obligations.MoveResults := by
  unfold Obligations.MoveResults
  refine ⟨fun g d a c sel => ⟨writesG_of_aluOp fun _ => rfl, writesG_of_aluOp fun _ => rfl, writesG_value (fun _ => rfl) fun s t => ?_,
    writesG_of_aluOp fun _ => rfl, writesG_of_aluOp fun _ => rfl, writesG_of_aluOp fun _ => rfl⟩,
    fun t hl hc hp hx => ⟨locationWord_fields t hl hc hp hx, fun hg hm => ?_, fun hf hg hm => ?_, fun hf hg hm hq hpr => ?_⟩⟩
  · apply BitVec.eq_of_toNat_eq
    have hp := t.p.isLt
    simp only [toW, BitVec.toNat_setWidth, BitVec.toNat_append, BitVec.toNat_ofNat, ← Nat.shiftLeft_add_eq_or_of_lt hp]
    omega
  · rw [taskWord, BitVec.toNat_ofNat]
    omega
  · rw [taskWord_toNat t hg hm (.inl hf) (.inl hf)]
    simp only [hf, if_true]
    omega
  · rw [taskWord_toNat t hg hm (.inr hq) (.inr hpr)]
    simp only [hf, Bool.false_eq_true, if_false]
    omega

/-! ### Predicates and branches -/

/-- What a form that sets predicates keeps. -/
theorem onlyP_advance {t u : Strand} (hg : u.g = t.g) (hv : SameV t u) (hc : u.c = t.c) (hf : SameF t u) (hp : SamePlace t u)
    (h1 : u.pc1 = t.pc1) (h2 : u.pc2 = t.pc2) (hd : u.ds = t.ds) : OnlyP t (advance u) := by
  refine ⟨⟨hv.1, hv.2⟩, fun r => ?_, hc, ⟨hf.1, hf.2⟩, hp, movedOn_advance h1 h2 hd⟩
  simp [getG, hg]

theorem onlyP_setP (now lat : Nat) (d : BitVec 3) (x : Bool) (now' lat' : Nat) (d' : BitVec 3) (x' : Bool) (t : Strand) :
    OnlyP t (advance (setP now lat d x (setP now' lat' d' x' t))) :=
  onlyP_advance (by simp) (by simp [SameV]) (by simp) (by simp [SameF]) (by simp [SamePlace]) (by simp) (by simp) (by simp)

theorem condOn_codes (x y : Word) :
    condOn 0 x y = decide (x.toNat = y.toNat) ∧ condOn 1 x y = decide (x.toNat ≠ y.toNat)
      ∧ condOn 2 x y = decide (x.toInt < y.toInt) ∧ condOn 3 x y = decide (x.toInt ≥ y.toInt)
      ∧ condOn 4 x y = decide (x.toNat < y.toNat) ∧ condOn 5 x y = decide (x.toNat ≥ y.toNat)
      ∧ condOn 6 x y = decide (x.toInt > y.toInt) ∧ condOn 7 x y = decide (x.toInt ≤ y.toInt)
      ∧ condOn 8 x y = decide (x.toNat > y.toNat) ∧ condOn 9 x y = decide (x.toNat ≤ y.toNat) := by
  simp [condOn, BitVec.toNat_inj]

theorem and_ne_zero_iff (x y : Word) : x &&& y ≠ 0 ↔ ∃ j, bit x j = true ∧ bit y j = true := by
  constructor
  · intro h
    by_contra hn
    push Not at hn
    refine h (BitVec.eq_of_getLsbD_eq fun j _ => ?_)
    have := hn j
    simp only [bit] at this
    cases hx : x.getLsbD j <;> simp_all
  · rintro ⟨j, hx, hy⟩ h
    have hj : (x &&& y).getLsbD j = true := by simpa [bit] using And.intro hx hy
    simp [h] at hj

theorem condOn_test (x y : Word) :
    (condOn 10 x y = true ↔ ∃ j, bit x j = true ∧ bit y j = true)
      ∧ (condOn 11 x y = true ↔ ∀ j, ¬ (bit x j = true ∧ bit y j = true)) := by
  refine ⟨by rw [← and_ne_zero_iff]; exact decide_eq_true_iff, ?_⟩
  rw [← not_exists, ← and_ne_zero_iff, not_not]
  exact decide_eq_true_iff

theorem compare_completes {i : Instr} {g : Guard} {d f : BitVec 3} {x y : Strand → Bool} {s : State} {t : Strand}
    (h : exec i s = laneOp i g advance (fun t => advance (setP s.cycle 1 f (y t) (setP s.cycle 1 d (x t) t))) s) (hr : Ready s t i g) :
    ∃ t', Completes i s t' ∧ OnlyP t t'
      ∧ ∀ r : BitVec 3, getP t' r = if r = 7 then true else if r = f then y t else if r = d then x t else getP t r := by
  refine ⟨_, completes_of_laneOp h hr, onlyP_setP .., fun r => ?_⟩
  simp only [getP_advance, getP_setP]
  by_cases h7 : r = 7
  · subst h7
    simp only [if_true, getP_seven]
    rw [if_neg (by rintro ⟨rfl, h⟩; exact h rfl), if_neg (by rintro ⟨rfl, h⟩; exact h rfl)]
  · have hf : (r = f ∧ f ≠ 7) ↔ r = f := ⟨And.left, fun h => ⟨h, h ▸ h7⟩⟩
    have hd : (r = d ∧ d ≠ 7) ↔ r = d := ⟨And.left, fun h => ⟨h, h ▸ h7⟩⟩
    simp only [hf, hd, h7, if_false]

/-- A form that gives the predicate file a value, p7 reading true whatever it holds. -/
theorem setsFile_completes {i : Instr} {g : Guard} {p : Strand → BitVec 7} {s : State} {t : Strand}
    (h : exec i s = laneOp i g advance (fun t => advance { t with p := p t }) s) (hr : Ready s t i g) :
    ∃ t', Completes i s t' ∧ OnlyP t t' ∧ ∀ r : BitVec 3, getP t' r = if r = 7 then true else (p t).getLsbD r.toNat :=
  ⟨_, completes_of_laneOp h hr, onlyP_advance rfl ⟨rfl, rfl⟩ rfl ⟨rfl, rfl⟩ ⟨rfl, rfl, rfl, rfl, rfl, rfl⟩ rfl rfl rfl, fun _ => rfl⟩

theorem toNat_lt_of_ne_seven {r : BitVec 3} (h : r ≠ 7) : r.toNat < 7 := by
  have h7 : r.toNat ≠ 7 := fun e => h (BitVec.eq_of_toNat_eq e)
  omega

/-- Settles O17. -/
theorem predicateResults : Obligations.PredicateResults := by
  unfold Obligations.PredicateResults
  refine ⟨⟨fun g cond comb pt a b pf s t hr => ?_, fun g cond pf pt a imm s t hr => ?_⟩, fun x y => ?_, fun g d a b vals mask => ?_⟩
  · obtain ⟨t', hc, ho, hp⟩ := compare_completes (i := .cmp g cond comb pt a b pf) (by simp only [exec]; rfl) hr
    refine ⟨t', hc, ho, fun r => ?_⟩
    rw [hp]
    by_cases h : r = low3 pt <;> simp [h, combine]
  · exact compare_completes (i := .cmpi g cond pf pt a imm) (by simp only [exec]; rfl) hr
  · obtain ⟨h0, h1, h2, h3, h4, h5, h6, h7, h8, h9⟩ := condOn_codes x y
    obtain ⟨h10, h11⟩ := condOn_test x y
    refine ⟨h0, h1, h2, h3, h4, h5, h6, h7, h8, h9, h10, h11, fun g c comb pt a b pf hc => ?_⟩
    simp [reservedBad, hc]
  · refine ⟨writesP_of_laneOp fun _ => rfl, writesP_of_laneOp fun _ => rfl, writesP_of_laneOp fun _ => rfl,
      writesP_of_laneOp fun _ => rfl, writesP_of_laneOp fun _ => rfl, fun s t hr => ?_, fun s t hr => ?_⟩
    · obtain ⟨t', hc, ho, hp⟩ := setsFile_completes (i := .gtopF g a) (by simp only [exec]; rfl) hr
      refine ⟨t', hc, ho, fun r => ?_⟩
      rw [hp]
      split
      case isTrue => rfl
      case isFalse h7 => simp [bit, toNat_lt_of_ne_seven h7]
    · obtain ⟨t', hc, ho, hp⟩ := setsFile_completes (i := .pset g vals mask) (by simp only [exec]; rfl) hr
      refine ⟨t', hc, ho, fun r => ?_⟩
      rw [hp]
      by_cases h7 : r = 7
      · rw [if_pos h7, if_neg (by simp [h7]), h7, getP_seven]
      · rw [if_neg h7]
        have hlt := toNat_lt_of_ne_seven h7
        cases hm : mask.getLsbD r.toNat <;>
          simp only [bit, getP, if_neg h7, hm, ne_eq, h7, BitVec.getLsbD_or, BitVec.getLsbD_and, BitVec.getLsbD_not,
            BitVec.getLsbD_setWidth, hlt] <;> simp

/-! ### Branches -/

theorem relTarget_eq (off : BitVec 32) (t : Strand) :
    relTarget off t = BitVec.ofInt 48 ((t.pc0.toNat : Int) + off.toInt * 8) := by
  have h8 : (off.signExtend 48 <<< 3 : Va) = BitVec.ofInt 48 (off.toInt * 8) := by
    rw [BitVec.ofInt_mul, BitVec.shiftLeft_eq_mul_twoPow]
    rfl
  rw [relTarget, h8, BitVec.ofInt_add, BitVec.ofInt_natCast, BitVec.ofNat_toNat, BitVec.setWidth_eq]

theorem toW_afterSlots (t : Strand) : toW (afterSlots t) = BitVec.ofNat 64 ((t.pc0.toNat + 24) % 2 ^ 48) := by
  apply BitVec.eq_of_toNat_eq
  have h24 : (24 : Va).toNat = 24 := rfl
  simp only [toW, afterSlots, BitVec.toNat_setWidth, BitVec.toNat_add, BitVec.toNat_ofNat, h24]

/-- Settles O18. -/
theorem branchResults : Obligations.BranchResults := by
  unfold Obligations.BranchResults
  intro g link r off rel ret
  have hrel : rel = relTarget off := funext fun t => (relTarget_eq off t).symm
  have hret : ret = fun t => toW (afterSlots t) := funext fun t => (toW_afterSlots t).symm
  rw [hrel, hret]
  refine ⟨branchesTo_of_branchOp fun _ => rfl, branchesTo_of_branchOp fun _ => rfl, branchesTo_of_branchOp fun _ => rfl,
    branchesTo_of_branchOp fun _ => rfl, fun s t hr => ?_⟩
  by_cases h0 : getG t r = 0
  · refine ⟨advanceBranch (afterSlots t) t, ⟨?_, fun _ => rfl⟩, fun q => ?_, ?_, ⟨rfl, rfl⟩, rfl, rfl, ⟨rfl, rfl⟩,
      ⟨rfl, rfl, rfl, rfl, rfl, rfl⟩⟩
    · simp only [exec, execLoop, branchOp, laneOp_on _ _ hr, h0]
      rfl
    · simp only [h0, if_true]
      split
      case isTrue h => rw [h.1]; exact h0
      case isFalse => rfl
    · simp [Branched, h0, afterSlots]
  · have hx : exec (.loop g r off) s = .next (putStrand s (advanceBranch
        (if getG t r ≠ 0 ∧ getG t r - 1 ≠ 0 then relTarget off t else afterSlots t) (setG s.cycle 1 r (getG t r - 1) t))) := by
      simp only [exec, execLoop, branchOp, laneOp_on _ _ hr, ne_eq, h0, not_false_eq_true, true_and, if_true]
    refine ⟨_, ⟨hx, fun _ => rfl⟩, fun q => ?_, ⟨?_, ?_, rfl, rfl⟩, ⟨?_, ?_⟩, ?_, ?_, ⟨?_, ?_⟩, ?_⟩
    · simp only [h0, if_false]
      exact (getG_congr rfl q).trans (getG_setG ..)
    all_goals simp [SameP, SameC, SamePlace]

end Sys2Proof.Machine
end

section
/-! SUPPORT. Vector forms: sums and products before their rounding, integer elements, permutes, reductions (spec/05 R119-R135; spec/03 R86). -/

namespace Sys2Proof.Machine

/-! ### The group sum (R86) -/

theorem sgnMant_scale (n : Bool) (m : Nat) {e q z : Int} (hz : z ≤ q) (hq : q ≤ e) :
    sgnMant n m e z = sgnMant n m e q * 2 ^ (q - z).toNat := by
  have h : (e - z).toNat = (e - q).toNat + (q - z).toNat := by omega
  cases n <;> simp [sgnMant, h, pow_add, mul_assoc]

theorem sgnMant_zero (n : Bool) (e q : Int) : sgnMant n 0 e q = 0 := by cases n <;> simp [sgnMant]

theorem minExp_le_start (p : List Xr) (q : Int) : minExp p q ≤ q := by
  induction p generalizing q with
  | nil => exact le_refl q
  | cons x l ih =>
    cases x with
    | fin n m e st =>
      refine (ih _).trans ?_
      split
      · exact le_refl q
      · exact min_le_left q e
    | nan => exact ih q
    | inf n => exact ih q

theorem minExp_le (p : List Xr) (q : Int) {n : Bool} {m : Nat} {e : Int} {st : Bool} (hx : .fin n m e st ∈ p) (hm : m ≠ 0) :
    minExp p q ≤ e := by
  induction p generalizing q with
  | nil => cases hx
  | cons x l ih =>
    rcases List.mem_cons.1 hx with rfl | h
    · refine (minExp_le_start l _).trans ?_
      simp [hm]
    · cases x <;> exact ih _ h

theorem le_minExp {p : List Xr} {q z : Int} (hz : z ≤ q) (hp : ∀ x ∈ p, fineFor z x) : z ≤ minExp p q := by
  induction p generalizing q with
  | nil => exact hz
  | cons x l ih =>
    have hl : ∀ y ∈ l, fineFor z y := fun y hy => hp y (List.mem_cons_of_mem x hy)
    cases x with
    | fin n m e st =>
      refine ih ?_ hl
      split
      · exact hz
      · exact le_min hz (hp _ List.mem_cons_self).1
    | nan => exact ih hz hl
    | inf n => exact ih hz hl

/-- The sum at the least place, in units of a place below it. -/
theorem sum_unitsAt {p : List Xr} {q z : Int} (hz : z ≤ q) (hq : ∀ n m e st, .fin n m e st ∈ p → m ≠ 0 → q ≤ e) :
    (p.map (unitsAt z)).sum = sumAt q p * 2 ^ (q - z).toNat := by
  induction p with
  | nil => simp [sumAt]
  | cons x l ih =>
    have hl := ih fun n m e st h => hq n m e st (List.mem_cons_of_mem x h)
    rw [List.map_cons, List.sum_cons, hl]
    cases x with
    | fin n m e st =>
      by_cases hm : m = 0
      · simp [sumAt, unitsAt, hm, sgnMant_zero]
      · simp only [sumAt, unitsAt, beq_iff_eq, hm, if_false, add_mul]
        rw [sgnMant_scale n m hz (hq n m e st List.mem_cons_self hm)]
    | nan => simp [sumAt, unitsAt]
    | inf n => simp [sumAt, unitsAt]

theorem any_xIsNan (p : List Xr) : p.any xIsNan = true ↔ .nan ∈ p := by
  rw [List.any_eq_true]
  constructor
  · rintro ⟨x, hx, h⟩
    cases x with
    | nan => exact hx
    | _ => cases h
  · exact fun h => ⟨_, h, rfl⟩

theorem any_xIsInf (p : List Xr) (n : Bool) : p.any (fun x => xIsInf x && (xNeg x == n)) = true ↔ .inf n ∈ p := by
  rw [List.any_eq_true]
  constructor
  · rintro ⟨x, hx, h⟩
    cases x with
    | inf k => simp [xIsInf, xNeg] at h; exact h ▸ hx
    | _ => simp [xIsInf] at h
  · exact fun h => ⟨_, h, by simp [xIsInf, xNeg]⟩

theorem negativeZeros_iff (p : List Xr) :
    (!p.isEmpty && p.all (fun x => xIsZero x && xNeg x)) = true ↔ p ≠ [] ∧ ∀ x ∈ p, ∃ e, x = .fin true 0 e false := by
  have h : ∀ x : Xr, (xIsZero x && xNeg x) = true ↔ ∃ e, x = .fin true 0 e false := by
    intro x
    cases x <;> simp [xIsZero, xNeg]
    tauto
  simp [List.all_eq_true, ← h]

/-- The group sum by its cases, the infinities as membership. -/
theorem groupSum_eq (p : List Xr) : groupSum p =
    if .nan ∈ p then (.nan, 0) else if .inf false ∈ p ∧ .inf true ∈ p then (.nan, fNV)
    else if .inf false ∈ p then (.inf false, 0) else if .inf true ∈ p then (.inf true, 0)
    else (ofSgn (sumAt (minExp p 2000) p) (minExp p 2000) (!p.isEmpty && p.all (fun x => xIsZero x && xNeg x)), 0) := by
  have hf : p.any (fun x => xIsInf x && !xNeg x) = true ↔ .inf false ∈ p := by simpa using any_xIsInf p false
  have ht : p.any (fun x => xIsInf x && xNeg x) = true ↔ .inf true ∈ p := by simpa using any_xIsInf p true
  simp only [groupSum, any_xIsNan, Bool.and_eq_true, hf, ht]

theorem groupSum_isGroupSum (p : List Xr) : IsGroupSum p (groupSum p) := by
  rw [groupSum_eq]
  refine ⟨fun h => by rw [if_pos h], fun h hf ht => by rw [if_neg h, if_pos ⟨hf, ht⟩], fun n h hn hk => ?_, fun h hi hfin => ?_⟩
  · cases n <;> simp_all
  · rw [if_neg h, if_neg fun hc => hi _ hc.1, if_neg (hi false), if_neg (hi true)]
    have hst := negativeZeros_iff p
    revert hst
    generalize (!p.isEmpty && p.all (fun x => xIsZero x && xNeg x)) = nz
    intro hst
    have hsum : ∀ z, z ≤ minExp p 2000 → (p.map (unitsAt z)).sum = sumAt (minExp p 2000) p * 2 ^ (minExp p 2000 - z).toNat :=
      fun z hz => sum_unitsAt hz fun n m e st hx hm => minExp_le p 2000 hx hm
    unfold ofSgn
    by_cases hv : sumAt (minExp p 2000) p = 0
    · refine ⟨nz, 0, 0, by simp [hv], fun z hz hfine => ?_, fun _ => hst⟩
      rw [hsum z (le_minExp (by omega) hfine), hv, zero_mul]
      exact sgnMant_zero ..
    · refine ⟨decide (sumAt (minExp p 2000) p < 0), (sumAt (minExp p 2000) p).natAbs, minExp p 2000,
        by simp only [beq_iff_eq, hv, if_false], fun z hz hfine => ?_, fun h0 => ?_⟩
      · rw [hsum z hz]
        generalize sumAt (minExp p 2000) p = v
        simp only [unitsAt, sgnMant, Int.natCast_natAbs, decide_eq_true_eq]
        rcases lt_or_ge v 0 with hneg | hpos
        · rw [if_pos hneg, abs_of_neg hneg, neg_mul, neg_neg]
        · rw [if_neg (by omega), abs_of_nonneg hpos]
      · exact absurd (Int.natAbs_eq_zero.1 h0) hv

/-! ### Sums, products and quotients before their rounding (R120) -/

theorem mem_pair {α : Type} {x y z : α} : z ∈ [x, y] ↔ z = x ∨ z = y := by simp

theorem xAdd_fin (rm : Rnd) (n k : Bool) (m m' : Nat) (e e' : Int) :
    ∃ i j q, xAdd rm (.fin n m e false) (.fin k m' e' false) = (.fin i j q false, 0)
      ∧ (∀ z, z ≤ e → z ≤ e' → z ≤ q → sgnMant i j q z = sgnMant n m e z + sgnMant k m' e' z)
      ∧ (j = 0 → n ≠ k → i = decide (rm = .rd)) := by
  obtain ⟨-, -, -, h⟩ := groupSum_isGroupSum [.fin n m e false, .fin k m' e' false]
  obtain ⟨i, j, q, hr, hsum, -⟩ := h (by simp) (by simp) ⟨min e e', by simp [fineFor]⟩
  have hz : ∀ z, z ≤ e → z ≤ e' → z ≤ q → sgnMant i j q z = sgnMant n m e z + sgnMant k m' e' z := by
    intro z h1 h2 h3
    simpa [unitsAt] using hsum z h3 (by simp [fineFor, h1, h2])
  simp only [xAdd, hr, xIsZero, xNeg, Bool.not_false, Bool.and_true, Bool.and_eq_true, beq_iff_eq, bne_iff_ne]
  by_cases hc : j = 0 ∧ n ≠ k
  · rw [if_pos hc]
    refine ⟨_, 0, 0, rfl, fun z h1 h2 h3 => ?_, fun _ _ => rfl⟩
    have hw := hz (min z q) (by omega) (by omega) (by omega)
    rw [hc.1, sgnMant_zero, sgnMant_scale n m (min_le_left z q) h1, sgnMant_scale k m' (min_le_left z q) h2, ← add_mul] at hw
    rw [sgnMant_zero]
    exact ((mul_eq_zero.1 hw.symm).resolve_right (by positivity)).symm
  · rw [if_neg hc]
    exact ⟨i, j, q, rfl, hz, fun h0 hk => absurd ⟨h0, hk⟩ hc⟩

theorem xDiv_fin {n k : Bool} {m m' : Nat} (e e' : Int) (hm : m ≠ 0) (hm' : m' ≠ 0) :
    ∃ j q st, xDiv (.fin n m e false) (.fin k m' e' false) = (.fin (n != k) j q st, 0) ∧ q ≤ e - e' ∧ 2 ^ 199 ≤ j
      ∧ j * m' ≤ m * 2 ^ (e - e' - q).toNat ∧ m * 2 ^ (e - e' - q).toNat < (j + 1) * m'
      ∧ (st = false ↔ j * m' = m * 2 ^ (e - e' - q).toNat) := by
  refine ⟨m * 2 ^ (workBits + Nat.log2 m') / m', e - e' - (workBits + Nat.log2 m' : Nat),
    m * 2 ^ (workBits + Nat.log2 m') % m' != 0, ?_, by omega, ?_, ?_⟩
  · simp [xDiv, hm, hm']
  · have hlt : m' < 2 ^ (Nat.log2 m' + 1) := Nat.lt_log2_self
    rw [Nat.le_div_iff_mul_le (Nat.pos_of_ne_zero hm')]
    calc 2 ^ 199 * m' ≤ 2 ^ 199 * 2 ^ (Nat.log2 m' + 1) := Nat.mul_le_mul_left _ hlt.le
      _ = 1 * 2 ^ (workBits + Nat.log2 m') := by rw [workBits, ← pow_add]; ring
      _ ≤ m * 2 ^ (workBits + Nat.log2 m') := Nat.mul_le_mul_right _ (Nat.pos_of_ne_zero hm)
  · rw [show (e - e' - (e - e' - (workBits + Nat.log2 m' : Nat))).toNat = workBits + Nat.log2 m' by omega]
    generalize m * 2 ^ (workBits + Nat.log2 m') = a
    have hd := Nat.div_add_mod a m'
    have hl := Nat.mod_lt a (Nat.pos_of_ne_zero hm')
    rw [Nat.mul_comm] at hd
    refine ⟨by omega, by rw [Nat.add_mul]; omega, ?_⟩
    simp only [bne_eq_false_iff_eq]
    omega

theorem xMul_nan {x y : Xr} (h : x = .nan ∨ y = .nan) : (xMul x y).1 = .nan := by
  rcases h with rfl | rfl
  · rfl
  · cases x <;> rfl

theorem xDiv_nan {x y : Xr} (h : x = .nan ∨ y = .nan) : (xDiv x y).1 = .nan := by
  rcases h with rfl | rfl
  · rfl
  · cases x <;> rfl

theorem xAdd_nan {rm : Rnd} {x y : Xr} (h : x = .nan ∨ y = .nan) : xAdd rm x y = (.nan, 0) := by
  have hs : groupSum [x, y] = (.nan, 0) := (groupSum_isGroupSum [x, y]).1 (by rcases h with rfl | rfl <;> simp)
  simp [xAdd, hs, xIsZero]

theorem xAdd_inf_inf (rm : Rnd) (n : Bool) : xAdd rm (.inf n) (.inf (!n)) = (.nan, fNV) := by
  have hs : groupSum [.inf n, .inf (!n)] = (.nan, fNV) :=
    (groupSum_isGroupSum _).2.1 (by simp) (by cases n <;> simp) (by cases n <;> simp)
  simp [xAdd, hs, xIsZero]

theorem fpBin_eq (f : Fmt) (rm : Rnd) (a b : Nat) (op : Rnd → Xr → Xr → Xr × FpFlags) :
    let r := op rm (decodeFmt f a) (decodeFmt f b)
    fpBin op f rm a b = ((conv r.1 f rm false).1, flagIf (isSnan f a || isSnan f b) fNV ||| r.2 ||| (conv r.1 f rm false).2) := by
  simp [fpBin, finish, snanFlag]

/-- The wide formats convert a NaN to their canonical one (R70). -/
theorem conv_nan_wide {w : FloatRow} (hw : w ∈ floatRows) (hf : w.f ∈ [Fmt.fp32, .bf16, .fp16]) (rm : Rnd) :
    (conv .nan w.f rm false).1 = w.nan := by
  simp only [floatRows, List.mem_cons, List.not_mem_nil, or_false] at hw
  rcases hw with rfl | rfl | rfl | rfl | rfl | rfl | rfl | rfl
  case inl | inr.inl | inr.inr.inl => rfl
  all_goals simp at hf

theorem fpBin_nan {w : FloatRow} (hw : w ∈ floatRows) (hf : w.f ∈ [Fmt.fp32, .bf16, .fp16])
    {op : Rnd → Xr → Xr → Xr × FpFlags} {rm : Rnd} {a b : Nat} (h : (op rm (decodeFmt w.f a) (decodeFmt w.f b)).1 = .nan) :
    (fpBin op w.f rm a b).1 = w.nan := by
  rw [fpBin_eq, h, conv_nan_wide hw hf]

/-! ### Vector forms -/

/-- A form of the lane's vector divider, which it leaves busy for later ones (R91). -/
theorem vectorResult_of_vecDivOp {i : Instr} {g : Guard} {w : Nat} {d : R6} {k : BitVec 3} {z : Bool}
    {f : Strand → Nat → Nat × FpFlags} (h : ∀ s, exec i s = vecDivOp i g w d k z f s) : VectorResult i g 12 w d k z f := by
  intro s t hr
  refine ⟨_, completes_of_laneOp (h s) hr, ?_, flagsLand_of_lateFlags (u := setV s.cycle 12 d
    (maskWrite w (getM t k) z (getV t d) fun j => (f t j).1) t) (by simp) (by simp) (by simp), ?_, ?_, ?_, ?_, ?_, ?_⟩
  · intro r
    exact (getV_congr (t := vecStrand s.cycle 12 w d k z f t) rfl r).trans (by simp [vecStrand, getV_setV])
  · intro r
    exact (getG_congr (t := vecStrand s.cycle 12 w d k z f t) rfl r).trans (by simp [vecStrand])
  · simp [vecStrand]
  · simp [SameP, vecStrand]
  · simp [SameC, vecStrand]
  · simp [SameSpot, vecStrand]
  · exact movedOn_advance (t := t) (u := lateFlags s.cycle 12 _ (setV s.cycle 12 d _ t)) (by simp) (by simp) (by simp)

theorem flagsLand_zero {n : Nat} {t u : Strand} (hf : u.flags = t.flags) (hr : u.rm = t.rm) (hl : u.late = t.late) :
    FlagsLand n 0 t u :=
  ⟨hf, hr, fun c => by simp [flagsAt_congr hf hl]⟩

/-- A form that writes one v register and raises no flag. -/
theorem writesV_of_setV {i : Instr} {g : Guard} {d : R6} {lat : Nat} {x : State → Strand → BitVec 1024}
    (h : ∀ s, exec i s = laneOp i g advance (fun t => advance (setV s.cycle lat d (x s t) t)) s) :
    WritesV i g lat d x (fun _ _ => 0) := by
  intro s t hr
  refine ⟨_, completes_of_laneOp (h s) hr, ?_, flagsLand_zero (by simp) (by simp) (by simp), ?_, ?_, ?_, ?_, ?_, ?_⟩
  · intro r; simp [getV_setV]
  · intro r; simp
  · simp
  · simp [SameP]
  · simp [SameC]
  · simp [SameSpot]
  · exact movedOn_advance (by simp) (by simp) (by simp)

/-- A form whose active elements take a value equal to `f`. -/
theorem vectorResult_value {i : Instr} {g : Guard} {lat w : Nat} {d : R6} {k : BitVec 3} {z : Bool}
    {f f' : Strand → Nat → Nat × FpFlags} (h : ∀ s, exec i s = vecOp i g lat w d k z f s) (hv : ∀ t j, f t j = f' t j) :
    VectorResult i g lat w d k z f' := by
  have hf : f = f' := funext fun t => funext (hv t)
  exact vectorResult_of_vecOp (hf ▸ h)

/-- A form that writes two masks, the second one over the first, and raises flags. -/
theorem masks_completes {i : Instr} {g : Guard} {lat : Nat} {d f : BitVec 3} {x y : Strand → Word} {fl : Strand → FpFlags} {s : State}
    {t : Strand} (h : exec i s = laneOp i g advance
      (fun t => advance (lateFlags s.cycle lat (fl t) (setM s.cycle lat f (y t) (setM s.cycle lat d (x t) t)))) s)
    (hr : Ready s t i g) :
    ∃ t', Completes i s t'
      ∧ (∀ q : BitVec 3, getM t' q = if q = 7 then BitVec.allOnes 64 else if q = f then y t else if q = d then x t else getM t q)
      ∧ FlagsLand (s.cycle + lat) (fl t) t t' ∧ t'.v = t.v ∧ SameG t t' ∧ SameP t t' ∧ SameC t t' ∧ SameSpot t t' ∧ MovedOn t t' := by
  refine ⟨_, completes_of_laneOp h hr, fun q => ?_, flagsLand_of_lateFlags (by simp) (by simp) (by simp), by simp, fun _ => by simp,
    by simp [SameP], by simp [SameC], by simp [SameSpot], movedOn_advance (by simp) (by simp) (by simp)⟩
  simp only [getM_advance, getM_lateFlags, getM_setM]
  by_cases h7 : q = 7
  · rw [h7, if_neg (by rintro ⟨h, h'⟩; exact h' h.symm), if_neg (by rintro ⟨h, h'⟩; exact h' h.symm), if_pos rfl, getM_seven]
  · have hf : (q = f ∧ f ≠ 7) ↔ q = f := ⟨And.left, fun h => ⟨h, h ▸ h7⟩⟩
    have hd : (q = d ∧ d ≠ 7) ↔ q = d := ⟨And.left, fun h => ⟨h, h ▸ h7⟩⟩
    simp only [hf, hd, h7, if_false]

/-- Settles O19. -/
theorem vectorFpResults : Obligations.VectorFpResults := by
  unfold Obligations.VectorFpResults
  refine ⟨fun g d a b c t rm k z gb => ?_, fun g d a t rm k z => ?_, fun g mt a b mf d t k gb cond s st => ⟨?_, ?_⟩,
    fun f rm a b op => fpBin_eq f rm a b op, fun w hw hf rm a b h => ⟨?_, ?_, ?_⟩, fun rm n k m m' e e' => ?_⟩
  · exact ⟨vectorResult_of_vecOp fun _ => rfl, vectorResult_of_vecOp fun _ => rfl, vectorResult_of_vecOp fun _ => rfl,
      vectorResult_of_vecDivOp fun _ => rfl, vectorResult_of_vecOp fun _ => rfl, vectorResult_of_vecOp fun _ => rfl,
      vectorResult_of_vecOp fun _ => rfl, vectorResult_of_vecOp fun _ => rfl, vectorResult_of_vecOp fun _ => rfl⟩
  · exact ⟨vectorResult_of_vecDivOp fun _ => rfl, vectorResult_of_vecOp fun _ => rfl, vectorResult_of_vecOp fun _ => rfl,
      vectorResult_of_vecOp fun _ => rfl, vectorResult_of_vecOp fun _ => rfl, vectorResult_of_vecOp fun _ => rfl,
      vectorResult_of_vecOp fun _ => rfl, vectorResult_of_vecOp fun _ => rfl, vectorResult_of_vecOp fun _ => rfl⟩
  · exact fun hr => masks_completes (by simp only [exec]; rfl) hr
  · exact writesV_of_setV fun _ => rfl
  · exact fpBin_nan hw hf (by rw [xAdd_nan h])
  · exact fpBin_nan hw hf (xMul_nan h)
  · exact fpBin_nan hw hf (xDiv_nan h)
  · refine ⟨xAdd_fin rm n k m m' e e', fun h => ?_, fun hm hm' => xDiv_fin e e' hm hm', rfl, rfl, xAdd_inf_inf rm n, rfl, rfl, fun h => ?_⟩
    · simp [xMul, Nat.mul_ne_zero_iff.1 h]
    · simp [xDiv, h]

/-! ### Integer elements -/

theorem elt_lt (w : Nat) (x : BitVec 1024) (i : Nat) : elt w x i < 2 ^ w := Nat.mod_lt _ (by positivity)

theorem bElt_lt (t : Strand) (gb : Bool) (w : Nat) (b : R6) (i : Nat) : bElt t gb w b i < 2 ^ w := by
  unfold bElt
  split
  · exact Nat.mod_lt _ (by positivity)
  · exact elt_lt ..

theorem wrapN_eq (w : Nat) (i : Int) : wrapN w i = (i.emod (2 ^ w)).toNat := rfl

theorem wrapN_lt (w : Nat) (i : Int) : wrapN w i < 2 ^ w := by
  have h := Int.emod_lt_of_pos i (show (0 : Int) < 2 ^ w by positivity)
  rw [wrapN, Int.toNat_lt (Int.emod_nonneg _ (by positivity))]
  exact_mod_cast h

theorem wrapN_mod (w : Nat) (i : Int) : wrapN w i % 2 ^ w = wrapN w i := Nat.mod_eq_of_lt (wrapN_lt w i)

theorem wrapN_natCast (w n : Nat) : wrapN w (n : Int) = n % 2 ^ w := by
  rw [wrapN, ← Nat.cast_ofNat, ← Nat.cast_pow, ← Int.natCast_mod, Int.toNat_natCast]

theorem sub_mod_eq_wrapN {w x y : Nat} (hy : y < 2 ^ w) : (x + (2 ^ w - y)) % 2 ^ w = wrapN w ((x : Int) - y) := by
  rw [← wrapN_natCast, wrapN, wrapN, Nat.cast_add, Nat.cast_sub hy.le, Nat.cast_pow, Nat.cast_ofNat,
    show (x : Int) + (2 ^ w - y) = x - y + 2 ^ w by ring, Int.add_emod_right]

theorem eltInt_eq (u : Bool) (w n : Nat) : eltInt u w n = if u then ((n % 2 ^ w : Nat) : Int) else sextN w n := by
  cases u <;> simp [eltInt]

theorem viAddSat_eq (u : Bool) (w a b : Nat) :
    let sum := eltInt u w a + eltInt u w b
    let lo : Int := if u then 0 else -2 ^ (w - 1)
    let hi : Int := if u then 2 ^ w - 1 else 2 ^ (w - 1) - 1
    viAddSat u w a b = (wrapN w (if hi < sum then hi else if sum < lo then lo else sum), if hi < sum ∨ sum < lo then fSAT else 0) := by
  intro sum lo hi
  change (if hi < sum then _ else if sum < lo then _ else _) = _
  by_cases h : hi < sum
  · simp only [h, if_true, true_or]; rfl
  · by_cases h' : sum < lo
    · simp only [h, h', if_true, if_false, or_true]; rfl
    · simp only [h, h', if_false, or_self]; rfl

/-- Settles O20. -/
theorem vectorIntResults : Obligations.VectorIntResults := by
  unfold Obligations.VectorIntResults
  refine ⟨fun g d a b t k z gb => ?_, fun g d a b t k z u gb => ?_⟩
  · refine ⟨vectorResult_of_vecOp fun _ => rfl, vectorResult_value (fun _ => rfl) fun st j => ?_, vectorResult_of_vecOp fun _ => rfl,
      vectorResult_of_vecOp fun _ => rfl, vectorResult_of_vecOp fun _ => rfl, vectorResult_value (fun _ => rfl) fun st j => ?_,
      vectorResult_of_vecOp fun _ => rfl, vectorResult_of_vecOp fun _ => rfl, vectorResult_of_vecOp fun _ => rfl,
      vectorResult_value (fun _ => rfl) fun st j => ?_⟩
    · exact congrArg (·, 0) (sub_mod_eq_wrapN (bElt_lt ..))
    · refine congrArg (·, 0) ((wrapN_mod ..).trans ?_)
      rw [Nat.cast_pow]
      rfl
    · exact congrArg (·, 0) (wrapN_natCast ..)
  · simp only [← eltInt_eq]
    exact ⟨vectorResult_value (fun _ => rfl) fun st j => congrArg (·, 0) (wrapN_mod ..), vectorResult_of_vecOp fun _ => rfl,
      vectorResult_of_vecOp fun _ => rfl, vectorResult_value (fun _ => rfl) fun st j => viAddSat_eq ..⟩

/-! ### Masks and permutes -/

/-- A rotation by the model's index is one modulo the number of elements. -/
theorem rotate_index (j n x : Nat) (hn : 0 < n) : (j + (n - x % n)) % n = (((j : Int) - x).emod n).toNat := by
  have hx := Nat.mod_lt x hn
  have h : ((j + (n - x % n) : Nat) : Int) = j - (x : Int) % n + n := by
    rw [Nat.cast_add, Nat.cast_sub hx.le, Int.natCast_mod]
    ring
  rw [← Int.toNat_natCast ((j + (n - x % n)) % n), Int.natCast_mod, h, Int.add_emod_right, Int.sub_emod, Int.emod_emod, ← Int.sub_emod]
  rfl

theorem typeW_mem (t : BitVec 3) : typeW t ∈ [8, 16, 32, 64] := by
  revert t; decide

theorem shufElt_eq (pat : BitVec 4) (w : Nat) (a b : BitVec 1024) (i : Nat) :
    let n := 1024 / w
    let x := elt w a
    let y := elt w b
    shufElt pat w a b i = (if pat = 0 then (if i % 2 = 0 then x (i / 2) else y (i / 2))
      else if pat = 1 then (if i % 2 = 0 then x (n / 2 + i / 2) else y (n / 2 + i / 2))
      else if pat = 2 then (if i < n / 2 then x (2 * i) else y (2 * (i - n / 2)))
      else if pat = 3 then (if i < n / 2 then x (2 * i + 1) else y (2 * (i - n / 2) + 1))
      else if pat = 4 then x (n - 1 - i)
      else x (if i % 2 = 0 then i + 1 else i - 1)) := by
  intro n x y
  rcases pat with ⟨p⟩
  fin_cases p <;> rfl

/-- Settles O21. -/
theorem permuteResults : Obligations.PermuteResults := by
  unfold Obligations.PermuteResults
  refine ⟨fun g d a b t => ?_, fun g d a b t k z u pat => ?_⟩
  · refine ⟨writesM_of_laneOp fun _ => rfl, writesM_of_laneOp fun _ => rfl, writesM_of_laneOp fun _ => rfl,
      writesM_of_laneOp fun _ => rfl, writesG_value (fun _ => rfl) fun s st => ?_, writesG_of_aluOp fun _ => rfl⟩
    rw [List.countP_eq_length_filter]
    rfl
  · refine ⟨vectorResult_of_vecOp fun _ => rfl, vectorResult_value (fun _ => rfl) fun st j => ?_, vectorResult_of_vecOp fun _ => rfl,
      vectorResult_value (fun _ => rfl) fun st j => congrArg (·, 0) (shufElt_eq ..), writesG_of_aluOp fun _ => rfl,
      writesV_of_setV fun _ => rfl⟩
    have hn : 0 < numElts (typeW t) := by
      have := typeW_mem t
      simp only [List.mem_cons, List.not_mem_nil, or_false] at this
      rcases this with h | h | h | h <;> rw [h] <;> decide
    exact congrArg (fun i => (elt (typeW t) (getV st a) i, 0)) (rotate_index j _ _ hn)

/-! ### Reductions -/

theorem foldl_mem {α : Type} {f : α → α → α} (hf : ∀ a b, f a b = a ∨ f a b = b) (l : List α) (s : α) : l.foldl f s ∈ s :: l := by
  induction l generalizing s with
  | nil => exact List.mem_cons_self
  | cons x l ih =>
    have h := ih (f s x)
    rw [List.foldl_cons]
    rcases hf s x with e | e <;> rw [e] at h ⊢ <;> rcases List.mem_cons.1 h with h | h <;> simp [h]

/-- A fold that takes the better of two by `k` ends at least as good as its start and every element. -/
theorem foldl_best {α : Type} {f : α → α → α} {k : α → Int} (hf : ∀ a b, k a ≤ k (f a b) ∧ k b ≤ k (f a b)) (l : List α) (s : α) :
    k s ≤ k (l.foldl f s) ∧ ∀ x ∈ l, k x ≤ k (l.foldl f s) := by
  induction l generalizing s with
  | nil => exact ⟨le_refl _, fun x hx => by cases hx⟩
  | cons x l ih =>
    obtain ⟨h1, h2⟩ := ih (f s x)
    refine ⟨(hf s x).1.trans h1, fun y hy => ?_⟩
    rcases List.mem_cons.1 hy with rfl | hy
    · exact (hf s y).2.trans h1
    · exact h2 y hy

theorem viMax_mem (u : Bool) (w a b : Nat) : viMax u w a b = a ∨ viMax u w a b = b := by
  unfold viMax; split <;> simp

theorem viMin_mem (u : Bool) (w a b : Nat) : viMin u w a b = a ∨ viMin u w a b = b := by
  unfold viMin; split <;> simp

theorem viMax_best (u : Bool) (w a b : Nat) :
    eltInt u w a ≤ eltInt u w (viMax u w a b) ∧ eltInt u w b ≤ eltInt u w (viMax u w a b) := by
  unfold viMax; split <;> constructor <;> omega

theorem viMin_best (u : Bool) (w a b : Nat) :
    -eltInt u w a ≤ -eltInt u w (viMin u w a b) ∧ -eltInt u w b ≤ -eltInt u w (viMin u w a b) := by
  unfold viMin; split <;> constructor <;> omega

theorem sextN_ge {w : Nat} (hw : 0 < w) (x : Nat) : sextN w (2 ^ (w - 1)) ≤ sextN w x := by
  obtain ⟨v, rfl⟩ : ∃ v, w = v + 1 := ⟨w - 1, by omega⟩
  have hp : 2 ^ (v + 1) = 2 * 2 ^ v := by rw [pow_succ]; ring
  have h0 : 0 < 2 ^ v := by positivity
  have hx := Nat.mod_lt x (show 0 < 2 ^ (v + 1) by positivity)
  have hm : 2 ^ v % 2 ^ (v + 1) = 2 ^ v := Nat.mod_eq_of_lt (by omega)
  have hpi : (2 : Int) ^ (v + 1) = 2 * 2 ^ v := by rw [pow_succ]; ring
  simp only [sextN, Nat.add_sub_cancel, hm, le_refl, if_true]
  zify at *
  split <;> omega

theorem sextN_le {w : Nat} (hw : 0 < w) {x : Nat} (hx : x < 2 ^ w) :
    sextN w x ≤ sextN w (2 ^ (w - 1) - 1) ∧ (sextN w (2 ^ (w - 1) - 1) ≤ sextN w x → x = 2 ^ (w - 1) - 1) := by
  obtain ⟨v, rfl⟩ : ∃ v, w = v + 1 := ⟨w - 1, by omega⟩
  have hp : 2 ^ (v + 1) = 2 * 2 ^ v := by rw [pow_succ]; ring
  have h0 : 0 < 2 ^ v := by positivity
  have hm : (2 ^ v - 1) % 2 ^ (v + 1) = 2 ^ v - 1 := Nat.mod_eq_of_lt (by omega)
  have hpi : (2 : Int) ^ (v + 1) = 2 * 2 ^ v := by rw [pow_succ]; ring
  have hc : ((2 ^ v - 1 : Nat) : Int) = 2 ^ v - 1 := by rw [Nat.cast_sub (by omega)]; push_cast; ring
  simp only [sextN, Nat.add_sub_cancel, hm, Nat.mod_eq_of_lt hx, show ¬ 2 ^ v ≤ 2 ^ v - 1 by omega, if_false]
  zify at *
  split <;> constructor <;> omega


/-- The greatest element of a list, none counting as the least value (R134). -/
theorem viMax_foldl {w : Nat} (hw : 0 < w) (l : List Nat) :
    let r := l.foldl (viMax false w) (2 ^ (w - 1))
    r ∈ 2 ^ (w - 1) :: l ∧ (l ≠ [] → r ∈ l) ∧ ∀ x ∈ l, sextN w x ≤ sextN w r := by
  refine ⟨foldl_mem (viMax_mem false w) l _, fun hl => ?_, (foldl_best (k := sextN w) (viMax_best false w) l _).2⟩
  obtain ⟨x, l, rfl⟩ := List.exists_cons_of_ne_nil hl
  have hx : viMax false w (2 ^ (w - 1)) x = x := if_pos (sextN_ge hw x)
  rw [List.foldl_cons, hx]
  exact foldl_mem (viMax_mem false w) l x

/-- The least element of a list, none counting as the greatest value (R134). -/
theorem viMin_foldl {w : Nat} (hw : 0 < w) (l : List Nat) :
    let r := l.foldl (viMin false w) (2 ^ (w - 1) - 1)
    r ∈ (2 ^ (w - 1) - 1) :: l ∧ (l ≠ [] → (∀ x ∈ l, x < 2 ^ w) → r ∈ l) ∧ ∀ x ∈ l, sextN w r ≤ sextN w x := by
  obtain ⟨-, hbest⟩ := foldl_best (k := fun x => -sextN w x) (viMin_best false w) l (2 ^ (w - 1) - 1)
  have hle : ∀ x ∈ l, sextN w (l.foldl (viMin false w) (2 ^ (w - 1) - 1)) ≤ sextN w x := fun x hx => by
    have := hbest x hx
    omega
  refine ⟨foldl_mem (viMin_mem false w) l _, fun hl hlt => ?_, hle⟩
  rcases List.mem_cons.1 (foldl_mem (viMin_mem false w) l (2 ^ (w - 1) - 1)) with h | h
  · obtain ⟨x, hx⟩ := List.exists_mem_of_ne_nil l hl
    have h2 := hle x hx
    rw [h] at h2 ⊢
    exact (sextN_le hw (hlt x hx)).2 h2 ▸ hx
  · exact h

theorem viMax_foldl_unsigned (w : Nat) (l : List Nat) :
    let r := l.foldl (viMax true w) 0
    r ∈ 0 :: l ∧ ∀ x ∈ l, x % 2 ^ w ≤ r % 2 ^ w := by
  refine ⟨foldl_mem (viMax_mem true w) l _, fun x hx => ?_⟩
  have h := (foldl_best (k := eltInt true w) (viMax_best true w) l 0).2 x hx
  simpa only [eltInt, if_true, Nat.cast_le] using h

theorem viMin_foldl_unsigned (w : Nat) (l : List Nat) :
    let r := l.foldl (viMin true w) (2 ^ w - 1)
    r ∈ (2 ^ w - 1) :: l ∧ ∀ x ∈ l, r % 2 ^ w ≤ x % 2 ^ w := by
  refine ⟨foldl_mem (viMin_mem true w) l _, fun x hx => ?_⟩
  have h := (foldl_best (k := fun x => -eltInt true w x) (viMin_best true w) l (2 ^ w - 1)).2 x hx
  simpa only [eltInt, if_true, neg_le_neg_iff, Nat.cast_le] using h

theorem foldl_add_mod (n : Nat) (l : List Nat) (s : Nat) : l.foldl (fun acc x => (acc + x) % n) (s % n) = (s + l.sum) % n := by
  induction l generalizing s with
  | nil => simp
  | cons x l ih => rw [List.foldl_cons, Nat.mod_add_mod, ih, List.sum_cons, Nat.add_assoc]

/-- What each integer reduction gives, by its code (R134). -/
theorem viReduce_codes {w : Nat} (hw : 0 < w) (l : List Nat) (op : BitVec 4) :
    let r := viReduce op w l
    (op = 0 → r = l.sum % 2 ^ w)
      ∧ (op = 1 → r ∈ 2 ^ (w - 1) :: l ∧ (l ≠ [] → (∀ x ∈ l, x < 2 ^ w) → r ∈ l) ∧ ∀ x ∈ l, sextN w x ≤ sextN w r)
      ∧ (op = 2 → r ∈ (2 ^ (w - 1) - 1) :: l ∧ (l ≠ [] → (∀ x ∈ l, x < 2 ^ w) → r ∈ l) ∧ ∀ x ∈ l, sextN w r ≤ sextN w x)
      ∧ (op = 3 → r ∈ 0 :: l ∧ ∀ x ∈ l, x % 2 ^ w ≤ r % 2 ^ w) ∧ (op = 4 → r ∈ (2 ^ w - 1) :: l ∧ ∀ x ∈ l, r % 2 ^ w ≤ x % 2 ^ w)
      ∧ (op = 5 → r = l.foldl (· &&& ·) (2 ^ w - 1)) ∧ (op = 6 → r = l.foldl (· ||| ·) 0) ∧ (op = 7 → r = l.foldl (· ^^^ ·) 0) := by
  refine ⟨?_, ?_, ?_, ?_, ?_, ?_, ?_, ?_⟩ <;> rintro rfl
  · have h := foldl_add_mod (2 ^ w) l 0
    rwa [Nat.zero_mod, Nat.zero_add] at h
  · obtain ⟨h1, h2, h3⟩ := viMax_foldl hw l
    exact ⟨h1, fun h _ => h2 h, h3⟩
  · exact viMin_foldl hw l
  · exact viMax_foldl_unsigned w l
  · exact viMin_foldl_unsigned w l
  all_goals rfl

theorem dotElt_bytes (u : Bool) (rm : Rnd) (a b c : BitVec 1024) (j : Nat) :
    let val := fun x : Nat => if u then (x : Int) else sextN 8 x
    dotElt 0 u rm a b c j = ((((elt 32 c j : Int) + val (elt 8 a (4 * j)) * val (elt 8 b (4 * j))
      + val (elt 8 a (4 * j + 1)) * val (elt 8 b (4 * j + 1)) + val (elt 8 a (4 * j + 2)) * val (elt 8 b (4 * j + 2))
      + val (elt 8 a (4 * j + 3)) * val (elt 8 b (4 * j + 3))).emod (2 ^ 32)).toNat, 0) := by
  have hv : ∀ (x : BitVec 1024) (i : Nat), eltInt u 8 (elt 8 x i) = if u then (elt 8 x i : Int) else sextN 8 (elt 8 x i) :=
    fun x i => by rw [eltInt_eq, Nat.mod_eq_of_lt (elt_lt ..)]
  simp only [← hv]
  rfl

/-- Settles O22. -/
theorem reduceResults : Obligations.ReduceResults := by
  unfold Obligations.ReduceResults
  refine ⟨fun g d a b c t rm k z u op => ⟨writesGF_of_laneOp fun _ => rfl, vectorResult_of_vecOp fun _ => rfl,
    vectorResult_of_vecOp fun _ => rfl⟩, groupSum_isGroupSum, fun t rm op l ht => ?_, fun t rm op l ht ho => ?_,
    fun t u rm a b c j => ⟨?_, ?_⟩⟩
  · simp only [reduceElts, ht, if_true]
    refine ⟨fun h => if_pos h, fun h hn => ?_, fun h hn => ?_⟩
    · obtain ⟨x, hx, hd⟩ := hn
      rw [if_neg h]
      exact if_pos (List.any_eq_true.2 ⟨x, hx, by rw [hd]; rfl⟩)
    · rw [if_neg h]
      refine (if_neg ?_).trans ?_
      · rw [List.any_eq_true]
        rintro ⟨x, hx, hd⟩
        refine hn x hx ?_
        cases hc : decodeFmt (fmtOfT t) x with
        | nan => rfl
        | _ => rw [hc] at hd; cases hd
      · by_cases h1 : op = 1
        · simp only [h1, decide_true, if_true, Nat.add_comm, snanFlag]
        · simp only [h1, decide_false, if_false, Nat.add_zero, snanFlag, Bool.false_eq_true]
  · have hw : 0 < typeW t := by
      have := typeW_mem t
      simp only [List.mem_cons, List.not_mem_nil, or_false] at this
      omega
    simp only [reduceElts, ht]
    exact ⟨rfl, viReduce_codes hw l op⟩
  · rintro rfl
    exact dotElt_bytes u rm a b c j
  · rintro (rfl | rfl) <;> rfl

end Sys2Proof.Machine
end

section
/-! SUPPORT. Conversions: rounding, the formats' encodings, scaled and packed elements, random bits (spec/03 R69-R88; spec/05 R136-R142). -/

namespace Sys2Proof.Machine

/-! ### Rounding (R78, R79) -/

theorem roundMag_isRounded (rm : Rnd) (neg : Bool) (m : Nat) (e q : Int) : IsRounded rm neg m e q (roundMag rm neg m e q false) := by
  unfold IsRounded
  intro d
  rcases le_or_gt q e with hq | hq
  · refine ⟨fun _ => by simp [roundMag, splitAt, hq], fun h => by omega, fun h => by omega⟩
  · have hn : ¬ q ≤ e := by omega
    refine ⟨fun h => absurd h hn, fun _ h0 => ?_, fun _ h0 => ?_⟩
    · simp only [roundMag, splitAt, hn, if_false, Bool.not_false, Bool.and_true]
      rw [if_pos (by simpa using h0)]
    · have hd : d = 2 ^ (q - e).toNat := rfl
      have hb : (m % d == 0) = false := by simpa using h0
      simp only [roundMag, splitAt, hn, if_false, Bool.not_false, Bool.and_true, ← hd, hb, Bool.false_eq_true]
      have hlt := Nat.mod_lt m (show 0 < d by positivity)
      refine ⟨trivial, ?_, ?_, ?_, ?_, ?_⟩
      · rintro rfl; rfl
      · rintro rfl; cases neg <;> rfl
      · rintro rfl; cases neg <;> rfl
      · rintro rfl
        refine ⟨fun h => ?_, fun h => ?_, fun h => ?_⟩
        · simp [h]
        · have h1 : ¬ 2 * (m % d) < d := by omega
          have h2 : ¬ 2 * (m % d) = d := by omega
          simp [h1, h2]
        · have h1 : ¬ 2 * (m % d) < d := by omega
          rcases Nat.mod_two_eq_zero_or_one (m / d) with h2 | h2
          · simp [h, h2]
          · simp [h, h2]; omega
      · intro x hx
        subst hx
        simp

/-! ### Conversion to a floating format (R69-R71, R80, R81, R84) -/

/-- What a row says of its format. -/
structure RowOf (w : FloatRow) : Prop where
  float : isIntFmt w.f = false
  mant : mantOf w.f = w.mw
  exp : expOf w.f = w.ew
  bias : biasOf w.f = w.bias
  maxMag : maxMag w.f = (w.maxMant, w.maxExp)
  maxCode : maxCode w.f = w.maxCode
  inf : hasInf w.f = decide (w.f ∈ ieeeFmts)
  nan : w.f ∉ plainFmts → nanCode w.f = w.nan
  plain : w.f ∈ plainFmts ↔ w.f ∉ ieeeFmts ∧ w.f ≠ .e4m3
  ew_pos : 0 < w.ew
  /-- MAX is a normal number, whose exponent field is the last that holds numbers. -/
  max_normal : 2 ^ w.mw ≤ w.maxMant ∧ w.maxMant < 2 ^ (w.mw + 1)
  max_field : w.maxExp + w.bias + w.mw = if w.f ∈ ieeeFmts then 2 ^ w.ew - 2 else 2 ^ w.ew - 1
  e4m3 : w.f = .e4m3 → w.ew = 4 ∧ w.mw = 3 ∧ w.maxMant = 14 ∧ w.nan = 0x7F

theorem rowOf {w : FloatRow} (hw : w ∈ floatRows) : RowOf w := by
  simp only [floatRows, List.mem_cons, List.not_mem_nil, or_false] at hw
  rcases hw with rfl | rfl | rfl | rfl | rfl | rfl | rfl | rfl <;> constructor <;> decide

theorem decodeFmt_row {w : FloatRow} (hw : w ∈ floatRows) (x : Nat) :
    decodeFmt w.f x =
      let m := x % 2 ^ w.mw
      let e := x / 2 ^ w.mw % 2 ^ w.ew
      let neg := decide (x / 2 ^ (w.mw + w.ew) % 2 = 1)
      if w.f ∈ ieeeFmts ∧ e = 2 ^ w.ew - 1 then (if m = 0 then .inf neg else .nan)
      else if w.f = .e4m3 ∧ e = 15 ∧ m = 7 then .nan
      else if e = 0 then (if w.f = .bf16 then .fin neg 0 0 false else .fin neg m (1 - (w.bias : Int) - w.mw) false)
      else .fin neg (m + 2 ^ w.mw) ((e : Int) - w.bias - w.mw) false := by
  simp only [floatRows, List.mem_cons, List.not_mem_nil, or_false] at hw
  rcases hw with rfl | rfl | rfl | rfl | rfl | rfl | rfl | rfl <;>
    simp [decodeFmt, hasInf, mantOf, expOf, biasOf, ieeeFmts, and_assoc] <;> rfl

/-- `magGt` compares the values. -/
theorem magGt_iff (a b : Nat) (ea eb : Int) : magGt a ea b eb = true ↔ (b : ℚ) * 2 ^ eb < a * 2 ^ ea := by
  have key : ∀ {x y : Int} (k l : Nat), x ≤ y → ((k : ℚ) * 2 ^ y < l * 2 ^ x ↔ k * 2 ^ (y - x).toNat < l) := by
    intro x y k l h
    have hy : (2 : ℚ) ^ y = 2 ^ (y - x).toNat * 2 ^ x := by
      rw [← zpow_natCast, Int.toNat_of_nonneg (by omega), ← zpow_add₀ (by norm_num), sub_add_cancel]
    rw [hy, ← mul_assoc, mul_lt_mul_iff_left₀ (by positivity)]
    exact_mod_cast Iff.rfl
  have key' : ∀ {x y : Int} (k l : Nat), x ≤ y → ((k : ℚ) * 2 ^ x < l * 2 ^ y ↔ k < l * 2 ^ (y - x).toNat) := by
    intro x y k l h
    have hy : (2 : ℚ) ^ y = 2 ^ (y - x).toNat * 2 ^ x := by
      rw [← zpow_natCast, Int.toNat_of_nonneg (by omega), ← zpow_add₀ (by norm_num), sub_add_cancel]
    rw [hy, ← mul_assoc, mul_lt_mul_iff_left₀ (by positivity)]
    exact_mod_cast Iff.rfl
  unfold magGt
  split
  next h => rw [decide_eq_true_iff, key b a h]
  next h => rw [decide_eq_true_iff, key' b a (by omega)]

theorem not_magGt_iff (a b : Nat) (ea eb : Int) : magGt a ea b eb = false ↔ (a : ℚ) * 2 ^ ea ≤ b * 2 ^ eb := by
  rw [← not_lt, ← magGt_iff, Bool.not_eq_true]

/-- Rounding takes one of the two neighbours. -/
theorem roundMag_neighbour (rm : Rnd) (neg : Bool) (m : Nat) (e q : Int) (st : Bool) :
    (splitAt m e q st).1 ≤ (roundMag rm neg m e q st).1 ∧ (roundMag rm neg m e q st).1 ≤ (splitAt m e q st).1 + 1 := by
  have h : ∀ (b : Bool) (n : Nat), n ≤ (if b then n + 1 else n) ∧ (if b then n + 1 else n) ≤ n + 1 := by
    intro b n; cases b <;> simp
  unfold roundMag
  obtain ⟨lo, exact', cmp⟩ := splitAt m e q st
  cases exact'
  · exact h _ lo
  · simp

/-- What is rounded at `q` or below has at most `p + 1` bits when `q` is not below the last place of `p + 1` bits. -/
theorem roundMag_le {rm : Rnd} {neg : Bool} {m : Nat} {e q : Int} {p : Nat} (hq : lastPlace m e p ≤ q) :
    (roundMag rm neg m e q false).1 ≤ 2 ^ (p + 1) := by
  have hm : m < 2 ^ (Nat.log2 m + 1) := Nat.lt_log2_self
  have hlo : (splitAt m e q false).1 < 2 ^ (p + 1) := by
    unfold lastPlace at hq
    unfold splitAt
    split
    · refine lt_of_lt_of_le (Nat.mul_lt_mul_of_pos_right hm (by positivity)) ?_
      rw [← pow_add]
      exact Nat.pow_le_pow_right (by omega) (by omega)
    · refine Nat.div_lt_of_lt_mul (lt_of_lt_of_le hm ?_)
      rw [← pow_add]
      exact Nat.pow_le_pow_right (by omega) (by omega)
  have h := (roundMag_neighbour rm neg m e q false).2
  omega

/-- At its last place a non-zero magnitude has `p + 1` bits. -/
theorem le_roundMag {rm : Rnd} {neg : Bool} {m : Nat} (hm : m ≠ 0) {e q : Int} {p : Nat} (hq : q = lastPlace m e p) :
    2 ^ p ≤ (roundMag rm neg m e q false).1 := by
  have hm : 2 ^ Nat.log2 m ≤ m := Nat.log2_self_le hm
  have hlo : 2 ^ p ≤ (splitAt m e q false).1 := by
    unfold lastPlace at hq
    unfold splitAt
    split
    · refine le_trans ?_ (Nat.mul_le_mul_right _ hm)
      rw [← pow_add]
      exact Nat.pow_le_pow_right (by omega) (by omega)
    · rw [Nat.le_div_iff_mul_le (by positivity), ← pow_add]
      exact le_trans (Nat.pow_le_pow_right (by omega) (by omega)) hm
  exact hlo.trans (roundMag_neighbour rm neg m e q false).1

/-- The encoding of r × 2^q, for r below 2^(p+1), without its sign. -/
def codeAt (w : FloatRow) (r : Nat) (q : Int) : Nat :=
  if r < 2 ^ w.mw then r else ((q - (1 - (w.bias : Int) - w.mw)).toNat + 1) * 2 ^ w.mw + (r - 2 ^ w.mw)

/-- A normal number that is not above MAX has an exponent field below the one of the specials. -/
theorem field_le {w : FloatRow} (hw : w ∈ floatRows) {r : Nat} {q : Int} (hn : 2 ^ w.mw ≤ r)
    (hbig : magGt r q w.maxMant w.maxExp = false) : q ≤ w.maxExp ∧ (q = w.maxExp → r ≤ w.maxMant) := by
  obtain ⟨-, hmax⟩ := (rowOf hw).max_normal
  rw [not_magGt_iff] at hbig
  have h2 : (0 : ℚ) < 2 ^ q := by positivity
  constructor
  · by_contra hc
    have h1 : (2 : ℚ) ^ w.mw * 2 ^ q ≤ r * 2 ^ q := mul_le_mul_of_nonneg_right (by exact_mod_cast hn) h2.le
    have h3 : (w.maxMant : ℚ) * 2 ^ w.maxExp < 2 ^ (w.mw + 1) * 2 ^ w.maxExp :=
      mul_lt_mul_of_pos_right (by exact_mod_cast hmax) (by positivity)
    have h4 := lt_of_le_of_lt (h1.trans hbig) h3
    rw [← zpow_natCast, ← zpow_natCast, ← zpow_add₀ (by norm_num), ← zpow_add₀ (by norm_num),
      zpow_lt_zpow_iff_right₀ (by norm_num)] at h4
    push_cast at h4
    omega
  · rintro rfl
    exact_mod_cast le_of_mul_le_mul_right hbig h2

theorem codeAt_lt {w : FloatRow} (hw : w ∈ floatRows) {r : Nat} {q : Int} (hq : 1 - (w.bias : Int) - w.mw ≤ q)
    (hr : r < 2 ^ (w.mw + 1)) (hbig : magGt r q w.maxMant w.maxExp = false) : codeAt w r q < 2 ^ (w.ew + w.mw) := by
  have hrow := rowOf hw
  have hew := hrow.ew_pos
  have he : 2 ^ w.mw ≤ 2 ^ (w.ew + w.mw) := Nat.pow_le_pow_right (by omega) (by omega)
  unfold codeAt
  split
  · omega
  next h =>
    have hq' := (field_le hw (not_lt.1 h) hbig).1
    have hf := hrow.max_field
    have hE : (q - (1 - (w.bias : Int) - w.mw)).toNat + 2 ≤ 2 ^ w.ew := by
      have : (1 : Int) ≤ 2 ^ w.ew := by exact_mod_cast Nat.one_le_two_pow
      zify
      split at hf <;> omega
    rw [pow_add]
    have h2 : 2 ^ (w.mw + 1) = 2 * 2 ^ w.mw := by ring
    calc _ < ((q - (1 - (w.bias : Int) - w.mw)).toNat + 1) * 2 ^ w.mw + 2 ^ w.mw := by omega
      _ = ((q - (1 - (w.bias : Int) - w.mw)).toNat + 2) * 2 ^ w.mw := by ring
      _ ≤ _ := Nat.mul_le_mul_right _ hE

/-- An encoding in range decodes to what it was made for. -/
theorem decode_codeAt {w : FloatRow} (hw : w ∈ floatRows) (neg : Bool) {r : Nat} {q : Int} (hq : 1 - (w.bias : Int) - w.mw ≤ q)
    (hr : r < 2 ^ (w.mw + 1)) (hn : 2 ^ w.mw ≤ r ∨ (q = 1 - (w.bias : Int) - w.mw ∧ w.f ≠ .bf16))
    (hbig : magGt r q w.maxMant w.maxExp = false) :
    decodeFmt w.f ((if neg then 2 ^ (w.ew + w.mw) else 0) + codeAt w r q) = .fin neg r q false := by
  have hrow := rowOf hw
  have hew := hrow.ew_pos
  have hlt := codeAt_lt hw hq hr hbig
  have h2 : 2 ^ (w.mw + 1) = 2 * 2 ^ w.mw := by ring
  have hp : 2 ^ (w.ew + w.mw) = 2 ^ w.ew * 2 ^ w.mw := by rw [pow_add]
  -- the fields of the encoding
  have hs : ∀ y, ((if neg then 2 ^ (w.ew + w.mw) else 0) + y) % 2 ^ w.mw = y % 2 ^ w.mw := by
    intro y; cases neg <;> simp [hp]
  have hx : ((if neg then 2 ^ (w.ew + w.mw) else 0) + codeAt w r q) / 2 ^ w.mw % 2 ^ w.ew = codeAt w r q / 2 ^ w.mw := by
    have hc : codeAt w r q / 2 ^ w.mw < 2 ^ w.ew := Nat.div_lt_of_lt_mul (by rw [Nat.mul_comm, ← hp]; exact hlt)
    cases neg
    · simp [Nat.mod_eq_of_lt hc]
    · rw [if_pos rfl, hp, Nat.mul_comm, Nat.mul_add_div (by positivity), Nat.add_mod_left, Nat.mod_eq_of_lt hc]
  have hneg : decide (((if neg then 2 ^ (w.ew + w.mw) else 0) + codeAt w r q) / 2 ^ (w.mw + w.ew) % 2 = 1) = neg := by
    rw [Nat.add_comm w.mw w.ew]
    cases neg
    · simp [Nat.div_eq_of_lt hlt]
    · rw [if_pos rfl, Nat.add_div_of_dvd_right (dvd_refl _), Nat.div_self (by positivity), Nat.div_eq_of_lt hlt]
      rfl
  rw [decodeFmt_row hw]
  simp only [hs, hx, hneg]
  unfold codeAt
  split
  next hsub =>
    obtain ⟨rfl, hbf⟩ := hn.resolve_left (by omega)
    have h1 : ¬ (0 = 2 ^ w.ew - 1) := by
      have : 2 ^ 1 ≤ 2 ^ w.ew := Nat.pow_le_pow_right (by omega) hew
      omega
    simp [Nat.mod_eq_of_lt hsub, Nat.div_eq_of_lt hsub, h1, hbf]
  next hnorm =>
    obtain ⟨hle, hmax⟩ := field_le hw (not_lt.1 hnorm) hbig
    have hf := hrow.max_field
    generalize hE : (q - (1 - (w.bias : Int) - w.mw)).toNat = E
    have hm : r - 2 ^ w.mw < 2 ^ w.mw := by omega
    rw [Nat.mul_comm, Nat.mul_add_mod, Nat.mod_eq_of_lt hm, Nat.mul_add_div (by positivity), Nat.div_eq_of_lt hm, Nat.add_zero]
    have h1 : ¬ (w.f ∈ ieeeFmts ∧ E + 1 = 2 ^ w.ew - 1) := by
      rintro ⟨hi, he⟩
      rw [if_pos hi] at hf
      have h2w : 2 ^ 1 ≤ 2 ^ w.ew := Nat.pow_le_pow_right (by omega) hew
      zify at he h2w
      rw [Nat.cast_sub (by omega)] at he
      push_cast at he
      omega
    have h3 : ¬ (w.f = .e4m3 ∧ E + 1 = 15 ∧ r - 2 ^ w.mw = 7) := by
      rintro ⟨hi, he, h7⟩
      obtain ⟨hw4, hm3, hmm, -⟩ := hrow.e4m3 hi
      rw [if_neg (by rw [hi]; decide), hw4] at hf
      have hr14 := hmax (by omega)
      rw [hm3] at h7
      omega
    rw [if_neg h1, if_neg h3, if_neg (by omega), Nat.sub_add_cancel (by omega)]
    congr 1
    omega


/-- What `convFp` encodes decodes to the rounded value, also where rounding has carried into the next exponent. -/
theorem decode_carried {w : FloatRow} (hw : w ∈ floatRows) (neg : Bool) {r : Nat} {q : Int} (hq : 1 - (w.bias : Int) - w.mw ≤ q ∨
      (q + 1 = 1 - (w.bias : Int) - w.mw ∧ r = 2 ^ (w.mw + 1))) (hr : r ≤ 2 ^ (w.mw + 1))
    (hn : 2 ^ w.mw ≤ r ∨ (q = 1 - (w.bias : Int) - w.mw ∧ w.f ≠ .bf16)) (hbig : magGt r q w.maxMant w.maxExp = false) :
    ∃ j p, decodeFmt w.f ((if neg then 2 ^ (w.ew + w.mw) else 0)
        + (if r = 2 ^ (w.mw + 1) then codeAt w (2 ^ w.mw) (q + 1) else codeAt w r q)) = .fin neg j p false
      ∧ ∀ z, z ≤ p → z ≤ q → j * 2 ^ (p - z).toNat = r * 2 ^ (q - z).toNat := by
  have h2 : 2 ^ (w.mw + 1) = 2 * 2 ^ w.mw := by ring
  have h0 : 0 < 2 ^ w.mw := by positivity
  by_cases hc : r = 2 ^ (w.mw + 1)
  · have hb : magGt (2 ^ w.mw) (q + 1) w.maxMant w.maxExp = false := by
      rw [not_magGt_iff] at hbig ⊢
      refine le_of_eq_of_le ?_ hbig
      rw [hc, zpow_add₀ (by norm_num)]
      push_cast
      ring
    refine ⟨2 ^ w.mw, q + 1, ?_, fun z h1 h3 => ?_⟩
    · rw [if_pos hc, decode_codeAt hw neg (by omega) (by omega) (.inl le_rfl) hb]
    · rw [hc, show (q + 1 - z).toNat = (q - z).toNat + 1 by omega]
      ring
  · have hq' := hq.resolve_right fun h => hc h.2
    exact ⟨r, q, by rw [if_neg hc, decode_codeAt hw neg hq' (by omega) hn hbig], fun _ _ _ => rfl⟩

/-- A magnitude rounded at its last place that is not tiny has its last place at the least exponent's or above, or carries to it. -/
theorem lastPlace_ge_of_not_tiny {p r : Nat} {q emin : Int} (hr : r ≤ 2 ^ (p + 1)) (ht : magGt 1 emin r q = false) :
    emin - p ≤ q ∨ (q + 1 = emin - p ∧ r = 2 ^ (p + 1)) := by
  rw [not_magGt_iff, Nat.cast_one, one_mul] at ht
  have h1 : (r : ℚ) * 2 ^ q ≤ 2 ^ (p + 1) * 2 ^ q := mul_le_mul_of_nonneg_right (by exact_mod_cast hr) (by positivity)
  have h2 := ht.trans h1
  rw [← zpow_natCast, ← zpow_add₀ (by norm_num), zpow_le_zpow_iff_right₀ (by norm_num)] at h2
  push_cast at h2
  rcases lt_or_ge q (emin - p) with h | h
  · refine .inr ⟨by omega, le_antisymm hr ?_⟩
    have h3 : emin = (p + 1 : Nat) + q := by push_cast; omega
    rw [h3, zpow_add₀ (by norm_num), zpow_natCast] at ht
    exact_mod_cast le_of_mul_le_mul_right ht (by positivity)
  · exact .inl h

theorem ovfResult_cases {w : FloatRow} (hw : w ∈ floatRows) (neg sat : Bool) (rm : Rnd) :
    let sign := if neg then 2 ^ (w.ew + w.mw) else 0
    let inf := if w.f = .e4m3 then w.nan else sign + (2 ^ w.ew - 1) * 2 ^ w.mw
    (sat = true ∨ w.f ∈ plainFmts → ovfResult w.f rm neg sat = (sign + w.maxCode, fOF ||| fNX ||| fSAT))
      ∧ (sat = false → w.f ∉ plainFmts →
          ovfResult w.f rm neg sat = (if ovfInf rm neg then inf else sign + w.maxCode, fOF ||| fNX)) := by
  intro sign inf
  have hrow := rowOf hw
  have hb : (sat || !(hasInf w.f || w.f == .e4m3)) = true ↔ sat = true ∨ w.f ∈ plainFmts := by
    rw [hrow.plain, hrow.inf]
    simp
  have hsign : (if neg then signBit w.f else 0) = sign := by rw [signBit, hrow.exp, hrow.mant]
  simp only [ovfResult, hb, hsign, hrow.maxCode]
  refine ⟨fun h => if_pos h, fun hs hp => ?_⟩
  rw [if_neg (by simp [hs, hp])]
  cases ovfInf rm neg
  · rfl
  · have hi : w.f = .e4m3 → w.f ∉ ieeeFmts := fun h => by rw [h]; decide
    have hi' : w.f ≠ .e4m3 → w.f ∈ ieeeFmts := fun h => by
      by_contra hc
      exact hp (hrow.plain.2 ⟨hc, h⟩)
    by_cases h4 : w.f = .e4m3
    · have hn : hasInf w.f = false := by rw [hrow.inf]; exact decide_eq_false (hi h4)
      simp only [if_true, hn, Bool.false_eq_true, if_false, inf, if_pos h4, ← hrow.nan hp]
    · simp [hrow.inf, hi' h4, inf, h4, infCode, hrow.exp, hrow.mant]

/-- The encoding that `convFp` forms. -/
theorem carried_code (w : FloatRow) (r : Nat) (q : Int) :
    (if r < 2 ^ w.mw then r
      else
        let (r', q') := if r == 2 ^ (w.mw + 1) then (2 ^ w.mw, q + 1) else (r, q)
        ((q' - (1 - (w.bias : Int) - w.mw)).toNat + 1) * 2 ^ w.mw + (r' - 2 ^ w.mw))
      = if r = 2 ^ (w.mw + 1) then codeAt w (2 ^ w.mw) (q + 1) else codeAt w r q := by
  have h2 : 2 ^ (w.mw + 1) = 2 * 2 ^ w.mw := by ring
  have h0 : 0 < 2 ^ w.mw := by positivity
  by_cases hc : r = 2 ^ (w.mw + 1)
  · rw [if_neg (by omega), if_pos hc]
    simp [hc, codeAt]
  · simp [hc, codeAt]

/-- A conversion of a value that is not zero, under a mode that is not SR, by its cases. -/
theorem conv_fin_eq {w : FloatRow} (hw : w ∈ floatRows) (neg : Bool) {m : Nat} (hm : m ≠ 0) (e : Int) {rm : Rnd}
    (hrm : ∀ d, rm ≠ .sr d) (sat : Bool) :
    let sign := if neg then 2 ^ (w.ew + w.mw) else 0
    let emin : Int := 1 - (w.bias : Int)
    let top := lastPlace m e w.mw
    let q := if w.f = .bf16 then top else max top (emin - w.mw)
    let r := roundMag rm neg m e q false
    let tiny := magGt 1 emin (roundMag rm neg m e top false).1 top
    conv (.fin neg m e false) w.f rm sat =
      if magGt r.1 q w.maxMant w.maxExp then ovfResult w.f rm neg sat
      else if w.f = .bf16 ∧ tiny = true then (sign, fUF ||| fNX)
      else (sign + (if r.1 = 2 ^ (w.mw + 1) then codeAt w (2 ^ w.mw) (q + 1) else codeAt w r.1 q),
        flagIf (!r.2) fNX ||| flagIf (!r.2 && tiny) fUF) := by
  intro sign emin top q r tiny
  have hrow := rowOf hw
  have hm' : (m == 0 && !false) = false := by simpa using hm
  rw [← carried_code]
  cases rm with
  | sr d => exact absurd rfl (hrm d)
  | _ =>
    simp only [conv, hrow.float, convFp, hm', hrow.mant, hrow.bias, hrow.maxMag, signBit, hrow.exp, beq_iff_eq, Bool.and_eq_true,
      Bool.false_eq_true, if_false]
    rfl

theorem conv_isConverted {w : FloatRow} (hw : w ∈ floatRows) (neg : Bool) {m : Nat} (hm : m ≠ 0) (e : Int) {rm : Rnd}
    (hrm : ∀ d, rm ≠ .sr d) (sat : Bool) : IsConverted w neg m e rm sat (conv (.fin neg m e false) w.f rm sat) := by
  have hconv := conv_fin_eq hw neg hm e hrm sat
  have htop : (Nat.log2 m : Int) + e - w.mw = lastPlace m e w.mw := rfl
  unfold IsConverted
  simp only [htop] at hconv ⊢
  rw [hconv]
  clear hconv
  have hleT : (roundMag rm neg m e (lastPlace m e w.mw) false).1 ≤ 2 ^ (w.mw + 1) := roundMag_le le_rfl
  have hgeT : 2 ^ w.mw ≤ (roundMag rm neg m e (lastPlace m e w.mw) false).1 := le_roundMag hm rfl
  generalize hq : (if w.f = .bf16 then lastPlace m e w.mw else max (lastPlace m e w.mw) (1 - (w.bias : Int) - w.mw)) = q
  have htq : lastPlace m e w.mw ≤ q := by rw [← hq]; split <;> omega
  have hle : (roundMag rm neg m e q false).1 ≤ 2 ^ (w.mw + 1) := roundMag_le htq
  refine ⟨_, _, roundMag_isRounded rm neg m e q, roundMag_isRounded rm neg m e (lastPlace m e w.mw), fun hb hbf => ?_,
    fun hb hf ht => ?_, fun hb hs => ?_, fun hb hs hp => ?_⟩
  · have ht : ¬ (w.f = .bf16 ∧ magGt 1 (1 - (w.bias : Int)) (roundMag rm neg m e (lastPlace m e w.mw) false).1 (lastPlace m e w.mw) = true) := by
      rintro ⟨hf, ht⟩
      rw [hbf hf] at ht
      cases ht
    rw [if_neg (by simp [hb]), if_neg ht]
    refine ⟨decode_carried hw neg ?_ hle ?_ hb, rfl⟩
    · by_cases hf : w.f = .bf16
      · rw [if_pos hf] at hq
        subst hq
        exact lastPlace_ge_of_not_tiny hleT (hbf hf)
      · rw [if_neg hf] at hq
        exact .inl (by omega)
    · by_cases hf : w.f = .bf16
      · rw [if_pos hf] at hq
        exact .inl (hq ▸ hgeT)
      · rw [if_neg hf] at hq
        rcases le_total (1 - (w.bias : Int) - w.mw) (lastPlace m e w.mw) with h | h
        · rw [max_eq_left h] at hq
          exact .inl (hq ▸ hgeT)
        · exact .inr ⟨by omega, hf⟩
  · rw [if_neg (by simp [hb]), if_pos ⟨hf, ht⟩]
  · rw [if_pos hb]
    exact (ovfResult_cases hw neg sat rm).1 hs
  · rw [if_pos hb, (ovfResult_cases hw neg sat rm).2 hs hp]
    refine ⟨?_, ?_, ?_, ?_⟩ <;> rintro rfl
    · rfl
    · rfl
    · cases neg <;> rfl
    · cases neg <;> rfl

/-! ### Conversion of zero, infinity and NaN, and to the integer formats -/

theorem conv_zero {w : FloatRow} (hw : w ∈ floatRows) (neg : Bool) (e : Int) (rm : Rnd) (sat : Bool) :
    conv (.fin neg 0 e false) w.f rm sat = (if neg then 2 ^ (w.ew + w.mw) else 0, 0) := by
  have hrow := rowOf hw
  simp [conv, hrow.float, convFp, signBit, hrow.exp, hrow.mant]

theorem conv_nan {w : FloatRow} (hw : w ∈ floatRows) (rm : Rnd) (sat : Bool) :
    conv .nan w.f rm sat = (if w.f ∈ plainFmts then (0, fNV) else (w.nan, 0)) := by
  have hrow := rowOf hw
  have hb : (hasInf w.f || w.f == .e4m3) = true ↔ w.f ∉ plainFmts := by
    rw [hrow.plain, hrow.inf]
    simp only [Bool.or_eq_true, decide_eq_true_eq, beq_iff_eq]
    tauto
  by_cases hp : w.f ∈ plainFmts
  · simp [conv, hrow.float, convFp, hb, hp]
  · simp [conv, hrow.float, convFp, hb, hp, hrow.nan hp]

theorem conv_inf {w : FloatRow} (hw : w ∈ floatRows) (neg : Bool) (rm : Rnd) (sat : Bool) :
    let sign := if neg then 2 ^ (w.ew + w.mw) else 0
    conv (.inf neg) w.f rm sat =
      (if sat then (sign + w.maxCode, fSAT)
       else if w.f ∈ ieeeFmts then (sign + (2 ^ w.ew - 1) * 2 ^ w.mw, 0)
       else if w.f = .e4m3 then (w.nan, fNV) else (sign + w.maxCode, fNV ||| fSAT)) := by
  intro sign
  have hrow := rowOf hw
  have hn : w.f = .e4m3 → nanCode w.f = w.nan := fun h => hrow.nan (by rw [h]; decide)
  simp only [conv, hrow.float, convFp, signBit, hrow.exp, hrow.mant, hrow.maxCode, hrow.inf, infCode, decide_eq_true_eq, beq_iff_eq,
    Bool.false_eq_true, if_false]
  split
  · rfl
  split
  · rfl
  split
  next h => rw [hn h]
  · rfl

theorem conv_int (wd : Nat) (sg neg : Bool) (m : Nat) (e : Int) {rm : Rnd} (sat : Bool) (hrm : ∀ d, rm ≠ .sr d) :
    let lo : Int := if sg then -2 ^ (wd - 1) else 0
    let hi : Int := if sg then 2 ^ (wd - 1) - 1 else 2 ^ wd - 1
    let code := fun i : Int => (i.emod (2 ^ wd)).toNat
    let r := roundMag rm neg m e 0 false
    let i : Int := if neg then -(r.1 : Int) else r.1
    conv (.fin neg m e false) (.int wd sg) rm sat =
      (if i < lo then (code lo, fSAT ||| fNX) else if hi < i then (code hi, fSAT ||| fNX) else (code i, flagIf (!r.2) fNX)) := by
  cases rm with
  | sr d => exact absurd rfl (hrm d)
  | _ => cases sg <;> rfl

theorem conv_int_special (wd : Nat) (sg neg : Bool) (rm : Rnd) (sat : Bool) :
    let lo : Int := if sg then -2 ^ (wd - 1) else 0
    let hi : Int := if sg then 2 ^ (wd - 1) - 1 else 2 ^ wd - 1
    conv .nan (.int wd sg) rm sat = (0, fNV)
      ∧ conv (.inf neg) (.int wd sg) rm sat = (((if neg then lo else hi).emod (2 ^ wd)).toNat, fNV) := by
  cases sg <;> exact ⟨rfl, rfl⟩

/-! ### Elements of VUNPK and VPACK (R73-R75, R138, R139) -/

theorem decF32_plain {code : Nat} (hc : code ≠ 11) (x sc sb : Nat) :
    let v := decodeFmt (fmtOfCode code) x
    decF32 code 0 x sc sb = rnF32 v
      ∧ (sc % 256 ≠ 255 → decF32 code 1 x sc sb = rnF32 (xScale ((sc % 256 : Nat) - 127) v))
      ∧ (sc % 256 = 255 → decF32 code 1 x sc sb = (0x7FC00000, 0))
      ∧ decF32 code 2 x sc sb = rnF32 (xMul v (decodeFmt .fp32 sc)).1 := by
  have hb : (code == 11) = false := by simpa using hc
  refine ⟨by simp [decF32, hb], fun h => ?_, fun h => ?_, by simp [decF32, hb]⟩
  · have h' : e8m0 sc = some ((sc % 256 : Nat) - 127 : Int) := if_neg (by simpa using h)
    simp only [decF32, hb, h', Bool.false_eq_true, if_false]
  · have h' : e8m0 sc = none := if_pos (by simpa using h)
    simp only [decF32, hb, h', Bool.false_eq_true, if_false]
    rfl

theorem packElt_plain {code : Nat} (hc : code ≠ 11) (x : Nat) (gs : Word) (rm : Rnd) (sat : Bool) :
    let y := decodeFmt .fp32 x
    let nv := flagIf (isSnan .fp32 x) fNV
    let f := fmtOfCode code
    let sc := gs.toNat % 2 ^ 32
    let q := xDiv y (decodeFmt .fp32 sc)
    let rq := conv q.1 .fp32 .rne false
    packElt code 0 gs rm sat x = ((conv y f rm sat).1, nv ||| (conv y f rm sat).2)
      ∧ (gs.toNat % 256 = 255 → packElt code 1 gs rm sat x = (0, 0))
      ∧ (gs.toNat % 256 ≠ 255 → (packElt code 1 gs rm sat x).1 = (conv (xScale (127 - ((gs.toNat % 256 : Nat) : Int)) y) f rm sat).1)
      ∧ (decodeFmt .fp32 sc = .nan → (packElt code 2 gs rm sat x).1 = 0)
      ∧ (decodeFmt .fp32 sc ≠ .nan → packElt code 2 gs rm sat x = ((conv (decodeFmt .fp32 rq.1) f rm sat).1,
          nv ||| (q.2 ||| rq.2) ||| (conv (decodeFmt .fp32 rq.1) f rm sat).2)) := by
  intro y nv f sc q rq
  have hb : (code == 11) = false := by simpa using hc
  have hnv : snanFlag .fp32 [x] = nv := by simp [snanFlag, nv]
  have hm : gs.toNat % 2 ^ 32 % 256 = gs.toNat % 256 := by omega
  refine ⟨?_, fun h => ?_, fun h => ?_, fun h => ?_, fun h => ?_⟩
  · simp [packElt, hb, hnv, scaleDown, y, f]
  · simp [packElt, hb, h]
  · simp [packElt, hb, h, scaleDown, hm, y, f]
  · have hn : xIsNan (decodeFmt .fp32 sc) = true := by rw [h]; rfl
    simp only [packElt, hb, Bool.false_eq_true, if_false]
    rw [if_neg (by simp), if_pos (by rw [Bool.and_eq_true]; exact ⟨rfl, hn⟩)]
  · have hn : xIsNan (decodeFmt .fp32 sc) = false := by
      cases hd : decodeFmt .fp32 sc with
      | nan => exact absurd hd h
      | _ => rfl
    simp only [packElt, hb, hnv, Bool.false_eq_true, if_false]
    rw [if_neg (by simp), if_neg (by simp [sc] at hn ⊢; exact hn)]
    rfl

theorem q4nEncode_nan {sg y : Xr} (s : Nat) (h : sg = .nan ∨ y = .nan) : q4nEncode sg s y = 7 := by
  rcases h with rfl | rfl
  · cases y <;> rfl
  · cases sg <;> rfl

theorem packElt_q4n (x : Nat) (gs : Word) (rm : Rnd) (sat : Bool) :
    (packElt 11 3 gs rm sat x).1 = q4nEncode (decodeFmt .fp32 (gs.toNat % 2 ^ 32)) (gs.toNat / 2 ^ 32 % 256) (decodeFmt .fp32 x) := rfl

/-! ### Comparison of magnitudes and the greatest of a list (R74) -/

theorem xCmp_fin (m m' : Nat) (e e' z : Int) (h : z ≤ e) (h' : z ≤ e') (st st' : Bool) :
    xCmp (.fin false m e st) (.fin false m' e' st') =
      if m * 2 ^ (e - z).toNat < m' * 2 ^ (e' - z).toNat then -1 else if m' * 2 ^ (e' - z).toNat < m * 2 ^ (e - z).toNat then 1 else 0 := by
  have hs : ∀ (k : Nat) (x : Int), z ≤ x → min e e' ≤ x →
      ((k * 2 ^ (x - z).toNat : Nat) : Int) = sgnMant false k x (min e e') * 2 ^ (min e e' - z).toNat := by
    intro k x hz hx
    rw [← sgnMant_scale false k (by omega) hx]
    simp [sgnMant]
  have hp : (0 : Int) < 2 ^ (min e e' - z).toNat := by positivity
  simp only [xCmp]
  zify
  have h1 := hs m e h (by omega)
  have h2 := hs m' e' h' (by omega)
  push_cast at h1 h2
  rw [h1, h2]
  simp only [mul_lt_mul_iff_left₀ hp]

theorem xCmp_eq_one_iff (m m' : Nat) {e e' z : Int} (h : z ≤ e) (h' : z ≤ e') (st st' : Bool) :
    xCmp (.fin false m e st) (.fin false m' e' st') = 1 ↔ m' * 2 ^ (e' - z).toNat < m * 2 ^ (e - z).toNat := by
  rw [xCmp_fin _ _ _ _ z h h']
  split
  · constructor
    · intro h; cases h
    · omega
  · split <;> simp [*]

/-- Of the magnitudes so far the greatest stays the greatest. -/
theorem amax_step {m m' k : Nat} {e e' p : Int} {st st' st'' : Bool} (h : xCmp (.fin false k p st'') (.fin false m' e' st') ≠ 1)
    (hc : xCmp (.fin false m e st) (.fin false m' e' st') = 1) : xCmp (.fin false k p st'') (.fin false m e st) ≠ 1 := by
  obtain ⟨z, h1, h2, h3⟩ : ∃ z : Int, z ≤ e ∧ z ≤ e' ∧ z ≤ p := ⟨min e (min e' p), by omega, by omega, by omega⟩
  rw [ne_eq, xCmp_eq_one_iff _ _ h3 h2] at h
  rw [xCmp_eq_one_iff _ _ h1 h2] at hc
  rw [ne_eq, xCmp_eq_one_iff _ _ h3 h1]
  omega

theorem xCmp_self_ne (m : Nat) (e : Int) (st : Bool) : xCmp (.fin false m e st) (.fin false m e st) ≠ 1 := by
  rw [ne_eq, xCmp_eq_one_iff _ _ le_rfl le_rfl]
  omega

/-- Every value of the list is finite. -/
def AllFinite (l : List Xr) : Prop := ∀ x ∈ l, ∃ n m e, x = .fin n m e false

theorem amaxOf_not_finite {l : List Xr} (hf : ¬ AllFinite l) (hst : ∀ x ∈ l, ∀ n m e, x ≠ .fin n m e true) : amaxOf l = .nan := by
  induction l with
  | nil => exact absurd (fun x hx => by cases hx) hf
  | cons x l ih =>
    unfold amaxOf
    cases x with
    | nan => rfl
    | inf n => rfl
    | fin n m e st =>
      have hst0 : st = false := by
        cases st
        · rfl
        · exact absurd rfl (hst _ List.mem_cons_self n m e)
      subst hst0
      have hl : ¬ AllFinite l := fun h => hf fun y hy => by
        rcases List.mem_cons.1 hy with rfl | hy
        · exact ⟨n, m, e, rfl⟩
        · exact h y hy
      rw [ih hl fun y hy => hst y (List.mem_cons_of_mem _ hy)]

theorem amaxOf_finite {l : List Xr} (hf : AllFinite l) :
    (∃ m e, amaxOf l = .fin false m e false) ∧ (amaxOf l = xZero ∨ ∃ x ∈ l, amaxOf l = xAbs x) ∧ ∀ x ∈ l, xCmp (xAbs x) (amaxOf l) ≠ 1 := by
  induction l with
  | nil => exact ⟨⟨0, 0, rfl⟩, .inl rfl, fun x hx => by cases hx⟩
  | cons x l ih =>
    obtain ⟨n, m, e, rfl⟩ := hf x List.mem_cons_self
    obtain ⟨⟨m', e', ha⟩, hmem, hmax⟩ := ih fun y hy => hf y (List.mem_cons_of_mem _ hy)
    have hun : amaxOf (.fin n m e false :: l)
        = if xCmp (.fin false m e false) (.fin false m' e' false) = 1 then .fin false m e false else .fin false m' e' false := by
      simp only [amaxOf, ha, beq_iff_eq]
    rw [hun]
    rw [ha] at hmem hmax
    by_cases hc : xCmp (.fin false m e false) (.fin false m' e' false) = 1
    · rw [if_pos hc]
      refine ⟨⟨m, e, rfl⟩, .inr ⟨_, List.mem_cons_self, rfl⟩, fun y hy => ?_⟩
      rcases List.mem_cons.1 hy with rfl | hy
      · exact xCmp_self_ne m e false
      · obtain ⟨k, i, p, rfl⟩ := hf y (List.mem_cons_of_mem _ hy)
        exact amax_step (hmax _ hy) hc
    · rw [if_neg hc]
      refine ⟨⟨m', e', rfl⟩, hmem.imp_right fun ⟨y, hy, h⟩ => ⟨y, List.mem_cons_of_mem _ hy, h⟩, fun y hy => ?_⟩
      rcases List.mem_cons.1 hy with rfl | hy
      · exact hc
      · exact hmax y hy

/-! ### Scales (R74, R142) -/

/-- The search of the block code stops at the first scale that is not too small. -/
theorem q4nFindS_spec (sg am : Xr) (n s : Nat) :
    s ≤ q4nFindS sg am n s ∧ q4nFindS sg am n s ≤ s + n ∧ (∀ j, s ≤ j → j < q4nFindS sg am n s → xCmp (q4nScale sg j) am = -1)
      ∧ (q4nFindS sg am n s < s + n → xCmp (q4nScale sg (q4nFindS sg am n s)) am ≠ -1) := by
  induction n generalizing s with
  | zero => exact ⟨le_rfl, le_rfl, fun j h1 h2 => by simp [q4nFindS] at h2; omega, fun h => by simp [q4nFindS] at h⟩
  | succ n ih =>
    by_cases hc : xCmp (q4nScale sg s) am = -1
    · have hu : q4nFindS sg am (n + 1) s = q4nFindS sg am n (s + 1) := by simp [q4nFindS, hc]
      obtain ⟨h1, h2, h3, h4⟩ := ih (s + 1)
      rw [hu]
      refine ⟨by omega, by omega, fun j hj hlt => ?_, fun h => h4 (by omega)⟩
      rcases Nat.eq_or_lt_of_le hj with rfl | hj
      · exact hc
      · exact h3 j hj hlt
    · have hu : q4nFindS sg am (n + 1) s = s := by simp [q4nFindS, hc]
      rw [hu]
      exact ⟨le_rfl, by omega, fun j h1 h2 => by omega, fun _ => hc⟩

/-! ### Elements of a packed register -/

theorem packElts_elt (w : Nat) (l : List Nat) (e : Nat) : packElts w l >>> (e * w) % 2 ^ w = l.getD e 0 % 2 ^ w := by
  induction l generalizing e with
  | nil => simp [packElts]
  | cons x l ih =>
    cases e with
    | zero => simp [packElts]
    | succ e =>
      have hx := Nat.mod_lt x (show 0 < 2 ^ w by positivity)
      rw [packElts, Nat.succ_mul, Nat.add_comm (e * w), Nat.shiftRight_add, Nat.shiftRight_eq_div_pow _ w,
        Nat.add_mul_div_right _ _ (by positivity), Nat.div_eq_of_lt hx, Nat.zero_add, ih]
      simp

theorem elt_ofElts {w e : Nat} (l : List Nat) (h : (e + 1) * w ≤ 1024) : elt w (ofElts w l) e = l.getD e 0 % 2 ^ w := by
  rw [← packElts_elt, elt, ofElts, BitVec.toNat_ofNat, Nat.shiftRight_eq_div_pow, Nat.shiftRight_eq_div_pow]
  have hp : 2 ^ 1024 = 2 ^ (e * w) * 2 ^ w * 2 ^ (1024 - (e + 1) * w) := by
    rw [← pow_add, ← pow_add]
    congr 1
    have : (e + 1) * w = e * w + w := by ring
    omega
  rw [hp, Nat.mul_assoc, Nat.mod_mul_right_div_self, Nat.mod_mul_right_mod]

/-- An element of a register made element by element. -/
theorem elt_ofElts_range {w e : Nat} (f : Nat → Nat) (h : e < 1024 / w) :
    elt w (ofElts w ((List.range (1024 / w)).map f)) e = f e % 2 ^ w := by
  have h1 : (e + 1) * w ≤ 1024 := (Nat.mul_le_mul_right w h).trans (Nat.div_mul_le_self ..)
  rw [elt_ofElts _ h1]
  simp [List.getD_eq_getElem?_getD, h]

theorem elt_mod (w : Nat) (x : BitVec 1024) (i : Nat) : elt w x i % 2 ^ w = elt w x i := Nat.mod_eq_of_lt (elt_lt ..)

/-! ### Scales and random bits -/

theorem qscale_none (code kind : Nat) (gb : Word) (xs : List Xr) :
    let am := amaxOf (decodeFmt .fp32 (gb.toNat % 2 ^ 32) :: xs)
    (am = .nan → (qscale code 1 1 gb xs).1 = 0xFF ∧ (qscale code 2 1 gb xs).1 = 0x7FC00000 ∧ (qscale code 3 1 gb xs).1 = 0x7FC00000)
      ∧ (∀ e, am = .fin false 0 e false → (qscale code 1 1 gb xs).1 = 0x7F ∧ (qscale code 2 1 gb xs).1 = 0x3F800000
          ∧ (qscale code 3 1 gb xs).1 = 0x3F800000) := by
  intro am
  have ham : amaxOf (decodeFmt .fp32 (gb.toNat % 2 ^ 32) :: xs) = am := rfl
  refine ⟨fun h => ?_, fun e h => ?_⟩ <;> rw [h] at ham <;> refine ⟨?_, ?_, ?_⟩ <;> simp only [qscale, ham] <;> rfl

theorem emaxOf_eq (code : Nat) :
    (([(4, 8), (5, 15), (6, 4), (7, 2), (8, 2), (9, 6), (10, 2)] : List (Nat × Int)).find? (fun c => c.1 == code)).elim 0 (fun c => c.2)
      = emaxOf code := by
  by_cases h : code ≤ 10
  · interval_cases code <;> rfl
  · have hf : (([(4, 8), (5, 15), (6, 4), (7, 2), (8, 2), (9, 6), (10, 2)] : List (Nat × Int)).find? (fun c => c.1 == code)) = none := by
      simp only [List.find?_eq_none, List.mem_cons, List.not_mem_nil, or_false, beq_iff_eq]
      rintro x (rfl | rfl | rfl | rfl | rfl | rfl | rfl) <;> dsimp only <;> omega
    rw [hf, emaxOf]
    · rfl
    all_goals omega

theorem qscale_fin {code : Nat} {gb : Word} {xs : List Xr} {m : Nat} {e : Int} (hm : m ≠ 0)
    (h : amaxOf (decodeFmt .fp32 (gb.toNat % 2 ^ 32) :: xs) = .fin false m e false) :
    (qscale code 1 1 gb xs).1.toNat = (max (-127) (min 127 ((Nat.log2 m : Int) + e - emaxOf code)) + 127).toNat
      ∧ (qscale code 2 1 gb xs).1 = BitVec.ofNat 64 (conv (xDiv (.fin false m e false) (maxvOf code)).1 .fp32 .rne false).1
      ∧ (qscale code 3 1 gb xs).1 = BitVec.ofNat 64 (conv (.fin false m e false) .fp32 .rne false).1 := by
  have hm' : (m == 0) = false := by simpa using hm
  refine ⟨?_, ?_, ?_⟩
  · have hlt : (max (-127) (min 127 ((Nat.log2 m : Int) + e - emaxOf code)) + 127).toNat < 2 ^ 64 := by omega
    simp only [qscale, h, e8m0Scale, hm', xLog2Floor]
    simpa using Nat.mod_eq_of_lt hlt
  · simp only [qscale, h, fp32Scale, hm']
    rfl
  · simp only [qscale, h, xIsZero, hm']
    rfl

theorem qscale_block_none {code kind : Nat} {gb : Word} {xs : List Xr} :
    (decodeFmt .fp32 (gb.toNat % 2 ^ 32) = .nan ∨ amaxOf xs = .nan → (qscale code kind 2 gb xs).1 = 0)
      ∧ (∀ n e, amaxOf xs = .fin n 0 e false → (qscale code kind 2 gb xs).1 = 0) := by
  have hq : (qscale code kind 2 gb xs).1 = BitVec.ofNat 64
      (if (match decodeFmt .fp32 (gb.toNat % 2 ^ 32), amaxOf xs with
        | .fin _ _ _ _, .fin _ _ _ _ => false
        | _, _ => true) then 0 else q4nBlockCode (decodeFmt .fp32 (gb.toNat % 2 ^ 32)) (amaxOf xs)) := rfl
  rw [hq]
  generalize decodeFmt .fp32 (gb.toNat % 2 ^ 32) = seed
  generalize amaxOf xs = am
  refine ⟨fun h => ?_, fun n e h => ?_⟩
  · rcases h with rfl | rfl
    · rfl
    · cases seed <;> rfl
  · subst h
    cases seed <;> rfl

theorem qscale_block {code kind : Nat} {gb : Word} {xs : List Xr} {k : Bool} {i : Nat} {n : Int} {m : Nat} {e : Int}
    (hs : decodeFmt .fp32 (gb.toNat % 2 ^ 32) = .fin k i n false) (ha : amaxOf xs = .fin false m e false) (hm : m ≠ 0) :
    let s := (qscale code kind 2 gb xs).1.toNat
    1 ≤ s ∧ s ≤ 255 ∧ (∀ j, 1 ≤ j → j < s → xCmp (q4nScale (.fin k i n false) j) (amaxOf xs) = -1)
      ∧ (s < 255 → xCmp (q4nScale (.fin k i n false) s) (amaxOf xs) ≠ -1) := by
  obtain ⟨h1, h2, h3, h4⟩ := q4nFindS_spec (.fin k i n false) (amaxOf xs) 254 1
  have he : (qscale code kind 2 gb xs).1 = BitVec.ofNat 64 (q4nFindS (.fin k i n false) (amaxOf xs) 254 1) := by
    simp only [qscale, hs, ha, q4nBlockCode, xIsZero]
    simp [hm]
  rw [he, BitVec.toNat_ofNat]
  generalize q4nFindS (.fin k i n false) (amaxOf xs) 254 1 = s at *
  rw [Nat.mod_eq_of_lt (by omega)]
  exact ⟨h1, h2, h3, h4⟩

theorem rotl64_eq (v : Word) {n : Nat} (h0 : n ≠ 0) (h : n < 64) : rotl64 v n = v <<< n ||| v >>> (64 - n) := by
  rw [rotl64, rotateLeft_eq_or v h, if_neg h0]

theorem decF32_q4n (x sc sb : Nat) :
    (decF32 11 3 x sc sb).1 = (rnF32 (xMul (q4nCb (x % 16)) (rnF32x (xMul (decodeFmt .fp32 sc) (rnF32x (xMul (xInt sb) q4nK).1)).1)).1).1 := by
  simp only [decF32, q4nSteps, beq_self_eq_true, if_true, rnF32x]

/-- One round of the generator (R88). -/
def cbgRound (ab : Word × Word) (i : Nat) : Word × Word :=
  let a := ab.1 + ab.2
  let a := a ^^^ (a >>> 31)
  let a := a * 0x9F4A2C61B83D07E5#64
  let b := rotl64 ab.2 23 ^^^ a
  (a, b * 0xD36E1A975C0B84F3#64 + BitVec.ofNat 64 i)

theorem cbgRounds_six (a b : Word) : cbgRounds 6 1 a b = [1, 2, 3, 4, 5, 6].foldl cbgRound (a, b) := rfl

theorem cbgRound_eq (ab : Word × Word) (i : Nat) : cbgRound ab i =
    (((ab.1 + ab.2) ^^^ (ab.1 + ab.2) >>> 31) * 0x9F4A2C61B83D07E5#64,
      ((ab.2 <<< 23 ||| ab.2 >>> (64 - 23)) ^^^ (((ab.1 + ab.2) ^^^ (ab.1 + ab.2) >>> 31) * 0x9F4A2C61B83D07E5#64))
        * 0xD36E1A975C0B84F3#64 + BitVec.ofNat 64 i) := by
  rw [cbgRound, rotl64_eq ab.2 (by omega) (by omega)]

theorem cbg_eq_rounds (seed : Word) (tag x y : BitVec 32) :
    cbg seed tag x y = (([1, 2, 3, 4, 5, 6].foldl cbgRound (seed ^^^ (y ++ x), rotl64 seed 29 ^^^ toW tag ^^^ 0x71C5E29B3A86D04D#64)).1
      ^^^ ([1, 2, 3, 4, 5, 6].foldl cbgRound (seed ^^^ (y ++ x), rotl64 seed 29 ^^^ toW tag ^^^ 0x71C5E29B3A86D04D#64)).2 >>> 32).setWidth
        32 := by
  rw [← cbgRounds_six]
  rfl

theorem cbg_eq (seed : Word) (tag x y : BitVec 32) :
    let rot := fun (v : Word) (n : Nat) => v <<< n ||| v >>> (64 - n)
    let r := [1, 2, 3, 4, 5, 6].foldl (fun (ab : Word × Word) (i : Nat) =>
      let a := ab.1 + ab.2
      let a := a ^^^ a >>> 31
      let a := a * 0x9F4A2C61B83D07E5#64
      let b := rot ab.2 23 ^^^ a
      (a, b * 0xD36E1A975C0B84F3#64 + BitVec.ofNat 64 i))
      (seed ^^^ (y ++ x), rot seed 29 ^^^ tag.setWidth 64 ^^^ 0x71C5E29B3A86D04D#64)
    cbg seed tag x y = (r.1 ^^^ r.2 >>> 32).setWidth 32 := by
  have hf : cbgRound = _ := funext fun ab => funext fun i => cbgRound_eq ab i
  have h := cbg_eq_rounds seed tag x y
  rw [hf, rotl64_eq seed (n := 29) (by omega) (by omega), toW] at h
  exact h

/-! ### The forms -/

/-- A form that writes v[d] and raises flags, for one state of it. -/
theorem vector_completes {i : Instr} {g : Guard} {d : R6} {lat : Nat} {x : Strand → BitVec 1024} {f : Strand → FpFlags} {s : State}
    {t : Strand} (h : exec i s = laneOp i g advance (fun t => advance (lateFlags s.cycle lat (f t) (setV s.cycle lat d (x t) t))) s)
    (hr : Ready s t i g) :
    ∃ t', Completes i s t' ∧ WroteV d (x t) t t' ∧ FlagsLand (s.cycle + lat) (f t) t t' ∧ SameG t t' ∧ t'.m = t.m ∧ SameP t t'
      ∧ SameC t t' ∧ SameSpot t t' ∧ MovedOn t t' :=
  ⟨_, completes_of_laneOp h hr, fun r => by simp [getV_setV], flagsLand_of_lateFlags (by simp) (by simp) (by simp), fun r => by simp,
    by simp, by simp [SameP], by simp [SameC], by simp [SameSpot], movedOn_advance (by simp) (by simp) (by simp)⟩

/-- VCVT's part of the destination: part `p` of a wider source's elements, or the whole of it (R136). -/
def vcvtIn (wd ws p e : Nat) : Bool :=
  decide ((if wd < ws then p * numElts ws else 0) ≤ e
    ∧ e < (if wd < ws then p * numElts ws else 0) + (if wd < ws then numElts ws else numElts wd))

/-- The source element that goes to element `e`. -/
def vcvtSrc (wd ws p e : Nat) : Nat := if wd < ws then e - (if wd < ws then p * numElts ws else 0) else e + p * numElts wd

theorem vcvtIn_eq {wd ws p e : Nat} (he : e < 1024 / wd) :
    vcvtIn wd ws p e = decide (wd < ws → p * (1024 / ws) ≤ e ∧ e < p * (1024 / ws) + 1024 / ws) := by
  by_cases h : wd < ws <;> simp [vcvtIn, numElts, h, he]

theorem vcvtSrc_eq (wd ws p e : Nat) : vcvtSrc wd ws p e = if wd < ws then e - p * (1024 / ws) else e + p * (1024 / wd) := by
  by_cases h : wd < ws <;> simp [vcvtSrc, numElts, h]

theorem vcvt_completes (g : Guard) (d a c : R6) (td rm k ts part : BitVec 3) (z u sat : Bool) (s : State) (st : Strand)
    (hr : Ready s st (.vcvt g d a c td rm k z u ts part sat) g) :
    let wd := typeW td
    let ws := typeW ts
    let ns := 1024 / ws
    let nd := 1024 / wd
    let inPart := fun e => decide (wd < ws → part.toNat * ns ≤ e ∧ e < part.toNat * ns + ns)
    let src := fun e => if wd < ws then e - part.toNat * ns else e + part.toNat * nd
    ∃ t' x, Completes (.vcvt g d a c td rm k z u ts part sat) s t' ∧ WroteV d x st t'
      ∧ (∀ e, e < nd → elt wd x e =
          if inPart e then
            (if active (getM st k) wd e then
              (convElt ts td u (convMode rm (getG st c) 0 e st) sat (elt ws (getV st a) (src e))).1 % 2 ^ wd
             else if z then 0 else elt wd (getV st d) e)
          else elt wd (getV st d) e)
      ∧ FlagsLand (s.cycle + 3) ((List.range nd).foldl (fun acc e => if inPart e && active (getM st k) wd e then
           acc ||| (convElt ts td u (convMode rm (getG st c) 0 e st) sat (elt ws (getV st a) (src e))).2 else acc) 0) st t'
      ∧ SameG st t' ∧ t'.m = st.m ∧ SameP st t' ∧ SameC st t' ∧ SameSpot st t' ∧ MovedOn st t' := by
  intro wd ws ns nd inPart src
  obtain ⟨t', hc, hv, hf, hrest⟩ := vector_completes (i := .vcvt g d a c td rm k z u ts part sat) (d := d) (lat := 3)
    (x := fun st => ofElts wd ((List.range (1024 / wd)).map fun e =>
      if vcvtIn wd ws part.toNat e then
        (if active (getM st k) wd e then
          (convElt ts td u (convMode rm (getG st c) 0 e st) sat (elt ws (getV st a) (vcvtSrc wd ws part.toNat e))).1
         else if z then 0 else elt wd (getV st d) e)
      else elt wd (getV st d) e))
    (f := fun st => (List.range (1024 / wd)).foldl (fun acc e => if vcvtIn wd ws part.toNat e && active (getM st k) wd e then
      acc ||| (convElt ts td u (convMode rm (getG st c) 0 e st) sat (elt ws (getV st a) (vcvtSrc wd ws part.toNat e))).2 else acc) 0)
    (by simp only [exec]; rfl) hr
  have hp : ∀ e < nd, vcvtIn wd ws part.toNat e = inPart e := fun e he => vcvtIn_eq he
  have hs : ∀ e, vcvtSrc wd ws part.toNat e = src e := vcvtSrc_eq wd ws part.toNat
  refine ⟨t', _, hc, hv, fun e he => ?_, ?_, hrest⟩
  · rw [elt_ofElts_range _ he]
    simp only [hp e he, hs]
    split
    · split
      · rfl
      · split
        · rfl
        · exact elt_mod ..
    · exact elt_mod ..
  · convert hf using 1
    refine List.foldl_ext _ _ _ fun acc e he => ?_
    simp only [hp e (List.mem_range.1 he), hs]

theorem vpack_completes (g : Guard) (d a b c : R6) (rm k : BitVec 3) (z : Bool) (fmt : BitVec 4) (kind : BitVec 2) (slot : BitVec 4)
    (sat : Bool) (s : State) (st : Strand) (hr : Ready s st (.vpack g d a b c rm k z fmt kind slot sat) g) :
    let w := contW fmt.toNat
    ∃ t' x, Completes (.vpack g d a b c rm k z fmt kind slot sat) s t' ∧ WroteV d x st t'
      ∧ (∀ e, e < 1024 / w → elt w x e =
          if 32 * slot.toNat ≤ e ∧ e < 32 * slot.toNat + 32 then
            (if active (getM st k) 32 (e - 32 * slot.toNat) then
              (packElt fmt.toNat kind.toNat (getG st b) (convMode rm (getG st c) 1 e st) sat
                (elt 32 (getV st a) (e - 32 * slot.toNat))).1 % 2 ^ w
             else if z then 0 else elt w (getV st d) e)
          else elt w (getV st d) e)
      ∧ FlagsLand (s.cycle + 3) (orActive 32 (getM st k) (fun i => (packElt fmt.toNat kind.toNat (getG st b)
           (convMode rm (getG st c) 1 (32 * slot.toNat + i) st) sat (elt 32 (getV st a) i)).2)) st t'
      ∧ SameG st t' ∧ t'.m = st.m ∧ SameP st t' ∧ SameC st t' ∧ SameSpot st t' ∧ MovedOn st t' := by
  intro w
  obtain ⟨t', hc, hv, hf, hrest⟩ := vector_completes (i := .vpack g d a b c rm k z fmt kind slot sat) (by simp only [exec]; rfl) hr
  refine ⟨t', _, hc, hv, fun e he => ?_, hf, hrest⟩
  rw [elt_ofElts_range _ he]
  split
  next hin =>
    simp only [Nat.add_sub_cancel' hin.1]
    split
    · rfl
    · split
      · rfl
      · exact elt_mod ..
  · exact elt_mod ..

theorem decodeFmt_cases {w : FloatRow} (hw : w ∈ floatRows) (x : Nat) :
    let m := x % 2 ^ w.mw
    let e := x / 2 ^ w.mw % 2 ^ w.ew
    let neg := decide (x / 2 ^ (w.mw + w.ew) % 2 = 1)
    let special : Prop := (w.f ∈ ieeeFmts ∧ e = 2 ^ w.ew - 1) ∨ (w.f = .e4m3 ∧ e = 15 ∧ m = 7)
    (w.f ∈ ieeeFmts → e = 2 ^ w.ew - 1 → m = 0 → decodeFmt w.f x = .inf neg)
      ∧ (special → m ≠ 0 → decodeFmt w.f x = .nan)
      ∧ (¬ special → e ≠ 0 → decodeFmt w.f x = .fin neg (m + 2 ^ w.mw) ((e : Int) - w.bias - w.mw) false)
      ∧ (e = 0 → w.f ≠ .bf16 → decodeFmt w.f x = .fin neg m (1 - (w.bias : Int) - w.mw) false)
      ∧ (e = 0 → w.f = .bf16 → decodeFmt w.f x = .fin neg 0 0 false) := by
  intro m e neg special
  have hd := decodeFmt_row hw x
  change decodeFmt w.f x = if w.f ∈ ieeeFmts ∧ e = 2 ^ w.ew - 1 then (if m = 0 then .inf neg else .nan)
      else if w.f = .e4m3 ∧ e = 15 ∧ m = 7 then .nan
      else if e = 0 then (if w.f = .bf16 then .fin neg 0 0 false else .fin neg m (1 - (w.bias : Int) - w.mw) false)
      else .fin neg (m + 2 ^ w.mw) ((e : Int) - w.bias - w.mw) false at hd
  have h0 : e = 0 → ¬ (w.f ∈ ieeeFmts ∧ e = 2 ^ w.ew - 1) ∧ ¬ (w.f = .e4m3 ∧ e = 15 ∧ m = 7) := by
    intro h
    have hew : 2 ^ 1 ≤ 2 ^ w.ew := Nat.pow_le_pow_right (by omega) (rowOf hw).ew_pos
    exact ⟨by rintro ⟨-, h1⟩; omega, by rintro ⟨-, h1, -⟩; omega⟩
  rw [hd]
  refine ⟨fun hi he hm => by rw [if_pos ⟨hi, he⟩, if_pos hm], ?_, fun hs he => ?_, fun he hb => ?_, fun he hb => ?_⟩
  · rintro (hs | hs) hm
    · rw [if_pos hs, if_neg hm]
    · have hn : ¬ (w.f ∈ ieeeFmts ∧ e = 2 ^ w.ew - 1) := fun h => absurd h.1 (by rw [hs.1]; decide)
      rw [if_neg hn, if_pos hs]
  · rw [if_neg fun h => hs (.inl h), if_neg fun h => hs (.inr h), if_neg he]
  · rw [if_neg (h0 he).1, if_neg (h0 he).2, if_pos he, if_neg hb]
  · rw [if_neg (h0 he).1, if_neg (h0 he).2, if_pos he, if_pos hb]

/-- Settles O23. -/
theorem convertResults : Obligations.ConvertResults := by
  unfold Obligations.ConvertResults
  have hk : q4nK = decodeFmt .fp32 0x3B808081 := rfl
  refine ⟨fun g d a b c t k z fmt kind out slot => ⟨vectorResult_of_vecOp fun _ => rfl, vectorResult_of_vecOp fun _ => rfl,
      writesGF_of_laneOp fun _ => by simp only [exec, execVqscale, activeElts, List.map_map]; rfl⟩, fun g d a b c td rm k ts part z u sat fmt kind slot => ⟨fun s st hr => ?_, fun s st hr => ?_⟩,
    fun w hw x => ?_, fun w hw neg m e rm sat => ⟨fun hm hrm => conv_isConverted hw neg hm e hrm sat, conv_zero hw neg e rm sat,
      conv_nan hw rm sat, conv_inf hw neg rm sat⟩,
    fun wd sg neg m e rm sat _ => ⟨(conv_int_special wd sg neg rm sat).1, (conv_int_special wd sg neg rm sat).2, fun hrm =>
      ⟨_, roundMag_isRounded rm neg m e 0, conv_int wd sg neg m e sat hrm⟩⟩, fun ts td u sat rm x => ?_,
    fun code x sc sb sg => ?_,
    fun code x gs rm sat => ⟨fun hc => packElt_plain hc x gs rm sat, fun h => ?_, rfl⟩,
    fun l => ⟨amaxOf_not_finite, fun h => (amaxOf_finite h).2⟩, fun code kind gb xs m e => ?_, fun seed tag x y => ?_⟩
  · exact vcvt_completes g d a c td rm k ts part z u sat s st hr
  · exact vpack_completes g d a b c rm k z fmt kind slot sat s st hr
  · exact decodeFmt_cases hw x
  · simp [convElt, snanFlag, fmtOfType]
  · intro v rn val
    have hr : rn = rnF32 := rfl
    have hv : val = rnF32x := rfl
    rw [hr, hv, ← hk]
    exact ⟨fun hc => decF32_plain hc x sc sb, decF32_q4n x sc sb, rfl, rfl⟩
  · exact (packElt_q4n x gs rm sat).trans (q4nEncode_nan _ h)
  · obtain ⟨h1, h2⟩ := qscale_none code kind gb xs
    refine ⟨rfl, h1, h2 e, fun h hm => ?_, qscale_block_none.1, fun n => qscale_block_none.2 n e, fun k n i hs ha hm => ?_⟩
    · rw [emaxOf_eq]
      exact h ▸ qscale_fin hm h
    · exact hs ▸ qscale_block hs ha hm
  · exact cbg_eq seed tag x y

end Sys2Proof.Machine
end

section
/-! SUPPORT. Memory forms, requests to engines, data forms and atomics (O24-O29): the checks of an access, what the end of a segment leaves, and the operations that a form issues. -/

namespace Sys2Proof.Machine
open Laws

/-! ### The checks of an access (R166, R170) -/

/-- An access through this translation breaks a protection rule (R166, R167). -/
def Protected (s : State) (t : Strand) (x : Xl) (acc : Acc) (fr : FeRule) (va : Va) : Prop :=
  (acc = .store ∧ (pteW x.pte0 = false ∨ pteCow x.pte0 = true ∨ pteRepl x.pte0 = true
      ∨ (inPageSet t va.toNat = true ∧ x.wr = false)))
    ∨ fr = .full ∧ pteFe x.pte0 = true ∧ feGet s (xlPhys x va.toNat) = false
    ∨ fr = .empty ∧ pteFe x.pte0 = true ∧ feGet s (xlPhys x va.toNat) = true
    ∨ (fr = .page ∨ fr = .pageEmpty) ∧ pteFe x.pte0 = false
    ∨ fr = .pageEmpty ∧ feGet s (xlPhys x va.toNat) = true

open Classical in
/-- The cause of an access through a translation, in the order of R166. -/
theorem accessCause_of_xl {s : State} {t : Strand} {acc : Acc} {fr : FeRule} {va : Va} {n sz : Nat} {x : Xl}
    (h : syncXl t s false va.toNat = some x) :
    accessCause s t acc fr va n sz =
      if acc = .store ∧ rangeLeased s t.cl (xlPhys x va.toNat) n = true then some .lease
      else if Protected s t x acc fr va then some .protection
      else if va.toNat % sz ≠ 0 then some .align
      else if (acc = .load ∨ acc = .take ∧ feGet s (xlPhys x va.toNat) = true) ∧ eccBad s (xlPhys x va.toNat) n = true then
        some .memoryEcc
      else none := by
  cases fr <;> simp [accessCause, h, Protected, or_assoc]

/-- The causes in the order in which an access checks them (R166). -/
def accessOrder : List Cause := [.lease, .residency, .protection, .align, .memoryEcc]

theorem accessCause_mem {s : State} {t : Strand} {acc : Acc} {fr : FeRule} {va : Va} {n sz : Nat} {c : Cause}
    (h : accessCause s t acc fr va n sz = some c) : c ∈ accessOrder := by
  cases hx : syncXl t s false va.toNat with
  | none =>
    simp only [accessCause, hx, Option.some.injEq] at h
    simp [← h, accessOrder]
  | some x =>
    rw [accessCause_of_xl hx] at h
    split_ifs at h <;> simp_all [accessOrder]

/-- The first address with this cause. -/
def firstWith (s : State) (t : Strand) (acc : Acc) (fr : FeRule) (n sz : Nat) (vas : List Va) (c : Cause) : Option (Cause × Va) :=
  ((vas.map (fun va => (accessCause s t acc fr va n sz, va))).find? (fun e => e.1 == some c)).map (fun e => (c, e.2))

theorem firstWith_some {s : State} {t : Strand} {acc : Acc} {fr : FeRule} {n sz : Nat} {vas : List Va} {c : Cause}
    {r : Cause × Va} (h : firstWith s t acc fr n sz vas c = some r) :
    r.1 = c ∧ r.2 ∈ vas ∧ accessCause s t acc fr r.2 n sz = some c := by
  simp only [firstWith, Option.map_eq_some_iff] at h
  obtain ⟨e, he, rfl⟩ := h
  obtain ⟨va, hva, rfl⟩ := List.mem_map.mp (List.mem_of_find?_eq_some he)
  exact ⟨rfl, hva, by simpa using List.find?_some he⟩

theorem firstWith_none {s : State} {t : Strand} {acc : Acc} {fr : FeRule} {n sz : Nat} {vas : List Va} {c : Cause} :
    firstWith s t acc fr n sz vas c = none ↔ ∀ va ∈ vas, accessCause s t acc fr va n sz ≠ some c := by
  simp [firstWith]

/-- A vector access reports the first cause in the order that some element has. -/
theorem vecCause_eq (s : State) (t : Strand) (acc : Acc) (fr : FeRule) (n sz : Nat) (vas : List Va) :
    vecCause s t acc fr n sz vas = accessOrder.findSome? (firstWith s t acc fr n sz vas) := by
  simp only [accessOrder, List.findSome?, vecCause]
  change (firstWith s t acc fr n sz vas .lease).orElse (fun _ => (firstWith s t acc fr n sz vas .residency).orElse (fun _ =>
    (firstWith s t acc fr n sz vas .protection).orElse (fun _ => (firstWith s t acc fr n sz vas .align).orElse (fun _ =>
      firstWith s t acc fr n sz vas .memoryEcc)))) = _
  generalize firstWith s t acc fr n sz vas = f
  cases f .lease <;> cases f .residency <;> cases f .protection <;> cases f .align <;> cases f .memoryEcc <;> rfl

theorem vecCause_eq_none {s : State} {t : Strand} {acc : Acc} {fr : FeRule} {n sz : Nat} {vas : List Va} :
    vecCause s t acc fr n sz vas = none ↔ ∀ va ∈ vas, accessCause s t acc fr va n sz = none := by
  rw [vecCause_eq, List.findSome?_eq_none_iff]
  constructor
  · intro h va hva
    by_contra hne
    obtain ⟨c, hc⟩ := Option.ne_none_iff_exists'.mp hne
    exact firstWith_none.mp (h c (accessCause_mem hc)) va hva hc
  · intro h c _
    exact firstWith_none.mpr (fun va hva => by simp [h va hva])

/-- The cause reported stands at one of the elements, and no element has an earlier one. -/
theorem vecCause_first {s : State} {t : Strand} {acc : Acc} {fr : FeRule} {n sz : Nat} {vas : List Va} {c : Cause} {va : Va}
    (h : vecCause s t acc fr n sz vas = some (c, va)) :
    va ∈ vas ∧ accessCause s t acc fr va n sz = some c
      ∧ ∀ va' ∈ vas, ∀ c', accessCause s t acc fr va' n sz = some c' → accessOrder.idxOf c ≤ accessOrder.idxOf c' := by
  rw [vecCause_eq, List.findSome?_eq_some_iff] at h
  obtain ⟨l, a, r, hl, ha, hn⟩ := h
  obtain ⟨h1, h2, h3⟩ := firstWith_some ha
  have hout : ∀ v ∈ vas, ∀ k, accessCause s t acc fr v n sz = some k → k ∉ l :=
    fun v hv k hk hm => firstWith_none.mp (hn k hm) v hv hk
  dsimp only at h1 h2 h3
  subst h1
  refine ⟨h2, h3, fun va' hva' c' hc' => ?_⟩
  rw [hl, List.idxOf_append_of_notMem (hout va h2 c h3), List.idxOf_append_of_notMem (hout va' hva' c' hc'), List.idxOf_cons_self]
  omega

/-! ### An access that fails takes its fault -/

theorem raises_of_scalarOp {i : Instr} {g : Guard} {acc : Acc} {fr : FeRule} {m : MemOp} {n : Nat} {s : State} {t : Strand}
    {c : Cause} (hx : ∃ on, exec i s = scalarOp i g acc fr m n on s) (h : Ready s t i g)
    (hc : accessCause s t acc fr (effAddr m t) n n = some c) : Raises i s t (causeCode c) := by
  obtain ⟨on, hx⟩ := hx
  exact ⟨_, hx.trans (scalarOp_fault on h hc), faulted_raise ..⟩

theorem raises_of_loadOp {i : Instr} {g : Guard} {fr : FeRule} {data : R6} {sz : BitVec 2} {sg : Bool} {m : MemOp} {s : State}
    {t : Strand} {c : Cause} (hx : exec i s = loadOp i g fr data sz sg m s) (h : Ready s t i g)
    (hc : accessCause s t .load fr (effAddr m t) (2 ^ sz.toNat) (2 ^ sz.toNat) = some c) : Raises i s t (causeCode c) :=
  raises_of_scalarOp ⟨_, hx⟩ h hc

theorem raises_of_storeOp {i : Instr} {g : Guard} {fr : FeRule} {data : R6} {sz : BitVec 2} {rel : Bool} {m : MemOp} {s : State}
    {t : Strand} {c : Cause} (hx : exec i s = storeOp i g fr data sz rel m s) (h : Ready s t i g)
    (hc : accessCause s t .store fr (effAddr m t) (2 ^ sz.toNat) (2 ^ sz.toNat) = some c) : Raises i s t (causeCode c) :=
  raises_of_scalarOp ⟨_, hx⟩ h hc

theorem raises_of_vectorOp {i : Instr} {g : Guard} {acc : Acc} {fr : FeRule} {vas : Strand → List Va} {n sz : Nat} {s : State}
    {t : Strand} {c : Cause} {v : Va} {on : Strand → State → List Nat → State}
    (hx : ∀ s, exec i s = vectorOp i g acc fr vas n sz on s) (h : Ready s t i g)
    (hc : vecCause s t acc fr n sz (vas t) = some (c, v)) : Raises i s t (causeCode c) :=
  ⟨raise i c s t (toW v), (hx s).trans ((issue_on _ _ h).trans (by simp only [hc])), faulted_raise ..⟩

theorem elemW_div (sz : BitVec 2) : elemW sz / 8 = 2 ^ sz.toNat := Nat.mul_div_cancel_left _ (by decide)

theorem raises_of_vecLoad {i : Instr} {g : Guard} {data : R6} {sz : BitVec 2} {vas : Strand → List Va} {s : State} {t : Strand}
    {c : Cause} {v : Va} (hx : ∀ s, exec i s = vecLoad i g data (elemW sz) (2 ^ sz.toNat) vas s) (h : Ready s t i g)
    (hc : vecCause s t .load .any (2 ^ sz.toNat) (2 ^ sz.toNat) (vas t) = some (c, v)) : Raises i s t (causeCode c) :=
  raises_of_vectorOp hx h (by rwa [elemW_div])

theorem raises_of_vecStore {i : Instr} {g : Guard} {data : R6} {sz : BitVec 2} {rel : Bool} {vas : Strand → List Va} {s : State}
    {t : Strand} {c : Cause} {v : Va} (hx : ∀ s, exec i s = vecStore i g data (elemW sz) (2 ^ sz.toNat) rel vas s) (h : Ready s t i g)
    (hc : vecCause s t .store .any (2 ^ sz.toNat) (2 ^ sz.toNat) (vas t) = some (c, v)) : Raises i s t (causeCode c) :=
  raises_of_vectorOp hx h (by rwa [elemW_div])

/-- Settles O25: each cause is the branch of the check that the order of R166 leaves, and an access form that fails its check
raises what the check answers. -/
theorem accessChecks : Obligations.AccessChecks := by
  refine ⟨⟨fun s t acc fr va n sz h => by simp [accessCause, h], fun s t acc fr va n sz x h => ?_⟩,
    fun s t acc fr n sz vas => ⟨vecCause_eq_none, fun c va h => vecCause_first h⟩, fun g data sz sg o f m s t c => ?_⟩
  · intro a leased prot reads
    rw [accessCause_of_xl (n := n) (sz := sz) h]
    refine ⟨fun h1 => if_pos h1, fun h1 h2 => ?_, fun h1 h2 h3 => ?_, fun h1 h2 h3 h4 h5 => ?_, fun h1 h2 h3 h4 => ?_⟩
    · exact (if_neg h1).trans (if_pos h2)
    · exact (if_neg h1).trans ((if_neg h2).trans (if_pos h3))
    · exact (if_neg h1).trans ((if_neg h2).trans ((if_neg (not_not.mpr h3)).trans (if_pos ⟨h4, h5⟩)))
    · refine (if_neg h1).trans ((if_neg h2).trans ((if_neg (not_not.mpr h3)).trans (if_neg ?_)))
      rintro ⟨h5, h6⟩
      exact Bool.false_ne_true ((h4 h5).symm.trans h6)
  · intro n va
    refine ⟨raises_of_loadOp (data := data) (sg := sg) rfl, raises_of_loadOp (data := data) (sg := sg) rfl,
      raises_of_storeOp (data := data) (rel := o) rfl, raises_of_storeOp (data := data) (rel := o) rfl,
      raises_of_scalarOp ?_, raises_of_scalarOp ?_, raises_of_scalarOp ?_, raises_of_scalarOp ?_, raises_of_scalarOp ?_,
      raises_of_scalarOp ?_,
      fun v => raises_of_vecLoad (data := data) (fun _ => rfl), fun v => raises_of_vecStore (data := data) (rel := o) (fun _ => rfl),
      fun v => raises_of_vecLoad (data := data) (fun _ => rfl), fun v => raises_of_vecStore (data := data) (rel := o) (fun _ => rfl)⟩
    all_goals
      simp only [exec]
      exact ⟨_, rfl⟩

/-! ### Effective addresses and the bytes of an access (R44, R168) -/

theorem setWidth48_ofInt (i : Int) : (BitVec.ofInt 64 i).setWidth 48 = BitVec.ofInt 48 i := by
  apply BitVec.eq_of_toNat_eq
  simp only [BitVec.toNat_setWidth, BitVec.toNat_ofInt, Nat.reducePow]
  omega

/-- The effective address is the sum of base, shifted index and displacement, modulo 2^48 (R44). -/
theorem effAddr_eq (m : MemOp) (t : Strand) :
    effAddr m t = BitVec.ofInt 48 ((getG t m.base).toNat + (getG t m.index).toNat * 2 ^ m.sh.toNat + m.disp.toInt) := by
  have hshift : getG t m.index <<< m.sh.toNat = BitVec.ofInt 64 ((getG t m.index).toNat * 2 ^ m.sh.toNat) := by
    apply BitVec.eq_of_toNat_eq
    simp only [BitVec.toNat_shiftLeft, BitVec.toNat_ofInt, Nat.shiftLeft_eq]
    exact_mod_cast (Int.toNat_natCast _).symm
  have hbase : getG t m.base = BitVec.ofInt 64 (getG t m.base).toNat := by simp
  rw [effAddr, hshift, hbase, sxW, BitVec.signExtend, ← BitVec.ofInt_add, ← BitVec.ofInt_add, setWidth48_ofInt]
  simp

theorem loadVal_eq (sg : Bool) (n x : Nat) :
    loadVal sg n x = if sg then BitVec.ofInt 64 (sextN (8 * n) x) else BitVec.ofNat 64 x := rfl

/-- A read of any length of what a write of that length stored. -/
theorem rdN_wrN_pow (s : State) (a n x : Nat) (h : Memory.wf s.mem = true) (hx : x < 2 ^ (8 * n)) : rdN (wrN s a n x) a n = x := by
  rw [rdN_wrN s a n x h, show 256 ^ n = 2 ^ (8 * n) by rw [pow_mul]; rfl]
  exact Nat.mod_eq_of_lt hx

theorem sameMemBut_wrN (s : State) (a n x : Nat) (h : Memory.wf s.mem = true) : SameMemBut a n s (wrN s a n x) := by
  intro b hb
  rw [wrN_mem, rdCell_wrBytes _ _ _ _ h, toLe_length, if_neg (by omega)]

/-! ### Full-empty bits (R167) -/

theorem setAdd_mem (l : List Nat) (k x : Nat) : x ∈ setAdd l k ↔ x = k ∨ x ∈ l := by
  induction l with
  | nil => simp [setAdd]
  | cons i l ih =>
    rw [setAdd]
    split_ifs with h1 h2
    · simp
    · subst h2; simp
    · simp only [List.mem_cons, ih]; tauto

theorem setDel_mem (l : List Nat) (k x : Nat) : x ∈ setDel l k ↔ x ∈ l ∧ x ≠ k := by simp [setDel]

theorem feGet_feSet_same (s : State) (a : Nat) (b : Bool) : feGet (feSet s a b) a = b := by
  cases b <;> simp [feGet, feSet, setAdd_mem, setDel_mem]

theorem feGet_feSet_ne (s : State) {a c : Nat} (b : Bool) (h : wordOf c ≠ wordOf a) : feGet (feSet s a b) c = feGet s c := by
  rw [Bool.eq_iff_iff]
  cases b <;> simp [feGet, feSet, setAdd_mem, setDel_mem, h]

theorem feGet_congr {s s' : State} (h : s'.fe = s.fe) (a : Nat) : feGet s' a = feGet s a := by rw [feGet, feGet, h]

theorem feGet_feFill_same (s : State) (a : Nat) : feGet (feFill s a) a = true := feGet_feSet_same s a true

theorem feGet_feFill_ne (s : State) {a c : Nat} (h : wordOf c ≠ wordOf a) : feGet (feFill s a) c = feGet s c :=
  feGet_feSet_ne s true h

/-! ### Scalar loads and stores -/

theorem loads_of_loadOp {i : Instr} {g : Guard} {fr : FeRule} {data : R6} {sz : BitVec 2} {sg : Bool} {m : MemOp} {s : State}
    {t : Strand} (hx : exec i s = loadOp i g fr data sz sg m s) (h : Ready s t i g)
    (ha : accessCause s t .load fr (effAddr m t) (2 ^ sz.toNat) (2 ^ sz.toNat) = none) :
    ∃ s' t', Lands i s s' t' ∧ OnlyG data (loadVal sg (2 ^ sz.toNat) (rdN s (accessPhys s t (effAddr m t)) (2 ^ sz.toNat))) t t'
      ∧ SameMem s s' ∧ s'.fe = s.fe :=
  ⟨_, _, ⟨hx.trans (scalarOp_on _ h ha), putStrand_lands _ _ _ (correctSoft_cur ..)⟩, onlyG_setG .., fun b => by simp, by simp⟩

theorem stores_of_storeOp {i : Instr} {g : Guard} {fr : FeRule} {data : R6} {sz : BitVec 2} {rel : Bool} {m : MemOp} {s : State}
    {t : Strand} (hx : exec i s = storeOp i g fr data sz rel m s) (h : Ready s t i g)
    (ha : accessCause s t .store fr (effAddr m t) (2 ^ sz.toNat) (2 ^ sz.toNat) = none) :
    let a := accessPhys s t (effAddr m t)
    ∃ s' t', Lands i s s' t' ∧ OnlyMoves t t' ∧ rdN s' a (2 ^ sz.toNat) = (getG t data).toNat % 2 ^ (8 * 2 ^ sz.toNat)
      ∧ SameMemBut a (2 ^ sz.toNat) (relIf rel t s) s' ∧ s'.fe = (relIf rel t s).fe := by
  intro a
  have hwf := inv_relIf rel t s h.1.1
  have hcur : (relIf rel t s).cur = s.cur := (sameFrame_relIf rel t s).1
  refine ⟨_, _, ⟨hx.trans (scalarOp_on _ h ha), putStrand_lands _ _ _ hcur⟩, onlyMoves_advance t, ?_, ?_, rfl⟩
  · exact rdN_wrN_pow _ _ _ _ hwf (Nat.mod_lt _ (by positivity))
  · exact sameMemBut_wrN _ _ _ _ hwf



/-! ### What freeing a record leaves of memory (R152, R155) -/

theorem returnStorage_mem (s : State) (p fri : Nat) : (returnStorage s p fri).mem = s.mem := by
  simp only [returnStorage]
  repeat' split
  all_goals rfl

theorem recAddr_congr {s s' : State} (h : s'.parts = s.parts) (p fri i : Nat) : recAddr s' p fri i = recAddr s p fri i := by
  simp only [recAddr, frt, partField, partWord, h]

theorem contPhys_congr {s s' : State} (h : s'.parts = s.parts) (cl p k : Nat) : contPhys s' cl p k = contPhys s cl p k := by
  simp only [contPhys, contBase, partField, partWord, h]

/-- Word 0 of the record at `fri` lies elsewhere. -/
def OffRec (s : State) (p b fri : Nat) : Prop := b < recAddr s p fri 0 ∨ recAddr s p fri 0 + 8 ≤ b

theorem offRec_congr {s s' : State} (h : s'.parts = s.parts) (p b fri : Nat) : OffRec s' p b fri ↔ OffRec s p b fri := by
  unfold OffRec; rw [recAddr_congr h]

theorem FreesOnly.parts_eq {s s' : State} (h : FreesOnly s s') : s'.parts = s.parts := by
  obtain ⟨-, -, -, -, -, -, -, -, -, -, h, -⟩ := h
  exact h

/-- A record without references is freed alone: at level 4 it has no children. -/
theorem freeIdle_cases (s : State) (p fri : Nat) :
    freeIdle s p fri = s ∨ freeIdle s p fri = invalidate (setRec0 (returnStorage s p fri) p fri 0 2 0) p fri := by
  unfold freeIdle
  split
  · simp only [freeRec, show ¬ 4 ≤ 3 by decide, if_false, List.foldl_nil, Option.map_some]
    split
    · exact Or.inl rfl
    · exact Or.inr rfl
  · exact Or.inl rfl

@[simp] theorem invalidate_mem (s : State) (p fri : Nat) : (invalidate s p fri).mem = s.mem := rfl

theorem setRec0_mem (s : State) (p fri lo n x : Nat) :
    (setRec0 s p fri lo n x).mem
      = wrBytes s.mem (recAddr s p fri 0) (toLe 8 (setField (recWord s p fri 0) lo n x).toNat) := wr64_mem ..

/-- Freeing a record changes its word 0 and no other byte. -/
theorem freeIdle_mem (s : State) (p fri : Nat) (h : Memory.wf s.mem = true) :
    Memory.wf (freeIdle s p fri).mem = true ∧ ∀ b, OffRec s p b fri → rdCell (freeIdle s p fri).mem b = rdCell s.mem b := by
  rcases freeIdle_cases s p fri with he | he
  · rw [he]
    exact ⟨h, fun b _ => rfl⟩
  · rw [he, invalidate_mem, setRec0_mem, returnStorage_mem, recAddr_congr (FreesOnly.parts_eq (returnStorage_freesOnly s p fri))]
    refine ⟨wf_wrBytes _ _ _ h, fun b hb => ?_⟩
    rw [rdCell_wrBytes _ _ _ _ h, toLe_length, if_neg]
    rcases hb with hb | hb <;> omega

theorem freeHeld_cons (s : State) (p : Nat) (x : Xl) (l : List Xl) :
    freeHeld s p (x :: l) = freeHeld (freeIdle s p x.fri) p l := by
  simp only [freeHeld, List.foldl_cons]

theorem freeHeld_mem (p : Nat) (l : List Xl) : ∀ s : State, Memory.wf s.mem = true →
    Memory.wf (freeHeld s p l).mem = true ∧
      ∀ b, (∀ x ∈ l, OffRec s p b x.fri) → rdCell (freeHeld s p l).mem b = rdCell s.mem b := by
  induction l with
  | nil => exact fun s h => ⟨h, fun b _ => rfl⟩
  | cons x l ih =>
    intro s h
    obtain ⟨h1, h2⟩ := freeIdle_mem s p x.fri h
    obtain ⟨h3, h4⟩ := ih (freeIdle s p x.fri) h1
    have hp : (freeIdle s p x.fri).parts = s.parts := FreesOnly.parts_eq (freeIdle_freesOnly s p x.fri)
    rw [freeHeld_cons]
    refine ⟨h3, fun b hb => (h4 b fun y hy => ?_).trans (h2 b (hb x (List.mem_cons_self ..)))⟩
    exact (offRec_congr hp ..).mpr (hb y (List.mem_cons_of_mem _ hy))

/-! ### The end of a segment (R226, R229) -/

@[simp] theorem gangEnd_strands (s : State) (t : Strand) (b : Bool) : (gangEnd s t b).strands = s.strands := by
  unfold gangEnd; split <;> rfl
@[simp] theorem gangEnd_conts (s : State) (t : Strand) (b : Bool) : (gangEnd s t b).conts = s.conts := by
  unfold gangEnd; split <;> rfl
@[simp] theorem gangEnd_ops (s : State) (t : Strand) (b : Bool) : (gangEnd s t b).ops = s.ops := by
  unfold gangEnd; split <;> rfl
@[simp] theorem gangEnd_mem (s : State) (t : Strand) (b : Bool) : (gangEnd s t b).mem = s.mem := by
  unfold gangEnd; split <;> rfl
@[simp] theorem gangEnd_parts (s : State) (t : Strand) (b : Bool) : (gangEnd s t b).parts = s.parts := by
  unfold gangEnd; split <;> rfl

/-- What the end of a segment keeps of the state before it. -/
theorem closeSegment_keeps (s : State) (t : Strand) :
    (closeSegment s t).strands = s.strands ∧ (closeSegment s t).conts = s.conts
      ∧ (closeSegment s t).ops.map noOut = s.ops.map noOut ∧ (closeSegment s t).parts = s.parts := by
  obtain ⟨h1, -, -, -, h5, h6, -, -, -, -, h11, -⟩ := freeHeld_freesOnly
    (updCp (closeBatch s t s.cycle).2 t.cl t.task.pid (fun k => clearReq (releaseFrom k t.seg.sid (tickNow s + 1)) t.lane)) t.task.pid t.seg.xl
  exact ⟨h1, h5, h6, h11⟩

theorem closeSegment_mem (s : State) (t : Strand) (h : Memory.wf s.mem = true) :
    Memory.wf (closeSegment s t).mem = true ∧
      ∀ b, (∀ x ∈ t.seg.xl, OffRec s t.task.pid b x.fri) → rdCell (closeSegment s t).mem b = rdCell s.mem b :=
  freeHeld_mem t.task.pid t.seg.xl
    (updCp (closeBatch s t s.cycle).2 t.cl t.task.pid (fun k => clearReq (releaseFrom k t.seg.sid (tickNow s + 1)) t.lane)) h

/-- What `dropDead` does to one operation. -/
def dropDst (t : Strand) (o : Op) : Op := if o.task == t.task.id && !(o.dst.all (regLive t)) then { o with dst := none } else o

theorem noOut_dropDst (t : Strand) (o : Op) : noOut (dropDst t o) = dropDst t (noOut o) := by
  by_cases h : (o.task == t.task.id && !(o.dst.all (regLive t))) = true
  · simp only [dropDst, noOut, h, if_true]
  · simp only [dropDst, noOut, h, if_false, Bool.false_eq_true]

theorem dropDead_ops (s : State) (t : Strand) : (dropDead s t).ops = s.ops.map (dropDst t) := rfl

theorem sameOps_dropDead {s s' : State} (t : Strand) (h : s'.ops.map noOut = s.ops.map noOut) :
    SameOps (dropDead s t).ops (dropDead s' t).ops := by
  have hmap : ∀ l : List Op, (l.map (dropDst t)).map noOut = (l.map noOut).map (dropDst t) := fun l => by
    simp only [List.map_map, Function.comp_def, noOut_dropDst]
  change ((dropDead s' t).ops).map noOut = ((dropDead s t).ops).map noOut
  rw [dropDead_ops, dropDead_ops, hmap, hmap, h]

/-- The record of a continuation, and where it stands in HBM when it is kept there (R230). -/
theorem addCont_eq (s : State) (c : Cont) :
    ∃ k, addCont s c = writeCont { s with conts := s.conts ++ [{ c with hbm := k }] } { c with hbm := k } := by
  unfold addCont
  dsimp only
  split <;> exact ⟨_, rfl⟩

theorem writeCont_keeps (s : State) (c : Cont) :
    (writeCont s c).strands = s.strands ∧ (writeCont s c).conts = s.conts ∧ (writeCont s c).ops = s.ops := by
  unfold writeCont; split <;> exact ⟨rfl, rfl, rfl⟩

theorem writeCont_mem (s : State) (c : Cont) (h : Memory.wf s.mem = true) (b : Nat)
    (hb : ∀ k, c.hbm = some k → b < contPhys s c.cl c.task.pid k ∨ contPhys s c.cl c.task.pid k + (contBytes c).length ≤ b) :
    rdCell (writeCont s c).mem b = rdCell s.mem b := by
  unfold writeCont
  split
  · rename_i k hk
    rw [wrMem_mem, rdCell_wrBytes _ _ _ _ h, if_neg]
    rcases hb k hk with h | h <;> omega
  · rfl

theorem carries_hbm {t : Strand} {c : Cont} (h : Carries t c) (k : Option Nat) : Carries t { c with hbm := k } := h

theorem carries_contOf (s : State) (t : Strand) : Carries t (contOf s t) :=
  ⟨rfl, rfl, rfl, rfl, rfl, rfl, rfl, fun r => by simp [contOf], fun r => by simp [contOf]⟩

/-- The strand leaves its lane with a continuation; memory changes only in records that the segment held and in the continuation's
own record (R152, R229, R230). -/
theorem left_splitNow (s : State) (t : Strand) (c : Cont) (hc : Carries t c) :
    ∃ k, Left s (splitNow { s with strands := tabDel s.strands (laneKey t) } t c) t { c with hbm := k }
      ∧ (Memory.wf s.mem = true → ∀ b, (∀ x ∈ t.seg.xl, OffRec s t.task.pid b x.fri) →
          (∀ j, k = some j → b < contPhys s c.cl c.task.pid j ∨ contPhys s c.cl c.task.pid j + (contBytes { c with hbm := k }).length ≤ b) →
          rdCell (splitNow { s with strands := tabDel s.strands (laneKey t) } t c).mem b = rdCell s.mem b) := by
  let s0 : State := { s with strands := tabDel s.strands (laneKey t) }
  obtain ⟨h1, h2, h3, h4⟩ := closeSegment_keeps (gangEnd s0 t false) t
  rw [gangEnd_strands] at h1
  rw [gangEnd_conts] at h2
  rw [gangEnd_ops] at h3
  rw [gangEnd_parts] at h4
  obtain ⟨k, hk⟩ := addCont_eq (dropDead (closeSegment (gangEnd s0 t false) t) t) c
  change splitNow s0 t c = _ at hk
  generalize hw : ({ dropDead (closeSegment (gangEnd s0 t false) t) t with
    conts := (dropDead (closeSegment (gangEnd s0 t false) t) t).conts ++ [{ c with hbm := k }] } : State) = s1 at hk
  obtain ⟨k1, k2, k3⟩ := writeCont_keeps s1 { c with hbm := k }
  refine ⟨k, ⟨?_, ?_, ?_, carries_hbm hc k⟩, fun hwf b hb hj => ?_⟩
  · rw [show splitNow _ t c = _ from hk, k1, ← hw]
    exact (congrArg (fun l => tabGet l (laneKey t)) h1).trans (tabGet_tabDel_same _ _)
  · rw [show splitNow _ t c = _ from hk, k2, ← hw]
    exact congrArg (· ++ [({ c with hbm := k } : Cont)]) h2
  · rw [show splitNow _ t c = _ from hk, k3, ← hw]
    exact sameOps_dropDead t h3
  · obtain ⟨m1, m2⟩ := closeSegment_mem (gangEnd s0 t false) t (by rw [gangEnd_mem]; exact hwf)
    have hp : s1.parts = s.parts := by rw [← hw]; exact h4
    have hm : s1.mem = (closeSegment (gangEnd s0 t false) t).mem := by rw [← hw]; rfl
    rw [show splitNow _ t c = _ from hk, writeCont_mem s1 _ (by rw [hm]; exact m1), hm, m2, gangEnd_mem]
    · intro x hx
      exact (offRec_congr (gangEnd_parts ..) ..).mpr (hb x hx)
    · intro j hkj
      rw [contPhys_congr hp]
      exact hj j hkj



/-! ### Splits (R225-R228) -/

theorem implicitCont_other (s : State) (t : Strand) (n : Nat) {event : Nat} (evarg : Word) (a : Nat) (f : Bool) (h : event ≠ 2) :
    implicitCont s t n event evarg a f = { contOf s t with
      ts := t.seg.boff + n / 8, resume := n % 8, event := event, evarg := evarg, evAddr := a, fired := f } := if_pos h

theorem implicitCont_watched (s : State) (t : Strand) (n : Nat) (evarg : Word) (a : Nat) (f : Bool) (h : watchesUsed s t.cl < 64) :
    implicitCont s t n 2 evarg a f = { contOf s t with
      ts := t.seg.boff + n / 8, resume := n % 8, event := 2, evarg := evarg, evAddr := a, watch := true, fired := feGet s a } := by
  simp only [implicitCont, ne_eq, not_true_eq_false, if_false, h, if_true]

theorem implicitCont_unwatched (s : State) (t : Strand) (n : Nat) (evarg : Word) (a : Nat) (f : Bool)
    (h : 64 ≤ watchesUsed s t.cl) :
    implicitCont s t n 2 evarg a f = { contOf s t with
      ts := t.seg.boff + n / 8, resume := n % 8, event := 7, evarg := BitVec.ofNat 64 (tickNow s + 64), evAddr := a, fired := f } := by
  simp only [implicitCont, ne_eq, not_true_eq_false, if_false, Nat.not_lt.mpr h]

theorem carries_implicitCont (s : State) (t : Strand) (n event : Nat) (evarg : Word) (a : Nat) (f : Bool) :
    Carries t (implicitCont s t n event evarg a f) := by
  unfold implicitCont
  dsimp only
  split_ifs <;> exact carries_contOf s t

theorem atItself_implicitCont (s : State) (t : Strand) (n event : Nat) (evarg : Word) (a : Nat) (f : Bool) :
    AtItself t (implicitCont s t n event evarg a f) := by
  unfold implicitCont
  dsimp only
  split_ifs <;> exact ⟨rfl, rfl, rfl, rfl⟩

theorem settled_congr {s s' : State} (h : s'.cycle = s.cycle) (t : Strand) : settled s' t = settled s t := by
  rw [settled, settled, pendEnd, pendEnd, h]

theorem implicitSplit_settled {s : State} {t : Strand} (event : Nat) (evarg : Word) (a : Nat) (h : settled s t = true) :
    implicitSplit s t event evarg a =
      splitNow { s with strands := tabDel s.strands (laneKey t) } t (implicitCont s t (relCycle t s) event evarg a false) := by
  simp only [implicitSplit, h, if_true]

theorem implicitSplit_waits {s : State} {t : Strand} (event : Nat) (evarg : Word) (a : Nat) (h : settled s t = false) :
    implicitSplit s t event evarg a = stopStrand s t (.split (relCycle t s) event evarg a false) := by
  simp only [implicitSplit, h, Bool.false_eq_true, if_false]

/-- A strand that stops leaves its lane with its registers and its writes under way. -/
theorem stopStrand_stops (s : State) (t : Strand) (e : Ending) :
    tabGet (stopStrand s t e).strands (laneKey t) = none ∧ { t with ending := some e } ∈ (stopStrand s t e).parked :=
  ⟨tabGet_tabDel_same _ _, List.mem_append_right _ (List.mem_singleton_self _)⟩

/-- An unmet condition splits the segment at the instruction. -/
theorem splitsFrom_of_implicitSplit {i : Instr} {s s0 : State} {t : Strand} {event : Nat} {evarg : Word} {a : Nat}
    (hx : exec i s = .next (implicitSplit s0 t event evarg a)) (hc : s0.cycle = s.cycle)
    (hw : event = 2 → watchesUsed s0 t.cl < 64) : SplitsFrom i s s0 t event evarg := by
  refine ⟨fun h => ?_, fun h => ?_⟩
  · rw [← settled_congr hc] at h
    obtain ⟨k, hl, -⟩ := left_splitNow s0 t _ (carries_implicitCont s0 t (relCycle t s0) event evarg a false)
    refine ⟨_, _, by rw [hx, implicitSplit_settled _ _ _ h], hl, atItself_implicitCont s0 t .., ?_⟩
    by_cases he : event = 2
    · subst he
      rw [implicitCont_watched _ _ _ _ _ _ (hw rfl)]
      exact ⟨rfl, rfl⟩
    · rw [implicitCont_other _ _ _ _ _ _ he]
      exact ⟨rfl, rfl⟩
  · rw [← settled_congr hc] at h
    obtain ⟨h1, h2⟩ := stopStrand_stops s0 t (.split (relCycle t s0) event evarg a false)
    refine ⟨_, _, by rw [hx, implicitSplit_waits _ _ _ h], h1, h2, ⟨rfl, rfl, rfl, rfl, rfl, rfl, rfl, rfl, rfl, rfl⟩,
      rfl, rfl, rfl, a, ?_⟩
    simp only [relCycle, hc]

theorem splitWith_settled {s : State} {t : Strand} (c : Cont) (h : settled s t = true) :
    splitWith s t c = splitNow { s with strands := tabDel s.strands (laneKey t) } t c := by
  simp only [splitWith, h, if_true]

theorem splitWith_waits {s : State} {t : Strand} (c : Cont) (h : settled s t = false) :
    splitWith s t c = putStrand s { t with hold := pendEnd s t } := by
  simp only [splitWith, h, Bool.false_eq_true, if_false]

/-- A form that ends its segment leaves the continuation that it makes. -/
theorem splits_of_splitWith {i : Instr} {s : State} {t : Strand} {c : Cont} {p : Cont → Prop}
    (hx : exec i s = .next (splitWith s t c)) (hc : Carries t c) (hp : ∀ k, p { c with hbm := k }) : Splits i s t p := by
  refine ⟨fun h => ?_, fun h => hx.trans (by rw [splitWith_waits c h])⟩
  obtain ⟨k, hl, -⟩ := left_splitNow s t c hc
  exact ⟨_, _, hx.trans (by rw [splitWith_settled c h]), hl, hp k⟩



/-! ### LDF (R167, R228, R233) -/

/-- What LDF does with the word at `va`, whose place is `a`. -/
def takeWord (s : State) (t : Strand) (data : R6) (va : Va) (a : Nat) : State :=
  if feGet s a then putStrand (feSet (correctSoft s a 8) a false) (advance (setG s.cycle 6 data (rd64 s a) { t with idle := 0 }))
  else if pipeBound s t va && decide (t.idle < 8) then putStrand s { t with idle := t.idle + 1, hold := s.cycle + 8, reach := none }
  else implicitSplit s t 2 (toW va) (wordOf a)

/-- LDF with its checks passed. -/
theorem ldf_on {g : Guard} {data : R6} {m : MemOp} {s : State} {t : Strand} (h : Ready s t (.ldf g data m) g)
    (ha : accessCause s t .take .page (effAddr m t) 8 8 = none) :
    exec (.ldf g data m) s = .next (takeWord s t data (effAddr m t) (accessPhys s t (effAddr m t))) := by
  simp only [exec]
  exact scalarOp_on _ h ha

theorem takes_of_ldf {g : Guard} {data : R6} {m : MemOp} {s : State} {t : Strand} (h : Ready s t (.ldf g data m) g)
    (ha : accessCause s t .take .page (effAddr m t) 8 8 = none) (hf : feGet s (accessPhys s t (effAddr m t)) = true) :
    let a := accessPhys s t (effAddr m t)
    ∃ s' t', Lands (.ldf g data m) s s' t' ∧ OnlyG data (rd64 s a) t t' ∧ SameMem s s' ∧ feGet s' a = false
      ∧ ∀ b, wordOf b ≠ wordOf a → feGet s' b = feGet s b := by
  intro a
  have hx := ldf_on h ha
  rw [takeWord, if_pos hf] at hx
  refine ⟨_, _, ⟨hx, putStrand_lands _ _ _ (correctSoft_cur ..)⟩, onlyG_setG s.cycle 6 data _ { t with idle := 0 }, fun b => by simp,
    feGet_feSet_same (correctSoft s a 8) a false, fun b hb => ?_⟩
  exact (feGet_feSet_ne _ false hb).trans (feGet_congr (correctSoft_fe ..) b)

/-- An empty word that no further window of a bound pipe tries. -/
theorem ldf_splits {g : Guard} {data : R6} {m : MemOp} {s : State} {t : Strand} (h : Ready s t (.ldf g data m) g)
    (ha : accessCause s t .take .page (effAddr m t) 8 8 = none) (hf : feGet s (accessPhys s t (effAddr m t)) = false)
    (hb : pipeBound s t (effAddr m t) = true → 8 ≤ t.idle) :
    exec (.ldf g data m) s =
      .next (implicitSplit s t 2 (toW (effAddr m t)) (wordOf (accessPhys s t (effAddr m t)))) := by
  have hx := ldf_on h ha
  rw [takeWord, if_neg (by simp [hf]), if_neg (by simp only [Bool.and_eq_true, decide_eq_true_eq]; rintro ⟨h1, h2⟩; have := hb h1; omega)] at hx
  exact hx

/-! ### The other full-empty forms -/

theorem feq_on {g : Guard} {data : R6} {m : MemOp} {s : State} {t : Strand} (h : Ready s t (.feq g data m) g)
    (ha : accessCause s t .probe .page (effAddr m t) 8 8 = none) :
    exec (.feq g data m) s =
      .next (putStrand s (advance (setG s.cycle 6 data (b2w (feGet s (accessPhys s t (effAddr m t)))) t))) := by
  simp only [exec]
  exact scalarOp_on _ h ha

theorem stf_on {g : Guard} {data : R6} {m : MemOp} {s : State} {t : Strand} (h : Ready s t (.stf g data m) g)
    (ha : accessCause s t .store .pageEmpty (effAddr m t) 8 8 = none) :
    exec (.stf g data m) s = .next (putStrand (feFill (wr64 (relIf true t s) (accessPhys s t (effAddr m t)) (getG t data))
      (accessPhys s t (effAddr m t))) (advance t)) := by
  simp only [exec]
  exact scalarOp_on _ h ha

theorem clrf_on {g : Guard} {f : Bool} {m : MemOp} {s : State} {t : Strand} (h : Ready s t (.clrf g f m) g)
    (ha : accessCause s t .store .page (effAddr m t) 8 8 = none) :
    exec (.clrf g f m) s = .next (putStrand (if f then feFill s (accessPhys s t (effAddr m t))
      else feSet s (accessPhys s t (effAddr m t)) false) (advance t)) := by
  simp only [exec]
  exact scalarOp_on _ h ha

theorem rdN_congr {s s' : State} (h : s'.mem = s.mem) (a n : Nat) : rdN s' a n = rdN s a n := by rw [rdN, rdN, h]

theorem rd64_congr {s s' : State} (h : s'.mem = s.mem) (a : Nat) : rd64 s' a = rd64 s a := by rw [rd64, rd64, rdN_congr h]

theorem sameMemBut_of_mem {a n : Nat} {s s1 s2 : State} (h : s2.mem = s1.mem) (hs : SameMemBut a n s s1) : SameMemBut a n s s2 :=
  fun b hb => by rw [h]; exact hs b hb

theorem rd64_wr64 (s : State) (a : Nat) (x : Word) (h : Memory.wf s.mem = true) : rd64 (wr64 s a x) a = x := by
  rw [rd64, wr64, rdN_wrN_pow _ _ _ _ h x.isLt, BitVec.ofNat_toNat, BitVec.setWidth_eq]

theorem feFill_wr64_cur (s : State) (a : Nat) (x : Word) : (feFill (wr64 s a x) a).cur = s.cur := rfl

theorem stores_of_stf {g : Guard} {data : R6} {m : MemOp} {s : State} {t : Strand} (h : Ready s t (.stf g data m) g)
    (ha : accessCause s t .store .pageEmpty (effAddr m t) 8 8 = none) :
    let a := accessPhys s t (effAddr m t)
    ∃ s' t', Lands (.stf g data m) s s' t' ∧ OnlyMoves t t' ∧ rd64 s' a = getG t data ∧ SameMemBut a 8 (relIf true t s) s'
      ∧ feGet s' a = true ∧ ∀ b, wordOf b ≠ wordOf a → feGet s' b = feGet (relIf true t s) b := by
  intro a
  have hwf := inv_relIf true t s h.1.1
  let s1 := wr64 (relIf true t s) a (getG t data)
  let s2 := putStrand (feFill s1 a) (advance t)
  have hc : (feFill s1 a).cur = s.cur := (feFill_wr64_cur _ a (getG t data)).trans (sameFrame_relIf true t s).1
  have hm : s2.mem = s1.mem := rfl
  have hr : rd64 s2 a = getG t data := by rw [rd64_congr hm a, rd64_wr64 (relIf true t s) a (getG t data) hwf]
  have hb : SameMemBut a 8 (relIf true t s) s2 :=
    sameMemBut_of_mem hm (sameMemBut_wrN (relIf true t s) a 8 (getG t data).toNat hwf)
  have hf : feGet s2 a = true := feGet_feFill_same s1 a
  have hne : ∀ b, wordOf b ≠ wordOf a → feGet s2 b = feGet s1 b := fun b hb => feGet_feFill_ne s1 hb
  exact ⟨s2, _, ⟨stf_on h ha, putStrand_lands _ _ _ hc⟩, onlyMoves_advance t, hr, hb, hf, hne⟩

theorem sets_of_clrf {g : Guard} {f : Bool} {m : MemOp} {s : State} {t : Strand} (h : Ready s t (.clrf g f m) g)
    (ha : accessCause s t .store .page (effAddr m t) 8 8 = none) :
    let a := accessPhys s t (effAddr m t)
    ∃ s' t', Lands (.clrf g f m) s s' t' ∧ OnlyMoves t t' ∧ SameMem s s' ∧ feGet s' a = f
      ∧ ∀ b, wordOf b ≠ wordOf a → feGet s' b = feGet s b := by
  intro a
  cases f
  · exact ⟨_, _, ⟨clrf_on h ha, putStrand_lands _ _ _ rfl⟩, onlyMoves_advance t, fun b => rfl, feGet_feSet_same s a false,
      fun b hb => feGet_feSet_ne s false hb⟩
  · exact ⟨_, _, ⟨clrf_on h ha, putStrand_lands _ _ _ rfl⟩, onlyMoves_advance t, fun b => rfl, feGet_feFill_same s a,
      fun b hb => feGet_feFill_ne s hb⟩

/-- Settles O24: each form is its access rule with the effective address of R44; LDF takes, tries again, or splits. -/
theorem scalarAccess : Obligations.ScalarAccess := by
  refine ⟨fun g data sz sg o m s t => ?_, fun g data sz o f m s t => ?_, fun g data m s t => ?_⟩
  · rw [← effAddr_eq]
    refine ⟨loads_of_loadOp rfl, loads_of_loadOp rfl, fun h ha => ?_⟩
    exact ⟨_, _, ⟨feq_on h ha, putStrand_lands _ _ _ rfl⟩, onlyG_setG .., fun b => rfl, rfl⟩
  · intro n va a
    exact ⟨stores_of_storeOp rfl, stores_of_storeOp rfl, stores_of_stf, sets_of_clrf⟩
  · intro va a h ha
    refine ⟨takes_of_ldf h ha, fun hf hb hi => ?_, fun hf hb => ⟨fun hw => ?_, fun hs hw => ?_, fun hs => ?_⟩⟩
    · have hx := ldf_on h ha
      rwa [takeWord, if_neg (Bool.eq_false_iff.mp hf), if_pos (Bool.and_eq_true_iff.mpr ⟨hb, decide_eq_true hi⟩)] at hx
    · exact splitsFrom_of_implicitSplit (ldf_splits h ha hf hb) rfl (fun _ => hw)
    · obtain ⟨k, hl, -⟩ := left_splitNow s t _ (carries_implicitCont s t (relCycle t s) 2 (toW va) (wordOf a) false)
      refine ⟨_, _, (ldf_splits h ha hf hb).trans (by rw [implicitSplit_settled _ _ _ hs]), hl, atItself_implicitCont s t .., ?_⟩
      rw [implicitCont_unwatched _ _ _ _ _ _ hw]
      exact ⟨rfl, rfl⟩
    · obtain ⟨k, hl, hm⟩ := left_splitNow s t _ (carries_implicitCont s t (relCycle t s) 2 (toW va) (wordOf a) false)
      refine ⟨_, _, (ldf_splits h ha hf hb).trans (by rw [implicitSplit_settled _ _ _ hs]), hl, fun hw => ?_, fun b hx hk => ?_⟩
      · rw [implicitCont_watched _ _ _ _ _ _ hw]
      · refine hm h.1.1 b hx (fun j hj => ?_)
        have hcl : (implicitCont s t (relCycle t s) 2 (toW va) (wordOf a) false).cl = t.cl := by
          unfold implicitCont; dsimp only; split_ifs <;> rfl
        have ht : (implicitCont s t (relCycle t s) 2 (toW va) (wordOf a) false).task = t.task := (carries_implicitCont s t ..).1
        have hp : contPhys s (implicitCont s t (relCycle t s) 2 (toW va) (wordOf a) false).cl
            (implicitCont s t (relCycle t s) 2 (toW va) (wordOf a) false).task.pid j = contPhys s t.cl t.task.pid j := by rw [hcl, ht]
        rw [hp]
        exact hk j hj

/-! ### Lines that are due, in memory that is not canonical (R160) -/

/-- A strand whose store still has the byte 0 to write at 5. -/
def zeroDue : Strand := { State.reset.codeStrand with lineOut := [(0, 5, [0])] }

/-- A memory that lists address 5 before address 3: the 7 at 3 is hidden as long as 5 is listed. -/
def unsortedMemory : State := { State.reset with mem := [(5, 1), (3, 7)] }

theorem flushLines_unsortedMemory :
    rdCell unsortedMemory.mem 3 = 0 ∧ rdCell (flushLines unsortedMemory zeroDue).2.mem 3 = 7 := by decide

/-- Refutes O26: its clause on the lines that are due speaks of every state, also of one whose memory is not in canonical form.
Where address 5 stands before address 3, storing a zero at 5 takes 5 out of the list and so uncovers the byte listed at 3. -/
theorem not_vectorAccess : ¬ Obligations.VectorAccess := by
  unfold Obligations.VectorAccess
  rintro ⟨-, -, -, h⟩
  obtain ⟨hoff, -⟩ := h unsortedMemory zeroDue
  obtain ⟨h1, h2⟩ := flushLines_unsortedMemory
  have hsame := hoff 3 (by decide)
  rw [h1, h2] at hsame
  exact absurd hsame (by decide)

/-! ### Registers that become pending and keep their value (R237, R338) -/

theorem addPend_mem {now lat : Nat} (r : RegRef) (t : Strand) (h : 1 < lat) : (r, now + lat) ∈ (addPend now lat r t).pend := by
  rw [addPend, if_neg (by omega)]
  exact List.mem_cons_self ..

theorem setG_self_g (now lat : Nat) (d : R6) (t : Strand) : (setG now lat d (getG t d) t).g = t.g := by
  by_cases h : d = 0
  · rw [setG, if_pos h]
  · have hg : getG t d = t.g[d.toNat] := by simp only [getG, if_neg h]
    simp only [setG, if_neg h, addPend_g, hg]
    exact Vector.set_getElem_self d.isLt

theorem p_eq_of_getP {t t' : Strand} (h : ∀ r, getP t' r = getP t r) : t'.p = t.p := by
  apply BitVec.eq_of_getLsbD_eq
  intro j hj
  have hr := h (BitVec.ofNat 3 j)
  have hne : BitVec.ofNat 3 j ≠ 7 := fun e => by
    have := congrArg BitVec.toNat e
    simp only [BitVec.toNat_ofNat, BitVec.ofNat_eq_ofNat] at this
    omega
  simp only [getP, if_neg hne, BitVec.toNat_ofNat, Nat.mod_eq_of_lt (show j < 2 ^ 3 by omega)] at hr
  exact hr

theorem setP_self_p (now lat : Nat) (d : BitVec 3) (t : Strand) : (setP now lat d (getP t d) t).p = t.p :=
  p_eq_of_getP fun r => by
    rw [getP_setP]
    split
    · rename_i h; rw [h.1]
    · rfl

/-! ### Forms that issue one operation (R185) -/

theorem requests_of_engineOp {i : Instr} {g : Guard} {k : OpKind} {d c : R6} {args : Strand → List Word} {s : State} {t : Strand}
    (hx : exec i s = engineOp i g c (fun t s => mkOp s t k (some c) (dstG d) 4 (args t)) s) :
    Requests i g s t k c (dstG d) (args t) := by
  refine fun h _ => ⟨fun hc => issues_of_engineOp hx h hc ⟨rfl, rfl, rfl, rfl⟩, fun hc => ⟨raise i .counter s t 0, ?_, faulted_raise ..⟩⟩
  rw [hx, engineOp, issue_on _ _ h]
  have hf : ctrFull t c = true := by simpa [CtrFree] using hc
  simp only [hf, if_true]

theorem requests_of_supPageOp {i : Instr} {g : Guard} {k : OpKind} {d c : R6} {args : Strand → List Word} {s : State} {t : Strand}
    (hx : exec i s = supPageOp i g k d c args s) (hp : permitted s t i = isSup t) : Requests i g s t k c (dstG d) (args t) := by
  intro h hs
  rw [hp] at hs
  have hon := hx.trans (issueSup_on _ h hs)
  simp only [leaseHit_of_ready h, Bool.false_eq_true, if_false] at hon
  refine ⟨fun hc => ?_, fun hc => ⟨raise i .counter s t 0, ?_, faulted_raise ..⟩⟩
  · simp only [CtrFree] at hc
    rw [hc, if_neg Bool.false_ne_true] at hon
    exact issues_of_issueOp hon rfl rfl rfl rfl rfl rfl rfl rfl rfl rfl ⟨rfl, rfl, rfl, rfl⟩ rfl rfl rfl rfl rfl rfl rfl
      ⟨rfl, rfl, rfl, rfl, rfl, rfl⟩ rfl rfl rfl
  · have hf : ctrFull t c = true := by simpa [CtrFree] using hc
    rwa [hf, if_pos rfl] at hon

/-! ### Stream requests (R329, R337) -/

theorem arrivalOf_keeps (s : State) (o : Op) :
    (arrivalOf s o).2.cur = s.cur ∧ (arrivalOf s o).2.ops = s.ops ∧ (arrivalOf s o).2.nextId = s.nextId := by
  unfold arrivalOf
  split <;> exact ⟨rfl, rfl, rfl⟩

theorem issueReq_eq (s : State) (t : Strand) (o : Op) :
    issueReq s t o = issueOp (arrivalOf s o).2 t { o with arr := (arrivalOf s o).1 } := rfl

/-- The request that a stream form makes. -/
def streamReq (s : State) (t : Strand) (d c : R6) (args : List Word) : Op := mkOp s t .stream (some c) (dstG d) 4 args

theorem issues_of_issueReq {i : Instr} {s : State} {t : Strand} {d c : R6} {args : List Word} {p : Op → Prop}
    (hx : exec i s = .next (issueReq s t (streamReq s t d c args)))
    (hp : ∀ a, p { streamReq s t d c args with arr := a }) : Issues i s t .stream (some c) (dstG d) p := by
  obtain ⟨h1, h2, h3⟩ := arrivalOf_keeps s (streamReq s t d c args)
  rw [issueReq_eq] at hx
  exact issues_of_issueOp hx h1 h2 h3 rfl rfl rfl rfl rfl rfl rfl (hp _) rfl rfl rfl rfl rfl rfl rfl
    ⟨rfl, rfl, rfl, rfl, rfl, rfl⟩ rfl rfl rfl

/-- The die that a request goes to: its stream's, or without one its own. -/
theorem reqDie_streamReq (s : State) (t : Strand) (d c : R6) (w x : Word) (l : List Word) (a : Nat) :
    reqDie s { streamReq s t d c (w :: x :: l) with arr := a } = match sidHome s t.task.pid (x.toNat % 2 ^ 24) with
      | some (h, pkg) => if pkg = Config.torus.toNat then some h else none
      | none => some (dieOf t.cl) := by
  simp only [reqDie, streamReq, mkOp, ne_eq, not_true_eq_false, false_or, Nat.zero_ne_one, if_false]
  rfl

/-- A stream form that issues its request when its counter is not full. -/
theorem requests_of_issueReq {i : Instr} {g : Guard} {d c : R6} {w x : Word} {l : List Word} {s : State} {t : Strand}
    (hx : Ready s t i g → permitted s t i = true →
      exec i s = .next (if ctrFull t c then raise i .counter s t 0 else issueReq s t (streamReq s t d c (w :: x :: l)))) :
    Requests i g s t .stream c (dstG d) (w :: x :: l)
      ∧ (Ready s t i g → permitted s t i = true → CtrFree t c → Issues i s t .stream (some c) (dstG d) (fun o =>
          reqDie s o = match sidHome s t.task.pid (x.toNat % 2 ^ 24) with
            | some (h, pkg) => if pkg = Config.torus.toNat then some h else none
            | none => some (dieOf t.cl))) := by
  have hfree : Ready s t i g → permitted s t i = true → CtrFree t c →
      exec i s = .next (issueReq s t (streamReq s t d c (w :: x :: l))) := fun h hp hc => by
    rw [hx h hp, if_neg (by rw [hc]; exact Bool.false_ne_true)]
  refine ⟨fun h hp => ⟨fun hc => issues_of_issueReq (hfree h hp hc) fun a => ⟨rfl, rfl, rfl, rfl⟩, fun hc => ?_⟩,
    fun h hp hc => issues_of_issueReq (hfree h hp hc) (reqDie_streamReq s t d c w x l)⟩
  have hf : ctrFull t c = true := by simpa [CtrFree] using hc
  exact ⟨_, (hx h hp).trans (by rw [if_pos hf]), faulted_raise ..⟩

theorem streamOp_on {i : Instr} {g : Guard} {form m : Nat} {d c : R6} {a b : Strand → Word} {s : State} {t : Strand}
    (hx : exec i s = streamOp i g form d c a b m s) (h : Ready s t i g) :
    exec i s = .next (if ctrFull t c then raise i .counter s t 0
      else issueReq s t (streamReq s t d c [BitVec.ofNat 64 form, a t, b t, BitVec.ofNat 64 m])) := hx.trans (issue_on _ _ h)

theorem ssetC_on {g : Guard} {d a c : R6} {s : State} {t : Strand} (h : Ready s t (.ssetC g d a c) g)
    (hp : permitted s t (.ssetC g d a c) = true) :
    exec (.ssetC g d a c) s = .next (if ctrFull t c then raise (.ssetC g d a c) .counter s t 0
      else issueReq s t (streamReq s t d c [11, getG t a, 0, 0])) := by
  simp only [exec, execSsetC]
  rw [issueSup_on _ h hp]
  simp only [leaseHit_of_ready h, Bool.false_eq_true, if_false]
  rfl

theorem toW_eq {n : Nat} (x : BitVec n) : toW x = BitVec.ofNat 64 x.toNat :=
  BitVec.eq_of_toNat_eq (by simp [toW])

theorem requests_of_pgset (g : Guard) (d a b c : R6) (sel : BitVec 2) (s : State) (t : Strand) :
    Requests (.pgset g d a b c sel) g s t .pgset c (dstG d) [getG t a, getG t b, BitVec.ofNat 64 sel.toNat] := by
  rw [← toW_eq]
  by_cases h : sel.toNat < 2
  · refine requests_of_engineOp (args := fun t => [getG t a, getG t b, toW sel]) ?_
    simp only [exec, execPgset, if_pos h]
    rfl
  · refine requests_of_supPageOp (args := fun t => [getG t a, getG t b, toW sel]) ?_ ?_
    · simp only [exec, execPgset, if_neg h]
    · simp only [permitted, decide_eq_false h, Bool.false_or]

/-- SFORK issues its request without a counter; its registers wait for tick t + 4 (R338). -/
def sforkOp (s : State) (t : Strand) (sh : Bool) (d a b pt : R6) : Op :=
  { mkOp s t .stream none none 4 [0, getG t a, getG t b, b2w sh, BitVec.ofNat 64 d.toNat, BitVec.ofNat 64 pt.toNat] with
    i := 1, deps := [] }

/-- The strand behind SFORK but for its triple. -/
def sforkStrand (s : State) (t : Strand) (d pt : R6) : Strand :=
  let lat := 8 * (tickNow s + 4) - s.cycle
  { setP s.cycle lat (low3 pt) (getP t (low3 pt)) (setG s.cycle lat d (getG t d) t) with lastFork := tickNow s + 1 }

theorem sfork_on {g : Guard} {f : Bool} {d a b pt : R6} {s : State} {t : Strand} (h : Ready s t (.sfork g f d a b pt) g) :
    exec (.sfork g f d a b pt) s = .next (issueOp s (sforkStrand s t d pt) (sforkOp s t f d a b pt)) := by
  simp only [exec]
  exact issue_on _ _ h

theorem sforkStrand_g (s : State) (t : Strand) (d pt : R6) : (sforkStrand s t d pt).g = t.g :=
  (setP_g ..).trans (setG_self_g ..)

theorem sforkStrand_p (s : State) (t : Strand) (d pt : R6) : (sforkStrand s t d pt).p = t.p := by
  have hp : getP t (low3 pt) = getP (setG s.cycle (8 * (tickNow s + 4) - s.cycle) d (getG t d) t) (low3 pt) := by simp [getP]
  simp only [sforkStrand]
  rw [hp, setP_self_p, setG_p]

theorem fork_delay (s : State) : 1 < 8 * (tickNow s + 4) - s.cycle ∧ s.cycle + (8 * (tickNow s + 4) - s.cycle) = 8 * (tickNow s + 4) := by
  unfold tickNow; omega

theorem sforkStrand_pend_g (s : State) (t : Strand) {d pt : R6} (h : d ≠ 0) :
    (RegRef.g d.toNat, 8 * (tickNow s + 4)) ∈ (sforkStrand s t d pt).pend := by
  obtain ⟨h1, h2⟩ := fork_delay s
  have hg : (RegRef.g d.toNat, 8 * (tickNow s + 4)) ∈ (setG s.cycle (8 * (tickNow s + 4) - s.cycle) d (getG t d) t).pend := by
    rw [setG, if_neg h]
    have := addPend_mem (now := s.cycle) (RegRef.g d.toNat) { t with g := t.g.set d.toNat (getG t d) } h1
    rwa [h2] at this
  simp only [sforkStrand, setP]
  split
  · exact hg
  · rw [addPend, if_neg (by omega)]
    exact List.mem_cons_of_mem _ hg

theorem sforkStrand_pend_p (s : State) (t : Strand) {d pt : R6} (h : low3 pt ≠ 7) :
    (RegRef.p (low3 pt).toNat, 8 * (tickNow s + 4)) ∈ (sforkStrand s t d pt).pend := by
  obtain ⟨h1, h2⟩ := fork_delay s
  simp only [sforkStrand, setP, if_neg h]
  have := fun u => addPend_mem (now := s.cycle) (RegRef.p (low3 pt).toNat) u h1
  rw [h2] at this
  exact this _

theorem issues_of_sfork {g : Guard} {f : Bool} {d a b pt : R6} {s : State} {t : Strand} (h : Ready s t (.sfork g f d a b pt) g) :
    Issues (.sfork g f d a b pt) s t .stream none none (fun o =>
      o.args = [0, getG t a, getG t b, if f then 1 else 0, BitVec.ofNat 64 d.toNat, BitVec.ofNat 64 pt.toNat]
        ∧ reqDie s o = some (dieOf t.cl)) := by
  refine issues_of_issueOp (sfork_on h) rfl rfl rfl rfl rfl rfl rfl rfl rfl rfl ⟨rfl, if_pos (Or.inr rfl)⟩ (sforkStrand_g ..) ?_ ?_
    (sforkStrand_p ..) ?_ ?_ ?_ ⟨?_, ?_, ?_, ?_, ?_, ?_⟩ ?_ ?_ ?_ <;> simp [sforkStrand]

theorem walker_requests (g : Guard) (d a b c : R6) (p2 : BitVec 2) (p3 : BitVec 3) (p4 : BitVec 4) (pte : BitVec 8) (pub : Bool)
    (s : State) (t : Strand) (i : Instr) (k : OpKind) (args : List Word)
    (hm : (i, k, args) ∈ ([
         (.pgalloc g d a b c, .pgalloc, [getG t a, getG t b]), (.pgfree g d a c, .pgfree, [getG t a]),
         (.pgref g d a b c, .pgref, [getG t a, getG t b]), (.pgcow g d a b c, .pgcow, [getG t a, getG t b]),
         (.pgset g d a b c p2, .pgset, [getG t a, getG t b, BitVec.ofNat 64 p2.toNat]),
         (.pgget g d a c p3, .pgget, [getG t a, 0, BitVec.ofNat 64 p3.toNat]),
         (.pgpin g d a c, .pgpin, [getG t a]), (.pgunpin g d a c, .pgunpin, [getG t a]),
         (.pgspill g d a c, .pgspill, [getG t a]), (.pgfill g d a c, .pgfill, [getG t a]),
         (.pgmap g d a b c pte, .pgmap, [getG t a, getG t b, BitVec.ofNat 64 pte.toNat]), (.pgunmap g d a c, .pgunmap, [getG t a]),
         (.kvsplice g d a b c, .kvsplice, [getG t a, getG t b, getG t (b + 1)]),
         (.kvspliceS g d a b c, .kvspliceS, [getG t a, getG t b]), (.kvtrim g d a b c, .kvtrim, [getG t a, getG t b]),
         (.rampset g pub d a b c, .rampset, [getG t a, if pub then 0 else getG t b, if pub then 1 else 0]),
         (.domset g d a b c, .domset, [getG t a, getG t b]),
         (.domget g d a c p4, .domget, [getG t a, BitVec.ofNat 64 p4.toNat])] : List (Instr × OpKind × List Word))) :
    Requests i g s t k c (dstG d) args := by
  simp only [List.mem_cons, List.not_mem_nil, or_false, Prod.mk.injEq] at hm
  rcases hm with ⟨rfl, rfl, rfl⟩ | ⟨rfl, rfl, rfl⟩ | ⟨rfl, rfl, rfl⟩ | ⟨rfl, rfl, rfl⟩ | ⟨rfl, rfl, rfl⟩ | ⟨rfl, rfl, rfl⟩
    | ⟨rfl, rfl, rfl⟩ | ⟨rfl, rfl, rfl⟩ | ⟨rfl, rfl, rfl⟩ | ⟨rfl, rfl, rfl⟩ | ⟨rfl, rfl, rfl⟩ | ⟨rfl, rfl, rfl⟩ | ⟨rfl, rfl, rfl⟩
    | ⟨rfl, rfl, rfl⟩ | ⟨rfl, rfl, rfl⟩ | ⟨rfl, rfl, rfl⟩ | ⟨rfl, rfl, rfl⟩ | ⟨rfl, rfl, rfl⟩
  · exact requests_of_engineOp (args := fun t => [getG t a, getG t b]) rfl
  · exact requests_of_supPageOp (args := fun t => [getG t a]) rfl rfl
  · exact requests_of_supPageOp (args := fun t => [getG t a, getG t b]) rfl rfl
  · exact requests_of_engineOp (args := fun t => [getG t a, getG t b]) rfl
  · exact requests_of_pgset g d a b c p2 s t
  · rw [← toW_eq]
    exact requests_of_engineOp (args := fun t => [getG t a, 0, toW p3]) rfl
  · exact requests_of_engineOp (args := fun t => [getG t a]) rfl
  · exact requests_of_engineOp (args := fun t => [getG t a]) rfl
  · exact requests_of_engineOp (args := fun t => [getG t a]) rfl
  · exact requests_of_engineOp (args := fun t => [getG t a]) rfl
  · rw [← toW_eq]
    exact requests_of_supPageOp (args := fun t => [getG t a, getG t b, toW pte]) rfl rfl
  · exact requests_of_supPageOp (args := fun t => [getG t a]) rfl rfl
  · exact requests_of_engineOp (args := fun t => [getG t a, getG t b, getG t (b + 1)]) rfl
  · exact requests_of_engineOp (args := fun t => [getG t a, getG t b]) rfl
  · exact requests_of_engineOp (args := fun t => [getG t a, getG t b]) rfl
  · exact requests_of_engineOp (args := fun t => [getG t a, if pub then 0 else getG t b, b2w pub]) rfl
  · exact requests_of_engineOp (args := fun t => [getG t a, getG t b]) rfl
  · rw [← toW_eq]
    exact requests_of_engineOp (args := fun t => [getG t a, toW p4]) rfl


/-- A stream form goes to its stream's die with its code and operands. -/
theorem requests_of_streamOp {i : Instr} {g : Guard} {form m : Nat} {d c : R6} {a b : Strand → Word} {s : State} {t : Strand}
    (hx : exec i s = streamOp i g form d c a b m s) :
    Requests i g s t .stream c (dstG d) [BitVec.ofNat 64 form, a t, b t, BitVec.ofNat 64 m]
      ∧ (Ready s t i g → permitted s t i = true → CtrFree t c → Issues i s t .stream (some c) (dstG d) (fun o =>
          reqDie s o = match sidHome s t.task.pid ((a t).toNat % 2 ^ 24) with
            | some (h, pkg) => if pkg = Config.torus.toNat then some h else none
            | none => some (dieOf t.cl))) :=
  requests_of_issueReq fun h _ => streamOp_on hx h

theorem stream_requests (g : Guard) (d a b c : R6) (sel : BitVec 4) (f : Bool) (s : State) (t : Strand) (i : Instr)
    (args : List Word) (hm : (i, args) ∈ ([
           (.sjoin g f d a b c, [1, getG t a, getG t b, if f then 1 else 0]), (.sprune g d a c, [2, getG t a, 0, 0]),
           (.sact g d a b c, [3, getG t a, getG t b, 0]), (.shor g f d a b c, [5, getG t a, getG t b, if f then 1 else 0]),
           (.sstep g d a b c, [6, getG t a, getG t b, 0]), (.ssnap g d a b c, [7, getG t a, getG t b, 0]),
           (.spin g d a c, [8, getG t a, 0, 0]), (.spinU g d a c, [8, getG t a, 0, 1]),
           (.sget g d a c sel, [9, getG t a, 0, BitVec.ofNat 64 sel.toNat]),
           (.sset g d a b c sel, [10, getG t a, getG t b, BitVec.ofNat 64 sel.toNat]), (.ssetC g d a c, [11, getG t a, 0, 0])] :
           List (Instr × List Word))) :
    Requests i g s t .stream c (dstG d) args
      ∧ (Ready s t i g → permitted s t i = true → CtrFree t c → Issues i s t .stream (some c) (dstG d) (fun o =>
          reqDie s o = match sidHome s t.task.pid ((getG t a).toNat % 2 ^ 24) with
            | some (h, pkg) => if pkg = Config.torus.toNat then some h else none
            | none => some (dieOf t.cl))) := by
  simp only [List.mem_cons, List.not_mem_nil, or_false, Prod.mk.injEq] at hm
  rcases hm with ⟨rfl, rfl⟩ | ⟨rfl, rfl⟩ | ⟨rfl, rfl⟩ | ⟨rfl, rfl⟩ | ⟨rfl, rfl⟩ | ⟨rfl, rfl⟩ | ⟨rfl, rfl⟩ | ⟨rfl, rfl⟩ | ⟨rfl, rfl⟩
    | ⟨rfl, rfl⟩ | ⟨rfl, rfl⟩
  · cases f
    · exact requests_of_streamOp (form := 1) (a := fun t => getG t a) (b := fun t => getG t b) (m := 0) rfl
    · exact requests_of_streamOp (form := 1) (a := fun t => getG t a) (b := fun t => getG t b) (m := 1) rfl
  · exact requests_of_streamOp (form := 2) (a := fun t => getG t a) (b := fun _ => 0) (m := 0) rfl
  · exact requests_of_streamOp (form := 3) (a := fun t => getG t a) (b := fun t => getG t b) (m := 0) rfl
  · cases f
    · exact requests_of_streamOp (form := 5) (a := fun t => getG t a) (b := fun t => getG t b) (m := 0) rfl
    · exact requests_of_streamOp (form := 5) (a := fun t => getG t a) (b := fun t => getG t b) (m := 1) rfl
  · exact requests_of_streamOp (form := 6) (a := fun t => getG t a) (b := fun t => getG t b) (m := 0) rfl
  · exact requests_of_streamOp (form := 7) (a := fun t => getG t a) (b := fun t => getG t b) (m := 0) rfl
  · exact requests_of_streamOp (form := 8) (a := fun t => getG t a) (b := fun _ => 0) (m := 0) rfl
  · exact requests_of_streamOp (form := 8) (a := fun t => getG t a) (b := fun _ => 0) (m := 1) rfl
  · exact requests_of_streamOp (form := 9) (a := fun t => getG t a) (b := fun _ => 0) (m := sel.toNat) rfl
  · exact requests_of_streamOp (form := 10) (a := fun t => getG t a) (b := fun t => getG t b) (m := sel.toNat) rfl
  · exact requests_of_issueReq fun h hp => ssetC_on h hp

/-- Settles O27: the walker's and the homes' forms issue one counted operation, the stream forms one request to their stream's
die, and SFORK an uncounted one. -/
theorem engineRequests : Obligations.EngineRequests :=
  ⟨fun g d a b c p2 p3 p4 pte pub s t i k args hm => walker_requests g d a b c p2 p3 p4 pte pub s t i k args hm,
    fun g d a b c pt sel f s t => ⟨fun i args hm => stream_requests g d a b c sel f s t i args hm, fun h =>
      ⟨issues_of_sfork h, _, _, ⟨sfork_on h, issueOp_cur ..⟩, sforkStrand_pend_g s t, sforkStrand_pend_p s t⟩⟩⟩

/-! ### Data forms on a channel (R181-R198, R208) -/

/-- The operation of a data form before its channel numbers it. -/
def channelOp (s : State) (t : Strand) (k : OpKind) (c : R6) (dst : Option RegRef) (sc : Nat) (args : List Word)
    (l : List (Nat × Nat × Nat)) (bytes : List Byte) : Op :=
  { mkOp s t k (some c) dst sc args with leases := l, bytes := bytes }

section
variable {i : Instr} {g : Guard} {ch : Nat} {c : R6} {bad : Strand → Option Word} {mk : Strand → State → Op} {s : State} {t : Strand}

theorem dataForm_unbooked (hx : exec i s = dataForm i g ch c bad mk s) (h : Ready s t i g) (hb : chanBooked s t ch = false) :
    Raises i s t 7 :=
  ⟨raiseBooking i s t (25 + ch), hx.trans ((issue_on _ _ h).trans (by simp only [hb, Bool.not_false, if_true])), faulted_takeFault ..⟩

theorem dataForm_full (hx : exec i s = dataForm i g ch c bad mk s) (h : Ready s t i g) (hb : chanBooked s t ch = true)
    (hc : ¬ CtrFree t c) : Raises i s t 22 := by
  have hf : ctrFull t c = true := by simpa [CtrFree] using hc
  exact ⟨raise i .counter s t 0, hx.trans ((issue_on _ _ h).trans (by
    simp only [hb, hf, Bool.not_true, Bool.false_eq_true, if_false, if_true])), faulted_raise ..⟩

theorem dataForm_bad (hx : exec i s = dataForm i g ch c bad mk s) (h : Ready s t i g) (hb : chanBooked s t ch = true)
    (hc : CtrFree t c) (hbad : (bad t).isSome = true) : Raises i s t 5 := by
  obtain ⟨va, hva⟩ := Option.isSome_iff_exists.mp hbad
  simp only [CtrFree] at hc
  exact ⟨raise i .align s t va, hx.trans ((issue_on _ _ h).trans (by
    simp only [hb, hc, hva, Bool.not_true, Bool.false_eq_true, if_false])), faulted_raise ..⟩

theorem dataForm_splits (hx : exec i s = dataForm i g ch c bad mk s) (h : Ready s t i g) (hb : chanBooked s t ch = true)
    (hc : CtrFree t c) (hbad : (bad t).isSome = false) (hn : 16 ≤ (chanOps s t.cl ch).length) :
    SplitsHere i s t 3 (BitVec.ofNat 64 ch) := by
  have hnone : bad t = none := by simpa using hbad
  simp only [CtrFree] at hc
  refine splitsFrom_of_implicitSplit (a := 0) (hx.trans ((issue_on _ _ h).trans ?_)) rfl (fun e => absurd e (by decide))
  simp only [hb, hc, hnone, hn, Bool.not_true, Bool.false_eq_true, if_false, if_true]

theorem dataForm_issues {k : OpKind} {dst : Option RegRef} {sc : Nat} {args : List Word} {l : List (Nat × Nat × Nat)} {bytes : List Byte}
    (hx : exec i s = dataForm i g ch c bad mk s) (hmk : mk t s = channelOp s t k c dst sc args l bytes) (h : Ready s t i g)
    (hb : chanBooked s t ch = true) (hc : CtrFree t c) (hbad : (bad t).isSome = false) (hn : (chanOps s t.cl ch).length < 16) :
    Issues i s t k (some c) dst (fun o => o.args = args ∧ o.unit = ch ∧ o.scope = sc ∧ o.bytes = bytes ∧ o.deps = t.fence) := by
  have hnone : bad t = none := by simpa using hbad
  simp only [CtrFree] at hc
  have hon := hx.trans (issue_on _ _ h)
  simp only [hb, hc, hnone, hmk, Nat.not_le.mpr hn, Bool.not_true, Bool.false_eq_true, if_false] at hon
  obtain ⟨h1, -, -, -, h2, h3, -⟩ := sameFrame_relIf (opFills { channelOp s t k c dst sc args l bytes with
    unit := ch, seq := (tabGet (getClu s t.cl).chSeq ch).getD 0 }) t (updClu s t.cl (fun k =>
      { k with chSeq := tabSet k.chSeq ch (((tabGet (getClu s t.cl).chSeq ch).getD 0 + 1) % 2 ^ 16) }))
  exact issues_of_issueOp hon h1 h2 h3 rfl rfl rfl rfl rfl rfl rfl ⟨rfl, rfl, rfl, rfl, rfl⟩ rfl rfl rfl rfl rfl rfl rfl
    ⟨rfl, rfl, rfl, rfl, rfl, rfl⟩ rfl rfl rfl

end

/-- What a data form does, by booking, counter, alignment and room. -/
theorem dataForm_spec {i : Instr} {g : Guard} {ch : Nat} {c : R6} {bad : Strand → Option Word} {mk : Strand → State → Op} {s : State}
    {t : Strand} {k : OpKind} {dst : Option RegRef} {sc : Nat} {args : List Word} {l : List (Nat × Nat × Nat)} {bytes : List Byte} {b : Bool}
    (hx : exec i s = dataForm i g ch c bad mk s) (hmk : mk t s = channelOp s t k c dst sc args l bytes)
    (hbad : (bad t).isSome = b) (h : Ready s t i g) :
    (chanBooked s t ch = false → Raises i s t 7)
      ∧ (chanBooked s t ch = true →
          (¬ CtrFree t c → Raises i s t 22) ∧ (CtrFree t c → b = true → Raises i s t 5)
          ∧ (CtrFree t c → b = false → (chanOps s t.cl ch).length < 16 →
              Issues i s t k (some c) dst (fun o => o.args = args ∧ o.unit = ch ∧ o.scope = sc ∧ o.bytes = bytes ∧ o.deps = t.fence))
          ∧ (CtrFree t c → b = false → 16 ≤ (chanOps s t.cl ch).length → SplitsHere i s t 3 (BitVec.ofNat 64 ch))) := by
  subst hbad
  exact ⟨dataForm_unbooked hx h, fun hb => ⟨dataForm_full hx h hb, dataForm_bad hx h hb, dataForm_issues hx hmk h hb, dataForm_splits hx h hb⟩⟩

/-! ### Alignment of the operands -/

theorem alignBad_isSome (vas : List Word) (lens : List Nat) :
    (alignBad vas lens).isSome = (vas.any (fun v => v.toNat % 8 != 0) || lens.any (fun n => n % 8 != 0)) := by
  have hv : ∀ v : Word, va48 v % 8 = v.toNat % 8 := fun v => Nat.mod_mod_of_dvd _ (by decide)
  unfold alignBad
  cases h : vas.find? (fun v => va48 v % 8 != 0) with
  | some v =>
    have hany : vas.any (fun v => v.toNat % 8 != 0) = true :=
      List.any_eq_true.mpr ⟨v, List.mem_of_find?_eq_some h, by simpa [hv] using List.find?_some h⟩
    simp [hany]
  | none =>
    have hany : vas.any (fun v => v.toNat % 8 != 0) = false := by
      simpa [hv] using List.find?_eq_none.mp h
    simp only [hany, Bool.false_or]
    cases lens.any (fun n => n % 8 != 0) <;> rfl

theorem farBad_isSome (sz : BitVec 3) (va : Word) : (farBad sz va).isSome = (va.toNat % 2 ^ 48 % farSize sz != 0) := by
  unfold farBad va48
  by_cases h : va.toNat % 2 ^ 48 % farSize sz = 0
  · rw [if_neg (not_not.mpr h), h]
    rfl
  · rw [if_pos h, Option.isSome_some, bne_iff_ne.mpr h]

theorem lo32_mod8 (w : Word) : lo32 w % 8 = w.toNat % 8 := Nat.mod_mod_of_dvd _ (by decide)

theorem lo32_shift_mod8 (w : Word) : lo32 (w >>> 32) % 8 = w.toNat / 2 ^ 32 % 8 := by
  rw [lo32_mod8, BitVec.toNat_ushiftRight, Nat.shiftRight_eq_div_pow]

theorem alignBad_copy (x y n : Word) :
    (alignBad [x, y] [lo32 n]).isSome = ((x.toNat % 8 != 0 || y.toNat % 8 != 0) || n.toNat % 8 != 0) := by
  simp only [alignBad_isSome, List.any_cons, List.any_nil, Bool.or_false, lo32_mod8]

theorem alignBad_copy2d (x y n m : Word) :
    (alignBad [x, y] [lo32 n, lo32 m, lo32 (m >>> 32)]).isSome
      = ((x.toNat % 8 != 0 || y.toNat % 8 != 0) || n.toNat % 8 != 0 || m.toNat % 8 != 0 || m.toNat / 2 ^ 32 % 8 != 0) := by
  simp only [alignBad_isSome, List.any_cons, List.any_nil, Bool.or_false, lo32_mod8, BitVec.toNat_ushiftRight,
    Nat.shiftRight_eq_div_pow, Bool.or_assoc]

theorem alignBad_table (x y n : Word) :
    ((alignBad [x, y] [hi16 n]).or (if elemBad n then some 0 else none)).isSome
      = ((x.toNat % 8 != 0 || y.toNat % 8 != 0) || n.toNat / 2 ^ 32 % 2 ^ 16 % 8 != 0 || n.toNat / 2 ^ 32 % 2 ^ 16 == 0
          || decide (32768 < n.toNat / 2 ^ 32 % 2 ^ 16)) := by
  have helem : (if elemBad n then some (0 : Word) else none).isSome = elemBad n := by cases elemBad n <;> rfl
  rw [Option.isSome_or, alignBad_isSome, helem]
  simp only [List.any_cons, List.any_nil, Bool.or_false, elemBad, hi16, Bool.or_assoc]
  rfl

/-- CTRGET and WAITC (R199, R200). -/
theorem waitc_on {g : Guard} {c : R6} {n : BitVec 16} {s : State} {t : Strand} (h : Ready s t (.waitc g c n) g) :
    exec (.waitc g c n) s = .next (if (getC t c).toNat ≤ n.toNat then putStrand s (advance t)
      else implicitSplit s t 1 (BitVec.ofNat 64 (c.toNat % 4 + 2 ^ 16 * n.toNat)) 0) := by
  simp only [exec]
  exact issue_on _ _ h

theorem exec_cpy (g : Guard) (ch : BitVec 2) (f : Bool) (sc : BitVec 3) (d a b c : R6) (s : State) :
    exec (.cpy g ch f sc d a b c) s =
      dataForm (.cpy g ch f sc d a b c) g ch.toNat c
        (fun t => alignBad [getG t d, getG t a] [lo32 (getG t b)])
        (fun t s => { mkOp s t .cpy (some c) none sc.toNat [getG t d, getG t a, getG t b, 0, b2w f] with
          leases := leaseOf s t [(va48 (getG t d), lo32 (getG t b)), (va48 (getG t a), lo32 (getG t b))] }) s := by
  simp only [exec]
  rfl

theorem exec_cpy2d (g : Guard) (ch : BitVec 2) (f : Bool) (sc : BitVec 3) (d a b c : R6) (s : State) :
    exec (.cpy2d g ch f sc d a b c) s =
      dataForm (.cpy2d g ch f sc d a b c) g ch.toNat c
        (fun t => alignBad [getG t d, getG t a] [lo32 (getG t b), lo32 (getG t (b + 1)), lo32 (getG t (b + 1) >>> 32)])
        (fun t s =>
          let sh := getG t b
          let st := getG t (b + 1)
          let ds := sextN 32 (lo32 st)
          let ss := sextN 32 (lo32 (st >>> 32))
          { mkOp s t .cpy2d (some c) none sc.toNat [getG t d, getG t a, sh, st, b2w f] with
            leases := leaseOf s t [spanOf (va48 (getG t d)) (hi16 sh) (lo32 sh) ds, spanOf (va48 (getG t a)) (hi16 sh) (lo32 sh) ss] }) s := by
  simp only [exec]
  rfl

theorem exec_gath (g : Guard) (ch : BitVec 2) (f : Bool) (sc : BitVec 3) (d a b c : R6) (s : State) :
    exec (.gath g ch f sc d a b c) s =
      dataForm (.gath g ch f sc d a b c) g ch.toNat c
        (fun t => (alignBad [getG t d, getG t a] [hi16 (getG t b)]).or (if elemBad (getG t b) then some 0 else none))
        (fun t s =>
          let sh := getG t b
          { mkOp s t .gath (some c) none sc.toNat [getG t d, getG t a, sh, 0, b2w f] with
            leases := leaseOf s t [(va48 (getG t d), lo32 sh * hi16 sh), (va48 (getG t a), 8 * lo32 sh)] }) s := by
  simp only [exec]
  rfl

theorem exec_scat (g : Guard) (ch : BitVec 2) (f : Bool) (sc : BitVec 3) (d a b c : R6) (s : State) :
    exec (.scat g ch f sc d a b c) s =
      dataForm (.scat g ch f sc d a b c) g ch.toNat c
        (fun t => (alignBad [getG t d, getG t a] [hi16 (getG t b)]).or (if elemBad (getG t b) then some 0 else none))
        (fun t s =>
          let sh := getG t b
          { mkOp s t .scat (some c) none sc.toNat [getG t d, getG t a, sh, 0, b2w f] with
            leases := leaseOf s t [(va48 (getG t a), lo32 sh * hi16 sh), (va48 (getG t d), 8 * lo32 sh)] }) s := by
  simp only [exec]
  rfl

theorem exec_fld (g : Guard) (ch : BitVec 2) (sc sz : BitVec 3) (sx : Bool) (d a c : R6) (s : State) :
    exec (.fld g ch sc sz sx d a c) s =
      dataForm (.fld g ch sc sz sx d a c) g ch.toNat c (fun t => farBad sz (getG t a))
        (fun t s => mkOp s t .fld (some c) (if sz = 4 then some (.v (d.toNat % 32)) else dstG d) sc.toNat
          [getG t a, toW sz, b2w sx]) s := by
  simp only [exec]
  rfl

theorem exec_fst (g : Guard) (ch : BitVec 2) (f : Bool) (sc sz : BitVec 3) (a b c : R6) (s : State) :
    exec (.fst g ch f sc sz a b c) s =
      dataForm (.fst g ch f sc sz a b c) g ch.toNat c (fun t => farBad sz (getG t a))
        (fun t s => { mkOp s t .fst (some c) none sc.toNat [getG t a, toW sz, b2w f] with
          bytes := toLe (farSize sz) (if sz = 4 then (getV t b).toNat else (getG t b).toNat) }) s := by
  simp only [exec]
  rfl

theorem exec_redm (g : Guard) (op ch : BitVec 2) (sc : BitVec 3) (d a b c : R6) (s : State) :
    exec (.redm g op ch sc d a b c) s =
      dataForm (.redm g op ch sc d a b c) g ch.toNat c
        (fun t => alignBad [getG t d, getG t a] [lo32 (getG t b)])
        (fun t s => { mkOp s t .redm (some c) none sc.toNat [getG t d, getG t a, getG t b, toW op] with
          leases := leaseOf s t [(va48 (getG t a), lo32 (getG t b))] }) s := by
  simp only [exec]
  rfl

/-- Settles O28: the seven forms are data forms with their operands and alignment; CTRGET is an ALU form, WAITC goes on or splits. -/
theorem dataForms : Obligations.DataForms := by
  refine ⟨?_, fun g d c => writesG_of_aluOp (fun _ => rfl), fun g c n s t h => ⟨fun hle => ?_, fun hlt => ?_⟩⟩
  · intro g ch f sx sc sz op d a b c s t i k dst args bad bytes ga gd gb gb1 fw n odd esz table hm
    simp only [List.mem_cons, List.not_mem_nil, or_false, Prod.mk.injEq] at hm
    rcases hm with ⟨rfl, rfl, rfl, rfl, rfl, rfl⟩ | ⟨rfl, rfl, rfl, rfl, rfl, rfl⟩ | ⟨rfl, rfl, rfl, rfl, rfl, rfl⟩
      | ⟨rfl, rfl, rfl, rfl, rfl, rfl⟩ | ⟨rfl, rfl, rfl, rfl, rfl, rfl⟩ | ⟨rfl, rfl, rfl, rfl, rfl, rfl⟩ | ⟨rfl, rfl, rfl, rfl, rfl, rfl⟩
    · refine fun h => dataForm_spec (exec_cpy ..) rfl (alignBad_copy ..) h
    · refine fun h => dataForm_spec (exec_cpy2d ..) rfl (alignBad_copy2d ..) h
    · refine fun h => dataForm_spec (exec_gath ..) rfl (alignBad_table ..) h
    · refine fun h => dataForm_spec (exec_scat ..) rfl (alignBad_table ..) h
    · rw [← toW_eq]
      refine fun h => dataForm_spec (exec_fld ..) rfl (farBad_isSome ..) h
    · rw [← toW_eq]
      refine fun h => dataForm_spec (exec_fst ..) rfl (farBad_isSome ..) h
    · rw [← toW_eq]
      refine fun h => dataForm_spec (exec_redm ..) rfl (alignBad_copy ..) h
  · exact ⟨_, ⟨(waitc_on h).trans (by rw [if_pos hle]), fun _ => rfl⟩, onlyMoves_advance t⟩
  · exact splitsFrom_of_implicitSplit ((waitc_on h).trans (by rw [if_neg (by omega)])) rfl (fun e => absurd e (by decide))

/-! ### Atomics (R373-R377) -/

theorem baseDisp_eq (base : R6) (disp : BitVec 24) (t : Strand) :
    baseDisp base disp t = (getG t base).setWidth 48 + disp.signExtend 48 := by
  rw [baseDisp, BitVec.setWidth_add _ _ (by decide)]
  congr 1
  rw [sxW, BitVec.signExtend, setWidth48_ofInt]
  rfl

/-- The store of an atomic that combines, and nothing for one that does not. -/
def atomStore (s : State) (a n : Nat) (r : Option Nat) : State :=
  match r with
  | some v => wrN s a n v
  | none => s

/-- The strand behind a local atomic that read `x` and raised `f`. -/
def atomStrand (now k : Nat) (data : R6) (x : Nat) (f : FpFlags) (t : Strand) : Strand :=
  let lat := if k = 1 then 8 else 6
  advance (lateFlags now lat f (setG now lat data (BitVec.ofNat 64 x) t))

theorem atomStore_cur (s : State) (a n : Nat) (r : Option Nat) : (atomStore s a n r).cur = s.cur := by cases r <;> rfl
theorem atomStore_cycle (s : State) (a n : Nat) (r : Option Nat) : (atomStore s a n r).cycle = s.cycle := by cases r <;> rfl

section
variable {i : Instr} {k : Nat} {g : Guard} {data base : R6} {ctr sz : BitVec 2} {o : Bool} {disp : BitVec 24} {s : State} {t : Strand}

theorem atomOp_local (hx : exec i s = atomOp i k g data base ctr sz o disp s) (h : Ready s t i g)
    (hl : atomLocal t (baseDisp base disp t).toNat = true) :
    exec i s = .next (localAtomic i k data (2 ^ sz.toNat) o (baseDisp base disp t) t s) :=
  hx.trans ((issue_on _ _ h).trans (by simp only [hl, if_true]))

theorem localAtomic_performed {n : Nat} {va : Va} (hc : accessCause s t .store .any va n n = none)
    (he : eccBad s (accessPhys s t va) n = false) :
    let a := accessPhys s t va
    let r := atomNew k (8 * n) (rdN s a n) ((getG t data).toNat % 2 ^ (8 * n)) ((getG t (data + 1)).toNat % 2 ^ (8 * n))
    localAtomic i k data n o va t s = putStrand (atomStore (correctSoft (relIf o t s) a n) a n r.1)
      (atomStrand s.cycle k data (rdN s a n) r.2 t) := by
  intro a r
  have hcyc : (atomStore (correctSoft (relIf o t s) a n) a n r.1).cycle = s.cycle := by
    rw [atomStore_cycle, correctSoft_cycle]; exact (sameFrame_relIf o t s).2.1
  rw [← hcyc]
  simp only [localAtomic, hc]
  rw [if_neg (by rw [he]; exact Bool.false_ne_true)]
  rfl

theorem localAtomic_fault {n : Nat} {va : Va} {c : Cause} (hc : accessCause s t .store .any va n n = some c) :
    localAtomic i k data n o va t s = raise i c s t (toW va) := by
  simp only [localAtomic, hc]

theorem localAtomic_ecc {n : Nat} {va : Va} (hc : accessCause s t .store .any va n n = none)
    (he : eccBad s (accessPhys s t va) n = true) : localAtomic i k data n o va t s = raise i .memoryEcc s t (toW va) := by
  simp only [localAtomic, hc, he, if_true]

/-- Only the floating-point addition raises flags. -/
theorem atomNew_flags {k : Nat} (h : k ≠ 1) (w x y e : Nat) : (atomNew k w x y e).2 = 0 := by
  unfold atomNew
  split
  case h_2 => exact absurd rfl h
  all_goals rfl

theorem atomStrand_flags (now k : Nat) (data : R6) (x : Nat) (f : FpFlags) (t : Strand) (hf : k ≠ 1 → f = 0) :
    (atomStrand now k data x f t).flags = t.flags ∧ (atomStrand now k data x f t).rm = t.rm
      ∧ ∀ c, flagsAt c (atomStrand now k data x f t) = if now + 8 ≤ c then flagsAt c t ||| f else flagsAt c t := by
  by_cases hk : k = 1
  · subst hk
    exact flagsLand_of_lateFlags (setG_flags ..) (setG_late ..) (setG_rm ..)
  · obtain ⟨h1, h2, h3⟩ := flagsLand_of_lateFlags (now := now) (lat := 6) (f := f)
      (setG_flags now 6 data (BitVec.ofNat 64 x) t) (setG_late ..) (setG_rm ..)
    simp only [atomStrand, if_neg hk]
    refine ⟨h1, h2, fun c => ?_⟩
    rw [h3, hf hk]
    simp

theorem atomStore_mem {s0 : State} {a n : Nat} (h : Memory.wf s.mem = true) (hm : s0.mem = s.mem) (r : Option Nat) (u : Strand) :
    (∀ v, r = some v → rdN (putStrand (atomStore s0 a n r) u) a n = v % 2 ^ (8 * n)
        ∧ SameMemBut a n s (putStrand (atomStore s0 a n r) u))
      ∧ (r = none → SameMem s (putStrand (atomStore s0 a n r) u)) := by
  have hw : Memory.wf s0.mem = true := by rw [hm]; exact h
  refine ⟨fun v hv => ?_, fun hr b => ?_⟩
  · subst hv
    refine ⟨?_, fun b hb => ?_⟩
    · change rdN (putStrand (wrN s0 a n v) u) a n = _
      rw [rdN_congr (putStrand_mem ..), rdN_wrN _ _ _ _ hw, show 256 ^ n = 2 ^ (8 * n) by rw [pow_mul]; rfl]
    · rw [← hm]; exact sameMemBut_wrN s0 a n v hw b hb
  · subst hr
    rw [← hm]; rfl

end

/-- What an atomic does, where its address is local and where it is not, with the result of `atomNew`. -/
def AtomSpec (i : Instr) (k : Nat) (data base : R6) (ctr sz : BitVec 2) (o : Bool) (disp : BitVec 24) (s : State) (t : Strand)
    (r : Option Nat × FpFlags) : Prop :=
  let n := 2 ^ sz.toNat
  let w := 8 * n
  let va : Va := ((getG t base).setWidth 48) + disp.signExtend 48
  let a := accessPhys s t va
  let x := rdN s a n
  (atomLocal t va.toNat = true → accessCause s t .store .any va n n = none → eccBad s a n = false →
      ∃ s' t', Lands i s s' t' ∧ WroteG data (BitVec.ofNat 64 x) t t' ∧ t'.rm = t.rm
        ∧ t'.flags = t.flags ∧ (∀ c, flagsAt c t' = if s.cycle + 8 ≤ c then flagsAt c t ||| r.2 else flagsAt c t)
        ∧ SameV t t' ∧ SameP t t' ∧ SameC t t' ∧ SameSpot t t' ∧ MovedOn t t'
        ∧ (∀ v, r.1 = some v → rdN s' a n = v % 2 ^ w ∧ SameMemBut a n (relIf o t s) s')
        ∧ (r.1 = none → SameMem (relIf o t s) s'))
    ∧ (atomLocal t va.toNat = false → CtrFree t (ctr.setWidth 6) → va.toNat % n = 0 →
      Issues i s t .atomic (some (ctr.setWidth 6)) (dstG data) (fun q =>
        q.args = [va.setWidth 64, getG t data, getG t (data + 1), BitVec.ofNat 64 k, BitVec.ofNat 64 n]))
    ∧ (∀ c, atomLocal t va.toNat = true → accessCause s t .store .any va n n = some c → Raises i s t (causeCode c))
    ∧ (atomLocal t va.toNat = true → accessCause s t .store .any va n n = none → eccBad s a n = true → Raises i s t 23)
    ∧ (atomLocal t va.toNat = false → ¬ CtrFree t (ctr.setWidth 6) → Raises i s t 22)
    ∧ (atomLocal t va.toNat = false → CtrFree t (ctr.setWidth 6) → va.toNat % n ≠ 0 → Raises i s t 5)

theorem atomOp_spec {i : Instr} {k : Nat} {g : Guard} {data base : R6} {ctr sz : BitVec 2} {o : Bool} {disp : BitVec 24} {s : State}
    {t : Strand} (hx : exec i s = atomOp i k g data base ctr sz o disp s) (h : Ready s t i g) :
    AtomSpec i k data base ctr sz o disp s t (atomNew k (8 * 2 ^ sz.toNat)
      (rdN s (accessPhys s t ((getG t base).setWidth 48 + disp.signExtend 48)) (2 ^ sz.toNat))
      ((getG t data).toNat % 2 ^ (8 * 2 ^ sz.toNat)) ((getG t (data + 1)).toNat % 2 ^ (8 * 2 ^ sz.toNat))) := by
  rw [← baseDisp_eq]
  unfold AtomSpec
  rw [← baseDisp_eq]
  intro n w va a x
  have hlocal := atomOp_local hx h
  have hfar : atomLocal t va.toNat = false → exec i s = .next (
      if ctrFull t (ctr.setWidth 6) then raise i .counter s t 0
      else if va.toNat % n ≠ 0 then raise i .align s t (toW va)
      else issueOp (relIf o t s) t (mkOp s t .atomic (some (ctr.setWidth 6)) (dstG data) 4
        [toW va, getG t data, getG t (data + 1), BitVec.ofNat 64 k, BitVec.ofNat 64 n])) := fun hl =>
    hx.trans ((issue_on _ _ h).trans (by rw [if_neg (by rw [hl]; exact Bool.false_ne_true)]))
  refine ⟨fun hl hc he => ?_, fun hl hc hal => ?_, fun c hl hc => ?_, fun hl hc he => ?_, fun hl hc => ?_, fun hl hc hal => ?_⟩
  · obtain ⟨f1, f2, f3⟩ := atomStrand_flags s.cycle k data x (atomNew k w x ((getG t data).toNat % 2 ^ w)
      ((getG t (data + 1)).toNat % 2 ^ w)).2 t (fun hk => atomNew_flags hk ..)
    obtain ⟨m1, m2⟩ := atomStore_mem (s0 := correctSoft (relIf o t s) a n) (a := a) (n := n) (inv_relIf o t s h.1.1) (correctSoft_mem ..)
      (atomNew k w x ((getG t data).toNat % 2 ^ w) ((getG t (data + 1)).toNat % 2 ^ w)).1
      (atomStrand s.cycle k data x (atomNew k w x ((getG t data).toNat % 2 ^ w) ((getG t (data + 1)).toNat % 2 ^ w)).2 t)
    refine ⟨_, _, ⟨(hlocal hl).trans (by rw [localAtomic_performed hc he]), putStrand_lands _ _ _ ?_⟩, ?_, f2, f1, f3, ?_, ?_, ?_, ?_, ?_, m1, m2⟩
    · rw [atomStore_cur, correctSoft_cur]; exact (sameFrame_relIf o t s).1
    · intro r
      simp [atomStrand, getG_setG]
    · exact ⟨by simp [atomStrand], by simp [atomStrand]⟩
    · simp [SameP, atomStrand]
    · simp [SameC, atomStrand]
    · simp [SameSpot, atomStrand]
    · exact movedOn_advance (by simp) (by simp) (by simp)
  · obtain ⟨h1, -, -, -, h2, h3, -⟩ := sameFrame_relIf o t s
    refine issues_of_issueOp ((hfar hl).trans (by rw [if_neg (by simpa [CtrFree] using hc), if_neg (not_not.mpr hal)])) h1 h2 h3
      rfl rfl rfl rfl rfl rfl rfl rfl rfl rfl rfl rfl rfl rfl rfl ⟨rfl, rfl, rfl, rfl, rfl, rfl⟩ rfl rfl rfl
  · exact ⟨raise i c s t (toW va), (hlocal hl).trans (congrArg _ (localAtomic_fault hc)), faulted_raise ..⟩
  · exact ⟨raise i .memoryEcc s t (toW va), (hlocal hl).trans (congrArg _ (localAtomic_ecc hc he)), faulted_raise ..⟩
  · exact ⟨raise i .counter s t 0, (hfar hl).trans (by rw [if_pos (by simpa [CtrFree] using hc)]), faulted_raise ..⟩
  · exact ⟨raise i .align s t (toW va), (hfar hl).trans (by rw [if_neg (by simpa [CtrFree] using hc), if_pos hal]), faulted_raise ..⟩

/-- The nine atomics are the nine values of `atomNew`. -/
theorem atomNew_of_mem {k : Nat} {i : Instr} {f : Nat → Nat → Nat → Option Nat × FpFlags} {g : Guard} {data base : R6}
    {ctr sz : BitVec 2} {o : Bool} {disp : BitVec 24} {w : Nat}
    (hm : (k, i, f) ∈ ([
      (0, .aadd g data base ctr sz o disp, fun x y _ => (some ((x + y) % 2 ^ w), 0)),
      (1, .afadd g data base ctr sz o disp, fun x y _ =>
        let r := fpBin xAdd (if w = 16 then .bf16 else .fp32) .rne x y
        (some r.1, r.2)),
      (2, .amin g data base ctr sz o disp, fun x y _ => (some (if sextN w y < sextN w x then y else x), 0)),
      (3, .amax g data base ctr sz o disp, fun x y _ => (some (if sextN w x < sextN w y then y else x), 0)),
      (4, .aand g data base ctr sz o disp, fun x y _ => (some (x &&& y), 0)),
      (5, .aor g data base ctr sz o disp, fun x y _ => (some (x ||| y), 0)),
      (6, .axor g data base ctr sz o disp, fun x y _ => (some (x ^^^ y), 0)),
      (7, .aswp g data base ctr sz o disp, fun _ y _ => (some y, 0)),
      (8, .acas g data base ctr sz o disp, fun x y e => (if x = e then some y else none, 0))] :
        List (Nat × Instr × (Nat → Nat → Nat → Option Nat × FpFlags)))) :
    f = atomNew k w ∧ ∀ s, exec i s = atomOp i k g data base ctr sz o disp s := by
  simp only [List.mem_cons, List.not_mem_nil, or_false, Prod.mk.injEq] at hm
  rcases hm with ⟨rfl, rfl, rfl⟩ | ⟨rfl, rfl, rfl⟩ | ⟨rfl, rfl, rfl⟩ | ⟨rfl, rfl, rfl⟩ | ⟨rfl, rfl, rfl⟩ | ⟨rfl, rfl, rfl⟩
    | ⟨rfl, rfl, rfl⟩ | ⟨rfl, rfl, rfl⟩ | ⟨rfl, rfl, rfl⟩ <;> exact ⟨rfl, fun _ => rfl⟩

/-- Settles O29: every atomic is `atomOp` with its own combination; its clauses are those of a local and of a far one. -/
theorem atomicResults : Obligations.AtomicResults := by
  intro g data base ctr sz o disp s t k i f n w va a x hm h r
  obtain ⟨rfl, hx⟩ := atomNew_of_mem hm
  obtain ⟨h1, h2, h3, h4, h5, h6⟩ := atomOp_spec (hx s) h
  refine ⟨fun hl hc he => ?_, h2, h3, h4, h5, h6⟩
  obtain ⟨s', t', k1, k2, k3, k4, k5, k6, k7, k8, k9, k10, k11, k12⟩ := h1 hl hc he
  refine ⟨s', t', k1, k2, k3, k4, k5, k6, k7, k8, k9, k10, ?_⟩
  cases hr : r.1 with
  | some v => exact k11 v hr
  | none => exact k12 hr

end Sys2Proof.Machine
end

section
/-! SUPPORT. Segment ends, traps, control registers, boundary requests and queue entries (O30-O34). -/

namespace Sys2Proof.Machine

open Laws



/-! ### Segment ends (R226, R235) -/

/-- The continuation of SEGEND at the block `e`. -/
def segendCont (s : State) (t : Strand) (e : Va) : Cont := { contOf s t with pc0 := e, pc1 := e + 8, pc2 := e + 16, ds := 0, blk := e }

/-- The continuation of SPLIT. -/
def splitCont (s : State) (t : Strand) (roam : Bool) (k : Nat) : Cont :=
  { explicitCont s t with roam := roam, tgt := if roam then k else 0 }

/-- The continuation of YIELD, which waits until the tick `n`. -/
def yieldCont (s : State) (t : Strand) (n : Nat) : Cont :=
  { explicitCont s t with event := 7, evarg := BitVec.ofNat 64 n, prio := t.task.bprio }

theorem segend_on {g : Guard} {a : R6} {s : State} {t : Strand} (h : Ready s t (.segend g a) g) :
    exec (.segend g a) s = .next (
      if ((getG t a).setWidth 48 : Va).toNat % 8 ≠ 0 then raise (.segend g a) .align s t (toW ((getG t a).setWidth 48 : Va))
      else splitWith s t (segendCont s t ((getG t a).setWidth 48))) := by
  simp only [exec]
  exact issue_on _ _ h

theorem split_on {g : Guard} {roam : Bool} {a : R6} {s : State} {t : Strand} (h : Ready s t (.split g roam a) g) :
    exec (.split g roam a) s = .next (
      if roam && !inRect s t.task.pid (32 * dieOf t.cl + (getG t a).toNat % 32) then raise (.split g roam a) .tenant s t 0
      else splitWith s t (splitCont s t roam ((getG t a).toNat % 32))) := by
  simp only [exec]
  exact issue_on _ _ h

theorem yield_on {g : Guard} {a : R6} {s : State} {t : Strand} (h : Ready s t (.yield g a) g) :
    exec (.yield g a) s = .next (splitWith s t (yieldCont s t (tickNow s + lo32 (getG t a)))) := by
  simp only [exec]
  exact issue_on _ _ h

theorem exit_on {g : Guard} {s : State} {t : Strand} (h : Ready s t (.exit g) g) :
    exec (.exit g) s = .next (if settled s t then taskEnd (endSegment (gangEnd s t true) t) t.cl t.task
      else putStrand s { t with hold := pendEnd s t }) := by
  simp only [exec]
  exact issue_on _ _ h

theorem carries_explicitCont (s : State) (t : Strand) : Carries t (explicitCont s t) := carries_contOf s (advance t)

theorem taskEnd_keeps (s : State) (cl : Nat) (k : Task) :
    (taskEnd s cl k).strands = s.strands ∧ (taskEnd s cl k).conts = s.conts ∧ (taskEnd s cl k).parked = s.parked
      ∧ (taskEnd s cl k).ops = s.ops := by
  unfold taskEnd
  cases k.noticeSlot <;> cases k.batch <;> exact ⟨rfl, rfl, rfl, rfl⟩

@[simp] theorem gangEnd_parked (s : State) (t : Strand) (b : Bool) : (gangEnd s t b).parked = s.parked := by
  unfold gangEnd; split <;> rfl

/-- What the end of a strand's segment keeps. -/
theorem endSegment_keeps (s : State) (t : Strand) :
    tabGet (endSegment s t).strands (laneKey t) = none ∧ (endSegment s t).conts = s.conts ∧ (endSegment s t).parked = s.parked
      ∧ (endSegment s t).ops.map noOut = s.ops.map noOut := by
  obtain ⟨h1, h2, h3, -⟩ := closeSegment_keeps { s with strands := tabDel s.strands (laneKey t) } t
  obtain ⟨-, h4, -⟩ := freeHeld_freesOnly (updCp (closeBatch { s with strands := tabDel s.strands (laneKey t) } t s.cycle).2 t.cl t.task.pid
    (fun k => clearReq (releaseFrom k t.seg.sid (tickNow s + 1)) t.lane)) t.task.pid t.seg.xl
  exact ⟨(congrArg (fun l => tabGet l (laneKey t)) h1).trans (tabGet_tabDel_same _ _), h2, h4, h3⟩

/-- Settles O30: SEGEND, SPLIT and YIELD are `splitWith` with their continuation; EXIT ends the segment and its task. -/
theorem segmentEnds : Obligations.SegmentEnds := by
  intro g roam a s t
  refine ⟨fun h h8 => ?_, fun h h8 => ?_, fun h hr => ?_, fun h hr => ?_, fun h => ?_, fun h => ⟨fun hs => ?_, fun hs => ?_⟩⟩
  · exact splits_of_splitWith (c := segendCont s t ((getG t a).setWidth 48)) ((segend_on h).trans (by rw [if_neg (not_not.mpr h8)]))
      (carries_contOf s t) (fun k => ⟨rfl, rfl, rfl, rfl, rfl, rfl, rfl⟩)
  · exact ⟨_, (segend_on h).trans (by rw [if_pos h8]), faulted_raise ..⟩
  · have hin : ¬ (roam && !inRect s t.task.pid (32 * dieOf t.cl + (getG t a).toNat % 32)) = true := by
      cases roam
      · exact Bool.false_ne_true
      · rw [hr rfl]
        exact Bool.false_ne_true
    exact splits_of_splitWith (c := splitCont s t roam ((getG t a).toNat % 32)) ((split_on h).trans (by rw [if_neg hin]))
      (carries_explicitCont s t) (fun k => ⟨⟨rfl, rfl, rfl, rfl⟩, rfl, rfl, rfl, fun hr => if_pos hr⟩)
  · exact ⟨raise (.split g true a) .tenant s t 0, (split_on h).trans (by simp only [hr, Bool.not_false, Bool.and_self, if_true]), faulted_raise ..⟩
  · exact splits_of_splitWith (c := yieldCont s t _) (yield_on h) (carries_explicitCont s t) (fun k => ⟨⟨rfl, rfl, rfl, rfl⟩, rfl, rfl, rfl⟩)
  · obtain ⟨h1, h2, h3, h4⟩ := taskEnd_keeps (endSegment (gangEnd s t true) t) t.cl t.task
    obtain ⟨k1, k2, k3, k4⟩ := endSegment_keeps (gangEnd s t true) t
    refine ⟨_, (exit_on h).trans (by rw [if_pos hs]), by rw [h1]; exact k1, by rw [h2, k2, gangEnd_conts], by rw [h3, k3, gangEnd_parked], ?_⟩
    rw [h4]
    rw [gangEnd_ops] at k4
    exact k4
  · exact (exit_on h).trans (by rw [hs, if_neg Bool.false_ne_true])

/-! ### Traps (R405, R420) -/

theorem causeCode_causeOfCode {n : Nat} (h1 : 1 ≤ n) (h2 : n ≤ 24) : causeCode (causeOfCode n) = n := by
  interval_cases n <;> rfl

theorem causeCode_lt (c : Cause) : causeCode c < 256 := by cases c <;> decide

/-- Bit 10 of a record's word 0 is SOFT. -/
theorem soft_recWord0 (c : Cause) (soft eccp : Bool) (pid cl lane ctx ds : Nat) :
    (recWord0 (causeCode c) 0 soft eccp pid cl lane ctx ds).getLsbD 10 = soft := by
  have h := causeCode_lt c
  rw [recWord0, BitVec.getLsbD_ofNat, Nat.testBit_eq_decide_div_mod_eq]
  generalize causeCode c = n at h
  generalize dieOf cl = q
  cases soft <;> cases eccp <;> simp only [Bool.false_eq_true, if_false, if_true] <;> simp <;> omega

section
variable {i : Instr} {g : Guard} {cause : Strand → Cause} {va : Strand → Word} {imm : BitVec 32} {soft : Bool} {s : State} {t : Strand}

theorem trapOp_on (hx : exec i s = trapOp i g cause va imm soft s) (h : Ready s t i g) :
    exec i s = .next (takeFaultAt s (advance t) (relCycle t s + 1)
      { cause := cause t, va := va t, word := (encode i).headD 0, w7 := toW imm, soft := soft }) := hx.trans (issue_on _ _ h)

theorem trapOp_records (hx : exec i s = trapOp i g cause va imm soft s) (h : Ready s t i g) :
    (settled s t = true → ∃ s' e, exec i s = .next s'
        ∧ (getDie s' (dieOf t.cl)).waiting = (getDie s (dieOf t.cl)).waiting ++ [e] ∧ e.word0.getLsbD 10 = soft
        ∧ e.words.getD 3 0 = va t ∧ e.words.getD 6 0 = imm.setWidth 64)
      ∧ (settled s t = false → ∃ s' u n f, exec i s = .next s' ∧ u ∈ s'.parked ∧ u.task = t.task ∧ u.ending = some (.fault n f)
        ∧ f.soft = soft ∧ f.va = va t ∧ f.w7 = imm.setWidth 64) := by
  refine ⟨fun hs => ?_, fun hs => ?_⟩
  · obtain ⟨e, h1, -, h3, h4, -, h6⟩ := takeFaultAt_records (t := advance t) (relCycle t s + 1)
      { cause := cause t, va := va t, word := (encode i).headD 0, w7 := toW imm, soft := soft } hs
    exact ⟨_, e, trapOp_on hx h, h1, by rw [h3]; exact soft_recWord0 .., h4, h6⟩
  · obtain ⟨u, h1, h2, h3⟩ := takeFaultAt_waits (t := advance t) (relCycle t s + 1)
      { cause := cause t, va := va t, word := (encode i).headD 0, w7 := toW imm, soft := soft } hs
    exact ⟨_, u, _, _, trapOp_on hx h, h1, h2.1, h3, rfl, rfl, rfl⟩

theorem trapOp_faults (hx : exec i s = trapOp i g cause va imm soft s) (h : Ready s t i g) :
    ∃ s' t', exec i s = .next s' ∧ OnlyMoves t t' ∧ Faulted s s' t' (causeCode (cause t)) :=
  ⟨_, _, trapOp_on hx h, onlyMoves_advance t, faulted_takeFaultAt ..⟩

end

/-- Settles O31: the three forms are `trapOp` with their cause, their word 4 and SOFT. -/
theorem traps : Obligations.Traps := by
  intro g a imm s t records
  refine ⟨trapOp_records (va := fun t => getG t a) rfl, trapOp_records (va := fun _ => 0) rfl, trapOp_records (va := fun t => getG t a) rfl,
    fun h h1 h2 => ?_, trapOp_faults (cause := fun _ => .brk) rfl, trapOp_faults (cause := fun _ => .syscall) rfl⟩
  have ht := trapOp_faults (i := .trap g a imm) rfl h
  rwa [causeCode_causeOfCode h1 h2] at ht

/-! ### Control registers (R38, R421) -/

theorem ctlrd_on {g : Guard} {d : R6} {n : BitVec 12} {s : State} {t : Strand} (h : Ready s t (.ctlrd g d n) g)
    (hd : ctlDenied n.toNat t = false) :
    exec (.ctlrd g d n) s = .next (
      if n = 0 then putStrand s (advance (setG s.cycle 1 d (toW t.rm) t))
      else if n = 1 then putStrand s (advance (setG s.cycle 1 d (toW (flagsAt s.cycle t)) t))
      else putStrand (readCtl s t.cl t.task.pid n.toNat).2 (advance (setG (readCtl s t.cl t.task.pid n.toNat).2.cycle (ctlLatency n.toNat) d
        (readCtl s t.cl t.task.pid n.toNat).1 t))) := by
  have hx : exec (.ctlrd g d n) s = execCtlrd g d n s := by simp only [exec]
  rw [hx, execCtlrd, h.2.1]
  simp only [hd, Bool.false_eq_true, if_false]
  exact issue_on _ _ h

theorem readCtl_keeps (s : State) (cl p n : Nat) :
    (readCtl s cl p n).2.cur = s.cur ∧ (readCtl s cl p n).2.mem = s.mem := by
  unfold readCtl
  split
  · exact ⟨rfl, rfl⟩
  · split <;> exact ⟨rfl, rfl⟩

theorem ctlShared_iff (n : Nat) : ctlShared n = true ↔ n = 0x180 ∨ n = 0x181 := by
  simp [ctlShared]

theorem readCtl_value (s : State) (cl p n : Nat) :
    (readCtl s cl p n).1 = if n = 0x180 ∨ n = 0x181 then ctlGet (getClu s cl).ctl n
      else if n < 0x400 then cpCtl s cl p n else ctlGet (getDp s (dieOf cl) p).ctl n := by
  unfold readCtl
  by_cases h : n = 0x180 ∨ n = 0x181
  · rw [if_pos ((ctlShared_iff n).mpr h), if_pos h]
  · rw [if_neg (fun e => h ((ctlShared_iff n).mp e)), if_neg h]
    split <;> rfl

theorem ctlwr_on {g : Guard} {a : R6} {n : BitVec 12} {s : State} {t : Strand} (h : Ready s t (.ctlwr g n a) g)
    (hd : ctlDenied n.toNat t = false) :
    exec (.ctlwr g n a) s = .next (
      if n = 0 then
        if (getG t a).toNat / 4 ≠ 0 then raise (.ctlwr g n a) .reservedField s t 0
        else putStrand s (advance { t with rm := (getG t a).setWidth 2 })
      else if n = 1 then putStrand s (advance { t with
        flags := flagsAt s.cycle t &&& ~~~ ((getG t a).setWidth 7), late := t.late.filter (fun e => decide (s.cycle < e.1)) })
      else if ctlReserved n.toNat (getG t a).toNat then raise (.ctlwr g n a) .reservedField s t 0
      else if ctlReadOnly n.toNat then putStrand s (advance t)
      else if n.toNat < 0x400 then
        updCp (putStrand s (advance t)) t.cl t.task.pid (fun k => { k with ctlPend := k.ctlPend ++ [(n.toNat, ctlTaken n.toNat (getG t a))] })
      else updDp (putStrand s (advance t)) (dieOf t.cl) t.task.pid
        (fun k => { k with ctlPend := k.ctlPend ++ [(n.toNat, ctlTaken n.toNat (getG t a))] })) := by
  have hx : exec (.ctlwr g n a) s = execCtlwr g n a s := by simp only [exec]
  rw [hx, execCtlwr, h.2.1]
  simp only [hd, Bool.false_eq_true, if_false]
  exact issue_on _ _ h

theorem ctlDenied_low {n : Nat} (h : n < 0x100) (t : Strand) : ctlDenied n t = false := by
  simp only [ctlDenied, decide_eq_false (show ¬ 0x800 ≤ n by omega), decide_eq_false (show ¬ 0x100 ≤ n by omega), Bool.false_and, Bool.or_self]

theorem qcfg_on {g : Guard} {w : Bool} {d a : R6} {q : BitVec 4} {s : State} {t : Strand} (h : Ready s t (.qcfg g w d a q) g)
    (hs : isSup t = true) :
    exec (.qcfg g w d a q) s = .next (
      if w && (bit (getG t a) 3 || (getG t a).toNat / 2 ^ 18 != 0) then raise (.qcfg g w d a q) .reservedField s t 0
      else if w then updCp (putStrand s (advance (setG s.cycle 1 d (qcfg s t.cl t.task.pid q.toNat) t))) t.cl t.task.pid
        (fun k => { k with ctlPend := k.ctlPend ++ [(0x190 + q.toNat, getG t a)] })
      else putStrand s (advance (setG s.cycle 1 d (qcfg s t.cl t.task.pid q.toNat) t))) := by
  have hx : exec (.qcfg g w d a q) s = execQcfg g w d a q s := by simp only [exec]
  rw [hx, execQcfg, issueSup_on _ h hs]
  simp only [leaseHit_of_ready h, Bool.false_eq_true, if_false]

theorem reads_of_ctlrd {g : Guard} {d : R6} {n : BitVec 12} {s : State} {t : Strand} (h : Ready s t (.ctlrd g d n) g)
    (hd : ctlDenied n.toNat t = false) :
    ∃ s' t', Lands (.ctlrd g d n) s s' t' ∧ SameMem s s'
      ∧ OnlyG d (if n = 0 then t.rm.setWidth 64 else if n = 1 then (flagsAt s.cycle t).setWidth 64
        else if n = 0x180 ∨ n = 0x181 then ctlGet (getClu s t.cl).ctl n.toNat
        else if n.toNat < 0x400 then cpCtl s t.cl t.task.pid n.toNat
        else ctlGet (getDp s (dieOf t.cl) t.task.pid).ctl n.toNat) t t' := by
  have hx := ctlrd_on h hd
  by_cases h0 : n = 0
  · rw [if_pos h0] at hx
    rw [if_pos h0]
    exact ⟨_, _, ⟨hx, putStrand_lands _ _ _ rfl⟩, fun _ => rfl, onlyG_setG ..⟩
  rw [if_neg h0] at hx
  rw [if_neg h0]
  by_cases h1 : n = 1
  · rw [if_pos h1] at hx
    rw [if_pos h1]
    exact ⟨_, _, ⟨hx, putStrand_lands _ _ _ rfl⟩, fun _ => rfl, onlyG_setG ..⟩
  rw [if_neg h1] at hx
  rw [if_neg h1]
  obtain ⟨k1, k2⟩ := readCtl_keeps s t.cl t.task.pid n.toNat
  refine ⟨_, _, ⟨hx, putStrand_lands _ _ _ k1⟩, fun b => by rw [putStrand_mem, k2], ?_⟩
  have hshared : (n = 0x180 ∨ n = 0x181) ↔ (n.toNat = 0x180 ∨ n.toNat = 0x181) := by
    simp only [← BitVec.toNat_inj]
    rfl
  have hv := readCtl_value s t.cl t.task.pid n.toNat
  simp only [hshared, ← hv]
  exact onlyG_setG ..

/-- A write of a register of the cluster or of the die waits for the next tick boundary. -/
theorem writes_of_ctlwr {g : Guard} {a : R6} {n : BitVec 12} {s : State} {t : Strand} (h : Ready s t (.ctlwr g n a) g)
    (h2 : 2 ≤ n.toNat) (hd : ctlDenied n.toNat t = false) :
    (ctlReserved n.toNat (getG t a).toNat = true → Raises (.ctlwr g n a) s t 2)
      ∧ (ctlReserved n.toNat (getG t a).toNat = false → ctlReadOnly n.toNat = false →
        ∃ s' t', Lands (.ctlwr g n a) s s' t' ∧ OnlyMoves t t' ∧ SameMem s s'
          ∧ (if n.toNat < 0x400 then
              (getCp s' t.cl t.task.pid).ctlPend = (getCp s t.cl t.task.pid).ctlPend ++ [(n.toNat, ctlTaken n.toNat (getG t a))]
                ∧ (getCp s' t.cl t.task.pid).ctl = (getCp s t.cl t.task.pid).ctl
            else (getDp s' (dieOf t.cl) t.task.pid).ctlPend
              = (getDp s (dieOf t.cl) t.task.pid).ctlPend ++ [(n.toNat, ctlTaken n.toNat (getG t a))]))
      ∧ (ctlReserved n.toNat (getG t a).toNat = false → ctlReadOnly n.toNat = true →
        ∃ t', Completes (.ctlwr g n a) s t' ∧ OnlyMoves t t') := by
  have hx := ctlwr_on h hd
  have h0 : n ≠ 0 := fun e => by subst e; exact absurd h2 (by decide)
  have h1 : n ≠ 1 := fun e => by subst e; exact absurd h2 (by decide)
  rw [if_neg h0, if_neg h1] at hx
  refine ⟨fun hr => ?_, fun hr ho => ?_, fun hr ho => ?_⟩
  · rw [hr, if_pos rfl] at hx
    exact ⟨_, hx, faulted_raise ..⟩
  · rw [hr, ho, if_neg Bool.false_ne_true, if_neg Bool.false_ne_true] at hx
    by_cases hn : n.toNat < 0x400
    · rw [if_pos hn] at hx
      refine ⟨_, _, ⟨hx, putStrand_lands _ _ _ rfl⟩, onlyMoves_advance t, fun _ => rfl, ?_⟩
      rw [if_pos hn, getCp_updCp_same]
      exact ⟨rfl, rfl⟩
    · rw [if_neg hn] at hx
      refine ⟨_, _, ⟨hx, putStrand_lands _ _ _ rfl⟩, onlyMoves_advance t, fun _ => rfl, ?_⟩
      rw [if_neg hn, getDp_updDp_same]
      rfl
  · rw [hr, ho, if_neg Bool.false_ne_true, if_pos rfl] at hx
    exact ⟨_, ⟨hx, fun _ => rfl⟩, onlyMoves_advance t⟩

/-- FPCTL takes its two bits at once. -/
theorem ctlwr_fpctl {g : Guard} {a : R6} {s : State} {t : Strand} (h : Ready s t (.ctlwr g 0 a) g) :
    ((getG t a).toNat < 4 → ∃ t', Completes (.ctlwr g 0 a) s t'
        ∧ t'.rm = (getG t a).setWidth 2 ∧ t'.flags = t.flags ∧ SameG t t' ∧ SameV t t' ∧ SameP t t' ∧ SameC t t'
        ∧ SamePlace t t' ∧ MovedOn t t')
      ∧ (4 ≤ (getG t a).toNat → Raises (.ctlwr g 0 a) s t 2) := by
  have hx := ctlwr_on h (ctlDenied_low (by decide) t)
  rw [if_pos rfl] at hx
  refine ⟨fun hlt => ?_, fun hge => ?_⟩
  · rw [if_neg (by omega)] at hx
    exact ⟨_, ⟨hx, fun _ => rfl⟩, rfl, rfl, fun _ => rfl, ⟨rfl, rfl⟩, rfl, rfl, ⟨rfl, rfl, rfl, rfl, rfl, rfl⟩, movedOn_advance rfl rfl rfl⟩
  · rw [if_pos (by omega)] at hx
    exact ⟨_, hx, faulted_raise ..⟩

/-- FPFLAG as it stands loses the bits where ones are written. -/
theorem ctlwr_fpflag {g : Guard} {a : R6} {s : State} {t : Strand} (h : Ready s t (.ctlwr g 1 a) g) :
    ∃ t', Completes (.ctlwr g 1 a) s t'
      ∧ (∀ k, k < 7 → t'.flags.getLsbD k = ((flagsAt s.cycle t).getLsbD k && !(getG t a).getLsbD k))
      ∧ t'.late = t.late.filter (fun e => decide (s.cycle < e.1)) ∧ t'.rm = t.rm ∧ SameG t t'
      ∧ SameV t t' ∧ SameP t t' ∧ SameC t t' ∧ SameSpot t t' ∧ MovedOn t t' := by
  have hx := ctlwr_on h (ctlDenied_low (by decide) t)
  rw [if_neg (by decide), if_pos rfl] at hx
  refine ⟨_, ⟨hx, fun _ => rfl⟩, fun k hk => ?_, rfl, rfl, fun _ => rfl, ⟨rfl, rfl⟩, rfl, rfl, ⟨rfl, rfl, rfl, rfl, rfl⟩, movedOn_advance rfl rfl rfl⟩
  simp [hk]

theorem qcfg_spec {g : Guard} {w : Bool} {d a : R6} {q : BitVec 4} {s : State} {t : Strand} (h : Ready s t (.qcfg g w d a q) g)
    (hs : t.task.fq = true) :
    ((w = true → (getG t a).getLsbD 3 = true ∨ 2 ^ 18 ≤ (getG t a).toNat → Raises (.qcfg g w d a q) s t 2)
        ∧ ((w = true → (getG t a).getLsbD 3 = false ∧ (getG t a).toNat < 2 ^ 18) →
          ∃ s' t', Lands (.qcfg g w d a q) s s' t' ∧ OnlyG d (cpCtl s t.cl t.task.pid (0x190 + q.toNat)) t t' ∧ SameMem s s'
            ∧ (getCp s' t.cl t.task.pid).ctlPend = (getCp s t.cl t.task.pid).ctlPend
                ++ (if w then [(0x190 + q.toNat, getG t a)] else []))) := by
  have hx := qcfg_on h hs
  refine ⟨fun hw hbad => ?_, fun hok => ?_⟩
  · subst hw
    rw [if_pos] at hx
    · exact ⟨_, hx, faulted_raise ..⟩
    · rcases hbad with hb | hb
      · simp [bit, hb]
      · have : (getG t a).toNat / 2 ^ 18 ≠ 0 := by omega
        rw [bne_iff_ne.mpr this, Bool.or_true, Bool.true_and]
  · cases w
    · rw [if_neg (by simp), if_neg Bool.false_ne_true] at hx
      exact ⟨_, _, ⟨hx, putStrand_lands _ _ _ rfl⟩, onlyG_setG .., fun _ => rfl, by rw [getCp_putStrand]; exact (List.append_nil _).symm⟩
    · obtain ⟨h3, h18⟩ := hok rfl
      have hz : (getG t a).toNat / 2 ^ 18 = 0 := by omega
      rw [if_neg (by simp only [bit, h3, hz]; decide), if_pos rfl] at hx
      refine ⟨_, _, ⟨hx, putStrand_lands _ _ _ rfl⟩, onlyG_setG .., fun _ => rfl, ?_⟩
      rw [getCp_updCp_same]
      rfl

theorem ctlReserved_bits (x : Nat) :
    (ctlReserved 0x423 x = true ↔ 2 ^ 40 ≤ x) ∧ ctlReserved 0x1C1 x = false ∧ (ctlReserved 0x1C0 x = true ↔ 2 ^ 9 ≤ x) := by
  refine ⟨?_, rfl, ?_⟩
  · change (x / 2 ^ 40 != 0) = true ↔ _
    rw [bne_iff_ne]
    omega
  · change (x / 2 ^ 9 != 0) = true ↔ _
    rw [bne_iff_ne]
    omega

/-- Settles O32: each register form by its clause of R38, R39, R246, R263, R264 and R421. -/
theorem controlRegisters : Obligations.ControlRegisters := by
  intro g d a n q w s t
  exact ⟨fun h hd => reads_of_ctlrd h hd, fun h => (ctlwr_fpctl h).1, fun h => (ctlwr_fpctl h).2, fun h => ctlwr_fpflag h,
    fun h h2 hd => writes_of_ctlwr h h2 hd, ctlReserved_bits, writesG_of_aluOp (fun _ => rfl), fun h hs => qcfg_spec h hs⟩

/-! ### Requests that a tick boundary decides (R237, R265, R422) -/

/-- A strand whose g[d] waits for an answer keeps every register. -/
theorem onlyMoves_setG_self (now lat : Nat) (d : R6) (t : Strand) : OnlyMoves t (advance (setG now lat d (getG t d) t)) := by
  refine ⟨fun r => ?_, ⟨by simp, by simp⟩, by simp [SameP], by simp [SameC], ⟨by simp, by simp⟩, by simp [SamePlace],
    movedOn_advance (by simp) (by simp) (by simp)⟩
  rw [getG_advance]
  exact getG_congr (setG_self_g ..) r

/-- The request that a form leaves for the boundary. -/
def calReqOf (s : State) (t : Strand) (kind : Nat) (d : R6) (word : Word) (res : Nat) (own : Bool) (phys : Option Nat) (rel : Bool) :
    CalReq :=
  { kind := kind, cycle := s.cycle, lane := t.lane, task := t.task.id, sid := t.seg.sid, gang := t.seg.gang
    d := d.toNat, start := t.seg.start, len := t.seg.len, rt := relCycle t s / 8
    word := word, res := res, own := own, rel := rel, phys := phys }

/-- The request stands behind the earlier ones of its cluster; the strand only moves on. -/
theorem asks_of_calRequest {i : Instr} {s s0 : State} {t : Strand} {kind : Nat} {d : R6} {word : Word} {res : Nat} {own : Bool}
    {phys : Option Nat} {rel : Bool} (hx : exec i s = .next (calRequest s0 t kind d word res own phys rel)) (hc : s0.cur = s.cur)
    (hm : s0.mem = s.mem) (hk : s0.clParts = s.clParts) :
    ∃ s' t', Lands i s s' t' ∧ OnlyMoves t t' ∧ SameMem s s'
      ∧ (getCp s' t.cl t.task.pid).reqs = (getCp s t.cl t.task.pid).reqs ++ [calReqOf s0 t kind d word res own phys rel]
      ∧ (getCp s' t.cl t.task.pid).cal = (getCp s t.cl t.task.pid).cal := by
  have hcp : getCp s0 t.cl t.task.pid = getCp s t.cl t.task.pid := by simp only [getCp, hk]
  refine ⟨_, _, ⟨hx, putStrand_lands _ _ _ hc⟩, onlyMoves_setG_self .., fun b => ?_, ?_⟩
  · rw [← hm]; rfl
  · have hcl : ∀ n lat x, (setG n lat d x t).cl = t.cl ∧ (setG n lat d x t).task = t.task := fun n lat x => ⟨setG_cl .., setG_task ..⟩
    simp only [calRequest, hcl]
    rw [getCp_updCp_same, getCp_putStrand, hcp]
    exact ⟨rfl, rfl⟩

theorem descWords_bad {s : State} {t : Strand} {va : Word} {n al : Nat} (h : va.toNat % 2 ^ 48 % al ≠ 0) :
    descWords s t va n al = .error (.align, va48 va) := if_pos h

theorem descWords_aligned {s : State} {t : Strand} {va : Word} {n al : Nat} (h : va.toNat % 2 ^ 48 % al = 0) :
    descWords s t va n al = laneRead s t (va.toNat % 2 ^ 48) (8 * n) := if_neg (not_not.mpr h)

theorem foldl_correctSoft (l : List Nat) (n : Nat) : ∀ s : State,
    (l.foldl (fun s a => correctSoft s a n) s).cur = s.cur ∧ (l.foldl (fun s a => correctSoft s a n) s).mem = s.mem
      ∧ (l.foldl (fun s a => correctSoft s a n) s).clParts = s.clParts ∧ (l.foldl (fun s a => correctSoft s a n) s).cycle = s.cycle
      ∧ (l.foldl (fun s a => correctSoft s a n) s).ops = s.ops ∧ (l.foldl (fun s a => correctSoft s a n) s).nextId = s.nextId := by
  induction l with
  | nil => exact fun s => ⟨rfl, rfl, rfl, rfl, rfl, rfl⟩
  | cons a l ih =>
    intro s
    obtain ⟨h1, h2, h3, h4, h5, h6⟩ := ih (correctSoft s a n)
    simp only [List.foldl_cons, h1, h2, h3, h4, h5, h6, correctSoft_cur, correctSoft_mem, correctSoft_clParts, correctSoft_cycle,
      correctSoft_ops, correctSoft_nextId, and_self]

/-- A lane read changes nothing but corrected errors. -/
theorem laneRead_keeps {s : State} {t : Strand} {va n : Nat} {r : LaneRd} (h : laneRead s t va n = .ok r) :
    r.st.cur = s.cur ∧ r.st.mem = s.mem ∧ r.st.clParts = s.clParts ∧ r.st.cycle = s.cycle ∧ r.st.ops = s.ops
      ∧ r.st.nextId = s.nextId := by
  unfold laneRead at h
  dsimp only at h
  split at h
  · cases h
  · split at h
    · cases h
    · cases h
      exact foldl_correctSoft ..

theorem laneRead_residency {s : State} {t : Strand} {va n v : Nat} (h : v ∈ spanVas va n) (ho : ownPage s t v = false) :
    ∃ v, laneRead s t va n = .error (.residency, v) := by
  unfold laneRead
  dsimp only
  split
  · exact ⟨_, rfl⟩
  · rename_i hn
    have := List.find?_eq_none.mp hn v h
    simp [ho] at this

theorem spanVas_two {va : Nat} (h8 : va % 8 = 0) (hlt : va + 8 < 2 ^ 48) : spanVas va 16 = [va, va + 8] := by
  have hw : wordOf va = va := by unfold wordOf; omega
  have h1 : va % 2 ^ 48 = va := Nat.mod_eq_of_lt (by omega)
  have h2 : (va + 8) % 2 ^ 48 = va + 8 := Nat.mod_eq_of_lt hlt
  rw [spanVas, hw, h8, wordVas]
  simp only [List.range_succ, List.range_zero, List.nil_append, List.cons_append, List.map_cons, List.map_nil,
    Nat.mul_zero, Nat.mul_one, Nat.add_zero, Nat.zero_add, show (16 + 7) / 8 = 2 from rfl, h1, h2]

theorem book_on {g : Guard} {rel : Bool} {d a : R6} {s : State} {t : Strand} (h : Ready s t (.book g rel d a) g) :
    exec (.book g rel d a) s = .next (calRequest s t 0 d (getG t a) 0 false none rel) := by
  simp only [exec]
  exact issue_on _ _ h

theorem calrel_on {g : Guard} {rel : Bool} {d a : R6} {s : State} {t : Strand} (h : Ready s t (.calrel g rel d a) g) :
    exec (.calrel g rel d a) s = .next (calRequest s t 1 d (getG t a) 0 false none rel) := by
  simp only [exec]
  exact issue_on _ _ h

theorem calq_on {g : Guard} {own rel : Bool} {d a : R6} {res : BitVec 5} {s : State} {t : Strand}
    (h : Ready s t (.calq g own rel d a res) g) :
    exec (.calq g own rel d a res) s = .next (calRequest s t 2 d (getG t a) res.toNat own none rel) := by
  simp only [exec]
  exact issue_on _ _ h

theorem pipebind_on {g : Guard} {u : Bool} {d a : R6} {s : State} {t : Strand} (h : Ready s t (.pipebind g u d a) g) :
    exec (.pipebind g u d a) s = .next (match descWords s t (getG t a) 2 8 with
      | .error e => raise (.pipebind g u d a) e.1 s t (BitVec.ofNat 64 e.2)
      | .ok r => calRequest r.st t (if u then 4 else 3) d (r.words.getD 0 0) 0 false
          (pipePhys s t.task.pid t.task.root (r.words.getD 0 0) (r.words.getD 1 0)) false) := by
  simp only [exec]
  exact issue_on _ _ h

theorem endRequest_on {i : Instr} {g : Guard} {kind : Nat} {d a : R6} {s : State} {t : Strand}
    (hx : exec i s = endRequest i g kind d a s) (h : Ready s t i g) (hs : isSup t = true) :
    exec i s = .next (if (getG t a).toNat / 256 ≠ 0 then raise i .reservedField s t 0
      else updDie (putStrand s (advance (setG s.cycle (8 * (tickNow s + 2) - s.cycle) d (getG t d) t)))
        (dieOf (setG s.cycle (8 * (tickNow s + 2) - s.cycle) d (getG t d) t).cl) (fun k => { k with endReqs := k.endReqs ++
          [⟨t.cl, t.lane, s.cycle, t.task.pid, kind, (getG t a).toNat, t.task.id, d.toNat⟩] })) := by
  rw [hx, endRequest, issueSup_on _ h hs]
  simp only [leaseHit_of_ready h, Bool.false_eq_true, if_false]

theorem asks_of_endRequest {i : Instr} {g : Guard} {kind : Nat} {d a : R6} {s : State} {t : Strand}
    (hx : exec i s = endRequest i g kind d a s) (h : Ready s t i g) (hs : t.task.fq = true) :
    (256 ≤ (getG t a).toNat → Raises i s t 2)
      ∧ ((getG t a).toNat < 256 → ∃ s' t', Lands i s s' t' ∧ OnlyMoves t t' ∧ SameMem s s'
        ∧ (getDie s' (dieOf t.cl)).endReqs = (getDie s (dieOf t.cl)).endReqs ++ [⟨t.cl, t.lane, s.cycle, t.task.pid, kind,
            (getG t a).toNat, t.task.id, d.toNat⟩]) := by
  have hon := endRequest_on hx h hs
  refine ⟨fun hge => ?_, fun hlt => ?_⟩
  · rw [if_pos (by omega)] at hon
    exact ⟨_, hon, faulted_raise ..⟩
  · rw [if_neg (by omega)] at hon
    refine ⟨_, _, ⟨hon, putStrand_lands _ _ _ rfl⟩, onlyMoves_setG_self .., fun _ => rfl, ?_⟩
    rw [setG_cl, getDie_updDie_same, getDie_putStrand]

/-- Settles O33: each form leaves its request with what it read; PIPEBIND first reads its entry. -/
theorem boundaryRequests : Obligations.BoundaryRequests := by
  intro g rel own u d a res s t
  refine ⟨fun i kind hm h => ?_, fun r0 h h8 hr => ?_, fun h h8 => ?_, fun cs v h h8 hr => ?_, fun va h8 hlt ho => ?_, fun i kind hm h hs => ?_⟩
  · simp only [List.mem_cons, List.not_mem_nil, or_false, Prod.mk.injEq] at hm
    rcases hm with ⟨rfl, rfl⟩ | ⟨rfl, rfl⟩ | ⟨rfl, rfl⟩
    · obtain ⟨s', t', h1, h2, h3, h4, h5⟩ := asks_of_calRequest (book_on h) rfl rfl rfl
      exact ⟨s', t', _, h1, h2, h3, h4, h5, rfl, rfl, rfl, rfl, rfl, rfl, rfl, fun e => absurd e (by decide)⟩
    · obtain ⟨s', t', h1, h2, h3, h4, h5⟩ := asks_of_calRequest (calrel_on h) rfl rfl rfl
      exact ⟨s', t', _, h1, h2, h3, h4, h5, rfl, rfl, rfl, rfl, rfl, rfl, rfl, fun e => absurd e (by decide)⟩
    · obtain ⟨s', t', h1, h2, h3, h4, h5⟩ := asks_of_calRequest (calq_on h) rfl rfl rfl
      exact ⟨s', t', _, h1, h2, h3, h4, h5, rfl, rfl, rfl, rfl, rfl, rfl, rfl, fun _ => ⟨rfl, rfl⟩⟩
  · have hx := pipebind_on h
    rw [descWords_aligned h8, hr] at hx
    obtain ⟨k1, k2, k3, k4, -⟩ := laneRead_keeps hr
    obtain ⟨s', t', h1, h2, h3, h4, -⟩ := asks_of_calRequest hx k1 k2 k3
    exact ⟨s', t', _, h1, h2, h3, h4, rfl, rfl, rfl, rfl, rfl⟩
  · have hx := pipebind_on h
    rw [descWords_bad h8] at hx
    exact ⟨_, hx, faulted_raise ..⟩
  · have hx := pipebind_on h
    rw [descWords_aligned h8, hr] at hx
    exact ⟨_, hx, faulted_raise ..⟩
  · rcases ho with ho | ho
    · exact laneRead_residency (by rw [spanVas_two h8 hlt]; exact List.mem_cons_self ..) ho
    · exact laneRead_residency (by rw [spanVas_two h8 hlt]; exact List.mem_cons_of_mem _ (List.mem_cons_self ..)) ho
  · simp only [List.mem_cons, List.not_mem_nil, or_false, Prod.mk.injEq] at hm
    rcases hm with ⟨rfl, rfl⟩ | ⟨rfl, rfl⟩ | ⟨rfl, rfl⟩
    · exact asks_of_endRequest rfl h hs
    · exact asks_of_endRequest rfl h hs
    · exact asks_of_endRequest rfl h hs

/-! ### Queues (R244, R254) -/

theorem tabGet_map {α : Type} (f : α → α) (t : Tab α) (k : Nat) :
    tabGet (t.map (fun e => (e.1, f e.2))) k = (tabGet t k).map f := by
  induction t with
  | nil => rfl
  | cons x t ih =>
    simp only [List.map_cons, tabGet]
    split_ifs
    · rfl
    · rfl
    · exact ih

/-- What `markHeads` does to one queue. -/
def markHead (n : Nat) : List Entry → List Entry
  | e :: l => { e with headAt := some (e.headAt.getD n) } :: l
  | [] => []

theorem queueOf_markHeads (s : State) (cl p q : Nat) :
    queueOf (getCp (markHeads s cl p) cl p) q = markHead (tickNow s) (queueOf (getCp s cl p) q) := by
  have hm : markHeads s cl p = updCp s cl p (fun k => { k with queues := k.queues.map (fun e => (e.1, markHead (tickNow s) e.2)) }) := rfl
  rw [hm, getCp_updCp_same]
  simp only [queueOf, tabGet_map]
  cases tabGet (getCp s cl p).queues q <;> rfl

theorem markHead_map (n : Nat) (l : List Entry) :
    (markHead n l).map (fun x => { x with headAt := none }) = l.map (fun x => { x with headAt := none }) := by
  cases l <;> rfl

/-- The entry that `appendEntry` makes of `e`. -/
def enteredAs (s : State) (cl p q : Nat) (e : Entry) (clamp : Bool) : Entry :=
  { e with
    queue := q, prio := if clamp then min e.prio (qPmax (qcfg s cl p q)) else e.prio, since := tickNow s, nb := nbTick s e.nbt
    headAt := none, capAt := none }

theorem queueOf_appendEntry (s : State) (cl p q : Nat) (e : Entry) (clamp : Bool) :
    queueOf (getCp (appendEntry s cl p q e clamp) cl p) q
      = markHead (tickNow s) (queueOf (getCp s cl p) q ++ [enteredAs s cl p q e clamp]) := by
  unfold appendEntry
  rw [queueOf_markHeads, getCp_updCp_same, queueOf, tabGet_tabSet_same]
  rfl

/-- An entry that `appendEntry` takes stands at the tail of its queue (R244, R254). -/
theorem appended_of_appendEntry {s s0 s' : State} {cl p q : Nat} {e : Entry} {clamp : Bool}
    (hs : s'.clParts = (appendEntry s0 cl p q e clamp).clParts) (hk : s0.clParts = s.clParts) (hc : s0.cycle = s.cycle) :
    Appended s s' cl p q (enteredAs s0 cl p q e clamp) := by
  have hwas : getCp s cl p = getCp s0 cl p := by simp only [getCp, hk]
  have hnow : getCp s' cl p = getCp (appendEntry s0 cl p q e clamp) cl p := by simp only [getCp, hs]
  have ht : tickNow s = tickNow s0 := by simp only [tickNow, hc]
  unfold Appended
  dsimp only
  rw [hwas, hnow, ht, queueOf_appendEntry]
  refine ⟨markHead_map .., rfl, rfl, fun h l hl => ?_⟩
  cases hq : queueOf (getCp s0 cl p) q ++ [enteredAs s0 cl p q e clamp] with
  | nil => simp at hq
  | cons x xs =>
    rw [hq] at hl
    simp only [markHead, List.cons.injEq] at hl
    rw [← hl.1]
    rfl

/-! ### QPUSH, GANG and LAUNCH (R241, R261) -/

theorem raises_of_raise {i : Instr} {s : State} {t : Strand} (c : Cause) (va : Word) (hx : exec i s = .next (raise i c s t va)) :
    Raises i s t (causeCode c) := ⟨_, hx, faulted_raise ..⟩

theorem qpush_on {g : Guard} {a : R6} {q : BitVec 4} {s : State} {t : Strand} (h : Ready s t (.qpush g a q) g) :
    exec (.qpush g a q) s = .next (match descWords s t (getG t a) 4 32 with
      | .error e => raise (.qpush g a q) e.1 s t (BitVec.ofNat 64 e.2)
      | .ok r =>
        if descBad r.words then raise (.qpush g a q) .reservedField s t 0
        else if !qUpush (qcfg s t.cl t.task.pid q.toNat) && !isSup t then raise (.qpush g a q) .privilege s t 0
        else if queueShut s t.cl t.task.pid q.toNat then raise (.qpush g a q) .queueFull s t 0
        else appendTask (arrive (putStrand r.st (advance t)) t.cl t.lane) t.cl t.task.pid q.toNat r.words) := by
  simp only [exec]
  exact issue_on _ _ h

/-- The entry of a gang before it enters its queue. -/
def gangEntry (s : State) (t : Strand) (q : Nat) (ws : List Word) : Entry :=
  let pr := (ws.getD 0 0).toNat / 2 ^ 16 % 128
  let e : Entry := { freshEntry s.nextId t.task.pid [0, 0, 0, ws.getD 2 0] with work := .gang ws, prio := pr }
  { e with task := { e.task with bprio := min pr (qPmax (qcfg s t.cl t.task.pid q)) } }

theorem gang_on {g : Guard} {a : R6} {q : BitVec 4} {s : State} {t : Strand} (h : Ready s t (.gang g a q) g) :
    exec (.gang g a q) s = .next (match descWords s t (getG t a) 4 32 with
      | .error e => raise (.gang g a q) e.1 s t (BitVec.ofNat 64 e.2)
      | .ok r0 => match descWords s t (getG t a) (4 + 4 * min ((r0.words.getD 0 0).toNat % 16) 8) 32 with
        | .error e => raise (.gang g a q) e.1 s t (BitVec.ofNat 64 e.2)
        | .ok r =>
          if !qUpush (qcfg s t.cl t.task.pid q.toNat) && !isSup t then raise (.gang g a q) .privilege s t 0
          else if queueShut s t.cl t.task.pid q.toNat then raise (.gang g a q) .queueFull s t 0
          else appendEntry (arrive { putStrand r.st (advance t) with nextId := s.nextId + 1 } t.cl t.lane) t.cl t.task.pid q.toNat
            (gangEntry s t q.toNat r.words) true) := by
  simp only [exec]
  exact issue_on _ _ h

theorem launch_on {g : Guard} {d a b c : R6} {s : State} {t : Strand} (h : Ready s t (.launch g d a b c) g) :
    exec (.launch g d a b c) s = .next (
      if ctrFull t c then raise (.launch g d a b c) .counter s t 0
      else match descWords s t (getG t a) 4 32 with
        | .error e => raise (.launch g d a b c) e.1 s t (BitVec.ofNat 64 e.2)
        | .ok r =>
          if descBad r.words ∨ (getG t b).toNat / 2 ^ 12 ≠ 0 then raise (.launch g d a b c) .reservedField s t 0
          else if !inRect s t.task.pid ((getG t b).toNat % 8 * 32 + (getG t b).toNat / 8 % 32) then raise (.launch g d a b c) .tenant s t 0
          else
            let s := updCp (relIf true t r.st) t.cl t.task.pid (fun k => { k with msgSent := (k.msgSent + 1) % 2 ^ 48 })
            issueOp s t { mkOp s t .launch (some c) (dstG d) 4 (getG t b :: r.words) with
              unit := (getG t b).toNat % 8 * 32 + (getG t b).toNat / 8 % 32, i := (getG t b).toNat / 2 ^ 8 % 16 }) := by
  simp only [exec]
  exact issue_on _ _ h

theorem descBad_iff (ws : List Word) : descBad ws = true ↔ 2 ^ 55 ≤ (ws.getD 0 0).toNat ∨ (ws.getD 0 0).toNat % 8 ≠ 0 := by
  simp only [descBad, Bool.or_eq_true, bne_iff_ne]
  omega

theorem descBad_false {ws : List Word} (h1 : (ws.getD 0 0).toNat < 2 ^ 55) (h2 : (ws.getD 0 0).toNat % 8 = 0) : descBad ws = false := by
  rw [← Bool.not_eq_true, descBad_iff]
  omega

/-- The queue may not be written: neither UPUSH nor supervisor privilege. -/
theorem mayPush_iff (s : State) (t : Strand) (q : Nat) :
    (!qUpush (qcfg s t.cl t.task.pid q) && !isSup t) = false
      ↔ (cpCtl s t.cl t.task.pid (0x190 + q)).getLsbD 1 = true ∨ t.task.fq = true := by
  simp only [qUpush, bit, qcfg, isSup, Bool.and_eq_false_iff, Bool.not_eq_false']

theorem mayNotPush {s : State} {t : Strand} {q : Nat} (h1 : (cpCtl s t.cl t.task.pid (0x190 + q)).getLsbD 1 = false)
    (h2 : t.task.fq = false) : (!qUpush (qcfg s t.cl t.task.pid q) && !isSup t) = true := by
  rw [← Bool.not_eq_false, mayPush_iff, h1, h2]
  decide

theorem queue_errors {g : Guard} {d a b c : R6} {q : BitVec 4} {s : State} {t : Strand} {i : Instr}
    (hi : i ∈ [Instr.qpush g a q, .gang g a q, .launch g d a b c]) (h : Ready s t i g) (hc : i = .launch g d a b c → CtrFree t c)
    {e : Cause × Nat} (he : descWords s t (getG t a) 4 32 = .error e) : Raises i s t (causeCode e.1) := by
  simp only [List.mem_cons, List.not_mem_nil, or_false] at hi
  rcases hi with rfl | rfl | rfl
  · exact ⟨_, (qpush_on h).trans (by rw [he]), faulted_raise ..⟩
  · exact ⟨_, (gang_on h).trans (by rw [he]), faulted_raise ..⟩
  · refine ⟨_, (launch_on h).trans ?_, faulted_raise (.launch g d a b c) _ _ _ (BitVec.ofNat 64 e.2)⟩
    rw [if_neg (by rw [hc rfl]; exact Bool.false_ne_true), he]

theorem arrive_keeps (s : State) (cl k : Nat) :
    (arrive s cl k).cur = s.cur ∧ (arrive s cl k).mem = s.mem ∧ (arrive s cl k).clParts = s.clParts
      ∧ (arrive s cl k).cycle = s.cycle ∧ (arrive s cl k).strands = s.strands := ⟨rfl, rfl, rfl, rfl, rfl⟩

theorem qcfg_congr {s s' : State} (h : s'.clParts = s.clParts) (cl p q : Nat) : qcfg s' cl p q = qcfg s cl p q := by
  simp only [qcfg, cpCtl, getCp, h]

/-- QPUSH of a descriptor without a reserved bit. -/
theorem qpush_pushes {g : Guard} {a : R6} {q : BitVec 4} {s : State} {t : Strand} {r : LaneRd} (h : Ready s t (.qpush g a q) g)
    (hd : descWords s t (getG t a) 4 32 = .ok r) (hr : laneRead s t ((getG t a).toNat % 2 ^ 48) 32 = .ok r) (hb : descBad r.words = false) :
    let p := t.task.pid
    let cfg := cpCtl s t.cl p (0x190 + q.toNat)
    let pmax := cfg.toNat / 16 % 128
    let w := fun (k : Nat) => r.words.getD k 0
    (cfg.getLsbD 1 = false → t.task.fq = false → Raises (.qpush g a q) s t 19)
      ∧ (cfg.getLsbD 1 = true ∨ t.task.fq = true → queueShut s t.cl p q.toNat = true → Raises (.qpush g a q) s t 16)
      ∧ (cfg.getLsbD 1 = true ∨ t.task.fq = true → queueShut s t.cl p q.toNat = false →
        ∃ s' t' e, Lands (.qpush g a q) s s' t' ∧ OnlyMoves t t' ∧ SameMem s s'
          ∧ Appended s s' t.cl p q.toNat e
          ∧ e.work = .fresh ((w 0).setWidth 48) (w 1) (w 2) ∧ e.prio = min ((w 0).toNat / 2 ^ 48 % 128) pmax
          ∧ e.task.bprio = e.prio ∧ e.task.pid = p ∧ e.nbt = w 3) := by
  intro p cfg pmax w
  have hx := qpush_on h
  simp only [hd, hb, Bool.false_eq_true, if_false] at hx
  refine ⟨fun h1 h2 => ?_, fun hp hs => ?_, fun hp hs => ?_⟩
  · rw [if_pos (mayNotPush h1 h2)] at hx
    exact ⟨_, hx, faulted_raise ..⟩
  · rw [if_neg (by rw [(mayPush_iff s t q.toNat).mpr hp]; exact Bool.false_ne_true), if_pos hs] at hx
    exact ⟨_, hx, faulted_raise ..⟩
  · rw [if_neg (by rw [(mayPush_iff s t q.toNat).mpr hp]; exact Bool.false_ne_true), if_neg (by rw [hs]; exact Bool.false_ne_true)] at hx
    obtain ⟨k1, k2, k3, k4, -⟩ := laneRead_keeps hr
    have hq : qcfg (arrive (putStrand r.st (advance t)) t.cl t.lane) t.cl t.task.pid q.toNat = cfg := qcfg_congr k3 ..
    refine ⟨_, _, _, ⟨hx, putStrand_lands r.st _ _ k1⟩, onlyMoves_advance t, fun b => congrArg (rdCell · b) k2,
      appended_of_appendEntry rfl k3 k4, rfl, ?_, rfl, rfl, rfl⟩
    exact congrArg (fun x => min ((w 0).toNat / 2 ^ 48 % 128) (qPmax x)) hq

/-- GANG of a descriptor that can be read. -/
theorem gang_pushes {g : Guard} {a : R6} {q : BitVec 4} {s : State} {t : Strand} {r0 r : LaneRd} (h : Ready s t (.gang g a q) g)
    (hd0 : descWords s t (getG t a) 4 32 = .ok r0)
    (hd : descWords s t (getG t a) (4 + 4 * min ((r0.words.getD 0 0).toNat % 16) 8) 32 = .ok r)
    (hr : laneRead s t ((getG t a).toNat % 2 ^ 48) (8 * (4 + 4 * min ((r0.words.getD 0 0).toNat % 16) 8)) = .ok r) :
    let p := t.task.pid
    let cfg := cpCtl s t.cl p (0x190 + q.toNat)
    let pmax := cfg.toNat / 16 % 128
    let w := fun (k : Nat) => r.words.getD k 0
    (cfg.getLsbD 1 = false → t.task.fq = false → Raises (.gang g a q) s t 19)
      ∧ (cfg.getLsbD 1 = true ∨ t.task.fq = true → queueShut s t.cl p q.toNat = true → Raises (.gang g a q) s t 16)
      ∧ (cfg.getLsbD 1 = true ∨ t.task.fq = true → queueShut s t.cl p q.toNat = false →
        ∃ s' t' e, Lands (.gang g a q) s s' t' ∧ OnlyMoves t t' ∧ SameMem s s'
          ∧ Appended s s' t.cl p q.toNat e
          ∧ e.work = .gang r.words ∧ e.prio = min ((w 0).toNat / 2 ^ 16 % 128) pmax ∧ e.nbt = w 2) := by
  intro p cfg pmax w
  have hx := gang_on h
  simp only [hd0, hd] at hx
  refine ⟨fun h1 h2 => ?_, fun hp hs => ?_, fun hp hs => ?_⟩
  · rw [if_pos (mayNotPush h1 h2)] at hx
    exact ⟨_, hx, faulted_raise ..⟩
  · rw [if_neg (by rw [(mayPush_iff s t q.toNat).mpr hp]; exact Bool.false_ne_true), if_pos hs] at hx
    exact ⟨_, hx, faulted_raise ..⟩
  · rw [if_neg (by rw [(mayPush_iff s t q.toNat).mpr hp]; exact Bool.false_ne_true), if_neg (by rw [hs]; exact Bool.false_ne_true)] at hx
    obtain ⟨k1, k2, k3, k4, -⟩ := laneRead_keeps hr
    have hq : qcfg (arrive { putStrand r.st (advance t) with nextId := s.nextId + 1 } t.cl t.lane) t.cl t.task.pid q.toNat = cfg :=
      qcfg_congr k3 ..
    refine ⟨_, _, _, ⟨hx, putStrand_lands r.st _ _ k1⟩, onlyMoves_advance t, fun b => congrArg (rdCell · b) k2,
      appended_of_appendEntry rfl k3 k4, rfl, ?_, rfl⟩
    exact congrArg (fun x => min ((w 0).toNat / 2 ^ 16 % 128) (qPmax x)) hq

/-- LAUNCH of a descriptor and a target without a reserved bit. -/
theorem launch_sends {g : Guard} {d a b c : R6} {s : State} {t : Strand} {r : LaneRd} (h : Ready s t (.launch g d a b c) g)
    (hd : descWords s t (getG t a) 4 32 = .ok r) (hr : laneRead s t ((getG t a).toNat % 2 ^ 48) 32 = .ok r) (hc : CtrFree t c)
    (hb : descBad r.words = false) (hw : (getG t b).toNat < 2 ^ 12) :
    let p := t.task.pid
    let cl := (getG t b).toNat % 8 * 32 + (getG t b).toNat / 8 % 32
    (inRect s p cl = false → Raises (.launch g d a b c) s t 12)
      ∧ (inRect s p cl = true →
        Issues (.launch g d a b c) s t .launch (some c) (dstG d) (fun o =>
          o.args = getG t b :: r.words ∧ o.unit = cl ∧ o.i = (getG t b).toNat / 2 ^ 8 ∧ o.sup = t.task.fq)
        ∧ ∃ s', exec (.launch g d a b c) s = .next s'
          ∧ (getCp s' t.cl p).msgSent = ((getCp s t.cl p).msgSent + 1) % 2 ^ 48) := by
  intro p cl
  have hx := launch_on h
  have hz : (getG t b).toNat / 2 ^ 12 = 0 := Nat.div_eq_of_lt hw
  rw [if_neg (by rw [hc]; exact Bool.false_ne_true), hd] at hx
  simp only [hb, hz, Bool.false_eq_true, ne_eq, not_true_eq_false, or_self, if_false] at hx
  refine ⟨fun hi => ?_, fun hi => ?_⟩
  · rw [if_pos (by rw [show inRect s t.task.pid _ = false from hi]; rfl)] at hx
    exact ⟨_, hx, faulted_raise ..⟩
  · rw [if_neg (by rw [show inRect s t.task.pid _ = true from hi]; exact Bool.false_ne_true)] at hx
    obtain ⟨k1, k2, k3, k4, k5, k6⟩ := laneRead_keeps hr
    obtain ⟨f1, f2, -, -, f5, f6, f7, -⟩ := sameFrame_relIf true t r.st
    refine ⟨issues_of_issueOp hx (f1.trans k1) (f5.trans k5) (f6.trans k6) (f6.trans k6) rfl rfl rfl rfl rfl rfl ⟨rfl, rfl, ?_, rfl⟩
      rfl rfl rfl rfl rfl rfl rfl ⟨rfl, rfl, rfl, rfl, rfl, rfl⟩ rfl rfl rfl, _, hx, ?_⟩
    · exact Nat.mod_eq_of_lt (by omega)
    · have hcp : getCp (relIf true t r.st) t.cl p = getCp s t.cl p := by simp only [getCp, f7.trans k3]
      change (getCp (updCp (relIf true t r.st) t.cl p (fun k => { k with msgSent := (k.msgSent + 1) % 2 ^ 48 })) t.cl p).msgSent = _
      rw [getCp_updCp_same, hcp]

/-- Settles O34: the three forms read their descriptor, check it in the order of R261, and append or send it. -/
theorem queueEntries : Obligations.QueueEntries := by
  intro g d a b c q s t r p va w cfg pmax bad
  refine ⟨fun i hi h hc => ⟨fun hal => queue_errors hi h hc (descWords_bad hal), fun cs v hal hr => ?_⟩, fun r0 cs v hal hr0 hr h => ?_,
    fun h hc => ?_, fun hal hr hbad => ⟨fun h => ?_, fun h hc => ?_⟩, fun hal hr h hc hb => ?_, fun hal => ⟨fun h hr h1 h2 => ?_,
      fun r0 hr0 h hr => ?_, fun h hr hc h1 h2 h3 => ?_⟩⟩
  · exact queue_errors hi h hc ((descWords_aligned hal).trans hr)
  · exact ⟨_, (gang_on h).trans (by rw [(descWords_aligned hal).trans hr0]; dsimp only; rw [(descWords_aligned hal).trans hr]), faulted_raise ..⟩
  · have hf : ctrFull t c = true := by simpa [CtrFree] using hc
    exact ⟨_, (launch_on h).trans (by rw [if_pos hf]), faulted_raise ..⟩
  · have hx := qpush_on h
    rw [(descWords_aligned hal).trans hr] at hx
    exact raises_of_raise .reservedField 0 (hx.trans (congrArg _ (if_pos ((descBad_iff _).mpr hbad))))
  · have hx := launch_on h
    rw [if_neg (by rw [hc]; exact Bool.false_ne_true), (descWords_aligned hal).trans hr] at hx
    exact raises_of_raise .reservedField 0 (hx.trans (congrArg _ (if_pos (Or.inl ((descBad_iff _).mpr hbad)))))
  · have hx := launch_on h
    rw [if_neg (by rw [hc]; exact Bool.false_ne_true), (descWords_aligned hal).trans hr] at hx
    exact raises_of_raise .reservedField 0 (hx.trans (congrArg _ (if_pos (Or.inr (by omega)))))
  · exact qpush_pushes h ((descWords_aligned hal).trans hr) hr (descBad_false h1 h2)
  · exact gang_pushes h ((descWords_aligned hal).trans hr0) ((descWords_aligned hal).trans hr) hr
  · exact launch_sends h ((descWords_aligned hal).trans hr) hr hc (descBad_false h1 h2) h3

end Sys2Proof.Machine
end

section
/-! SUPPORT. ATTD, LFILT and KVAPP read and check a descriptor; COMMIT, DQSEND, MSEND, SSTEP.B, SACTP and COLL copy their words at issue; SAMPLE and ACCEPT read their records (R317, R320, R337-R354, R356-R359, R388-R397). -/

namespace Sys2Proof.Machine

open Laws



/-! ### What a lane read leaves -/

/-- Only the soft errors, and the device's count of them, differ. -/
def OnlySoft (s s' : State) : Prop := s' = { s with soft := s'.soft, dev := s'.dev }

theorem onlySoft_correctSoft (s : State) (a n : Nat) : OnlySoft s (correctSoft s a n) := by
  unfold OnlySoft correctSoft
  dsimp only
  split <;> rfl

theorem OnlySoft.trans {a b c : State} (h : OnlySoft a b) (k : OnlySoft b c) : OnlySoft a c := by
  unfold OnlySoft at *
  rw [k, h]

theorem onlySoft_foldl (l : List Nat) (n : Nat) : ∀ s : State, OnlySoft s (l.foldl (fun s a => correctSoft s a n) s) := by
  induction l with
  | nil => exact fun s => rfl
  | cons a l ih => exact fun s => (onlySoft_correctSoft s a n).trans (ih _)

theorem laneRead_onlySoft {s : State} {t : Strand} {va n : Nat} {r : LaneRd} (h : laneRead s t va n = .ok r) : OnlySoft s r.st := by
  unfold laneRead at h
  dsimp only at h
  split at h
  · cases h
  · split at h
    · cases h
    · cases h
      exact onlySoft_foldl ..

/-- A split after a lane read is a split of the state before it. -/
theorem splitsHere_of_onlySoft {i : Instr} {s s0 : State} {t : Strand} {event : Nat} {evarg : Word} (h0 : OnlySoft s s0)
    (h : SplitsFrom i s s0 t event evarg) : SplitsHere i s t event evarg := by
  refine ⟨fun hs => ?_, h.2⟩
  obtain ⟨s', c, hx, ⟨l1, l2, l3, l4⟩, hr⟩ := h.1 hs
  rw [h0] at l2 l3
  exact ⟨s', c, hx, ⟨l1, l2, l3, l4⟩, hr⟩

theorem va48_mod {k : Nat} (h : k ∣ 2 ^ 48) (w : Word) : va48 w % k = w.toNat % k := Nat.mod_mod_of_dvd _ h

theorem mem_spanVas {va n : Nat} (h8 : va % 8 = 0) (hlt : va < 2 ^ 48) (hn : 0 < n) : va ∈ spanVas va n := by
  have hw : wordOf va = va := by unfold wordOf; omega
  rw [spanVas, hw, h8, wordVas, List.mem_map]
  exact ⟨0, List.mem_range.mpr (by omega), by rw [Nat.mul_zero, Nat.add_zero, Nat.mod_eq_of_lt hlt]⟩

/-- A descriptor outside the page set cannot be read. -/
theorem laneRead_outside {s : State} {t : Strand} {va n : Nat} (h8 : va % 8 = 0) (hlt : va < 2 ^ 48) (hn : 0 < n)
    (ho : inPageSet t va = false) : ∃ v, laneRead s t va n = .error (.residency, v) :=
  laneRead_residency (mem_spanVas h8 hlt hn) (by rw [ownPage, ho, Bool.false_and])

/-! ### ATTD (R317) -/

/-- A field of ATTD's descriptor breaks its rule. -/
def attdBad (x : Nat → Word) : Bool :=
  (x 0).toNat / 2 ^ 59 % 8 != 0 || (x 1).toNat / 2 ^ 61 != 0 || (x 2).toNat / 2 ^ 48 != 0
    || (x 3).toNat / 2 ^ 49 != 0 || x 4 != 0 || x 5 != 0 || x 6 != 0 || x 7 != 0 || decide (4096 < (x 1).toNat / 2 ^ 48 % 2 ^ 13)
    || (x 3).toNat / 2 ^ 40 % 2 ^ 9 % 2 != 0 || decide ((x 3).toNat / 2 ^ 40 % 2 ^ 9 < 2) || decide (256 < (x 3).toNat / 2 ^ 40 % 2 ^ 9)

/-- The first misaligned address of ATTD's descriptor. -/
def attdMisaligned (x : Nat → Word) : Option (Nat × Nat) :=
  [(va48 (x 0), 8), (va48 (x 1), 16), (va48 (x 2), 64)].find? (fun e => e.1 % e.2 != 0)

theorem attd_on {g : Guard} {sc : BitVec 3} {a c : R6} {s : State} {t : Strand} (h : Ready s t (.attd g sc a c) g) :
    exec (.attd g sc a c) s = .next (
      if ctrFull t c then raise (.attd g sc a c) .counter s t 0
      else if va48 (getG t a) % 64 ≠ 0 then raise (.attd g sc a c) .align s t (BitVec.ofNat 64 (va48 (getG t a)))
      else match laneRead s t (va48 (getG t a)) 64 with
        | .error e => raise (.attd g sc a c) e.1 s t (BitVec.ofNat 64 e.2)
        | .ok r =>
          let x := fun k => (r.words.getD k 0)
          if attdBad x then raise (.attd g sc a c) .reservedField s t 0
          else match attdMisaligned x with
            | some e => raise (.attd g sc a c) .align s t (BitVec.ofNat 64 e.1)
            | none => issueOp r.st t { mkOp r.st t .attd (some c) none sc.toNat
                [x 0, x 1, x 2, x 3, cpCtl r.st t.cl t.task.pid 0x1B0] with
              leases := leaseOf r.st t [(va48 (x 0), 4 * ((x 3).toNat / 2 ^ 40 % 2 ^ 9)),
                (va48 (x 1), 16 * ((x 1).toNat / 2 ^ 48 % 2 ^ 13)), (va48 (x 2), 64 + 4 * ((x 3).toNat / 2 ^ 40 % 2 ^ 9))] }) := by
  simp only [exec]
  exact issue_on _ _ h

theorem attdBad_false_iff (x : Nat → Word) :
    attdBad x = false ↔ (x 0).toNat / 2 ^ 59 % 8 = 0 ∧ (x 1).toNat / 2 ^ 61 = 0 ∧ (x 2).toNat / 2 ^ 48 = 0 ∧ (x 3).toNat / 2 ^ 49 = 0
      ∧ ((x 4).toNat = 0 ∧ (x 5).toNat = 0 ∧ (x 6).toNat = 0 ∧ (x 7).toNat = 0) ∧ (x 1).toNat / 2 ^ 48 % 2 ^ 13 ≤ 4096
      ∧ (x 3).toNat / 2 ^ 40 % 2 ^ 9 % 2 = 0 ∧ 2 ≤ (x 3).toNat / 2 ^ 40 % 2 ^ 9 ∧ (x 3).toNat / 2 ^ 40 % 2 ^ 9 ≤ 256 := by
  have hz : ∀ w : Word, w.toNat = 0 ↔ w = 0 := fun w => ⟨fun h => BitVec.eq_of_toNat_eq h, fun h => by rw [h]; rfl⟩
  rw [hz (x 4), hz (x 5), hz (x 6), hz (x 7)]
  simp only [attdBad, Bool.or_eq_false_iff, bne_eq_false_iff_eq, decide_eq_false_iff_not, Nat.not_lt, and_assoc]

theorem attdMisaligned_none_iff (x : Nat → Word) :
    attdMisaligned x = none ↔ (x 0).toNat % 8 = 0 ∧ (x 1).toNat % 16 = 0 ∧ (x 2).toNat % 64 = 0 := by
  have h8 := va48_mod (k := 8) (by decide)
  have h16 := va48_mod (k := 16) (by decide)
  have h64 := va48_mod (k := 64) (by decide)
  simp [attdMisaligned, h8, h16, h64]

/-! ### LFILT (R320, R348) -/

/-- A field of LFILT's descriptor breaks its rule. -/
def lfiltBad (w : Nat → Nat) : Bool :=
  w 0 / 2 ^ 48 != 0 || w 1 / 2 ^ 24 % 2 ^ 8 != 0 || w 1 / 2 ^ 42 != 0 || w 1 % 2 ^ 24 == 0 || w 1 / 2 ^ 32 % 2 ^ 9 == 0
    || decide (256 < w 1 / 2 ^ 32 % 2 ^ 9) || thrBad (w 1 / 2 ^ 41 % 2 == 1) (w 2 % 2 ^ 32) || w 3 / 2 ^ 49 != 0 || w 4 != 0 || w 5 != 0
    || w 6 != 0 || w 7 != 0 || w 3 % 2 ^ 48 % 128 != 0 || (w 3 / 2 ^ 48 % 2 == 1 && decide (w 1 % 2 ^ 24 ≤ w 2 / 2 ^ 32))

theorem lfilt_on {g : Guard} {sc : BitVec 3} {a c : R6} {s : State} {t : Strand} (h : Ready s t (.lfilt g sc a c) g) :
    exec (.lfilt g sc a c) s = .next (
      if ctrFull t c then raise (.lfilt g sc a c) .counter s t 0
      else if va48 (getG t a) % 64 ≠ 0 then raise (.lfilt g sc a c) .align s t (BitVec.ofNat 64 (va48 (getG t a)))
      else match laneRead s t (va48 (getG t a)) 64 with
        | .error e => raise (.lfilt g sc a c) e.1 s t (BitVec.ofNat 64 e.2)
        | .ok r =>
          if lfiltBad (fun k => (r.words.getD k 0).toNat) then raise (.lfilt g sc a c) .reservedField s t 0
          else issueOp r.st t { mkOp r.st t .lfilt (some c) none sc.toNat (r.words.take 4) with
            leases := leaseOf s t [((r.words.getD 3 0).toNat % 2 ^ 48, 2112)] }) := by
  simp only [exec]
  exact issue_on _ _ h

theorem lfiltBad_false_iff (w : Nat → Nat) :
    lfiltBad w = false ↔ w 0 / 2 ^ 48 = 0 ∧ w 1 / 2 ^ 24 % 2 ^ 8 = 0 ∧ w 1 / 2 ^ 42 = 0 ∧ w 1 % 2 ^ 24 ≠ 0 ∧ 1 ≤ w 1 / 2 ^ 32 % 2 ^ 9
      ∧ w 1 / 2 ^ 32 % 2 ^ 9 ≤ 256 ∧ thrBad (w 1 / 2 ^ 41 % 2 = 1) (w 2 % 2 ^ 32) = false ∧ w 3 / 2 ^ 49 = 0
      ∧ (w 4 = 0 ∧ w 5 = 0 ∧ w 6 = 0 ∧ w 7 = 0) ∧ w 3 % 2 ^ 48 % 128 = 0
      ∧ (w 3 / 2 ^ 48 % 2 = 1 → w 2 / 2 ^ 32 < w 1 % 2 ^ 24) := by
  have hm : (w 1 / 2 ^ 41 % 2 == 1) = decide (w 1 / 2 ^ 41 % 2 = 1) := rfl
  simp only [lfiltBad, hm, Bool.or_eq_false_iff, bne_eq_false_iff_eq, beq_eq_false_iff_ne, decide_eq_false_iff_not, Nat.not_lt,
    Bool.and_eq_false_iff, Nat.not_le, Nat.one_le_iff_ne_zero, ne_eq, imp_iff_not_or, and_assoc]



theorem clParts_of_onlySoft {s s' : State} (h : OnlySoft s s') : s'.clParts = s.clParts := by rw [h]

theorem ctrFull_of_not_free {t : Strand} {c : R6} (h : ¬ CtrFree t c) : ctrFull t c = true := by simpa [CtrFree] using h

/-- The checks of ATTD and LFILT before their fields. -/
theorem descriptor_errors {g : Guard} {sc : BitVec 3} {a c : R6} {s : State} {t : Strand} {i : Instr}
    (hi : i = .attd g sc a c ∨ i = .lfilt g sc a c) (h : Ready s t i g) :
    let va := (getG t a).toNat % 2 ^ 48
    (¬ CtrFree t c → Raises i s t 22) ∧ (CtrFree t c → va % 64 ≠ 0 → Raises i s t 5)
      ∧ (CtrFree t c → va % 64 = 0 → inPageSet t va = false → Raises i s t 9)
      ∧ (∀ cs v, CtrFree t c → va % 64 = 0 → laneRead s t va 64 = .error (cs, v) → Raises i s t (causeCode cs)) := by
  intro va
  have hread : ∀ cs v, CtrFree t c → va % 64 = 0 → laneRead s t va 64 = .error (cs, v) → Raises i s t (causeCode cs) := by
    intro cs v hc hal hr
    have hal : va48 (getG t a) % 64 = 0 := hal
    rcases hi with rfl | rfl
    · have hx := attd_on h
      rw [if_neg (Bool.eq_false_iff.mp hc), if_neg (not_not.mpr hal), show laneRead s t (va48 _) 64 = _ from hr] at hx
      exact raises_of_raise _ _ hx
    · have hx := lfilt_on h
      rw [if_neg (Bool.eq_false_iff.mp hc), if_neg (not_not.mpr hal), show laneRead s t (va48 _) 64 = _ from hr] at hx
      exact raises_of_raise _ _ hx
  refine ⟨fun hc => ?_, fun hc hal => ?_, fun hc hal ho => ?_, hread⟩
  · have hf := ctrFull_of_not_free hc
    rcases hi with rfl | rfl
    · exact raises_of_raise .counter 0 ((attd_on h).trans (by rw [if_pos hf]))
    · exact raises_of_raise .counter 0 ((lfilt_on h).trans (by rw [if_pos hf]))
  · have hal : va48 (getG t a) % 64 ≠ 0 := hal
    rcases hi with rfl | rfl
    · exact raises_of_raise .align (BitVec.ofNat 64 (va48 (getG t a)))
        ((attd_on h).trans (by rw [if_neg (Bool.eq_false_iff.mp hc), if_pos hal]))
    · exact raises_of_raise .align (BitVec.ofNat 64 (va48 (getG t a)))
        ((lfilt_on h).trans (by rw [if_neg (Bool.eq_false_iff.mp hc), if_pos hal]))
  · obtain ⟨v, hv⟩ := laneRead_outside (s := s) (n := 64) (show va % 8 = 0 by omega) (Nat.mod_lt _ (by decide)) (by decide) ho
    exact hread .residency v hc hal hv

section
variable {g : Guard} {sc : BitVec 3} {a c : R6} {s : State} {t : Strand} {r : LaneRd}

/-- ATTD with its descriptor read. -/
theorem attd_read (h : Ready s t (.attd g sc a c) g) (hal : va48 (getG t a) % 64 = 0) (hc : CtrFree t c)
    (hr : laneRead s t (va48 (getG t a)) 64 = .ok r) :
    let x := fun k => (r.words.getD k 0)
    (attdBad x = true → Raises (.attd g sc a c) s t 2)
      ∧ (attdBad x = false → (attdMisaligned x).isSome = true → Raises (.attd g sc a c) s t 5)
      ∧ (attdBad x = false → attdMisaligned x = none → Issues (.attd g sc a c) s t .attd (some c) none (fun o =>
          o.scope = sc.toNat ∧ o.args = [x 0, x 1, x 2, x 3, cpCtl s t.cl t.task.pid 0x1B0])) := by
  intro x
  have hx := attd_on h
  rw [if_neg (Bool.eq_false_iff.mp hc), if_neg (not_not.mpr hal), hr] at hx
  refine ⟨fun hb => raises_of_raise .reservedField 0 (hx.trans (congrArg _ (if_pos hb))), fun hb hm => ?_, fun hb hm => ?_⟩
  · obtain ⟨e, he⟩ := Option.isSome_iff_exists.mp hm
    refine raises_of_raise .align (BitVec.ofNat 64 e.1) (hx.trans (congrArg _ ((if_neg (Bool.eq_false_iff.mp hb)).trans ?_)))
    rw [show attdMisaligned _ = some e from he]
  · obtain ⟨k1, -, k3, -, k5, k6⟩ := laneRead_keeps hr
    have hon := hx.trans (congrArg _ (if_neg (Bool.eq_false_iff.mp hb)))
    rw [show attdMisaligned _ = none from hm] at hon
    exact issues_of_issueOp hon k1 k5 k6 k6 rfl rfl rfl rfl rfl rfl ⟨rfl, by simp only [mkOp, cpCtl, getCp, k3, x]⟩
      rfl rfl rfl rfl rfl rfl rfl ⟨rfl, rfl, rfl, rfl, rfl, rfl⟩ rfl rfl rfl

/-- LFILT with its descriptor read. -/
theorem lfilt_read (h : Ready s t (.lfilt g sc a c) g) (hal : va48 (getG t a) % 64 = 0) (hc : CtrFree t c)
    (hr : laneRead s t (va48 (getG t a)) 64 = .ok r) :
    let w := fun k => (r.words.getD k 0).toNat
    (lfiltBad w = true → Raises (.lfilt g sc a c) s t 2)
      ∧ (lfiltBad w = false → Issues (.lfilt g sc a c) s t .lfilt (some c) none (fun o =>
          o.scope = sc.toNat ∧ o.args = r.words.take 4)) := by
  intro w
  have hx := lfilt_on h
  rw [if_neg (Bool.eq_false_iff.mp hc), if_neg (not_not.mpr hal), hr] at hx
  refine ⟨fun hb => raises_of_raise .reservedField 0 (hx.trans (congrArg _ (if_pos hb))), fun hb => ?_⟩
  obtain ⟨k1, -, -, -, k5, k6⟩ := laneRead_keeps hr
  exact issues_of_issueOp (hx.trans (congrArg _ (if_neg (Bool.eq_false_iff.mp hb)))) k1 k5 k6 k6 rfl rfl rfl rfl rfl rfl ⟨rfl, rfl⟩
    rfl rfl rfl rfl rfl rfl rfl ⟨rfl, rfl, rfl, rfl, rfl, rfl⟩ rfl rfl rfl

end

/-! ### KVAPP (R317) -/

/-- The first misaligned address of KVAPP's descriptor. -/
def kvappMisaligned (x : Nat → Word) : Option (Nat × Nat) :=
  [(va48 (x 0), 32768), (va48 (x 1), 32768), (va48 (x 2), 8), (va48 (x 3), 8)].find? (fun e => e.1 % e.2 != 0)

/-- A field of KVAPP's descriptor breaks its rule. -/
def kvappBad (x : Nat → Word) : Bool :=
  (List.range 4).any (fun k => (x k).toNat / 2 ^ 48 != 0) || (x 4).toNat / 128 != 0 || x 5 != 0 || x 6 != 0
    || x 7 != 0 || (x 4).toNat % 128 == 0 || decide (64 < (x 4).toNat % 128)

/-- The words of KVAPP's source. -/
def kvappSource (s : State) (t : Strand) (x : Nat → Word) : List Nat :=
  let len := kvappLen s t (va48 (x 0)) ((x 4).toNat % 128) (va48 (x 1))
  wordVas (va48 (x 2)) len.1 ++ wordVas (va48 (x 3)) len.2

/-- KVAPP's checks of its pages, before it goes on as `z`: RESIDENCY of a source word, then of a page, then PROTECTION. -/
def kvappPages (i : Instr) (s : State) (t : Strand) (x : Nat → Word) (z : State) : State :=
  match (kvappSource s t x).find? (fun v => !inPageSet t v || pageAway s t v),
      [va48 (x 0), va48 (x 1)].find? (pageAway s t), [va48 (x 0), va48 (x 1)].find? (fun v => !inWriteSet t v) with
  | some v, _, _ => raise i .residency s t (BitVec.ofNat 64 v)
  | none, some v, _ => raise i .residency s t (BitVec.ofNat 64 v)
  | none, none, some v => raise i .protection s t (BitVec.ofNat 64 v)
  | none, none, none => z

/-- The operation of KVAPP before its channel numbers it. -/
def kvappOp (s : State) (t : Strand) (sc : BitVec 3) (d c : R6) (x : Nat → Word) (l : List (Nat × Nat × Nat)) : Op :=
  { mkOp s t .kvapp (some c) (dstG d) sc.toNat [x 0, x 1, x 2, x 3, BitVec.ofNat 64 ((x 4).toNat % 128)] with leases := l }

theorem kvapp_on {g : Guard} {ch : BitVec 2} {sc : BitVec 3} {d a c : R6} {s : State} {t : Strand} (h : Ready s t (.kvapp g ch sc d a c) g) :
    exec (.kvapp g ch sc d a c) s = .next (
      if !chanBooked s t ch.toNat then raiseBooking (.kvapp g ch sc d a c) s t (25 + ch.toNat)
      else if ctrFull t c then raise (.kvapp g ch sc d a c) .counter s t 0
      else if va48 (getG t a) % 64 ≠ 0 then raise (.kvapp g ch sc d a c) .align s t (BitVec.ofNat 64 (va48 (getG t a)))
      else match laneRead s t (va48 (getG t a)) 64 with
        | .error e => raise (.kvapp g ch sc d a c) e.1 s t (BitVec.ofNat 64 e.2)
        | .ok r =>
          let x := fun k => (r.words.getD k 0)
          let len := kvappLen s t (va48 (x 0)) ((x 4).toNat % 128) (va48 (x 1))
          match kvappMisaligned x with
          | some e => raise (.kvapp g ch sc d a c) .align s t (BitVec.ofNat 64 e.1)
          | none =>
            if kvappBad x then raise (.kvapp g ch sc d a c) .reservedField s t 0
            else kvappPages (.kvapp g ch sc d a c) s t x (
              if 16 ≤ (chanOps r.st t.cl ch.toNat).length then implicitSplit r.st t 3 (toW ch) 0
              else
                let q := (tabGet (getClu r.st t.cl).chSeq ch.toNat).getD 0
                issueOp (updClu r.st t.cl (fun k => { k with chSeq := tabSet k.chSeq ch.toNat ((q + 1) % 2 ^ 16) }))
                  { t with lastCh := tabSet t.lastCh ch.toNat (issueTick t r.st) }
                  { kvappOp r.st t sc d c x (leaseOf r.st t
                      [(va48 (x 2), len.1), (va48 (x 3), len.2), (va48 (x 0), 32768), (va48 (x 1), 32768)])
                    with unit := ch.toNat, seq := q })) := by
  simp only [exec]
  exact issue_on _ _ h



theorem kvappMisaligned_none_iff (x : Nat → Word) :
    kvappMisaligned x = none ↔ va48 (x 0) % 32768 = 0 ∧ va48 (x 1) % 32768 = 0 ∧ va48 (x 2) % 8 = 0 ∧ va48 (x 3) % 8 = 0 := by
  simp [kvappMisaligned]

theorem kvappBad_false_iff (x : Nat → Word) :
    kvappBad x = false ↔ (x 0).toNat < 2 ^ 48 ∧ (x 1).toNat < 2 ^ 48 ∧ (x 2).toNat < 2 ^ 48 ∧ (x 3).toNat < 2 ^ 48
      ∧ 1 ≤ (x 4).toNat ∧ (x 4).toNat ≤ 64 ∧ (x 5).toNat = 0 ∧ (x 6).toNat = 0 ∧ (x 7).toNat = 0 := by
  have hz : ∀ w : Word, w.toNat = 0 ↔ w = 0 := fun w => ⟨fun h => BitVec.eq_of_toNat_eq h, fun h => by rw [h]; rfl⟩
  have hr : List.range 4 = [0, 1, 2, 3] := rfl
  rw [hz (x 5), hz (x 6), hz (x 7)]
  simp only [kvappBad, hr, List.any_cons, List.any_nil, Bool.or_false, Bool.or_eq_false_iff, bne_eq_false_iff_eq, beq_eq_false_iff_ne,
    decide_eq_false_iff_not, Nat.not_lt, Nat.div_eq_zero_iff_lt (show 0 < 2 ^ 48 by decide)]
  generalize (x 0).toNat = a
  generalize (x 1).toNat = b
  generalize (x 2).toNat = c
  generalize (x 3).toNat = d
  generalize (x 4).toNat = n
  constructor
  · rintro ⟨⟨⟨⟨⟨⟨⟨h0, h1, h2, h3⟩, h4⟩, h5⟩, h6⟩, h7⟩, h8⟩, h9⟩
    exact ⟨h0, h1, h2, h3, by omega, by omega, h5, h6, h7⟩
  · rintro ⟨h0, h1, h2, h3, h4, h5, h6, h7, h8⟩
    exact ⟨⟨⟨⟨⟨⟨⟨h0, h1, h2, h3⟩, by omega⟩, h6⟩, h7⟩, h8⟩, by omega⟩, by omega⟩

/-- KVAPP's source lies in the page set and all its pages are here. -/
def kvappHere (s : State) (t : Strand) (x : Nat → Word) : Prop :=
  (∀ u ∈ kvappSource s t x, inPageSet t u = true ∧ pageAway s t u = false) ∧ pageAway s t (va48 (x 0)) = false
    ∧ pageAway s t (va48 (x 1)) = false

/-- KVAPP's pages are in the write set. -/
def kvappOpen (t : Strand) (x : Nat → Word) : Prop := inWriteSet t (va48 (x 0)) = true ∧ inWriteSet t (va48 (x 1)) = true

section
variable {i : Instr} {s z : State} {t : Strand} {x : Nat → Word}

theorem kvappPages_away (h : ¬ kvappHere s t x) : ∃ v, kvappPages i s t x z = raise i .residency s t v := by
  unfold kvappPages
  cases hs : (kvappSource s t x).find? (fun v => !inPageSet t v || pageAway s t v) with
  | some v => exact ⟨_, rfl⟩
  | none =>
    cases hp : [va48 (x 0), va48 (x 1)].find? (pageAway s t) with
    | some v => exact ⟨_, rfl⟩
    | none =>
      have h1 : ∀ u ∈ kvappSource s t x, inPageSet t u = true ∧ pageAway s t u = false := by simpa using List.find?_eq_none.mp hs
      have h2 : pageAway s t (va48 (x 0)) = false ∧ pageAway s t (va48 (x 1)) = false := by simpa using List.find?_eq_none.mp hp
      exact absurd ⟨h1, h2⟩ h

theorem kvappPages_here (h : kvappHere s t x) :
    kvappPages i s t x z = match [va48 (x 0), va48 (x 1)].find? (fun v => !inWriteSet t v) with
      | some v => raise i .protection s t (BitVec.ofNat 64 v)
      | none => z := by
  obtain ⟨h1, h2, h3⟩ := h
  have hs : (kvappSource s t x).find? (fun v => !inPageSet t v || pageAway s t v) = none :=
    List.find?_eq_none.mpr fun u hu => by simp [h1 u hu]
  have hp : [va48 (x 0), va48 (x 1)].find? (pageAway s t) = none := by simp [h2, h3]
  unfold kvappPages
  rw [hs, hp]
  cases [va48 (x 0), va48 (x 1)].find? (fun v => !inWriteSet t v) <;> rfl

theorem kvappPages_closed (h : kvappHere s t x) (ho : ¬ kvappOpen t x) :
    ∃ v, kvappPages i s t x z = raise i .protection s t v := by
  rw [kvappPages_here h]
  cases hw : [va48 (x 0), va48 (x 1)].find? (fun v => !inWriteSet t v) with
  | some v => exact ⟨_, rfl⟩
  | none => exact absurd (show kvappOpen t x by simpa [kvappOpen] using List.find?_eq_none.mp hw) ho

theorem kvappPages_open (h : kvappHere s t x) (ho : kvappOpen t x) : kvappPages i s t x z = z := by
  rw [kvappPages_here h]
  obtain ⟨h1, h2⟩ := ho
  simp [h1, h2]

end

section
variable {g : Guard} {ch : BitVec 2} {sc : BitVec 3} {d a c : R6} {s : State} {t : Strand} {r : LaneRd}

theorem kvapp_errors (h : Ready s t (.kvapp g ch sc d a c) g) :
    (chanBooked s t ch.toNat = false → Raises (.kvapp g ch sc d a c) s t 7)
      ∧ (chanBooked s t ch.toNat = true → ¬ CtrFree t c → Raises (.kvapp g ch sc d a c) s t 22)
      ∧ (chanBooked s t ch.toNat = true → CtrFree t c → va48 (getG t a) % 64 ≠ 0 → Raises (.kvapp g ch sc d a c) s t 5)
      ∧ (∀ cs v, chanBooked s t ch.toNat = true → CtrFree t c → va48 (getG t a) % 64 = 0 →
          laneRead s t (va48 (getG t a)) 64 = .error (cs, v) → Raises (.kvapp g ch sc d a c) s t (causeCode cs)) := by
  have hx := kvapp_on h
  refine ⟨fun hb => ?_, fun hb hc => ?_, fun hb hc hal => ?_, fun cs v hb hc hal hr => ?_⟩
  · rw [if_pos (by rw [hb]; rfl)] at hx
    exact ⟨_, hx, faulted_takeFault ..⟩
  all_goals rw [if_neg (by rw [hb]; exact Bool.false_ne_true)] at hx
  · exact raises_of_raise .counter 0 (hx.trans (congrArg _ (if_pos (ctrFull_of_not_free hc))))
  · rw [if_neg (Bool.eq_false_iff.mp hc), if_pos hal] at hx
    exact raises_of_raise .align _ hx
  · rw [if_neg (Bool.eq_false_iff.mp hc), if_neg (not_not.mpr hal), hr] at hx
    exact raises_of_raise cs _ hx

/-- KVAPP with its descriptor read. -/
theorem kvapp_read (h : Ready s t (.kvapp g ch sc d a c) g) (hb : chanBooked s t ch.toNat = true) (hc : CtrFree t c)
    (hal : va48 (getG t a) % 64 = 0) (hr : laneRead s t (va48 (getG t a)) 64 = .ok r) :
    let x := fun k => (r.words.getD k 0)
    let i := Instr.kvapp g ch sc d a c
    (kvappMisaligned x ≠ none → Raises i s t 5)
      ∧ (kvappMisaligned x = none → kvappBad x = true → Raises i s t 2)
      ∧ (kvappMisaligned x = none → kvappBad x = false → ¬ kvappHere s t x → Raises i s t 9)
      ∧ (kvappMisaligned x = none → kvappBad x = false → kvappHere s t x → ¬ kvappOpen t x → Raises i s t 11)
      ∧ (kvappMisaligned x = none → kvappBad x = false → kvappHere s t x → kvappOpen t x →
          16 ≤ (chanOps s t.cl ch.toNat).length → SplitsHere i s t 3 (BitVec.ofNat 64 ch.toNat))
      ∧ (kvappMisaligned x = none → kvappBad x = false → kvappHere s t x → kvappOpen t x →
          (chanOps s t.cl ch.toNat).length < 16 → Issues i s t .kvapp (some c) (dstG d) (fun o =>
            o.unit = ch.toNat ∧ o.scope = sc.toNat ∧ o.args = [x 0, x 1, x 2, x 3, BitVec.ofNat 64 ((x 4).toNat % 128)])) := by
  intro x i
  have hx := kvapp_on h
  rw [if_neg (by rw [hb]; exact Bool.false_ne_true), if_neg (Bool.eq_false_iff.mp hc), if_neg (not_not.mpr hal), hr] at hx
  have hops : (chanOps r.st t.cl ch.toNat) = chanOps s t.cl ch.toNat := by rw [laneRead_onlySoft hr]; rfl
  refine ⟨fun hm => ?_, fun hm hb => ?_, fun hm hb hh => ?_, fun hm hb hh ho => ?_, fun hm hb hh ho hn => ?_, fun hm hb hh ho hn => ?_⟩
  · obtain ⟨e, he⟩ := Option.ne_none_iff_exists'.mp hm
    dsimp only at hx
    rw [show kvappMisaligned (fun k => r.words.getD k 0) = some e from he] at hx
    exact raises_of_raise .align _ hx
  all_goals
    dsimp only at hx
    rw [show kvappMisaligned (fun k => r.words.getD k 0) = none from hm] at hx
    dsimp only at hx
  · rw [if_pos (show kvappBad (fun k => r.words.getD k 0) = true from hb)] at hx
    exact raises_of_raise .reservedField _ hx
  all_goals rw [if_neg (Bool.eq_false_iff.mp (show kvappBad (fun k => r.words.getD k 0) = false from hb))] at hx
  · obtain ⟨v, hv⟩ := kvappPages_away hh
    rw [hv] at hx
    exact raises_of_raise .residency _ hx
  · obtain ⟨v, hv⟩ := kvappPages_closed hh ho
    rw [hv] at hx
    exact raises_of_raise .protection _ hx
  all_goals rw [kvappPages_open hh ho, hops] at hx
  · rw [if_pos hn, toW_eq] at hx
    obtain ⟨-, -, -, k4, -⟩ := laneRead_keeps hr
    exact splitsHere_of_onlySoft (laneRead_onlySoft hr) (splitsFrom_of_implicitSplit hx k4 (fun e => absurd e (by decide)))
  · rw [if_neg (by omega)] at hx
    obtain ⟨k1, -, -, -, k5, k6⟩ := laneRead_keeps hr
    exact issues_of_issueOp hx k1 k5 k6 k6 rfl rfl rfl rfl rfl rfl ⟨rfl, rfl, rfl⟩
      rfl rfl rfl rfl rfl rfl rfl ⟨rfl, rfl, rfl, rfl, rfl, rfl⟩ rfl rfl rfl

end

/-- Settles O35: each form reads its descriptor and checks its fields in the order of R317, R320 and R348. -/
theorem descriptorForms : Obligations.DescriptorForms := by
  intro g ch sc d a c s t r va x w dh n high attd v k lfilt
  have ha : attdBad x = false ↔ attd := attdBad_false_iff x
  have hl : lfiltBad w = false ↔ lfilt := lfiltBad_false_iff w
  have hm : attdMisaligned x = none ↔ w 0 % 8 = 0 ∧ w 1 % 16 = 0 ∧ w 2 % 64 = 0 := attdMisaligned_none_iff x
  refine ⟨fun i hi h => descriptor_errors hi h, fun hal hc hr => ⟨fun h hb => ?_, fun h hk h8 h16 h64 => ?_, fun h hk h8 => ?_, fun h hb => ?_, fun h hk => ?_⟩,
    fun h => ?_⟩
  · exact (attd_read h hal hc hr).1 (Bool.eq_true_of_not_eq_false (fun e => hb (ha.mp e)))
  · exact (attd_read h hal hc hr).2.2 (ha.mpr hk) (hm.mpr ⟨h8, h16, h64⟩)
  · exact (attd_read h hal hc hr).2.1 (ha.mpr hk) (Option.isSome_iff_ne_none.mpr (fun e => h8 (hm.mp e)))
  · exact (lfilt_read h hal hc hr).1 (Bool.eq_true_of_not_eq_false (fun e => hb (hl.mp e)))
  · exact (lfilt_read h hal hc hr).2 (hl.mpr hk)
  · obtain ⟨e1, e2, e3, e4⟩ := kvapp_errors h
    refine ⟨e1, e2, e3, e4, fun hb hc hal hr => ?_⟩
    intro kp vp ks vs len fits kept here open'
    have hf : kvappMisaligned x = none ↔ fits := kvappMisaligned_none_iff x
    have hk : kvappBad x = false ↔ kept := kvappBad_false_iff x
    obtain ⟨k1, k2, k3, k4, k5, k6⟩ := kvapp_read h hb hc hal hr
    refine ⟨fun h1 => k1 (fun e => h1 (hf.mp e)), fun h1 h2 => k2 (hf.mpr h1) (Bool.eq_true_of_not_eq_false (fun e => h2 (hk.mp e))),
      fun h1 h2 h3 => k3 (hf.mpr h1) (hk.mpr h2) h3, fun h1 h2 h3 h4 => k4 (hf.mpr h1) (hk.mpr h2) h3 h4,
      fun h1 h2 h3 h4 h5 => k5 (hf.mpr h1) (hk.mpr h2) h3 h4 h5, fun h1 h2 h3 h4 h5 => ?_⟩
    have h6 := k6 (hf.mpr h1) (hk.mpr h2) h3 h4 h5
    have hx4 : BitVec.ofNat 64 ((x 4).toNat % 128) = x 4 := by
      obtain ⟨-, -, -, -, -, hle, -⟩ := h2
      rw [Nat.mod_eq_of_lt (show (x 4).toNat < 128 from lt_of_le_of_lt hle (by decide))]
      simp
    rw [hx4] at h6
    exact h6



/-! ### Requests and sends that copy their words (R337, R340, R356, R359, R388) -/

theorem issues_of_request {i : Instr} {s s0 : State} {t : Strand} {o : Op} {k : OpKind} {c : Option R6} {dst : Option RegRef}
    {p : Op → Prop} (hx : exec i s = .next (issueReq s0 t o)) (hcur : s0.cur = s.cur) (hops : s0.ops = s.ops)
    (hid : s0.nextId = s.nextId) (ho : o.id = s.nextId) (h1 : o.kind = k) (h2 : o.task = t.task.id) (h3 : o.pid = t.task.pid)
    (h4 : o.cl = t.cl) (h5 : o.dst = dst) (h6 : o.ctr = c.map (fun r => r.toNat % 4)) (hp : ∀ a, p { o with arr := a }) :
    Issues i s t k c dst p := by
  obtain ⟨k1, k2, k3⟩ := arrivalOf_keeps s0 o
  rw [issueReq_eq] at hx
  exact issues_of_issueOp hx (k1.trans hcur) (k2.trans hops) (k3.trans hid) ho h1 h2 h3 h4 h5 h6 (hp _) rfl rfl rfl rfl rfl rfl rfl
    ⟨rfl, rfl, rfl, rfl, rfl, rfl⟩ rfl rfl rfl

section
variable {g : Guard} {sc : BitVec 3} {d a b c : R6} {s : State} {t : Strand} {r : LaneRd}

/-- The request of COMMIT: the group of tokens at its address (R359). -/
def commitOp (s : State) (t : Strand) (d a c : R6) (bytes : List Byte) (n : Nat) : Op :=
  { mkOp s t .commit (some c) (dstG d) 4 [0, getG t a, 0, 0] with
    acc := (List.range n).map (fun k => BitVec.ofNat 64 (leAt bytes (8 + 4 * k) 4)) }

theorem commit_on (h : Ready s t (.commit g d a b c) g) :
    exec (.commit g d a b c) s = .next (
      if ctrFull t c then raise (.commit g d a b c) .counter s t 0
      else if va48 (getG t b) % 128 ≠ 0 then raise (.commit g d a b c) .align s t (BitVec.ofNat 64 (va48 (getG t b)))
      else match laneRead s t (va48 (getG t b)) 72 with
        | .error e => raise (.commit g d a b c) e.1 s t (BitVec.ofNat 64 e.2)
        | .ok r =>
          let w := (r.words.getD 0 0).toNat
          if w / 32 ≠ 0 ∨ w % 32 = 0 ∨ 16 < w % 32 then raise (.commit g d a b c) .reservedField s t 0
          else issueReq r.st t (commitOp r.st t d a c r.bytes (w % 32))) := by
  simp only [exec]
  exact issue_on _ _ h

theorem dqsend_on (h : Ready s t (.dqsend g a b c) g) :
    exec (.dqsend g a b c) s = .next (
      if ctrFull t c then raise (.dqsend g a b c) .counter s t 0
      else if dqBad (getG t b) (dieOf t.cl) then raise (.dqsend g a b c) .reservedField s t 0
      else if !(partDies s t.task.pid).contains (dqDie (getG t b)) then raise (.dqsend g a b c) .tenant s t 0
      else if va48 (getG t a) % 128 ≠ 0 then raise (.dqsend g a b c) .align s t (BitVec.ofNat 64 (va48 (getG t a)))
      else match laneRead s t (va48 (getG t a)) 256 with
        | .error e => raise (.dqsend g a b c) e.1 s t (BitVec.ofNat 64 e.2)
        | .ok r => issueOp r.st t
          { mkOp r.st t .dqsend (some c) none 3 [getG t b] with bytes := r.bytes, unit := dqDie (getG t b) }) := by
  simp only [exec]
  exact issue_on _ _ h

/-- MSEND counted at its cluster, its fence met (R388). -/
def msendFrom (s : State) (t : Strand) (sc : BitVec 3) : State :=
  let s := updCp s t.cl t.task.pid (fun k => { k with msgSent := (k.msgSent + 1) % 2 ^ 48 })
  if 3 ≤ sc.toNat then relDrain s (dieOf t.cl) else s

theorem msend_on (h : Ready s t (.msend g sc d a b c) g) :
    exec (.msend g sc d a b c) s = .next (
      if !segBooked s t 31 (issueTick t s) (issueTick t s) || t.lastSend == issueTick t s + 1 then
        raiseBooking (.msend g sc d a b c) s t 31
      else if ctrFull t c then raise (.msend g sc d a b c) .counter s t 0
      else if targetBad (getG t b) then raise (.msend g sc d a b c) .reservedField s t 0
      else if targetOut s t.task.pid (getG t b) then raise (.msend g sc d a b c) .tenant s t 0
      else if va48 (getG t a) % 128 ≠ 0 then raise (.msend g sc d a b c) .align s t (BitVec.ofNat 64 (va48 (getG t a)))
      else match laneRead s t (va48 (getG t a)) ((getG t b).toNat / 2 ^ 32 % 2 ^ 9) with
        | .error e => raise (.msend g sc d a b c) e.1 s t (BitVec.ofNat 64 e.2)
        | .ok r => issueOp (msendFrom r.st t sc) { t with lastSend := issueTick t s + 1 }
          { mkOp (msendFrom r.st t sc) t .msend (some c) (dstG d) sc.toNat [getG t b] with bytes := r.bytes }) := by
  simp only [exec]
  exact issue_on _ _ h

/-! #### COMMIT -/

theorem commit_errors (h : Ready s t (.commit g d a b c) g) :
    (¬ CtrFree t c → Raises (.commit g d a b c) s t 22)
      ∧ (CtrFree t c → va48 (getG t b) % 128 ≠ 0 → Raises (.commit g d a b c) s t 5)
      ∧ (∀ cs v, CtrFree t c → va48 (getG t b) % 128 = 0 → laneRead s t (va48 (getG t b)) 72 = .error (cs, v) →
          Raises (.commit g d a b c) s t (causeCode cs)) := by
  have hx := commit_on h
  refine ⟨fun hc => ?_, fun hc hal => ?_, fun cs v hc hal hr => ?_⟩
  · rw [if_pos (ctrFull_of_not_free hc)] at hx
    exact raises_of_raise .counter _ hx
  all_goals rw [if_neg (Bool.eq_false_iff.mp hc)] at hx
  · rw [if_pos hal] at hx
    exact raises_of_raise .align _ hx
  · rw [if_neg (not_not.mpr hal), hr] at hx
    exact raises_of_raise cs _ hx

theorem commit_read (h : Ready s t (.commit g d a b c) g) (hc : CtrFree t c) (hal : va48 (getG t b) % 128 = 0)
    (hr : laneRead s t (va48 (getG t b)) 72 = .ok r) :
    let n := (r.words.getD 0 0).toNat
    (n = 0 ∨ 16 < n → Raises (.commit g d a b c) s t 2)
      ∧ (1 ≤ n → n ≤ 16 → Issues (.commit g d a b c) s t .commit (some c) (dstG d) (fun o => o.args = [0, getG t a, 0, 0]
          ∧ o.acc = (List.range n).map (fun k => BitVec.ofNat 64 (leAt r.bytes (8 + 4 * k) 4)))) := by
  intro n
  have hx := commit_on h
  rw [if_neg (Bool.eq_false_iff.mp hc), if_neg (not_not.mpr hal), hr] at hx
  obtain ⟨k1, -, -, -, k5, k6⟩ := laneRead_keeps hr
  refine ⟨fun hn => ?_, fun h1 h2 => ?_⟩
  · have hbad : n / 32 ≠ 0 ∨ n % 32 = 0 ∨ 16 < n % 32 := by omega
    exact raises_of_raise .reservedField _ (hx.trans (congrArg _ (if_pos hbad)))
  · have hok : ¬ (n / 32 ≠ 0 ∨ n % 32 = 0 ∨ 16 < n % 32) := by omega
    have hn : n % 32 = n := Nat.mod_eq_of_lt (by omega)
    have hon := hx.trans (congrArg _ (if_neg hok))
    exact issues_of_request hon k1 k5 k6 k6 rfl rfl rfl rfl rfl rfl (fun _ => ⟨rfl, by rw [← hn]; rfl⟩)

/-! #### DQSEND -/

theorem dqBad_iff (w : Word) (own : Nat) :
    dqBad w own = true ↔ w.toNat / 8 % 2 ^ 13 ≠ 0 ∨ 2 ^ 32 ≤ w.toNat ∨ w.toNat % 8 = own := by
  simp [dqBad, dqDie, Nat.div_eq_zero_iff_lt, or_assoc]

theorem dqsend_errors (h : Ready s t (.dqsend g a b c) g) :
    let w := (getG t b).toNat
    let bad : Prop := w / 8 % 2 ^ 13 ≠ 0 ∨ 2 ^ 32 ≤ w ∨ w % 8 = dieOf t.cl
    (¬ CtrFree t c → Raises (.dqsend g a b c) s t 22) ∧ (CtrFree t c → bad → Raises (.dqsend g a b c) s t 2)
      ∧ (CtrFree t c → ¬ bad → (partDies s t.task.pid).contains (w % 8) = false → Raises (.dqsend g a b c) s t 12)
      ∧ (CtrFree t c → ¬ bad → (partDies s t.task.pid).contains (w % 8) = true → va48 (getG t a) % 128 ≠ 0 →
          Raises (.dqsend g a b c) s t 5)
      ∧ (∀ cs v, CtrFree t c → ¬ bad → (partDies s t.task.pid).contains (w % 8) = true → va48 (getG t a) % 128 = 0 →
          laneRead s t (va48 (getG t a)) 256 = .error (cs, v) → Raises (.dqsend g a b c) s t (causeCode cs))
      ∧ (CtrFree t c → ¬ bad → (partDies s t.task.pid).contains (w % 8) = true → va48 (getG t a) % 128 = 0 →
          laneRead s t (va48 (getG t a)) 256 = .ok r → Issues (.dqsend g a b c) s t .dqsend (some c) none (fun o =>
            o.args = [getG t b] ∧ o.bytes = r.bytes ∧ o.unit = w % 8)) := by
  intro w bad
  have hx := dqsend_on h
  have hb : dqBad (getG t b) (dieOf t.cl) = true ↔ bad := dqBad_iff _ _
  refine ⟨fun hc => ?_, ?_⟩
  · rw [if_pos (ctrFull_of_not_free hc)] at hx
    exact raises_of_raise .counter _ hx
  refine ⟨fun hc h1 => ?_, fun hc h1 h2 => ?_, fun hc h1 h2 hal => ?_, fun cs v hc h1 h2 hal hr => ?_, fun hc h1 h2 hal hr => ?_⟩
  all_goals rw [if_neg (Bool.eq_false_iff.mp hc)] at hx
  · rw [if_pos (hb.mpr h1)] at hx
    exact raises_of_raise .reservedField _ hx
  all_goals rw [if_neg (fun e => h1 (hb.mp e)), show (partDies s t.task.pid).contains (dqDie (getG t b)) = _ from h2] at hx
  · exact raises_of_raise .tenant _ hx
  · rw [Bool.not_true, if_neg Bool.false_ne_true, if_pos hal] at hx
    exact raises_of_raise .align _ hx
  all_goals rw [Bool.not_true, if_neg Bool.false_ne_true, if_neg (not_not.mpr hal), hr] at hx
  · exact raises_of_raise cs _ hx
  · obtain ⟨k1, -, -, -, k5, k6⟩ := laneRead_keeps hr
    exact issues_of_issueOp hx k1 k5 k6 k6 rfl rfl rfl rfl rfl rfl ⟨rfl, rfl, rfl⟩
      rfl rfl rfl rfl rfl rfl rfl ⟨rfl, rfl, rfl, rfl, rfl, rfl⟩ rfl rfl rfl

/-! #### MSEND -/

theorem msendFrom_keeps (s : State) (t : Strand) (sc : BitVec 3) :
    (msendFrom s t sc).cur = s.cur ∧ (msendFrom s t sc).ops = s.ops ∧ (msendFrom s t sc).nextId = s.nextId
      ∧ (getCp (msendFrom s t sc) t.cl t.task.pid).msgSent = ((getCp s t.cl t.task.pid).msgSent + 1) % 2 ^ 48 := by
  unfold msendFrom
  dsimp only
  have hu : (getCp (updCp s t.cl t.task.pid (fun k => { k with msgSent := (k.msgSent + 1) % 2 ^ 48 })) t.cl t.task.pid).msgSent
      = ((getCp s t.cl t.task.pid).msgSent + 1) % 2 ^ 48 := by rw [getCp_updCp_same]
  split_ifs
  · obtain ⟨k1, -, -, -, k5, k6, k7, -⟩ :=
      sameFrame_relDrain (updCp s t.cl t.task.pid (fun k => { k with msgSent := (k.msgSent + 1) % 2 ^ 48 })) (dieOf t.cl)
    exact ⟨k1, k5, k6, by rw [getCp, k7]; exact hu⟩
  · exact ⟨rfl, rfl, rfl, hu⟩

theorem msend_unbooked (h : Ready s t (.msend g sc d a b c) g)
    (hb : segBooked s t 31 (issueTick t s) (issueTick t s) = false ∨ t.lastSend = issueTick t s + 1) :
    Raises (.msend g sc d a b c) s t 7 := by
  have hx := msend_on h
  rw [if_pos (by simpa using hb)] at hx
  exact ⟨_, hx, faulted_takeFault ..⟩

theorem msend_booked (h : Ready s t (.msend g sc d a b c) g)
    (hb : segBooked s t 31 (issueTick t s) (issueTick t s) = true) (hl : t.lastSend ≠ issueTick t s + 1) :
    let i := Instr.msend g sc d a b c
    let w := (getG t b).toNat
    (¬ CtrFree t c → Raises i s t 22) ∧ (CtrFree t c → targetBad (getG t b) = true → Raises i s t 2)
      ∧ (CtrFree t c → targetBad (getG t b) = false → targetOut s t.task.pid (getG t b) = true → Raises i s t 12)
      ∧ (CtrFree t c → targetBad (getG t b) = false → targetOut s t.task.pid (getG t b) = false → va48 (getG t a) % 128 ≠ 0 →
          Raises i s t 5)
      ∧ (∀ cs v, CtrFree t c → targetBad (getG t b) = false → targetOut s t.task.pid (getG t b) = false →
          va48 (getG t a) % 128 = 0 → laneRead s t (va48 (getG t a)) (w / 2 ^ 32 % 2 ^ 9) = .error (cs, v) →
          Raises i s t (causeCode cs))
      ∧ (CtrFree t c → targetBad (getG t b) = false → targetOut s t.task.pid (getG t b) = false →
          va48 (getG t a) % 128 = 0 → laneRead s t (va48 (getG t a)) (w / 2 ^ 32 % 2 ^ 9) = .ok r →
          Issues i s t .msend (some c) (dstG d) (fun o => o.args = [getG t b] ∧ o.bytes = r.bytes ∧ o.scope = sc.toNat)
          ∧ ∃ s', exec i s = .next s'
            ∧ (getCp s' t.cl t.task.pid).msgSent = ((getCp s t.cl t.task.pid).msgSent + 1) % 2 ^ 48) := by
  intro i w
  have hx := msend_on h
  rw [if_neg (by simpa [hb] using hl)] at hx
  refine ⟨fun hc => ?_, ?_⟩
  · rw [if_pos (ctrFull_of_not_free hc)] at hx
    exact raises_of_raise .counter _ hx
  refine ⟨fun hc h1 => ?_, fun hc h1 h2 => ?_, fun hc h1 h2 hal => ?_, fun cs v hc h1 h2 hal hr => ?_, fun hc h1 h2 hal hr => ?_⟩
  all_goals rw [if_neg (Bool.eq_false_iff.mp hc)] at hx
  · rw [if_pos h1] at hx
    exact raises_of_raise .reservedField _ hx
  all_goals rw [if_neg (Bool.eq_false_iff.mp h1)] at hx
  · rw [if_pos h2] at hx
    exact raises_of_raise .tenant _ hx
  all_goals rw [if_neg (Bool.eq_false_iff.mp h2)] at hx
  · rw [if_pos hal] at hx
    exact raises_of_raise .align _ hx
  all_goals rw [if_neg (not_not.mpr hal), hr] at hx
  · exact raises_of_raise cs _ hx
  · obtain ⟨k1, -, k3, -, k5, k6⟩ := laneRead_keeps hr
    obtain ⟨m1, m2, m3, m4⟩ := msendFrom_keeps r.st t sc
    refine ⟨issues_of_issueOp hx (m1.trans k1) (m2.trans k5) (m3.trans k6) (m3.trans k6) rfl rfl rfl rfl rfl rfl ⟨rfl, rfl, rfl⟩
      rfl rfl rfl rfl rfl rfl rfl ⟨rfl, rfl, rfl, rfl, rfl, rfl⟩ rfl rfl rfl, _, hx, ?_⟩
    exact m4.trans (by simp only [getCp, k3])

end



/-! #### SSTEP.B and SACTP (R337, R340) -/

section
variable {i : Instr} {g : Guard} {form : Nat} {d a b c : R6} {tab : Option R6} {s : State} {t : Strand} {r r0 q : LaneRd}

/-- The request of a form on a slot: its number, and the bytes of the slot. -/
def slotOp (s : State) (t : Strand) (form : Nat) (d c : R6) (bytes : List Byte) (acc : List Word) : Op :=
  { mkOp s t .stream (some c) (dstG d) 4 [BitVec.ofNat 64 form, 0, 0, 1] with bytes := bytes, acc := acc }

/-- The end of a form on a slot: it reads its table, where it has one, and sends its request. -/
def slotTail (i : Instr) (s : State) (t : Strand) (form : Nat) (d c : R6) (tab : Option R6) (n : Nat) (r : LaneRd) : State :=
  match tab with
  | none => issueReq r.st t (slotOp r.st t form d c r.bytes [])
  | some b => match laneRead r.st t (va48 (getG t b)) (8 * n) with
    | .error e => raise i e.1 s t (BitVec.ofNat 64 e.2)
    | .ok q => issueReq q.st t (slotOp q.st t form d c r.bytes q.words)

theorem slotForm_on (hx : exec i s = slotForm i g form d a c tab s) (h : Ready s t i g) :
    exec i s = .next (
      if ctrFull t c then raise i .counter s t 0
      else if !slotStart s t (va48 (getG t a)) then raise i .align s t (BitVec.ofNat 64 (va48 (getG t a)))
      else match laneRead s t (va48 (getG t a)) 64 with
        | .error e => raise i e.1 s t (BitVec.ofNat 64 e.2)
        | .ok r0 => match laneRead s t (va48 (getG t a)) (64 + 32 * slotCount (r0.words.getD 0 0)) with
          | .error e => raise i e.1 s t (BitVec.ofNat 64 e.2)
          | .ok r => slotTail i s t form d c tab (slotCount (r0.words.getD 0 0)) r) := by
  rw [hx, slotForm, issue_on _ _ h]
  cases tab <;> rfl

theorem slotForm_full (hx : exec i s = slotForm i g form d a c tab s) (h : Ready s t i g) (hc : ¬ CtrFree t c) :
    Raises i s t 22 := by
  have hon := slotForm_on hx h
  rw [if_pos (ctrFull_of_not_free hc)] at hon
  exact raises_of_raise .counter _ hon

theorem slotForm_errors (hx : exec i s = slotForm i g form d a c tab s) (h : Ready s t i g) (hc : CtrFree t c) :
    let va := va48 (getG t a)
    (slotStart s t va = false → Raises i s t 5)
      ∧ (∀ cs v, slotStart s t va = true → laneRead s t va 64 = .error (cs, v) → Raises i s t (causeCode cs))
      ∧ (∀ r0 cs v, slotStart s t va = true → laneRead s t va 64 = .ok r0 →
        laneRead s t va (64 + 32 * slotCount (r0.words.getD 0 0)) = .error (cs, v) → Raises i s t (causeCode cs)) := by
  intro va
  have hon := slotForm_on hx h
  rw [if_neg (Bool.eq_false_iff.mp hc)] at hon
  refine ⟨fun hs => ?_, fun cs v hs hr => ?_, fun r0 cs v hs hr h0 => ?_⟩
  all_goals rw [show slotStart s t (va48 (getG t a)) = _ from hs] at hon
  · rw [Bool.not_false, if_pos rfl] at hon
    exact raises_of_raise .align _ hon
  all_goals rw [Bool.not_true, if_neg Bool.false_ne_true, hr] at hon
  · exact raises_of_raise cs _ hon
  · simp only [show laneRead s t (va48 (getG t a)) (64 + 32 * slotCount (r0.words.getD 0 0)) = _ from h0] at hon
    exact raises_of_raise cs _ hon

theorem slotForm_read (hx : exec i s = slotForm i g form d a c tab s) (h : Ready s t i g) (hc : CtrFree t c)
    (hs : slotStart s t (va48 (getG t a)) = true) (hr : laneRead s t (va48 (getG t a)) 64 = .ok r0)
    (h0 : laneRead s t (va48 (getG t a)) (64 + 32 * slotCount (r0.words.getD 0 0)) = .ok r) :
    exec i s = .next (slotTail i s t form d c tab (slotCount (r0.words.getD 0 0)) r) := by
  have hon := slotForm_on hx h
  rw [if_neg (Bool.eq_false_iff.mp hc), hs, Bool.not_true, if_neg Bool.false_ne_true, hr] at hon
  simp only [h0] at hon
  exact hon

theorem sstepB_read (h : Ready s t (.sstepB g d a c) g) (hc : CtrFree t c)
    (hs : slotStart s t (va48 (getG t a)) = true) (hr : laneRead s t (va48 (getG t a)) 64 = .ok r0)
    (h0 : laneRead s t (va48 (getG t a)) (64 + 32 * slotCount (r0.words.getD 0 0)) = .ok r) :
    Issues (.sstepB g d a c) s t .stream (some c) (dstG d) (fun o => o.args = [6, 0, 0, 1] ∧ o.bytes = r.bytes) := by
  have hx : exec (.sstepB g d a c) s = slotForm (.sstepB g d a c) g 6 d a c none s := by simp only [exec]; rfl
  obtain ⟨k1, -, -, -, k5, k6⟩ := laneRead_keeps h0
  exact issues_of_request (slotForm_read hx h hc hs hr h0) k1 k5 k6 k6 rfl rfl rfl rfl rfl rfl (fun _ => ⟨rfl, rfl⟩)

theorem sactp_read (h : Ready s t (.sactp g d a b c) g) (hc : CtrFree t c)
    (hs : slotStart s t (va48 (getG t a)) = true) (hr : laneRead s t (va48 (getG t a)) 64 = .ok r0)
    (h0 : laneRead s t (va48 (getG t a)) (64 + 32 * slotCount (r0.words.getD 0 0)) = .ok r) :
    (∀ cs v, laneRead r.st t (va48 (getG t b)) (8 * slotCount (r0.words.getD 0 0)) = .error (cs, v) →
      Raises (.sactp g d a b c) s t (causeCode cs))
    ∧ (∀ q, laneRead r.st t (va48 (getG t b)) (8 * slotCount (r0.words.getD 0 0)) = .ok q →
      Issues (.sactp g d a b c) s t .stream (some c) (dstG d) (fun o =>
        o.args = [4, 0, 0, 1] ∧ o.bytes = r.bytes ∧ o.acc = q.words)) := by
  have hx : exec (.sactp g d a b c) s = slotForm (.sactp g d a b c) g 4 d a c (some b) s := by simp only [exec]; rfl
  have hon := slotForm_read hx h hc hs hr h0
  obtain ⟨k1, -, -, -, k5, k6⟩ := laneRead_keeps h0
  refine ⟨fun cs v hq => ?_, fun q hq => ?_⟩
  · simp only [slotTail, hq] at hon
    exact raises_of_raise cs _ hon
  · simp only [slotTail, hq] at hon
    obtain ⟨j1, -, -, -, j5, j6⟩ := laneRead_keeps hq
    exact issues_of_request hon (j1.trans k1) (j5.trans k5) (j6.trans k6) (j6.trans k6) rfl rfl rfl rfl rfl rfl
      (fun _ => ⟨rfl, rfl, rfl⟩)

end

/-! ### The end of an operation (R185, R202) -/

theorem mem_of_tabGet {α : Type} {l : Tab α} {k : Nat} {x : α} (h : tabGet l k = some x) : (k, x) ∈ l := by
  induction l with
  | nil => cases h
  | cons e l ih =>
    simp only [tabGet] at h
    split_ifs at h with h1
    · cases h; rw [h1]; exact List.mem_cons_self
    · exact List.mem_cons_of_mem _ (ih h)

theorem isRunning_of_strand {s : State} {k : Nat} {t : Strand} (h : tabGet s.strands k = some t) : isRunning s t.task.id = true :=
  List.any_eq_true.mpr ⟨_, mem_of_tabGet h, beq_self_eq_true _⟩

/-- What an update of a task does to a strand. -/
def updStrand (task : Nat) (f : Strand → Strand) (t : Strand) : Strand := if t.task.id == task then f t else t

theorem updRunning_strand (s : State) (task : Nat) (f : Strand → Strand) (k : Nat) :
    tabGet (updRunning s task f).strands k = (tabGet s.strands k).map (updStrand task f) := by
  rw [← tabGet_map]
  refine congrArg (tabGet · k) (List.map_congr_left fun e _ => ?_)
  unfold updStrand
  split_ifs <;> rfl

theorem updTask_running {s : State} {k : Nat} {t : Strand} {pid : Nat} (h : tabGet s.strands k = some t) (f : Strand → Strand)
    (img : State → Nat → State) (c : Cont → Cont) : updTask s t.task.id pid f img c = updRunning s t.task.id f := by
  rw [updTask, if_pos (isRunning_of_strand h)]

/-- The state keeps a strand on lane `k`. -/
def OnLane (k : Nat) (s : State) : Prop := ∃ t, tabGet s.strands k = some t

theorem updCont_strands (s : State) (task : Nat) (f : Cont → Cont) : (updCont s task f).strands = s.strands := by
  unfold updCont
  dsimp only
  split
  · exact (writeCont_keeps ..).1
  · rfl

theorem onLane_updTask {s : State} {k : Nat} (h : OnLane k s) (task pid : Nat) (f : Strand → Strand) {img : State → Nat → State}
    (himg : ∀ s a, (img s a).strands = s.strands) (c : Cont → Cont) : OnLane k (updTask s task pid f img c) := by
  obtain ⟨t, ht⟩ := h
  unfold updTask
  split_ifs
  · exact ⟨_, by rw [updRunning_strand, ht]; rfl⟩
  · dsimp only
    split
    · exact ⟨t, by rw [himg]; exact ht⟩
    · exact ⟨t, by rw [updCont_strands]; exact ht⟩



theorem dropOps_ops (s : State) (p : Op → Bool) : (dropOps s p).ops = s.ops.filter (fun o => !p o) := rfl

theorem dropOps_strands (s : State) (p : Op → Bool) : (dropOps s p).strands = s.strands := rfl

theorem dropOp_no {s : State} {id : Nat} {q : Op} (h : q ∈ (dropOp s id).ops) : q.id ≠ id := by
  simpa using (List.mem_filter.mp h).2

theorem onLane_writeReg {s : State} {k : Nat} (h : OnLane k s) (task pid : Nat) (r : RegRef) (x : Nat) :
    OnLane k (writeReg s task pid r x) := by
  unfold writeReg
  refine onLane_updTask h _ _ _ ?_ _
  intro s a
  cases r with
  | g n =>
    dsimp only
    split_ifs
    · rfl
    · exact wrN_strands ..
  | v n => exact wrN_strands ..
  | p n => rfl
  | m n => rfl
  | c n => rfl

theorem onLane_addCtr {s : State} {k : Nat} (h : OnLane k s) (task pid n : Nat) (v : BitVec 16) : OnLane k (addCtr s task pid n v) := by
  unfold addCtr
  refine onLane_updTask h _ _ _ ?_ _
  intro s a
  exact wrN_strands ..

theorem onLane_addFlags {s : State} {k : Nat} (h : OnLane k s) (task pid : Nat) (v : FpFlags) : OnLane k (addFlags s task pid v) := by
  unfold addFlags
  refine onLane_updTask h _ _ _ ?_ _
  intro s a
  exact wrN_strands ..

theorem onLane_dropOp {s : State} {k : Nat} (h : OnLane k s) (id : Nat) : OnLane k (dropOp s id) := by
  unfold dropOp OnLane
  rw [dropOps_strands]
  exact h

theorem onLane_completeOp {s : State} {k : Nat} (h : OnLane k s) (o : Op) (x : Nat) : OnLane k (completeOp s o x) := by
  unfold completeOp
  refine onLane_dropOp ?_ o.id
  cases o.dst with
  | none =>
    cases o.ctr with
    | none => exact h
    | some c => exact onLane_addCtr h ..
  | some r =>
    have hw := onLane_writeReg h o.task o.pid r x
    cases o.ctr with
    | none => exact hw
    | some c => exact onLane_addCtr hw ..

theorem onLane_finishOp {s : State} {k : Nat} (h : OnLane k s) (o : Op) (x : Nat) : OnLane k (finishOp s o x) := by
  unfold finishOp
  refine onLane_completeOp ?_ o x
  split_ifs
  · exact h
  · exact onLane_addFlags h ..

/-- The operation as it stands with its result. -/
def withFin (id x : Nat) (o : Op) : Op := if o.id == id then { o with fin := some x } else o

theorem withFin_id (id x : Nat) (o : Op) : (withFin id x o).id = o.id := by unfold withFin; split_ifs <;> rfl

/-- The list with the result of an operation in it. -/
def finSet (s : State) (id x : Nat) : State := updOp s id (fun o => { o with fin := some x })

theorem finSet_ops (s : State) (id x : Nat) : (finSet s id x).ops = s.ops.map (withFin id x) := rfl

theorem doneOp_eq (s : State) (id x : Nat) : doneOp s id x = match (finSet s id x).ops.find? (fun o => o.id == id) with
    | some o => if mayComplete (finSet s id x) o then finishOp (finSet s id x) o x else finSet s id x
    | none => finSet s id x := rfl

theorem finSet_fin {s : State} {id x : Nat} {q : Op} (h : q ∈ (finSet s id x).ops) (hq : q.id = id) : q.fin = some x := by
  rw [finSet_ops] at h
  obtain ⟨o, -, rfl⟩ := List.mem_map.mp h
  rw [withFin_id] at hq
  rw [withFin, if_pos (by simpa using hq)]

theorem finishOp_no {s : State} {o q : Op} {x : Nat} (h : q ∈ (finishOp s o x).ops) : q.id ≠ o.id := by
  unfold finishOp completeOp at h
  exact dropOp_no h

/-- An operation that is done keeps every strand on its lane, and stands, where it still does, with its result. -/
theorem doneOp_keeps {s : State} {k : Nat} (h : OnLane k s) (id x : Nat) :
    OnLane k (doneOp s id x) ∧ ∀ q ∈ (doneOp s id x).ops, q.id = id → q.fin = some x := by
  rw [doneOp_eq]
  have hl : OnLane k (finSet s id x) := h
  cases hf : (finSet s id x).ops.find? (fun o => o.id == id) with
  | none => exact ⟨hl, fun q hq => finSet_fin hq⟩
  | some o =>
    have ho : o.id = id := by simpa using List.find?_some hf
    dsimp only
    split_ifs
    · exact ⟨onLane_finishOp hl o x, fun q hq e => absurd (e.trans ho.symm) (finishOp_no hq)⟩
    · exact ⟨hl, fun q hq => finSet_fin hq⟩

theorem find_finSet_last {s : State} {l : List Op} {o : Op} (x : Nat) (hs : s.ops = l ++ [o]) (hl : ∀ q ∈ l, q.id ≠ o.id) :
    (finSet s o.id x).ops.find? (fun q => q.id == o.id) = some { o with fin := some x } := by
  rw [finSet_ops, hs, List.map_append, List.find?_append]
  have hn : (l.map (withFin o.id x)).find? (fun q => q.id == o.id) = none :=
    List.find?_eq_none.mpr fun q hq => by
      obtain ⟨q', hq', rfl⟩ := List.mem_map.mp hq
      simpa [withFin_id] using hl q' hq'
  have hw : withFin o.id x o = { o with fin := some x } := by rw [withFin, if_pos (beq_self_eq_true _)]
  rw [hn, List.map_cons, List.map_nil, hw, Option.none_or]
  exact List.find?_cons_of_pos (beq_self_eq_true o.id)

/-- The last operation, done and held back. -/
theorem doneOp_held {s : State} {l : List Op} {o : Op} (x : Nat) (hs : s.ops = l ++ [o]) (hl : ∀ q ∈ l, q.id ≠ o.id)
    (hm : mayComplete (finSet s o.id x) { o with fin := some x } = false) :
    { o with fin := some x } ∈ (doneOp s o.id x).ops := by
  rw [doneOp_eq, find_finSet_last x hs hl]
  dsimp only
  rw [hm, if_neg Bool.false_ne_true]
  exact List.mem_of_find?_eq_some (find_finSet_last x hs hl)

theorem doneOp_free {s : State} {l : List Op} {o : Op} (x : Nat) (hs : s.ops = l ++ [o]) (hl : ∀ q ∈ l, q.id ≠ o.id)
    (hm : mayComplete (finSet s o.id x) { o with fin := some x } = true) :
    doneOp s o.id x = finishOp (finSet s o.id x) { o with fin := some x } x := by
  rw [doneOp_eq, find_finSet_last x hs hl]
  dsimp only
  rw [if_pos hm]

/-- A running strand when one of its operations completes: the register and the counter. -/
def doneStrand (d : R6) (k x : Nat) (t : Strand) : Strand :=
  let t := if d = 0 then t else { t with g := t.g.set (d.toNat % 64) (BitVec.ofNat 64 x) (by omega) }
  { t with c := t.c.set (k % 4) (t.c[k % 4] + 0xFFFF) (by omega) }

theorem r6_eq_zero_iff (d : R6) : d = 0 ↔ d.toNat = 0 :=
  ⟨fun h => by rw [h]; rfl, fun h => BitVec.eq_of_toNat_eq h⟩

theorem writeReg_running {s : State} {n : Nat} {t : Strand} {d : R6} {x pid : Nat} (h : tabGet s.strands n = some t) (hd : d ≠ 0) :
    tabGet (writeReg s t.task.id pid (.g d.toNat) x).strands n
      = some { t with g := t.g.set (d.toNat % 64) (BitVec.ofNat 64 x) (by omega) } := by
  unfold writeReg
  rw [updTask_running h, updRunning_strand, h, Option.map_some, updStrand, if_pos (beq_self_eq_true _)]
  dsimp only
  rw [if_neg (fun e => hd ((r6_eq_zero_iff d).mpr e))]

theorem addCtr_running {s : State} {n : Nat} {t : Strand} {pid k : Nat} (v : BitVec 16) (h : tabGet s.strands n = some t) :
    tabGet (addCtr s t.task.id pid k v).strands n = some { t with c := t.c.set (k % 4) (t.c[k % 4] + v) (by omega) } := by
  unfold addCtr
  dsimp only
  rw [updTask_running h, updRunning_strand, h, Option.map_some, updStrand, if_pos (beq_self_eq_true _)]

theorem completeOp_running {s : State} {n : Nat} {t : Strand} {o : Op} {d : R6} {k : Nat} (x : Nat)
    (h : tabGet s.strands n = some t) (ht : o.task = t.task.id) (hd : o.dst = dstG d) (hk : o.ctr = some k) :
    tabGet (completeOp s o x).strands n = some (doneStrand d k x t) := by
  unfold completeOp dropOp
  rw [dropOps_strands, hk, hd, ht]
  dsimp only
  by_cases hz : d = 0
  · simp only [dstG, doneStrand, if_pos hz]
    exact addCtr_running _ h
  · simp only [dstG, doneStrand, if_neg hz]
    exact addCtr_running _ (writeReg_running h hz)



/-! #### COLL (R395, R397) -/

/-- The collective that an operation of COLL joins. -/
def isColl (s : State) (cl p sel inst : Nat) (c : Coll) : Bool :=
  c.pid == p && c.sel == sel && c.inst == inst && c.k == (tabGet (getCp s cl p).collCount sel).getD 0

/-- The cluster has counted one more collective of its domain. -/
def collCounted (s : State) (cl p sel : Nat) : State :=
  updCp s cl p (fun q => { q with collCount := tabSet q.collCount sel ((tabGet (getCp s cl p).collCount sel).getD 0 + 1) })

/-- An operation has joined collective `k`. -/
def collJoined (s : State) (cl p sel id task : Nat) (k : Coll) : State :=
  putColl (collCounted s cl p sel) { k with ops := k.ops ++ [(cl, id)], tasks := k.tasks ++ [(id, task)] }

/-- An operation has begun a collective. -/
def collBegun (s : State) (cl p sel inst id task : Nat) : State :=
  let k := (tabGet (getCp s cl p).collCount sel).getD 0
  let s := collCounted s cl p sel
  { s with
    colls := s.colls ++ [{
      num := s.nextId, pid := p, sel := sel, inst := inst, k := k, ops := [(cl, id)], tasks := [(id, task)]
      members := domMembers sel inst (getDom s p sel inst).word, checked := false, cancelled := false
      pair := [], waves := [] }]
    nextId := s.nextId + 1 }

theorem joinColl_eq (s : State) (cl p sel inst id task : Nat) :
    joinColl s cl p sel inst id task = match s.colls.find? (isColl s cl p sel inst) with
      | some c => if c.cancelled then doneOp (collJoined s cl p sel id task c) id (errW 5).toNat else collJoined s cl p sel id task c
      | none => collBegun s cl p sel inst id task := rfl

theorem mem_putColl {s : State} {k k' : Coll} (h : k ∈ s.colls) (hn : k'.num = k.num) : k' ∈ (putColl s k').colls :=
  List.mem_map.mpr ⟨k, h, if_pos (by simp [hn])⟩

section
variable {g : Guard} {d a c : R6} {s : State} {t : Strand} {r : LaneRd}

/-- The operation of COLL. -/
def collOp (s : State) (t : Strand) (d c : R6) (ws : List Word) : Op :=
  let x : Layout := ⟨ws.take 8⟩
  let y : Layout := ⟨ws.drop 8⟩
  { mkOp s t .coll (some c) (dstG d) (domScope x.dom) ws with leases := leaseOf s t [(x.base, x.bytes), (y.base, y.bytes)] }

theorem coll_on (h : Ready s t (.coll g d a c) g) :
    exec (.coll g d a c) s = .next (
      if ctrFull t c then raise (.coll g d a c) .counter s t 0
      else if va48 (getG t a) % 128 ≠ 0 then raise (.coll g d a c) .align s t (BitVec.ofNat 64 (va48 (getG t a)))
      else match laneRead s t (va48 (getG t a)) 128 with
        | .error e => raise (.coll g d a c) e.1 s t (BitVec.ofNat 64 e.2)
        | .ok r => match collCause s t ⟨r.words.take 8⟩ ⟨r.words.drop 8⟩ with
          | some cs => raise (.coll g d a c) cs s t 0
          | none => joinColl (issueOp r.st t (collOp r.st t d c r.words)) t.cl t.task.pid (Layout.mk (r.words.take 8)).dom
              (domInst (Layout.mk (r.words.take 8)).dom t.cl) (collOp r.st t d c r.words).id t.task.id) := by
  simp only [exec]
  exact issue_on _ _ h

theorem coll_errors (h : Ready s t (.coll g d a c) g) :
    let va := va48 (getG t a)
    (¬ CtrFree t c → Raises (.coll g d a c) s t 22) ∧ (CtrFree t c → va % 128 ≠ 0 → Raises (.coll g d a c) s t 5)
      ∧ (∀ cs v, CtrFree t c → va % 128 = 0 → laneRead s t va 128 = .error (cs, v) → Raises (.coll g d a c) s t (causeCode cs))
      ∧ (∀ cs, CtrFree t c → va % 128 = 0 → laneRead s t va 128 = .ok r →
          collCause s t ⟨r.words.take 8⟩ ⟨r.words.drop 8⟩ = some cs → Raises (.coll g d a c) s t (causeCode cs)) := by
  intro va
  have hx := coll_on h
  refine ⟨fun hc => ?_, fun hc hal => ?_, fun cs v hc hal hr => ?_, fun cs hc hal hr hb => ?_⟩
  · rw [if_pos (ctrFull_of_not_free hc)] at hx
    exact raises_of_raise .counter _ hx
  all_goals rw [if_neg (Bool.eq_false_iff.mp hc)] at hx
  · rw [if_pos hal] at hx
    exact raises_of_raise .align _ hx
  all_goals rw [if_neg (not_not.mpr hal), hr] at hx
  · exact raises_of_raise cs _ hx
  · simp only [hb] at hx
    exact raises_of_raise cs _ hx

/-- COLL's operation stands, not yet in its collective. -/
def collIssued (t : Strand) (d c : R6) (r : LaneRd) : State := issueOp r.st t (collOp r.st t d c r.words)

/-- The strand behind COLL. -/
def collStrand (t : Strand) (c : R6) : Strand :=
  advance (setC (BitVec.ofNat 6 (c.toNat % 4)) (getC t (BitVec.ofNat 6 (c.toNat % 4)) + 1) t)

theorem coll_joins (h : Ready s t (.coll g d a c) g) (hc : CtrFree t c) (hal : va48 (getG t a) % 128 = 0)
    (hr : laneRead s t (va48 (getG t a)) 128 = .ok r) (hb : collCause s t ⟨r.words.take 8⟩ ⟨r.words.drop 8⟩ = none) :
    exec (.coll g d a c) s = .next (joinColl (collIssued t d c r) t.cl t.task.pid (Layout.mk (r.words.take 8)).dom
      (domInst (Layout.mk (r.words.take 8)).dom t.cl) s.nextId t.task.id) := by
  have hx := coll_on h
  rw [if_neg (Bool.eq_false_iff.mp hc), if_neg (not_not.mpr hal), hr] at hx
  simp only [hb] at hx
  have hid : (collOp r.st t d c r.words).id = s.nextId := (laneRead_keeps hr).2.2.2.2.2
  rw [hid] at hx
  exact hx

theorem collIssued_keeps {va n : Nat} (hr : laneRead s t va n = .ok r) :
    (collIssued t d c r).ops = s.ops ++ [collOp r.st t d c r.words] ∧ (collIssued t d c r).egress = s.egress
      ∧ (collIssued t d c r).repl = s.repl ∧ (collIssued t d c r).colls = s.colls
      ∧ isColl (collIssued t d c r) = isColl s ∧ tabGet (collIssued t d c r).strands s.cur = some (collStrand t c) := by
  have hk : OnlySoft s r.st := laneRead_onlySoft hr
  unfold OnlySoft at hk
  have hcur : r.st.cur = s.cur := by rw [hk]
  refine ⟨?_, ?_, ?_, ?_, ?_, ?_⟩
  · show r.st.ops ++ _ = _
    rw [(laneRead_keeps hr).2.2.2.2.1]
  · show r.st.egress = _
    rw [hk]
  · show r.st.repl = _
    rw [hk]
  · show r.st.colls = _
    rw [hk]
  · funext cl p sel inst k
    simp only [isColl, getCp, show (collIssued t d c r).clParts = s.clParts from (clParts_of_onlySoft (laneRead_onlySoft hr) : r.st.clParts = _)]
  · rw [← hcur]
    exact issueOp_cur r.st t _

/-- The strand behind a COLL that is done at once has its counter as before and the code in its register. -/
theorem doneStrand_collStrand (t : Strand) (d c : R6) (x : Nat) :
    let t' := doneStrand d (c.toNat % 4) x (collStrand t c)
    WroteG d (BitVec.ofNat 64 x) t t' ∧ SameV t t' ∧ SameP t t' ∧ (∀ q : R6, getC t' q = getC t q) ∧ SameF t t' ∧ MovedOn t t' := by
  intro t'
  refine ⟨fun q => ?_, ?_, ?_, fun q => ?_, ?_, ?_⟩
  · have hd : d.toNat % 64 = d.toNat := Nat.mod_eq_of_lt d.isLt
    by_cases hz : d = 0
    · simp only [t', doneStrand, if_pos hz, hz, ne_eq, not_true_eq_false, and_false, if_false]
      rfl
    · simp only [t', doneStrand, if_neg hz, ne_eq, hz, not_false_eq_true, and_true, getG, hd]
      by_cases hq : q = d
      · subst hq
        rw [if_neg hz, if_pos rfl]
        exact Vector.getElem_set_self ..
      · have hne : d.toNat ≠ q.toNat := fun e => hq (BitVec.eq_of_toNat_eq e.symm)
        rw [if_neg hq]
        refine ite_congr rfl (fun _ => rfl) fun _ => ?_
        exact Vector.getElem_set_ne d.isLt q.isLt hne
  · by_cases hz : d = 0 <;> simp only [t', doneStrand, hz, if_true, if_false] <;> exact ⟨rfl, rfl⟩
  · by_cases hz : d = 0 <;> simp only [t', doneStrand, hz, if_true, if_false] <;> rfl
  · have hc : t'.c = (collStrand t c).c.set (c.toNat % 4 % 4) ((collStrand t c).c[c.toNat % 4 % 4] + 0xFFFF) (by omega) := by
      by_cases hz : d = 0 <;> simp only [t', doneStrand, hz, if_true, if_false]
    have h4 : c.toNat % 4 % 4 = c.toNat % 4 := Nat.mod_mod _ _
    have hm : (BitVec.ofNat 6 (c.toNat % 4)).toNat % 4 = c.toNat % 4 := by rw [BitVec.toNat_ofNat]; omega
    simp only [getC, hc, collStrand, advance_c, setC, h4, hm]
    by_cases hq : q.toNat % 4 = c.toNat % 4
    · simp only [hq, Vector.getElem_set_self]
      rw [BitVec.add_assoc, show (1 : BitVec 16) + 0xFFFF = 0 by decide]
      exact BitVec.add_zero _
    · rw [Vector.getElem_set_ne _ _ (Ne.symm hq), Vector.getElem_set_ne _ _ (Ne.symm hq)]
  · by_cases hz : d = 0 <;> simp only [t', doneStrand, hz, if_true, if_false] <;> exact ⟨rfl, rfl⟩
  · by_cases hz : d = 0 <;> simp only [t', doneStrand, hz, if_true, if_false] <;> exact ⟨rfl, rfl, rfl, rfl⟩

end



theorem finishOp_noFlags {s : State} {o : Op} (x : Nat) (h : o.flags = 0) : finishOp s o x = completeOp s o x := by
  rw [finishOp, if_pos h]

section
variable {g : Guard} {d a c : R6} {s : State} {t : Strand} {r : LaneRd}

/-- COLL of a cancelled collective. -/
theorem coll_cancelled {k : Coll} (h : Ready s t (.coll g d a c) g) (hc : CtrFree t c) (hal : va48 (getG t a) % 128 = 0)
    (hr : laneRead s t (va48 (getG t a)) 128 = .ok r) (hb : collCause s t ⟨r.words.take 8⟩ ⟨r.words.drop 8⟩ = none)
    (hk : k.cancelled = true)
    (hf : s.colls.find? (isColl s t.cl t.task.pid (Layout.mk (r.words.take 8)).dom (domInst (Layout.mk (r.words.take 8)).dom t.cl)) = some k) :
    (∃ s' t', Lands (.coll g d a c) s s' t' ∧ ∀ q ∈ s'.ops, q.id = s.nextId → q.fin = some (2 ^ 63 + 5))
    ∧ ((∀ q ∈ s.ops, q.id ≠ s.nextId) → (∀ e ∈ s.egress, e.op ≠ s.nextId) → (∀ e ∈ s.repl, e.op ≠ s.nextId) → t.fence = [] →
      ∃ s' t', Lands (.coll g d a c) s s' t' ∧ WroteG d (BitVec.ofNat 64 (2 ^ 63 + 5)) t t' ∧ SameV t t' ∧ SameP t t'
        ∧ (∀ x : R6, getC t' x = getC t x) ∧ SameF t t' ∧ MovedOn t t' ∧ ∀ q ∈ s'.ops, q.id ≠ s.nextId)
    ∧ ((∀ q ∈ s.ops, q.id ≠ s.nextId) → (∃ f ∈ t.fence, f.wr = true ∧ ∃ q ∈ s.ops, q.id = f.id) →
      ∃ s' t' o, Lands (.coll g d a c) s s' t' ∧ o ∈ s'.ops ∧ o.id = s.nextId ∧ o.fin = some (2 ^ 63 + 5)) := by
  obtain ⟨k1, k2, k3, k4, k5, k6⟩ := collIssued_keeps (d := d) (c := c) (t := t) hr
  have hid : (collOp r.st t d c r.words).id = s.nextId := (laneRead_keeps hr).2.2.2.2.2
  have he : (errW 5).toNat = 2 ^ 63 + 5 := by decide
  have hx := coll_joins h hc hal hr hb
  rw [joinColl_eq, k4, k5, hf] at hx
  simp only [hk, if_true, he] at hx
  generalize hS : collJoined (collIssued t d c r) t.cl t.task.pid (Layout.mk (r.words.take 8)).dom s.nextId t.task.id k = S at hx
  have hops : S.ops = s.ops ++ [collOp r.st t d c r.words] := by rw [← hS]; exact k1
  have heg : S.egress = s.egress := by rw [← hS]; exact k2
  have hre : S.repl = s.repl := by rw [← hS]; exact k3
  have hst : tabGet S.strands s.cur = some (collStrand t c) := by rw [← hS]; exact k6
  obtain ⟨⟨t1, ht1⟩, hfin⟩ := doneOp_keeps ⟨_, hst⟩ s.nextId (2 ^ 63 + 5)
  refine ⟨⟨_, t1, ⟨hx, ht1⟩, hfin⟩, fun hn hg hp hfe => ?_, fun hn hd => ?_⟩
  · have hl : ∀ q ∈ s.ops, q.id ≠ (collOp r.st t d c r.words).id := fun q hq => by rw [hid]; exact hn q hq
    have hm : mayComplete (finSet S (collOp r.st t d c r.words).id (2 ^ 63 + 5))
        { collOp r.st t d c r.words with fin := some (2 ^ 63 + 5) } = true := by
      have h1 : (S.egress.any fun e => e.op == (collOp r.st t d c r.words).id && (decide (5 ≤ (collOp r.st t d c r.words).scope)
          || (decide (e.dst < 8) && decide (3 ≤ (collOp r.st t d c r.words).scope)))) = false :=
        List.any_eq_false.mpr fun e hm => by
          have hne := hg e (heg ▸ hm)
          simp [hid, hne]
      have h2 : (S.repl.any fun e => e.op == (collOp r.st t d c r.words).id) = false :=
        List.any_eq_false.mpr fun e hm => by simpa [hid] using hp e (hre ▸ hm)
      have h3 : (collOp r.st t d c r.words).deps = [] := hfe
      have h4 : drained (finSet S (collOp r.st t d c r.words).id (2 ^ 63 + 5))
          { collOp r.st t d c r.words with fin := some (2 ^ 63 + 5) } = true := by
        show ((!S.egress.any _) && (!S.repl.any _)) = true
        rw [h1, h2]; rfl
      rw [mayComplete, h4, depsMet, h3]
      rfl
    have hdone := doneOp_free (2 ^ 63 + 5) hops hl hm
    rw [hid] at hdone
    have hstr := completeOp_running (s := finSet S s.nextId (2 ^ 63 + 5)) (o := { collOp r.st t d c r.words with fin := some (2 ^ 63 + 5) })
      (2 ^ 63 + 5) hst rfl rfl rfl
    obtain ⟨w1, w2, w3, w4, w5, w6⟩ := doneStrand_collStrand t d c (2 ^ 63 + 5)
    refine ⟨_, _, ⟨hx, ?_⟩, w1, w2, w3, w4, w5, w6, fun q hq => ?_⟩
    · rw [hdone, finishOp_noFlags _ rfl]
      exact hstr
    · rw [hdone] at hq
      exact finishOp_no hq
  · have hl : ∀ q ∈ s.ops, q.id ≠ (collOp r.st t d c r.words).id := fun q hq => by rw [hid]; exact hn q hq
    obtain ⟨f, hf, hw, q, hq, hqf⟩ := hd
    have hm : mayComplete (finSet S (collOp r.st t d c r.words).id (2 ^ 63 + 5))
        { collOp r.st t d c r.words with fin := some (2 ^ 63 + 5) } = false := by
      have hp : ((finSet S (collOp r.st t d c r.words).id (2 ^ 63 + 5)).ops.any (fun q => q.id == f.id)) = true := by
        rw [finSet_ops, hops]
        exact List.any_eq_true.mpr ⟨_, List.mem_map_of_mem (List.mem_append_left _ hq), by rw [withFin_id, hqf]; exact beq_self_eq_true _⟩
      have hdeps : depsMet (finSet S (collOp r.st t d c r.words).id (2 ^ 63 + 5))
          { collOp r.st t d c r.words with fin := some (2 ^ 63 + 5) } false true = false := by
        refine List.all_eq_false.mpr ⟨f, hf, ?_⟩
        dsimp only
        rw [hp, hw, Bool.true_or, Bool.true_and, Bool.true_and, Bool.or_true]
        exact Bool.false_ne_true
      rw [mayComplete, hdeps, Bool.and_false]
    have hmem := doneOp_held (2 ^ 63 + 5) hops hl hm
    rw [hid] at hmem
    exact ⟨_, t1, _, ⟨hx, ht1⟩, hmem, rfl, rfl⟩

/-- COLL of a collective that is not cancelled joins it, or begins it. -/
theorem coll_issues (h : Ready s t (.coll g d a c) g) (hc : CtrFree t c) (hal : va48 (getG t a) % 128 = 0)
    (hr : laneRead s t (va48 (getG t a)) 128 = .ok r) (hb : collCause s t ⟨r.words.take 8⟩ ⟨r.words.drop 8⟩ = none)
    (hk : ∀ k ∈ s.colls, k.cancelled = false) :
    ∃ s' t' o, Lands (.coll g d a c) s s' t' ∧ s'.ops = s.ops ++ [o] ∧ o.kind = .coll ∧ o.args = r.words ∧ o.dst = dstG d
      ∧ o.ctr = some (c.toNat % 4) ∧ SameG t t' ∧ SameV t t' ∧ MovedOn t t'
      ∧ (∀ x : R6, getC t' x = if x.toNat % 4 = c.toNat % 4 then getC t x + 1 else getC t x)
      ∧ ∃ k ∈ s'.colls, k.pid = t.task.pid ∧ (t.cl, o.id) ∈ k.ops := by
  obtain ⟨k1, k2, k3, k4, k5, k6⟩ := collIssued_keeps (d := d) (c := c) (t := t) hr
  have hid : (collOp r.st t d c r.words).id = s.nextId := (laneRead_keeps hr).2.2.2.2.2
  have hx := coll_joins h hc hal hr hb
  have hctr : ∀ x : R6, getC (collStrand t c) x = if x.toNat % 4 = c.toNat % 4 then getC t x + 1 else getC t x := by
    intro x
    have hm : (BitVec.ofNat 6 (c.toNat % 4)).toNat % 4 = c.toNat % 4 := by rw [BitVec.toNat_ofNat]; omega
    rw [collStrand, getC_advance, getC_setC, hm]
    refine ite_congr rfl (fun e => ?_) (fun _ => rfl)
    simp only [getC, hm, e]
  rw [joinColl_eq, k4, k5] at hx
  cases hf : s.colls.find? (isColl s t.cl t.task.pid (Layout.mk (r.words.take 8)).dom (domInst (Layout.mk (r.words.take 8)).dom t.cl)) with
  | some k =>
    have hkm := List.mem_of_find?_eq_some hf
    simp only [hf, hk k hkm, Bool.false_eq_true, if_false] at hx
    have hpid : k.pid = t.task.pid := by
      have hsel := List.find?_some hf
      simp only [isColl, Bool.and_eq_true, beq_iff_eq] at hsel
      exact hsel.1.1.1
    refine ⟨_, collStrand t c, collOp r.st t d c r.words, ⟨hx, k6⟩, k1, rfl, rfl, rfl, rfl, fun _ => rfl, ⟨rfl, rfl⟩,
      ⟨rfl, rfl, rfl, rfl⟩, hctr, _, mem_putColl (k := k) ?_ rfl, hpid, ?_⟩
    · show k ∈ (collIssued t d c r).colls
      rw [k4]
      exact hkm
    · exact List.mem_append_right _ (by rw [hid]; exact List.mem_cons_self)
  | none =>
    simp only [hf] at hx
    refine ⟨_, collStrand t c, collOp r.st t d c r.words, ⟨hx, k6⟩, k1, rfl, rfl, rfl, rfl, fun _ => rfl, ⟨rfl, rfl⟩,
      ⟨rfl, rfl, rfl, rfl⟩, hctr, _, List.mem_append_right _ List.mem_cons_self, rfl, ?_⟩
    rw [hid]
    exact List.mem_cons_self

end

/-- Settles O36: each form's checks in their order, and what its operation carries; COLL joins, begins, or finds cancelled. -/
theorem payloadForms : Obligations.PayloadForms := by
  intro g sc d a b c s t r p dst va vb w
  refine ⟨⟨fun i hi h hc => ?_, fun h hb hl => (msend_booked (r := r) h hb hl).1⟩, fun hc => ⟨fun h => ?_, fun h => ?_, fun h hb hl => ?_,
    fun i hi h => ?_, fun h => ?_⟩, fun hc => ⟨fun h hal hr => commit_read h hc hal hr, fun h h1 h2 h3 => ?_, fun h => ?_, ?_, ?_⟩⟩
  · simp only [List.mem_cons, List.not_mem_nil, or_false] at hi
    rcases hi with rfl | rfl | rfl | rfl | rfl
    · exact (commit_errors h).1 hc
    · exact (dqsend_errors (r := r) h).1 hc
    · exact slotForm_full (form := 6) (tab := none) (d := d) (a := a) (by simp only [exec]; rfl) h hc
    · exact slotForm_full (form := 4) (tab := some b) (d := d) (a := a) (by simp only [exec]; rfl) h hc
    · exact (coll_errors (r := r) h).1 hc
  · obtain ⟨-, e2, e3⟩ := commit_errors h
    exact ⟨e2 hc, fun cs v => e3 cs v hc⟩
  · obtain ⟨-, e2, -, e4, e5, -⟩ := dqsend_errors (r := r) h
    exact ⟨e2 hc, e4 hc, fun cs v => e5 cs v hc⟩
  · obtain ⟨-, e2, -, e4, e5, -⟩ := msend_booked (r := r) h hb hl
    exact ⟨e2 hc, e4 hc, fun cs v => e5 cs v hc⟩
  · simp only [List.mem_cons, List.not_mem_nil, or_false] at hi
    rcases hi with rfl | rfl
    · exact slotForm_errors (form := 6) (tab := none) (d := d) (by simp only [exec]; rfl) h hc
    · exact slotForm_errors (form := 4) (tab := some b) (d := d) (by simp only [exec]; rfl) h hc
  · obtain ⟨-, e2, e3, -⟩ := coll_errors (r := r) h
    exact ⟨e2 hc, fun cs v => e3 cs v hc⟩
  · have hbad : ¬ (w / 8 % 2 ^ 13 ≠ 0 ∨ 2 ^ 32 ≤ w ∨ w % 8 = dieOf t.cl) := by
      rintro (e | e | e)
      · exact e h1
      · exact absurd h2 (Nat.not_lt.mpr e)
      · exact h3 e
    obtain ⟨-, -, e3, -, -, e6⟩ := dqsend_errors (r := r) h
    exact ⟨e3 hc hbad, e6 hc hbad⟩
  · intro tk
    refine ⟨msend_unbooked h, fun hb hl h1 => ?_⟩
    obtain ⟨-, -, e3, -, -, e6⟩ := msend_booked (r := r) h hb hl
    exact ⟨e3 hc h1, e6 hc h1⟩
  · intro r0 hs hr h0
    exact ⟨fun cs v h => (sactp_read h hc hs hr h0).1 cs v, fun h => sstepB_read h hc hs hr h0,
      fun q h => (sactp_read h hc hs hr h0).2 q⟩
  · intro h hal hr
    obtain ⟨-, -, -, e4⟩ := coll_errors (r := r) h
    exact ⟨fun cs => e4 cs hc hal hr, fun k hb hk hf => coll_cancelled h hc hal hr hb hk hf, fun hb hk => coll_issues h hc hal hr hb hk⟩



/-! ### SAMPLE and ACCEPT (R352-R354) -/

theorem xIsNan_iff (x : Xr) : xIsNan x = true ↔ x = .nan := by cases x <;> simp [xIsNan]

theorem xIsInf_iff (x : Xr) : xIsInf x = true ↔ ∃ n, x = .inf n := by cases x <;> simp [xIsInf]

/-- The draw takes the first entry whose running sum passes the limit. -/
theorem drawFrom_eq {lim : Xr} {l : List Xr} {acc : Xr} {i j : Nat} (hj : j < l.length)
    (hp : xCmp (xScale 24 ((l.take (j + 1)).foldl (fun a w => (groupSum [a, w]).1) acc)) lim = 1)
    (hn : ∀ k < j, xCmp (xScale 24 ((l.take (k + 1)).foldl (fun a w => (groupSum [a, w]).1) acc)) lim ≠ 1) :
    drawFrom lim l acc i = i + j := by
  induction l generalizing acc i j with
  | nil => exact absurd hj (Nat.not_lt_zero j)
  | cons w l ih =>
    rw [drawFrom]
    cases j with
    | zero => exact if_pos hp
    | succ j =>
      have h0 := hn 0 (Nat.succ_pos j)
      rw [if_neg (show ¬ xCmp (xScale 24 (groupSum [acc, w]).1) lim = 1 from h0),
        ih (Nat.lt_of_succ_lt_succ hj) hp (fun k hk => hn (k + 1) (Nat.succ_lt_succ hk))]
      omega

/-- The weights of SAMPLE's entries. -/
def sampleWeights (ws : List Word) : List Xr :=
  (List.range ((ws.getD 2 0).toNat % 2 ^ 9)).map (fun j =>
    wExpN (decodeFmt .fp32 ((ws.getD (8 + j) 0).toNat / 2 ^ 32)) (decodeFmt .fp32 ((ws.getD 8 0).toNat / 2 ^ 32)))

/-- The draw's limit u × Z. -/
def sampleLimit (ws : List Word) (seed coord : Word) : Xr :=
  (xMul (xInt ((cbg seed 4 (coord.setWidth 32) ((coord >>> 32).setWidth 32)).toNat / 256 : Nat)) (groupSum (sampleWeights ws)).1).1

theorem sampleVal_eq (ws : List Word) (seed coord : Word) :
    sampleVal ws seed coord =
      if (ws.getD 2 0).toNat % 2 ^ 9 = 0 ∨ xIsNan (decodeFmt .fp32 ((ws.getD 0 0).toNat % 2 ^ 32)) = true then errW 0
      else if ((sampleWeights ws).any xIsNan || xIsInf (groupSum (sampleWeights ws)).1 || xIsNan (groupSum (sampleWeights ws)).1) = true
      then errW 0
      else
        let j := drawFrom (sampleLimit ws seed coord) (sampleWeights ws) xZero 0
        BitVec.ofNat 64 (2 ^ 32 * j
          + ((List.range ((ws.getD 2 0).toNat % 2 ^ 9)).map (fun i => (ws.getD (8 + i) 0).toNat)).getD j 0 % 2 ^ 32) := by
  unfold sampleVal
  dsimp only
  refine ite_congr rfl (fun _ => rfl) fun h => ?_
  obtain ⟨n, hn⟩ := Nat.exists_eq_succ_of_ne_zero (not_or.mp h).1
  have hw : ((((List.range ((ws.getD 2 0).toNat % 2 ^ 9)).map (fun i => (ws.getD (8 + i) 0).toNat)).map
      (fun e => decodeFmt .fp32 (e / 2 ^ 32))).map (fun x => wExpN x ((((List.range ((ws.getD 2 0).toNat % 2 ^ 9)).map
      (fun i => (ws.getD (8 + i) 0).toNat)).map (fun e => decodeFmt .fp32 (e / 2 ^ 32))).headD xZero))) = sampleWeights ws := by
    have hh : ((((List.range ((ws.getD 2 0).toNat % 2 ^ 9)).map (fun i => (ws.getD (8 + i) 0).toNat)).map
        (fun e => decodeFmt .fp32 (e / 2 ^ 32))).headD xZero) = decodeFmt .fp32 ((ws.getD 8 0).toNat / 2 ^ 32) := by
      rw [hn, List.range_succ_eq_map]
      rfl
    rw [hh, List.map_map, List.map_map]
    rfl
  rw [hw]
  rfl

theorem errW_zero : errW 0 = BitVec.ofNat 64 (2 ^ 63) := by decide

theorem sampleVal_empty {ws : List Word}
    (h : (ws.getD 2 0).toNat % 2 ^ 9 = 0 ∨ xIsNan (decodeFmt .fp32 ((ws.getD 0 0).toNat % 2 ^ 32)) = true) (seed coord : Word) :
    sampleVal ws seed coord = BitVec.ofNat 64 (2 ^ 63) := by
  rw [sampleVal_eq, if_pos h, errW_zero]

theorem sampleVal_bad {ws : List Word} (hn : (ws.getD 2 0).toNat % 2 ^ 9 ≠ 0)
    (hm : decodeFmt .fp32 ((ws.getD 0 0).toNat % 2 ^ 32) ≠ .nan)
    (h : .nan ∈ sampleWeights ws ∨ (groupSum (sampleWeights ws)).1 = .nan ∨ ∃ n, (groupSum (sampleWeights ws)).1 = .inf n)
    (seed coord : Word) : sampleVal ws seed coord = BitVec.ofNat 64 (2 ^ 63) := by
  have hc : ((sampleWeights ws).any xIsNan || xIsInf (groupSum (sampleWeights ws)).1 || xIsNan (groupSum (sampleWeights ws)).1) = true := by
    rw [Bool.or_eq_true, Bool.or_eq_true, any_xIsNan, xIsInf_iff, xIsNan_iff]
    rcases h with h | h | h
    · exact .inl (.inl h)
    · exact .inr h
    · exact .inl (.inr h)
  rw [sampleVal_eq, if_neg (not_or.mpr ⟨hn, fun e => hm ((xIsNan_iff _).mp e)⟩), if_pos hc, errW_zero]

theorem sampleVal_drawn {ws : List Word} {seed coord : Word} {j : Nat} (hn : j < (ws.getD 2 0).toNat % 2 ^ 9)
    (hm : decodeFmt .fp32 ((ws.getD 0 0).toNat % 2 ^ 32) ≠ .nan) (h1 : .nan ∉ sampleWeights ws)
    (h2 : (groupSum (sampleWeights ws)).1 ≠ .nan) (h3 : ∀ n, (groupSum (sampleWeights ws)).1 ≠ .inf n)
    (hp : xCmp (xScale 24 (((sampleWeights ws).take (j + 1)).foldl (fun a w => (groupSum [a, w]).1) xZero)) (sampleLimit ws seed coord) = 1)
    (hq : ∀ k < j, xCmp (xScale 24 (((sampleWeights ws).take (k + 1)).foldl (fun a w => (groupSum [a, w]).1) xZero))
      (sampleLimit ws seed coord) ≠ 1) :
    sampleVal ws seed coord = BitVec.ofNat 64 (2 ^ 32 * j + (ws.getD (8 + j) 0).toNat % 2 ^ 32) := by
  have hc : ¬ ((sampleWeights ws).any xIsNan || xIsInf (groupSum (sampleWeights ws)).1 || xIsNan (groupSum (sampleWeights ws)).1) = true := by
    rw [Bool.or_eq_true, Bool.or_eq_true, any_xIsNan, xIsInf_iff, xIsNan_iff]
    rintro ((h | ⟨n, h⟩) | h)
    · exact h1 h
    · exact h3 n h
    · exact h2 h
  have hl : j < (sampleWeights ws).length := by simpa [sampleWeights] using hn
  rw [sampleVal_eq, if_neg (not_or.mpr ⟨by omega, fun e => hm ((xIsNan_iff _).mp e)⟩), if_neg hc]
  dsimp only
  rw [drawFrom_eq hl hp hq, Nat.zero_add]
  rw [List.getD_eq_getElem?_getD, List.getElem?_map, List.getElem?_range hn]
  rfl



/-- A decoded FP32 is no number that a sticky bit stands for. -/
theorem decodeFmt_fp32_exact {x m : Nat} {n st : Bool} {e : Int} (h : decodeFmt .fp32 x = .fin n m e st) : st = false := by
  simp only [decodeFmt] at h
  split_ifs at h <;> cases h <;> rfl

/-- A draft entry that ACCEPT may take: valid, its values numbers, its sum a positive one. -/
def AcceptOpen (w0 w1 w3 : Nat) : Prop :=
  w3 % 2 = 1 ∧ decodeFmt .fp32 (w0 % 2 ^ 32) ≠ .nan ∧ decodeFmt .fp32 (w1 % 2 ^ 32) ≠ .nan ∧ decodeFmt .fp32 (w1 / 2 ^ 32) ≠ .nan
    ∧ ∃ mant ex st, decodeFmt .fp32 (w0 / 2 ^ 32) = .fin false mant ex st ∧ mant ≠ 0

theorem positive_iff {l : Xr} (hs : ∀ n m e st, l = .fin n m e st → st = false) :
    (xIsNan l || xIsInf l || xIsZero l || xNeg l) = false ↔ ∃ mant ex st, l = .fin false mant ex st ∧ mant ≠ 0 := by
  cases l with
  | nan => simp [xIsNan]
  | inf n => simp [xIsInf]
  | fin n m e st =>
    have hst := hs n m e st rfl
    subst hst
    cases n <;> simp [xIsNan, xIsInf, xIsZero, xNeg]

theorem acceptOpen_iff (w0 w1 w3 : Nat) : AcceptOpen w0 w1 w3 ↔
    (decide (w3 % 2 = 0) || xIsNan (decodeFmt .fp32 (w0 / 2 ^ 32)) || xIsInf (decodeFmt .fp32 (w0 / 2 ^ 32))
      || xIsZero (decodeFmt .fp32 (w0 / 2 ^ 32)) || xNeg (decodeFmt .fp32 (w0 / 2 ^ 32)) || xIsNan (decodeFmt .fp32 (w0 % 2 ^ 32))
      || xIsNan (decodeFmt .fp32 (w1 % 2 ^ 32)) || xIsNan (decodeFmt .fp32 (w1 / 2 ^ 32))) = false := by
  have hn : ∀ x, xIsNan x = false ↔ x ≠ .nan := fun x => by rw [← Bool.not_eq_true, xIsNan_iff]
  have hp := positive_iff (l := decodeFmt .fp32 (w0 / 2 ^ 32)) (fun n m e st h => decodeFmt_fp32_exact h)
  simp only [Bool.or_eq_false_iff, decide_eq_false_iff_not, hn] at hp ⊢
  rw [AcceptOpen, ← hp]
  have h2 : w3 % 2 = 1 ↔ ¬ w3 % 2 = 0 := by omega
  rw [h2]
  constructor
  · rintro ⟨h1, hm, he, hsp, ⟨⟨h3, h4⟩, h5⟩, h6⟩
    exact ⟨⟨⟨⟨⟨⟨⟨h1, h3⟩, h4⟩, h5⟩, h6⟩, hm⟩, he⟩, hsp⟩
  · rintro ⟨⟨⟨⟨⟨⟨⟨h1, h3⟩, h4⟩, h5⟩, h6⟩, hm⟩, he⟩, hsp⟩
    exact ⟨h1, hm, he, hsp, ⟨⟨h3, h4⟩, h5⟩, h6⟩

/-- The threshold that the entropy of the draft gives. -/
def acceptTau (k w0 w1 : Nat) : Xr :=
  rnF32x (xMul (decodeFmt .fp32 k) (rnF32x (xExp2 (xFlip (entropyOf (decodeFmt .fp32 (w0 / 2 ^ 32)) (decodeFmt .fp32 (w1 % 2 ^ 32))))).1)).1

/-- The probability of the draft token. -/
def acceptProb (w0 w1 : Nat) : Xr :=
  rnF32x (xDiv (wExp (decodeFmt .fp32 (w1 / 2 ^ 32)) (decodeFmt .fp32 (w0 % 2 ^ 32))).1 (decodeFmt .fp32 (w0 / 2 ^ 32))).1

theorem acceptOne_eq (e k w0 w1 w3 : Nat) :
    acceptOne e k w0 w1 w3 =
      if (decide (w3 % 2 = 0) || xIsNan (decodeFmt .fp32 (w0 / 2 ^ 32)) || xIsInf (decodeFmt .fp32 (w0 / 2 ^ 32))
        || xIsZero (decodeFmt .fp32 (w0 / 2 ^ 32)) || xNeg (decodeFmt .fp32 (w0 / 2 ^ 32)) || xIsNan (decodeFmt .fp32 (w0 % 2 ^ 32))
        || xIsNan (decodeFmt .fp32 (w1 % 2 ^ 32)) || xIsNan (decodeFmt .fp32 (w1 / 2 ^ 32))) = true then false
      else decide (xCmp (acceptProb w0 w1)
        (if xCmp (decodeFmt .fp32 e) (acceptTau k w0 w1) = -1 then decodeFmt .fp32 e else acceptTau k w0 w1) = 1) := rfl

theorem acceptOne_closed {w0 w1 w3 : Nat} (h : ¬ AcceptOpen w0 w1 w3) (e k : Nat) : acceptOne e k w0 w1 w3 = false := by
  rw [acceptOne_eq, if_pos (Bool.eq_true_of_not_eq_false fun hf => h ((acceptOpen_iff ..).mpr hf))]

theorem acceptOne_open {w0 w1 w3 : Nat} (h : AcceptOpen w0 w1 w3) (e k : Nat) :
    acceptOne e k w0 w1 w3 = true ↔ if xCmp (decodeFmt .fp32 e) (acceptTau k w0 w1) = -1
      then xCmp (acceptProb w0 w1) (decodeFmt .fp32 e) = 1 else xCmp (acceptProb w0 w1) (acceptTau k w0 w1) = 1 := by
  rw [acceptOne_eq, (acceptOpen_iff ..).mp h, if_neg Bool.false_ne_true, decide_eq_true_iff]
  split_ifs <;> exact Iff.rfl

/-! #### Reading the records -/

theorem laneRead_ok {s : State} {t : Strand} {va n : Nat} {r : LaneRd} (h : laneRead s t va n = .ok r) {v : Nat}
    (hv : v ∈ spanVas va n) : ownPage s t v = true := by
  by_contra ho
  obtain ⟨u, hu⟩ := laneRead_residency hv (Bool.eq_false_iff.mpr ho)
  rw [hu] at h
  cases h

theorem laneRead_ecc {s : State} {t : Strand} {va n : Nat} (ho : ∀ v ∈ spanVas va n, ownPage s t v = true)
    (he : ∃ v ∈ spanVas va n, eccBad s (accessPhys s t (BitVec.ofNat 48 v)) 8 = true) :
    ∃ v, laneRead s t va n = .error (.memoryEcc, v) := by
  have h1 : (spanVas va n).find? (fun v => !ownPage s t v) = none := List.find?_eq_none.mpr fun v hv => by simp [ho v hv]
  obtain ⟨v, hv, hb⟩ := he
  cases h2 : (spanVas va n).find? (fun v => eccBad s (accessPhys s t (BitVec.ofNat 48 v)) 8) with
  | some u =>
    refine ⟨u, ?_⟩
    unfold laneRead
    simp only [h1, h2]
  | none => exact absurd hb (List.find?_eq_none.mp h2 v hv)

theorem spanVas_mono {va n m : Nat} (h : n ≤ m) {v : Nat} (hv : v ∈ spanVas va n) : v ∈ spanVas va m := by
  unfold spanVas wordVas at *
  obtain ⟨i, hi, rfl⟩ := List.mem_map.mp hv
  exact List.mem_map.mpr ⟨i, List.mem_range.mpr (lt_of_lt_of_le (List.mem_range.mp hi) (by omega)), rfl⟩

section
variable {g : Guard} {d a b c : R6} {s : State} {t : Strand}

theorem sample_on (h : Ready s t (.sample g d a b c) g) :
    exec (.sample g d a b c) s = .next (
      if !((spanVas (va48 (getG t a)) 64).all (ownPage s t)) then
        raise (.sample g d a b c) .residency s t (BitVec.ofNat 64 (va48 (getG t a)))
      else match (spanVas (va48 (getG t a)) (sampleLen s t (va48 (getG t a)))).find? (fun v => !ownPage s t v) with
        | some v => raise (.sample g d a b c) .residency s t (BitVec.ofNat 64 v)
        | none =>
          if va48 (getG t a) % 64 ≠ 0 then raise (.sample g d a b c) .align s t (BitVec.ofNat 64 (va48 (getG t a)))
          else match laneRead s t (va48 (getG t a)) (sampleLen s t (va48 (getG t a))) with
            | .error e => raise (.sample g d a b c) e.1 s t (BitVec.ofNat 64 e.2)
            | .ok r => putStrand r.st (advance (setG s.cycle 12 d (sampleVal r.words (getG t b) (getG t c)) t))) := by
  simp only [exec]
  exact issue_on _ _ h

/-- SAMPLE with its whole record on local pages. -/
theorem sample_own (h : Ready s t (.sample g d a b c) g) (h1 : ∀ u ∈ spanVas (va48 (getG t a)) 64, ownPage s t u = true)
    (h2 : ∀ u ∈ spanVas (va48 (getG t a)) (sampleLen s t (va48 (getG t a))), ownPage s t u = true) :
    exec (.sample g d a b c) s = .next (
      if va48 (getG t a) % 64 ≠ 0 then raise (.sample g d a b c) .align s t (BitVec.ofNat 64 (va48 (getG t a)))
      else match laneRead s t (va48 (getG t a)) (sampleLen s t (va48 (getG t a))) with
        | .error e => raise (.sample g d a b c) e.1 s t (BitVec.ofNat 64 e.2)
        | .ok r => putStrand r.st (advance (setG s.cycle 12 d (sampleVal r.words (getG t b) (getG t c)) t))) := by
  have hx := sample_on h
  have ha : (spanVas (va48 (getG t a)) 64).all (ownPage s t) = true := List.all_eq_true.mpr h1
  have hf : (spanVas (va48 (getG t a)) (sampleLen s t (va48 (getG t a)))).find? (fun v => !ownPage s t v) = none :=
    List.find?_eq_none.mpr fun v hv => by simp [h2 v hv]
  rw [ha, Bool.not_true, if_neg Bool.false_ne_true, hf] at hx
  exact hx

theorem sample_reads {r : LaneRd} (h : Ready s t (.sample g d a b c) g) (hal : va48 (getG t a) % 64 = 0)
    (hr : laneRead s t (va48 (getG t a)) (sampleLen s t (va48 (getG t a))) = .ok r) :
    ∃ s' t', Lands (.sample g d a b c) s s' t' ∧ SameMem s s' ∧ OnlyG d (sampleVal r.words (getG t b) (getG t c)) t t' := by
  have hx := sample_own h (fun u hu => laneRead_ok hr (spanVas_mono (Nat.le_add_right ..) hu)) (fun u hu => laneRead_ok hr hu)
  rw [if_neg (not_not.mpr hal), hr] at hx
  obtain ⟨k1, k2, -⟩ := laneRead_keeps hr
  refine ⟨_, _, ⟨hx, putStrand_lands _ _ _ k1⟩, fun a => ?_, onlyG_setG ..⟩
  show rdCell r.st.mem a = _
  rw [k2]

theorem sample_errors (h : Ready s t (.sample g d a b c) g) :
    let va := va48 (getG t a)
    let all := spanVas va (sampleLen s t va)
    ((∃ u ∈ spanVas va 64, ownPage s t u = false) → Raises (.sample g d a b c) s t 9)
    ∧ ((∀ u ∈ spanVas va 64, ownPage s t u = true) → (∃ u ∈ all, ownPage s t u = false) → Raises (.sample g d a b c) s t 9)
    ∧ ((∀ u ∈ spanVas va 64 ++ all, ownPage s t u = true) → va % 64 ≠ 0 → Raises (.sample g d a b c) s t 5)
    ∧ ((∀ u ∈ spanVas va 64 ++ all, ownPage s t u = true) → va % 64 = 0 →
      (∃ u ∈ all, eccBad s (accessPhys s t (BitVec.ofNat 48 u)) 8 = true) → Raises (.sample g d a b c) s t 23) := by
  intro va all
  refine ⟨fun hu => ?_, fun hh hu => ?_, fun hh hal => ?_, fun hh hal he => ?_⟩
  · obtain ⟨u, hu, ho⟩ := hu
    have ha : (spanVas va 64).all (ownPage s t) = false := List.all_eq_false.mpr ⟨u, hu, by simp [ho]⟩
    have hx := sample_on h
    rw [show (spanVas (va48 (getG t a)) 64).all (ownPage s t) = _ from ha, Bool.not_false, if_pos rfl] at hx
    exact raises_of_raise .residency _ hx
  · obtain ⟨u, hu, ho⟩ := hu
    have ha : (spanVas va 64).all (ownPage s t) = true := List.all_eq_true.mpr hh
    have hx := sample_on h
    rw [show (spanVas (va48 (getG t a)) 64).all (ownPage s t) = _ from ha, Bool.not_true, if_neg Bool.false_ne_true] at hx
    cases hf : all.find? (fun v => !ownPage s t v) with
    | none => exact absurd (List.find?_eq_none.mp hf u hu) (by simp [ho])
    | some v =>
      simp only [show (spanVas (va48 (getG t a)) (sampleLen s t (va48 (getG t a)))).find? (fun v => !ownPage s t v) = _ from hf] at hx
      exact raises_of_raise .residency _ hx
  all_goals
    have hx := sample_own h (fun u hu => hh u (List.mem_append_left _ hu)) (fun u hu => hh u (List.mem_append_right _ hu))
  · rw [if_pos hal] at hx
    exact raises_of_raise .align _ hx
  · obtain ⟨v, hv⟩ := laneRead_ecc (fun u hu => hh u (List.mem_append_right _ hu)) he
    rw [if_neg (not_not.mpr hal), hv] at hx
    exact raises_of_raise .memoryEcc _ hx

end



section
variable {g : Guard} {d a b : R6} {s : State} {t : Strand}

/-- The words of ACCEPT's records. -/
def acceptVas (t : Strand) (a b : R6) : List Nat := (acceptHeads (va48 (getG t a)) (getG t b)).flatMap (fun h => wordVas h 64)

/-- Which draft tokens pass. -/
def acceptOks (s : State) (t : Strand) (a b : R6) : List Bool :=
  let eps := ((acceptRegs s t).getD 0 0).toNat % 2 ^ 32
  let delta := ((acceptRegs s t).getD 1 0).toNat % 2 ^ 32
  (acceptHeads (va48 (getG t a)) (getG t b)).map (fun h =>
    acceptOne eps delta (laneWord s t (h + 8 * 0)) (laneWord s t (h + 8 * 1)) (laneWord s t (h + 8 * 3)))

theorem accept_on (h : Ready s t (.accept g d a b) g) :
    exec (.accept g d a b) s = .next (
      if (getG t b).toNat % 32 = 0 ∨ 16 < (getG t b).toNat % 32 ∨ (getG t b).toNat / 2 ^ 8 % 2 ^ 16 = 0
          ∨ (getG t b).toNat / 32 % 8 ≠ 0 ∨ (getG t b).toNat / 2 ^ 24 ≠ 0 then
        putStrand s (advance (setG s.cycle 12 d (errW 4) t))
      else if va48 (getG t a) % 64 ≠ 0 then raise (.accept g d a b) .align s t (BitVec.ofNat 64 (va48 (getG t a)))
      else match (acceptVas t a b).find? (fun v => !ownPage s t v) with
        | some v => raise (.accept g d a b) .residency s t (BitVec.ofNat 64 v)
        | none => match (acceptVas t a b).find? (fun v => eccBad s (accessPhys s t (BitVec.ofNat 48 v)) 8) with
          | some v => raise (.accept g d a b) .memoryEcc s t (BitVec.ofNat 64 v)
          | none =>
            let k := ((acceptOks s t a b).takeWhile id).length
            putStrand ((acceptVas t a b).foldl (fun q v => correctSoft q (accessPhys s t (BitVec.ofNat 48 v)) 8) s)
              (advance (setG s.cycle 12 d (BitVec.ofNat 64 (k + (if k = (getG t b).toNat % 32 then 256 else 0))) t))) := by
  simp only [exec]
  exact issue_on _ _ h

theorem errW_four : errW 4 = BitVec.ofNat 64 (2 ^ 63 + 4) := by decide

theorem accept_malformed (h : Ready s t (.accept g d a b) g)
    (hb : (getG t b).toNat % 32 = 0 ∨ 16 < (getG t b).toNat % 32 ∨ (getG t b).toNat / 2 ^ 8 = 0
      ∨ (getG t b).toNat / 32 % 8 ≠ 0 ∨ 2 ^ 24 ≤ (getG t b).toNat) :
    ∃ s' t', Lands (.accept g d a b) s s' t' ∧ SameMem s s' ∧ OnlyG d (BitVec.ofNat 64 (2 ^ 63 + 4)) t t' := by
  have hx := accept_on h
  rw [if_pos (by omega), errW_four] at hx
  exact ⟨_, _, ⟨hx, putStrand_lands _ _ _ rfl⟩, fun _ => rfl, onlyG_setG ..⟩

theorem foldl_correctSoft_at (s0 : State) (t : Strand) (l : List Nat) (s : State) :
    let s' := l.foldl (fun q v => correctSoft q (accessPhys s0 t (BitVec.ofNat 48 v)) 8) s
    s'.cur = s.cur ∧ s'.mem = s.mem := by
  intro s'
  have hs : s' = (l.map (fun v => accessPhys s0 t (BitVec.ofNat 48 v))).foldl (fun s a => correctSoft s a 8) s := by
    rw [List.foldl_map]
  obtain ⟨h1, h2, -⟩ := foldl_correctSoft (l.map (fun v => accessPhys s0 t (BitVec.ofNat 48 v))) 8 s
  rw [hs]
  exact ⟨h1, h2⟩

/-- How many of a list's leading entries hold. -/
theorem takeWhile_leading (l : List Bool) :
    let k := (l.takeWhile id).length
    k ≤ l.length ∧ (∀ j < k, l[j]? = some true) ∧ (k < l.length → l[k]? = some false) := by
  induction l with
  | nil => exact ⟨Nat.le_refl _, fun j hj => absurd hj (Nat.not_lt_zero j), fun h => absurd h (Nat.lt_irrefl _)⟩
  | cons b l ih =>
    cases b with
    | false => exact ⟨Nat.zero_le _, fun j hj => absurd hj (Nat.not_lt_zero j), fun _ => rfl⟩
    | true =>
      obtain ⟨h1, h2, h3⟩ := ih
      refine ⟨Nat.succ_le_succ h1, fun j hj => ?_, fun hj => h3 (Nat.lt_of_succ_lt_succ hj)⟩
      cases j with
      | zero => rfl
      | succ j => exact h2 j (Nat.lt_of_succ_lt_succ hj)

/-- ACCEPT whose word names a run of records. -/
theorem accept_formed (h : Ready s t (.accept g d a b) g) (h1 : 1 ≤ (getG t b).toNat % 32) (h2 : (getG t b).toNat % 32 ≤ 16)
    (h3 : 1 ≤ (getG t b).toNat / 2 ^ 8) (h4 : (getG t b).toNat / 32 % 8 = 0) (h5 : (getG t b).toNat < 2 ^ 24) :
    (va48 (getG t a) % 64 ≠ 0 → Raises (.accept g d a b) s t 5)
    ∧ (va48 (getG t a) % 64 = 0 → (∃ u ∈ acceptVas t a b, ownPage s t u = false) → Raises (.accept g d a b) s t 9)
    ∧ (va48 (getG t a) % 64 = 0 → (∀ u ∈ acceptVas t a b, ownPage s t u = true) →
      (∃ u ∈ acceptVas t a b, eccBad s (accessPhys s t (BitVec.ofNat 48 u)) 8 = true) → Raises (.accept g d a b) s t 23)
    ∧ (va48 (getG t a) % 64 = 0 → (∀ u ∈ acceptVas t a b, ownPage s t u = true ∧ eccBad s (accessPhys s t (BitVec.ofNat 48 u)) 8 = false) →
      let k := ((acceptOks s t a b).takeWhile id).length
      ∃ s' t', Lands (.accept g d a b) s s' t' ∧ SameMem s s'
        ∧ OnlyG d (BitVec.ofNat 64 (k + if k = (getG t b).toNat % 32 then 256 else 0)) t t') := by
  have hx := accept_on h
  rw [if_neg (by omega)] at hx
  refine ⟨fun hal => ?_, fun hal hu => ?_, fun hal ho hu => ?_, fun hal ho => ?_⟩
  · rw [if_pos hal] at hx
    exact raises_of_raise .align _ hx
  all_goals rw [if_neg (not_not.mpr hal)] at hx
  · obtain ⟨u, hu, hf⟩ := hu
    cases hv : (acceptVas t a b).find? (fun v => !ownPage s t v) with
    | none => exact absurd (List.find?_eq_none.mp hv u hu) (by simp [hf])
    | some v =>
      rw [hv] at hx
      exact raises_of_raise .residency _ hx
  · obtain ⟨u, hu, hf⟩ := hu
    have hv : (acceptVas t a b).find? (fun v => !ownPage s t v) = none := List.find?_eq_none.mpr fun v hv => by simp [ho v hv]
    rw [hv] at hx
    cases he : (acceptVas t a b).find? (fun v => eccBad s (accessPhys s t (BitVec.ofNat 48 v)) 8) with
    | none => exact absurd (List.find?_eq_none.mp he u hu) (by simp [hf])
    | some v =>
      simp only [he] at hx
      exact raises_of_raise .memoryEcc _ hx
  · have hv : (acceptVas t a b).find? (fun v => !ownPage s t v) = none :=
      List.find?_eq_none.mpr fun v hv => by simp [(ho v hv).1]
    have he : (acceptVas t a b).find? (fun v => eccBad s (accessPhys s t (BitVec.ofNat 48 v)) 8) = none :=
      List.find?_eq_none.mpr fun v hv => by simp [(ho v hv).2]
    simp only [hv, he] at hx
    obtain ⟨k1, k2⟩ := foldl_correctSoft_at s t (acceptVas t a b) s
    refine ⟨_, _, ⟨hx, putStrand_lands _ _ _ k1⟩, fun a => congrArg (rdCell · a) k2, onlyG_setG ..⟩

end

/-- Settles O37: the draw takes the first entry that passes; ACCEPT counts the leading ones that do. -/
theorem sampleAccept : Obligations.SampleAccept := by
  intro g d a b c s t va rd n st head heads vas regs eps delta ok i
  have hregs : acceptRegs s t = regs := by
    simp only [acceptRegs, regs, List.isEmpty_iff]
  have hheads : (getG t b).toNat < 2 ^ 24 → acceptHeads (va48 (getG t a)) (getG t b) = heads := fun h => by
    have hst : (getG t b).toNat / 2 ^ 8 % 2 ^ 16 = st := Nat.mod_eq_of_lt (by omega)
    rw [acceptHeads, hst]
    rfl
  have hvas : (getG t b).toNat < 2 ^ 24 → acceptVas t a b = vas := fun h => by rw [acceptVas, hheads h]
  refine ⟨fun r h hal hr => sample_reads h hal hr, fun ws seed coord h => sampleVal_empty h seed coord, fun ws seed coord => ?_,
    fun e k w0 w1 w3 => ⟨fun h => acceptOne_closed h e k, fun h => acceptOne_open h e k⟩, fun h hb => accept_malformed h hb,
    fun h h1 h2 h3 h4 h5 hal ho => ?_, fun h h1 h2 h3 h4 h5 => ?_, fun h => sample_errors h⟩
  · intro ns x wt z u sum passes hn hm
    exact ⟨fun hb => sampleVal_bad hn hm hb seed coord, fun j k1 k2 k3 k4 k5 k6 => sampleVal_drawn k4 hm k1 k2 k3 k5 k6⟩
  · obtain ⟨-, -, -, k4⟩ := accept_formed h h1 h2 h3 h4 h5
    rw [hvas h5] at k4
    obtain ⟨s', t', hl, hm, hg⟩ := k4 hal ho
    obtain ⟨j1, j2, j3⟩ := takeWhile_leading (acceptOks s t a b)
    have hlen : (acceptOks s t a b).length = n := by
      rw [acceptOks, hheads h5, List.length_map, List.length_map, List.length_range]
    have hget : ∀ j < n, (acceptOks s t a b)[j]? = some (acceptOne eps delta (rd (head j) 0) (rd (head j) 1) (rd (head j) 3)) := by
      intro j hj
      simp only [acceptOks, hheads h5, hregs, List.getElem?_map, heads, List.getElem?_range hj, Option.map_some]
      rfl
    rw [hlen] at j1 j3
    refine ⟨s', t', _, hl, hm, j1, fun j hj => ?_, fun hj => ?_, hg⟩
    · exact Option.some.inj ((hget j (lt_of_lt_of_le hj j1)).symm.trans (j2 j hj))
    · exact Bool.eq_false_iff.mp (Option.some.inj ((hget _ hj).symm.trans (j3 hj)))
  · obtain ⟨k1, k2, k3, -⟩ := accept_formed h h1 h2 h3 h4 h5
    rw [hvas h5] at k2 k3
    exact ⟨k1, k2, k3⟩

end Sys2Proof.Machine
end

section
/-! SUPPORT. MRECV and DQRECV take what waits for them; FENCE, BAR and PHASE, and what a release and the end of a segment leave alone; ATTM, VROPE and VLDB (R141, R160, R172, R224, R301-R306, R321-R323, R357, R378-R382, R390, R423). -/

namespace Sys2Proof.Machine

open Laws



/-! ### Stores line by line (R160, R171, R224) -/

theorem rdBytes_congr {m m' : List Host.Cell} {a n : Nat} (h : ∀ b, a ≤ b → b < a + n → rdCell m b = rdCell m' b) :
    rdBytes m a n = rdBytes m' a n := by
  induction n generalizing a with
  | zero => rfl
  | succ n ih =>
    rw [rdBytes, rdBytes, h a (Nat.le_refl a) (by omega), ih fun b h1 h2 => h b (by omega) (by omega)]

theorem rdBytes_wrBytes_same {m : List Host.Cell} (h : Memory.wf m = true) (a : Nat) (bs : List Byte) :
    rdBytes (wrBytes m a bs) a bs.length = bs := by
  have hr := rdBytes_wrBytes bs [] m a h
  rwa [List.nil_append, List.length_nil, Nat.add_zero] at hr

/-- Memory behind a row of writes. -/
def dueMem (m : List Host.Cell) (ws : List (Nat × Nat × List Byte)) : List Host.Cell :=
  ws.foldl (fun m w => wrBytes m w.2.1 w.2.2) m

theorem wf_dueMem {m : List Host.Cell} (h : Memory.wf m = true) (ws : List (Nat × Nat × List Byte)) :
    Memory.wf (dueMem m ws) = true := by
  induction ws generalizing m with
  | nil => exact h
  | cons w ws ih => exact ih (wf_wrBytes _ _ _ h)

theorem rdCell_dueMem_off {m : List Host.Cell} (h : Memory.wf m = true) {ws : List (Nat × Nat × List Byte)} {b : Nat}
    (hb : ∀ w ∈ ws, b < w.2.1 ∨ w.2.1 + w.2.2.length ≤ b) : rdCell (dueMem m ws) b = rdCell m b := by
  induction ws generalizing m with
  | nil => rfl
  | cons w ws ih =>
    have hw := hb w List.mem_cons_self
    rw [dueMem, List.foldl_cons]
    refine (ih (wf_wrBytes _ _ _ h) fun u hu => hb u (List.mem_cons_of_mem _ hu)).trans ?_
    rw [rdCell_wrBytes _ _ _ _ h, if_neg (by omega)]

theorem linesDue_mem (s : State) (ws : List (Nat × Nat × List Byte)) :
    (linesDue s ws).mem = dueMem s.mem (ws.filter (fun w => decide (w.1 ≤ s.cycle))) := by
  unfold linesDue
  generalize ws.filter _ = l
  induction l generalizing s with
  | nil => rfl
  | cons w l ih => exact ih (wrMem s w.2.1 w.2.2)

/-- The writes of an access: what lies at each place, with the cycle of its line. -/
def lineWrites (s : State) (t : Strand) (ps : List Nat) (n : Nat) (x : Nat → List Byte) : List (Nat × Nat × List Byte) :=
  ps.mapIdx (fun j p => (lineTime s t ps n p, p, x j))

theorem mem_lineWrites {s : State} {t : Strand} {ps : List Nat} {n : Nat} {x : Nat → List Byte} {w : Nat × Nat × List Byte} :
    w ∈ lineWrites s t ps n x ↔ ∃ j p, ps[j]? = some p ∧ w = (lineTime s t ps n p, p, x j) := by
  constructor
  · intro hw
    obtain ⟨j, hj, rfl⟩ := List.mem_mapIdx.mp hw
    exact ⟨j, ps[j], List.getElem?_eq_getElem hj, rfl⟩
  · rintro ⟨j, p, hp, rfl⟩
    obtain ⟨hj, rfl⟩ := List.getElem?_eq_some_iff.mp hp
    exact List.mem_mapIdx.mpr ⟨j, hj, rfl⟩

/-- A write of a row of which none behind it touches its bytes stands in memory. -/
theorem rdBytes_dueMem {m : List Host.Cell} (h : Memory.wf m = true) (l1 l2 : List (Nat × Nat × List Byte)) (w : Nat × Nat × List Byte)
    (hd : ∀ u ∈ l2, u.2.1 + u.2.2.length ≤ w.2.1 ∨ w.2.1 + w.2.2.length ≤ u.2.1) :
    rdBytes (dueMem m (l1 ++ w :: l2)) w.2.1 w.2.2.length = w.2.2 := by
  have h1 : dueMem m (l1 ++ w :: l2) = dueMem (wrBytes (dueMem m l1) w.2.1 w.2.2) l2 := by
    simp only [dueMem, List.foldl_append, List.foldl_cons]
  have hwf := wf_dueMem h l1
  rw [h1, rdBytes_congr (m' := wrBytes (dueMem m l1) w.2.1 w.2.2) fun b hb1 hb2 =>
    rdCell_dueMem_off (wf_wrBytes _ _ _ hwf) fun u hu => by have := hd u hu; omega]
  exact rdBytes_wrBytes_same hwf _ _

theorem foldl_max_le (l : List (Nat × Nat × List Byte)) (m : Nat) :
    m ≤ l.foldl (fun m w => max m w.1) m ∧ ∀ w ∈ l, w.1 ≤ l.foldl (fun m w => max m w.1) m := by
  induction l generalizing m with
  | nil => exact ⟨Nat.le_refl m, fun w hw => absurd hw List.not_mem_nil⟩
  | cons w l ih =>
    obtain ⟨h1, h2⟩ := ih (max m w.1)
    refine ⟨le_trans (le_max_left ..) h1, fun u hu => ?_⟩
    rcases List.mem_cons.mp hu with rfl | hu
    · exact le_trans (le_max_right ..) h1
    · exact h2 u hu

/-- What `putLines` stores now and what it keeps for later are the two parts of the access's writes. -/
theorem storesLines_putLines {s s1 s' : State} {t t1 t' : Strand} {ps : List Nat} {n : Nat} {x : Nat → List Byte}
    (hwf : Memory.wf s1.mem = true) (hcy : s1.cycle = s.cycle) (hn : ∀ j p, ps[j]? = some p → (x j).length = n)
    (hend : endCycle t1 = endCycle t)
    (hs : s'.mem = (putLines t1 s1 (lineWrites s t ps n x)).2.mem)
    (ho : t'.lineOut = (putLines t1 s1 (lineWrites s t ps n x)).1.lineOut)
    (hh : t'.hold = (putLines t1 s1 (lineWrites s t ps n x)).1.hold) : StoresLines s s1 s' t t' ps n x := by
  set ws := lineWrites s t ps n x with hws
  have hm : s'.mem = dueMem s1.mem ((ws.filter (fun w => decide (w.1 < endCycle t))).filter (fun w => decide (w.1 ≤ s.cycle))) := by
    rw [hs, ← hend, ← hcy]
    exact linesDue_mem ..
  have ho' : t'.lineOut = ws.filter (fun w => decide (s.cycle < w.1 ∧ w.1 < endCycle t)) := by rw [ho, ← hend, ← hcy]; rfl
  have hlen : ∀ w ∈ ws, w.2.2.length = n := fun w hw => by
    obtain ⟨j, p, hp, rfl⟩ := mem_lineWrites.mp hw
    exact hn j p hp
  have hdue : ∀ w ∈ (ws.filter (fun w => decide (w.1 < endCycle t))).filter (fun w => decide (w.1 ≤ s.cycle)),
      w ∈ ws ∧ w.1 < endCycle t ∧ w.1 ≤ s.cycle := fun w hw => by
    rw [List.mem_filter, List.mem_filter, decide_eq_true_iff, decide_eq_true_iff] at hw
    exact ⟨hw.1.1, hw.1.2, hw.2⟩
  refine ⟨fun b hb => ?_, fun j p hp hlast h1 h2 => ?_, fun p hp hlate hoff b hb1 hb2 => ?_, fun j p hp h1 h2 => ?_, fun l hl => ?_⟩
  · rw [hm]
    refine rdCell_dueMem_off hwf fun w hw => ?_
    obtain ⟨hw1, -⟩ := hdue w hw
    have hl := hlen w hw1
    obtain ⟨j, p, hp, rfl⟩ := mem_lineWrites.mp hw1
    rw [hl]
    exact hb p (List.mem_of_getElem? hp)
  · obtain ⟨hj, hpj⟩ := List.getElem?_eq_some_iff.mp hp
    have hjw : j < ws.length := by rw [hws, lineWrites, List.length_mapIdx]; exact hj
    have hwj : ws[j] = (lineTime s t ps n p, p, x j) := by
      simp only [hws, lineWrites, List.getElem_mapIdx, hpj]
    have hsplit : ws = ws.take j ++ (lineTime s t ps n p, p, x j) :: ws.drop (j + 1) := by
      rw [← hwj, ← List.drop_eq_getElem_cons hjw, List.take_append_drop]
    rw [hm, hsplit]
    simp only [List.filter_append, List.filter_cons, decide_eq_true h1, decide_eq_true h2, if_true]
    have hd : ∀ u ∈ ((ws.drop (j + 1)).filter (fun w => decide (w.1 < endCycle t))).filter (fun w => decide (w.1 ≤ s.cycle)),
        u.2.1 + u.2.2.length ≤ p ∨ p + (x j).length ≤ u.2.1 := by
      intro u hu
      obtain ⟨i, hi, rfl⟩ := List.getElem_of_mem (List.mem_filter.mp (List.mem_filter.mp hu).1).1
      rw [List.length_drop] at hi
      have hk : j + 1 + i < ps.length := by
        have : ws.length = ps.length := by rw [hws, lineWrites, List.length_mapIdx]
        omega
      have hu' : (ws.drop (j + 1))[i] = (lineTime s t ps n ps[j + 1 + i], ps[j + 1 + i], x (j + 1 + i)) := by
        simp only [List.getElem_drop, hws, lineWrites, List.getElem_mapIdx]
      rw [hu']
      have hq := hlast (j + 1 + i) ps[j + 1 + i] (by omega) (List.getElem?_eq_getElem hk)
      have hl1 := hn _ _ (List.getElem?_eq_getElem hk)
      have hl2 := hn _ _ hp
      dsimp only
      omega
    have hres := rdBytes_dueMem hwf (((ws.take j).filter (fun w => decide (w.1 < endCycle t))).filter (fun w => decide (w.1 ≤ s.cycle)))
      (((ws.drop (j + 1)).filter (fun w => decide (w.1 < endCycle t))).filter (fun w => decide (w.1 ≤ s.cycle)))
      (lineTime s t ps n p, p, x j) hd
    rw [hn j p hp] at hres
    exact hres
  · rw [hm]
    refine rdCell_dueMem_off hwf fun w hw => ?_
    obtain ⟨hw1, hw2, hw3⟩ := hdue w hw
    have hl := hlen w hw1
    obtain ⟨k, q, hq, rfl⟩ := mem_lineWrites.mp hw1
    have := hoff q (List.mem_of_getElem? hq)
    dsimp only at hw2 hw3 hl ⊢
    omega
  · have hw : (lineTime s t ps n p, p, x j) ∈ ws := mem_lineWrites.mpr ⟨j, p, hp, rfl⟩
    refine ⟨by rw [ho']; exact List.mem_filter.mpr ⟨hw, decide_eq_true ⟨h1, h2⟩⟩, ?_⟩
    rw [hh]
    exact Nat.lt_succ_of_le ((foldl_max_le ws s1.cycle).2 _ hw)
  · rw [ho'] at hl
    exact (of_decide_eq_true (List.mem_filter.mp hl).2).2



/-! ### MRECV and DQRECV (R357, R390) -/

/-- What a receive leaves: its register when the last line falls into the segment, and its lines. -/
theorem receive_spec {i : Instr} {s s1 : State} {t : Strand} {va : Nat} {bs : List Byte} {d : R6} {x : Word} {after : State → Prop}
    (h : s.Inv) (hx : exec i s = .next (receive s1 t va bs d x)) (hcur : s1.cur = s.cur) (hcy : s1.cycle = s.cycle)
    (hm : s1.mem = s.mem) (hp : accessPhys s1 t = accessPhys s t) (hlen : bs.length % 8 = 0)
    (ha : ∀ s', s'.clParts = s1.clParts → s'.dieParts = s1.dieParts → after s') :
    let ps := (wordVas va bs.length).map (fun v => accessPhys s t (BitVec.ofNat 48 v))
    ∃ s' t', Lands i s s' t' ∧ (lineEnd s t ps 8 < endCycle t → OnlyG d x t t') ∧ (endCycle t ≤ lineEnd s t ps 8 → OnlyMoves t t')
      ∧ after s' ∧ StoresLines s s s' t t' ps 8 (fun j => (bs.drop (8 * j)).take 8) := by
  intro ps
  have hl : lineTimes t s1 = lineTimes t s := by unfold lineTimes reachRel; rw [hcy]
  set q := putLines t s1 (lineWrites s t ps 8 (fun j => (bs.drop (8 * j)).take 8)) with hq
  have hr : receive s1 t va bs d x = putStrand q.2 (advance (if endCycle t ≤ lineEnd s t ps 8 then q.1
      else setG s1.cycle (lineEnd s t ps 8 + 1 - s1.cycle) d x q.1)) := by
    unfold receive
    rw [hp, hl, hcy]
    rfl
  have hframe : ∀ l : List (Nat × Nat × List Byte), (linesDue s1 l).cur = s1.cur ∧ (linesDue s1 l).clParts = s1.clParts
      ∧ (linesDue s1 l).dieParts = s1.dieParts := by
    intro l
    unfold linesDue
    generalize l.filter _ = l
    clear hm hr hq hl hcy hcur ha hx hp q
    induction l generalizing s1 with
    | nil => exact ⟨rfl, rfl, rfl⟩
    | cons w l ih => exact ih (s1 := wrMem s1 w.2.1 w.2.2)
  rw [hr] at hx
  obtain ⟨f1, f2, f3⟩ := hframe ((lineWrites s t ps 8 (fun j => (bs.drop (8 * j)).take 8)).filter
    (fun w => decide (w.1 < endCycle t)))
  have hn : ∀ j p, ps[j]? = some p → ((bs.drop (8 * j)).take 8).length = 8 := by
    intro j p hj
    obtain ⟨hj, -⟩ := List.getElem?_eq_some_iff.mp hj
    simp only [ps, wordVas, List.length_map, List.length_range] at hj
    rw [List.length_take, List.length_drop]
    omega
  have hst : ∀ u : Strand, u.lineOut = q.1.lineOut → u.hold = q.1.hold →
      StoresLines s s (putStrand q.2 u) t u ps 8 (fun j => (bs.drop (8 * j)).take 8) := by
    intro u h1 h2
    have hs1 := storesLines_putLines (s' := putStrand q.2 u) (t' := u) (t1 := t) (s1 := s1) (by rw [hm]; exact h.1) hcy hn rfl rfl h1 h2
    unfold StoresLines SameMemOff at hs1 ⊢
    rwa [hm] at hs1
  refine ⟨_, _, ⟨hx, putStrand_lands _ _ _ (f1.trans hcur)⟩, fun he => ?_, fun he => ?_, ha _ f2 f3, hst _ ?_ ?_⟩
  · rw [if_neg (by omega)]
    exact onlyG_setG ..
  · rw [if_pos he]
    exact onlyMoves_advance t
  · split_ifs
    · rfl
    · rw [advance_lineOut, setG_lineOut]
  · split_ifs
    · rfl
    · rw [advance_hold, setG_hold]

section
variable {g : Guard} {tg : Bool} {d a b : R6} {s : State} {t : Strand}

theorem mrecv_on (h : Ready s t (.mrecv g tg d a b) g) :
    exec (.mrecv g tg d a b) s = .next (match destLeased s t (va48 (getG t a)) 256 with
      | some v => raise (.mrecv g tg d a b) .lease s t (BitVec.ofNat 64 v)
      | none => match destCause s t (va48 (getG t a)) 256 with
        | some c => raise (.mrecv g tg d a b) c.1 s t (BitVec.ofNat 64 c.2)
        | none => match (getCp s t.cl t.task.pid).inbox.find? (msgMatches tg ((getG t b).toNat % 2 ^ 16)) with
          | none => implicitSplit s t 5 (BitVec.ofNat 64 ((getG t b).toNat % 2 ^ 16 + 2 ^ 16 * (if tg then 1 else 0))) 0
          | some m => receive (updCp s t.cl t.task.pid
              (fun k => { k with inbox := k.inbox.eraseP (msgMatches tg ((getG t b).toNat % 2 ^ 16)) }))
              t (va48 (getG t a)) m.bytes d m.hdr) := by
  simp only [exec]
  exact issue_on _ _ h

theorem dqrecv_on (h : Ready s t (.dqrecv g d a b) g) :
    exec (.dqrecv g d a b) s = .next (match destLeased s t (va48 (getG t a)) 256 with
      | some v => raise (.dqrecv g d a b) .lease s t (BitVec.ofNat 64 v)
      | none =>
        if dqBad (getG t b) (dieOf t.cl) then raise (.dqrecv g d a b) .reservedField s t 0
        else if !(partDies s t.task.pid).contains (dqDie (getG t b)) then raise (.dqrecv g d a b) .tenant s t 0
        else match destCause s t (va48 (getG t a)) 256 with
          | some c => raise (.dqrecv g d a b) c.1 s t (BitVec.ofNat 64 c.2)
          | none => match (tabGet (getDp s (dieOf t.cl) t.task.pid).dqIn (dqDie (getG t b))).getD [] with
            | [] => implicitSplit s t 6 (BitVec.ofNat 64 ((getG t b).toNat % 2 ^ 32)) 0
            | (q, bs) :: rest =>
              if q ≠ dqSeq (getG t b) then raise (.dqrecv g d a b) .sequence s t 0
              else receive (updDp s (dieOf t.cl) t.task.pid (fun k => { k with
                  dqIn := tabSet k.dqIn (dqDie (getG t b)) rest
                  dqRx := tabSet k.dqRx (dqDie (getG t b)) (((tabGet k.dqRx (dqDie (getG t b))).getD 0 + 1) % 2 ^ 16) }))
                t (va48 (getG t a)) bs d (BitVec.ofNat 64 q)) := by
  simp only [exec]
  exact issue_on _ _ h

theorem mrecv_errors (h : Ready s t (.mrecv g tg d a b) g) :
    ((destLeased s t (va48 (getG t a)) 256).isSome = true → Raises (.mrecv g tg d a b) s t 6)
    ∧ (∀ cs v, destLeased s t (va48 (getG t a)) 256 = none → destCause s t (va48 (getG t a)) 256 = some (cs, v) →
      Raises (.mrecv g tg d a b) s t (causeCode cs)) := by
  have hx := mrecv_on h
  refine ⟨fun hl => ?_, fun cs v hl hc => ?_⟩
  · obtain ⟨v, hv⟩ := Option.isSome_iff_exists.mp hl
    rw [hv] at hx
    exact raises_of_raise .lease _ hx
  · rw [hl, hc] at hx
    exact raises_of_raise cs _ hx

theorem dqrecv_errors (h : Ready s t (.dqrecv g d a b) g) :
    let w := (getG t b).toNat
    let bad : Prop := w / 8 % 2 ^ 13 ≠ 0 ∨ 2 ^ 32 ≤ w ∨ w % 8 = dieOf t.cl
    ((destLeased s t (va48 (getG t a)) 256).isSome = true → Raises (.dqrecv g d a b) s t 6)
    ∧ (destLeased s t (va48 (getG t a)) 256 = none → bad → Raises (.dqrecv g d a b) s t 2)
    ∧ (destLeased s t (va48 (getG t a)) 256 = none → ¬ bad → (partDies s t.task.pid).contains (w % 8) = false →
      Raises (.dqrecv g d a b) s t 12)
    ∧ (∀ cs v, destLeased s t (va48 (getG t a)) 256 = none → destCause s t (va48 (getG t a)) 256 = some (cs, v) → ¬ bad →
      (partDies s t.task.pid).contains (w % 8) = true → Raises (.dqrecv g d a b) s t (causeCode cs)) := by
  intro w bad
  have hx := dqrecv_on h
  have hb : dqBad (getG t b) (dieOf t.cl) = true ↔ bad := dqBad_iff _ _
  refine ⟨fun hl => ?_, fun hl h1 => ?_, fun hl h1 h2 => ?_, fun cs v hl hc h1 h2 => ?_⟩
  · obtain ⟨v, hv⟩ := Option.isSome_iff_exists.mp hl
    rw [hv] at hx
    exact raises_of_raise .lease _ hx
  all_goals
    rw [hl] at hx
    dsimp only at hx
  · rw [if_pos (hb.mpr h1)] at hx
    exact raises_of_raise .reservedField _ hx
  all_goals rw [if_neg (fun e => h1 (hb.mp e)), show (partDies s t.task.pid).contains (dqDie (getG t b)) = _ from h2] at hx
  · exact raises_of_raise .tenant _ hx
  · rw [Bool.not_true, if_neg Bool.false_ne_true, hc] at hx
    exact raises_of_raise cs _ hx

end

/-- Settles O38: both forms check their destination, then take what waits for them or split. -/
theorem receives : Obligations.Receives := by
  intro g tg d a b s t p va w tag die box q got badDie
  refine ⟨fun i hi h hl => ?_, fun cs v hl hc => ⟨fun h => (mrecv_errors h).2 cs v hl hc,
    fun h h1 h2 => (dqrecv_errors h).2.2.2 cs v hl hc h1 h2⟩, fun h hl => ⟨(dqrecv_errors h).2.1 hl, (dqrecv_errors h).2.2.1 hl⟩,
    fun hl hc => ⟨fun h => ⟨fun m hm hlen => ?_, fun hm => ?_⟩, fun h h1 h2 h3 h4 => ?_⟩⟩
  · simp only [List.mem_cons, List.not_mem_nil, or_false] at hi
    rcases hi with rfl | rfl
    · exact (mrecv_errors h).1 hl
    · exact (dqrecv_errors h).1 hl
  · have hx := mrecv_on h
    rw [show destLeased s t (va48 (getG t a)) 256 = none from hl, show destCause s t (va48 (getG t a)) 256 = none from hc,
      show (getCp s t.cl t.task.pid).inbox.find? (msgMatches tg ((getG t b).toNat % 2 ^ 16)) = some m from hm] at hx
    refine receive_spec h.1 hx rfl rfl rfl rfl hlen fun s' hs' _ => ?_
    rw [getCp, hs']
    exact congrArg ClPart.inbox (getCp_updCp_same ..)
  · have hx := mrecv_on h
    rw [show destLeased s t (va48 (getG t a)) 256 = none from hl, show destCause s t (va48 (getG t a)) 256 = none from hc,
      show (getCp s t.cl t.task.pid).inbox.find? (msgMatches tg ((getG t b).toNat % 2 ^ 16)) = none from
        List.find?_eq_none.mpr fun m h => by rw [hm m h]; exact Bool.false_ne_true] at hx
    exact splitsFrom_of_implicitSplit hx rfl (fun e => absurd e (by decide))
  · have hx := dqrecv_on h
    have hbad : ¬ dqBad (getG t b) (dieOf t.cl) = true := fun e => by
      rcases (dqBad_iff _ _).mp e with e | e | e
      · exact e h1
      · exact absurd h2 (Nat.not_lt.mpr e)
      · exact h3 e
    rw [show destLeased s t (va48 (getG t a)) 256 = none from hl] at hx
    dsimp only at hx
    rw [if_neg hbad, show (partDies s t.task.pid).contains (dqDie (getG t b)) = true from h4, Bool.not_true,
      if_neg Bool.false_ne_true, show destCause s t (va48 (getG t a)) 256 = none from hc] at hx
    dsimp only at hx
    refine ⟨fun hq => ?_, fun n bs rest hq => ⟨fun hn => ?_, fun hn hlen => ?_⟩⟩
    all_goals rw [show (tabGet (getDp s (dieOf t.cl) t.task.pid).dqIn (dqDie (getG t b))).getD [] = _ from hq] at hx
    · exact splitsFrom_of_implicitSplit hx rfl (fun e => absurd e (by decide))
    all_goals
      have hseq : dqSeq (getG t b) = w / 2 ^ 16 := by
        show w / 2 ^ 16 % 2 ^ 16 = w / 2 ^ 16
        omega
      dsimp only at hx
      rw [hseq] at hx
    · rw [if_pos hn] at hx
      exact raises_of_raise .sequence _ hx
    · rw [if_neg (not_not.mpr hn)] at hx
      refine receive_spec h.1 hx rfl rfl rfl rfl hlen fun s' _ hs' => ?_
      have hd : getDp s' (dieOf t.cl) t.task.pid = getDp (updDp s (dieOf t.cl) t.task.pid (fun k => { k with
          dqIn := tabSet k.dqIn (dqDie (getG t b)) rest
          dqRx := tabSet k.dqRx (dqDie (getG t b)) (((tabGet k.dqRx (dqDie (getG t b))).getD 0 + 1) % 2 ^ 16) })) (dieOf t.cl) t.task.pid := by
        rw [getDp, hs']
        rfl
      rw [show getDp s' (dieOf t.cl) p = _ from hd, getDp_updDp_same]
      show (tabGet (tabSet _ (dqDie (getG t b)) rest) (dqDie (getG t b))).getD [] = rest
      rw [tabGet_tabSet_same]
      rfl



/-! ### FENCE and WHISK (R378, R423) -/

/-- The fence of a strand behind FENCE. -/
def fenced (s : State) (t : Strand) (kind scope : Nat) : List Dep :=
  t.fence.filter (fun d => s.ops.any (fun o => o.id == d.id) || s.egress.any (fun e => e.op == d.id))
    ++ fenceDeps s t.task.id kind scope

theorem fence_on {g : Guard} {kind : BitVec 2} {scope : BitVec 3} {s : State} {t : Strand} (h : Ready s t (.fence g kind scope) g) :
    exec (.fence g kind scope) s = .next (putStrand s (advance { t with fence := fenced s t kind.toNat scope.toNat })) := by
  simp only [exec]
  exact issue_on _ _ h

/-- FENCE of these kinds holds no read of an operation that reads nothing (R378). -/
def fenceReads (k : OpKind) : Bool := match k with
  | .fst | .pgalloc | .pgfree | .launch | .msend | .dqsend => false
  | _ => true

theorem fenceReads_of_not_mem {k : OpKind} (h : k ∉ [OpKind.fst, .pgalloc, .pgfree, .launch, .msend, .dqsend]) : fenceReads k = true := by
  revert h
  cases k <;> decide

theorem mem_fenceDeps {s : State} {task kind scope : Nat} {d : Dep} :
    d ∈ fenceDeps s task kind scope ↔
      (∃ o ∈ s.ops, o.task = task ∧ (decide (2 ≤ kind) && (kind % 2 == 1 || fenceReads o.kind) || kind % 2 == 1) = true
        ∧ ⟨o.id, decide (2 ≤ kind) && (kind % 2 == 1 || fenceReads o.kind), kind % 2 == 1, decide (3 ≤ scope)⟩ = d)
      ∨ (kind % 2 = 1 ∧ 3 ≤ scope ∧ ∃ e ∈ s.egress, e.task = task ∧ (∀ o ∈ s.ops, o.id ≠ e.op)
        ∧ ⟨e.op, decide (2 ≤ kind), true, true⟩ = d) := by
  unfold fenceDeps
  rw [List.mem_append]
  refine or_congr ?_ ?_
  · rw [List.mem_filterMap]
    constructor
    · rintro ⟨o, ho, hd⟩
      obtain ⟨ho, ht⟩ := List.mem_filter.mp ho
      obtain ⟨hc, hd⟩ := Option.ite_none_right_eq_some.mp hd
      exact ⟨o, ho, by simpa using ht, hc, Option.some.inj hd⟩
    · rintro ⟨o, ho, ht, hc, hd⟩
      exact ⟨o, List.mem_filter.mpr ⟨ho, by simpa using ht⟩, Option.ite_none_right_eq_some.mpr ⟨hc, congrArg some hd⟩⟩
  · by_cases hc : kind % 2 = 1 ∧ 3 ≤ scope
    · obtain ⟨h1, h2⟩ := hc
      simp [h1, h2, List.mem_map, List.mem_filter, and_assoc]
    · rw [if_neg (by simpa using hc)]
      exact iff_of_false List.not_mem_nil fun ⟨h1, h2, _⟩ => hc ⟨h1, h2⟩

/-- A dependence on what is still on its way. -/
theorem depsMet_pending {s : State} {o : Op} {d : Dep} {rd wr : Bool} (hd : d ∈ o.deps)
    (hp : (∃ q ∈ s.ops, q.id = d.id) ∨ (d.home = true ∧ d.wr = true ∧ ∃ e ∈ s.egress, e.op = d.id))
    (h : (rd = true ∧ d.rd = true) ∨ (wr = true ∧ d.wr = true)) : depsMet s o rd wr = false := by
  have hx : (s.ops.any (fun q => q.id == d.id) || (d.home && d.wr && s.egress.any (fun e => e.op == d.id))) = true := by
    rcases hp with ⟨q, hq, he⟩ | ⟨h1, h2, e, hm, he⟩
    · rw [List.any_eq_true.mpr ⟨q, hq, by rw [he]; exact beq_self_eq_true _⟩, Bool.true_or]
    · rw [h1, h2, List.any_eq_true.mpr ⟨e, hm, by rw [he]; exact beq_self_eq_true _⟩, Bool.true_and, Bool.true_and, Bool.or_true]
  refine List.all_eq_false.mpr ⟨d, hd, ?_⟩
  dsimp only
  rw [hx]
  rcases h with ⟨h1, h2⟩ | ⟨h1, h2⟩ <;> simp [h1, h2]

theorem depsMet_gone {s : State} {o : Op} (rd wr : Bool)
    (h : ∀ d ∈ o.deps, (∀ q ∈ s.ops, q.id ≠ d.id) ∧ ∀ e ∈ s.egress, e.op ≠ d.id) : depsMet s o rd wr = true := by
  refine List.all_eq_true.mpr fun d hd => ?_
  obtain ⟨h1, h2⟩ := h d hd
  have hq : s.ops.any (fun q => q.id == d.id) = false := List.any_eq_false.mpr fun q hq => by simpa using h1 q hq
  have he : s.egress.any (fun e => e.op == d.id) = false := List.any_eq_false.mpr fun e hm => by simpa using h2 e hm
  dsimp only
  rw [hq, he, Bool.and_false, Bool.or_false, Bool.and_false, Bool.and_false]
  rfl

theorem opReady_deps {s : State} {o : Op} (h : depsMet s o (unitReads o.kind) (unitWrites o.kind) = false) : opReady s o = false := by
  rw [opReady, h, Bool.and_false]

theorem unitReads_of_ne {k : OpKind} (h : k ≠ .fst) : unitReads k = true := by
  unfold unitReads
  split
  · exact absurd rfl h
  · rfl

theorem unitWrites_of_ne {k : OpKind} (h : k ≠ .fld) : unitWrites k = true := by
  unfold unitWrites
  split
  · exact absurd rfl h
  · rfl

/-- An operation held by a fence holds the later ones of its unit back. -/
theorem unitHeld_of_held {s : State} {mate : Op → Bool} {q o : Op} (h : HeldByFence s q) (hm : mate q = true) (hlt : q.id < o.id) :
    unitHeld s mate o = true := by
  obtain ⟨hq, h1, h2, h3, h4⟩ := h
  refine List.any_eq_true.mpr ⟨q, hq, ?_⟩
  simp only [hm, decide_eq_true hlt, h1, h2, h3, h4, Bool.not_false, Option.isNone_none, beq_self_eq_true, Bool.and_true]

theorem whisk_on {g : Guard} {tag : BitVec 16} {s : State} {t : Strand} (h : Ready s t (.whisk g tag) g)
    (hp : permitted s t (.whisk g tag) = true) :
    exec (.whisk g tag) s = .next (
      if bit (cpCtl s t.cl t.task.pid 0x1C1) 0 then
        { putStrand s (advance t) with
          agenda := s.agenda ++ [(.whiskFire, { cl := t.cl, pid := t.task.pid, n := 0, unit := tag.toNat })] }
      else putStrand s (advance t)) := by
  have hc : ¬ (!bit (cpCtl s t.cl t.task.pid 0x1C1) 1 && !isSup t) = true := by
    rw [← Bool.not_or, show (bit (cpCtl s t.cl t.task.pid 0x1C1) 1 || isSup t) = true from hp]
    exact Bool.false_ne_true
  simp only [exec]
  unfold execWhisk
  rw [h.2.1]
  dsimp only
  rw [if_neg hc]
  exact issue_on _ _ h

theorem fences {g : Guard} {kind : BitVec 2} {scope : BitVec 3} {s : State} {t : Strand} (h : Ready s t (.fence g kind scope) g) :
    ∃ t', Completes (.fence g kind scope) s t' ∧ OnlyMoves t t' ∧ t'.fence = fenced s t kind.toNat scope.toNat :=
  ⟨_, ⟨fence_on h, fun _ => rfl⟩, onlyMoves_advance { t with fence := fenced s t kind.toNat scope.toNat }, rfl⟩

/-- Settles O39: the fence of R378 by what it lists, the operations it holds by their dependences, and WHISK. -/
theorem fenceWhisk : Obligations.FenceWhisk := by
  intro g kind scope tag s t
  refine ⟨fun h => ?_, fun _ _ _ _ _ => rfl, fun o d hd hp => ⟨fun h1 h2 => ?_, fun h1 h2 => ?_, fun h1 => ?_⟩,
    fun o rd wr h => depsMet_gone rd wr h, fun q o hq hlt => ⟨fun hw hcl => ?_, fun hk hb => ?_⟩, fun h hp => ?_⟩
  · obtain ⟨t', hc, hm, hf⟩ := fences h
    refine ⟨t', hc, hm, ?_⟩
    have hmem : ∀ d, d ∈ t'.fence ↔ (d ∈ t.fence ∧ ((∃ o ∈ s.ops, o.id = d.id) ∨ ∃ e ∈ s.egress, e.op = d.id))
        ∨ d ∈ fenceDeps s t.task.id kind.toNat scope.toNat := fun d => by
      rw [hf, fenced, List.mem_append, List.mem_filter, Bool.or_eq_true, List.any_eq_true, List.any_eq_true]
      simp only [beq_iff_eq]
    have hlt : kind.toNat < 4 := kind.isLt
    intro far
    refine ⟨fun d hd => ?_, fun d hd hl => (hmem d).mpr (.inl ⟨hd, hl⟩), fun hk o ho ht => ?_, fun hk hfar e he ht hn => ?_,
      fun hk o ho ht hkind => ?_⟩
    · rcases (hmem d).mp hd with ⟨hd, -⟩ | hd
      · exact .inl hd
      · rcases mem_fenceDeps.mp hd with ⟨o, ho, ht, -, rfl⟩ | ⟨h1, h2, e, he, ht, -, rfl⟩
        · exact .inr (.inl ⟨o, ho, rfl, ht⟩)
        · exact .inr (.inr ⟨h1, decide_eq_true h2, e, he, rfl, ht⟩)
    · refine (hmem _).mpr (.inr (mem_fenceDeps.mpr (.inl ⟨o, ho, ht, ?_, ?_⟩)))
      · rw [show (kind.toNat % 2 == 1) = true from beq_iff_eq.mpr hk, Bool.or_true]
      · rw [show (kind.toNat % 2 == 1) = true from beq_iff_eq.mpr hk, Bool.true_or, Bool.and_true,
          show decide (2 ≤ kind.toNat) = decide (kind.toNat = 3) from decide_eq_decide.mpr (by omega)]
    · refine (hmem _).mpr (.inr (mem_fenceDeps.mpr (.inr ⟨hk, of_decide_eq_true hfar, e, he, ht, hn, ?_⟩)))
      rw [show decide (2 ≤ kind.toNat) = decide (kind.toNat = 3) from decide_eq_decide.mpr (by omega)]
    · refine (hmem _).mpr (.inr (mem_fenceDeps.mpr (.inl ⟨o, ho, ht, ?_, ?_⟩)))
      · rw [hk, fenceReads_of_not_mem hkind]
        rfl
      · rw [hk, fenceReads_of_not_mem hkind]
        rfl
  · exact opReady_deps (depsMet_pending hd hp (.inl ⟨unitReads_of_ne h2, h1⟩))
  · exact opReady_deps (depsMet_pending hd hp (.inr ⟨unitWrites_of_ne h2, h1⟩))
  · rw [mayComplete, depsMet_pending hd hp (.inr ⟨rfl, h1⟩), Bool.and_false]
  · have hu : unitHeld s (fun q => q.cl == o.cl && onWalker q.kind) o = true :=
      unitHeld_of_held hq (by rw [hcl, hw, beq_self_eq_true, Bool.and_true]) hlt
    rw [walkerReady, hu, Bool.not_true, Bool.and_false, Bool.false_and]
  · have hu : unitHeld s (fun q => (q.kind == .attd || q.kind == .lfilt) && bduOf s q == bduOf s o) o = true := by
      refine unitHeld_of_held hq ?_ hlt
      rw [hb, beq_self_eq_true, Bool.and_true]
      rcases hk with hk | hk <;> rw [hk] <;> rfl
    rw [bduReady, hu, Bool.not_true, Bool.and_false]
  · have hx := whisk_on h hp
    have hb : (cpCtl s t.cl t.task.pid 0x1C1).getLsbD 0 = bit (cpCtl s t.cl t.task.pid 0x1C1) 0 := rfl
    rw [hb]
    cases hc : bit (cpCtl s t.cl t.task.pid 0x1C1) 0 with
    | true =>
      rw [hc, if_pos rfl] at hx
      exact ⟨_, _, ⟨hx, putStrand_lands s _ _ rfl⟩, onlyMoves_advance t, fun _ => rfl, rfl⟩
    | false =>
      rw [hc, if_neg Bool.false_ne_true] at hx
      exact ⟨_, _, ⟨hx, putStrand_lands s _ _ rfl⟩, onlyMoves_advance t, fun _ => rfl, (List.append_nil _).symm⟩



/-! ### What performing writes, and the end of a segment, leave alone -/

/-- Performing writes changes memory, its full-empty bits, its errors, the buffers and what waits for a word, and nothing else. -/
def WritesOnly (s s' : State) : Prop :=
  s' = { s with mem := s'.mem, fe := s'.fe, poison := s'.poison, soft := s'.soft, written := s'.written, conts := s'.conts
                egress := s'.egress, repl := s'.repl }

theorem WritesOnly.refl (s : State) : WritesOnly s s := rfl

theorem WritesOnly.trans {a b c : State} (h : WritesOnly a b) (k : WritesOnly b c) : WritesOnly a c := by
  unfold WritesOnly at *
  rw [k, h]

theorem writesOnly_foldl {α : Type} (f : State → α → State) (hf : ∀ s x, WritesOnly s (f s x)) :
    ∀ (l : List α) (s : State), WritesOnly s (l.foldl f s)
  | [], s => .refl s
  | x :: l, s => (hf s x).trans (writesOnly_foldl f hf l (f s x))

theorem writesOnly_wrMem (s : State) (a : Nat) (bs : List Byte) : WritesOnly s (wrMem s a bs) := rfl

theorem writesOnly_perform (s : State) (a : Nat) (bs : List Byte) (full : Bool) : WritesOnly s (perform s a bs full) := by
  have hw : WritesOnly s { wrMem s a bs with written := (banksOf a bs.length).foldl setAdd s.written } := rfl
  unfold perform
  dsimp only
  split
  · exact hw.trans (writesOnly_foldl _ (fun s i => (rfl : WritesOnly s (feFill s _))) _ _)
  · exact hw

theorem writesOnly_drainMarked : ∀ (l : List (EgWrite × Bool)) (kept : List EgWrite) (s : State), WritesOnly s (drainMarked l kept s)
  | [], _, _ => rfl
  | (e, m) :: l, kept, s => by
    unfold drainMarked
    split
    · exact (writesOnly_perform s e.addr e.bytes e.full).trans (writesOnly_drainMarked l kept _)
    · exact writesOnly_drainMarked l _ s

theorem writesOnly_drainOut (s : State) (want : EgWrite → Bool) : WritesOnly s (drainOut s want) := writesOnly_drainMarked ..

theorem writesOnly_applyRepl (s : State) (w : ReplWrite) (c : Nat) : WritesOnly s (applyRepl s w c) := by
  unfold applyRepl
  split
  · exact writesOnly_perform ..
  · exact .refl s

theorem writesOnly_settleRepl (s : State) (want : Nat → Nat → Bool) : WritesOnly s (settleRepl s want) := by
  refine WritesOnly.trans (writesOnly_foldl _ (fun s w => writesOnly_foldl _ (fun s c => writesOnly_applyRepl s w c)
    (w.left.filter (want w.pid)) s) (s.repl.filter (fun w => w.seqd && w.left.any (want w.pid))) s) ?_
  rfl

theorem writesOnly_relDrain (s : State) (d : Nat) : WritesOnly s (relDrain s d) :=
  (writesOnly_drainOut ..).trans (writesOnly_settleRepl ..)

theorem returnStorage_flights (s : State) (p fri : Nat) : (returnStorage s p fri).flights = s.flights := by
  simp only [returnStorage]
  repeat' split
  all_goals rfl

theorem invalidate_flights (s : State) (p fri : Nat) : (invalidate s p fri).flights = s.flights := rfl

theorem setRec0_flights (s : State) (p fri lo n x : Nat) : (setRec0 s p fri lo n x).flights = s.flights := by
  unfold setRec0 wr64 wrN wrMem
  rfl

theorem freeIdle_flights (s : State) (p fri : Nat) : (freeIdle s p fri).flights = s.flights := by
  rcases freeIdle_cases s p fri with he | he
  · rw [he]
  · rw [he]
    rw [invalidate_flights, setRec0_flights, returnStorage_flights]

theorem freeHeld_flights (s : State) (p : Nat) (l : List Xl) : (freeHeld s p l).flights = s.flights := by
  induction l generalizing s with
  | nil => rfl
  | cons x l ih =>
    unfold freeHeld at ih ⊢
    rw [List.foldl_cons, ih, freeIdle_flights]

theorem gangEnd_flights (s : State) (t : Strand) (b : Bool) : (gangEnd s t b).flights = s.flights := by
  unfold gangEnd
  split <;> rfl

theorem gangEnd_domains (s : State) (t : Strand) (b : Bool) :
    (getCp (gangEnd s t b) t.cl t.task.pid).domains = (getCp s t.cl t.task.pid).domains := by
  unfold gangEnd
  split
  · rfl
  · rw [getCp_updCp_same]

theorem closeSegment_domains (s : State) (t : Strand) :
    (getCp (closeSegment s t) t.cl t.task.pid).domains = (getCp s t.cl t.task.pid).domains := by
  obtain ⟨-, -, -, h4, -⟩ := freeHeld_freesOnly
    (updCp (closeBatch s t s.cycle).2 t.cl t.task.pid (fun k => clearReq (releaseFrom k t.seg.sid (tickNow s + 1)) t.lane)) t.task.pid t.seg.xl
  have hc : getCp (closeSegment s t) t.cl t.task.pid = getCp (updCp (closeBatch s t s.cycle).2 t.cl t.task.pid
      (fun k => clearReq (releaseFrom k t.seg.sid (tickNow s + 1)) t.lane)) t.cl t.task.pid := by
    unfold getCp
    exact congrArg (fun l => (tabGet l _).getD {}) h4
  rw [hc, getCp_updCp_same]
  show (getCp (closeBatch s t s.cycle).2 t.cl t.task.pid).domains = _
  unfold closeBatch
  dsimp only
  rw [getCp_updCp_same]

theorem closeSegment_flights (s : State) (t : Strand) : (closeSegment s t).flights = s.flights := freeHeld_flights ..

theorem writeCont_flights (s : State) (c : Cont) : (writeCont s c).flights = s.flights ∧ (writeCont s c).clParts = s.clParts := by
  unfold writeCont
  split <;> exact ⟨rfl, rfl⟩

/-- A split keeps the domains of its cluster and what is on its way to domains. -/
theorem splitNow_domains (s : State) (t : Strand) (c : Cont) :
    (splitNow s t c).flights = s.flights
      ∧ (getCp (splitNow s t c) t.cl t.task.pid).domains = (getCp s t.cl t.task.pid).domains := by
  obtain ⟨k, hk⟩ := addCont_eq (dropDead (closeSegment (gangEnd s t false) t) t) c
  obtain ⟨h1, h2⟩ := writeCont_flights { dropDead (closeSegment (gangEnd s t false) t) t with
    conts := (dropDead (closeSegment (gangEnd s t false) t) t).conts ++ [{ c with hbm := k }] } { c with hbm := k }
  have he : splitNow s t c = _ := hk
  constructor
  · rw [he, h1]
    exact (closeSegment_flights ..).trans (gangEnd_flights ..)
  · have hc : getCp (splitNow s t c) t.cl t.task.pid = getCp (closeSegment (gangEnd s t false) t) t.cl t.task.pid := by
      rw [he, getCp, h2]
      rfl
    rw [hc, closeSegment_domains, gangEnd_domains]

theorem implicitSplit_domains (s : State) (t : Strand) (event : Nat) (evarg : Word) (a : Nat) :
    (implicitSplit s t event evarg a).flights = s.flights
      ∧ (getCp (implicitSplit s t event evarg a) t.cl t.task.pid).domains = (getCp s t.cl t.task.pid).domains := by
  cases h : settled s t with
  | true =>
    rw [implicitSplit_settled _ _ _ h]
    exact splitNow_domains ..
  | false =>
    rw [implicitSplit_waits _ _ _ h]
    exact ⟨rfl, rfl⟩

/-- The same split where the instruction goes on with what leaves strands, continuations and operations alone. -/
theorem splitsFrom_of_keeps {i : Instr} {s s0 s' : State} {t : Strand} {event : Nat} {evarg : Word} {a : Nat}
    (hx : exec i s = .next s') (hc : s0.cycle = s.cycle) (he : event ≠ 2)
    (h1 : s'.strands = (implicitSplit s0 t event evarg a).strands) (h2 : s'.conts = (implicitSplit s0 t event evarg a).conts)
    (h3 : s'.ops = (implicitSplit s0 t event evarg a).ops) (h4 : s'.parked = (implicitSplit s0 t event evarg a).parked) :
    SplitsFrom i s s0 t event evarg := by
  refine ⟨fun h => ?_, fun h => ?_⟩
  · rw [← settled_congr hc] at h
    obtain ⟨k, ⟨l1, l2, l3, l4⟩, -⟩ := left_splitNow s0 t _ (carries_implicitCont s0 t (relCycle t s0) event evarg a false)
    rw [← implicitSplit_settled _ _ _ h] at l1 l2 l3
    refine ⟨s', _, hx, ⟨by rw [h1]; exact l1, by rw [h2]; exact l2, by rw [h3]; exact l3, l4⟩, atItself_implicitCont s0 t .., ?_⟩
    rw [implicitCont_other _ _ _ _ _ _ he]
    exact ⟨rfl, rfl⟩
  · rw [← settled_congr hc] at h
    obtain ⟨k1, k2⟩ := stopStrand_stops s0 t (.split (relCycle t s0) event evarg a false)
    rw [← implicitSplit_waits _ _ _ h] at k1 k2
    refine ⟨s', { t with ending := some (.split (relCycle t s0) event evarg a false) }, hx, by rw [h1]; exact k1, by rw [h4]; exact k2, ⟨rfl, rfl, rfl, rfl, rfl, rfl, rfl, rfl, rfl, rfl⟩,
      rfl, rfl, rfl, a, ?_⟩
    simp only [relCycle, hc]



/-! ### BAR and PHASE (R381, R382) -/

/-- The release that a wider barrier makes. -/
def barFrom (s : State) (t : Strand) (sel : Nat) : State :=
  if selKind sel = 0 then s
  else if selKind sel = 1 then settleRepl s (fun _ c => dieOf c == dieOf t.cl) else relDrain s (dieOf t.cl)

/-- A barrier of a configured domain with its cluster in it. -/
def barArrives (s : State) (t : Strand) (ph : Bool) (d : R6) (sel : Nat) : State :=
  let p := t.task.pid
  let inst := domInst sel t.cl
  let dm := getDom s p sel inst
  let s := barFrom s t sel
  if selKind sel = 0 ∧ dm.arr + 1 = domTot s p sel inst dm.word ∧ !(dm.phase || ph) then
    let s := domArrive s p sel inst ph
    putStrand s (advance (setG s.cycle 2 d (BitVec.ofNat 64 (getDom s p sel inst).gen) t))
  else
    let s := implicitSplit s t 4 (domEvarg sel dm.gen ph) 0
    if selKind sel = 0 then domArrive s p sel inst ph
    else { s with flights := s.flights ++ [⟨0, p, sel, inst, t.cl, ph, dm.gen⟩] }

section
variable {i : Instr} {g : Guard} {ph : Bool} {d a : R6} {s : State} {t : Strand}

theorem barOp_resumed {ev : Word} (hx : exec i s = barOp i ph g d a s) (h : Ready s t i g) (hr : t.resumed = some (4, ev)) :
    exec i s = .next (putStrand s (advance (setG s.cycle 2 d
      (BitVec.ofNat 64 (getDom s t.task.pid (ev.toNat % 64) (domInst (ev.toNat % 64) t.cl)).gen) { t with resumed := none }))) := by
  rw [hx, barOp, issue_on _ _ h]
  simp only [hr]

theorem barOp_on (hx : exec i s = barOp i ph g d a s) (h : Ready s t i g) (hr : t.resumed = none) :
    let sel := (getG t a).toNat % 64
    let dm := getDom s t.task.pid sel (domInst sel t.cl)
    exec i s = .next (
      if !selOk (getG t a) then raise i .reservedField s t 0
      else if memPer dm.word = 0 then putStrand s (advance (setG s.cycle 2 d (errW 2) t))
      else if !(domMembers sel (domInst sel t.cl) dm.word).contains t.cl then putStrand s (advance (setG s.cycle 2 d (errW 3) t))
      else barArrives s t ph d sel) := by
  rw [hx, barOp, issue_on _ _ h]
  simp only [hr]
  rfl

theorem selOk_eq (w : Word) : selOk w = decide (w.toNat < 64) := by
  unfold selOk
  rw [Bool.eq_iff_iff, beq_iff_eq, decide_eq_true_iff]
  omega

/-- A counted arrival at a cluster's domain, or one of its codes. -/
theorem barOp_arrives (hx : exec i s = barOp i ph g d a s) (h : Ready s t i g) (hr : t.resumed = none) (hs : (getG t a).toNat < 64) :
    let sel := (getG t a).toNat % 64
    let dm := getDom s t.task.pid sel (domInst sel t.cl)
    (memPer dm.word = 0 → exec i s = .next (putStrand s (advance (setG s.cycle 2 d (errW 2) t))))
    ∧ (memPer dm.word ≠ 0 → (domMembers sel (domInst sel t.cl) dm.word).contains t.cl = false →
      exec i s = .next (putStrand s (advance (setG s.cycle 2 d (errW 3) t))))
    ∧ (memPer dm.word ≠ 0 → (domMembers sel (domInst sel t.cl) dm.word).contains t.cl = true →
      exec i s = .next (barArrives s t ph d sel)) := by
  intro sel dm
  have hon := barOp_on hx h hr
  have hok : ¬ (!selOk (getG t a)) = true := by rw [selOk_eq, decide_eq_true hs]; exact Bool.false_ne_true
  dsimp only at hon
  rw [if_neg hok] at hon
  refine ⟨fun h0 => ?_, fun h0 hm => ?_, fun h0 hm => ?_⟩
  · rw [if_pos h0] at hon
    exact hon
  all_goals rw [if_neg h0, show (domMembers _ _ _).contains t.cl = _ from hm] at hon
  · rw [Bool.not_false, if_pos rfl] at hon
    exact hon
  · rw [Bool.not_true, if_neg Bool.false_ne_true] at hon
    exact hon

end

/-! #### The domain of one cluster -/

section
variable {s : State} {p sel inst : Nat}

theorem getDom_cluster (hk : sel % 4 = 0) : getDom s p sel inst = (tabGet (getCp s inst p).domains (selId sel)).getD {} := by
  have h0 : selKind sel = 0 := hk
  simp only [getDom, h0, if_true, Nat.zero_lt_two]

theorem getDom_congr {s' : State} (hk : sel % 4 = 0) (h : (getCp s' inst p).domains = (getCp s inst p).domains) :
    getDom s' p sel inst = getDom s p sel inst := by
  rw [getDom_cluster hk, getDom_cluster hk, h]

theorem getDom_putDom (hk : sel % 4 = 0) (d : Domain) : getDom (putDom s p sel inst d) p sel inst = d := by
  have h0 : selKind sel = 0 := hk
  rw [getDom_cluster hk, putDom, if_pos h0, getCp_updCp_same, tabGet_tabSet_same]
  rfl

theorem domTot_cluster (hk : sel % 4 = 0) (s' : State) (w : Word) : domTot s' p sel inst w = domTot s p sel inst w := by
  have h0 : ¬ selKind sel = 3 := by rw [show selKind sel = 0 from hk]; decide
  simp only [domTot, domSize, if_neg h0]

theorem putDom_keeps (hk : sel % 4 = 0) (d : Domain) : (putDom s p sel inst d).cur = s.cur ∧ (putDom s p sel inst d).cycle = s.cycle
    ∧ (putDom s p sel inst d).strands = s.strands ∧ (putDom s p sel inst d).conts = s.conts ∧ (putDom s p sel inst d).ops = s.ops
    ∧ (putDom s p sel inst d).parked = s.parked ∧ (putDom s p sel inst d).mem = s.mem := by
  have h0 : selKind sel = 0 := hk
  rw [putDom, if_pos h0]
  exact ⟨rfl, rfl, rfl, rfl, rfl, rfl, rfl⟩

/-- How one arrival is counted. -/
theorem countArrivals_one (tot : Nat) (ph : Bool) (d : Domain) :
    (d.sweep ≠ 0 → countArrivals tot [ph] d [] = ({ d with later := d.later ++ [ph] }, []))
    ∧ (d.sweep = 0 → d.arr + 1 < tot → countArrivals tot [ph] d [] = ({ d with arr := d.arr + 1, phase := d.phase || ph }, []))
    ∧ (d.sweep = 0 → d.arr + 1 = tot → (d.phase || ph) = true → countArrivals tot [ph] d []
        = ({ d with arr := d.arr + 1, phase := true, sweep := 1, read := [], last := none }, []))
    ∧ (d.sweep = 0 → d.arr + 1 = tot → (d.phase || ph) = false → countArrivals tot [ph] d []
        = ({ d with phase := false, gen := (d.gen + 1) % 2 ^ 16, arr := 0 }, [(d.gen + 1) % 2 ^ 16])) := by
  refine ⟨fun h => ?_, fun h h1 => ?_, fun h h1 h2 => ?_, fun h h1 h2 => ?_⟩ <;> simp only [countArrivals]
  · rw [if_pos h]
  · rw [if_neg (not_not.mpr h), if_pos h1]
  · rw [if_neg (not_not.mpr h), if_neg (by omega), if_pos h2, h2]
  · rw [if_neg (not_not.mpr h), if_neg (by omega), if_neg (by rw [h2]; exact Bool.false_ne_true), h2]
    rfl

/-- An arrival that completes nothing changes the domain alone. -/
theorem domArrive_counts {d' : Domain} (ph : Bool)
    (h : countArrivals (domTot s p sel inst (getDom s p sel inst).word) [ph] (getDom s p sel inst) [] = (d', [])) :
    domArrive s p sel inst ph = putDom s p sel inst d' := by
  unfold domArrive
  dsimp only
  rw [h]
  rfl

theorem domArrive_completes {d' : Domain} {gen : Nat} (ph : Bool) (hk : sel % 4 = 0)
    (h : countArrivals (domTot s p sel inst (getDom s p sel inst).word) [ph] (getDom s p sel inst) [] = (d', [gen])) :
    domArrive s p sel inst ph = fireDomain (putDom s p sel inst d') p sel inst := by
  unfold domArrive
  dsimp only
  rw [h]
  exact if_pos hk

end

theorem domEvarg_eq (sel gen : Nat) (ph : Bool) :
    domEvarg sel gen ph = BitVec.ofNat 64 (sel + (if ph then 2 ^ 8 else 0) + 2 ^ 16 * gen) := by
  cases ph <;> rfl

/-- BAR of a cluster's own domain that completes it. -/
theorem barArrives_completes {s : State} {t : Strand} {d : R6} {sel : Nat} (hk : sel % 4 = 0)
    (h1 : (getDom s t.task.pid sel (domInst sel t.cl)).phase = false) (h2 : (getDom s t.task.pid sel (domInst sel t.cl)).sweep = 0)
    (h3 : (getDom s t.task.pid sel (domInst sel t.cl)).arr + 1
      = domTot s t.task.pid sel (domInst sel t.cl) (getDom s t.task.pid sel (domInst sel t.cl)).word) :
    let dm := getDom s t.task.pid sel (domInst sel t.cl)
    let s1 := fireDomain (putDom s t.task.pid sel (domInst sel t.cl) { dm with phase := false, gen := (dm.gen + 1) % 2 ^ 16, arr := 0 })
      t.task.pid sel (domInst sel t.cl)
    barArrives s t false d sel = putStrand s1 (advance (setG s1.cycle 2 d (BitVec.ofNat 64 ((dm.gen + 1) % 2 ^ 16)) t)) := by
  intro dm s1
  have h0 : selKind sel = 0 := hk
  have hs1 : domArrive s t.task.pid sel (domInst sel t.cl) false = s1 :=
    domArrive_completes false hk ((countArrivals_one _ false dm).2.2.2 h2 h3 (by rw [h1]; rfl))
  have hd : getDom s1 t.task.pid sel (domInst sel t.cl) = { dm with phase := false, gen := (dm.gen + 1) % 2 ^ 16, arr := 0 } :=
    (getDom_congr hk rfl).trans (getDom_putDom hk _)
  unfold barArrives
  dsimp only
  rw [show barFrom s t sel = s from if_pos h0, if_pos ⟨h0, h3, by rw [h1]; rfl⟩, hs1, hd]

/-- A barrier of a cluster's own domain that does not complete it splits, and the domain counts its arrival. -/
theorem barArrives_counts {s : State} {t : Strand} {ph : Bool} {d : R6} {sel : Nat} {d' : Domain} (hk : sel % 4 = 0)
    (hn : ¬ ((getDom s t.task.pid sel (domInst sel t.cl)).arr + 1
      = domTot s t.task.pid sel (domInst sel t.cl) (getDom s t.task.pid sel (domInst sel t.cl)).word
      ∧ ((getDom s t.task.pid sel (domInst sel t.cl)).phase || ph) = false))
    (h : countArrivals (domTot s t.task.pid sel (domInst sel t.cl) (getDom s t.task.pid sel (domInst sel t.cl)).word) [ph]
      (getDom s t.task.pid sel (domInst sel t.cl)) [] = (d', [])) :
    barArrives s t ph d sel = putDom (implicitSplit s t 4 (domEvarg sel (getDom s t.task.pid sel (domInst sel t.cl)).gen ph) 0)
      t.task.pid sel (domInst sel t.cl) d' := by
  have h0 : selKind sel = 0 := hk
  have hinst : domInst sel t.cl = t.cl := if_pos h0
  unfold barArrives
  dsimp only
  rw [show barFrom s t sel = s from if_pos h0, if_neg (fun e => hn ⟨e.2.1, by simpa using e.2.2⟩), if_pos h0]
  refine domArrive_counts ph ?_
  have hg : getDom (implicitSplit s t 4 (domEvarg sel (getDom s t.task.pid sel (domInst sel t.cl)).gen ph) 0) t.task.pid sel
      (domInst sel t.cl) = getDom s t.task.pid sel (domInst sel t.cl) :=
    getDom_congr hk (by rw [hinst]; exact (implicitSplit_domains s t ..).2)
  rw [hg, domTot_cluster (s := s) hk]
  exact h

/-- A wider barrier releases, splits, and travels to its home. -/
theorem barArrives_travels {s : State} {t : Strand} {ph : Bool} {d : R6} {sel : Nat} (hk : sel % 4 ≠ 0) :
    let dm := getDom s t.task.pid sel (domInst sel t.cl)
    let s1 := implicitSplit (barFrom s t sel) t 4 (domEvarg sel dm.gen ph) 0
    barArrives s t ph d sel = { s1 with flights := s1.flights ++ [⟨0, t.task.pid, sel, domInst sel t.cl, t.cl, ph, dm.gen⟩] } := by
  have h0 : ¬ selKind sel = 0 := hk
  unfold barArrives
  dsimp only
  rw [if_neg (fun e => h0 e.1), if_neg h0]

theorem errW_two : errW 2 = BitVec.ofNat 64 (2 ^ 63 + 2) := by decide

theorem errW_three : errW 3 = BitVec.ofNat 64 (2 ^ 63 + 3) := by decide

theorem barFrom_keeps (s : State) (t : Strand) (sel : Nat) : WritesOnly s (barFrom s t sel) := by
  unfold barFrom
  split_ifs
  · exact .refl s
  · exact writesOnly_settleRepl ..
  · exact writesOnly_relDrain ..

/-- The continuations that a cluster's domain fires. -/
theorem fireDomain_conts {s : State} {p sel cl : Nat} (hk : sel % 4 = 0) :
    (fireDomain s p sel cl).conts = s.conts.map (fun c =>
      if c.event = 4 ∧ c.task.pid = p ∧ c.cl = cl ∧ c.evarg.toNat % 64 = sel
        ∧ c.evarg.toNat / 2 ^ 16 % 2 ^ 16 ≠ (getDom s p sel cl).gen then { c with fired := true } else c) := by
  have hdi : domInst sel cl = cl := if_pos hk
  unfold fireDomain fireConts
  dsimp only
  rw [hdi]
  refine List.map_congr_left fun c _ => ite_congr (propext ?_) (fun _ => rfl) fun _ => rfl
  simp only [Bool.and_eq_true, beq_iff_eq, bne_iff_ne, and_assoc]

theorem fireDomain_keeps (s : State) (p sel cl : Nat) : (fireDomain s p sel cl).cur = s.cur ∧ (fireDomain s p sel cl).mem = s.mem
    ∧ (fireDomain s p sel cl).clParts = s.clParts := ⟨rfl, rfl, rfl⟩

section
variable {i : Instr} {g : Guard} {ph : Bool} {d a : R6} {s : State} {t : Strand}

theorem splits_of_barArrives {d' : Domain} {sel : Nat} (hk : sel % 4 = 0) (hx : exec i s = .next (barArrives s t ph d sel))
    (hn : ¬ ((getDom s t.task.pid sel (domInst sel t.cl)).arr + 1
      = domTot s t.task.pid sel (domInst sel t.cl) (getDom s t.task.pid sel (domInst sel t.cl)).word
      ∧ ((getDom s t.task.pid sel (domInst sel t.cl)).phase || ph) = false))
    (h : countArrivals (domTot s t.task.pid sel (domInst sel t.cl) (getDom s t.task.pid sel (domInst sel t.cl)).word) [ph]
      (getDom s t.task.pid sel (domInst sel t.cl)) [] = (d', [])) :
    SplitsHere i s t 4 (BitVec.ofNat 64 (sel + (if ph then 2 ^ 8 else 0) + 2 ^ 16 * (getDom s t.task.pid sel (domInst sel t.cl)).gen))
      ∧ ∃ s', exec i s = .next s' ∧ getDom s' t.task.pid sel (domInst sel t.cl) = d' := by
  rw [barArrives_counts hk hn h] at hx
  obtain ⟨-, -, k3, k4, k5, k6, -⟩ := putDom_keeps (p := t.task.pid) (inst := domInst sel t.cl)
    (s := implicitSplit s t 4 (domEvarg sel (getDom s t.task.pid sel (domInst sel t.cl)).gen ph) 0) hk d'
  rw [← domEvarg_eq]
  exact ⟨splitsFrom_of_keeps hx rfl (by decide) k3 k4 k5 k6, _, hx, getDom_putDom hk d'⟩

end

/-- Settles O40: the resumed form, the codes, and the arrival counted at the cluster or sent to the home. -/
theorem barriers : Obligations.Barriers := by
  intro g ph d a s t i hi h p sel inst dm ev marked
  have hx : exec i s = barOp i ph g d a s := by
    subst hi
    cases ph
    · rw [if_neg Bool.false_ne_true]; simp only [exec]; rfl
    · rw [if_pos rfl]; simp only [exec]; rfl
  refine ⟨fun ev hr => ⟨_, _, ⟨barOp_resumed hx h hr, putStrand_lands _ _ _ rfl⟩, fun _ => rfl, onlyG_setG ..⟩, fun hr =>
    ⟨fun hs => ?_, fun hs => ?_⟩⟩
  · have hon := barOp_on hx h hr
    dsimp only at hon
    rw [if_pos (by rw [selOk_eq, decide_eq_false (Nat.not_lt.mpr hs)]; rfl)] at hon
    exact raises_of_raise .reservedField _ hon
  obtain ⟨k1, k2, k3⟩ := barOp_arrives hx h hr hs
  refine ⟨fun h0 => ?_, fun h0 hm => ?_, fun h0 hm hk h1 h2 h3 h4 => ?_, fun h0 hm hk h2 h3 => ?_, fun h0 hm hk h2 h3 h4 => ?_,
    fun h0 hm hk h2 h3 => ?_, fun h0 hm hk => ?_⟩
  · have hon := k1 h0
    rw [errW_two] at hon
    exact ⟨_, _, ⟨hon, putStrand_lands _ _ _ rfl⟩, onlyG_setG .., fun _ => rfl⟩
  · have hon := k2 h0 hm
    rw [errW_three] at hon
    exact ⟨_, _, ⟨hon, putStrand_lands _ _ _ rfl⟩, onlyG_setG .., fun _ => rfl⟩
  · have hon := k3 h0 hm
    have hinst : inst = t.cl := if_pos hk
    rw [h3, barArrives_completes hk h1 h2 h4] at hon
    obtain ⟨c1, -, -, c4, -, -, c7⟩ := putDom_keeps (s := s) (p := t.task.pid) (inst := inst) hk
      { dm with phase := false, gen := (dm.gen + 1) % 2 ^ 16, arr := 0 }
    have hd : getDom (putDom s t.task.pid sel inst { dm with phase := false, gen := (dm.gen + 1) % 2 ^ 16, arr := 0 }) t.task.pid sel inst
        = { dm with phase := false, gen := (dm.gen + 1) % 2 ^ 16, arr := 0 } := getDom_putDom hk _
    have hf := fireDomain_conts (s := putDom s t.task.pid sel inst { dm with phase := false, gen := (dm.gen + 1) % 2 ^ 16, arr := 0 })
      (p := t.task.pid) (cl := inst) hk
    rw [hd, c4] at hf
    generalize putDom s t.task.pid sel inst { dm with phase := false, gen := (dm.gen + 1) % 2 ^ 16, arr := 0 } = S at hon hd hf c1 c7
    obtain ⟨f1, f2, f3⟩ := fireDomain_keeps S t.task.pid sel inst
    have hg : ∀ u, getDom (putStrand (fireDomain S t.task.pid sel inst) u) t.task.pid sel inst
        = { dm with phase := false, gen := (dm.gen + 1) % 2 ^ 16, arr := 0 } := fun u =>
      (getDom_congr hk (by rw [getCp, getCp, putStrand_clParts, f3])).trans hd
    refine ⟨_, _, ⟨hon, putStrand_lands _ _ _ (f1.trans c1)⟩, onlyG_setG .., fun b => ?_, ?_, ?_, ?_⟩
    · rw [putStrand_mem, f2, c7]
    · rw [show getDom _ p sel inst = _ from hg _]
    · rw [show getDom _ p sel inst = _ from hg _]
    · rw [putStrand_conts]
      refine hf.trans (List.map_congr_left fun c _ => ite_congr (propext ?_) (fun _ => rfl) fun _ => rfl)
      exact and_congr_right fun _ => and_congr_right fun _ => and_congr_left fun _ => by rw [hinst]
  · have hon := k3 h0 hm
    exact splits_of_barArrives hk hon (fun e => absurd e.1 (Nat.ne_of_lt h3)) ((countArrivals_one _ ph dm).2.1 h2 h3)
  · have hon := k3 h0 hm
    exact splits_of_barArrives hk hon (fun e => absurd h3 (Bool.eq_false_iff.mp e.2)) ((countArrivals_one _ ph dm).2.2.1 h2 h4 h3)
  · have hon := k3 h0 hm
    exact splits_of_barArrives hk hon (fun e => absurd h3 (Bool.eq_false_iff.mp e.2)) ((countArrivals_one _ ph dm).1 h2)
  · have hon := k3 h0 hm
    have hw := barFrom_keeps s t sel
    have hb : barFrom s t sel = if sel % 4 = 1 then settleRepl s (fun _ c => dieOf c == dieOf t.cl) else relDrain s (dieOf t.cl) :=
      if_neg hk
    rw [barArrives_travels hk, domEvarg_eq] at hon
    rw [← hb]
    refine ⟨splitsFrom_of_keeps hon (by rw [hw]) (by decide) rfl rfl rfl rfl, _, hon, ?_⟩
    show (implicitSplit (barFrom s t sel) t 4 _ 0).flights ++ _ = _
    rw [(implicitSplit_domains ..).1, hw]



/-! ### ATTM, VROPE and VLDB (R301-R306, R321, R323) -/

theorem nanCode_fp32 : nanCode .fp32 = 0x7FC00000 := by decide

theorem xIsNan_false {x : Xr} (h : x ≠ .nan) : xIsNan x = false := Bool.eq_false_iff.mpr fun e => h ((xIsNan_iff x).mp e)

theorem mergeW_nan {m1 m2 : Nat} (h : decodeFmt .fp32 m1 = .nan ∨ decodeFmt .fp32 m2 = .nan) :
    mergeW m1 m2 = (none, snanFlag .fp32 [m1, m2]) := by
  have hc : (xIsNan (decodeFmt .fp32 m1) || xIsNan (decodeFmt .fp32 m2)) = true := by
    rw [Bool.or_eq_true, xIsNan_iff, xIsNan_iff]
    exact h
  exact if_pos hc

theorem mergeW_numbers {m1 m2 : Nat} (h1 : decodeFmt .fp32 m1 ≠ .nan) (h2 : decodeFmt .fp32 m2 ≠ .nan) :
    (mergeW m1 m2).1 = some ((rnF32 (xMax (decodeFmt .fp32 m1) (decodeFmt .fp32 m2))).1,
      (wExp (decodeFmt .fp32 m1) (xMax (decodeFmt .fp32 m1) (decodeFmt .fp32 m2))).1,
      (wExp (decodeFmt .fp32 m2) (xMax (decodeFmt .fp32 m1) (decodeFmt .fp32 m2))).1) := by
  have hc : ¬ (xIsNan (decodeFmt .fp32 m1) || xIsNan (decodeFmt .fp32 m2)) = true := by
    rw [xIsNan_false h1, xIsNan_false h2]
    exact Bool.false_ne_true
  exact congrArg Prod.fst (if_neg hc)

theorem mergeT_none {x y : Triple} (h : (mergeW x.m y.m).1 = none) : (mergeT x y).1 = Triple.nan (max x.a.length y.a.length) := by
  unfold mergeT
  split
  · rfl
  · rename_i hm
    rw [hm] at h
    cases h

theorem mergeT_some {x y : Triple} {m : Nat} {w1 w2 : Xr} (h : (mergeW x.m y.m).1 = some (m, w1, w2)) :
    (mergeT x y).1 = ⟨m, (gPair w1 w2 x.l y.l).1, (x.a.zip y.a).map (fun e => (gPair w1 w2 e.1 e.2).1)⟩ := by
  unfold mergeT
  split
  · rename_i hm
    rw [hm] at h
    cases h
  · rename_i hm
    rw [hm] at h
    cases h
    simp only [List.map_map]
    rfl

theorem wExp_value (x m : Xr) : (wExp x m).1 = if xCmp x m = 0 then xInt 1
    else decodeFmt .fp32 (conv (xExp2 (decodeFmt .fp32 (conv (groupSum [x, xFlip m]).1 .fp32 .rne false).1)).1 .fp32 .rne false).1 := by
  unfold wExp
  split_ifs <;> rfl

theorem turns_exact : cosTurn (2 ^ 22) = xZero ∧ cosTurn (3 * 2 ^ 22) = xZero ∧ sinTurn 0 = xZero ∧ sinTurn (2 ^ 23) = xZero := by decide

section
variable {g : Guard} {d b gl : R6} {mode : BitVec 2} {disp : BitVec 24} {s : State} {t : Strand}

/-- Element `k` of a VLDB. -/
def vldbVal (s : State) (t : Strand) (pg : VldbPage) (m tile l k : Nat) : Nat × FpFlags :=
  match pg.hg with
  | some bs => rotElt (pg.v.f32 { s with mem := laneView t s } pg.scale m) bs pg.pair pg.pos tile (vldbElt m l k).1 (vldbElt m l k).2
  | none => pg.v.f32 { s with mem := laneView t s } pg.scale m tile (vldbElt m l k).1 (vldbElt m l k).2

theorem vldb_on (h : Ready s t (.vldb g d b gl mode disp) g) :
    exec (.vldb g d b gl mode disp) s = .next (match vldbPage s t (baseDisp b disp t).toNat mode.toNat with
      | .error (c, a) => raise (.vldb g d b gl mode disp) c s t (BitVec.ofNat 64 a)
      | .ok pg =>
        let tile := vldbTile pg (baseDisp b disp t).toNat
        let l := vldbRun (getG t gl)
        match (vldbElts pg mode.toNat tile l).find? (fun e => eccBad s e.1 e.2),
            (vldbScales pg mode.toNat tile l).find? (fun e => eccBad s e.1 e.2) with
        | some e, _ => raise (.vldb g d b gl mode disp) .memoryEcc s t (BitVec.ofNat 64 (pg.v.va + e.1 % 32768))
        | none, some e => raise (.vldb g d b gl mode disp) .memoryEcc s t (BitVec.ofNat 64 (pg.v.scaleVa / 32768 * 32768 + e.1 % 32768))
        | none, none =>
          let vals := (List.range 32).map (vldbVal s t pg mode.toNat tile l)
          putStrand ((vldbElts pg mode.toNat tile l ++ vldbScales pg mode.toNat tile l).foldl (fun s a => correctSoft s a.1 a.2) s)
            (advance (lateFlags s.cycle (if pg.hg.isSome then 15 else 9) (vals.foldl (fun f v => f ||| v.2) 0)
              (setV s.cycle (if pg.hg.isSome then 15 else 9) d (ofElts 32 (vals.map (·.1))) t)))) := by
  simp only [exec]
  exact issue_on _ _ h

theorem vldb_error {cs : Cause} {v : Nat} (h : Ready s t (.vldb g d b gl mode disp) g)
    (hp : vldbPage s t (baseDisp b disp t).toNat mode.toNat = .error (cs, v)) :
    Raises (.vldb g d b gl mode disp) s t (causeCode cs) := by
  have hx := vldb_on h
  rw [hp] at hx
  exact raises_of_raise cs _ hx

theorem vldb_ecc {pg : VldbPage} (h : Ready s t (.vldb g d b gl mode disp) g)
    (hp : vldbPage s t (baseDisp b disp t).toNat mode.toNat = .ok pg)
    (he : ∃ e ∈ vldbElts pg mode.toNat (vldbTile pg (baseDisp b disp t).toNat) (vldbRun (getG t gl))
      ++ vldbScales pg mode.toNat (vldbTile pg (baseDisp b disp t).toNat) (vldbRun (getG t gl)), eccBad s e.1 e.2 = true) :
    Raises (.vldb g d b gl mode disp) s t 23 := by
  have hx := vldb_on h
  rw [hp] at hx
  dsimp only at hx
  cases h1 : (vldbElts pg mode.toNat (vldbTile pg (baseDisp b disp t).toNat) (vldbRun (getG t gl))).find? (fun e => eccBad s e.1 e.2) with
  | some e =>
    rw [h1] at hx
    exact raises_of_raise .memoryEcc _ hx
  | none =>
    cases h2 : (vldbScales pg mode.toNat (vldbTile pg (baseDisp b disp t).toNat) (vldbRun (getG t gl))).find? (fun e => eccBad s e.1 e.2) with
    | some e =>
      rw [h1, h2] at hx
      exact raises_of_raise .memoryEcc _ hx
    | none =>
      obtain ⟨e, hm, hb⟩ := he
      rcases List.mem_append.mp hm with hm | hm
      · exact absurd hb (List.find?_eq_none.mp h1 e hm)
      · exact absurd hb (List.find?_eq_none.mp h2 e hm)

theorem foldl_correctSoft_pairs (l : List (Nat × Nat)) (s : State) :
    (l.foldl (fun s a => correctSoft s a.1 a.2) s).cur = s.cur ∧ (l.foldl (fun s a => correctSoft s a.1 a.2) s).mem = s.mem := by
  induction l generalizing s with
  | nil => exact ⟨rfl, rfl⟩
  | cons a l ih =>
    obtain ⟨h1, h2⟩ := ih (correctSoft s a.1 a.2)
    exact ⟨h1.trans (correctSoft_cur ..), h2.trans (correctSoft_mem ..)⟩

theorem vldb_reads {pg : VldbPage} (h : Ready s t (.vldb g d b gl mode disp) g)
    (hp : vldbPage s t (baseDisp b disp t).toNat mode.toNat = .ok pg)
    (he : ∀ e ∈ vldbElts pg mode.toNat (vldbTile pg (baseDisp b disp t).toNat) (vldbRun (getG t gl))
      ++ vldbScales pg mode.toNat (vldbTile pg (baseDisp b disp t).toNat) (vldbRun (getG t gl)), eccBad s e.1 e.2 = false) :
    let val := vldbVal s t pg mode.toNat (vldbTile pg (baseDisp b disp t).toNat) (vldbRun (getG t gl))
    ∃ s' t' x, Lands (.vldb g d b gl mode disp) s s' t' ∧ WroteV d x t t' ∧ SameMem s s' ∧ SameG t t' ∧ t'.m = t.m ∧ SameP t t'
      ∧ SameC t t' ∧ SameSpot t t' ∧ MovedOn t t' ∧ (∀ j, j < 32 → elt 32 x j = (val j).1 % 2 ^ 32)
      ∧ FlagsLand (s.cycle + if pg.hg.isSome then 15 else 9) ((List.range 32).foldl (fun f j => f ||| (val j).2) 0) t t' := by
  intro val
  have hx := vldb_on h
  rw [hp] at hx
  dsimp only at hx
  rw [List.find?_eq_none.mpr fun e hm => by rw [he e (List.mem_append_left _ hm)]; exact Bool.false_ne_true,
    List.find?_eq_none.mpr fun e hm => by rw [he e (List.mem_append_right _ hm)]; exact Bool.false_ne_true] at hx
  dsimp only at hx
  rw [List.foldl_map] at hx
  obtain ⟨k1, k2⟩ := foldl_correctSoft_pairs (vldbElts pg mode.toNat (vldbTile pg (baseDisp b disp t).toNat) (vldbRun (getG t gl))
    ++ vldbScales pg mode.toNat (vldbTile pg (baseDisp b disp t).toNat) (vldbRun (getG t gl))) s
  refine ⟨_, _, ofElts 32 (((List.range 32).map val).map (·.1)), ⟨hx, putStrand_lands _ _ _ k1⟩, fun r => ?_,
    fun a => congrArg (rdCell · a) k2, fun r => ?_, ?_, ?_, ?_, ?_, movedOn_advance (by simp) (by simp) (by simp), fun j hj => ?_,
    flagsLand_of_lateFlags (by simp) (by simp) (by simp)⟩
  · simp [getV_setV, val]
  · simp
  · simp
  · simp [SameP]
  · simp [SameC]
  · simp [SameSpot]
  · rw [List.map_map]
    exact elt_ofElts_range (w := 32) (fun j => (val j).1) hj

end

/-- Settles O41: MERGE by its weights and pair sums, the rotated pair, and the run of a page element by element. -/
theorem attentionForms : Obligations.AttentionForms := by
  intro g d a b c gl k z y mode disp
  refine ⟨writesGF_of_laneOp (fun s => by simp only [exec]; rfl), vectorResult_of_vecOp (fun s => by simp only [exec]; rfl),
    vectorResult_of_vecOp (fun s => by simp only [exec]; rfl), vectorResult_of_vecOp (fun s => by simp only [exec]; rfl),
    fun m1 m2 l1 l2 a1 a2 => ?_, fun pos f x y => ⟨rfl, rfl⟩, turns_exact, fun s t pg => ?_⟩
  · intro x y rn weight m pair
    refine ⟨fun h => ?_, fun h1 h2 => ?_⟩
    · have hn : (mergeW m1 m2).1 = none := by rw [mergeW_nan h]
      refine ⟨hn, (mergeT_none hn).trans ?_⟩
      rw [Triple.nan, nanCode_fp32]
    · have hw := mergeW_numbers h1 h2
      have hx : (wExp x (xMax x y)).1 = weight x m := wExp_value x (xMax x y)
      have hy : (wExp y (xMax x y)).1 = weight y m := wExp_value y (xMax x y)
      rw [show (wExp (decodeFmt .fp32 m1) _).1 = weight x m from hx, show (wExp (decodeFmt .fp32 m2) _).1 = weight y m from hy] at hw
      exact ⟨hw, fun p q => rfl, mergeT_some hw⟩
  · intro va m tile l at' places rd sc dec val i h
    have hva : (baseDisp b disp t).toNat = va := by rw [baseDisp_eq]
    refine ⟨fun cs v hp => vldb_error h (by rw [hva]; exact hp), fun hp he => vldb_ecc h (by rw [hva]; exact hp) ?_, fun hp he => ?_⟩
    · rw [hva]
      exact he
    · have hres := vldb_reads (d := d) (gl := gl) h (by rw [hva]; exact hp) (by rw [hva]; exact he)
      rw [hva] at hres
      exact hres

end Sys2Proof.Machine
end

section
/-! SUPPORT. Tile commands enter the engine, start, commit and drain; TCOMMIT, TWAIT, TACCRD; ring tiles arrive (R268-R292). -/

namespace Sys2Proof.Machine

open Laws



/-! ### Tile commands enter the engine (R269-R276) -/

theorem writesOnly_settleLeases (s : State) (cl : Nat) (l : List (Nat × Nat)) : WritesOnly s (settleLeases s cl l) :=
  (writesOnly_drainOut ..).trans (writesOnly_settleRepl ..)

/-- Without writes on their way nothing is performed. -/
theorem settleLeases_idle {s : State} (cl : Nat) (l : List (Nat × Nat)) (he : s.egress = []) (hr : s.repl = []) :
    (settleLeases s cl l).mem = s.mem := by
  have h1 : ∀ want, drainOut s want = { s with egress := [] } := fun want => by
    unfold drainOut
    rw [he]
    rfl
  unfold settleLeases settleRepl
  rw [h1]
  dsimp only
  rw [hr]
  rfl

/-- The command that a tile form appends. -/
def tileCmdOf (i : Instr) (s : State) (t : Strand) (occ : List (Nat × Nat)) (q : TilePrep) (st : Nat) : TileCmd :=
  let at0 := t.seg.start + st
  { id := (settleLeases s t.cl q.leases).nextId, instr := i, task := t.task.id, sid := t.seg.sid, pc := t.pc0
    word0 := (encode i).headD 0, batch := t.batchNo, start := 8 * at0
    done := 8 * (at0 + occ.foldl (fun m o => max m o.2) 0) - 1
    occ := occ.map (fun o => (o.1, at0, at0 + o.2 - 1)), args := q.args, pages := q.pages, leases := q.leases
    snap := if readsAtIssue i then q.leases.map (fun r => (r.1, rdBytes (settleLeases s t.cl q.leases).mem r.1 r.2)) else []
    acc := q.acc, started := false, commit := none, flags := 0, out := [], ecc := false }

/-- The strand behind a tile form but for its triple. -/
def tileStrand (now : Nat) (t : Strand) (occ : List (Nat × Nat)) (st : Nat) (dst : Option R6) : Strand :=
  let u := { t with tileF := st + (occ.headD (8, 0)).2 }
  match dst with
  | some d => setG now (8 * (t.seg.start + st + 1) - now) d (getG u d) u
  | none => u

/-- A tile form's strand keeps its registers. -/
theorem tileStrand_keeps (now : Nat) (t : Strand) (occ : List (Nat × Nat)) (st : Nat) (dst : Option R6) :
    let u := tileStrand now t occ st dst
    SameG t u ∧ SameV t u ∧ SameP t u ∧ SameC t u ∧ SameF t u ∧ SamePlace t u ∧ u.tileF = st + (occ.headD (8, 0)).2
      ∧ u.pc0 = t.pc0 ∧ u.pc1 = t.pc1 ∧ u.pc2 = t.pc2 ∧ u.ds = t.ds := by
  intro u
  cases dst with
  | none => exact ⟨fun _ => rfl, ⟨rfl, rfl⟩, rfl, rfl, ⟨rfl, rfl⟩, ⟨rfl, rfl, rfl, rfl, rfl, rfl⟩, rfl, rfl, rfl, rfl, rfl⟩
  | some d =>
    have hu : u = setG now (8 * (t.seg.start + st + 1) - now) d (getG t d) { t with tileF := st + (occ.headD (8, 0)).2 } := rfl
    refine ⟨fun r => ?_, ?_, ?_, ?_, ?_, ?_, ?_, ?_, ?_, ?_, ?_⟩
    · rw [hu, getG_setG]
      split_ifs with h
      · rw [h.1]
      · rfl
    · rw [hu]; exact ⟨by simp, by simp⟩
    · rw [hu]; simp [SameP]
    · rw [hu]; simp [SameC]
    · rw [hu]; simp [SameF]
    · rw [hu]; simp [SamePlace]
    all_goals rw [hu]; simp

section
variable {i : Instr} {g : Guard} {adv : Strand → Strand} {occ : List (Nat × Nat)} {dst : Option R6}
  {prep : Strand → State → Nat → Except (Cause × Word) TilePrep} {s : State} {t : Strand}

theorem tileForm_on (hx : exec i s = tileForm i g adv occ dst prep s) (h : Ready s t i g) :
    let st := max (relCycle t s / 8 + 1) t.tileF
    exec i s = .next (
      match (occ.flatMap (fun o => (List.range o.2).map (fun n => (o.1, st + n)))).find?
          (fun e => !bookedTo (getCp s t.cl t.task.pid).cal t.seg.sid e.1 (t.seg.start + e.2)) with
      | some (r, n) =>
        takeFault s t { cause := .booking, word := (encode i).headD 0, w7 := BitVec.ofNat 64 (r + 2 ^ 5 * (n % 4096)) }
      | none => match prep t s (t.seg.start + st) with
        | .error (c, va) => raise i c s t va
        | .ok q => updCp { putStrand (settleLeases s t.cl q.leases)
              (adv (tileStrand (settleLeases s t.cl q.leases).cycle t occ st dst)) with nextId := (settleLeases s t.cl q.leases).nextId + 1 }
            (tileStrand (settleLeases s t.cl q.leases).cycle t occ st dst).cl
            (tileStrand (settleLeases s t.cl q.leases).cycle t occ st dst).task.pid
            (fun k => { k with tiles := k.tiles ++ [tileCmdOf i s t occ q st] })) := by
  intro st
  rw [hx, tileForm, issue_on _ _ h]
  cases dst <;> rfl

/-- All the ticks of the occupancy are booked. -/
def tileBooked (s : State) (t : Strand) (occ : List (Nat × Nat)) (st : Nat) : Prop :=
  ∀ o ∈ occ, ∀ n, n < o.2 → bookedTo (getCp s t.cl t.task.pid).cal t.seg.sid o.1 (t.seg.start + st + n) = true

theorem tileForm_unbooked (hx : exec i s = tileForm i g adv occ dst prep s) (h : Ready s t i g)
    (hb : ¬ tileBooked s t occ (max (relCycle t s / 8 + 1) t.tileF)) : Raises i s t 7 := by
  have hon := tileForm_on hx h
  dsimp only at hon
  cases hf : (occ.flatMap (fun o => (List.range o.2).map (fun n => (o.1, max (relCycle t s / 8 + 1) t.tileF + n)))).find?
      (fun e => !bookedTo (getCp s t.cl t.task.pid).cal t.seg.sid e.1 (t.seg.start + e.2)) with
  | some e =>
    rw [hf] at hon
    exact ⟨_, hon, faulted_takeFault ..⟩
  | none =>
    refine absurd (fun o ho n hn => ?_) hb
    have := List.find?_eq_none.mp hf (o.1, _ + n) (List.mem_flatMap.mpr ⟨o, ho, List.mem_map.mpr ⟨n, List.mem_range.mpr hn, rfl⟩⟩)
    simpa [Nat.add_assoc] using this

theorem tileForm_booked (hx : exec i s = tileForm i g adv occ dst prep s) (h : Ready s t i g)
    (hb : tileBooked s t occ (max (relCycle t s / 8 + 1) t.tileF)) :
    let st := max (relCycle t s / 8 + 1) t.tileF
    (∀ e, prep t s (t.seg.start + st) = .error e → Raises i s t (causeCode e.1))
    ∧ (∀ q, prep t s (t.seg.start + st) = .ok q →
      exec i s = .next (updCp { putStrand (settleLeases s t.cl q.leases)
              (adv (tileStrand (settleLeases s t.cl q.leases).cycle t occ st dst)) with nextId := (settleLeases s t.cl q.leases).nextId + 1 }
            t.cl t.task.pid (fun k => { k with tiles := k.tiles ++ [tileCmdOf i s t occ q st] }))) := by
  intro st
  have hon := tileForm_on hx h
  dsimp only at hon
  have hf : (occ.flatMap (fun o => (List.range o.2).map (fun n => (o.1, st + n)))).find?
      (fun e => !bookedTo (getCp s t.cl t.task.pid).cal t.seg.sid e.1 (t.seg.start + e.2)) = none := by
    refine List.find?_eq_none.mpr fun e he => ?_
    obtain ⟨o, ho, he⟩ := List.mem_flatMap.mp he
    obtain ⟨n, hn, rfl⟩ := List.mem_map.mp he
    have := hb o ho n (List.mem_range.mp hn)
    rw [Nat.add_assoc] at this
    dsimp only
    rw [this]
    exact Bool.false_ne_true
  rw [hf] at hon
  dsimp only at hon
  refine ⟨fun e he => ?_, fun q hq => ?_⟩
  · rw [he] at hon
    exact raises_of_raise e.1 _ hon
  · obtain ⟨-, -, -, -, -, ⟨ht, -, hcl, -⟩, -⟩ := tileStrand_keeps (settleLeases s t.cl q.leases).cycle t occ st dst
    rw [hq] at hon
    dsimp only at hon
    rw [show (tileStrand _ t occ _ dst).cl = _ from hcl, show (tileStrand _ t occ _ dst).task = _ from ht] at hon
    exact hon

end

/-- What the word count of a form says of its triple. -/
def TileStep (adv : Strand → Strand) (words : Nat) : Prop := (adv = advance ∧ words = 1) ∨ (adv = advanceTcw ∧ words ≠ 1)

theorem TileStep.moves {adv : Strand → Strand} {words : Nat} (h : TileStep adv words) {t u : Strand} (h0 : u.pc0 = t.pc0)
    (h1 : u.pc1 = t.pc1) (h2 : u.pc2 = t.pc2) (h3 : u.ds = t.ds) :
    if words = 1 then MovedOn t (adv u)
    else (adv u).pc0 = t.pc0 + 32 ∧ (adv u).pc1 = t.pc0 + 40 ∧ (adv u).pc2 = t.pc0 + 48 ∧ (adv u).ds = 0 := by
  rcases h with ⟨rfl, hw⟩ | ⟨rfl, hw⟩
  · rw [if_pos hw]
    exact movedOn_advance h1 h2 h3
  · rw [if_neg hw]
    exact ⟨by rw [← h0]; rfl, by rw [← h0]; rfl, by rw [← h0]; rfl, rfl⟩

theorem TileStep.keeps {adv : Strand → Strand} {words : Nat} (h : TileStep adv words) {t u : Strand} (hg : SameG t u) (hv : SameV t u)
    (hp : SameP t u) (hc : SameC t u) (hf : SameF t u) (hl : SamePlace t u) :
    SameG t (adv u) ∧ SameV t (adv u) ∧ SameP t (adv u) ∧ SameC t (adv u) ∧ SameF t (adv u) ∧ SamePlace t (adv u)
      ∧ (adv u).tileF = u.tileF := by
  rcases h with ⟨rfl, -⟩ | ⟨rfl, -⟩ <;> exact ⟨hg, hv, hp, hc, hf, hl, rfl⟩



/-- A tile form whose ticks are booked and whose checks pass. -/
theorem tileForm_enters {i : Instr} {g : Guard} {adv : Strand → Strand} {occ : List (Nat × Nat)} {dst : Option R6} {words : Nat}
    {prep : Strand → State → Nat → Except (Cause × Word) TilePrep} {s : State} {t : Strand} {q : TilePrep}
    (hx : exec i s = tileForm i g adv occ dst prep s) (h : Ready s t i g) (hw : TileStep adv words)
    (hb : tileBooked s t occ (max (relCycle t s / 8 + 1) t.tileF))
    (hq : prep t s (t.seg.start + max (relCycle t s / 8 + 1) t.tileF) = .ok q) :
    let st := max (relCycle t s / 8 + 1) t.tileF
    let at0 := t.seg.start + st
    ∃ s' t' c, Lands i s s' t'
      ∧ SameMem (settleLeases s t.cl q.leases) s' ∧ (s.egress = [] → s.repl = [] → SameMem s s')
      ∧ c.snap = (if readsAtIssue i then q.leases.map (fun r => (r.1, rdBytes s'.mem r.1 r.2)) else [])
      ∧ (getCp s' t.cl t.task.pid).tiles = (getCp s t.cl t.task.pid).tiles ++ [c]
      ∧ c.instr = i ∧ c.task = t.task.id ∧ c.sid = t.seg.sid ∧ c.batch = t.batchNo ∧ c.pc = t.pc0 ∧ c.start = 8 * at0
      ∧ c.done = 8 * (at0 + (occ.map (·.2)).foldl max 0) - 1 ∧ c.occ = occ.map (fun o => (o.1, at0, at0 + o.2 - 1))
      ∧ c.args = q.args ∧ c.pages = q.pages ∧ c.leases = q.leases ∧ c.acc = q.acc ∧ c.started = false ∧ c.commit = none
      ∧ t'.tileF = st + (occ.headD (8, 0)).2 ∧ SameG t t' ∧ SameV t t' ∧ SameP t t' ∧ SameC t t' ∧ SameF t t' ∧ SamePlace t t'
      ∧ (if words = 1 then MovedOn t t'
         else t'.pc0 = t.pc0 + 32 ∧ t'.pc1 = t.pc0 + 40 ∧ t'.pc2 = t.pc0 + 48 ∧ t'.ds = 0) := by
  intro st at0
  have hon := (tileForm_booked hx h hb).2 q hq
  have hs := writesOnly_settleLeases s t.cl q.leases
  have hidle := settleLeases_idle (s := s) t.cl q.leases
  obtain ⟨k1, k2, k3, k4, k5, k6, k7, k8, k9, k10, k11⟩ := tileStrand_keeps (settleLeases s t.cl q.leases).cycle t occ st dst
  obtain ⟨j1, j2, j3, j4, j5, j6, j7⟩ := hw.keeps k1 k2 k3 k4 k5 k6
  refine ⟨_, _, tileCmdOf i s t occ q st, ⟨hon, putStrand_lands (settleLeases s t.cl q.leases) _ _ (by rw [hs])⟩, fun _ => rfl,
    fun he hr b => congrArg (rdCell · b) (hidle he hr), rfl, ?_, rfl, rfl, rfl, rfl, rfl, rfl, ?_, rfl, rfl, rfl, rfl, rfl, rfl,
    rfl, j7.trans k7, j1, j2, j3, j4, j5, j6, hw.moves k8 k9 k10 k11⟩
  · have hcp : getCp (settleLeases s t.cl q.leases) t.cl t.task.pid = getCp s t.cl t.task.pid := by rw [getCp, getCp, hs]
    rw [getCp_updCp_same]
    show (getCp (settleLeases s t.cl q.leases) t.cl t.task.pid).tiles ++ _ = _
    rw [hcp]
  · rw [List.foldl_map]
    rfl

section
variable (g : Guard) (ga gd : R6) (lb : BitVec 2) (tr : Bool) (s : State)

theorem tblatch_page : exec (.tblatch g 0 ga gd lb tr) s = tileForm (.tblatch g 0 ga gd lb tr) g advanceTcw ((8, 2) :: bgOcc 2) none
    (fun t s _ => match tilePage s t (tva t ga) lb.toNat true with
      | .error e => .error e
      | .ok (p, bad) =>
        if tileMisaligned p (tva t ga) (depthOf p.fmt == 128) then .error (.align, tw (tva t ga))
        else if bad || ropeBad p || axisBad p (if tr then 0 else 1) then .error (.format, tw (tva t ga))
        else .ok { pages := [p], leases := leaseCells p (latchCells p tr) }) s := by
  simp only [exec]
  unfold execTblatch
  exact if_pos rfl

theorem tblatch_ring (src : BitVec 3) (h0 : src ≠ 0) (h : src = 1 ∨ src = 2) :
    exec (.tblatch g src ga gd lb tr) s = tileForm (.tblatch g src ga gd lb tr) g advanceTcw [(8, 1), (if src = 1 then 29 else 30, 2)] none
      (fun t s _ => if inRect s t.task.pid (ringNext t.cl (src == 2)) then .ok { args := [getG t ga] } else .error (.tenant, 0)) s := by
  simp only [exec]
  exact (if_neg h0).trans (if_pos h)

theorem tblatch_box (src : BitVec 3) (h0 : src ≠ 0) (h : ¬ (src = 1 ∨ src = 2)) :
    exec (.tblatch g src ga gd lb tr) s = tileForm (.tblatch g src ga gd lb tr) g advanceTcw [(8, 1)] (some gd)
      (fun _ _ _ => .ok { args := [toW gd] }) s := by
  simp only [exec]
  exact (if_neg h0).trans (if_neg h)

end

/-- Settles O42: every form of the list is `tileForm` with its occupancy and its checks. -/
theorem tileCommands : Obligations.TileCommands := by
  intro g acc ga gb gt gseed gcoord gs gbias gres gdrop gdst la lb lt lres act slice rm mr nc kd sat sc bi rs dp tr s t i occ words prep
    bg mul drain mode hi h st at0 booked
  have hrm : drainRm rm t = mode := by
    rfl
  have hspec : ∃ adv dst prep', exec i s = tileForm i g adv occ dst prep' s ∧ TileStep adv words ∧ ∀ n, prep' t s n = prep n := by
    simp only [List.mem_cons, List.not_mem_nil, or_false, Prod.mk.injEq] at hi
    rcases hi with ⟨rfl, rfl, rfl, rfl⟩ | ⟨rfl, rfl, rfl, rfl⟩ | ⟨rfl, rfl, rfl, rfl⟩ | ⟨rfl, rfl, rfl, rfl⟩ | ⟨rfl, rfl, rfl, rfl⟩
      | ⟨rfl, rfl, rfl, rfl⟩ | ⟨rfl, rfl, rfl, rfl⟩ | ⟨rfl, rfl, rfl, rfl⟩ | ⟨rfl, rfl, rfl, rfl⟩ | ⟨rfl, rfl, rfl, rfl⟩
      | ⟨rfl, rfl, rfl, rfl⟩ | ⟨rfl, rfl, rfl, rfl⟩
    · exact ⟨_, _, _, by simp only [exec]; rfl, .inl ⟨rfl, rfl⟩, fun n => rfl⟩
    · exact ⟨_, _, _, by simp only [exec]; rfl, .inr ⟨rfl, by decide⟩, fun n => rfl⟩
    · exact ⟨_, _, _, by simp only [exec]; rfl, .inr ⟨rfl, by decide⟩, fun n => rfl⟩
    · exact ⟨_, _, _, by simp only [exec]; rfl, .inr ⟨rfl, by decide⟩, fun n => rfl⟩
    · exact ⟨_, _, _, by simp only [exec]; rfl, .inr ⟨rfl, by decide⟩, fun n => rfl⟩
    · refine ⟨_, _, _, by simp only [exec]; rfl, .inr ⟨rfl, by decide⟩, fun n => ?_⟩
      rw [hrm]
      rfl
    · refine ⟨_, _, _, by simp only [exec]; rfl, .inr ⟨rfl, by decide⟩, fun n => ?_⟩
      rw [hrm]
      rfl
    · exact ⟨_, _, _, tblatch_page .., .inr ⟨rfl, by decide⟩, fun n => rfl⟩
    · exact ⟨_, _, _, tblatch_ring g ga gdst lb tr s 1 (by decide) (.inl rfl), .inr ⟨rfl, by decide⟩, fun n => rfl⟩
    · exact ⟨_, _, _, tblatch_ring g ga gdst lb tr s 2 (by decide) (.inr rfl), .inr ⟨rfl, by decide⟩, fun n => rfl⟩
    all_goals
      refine ⟨_, _, _, tblatch_box g ga gdst lb tr s _ (by decide) (by decide), .inr ⟨rfl, by decide⟩, fun n => ?_⟩
      rw [toW_eq]
      rfl
  obtain ⟨adv, dst, prep', hx, hw, hp⟩ := hspec
  refine ⟨fun hb => tileForm_unbooked hx h hb, fun hb => ⟨fun e he => ?_, fun q hq => ?_⟩⟩
  · exact (tileForm_booked hx h hb).1 e ((hp _).trans he)
  · exact tileForm_enters hx h hw hb ((hp _).trans hq)



/-! ### TCOMMIT, TWAIT and TACCRD (R271, R272, R291, R292) -/

theorem foldl_max_comm {α β : Type} (f : α → Nat) (g : β → Nat) (l : List α) (k : List β) (m : Nat) :
    l.foldl (fun m x => max m (f x)) (k.foldl (fun m x => max m (g x)) m) = ((l.map f) ++ k.map g).foldl max m := by
  rw [← List.foldl_map (f := f) (g := max), ← List.foldl_map (f := g) (g := max), ← List.foldl_append]
  exact List.perm_append_comm.foldl_eq m

/-- The cycle in which the open batch commits. -/
def batchCommit (s : State) (t : Strand) : Nat :=
  ((((getCp s t.cl t.task.pid).tiles.filter (fun c : TileCmd => c.sid == t.seg.sid && c.batch == t.batchNo && c.commit.isNone)).map
    (fun c : TileCmd => c.done + 1)) ++ t.commits.map (fun e : Nat × Nat => e.2)).foldl max (s.cycle + 1)

/-- The state with the open batch closed. -/
def batchClosed (s : State) (t : Strand) : State :=
  updCp s t.cl t.task.pid (fun k => { k with tiles := k.tiles.map (fun c =>
    if c.sid == t.seg.sid && c.batch == t.batchNo && c.commit.isNone then { c with commit := some (batchCommit s t) } else c) })

theorem batchClosed_tiles (s : State) (t : Strand) :
    (getCp (batchClosed s t) t.cl t.task.pid).tiles = (getCp s t.cl t.task.pid).tiles.map (fun c =>
      if c.sid == t.seg.sid && c.batch == t.batchNo && c.commit.isNone then { c with commit := some (batchCommit s t) } else c) :=
  congrArg ClPart.tiles (getCp_updCp_same ..)

theorem closeBatch_spec (s : State) (t : Strand) :
    closeBatch s t (s.cycle + 1) = ({ t with batchNo := t.batchNo + 1, commits := t.commits ++ [(t.batchNo, batchCommit s t)] },
      batchClosed s t) := by
  unfold closeBatch
  dsimp only
  rw [foldl_max_comm (fun c : TileCmd => c.done + 1) (fun e : Nat × Nat => e.2)]
  rfl

theorem foldl_max_ge (l : List Nat) (m : Nat) : m ≤ l.foldl max m ∧ ∀ x ∈ l, x ≤ l.foldl max m := by
  induction l generalizing m with
  | nil => exact ⟨Nat.le_refl m, fun x h => absurd h List.not_mem_nil⟩
  | cons a l ih =>
    obtain ⟨h1, h2⟩ := ih (max m a)
    refine ⟨le_trans (le_max_left ..) h1, fun x hx => ?_⟩
    rcases List.mem_cons.mp hx with rfl | hx
    · exact le_trans (le_max_right ..) h1
    · exact h2 x hx

theorem foldl_max_mem (l : List Nat) (m : Nat) : l.foldl max m = m ∨ l.foldl max m ∈ l := by
  induction l generalizing m with
  | nil => exact .inl rfl
  | cons a l ih =>
    rw [List.foldl_cons]
    rcases ih (max m a) with h | h
    · rw [h]
      rcases max_choice m a with e | e
      · exact .inl e
      · exact .inr (by rw [e]; exact List.mem_cons_self)
    · exact .inr (List.mem_cons_of_mem _ h)

theorem batchCommit_gt (s : State) (t : Strand) : s.cycle < batchCommit s t := (foldl_max_ge _ _).1

/-- The cycle until which TWAIT stands. -/
def waitUntil (s : State) (commits : List (Nat × Nat)) (n : Nat) : Nat :=
  (commits.filter (fun e => decide (e.1 ≤ n))).foldl (fun m e => max m e.2) s.cycle

theorem waitUntil_spec (s : State) (commits : List (Nat × Nat)) (n : Nat) :
    (∀ e ∈ commits, e.1 ≤ n → e.2 ≤ waitUntil s commits n)
      ∧ (s.cycle < waitUntil s commits n → ∃ e ∈ commits, e.1 ≤ n ∧ e.2 = waitUntil s commits n) := by
  have hw : waitUntil s commits n = ((commits.filter (fun e => decide (e.1 ≤ n))).map (·.2)).foldl max s.cycle := by
    rw [List.foldl_map]
    rfl
  have hmem : ∀ x, x ∈ (commits.filter (fun e => decide (e.1 ≤ n))).map (·.2) ↔ ∃ e ∈ commits, e.1 ≤ n ∧ e.2 = x := fun x => by
    simp only [List.mem_map, List.mem_filter, decide_eq_true_iff, and_assoc]
  rw [hw]
  refine ⟨fun e he hn => (foldl_max_ge _ _).2 _ ((hmem _).mpr ⟨e, he, hn, rfl⟩), fun hlt => ?_⟩
  rcases foldl_max_mem ((commits.filter (fun e => decide (e.1 ≤ n))).map (·.2)) s.cycle with h | h
  · omega
  · exact (hmem _).mp h

theorem waitUntil_waits (s : State) (commits : List (Nat × Nat)) (n : Nat) :
    s.cycle < waitUntil s commits n ↔ ∃ e ∈ commits, e.1 ≤ n ∧ s.cycle < e.2 := by
  obtain ⟨h1, h2⟩ := waitUntil_spec s commits n
  refine ⟨fun h => ?_, fun ⟨e, he, hn, hlt⟩ => lt_of_lt_of_le hlt (h1 e he hn)⟩
  obtain ⟨e, he, hn, hx⟩ := h2 h
  exact ⟨e, he, hn, hx ▸ h⟩

section
variable {g : Guard} {d a b row : R6} {half : Bool} {s : State} {t : Strand}

theorem tcommit_on (h : Ready s t (.tcommit g d) g) :
    exec (.tcommit g d) s = .next (putStrand (closeBatch s t (s.cycle + 1)).2
      (advance (setG (closeBatch s t (s.cycle + 1)).2.cycle 1 d (BitVec.ofNat 64 (t.batchNo % 2 ^ 16)) (closeBatch s t (s.cycle + 1)).1))) := by
  simp only [exec]
  exact issue_on _ _ h

/-- TWAIT behind the closing of the batch that it may wait for. -/
def twaitGoes (s : State) (t : Strand) (n : Nat) : State :=
  if s.cycle < waitUntil s t.commits n then
    putStrand s { t with hold := waitUntil s t.commits n, reach := some (t.reach.getD s.cycle) }
  else putStrand s (advance t)

theorem twaitGoes_waits {n : Nat} (h : s.cycle < waitUntil s t.commits n) :
    twaitGoes s t n = putStrand s { t with hold := waitUntil s t.commits n, reach := some (t.reach.getD s.cycle) } := if_pos h

theorem twait_on (h : Ready s t (.twait g a) g) :
    let n := (getG t a).toNat % 2 ^ 16
    exec (.twait g a) s = .next (
      let q := if t.reach.isNone ∧ t.batchNo ≤ n then closeBatch s t (s.cycle + 1) else (t, s)
      twaitGoes q.2 q.1 n) := by
  simp only [exec]
  exact issue_on _ _ h

theorem taccrd_on {i : Instr} {rowHalf : Strand → Nat × Bool} (hx : exec i s = taccrd i g d a rowHalf s) (h : Ready s t i g) :
    exec i s = .next (
      if (getCp s t.cl t.task.pid).tiles.any (fun c => tileHolds s c && c.acc == some (a.toNat % 8)) then raise i .lease s t 0
      else if !segBooked s t (9 + a.toNat % 8) (tickNow s) (tickNow s) then raiseBooking i s t (9 + a.toNat % 8)
      else putStrand s (advance (setV s.cycle 4 d (ofElts 32 ((List.range 32).map (fun e =>
        ((tabGet (getCp s t.cl t.task.pid).acc (4096 * (a.toNat % 8) + 64 * (rowHalf t).1 + (if (rowHalf t).2 then 32 else 0) + e)).getD 0).toNat))) t))) :=
  hx.trans (issue_on _ _ h)

end

theorem segBooked_one (s : State) (t : Strand) (res n : Nat) :
    segBooked s t res n n = bookedTo (getCp s t.cl t.task.pid).cal t.seg.sid res n := by
  simp [segBooked]

/-- Settles O43: TCOMMIT and TWAIT by the commit cycle of the open batch, TACCRD by what holds its accumulator. -/
theorem tileShortForms : Obligations.TileShortForms := by
  intro g d a b row half s t open' tiles at' closed
  have hcl := closeBatch_spec s t
  have hgt := batchCommit_gt s t
  refine ⟨fun h => ?_, fun h => ?_, fun i r hf hi h => ?_⟩
  · have hx := tcommit_on h
    rw [hcl] at hx
    exact ⟨_, _, ⟨hx, putStrand_lands _ _ _ rfl⟩, onlyG_setG .., by simp, fun _ => rfl, by simp; rfl,
      batchClosed_tiles s t⟩
  · intro n waits
    have hx := twait_on h
    dsimp only at hx
    refine ⟨fun hn => ?_, fun hn hr => ?_⟩
    · have hc : ¬ (t.reach.isNone = true ∧ t.batchNo ≤ n) := by
        rintro ⟨h1, h2⟩
        rcases hn with hn | hn
        · omega
        · rw [Option.isNone_iff_eq_none.mp h1] at hn
          cases hn
      rw [if_neg hc] at hx
      have hw := waitUntil_waits s t.commits n
      obtain ⟨k1, k2⟩ := waitUntil_spec s t.commits n
      refine ⟨fun hno => ?_, fun hyes => ?_⟩
      · rw [twaitGoes, if_neg fun e => hno (hw.mp e)] at hx
        exact ⟨_, ⟨hx, fun _ => rfl⟩, onlyMoves_advance t⟩
      · rw [twaitGoes_waits (hw.mpr hyes)] at hx
        exact ⟨_, ⟨hx, fun _ => rfl⟩, rfl, k2 (hw.mpr hyes), k1, rfl⟩
    · rw [if_pos ⟨by rw [hr]; rfl, hn⟩, hcl] at hx
      dsimp only at hx
      obtain ⟨k1, k2⟩ := waitUntil_spec s (t.commits ++ [(t.batchNo, batchCommit s t)]) n
      have hlt : s.cycle < waitUntil s (t.commits ++ [(t.batchNo, batchCommit s t)]) n :=
        (waitUntil_waits ..).mpr ⟨_, List.mem_append_right _ (List.mem_singleton_self _), hn, hgt⟩
      have hgo := twaitGoes_waits (s := batchClosed s t) (n := n)
        (t := { t with batchNo := t.batchNo + 1, commits := t.commits ++ [(t.batchNo, batchCommit s t)] }) hlt
      rw [hgo] at hx
      exact ⟨_, _, ⟨hx, putStrand_lands _ _ _ rfl⟩, fun _ => rfl, rfl, rfl, k1, k2 hlt, rfl,
        batchClosed_tiles s t, rfl, rfl, rfl, rfl, fun _ => rfl, ⟨rfl, rfl⟩, rfl, rfl, ⟨rfl, rfl⟩,
        ⟨rfl, rfl, rfl, rfl, rfl, rfl⟩⟩
  · intro n k held
    have hs : ∃ rowHalf, exec i s = taccrd i g d a rowHalf s ∧ rowHalf t = (r, hf) := by
      simp only [List.mem_cons, List.not_mem_nil, or_false, Prod.mk.injEq] at hi
      rcases hi with ⟨rfl, rfl, rfl⟩ | ⟨rfl, rfl, rfl⟩
      · exact ⟨fun _ => (row.toNat, hf), by simp only [exec]; rfl, rfl⟩
      · exact ⟨fun t => ((getG t b).toNat % 64, bit (getG t b) 6), by simp only [exec]; rfl, rfl⟩
    obtain ⟨rowHalf, hx, hrow⟩ := hs
    have hon := taccrd_on hx h
    have hheld : (getCp s t.cl t.task.pid).tiles.any (fun c => tileHolds s c && c.acc == some (a.toNat % 8)) = true ↔ held := by
      rw [List.any_eq_true]
      refine exists_congr fun c => and_congr_right fun _ => ?_
      rw [Bool.and_eq_true, beq_iff_eq, and_comm]
      refine and_congr_right fun _ => ?_
      unfold tileHolds
      cases c.commit with
      | none => simp
      | some m => simp
    rw [segBooked_one, hrow] at hon
    refine ⟨fun hh => ?_, fun hh => ⟨fun hb => ?_, fun hb => ?_⟩⟩
    · rw [if_pos (hheld.mpr hh)] at hon
      exact raises_of_raise .lease _ hon
    all_goals rw [if_neg fun e => hh (hheld.mp e), show bookedTo _ _ (9 + a.toNat % 8) _ = _ from hb] at hon
    · exact ⟨_, hon, faulted_takeFault ..⟩
    · rw [Bool.not_true, if_neg Bool.false_ne_true] at hon
      refine ⟨_, _, _, ⟨hon, putStrand_lands _ _ _ rfl⟩, onlyV_setV .., fun _ => rfl, fun e he => ?_⟩
      rw [elt_ofElts_range (w := 32) _ he]
      exact Nat.mod_eq_of_lt (BitVec.isLt _)



/-! ### Accumulators (R36) -/

theorem accExpand_length (n : Nat) : ∀ (k : Nat) (l : Tab (BitVec 32)), (accExpand n k l).length = n := by
  induction n with
  | zero => intro k l; rfl
  | succ n ih =>
    intro k l
    cases l with
    | nil => rw [accExpand, List.length_cons, ih]
    | cons e l => rw [accExpand]; split_ifs <;> rw [List.length_cons, ih]

theorem accGet_length (k : ClPart) (d : Nat) : (accGet k d).length = 4096 := accExpand_length ..

theorem accExpand_nil (n k : Nat) : accExpand n k [] = List.replicate n 0 := by
  induction n generalizing k with
  | zero => rfl
  | succ n ih => rw [accExpand, ih, List.replicate_succ]

/-- An element that the table does not list reads 0. -/
theorem accExpand_unlisted (n k : Nat) {l : Tab (BitVec 32)} (h : ∀ e ∈ l, e.1 ≠ k) :
    accExpand (n + 1) k l = 0 :: accExpand n (k + 1) l := by
  cases l with
  | nil => rfl
  | cons e l => rw [accExpand, if_neg (h e (List.mem_cons_self ..))]

/-- The table of elements from key `k` on: a zero is not listed. -/
def accList (k : Nat) (l : List (BitVec 32)) : Tab (BitVec 32) := (l.mapIdx (fun i x => (k + i, x))).filter (fun e => e.2 != 0)

theorem accList_cons (k : Nat) (x : BitVec 32) (l : List (BitVec 32)) :
    accList k (x :: l) = if x = 0 then accList (k + 1) l else (k, x) :: accList (k + 1) l := by
  have hshift : l.mapIdx (fun i x => (k + (i + 1), x)) = l.mapIdx (fun i x => (k + 1 + i, x)) :=
    congrArg (fun f => List.mapIdx f l) (funext fun i => funext fun x => by rw [show k + (i + 1) = k + 1 + i by omega])
  simp only [accList, List.mapIdx_cons, Nat.add_zero, List.filter_cons, hshift, bne_iff_ne, ne_eq, ite_not]

theorem accList_bounds {k : Nat} {l : List (BitVec 32)} {e : Nat × BitVec 32} (h : e ∈ accList k l) : k ≤ e.1 ∧ e.1 < k + l.length := by
  obtain ⟨i, hi, rfl⟩ := List.mem_mapIdx.mp (List.mem_filter.mp h).1
  exact ⟨Nat.le_add_right .., Nat.add_lt_add_left hi k⟩

theorem accExpand_accList {n : Nat} {l : List (BitVec 32)} (h : l.length ≤ n) (k : Nat) :
    accExpand n k (accList k l) = l ++ List.replicate (n - l.length) 0 := by
  induction l generalizing n k with
  | nil => exact accExpand_nil n k
  | cons x l ih =>
    obtain ⟨n, rfl⟩ : ∃ m, n = m + 1 := ⟨n - 1, by rw [List.length_cons] at h; omega⟩
    have hl : l.length ≤ n := by rw [List.length_cons] at h; omega
    have htail : n + 1 - (x :: l).length = n - l.length := by rw [List.length_cons]; omega
    rw [accList_cons, htail, List.cons_append, ← ih hl (k + 1)]
    by_cases hx : x = 0
    · rw [if_pos hx, accExpand_unlisted n k fun e he => by have := (accList_bounds he).1; omega, hx]
    · rw [if_neg hx, accExpand, if_pos rfl]

theorem accPut_acc (k : ClPart) (d : Nat) (l : List (BitVec 32)) :
    (accPut k d l).acc = k.acc.filter (fun e => decide (e.1 / 4096 < d)) ++ accList (4096 * d) l
      ++ k.acc.filter (fun e => decide (d < e.1 / 4096)) := rfl

theorem accList_key {d : Nat} {l : List (BitVec 32)} (hl : l.length ≤ 4096) {e : Nat × BitVec 32} (h : e ∈ accList (4096 * d) l) :
    e.1 / 4096 = d := by
  have := accList_bounds h
  omega

/-- What is written to an accumulator stands there. -/
theorem accGet_accPut_same (k : ClPart) (d : Nat) {l : List (BitVec 32)} (hl : l.length ≤ 4096) :
    accGet (accPut k d l) d = l ++ List.replicate (4096 - l.length) 0 := by
  have hlow : (k.acc.filter (fun e => decide (e.1 / 4096 < d))).filter (fun e => e.1 / 4096 == d) = [] := by
    refine List.filter_eq_nil_iff.mpr fun e he => ?_
    have := of_decide_eq_true (List.mem_filter.mp he).2
    rw [beq_iff_eq]; omega
  have hhigh : (k.acc.filter (fun e => decide (d < e.1 / 4096))).filter (fun e => e.1 / 4096 == d) = [] := by
    refine List.filter_eq_nil_iff.mpr fun e he => ?_
    have := of_decide_eq_true (List.mem_filter.mp he).2
    rw [beq_iff_eq]; omega
  have hmid : (accList (4096 * d) l).filter (fun e => e.1 / 4096 == d) = accList (4096 * d) l :=
    List.filter_eq_self.mpr fun e he => beq_iff_eq.mpr (accList_key hl he)
  rw [accGet, accPut_acc, List.filter_append, List.filter_append, hlow, hhigh, hmid, List.nil_append, List.append_nil,
    accExpand_accList hl]

theorem accGet_accPut_ne (k : ClPart) {d d' : Nat} {l : List (BitVec 32)} (hl : l.length ≤ 4096) (h : d' ≠ d) :
    accGet (accPut k d l) d' = accGet k d' := by
  have hmid : (accList (4096 * d) l).filter (fun e => e.1 / 4096 == d') = [] :=
    List.filter_eq_nil_iff.mpr fun e he => by rw [beq_iff_eq, accList_key hl he]; exact h.symm
  have hrest : (k.acc.filter (fun e => decide (e.1 / 4096 < d))).filter (fun e => e.1 / 4096 == d')
      ++ (k.acc.filter (fun e => decide (d < e.1 / 4096))).filter (fun e => e.1 / 4096 == d')
      = k.acc.filter (fun e => e.1 / 4096 == d') := by
    rw [List.filter_filter, List.filter_filter]
    rcases Nat.lt_or_gt_of_ne h with hlt | hgt
    · have hnone : k.acc.filter (fun e => (e.1 / 4096 == d') && decide (d < e.1 / 4096)) = [] :=
        List.filter_eq_nil_iff.mpr fun e _ => by simp only [Bool.and_eq_true, beq_iff_eq, decide_eq_true_eq]; omega
      rw [hnone, List.append_nil]
      refine List.filter_congr fun e _ => Bool.eq_iff_iff.mpr ?_
      simp only [Bool.and_eq_true, beq_iff_eq, decide_eq_true_eq]; omega
    · have hnone : k.acc.filter (fun e => (e.1 / 4096 == d') && decide (e.1 / 4096 < d)) = [] :=
        List.filter_eq_nil_iff.mpr fun e _ => by simp only [Bool.and_eq_true, beq_iff_eq, decide_eq_true_eq]; omega
      rw [hnone, List.nil_append]
      refine List.filter_congr fun e _ => Bool.eq_iff_iff.mpr ?_
      simp only [Bool.and_eq_true, beq_iff_eq, decide_eq_true_eq]; omega
  rw [accGet, accPut_acc, List.filter_append, List.filter_append, hmid, List.append_nil, hrest, ← accGet]

theorem accGet_accPut_full (k : ClPart) (d : Nat) {l : List (BitVec 32)} (hl : l.length = 4096) : accGet (accPut k d l) d = l := by
  rw [accGet_accPut_same k d (Nat.le_of_eq hl), hl, Nat.sub_self, List.replicate_zero, List.append_nil]

theorem accGet_zeroed (k : ClPart) (d : Nat) : accGet (accPut k d []) d = List.replicate 4096 0 :=
  accGet_accPut_same k d (Nat.zero_le _)

/-- The word that a spoilt accumulator holds everywhere (R277). -/
theorem accGet_accNan_same (k : ClPart) (d : Nat) : accGet (accNan k d) d = List.replicate 4096 (BitVec.ofNat 32 (nanCode .fp32)) :=
  accGet_accPut_full k d List.length_replicate

theorem accGet_accNan_ne (k : ClPart) {d d' : Nat} (h : d' ≠ d) : accGet (accNan k d) d' = accGet k d' :=
  accGet_accPut_ne k (Nat.le_of_eq List.length_replicate) h

/-- An element of an accumulator after a step with the rows and columns given (R280). -/
def stepRow (as bs : List (List Xr)) (n : Nat) (x : BitVec 32) : BitVec 32 × FpFlags :=
  match as[n / 64]?, bs[n % 64]? with
  | some a, some b => stepElt x a b
  | _, _ => (x, (0 : FpFlags))

theorem stepAcc_acc (k : ClPart) (d : Nat) (as bs : List (List Xr)) :
    (stepAcc k d as bs).1 = accPut k d (((accGet k d).mapIdx (stepRow as bs)).map (·.1)) := rfl

theorem stepAcc_length (k : ClPart) (d : Nat) (as bs : List (List Xr)) :
    (((accGet k d).mapIdx (stepRow as bs)).map (·.1)).length = 4096 := by
  rw [List.length_map, List.length_mapIdx, accGet_length]

theorem accGet_stepAcc_ne (k : ClPart) {d d' : Nat} (as bs : List (List Xr)) (h : d' ≠ d) :
    accGet (stepAcc k d as bs).1 d' = accGet k d' := by
  rw [stepAcc_acc, accGet_accPut_ne k (Nat.le_of_eq (stepAcc_length k d as bs)) h]

/-- Element (x, y) after a step: inside the rectangle of the rows and columns it takes their group sum, outside it stays. -/
theorem accGet_stepAcc_same (k : ClPart) (d : Nat) (row col : Nat → List Xr) (mr nc : Nat) {x y : Nat} (hx : x < 64) (hy : y < 64) :
    (accGet (stepAcc k d ((List.range mr).map row) ((List.range nc).map col)).1 d)[64 * x + y]? =
      if x < mr ∧ y < nc then some (stepElt ((accGet k d).getD (64 * x + y) 0) (row x) (col y)).1
      else (accGet k d)[64 * x + y]? := by
  have hlt : 64 * x + y < (accGet k d).length := by rw [accGet_length]; omega
  have hgetD : (accGet k d).getD (64 * x + y) 0 = (accGet k d)[64 * x + y] := by
    rw [List.getD_eq_getElem?_getD, List.getElem?_eq_getElem hlt, Option.getD_some]
  have hr : (64 * x + y) / 64 = x := by omega
  have hc : (64 * x + y) % 64 = y := by omega
  rw [stepAcc_acc, accGet_accPut_full k d (stepAcc_length ..), List.getElem?_map, List.getElem?_mapIdx,
    List.getElem?_eq_getElem hlt, hgetD, Option.map_some, Option.map_some, stepRow, hr, hc]
  rw [List.getElem?_map, List.getElem?_map]
  by_cases h1 : x < mr
  · by_cases h2 : y < nc
    · rw [List.getElem?_range h1, List.getElem?_range h2, if_pos ⟨h1, h2⟩]; rfl
    · rw [List.getElem?_range h1, List.getElem?_eq_none (by rw [List.length_range]; omega), if_neg fun e => h2 e.2]; rfl
  · rw [List.getElem?_eq_none (l := List.range mr) (by rw [List.length_range]; omega), if_neg fun e => h1 e.1]; rfl



/-! ### Elements of a page are read from memory (R276) -/

theorem rawElt_congr {s s' : State} (h : s'.mem = s.mem) (base w t mode r c : Nat) :
    rawElt s' base w t mode r c = rawElt s base w t mode r c := by
  rw [rawElt, rawElt, rdN_congr h]

theorem scaleAt_congr {s s' : State} (h : s'.mem = s.mem) (a blk bi : Nat) : scaleAt s' a blk bi = scaleAt s a blk bi := by
  simp only [scaleAt, rdN_congr h]

theorem viewF32_congr {s s' : State} (h : s'.mem = s.mem) (v : PageView) (scale mode : Nat) :
    v.f32 s' scale mode = v.f32 s scale mode := by
  funext t r c
  simp only [PageView.f32, rawElt_congr h, scaleAt_congr h]

theorem viewF32m_congr {s s' : State} (h : s'.mem = s.mem) (v : PageView) (scale mode : Nat) :
    v.f32m s' scale mode = v.f32m s scale mode := by
  funext t r c
  simp only [PageView.f32m, rawElt_congr h, viewF32_congr h]

theorem viewDec_congr {s s' : State} (h : s'.mem = s.mem) (v : PageView) (scale mode t r c : Nat) :
    v.dec s' scale mode t r c = v.dec s scale mode t r c := by
  simp only [PageView.dec, rawElt_congr h, scaleAt_congr h]

theorem rotCell_congr {s s' : State} (h : s'.mem = s.mem) (mat : Bool) (p : TilePage) (c : Cell) :
    rotCell mat s' p c = rotCell mat s p c := by
  simp only [rotCell, viewF32_congr h, viewF32m_congr h]

theorem cellVal_congr {s s' : State} (h : s'.mem = s.mem) (p : TilePage) (c : Cell) : cellVal s' p c = cellVal s p c := by
  simp only [cellVal, rotCell_congr h, rawElt_congr h, viewDec_congr h]

theorem cellF32_congr {s s' : State} (h : s'.mem = s.mem) (p : TilePage) (c : Cell) : cellF32 s' p c = cellF32 s p c := by
  simp only [cellF32, rotCell_congr h, rawElt_congr h, viewF32_congr h]

/-! ### What changes in memory depends on memory alone -/

theorem wrN_mem_congr {s s' : State} (h : s'.mem = s.mem) (a n x : Nat) : (wrN s' a n x).mem = (wrN s a n x).mem := by
  simp only [wrN, wrMem, h]

theorem putCell_mem_congr {s s' : State} (h : s'.mem = s.mem) (p : TilePage) (c : Cell) (x : Nat) :
    (putCell s' p c x).mem = (putCell s p c x).mem := by
  unfold putCell
  dsimp only
  split_ifs
  · exact wrN_mem_congr h ..
  · rw [rdN_congr h]; exact wrN_mem_congr h ..

/-- Two folds whose steps keep a relation keep it. -/
theorem foldl_rel {α β γ : Type} {R : α → β → Prop} {f : α → γ → α} {g : β → γ → β} {l : List γ}
    (h : ∀ x ∈ l, ∀ a b, R a b → R (f a x) (g b x)) : ∀ {a : α} {b : β}, R a b → R (l.foldl f a) (l.foldl g b) := by
  induction l with
  | nil => exact fun h => h
  | cons x l ih =>
    intro a b hab
    exact ih (fun y hy => h y (List.mem_cons_of_mem _ hy)) (h x (List.mem_cons_self ..) _ _ hab)

/-- What a drain forms together with flags has the memory of a state. -/
def MemIs (s : State) (a : State × FpFlags) : Prop := a.1.mem = s.mem

/-- An element of a tile: row and column below 64. -/
def InTile (c : Cell) : Prop := c.2.1 < 64 ∧ c.2.2 < 64

theorem inTile_blockCells {p : TilePage} {n : Nat} (hn : n < 4096 / blkLen p.blk) {c : Cell} (hc : c ∈ blockCells p n) : InTile c := by
  obtain ⟨e, he, rfl⟩ := List.mem_map.mp hc
  have heb := List.mem_range.mp he
  have hb : blkLen p.blk = 32 ∨ blkLen p.blk = 64 := by unfold blkLen; split <;> simp
  have hline : n / (64 / blkLen p.blk) < 64 ∧ n % (64 / blkLen p.blk) * blkLen p.blk + e < 64 := by
    rcases hb with hb | hb <;> rw [hb] at hn heb ⊢ <;> omega
  show InTile (if p.axis = 0 then _ else _)
  split_ifs
  · exact hline
  · exact hline.symm

theorem drainBlock_congr {s : State} {a : State × FpFlags} (h : MemIs s a) {p : TilePage} {n : Nat} (rm : Cell → Rnd)
    {vals vals' : Cell → Nat} (hv : ∀ c ∈ blockCells p n, vals' c = vals c) :
    MemIs (drainBlock s p rm vals n).1 (drainBlock a.1 p rm vals' n) := by
  have hxs : (blockCells p n).map (fun c => decodeFmt .fp32 (vals' c)) = (blockCells p n).map (fun c => decodeFmt .fp32 (vals c)) :=
    List.map_congr_left fun c hc => by rw [hv c hc]
  unfold drainBlock MemIs
  dsimp only
  rw [hxs]
  refine foldl_rel (R := fun (a b : State × FpFlags) => a.1.mem = b.1.mem) (fun e _ a b hab => ?_) (wrN_mem_congr h ..)
  split
  · exact putCell_mem_congr hab ..
  · exact putCell_mem_congr hab ..

theorem drainGroup_congr {s : State} {a : State × FpFlags} (h : MemIs s a) {p : TilePage} {n : Nat}
    {vals vals' : Cell → Nat} (hv : ∀ b < 4, ∀ c ∈ blockCells p (4 * n + b), vals' c = vals c) :
    MemIs (drainGroup s p vals n).1 (drainGroup a.1 p vals' n) := by
  have hall : ∀ l ∈ (List.range 4).map (fun b => blockCells p (4 * n + b)), ∀ c ∈ l, vals' c = vals c := by
    intro l hl c hc
    obtain ⟨b, hb, rfl⟩ := List.mem_map.mp hl
    exact hv b (List.mem_range.mp hb) c hc
  have hxs : ∀ l : List Cell, (∀ c ∈ l, vals' c = vals c) →
      l.map (fun c => decodeFmt .fp32 (vals' c)) = l.map (fun c => decodeFmt .fp32 (vals c)) :=
    fun l hl => List.map_congr_left fun c hc => by rw [hl c hc]
  have hflat := hxs _ fun c hc => by
    obtain ⟨l, hl, hcl⟩ := List.mem_flatten.mp hc
    exact hall l hl c hcl
  unfold drainGroup MemIs
  dsimp only
  rw [hflat]
  split
  · refine foldl_rel (R := fun (a b : State × FpFlags) => a.1.mem = b.1.mem) (fun e he a b hab => ?_) (wrN_mem_congr h ..)
    obtain ⟨i, hi, rfl⟩ := List.mem_mapIdx.mp he
    have hl := hall _ (List.getElem_mem hi)
    dsimp only
    rw [hxs _ hl]
    refine foldl_rel (R := fun (a b : State × FpFlags) => a.1.mem = b.1.mem) (fun c hc a b hab => ?_) (wrN_mem_congr hab ..)
    dsimp only
    rw [hl c hc]
    exact putCell_mem_congr hab ..
  · show State.mem (List.foldl _ _ _) = State.mem (List.foldl _ _ _)
    exact foldl_rel (R := fun (a b : State) => a.mem = b.mem) (fun c _ a b hab => putCell_mem_congr hab p c 7)
      (wrN_mem_congr (wrN_mem_congr h ..) ..)

theorem drainWords_congr {s s' : State} (h : s'.mem = s.mem) (p : TilePage) (cells : List Cell) :
    drainWords s' p cells = drainWords s p cells := by rw [drainWords, drainWords, h]

/-! ### Corrections in the cells that are read -/

theorem onlySoft_cellsSoft (s : State) (p : TilePage) (l : List Cell) : OnlySoft s (cellsSoft s p l) := by
  have hfold : ∀ (rs : List (Nat × Nat)) (s : State), OnlySoft s (rs.foldl (fun s r => correctSoft s r.1 r.2) s) := by
    intro rs
    induction rs with
    | nil => exact fun s => rfl
    | cons r rs ih => exact fun s => (onlySoft_correctSoft s r.1 r.2).trans (ih _)
  unfold cellsSoft
  split
  · exact rfl
  · exact hfold _ s

theorem OnlySoft.mem {s s' : State} (h : OnlySoft s s') : s'.mem = s.mem := by rw [h]

theorem OnlySoft.getCp {s s' : State} (h : OnlySoft s s') (cl p : Nat) : getCp s' cl p = getCp s cl p := by
  rw [Machine.getCp, Machine.getCp, clParts_of_onlySoft h]

theorem snapView_congr {s s' : State} (h : s'.mem = s.mem) (c : TileCmd) : (snapView s' c).mem = (snapView s c).mem := by
  simp only [snapView, h]

theorem OnlySoft.snap {s s' : State} (h : OnlySoft s s') (c : TileCmd) : (snapView s' c).mem = (snapView s c).mem :=
  snapView_congr h.mem c



/-! ### A tile command starts (R268, R276) -/

/-- A command after its start: what it did to the engine, with its own entry marked. -/
def tileStarted (cl p : Nat) (c : TileCmd) (r : TileEff) : State :=
  updTile r.st cl p c.id (fun x => { x with started := true, flags := r.flags, out := r.out, ecc := r.ecc })

/-- The command `c` of the event stands in its engine and may start. -/
def StartsNow (s : State) (c : TileCmd) : Prop :=
  s.ev.n ≠ 1 ∧ (getCp s s.ev.cl s.ev.pid).tiles.find? (fun x => x.id == s.ev.id && !x.started && decide (x.start ≤ s.cycle)) = some c

theorem tileCommandStart_on {s : State} {c : TileCmd} (h : StartsNow s c) :
    exec .tileCommandStart s = .next (tileStarted s.ev.cl s.ev.pid c (startCmd s s.ev.cl s.ev.pid c)) := by
  simp only [exec]
  unfold execTileCommandStart
  dsimp only
  rw [if_neg h.1, h.2]
  rfl

theorem StartsNow.mem {s : State} {c : TileCmd} (h : StartsNow s c) : c ∈ (getCp s s.ev.cl s.ev.pid).tiles :=
  List.mem_of_find?_eq_some h.2

theorem tileStarted_cp (cl p : Nat) (c : TileCmd) (r : TileEff) :
    getCp (tileStarted cl p c r) cl p = { getCp r.st cl p with
      tiles := listUpd (getCp r.st cl p).tiles (fun x => x.id == c.id)
        (fun x => { x with started := true, flags := r.flags, out := r.out, ecc := r.ecc }) } := getCp_updCp_same ..

theorem tileStarted_acc (cl p : Nat) (c : TileCmd) (r : TileEff) (d : Nat) :
    accGet (getCp (tileStarted cl p c r) cl p) d = accGet (getCp r.st cl p) d := by rw [tileStarted_cp]; rfl

theorem mem_listUpd {α : Type} {l : List α} {p : α → Bool} {f : α → α} {x : α} (hx : x ∈ l) (hp : p x = true) :
    f x ∈ listUpd l p f := List.mem_map.mpr ⟨x, hx, if_pos hp⟩

/-- The entry of a started command. -/
theorem mem_tileStarted {cl p : Nat} {c : TileCmd} {r : TileEff} (h : c ∈ (getCp r.st cl p).tiles) :
    { c with started := true, flags := r.flags, out := r.out, ecc := r.ecc } ∈ (getCp (tileStarted cl p c r) cl p).tiles := by
  rw [tileStarted_cp]
  exact mem_listUpd (f := fun x : TileCmd => { x with started := true, flags := r.flags, out := r.out, ecc := r.ecc }) h
    (beq_self_eq_true c.id)

/-- An effect that spoils an accumulator: it is the canonical NaN, and the command has met an error (R277). -/
theorem spoilt_of_accNan {s : State} {cl p : Nat} {c : TileCmd} {r : TileEff} {d : Nat} (hc : c ∈ (getCp s cl p).tiles)
    (hr : r = { st := updCp s cl p (fun k => accNan k d), ecc := true }) :
    (accGet (getCp (tileStarted cl p c r) cl p) d = List.replicate 4096 (BitVec.ofNat 32 (nanCode .fp32))
      ∧ ∃ x ∈ (getCp (tileStarted cl p c r) cl p).tiles, x.id = c.id ∧ x.ecc = true)
    ∧ ∀ d', d' ≠ d → accGet (getCp (tileStarted cl p c r) cl p) d' = accGet (getCp s cl p) d' := by
  subst hr
  refine ⟨⟨?_, _, mem_tileStarted ?_, rfl, rfl⟩, fun d' hd => ?_⟩
  · rw [tileStarted_acc, getCp_updCp_same, accGet_accNan_same]
  · rw [getCp_updCp_same]; exact hc
  · rw [tileStarted_acc, getCp_updCp_same, accGet_accNan_ne _ hd]

/-! ### Multiplies (R280) -/

theorem linesVals_lineCells (s : State) (p : TilePage) (al : Bool) (n kb d : Nat) :
    (linesVals s p (lineCells p.tile al n kb d)).1
      = (List.range n).map (fun x => (List.range d).map (fun j => (cellVal s p (kCell p.tile al x (kb + j))).1)) := by
  simp only [linesVals, lineCells, lineVals, List.map_map, Function.comp_def]

/-- Row `x` (or column) of an operand as a multiply reads it, `n` deep from element `kb` of the K axis on. -/
def mulLine (s : State) (p : TilePage) (al : Bool) (kb n x : Nat) : List Xr :=
  (List.range n).map (fun j => (cellVal s p (kCell p.tile al x (kb + j))).1)

theorem mulLine_congr {s s' : State} (h : s'.mem = s.mem) (p : TilePage) (al : Bool) (kb n : Nat) :
    mulLine s' p al kb n = mulLine s p al kb n := by
  funext x
  simp only [mulLine, cellVal_congr h]

/-- The cells of an operand that a multiply reads. -/
def mulCells (p : TilePage) (al : Bool) (n kb d : Nat) : List Cell := (lineCells p.tile al n kb d).flatten

/-- An accumulator that took a step: what it holds, and that the others stay. -/
theorem started_of_step {s s2 : State} {cl p : Nat} {c : TileCmd} {r : TileEff} {d mr nc : Nat} {row col : Nat → List Xr}
    (h2 : OnlySoft s s2) (hr : r.st = putCp s2 cl p (stepAcc (getCp s cl p) d ((List.range mr).map row) ((List.range nc).map col)).1) :
    SameMem s (tileStarted cl p c r)
    ∧ (∀ d', d' ≠ d → accGet (getCp (tileStarted cl p c r) cl p) d' = accGet (getCp s cl p) d')
    ∧ ∀ x y, x < 64 → y < 64 → (accGet (getCp (tileStarted cl p c r) cl p) d)[64 * x + y]? =
        if x < mr ∧ y < nc then some (stepElt ((accGet (getCp s cl p) d).getD (64 * x + y) 0) (row x) (col y)).1
        else (accGet (getCp s cl p) d)[64 * x + y]? := by
  have hcp : getCp r.st cl p = (stepAcc (getCp s cl p) d ((List.range mr).map row) ((List.range nc).map col)).1 := by
    rw [hr]; exact getCp_updCp_same s2 cl p fun _ => _
  refine ⟨fun a => ?_, fun d' hd => ?_, fun x y hx hy => ?_⟩
  · show rdCell r.st.mem a = _
    rw [hr]
    show rdCell s2.mem a = _
    rw [h2.mem]
  · rw [tileStarted_acc, hcp, accGet_stepAcc_ne _ _ _ hd]
  · rw [tileStarted_acc, hcp, accGet_stepAcc_same _ _ _ _ _ _ hx hy]

theorem startMul_pages {s : State} {cl p : Nat} {c : TileCmd} {a b : TilePage} (hp : c.pages = [a, b]) (kd : Nat) :
    let arg := fun i => (c.args.getD i 0).toNat
    let dep := min (depthOf a.fmt) (depthOf b.fmt)
    let kb := arg 2 * dep
    let n := min kd dep
    let bad := cellsBad s a (mulCells a (arg 1 == 1) (arg 3) kb dep) || cellsBad s b (mulCells b (arg 1 != 2) (arg 4) kb dep)
      || accHurt (getCp s cl p) (arg 0)
    (bad = true → startMul s cl p c kd = { st := updCp s cl p (fun k => accNan k (arg 0)), ecc := true })
    ∧ (bad = false → ∃ s2, OnlySoft s s2 ∧ (startMul s cl p c kd).st = putCp s2 cl p
        (stepAcc (getCp s cl p) (arg 0) ((List.range (arg 3)).map (mulLine (snapView s c) a (arg 1 == 1) kb n))
          ((List.range (arg 4)).map (mulLine (snapView s c) b (arg 1 != 2) kb n))).1) := by
  intro arg dep kb n bad
  refine ⟨fun hb => ?_, fun hb => ?_⟩
  · unfold startMul
    dsimp only
    rw [hp]
    exact if_pos hb
  · refine ⟨cellsSoft (cellsSoft s a (mulCells a (arg 1 == 1) (arg 3) kb dep)) b (mulCells b (arg 1 != 2) (arg 4) kb dep),
      (onlySoft_cellsSoft ..).trans (onlySoft_cellsSoft ..), ?_⟩
    have h2 : OnlySoft s (cellsSoft (cellsSoft s a (mulCells a (arg 1 == 1) (arg 3) kb dep)) b
        (mulCells b (arg 1 != 2) (arg 4) kb dep)) := (onlySoft_cellsSoft ..).trans (onlySoft_cellsSoft ..)
    rw [← mulLine_congr (h2.snap c) a, ← mulLine_congr (h2.snap c) b, ← h2.getCp cl p]
    unfold startMul
    dsimp only
    rw [hp]
    dsimp only
    refine (congrArg TileEff.st (if_neg fun e => Bool.false_ne_true (hb.symm.trans e))).trans ?_
    dsimp only
    rw [linesVals_lineCells, linesVals_lineCells]
    rfl

/-- The column of a B store that a multiply reads from the latch. -/
def latchCol (b : BStore) (kb n y : Nat) : List Xr := (List.range n).map (fun j => (latchVal b (kb + j) y).1)

theorem startMul_latch {s : State} {cl p : Nat} {c : TileCmd} {a : TilePage} (hp : c.pages = [a]) (kd : Nat) :
    let arg := fun i => (c.args.getD i 0).toNat
    let latch := (getCp s cl p).latch.getD BStore.empty
    let dep := min (depthOf a.fmt) (depthOf latch.fmt)
    let kb := arg 2 * dep
    let n := min kd dep
    let bad := cellsBad s a (mulCells a (arg 1 == 1) (arg 3) kb dep) || accHurt (getCp s cl p) (arg 0)
    (bad = true → startMul s cl p c kd = { st := updCp s cl p (fun k => accNan k (arg 0)), ecc := true })
    ∧ (bad = false → ∃ s2, OnlySoft s s2 ∧ (startMul s cl p c kd).st = putCp s2 cl p
        (stepAcc (getCp s cl p) (arg 0) ((List.range (arg 3)).map (mulLine (snapView s c) a (arg 1 == 1) kb n))
          ((List.range (arg 4)).map (latchCol latch kb n))).1) := by
  intro arg latch dep kb n bad
  have hbad : (cellsBad s a (mulCells a (arg 1 == 1) (arg 3) kb dep) || false || accHurt (getCp s cl p) (arg 0)) = bad := by
    rw [Bool.or_false]
  refine ⟨fun hb => ?_, fun hb => ?_⟩
  · unfold startMul
    dsimp only
    rw [hp]
    exact if_pos (hbad.trans hb)
  · have h2 := onlySoft_cellsSoft s a (mulCells a (arg 1 == 1) (arg 3) kb dep)
    refine ⟨_, h2, ?_⟩
    rw [← mulLine_congr (h2.snap c) a, ← h2.getCp cl p]
    unfold startMul
    dsimp only
    rw [hp]
    dsimp only
    refine (congrArg TileEff.st (if_neg fun e => Bool.false_ne_true ((hbad.trans hb).symm.trans e))).trans ?_
    dsimp only
    rw [linesVals_lineCells, List.map_map]
    simp only [Function.comp_def, List.map_map]
    rfl



/-! ### TBLATCH (R284, R285) -/

theorem tzero_start {s : State} {cl p : Nat} {c : TileCmd} {g : Guard} {a : R6} (hi : c.instr = .tzero g a) :
    startCmd s cl p c = if accHurt (getCp s cl p) (c.acc.getD 0) then
        { st := updCp s cl p (fun k => accNan k (c.acc.getD 0)), ecc := true }
      else { st := updCp s cl p (fun k => accPut k (c.acc.getD 0) []) } := by rw [startCmd, hi]

/-- The latch after a command that loaded it. -/
theorem latch_of_load {s s2 : State} {cl p : Nat} {c : TileCmd} {r : TileEff} {l : BStore} (h2 : OnlySoft s s2)
    (hr : r.st = updCp s2 cl p (fun k => { k with latch := some l })) :
    SameMem s (tileStarted cl p c r) ∧ (getCp (tileStarted cl p c r) cl p).latch = some l := by
  refine ⟨fun a => ?_, ?_⟩
  · show rdCell r.st.mem a = _
    rw [hr]
    show rdCell s2.mem a = _
    rw [h2.mem]
  · rw [tileStarted_cp, hr, getCp_updCp_same]

/-- The B store that a latch load from a page begins with. -/
def latchBase (pg : TilePage) : BStore := { BStore.empty with fmt := pg.fmt, blk := pg.blk, axis := pg.axis }

theorem startLatch_bad {s : State} {cl p : Nat} {c : TileCmd} {pg : TilePage} {tr : Bool} (hp : c.pages = [pg])
    (hb : cellsBad s pg (latchCells pg tr) = true) :
    startLatch s cl p c 0 tr = { st := updCp s cl p (fun k => { k with latch := some { latchBase pg with nan := true } }), ecc := true } := by
  unfold startLatch
  dsimp only
  rw [hp]
  exact if_pos hb

/-- A latch load of a page without ROPE takes its containers and scales as they stand (R285). -/
theorem startLatch_plain {s : State} {cl p : Nat} {c : TileCmd} {pg : TilePage} {tr : Bool} (hp : c.pages = [pg])
    (hb : cellsBad s pg (latchCells pg tr) = false) (hr : pg.rope = none) :
    ∃ s2, OnlySoft s s2 ∧ (startLatch s cl p c 0 tr).st = updCp s2 cl p (fun k => { k with latch := some { latchBase pg with
      elts := (latchCells pg tr).map (fun e => rawElt (snapView s c) pg.phys pg.w e.1 pg.mode e.2.1 e.2.2)
      scales := if pg.blk = 0 then [] else
        (latchCells pg tr).map (fun e => scaleAt (snapView s c) pg.scale pg.blk (pg.view.block e.1 e.2.1 e.2.2)) } }) := by
  have h2 := onlySoft_cellsSoft s pg (latchCells pg tr)
  refine ⟨_, h2, ?_⟩
  simp only [← rawElt_congr (h2.snap c), ← scaleAt_congr (h2.snap c)]
  unfold startLatch
  dsimp only
  rw [hp]
  dsimp only
  rw [hr]
  exact congrArg TileEff.st (if_neg fun e => Bool.false_ne_true (hb.symm.trans e))

/-- A latch load of a ROPE page rotates its elements (R285, R301). -/
theorem startLatch_rope {s : State} {cl p : Nat} {c : TileCmd} {pg : TilePage} {tr : Bool} (hp : c.pages = [pg])
    (hb : cellsBad s pg (latchCells pg tr) = false) (hr : pg.rope ≠ none) :
    ∃ s2, OnlySoft s s2 ∧ (startLatch s cl p c 0 tr).st = updCp s2 cl p (fun k => { k with latch := some { latchBase pg with
      elts := (latchCells pg tr).map (fun e => (rnF32 (cellVal (snapView s c) pg e).1).1), rot := true } }) := by
  have h2 := onlySoft_cellsSoft s pg (latchCells pg tr)
  refine ⟨_, h2, ?_⟩
  simp only [← cellVal_congr (h2.snap c)]
  unfold startLatch
  dsimp only
  rw [hp]
  dsimp only
  refine (congrArg TileEff.st (if_neg fun e => Bool.false_ne_true (hb.symm.trans e))).trans ?_
  refine (congrArg TileEff.st (if_pos (Option.isSome_iff_ne_none.mpr hr))).trans ?_
  dsimp only
  rw [List.map_map]
  rfl

/-- What a send to a neighbour carries: the latch, tagged and fresh (R284). -/
def sentStore (k : ClPart) (c : TileCmd) : BStore :=
  { k.latch.getD BStore.empty with tag := (c.args.getD 0 0).toNat % 2 ^ 16, fresh := true }

theorem startLatch_send (s : State) (cl p : Nat) (c : TileCmd) (west tr : Bool) :
    (startLatch s cl p c (if west then 2 else 1) tr).st = updCp s (ringNext cl west) p
      (fun k => { k with ring := k.ring ++ [(c.start + 24, (if west then 1 else 0), sentStore (getCp s cl p) c)] }) := by
  cases west <;> rfl

theorem sent_of_startLatch (s : State) (cl p : Nat) (c : TileCmd) (west tr : Bool) :
    let s' := tileStarted cl p c (startLatch s cl p c (if west then 2 else 1) tr)
    SameMem s s' ∧ (ringNext cl west ≠ cl → (getCp s' (ringNext cl west) p).ring
      = (getCp s (ringNext cl west) p).ring ++ [(c.start + 24, (if west then 1 else 0), sentStore (getCp s cl p) c)]) := by
  intro s'
  refine ⟨fun a => ?_, fun hne => ?_⟩
  · show rdCell (startLatch s cl p c (if west then 2 else 1) tr).st.mem a = _
    rw [startLatch_send]; rfl
  · have hk : cpKey (ringNext cl west) p ≠ cpKey cl p := by unfold cpKey; omega
    show (getCp (updCp _ cl p _) (ringNext cl west) p).ring = _
    rw [getCp_updCp_ne _ _ hk, startLatch_send, getCp_updCp_same]

theorem writeReg_g_running {s : State} {n : Nat} {t : Strand} (h : tabGet s.strands n = some t) (pid r x : Nat) :
    writeReg s t.task.id pid (.g r) x = updRunning s t.task.id (fun t =>
      if r = 0 then t else { t with g := t.g.set (r % 64) (BitVec.ofNat 64 x) (by omega) }) := by
  unfold writeReg
  exact updTask_running h _ _ _

/-- The inbound buffer that a TBLATCH with SRC 3 or 4 takes. -/
def takenBox (k : ClPart) (west : Bool) : BStore := (if west then k.ie else k.iw).getD BStore.empty

/-- Taking an inbound buffer: the latch holds it, it is no longer fresh, and the register takes its tag (R285). -/
def takeBox (b : BStore) (west : Bool) (k : ClPart) : ClPart :=
  if west then { k with latch := some { b with fresh := false }, ie := some { b with fresh := false } }
  else { k with latch := some { b with fresh := false }, iw := some { b with fresh := false } }

def boxTaken (s : State) (cl p : Nat) (west : Bool) : State := updCp s cl p (takeBox (takenBox (getCp s cl p) west) west)

theorem startLatch_take (s : State) (cl p : Nat) (c : TileCmd) (west tr : Bool) :
    (startLatch s cl p c (if west then 4 else 3) tr).st = writeReg (boxTaken s cl p west) c.task p (.g (c.args.getD 0 0).toNat)
      ((if (takenBox (getCp s cl p) west).fresh then 2 ^ 16 else 0) + (takenBox (getCp s cl p) west).tag) := by
  cases west <;> rfl

theorem taken_of_startLatch {s : State} {n : Nat} {t : Strand} {c : TileCmd} (cl p : Nat) (west tr : Bool)
    (ht : tabGet s.strands n = some t) (hc : t.task.id = c.task) :
    let k := getCp s cl p
    let b := takenBox k west
    let s' := tileStarted cl p c (startLatch s cl p c (if west then 4 else 3) tr)
    SameMem s s' ∧ (getCp s' cl p).latch = some { b with fresh := false }
      ∧ (getCp s' cl p).ie = (if west then some { b with fresh := false } else k.ie)
      ∧ (getCp s' cl p).iw = (if west then k.iw else some { b with fresh := false })
      ∧ ∃ t', tabGet s'.strands n = some t' ∧ t'.v = t.v ∧ ∀ r : Fin 64, t'.g[r]
          = if r.val = (c.args.getD 0 0).toNat % 64 ∧ (c.args.getD 0 0).toNat ≠ 0 then
              BitVec.ofNat 64 ((if b.fresh then 2 ^ 16 else 0) + b.tag) else t.g[r] := by
  intro k b s'
  have hst := startLatch_take s cl p c west tr
  rw [← hc, writeReg_g_running (s := boxTaken s cl p west) (n := n) ht] at hst
  have hcp : getCp (startLatch s cl p c (if west then 4 else 3) tr).st cl p = getCp (boxTaken s cl p west) cl p := by
    rw [hst]; rfl
  have hbox : getCp (boxTaken s cl p west) cl p = takeBox b west k := getCp_updCp_same ..
  refine ⟨fun a => ?_, ?_, ?_, ?_, ?_⟩
  · show rdCell (startLatch s cl p c (if west then 4 else 3) tr).st.mem a = _
    rw [hst]; rfl
  · rw [tileStarted_cp, hcp, hbox]; cases west <;> rfl
  · rw [tileStarted_cp, hcp, hbox]; cases west <;> rfl
  · rw [tileStarted_cp, hcp, hbox]; cases west <;> rfl
  · have hs : s'.strands = (startLatch s cl p c (if west then 4 else 3) tr).st.strands := rfl
    rw [hs, hst, updRunning_strand, show tabGet (boxTaken s cl p west).strands n = some t from ht, Option.map_some, updStrand,
      if_pos (beq_self_eq_true _)]
    refine ⟨_, rfl, ?_, fun r => ?_⟩
    · split_ifs <;> rfl
    · by_cases h0 : (c.args.getD 0 0).toNat = 0
      · rw [if_pos h0, if_neg fun e => e.2 h0]
      · rw [if_neg h0]
        by_cases hr : r.val = (c.args.getD 0 0).toNat % 64
        · rw [if_pos (show r.val = (c.args.getD 0 0).toNat % 64 ∧ (c.args.getD 0 0).toNat ≠ 0 from ⟨hr, h0⟩)]
          simp only [Fin.getElem_fin, hr, Vector.getElem_set_self, b, k]
        · rw [if_neg (show ¬(r.val = (c.args.getD 0 0).toNat % 64 ∧ (c.args.getD 0 0).toNat ≠ 0) from fun e => hr e.1)]
          simp only [Fin.getElem_fin]
          exact Vector.getElem_set_ne _ _ (fun e => hr e.symm)



/-! ### Drains form their values (R287-R289) -/

/-- The rounding of a drain's element. -/
def drainRnd (rmc : Nat) (seed coord : Word) (e : Cell) : Rnd :=
  if rmc = 5 then Rnd.sr (cbg seed 2 (bits coord 32 32 + BitVec.ofNat 32 e.2.2) (bits coord 0 32 + BitVec.ofNat 32 e.2.1))
  else rndOf rmc

/-- The bias of column `j`. -/
def drainBias (s : State) (bp : Option TilePage) (va j : Nat) : Nat :=
  match bp with
  | some b => (cellF32 s b ((biasCells b va).getD j (0, 0, 0))).1
  | none => 0

/-- The residual of an element. -/
def drainRes (s : State) (rp : Option TilePage) (i j : Nat) : Nat :=
  match rp with
  | some r => (cellF32 s r (r.tile, i, j)).1
  | none => 0

/-- The state that holds all words of a drain (R289). -/
def drainFull (s : State) (tp : TilePage) (mr nc : Nat) (rm : Cell → Rnd) (sat : Bool) (val : Cell → Nat) : State :=
  if tp.blk = 0 then (rectCells tp.tile mr nc).foldl (fun m e =>
    putCell m tp e (conv (decodeFmt .fp32 (val e)) (fmtOfCode tp.fmt) (rm e) sat).1) s
  else if tp.blk = 3 then (List.range 16).foldl (fun m n => (drainGroup m tp val n).1) s
  else (List.range (4096 / blkLen tp.blk)).foldl (fun m n => (drainBlock m tp rm val n).1) s

/-- The same with the flags that its conversions raise. -/
def drainFlagged (s : State) (tp : TilePage) (mr nc : Nat) (rm : Cell → Rnd) (sat : Bool) (val : Cell → Nat) : State × FpFlags :=
  if tp.blk = 0 then
    (rectCells tp.tile mr nc).foldl (fun a e =>
      let r := conv (decodeFmt .fp32 (val e)) (fmtOfCode tp.fmt) (rm e) sat
      (putCell a.1 tp e r.1, a.2 ||| r.2)) (s, 0)
  else if tp.blk = 3 then
    (List.range 16).foldl (fun a n => let r := drainGroup a.1 tp val n; (r.1, a.2 ||| r.2)) (s, 0)
  else
    (List.range (4096 / blkLen tp.blk)).foldl
      (fun a n => let r := drainBlock a.1 tp rm val n; (r.1, a.2 ||| r.2)) (s, 0)

theorem mem_rectCells {tile mr nc : Nat} {e : Cell} (h : e ∈ rectCells tile mr nc) : e.2.1 < mr ∧ e.2.2 < nc := by
  obtain ⟨i, hi, he⟩ := List.mem_flatMap.mp h
  obtain ⟨j, hj, rfl⟩ := List.mem_map.mp he
  exact ⟨List.mem_range.mp hi, List.mem_range.mp hj⟩

/-- What a drain writes depends on memory and on the values inside its rectangle. -/
theorem drainFlagged_mem {s s2 : State} (h : s2.mem = s.mem) {tp : TilePage} {mr nc : Nat} (rm : Cell → Rnd) (sat : Bool)
    {val val' : Cell → Nat} (hb : tp.blk ≠ 0 → mr = 64 ∧ nc = 64) (hv : ∀ e : Cell, e.2.1 < mr → e.2.2 < nc → val' e = val e) :
    MemIs (drainFull s tp mr nc rm sat val) (drainFlagged s2 tp mr nc rm sat val') := by
  have hin : tp.blk ≠ 0 → ∀ e, InTile e → val' e = val e := fun h0 e he => by
    obtain ⟨rfl, rfl⟩ := hb h0
    exact hv e he.1 he.2
  unfold drainFull drainFlagged
  by_cases h0 : tp.blk = 0
  · rw [if_pos h0, if_pos h0]
    refine foldl_rel (R := fun (a : State × FpFlags) (b : State) => MemIs b a) (fun e he a b hab => ?_) h
    obtain ⟨h1, h2⟩ := mem_rectCells he
    rw [hv e h1 h2]
    exact putCell_mem_congr hab ..
  · rw [if_neg h0, if_neg h0]
    by_cases h3 : tp.blk = 3
    · rw [if_pos h3, if_pos h3]
      refine foldl_rel (R := fun (a : State × FpFlags) (b : State) => MemIs b a) (fun n hn a b hab => ?_) h
      have hn := List.mem_range.mp hn
      refine drainGroup_congr hab fun i hi c hc => hin h0 c (inTile_blockCells (p := tp) ?_ hc)
      rw [h3, show 4096 / blkLen 3 = 64 from rfl]
      omega
    · rw [if_neg h3, if_neg h3]
      refine foldl_rel (R := fun (a : State × FpFlags) (b : State) => MemIs b a) (fun n hn a b hab => ?_) h
      exact drainBlock_congr hab rm fun c hc => hin h0 c (inTile_blockCells (List.mem_range.mp hn) hc)

/-- The flagged value of each element of a drain. -/
def drainVals (acc : List (BitVec 32)) (mr nc opt : Nat) (gs gseed gdrop gcoord : Word) (bias : List (Nat × FpFlags))
    (res : Nat → Nat → Nat × FpFlags) : List (Nat × FpFlags) :=
  acc.mapIdx (fun n x =>
    let i := n / 64
    let j := n % 64
    if i < mr ∧ j < nc then
      let b := bias.getD j (0, 0)
      let r := res i j
      let e := epilogue opt gs gseed gdrop gcoord x.toNat b.1 r.1 i j
      (e.1, e.2 ||| b.2 ||| r.2)
    else (0, 0))

theorem drainVals_at {acc : List (BitVec 32)} {mr nc : Nat} {opt : Nat} {gs gseed gdrop gcoord : Word} {bias : List (Nat × FpFlags)}
    {res : Nat → Nat → Nat × FpFlags} (hacc : acc.length = 4096) (hm : mr ≤ 64) (hn : nc ≤ 64) {i j : Nat} (hi : i < mr) (hj : j < nc) :
    ((drainVals acc mr nc opt gs gseed gdrop gcoord bias res).map (·.1)).getD (64 * i + j) 0
      = (epilogue opt gs gseed gdrop gcoord (acc.getD (64 * i + j) 0).toNat (bias.getD j (0, 0)).1 (res i j).1 i j).1 := by
  have hlt : 64 * i + j < acc.length := by omega
  have h1 : (64 * i + j) / 64 = i := by omega
  have h2 : (64 * i + j) % 64 = j := by omega
  rw [List.getD_eq_getElem?_getD, List.getElem?_map, drainVals, List.getElem?_mapIdx, List.getElem?_eq_getElem hlt]
  simp only [Option.map_some, Option.getD_some, h1, h2]
  rw [if_pos ⟨hi, hj⟩, List.getD_eq_getElem?_getD (l := acc), List.getElem?_eq_getElem hlt, Option.getD_some]

/-- The bias elements as a drain reads them. -/
def biasList (s : State) (bp : Option TilePage) (va : Nat) : List (Nat × FpFlags) :=
  match bp with
  | some b => (biasCells b va).map (cellF32 s b)
  | none => []

theorem biasList_at {s s2 : State} (h : s2.mem = s.mem) (bp : Option TilePage) (va : Nat) {j : Nat} (hj : j < 64) :
    ((biasList s2 bp va).getD j (0, 0)).1 = drainBias s bp va j := by
  cases bp with
  | none => rfl
  | some b =>
    have hlt : j < (biasCells b va).length := by rw [biasCells, List.length_map, List.length_range]; exact hj
    simp only [biasList, drainBias, List.getD_eq_getElem?_getD, List.getElem?_map, List.getElem?_eq_getElem hlt, Option.map_some,
      Option.getD_some, cellF32_congr h]

/-- The residuals as a drain reads them. -/
def resAt (s : State) (rp : Option TilePage) (i j : Nat) : Nat × FpFlags :=
  match rp with
  | some r => cellF32 s r (r.tile, i, j)
  | none => (0, (0 : FpFlags))

theorem resAt_value {s s2 : State} (h : s2.mem = s.mem) (rp : Option TilePage) (i j : Nat) : (resAt s2 rp i j).1 = drainRes s rp i j := by
  cases rp with
  | none => rfl
  | some r => simp only [resAt, drainRes, cellF32_congr h]

/-- The pages of bias and residual that a drain's options name. -/
def biasPage (opt : Nat) (rest : List TilePage) : Option TilePage := if opt / 8 % 2 = 1 then rest.head? else none
def resPage (opt : Nat) (rest : List TilePage) : Option TilePage := if opt / 16 % 2 = 1 then rest.getLast? else none

/-- A drain meets an uncorrectable error (R277). -/
def drainBad (s : State) (k : ClPart) (c : TileCmd) (rest : List TilePage) : Bool :=
  let arg := fun i => (c.args.getD i 0).toNat
  (biasPage (arg 6) rest).any (fun b => cellsBad s b (biasCells b (arg 3)))
    || (resPage (arg 6) rest).any (fun r => cellsBad s r (rectCells r.tile (arg 1) (arg 2))) || accHurt k (arg 0)

/-- The state after the corrections in a drain's operands. -/
def drainRead (s : State) (c : TileCmd) (rest : List TilePage) : State :=
  let arg := fun i => (c.args.getD i 0).toNat
  let s := match biasPage (arg 6) rest with | some b => cellsSoft s b (biasCells b (arg 3)) | none => s
  match resPage (arg 6) rest with | some r => cellsSoft s r (rectCells r.tile (arg 1) (arg 2)) | none => s

theorem onlySoft_drainRead (s : State) (c : TileCmd) (rest : List TilePage) : OnlySoft s (drainRead s c rest) := by
  unfold drainRead
  dsimp only
  have h1 : ∀ o : Option TilePage, ∀ f : TilePage → List Cell, ∀ s : State,
      OnlySoft s (match o with | some b => cellsSoft s b (f b) | none => s) := fun o f s => by
    cases o with
    | none => exact rfl
    | some b => exact onlySoft_cellsSoft s b (f b)
  exact (h1 _ (fun b => biasCells b _) s).trans (h1 _ (fun r => rectCells r.tile _ _) _)

theorem startDrain_eq {s : State} {cl p : Nat} {c : TileCmd} {tp : TilePage} {rest : List TilePage} (hp : c.pages = tp :: rest) :
    let arg := fun i => c.args.getD i 0
    let s2 := drainRead s c rest
    let xs := drainVals (accGet (getCp s2 cl p) (arg 0).toNat) (arg 1).toNat (arg 2).toNat (arg 6).toNat (arg 7) (arg 8) (arg 9) (arg 10)
      (biasList s2 (biasPage (arg 6).toNat rest) (arg 3).toNat) (resAt s2 (resPage (arg 6).toNat rest))
    let out := drainFlagged s2 tp (arg 1).toNat (arg 2).toNat (drainRnd (arg 4).toNat (arg 8) (arg 10)) (arg 5 != 0)
      (fun e => (xs.map (·.1)).getD (64 * e.2.1 + e.2.2) 0)
    startDrain s cl p c = if drainBad s (getCp s cl p) c rest then { st := s, ecc := true }
      else { st := s2, flags := xs.foldl (fun f x => f ||| x.2) 0 ||| out.2,
             out := drainWords out.1 tp (rectCells tp.tile (arg 1).toNat (arg 2).toNat) } := by
  intro arg s2 xs out
  unfold startDrain
  dsimp only
  rw [hp]
  simp only [xs, out, s2, arg, drainBad, drainRead]
  rw [show (if (c.args.getD 6 0).toNat / 8 % 2 = 1 then rest.head? else none) = biasPage (c.args.getD 6 0).toNat rest from rfl,
    show (if (c.args.getD 6 0).toNat / 16 % 2 = 1 then rest.getLast? else none) = resPage (c.args.getD 6 0).toNat rest from rfl]
  cases biasPage (c.args.getD 6 0).toNat rest <;> cases resPage (c.args.getD 6 0).toNat rest <;> rfl



theorem startDrain_bad {s : State} {cl p : Nat} {c : TileCmd} {tp : TilePage} {rest : List TilePage} (hp : c.pages = tp :: rest)
    (hb : drainBad s (getCp s cl p) c rest = true) : startDrain s cl p c = { st := s, ecc := true } := by
  rw [startDrain_eq hp, if_pos hb]

/-- A drain of operands without an uncorrectable error: the words that hold its encoded values are to be written (R288, R289). -/
theorem startDrain_words {s : State} {cl p : Nat} {c : TileCmd} {tp : TilePage} {rest : List TilePage} (hp : c.pages = tp :: rest)
    (hm : (c.args.getD 1 0).toNat ≤ 64) (hn : (c.args.getD 2 0).toNat ≤ 64)
    (hblk : tp.blk ≠ 0 → (c.args.getD 1 0).toNat = 64 ∧ (c.args.getD 2 0).toNat = 64)
    (hb : drainBad s (getCp s cl p) c rest = false) :
    let arg := fun i => c.args.getD i 0
    let full := drainFull s tp (arg 1).toNat (arg 2).toNat (drainRnd (arg 4).toNat (arg 8) (arg 10)) (arg 5 != 0)
      (fun e => (epilogue (arg 6).toNat (arg 7) (arg 8) (arg 9) (arg 10)
        ((accGet (getCp s cl p) (arg 0).toNat).getD (64 * e.2.1 + e.2.2) 0).toNat
        (drainBias s (biasPage (arg 6).toNat rest) (arg 3).toNat e.2.2)
        (drainRes s (resPage (arg 6).toNat rest) e.2.1 e.2.2) e.2.1 e.2.2).1)
    OnlySoft s (startDrain s cl p c).st ∧ (startDrain s cl p c).ecc = false
      ∧ (startDrain s cl p c).out = drainWords full tp (rectCells tp.tile (arg 1).toNat (arg 2).toNat) := by
  intro arg full
  have h2 := onlySoft_drainRead s c rest
  rw [startDrain_eq hp, if_neg fun e => Bool.false_ne_true (hb.symm.trans e)]
  refine ⟨h2, rfl, drainWords_congr (drainFlagged_mem h2.mem _ _ hblk fun e h3 h4 => ?_) ..⟩
  dsimp only
  rw [drainVals_at (accGet_length _ _) hm hn h3 h4, biasList_at h2.mem _ _ (by omega), resAt_value h2.mem, h2.getCp]

/-! ### The words of a drain reach memory (R289, R367) -/

/-- A drain's words as writes. -/
def drainWrites (l : List (Nat × List Byte)) : List (Nat × Nat × List Byte) := l.map (fun e => (0, e))

/-- What putting words does: memory takes them, and of the engine only operand copies change. -/
theorem putWords_mem (s : State) (cl p : Nat) (c : TileCmd) (l : List (Nat × List Byte)) :
    (putWords s cl p c l).mem = dueMem s.mem (drainWrites l) := by
  induction l generalizing s with
  | nil => rfl
  | cons e l ih =>
    refine (ih (updCp (wrMem s e.1 e.2) cl p (fun k => { k with
      tiles := listUpd k.tiles (fun x => x.sid == c.sid && decide (c.id < x.id))
        (fun x => { x with snap := x.snap.map (patchSnap e.1 e.2) }) }))).trans ?_
    rfl

/-- A command of the engine that differs from one of `l` in its operand copies alone. -/
def SnapOf (l : List TileCmd) (x : TileCmd) : Prop := ∃ y ∈ l, ∃ sn, x = { y with snap := sn }

theorem putWords_tiles (s : State) (cl p : Nat) (c : TileCmd) (l : List (Nat × List Byte)) :
    (∀ x ∈ (getCp (putWords s cl p c l) cl p).tiles, SnapOf (getCp s cl p).tiles x)
    ∧ (c ∈ (getCp s cl p).tiles → c ∈ (getCp (putWords s cl p c l) cl p).tiles) := by
  induction l generalizing s with
  | nil => exact ⟨fun x hx => ⟨x, hx, x.snap, rfl⟩, fun h => h⟩
  | cons e l ih =>
    obtain ⟨h1, h2⟩ := ih (updCp (wrMem s e.1 e.2) cl p (fun k => { k with
      tiles := listUpd k.tiles (fun x => x.sid == c.sid && decide (c.id < x.id))
        (fun x => { x with snap := x.snap.map (patchSnap e.1 e.2) }) }))
    rw [getCp_updCp_same] at h1 h2
    refine ⟨fun x hx => ?_, fun h => h2 ?_⟩
    · obtain ⟨y, hy, sn, rfl⟩ := h1 x hx
      obtain ⟨z, hz, rfl⟩ := List.mem_map.mp hy
      refine ⟨z, hz, sn, ?_⟩
      split_ifs <;> rfl
    · refine List.mem_map.mpr ⟨c, h, if_neg ?_⟩
      rw [Bool.and_eq_true, decide_eq_true_iff]
      exact fun h => Nat.lt_irrefl _ h.2

theorem putWords_cycle (s : State) (cl p : Nat) (c : TileCmd) (l : List (Nat × List Byte)) : (putWords s cl p c l).cycle = s.cycle := by
  induction l generalizing s with
  | nil => rfl
  | cons e l ih => exact ih _

/-- One word of a drain under way (R367). -/
theorem drainWord_writes {s : State} {cl p : Nat} {c : TileCmd} (hinv : s.Inv) (hc : c ∈ (getCp s cl p).tiles) (ho : c.out ≠ []) :
    ∃ e ∈ c.out, SameMemBut e.1 e.2.length s (drainWord s cl p c) ∧ rdBytes (drainWord s cl p c).mem e.1 e.2.length = e.2
      ∧ ∃ l r, c.out = l ++ e :: r ∧ ∃ x ∈ (getCp (drainWord s cl p c) cl p).tiles, x.id = c.id ∧ x.out = l ++ r := by
  have hlen : 0 < c.out.length := List.length_pos_iff.mpr ho
  have hi : Config.freeNat s.nfree % c.out.length < c.out.length := Nat.mod_lt _ hlen
  obtain ⟨i, hdef⟩ : ∃ i, Config.freeNat s.nfree % c.out.length = i := ⟨_, rfl⟩
  rw [hdef] at hi
  have htake : (c.out.drop i).take 1 = [c.out[i]] := by rw [List.drop_eq_getElem_cons hi]; rfl
  obtain ⟨s1, hs1⟩ : ∃ s1, putWords { s with nfree := s.nfree + 1 } cl p c [c.out[i]] = s1 := ⟨_, rfl⟩
  have hd : drainWord s cl p c = updTile s1 cl p c.id (fun x => { x with out := c.out.eraseIdx i }) := by
    rw [← hs1, ← htake, ← hdef]; rfl
  have hmem : (drainWord s cl p c).mem = wrBytes s.mem c.out[i].1 c.out[i].2 := by
    rw [hd, ← hs1]; exact putWords_mem _ cl p c [c.out[i]]
  have hc1 : c ∈ (getCp s1 cl p).tiles := by rw [← hs1]; exact (putWords_tiles _ cl p c [c.out[i]]).2 hc
  refine ⟨c.out[i], List.getElem_mem hi, fun b hb => ?_, ?_, c.out.take i, c.out.drop (i + 1), ?_, ?_⟩
  · rw [hmem, rdCell_wrBytes _ _ _ _ hinv.1, if_neg (by omega)]
  · rw [hmem, rdBytes_wrBytes_same hinv.1]
  · rw [← List.drop_eq_getElem_cons hi, List.take_append_drop]
  · refine ⟨{ c with out := c.out.eraseIdx i }, ?_, rfl, List.eraseIdx_eq_take_drop_succ ..⟩
    rw [hd, updTile, getCp_updCp_same]
    exact mem_listUpd (f := fun x : TileCmd => { x with out := c.out.eraseIdx i }) hc1 (beq_self_eq_true c.id)

theorem tileCommandStart_word {s : State} {c : TileCmd} (hn : s.ev.n = 1)
    (hf : (getCp s s.ev.cl s.ev.pid).tiles.find? (fun x => x.id == s.ev.id && drainGoing s x) = some c) :
    exec .tileCommandStart s = .next (drainWord s s.ev.cl s.ev.pid c) := by
  simp only [exec]
  unfold execTileCommandStart
  dsimp only
  rw [if_pos hn, hf]

/-! ### A batch commits (R272, R277) -/

/-- A command whose batch has committed: its flags reach its strand, and an error it met is owed (R277). -/
def commitOne (p : Nat) (s : State) (c : TileCmd) : State :=
  let s := if c.flags = 0 then s else addFlags s c.task p c.flags
  if c.ecc then { s with owed := s.owed ++ [(c.task, c.pc, c.word0)] } else s

/-- Drains past their completion point have written all their words. -/
def drainsDone (s : State) : State :=
  ((getCp s s.ev.cl s.ev.pid).tiles.filter (drainOver s)).foldl
    (fun s1 c => updTile (putWords s1 s.ev.cl s.ev.pid c c.out) s.ev.cl s.ev.pid c.id (fun x => { x with out := [] })) s

theorem tileBatchCommit_on (s : State) : exec .tileBatchCommit s = .next
    (((getCp (drainsDone s) s.ev.cl s.ev.pid).tiles.filter (commitDue (drainsDone s))).foldl (commitOne s.ev.pid)
      (updCp (drainsDone s) s.ev.cl s.ev.pid (fun k => { k with tiles := k.tiles.filter (fun c => !commitDue (drainsDone s) c) }))) := by
  simp only [exec]
  rfl

theorem addFlags_running {s : State} {n : Nat} {t : Strand} (h : tabGet s.strands n = some t) (pid : Nat) (f : FpFlags) :
    addFlags s t.task.id pid f = updRunning s t.task.id (fun t => { t with flags := t.flags ||| f }) := updTask_running h _ _ _

/-- The flags of a committed command reach its strand and nothing else. -/
def commitFlags (p : Nat) (s : State) (c : TileCmd) : State := if c.flags = 0 then s else addFlags s c.task p c.flags

theorem commitFlags_spec {s : State} {n : Nat} {t : Strand} {c : TileCmd} (p : Nat) (ht : tabGet s.strands n = some t)
    (hc : t.task.id = c.task) :
    commitFlags p s c = { s with strands := (commitFlags p s c).strands }
    ∧ tabGet (commitFlags p s c).strands n = some { t with flags := t.flags ||| c.flags } := by
  unfold commitFlags
  by_cases hf : c.flags = 0
  · rw [if_pos hf, hf, show t.flags ||| 0 = t.flags from BitVec.or_zero]
    exact ⟨rfl, ht⟩
  · rw [if_neg hf, ← hc, addFlags_running ht, updRunning_strand, ht, Option.map_some, updStrand, if_pos (beq_self_eq_true _)]
    exact ⟨rfl, rfl⟩

theorem commitOne_eq (p : Nat) (s : State) (c : TileCmd) : commitOne p s c =
    if c.ecc then { commitFlags p s c with owed := (commitFlags p s c).owed ++ [(c.task, c.pc, c.word0)] } else commitFlags p s c := rfl

/-- What the commit of a command leaves, and what its strand takes. -/
theorem commitOne_spec {s : State} {n : Nat} {t : Strand} {c : TileCmd} (p : Nat) (ht : tabGet s.strands n = some t)
    (hc : t.task.id = c.task) :
    (commitOne p s c).clParts = s.clParts ∧ (commitOne p s c).mem = s.mem
    ∧ (commitOne p s c).owed = s.owed ++ (if c.ecc then [(c.task, c.pc, c.word0)] else [])
    ∧ tabGet (commitOne p s c).strands n = some { t with flags := t.flags ||| c.flags } := by
  obtain ⟨hs, hstrand⟩ := commitFlags_spec p ht hc
  rw [commitOne_eq]
  generalize commitFlags p s c = s1 at hs hstrand
  cases c.ecc with
  | false => exact ⟨by rw [hs]; rfl, by rw [hs]; rfl, by rw [hs]; exact (List.append_nil _).symm, hstrand⟩
  | true => exact ⟨by rw [hs]; rfl, by rw [hs]; rfl, by rw [hs]; rfl, hstrand⟩

theorem drainsDone_none {s : State} (h : (getCp s s.ev.cl s.ev.pid).tiles.filter (drainOver s) = []) : drainsDone s = s := by
  rw [drainsDone, h]; rfl

/-- One drain that is past its completion point. -/
theorem drainsDone_one {s : State} {c : TileCmd} (h : (getCp s s.ev.cl s.ev.pid).tiles.filter (drainOver s) = [c]) :
    drainsDone s = updTile (putWords s s.ev.cl s.ev.pid c c.out) s.ev.cl s.ev.pid c.id (fun x => { x with out := [] }) := by
  rw [drainsDone, h]; rfl

/-- The commit with one drain over and no command to commit. -/
theorem tileBatchCommit_drain {s : State} {c : TileCmd} (h : (getCp s s.ev.cl s.ev.pid).tiles.filter (drainOver s) = [c])
    (hd : (getCp s s.ev.cl s.ev.pid).tiles.filter (commitDue s) = []) :
    ∃ s', exec .tileBatchCommit s = .next s' ∧ s'.mem = dueMem s.mem (drainWrites c.out)
      ∧ ∀ x ∈ (getCp s' s.ev.cl s.ev.pid).tiles, x.id = c.id → x.out = [] := by
  have hone := drainsDone_one h
  have htiles : ∀ x ∈ (getCp (drainsDone s) s.ev.cl s.ev.pid).tiles, (x.id = c.id → x.out = []) ∧ commitDue (drainsDone s) x = false := by
    intro x hx
    have hcy : (drainsDone s).cycle = s.cycle := by rw [hone]; exact putWords_cycle ..
    rw [hone, updTile, getCp_updCp_same] at hx
    obtain ⟨y, hy, rfl⟩ := List.mem_map.mp hx
    obtain ⟨z, hz, sn, rfl⟩ := (putWords_tiles s s.ev.cl s.ev.pid c c.out).1 y hy
    have hnot : commitDue s z = false := Bool.eq_false_iff.mpr (List.filter_eq_nil_iff.mp hd z hz)
    have hdue : commitDue (drainsDone s) z = false := by rw [← hnot, commitDue, commitDue, hcy]
    by_cases hid : z.id = c.id
    · rw [if_pos (beq_iff_eq.mpr hid)]
      exact ⟨fun _ => rfl, hdue⟩
    · rw [if_neg fun e => hid (beq_iff_eq.mp e)]
      exact ⟨fun e => absurd e hid, hdue⟩
  have hnone : (getCp (drainsDone s) s.ev.cl s.ev.pid).tiles.filter (commitDue (drainsDone s)) = [] :=
    List.filter_eq_nil_iff.mpr fun x hx => by rw [(htiles x hx).2]; exact Bool.false_ne_true
  have hx := tileBatchCommit_on s
  rw [hnone] at hx
  refine ⟨_, hx, ?_, fun x hx => ?_⟩
  · show (drainsDone s).mem = _
    rw [hone]; exact putWords_mem ..
  · rw [List.foldl_nil, getCp_updCp_same] at hx
    exact (htiles x (List.mem_filter.mp hx).1).1



/-- The multiplies of two pages are started by `startMul`. -/
theorem startCmd_mul {s : State} {cl p : Nat} {c : TileCmd} {g acc ga gb la lb sl mr nc kd}
    (hi : c.instr = .tmma g acc ga gb la lb sl mr nc kd ∨ c.instr = .tmmat g acc ga gb la lb sl mr nc kd
      ∨ c.instr = .tmmbt g acc ga gb la lb sl mr nc kd) : startCmd s cl p c = startMul s cl p c kd.toNat := by
  rcases hi with hi | hi | hi <;> rw [startCmd, hi]

theorem startCmd_latch {s : State} {cl p : Nat} {c : TileCmd} {g src ga gd lb tr} (hi : c.instr = .tblatch g src ga gd lb tr) :
    startCmd s cl p c = startLatch s cl p c src.toNat tr := by rw [startCmd, hi]

/-- A started multiply: what a bad operand spoils, and what a good one adds. -/
theorem mulStarted {s : State} {c : TileCmd} {kd d mr nc : Nat} {bad : Bool} {row col : Nat → List Xr} (h : StartsNow s c)
    (hst : startCmd s s.ev.cl s.ev.pid c = startMul s s.ev.cl s.ev.pid c kd)
    (hmul : (bad = true → startMul s s.ev.cl s.ev.pid c kd = { st := updCp s s.ev.cl s.ev.pid (fun k => accNan k d), ecc := true })
      ∧ (bad = false → ∃ s2, OnlySoft s s2 ∧ (startMul s s.ev.cl s.ev.pid c kd).st = putCp s2 s.ev.cl s.ev.pid
          (stepAcc (getCp s s.ev.cl s.ev.pid) d ((List.range mr).map row) ((List.range nc).map col)).1)) :
    let cl := s.ev.cl
    let p := s.ev.pid
    let k := getCp s cl p
    ∃ s', exec .tileCommandStart s = .next s' ∧ SameMem s s' ∧ (∀ d', d' ≠ d → accGet (getCp s' cl p) d' = accGet k d')
      ∧ (bad = true → accGet (getCp s' cl p) d = List.replicate 4096 (BitVec.ofNat 32 (nanCode .fp32))
          ∧ ∃ x ∈ (getCp s' cl p).tiles, x.id = c.id ∧ x.ecc = true)
      ∧ (bad = false → ∀ x y, x < 64 → y < 64 → (accGet (getCp s' cl p) d)[64 * x + y]? =
          (if x < mr ∧ y < nc then some (stepElt ((accGet k d).getD (64 * x + y) 0) (row x) (col y)).1
           else (accGet k d)[64 * x + y]?)) := by
  intro cl p k
  have hx := tileCommandStart_on h
  rw [hst] at hx
  obtain ⟨hbad, hgood⟩ := hmul
  cases bad with
  | true =>
    have hr := hbad rfl
    obtain ⟨hs, hoff⟩ := spoilt_of_accNan (d := d) h.mem hr
    refine ⟨_, hx, fun a => ?_, hoff, fun _ => hs, fun e => Bool.noConfusion e⟩
    show rdCell (startMul s s.ev.cl s.ev.pid c kd).st.mem a = _
    rw [hr]; rfl
  | false =>
    obtain ⟨s2, h2, hr⟩ := hgood rfl
    obtain ⟨hm, hoff, hon⟩ := started_of_step (c := c) h2 hr
    exact ⟨_, hx, hm, hoff, fun e => Bool.noConfusion e, fun _ => hon⟩

/-- A started TZERO. -/
theorem zeroStarted {s : State} {c : TileCmd} {g : Guard} {a : R6} (h : StartsNow s c) (hi : c.instr = .tzero g a) :
    let cl := s.ev.cl
    let p := s.ev.pid
    let k := getCp s cl p
    let d := c.acc.getD 0
    ∃ s', exec .tileCommandStart s = .next s' ∧ SameMem s s'
      ∧ (accHurt k d = false → accGet (getCp s' cl p) d = List.replicate 4096 0)
      ∧ (accHurt k d = true → accGet (getCp s' cl p) d = List.replicate 4096 (BitVec.ofNat 32 (nanCode .fp32))
          ∧ ∃ x ∈ (getCp s' cl p).tiles, x.id = c.id ∧ x.ecc = true)
      ∧ ∀ d', d' ≠ d → accGet (getCp s' cl p) d' = accGet k d' := by
  intro cl p k d
  have hx := tileCommandStart_on h
  have hr := tzero_start (s := s) (cl := s.ev.cl) (p := s.ev.pid) hi
  by_cases hb : accHurt k d = true
  · rw [if_pos hb] at hr
    obtain ⟨hs, hoff⟩ := spoilt_of_accNan h.mem hr
    refine ⟨_, hx, fun a => ?_, fun e => ?_, fun _ => hs, hoff⟩
    · show rdCell (startCmd s s.ev.cl s.ev.pid c).st.mem a = _
      rw [hr]; rfl
    · exact absurd (hb.symm.trans e) Bool.noConfusion
  · rw [if_neg hb] at hr
    have hcp : getCp (startCmd s s.ev.cl s.ev.pid c).st s.ev.cl s.ev.pid = accPut k d [] := by rw [hr]; exact getCp_updCp_same ..
    refine ⟨_, hx, fun a => ?_, fun _ => ?_, fun e => absurd e hb, fun d' hd => ?_⟩
    · show rdCell (startCmd s s.ev.cl s.ev.pid c).st.mem a = _
      rw [hr]; rfl
    · rw [tileStarted_acc, hcp, accGet_zeroed]
    · rw [tileStarted_acc, hcp, accGet_accPut_ne _ (Nat.zero_le _) hd]

/-- A started latch load from a page (R284, R285). -/
theorem loadStarted {s : State} {c : TileCmd} {g : Guard} {ga gd : R6} {lb : BitVec 2} {tr : Bool} {pg : TilePage} (h : StartsNow s c)
    (hi : c.instr = .tblatch g 0 ga gd lb tr) (hp : c.pages = [pg]) :
    let cl := s.ev.cl
    let p := s.ev.pid
    let cells := latchCells pg tr
    ∃ s' l, exec .tileCommandStart s = .next s' ∧ SameMem s s' ∧ (getCp s' cl p).latch = some l
      ∧ l.fmt = pg.fmt ∧ l.blk = pg.blk ∧ l.axis = pg.axis
      ∧ (cellsBad s pg cells = true → l.nan = true ∧ ∃ x ∈ (getCp s' cl p).tiles, x.id = c.id ∧ x.ecc = true)
      ∧ (cellsBad s pg cells = false → l.nan = false
          ∧ (pg.rope = none → l.rot = false ∧ l.elts = cells.map (fun e => rawElt (snapView s c) pg.phys pg.w e.1 pg.mode e.2.1 e.2.2)
              ∧ (pg.blk ≠ 0 → l.scales = cells.map (fun e => scaleAt (snapView s c) pg.scale pg.blk (pg.view.block e.1 e.2.1 e.2.2))))
          ∧ (pg.rope ≠ none → l.rot = true ∧ l.elts = cells.map (fun e => (rnF32 (cellVal (snapView s c) pg e).1).1))) := by
  intro cl p cells
  have hx := tileCommandStart_on h
  rw [startCmd_latch hi] at hx
  have hsrc : (0 : BitVec 3).toNat = 0 := rfl
  rw [hsrc] at hx
  by_cases hb : cellsBad s pg cells = true
  · have hr := startLatch_bad (cl := s.ev.cl) (p := s.ev.pid) hp hb
    obtain ⟨hm, hl⟩ := latch_of_load (c := c) (r := startLatch s s.ev.cl s.ev.pid c 0 tr) (s := s) (s2 := s) rfl (by rw [hr])
    refine ⟨_, _, hx, hm, hl, rfl, rfl, rfl, fun _ => ⟨rfl, _, mem_tileStarted ?_, rfl, ?_⟩, fun e => ?_⟩
    · rw [hr, getCp_updCp_same]; exact h.mem
    · rw [hr]
    · exact absurd (hb.symm.trans e) Bool.noConfusion
  · have hb' : cellsBad s pg cells = false := Bool.eq_false_iff.mpr hb
    by_cases hrope : pg.rope = none
    · obtain ⟨s2, h2, hr⟩ := startLatch_plain (cl := s.ev.cl) (p := s.ev.pid) hp hb' hrope
      obtain ⟨hm, hl⟩ := latch_of_load (c := c) h2 hr
      exact ⟨_, _, hx, hm, hl, rfl, rfl, rfl, fun e => absurd e hb,
        fun _ => ⟨rfl, fun _ => ⟨rfl, rfl, fun h0 => if_neg h0⟩, fun e => absurd hrope e⟩⟩
    · obtain ⟨s2, h2, hr⟩ := startLatch_rope (cl := s.ev.cl) (p := s.ev.pid) hp hb' hrope
      obtain ⟨hm, hl⟩ := latch_of_load (c := c) h2 hr
      exact ⟨_, _, hx, hm, hl, rfl, rfl, rfl, fun e => absurd e hb,
        fun _ => ⟨rfl, fun e => absurd e hrope, fun _ => ⟨rfl, rfl⟩⟩⟩

/-- A started drain (R288, R289). -/
theorem drainStarted {s : State} {c : TileCmd} {tp : TilePage} {rest : List TilePage} (h : StartsNow s c)
    (hst : startCmd s s.ev.cl s.ev.pid c = startDrain s s.ev.cl s.ev.pid c) (hp : c.pages = tp :: rest)
    (hm : (c.args.getD 1 0).toNat ≤ 64) (hn : (c.args.getD 2 0).toNat ≤ 64)
    (hblk : tp.blk ≠ 0 → (c.args.getD 1 0).toNat = 64 ∧ (c.args.getD 2 0).toNat = 64) :
    let cl := s.ev.cl
    let p := s.ev.pid
    let arg := fun i => c.args.getD i 0
    let full := drainFull s tp (arg 1).toNat (arg 2).toNat (drainRnd (arg 4).toNat (arg 8) (arg 10)) (arg 5 != 0)
      (fun e => (epilogue (arg 6).toNat (arg 7) (arg 8) (arg 9) (arg 10)
        ((accGet (getCp s cl p) (arg 0).toNat).getD (64 * e.2.1 + e.2.2) 0).toNat
        (drainBias s (biasPage (arg 6).toNat rest) (arg 3).toNat e.2.2)
        (drainRes s (resPage (arg 6).toNat rest) e.2.1 e.2.2) e.2.1 e.2.2).1)
    ∃ s' x, exec .tileCommandStart s = .next s' ∧ SameMem s s' ∧ x ∈ (getCp s' cl p).tiles ∧ x.id = c.id ∧ x.started = true
      ∧ (∀ d, accGet (getCp s' cl p) d = accGet (getCp s cl p) d)
      ∧ (drainBad s (getCp s cl p) c rest = true → x.ecc = true ∧ x.out = [])
      ∧ (drainBad s (getCp s cl p) c rest = false → x.ecc = false
          ∧ x.out = drainWords full tp (rectCells tp.tile (arg 1).toNat (arg 2).toNat)) := by
  intro cl p arg full
  have hx := tileCommandStart_on h
  rw [hst] at hx
  have hsoft : OnlySoft s (startDrain s cl p c).st := by
    by_cases hb : drainBad s (getCp s cl p) c rest = true
    · rw [startDrain_bad hp hb]; exact rfl
    · exact (startDrain_words hp hm hn hblk (Bool.eq_false_iff.mpr hb)).1
  refine ⟨_, _, hx, fun a => ?_, mem_tileStarted ?_, rfl, rfl, fun d => ?_, fun hb => ?_, fun hb => ?_⟩
  · show rdCell (startDrain s cl p c).st.mem a = _
    rw [hsoft.mem]
  · rw [hsoft.getCp]; exact h.mem
  · rw [tileStarted_acc, hsoft.getCp]
  · rw [startDrain_bad hp hb]; exact ⟨rfl, rfl⟩
  · exact (startDrain_words hp hm hn hblk hb).2

/-- A cluster's inbound buffers after the arrivals that are complete (R283). -/
def ringArrived (n : Nat) (k : ClPart) : ClPart :=
  (k.ring.filter (fun e => decide (e.1 ≤ n))).foldl (fun k e => if e.2.1 = 0 then { k with iw := some e.2.2 } else { k with ie := some e.2.2 })
    { k with ring := k.ring.filter (fun e => !decide (e.1 ≤ n)) }

theorem ringDelivery_on (s : State) : exec .ringDelivery s = .next (updCp s s.ev.cl s.ev.pid (ringArrived s.cycle)) := by
  simp only [exec]
  rfl

/-- Settles O44: the work of each tile command at its start is an equation on its accumulator, latch or words; a commit is a
fold over one command, and a word of a drain one write. -/
theorem tileEvents : Obligations.TileEvents := by
  unfold Obligations.TileEvents
  refine ⟨?_, ?_, ?_⟩
  · intro s c cl p k arg latch sent spoilt hn hf
    have h : StartsNow s c := ⟨hn, hf⟩
    refine ⟨?_, ?_, ?_, ?_, ?_, ?_, ?_, ?_⟩
    · exact fun g a hi => zeroStarted h hi
    · intro g acc ga gb la lb sl mr nc kd a b hi hp
      exact mulStarted h (startCmd_mul hi) (startMul_pages hp kd.toNat)
    · intro g acc ga la sl mr nc kd a hi hp
      exact mulStarted h (by rw [startCmd, hi]) (startMul_latch hp kd.toNat)
    · exact fun g ga gd lb tr pg hi hp => loadStarted h hi hp
    · intro g ga gd lb tr hi
      have hx := tileCommandStart_on h
      rw [startCmd_latch hi] at hx
      obtain ⟨hm, hring⟩ := sent_of_startLatch s cl p c false tr
      exact ⟨_, sentStore k c, hx, hm, hring, rfl, rfl, rfl⟩
    · intro g ga gd lb tr hi
      have hx := tileCommandStart_on h
      rw [startCmd_latch hi] at hx
      obtain ⟨hm, hring⟩ := sent_of_startLatch s cl p c true tr
      exact ⟨_, sentStore k c, hx, hm, hring, rfl, rfl, rfl⟩
    · intro g ga gd lb tr west n t hi ht hc
      have hx := tileCommandStart_on h
      have hsrc : (if west then (4 : BitVec 3) else 3).toNat = if west then 4 else 3 := by cases west <;> rfl
      rw [startCmd_latch hi, hsrc] at hx
      obtain ⟨hm, h1, h2, h3, t', h4, h5, h6⟩ := taken_of_startLatch cl p west tr ht hc
      exact ⟨_, t', hx, hm, h1, h2, h3, h4, h5, h6⟩
    · intro tp rest hi hp hm hn hblk
      have hst : startCmd s cl p c = startDrain s cl p c := by
        rcases hi with ⟨_, _, _, _, _, _, _, _, _, _, hi⟩ | ⟨_, _, _, _, _, _, _, _, _, _, _, _, _, _, _, _, _, _, _, _, hi⟩ <;>
          rw [startCmd, hi]
      exact drainStarted h hst hp hm hn hblk
  · intro s c hn hf hinv
    refine ⟨_, tileCommandStart_word hn hf, drainWord_writes hinv (List.mem_of_find?_eq_some hf) fun e => ?_⟩
    have hgo := List.find?_some hf
    rw [drainGoing, e] at hgo
    simp only [List.isEmpty_nil, Bool.not_true, Bool.false_and, Bool.and_false] at hgo
    exact Bool.noConfusion hgo
  · intro s cl p k
    refine ⟨?_, ?_, ?_⟩
    · intro c n t hover hdue ht hc _
      have hx := tileBatchCommit_on s
      rw [drainsDone_none hover, show (getCp s s.ev.cl s.ev.pid).tiles.filter (commitDue s) = [c] from hdue] at hx
      obtain ⟨hcp, hm, ho, hs⟩ := commitOne_spec (c := c)
        (s := updCp s s.ev.cl s.ev.pid (fun k => { k with tiles := k.tiles.filter (fun c => !commitDue s c) })) s.ev.pid ht hc
      refine ⟨_, hx, ?_, fun a => ?_, ho, _, hs, rfl, rfl, rfl, rfl⟩
      · rw [List.foldl_cons, List.foldl_nil, getCp, hcp]
        exact congrArg ClPart.tiles (getCp_updCp_same s s.ev.cl s.ev.pid _)
      · rw [List.foldl_cons, List.foldl_nil, hm]; rfl
    · intro c hover hdue hinv
      obtain ⟨s', hx, hm, hout⟩ := tileBatchCommit_drain hover hdue
      refine ⟨s', hx, fun b hb => ?_, fun j e hj hlater => ?_, hout⟩
      · rw [hm]
        refine rdCell_dueMem_off hinv.1 fun w hw => ?_
        obtain ⟨e, he, rfl⟩ := List.mem_map.mp hw
        exact hb e he
      · obtain ⟨hlt, hget⟩ := List.getElem?_eq_some_iff.mp hj
        have hsplit : c.out = c.out.take j ++ e :: c.out.drop (j + 1) := by
          rw [← hget, ← List.drop_eq_getElem_cons hlt, List.take_append_drop]
        rw [hm, hsplit, drainWrites, List.map_append, List.map_cons]
        refine rdBytes_dueMem hinv.1 _ _ (0, e) fun u hu => ?_
        obtain ⟨q, hq, rfl⟩ := List.mem_map.mp hu
        obtain ⟨i, hi, hqi⟩ := List.mem_iff_getElem.mp hq
        rw [List.getElem_drop] at hqi
        have hlen : j + 1 + i < c.out.length := by rw [List.length_drop] at hi; omega
        exact hlater (j + 1 + i) q (by omega) (by rw [List.getElem?_eq_getElem hlen, hqi])
    · intro e he _
      refine ⟨_, ringDelivery_on s, fun a => rfl, ?_, fun h0 => ?_, fun h0 => ?_⟩
      all_goals
        rw [getCp_updCp_same, ringArrived, show (getCp s s.ev.cl s.ev.pid).ring.filter (fun e => decide (e.1 ≤ s.cycle)) = [e] from he,
          List.foldl_cons, List.foldl_nil]
      · split_ifs <;> rfl
      · rw [if_pos h0]; exact ⟨rfl, rfl⟩
      · rw [if_neg h0]; exact ⟨rfl, rfl⟩

end Sys2Proof.Machine
end

section
/-! SUPPORT. Device registers, HOST_SEMA, active messages, boot, firmware, attestation, time and soft errors (R424-R436). -/

namespace Sys2Proof.Machine

open Laws



/-! ### Fields of a register -/

theorem div_split (w lo n : Nat) : w = w / 2 ^ (lo + n) * 2 ^ (lo + n) + w / 2 ^ lo % 2 ^ n * 2 ^ lo + w % 2 ^ lo := by
  have h1 := Nat.div_add_mod w (2 ^ lo)
  have h2 := Nat.div_add_mod (w / 2 ^ lo) (2 ^ n)
  rw [Nat.div_div_eq_div_mul, ← Nat.pow_add] at h2
  calc w = 2 ^ lo * (2 ^ n * (w / 2 ^ (lo + n)) + w / 2 ^ lo % 2 ^ n) + w % 2 ^ lo := by rw [h2, h1]
    _ = _ := by rw [Nat.pow_add]; ring

/-- Setting a field keeps the bits above and below it. -/
theorem setField_toNat {lo n : Nat} (w : Word) (x : Nat) (h : lo + n ≤ 64) : (setField w lo n x).toNat
    = w.toNat / 2 ^ (lo + n) * 2 ^ (lo + n) + x % 2 ^ n * 2 ^ lo + w.toNat % 2 ^ lo := by
  have hs := div_split w.toNat lo n
  have hx : x % 2 ^ n < 2 ^ n := Nat.mod_lt _ (Nat.two_pow_pos n)
  have hl : w.toNat % 2 ^ lo < 2 ^ lo := Nat.mod_lt _ (Nat.two_pow_pos lo)
  have hfield : x % 2 ^ n * 2 ^ lo + w.toNat % 2 ^ lo < 2 ^ (lo + n) := by
    calc x % 2 ^ n * 2 ^ lo + w.toNat % 2 ^ lo < x % 2 ^ n * 2 ^ lo + 1 * 2 ^ lo := by omega
      _ = (x % 2 ^ n + 1) * 2 ^ lo := (Nat.add_mul ..).symm
      _ ≤ 2 ^ n * 2 ^ lo := Nat.mul_le_mul_right _ hx
      _ = 2 ^ (lo + n) := by rw [Nat.pow_add, Nat.mul_comm]
  have htop : (w.toNat / 2 ^ (lo + n) + 1) * 2 ^ (lo + n) ≤ 2 ^ 64 := by
    have hd : w.toNat / 2 ^ (lo + n) < 2 ^ (64 - (lo + n)) := by
      rw [Nat.div_lt_iff_lt_mul (Nat.two_pow_pos _), ← Nat.pow_add, show 64 - (lo + n) + (lo + n) = 64 by omega]
      exact w.isLt
    calc _ ≤ 2 ^ (64 - (lo + n)) * 2 ^ (lo + n) := Nat.mul_le_mul_right _ hd
      _ = 2 ^ 64 := by rw [← Nat.pow_add, show 64 - (lo + n) + (lo + n) = 64 by omega]
  rw [Nat.add_mul, Nat.one_mul] at htop
  rw [setField, BitVec.toNat_ofNat, show w.toNat - w.toNat / 2 ^ lo % 2 ^ n * 2 ^ lo + x % 2 ^ n * 2 ^ lo
    = w.toNat / 2 ^ (lo + n) * 2 ^ (lo + n) + x % 2 ^ n * 2 ^ lo + w.toNat % 2 ^ lo by omega]
  exact Nat.mod_eq_of_lt (by omega)

/-- Clearing a field by its mask. -/
theorem clearField_toNat (w : Word) {lo n : Nat} (h : lo + n ≤ 64) :
    (w &&& ~~~ BitVec.ofNat 64 ((2 ^ n - 1) * 2 ^ lo)).toNat = w.toNat / 2 ^ (lo + n) * 2 ^ (lo + n) + w.toNat % 2 ^ lo := by
  have hlow : w.toNat % 2 ^ lo < 2 ^ (lo + n) :=
    Nat.lt_of_lt_of_le (Nat.mod_lt _ (Nat.two_pow_pos lo)) (Nat.pow_le_pow_right (by decide) (Nat.le_add_right ..))
  refine Nat.eq_of_testBit_eq fun i => ?_
  rw [Nat.mul_comm _ (2 ^ (lo + n)), Nat.testBit_two_pow_mul_add _ hlow, Nat.testBit_mod_two_pow, Nat.testBit_div_two_pow,
    BitVec.testBit_toNat, BitVec.testBit_toNat, BitVec.testBit_toNat, BitVec.getLsbD_and, BitVec.getLsbD_not, BitVec.getLsbD_ofNat,
    Nat.testBit_mul_two_pow, Nat.testBit_two_pow_sub_one]
  by_cases h64 : i < 64
  · rcases Nat.lt_or_ge i lo with h1 | h1
    · simp [h64, h1, Nat.not_le.mpr h1, Nat.lt_add_right n h1]
    · rcases Nat.lt_or_ge i (lo + n) with h2 | h2
      · have h3 : i - lo < n := by omega
        simp [h64, h1, h2, h3, Nat.not_lt.mpr h1]
      · have h3 : ¬ i - lo < n := by omega
        simp [h64, h1, h3, Nat.not_lt.mpr h2, Nat.sub_add_cancel h2]
  · have h2 : ¬ i < lo + n := by omega
    have h3 : i - (lo + n) + (lo + n) = i := by omega
    simp [h64, h2, h3, BitVec.getLsbD_of_ge _ _ (Nat.not_lt.mp h64)]

/-! ### Device registers (R424) -/

theorem ctlGet_tabSet_same (t : Tab Word) (n : Nat) (x : Word) : ctlGet (tabSet t n x) n = x := by
  rw [ctlGet, tabGet_tabSet_same, Option.getD_some]

theorem ctlGet_tabSet_ne (t : Tab Word) {n k : Nat} (x : Word) (h : k ≠ n) : ctlGet (tabSet t n x) k = ctlGet t k := by
  rw [ctlGet, tabGet_tabSet_ne _ _ h, ctlGet]

theorem devCtl_setDevField_same (s : State) (r lo n x : Nat) (h : lo + n ≤ 64) : devCtl (setDevField s r lo n x) r
    = devCtl s r / 2 ^ (lo + n) * 2 ^ (lo + n) + x % 2 ^ n * 2 ^ lo + devCtl s r % 2 ^ lo := by
  unfold devCtl setDevField
  dsimp only
  rw [ctlGet_tabSet_same, setField_toNat _ _ h]

theorem devCtl_setDevField_ne (s : State) {r k : Nat} (lo n x : Nat) (h : k ≠ r) : devCtl (setDevField s r lo n x) k = devCtl s k := by
  unfold devCtl setDevField
  dsimp only
  rw [ctlGet_tabSet_ne _ _ h]

theorem devCtl_setDev_same (s : State) (n : Nat) (x : Word) : devCtl (setDev s n x.toNat) n = x.toNat := by
  unfold devCtl setDev
  dsimp only
  rw [ctlGet_tabSet_same, BitVec.ofNat_toNat, BitVec.setWidth_eq]

theorem devCtl_setDev_ne (s : State) {n k : Nat} (x : Nat) (h : k ≠ n) : devCtl (setDev s n x) k = devCtl s k := by
  unfold devCtl setDev
  dsimp only
  rw [ctlGet_tabSet_ne _ _ h]

theorem readDev_ctl (s : State) (n k : Nat) :
    ctlGet (readDev s n).dev.ctl k = if k = n then ctlAfterRead n (ctlGet s.dev.ctl n) else ctlGet s.dev.ctl k := by
  unfold readDev
  dsimp only
  by_cases hx : ctlAfterRead n (ctlGet s.dev.ctl n) = ctlGet s.dev.ctl n
  · rw [if_pos hx]
    by_cases hk : k = n
    · rw [if_pos hk, hx, hk]
    · rw [if_neg hk]
  · rw [if_neg hx]
    by_cases hk : k = n
    · rw [if_pos hk, hk, ctlGet_tabSet_same]
    · rw [if_neg hk, ctlGet_tabSet_ne _ _ hk]

theorem devCtl_readDev_same (s : State) (n : Nat) : devCtl (readDev s n) n = (ctlAfterRead n (ctlGet s.dev.ctl n)).toNat := by
  rw [devCtl, readDev_ctl, if_pos rfl]

theorem devCtl_readDev_ne (s : State) {n k : Nat} (h : k ≠ n) : devCtl (readDev s n) k = devCtl s k := by
  rw [devCtl, readDev_ctl, if_neg h, devCtl]

/-- A read of a register without clear-on-read fields leaves the device as it is (R10). -/
theorem readDev_dev (s : State) {n : Nat} (h : ctlAfterRead n (ctlGet s.dev.ctl n) = ctlGet s.dev.ctl n) : (readDev s n).dev = s.dev :=
  if_pos h

theorem onlyDevice_setDevField (s : State) (r lo n x : Nat) : OnlyDevice s (setDevField s r lo n x) := rfl

/-! ### HOST_SEMA (R426) -/

/-- The port that takes the semaphore owns it and stands in LAST. -/
theorem takeSema_spec (s : State) {p : Nat} (hp : p ≤ 1) :
    OnlyDevice s (takeSema s p) ∧ devCtl (takeSema s p) 0x800 % 4 = p + 1 ∧ devCtl (takeSema s p) 0x800 / 16 % 2 = p
      ∧ ∀ n, n ≠ 0x800 → devCtl (takeSema s p) n = devCtl s n := by
  have h1 := devCtl_setDevField_same s 0x800 0 2 (p + 1) (by decide)
  have h2 := devCtl_setDevField_same (setDevField s 0x800 0 2 (p + 1)) 0x800 4 1 p (by decide)
  have howner : devCtl (setDevField s 0x800 0 2 (p + 1)) 0x800 % 4 = p + 1 := by omega
  refine ⟨rfl, ?_, ?_, fun n hn => ?_⟩
  · rw [takeSema, h2]; omega
  · rw [takeSema, h2]
    rcases Nat.le_one_iff_eq_zero_or_eq_one.mp hp with rfl | rfl <;> omega
  · rw [takeSema, devCtl_setDevField_ne _ _ _ _ hn, devCtl_setDevField_ne _ _ _ _ hn]

theorem semaAcquire_free {s : State} (h : devCtl s 0x800 % 4 = 0) (hn : s.ev.n % 4 ≠ 0) : exec .semaAcquire s
    = .next (takeSema s (if s.ev.n % 4 = 1 then 0 else if s.ev.n % 4 = 2 then 1 else 1 - devCtl s 0x800 / 16 % 2)) := by
  simp only [exec]
  unfold execSemaAcquire
  rw [if_neg (not_not_intro h)]
  obtain ⟨m, hm⟩ : ∃ m, s.ev.n % 4 = m := ⟨_, rfl⟩
  have hlt : m < 4 := hm ▸ Nat.mod_lt _ (by decide)
  rw [hm] at hn ⊢
  rcases (show m = 1 ∨ m = 2 ∨ m = 3 by omega) with rfl | rfl | rfl <;> rfl

theorem semaAcquire_held {s : State} (h : devCtl s 0x800 % 4 ≠ 0) : exec .semaAcquire s = .next s := by
  simp only [exec]
  exact if_pos h

theorem ownsSema_iff (s : State) (port : Nat) : ownsSema s port = true ↔ devCtl s 0x800 % 4 = port % 2 + 1 := beq_iff_eq

theorem semaFreed_on {i : Instr} (hi : i = Instr.semaRelease ∨ i = Instr.hostLinkDown) (s : State) :
    exec i s = .next (if ownsSema s s.ev.unit then setDevField s 0x800 0 2 0 else s) := by
  rcases hi with rfl | rfl <;> simp only [exec] <;> rfl

theorem denied_spec (s : State) : devCtl (denied s) 0x800 / 2 ^ 32 % 2 ^ 16 = min 65535 (devCtl s 0x800 / 2 ^ 32 % 2 ^ 16 + 1)
    ∧ ∀ k, k ≠ 0x800 → devCtl (denied s) k = devCtl s k := by
  refine ⟨?_, fun k hk => devCtl_setDevField_ne _ _ _ _ hk⟩
  rw [denied, devCtl_setDevField_same _ _ _ _ _ (by decide)]
  omega

/-! ### Accesses to MW_0 (R424) -/

theorem mw0Reg_fits {s : State} (h : s.ev.id = 8 ∧ s.ev.n % 8 = 0 ∧ s.ev.n < 0x4000) : mw0Reg s.ev.n s.ev.id = some (0x800 + s.ev.n / 8) :=
  if_pos h

theorem mw0Reg_other {s : State} (h : ¬ (s.ev.id = 8 ∧ s.ev.n % 8 = 0 ∧ s.ev.n < 0x4000)) : mw0Reg s.ev.n s.ev.id = none := if_neg h

theorem hostWrite_other {s : State} (h : mw0Reg s.ev.n s.ev.id = none) :
    exec .hostRegisterWrite s = .next (if s.ev.flag then { s with reply := 0 } else s) := by
  simp only [exec]
  unfold execHostRegisterWrite
  rw [h]

theorem hostWrite_read {s : State} {n : Nat} (h : mw0Reg s.ev.n s.ev.id = some n) (hf : s.ev.flag = true) :
    exec .hostRegisterWrite s = .next (readDev s n) := by
  simp only [exec]
  unfold execHostRegisterWrite
  rw [h]
  exact congrArg _ (if_pos hf)

theorem hostWrite_denied {s : State} {n : Nat} (h : mw0Reg s.ev.n s.ev.id = some n) (hf : s.ev.flag = false) (hm : managed n = true)
    (ho : ownsSema s s.ev.unit = false) : exec .hostRegisterWrite s = .next (denied s) := by
  simp only [exec]
  unfold execHostRegisterWrite
  rw [h]
  refine congrArg _ ((if_neg (by rw [hf]; exact Bool.false_ne_true)).trans (if_pos ?_))
  rw [hm, ho]; rfl

theorem hostWrite_taken {s : State} {n : Nat} (h : mw0Reg s.ev.n s.ev.id = some n) (hf : s.ev.flag = false)
    (hm : managed n = true → ownsSema s s.ev.unit = true) : exec .hostRegisterWrite s = .next (regWrite s n (s.ev.words.getD 0 0)) := by
  simp only [exec]
  unfold execHostRegisterWrite
  rw [h]
  refine congrArg _ ((if_neg (by rw [hf]; exact Bool.false_ne_true)).trans (if_neg ?_))
  rw [Bool.and_eq_true, Bool.not_eq_true']
  exact fun ⟨h1, h2⟩ => Bool.false_ne_true (h2.symm.trans (hm h1))

theorem regWrite_kept {s : State} {n : Nat} {x : Word} (h : (0x818 ≤ n ∧ n ≤ 0x81F) ∨ (0x870 ≤ n ∧ n ≤ 0x873) ∨ n = 0x875) :
    regWrite s n x = setDev s n x.toNat := by
  rw [regWrite, if_neg (by omega), if_neg (by omega), if_neg (by omega), if_pos h]

theorem regWrite_time {s : State} {n : Nat} {x : Word} (h : n = 0x841 ∨ n = 0x842 ∨ n = 0x844) :
    regWrite s n x = { s with dev := { s.dev with timePend := s.dev.timePend ++ [(n, x)] } } := by
  rw [regWrite, if_neg (by omega), if_neg (by omega), if_pos h]

/-- What a read leaves of each clear-on-read register. -/
theorem ctlAfterRead_sema (x : Word) : (ctlAfterRead 0x800 x).toNat = x.toNat / 2 ^ 48 * 2 ^ 48 + x.toNat % 2 ^ 32 := by
  rw [ctlAfterRead, if_neg (by decide), if_neg (by decide), if_pos rfl]
  exact clearField_toNat x (lo := 32) (n := 16) (by decide)

theorem ctlAfterRead_low {n : Nat} (h : n = 0x801 ∨ n = 0x802 ∨ n = 0x423) (x : Word) :
    (ctlAfterRead n x).toNat = x.toNat / 2 ^ 32 * 2 ^ 32 := by
  have hc := clearField_toNat x (lo := 0) (n := 32) (by decide)
  rw [Nat.pow_zero, Nat.mod_one, Nat.add_zero] at hc
  rw [ctlAfterRead, if_neg (by omega), if_pos (by omega)]
  exact hc

theorem ctlAfterRead_kept {n : Nat} (x : Word) (h : 0x800 ≤ n) (h0 : n ≠ 0x800) (h1 : n ≠ 0x801) (h2 : n ≠ 0x802) (h3 : n ≠ 0x811)
    (h4 : n ≠ 0x880) : ctlAfterRead n x = x := by
  rw [ctlAfterRead, if_neg (by omega), if_neg (by omega), if_neg h0]



/-! ### Reads that clear (R10, R217, R404, R417) -/

theorem calStatRead_on (s : State) : exec .calStatRead s = .next { (readCtl s s.ev.cl s.ev.pid 0x181).2 with
    reply := (readCtl s s.ev.cl s.ev.pid 0x181).1 } := by
  simp only [exec]; rfl

theorem fltLostRead_on (s : State) : exec .fltLostRead s = .next { (readCtl s s.ev.cl s.ev.pid 0x423).2 with
    reply := (readCtl s s.ev.cl s.ev.pid 0x423).1 } := by
  simp only [exec]; rfl

theorem snapStatRead_on (s : State) : exec .snapStatRead s = .next { (readCtl s s.ev.cl s.ev.pid 0x300).2 with
    reply := (readCtl s s.ev.cl s.ev.pid 0x300).1 } := by
  simp only [exec]; rfl

theorem readCtl_calStat (s : State) (cl p : Nat) : readCtl s cl p 0x181 = (ctlGet (getClu s cl).ctl 0x181,
    updClu s cl (fun k => { k with ctl := tabSet k.ctl 0x181 0 })) := rfl

theorem readCtl_snapStat (s : State) (cl p : Nat) : readCtl s cl p 0x300 = (cpCtl s cl p 0x300, setCpCtl s cl p 0x300 0) := rfl

theorem readCtl_fltLost (s : State) (cl p : Nat) : readCtl s cl p 0x423 = (ctlGet (getDp s (dieOf cl) p).ctl 0x423,
    updDp s (dieOf cl) p (fun k => { k with ctl := tabSet k.ctl 0x423 (ctlAfterRead 0x423 (ctlGet (getDp s (dieOf cl) p).ctl 0x423)) })) :=
  rfl

/-- A discarded packet counts in TEN_DROP, which stays at its greatest value (R430). -/
theorem dropPacket_spec (s : State) : devCtl (dropPacket s) 0x811 = min (2 ^ 32 - 1) (devCtl s 0x811 + 1)
    ∧ ∀ k, k ≠ 0x811 → devCtl (dropPacket s) k = devCtl s k := by
  unfold devCtl dropPacket
  dsimp only
  refine ⟨?_, fun k hk => by rw [ctlGet_tabSet_ne _ _ hk]⟩
  rw [ctlGet_tabSet_same, BitVec.toNat_ofNat]
  exact Nat.mod_eq_of_lt (by omega)

/-- A read through MW_0 answers the register, and clears nothing but its clear-on-read fields. -/
theorem hostRead_spec {s : State} (h : s.ev.id = 8 ∧ s.ev.n % 8 = 0 ∧ s.ev.n < 0x4000) (hf : s.ev.flag = true) :
    let n := 0x800 + s.ev.n / 8
    ∃ s', exec .hostRegisterWrite s = .next s' ∧ OnlyDevice s s' ∧ (∀ k, k ≠ n → devCtl s' k = devCtl s k)
      ∧ s'.reply = (if n = 0x840 then devTimeNs s else if n = 0x862 then Config.minVersion.setWidth 64 else ctlGet s.dev.ctl n)
      ∧ (n ≠ 0x800 → n ≠ 0x801 → n ≠ 0x802 → n ≠ 0x811 → n ≠ 0x880 → s'.dev = s.dev) :=
  ⟨_, hostWrite_read (mw0Reg_fits h) hf, rfl, fun _ hk => devCtl_readDev_ne _ hk, rfl,
    fun h0 h1 h2 h3 h4 => readDev_dev _ (ctlAfterRead_kept _ (Nat.le_add_right ..) h0 h1 h2 h3 h4)⟩

/-- Settles O45: each event is one equation on a device register, by its field. -/
theorem hostRegisters : Obligations.HostRegisters := by
  unfold Obligations.HostRegisters
  refine ⟨?_, ?_⟩
  · intro s own last
    refine ⟨?_, fun h0 _ => ⟨s, semaAcquire_held h0, rfl⟩, fun i hi => ⟨fun ho _ => ?_, fun ho _ => ?_⟩⟩
    · intro h0 hn p _
      have hp : p ≤ 1 := by
        show (if s.ev.n % 4 = 1 then 0 else if s.ev.n % 4 = 2 then 1 else 1 - last) ≤ 1
        split_ifs <;> omega
      exact ⟨_, semaAcquire_free h0 hn, takeSema_spec s hp⟩
    · have hx := semaFreed_on hi s
      rw [if_pos ((ownsSema_iff s s.ev.unit).mpr ho)] at hx
      have hd := devCtl_setDevField_same s 0x800 0 2 0 (by decide)
      refine ⟨_, hx, rfl, ?_, ?_, fun n hn => devCtl_setDevField_ne _ _ _ _ hn⟩
      · rw [hd]; omega
      · rw [hd]; omega
    · have hx := semaFreed_on hi s
      rw [if_neg fun e => ho ((ownsSema_iff s s.ev.unit).mp e)] at hx
      exact ⟨s, hx, rfl⟩
  · intro s fits n x same
    refine ⟨fun h _ => ?_, fun h hf _ => hostRead_spec h hf, fun h hf hm ho _ => ?_, fun h hf hr _ => ?_, fun h hf hr ho _ => ?_,
      fun _ => ?_, fun _ => ?_, fun _ => ?_, fun _ => ?_, fun _ => ?_, fun _ => ?_, fun _ => ?_, fun _ => ?_⟩
    · have hx := hostWrite_other (mw0Reg_other h)
      cases hf : s.ev.flag with
      | true =>
        rw [if_pos hf] at hx
        exact ⟨_, hx, rfl, rfl, rfl⟩
      | false =>
        rw [if_neg (by rw [hf]; exact Bool.false_ne_true)] at hx
        exact ⟨_, hx, rfl, rfl, rfl⟩
    · obtain ⟨h1, h2⟩ := denied_spec s
      exact ⟨_, hostWrite_denied (mw0Reg_fits h) hf hm ho, rfl, h1, h2⟩
    · have hm : managed n = true → ownsSema s s.ev.unit = true := by
        rcases hr with hr | hr
        · exact fun _ => hr.2.2
        · intro hm
          simp only [managed, Bool.or_eq_true, beq_iff_eq, Bool.and_eq_true, decide_eq_true_eq] at hm
          omega
      have hx := hostWrite_taken (mw0Reg_fits h) hf hm
      rw [regWrite_kept (n := 0x800 + s.ev.n / 8) (by omega)] at hx
      exact ⟨_, hx, rfl, devCtl_setDev_same s n x, fun k hk => devCtl_setDev_ne s _ hk⟩
    · have hx := hostWrite_taken (mw0Reg_fits h) hf fun _ => ho
      rw [regWrite_time hr] at hx
      exact ⟨_, hx, rfl, rfl, rfl⟩
    · have hd := (devCtl_readDev_same s 0x800).trans (ctlAfterRead_sema _)
      refine ⟨readDev s 0x800, by simp only [exec]; rfl, rfl, rfl, ?_, ?_, fun k hk => devCtl_readDev_ne s hk⟩
      · rw [hd]; omega
      · rw [hd, devCtl]; omega
    · have hd := (devCtl_readDev_same s (0x801 + s.ev.unit % 2)).trans (ctlAfterRead_low (by omega) _)
      refine ⟨readDev s (0x801 + s.ev.unit % 2), by simp only [exec]; rfl, rfl, ?_, ?_, fun k hk => devCtl_readDev_ne s hk⟩
      · show devValue s _ = _
        rw [devValue, if_neg (by omega), if_neg (by omega)]
      · rw [hd]; exact Nat.mul_mod_left ..
    · exact ⟨readDev s 0x880, by simp only [exec]; rfl, rfl, rfl, devCtl_readDev_same s 0x880, fun k hk => devCtl_readDev_ne s hk⟩
    · refine ⟨readDev s 0x811, by simp only [exec]; rfl, rfl, rfl, ?_, fun k hk => devCtl_readDev_ne s hk⟩
      rw [devCtl_readDev_same]; rfl
    · obtain ⟨h1, h2⟩ := dropPacket_spec s
      exact ⟨dropPacket s, by simp only [exec]; rfl, rfl, h1, h2⟩
    · refine ⟨_, calStatRead_on s, rfl, ?_, fun a => rfl, rfl⟩
      rw [readCtl_calStat]
      show ctlGet (getClu (updClu s s.ev.cl fun k => { k with ctl := tabSet k.ctl 0x181 0 }) s.ev.cl).ctl 0x181 = 0
      rw [getClu_updClu_same, ctlGet_tabSet_same]
    · refine ⟨_, fltLostRead_on s, rfl, ?_, fun a => rfl, rfl⟩
      rw [readCtl_fltLost]
      have hd := ctlAfterRead_low (n := 0x423) (.inr (.inr rfl)) (ctlGet (getDp s (dieOf s.ev.cl) s.ev.pid).ctl 0x423)
      show (ctlGet (getDp (updDp s (dieOf s.ev.cl) s.ev.pid fun k => { k with
        ctl := tabSet k.ctl 0x423 (ctlAfterRead 0x423 (ctlGet (getDp s (dieOf s.ev.cl) s.ev.pid).ctl 0x423)) })
        (dieOf s.ev.cl) s.ev.pid).ctl 0x423).toNat % 2 ^ 32 = 0
      rw [getDp_updDp_same, ctlGet_tabSet_same, hd]
      exact Nat.mul_mod_left ..
    · refine ⟨_, snapStatRead_on s, rfl, ?_, fun a => rfl, rfl⟩
      rw [readCtl_snapStat]
      show ctlGet (getCp (updCp s s.ev.cl s.ev.pid fun k => { k with ctl := tabSet k.ctl 0x300 0 }) s.ev.cl s.ev.pid).ctl 0x300 = 0
      rw [getCp_updCp_same, ctlGet_tabSet_same]



/-! ### Active messages (R251, R425) -/

theorem activeMessage_on (timed : Bool) (s : State) :
    exec (if timed then Instr.timedActiveMessage else Instr.activeMessage) s = .next (activeMessage s timed) := by
  cases timed <;> simp only [exec, if_true, if_false, Bool.false_eq_true] <;> rfl

/-- AM_LOG of a port counts a refusal and takes its reason, and nothing else changes. -/
theorem amLog_spec (s : State) (port r : Nat) (hr : r < 16) :
    let n := 0x801 + port % 2
    OnlyDevice s (amLog s port r)
      ∧ devCtl (amLog s port r) n % 2 ^ 32 = min (2 ^ 32 - 1) (devCtl s n % 2 ^ 32 + 1)
      ∧ devCtl (amLog s port r) n / 2 ^ 32 % 16 = r
      ∧ devCtl (amLog s port r) n / 2 ^ 36 = devCtl s n / 2 ^ 36
      ∧ (∀ k, k ≠ n → devCtl (amLog s port r) k = devCtl s k)
      ∧ (amLog s port r).dev = { s.dev with ctl := (amLog s port r).dev.ctl } ∧ (amLog s port r).reply = s.reply := by
  intro n
  obtain ⟨c, hc⟩ : ∃ c, min (2 ^ 32 - 1) (devCtl s n % 2 ^ 32 + 1) = c := ⟨_, rfl⟩
  have hlt : c < 2 ^ 32 := by omega
  have h1 := devCtl_setDevField_same s n 0 32 c (by decide)
  have h2 := devCtl_setDevField_same (setDevField s n 0 32 c) n 32 4 r (by decide)
  have ha : amLog s port r = setDevField (setDevField s n 0 32 c) n 32 4 r := by rw [← hc]; rfl
  rw [ha, hc]
  refine ⟨rfl, ?_, ?_, ?_, fun k hk => ?_, rfl, rfl⟩
  · rw [h2]; omega
  · rw [h2]; omega
  · rw [h2]; omega
  · rw [devCtl_setDevField_ne _ _ _ _ hk, devCtl_setDevField_ne _ _ _ _ hk]

/-- What a message with a bad word sets (R251). -/
def amBad (ws : List Word) (timed : Bool) : Bool :=
  let w := fun i => (ws.getD i 0).toNat
  w 0 / 2 ^ 19 % 2 != 0 || w 0 / 2 ^ 24 != 0 || w 1 / 2 ^ 48 != 0 || w 1 % 8 != 0
    || (timed && (w 5 != 0 || w 6 != 0 || w 7 != 0))

theorem amRefused_eq (s : State) (ws : List Word) (timed : Bool) :
    let w := fun i => (ws.getD i 0).toNat
    let cl := 32 * (w 0 % 8) + w 0 / 8 % 32
    let p := w 0 / 2 ^ 20 % 16
    let q := w 0 / 2 ^ 8 % 16
    amRefused s ws timed = if amBad ws timed then 1 else if !inRect s p cl then 2
      else if !qEn (qcfg s cl p q) || !qHost (qcfg s cl p q) then 3
      else if 32 ≤ taskCount (queueOf (getCp s cl p) q) then 4 else 0 := rfl

theorem amBad_iff (ws : List Word) (timed : Bool) :
    let w := fun (k : Nat) => (ws.getD k 0).toNat
    amBad ws timed = true ↔ w 0 / 2 ^ 19 % 2 ≠ 0 ∨ w 0 / 2 ^ 24 ≠ 0 ∨ w 1 / 2 ^ 48 ≠ 0 ∨ w 1 % 8 ≠ 0
      ∨ (timed = true ∧ (w 5 ≠ 0 ∨ w 6 ≠ 0 ∨ w 7 ≠ 0)) := by
  simp only [amBad, Bool.or_eq_true, Bool.and_eq_true, bne_iff_ne, or_assoc]

theorem mw2Fits_iff (timed : Bool) (off size : Nat) : mw2Fits timed off size = true ↔
    if timed then off / 2 ^ 16 = 1 ∧ off % 64 = 0 ∧ size = 64 else off / 2 ^ 16 = 0 ∧ off % 32 = 0 ∧ size = 32 := by
  cases timed <;> simp [mw2Fits, and_assoc]

theorem queueTakesHost_iff (w : Word) : (!qEn w || !qHost w) = true ↔ w.toNat % 2 = 0 ∨ w.toNat / 4 % 2 = 0 := by
  have hbit : ∀ n, bit w n = true ↔ w.toNat / 2 ^ n % 2 = 1 := fun n => by
    rw [bit, BitVec.getLsbD, Nat.testBit_eq_decide_div_mod_eq, decide_eq_true_iff]
  rw [Bool.or_eq_true, Bool.not_eq_true', Bool.not_eq_true', Bool.eq_false_iff, Bool.eq_false_iff, ne_eq, ne_eq, qEn, qHost, hbit, hbit]
  omega

/-- A refused message only counts in AM_LOG. -/
theorem activeMessage_refused {timed : Bool} {s : State} {r : Nat} (hr : r < 16) (h0 : r ≠ 0)
    (h : (if !mw2Fits timed s.ev.n s.ev.id then 5 else amRefused s s.ev.words timed) = r) :
    exec (if timed then Instr.timedActiveMessage else Instr.activeMessage) s = .next (amLog s s.ev.unit r) := by
  rw [activeMessage_on, activeMessage]
  dsimp only
  rw [h, if_pos h0]

/-- The descriptor of the task that a message brings. -/
def amDesc (ws : List Word) (timed : Bool) : List Word :=
  [BitVec.ofNat 64 ((ws.getD 1 0).toNat % 2 ^ 48 + 2 ^ 48 * ((ws.getD 0 0).toNat / 2 ^ 12 % 128)), ws.getD 2 0, ws.getD 3 0,
    if timed then ws.getD 4 0 else 0]

theorem activeMessage_taken {timed : Bool} {s : State} (hf : mw2Fits timed s.ev.n s.ev.id = true)
    (h : amRefused s s.ev.words timed = 0) :
    let w := fun (k : Nat) => (s.ev.words.getD k 0).toNat
    let cl := 32 * (w 0 % 8) + w 0 / 8 % 32
    exec (if timed then Instr.timedActiveMessage else Instr.activeMessage) s
      = .next (appendTask (arrive s cl (8 + s.ev.lane % 4)) cl (w 0 / 2 ^ 20 % 16) (w 0 / 2 ^ 8 % 16) (amDesc s.ev.words timed)) := by
  intro w cl
  rw [activeMessage_on, activeMessage]
  dsimp only
  rw [hf, h]
  rfl

/-- Settles O46: a refusal is one count in AM_LOG, by the first reason of the row's order; a taken message is one appended
entry. -/
theorem activeMessages : Obligations.ActiveMessages := by
  unfold Obligations.ActiveMessages
  intro timed s i w cl p q cfg bad fits full refused
  have hrefused : ∀ r, r < 16 → r ≠ 0 →
      (if !mw2Fits timed s.ev.n s.ev.id then 5 else amRefused s s.ev.words timed) = r → refused r :=
    fun r hr h0 h _ => ⟨_, activeMessage_refused hr h0 h, amLog_spec s s.ev.unit r hr⟩
  have hfits : fits → mw2Fits timed s.ev.n s.ev.id = true := (mw2Fits_iff timed s.ev.n s.ev.id).mpr
  have hwhen : fits → (if !mw2Fits timed s.ev.n s.ev.id then 5 else amRefused s s.ev.words timed) = amRefused s s.ev.words timed :=
    fun h => by rw [hfits h]; rfl
  have hok : ¬ bad → amBad s.ev.words timed = false := fun h => Bool.eq_false_iff.mpr fun e => h ((amBad_iff _ _).mp e)
  have hhost := queueTakesHost_iff (qcfg s cl p q)
  have hnot : cfg % 2 = 1 → cfg / 4 % 2 = 1 → ¬ (!qEn (qcfg s cl p q) || !qHost (qcfg s cl p q)) = true := fun h1 h2 e =>
    (hhost.mp e).elim (fun e => absurd (h1.symm.trans e) (by decide)) fun e => absurd (h2.symm.trans e) (by decide)
  have heq := amRefused_eq s s.ev.words timed
  refine ⟨fun h => ?_, fun h hb => ?_, fun h hb hin => ?_, fun h hb hin hc => ?_, fun h hb hin hc1 hc2 hfull => ?_,
    fun h hb hin hc1 hc2 hfull _ => ?_⟩
  · refine hrefused 5 (by decide) (by decide) ?_
    rw [Bool.eq_false_iff.mpr fun e => h ((mw2Fits_iff timed s.ev.n s.ev.id).mp e)]
    rfl
  · refine hrefused 1 (by decide) (by decide) ((hwhen h).trans ?_)
    rw [heq, if_pos ((amBad_iff _ _).mpr hb)]
  · refine hrefused 2 (by decide) (by decide) ((hwhen h).trans ?_)
    rw [heq, hok hb, if_neg Bool.false_ne_true]
    exact if_pos (by rw [hin]; rfl)
  · refine hrefused 3 (by decide) (by decide) ((hwhen h).trans ?_)
    rw [heq, hok hb, if_neg Bool.false_ne_true]
    exact (if_neg (by rw [hin]; exact Bool.false_ne_true)).trans (if_pos (hhost.mpr hc))
  · refine hrefused 4 (by decide) (by decide) ((hwhen h).trans ?_)
    rw [heq, hok hb, if_neg Bool.false_ne_true]
    exact (if_neg (by rw [hin]; exact Bool.false_ne_true)).trans ((if_neg (hnot hc1 hc2)).trans (if_pos hfull))
  · have h0 : amRefused s s.ev.words timed = 0 := by
      rw [heq, hok hb, if_neg Bool.false_ne_true]
      exact (if_neg (by rw [hin]; exact Bool.false_ne_true)).trans ((if_neg (hnot hc1 hc2)).trans (if_neg hfull))
    have hx := activeMessage_taken (hfits h) h0
    have hw1 : w 1 < 2 ^ 48 := by
      by_contra hc
      exact hb (.inr (.inr (.inl (by omega))))
    have hdesc : ((amDesc s.ev.words timed).getD 0 0).toNat = w 1 + 2 ^ 48 * (w 0 / 2 ^ 12 % 128) := by
      show (BitVec.ofNat 64 (w 1 % 2 ^ 48 + 2 ^ 48 * (w 0 / 2 ^ 12 % 128))).toNat = _
      rw [BitVec.toNat_ofNat, Nat.mod_eq_of_lt hw1]
      exact Nat.mod_eq_of_lt (by omega)
    have hprio : ((amDesc s.ev.words timed).getD 0 0).toNat / 2 ^ 48 % 128 = w 0 / 2 ^ 12 % 128 := by rw [hdesc]; omega
    have hentry : ((amDesc s.ev.words timed).getD 0 0).setWidth 48 = BitVec.ofNat 48 (w 1) := by
      apply BitVec.eq_of_toNat_eq
      rw [BitVec.toNat_setWidth, hdesc, BitVec.toNat_ofNat]
      omega
    refine ⟨_, hx, rfl, fun a => rfl, _, appended_of_appendEntry rfl rfl rfl, rfl, ?_, ?_, ?_, ?_⟩
    · exact congrArg (fun x => Work.fresh x _ _) hentry
    · exact congrArg (fun x => min x (cfg / 16 % 128)) hprio
    · rfl
    · rfl



/-! ### Boot, firmware and attestation (R432-R434) -/

theorem leAt_lt (bs : List Byte) (a n : Nat) : leAt bs a n < 256 ^ n :=
  Nat.lt_of_lt_of_le (leNat_lt _) (Nat.pow_le_pow_right (by decide) (List.length_take_le ..))

theorem devCtl_setDev_lt (s : State) (n : Nat) {x : Nat} (h : x < 2 ^ 64) : devCtl (setDev s n x) n = x := by
  unfold devCtl setDev
  dsimp only
  rw [ctlGet_tabSet_same, BitVec.toNat_ofNat, Nat.mod_eq_of_lt h]

/-- The measurement after words `m` were put into it. -/
def measured (s : State) (m : Nat → Nat) (l : List Nat) : State := l.foldl (fun s i => setDev s (0x868 + i) (m i)) s

theorem measured_keeps (s : State) (m : Nat → Nat) (l : List Nat) :
    OnlyDevice s (measured s m l) ∧ (measured s m l).dev = { s.dev with ctl := (measured s m l).dev.ctl } := by
  induction l generalizing s with
  | nil => exact ⟨rfl, rfl⟩
  | cons i l ih =>
    obtain ⟨h1, h2⟩ := ih (setDev s (0x868 + i) (m i))
    unfold OnlyDevice at *
    exact ⟨h1, h2⟩

theorem measured_off (s : State) (m : Nat → Nat) {l : List Nat} {k : Nat} (h : ∀ i ∈ l, k ≠ 0x868 + i) :
    devCtl (measured s m l) k = devCtl s k := by
  induction l generalizing s with
  | nil => rfl
  | cons i l ih =>
    exact (ih _ fun j hj => h j (List.mem_cons_of_mem _ hj)).trans (devCtl_setDev_ne _ _ (h i (List.mem_cons_self ..)))

theorem measured_at (s : State) {m : Nat → Nat} (hm : ∀ i, m i < 2 ^ 64) {l : List Nat} {k : Nat} (h : k ∈ l) :
    devCtl (measured s m l) (0x868 + k) = m k := by
  induction l generalizing s with
  | nil => cases h
  | cons i l ih =>
    by_cases hl : k ∈ l
    · exact ih _ hl
    · obtain rfl : k = i := (List.mem_cons.mp h).resolve_right hl
      have hoff := measured_off (setDev s (0x868 + k) (m k)) m (l := l) (k := 0x868 + k) fun j hj e =>
        hl (by rwa [show k = j by omega])
      exact hoff.trans (devCtl_setDev_lt _ _ (hm k))

/-- The boot ends with a status. -/
def bootStop (s : State) (st : Nat) : State := setDev { s with dev := { s.dev with booting := false } } 0x860 st

theorem bootStage_bad {s : State} {st : List Byte} (hb : s.dev.booting = true) (hst : (bootList s)[s.dev.boot]? = some st)
    (hok : stageOk st = false) : exec .bootStage s = .next (bootStop s 2) := by
  simp only [exec]
  unfold execBootStage
  rw [hb, hst]
  dsimp only
  rw [hok]
  rfl

theorem bootStage_good {s : State} {st : List Byte} (hb : s.dev.booting = true) (hst : (bootList s)[s.dev.boot]? = some st)
    (hok : stageOk st = true) :
    let s1 := measured s (fun i => leAt (shake256 (measBytes s ++ shake256 st)) (8 * i) 8) (List.range 8)
    let s2 := { s1 with dev := { s1.dev with boot := s1.dev.boot + 1 } }
    exec .bootStage s = .next (if s2.dev.boot = (bootList s2).length then bootStop s2 1 else s2) := by
  intro s1 s2
  simp only [exec]
  unfold execBootStage
  rw [hb, hst]
  dsimp only
  rw [hok]
  rfl

theorem fwAllowed_iff (s : State) : fwAllowed s = true ↔ ownsSema s s.ev.unit = true ∧ devCtl s 0x861 / 2 ^ 8 % 2 ^ 8 ≠ 1 := by
  rw [fwAllowed, Bool.and_eq_true, bne_iff_ne, fwStatus]

/-- What a denied write leaves of the device (R426). -/
theorem denied_keeps (s : State) : OnlyDevice s (denied s) ∧ (denied s).dev = { s.dev with ctl := (denied s).dev.ctl } := ⟨rfl, rfl⟩

theorem fwDenied {s : State} (h : ¬ fwAllowed s = true) :
    (s.ev.flag = false → exec .fwWindowWrite s = .next (denied s)) ∧ exec .fwVerifyCommit s = .next (denied s)
      ∧ exec .fwDiscard s = .next (denied s) := by
  have hn : (!fwAllowed s) = true := by rw [Bool.eq_false_iff.mpr h]; rfl
  refine ⟨fun hf => ?_, ?_, ?_⟩ <;> simp only [exec]
  · unfold execFwWindowWrite
    rw [hf, if_neg Bool.false_ne_true, if_pos hn]
  · exact if_pos hn
  · exact if_pos hn

theorem fwWindow_on {s : State} (h : fwAllowed s = true) (hf : s.ev.flag = false) : exec .fwWindowWrite s =
    if s.ev.n % 8 ≠ 0 ∨ s.ev.bytes.length % 8 ≠ 0 ∨ s.ev.bytes.length = 0 ∨ 2 ^ 24 < s.ev.n + s.ev.bytes.length then .next s
    else .next { s with dev := { s.dev with fwWindow := wrBytes s.dev.fwWindow s.ev.n s.ev.bytes } } := by
  simp only [exec]
  unfold execFwWindowWrite
  rw [hf, if_neg Bool.false_ne_true, h]
  rfl

theorem fwVerify_on {s : State} (h : fwAllowed s = true) :
    exec .fwVerifyCommit s = .next (setDev { s with dev := { s.dev with verify := true } } 0x861 (2 ^ 8)) := by
  simp only [exec]
  exact if_neg (by rw [h]; exact Bool.false_ne_true)

theorem fwDiscard_on {s : State} (h : fwAllowed s = true) :
    exec .fwDiscard s = .next (setDev { s with dev := { s.dev with fwWindow := [] } } 0x861 0) := by
  simp only [exec]
  exact if_neg (by rw [h]; exact Bool.false_ne_true)

/-- The end of a verification (R433). -/
theorem fwCmdDone_on {s : State} (h : s.dev.verify = true) :
    let s0 := { s with dev := { s.dev with verify := false } }
    exec .fwCmdDone s = .next (match fwImage s.dev.fwWindow with
      | none => setDev s0 0x861 (3 * 2 ^ 8)
      | some l => match fwFail l 0 with
        | some (c, k) => setDev s0 0x861 (c * 2 ^ 8 + k * 2 ^ 16)
        | none => setDev { s0 with dev := { s0.dev with fwStore := some l } } 0x861 (2 * 2 ^ 8)) := by
  intro s0
  simp only [exec]
  unfold execFwCmdDone
  rw [h]
  dsimp only
  cases fwImage s.dev.fwWindow with
  | none => rfl
  | some l =>
    dsimp only
    cases fwFail l 0 with
    | none => rfl
    | some r => rfl

theorem attestation_denied {s : State} (h : ¬ ownsSema s s.ev.unit = true) : exec .attestation s = .next (denied s) := by
  simp only [exec]
  exact if_pos (by rw [Bool.eq_false_iff.mpr h]; rfl)

theorem attestation_on {s : State} (h : ownsSema s s.ev.unit = true) :
    exec .attestation s = .next (setDev { s with dev := { s.dev with attest := some (s.ev.unit % 2) } } 0x874 0) := by
  simp only [exec]
  exact if_neg (by rw [h]; exact Bool.false_ne_true)

theorem attReportDone_on {s : State} {port : Nat} (h : s.dev.attest = some port) : exec .attReportDone s
    = .next (setDev (wrMem { s with dev := { s.dev with attest := none } } (2 ^ 64 + port * 2 ^ 63 + devCtl s 0x875 % 2 ^ 63 / 8 * 8)
        (attReport s ++ Config.attestSign (attReport s))) 0x874 1) := by
  simp only [exec]
  unfold execAttReportDone
  rw [h]
  rfl

/-- Settles O47: each row is one equation on the device; a stage that verifies puts eight words into the measurement. -/
theorem firmwareUnits : Obligations.FirmwareUnits := by
  unfold Obligations.FirmwareUnits
  intro s owner free denied'
  have hden : ∀ i, exec i s = .next (denied s) → denied' i := fun i hi _ => by
    obtain ⟨h1, h2⟩ := denied_spec s
    exact ⟨_, hi, rfl, rfl, rfl, rfl, h1, h2⟩
  have hallow : owner ∧ free → fwAllowed s = true := (fwAllowed_iff s).mpr
  refine ⟨fun st hb hst => ⟨fun hok _ => ?_, fun hok _ => ?_⟩, fun hf _ => ?_, fun ho hf hbad _ => ?_, fun ho => ?_,
    fun ho hf h1 h2 h3 h4 hinv => ?_, fun ho _ => ?_, fun ho _ => ?_, fun hv => ⟨fun hi _ => ?_, fun l c k hi hl hc hk _ => ?_,
      fun l hi hl _ => ?_⟩, fun ho => hden _ (attestation_denied ho), fun ho _ => ?_, ?_⟩
  · exact ⟨_, bootStage_bad hb hst hok, rfl, rfl, devCtl_setDev_lt _ _ (by decide), fun k hk => devCtl_setDev_ne _ _ hk⟩
  · have hx := bootStage_good hb hst hok
    dsimp only at hx
    obtain ⟨s1, hs1⟩ : ∃ s1, measured s (fun i => leAt (shake256 (measBytes s ++ shake256 st)) (8 * i) 8) (List.range 8) = s1 := ⟨_, rfl⟩
    obtain ⟨h1, h2⟩ := measured_keeps s (fun i => leAt (shake256 (measBytes s ++ shake256 st)) (8 * i) 8) (List.range 8)
    have hm : ∀ k, k < 8 → devCtl s1 (0x868 + k) = leAt (shake256 (measBytes s ++ shake256 st)) (8 * k) 8 := fun k hk => by
      rw [← hs1]
      exact measured_at s (fun i => leAt_lt _ (8 * i) 8) (List.mem_range.mpr hk)
    rw [hs1] at hx h1 h2
    have hboot : s1.dev.boot = s.dev.boot := by rw [h2]
    have hlist : bootList s1 = bootList s := by rw [bootList, h2]; rfl
    by_cases hlast : s.dev.boot + 1 = (bootList s).length
    · rw [if_pos (by rw [hboot]; exact hlast.trans (congrArg List.length hlist.symm))] at hx
      refine ⟨_, hx, ?_, congrArg (· + 1) hboot, fun k hk => ?_, fun _ => ⟨rfl, devCtl_setDev_lt _ _ (by decide)⟩⟩
      · unfold OnlyDevice at *
        rw [h1]; rfl
      · exact (devCtl_setDev_ne _ _ (by omega)).trans (hm k hk)
    · rw [if_neg (by rw [hboot]; exact fun e => hlast (e.trans (congrArg List.length hlist)))] at hx
      refine ⟨_, hx, ?_, congrArg (· + 1) hboot, fun k hk => hm k hk, fun e => absurd e hlast⟩
      unfold OnlyDevice at *
      rw [h1]
  · refine ⟨_, ?_, rfl⟩
    simp only [exec]
    exact if_pos hf
  · have hx := fwWindow_on (hallow ho) hf
    rw [if_pos (by rwa [List.length_eq_zero_iff])] at hx
    exact ⟨s, hx, rfl⟩
  · obtain ⟨h1, h2, h3⟩ := fwDenied fun e => ho ((fwAllowed_iff s).mp e)
    exact ⟨fun hf => hden _ (h1 hf), hden _ h2, hden _ h3⟩
  · have hx := fwWindow_on (hallow ho) hf
    have hlen : s.ev.bytes.length ≠ 0 := fun e => h3 (List.length_eq_zero_iff.mp e)
    rw [if_neg (by omega)] at hx
    refine ⟨_, hx, rfl, rfl, rdBytes_wrBytes_same hinv.2 _ _, fun a ha => ?_⟩
    dsimp only
    rw [rdCell_wrBytes _ _ _ _ hinv.2, if_neg (by omega)]
  · exact ⟨_, fwVerify_on (hallow ho), rfl, rfl, devCtl_setDev_lt _ _ (by decide), rfl⟩
  · exact ⟨_, fwDiscard_on (hallow ho), rfl, rfl, devCtl_setDev_lt _ _ (by decide)⟩
  · have hx := fwCmdDone_on hv
    rw [hi] at hx
    exact ⟨_, hx, rfl, rfl, rfl, devCtl_setDev_lt _ _ (by decide)⟩
  · have hx := fwCmdDone_on hv
    rw [hi] at hx
    dsimp only at hx
    rw [hl] at hx
    exact ⟨_, hx, rfl, rfl, rfl, devCtl_setDev_lt _ _ (by omega)⟩
  · have hx := fwCmdDone_on hv
    rw [hi] at hx
    dsimp only at hx
    rw [hl] at hx
    exact ⟨_, hx, rfl, rfl, rfl, devCtl_setDev_lt _ _ (by decide)⟩
  · exact ⟨_, attestation_on ho, rfl, rfl, devCtl_setDev_lt _ _ (by decide)⟩
  · intro port hp a r hinv
    have hx : exec .attReportDone s
        = .next (setDev (wrMem { s with dev := { s.dev with attest := none } } a r) 0x874 1) := attReportDone_on hp
    clear_value a r
    refine ⟨_, hx, rfl, devCtl_setDev_lt _ _ (by decide), rdBytes_wrBytes_same hinv.1 _ _, fun b hb => ?_⟩
    show rdCell (wrBytes s.mem a r) b = _
    rw [rdCell_wrBytes _ _ _ _ hinv.1, if_neg (by omega)]



/-! ### Time (R431) -/

/-- A step of a state that keeps the device, the cycle and memory. -/
def KeepsDevice (s s' : State) : Prop := s'.dev = s.dev ∧ s'.cycle = s.cycle ∧ s'.mem = s.mem ∧ s'.strands = s.strands

theorem KeepsDevice.trans {a b c : State} (h : KeepsDevice a b) (k : KeepsDevice b c) : KeepsDevice a c :=
  ⟨k.1.trans h.1, k.2.1.trans h.2.1, k.2.2.1.trans h.2.2.1, k.2.2.2.trans h.2.2.2⟩

theorem keepsDevice_foldl {α : Type} (f : State → α → State) (hf : ∀ s x, KeepsDevice s (f s x)) (l : List α) :
    ∀ s, KeepsDevice s (l.foldl f s) := by
  induction l with
  | nil => exact fun s => ⟨rfl, rfl, rfl, rfl⟩
  | cons x l ih => exact fun s => (hf s x).trans (ih (f s x))

theorem timeStep_on {s : State} {x : Word} (h : s.dev.timePend = [(0x841, x)]) : exec .timeStep s
    = .next (reconvert (stepTime { s with dev := { s.dev with timePend := [] } } x.toInt)) := by
  simp only [exec]
  unfold execTimeStep
  rw [h]
  rfl

theorem stepTime_devTime (s : State) (n : Int) :
    ((stepTime s n).devTime : Int) = ((s.devTime : Int) + n * (24 * 2 ^ 32)) % (2 ^ 64 * 24 * 2 ^ 32) := by
  show (((((s.devTime : Int) + n * (nsUnits : Int)) % ((2 ^ 64 * nsUnits : Nat) : Int)).toNat : Nat) : Int) = _
  rw [Int.toNat_of_nonneg (Int.emod_nonneg _ (by decide))]
  rfl

/-- What a pending register write other than TIME_ADJ sets (R431). -/
def timeSet (s : State) (e : Nat × Word) : State :=
  if e.1 = 0x842 then setDev s 0x842 (e.2.toNat % 2 ^ 32) else setDev s 0x844 (e.2.toNat % 8)

/-- The control registers of clusters, and then of dies, take what was written to them (R421). -/
def clusterCtls (s : State) : State :=
  s.clParts.foldl (fun s e =>
    if e.2.ctlPend.isEmpty then s
    else e.2.ctlPend.foldl (fun s w =>
      if ctlShared w.1 then updClu s (e.1 / 16) (fun c => { c with ctl := tabSet c.ctl w.1 w.2 })
      else updCp s (e.1 / 16) (e.1 % 16) (fun k =>
        { k with ctl := tabSet k.ctl w.1 (ctlApply w.1 (ctlGet k.ctl w.1) w.2)
                 whiskOnce := if w.1 = 0x1C1 ∨ w.1 = 0x1C2 then false else k.whiskOnce }))
      (updCp s (e.1 / 16) (e.1 % 16) (fun k => { k with ctlPend := [] }))) s

def dieCtls (s : State) : State :=
  s.dieParts.foldl (fun s e =>
    if e.2.ctlPend.isEmpty then s
    else updDp s (e.1 / 16) (e.1 % 16) (fun k =>
      { k with ctl := k.ctlPend.foldl (fun c w => tabSet c w.1 w.2) k.ctl, ctlPend := [] })) s

theorem applyPending_eq (s : State) : applyPending s = dieCtls (clusterCtls
    ((s.dev.timePend.filter (fun e => e.1 != 0x841)).foldl timeSet
      { s with dev := { s.dev with timePend := s.dev.timePend.filter (fun e => e.1 == 0x841) } })) := rfl

theorem keepsDevice_clusterCtls (s : State) : KeepsDevice s (clusterCtls s) := by
  refine keepsDevice_foldl _ (fun s e => ?_) _ s
  split_ifs
  · exact ⟨rfl, rfl, rfl, rfl⟩
  · refine KeepsDevice.trans (b := updCp s (e.1 / 16) (e.1 % 16) (fun k => { k with ctlPend := [] })) ⟨rfl, rfl, rfl, rfl⟩
      (keepsDevice_foldl _ (fun s w => ?_) _ _)
    split_ifs <;> exact ⟨rfl, rfl, rfl, rfl⟩

theorem keepsDevice_dieCtls (s : State) : KeepsDevice s (dieCtls s) := by
  refine keepsDevice_foldl _ (fun s e => ?_) _ s
  split_ifs <;> exact ⟨rfl, rfl, rfl, rfl⟩

/-- At the end of the cycle before a tick a time register takes its new value (R431). -/
theorem nextCycle_timeSet {s : State} {r : Nat} {x : Word} (hr : r ≠ 0x841) (hp : s.dev.timePend = [(r, x)]) (hc : (s.cycle + 1) % 8 = 0) :
    (nextCycle s).cycle = s.cycle + 1
      ∧ (nextCycle s).dev = (timeSet { s with dev := { s.dev with timePend := [] } } (r, x)).dev := by
  unfold nextCycle
  dsimp only
  rw [if_pos hc]
  dsimp only
  have hone : [(r, x)].filter (fun e => e.1 != 0x841) = [(r, x)] := List.filter_cons_of_pos (bne_iff_ne.mpr hr)
  have hnot : [(r, x)].filter (fun e => e.1 == 0x841) = [] :=
    List.filter_cons_of_neg (by rw [beq_eq_false_iff_ne.mpr hr]; exact Bool.false_ne_true)
  rw [applyPending_eq]
  dsimp only
  rw [hp, hone, hnot, List.foldl_cons, List.foldl_nil]
  obtain ⟨h1, h2, -⟩ := (keepsDevice_clusterCtls _).trans (keepsDevice_dieCtls _)
  constructor
  · rw [h2]
    show (timeSet _ _).cycle = _
    unfold timeSet
    split_ifs <;> rfl
  · rw [h1]
    unfold timeSet
    dsimp only
    split_ifs <;> rfl

theorem step_late {s : State} (h0 : s.dev.off = false) (h1 : s.agenda = []) (h2 : s.cursor = cursorLate) : step s = .next (nextCycle s) := by
  unfold step onStep freeTurn
  rw [h0, if_neg Bool.false_ne_true, h1]
  dsimp only
  rw [h2]
  rfl

/-- What a PPS edge snaps DEV_TIME to: the nearest second. -/
def ppsNear (s : State) : Nat := ((devTimeNs s).toNat + 500000000) / 1000000000 * 1000000000 % 2 ^ 64

theorem ppsEdge_off {s : State} (h : devCtl s 0x844 % 2 = 0) : exec .ppsEdge s = .next s := by
  simp only [exec]
  exact if_pos h

theorem ppsEdge_on {s : State} (h : ¬ devCtl s 0x844 % 2 = 0) : exec .ppsEdge s
    = .next (if devCtl s 0x844 / 2 % 2 = 0 ∨ ppsNear s = (devTimeNs s).toNat then setDev s 0x843 (devTimeNs s).toNat
      else reconvert { setDev s 0x843 (devTimeNs s).toNat with devTime := ppsNear s * (24 * 2 ^ 32) }) := by
  simp only [exec]
  exact if_neg h

/-- Converting the not-before times again changes queued tasks alone. -/
theorem reconvert_setTime (s : State) (n : Nat) : (reconvert { s with devTime := n }).devTime = n
    ∧ (reconvert { s with devTime := n }).dev = s.dev ∧ SameMem s (reconvert { s with devTime := n }) := ⟨rfl, rfl, fun _ => rfl⟩

/-! ### Notices, links (R407) -/

theorem keepsDevice_queueEvent (s : State) (e : FaultEv) : KeepsDevice s (queueEvent s e) := ⟨rfl, rfl, rfl, rfl⟩

theorem keepsDevice_noticeAll (s : State) (code : Nat) (a b : Word) : KeepsDevice s (noticeAll s code a b) :=
  keepsDevice_foldl _ (fun s _ => keepsDevice_foldl _ (fun s _ => keepsDevice_queueEvent s _) _ s) _ s

theorem linkRetrain_on (s : State) : exec .linkRetrain s = .next (noticeAll
    { s with dev := { s.dev with retrains := tabSet s.dev.retrains s.ev.n ((tabGet s.dev.retrains s.ev.n).getD 0 + 1) } } 2
    (BitVec.ofNat 64 s.ev.n) (BitVec.ofNat 64 ((tabGet s.dev.retrains s.ev.n).getD 0 + 1))) := by
  simp only [exec]
  rfl

/-! ### Soft errors (R435) -/

theorem softHits_eq_zero_iff (s : State) (a n : Nat) : softHits s a n = 0 ↔ ∀ w ∈ s.soft, w + 8 ≤ a ∨ a + n ≤ w := by
  rw [softHits, List.countP_eq_zero]
  refine forall₂_congr fun w _ => ?_
  rw [decide_eq_true_iff]
  omega

/-- A scrub corrects the errors that stand alone in the words it meets, and counts them. -/
theorem correctSoft_spec (s : State) (a n : Nat) :
    (correctSoft s a n).mem = s.mem ∧ (correctSoft s a n).poison = s.poison
      ∧ (∀ w, w ∈ (correctSoft s a n).soft ↔ w ∈ s.soft ∧ ¬ (w < a + n ∧ a < w + 8))
      ∧ ctlGet (correctSoft s a n).dev.ctl 0x880 = ctlGet s.dev.ctl 0x880 + BitVec.ofNat 64 (softHits s a n) := by
  unfold correctSoft
  dsimp only
  by_cases h : softHits s a n = 0
  · rw [if_pos h, h]
    refine ⟨rfl, rfl, fun w => ⟨fun hw => ⟨hw, ?_⟩, And.left⟩, (BitVec.add_zero _).symm⟩
    have := (softHits_eq_zero_iff s a n).mp h w hw
    omega
  · rw [if_neg h]
    refine ⟨rfl, rfl, fun w => ?_, ctlGet_tabSet_same ..⟩
    rw [List.mem_filter, Bool.not_eq_true', decide_eq_false_iff_not]

theorem eccScrub_clean {s : State} (hf : s.ev.flag = false) : exec .eccScrub s = .next
    (if s.ev.unit = 0 then (if (physCluster s.ev.id).isSome then correctSoft s (wordOf s.ev.id) 8 else s)
      else if s.singles.contains (eccStore s.ev.unit, s.ev.cl, s.ev.id) then
        { s with singles := s.singles.filter (fun x => x != (eccStore s.ev.unit, s.ev.cl, s.ev.id)), dev := countCe s.dev 1 }
      else s) := by
  simp only [exec]
  exact congrArg _ (if_neg (by rw [hf]; exact Bool.false_ne_true))

theorem eccScrub_strike {s : State} (hf : s.ev.flag = true) : exec .eccScrub s = .next
    (if s.ev.unit = 0 then strikeMem s s.ev.id (s.ev.n == 1) else strikeStore s (eccStore s.ev.unit) s.ev.cl s.ev.id (s.ev.n == 1)) := by
  simp only [exec]
  exact congrArg _ (if_pos hf)

theorem mem_foldl_setAdd (l acc : List Nat) (x : Nat) : x ∈ l.foldl setAdd acc ↔ x ∈ l ∨ x ∈ acc := by
  induction l generalizing acc with
  | nil => simp
  | cons y l ih => rw [List.foldl_cons, ih, setAdd_mem, List.mem_cons]; tauto

/-- The words of a code word. -/
theorem mem_granule {a w : Nat} (h : w ∈ (List.range ((eccGranule a).2 / 8)).map (fun i => (eccGranule a).1 + 8 * i)) :
    (eccGranule a).1 ≤ w ∧ w < (eccGranule a).1 + (eccGranule a).2 := by
  obtain ⟨i, hi, rfl⟩ := List.mem_map.mp h
  have := List.mem_range.mp hi
  omega

theorem granule_mem {a w : Nat} (h8 : w % 8 = 0) (h1 : (eccGranule a).1 ≤ w) (h2 : w < (eccGranule a).1 + (eccGranule a).2) :
    w ∈ (List.range ((eccGranule a).2 / 8)).map (fun i => (eccGranule a).1 + 8 * i) := by
  have hg : (eccGranule a).1 % 8 = 0 ∧ (eccGranule a).2 % 8 = 0 := by
    unfold eccGranule wordOf
    split_ifs <;> dsimp only <;> omega
  exact List.mem_map.mpr ⟨(w - (eccGranule a).1) / 8, List.mem_range.mpr (by omega), by omega⟩



theorem eccGranule_eq (a : Nat) : eccGranule a
    = ((if physCluster a = none then a / 32 * 32 else a / 8 * 8), (if physCluster a = none then 32 else 8)) := by
  unfold eccGranule wordOf
  cases physCluster a <;> rfl

/-- A soft error that stands alone in its code word is one to correct; another one makes the code word bad. -/
theorem strikeMem_spec {s : State} {a : Nat} (ha : a < 2 ^ 64) (hard : Bool) :
    let g := eccGranule a
    let alone := hard = false ∧ ∀ w ∈ s.soft, w + 8 ≤ g.1 ∨ g.1 + g.2 ≤ w
    (strikeMem s a hard).mem = s.mem
      ∧ (alone → (strikeMem s a hard).poison = s.poison ∧ ∀ w, w ∈ (strikeMem s a hard).soft ↔ w ∈ s.soft ∨ w = wordOf a)
      ∧ (¬ alone → ∀ w, w % 8 = 0 → g.1 ≤ w → w < g.1 + g.2 → w ∈ (strikeMem s a hard).poison ∧ w ∉ (strikeMem s a hard).soft) := by
  intro g alone
  have hcond : (hard || softHits s g.1 g.2 != 0) = true ↔ ¬ alone := by
    rw [Bool.or_eq_true, bne_iff_ne, ne_eq, softHits_eq_zero_iff]
    cases hard <;> simp [alone]
  unfold strikeMem
  dsimp only
  rw [if_neg (by omega)]
  by_cases hb : (hard || softHits s g.1 g.2 != 0) = true
  · rw [if_pos hb]
    refine ⟨rfl, fun h => absurd h (hcond.mp hb), fun _ w h8 h1 h2 => ?_⟩
    have hw := granule_mem h8 h1 h2
    refine ⟨(mem_foldl_setAdd _ _ _).mpr (.inl hw), fun hs => ?_⟩
    have := (List.mem_filter.mp hs).2
    rw [Bool.not_eq_true', ← Bool.not_eq_true, List.contains_iff_mem] at this
    exact this hw
  · rw [if_neg hb]
    refine ⟨rfl, fun _ => ⟨rfl, fun w => by rw [setAdd_mem]; exact Or.comm⟩, fun h => absurd (hcond.mpr h) hb⟩

/-- An uncorrectable error in an accumulator store stands in the partition that runs there (R277). -/
theorem strikeStore_accs {s : State} {cl n p : Nat} {hard : Bool} (h : hard = true ∨ (EccStore.accs, cl, n) ∈ s.singles)
    (hp : (getClu s cl).pid = some p) :
    SameMem s (strikeStore s .accs cl n hard) ∧ n % 16384 ∈ (getCp (strikeStore s .accs cl n hard) cl p).accBad := by
  have hcond : (hard || s.singles.contains (EccStore.accs, cl, n)) = true := by
    rw [Bool.or_eq_true, List.contains_iff_mem]; exact h
  have hx : strikeStore s .accs cl n hard = updCp { s with singles := s.singles.filter (fun x => x != (EccStore.accs, cl, n)) } cl p
      (fun k => { k with accBad := setAdd k.accBad (n % 16384) }) := by
    unfold strikeStore
    dsimp only
    rw [if_pos hcond]
    show (match EccStore.accs, (getClu s cl).pid with
      | .accs, some p => _
      | _, _ => _) = _
    rw [hp]
  rw [hx]
  refine ⟨fun a => rfl, ?_⟩
  rw [getCp_updCp_same]
  exact (setAdd_mem ..).mpr (.inl rfl)

theorem strikeStore_single {s : State} {st : EccStore} {cl n : Nat} {hard : Bool} (h : hard = false) (hs : (st, cl, n) ∉ s.singles) :
    strikeStore s st cl n hard = { s with singles := (st, cl, n) :: s.singles } := by
  unfold strikeStore
  dsimp only
  refine if_neg ?_
  rw [Bool.or_eq_true, List.contains_iff_mem, h]
  exact fun e => e.elim Bool.false_ne_true hs

theorem thermalLimit_on (s : State) : exec .thermalLimit s = .next
    (let hot := if s.ev.flag then setAdd s.dev.hot (s.ev.unit % 8) else setDel s.dev.hot (s.ev.unit % 8)
     setDev { s with dev := { s.dev with hot := hot } } 0x890 (numBits hot)) := by
  simp only [exec]
  rfl

/-- Settles O48: each row is an equation on the device or on the marks of errors; the registers of time take their values in the
last step before a tick. -/
theorem boardEvents : Obligations.BoardEvents := by
  unfold Obligations.BoardEvents
  intro s
  refine ⟨fun x hp _ => ⟨_, timeStep_on hp, rfl, stepTime_devTime .., rfl, fun a => rfl⟩, ?_, fun h _ => ⟨s, ppsEdge_off h, rfl⟩,
    fun h _ => ?_, fun h => ⟨fun hn _ => ?_, fun hn _ => ?_⟩, fun _ => ?_, fun hf hu hc _ => ?_, fun hf hu => ⟨fun he _ => ?_, fun he _ => ?_⟩,
    fun hf hu hid => ⟨fun ha _ => ?_, fun ha _ => ?_⟩, fun hf hu => ⟨fun hn he _ => ?_, fun p hor hu2 hpid _ => ?_⟩, fun _ => ?_, fun _ => ?_⟩
  · intro r m x hr hp hoff hag hcur hc
    have hne : r ≠ 0x841 := by
      simp only [List.mem_cons, List.not_mem_nil, or_false, Prod.mk.injEq] at hr
      rcases hr with ⟨rfl, -⟩ | ⟨rfl, -⟩ <;> decide
    obtain ⟨h1, h2⟩ := nextCycle_timeSet hne hp hc
    have hset : timeSet { s with dev := { s.dev with timePend := [] } } (r, x)
        = setDev { s with dev := { s.dev with timePend := [] } } r (x.toNat % m) ∧ m ≤ 2 ^ 64 ∧ 0 < m := by
      simp only [List.mem_cons, List.not_mem_nil, or_false, Prod.mk.injEq] at hr
      rcases hr with ⟨rfl, rfl⟩ | ⟨rfl, rfl⟩
      · exact ⟨rfl, by decide, by decide⟩
      · exact ⟨rfl, by decide, by decide⟩
    rw [hset.1] at h2
    have hlt : x.toNat % m < 2 ^ 64 := Nat.lt_of_lt_of_le (Nat.mod_lt _ hset.2.2) hset.2.1
    refine ⟨_, step_late hoff hag hcur, h1, ?_, by rw [h2]; rfl, fun k hk => ?_⟩
    · rw [devCtl, h2]
      exact devCtl_setDev_lt _ r hlt
    · rw [devCtl, h2]
      exact devCtl_setDev_ne _ _ hk
  · have hx := ppsEdge_on (s := s) (by omega)
    rw [if_pos (.inl (by omega))] at hx
    exact ⟨_, hx, rfl, devCtl_setDev_lt _ _ (devTimeNs s).isLt⟩
  · have hx := ppsEdge_on (s := s) (by omega)
    rw [if_neg (fun e => e.elim (by omega) hn)] at hx
    obtain ⟨h1, h2, h3⟩ := reconvert_setTime (setDev s 0x843 (devTimeNs s).toNat) (ppsNear s * (24 * 2 ^ 32))
    refine ⟨_, hx, ?_, h3, h1⟩
    rw [devCtl, h2]
    exact devCtl_setDev_lt _ _ (devTimeNs s).isLt
  · have hx := ppsEdge_on (s := s) (by omega)
    rw [if_pos (.inr hn)] at hx
    exact ⟨_, hx, rfl, devCtl_setDev_lt _ _ (devTimeNs s).isLt⟩
  · obtain ⟨h1, -, h3, h4⟩ := keepsDevice_noticeAll
      { s with dev := { s.dev with retrains := tabSet s.dev.retrains s.ev.n ((tabGet s.dev.retrains s.ev.n).getD 0 + 1) } } 2
      (BitVec.ofNat 64 s.ev.n) (BitVec.ofNat 64 ((tabGet s.dev.retrains s.ev.n).getD 0 + 1))
    refine ⟨_, linkRetrain_on s, ?_, fun a => by rw [h3], h4⟩
    rw [h1]
    exact tabGet_tabSet_same ..
  · have hx := eccScrub_clean hf
    rw [if_pos hu, if_pos (Option.isSome_iff_ne_none.mpr hc)] at hx
    obtain ⟨h1, h2, h3, h4⟩ := correctSoft_spec s (wordOf s.ev.id) 8
    exact ⟨_, hx, fun a => by rw [h1], h2, h3, h4⟩
  · have hx := eccScrub_clean hf
    rw [if_neg (by omega), if_pos (List.contains_iff_mem.mpr he)] at hx
    refine ⟨_, hx, fun a => rfl, fun x => ?_, ctlGet_tabSet_same ..⟩
    rw [List.mem_filter, bne_iff_ne]
  · have hx := eccScrub_clean hf
    rw [if_neg (by omega), if_neg fun e => he (List.contains_iff_mem.mp e)] at hx
    exact ⟨s, hx, rfl⟩
  · have hx := eccScrub_strike hf
    rw [if_pos hu] at hx
    obtain ⟨h1, h2, -⟩ := strikeMem_spec (s := s) hid (s.ev.n == 1)
    obtain ⟨h3, h4⟩ := h2 ⟨beq_eq_false_iff_ne.mpr ha.1, by rw [eccGranule_eq]; exact ha.2⟩
    exact ⟨_, hx, fun a => by rw [h1], h3, h4⟩
  · have hx := eccScrub_strike hf
    rw [if_pos hu] at hx
    obtain ⟨h1, -, h2⟩ := strikeMem_spec (s := s) hid (s.ev.n == 1)
    refine ⟨_, hx, fun a => by rw [h1], ?_⟩
    rw [eccGranule_eq] at h2
    exact h2 fun e => ha ⟨beq_eq_false_iff_ne.mp e.1, e.2⟩
  · have hx := eccScrub_strike hf
    rw [if_neg (by omega), strikeStore_single (beq_eq_false_iff_ne.mpr hn) he] at hx
    exact ⟨_, hx, rfl⟩
  · have hst : eccStore s.ev.unit = .accs := by rw [hu2]; rfl
    rw [hst] at hor
    have hx := eccScrub_strike hf
    rw [if_neg (by omega), hst] at hx
    exact ⟨_, hx, strikeStore_accs (hor.imp_left beq_iff_eq.mpr) hpid⟩
  · refine ⟨_, thermalLimit_on s, rfl, ?_, fun d hd => ?_⟩
    · show _ ∈ (if s.ev.flag then setAdd s.dev.hot (s.ev.unit % 8) else setDel s.dev.hot (s.ev.unit % 8)) ↔ _
      cases s.ev.flag with
      | true => exact ⟨fun _ => rfl, fun _ => (setAdd_mem ..).mpr (.inl rfl)⟩
      | false => exact ⟨fun h => absurd rfl ((setDel_mem ..).mp h).2, fun h => absurd h Bool.false_ne_true⟩
    · show _ ∈ (if s.ev.flag then setAdd s.dev.hot (s.ev.unit % 8) else setDel s.dev.hot (s.ev.unit % 8)) ↔ _
      cases s.ev.flag with
      | true => exact (setAdd_mem ..).trans (or_iff_right hd)
      | false => exact (setDel_mem ..).trans (and_iff_left hd)
  · exact ⟨_, by simp only [exec]; rfl, rfl⟩

end Sys2Proof.Machine
end

section
/-! SUPPORT. A partition command that is not carried out as stated, operations that complete, domains at their homes, and the Whisk. -/

namespace Sys2Proof.Machine

open Laws



/-! ### A die reset of a state whose dies do not stand in order (R407) -/

/-- A task that waits in the privileged queue of a die. -/
def queuedTask : FqEntry := { cl := 96, entry := freshEntry 1 1 [], counts := false }

/-- A state that lists die 5 before die 3: what is listed of die 3 is hidden as long as die 5 is listed. -/
def unsortedDies : State :=
  { State.reset with dies := [(5, {}), (3, { fq := [queuedTask] })], ev := { unit := 5 } }

/-- The reset of die 5 takes its entry out of the list and so uncovers the queue that is listed of die 3. -/
theorem dieReset_unsortedDies : exec .dieReset unsortedDies
    = .next { unsortedDies with dies := [(3, { fq := [queuedTask] })] } := by
  simp only [exec]
  rfl

/-- Refutes O49: its clause on die resets speaks of every state, also of one whose tables do not stand in order. With die 5 listed
before die 3, the reset of die 5 changes what the fault queue of die 3 reads. -/
theorem not_partitionCommands : ¬ Obligations.PartitionCommands := by
  unfold Obligations.PartitionCommands
  intro h
  obtain ⟨-, -, -, -, -, -, -, -, -, -, hreset⟩ := h unsortedDies
  have hinv : unsortedDies.Inv := ⟨by decide, by decide⟩
  obtain ⟨s', hx, -, -, -, -, -, -, -, -, -, -, -, hkeep⟩ := hreset hinv
  obtain ⟨-, -, -, -, -, -, hqueue⟩ := hkeep fun o ho => absurd ho List.not_mem_nil
  obtain ⟨hfq, -⟩ := hqueue 3 (by decide)
  rw [dieReset_unsortedDies, Host.Outcome.next.injEq] at hx
  subst hx
  exact absurd hfq (by decide)



/-! #### Operations that complete -/

section
variable {s : State} {task : Nat}

theorem updRunning_updRunning (s : State) (task : Nat) (f g : Strand → Strand)
    (hf : ∀ t, (f t).task.id = t.task.id) :
    updRunning (updRunning s task f) task g = updRunning s task (g ∘ f) := by
  unfold updRunning
  rw [show ∀ l : List (Nat × Strand), (l.map fun e => if e.2.task.id == task then (e.1, f e.2) else e).map
      (fun e => if e.2.task.id == task then (e.1, g e.2) else e)
      = l.map (fun e => if e.2.task.id == task then (e.1, (g ∘ f) e.2) else e) from fun l => by
    rw [List.map_map]
    refine List.map_congr_left fun e _ => ?_
    dsimp only [Function.comp_apply]
    by_cases he : (e.2.task.id == task) = true
    · rw [if_pos he, if_pos he]
      dsimp only
      rw [hf, if_pos he]
    · rw [if_neg he, if_neg he, if_neg he]]

theorem updRunning_id : updRunning s task (fun t => t) = s := by
  unfold updRunning
  rw [show (fun e : Nat × Strand => if (e.2.task.id == task) = true then (e.1, e.2) else e) = id from funext fun e => ite_self _,
    List.map_id]

theorem isRunning_updRunning {f : Strand → Strand} (hf : ∀ t, (f t).task.id = t.task.id) (k : Nat) :
    isRunning (updRunning s task f) k = isRunning s k := by
  unfold isRunning updRunning
  rw [List.any_map]
  congr 1
  funext e
  dsimp only [Function.comp_apply]
  split_ifs
  · dsimp only
    rw [hf]
  · rfl

theorem updTask_of_isRunning (h : isRunning s task = true) (pid : Nat) (f : Strand → Strand) (img : State → Nat → State)
    (c : Cont → Cont) : updTask s task pid f img c = updRunning s task f := if_pos h

end

/-- The register of a completed operation takes its result. -/
def takesResult (dst : Option RegRef) (x : Nat) (t : Strand) : Strand :=
  match dst with
  | some (.g n) => if n = 0 then t else { t with g := t.g.set (n % 64) (BitVec.ofNat 64 x) (by omega) }
  | some (.v n) => { t with v := t.v.set (n % 32) (BitVec.ofNat 1024 x) (by omega) }
  | _ => t

/-- The counter of a completed operation counts down. -/
def countsDown (ctr : Option Nat) (t : Strand) : Strand :=
  match ctr with
  | some k => { t with c := t.c.set (k % 4) (t.c[k % 4] + 0xFFFF) (by omega) }
  | none => t

/-- What a completed operation does to its strand. -/
def takesOp (dst : Option RegRef) (ctr : Option Nat) (x : Nat) (f : FpFlags) (t : Strand) : Strand :=
  countsDown ctr (takesResult dst x { t with flags := t.flags ||| f })

theorem takesResult_keeps (dst : Option RegRef) (x : Nat) (t : Strand) : takesResult dst x t
    = { t with g := (takesResult dst x t).g, v := (takesResult dst x t).v } := by
  rcases dst with _ | n | n | n | n | n <;> simp only [takesResult]
  split_ifs <;> rfl

theorem countsDown_keeps (ctr : Option Nat) (t : Strand) : countsDown ctr t = { t with c := (countsDown ctr t).c } := by
  cases ctr <;> rfl

theorem takesOp_task (dst : Option RegRef) (ctr : Option Nat) (x : Nat) (f : FpFlags) (t : Strand) :
    (takesOp dst ctr x f t).task = t.task := by
  unfold takesOp
  rw [countsDown_keeps, takesResult_keeps]

theorem takesOp_delivered (dst : Option RegRef) (ctr : Option Nat) (x : Nat) (f : FpFlags) (t : Strand) :
    Delivered t (takesOp dst ctr x f t) dst ctr x f := by
  have hc : takesOp dst ctr x f t = { takesResult dst x { t with flags := t.flags ||| f } with c := (takesOp dst ctr x f t).c } :=
    countsDown_keeps ctr _
  have hr : takesOp dst ctr x f t = { t with
      flags := t.flags ||| f, c := (takesOp dst ctr x f t).c
      g := (takesResult dst x { t with flags := t.flags ||| f }).g, v := (takesResult dst x { t with flags := t.flags ||| f }).v } := by
    rw [hc, takesResult_keeps]
  have hg : (takesOp dst ctr x f t).g = (takesResult dst x { t with flags := t.flags ||| f }).g := by rw [hr]
  have hv : (takesOp dst ctr x f t).v = (takesResult dst x { t with flags := t.flags ||| f }).v := by rw [hr]
  refine ⟨fun r h => ?_, fun n h hn => ?_, fun r h => ?_, fun n h => ?_, fun k => ?_, ?_, ?_, ?_, ?_, ?_, ?_, ?_, ?_, ?_⟩
  · rw [hg]
    rcases dst with _ | n | n | n | n | n <;> simp only [takesResult]
    split_ifs with h0
    · rfl
    · have hne : n % 64 ≠ r.val := (h n rfl).resolve_right h0
      exact Vector.getElem_set_ne (by omega) r.isLt hne
  · subst h
    simp only [hg, takesResult, if_neg hn]
    exact Vector.getElem_set_self (by omega)
  · rw [hv]
    rcases dst with _ | n | n | n | n | n <;> simp only [takesResult]
    · split_ifs <;> rfl
    · exact Vector.getElem_set_ne (by omega) r.isLt (h n rfl)
  · subst h
    simp only [hv, takesResult]
    exact Vector.getElem_set_self (by omega)
  · have hk : (takesResult dst x { t with flags := t.flags ||| f }).c = t.c := by rw [takesResult_keeps]
    cases ctr with
    | none => simp only [takesOp, countsDown, hk, Option.map_none, reduceCtorEq, if_false]
    | some j =>
      simp only [takesOp, countsDown, hk, Option.map_some, Option.some.injEq]
      by_cases hjk : j % 4 = k.val
      · rw [if_pos hjk]
        have : (t.c.set (j % 4) (t.c[j % 4] + 65535) (by omega))[k] = t.c[j % 4] + 65535 := by
          simp only [Fin.getElem_fin, ← hjk, Vector.getElem_set_self]
        rw [this]
        simp only [Fin.getElem_fin, ← hjk, BitVec.sub_eq_add_neg]
        rfl
      · rw [if_neg hjk]
        exact Vector.getElem_set_ne (by omega) k.isLt hjk
  all_goals rw [hr]

/-- The completion of an operation of a running task: nothing else than strands, operations, and what waits for a channel. -/
def OnlyDone (s s' : State) : Prop :=
  s' = { s with strands := s'.strands, ops := s'.ops, colls := s'.colls, conts := s'.conts, parked := s'.parked }

theorem OnlyDone.trans {a b c : State} (h : OnlyDone a b) (k : OnlyDone b c) : OnlyDone a c := by
  unfold OnlyDone at *
  rw [k, h]

theorem OnlyDone.mem {s s' : State} (h : OnlyDone s s') : s'.mem = s.mem := by rw [h]

theorem OnlyDone.sameMem {s s' : State} (h : OnlyDone s s') : SameMem s s' := fun a => by rw [h.mem]

theorem OnlyDone.getCp {s s' : State} (h : OnlyDone s s') (c p : Nat) : getCp s' c p = getCp s c p := by rw [h]; rfl

theorem OnlyDone.getDp {s s' : State} (h : OnlyDone s s') (c p : Nat) : getDp s' c p = getDp s c p := by rw [h]; rfl

theorem OnlyDone.getDie {s s' : State} (h : OnlyDone s s') (c : Nat) : getDie s' c = getDie s c := by rw [h]; rfl

theorem OnlyDone.getClu {s s' : State} (h : OnlyDone s s') (c : Nat) : getClu s' c = getClu s c := by rw [h]; rfl

theorem OnlyDone.getDom {s s' : State} (h : OnlyDone s s') (p sel inst : Nat) : getDom s' p sel inst = getDom s p sel inst := by
  rw [h]; rfl

theorem onlyDone_updRunning (s : State) (task : Nat) (f : Strand → Strand) : OnlyDone s (updRunning s task f) := rfl

theorem onlyDone_dropOp (s : State) (id : Nat) : OnlyDone s (dropOp s id) := rfl

theorem onlyDone_finSet (s : State) (id x : Nat) : OnlyDone s (finSet s id x) := rfl

section
variable {s : State} {o : Op}

theorem writeReg_of_isRunning {task : Nat} (h : isRunning s task = true) (pid : Nat) (r : RegRef) (x : Nat) :
    writeReg s task pid r x = updRunning s task (takesResult (some r) x) := by
  unfold writeReg
  rw [updTask_of_isRunning h]
  refine congrArg (updRunning s task) (funext fun t => ?_)
  cases r <;> rfl

theorem addCtr_of_isRunning {task : Nat} (h : isRunning s task = true) (pid k : Nat) :
    addCtr s task pid k 0xFFFF = updRunning s task (countsDown (some k)) := by
  unfold addCtr
  rw [updTask_of_isRunning h]
  rfl

theorem completeOp_eq (h : isRunning s o.task = true) (x : Nat) :
    completeOp s o x = dropOp (updRunning s o.task (fun t => countsDown o.ctr (takesResult o.dst x t))) o.id := by
  have hr : ∀ r t, (takesResult (some r) x t).task.id = t.task.id := fun r t => by rw [takesResult_keeps]
  unfold completeOp
  refine congrArg (dropOp · o.id) ?_
  cases o.dst with
  | none =>
    cases o.ctr with
    | none => exact updRunning_id.symm
    | some k => exact addCtr_of_isRunning h ..
  | some r =>
    dsimp only
    rw [writeReg_of_isRunning h]
    cases o.ctr with
    | none => rfl
    | some k =>
      dsimp only
      rw [addCtr_of_isRunning ((isRunning_updRunning (hr r) _).trans h), updRunning_updRunning s o.task _ _ (hr r)]
      rfl

theorem finishOp_eq (h : isRunning s o.task = true) (x : Nat) :
    finishOp s o x = dropOp (updRunning s o.task (takesOp o.dst o.ctr x o.flags)) o.id := by
  let g : Strand → Strand := fun t => { t with flags := t.flags ||| o.flags }
  have hg : ∀ t, (g t).task.id = t.task.id := fun t => rfl
  have h1 : (if o.flags = 0 then s else addFlags s o.task o.pid o.flags) = updRunning s o.task g := by
    by_cases hf : o.flags = 0
    · have hid : g = fun t => t := funext fun t => by
        show ({ t with flags := t.flags ||| o.flags } : Strand) = t
        rw [hf, show t.flags ||| 0 = t.flags from BitVec.or_zero]
      rw [if_pos hf, hid]
      exact updRunning_id.symm
    · rw [if_neg hf]
      exact updTask_of_isRunning h ..
  unfold finishOp
  rw [h1, completeOp_eq ((isRunning_updRunning hg _).trans h), updRunning_updRunning s o.task _ _ hg]
  rfl

theorem finishOp_onlyDone (h : isRunning s o.task = true) (x : Nat) : OnlyDone s (finishOp s o x) := by
  rw [finishOp_eq h]
  exact (onlyDone_updRunning ..).trans (onlyDone_dropOp ..)

theorem finishOp_strand (h : isRunning s o.task = true) (x n : Nat) :
    tabGet (finishOp s o x).strands n = (tabGet s.strands n).map (updStrand o.task (takesOp o.dst o.ctr x o.flags)) := by
  rw [finishOp_eq h]
  exact updRunning_strand ..

theorem finishOp_ops (h : isRunning s o.task = true) (x : Nat) : (finishOp s o x).ops = s.ops.filter (fun q => q.id != o.id) := by
  rw [finishOp_eq h]
  exact List.filter_congr fun q _ => rfl

theorem finished_finishOp (h : isRunning s o.task = true) (x : Nat) : Finished s (finishOp s o x) o x o.flags := by
  refine ⟨fun q hq => finishOp_no hq, fun n t ht hid => ⟨takesOp o.dst o.ctr x o.flags t, ?_, takesOp_delivered ..⟩⟩
  rw [finishOp_strand h, ht, Option.map_some, updStrand, if_pos (by simpa using hid)]

/-- An operation that nothing holds back completes with its result. -/
theorem doneOp_completes {o : Op} {id : Nat} (x : Nat) (hf : s.ops.find? (fun q => q.id == id) = some o) (hu : Unhindered s o) :
    doneOp s id x = finishOp (finSet s id x) { o with fin := some x } x := by
  have hid : o.id = id := by simpa using List.find?_some hf
  have hfin : (finSet s id x).ops.find? (fun q => q.id == id) = some { o with fin := some x } := by
    have hcomp : ((fun q : Op => q.id == id) ∘ withFin id x) = fun q => q.id == id := by
      funext q
      rw [Function.comp_apply, withFin_id]
    rw [finSet_ops, List.find?_map, hcomp, hf, Option.map_some, withFin, if_pos (by simpa using hid)]
  obtain ⟨he, hr, hd⟩ := hu
  have hdr : drained (finSet s id x) { o with fin := some x } = true := by
    have h1 : (s.egress.any fun e => e.op == o.id && (decide (5 ≤ o.scope) || (decide (e.dst < 8) && decide (3 ≤ o.scope)))) = false :=
      List.any_eq_false.mpr fun e hm => by simp [he e hm]
    have h2 : (s.repl.any fun e => e.op == o.id) = false := List.any_eq_false.mpr fun e hm => by simpa using hr e hm
    show ((!s.egress.any _) && (!s.repl.any _)) = true
    rw [h1, h2]
    rfl
  have hm : mayComplete (finSet s id x) { o with fin := some x } = true := by
    rw [mayComplete, hdr, depsMet, hd]
    rfl
  rw [doneOp_eq, hfin]
  exact if_pos hm

/-- What the end of an operation leaves: its result and flags are delivered, and nothing but strands and operations changes. -/
theorem doneOp_finished {o : Op} {id : Nat} (x : Nat) (hf : s.ops.find? (fun q => q.id == id) = some o) (hu : Unhindered s o)
    (hr : isRunning s o.task = true) :
    Finished s (doneOp s id x) o x o.flags ∧ OnlyDone s (doneOp s id x)
      ∧ (doneOp s id x).ops = (s.ops.map (withFin id x)).filter (fun q => q.id != o.id) := by
  have hrun : isRunning (finSet s id x) ({ o with fin := some x } : Op).task = true := hr
  rw [doneOp_completes x hf hu]
  exact ⟨finished_finishOp (s := finSet s id x) hrun x, (onlyDone_finSet s id x).trans (finishOp_onlyDone hrun x), finishOp_ops hrun x⟩

end



/-! #### Domains at their homes -/

section
variable {s : State} {p sel inst : Nat}

theorem putDom_eq (s : State) (p sel inst : Nat) (d : Domain) : putDom s p sel inst d
    = { s with clParts := (putDom s p sel inst d).clParts, dieParts := (putDom s p sel inst d).dieParts
               parts := (putDom s p sel inst d).parts } := by
  unfold putDom
  split_ifs
  · rfl
  · rfl
  · cases tabGet s.parts p <;> rfl

/-- A domain of an existing partition reads as it was put. -/
theorem getDom_putDom_same (h : selKind sel < 2 ∨ partExists s p = true) (d : Domain) :
    getDom (putDom s p sel inst d) p sel inst = d := by
  unfold getDom putDom
  by_cases h0 : selKind sel = 0
  · rw [if_pos h0, if_pos h0, getCp_updCp_same, if_pos (by omega)]
    dsimp only
    rw [tabGet_tabSet_same]
    rfl
  by_cases h1 : selKind sel = 1
  · rw [if_neg h0, if_neg h0, if_pos h1, if_pos h1, getDp_updDp_same, if_pos (by omega)]
    dsimp only
    rw [tabGet_tabSet_same]
    rfl
  · obtain ⟨q, hq⟩ := Option.isSome_iff_exists.mp (h.resolve_left (by omega))
    rw [if_neg h0, if_neg h1, if_neg h0, if_neg h1, hq, if_neg (by omega)]
    dsimp only
    rw [tabGet_tabSet_same]
    dsimp only
    rw [tabGet_tabSet_same]
    rfl

/-- What the news of a GEN fires. -/
theorem fireDomain_told (s : State) (p sel cl : Nat) :
    Told s (fireDomain s p sel cl) p sel cl (getDom s p sel (domInst sel cl)).gen := by
  refine ⟨?_, fun t ht n a x b he hp hc hs hg => List.mem_map.mpr ⟨t, ht, ?_⟩⟩
  · refine List.map_congr_left fun c _ => ite_congr (propext ?_) (fun _ => rfl) fun _ => rfl
    simp only [Bool.and_eq_true, beq_iff_eq, bne_iff_ne, and_assoc]
  · rw [he]
    exact if_pos (by simp only [Bool.and_eq_true, beq_iff_eq, bne_iff_ne]; exact ⟨⟨⟨⟨trivial, hp⟩, hc⟩, hs⟩, hg⟩)

theorem Told.of_base {s s0 s' : State} {p sel cl gen : Nat} (h : Told s0 s' p sel cl gen) (hc : s0.conts = s.conts)
    (hp : s0.parked = s.parked) : Told s s' p sel cl gen := by
  obtain ⟨h1, h2⟩ := h
  exact ⟨by rw [h1, hc], fun t ht => h2 t (hp ▸ ht)⟩

/-- The members that a completed phase tells. -/
theorem tellMembers_away (hk : selKind sel ≠ 0) (w : Word) (gen : Nat) : tellMembers p sel inst w s gen
    = { s with flights := s.flights ++ (domMembers sel inst w).map (fun c => ⟨1, p, sel, inst, c, false, gen⟩) } := if_neg hk

theorem tellMembers_here (hk : selKind sel = 0) (w : Word) (gen : Nat) : tellMembers p sel inst w s gen = fireDomain s p sel inst :=
  if_pos hk

theorem getDom_tellMembers (w : Word) (gen : Nat) : getDom (tellMembers p sel inst w s gen) p sel inst = getDom s p sel inst := by
  unfold tellMembers
  split_ifs <;> rfl

theorem tellMembers_mem (w : Word) (gen : Nat) : (tellMembers p sel inst w s gen).mem = s.mem := by
  unfold tellMembers
  split_ifs <;> rfl

/-- One arrival that completes a phase. -/
theorem domArrive_tells {d' : Domain} {gen : Nat} (ph : Bool)
    (h : countArrivals (domTot s p sel inst (getDom s p sel inst).word) [ph] (getDom s p sel inst) [] = (d', [gen])) :
    domArrive s p sel inst ph = tellMembers p sel inst (getDom s p sel inst).word (putDom s p sel inst d') gen := by
  unfold domArrive
  dsimp only
  rw [h]
  rfl

end

/-- The state of an event without the message that it takes. -/
def landed (s : State) : State := { s with flights := s.flights.eraseIdx s.ev.n }

theorem domainArrival_on {s : State} {f : Flight} (hf : s.flights[s.ev.n]? = some f) (he : s.ev.flag = false) (hk : f.kind = 0) :
    exec .domainArrival s = .next (domArrive (landed s) f.pid f.sel f.inst f.phase) := by
  simp only [exec, execDomainArrival, he, hf, hk, if_true, Bool.false_eq_true, if_false]
  rfl

theorem domainCompletion_on {s : State} {f : Flight} (hf : s.flights[s.ev.n]? = some f) (hk : f.kind = 1) :
    exec .domainCompletion s = .next (fireDomain (landed s) f.pid f.sel f.cl) := by
  simp only [exec, execDomainCompletion, hf, hk, if_true]
  rfl

theorem domainRequestAtHome_on {s : State} {o : Op} (hn : Names s o) (hr : opReady s o = true) (hk : o.kind = .domset ∨ o.kind = .domget) :
    exec .domainRequestAtHome s = .next (doDomain s o) := by
  obtain ⟨hf, -, -⟩ := hn
  have hf' : s.ops.find? (fun q => q.id == s.ev.id && (q.kind == .domset || q.kind == .domget) && opReady s q) = some o := by
    obtain ⟨as, bs, hs, hno⟩ := (List.find?_eq_some_iff_append.mp hf).2
    have hb : ((o.kind == .domset) || (o.kind == .domget)) = true := by
      rcases hk with hk | hk <;> simp [hk]
    refine List.find?_eq_some_iff_append.mpr ⟨?_, as, bs, hs, fun a ha => ?_⟩
    · rw [hr, hb, (List.find?_eq_some_iff_append.mp hf).1]; rfl
    · have := hno a ha
      rw [Bool.not_eq_true'] at this ⊢
      rw [this]; rfl
  simp only [exec, execDomainRequestAtHome, hf']

/-- An arrival at the home. -/
theorem domainArrival_counts {s : State} {f : Flight} (hf : s.flights[s.ev.n]? = some f) (he : s.ev.flag = false) (hk : f.kind = 0)
    {d' : Domain} (hp : selKind f.sel < 2 ∨ partExists s f.pid = true)
    (h : countArrivals (domTot s f.pid f.sel f.inst (getDom s f.pid f.sel f.inst).word) [f.phase] (getDom s f.pid f.sel f.inst) []
      = (d', [])) :
    Performs .domainArrival s (fun s' => getDom s' f.pid f.sel f.inst = d' ∧ s'.flights = s.flights.eraseIdx s.ev.n ∧ SameMem s s') := by
  intro _
  have ha : domArrive (landed s) f.pid f.sel f.inst f.phase = putDom (landed s) f.pid f.sel f.inst d' := domArrive_counts f.phase h
  refine ⟨_, domainArrival_on hf he hk, ?_⟩
  rw [ha]
  refine ⟨getDom_putDom_same (s := landed s) hp d', ?_, fun a => ?_⟩ <;> rw [putDom_eq] <;> rfl

theorem domainArrival_tells {s : State} {f : Flight} (hf : s.flights[s.ev.n]? = some f) (he : s.ev.flag = false) (hk : f.kind = 0)
    {d' : Domain} (hp : selKind f.sel < 2 ∨ partExists s f.pid = true)
    (h : countArrivals (domTot s f.pid f.sel f.inst (getDom s f.pid f.sel f.inst).word) [f.phase] (getDom s f.pid f.sel f.inst) []
      = (d', [d'.gen])) :
    Performs .domainArrival s (fun s' => getDom s' f.pid f.sel f.inst = d' ∧ SameMem s s'
      ∧ (selKind f.sel = 0 → s'.flights = s.flights.eraseIdx s.ev.n ∧ Told s s' f.pid f.sel f.inst d'.gen)
      ∧ (selKind f.sel ≠ 0 → s'.flights = s.flights.eraseIdx s.ev.n
        ++ (domMembers f.sel f.inst (getDom s f.pid f.sel f.inst).word).map (fun c => ⟨1, f.pid, f.sel, f.inst, c, false, d'.gen⟩))) := by
  intro _
  have ha : domArrive (landed s) f.pid f.sel f.inst f.phase = tellMembers f.pid f.sel f.inst (getDom s f.pid f.sel f.inst).word
      (putDom (landed s) f.pid f.sel f.inst d') d'.gen := domArrive_tells (s := landed s) f.phase h
  have hg := getDom_putDom_same (s := landed s) (inst := f.inst) hp d'
  have he' := putDom_eq (landed s) f.pid f.sel f.inst d'
  refine ⟨_, domainArrival_on hf he hk, ?_⟩
  rw [ha]
  refine ⟨(getDom_tellMembers ..).trans hg, fun a => ?_, fun h0 => ?_, fun h0 => ?_⟩
  · rw [tellMembers_mem, he']; rfl
  · rw [tellMembers_here h0]
    refine ⟨?_, ?_⟩
    · show (putDom (landed s) f.pid f.sel f.inst d').flights = _
      rw [he']; rfl
    · have ht := fireDomain_told (putDom (landed s) f.pid f.sel f.inst d') f.pid f.sel f.inst
      rw [show domInst f.sel f.inst = f.inst from if_pos h0, hg] at ht
      exact ht.of_base (by rw [he']; rfl) (by rw [he']; rfl)
  · rw [tellMembers_away h0, he']; rfl

/-- The counters that a sweep has still to read. -/
def unread (sel inst : Nat) (d : Domain) : List Nat := (domMembers sel inst d.word).filter (fun c => !(d.read.any (fun e => e.1 == c)))

/-- The counters of member `c` as a sweep reads them. -/
def readCnt (s : State) (p c : Nat) : Nat × Nat × Nat := (c, (getCp s c p).msgSent, (getCp s c p).msgRecv)

theorem phaseSweep_on {s : State} {c : Nat} (hd : (getDom s s.ev.pid s.ev.unit s.ev.cl).sweep ≠ 0) (hk : selKind s.ev.unit < 3)
    (hc : (unread s.ev.unit s.ev.cl (getDom s s.ev.pid s.ev.unit s.ev.cl))[s.ev.n
        % max 1 (unread s.ev.unit s.ev.cl (getDom s s.ev.pid s.ev.unit s.ev.cl)).length]? = some c) (hlt : c < 256) :
    let d := getDom s s.ev.pid s.ev.unit s.ev.cl
    let d1 := { d with read := d.read ++ [readCnt s s.ev.pid c] }
    exec .phaseSweep s = .next (if (unread s.ev.unit s.ev.cl d).length = 1 then sweepEnd s s.ev.pid s.ev.unit s.ev.cl d1
      else putDom s s.ev.pid s.ev.unit s.ev.cl d1) := by
  intro d d1
  have hsz : domSize s s.ev.pid s.ev.unit s.ev.cl d.word - (domMembers s.ev.unit s.ev.cl d.word).length = 0 := by
    unfold domSize
    rw [if_neg (by omega : ¬ selKind s.ev.unit = 3), Nat.mul_one, Nat.sub_self]
  simp only [exec, execPhaseSweep]
  rw [if_neg hd, hsz]
  simp only [List.range_zero, List.map_nil, List.append_nil]
  rw [show (domMembers s.ev.unit s.ev.cl (getDom s s.ev.pid s.ev.unit s.ev.cl).word).filter
      (fun c => !((getDom s s.ev.pid s.ev.unit s.ev.cl).read.any (fun e => e.1 == c))) = unread s.ev.unit s.ev.cl d from rfl]
  rw [hc]
  dsimp only
  rw [if_pos hlt]
  rfl

/-- The totals that a sweep has read. -/
def sweepSums (l : List (Nat × Nat × Nat)) : Nat × Nat :=
  ((l.map (fun e => e.2.1)).sum % 2 ^ 48, (l.map (fun e => e.2.2)).sum % 2 ^ 48)

theorem sweepEnd_eq (s : State) (p sel inst : Nat) (d : Domain) : sweepEnd s p sel inst d =
    if (sweepSums d.read).1 = (sweepSums d.read).2 ∧ d.last = some (sweepSums d.read) then domComplete s p sel inst
    else putDom s p sel inst { d with sweep := d.sweep + 1, read := [], last := some (sweepSums d.read) } := by
  unfold sweepEnd sweepSums
  simp only [List.sum_eq_foldl_nat]

/-- Sweeps that have succeeded, with fewer arrivals waiting than the next phase needs. -/
theorem domComplete_tells {s : State} {p sel inst : Nat}
    (h : (getDom s p sel inst).later.length < domTot s p sel inst (getDom s p sel inst).word) :
    let d := getDom s p sel inst
    let d' : Domain := { d with gen := (d.gen + 1) % 2 ^ 16, arr := d.later.length, phase := d.later.any id, sweep := 0
                                read := [], last := none, later := [] }
    domComplete s p sel inst = tellMembers p sel inst d.word (putDom s p sel inst d') d'.gen := by
  intro d d'
  unfold domComplete
  dsimp only
  rw [countArrivals_below _ _ _ _ rfl (by simpa using h)]
  simp only [Nat.zero_add, Bool.false_or]
  rfl



/-! #### The statement -/

section
variable {s : State} {f : Flight}

theorem domainArrival_clauses (hf : s.flights[s.ev.n]? = some f) (hk : f.kind = 0) (he : s.ev.flag = false)
    (hp : selKind f.sel < 2 ∨ partExists s f.pid = true) :
    let d := getDom s f.pid f.sel f.inst
    let tot := domTot s f.pid f.sel f.inst d.word
    let d' := fun (s' : State) => getDom s' f.pid f.sel f.inst
    (d.arr + 1 < tot → d.sweep = 0 → Performs .domainArrival s (fun s' => (d' s').arr = d.arr + 1 ∧ (d' s').gen = d.gen
      ∧ (d' s').sweep = 0 ∧ s'.flights = s.flights.eraseIdx s.ev.n ∧ SameMem s s'))
    ∧ (d.sweep ≠ 0 → Performs .domainArrival s (fun s' => (d' s').arr = d.arr ∧ (d' s').later = d.later ++ [f.phase]
      ∧ (d' s').gen = d.gen ∧ (d' s').sweep = d.sweep ∧ s'.flights = s.flights.eraseIdx s.ev.n ∧ SameMem s s'))
    ∧ (tot ≤ d.arr + 1 → d.sweep = 0 → d.phase = false → f.phase = false → Performs .domainArrival s (fun s' =>
      (d' s').arr = 0 ∧ (d' s').gen = (d.gen + 1) % 2 ^ 16 ∧ SameMem s s'
      ∧ (selKind f.sel = 0 → s'.flights = s.flights.eraseIdx s.ev.n
        ∧ Told s s' f.pid f.sel f.inst ((d.gen + 1) % 2 ^ 16))
      ∧ (selKind f.sel ≠ 0 → s'.flights = s.flights.eraseIdx s.ev.n
        ++ (domMembers f.sel f.inst d.word).map (fun c => ⟨1, f.pid, f.sel, f.inst, c, false, (d.gen + 1) % 2 ^ 16⟩))))
    ∧ (tot ≤ d.arr + 1 → d.sweep = 0 → d.phase = true ∨ f.phase = true → Performs .domainArrival s (fun s' =>
      (d' s').sweep = 1 ∧ (d' s').gen = d.gen ∧ (d' s').arr = d.arr + 1 ∧ SameMem s s')) := by
  intro d tot d'
  refine ⟨fun h1 h2 hinv => ?_, fun h1 hinv => ?_, fun h1 h2 h3 h4 hinv => ?_, fun h1 h2 h3 hinv => ?_⟩
  · obtain ⟨s', hx, hd, hfl, hm⟩ := domainArrival_counts hf he hk hp (countArrivals_below tot [f.phase] d [] h2 h1) hinv
    exact ⟨s', hx, by simp only [d', hd]; rfl, by simp only [d', hd], by simp only [d', hd]; exact h2, hfl, hm⟩
  · obtain ⟨s', hx, hd, hfl, hm⟩ := domainArrival_counts hf he hk hp (countArrivals_later tot f.phase d [] h1) hinv
    exact ⟨s', hx, by simp only [d', hd], by simp only [d', hd], by simp only [d', hd], by simp only [d', hd], hfl, hm⟩
  · have hc := countArrivals_last tot d [] h2 h1 h3
    rw [← h4] at hc
    obtain ⟨s', hx, hd, hm, ht⟩ := domainArrival_tells hf he hk hp hc hinv
    exact ⟨s', hx, by simp only [d', hd], by simp only [d', hd], hm, ht⟩
  · have hc := countArrivals_sweep tot f.phase d [] h2 h1 (by rcases h3 with h | h <;> rw [h] <;> simp)
    obtain ⟨s', hx, hd, -, hm⟩ := domainArrival_counts hf he hk hp hc hinv
    exact ⟨s', hx, by simp only [d', hd], by simp only [d', hd], by simp only [d', hd], hm⟩

theorem domainCompletion_tells (hf : s.flights[s.ev.n]? = some f) (hk : f.kind = 1) :
    Performs .domainCompletion s (fun s' => SameMem s s' ∧ s'.flights = s.flights.eraseIdx s.ev.n
      ∧ Told s s' f.pid f.sel f.cl (getDom s f.pid f.sel (domInst f.sel f.cl)).gen) := fun _ =>
  ⟨_, domainCompletion_on hf hk, fun a => rfl, rfl, (fireDomain_told (landed s) f.pid f.sel f.cl).of_base rfl rfl⟩

end

section
variable {s : State} {c : Nat}

theorem sweepSums_snoc (l : List (Nat × Nat × Nat)) (e : Nat × Nat × Nat) : sweepSums (l ++ [e])
    = (((l ++ [e]).map (fun e => e.2.1)).sum % 2 ^ 48, ((l ++ [e]).map (fun e => e.2.2)).sum % 2 ^ 48) := rfl

theorem phaseSweep_reads (hd : (getDom s s.ev.pid s.ev.unit s.ev.cl).sweep ≠ 0) (hk : selKind s.ev.unit < 3)
    (hp : selKind s.ev.unit < 2 ∨ partExists s s.ev.pid = true)
    (hm : ∀ c ∈ domMembers s.ev.unit s.ev.cl (getDom s s.ev.pid s.ev.unit s.ev.cl).word, c < 256)
    (hl : 1 < (unread s.ev.unit s.ev.cl (getDom s s.ev.pid s.ev.unit s.ev.cl)).length)
    (hc : (unread s.ev.unit s.ev.cl (getDom s s.ev.pid s.ev.unit s.ev.cl))[s.ev.n
      % (unread s.ev.unit s.ev.cl (getDom s s.ev.pid s.ev.unit s.ev.cl)).length]? = some c) :
    Performs .phaseSweep s (fun s' => SameMem s s' ∧ getDom s' s.ev.pid s.ev.unit s.ev.cl
      = { getDom s s.ev.pid s.ev.unit s.ev.cl with read := (getDom s s.ev.pid s.ev.unit s.ev.cl).read ++ [readCnt s s.ev.pid c] }) := by
  intro _
  have hlt : c < 256 := hm c (List.mem_of_mem_filter (List.mem_of_getElem? hc))
  have hx := phaseSweep_on hd hk (by rw [Nat.max_eq_right (by omega)]; exact hc) hlt
  dsimp only at hx
  rw [if_neg (by omega)] at hx
  exact ⟨_, hx, fun a => by rw [putDom_eq], getDom_putDom_same hp _⟩

theorem phaseSweep_last (hd : (getDom s s.ev.pid s.ev.unit s.ev.cl).sweep ≠ 0) (hk : selKind s.ev.unit < 3)
    (hp : selKind s.ev.unit < 2 ∨ partExists s s.ev.pid = true)
    (hm : ∀ c ∈ domMembers s.ev.unit s.ev.cl (getDom s s.ev.pid s.ev.unit s.ev.cl).word, c < 256)
    (hc : unread s.ev.unit s.ev.cl (getDom s s.ev.pid s.ev.unit s.ev.cl) = [c]) :
    let p := s.ev.pid
    let sel := s.ev.unit
    let inst := s.ev.cl
    let d := getDom s p sel inst
    let d' := fun (s' : State) => getDom s' p sel inst
    let sums := sweepSums (d.read ++ [readCnt s p c])
    (sums.1 = sums.2 → d.last = some sums → d.later.length < domTot s p sel inst d.word →
      Performs .phaseSweep s (fun s' => SameMem s s'
        ∧ (d' s').gen = (d.gen + 1) % 2 ^ 16 ∧ (d' s').sweep = 0 ∧ (d' s').arr = d.later.length
        ∧ (selKind sel = 0 → Told s s' p sel inst ((d.gen + 1) % 2 ^ 16))))
    ∧ (sums.1 ≠ sums.2 ∨ d.last ≠ some sums → Performs .phaseSweep s (fun s' => SameMem s s'
      ∧ (d' s').gen = d.gen ∧ (d' s').sweep = d.sweep + 1 ∧ (d' s').read = [] ∧ (d' s').last = some sums)) := by
  intro p sel inst d d' sums
  have hlt : c < 256 := hm c (List.mem_of_mem_filter (hc ▸ List.mem_singleton_self c :
    c ∈ unread s.ev.unit s.ev.cl (getDom s s.ev.pid s.ev.unit s.ev.cl)))
  have hx := phaseSweep_on hd hk (by rw [hc]; simp [Nat.mod_one]) hlt
  dsimp only at hx
  rw [if_pos (by rw [hc]; rfl), sweepEnd_eq] at hx
  refine ⟨fun h1 h2 h3 _ => ?_, fun h _ => ?_⟩
  · rw [if_pos ⟨h1, h2⟩, domComplete_tells h3] at hx
    refine ⟨_, hx, ?_⟩
    let dd : Domain := { d with gen := (d.gen + 1) % 2 ^ 16, arr := d.later.length, phase := d.later.any id, sweep := 0
                                read := [], last := none, later := [] }
    have hg : getDom (putDom s p sel inst dd) p sel inst = dd := getDom_putDom_same hp dd
    have hd' : d' (tellMembers p sel inst d.word (putDom s p sel inst dd) dd.gen) = dd := (getDom_tellMembers ..).trans hg
    refine ⟨fun a => ?_, ?_, ?_, ?_, fun h0 => ?_⟩
    · rw [tellMembers_mem, putDom_eq]
    · exact congrArg Domain.gen hd'
    · exact congrArg Domain.sweep hd'
    · exact congrArg Domain.arr hd'
    · rw [tellMembers_here h0]
      have ht := fireDomain_told (putDom s p sel inst dd) p sel inst
      rw [show domInst sel inst = inst from if_pos h0, hg] at ht
      exact ht.of_base (by rw [putDom_eq]) (by rw [putDom_eq])
  · rw [if_neg (fun e => h.elim (fun k => k e.1) fun k => k e.2)] at hx
    let dd : Domain := { d with sweep := d.sweep + 1, read := [], last := some sums }
    have hg : d' (putDom s p sel inst dd) = dd := getDom_putDom_same hp dd
    refine ⟨putDom s p sel inst dd, hx, fun a => by rw [putDom_eq], ?_, ?_, ?_, ?_⟩
    · exact (congrArg Domain.gen hg).trans rfl
    · exact (congrArg Domain.sweep hg).trans rfl
    · exact congrArg Domain.read hg
    · exact congrArg Domain.last hg

end

section
variable {s : State} {o : Op}

/-- A request at a domain's home completes with its result. -/
theorem domainRequest_ends {s0 : State} {x : Nat} (hn : Names s o) (hr : opReady s o = true) (hu : Unhindered s o)
    (hrun : isRunning s o.task = true) (hk : o.kind = .domset ∨ o.kind = .domget) (h0 : s0 = s ∨ ∃ d, s0 = putDom s o.pid
      ((o.args.getD 0 0).toNat % 64) (domInst ((o.args.getD 0 0).toNat % 64) o.cl) d)
    (hd : doDomain s o = doneOp s0 o.id x) :
    Performs .domainRequestAtHome s (fun s' => (Finished s s' o x o.flags ∧ SameMem s s') ∧ OnlyDone s0 s') := by
  intro _
  have hs0 : s0.mem = s.mem ∧ s0.ops = s.ops ∧ s0.strands = s.strands ∧ s0.egress = s.egress ∧ s0.repl = s.repl := by
    rcases h0 with rfl | ⟨d, rfl⟩
    · exact ⟨rfl, rfl, rfl, rfl, rfl⟩
    · refine ⟨?_, ?_, ?_, ?_, ?_⟩ <;> rw [putDom_eq]
  obtain ⟨m1, m2, m3, m4, m5⟩ := hs0
  have hid : o.id = s.ev.id := by simpa using List.find?_some hn.1
  have hf : s0.ops.find? (fun q => q.id == o.id) = some o := by rw [m2, hid]; exact hn.1
  have hu0 : Unhindered s0 o := ⟨fun e he => hu.1 e (m4 ▸ he), fun e he => hu.2.1 e (m5 ▸ he), hu.2.2⟩
  have hrun0 : isRunning s0 o.task = true := by rw [isRunning, m3]; exact hrun
  obtain ⟨⟨h1, h2⟩, h3, -⟩ := doneOp_finished x hf hu0 hrun0
  refine ⟨_, domainRequestAtHome_on hn hr hk, ?_⟩
  rw [hd]
  exact ⟨⟨⟨h1, fun n t ht => h2 n t (m3 ▸ ht)⟩, fun a => by rw [h3.mem, m1]⟩, h3⟩

theorem errW_toNat (k : Nat) (h : k < 2 ^ 63) : (errW k).toNat = 2 ^ 63 + k := by
  simp only [errW, BitVec.toNat_ofNat]
  omega

theorem selOk_of_lt {w : Word} (h : w.toNat < 64) : selOk w = true := by
  rw [selOk, Nat.div_eq_of_lt h]
  rfl

theorem selOk_of_ge {w : Word} (h : 64 ≤ w.toNat) : selOk w = false := by
  rw [selOk]
  exact beq_false_of_ne (by omega)

theorem domset_clauses (hn : Names s o) (hr : opReady s o = true) (hu : Unhindered s o) (hrun : isRunning s o.task = true)
    (hk : o.kind = .domset) :
    let w := o.args.getD 0 0
    let x := o.args.getD 1 0
    let sel := w.toNat % 64
    let inst := domInst sel o.cl
    let d := getDom s o.pid sel inst
    let ends := fun (r : Nat) (p : State → Prop) =>
      Performs .domainRequestAtHome s (fun s' => Finished s s' o r o.flags ∧ SameMem s s' ∧ p s')
    let used := 0 < d.arr ∨ d.sweep ≠ 0 ∨ ∃ c ∈ s.colls, c.pid = o.pid ∧ c.sel = sel ∧ c.inst = inst ∧ c.cancelled = false
    (64 ≤ w.toNat ∨ memOkWord s o.pid sel x = false → ends (2 ^ 63 + 4) (fun s' => getDom s' o.pid sel inst = d))
    ∧ (w.toNat < 64 → memOkWord s o.pid sel x = true → used → ends (2 ^ 63 + 2) (fun s' => getDom s' o.pid sel inst = d))
    ∧ (w.toNat < 64 → memOkWord s o.pid sel x = true → ¬ used → selKind sel < 2 ∨ partExists s o.pid = true →
      ends 0 (fun s' => (getDom s' o.pid sel inst).word = x ∧ (getDom s' o.pid sel inst).arr = 0
        ∧ (getDom s' o.pid sel inst).gen = d.gen)) := by
  intro w x sel inst d ends used
  have hused : (0 < d.arr ∨ d.sweep ≠ 0 ∨ (s.colls.any (fun c => c.pid == o.pid && c.sel == sel && c.inst == inst && !c.cancelled)) = true)
      ↔ used := by
    refine or_congr_right (or_congr_right ?_)
    simp only [List.any_eq_true, Bool.and_eq_true, beq_iff_eq, Bool.not_eq_true', and_assoc]
  have hdo : doDomain s o = if (!selOk w || !memOkWord s o.pid sel x) = true then doneOp s o.id (errW 4).toNat
      else if 0 < d.arr ∨ d.sweep ≠ 0 ∨ (s.colls.any (fun c => c.pid == o.pid && c.sel == sel && c.inst == inst && !c.cancelled)) = true then
        doneOp s o.id (errW 2).toNat
      else doneOp (putDom s o.pid sel inst { d with word := x, arr := 0 }) o.id 0 := if_pos hk
  refine ⟨fun h hinv => ?_, fun h1 h2 h3 hinv => ?_, fun h1 h2 h3 h4 hinv => ?_⟩
  · have hbad : (!selOk w || !memOkWord s o.pid sel x) = true := by
      rcases h with h | h
      · rw [selOk_of_ge h]; rfl
      · rw [h, Bool.not_false, Bool.or_true]
    rw [if_pos hbad, errW_toNat 4 (by decide)] at hdo
    obtain ⟨s', hx, ⟨hfin, hm⟩, hod⟩ := domainRequest_ends hn hr hu hrun (.inl hk) (.inl rfl) hdo hinv
    exact ⟨s', hx, hfin, hm, hod.getDom ..⟩
  · rw [if_neg (by rw [selOk_of_lt h1, h2]; decide), if_pos (hused.mpr h3), errW_toNat 2 (by decide)] at hdo
    obtain ⟨s', hx, ⟨hfin, hm⟩, hod⟩ := domainRequest_ends hn hr hu hrun (.inl hk) (.inl rfl) hdo hinv
    exact ⟨s', hx, hfin, hm, hod.getDom ..⟩
  · rw [if_neg (by rw [selOk_of_lt h1, h2]; decide), if_neg (fun e => h3 (hused.mp e))] at hdo
    obtain ⟨s', hx, ⟨hfin, hm⟩, hod⟩ := domainRequest_ends hn hr hu hrun (.inl hk) (.inr ⟨_, rfl⟩) hdo hinv
    have hg : getDom s' o.pid sel inst = { d with word := x, arr := 0 } := (hod.getDom ..).trans (getDom_putDom_same h4 _)
    exact ⟨s', hx, hfin, hm, by rw [hg], by rw [hg], by rw [hg]⟩

theorem domget_clauses (hn : Names s o) (hr : opReady s o = true) (hu : Unhindered s o) (hrun : isRunning s o.task = true)
    (hk : o.kind = .domget) :
    let w := o.args.getD 0 0
    let x := o.args.getD 1 0
    let sel := w.toNat % 64
    let inst := domInst sel o.cl
    let d := getDom s o.pid sel inst
    let ends := fun (r : Nat) (p : State → Prop) =>
      Performs .domainRequestAtHome s (fun s' => Finished s s' o r o.flags ∧ SameMem s s' ∧ p s')
    (64 ≤ w.toNat ∨ 4 ≤ x.toNat → ends (2 ^ 63 + 4) (fun _ => True))
    ∧ (w.toNat < 64 → x = 0 → ends d.word.toNat (fun _ => True))
    ∧ (w.toNat < 64 → x = 1 → d.gen < 2 ^ 16 →
      ends (d.gen + 2 ^ 16 * (d.arr % 2 ^ 32) + (if d.sweep = 0 then 0 else 2 ^ 48)) (fun _ => True))
    ∧ (w.toNat < 64 → x = 2 → ends (getCp s o.cl o.pid).msgSent (fun _ => True))
    ∧ (w.toNat < 64 → x = 3 → ends (getCp s o.cl o.pid).msgRecv (fun _ => True)) := by
  intro w x sel inst d ends
  have hdo : doDomain s o = doneOp s o.id (match x.toNat with
      | 0 => if selOk w then d.word.toNat else (errW 4).toNat
      | 1 => if selOk w then d.gen + 2 ^ 16 * (d.arr % 2 ^ 32) + (if d.sweep = 0 then 0 else 2 ^ 48) else (errW 4).toNat
      | 2 => if selOk w then (getCp s o.cl o.pid).msgSent else (errW 4).toNat
      | 3 => if selOk w then (getCp s o.cl o.pid).msgRecv else (errW 4).toNat
      | _ => (errW 4).toNat) := if_neg (by rw [hk]; decide)
  have hends : ∀ r, doDomain s o = doneOp s o.id r → ends r (fun _ => True) := fun r hd hinv => by
    obtain ⟨s', hx, ⟨hfin, hm⟩, -⟩ := domainRequest_ends hn hr hu hrun (.inr hk) (.inl rfl) hd hinv
    exact ⟨s', hx, hfin, hm, trivial⟩
  refine ⟨fun h => hends _ (hdo.trans (congrArg _ ?_)), fun h hx => hends _ (hdo.trans (congrArg _ ?_)),
    fun h hx _ => hends _ (hdo.trans (congrArg _ ?_)), fun h hx => hends _ (hdo.trans (congrArg _ ?_)),
    fun h hx => hends _ (hdo.trans (congrArg _ ?_))⟩
  · rcases h with h | h
    · rw [selOk_of_ge h]
      simp only [Bool.false_eq_true, if_false]
      split <;> exact errW_toNat 4 (by decide)
    · obtain ⟨n, hn⟩ : ∃ n, x.toNat = n + 4 := ⟨x.toNat - 4, by omega⟩
      rw [hn]
      exact errW_toNat 4 (by decide)
  all_goals
    rw [hx, selOk_of_lt h]
    rfl

end

/-- Settles O53: an arrival at a domain's home is counted as the phase says, the members are told, the sweeps read the members'
counters until two agree, and DOMSET and DOMGET answer from the domain as it stands. -/
theorem domainEvents : Obligations.DomainEvents := by
  refine ⟨⟨fun s f hf => ⟨fun hk he hp => domainArrival_clauses hf hk he hp, fun hk => domainCompletion_tells hf hk⟩, ?_⟩, ?_⟩
  · intro s p sel inst d d' left cnt hd hk hp hm
    refine ⟨fun c hl hc hinv => ?_, fun c hc => phaseSweep_last hd hk hp hm hc⟩
    obtain ⟨s', hx, hsm, hg⟩ := phaseSweep_reads hd hk hp hm hl hc hinv
    exact ⟨s', hx, hsm, (congrArg Domain.read hg).trans rfl, (congrArg Domain.sweep hg).trans rfl, (congrArg Domain.gen hg).trans rfl⟩
  · intro s o hn hr hu hrun
    exact ⟨domset_clauses hn hr hu hrun, domget_clauses hn hr hu hrun⟩



/-! #### The Whisk -/

/-- What a fold reaches: `P` holds up to the step of `x`, `Q` from there on. -/
theorem foldl_reaches {α β : Type} (f : β → α → β) (P Q : β → Prop) (x : α) (hP : ∀ b y, y ≠ x → P b → P (f b y))
    (hx : ∀ b, P b → Q (f b x)) (hQ : ∀ b y, Q b → Q (f b y)) : ∀ (l : List α) (b : β), x ∈ l → P b → Q (l.foldl f b) := by
  have hall : ∀ (l : List α) (b : β), Q b → Q (l.foldl f b) := fun l => by
    induction l with
    | nil => exact fun b h => h
    | cons y l ih => exact fun b h => ih _ (hQ b y h)
  intro l
  induction l with
  | nil => exact fun b h => absurd h List.not_mem_nil
  | cons y l ih =>
    intro b hm hb
    by_cases hy : y = x
    · rw [List.foldl_cons, hy]
      exact hall l _ (hx b hb)
    · exact ih _ ((List.mem_cons.mp hm).resolve_left (Ne.symm hy)) (hP b y hy hb)

/-- Between the two states only clusters' copies, dies and their copies may differ. -/
def OnlyCopies (s s' : State) : Prop := s' = { s with clParts := s'.clParts, dieParts := s'.dieParts, dies := s'.dies }

theorem OnlyCopies.trans {a b c : State} (h : OnlyCopies a b) (k : OnlyCopies b c) : OnlyCopies a c := by
  unfold OnlyCopies at *
  rw [k, h]

theorem OnlyCopies.sameMem {s s' : State} (h : OnlyCopies s s') : SameMem s s' := fun a => by rw [h]

theorem onlyCopies_updCp (s : State) (c p : Nat) (f : ClPart → ClPart) : OnlyCopies s (updCp s c p f) := rfl

theorem onlyCopies_updDp (s : State) (d p : Nat) (f : DiePart → DiePart) : OnlyCopies s (updDp s d p f) := rfl

theorem onlyCopies_queueEvent (s : State) (e : FaultEv) : OnlyCopies s (queueEvent s e) := rfl

theorem getCp_updCp_other (s : State) {c c' p : Nat} (f : ClPart → ClPart) (h : c' ≠ c) : getCp (updCp s c p f) c' p = getCp s c' p :=
  getCp_updCp_ne s f (by simp only [cpKey]; omega)

/-- Every cluster of the partition takes the trigger. -/
theorem fireWhisk_spec (s : State) (due cl p src tag : Nat) : OnlyCopies s (fireWhisk s due cl p src tag)
    ∧ ∀ c ∈ partClusters s p, (getCp (fireWhisk s due cl p src tag) c p).whisk = (getCp s c p).whisk ++ [(due, src + 4 * cl, tag)] := by
  have hnd : (partClusters s p).Nodup := List.nodup_range.filter _
  have hgen : ∀ (l : List Nat) (s1 : State), l.Nodup →
      OnlyCopies s1 (l.foldl (fun s c => updCp s c p (fun k => { k with whisk := k.whisk ++ [(due, src + 4 * cl, tag)] })) s1)
      ∧ ∀ c, (getCp (l.foldl (fun s c => updCp s c p (fun k => { k with whisk := k.whisk ++ [(due, src + 4 * cl, tag)] })) s1) c p).whisk
        = if c ∈ l then (getCp s1 c p).whisk ++ [(due, src + 4 * cl, tag)] else (getCp s1 c p).whisk := by
    intro l
    induction l with
    | nil => exact fun s1 _ => ⟨rfl, fun c => by rw [if_neg List.not_mem_nil]; rfl⟩
    | cons y l ih =>
      intro s1 hn
      obtain ⟨hy, hl⟩ := List.nodup_cons.mp hn
      obtain ⟨h1, h2⟩ := ih (updCp s1 y p (fun k => { k with whisk := k.whisk ++ [(due, src + 4 * cl, tag)] })) hl
      refine ⟨(onlyCopies_updCp ..).trans h1, fun c => ?_⟩
      rw [List.foldl_cons, h2]
      by_cases hc : c = y
      · subst hc
        rw [if_neg hy, if_pos List.mem_cons_self, getCp_updCp_same]
      · rw [getCp_updCp_other _ _ hc]
        simp only [List.mem_cons, hc, false_or]
  obtain ⟨h1, h2⟩ := hgen (partClusters s p) s hnd
  exact ⟨h1, fun c hc => by rw [fireWhisk, h2, if_pos hc]⟩

/-- A copy that has taken the snapshot of the trigger `w` in the state `s`. -/
def Snapped (s : State) (c p : Nat) (w : Nat × Nat × Nat) (k : ClPart) : Prop :=
  k.whisk = [] ∧ (ctlGet k.ctl 0x300).toNat % 2 = 1
    ∧ (ctlGet k.ctl 0x300).toNat / 2 % 4 = w.2.1 % 4 ∧ (ctlGet k.ctl 0x300).toNat / 2 ^ 16 % 2 ^ 16 = w.2.2 % 2 ^ 16
    ∧ ctlGet k.ctl 0x301 = BitVec.ofNat 64 (tickNow s) ∧ ctlGet k.ctl 0x302 = devTimeNs s
    ∧ ∀ l, l < 8 → ctlGet k.ctl (0x303 + l) = match strandOn s c p l with
      | some t => BitVec.ofNat 64 (t.pc0.toNat + 2 ^ 48)
      | none => 0

theorem latchCluster_only (s : State) (cl p : Nat) : OnlyCopies s (latchCluster s cl p).2 := by
  unfold latchCluster
  dsimp only
  split
  · rfl
  · split_ifs <;> rfl

theorem latchCluster_other (s : State) {cl c p : Nat} (h : c ≠ cl) : getCp (latchCluster s cl p).2 c p = getCp s c p := by
  unfold latchCluster
  dsimp only
  split
  · rfl
  · split_ifs <;> exact getCp_updCp_other s _ h

theorem latchCluster_none (s : State) {cl p : Nat} (h : (getCp s cl p).whisk = []) : latchCluster s cl p = (none, s) := by
  unfold latchCluster
  dsimp only
  rw [h]
  rfl

/-- Writes of registers of which none is `n` leave it. -/
theorem ctlGet_foldl_other {n : Nat} : ∀ (l : List (Nat × Nat)) (c : Tab Word), (∀ e ∈ l, e.1 ≠ n) →
    ctlGet (l.foldl (fun c e => tabSet c e.1 (BitVec.ofNat 64 e.2)) c) n = ctlGet c n := by
  intro l
  induction l with
  | nil => exact fun c _ => rfl
  | cons e l ih =>
    intro c h
    rw [List.foldl_cons, ih _ fun x hx => h x (List.mem_cons_of_mem _ hx), ctlGet_tabSet_ne _ _ (h e List.mem_cons_self).symm]

/-- The last write of a register stands. -/
theorem ctlGet_foldl {n x : Nat} (l1 l2 : List (Nat × Nat)) (c : Tab Word) (h : ∀ e ∈ l2, e.1 ≠ n) :
    ctlGet ((l1 ++ (n, x) :: l2).foldl (fun c e => tabSet c e.1 (BitVec.ofNat 64 e.2)) c) n = BitVec.ofNat 64 x := by
  rw [List.foldl_append, List.foldl_cons, ctlGet_foldl_other l2 _ h, ctlGet_tabSet_same]

theorem stat_fields (src tag fires : Nat) (hs : src < 4) :
    (1 + 2 * src + 2 ^ 16 * tag + 2 ^ 32 * fires) % 2 ^ 64 % 2 = 1 ∧ (1 + 2 * src + 2 ^ 16 * tag + 2 ^ 32 * fires) % 2 ^ 64 / 2 % 4 = src
    ∧ (1 + 2 * src + 2 ^ 16 * tag + 2 ^ 32 * fires) % 2 ^ 64 / 2 ^ 16 % 2 ^ 16 = tag % 2 ^ 16 := by
  omega

/-- The register of a snapshot that holds the program counter of lane `l`. -/
def pcReg (s : State) (c p l : Nat) : Nat × Nat :=
  (0x303 + l, match strandOn s c p l with
    | some t => t.pc0.toNat + 2 ^ 48
    | none => 0)

def pcRegs (s : State) (c p : Nat) : List (Nat × Nat) := (List.range 8).map (pcReg s c p)

theorem snapRegs_shape (s : State) (c p src tag fires : Nat) : ∃ l : List (Nat × Nat), snapRegs s c p src tag fires
    = (0x300, 1 + 2 * src + 2 ^ 16 * tag + 2 ^ 32 * fires) :: (0x301, tickNow s) :: (0x302, (devTimeNs s).toNat) :: (pcRegs s c p ++ l)
    ∧ ∀ e ∈ l, 0x30B ≤ e.1 := by
  refine ⟨_, rfl, ?_⟩
  simp only [List.mem_cons, List.not_mem_nil, or_false, forall_eq_or_imp, forall_eq]
  decide

theorem pcRegs_ge {s : State} {c p : Nat} {e : Nat × Nat} (h : e ∈ pcRegs s c p) : 0x303 ≤ e.1 := by
  obtain ⟨l, -, rfl⟩ := List.mem_map.mp h
  exact Nat.le_add_right ..

theorem pcRegs_split (s : State) (c p : Nat) {l : Nat} (h : l < 8) : ∃ l1 l3 : List (Nat × Nat), pcRegs s c p
    = l1 ++ pcReg s c p l :: l3 ∧ ∀ e ∈ l3, e.1 ≠ 0x303 + l := by
  refine ⟨(List.range l).map (pcReg s c p), (List.range' (l + 1) (7 - l)).map (pcReg s c p), ?_, fun e he => ?_⟩
  · have hr : List.range 8 = List.range l ++ l :: List.range' (l + 1) (7 - l) := by
      interval_cases l <;> rfl
    rw [pcRegs, hr, List.map_append, List.map_cons]
  · obtain ⟨j, hj, rfl⟩ := List.mem_map.mp he
    have := (List.mem_range'_1.mp hj).1
    show 0x303 + j ≠ 0x303 + l
    omega

/-- What the registers of a snapshot read. -/
theorem ctlGet_snapRegs (s : State) (c p src tag fires : Nat) (t : Tab Word) :
    let k := (snapRegs s c p src tag fires).foldl (fun c e => tabSet c e.1 (BitVec.ofNat 64 e.2)) t
    ctlGet k 0x300 = BitVec.ofNat 64 (1 + 2 * src + 2 ^ 16 * tag + 2 ^ 32 * fires) ∧ ctlGet k 0x301 = BitVec.ofNat 64 (tickNow s)
    ∧ ctlGet k 0x302 = devTimeNs s ∧ ∀ l, l < 8 → ctlGet k (0x303 + l) = match strandOn s c p l with
      | some t => BitVec.ofNat 64 (t.pc0.toNat + 2 ^ 48)
      | none => 0 := by
  obtain ⟨l2, hs, hl2⟩ := snapRegs_shape s c p src tag fires
  rw [hs]
  intro k
  have hrest : ∀ e ∈ pcRegs s c p ++ l2, 0x303 ≤ e.1 := fun e he =>
    (List.mem_append.mp he).elim pcRegs_ge fun h => le_trans (by decide) (hl2 e h)
  refine ⟨ctlGet_foldl [] _ _ fun e he => ?_, ctlGet_foldl [_] _ _ fun e he => ?_,
    (ctlGet_foldl [_, _] _ _ fun e he => ?_).trans ?_, fun l hl => ?_⟩
  · rcases List.mem_cons.mp he with he | he
    · rw [he]; exact Nat.succ_ne_self _
    rcases List.mem_cons.mp he with he | he
    · rw [he]; exact (by decide : (0x302 : Nat) ≠ 0x300)
    · have := hrest e he; omega
  · rcases List.mem_cons.mp he with he | he
    · rw [he]; exact Nat.succ_ne_self _
    · have := hrest e he; omega
  · have := hrest e he; omega
  · rw [BitVec.ofNat_toNat, BitVec.setWidth_eq]
  · obtain ⟨l1, l3, hpc, hl3⟩ := pcRegs_split s c p hl
    have hget := ctlGet_foldl (n := 0x303 + l) (x := (pcReg s c p l).2) ((0x300, 1 + 2 * src + 2 ^ 16 * tag + 2 ^ 32 * fires) :: (0x301, tickNow s)
        :: (0x302, (devTimeNs s).toNat) :: l1) (l3 ++ l2) t fun e he => (List.mem_append.mp he).elim (hl3 e) fun h => by
          have := hl2 e h; omega
    simp only [k, hpc]
    rw [List.append_assoc, List.cons_append]
    refine hget.trans ?_
    unfold pcReg
    cases strandOn s c p l <;> rfl

theorem snapped_of_regs {s : State} {c p fires : Nat} {w : Nat × Nat × Nat} {k : ClPart} {t : Tab Word} (hw : k.whisk = [])
    (hc : k.ctl = (snapRegs s c p (w.2.1 % 4) w.2.2 fires).foldl (fun c e => tabSet c e.1 (BitVec.ofNat 64 e.2)) t) :
    Snapped s c p w k := by
  obtain ⟨e300, e301, e302, epc⟩ := ctlGet_snapRegs s c p (w.2.1 % 4) w.2.2 fires t
  rw [← hc] at e300 e301 e302
  obtain ⟨f1, f2, f3⟩ := stat_fields (w.2.1 % 4) w.2.2 fires (Nat.mod_lt _ (by decide))
  refine ⟨hw, ?_, ?_, ?_, e301, e302, fun l hl => by rw [hc]; exact epc l hl⟩ <;> rw [e300, BitVec.toNat_ofNat]
  · exact f1
  · exact f2
  · exact f3

theorem latchCluster_snaps {s : State} {c p : Nat} {w : Nat × Nat × Nat} (h : (getCp s c p).whisk = [w]) (hw : w.1 ≤ tickNow s)
    (h0 : (cpCtl s c p 0x300).toNat % 2 = 0) : Snapped s c p w (getCp (latchCluster s c p).2 c p) := by
  have hdue : (getCp s c p).whisk.filter (fun w => decide (w.1 ≤ tickNow s)) = [w] := by
    rw [h, List.filter_cons_of_pos (by simpa using hw), List.filter_nil]
  have hkeep : (getCp s c p).whisk.filter (fun w => !decide (w.1 ≤ tickNow s)) = [] := by
    rw [h, List.filter_cons_of_neg (by simpa using hw), List.filter_nil]
  unfold latchCluster
  dsimp only
  rw [hdue]
  dsimp only [sortBy, List.foldl_cons, List.foldl_nil, insertBy]
  rw [if_neg (fun e => absurd e.1 (by omega))]
  dsimp only
  rw [getCp_updCp_same]
  generalize min (_ : Nat) _ = fires
  generalize hr : snapRegs s c p (w.2.1 % 4) w.2.2 fires = regs
  exact snapped_of_regs (fires := fires) (t := (getCp s c p).ctl) hkeep (by rw [hr])



/-- A cluster of a die latches. -/
def latchStep (p d : Nat) (acc : Option Nat × State) (c : Nat) : Option Nat × State :=
  let (x, s) := latchCluster acc.2 (32 * d + c) p
  (acc.1.orElse (fun _ => x), s)

/-- The clusters of a die latch, and the first tag of those that do. -/
def latchAll (p d : Nat) (s : State) : Option Nat × State := (List.range 32).foldl (latchStep p d) (none, s)

/-- A die whose clusters have latched queues its notice. -/
def latchDie (p : Nat) (s : State) (d : Nat) : State :=
  let (tag, s) := latchAll p d s
  match tag with
  | none => s
  | some t =>
    let n := min 511 (getDie s d).fq.length
    let s := updDp s d p (fun x => { x with ctl := tabSet x.ctl 0x430 (BitVec.ofNat 64 n) })
    notice s d p 4 (BitVec.ofNat 64 (tickNow s)) (BitVec.ofNat 64 t)

theorem whiskLatch_on (s : State) : exec .whiskLatch s = .next ((partDies s s.ev.pid).foldl (latchDie s.ev.pid) s) := by
  simp only [exec, execWhiskLatch]
  refine congrArg (fun f => Host.Outcome.next (List.foldl f s (partDies s s.ev.pid))) (funext fun s1 => funext fun d => ?_)
  unfold latchDie latchAll latchStep
  generalize List.foldl _ (none, s1) (List.range 32) = x
  obtain ⟨tag, s2⟩ := x
  cases tag <;> rfl

theorem onlyCopies_notice (s : State) (d p code : Nat) (a b : Word) : OnlyCopies s (notice s d p code a b) := by
  unfold notice
  exact onlyCopies_queueEvent ..

theorem getCp_notice (s : State) (d p code : Nat) (a b : Word) (c q : Nat) : getCp (notice s d p code a b) c q = getCp s c q := by
  unfold notice
  rfl

theorem latchDie_spec (p : Nat) (s : State) (d : Nat) : OnlyCopies (latchAll p d s).2 (latchDie p s d)
    ∧ ∀ c, getCp (latchDie p s d) c p = getCp (latchAll p d s).2 c p := by
  unfold latchDie
  generalize latchAll p d s = x
  obtain ⟨tag, s1⟩ := x
  cases tag with
  | none => exact ⟨rfl, fun c => rfl⟩
  | some t =>
    dsimp only
    generalize min 511 (_ : Nat) = n
    refine ⟨(onlyCopies_updDp ..).trans (onlyCopies_notice ..), fun c => ?_⟩
    rw [getCp_notice]
    rfl

section
variable {s0 : State} {c p : Nat} {w : Nat × Nat × Nat}

/-- A snapshot depends on nothing that another latch changes. -/
theorem Snapped.of_only {s : State} {k : ClPart} (h : OnlyCopies s0 s) (hs : Snapped s c p w k) : Snapped s0 c p w k := by
  have ht : tickNow s = tickNow s0 := by rw [h]; rfl
  have hd : devTimeNs s = devTimeNs s0 := by rw [h]; rfl
  have ho : ∀ l, strandOn s c p l = strandOn s0 c p l := fun l => by rw [h]; rfl
  obtain ⟨h1, h2, h3, h4, h5, h6, h7⟩ := hs
  refine ⟨h1, h2, h3, h4, by rw [h5, ht], by rw [h6, hd], fun l hl => ?_⟩
  rw [h7 l hl, ho]

/-- Cluster `c` has not latched yet. -/
def Unlatched (s0 : State) (c p : Nat) (s : State) : Prop := OnlyCopies s0 s ∧ getCp s c p = getCp s0 c p

/-- Cluster `c` has latched. -/
def HasLatched (s0 : State) (c p : Nat) (w : Nat × Nat × Nat) (s : State) : Prop := OnlyCopies s0 s ∧ Snapped s0 c p w (getCp s c p)

theorem latchCluster_hasLatched {s : State} (h : HasLatched s0 c p w s) (cl : Nat) : HasLatched s0 c p w (latchCluster s cl p).2 := by
  obtain ⟨h1, h2⟩ := h
  by_cases hc : c = cl
  · subst hc
    rw [latchCluster_none s h2.1]
    exact ⟨h1, h2⟩
  · exact ⟨h1.trans (latchCluster_only ..), by rw [latchCluster_other s hc]; exact h2⟩

theorem latchCluster_unlatched {s : State} (h : Unlatched s0 c p s) {cl : Nat} (hc : c ≠ cl) : Unlatched s0 c p (latchCluster s cl p).2 :=
  ⟨h.1.trans (latchCluster_only ..), (latchCluster_other s hc).trans h.2⟩

theorem latchAll_only (p d : Nat) (s : State) : OnlyCopies s (latchAll p d s).2 := by
  unfold latchAll
  generalize hx : (none, s) = x
  have h0 : OnlyCopies s (x : Option Nat × State).2 := by rw [← hx]; rfl
  clear hx
  generalize List.range 32 = l
  induction l generalizing x with
  | nil => exact h0
  | cons y l ih =>
    rw [List.foldl_cons]
    exact ih _ (h0.trans (latchCluster_only ..))

theorem latchDie_only (p : Nat) (s : State) (d : Nat) : OnlyCopies s (latchDie p s d) :=
  (latchAll_only ..).trans (latchDie_spec ..).1

variable (hw : (getCp s0 c p).whisk = [w]) (hle : w.1 ≤ tickNow s0) (h0 : (cpCtl s0 c p 0x300).toNat % 2 = 0)
include hw hle h0

theorem latchCluster_latches {s : State} (h : Unlatched s0 c p s) : HasLatched s0 c p w (latchCluster s c p).2 := by
  obtain ⟨h1, h2⟩ := h
  have ht : tickNow s = tickNow s0 := by rw [h1]; rfl
  exact ⟨h1.trans (latchCluster_only ..),
    (latchCluster_snaps (h2 ▸ hw) (ht ▸ hle) (by rw [cpCtl, h2]; exact h0)).of_only h1⟩

omit hw hle h0 in
theorem latchDie_hasLatched {s : State} (h : HasLatched s0 c p w s) (d : Nat) : HasLatched s0 c p w (latchDie p s d) := by
  obtain ⟨e1, e2⟩ := latchDie_spec p s d
  have hall : HasLatched s0 c p w (latchAll p d s).2 := by
    unfold latchAll
    generalize hx : (none, s) = x
    have hx0 : HasLatched s0 c p w (x : Option Nat × State).2 := by rw [← hx]; exact h
    clear hx
    generalize List.range 32 = l
    induction l generalizing x with
    | nil => exact hx0
    | cons y l ih => exact ih _ (latchCluster_hasLatched hx0 _)
  exact ⟨hall.1.trans e1, by rw [e2]; exact hall.2⟩

omit hw hle h0 in
theorem latchDie_unlatched {s : State} (h : Unlatched s0 c p s) {d : Nat} (hd : d ≠ c / 32) : Unlatched s0 c p (latchDie p s d) := by
  obtain ⟨e1, e2⟩ := latchDie_spec p s d
  have hall : Unlatched s0 c p (latchAll p d s).2 := by
    unfold latchAll
    generalize hx : (none, s) = x
    have hx0 : Unlatched s0 c p (x : Option Nat × State).2 := by rw [← hx]; exact h
    clear hx
    have hl : ∀ y ∈ List.range 32, y < 32 := fun y hy => List.mem_range.mp hy
    generalize List.range 32 = l at hl
    induction l generalizing x with
    | nil => exact hx0
    | cons y l ih =>
      have hy := hl y List.mem_cons_self
      exact ih _ (latchCluster_unlatched hx0 (by omega)) fun z hz => hl z (List.mem_cons_of_mem _ hz)
  exact ⟨hall.1.trans e1, by rw [e2]; exact hall.2⟩

theorem latchDie_latches {s : State} (h : Unlatched s0 c p s) : HasLatched s0 c p w (latchDie p s (c / 32)) := by
  obtain ⟨e1, e2⟩ := latchDie_spec p s (c / 32)
  have hall : HasLatched s0 c p w (latchAll p (c / 32) s).2 :=
    foldl_reaches (latchStep p (c / 32)) (fun x : Option Nat × State => Unlatched s0 c p x.2) (fun x : Option Nat × State => HasLatched s0 c p w x.2) (c % 32)
      (fun b y hy hb => latchCluster_unlatched hb (by omega))
      (fun b hb => by
        have hx := latchCluster_latches hw hle h0 hb
        show HasLatched s0 c p w (latchCluster b.2 (32 * (c / 32) + c % 32) p).2
        rw [show 32 * (c / 32) + c % 32 = c by omega]
        exact hx)
      (fun b y hb => latchCluster_hasLatched hb _) _ _ (List.mem_range.mpr (Nat.mod_lt _ (by decide))) h
  exact ⟨hall.1.trans e1, by rw [e2]; exact hall.2⟩

end

theorem inRect_of_partClusters {s : State} {c p : Nat} (h : c ∈ partClusters s p) : c < 256 ∧ c / 32 ∈ partDies s p := by
  obtain ⟨h1, h2⟩ := List.mem_filter.mp h
  have hc := List.mem_range.mp h1
  refine ⟨hc, List.mem_filter.mpr ⟨List.mem_range.mpr (by omega), List.any_eq_true.mpr ⟨c % 32, List.mem_range.mpr (by omega), ?_⟩⟩⟩
  rw [show 32 * (c / 32) + c % 32 = c by omega]
  exact h2

theorem whiskTriggerEvent_on {s : State} {src : Nat} (h : whiskDue s s.ev.cl s.ev.pid = some src) : exec .whiskTriggerEvent s = .next
    (fireWhisk (updCp s s.ev.cl s.ev.pid (fun k => { k with whiskOnce := src == 3 || k.whiskOnce })) (tickNow s + 4) s.ev.cl s.ev.pid src 0) := by
  simp only [exec, execWhiskTriggerEvent, h]

/-- Settles O57: a fire reaches every cluster of the partition, and a cluster that holds no snapshot takes one of the state as it
stands. -/
theorem whiskEvents : Obligations.WhiskEvents := by
  intro s p
  refine ⟨?_, fun src h _ => ?_, fun c w hc hw hle h0 _ => ?_⟩
  · intro src _
    obtain ⟨h1, h2⟩ := fireWhisk_spec s (tickNow s + if s.ev.flag then 1 else 4) s.ev.cl p (s.ev.n % 4)
      (if s.ev.n % 4 = 0 then s.ev.unit % 2 ^ 16 else 0)
    exact ⟨_, rfl, h1.sameMem, h2⟩
  · refine ⟨_, whiskTriggerEvent_on h, ?_⟩
    let s1 := updCp s s.ev.cl p (fun k => { k with whiskOnce := src == 3 || k.whiskOnce })
    obtain ⟨h1, h2⟩ := fireWhisk_spec s1 (tickNow s + 4) s.ev.cl p src 0
    have hk : ∀ c, (getCp s1 c p).whisk = (getCp s c p).whisk := fun c => by
      by_cases hc : c = s.ev.cl
      · rw [hc]
        show (getCp (updCp s s.ev.cl p _) s.ev.cl p).whisk = _
        rw [getCp_updCp_same]
      · exact congrArg ClPart.whisk (getCp_updCp_other s _ hc)
    exact ⟨((onlyCopies_updCp ..).trans h1).sameMem, fun c hc => (h2 c hc).trans (by rw [hk])⟩
  · have hl : HasLatched s c p w ((partDies s p).foldl (latchDie p) s) :=
      foldl_reaches _ (Unlatched s c p) (HasLatched s c p w) (c / 32) (fun b y hy hb => latchDie_unlatched hb hy)
        (fun b hb => latchDie_latches hw hle h0 hb) (fun b y hb => latchDie_hasLatched hb y) _ _ (inRect_of_partClusters hc).2 ⟨rfl, rfl⟩
    exact ⟨_, whiskLatch_on s, hl.1.sameMem, hl.2⟩

end Sys2Proof.Machine
end

section
/-! SUPPORT. O59: segments start, continuations and gangs go on. -/

namespace Sys2Proof.Machine

open Laws



/-! #### Placed segments that start -/

theorem startBatch_strands (s : State) (cl : Nat) (k : Task) : (startBatch s cl k).strands = s.strands := by
  unfold startBatch
  split <;> rfl

section
variable {s : State} {q : Placed}

/-- The state without the placement that starts. -/
def unplacedOf (s : State) (q : Placed) : State :=
  updCp s s.ev.cl s.ev.pid (fun k => { k with placed := k.placed.filter (fun x => x.seg.sid != q.seg.sid) })

/-- The strand `t` is on its lane, and its task's batch has started. -/
def startOn (s : State) (cl : Nat) (k : Task) (t : Strand) : State := startBatch { s with strands := tabSet s.strands (laneKey t) t } cl k

theorem startOn_strand (s : State) (cl : Nat) (k : Task) (t : Strand) : tabGet (startOn s cl k t).strands (laneKey t) = some t := by
  rw [startOn, startBatch_strands]
  exact tabGet_tabSet_same ..

/-- A strand that stands where the placement says. -/
def PlacedAs (cl : Nat) (q : Placed) (t : Strand) : Prop :=
  t.task = q.entry.task ∧ t.seg = q.seg ∧ t.cl = cl ∧ t.lane = q.lane ∧ t.ctx = q.ctx

theorem blankStrand_placed (cl : Nat) (q : Placed) : PlacedAs cl q (blankStrand cl q) := ⟨rfl, rfl, rfl, rfl, rfl⟩

theorem starts_of_startOn {s0 : State} {t : Strand} {cl : Nat} (hp : PlacedAs cl q t) :
    tabGet (startOn s0 cl q.entry.task t).strands (8 * cl + q.lane) = some t := by
  obtain ⟨-, -, h3, h4, -⟩ := hp
  have h := startOn_strand s0 cl q.entry.task t
  rwa [show laneKey t = 8 * cl + q.lane by rw [laneKey, h3, h4]] at h

variable (hq : (getCp s s.ev.cl s.ev.pid).placed.find? (fun q => q.seg.sid == s.ev.id && decide (q.seg.start ≤ tickNow s)) = some q)
include hq

theorem segmentStart_fresh {e : Va} {a b : Word} (hw : q.entry.work = .fresh e a b) : exec .segmentStart s
    = .next (startOn (unplacedOf s q) s.ev.cl q.entry.task
      { blankStrand s.ev.cl q with g := ((blankStrand s.ev.cl q).g.set 1 a).set 2 b }) := by
  simp only [exec, execSegmentStart, hq, hw]
  rfl

theorem segmentStart_cont {c : Cont} (hw : q.entry.work = .cont) (hc : contFind s q.entry.task.id = some c) : exec .segmentStart s
    = .next (startOn { unplacedOf s q with conts := s.conts.filter (fun x => x.task.id != q.entry.task.id) } s.ev.cl q.entry.task
      (contStrand (blankStrand s.ev.cl q) c)) := by
  have hc' : contFind (unplacedOf s q) q.entry.task.id = some c := hc
  rw [unplacedOf] at hc'
  simp only [exec, execSegmentStart, hq, hw, hc']
  rfl

theorem segmentStart_remainder {old : Strand} {a : Nat} (hw : q.entry.work = .remainder old)
    (ha : imageOf s q.entry.task.id s.ev.pid = some a) : exec .segmentStart s
    = .next (startOn (freeImage (unplacedOf s q) q.entry.task.id s.ev.pid) s.ev.cl q.entry.task
      (imageStrand (unplacedOf s q) a (blankStrand s.ev.cl q) old)) := by
  have ha' : imageOf (unplacedOf s q) q.entry.task.id s.ev.pid = some a := ha
  rw [unplacedOf] at ha'
  simp only [exec, execSegmentStart, hq, hw, ha']
  rfl

end

/-- The registers of a new task. -/
theorem getG_fresh (a b : Word) (t : Strand) (h : t.g = ((Vector.replicate 64 (0 : Word)).set 1 a).set 2 b) (r : R6) :
    getG t r = if r = 1 then a else if r = 2 then b else 0 := by
  have hr : r.toNat < 64 := r.isLt
  by_cases h0 : r = 0
  · subst h0
    rfl
  · have hg : getG t r = t.g[r.toNat] := by simp only [getG, h0, if_false]
    rw [hg]
    simp only [h, Vector.getElem_set, Vector.getElem_replicate]
    by_cases h1 : r = 1
    · subst h1
      rfl
    by_cases h2 : r = 2
    · subst h2
      rfl
    · rw [if_neg h1, if_neg h2, if_neg, if_neg]
      · exact fun e => h1 (BitVec.eq_of_toNat_eq e.symm)
      · exact fun e => h2 (BitVec.eq_of_toNat_eq e.symm)

section
variable {s : State} {q : Placed}
  (hq : (getCp s s.ev.cl s.ev.pid).placed.find? (fun q => q.seg.sid == s.ev.id && decide (q.seg.start ≤ tickNow s)) = some q)
include hq

theorem segmentStart_clauses :
    let cl := s.ev.cl
    let p := s.ev.pid
    let starts := fun (f : Strand → Prop) => Performs .segmentStart s (fun s' => ∃ t, tabGet s'.strands (8 * cl + q.lane) = some t
      ∧ t.task = q.entry.task ∧ t.seg = q.seg ∧ t.cl = cl ∧ t.lane = q.lane ∧ t.ctx = q.ctx ∧ f t)
    (∀ e a b, q.entry.work = .fresh e a b → starts (fun t =>
      (∀ r : R6, getG t r = if r = 1 then a else if r = 2 then b else 0) ∧ (∀ r : Fin 32, t.v[r] = 0) ∧ t.p = 0
        ∧ (∀ r : Fin 7, t.m[r] = 0) ∧ (∀ r : Fin 4, t.c[r] = 0) ∧ t.rm = 0 ∧ t.flags = 0
        ∧ t.pc0 = q.seg.blk ∧ t.pc1 = q.seg.blk + 8 ∧ t.pc2 = q.seg.blk + 16 ∧ t.ds = 0))
    ∧ (∀ c, q.entry.work = .cont → contFind s q.entry.task.id = some c → starts (fun t => t.g = c.g ∧ t.v = c.v ∧ t.p = c.p
        ∧ t.c = c.c ∧ (∀ r : Fin 7, t.m[r] = 0) ∧ t.rm = c.rm ∧ t.flags = c.flags ∧ t.pc0 = c.pc0 ∧ t.pc1 = c.pc1
        ∧ t.pc2 = c.pc2 ∧ t.ds = c.ds))
    ∧ (∀ old a, q.entry.work = .remainder old → imageOf s q.entry.task.id p = some a → starts (fun t =>
      (∀ r : R6, r ≠ 0 → getG t r = rd64 s (a + 128 + 8 * r.toNat))
        ∧ (∀ r : Fin 32, t.v[r] = BitVec.ofNat 1024 (rdN s (a + 640 + 128 * r.val) 128))
        ∧ (∀ r : Fin 7, t.m[r] = rd64 s (a + 4736 + 8 * r.val)) ∧ t.p = BitVec.ofNat 7 (rdN s (a + 32) 8)
        ∧ t.pc0 = BitVec.ofNat 48 (rdN s a 8) ∧ t.pc1 = BitVec.ofNat 48 (rdN s (a + 8) 8)
        ∧ t.pc2 = BitVec.ofNat 48 (rdN s (a + 16) 8))) := by
  intro cl p starts
  have hstarts : ∀ (s0 : State) (t : Strand) (f : Strand → Prop), PlacedAs cl q t → exec .segmentStart s = .next (startOn s0 cl q.entry.task t) →
      f t → starts f := fun s0 t f hp hx hf _ => by
    obtain ⟨h1, h2, h3, h4, h5⟩ := hp
    exact ⟨_, hx, t, starts_of_startOn ⟨h1, h2, h3, h4, h5⟩, h1, h2, h3, h4, h5, hf⟩
  refine ⟨fun e a b hw => hstarts _ _ _ ⟨rfl, rfl, rfl, rfl, rfl⟩ (segmentStart_fresh hq hw) ?_,
    fun c hw hc => hstarts _ _ _ ⟨rfl, rfl, rfl, rfl, rfl⟩ (segmentStart_cont hq hw hc) ?_,
    fun old a hw ha => hstarts _ _ _ ⟨rfl, rfl, rfl, rfl, rfl⟩ (segmentStart_remainder hq hw ha) ?_⟩
  · refine ⟨getG_fresh a b _ rfl, fun r => ?_, rfl, fun r => ?_, fun r => ?_, rfl, rfl, rfl, rfl, rfl, rfl⟩ <;>
      exact Vector.getElem_replicate ..
  · exact ⟨rfl, rfl, rfl, rfl, fun r => Vector.getElem_replicate .., rfl, rfl, rfl, rfl, rfl, rfl⟩
  · refine ⟨fun r hr => ?_, fun r => Vector.getElem_ofFn .., fun r => Vector.getElem_ofFn .., rfl, rfl, rfl, rfl⟩
    have hr0 : r.toNat ≠ 0 := fun e => hr (BitVec.eq_of_toNat_eq e)
    have hg : ∀ t : Strand, getG t r = t.g[r.toNat]'r.isLt := fun t => by simp only [getG, hr, if_false]
    rw [hg]
    exact (Vector.getElem_ofFn ..).trans (if_neg hr0)

end



/-! #### Continuations and gangs go on -/

theorem length_flatMap_le {α β : Type} {f : α → List β} {n : Nat} (l : List α) (h : ∀ x ∈ l, (f x).length ≤ n) :
    (l.flatMap f).length ≤ n * l.length := by
  induction l with
  | nil => exact Nat.zero_le _
  | cons x l ih =>
    rw [List.flatMap_cons, List.length_append, List.length_cons, Nat.mul_succ, Nat.add_comm]
    exact Nat.add_le_add (ih fun y hy => h y (List.mem_cons_of_mem _ hy)) (h x List.mem_cons_self)

/-- A record fits in its slot. -/
theorem contBytes_length (c : Cont) : (contBytes c).length ≤ 8192 := by
  have h1 : ((contHeader c).flatMap (fun (w : Word) => toLe 8 w.toNat)).length ≤ 8 * 8 :=
    length_flatMap_le (contHeader c) fun w _ => (toLe_length 8 w.toNat).le
  have h2 : (c.g.toList.zipIdx.flatMap (fun e => if c.glive.getLsbD e.2 then toLe 8 e.1.toNat else [])).length ≤ 8 * 64 := by
    refine (length_flatMap_le (n := 8) _ fun e _ => ?_).trans (by simp)
    split_ifs
    · exact (toLe_length ..).le
    · exact Nat.zero_le _
  have h3 : (c.v.toList.zipIdx.flatMap (fun e => if c.vlive.getLsbD e.2 then toLe 128 e.1.toNat else [])).length ≤ 128 * 32 := by
    refine (length_flatMap_le (n := 128) _ fun e _ => ?_).trans (by simp)
    split_ifs
    · exact (toLe_length ..).le
    · exact Nat.zero_le _
  rw [contBytes, List.length_append, List.length_append]
  omega

section
variable {s : State} {c : Cont}

/-- A continuation that is offered, as its list holds it. -/
def offered (s : State) (c : Cont) : State :=
  { s with conts := listUpd s.conts (fun x => x.task.id == c.task.id) (fun x => { x with queued := true }) }

theorem updCont_offered (hc : contFind s c.task.id = some c) :
    updCont s c.task.id (fun x => { x with queued := true }) = writeCont (offered s c) { c with queued := true } := by
  have hf : (offered s c).conts.find? (fun x => x.task.id == c.task.id) = some { c with queued := true } := by
    have hcomp : ((fun x : Cont => x.task.id == c.task.id) ∘ fun x => if x.task.id == c.task.id then { x with queued := true } else x)
        = fun x => x.task.id == c.task.id := by
      funext x
      dsimp only [Function.comp_apply]
      split_ifs <;> rfl
    show (s.conts.map _).find? _ = _
    rw [List.find?_map, hcomp, show s.conts.find? (fun x => x.task.id == c.task.id) = some c from hc, Option.map_some,
      if_pos (beq_self_eq_true _)]
  unfold updCont
  dsimp only
  rw [show (listUpd s.conts (fun x => x.task.id == c.task.id) fun x => { x with queued := true }).find?
    (fun x => x.task.id == c.task.id) = some { c with queued := true } from hf]
  rfl

theorem writeCont_only (s : State) (c : Cont) : writeCont s c
    = { s with mem := (writeCont s c).mem, poison := (writeCont s c).poison, soft := (writeCont s c).soft } := by
  have hw : ∀ a bs, wrMem s a bs
      = { s with mem := (wrMem s a bs).mem, poison := (wrMem s a bs).poison, soft := (wrMem s a bs).soft } := fun a bs => rfl
  unfold writeCont
  split
  · exact hw ..
  · rfl

/-- The cluster that a continuation names. -/
def contDest (c : Cont) : Nat := if c.roam then 32 * dieOf c.cl + c.tgt else c.cl

theorem queueCont_eq (hc : contFind s c.task.id = some c) : queueCont s c
    = requeue (writeCont (offered s c) { c with queued := true }) (contDest c) c.task.pid c.queue c.prio c.task .cont := by
  unfold queueCont
  rw [updCont_offered hc]
  rfl

/-- An entry that is offered again. -/
def offeredEntry (s : State) (q prio : Nat) (k : Task) (w : Work) : Entry :=
  { task := k, work := w, queue := q, prio := prio, since := tickNow s, nbt := 0, nb := 0, headAt := none, capAt := none }

theorem requeue_queue (s : State) (cl p q prio : Nat) {k : Task} (w : Work) (h : k.fq = false) :
    requeue s cl p q prio k w = appendEntry s cl p q (offeredEntry s q prio k w) false := if_neg (by rw [h]; exact Bool.false_ne_true)

theorem requeue_fq (s : State) (cl p q prio : Nat) {k : Task} (w : Work) (h : k.fq = true) :
    requeue s cl p q prio k w
      = updDie s (dieOf cl) (fun d => { d with fq := d.fq ++ [⟨cl, { offeredEntry s q prio k w with queue := 0 }, false⟩] }) := if_pos h

theorem requeue_keeps (s : State) (cl p q prio : Nat) (k : Task) (w : Work) :
    OnlyCopies s (requeue s cl p q prio k w) := by
  cases h : k.fq with
  | false =>
    rw [requeue_queue s cl p q prio w h]
    rfl
  | true =>
    rw [requeue_fq s cl p q prio w h]
    rfl

/-- An entry that is offered again stands at the tail of its queue under its own priority. -/
theorem requeue_appended {s0 : State} (cl p q prio : Nat) {k : Task} (w : Work) (h : k.fq = false) (hk : s0.clParts = s.clParts)
    (hc : s0.cycle = s.cycle) : ∃ e, Appended s (requeue s0 cl p q prio k w) cl p q e ∧ e.work = w ∧ e.task = k ∧ e.prio = prio := by
  rw [requeue_queue s0 cl p q prio w h]
  exact ⟨_, appended_of_appendEntry rfl hk hc, rfl, rfl, rfl⟩

theorem requeue_fq_appended {s0 : State} (cl p q prio : Nat) {k : Task} (w : Work) (h : k.fq = true) (hk : s0.dies = s.dies) :
    ∃ e, (getDie (requeue s0 cl p q prio k w) (dieOf cl)).fq = (getDie s (dieOf cl)).fq ++ [⟨cl, e, false⟩] ∧ e.work = w ∧ e.task = k
      ∧ e.prio = prio := by
  have hd : getDie s (dieOf cl) = getDie s0 (dieOf cl) := by rw [getDie, getDie, hk]
  rw [requeue_fq s0 cl p q prio w h, getDie_updDie_same, hd]
  exact ⟨_, rfl, rfl, rfl, rfl⟩

/-- A continuation enters the tail of its queue under its own priority, in the cluster it names. -/
theorem queueCont_spec (hinv : s.Inv) (hc : contFind s c.task.id = some c) :
    (c.hbm = none → SameMem s (queueCont s c))
    ∧ (∀ k, c.hbm = some k → SameMemBut (contPhys s c.cl c.task.pid k) 8192 s (queueCont s c))
    ∧ (∀ d ∈ (queueCont s c).conts, d.task.id = c.task.id → d.queued = true)
    ∧ ∃ e, e.work = .cont ∧ e.task = c.task ∧ e.prio = c.prio
      ∧ (c.task.fq = false → Appended s (queueCont s c) (contDest c) c.task.pid c.queue e)
      ∧ (c.task.fq = true → (getDie (queueCont s c) (dieOf (contDest c))).fq = (getDie s (dieOf (contDest c))).fq ++ [⟨contDest c, e, false⟩]) := by
  have hq := queueCont_eq hc
  have hw := writeCont_only (offered s c) { c with queued := true }
  generalize hs0 : writeCont (offered s c) { c with queued := true } = s0 at hq hw
  have hm := (requeue_keeps s0 (contDest c) c.task.pid c.queue c.prio c.task .cont)
  have hwm : ∀ b, (∀ k, c.hbm = some k → b < contPhys s c.cl c.task.pid k ∨ contPhys s c.cl c.task.pid k + 8192 ≤ b) →
      rdCell s0.mem b = rdCell s.mem b := fun b hb => by
    rw [← hs0]
    refine writeCont_mem (offered s c) _ hinv.1 b fun k hk => ?_
    have hl := contBytes_length { c with queued := true }
    rcases hb k hk with h | h
    · exact .inl h
    · exact .inr (le_trans (Nat.add_le_add_left hl _) h)
  rw [hq]
  refine ⟨fun hn b => (hm.sameMem b).trans (hwm b fun k hk => by simp [hn] at hk),
    fun k hk b hb => (hm.sameMem b).trans (hwm b fun j hj => by rw [Option.some.inj (hj.symm.trans hk)]; exact hb), fun d hd hid => ?_, ?_⟩
  · rw [hm, hw] at hd
    obtain ⟨x, -, rfl⟩ := List.mem_map.mp hd
    by_cases hx : (x.task.id == c.task.id) = true
    · rw [if_pos hx]
    · rw [if_neg hx] at hid
      exact absurd (by simpa using hid) hx
  · have hcl : s0.clParts = s.clParts := by rw [hw]; rfl
    have hcy : s0.cycle = s.cycle := by rw [hw]; rfl
    have hdi : s0.dies = s.dies := by rw [hw]; rfl
    cases hf : c.task.fq with
    | false =>
      obtain ⟨e, h1, h2, h3, h4⟩ := requeue_appended (contDest c) c.task.pid c.queue c.prio .cont hf hcl hcy
      exact ⟨e, h2, h3, h4, fun _ => h1, fun h => absurd h Bool.false_ne_true⟩
    | true =>
      obtain ⟨e, h1, h2, h3, h4⟩ := requeue_fq_appended (contDest c) c.task.pid c.queue c.prio .cont hf hdi
      exact ⟨e, h2, h3, h4, fun h => absurd h.symm Bool.false_ne_true, fun _ => h1⟩

/-- What offers a continuation: its event, the end of its watch, or its time. -/
theorem queueWhen_on {sort : Cont → Bool} (hc : contFind s s.ev.id = some c) (hq : c.queued = false) (hg : c.gang = 0)
    (he : eventReady s c = true) (hs : sort c = true) : queueWhen s sort = .next (queueCont s c) := by
  simp only [queueWhen, hc, hq, hg, he, hs, Bool.not_false, Bool.and_self, BEq.rfl, if_true]

theorem queued_rows {i : Instr} (hc : contFind s s.ev.id = some c) (hq : c.queued = false) (hg : c.gang = 0)
    (he : eventReady s c = true) (hi : (i, decide (c.event ≠ 7), decide (c.evAddr ≠ 0)) ∈ ([(.continuationQueued, true, true),
      (.continuationQueued, true, false), (.watchTimeout, false, true), (.yieldTimeExpiry, false, false)] : List (Instr × Bool × Bool))) :
    exec i s = .next (queueCont s c) := by
  simp only [List.mem_cons, List.not_mem_nil, or_false, Prod.mk.injEq, decide_eq_true_eq, decide_eq_false_iff_not, not_not] at hi
  rcases hi with ⟨rfl, h1, -⟩ | ⟨rfl, h1, -⟩ | ⟨rfl, h1, h2⟩ | ⟨rfl, h1, h2⟩ <;> refine queueWhen_on hc hq hg he ?_
  · simpa using h1
  · simpa using h1
  · simp [h1, h2]
  · simp [h1, h2]

end

theorem contTask_id {s : State} {c : Cont} (hc : contFind s s.ev.id = some c) : c.task.id = s.ev.id := by
  simpa using List.find?_some hc



/-- The part of a booking before a tick holds no later tick. -/
theorem bookedTo_clip_before (b : Booking) {tick t : Nat} (sid r : Nat) (h0 : 0 < t) (h : tick ≤ t) :
    bookedTo (clip b 0 (tick - 1)) sid r t = false := by
  unfold clip bookedTo
  split_ifs
  · simp only [List.any_cons, List.any_nil, Bool.or_false, Bool.and_eq_false_iff, decide_eq_false_iff_not]
    exact .inr (by omega)
  · rfl

theorem bookedTo_append (l l' : List Booking) (sid r t : Nat) : bookedTo (l ++ l') sid r t = (bookedTo l sid r t || bookedTo l' sid r t) :=
  List.any_append

theorem bookedTo_flatMap (l : List Booking) (f : Booking → List Booking) (sid r t : Nat) :
    bookedTo (l.flatMap f) sid r t = l.any (fun b => bookedTo (f b) sid r t) := List.any_flatMap ..

/-- What is released of a holder that has no tile command is free from the tick on. -/
theorem bookedTo_releaseFrom {k : ClPart} {sid tick r t : Nat} (hk : ∀ c ∈ k.tiles, c.sid ≠ sid) (h0 : 0 < t) (h : tick ≤ t) :
    bookedTo (releaseFrom k sid tick).cal sid r t = false := by
  have hf : k.tiles.filter (fun c => c.sid == sid) = [] := List.filter_eq_nil_iff.mpr fun c hc => by simpa using hk c hc
  unfold releaseFrom
  dsimp only
  rw [bookedTo_flatMap, hf]
  refine List.any_eq_false.mpr fun b _ => ?_
  by_cases hb : (b.sid == sid) = true
  · rw [if_pos hb, List.flatMap_nil, List.append_nil, bookedTo_clip_before b sid r h0 h]
    exact Bool.false_ne_true
  · rw [if_neg hb]
    simp [bookedTo, Bool.eq_false_iff.mpr hb]

section
variable {s : State} {g : Gang}

/-- A member that its gang's round leaves behind goes on alone. -/
def leavesRound (g : Gang) (t : Strand) : Strand :=
  if t.seg.gang = g.num ∧ g.active.contains t.seg.member then
    { t with seg := { t.seg with gang := 0 }, task := { t.task with left := true } } else t

/-- The state after a gang's lanes are released and the members that have not ended have left it. -/
def roundLeft (s : State) (g : Gang) : State :=
  { updCp s s.ev.cl s.ev.pid (fun k => releaseFrom k g.sid (tickNow s)) with
    strands := s.strands.map (fun e => (e.1, leavesRound g e.2)), parked := s.parked.map (leavesRound g) }

/-- The members that a round leaves to the next one. -/
def roundAlive (g : Gang) : List Nat := g.alive.filter (fun m => !g.active.contains m)

theorem gangRoundEnd_on (hg : (getCp s s.ev.cl s.ev.pid).gangs.find? (fun g => g.num == s.ev.id) = some g) (ho : roundOver s g = true) :
    exec .gangRoundEnd s = .next (if (roundAlive g).isEmpty then endGang (roundLeft s g) s.ev.cl s.ev.pid g.num
      else updGang (roundLeft s g) s.ev.cl s.ev.pid g.num (fun x => { x with alive := roundAlive g, active := [], inRound := false })) := by
  simp only [exec, execGangRoundEnd, hg, ho, Bool.not_true, Bool.false_eq_true, if_false]
  rw [show ∀ (b : Bool) (x y : State), (if b = true then (Host.Outcome.next x : Out) else .next y) = .next (if b = true then x else y)
    from fun b x y => by cases b <;> rfl]
  rfl

/-- What the end of a round does to the gang. -/
def roundEnds (s : State) (g : Gang) : ClPart → ClPart := fun k =>
  if (roundAlive g).isEmpty then
    { k with gangs := k.gangs.filter (fun x => x.num != g.num), pipes := k.pipes.filter (fun q => q.gang != g.num) }
  else
    { k with gangs := listUpd k.gangs (fun x => x.num == g.num) (fun x => { x with alive := roundAlive g, active := [], inRound := false }) }

theorem gangRoundEnd_ends (hg : (getCp s s.ev.cl s.ev.pid).gangs.find? (fun g => g.num == s.ev.id) = some g) (ho : roundOver s g = true) :
    exec .gangRoundEnd s = .next (updCp (roundLeft s g) s.ev.cl s.ev.pid (roundEnds s g)) := by
  rw [gangRoundEnd_on hg ho]
  unfold roundEnds
  split_ifs <;> rfl

theorem roundEnds_cal (s : State) (g : Gang) (k : ClPart) : (roundEnds s g k).cal = k.cal := by
  unfold roundEnds
  split_ifs <;> rfl

theorem getCp_roundEnds (s : State) (g : Gang) : getCp (updCp (roundLeft s g) s.ev.cl s.ev.pid (roundEnds s g)) s.ev.cl s.ev.pid
    = roundEnds s g (releaseFrom (getCp s s.ev.cl s.ev.pid) g.sid (tickNow s)) := by
  rw [getCp_updCp_same]
  refine congrArg (roundEnds s g) ?_
  show getCp (updCp s s.ev.cl s.ev.pid (fun k => releaseFrom k g.sid (tickNow s))) s.ev.cl s.ev.pid = _
  rw [getCp_updCp_same]

theorem leavesRound_eq (g : Gang) (t : Strand) : leavesRound g t = if t.seg.gang = g.num ∧ t.seg.member ∈ g.active then
    { t with seg := { t.seg with gang := 0 }, task := { t.task with left := true } } else t :=
  ite_congr (propext (and_congr_right fun _ => List.contains_iff_mem)) (fun _ => rfl) fun _ => rfl

variable (hg : (getCp s s.ev.cl s.ev.pid).gangs.find? (fun g => g.num == s.ev.id) = some g)
include hg

theorem gangRoundEnd_clauses :
    let alive := g.alive.filter (fun m => !g.active.contains m)
    let leave := fun (t : Strand) => if t.seg.gang = g.num ∧ t.seg.member ∈ g.active then
      { t with seg := { t.seg with gang := 0 }, task := { t.task with left := true } } else t
    let released := fun (s' : State) => (∀ c ∈ (getCp s s.ev.cl s.ev.pid).tiles, c.sid ≠ g.sid) →
      ∀ r t, 0 < t → tickNow s ≤ t → bookedTo (getCp s' s.ev.cl s.ev.pid).cal g.sid r t = false
    (roundOver s g = true → Performs .gangRoundEnd s (fun s' => released s' ∧ s'.parked = s.parked.map leave
      ∧ ∀ n, tabGet s'.strands n = (tabGet s.strands n).map leave))
    ∧ (roundOver s g = true → alive ≠ [] → Performs .gangRoundEnd s (fun s' => SameMem s s'
      ∧ ∃ g' ∈ (getCp s' s.ev.cl s.ev.pid).gangs, g'.num = g.num ∧ g'.alive = alive ∧ g'.active = [] ∧ g'.inRound = false))
    ∧ (roundOver s g = true → alive = [] → Performs .gangRoundEnd s (fun s' => SameMem s s'
      ∧ (∀ g' ∈ (getCp s' s.ev.cl s.ev.pid).gangs, g'.num ≠ g.num)
        ∧ ∀ q ∈ (getCp s' s.ev.cl s.ev.pid).pipes, q.gang ≠ g.num)) := by
  intro alive leave released
  have hleave : leavesRound g = leave := funext (leavesRound_eq g)
  refine ⟨fun ho _ => ⟨_, gangRoundEnd_ends hg ho, fun ht r t h0 h => ?_, ?_, fun n => ?_⟩,
    fun ho ha _ => ⟨_, gangRoundEnd_ends hg ho, fun a => rfl, ?_⟩, fun ho ha _ => ⟨_, gangRoundEnd_ends hg ho, fun a => rfl, ?_⟩⟩
  · rw [getCp_roundEnds, roundEnds_cal]
    exact bookedTo_releaseFrom ht h0 h
  · rw [← hleave]; rfl
  · rw [← hleave]
    exact tabGet_map ..
  · have he : (roundAlive g).isEmpty = false := by
      rw [Bool.eq_false_iff, ne_eq, List.isEmpty_iff]
      exact ha
    rw [getCp_roundEnds, roundEnds, if_neg (by rw [he]; exact Bool.false_ne_true)]
    refine ⟨{ g with alive := alive, active := [], inRound := false }, List.mem_map.mpr ⟨g, List.mem_of_find?_eq_some hg, ?_⟩,
      rfl, rfl, rfl, rfl⟩
    exact if_pos (beq_self_eq_true _)
  · have he : (roundAlive g).isEmpty = true := List.isEmpty_iff.mpr ha
    rw [getCp_roundEnds, roundEnds, if_pos he]
    exact ⟨fun g' h => by simpa using (List.mem_filter.mp h).2, fun q h => by simpa using (List.mem_filter.mp h).2⟩

theorem gangNextRound_goes (hr : roundReady s g = true) (hf : g.entry.task.fq = false) :
    Performs .gangNextRound s (fun s' => SameMem s s' ∧ (∀ c ∈ s'.conts, c.gang = g.num → c.queued = true)
      ∧ ∃ e, Appended s s' s.ev.cl s.ev.pid g.entry.queue e ∧ e.work = .gangRound g.num) := by
  intro _
  let s1 : State := { s with conts := s.conts.map (fun c => if c.gang = g.num then { c with queued := true } else c) }
  let pr := (gangConts s g).foldl (fun m c => max m c.prio) 0
  have hx : exec .gangNextRound s = .next (requeue s1 s.ev.cl s.ev.pid g.entry.queue pr g.entry.task (.gangRound g.num)) := by
    simp only [exec, execGangNextRound, hg, hr, Bool.not_true, Bool.false_eq_true, if_false]
    rfl
  have hk := requeue_keeps s1 s.ev.cl s.ev.pid g.entry.queue pr g.entry.task (.gangRound g.num)
  obtain ⟨e, h1, h2, -, -⟩ := requeue_appended (s := s) (s0 := s1) s.ev.cl s.ev.pid g.entry.queue pr (.gangRound g.num) hf rfl rfl
  refine ⟨_, hx, hk.sameMem, fun c hc hcg => ?_, e, h1, h2⟩
  rw [hk] at hc
  obtain ⟨x, -, rfl⟩ := List.mem_map.mp hc
  by_cases hxg : x.gang = g.num
  · rw [if_pos hxg]
  · rw [if_neg hxg] at hcg
    exact absurd hcg hxg

end

/-- Settles O59: a placed segment starts with what its work brings, a continuation whose event has come is offered in its queue, and a
gang's round ends and begins again. -/
theorem segmentStarts : Obligations.SegmentStarts := by
  refine ⟨fun s q hq => segmentStart_clauses hq, fun s => ⟨?_, fun i c hc hq hg he hi => ?_, fun g hg => ?_⟩⟩
  · intro _
    refine ⟨_, rfl, fun a => rfl, List.map_congr_left fun c _ => ite_congr (propext ?_) (fun _ => rfl) fun _ => rfl⟩
    simp only [Bool.and_eq_true, beq_iff_eq, decide_eq_true_eq]
  · intro dest hinv
    have hid := contTask_id hc
    exact ⟨_, queued_rows hc hq hg he hi, queueCont_spec hinv (hid ▸ hc)⟩
  · obtain ⟨h1, h2, h3⟩ := gangRoundEnd_clauses hg
    exact ⟨h1, h2, h3, fun hr hf => gangNextRound_goes hg hr hf⟩

end Sys2Proof.Machine
end

section
/-! SUPPORT. O55: fault events, and the requests on them. -/

namespace Sys2Proof.Machine

open Laws



/-! #### Fault events -/

section
variable (s : State) (x : Tab Die) (y : Tab DiePart) (n : Nat)

/-- The same state with other dies and the next identifier another. -/
def otherDies : State := { s with dies := x, dieParts := y, nextId := n }

theorem xlate_otherDies (cl p root vpn : Nat) : (xlate (otherDies s x y n) cl p root vpn).1 = (xlate s cl p root vpn).1 := by
  have hc : getClu (otherDies s x y n) cl = getClu s cl := rfl
  have hw : walk (otherDies s x y n) p root vpn = walk s p root vpn := rfl
  unfold xlate
  rw [hc, hw]
  split
  · rfl
  · split <;> rfl

theorem sieveRead_otherDies (cl p root : Nat) : ∀ fuel va k,
    sieveRead (otherDies s x y n) cl p root fuel va k = sieveRead s cl p root fuel va k := by
  intro fuel
  induction fuel with
  | zero => exact fun va k => rfl
  | succ fuel ih =>
    intro va k
    simp only [sieveRead, ih, xlate_otherDies]
    rfl

/-- A read of the Sieve depends on no die and no die's copy. -/
theorem sieveWords_otherDies (cl p root va k : Nat) : sieveWords (otherDies s x y n) cl p root va k = sieveWords s cl p root va k := by
  unfold sieveWords
  rw [sieveRead_otherDies]

end

/-- A record is written to memory only. -/
theorem writeRec_only (s : State) (d slot : Nat) (r : FaultRec) : writeRec s d slot r
    = { s with mem := (writeRec s d slot r).mem, poison := (writeRec s d slot r).poison, soft := (writeRec s d slot r).soft } := by
  have hw : ∀ a bs, wrMem s a bs
      = { s with mem := (wrMem s a bs).mem, poison := (wrMem s a bs).poison, soft := (wrMem s a bs).soft } := fun a bs => rfl
  unfold writeRec
  dsimp only
  split
  · exact hw ..
  · rfl

section
variable {s : State} {e : FaultEv} {rest : List FaultEv} {slot : Nat}

/-- The record of an event that becomes active. -/
def newRec (e : FaultEv) : FaultRec := { ev := e, live := true, done := false }

/-- The state with the record of the oldest waiting event in its slot. -/
def recorded (s : State) (e : FaultEv) (rest : List FaultEv) (slot : Nat) : State :=
  writeRec (updDp (putDie s s.ev.unit { getDie s s.ev.unit with waiting := rest }) s.ev.unit e.pid
    (fun x => { x with records := tabSet x.records slot (newRec e) })) s.ev.unit slot (newRec e)

/-- The address of the vector entry of an event's cause. -/
def vectorOf (s : State) (e : FaultEv) : Nat := dieCtl s s.ev.unit e.pid 0x421 / 2 ^ 8 % 2 ^ 40 * 2 ^ 8 + 8 * e.cause

theorem recorded_only (s : State) (e : FaultEv) (rest : List FaultEv) (slot : Nat) : ∃ m po so, recorded s e rest slot
    = { updDp (putDie s s.ev.unit { getDie s s.ev.unit with waiting := rest }) s.ev.unit e.pid
        (fun x => { x with records := tabSet x.records slot (newRec e) }) with mem := m, poison := po, soft := so } :=
  ⟨_, _, _, writeRec_only ..⟩

theorem recorded_die (s : State) (e : FaultEv) (rest : List FaultEv) (slot : Nat) :
    getDie (recorded s e rest slot) s.ev.unit = { getDie s s.ev.unit with waiting := rest } := by
  obtain ⟨m, po, so, h⟩ := recorded_only s e rest slot
  rw [h]
  show getDie (putDie s s.ev.unit { getDie s s.ev.unit with waiting := rest }) s.ev.unit = _
  rw [getDie, putDie]
  dsimp only
  rw [tabGet_tabSet_same]
  rfl

theorem recorded_dp (s : State) (e : FaultEv) (rest : List FaultEv) (slot : Nat) : getDp (recorded s e rest slot) s.ev.unit e.pid
    = { getDp s s.ev.unit e.pid with records := tabSet (getDp s s.ev.unit e.pid).records slot (newRec e) } := by
  obtain ⟨m, po, so, h⟩ := recorded_only s e rest slot
  rw [h]
  show getDp (updDp (putDie s s.ev.unit { getDie s s.ev.unit with waiting := rest }) s.ev.unit e.pid
    (fun x => { x with records := tabSet x.records slot (newRec e) })) s.ev.unit e.pid = _
  rw [getDp_updDp_same]
  rfl

theorem recorded_dieCtl (s : State) (e : FaultEv) (rest : List FaultEv) (slot n : Nat) :
    dieCtl (recorded s e rest slot) s.ev.unit e.pid n = dieCtl s s.ev.unit e.pid n := by
  rw [dieCtl, recorded_dp]
  rfl

theorem recorded_ev (s : State) (e : FaultEv) (rest : List FaultEv) (slot : Nat) : (recorded s e rest slot).ev = s.ev := by
  obtain ⟨m, po, so, h⟩ := recorded_only s e rest slot
  rw [h]
  rfl

/-- The state with a fault task of the event in the queue of the die. -/
def faultQueued (s : State) (e : FaultEv) (slot entry : Nat) : State :=
  updDie { s with nextId := s.nextId + 1 } s.ev.unit (fun x => { x with
    fq := x.fq ++ [⟨e.cl, faultEntry s s.ev.unit slot entry e, true⟩] })

/-- The state with an event whose vector cannot be read counted as lost. -/
def faultLeft (s : State) (e : FaultEv) (slot : Nat) : State :=
  if e.kind = 3 then updDp (faultLost s s.ev.unit e.pid slot) s.ev.unit e.pid (fun x => { x with records := tabDel x.records slot })
  else faultLost s s.ev.unit e.pid slot

variable (hw : (getDie s s.ev.unit).waiting = e :: rest)
include hw

theorem faultEventEnqueue_waits (h : leastFree ((getDp s s.ev.unit e.pid).records.map (·.1)) 256 0 = none
    ∨ 256 ≤ (getDie s s.ev.unit).fq.countP (·.counts)) : exec .faultEventEnqueue s = .next s := by
  simp only [exec, execFaultEventEnqueue, hw]
  split
  · rfl
  · rename_i hs
    rw [if_pos (h.resolve_left fun hn => by rw [hn] at hs; cases hs)]

theorem faultEventEnqueue_on (hs : leastFree ((getDp s s.ev.unit e.pid).records.map (·.1)) 256 0 = some slot)
    (hc : (getDie s s.ev.unit).fq.countP (·.counts) < 256) : exec .faultEventEnqueue s
    = match sieveWords (recorded s e rest slot) e.cl e.pid 0 (vectorOf s e) 1 with
      | .ok ws => .next (faultQueued (recorded s e rest slot) e slot (ws.getD 0 0 % 2 ^ 48))
      | .error _ => .next (faultLeft (recorded s e rest slot) e slot) := by
  have hv : dieCtl (recorded s e rest slot) s.ev.unit e.pid 0x421 / 2 ^ 8 % 2 ^ 40 * 2 ^ 8 + 8 * e.cause = vectorOf s e := by
    rw [recorded_dieCtl]; rfl
  have hev := recorded_ev s e rest slot
  simp only [exec, execFaultEventEnqueue, hw, hs]
  rw [if_neg (by omega)]
  rw [show writeRec (updDp (putDie s s.ev.unit { getDie s s.ev.unit with waiting := rest }) s.ev.unit e.pid
    (fun x => { x with records := tabSet x.records slot { ev := e, live := true, done := false } })) s.ev.unit slot
    { ev := e, live := true, done := false } = recorded s e rest slot from rfl, hv]
  unfold faultQueued faultLeft
  rw [hev] <;> cases sieveWords (recorded s e rest slot) e.cl e.pid 0 (vectorOf s e) 1 <;> rfl

end

section
variable {s S : State} {e : FaultEv} {rest : List FaultEv} {slot : Nat}

theorem recVa_recorded (s : State) (e : FaultEv) (rest : List FaultEv) (slot n : Nat) :
    recVa (recorded s e rest slot) s.ev.unit e.pid n = recVa s s.ev.unit e.pid n := by
  rw [recVa, recorded_dieCtl]
  rfl

/-- An event whose vector is read takes its entry. -/
theorem faultQueued_spec (entry : Nat) (hS : S = recorded s e rest slot) (d : Nat) (hd : d = s.ev.unit) :
    let s' := faultQueued S e slot (entry % 2 ^ 48)
    (getDie s' d).waiting = rest ∧ tabGet (getDp s' d e.pid).records slot = some (newRec e)
      ∧ dieCtl s' d e.pid 0x423 = dieCtl s d e.pid 0x423
      ∧ ∃ f, (getDie s' d).fq = (getDie s d).fq ++ [⟨e.cl, f, true⟩] ∧ f.task.pid = e.pid ∧ f.task.fq = true ∧ f.prio = 127
         ∧ f.task.noticeSlot = (if e.kind = 3 then some slot else none)
         ∧ f.work = .fresh (BitVec.ofNat 48 entry) (BitVec.ofNat 64 (recVa s d e.pid slot))
           (BitVec.ofNat 64 (e.cause + 2 ^ 8 * e.kind + 2 ^ 10 * slot)) := by
  intro s'
  subst hS hd
  have hev := recorded_ev s e rest slot
  have hdie : getDie s' s.ev.unit = { getDie s s.ev.unit with
      waiting := rest, fq := (getDie s s.ev.unit).fq ++ [⟨e.cl, faultEntry (recorded s e rest slot) s.ev.unit slot (entry % 2 ^ 48) e, true⟩] } := by
    simp only [s', faultQueued, hev]
    rw [getDie_updDie_same]
    exact congrArg (fun D : Die => ({ D with
      fq := D.fq ++ [⟨e.cl, faultEntry (recorded s e rest slot) s.ev.unit slot (entry % 2 ^ 48) e, true⟩] } : Die)) (recorded_die s e rest slot)
  have hdp : getDp s' s.ev.unit e.pid = getDp (recorded s e rest slot) s.ev.unit e.pid := rfl
  refine ⟨congrArg Die.waiting hdie, ?_, ?_, _, congrArg Die.fq hdie, rfl, rfl, rfl, rfl, ?_⟩
  · rw [hdp, recorded_dp]
    exact tabGet_tabSet_same ..
  · rw [dieCtl, hdp]
    exact recorded_dieCtl ..
  · rw [faultEntry]
    dsimp only
    rw [recVa_recorded, show BitVec.ofNat 48 (entry % 2 ^ 48) = BitVec.ofNat 48 entry from BitVec.eq_of_toNat_eq (by simp)]

theorem lostWord_toNat (n slot : Nat) (h : slot < 256) :
    (BitVec.ofNat 64 (min (2 ^ 32 - 1) (n + 1) + 2 ^ 32 * slot)).toNat = min (2 ^ 32 - 1) (n + 1) + 2 ^ 32 * slot := by
  rw [BitVec.toNat_ofNat]
  omega

/-- An event whose vector cannot be read is counted; a notice gives its slot back. -/
theorem faultLeft_spec (hS : S = recorded s e rest slot) (hlt : slot < 256) (d : Nat) (hd : d = s.ev.unit) :
    let s' := faultLeft S e slot
    (getDie s' d).waiting = rest ∧ (getDie s' d).fq = (getDie s d).fq
      ∧ dieCtl s' d e.pid 0x423 = min (2 ^ 32 - 1) (dieCtl s d e.pid 0x423 % 2 ^ 32 + 1) + 2 ^ 32 * slot
      ∧ tabGet (getDp s' d e.pid).records slot = (if e.kind = 3 then none else some (newRec e)) := by
  intro s'
  subst hS hd
  have hev := recorded_ev s e rest slot
  have hdie : getDie s' s.ev.unit = { getDie s s.ev.unit with waiting := rest } := by
    rw [← recorded_die s e rest slot]
    simp only [s', faultLeft]
    split_ifs <;> rfl
  have hlost : getDp (faultLost (recorded s e rest slot) s.ev.unit e.pid slot) s.ev.unit e.pid
      = (fun x : DiePart => { x with
          ctl := tabSet x.ctl 0x423 (BitVec.ofNat 64 (min (2 ^ 32 - 1) (dieCtl s s.ev.unit e.pid 0x423 % 2 ^ 32 + 1) + 2 ^ 32 * slot)) })
        (getDp (recorded s e rest slot) s.ev.unit e.pid) := by
    unfold faultLost
    dsimp only
    rw [recorded_dieCtl, getDp_updDp_same]
  have hctl : (ctlGet (getDp s' s.ev.unit e.pid).ctl 0x423).toNat
      = min (2 ^ 32 - 1) (dieCtl s s.ev.unit e.pid 0x423 % 2 ^ 32 + 1) + 2 ^ 32 * slot := by
    refine Eq.trans ?_ (lostWord_toNat (dieCtl s s.ev.unit e.pid 0x423 % 2 ^ 32) slot hlt)
    simp only [s', faultLeft, hev]
    split_ifs
    · rw [getDp_updDp_same]
      dsimp only
      rw [hlost, ctlGet_tabSet_same]
    · rw [hlost, ctlGet_tabSet_same]
  refine ⟨(congrArg Die.waiting hdie).trans rfl, (congrArg Die.fq hdie).trans rfl, hctl, ?_⟩
  simp only [s', faultLeft, hev]
  split_ifs
  · rw [getDp_updDp_same]
    exact tabGet_tabDel_same ..
  · rw [hlost, recorded_dp]
    exact tabGet_tabSet_same ..

theorem leastFree_lt {l : List Nat} : ∀ {n k x : Nat}, leastFree l n k = some x → x < k + n := by
  intro n
  induction n with
  | zero => exact fun h => by cases h
  | succ n ih =>
    intro k x h
    unfold leastFree at h
    split_ifs at h
    · have := ih h; omega
    · cases h; omega

end

/-- The oldest waiting event of a die. -/
theorem faultEventEnqueue_clauses (s : State) (e : FaultEv) (rest : List FaultEv) :
    let d := s.ev.unit
    let lost := dieCtl s d e.pid 0x423 % 2 ^ 32
    (getDie s d).waiting = e :: rest →
    (leastFree ((getDp s d e.pid).records.map (·.1)) 256 0 = none ∨ 256 ≤ (getDie s d).fq.countP (·.counts) →
      Performs .faultEventEnqueue s (fun s' => s' = s))
    ∧ (∀ slot, leastFree ((getDp s d e.pid).records.map (·.1)) 256 0 = some slot → (getDie s d).fq.countP (·.counts) < 256 →
      let r : FaultRec := { ev := e, live := true, done := false }
      Performs .faultEventEnqueue s (fun s' => (getDie s' d).waiting = rest ∧
        match sieveWords s' e.cl e.pid 0 (dieCtl s d e.pid 0x421 / 2 ^ 8 % 2 ^ 40 * 2 ^ 8 + 8 * e.cause) 1 with
        | .ok ws => tabGet (getDp s' d e.pid).records slot = some r ∧ dieCtl s' d e.pid 0x423 = dieCtl s d e.pid 0x423
          ∧ ∃ f, (getDie s' d).fq = (getDie s d).fq ++ [⟨e.cl, f, true⟩] ∧ f.task.pid = e.pid ∧ f.task.fq = true ∧ f.prio = 127
            ∧ f.task.noticeSlot = (if e.kind = 3 then some slot else none)
            ∧ f.work = .fresh (BitVec.ofNat 48 (ws.getD 0 0)) (BitVec.ofNat 64 (recVa s d e.pid slot))
              (BitVec.ofNat 64 (e.cause + 2 ^ 8 * e.kind + 2 ^ 10 * slot))
        | .error _ => (getDie s' d).fq = (getDie s d).fq ∧ dieCtl s' d e.pid 0x423 = min (2 ^ 32 - 1) (lost + 1) + 2 ^ 32 * slot
          ∧ tabGet (getDp s' d e.pid).records slot = (if e.kind = 3 then none else some r))) := by
  intro d lost hw
  refine ⟨fun h _ => ⟨s, faultEventEnqueue_waits hw h, rfl⟩, fun slot hs hc => ?_⟩
  intro r _
  have hx := faultEventEnqueue_on hw hs hc
  have hlt : slot < 256 := by have := leastFree_lt hs; omega
  generalize hS : recorded s e rest slot = S at hx
  cases hv : sieveWords S e.cl e.pid 0 (vectorOf s e) 1 with
  | ok ws =>
    rw [hv] at hx
    obtain ⟨h1, h2⟩ := faultQueued_spec (ws.getD 0 0) hS.symm d rfl
    have hr : sieveWords (faultQueued S e slot (ws.getD 0 0 % 2 ^ 48)) e.cl e.pid 0 (vectorOf s e) 1 = .ok ws :=
      (sieveWords_otherDies S _ S.dieParts (S.nextId + 1) ..).trans hv
    refine ⟨_, hx, h1, ?_⟩
    rw [show dieCtl s d e.pid 0x421 / 2 ^ 8 % 2 ^ 40 * 2 ^ 8 + 8 * e.cause = vectorOf s e from rfl, hr]
    exact h2
  | error x =>
    rw [hv] at hx
    obtain ⟨h1, h2⟩ := faultLeft_spec hS.symm hlt d rfl
    have hr : sieveWords (faultLeft S e slot) e.cl e.pid 0 (vectorOf s e) 1 = .error x := by
      have h3 : ∃ y, faultLeft S e slot = otherDies S S.dies y S.nextId := by
        unfold faultLeft
        split_ifs
        · exact ⟨_, rfl⟩
        · exact ⟨_, rfl⟩
      obtain ⟨y, h3⟩ := h3
      rw [h3, sieveWords_otherDies]
      exact hv
    refine ⟨_, hx, h1, ?_⟩
    rw [show dieCtl s d e.pid 0x421 / 2 ^ 8 % 2 ^ 40 * 2 ^ 8 + 8 * e.cause = vectorOf s e from rfl, hr]
    exact h2



/-! #### What the end of a task leaves (R186, R422) -/

/-- Where every strand runs, and for which task. -/
def laneMap (s : State) : List (Nat × Nat × Nat) := s.strands.map (fun e => (e.1, laneKey e.2, e.2.task.id))

/-- Between the two states no die and no strand's place differ, and no operation is new. -/
def SamePlaces (s s' : State) : Prop :=
  s'.dies = s.dies ∧ s'.dieParts = s.dieParts ∧ laneMap s' = laneMap s ∧ ∀ q ∈ s'.ops, ∃ o ∈ s.ops, o.id = q.id

theorem SamePlaces.refl (s : State) : SamePlaces s s := ⟨rfl, rfl, rfl, fun q h => ⟨q, h, rfl⟩⟩

theorem SamePlaces.trans {a b c : State} (h : SamePlaces a b) (k : SamePlaces b c) : SamePlaces a c := by
  obtain ⟨h1, h2, h3, h4⟩ := h
  obtain ⟨k1, k2, k3, k4⟩ := k
  refine ⟨k1.trans h1, k2.trans h2, k3.trans h3, fun q hq => ?_⟩
  obtain ⟨o, ho, e⟩ := k4 q hq
  obtain ⟨o', ho', e'⟩ := h4 o ho
  exact ⟨o', ho', e'.trans e⟩

theorem samePlaces_foldl {α : Type} (l : List α) (f : State → α → State) (h : ∀ s x, SamePlaces s (f s x)) (s : State) :
    SamePlaces s (l.foldl f s) := by
  induction l generalizing s with
  | nil => exact .refl s
  | cons x l ih => exact (h s x).trans (ih _)

theorem samePlaces_of_eq {s s' : State} (h1 : s'.dies = s.dies) (h2 : s'.dieParts = s.dieParts) (h3 : s'.strands = s.strands)
    (h4 : s'.ops = s.ops) : SamePlaces s s' := ⟨h1, h2, by rw [laneMap, h3]; rfl, fun q h => ⟨q, h4 ▸ h, rfl⟩⟩

theorem samePlaces_updRunning (s : State) (task : Nat) {f : Strand → Strand}
    (hf : ∀ t, laneKey (f t) = laneKey t ∧ (f t).task.id = t.task.id) : SamePlaces s (updRunning s task f) := by
  refine ⟨rfl, rfl, ?_, fun q h => ⟨q, h, rfl⟩⟩
  unfold laneMap updRunning
  rw [List.map_map]
  refine List.map_congr_left fun e _ => ?_
  dsimp only [Function.comp_apply]
  split_ifs
  · rw [(hf e.2).1, (hf e.2).2]
  · rfl

theorem writeCont_places (s : State) (c : Cont) : SamePlaces s (writeCont s c) := by
  rw [writeCont_only]
  exact samePlaces_of_eq rfl rfl rfl rfl

theorem samePlaces_updTask (s : State) (task pid : Nat) {f : Strand → Strand} {img : State → Nat → State} (c : Cont → Cont)
    (hf : ∀ t, laneKey (f t) = laneKey t ∧ (f t).task.id = t.task.id) (hi : ∀ s a, SamePlaces s (img s a)) :
    SamePlaces s (updTask s task pid f img c) := by
  unfold updTask
  split_ifs
  · exact samePlaces_updRunning s task hf
  · have h0 : SamePlaces s { s with parked := listUpd s.parked (fun t => t.task.id == task) f } := samePlaces_of_eq rfl rfl rfl rfl
    dsimp only
    split
    · exact h0.trans (hi ..)
    · unfold updCont
      dsimp only
      split
      · exact (h0.trans (samePlaces_of_eq rfl rfl rfl rfl)).trans (writeCont_places ..)
      · exact h0.trans (samePlaces_of_eq rfl rfl rfl rfl)

theorem wrN_places (s : State) (a n x : Nat) : SamePlaces s (wrN s a n x) := samePlaces_of_eq rfl rfl rfl rfl

theorem samePlaces_addFlags (s : State) (task pid : Nat) (f : FpFlags) : SamePlaces s (addFlags s task pid f) :=
  samePlaces_updTask s task pid _ (fun t => ⟨rfl, rfl⟩) fun s a => wrN_places ..

theorem samePlaces_addCtr (s : State) (task pid k : Nat) (v : BitVec 16) : SamePlaces s (addCtr s task pid k v) :=
  samePlaces_updTask s task pid _ (fun t => ⟨rfl, rfl⟩) fun s a => wrN_places ..

theorem samePlaces_writeReg (s : State) (task pid : Nat) (r : RegRef) (x : Nat) : SamePlaces s (writeReg s task pid r x) := by
  refine samePlaces_updTask s task pid _ (fun t => ?_) fun s a => ?_
  · cases r with
    | g n =>
      dsimp only
      split_ifs <;> exact ⟨rfl, rfl⟩
    | _ => exact ⟨rfl, rfl⟩
  · cases r with
    | g n =>
      dsimp only
      split_ifs
      · exact .refl s
      · exact wrN_places ..
    | v n => exact wrN_places ..
    | _ => exact .refl s

theorem samePlaces_dropOps (s : State) (p : Op → Bool) : SamePlaces s (dropOps s p) :=
  ⟨rfl, rfl, rfl, fun q h => ⟨q, List.mem_of_mem_filter h, rfl⟩⟩

theorem samePlaces_completeOp (s : State) (o : Op) (x : Nat) : SamePlaces s (completeOp s o x) := by
  unfold completeOp
  refine SamePlaces.trans ?_ (samePlaces_dropOps ..)
  cases o.dst with
  | none =>
    cases o.ctr with
    | none => exact .refl s
    | some k => exact samePlaces_addCtr ..
  | some r =>
    cases o.ctr with
    | none => exact samePlaces_writeReg ..
    | some k => exact (samePlaces_writeReg ..).trans (samePlaces_addCtr ..)

theorem samePlaces_doneOp (s : State) (id x : Nat) : SamePlaces s (doneOp s id x) := by
  have h0 : SamePlaces s (finSet s id x) := ⟨rfl, rfl, rfl, fun q h => by
    obtain ⟨o, ho, rfl⟩ := List.mem_map.mp (finSet_ops s id x ▸ h)
    exact ⟨o, ho, (withFin_id ..).symm⟩⟩
  rw [doneOp_eq]
  split
  · split_ifs
    · refine h0.trans ?_
      unfold finishOp
      split_ifs
      · exact samePlaces_completeOp ..
      · exact (samePlaces_addFlags ..).trans (samePlaces_completeOp ..)
    · exact h0
  · exact h0

theorem samePlaces_cancelColl (s : State) (id : Nat) : SamePlaces s (cancelColl s id) := by
  unfold cancelColl
  split
  · exact .refl s
  · unfold cancelWith
    dsimp only
    refine SamePlaces.trans ?_ (samePlaces_of_eq (s' := dropColls _) rfl rfl rfl rfl)
    refine SamePlaces.trans (samePlaces_of_eq (s' := putColl s _) rfl rfl rfl rfl) (samePlaces_foldl _ _ (fun s e => ?_) _)
    split_ifs
    · exact samePlaces_doneOp ..
    · exact .refl s

theorem samePlaces_perform (s : State) (a : Nat) (bs : List Byte) (f : Bool) : SamePlaces s (perform s a bs f) := by
  have hfill : ∀ s : State, SamePlaces s (fillWords s a bs.length) := fun s => by
    unfold fillWords
    exact samePlaces_foldl _ (fun s i => feFill s (wordOf a + 8 * i)) (fun s i => samePlaces_of_eq rfl rfl rfl rfl) s
  unfold perform
  dsimp only
  split_ifs
  · exact (samePlaces_of_eq rfl rfl rfl rfl).trans (hfill _)
  · exact samePlaces_of_eq rfl rfl rfl rfl

theorem samePlaces_putWord (s : State) (o : Op) (w : OutWord) : SamePlaces s (putWord s o w) := by
  unfold putWord
  split_ifs
  · exact samePlaces_of_eq rfl rfl rfl rfl
  · exact samePlaces_perform ..
  · exact samePlaces_of_eq rfl rfl rfl rfl

theorem samePlaces_flushOut (s : State) (want : Op → Bool) : SamePlaces s (flushOut s want) := by
  have h : SamePlaces s ((s.ops.filter want).foldl (fun s o => o.out.foldl (fun s w => putWord s o w) s) s) :=
    samePlaces_foldl _ _ (fun s o => samePlaces_foldl _ _ (fun s w => samePlaces_putWord s o w) s) s
  obtain ⟨h1, h2, h3, -⟩ := h
  refine ⟨h1, h2, h3, fun q hq => ?_⟩
  obtain ⟨o, ho, rfl⟩ := List.mem_map.mp hq
  refine ⟨o, ho, ?_⟩
  split_ifs <;> rfl

theorem samePlaces_cancelOps (s : State) (task : Nat) : SamePlaces s (cancelOps s task) := by
  unfold cancelOps
  refine (SamePlaces.trans (samePlaces_foldl _ _ (fun s o => ?_) s) (samePlaces_flushOut ..)).trans (samePlaces_dropOps ..)
  split_ifs
  · exact samePlaces_cancelColl ..
  · exact .refl s

/-- Among what the cancelled task leaves is none of its operations. -/
theorem cancelOps_task (s : State) (task : Nat) : ∀ q ∈ (cancelOps s task).ops, q.task ≠ task := by
  intro q hq
  have h := (List.mem_filter.mp hq).2
  simpa using h

/-! The rest of an end: what a task holds in queues, on the calendar and in records. -/

/-- The requests of a die stay, and no record is new. -/
def KeepsRecords (s s' : State) : Prop :=
  (∀ d, (getDie s' d).endReqs = (getDie s d).endReqs) ∧ ∀ d p, (getDp s' d p).records.Sublist (getDp s d p).records

theorem KeepsRecords.refl (s : State) : KeepsRecords s s := ⟨fun d => rfl, fun d p => List.Sublist.refl _⟩

theorem KeepsRecords.trans {a b c : State} (h : KeepsRecords a b) (k : KeepsRecords b c) : KeepsRecords a c :=
  ⟨fun d => (k.1 d).trans (h.1 d), fun d p => (k.2 d p).trans (h.2 d p)⟩

theorem keepsRecords_of_eq {s s' : State} (h1 : s'.dies = s.dies) (h2 : s'.dieParts = s.dieParts) : KeepsRecords s s' :=
  ⟨fun d => by rw [getDie, getDie, h1], fun d p => by rw [getDp, getDp, h2]⟩

theorem getDp_updDp_other {d p d' p' : Nat} (h : cpKey d' p' ≠ cpKey d p) (s : State) (f : DiePart → DiePart) :
    getDp (updDp s d p f) d' p' = getDp s d' p' := by
  unfold getDp updDp putDp
  dsimp only
  rw [tabGet_tabSet_ne _ _ h]

theorem keepsRecords_updDp (s : State) (d p : Nat) {f : DiePart → DiePart} (hf : ∀ k, (f k).records.Sublist k.records) :
    KeepsRecords s (updDp s d p f) := by
  refine ⟨fun _ => rfl, fun d' p' => ?_⟩
  by_cases h : cpKey d' p' = cpKey d p
  · have hk : getDp (updDp s d p f) d' p' = getDp (updDp s d p f) d p := by rw [getDp, getDp, h]
    have hk0 : getDp s d' p' = getDp s d p := by rw [getDp, getDp, h]
    rw [hk, hk0, getDp_updDp_same]
    exact hf _
  · rw [getDp_updDp_other h]

/-- What remains of an end once the task's strand is gone. -/
def EndsQuietly (s s' : State) : Prop :=
  s'.strands = s.strands ∧ s'.parked = s.parked ∧ s'.conts = s.conts ∧ s'.ops.map noOut = s.ops.map noOut ∧ KeepsRecords s s'

theorem EndsQuietly.refl (s : State) : EndsQuietly s s := ⟨rfl, rfl, rfl, rfl, .refl s⟩

theorem EndsQuietly.trans {a b c : State} (h : EndsQuietly a b) (k : EndsQuietly b c) : EndsQuietly a c := by
  obtain ⟨h1, h2, h3, h4, h5⟩ := h
  obtain ⟨k1, k2, k3, k4, k5⟩ := k
  exact ⟨k1.trans h1, k2.trans h2, k3.trans h3, k4.trans h4, h5.trans k5⟩

theorem endsQuietly_foldl {α : Type} (l : List α) (f : State → α → State) (h : ∀ s x, EndsQuietly s (f s x)) (s : State) :
    EndsQuietly s (l.foldl f s) := by
  induction l generalizing s with
  | nil => exact .refl s
  | cons x l ih => exact (h s x).trans (ih _)

theorem endsQuietly_updCp (s : State) (c p : Nat) (f : ClPart → ClPart) : EndsQuietly s (updCp s c p f) :=
  ⟨rfl, rfl, rfl, rfl, keepsRecords_of_eq rfl rfl⟩

theorem endsQuietly_updDp (s : State) (d p : Nat) {f : DiePart → DiePart} (hf : ∀ k, (f k).records.Sublist k.records) :
    EndsQuietly s (updDp s d p f) := ⟨rfl, rfl, rfl, rfl, keepsRecords_updDp s d p hf⟩

theorem returnStorage_records (s : State) (p fri : Nat) : KeepsRecords s (returnStorage s p fri) := by
  have hset : ∀ s1 : State, s1.dies = s.dies → s1.dieParts = s.dieParts → ∀ d p (f : DiePart → DiePart),
      (∀ k, (f k).records.Sublist k.records) → KeepsRecords s (updDp s1 d p f) :=
    fun s1 h1 h2 d p f hf => (keepsRecords_of_eq h1 h2).trans (keepsRecords_updDp s1 d p hf)
  unfold returnStorage
  dsimp only
  split_ifs
  · exact keepsRecords_of_eq rfl rfl
  · refine hset _ ?_ ?_ _ _ _ fun k => ?_
    · rfl
    · rfl
    · exact List.Sublist.refl _
  · refine hset _ ?_ ?_ _ _ _ fun k => ?_
    · rfl
    · rfl
    · exact List.Sublist.refl _
  · exact keepsRecords_of_eq rfl rfl
  · exact keepsRecords_of_eq rfl rfl

theorem freeIdle_endsQuietly (s : State) (p fri : Nat) : EndsQuietly s (freeIdle s p fri) := by
  obtain ⟨h1, h2, -, -, h5, h6, -⟩ := freeIdle_freesOnly s p fri
  refine ⟨h1, h2, h5, h6, ?_⟩
  rcases freeIdle_cases s p fri with he | he
  · rw [he]
    exact .refl s
  · rw [he]
    have hw : ∀ (s : State) a w, KeepsRecords s (wr64 s a w) := fun s a w => keepsRecords_of_eq rfl rfl
    have hi : ∀ s : State, KeepsRecords s (invalidate s p fri) := fun s => keepsRecords_of_eq rfl rfl
    unfold setRec0
    exact ((returnStorage_records s p fri).trans (hw ..)).trans (hi _)

theorem freeHeld_endsQuietly (s : State) (p : Nat) (l : List Xl) : EndsQuietly s (freeHeld s p l) :=
  endsQuietly_foldl l _ (fun s x => freeIdle_endsQuietly s p x.fri) s

theorem gangEnd_endsQuietly (s : State) (t : Strand) (b : Bool) : EndsQuietly s (gangEnd s t b) := by
  unfold gangEnd
  split
  · exact .refl s
  · exact endsQuietly_updCp ..

theorem closeBatch_endsQuietly (s : State) (t : Strand) (n : Nat) : EndsQuietly s (closeBatch s t n).2 := endsQuietly_updCp ..

theorem closeSegment_endsQuietly (s : State) (t : Strand) : EndsQuietly s (closeSegment s t) := by
  unfold closeSegment
  exact ((closeBatch_endsQuietly s t s.cycle).trans (endsQuietly_updCp ..)).trans (freeHeld_endsQuietly ..)

theorem leaveGang_endsQuietly (s : State) (cl p g m : Nat) : EndsQuietly s (leaveGang s cl p g m) := by
  unfold leaveGang
  split_ifs
  · exact .refl s
  · exact endsQuietly_updCp ..

theorem unplace_endsQuietly (s : State) (k : Task) : EndsQuietly s (unplace s k) := by
  unfold unplace
  refine endsQuietly_foldl _ _ (fun s e => ?_) s
  split
  · exact .refl s
  · exact ((leaveGang_endsQuietly ..).trans (endsQuietly_updCp ..)).trans (freeHeld_endsQuietly ..)

theorem keepsRecords_mapDies (s : State) {f : Die → Die} (hf : ∀ d, (f d).endReqs = d.endReqs) :
    KeepsRecords s { s with dies := s.dies.map (fun e => (e.1, f e.2)) } := by
  refine ⟨fun d => ?_, fun d p => List.Sublist.refl _⟩
  unfold getDie
  dsimp only
  rw [tabGet_map]
  cases tabGet s.dies d with
  | none => rfl
  | some x => exact hf x

theorem unqueue_endsQuietly (s : State) (k : Task) : EndsQuietly s (unqueue s k) := by
  unfold unqueue
  dsimp only
  refine EndsQuietly.trans (b := { s with dies := s.dies.map (fun e => (e.1, { e.2 with
    fq := e.2.fq.filter (fun x => x.entry.task.id != k.id) })) }) ⟨rfl, rfl, rfl, rfl, keepsRecords_mapDies s (f := fun d => { d with
      fq := d.fq.filter (fun x => x.entry.task.id != k.id) }) fun d => rfl⟩ ?_
  have hm : ∀ (s : State) (cl p : Nat), EndsQuietly s (markHeads s cl p) := fun s cl p => endsQuietly_updCp ..
  exact endsQuietly_foldl _ (fun (s : State) (e : Nat × ClPart) => markHeads (updCp s (e.1 / 16) k.pid (unqueueCp k)) (e.1 / 16) k.pid)
    (fun s e => (endsQuietly_updCp ..).trans (hm ..)) _

theorem freeImage_endsQuietly (s : State) (task pid : Nat) : EndsQuietly s (freeImage s task pid) := by
  unfold freeImage
  split
  · rename_i e he
    have h := endsQuietly_updDp s (dieOf e.2.1) pid (f := fun d => { d with images := setDel d.images e.2.2.1 }) fun k => List.Sublist.refl _
    exact h.trans ⟨rfl, rfl, rfl, rfl, keepsRecords_of_eq rfl rfl⟩
  · exact .refl s

/-- The notice of a task gives its slot back. -/
def dropNotice (s : State) (cl : Nat) (k : Task) : State :=
  match k.noticeSlot with
  | some r => updDp s (dieOf cl) k.pid (fun x => { x with records := tabDel x.records r })
  | none => s

theorem dropNotice_endsQuietly (s : State) (cl : Nat) (k : Task) : EndsQuietly s (dropNotice s cl k) := by
  unfold dropNotice
  split
  · exact endsQuietly_updDp s _ _ fun k => List.filter_sublist
  · exact .refl s

/-- The batch that a task stood for is over. -/
def endBatchOf (s : State) (cl : Nat) (k : Task) : State :=
  match k.batch with
  | some n => updBatch s (dieOf cl) k.pid n (fun b => { b with ended := true })
  | none => s

theorem endBatchOf_endsQuietly (s : State) (cl : Nat) (k : Task) : EndsQuietly s (endBatchOf s cl k) := by
  unfold endBatchOf
  split
  · unfold updBatch
    refine endsQuietly_updDp _ _ _ fun k => ?_
    exact List.Sublist.refl _
  · exact .refl s

theorem taskEnd_eq (s : State) (cl : Nat) (k : Task) : taskEnd s cl k
    = endBatchOf { dropNotice s cl k with owed := (dropNotice s cl k).owed.filter (fun o => o.1 != k.id) } cl k := rfl

theorem taskEnd_endsQuietly (s : State) (cl : Nat) (k : Task) : EndsQuietly s (taskEnd s cl k) := by
  rw [taskEnd_eq]
  refine (dropNotice_endsQuietly s cl k).trans (EndsQuietly.trans ?_ (endBatchOf_endsQuietly ..))
  exact ⟨rfl, rfl, rfl, rfl, keepsRecords_of_eq rfl rfl⟩

/-! An end by ABORT, step by step. -/

/-- The strand of the task leaves its lane. -/
def abortRunning (s : State) (k : Task) : State :=
  match s.strands.find? (fun e => e.2.task.id == k.id) with
  | some e => endSegment (gangEnd s e.2 true) e.2
  | none => s

/-- A parked strand of the task goes. -/
def abortParkedOf (s : State) (k : Task) : State :=
  match s.parked.find? (fun t => t.task.id == k.id) with
  | some t => abortParked s t
  | none => s

/-- A continuation of the task goes. -/
def abortCont (s : State) (k : Task) : State :=
  match s.conts.find? (fun c => c.task.id == k.id) with
  | some c => leaveGang { s with conts := s.conts.filter (fun x => x.task.id != k.id) } c.cl k.pid c.gang c.member
  | none => s

theorem abortTask_eq (s : State) (cl : Nat) (k : Task) : abortTask s cl k
    = taskEnd (unplace (unqueue (freeImage (abortCont (abortParkedOf (abortRunning (cancelOps s k.id) k) k) k) k.id k.pid) k) k) cl k := rfl

theorem abortTail_endsQuietly (s : State) (cl : Nat) (k : Task) :
    EndsQuietly s (taskEnd (unplace (unqueue (freeImage s k.id k.pid) k) k) cl k) :=
  (((freeImage_endsQuietly ..).trans (unqueue_endsQuietly ..)).trans (unplace_endsQuietly ..)).trans (taskEnd_endsQuietly ..)

theorem abortCont_spec (s : State) (k : Task) : (abortCont s k).strands = s.strands ∧ (abortCont s k).parked = s.parked
    ∧ (abortCont s k).ops.map noOut = s.ops.map noOut ∧ KeepsRecords s (abortCont s k)
    ∧ ∀ c ∈ (abortCont s k).conts, c.task.id ≠ k.id := by
  unfold abortCont
  split
  · rename_i c hc
    obtain ⟨h1, h2, h3, h4, h5⟩ := leaveGang_endsQuietly { s with conts := s.conts.filter (fun x => x.task.id != k.id) } c.cl k.pid c.gang
      c.member
    refine ⟨h1, h2, h4, (keepsRecords_of_eq (s' := { s with conts := s.conts.filter (fun x => x.task.id != k.id) }) rfl rfl).trans h5,
      fun x hx => ?_⟩
    rw [h3] at hx
    simpa using (List.mem_filter.mp hx).2
  · rename_i hn
    exact ⟨rfl, rfl, rfl, .refl s, fun c hc e => by simpa [e] using List.find?_eq_none.mp hn c hc⟩

theorem abortParkedOf_spec (s : State) (k : Task) : (abortParkedOf s k).strands = s.strands
    ∧ (abortParkedOf s k).ops.map noOut = s.ops.map noOut ∧ KeepsRecords s (abortParkedOf s k)
    ∧ ∀ t ∈ (abortParkedOf s k).parked, t.task.id ≠ k.id := by
  unfold abortParkedOf
  split
  · rename_i t ht
    have hid : t.task.id = k.id := by simpa using List.find?_some ht
    let s1 : State := { s with parked := s.parked.filter (fun x => x.task.id != t.task.id) }
    have h0 : KeepsRecords s s1 := keepsRecords_of_eq rfl rfl
    have hq : EndsQuietly s1 (abortParked s t) := by
      unfold abortParked
      dsimp only
      refine (gangEnd_endsQuietly s1 t true).trans ?_
      split_ifs
      · exact closeSegment_endsQuietly ..
      · exact freeHeld_endsQuietly ..
    obtain ⟨h1, h2, -, h4, h5⟩ := hq
    refine ⟨h1, h4, h0.trans h5, fun x hx => ?_⟩
    rw [h2] at hx
    rw [← hid]
    simpa using (List.mem_filter.mp hx).2
  · rename_i hn
    exact ⟨rfl, rfl, .refl s, fun t ht e => by simpa [e] using List.find?_eq_none.mp hn t ht⟩

theorem abortRunning_none {s : State} {k : Task} (h : ∀ e ∈ s.strands, e.2.task.id ≠ k.id) : abortRunning s k = s := by
  unfold abortRunning
  rw [List.find?_eq_none.mpr fun e he => by simpa using h e he]

theorem abortRunning_some {s : State} {k : Task} {e : Nat × Strand} (h : s.strands.find? (fun e => e.2.task.id == k.id) = some e) :
    (abortRunning s k).strands = tabDel s.strands (laneKey e.2) ∧ (abortRunning s k).ops.map noOut = s.ops.map noOut
      ∧ KeepsRecords s (abortRunning s k) := by
  unfold abortRunning
  rw [h]
  dsimp only
  obtain ⟨g1, -, -, g4, g5⟩ := gangEnd_endsQuietly s e.2 true
  let s1 : State := { gangEnd s e.2 true with strands := tabDel (gangEnd s e.2 true).strands (laneKey e.2) }
  obtain ⟨h1, -, -, h4, h5⟩ := closeSegment_endsQuietly s1 e.2
  refine ⟨h1.trans (by rw [← g1]), h4.trans g4, (g5.trans (keepsRecords_of_eq rfl rfl)).trans h5⟩

theorem abortRunning_ops (s : State) (k : Task) : (abortRunning s k).ops.map noOut = s.ops.map noOut ∧ KeepsRecords s (abortRunning s k) := by
  cases h : s.strands.find? (fun e => e.2.task.id == k.id) with
  | none =>
    unfold abortRunning
    rw [h]
    exact ⟨rfl, .refl s⟩
  | some e => exact (abortRunning_some h).2

theorem mem_of_noOut {l l' : List Op} (h : l'.map noOut = l.map noOut) {q : Op} (hq : q ∈ l') : ∃ o ∈ l, o.id = q.id ∧ o.task = q.task := by
  have hm : noOut q ∈ l.map noOut := h ▸ List.mem_map_of_mem hq
  obtain ⟨o, ho, e⟩ := List.mem_map.mp hm
  exact ⟨o, ho, (congrArg Op.id e : (noOut o).id = _), (congrArg Op.task e : (noOut o).task = _)⟩

/-- Nothing of an aborted task is left among what stands aside. -/
theorem abortTask_spec (s : State) (cl : Nat) (k : Task) :
    (abortTask s cl k).strands = (abortRunning (cancelOps s k.id) k).strands
    ∧ (∀ t ∈ (abortTask s cl k).parked, t.task.id ≠ k.id) ∧ (∀ c ∈ (abortTask s cl k).conts, c.task.id ≠ k.id)
    ∧ (∀ q ∈ (abortTask s cl k).ops, q.task ≠ k.id ∧ ∃ o ∈ s.ops, o.id = q.id) ∧ KeepsRecords s (abortTask s cl k) := by
  obtain ⟨p1, p2, -, p4⟩ := samePlaces_cancelOps s k.id
  obtain ⟨r1, r2⟩ := abortRunning_ops (cancelOps s k.id) k
  obtain ⟨a1, a2, a3, a4⟩ := abortParkedOf_spec (abortRunning (cancelOps s k.id) k) k
  obtain ⟨c1, c2, c3, c4, c5⟩ := abortCont_spec (abortParkedOf (abortRunning (cancelOps s k.id) k) k) k
  obtain ⟨t1, t2, t3, t4, t5⟩ := abortTail_endsQuietly (abortCont (abortParkedOf (abortRunning (cancelOps s k.id) k) k) k) cl k
  rw [abortTask_eq]
  refine ⟨(t1.trans c1).trans a1, fun t ht => a4 t (c2 ▸ t2 ▸ ht), fun c hc => c5 c (t3 ▸ hc), fun q hq => ?_,
    (((keepsRecords_of_eq p1 p2).trans r2).trans a3).trans (c4.trans t5)⟩
  obtain ⟨o, ho, e1, e2⟩ := mem_of_noOut (t4.trans (c3.trans (a2.trans r1))) hq
  obtain ⟨o', ho', e'⟩ := p4 o ho
  exact ⟨e2 ▸ cancelOps_task s k.id o ho, o', ho', e'.trans e1⟩



/-! #### Tables whose keys rise -/

section
variable {α : Type} {t : Tab α} {k : Nat} {x : α}

theorem tabGet_of_mem (h : (t.map (·.1)).Pairwise (· < ·)) (hm : (k, x) ∈ t) : tabGet t k = some x := by
  induction t with
  | nil => cases hm
  | cons e l ih =>
    obtain ⟨i, y⟩ := e
    obtain ⟨hi, hl⟩ := List.pairwise_cons.mp h
    simp only [tabGet]
    rcases List.mem_cons.mp hm with he | hm
    · cases he
      rw [if_pos rfl]
    · have hik := hi k (List.mem_map_of_mem (f := (·.1)) hm)
      rw [if_neg (Nat.ne_of_gt hik), if_neg (Nat.lt_asymm hik)]
      exact ih hl hm

theorem tabGet_filter_of_none {p : Nat × α → Bool} (h : ∀ e ∈ t, e.1 = k → p e = false) : tabGet (t.filter p) k = none := by
  cases hg : tabGet (t.filter p) k with
  | none => rfl
  | some x =>
    obtain ⟨hm, hp⟩ := List.mem_filter.mp (mem_of_tabGet hg)
    exact absurd hp (by rw [h _ hm rfl]; exact Bool.false_ne_true)

theorem tabGet_filter_of_some {p : Nat × α → Bool} (h : (t.map (·.1)).Pairwise (· < ·)) (hx : tabGet t k = some x) (hp : p (k, x) = true) :
    tabGet (t.filter p) k = some x :=
  tabGet_of_mem (h.sublist (List.filter_sublist.map _)) (List.mem_filter.mpr ⟨mem_of_tabGet hx, hp⟩)

/-- Only the new value stands under a key that was set. -/
theorem tabSet_only (h : (t.map (·.1)).Pairwise (· < ·)) : ∀ e ∈ tabSet t k x, e.1 = k → e.2 = x := by
  induction t with
  | nil =>
    intro e he _
    rw [List.mem_singleton.mp he]
  | cons a l ih =>
    obtain ⟨i, y⟩ := a
    obtain ⟨hi, hl⟩ := List.pairwise_cons.mp h
    have hgt : ∀ e ∈ l, i < e.1 := fun e he => hi _ (List.mem_map_of_mem (f := (·.1)) he)
    intro e he hk
    simp only [tabSet] at he
    split_ifs at he with h1 h2
    · rcases List.mem_cons.mp he with rfl | he
      · rfl
      · rcases List.mem_cons.mp he with rfl | he
        · exact absurd hk (Nat.ne_of_gt h1)
        · exact absurd hk (Nat.ne_of_gt (h1.trans (hgt e he)))
    · rcases List.mem_cons.mp he with rfl | he
      · rfl
      · exact absurd hk (Nat.ne_of_gt (h2 ▸ hgt e he))
    · rcases List.mem_cons.mp he with rfl | he
      · exact absurd hk.symm h2
      · exact ih hl e he hk

theorem tabGet_mapKey {β : Type} (f : Nat → α → β) (t : Tab α) (k : Nat) :
    tabGet (t.map (fun e => (e.1, f e.1 e.2))) k = (tabGet t k).map (f k) := by
  induction t with
  | nil => rfl
  | cons e l ih =>
    obtain ⟨i, y⟩ := e
    simp only [List.map_cons, tabGet]
    split_ifs with h1 h2
    · rw [h1]
      rfl
    · rfl
    · exact ih

theorem tabGet_tabDel_ne {j : Nat} (h : tabGet t k = some x) (hj : k ≠ j) : tabGet (tabDel t j) k = some x := by
  induction t with
  | nil => cases h
  | cons e l ih =>
    obtain ⟨i, y⟩ := e
    simp only [tabGet] at h
    unfold tabDel at ih ⊢
    rw [List.filter_cons]
    split_ifs at h with h1 h2
    · rw [if_pos (by simpa [← h1] using hj), tabGet, if_pos h1]
      exact h
    · split_ifs
      · rw [tabGet, if_neg h1, if_neg h2]
        exact ih h
      · exact ih h

end

/-! #### Requests on fault events -/

/-- The state with the requests of the die taken from its list. -/
def requestsTaken (s : State) : State := putDie s s.ev.unit { getDie s s.ev.unit with endReqs := [] }

/-- The records that are done go from a die. -/
def dropDone (d k : Nat) (x : DiePart) : DiePart :=
  if k / 16 == d then { x with records := x.records.filter (fun r => !r.2.done) } else x

/-- The state with the answer to a request in its register. -/
def requestAnswered (s : State) (d : Nat) (r : EndReq) (c : Nat) : State :=
  { writeReg s r.task r.pid (.g r.d) (if c = 0 then 0 else 2 ^ 63 + c) with
    dieParts := (writeReg s r.task r.pid (.g r.d) (if c = 0 then 0 else 2 ^ 63 + c)).dieParts.map (fun e => (e.1, dropDone d e.1 e.2)) }

/-- The record of a request that was performed. -/
def doneRec (f : FaultRec) : FaultRec := { f with live := false, done := true }

/-- The state with the record of a performed request done. -/
def recordDone (s : State) (d : Nat) (r : EndReq) (f : FaultRec) : State :=
  writeRec (updDp s d r.pid (fun x => { x with records := tabSet x.records r.slot (doneRec f) })) d r.slot (doneRec f)

/-- What a request's answer leaves in its die and its strand. -/
def AnswersRequest (d n : Nat) (r : EndReq) (x : Nat) (s' : State) : Prop :=
  (getDie s' d).endReqs = [] ∧ ∃ t', tabGet s'.strands n = some t' ∧ getG t' (BitVec.ofNat 6 r.d) = BitVec.ofNat 64 x

/-- The strand of a lane runs for the task. -/
def RunsAt (s : State) (n task : Nat) : Prop := ∃ t, tabGet s.strands n = some t ∧ t.task.id = task

theorem RunsAt.isRunning {s : State} {n task : Nat} (h : RunsAt s n task) : isRunning s task = true := by
  obtain ⟨t, ht, rfl⟩ := h
  exact isRunning_of_strand ht

theorem SamePlaces.laneAt {s s' : State} (h : SamePlaces s s') {m : Nat} {u : Strand} (hu : tabGet s.strands m = some u) :
    ∃ w, tabGet s'.strands m = some w ∧ laneKey w = laneKey u ∧ w.task.id = u.task.id := by
  have hg : ∀ x : State, tabGet (laneMap x) m = (tabGet x.strands m).map (fun t => (laneKey t, t.task.id)) :=
    fun x => tabGet_mapKey (fun _ t => (laneKey t, t.task.id)) x.strands m
  have he := (hg s').symm.trans ((congrArg (tabGet · m) h.2.2.1).trans (hg s))
  rw [hu] at he
  cases hw : tabGet s'.strands m with
  | none => rw [hw] at he; cases he
  | some w =>
    rw [hw, Option.map_some, Option.map_some, Option.some.injEq, Prod.mk.injEq] at he
    exact ⟨w, rfl, he⟩

theorem SamePlaces.mem {s s' : State} (h : SamePlaces s s') {e : Nat × Strand} (he : e ∈ s'.strands) :
    ∃ x ∈ s.strands, x.1 = e.1 ∧ x.2.task.id = e.2.task.id := by
  have hm : (e.1, laneKey e.2, e.2.task.id) ∈ laneMap s :=
    h.2.2.1 ▸ List.mem_map_of_mem (f := fun e : Nat × Strand => (e.1, laneKey e.2, e.2.task.id)) he
  obtain ⟨x, hx, e1⟩ := List.mem_map.mp hm
  exact ⟨x, hx, congrArg (·.1) e1, congrArg (·.2.2) e1⟩

theorem SamePlaces.runsAt {s s' : State} (h : SamePlaces s s') {n task : Nat} (k : RunsAt s n task) : RunsAt s' n task := by
  obtain ⟨t, ht, hid⟩ := k
  obtain ⟨t', ht', -, hid'⟩ := h.laneAt ht
  exact ⟨t', ht', hid'.trans hid⟩

section
variable {s S : State} {r : EndReq} {n : Nat}

theorem requestAnswered_eq (h : isRunning S r.task = true) (d c : Nat) : requestAnswered S d r c
    = { updRunning S r.task (takesResult (some (.g r.d)) (if c = 0 then 0 else 2 ^ 63 + c)) with
        dieParts := S.dieParts.map (fun e => (e.1, dropDone d e.1 e.2)) } := by
  unfold requestAnswered
  rw [writeReg_of_isRunning h]
  rfl

theorem getDp_requestAnswered (h : isRunning S r.task = true) (d c e p : Nat) :
    getDp (requestAnswered S d r c) e p = dropDone d (cpKey e p) (getDp S e p) := by
  rw [requestAnswered_eq h]
  unfold getDp
  dsimp only
  rw [tabGet_mapKey]
  cases tabGet S.dieParts (cpKey e p) with
  | none =>
    unfold dropDone
    rw [Option.map_none, Option.getD_none]
    split_ifs <;> rfl
  | some x => rfl

theorem records_requestAnswered (h : isRunning S r.task = true) {p : Nat} (hp : p < 16) (d c : Nat) :
    (getDp (requestAnswered S d r c) d p).records = (getDp S d p).records.filter (fun r => !r.2.done) := by
  rw [getDp_requestAnswered h, dropDone, if_pos (by rw [cpKey, beq_iff_eq]; omega)]

theorem batches_requestAnswered (h : isRunning S r.task = true) (d c e p : Nat) :
    (getDp (requestAnswered S d r c) e p).batches = (getDp S e p).batches := by
  rw [getDp_requestAnswered h, dropDone]
  split_ifs <;> rfl

theorem getG_writeReg_running {t : Strand} {d : R6} {x : Nat} (pid : Nat) (h : tabGet S.strands n = some t) (hd : d ≠ 0) :
    ∃ t', tabGet (writeReg S t.task.id pid (.g d.toNat) x).strands n = some t' ∧ getG t' d = BitVec.ofNat 64 x := by
  refine ⟨_, writeReg_running h hd, ?_⟩
  rw [getG, if_neg hd]
  simp only [Nat.mod_eq_of_lt d.isLt]
  exact Vector.getElem_set_self _

theorem requestAnswered_answers {d : Nat} (hd : (getDie S d).endReqs = []) (hn : RunsAt S n r.task) (h64 : r.d < 64) (h0 : r.d ≠ 0) (c : Nat) :
    AnswersRequest d n r (if c = 0 then 0 else 2 ^ 63 + c) (requestAnswered S d r c) := by
  refine ⟨?_, ?_⟩
  · rw [requestAnswered_eq hn.isRunning]
    exact hd
  · obtain ⟨t, ht, hid⟩ := hn
    have hr : (BitVec.ofNat 6 r.d).toNat = r.d := by rw [BitVec.toNat_ofNat]; omega
    have hz : BitVec.ofNat 6 r.d ≠ 0 := fun e => h0 (by rw [← hr, e]; rfl)
    have hw := getG_writeReg_running (x := if c = 0 then 0 else 2 ^ 63 + c) r.pid ht hz
    rw [hid, hr] at hw
    exact hw

end

section
variable {s : State} {r : EndReq} {n : Nat}
variable (hreq : (getDie s s.ev.unit).endReqs = [r]) (hold : r.cycle / 8 < tickNow s) (hn : RunsAt s n r.task) (h64 : r.d < 64) (h0 : r.d ≠ 0)
  (hp : r.pid < 16) (hsort : ((getDp s s.ev.unit r.pid).records.map (·.1)).Pairwise (· < ·))
include hreq hold

theorem faultRequestProcessed_on : exec .faultRequestProcessed s
    = .next (requestAnswered (processReq (requestsTaken s) s.ev.unit r).2 s.ev.unit r (processReq (requestsTaken s) s.ev.unit r).1) := by
  have h1 : (getDie s s.ev.unit).endReqs.filter (fun r => decide (r.cycle / 8 < tickNow s)) = [r] := by
    rw [hreq, List.filter_cons, if_pos (decide_eq_true hold)]
    rfl
  have h2 : updDie s s.ev.unit (fun x => { x with endReqs := x.endReqs.filter (fun r => !decide (r.cycle / 8 < tickNow s)) })
      = requestsTaken s := by
    unfold updDie requestsTaken
    dsimp only
    rw [hreq, List.filter_cons, if_neg (by simp [hold])]
    rfl
  have h3 : ∀ x : Nat × DiePart, (if (x.1 / 16 == s.ev.unit) = true then
      (x.1, { x.2 with records := x.2.records.filter (fun r => !r.2.done) }) else x) = (x.1, dropDone s.ev.unit x.1 x.2) := by
    intro x
    unfold dropDone
    split_ifs <;> rfl
  simp only [exec, execFaultRequestProcessed, h1, h2, h3]
  rfl

include hn h64 h0 hp hsort

/-- A request that fails answers its code, and the record stays. -/
theorem request_fails {c : Nat} (hc : c ≠ 0) (h : processReq (requestsTaken s) s.ev.unit r = (c, requestsTaken s)) :
    Performs .faultRequestProcessed s (fun s' => AnswersRequest s.ev.unit n r (2 ^ 63 + c) s'
      ∧ ∀ f, tabGet (getDp s s.ev.unit r.pid).records r.slot = some f → f.done = false →
        tabGet (getDp s' s.ev.unit r.pid).records r.slot = some f) := by
  intro _
  refine ⟨_, (faultRequestProcessed_on hreq hold).trans (by rw [h]), ?_, fun f hf hd => ?_⟩
  · have ha := requestAnswered_answers (S := requestsTaken s) (d := s.ev.unit) (n := n) (r := r) (by
      unfold requestsTaken
      rw [getDie, putDie]
      dsimp only
      rw [tabGet_tabSet_same]
      rfl) hn h64 h0 c
    rw [if_neg hc] at ha
    exact ha
  · rw [records_requestAnswered (S := requestsTaken s) hn.isRunning hp]
    exact tabGet_filter_of_some hsort hf (by simp [hd])

omit hn in
/-- A request that is performed answers 0, and the slot of its record is free. -/
theorem request_succeeds {f : FaultRec} {S : State} {p : State → Prop} (hf : tabGet (getDp s s.ev.unit r.pid).records r.slot = some f)
    (hk : f.ev.kind ≠ 3) (hl : f.live = true) (ha : actOn (requestsTaken s) r.kind f.ev = .ok S) (hK : KeepsRecords (requestsTaken s) S)
    (hS : RunsAt S n r.task) (hpost : p (requestAnswered (recordDone S s.ev.unit r f) s.ev.unit r 0)) :
    Performs .faultRequestProcessed s (fun s' => AnswersRequest s.ev.unit n r 0 s' ∧ p s'
      ∧ tabGet (getDp s' s.ev.unit r.pid).records r.slot = none) := by
  intro _
  have hproc : processReq (requestsTaken s) s.ev.unit r = (0, recordDone S s.ev.unit r f) := by
    unfold processReq
    rw [show tabGet (getDp (requestsTaken s) s.ev.unit r.pid).records r.slot = some f from hf]
    dsimp only
    rw [if_neg hk, if_neg (by simp [hl]), ha]
    rfl
  have honly := writeRec_only (updDp S s.ev.unit r.pid (fun x => { x with records := tabSet x.records r.slot (doneRec f) }))
    s.ev.unit r.slot (doneRec f)
  have hrun : RunsAt (recordDone S s.ev.unit r f) n r.task := by
    unfold recordDone
    rw [honly]
    exact hS
  refine ⟨_, (faultRequestProcessed_on hreq hold).trans (by rw [hproc]), ?_, hpost, ?_⟩
  · refine requestAnswered_answers ?_ hrun h64 h0 0
    have hd : (getDie S s.ev.unit).endReqs = [] := by
      rw [hK.1, requestsTaken, getDie, putDie]
      dsimp only
      rw [tabGet_tabSet_same]
      rfl
    unfold recordDone
    rw [honly]
    exact hd
  · have hrec : (getDp (recordDone S s.ev.unit r f) s.ev.unit r.pid).records = tabSet (getDp S s.ev.unit r.pid).records r.slot (doneRec f) := by
      unfold recordDone
      rw [honly]
      exact congrArg DiePart.records (getDp_updDp_same S s.ev.unit r.pid
        (fun x => { x with records := tabSet x.records r.slot (doneRec f) }))
    rw [records_requestAnswered hrun.isRunning hp, hrec]
    refine tabGet_filter_of_none fun e he hk => ?_
    rw [tabSet_only (hsort.sublist ((hK.2 s.ev.unit r.pid).map _)) e he hk]
    rfl

end

/-- What the answer to a performed request changes. -/
theorem answered_eq {S : State} {r : EndReq} {n : Nat} (h : RunsAt S n r.task) (d : Nat) (f : FaultRec) : ∃ m po so dp,
    requestAnswered (recordDone S d r f) d r 0
      = { updRunning S r.task (takesResult (some (.g r.d)) 0) with mem := m, poison := po, soft := so, dieParts := dp } := by
  have honly := writeRec_only (updDp S d r.pid (fun x => { x with records := tabSet x.records r.slot (doneRec f) })) d r.slot (doneRec f)
  have hrun : isRunning (recordDone S d r f) r.task = true := by
    unfold recordDone
    rw [honly]
    exact h.isRunning
  rw [requestAnswered_eq hrun, recordDone, honly]
  exact ⟨_, _, _, _, rfl⟩

/-- A strand of another task keeps what it has. -/
theorem answered_strand {S : State} {r : EndReq} {n m : Nat} {u : Strand} (h : RunsAt S n r.task) (d : Nat) (f : FaultRec)
    (hu : tabGet S.strands m = some u) (hid : u.task.id ≠ r.task) :
    tabGet (requestAnswered (recordDone S d r f) d r 0).strands m = some u := by
  obtain ⟨mm, po, so, dp, e⟩ := answered_eq h d f
  rw [e]
  show tabGet (updRunning S r.task _).strands m = _
  rw [updRunning_strand, hu, Option.map_some, updStrand, if_neg (by simpa using hid)]

theorem answered_none {S : State} {r : EndReq} {n m : Nat} (h : RunsAt S n r.task) (d : Nat) (f : FaultRec)
    (hu : tabGet S.strands m = none) : tabGet (requestAnswered (recordDone S d r f) d r 0).strands m = none := by
  obtain ⟨mm, po, so, dp, e⟩ := answered_eq h d f
  rw [e]
  show tabGet (updRunning S r.task _).strands m = _
  rw [updRunning_strand, hu, Option.map_none]



/-! #### Each subject's request (R402, R422) -/

theorem perform_strands (s : State) (a : Nat) (bs : List Byte) (f : Bool) : (perform s a bs f).strands = s.strands := by
  have hfill : ∀ (l : List Nat) (s : State), (l.foldl (fun s i => feFill s (wordOf a + 8 * i)) s).strands = s.strands := by
    intro l
    induction l with
    | nil => exact fun s => rfl
    | cons x l ih => exact fun s => (ih _).trans rfl
  unfold perform
  dsimp only
  split_ifs
  · exact (hfill _ _).trans rfl
  · rfl

theorem putWord_strands (s : State) (o : Op) (w : OutWord) : (putWord s o w).strands = s.strands := by
  unfold putWord
  split_ifs
  · rfl
  · exact perform_strands ..
  · rfl

theorem putOut_strands (o : Op) (l : List OutWord) (s : State) : (l.foldl (fun s w => putWord s o w) s).strands = s.strands := by
  induction l generalizing s with
  | nil => rfl
  | cons w l ih => exact (ih _).trans (putWord_strands ..)

theorem flushOut_strands (s : State) (want : Op → Bool) : (flushOut s want).strands = s.strands := by
  have h : ∀ (l : List Op) (s : State), (l.foldl (fun s o => o.out.foldl (fun s w => putWord s o w) s) s).strands = s.strands := by
    intro l
    induction l with
    | nil => exact fun s => rfl
    | cons o l ih => exact fun s => (ih _).trans (putOut_strands ..)
  exact h _ s

theorem SamePlaces.keepsRecords {s s' : State} (h : SamePlaces s s') : KeepsRecords s s' := keepsRecords_of_eq h.1 h.2.1

theorem keepsRecords_updDie (s : State) (d : Nat) {f : Die → Die} (hf : ∀ k, (f k).endReqs = k.endReqs) : KeepsRecords s (updDie s d f) := by
  refine ⟨fun e => ?_, fun d p => List.Sublist.refl _⟩
  by_cases he : e = d
  · rw [he, getDie_updDie_same]
    exact hf _
  · unfold updDie putDie getDie
    dsimp only
    rw [tabGet_tabSet_ne _ _ he]

/-- No strand of the task runs where none did. -/
theorem SamePlaces.noRun {s s' : State} (h : SamePlaces s s') {task : Nat} (hs : ∀ e ∈ s.strands, e.2.task.id ≠ task) :
    ∀ e ∈ s'.strands, e.2.task.id ≠ task := by
  intro e he hid
  obtain ⟨x, hx, -, hxid⟩ := h.mem he
  exact hs x hx (hxid.trans hid)

/-- The end of a task that stands aside leaves the running strands their places. -/
theorem abortTask_aside {s : State} {k : Task} (hs : ∀ e ∈ s.strands, e.2.task.id ≠ k.id) (cl : Nat) {n task : Nat} (h : RunsAt s n task) :
    RunsAt (abortTask s cl k) n task := by
  have hp := samePlaces_cancelOps s k.id
  obtain ⟨t, ht, hid⟩ := hp.runsAt h
  refine ⟨t, ?_, hid⟩
  rw [(abortTask_spec s cl k).1, abortRunning_none (hp.noRun hs)]
  exact ht

section
variable {s : State} {r : EndReq} {n : Nat} {f : FaultRec}

theorem actOn_op {o : Op} (hs : f.ev.subject = .op o.id) (ho : opFind s o.id = some o) (hk : r.kind = 0) :
    actOn (requestsTaken s) r.kind f.ev = .ok (updOp (requestsTaken s) o.id (fun o => { o with stopped := false })) := by
  unfold actOn
  rw [hs]
  dsimp only
  rw [show opFind (requestsTaken s) o.id = some o from ho]
  dsimp only
  rw [if_pos hk]

/-- The state with an aborted operation completed. -/
def opAborted (s : State) (o : Op) : State := completeOp (flushOut (requestsTaken s) (fun x => x.id == o.id)) o (2 ^ 63 + 5)

theorem opAborted_places (s : State) (o : Op) : SamePlaces (requestsTaken s) (opAborted s o) :=
  (samePlaces_flushOut ..).trans (samePlaces_completeOp ..)

theorem opAborted_no (s : State) (o : Op) : ∀ q ∈ (opAborted s o).ops, q.id ≠ o.id := by
  intro q hq
  have hid := (List.mem_filter.mp hq).2
  simpa using hid

theorem actOn_opAbort {o : Op} (hs : f.ev.subject = .op o.id) (ho : opFind s o.id = some o) (hc : o.kind ≠ .coll) (hk : r.kind = 1) :
    actOn (requestsTaken s) r.kind f.ev = .ok (opAborted s o) := by
  unfold actOn
  rw [hs]
  dsimp only
  rw [show opFind (requestsTaken s) o.id = some o from ho]
  dsimp only
  rw [if_neg (show ¬ r.kind = 0 by omega), if_neg (show ¬ (o.kind == .coll) = true by simpa using hc),
    if_neg (show ¬ r.kind = 2 by omega), errW_toNat 5 (by decide)]
  rfl

theorem actOn_opAbortTask {o : Op} {t : Strand} (hs : f.ev.subject = .op o.id) (ho : opFind s o.id = some o) (hc : o.kind ≠ .coll)
    (hk : r.kind = 2) (ht : ((opAborted s o).strands.map (·.2) ++ (opAborted s o).parked).find? (fun t => t.task.id == o.task) = some t) :
    actOn (requestsTaken s) r.kind f.ev = .ok (abortTask (opAborted s o) t.cl t.task) := by
  unfold actOn
  rw [hs]
  dsimp only
  rw [show opFind (requestsTaken s) o.id = some o from ho]
  dsimp only
  rw [if_neg (show ¬ r.kind = 0 by omega), if_neg (show ¬ (o.kind == .coll) = true by simpa using hc), if_pos hk, errW_toNat 5 (by decide)]
  unfold opAborted at ht
  rw [ht]
  rfl

theorem actOn_strand {task : Nat} {u : Strand} (hs : f.ev.subject = .strand task) (hu : s.parked.find? (fun t => t.task.id == task) = some u)
    (hk : r.kind ≠ 0) : actOn (requestsTaken s) r.kind f.ev = .ok (abortTask (requestsTaken s) u.cl u.task) := by
  unfold actOn
  rw [hs]
  dsimp only
  rw [show (requestsTaken s).parked = s.parked from rfl, hu]
  dsimp only
  rw [if_pos hk]

theorem actOn_resume {task a sh : Nat} {u : Strand} (hs : f.ev.subject = .strand task) (hu : s.parked.find? (fun t => t.task.id == task) = some u)
    (hk : r.kind = 0) (ha : imageOf s task u.task.pid = some a) (hsh : shapesOf s task u.task.pid = some sh) :
    actOn (requestsTaken s) r.kind f.ev = if imageBad s a sh then .error 4 else .ok (queueRemainder (requestsTaken s) u) := by
  unfold actOn
  rw [hs]
  dsimp only
  rw [show (requestsTaken s).parked = s.parked from rfl, hu]
  dsimp only
  rw [if_neg (not_not.mpr hk), show imageOf (requestsTaken s) task u.task.pid = some a from ha,
    show shapesOf (requestsTaken s) task u.task.pid = some sh from hsh]
  rfl

theorem actOn_entry {cl : Nat} {en : Entry} (hs : f.ev.subject = .entry cl en) (hk : r.kind = 0) :
    actOn (requestsTaken s) r.kind f.ev = match resumeEntry (requestsTaken s) cl en with
      | some s => .ok s
      | none => .error 3 := by
  unfold actOn
  rw [hs]
  dsimp only
  rw [if_pos hk] <;> rfl

theorem actOn_abortEntry {cl : Nat} {en : Entry} {a : Va} {x y : Word} (hs : f.ev.subject = .entry cl en) (hk : r.kind ≠ 0)
    (hw : en.work = .fresh a x y) : actOn (requestsTaken s) r.kind f.ev = .ok (abortTask (requestsTaken s) cl en.task) := by
  unfold actOn
  rw [hs]
  dsimp only
  rw [if_neg hk, abortEntry, hw]

theorem actOn_batch {dd num : Nat} (hs : f.ev.subject = .batch dd num) : actOn (requestsTaken s) r.kind f.ev
    = .ok (updBatch (requestsTaken s) dd f.ev.pid num (fun b => if r.kind = 0 then { b with stopped := false } else { b with ended := true })) := by
  unfold actOn
  rw [hs]
  dsimp only
  by_cases h : r.kind = 0
  · simp only [if_pos h]
  · simp only [if_neg h]

/-! The requests that a record refuses. -/

theorem processReq_none (h : tabGet (getDp s s.ev.unit r.pid).records r.slot = none) :
    processReq (requestsTaken s) s.ev.unit r = (1, requestsTaken s) := by
  unfold processReq
  rw [show tabGet (getDp (requestsTaken s) s.ev.unit r.pid).records r.slot = none from h]

theorem processReq_notice (h : tabGet (getDp s s.ev.unit r.pid).records r.slot = some f) (hk : f.ev.kind = 3) :
    processReq (requestsTaken s) s.ev.unit r = (1, requestsTaken s) := by
  unfold processReq
  rw [show tabGet (getDp (requestsTaken s) s.ev.unit r.pid).records r.slot = some f from h]
  dsimp only
  rw [if_pos hk]

theorem processReq_dead (h : tabGet (getDp s s.ev.unit r.pid).records r.slot = some f) (hk : f.ev.kind ≠ 3) (hl : f.live = false) :
    processReq (requestsTaken s) s.ev.unit r = (2, requestsTaken s) := by
  unfold processReq
  rw [show tabGet (getDp (requestsTaken s) s.ev.unit r.pid).records r.slot = some f from h]
  dsimp only
  rw [if_neg hk, if_pos (by simp [hl])]

theorem processReq_error {c : Nat} (h : tabGet (getDp s s.ev.unit r.pid).records r.slot = some f) (hk : f.ev.kind ≠ 3) (hl : f.live = true)
    (he : actOn (requestsTaken s) r.kind f.ev = .error c) : processReq (requestsTaken s) s.ev.unit r = (c, requestsTaken s) := by
  unfold processReq
  rw [show tabGet (getDp (requestsTaken s) s.ev.unit r.pid).records r.slot = some f from h]
  dsimp only
  rw [if_neg hk, if_neg (by simp [hl]), he]

end

/-- The strand that a lane runs is the first of its task where the task runs nowhere else. -/
theorem find_task_eq {l : Tab Strand} {m task : Nat} {u : Strand} (hall : ∀ e ∈ l, e.2.task.id = task → e.1 = m) (hu : tabGet l m = some u)
    (hid : u.task.id = task) : l.find? (fun e => e.2.task.id == task) = some (m, u) := by
  induction l with
  | nil => cases hu
  | cons e l ih =>
    obtain ⟨i, y⟩ := e
    simp only [tabGet] at hu
    split_ifs at hu with h1 h2
    · cases hu
      rw [List.find?_cons_of_pos (by simpa using hid), h1]
    · have hy : y.task.id ≠ task := fun e => h1 (hall (i, y) List.mem_cons_self e).symm
      rw [List.find?_cons_of_neg (by simpa using hy)]
      exact ih (fun e he => hall e (List.mem_cons_of_mem _ he)) hu



theorem requeue_keepsRecords (s : State) (cl p q prio : Nat) (k : Task) (w : Work) : KeepsRecords s (requeue s cl p q prio k w) := by
  cases h : k.fq with
  | false =>
    rw [requeue_queue s cl p q prio w h]
    exact keepsRecords_of_eq rfl rfl
  | true =>
    rw [requeue_fq s cl p q prio w h]
    exact keepsRecords_updDie _ _ fun k => rfl

theorem appended_congr {s a b : State} {cl p q : Nat} {e : Entry} (h : Appended s a cl p q e) (hb : b.clParts = a.clParts) :
    Appended s b cl p q e := by
  unfold Appended getCp at *
  rw [hb]
  exact h

theorem fq_requestsTaken (s : State) : (getDie (requestsTaken s) s.ev.unit).fq = (getDie s s.ev.unit).fq := by
  unfold requestsTaken
  rw [getDie, putDie]
  dsimp only
  rw [tabGet_tabSet_same]
  rfl

theorem batches_answered {S : State} {r : EndReq} {n : Nat} (h : RunsAt S n r.task) (d : Nat) (f : FaultRec) (e p : Nat) :
    (getDp (requestAnswered (recordDone S d r f) d r 0) e p).batches = (getDp S e p).batches := by
  have honly := writeRec_only (updDp S d r.pid (fun x => { x with records := tabSet x.records r.slot (doneRec f) })) d r.slot (doneRec f)
  have hrun : isRunning (recordDone S d r f) r.task = true := by
    unfold recordDone
    rw [honly]
    exact h.isRunning
  rw [batches_requestAnswered hrun, recordDone, honly]
  show (getDp (updDp S d r.pid (fun x => { x with records := tabSet x.records r.slot (doneRec f) })) e p).batches = _
  by_cases hk : cpKey e p = cpKey d r.pid
  · have h1 : ∀ x : State, getDp x e p = getDp x d r.pid := fun x => by rw [getDp, getDp, hk]
    rw [h1, h1, getDp_updDp_same]
  · rw [getDp_updDp_other hk]

section
variable {s : State} {r : EndReq} {n : Nat} {f : FaultRec}
variable (hreq : (getDie s s.ev.unit).endReqs = [r]) (hold : r.cycle / 8 < tickNow s) (hn : RunsAt s n r.task) (h64 : r.d < 64) (h0 : r.d ≠ 0)
  (hp : r.pid < 16) (hsort : ((getDp s s.ev.unit r.pid).records.map (·.1)).Pairwise (· < ·))
variable (hf : tabGet (getDp s s.ev.unit r.pid).records r.slot = some f) (hk : f.ev.kind ≠ 3) (hl : f.live = true)

/-- The request is performed, and leaves what `p` says. -/
def RequestSucceeds (s : State) (r : EndReq) (n : Nat) (p : State → Prop) : Prop :=
  Performs .faultRequestProcessed s (fun s' => AnswersRequest s.ev.unit n r 0 s' ∧ p s'
    ∧ tabGet (getDp s' s.ev.unit r.pid).records r.slot = none)

/-- The request is refused with the code. -/
def RequestFails (s : State) (r : EndReq) (n c : Nat) : Prop :=
  Performs .faultRequestProcessed s (fun s' => AnswersRequest s.ev.unit n r (2 ^ 63 + c) s'
    ∧ ∀ f, tabGet (getDp s s.ev.unit r.pid).records r.slot = some f → f.done = false →
      tabGet (getDp s' s.ev.unit r.pid).records r.slot = some f)

include hreq hold hn h64 h0 hp hsort hf hk hl

theorem op_clauses {o : Op} (hs : f.ev.subject = .op o.id) (ho : opFind s o.id = some o) :
    (r.kind = 0 → RequestSucceeds s r n (fun s' => (∀ q ∈ s'.ops, q.id = o.id → q.stopped = false) ∧ s'.ops.length = s.ops.length))
    ∧ (r.kind = 1 → o.kind ≠ .coll → o.task ≠ r.task → RequestSucceeds s r n (fun s' => (∀ q ∈ s'.ops, q.id ≠ o.id)
      ∧ ∀ m u, tabGet s.strands m = some u → u.task.id = o.task →
          ∃ u', tabGet s'.strands m = some u' ∧ Delivered u u' o.dst o.ctr (2 ^ 63 + 5) 0))
    ∧ (∀ m u, r.kind = 2 → o.kind ≠ .coll → o.task ≠ r.task → tabGet s.strands m = some u → laneKey u = m →
      u.task.id = o.task → (∀ e ∈ s.strands, e.2.task.id = o.task → e.1 = m) → m ≠ n →
      RequestSucceeds s r n (fun s' => tabGet s'.strands m = none ∧ (∀ q ∈ s'.ops, q.id ≠ o.id))) := by
  refine ⟨fun hkind => ?_, fun hkind hc ht => ?_, fun m u hkind hc ht hu hlane hid hall hne => ?_⟩
  · have hS : RunsAt (updOp (requestsTaken s) o.id (fun o => { o with stopped := false })) n r.task := hn
    refine request_succeeds hreq hold h64 h0 hp hsort hf hk hl (actOn_op hs ho hkind) (keepsRecords_of_eq rfl rfl) hS ?_
    obtain ⟨m, po, so, dp, e⟩ := answered_eq hS s.ev.unit f
    rw [e]
    refine ⟨fun q hq hid => ?_, List.length_map _⟩
    obtain ⟨x, hx, rfl⟩ := List.mem_map.mp hq
    split_ifs at hid ⊢ with h
    · rfl
    · exact absurd (beq_iff_eq.mpr hid) h
  · have hpl := opAborted_places s o
    have hS : RunsAt (opAborted s o) n r.task := hpl.runsAt hn
    refine request_succeeds hreq hold h64 h0 hp hsort hf hk hl (actOn_opAbort hs ho hc hkind) hpl.keepsRecords hS ⟨?_, ?_⟩
    · obtain ⟨m, po, so, dp, e⟩ := answered_eq hS s.ev.unit f
      rw [e]
      exact opAborted_no s o
    · intro m u hu hid
      have hstr : (flushOut (requestsTaken s) (fun x => x.id == o.id)).strands = s.strands := flushOut_strands ..
      have hrun : isRunning (flushOut (requestsTaken s) (fun x => x.id == o.id)) o.task = true :=
        RunsAt.isRunning (n := m) ⟨u, by rw [hstr]; exact hu, hid⟩
      have hz : takesOp o.dst o.ctr (2 ^ 63 + 5) 0 u = countsDown o.ctr (takesResult o.dst (2 ^ 63 + 5) u) := by
        unfold takesOp
        rw [show u.flags ||| 0 = u.flags from BitVec.or_zero]
      refine ⟨_, answered_strand hS s.ev.unit f ?_ ?_, takesOp_delivered ..⟩
      · rw [opAborted, completeOp_eq hrun, hz]
        refine (updRunning_strand _ o.task (fun t => countsDown o.ctr (takesResult o.dst (2 ^ 63 + 5) t)) m).trans ?_
        rw [hstr, hu, Option.map_some, updStrand, if_pos (by simpa using hid)]
      · rw [takesOp_task, hid]
        exact ht
  · have hpl := opAborted_places s o
    obtain ⟨v, hv, hvid⟩ := hpl.runsAt (n := m) (task := o.task) ⟨u, hu, hid⟩
    obtain ⟨t, htf⟩ : ∃ t, ((opAborted s o).strands.map (·.2) ++ (opAborted s o).parked).find? (fun t => t.task.id == o.task) = some t :=
      Option.isSome_iff_exists.mp (List.find?_isSome.mpr ⟨v, List.mem_append_left _ (List.mem_map_of_mem (f := (·.2)) (mem_of_tabGet hv)),
        by simpa using hvid⟩)
    have htid : t.task.id = o.task := by simpa using List.find?_some htf
    have hpc := hpl.trans (samePlaces_cancelOps (opAborted s o) t.task.id)
    obtain ⟨w, hw, hwk, hwid⟩ := hpc.laneAt hu
    have hall2 : ∀ e ∈ (cancelOps (opAborted s o) t.task.id).strands, e.2.task.id = o.task → e.1 = m := by
      intro e he hi
      obtain ⟨x, hx, e1, e2⟩ := hpc.mem he
      rw [← e1]
      exact hall x hx (e2.trans hi)
    have hfind := find_task_eq hall2 hw (hwid.trans hid)
    rw [← htid] at hfind
    obtain ⟨a1, a2, a3, a4, a5⟩ := abortTask_spec (opAborted s o) t.cl t.task
    obtain ⟨b1, -, -⟩ := abortRunning_some (k := t.task) hfind
    have hstr : (abortTask (opAborted s o) t.cl t.task).strands = tabDel (cancelOps (opAborted s o) t.task.id).strands m := by
      rw [a1, b1, hwk, hlane]
    have hS : RunsAt (abortTask (opAborted s o) t.cl t.task) n r.task := by
      obtain ⟨x, hx, hxid⟩ := hpc.runsAt hn
      exact ⟨x, by rw [hstr]; exact tabGet_tabDel_ne hx hne.symm, hxid⟩
    refine request_succeeds hreq hold h64 h0 hp hsort hf hk hl (actOn_opAbortTask hs ho hc hkind htf) (hpl.keepsRecords.trans a5) hS ⟨?_, ?_⟩
    · refine answered_none hS s.ev.unit f ?_
      rw [hstr]
      exact tabGet_tabDel_same _ _
    · obtain ⟨mm, po, so, dp, e⟩ := answered_eq hS s.ev.unit f
      rw [e]
      intro q hq
      obtain ⟨-, x, hx, hxq⟩ := a4 q hq
      rw [← hxq]
      exact opAborted_no s o x hx

theorem strand_clauses {task : Nat} (hs : f.ev.subject = .strand task) (hrun : ∀ e ∈ s.strands, e.2.task.id ≠ task) :
    (∀ u a sh, s.parked.find? (fun t => t.task.id == task) = some u → r.kind = 0 → imageOf s task u.task.pid = some a →
      shapesOf s task u.task.pid = some sh →
      (imageBad s a sh = true → RequestFails s r n 4)
      ∧ (imageBad s a sh = false → RequestSucceeds s r n (fun s' => (∀ x ∈ s'.parked, x.task.id ≠ task)
        ∧ (u.task.fq = false → ∃ e, Appended s s' u.cl u.task.pid u.seg.queue e ∧ e.work = .remainder u ∧ e.prio = u.seg.prio
            ∧ e.task.id = task)
        ∧ (u.task.fq = true → dieOf u.cl = s.ev.unit → ∃ e, (getDie s' s.ev.unit).fq = (getDie s s.ev.unit).fq ++ [⟨u.cl, e, false⟩]
            ∧ e.work = .remainder u ∧ e.task.id = task))))
    ∧ (r.kind ≠ 0 → s.parked.any (fun t => t.task.id == task) = true →
      RequestSucceeds s r n (fun s' => (∀ x ∈ s'.parked, x.task.id ≠ task) ∧ (∀ x ∈ s'.conts, x.task.id ≠ task)
        ∧ ∀ o ∈ s'.ops, o.task ≠ task)) := by
  refine ⟨fun u a sh hu hkind ha hsh => ⟨fun hb => ?_, fun hb => ?_⟩, fun hkind hany => ?_⟩
  · refine request_fails hreq hold hn h64 h0 hp hsort (by decide) (processReq_error hf hk hl ?_)
    rw [actOn_resume hs hu hkind ha hsh, if_pos hb]
  · have huid : u.task.id = task := by simpa using List.find?_some hu
    have hrem : (remTask u).id = task ∧ (remTask u).fq = u.task.fq := by
      unfold remTask
      split_ifs <;> exact ⟨huid, rfl⟩
    let s1 : State := { requestsTaken s with parked := s.parked.filter (fun x => x.task.id != u.task.id) }
    have hq : queueRemainder (requestsTaken s) u = requeue (freeHeld s1 u.task.pid u.seg.xl) u.cl u.task.pid u.seg.queue u.seg.prio (remTask u)
      (.remainder u) := rfl
    obtain ⟨f1, f2, f3, f4, f5, f6, f7, f8, -⟩ := freeHeld_freesOnly s1 u.task.pid u.seg.xl
    have hkeep : OnlyCopies (freeHeld s1 u.task.pid u.seg.xl) (queueRemainder (requestsTaken s) u) := requeue_keeps ..
    have hstr : (queueRemainder (requestsTaken s) u).strands = s.strands := by rw [hkeep]; exact f1
    have hpark : (queueRemainder (requestsTaken s) u).parked = s1.parked := by rw [hkeep]; exact f2
    have hK : KeepsRecords (requestsTaken s) (queueRemainder (requestsTaken s) u) := by
      refine (keepsRecords_of_eq (s' := s1) rfl rfl).trans ((freeHeld_endsQuietly s1 u.task.pid u.seg.xl).2.2.2.2.trans ?_)
      rw [hq]
      exact requeue_keepsRecords ..
    have hS : RunsAt (queueRemainder (requestsTaken s) u) n r.task := by
      obtain ⟨x, hx, hxid⟩ := hn
      exact ⟨x, by rw [hstr]; exact hx, hxid⟩
    refine request_succeeds hreq hold h64 h0 hp hsort hf hk hl (S := queueRemainder (requestsTaken s) u) ?_ hK hS ?_
    · rw [actOn_resume hs hu hkind ha hsh, if_neg (by simp [hb])]
    · obtain ⟨mm, po, so, dp, e⟩ := answered_eq hS s.ev.unit f
      refine ⟨fun x hx => ?_, fun hfq => ?_, fun hfq hd => ?_⟩
      · rw [e] at hx
        have hx : x ∈ s1.parked := hpark ▸ hx
        rw [← huid]
        simpa using (List.mem_filter.mp hx).2
      · obtain ⟨en, hen, e2, e3, e4⟩ := requeue_appended (s := s) (s0 := freeHeld s1 u.task.pid u.seg.xl) u.cl u.task.pid u.seg.queue u.seg.prio
          (k := remTask u) (.remainder u) (hrem.2.trans hfq) f4 f8
        rw [e]
        exact ⟨en, appended_congr hen (by rw [hq]; rfl), e2, e4, (congrArg Task.id e3).trans hrem.1⟩
      · obtain ⟨en, hen, e2, e3, -⟩ := requeue_fq_appended (s := s1) (s0 := freeHeld s1 u.task.pid u.seg.xl) u.cl u.task.pid u.seg.queue u.seg.prio
          (k := remTask u) (.remainder u) (hrem.2.trans hfq) f3
        rw [e]
        refine ⟨en, ?_, e2, (congrArg Task.id e3).trans hrem.1⟩
        rw [← hd]
        refine (congrArg Die.fq (by rw [hq]; rfl)).trans (hen.trans (congrArg (· ++ _) ?_))
        rw [hd]
        exact fq_requestsTaken s
  · obtain ⟨u, hu⟩ : ∃ u, s.parked.find? (fun t => t.task.id == task) = some u := by
      obtain ⟨x, hx, hxt⟩ := List.any_eq_true.mp hany
      exact Option.isSome_iff_exists.mp (List.find?_isSome.mpr ⟨x, hx, hxt⟩)
    have huid : u.task.id = task := by simpa using List.find?_some hu
    have hrun' : ∀ e ∈ (requestsTaken s).strands, e.2.task.id ≠ u.task.id := fun e he => huid ▸ hrun e he
    have hS : RunsAt (abortTask (requestsTaken s) u.cl u.task) n r.task := abortTask_aside hrun' _ hn
    obtain ⟨-, a2, a3, a4, a5⟩ := abortTask_spec (requestsTaken s) u.cl u.task
    refine request_succeeds hreq hold h64 h0 hp hsort hf hk hl (actOn_strand hs hu hkind) a5 hS ?_
    obtain ⟨mm, po, so, dp, e⟩ := answered_eq hS s.ev.unit f
    rw [e, ← huid]
    exact ⟨a2, a3, fun q hq => (a4 q hq).1⟩

theorem entry_clauses {cl : Nat} {en : Entry} (hs : f.ev.subject = .entry cl en) :
    (r.kind = 0 → en.task.fq = false →
      (queueShut s cl en.task.pid en.queue = true → RequestFails s r n 3)
      ∧ (queueShut s cl en.task.pid en.queue = false → RequestSucceeds s r n (fun s' => ∃ e, Appended s s' cl en.task.pid en.queue e
        ∧ e.work = en.work ∧ e.task = en.task ∧ e.prio = if countsInQueue en.work then
            min en.prio ((cpCtl s cl en.task.pid (0x190 + en.queue)).toNat / 16 % 128) else en.prio)))
    ∧ (r.kind = 0 → en.task.fq = true → dieOf cl = s.ev.unit →
      (countsInQueue en.work = true ∧ 256 ≤ (getDie s s.ev.unit).fq.countP (·.counts) → RequestFails s r n 3)
      ∧ (¬ (countsInQueue en.work = true ∧ 256 ≤ (getDie s s.ev.unit).fq.countP (·.counts)) →
        RequestSucceeds s r n (fun s' => ∃ e, (getDie s' s.ev.unit).fq = (getDie s s.ev.unit).fq ++ [⟨cl, e, countsInQueue en.work⟩]
          ∧ e.work = en.work ∧ e.task = en.task)))
    ∧ (∀ a x y, r.kind ≠ 0 → en.work = .fresh a x y → (∀ e ∈ s.strands, e.2.task.id ≠ en.task.id) →
      RequestSucceeds s r n (fun s' => (∀ x ∈ s'.parked, x.task.id ≠ en.task.id)
        ∧ (∀ x ∈ s'.conts, x.task.id ≠ en.task.id) ∧ ∀ o ∈ s'.ops, o.task ≠ en.task.id)) := by
  refine ⟨fun hkind hfq => ⟨fun hq => ?_, fun hq => ?_⟩, fun hkind hfq hd => ⟨fun hfull => ?_, fun hfull => ?_⟩,
    fun a x y hkind hw hrun => ?_⟩
  · refine request_fails hreq hold hn h64 h0 hp hsort (by decide) (processReq_error hf hk hl ?_)
    rw [actOn_entry hs hkind, resumeEntry]
    rw [hfq, if_neg Bool.false_ne_true, if_pos (show queueShut (requestsTaken s) cl en.task.pid en.queue = true from hq)]
  · refine request_succeeds hreq hold h64 h0 hp hsort hf hk hl
      (S := appendEntry (requestsTaken s) cl en.task.pid en.queue en (countsInQueue en.work)) ?_ (keepsRecords_of_eq rfl rfl) hn ?_
    · rw [actOn_entry hs hkind, resumeEntry]
      rw [hfq, if_neg Bool.false_ne_true, if_neg fun e : queueShut (requestsTaken s) cl en.task.pid en.queue = true => Bool.false_ne_true (hq.symm.trans e)]
    · obtain ⟨mm, po, so, dp, e⟩ := answered_eq (S := appendEntry (requestsTaken s) cl en.task.pid en.queue en (countsInQueue en.work)) hn
        s.ev.unit f
      rw [e]
      exact ⟨_, appended_of_appendEntry (s0 := requestsTaken s) (q := en.queue) (e := en) (clamp := countsInQueue en.work) rfl rfl rfl,
        rfl, rfl, rfl⟩
  · refine request_fails hreq hold hn h64 h0 hp hsort (by decide) (processReq_error hf hk hl ?_)
    rw [actOn_entry hs hkind, resumeEntry]
    rw [if_pos hfq, hd, fq_requestsTaken, if_pos (by simpa using hfull)]
  · have hK := keepsRecords_updDie (requestsTaken s) s.ev.unit
      (f := fun d => { d with fq := d.fq ++ [⟨cl, { en with since := tickNow s }, countsInQueue en.work⟩] }) fun k => rfl
    refine request_succeeds hreq hold h64 h0 hp hsort hf hk hl ?_ hK hn ?_
    · rw [actOn_entry hs hkind, resumeEntry]
      rw [if_pos hfq, hd, fq_requestsTaken, if_neg (by simpa using hfull)]
      rfl
    · obtain ⟨mm, po, so, dp, e⟩ := answered_eq (S := updDie (requestsTaken s) s.ev.unit
        (fun d => { d with fq := d.fq ++ [⟨cl, { en with since := tickNow s }, countsInQueue en.work⟩] })) hn s.ev.unit f
      rw [e]
      refine ⟨{ en with since := tickNow s }, ?_, rfl, rfl⟩
      rw [← fq_requestsTaken s]
      exact congrArg Die.fq (getDie_updDie_same (requestsTaken s) s.ev.unit
        (fun d => { d with fq := d.fq ++ [⟨cl, { en with since := tickNow s }, countsInQueue en.work⟩] }))
  · have hS : RunsAt (abortTask (requestsTaken s) cl en.task) n r.task := abortTask_aside (s := requestsTaken s) hrun _ hn
    obtain ⟨-, a2, a3, a4, a5⟩ := abortTask_spec (requestsTaken s) cl en.task
    refine request_succeeds hreq hold h64 h0 hp hsort hf hk hl (actOn_abortEntry hs hkind hw) a5 hS ?_
    obtain ⟨mm, po, so, dp, e⟩ := answered_eq hS s.ev.unit f
    rw [e]
    exact ⟨a2, a3, fun q hq => (a4 q hq).1⟩

theorem batch_clause {dd num : Nat} (hs : f.ev.subject = .batch dd num) : RequestSucceeds s r n (fun s' =>
    ∀ b ∈ (getDp s' dd f.ev.pid).batches, b.num = num → (r.kind = 0 → b.stopped = false) ∧ (r.kind ≠ 0 → b.ended = true)) := by
  let g : Batch → Batch := fun b => if r.kind = 0 then { b with stopped := false } else { b with ended := true }
  have hK : KeepsRecords (requestsTaken s) (updBatch (requestsTaken s) dd f.ev.pid num g) :=
    keepsRecords_updDp (requestsTaken s) dd f.ev.pid (f := fun k => { k with batches := listUpd k.batches (fun b => b.num == num) g })
      fun k => List.Sublist.refl _
  have hS : RunsAt (updBatch (requestsTaken s) dd f.ev.pid num g) n r.task := hn
  refine request_succeeds hreq hold h64 h0 hp hsort hf hk hl (actOn_batch hs) hK hS fun b hb hnum => ?_
  rw [batches_answered hS] at hb
  have hbat : (getDp (updBatch (requestsTaken s) dd f.ev.pid num g) dd f.ev.pid).batches
      = listUpd (getDp s dd f.ev.pid).batches (fun b => b.num == num) g :=
    congrArg DiePart.batches (getDp_updDp_same (requestsTaken s) dd f.ev.pid
      (fun k => { k with batches := listUpd k.batches (fun b => b.num == num) g }))
  rw [hbat] at hb
  obtain ⟨x, -, rfl⟩ := List.mem_map.mp hb
  have hg : (g x).num = x.num := by
    dsimp only [g]
    split_ifs <;> rfl
  have hx : (x.num == num) = true := by
    by_contra hx
    rw [if_neg hx] at hnum
    exact hx (beq_iff_eq.mpr hnum)
  rw [if_pos hx]
  exact ⟨fun h => by dsimp only [g]; rw [if_pos h], fun h => by dsimp only [g]; rw [if_neg h]⟩

end

/-- Settles O55: each clause of an event's entry into its queue, and of a request on its record, by the event's subject. -/
theorem faultEvents : Obligations.FaultEvents := by
  refine ⟨fun s e rest => faultEventEnqueue_clauses s e rest, ?_⟩
  intro s r n t hreq hold ht hid h64 h0 hp hsort
  have hn : RunsAt s n r.task := ⟨t, ht, hid⟩
  refine ⟨fun hrec => ?_, fun f hf => ⟨fun hk => ?_, fun hk hl => ?_, fun o hk hl hs ho => ?_, fun task hk hl hs hne hrun => ?_,
    fun cl en hk hl hs => ?_, fun dd num hk hl hs => ?_⟩⟩
  · exact request_fails hreq hold hn h64 h0 hp hsort (by decide) (processReq_none hrec)
  · exact request_fails hreq hold hn h64 h0 hp hsort (by decide) (processReq_notice hf hk)
  · exact request_fails hreq hold hn h64 h0 hp hsort (by decide) (processReq_dead hf hk hl)
  · exact op_clauses hreq hold hn h64 h0 hp hsort hf hk hl hs ho
  · obtain ⟨h1, h2⟩ := strand_clauses hreq hold hn h64 h0 hp hsort hf hk hl hs hrun
    exact ⟨h1, fun hkind hany _ => h2 hkind hany⟩
  · obtain ⟨h1, h2, h3⟩ := entry_clauses hreq hold hn h64 h0 hp hsort hf hk hl hs
    exact ⟨h1, h2, fun a x y hkind hw _ hrun _ => h3 a x y hkind hw hrun⟩
  · exact batch_clause hreq hold hn h64 h0 hp hsort hf hk hl hs

end Sys2Proof.Machine
end

section
/-! SUPPORT. O56: OVERRUN, deferred errors, pre-emption, and how stopped strands end. -/

namespace Sys2Proof.Machine

open Laws



/-! #### What freeing and parking leave (R152, R412) -/

theorem returnStorage_autos (s : State) (p fri : Nat) : (returnStorage s p fri).autos = s.autos := by
  simp only [returnStorage]
  repeat' split
  all_goals rfl

theorem freeIdle_autos (s : State) (p fri : Nat) : (freeIdle s p fri).autos = s.autos := by
  have hi : ∀ s : State, (invalidate s p fri).autos = s.autos := fun s => rfl
  have hr : ∀ (s : State) lo n x, (setRec0 s p fri lo n x).autos = s.autos := fun s lo n x => by
    unfold setRec0 wr64 wrN wrMem
    rfl
  rcases freeIdle_cases s p fri with he | he
  · rw [he]
  · rw [he, hi, hr, returnStorage_autos]

theorem freeHeld_autos (s : State) (p : Nat) (l : List Xl) : (freeHeld s p l).autos = s.autos := by
  induction l generalizing s with
  | nil => rfl
  | cons x l ih =>
    unfold freeHeld at ih ⊢
    rw [List.foldl_cons, ih, freeIdle_autos]

theorem getCp_park (s : State) (t : Strand) (n : Nat) (ovr sw : Bool) : getCp (park s t n ovr sw).2 t.cl t.task.pid
    = clearReq (releaseFrom (getCp s t.cl t.task.pid) t.seg.sid (tickNow s + 1)) t.lane := by
  have hs : ∀ t' : Strand, getCp (saveImage s t' n sw).2 t.cl t.task.pid = getCp s t.cl t.task.pid := fun t' => by
    rw [getCp, saveImage_clParts, getCp]
  have hu : (park s t n ovr sw).2.clParts = (updCp (saveImage s { t with pend := [], flags := flagsDone t, late := [], ending := none } n sw).2
      t.cl t.task.pid (fun k => clearReq (releaseFrom k t.seg.sid (tickNow s + 1)) t.lane)).clParts := by
    have hseg : ∀ x : Seg, (if ovr = true then { x with xl := [] } else x).sid = x.sid := fun x => by split_ifs <;> rfl
    simp only [park, tickNow, saveImage_cycle, hseg]
  rw [show getCp (park s t n ovr sw).2 t.cl t.task.pid = getCp (updCp (saveImage s
    { t with pend := [], flags := flagsDone t, late := [], ending := none } n sw).2
      t.cl t.task.pid (fun k => clearReq (releaseFrom k t.seg.sid (tickNow s + 1)) t.lane)) t.cl t.task.pid by rw [getCp, hu, getCp],
    getCp_updCp_same, hs]

theorem park_autos (s : State) (t : Strand) (n : Nat) (ovr sw : Bool) : (park s t n ovr sw).2.autos = s.autos := by
  simp only [park, saveImage, updCp_autos, updDp_autos, wrMem_autos]

theorem park_owed (s : State) (t : Strand) (n : Nat) (ovr sw : Bool) : (park s t n ovr sw).2.owed = s.owed := by
  simp only [park, saveImage, updCp_owed, updDp_owed, wrMem_owed]

theorem whiskOnCause_owed (s : State) (cl p c : Nat) : (whiskOnCause s cl p c).owed = s.owed := by
  unfold whiskOnCause
  dsimp only
  split_ifs <;> rfl

theorem faultNow_owed (s : State) (t : Strand) (n : Nat) (f : FaultInfo) : (faultNow s t n f).owed = s.owed := by
  have hf : ∀ (s : State) (b : Prop) [Decidable b] (p : Nat) l, (if b then freeHeld s p l else s).owed = s.owed := fun s b _ p l => by
    split_ifs
    · obtain ⟨-, -, -, -, -, -, -, -, -, -, -, -, h, -⟩ := freeHeld_freesOnly s p l
      exact h
    · rfl
  unfold faultNow
  dsimp only
  rw [whiskOnCause_owed]
  exact (hf ..).trans (park_owed ..)

theorem takeFaultAt_owed (s : State) (t : Strand) (n : Nat) (f : FaultInfo) : (takeFaultAt s t n f).owed = s.owed := by
  unfold takeFaultAt
  dsimp only
  split_ifs
  · exact faultNow_owed ..
  · rfl

/-! #### OVERRUN and a deferred error (R224, R277) -/

section
variable {s : State} {t : Strand} (ht : tabGet s.strands s.ev.lane = some t)
include ht

theorem overrun_on (h : 8 * (t.seg.start + t.seg.len) ≤ s.cycle) : exec .overrun s
    = .next (takeFaultAt (overrunInfo s (if t.issued.isSome then advance t else t)).2
        { (if t.issued.isSome then advance t else t) with lineOut := [] } (8 * t.seg.len)
        (overrunInfo s (if t.issued.isSome then advance t else t)).1) := by
  simp only [exec, execOverrun, ht]
  rw [if_neg (show ¬ s.cycle < endCycle t from Nat.not_lt.mpr h)]
  have hl : (if t.issued.isSome then advance t else t).seg = t.seg := by split_ifs <;> rfl
  rw [hl]

theorem overrun_faults (h : 8 * (t.seg.start + t.seg.len) ≤ s.cycle) :
    Performs .overrun s (fun s' => Faulted s s' (if t.issued.isSome then advance t else t) 8) := by
  refine fun _ => ⟨_, overrun_on ht h, ?_⟩
  exact faulted_takeFaultAt (overrunInfo s (if t.issued.isSome then advance t else t)).2
    { (if t.issued.isSome then advance t else t) with lineOut := [] } _ _

theorem deferredEccFault_faults {o : Nat × Va × Word} (ho : o ∈ s.owed) (hid : o.1 = t.task.id) (hds : t.ds = 0) :
    Performs .deferredEccFault s (fun s' => Faulted s s' t 23 ∧ s'.owed.length + 1 = s.owed.length) := by
  intro _
  obtain ⟨i, hi⟩ : ∃ i, s.owed.findIdx? (fun o => o.1 == t.task.id) = some i := by
    refine Option.isSome_iff_exists.mp ?_
    rw [List.findIdx?_isSome]
    exact List.any_eq_true.mpr ⟨o, ho, beq_iff_eq.mpr hid⟩
  have hlt : i < s.owed.length := (List.findIdx?_eq_some_iff_getElem.mp hi).1
  have hget : s.owed[i]? = some s.owed[i] := List.getElem?_eq_getElem hlt
  refine ⟨takeFault { s with owed := s.owed.eraseIdx i } t { cause := .memoryEcc, va := toW s.owed[i].2.1, word := s.owed[i].2.2 },
    ?_, faulted_takeFault { s with owed := s.owed.eraseIdx i } t _, ?_⟩
  · simp only [exec, execDeferredEccFault, ht, hi, hget]
    rw [if_neg (not_not.mpr hds)]
  · have he : (takeFault { s with owed := s.owed.eraseIdx i } t
        { cause := .memoryEcc, va := toW s.owed[i].2.1, word := s.owed[i].2.2 }).owed = s.owed.eraseIdx i := takeFaultAt_owed ..
    rw [he, List.length_eraseIdx_of_lt hlt]
    omega

end

/-! #### Pre-emption (R412-R414) -/

theorem preemptAuto_on {s : State} (h : s.ev.n = 1) : exec .preemptSave s = .next (queueAuto s s.ev.id) := by
  simp only [exec, execPreemptSave]
  rw [if_pos h]

/-- The remainder that AUTO saved enters its queue. -/
theorem preemptAuto_queues {s : State} {u : Strand} (h : s.ev.n = 1) (hu : s.parked.find? (fun x => x.task.id == s.ev.id) = some u) :
    Performs .preemptSave s (fun s' =>
      s'.autos = s.autos.filter (· != s.ev.id) ∧ (∀ x ∈ s'.parked, x.task.id ≠ s.ev.id)
      ∧ (u.task.fq = false → ∃ e, Appended s s' u.cl u.task.pid u.seg.queue e ∧ e.work = .remainder u ∧ e.prio = u.seg.prio
          ∧ e.task = remTask u)
      ∧ (u.task.fq = true → ∃ e, (getDie s' (dieOf u.cl)).fq = (getDie s (dieOf u.cl)).fq ++ [⟨u.cl, e, false⟩]
          ∧ e.work = .remainder u ∧ e.task = remTask u)) := by
  intro _
  have hid : u.task.id = s.ev.id := by simpa using List.find?_some hu
  have hfq : (remTask u).fq = u.task.fq := by
    unfold remTask
    split_ifs <;> rfl
  let s1 : State := { s with autos := s.autos.filter (· != s.ev.id), parked := s.parked.filter (fun x => x.task.id != u.task.id) }
  have hq : queueAuto s s.ev.id = requeue (freeHeld s1 u.task.pid u.seg.xl) u.cl u.task.pid u.seg.queue u.seg.prio (remTask u)
      (.remainder u) := by
    unfold queueAuto
    dsimp only
    rw [hu]
    rfl
  obtain ⟨-, f2, f3, f4, -, -, -, f8, -⟩ := freeHeld_freesOnly s1 u.task.pid u.seg.xl
  have hkeep := requeue_keeps (freeHeld s1 u.task.pid u.seg.xl) u.cl u.task.pid u.seg.queue u.seg.prio (remTask u) (.remainder u)
  refine ⟨_, preemptAuto_on h, ?_⟩
  rw [hq]
  refine ⟨?_, fun x hx => ?_, fun hf => ?_, fun hf => ?_⟩
  · rw [hkeep]
    exact freeHeld_autos ..
  · rw [hkeep] at hx
    have hx : x ∈ s1.parked := f2 ▸ hx
    rw [← hid]
    simpa using (List.mem_filter.mp hx).2
  · obtain ⟨e, h1, h2, h3, h4⟩ := requeue_appended (s := s) u.cl u.task.pid u.seg.queue u.seg.prio (.remainder u) (hfq.trans hf) f4 f8
    exact ⟨e, h1, h2, h4, h3⟩
  · obtain ⟨e, h1, h2, h3, -⟩ := requeue_fq_appended (s := s) u.cl u.task.pid u.seg.queue u.seg.prio (.remainder u) (hfq.trans hf) f3
    exact ⟨e, h1, h2, h3⟩

section
variable {s : State} {t : Strand}

/-- The strand and the state once a pre-empted strand has left its lane with its batch closed. -/
def offLane (s : State) (t : Strand) : Strand × State := closeBatch { s with strands := tabDel s.strands s.ev.lane } t s.cycle

theorem tilesDone_offLane (s : State) (t : Strand) : tilesDone (offLane s t).2 (offLane s t).1 = tilesDone s t := by
  unfold tilesDone
  have h : (getCp (offLane s t).2 (offLane s t).1.cl (offLane s t).1.task.pid).tiles.map (·.sid)
      = (getCp s t.cl t.task.pid).tiles.map (·.sid) := by
    show (getCp (updCp _ _ _ _) t.cl t.task.pid).tiles.map (·.sid) = _
    rw [getCp_updCp_same]
    dsimp only [listUpd]
    rw [List.map_map]
    refine List.map_congr_left fun c _ => ?_
    dsimp only [Function.comp_apply]
    split_ifs <;> rfl
  have ha : ∀ l : List TileCmd, l.all (fun c => c.sid != t.seg.sid) = (l.map (·.sid)).all (fun n => n != t.seg.sid) := fun l => by
    rw [List.all_map]
    rfl
  exact (ha _).trans ((congrArg (fun l : List Nat => l.all (fun n => n != t.seg.sid)) h).trans (ha _).symm)

variable (ht : tabGet s.strands s.ev.lane = some t) (hdue : preemptDue s t = true) (hn : s.ev.n ≠ 1)
include ht hdue hn

theorem preemptSave_now (hs : settled s t = true) (hd : tilesDone s t = true) :
    exec .preemptSave s = .next (preemptNow (offLane s t).2 (offLane s t).1 (relCycle t s)) := by
  simp only [exec, execPreemptSave, ht]
  rw [if_neg hn, if_neg (by simp [hdue])]
  have hb : (settled (offLane s t).2 (offLane s t).1 && tilesDone (offLane s t).2 (offLane s t).1) = true := by
    rw [tilesDone_offLane, hd, Bool.and_true]
    exact hs
  exact congrArg Host.Outcome.next (if_pos hb)

theorem preemptSave_stops (h : settled s t = false ∨ tilesDone s t = false) :
    exec .preemptSave s = .next (stopStrand (updCp (offLane s t).2 t.cl t.task.pid (fun k => clearReq k t.lane)) (offLane s t).1
      (.preempt (relCycle t s))) := by
  simp only [exec, execPreemptSave, ht]
  rw [if_neg hn, if_neg (by simp [hdue])]
  have hb : ¬ (settled (offLane s t).2 (offLane s t).1 && tilesDone (offLane s t).2 (offLane s t).1) = true := by
    rw [tilesDone_offLane, Bool.and_eq_true]
    rintro ⟨h1, h2⟩
    rcases h with h | h
    · exact Bool.false_ne_true (h.symm.trans h1)
    · exact Bool.false_ne_true (h.symm.trans h2)
  exact congrArg Host.Outcome.next (if_neg hb)

omit ht hdue hn in
theorem offLane_off : tabGet (offLane s t).2.strands s.ev.lane = none := tabGet_tabDel_same _ _

omit ht hdue hn in
theorem getCp_offLane : ∃ f, getCp (offLane s t).2 t.cl t.task.pid = { getCp s t.cl t.task.pid with tiles := f } :=
  ⟨_, getCp_updCp_same ..⟩

end



section
variable {s : State} {t : Strand}

/-- The event of a pre-empted strand that is saved without AUTO. -/
def preemptEvent (s : State) (t : Strand) (slot : Nat) : FaultEv :=
  { pid := t.task.pid, cl := t.cl, cause := 24, kind := 0
    word0 := recWord0 24 0 false false t.task.pid t.cl t.lane t.ctx t.ds
    words := [toW t.pc0, toW t.pc1, toW t.pc2, 0, BitVec.ofNat 64 (imageVa s t.cl t.task.pid slot), 0, 0]
    subject := .strand t.task.id }

theorem preemptNow_reported (n : Nat) (hw : (getClu s t.cl).switching = none) (hb : (cpCtl s t.cl t.task.pid 0x1C0).getLsbD 8 = false) :
    preemptNow s t n = queueEvent (park s t n false false).2 (preemptEvent (park s t n false false).2 t (park s t n false false).1) := by
  have hb' : bit (cpCtl s t.cl t.task.pid 0x1C0) 8 = false := hb
  simp only [preemptNow, hw, hb', Option.isSome_none, Bool.false_eq_true, if_false]
  rfl

theorem preemptNow_auto (n : Nat) (hw : (getClu s t.cl).switching = none) (hb : (cpCtl s t.cl t.task.pid 0x1C0).getLsbD 8 = true) :
    preemptNow s t n = { (park s t n false false).2 with autos := (park s t n false false).2.autos ++ [t.task.id] } := by
  have hb' : bit (cpCtl s t.cl t.task.pid 0x1C0) 8 = true := hb
  simp only [preemptNow, hw, hb', Option.isSome_none, Bool.false_eq_true, if_false, if_true]

theorem preemptNow_switch (n : Nat) (hw : (getClu s t.cl).switching.isSome = true) :
    preemptNow s t n = freeHeld { saveForSwitch (park s t n false true).2 t with
      parked := (park s t n false true).2.parked.filter (fun x => x.task.id != t.task.id) } t.task.pid t.seg.xl := by
  simp only [preemptNow, hw, if_true]

theorem parkedFor_preemptNow (n : Nat) (hw : (getClu s t.cl).switching = none)
    (hb : (cpCtl s t.cl t.task.pid 0x1C0).getLsbD 8 = false) : ParkedFor s (preemptNow s t n) t 24 := by
  obtain ⟨u, hu, h⟩ := park_parked s t n false false
  rw [preemptNow_reported n hw hb]
  refine ⟨⟨u, ?_, h⟩, preemptEvent (park s t n false false).2 t (park s t n false false).1, ?_, rfl, rfl, rfl, rfl, rfl, rfl⟩
  · show u ∈ (park s t n false false).2.parked
    rw [hu]
    exact List.mem_append_right _ (List.mem_singleton_self u)
  · unfold queueEvent
    rw [show dieOf (preemptEvent (park s t n false false).2 t (park s t n false false).1).cl = dieOf t.cl from rfl, getDie_updDie_same]
    dsimp only
    rw [getDie, park_dies, getDie]

theorem preemptNow_strands (n : Nat) : (preemptNow s t n).strands = s.strands := by
  cases hw : (getClu s t.cl).switching with
  | some w =>
    have hS : ∀ (x : State) (l : List Strand), ({ saveForSwitch x t with parked := l } : State).strands = x.strands := fun _ _ => rfl
    rw [preemptNow_switch n (by rw [hw]; rfl), (freeHeld_freesOnly _ _ _).1, hS, park_strands]
  | none =>
    cases hb : (cpCtl s t.cl t.task.pid 0x1C0).getLsbD 8 with
    | false =>
      have hQ : ∀ (x : State) e, (queueEvent x e).strands = x.strands := fun _ _ => rfl
      rw [preemptNow_reported n hw hb, hQ, park_strands]
    | true =>
      rw [preemptNow_auto n hw hb]
      exact park_strands s t n false false

variable (ht : tabGet s.strands s.ev.lane = some t) (hdue : preemptDue s t = true) (hn : s.ev.n ≠ 1)
include ht hdue hn

theorem preemptSave_saves (hs : settled s t = true) (hd : tilesDone s t = true) :
    ((getClu s t.cl).switching = none →
      ((cpCtl s t.cl t.task.pid 0x1C0).getLsbD 8 = false →
        Performs .preemptSave s (fun s' => tabGet s'.strands s.ev.lane = none ∧ ParkedFor s s' t 24))
      ∧ ((cpCtl s t.cl t.task.pid 0x1C0).getLsbD 8 = true → Performs .preemptSave s (fun s' => tabGet s'.strands s.ev.lane = none
        ∧ s'.autos = s.autos ++ [t.task.id] ∧ (∃ u ∈ s'.parked, Keeps t u ∧ u.ending = none)
        ∧ ∀ q, queueOf (getCp s' t.cl t.task.pid) q = queueOf (getCp s t.cl t.task.pid) q)))
    ∧ ((getClu s t.cl).switching ≠ none → Performs .preemptSave s (fun s' => tabGet s'.strands s.ev.lane = none
        ∧ ∃ e u, (getCp s' t.cl t.task.pid).saved = (getCp s t.cl t.task.pid).saved ++ [e] ∧ e.task = remTask t
          ∧ e.work = .remainder u ∧ Keeps t u)) := by
  obtain ⟨f, hf⟩ := getCp_offLane (s := s) (t := t)
  have hctl : cpCtl (offLane s t).2 t.cl t.task.pid 0x1C0 = cpCtl s t.cl t.task.pid 0x1C0 := by rw [cpCtl, hf, cpCtl]
  have hoff : tabGet (preemptNow (offLane s t).2 (offLane s t).1 (relCycle t s)).strands s.ev.lane = none := by
    rw [preemptNow_strands]
    exact offLane_off
  have hrow := preemptSave_now ht hdue hn hs hd
  refine ⟨fun hw => ⟨fun hb _ => ⟨_, hrow, hoff, ?_⟩, fun hb _ => ⟨_, hrow, hoff, ?_⟩⟩, fun hw _ => ⟨_, hrow, hoff, ?_⟩⟩
  · exact parkedFor_preemptNow (s := (offLane s t).2) (t := (offLane s t).1) (relCycle t s) hw (by
      rw [← hb, ← hctl]
      rfl)
  · rw [preemptNow_auto (s := (offLane s t).2) (t := (offLane s t).1) (relCycle t s) hw (by
      rw [← hb, ← hctl]
      rfl)]
    obtain ⟨u, hu, hk, -, he⟩ := park_parked (offLane s t).2 (offLane s t).1 (relCycle t s) false false
    have ha := park_autos (offLane s t).2 (offLane s t).1 (relCycle t s) false false
    have hp : getCp (park (offLane s t).2 (offLane s t).1 (relCycle t s) false false).2 t.cl t.task.pid
        = clearReq (releaseFrom (getCp (offLane s t).2 t.cl t.task.pid) t.seg.sid (tickNow s + 1)) t.lane :=
      getCp_park (offLane s t).2 (offLane s t).1 (relCycle t s) false false
    generalize (park (offLane s t).2 (offLane s t).1 (relCycle t s) false false).2 = P at hu ha hp
    refine ⟨congrArg (· ++ [t.task.id]) ha, ⟨u, ?_, hk, he⟩, fun q => ?_⟩
    · rw [show ({ P with autos := P.autos ++ [(offLane s t).1.task.id] } : State).parked = P.parked from rfl, hu]
      exact List.mem_append_right _ (List.mem_singleton_self u)
    · rw [show getCp ({ P with autos := P.autos ++ [(offLane s t).1.task.id] } : State) t.cl t.task.pid = getCp P t.cl t.task.pid from rfl,
        hp, hf]
      rfl
  · rw [preemptNow_switch (s := (offLane s t).2) (t := (offLane s t).1) (relCycle t s) (Option.isSome_iff_ne_none.mpr hw)]
    have hp : getCp (park (offLane s t).2 (offLane s t).1 (relCycle t s) false true).2 t.cl t.task.pid
        = clearReq (releaseFrom (getCp (offLane s t).2 t.cl t.task.pid) t.seg.sid (tickNow s + 1)) t.lane :=
      getCp_park (offLane s t).2 (offLane s t).1 (relCycle t s) false true
    generalize (park (offLane s t).2 (offLane s t).1 (relCycle t s) false true).2 = P at hp
    obtain ⟨-, -, -, h4, -⟩ := freeHeld_freesOnly { saveForSwitch P (offLane s t).1 with
      parked := P.parked.filter (fun x => x.task.id != (offLane s t).1.task.id) } (offLane s t).1.task.pid (offLane s t).1.seg.xl
    have hsaved : ∃ e, (getCp (saveForSwitch P (offLane s t).1) t.cl t.task.pid).saved = (getCp P t.cl t.task.pid).saved ++ [e]
        ∧ e.task = remTask t ∧ e.work = .remainder (offLane s t).1 :=
      ⟨_, congrArg ClPart.saved (getCp_updCp_same ..), rfl, rfl⟩
    obtain ⟨e, he, h1, h2⟩ := hsaved
    refine ⟨e, (offLane s t).1, ?_, h1, h2, ⟨rfl, rfl, rfl, rfl, rfl, rfl, rfl, rfl, rfl, rfl⟩⟩
    rw [getCp, h4]
    refine he.trans ?_
    rw [hp, hf]
    rfl

theorem preemptSave_waits (h : settled s t = false ∨ tilesDone s t = false) (hk : laneKey t = s.ev.lane) :
    Performs .preemptSave s (fun s' => tabGet s'.strands s.ev.lane = none
      ∧ ∃ u ∈ s'.parked, Keeps t u ∧ u.flags = t.flags ∧ u.late = t.late ∧ u.pend = t.pend
        ∧ ∃ n, u.ending = some (.preempt n)) := by
  refine fun _ => ⟨_, preemptSave_stops ht hdue hn h, ?_, _, List.mem_append_right _ (List.mem_singleton_self _),
    ⟨rfl, rfl, rfl, rfl, rfl, rfl, rfl, rfl, rfl, rfl⟩, rfl, rfl, rfl, _, rfl⟩
  rw [← hk]
  exact tabGet_tabDel_same _ _

end

/-- A split puts the continuation behind the others. -/
theorem splitNow_conts (s : State) (t : Strand) (c : Cont) : ∃ k, (splitNow s t c).conts = s.conts ++ [{ c with hbm := k }] := by
  obtain ⟨-, h2, -⟩ := closeSegment_keeps (gangEnd s t false) t
  obtain ⟨k, hk⟩ := addCont_eq (dropDead (closeSegment (gangEnd s t false) t) t) c
  refine ⟨k, ?_⟩
  rw [show splitNow s t c = _ from hk, (writeCont_keeps _ _).2.1]
  exact congrArg (· ++ [({ c with hbm := k } : Cont)]) (h2.trans (gangEnd_conts ..))

/-! #### A stopped strand ends (R92, R227) -/

section
variable {s : State} {u : Strand}

/-- The state without the parked strand. -/
def unparked (s : State) (u : Strand) : State := { s with parked := s.parked.filter (fun x => x.task.id != u.task.id) }

variable (hoff : s.dev.off = false) (hag : s.agenda = []) (hc : s.cursor < cursorEnd) (hl : nextLane s = none)
  (hu : s.parked.filter (mayEnd s) = [u])
include hoff hag hc hl hu

theorem step_settles : step s = .next { finishEnding s u with cursor := cursorEnd } := by
  unfold step onStep freeTurn settleEndings
  rw [hoff, if_neg Bool.false_ne_true, hag]
  dsimp only
  rw [if_pos hc, hl, hu]
  rfl

theorem ending_faults {n : Nat} {f : FaultInfo} (he : u.ending = some (.fault n f)) :
    ∃ s', step s = .next s' ∧ ParkedFor s s' u (causeCode f.cause) := by
  have hf : finishEnding s u = faultNow (unparked s u) u n f := by
    unfold finishEnding
    rw [he]
    rfl
  refine ⟨_, step_settles hoff hag hc hl hu, ?_⟩
  rw [hf]
  exact faultNow_parks (unparked s u) u n f

theorem ending_overruns {n e a x b} (he : u.ending = some (.split n e a x b)) (ht : 8 * (u.seg.start + u.seg.len) ≤ s.cycle) :
    ∃ s', step s = .next s' ∧ ParkedFor s s' u 8 := by
  have hf : finishEnding s u = faultNow (overrunInfo (closeBatch (unparked s u) u s.cycle).2 (closeBatch (unparked s u) u s.cycle).1).2
      (closeBatch (unparked s u) u s.cycle).1 (8 * u.seg.len)
      (overrunInfo (closeBatch (unparked s u) u s.cycle).2 (closeBatch (unparked s u) u s.cycle).1).1 := by
    unfold finishEnding
    rw [he]
    exact if_neg (show ¬ s.cycle < endCycle u from Nat.not_lt.mpr ht)
  refine ⟨_, step_settles hoff hag hc hl hu, ?_⟩
  rw [hf]
  exact faultNow_parks (overrunInfo (closeBatch (unparked s u) u s.cycle).2 (closeBatch (unparked s u) u s.cycle).1).2
    (closeBatch (unparked s u) u s.cycle).1 (8 * u.seg.len) _

theorem ending_splits {n e a x b} (he : u.ending = some (.split n e a x b)) (ht : s.cycle < 8 * (u.seg.start + u.seg.len)) :
    ∃ s' c, step s = .next s' ∧ s'.conts = s.conts ++ [c] ∧ Carries u c ∧ AtItself u c
      ∧ (e ≠ 2 → c.event = e ∧ c.evarg = a ∧ c.fired = b) := by
  have hf : finishEnding s u = splitNow (unparked s u) u (implicitCont (unparked s u) u n e a x b) := by
    unfold finishEnding
    rw [he]
    exact if_pos (show s.cycle < endCycle u from ht)
  obtain ⟨k, hk⟩ := splitNow_conts (unparked s u) u (implicitCont (unparked s u) u n e a x b)
  refine ⟨_, _, step_settles hoff hag hc hl hu, ?_, carries_hbm (carries_implicitCont (unparked s u) u n e a x b) k,
    atItself_implicitCont (unparked s u) u n e a x b, fun h2 => ?_⟩
  · show (finishEnding s u).conts = _
    rw [hf]
    exact hk
  · rw [implicitCont_other _ _ _ _ _ _ h2]
    exact ⟨rfl, rfl, rfl⟩

end



/-! #### Pre-emption requests (R411) -/

/-- The lanes whose segments are of the same round as `t`. -/
def roundLanes (s : State) (cl : Nat) (t : Strand) : List Nat :=
  (s.strands.filter (fun e => e.2.cl == cl && t.seg.gang != 0 && e.2.seg.gang == t.seg.gang)).map (fun e => e.2.lane)

/-- What the request on lane `k` does to its cluster's part. -/
def requestLane (s : State) (cl p : Nat) (req : Word) (x : ClPart) (k : Nat) : ClPart :=
  if !bit req k then x
  else match strandOn s cl p k with
    | none => clearReq x k
    | some t => { x with preempt := (k :: roundLanes s cl t).foldl setAdd x.preempt }

/-- The same on the state. -/
def requestStep (cl p : Nat) (req : Word) (s : State) (k : Nat) : State :=
  if !bit req k then s else updCp s cl p (fun x => requestLane s cl p req x k)

theorem preemptRequest_on (s : State) : exec .preemptRequest s
    = .next ((List.range 8).foldl (requestStep s.ev.cl s.ev.pid (cpCtl s s.ev.cl s.ev.pid 0x1C0)) s) := by
  simp only [exec, execPreemptRequest]
  refine congrArg (fun f => Host.Outcome.next (List.foldl f s (List.range 8))) (funext fun s1 => funext fun k => ?_)
  unfold requestStep requestLane
  cases hb : bit (cpCtl s s.ev.cl s.ev.pid 0x1C0) k with
  | false => rfl
  | true => cases strandOn s1 s.ev.cl s.ev.pid k <;> rfl

theorem requestSteps_spec {s0 : State} (cl p : Nat) (req : Word) (l : List Nat) (s : State) (hs : s.strands = s0.strands) :
    (l.foldl (requestStep cl p req) s).strands = s0.strands ∧ (l.foldl (requestStep cl p req) s).mem = s.mem
      ∧ getCp (l.foldl (requestStep cl p req) s) cl p = l.foldl (requestLane s0 cl p req) (getCp s cl p) := by
  induction l generalizing s with
  | nil => exact ⟨hs, rfl, rfl⟩
  | cons k l ih =>
    have hstep : (requestStep cl p req s k).strands = s.strands ∧ (requestStep cl p req s k).mem = s.mem := by
      unfold requestStep
      split_ifs <;> exact ⟨rfl, rfl⟩
    have hsame : ∀ x, requestLane s cl p req x k = requestLane s0 cl p req x k := fun x => by
      unfold requestLane strandOn roundLanes
      rw [hs]
    have hcp : getCp (requestStep cl p req s k) cl p = requestLane s0 cl p req (getCp s cl p) k := by
      rw [← hsame]
      unfold requestStep
      split_ifs with hb
      · unfold requestLane
        rw [if_pos hb]
      · rw [getCp_updCp_same]
    obtain ⟨h1, h2, h3⟩ := ih (requestStep cl p req s k) (hstep.1.trans hs)
    exact ⟨h1, h2.trans hstep.2, h3.trans (by rw [hcp]; rfl)⟩

section
variable {s : State} {cl p : Nat} {req : Word}

/-- A request stays until its lane's segment is gone. -/
theorem requestLane_keeps {m : Nat} {t : Strand} (hm : strandOn s cl p m = some t) {x : ClPart} (h : m ∈ x.preempt) (k : Nat) :
    m ∈ (requestLane s cl p req x k).preempt := by
  unfold requestLane
  split_ifs
  · exact h
  · split
    · rename_i hk
      have hne : m ≠ k := fun e => by rw [← e, hm] at hk; cases hk
      exact (setDel_mem ..).mpr ⟨h, hne⟩
    · exact (mem_foldl_setAdd ..).mpr (.inr h)

theorem requestLanes_keeps {m : Nat} {t : Strand} (hm : strandOn s cl p m = some t) (l : List Nat) {x : ClPart} (h : m ∈ x.preempt) :
    m ∈ (l.foldl (requestLane s cl p req) x).preempt := by
  induction l generalizing x with
  | nil => exact h
  | cons k l ih => exact ih (requestLane_keeps hm h k)

/-- A request applies to the segment on its lane. -/
theorem requestLanes_applies {m : Nat} {t : Strand} (hm : strandOn s cl p m = some t) (hb : bit req m = true) {l : List Nat} (hl : m ∈ l)
    (x : ClPart) : m ∈ (l.foldl (requestLane s cl p req) x).preempt := by
  induction l generalizing x with
  | nil => cases hl
  | cons k l ih =>
    rcases List.mem_cons.mp hl with rfl | hl
    · refine requestLanes_keeps hm l ?_
      unfold requestLane
      rw [if_neg (by simp [hb]), hm]
      exact (mem_foldl_setAdd ..).mpr (.inl List.mem_cons_self)
    · exact ih hl _

theorem ctlGet_clearReq (x : ClPart) (l : Nat) : ctlGet (clearReq x l).ctl 0x1C0 = ctlGet x.ctl 0x1C0 &&& ~~~(1#64 <<< (l % 8)) := by
  have hm : (clearReq x l).ctl = x.ctl.map (fun e => (e.1, if e.1 = 0x1C0 then e.2 &&& ~~~(1#64 <<< (l % 8)) else e.2)) := by
    unfold clearReq
    dsimp only
    refine List.map_congr_left fun e _ => ?_
    split_ifs <;> rfl
  rw [hm]
  unfold ctlGet
  rw [tabGet_mapKey (fun k v => if k = 0x1C0 then v &&& ~~~(1#64 <<< (l % 8)) else v)]
  cases tabGet x.ctl 0x1C0 with
  | none =>
    show ctlReset 0x1C0 = ctlReset 0x1C0 &&& _
    rw [show ctlReset 0x1C0 = 0 from rfl]
    exact (BitVec.zero_and).symm
  | some v => rfl

/-- A bit of the request register is never set by the requests. -/
theorem requestLane_bit {x : ClPart} {k : Nat} (h : (ctlGet x.ctl 0x1C0).getLsbD k = false) (j : Nat) :
    (ctlGet (requestLane s cl p req x j).ctl 0x1C0).getLsbD k = false := by
  unfold requestLane
  split_ifs
  · exact h
  · split
    · rw [ctlGet_clearReq, BitVec.getLsbD_and, h, Bool.false_and]
    · exact h

theorem requestLanes_bit (l : List Nat) {x : ClPart} {k : Nat} (h : (ctlGet x.ctl 0x1C0).getLsbD k = false) :
    (ctlGet (l.foldl (requestLane s cl p req) x).ctl 0x1C0).getLsbD k = false := by
  induction l generalizing x with
  | nil => exact h
  | cons j l ih => exact ih (requestLane_bit h j)

/-- A request on a lane that runs nothing is dropped. -/
theorem requestLanes_dropped {k : Nat} (hk : k < 8) (hn : strandOn s cl p k = none) {l : List Nat} (hl : k ∈ l) {x : ClPart}
    (hb : bit req k = true) : (ctlGet (l.foldl (requestLane s cl p req) x).ctl 0x1C0).getLsbD k = false := by
  induction l generalizing x with
  | nil => cases hl
  | cons j l ih =>
    rcases List.mem_cons.mp hl with rfl | hl
    · refine requestLanes_bit l ?_
      unfold requestLane
      rw [if_neg (by simp [hb]), hn]
      dsimp only
      rw [ctlGet_clearReq, BitVec.getLsbD_and, BitVec.getLsbD_not, Nat.mod_eq_of_lt hk]
      simp
    · exact ih hl

end

theorem preemptRequest_applies {s : State} {t : Strand} (ht : tabGet s.strands s.ev.lane = some t) (hk : laneKey t = s.ev.lane)
    (hc : s.ev.cl = t.cl) (hp : s.ev.pid = t.task.pid) (hl : t.lane < 8)
    (hb : (cpCtl s t.cl t.task.pid 0x1C0).getLsbD t.lane = true) : Performs .preemptRequest s (fun s' =>
      t.lane ∈ (getCp s' t.cl t.task.pid).preempt ∧ SameMem s s' ∧ s'.strands = s.strands) := by
  obtain ⟨h1, h2, h3⟩ := requestSteps_spec (s0 := s) s.ev.cl s.ev.pid (cpCtl s s.ev.cl s.ev.pid 0x1C0) (List.range 8) s rfl
  have hon : strandOn s t.cl t.task.pid t.lane = some t := by
    unfold strandOn
    rw [show 8 * t.cl + t.lane = s.ev.lane from hk, ht]
    exact if_pos rfl
  refine fun _ => ⟨_, preemptRequest_on s, ?_, fun a => by rw [h2], h1⟩
  rw [← hc, ← hp, h3]
  rw [← hc, ← hp] at hon hb
  exact requestLanes_applies hon hb (List.mem_range.mpr hl) _

theorem preemptRequest_drops {s : State} {k : Nat} (hk : k < 8) (hn : strandOn s s.ev.cl s.ev.pid k = none) :
    Performs .preemptRequest s (fun s' =>
      (cpCtl s' s.ev.cl s.ev.pid 0x1C0).getLsbD k = false ∧ SameMem s s' ∧ s'.strands = s.strands) := by
  obtain ⟨h1, h2, h3⟩ := requestSteps_spec (s0 := s) s.ev.cl s.ev.pid (cpCtl s s.ev.cl s.ev.pid 0x1C0) (List.range 8) s rfl
  refine fun _ => ⟨_, preemptRequest_on s, ?_, fun a => by rw [h2], h1⟩
  rw [cpCtl, h3]
  cases hb : (cpCtl s s.ev.cl s.ev.pid 0x1C0).getLsbD k with
  | false => exact requestLanes_bit _ hb
  | true => exact requestLanes_dropped hk hn (List.mem_range.mpr hk) hb

/-- Settles O56: each clause by what its row does to the strand that it takes from its lane. -/
theorem strandStops : Obligations.StrandStops := by
  refine ⟨fun s u h hu => preemptAuto_queues h hu, ?_⟩
  intro s t ht hk
  refine ⟨fun h => overrun_faults ht h, fun o ho hid hds => deferredEccFault_faults ht ho hid hds, fun hdue hn => ?_, ?_, ?_,
    fun k hk hn => preemptRequest_drops hk hn⟩
  · exact ⟨fun hs hd hw => (preemptSave_saves ht hdue hn hs hd).1 hw, fun hs hd hw => (preemptSave_saves ht hdue hn hs hd).2 hw,
      fun h => preemptSave_waits ht hdue hn h hk⟩
  · exact fun u hoff hag hc hl hu => ⟨fun n f he => ending_faults hoff hag hc hl hu he, fun n e a x b he =>
      ⟨fun h => ending_splits hoff hag hc hl hu he h, fun h => ending_overruns hoff hag hc hl hu he h⟩⟩
  · exact fun hc hp hl hb => preemptRequest_applies ht hk hc hp hl hb

end Sys2Proof.Machine
end

section
/-! SUPPORT. O52: a send whose number another operation bears. -/

namespace Sys2Proof.Machine

open Laws

/-! ### Two operations of one number (R185, R202) -/

/-- A send that is on its way to a queue of a die (R356). -/
def sendUnderWay : Op := { mkOp State.reset State.reset.codeStrand .dqsend none none 3 [0] with id := 7, i := 1 }

/-- A copy on channel 0 that bears the number of the send. -/
def sameNumber : Op := { mkOp State.reset State.reset.codeStrand .cpy none none 3 [0] with id := 7 }

/-- A continuation that waits for channel 0. -/
def waitsForChannel : Cont := { contOf State.reset State.reset.codeStrand with event := 3, evarg := 0 }

/-- A state in which two operations bear one number. -/
def sharedNumber : State :=
  { State.reset with strands := [(0, State.reset.codeStrand)], ops := [sendUnderWay, sameNumber], conts := [waitsForChannel], ev := { id := 7 } }

/-- The state once the send has entered its queue. -/
def sendArrived : State :=
  doneOp (relDrain (fireConts (updDp sharedNumber 0 1 (fun k => { k with dqIn := tabSet k.dqIn 0 [(0, [])] }))
    (fun cl k event evarg => event == 6 && dieOf cl == 0 && k.pid == 1 && evarg.toNat % 8 == 0)) 0) 7 0

theorem dqEntryArrive_sharedNumber : exec .dqEntryArrive sharedNumber = .next sendArrived := by
  simp only [exec]
  rfl

/-- The send's end drops both operations, and the channel that this frees fires the continuation that waits for it. -/
theorem sendArrived_fires : sendArrived.conts.map (·.fired) = [true] := by decide

/-- Refutes O52: its clause on a send that enters its queue speaks of every state, also of one where another operation bears the
number of the send. The end of the send drops a copy of that number from its channel too, and the continuation that waits for
the channel fires though it waits for no queue. -/
theorem not_arrivals : ¬ Obligations.Arrivals := by
  unfold Obligations.Arrivals
  rintro ⟨-, hsend, -⟩
  obtain ⟨-, harrive⟩ := hsend sharedNumber sendUnderWay ⟨rfl, rfl, rfl⟩
  have hinv : sharedNumber.Inv := ⟨by decide, by decide⟩
  have hnone : ∀ o ∈ sharedNumber.ops, sameQueue sendUnderWay o = true → o.i = 1 → o.fin = none → sendUnderWay.j ≤ o.j :=
    fun o _ _ _ _ => Nat.zero_le _
  obtain ⟨s', hx, -, -, hconts, -⟩ := harrive rfl rfl (by decide) hnone ⟨fun e he => absurd he List.not_mem_nil,
    fun e he => absurd he List.not_mem_nil, rfl⟩ rfl rfl (by decide) hinv
  rw [dqEntryArrive_sharedNumber, Host.Outcome.next.injEq] at hx
  subst hx
  have hfired := sendArrived_fires
  rw [hconts] at hfired
  exact absurd hfired (by decide)

end Sys2Proof.Machine
end

section
/-! SUPPORT. O58: a copy in a memory that lists an address twice. -/

namespace Sys2Proof.Machine

open Laws

/-! ### A copy of zeros uncovers the second cell of its first byte (R153) -/

/-- A copy-on-write copy into frame 0 of cluster 0, of a frame that holds zeros. -/
def zerosCopy : LocalCopy := { frame := 0, pid := 0, fri := 0, src := 65536, last := 0, what := 1, old := 0, buf := 0, who := 0, vpn := 0, clears := [] }

/-- A state whose memory lists the first byte of frame 0 of cluster 0 twice. -/
def listedTwice : State :=
  { State.reset with mem := [(0, 1), (2 ^ 40, 1), (2 ^ 40, 9)], cycle := 8, clParts := [(0, { copies := [zerosCopy] })] }

/-- Writing a zero at the address that stands twice leaves the second cell, and writing behind it changes nothing there. -/
theorem rdCell_twice (k : Nat) (hk : 0 < k) (l : List Byte) : rdCell (wrBytes [(0, 1), (k, 1), (k, 9)] k (0 :: l)) k = 9 := by
  have hone : wrCell [(0, 1), (k, 1), (k, 9)] k 0 = [(0, 1), (k, 9)] := by
    simp [wrCell, Nat.ne_of_gt hk]
  have hwf : Memory.wf [(0, 1), (k, 9)] = true := by simp [Memory.wf, memOk]; omega
  rw [wrBytes, hone, rdCell_wrBytes l _ (k + 1) k hwf, if_neg (by omega)]
  simp [rdCell, Nat.ne_of_gt hk]

/-- The first byte of what is read is the one that stands at its address. -/
theorem head_rdBytes (m : List Host.Cell) (a n : Nat) : (rdBytes m a (n + 1)).head? = some (rdCell m a) := rfl

theorem clearMoveBuffer_none (s : State) : clearMoveBuffer s 0 = s := by
  rw [clearMoveBuffer, if_neg (by omega)]

theorem copyFrame_mem (s : State) (dst src : Nat) : (copyFrame s dst src).mem = wrBytes s.mem dst (rdBytes s.mem src 32768) := by
  rw [copyFrame, copyBytes, wrMem]

theorem rdCell_listedTwice : rdCell listedTwice.mem 65536 = 0 := by decide

/-- Refutes O58: its clause on what a copy's frame holds speaks of every state, also of one whose memory is not in canonical form.
Where the first byte of the frame is listed twice, storing a zero there uncovers the second cell. -/
theorem not_sieveEvents : ¬ Obligations.SieveEvents := by
  unfold Obligations.SieveEvents
  rintro ⟨-, -, -, -, -, h⟩
  obtain ⟨-, hcopy, -⟩ := h listedTwice
  obtain ⟨-, -, -, hcow⟩ := hcopy zerosCopy rfl
  obtain ⟨hread, -⟩ := hcow rfl (by decide) (by decide)
  have hsame := congrArg List.head? (hread (.inr (by decide)))
  have hsrc : rdBytes listedTwice.mem 65536 32768 = 0 :: rdBytes listedTwice.mem 65537 32767 := by
    rw [rdBytes, rdCell_listedTwice]
  have hmem : listedTwice.mem = [(0, 1), (2 ^ 40, 1), (2 ^ 40, 9)] := rfl
  have hdst : 2 ^ 40 + (listedTwice.ev.cl * 256 + zerosCopy.frame) * 32768 = 2 ^ 40 := by decide
  have hbuf : zerosCopy.buf = 0 := rfl
  have hfrom : zerosCopy.src = 65536 := rfl
  rw [hdst, hbuf, hfrom, if_pos rfl, clearMoveBuffer_none, copyFrame_mem, updCp_mem, hsrc, head_rdBytes, hmem,
    rdCell_twice _ (by decide), List.head?_cons, Option.some.injEq] at hsame
  exact absurd hsame (by decide)

end Sys2Proof.Machine
end
section
/-! SUPPORT. O60: a ring's write index in a memory that is not in canonical form. -/

namespace Sys2Proof.Machine

open Laws

/-! ### Writing a zero uncovers a byte that stands behind a higher address (R358) -/

/-- The header of a delivery ring at 1024 with nothing in it. -/
def emptyRing : Ring := { cap := 1, wr := 0, free := 1, stop := none }

/-- Partition 1 with its frame records at 64; record 1 names HBM frame 0, which is its own page table at every level, so that
virtual addresses of page 0 are HBM addresses. Address 1032 stands before address 900. -/
def unsortedRing : State :=
  { State.reset with parts := [(1, { words := [0, 64, 2, 1] })], mem := [(0, 1), (4, 1), (96, 2), (1032, 1), (900, 7)] }

section
variable {s : State} (hp : s.parts = unsortedRing.parts)
  (hm : ∀ b, b < 1032 → rdCell s.mem b = rdCell unsortedRing.mem b)
include hp

theorem partField_unsortedRing (i lo n : Nat) : partField s 1 i lo n = partField unsortedRing 1 i lo n := by
  rw [partField, partField, partWord, partWord, hp]

theorem recAddr_unsortedRing (i : Nat) : recAddr s 1 1 i = 96 + 8 * i := by
  rw [recAddr, frt, partField_unsortedRing hp, show partField unsortedRing 1 1 0 40 = 64 by decide]

theorem rootOf_unsortedRing : rootOf s 1 0 = 1 := by
  rw [rootOf, if_pos rfl, defaultRoot, partField_unsortedRing hp]
  decide

theorem nfr_unsortedRing : nfr s 1 = 2 := by
  rw [nfr, partField_unsortedRing hp]
  decide

include hm

omit hp in
theorem rd64_unsortedRing {a : Nat} (ha : a + 8 ≤ 1032) : rd64 s a = rd64 unsortedRing a := by
  rw [rd64, rd64, rdN, rdN, rdBytes_congr (fun b _ hb => hm b (by omega))]

theorem recWord_unsortedRing : recWord s 1 1 0 = 2 ∧ recWord s 1 1 1 = 0 := by
  rw [recWord, recWord, recAddr_unsortedRing hp, recAddr_unsortedRing hp, rd64_unsortedRing hm (by omega),
    rd64_unsortedRing hm (by omega)]
  decide

theorem recPhys_unsortedRing : recPhys s 1 1 = 0 ∧ recFmt s 1 1 = 0 ∧ friOk s 1 1 = true := by
  obtain ⟨h0, h1⟩ := recWord_unsortedRing hp hm
  rw [recPhys, recFmt, friOk, recKind, h0, h1, nfr_unsortedRing hp]
  decide

theorem pteAddr_unsortedRing (l : Nat) : pteAddr s 1 1 0 l = 0 := by
  rw [pteAddr, (recPhys_unsortedRing hp hm).1, ptIndex, Nat.zero_div]

theorem nodeOk_unsortedRing : nodeOk s 1 (2 ^ 32 + 1) 0 = true ∧ leafOk s 1 (2 ^ 32 + 1) 0 = true := by
  obtain ⟨-, hfmt, hok⟩ := recPhys_unsortedRing hp hm
  have hfri : pteFri (2 ^ 32 + 1 : Word) = 1 := by decide
  rw [nodeOk, leafOk, hfri, hfmt, hok]
  decide

/-- While nothing below 1032 changes, that address has its translation. -/
theorem ringLeaf_unsortedRing : ∃ l, ringLeaf s 1 1032 = some (1032, l) := by
  obtain ⟨hphys, -, hok⟩ := recPhys_unsortedRing hp hm
  obtain ⟨hnode, hleaf⟩ := nodeOk_unsortedRing hp hm
  have hw0 : rd64 s 0 = 2 ^ 32 + 1 := (rd64_unsortedRing hm (by omega)).trans (by decide)
  have hw1 : rd64 s (0 + 8) = 0 := (rd64_unsortedRing hm (by omega)).trans (by decide)
  have hfri : pteFri (2 ^ 32 + 1 : Word) = 1 := by decide
  have hnodes : walkNodes s 1 0 0 = [1, 1, 1] := by
    simp only [walkNodes, rootOf_unsortedRing hp, hok, pteAddr_unsortedRing hp hm, hw0, hw1, hnode, hfri, Bool.not_true,
      Bool.false_eq_true, if_false]
  have hwalk : walk s 1 0 0 = some ⟨0, 2 ^ 32 + 1, 0, 1, [1, 1, 1]⟩ := by
    simp only [walk, hnodes, pteAddr_unsortedRing hp hm, hw0, hw1, hleaf, hfri, if_true]
  exact ⟨_, by rw [ringLeaf, show 1032 / 32768 = 0 by decide, hwalk, Option.map_some, hphys]⟩

end

/-- The write index has its translation, and no page table lies where it stands. -/
theorem ringWords_unsortedRing : RingWords unsortedRing 1 [1032] [1032] := by
  refine ⟨rfl, List.pairwise_singleton .., fun s hp hsame i v hv => ?_⟩
  have hm : ∀ b, b < 1032 → rdCell s.mem b = rdCell unsortedRing.mem b := fun b hb => hsame b fun q hq => .inl (by
    rw [List.mem_singleton] at hq; omega)
  obtain ⟨rfl, rfl⟩ : i = 0 ∧ 1032 = v := by
    cases i with
    | zero => exact ⟨rfl, Option.some.inj hv⟩
    | succ i => exact absurd hv (by simp)
  exact ringLeaf_unsortedRing hp hm

theorem ringPut_unsortedRing : (ringPut unsortedRing 1 1024 emptyRing []).mem = [(0, 1), (4, 1), (96, 2), (900, 7)] := by
  obtain ⟨l, hl⟩ := ringLeaf_unsortedRing (s := unsortedRing) rfl fun _ _ => rfl
  rw [ringPut, List.mapIdx_nil, List.foldl_nil, ringWr, hl, wrN_mem]
  decide

/-- Refutes O60: its clause on the words of a delivery ring speaks of every state, also of one whose memory is not in canonical
form. Where address 1032 stands before address 900, storing a zero at 1032 takes it out of the list and so uncovers the byte
listed at 900. -/
theorem not_streamEvents : ¬ Obligations.StreamEvents := by
  unfold Obligations.StreamEvents
  rintro ⟨-, -, -, -, hput, -⟩
  obtain ⟨-, -, hoff⟩ := hput unsortedRing 1 1024 emptyRing [] [1032] ringWords_unsortedRing
  have hsame := hoff 900 (by decide)
  rw [ringPut_unsortedRing] at hsame
  exact absurd hsame (by decide)

end Sys2Proof.Machine
end

section
/-! SUPPORT. O51: the walker, RAMPSET, far atomics and host timeouts. -/

namespace Sys2Proof.Machine

open Laws

/-! ### What finding the address of an engine access leaves alone (R186, R371) -/

/-- A translation fills the translation cache, and a read of a replicated page performs what is on its way to its replicas: nothing
else changes. -/
def Addressed (s s' : State) : Prop :=
  s' = { s with mem := s'.mem, fe := s'.fe, poison := s'.poison, soft := s'.soft, written := s'.written, conts := s'.conts
                egress := s'.egress, repl := s'.repl, clusters := s'.clusters, nfree := s'.nfree }

theorem Addressed.refl (s : State) : Addressed s s := rfl

theorem Addressed.trans {a b c : State} (h : Addressed a b) (k : Addressed b c) : Addressed a c := by
  unfold Addressed at *
  rw [k, h]

theorem WritesOnly.addressed {s s' : State} (h : WritesOnly s s') : Addressed s s' := by
  unfold Addressed
  rw [h]

theorem tcPut_eq (s : State) (cl : Nat) (e : TcEnt) :
    tcPut s cl e = { s with clusters := (tcPut s cl e).clusters, nfree := (tcPut s cl e).nfree } := by
  unfold tcPut
  dsimp only
  split <;> rfl

theorem xlate_eq (s : State) (cl p root vpn : Nat) : (xlate s cl p root vpn).2
    = { s with clusters := (xlate s cl p root vpn).2.clusters, nfree := (xlate s cl p root vpn).2.nfree } := by
  unfold xlate
  split
  · rfl
  · split
    · dsimp only
      split
      · exact tcPut_eq ..
      · rfl
    · rfl

theorem xlate_addressed (s : State) (cl p root vpn : Nat) : Addressed s (xlate s cl p root vpn).2 := by
  unfold Addressed
  rw [xlate_eq]

theorem xlate_mem (s : State) (cl p root vpn : Nat) : (xlate s cl p root vpn).2.mem = s.mem := by rw [xlate_eq]
theorem xlate_repl (s : State) (cl p root vpn : Nat) : (xlate s cl p root vpn).2.repl = s.repl := by rw [xlate_eq]

/-- The state in which an address is found: that of the translation, or the one that has settled the replicas' writes. -/
theorem engAddr_cases (s : State) (o : Op) (va : Nat) (w : Bool) :
    let s1 := (xlate s o.cl o.pid o.root (va / 32768 % 2 ^ 33)).2
    (engAddr s o va w).2 = s1 ∨ (w = false ∧ (engAddr s o va w).2 = viewHome s1 o.cl o.pid) := by
  unfold engAddr
  generalize xlate s o.cl o.pid o.root (va / 32768 % 2 ^ 33) = r
  obtain ⟨x, s1⟩ := r
  cases x with
  | none => exact .inl rfl
  | some e =>
    dsimp only
    split
    · exact .inl rfl
    · split
      · exact .inl rfl
      · by_cases h : (pteRepl e.pte0 && !w) = true
        · rw [if_pos h]
          simp only [Bool.and_eq_true, Bool.not_eq_true'] at h
          exact .inr ⟨h.2, rfl⟩
        · rw [if_neg h]
          exact .inl rfl

theorem engAddr_addressed (s : State) (o : Op) (va : Nat) (w : Bool) : Addressed s (engAddr s o va w).2 := by
  have h1 := xlate_addressed s o.cl o.pid o.root (va / 32768 % 2 ^ 33)
  obtain h | ⟨-, h⟩ := engAddr_cases s o va w
  · rw [h]
    exact h1
  · rw [h]
    exact h1.trans (writesOnly_settleRepl ..).addressed

theorem engAddr_mem_write (s : State) (o : Op) (va : Nat) : (engAddr s o va true).2.mem = s.mem := by
  obtain h | ⟨h, -⟩ := engAddr_cases s o va true
  · rw [h, xlate_mem]
  · exact absurd h (by decide)

theorem settleRepl_mem_none {s : State} (h : s.repl = []) (want : Nat → Nat → Bool) : (settleRepl s want).mem = s.mem := by
  rw [settleRepl, h]
  rfl

theorem engAddr_mem_quiet {s : State} (hq : s.repl = []) (o : Op) (va : Nat) (w : Bool) : (engAddr s o va w).2.mem = s.mem := by
  obtain h | ⟨-, h⟩ := engAddr_cases s o va w
  · rw [h, xlate_mem]
  · rw [h, viewHome, settleRepl_mem_none ((xlate_repl ..).trans hq), xlate_mem]

/-! ### What stopping an operation leaves (R201, R405) -/

theorem whiskOnCause_eq (s : State) (cl p c : Nat) : whiskOnCause s cl p c = { s with agenda := (whiskOnCause s cl p c).agenda } := by
  unfold whiskOnCause
  dsimp only
  split <;> rfl

/-- The event that a stopped operation raises (R201, R405). -/
def stopEvent (o : Op) (cause : Cause) (unitKind : Nat) (va index : Word) : FaultEv :=
  { pid := o.pid, cl := o.cl, cause := causeCode cause, kind := 1
    word0 := recWord0 (causeCode cause) 1 false false o.pid o.cl 0 0 0
    words := [0, 0, 0, va, index,
      BitVec.ofNat 64 (unitKind + 2 ^ 4 * (o.unit % 16) + 2 ^ 16 * (o.seq % 2 ^ 16)), toW o.pc]
    subject := .op o.id }

/-- Stopping operation `id` marks it and changes no other field of any. -/
def withStop (id : Nat) (q : Op) : Op := if q.id == id then { q with stopped := true } else q

theorem stopOp_spec (s : State) (o : Op) (cause : Cause) (unitKind : Nat) (va index : Word) :
    let s' := stopOp s o cause unitKind va index
    s' = { s with ops := s.ops.map (withStop o.id), dies := s'.dies, agenda := s'.agenda }
      ∧ s'.dies = (queueEvent s (stopEvent o cause unitKind va index)).dies := by
  intro s'
  have h : s' = whiskOnCause (queueEvent (updOp s o.id (fun o => { o with stopped := true })) (stopEvent o cause unitKind va index))
    o.cl o.pid (causeCode cause) := rfl
  rw [whiskOnCause_eq] at h
  rw [h]
  exact ⟨rfl, rfl⟩


theorem stopOp_stopped {s s1 : State} {o : Op} (ho : ∃ r ∈ s1.ops, r.id = o.id) (hd : s1.dies = s.dies) (cause : Cause) (unitKind : Nat)
    (va index : Word) : OpStopped s (stopOp s1 o cause unitKind va index) o (causeCode cause) va index
      ∧ (stopOp s1 o cause unitKind va index).mem = s1.mem := by
  obtain ⟨heq, hdies⟩ := stopOp_spec s1 o cause unitKind va index
  generalize stopOp s1 o cause unitKind va index = s' at heq hdies
  obtain ⟨r, hr, hid⟩ := ho
  refine ⟨⟨⟨withStop o.id r, ?_, ?_, ?_⟩, stopEvent o cause unitKind va index, ?_, rfl, rfl, rfl, rfl, rfl, rfl, rfl, rfl⟩, by rw [heq]⟩
  · rw [heq]
    exact List.mem_map_of_mem hr
  · unfold withStop
    split <;> exact hid
  · rw [withStop, if_pos (beq_iff_eq.mpr hid)]
  · have hdie : getDie s' (dieOf o.cl) = getDie (queueEvent s1 (stopEvent o cause unitKind va index)) (dieOf o.cl) := by
      rw [getDie, getDie, hdies]
    have hold : getDie s1 (dieOf o.cl) = getDie s (dieOf o.cl) := by rw [getDie, getDie, hd]
    rw [hdie, ← hold, queueEvent]
    exact congrArg Die.waiting (getDie_updDie_same s1 (dieOf o.cl) _)

/-! ### Words of memory, page-table entries and frame records (R147, R152) -/

section
variable {s : State} (hwf : Memory.wf s.mem = true)
include hwf

theorem rdCell_wr64_off (a : Nat) (x : Word) {b : Nat} (h : b < a ∨ a + 8 ≤ b) : rdCell (wr64 s a x).mem b = rdCell s.mem b := by
  rw [wr64_mem, rdCell_wrBytes _ _ _ _ hwf, toLe_length, if_neg (by omega)]

theorem rd64_wr64_apart {a b : Nat} (h : Apart a 8 b 8) (x : Word) : rd64 (wr64 s a x) b = rd64 s b := by
  rw [rd64, rd64, rdN, rdN, rdBytes_congr fun c hc hc' => rdCell_wr64_off hwf a x (b := c) (by unfold Apart at h; omega)]

omit hwf in
theorem setPte_mem (p : Nat) (l : Leaf) (w0 w1 : Word) : (setPte s p l w0 w1).mem = (wr64 (wr64 s l.pteAt w0) (l.pteAt + 8) w1).mem :=
  invalidate_mem ..

/-- What writing both words of a page-table entry leaves. -/
theorem setPte_spec (p : Nat) (l : Leaf) (w0 w1 : Word) :
    Memory.wf (setPte s p l w0 w1).mem = true ∧ PteHolds (setPte s p l w0 w1) l.pteAt w0 w1
      ∧ ∀ b, b < l.pteAt ∨ l.pteAt + 16 ≤ b → rdCell (setPte s p l w0 w1).mem b = rdCell s.mem b := by
  have h1 := inv_wr64 s l.pteAt w0 hwf
  have hr := rd64_congr (setPte_mem (s := s) p l w0 w1)
  unfold PteHolds
  rw [hr, hr, setPte_mem, rd64_wr64 _ _ _ h1, rd64_wr64_apart h1 (.inr (Nat.le_refl _)), rd64_wr64 _ _ _ hwf]
  refine ⟨inv_wr64 _ _ _ h1, ⟨rfl, rfl⟩, fun b hb => ?_⟩
  rw [rdCell_wr64_off h1 _ w1 (by omega), rdCell_wr64_off hwf _ w0 (by omega)]

/-- What setting a field of word 0 of a record leaves. -/
theorem setRec0_spec (p fri lo n x : Nat) :
    Memory.wf (setRec0 s p fri lo n x).mem = true ∧ recWord (setRec0 s p fri lo n x) p fri 0 = setField (recWord s p fri 0) lo n x
      ∧ ∀ b, b < recAddr s p fri 0 ∨ recAddr s p fri 0 + 8 ≤ b → rdCell (setRec0 s p fri lo n x).mem b = rdCell s.mem b := by
  rw [show recWord (setRec0 s p fri lo n x) p fri 0 = rd64 (setRec0 s p fri lo n x) (recAddr s p fri 0) by
    rw [recWord, recAddr_congr (s' := setRec0 s p fri lo n x) (s := s) rfl], setRec0, rd64_wr64 _ _ _ hwf]
  exact ⟨inv_wr64 _ _ _ hwf, rfl, fun _ hb => rdCell_wr64_off hwf _ _ hb⟩

end

theorem recWord_congr {s s' : State} (hm : s'.mem = s.mem) (hp : s'.parts = s.parts) (p fri i : Nat) :
    recWord s' p fri i = recWord s p fri i := by
  rw [recWord, recWord, recAddr_congr hp, rd64_congr hm]

theorem rd64_off {s s' : State} {b : Nat} (h : ∀ c, b ≤ c → c < b + 8 → rdCell s'.mem c = rdCell s.mem c) : rd64 s' b = rd64 s b := by
  rw [rd64, rd64, rdN, rdN, rdBytes_congr h]

theorem recWord_off {s s' : State} (hp : s'.parts = s.parts) (p fri i : Nat)
    (h : ∀ c, recAddr s p fri i ≤ c → c < recAddr s p fri i + 8 → rdCell s'.mem c = rdCell s.mem c) :
    recWord s' p fri i = recWord s p fri i := by
  rw [recWord, recWord, recAddr_congr hp, rd64_off h]

/-! #### The fields of word 0 of a record (R152) -/

theorem setRef_fields (w : Word) (x : Nat) :
    (setField w 16 16 x).toNat / 2 ^ 16 % 2 ^ 16 = x % 2 ^ 16 ∧ (setField w 16 16 x).toNat / 2 ^ 32 % 2 ^ 16 = w.toNat / 2 ^ 32 % 2 ^ 16
      ∧ (setField w 16 16 x).toNat % 4 = w.toNat % 4 := by
  rw [setField_toNat w x (by decide)]
  omega

theorem setPins_fields (w : Word) (x : Nat) :
    (setField w 32 16 x).toNat / 2 ^ 32 % 2 ^ 16 = x % 2 ^ 16 ∧ (setField w 32 16 x).toNat / 2 ^ 16 % 2 ^ 16 = w.toNat / 2 ^ 16 % 2 ^ 16
      ∧ (setField w 32 16 x).toNat % 4 = w.toNat % 4 := by
  rw [setField_toNat w x (by decide)]
  omega

theorem setKind_field (w : Word) (x : Nat) : (setField w 0 2 x).toNat % 4 = x % 4 := by
  rw [setField_toNat w x (by decide)]
  omega

/-! ### What the walker leaves alone (R174, R185) -/

/-- The operation with these words in its buffer. -/
def withOut (g : Op → List OutWord) (o : Op) : Op := { o with out := g o }

/-- The walker changes memory, caches, frames, slots and its record of freed frames; of the operations at most their buffers. -/
def Walked (s s1 : State) : Prop :=
  s1.strands = s.strands ∧ s1.dies = s.dies ∧ s1.parts = s.parts ∧ (∀ e ∈ s1.egress, e ∈ s.egress) ∧ s1.repl = s.repl
    ∧ ∃ g, s1.ops = s.ops.map (withOut g)

theorem Walked.of_same {s s1 : State} (hs : s1.strands = s.strands) (hd : s1.dies = s.dies) (hp : s1.parts = s.parts)
    (he : s1.egress = s.egress) (hr : s1.repl = s.repl) (ho : s1.ops = s.ops) : Walked s s1 :=
  ⟨hs, hd, hp, fun _ h => he ▸ h, hr, fun o => o.out, ho.trans (List.map_id _).symm⟩

theorem Walked.refl (s : State) : Walked s s := .of_same rfl rfl rfl rfl rfl rfl

theorem Walked.trans {a b c : State} (h : Walked a b) (k : Walked b c) : Walked a c := by
  obtain ⟨hs, hd, hp, he, hr, g, ho⟩ := h
  obtain ⟨ks, kd, kp, ke, kr, f, ko⟩ := k
  refine ⟨ks.trans hs, kd.trans hd, kp.trans hp, fun e h => he e (ke e h), kr.trans hr, fun o => f (withOut g o), ?_⟩
  rw [ko, ho, List.map_map]
  rfl

theorem Walked.parts {s s1 : State} (h : Walked s s1) : s1.parts = s.parts := by
  obtain ⟨-, -, hp, -⟩ := h
  exact hp

section
variable {s s1 : State} {o : Op} (hn : Names s o) (hu : Unhindered s o) (hr : isRunning s o.task = true) (hw : Walked s s1)
include hn hw

theorem Walked.names : ∃ o1 : Op, s1.ops.find? (fun q => q.id == o.id) = some o1 ∧ ∃ l, o1 = { o with out := l } := by
  obtain ⟨-, -, -, -, -, g, ho⟩ := hw
  obtain ⟨hf, -, -⟩ := hn
  have hid : o.id = s.ev.id := by simpa using List.find?_some hf
  refine ⟨withOut g o, ?_, g o, rfl⟩
  rw [ho, List.find?_map, show ((fun q : Op => q.id == o.id) ∘ withOut g) = fun q => q.id == s.ev.id by rw [hid]; rfl, hf]
  rfl

theorem Walked.stopped (cause : Cause) (va index : Word) :
    OpStopped s (stopOp s1 o cause 1 va index) o (causeCode cause) va index ∧ (stopOp s1 o cause 1 va index).mem = s1.mem := by
  obtain ⟨o1, hf, l, rfl⟩ := hw.names hn
  obtain ⟨-, hd, -⟩ := hw
  exact stopOp_stopped ⟨_, List.mem_of_find?_eq_some hf, rfl⟩ hd cause 1 va index

include hu hr

theorem Walked.finished (x : Nat) : Finished s (doneOp s1 o.id x) o x o.flags ∧ OnlyDone s1 (doneOp s1 o.id x) := by
  obtain ⟨o1, hf, l, rfl⟩ := hw.names hn
  obtain ⟨hs, -, -, he, hrep, -⟩ := hw
  obtain ⟨ue, ur, ud⟩ := hu
  have hfree : Unhindered s1 { o with out := l } := ⟨fun e h => ue e (he e h), fun e h => ur e (hrep ▸ h), ud⟩
  have hrun : isRunning s1 o.task = true := by rw [isRunning, hs]; exact hr
  obtain ⟨⟨hno, hdel⟩, honly, -⟩ := doneOp_finished (o := { o with out := l }) x hf hfree hrun
  exact ⟨⟨hno, fun n t ht => hdel n t (by rw [hs]; exact ht)⟩, honly⟩

end

/-! ### What the walker's event does (R174, R318) -/

/-- What the walker finds for the operation. -/
def walkRes (s : State) (o : Op) : WalkRes :=
  match o.kind with
  | .kvsplice => doKv s o
  | .kvspliceS => doKv s o
  | .kvtrim => doKv s o
  | .rampset => doKv s o
  | _ => doPage s o

/-- The next state for what it found. -/
def walkOut (o : Op) : WalkRes → State
  | .done x s => doneOp s o.id x.toNat
  | .stop c s => stopOp s o c 1 (o.args.getD 0 0) 0
  | .wait s => s

section
variable {s : State} {o : Op} (hn : Names s o) (hready : walkerReady s o = true)
include hn hready

theorem walkerOpComplete_on : exec .walkerOpComplete s = .next (walkOut o (walkRes s o)) := by
  obtain ⟨hf, -, -⟩ := hn
  have hno : ¬ (!walkerReady s o) = true := by rw [hready]; decide
  have hout : ∀ r : WalkRes, (match r with
      | .done x s => .next (doneOp s o.id x.toNat)
      | .stop c s => .next (stopOp s o c 1 (o.args.getD 0 0) 0)
      | .wait s => .next s) = (Host.Outcome.next (walkOut o r) : Out) := fun r => by cases r <;> rfl
  simp only [exec, execWalkerOpComplete, opFind, hf, if_neg hno]
  exact hout (walkRes s o)

variable {s1 : State} (hw : Walked s s1)
include hw

theorem walker_stops {c : Cause} (hres : walkRes s o = .stop c s1) (hm : s1.mem = s.mem) :
    Performs .walkerOpComplete s (fun s' => OpStopped s s' o (causeCode c) (o.args.getD 0 0) 0 ∧ SameMem s s') := by
  intro _
  obtain ⟨hst, hmem⟩ := hw.stopped hn c (o.args.getD 0 0) 0
  exact ⟨_, (walkerOpComplete_on hn hready).trans (by rw [hres]; rfl), hst, fun b => by rw [hmem, hm]⟩

variable (hu : Unhindered s o) (hr : isRunning s o.task = true) {x : Word} (hres : walkRes s o = .done x s1)
include hu hr hres

theorem walker_ends {n : Nat} (hx : x.toNat = n) {q : State → Prop} (hq : s.Inv → ∀ s', OnlyDone s1 s' → q s') :
    Performs .walkerOpComplete s (fun s' => Finished s s' o n o.flags ∧ q s') := by
  subst hx
  intro hi
  obtain ⟨hfin, honly⟩ := hw.finished hn hu hr x.toNat
  exact ⟨_, (walkerOpComplete_on hn hready).trans (by rw [hres]; rfl), hfin, hq hi _ honly⟩

theorem walker_keeps {n : Nat} (hx : x.toNat = n) (hm : s1.mem = s.mem) :
    Performs .walkerOpComplete s (fun s' => Finished s s' o n o.flags ∧ SameMem s s') :=
  walker_ends hn hready hw hu hr hres hx fun _ _ hd b => by rw [hd.mem, hm]

end

/-! ### The leaf that a request names (R174) -/

/-- The state with these cluster tables, as a translation leaves it. -/
def cached (s : State) (C : Tab Cluster) (N : Nat) : State := { s with clusters := C, nfree := N }

section
variable (s : State) (C : Tab Cluster) (N p fri i : Nat)

@[simp] theorem recWord_cached : recWord (cached s C N) p fri i = recWord s p fri i := recWord_congr rfl rfl p fri i
@[simp] theorem recKind_cached : recKind (cached s C N) p fri = recKind s p fri := by simp [recKind]
@[simp] theorem recRef_cached : recRef (cached s C N) p fri = recRef s p fri := by simp [recRef]
@[simp] theorem recPins_cached : recPins (cached s C N) p fri = recPins s p fri := by simp [recPins]
@[simp] theorem recAddr_cached : recAddr (cached s C N) p fri i = recAddr s p fri i := rfl
@[simp] theorem localRec_cached : localRec (cached s C N) p fri i = localRec s p fri i := by simp [localRec]
@[simp] theorem held_cached : held (cached s C N) p fri = held s p fri := rfl
@[simp] theorem heldElsewhere_cached : heldElsewhere (cached s C N) i p fri = heldElsewhere s i p fri := rfl

end

theorem walked_cached (s : State) (C : Tab Cluster) (N : Nat) : Walked s (cached s C N) := .of_same rfl rfl rfl rfl rfl rfl

/-- Of a cluster, a translation changes the translation cache alone. -/
def CachesOnly (s : State) (C : Tab Cluster) : Prop := ∀ c, ∃ l, getClu { s with clusters := C } c = { getClu s c with tc := l }

theorem cachesOnly_tcPut (s : State) (cl : Nat) (e : TcEnt) : CachesOnly s (tcPut s cl e).clusters := by
  have hput : ∀ l, CachesOnly s (putClu s cl { getClu s cl with tc := l }).clusters := fun l c => by
    by_cases h : c = cl
    · subst h
      exact ⟨l, getClu_updClu_same s c (fun k => { k with tc := l })⟩
    · refine ⟨(getClu s c).tc, ?_⟩
      rw [putClu, getClu, tabGet_tabSet_ne _ _ h]
      rfl
  unfold tcPut
  dsimp only
  split <;> exact hput _

theorem leafAt_cached (s : State) (cl p root vpn : Nat) : ∃ C N, (leafAt s cl p root vpn).2 = cached s C N ∧ CachesOnly s C := by
  have h : (leafAt s cl p root vpn).2 = (xlate s cl p root vpn).2 := by
    unfold leafAt
    dsimp only
    split <;> rfl
  refine ⟨_, _, h.trans (xlate_eq s cl p root vpn), ?_⟩
  have hsame : CachesOnly s s.clusters := fun c => ⟨_, rfl⟩
  unfold xlate
  split
  · exact hsame
  · split
    · dsimp only
      split
      · exact cachesOnly_tcPut s cl _
      · exact hsame
    · exact hsame

/-! ### What each primitive of the walker leaves alone -/

theorem walked_setRec0 (s : State) (p fri lo n x : Nat) : Walked s (setRec0 s p fri lo n x) := .of_same rfl rfl rfl rfl rfl rfl
theorem walked_wr64 (s : State) (a : Nat) (x : Word) : Walked s (wr64 s a x) := .of_same rfl rfl rfl rfl rfl rfl
theorem walked_invalidate (s : State) (p fri : Nat) : Walked s (invalidate s p fri) := .of_same rfl rfl rfl rfl rfl rfl
theorem walked_setPte (s : State) (p : Nat) (l : Leaf) (w0 w1 : Word) : Walked s (setPte s p l w0 w1) := by
  unfold setPte
  exact (walked_wr64 ..).trans ((walked_wr64 ..).trans (walked_invalidate ..))

theorem walked_updClu (s : State) (c : Nat) (f : Cluster → Cluster) : Walked s (updClu s c f) := .of_same rfl rfl rfl rfl rfl rfl

theorem OnlyDone.parts {s s' : State} (h : OnlyDone s s') : s'.parts = s.parts := by rw [h]

/-! ### Counts of a record (R152) -/

section
variable {s : State} {p fri lvl : Nat} {d : Int}

theorem refAdd_none (h : (recRef s p fri : Int) + d < 0 ∨ 65535 < (recRef s p fri : Int) + d) : refAdd s p fri lvl d = none := by
  simp only [refAdd]
  exact if_pos h

theorem refAdd_some {n : Nat} (hn : 0 < n) (h : n < 2 ^ 16) (he : (n : Int) = recRef s p fri + d) :
    refAdd s p fri lvl d = some (0, setRef s p fri n) := by
  simp only [refAdd, ← he]
  rw [if_neg (by omega), if_neg (by omega), Int.toNat_natCast]

theorem refAdd_last (h : (recRef s p fri : Int) + d = 0) : refAdd s p fri lvl d = freeRec p 5 lvl fri (setRef s p fri 0) := by
  simp only [refAdd, h]
  rw [if_neg (by omega), if_pos trivial]
  rfl

theorem recRef_lt (s : State) (p fri : Nat) : recRef s p fri < 2 ^ 16 := Nat.mod_lt _ (by decide)
theorem recPins_lt (s : State) (p fri : Nat) : recPins s p fri < 2 ^ 16 := Nat.mod_lt _ (by decide)

end

/-! ### Requests on the page of a leaf -/

section
variable {s : State} {o : Op} {C : Tab Cluster} {N : Nat} (hn : Names s o) (hready : walkerReady s o = true) (hu : Unhindered s o)
  (hr : isRunning s o.task = true)
include hn hready hu hr

section
variable (hL : leafAt s o.cl o.pid o.root ((o.args.getD 0 0).toNat / 32768 % 2 ^ 33) = (none, cached s C N))
include hL

theorem page_without_leaf (hk : o.kind = .pgref ∨ o.kind = .pgset ∨ o.kind = .pgfill ∨ o.kind = .pgunmap ∨ o.kind = .pgpin
      ∨ o.kind = .pgunpin ∨ o.kind = .pgspill ∨ (o.kind = .pgget ∧ 2 ≤ (o.args.getD 2 0).toNat ∧ (o.args.getD 2 0).toNat < 6)) :
    Performs .walkerOpComplete s (fun s' => Finished s s' o (2 ^ 63 + 5) o.flags ∧ SameMem s s') := by
  have hres : walkRes s o = wErr 5 (cached s C N) := by
    obtain hk | hk | hk | hk | hk | hk | hk | ⟨hk, h2, h6⟩ := hk
    case inr.inr.inr.inr.inr.inr.inr =>
      simp only [walkRes, hk, doPage, hL, doGet, if_neg (Nat.not_le_of_lt h6), if_neg (Nat.not_lt_of_le h2)]
    all_goals simp only [walkRes, hk, doPage, hL, doPin, doUnpin, doSpill]
  exact walker_keeps hn hready (walked_cached s C N) hu hr hres (errW_toNat 5 (by decide)) rfl

end

section
variable {l : Leaf} (hL : leafAt s o.cl o.pid o.root ((o.args.getD 0 0).toNat / 32768 % 2 ^ 33) = (some l, cached s C N))
include hL

theorem pgget_gives (hk : o.kind = .pgget) (h2 : 2 ≤ (o.args.getD 2 0).toNat) (h6 : (o.args.getD 2 0).toNat < 6) :
    Performs .walkerOpComplete s (fun s' => Finished s s' o
      (recWord s o.pid l.fri ((o.args.getD 2 0).toNat - 2) &&& ~~~ pageReserved (o.args.getD 2 0).toNat).toNat o.flags ∧ SameMem s s') := by
  have hres : walkRes s o = .done (recWord s o.pid l.fri ((o.args.getD 2 0).toNat - 2) &&& ~~~ pageReserved (o.args.getD 2 0).toNat)
      (cached s C N) := by
    simp only [walkRes, hk, doPage, hL, doGet, if_neg (Nat.not_le_of_lt h6), if_neg (Nat.not_lt_of_le h2)]
    rfl
  exact walker_keeps hn hready (walked_cached s C N) hu hr hres rfl rfl

theorem pgref_counts (hk : o.kind = .pgref) {n : Nat} (h0 : 0 < n) (h16 : n < 2 ^ 16)
    (he : (n : Int) = recRef s o.pid l.fri + (o.args.getD 1 0).toInt) :
    Performs .walkerOpComplete s (fun s' => Finished s s' o n o.flags ∧ recRef s' o.pid l.fri = n) := by
  have hres : walkRes s o = .done (BitVec.ofInt 64 n) (setRef (cached s C N) o.pid l.fri n) := by
    simp only [walkRes, hk, doPage, hL, refAdd_some (s := cached s C N) h0 h16 he]
    rw [he]
    rfl
  refine walker_ends hn hready ((walked_cached s C N).trans (walked_setRec0 ..)) hu hr hres ?_ fun hi s' hd => ?_
  · rw [BitVec.toNat_ofInt]
    omega
  · obtain ⟨-, hw, -⟩ := setRec0_spec (s := cached s C N) hi.1 o.pid l.fri 16 16 n
    obtain ⟨href, -, -⟩ := setRef_fields (recWord (cached s C N) o.pid l.fri 0) n
    rw [recRef, recWord_congr hd.mem hd.parts, hw, href, Nat.mod_eq_of_lt h16]

omit hu hr in
theorem pgref_outOfRange (hk : o.kind = .pgref) (h : (recRef s o.pid l.fri : Int) + (o.args.getD 1 0).toInt < 0
      ∨ 65535 < (recRef s o.pid l.fri : Int) + (o.args.getD 1 0).toInt) :
    Performs .walkerOpComplete s (fun s' => OpStopped s s' o 17 (o.args.getD 0 0) 0 ∧ SameMem s s') := by
  have hres : walkRes s o = .stop .refcount (cached s C N) := by
    simp only [walkRes, hk, doPage, hL, refAdd_none (s := cached s C N) h]
  exact walker_stops hn hready (walked_cached s C N) hres rfl

end
end

/-! ### What a write of a record or of a leaf leaves of memory -/

theorem sameMemOff_congr {s s1 s2 : State} {ps : List Nat} {n : Nat} (h : SameMemOff ps n s s1) (hm : s2.mem = s1.mem) :
    SameMemOff ps n s s2 := fun b hb => by rw [hm]; exact h b hb

theorem pteHolds_congr {s1 s2 : State} {a : Nat} {w0 w1 : Word} (h : PteHolds s1 a w0 w1) (hm : s2.mem = s1.mem) : PteHolds s2 a w0 w1 := by
  unfold PteHolds at *
  rw [rd64_congr hm, rd64_congr hm]
  exact h

theorem rdCell_offPte {a b : Nat} (h : ∀ p ∈ [a, a + 8], b < p ∨ p + 8 ≤ b) : b < a ∨ a + 16 ≤ b := by
  have h1 := h a List.mem_cons_self
  have h2 := h (a + 8) (List.mem_cons_of_mem _ List.mem_cons_self)
  omega

theorem recWord_invalidate (s : State) (p fri q f i : Nat) : recWord (invalidate s p fri) q f i = recWord s q f i :=
  recWord_congr (invalidate_mem ..) rfl q f i

/-- Both words of a leaf, where it has been written in a state that differs from `s` only in its caches. -/
theorem setPte_leaves {s s1 s' : State} (hm : s1.mem = s.mem) (hwf : Memory.wf s.mem = true) (p : Nat) (l : Leaf) (w0 w1 : Word)
    (hd : s'.mem = (setPte s1 p l w0 w1).mem) : SameMemOff [l.pteAt, l.pteAt + 8] 8 s s' ∧ PteHolds s' l.pteAt w0 w1 := by
  obtain ⟨-, hp, hoff⟩ := setPte_spec (s := s1) (hm ▸ hwf) p l w0 w1
  exact ⟨fun b hb => by rw [hd, hoff b (rdCell_offPte hb), hm], pteHolds_congr hp hd⟩

/-- A leaf and then nothing but word 0 of a record, or the other way round (R152, R159). -/
theorem wrotePte_of {s s' : State} {p fri a : Nat} {w0 w1 : Word} {ref pins : Nat}
    (hoff : ∀ b, (b < a ∨ a + 16 ≤ b) → (b < recAddr s p fri 0 ∨ recAddr s p fri 0 + 8 ≤ b) → rdCell s'.mem b = rdCell s.mem b)
    (h : Apart a 16 (recAddr s p fri 0) 8 → PteHolds s' a w0 w1 ∧ recRef s' p fri = ref ∧ recPins s' p fri = pins) :
    WrotePte s s' p fri a w0 w1 ref pins :=
  ⟨fun b hb => hoff b (rdCell_offPte fun q hq => hb q (by simp only [List.mem_cons, List.not_mem_nil, or_false] at hq ⊢; omega))
    (hb _ (by simp)), h⟩

section
variable {s : State} {o : Op} {C : Tab Cluster} {N : Nat} (hn : Names s o) (hready : walkerReady s o = true) (hu : Unhindered s o)
  (hr : isRunning s o.task = true) {l : Leaf}
  (hL : leafAt s o.cl o.pid o.root ((o.args.getD 0 0).toNat / 32768 % 2 ^ 33) = (some l, cached s C N))
include hn hready hu hr hL

/-! ### PGSET (R176) -/

omit hn hready hu hr in
theorem walkRes_pgset (hk : o.kind = .pgset) : walkRes s o = doSet (cached s C N) o.pid l (o.args.getD 1 0) (o.args.getD 2 0).toNat := by
  simp only [walkRes, hk, doPage, hL]

theorem pgset_bad (hk : o.kind = .pgset) (h : doSet (cached s C N) o.pid l (o.args.getD 1 0) (o.args.getD 2 0).toNat = wErr 4 (cached s C N)) :
    Performs .walkerOpComplete s (fun s' => Finished s s' o (2 ^ 63 + 4) o.flags ∧ SameMem s s') :=
  walker_keeps hn hready (walked_cached s C N) hu hr ((walkRes_pgset hL hk).trans h) (errW_toNat 4 (by decide)) rfl

theorem pgset_format (hk : o.kind = .pgset) (hs : (o.args.getD 2 0).toNat = 0) :
    (128 ≤ (o.args.getD 1 0).toNat ∨ attrOk ((o.args.getD 1 0).toNat % 16) ((o.args.getD 1 0).toNat / 16 % 4) = false →
      Performs .walkerOpComplete s (fun s' => Finished s s' o (2 ^ 63 + 4) o.flags ∧ SameMem s s'))
    ∧ ((o.args.getD 1 0).toNat < 128 → attrOk ((o.args.getD 1 0).toNat % 16) ((o.args.getD 1 0).toNat / 16 % 4) = true →
      Performs .walkerOpComplete s (fun s' => Finished s s' o 0 o.flags ∧ SameMemOff [recAddr s o.pid l.fri 0] 8 s s'
        ∧ recWord s' o.pid l.fri 0 = setField (setField (setField (recWord s o.pid l.fri 0) 4 4 ((o.args.getD 1 0).toNat % 16)) 8 2
          ((o.args.getD 1 0).toNat / 16 % 4)) 10 1 ((o.args.getD 1 0).toNat / 64 % 2))) := by
  have hset : ∀ b, doSet (cached s C N) o.pid l b 0 = if b.toNat / 128 ≠ 0 ∨ !attrOk (b.toNat % 16) (b.toNat / 16 % 4) then wErr 4 (cached s C N)
      else .done 0 (invalidate (setRec0 (setRec0 (setRec0 (cached s C N) o.pid l.fri 4 4 (b.toNat % 16)) o.pid l.fri 8 2 (b.toNat / 16 % 4))
        o.pid l.fri 10 1 (b.toNat / 64 % 2)) o.pid l.fri) := fun _ => rfl
  refine ⟨fun h => pgset_bad hn hready hu hr hL hk ?_, fun h1 h2 => ?_⟩
  · rw [hs, hset, if_pos]
    exact h.imp (fun h => by omega) fun h => by rw [h]; rfl
  · have hres := walkRes_pgset hL hk
    rw [hs, hset, if_neg (by rw [h2]; simp only [Bool.not_true, Bool.false_eq_true, or_false]; omega)] at hres
    generalize o.args.getD 1 0 = b at hres
    refine walker_ends hn hready ?_ hu hr hres rfl fun hi s' hd => ?_
    · exact (walked_cached s C N).trans ((walked_setRec0 ..).trans ((walked_setRec0 ..).trans ((walked_setRec0 ..).trans (walked_invalidate ..))))
    · obtain ⟨k1, w1, f1⟩ := setRec0_spec (s := cached s C N) hi.1 o.pid l.fri 4 4 (b.toNat % 16)
      obtain ⟨k2, w2, f2⟩ := setRec0_spec k1 o.pid l.fri 8 2 (b.toNat / 16 % 4)
      obtain ⟨k3, w3, f3⟩ := setRec0_spec k2 o.pid l.fri 10 1 (b.toNat / 64 % 2)
      refine ⟨fun c hc => ?_, ?_⟩
      · have := hc _ List.mem_cons_self
        rw [hd.mem, invalidate_mem, f3 c this, f2 c this, f1 c this]
        rfl
      · rw [recWord_congr hd.mem hd.parts]
        rw [recWord_invalidate, w3, w2, w1, recWord_cached]

theorem pgset_tag (hk : o.kind = .pgset) (hs : (o.args.getD 2 0).toNat = 1) :
    ((o.args.getD 1 0).getLsbD 15 = true ∨ 2 ^ 48 ≤ (o.args.getD 1 0).toNat →
      Performs .walkerOpComplete s (fun s' => Finished s s' o (2 ^ 63 + 4) o.flags ∧ SameMem s s'))
    ∧ ((o.args.getD 1 0).getLsbD 15 = false → (o.args.getD 1 0).toNat < 2 ^ 48 →
      Performs .walkerOpComplete s (fun s' => Finished s s' o 0 o.flags ∧ SameMemOff [recAddr s o.pid l.fri 2] 8 s s'
        ∧ recWord s' o.pid l.fri 2 = o.args.getD 1 0)) := by
  have hset : ∀ b : Word, doSet (cached s C N) o.pid l b 1 = if bit b 15 = true ∨ b.toNat / 2 ^ 48 ≠ 0 then wErr 4 (cached s C N)
      else .done 0 (invalidate (wr64 (cached s C N) (recAddr s o.pid l.fri 2) b) o.pid l.fri) := fun _ => rfl
  refine ⟨fun h => pgset_bad hn hready hu hr hL hk ?_, fun h1 h2 => ?_⟩
  · rw [hs, hset, if_pos]
    exact h.imp id fun h => by omega
  · have hres := walkRes_pgset hL hk
    rw [hs, hset, if_neg (by rw [bit, h1]; simp only [Bool.false_eq_true, false_or]; omega)] at hres
    generalize o.args.getD 1 0 = b at hres
    refine walker_ends hn hready ((walked_cached s C N).trans ((walked_wr64 ..).trans (walked_invalidate ..))) hu hr hres rfl
      fun hi s' hd => ⟨fun c hc => ?_, ?_⟩
    · rw [hd.mem, invalidate_mem, rdCell_wr64_off (s := cached s C N) hi.1 _ _ (hc _ List.mem_cons_self)]
      rfl
    · rw [recWord_congr hd.mem hd.parts, recWord_invalidate, recWord, recAddr_congr (s := s) rfl]
      exact rd64_wr64 (cached s C N) _ _ hi.1

omit hL in
/-- The word of a leaf whose request asks for it alone. -/
theorem leaf_written {w0 w1 : Word} {x : Word} {n : Nat} (hx : x.toNat = n)
    (hres : walkRes s o = .done x (setPte (cached s C N) o.pid l w0 w1)) :
    Performs .walkerOpComplete s (fun s' => Finished s s' o n o.flags ∧ SameMemOff [l.pteAt, l.pteAt + 8] 8 s s' ∧ PteHolds s' l.pteAt w0 w1) :=
  walker_ends hn hready ((walked_cached s C N).trans (walked_setPte ..)) hu hr hres hx fun hi s' hd =>
    setPte_leaves (s1 := cached s C N) rfl hi.1 o.pid l w0 w1 hd.mem

theorem pgset_attr (hk : o.kind = .pgset) (hs : (o.args.getD 2 0).toNat = 2) :
    (o.args.getD 1 0 &&& 0x1FE ≠ o.args.getD 1 0 →
      Performs .walkerOpComplete s (fun s' => Finished s s' o (2 ^ 63 + 4) o.flags ∧ SameMem s s'))
    ∧ (o.args.getD 1 0 &&& 0x1FE = o.args.getD 1 0 →
      Performs .walkerOpComplete s (fun s' => Finished s s' o 0 o.flags ∧ SameMemOff [l.pteAt, l.pteAt + 8] 8 s s'
        ∧ PteHolds s' l.pteAt ((l.pte0 &&& ~~~ 0x1EE) ||| (o.args.getD 1 0 &&& 0x1EE)) l.pte1)) := by
  have hset : ∀ b : Word, doSet (cached s C N) o.pid l b 2 = if b.toNat &&& 0x1FE ≠ b.toNat then wErr 4 (cached s C N)
      else .done 0 (setPte (cached s C N) o.pid l ((l.pte0 &&& ~~~ 0x1EE#64) ||| (b &&& 0x1EE#64)) l.pte1) := fun _ => rfl
  have hmask : ∀ b : Word, b.toNat &&& 0x1FE = b.toNat ↔ b &&& 0x1FE = b := fun b => by
    rw [← BitVec.toNat_inj, BitVec.toNat_and]
    rfl
  refine ⟨fun h => pgset_bad hn hready hu hr hL hk ?_, fun h => ?_⟩
  · rw [hs, hset, if_pos fun he => h ((hmask _).mp he)]
  · have hres := walkRes_pgset hL hk
    rw [hs, hset, if_neg (not_not.mpr ((hmask _).mpr h))] at hres
    exact leaf_written hn hready hu hr rfl hres

theorem pgset_word1 (hk : o.kind = .pgset) (hs : (o.args.getD 2 0).toNat = 3) :
    (2 ^ 56 ≤ (o.args.getD 1 0).toNat →
      Performs .walkerOpComplete s (fun s' => Finished s s' o (2 ^ 63 + 4) o.flags ∧ SameMem s s'))
    ∧ ((o.args.getD 1 0).toNat < 2 ^ 56 →
      Performs .walkerOpComplete s (fun s' => Finished s s' o 0 o.flags ∧ SameMemOff [l.pteAt, l.pteAt + 8] 8 s s'
        ∧ PteHolds s' l.pteAt l.pte0 (o.args.getD 1 0))) := by
  have hset : ∀ b : Word, doSet (cached s C N) o.pid l b 3 = if b.toNat / 2 ^ 56 ≠ 0 then wErr 4 (cached s C N)
      else .done 0 (setPte (cached s C N) o.pid l l.pte0 b) := fun _ => rfl
  refine ⟨fun h => pgset_bad hn hready hu hr hL hk ?_, fun h => ?_⟩
  · rw [hs, hset, if_pos (by omega)]
  · have hres := walkRes_pgset hL hk
    rw [hs, hset, if_neg (by omega)] at hres
    exact leaf_written hn hready hu hr rfl hres

end

/-- Word 0 of a record is written first, then the leaf: what both leave (R152, R159). -/
theorem pinned_leaves {s s1 s' : State} (hm : s1.mem = s.mem) (hp : s1.parts = s.parts) (hwf : Memory.wf s.mem = true) (p n : Nat) (l : Leaf)
    (w0 w1 : Word) (hn : n < 2 ^ 16) (hd : s'.mem = (setPte (setPins s1 p l.fri n) p l w0 w1).mem) (hp' : s'.parts = s.parts) :
    WrotePte s s' p l.fri l.pteAt w0 w1 (recRef s p l.fri) n := by
  obtain ⟨k1, hw, hoff⟩ := setRec0_spec (s := s1) (hm ▸ hwf) p l.fri 32 16 n
  obtain ⟨-, hpte, hoff'⟩ := setPte_spec k1 p l w0 w1
  rw [recAddr_congr hp] at hoff
  refine wrotePte_of (fun b hb hb' => by rw [hd, setPins, hoff' b hb, hoff b hb', hm]) fun hap => ?_
  have hrec : recWord s' p l.fri 0 = setField (recWord s p l.fri 0) 32 16 n := by
    rw [← recWord_congr hm hp, ← hw]
    rw [recWord, recWord, recAddr_congr hp', recAddr_congr (s := s) (s' := setRec0 s1 p l.fri 32 16 n) hp]
    refine rd64_off fun c hc hc' => ?_
    unfold Apart at hap
    rw [hd, setPins, hoff' c (by omega)]
  obtain ⟨hpins, href, -⟩ := setPins_fields (recWord s p l.fri 0) n
  refine ⟨pteHolds_congr hpte (by rw [hd, setPins]), ?_, ?_⟩
  · rw [recRef, hrec, href, recRef]
  · rw [recPins, hrec, hpins, Nat.mod_eq_of_lt hn]

theorem fillFor_local {s : State} {cl p fri : Nat} (h : localRec s p fri cl = true) : fillFor s cl p fri = .ok s := by
  rw [fillFor, if_pos h]

theorem fillFor_elsewhere {s : State} {cl p fri : Nat} (h : localRec s p fri cl = false) (hh : heldElsewhere s cl p fri = true) :
    fillFor s cl p fri = .error (wErr 2 s) := by
  rw [fillFor, if_neg (ne_true_of_eq_false h), if_pos hh]

section
variable {s : State} {o : Op} {C : Tab Cluster} {N : Nat} (hn : Names s o) (hready : walkerReady s o = true) (hu : Unhindered s o)
  (hr : isRunning s o.task = true) {l : Leaf}
  (hL : leafAt s o.cl o.pid o.root ((o.args.getD 0 0).toNat / 32768 % 2 ^ 33) = (some l, cached s C N))
include hn hready hu hr hL

/-! ### PGPIN and PGUNPIN (R159) -/

theorem pin_stays (hk : o.kind = .pgpin ∧ ptePin l.pte0 = true ∨ o.kind = .pgunpin ∧ ptePin l.pte0 = false) :
    Performs .walkerOpComplete s (fun s' => Finished s s' o 1 o.flags ∧ SameMem s s') := by
  have hres : walkRes s o = .done 1 (cached s C N) := by
    obtain ⟨hk, hp⟩ | ⟨hk, hp⟩ := hk
    · simp only [walkRes, hk, doPage, hL, doPin, hp, if_true]
    · simp only [walkRes, hk, doPage, hL, doUnpin, hp, Bool.not_false, if_true]
  exact walker_keeps hn hready (walked_cached s C N) hu hr hres rfl rfl

theorem pgpin_local (hk : o.kind = .pgpin) (hp : ptePin l.pte0 = false) (hl : localRec s o.pid l.fri o.cl = true)
    (h : recPins s o.pid l.fri < 65535) :
    Performs .walkerOpComplete s (fun s' => Finished s s' o (recPins s o.pid l.fri + 1) o.flags
      ∧ WrotePte s s' o.pid l.fri l.pteAt (l.pte0 ||| 16) l.pte1 (recRef s o.pid l.fri) (recPins s o.pid l.fri + 1)) := by
  have hres : ∃ f, walkRes s o = .done (BitVec.ofNat 64 (recPins s o.pid l.fri + 1)) (updClu (setPte (setPins (cached s C N) o.pid l.fri
      (recPins s o.pid l.fri + 1)) o.pid l (l.pte0 ||| 16) l.pte1) o.cl f) := by
    simp only [walkRes, hk, doPage, hL, doPin, hp, Bool.false_eq_true, if_false, fillFor_local (s := cached s C N) ((localRec_cached ..).trans hl), recPins_cached]
    exact ⟨_, rfl⟩
  obtain ⟨f, hres⟩ := hres
  refine walker_ends hn hready ((walked_cached s C N).trans ((walked_setRec0 ..).trans ((walked_setPte ..).trans (walked_updClu ..))))
    hu hr hres ?_ fun hi s' hd => ?_
  · rw [BitVec.toNat_ofNat]
    omega
  · exact pinned_leaves (s1 := cached s C N) rfl rfl hi.1 o.pid _ l _ _ (by omega) (hd.mem.trans (updClu_mem ..)) hd.parts

theorem pgpin_held (hk : o.kind = .pgpin) (hp : ptePin l.pte0 = false) (hl : localRec s o.pid l.fri o.cl = false)
    (hh : heldElsewhere s o.cl o.pid l.fri = true) :
    Performs .walkerOpComplete s (fun s' => Finished s s' o (2 ^ 63 + 2) o.flags ∧ SameMem s s') := by
  have hres : walkRes s o = wErr 2 (cached s C N) := by
    simp only [walkRes, hk, doPage, hL, doPin, hp, Bool.false_eq_true, if_false, fillFor_elsewhere (s := cached s C N) ((localRec_cached ..).trans hl) hh]
  exact walker_keeps hn hready (walked_cached s C N) hu hr hres (errW_toNat 2 (by decide)) rfl

theorem pgunpin_pinned (hk : o.kind = .pgunpin) (hp : ptePin l.pte0 = true) :
    Performs .walkerOpComplete s (fun s' => Finished s s' o (recPins s o.pid l.fri - 1) o.flags
      ∧ WrotePte s s' o.pid l.fri l.pteAt (l.pte0 &&& ~~~ 16) l.pte1 (recRef s o.pid l.fri) (recPins s o.pid l.fri - 1)) := by
  have hlt := recPins_lt s o.pid l.fri
  have hres : walkRes s o = .done (BitVec.ofNat 64 (recPins s o.pid l.fri - 1)) (setPte (setPins (cached s C N) o.pid l.fri
      (recPins s o.pid l.fri - 1)) o.pid l (l.pte0 &&& ~~~ 16) l.pte1) := by
    simp only [walkRes, hk, doPage, hL, doUnpin, hp, Bool.not_true, Bool.false_eq_true, if_false, recPins_cached]
    rfl
  refine walker_ends hn hready ((walked_cached s C N).trans ((walked_setRec0 ..).trans (walked_setPte ..))) hu hr hres ?_ fun hi s' hd => ?_
  · rw [BitVec.toNat_ofNat]
    omega
  · exact pinned_leaves (s1 := cached s C N) rfl rfl hi.1 o.pid _ l _ _ (by omega) hd.mem hd.parts

/-! ### PGSPILL (R157) -/

omit hn hready hu hr in
theorem walkRes_pgspill (hk : o.kind = .pgspill) : walkRes s o = doSpill (cached s C N) o (some l) := by
  simp only [walkRes, hk, doPage, hL]

theorem pgspill_refused (hk : o.kind = .pgspill) (h : held s o.pid l.fri = true ∨ 0 < recPins s o.pid l.fri) :
    Performs .walkerOpComplete s (fun s' => Finished s s' o (2 ^ 63 + 2) o.flags ∧ SameMem s s') := by
  have hres := walkRes_pgspill hL hk
  simp only [doSpill, held_cached, recPins_cached, if_pos h] at hres
  exact walker_keeps hn hready (walked_cached s C N) hu hr hres (errW_toNat 2 (by decide)) rfl

theorem pgspill_away (hk : o.kind = .pgspill) (hh : held s o.pid l.fri = false) (hp : recPins s o.pid l.fri = 0)
    (hr1 : recKind s o.pid l.fri ≠ 1) : Performs .walkerOpComplete s (fun s' => Finished s s' o 1 o.flags ∧ SameMem s s') := by
  have hres := walkRes_pgspill hL hk
  have hno : ¬ (held s o.pid l.fri = true ∨ 0 < recPins s o.pid l.fri) := by simp [hh, hp]
  simp only [doSpill, held_cached, recPins_cached, recKind_cached, if_neg hno, if_pos hr1] at hres
  exact walker_keeps hn hready (walked_cached s C N) hu hr hres rfl rfl

omit hn hready hu hr hL in
theorem evDemand_cached (hC : CachesOnly s C) (c : Nat) : (getClu (cached s C N) c).evDemand = (getClu s c).evDemand := by
  obtain ⟨l, hl⟩ := hC c
  calc (getClu (cached s C N) c).evDemand = (getClu { s with clusters := C } c).evDemand := rfl
    _ = _ := by rw [hl]

omit hu hr in
theorem pgspill_queued (hC : CachesOnly s C) (hk : o.kind = .pgspill) (hh : held s o.pid l.fri = false) (hp : recPins s o.pid l.fri = 0)
    (hr1 : recKind s o.pid l.fri = 1) (h0 : o.i = 0) (h8 : (getClu s (locCluster (recWord s o.pid l.fri 1))).evDemand.length < 8) :
    Performs .walkerOpComplete s (fun s' => SameMem s s'
      ∧ (getClu s' (locCluster (recWord s o.pid l.fri 1))).evDemand
        = (getClu s (locCluster (recWord s o.pid l.fri 1))).evDemand ++ [⟨o.pid, l.fri, 0, o.id, 0, false⟩]
      ∧ ∃ q ∈ s'.ops, q.id = o.id ∧ q.i = 1 ∧ q.fin = none) := by
  have hres := walkRes_pgspill hL hk
  have hno : ¬ (held s o.pid l.fri = true ∨ 0 < recPins s o.pid l.fri) := by simp [hh, hp]
  have hev := evDemand_cached (N := N) hC (locCluster (recWord s o.pid l.fri 1))
  simp only [doSpill, held_cached, recPins_cached, recKind_cached, recWord_cached, if_neg hno, if_neg (not_not.mpr hr1), h0,
    if_neg (show ¬ (0 = 1) by decide), hev, if_neg (Nat.not_le_of_lt h8)] at hres
  intro _
  refine ⟨_, (walkerOpComplete_on hn hready).trans (congrArg (fun r => Host.Outcome.next (walkOut o r)) hres), fun b => rfl, ?_, ?_⟩
  · exact congrArg Cluster.evDemand (getClu_updClu_same (cached s C N) _ (fun c => { c with evDemand := _ }))
  · obtain ⟨hf, hfin, -⟩ := hn
    exact ⟨_, List.mem_map_of_mem (List.mem_of_find?_eq_some hf), by rw [if_pos (beq_self_eq_true o.id)], by rw [if_pos (beq_self_eq_true o.id)],
      by rw [if_pos (beq_self_eq_true o.id)]; exact hfin⟩

end

/-! ### What moving a page into a frame leaves (R152, R159) -/

theorem copyBytes_eq (s : State) (dst src n : Nat) : let s' := copyBytes s dst src n
    s' = { s with mem := s'.mem, poison := s'.poison, soft := s'.soft } := rfl

theorem walked_copyFrame (s : State) (dst src : Nat) : Walked s (copyFrame s dst src) := by
  have h := copyBytes_eq s dst src 32768
  unfold copyFrame
  generalize copyBytes s dst src 32768 = s' at h ⊢
  rw [h]
  exact .of_same rfl rfl rfl rfl rfl rfl

theorem walked_returnStorage (s : State) (p fri : Nat) : Walked s (returnStorage s p fri) := by
  have h : ∀ (a : Nat) (C : Tab Cluster) (D : Tab DiePart), Walked s { s with
      egress := s.egress.filter (fun e => !decide (a ≤ e.addr ∧ e.addr < a + 32768))
      ops := s.ops.map (fun o => { o with out := o.out.filter (fun w => !decide (a ≤ w.addr ∧ w.addr < a + 32768)) })
      clusters := C, dieParts := D } :=
    fun a C D => ⟨rfl, rfl, rfl, fun e he => List.mem_of_mem_filter he, rfl, _, rfl⟩
  simp only [returnStorage]
  split
  · exact h _ _ _
  · split
    · split
      · exact h _ _ _
      · split
        · exact h _ _ _
        · exact h _ _ _
    · exact h _ _ _

theorem takeFrame_eq {s s1 : State} {cl p fri f : Nat} (h : takeFrame s cl p fri = some (f, s1)) :
    s1 = { s with clusters := s1.clusters, clParts := s1.clParts, nfree := s1.nfree } := by
  unfold takeFrame at h
  dsimp only at h
  split at h
  · obtain ⟨-, rfl⟩ := Prod.mk.inj (Option.some.inj h)
    rfl
  · split at h
    · exact nomatch h
    · obtain ⟨-, rfl⟩ := Prod.mk.inj (Option.some.inj h)
      rfl

theorem frameInQuota_eq {s s1 : State} {cl p fri f : Nat} (h : frameInQuota s cl p fri = some (f, s1)) :
    s1 = { s with clusters := s1.clusters, clParts := s1.clParts, nfree := s1.nfree } := by
  unfold frameInQuota at h
  split at h
  · exact nomatch h
  · exact takeFrame_eq h

/-- With nothing on its way to it there is nothing to settle. -/
theorem settleFrame_none {s : State} (he : s.egress = []) (ho : ∀ q ∈ s.ops, q.out = []) (a : Nat) : settleFrame s a = s := by
  have hno : ∀ q ∈ s.ops, (q.out.any fun w => decide (a ≤ w.addr ∧ w.addr < a + 32768)) = false := fun q hq => by rw [ho q hq]; rfl
  have hfl : flushOut s (fun o => o.out.any (fun w => decide (a ≤ w.addr ∧ w.addr < a + 32768))) = s := by
    have hnil : (s.ops.filter fun o => o.out.any fun w => decide (a ≤ w.addr ∧ w.addr < a + 32768)) = [] :=
      List.filter_eq_nil_iff.mpr fun q hq => by rw [hno q hq]; decide
    have hmap : listUpd s.ops (fun o => o.out.any fun w => decide (a ≤ w.addr ∧ w.addr < a + 32768)) (fun o => { o with out := [] }) = s.ops := by
      unfold listUpd
      exact (List.map_congr_left fun q hq => if_neg (ne_true_of_eq_false (hno q hq))).trans (List.map_id _)
    unfold flushOut
    rw [hnil, hmap]
    rfl
  rw [settleFrame, hfl, drainOut, he]
  calc drainMarked (wanted (meets a 32768) []) [] s = { s with egress := [] } := rfl
    _ = s := by rw [← he]

/-- What stands in memory once `n` bytes are copied to `dst` and words 0 and 1 of the record name the place. -/
theorem moved_leaves {s s1 s' : State} (hwf : Memory.wf s.mem = true) {p fri dst n : Nat} {bs : List Byte} (hn : bs.length = n) {loc : Word}
    (hm : s1.mem = wrBytes s.mem dst bs) (hp : s1.parts = s.parts) (hd : s'.mem = (setLoc s1 p fri 1 loc).mem) (hp' : s'.parts = s.parts) :
    let r := recAddr s p fri 0
    (∀ a, (a < r ∨ r + 16 ≤ a) → (a < dst ∨ dst + n ≤ a) → rdCell s'.mem a = rdCell s.mem a)
      ∧ (Apart r 16 dst n → recKind s' p fri = 1 ∧ recWord s' p fri 1 = loc ∧ rdBytes s'.mem dst n = bs) := by
  intro r
  have hwf1 : Memory.wf s1.mem = true := hm ▸ wf_wrBytes bs s.mem dst hwf
  obtain ⟨k1, hw, hoff⟩ := setRec0_spec hwf1 p fri 0 2 1
  have hr1 : recAddr s p fri 1 = r + 8 := by
    show frt s p + 32 * fri + 8 * 1 = frt s p + 32 * fri + 8 * 0 + 8
    omega
  have hset : setLoc s1 p fri 1 loc = wr64 (setRec0 s1 p fri 0 2 1) (r + 8) loc := by
    rw [setLoc, recAddr_congr (s := s) hp, hr1]
  rw [recAddr_congr hp] at hoff
  have hrec : ∀ a, (a < r ∨ r + 16 ≤ a) → rdCell s'.mem a = rdCell s1.mem a := fun a ha => by
    rw [hd, hset, rdCell_wr64_off k1 _ _ (by omega), hoff a (by omega)]
  refine ⟨fun a ha hb => by rw [hrec a ha, hm, rdCell_wrBytes _ _ _ _ hwf, hn, if_neg (by omega)], fun hap => ⟨?_, ?_, ?_⟩⟩
  · have hword : recWord s' p fri 0 = recWord (setRec0 s1 p fri 0 2 1) p fri 0 := by
      rw [recWord, recWord, recAddr_congr hp', recAddr_congr (s := s) (s' := setRec0 s1 p fri 0 2 1) hp]
      exact rd64_off fun c hc hc' => by rw [hd, hset, rdCell_wr64_off k1 _ _ (by omega)]
    rw [recKind, hword, hw, setKind_field]
  · rw [recWord, recAddr_congr hp', hr1, rd64_congr hd, hset, rd64_wr64 _ _ _ k1]
  · rw [← rdBytes_wrBytes_same hwf dst bs, ← hm, hn]
    refine rdBytes_congr fun c hc hc' => hrec c ?_
    unfold Apart at hap
    omega

section
variable {s : State} {o : Op} {C : Tab Cluster} {N : Nat} (hn : Names s o) (hready : walkerReady s o = true) (hu : Unhindered s o)
  (hr : isRunning s o.task = true) {l : Leaf}
  (hL : leafAt s o.cl o.pid o.root ((o.args.getD 0 0).toNat / 32768 % 2 ^ 33) = (some l, cached s C N)) (hk : o.kind = .pgfill)
include hn hready hu hr hL hk

/-! ### PGFILL (R159) -/

omit hn hready hu hr in
theorem walkRes_pgfill : walkRes s o = if localRec (cached s C N) o.pid l.fri o.cl then .done 1 (cached s C N)
    else match fillFor (cached s C N) o.cl o.pid l.fri with
      | .error r => r
      | .ok s => .done 0 s := by
  generalize hf : fillFor (cached s C N) o.cl o.pid l.fri = r
  cases r <;> simp only [walkRes, hk, doPage, hL, hf]

theorem pgfill_local (hl : localRec s o.pid l.fri o.cl = true) :
    Performs .walkerOpComplete s (fun s' => Finished s s' o 1 o.flags ∧ SameMem s s') := by
  have hres := walkRes_pgfill hL hk
  rw [if_pos ((localRec_cached ..).trans hl)] at hres
  exact walker_keeps hn hready (walked_cached s C N) hu hr hres rfl rfl

variable (hl : localRec s o.pid l.fri o.cl = false)
include hl

theorem pgfill_elsewhere (hh : heldElsewhere s o.cl o.pid l.fri = true) :
    Performs .walkerOpComplete s (fun s' => Finished s s' o (2 ^ 63 + 2) o.flags ∧ SameMem s s') := by
  have hl' := (localRec_cached s C N o.pid l.fri o.cl).trans hl
  have hres := walkRes_pgfill hL hk
  rw [if_neg (ne_true_of_eq_false hl'), fillFor_elsewhere hl' hh] at hres
  exact walker_keeps hn hready (walked_cached s C N) hu hr hres (errW_toNat 2 (by decide)) rfl

variable (hh : held s o.pid l.fri = false)
include hh

omit hn hready hu hr in
theorem walkRes_pgfill_free : walkRes s o = match makeLocal (cached s C N) o.cl o.pid l.fri with
    | some s => .done 0 s
    | none => wErr 3 (cached s C N) := by
  have hl' := (localRec_cached s C N o.pid l.fri o.cl).trans hl
  have hel : heldElsewhere (cached s C N) o.cl o.pid l.fri = false := by
    rw [held, Bool.not_eq_false', List.isEmpty_iff] at hh
    rw [heldElsewhere_cached, heldElsewhere, hh]
    rfl
  have hres := walkRes_pgfill hL hk
  rw [if_neg (ne_true_of_eq_false hl'), fillFor, if_neg (ne_true_of_eq_false hl'), if_neg (ne_true_of_eq_false hel), held_cached, hh,
    if_neg (by decide)] at hres
  rw [hres]
  generalize makeLocal (cached s C N) o.cl o.pid l.fri = r
  cases r <;> rfl

theorem pgfill_noFrame (hC : CachesOnly s C) (hq : (getCp s o.cl o.pid).quota ≤ framesOf s o.cl o.pid) :
    Performs .walkerOpComplete s (fun s' => Finished s s' o (2 ^ 63 + 3) o.flags ∧ SameMem s s') := by
  have hfr : framesOf (cached s C N) o.cl o.pid = framesOf s o.cl o.pid := by
    obtain ⟨k, hk⟩ := hC o.cl
    rw [framesOf, framesOf, show getClu (cached s C N) o.cl = _ from hk]
  have hnone : frameInQuota (cached s C N) o.cl o.pid l.fri = none := by
    rw [frameInQuota, hfr, show getCp (cached s C N) o.cl o.pid = getCp s o.cl o.pid from rfl, if_pos hq]
  have hres := walkRes_pgfill_free hL hk hl hh
  rw [makeLocal, if_neg (ne_true_of_eq_false ((localRec_cached ..).trans hl)), hnone] at hres
  exact walker_keeps hn hready (walked_cached s C N) hu hr hres (errW_toNat 3 (by decide)) rfl

theorem pgfill_fills {f : Nat} {s1 : State} (hf : frameInQuota (cached s C N) o.cl o.pid l.fri = some (f, s1)) (he : s.egress = [])
    (ho : ∀ q ∈ s.ops, q.out = []) :
    Performs .walkerOpComplete s (fun s' => Finished s s' o 0 o.flags
      ∧ (let r := recAddr s o.pid l.fri 0
         (∀ a, (a < r ∨ r + 16 ≤ a) → (a < sramBase o.cl f ∨ sramBase o.cl f + 32768 ≤ a) → rdCell s'.mem a = rdCell s.mem a)
         ∧ (Apart r 16 (sramBase o.cl f) 32768 → recKind s' o.pid l.fri = 1 ∧ recWord s' o.pid l.fri 1 = sramLoc o.cl f
           ∧ rdBytes s'.mem (sramBase o.cl f) 32768 = rdBytes s.mem (recPhys s o.pid l.fri) 32768))) := by
  have h1 := frameInQuota_eq hf
  have hres := walkRes_pgfill_free hL hk hl hh
  rw [makeLocal, if_neg (ne_true_of_eq_false ((localRec_cached ..).trans hl)), hf] at hres
  have he1 : s1.egress = [] := by rw [h1]; exact he
  have ho1 : ∀ q ∈ s1.ops, q.out = [] := by rw [h1]; exact ho
  have hw1 : Walked s s1 := by rw [h1]; exact .of_same rfl rfl rfl rfl rfl rfl
  have hm1 : s1.mem = s.mem := by rw [h1]; rfl
  have hp1 : s1.parts = s.parts := hw1.parts
  have hphys : recPhys s1 o.pid l.fri = recPhys s o.pid l.fri := by
    rw [recPhys, recPhys, recKind, recKind, recWord_congr hm1 hp1, recWord_congr hm1 hp1]
  dsimp only at hres
  rw [settleFrame_none he1 ho1, hphys] at hres
  have hw2 := hw1.trans (walked_copyFrame s1 (sramBase o.cl f) (recPhys s o.pid l.fri))
  have hm2 : (copyFrame s1 (sramBase o.cl f) (recPhys s o.pid l.fri)).mem
      = wrBytes s.mem (sramBase o.cl f) (rdBytes s.mem (recPhys s o.pid l.fri) 32768) := by rw [copyFrame_mem, hm1]
  generalize copyFrame s1 (sramBase o.cl f) (recPhys s o.pid l.fri) = s2 at hres hw2 hm2
  have hw3 := hw2.trans (walked_returnStorage s2 o.pid l.fri)
  have hm3 := (returnStorage_mem s2 o.pid l.fri).trans hm2
  generalize returnStorage s2 o.pid l.fri = s3 at hres hw3 hm3
  have hw4 : Walked s (invalidate (setLoc s3 o.pid l.fri 1 (sramLoc o.cl f)) o.pid l.fri) := by
    unfold setLoc
    exact hw3.trans ((walked_setRec0 ..).trans ((walked_wr64 ..).trans (walked_invalidate ..)))
  refine walker_ends hn hready hw4 hu hr hres rfl fun hi s' hd => ?_
  exact moved_leaves hi.1 (rdBytes_length ..) hm3 hw3.parts (hd.mem.trans (invalidate_mem ..)) (hd.parts.trans hw4.parts)

end

/-! ### PGUNMAP (R152, R176) -/

/-- The leaf is cleared, and the pin that it held goes. -/
def unmapped (s : State) (p : Nat) (l : Leaf) : State := dropPin (setPte s p l 0 0) p l.fri (ptePin l.pte0)

theorem walked_dropPin (s : State) (p fri : Nat) (b : Bool) : Walked s (dropPin s p fri b) := by
  unfold dropPin
  split
  · exact walked_setRec0 ..
  · exact .refl s

theorem walked_unmapped (s : State) (p : Nat) (l : Leaf) : Walked s (unmapped s p l) := (walked_setPte ..).trans (walked_dropPin ..)

section
variable {s s0 : State} (hwf : Memory.wf s.mem = true) (hm : s0.mem = s.mem) (hp : s0.parts = s.parts) {p : Nat} {l : Leaf}
include hm hp

omit hm in
theorem unmapped_parts : (unmapped s0 p l).parts = s.parts := (walked_unmapped s0 p l).parts.trans hp

variable (hap : Apart l.pteAt 16 (recAddr s p l.fri 0) 32)
include hwf hap

/-- The leaf's words are 0, word 0 of the record has lost a pin where the leaf had one, and nothing else differs. -/
theorem unmapped_leaves : Memory.wf (unmapped s0 p l).mem = true ∧ PteHolds (unmapped s0 p l) l.pteAt 0 0
    ∧ recRef (unmapped s0 p l) p l.fri = recRef s p l.fri
    ∧ recPins (unmapped s0 p l) p l.fri = (if ptePin l.pte0 then recPins s p l.fri - 1 else recPins s p l.fri)
    ∧ recKind (unmapped s0 p l) p l.fri = recKind s p l.fri ∧ recWord (unmapped s0 p l) p l.fri 1 = recWord s p l.fri 1
    ∧ ∀ b, (b < l.pteAt ∨ l.pteAt + 16 ≤ b) → (b < recAddr s p l.fri 0 ∨ recAddr s p l.fri 0 + 8 ≤ b) →
        rdCell (unmapped s0 p l).mem b = rdCell s.mem b := by
  obtain ⟨k1, hpte, hoff⟩ := setPte_spec (s := s0) (hm ▸ hwf) p l 0 0
  have hp1 : (setPte s0 p l 0 0).parts = s.parts := (walked_setPte s0 p l 0 0).parts.trans hp
  have hr1 : recAddr s p l.fri 1 = recAddr s p l.fri 0 + 8 := by
    simp only [recAddr]
  have hword : ∀ i, i ≤ 1 → recWord (setPte s0 p l 0 0) p l.fri i = recWord s p l.fri i := fun i hi => by
    rw [recWord, recWord, recAddr_congr hp1]
    refine rd64_off fun c hc hc' => ?_
    unfold Apart at hap
    obtain rfl | rfl : i = 0 ∨ i = 1 := by omega
    · rw [hoff c (by omega), hm]
    · rw [hoff c (by omega), hm]
  unfold unmapped dropPin
  generalize setPte s0 p l 0 0 = s1 at k1 hpte hoff hp1 hword
  have hpins : recPins s1 p l.fri = recPins s p l.fri := by rw [recPins, hword 0 (by decide), recPins]
  by_cases hpin : ptePin l.pte0 = true
  · rw [if_pos hpin, if_pos hpin, hpins]
    obtain ⟨k2, hw, hoff2⟩ := setRec0_spec k1 p l.fri 32 16 (recPins s p l.fri - 1)
    obtain ⟨h1, h2, h3⟩ := setPins_fields (recWord s1 p l.fri 0) (recPins s p l.fri - 1)
    have hlt := recPins_lt s p l.fri
    have hp2 : (setRec0 s1 p l.fri 32 16 (recPins s p l.fri - 1)).parts = s.parts := hp1
    rw [recAddr_congr hp1] at hoff2
    unfold setPins
    generalize setRec0 s1 p l.fri 32 16 (recPins s p l.fri - 1) = s2 at k2 hw hoff2 hp2
    unfold Apart at hap
    refine ⟨k2, ?_, ?_, ?_, ?_, ?_, fun b hb hb' => by rw [hoff2 b hb', hoff b hb, hm]⟩
    · obtain ⟨e0, e1⟩ := hpte
      exact ⟨(rd64_off fun c hc hc' => hoff2 c (by omega)).trans e0, (rd64_off fun c hc hc' => hoff2 c (by omega)).trans e1⟩
    · rw [recRef, hw, h2, hword 0 (by decide), recRef]
    · rw [recPins, hw, h1, Nat.mod_eq_of_lt (by omega)]
    · rw [recKind, hw, h3, hword 0 (by decide), recKind]
    · rw [← hword 1 (by decide), recWord, recWord, recAddr_congr hp2, recAddr_congr hp1]
      exact rd64_off fun c hc hc' => hoff2 c (by omega)
  · rw [if_neg hpin, if_neg hpin]
    exact ⟨k1, hpte, by rw [recRef, hword 0 (by decide), recRef], hpins, by rw [recKind, hword 0 (by decide), recKind],
      hword 1 (by decide), fun b hb _ => by rw [hoff b hb, hm]⟩

end

theorem unmapLeaf_eq (s : State) (p : Nat) (l : Leaf) : unmapLeaf s p l = match refAdd (unmapped s p l) p l.fri 4 (-1) with
    | none => .stop .refcount s
    | some (_, s3) => .done (BitVec.ofNat 64 l.fri) s3 := by
  have hs : ∀ s1, (if ptePin l.pte0 then setPins s1 p l.fri (recPins s1 p l.fri - 1) else s1) = dropPin s1 p l.fri (ptePin l.pte0) :=
    fun _ => rfl
  simp only [unmapLeaf, hs, unmapped] <;>
    (generalize refAdd (dropPin (setPte s p l 0 0) p l.fri (ptePin l.pte0)) p l.fri 4 (-1) = r
     obtain _ | ⟨_, _⟩ := r <;> rfl)

/-- What an invalidation leaves of a cluster (R155). -/
def invalidated (p fri : Nat) (k : Cluster) : Cluster :=
  { k with tc := k.tc.filter (fun t => !(t.pid == p && t.fri == fri)), icache := k.icache.filter (fun b => !(b.pid == p && b.fri == fri)) }

theorem frames_invalidate (s : State) (p fri c : Nat) : (getClu (invalidate s p fri) c).frames = (getClu s c).frames := by
  have h : getClu (invalidate s p fri) c = ((tabGet s.clusters c).map (invalidated p fri)).getD {} := by
    rw [← tabGet_map]
    rfl
  rw [h, getClu]
  cases tabGet s.clusters c <;> rfl

/-- Returning the storage of a record that names a local frame frees the frame. -/
theorem returnStorage_frame {s : State} {p fri : Nat} (h : recKind s p fri = 1) :
    tabGet (getClu (returnStorage s p fri) (locCluster (recWord s p fri 1))).frames (locFrame (recWord s p fri 1)) = none := by
  have hk : ∀ S : State, S.mem = s.mem → S.parts = s.parts → recKind S p fri = 1 := fun S hm hp => by
    rw [recKind, recWord_congr hm hp]
    exact h
  simp only [returnStorage]
  split
  · rw [dropFrame, getClu_updClu_same]
    exact tabGet_tabDel_same ..
  · next hne => exact absurd (hk _ rfl rfl) hne

theorem held_congr {s s' : State} (hs : s'.strands = s.strands) (hp : s'.parked = s.parked) (hc : s'.clParts = s.clParts) (p fri : Nat) :
    held s' p fri = held s p fri := by
  rw [held, held, heldBy, heldBy, hs, hp, hc]

theorem held_invalidate (s : State) (p f q fri : Nat) : held (invalidate s p f) q fri = held s q fri := held_congr rfl rfl rfl q fri
theorem held_wr64 (s : State) (a : Nat) (x : Word) (q fri : Nat) : held (wr64 s a x) q fri = held s q fri := held_congr rfl rfl rfl q fri

theorem held_unmapped (s : State) (p : Nat) (l : Leaf) (q fri : Nat) : held (unmapped s p l) q fri = held s q fri := by
  have hpte : held (setPte s p l 0 0) q fri = held s q fri := by rw [setPte, held_invalidate, held_wr64, held_wr64]
  unfold unmapped dropPin
  split
  · rw [setPins, setRec0, held_wr64, hpte]
  · exact hpte

/-- A record below the page tables is freed alone (R152). -/
theorem freeRec_leaf {s : State} {p fri : Nat} (h : held s p fri = false) :
    freeRec p 5 4 fri s = some (1, invalidate (setRec0 (returnStorage s p fri) p fri 0 2 0) p fri) := by
  simp only [freeRec, h, Bool.false_eq_true, if_false, show ¬ (4 ≤ 3) by decide, List.foldl_nil, Option.map_some]

section
variable {s : State} {o : Op} {C : Tab Cluster} {N : Nat} (hn : Names s o) (hready : walkerReady s o = true) (hu : Unhindered s o)
  (hr : isRunning s o.task = true) {l : Leaf}
  (hL : leafAt s o.cl o.pid o.root ((o.args.getD 0 0).toNat / 32768 % 2 ^ 33) = (some l, cached s C N)) (hk : o.kind = .pgunmap)
  (hap : Apart l.pteAt 16 (recAddr s o.pid l.fri 0) 32)
include hn hready hu hr hL hk hap

omit hu hr in
theorem pgunmap_unreferenced (h0 : recRef s o.pid l.fri = 0) :
    Performs .walkerOpComplete s (fun s' => OpStopped s s' o 17 (o.args.getD 0 0) 0 ∧ SameMem s s') := by
  intro hi
  obtain ⟨-, -, href, -⟩ := unmapped_leaves (s := s) (s0 := cached s C N) hi.1 rfl rfl hap
  have hres : walkRes s o = .stop .refcount (cached s C N) := by
    simp only [walkRes, hk, doPage, hL, unmapLeaf_eq, refAdd_none (d := -1) (lvl := 4) (p := o.pid) (fri := l.fri)
      (.inl (by rw [href, h0]; decide))]
  exact walker_stops hn hready (walked_cached s C N) hres rfl hi

theorem pgunmap_shared (h1 : 1 < recRef s o.pid l.fri) :
    Performs .walkerOpComplete s (fun s' => Finished s s' o (l.fri % 2 ^ 64) o.flags ∧ WrotePte s s' o.pid l.fri l.pteAt 0 0
      (recRef s o.pid l.fri - 1) (if ptePin l.pte0 then recPins s o.pid l.fri - 1 else recPins s o.pid l.fri)) := by
  intro hi
  obtain ⟨k, hpte, href, hpins, -, -, hoff⟩ := unmapped_leaves (s := s) (s0 := cached s C N) hi.1 rfl rfl hap
  have hp : (unmapped (cached s C N) o.pid l).parts = s.parts := unmapped_parts (s0 := cached s C N) rfl
  have hw := (walked_cached s C N).trans (walked_unmapped (cached s C N) o.pid l)
  have hlt := recRef_lt s o.pid l.fri
  have hres : walkRes s o = .done (BitVec.ofNat 64 l.fri) (setRef (unmapped (cached s C N) o.pid l) o.pid l.fri (recRef s o.pid l.fri - 1)) := by
    simp only [walkRes, hk, doPage, hL, unmapLeaf_eq, refAdd_some (d := -1) (lvl := 4) (p := o.pid) (fri := l.fri)
      (n := recRef s o.pid l.fri - 1) (s := unmapped (cached s C N) o.pid l) (by omega) (by omega) (by rw [href]; omega)]
  generalize unmapped (cached s C N) o.pid l = s2 at *
  refine walker_ends hn hready (hw.trans (walked_setRec0 ..)) hu hr hres (BitVec.toNat_ofNat ..) (fun _ s' hd => ?_) hi
  obtain ⟨-, hword, hoff2⟩ := setRec0_spec k o.pid l.fri 16 16 (recRef s o.pid l.fri - 1)
  obtain ⟨f1, f2, -⟩ := setRef_fields (recWord s2 o.pid l.fri 0) (recRef s o.pid l.fri - 1)
  rw [recAddr_congr hp] at hoff2
  unfold Apart at hap
  refine wrotePte_of (fun b hb hb' => by rw [hd.mem, hoff2 b hb', hoff b hb hb']) fun _ => ⟨?_, ?_, ?_⟩
  · obtain ⟨e0, e1⟩ := hpte
    refine pteHolds_congr (s1 := setRec0 s2 o.pid l.fri 16 16 (recRef s o.pid l.fri - 1)) ⟨?_, ?_⟩ hd.mem
    · exact (rd64_off fun c hc hc' => hoff2 c (by omega)).trans e0
    · exact (rd64_off fun c hc hc' => hoff2 c (by omega)).trans e1
  · rw [recRef, recWord_congr hd.mem hd.parts, hword, f1, Nat.mod_eq_of_lt (by omega)]
  · rw [recPins, recWord_congr hd.mem hd.parts, hword, f2, ← recPins, hpins]

theorem pgunmap_last (h1 : recRef s o.pid l.fri = 1) (hh : held s o.pid l.fri = false) (hkind : recKind s o.pid l.fri = 1) :
    Performs .walkerOpComplete s (fun s' => Finished s s' o (l.fri % 2 ^ 64) o.flags ∧ PteHolds s' l.pteAt 0 0 ∧ recKind s' o.pid l.fri = 0
      ∧ SameMemOff [l.pteAt, l.pteAt + 8, recAddr s o.pid l.fri 0] 8 s s'
      ∧ tabGet (getClu s' (locCluster (recWord s o.pid l.fri 1))).frames (locFrame (recWord s o.pid l.fri 1)) = none) := by
  intro hi
  obtain ⟨k, hpte, href, hpins, hkd, hw1, hoff⟩ := unmapped_leaves (s := s) (s0 := cached s C N) hi.1 rfl rfl hap
  have hp : (unmapped (cached s C N) o.pid l).parts = s.parts := unmapped_parts (s0 := cached s C N) rfl
  have hw := (walked_cached s C N).trans (walked_unmapped (cached s C N) o.pid l)
  have hheld : held (setRec0 (unmapped (cached s C N) o.pid l) o.pid l.fri 16 16 0) o.pid l.fri = false :=
    (held_wr64 ..).trans ((held_unmapped ..).trans hh)
  have hlast := refAdd_last (lvl := 4) (d := -1) (s := unmapped (cached s C N) o.pid l) (p := o.pid) (fri := l.fri) (by rw [href, h1]; decide)
  have hres : walkRes s o = unmapLeaf (cached s C N) o.pid l := by simp only [walkRes, hk, doPage, hL]
  rw [unmapLeaf_eq, hlast, setRef, freeRec_leaf hheld] at hres
  generalize unmapped (cached s C N) o.pid l = s2 at *
  obtain ⟨k3, hword, hoff2⟩ := setRec0_spec k o.pid l.fri 16 16 0
  obtain ⟨-, -, f3⟩ := setRef_fields (recWord s2 o.pid l.fri 0) 0
  have hp3 : (setRec0 s2 o.pid l.fri 16 16 0).parts = s.parts := hp
  have hw3 := hw.trans (walked_setRec0 s2 o.pid l.fri 16 16 0)
  have hkind3 : recKind (setRec0 s2 o.pid l.fri 16 16 0) o.pid l.fri = 1 := by rw [recKind, hword, f3, ← recKind, hkd, hkind]
  rw [recAddr_congr hp] at hoff2
  have hword1 : recWord (setRec0 s2 o.pid l.fri 16 16 0) o.pid l.fri 1 = recWord s o.pid l.fri 1 := by
    rw [← hw1, recWord, recWord, recAddr_congr hp3, recAddr_congr hp]
    refine rd64_off fun c hc hc' => hoff2 c ?_
    simp only [recAddr] at hc ⊢
    omega
  have hpte3 : PteHolds (setRec0 s2 o.pid l.fri 16 16 0) l.pteAt 0 0 := by
    obtain ⟨e0, e1⟩ := hpte
    unfold Apart at hap
    exact ⟨(rd64_off fun c hc hc' => hoff2 c (by omega)).trans e0, (rd64_off fun c hc hc' => hoff2 c (by omega)).trans e1⟩
  have hoff3 : ∀ b, (b < l.pteAt ∨ l.pteAt + 16 ≤ b) → (b < recAddr s o.pid l.fri 0 ∨ recAddr s o.pid l.fri 0 + 8 ≤ b) →
      rdCell (setRec0 s2 o.pid l.fri 16 16 0).mem b = rdCell s.mem b := fun b hb hb' => by rw [hoff2 b hb', hoff b hb hb']
  generalize setRec0 s2 o.pid l.fri 16 16 0 = s3 at k3 hp3 hw3 hkind3 hword1 hpte3 hoff3 hres
  have hfr := returnStorage_frame hkind3
  rw [hword1] at hfr
  have hw4 := hw3.trans (walked_returnStorage s3 o.pid l.fri)
  have hm4 := returnStorage_mem s3 o.pid l.fri
  generalize returnStorage s3 o.pid l.fri = s4 at hfr hw4 hm4 hres
  refine walker_ends hn hready (hw4.trans ((walked_setRec0 ..).trans (walked_invalidate ..))) hu hr hres (BitVec.toNat_ofNat ..) (fun _ s' hd => ?_) hi
  obtain ⟨-, hword4, hoff4⟩ := setRec0_spec (s := s4) (hm4 ▸ k3) o.pid l.fri 0 2 0
  rw [recAddr_congr hw4.parts] at hoff4
  have hmem : s'.mem = (setRec0 s4 o.pid l.fri 0 2 0).mem := hd.mem.trans (invalidate_mem ..)
  unfold Apart at hap
  refine ⟨?_, ?_, fun b hb => ?_, ?_⟩
  · obtain ⟨e0, e1⟩ := hpte3
    exact ⟨(rd64_off fun c hc hc' => by rw [hmem, hoff4 c (by omega), hm4]).trans e0,
      (rd64_off fun c hc hc' => by rw [hmem, hoff4 c (by omega), hm4]).trans e1⟩
  · rw [recKind, recWord_congr hmem hd.parts, hword4, setKind_field]
  · have hrec := hb _ (List.mem_cons_of_mem _ (List.mem_cons_of_mem _ List.mem_cons_self))
    rw [hmem, hoff4 b hrec, hm4, hoff3 b (rdCell_offPte fun q hq => hb q (by simp only [List.mem_cons, List.not_mem_nil, or_false] at hq ⊢; omega)) hrec]
  · rw [hd.getClu, frames_invalidate]
    exact hfr

end

/-! ### The path of a page (R147) -/

theorem pathTo_cached {s : State} {p root vpn a : Nat} (h : PathTo s p root vpn a) (C : Tab Cluster) (N : Nat) :
    PathTo (cached s C N) p root vpn a := h

/-- Where every node of the path is there, it is kept. -/
theorem ensurePath_of_path {s : State} {p root vpn a : Nat} (h : PathTo s p root vpn a) (cl : Nat) :
    ensurePath s cl p root vpn = some (a, s) := by
  obtain ⟨r, n2, n3, hw, rfl⟩ := h
  simp only [walkNodes] at hw
  split at hw
  · exact nomatch hw
  · split at hw
    · exact nomatch hw
    · next h1 =>
      split at hw
      · exact nomatch hw
      · next h2 =>
        rw [Bool.not_eq_true', Bool.not_eq_false] at h1 h2
        obtain ⟨rfl, rfl, rfl⟩ : rootOf s p root = r ∧ _ = n2 ∧ _ = n3 := by simpa using hw
        simp only [ensurePath, if_pos h1, if_pos h2]

theorem putLeaf_mem (s : State) (a attr fri : Nat) (w1 : Word) :
    (putLeaf s a attr fri w1).mem = (wr64 (wr64 s a (BitVec.ofNat 64 (1 + attr + 2 ^ 32 * fri))) (a + 8) w1).mem := rfl

/-- The mapped state: one reference more, and the leaf at its place. -/
def mappedTo (s : State) (p a fri attr : Nat) (w1 : Word) : State :=
  invalidate (putLeaf (setRef s p fri (recRef s p fri + 1)) a attr fri w1) p fri

section
variable {s : State} {p root vpn a fri : Nat} (h : PathTo s p root vpn a) (cl attr : Nat) (w1 : Word)
include h

theorem mapRec_full (hf : 65535 ≤ recRef s p fri) : mapRec s cl p root vpn fri attr w1 = .stop .refcount s := by
  simp only [mapRec, ensurePath_of_path h, refAdd_none (d := 1) (lvl := 4) (s := s) (p := p) (fri := fri) (.inr (by omega))]

theorem mapRec_room (hwf : Memory.wf s.mem = true) (hf : recRef s p fri < 65535) :
    mapRec s cl p root vpn fri attr w1 = .done (BitVec.ofNat 64 (recRef s p fri + 1)) (mappedTo s p a fri attr w1) := by
  obtain ⟨-, hw, -⟩ := setRec0_spec hwf p fri 16 16 (recRef s p fri + 1)
  obtain ⟨f1, -, -⟩ := setRef_fields (recWord s p fri 0) (recRef s p fri + 1)
  have href : recRef (setRef s p fri (recRef s p fri + 1)) p fri = recRef s p fri + 1 := by
    rw [recRef, setRef, hw, f1, Nat.mod_eq_of_lt (by omega)]
  simp only [mapRec, ensurePath_of_path h, refAdd_some (d := 1) (lvl := 4) (s := s) (p := p) (fri := fri)
    (n := recRef s p fri + 1) (by omega) (by omega) (by omega), href]
  rfl

end

theorem walked_mappedTo (s : State) (p a fri attr : Nat) (w1 : Word) : Walked s (mappedTo s p a fri attr w1) := by
  unfold mappedTo putLeaf
  exact (walked_setRec0 ..).trans ((walked_wr64 ..).trans ((walked_wr64 ..).trans (walked_invalidate ..)))

/-- What mapping a page leaves of memory (R152, R176). -/
theorem mappedTo_leaves {s s0 : State} (hwf : Memory.wf s.mem = true) (hm : s0.mem = s.mem) (hp : s0.parts = s.parts) (p a fri attr : Nat)
    (w1 : Word) (hf : recRef s p fri < 65535) : let s' := mappedTo s0 p a fri attr w1
    Memory.wf s'.mem = true ∧ PteHolds s' a (BitVec.ofNat 64 (1 + attr + 2 ^ 32 * fri)) w1
      ∧ (∀ b, (b < a ∨ a + 16 ≤ b) → (b < recAddr s p fri 0 ∨ recAddr s p fri 0 + 8 ≤ b) → rdCell s'.mem b = rdCell s.mem b)
      ∧ (Apart a 16 (recAddr s p fri 0) 8 → recRef s' p fri = recRef s p fri + 1) := by
  have href : recRef s0 p fri = recRef s p fri := by rw [recRef, recWord_congr hm hp, recRef]
  obtain ⟨k, hw, hoff⟩ := setRec0_spec (s := s0) (hm ▸ hwf) p fri 16 16 (recRef s p fri + 1)
  obtain ⟨f1, -, -⟩ := setRef_fields (recWord s0 p fri 0) (recRef s p fri + 1)
  have hp2 : (setRec0 s0 p fri 16 16 (recRef s p fri + 1)).parts = s.parts := hp
  rw [recAddr_congr hp] at hoff
  intro s'
  have hs' : s' = invalidate (putLeaf (setRec0 s0 p fri 16 16 (recRef s p fri + 1)) a attr fri w1) p fri := by
    rw [← href]
    rfl
  have hp' : s'.parts = s.parts := (walked_mappedTo ..).parts.trans hp
  generalize s' = t at hs' hp'
  generalize setRec0 s0 p fri 16 16 (recRef s p fri + 1) = s2 at *
  have hmem : t.mem = (wr64 (wr64 s2 a (BitVec.ofNat 64 (1 + attr + 2 ^ 32 * fri))) (a + 8) w1).mem := by
    rw [hs', invalidate_mem, putLeaf_mem]
  have k1 := inv_wr64 s2 a (BitVec.ofNat 64 (1 + attr + 2 ^ 32 * fri)) k
  have hpte : ∀ b, (b < a ∨ a + 16 ≤ b) → rdCell t.mem b = rdCell s2.mem b := fun b hb => by
    rw [hmem, rdCell_wr64_off k1 _ _ (by omega), rdCell_wr64_off k _ _ (by omega)]
  refine ⟨hmem ▸ inv_wr64 _ _ _ k1, ⟨?_, ?_⟩, fun b hb hb' => by rw [hpte b hb, hoff b hb', hm], fun hap => ?_⟩
  · rw [rd64_congr hmem, rd64_wr64_apart k1 (.inr (Nat.le_refl _)), rd64_wr64 _ _ _ k]
  · rw [rd64_congr hmem, rd64_wr64 _ _ _ k1]
  · have hword : recWord t p fri 0 = recWord s2 p fri 0 := by
      rw [recWord, recWord, recAddr_congr hp', recAddr_congr hp2]
      unfold Apart at hap
      exact rd64_off fun c hc hc' => hpte c (by omega)
    rw [recRef, hword, hw, f1, Nat.mod_eq_of_lt (by omega)]

/-- Two leaves and word 0 of a record. -/
theorem rdCell_offPtes {a c r b : Nat} (h : ∀ p ∈ [a, a + 8, c, c + 8, r], b < p ∨ p + 8 ≤ b) :
    (b < a ∨ a + 16 ≤ b) ∧ (b < c ∨ c + 16 ≤ b) ∧ (b < r ∨ r + 8 ≤ b) := by
  have h1 := h a (by simp)
  have h2 := h (a + 8) (by simp)
  have h3 := h c (by simp)
  have h4 := h (c + 8) (by simp)
  exact ⟨by omega, by omega, h r (by simp)⟩

/-- What a request for a second mapping of leaf `l` comes to, once its page has a place (R152, R319). -/
def spliceRes (p : Nat) (l : Leaf) : WalkRes → WalkRes
  | .done x s' => if x.toNat / 2 ^ 63 = 1 then .done x s' else .done (BitVec.ofNat 64 l.fri) (setPte s' p l (l.pte0 ||| 8#64) l.pte1)
  | r => r

theorem spliceRes_room {p : Nat} {l : Leaf} {n : Nat} (h : n ≤ 65535) (s1 : State) :
    spliceRes p l (.done (BitVec.ofNat 64 n) s1) = .done (BitVec.ofNat 64 l.fri) (setPte s1 p l (l.pte0 ||| 8#64) l.pte1) := by
  have hn : (BitVec.ofNat 64 n).toNat / 2 ^ 63 ≠ 1 := by
    rw [BitVec.toNat_ofNat]
    omega
  exact if_neg hn

section
variable {s : State} {o : Op} {C : Tab Cluster} {N : Nat} (hn : Names s o) (hready : walkerReady s o = true) (hu : Unhindered s o)
  (hr : isRunning s o.task = true)
include hn hready hu hr

/-! ### PGFREE (R152) -/

section
variable {x : Option Leaf} (hL : leafAt s o.cl o.pid o.root ((o.args.getD 0 0).toNat / 32768 % 2 ^ 33) = (x, cached s C N)) (hk : o.kind = .pgfree)
include hL hk

theorem pgfree_bad (h : friOk s o.pid (o.args.getD 0 0).toNat = false) :
    Performs .walkerOpComplete s (fun s' => Finished s s' o (2 ^ 63 + 4) o.flags ∧ SameMem s s') := by
  have hres : walkRes s o = wErr 4 (cached s C N) := by
    have hno : (!friOk (cached s C N) o.pid (o.args.getD 0 0).toNat) = true ∨ nfr (cached s C N) o.pid ≤ (o.args.getD 0 0).toNat :=
      .inl (by rw [show friOk (cached s C N) o.pid (o.args.getD 0 0).toNat = friOk s o.pid (o.args.getD 0 0).toNat from rfl, h]; rfl)
    simp only [walkRes, hk, doPage, hL, if_pos hno]
  exact walker_keeps hn hready (walked_cached s C N) hu hr hres (errW_toNat 4 (by decide)) rfl

variable (hok : friOk s o.pid (o.args.getD 0 0).toNat = true)
include hok

omit hn hready hu hr in
theorem walkRes_pgfree : walkRes s o = match refAdd (cached s C N) o.pid (o.args.getD 0 0).toNat 1 (-1) with
    | none => .stop .refcount (cached s C N)
    | some (n, s) => .done (BitVec.ofNat 64 n) s := by
  have hlt : (o.args.getD 0 0).toNat < nfr s o.pid := by
    simp only [friOk, Bool.and_eq_true, decide_eq_true_eq] at hok
    exact hok.1.2
  have hyes : ¬ ((!friOk (cached s C N) o.pid (o.args.getD 0 0).toNat) = true ∨ nfr (cached s C N) o.pid ≤ (o.args.getD 0 0).toNat) := by
    rw [show friOk (cached s C N) o.pid (o.args.getD 0 0).toNat = friOk s o.pid (o.args.getD 0 0).toNat from rfl, hok]
    rintro (h | h)
    · exact absurd h (by decide)
    · exact Nat.not_le_of_lt hlt h
  generalize hf : refAdd (cached s C N) o.pid (o.args.getD 0 0).toNat 1 (-1) = r
  obtain _ | ⟨_, _⟩ := r <;> simp only [walkRes, hk, doPage, hL, if_neg hyes, hf]

omit hu hr in
theorem pgfree_unreferenced (h0 : recRef s o.pid (o.args.getD 0 0).toNat = 0) :
    Performs .walkerOpComplete s (fun s' => OpStopped s s' o 17 (o.args.getD 0 0) 0 ∧ SameMem s s') := by
  have hres := walkRes_pgfree hL hk hok
  rw [refAdd_none (.inl (by rw [recRef_cached, h0]; decide))] at hres
  exact walker_stops hn hready (walked_cached s C N) hres rfl

theorem pgfree_shared (h1 : 1 < recRef s o.pid (o.args.getD 0 0).toNat) :
    Performs .walkerOpComplete s (fun s' => Finished s s' o 0 o.flags
      ∧ recRef s' o.pid (o.args.getD 0 0).toNat = recRef s o.pid (o.args.getD 0 0).toNat - 1
      ∧ SameMemOff [recAddr s o.pid (o.args.getD 0 0).toNat 0] 8 s s') := by
  have hres := walkRes_pgfree hL hk hok
  generalize (o.args.getD 0 0).toNat = fri at *
  have hlt := recRef_lt s o.pid fri
  rw [refAdd_some (n := recRef s o.pid fri - 1) (by omega) (by omega) (by rw [recRef_cached]; omega)] at hres
  refine walker_ends hn hready ((walked_cached s C N).trans (walked_setRec0 ..)) hu hr hres rfl fun hi s' hd => ?_
  obtain ⟨-, hw, hoff⟩ := setRec0_spec (s := cached s C N) hi.1 o.pid fri 16 16 (recRef s o.pid fri - 1)
  obtain ⟨f1, -, -⟩ := setRef_fields (recWord (cached s C N) o.pid fri 0) (recRef s o.pid fri - 1)
  exact ⟨by rw [recRef, recWord_congr hd.mem hd.parts, hw, f1, Nat.mod_eq_of_lt (by omega)],
    fun b hb => by rw [hd.mem, hoff b (hb _ List.mem_cons_self)]; rfl⟩

/-- A node without children is freed alone (R152). -/
theorem pgfree_last (h1 : recRef s o.pid (o.args.getD 0 0).toNat = 1) (hh : held s o.pid (o.args.getD 0 0).toNat = false)
    (hkids : nodeKids (setRef s o.pid (o.args.getD 0 0).toNat 0) o.pid 1 (o.args.getD 0 0).toNat = []) :
    Performs .walkerOpComplete s (fun s' => Finished s s' o 1 o.flags ∧ recKind s' o.pid (o.args.getD 0 0).toNat = 0
      ∧ SameMemOff [recAddr s o.pid (o.args.getD 0 0).toNat 0] 8 s s') := by
  have hres := walkRes_pgfree hL hk hok
  generalize (o.args.getD 0 0).toNat = fri at *
  have hheld : held (setRef (cached s C N) o.pid fri 0) o.pid fri = false := (held_wr64 ..).trans hh
  have hkids' : nodeKids (setRef (cached s C N) o.pid fri 0) o.pid 1 fri = [] := hkids
  rw [refAdd_last (by rw [recRef_cached, h1]; decide), freeRec, if_neg (ne_true_of_eq_false hheld), if_pos (by decide), hkids'] at hres
  simp only [List.foldl_nil, Option.map_some] at hres
  have hw := (walked_cached s C N).trans (walked_setRec0 (cached s C N) o.pid fri 16 16 0)
  refine walker_ends hn hready (hw.trans ((walked_returnStorage ..).trans ((walked_setRec0 ..).trans (walked_invalidate ..)))) hu hr hres rfl
    fun hi s' hd => ?_
  obtain ⟨k, -, hoff⟩ := setRec0_spec (s := cached s C N) hi.1 o.pid fri 16 16 0
  have hm2 := returnStorage_mem (setRec0 (cached s C N) o.pid fri 16 16 0) o.pid fri
  have hp2 := (hw.trans (walked_returnStorage (setRec0 (cached s C N) o.pid fri 16 16 0) o.pid fri)).parts
  unfold setRef at hd
  generalize returnStorage (setRec0 (cached s C N) o.pid fri 16 16 0) o.pid fri = s2 at hm2 hp2 hd
  obtain ⟨-, hword, hoff2⟩ := setRec0_spec (s := s2) (hm2 ▸ k) o.pid fri 0 2 0
  have hmem : s'.mem = (setRec0 s2 o.pid fri 0 2 0).mem := hd.mem.trans (invalidate_mem ..)
  rw [recAddr_congr hp2] at hoff2
  exact ⟨by rw [recKind, recWord_congr hmem hd.parts, hword, setKind_field],
    fun b hb => by rw [hmem, hoff2 b (hb _ List.mem_cons_self), hm2, hoff b (hb _ List.mem_cons_self)]; rfl⟩

end

/-! ### PGMAP (R176) -/

section
variable {x : Option Leaf} (hL : leafAt s o.cl o.pid o.root ((o.args.getD 0 0).toNat / 32768 % 2 ^ 33) = (x, cached s C N)) (hk : o.kind = .pgmap)
include hL hk

theorem pgmap_bad (h : friOk s o.pid (o.args.getD 1 0).toNat = false) :
    Performs .walkerOpComplete s (fun s' => Finished s s' o (2 ^ 63 + 4) o.flags ∧ SameMem s s') := by
  have hno : nfr (cached s C N) o.pid ≤ (o.args.getD 1 0).toNat ∨ (!friOk (cached s C N) o.pid (o.args.getD 1 0).toNat) = true :=
    .inr (by rw [show friOk (cached s C N) o.pid (o.args.getD 1 0).toNat = friOk s o.pid (o.args.getD 1 0).toNat from rfl, h]; rfl)
  have hres : walkRes s o = wErr 4 (cached s C N) := by simp only [walkRes, hk, doPage, hL, if_pos hno]
  exact walker_keeps hn hready (walked_cached s C N) hu hr hres (errW_toNat 4 (by decide)) rfl

variable (hok : friOk s o.pid (o.args.getD 1 0).toNat = true)
include hok

omit hn hready hu hr in
theorem walkRes_pgmap : walkRes s o = if x.isSome then wErr 6 (cached s C N) else mapRec (cached s C N) o.cl o.pid o.root
    ((o.args.getD 0 0).toNat / 32768 % 2 ^ 33) (o.args.getD 1 0).toNat (2 * (o.args.getD 2 0).toNat &&& 0x1EE) 0 := by
  have hlt : (o.args.getD 1 0).toNat < nfr s o.pid := by
    simp only [friOk, Bool.and_eq_true, decide_eq_true_eq] at hok
    exact hok.1.2
  have hyes : ¬ (nfr (cached s C N) o.pid ≤ (o.args.getD 1 0).toNat ∨ (!friOk (cached s C N) o.pid (o.args.getD 1 0).toNat) = true) := by
    rw [show friOk (cached s C N) o.pid (o.args.getD 1 0).toNat = friOk s o.pid (o.args.getD 1 0).toNat from rfl, hok]
    rintro (h | h)
    · exact Nat.not_le_of_lt hlt h
    · exact absurd h (by decide)
  simp only [walkRes, hk, doPage, hL, if_neg hyes]

theorem pgmap_mapped (h : x ≠ none) :
    Performs .walkerOpComplete s (fun s' => Finished s s' o (2 ^ 63 + 6) o.flags ∧ SameMem s s') := by
  have hres := walkRes_pgmap hL hk hok
  rw [if_pos (Option.isSome_iff_ne_none.mpr h)] at hres
  exact walker_keeps hn hready (walked_cached s C N) hu hr hres (errW_toNat 6 (by decide)) rfl

variable (hx : x = none) {a : Nat} (hpath : PathTo s o.pid o.root ((o.args.getD 0 0).toNat / 32768 % 2 ^ 33) a)
include hx hpath

theorem pgmap_maps (h : recRef s o.pid (o.args.getD 1 0).toNat < 65535) :
    Performs .walkerOpComplete s (fun s' => Finished s s' o (recRef s o.pid (o.args.getD 1 0).toNat + 1) o.flags
      ∧ SameMemOff [a, a + 8, recAddr s o.pid (o.args.getD 1 0).toNat 0] 8 s s'
      ∧ PteHolds s' a (BitVec.ofNat 64 (1 + (2 * (o.args.getD 2 0).toNat &&& 0x1EE) + 2 ^ 32 * (o.args.getD 1 0).toNat)) 0
      ∧ (Apart a 16 (recAddr s o.pid (o.args.getD 1 0).toNat 0) 8 →
          recRef s' o.pid (o.args.getD 1 0).toNat = recRef s o.pid (o.args.getD 1 0).toNat + 1)) := by
  intro hi
  have hres := walkRes_pgmap hL hk hok
  rw [hx, if_neg (by decide), mapRec_room (pathTo_cached hpath C N) _ _ _ hi.1 ((recRef_cached ..).trans_lt h), recRef_cached] at hres
  refine walker_ends hn hready ((walked_cached s C N).trans (walked_mappedTo ..)) hu hr hres ?_ (fun _ s' hd => ?_) hi
  · rw [BitVec.toNat_ofNat]
    omega
  · obtain ⟨-, hpte, hoff, href⟩ := mappedTo_leaves (s0 := cached s C N) hi.1 rfl rfl o.pid a (o.args.getD 1 0).toNat
      (2 * (o.args.getD 2 0).toNat &&& 0x1EE) 0 h
    refine ⟨fun b hb => ?_, pteHolds_congr hpte hd.mem, fun hap => ?_⟩
    · rw [hd.mem, hoff b (rdCell_offPte fun q hq => hb q (by simp only [List.mem_cons, List.not_mem_nil, or_false] at hq ⊢; omega))
        (hb _ (by simp))]
    · rw [← href hap, recRef, recWord_congr hd.mem hd.parts, recRef]

omit hu hr in
theorem pgmap_full (h : 65535 ≤ recRef s o.pid (o.args.getD 1 0).toNat) :
    Performs .walkerOpComplete s (fun s' => OpStopped s s' o 17 (o.args.getD 0 0) 0 ∧ SameMem s s') := by
  have hres := walkRes_pgmap hL hk hok
  rw [hx, if_neg (by decide), mapRec_full (pathTo_cached hpath C N) _ _ _ ((recRef_cached ..).symm ▸ h)] at hres
  exact walker_stops hn hready (walked_cached s C N) hres rfl

end
end

/-- The second word of a spliced leaf (R319). -/
theorem spliceWord_eq (w old : Word) : spliceWord w old = BitVec.ofNat 64 (ptePos w + 2 ^ 40 * pteFill old + 2 ^ 48 * pteHgrp w) := by
  have hp : ptePos w < 2 ^ 40 := Nat.mod_lt _ (by decide)
  have hf : pteFill old < 2 ^ 8 := Nat.mod_lt _ (by decide)
  have hh : pteHgrp w < 2 ^ 8 := Nat.mod_lt _ (by decide)
  refine BitVec.eq_of_toNat_eq ?_
  rw [spliceWord, setField_toNat _ _ (by decide), setField_toNat _ _ (by decide), setField_toNat _ _ (by decide), BitVec.toNat_ofNat,
    show (0 : Word).toNat = 0 from rfl]
  omega

section
variable {s : State} {o : Op} {C : Tab Cluster} {N : Nat} (hn : Names s o) (hready : walkerReady s o = true) (hu : Unhindered s o)
  (hr : isRunning s o.task = true)
include hn hready hu hr

/-! ### PGCOW and KVSPLICE (R176, R319) -/

/-- The leaf that is mapped a second time has COW, and its record one reference more. -/
theorem second_mapping {l : Leaf} {w1 : Word} {a vpn : Nat} (hpath : PathTo s o.pid o.root vpn a)
    (hres : walkRes s o = spliceRes o.pid l (mapRec (cached s C N) o.cl o.pid o.root vpn l.fri (pteAttr l.pte0 ||| 8) w1))
    (h : recRef s o.pid l.fri < 65535) (h31 : l.fri < 2 ^ 31) :
    Performs .walkerOpComplete s (fun s' => Finished s s' o l.fri o.flags
      ∧ SameMemOff [a, a + 8, l.pteAt, l.pteAt + 8, recAddr s o.pid l.fri 0] 8 s s'
      ∧ PteHolds s' l.pteAt (l.pte0 ||| 8) l.pte1
      ∧ (Apart a 16 l.pteAt 16 → PteHolds s' a (BitVec.ofNat 64 (1 + (pteAttr l.pte0 ||| 8) + 2 ^ 32 * l.fri)) w1)
      ∧ (Apart a 16 (recAddr s o.pid l.fri 0) 8 → Apart l.pteAt 16 (recAddr s o.pid l.fri 0) 8 →
          recRef s' o.pid l.fri = recRef s o.pid l.fri + 1)) := by
  intro hi
  rw [mapRec_room (pathTo_cached hpath C N) _ _ _ hi.1 ((recRef_cached ..).trans_lt h), recRef_cached, spliceRes_room (by omega)] at hres
  obtain ⟨k, hpte, hoff, href⟩ := mappedTo_leaves (s0 := cached s C N) hi.1 rfl rfl o.pid a l.fri (pteAttr l.pte0 ||| 8) w1 h
  have hw := (walked_cached s C N).trans (walked_mappedTo (cached s C N) o.pid a l.fri (pteAttr l.pte0 ||| 8) w1)
  generalize mappedTo (cached s C N) o.pid a l.fri (pteAttr l.pte0 ||| 8) w1 = s2 at *
  refine walker_ends hn hready (hw.trans (walked_setPte ..)) hu hr hres ?_ (fun _ s' hd => ?_) hi
  · rw [BitVec.toNat_ofNat]
    omega
  · obtain ⟨-, hpte2, hoff2⟩ := setPte_spec k o.pid l (l.pte0 ||| 8#64) l.pte1
    refine ⟨fun b hb => ?_, pteHolds_congr hpte2 hd.mem, fun hap => ?_, fun hap hap' => ?_⟩
    · obtain ⟨h1, h2, h3⟩ := rdCell_offPtes hb
      rw [hd.mem, hoff2 b h2, hoff b h1 h3]
    · obtain ⟨e0, e1⟩ := hpte
      unfold Apart at hap
      exact ⟨(rd64_off fun c hc hc' => by rw [hd.mem, hoff2 c (by omega)]).trans e0,
        (rd64_off fun c hc hc' => by rw [hd.mem, hoff2 c (by omega)]).trans e1⟩
    · have hp' : s'.parts = s.parts := hd.parts.trans ((walked_setPte s2 o.pid l _ _).parts.trans hw.parts)
      have hword : rd64 s' (recAddr s o.pid l.fri 0) = rd64 s2 (recAddr s o.pid l.fri 0) := rd64_off fun c hc hc' => by
        unfold Apart at hap'
        rw [hd.mem, hoff2 c (by omega)]
      rw [← href hap, recRef, recRef, recWord, recWord, recAddr_congr hp', recAddr_congr hw.parts, hword]

omit hn hready hu hr in
theorem walkRes_pgcow (hL : leafAt s o.cl o.pid o.root ((o.args.getD 0 0).toNat / 32768 % 2 ^ 33) = (none, cached s C N)) (hk : o.kind = .pgcow) :
    walkRes s o = match leafAt (cached s C N) o.cl o.pid o.root ((o.args.getD 1 0).toNat / 32768 % 2 ^ 33) with
      | (none, s1) => wErr 5 s1
      | (some l, s1) => spliceRes o.pid l (mapRec s1 o.cl o.pid o.root ((o.args.getD 0 0).toNat / 32768 % 2 ^ 33) l.fri
          (pteAttr l.pte0 ||| 8) l.pte1) := by
  generalize h2 : leafAt (cached s C N) o.cl o.pid o.root ((o.args.getD 1 0).toNat / 32768 % 2 ^ 33) = r
  obtain ⟨_ | l, s1⟩ := r
  · simp only [walkRes, hk, doPage, hL, h2, Option.isSome_none, Bool.false_eq_true, if_false]
  · simp only [walkRes, hk, doPage, hL, h2, Option.isSome_none, Bool.false_eq_true, if_false]
    generalize mapRec s1 o.cl o.pid o.root _ l.fri _ l.pte1 = m
    cases m <;> rfl

omit hn hready hu hr in
theorem va48_page (w : Word) : va48 w / 32768 = w.toNat / 32768 % 2 ^ 33 := by
  unfold va48
  omega

omit hn hready hu hr in
theorem walkRes_kvsplice (hk : o.kind = .kvsplice) (hb : spliceBad (o.args.getD 2 0) = false)
    (h0 : walk s o.pid o.root ((o.args.getD 0 0).toNat % 2 ^ 48 / 32768) = none) :
    walkRes s o = match walk s o.pid o.root ((o.args.getD 1 0).toNat % 2 ^ 48 / 32768) with
      | none => wErr 5 s
      | some l => spliceRes o.pid l (mapRec s o.cl o.pid o.root ((o.args.getD 0 0).toNat / 32768 % 2 ^ 33) l.fri
          (pteAttr l.pte0 ||| 8) (spliceWord (o.args.getD 2 0) l.pte1)) := by
  rw [← va48_page]
  have h0' : walk s o.pid o.root (va48 (o.args.getD 0 0) / 32768) = none := h0
  generalize h2 : walk s o.pid o.root ((o.args.getD 1 0).toNat % 2 ^ 48 / 32768) = r
  have h2' : walk s o.pid o.root (va48 (o.args.getD 1 0) / 32768) = r := h2
  cases r with
  | none => simp only [walkRes, hk, doKv, hb, h0', h2', Option.isSome_none, Bool.false_eq_true, if_false]
  | some l =>
    simp only [walkRes, hk, doKv, hb, h0', h2', Option.isSome_none, Bool.false_eq_true, if_false]
    generalize mapRec s o.cl o.pid o.root _ l.fri _ _ = m
    cases m <;> rfl

/-! ### KVSPLICE.S and KVTRIM (R319) -/

theorem kv_bad (h : (o.kind = .kvspliceS ∧ spliceBad (o.args.getD 1 0) = true) ∨ (o.kind = .kvtrim ∧ 256 ≤ (o.args.getD 1 0).toNat)) :
    Performs .walkerOpComplete s (fun s' => Finished s s' o (2 ^ 63 + 4) o.flags ∧ SameMem s s') := by
  have hres : walkRes s o = wErr 4 s := by
    obtain ⟨hk, hb⟩ | ⟨hk, hb⟩ := h
    · simp only [walkRes, hk, doKv, hb, if_true]
    · simp only [walkRes, hk, doKv, if_pos (show (o.args.getD 1 0).toNat / 256 ≠ 0 by omega)]
  exact walker_keeps hn hready (.refl s) hu hr hres (errW_toNat 4 (by decide)) rfl

theorem kv_unmapped (h0 : walk s o.pid o.root ((o.args.getD 0 0).toNat % 2 ^ 48 / 32768) = none)
    (h : (o.kind = .kvspliceS ∧ spliceBad (o.args.getD 1 0) = false) ∨ (o.kind = .kvtrim ∧ (o.args.getD 1 0).toNat < 256)) :
    Performs .walkerOpComplete s (fun s' => Finished s s' o (2 ^ 63 + 5) o.flags ∧ SameMem s s') := by
  have h0' : walk s o.pid o.root (va48 (o.args.getD 0 0) / 32768) = none := h0
  have hres : walkRes s o = wErr 5 s := by
    obtain ⟨hk, hb⟩ | ⟨hk, hb⟩ := h
    · simp only [walkRes, hk, doKv, hb, h0', Bool.false_eq_true, if_false]
    · simp only [walkRes, hk, doKv, if_neg (show ¬ (o.args.getD 1 0).toNat / 256 ≠ 0 by omega), h0']
  exact walker_keeps hn hready (.refl s) hu hr hres (errW_toNat 5 (by decide)) rfl

/-- The leaf has its two words, and no other byte differs. -/
theorem kv_written {l : Leaf} {w1 : Word} (hres : walkRes s o = .done 0 (setPte s o.pid l l.pte0 w1)) :
    Performs .walkerOpComplete s (fun s' => Finished s s' o 0 o.flags
      ∧ SameMemOff [l.pteAt, l.pteAt + 8] 8 s s' ∧ PteHolds s' l.pteAt l.pte0 w1) :=
  leaf_written (C := s.clusters) (N := s.nfree) hn hready hu hr rfl hres

section
variable {l : Leaf} (h0 : walk s o.pid o.root ((o.args.getD 0 0).toNat % 2 ^ 48 / 32768) = some l)
include h0

theorem kvspliceS_leaf (hk : o.kind = .kvspliceS) (hb : spliceBad (o.args.getD 1 0) = false) :
    let w := BitVec.ofNat 64 (ptePos (o.args.getD 1 0) + 2 ^ 40 * pteFill l.pte1 + 2 ^ 48 * pteHgrp (o.args.getD 1 0))
    (w = l.pte1 → Performs .walkerOpComplete s (fun s' => Finished s s' o 1 o.flags ∧ SameMem s s'))
    ∧ (w ≠ l.pte1 → Performs .walkerOpComplete s (fun s' => Finished s s' o 0 o.flags
        ∧ SameMemOff [l.pteAt, l.pteAt + 8] 8 s s' ∧ PteHolds s' l.pteAt l.pte0 w)) := by
  have h0' : walk s o.pid o.root (va48 (o.args.getD 0 0) / 32768) = some l := h0
  have hres : walkRes s o = if spliceWord (o.args.getD 1 0) l.pte1 = l.pte1 then .done 1 s
      else .done 0 (setPte s o.pid l l.pte0 (spliceWord (o.args.getD 1 0) l.pte1)) := by
    simp only [walkRes, hk, doKv, hb, h0', Bool.false_eq_true, if_false]
  rw [spliceWord_eq] at hres
  refine ⟨fun h => ?_, fun h => ?_⟩
  · rw [if_pos h] at hres
    exact walker_keeps hn hready (.refl s) hu hr hres rfl rfl
  · rw [if_neg h] at hres
    exact kv_written hn hready hu hr hres

theorem kvtrim_leaf (hk : o.kind = .kvtrim) (hb : (o.args.getD 1 0).toNat < 256) :
    (pteFill l.pte1 ≤ (o.args.getD 1 0).toNat → Performs .walkerOpComplete s (fun s' => Finished s s' o 1 o.flags ∧ SameMem s s'))
    ∧ ((o.args.getD 1 0).toNat < pteFill l.pte1 → Performs .walkerOpComplete s (fun s' => Finished s s' o 0 o.flags
        ∧ SameMemOff [l.pteAt, l.pteAt + 8] 8 s s' ∧ PteHolds s' l.pteAt l.pte0 (setField l.pte1 40 8 (o.args.getD 1 0).toNat))) := by
  have h0' : walk s o.pid o.root (va48 (o.args.getD 0 0) / 32768) = some l := h0
  have hres : walkRes s o = if pteFill l.pte1 ≤ (o.args.getD 1 0).toNat then .done 1 s
      else .done 0 (setPte s o.pid l l.pte0 (setField l.pte1 40 8 (o.args.getD 1 0).toNat)) := by
    simp only [walkRes, hk, doKv, if_neg (show ¬ (o.args.getD 1 0).toNat / 256 ≠ 0 by omega), h0']
  refine ⟨fun h => ?_, fun h => ?_⟩
  · rw [if_pos h] at hres
    exact walker_keeps hn hready (.refl s) hu hr hres rfl rfl
  · rw [if_neg (Nat.not_le_of_lt h)] at hres
    exact kv_written hn hready hu hr hres

end

/-! ### RAMPSET (R322) -/

/-- The numbers of the copies of the head group's record that segments hold (R300, R322). -/
def heldCopies (s : State) (p g : Nat) : List Nat :=
  s.clParts.flatMap (fun e => if e.1 % 16 == p then (e.2.rotary.filter (fun r => r.hgrp == g && rotHeld s r.num)).map (·.num) else [])

omit hn hready hu hr in
theorem heldCopies_nil (s : State) (p g : Nat) :
    heldCopies s p g ≠ [] ↔ ∃ e ∈ s.clParts, e.1 % 16 = p ∧ ∃ r ∈ e.2.rotary, r.hgrp = g ∧ rotHeld s r.num = true := by
  unfold heldCopies
  rw [Ne, List.flatMap_eq_nil_iff]
  simp only [not_forall]
  constructor
  · rintro ⟨e, he, h⟩
    split at h
    · next hp =>
      rw [List.map_eq_nil_iff, List.filter_eq_nil_iff] at h
      simp only [not_forall, not_not, Bool.and_eq_true, beq_iff_eq] at h
      obtain ⟨r, hr, hg, hh⟩ := h
      exact ⟨e, he, beq_iff_eq.mp hp, r, hr, hg, hh⟩
    · exact absurd rfl h
  · rintro ⟨e, he, hp, r, hr, hg, hh⟩
    refine ⟨e, he, ?_⟩
    rw [if_pos (beq_iff_eq.mpr hp), List.map_eq_nil_iff, List.filter_eq_nil_iff]
    exact fun h => h r hr (by simp [hg, hh])

/-- The record's slope is written, and the copies of the record serve no later booking. -/
def rampSet (s : State) (o : Op) (l : Leaf) : State :=
  let g := (o.args.getD 0 0).toNat % 256
  { wrN s (recPhys s o.pid l.fri + rotVa (cpCtl s o.cl o.pid 0x1B0) g % 32768 + 576 + 4 * ((o.args.getD 0 0).toNat / 256 % 64)) 4
      (o.args.getD 1 0).toNat with
    bduRot := s.bduRot.filter (fun e => !(e.2.1 == o.pid && e.2.2.1 == g))
    clParts := s.clParts.map (fun e => if e.1 % 16 == o.pid then
      (e.1, { e.2 with rotary := (e.2.rotary.filter (fun r => r.hgrp != g || rotHeld s r.num)).map (fun r =>
        if r.hgrp == g then { r with old := true } else r) }) else e) }

section
variable (hk : o.kind = .rampset) (hen : rotEn (cpCtl s o.cl o.pid 0x1B0) = true) (ha : (o.args.getD 0 0).toNat < 2 ^ 14)
  (hb : (o.args.getD 1 0).toNat < 2 ^ 32) (hpub : o.args.getD 2 0 = 0) {l : Leaf}
  (hl : walk s o.pid o.root (rotVa (cpCtl s o.cl o.pid 0x1B0) ((o.args.getD 0 0).toNat % 256) / 32768) = some l)
include hk hen ha hb hpub hl

omit hn hready hu hr in
theorem walkRes_rampset : walkRes s o = if (!pteW l.pte0 || pteCow l.pte0 || pteRepl l.pte0) then wErr 8 s
    else if (heldCopies s o.pid ((o.args.getD 0 0).toNat % 256)).isEmpty then .done 0 (rampSet s o l)
    else .wait (updOp (rampSet s o l) o.id (fun q => { q with i := 1, acc := (heldCopies s o.pid ((o.args.getD 0 0).toNat % 256)).map (BitVec.ofNat 64) })) := by
  have h1 : (o.args.getD 0 0).toNat / 2 ^ 14 = 0 := Nat.div_eq_of_lt ha
  have h2 : (o.args.getD 1 0).toNat / 2 ^ 32 = 0 := Nat.div_eq_of_lt hb
  simp only [walkRes, hk, doKv, doRampset, h1, h2, hpub, hen, hl, bne_self_eq_false, Bool.not_true, Bool.false_and, Bool.or_false,
    Bool.not_false, Bool.true_and, ne_eq, not_true_eq_false, decide_false, if_false, Bool.false_eq_true]
  rfl

theorem rampset_readOnly (h : pteW l.pte0 = false ∨ pteCow l.pte0 = true ∨ pteRepl l.pte0 = true) :
    Performs .walkerOpComplete s (fun s' => Finished s s' o (2 ^ 63 + 8) o.flags ∧ SameMem s s') := by
  have hres := walkRes_rampset hk hen ha hb hpub hl
  rw [if_pos (by obtain h | h | h := h <;> simp [h])] at hres
  exact walker_keeps hn hready (.refl s) hu hr hres (errW_toNat 8 (by decide)) rfl

variable (hw : pteW l.pte0 = true) (hcow : pteCow l.pte0 = false) (hrepl : pteRepl l.pte0 = false)

omit hn hready hu hr hk hen ha hb hpub hl in
theorem walked_rampSet : Walked s (rampSet s o l) := .of_same rfl rfl rfl rfl rfl rfl

omit hn hready hu hr hk hen ha hpub hl in
theorem rampSet_mem (hwf : Memory.wf s.mem = true) {s' : State} (hm : s'.mem = (rampSet s o l).mem) :
    let at' := recPhys s o.pid l.fri + rotVa (cpCtl s o.cl o.pid 0x1B0) ((o.args.getD 0 0).toNat % 256) % 32768 + 576
      + 4 * ((o.args.getD 0 0).toNat / 256 % 64)
    rdN s' at' 4 = (o.args.getD 1 0).toNat ∧ SameMemBut at' 4 s s' := by
  intro at'
  have hm' : s'.mem = (wrN s at' 4 (o.args.getD 1 0).toNat).mem := hm
  exact ⟨(rdN_congr hm' _ _).trans (rdN_wrN_pow _ _ _ _ hwf hb), sameMemBut_of_mem hm' (sameMemBut_wrN s at' 4 _ hwf)⟩

include hw hcow hrepl

theorem rampset_free (hno : ¬ ∃ e ∈ s.clParts, e.1 % 16 = o.pid ∧ ∃ r ∈ e.2.rotary,
      r.hgrp = (o.args.getD 0 0).toNat % 256 ∧ rotHeld s r.num = true) :
    let at' := recPhys s o.pid l.fri + rotVa (cpCtl s o.cl o.pid 0x1B0) ((o.args.getD 0 0).toNat % 256) % 32768 + 576
      + 4 * ((o.args.getD 0 0).toNat / 256 % 64)
    Performs .walkerOpComplete s (fun s' => Finished s s' o 0 o.flags ∧ rdN s' at' 4 = (o.args.getD 1 0).toNat ∧ SameMemBut at' 4 s s') := by
  have hres := walkRes_rampset hk hen ha hb hpub hl
  have hnil : heldCopies s o.pid ((o.args.getD 0 0).toNat % 256) = [] := by
    rw [← heldCopies_nil, not_not] at hno
    exact hno
  rw [if_neg (by simp [hw, hcow, hrepl]), hnil, if_pos (show ([] : List Nat).isEmpty = true from rfl)] at hres
  exact walker_ends hn hready walked_rampSet hu hr hres rfl fun hi s' hd => rampSet_mem hb hi.1 hd.mem

omit hu hr in
theorem rampset_waits (hyes : ∃ e ∈ s.clParts, e.1 % 16 = o.pid ∧ ∃ r ∈ e.2.rotary,
      r.hgrp = (o.args.getD 0 0).toNat % 256 ∧ rotHeld s r.num = true) :
    let at' := recPhys s o.pid l.fri + rotVa (cpCtl s o.cl o.pid 0x1B0) ((o.args.getD 0 0).toNat % 256) % 32768 + 576
      + 4 * ((o.args.getD 0 0).toNat / 256 % 64)
    Performs .walkerOpComplete s (fun s' => rdN s' at' 4 = (o.args.getD 1 0).toNat ∧ SameMemBut at' 4 s s'
      ∧ ∃ q ∈ s'.ops, q.id = o.id ∧ q.i = 1 ∧ q.acc ≠ [] ∧ q.fin = none) := by
  have hres := walkRes_rampset hk hen ha hb hpub hl
  have hne := (heldCopies_nil s o.pid ((o.args.getD 0 0).toNat % 256)).mpr hyes
  rw [if_neg (by simp [hw, hcow, hrepl]), if_neg (by simpa using hne)] at hres
  intro at' hi
  obtain ⟨hf, hfin, -⟩ := id hn
  obtain ⟨hval, hsame⟩ := rampSet_mem (s := s) (o := o) (l := l) (s' := updOp (rampSet s o l) o.id _) hb hi.1 rfl
  refine ⟨_, (walkerOpComplete_on hn hready).trans (congrArg (fun r => Host.Outcome.next (walkOut o r)) hres), hval, hsame,
    _, List.mem_map_of_mem (List.mem_of_find?_eq_some hf), ?_⟩
  rw [if_pos (beq_self_eq_true o.id)]
  exact ⟨rfl, rfl, fun h => hne (List.map_eq_nil_iff.mp h), hfin⟩

end

end

/-- Once no segment holds a copy any more, a RAMPSET completes (R322). -/
theorem rampset_completes {s : State} {o : Op} (hn : Names s o) (hu : Unhindered s o) (hr : isRunning s o.task = true) (hk : o.kind = .rampset)
    (h1 : o.i = 1) (hfree : ∀ n ∈ o.acc, rotHeld s n.toNat = false) :
    Performs .rampsetComplete s (fun s' => Finished s s' o 0 o.flags ∧ SameMem s s') := by
  obtain ⟨hf, hfin, hst⟩ := id hn
  have hgo : (o.kind == .rampset && o.i == 1 && !o.stopped && o.fin.isNone && !(o.acc.any (fun n => rotHeld s n.toNat))) = true := by
    rw [hk, h1, hfin, hst, List.any_eq_false.mpr fun n hm => ne_true_of_eq_false (hfree n hm)]
    rfl
  have hx : exec .rampsetComplete s = .next (doneOp s o.id 0) := by
    simp only [exec, execRampsetComplete, hf, if_pos hgo]
  obtain ⟨hend, honly⟩ := (Walked.refl s).finished hn hu hr 0
  exact fun _ => ⟨_, hx, hend, fun b => by rw [honly.mem]⟩

theorem OnlyDone.fe {s s' : State} (h : OnlyDone s s') : s'.fe = s.fe := by rw [h]

/-! ### A new record and a zeroed frame (R152) -/

theorem walked_newRecord (s : State) (p fri kind fmt blk axis ref pins : Nat) (loc w2 : Word) :
    Walked s (newRecord s p fri kind fmt blk axis ref pins loc w2) := by
  unfold newRecord
  exact (walked_wr64 ..).trans ((walked_wr64 ..).trans ((walked_wr64 ..).trans (walked_wr64 ..)))

theorem newRecord_spec {s : State} (hwf : Memory.wf s.mem = true) (p fri kind fmt blk axis ref pins : Nat) (loc w2 : Word) :
    let s' := newRecord s p fri kind fmt blk axis ref pins loc w2
    let r := recAddr s p fri 0
    Memory.wf s'.mem = true
      ∧ recWord s' p fri 0 = BitVec.ofNat 64 (kind + 16 * fmt + 256 * blk + 1024 * axis + 2 ^ 16 * ref + 2 ^ 32 * pins + 2 ^ 48 * p)
      ∧ recWord s' p fri 1 = loc ∧ ∀ b, (b < r ∨ r + 32 ≤ b) → rdCell s'.mem b = rdCell s.mem b := by
  intro s' r
  have hadd : ∀ i, recAddr s p fri i = r + 8 * i := fun i => by
    show frt s p + 32 * fri + 8 * i = frt s p + 32 * fri + 8 * 0 + 8 * i
    omega
  have hp : s'.parts = s.parts := (walked_newRecord ..).parts
  have hs' : s' = newRecord s p fri kind fmt blk axis ref pins loc w2 := rfl
  simp only [newRecord, hadd] at hs'
  generalize BitVec.ofNat 64 (kind + 16 * fmt + 256 * blk + 1024 * axis + 2 ^ 16 * ref + 2 ^ 32 * pins + 2 ^ 48 * p) = w0 at hs' ⊢
  generalize s' = t at hp hs'
  have k1 := inv_wr64 s (r + 8 * 0) w0 hwf
  have k2 := inv_wr64 _ (r + 8 * 1) loc k1
  have k3 := inv_wr64 _ (r + 8 * 2) w2 k2
  have k4 := inv_wr64 _ (r + 8 * 3) 0 k3
  rw [recWord, recWord, recAddr_congr hp, recAddr_congr hp, hadd, hadd, hs']
  refine ⟨k4, ?_, ?_, fun b hb => ?_⟩
  · rw [rd64_wr64_apart k3 (.inr (by omega)), rd64_wr64_apart k2 (.inr (by omega)), rd64_wr64_apart k1 (.inr (by omega)),
      rd64_wr64 _ _ _ hwf]
  · rw [rd64_wr64_apart k3 (.inr (by omega)), rd64_wr64_apart k2 (.inr (by omega)), rd64_wr64 _ _ _ k1]
  · rw [rdCell_wr64_off k3 _ _ (by omega), rdCell_wr64_off k2 _ _ (by omega), rdCell_wr64_off k1 _ _ (by omega),
      rdCell_wr64_off hwf _ _ (by omega)]

/-- The fields of word 0 of a local record with one reference and no pin. -/
theorem newRecord_fields (fmt blk axis p : Nat) (hf : fmt < 16) (hb : blk < 4) (ha : axis < 2) :
    let w := BitVec.ofNat 64 (1 + 16 * fmt + 256 * blk + 1024 * axis + 2 ^ 16 * 1 + 2 ^ 32 * 0 + 2 ^ 48 * p)
    w.toNat % 4 = 1 ∧ w.toNat / 16 % 16 = fmt ∧ w.toNat / 256 % 4 = blk ∧ w.toNat / 1024 % 2 = axis ∧ w.toNat / 2 ^ 16 % 2 ^ 16 = 1
      ∧ w.toNat / 2 ^ 32 % 2 ^ 16 = 0 := by
  intro w
  rw [BitVec.toNat_ofNat]
  omega

theorem wrMem_sameFe (s : State) (a : Nat) (bs : List Byte) : wrMem s a bs = { wrMem s a bs with fe := s.fe } := rfl

theorem zeroFrame_eq (s : State) (a : Nat) (e : Bool) :
    ∃ l, zeroFrame s a e = { wrMem s a (List.replicate 32768 0) with fe := l } := by
  unfold zeroFrame
  split
  · exact ⟨_, rfl⟩
  · exact ⟨s.fe, wrMem_sameFe s a _⟩

theorem zeroFrame_mem (s : State) (a : Nat) (e : Bool) : (zeroFrame s a e).mem = wrBytes s.mem a (List.replicate 32768 0) := by
  obtain ⟨l, h⟩ := zeroFrame_eq s a e
  rw [h, wrMem_mem]

theorem walked_wrMem (s : State) (a : Nat) (bs : List Byte) (l : List Nat) : Walked s { wrMem s a bs with fe := l } :=
  .of_same rfl rfl rfl rfl rfl rfl

theorem walked_zeroFrame (s : State) (a : Nat) (e : Bool) : Walked s (zeroFrame s a e) := by
  obtain ⟨l, h⟩ := zeroFrame_eq s a e
  rw [h]
  exact walked_wrMem ..

theorem feGet_zeroFrame (s : State) {a x : Nat} (hx : x % 8 = 0) (h1 : a ≤ x) (h2 : x < a + 32768) : feGet (zeroFrame s a true) x = false := by
  have hw : wordOf x = x := by
    unfold wordOf
    omega
  have hfe : (zeroFrame s a true).fe = s.fe.filter (fun x => !decide (a ≤ x ∧ x < a + 32768)) := by
    rw [zeroFrame, wrMem]
    rfl
  rw [feGet, hfe, hw]
  simp only [List.contains_eq_mem, List.mem_filter, decide_eq_false_iff_not, not_and, Bool.not_eq_true', decide_eq_false_iff_not, not_not]
  exact fun _ => by omega

/-! ### PGALLOC (R174) -/

theorem alloc_attrs {b : Word} (h12 : b.toNat < 2 ^ 12) (h : attrOk (b.toNat % 16) (b.toNat / 16 % 4) = true) :
    ¬ (b.toNat / 2 ^ 12 ≠ 0 ∨ (!attrOk (b.toNat % 16) (b.toNat / 16 % 4)) = true) := by
  rw [h]
  simp only [Bool.not_true, Bool.false_eq_true, or_false]
  omega

theorem findRec_lt (s : State) (p n : Nat) : ∀ f r, findRec s p n f = some r → r < nfr s p := by
  induction n with
  | zero => exact fun f r h => absurd h (by simp [findRec])
  | succ n ih =>
    intro f r h
    simp only [findRec] at h
    generalize (if nfr s p ≤ f ∨ f = 0 then 1 else f) = g at h
    by_cases hg : recKind s p g = 0 ∧ g < nfr s p
    · rw [if_pos hg] at h
      exact Option.some.inj h ▸ hg.2
    · rw [if_neg hg] at h
      exact ih _ r h

theorem freeRecord_eq {s s1 : State} {p fri : Nat} (h : freeRecord s p = (some fri, s1)) :
    s1 = { s with nfree := s.nfree + 1 } ∧ fri < 2 ^ 26 := by
  simp only [freeRecord, freePick, Prod.mk.injEq] at h
  obtain ⟨hf, rfl⟩ := h
  exact ⟨rfl, Nat.lt_trans (findRec_lt _ _ _ _ _ hf) (Nat.mod_lt _ (by decide))⟩

/-- The attribute bits of a new leaf, from those of the request (R176). -/
def allocAttr (b : Word) : Nat :=
  (b.toNat / 128 % 2) * 2 + (b.toNat / 256 % 2) * 4 + (b.toNat / 512 % 2) * 256 + (b.toNat / 1024 % 2) * 64 + (b.toNat / 2048 % 2) * 128

/-- The allocated state: the record, the leaf, and the frame's zeros. -/
def allocated (s : State) (cl p fri f a : Nat) (b : Word) : State :=
  zeroFrame (putLeaf (newRecord s p fri 1 (b.toNat % 16) (b.toNat / 16 % 4) (b.toNat / 64 % 2) 1 0 (sramLoc cl f) 0) a (allocAttr b) fri 0)
    (sramBase cl f) (bit b 9)

theorem walked_allocated (s : State) (cl p fri f a : Nat) (b : Word) : Walked s (allocated s cl p fri f a b) := by
  unfold allocated putLeaf
  exact (walked_newRecord ..).trans ((walked_wr64 ..).trans ((walked_wr64 ..).trans (walked_zeroFrame ..)))

/-- What stands in memory once the record, the leaf at `a` and the frame are written. -/
theorem allocated_leaves {s s2 s' : State} (hwf : Memory.wf s.mem = true) (hm : s2.mem = s.mem) (hp : s2.parts = s.parts) {cl p fri f a : Nat}
    {b : Word} (hd : s'.mem = (allocated s2 cl p fri f a b).mem) (hp' : s'.parts = s.parts) :
    let r := recAddr s p fri 0
    let frame := sramBase cl f
    (∀ x, (x < r ∨ r + 32 ≤ x) → (x < a ∨ a + 16 ≤ x) → (x < frame ∨ frame + 32768 ≤ x) → rdCell s'.mem x = rdCell s.mem x)
      ∧ rdBytes s'.mem frame 32768 = List.replicate 32768 0
      ∧ (Apart a 16 frame 32768 → PteHolds s' a (BitVec.ofNat 64 (1 + allocAttr b + 2 ^ 32 * fri)) 0)
      ∧ (Apart r 32 frame 32768 → Apart r 32 a 16 → recKind s' p fri = 1 ∧ recFmt s' p fri = b.toNat % 16
          ∧ recBlk s' p fri = b.toNat / 16 % 4 ∧ recAxis s' p fri = b.toNat / 64 % 2 ∧ recRef s' p fri = 1 ∧ recPins s' p fri = 0
          ∧ recWord s' p fri 1 = sramLoc cl f) := by
  intro r frame
  obtain ⟨k, hw0, hw1, hoff⟩ := newRecord_spec (s := s2) (hm ▸ hwf) p fri 1 (b.toNat % 16) (b.toNat / 16 % 4) (b.toNat / 64 % 2) 1 0
    (sramLoc cl f) 0
  have hp3 : (newRecord s2 p fri 1 (b.toNat % 16) (b.toNat / 16 % 4) (b.toNat / 64 % 2) 1 0 (sramLoc cl f) 0).parts = s.parts :=
    (walked_newRecord ..).parts.trans hp
  rw [recAddr_congr hp] at hoff
  unfold allocated at hd
  generalize newRecord s2 p fri 1 (b.toNat % 16) (b.toNat / 16 % 4) (b.toNat / 64 % 2) 1 0 (sramLoc cl f) 0 = s3 at *
  have k1 := inv_wr64 s3 a (BitVec.ofNat 64 (1 + allocAttr b + 2 ^ 32 * fri)) k
  have k2 := inv_wr64 _ (a + 8) (0 : Word) k1
  rw [zeroFrame_mem, putLeaf_mem] at hd
  have hzeros : (List.replicate 32768 (0 : Byte)).length = 32768 := List.length_replicate
  generalize List.replicate 32768 (0 : Byte) = zeros at hd hzeros ⊢
  have hleaf : ∀ x, (x < frame ∨ frame + 32768 ≤ x) → rdCell s'.mem x
      = rdCell (wr64 (wr64 s3 a (BitVec.ofNat 64 (1 + allocAttr b + 2 ^ 32 * fri))) (a + 8) 0).mem x := fun x hx => by
    rw [hd, rdCell_wrBytes _ _ _ _ k2, hzeros, if_neg (by omega)]
  have hrec : ∀ x, (x < frame ∨ frame + 32768 ≤ x) → (x < a ∨ a + 16 ≤ x) → rdCell s'.mem x = rdCell s3.mem x := fun x hx ha => by
    rw [hleaf x hx, rdCell_wr64_off k1 _ _ (by omega), rdCell_wr64_off k _ _ (by omega)]
  refine ⟨fun x hr ha hx => by rw [hrec x hx ha, hoff x hr, hm], ?_, fun hap => ?_, fun hap hap' => ?_⟩
  · rw [hd]
    exact hzeros ▸ rdBytes_wrBytes_same k2 frame zeros
  · unfold Apart at hap
    constructor
    · rw [rd64_off fun c hc hc' => hleaf c (by omega), rd64_wr64_apart k1 (.inr (Nat.le_refl _)), rd64_wr64 _ _ _ k]
    · rw [rd64_off fun c hc hc' => hleaf c (by omega), rd64_wr64 _ _ _ k1]
  · unfold Apart at hap hap'
    have hword : ∀ i, i ≤ 1 → recWord s' p fri i = recWord s3 p fri i := fun i hi => by
      have hadd : recAddr s p fri i = r + 8 * i := by
        show frt s p + 32 * fri + 8 * i = frt s p + 32 * fri + 8 * 0 + 8 * i
        omega
      rw [recWord, recWord, recAddr_congr hp', recAddr_congr hp3, hadd]
      exact rd64_off fun c hc hc' => hrec c (by omega) (by omega)
    obtain ⟨f1, f2, f3, f4, f5, f6⟩ := newRecord_fields (b.toNat % 16) (b.toNat / 16 % 4) (b.toNat / 64 % 2) p (Nat.mod_lt _ (by decide))
      (Nat.mod_lt _ (by decide)) (Nat.mod_lt _ (by decide))
    rw [recKind, recFmt, recBlk, recAxis, recRef, recPins, hword 0 (by decide), hword 1 (by decide), hw0]
    exact ⟨f1, f2, f3, f4, f5, f6, hw1⟩

section
variable {s : State} {o : Op} {C : Tab Cluster} {N : Nat} (hn : Names s o) (hready : walkerReady s o = true) (hu : Unhindered s o)
  (hr : isRunning s o.task = true) {x : Option Leaf}
  (hL : leafAt s o.cl o.pid o.root ((o.args.getD 0 0).toNat / 32768 % 2 ^ 33) = (x, cached s C N)) (hk : o.kind = .pgalloc)
include hn hready hu hr hL hk

omit hn hready hu hr in
theorem walkRes_pgalloc : walkRes s o
    = doAlloc (cached s C N) o.cl o.pid o.root ((o.args.getD 0 0).toNat / 32768 % 2 ^ 33) (o.args.getD 1 0) x := by
  simp only [walkRes, hk, doPage, hL]

theorem pgalloc_bad (h : 2 ^ 12 ≤ (o.args.getD 1 0).toNat
      ∨ attrOk ((o.args.getD 1 0).toNat % 16) ((o.args.getD 1 0).toNat / 16 % 4) = false) :
    Performs .walkerOpComplete s (fun s' => Finished s s' o (2 ^ 63 + 4) o.flags ∧ SameMem s s') := by
  have hres := walkRes_pgalloc hL hk
  have hno : (o.args.getD 1 0).toNat / 2 ^ 12 ≠ 0 ∨ (!attrOk ((o.args.getD 1 0).toNat % 16) ((o.args.getD 1 0).toNat / 16 % 4)) = true :=
    h.imp (fun h => by omega) fun h => by rw [h]; rfl
  simp only [doAlloc, if_pos hno] at hres
  exact walker_keeps hn hready (walked_cached s C N) hu hr hres (errW_toNat 4 (by decide)) rfl

variable (h12 : (o.args.getD 1 0).toNat < 2 ^ 12) (hattr : attrOk ((o.args.getD 1 0).toNat % 16) ((o.args.getD 1 0).toNat / 16 % 4) = true)
include h12 hattr

theorem pgalloc_mapped (h : x ≠ none) :
    Performs .walkerOpComplete s (fun s' => Finished s s' o (2 ^ 63 + 6) o.flags ∧ SameMem s s') := by
  have hres := walkRes_pgalloc hL hk
  have hyes := alloc_attrs h12 hattr
  simp only [doAlloc, if_neg hyes, if_pos (Option.isSome_iff_ne_none.mpr h)] at hres
  exact walker_keeps hn hready (walked_cached s C N) hu hr hres (errW_toNat 6 (by decide)) rfl

variable (hx : x = none)
include hx

theorem pgalloc_noRecord (h : (freeRecord (cached s C N) o.pid).1 = none) :
    Performs .walkerOpComplete s (fun s' => Finished s s' o (2 ^ 63 + 3) o.flags ∧ SameMem s s') := by
  have hres := walkRes_pgalloc hL hk
  have hyes := alloc_attrs h12 hattr
  obtain ⟨s1, hfree⟩ : ∃ s1, freeRecord (cached s C N) o.pid = (none, s1) := ⟨_, Prod.ext h rfl⟩
  simp only [doAlloc, if_neg hyes, hx, Option.isSome_none, Bool.false_eq_true, if_false, hfree] at hres
  exact walker_keeps hn hready (walked_cached s C N) hu hr hres (errW_toNat 3 (by decide)) rfl

theorem pgalloc_allocates {fri f a : Nat} {s1 s2 : State} (hfree : freeRecord (cached s C N) o.pid = (some fri, s1))
    (hfr : frameInQuota s1 o.cl o.pid fri = some (f, s2))
    (hpath : PathTo (newRecord s2 o.pid fri 1 ((o.args.getD 1 0).toNat % 16) ((o.args.getD 1 0).toNat / 16 % 4)
      ((o.args.getD 1 0).toNat / 64 % 2) 1 0 (sramLoc o.cl f) 0) o.pid o.root ((o.args.getD 0 0).toNat / 32768 % 2 ^ 33) a) :
    let b := o.args.getD 1 0
    let r := recAddr s o.pid fri 0
    let frame := sramBase o.cl f
    Performs .walkerOpComplete s (fun s' => Finished s s' o fri o.flags
      ∧ (∀ x, (x < r ∨ r + 32 ≤ x) → (x < a ∨ a + 16 ≤ x) → (x < frame ∨ frame + 32768 ≤ x) → rdCell s'.mem x = rdCell s.mem x)
      ∧ rdBytes s'.mem frame 32768 = List.replicate 32768 0
      ∧ (b.getLsbD 9 = true → ∀ x, x % 8 = 0 → frame ≤ x → x < frame + 32768 → feGet s' x = false)
      ∧ (Apart a 16 frame 32768 → PteHolds s' a (BitVec.ofNat 64 (1 + 2 * (b.toNat / 128 % 2) + 4 * (b.toNat / 256 % 2)
          + 256 * (b.toNat / 512 % 2) + 64 * (b.toNat / 1024 % 2) + 128 * (b.toNat / 2048 % 2) + 2 ^ 32 * fri)) 0)
      ∧ (Apart r 32 frame 32768 → Apart r 32 a 16 → recKind s' o.pid fri = 1 ∧ recFmt s' o.pid fri = b.toNat % 16
          ∧ recBlk s' o.pid fri = b.toNat / 16 % 4 ∧ recAxis s' o.pid fri = b.toNat / 64 % 2 ∧ recRef s' o.pid fri = 1
          ∧ recPins s' o.pid fri = 0 ∧ recWord s' o.pid fri 1 = sramLoc o.cl f)) := by
  intro b r frame
  obtain ⟨h1, hlt⟩ := freeRecord_eq hfree
  have h2 := frameInQuota_eq hfr
  have hw2 : Walked s s2 := by rw [h2, h1]; exact .of_same rfl rfl rfl rfl rfl rfl
  have hm2 : s2.mem = s.mem := by rw [h2, h1]; rfl
  have hres := walkRes_pgalloc hL hk
  simp only [doAlloc, if_neg (alloc_attrs h12 hattr), hx, Option.isSome_none, Bool.false_eq_true, if_false, hfree, hfr,
    ensurePath_of_path hpath] at hres
  have hstate : walkRes s o = .done (BitVec.ofNat 64 fri) (allocated s2 o.cl o.pid fri f a b) := hres
  refine walker_ends hn hready (hw2.trans (walked_allocated ..)) hu hr hstate ?_ fun hi s' hd => ?_
  · rw [BitVec.toNat_ofNat]
    omega
  · obtain ⟨l1, l2, l3, l4⟩ := allocated_leaves hi.1 hm2 hw2.parts (cl := o.cl) (p := o.pid) (fri := fri) (f := f) (a := a) (b := b) hd.mem
      (hd.parts.trans (hw2.trans (walked_allocated ..)).parts)
    refine ⟨l1, l2, fun h9 x hx8 hx1 hx2 => ?_, fun hap => ?_, l4⟩
    · rw [feGet_congr hd.fe, allocated, bit, h9]
      exact feGet_zeroFrame _ hx8 hx1 hx2
    · have hsum : 1 + allocAttr b + 2 ^ 32 * fri = 1 + 2 * (b.toNat / 128 % 2) + 4 * (b.toNat / 256 % 2) + 256 * (b.toNat / 512 % 2)
          + 64 * (b.toNat / 1024 % 2) + 128 * (b.toNat / 2048 % 2) + 2 ^ 32 * fri := by
        unfold allocAttr
        omega
      rw [← hsum]
      exact l3 hap

end

/-! ### The state in which an atomic reads its word (R186, R373) -/

theorem engAddr_cached (s : State) (o : Op) (va : Nat) : ∃ C N, (engAddr s o va true).2 = cached s C N := by
  obtain h | ⟨h, -⟩ := engAddr_cases s o va true
  · exact ⟨_, _, h.trans (xlate_eq ..)⟩
  · exact absurd h (by decide)

theorem wanted_none {want : EgWrite → Bool} (l : List EgWrite) (h : ∀ q ∈ l, want q = false) : wanted want l = l.map (fun e => (e, false)) := by
  induction l with
  | nil => rfl
  | cons e l ih =>
    have hrest := ih fun q hq => h q (List.mem_cons_of_mem _ hq)
    simp only [wanted, hrest, h e List.mem_cons_self, Bool.false_or, List.map_cons, List.cons.injEq, Prod.mk.injEq, true_and, and_true]
    exact List.any_eq_false.mpr fun x hx => by
      obtain ⟨q, -, rfl⟩ := List.mem_map.mp hx
      simp

theorem drainMarked_none (s : State) (l : List EgWrite) : ∀ kept, drainMarked (l.map (fun e => (e, false))) kept s = { s with egress := kept ++ l } := by
  induction l with
  | nil => exact fun kept => by rw [List.append_nil]; rfl
  | cons e l ih =>
    intro kept
    rw [List.map_cons, drainMarked, if_neg (by decide), ih, List.append_assoc]
    rfl

theorem drainOut_none {s : State} {want : EgWrite → Bool} (h : ∀ q ∈ s.egress, want q = false) : drainOut s want = s := by
  rw [drainOut, wanted_none _ h, drainMarked_none]
  rfl

/-- With no write to the word on its way there is nothing to settle. -/
theorem settleWord_none {s : State} {d a n : Nat} (h : ∀ q ∈ s.egress, q.src = d → meets a n q = false) : settleWord s d a n = s := by
  refine drainOut_none fun q hq => ?_
  by_cases hs : q.src = d
  · rw [h q hq hs, Bool.and_false]
  · rw [beq_false_of_ne hs, Bool.false_and]

/-- Settling a word, and correcting what is read of it, changes neither memory nor what is under way. -/
theorem correctSoft_eq (s : State) (a n : Nat) : correctSoft s a n = { s with soft := (correctSoft s a n).soft, dev := (correctSoft s a n).dev } :=
  onlySoft_correctSoft s a n

/-- What the atomic's home writes. -/
def atomWrite (s : State) (a n : Nat) : Option Nat → State
  | some v => perform s a (toLe n v) false
  | none => s

theorem atomWrite_eq (s : State) (a n : Nat) (r : Option Nat) : let s' := atomWrite s a n r
    s' = { s with mem := s'.mem, poison := s'.poison, soft := s'.soft, written := s'.written } := by
  cases r <;> rfl

/-- The word holds what the atomic gives, and no other byte differs; one that gives nothing changes nothing (R376). -/
def AtomDone (s s' : State) (a n : Nat) : Option Nat → Prop
  | some v => rdBytes s'.mem a n = toLe n v ∧ SameMemBut a n s s'
  | none => SameMem s s'

theorem atomDone_congr {s s1 s2 : State} {a n : Nat} {r : Option Nat} (h : AtomDone s s1 a n r) (hm : s2.mem = s1.mem) : AtomDone s s2 a n r := by
  cases r with
  | none => exact fun b => by rw [hm]; exact h b
  | some v =>
    obtain ⟨h1, h2⟩ := h
    exact ⟨by rw [hm]; exact h1, fun b hb => by rw [hm]; exact h2 b hb⟩

theorem atomWrite_done {s s1 s' : State} (hwf : Memory.wf s.mem = true) (hm : s1.mem = s.mem) {a n : Nat} {r : Option Nat}
    (hd : s'.mem = (atomWrite s1 a n r).mem) : AtomDone s s' a n r := by
  cases r with
  | none => exact fun b => by rw [hd]; exact congrArg (fun m => rdCell m b) hm
  | some v =>
    have hmem : s'.mem = wrBytes s.mem a (toLe n v) := by rw [hd, ← hm]; rfl
    have hlen := toLe_length n v
    refine ⟨?_, fun b hb => ?_⟩
    · have h := rdBytes_wrBytes_same hwf a (toLe n v)
      rw [hlen] at h
      rw [hmem, h]
    · rw [hmem, rdCell_wrBytes _ _ _ _ hwf, hlen, if_neg (by omega)]

/-- What a write that no answer follows leaves (R374). -/
def storeWrite (s : State) (a n : Nat) : Option Nat → State
  | some v => wrN s a n v
  | none => s

theorem storeWrite_eq (s : State) (a n : Nat) (r : Option Nat) : let s' := storeWrite s a n r
    s' = { s with mem := s'.mem, poison := s'.poison, soft := s'.soft } := by
  cases r <;> rfl

theorem storeWrite_mem (s : State) (a n : Nat) (r : Option Nat) : (storeWrite s a n r).mem = (atomWrite s a n r).mem := by
  cases r <;> rfl

/-- Changing the operation of a number is seen at it. -/
theorem find_updOp {s : State} {id : Nat} {f : Op → Op} (hf : ∀ q, (f q).id = q.id) :
    (updOp s id f).ops.find? (fun q => q.id == id) = (s.ops.find? (fun q => q.id == id)).map f := by
  rw [updOp, listUpd]
  have hid : ((fun q : Op => q.id == id) ∘ fun x => if (x.id == id) = true then f x else x) = fun q => q.id == id := funext fun q => by
    dsimp only [Function.comp_apply]
    split
    · rw [hf]
    · rfl
  rw [List.find?_map, hid]
  cases h : s.ops.find? (fun q => q.id == id) with
  | none => rfl
  | some q =>
    have hq : (q.id == id) = true := List.find?_some (p := fun q : Op => q.id == id) h
    simp only [Option.map_some, hq, if_true]

/-! ### A far atomic at its home (R373, R376) -/

section
variable {s : State} {o : Op} (hf : s.ops.find? (fun q => q.id == s.ev.id) = some o) (hready : atomReady s o = true)
include hf

theorem find_ready {p : Op → Bool} (hp : p o = true) : s.ops.find? (fun q => q.id == s.ev.id && p q) = some o := by
  obtain ⟨hn, l, l', hl, hno⟩ := List.find?_eq_some_iff_append.mp hf
  refine List.find?_eq_some_iff_append.mpr ⟨by rw [hn, hp]; rfl, l, l', hl, fun x hx => ?_⟩
  have hne := hno x hx
  rw [Bool.not_eq_true'] at hne ⊢
  rw [hne, Bool.false_and]

variable {a : Nat} {e : TcEnt} {C : Tab Cluster} {N : Nat} (h0 : o.i = 0)
  (ha : engAddr s o ((o.args.getD 0 0).toNat % 2 ^ 48) true = (.ok (a, e), cached s C N)) (hflag : s.ev.flag = false)
include hready h0 ha hflag

omit hflag in
theorem farAtomic_ecc (hecc : eccBad s a (o.args.getD 4 0).toNat = true) : Performs .farAtomicPerform s (fun s' =>
    OpStopped s s' o 23 (BitVec.ofNat 64 ((o.args.getD 0 0).toNat % 2 ^ 48)) 0 ∧ SameMem s s') := by
  have hecc' : eccBad (cached s C N) a (o.args.getD 4 0).toNat = true := hecc
  have ha' : engAddr s o (va48 (o.args.getD 0 0)) true = (.ok (a, e), cached s C N) := ha
  have hx : exec .farAtomicPerform s = .next (stopOp (cached s C N) (atUnit o a) .memoryEcc (atomUnitKind a)
      (BitVec.ofNat 64 (va48 (o.args.getD 0 0))) 0) := by
    simp only [exec, execFarAtomicPerform, find_ready hf hready, doAtomic, h0, ha', hecc', if_true, show ¬ (0 = 1) by decide, if_false]
  obtain ⟨hst, hm⟩ := stopOp_stopped (s := s) (s1 := cached s C N) (o := atUnit o a) ⟨o, List.mem_of_find?_eq_some hf, rfl⟩ rfl .memoryEcc
    (atomUnitKind a) (BitVec.ofNat 64 (va48 (o.args.getD 0 0))) 0
  exact fun _ => ⟨_, hx, hst, fun b => by rw [hm]; rfl⟩

end

section
variable {s : State} {o : Op} (hf : s.ops.find? (fun q => q.id == s.ev.id) = some o) (hready : atomReady s o = true)
  {a : Nat} {e : TcEnt} {C : Tab Cluster} {N : Nat} (h0 : o.i = 0)
  (ha : engAddr s o ((o.args.getD 0 0).toNat % 2 ^ 48) true = (.ok (a, e), cached s C N))
  (heg : ∀ q ∈ s.egress, q.src = dieOf o.cl → meets a (o.args.getD 4 0).toNat q = false)
include hf hready h0 ha heg

/-- The operation once its atomic is performed (R376). -/
def atomFlagged (o : Op) (a : Nat) (f : FpFlags) (q : Op) : Op := { q with flags := q.flags ||| f, scope := if 2 ^ 64 ≤ a then 5 else q.scope }

theorem farAtomic_performs (hr : isRunning s o.task = true) (hu : Unhindered s o) (hflag : s.ev.flag = false)
    (hecc : eccBad s a (o.args.getD 4 0).toNat = false) (hlease : tileLeased s a (o.args.getD 4 0).toNat = false) (hrepl : pteRepl e.pte0 = false) :
    let n := (o.args.getD 4 0).toNat
    let w := 8 * n
    let x := rdN s a n
    let r := atomNew (o.args.getD 3 0).toNat w x ((o.args.getD 1 0).toNat % 2 ^ w) ((o.args.getD 2 0).toNat % 2 ^ w)
    Performs .farAtomicPerform s (fun s' => AtomDone s s' a n r.1 ∧ Finished s s' o x (o.flags ||| r.2)) := by
  intro n w x r hi
  have ha' : engAddr s o (va48 (o.args.getD 0 0)) true = (.ok (a, e), cached s C N) := ha
  have hecc' : eccBad (cached s C N) a n = false := hecc
  have hlease' : tileLeased (cached s C N) a n = false := hlease
  have hset : settleWord (cached s C N) (dieOf o.cl) a n = cached s C N := settleWord_none heg
  have hcs := correctSoft_eq (cached s C N) a n
  have hx : exec .farAtomicPerform s = .next (doneOp (updOp (atomWrite (correctSoft (cached s C N) a n) a n r.1) o.id (atomFlagged o a r.2)) o.id x) := by
    have hnone : ∀ b : Bool, (tileLeased (cached s C N) a n || (pteRepl e.pte0 && b)) = false := fun b => by rw [hlease', hrepl]; rfl
    have hwr : ∀ s1 v, homeWrite s1 o e a (toLe n v) = perform s1 a (toLe n v) false := fun s1 v => by
      unfold homeWrite
      dsimp only
      rw [hrepl, Bool.false_and, if_neg (by decide)]
    have hrd : rdN (correctSoft (cached s C N) a n) a n = x := by
      rw [hcs]
      rfl
    have hout : ∀ m : Option Nat, (match m with
        | none => correctSoft (cached s C N) a n
        | some v => homeWrite (correctSoft (cached s C N) a n) o e a (toLe n v)) = atomWrite (correctSoft (cached s C N) a n) a n m := fun m => by
      cases m with
      | none => rfl
      | some v => exact hwr ..
    have hrefused : ¬ (2 ^ 64 ≤ a ∧ s.ev.flag = true) := fun h => Bool.noConfusion (hflag.symm.trans h.2)
    simp only [exec, execFarAtomicPerform, find_ready hf hready, doAtomic, h0, show ¬ (0 = 1) by decide, if_false, ha']
    rw [if_neg (ne_true_of_eq_false hecc'), if_neg hrefused, if_neg (ne_true_of_eq_false (hnone _)), if_neg (ne_true_of_eq_false hrepl), hset, hrd]
    exact congrArg (fun s1 => Host.Outcome.next (doneOp (updOp s1 o.id (atomFlagged o a r.2)) o.id x)) (hout r.1)
  have heq := atomWrite_eq (correctSoft (cached s C N) a n) a n r.1
  have hdone := fun (s' : State) (hd : s'.mem = (atomWrite (correctSoft (cached s C N) a n) a n r.1).mem) =>
    atomWrite_done (s := s) (s1 := correctSoft (cached s C N) a n) hi.1 (by rw [hcs]; rfl) hd
  generalize atomWrite (correctSoft (cached s C N) a n) a n r.1 = S at hx heq hdone
  rw [hcs] at heq
  have hw : Walked s S := .of_same (by rw [heq]; rfl) (by rw [heq]; rfl) (by rw [heq]; rfl) (by rw [heq]; rfl) (by rw [heq]; rfl) (by rw [heq]; rfl)
  obtain ⟨hs, -, -, he, hrep, -⟩ := id hw
  have hid : o.id = s.ev.id := by simpa using List.find?_some hf
  have hfS : S.ops.find? (fun q => q.id == o.id) = some o := by
    rw [heq, hid]
    exact hf
  have hf5 : (updOp S o.id (atomFlagged o a r.2)).ops.find? (fun q => q.id == o.id) = some (atomFlagged o a r.2 o) := by
    rw [find_updOp (f := atomFlagged o a r.2) fun _ => rfl, hfS]
    rfl
  obtain ⟨ue, ur, ud⟩ := hu
  have hfree : Unhindered (updOp S o.id (atomFlagged o a r.2)) (atomFlagged o a r.2 o) :=
    ⟨fun q h => ue q (he q h), fun q h => ur q (hrep ▸ h), ud⟩
  have hrun : isRunning (updOp S o.id (atomFlagged o a r.2)) (atomFlagged o a r.2 o).task = true := by
    rw [isRunning, show (updOp S o.id (atomFlagged o a r.2)).strands = s.strands from hs]
    exact hr
  obtain ⟨⟨hno, hdel⟩, honly, -⟩ := doneOp_finished x hf5 hfree hrun
  refine ⟨_, hx, hdone _ honly.mem, hno, fun m t ht => hdel m t ?_⟩
  rw [show (updOp S o.id (atomFlagged o a r.2)).strands = s.strands from hs]
  exact ht

/-- A host's timeout stops the atomic, performed or not (R374). -/
theorem timeout_stops (h64 : 2 ^ 64 ≤ a) :
    let n := (o.args.getD 4 0).toNat
    let w := 8 * n
    let x := rdN s a n
    let r := atomNew (o.args.getD 3 0).toNat w x ((o.args.getD 1 0).toNat % 2 ^ w) ((o.args.getD 2 0).toNat % 2 ^ w)
    Performs .completionTimeout s (fun s' => (AtomDone s s' a n r.1 ∨ SameMem s s') ∧ OpStopped s s' o 11 (o.args.getD 0 0) 1) := by
  intro n w x r hi
  have ha' : engAddr s o (va48 (o.args.getD 0 0)) true = (.ok (a, e), cached s C N) := ha
  have hpred : (fun q => q.id == s.ev.id && atomReady s q && q.i == 0) = fun q => q.id == s.ev.id && (atomReady s q && q.i == 0) :=
    funext fun _ => Bool.and_assoc ..
  have hfind := find_ready hf (p := fun q => atomReady s q && q.i == 0) (by rw [hready, h0]; rfl)
  have hset : settleWord (cached s C (N + 1)) (dieOf o.cl) a n = cached s C (N + 1) := settleWord_none heg
  have hpick : freePick (cached s C N) 2 = ((freePick (cached s C N) 2).1, cached s C (N + 1)) := rfl
  have hx : exec .completionTimeout s = .next (stopOp (updOp (if (freePick (cached s C N) 2).1 = 0 then cached s C (N + 1)
      else storeWrite (cached s C (N + 1)) a n r.1) o.id (fun q => { q with i := 1 })) o .protection 4 (o.args.getD 0 0) 1) := by
    have hout : ∀ m : Option Nat, (match m with
        | some v => wrN (cached s C (N + 1)) a n v
        | none => cached s C (N + 1)) = storeWrite (cached s C (N + 1)) a n m := fun m => by cases m <;> rfl
    simp only [exec, execCompletionTimeout, hpred, hfind, ha', if_neg (Nat.not_lt_of_le h64)]
    rw [hpick]
    dsimp only
    rw [show settleWord (cached s C (N + 1)) (dieOf o.cl) a (o.args.getD 4 0).toNat = cached s C (N + 1) from hset]
    exact congrArg (fun S => Host.Outcome.next (stopOp (updOp (if (freePick (cached s C N) 2).1 = 0 then cached s C (N + 1) else S) o.id
      (fun q => { q with i := 1 })) o .protection 4 (o.args.getD 0 0) 1)) (hout r.1)
  have hkeep : ∀ S, S = cached s C (N + 1) ∨ S = storeWrite (cached s C (N + 1)) a n r.1 →
      (AtomDone s S a n r.1 ∨ SameMem s S) ∧ S.dies = s.dies ∧ S.ops = s.ops := fun S hS => by
    obtain rfl | rfl := hS
    · exact ⟨.inr fun b => rfl, rfl, rfl⟩
    · refine ⟨.inl (atomWrite_done (s1 := cached s C (N + 1)) hi.1 rfl (storeWrite_mem ..)), ?_, ?_⟩ <;> rw [storeWrite_eq] <;> rfl
  obtain ⟨hdone, hdies, hops⟩ := hkeep (if (freePick (cached s C N) 2).1 = 0 then cached s C (N + 1) else storeWrite (cached s C (N + 1)) a n r.1)
    (by split; exacts [.inl rfl, .inr rfl])
  generalize (if (freePick (cached s C N) 2).1 = 0 then cached s C (N + 1) else storeWrite (cached s C (N + 1)) a n r.1) = S at *
  have hmemb : ∃ q ∈ (updOp S o.id (fun q => { q with i := 1 })).ops, q.id = o.id :=
    ⟨_, List.mem_map_of_mem (hops ▸ List.mem_of_find?_eq_some hf), by rw [if_pos (beq_self_eq_true o.id)]⟩
  obtain ⟨hst, hm⟩ := stopOp_stopped (s := s) (s1 := updOp S o.id (fun q => { q with i := 1 })) hmemb hdies .protection 4 (o.args.getD 0 0) 1
  generalize stopOp (updOp S o.id (fun q => { q with i := 1 })) o .protection 4 (o.args.getD 0 0) 1 = s' at hx hst hm
  refine ⟨s', hx, hdone.imp (fun h => atomDone_congr h hm) (fun h b => by rw [hm]; exact h b), hst⟩

end

section
variable {s : State} {o : Op} {C : Tab Cluster} {N : Nat} (hn : Names s o) (hready : walkerReady s o = true) (hu : Unhindered s o)
  (hr : isRunning s o.task = true)
include hn hready hu hr

/-- Both forms that map a page a second time, with the leaf that they name (R176, R319). -/
theorem second_mappings {leaf : Option Leaf}
    (hL : leafAt s o.cl o.pid o.root ((o.args.getD 0 0).toNat / 32768 % 2 ^ 33) = (leaf, cached s C N)) (src : Option Leaf) (l : Leaf) (w1 : Word)
    (h : (o.kind = .pgcow ∧ src = (leafAt (cached s C N) o.cl o.pid o.root ((o.args.getD 1 0).toNat / 32768 % 2 ^ 33)).1 ∧ w1 = l.pte1 ∧ leaf = none)
      ∨ (o.kind = .kvsplice ∧ src = walk s o.pid o.root ((o.args.getD 1 0).toNat % 2 ^ 48 / 32768)
        ∧ w1 = BitVec.ofNat 64 (ptePos (o.args.getD 2 0) + 2 ^ 40 * pteFill l.pte1 + 2 ^ 48 * pteHgrp (o.args.getD 2 0))
        ∧ spliceBad (o.args.getD 2 0) = false ∧ walk s o.pid o.root ((o.args.getD 0 0).toNat % 2 ^ 48 / 32768) = none)) :
    (src = none → Performs .walkerOpComplete s (fun s' => Finished s s' o (2 ^ 63 + 5) o.flags ∧ SameMem s s'))
    ∧ (∀ a, src = some l → PathTo s o.pid o.root ((o.args.getD 0 0).toNat / 32768 % 2 ^ 33) a → recRef s o.pid l.fri < 65535 → l.fri < 2 ^ 31 →
      Performs .walkerOpComplete s (fun s' => Finished s s' o l.fri o.flags
        ∧ SameMemOff [a, a + 8, l.pteAt, l.pteAt + 8, recAddr s o.pid l.fri 0] 8 s s'
        ∧ PteHolds s' l.pteAt (l.pte0 ||| 8) l.pte1
        ∧ (Apart a 16 l.pteAt 16 → PteHolds s' a (BitVec.ofNat 64 (1 + (pteAttr l.pte0 ||| 8) + 2 ^ 32 * l.fri)) w1)
        ∧ (Apart a 16 (recAddr s o.pid l.fri 0) 8 → Apart l.pteAt 16 (recAddr s o.pid l.fri 0) 8 →
            recRef s' o.pid l.fri = recRef s o.pid l.fri + 1))) := by
  obtain ⟨hk, hsrc, rfl, rfl⟩ | ⟨hk, hsrc, rfl, hb, h0⟩ := h
  · obtain ⟨C2, N2, hs2, -⟩ := leafAt_cached (cached s C N) o.cl o.pid o.root ((o.args.getD 1 0).toNat / 32768 % 2 ^ 33)
    have h2 : leafAt (cached s C N) o.cl o.pid o.root ((o.args.getD 1 0).toNat / 32768 % 2 ^ 33) = (src, cached s C2 N2) := Prod.ext hsrc.symm hs2
    have hres := walkRes_pgcow hL hk
    rw [h2] at hres
    refine ⟨fun hnone => ?_, fun a hsome hpath h h31 => ?_⟩
    · rw [hnone] at hres
      exact walker_keeps hn hready (walked_cached s C2 N2) hu hr hres (errW_toNat 5 (by decide)) rfl
    · rw [hsome] at hres
      exact second_mapping hn hready hu hr hpath hres h h31
  · have hres := walkRes_kvsplice hk hb h0
    rw [← hsrc] at hres
    refine ⟨fun hnone => ?_, fun a hsome hpath h h31 => ?_⟩
    · rw [hnone] at hres
      exact walker_keeps hn hready (.refl s) hu hr hres (errW_toNat 5 (by decide)) rfl
    · rw [hsome] at hres
      dsimp only at hres
      rw [spliceWord_eq] at hres
      exact second_mapping (C := s.clusters) (N := s.nfree) hn hready hu hr hpath hres h h31

end

/-- Settles O51: each form of the walker by the state that it leaves, the atomics by their home's word. -/
theorem walkerUnits : Obligations.WalkerUnits := by
  unfold Obligations.WalkerUnits
  refine ⟨fun s o hn hu hr => ?_, fun s o a e s1 hf hready h0 hr hu ha => ?_⟩
  · intro leaf sel
    obtain ⟨C, N, hs0, hC⟩ := leafAt_cached s o.cl o.pid o.root ((o.args.getD 0 0).toNat / 32768 % 2 ^ 33)
    have hL : leafAt s o.cl o.pid o.root ((o.args.getD 0 0).toNat / 32768 % 2 ^ 33) = (leaf, cached s C N) := Prod.ext rfl hs0
    refine ⟨fun hready => ⟨fun hnone hk => ?_, fun l hl => ?_, ?_⟩, fun hk h1 hfree => rampset_completes hn hu hr hk h1 hfree⟩
    · rw [hnone] at hL
      exact page_without_leaf hn hready hu hr hL hk
    · rw [hl] at hL
      refine ⟨fun hk => pgget_gives hn hready hu hr hL hk, fun hk n => pgref_counts hn hready hu hr hL hk,
        fun hk => pgref_outOfRange hn hready hL hk, ?_⟩
      refine ⟨fun hk => ⟨pgset_format hn hready hu hr hL hk, pgset_tag hn hready hu hr hL hk, pgset_attr hn hready hu hr hL hk,
          pgset_word1 hn hready hu hr hL hk⟩,
        fun hk => ⟨fun hp => pin_stays hn hready hu hr hL (.inl ⟨hk, hp⟩), pgpin_local hn hready hu hr hL hk, pgpin_held hn hready hu hr hL hk⟩,
        fun hk => ⟨fun hp => pin_stays hn hready hu hr hL (.inr ⟨hk, hp⟩), pgunpin_pinned hn hready hu hr hL hk⟩,
        fun hk => ⟨pgspill_refused hn hready hu hr hL hk, pgspill_away hn hready hu hr hL hk,
          fun hh hp hkind h0 => pgspill_queued hn hready hL hC hk hh hp hkind h0⟩,
        fun hk => ⟨pgfill_local hn hready hu hr hL hk, pgfill_elsewhere hn hready hu hr hL hk,
          fun hl hh => pgfill_noFrame hn hready hu hr hL hk hl hh hC,
          fun f s1 hl hh hf => pgfill_fills hn hready hu hr hL hk hl hh (hs0 ▸ hf)⟩,
        fun hk hap => ⟨pgunmap_unreferenced hn hready hL hk hap, pgunmap_shared hn hready hu hr hL hk hap,
          pgunmap_last hn hready hu hr hL hk hap⟩⟩
    · intro p s0 b vpn ends kept
      have hs : s0 = cached s C N := hs0
      rw [hs]
      refine ⟨fun hk => ⟨pgfree_bad hn hready hu hr hL hk, pgfree_unreferenced hn hready hL hk, pgfree_shared hn hready hu hr hL hk,
          pgfree_last hn hready hu hr hL hk⟩,
        fun hk => ⟨pgalloc_bad hn hready hu hr hL hk, pgalloc_mapped hn hready hu hr hL hk, pgalloc_noRecord hn hready hu hr hL hk,
          fun fri s1 f s2 a h12 hattr hx hfree hfr hpath => pgalloc_allocates hn hready hu hr hL hk h12 hattr hx hfree hfr hpath⟩,
        fun hk => ⟨pgmap_bad hn hready hu hr hL hk, pgmap_mapped hn hready hu hr hL hk,
          fun a hok hx hpath => ⟨pgmap_maps hn hready hu hr hL hk hok hx hpath, pgmap_full hn hready hL hk hok hx hpath⟩⟩,
        second_mappings hn hready hu hr hL, fun at0 hat => ⟨fun hk hb => kv_bad hn hready hu hr (.inl ⟨hk, hb⟩),
          fun hk hb => kv_bad hn hready hu hr (.inr ⟨hk, hb⟩), fun h0 => kv_unmapped hn hready hu hr (hat.symm.trans h0),
          fun l h0 => ⟨kvspliceS_leaf hn hready hu hr (hat.symm.trans h0), kvtrim_leaf hn hready hu hr (hat.symm.trans h0)⟩⟩,
        fun l hk hen ha hb hpub hl => ⟨rampset_readOnly hn hready hu hr hk hen ha hb hpub hl, fun hw hcow hrepl =>
          ⟨rampset_free hn hready hu hr hk hen ha hb hpub hl hw hcow hrepl, rampset_waits hn hready hk hen ha hb hpub hl hw hcow hrepl⟩⟩⟩
  · intro n w x r done heg
    obtain ⟨C, N, hs1⟩ := engAddr_cached s o ((o.args.getD 0 0).toNat % 2 ^ 48)
    rw [ha] at hs1
    obtain rfl : s1 = cached s C N := hs1
    exact ⟨farAtomic_performs hf hready h0 ha heg hr hu, fun _ => farAtomic_ecc hf hready h0 ha, timeout_stops hf hready h0 ha heg⟩

end Sys2Proof.Machine
end

section
/-! SUPPORT. O50: units of channels, folds, KVAPP, ATTD and LFILT. -/

namespace Sys2Proof.Machine

open Laws

/-! ### What the look-ups and reads of a unit leave alone (R186, R202, R370) -/

/-- An operation with another die stack under it. -/
def withUnit (g : Op → Nat) (q : Op) : Op := { q with unit := g q }

/-- The look-ups and reads of a unit fill caches, settle and mark writes under way, count corrected errors and note the stack that
a unit works on: no strand, die or partition changes, and no other field of an operation. -/
def Fetched (s s1 : State) : Prop :=
  s1 = { s with mem := s1.mem, fe := s1.fe, poison := s1.poison, soft := s1.soft, written := s1.written, conts := s1.conts
                egress := s1.egress, repl := s1.repl, clusters := s1.clusters, nfree := s1.nfree, dev := s1.dev
                bduRot := s1.bduRot, ops := s1.ops }
    ∧ (∃ g, s1.ops = s.ops.map (withUnit g)) ∧ (Memory.wf s.mem = true → Memory.wf s1.mem = true)

theorem map_withUnit_self (l : List Op) : l.map (withUnit Op.unit) = l := List.map_id' l

theorem Fetched.refl (s : State) : Fetched s s := ⟨rfl, ⟨Op.unit, (map_withUnit_self _).symm⟩, id⟩

theorem Fetched.trans {a b c : State} (h : Fetched a b) (k : Fetched b c) : Fetched a c := by
  obtain ⟨hab, ⟨g, hg⟩, hw⟩ := h
  obtain ⟨hbc, ⟨g', hg'⟩, hw'⟩ := k
  refine ⟨?_, ⟨fun q => g' (withUnit g q), ?_⟩, fun h => hw' (hw h)⟩
  · rw [hbc, hab]
  · rw [hg', hg, List.map_map]
    rfl

theorem Fetched.strands {s s1 : State} (h : Fetched s s1) : s1.strands = s.strands := by rw [h.1]
theorem Fetched.dies {s s1 : State} (h : Fetched s s1) : s1.dies = s.dies := by rw [h.1]
theorem Fetched.clParts {s s1 : State} (h : Fetched s s1) : s1.clParts = s.clParts := by rw [h.1]
theorem Fetched.ev {s s1 : State} (h : Fetched s s1) : s1.ev = s.ev := by rw [h.1]
theorem Fetched.wf {s s1 : State} (h : Fetched s s1) (hs : Memory.wf s.mem = true) : Memory.wf s1.mem = true := h.2.2 hs

theorem Fetched.isRunning {s s1 : State} (h : Fetched s s1) (n : Nat) : isRunning s1 n = isRunning s n := by
  rw [Machine.isRunning, h.strands, Machine.isRunning]

theorem Addressed.fetched {s s1 : State} (h : Addressed s s1) (hw : Memory.wf s.mem = true → Memory.wf s1.mem = true) :
    Fetched s s1 := by
  have ho : s1.ops = s.ops := by rw [h]
  refine ⟨?_, ⟨Op.unit, ho.trans (map_withUnit_self _).symm⟩, hw⟩
  rw [h]

theorem engAddr_wf (s : State) (o : Op) (va : Nat) (w : Bool) (h : Memory.wf s.mem = true) :
    Memory.wf (engAddr s o va w).2.mem = true := by
  have hx : Memory.wf (xlate s o.cl o.pid o.root (va / 32768 % 2 ^ 33)).2.mem = true := (xlate_mem ..).symm ▸ h
  obtain h1 | ⟨-, h1⟩ := engAddr_cases s o va w
  · exact h1.symm ▸ hx
  · exact h1.symm ▸ inv_settleRepl _ _ hx

theorem fetched_engAddr (s : State) (o : Op) (va : Nat) (w : Bool) : Fetched s (engAddr s o va w).2 :=
  (engAddr_addressed s o va w).fetched (engAddr_wf s o va w)

theorem fetched_correctSoft (s : State) (a n : Nat) : Fetched s (correctSoft s a n) := by
  rw [correctSoft_eq]
  exact ⟨rfl, ⟨Op.unit, (map_withUnit_self _).symm⟩, id⟩

theorem fetched_seeWrites (s : State) (d a n : Nat) : Fetched s (seeWrites s d a n) :=
  ⟨rfl, ⟨Op.unit, (map_withUnit_self _).symm⟩, id⟩

theorem fetched_foldl {α : Type} {f : State → α → State} (hf : ∀ s x, Fetched s (f s x)) :
    ∀ (l : List α) (s : State), Fetched s (l.foldl f s)
  | [], s => .refl s
  | x :: l, s => (hf s x).trans (fetched_foldl hf l (f s x))

theorem fetched_setUnit (s : State) (id u : Nat) : Fetched s (updOp s id (fun o => { o with unit := u })) := by
  refine ⟨rfl, ⟨fun q => if q.id == id then u else q.unit, List.map_congr_left fun q _ => ?_⟩, fun h => h⟩
  rw [withUnit]
  split_ifs <;> rfl

theorem fetched_engPieces (o : Op) (w : Bool) : ∀ (k : Nat) (s : State) (va n : Nat), Fetched s (engPieces s o w k va n).2
  | 0, s, _, _ => .refl s
  | k + 1, s, va, n => by
    unfold engPieces
    split
    · exact .refl s
    · have h1 := fetched_engAddr s o (va % 2 ^ 48) w
      generalize engAddr s o (va % 2 ^ 48) w = r at h1 ⊢
      obtain ⟨e | ⟨a, x⟩, s1⟩ := r
      · exact h1
      · have h2 := fetched_engPieces o w k s1 (va + min n (32768 - va % 32768)) (n - min n (32768 - va % 32768))
        dsimp only
        generalize engPieces s1 o w k _ _ = r2 at h2 ⊢
        obtain ⟨e | l, s2⟩ := r2 <;> exact h1.trans h2

theorem fetched_engFetch (s : State) (o : Op) (va n : Nat) : Fetched s (engFetch s o va n).2 := by
  have h1 := fetched_engPieces o false (n / 32768 + 2) s va n
  unfold engFetch
  generalize engPieces s o false (n / 32768 + 2) va n = r at h1 ⊢
  obtain ⟨e | l, s1⟩ := r
  · exact h1
  · dsimp only
    cases eccVa s1 va l with
    | some v => exact h1
    | none => exact h1.trans (fetched_foldl (fun s e => (fetched_correctSoft s e.1 e.2.1).trans (fetched_seeWrites ..)) l s1)

theorem fetched_kvRead (o : Op) (src page : Nat) : ∀ (l : List (Nat × Nat × Nat)) (s : State), Fetched s (kvRead o src page l s).2
  | [], s => .refl s
  | (a, b, n) :: l, s => by
    have h1 := fetched_engFetch s o (src + a) n
    unfold kvRead
    generalize engFetch s o (src + a) n = r at h1 ⊢
    obtain ⟨e | x, s1⟩ := r
    · exact h1
    · have h2 := fetched_kvRead o src page l s1
      dsimp only
      generalize kvRead o src page l s1 = r2 at h2 ⊢
      obtain ⟨e | y, s2⟩ := r2 <;> exact h1.trans h2

theorem fetched_logitPages (o : Op) : ∀ (l : List Nat) (s : State), Fetched s (logitPages s o l).2
  | [], s => .refl s
  | va :: l, s => by
    have h1 := fetched_engAddr s o (va % 2 ^ 48) false
    unfold logitPages
    generalize engAddr s o (va % 2 ^ 48) false = r at h1 ⊢
    obtain ⟨e | ⟨a, x⟩, s1⟩ := r
    · exact h1
    · have h2 := fetched_logitPages o l s1
      dsimp only
      generalize logitPages s1 o l = r2 at h2 ⊢
      obtain ⟨e | y, s2⟩ := r2 <;> exact h1.trans h2

theorem fetched_bduRecord (s : State) (o : Op) (u : Nat) (rot : Word) (g : Nat) : Fetched s (bduRecord s o u rot g).2 := by
  unfold bduRecord
  cases s.bduRot.find? (fun e => e.1 == u && e.2.1 == o.pid && e.2.2.1 == g) with
  | some e => exact .refl s
  | none =>
    have h1 := fetched_engFetch s o (rotVa rot g) 1024
    dsimp only
    generalize engFetch s o (rotVa rot g) 1024 = r at h1 ⊢
    obtain ⟨e | bs, s1⟩ := r
    · exact h1
    · exact h1.trans ⟨rfl, ⟨Op.unit, (map_withUnit_self _).symm⟩, id⟩

/-- The state beside a look-up's result. -/
theorem Fetched.of {α : Type} {s s0 s1 : State} {r : α × State} {x : α} (h : Fetched s s0) (hr : Fetched s0 r.2) (e : r = (x, s1)) :
    Fetched s s1 := by
  rw [e] at hr
  exact h.trans hr

theorem fetched_ite {α : Type} {s : State} {c : Prop} [Decidable c] {r r' : α × State} (h : Fetched s r.2) (h' : Fetched s r'.2) :
    Fetched s (if c then r else r').2 := by
  split
  · exact h
  · exact h'

/-- Finding the scales of a page. -/
theorem fetched_scales (s : State) (o : Op) (x : PageView) : Fetched s (if x.blk = 0 then (Except.ok 0, s)
    else match engAddr s o x.scaleVa false with
      | (.error c, s) => (.error (c, x.scaleVa), s)
      | (.ok (a, e), s) => if x.scaleOk (recFmt s o.pid e.fri) then (.ok a, s) else (.error (Cause.format, x.scaleVa), s)).2 := by
  split
  · exact .refl s
  · split
    next c s1 h1 => exact (Fetched.refl s).of (fetched_engAddr ..) h1
    next a e s1 h1 => split_ifs <;> exact (Fetched.refl s).of (fetched_engAddr ..) h1

theorem fetched_attdCheck (s : State) (o : Op) (stk : Option Nat) (i : Nat) : Fetched s (attdCheck s o stk i).2 := by
  unfold attdCheck
  dsimp only
  split
  next a s1 h1 =>
    have f1 := (Fetched.refl s).of (fetched_engFetch ..) h1
    split
    next e s2 h2 => exact f1.of (fetched_engPieces ..) h2
    next l s2 h2 =>
      have f2 := f1.of (fetched_engPieces ..) h2
      split
      next e s3 h3 => exact f2.of (fetched_engPieces ..) h3
      next l s3 h3 =>
        have f3 := f2.of (fetched_engPieces ..) h3
        split
        next e s4 h4 => exact f3.of (fetched_engPieces ..) h4
        next l s4 h4 => exact f3.of (fetched_engPieces ..) h4
  next e s1 h1 => exact (Fetched.refl s).of (fetched_engFetch ..) h1
  next ent s1 h1 =>
    have f1 := (Fetched.refl s).of (fetched_engFetch ..) h1
    split
    next e s2 h2 => exact f1.of (fetched_engAddr ..) h2
    next a k s2 h2 =>
      have f2 := f1.of (fetched_engAddr ..) h2
      split
      next e s3 h3 => exact f2.of (fetched_engAddr ..) h3
      next b v s3 h3 =>
        have f3 := f2.of (fetched_engAddr ..) h3
        have f4 := f3.trans (fetched_setUnit s3 o.id (stk.getD ((physStack (recPhys s3 o.pid k.fri)).getD 16) % 16))
        generalize updOp s3 o.id _ = s4 at f4 ⊢
        generalize hr : ite (rotEn (o.args.getD 4 0) = true) _ _ = r
        have f5 : Fetched s4 r.2 := by
          rw [← hr]
          split
          · exact fetched_bduRecord ..
          · exact .refl s4
        split
        next a s5 h5 => exact f4.of f5 rfl
        next rec5 s5 h5 =>
          have f6 : Fetched s s5 := f4.of f5 rfl
          split
          next e s6 h6 => exact f6.of (fetched_engPieces ..) h6
          next l s6 h6 =>
            have f7 := f6.of (fetched_engPieces ..) h6
            split
            next e s7 h7 => exact f7.of (fetched_engPieces ..) h7
            next l s7 h7 =>
              have f8 := f7.of (fetched_engPieces ..) h7
              refine fetched_ite f8 (fetched_ite f8 (fetched_ite f8 (fetched_ite f8 ?_)))
              split
              next e s8 h8 => exact f8.of (fetched_engPieces ..) h8
              next l s8 h8 =>
                have f9 := f8.of (fetched_engPieces ..) h8
                split
                next e => exact fetched_ite f9 (fetched_ite f9 f9)
                next bs =>
                  refine fetched_ite f9 (fetched_ite f9 ?_)
                  split
                  next e s9 h9 => exact f9.of (fetched_scales ..) h9
                  next ks s9 h9 =>
                    have f10 := f9.of (fetched_scales ..) h9
                    split
                    next e s10 h10 => exact f10.of (fetched_scales ..) h10
                    next vs s10 h10 => exact f10.of (fetched_scales ..) h10

/-! ### How a unit ends an operation or stops it (R185, R201, R202) -/

section
variable {s : State} {id : Nat} {q : Op} (hf : opFind s id = some q)
include hf

theorem opFind_id : q.id = id := by simpa using List.find?_some hf

theorem opFind_finSet (x : Nat) : (finSet s id x).ops.find? (fun o => o.id == id) = some { q with fin := some x } := by
  unfold opFind at hf
  have h := find_updOp (s := s) (id := id) (f := fun o => { o with fin := some x }) fun _ => rfl
  rw [hf] at h
  exact h

/-- The end of an operation of a running strand changes nothing but strands and operations, whether it completes now or later. -/
theorem doneOp_onlyDone (x : Nat) (hr : isRunning s q.task = true) : OnlyDone s (doneOp s id x) := by
  rw [doneOp_eq, opFind_finSet hf]
  dsimp only
  split
  · exact (onlyDone_finSet s id x).trans (finishOp_onlyDone (s := finSet s id x) (o := { q with fin := some x }) hr x)
  · exact onlyDone_finSet s id x

theorem doneOp_ends (x : Nat) (hu : Unhindered s q) : Finished s (doneOp s id x) q x q.flags := by
  cases hr : isRunning s q.task with
  | true => exact (doneOp_finished x hf hu hr).1
  | false =>
    refine ⟨fun r h => ?_, fun n t ht hid => absurd (isRunning_of_strand ht) (by rw [hid, hr]; exact Bool.false_ne_true)⟩
    rw [doneOp_completes x hf hu] at h
    exact finishOp_no h

end

section
variable {s : State} {o : Op} (hn : Names s o)
include hn

theorem Names.opFind : opFind s o.id = some o := by
  obtain ⟨hf, -, -⟩ := hn
  have hid : o.id = s.ev.id := by simpa using List.find?_some hf
  exact hid ▸ hf

theorem Fetched.opFind {s1 : State} (h : Fetched s s1) : ∃ u, opFind s1 o.id = some { o with unit := u } := by
  obtain ⟨-, ⟨g, ho⟩, -⟩ := h
  have hf := hn.opFind
  refine ⟨g o, ?_⟩
  unfold Machine.opFind at *
  rw [ho, List.find?_map, show ((fun q : Op => q.id == o.id) ∘ withUnit g) = fun q => q.id == o.id from rfl, hf]
  rfl

/-- The state in which a unit's operation has stopped. -/
theorem Fetched.stopped {s1 s0 : State} (h : Fetched s s1) (h0 : s1.dies = s0.dies) (cause : Cause) (unitKind : Nat) (va index : Word) :
    let s' := stopOp s1 ((s1.ops.find? (fun q => q.id == o.id)).getD o) cause unitKind va index
    OpStopped s0 s' o (causeCode cause) va index ∧ s'.mem = s1.mem := by
  obtain ⟨u, hf⟩ := h.opFind hn
  unfold Machine.opFind at hf
  intro s'
  have hs' : s' = stopOp s1 { o with unit := u } cause unitKind va index := by
    show stopOp s1 _ cause unitKind va index = _
    rw [hf]
    rfl
  rw [hs']
  exact stopOp_stopped ⟨_, List.mem_of_find?_eq_some hf, rfl⟩ h0 cause unitKind va index

end

/-- A unit that stops its operation has changed no more than its look-ups and reads do. -/
def StopsFrom (s : State) : UnitRes → Prop
  | .stop _ _ _ s1 => Fetched s s1
  | _ => True

theorem stopsFrom_trans {s s1 : State} (h : Fetched s s1) : ∀ r : UnitRes, StopsFrom s1 r → StopsFrom s r
  | .stop _ _ _ _, h' => h.trans h'
  | .more _, _ => trivial
  | .last _ _, _ => trivial
  | .hold _, _ => trivial

section
variable {s s1 : State} {o : Op} {i : Instr} {n : Nat} {r : UnitRes} (hx : exec i s = .next (applyUnit o n r))
include hx

theorem unit_goesOn (hr : r = .more s1) : Performs i s (fun s' => s' = s1) := by
  subst hr
  exact fun _ => ⟨_, hx, rfl⟩

theorem unit_ends {x : Nat} {q : Op} (hr : r = .last x s1) (hf : opFind s1 o.id = some q) (hu : Unhindered s1 q) :
    Performs i s (fun s' => Finished s1 s' q x q.flags ∧ (isRunning s1 q.task = true → SameMem s1 s')) := by
  subst hr
  exact fun _ => ⟨_, hx, doneOp_ends hf x hu, fun h => (doneOp_onlyDone hf x h).sameMem⟩

theorem unit_stops {c : Cause} {va ix : Word} (hn : Names s o) (hstop : StopsFrom s r) (hr : r = .stop c va ix s1)
    (hd : drained s1 o = true) {s0 : State} (h0 : s1.dies = s0.dies) (hm : SameMem s0 s1) :
    Performs i s (fun s' => OpStopped s0 s' o (causeCode c) va ix ∧ SameMem s0 s') := by
  subst hr
  obtain ⟨hst, hmem⟩ := Fetched.stopped hn hstop h0 c n va ix
  refine fun _ => ⟨_, hx.trans (congrArg _ (if_pos hd)), hst, fun b => ?_⟩
  rw [hmem, hm b]

end

/-! ### The events run the unit of their operation -/

section
variable {s : State} {o : Op} (hn : Names s o)
include hn

theorem channelUnit_on (hu : s.ev.unit ≠ 1) (hk : onChannel o.kind = true) (hh : channelHead s o = true) (hr : opReady s o = true) :
    exec .channelUnit s = .next (applyUnit o 0 (unitData s o)) := by
  obtain ⟨hf, hfin, -⟩ := hn
  have hx : execChannelUnit s = .next (applyUnit o 0 (unitData s o)) := by
    unfold execChannelUnit opFind
    rw [if_neg hu, hf]
    dsimp only
    rw [hfin, hk, hh, hr]
    rfl
  exact hx

theorem redmUnit_on (hk : o.kind = .redm) (hh : channelHead s o = true) (hr : opReady s o = true) :
    exec .redmUnit s = .next (applyUnit o 0 (unitRedm s o)) := by
  obtain ⟨hf, hfin, -⟩ := hn
  have hx : execRedmUnit s = .next (applyUnit o 0 (unitRedm s o)) := by
    unfold execRedmUnit opFind
    rw [hf]
    dsimp only
    rw [hfin, hk, hh, hr]
    rfl
  exact hx

theorem kvappToken_on (hk : o.kind = .kvapp) (hh : channelHead s o = true) (hr : opReady s o = true) :
    exec .kvappToken s = .next (applyUnit o 0 (unitKvapp s o)) := by
  obtain ⟨hf, -, -⟩ := hn
  have hx : execKvappToken s = .next (applyUnit o 0 (unitKvapp s o)) := by
    unfold execKvappToken
    rw [hf]
    dsimp only
    rw [hk, hh, hr]
    rfl
  exact hx

theorem attdPage_on (hk : o.kind = .attd) (hr : bduReady s o = true) : exec .attdPage s = .next (applyUnit o 2 (unitAttd s o)) := by
  obtain ⟨hf, -, -⟩ := hn
  have hx : execAttdPage s = .next (applyUnit o 2 (unitAttd s o)) := by
    unfold execAttdPage
    rw [hf]
    dsimp only
    rw [hk, hr]
    rfl
  exact hx

theorem lfiltPass_on (hk : o.kind = .lfilt) (hr : bduReady s o = true) : exec .lfiltPass s = .next (applyUnit o 2 (unitLfilt s o)) := by
  obtain ⟨hf, -, -⟩ := hn
  have hx : execLfiltPass s = .next (applyUnit o 2 (unitLfilt s o)) := by
    unfold execLfiltPass
    rw [hf]
    dsimp only
    rw [hk, hr]
    rfl
  exact hx

end

/-! ### No unit changes more before it stops -/

theorem stopsFrom_copyWord (s : State) (o : Op) (dst src : Nat) (f : Bool) (index : Word) {next : State → UnitRes}
    (hnext : ∀ s1 s2, StopsFrom s1 (next s2)) : StopsFrom s (copyWord s o dst src f index next) := by
  unfold copyWord
  split
  next c s1 h1 => exact (Fetched.refl s).of (fetched_engAddr ..) h1
  next a x s1 h1 =>
    have f1 := (Fetched.refl s).of (fetched_engAddr ..) h1
    split
    next c s2 h2 => exact f1.of (fetched_engAddr ..) h2
    next b y s2 h2 =>
      have f2 := f1.of (fetched_engAddr ..) h2
      split_ifs
      · exact f2
      · exact f2
      · exact f2
      · trivial
      · exact hnext ..

theorem stopsFrom_outWord (s : State) (o : Op) (w : OutWord) : StopsFrom s (outWord s o w) := by
  unfold outWord
  split <;> trivial

theorem stopsFrom_cpy (s : State) (o : Op) : StopsFrom s (unitCpy s o) := by
  unfold unitCpy
  dsimp only
  split
  · trivial
  · exact stopsFrom_copyWord _ _ _ _ _ _ fun s1 s2 => by split <;> trivial

theorem stopsFrom_cpy2d (s : State) (o : Op) : StopsFrom s (unitCpy2d s o) := by
  unfold unitCpy2d
  dsimp only
  split
  · trivial
  · exact stopsFrom_copyWord _ _ _ _ _ _ fun s1 s2 => by split_ifs <;> trivial

/-- What a GATH or SCAT does after its last word of an entry (R197). -/
def tableAfter (o : Op) (s : State) : UnitRes :=
  if o.i + 1 < lo32 (o.args.getD 2 0) then .more (updOp s o.id (fun o => { o with i := o.i + 1, j := 0, acc := [] })) else .last 0 s

/-- What a GATH or SCAT does with a word of the table (R197). -/
def tableMove (o : Op) (scatter : Bool) (s : State) (te : Word) : UnitRes :=
  if bit te 63 then tableAfter o s
  else if va48 te % 8 ≠ 0 then .stop .align (BitVec.ofNat 64 (va48 te)) (BitVec.ofNat 64 (2 ^ 32 * o.i + o.j)) s
  else
    let x := offVa (va48 te) o.j
    let y := offVa (va48 (if scatter then o.args.getD 1 0 else o.args.getD 0 0)) (o.i * hi16 (o.args.getD 2 0) + o.j)
    copyWord s o (if scatter then x else y) (if scatter then y else x) (o.args.getD 4 0 != 0) (BitVec.ofNat 64 (2 ^ 32 * o.i + o.j))
      (fun s => if o.j + 8 < hi16 (o.args.getD 2 0) then .more (updOp s o.id (fun q => { q with j := o.j + 8, acc := [te] }))
        else tableAfter o s)

theorem stopsFrom_tableAfter (s s1 : State) (o : Op) : StopsFrom s1 (tableAfter o s) := by
  unfold tableAfter
  split <;> trivial

theorem stopsFrom_tableMove (s : State) (o : Op) (b : Bool) (te : Word) : StopsFrom s (tableMove o b s te) := by
  unfold tableMove
  dsimp only
  split
  · exact stopsFrom_tableAfter ..
  · split
    · exact .refl s
    · refine stopsFrom_copyWord _ _ _ _ _ _ fun s1 s2 => ?_
      split
      · trivial
      · exact stopsFrom_tableAfter ..

/-- The address of the entry that a GATH or SCAT reads (R197). -/
def tableVa (o : Op) (scatter : Bool) : Nat := offVa (va48 (if scatter then o.args.getD 0 0 else o.args.getD 1 0)) (8 * o.i)

section
variable {s : State} {o : Op} (b : Bool) (hi : o.i < lo32 (o.args.getD 2 0))
include hi

theorem unitTable_held {te : Word} {l : List Word} (ha : o.acc = te :: l) : unitTable s o b = tableMove o b s te := by
  unfold unitTable
  rw [if_neg (Nat.not_le.mpr hi), ha] <;> rfl

theorem unitTable_error (h0 : o.acc = []) {c : Cause} {s1 : State} (ha : engAddr s o (tableVa o b) false = (.error c, s1)) :
    unitTable s o b = .stop c (BitVec.ofNat 64 (tableVa o b)) (BitVec.ofNat 64 (2 ^ 32 * o.i + o.j)) s1 := by
  unfold tableVa at *
  unfold unitTable
  dsimp only
  rw [if_neg (Nat.not_le.mpr hi), h0]
  dsimp only
  rw [ha]

theorem unitTable_found (h0 : o.acc = []) {pt : Nat} {x : TcEnt} {s1 : State}
    (ha : engAddr s o (tableVa o b) false = (.ok (pt, x), s1)) :
    unitTable s o b = if refused s1 pt then
        .stop .protection (BitVec.ofNat 64 (tableVa o b)) (BitVec.ofNat 64 (2 ^ 32 * o.i + o.j)) s1
      else if eccBad s1 pt 8 then
        .stop .memoryEcc (BitVec.ofNat 64 (tableVa o b)) (BitVec.ofNat 64 (2 ^ 32 * o.i + o.j)) s1
      else if bgBusy s1 o pt || replPending s1 o then .hold s1
      else tableMove o b (seeWrites (correctSoft s1 pt 8) (dieOf o.cl) pt 8) (BitVec.ofNat 64 (leNat (engRead s1 (dieOf o.cl) pt 8))) := by
  unfold tableVa at *
  unfold unitTable
  dsimp only
  rw [if_neg (Nat.not_le.mpr hi), h0]
  dsimp only
  rw [ha] <;> rfl

end

theorem stopsFrom_table (s : State) (o : Op) (b : Bool) : StopsFrom s (unitTable s o b) := by
  by_cases hi : lo32 (o.args.getD 2 0) ≤ o.i
  · unfold unitTable
    dsimp only
    rw [if_pos hi]
    trivial
  · have hi := Nat.lt_of_not_le hi
    cases hacc : o.acc with
    | cons te l =>
      rw [unitTable_held b hi hacc]
      exact stopsFrom_tableMove ..
    | nil =>
      cases ha : engAddr s o (tableVa o b) false with
      | mk r s1 =>
        have f1 := (Fetched.refl s).of (fetched_engAddr ..) ha
        cases r with
        | error c =>
          rw [unitTable_error b hi hacc ha]
          exact f1
        | ok e =>
          rw [unitTable_found b hi hacc ha]
          split_ifs
          · exact f1
          · exact f1
          · trivial
          · exact stopsFrom_trans ((f1.trans (fetched_correctSoft ..)).trans (fetched_seeWrites ..)) _ (stopsFrom_tableMove ..)

theorem stopsFrom_fld (s : State) (o : Op) : StopsFrom s (unitFld s o) := by
  unfold unitFld
  dsimp only
  split
  next c s1 h1 => exact (Fetched.refl s).of (fetched_engAddr ..) h1
  next a x s1 h1 =>
    have f1 := (Fetched.refl s).of (fetched_engAddr ..) h1
    split
    · exact f1
    split
    · exact f1
    split <;> trivial

theorem stopsFrom_fst (s : State) (o : Op) : StopsFrom s (unitFst s o) := by
  unfold unitFst
  dsimp only
  split
  · exact stopsFrom_outWord ..
  · split
    · trivial
    · split
      next c s1 h1 => exact (Fetched.refl s).of (fetched_engAddr ..) h1
      next a x s1 h1 =>
        have f1 := (Fetched.refl s).of (fetched_engAddr ..) h1
        split_ifs
        · exact f1
        · trivial
        · trivial
        · trivial

theorem stopsFrom_data (s : State) (o : Op) : StopsFrom s (unitData s o) := by
  unfold unitData
  split
  · exact stopsFrom_cpy ..
  · exact stopsFrom_cpy2d ..
  · exact stopsFrom_table ..
  · exact stopsFrom_table ..
  · exact stopsFrom_fld ..
  · exact stopsFrom_fst ..
  · trivial

theorem stopsFrom_redm (s : State) (o : Op) : StopsFrom s (unitRedm s o) := by
  unfold unitRedm
  dsimp only
  split
  · trivial
  · split
    next c s1 h1 => exact (Fetched.refl s).of (fetched_engAddr ..) h1
    next a x s1 h1 =>
      have f1 := (Fetched.refl s).of (fetched_engAddr ..) h1
      split
      next c s2 h2 => exact f1.of (fetched_engAddr ..) h2
      next b y s2 h2 =>
        have f2 := f1.of (fetched_engAddr ..) h2
        split
        · exact f2
        split
        · exact f2
        split
        · exact f2
        split
        · exact f2
        split
        · trivial
        · split_ifs <;> trivial

theorem stopsFrom_kvapp (s : State) (o : Op) : StopsFrom s (unitKvapp s o) := by
  unfold unitKvapp
  dsimp only
  split
  · exact stopsFrom_outWord ..
  split
  · trivial
  split
  · split
    · trivial
    split
    next c s1 h1 => exact (Fetched.refl s).of (fetched_engAddr ..) h1
    next a x s1 h1 =>
      have f1 := (Fetched.refl s).of (fetched_engAddr ..) h1
      split
      next c s2 h2 => exact f1.of (fetched_engAddr ..) h2
      next b y s2 h2 =>
        have f2 := f1.of (fetched_engAddr ..) h2
        split
        · trivial
        split
        next e s3 h3 => exact f2.of (fetched_engFetch ..) h3
        next bs s3 h3 => split_ifs <;> trivial
  split
  · trivial
  split
  next c s1 h1 => exact (Fetched.refl s).of (fetched_engAddr ..) h1
  next a x s1 h1 =>
    have f1 := (Fetched.refl s).of (fetched_engAddr ..) h1
    split
    next c s2 h2 => exact f1.of (fetched_engAddr ..) h2
    next b y s2 h2 =>
      have f2 := f1.of (fetched_engAddr ..) h2
      split
      next e s3 h3 => exact f2.of (fetched_kvRead ..) h3
      next kw s3 h3 =>
        have f3 := f2.of (fetched_kvRead ..) h3
        split
        next e s4 h4 => exact f3.of (fetched_kvRead ..) h4
        next vw s4 h4 => split <;> trivial

theorem stopsFrom_lfilt (s : State) (o : Op) : StopsFrom s (unitLfilt s o) := by
  unfold unitLfilt
  split
  · exact stopsFrom_outWord ..
  split
  · trivial
  split
  · trivial
  unfold lfiltPass
  dsimp only
  split
  next c s1 h1 => exact (Fetched.refl s).of (fetched_engAddr ..) h1
  next a x s1 h1 =>
    have f1 := (Fetched.refl s).of (fetched_engAddr ..) h1
    have f2 := f1.trans (fetched_setUnit s1 o.id ((physStack (recPhys s1 o.pid x.fri)).getD 0))
    split
    next e s2 h2 => exact f2.of (fetched_logitPages ..) h2
    next ps s2 h2 =>
      have f3 := f2.of (fetched_logitPages ..) h2
      generalize (if recFmt s1 o.pid x.fri = 1 then 4 else if recFmt s1 o.pid x.fri = 2 ∨ recFmt s1 o.pid x.fri = 3 then 2 else 1) = sz
      have f4 := f3.trans (fetched_engFetch s2 o ((o.args.getD 0 0).toNat % 2 ^ 48) ((o.args.getD 1 0).toNat % 2 ^ 24 * sz))
      generalize engFetch s2 o _ _ = r at f4 ⊢
      obtain ⟨got, s3⟩ := r
      dsimp only at f4 ⊢
      split
      next e s4 h4 => exact f4.of (fetched_engPieces ..) h4
      next l s4 h4 =>
        have f5 := f4.of (fetched_engPieces ..) h4
        split
        · exact f5
        · split
          next e s5 h5 => exact f5.of (fetched_engPieces ..) h5
          next ws s5 h5 =>
            have f6 := f5.of (fetched_engPieces ..) h5
            split
            · exact f6
            split
            · exact f6
            · exact f6
            · trivial
            · trivial

/-- Forming the words of a commit. -/
theorem fetched_commit (s : State) (o : Op) (dest n : Nat) (ws : List (Nat × List Byte)) :
    Fetched s (match engPieces s o true 3 dest n with
      | (.error e, s) => (.error e, s)
      | (.ok l, s) => (.ok (pieceWords l false ws), s) : Except (Cause × Nat) (List OutWord) × State).2 := by
  split
  next e s1 h1 => exact (Fetched.refl s).of (fetched_engPieces ..) h1
  next l s1 h1 => exact (Fetched.refl s).of (fetched_engPieces ..) h1

theorem stopsFrom_attd (s : State) (o : Op) : StopsFrom s (unitAttd s o) := by
  unfold unitAttd
  dsimp only
  split
  · split
    · trivial
    · exact stopsFrom_outWord ..
  split
  · trivial
  split
  · generalize hr : ite (bit (o.args.getD 0 0) 63 = true) _ _ = r
    have f1 : Fetched s r.2 := by
      rw [← hr]
      split
      · exact .refl s
      · split
        next e s1 h1 => exact (Fetched.refl s).of (fetched_engFetch ..) h1
        next r s1 h1 => exact (Fetched.refl s).of (fetched_engFetch ..) h1
    obtain ⟨e | ⟨t, i⟩, s1⟩ := r
    · exact f1
    · dsimp only
      split
      next e s2 h2 => exact f1.of (fetched_engFetch ..) h2
      next q s2 h2 => trivial
  split
  · split
    · trivial
    split
    next e s1 h1 => exact (Fetched.refl s).of (fetched_commit ..) h1
    next ws s1 h1 => trivial
  unfold attdPage
  dsimp only
  split
  next e s1 h1 => exact (Fetched.refl s).of (fetched_attdCheck ..) h1
  next g u s1 h1 =>
    have f1 := (Fetched.refl s).of (fetched_attdCheck ..) h1
    split
    · exact f1
    · exact f1
    · split
      next e s2 h2 => exact (f1.trans (fetched_foldl (fun s _ => fetched_correctSoft ..) _ _)).of (fetched_commit ..) h2
      next ws s2 h2 => trivial

/-! ### A word of a unit goes where it belongs (R195, R370-R372) -/

theorem feGet_wordOf (s : State) {a b : Nat} (h : wordOf a = wordOf b) : feGet s a = feGet s b := by rw [feGet, feGet, h]

theorem feGet_foldl_feFill (f : Nat → Nat) (b : Nat) : ∀ (l : List Nat) (s : State),
    feGet s b = true ∨ (∃ i ∈ l, wordOf (f i) = wordOf b) → feGet (l.foldl (fun s i => feFill s (f i)) s) b = true
  | [], s, h => by
    obtain h | ⟨i, hi, -⟩ := h
    · exact h
    · exact absurd hi List.not_mem_nil
  | i :: l, s, h => by
    refine feGet_foldl_feFill f b l (feFill s (f i)) ?_
    by_cases hw : wordOf b = wordOf (f i)
    · exact .inl ((feGet_wordOf _ hw).trans (feGet_feFill_same ..))
    · rw [feGet_feFill_ne s hw]
      obtain h | ⟨k, hk, hkb⟩ := h
      · exact .inl h
      · rcases List.mem_cons.mp hk with rfl | hk
        · exact absurd hkb.symm hw
        · exact .inr ⟨k, hk, hkb⟩

theorem feGet_fillWords (s : State) {a n b : Nat} (h1 : a ≤ b) (h2 : b < a + n) : feGet (fillWords s a n) b = true := by
  refine feGet_foldl_feFill (fun i => wordOf a + 8 * i) b _ s (.inr ⟨b / 8 - a / 8, List.mem_range.mpr ?_, ?_⟩)
  · omega
  · unfold wordOf
    omega

theorem fillWords_keeps (s : State) (a n : Nat) :
    fillWords s a n = { s with fe := (fillWords s a n).fe, conts := (fillWords s a n).conts } := by
  unfold fillWords
  generalize List.range ((a % 8 + n + 7) / 8) = l
  induction l generalizing s with
  | nil => rfl
  | cons i l ih =>
    rw [List.foldl_cons, ih]
    rfl

theorem perform_mem (s : State) (a : Nat) (bs : List Byte) (f : Bool) : (perform s a bs f).mem = wrBytes s.mem a bs := by
  unfold perform
  dsimp only
  split
  · rw [fillWords_keeps]
    rfl
  · rfl

theorem perform_ways (s : State) (a : Nat) (bs : List Byte) (f : Bool) :
    (perform s a bs f).egress = s.egress ∧ (perform s a bs f).repl = s.repl ∧ (perform s a bs f).ops = s.ops
      ∧ (perform s a bs f).dies = s.dies := by
  unfold perform
  dsimp only
  split
  · rw [fillWords_keeps]
    exact ⟨rfl, rfl, rfl, rfl⟩
  · exact ⟨rfl, rfl, rfl, rfl⟩

theorem feGet_perform (s : State) {a b : Nat} {bs : List Byte} (h1 : a ≤ b) (h2 : b < a + bs.length) : feGet (perform s a bs true) b = true := by
  unfold perform
  exact feGet_fillWords _ h1 h2

/-- The buffers of the dies, without what reads have seen of them. -/
def unseen (s : State) : List EgWrite := s.egress.map (fun e => { e with seen := false })

theorem wordGoes_putWord {s : State} (hwf : Memory.wf s.mem = true) (o : Op) (w : OutWord) : WordGoes s (putWord s o w) o w := by
  unfold WordGoes putWord
  dsimp only
  refine ⟨fun hr => ?_, fun hr hh => ?_, fun hr hh => ?_⟩
  · rw [if_pos hr]
    exact ⟨fun _ => rfl, rfl, _, rfl, rfl, rfl, rfl, rfl, rfl, rfl, rfl⟩
  · rw [if_neg (by rw [hr]; exact Bool.false_ne_true), if_pos hh]
    obtain ⟨he, hrep, -, -⟩ := perform_ways s w.addr w.bytes w.full
    refine ⟨?_, fun b hb => ?_, by rw [he], hrep, fun hf b h1 h2 => ?_⟩
    · rw [perform_mem]
      exact rdBytes_wrBytes_same hwf ..
    · rw [perform_mem, rdCell_wrBytes _ _ _ _ hwf, if_neg (by omega)]
    · rw [hf]
      exact feGet_perform s h1 h2
  · rw [if_neg (by rw [hr]; exact Bool.false_ne_true), if_neg hh]
    exact ⟨fun _ => rfl, rfl, _, by rw [List.map_append]; rfl, rfl, rfl, rfl, rfl, rfl, rfl⟩

/-- What has gone where it belongs is told by memory, the full-empty bits and the writes under way. -/
theorem wordGoes_congr {s0 s s1 s' : State} {o : Op} {w : OutWord} (h : WordGoes s s1 o w) (hm : s.mem = s0.mem) (hu : unseen s = unseen s0)
    (hr : s.repl = s0.repl) (hm' : s'.mem = s1.mem) (hf' : s'.fe = s1.fe) (hu' : unseen s' = unseen s1) (hr' : s'.repl = s1.repl) :
    WordGoes s0 s' o w := by
  unfold unseen at hu hu'
  unfold WordGoes SameMem SameMemBut at *
  dsimp only at *
  simp only [hm, hu, hr] at h
  simp only [hm', hu', hr', feGet_congr hf']
  exact h

theorem fetched_onlySeen {s : State} (d a n : Nat) :
    let s' := seeWrites (correctSoft s a n) d a n
    s'.mem = s.mem ∧ unseen s' = unseen s ∧ s'.repl = s.repl ∧ s'.dies = s.dies ∧ s'.ops = s.ops := by
  intro s'
  have hs : s' = seeWrites (correctSoft s a n) d a n := rfl
  rw [correctSoft_eq] at hs
  rw [hs]
  refine ⟨rfl, ?_, rfl, rfl, rfl⟩
  unfold unseen seeWrites listUpd
  rw [List.map_map]
  exact List.map_congr_left fun e _ => by
    dsimp only [Function.comp_apply]
    split <;> rfl

theorem unhindered_seen {s : State} {o : Op} (h : Unhindered s o) (d a n : Nat) : Unhindered (seeWrites (correctSoft s a n) d a n) o := by
  obtain ⟨he, hr, hd⟩ := h
  rw [correctSoft_eq]
  refine ⟨fun e hm => ?_, hr, hd⟩
  obtain ⟨q, hq, rfl⟩ := List.mem_map.mp (show e ∈ listUpd s.egress _ _ from hm)
  have := he q hq
  split <;> exact this

/-! ### The channel's copies (R195-R197) -/

theorem mem_updOp {s : State} {id : Nat} {q : Op} (hf : opFind s id = some q) {f : Op → Op} (hid : ∀ r, (f r).id = r.id) :
    f q ∈ (updOp s id f).ops := by
  refine List.mem_of_find?_eq_some (p := fun r => r.id == id) ?_
  unfold opFind at hf
  rw [find_updOp hid, hf]
  rfl

theorem putWord_opsDies (s : State) (o : Op) (w : OutWord) : (putWord s o w).ops = s.ops ∧ (putWord s o w).dies = s.dies := by
  unfold putWord
  split
  · exact ⟨rfl, rfl⟩
  · split
    · obtain ⟨-, -, h1, h2⟩ := perform_ways s w.addr w.bytes w.full
      exact ⟨h1, h2⟩
    · exact ⟨rfl, rfl⟩

theorem opFind_congr {s s' : State} (h : s'.ops = s.ops) (id : Nat) : opFind s' id = opFind s id := by rw [opFind, opFind, h]

theorem OnlyDone.goes {s s1 s' : State} {o : Op} {w : OutWord} (h : WordGoes s s1 o w) (hd : OnlyDone s1 s') : WordGoes s s' o w :=
  wordGoes_congr h rfl rfl rfl hd.mem hd.fe (by rw [hd]; rfl) (by rw [hd])

/-- A word at its home on the operation's own die hinders nothing. -/
theorem unhindered_putWord {s : State} {o : Op} {w : OutWord} (h : Unhindered s o) (hr : w.repl = false) (hh : homeOf w.addr = dieOf o.cl) :
    Unhindered (putWord s o w) o := by
  obtain ⟨he, hrep, hd⟩ := h
  obtain ⟨h1, h2, -, -⟩ := perform_ways s w.addr w.bytes w.full
  rw [putWord, if_neg (by rw [hr]; exact Bool.false_ne_true), if_pos hh]
  exact ⟨fun e hm => he e (h1 ▸ hm), fun e hm => hrep e (h2 ▸ hm), hd⟩

theorem refused_false {s : State} (h : s.ev.flag = false) (a : Nat) : refused s a = false := by
  unfold refused
  rw [h]
  rfl

/-- Where nothing holds it back, the word is copied and the unit goes on from there. -/
theorem copyWord_moves {s s1 s2 : State} {o : Op} {dst src pa pd : Nat} {x y : TcEnt} (full : Bool) (ix : Word) (next : State → UnitRes)
    (hflag : s.ev.flag = false) (ha : engAddr s o src false = (.ok (pa, x), s1)) (hb : engAddr s1 o dst true = (.ok (pd, y), s2))
    (hm : MayMove s2 o pd pa) : copyWord s o dst src full ix next
      = next (engWrite (seeWrites (correctSoft s2 pa 8) (dieOf o.cl) pa 8) o y pd (engRead s2 (dieOf o.cl) pa 8) full) := by
  have hf2 : Fetched s s2 := ((Fetched.refl s).of (fetched_engAddr ..) ha).of (fetched_engAddr ..) hb
  have href : ∀ a, refused s2 a = false := refused_false (by rw [hf2.ev]; exact hflag)
  obtain ⟨h1, h2, h3, h4, h5⟩ := hm
  unfold copyWord
  rw [ha]
  dsimp only
  rw [hb]
  dsimp only
  rw [href, href, h1, h2, h3, h4, h5]
  rfl

section
variable {s s0 : State} {o : Op} (hn : Names s o) (h0 : Fetched s s0) (hflag : s.ev.flag = false)
include hn h0 hflag

theorem copiesWord_of {dst src : Nat} {full : Bool} {ix : Word} {nxt : Option (Nat × Nat)} {next : State → UnitRes}
    (hx : exec .channelUnit s = .next (applyUnit o 0 (copyWord s0 o dst src full ix next)))
    (hmore : ∀ n, nxt = some n → ∃ f : Op → Op, (∀ s1, next s1 = .more (updOp s1 o.id f))
      ∧ ∀ q, (f q).id = q.id ∧ (q.i = o.i → (f q).i = n.1) ∧ (f q).j = n.2 ∧ (f q).fin = q.fin)
    (hlast : nxt = none → ∀ s1, next s1 = .last 0 s1) : CopiesWord s s0 o dst src full nxt := by
  intro pa x s1 pd y s2 ha hb hm hr hi
  have hf2 : Fetched s s2 := (h0.of (fetched_engAddr ..) ha).of (fetched_engAddr ..) hb
  rw [copyWord_moves full ix next (by rw [h0.ev]; exact hflag) ha hb hm] at hx
  obtain ⟨m3, u3, r3, d3, o3⟩ := fetched_onlySeen (s := s2) (dieOf o.cl) pa 8
  have hu3 : ∀ o', Unhindered s2 o' → Unhindered (seeWrites (correctSoft s2 pa 8) (dieOf o.cl) pa 8) o' := fun _ h => unhindered_seen h ..
  have hr3 : isRunning (seeWrites (correctSoft s2 pa 8) (dieOf o.cl) pa 8) o.task = true := by
    rw [(hf2.trans ((fetched_correctSoft ..).trans (fetched_seeWrites ..))).isRunning, hr]
  have st3 : (seeWrites (correctSoft s2 pa 8) (dieOf o.cl) pa 8).strands = s2.strands :=
    ((fetched_correctSoft s2 pa 8).trans (fetched_seeWrites ..)).strands
  generalize seeWrites (correctSoft s2 pa 8) (dieOf o.cl) pa 8 = s3 at *
  generalize hw : outOf y pd (engRead s2 (dieOf o.cl) pa 8) full = w
  have hgo : WordGoes s2 (putWord s3 o w) o w :=
    wordGoes_congr (wordGoes_putWord (by rw [m3]; exact hf2.wf hi.1) o w) m3 u3 r3 rfl rfl rfl rfl
  obtain ⟨u, hf⟩ := hf2.opFind hn
  have hf4 : opFind (putWord s3 o w) o.id = some { o with unit := u } := by
    rw [opFind_congr ((putWord_opsDies ..).1.trans o3), hf]
  have hst4 : (putWord s3 o w).strands = s2.strands := (putWord_strands ..).trans st3
  have hr4 : isRunning (putWord s3 o w) o.task = true := by
    rw [isRunning, putWord_strands]
    exact hr3
  rw [engWrite, hw] at hx
  cases hnx : nxt with
  | some n =>
    obtain ⟨f, hnext, hfq⟩ := hmore n hnx
    rw [hnext] at hx
    refine ⟨_, hx, wordGoes_congr hgo rfl rfl rfl rfl rfl rfl rfl, fun m hm => ?_, fun h => absurd h (Option.some_ne_none _)⟩
    obtain ⟨h1, h2, h3, h4⟩ := hfq { o with unit := u }
    obtain rfl := Option.some.inj hm
    exact ⟨_, mem_updOp hf4 fun r => (hfq r).1, h1, h2 rfl, h3, h4.trans hn.2.1⟩
  | none =>
    rw [hlast hnx] at hx
    refine ⟨_, hx, OnlyDone.goes hgo (doneOp_onlyDone hf4 0 hr4), fun m hm => absurd hm.symm (Option.some_ne_none _), fun _ hrep hh hun => ?_⟩
    have hfin := doneOp_ends hf4 0 (unhindered_putWord (w := w) (hu3 o hun) (by rw [← hw]; exact hrep) (by rw [← hw]; exact hh))
    obtain ⟨h1, h2⟩ := hfin
    exact ⟨h1, fun n t ht => h2 n t (by rw [hst4]; exact ht)⟩

end

theorem offVa_nat (b k : Nat) : offVa b (k : Int) = (b + k) % 2 ^ 48 := by
  unfold offVa
  omega

/-- A signed field is read as an integer (R46). -/
theorem sextN_eq_toInt {w : Nat} (hw : 0 < w) (x : Nat) : sextN w x = (BitVec.ofNat w x).toInt := by
  obtain ⟨v, rfl⟩ := Nat.exists_eq_succ_of_ne_zero hw.ne'
  unfold sextN
  rw [BitVec.toInt_eq_toNat_cond, BitVec.toNat_ofNat, Nat.succ_eq_add_one, Nat.add_sub_cancel, pow_succ]
  push_cast
  generalize x % (2 ^ v * 2) = r
  split_ifs <;> omega

theorem sextN_mod (x : Nat) : sextN 32 (x % 2 ^ 32) = sextN 32 x := by
  unfold sextN
  rw [Nat.mod_mod]

theorem tableAfter_more {o : Op} (h : o.i + 1 < (o.args.getD 2 0).toNat % 2 ^ 32) (s : State) :
    tableAfter o s = .more (updOp s o.id (fun o => { o with i := o.i + 1, j := 0, acc := [] })) := if_pos h

theorem tableAfter_last {o : Op} (h : ¬ o.i + 1 < (o.args.getD 2 0).toNat % 2 ^ 32) (s : State) : tableAfter o s = .last 0 s := if_neg h

section
variable {s : State} {o : Op} (hn : Names s o) (hflag : s.ev.flag = false) (hu : s.ev.unit ≠ 1) (hr : opReady s o = true)
  (hh : channelHead s o = true)
include hn hu hr hh

/-- What the channel's event does with the operation at its head. -/
theorem dataUnit_on {r : UnitRes} (hk : onChannel o.kind = true) (hd : unitData s o = r) :
    exec .channelUnit s = .next (applyUnit o 0 r) := by
  rw [channelUnit_on hn hu hk hh hr, hd]

include hflag

theorem cpy_copies (hk : o.kind = .cpy) (hi : o.i < (o.args.getD 2 0).toNat % 2 ^ 32) :
    CopiesWord s s o (((o.args.getD 0 0).toNat % 2 ^ 48 + o.i) % 2 ^ 48) (((o.args.getD 1 0).toNat % 2 ^ 48 + o.i) % 2 ^ 48)
      (o.args.getD 4 0 != 0) (if o.i + 8 < (o.args.getD 2 0).toNat % 2 ^ 32 then some (o.i + 8, 0) else none) := by
  have hd : unitData s o = copyWord s o (((o.args.getD 0 0).toNat % 2 ^ 48 + o.i) % 2 ^ 48)
      (((o.args.getD 1 0).toNat % 2 ^ 48 + o.i) % 2 ^ 48) (o.args.getD 4 0 != 0) (BitVec.ofNat 64 o.i)
      (fun s => if (o.args.getD 2 0).toNat % 2 ^ 32 ≤ o.i + 8 then .last 0 s else .more (setIdx s o (o.i + 8) 0)) := by
    rw [← offVa_nat, ← offVa_nat]
    unfold unitData
    rw [hk]
    exact if_neg (Nat.not_le.mpr hi)
  refine copiesWord_of hn (.refl s) hflag (dataUnit_on hn hu hr hh (by rw [hk]; rfl) hd) (fun n h => ?_) fun h s1 => ?_
  · split_ifs at h with hlt
    obtain rfl := Option.some.inj h
    exact ⟨fun q => { q with i := o.i + 8, j := 0 }, fun s1 => if_neg (Nat.not_le.mpr hlt), fun q => ⟨rfl, fun _ => rfl, rfl, rfl⟩⟩
  · split_ifs at h with hlt
    exact if_pos (Nat.le_of_not_lt hlt)

theorem cpy2d_copies (hk : o.kind = .cpy2d) (hi : o.i < (o.args.getD 2 0).toNat / 2 ^ 32 % 2 ^ 16)
    (hj : o.j < (o.args.getD 2 0).toNat % 2 ^ 32) :
    let stride := fun (n : Nat) => (BitVec.ofNat 32 ((o.args.getD 3 0).toNat / 2 ^ n)).toInt
    let at' := fun (base n : Nat) => (((base : Int) + (o.i * stride n + o.j)) % (2 ^ 48 : Int)).toNat
    CopiesWord s s o (at' ((o.args.getD 0 0).toNat % 2 ^ 48) 0) (at' ((o.args.getD 1 0).toNat % 2 ^ 48) 32) (o.args.getD 4 0 != 0)
      (if o.j + 8 < (o.args.getD 2 0).toNat % 2 ^ 32 then some (o.i, o.j + 8)
        else if o.i + 1 < (o.args.getD 2 0).toNat / 2 ^ 32 % 2 ^ 16 then some (o.i + 1, 0) else none) := by
  intro stride at'
  have h0 : stride 0 = sextN 32 (lo32 (o.args.getD 3 0)) := by
    show (BitVec.ofNat 32 ((o.args.getD 3 0).toNat / 2 ^ 0)).toInt = sextN 32 ((o.args.getD 3 0).toNat % 2 ^ 32)
    rw [sextN_mod, sextN_eq_toInt (by decide), Nat.pow_zero, Nat.div_one]
  have h32 : stride 32 = sextN 32 (lo32 (o.args.getD 3 0 >>> 32)) := by
    show (BitVec.ofNat 32 ((o.args.getD 3 0).toNat / 2 ^ 32)).toInt = sextN 32 ((o.args.getD 3 0 >>> 32).toNat % 2 ^ 32)
    rw [sextN_mod, sextN_eq_toInt (by decide), BitVec.toNat_ushiftRight, Nat.shiftRight_eq_div_pow]
  have hd : unitData s o = copyWord s o (at' ((o.args.getD 0 0).toNat % 2 ^ 48) 0) (at' ((o.args.getD 1 0).toNat % 2 ^ 48) 32)
      (o.args.getD 4 0 != 0) (BitVec.ofNat 64 (2 ^ 32 * o.i + o.j))
      (fun s => if o.j + 8 < (o.args.getD 2 0).toNat % 2 ^ 32 then .more (setIdx s o o.i (o.j + 8))
        else if o.i + 1 < (o.args.getD 2 0).toNat / 2 ^ 32 % 2 ^ 16 then .more (setIdx s o (o.i + 1) 0) else .last 0 s) := by
    dsimp only [at']
    rw [h0, h32]
    unfold unitData
    rw [hk]
    refine if_neg ?_
    unfold hi16 lo32
    omega
  refine copiesWord_of hn (.refl s) hflag (dataUnit_on hn hu hr hh (by rw [hk]; rfl) hd) (fun n h => ?_) fun h s1 => ?_
  · split_ifs at h with hlt hrow
    · obtain rfl := Option.some.inj h
      exact ⟨fun q => { q with i := o.i, j := o.j + 8 }, fun s1 => if_pos hlt, fun q => ⟨rfl, fun _ => rfl, rfl, rfl⟩⟩
    · obtain rfl := Option.some.inj h
      exact ⟨fun q => { q with i := o.i + 1, j := 0 }, fun s1 => (if_neg hlt).trans (if_pos hrow), fun q => ⟨rfl, fun _ => rfl, rfl, rfl⟩⟩
  · split_ifs at h with hlt hrow
    exact (if_neg hlt).trans (if_neg hrow)

/-! #### GATH and SCAT with an entry of the table (R197) -/

section
variable {scatter : Bool} {s0 : State} {te : Word} (h0 : Fetched s s0) (hk : onChannel o.kind = true)
  (hd : unitData s o = tableMove o scatter s0 te)
include h0 hk hd
omit hflag

theorem table_skips (h63 : te.getLsbD 63 = true) (hrun : isRunning s o.task = true) :
    Performs .channelUnit s (fun s' => SameMem s0 s'
      ∧ (o.i + 1 < (o.args.getD 2 0).toNat % 2 ^ 32 → ∃ q ∈ s'.ops, q.id = o.id ∧ q.i = o.i + 1 ∧ q.j = 0 ∧ q.acc = [] ∧ q.fin = none)
      ∧ ((o.args.getD 2 0).toNat % 2 ^ 32 ≤ o.i + 1 → Unhindered s0 o → Finished s0 s' o 0 o.flags)) := by
  intro hi
  have hx := dataUnit_on hn hu hr hh hk (hd.trans (if_pos h63))
  obtain ⟨u, hf⟩ := h0.opFind hn
  by_cases hlt : o.i + 1 < (o.args.getD 2 0).toNat % 2 ^ 32
  · rw [tableAfter_more hlt] at hx
    refine ⟨_, hx, fun _ => rfl, fun _ => ⟨_, mem_updOp hf fun _ => rfl, rfl, rfl, rfl, rfl, hn.2.1⟩, fun h => absurd hlt (Nat.not_lt.mpr h)⟩
  · rw [tableAfter_last hlt] at hx
    have hrun0 : isRunning s0 o.task = true := by rw [h0.isRunning, hrun]
    exact ⟨_, hx, (doneOp_onlyDone hf 0 hrun0).sameMem, fun h => absurd h hlt, fun _ hun => doneOp_ends hf 0 hun⟩

theorem table_misaligned (h63 : te.getLsbD 63 = false) (h8 : te.toNat % 8 ≠ 0) (hdr : drained s0 o = true) :
    Performs .channelUnit s (fun s' =>
      OpStopped s0 s' o 5 (BitVec.ofNat 64 (te.toNat % 2 ^ 48)) (BitVec.ofNat 64 (2 ^ 32 * o.i + o.j)) ∧ SameMem s0 s') := by
  have hstop : tableMove o scatter s0 te
      = .stop .align (BitVec.ofNat 64 (te.toNat % 2 ^ 48)) (BitVec.ofNat 64 (2 ^ 32 * o.i + o.j)) s0 := by
    unfold tableMove
    rw [if_neg (by rw [bit, h63]; exact Bool.false_ne_true), if_pos (by unfold va48; omega)]
    rfl
  exact unit_stops (dataUnit_on hn hu hr hh hk hd) hn (hstop ▸ h0) hstop hdr rfl fun _ => rfl

include hflag in
theorem table_copies (h63 : te.getLsbD 63 = false) (h8 : te.toNat % 8 = 0) :
    let e := (o.args.getD 2 0).toNat / 2 ^ 32 % 2 ^ 16
    let block := (((if scatter then (o.args.getD 1 0).toNat % 2 ^ 48 else (o.args.getD 0 0).toNat % 2 ^ 48)) + (o.i * e + o.j)) % 2 ^ 48
    let x := (te.toNat % 2 ^ 48 + o.j) % 2 ^ 48
    CopiesWord s s0 o (if scatter then x else block) (if scatter then block else x) (o.args.getD 4 0 != 0)
      (if o.j + 8 < e then some (o.i, o.j + 8) else if o.i + 1 < (o.args.getD 2 0).toNat % 2 ^ 32 then some (o.i + 1, 0) else none) := by
  intro e block x
  have hb : block = offVa (va48 (if scatter then o.args.getD 1 0 else o.args.getD 0 0)) (o.i * hi16 (o.args.getD 2 0) + o.j) := by
    have hcast : ((o.i : Int) * (hi16 (o.args.getD 2 0) : Int) + (o.j : Int)) = ((o.i * e + o.j : Nat) : Int) := by
      push_cast
      rfl
    rw [hcast, offVa_nat]
    cases scatter <;> rfl
  have hx' : x = offVa (va48 te) o.j := (offVa_nat ..).symm
  have hmove : tableMove o scatter s0 te = copyWord s0 o (if scatter then x else block) (if scatter then block else x)
      (o.args.getD 4 0 != 0) (BitVec.ofNat 64 (2 ^ 32 * o.i + o.j))
      (fun s => if o.j + 8 < e then .more (updOp s o.id (fun q => { q with j := o.j + 8, acc := [te] })) else tableAfter o s) := by
    rw [hb, hx']
    unfold tableMove
    rw [if_neg (by rw [bit, h63]; exact Bool.false_ne_true), if_neg (by unfold va48; omega)]
    rfl
  refine copiesWord_of hn h0 hflag (dataUnit_on hn hu hr hh hk (hd.trans hmove)) (fun n h => ?_) fun h s1 => ?_
  · split_ifs at h with hlt hrow
    · obtain rfl := Option.some.inj h
      exact ⟨fun q => { q with j := o.j + 8, acc := [te] }, fun s1 => if_pos hlt, fun q => ⟨rfl, fun h => h, rfl, rfl⟩⟩
    · obtain rfl := Option.some.inj h
      exact ⟨fun q => { q with i := q.i + 1, j := 0, acc := [] }, fun s1 => (if_neg hlt).trans (tableAfter_more hrow s1),
        fun q => ⟨rfl, fun h => congrArg (· + 1) h, rfl, rfl⟩⟩
  · split_ifs at h with hlt hrow
    exact (if_neg hlt).trans (tableAfter_last hrow s1)

end

/-- GATH and SCAT at an entry of their table, held or read. -/
theorem table_clauses (hkind : o.kind = .gath ∨ o.kind = .scat) (hi : o.i < (o.args.getD 2 0).toNat % 2 ^ 32) (te : Word) (s0 : State) :
    let va := fun (k : Nat) => (o.args.getD k 0).toNat % 2 ^ 48
    let l := (o.args.getD 2 0).toNat % 2 ^ 32
    let die := dieOf o.cl
    let e := (o.args.getD 2 0).toNat / 2 ^ 32 % 2 ^ 16
    let scatter := o.kind = .scat
    let entry := ((if scatter then va 0 else va 1) + 8 * o.i) % 2 ^ 48
    let block := ((if scatter then va 1 else va 0) + (o.i * e + o.j)) % 2 ^ 48
    let index := BitVec.ofNat 64 (2 ^ 32 * o.i + o.j)
    (o.acc.head? = some te ∧ s0 = s) ∨ (o.acc = [] ∧ ∃ pt x s1, engAddr s o entry false = (.ok (pt, x), s1)
      ∧ eccBad s1 pt 8 = false ∧ bgBusy s1 o pt = false ∧ replPending s1 o = false
      ∧ te = BitVec.ofNat 64 (leNat (engRead s1 die pt 8)) ∧ s0 = seeWrites (correctSoft s1 pt 8) die pt 8) →
    let x := (te.toNat % 2 ^ 48 + o.j) % 2 ^ 48
    (te.getLsbD 63 = true → isRunning s o.task = true → Performs .channelUnit s (fun s' => SameMem s0 s'
      ∧ (o.i + 1 < l → ∃ q ∈ s'.ops, q.id = o.id ∧ q.i = o.i + 1 ∧ q.j = 0 ∧ q.acc = [] ∧ q.fin = none)
      ∧ (l ≤ o.i + 1 → Unhindered s0 o → Finished s0 s' o 0 o.flags)))
    ∧ (te.getLsbD 63 = false → te.toNat % 8 ≠ 0 → drained s0 o = true → Performs .channelUnit s (fun s' =>
        OpStopped s0 s' o 5 (BitVec.ofNat 64 (te.toNat % 2 ^ 48)) index ∧ SameMem s0 s'))
    ∧ (te.getLsbD 63 = false → te.toNat % 8 = 0 →
        CopiesWord s s0 o (if scatter then x else block) (if scatter then block else x) (o.args.getD 4 0 != 0)
          (if o.j + 8 < e then some (o.i, o.j + 8) else if o.i + 1 < l then some (o.i + 1, 0) else none)) := by
  intro va l die e scatter entry block index hte x
  have hkc : onChannel o.kind = true := by obtain h | h := hkind <;> rw [h] <;> rfl
  have hkd : unitData s o = unitTable s o (decide scatter) := by
    unfold unitData
    obtain h | h := hkind
    · have hs : decide scatter = false := decide_eq_false fun h' => absurd (h.symm.trans h') (by decide)
      rw [hs, h]
    · have hs : decide scatter = true := decide_eq_true h
      rw [hs, h]
  have key : Fetched s s0 ∧ unitData s o = tableMove o (decide scatter) s0 te := by
    obtain ⟨hacc, rfl⟩ | ⟨hacc, pt, y, s1, ha, h1, h2, h3, rfl, rfl⟩ := hte
    · refine ⟨.refl _, hkd.trans ?_⟩
      cases hl : o.acc with
      | nil => rw [hl] at hacc; exact absurd hacc (Option.some_ne_none _).symm
      | cons w ws =>
        rw [hl] at hacc
        obtain rfl := Option.some.inj hacc
        exact unitTable_held _ hi hl
    · have hf1 := (Fetched.refl s).of (fetched_engAddr ..) ha
      have hva : tableVa o (decide scatter) = entry := by
        unfold tableVa
        have hc : ((8 : Int) * (o.i : Int)) = ((8 * o.i : Nat) : Int) := by push_cast; rfl
        rw [hc, offVa_nat]
        by_cases hs : scatter <;> simp only [hs, decide_true, decide_false, if_true, if_false, entry, va48, va] <;> rfl
      refine ⟨hf1.trans ((fetched_correctSoft ..).trans (fetched_seeWrites ..)), hkd.trans ?_⟩
      rw [unitTable_found _ hi hacc (hva ▸ ha), refused_false (by rw [hf1.ev]; exact hflag), h1, h2, h3]
      rfl
  obtain ⟨h0, hd⟩ := key
  refine ⟨table_skips hn hu hr hh h0 hkc hd, table_misaligned hn hu hr hh h0 hkc hd, fun h63 h8 => ?_⟩
  have h := table_copies hn hflag hu hr hh h0 hkc hd h63 h8
  simp only [decide_eq_true_eq] at h
  exact h

end

/-! ### FLD and FST (R198) -/

theorem farSize_eq (w : Word) : farSize (w.setWidth 3) = if w.toNat % 8 = 4 then 128 else 2 ^ (w.toNat % 8) := by
  have h : (w.setWidth 3 : BitVec 3).toNat = w.toNat % 8 := BitVec.toNat_setWidth ..
  unfold farSize
  rw [h]
  by_cases h4 : w.toNat % 8 = 4
  · rw [if_pos h4, if_pos (BitVec.eq_of_toNat_eq (show (w.setWidth 3 : BitVec 3).toNat = 4 from h.trans h4))]
  · rw [if_neg h4, if_neg fun e => h4 (h.symm.trans (congrArg BitVec.toNat e))]

theorem loadVal_signed {n : Nat} (hn : 0 < n) (x : Nat) : loadVal true n x = (BitVec.ofNat (8 * n) x).signExtend 64 := by
  rw [loadVal_eq, if_pos rfl, sextN_eq_toInt (by omega), BitVec.signExtend]

/-- A vector is written word by word. -/
theorem cutWords_aligned : ∀ (k f a : Nat) (bs : List Byte), a % 8 = 0 → bs.length = 8 * k → k < f →
    cutWords f a bs = (List.range k).map (fun j => (a + 8 * j, (bs.drop (8 * j)).take 8))
  | _, 0, _, _, _, _, hf => absurd hf (Nat.not_lt_zero _)
  | 0, f + 1, a, bs, _, hl, _ => by
    rw [List.length_eq_zero_iff.mp hl]
    rfl
  | k + 1, f + 1, a, bs, ha, hl, hf => by
    have hne : bs.isEmpty = false := by
      cases bs with
      | nil => exact absurd hl (by simp)
      | cons _ _ => rfl
    unfold cutWords
    simp only [ha, Nat.sub_zero, hne, Bool.false_eq_true, if_false]
    rw [cutWords_aligned k f (a + 8) (bs.drop 8) (by omega) (by rw [List.length_drop]; omega) (by omega),
      List.range_succ_eq_map, List.map_cons, List.map_map]
    refine congrArg _ (List.map_congr_left fun j _ => ?_)
    dsimp only [Function.comp_apply]
    rw [List.drop_drop, show a + 8 + 8 * j = a + 8 * (j + 1) by omega, show 8 + 8 * j = 8 * (j + 1) by omega]

theorem outWords_vector {x : TcEnt} {a : Nat} {bs : List Byte} {f : Bool} (ha : a % 8 = 0) (hl : bs.length = 128) :
    outWords x a bs f = (List.range 16).map (fun k => outOf x (a + 8 * k) ((bs.drop (8 * k)).take 8) f) := by
  unfold outWords
  rw [cutWords_aligned 16 _ a bs ha hl (by omega), List.map_map]
  rfl

section
variable {s : State} {o : Op} (hn : Names s o) (hflag : s.ev.flag = false) (hu : s.ev.unit ≠ 1) (hr : opReady s o = true)
  (hh : channelHead s o = true)
include hn hu hr hh

include hflag in
theorem fld_loads {a : Nat} {x : TcEnt} {s1 : State} (hk : o.kind = .fld)
    (ha : engAddr s o ((o.args.getD 0 0).toNat % 2 ^ 48) false = (.ok (a, x), s1)) :
    let sz := (o.args.getD 1 0).toNat % 8
    let n := if sz = 4 then 128 else 2 ^ sz
    let y := leNat (engRead s1 (dieOf o.cl) a n)
    eccBad s1 a n = false → bgBusy s1 o a = false → bankShut s1 a n = false → Unhindered s1 o → isRunning s o.task = true →
    Performs .channelUnit s (fun s' => SameMem s1 s' ∧
      (o.args.getD 2 0 = 0 → Finished s1 s' o y o.flags)
      ∧ (o.args.getD 2 0 ≠ 0 → n ≤ 8 → Finished s1 s' o ((BitVec.ofNat (8 * n) y).signExtend 64).toNat o.flags)) := by
  intro sz n y h1 h2 h3 hun hrun _
  have hf1 := (Fetched.refl s).of (fetched_engAddr ..) ha
  have hd : unitData s o = .last (if o.args.getD 2 0 != 0 then (loadVal true n y).toNat else y)
      (seeWrites (correctSoft s1 a n) (dieOf o.cl) a n) := by
    unfold unitData
    rw [hk]
    dsimp only
    unfold unitFld
    dsimp only
    unfold va48
    rw [ha]
    dsimp only
    rw [farSize_eq, refused_false (by rw [hf1.ev]; exact hflag), h1, h2, h3]
    rfl
  have hx := dataUnit_on hn hu hr hh (by rw [hk]; rfl) hd
  have hf2 := (fetched_correctSoft s1 a n).trans (fetched_seeWrites (correctSoft s1 a n) (dieOf o.cl) a n)
  obtain ⟨m2, -, -, -, -⟩ := fetched_onlySeen (s := s1) (dieOf o.cl) a n
  have hun2 := unhindered_seen hun (dieOf o.cl) a n
  generalize seeWrites (correctSoft s1 a n) (dieOf o.cl) a n = s2 at *
  obtain ⟨u, hf⟩ := (hf1.trans hf2).opFind hn
  have hrun2 : isRunning s2 o.task = true := by rw [(hf1.trans hf2).isRunning, hrun]
  have hfin : ∀ v, Finished s1 (doneOp s2 o.id v) o v o.flags := fun v => by
    obtain ⟨g1, g2⟩ := doneOp_ends hf v hun2
    exact ⟨g1, fun k t ht => g2 k t (by rw [hf2.strands]; exact ht)⟩
  refine ⟨_, hx, fun b => ?_, fun h0 => ?_, fun h0 hle => ?_⟩
  · exact ((doneOp_onlyDone hf _ hrun2).sameMem b).trans (by rw [m2])
  · rw [if_neg (by rw [h0]; decide)]
    exact hfin y
  · have hn0 : 0 < n := by
      dsimp only [n]
      split_ifs
      · decide
      · exact Nat.two_pow_pos _
    rw [if_pos (by simpa using h0), loadVal_signed hn0]
    exact hfin _

section
variable (hk : o.kind = .fst) (h0 : o.out = [])
include hk h0

/-- FST that has written its word or its vector is done. -/
theorem fst_done (hi : o.i = 1) (hun : Unhindered s o) : Performs .channelUnit s (fun s' => Finished s s' o 0 o.flags) := by
  have hd : unitData s o = .last 0 s := by
    unfold unitData
    rw [hk]
    dsimp only
    unfold unitFst
    rw [h0]
    exact if_pos hi
  exact fun _ => ⟨_, dataUnit_on hn hu hr hh (by rw [hk]; rfl) hd, doneOp_ends hn.opFind 0 hun⟩

include hflag in
theorem fst_stores {a : Nat} {x : TcEnt} {s1 : State} (hi : o.i = 0)
    (ha : engAddr s o ((o.args.getD 0 0).toNat % 2 ^ 48) true = (.ok (a, x), s1))
    (hl : tileLeased s1 a o.bytes.length = false) (hb : bgBusy s1 o a = false) :
    (o.bytes.length ≤ 8 → isRunning s o.task = true → Performs .channelUnit s (fun s' =>
      WordGoes s1 s' o (outOf x a o.bytes (o.args.getD 2 0 != 0))
      ∧ (pteRepl x.pte0 = false → homeOf a = dieOf o.cl → Unhindered s1 o → Finished s1 s' o 0 o.flags)))
    ∧ (o.bytes.length = 128 → a % 8 = 0 → Performs .channelUnit s (fun s' => SameMem s1 s'
      ∧ ∃ q ∈ s'.ops, q.id = o.id ∧ q.i = 1 ∧ q.fin = none ∧ q.out = (List.range 16).map (fun k =>
          outOf x (a + 8 * k) ((o.bytes.drop (8 * k)).take 8) (o.args.getD 2 0 != 0)))) := by
  have hf1 := (Fetched.refl s).of (fetched_engAddr ..) ha
  have hd : unitData s o = if o.bytes.length ≤ 8 then .last 0 (engWrite s1 o x a o.bytes (o.args.getD 2 0 != 0))
      else .more (updOp s1 o.id (fun o => { o with i := 1, out := outWords x a o.bytes (o.args.getD 2 0 != 0) })) := by
    unfold unitData
    rw [hk]
    dsimp only
    unfold unitFst
    dsimp only
    rw [h0]
    dsimp only
    unfold va48
    rw [if_neg (by rw [hi]; decide), ha]
    dsimp only
    rw [refused_false (by rw [hf1.ev]; exact hflag), hl, hb]
    rfl
  have hx := dataUnit_on hn hu hr hh (by rw [hk]; rfl) hd
  obtain ⟨u, hf⟩ := hf1.opFind hn
  refine ⟨fun h8 hrun hinv => ?_, fun h128 ha8 _ => ?_⟩
  · rw [if_pos h8] at hx
    generalize hw : outOf x a o.bytes (o.args.getD 2 0 != 0) = w
    rw [engWrite, hw] at hx
    have hf2 : opFind (putWord s1 o w) o.id = some { o with unit := u } := by rw [opFind_congr (putWord_opsDies ..).1, hf]
    have hrun2 : isRunning (putWord s1 o w) o.task = true := by
      rw [isRunning, putWord_strands, hf1.strands]
      exact hrun
    refine ⟨_, hx, OnlyDone.goes (wordGoes_putWord (hf1.wf hinv.1) o w) (doneOp_onlyDone hf2 0 hrun2), fun hrep hhome hun => ?_⟩
    obtain ⟨g1, g2⟩ := doneOp_ends hf2 0 (unhindered_putWord (w := w) hun (by rw [← hw]; exact hrep) (by rw [← hw]; exact hhome))
    exact ⟨g1, fun k t ht => g2 k t (by rw [putWord_strands]; exact ht)⟩
  · rw [if_neg (by omega)] at hx
    exact ⟨_, hx, fun _ => rfl, _, mem_updOp hf fun _ => rfl, rfl, rfl, hn.2.1, outWords_vector ha8 h128⟩

end

omit hn hu hr hh in
/-- An address that is refused leaves only a translation behind. -/
theorem engAddr_error {va : Nat} {w : Bool} {c : Cause} {s1 : State} (ha : engAddr s o va w = (.error c, s1)) :
    s1 = { s with clusters := s1.clusters, nfree := s1.nfree } := by
  have hx := xlate_eq s o.cl o.pid o.root (va / 32768 % 2 ^ 33)
  unfold engAddr at ha
  generalize xlate s o.cl o.pid o.root (va / 32768 % 2 ^ 33) = r at ha hx
  obtain ⟨x, s2⟩ := r
  cases x with
  | none =>
    obtain rfl := (Prod.mk.inj ha).2
    exact hx
  | some e =>
    dsimp only at ha
    split at ha
    · obtain rfl := (Prod.mk.inj ha).2
      exact hx
    · split at ha <;> exact absurd (Prod.mk.inj ha).1 (by simp)

/-- FLD or FST whose address is refused stops (R202). -/
theorem register_stops {c : Cause} {s1 : State} {w : Bool} (hk : o.kind = .fld ∧ w = false ∨ (o.kind = .fst ∧ w = true ∧ o.out = [] ∧ o.i = 0))
    (ha : engAddr s o ((o.args.getD 0 0).toNat % 2 ^ 48) w = (.error c, s1)) (hdr : drained s o = true) :
    Performs .channelUnit s (fun s' =>
      OpStopped s s' o (causeCode c) (BitVec.ofNat 64 ((o.args.getD 0 0).toNat % 2 ^ 48)) 0 ∧ SameMem s s') := by
  have hs1 := engAddr_error ha
  have hd : unitData s o = .stop c (BitVec.ofNat 64 ((o.args.getD 0 0).toNat % 2 ^ 48)) 0 s1 := by
    unfold unitData
    obtain ⟨hk, rfl⟩ | ⟨hk, rfl, h0, hi⟩ := hk
    · rw [hk]
      dsimp only
      unfold unitFld va48
      dsimp only
      rw [ha]
    · rw [hk]
      dsimp only
      unfold unitFst va48
      dsimp only
      rw [h0]
      dsimp only
      rw [if_neg (by rw [hi]; decide), ha]
  have hkc : onChannel o.kind = true := by obtain ⟨h, -⟩ | ⟨h, -⟩ := hk <;> rw [h] <;> rfl
  refine unit_stops (dataUnit_on hn hu hr hh hkc hd) hn ((Fetched.refl s).of (fetched_engAddr ..) ha) rfl ?_ (by rw [hs1]) fun b => by rw [hs1]
  rw [hs1]
  exact hdr

end

/-! ### The next word of a unit, and the buffers of the dies (R195, R367, R370) -/

section
variable {s : State} {o : Op} (hn : Names s o)
include hn

theorem outWord_goes {i : Instr} {n : Nat} {w : OutWord} {rest : List OutWord} (hx : exec i s = .next (applyUnit o n (outWord s o w)))
    (ho : o.out = w :: rest) (hl : tileLeased s w.addr w.bytes.length = false) (hb : bgBusy s o w.addr = false) :
    Performs i s (fun s' => WordGoes s s' o w ∧ ∃ q ∈ s'.ops, q.id = o.id ∧ q.out = rest ∧ q.i = o.i ∧ q.fin = none) := by
  intro hi
  have hd : outWord s o w = .more (updOp (putWord s o w) o.id (fun o => { o with out := o.out.drop 1 })) := by
    unfold outWord
    rw [hl, hb]
    rfl
  rw [hd] at hx
  have hf : opFind (putWord s o w) o.id = some o := by rw [opFind_congr (putWord_opsDies ..).1, hn.opFind]
  exact ⟨_, hx, wordGoes_congr (wordGoes_putWord hi.1 o w) rfl rfl rfl rfl rfl rfl rfl, _, mem_updOp hf fun _ => rfl, rfl,
    by rw [ho]; rfl, rfl, hn.2.1⟩

/-- FST, KVAPP, ATTD and LFILT write the words that they still have before anything else. -/
theorem writing_goes {i : Instr} {w : OutWord} {rest : List OutWord}
    (hk : (i, o.kind) ∈ ([(.channelUnit, .fst), (.kvappToken, .kvapp), (.attdPage, .attd), (.lfiltPass, .lfilt)] : List (Instr × OpKind)))
    (hu : s.ev.unit ≠ 1) (hr : opReady s o = true) (hc : onChannel o.kind = true → channelHead s o = true)
    (hb : onChannel o.kind = false → bduReady s o = true) (ho : o.out = w :: rest) (hl : tileLeased s w.addr w.bytes.length = false)
    (hbg : bgBusy s o w.addr = false) (hw : o.kind = .attd → writesAway s o = false) :
    Performs i s (fun s' => WordGoes s s' o w ∧ ∃ q ∈ s'.ops, q.id = o.id ∧ q.out = rest ∧ q.i = o.i ∧ q.fin = none) := by
  simp only [List.mem_cons, Prod.mk.injEq, List.not_mem_nil, or_false] at hk
  obtain ⟨rfl, hk⟩ | ⟨rfl, hk⟩ | ⟨rfl, hk⟩ | ⟨rfl, hk⟩ := hk
  · have hd : unitData s o = outWord s o w := by
      unfold unitData
      rw [hk]
      dsimp only
      unfold unitFst
      rw [ho] <;> rfl
    exact outWord_goes hn (dataUnit_on hn hu hr (hc (by rw [hk]; rfl)) (by rw [hk]; rfl) hd) ho hl hbg
  · have hd : unitKvapp s o = outWord s o w := by
      unfold unitKvapp
      rw [ho] <;> rfl
    exact outWord_goes hn ((kvappToken_on hn hk (hc (by rw [hk]; rfl)) hr).trans (by rw [hd])) ho hl hbg
  · have hd : unitAttd s o = outWord s o w := by
      unfold unitAttd
      dsimp only
      rw [ho]
      exact if_neg (by rw [hw hk]; exact Bool.false_ne_true)
    exact outWord_goes hn ((attdPage_on hn hk (hb (by rw [hk]; rfl))).trans (by rw [hd])) ho hl hbg
  · have hd : unitLfilt s o = outWord s o w := by
      unfold unitLfilt
      rw [ho] <;> rfl
    exact outWord_goes hn ((lfiltPass_on hn hk (hb (by rw [hk]; rfl))).trans (by rw [hd])) ho hl hbg

end

/-- A buffered write that may be performed goes to its home. -/
theorem egress_drains {s : State} {e : EgWrite} (hu : s.ev.unit = 1) (hm : s.ev.n ∈ drainable s) (he : s.egress[s.ev.n]? = some e) :
    Performs .channelUnit s (fun s' => rdBytes s'.mem e.addr e.bytes.length = e.bytes
      ∧ SameMemBut e.addr e.bytes.length s s' ∧ s'.egress = s.egress.eraseIdx s.ev.n) := by
  intro hi
  have hx : execChannelUnit s = .next (perform { s with egress := s.egress.eraseIdx s.ev.n } e.addr e.bytes e.full) := by
    unfold execChannelUnit
    rw [if_pos hu, if_pos (by simpa using hm), drainAt, he]
  refine ⟨_, hx, ?_, fun b hb => ?_, (perform_ways ..).1⟩
  · rw [perform_mem]
    exact rdBytes_wrBytes_same hi.1 ..
  · rw [perform_mem, rdCell_wrBytes _ _ _ _ hi.1, if_neg (by omega)]

/-! ### A fold at its home (R398) -/

theorem packElts_lt (w : Nat) : ∀ l : List Nat, packElts w l < 2 ^ (w * l.length)
  | [] => by rw [packElts, List.length_nil, Nat.mul_zero]; decide
  | x :: l => by
    have h1 := packElts_lt w l
    have h2 : x % 2 ^ w < 2 ^ w := Nat.mod_lt _ (Nat.two_pow_pos w)
    rw [packElts, List.length_cons, Nat.mul_succ, pow_add]
    calc x % 2 ^ w + packElts w l * 2 ^ w < 2 ^ w + packElts w l * 2 ^ w := Nat.add_lt_add_right h2 _
      _ = (packElts w l + 1) * 2 ^ w := by rw [Nat.succ_mul, Nat.add_comm]
      _ ≤ 2 ^ (w * l.length) * 2 ^ w := Nat.mul_le_mul_right _ h1

theorem rd64_toNat (s : State) (a : Nat) : (rd64 s a).toNat = rdN s a 8 := by
  have h := leNat_lt (rdBytes s.mem a 8)
  rw [rdBytes_length] at h
  rw [rd64, BitVec.toNat_ofNat]
  exact Nat.mod_eq_of_lt h

/-- The lane of a word. -/
def foldLane (n : Nat) (w k : Nat) : Nat := w / 2 ^ (n * k) % 2 ^ n

/-- The sum in lane `k` of a floating-point fold (R398). -/
def foldSum (op w y k : Nat) : Nat × FpFlags :=
  let n := if op = 0 then 32 else 16
  fpBin xAdd (if op = 0 then .fp32 else .bf16) .rne (foldLane n w k) (foldLane n y k)

theorem foldWord_int (w y : Nat) : foldWord 2 w y = ((w + y) % 2 ^ 64, 0) := rfl

theorem foldWord_fp {op : Nat} (h : op ≠ 2) (w y : Nat) :
    let n := if op = 0 then 32 else 16
    foldWord op w y = (packElts n ((List.range (64 / n)).map (fun k => (foldSum op w y k).1)),
      (List.range (64 / n)).foldl (fun f k => f ||| (foldSum op w y k).2) 0) := by
  intro n
  unfold foldWord
  rw [if_neg h]
  dsimp only
  rw [List.map_map, List.foldl_map]
  rfl

theorem foldWord_lt (op w y : Nat) : (foldWord op w y).1 < 2 ^ 64 := by
  by_cases h : op = 2
  · rw [h, foldWord_int]
    exact Nat.mod_lt _ (by decide)
  · rw [foldWord_fp h]
    have hlt := packElts_lt (if op = 0 then 32 else 16) ((List.range (64 / if op = 0 then 32 else 16)).map (fun k => (foldSum op w y k).1))
    rw [List.length_map, List.length_range] at hlt
    split_ifs at hlt ⊢ <;> exact hlt

theorem foldWord_lane {op : Nat} (h : op < 2) (w y : Nat) {k : Nat} (hk : k < 64 / if op = 0 then 32 else 16) :
    foldLane (if op = 0 then 32 else 16) (foldWord op w y).1 k = (foldSum op w y k).1 % 2 ^ (if op = 0 then 32 else 16) := by
  rw [foldWord_fp (by omega)]
  dsimp only
  generalize (if op = 0 then 32 else 16) = n at hk ⊢
  have he := packElts_elt n ((List.range (64 / n)).map (fun k => (foldSum op w y k).1)) k
  rw [Nat.shiftRight_eq_div_pow, Nat.mul_comm] at he
  rw [foldLane, he, List.getD_eq_getElem?_getD, List.getElem?_map, List.getElem?_range hk]
  rfl

theorem viewHome_none {s : State} (h : s.repl = []) (cl p : Nat) : viewHome s cl p = s := by
  unfold viewHome settleRepl
  rw [h]
  show ({ s with repl := [] } : State) = s
  rw [← h]

theorem engAddr_quiet {s : State} (h : s.repl = []) (o : Op) (va : Nat) (w : Bool) :
    (engAddr s o va w).2 = { s with clusters := (engAddr s o va w).2.clusters, nfree := (engAddr s o va w).2.nfree } := by
  have hx := xlate_eq s o.cl o.pid o.root (va / 32768 % 2 ^ 33)
  obtain h1 | ⟨-, h1⟩ := engAddr_cases s o va w
  · rw [h1]
    exact hx
  · rw [h1, viewHome_none ((xlate_repl ..).trans h)]
    exact hx

/-- With no write under way, what a fold reads changes no more than the count of corrected errors. -/
theorem foldReads_eq {s : State} (heg : s.egress = []) (d a b : Nat) :
    let s' := seeWrites (correctSoft (correctSoft s a 8) b 8) d a 8
    s' = { s with soft := s'.soft, dev := s'.dev } := by
  intro s'
  have h1 := correctSoft_eq s a 8
  have h2 := correctSoft_eq (correctSoft s a 8) b 8
  have he : (correctSoft (correctSoft s a 8) b 8).egress = [] := by
    rw [h2, h1]
    exact heg
  have h3 : s' = correctSoft (correctSoft s a 8) b 8 := by
    show seeWrites _ _ _ _ = _
    unfold seeWrites
    rw [he]
    show ({ correctSoft (correctSoft s a 8) b 8 with egress := [] } : State) = _
    rw [← he]
  rw [h3, h2, h1]

theorem homeWrite_spec (s : State) (o : Op) (e : TcEnt) (a : Nat) (bs : List Byte) :
    let s' := homeWrite s o e a bs
    s'.mem = wrBytes s.mem a bs ∧ s'.egress = s.egress ∧ s'.strands = s.strands ∧ s'.ops = s.ops
      ∧ s'.repl = s.repl ++ if pteRepl e.pte0 = true ∧ replicaClusters s o.pid e.fri ≠ [] then
          [⟨o.pid, e.fri, a % 32768, unitNo o, o.id, bs, false, true, replicaClusters s o.pid e.fri⟩] else [] := by
  obtain ⟨h1, h2, h3, -⟩ := perform_ways s a bs false
  intro s'
  have hs' : s' = if pteRepl e.pte0 && !(replicaClusters s o.pid e.fri).isEmpty then
      { perform s a bs false with repl := (perform s a bs false).repl
          ++ [⟨o.pid, e.fri, a % 32768, unitNo o, o.id, bs, false, true, replicaClusters s o.pid e.fri⟩] }
      else perform s a bs false := rfl
  rw [hs']
  cases hp : pteRepl e.pte0 && !(replicaClusters s o.pid e.fri).isEmpty with
  | true =>
    rw [if_pos rfl, if_pos (by simpa using hp)]
    exact ⟨perform_mem .., h1, perform_strands .., h3, by rw [← h2]⟩
  | false =>
    rw [if_neg Bool.false_ne_true, if_neg (by simpa using hp), List.append_nil]
    exact ⟨perform_mem .., h1, perform_strands .., h3, h2⟩

/-- The word and its flags once a fold is done (R398). -/
def folded (o : Op) (fl : FpFlags) (q : Op) : Op := { q with flags := q.flags ||| fl, i := o.i + 8 }

theorem unitRedm_folds {s s1 s2 : State} {o : Op} {pa pd : Nat} {x y : TcEnt} (hflag : s2.ev.flag = false)
    (hi : o.i < (o.args.getD 2 0).toNat % 2 ^ 32)
    (ha : engAddr s o (((o.args.getD 1 0).toNat % 2 ^ 48 + o.i) % 2 ^ 48) false = (.ok (pa, x), s1))
    (hb : engAddr s1 o (((o.args.getD 0 0).toNat % 2 ^ 48 + o.i) % 2 ^ 48) true = (.ok (pd, y), s2))
    (hpd : pd < 2 ^ 40) (heg : s2.egress = []) (hrep : s2.repl = []) (he1 : eccBad s2 pa 8 = false) (he2 : eccBad s2 pd 8 = false)
    (hbg : bgBusy s2 o pa = false) (hlease : pteRepl y.pte0 = true → replLeased s2 o.pid y.fri (pd % 32768) 8 = false) :
    let s3 := seeWrites (correctSoft (correctSoft s2 pa 8) pd 8) (dieOf o.cl) pa 8
    let r := foldWord (o.args.getD 3 0).toNat (rd64 s2 pd).toNat (rd64 s2 pa).toNat
    let s4 := updOp (homeWrite s3 o y pd (toLe 8 r.1)) o.id (folded o r.2)
    unitRedm s o = if (o.args.getD 2 0).toNat % 2 ^ 32 ≤ o.i + 8 then .last 0 s4 else .more s4 := by
  rw [← offVa_nat] at ha hb
  intro s3 r s4
  have hs3 : s3 = { s2 with soft := s3.soft, dev := s3.dev } := foldReads_eq heg (dieOf o.cl) pa pd
  have h3 : seeWrites (correctSoft (correctSoft s2 pa 8) pd 8) (dieOf o.cl) pa 8 = s3 := rfl
  clear_value s3
  have heg3 : s3.egress = [] := by rw [hs3]; exact heg
  have hset : settleWord s3 (dieOf o.cl) pd 8 = s3 :=
    settleWord_none fun q hq => absurd (heg3 ▸ hq) List.not_mem_nil
  have hmem : s3.mem = s2.mem := by rw [hs3]
  have hrd : rdN s3 pd 8 = (rd64 s2 pd).toNat := by rw [rd64_toNat, rdN_congr hmem]
  have heng : leNat (engRead s3 (dieOf o.cl) pa 8) = (rd64 s2 pa).toNat := by
    rw [rd64_toNat, engRead, heg3, hmem]
    rfl
  have hview : (if pteRepl y.pte0 = true then viewHome s2 o.cl o.pid else s2) = s2 := by
    rw [viewHome_none hrep, ite_self]
  have hhold : (s2.egress.any (fun e => e.unit == unitNo o && e.dst == homeOf pd) || bgBusy s2 o pa || replPending s2 o
      || (pteRepl y.pte0 && replLeased s2 o.pid y.fri (pd % 32768) 8)
      || s2.repl.any (fun w => w.unit == unitNo o && w.pid == o.pid && !w.seqd)) = false := by
    have hl : (pteRepl y.pte0 && replLeased s2 o.pid y.fri (pd % 32768) 8) = false := by
      cases hp : pteRepl y.pte0 with
      | false => rfl
      | true => rw [hlease hp]; rfl
    rw [hl, hbg, replPending, heg, hrep]
    rfl
  unfold unitRedm
  dsimp only
  unfold va48 lo32
  rw [if_neg (Nat.not_le.mpr hi), ha]
  dsimp only
  rw [hb]
  dsimp only
  rw [refused_false hflag, if_neg Bool.false_ne_true, if_neg (Nat.not_le.mpr hpd), he1, if_neg Bool.false_ne_true, he2, if_neg Bool.false_ne_true,
    hhold, if_neg Bool.false_ne_true, hview, h3, hset, hrd, heng]
  rfl

section
variable {s : State} {o : Op} (hn : Names s o) (hflag : s.ev.flag = false) (hr : opReady s o = true) (hh : channelHead s o = true)
include hn hflag hr hh

theorem redm_folds {pa pd : Nat} {x y : TcEnt} {s1 s2 : State} (hk : o.kind = .redm) (hi : o.i < (o.args.getD 2 0).toNat % 2 ^ 32)
    (ha : engAddr s o (((o.args.getD 1 0).toNat % 2 ^ 48 + o.i) % 2 ^ 48) false = (.ok (pa, x), s1))
    (hb : engAddr s1 o (((o.args.getD 0 0).toNat % 2 ^ 48 + o.i) % 2 ^ 48) true = (.ok (pd, y), s2))
    (hpd : pd < 2 ^ 40) (heg : s.egress = []) (hrep : s.repl = []) (he1 : eccBad s2 pa 8 = false) (he2 : eccBad s2 pd 8 = false)
    (hbg : bgBusy s2 o pa = false) (hlease : pteRepl y.pte0 = true → replLeased s2 o.pid y.fri (pd % 32768) 8 = false)
    (hdeps : o.deps = []) (hrun : isRunning s o.task = true) :
    let l := (o.args.getD 2 0).toNat % 2 ^ 32
    let r := foldWord (o.args.getD 3 0).toNat (rd64 s pd).toNat (rd64 s pa).toNat
    Performs .redmUnit s (fun s' => SameMemBut pd 8 s s' ∧ (rd64 s' pd).toNat = r.1
      ∧ (o.i + 8 < l → ∃ q ∈ s'.ops, q.id = o.id ∧ q.i = o.i + 8 ∧ q.flags = o.flags ||| r.2 ∧ q.fin = none)
      ∧ (l ≤ o.i + 8 → pteRepl y.pte0 = false → Finished s s' o 0 (o.flags ||| r.2))
      ∧ (pteRepl y.pte0 = true → replicaClusters s o.pid y.fri ≠ [] → ∃ w, s'.repl = [w] ∧ w.op = o.id ∧ w.seqd = true
        ∧ w.left = replicaClusters s o.pid y.fri ∧ w.bytes = toLe 8 (rd64 s' pd).toNat)) := by
  intro l r hinv
  obtain ⟨C, N, rfl⟩ : ∃ C N, s2 = cached s C N := by
    have h1 := engAddr_quiet hrep o (((o.args.getD 1 0).toNat % 2 ^ 48 + o.i) % 2 ^ 48) false
    rw [ha] at h1
    dsimp only at h1
    have h2 := engAddr_quiet (s := s1) (by rw [h1]; exact hrep) o (((o.args.getD 0 0).toNat % 2 ^ 48 + o.i) % 2 ^ 48) true
    rw [hb] at h2
    dsimp only at h2
    exact ⟨_, _, by rw [h2, h1]; rfl⟩
  have hd := unitRedm_folds (s2 := cached s C N) hflag hi ha hb hpd heg hrep he1 he2 hbg hlease
  obtain ⟨u, hf⟩ : ∃ u, opFind (cached s C N) o.id = some { o with unit := u } :=
    (((Fetched.refl s).of (fetched_engAddr ..) ha).of (fetched_engAddr ..) hb).opFind hn
  dsimp only at hd
  have hs3 := foldReads_eq (s := cached s C N) heg (dieOf o.cl) pa pd
  dsimp only at hs3
  generalize seeWrites (correctSoft (correctSoft (cached s C N) pa 8) pd 8) (dieOf o.cl) pa 8 = s3 at hd hs3
  have hrd : ∀ a, rd64 (cached s C N) a = rd64 s a := fun a => rfl
  rw [hrd, hrd] at hd
  change unitRedm s o = if l ≤ o.i + 8 then .last 0 (updOp (homeWrite s3 o y pd (toLe 8 r.1)) o.id (folded o r.2))
    else .more (updOp (homeWrite s3 o y pd (toLe 8 r.1)) o.id (folded o r.2)) at hd
  have hlt : r.1 < 2 ^ 64 := foldWord_lt ..
  clear_value r
  obtain ⟨hw1, hw2, hw3, hw4, hw5⟩ := homeWrite_spec s3 o y pd (toLe 8 r.1)
  have hleft : replicaClusters s3 o.pid y.fri = replicaClusters s o.pid y.fri := by rw [hs3]; rfl
  have hrep3 : s3.repl = [] := by rw [hs3]; exact hrep
  rw [hleft, hrep3, List.nil_append] at hw5
  have hmem : (homeWrite s3 o y pd (toLe 8 r.1)).mem = wrBytes s.mem pd (toLe 8 r.1) := by rw [hw1, hs3]; rfl
  have heg4 : (homeWrite s3 o y pd (toLe 8 r.1)).egress = [] := by rw [hw2, hs3]; exact heg
  have hst : (homeWrite s3 o y pd (toLe 8 r.1)).strands = s.strands := by rw [hw3, hs3]; rfl
  have hf4 : opFind (homeWrite s3 o y pd (toLe 8 r.1)) o.id = some { o with unit := u } := by
    rw [opFind_congr hw4, hs3]
    exact hf
  generalize homeWrite s3 o y pd (toLe 8 r.1) = s4 at *
  have hbut : ∀ s' : State, s'.mem = s4.mem → SameMemBut pd 8 s s' ∧ (rd64 s' pd).toNat = r.1 := fun s' hm' => by
    have hm := hm'.trans hmem
    refine ⟨fun b hb => ?_, ?_⟩
    · rw [hm, rdCell_wrBytes _ _ _ _ hinv.1, toLe_length, if_neg (by omega)]
    · have h8 := rdN_wrN_pow s pd 8 r.1 hinv.1 hlt
      rw [rd64_toNat, ← h8]
      exact rdN_congr hm ..
  have hx := (redmUnit_on hn hk hh hr).trans (by rw [hd])
  have hf5 : opFind (updOp s4 o.id (folded o r.2)) o.id = some (folded o r.2 { o with unit := u }) := by
    have h := find_updOp (s := s4) (id := o.id) (f := folded o r.2) fun _ => rfl
    unfold opFind at hf4 ⊢
    rw [h, hf4]
    rfl
  by_cases hl : l ≤ o.i + 8
  · rw [if_pos hl] at hx
    have hrun5 : isRunning (updOp s4 o.id (folded o r.2)) o.task = true := by
      show s4.strands.any _ = true
      rw [hst]
      exact hrun
    have honly := doneOp_onlyDone hf5 0 hrun5
    have hm' : (doneOp (updOp s4 o.id (folded o r.2)) o.id 0).mem = s4.mem := honly.mem
    obtain ⟨hb1, hb2⟩ := hbut _ hm'
    refine ⟨_, hx, hb1, hb2, fun h => absurd h (Nat.not_lt.mpr hl), fun _ hnr => ?_, fun hyes hne => ?_⟩
    · have hrep4 : s4.repl = [] := by rw [hw5, hnr]; rfl
      obtain ⟨g1, g2⟩ := doneOp_ends hf5 0 ⟨fun e he => absurd (heg4 ▸ he : e ∈ []) List.not_mem_nil,
        fun e he => absurd (hrep4 ▸ he : e ∈ []) List.not_mem_nil, hdeps⟩
      exact ⟨g1, fun n t ht => g2 n t (by rw [show (updOp s4 o.id (folded o r.2)).strands = s.strands from hst]; exact ht)⟩
    · refine ⟨⟨o.pid, y.fri, pd % 32768, unitNo o, o.id, toLe 8 r.1, false, true, replicaClusters s o.pid y.fri⟩, ?_, rfl, rfl, rfl, congrArg (toLe 8) hb2.symm⟩
      have hrepl : (doneOp (updOp s4 o.id (folded o r.2)) o.id 0).repl = s4.repl := by rw [honly]; rfl
      exact hrepl.trans (hw5.trans (if_pos ⟨hyes, hne⟩))
  · rw [if_neg hl] at hx
    obtain ⟨hb1, hb2⟩ := hbut (updOp s4 o.id (folded o r.2)) rfl
    refine ⟨_, hx, hb1, hb2, fun _ => ⟨_, mem_updOp hf4 fun _ => rfl, rfl, rfl, rfl, hn.2.1⟩, fun h => absurd h hl, fun hyes hne => ?_⟩
    exact ⟨⟨o.pid, y.fri, pd % 32768, unitNo o, o.id, toLe 8 r.1, false, true, replicaClusters s o.pid y.fri⟩,
      hw5.trans (if_pos ⟨hyes, hne⟩), rfl, rfl, rfl, congrArg (toLe 8) hb2.symm⟩

/-- A fold of integers, of FP32 lanes or of BF16 lanes, as R398 puts it. -/
theorem redm_clause {pa pd : Nat} {x y : TcEnt} {s1 s2 : State} (hk : o.kind = .redm) (hi : o.i < (o.args.getD 2 0).toNat % 2 ^ 32)
    (ha : engAddr s o (((o.args.getD 1 0).toNat % 2 ^ 48 + o.i) % 2 ^ 48) false = (.ok (pa, x), s1))
    (hb : engAddr s1 o (((o.args.getD 0 0).toNat % 2 ^ 48 + o.i) % 2 ^ 48) true = (.ok (pd, y), s2))
    (hpd : pd < 2 ^ 40) (heg : s.egress = []) (hrep : s.repl = []) (he1 : eccBad s2 pa 8 = false) (he2 : eccBad s2 pd 8 = false)
    (hbg : bgBusy s2 o pa = false) (hlease : pteRepl y.pte0 = true → replLeased s2 o.pid y.fri (pd % 32768) 8 = false)
    (hdeps : o.deps = []) (hrun : isRunning s o.task = true) :
    let l := (o.args.getD 2 0).toNat % 2 ^ 32
    let op := (o.args.getD 3 0).toNat
    let n := if op = 0 then 32 else 16
    let part := fun (w : Word) (k : Nat) => w.toNat / 2 ^ (n * k) % 2 ^ n
    let sum := fun (k : Nat) => fpBin xAdd (if op = 0 then .fp32 else .bf16) .rne (part (rd64 s pd) k) (part (rd64 s pa) k)
    let fl : FpFlags := if op = 2 then 0 else (List.range (64 / n)).foldl (fun f k => f ||| (sum k).2) 0
    Performs .redmUnit s (fun s' => SameMemBut pd 8 s s'
      ∧ (op = 2 → rd64 s' pd = rd64 s pd + rd64 s pa)
      ∧ (op < 2 → ∀ k, k < 64 / n → part (rd64 s' pd) k = (sum k).1 % 2 ^ n)
      ∧ (o.i + 8 < l → ∃ q ∈ s'.ops, q.id = o.id ∧ q.i = o.i + 8 ∧ q.flags = o.flags ||| fl ∧ q.fin = none)
      ∧ (l ≤ o.i + 8 → pteRepl y.pte0 = false → Finished s s' o 0 (o.flags ||| fl))
      ∧ (pteRepl y.pte0 = true → replicaClusters s o.pid y.fri ≠ [] → ∃ w, s'.repl = [w] ∧ w.op = o.id ∧ w.seqd = true
        ∧ w.left = replicaClusters s o.pid y.fri ∧ w.bytes = toLe 8 (rd64 s' pd).toNat)) := by
  intro l op n part sum fl hinv
  have hfl : (foldWord op (rd64 s pd).toNat (rd64 s pa).toNat).2 = fl := by
    by_cases h2 : op = 2
    · dsimp only [fl]
      rw [if_pos h2, h2, foldWord_int]
    · dsimp only [fl]
      rw [if_neg h2, foldWord_fp h2]
      rfl
  obtain ⟨s', hx, hm, hw, hmore, hlast, hrepl⟩ :=
    redm_folds hn hflag hr hh hk hi ha hb hpd heg hrep he1 he2 hbg hlease hdeps hrun hinv
  rw [hfl] at hmore hlast
  refine ⟨s', hx, hm, fun h2 => BitVec.eq_of_toNat_eq ?_, fun h2 k hk' => ?_, hmore, hlast, hrepl⟩
  · rw [hw, show (o.args.getD 3 0).toNat = 2 from h2, foldWord_int, BitVec.toNat_add]
  · dsimp only [part]
    rw [hw]
    exact foldWord_lane h2 _ _ hk'

end

section
variable {s s1 : State} {o : Op} {i : Instr} {n : Nat} {r : UnitRes} (hn : Names s o) (hx : exec i s = .next (applyUnit o n r))
  (hf : Fetched s s1)
include hn hx hf

theorem unit_finishes {x : Nat} (hr : r = .last x s1) (hu : Unhindered s1 o) : Performs i s (fun s' => Finished s1 s' o x o.flags) := by
  subst hr
  obtain ⟨u, h⟩ := hf.opFind hn
  exact fun _ => ⟨_, hx, doneOp_ends h x hu⟩

theorem unit_updates {f : Op → Op} (hr : r = .more (updOp s1 o.id f)) (hid : ∀ q, (f q).id = q.id) :
    Performs i s (fun s' => SameMem s1 s' ∧ ∃ u, f { o with unit := u } ∈ s'.ops) := by
  subst hr
  obtain ⟨u, h⟩ := hf.opFind hn
  exact fun _ => ⟨_, hx, fun _ => rfl, u, mem_updOp h hid⟩

end

theorem Performs.mono {i : Instr} {s : State} {p q : State → Prop} (h : Performs i s p) (hpq : ∀ s', p s' → q s') : Performs i s q := by
  intro hi
  obtain ⟨s', hx, hp⟩ := h hi
  exact ⟨s', hx, hpq s' hp⟩

/-! ### KVAPP (R317) -/

/-- The page of `x` holds tokens of the head group of record `bs`. -/
def KvFits (s : State) (p : Nat) (bs : List Byte) (x : TcEnt) : Prop :=
  pairOk (recFmt s p x.fri) (recBlk s p x.fri) = true ∧ recBlk s p x.fri = 0 ∧ hgFits bs (contW (recFmt s p x.fri)) = true
    ∧ (contW (recFmt s p x.fri) = 2 → hgDh bs % 4 = 0)

/-- The page of `x` does not. -/
def kvBad (s : State) (p : Nat) (bs : List Byte) (x : TcEnt) : Bool :=
  let f := recFmt s p x.fri
  !pairOk f (recBlk s p x.fri) || recBlk s p x.fri != 0 || !hgFits bs (contW f) || (contW f == 2 && hgDh bs % 4 != 0)

theorem kvBad_iff (s : State) (p : Nat) (bs : List Byte) (x : TcEnt) : kvBad s p bs x = true ↔ ¬ KvFits s p bs x := by
  unfold kvBad
  dsimp only
  unfold KvFits
  generalize contW (recFmt s p x.fri) = w
  generalize pairOk (recFmt s p x.fri) (recBlk s p x.fri) = b
  cases b <;> cases hgFits bs w <;> by_cases hb : recBlk s p x.fri = 0 <;> by_cases hw : w = 2 <;> simp [hb, hw]

/-- What a KVAPP does once it has read its record (R317). -/
def kvOpen (s : State) (o : Op) (k v : TcEnt) (bs : List Byte) : UnitRes :=
  if !hgOk bs || kvBad s o.pid bs k || kvBad s o.pid bs v || decide (64 < pteFill k.pte1) then .last (2 ^ 63 + 4) s
  else if 64 < pteFill k.pte1 + (o.args.getD 4 0).toNat then .last (2 ^ 63 + 7) s
  else .more (updOp s o.id (fun o => { o with acc := [BitVec.ofNat 64 (pteFill k.pte1)], bytes := bs }))

/-- What a KVAPP does once it has found its pages (R317). -/
def kvFirst (s : State) (o : Op) (k v : TcEnt) : UnitRes :=
  if !rotEn (cpCtl s o.cl o.pid 0x1B0) then .last (2 ^ 63 + 4) s
  else
    match engFetch s o (rotVa (cpCtl s o.cl o.pid 0x1B0) (pteHgrp k.pte1)) 1024 with
    | (.error e, s) => .stop e.1 (BitVec.ofNat 64 e.2) (BitVec.ofNat 64 o.i) s
    | (.ok bs, s) => kvOpen s o k v bs

theorem kvFirst_off {s : State} {o : Op} (h : rotEn (cpCtl s o.cl o.pid 0x1B0) = false) (k v : TcEnt) :
    kvFirst s o k v = .last (2 ^ 63 + 4) s := by
  unfold kvFirst
  rw [h, if_pos Bool.not_false]

theorem kvFirst_read {s s1 : State} {o : Op} {k : TcEnt} {bs : List Byte} (h : rotEn (cpCtl s o.cl o.pid 0x1B0) = true)
    (hf : engFetch s o (rotVa (cpCtl s o.cl o.pid 0x1B0) (pteHgrp k.pte1)) 1024 = (.ok bs, s1)) (v : TcEnt) :
    kvFirst s o k v = kvOpen s1 o k v bs := by
  unfold kvFirst
  rw [h, if_neg (by decide), hf]

theorem kvOpen_cases (s : State) (o : Op) (k v : TcEnt) (bs : List Byte) :
    let good := hgOk bs = true ∧ KvFits s o.pid bs k ∧ KvFits s o.pid bs v ∧ pteFill k.pte1 ≤ 64
    (¬ good → kvOpen s o k v bs = .last (2 ^ 63 + 4) s)
    ∧ (good → 64 < pteFill k.pte1 + (o.args.getD 4 0).toNat → kvOpen s o k v bs = .last (2 ^ 63 + 7) s)
    ∧ (good → pteFill k.pte1 + (o.args.getD 4 0).toNat ≤ 64 → kvOpen s o k v bs
        = .more (updOp s o.id (fun o => { o with acc := [BitVec.ofNat 64 (pteFill k.pte1)], bytes := bs }))) := by
  intro good
  have hbad : (!hgOk bs || kvBad s o.pid bs k || kvBad s o.pid bs v || decide (64 < pteFill k.pte1)) = true ↔ ¬ good := by
    rw [Bool.or_eq_true, Bool.or_eq_true, Bool.or_eq_true, kvBad_iff, kvBad_iff, decide_eq_true_eq, Bool.not_eq_true',
      ← Bool.not_eq_true, ← Nat.not_le]
    dsimp only [good]
    simp only [not_and_or, or_assoc]
  unfold kvOpen
  refine ⟨fun hg => ?_, fun hg h => ?_, fun hg h => ?_⟩
  · rw [if_pos (hbad.mpr hg)]
  · rw [if_neg fun h' => hbad.mp h' hg, if_pos h]
  · rw [if_neg fun h' => hbad.mp h' hg, if_neg (Nat.not_lt.mpr h)]

section
variable {s : State} {o : Op} (hn : Names s o) (hk : o.kind = .kvapp) (hr : opReady s o = true)
  (hh : channelHead s o = true) (ho : o.out = []) (hread : readsOver s = false) (hrepl : replPending s o = false)
include hn hk hr hh ho hread hrepl

section
variable {a b : Nat} {k v : TcEnt} {s1 s2 : State} (hacc : o.acc = [])
  (hfirst : ∀ q ∈ s.ops, q.kind = .kvapp → q.cl = o.cl → q.pid = o.pid → q.id < o.id →
    (q.args.getD 0 0).toNat % 2 ^ 48 ≠ (o.args.getD 0 0).toNat % 2 ^ 48)
  (ha : engAddr s o ((o.args.getD 0 0).toNat % 2 ^ 48) false = (.ok (a, k), s1))
  (hb : engAddr s1 o ((o.args.getD 1 0).toNat % 2 ^ 48) false = (.ok (b, v), s2))
include hacc hfirst ha hb

theorem kvapp_begins : exec .kvappToken s = .next (applyUnit o 0 (kvFirst s2 o k v)) := by
  have hany : s.ops.any (fun q => q.kind == .kvapp && q.cl == o.cl && q.pid == o.pid && decide (q.id < o.id)
      && va48 (q.args.getD 0 0) == va48 (o.args.getD 0 0)) = false := by
    refine List.any_eq_false.mpr fun q hq => ?_
    have := hfirst q hq
    simp only [Bool.and_eq_true, beq_iff_eq, decide_eq_true_eq, va48]
    tauto
  refine (kvappToken_on hn hk hh hr).trans (congrArg (fun r => Host.Outcome.next (applyUnit o 0 r)) ?_)
  unfold unitKvapp
  dsimp only
  rw [ho]
  dsimp only
  have hno : (readsOver s || replPending s o) = false := by rw [hread, hrepl]; rfl
  rw [hno, if_neg Bool.false_ne_true, hacc, if_pos List.isEmpty_nil, hany, if_neg Bool.false_ne_true]
  unfold va48
  rw [ha]
  dsimp only
  rw [hb] <;> rfl

theorem kvapp_starts (bs : List Byte) (s3 : State) :
    let rot := cpCtl s2 o.cl o.pid 0x1B0
    let n := (o.args.getD 4 0).toNat
    (rotEn rot = false → Unhindered s2 o → Performs .kvappToken s (fun s' => Finished s2 s' o (2 ^ 63 + 4) o.flags))
    ∧ (rotEn rot = true → engFetch s2 o (rotVa rot (pteHgrp k.pte1)) 1024 = (.ok bs, s3) →
      let good := hgOk bs = true ∧ KvFits s3 o.pid bs k ∧ KvFits s3 o.pid bs v ∧ pteFill k.pte1 ≤ 64
      (¬ good → Unhindered s3 o → Performs .kvappToken s (fun s' => Finished s3 s' o (2 ^ 63 + 4) o.flags))
      ∧ (good → 64 < pteFill k.pte1 + n → Unhindered s3 o →
          Performs .kvappToken s (fun s' => Finished s3 s' o (2 ^ 63 + 7) o.flags))
      ∧ (good → pteFill k.pte1 + n ≤ 64 → Performs .kvappToken s (fun s' => SameMem s3 s'
          ∧ ∃ q ∈ s'.ops, q.id = o.id ∧ q.acc = [BitVec.ofNat 64 (pteFill k.pte1)] ∧ q.bytes = bs))) := by
  intro rot n
  have hx := kvapp_begins hn hk hr hh ho hread hrepl hacc hfirst ha hb
  have hf2 := ((Fetched.refl s).of (fetched_engAddr ..) ha).of (fetched_engAddr ..) hb
  refine ⟨fun hrot hun => unit_finishes hn hx hf2 (kvFirst_off hrot k v) hun, fun hrot hfetch => ?_⟩
  have hf3 := hf2.of (fetched_engFetch ..) hfetch
  rw [kvFirst_read hrot hfetch] at hx
  obtain ⟨h1, h2, h3⟩ := kvOpen_cases s3 o k v bs
  refine ⟨fun hg hun => unit_finishes hn hx hf3 (h1 hg) hun, fun hg hlt hun => unit_finishes hn hx hf3 (h2 hg hlt) hun, fun hg hle => ?_⟩
  refine (unit_updates hn hx hf3 (h3 hg hle) fun _ => rfl).mono fun s' h => ?_
  obtain ⟨hm, u, hu⟩ := h
  exact ⟨hm, _, hu, rfl, rfl, rfl⟩

end

section
variable {j : Word} (hacc : o.acc = [j])
include hacc

theorem kvapp_appends {a b : Nat} {k v : TcEnt} {s1 s2 s3 s4 : State} {kw vw : List (Nat × List Byte)}
    (hi : o.i < (o.args.getD 4 0).toNat) (ha : engAddr s o ((o.args.getD 0 0).toNat % 2 ^ 48) true = (.ok (a, k), s1))
    (hb : engAddr s1 o ((o.args.getD 1 0).toNat % 2 ^ 48) true = (.ok (b, v), s2))
    (hkr : kvRead o ((o.args.getD 2 0).toNat % 2 ^ 48) a (kvChunks o.bytes (contW (recFmt s2 o.pid k.fri)) o.i (j.toNat + o.i)) s2
      = (.ok (kw, false), s3))
    (hvr : kvRead o ((o.args.getD 3 0).toNat % 2 ^ 48) b (kvChunks o.bytes (contW (recFmt s2 o.pid v.fri)) o.i (j.toNat + o.i)) s3
      = (.ok (vw, false), s4)) :
    Performs .kvappToken s (fun s' => SameMem s4 s' ∧ ∃ q ∈ s'.ops, q.id = o.id ∧ q.i = o.i + 1
      ∧ q.out = kw.flatMap (fun e => outWords k e.1 e.2 false) ++ vw.flatMap (fun e => outWords v e.1 e.2 false)) := by
  have hf2 := ((Fetched.refl s).of (fetched_engAddr ..) ha).of (fetched_engAddr ..) hb
  have hf4 := (hf2.of (fetched_kvRead ..) hkr).of (fetched_kvRead ..) hvr
  have hd : unitKvapp s o = .more (updOp s4 o.id (fun q => { q with
      i := q.i + 1
      out := kw.flatMap (fun e => outWords k e.1 e.2 false) ++ vw.flatMap (fun e => outWords v e.1 e.2 false) })) := by
    unfold unitKvapp
    dsimp only
    rw [ho]
    dsimp only
    have hno : (readsOver s || replPending s o) = false := by rw [hread, hrepl]; rfl
    rw [hno, if_neg Bool.false_ne_true, hacc, List.isEmpty_cons, if_neg Bool.false_ne_true, if_neg (Nat.not_le.mpr hi)]
    unfold va48
    rw [ha]
    dsimp only
    rw [hb]
    dsimp only
    rw [show ([j].getD 0 0).toNat = j.toNat from rfl, hkr]
    dsimp only
    rw [hvr] <;> rfl
  refine (unit_updates hn (kvappToken_on hn hk hh hr) hf4 hd fun _ => rfl).mono fun s' h => ?_
  obtain ⟨hm, u, hu⟩ := h
  exact ⟨hm, _, hu, rfl, rfl, rfl⟩

theorem kvapp_fills {lk lv : Leaf} (hi : (o.args.getD 4 0).toNat ≤ o.i)
    (hlk : walk s o.pid o.root ((o.args.getD 0 0).toNat % 2 ^ 48 / 32768) = some lk) :
    let n := (o.args.getD 4 0).toNat
    let s1 := setPte s o.pid lk lk.pte0 (setField lk.pte1 40 8 (j.toNat + n))
    walk s1 o.pid o.root ((o.args.getD 1 0).toNat % 2 ^ 48 / 32768) = some lv → Unhindered s o → isRunning s o.task = true →
    Performs .kvappToken s (fun s' => Finished s s' o (j.toNat + n) o.flags
      ∧ SameMem (setPte s1 o.pid lv lv.pte0 (setField lv.pte1 40 8 (j.toNat + n))) s') := by
  intro n s1 hlv hun hrun _
  have hd : unitKvapp s o = .last (j.toNat + n) (setPte s1 o.pid lv lv.pte0 (setField lv.pte1 40 8 (j.toNat + n))) := by
    unfold unitKvapp
    dsimp only
    rw [ho]
    dsimp only
    have hno : (readsOver s || replPending s o) = false := by rw [hread, hrepl]; rfl
    rw [hno, if_neg Bool.false_ne_true, hacc, List.isEmpty_cons, if_neg Bool.false_ne_true, if_pos hi]
    unfold setFill va48
    rw [hlk]
    dsimp only
    rw [show ([j].getD 0 0).toNat = j.toNat from rfl, hlv]
  have hw : Walked s (setPte s1 o.pid lv lv.pte0 (setField lv.pte1 40 8 (j.toNat + n))) := (walked_setPte ..).trans (walked_setPte ..)
  obtain ⟨hfin, honly⟩ := hw.finished hn hun hrun (j.toNat + n)
  have hx := kvappToken_on hn hk hh hr
  rw [hd] at hx
  exact ⟨_, hx, hfin, honly.sameMem⟩

end
end

/-! ### ATTD (R310, R311) -/

/-- The operation with what an ATTD keeps from one step to the next (R310). -/
def attdKept (stk com i : Nat) (t : Triple) (f : FpFlags) (q : List Byte) (out : List OutWord) (o : Op) : Op :=
  { o with unit := stk - 1, i := i, bytes := q, flags := o.flags ||| f, out := out
           acc := (stk :: com :: t.m :: t.l :: t.a).map (BitVec.ofNat 64) }

/-- What the query and a page give for the page's tokens (R310, R311). -/
def attdScores (s : State) (o : Op) (g : AttdPage) : List (Nat × Nat × FpFlags) :=
  pageScores (dieView s (dieOf o.cl)) g (f32s o.bytes ((o.args.getD 3 0).toNat / 2 ^ 40 % 2 ^ 9)) ((o.args.getD 0 0).toNat / 2 ^ 54 % 32)
    ((o.args.getD 0 0).toNat / 2 ^ 48 % 64) (ptePos (o.args.getD 3 0)) (bit (o.args.getD 0 0) 62)

/-- What an ATTD reads of the page's keys (R310). -/
def attdKeys (o : Op) (g : AttdPage) : List (Nat × Nat × Nat) :=
  tokenReads g.k g.kscale ((o.args.getD 0 0).toNat / 2 ^ 54 % 32 * hgCt g.hg) ((o.args.getD 3 0).toNat / 2 ^ 40 % 2 ^ 9)
    (pageToks g (ptePos (o.args.getD 3 0)) (bit (o.args.getD 0 0) 62))

/-- What it reads of its values. -/
def attdValues (s : State) (o : Op) (g : AttdPage) : List (Nat × Nat × Nat) :=
  tokenReads g.v g.vscale ((o.args.getD 0 0).toNat / 2 ^ 54 % 32 * hgCt g.hg) ((o.args.getD 3 0).toNat / 2 ^ 40 % 2 ^ 9)
    ((pageLive (attdScores s o g)).map (·.1))

/-- The triple that an ATTD has after the page, with its flags (R311). -/
def attdMerged (s : State) (o : Op) (g : AttdPage) : Triple × FpFlags :=
  let p := pageTriple (dieView s (dieOf o.cl)) g ((o.args.getD 0 0).toNat / 2 ^ 54 % 32) (attdScores s o g)
  ((mergeT (attdTriple o) p.1).1, p.2 ||| (mergeT (attdTriple o) p.1).2)

theorem readsEcc_none {s : State} {l : List (Nat × Nat × Nat)} (h : ∀ e ∈ l, eccBad s e.2.1 e.2.2 = false) : readsEcc s l = none := by
  unfold readsEcc
  rw [List.find?_eq_none.mpr fun e he => by rw [h e he]; exact Bool.false_ne_true]
  rfl

theorem readsEcc_some {s : State} {l : List (Nat × Nat × Nat)} (h : ∃ e ∈ l, eccBad s e.2.1 e.2.2 = true) : ∃ va, readsEcc s l = some va := by
  unfold readsEcc
  obtain ⟨x, hx⟩ := Option.isSome_iff_exists.mp (List.find?_isSome.mpr h)
  rw [hx]
  exact ⟨_, rfl⟩

section
variable {s s1 : State} {o : Op} {g : AttdPage} {u : Nat} (stop : Cause × Nat → State → UnitRes)
  (keep : State → Nat → Triple → FpFlags → UnitRes)
  (hc : attdCheck s o (if (o.acc.getD 0 0).toNat = 0 then none else some ((o.acc.getD 0 0).toNat - 1)) o.i = (.ok (g, u), s1))
include hc

theorem attdPage_ecc (h : ∃ e ∈ attdKeys o g ++ attdValues s1 o g, eccBad s1 e.2.1 e.2.2 = true) :
    ∃ va, attdPage s o stop keep = stop (.memoryEcc, va) s1 := by
  unfold attdPage
  dsimp only
  rw [hc]
  dsimp only
  by_cases hk : ∃ e ∈ attdKeys o g, eccBad s1 e.2.1 e.2.2 = true
  · obtain ⟨va, hva⟩ := readsEcc_some hk
    refine ⟨va, ?_⟩
    unfold attdKeys at hva
    rw [hva] <;> rfl
  · have hk0 : readsEcc s1 (attdKeys o g) = none := readsEcc_none fun e he => by
      cases hb : eccBad s1 e.2.1 e.2.2 with
      | false => rfl
      | true => exact absurd ⟨e, he, hb⟩ hk
    have hv : ∃ e ∈ attdValues s1 o g, eccBad s1 e.2.1 e.2.2 = true := by
      obtain ⟨e, he, hb⟩ := h
      obtain he | he := List.mem_append.mp he
      · exact absurd ⟨e, he, hb⟩ hk
      · exact ⟨e, he, hb⟩
    obtain ⟨va, hva⟩ := readsEcc_some hv
    refine ⟨va, ?_⟩
    unfold attdKeys at hk0
    unfold attdValues attdScores at hva
    rw [hk0, hva] <;> rfl

theorem attdPage_merges (h : ∀ e ∈ attdKeys o g ++ attdValues s1 o g, eccBad s1 e.2.1 e.2.2 = false) :
    attdPage s o stop keep = keep ((attdKeys o g ++ attdValues s1 o g).foldl (fun s e => correctSoft s e.2.1 e.2.2) s1) (u + 1)
      (attdMerged s1 o g).1 (attdMerged s1 o g).2 := by
  have h1 : readsEcc s1 (attdKeys o g) = none := readsEcc_none fun e he => h e (List.mem_append_left _ he)
  have h2 : readsEcc s1 (attdValues s1 o g) = none := readsEcc_none fun e he => h e (List.mem_append_right _ he)
  unfold attdPage
  dsimp only
  rw [hc]
  dsimp only
  unfold attdKeys at h1
  unfold attdValues attdScores at h2
  rw [h1, h2] <;> rfl

end

section
variable {s : State} {o : Op} (hn : Names s o) (hk : o.kind = .attd) (hr : bduReady s o = true) (ho : o.out = [])
  (hread : readsOver s = false) (haway : writesAway s o = false)
include hn hk hr

theorem attd_keeps {s1 : State} (hf : Fetched s s1) {stk com i : Nat} {t : Triple} {f : FpFlags} {q : List Byte} {out : List OutWord}
    (hd : unitAttd s o = .more (updOp s1 o.id (attdKept stk com i t f q out))) :
    Performs .attdPage s (fun s' => SameMem s1 s' ∧ ∃ r ∈ s'.ops, (r.id = o.id ∧ r.i = i
      ∧ r.acc = (stk :: com :: t.m :: t.l :: t.a).map (BitVec.ofNat 64) ∧ r.flags = o.flags ||| f) ∧ r.bytes = q ∧ r.out = out) := by
  refine (unit_updates hn (attdPage_on hn hk hr) hf hd fun _ => rfl).mono fun s' h => ?_
  obtain ⟨hm, u, hu⟩ := h
  exact ⟨hm, _, hu, ⟨rfl, rfl, rfl, rfl⟩, rfl, rfl⟩

include ho hread haway

section
variable (hacc : o.acc = [])
include hacc

omit hn hk hr in
/-- A first ATTD of a query begins with the empty triple (R310). -/
theorem attd_fresh (h63 : (o.args.getD 0 0).getLsbD 63 = true) {q : List Byte} {s1 : State}
    (hq : engFetch s o ((o.args.getD 0 0).toNat % 2 ^ 48) (4 * ((o.args.getD 3 0).toNat / 2 ^ 40 % 2 ^ 9)) = (.ok q, s1)) :
    unitAttd s o = .more (updOp s1 o.id (attdKept 0 0 0 (Triple.empty ((o.args.getD 3 0).toNat / 2 ^ 40 % 2 ^ 9)) 0 q [])) := by
  have hno : (writesAway s o || readsOver s) = false := by rw [hread, haway]; rfl
  unfold unitAttd
  dsimp only
  rw [ho]
  dsimp only
  rw [hno, if_neg Bool.false_ne_true, hacc, if_pos List.isEmpty_nil, if_pos (show bit (o.args.getD 0 0) 63 = true from h63)]
  dsimp only
  unfold va48
  rw [hq] <;> rfl

omit hn hk hr in
/-- A later one with the triple that the record holds. -/
theorem attd_resumes (h63 : (o.args.getD 0 0).getLsbD 63 = false) {r q : List Byte} {s1 s2 : State}
    (hrec : engFetch s o ((o.args.getD 2 0).toNat % 2 ^ 48) (64 + 4 * ((o.args.getD 3 0).toNat / 2 ^ 40 % 2 ^ 9)) = (.ok r, s1))
    (hq : engFetch s1 o ((o.args.getD 0 0).toNat % 2 ^ 48) (4 * ((o.args.getD 3 0).toNat / 2 ^ 40 % 2 ^ 9)) = (.ok q, s2)) :
    unitAttd s o = .more (updOp s2 o.id (attdKept 0 0 (leAt r 8 2 % 2 ^ 13)
      ⟨leAt r 0 4, leAt r 4 4, f32s (r.drop 64) ((o.args.getD 3 0).toNat / 2 ^ 40 % 2 ^ 9)⟩ 0 q [])) := by
  have hno : (writesAway s o || readsOver s) = false := by rw [hread, haway]; rfl
  unfold unitAttd
  dsimp only
  rw [ho]
  dsimp only
  rw [hno, if_neg Bool.false_ne_true, hacc, if_pos List.isEmpty_nil, if_neg (by rw [bit, h63]; exact Bool.false_ne_true)]
  unfold va48
  rw [hrec]
  dsimp only
  rw [hq] <;> rfl

end

section
variable (hacc : o.acc ≠ [])
include hacc

omit hn hk hr in
theorem unitAttd_goesOn : unitAttd s o =
    let dest := (o.args.getD 2 0).toNat % 2 ^ 48
    let dh := (o.args.getD 3 0).toNat / 2 ^ 40 % 2 ^ 9
    let stop := fun (e : Cause × Nat) (s : State) => UnitRes.stop e.1 (BitVec.ofNat 64 e.2) (BitVec.ofNat 64 o.i) s
    if (o.args.getD 1 0).toNat / 2 ^ 48 % 2 ^ 13 ≤ o.i then
      if o.acc.getD 1 0 = 1 then .last 0 s
      else match (match engPieces s o true 3 dest (64 + 4 * dh) with
          | (.error e, s) => (.error e, s)
          | (.ok l, s) => (.ok (pieceWords l false (tripleWords (attdTriple o) o.i)), s) : Except (Cause × Nat) (List OutWord) × State) with
        | (.error e, s) => stop e s
        | (.ok ws, s) => .more (updOp s o.id (attdKept (o.acc.getD 0 0).toNat 1 o.i (attdTriple o) 0 o.bytes ws))
    else
      attdPage s o stop (fun s u t f =>
        match (match engPieces s o true 3 dest (64 + 4 * dh) with
          | (.error e, s) => (.error e, s)
          | (.ok l, s) => (.ok (pieceWords l false (tripleWords t (o.i + 1))), s) : Except (Cause × Nat) (List OutWord) × State) with
        | (.error e, s) => stop e s
        | (.ok ws, s) => .more (updOp s o.id (attdKept u 1 (o.i + 1) t f o.bytes ws))) := by
  have hno : (writesAway s o || readsOver s) = false := by rw [hread, haway]; rfl
  have hne : o.acc.isEmpty = false := by
    cases h : o.acc with
    | nil => exact absurd h hacc
    | cons _ _ => rfl
  unfold unitAttd
  dsimp only
  rw [ho]
  dsimp only
  rw [hno, if_neg Bool.false_ne_true, hne, if_neg Bool.false_ne_true] <;> rfl

theorem attd_done (hi : (o.args.getD 1 0).toNat / 2 ^ 48 % 2 ^ 13 ≤ o.i) (h1 : o.acc.getD 1 0 = 1) (hun : Unhindered s o) :
    Performs .attdPage s (fun s' => Finished s s' o 0 o.flags) := by
  have hd : unitAttd s o = .last 0 s := by
    rw [unitAttd_goesOn ho hread haway hacc]
    dsimp only
    rw [if_pos hi, if_pos h1]
  exact unit_finishes hn (attdPage_on hn hk hr) (.refl s) hd hun

/-- After the last page the triple is written to its record (R311). -/
theorem attd_commits (hi : (o.args.getD 1 0).toNat / 2 ^ 48 % 2 ^ 13 ≤ o.i) (h1 : o.acc.getD 1 0 ≠ 1) {l : List (Nat × Nat × TcEnt)} {s1 : State}
    (hp : engPieces s o true 3 ((o.args.getD 2 0).toNat % 2 ^ 48) (64 + 4 * ((o.args.getD 3 0).toNat / 2 ^ 40 % 2 ^ 9)) = (.ok l, s1)) :
    Performs .attdPage s (fun s' => SameMem s1 s' ∧ ∃ r ∈ s'.ops, r.id = o.id ∧ r.i = o.i
      ∧ r.out = pieceWords l false (tripleWords (attdTriple o) o.i)) := by
  have hd : unitAttd s o = .more (updOp s1 o.id (attdKept (o.acc.getD 0 0).toNat 1 o.i (attdTriple o) 0 o.bytes
      (pieceWords l false (tripleWords (attdTriple o) o.i)))) := by
    rw [unitAttd_goesOn ho hread haway hacc]
    dsimp only
    rw [if_pos hi, if_neg h1, hp]
  refine (attd_keeps hn hk hr ((Fetched.refl s).of (fetched_engPieces ..) hp) hd).mono fun s' h => ?_
  obtain ⟨hm, r, hr, ⟨hid, hri, -, -⟩, -, hout⟩ := h
  exact ⟨hm, r, hr, hid, hri, hout⟩

section
variable {g : AttdPage} {u : Nat} {s1 : State} (hi : o.i < (o.args.getD 1 0).toNat / 2 ^ 48 % 2 ^ 13)
  (hc : attdCheck s o (if (o.acc.getD 0 0).toNat = 0 then none else some ((o.acc.getD 0 0).toNat - 1)) o.i = (.ok (g, u), s1))
include hi hc

/-- A page with an uncorrectable error stops the operation before it (R202). -/
theorem attd_stops (hecc : ∃ e ∈ attdKeys o g ++ attdValues s1 o g, eccBad s1 e.2.1 e.2.2 = true) (hdr : drained s1 o = true) :
    Performs .attdPage s (fun s' => ∃ va, OpStopped s1 s' o 23 va (BitVec.ofNat 64 o.i) ∧ SameMem s1 s') := by
  have hgo := unitAttd_goesOn ho hread haway hacc
  dsimp only at hgo
  rw [if_neg (Nat.not_le.mpr hi)] at hgo
  obtain ⟨va, hva⟩ := attdPage_ecc (fun e s => UnitRes.stop e.1 (BitVec.ofNat 64 e.2) (BitVec.ofNat 64 o.i) s) _ hc hecc
  rw [hva] at hgo
  refine (unit_stops (attdPage_on hn hk hr) hn (stopsFrom_attd s o) hgo hdr rfl fun _ => rfl).mono fun s' h => ?_
  exact ⟨_, h⟩

/-- The triple of a page is merged and committed (R310, R311). -/
theorem attd_merges (hok : ∀ e ∈ attdKeys o g ++ attdValues s1 o g, eccBad s1 e.2.1 e.2.2 = false) {l : List (Nat × Nat × TcEnt)} {s2 : State}
    (hp : engPieces ((attdKeys o g ++ attdValues s1 o g).foldl (fun s e => correctSoft s e.2.1 e.2.2) s1) o true 3
      ((o.args.getD 2 0).toNat % 2 ^ 48) (64 + 4 * ((o.args.getD 3 0).toNat / 2 ^ 40 % 2 ^ 9)) = (.ok l, s2)) :
    Performs .attdPage s (fun s' => SameMem s2 s' ∧ ∃ r ∈ s'.ops, (r.id = o.id ∧ r.i = o.i + 1
      ∧ r.acc = ((u + 1) :: 1 :: (attdMerged s1 o g).1.m :: (attdMerged s1 o g).1.l :: (attdMerged s1 o g).1.a).map (BitVec.ofNat 64)
      ∧ r.flags = o.flags ||| (attdMerged s1 o g).2) ∧ r.out = pieceWords l false (tripleWords (attdMerged s1 o g).1 (o.i + 1))) := by
  have hgo := unitAttd_goesOn ho hread haway hacc
  dsimp only at hgo
  rw [if_neg (Nat.not_le.mpr hi), attdPage_merges _ _ hc hok, hp] at hgo
  have hf1 := (Fetched.refl s).of (fetched_attdCheck ..) hc
  have hf2 := (hf1.trans (fetched_foldl (fun s _ => fetched_correctSoft ..) _ _)).of (fetched_engPieces ..) hp
  refine (attd_keeps hn hk hr hf2 hgo).mono fun s' h => ?_
  obtain ⟨hm, r, hr, hold, -, hout⟩ := h
  exact ⟨hm, r, hr, hold, hout⟩

end

end

end

/-! ### LFILT (R349-R351) -/

/-- The eight words of the head of a record. -/
theorem filterWords_eq (r : FilterRec) (ptok : Nat) (pv : Bool) :
    filterWords r ptok pv = r.list.mapIdx (fun k e => (64 + 8 * k, toLe 4 e.1 ++ toLe 4 e.2))
      ++ [(0, toLe 8 (r.m + 2 ^ 32 * r.l)), (8, toLe 8 (r.e + 2 ^ 32 * r.sp)),
        (16, toLe 8 (r.list.length + 2 ^ 32 * ptok)), (24, toLe 8 (if pv then 1 else 0)),
        (32, toLe 8 0), (40, toLe 8 0), (48, toLe 8 0), (56, toLe 8 0)] := by
  unfold filterWords filterBytes
  refine congrArg _ ?_
  generalize r.m + 2 ^ 32 * r.l = a
  generalize r.e + 2 ^ 32 * r.sp = b
  generalize r.list.length + 2 ^ 32 * ptok = c
  generalize (if pv then 1 else 0) = d
  rfl

theorem getLsbD_eq_div (w : Word) (k : Nat) : (w.toNat / 2 ^ k % 2 == 1) = w.getLsbD k := by
  rw [BitVec.getLsbD, Nat.testBit_eq_decide_div_mod_eq]
  rfl

theorem getLsbD_iff_div (w : Word) (k : Nat) : (w.toNat / 2 ^ k % 2 = 1) ↔ w.getLsbD k = true := by
  rw [← getLsbD_eq_div, beq_iff_eq]

section
variable {s : State} {o : Op} (hn : Names s o) (hk : o.kind = .lfilt) (hr : bduReady s o = true) (ho : o.out = [])
include hn hk hr ho

theorem lfilt_done (hacc : o.acc ≠ []) (hun : Unhindered s o) : Performs .lfiltPass s (fun s' => Finished s s' o 0 o.flags) := by
  have hd : unitLfilt s o = .last 0 s := by
    have hne : o.acc.isEmpty = false := by
      cases h : o.acc with
      | nil => exact absurd h hacc
      | cons _ _ => rfl
    unfold unitLfilt
    rw [ho]
    dsimp only
    rw [hne, if_pos Bool.not_false]
  exact unit_finishes hn (lfiltPass_on hn hk hr) (.refl s) hd hun

/-- A pass over the logits of formats `f` in one stack gives the record of the filter (R349-R351). -/
theorem lfilt_passes {a : Nat} {x : TcEnt} {s1 s2 s3 s4 s5 : State} {ps : List (Nat × TcEnt)} {bs : List Byte} {l m : List (Nat × Nat × TcEnt)}
    (hacc : o.acc = []) (hread : readsOver s = false) (ha : engAddr s o ((o.args.getD 0 0).toNat % 2 ^ 48) false = (.ok (a, x), s1)) :
    let va := (o.args.getD 0 0).toNat % 2 ^ 48
    let f := recFmt s1 o.pid x.fri
    let sz := if f = 1 then 4 else if f = 2 ∨ f = 3 then 2 else 1
    let v := (o.args.getD 1 0).toNat % 2 ^ 24
    let pages := (List.range ((va + v * sz - 1) / 32768 - va / 32768 + 1)).map (fun k =>
      if k = 0 then va else (va / 32768 + k) * 32768)
    let u := physStack (recPhys s1 o.pid x.fri)
    logitPages (updOp s1 o.id (fun q => { q with unit := u.getD 0 })) o pages = (.ok ps, s2) →
    engFetch s2 o va (v * sz) = (.ok bs, s3) → u.isSome = true → va % sz = 0 →
    (∀ e ∈ ps, physStack (recPhys s2 o.pid e.2.fri) = u) →
    (∀ e ∈ ps, recFmt s2 o.pid e.2.fri = f ∧ (f = 1 ∨ f = 2 ∨ f = 3) ∧ recBlk s2 o.pid e.2.fri = 0) →
    let probe := (o.args.getD 2 0).toNat / 2 ^ 32
    let pv := (o.args.getD 3 0).getLsbD 48
    let r := filterPass ((List.range v).map (fun j => (decF32 f 0 (leAt bs (sz * j) sz) 0 0).1))
      ((o.args.getD 1 0).toNat / 2 ^ 32 % 2 ^ 9)
      (if (o.args.getD 1 0).getLsbD 41 then some ((o.args.getD 2 0).toNat % 2 ^ 32) else none)
      (if pv then some probe else none)
    engPieces s3 o false 3 ((o.args.getD 3 0).toNat % 2 ^ 48) (64 + 8 * r.list.length) = (.ok l, s4) →
    engPieces s4 o true 3 ((o.args.getD 3 0).toNat % 2 ^ 48) (64 + 8 * r.list.length) = (.ok m, s5) →
    Performs .lfiltPass s (fun s' => SameMem s5 s' ∧ ∃ q ∈ s'.ops, q.id = o.id ∧ q.flags = r.flags ∧ q.acc ≠ []
      ∧ q.out = pieceWords m false (filterWords r probe pv)) := by
  intro va f sz v pages u hp hf hsome halign hstack hfmt probe pv r hl hm
  have hf2 := (((Fetched.refl s).of (fetched_engAddr ..) ha).trans (fetched_setUnit s1 o.id (u.getD 0))).of (fetched_logitPages ..) hp
  have hf5 := ((hf2.of (fetched_engFetch ..) hf).of (fetched_engPieces ..) hl).of (fetched_engPieces ..) hm
  have haway : ps.find? (fun e => physStack (recPhys s2 o.pid e.2.fri) != u || u.isNone) = none :=
    List.find?_eq_none.mpr fun e he => by
      rw [hstack e he, Option.isNone_eq_false_iff.mpr hsome, bne_self_eq_false]
      exact Bool.false_ne_true
  have hform : ps.find? (fun e => !(recFmt s2 o.pid e.2.fri == 1 || recFmt s2 o.pid e.2.fri == 2 || recFmt s2 o.pid e.2.fri == 3)
      || recBlk s2 o.pid e.2.fri != 0 || recFmt s2 o.pid e.2.fri != f) = none :=
    List.find?_eq_none.mpr fun e he => by
      obtain ⟨h1, h2, h3⟩ := hfmt e he
      rw [h1, h3, bne_self_eq_false, bne_self_eq_false]
      obtain h | h | h := h2 <;> rw [h] <;> decide
  have hd : unitLfilt s o = .more (updOp s5 o.id (fun q => { q with
      flags := r.flags, acc := [1], out := pieceWords m false (filterWords r probe pv) })) := by
    unfold unitLfilt
    rw [ho]
    dsimp only
    rw [hacc, List.isEmpty_nil, if_neg (by decide), hread, if_neg Bool.false_ne_true]
    unfold lfiltPass
    dsimp only
    rw [ha]
    dsimp only
    rw [hp]
    dsimp only
    rw [haway, hform, hf]
    dsimp only
    rw [getLsbD_eq_div (o.args.getD 3 0) 48]
    simp only [getLsbD_iff_div]
    rw [Option.map_some, Option.getD_some, hl]
    dsimp only
    rw [hm]
    dsimp only
    rw [if_neg (not_not.mpr halign)] <;> rfl
  refine (unit_updates hn (lfiltPass_on hn hk hr) hf5 hd fun _ => rfl).mono fun s' h => ?_
  obtain ⟨hsm, w, hw⟩ := h
  exact ⟨hsm, _, hw, rfl, rfl, List.cons_ne_nil _ _, rfl⟩

end

/-- The five events that run a unit, with the unit and the operations that each is for. -/
def formUnits : List (Instr × (State → Op → UnitRes) × (OpKind → Prop)) :=
  [(.channelUnit, unitData, fun k => k = .cpy ∨ k = .cpy2d ∨ k = .gath ∨ k = .scat ∨ k = .fld ∨ k = .fst),
    (.redmUnit, unitRedm, fun k => k = .redm), (.kvappToken, unitKvapp, fun k => k = .kvapp),
    (.attdPage, unitAttd, fun k => k = .attd), (.lfiltPass, unitLfilt, fun k => k = .lfilt)]

section
variable {s : State} {o : Op} {i : Instr} {u : State → Op → UnitRes} {k : OpKind → Prop} (hmem : (i, u, k) ∈ formUnits)
  (hne : s.ev.unit ≠ 1) (hn : Names s o) (hk : k o.kind) (hr : opReady s o = true) (hc : onChannel o.kind = true → channelHead s o = true)
  (hb : o.kind = .attd ∨ o.kind = .lfilt → bduReady s o = true)
include hmem hne hn hk hr hc hb

theorem formUnit_on : ∃ n, exec i s = .next (applyUnit o n (u s o)) ∧ StopsFrom s (u s o) := by
  simp only [formUnits, List.mem_cons, Prod.mk.injEq, List.not_mem_nil, or_false] at hmem
  obtain ⟨rfl, rfl, rfl⟩ | ⟨rfl, rfl, rfl⟩ | ⟨rfl, rfl, rfl⟩ | ⟨rfl, rfl, rfl⟩ | ⟨rfl, rfl, rfl⟩ := hmem
  · have hkc : onChannel o.kind = true := by obtain h | h | h | h | h | h := hk <;> rw [h] <;> rfl
    exact ⟨0, channelUnit_on hn hne hkc (hc hkc) hr, stopsFrom_data s o⟩
  · exact ⟨0, redmUnit_on hn hk (hc (by rw [show o.kind = .redm from hk]; rfl)) hr, stopsFrom_redm s o⟩
  · exact ⟨0, kvappToken_on hn hk (hc (by rw [show o.kind = .kvapp from hk]; rfl)) hr, stopsFrom_kvapp s o⟩
  · exact ⟨2, attdPage_on hn hk (hb (.inl hk)), stopsFrom_attd s o⟩
  · exact ⟨2, lfiltPass_on hn hk (hb (.inr hk)), stopsFrom_lfilt s o⟩

/-- What the event leaves for each result of the unit. -/
theorem formUnit_performs :
    (∀ s1, u s o = .more s1 → Performs i s (fun s' => s' = s1))
    ∧ (∀ x s1 q, u s o = .last x s1 → opFind s1 o.id = some q → Unhindered s1 q →
        Performs i s (fun s' => Finished s1 s' q x q.flags ∧ (isRunning s1 q.task = true → SameMem s1 s')))
    ∧ (∀ c va ix s1, u s o = .stop c va ix s1 → opFind s1 o.id ≠ none → drained s1 o = true →
        Performs i s (fun s' => OpStopped s1 s' o (causeCode c) va ix ∧ SameMem s1 s')) := by
  obtain ⟨n, hx, hstop⟩ := formUnit_on hmem hne hn hk hr hc hb
  exact ⟨fun s1 h => unit_goesOn hx h, fun x s1 q h hf hu => unit_ends hx h hf hu,
    fun c va ix s1 h _ hd => unit_stops hx hn hstop h hd rfl fun _ => rfl⟩

end

/-- Settles O50: each event runs its operation's unit, whose look-ups and reads change nothing but caches and marks; each form's
unit is then evaluated where nothing holds it back. -/
theorem engineUnits : Obligations.EngineUnits := by
  unfold Obligations.EngineUnits
  refine ⟨fun s o i u k hm hne hn hk hr hc hb => formUnit_performs hm hne hn hk hr hc hb, fun s o va w hq b => ?_, fun s o hflag => ?_⟩
  · rw [engAddr_mem_quiet hq]
  intro va l die
  refine ⟨fun i w rest hk hne hn hr hc hb ho hl hbg hw => writing_goes hn hk hne hr hc hb ho hl hbg hw, fun hne hn hr hh => ?_,
    fun hne hn hr hb ho hread => ?_, fun e hu hm he => egress_drains hu hm he⟩
  · refine ⟨fun hk hi => cpy_copies hn hflag hne hr hh hk hi, fun hk hi hj => cpy2d_copies hn hflag hne hr hh hk hi hj,
      fun hk hi te s0 hte => table_clauses hn hflag hne hr hh hk hi te s0 hte, fun a x s1 hk ha => fld_loads hn hflag hne hr hh hk ha,
      fun a x s1 hk ho hi ha hl hb => fst_stores hn hflag hne hr hh hk ho hi ha hl hb, fun hk ho hi hu => fst_done hn hne hr hh hk ho hi hu,
      fun c s1 w hk ha hdr => register_stops hn hne hr hh hk ha hdr,
      fun pa x s1 pd y s2 hk hi ha hb hpd heg hrep he1 he2 hbg hl hd hrun =>
        redm_clause hn hflag hr hh hk hi ha hb hpd heg hrep he1 he2 hbg hl hd hrun,
      fun hk ho hread hrep => ⟨fun a k s1 b v s2 bs s3 hacc hfirst ha hb hrun => ?_, fun j a k s1 b v s2 kw s3 vw s4 hacc hi ha hb hkr hvr => ?_,
        fun j lk lv hacc hi hlk hlv hun hrun => kvapp_fills hn hk hr hh ho hread hrep hacc hi hlk hlv hun hrun⟩⟩
    · exact kvapp_starts hn hk hr hh ho hread hrep hacc hfirst ha hb bs s3
    · exact kvapp_appends hn hk hr hh ho hread hrep hacc hi ha hb hkr hvr
  · refine ⟨fun hk haway => ⟨fun q s1 hacc h63 hq => ?_, fun r s1 q s2 hacc h63 hrec hq => ?_, fun g u s1 l s2 hacc hi hc => ⟨?_, ?_⟩,
      fun l s1 hacc hi h1 hp => attd_commits hn hk hb ho hread haway hacc hi h1 hp, fun hacc hi h1 hun =>
        attd_done hn hk hb ho hread haway hacc hi h1 hun⟩, fun hk => ⟨fun hacc hun => lfilt_done hn hk hb ho hacc hun, ?_⟩⟩
    · exact attd_keeps hn hk hb ((Fetched.refl s).of (fetched_engFetch ..) hq) (attd_fresh ho hread haway hacc h63 hq)
    · exact attd_keeps hn hk hb (((Fetched.refl s).of (fetched_engFetch ..) hrec).of (fetched_engFetch ..) hq)
        (attd_resumes ho hread haway hacc h63 hrec hq)
    · exact fun hecc hdr => attd_stops hn hk hb ho hread haway hacc hi hc hecc hdr
    · exact fun hok hp => attd_merges hn hk hb ho hread haway hacc hi hc hok hp
    · intro a x s1 ps s2 bs s3 l s4 m s5 hacc ha f sz v pages u hp hf hsome halign hstack hfmt probe pv r hl hm
      rw [← filterWords_eq]
      exact lfilt_passes hn hk hb ho hacc hread ha hp hf hsome halign hstack hfmt hl hm

end Sys2Proof.Machine
end

section
/-! SUPPORT. O4: the memory, the tables and the page tables keep the memory form. -/

namespace Sys2Proof.Machine

open Laws

/-! Only `wrBytes` writes memory and the firmware window, and `wf_wrBytes` says that it keeps the form. So an operation of
the model keeps `State.Inv` when the operations that it is made of do: one lemma `<operation>_inv` for each, in the
    order
of the model, whose proof follows the branches of the definition and cites the lemmas of its parts. The predicates
    below say
it of results that are not a bare state. They are irreducible: unfolding a result with its state is never wanted. -/

/-- What a row answers, when it is a state, keeps the form. -/
@[irreducible] def OutInv : Host.Outcome State Fault Refusal → Prop
  | .next s => s.Inv
  | _ => True

/-- Whatever the walker answers, its state keeps the form. -/
@[irreducible] def WalkInv : WalkRes → Prop
  | .done _ s => s.Inv
  | .stop _ s => s.Inv
  | .wait s => s.Inv

/-- Whatever a unit answers, its state keeps the form. -/
@[irreducible] def UnitInv : UnitRes → Prop
  | .more s => s.Inv
  | .last _ s => s.Inv
  | .stop _ _ _ s => s.Inv
  | .hold s => s.Inv

/-- Whatever an attempt of the Sieve gives, its state keeps the form. -/
@[irreducible] def AttInv : Att → Prop
  | .placed s => s.Inv
  | .fail s => s.Inv
  | .fault _ _ s => s.Inv

/-- A state found together with a value keeps the form; nothing found asks nothing. -/
@[irreducible] def OptInv {α : Type} : Option (α × State) → Prop
  | some (_, s) => s.Inv
  | none => True

/-- A state, where there is one, keeps the form. -/
@[irreducible] def OptStInv : Option State → Prop
  | some s => s.Inv
  | none => True

/-- A result with a state keeps the form; an error carries no state. -/
@[irreducible] def ExcInv {α ε : Type} : Except ε (α × State) → Prop
  | .ok (_, s) => s.Inv
  | .error _ => True

/-- A state that is no error keeps the form. -/
@[irreducible] def ExcStInv {ε : Type} : Except ε State → Prop
  | .ok s => s.Inv
  | .error _ => True

/-- Either the state goes on, or the walker ends with its answer: both keep the form. -/
@[irreducible] def FillInv : Except WalkRes State → Prop
  | .ok s => s.Inv
  | .error r => WalkInv r

/-- The state behind the lines that a lane has read keeps the form. -/
@[irreducible] def LaneInv {ε : Type} : Except ε LaneRd → Prop
  | .ok r => r.st.Inv
  | .error _ => True

/-! ### Folds and results -/

theorem foldl_inv {α : Type} {f : State → α → State} (hf : ∀ s x, s.Inv → (f s x).Inv) :
    ∀ (l : List α) {s : State}, s.Inv → (l.foldl f s).Inv
  | [], _, h => h
  | x :: l, _, h => foldl_inv hf l (hf _ x h)

theorem foldl_pair_inv {α β : Type} {f : State × β → α → State × β} (hf : ∀ s x, s.1.Inv → (f s x).1.Inv) :
    ∀ (l : List α) {s : State × β}, s.1.Inv → (l.foldl f s).1.Inv
  | [], _, h => h
  | x :: l, _, h => foldl_pair_inv hf l (hf _ x h)

theorem foldl_snd_inv {α γ : Type} {f : γ × State → α → γ × State} (hf : ∀ a x, a.2.Inv → (f a x).2.Inv) :
    ∀ (l : List α) {a : γ × State}, a.2.Inv → (l.foldl f a).2.Inv
  | [], _, h => h
  | x :: l, _, h => foldl_snd_inv hf l (hf _ x h)

theorem foldl_optSt_inv {α : Type} {f : Option State → α → Option State} (hf : ∀ a x, OptStInv a → OptStInv (f a x)) :
    ∀ (l : List α) {a : Option State}, OptStInv a → OptStInv (l.foldl f a)
  | [], _, h => h
  | x :: l, _, h => foldl_optSt_inv hf l (hf _ x h)

theorem foldl_opt_inv {α γ : Type} {f : Option (γ × State) → α → Option (γ × State)} (hf : ∀ a x, OptInv a → OptInv (f
    a x)) :
    ∀ (l : List α) {a : Option (γ × State)}, OptInv a → OptInv (l.foldl f a)
  | [], _, h => h
  | x :: l, _, h => foldl_opt_inv hf l (hf _ x h)

theorem optInv_bind {α γ : Type} {x : Option (α × State)} {f : α × State → Option (γ × State)} (hx : OptInv x)
    (hf : ∀ y, y.2.Inv → OptInv (f y)) : OptInv (x.bind f) := by
  cases x with
  | none => unfold OptInv; trivial
  | some y => unfold OptInv at hx; exact hf y hx

theorem optStInv_bind {x : Option State} {f : State → Option State} (hx : OptStInv x)
    (hf : ∀ y : State, y.Inv → OptStInv (f y)) : OptStInv (x.bind f) := by
  cases x with
  | none => unfold OptStInv; trivial
  | some y => unfold OptStInv at hx; exact hf y hx

theorem optInv_map {α γ : Type} {x : Option (α × State)} {f : α × State → γ × State} (hx : OptInv x)
    (hf : ∀ y, y.2.Inv → (f y).2.Inv) : OptInv (x.map f) := by
  cases x with
  | none => unfold OptInv; trivial
  | some y => unfold OptInv at *; exact hf y hx

theorem wf_foldl_wrBytes {α : Type} {f : α → Nat} {g : α → List Byte} :
    ∀ (l : List α) {m : List Host.Cell}, Memory.wf m = true → Memory.wf (l.foldl (fun m e => wrBytes m (f e) (g e)) m)
        = true
  | [], _, h => h
  | x :: l, _, h => wf_foldl_wrBytes l (wf_wrBytes _ _ _ h)

theorem optInv_getD {α : Type} {x : Option (α × State)} (hx : OptInv x) {s : State} (hs : s.Inv) :
    ((x.map (·.2)).getD s).Inv := by
  cases x with
  | none => exact hs
  | some y => unfold OptInv at hx; exact hx

theorem OutInv.next {s : State} (hs : s.Inv) : OutInv (.next s) := by
  unfold OutInv; exact hs

theorem WalkInv.done {s : State} (x) (hs : s.Inv) : WalkInv (.done x s) := by
  unfold WalkInv; exact hs

theorem UnitInv.more {s : State} (hs : s.Inv) : UnitInv (.more s) := by
  unfold UnitInv; exact hs

theorem UnitInv.last {s : State} (x) (hs : s.Inv) : UnitInv (.last x s) := by
  unfold UnitInv; exact hs

theorem UnitInv.stop {s : State} (c v i) (hs : s.Inv) : UnitInv (.stop c v i s) := by
  unfold UnitInv; exact hs

theorem UnitInv.hold {s : State} (hs : s.Inv) : UnitInv (.hold s) := by
  unfold UnitInv; exact hs

theorem LaneInv.ok {ε : Type} {x : Except ε LaneRd} (h : LaneInv x) {r} (e : x = .ok r) : r.st.Inv := by
  subst e; unfold LaneInv at h; exact h

theorem optInv_map_snd {α β : Type} {n : β} {x : Option (α × State)} (hx : OptInv x) : OptInv ((x.map (fun q => (n,
    q.1, q.2))).map Prod.snd) := by
  cases x with
  | none => unfold OptInv; trivial
  | some y => unfold OptInv at *; exact hx

theorem State.Inv.strands {s : State} (hs : s.Inv) {x : List (Nat × Strand)} : State.Inv { s with strands := x } :=
    ⟨hs.1, hs.2⟩

theorem OptStInv.none : OptStInv .none := by
  unfold OptStInv; trivial

theorem OptStInv.some {s : State} (hs : s.Inv) : OptStInv (some s) := by
  unfold OptStInv; exact hs

theorem OptStInv.inv {s : State} (h : OptStInv (.some s)) : s.Inv := by
  unfold OptStInv at h; exact h

theorem ExcStInv.ok {ε : Type} {s : State} (hs : s.Inv) : ExcStInv (ε := ε) (.ok s) := by
  unfold ExcStInv; exact hs

theorem ExcStInv.error {ε : Type} (e : ε) : ExcStInv (.error e) := by
  unfold ExcStInv; trivial

theorem ExcInv.ok {α ε : Type} {s : State} (x : α) (hs : s.Inv) : ExcInv (ε := ε) (.ok (x, s)) := by
  unfold ExcInv; exact hs

theorem ExcInv.error {α ε : Type} (e : ε) : ExcInv (α := α) (.error e) := by
  unfold ExcInv; trivial

theorem AttInv.placed {s : State} (hs : s.Inv) : AttInv (.placed s) := by
  unfold AttInv; exact hs

theorem AttInv.fail {s : State} (hs : s.Inv) : AttInv (.fail s) := by
  unfold AttInv; exact hs

theorem AttInv.fault {s : State} (c v) (hs : s.Inv) : AttInv (.fault c v s) := by
  unfold AttInv; exact hs

theorem ite_snd_inv {α : Type} {c : Prop} [Decidable c] {a b : α × State} (ha : a.2.Inv) (hb : b.2.Inv) :
    (if c then a else b).2.Inv := by
  split
  · exact ha
  · exact hb

/-! ### Memory of the state -/

theorem wrMem_inv {s : State} (hs : s.Inv) (a) (bs) : (wrMem s a bs).Inv := ⟨wf_wrBytes _ _ _ hs.1, hs.2⟩

theorem wrN_inv {s : State} (hs : s.Inv) (a n x) : (wrN s a n x).Inv :=
  wrMem_inv (hs := hs) ..

theorem wr64_inv {s : State} (hs : s.Inv) (a x) : (wr64 s a x).Inv :=
  wrN_inv (hs := hs) ..

theorem feSet_inv {s : State} (hs : s.Inv) (a b) : (feSet s a b).Inv := hs

/-! ### Tables of the state -/

theorem putClu_inv {s : State} (hs : s.Inv) (c x) : (putClu s c x).Inv := hs

theorem updClu_inv {s : State} (hs : s.Inv) (c f) : (updClu s c f).Inv := hs

theorem putCp_inv {s : State} (hs : s.Inv) (c p x) : (putCp s c p x).Inv := hs

theorem updCp_inv {s : State} (hs : s.Inv) (c p f) : (updCp s c p f).Inv := hs

theorem putDie_inv {s : State} (hs : s.Inv) (d x) : (putDie s d x).Inv := hs

theorem updDie_inv {s : State} (hs : s.Inv) (d f) : (updDie s d f).Inv := hs

theorem putDp_inv {s : State} (hs : s.Inv) (d p x) : (putDp s d p x).Inv := hs

theorem updDp_inv {s : State} (hs : s.Inv) (d p f) : (updDp s d p f).Inv := hs

theorem freePick_inv {s : State} (hs : s.Inv) (n) : (freePick s n).2.Inv := hs

theorem freeDelay_inv {s : State} (hs : s.Inv) : (freeDelay s).2.Inv := hs

theorem fresh_inv {s : State} (hs : s.Inv) : (fresh s).2.Inv := hs

/-! ### Frame records -/

theorem setRec0_inv {s : State} (hs : s.Inv) (p fri lo n x) : (setRec0 s p fri lo n x).Inv :=
  wr64_inv (hs := hs) ..

theorem setRef_inv {s : State} (hs : s.Inv) (p fri x) : (setRef s p fri x).Inv :=
  setRec0_inv (hs := hs) ..

theorem setPins_inv {s : State} (hs : s.Inv) (p fri x) : (setPins s p fri x).Inv :=
  setRec0_inv (hs := hs) ..

theorem setLoc_inv {s : State} (hs : s.Inv) (p fri kind loc) : (setLoc s p fri kind loc).Inv :=
  wr64_inv (hs := setRec0_inv (hs := hs) ..) ..

theorem setLast_inv {s : State} (hs : s.Inv) (p fri t) : (setLast s p fri t).Inv :=
  wrN_inv (hs := hs) ..

/-! ### Translation cache -/

theorem tcPut_inv {s : State} (hs : s.Inv) (cl e) : (tcPut s cl e).Inv := by
  unfold tcPut
  grind [putClu_inv, freePick_inv]

theorem invalidate_inv {s : State} (hs : s.Inv) (p fri) : (invalidate s p fri).Inv := hs

theorem xlate_inv {s : State} (hs : s.Inv) (cl p root vpn) : (xlate s cl p root vpn).2.Inv := by
  unfold xlate
  grind [tcPut_inv]

theorem leafAt_inv {s : State} (hs : s.Inv) (cl p root vpn) : (leafAt s cl p root vpn).2.Inv := by
  unfold leafAt
  grind [xlate_inv]

/-! ### Frames, spill slots and node pages -/

theorem takeFrame_inv {s : State} (hs : s.Inv) (cl p fri) : OptInv (takeFrame s cl p fri) := by
  unfold takeFrame
  grind [OptInv, updCp_inv, updClu_inv, freePick_inv]

theorem dropFrame_inv {s : State} (hs : s.Inv) (cl f) : (dropFrame s cl f).Inv := hs

theorem returnStorage_inv {s : State} (hs : s.Inv) (p fri) : (returnStorage s p fri).Inv := by
  unfold returnStorage
  grind [State.Inv, dropFrame_inv, updDp_inv]

/-! ### Reference counts -/

theorem dropPin_inv {s : State} (hs : s.Inv) (p fri pin) : (dropPin s p fri pin).Inv := by
  unfold dropPin
  grind [setPins_inv]

theorem freeRec_inv (p) : ∀ (k) (lvl) (fri) {s : State} (_ : s.Inv), OptInv (freeRec p k lvl fri s)
  | 0, _, _, _, hs => by
    unfold freeRec OptInv
    exact hs
  | k + 1, lvl, fri, s, hs => by
    have ih := @freeRec_inv p k
    unfold freeRec
    have h0 : OptInv (some (0, s)) := by unfold OptInv; exact hs
    split
    · exact h0
    refine optInv_map (foldl_opt_inv (fun a x h => optInv_bind h fun y hy => ?_) _ h0)
      (fun y hy => invalidate_inv (setRec0_inv (returnStorage_inv hy ..) ..) ..)
    have hd := dropPin_inv hy p x.1 x.2
    grind [OptInv, optInv_map, setRef_inv]

theorem refAdd_inv {s : State} (hs : s.Inv) (p fri lvl delta) : OptInv (refAdd s p fri lvl delta) := by
  unfold refAdd
  grind [OptInv, setRef_inv, freeRec_inv]

theorem freeIdle_inv {s : State} (hs : s.Inv) (p) (fri) : (freeIdle s p fri).Inv := by
  unfold freeIdle
  split
  · exact optInv_getD (freeRec_inv p 5 4 fri hs) hs
  · exact hs

theorem freeHeld_inv {s : State} (hs : s.Inv) (p l) : (freeHeld s p l).Inv := by
  unfold freeHeld
  grind [foldl_inv, freeIdle_inv]

theorem freeRecord_inv {s : State} (hs : s.Inv) (p) : (freeRecord s p).2.Inv := hs

theorem copyBytes_inv {s : State} (hs : s.Inv) (dst src n) : (copyBytes s dst src n).Inv :=
  wrMem_inv (hs := hs) ..

theorem copyFrame_inv {s : State} (hs : s.Inv) (dst src) : (copyFrame s dst src).Inv := by
  unfold copyFrame
  grind [State.Inv, copyBytes_inv]

theorem zeroFrame_inv {s : State} (hs : s.Inv) (a feEmpty) : (zeroFrame s a feEmpty).Inv := by
  unfold zeroFrame
  grind [State.Inv, wrMem_inv]

theorem newRecord_inv {s : State} (hs : s.Inv) (p fri kind fmt blk axis ref pins loc w2) : (newRecord s p fri kind fmt
    blk axis ref pins loc w2).Inv := by
  unfold newRecord
  grind [wr64_inv]

theorem takeNode_inv {s : State} (hs : s.Inv) (d p) : OptInv (takeNode s d p) := by
  unfold takeNode
  grind [OptInv, updDp_inv]

theorem newNode_inv {s : State} (hs : s.Inv) (d p) : OptInv (newNode s d p) := by
  unfold newNode
  grind [OptInv, freeRecord_inv, takeNode_inv, newRecord_inv, zeroFrame_inv]

theorem frameInQuota_inv {s : State} (hs : s.Inv) (cl p fri) : OptInv (frameInQuota s cl p fri) := by
  unfold frameInQuota
  grind [OptInv, takeFrame_inv]

theorem queueVictim_inv {s : State} (hs : s.Inv) (cl p) : (queueVictim s cl p).Inv := by
  unfold queueVictim
  grind [updClu_inv]

end Sys2Proof.Machine
end

section
/-! SUPPORT. O4: issue, faults, writes on their way and the accesses of a lane keep the memory form. -/

namespace Sys2Proof.Machine

open Laws

/-! ### The strand that runs -/

theorem putStrand_inv {s : State} (hs : s.Inv) (t) : (putStrand s t).Inv := hs

/-! ### Control registers by number -/

theorem setCpCtl_inv {s : State} (hs : s.Inv) (c p n x) : (setCpCtl s c p n x).Inv := hs

/-! ### Bookings -/

theorem closeBatch_inv {s : State} (hs : s.Inv) (t after) : (closeBatch s t after).2.Inv := hs

/-! ### Images -/

theorem saveImage_inv {s : State} (hs : s.Inv) (t n sw) : (saveImage s t n sw).2.Inv := by
  unfold saveImage
  grind [State.Inv, wrMem_inv, updDp_inv]

/-! ### Continuation records -/

theorem writeCont_inv {s : State} (hs : s.Inv) (c) : (writeCont s c).Inv := by
  unfold writeCont
  grind [wrMem_inv]

theorem addCont_inv {s : State} (hs : s.Inv) (c) : (addCont s c).Inv := by
  unfold addCont
  grind [State.Inv, writeCont_inv]

theorem updCont_inv {s : State} (hs : s.Inv) (task f) : (updCont s task f).Inv := by
  unfold updCont
  grind [State.Inv, writeCont_inv]

/-! ### Taking a fault -/

theorem queueEvent_inv {s : State} (hs : s.Inv) (e) : (queueEvent s e).Inv := hs

theorem whiskOnCause_inv {s : State} (hs : s.Inv) (cl p cause) : (whiskOnCause s cl p cause).Inv := by
  unfold whiskOnCause
  grind [State.Inv]

theorem stopStrand_inv {s : State} (hs : s.Inv) (t e) : (stopStrand s t e).Inv := hs

theorem park_inv {s : State} (hs : s.Inv) (t n ovr sw) : (park s t n ovr sw).2.Inv := by
  unfold park
  grind [State.Inv, saveImage_inv, updCp_inv]

theorem faultNow_inv {s : State} (hs : s.Inv) (t n f) : (faultNow s t n f).Inv := by
  unfold faultNow
  grind [park_inv, freeHeld_inv, whiskOnCause_inv, queueEvent_inv]

theorem takeFaultAt_inv {s : State} (hs : s.Inv) (t n f) : (takeFaultAt s t n f).Inv := by
  unfold takeFaultAt
  grind [State.Inv, closeBatch_inv, faultNow_inv, stopStrand_inv]

theorem takeFault_inv {s : State} (hs : s.Inv) (t f) : (takeFault s t f).Inv :=
  takeFaultAt_inv (hs := hs) ..

theorem raise_inv (i c) {s : State} (hs : s.Inv) (t va) : (raise i c s t va).Inv :=
  takeFault_inv (hs := hs) ..

/-! ### Issue -/

theorem issue_inv (i g off) {on : Strand → State → State} (hon : ∀ y0 y1, y1.Inv → (on y0 y1).Inv) {s : State} (hs :
    s.Inv) : OutInv (issue i g off on s) := by
  unfold issue
  grind [OutInv, raise_inv, putStrand_inv]

theorem issueSup_inv (i g) {on : Strand → State → State} (hon : ∀ y0 y1, y1.Inv → (on y0 y1).Inv) {s : State} (hs :
    s.Inv) : OutInv (issueSup i g on s) := by
  unfold issueSup
  grind [OutInv, raise_inv, putStrand_inv]

theorem laneOp_inv (i g off on) {s : State} (hs : s.Inv) : OutInv (laneOp i g off on s) := by
  unfold laneOp
  grind [OutInv, issue_inv, putStrand_inv]

theorem aluOp_inv (i g lat d x) {s : State} (hs : s.Inv) : OutInv (aluOp i g lat d x s) :=
  laneOp_inv (hs := hs) ..

theorem divOp_inv (i g d x) {s : State} (hs : s.Inv) : OutInv (divOp i g d x s) :=
  laneOp_inv (hs := hs) ..

/-! ### Where a task is -/

theorem updRunning_inv {s : State} (hs : s.Inv) (task f) : (updRunning s task f).Inv := hs

theorem updTask_inv {s : State} (hs : s.Inv) (task pid f) {img : State → ℕ → State} (himg : ∀ y0 y1, y0.Inv → (img y0
    y1).Inv) (c) : (updTask s task pid f img c).Inv := by
  unfold updTask
  grind [State.Inv, updRunning_inv, updCont_inv]

theorem writeReg_inv {s : State} (hs : s.Inv) (task pid r x) : (writeReg s task pid r x).Inv := by
  unfold writeReg
  grind [updTask_inv, wrN_inv]

theorem addCtr_inv {s : State} (hs : s.Inv) (task pid k delta) : (addCtr s task pid k delta).Inv := by
  unfold addCtr
  grind [updTask_inv, wr64_inv]

theorem addFlags_inv {s : State} (hs : s.Inv) (task pid fl) : (addFlags s task pid fl).Inv := by
  unfold addFlags
  grind [updTask_inv, wr64_inv]

theorem fireConts_inv {s : State} (hs : s.Inv) (hit) : (fireConts s hit).Inv := hs

theorem feFill_inv {s : State} (hs : s.Inv) (a) : (feFill s a).Inv := hs

/-! ### Engine operations -/

theorem issueOp_inv {s : State} (hs : s.Inv) (t o) : (issueOp s t o).Inv := hs

theorem engineOp_inv (i g c) (mk : Strand → State → Op) {s : State} (hs : s.Inv) : OutInv (engineOp i g c mk s) := by
  unfold engineOp
  grind [OutInv, issue_inv, raise_inv, issueOp_inv]

theorem chanFreed_inv {s : State} (hs : s.Inv) (l) : (chanFreed s l).Inv := hs

theorem dropColls_inv {s : State} (hs : s.Inv) : (dropColls s).Inv := hs

theorem dropOps_inv {s : State} (hs : s.Inv) (p) : (dropOps s p).Inv := hs

theorem dropOp_inv {s : State} (hs : s.Inv) (id) : (dropOp s id).Inv := hs

theorem updOp_inv {s : State} (hs : s.Inv) (id f) : (updOp s id f).Inv := hs

theorem completeOp_inv {s : State} (hs : s.Inv) (o x) : (completeOp s o x).Inv := by
  unfold completeOp
  grind [writeReg_inv, addCtr_inv, dropOp_inv]

theorem stopOp_inv {s : State} (hs : s.Inv) (o cause unitKind va index) : (stopOp s o cause unitKind va index).Inv :=
  whiskOnCause_inv (hs := queueEvent_inv (hs := updOp_inv (hs := hs) ..) ..) ..

/-! ### The end of a segment -/

theorem gangEnd_inv {s : State} (hs : s.Inv) (t leaves) : (gangEnd s t leaves).Inv := by
  unfold gangEnd
  grind [updCp_inv]

theorem closeSegment_inv {s : State} (hs : s.Inv) (t) : (closeSegment s t).Inv :=
  freeHeld_inv (hs := updCp_inv (hs := closeBatch_inv (hs := hs) ..) ..) ..

theorem endSegment_inv {s : State} (hs : s.Inv) (t) : (endSegment s t).Inv := by
  unfold endSegment
  grind [State.Inv, closeSegment_inv]

theorem dropDead_inv {s : State} (hs : s.Inv) (t) : (dropDead s t).Inv := hs

theorem splitNow_inv {s : State} (hs : s.Inv) (t c) : (splitNow s t c).Inv := by
  unfold splitNow
  grind [addCont_inv, dropDead_inv, closeSegment_inv, gangEnd_inv]

theorem splitWith_inv {s : State} (hs : s.Inv) (t c) : (splitWith s t c).Inv := by
  unfold splitWith
  grind [State.Inv, splitNow_inv, putStrand_inv]

theorem implicitSplit_inv {s : State} (hs : s.Inv) (t event evarg evAddr) : (implicitSplit s t event evarg evAddr).Inv
    := by
  unfold implicitSplit
  grind [State.Inv, splitNow_inv, stopStrand_inv]

/-! ### Egress buffers -/

theorem seeWrites_inv {s : State} (hs : s.Inv) (d a n) : (seeWrites s d a n).Inv := hs

theorem fillWords_inv {s : State} (hs : s.Inv) (a n) : (fillWords s a n).Inv := by
  unfold fillWords
  grind [foldl_inv, feFill_inv]

theorem perform_inv {s : State} (hs : s.Inv) (a bs full) : (perform s a bs full).Inv := by
  unfold perform
  grind [State.Inv, wrMem_inv, fillWords_inv]

theorem drainAt_inv {s : State} (hs : s.Inv) (i) : (drainAt s i).Inv := by
  unfold drainAt
  grind [State.Inv, perform_inv]

theorem drainMarked_inv : ∀ (x1) (x2) {s : State} (_ : s.Inv), (drainMarked x1 x2 s).Inv
  | [], _, _, hs => hs
  | (e, m) :: l, kept, s, hs => by
    unfold drainMarked
    split
    · exact drainMarked_inv l _ (perform_inv hs ..)
    · exact drainMarked_inv l _ hs

theorem drainOut_inv {s : State} (hs : s.Inv) (want) : (drainOut s want).Inv := by
  unfold drainOut
  grind [drainMarked_inv]

theorem applyRepl_inv {s : State} (hs : s.Inv) (w cl) : (applyRepl s w cl).Inv := by
  unfold applyRepl
  grind [perform_inv]

theorem settleRepl_inv {s : State} (hs : s.Inv) (want) : (settleRepl s want).Inv := by
  unfold settleRepl
  grind [foldl_inv, State.Inv, applyRepl_inv]

theorem relDrain_inv {s : State} (hs : s.Inv) (d) : (relDrain s d).Inv :=
  settleRepl_inv (hs := drainOut_inv (hs := hs) ..) ..

theorem settleLeases_inv {s : State} (hs : s.Inv) (cl l) : (settleLeases s cl l).Inv :=
  settleRepl_inv (hs := drainOut_inv (hs := hs) ..) ..

theorem settleWord_inv {s : State} (hs : s.Inv) (d a n) : (settleWord s d a n).Inv :=
  drainOut_inv (hs := hs) ..

theorem putWord_inv {s : State} (hs : s.Inv) (o w) : (putWord s o w).Inv := by
  unfold putWord
  grind [State.Inv, perform_inv]

theorem flushOut_inv {s : State} (hs : s.Inv) (want) : (flushOut s want).Inv := by
  unfold flushOut
  grind [foldl_inv, State.Inv, putWord_inv]

theorem settleFrame_inv {s : State} (hs : s.Inv) (a) : (settleFrame s a).Inv :=
  drainOut_inv (hs := flushOut_inv (hs := hs) ..) ..

/-! ### Completion -/

theorem finishOp_inv {s : State} (hs : s.Inv) (o x) : (finishOp s o x).Inv := by
  unfold finishOp
  grind [completeOp_inv, addFlags_inv]

theorem doneOp_inv {s : State} (hs : s.Inv) (id x) : (doneOp s id x).Inv := by
  unfold doneOp
  grind [updOp_inv, finishOp_inv]

/-! ### Frames that move at once -/

theorem makeLocal_inv {s : State} (hs : s.Inv) (cl p fri) : OptStInv (makeLocal s cl p fri) := by
  unfold makeLocal
  grind [OptStInv, OptInv, frameInQuota_inv, settleFrame_inv, copyFrame_inv, returnStorage_inv, invalidate_inv,
    setLoc_inv]

/-! ### Windows and lines -/

theorem linesDue_inv {s : State} (hs : s.Inv) (ws) : (linesDue s ws).Inv := by
  unfold linesDue
  grind [foldl_inv, wrMem_inv]

theorem putLines_inv (t) {s : State} (hs : s.Inv) (ws) : (putLines t s ws).2.Inv := by
  unfold putLines
  grind [linesDue_inv]

/-! ### Checks -/

theorem correctSoft_inv {s : State} (hs : s.Inv) (a) (n) : (correctSoft s a n).Inv := by
  unfold correctSoft countCe
  dsimp only
  split <;> exact hs

/-! ### Descriptors and payloads read at issue -/

theorem laneRead_inv {s : State} (hs : s.Inv) (t va n) : LaneInv (laneRead s t va n) := by
  unfold laneRead
  grind [foldl_inv, LaneInv, correctSoft_inv]

/-! ### Scalar forms -/

theorem scalarOp_inv (i g acc fr m n) {on : Strand → State → ℕ → State} (hon : ∀ y0 y1 y2, y1.Inv → (on y0 y1 y2).Inv)
    {s : State} (hs : s.Inv) : OutInv (scalarOp i g acc fr m n on s) := by
  unfold scalarOp
  grind [OutInv, issue_inv, raise_inv]

theorem loadOp_inv (i g fr data sz sg m) {s : State} (hs : s.Inv) : OutInv (loadOp i g fr data sz sg m s) := by
  unfold loadOp
  grind [OutInv, scalarOp_inv, putStrand_inv, correctSoft_inv]

theorem relIf_inv (rel t) {s : State} (hs : s.Inv) : (relIf rel t s).Inv := by
  unfold relIf
  grind [relDrain_inv]

theorem storeOp_inv (i g fr data sz rel m) {s : State} (hs : s.Inv) : OutInv (storeOp i g fr data sz rel m s) := by
  unfold storeOp
  grind [OutInv, scalarOp_inv, putStrand_inv, wrN_inv, relIf_inv]

theorem execLdf_inv (g data m) {s : State} (hs : s.Inv) : OutInv (execLdf g data m s) := by
  unfold execLdf
  grind [OutInv, scalarOp_inv, feSet_inv, correctSoft_inv, putStrand_inv, implicitSplit_inv]

theorem execStf_inv (g data m) {s : State} (hs : s.Inv) : OutInv (execStf g data m s) := by
  unfold execStf
  grind [OutInv, scalarOp_inv, putStrand_inv, feFill_inv, wr64_inv, relIf_inv]

theorem execClrf_inv (g f m) {s : State} (hs : s.Inv) : OutInv (execClrf g f m s) := by
  unfold execClrf
  grind [OutInv, scalarOp_inv, putStrand_inv, feFill_inv, feSet_inv]

theorem execFeq_inv (g data m) {s : State} (hs : s.Inv) : OutInv (execFeq g data m s) := by
  unfold execFeq
  grind [OutInv, scalarOp_inv, putStrand_inv]

/-! ### Vector forms -/

theorem vectorOp_inv (i g acc fr vas n sz) {on : Strand → State → List ℕ → State} (hon : ∀ y0 y1 y2, y1.Inv → (on y0
    y1 y2).Inv) {s : State} (hs : s.Inv) : OutInv (vectorOp i g acc fr vas n sz on s) := by
  unfold vectorOp
  grind [OutInv, issue_inv, raise_inv]

theorem vecLoad_inv (i g data w sz vas) {s : State} (hs : s.Inv) : OutInv (vecLoad i g data w sz vas s) := by
  unfold vecLoad
  grind [foldl_inv, OutInv, vectorOp_inv, putStrand_inv, correctSoft_inv]

theorem vecStore_inv (i g data w sz rel vas) {s : State} (hs : s.Inv) : OutInv (vecStore i g data w sz rel vas s) :=
    by
  unfold vecStore
  grind [OutInv, vectorOp_inv, putLines_inv, relIf_inv, putStrand_inv]

theorem execVld_inv (g data o m) {s : State} (hs : s.Inv) : OutInv (execVld g data o m s) := by
  unfold execVld
  grind [OutInv, scalarOp_inv, putStrand_inv, correctSoft_inv]

theorem execVst_inv (g data o m) {s : State} (hs : s.Inv) : OutInv (execVst g data o m s) := by
  unfold execVst
  grind [OutInv, scalarOp_inv, putStrand_inv, wrN_inv, relIf_inv]

end Sys2Proof.Machine
end

section
/-! SUPPORT. O4: the walker, the copy engine, attention, segments, queues and domains keep the memory form. -/

namespace Sys2Proof.Machine

open Laws

/-! ### Issue -/

theorem pageOp_inv (i g k d c args) {s : State} (hs : s.Inv) : OutInv (pageOp i g k d c args s) :=
  engineOp_inv (hs := hs) ..

theorem supPageOp_inv (i g k d c args) {s : State} (hs : s.Inv) : OutInv (supPageOp i g k d c args s) := by
  unfold supPageOp
  grind [OutInv, issueSup_inv, raise_inv, issueOp_inv]

theorem execPgset_inv (g d a b c sel) {s : State} (hs : s.Inv) : OutInv (execPgset g d a b c sel s) := by
  unfold execPgset
  grind [OutInv, pageOp_inv, supPageOp_inv]

/-! ### The walker -/

theorem wErr_inv (code) {s : State} (hs : s.Inv) : WalkInv (wErr code s) := .done _ hs

theorem setPte_inv {s : State} (hs : s.Inv) (p l w0 w1) : (setPte s p l w0 w1).Inv :=
  invalidate_inv (hs := wr64_inv (hs := wr64_inv (hs := hs) ..) ..) ..

theorem ensurePath_inv {s : State} (hs : s.Inv) (cl p root vpn) : OptInv (ensurePath s cl p root vpn) := by
  unfold ensurePath
  grind [OptInv, newNode_inv, wr64_inv]

theorem putLeaf_inv {s : State} (hs : s.Inv) (a attr fri w1) : (putLeaf s a attr fri w1).Inv :=
  wr64_inv (hs := wr64_inv (hs := hs) ..) ..

theorem mapRec_inv {s : State} (hs : s.Inv) (cl p root vpn fri attr w1) : WalkInv (mapRec s cl p root vpn fri attr w1)
    := by
  unfold mapRec
  grind [WalkInv, OptInv, ensurePath_inv, wErr_inv, refAdd_inv, invalidate_inv, putLeaf_inv]

theorem doAlloc_inv {s : State} (hs : s.Inv) (cl p root vpn b x) : WalkInv (doAlloc s cl p root vpn b x) := by
  unfold doAlloc
  grind [WalkInv, OptInv, wErr_inv, freeRecord_inv, frameInQuota_inv, newRecord_inv, ensurePath_inv, zeroFrame_inv,
    putLeaf_inv]

theorem doSet_inv {s : State} (hs : s.Inv) (p l b sel) : WalkInv (doSet s p l b sel) := by
  unfold doSet
  grind [WalkInv, wErr_inv, setRec0_inv, invalidate_inv, wr64_inv, setPte_inv]

theorem doGet_inv {s : State} (hs : s.Inv) (p root vpn sel x) : WalkInv (doGet s p root vpn sel x) := by
  unfold doGet
  grind [WalkInv, wErr_inv]

theorem fillFor_inv {s : State} (hs : s.Inv) (cl p fri) : FillInv (fillFor s cl p fri) := by
  unfold fillFor
  grind [FillInv, WalkInv, OptStInv, wErr_inv, makeLocal_inv]

theorem doPin_inv {s : State} (hs : s.Inv) (cl p x) : WalkInv (doPin s cl p x) := by
  unfold doPin
  grind [WalkInv, FillInv, wErr_inv, fillFor_inv, setPte_inv, setPins_inv, updClu_inv]

theorem doUnpin_inv {s : State} (hs : s.Inv) (p x) : WalkInv (doUnpin s p x) := by
  unfold doUnpin
  grind [WalkInv, wErr_inv, setPte_inv, setPins_inv]

theorem doSpill_inv {s : State} (hs : s.Inv) (o x) : WalkInv (doSpill s o x) := by
  unfold doSpill
  grind [WalkInv, wErr_inv, putClu_inv, updOp_inv]

theorem unmapLeaf_inv {s : State} (hs : s.Inv) (p l) : WalkInv (unmapLeaf s p l) := by
  unfold unmapLeaf
  grind [WalkInv, OptInv, setPte_inv, setPins_inv, refAdd_inv]

theorem doPage_inv {s : State} (hs : s.Inv) (o) : WalkInv (doPage s o) := by
  unfold doPage
  grind [WalkInv, OptInv, FillInv, leafAt_inv, doAlloc_inv, wErr_inv, refAdd_inv, mapRec_inv, setPte_inv, doSet_inv,
    doGet_inv, doPin_inv, doUnpin_inv, doSpill_inv, fillFor_inv, unmapLeaf_inv]

/-! ### Issue -/

theorem raiseBooking_inv (i) {s : State} (hs : s.Inv) (t res) : (raiseBooking i s t res).Inv :=
  takeFault_inv (hs := hs) ..

theorem dataForm_inv (i g ch c bad) (mk : Strand → State → Op) {s : State} (hs : s.Inv) : OutInv (dataForm i g ch c
    bad mk s) := by
  unfold dataForm
  grind [OutInv, issue_inv, raiseBooking_inv, raise_inv, implicitSplit_inv, updClu_inv, issueOp_inv, relIf_inv]

theorem execWaitc_inv (g c n) {s : State} (hs : s.Inv) : OutInv (execWaitc g c n s) := by
  unfold execWaitc
  grind [OutInv, issue_inv, putStrand_inv, implicitSplit_inv]

/-! ### Units -/

theorem viewHome_inv {s : State} (hs : s.Inv) (cl p) : (viewHome s cl p).Inv :=
  settleRepl_inv (hs := hs) ..

theorem engAddr_inv {s : State} (hs : s.Inv) (o va write) : (engAddr s o va write).2.Inv := by
  unfold engAddr
  grind [xlate_inv, viewHome_inv]

theorem engAddr_step {s : State} (hs : s.Inv) {o va wr c s'} (h : engAddr s o va wr = (c, s')) : s'.Inv := by
  have := engAddr_inv hs o va wr
  rwa [h] at this

theorem engWrite_inv {s : State} (hs : s.Inv) (o x a bs f) : (engWrite s o x a bs f).Inv :=
  putWord_inv (hs := hs) ..

theorem outWord_inv {s : State} (hs : s.Inv) (o w) : UnitInv (outWord s o w) := by
  unfold outWord
  grind [UnitInv, updOp_inv, putWord_inv]

theorem copyWord_inv {s : State} (hs : s.Inv) (o dst src f index) {next : State → UnitRes} (hnext : ∀ y0, y0.Inv →
    UnitInv (next y0)) : UnitInv (copyWord s o dst src f index next) := by
  unfold copyWord
  grind [UnitInv, engAddr_inv, engWrite_inv, seeWrites_inv, correctSoft_inv]

theorem setIdx_inv {s : State} (hs : s.Inv) (o i j) : (setIdx s o i j).Inv := hs

theorem unitCpy_inv {s : State} (hs : s.Inv) (o) : UnitInv (unitCpy s o) := by
  unfold unitCpy
  grind [UnitInv, copyWord_inv, setIdx_inv]

theorem unitCpy2d_inv {s : State} (hs : s.Inv) (o) : UnitInv (unitCpy2d s o) := by
  unfold unitCpy2d
  grind [UnitInv, copyWord_inv, setIdx_inv]

theorem unitTable_inv {s : State} (hs : s.Inv) (o) (scatter) : UnitInv (unitTable s o scatter) := by
  unfold unitTable
  extract_lets sh n e table block index after y go tv
  split
  · exact .last _ hs
  have ha : ∀ (s : State), s.Inv → UnitInv (after s) := by
    intro s h
    unfold after
    split
    · exact .more (updOp_inv h ..)
    · exact .last _ h
  have hg : ∀ (s : State) te, s.Inv → UnitInv (go s te) := by
    intro s te h
    unfold go
    split
    · exact ha s h
    split
    · exact .stop _ _ _ h
    refine copyWord_inv h _ _ _ _ _ (fun s h => ?_)
    split
    · exact .more (updOp_inv h ..)
    · exact ha s h
  clear_value go
  split
  · exact hg _ _ hs
  have he := engAddr_inv hs o tv false
  grind [UnitInv, seeWrites_inv, correctSoft_inv]

theorem unitFld_inv {s : State} (hs : s.Inv) (o) : UnitInv (unitFld s o) := by
  unfold unitFld
  grind [UnitInv, engAddr_inv, seeWrites_inv, correctSoft_inv]

theorem unitFst_inv {s : State} (hs : s.Inv) (o) : UnitInv (unitFst s o) := by
  unfold unitFst
  grind [UnitInv, outWord_inv, engAddr_inv, engWrite_inv, updOp_inv]

theorem applyUnit_inv (o unitKind) {x} (hx : UnitInv (x)) : (applyUnit o unitKind x).Inv := by
  unfold applyUnit
  grind [UnitInv, doneOp_inv, stopOp_inv]

theorem vecOp_inv (i g lat w d k z f) {s : State} (hs : s.Inv) : OutInv (vecOp i g lat w d k z f s) :=
  laneOp_inv (hs := hs) ..

theorem vecDivOp_inv (i g w d k z f) {s : State} (hs : s.Inv) : OutInv (vecDivOp i g w d k z f s) :=
  laneOp_inv (hs := hs) ..

theorem vecFp2_inv (i g lat d a b t rm k z gb op) {s : State} (hs : s.Inv) : OutInv (vecFp2 i g lat d a b t rm k z gb
    op s) :=
  vecOp_inv (hs := hs) ..

theorem vecFma_inv (i g d a b c t rm k z gb negP negC) {s : State} (hs : s.Inv) : OutInv (vecFma i g d a b c t rm k z
    gb negP negC s) :=
  vecOp_inv (hs := hs) ..

theorem vecFp1_inv (i g lat d a t rm k z op) {s : State} (hs : s.Inv) : OutInv (vecFp1 i g lat d a t rm k z op s) :=
  vecOp_inv (hs := hs) ..

theorem vecInt2_inv (i g lat d a b t k z gb op) {s : State} (hs : s.Inv) : OutInv (vecInt2 i g lat d a b t k z gb op
    s) :=
  vecOp_inv (hs := hs) ..

/-! ### VLDB -/

theorem execVldb_inv (g data base gl mode disp) {s : State} (hs : s.Inv) : OutInv (execVldb g data base gl mode disp
    s) := by
  unfold execVldb
  grind [foldl_inv, OutInv, issue_inv, raise_inv, correctSoft_inv, putStrand_inv]

/-! ### Reads and writes of engines by virtual address -/

theorem engPieces_inv (o write) : ∀ (k : Nat) {s : State} (_ : s.Inv) (va n), (engPieces s o write k va n).2.Inv
  | 0, _, hs, _, _ => hs
  | k + 1, s, hs, va, n => by
    have ih := @engPieces_inv o write k
    unfold engPieces
    grind [engAddr_inv]

theorem engPieces_step {s : State} (hs : s.Inv) {o wr k va n c s'} (h : engPieces s o wr k va n = (c, s')) : s'.Inv :=
    by
  have := engPieces_inv o wr k hs va n
  rwa [h] at this

theorem engFetch_inv {s : State} (hs : s.Inv) (o va n) : (engFetch s o va n).2.Inv := by
  unfold engFetch
  grind [foldl_inv, engPieces_inv, seeWrites_inv, correctSoft_inv]

theorem engFetch_step {s : State} (hs : s.Inv) {o va n c s'} (h : engFetch s o va n = (c, s')) : s'.Inv := by
  have := engFetch_inv hs o va n
  rwa [h] at this

/-! ### KVAPP -/

theorem execKvapp_inv (g) (ch) (sc) (d) (a) (c) {s : State} (hs : s.Inv) : OutInv (execKvapp g ch sc d a c s) := by
  refine issue_inv _ _ _ (fun t s hs => ?_) hs
  dsimp only
  have hr : ∀ i c va, (raise i c s t va).Inv := fun i c va => raise_inv i c hs t va
  split
  · exact raiseBooking_inv _ hs ..
  split
  · exact hr ..
  split
  · exact hr ..
  split
  · exact hr ..
  next r he =>
    have h1 := (laneRead_inv hs ..).ok he
    split
    · exact hr ..
    split
    · exact hr ..
    split
    · exact hr ..
    · exact hr ..
    · exact hr ..
    split
    · exact implicitSplit_inv h1 ..
    · exact issueOp_inv (updClu_inv h1 ..) ..

theorem kvRead_inv (o src page) : ∀ (l) {s : State} (_ : s.Inv), (kvRead o src page l s).2.Inv
  | [], _, hs => hs
  | (a, b, n) :: l, s, hs => by
    have ih := @kvRead_inv o src page l
    have ha := engFetch_inv hs o (src + a) n
    unfold kvRead
    grind

theorem setFill_inv {s : State} (hs : s.Inv) (p root va n) : (setFill s p root va n).Inv := by
  unfold setFill
  grind [setPte_inv]

theorem unitKvapp_inv {s : State} (hs : s.Inv) (o) : UnitInv (unitKvapp s o) := by
  unfold unitKvapp
  extract_lets kp vp n ix j0 bs rows
  split
  · exact outWord_inv hs ..
  split
  · exact .hold hs
  split
  · split
    · exact .hold hs
    have h1 := engAddr_inv hs o kp false
    generalize engAddr s o kp false = y at h1 ⊢
    obtain ⟨c | ⟨a, k⟩, s1⟩ := y
    · exact .stop _ _ _ h1
    dsimp only at h1 ⊢
    have h2 := engAddr_inv h1 o vp false
    generalize engAddr s1 o vp false = y at h2 ⊢
    obtain ⟨c | ⟨a', v⟩, s2⟩ := y
    · exact .stop _ _ _ h2
    dsimp only at h2 ⊢
    split
    · exact .last _ h2
    have h3 := engFetch_inv h2 o (rotVa (cpCtl s2 o.cl o.pid 0x1B0) (pteHgrp k.pte1)) 1024
    generalize engFetch s2 o _ 1024 = y at h3 ⊢
    obtain ⟨c | bs, s3⟩ := y
    · exact .stop _ _ _ h3
    dsimp only at h3 ⊢
    split
    · exact .last _ h3
    split
    · exact .last _ h3
    · exact .more (updOp_inv h3 ..)
  · split
    · exact .last _ (setFill_inv (setFill_inv hs ..) ..)
    have h1 := engAddr_inv hs o kp true
    generalize engAddr s o kp true = y at h1 ⊢
    obtain ⟨c | ⟨a, k⟩, s1⟩ := y
    · exact .stop _ _ _ h1
    dsimp only at h1 ⊢
    have h2 := engAddr_inv h1 o vp true
    generalize engAddr s1 o vp true = y at h2 ⊢
    obtain ⟨c | ⟨a', v⟩, s2⟩ := y
    · exact .stop _ _ _ h2
    dsimp only at h2 ⊢
    have h3 := kvRead_inv o (va48 (o.args.getD 2 0)) a (kvChunks bs (contW (recFmt s2 o.pid k.fri)) o.i (j0 + o.i)) h2
    generalize kvRead o (va48 (o.args.getD 2 0)) a _ s2 = y at h3 ⊢
    obtain ⟨c | kw, s3⟩ := y
    · exact .stop _ _ _ h3
    dsimp only at h3 ⊢
    have h4 := kvRead_inv o (va48 (o.args.getD 3 0)) a' (kvChunks bs (contW (recFmt s2 o.pid v.fri)) o.i (j0 + o.i)) h3
    generalize kvRead o (va48 (o.args.getD 3 0)) a' _ s3 = y at h4 ⊢
    obtain ⟨c | vw, s4⟩ := y
    · exact .stop _ _ _ h4
    dsimp only at h4 ⊢
    split
    · exact .hold h4
    · exact .more (updOp_inv h4 ..)

theorem execKvappToken_inv {s : State} (hs : s.Inv) : OutInv (execKvappToken s) := by
  unfold execKvappToken
  grind [OutInv, applyUnit_inv, unitKvapp_inv]

/-! ### KVSPLICE, KVTRIM, RAMPSET -/

theorem doRampset_inv {s : State} (hs : s.Inv) (o) : WalkInv (doRampset s o) := by
  unfold doRampset
  grind [State.Inv, WalkInv, wErr_inv, wrN_inv, updOp_inv]

theorem doKv_inv {s : State} (hs : s.Inv) (o) : WalkInv (doKv s o) := by
  have hw := fun k => wErr_inv k hs
  unfold doKv
  split
  · dsimp only
    split
    · exact hw 4
    split
    · exact hw 6
    split
    · exact hw 5
    next l _ =>
    have hm := mapRec_inv hs o.cl o.pid o.root (va48 (o.args.getD 0 0) / 32768) l.fri (pteAttr l.pte0 ||| 8)
        (spliceWord (o.args.getD 2 0) l.pte1)
    generalize mapRec s o.cl o.pid o.root _ _ _ _ = r at hm ⊢
    cases r with
    | done x s' => 
      unfold WalkInv at hm
      dsimp only
      split
      · exact .done _ hm
      · exact .done _ (setPte_inv hm ..)
    | stop _ _ => exact hm
    | wait _ => exact hm
  · dsimp only
    split
    · exact hw 4
    split
    · exact hw 5
    split
    · exact .done _ hs
    · exact .done _ (setPte_inv hs ..)
  · dsimp only
    split
    · exact hw 4
    split
    · exact hw 5
    split
    · exact .done _ hs
    · exact .done _ (setPte_inv hs ..)
  · exact doRampset_inv hs ..

theorem execRampsetComplete_inv {s : State} (hs : s.Inv) : OutInv (execRampsetComplete s) := by
  unfold execRampsetComplete
  grind [OutInv, doneOp_inv]

/-! ### ATTD -/

theorem execAttd_inv (g sc a c) {s : State} (hs : s.Inv) : OutInv (execAttd g sc a c s) := by
  unfold execAttd
  grind [OutInv, LaneInv, issue_inv, raise_inv, laneRead_inv, issueOp_inv]

theorem bduRecord_inv {s : State} (hs : s.Inv) (o u rot g) : (bduRecord s o u rot g).2.Inv := by
  unfold bduRecord
  grind [State.Inv, engFetch_inv]

theorem bdu_step {s : State} (hs : s.Inv) {o u rot g c s'} {e : Cause × ℕ}
    (h : (if rotEn rot then bduRecord s o u rot g else (.error e, s)) = (c, s')) : s'.Inv := by
  split at h
  · have := bduRecord_inv hs o u rot g
    rwa [h] at this
  · cases h
    exact hs

theorem dieView_inv {s : State} (hs : s.Inv) (d) : (dieView s d).Inv := ⟨wf_foldl_wrBytes _ hs.1, hs.2⟩

theorem attdCheck_inv {s : State} (hs : s.Inv) (o stk i) : (attdCheck s o stk i).2.Inv := by
  unfold attdCheck
  dsimp only
  split
  next he =>
    have h1 := engFetch_step hs he
    split
    next hq => exact engPieces_step h1 hq
    next hq =>
    have h2 := engPieces_step h1 hq
    split
    next hw => exact engPieces_step h2 hw
    next hw =>
    have h3 := engPieces_step h2 hw
    split
    next hx => exact engPieces_step h3 hx
    next hx => exact engPieces_step h3 hx
  next he => exact engFetch_step hs he
  next s1 _ he =>
  have h1 := engFetch_step hs he
  split
  next hk => exact engAddr_step h1 hk
  next hk =>
  have h2 := engAddr_step h1 hk
  split
  next hv => exact engAddr_step h2 hv
  next hv =>
  have h3 := fun f => updOp_inv (engAddr_step h2 hv) o.id f
  split
  next hr => exact bdu_step (h3 _) hr
  next hr =>
  have h4 := bdu_step (h3 _) hr
  split
  next hq => exact engPieces_step h4 hq
  next hq =>
  have h5 := engPieces_step h4 hq
  split
  next hq => exact engPieces_step h5 hq
  next hq =>
  have h6 := engPieces_step h5 hq
  refine ite_snd_inv h6 (ite_snd_inv h6 (ite_snd_inv h6 (ite_snd_inv h6 ?_)))
  split
  next hq => exact engPieces_step h6 hq
  next hq =>
  have h7 := engPieces_step h6 hq
  have area : ∀ (s : State) (x : PageView) c s', s.Inv → (if x.blk = 0 then (Except.ok 0, s)
      else match engAddr s o x.scaleVa false with
        | (.error c, s) => (.error (c, x.scaleVa), s)
        | (.ok (a, e), s) =>
          if x.scaleOk (recFmt s o.pid e.fri) then (.ok a, s) else (.error (Cause.format, x.scaleVa), s)) = (c, s') →
              s'.Inv := by
    intro s x c s' h he
    grind [engAddr_step]
  clear hq hr hk hv he
  split
  · split
    · exact h7
    split
    · exact h7
    · exact h7
  split
  · exact h7
  split
  · exact h7
  split
  next ha => exact area _ _ _ _ h7 ha
  next ha =>
  have h8 := area _ _ _ _ h7 ha
  split
  next hb => exact area _ _ _ _ h8 hb
  next hb => exact area _ _ _ _ h8 hb

theorem attdPage_inv {s : State} (hs : s.Inv) (o) {stop : Cause × ℕ → State → UnitRes} (hstop : ∀ y0 y1, y1.Inv →
    UnitInv (stop y0 y1)) {keep : State → ℕ → Triple → FpFlags → UnitRes} (hkeep : ∀ y0 y1 y2 y3, y0.Inv → UnitInv
    (keep y0 y1 y2 y3)) : UnitInv (attdPage s o stop keep) := by
  unfold attdPage
  grind [foldl_inv, UnitInv, attdCheck_inv, dieView_inv, correctSoft_inv]

theorem unitAttd_inv {s : State} (hs : s.Inv) (o) : UnitInv (unitAttd s o) := by
  unfold unitAttd
  grind [UnitInv, updOp_inv, engPieces_inv, outWord_inv, engFetch_inv, attdCheck_inv, attdPage_inv]

theorem execAttdPage_inv {s : State} (hs : s.Inv) : OutInv (execAttdPage s) := by
  unfold execAttdPage
  grind [OutInv, applyUnit_inv, unitAttd_inv]

/-! ### Queues -/

theorem markHeads_inv {s : State} (hs : s.Inv) (cl p) : (markHeads s cl p).Inv := hs

theorem appendEntry_inv {s : State} (hs : s.Inv) (cl p q e clamp) : (appendEntry s cl p q e clamp).Inv := hs

theorem arrive_inv {s : State} (hs : s.Inv) (cl k) : (arrive s cl k).Inv := hs

theorem descWords_inv {s : State} (hs : s.Inv) (t va n al) : LaneInv (descWords s t va n al) := by
  unfold descWords
  grind [LaneInv, laneRead_inv]

/-! ### The end of a task -/

theorem updBatch_inv {s : State} (hs : s.Inv) (d p num f) : (updBatch s d p num f).Inv := hs

theorem taskEnd_inv {s : State} (hs : s.Inv) (cl k) : (taskEnd s cl k).Inv := by
  unfold taskEnd
  grind [State.Inv, updDp_inv, updBatch_inv]

/-! ### Major 0x06 -/

theorem execSegend_inv (g a) {s : State} (hs : s.Inv) : OutInv (execSegend g a s) := by
  unfold execSegend
  grind [OutInv, issue_inv, raise_inv, splitWith_inv]

theorem execSplit_inv (g roam a) {s : State} (hs : s.Inv) : OutInv (execSplit g roam a s) := by
  unfold execSplit
  grind [OutInv, issue_inv, raise_inv, splitWith_inv]

theorem execExit_inv (g) {s : State} (hs : s.Inv) : OutInv (execExit g s) := by
  unfold execExit
  grind [OutInv, issue_inv, taskEnd_inv, endSegment_inv, gangEnd_inv, putStrand_inv]

theorem execYield_inv (g a) {s : State} (hs : s.Inv) : OutInv (execYield g a s) := by
  unfold execYield
  grind [OutInv, issue_inv, splitWith_inv]

/-! ### Major 0x0E -/

theorem calRequest_inv {s : State} (hs : s.Inv) (t kind d word res own phys rel) : (calRequest s t kind d word res own
    phys rel).Inv := hs

theorem execBook_inv (g rel d a) {s : State} (hs : s.Inv) : OutInv (execBook g rel d a s) := by
  unfold execBook
  grind [OutInv, issue_inv, calRequest_inv]

theorem execCalrel_inv (g rel d a) {s : State} (hs : s.Inv) : OutInv (execCalrel g rel d a s) := by
  unfold execCalrel
  grind [OutInv, issue_inv, calRequest_inv]

theorem execCalq_inv (g own rel d a res) {s : State} (hs : s.Inv) : OutInv (execCalq g own rel d a res s) := by
  unfold execCalq
  grind [OutInv, issue_inv, calRequest_inv]

theorem execGang_inv (g a q) {s : State} (hs : s.Inv) : OutInv (execGang g a q s) := by
  unfold execGang
  grind [State.Inv, OutInv, LaneInv, issue_inv, descWords_inv, raise_inv, arrive_inv, putStrand_inv, appendEntry_inv]

theorem appendTask_inv {s : State} (hs : s.Inv) (cl p q ws) : (appendTask s cl p q ws).Inv := hs

theorem execLaunch_inv (g d a b c) {s : State} (hs : s.Inv) : OutInv (execLaunch g d a b c s) := by
  unfold execLaunch
  grind [OutInv, LaneInv, issue_inv, raise_inv, descWords_inv, updCp_inv, relIf_inv, issueOp_inv]

theorem execQpush_inv (g a q) {s : State} (hs : s.Inv) : OutInv (execQpush g a q s) := by
  unfold execQpush
  grind [OutInv, LaneInv, issue_inv, descWords_inv, raise_inv, appendTask_inv, arrive_inv, putStrand_inv]

theorem execQcfg_inv (g w d a q) {s : State} (hs : s.Inv) : OutInv (execQcfg g w d a q s) := by
  unfold execQcfg
  grind [OutInv, issueSup_inv, raise_inv, putStrand_inv, updCp_inv]

theorem execPipebind_inv (g u d a) {s : State} (hs : s.Inv) : OutInv (execPipebind g u d a s) := by
  unfold execPipebind
  grind [OutInv, LaneInv, issue_inv, descWords_inv, raise_inv, calRequest_inv]

/-! ### Atomics -/

theorem localAtomic_inv (i k data n o va t) {s : State} (hs : s.Inv) : (localAtomic i k data n o va t s).Inv := by
  unfold localAtomic
  grind [raise_inv, correctSoft_inv, relIf_inv, wrN_inv, putStrand_inv]

theorem atomOp_inv (i k g data base ctr sz o disp) {s : State} (hs : s.Inv) : OutInv (atomOp i k g data base ctr sz o
    disp s) := by
  unfold atomOp
  grind [OutInv, issue_inv, localAtomic_inv, raise_inv, issueOp_inv, relIf_inv]

theorem homeWrite_inv {s : State} (hs : s.Inv) (o e a bs) : (homeWrite s o e a bs).Inv := by
  unfold homeWrite
  grind [State.Inv, perform_inv]

theorem doAtomic_inv {s : State} (hs : s.Inv) (o refused) : (doAtomic s o refused).Inv := by
  unfold doAtomic
  grind [doneOp_inv, engAddr_inv, stopOp_inv, viewHome_inv, correctSoft_inv, settleWord_inv, homeWrite_inv, updOp_inv]

theorem execFarAtomicPerform_inv {s : State} (hs : s.Inv) : OutInv (execFarAtomicPerform s) := by
  unfold execFarAtomicPerform
  grind [OutInv, doAtomic_inv]

theorem execCompletionTimeout_inv {s : State} (hs : s.Inv) : OutInv (execCompletionTimeout s) := by
  unfold execCompletionTimeout
  grind [OutInv, engAddr_inv, freePick_inv, settleWord_inv, wrN_inv, stopOp_inv, updOp_inv]

/-! ### Fences -/

theorem execFence_inv (g kind scope) {s : State} (hs : s.Inv) : OutInv (execFence g kind scope s) := by
  unfold execFence
  grind [OutInv, issue_inv, putStrand_inv]

/-! ### Domains -/

theorem putDom_inv {s : State} (hs : s.Inv) (p sel inst d) : (putDom s p sel inst d).Inv := by
  unfold putDom
  grind [State.Inv, updCp_inv, updDp_inv]

theorem fireDomain_inv {s : State} (hs : s.Inv) (p sel cl) : (fireDomain s p sel cl).Inv := hs

theorem tellMembers_inv (p sel inst w) {s : State} (hs : s.Inv) (gen) : (tellMembers p sel inst w s gen).Inv := by
  unfold tellMembers
  grind [State.Inv, fireDomain_inv]

theorem domComplete_inv {s : State} (hs : s.Inv) (p sel inst) : (domComplete s p sel inst).Inv := by
  unfold domComplete
  grind [foldl_inv, tellMembers_inv, putDom_inv]

theorem domArrive_inv {s : State} (hs : s.Inv) (p sel inst phase) : (domArrive s p sel inst phase).Inv := by
  unfold domArrive
  grind [foldl_inv, tellMembers_inv, putDom_inv]

theorem barOp_inv (i phase g d a) {s : State} (hs : s.Inv) : OutInv (barOp i phase g d a s) := by
  unfold barOp
  grind [State.Inv, OutInv, issue_inv, putStrand_inv, raise_inv, settleRepl_inv, relDrain_inv, domArrive_inv,
    implicitSplit_inv]

theorem doDomain_inv {s : State} (hs : s.Inv) (o) : (doDomain s o).Inv := by
  unfold doDomain
  grind [doneOp_inv, putDom_inv]

theorem execDomainRequestAtHome_inv {s : State} (hs : s.Inv) : OutInv (execDomainRequestAtHome s) := by
  unfold execDomainRequestAtHome
  grind [OutInv, doDomain_inv]

theorem execDomainArrival_inv {s : State} (hs : s.Inv) : OutInv (execDomainArrival s) := by
  unfold execDomainArrival
  grind [State.Inv, OutInv, domArrive_inv]

theorem execDomainCompletion_inv {s : State} (hs : s.Inv) : OutInv (execDomainCompletion s) := by
  unfold execDomainCompletion
  grind [State.Inv, OutInv, fireDomain_inv]

theorem sweepEnd_inv {s : State} (hs : s.Inv) (p sel inst d) : (sweepEnd s p sel inst d).Inv := by
  unfold sweepEnd
  grind [domComplete_inv, putDom_inv]

theorem execPhaseSweep_inv {s : State} (hs : s.Inv) : OutInv (execPhaseSweep s) := by
  unfold execPhaseSweep OutInv
  dsimp only
  repeat' split
  all_goals grind [sweepEnd_inv, putDom_inv]

/-! ### Replicated pages -/

theorem execReplWriteSequence_inv {s : State} (hs : s.Inv) : OutInv (execReplWriteSequence s) := by
  unfold execReplWriteSequence
  grind [State.Inv, OutInv, finishOp_inv, perform_inv, applyRepl_inv]

end Sys2Proof.Machine
end

section
/-! SUPPORT. O4: messages, collectives, streams and generation keep the memory form. -/

namespace Sys2Proof.Machine

open Laws

/-! ### MSEND -/

theorem execMsend_inv (g sc d a b c) {s : State} (hs : s.Inv) : OutInv (execMsend g sc d a b c s) := by
  unfold execMsend
  grind [OutInv, LaneInv, issue_inv, raiseBooking_inv, raise_inv, laneRead_inv, updCp_inv, relDrain_inv, issueOp_inv]

theorem deliverMsg_inv {s : State} (hs : s.Inv) (cl p m) : (deliverMsg s cl p m).2.Inv := by
  unfold deliverMsg
  grind [updCp_inv, fireConts_inv]

theorem arriveOp_inv {s : State} (hs : s.Inv) (o) : (arriveOp s o).Inv := hs

theorem dropPacket_inv {s : State} (hs : s.Inv) : (dropPacket s).Inv := hs

theorem execMsendDelivery_inv {s : State} (hs : s.Inv) : OutInv (execMsendDelivery s) := by
  unfold execMsendDelivery
  grind [OutInv, deliverMsg_inv, arrive_inv, dropPacket_inv, doneOp_inv, arriveOp_inv]

/-! ### MRECV -/

theorem receive_inv {s : State} (hs : s.Inv) (t va bs d x) : (receive s t va bs d x).Inv := by
  unfold receive
  grind [putLines_inv, putStrand_inv]

theorem execMrecv_inv (g tg d a b) {s : State} (hs : s.Inv) : OutInv (execMrecv g tg d a b s) := by
  unfold execMrecv
  grind [OutInv, issue_inv, raise_inv, implicitSplit_inv, updCp_inv, receive_inv]

/-! ### COLL -/

theorem putColl_inv {s : State} (hs : s.Inv) (c) : (putColl s c).Inv := hs

theorem joinColl_inv {s : State} (hs : s.Inv) (cl p sel inst id task) : (joinColl s cl p sel inst id task).Inv := by
  unfold joinColl
  grind [State.Inv, updCp_inv, putColl_inv, doneOp_inv]

theorem execColl_inv (g d a c) {s : State} (hs : s.Inv) : OutInv (execColl g d a c s) := by
  unfold execColl
  grind [OutInv, LaneInv, issue_inv, raise_inv, laneRead_inv, joinColl_inv, issueOp_inv]

/-! ### Running a collective -/

theorem ringFlags_inv {s : State} (hs : s.Inv) (c w f) : (ringFlags s c w f).Inv := by
  unfold ringFlags
  grind [foldl_inv, updOp_inv, addFlags_inv]

theorem hopElem_inv {s : State} (hs : s.Inv) (c wi w o a e) : (hopElem s c wi w o a e).Inv := by
  unfold hopElem
  grind [UnitInv, putColl_inv, engAddr_inv, applyUnit_inv, engWrite_inv, seeWrites_inv, correctSoft_inv,
    ringFlags_inv]

theorem hopFar_inv {s : State} (hs : s.Inv) (c wi w a e) : (hopFar s c wi w a e).Inv := by
  unfold hopFar
  grind [dropColls_inv, putColl_inv, ringFlags_inv]

theorem cancelWith_inv {s : State} (hs : s.Inv) (c id) : (cancelWith s c id).Inv := by
  unfold cancelWith
  grind [foldl_inv, putColl_inv, doneOp_inv, dropColls_inv]

theorem cancelColl_inv {s : State} (hs : s.Inv) (id) : (cancelColl s id).Inv := by
  unfold cancelColl
  grind [cancelWith_inv]

theorem execCollHop_inv {s : State} (hs : s.Inv) : OutInv (execCollHop s) := by
  unfold execCollHop
  refine .next ?_
  split
  · exact hs
  split
  · split
    · exact cancelWith_inv hs ..
    · exact hs
  split
  · exact hs
  split
  · split
    · split
      · exact hs
      · exact hopFar_inv hs ..
    · exact hs
  split
  · exact hs
  split
  · exact hs
  extract_lets ls
  split
  · exact hs
  · exact hopElem_inv hs ..

theorem execCollLayoutCheck_inv {s : State} (hs : s.Inv) : OutInv (execCollLayoutCheck s) := by
  unfold execCollLayoutCheck
  grind [foldl_inv, OutInv, stopOp_inv, putColl_inv]

theorem execCollComplete_inv {s : State} (hs : s.Inv) : OutInv (execCollComplete s) := by
  unfold execCollComplete
  grind [OutInv, doneOp_inv]

/-! ### REDM -/

theorem unitRedm_inv {s : State} (hs : s.Inv) (o) : UnitInv (unitRedm s o) := by
  unfold unitRedm
  extract_lets d a l ix
  split
  · exact .last _ hs
  have h1 := engAddr_inv hs o a false
  generalize engAddr s o a false = y at h1 ⊢
  obtain ⟨c | ⟨pa, k⟩, s1⟩ := y
  · exact .stop _ _ _ h1
  dsimp only at h1 ⊢
  have h2 := engAddr_inv h1 o d true
  generalize engAddr s1 o d true = y at h2 ⊢
  obtain ⟨c | ⟨pd, x⟩, s2⟩ := y
  · exact .stop _ _ _ h2
  replace h2 : s2.Inv := h2
  dsimp only
  split
  · exact .stop _ _ _ h2
  split
  · exact .stop _ _ _ h2
  split
  · exact .stop _ _ _ h2
  split
  · exact .stop _ _ _ h2
  split
  · exact .hold h2
  have h3 : (if pteRepl x.pte0 then viewHome s2 o.cl o.pid else s2).Inv := by
    split
    · exact viewHome_inv h2 ..
    · exact h2
  have h4 := fun b w => updOp_inv (homeWrite_inv (settleWord_inv (seeWrites_inv (correctSoft_inv (correctSoft_inv h3
      pa 8) pd 8)
    (dieOf o.cl) pa 8) (dieOf o.cl) pd 8) o x pd b) o.id w
  split
  · exact .last _ (h4 ..)
  · exact .more (h4 ..)

/-! ### Descriptors -/

theorem putStr_inv {s : State} (hs : s.Inv) (d p sn w) : (putStr s d p sn w).Inv := by
  unfold putStr
  grind [updDp_inv, wrMem_inv]

theorem updStr_inv {s : State} (hs : s.Inv) (d p sn f) : (updStr s d p sn f).Inv := by
  unfold updStr
  grind [putStr_inv]

/-! ### State pages -/

theorem unpinPage_inv {s : State} (hs : s.Inv) (p root vpn) : (unpinPage s p root vpn).Inv := by
  unfold unpinPage
  grind [setPte_inv, setPins_inv]

theorem unpinStream_inv {s : State} (hs : s.Inv) (d p sn) : (unpinStream s d p sn).Inv := by
  unfold unpinStream
  grind [foldl_inv, unpinPage_inv, updStr_inv, updDp_inv]

theorem copyNode_inv {s : State} (hs : s.Inv) (d p lvl fri) : ExcInv (copyNode s d p lvl fri) := by
  have hn := newNode_inv hs d p
  unfold copyNode
  -- opaque to the kernel, which would else run the fold
  obtain ⟨fold, hF, hf⟩ : ∃ fold, fold = @List.foldl (Option State) (Nat × Bool) ∧
      ∀ {f} (_ : ∀ a x, OptStInv a → OptStInv (f a x)) l {a}, OptStInv a → OptStInv (fold f a l) :=
    ⟨_, rfl, foldl_optSt_inv⟩
  rw [← hF]
  generalize newNode s d p = y at hn ⊢
  rcases y with _ | ⟨n, s1⟩
  · exact .error _
  unfold OptInv at hn
  dsimp only
  generalize hr : fold _ _ _ = r
  have h1 : OptStInv r := by
    subst hr
    refine hf (fun a k ha => optStInv_bind ha fun y hy => ?_) _ (OptStInv.some (copyBytes_inv hn ..))
    split
    · exact .none
    · refine .some ?_
      split
      · exact setPins_inv (setRef_inv hy ..) ..
      · exact setRef_inv hy ..
  cases r with
  | none => exact .error _
  | some s3 => exact .ok _ (setRef_inv h1.inv ..)

theorem copyOne_inv {s : State} (hs : s.Inv) (d p lvl parent fri) : ExcInv (copyOne s d p lvl parent fri) := by
  unfold copyOne
  grind [ExcInv, copyNode_inv, wr64_inv]

theorem copyDown_inv {s : State} (hs : s.Inv) (d p root vpn) : (copyDown s d p root vpn).2.2.Inv := by
  unfold copyDown
  grind [ExcInv, copyOne_inv]

theorem pinPage_inv {s : State} (hs : s.Inv) (d p cl sn vpn) : (pinPage s d p cl sn vpn).2.Inv := by
  unfold pinPage
  grind [OptStInv, copyDown_inv, updStr_inv, makeLocal_inv, setPte_inv, setPins_inv]

theorem pinStream_inv {s : State} (hs : s.Inv) (d p sn) : (pinStream s d p sn).2.Inv := by
  unfold pinStream
  grind [foldl_snd_inv, pinPage_inv, updStr_inv, updDp_inv]

/-! ### Lists -/

theorem linkTail_inv {s : State} (hs : s.Inv) (d p head sn) : (linkTail s d p head sn).Inv := by
  unfold linkTail
  grind [updStr_inv]

theorem unlink_inv {s : State} (hs : s.Inv) (d p sn) : (unlink s d p sn).Inv := by
  unfold unlink
  grind [updStr_inv]

theorem freeStream_inv {s : State} (hs : s.Inv) (d p sn) : (freeStream s d p sn).Inv := by
  unfold freeStream
  grind [OptInv, refAdd_inv, unlink_inv, updStr_inv, updDp_inv]

/-! ### States -/

theorem unwait_inv {s : State} (hs : s.Inv) (d p sn) : (unwait s d p sn).Inv := hs

theorem makeReady_inv {s : State} (hs : s.Inv) (d p sn) : (makeReady s d p sn).Inv :=
  updDp_inv (hs := unwait_inv (hs := updStr_inv (hs := hs) ..) ..) ..

theorem makeIdle_inv {s : State} (hs : s.Inv) (d p sn) : (makeIdle s d p sn).Inv :=
  updStr_inv (hs := unwait_inv (hs := hs) ..) ..

theorem makeDone_inv {s : State} (hs : s.Inv) (d p sn) : (makeDone s d p sn).Inv :=
  updStr_inv (hs := unwait_inv (hs := unpinStream_inv (hs := hs) ..) ..) ..

theorem wake_inv {s : State} (hs : s.Inv) (d p sn) : (wake s d p sn).Inv := by
  unfold wake
  grind [makeReady_inv]

theorem stepState_inv {s : State} (hs : s.Inv) (d p sn) : (stepState s d p sn).Inv := by
  unfold stepState
  grind [makeDone_inv, makeReady_inv, makeIdle_inv]

theorem forkState_inv {s : State} (hs : s.Inv) (d p sn) : (forkState s d p sn).Inv := by
  unfold forkState
  grind [makeReady_inv, makeDone_inv, makeIdle_inv]

theorem stepStream_inv {s : State} (hs : s.Inv) (d p sn ends r) : (stepStream s d p sn ends r).Inv := by
  unfold stepStream
  grind [makeDone_inv, stepState_inv, putStr_inv]

/-! ### Issue -/

theorem arrivalOf_inv {s : State} (hs : s.Inv) (o) : (arrivalOf s o).2.Inv := by
  unfold arrivalOf
  grind [freeDelay_inv]

theorem issueReq_inv {s : State} (hs : s.Inv) (t o) : (issueReq s t o).Inv :=
  issueOp_inv (hs := arrivalOf_inv (hs := hs) ..) ..

theorem streamOp_inv (i g form d c a b m) {s : State} (hs : s.Inv) : OutInv (streamOp i g form d c a b m s) := by
  unfold streamOp
  grind [OutInv, issue_inv, raise_inv, issueReq_inv]

theorem execSfork_inv (g sh d a b pt) {s : State} (hs : s.Inv) : OutInv (execSfork g sh d a b pt s) := by
  unfold execSfork
  grind [OutInv, issue_inv, issueOp_inv]

theorem execSsetC_inv (g d a c) {s : State} (hs : s.Inv) : OutInv (execSsetC g d a c s) := by
  unfold execSsetC
  grind [OutInv, issueSup_inv, raise_inv, issueReq_inv]

theorem slotForm_inv (i) (g) (form) (d) (a) (c) (tab) {s : State} (hs : s.Inv) : OutInv (slotForm i g form d a c tab
    s) := by
  refine issue_inv _ _ _ (fun t s hs => ?_) hs
  dsimp only
  split
  · exact raise_inv _ _ hs ..
  · split
    · exact raise_inv _ _ hs ..
    · split
      · exact raise_inv _ _ hs ..
      · split
        · exact raise_inv _ _ hs ..
        · next r hr =>
          have h1 := (laneRead_inv hs ..).ok hr
          split
          · exact issueReq_inv h1 ..
          · split
            · exact raise_inv _ _ hs ..
            · next q hq => exact issueReq_inv ((laneRead_inv h1 ..).ok hq) ..

/-! ### Sequence points -/

theorem doFork_inv {s : State} (hs : s.Inv) (d p sid hor sib) : (doFork s d p sid hor sib).2.Inv := by
  unfold doFork
  split
  · exact hs
  split
  · exact hs
  split
  · exact hs
  extract_lets sn
  split
  · exact hs
  split
  · exact hs
  split
  · exact hs
  split
  · exact hs
  split
  · exact hs
  next s1 hq =>
    have hr : OptInv (some (_, s1)) := hq ▸ refAdd_inv hs ..
    unfold OptInv at hr
    exact forkState_inv (linkTail_inv (putStr_inv (updDp_inv hr ..) ..) ..) ..

theorem doAct_inv {s : State} (hs : s.Inv) (d p sid x) : (doAct s d p sid x).2.Inv := by
  unfold doAct
  grind [wake_inv, putStr_inv]

theorem setSkip_inv {s : State} (hs : s.Inv) (p w) : (setSkip s p w).Inv := by
  unfold setSkip
  grind [wr64_inv]

theorem doStepB_inv {s : State} (hs : s.Inv) (d) (o) : (doStepB s d o).2.Inv := by
  refine foldl_snd_inv (fun a m h => ?_) _ hs
  grind [stepStream_inv, setSkip_inv]

theorem doJoin_inv {s : State} (hs : s.Inv) (d p sid jw wr) : (doJoin s d p sid jw wr).2.Inv := by
  unfold doJoin
  grind [foldl_inv, freeStream_inv, updStr_inv]

theorem doPrune_inv {s : State} (hs : s.Inv) (d p sid) : (doPrune s d p sid).2.Inv := by
  unfold doPrune
  grind [freeStream_inv, makeDone_inv]

theorem doHor_inv {s : State} (hs : s.Inv) (d p sid x adj) : (doHor s d p sid x adj).2.Inv := by
  unfold doHor
  grind [putStr_inv, makeDone_inv, wake_inv]

theorem doPin'_inv {s : State} (hs : s.Inv) (d p sid u) : (doPin' s d p sid u).2.Inv := by
  unfold doPin'
  grind [updStr_inv, unpinStream_inv, pinStream_inv]

theorem doSset_inv {s : State} (hs : s.Inv) (d p sid sel x) : (doSset s d p sid sel x).2.Inv := by
  unfold doSset
  grind [putStr_inv, makeReady_inv, wake_inv]

theorem doSsetC_inv {s : State} (hs : s.Inv) (d p sid) : (doSsetC s d p sid).2.Inv := by
  unfold doSsetC
  grind [putStr_inv, updDp_inv, makeReady_inv, wake_inv]

theorem doStep1_inv {s : State} (hs : s.Inv) (d p sid x) : (doStep1 s d p sid x).2.Inv := by
  unfold doStep1
  grind [stepStream_inv, unwait_inv]

theorem doActp_inv {s : State} (hs : s.Inv) (d) (o) : (doActp s d o).2.Inv := by
  refine foldl_snd_inv (fun a m h => ?_) _ hs
  have := doAct_inv h d o.pid m.1.1 m.2
  dsimp only
  split <;> exact this

theorem doSnap_inv {s : State} (hs : s.Inv) (d o sid x) : (doSnap s d o sid x).2.Inv := by
  unfold doSnap
  grind [OptInv, refAdd_inv, updStr_inv, unwait_inv, updOp_inv]

/-! ### LFILT -/

theorem execLfilt_inv (g sc a c) {s : State} (hs : s.Inv) : OutInv (execLfilt g sc a c s) := by
  unfold execLfilt
  grind [OutInv, LaneInv, issue_inv, raise_inv, laneRead_inv, issueOp_inv]

theorem logitPages_inv (o) : ∀ (l) {s : State} (_ : s.Inv), (logitPages s o l).2.Inv
  | [], _, hs => hs
  | va :: l, s, hs => by
    have ih := @logitPages_inv o l
    have ha := engAddr_inv hs o (va % 2 ^ 48) false
    unfold logitPages
    grind

theorem logitPages_step {s : State} (hs : s.Inv) {o l c s'} (h : logitPages s o l = (c, s')) : s'.Inv := by
  have := logitPages_inv o l hs
  rwa [h] at this

theorem lfiltPass_inv {s : State} (hs : s.Inv) (o) : UnitInv (lfiltPass s o) := by
  unfold lfiltPass
  dsimp only
  split
  next he => exact .stop _ _ _ (engAddr_step hs he)
  next he =>
  have h1 := fun f => updOp_inv (engAddr_step hs he) o.id f
  split
  next hl => exact .stop _ _ _ (logitPages_step (h1 _) hl)
  next hl =>
  have h2 := logitPages_step (h1 _) hl
  generalize hf : engFetch _ o _ _ = y
  obtain ⟨got, s3⟩ := y
  have h3 := engFetch_step h2 hf
  dsimp only
  split
  next hq => exact .stop _ _ _ (engPieces_step h3 hq)
  next hq =>
  have h4 := engPieces_step h3 hq
  split
  · exact .stop _ _ _ h4
  split
  next hw => exact .stop _ _ _ (engPieces_step h4 hw)
  next hw =>
  have h5 := engPieces_step h4 hw
  clear hw hq hf hl he
  grind [UnitInv, updOp_inv]

theorem unitLfilt_inv {s : State} (hs : s.Inv) (o) : UnitInv (unitLfilt s o) := by
  unfold unitLfilt
  grind [UnitInv, outWord_inv, lfiltPass_inv]

theorem execLfiltPass_inv {s : State} (hs : s.Inv) : OutInv (execLfiltPass s) := by
  unfold execLfiltPass
  grind [OutInv, applyUnit_inv, unitLfilt_inv]

/-! ### SAMPLE -/

theorem execSample_inv (g d a b c) {s : State} (hs : s.Inv) : OutInv (execSample g d a b c s) := by
  unfold execSample
  grind [OutInv, LaneInv, issue_inv, raise_inv, laneRead_inv, putStrand_inv]

/-! ### ACCEPT -/

theorem execAccept_inv (g d a b) {s : State} (hs : s.Inv) : OutInv (execAccept g d a b s) := by
  unfold execAccept
  grind [foldl_inv, OutInv, issue_inv, putStrand_inv, raise_inv, correctSoft_inv]

/-! ### Die queues -/

theorem execDqsend_inv (g a b c) {s : State} (hs : s.Inv) : OutInv (execDqsend g a b c s) := by
  unfold execDqsend
  grind [OutInv, LaneInv, issue_inv, raise_inv, laneRead_inv, issueOp_inv]

theorem execDqsendSequenced_inv {s : State} (hs : s.Inv) : OutInv (execDqsendSequenced s) := by
  unfold execDqsendSequenced
  grind [OutInv, stopOp_inv, updDp_inv, fresh_inv, updOp_inv]

theorem execDqEntryArrive_inv {s : State} (hs : s.Inv) : OutInv (execDqEntryArrive s) := by
  unfold execDqEntryArrive
  grind [OutInv, updDp_inv, fireConts_inv, doneOp_inv, relDrain_inv]

theorem execDqrecv_inv (g d a b) {s : State} (hs : s.Inv) : OutInv (execDqrecv g d a b s) := by
  unfold execDqrecv
  grind [OutInv, issue_inv, raise_inv, implicitSplit_inv, updDp_inv, receive_inv]

/-! ### The delivery ring -/

theorem execCommit_inv (g d a b c) {s : State} (hs : s.Inv) : OutInv (execCommit g d a b c s) := by
  unfold execCommit
  grind [OutInv, LaneInv, issue_inv, raise_inv, laneRead_inv, issueReq_inv]

theorem ringWr_inv {s : State} (hs : s.Inv) (p va x) : (ringWr s p va x).Inv := by
  unfold ringWr
  grind [wrN_inv]

theorem ringPut_inv {s : State} (hs : s.Inv) (p ring r es) : (ringPut s p ring r es).Inv := by
  unfold ringPut
  grind [foldl_inv, ringWr_inv]

theorem doCommit_inv {s : State} (hs : s.Inv) (d o) : ExcInv (doCommit s d o) := by
  unfold doCommit
  extract_lets p sid sn toks
  split
  · exact .ok _ hs
  split
  · exact .ok _ hs
  split
  · exact .ok _ hs
  extract_lets ring slot
  split
  · exact .error _
  split
  · exact .ok _ hs
  extract_lets at' n k held es vas s1 rest s2 s3 s4
  split
  · exact .error _
  have h1 : s1.Inv := ringPut_inv (relDrain_inv hs ..) ..
  have h2 : s4.Inv := by
    unfold s4
    split
    · exact updStr_inv (foldl_inv (fun s e h => ringWr_inv h ..) _ (ringWr_inv h1 ..)) ..
    · split
      · exact makeDone_inv h1 ..
      · exact h1
  exact .ok _ h2

theorem drainSlot_inv {s : State} (hs : s.Inv) (d) (p) (sn) : (drainSlot s d p sn).Inv := by
  have hf : ∀ (l : List (Nat × Nat)) (g : Nat → Nat) {s : State}, s.Inv → (l.foldl (fun s e => ringWr s p (g e.1) e.2)
      s).Inv :=
    fun l g s h => foldl_inv (fun s e h => ringWr_inv h ..) l h
  unfold drainSlot
  dsimp only
  split
  · exact hs
  split
  · exact hs
  split
  · exact hs
  split
  · exact hs
  generalize hp : (if _ = 0 then s else ringPut s p _ _ _) = s1
  have h1 : s1.Inv := by
    subst hp
    split
    · exact hs
    · exact ringPut_inv hs ..
  have h2 : ∀ (l : List (Nat × Nat)) (a : Nat) (x : Nat), (ringWr (l.foldl (fun s e => ringWr s p (a + 8 + 8 * e.1)
      e.2) s1) p a x).Inv :=
    fun l a x => ringWr_inv (foldl_inv (fun s e h => ringWr_inv h ..) l h1) ..
  split
  · exact h2 ..
  split
  · exact updStr_inv (h2 ..) ..
  split
  · exact makeDone_inv (updStr_inv (h2 ..) ..) ..
  split
  · exact stepStream_inv (updStr_inv (h2 ..) ..) ..
  · exact stepState_inv (updStr_inv (h2 ..) ..) ..

end Sys2Proof.Machine
end

section
/-! SUPPORT. O4: the queues, placement and the Sieve keep the memory form. -/

namespace Sys2Proof.Machine

open Laws

/-! ### Requests at their sequence points -/

theorem writePred_inv {s : State} (hs : s.Inv) (task pid k x) : (writePred s task pid k x).Inv := by
  unfold writePred
  grind [updTask_inv, wr64_inv]

theorem endFork_inv {s : State} (hs : s.Inv) (o r) : (endFork s o r).Inv := by
  unfold endFork
  grind [writeReg_inv, dropOp_inv, writePred_inv]

theorem drainHeld_inv {s : State} (hs : s.Inv) (d p sn) : (drainHeld s d p sn).Inv := by
  unfold drainHeld
  grind [drainSlot_inv]

theorem answer_inv {s : State} (hs : s.Inv) (o x) : (answer s o x).Inv := by
  unfold answer
  grind [State.Inv, dropOp_inv, doneOp_inv]

theorem applyReq_inv {s : State} (hs : s.Inv) (d o) : (applyReq s d o).Inv := by
  unfold applyReq
  grind [foldl_inv, ExcInv, doCommit_inv, dropOp_inv, stopOp_inv, answer_inv, doFork_inv, endFork_inv, doJoin_inv,
    updOp_inv, doPrune_inv, doAct_inv, doActp_inv, doHor_inv, doStep1_inv, doStepB_inv, doSnap_inv, doPin'_inv,
    doSset_inv, drainHeld_inv, doSsetC_inv]

/-! ### Batches -/

theorem joinBatch_inv {s : State} (hs : s.Inv) (d p sn) : (joinBatch s d p sn).Inv := by
  unfold joinBatch
  grind [updStr_inv, unwait_inv, updBatch_inv, fresh_inv, updDp_inv]

theorem endBatch_inv {s : State} (hs : s.Inv) (d p b) : (endBatch s d p b).Inv := by
  unfold endBatch
  grind [foldl_inv, makeReady_inv, updDp_inv]

theorem runBatch_inv {s : State} (hs : s.Inv) (d p b) : (runBatch s d p b).Inv := by
  unfold runBatch
  grind [foldl_inv, updStr_inv, updBatch_inv]

theorem writeSlot_inv {s : State} (hs : s.Inv) (d p b) : (writeSlot s d p b).Inv := by
  unfold writeSlot
  grind [whiskOnCause_inv, queueEvent_inv, updBatch_inv, wrMem_inv]

theorem offerBatch_inv {s : State} (hs : s.Inv) (d p b) : (offerBatch s d p b).Inv := by
  unfold offerBatch
  grind [fresh_inv, appendEntry_inv, updBatch_inv]

theorem execBatchClose_inv {s : State} (hs : s.Inv) : OutInv (execBatchClose s) := by
  unfold execBatchClose
  extract_lets d p
  split
  · exact .next hs
  split
  · exact .next hs
  split
  · exact .next (offerBatch_inv hs ..)
  extract_lets s1
  have h1 : s1.Inv := by
    unfold s1
    split
    · split
      · exact hs
      · extract_lets s2 s3
        have h3 : s3.Inv := foldl_inv (fun s sn h => by grind [joinBatch_inv]) _ (updBatch_inv hs ..)
        split
        · exact ⟨h3.1, h3.2⟩
        · exact h3
    · exact hs
  clear_value s1
  split
  · split
    · exact .next (writeSlot_inv h1 ..)
    · exact .next h1
  · exact .next h1

/-! ### Idle expiry and eviction -/

theorem execIdleExpiry_inv {s : State} (hs : s.Inv) : OutInv (execIdleExpiry s) := by
  unfold execIdleExpiry
  grind [OutInv, unpinStream_inv, updStr_inv, fresh_inv, updDp_inv]

theorem admitOffer_inv {s : State} (hs : s.Inv) (d p o) : (admitOffer s d p o).Inv := by
  unfold admitOffer
  grind [updClu_inv, updDp_inv]

theorem execEvictionAdmit_inv {s : State} (hs : s.Inv) : OutInv (execEvictionAdmit s) := by
  unfold execEvictionAdmit
  grind [State.Inv, OutInv, admitOffer_inv]

theorem execPendingSlotDrain_inv {s : State} (hs : s.Inv) : OutInv (execPendingSlotDrain s) := by
  unfold execPendingSlotDrain
  grind [OutInv, drainSlot_inv]

/-! ### The sequence of a tick -/

theorem lastEvents_inv {s : State} (hs : s.Inv) (d p) : (lastEvents s d p).Inv := by
  unfold lastEvents
  grind [foldl_inv, endBatch_inv, runBatch_inv]

theorem takeRequest_inv {s : State} (hs : s.Inv) (d p ws) : (takeRequest s d p ws).Inv := by
  unfold takeRequest
  grind [State.Inv, fresh_inv]

theorem execStreamSequencePoint_inv {s : State} (hs : s.Inv) : OutInv (execStreamSequencePoint s) := by
  unfold execStreamSequencePoint
  grind [foldl_inv, State.Inv, OutInv, doneOp_inv, lastEvents_inv, takeRequest_inv, applyReq_inv, joinBatch_inv]

theorem execJoinReduction_inv {s : State} (hs : s.Inv) : OutInv (execJoinReduction s) := by
  unfold execJoinReduction
  grind [OutInv, answer_inv]

/-! ### Snapshots -/

theorem takeHbm_inv {s : State} (hs : s.Inv) (cl p) : OptInv (takeHbm s cl p) := by
  unfold takeHbm
  grind [OptInv, updDp_inv]

theorem takePage_inv {s : State} (hs : s.Inv) (cl p w0 w2 bs) : OptInv (takePage s cl p w0 w2 bs) := by
  unfold takePage
  grind [OptInv, freeRecord_inv, takeHbm_inv, wrMem_inv, newRecord_inv]

theorem copyData_inv {s : State} (hs : s.Inv) (cl p fri) : OptInv (copyData s cl p fri) := by
  unfold copyData
  grind [OptInv, settleFrame_inv, takePage_inv, copyFrame_inv]

theorem copyTree_inv (cl p) : ∀ (k) (lvl fri m) {s : State} (_ : s.Inv), OptInv ((copyTree cl p k lvl fri m s).map
    Prod.snd)
  | 0, _, _, _, _, hs => by
    unfold copyTree OptInv
    trivial
  | k + 1, lvl, fri, m, s, hs => by
    have ih := @copyTree_inv cl p k (lvl + 1)
    have hn := newNode_inv hs (dieOf cl) p
    have hd := copyData_inv hs cl p fri
    unfold copyTree
    split
    · grind [OptInv, setRef_inv]
    split
    · grind [OptInv, setRef_inv]
    generalize newNode s (dieOf cl) p = y at hn ⊢
    cases y with
    | none => unfold OptInv; trivial
    | some y =>
    unfold OptInv at hn
    obtain ⟨n, s1⟩ := y
    dsimp only at hn ⊢
    refine optInv_map_snd (foldl_opt_inv (fun a i h => ?_) _ ?_)
    · unfold OptInv at h ⊢
      cases a with
      | none => trivial
      | some y =>
      grind [wr64_inv, OptInv]
    · unfold OptInv; exact hn

theorem putSnap_inv {s : State} (hs : s.Inv) (d p x c r) : (putSnap s d p x c r).2.Inv := by
  unfold putSnap
  grind [putStr_inv, updDp_inv, pinStream_inv, forkState_inv]

theorem landSnap_inv {s : State} (hs : s.Inv) (o d) : (landSnap s o d).2.Inv := by
  unfold landSnap
  grind [OptInv, copyTree_inv, putSnap_inv]

theorem landPages_inv (cl p root) : ∀ (x1) (x2) (x3) {s : State} (_ : s.Inv), OptStInv (landPages cl p root x1 x2 x3 s)
  | vpn :: w0 :: w1 :: r0 :: r2 :: ws, bs, m, s, hs => by
    have ih := landPages_inv cl p root ws (bs.drop 32768)
    unfold landPages
    grind [OptStInv, OptInv, WalkInv, takePage_inv, mapRec_inv]
  | [], _, _, _, hs | [_], _, _, _, hs | [_, _], _, _, _, hs | [_, _, _], _, _, _, hs | [_, _, _, _], _, _, _, hs => by
    unfold landPages OptStInv
    exact hs

theorem landFar_inv {s : State} (hs : s.Inv) (d p ws bs) : (landFar s d p ws bs).2.Inv := by
  unfold landFar
  grind [OptInv, OptStInv, newNode_inv, landPages_inv, putSnap_inv]

theorem endSnap_inv {s : State} (hs : s.Inv) (o r) : (endSnap s o r).Inv := by
  unfold endSnap
  grind [OptInv, refAdd_inv, updStr_inv, unpinStream_inv, answer_inv, forkState_inv]

theorem execSnapshotTransferDone_inv {s : State} (hs : s.Inv) : OutInv (execSnapshotTransferDone s) := by
  unfold execSnapshotTransferDone
  grind [State.Inv, OutInv, landFar_inv, endSnap_inv, landSnap_inv]

/-! ### Pages -/

theorem setWhoRoot_inv {s : State} (hs : s.Inv) (cl p who root) : (setWhoRoot s cl p who root).Inv := by
  unfold setWhoRoot
  grind [State.Inv, updStr_inv]

/-! ### Committing a placement -/

theorem takeCopies_inv (cl p) : ∀ (l) {s : State} (_ : s.Inv), OptInv (takeCopies s cl p l)
  | [], _, hs => by
    unfold takeCopies OptInv
    exact hs
  | (c, slot) :: l, s, hs => by
    have ih := @takeCopies_inv cl p l
    have hr := freeRecord_inv hs p
    unfold takeCopies
    grind [OptInv, frameInQuota_inv, newRecord_inv, updCp_inv, optInv_map]

theorem takeCopies_step {s : State} (hs : s.Inv) {cl p l c s'} (h : takeCopies s cl p l = some (c, s')) : s'.Inv := by
  have := takeCopies_inv cl p l hs
  rw [h] at this
  unfold OptInv at this
  exact this

theorem queueVictims_inv {s : State} (hs : s.Inv) (cl p n) : (queueVictims s cl p n).Inv := by
  unfold queueVictims
  grind [foldl_inv, queueVictim_inv]

theorem loadRotary_inv {s : State} (hs : s.Inv) (cl p h0 gs) : (loadRotary s cl p h0 gs).2.Inv := by
  refine foldl_snd_inv (fun a g h => ?_) _ hs
  dsimp only
  split
  · exact h
  · exact updCp_inv (fresh_inv h) ..

theorem calStat_inv {s : State} (hs : s.Inv) (cl placed failed) : (calStat s cl placed failed).Inv := hs

theorem holdPages_inv {s : State} (hs : s.Inv) (cl p t xs) : (holdPages s cl p t xs).Inv := by
  unfold holdPages
  grind [foldl_inv, setLast_inv, updClu_inv]

theorem cacheXls_inv {s : State} (hs : s.Inv) (cl p xs) : (cacheXls s cl p xs).Inv := by
  unfold cacheXls
  grind [foldl_inv, xlate_inv]

theorem fillPlan_inv (cl p) {s : State} (hs : s.Inv) (pl) : (fillPlan cl p s pl).Inv := by
  unfold fillPlan
  grind [foldl_inv, xlate_inv]

theorem placePlan_inv {s : State} (hs : s.Inv) (cl p a t lane eff queue copiesEnd laneSid lg e pl xls rot) :
    (placePlan s cl p a t lane eff queue copiesEnd laneSid lg e pl xls rot).Inv := by
  unfold placePlan
  grind [fresh_inv, updClu_inv, updCp_inv, holdPages_inv, cacheXls_inv]

theorem startFar_inv {s : State} (hs : s.Inv) (cl p task what who vpn) : (startFar s cl p task what who vpn).Inv := hs

theorem clearCow_inv {s : State} (hs : s.Inv) (cl p l) : (clearCow s cl p l).Inv := by
  unfold clearCow
  grind [foldl_inv, setPte_inv]

theorem tryPlace_inv {s : State} (hs : s.Inv) (cl p a eff queue laneSid cal0 e pls) {bind : State → State} (hb : ∀ y,
    y.Inv → (bind y).Inv) : AttInv (tryPlace s cl p a eff queue laneSid cal0 e pls bind) := by
  have h1 : (pls.foldl (fillPlan cl p) s).Inv := foldl_inv (fun s x h => fillPlan_inv cl p h x) _ hs
  unfold tryPlace
  dsimp only
  generalize pls.foldl (fillPlan cl p) s = s1 at h1 ⊢
  split
  · exact .fault _ _ h1
  · exact .fail (startFar_inv h1 ..)
  · exact .fail h1
  split
  · exact .fail (queueVictims_inv h1 ..)
  split
  · exact .fail h1
  split
  · exact .fail h1
  split
  · exact .fail h1
  split
  · exact .fail h1
  split
  · exact .fail h1
  next ht =>
  have h2 := takeCopies_step h1 ht
  exact .placed (foldl_inv (fun s x h => placePlan_inv h ..) _ (loadRotary_inv (hb _ (clearCow_inv h2 ..)) ..))

/-! ### Heads of queues -/

theorem markCaps_inv {s : State} (hs : s.Inv) (cl p) : (markCaps s cl p).Inv := hs

theorem execHeadUrgent_inv {s : State} (hs : s.Inv) : OutInv (execHeadUrgent s) := by
  unfold execHeadUrgent
  grind [OutInv, updCp_inv]

/-! ### Candidates -/

theorem dropEntry_inv {s : State} (hs : s.Inv) (cl p c) : (dropEntry s cl p c).Inv := by
  unfold dropEntry
  grind [updDie_inv, markHeads_inv, updCp_inv]

/-! ### Gangs -/

theorem clearSlots_inv {s : State} (hs : s.Inv) (a n) : (clearSlots s a n).Inv := by
  unfold clearSlots
  grind [foldl_inv, feSet_inv]

theorem clearPipe_inv {s : State} (hs : s.Inv) (p e) : (clearPipe s p e).Inv := by
  unfold clearPipe
  grind [State.Inv, clearSlots_inv]

theorem bindPipes_inv (cl p gang es) {s : State} (hs : s.Inv) : (bindPipes cl p gang es s).Inv := by
  unfold bindPipes
  grind [foldl_inv, clearPipe_inv, updCp_inv]

theorem updGang_inv {s : State} (hs : s.Inv) (cl p num f) : (updGang s cl p num f).Inv := hs

theorem startRound_inv {s : State} (hs : s.Inv) (cl p num sid) : (startRound s cl p num sid).Inv := hs

theorem tryGang_inv {s : State} (hs : s.Inv) (cl p a eff cal0 e d) : AttInv (tryGang s cl p a eff cal0 e d) := by
  unfold tryGang
  dsimp only
  split
  · exact .fault _ _ hs
  split
  · exact .fault _ _ hs
  split
  · exact .fault _ _ hs
  · exact .fail (startFar_inv hs ..)
  split
  · exact .fault _ _ hs
  split
  · exact .fail hs
  next pls _ _ es _ _ _ _ =>
  have ht := tryPlace_inv (s := { s with nextId := s.nextId + gangCount d + 1 }) ⟨hs.1, hs.2⟩ cl p a eff e.queue
      (s.nextId + gangCount d) cal0 e
    pls (bind := bindPipes cl p e.task.id es) (fun y h => bindPipes_inv _ _ _ _ h)
  generalize tryPlace _ _ _ _ _ _ _ _ _ _ _ = r at ht ⊢
  cases r with
  | placed s1 => 
    unfold AttInv at ht
    exact .placed (startRound_inv (updCp_inv ht ..) ..)
  | fail s1 => exact ht
  | fault c v s1 => exact ht

theorem tryRound_inv {s : State} (hs : s.Inv) (cl p a eff cal0 e num) : AttInv (tryRound s cl p a eff cal0 e num) :=
    by
  unfold tryRound
  grind [AttInv, fresh_inv, tryPlace_inv, startRound_inv]

/-! ### Attempts and rounds -/

theorem attemptOn_inv {s : State} (hs : s.Inv) (cl p a eff cal0 e) : AttInv (attemptOn s cl p a eff cal0 e) := by
  unfold attemptOn
  grind [AttInv, tryGang_inv, tryRound_inv, tryPlace_inv]

theorem placementFault_inv {s : State} (hs : s.Inv) (cl e c va) : (placementFault s cl e c va).Inv := by
  unfold placementFault
  grind [State.Inv, whiskOnCause_inv, queueEvent_inv]

theorem attempt_inv {s : State} (hs : s.Inv) (cl p a cal0 c e) : (attempt s cl p a cal0 c e).Inv := by
  unfold attempt
  grind [AttInv, attemptOn_inv, dropEntry_inv, updCp_inv, calStat_inv, placementFault_inv]

theorem runRound_inv (cl p) : ∀ (k) {s : State} (_ : s.Inv), (runRound cl p k s).Inv
  | 0, _, hs => hs
  | k + 1, s, hs => by
    have ih := @runRound_inv cl p k
    unfold runRound
    grind [updCp_inv, attempt_inv]

/-! ### Requests of the previous tick -/

theorem pipeResult_inv {s : State} (hs : s.Inv) (cl p r) : (pipeResult s cl p r).2.Inv := by
  unfold pipeResult
  grind [updCp_inv, clearPipe_inv]

theorem applyRequest_inv (cl p) {s : State} (hs : s.Inv) (r) : (applyRequest cl p s r).Inv := by
  unfold applyRequest
  grind [writeReg_inv, updCp_inv, pipeResult_inv]

theorem applyRequests_inv {s : State} (hs : s.Inv) (cl p) : (applyRequests s cl p).Inv := by
  unfold applyRequests
  grind [foldl_inv, updCp_inv, applyRequest_inv]

theorem applyCalqs_inv {s : State} (hs : s.Inv) (cl p) : (applyCalqs s cl p).Inv := by
  unfold applyCalqs
  grind [foldl_inv, updCp_inv, writeReg_inv]

/-! ### Compaction -/

theorem moveGroup_inv (cl p) {s : State} (hs : s.Inv) (g) : (moveGroup cl p s g).Inv := by
  unfold moveGroup
  grind [foldl_inv, updCp_inv, setLast_inv]

theorem compact_inv {s : State} (hs : s.Inv) (cl p) : (compact s cl p).Inv := by
  unfold compact
  grind [foldl_inv, moveGroup_inv]

/-! ### The tick boundary -/

theorem dropDoneRepl_inv {s : State} (hs : s.Inv) : (dropDoneRepl s).Inv := hs

theorem sweepPast_inv {s : State} (hs : s.Inv) (cl p) : (sweepPast s cl p).Inv := by
  unfold sweepPast
  grind [foldl_inv, State.Inv, updCp_inv, dropDoneRepl_inv, dropFrame_inv]

theorem execTickBoundary_inv {s : State} (hs : s.Inv) : OutInv (execTickBoundary s) := by
  unfold execTickBoundary
  grind [foldl_inv, OutInv, markCaps_inv, sweepPast_inv, compact_inv, applyRequests_inv, applyCalqs_inv, updCp_inv,
    runRound_inv]

/-! ### Far work, local copies, code loads -/

theorem readMoveBuffer_inv {s : State} (hs : s.Inv) (cl p who vpn) : OptInv (readMoveBuffer s cl p who vpn) := by
  unfold readMoveBuffer
  grind [OptInv, fresh_inv, copyFrame_inv, settleFrame_inv]

theorem clearMoveBuffer_inv {s : State} (hs : s.Inv) (a) : (clearMoveBuffer s a).Inv := by
  unfold clearMoveBuffer
  grind [zeroFrame_inv]

theorem execFarWorkDone_inv {s : State} (hs : s.Inv) : OutInv (execFarWorkDone s) := by
  unfold execFarWorkDone
  grind [OutInv, OptInv, updCp_inv, copyDown_inv, setWhoRoot_inv, readMoveBuffer_inv]

theorem cowDone_inv {s : State} (hs : s.Inv) (p c l) : (cowDone s p c l).Inv := by
  unfold cowDone
  grind [OptInv, setPte_inv, setRef_inv, setPins_inv, refAdd_inv]

theorem execLocalCopy_inv {s : State} (hs : s.Inv) : OutInv (execLocalCopy s) := by
  unfold execLocalCopy
  grind [foldl_inv, OutInv, updCp_inv, clearMoveBuffer_inv, dropFrame_inv, copyFrame_inv, settleFrame_inv,
    returnStorage_inv, invalidate_inv, setLoc_inv, clearSlots_inv, freeIdle_inv, cowDone_inv, settleRepl_inv]

theorem execIcacheBlockLoad_inv {s : State} (hs : s.Inv) : OutInv (execIcacheBlockLoad s) := by
  unfold execIcacheBlockLoad
  grind [OutInv, updCp_inv, updClu_inv]

/-! ### The start of a segment -/

theorem freeImage_inv {s : State} (hs : s.Inv) (task pid) : (freeImage s task pid).Inv := by
  unfold freeImage
  grind [State.Inv, updDp_inv]

theorem startBatch_inv {s : State} (hs : s.Inv) (cl k) : (startBatch s cl k).Inv := by
  unfold startBatch
  grind [updBatch_inv]

theorem execSegmentStart_inv {s : State} (hs : s.Inv) : OutInv (execSegmentStart s) := by
  unfold execSegmentStart
  extract_lets cl p
  split
  · exact .next hs
  extract_lets s1 t id run
  have h1 : s1.Inv := updCp_inv hs ..
  have hr : ∀ (s : State) t, s.Inv → (run s t).Inv := fun s t h => startBatch_inv h.strands ..
  clear_value run s1
  next q hq =>
  generalize q.entry.work = w
  cases w with
  | fresh => exact .next (hr _ _ h1)
  | cont =>
    dsimp only
    split
    · exact .next (hr _ _ ⟨h1.1, h1.2⟩)
    · exact .next h1
  | remainder =>
    dsimp only
    split
    · exact .next (hr _ _ (freeImage_inv h1 ..))
    · exact .next h1
  | _ => exact .next h1

/-! ### Continuations -/

theorem execContinuationRecordComplete_inv {s : State} (hs : s.Inv) : OutInv (execContinuationRecordComplete s) :=
    .next hs

theorem requeue_inv {s : State} (hs : s.Inv) (cl p q prio k w) : (requeue s cl p q prio k w).Inv := by
  unfold requeue
  grind [updDie_inv, appendEntry_inv]

theorem queueCont_inv {s : State} (hs : s.Inv) (c) : (queueCont s c).Inv := by
  unfold queueCont
  grind [updCont_inv, requeue_inv]

theorem queueWhen_inv {s : State} (hs : s.Inv) (sort) : OutInv (queueWhen s sort) := by
  unfold queueWhen
  grind [OutInv, queueCont_inv]

/-! ### Gang rounds -/

theorem endGang_inv {s : State} (hs : s.Inv) (cl p num) : (endGang s cl p num).Inv := hs

theorem execGangRoundEnd_inv {s : State} (hs : s.Inv) : OutInv (execGangRoundEnd s) := by
  unfold execGangRoundEnd
  grind [State.Inv, OutInv, updCp_inv, endGang_inv, updGang_inv]

theorem execGangNextRound_inv {s : State} (hs : s.Inv) : OutInv (execGangNextRound s) := by
  unfold execGangNextRound
  grind [State.Inv, OutInv, requeue_inv]

/-! ### Spills -/

theorem cleanEvict_inv {s : State} (hs : s.Inv) (cl) : (cleanEvict s cl).Inv := hs

theorem spillLast_inv {s : State} (hs : s.Inv) (cl slot v) : (spillLast s cl slot v).Inv := by
  unfold spillLast
  grind [dropFrame_inv, copyFrame_inv, settleFrame_inv, updCp_inv, updDp_inv, invalidate_inv, setLoc_inv, doneOp_inv]

theorem putEvict_inv {s : State} (hs : s.Inv) (cl idle l) : (putEvict s cl idle l).Inv := hs

theorem windowBegins_inv {s : State} (hs : s.Inv) (cl) : (windowBegins s cl).Inv := by
  unfold windowBegins
  grind [cleanEvict_inv, invalidate_inv, putEvict_inv]

theorem windowEnds_inv {s : State} (hs : s.Inv) (cl) : (windowEnds s cl).Inv := by
  unfold windowEnds
  grind [cleanEvict_inv, putEvict_inv, spillLast_inv]

theorem execSpillWindow_inv {s : State} (hs : s.Inv) : OutInv (execSpillWindow s) := by
  unfold execSpillWindow
  grind [OutInv, windowBegins_inv, windowEnds_inv]

end Sys2Proof.Machine
end

section
/-! SUPPORT. O4: the tile engine, fetch, units and fault events keep the memory form. -/

namespace Sys2Proof.Machine

open Laws

/-! ### Pages named by a tile command -/

theorem cellsSoft_inv {s : State} (hs : s.Inv) (p l) : (cellsSoft s p l).Inv := by
  unfold cellsSoft
  grind [foldl_inv, correctSoft_inv]

/-! ### Issue -/

theorem tileForm_inv (i g adv occ dst) (prep : Strand → State → ℕ → Except (Cause × Word) TilePrep) {s : State} (hs :
    s.Inv) : OutInv (tileForm i g adv occ dst prep s) := by
  unfold tileForm
  grind [State.Inv, OutInv, issue_inv, takeFault_inv, raise_inv, settleLeases_inv, putStrand_inv, updCp_inv]

/-! ### The die ring -/

theorem execTblatch_inv (g src ga gd lb tr) {s : State} (hs : s.Inv) : OutInv (execTblatch g src ga gd lb tr s) := by
  unfold execTblatch
  grind [OutInv, tileForm_inv]

/-! ### The start of a command -/

theorem snapView_inv {s : State} (hs : s.Inv) (c) : (snapView s c).Inv := ⟨wf_foldl_wrBytes _ hs.1, hs.2⟩

theorem startMul_inv {s : State} (hs : s.Inv) (cl p c kd) : (startMul s cl p c kd).st.Inv := by
  unfold startMul
  grind [updCp_inv, cellsSoft_inv, snapView_inv, putCp_inv]

theorem startLatch_inv {s : State} (hs : s.Inv) (cl p c src tr) : (startLatch s cl p c src tr).st.Inv := by
  unfold startLatch
  grind [updCp_inv, cellsSoft_inv, snapView_inv, writeReg_inv]

theorem putCell_inv {s : State} (hs : s.Inv) (p c x) : (putCell s p c x).Inv := by
  unfold putCell
  grind [wrN_inv]

theorem drainBlock_inv {s : State} (hs : s.Inv) (p) (rm) (vals) (n) : (drainBlock s p rm vals n).1.Inv := by
  refine foldl_pair_inv (fun a e h => ?_) _ (wrN_inv hs ..)
  grind [putCell_inv]

theorem drainGroup_inv {s : State} (hs : s.Inv) (p) (vals) (n) : (drainGroup s p vals n).1.Inv := by
  unfold drainGroup
  grind [foldl_pair_inv, foldl_inv, wrN_inv, putCell_inv]

theorem startDrain_inv {s : State} (hs : s.Inv) (cl p c) : (startDrain s cl p c).st.Inv := by
  unfold startDrain
  grind [cellsSoft_inv, putCell_inv, drainGroup_inv, drainBlock_inv]

theorem startCmd_inv {s : State} (hs : s.Inv) (cl p c) : (startCmd s cl p c).st.Inv := by
  unfold startCmd
  grind [updCp_inv, startMul_inv, startLatch_inv, startDrain_inv]

theorem updTile_inv {s : State} (hs : s.Inv) (cl p id f) : (updTile s cl p id f).Inv := hs

theorem putWords_inv {s : State} (hs : s.Inv) (cl p c l) : (putWords s cl p c l).Inv := by
  unfold putWords
  grind [foldl_inv, updCp_inv, wrMem_inv]

theorem drainWord_inv {s : State} (hs : s.Inv) (cl p c) : (drainWord s cl p c).Inv := by
  unfold drainWord
  grind [freePick_inv, updTile_inv, putWords_inv]

theorem execTileCommandStart_inv {s : State} (hs : s.Inv) : OutInv (execTileCommandStart s) := by
  unfold execTileCommandStart
  grind [OutInv, drainWord_inv, startCmd_inv, updTile_inv]

theorem execTileBatchCommit_inv {s : State} (hs : s.Inv) : OutInv (execTileBatchCommit s) := by
  unfold execTileBatchCommit
  grind [foldl_inv, State.Inv, OutInv, updTile_inv, putWords_inv, updCp_inv, addFlags_inv]

theorem execDeferredEccFault_inv {s : State} (hs : s.Inv) : OutInv (execDeferredEccFault s) := by
  unfold execDeferredEccFault
  grind [State.Inv, OutInv, takeFault_inv]

theorem execRingDelivery_inv {s : State} (hs : s.Inv) : OutInv (execRingDelivery s) := .next hs

/-! ### Short forms -/

theorem execTcommit_inv (g d) {s : State} (hs : s.Inv) : OutInv (execTcommit g d s) := by
  unfold execTcommit
  grind [OutInv, issue_inv, closeBatch_inv, putStrand_inv]

theorem execTwait_inv (g a) {s : State} (hs : s.Inv) : OutInv (execTwait g a s) := by
  unfold execTwait
  grind [OutInv, issue_inv, closeBatch_inv, putStrand_inv]

theorem taccrd_inv (i g d a rowHalf) {s : State} (hs : s.Inv) : OutInv (taccrd i g d a rowHalf s) := by
  unfold taccrd
  grind [OutInv, issue_inv, raise_inv, raiseBooking_inv, putStrand_inv]

/-! ### Fetch -/

theorem fetched_inv (i t) {s : State} (hs : s.Inv) : (fetched i t s).Inv := by
  unfold fetched
  grind [putStrand_inv]

theorem execIllegalWord_inv (w) {s : State} (hs : s.Inv) : OutInv (execIllegalWord w s) := by
  unfold execIllegalWord
  grind [OutInv, takeFault_inv]

/-! ### Windows -/

theorem flushLines_inv {s : State} (hs : s.Inv) (t) : (flushLines s t).2.Inv := by
  unfold flushLines
  grind [putStrand_inv, linesDue_inv]

/-! ### The boundary -/

theorem overrunInfo_inv {s : State} (hs : s.Inv) (t) : (overrunInfo s t).2.Inv := hs

theorem execOverrun_inv {s : State} (hs : s.Inv) : OutInv (execOverrun s) := by
  unfold execOverrun
  grind [OutInv, overrunInfo_inv, takeFaultAt_inv]

theorem unitData_inv {s : State} (hs : s.Inv) (o) : UnitInv (unitData s o) := by
  unfold unitData
  grind [UnitInv, unitCpy_inv, unitCpy2d_inv, unitTable_inv, unitFld_inv, unitFst_inv]

theorem execChannelUnit_inv {s : State} (hs : s.Inv) : OutInv (execChannelUnit s) := by
  unfold execChannelUnit
  grind [OutInv, drainAt_inv, finishOp_inv, applyUnit_inv, unitData_inv]

theorem execWalkerOpComplete_inv {s : State} (hs : s.Inv) : OutInv (execWalkerOpComplete s) := by
  unfold execWalkerOpComplete
  grind [OutInv, WalkInv, doKv_inv, doPage_inv, doneOp_inv, stopOp_inv]

theorem execRedmUnit_inv {s : State} (hs : s.Inv) : OutInv (execRedmUnit s) := by
  unfold execRedmUnit
  grind [OutInv, applyUnit_inv, unitRedm_inv]

theorem execLaunchArrival_inv {s : State} (hs : s.Inv) : OutInv (execLaunchArrival s) := by
  unfold execLaunchArrival
  grind [OutInv, arriveOp_inv, updCp_inv, doneOp_inv, appendTask_inv]

/-! ### Fault records -/

theorem writeRec_inv {s : State} (hs : s.Inv) (d slot r) : (writeRec s d slot r).Inv := by
  unfold writeRec
  grind [wrMem_inv]

theorem notice_inv {s : State} (hs : s.Inv) (d p code a b) : (notice s d p code a b).Inv := hs

theorem faultLost_inv {s : State} (hs : s.Inv) (d p slot) : (faultLost s d p slot).Inv := hs

theorem execFaultEventEnqueue_inv {s : State} (hs : s.Inv) : OutInv (execFaultEventEnqueue s) := by
  unfold execFaultEventEnqueue
  grind [State.Inv, OutInv, putDie_inv, writeRec_inv, updDp_inv, updDie_inv, faultLost_inv]

/-! ### The end of a task by ABORT -/

theorem cancelOps_inv {s : State} (hs : s.Inv) (task) : (cancelOps s task).Inv := by
  unfold cancelOps
  grind [foldl_inv, cancelColl_inv, dropOps_inv, flushOut_inv]

theorem leaveGang_inv {s : State} (hs : s.Inv) (cl p gang member) : (leaveGang s cl p gang member).Inv := by
  unfold leaveGang
  grind [updCp_inv]

theorem unqueue_inv {s : State} (hs : s.Inv) (k) : (unqueue s k).Inv := by
  unfold unqueue
  grind [foldl_inv, State.Inv, markHeads_inv, updCp_inv]

theorem unplace_inv {s : State} (hs : s.Inv) (k) : (unplace s k).Inv := by
  unfold unplace
  grind [foldl_inv, leaveGang_inv, updCp_inv, freeHeld_inv]

theorem abortParked_inv {s : State} (hs : s.Inv) (t) : (abortParked s t).Inv := by
  unfold abortParked
  grind [State.Inv, gangEnd_inv, closeSegment_inv, freeHeld_inv]

theorem abortTask_inv {s : State} (hs : s.Inv) (cl k) : (abortTask s cl k).Inv := by
  unfold abortTask
  grind [State.Inv, cancelOps_inv, endSegment_inv, gangEnd_inv, abortParked_inv, leaveGang_inv, taskEnd_inv,
    unplace_inv, unqueue_inv, freeImage_inv]

theorem abortEntry_inv {s : State} (hs : s.Inv) (cl e) : (abortEntry s cl e).Inv := by
  unfold abortEntry
  grind [foldl_inv, endGang_inv, abortTask_inv]

/-! ### RESUME -/

theorem queueRemainder_inv {s : State} (hs : s.Inv) (t) : (queueRemainder s t).Inv := by
  unfold queueRemainder
  grind [State.Inv, requeue_inv, freeHeld_inv]

theorem resumeEntry_inv {s : State} (hs : s.Inv) (cl e) : OptStInv (resumeEntry s cl e) := by
  unfold resumeEntry
  grind [OptStInv, updDie_inv, appendEntry_inv]

theorem actOn_inv {s : State} (hs : s.Inv) (kind e) : ExcStInv (actOn s kind e) := by
  unfold actOn
  split
  · exact .error _
  · split
    · exact .ok hs
    · split
      · exact .ok (abortTask_inv hs ..)
      · split
        · split
          · exact .error _
          · exact .ok (queueRemainder_inv hs ..)
        · exact .error _
  · next id =>
    split
    · exact .ok hs
    next o _ =>
    split
    · exact .ok (updOp_inv hs ..)
    extract_lets s1 s2 es
    have h1 : s1.Inv := by
      unfold s1
      split
      · exact cancelColl_inv hs ..
      · exact hs
    have h2 : s2.Inv := completeOp_inv (flushOut_inv h1 ..) ..
    clear_value es s2
    split
    · split
      · exact .ok (abortTask_inv h2 ..)
      · split
        · exact .ok (abortTask_inv h2 ..)
        · split
          · exact .ok (abortTask_inv h2 ..)
          · exact .ok h2
    · exact .ok h2
  · next cl en _ =>
    split
    · have hr := resumeEntry_inv hs cl en
      generalize resumeEntry s cl en = y at hr ⊢
      cases y with
      | none => exact .error _
      | some s1 => unfold OptStInv at hr; exact .ok hr
    · exact .ok (abortEntry_inv hs ..)
  · split
    · exact .ok (updBatch_inv hs ..)
    · exact .ok (updBatch_inv hs ..)

theorem processReq_inv {s : State} (hs : s.Inv) (d r) : (processReq s d r).2.Inv := by
  unfold processReq
  grind [ExcStInv, actOn_inv, writeRec_inv, updDp_inv]

theorem execFaultRequestProcessed_inv {s : State} (hs : s.Inv) : OutInv (execFaultRequestProcessed s) := by
  unfold execFaultRequestProcessed
  grind [foldl_inv, State.Inv, OutInv, updDie_inv, processReq_inv, writeReg_inv]

/-! ### Forced pre-emption -/

theorem execPreemptRequest_inv {s : State} (hs : s.Inv) : OutInv (execPreemptRequest s) := by
  unfold execPreemptRequest
  grind [foldl_inv, OutInv, updCp_inv]

theorem saveForSwitch_inv {s : State} (hs : s.Inv) (t) : (saveForSwitch s t).Inv := hs

theorem preemptNow_inv {s : State} (hs : s.Inv) (t n) : (preemptNow s t n).Inv := by
  unfold preemptNow
  grind [State.Inv, park_inv, freeHeld_inv, saveForSwitch_inv, queueEvent_inv]

theorem queueAuto_inv {s : State} (hs : s.Inv) (task) : (queueAuto s task).Inv := by
  unfold queueAuto
  grind [State.Inv, queueRemainder_inv]

theorem execPreemptSave_inv {s : State} (hs : s.Inv) : OutInv (execPreemptSave s) := by
  unfold execPreemptSave
  grind [State.Inv, OutInv, queueAuto_inv, closeBatch_inv, preemptNow_inv, stopStrand_inv, updCp_inv]

/-! ### Stopped strands -/

theorem finishEnding_inv {s : State} (hs : s.Inv) (t) : (finishEnding s t).Inv := by
  unfold finishEnding
  grind [State.Inv, faultNow_inv, preemptNow_inv, splitNow_inv, closeBatch_inv, overrunInfo_inv]

theorem settleEndings_inv {s : State} (hs : s.Inv) : (settleEndings s).Inv := by
  unfold settleEndings
  grind [foldl_inv, finishEnding_inv]

/-! ### The Whisk -/

theorem fireWhisk_inv {s : State} (hs : s.Inv) (due cl p src tag) : (fireWhisk s due cl p src tag).Inv := by
  unfold fireWhisk
  grind [foldl_inv, updCp_inv]

theorem execWhiskFire_inv {s : State} (hs : s.Inv) : OutInv (execWhiskFire s) := by
  unfold execWhiskFire
  grind [OutInv, fireWhisk_inv]

theorem execWhiskTriggerEvent_inv {s : State} (hs : s.Inv) : OutInv (execWhiskTriggerEvent s) := by
  unfold execWhiskTriggerEvent
  grind [OutInv, fireWhisk_inv, updCp_inv]

theorem latchCluster_inv {s : State} (hs : s.Inv) (cl p) : (latchCluster s cl p).2.Inv := by
  unfold latchCluster
  grind [updCp_inv]

theorem execWhiskLatch_inv {s : State} (hs : s.Inv) : OutInv (execWhiskLatch s) := by
  unfold execWhiskLatch
  grind [foldl_inv, foldl_snd_inv, State.Inv, OutInv, latchCluster_inv, updDp_inv, notice_inv]

end Sys2Proof.Machine
end

section
/-! SUPPORT. O4: the device, partitions and the last rows keep the memory form. -/

namespace Sys2Proof.Machine

open Laws

/-! ### Control registers -/

theorem readCtl_inv {s : State} (hs : s.Inv) (cl p n) : (readCtl s cl p n).2.Inv := by
  unfold readCtl
  grind [updClu_inv, setCpCtl_inv, updDp_inv]

theorem execCtlrd_inv (g d n) {s : State} (hs : s.Inv) : OutInv (execCtlrd g d n s) := by
  unfold execCtlrd
  grind [OutInv, raise_inv, issue_inv, putStrand_inv, readCtl_inv]

theorem execCtlwr_inv (g n a) {s : State} (hs : s.Inv) : OutInv (execCtlwr g n a s) := by
  unfold execCtlwr
  grind [OutInv, raise_inv, issue_inv, putStrand_inv, updCp_inv, updDp_inv]

/-! ### Traps -/

theorem trapOp_inv (i g cause va imm soft) {s : State} (hs : s.Inv) : OutInv (trapOp i g cause va imm soft s) := by
  unfold trapOp
  grind [OutInv, issue_inv, takeFaultAt_inv]

/-! ### RESUME, ABORT, WHISK -/

theorem endRequest_inv (i g kind d a) {s : State} (hs : s.Inv) : OutInv (endRequest i g kind d a s) := by
  unfold endRequest
  grind [OutInv, issueSup_inv, raise_inv, updDie_inv, putStrand_inv]

theorem execWhisk_inv (g tag) {s : State} (hs : s.Inv) : OutInv (execWhisk g tag s) := by
  unfold execWhisk
  grind [State.Inv, OutInv, raise_inv, issue_inv, putStrand_inv]

/-! ### Device registers -/

theorem setDev_inv {s : State} (hs : s.Inv) (n x) : (setDev s n x).Inv := hs

theorem setDevField_inv {s : State} (hs : s.Inv) (r lo n x) : (setDevField s r lo n x).Inv := hs

/-! ### The host semaphore -/

theorem denied_inv {s : State} (hs : s.Inv) : (denied s).Inv := hs

theorem takeSema_inv {s : State} (hs : s.Inv) (port) : (takeSema s port).Inv := hs

theorem execSemaAcquire_inv {s : State} (hs : s.Inv) : OutInv (execSemaAcquire s) := by
  unfold execSemaAcquire
  grind [OutInv, takeSema_inv]

theorem execSemaRelease_inv {s : State} (hs : s.Inv) : OutInv (execSemaRelease s) := by
  unfold execSemaRelease
  grind [OutInv, setDevField_inv]

theorem execHostLinkDown_inv {s : State} (hs : s.Inv) : OutInv (execHostLinkDown s) := by
  unfold execHostLinkDown
  grind [OutInv, setDevField_inv]

/-! ### Register reads -/

theorem readDev_inv {s : State} (hs : s.Inv) (n) : (readDev s n).Inv := by
  unfold readDev
  grind [State.Inv]

/-! ### Register writes -/

theorem regWrite_inv {s : State} (hs : s.Inv) (n x) : (regWrite s n x).Inv := by
  unfold regWrite
  grind [State.Inv, denied_inv, setDevField_inv, setDev_inv]

theorem execHostRegisterWrite_inv {s : State} (hs : s.Inv) : OutInv (execHostRegisterWrite s) := by
  unfold execHostRegisterWrite
  grind [State.Inv, OutInv, readDev_inv, denied_inv, regWrite_inv]

/-! ### Active messages -/

theorem amLog_inv {s : State} (hs : s.Inv) (port reason) : (amLog s port reason).Inv := hs

theorem activeMessage_inv {s : State} (hs : s.Inv) (timed) : (activeMessage s timed).Inv := by
  unfold activeMessage
  grind [amLog_inv, appendTask_inv, arrive_inv]

/-! ### Other reads that clear -/

theorem execCalStatRead_inv {s : State} (hs : s.Inv) : OutInv (execCalStatRead s) := .next hs

theorem execFltLostRead_inv {s : State} (hs : s.Inv) : OutInv (execFltLostRead s) := .next hs

theorem execSnapStatRead_inv {s : State} (hs : s.Inv) : OutInv (execSnapStatRead s) := .next hs

/-! ### Links -/

theorem noticeAll_inv {s : State} (hs : s.Inv) (code a b) : (noticeAll s code a b).Inv := by
  unfold noticeAll
  grind [foldl_inv, notice_inv]

theorem execLinkRetrain_inv {s : State} (hs : s.Inv) : OutInv (execLinkRetrain s) := by
  unfold execLinkRetrain
  grind [State.Inv, OutInv, noticeAll_inv]

/-! ### Time -/

theorem reconvert_inv {s : State} (hs : s.Inv) : (reconvert s).Inv := hs

theorem stepTime_inv {s : State} (hs : s.Inv) (ns) : (stepTime s ns).Inv := hs

theorem execTimeStep_inv {s : State} (hs : s.Inv) : OutInv (execTimeStep s) := by
  unfold execTimeStep
  grind [foldl_inv, State.Inv, OutInv, reconvert_inv, stepTime_inv]

theorem execPpsEdge_inv {s : State} (hs : s.Inv) : OutInv (execPpsEdge s) := by
  unfold execPpsEdge
  grind [State.Inv, OutInv, setDev_inv, reconvert_inv]

theorem applyPending_inv {s : State} (hs : s.Inv) : (applyPending s).Inv := by
  unfold applyPending
  grind [foldl_inv, State.Inv, setDev_inv, updClu_inv, updCp_inv, updDp_inv]

/-! ### Boot and firmware -/

theorem execBootStage_inv {s : State} (hs : s.Inv) : OutInv (execBootStage s) := by
  unfold execBootStage
  grind [foldl_inv, State.Inv, OutInv, setDev_inv]

theorem execFwWindowWrite_inv {s : State} (hs : s.Inv) : OutInv (execFwWindowWrite s) := by
  unfold execFwWindowWrite
  grind [countCe, wf_wrBytes, State.Inv, OutInv, denied_inv]

theorem execFwVerifyCommit_inv {s : State} (hs : s.Inv) : OutInv (execFwVerifyCommit s) := by
  unfold execFwVerifyCommit
  grind [State.Inv, OutInv, denied_inv, setDev_inv]

theorem execFwDiscard_inv {s : State} (hs : s.Inv) : OutInv (execFwDiscard s) := by
  unfold execFwDiscard
  split
  · exact .next (denied_inv hs)
  · have h : State.Inv { s with dev := { s.dev with fwWindow := [] } } := ⟨hs.1, rfl⟩
    exact .next (setDev_inv h ..)

theorem execFwCmdDone_inv {s : State} (hs : s.Inv) : OutInv (execFwCmdDone s) := by
  unfold execFwCmdDone
  grind [State.Inv, OutInv, setDev_inv]

/-! ### Attestation -/

theorem execAttestation_inv {s : State} (hs : s.Inv) : OutInv (execAttestation s) := by
  unfold execAttestation
  grind [State.Inv, OutInv, denied_inv, setDev_inv]

theorem execAttReportDone_inv {s : State} (hs : s.Inv) : OutInv (execAttReportDone s) := by
  unfold execAttReportDone
  grind [State.Inv, OutInv, setDev_inv, wrMem_inv]

/-! ### Soft errors, cooling, power and reset -/

theorem strikeMem_inv {s : State} (hs : s.Inv) (a hard) : (strikeMem s a hard).Inv := by
  unfold strikeMem
  grind [State.Inv]

theorem strikeStore_inv {s : State} (hs : s.Inv) (st cl n hard) : (strikeStore s st cl n hard).Inv := by
  unfold strikeStore
  grind [State.Inv, updCp_inv]

theorem execEccScrub_inv {s : State} (hs : s.Inv) : OutInv (execEccScrub s) := by
  unfold execEccScrub countCe
  grind [OutInv, strikeMem_inv, strikeStore_inv, correctSoft_inv, State.Inv]

theorem execThermalLimit_inv {s : State} (hs : s.Inv) : OutInv (execThermalLimit s) := .next hs

theorem execPowerOffTrip_inv {s : State} (hs : s.Inv) : OutInv (execPowerOffTrip s) := .next hs

theorem execDeviceReset_inv {s : State} (hs : s.Inv) : OutInv (execDeviceReset s) :=
  .next ⟨hs.1, rfl⟩

/-! ### Commands -/

theorem beginCmd_inv {s : State} (hs : s.Inv) (op r) : (beginCmd s op r).Inv := hs

theorem command_inv (op) {f : State → Option ℕ × State} (hf : ∀ y0, y0.Inv → (f y0).2.Inv) {s : State} (hs : s.Inv) :
    OutInv (command op f s) := by
  unfold command
  grind [OutInv, beginCmd_inv, denied_inv]

theorem cmdResult_inv {s : State} (hs : s.Inv) (r) : (cmdResult s r).Inv := hs

theorem execPartCmdDone_inv {s : State} (hs : s.Inv) : OutInv (execPartCmdDone s) := by
  unfold execPartCmdDone
  grind [State.Inv, OutInv, setDevField_inv]

/-! ### CREATE -/

theorem clearPart_inv {s : State} (hs : s.Inv) (p) : (clearPart s p).Inv := hs

theorem joinClusters_inv {s : State} (hs : s.Inv) (p quota cs) : (joinClusters s p quota cs).Inv := by
  unfold joinClusters
  grind [foldl_inv, updClu_inv, updCp_inv]

theorem execPartCreate_inv {s : State} (hs : s.Inv) : OutInv (execPartCreate s) := by
  unfold execPartCreate
  grind [State.Inv, OutInv, command_inv, clearPart_inv, joinClusters_inv]

/-! ### DESTROY -/

theorem destroyPart_inv {s : State} (hs : s.Inv) (p) : (destroyPart s p).Inv := by
  unfold destroyPart
  grind [foldl_inv, State.Inv, cancelColl_inv, clearPart_inv]

theorem execPartDestroy_inv {s : State} (hs : s.Inv) : OutInv (execPartDestroy s) := by
  unfold execPartDestroy
  grind [OutInv, cmdResult_inv, destroyPart_inv, command_inv]

/-! ### QUOTA and MAP -/

theorem execPartQuota_inv {s : State} (hs : s.Inv) : OutInv (execPartQuota s) := by
  unfold execPartQuota
  grind [foldl_inv, OutInv, command_inv, updCp_inv]

theorem hostMap_inv {s : State} (hs : s.Inv) (p) : (hostMap s p).2.Inv := by
  unfold hostMap
  grind [WalkInv, wErr_inv, mapRec_inv]

theorem execPartMap_inv {s : State} (hs : s.Inv) : OutInv (execPartMap s) := by
  unfold execPartMap
  grind [foldl_inv, State.Inv, OutInv, command_inv, hostMap_inv, setDev_inv, notice_inv]

/-! ### SWITCH -/

theorem reenter_inv {s : State} (hs : s.Inv) (c p) : (reenter s c p).Inv := hs

theorem moveImage_inv {s : State} (hs : s.Inv) (p e) : (moveImage s p e).Inv := by
  unfold moveImage
  grind [State.Inv, wrMem_inv]

theorem imagesOut_inv {s : State} (hs : s.Inv) (c p) : (imagesOut s c p).Inv := by
  unfold imagesOut
  grind [foldl_inv, moveImage_inv]

theorem imagesIn_inv {s : State} (hs : s.Inv) (c p) : (imagesIn s c p).Inv := by
  unfold imagesIn
  grind [foldl_inv, moveImage_inv]

theorem contsOut_inv {s : State} (hs : s.Inv) (c p) : (contsOut s c p).Inv := by
  unfold contsOut
  grind [foldl_inv, updCont_inv]

theorem contsIn_inv {s : State} (hs : s.Inv) (c p) : (contsIn s c p).Inv := by
  unfold contsIn
  grind [foldl_inv, updCont_inv]

theorem switchCluster_inv {s : State} (hs : s.Inv) (c p) : (switchCluster s c p).Inv := by
  unfold switchCluster
  grind [imagesOut_inv, contsOut_inv, updCp_inv, flushOut_inv, contsIn_inv, imagesIn_inv, reenter_inv, markHeads_inv,
    updClu_inv]

theorem execPartSwitch_inv {s : State} (hs : s.Inv) : OutInv (execPartSwitch s) := by
  unfold execPartSwitch
  grind [foldl_inv, OutInv, switchCluster_inv, cmdResult_inv, command_inv, updClu_inv]

/-! ### DIE_RESET -/

theorem execDieReset_inv {s : State} (hs : s.Inv) : OutInv (execDieReset s) := by
  unfold execDieReset
  grind [foldl_inv, State.Inv, OutInv, cancelColl_inv, dropColls_inv, notice_inv]

/-! ### Predicates -/

theorem predOp_inv (i g d a b f) {s : State} (hs : s.Inv) : OutInv (predOp i g d a b f s) :=
  laneOp_inv (hs := hs) ..

/-! ### Branches -/

theorem branchOp_inv (i g on) {s : State} (hs : s.Inv) : OutInv (branchOp i g on s) :=
  laneOp_inv (hs := hs) ..

/-! ### Compare and mask -/

theorem maskOp_inv (i g d f) {s : State} (hs : s.Inv) : OutInv (maskOp i g d f s) :=
  laneOp_inv (hs := hs) ..

end Sys2Proof.Machine
end

section
/-! SUPPORT. O4: every row, and so every step, keeps the memory form. -/

namespace Sys2Proof.Machine

open Laws

/-! ### Rows with a time of their own -/

theorem nextCycle_inv {s : State} (hs : s.Inv) : (nextCycle s).Inv := by
  unfold nextCycle
  grind [State.Inv, applyPending_inv]

/-! ### Rows whose time is open -/

theorem pickRow_inv {s : State} (hs : s.Inv) : (pickRow s).2.Inv := by
  unfold pickRow
  grind [freePick_inv]

/-! ### Rows that an outside party brings -/

theorem dueInput_inv {s : State} (hs : s.Inv) : OptInv (dueInput s) := by
  unfold dueInput
  grind [State.Inv, OptInv]

/-! ### A lane in a cycle -/

theorem takeTurn_inv {s : State} (hs : s.Inv) (n) : (takeTurn s n).Inv := by
  unfold takeTurn
  grind [State.Inv]

/-! ### Rows and lanes -/

theorem exec_inv {s : State} (hs : s.Inv) (i : Instr) : OutInv (exec i s) := by
  cases i
  all_goals simp only [exec]
  case add | sub | mul | mulh | mulhs | and | or | xor | andn | orn | shl | shr | sar | rol | min | max | mins | maxs
    | clz | ctz | popc | sel | bfx | bfi | lea | addi | muli | andi | ori | xori | shli | shri | sari | roli | mini |
    maxi | leai | movi | movhi | mov | ptog | ptogF | rdtick | rdtime | rdid | ctrget | qstat | mcnt | mfirst | vextr
    =>
    exact aluOp_inv (hs := hs) ..
  case vmin | vmax | vabs | vneg | vclass | viabs | viaddsat | vperm | vshuf | vrot | vbcast | vscan | vdot | vunpk |
    vrand | attmV | vrope =>
    exact vecOp_inv (hs := hs) ..
  case addsat | gtop | gtopF | cmp | cmpi | pset | vcmp | vsel | vins | vred | vcvt | vpack | vqscale | attmS =>
    exact laneOp_inv (hs := hs) ..
  case viadd | visub | vimul | vimulh | vishl | vishr | visar | vand | vor | vxor | vimin | vimax =>
    exact vecInt2_inv (hs := hs) ..
  case pgalloc | pgcow | pgget | pgpin | pgunpin | pgspill | pgfill | kvsplice | kvspliceS | kvtrim | rampset =>
    exact pageOp_inv (hs := hs) ..
  case sjoin | sprune | sact | shor | sstep | ssnap | spin | spinU | sget | sset =>
    exact streamOp_inv (hs := hs) ..
  case aadd | afadd | amin | amax | aand | aor | axor | aswp | acas =>
    exact atomOp_inv (hs := hs) ..
  case cpy | cpy2d | gath | scat | fld | fst | redm =>
    exact dataForm_inv (hs := hs) ..
  case tzero | tmma | tmmat | tmmbt | tmmring | tdrain | tdrainx =>
    exact tileForm_inv (hs := hs) ..
  case b | bl | br | blr | loop =>
    exact branchOp_inv (hs := hs) ..
  case vrcp | vrsq | vexp2 | vlog2 | vtanh =>
    exact vecFp1_inv (hs := hs) ..
  case div | divs | rem | rems =>
    exact divOp_inv (hs := hs) ..
  case pand | por | pxor | pandn =>
    exact predOp_inv (hs := hs) ..
  case pgfree | pgref | pgmap | pgunmap =>
    exact supPageOp_inv (hs := hs) ..
  case mand | mor | mxor | mnot =>
    exact maskOp_inv (hs := hs) ..
  case amLogRead | eccCeRead | tenDropRead | hostSemaRead =>
    exact OutInv.next (readDev_inv (hs := hs) ..)
  case trap | brk | syscall =>
    exact trapOp_inv (hs := hs) ..
  case vadd | vsub | vmul =>
    exact vecFp2_inv (hs := hs) ..
  case vfma | vfms | vfnma =>
    exact vecFma_inv (hs := hs) ..
  case continuationQueued | watchTimeout | yieldTimeExpiry =>
    exact queueWhen_inv (hs := hs) ..
  case resume | abort =>
    exact endRequest_inv (hs := hs) ..
  case ld | ldx =>
    exact loadOp_inv (hs := hs) ..
  case st | stx =>
    exact storeOp_inv (hs := hs) ..
  case vlds | vgath =>
    exact vecLoad_inv (hs := hs) ..
  case vsts | vscat =>
    exact vecStore_inv (hs := hs) ..
  case bar | phase =>
    exact barOp_inv (hs := hs) ..
  case domset | domget =>
    exact engineOp_inv (hs := hs) ..
  case vdiv | vsqrt =>
    exact vecDivOp_inv (hs := hs) ..
  case sactp | sstepB =>
    exact slotForm_inv (hs := hs) ..
  case taccrd | taccrdR =>
    exact taccrd_inv (hs := hs) ..
  case activeMessage | timedActiveMessage =>
    exact OutInv.next (activeMessage_inv (hs := hs) ..)
  case packetDiscard =>
    exact OutInv.next (dropPacket_inv (hs := hs) ..)
  case segend => exact execSegend_inv (hs := hs) ..
  case split => exact execSplit_inv (hs := hs) ..
  case exit => exact execExit_inv (hs := hs) ..
  case yield => exact execYield_inv (hs := hs) ..
  case ctlrd => exact execCtlrd_inv (hs := hs) ..
  case ctlwr => exact execCtlwr_inv (hs := hs) ..
  case whisk => exact execWhisk_inv (hs := hs) ..
  case ldf => exact execLdf_inv (hs := hs) ..
  case stf => exact execStf_inv (hs := hs) ..
  case clrf => exact execClrf_inv (hs := hs) ..
  case feq => exact execFeq_inv (hs := hs) ..
  case vld => exact execVld_inv (hs := hs) ..
  case vst => exact execVst_inv (hs := hs) ..
  case vldb => exact execVldb_inv (hs := hs) ..
  case pgset => exact execPgset_inv (hs := hs) ..
  case waitc => exact execWaitc_inv (hs := hs) ..
  case fence => exact execFence_inv (hs := hs) ..
  case book => exact execBook_inv (hs := hs) ..
  case calrel => exact execCalrel_inv (hs := hs) ..
  case calq => exact execCalq_inv (hs := hs) ..
  case gang => exact execGang_inv (hs := hs) ..
  case launch => exact execLaunch_inv (hs := hs) ..
  case qpush => exact execQpush_inv (hs := hs) ..
  case qcfg => exact execQcfg_inv (hs := hs) ..
  case pipebind => exact execPipebind_inv (hs := hs) ..
  case sfork => exact execSfork_inv (hs := hs) ..
  case ssetC => exact execSsetC_inv (hs := hs) ..
  case kvapp => exact execKvapp_inv (hs := hs) ..
  case attd => exact execAttd_inv (hs := hs) ..
  case lfilt => exact execLfilt_inv (hs := hs) ..
  case sample => exact execSample_inv (hs := hs) ..
  case accept => exact execAccept_inv (hs := hs) ..
  case commit => exact execCommit_inv (hs := hs) ..
  case dqsend => exact execDqsend_inv (hs := hs) ..
  case dqrecv => exact execDqrecv_inv (hs := hs) ..
  case msend => exact execMsend_inv (hs := hs) ..
  case mrecv => exact execMrecv_inv (hs := hs) ..
  case coll => exact execColl_inv (hs := hs) ..
  case tcommit => exact execTcommit_inv (hs := hs) ..
  case twait => exact execTwait_inv (hs := hs) ..
  case tblatch => exact execTblatch_inv (hs := hs) ..
  case illegalWord => exact execIllegalWord_inv (hs := hs) ..
  case deviceReset => exact execDeviceReset_inv hs
  case bootStage => exact execBootStage_inv hs
  case tickBoundary => exact execTickBoundary_inv hs
  case headUrgent => exact execHeadUrgent_inv hs
  case farWorkDone => exact execFarWorkDone_inv hs
  case localCopy => exact execLocalCopy_inv hs
  case icacheBlockLoad => exact execIcacheBlockLoad_inv hs
  case segmentStart => exact execSegmentStart_inv hs
  case overrun => exact execOverrun_inv hs
  case continuationRecordComplete => exact execContinuationRecordComplete_inv hs
  case gangRoundEnd => exact execGangRoundEnd_inv hs
  case gangNextRound => exact execGangNextRound_inv hs
  case spillWindow => exact execSpillWindow_inv hs
  case idleExpiry => exact execIdleExpiry_inv hs
  case evictionAdmit => exact execEvictionAdmit_inv hs
  case batchClose => exact execBatchClose_inv hs
  case streamSequencePoint => exact execStreamSequencePoint_inv hs
  case joinReduction => exact execJoinReduction_inv hs
  case snapshotTransferDone => exact execSnapshotTransferDone_inv hs
  case pendingSlotDrain => exact execPendingSlotDrain_inv hs
  case channelUnit => exact execChannelUnit_inv hs
  case walkerOpComplete => exact execWalkerOpComplete_inv hs
  case kvappToken => exact execKvappToken_inv hs
  case attdPage => exact execAttdPage_inv hs
  case lfiltPass => exact execLfiltPass_inv hs
  case redmUnit => exact execRedmUnit_inv hs
  case collHop => exact execCollHop_inv hs
  case collComplete => exact execCollComplete_inv hs
  case launchArrival => exact execLaunchArrival_inv hs
  case msendDelivery => exact execMsendDelivery_inv hs
  case farAtomicPerform => exact execFarAtomicPerform_inv hs
  case replWriteSequence => exact execReplWriteSequence_inv hs
  case dqsendSequenced => exact execDqsendSequenced_inv hs
  case dqEntryArrive => exact execDqEntryArrive_inv hs
  case ringDelivery => exact execRingDelivery_inv hs
  case domainArrival => exact execDomainArrival_inv hs
  case phaseSweep => exact execPhaseSweep_inv hs
  case domainCompletion => exact execDomainCompletion_inv hs
  case rampsetComplete => exact execRampsetComplete_inv hs
  case tileCommandStart => exact execTileCommandStart_inv hs
  case tileBatchCommit => exact execTileBatchCommit_inv hs
  case deferredEccFault => exact execDeferredEccFault_inv hs
  case faultEventEnqueue => exact execFaultEventEnqueue_inv hs
  case faultRequestProcessed => exact execFaultRequestProcessed_inv hs
  case preemptRequest => exact execPreemptRequest_inv hs
  case preemptSave => exact execPreemptSave_inv hs
  case whiskFire => exact execWhiskFire_inv hs
  case whiskTriggerEvent => exact execWhiskTriggerEvent_inv hs
  case whiskLatch => exact execWhiskLatch_inv hs
  case hostRegisterWrite => exact execHostRegisterWrite_inv hs
  case semaAcquire => exact execSemaAcquire_inv hs
  case semaRelease => exact execSemaRelease_inv hs
  case hostLinkDown => exact execHostLinkDown_inv hs
  case linkRetrain => exact execLinkRetrain_inv hs
  case partCreate => exact execPartCreate_inv hs
  case partDestroy => exact execPartDestroy_inv hs
  case partSwitch => exact execPartSwitch_inv hs
  case partQuota => exact execPartQuota_inv hs
  case partMap => exact execPartMap_inv hs
  case fwWindowWrite => exact execFwWindowWrite_inv hs
  case fwVerifyCommit => exact execFwVerifyCommit_inv hs
  case fwDiscard => exact execFwDiscard_inv hs
  case attestation => exact execAttestation_inv hs
  case timeStep => exact execTimeStep_inv hs
  case ppsEdge => exact execPpsEdge_inv hs
  case dieReset => exact execDieReset_inv hs
  case thermalLimit => exact execThermalLimit_inv hs
  case powerOffTrip => exact execPowerOffTrip_inv hs
  case eccScrub => exact execEccScrub_inv hs
  case calStatRead => exact execCalStatRead_inv hs
  case fltLostRead => exact execFltLostRead_inv hs
  case snapStatRead => exact execSnapStatRead_inv hs
  case partCmdDone => exact execPartCmdDone_inv hs
  case fwCmdDone => exact execFwCmdDone_inv hs
  case attReportDone => exact execAttReportDone_inv hs
  case domainRequestAtHome => exact execDomainRequestAtHome_inv hs
  case collLayoutCheck => exact execCollLayoutCheck_inv hs
  case completionTimeout => exact execCompletionTimeout_inv hs

theorem perfRow_inv (r : Instr × EvArg) {s : State} (hs : s.Inv) : OutInv (perfRow r s) :=
  exec_inv (s := { s with ev := r.2 }) ⟨hs.1, hs.2⟩ r.1

theorem offerStep_inv {s : State} (hs : s.Inv) (t i w) : OutInv (offerStep s t i w) := by
  have h := exec_inv (fetched_inv i t hs) i
  unfold offerStep
  grind [OutInv, putStrand_inv, perfRow_inv]

theorem firstStep_inv {s : State} (hs : s.Inv) (t t' i) : OutInv (firstStep s t t' i) := by
  have h := exec_inv (fetched_inv i t hs) i
  unfold firstStep
  grind [OutInv, putStrand_inv]

theorem laneStep_inv {s : State} (hs : s.Inv) (t : Strand) : OutInv (laneStep s t) := by
  unfold laneStep
  cases laneAct s t with
  | idle => exact .next hs
  | wait t' => exact .next (putStrand_inv hs t')
  | cause f => exact .next (takeFault_inv hs ..)
  | event i a => exact perfRow_inv (i, a) hs
  | offer i w => exact offerStep_inv hs t i w
  | first i t' => exact firstStep_inv hs t t' i
  | run i => exact exec_inv (fetched_inv i t hs) i

theorem laneTurn_inv {s : State} (hs : s.Inv) (n t) : OutInv (laneTurn s n t) :=
  laneStep_inv (hs := flushLines_inv (hs := takeTurn_inv (hs := hs) ..) ..) ..

theorem endTurn_inv {s : State} (hs : s.Inv) : OutInv (endTurn s) := by
  unfold endTurn
  grind [State.Inv, OutInv, OptInv, dueInput_inv, perfRow_inv, pickRow_inv, nextCycle_inv]

theorem freeTurn_inv {s : State} (hs : s.Inv) : OutInv (freeTurn s) := by
  unfold freeTurn
  grind [State.Inv, OutInv, laneTurn_inv, settleEndings_inv, endTurn_inv, nextCycle_inv]

theorem offStep_inv {s : State} (hs : s.Inv) : OutInv (offStep s) := by
  unfold offStep
  grind [State.Inv, OutInv, perfRow_inv]

theorem onStep_inv {s : State} (hs : s.Inv) : OutInv (onStep s) := by
  unfold onStep
  grind [State.Inv, OutInv, perfRow_inv, freeTurn_inv]

theorem OutInv.inv {s : State} (h : OutInv (.next s)) : s.Inv := by
  unfold OutInv at h
  exact h

theorem step_inv {s : State} (hs : s.Inv) : OutInv (step s) := by
  unfold step
  split
  · exact offStep_inv hs
  · exact onStep_inv hs

/-- Settles O4: what a step answers is `OutInv` of a state with the invariant, by the lemma of each row. -/
theorem stepKeepsMemoryForm : Obligations.StepKeepsMemoryForm :=
  fun _ _ hs h => (h ▸ step_inv hs).inv

end Sys2Proof.Machine
end
